-- ==== Sys2Proof/Word.lean ====
section
/-! DEFINITION. The word types of the bridge: bytes, register words, identities. -/

namespace Sys2Proof

/-- A byte. -/
abbrev Byte := BitVec 8

/-- A 32-bit register word (R17). -/
abbrev Word := BitVec 32

/-- A 24-bit identity of Table 11.2 (R239). -/
abbrev Ident := BitVec 24

end Sys2Proof
end

