-- ==== Sys2Proof/Packets.lean ====
section
/-! DEFINITION. What travels on the bridge's interfaces: Thaty packets (R45 to R48), Gulum frames (R77 to R82), register
accesses (R18), and the readings that fuses, flash, sensors and trainers give it. -/

namespace Sys2Proof

/-- Where a register access comes from: the two Thaty links, the service path, the debug master (Table 11.2). -/
inductive Src
  | tl0 | tl1 | svc | dbg
  deriving DecidableEq, Repr

/-- A register access: its source, requester ID and P, whether it is posted, and for a Thaty access its VC and TAG. -/
structure Acc where
  src : Src
  reqId : BitVec 20 := 0
  priv : Bool := true
  posted : Bool := false
  vc : Fin 4 := 0
  tag : BitVec 16 := 0
  deriving DecidableEq, Repr

/-- Request header of MRD and MWR (Table 3.4). `len` is the coded LEN field (0 encodes 512) and `addr` the granule address. -/
structure ReqHdr where
  vc : Fin 4
  priv : Bool
  np : Bool
  poison : Bool
  reqId : BitVec 20
  tag : BitVec 16
  fbe : Byte
  lbe : Byte
  len : BitVec 10
  addr : BitVec 56
  deriving DecidableEq, Repr

/-- Completion header of CPL and CPLD (Table 3.5). -/
structure CplHdr where
  vc : Fin 4
  poison : Bool
  destId : BitVec 20
  tag : BitVec 16
  status : BitVec 4
  last : Bool
  len : BitVec 10
  cmplId : BitVec 20
  offset : BitVec 9
  deriving DecidableEq, Repr

/-- Message header of MSG (Table 3.6). -/
structure MsgHdr where
  vc : Fin 4
  priv : Bool
  destId : BitVec 20
  code : Byte
  len : BitVec 4
  srcId : BitVec 20
  arg : Word
  deriving DecidableEq, Repr

/-- A Thaty packet with its payload bytes. -/
inductive Packet
  | mrd (h : ReqHdr)
  | mwr (h : ReqHdr) (data : List Byte)
  | cpl (h : CplHdr) (data : List Byte)
  | cpld (h : CplHdr) (data : List Byte)
  | msg (h : MsgHdr) (body : List Byte)
  deriving DecidableEq, Repr

/-- A Gulum frame (Table 4.2, Table 4.3): header fields, the address extension when AX is 1, payload bytes and the CRC as
received or sent. `addr` is the 30-bit word address (ADDR_EXT and ADDR). -/
structure Frame where
  ftype : BitVec 5
  ax : Bool
  daddr : BitVec 11
  len : BitVec 6
  fbe : BitVec 4
  lbe : BitVec 4
  addr : BitVec 22
  arg : Byte
  addrExt : Byte := 0
  peer : Bool := false
  srcPort : Byte := 0
  srcDaddr : BitVec 11 := 0
  rsvHead : BitVec 1 := 0
  rsvArg : BitVec 2 := 0
  rsvExt : BitVec 4 := 0
  rsvTail : Word := 0
  payload : List Byte := []
  crc : Word
  deriving DecidableEq, Repr

/-- What a training attempt of a link found (R66): good logical lanes, reversal, and the partner's advertised credits, in the
order PH, PD, NPH, NPD for VC0 to VC3, and whether it advertised a finite completion credit (R59). -/
structure LinkTrain where
  lanes : BitVec 16
  reversed : Bool
  credits : List Nat
  finiteCpl : Bool
  deriving DecidableEq, Repr

/-- What fuse sense reads (R337): die ID, speed bin, MIN_SVN, the key hash (SHA-384), the fused repair records of 8 bytes, the
factory fuse, and whether a parity error was found. -/
structure FuseData where
  dieId : BitVec 64
  speedBin : BitVec 4
  minSvn : Fin 64
  keyHash : List Byte
  repair : List (List Byte)
  factory : Bool
  parityErr : Bool
  deriving DecidableEq, Repr

/-- The inputs that one Kickstand sample reads (R313, Table 14.9): SBI levels, TWAKE_N, and the signal detectors of the 144
ports. -/
structure KickIn where
  sbi : BitVec 16
  twakeN : Bool
  sigDet : BitVec 144 := 0
  deriving DecidableEq, Repr

/-- The two translation tables (Table 2.1). -/
inductive Tbl
  | wtt | dvt
  deriving DecidableEq, Repr

/-- The two kinds of Pouncing slice (R286). -/
inductive SliceKind
  | mem | eng
  deriving DecidableEq, Repr

/-- What the test step of a slice delivers to Judge (R289, R291): its completion count, its MISR and the expected signature,
and for memory the failing cells as (row, bit) in March order, each once. -/
structure SliceResult where
  count : Nat
  misr : Word
  expected : Word
  cells : List (Nat × Nat) := []
  deriving DecidableEq, Repr

/-- A part that the slew governor powers (Table 14.4): a Hub port, an engine, a lane of a Thaty link, the Gulum lane of a
physical port. -/
inductive Part
  | hub (h : Nat) | eng (e : Nat) | tlane (l n : Nat) | glane (p : Nat)
  deriving DecidableEq, Repr

/-- What LOAD's BIST finds (R339): the sub-banks that fail the first run, each with its failing cells as (row, bit) in March order, those
that fail the run after repair, and the engines that fail logic BIST. -/
structure BistResult where
  fails : List (Nat × List (Nat × Nat))
  again : List Nat
  badEngs : List Nat
  deriving DecidableEq, Repr

/-- What flash discovery finds (R327, R328): whether SFDP of a fit revision answers, log2 of the size in bytes, whether the flash declares what
R327 asks of it, whether it declares the 4-byte instructions, and which read modes it declares with the quad-enable requirement none or
already met. -/
structure FlashInfo where
  sfdp : Bool
  sizeLog2 : Nat
  fit : Bool
  four : Bool
  m144 : Bool
  m114 : Bool
  m111 : Bool
  deriving DecidableEq, Repr

/-- How a memory or flit word was found (R175, R220, R274). -/
inductive WordErr
  | corrected | uncorrectable
  deriving DecidableEq, Repr

end Sys2Proof
end

