-- ==== Sys2Proof/Syntax.lean ====
section
/-! DEFINITION. The commands of the bridge: one constructor per row of the opcode table, with the row's operands. The order is
the table's. -/

namespace Sys2Proof

/-- A command. Each docstring gives the rule and the mnemonic of the row. -/
inductive Instr
  /-- R305, PERST_N_ASSERT: Assertion of PERST_N stops all activity except SBI sampling and puts the bridge in RESET. -/
  | perstNAssert
  /-- R337, PERST_N_RELEASE: Release of PERST_N samples the straps, starts the timestamp and begins the LOAD sequence.
    -/
  | perstNRelease (straps : Byte)
  /-- R298, ROOT_PLL_LOCK: The root PLL locks after PERST_N release, which completes LOAD step 1. -/
  | rootPllLock
  /-- R298, ROOT_PLL_LOCK_LOSS: Loss of root-PLL lock raises fatal source 0x180. -/
  | rootPllLockLoss
  /-- R337, FUSE_SENSE: Fuse sense ends; this is the first LOAD checkpoint and ALIVE starts with a rising edge. -/
  | fuseSense (f : FuseData)
  /-- R328, FLASH_DISCOVERY: SFDP is read and the flash read mode and address width are selected. -/
  | flashDiscovery (info : FlashInfo)
  /-- R343, SETTINGS_READ: Both settings headers and the current copy are read, and slot order is chosen under R336. -/
  | settingsRead (x y : List Byte)
  /-- R335, SLOT_FETCH: The fetch of a slot's image ends, with checks 1–3 computed as the bytes arrived. -/
  | slotFetch (bytes : List Byte)
  /-- R335, SLOT_CHECKS: Checks 4–7 of a slot complete; a failed slot has its targets reset and raises source 0x1A0, and
    the next slot is tried or rescue SERVICE is entered. -/
  | slotChecks
  /-- R338, LOAD_CORE_VOLTAGE: The bridge makes its first AVSBus write with VBIN of the fused speed bin. -/
  | loadCoreVoltage
  /-- R339, LOAD_BIST: Memory BIST with repair and engine logic BIST end, and the Journal, Landing pool and active
    engines are formed. -/
  | loadBist (r : BistResult)
  /-- R340, LOAD_COMMIT: On the commit edge image values become reset values, the Journal becomes FREE and Kickstand
    rules take effect. -/
  | loadCommit
  /-- R337, LOAD_END: Every link and port has reached UP, DOWN or OFF, so LOAD ends and the bridge enters RUN. -/
  | loadEnd
  /-- R282, ALIVE_TOGGLE: Every 200 AON cycles the Kickstand inverts ALIVE. -/
  | aliveToggle
  /-- R283, LIVENESS_TOKEN: Every 1 µs the fault collector sends the Kickstand a liveness token. -/
  | livenessToken
  /-- R283, LIVENESS_TIMEOUT: No liveness token arrives for 2 µs, so ALIVE stops and source 0x183 is raised. -/
  | livenessTimeout (collectorRuns : Bool)
  /-- R299, DROOP_N_ASSERT: DROOP_N is sampled low: wake grants and adaptation freeze and CORE and ENG pulses are
    removed. -/
  | droopNAssert
  /-- R299, DROOP_N_RELEASE: DROOP_N is sampled high and the release ramp of stretching starts. -/
  | droopNRelease
  /-- R299, STRETCH_RAMP_STEP: Every 250 ns after release, the removal rate steps down one level until stretching ends
    and wakes resume. -/
  | stretchRampStep
  /-- R300, ADAPTATION_RESUME: Receiver adaptation resumes 2 µs after DROOP_N is sampled high. -/
  | adaptationResume
  /-- R322, TEMP_SENSOR_UPDATE: The die sensors update; a reading above 105 °C raises fatal source 0x182, and the AVS
    setpoint may change. -/
  | tempSensorUpdate (t : List Byte)
  /-- R321, AVS_WRITE: A changed setpoint is written to the AVSBus rail and read back. -/
  | avsWrite
  /-- R321, AVS_TRANSACTION_DONE: An AVSBus transaction ends; the third failure raises 0x181. -/
  | avsTransactionDone (ok : Bool) (vread : BitVec 16)
  /-- R313, KICKSTAND_SAMPLE: Every 1 µs the Kickstand samples its inputs, debounces them and runs rule_tick for rules
    0–31. -/
  | kickstandSample (k : KickIn)
  /-- R18, REGISTER_WRITE: A BCS write to a register, table word or region without a row of its own, performed or
    refused under the access forms, modes, G_CTL and the field codes. -/
  | registerWrite (a : Acc) (off : BitVec 26) (bytes : List (Option Byte))
  /-- R28, CLEAR_ON_READ: A read at the base offset of a register clears its RC fields. -/
  | clearOnRead (a : Acc) (off : BitVec 26)
  /-- R20, PAIR_LO_READ: A 4-byte read of a pair's _LO returns the live _LO and fills the shared _HI shadow. -/
  | pairLoRead (a : Acc) (off : BitVec 26)
  /-- R20, PAIR_HI_READ: A 4-byte read of a pair's _HI returns and empties a full shadow, or else returns the live _HI.
    -/
  | pairHiRead (a : Acc) (off : BitVec 26)
  /-- R26, ALIAS_WRITE: A write through a SET, CLR or TGL alias modifies each field as Table 2.3 gives. -/
  | aliasWrite (a : Acc) (off : BitVec 26) (v : Word)
  /-- R32, KEYED_WRITE: A write to A or A+4 of a keyed register without its own row starts or completes a value-and-
    complement pair, or fails and sets KEY_FAIL. -/
  | keyedWrite (a : Acc) (off : BitVec 26) (v : Word)
  /-- R32, KEY_PENDING_EXPIRE: A pending first half of a keyed pair expires 100 µs after it was performed. -/
  | keyPendingExpire (off : BitVec 26)
  /-- R24, SLOW_ACCESS_COMPLETE: An access to KST or IMG finishes its slow-domain crossing, and its completion and the
    queue place are released. -/
  | slowAccessComplete
  /-- R30, UPD_STROBE: A write to UPD_STROBE starts a strobe for the listed blocks, or sets OVERRUN while BUSY. -/
  | updStrobe (a : Acc) (mask : Word)
  /-- R30, STROBE_COMMIT: After earlier writes are performed and blocks are checked, shadows commit on one CORE edge and
    UPD_STATUS is written. -/
  | strobeCommit
  /-- R120, TABLE_ENTRY_WRITE: A write to a WTT or DVT entry takes or changes a pending-store slot, or sets the overflow
    bit. -/
  | tableEntryWrite (a : Acc) (tbl : Tbl) (idx : BitVec 18) (byteOff : Fin 32) (bytes : List (Option Byte))
  /-- R125, WTT_DISCARD: Writing WTT_DISCARD empties the WTT pending store and clears WTT_OVF and REJ. -/
  | wttDiscard (a : Acc)
  /-- R125, DVT_DISCARD: Writing DVT_DISCARD empties the DVT pending store and clears DVT_OVF and REJ. -/
  | dvtDiscard (a : Acc)
  /-- R123, TBL_BARRIER_START: Writing UPD_TBL_BARRIER.START clears DONE and starts a table barrier. -/
  | tblBarrierStart (a : Acc)
  /-- R123, TBL_BARRIER_DONE: Every operation admitted before the barrier has left ADMITTED, ISSUED and FAR-DONE, so
    DONE returns to 1. -/
  | tblBarrierDone
  /-- R43, LINK_BLOCK_RECEIVE: A link block arrives; it is CRC-checked and sequenced, its ACK, NAK and credits are
    applied, and its packet stream is parsed. -/
  | linkBlockReceive (link : Fin 2) (block : List Byte)
  /-- R43, REPLAY_TIMEOUT: No ACK covers the oldest unacknowledged block within 4 µs, so the blocks are resent; a fourth
    resend retrains the link. -/
  | replayTimeout (link : Fin 2)
  /-- R67, RETRAIN_REQ: A CONTROL block with RETRAIN-REQ arrives and the link retrains. -/
  | retrainReq (link : Fin 2)
  /-- R66, QUIET_ACK: QUIET-ACK arrives during DOZE entry and the link narrows to ×4 and goes QUIET. -/
  | quietAck (link : Fin 2)
  /-- R66, FULL_REQ: A FULL-REQ from the partner retrains a QUIET link at full width and is a DOZE exit cause. -/
  | fullReq (link : Fin 2)
  /-- R67, UNCORR_THRESHOLD: Uncorrectable codewords within 1 ms exceed TLK_FEC_THRESH.UNCORR and the link retrains. -/
  | uncorrThreshold (link : Fin 2) (n : BitVec 16)
  /-- R67, LANE_LOCK_LOSS: Symbol lock or alignment-marker lock is lost on a lane in use and the link retrains. -/
  | laneLockLoss (link : Fin 2) (lane : Fin 16)
  /-- R67, TLK_RETRAIN: Writing 1 to TLK_CTL.RETRAIN retrains the link. -/
  | tlkRetrain (a : Acc) (link : Fin 2)
  /-- R66, LINK_TRAINING_SUCCESS: Training or retraining succeeds at an accepted width, and the link goes UP or QUIET
    and replays. -/
  | linkTrainingSuccess (link : Fin 2) (t : LinkTrain)
  /-- R66, LINK_TRAINING_FAIL: Training finds no acceptable width, so a failure is counted and the link goes DOWN. -/
  | linkTrainingFail (link : Fin 2) (lanes : BitVec 16)
  /-- R66, LINK_TRAIN_TIMEOUT: Training (20 ms) or retraining (2 ms) runs out, so a failure is counted and the link goes
    DOWN. -/
  | linkTrainTimeout (link : Fin 2)
  /-- R66, LINK_RETRY_INTERVAL: The 10 ms retry interval of a DOWN link expires and training starts at ×16. -/
  | linkRetryInterval (link : Fin 2)
  /-- R69, FAILOVER: A link has been out of UP and QUIET for TLK_FAILOVER.HOLD, so its held traffic moves to the other
    link. -/
  | failover (link : Fin 2)
  /-- R69, DOWN_LIMIT: Held traffic that cannot move outlasts TLK_DOWN_LIMIT, which raises fatal source 0x026. -/
  | downLimit (link : Fin 2)
  /-- R52, MRD: A received MRD is checked, routed to the BCS or a window, translated and admitted, or refused. -/
  | mrd (link : Fin 2) (h : ReqHdr)
  /-- R52, MWR: A received posted or non-posted MWR is checked, routed, translated and admitted, or refused or dropped.
    -/
  | mwr (link : Fin 2) (h : ReqHdr) (bytes : List Byte)
  /-- R56, CPL: A CPL for a bridge-issued request arrives and ends that request with its status, or is dropped. -/
  | cpl (link : Fin 2) (h : CplHdr) (bytes : List Byte)
  /-- R56, CPLD: A CPLD piece arrives; the request completes when every granule has arrived. -/
  | cpld (link : Fin 2) (h : CplHdr) (bytes : List Byte)
  /-- R64, WAKE_MSG: A received WAKE with P = 1 acts as an assertion of TWAKE_N. -/
  | wakeMsg (link : Fin 2) (h : MsgHdr) (body : List Byte)
  /-- R65, PLACE: The first PLACE with P = 1 sets the BCS base and bridge ID; a later differing one is recorded. -/
  | place (link : Fin 2) (h : MsgHdr) (body : List Byte)
  /-- R57, CPL_TIMEOUT: A bridge-issued request does not finish within TLK_CPL_TIMEOUT, so it ends with TO and its tag
    is quarantined. -/
  | cplTimeout (link : Fin 2) (tag : BitVec 16)
  /-- R57, TAG_QUARANTINE_END: The quarantine of a timed-out tag ends after twice TLK_CPL_TIMEOUT. -/
  | tagQuarantineEnd (link : Fin 2) (tag : BitVec 16)
  /-- R202, DEFERRED_ADMISSION: A packet waiting in a link receive buffer is admitted once an entry, quota and grains
    are free and R202 allows, and its credits return. -/
  | deferredAdmission (link : Fin 2)
  /-- R211, OVERSIZE_ADMISSION: An oversize operation is admitted from the oversize reserve when its conditions hold. -/
  | oversizeAdmission (link : Fin 2)
  /-- R192, C0_HELD_RELEASE: A C0 transfer held for tokens is charged once both buckets hold enough tokens. -/
  | c0HeldRelease (inst : Fin 256)
  /-- R83, DATA: A DATA frame answering a read or LOCK-RD arrives at a device address. -/
  | data (port : Fin 144) (f : Frame)
  /-- R88, STATUS: A device STATUS arrives and closes the open channel-side exchange, whose result goes to the
    operation. -/
  | status (port : Fin 144) (f : Frame)
  /-- R87, RETRY: A device RETRY closes the exchange and requeues the operation with its age and back-off hint. -/
  | retry (port : Fin 144) (f : Frame)
  /-- R97, POLL_RESP: A POLL-RESP arrives, which is an attention sample offered to the signal map. -/
  | pollResp (port : Fin 144) (f : Frame)
  /-- R95, UP_WR: A device UP-WR arrives and is refused, or translated and admitted. -/
  | upWr (port : Fin 144) (f : Frame)
  /-- R96, UP_RD: A device UP-RD arrives and is refused, or translated and admitted with its MRD issued. -/
  | upRd (port : Fin 144) (f : Frame)
  /-- R95, UP_DATA: UP-DATA arrives and is accepted into the Landing pool, closing a posted UP-WR with STATUS. -/
  | upData (port : Fin 144) (f : Frame)
  /-- R75, ALIGN: An ALIGN LINK frame is received and the members of a bonded port are deskewed. -/
  | align (port : Fin 144) (f : Frame)
  /-- R75, ALIGN_SEND: Every 16,384 blocks per lane an ALIGN frame is sent on every member of a bonded port. -/
  | alignSend (port : Fin 144)
  /-- R320, COEF_REQ: A device COEF-REQ steps the bridge's transmitter and is answered with COEF-STAT within 2 µs. -/
  | coefReq (port : Fin 144) (member : Fin 4) (f : Frame)
  /-- R320, COEF_STAT: A device COEF-STAT answers the outstanding COEF-REQ of a lane. -/
  | coefStat (port : Fin 144) (member : Fin 4) (f : Frame)
  /-- R320, TX_REFRESH: Every TX_PERIOD ms a lane's eye is judged and one COEF-REQ is sent. -/
  | txRefresh (port : Fin 144) (member : Fin 4) (eye : BitVec 16)
  /-- R320, COEF_NORESP: A COEF-REQ is not answered within 2 ms, so TX_NORESP steps. -/
  | coefNoresp (port : Fin 144) (member : Fin 4)
  /-- R88, EXCHANGE_OPEN: A queued channel-side exchange becomes eligible with a free slot and its opening frames are
    sent. -/
  | exchangeOpen (port : Fin 144) (daddr : Fin 2048)
  /-- R88, RESPONSE_TIMEOUT: The response timer expires and the exchange is aborted, re-issued or ended as R102 gives.
    -/
  | responseTimeout (port : Fin 144) (daddr : Fin 2048)
  /-- R88, GUARD_END: The 1 µs guard time ends and the device address becomes IDLE or RESERVED. -/
  | guardEnd (port : Fin 144) (daddr : Fin 2048)
  /-- R90, RSV_TIME_EXPIRE: A reservation lapses after RSV_TIME without an UP frame, and the loss count resets. -/
  | rsvTimeExpire (port : Fin 144) (daddr : Fin 2048)
  /-- R89, LOSS_COUNT_EXPIRE: No UP frame arrives within RSV_TIME after a refusal, so the loss count resets. -/
  | lossCountExpire (port : Fin 144) (daddr : Fin 2048)
  /-- R93, UNLOCK_WR: The engine supplies the new value of a held lock, and UNLOCK-WR with DATA is sent. -/
  | unlockWr (port : Fin 144) (daddr : Fin 2048)
  /-- R93, LOCK_TIMEOUT: The lock timer expires, so UNLOCK-ABORT is sent and the operation ends with TO. -/
  | lockTimeout (port : Fin 144) (daddr : Fin 2048)
  /-- R97, POLL_PERIOD: A device's poll period elapses and the poll becomes DUE, or POLL_SKIP counts. -/
  | pollPeriod (dn : Fin 262144)
  /-- R99, ATTN_INTERVAL: A 1 ms attention interval boundary resets the per-DN delivery counts. -/
  | attnInterval
  /-- R104, PORT_LEAVES_UP: A port loses lock, synchronisation or signal, or hits hi_ber, so its exchanges end and its
    states reset. -/
  | portLeavesUp (port : Fin 144)
  /-- R103, GPT_RETRAIN: Writing 1 to GPT_CTL.RETRAIN takes the port out of UP. -/
  | gptRetrain (a : Acc) (port : Fin 144)
  /-- R103, PORT_TRAINED: All members of a port train; orphaned locks are cleared and the port resumes UP. -/
  | portTrained (port : Fin 144)
  /-- R103, PORT_TRAIN_TIMEOUT: Port training fails for 15 ms, so TRAIN_FAIL counts and the port goes DOWN. -/
  | portTrainTimeout (port : Fin 144)
  /-- R103, PORT_RETRY_INTERVAL: The 1 ms retry interval of a DOWN port ends and training starts. -/
  | portRetryInterval (port : Fin 144)
  /-- R104, DOWN_HOLD_EXPIRE: Queued operations of a DOWN port outlast GPT_DOWN_HOLD and end with TO. -/
  | downHoldExpire (port : Fin 144)
  /-- R98, GPT_ATTN_ACK: A write to GPT_ATTN_ACK queues ACK-ATTN at a device address. -/
  | gptAttnAck (a : Acc) (port : Fin 144) (v : Word)
  /-- R99, GPT_ATTN_UNMUTE: A write to GPT_ATTN_UNMUTE moves the device from MUTED to CLEAR. -/
  | gptAttnUnmute (a : Acc) (port : Fin 144) (v : Word)
  /-- R101, GPT_SBI_UNMUTE: A write to GPT_SBI_UNMUTE unmutes the DN of each named SBI. -/
  | gptSbiUnmute (a : Acc) (v : Word)
  /-- R271, INST_ATTN_ACK: A write to the instance's INST_ATTN_ACK queues ACK-ATTN or clears an SBI-fed DN. -/
  | instAttnAck (a : Acc) (inst : Fin 256) (v : Word)
  /-- R271, INST_ATTN_UNMUTE: A write to the instance's INST_ATTN_UNMUTE unmutes an owned DN. -/
  | instAttnUnmute (a : Acc) (inst : Fin 256) (v : Word)
  /-- R130, SQ_DB: A write to SQ_DB.TAIL is the doorbell that lets start entries be read. -/
  | sqDb (a : Acc) (inst : Fin 256) (q : Fin 4) (v : Word)
  /-- R129, QP_ENABLE: Writing Q_CFG.EN = 1 enables a queue pair if the enable checks pass. -/
  | qpEnable (a : Acc) (inst : Fin 256) (q : Fin 4) (v : Word)
  /-- R129, QP_DISABLE: Writing Q_CFG.EN = 0 stops reading start entries and drains the queue pair to OFF. -/
  | qpDisable (a : Acc) (inst : Fin 256) (q : Fin 4) (v : Word)
  /-- R129, RESUME: Writing Q_CTL.RESUME retries held writes and leaves FAULT. -/
  | resume (a : Acc) (inst : Fin 256) (q : Fin 4) (v : Word)
  /-- R142, CQ_DB: A write to CQ_DB is judged as a new head and may arm the CQ, sending an EVENT at once. -/
  | cqDb (a : Acc) (inst : Fin 256) (q : Fin 4) (v : Word)
  /-- R158, DISPATCH: A free context is given to waiting work by reserve and dispatch pass, and the start-entry MRD is
    issued. -/
  | dispatch
  /-- R134, START_ENTRY_FETCHED: A start entry arrives and its program begins, or the queue pair enters FAULT on an
    error. -/
  | startEntryFetched (inst : Fin 256) (q : Fin 4)
  /-- R141, CCD_FETCH: With a CQ slot and Journal entry reserved, the engine issues the next CCD's MRD. -/
  | ccdFetch (ctx : Nat)
  /-- R135, CCD_ADMISSION: A fetched CCD is checked, admitted and started, or ends with DESC_FAULT, UNMAPPED or KEY_ERR.
    -/
  | ccdAdmission (ctx : Nat)
  /-- R208, DATA_FETCH: Host data for an engine arrives in the Landing pool, which may reach a posted point. -/
  | dataFetch (ctx : Nat)
  /-- R173, COMPLETION_ENTRY: A CCD's far side has ended, its completion entry is committed and written, and the next
    CCD may follow. -/
  | completionEntry (je : Fin 4194304)
  /-- R143, CQ_COAL_TIME: The coalescing timer reaches CQ_COAL.TIME and sends an EVENT if the CQ is armed. -/
  | cqCoalTime (inst : Fin 256) (q : Fin 4)
  /-- R146, WAIT_ATTN_TIMEOUT: A WAIT-ATTN outlasts its AUX limit and ends with TIMEOUT, DETAIL 0x05. -/
  | waitAttnTimeout (je : Fin 4194304)
  /-- R151, NOTICE_WRITE: A waiting notice is written to the Posted Error Log when room exists, followed by the posted-
    error EVENT. -/
  | noticeWrite (inst : Fin 256)
  /-- R153, PEL_ENABLE: PEL_CFG.EN changes from 0 to 1 and resets the log head, tail and phase. -/
  | pelEnable (a : Acc) (inst : Fin 256) (v : Word)
  /-- R142, PEL_HEAD: A write to PEL_HEAD is judged as the new log head. -/
  | pelHead (a : Acc) (inst : Fin 256) (v : Word)
  /-- R151, PEL_RESUME: Writing PEL_CTL.RESUME leaves FAULT and retries the held record. -/
  | pelResume (a : Acc) (inst : Fin 256) (v : Word)
  /-- R152, FENCE_DB: A write to FENCE_DB starts or replaces a fence over earlier posted writes. -/
  | fenceDb (a : Acc) (inst : Fin 256) (v : Word)
  /-- R152, FENCE_DONE: Every covered write has taken effect or had its notice written, so DONE becomes 1. -/
  | fenceDone (inst : Fin 256)
  /-- R162, INSTRUCTION_RETRY: An engine instruction fails a check and is rolled back and retried. -/
  | instructionRetry (je : Fin 4194304) (passes : Bool)
  /-- R164, CONTEXT_REBUILD: An operation of a retired engine is rebuilt on the spare and resumed after PROGRESS. -/
  | contextRebuild (je : Fin 4194304)
  /-- R178, READ: A JNL_CMD READ loads the entry at JNL_IDX into JNL_DATA0–5. -/
  | read (a : Acc) (v : Word)
  /-- R178, SCAN: A JNL_CMD SCAN starts an upward search for an entry that passes JNL_FILTER. -/
  | scan (a : Acc) (v : Word)
  /-- R178, SCAN_DONE: A scan finds an entry and sets HIT, or reaches the end and sets NONE. -/
  | scanDone
  /-- R178, ABORT: A JNL_CMD ABORT ends the running command. -/
  | abort (a : Acc) (v : Word)
  /-- R176, SUBBANK_SWAP: After the mirrored copy, the spare takes the sub-bank's place on one CORE edge. -/
  | subbankSwap (target spare : Fin 1056)
  /-- R214, WATCHDOG_TICK: Every 1 µs the deadlock watchdog examines stalled entries for a blocked set. -/
  | watchdogTick
  /-- R215, WATCHDOG_SELECT: The youngest entry of a blocked set is ended with TO, its grains return and its exchange is
    aborted. -/
  | watchdogSelect
  /-- R234, CHUNK_DONE: A transform chunk ends and the stream state is saved, so the next chunk may start. -/
  | chunkDone (je : Fin 4194304) (unit : Fin 16)
  /-- R236, CHUNK_CHECK_FAIL: A unit check fails during a chunk, so the chunk reruns or the CCD ends POISONED, and units
    may retire. -/
  | chunkCheckFail (je : Fin 4194304) (unit : Fin 16)
  /-- R230, KEK_SET: A keyed CMP_KEK_LOAD with OP = 0b01 sets an instance's KEK from the staged words. -/
  | kekSet (a : Acc) (v comp : Word)
  /-- R230, KEK_CLEAR: A keyed CMP_KEK_LOAD with OP = 0b10 clears an instance's KEK. -/
  | kekClear (a : Acc) (v comp : Word)
  /-- R231, KEY_LOAD: A CMP_KLD_CMD LOAD runs steps 1–5 and issues the wrapped-key MRD. -/
  | keyLoad (a : Acc) (inst : Fin 256) (v : Word)
  /-- R231, KEY_CLEAR: A CMP_KLD_CMD CLEAR checks the slot and zeroes it to EMPTY. -/
  | keyClear (a : Acc) (inst : Fin 256) (v : Word)
  /-- R231, KEY_UNWRAP: The wrapped key arrives and is unwrapped, checked and written to the slot. -/
  | keyUnwrap (inst : Fin 256)
  /-- R248, GATE_DEFMAP: A keyed write of GATE_DEFMAP changes the default map at once. -/
  | gateDefmap (a : Acc) (m : Fin 10) (v comp : Word)
  /-- R253, GATE_DBG_UNLOCK: A keyed write of GATE_DBG_UNLOCK lifts debug denial in SERVICE, or steps UNLOCK_IGN. -/
  | gateDbgUnlock (a : Acc) (v comp : Word)
  /-- R252, GATE_BARRIER_START: Writing GATE_BARRIER.START clears DONE. -/
  | gateBarrierStart (a : Acc)
  /-- R252, GATE_BARRIER_DONE: Every access checked under the old rules is refused or performed, so DONE returns to 1.
    -/
  | gateBarrierDone
  /-- R257, MGT_DB: A write to MGT_DB.TAIL lets management commands be fetched. -/
  | mgtDb (a : Acc) (v : Word)
  /-- R272, MGT_ENABLE: Writing MGT_Q_CFG.EN = 1 starts the queue and resets its head and phase. -/
  | mgtEnable (a : Acc) (v : Word)
  /-- R257, MGT_RESUME: Writing MGT_CTL.RESUME retries the held writes and the fetch. -/
  | mgtResume (a : Acc) (v : Word)
  /-- R260, CREATE: CREATE fetches its range list, checks it, and on its commit edge draws pools and makes the instance
    ACTIVE. -/
  | create
  /-- R261, RESIZE: RESIZE changes the selected quotas, allowances, weight and C0 allotment. -/
  | resize
  /-- R263, RESET: RESET puts the instance in DRAIN or SQUASH. -/
  | reset
  /-- R263, DESTROY: DESTROY marks the instance DESTROYING and squashes it. -/
  | destroy
  /-- R262, ASSIGN: ASSIGN gives a range of DNs, windows or key slots to the instance. -/
  | assign
  /-- R262, RELEASE: RELEASE takes a range from the instance. -/
  | release
  /-- R263, DRAIN_TIMEOUT: The drain timer expires and the reset escalates to SQUASH. -/
  | drainTimeout (inst : Fin 256)
  /-- R267, RESET_COMPLETION: The completion condition holds, so queue pairs go OFF and the instance returns to ACTIVE
    or, when destroying, is released to FREE. -/
  | resetCompletion (inst : Fin 256)
  /-- R284, FLT_CHK_EXERCISE: A keyed FLT_CHK_EXERCISE write in SERVICE arms inverted check bits for a checker group. -/
  | fltChkExercise (a : Acc) (v comp : Word)
  /-- R286, SLICE_START: The Pouncing period elapses and memory and engine slices start on their chosen targets. -/
  | sliceStart
  /-- R290, SLICE_PREPARED: The memory swap edge or the last context move isolates the target and starts the test timer.
    -/
  | slicePrepared (kind : SliceKind)
  /-- R289, SLICE_TEST_DONE: The completion count reaches the expected count and the slice is judged. -/
  | sliceTestDone (kind : SliceKind) (r : SliceResult)
  /-- R290, SLICE_TIME_LIMIT: A slice's time limit passes and it is judged INCOMPLETE. -/
  | sliceTimeLimit (kind : SliceKind) (r : SliceResult)
  /-- R290, SLICE_RESTORED: The target's re-initialisation ends and it becomes a spare or FAILED. -/
  | sliceRestored (kind : SliceKind)
  /-- R292, ONE: BST_CMD ONE starts one slice on TARGET. -/
  | one (a : Acc) (v : Word)
  /-- R292, FOREGROUND: BST_CMD FOREGROUND in SERVICE runs slices on every sub-bank and engine. -/
  | foreground (a : Acc) (v : Word)
  /-- R292, STOP: BST_CMD STOP ends a running FOREGROUND after its current slices. -/
  | stop (a : Acc) (v : Word)
  /-- R295, BURN: A keyed BST_FUSE_CMD BURN programs every soft record not yet in fuses. -/
  | burn (a : Acc) (v comp : Word)
  /-- R295, ENGINE: A keyed BST_FUSE_CMD ENGINE programs one engine-failed record. -/
  | engine (a : Acc) (v comp : Word)
  /-- R295, FUSE_RECORD_DONE: A fuse record finishes programming and is verified, and the next follows or the command
    ends. -/
  | fuseRecordDone (ok : Bool)
  /-- R306, MODE_REQ_DOZE: A keyed or SMBus request for DOZE starts QUIESCING. -/
  | modeReqDoze
  /-- R306, MODE_REQ_RUN: A request for RUN abandons quiescing, exits DOZE or leaves SERVICE, or is rejected. -/
  | modeReqRun
  /-- R306, MODE_REQ_SERVICE: A request for SERVICE enters SERVICE from RUN, or is rejected. -/
  | modeReqService
  /-- R306, MODE_REQ_INVALID: A request for LOAD, RESET or HALT is rejected with cause 0b001. -/
  | modeReqInvalid (t : BitVec 3)
  /-- R307, QUIESCENT: The quiescence conditions hold, so the DOZE entry steps start. -/
  | quiescent
  /-- R305, QUIESCE_TIMEOUT: QUIESCE_TO expires and the DOZE entry is abandoned. -/
  | quiesceTimeout
  /-- R308, DOZE_ENTERED: The last Hub port powers down and the bridge enters DOZE. -/
  | dozeEntered
  /-- R310, CLOCKS_UNGATED: CORE and ENG run after an exit cause and the DOZE-exit wakes are queued. -/
  | clocksUngated
  /-- R310, DOZE_EXIT_DONE: The last Hub port is usable and RUN is reached. -/
  | dozeExitDone
  /-- R302, WAKE_GRANT: The head wake is granted when its bucket holds its cost. -/
  | wakeGrant
  /-- R301, PART_USABLE: A woken part becomes usable and is unmasked. -/
  | partUsable (p : Part)
  /-- R302, POWER_DOWN: A part due to power down is granted from the power-down bucket. -/
  | powerDown
  /-- R304, ENGINE_IDLE: An active engine has held no context for ENG_IDLE and powers down. -/
  | engineIdle (eng : Fin 104)
  /-- R323, TELEM: SMBus TELEM returns the 32-byte telemetry record. -/
  | telem (pecOk : Bool)
  /-- R323, MODE: SMBus MODE acts as a keyed write of GLB_MODE_REQ. -/
  | mode (lo hi : Byte) (pecOk : Bool)
  /-- R323, BCS_ADDR: SMBus BCS_ADDR sets the access address. -/
  | bcsAddr (v : Word) (pecOk : Bool)
  /-- R324, BCS_READ: SMBus BCS_READ reads a word at the access address and adds 4. -/
  | bcsRead (pecOk : Bool)
  /-- R324, BCS_WRITE: SMBus BCS_WRITE writes a word non-posted and adds 4. -/
  | bcsWrite (v : Word) (pecOk : Bool)
  /-- R323, BCS_RESULT: SMBus BCS_RESULT returns the result of the last BCS access. -/
  | bcsResult (pecOk : Bool)
  /-- R323, TRIGGER: SMBus TRIGGER pulses the SMBus input of a rule. -/
  | trigger (b : Byte) (pecOk : Bool)
  /-- R323, ALERTS: SMBus ALERTS returns KST_ALERT and clears it. -/
  | alerts (pecOk : Bool)
  /-- R324, ALERT_RESPONSE_ADDRESS: The bridge answers the Alert Response Address and releases SMB_ALERT_N. -/
  | alertResponseAddress
  /-- R323, SMBUS_UNKNOWN_COMMAND: An unknown SMBus command code is NACKed and NACKS steps. -/
  | smbusUnknownCommand (code : Byte)
  /-- R365, EXTEST: TAP instruction EXTEST drives boundary scan in RESET, and acts as BYPASS otherwise. -/
  | extest
  /-- R365, IDCODE: TAP instruction IDCODE selects the 32-bit identification register. -/
  | idcode
  /-- R365, SAMPLE_PRELOAD: TAP instruction SAMPLE/PRELOAD selects the boundary-scan register. -/
  | samplePreload
  /-- R365, EXTEST_PULSE: TAP instruction EXTEST_PULSE runs 1149.6 AC tests in RESET. -/
  | extestPulse
  /-- R365, EXTEST_TRAIN: TAP instruction EXTEST_TRAIN runs 1149.6 AC tests in RESET. -/
  | extestTrain
  /-- R365, CLAMP: TAP instruction CLAMP holds outputs with bypass in RESET. -/
  | clamp
  /-- R365, HIGHZ: TAP instruction HIGHZ floats outputs in RESET. -/
  | highz
  /-- R365, BYPASS: TAP instruction BYPASS, and every unlisted code, selects the bypass register. -/
  | bypass (code : BitVec 8)
  /-- R366, SVC_ACC: Update-DR with OP = 1 under SVC_ACC starts a 4-byte access under the service-path identity. -/
  | svcAcc (dr : BitVec 64)
  /-- R366, DAP_ACC: Update-DR with OP = 1 under DAP_ACC starts a 4-byte access under the debug-master identity. -/
  | dapAcc (dr : BitVec 64)
  /-- R346, READ_FLASH: IMG_FL_CMD READ reads 256 flash bytes into the buffer. -/
  | readFlash (a : Acc) (v : Word)
  /-- R346, PROGRAM: IMG_FL_CMD PROGRAM programs the buffer into one page and reads it back. -/
  | program (a : Acc) (v : Word)
  /-- R346, ERASE: IMG_FL_CMD ERASE erases one 4 KiB sector. -/
  | erase (a : Acc) (v : Word)
  /-- R346, VERIFY: IMG_FL_CMD VERIFY runs the slot checks without writing any target. -/
  | verify (a : Acc) (v : Word)
  /-- R346, FLASH_CMD_COMPLETE: A host flash command ends and its RESULT is written. -/
  | flashCmdComplete (bytes : List Byte) (err : Bool)
  /-- R336, IMG_BOOT_CFG: A keyed write of IMG_BOOT_CFG sets PREFER and TRIAL in the bridge's settings copy. -/
  | imgBootCfg (a : Acc) (v comp : Word)
  /-- R344, EMPTY_SOFT_REPAIR_MAP: IMG_SET_CMD OP 0b01 empties the soft repair map. -/
  | emptySoftRepairMap (a : Acc) (v comp : Word)
  /-- R344, EMPTY_FATAL_RECORDS: IMG_SET_CMD OP 0b10 empties the fatal records. -/
  | emptyFatalRecords (a : Acc) (v comp : Word)
  /-- R344, FORCE_SETTINGS_WRITE: IMG_SET_CMD OP 0b11 makes a settings write pending. -/
  | forceSettingsWrite (a : Acc) (v comp : Word)
  /-- R347, IMG_SVN_BURN: A keyed IMG_SVN_BURN programs MIN_SVN in SERVICE with VPP_FUSE present. -/
  | imgSvnBurn (a : Acc) (v comp : Word)
  /-- R344, SETTINGS_WRITE_START: The bridge's copy differs and 10 s have passed, so the non-current settings copy is
    erased and programmed. -/
  | settingsWriteStart
  /-- R344, SETTINGS_WRITE_DONE: The programmed copy reads back with a good CRC and becomes current, or 0x1A1 is raised.
    -/
  | settingsWriteDone (ok : Bool)
  /-- R344, SETTINGS_WRITE_TIMEOUT: An erase beyond 400 ms or a program beyond 5 ms raises 0x1A1. -/
  | settingsWriteTimeout
  /-- R172, CLOSING_STATUS_SENT: The last byte of a bridge-written STATUS leaves the port, which closes a device-
    initiated exchange under event (g), puts an aborted address in GUARD, sets the posted point of an UP-WR and frees
    KIND 5–7 entries. -/
  | closingStatusSent (port : Fin 144)
  /-- R188, HUB_ROUND: On each CORE cycle every Hub output grants one flit to the eligible requester of highest
    priority, ages the losers and refills the C0 buckets. -/
  | hubRound
  /-- R159, ENGINE_ISSUE_CYCLE: On each ENG cycle an engine issues one instruction from one ready context chosen by C0
    cap and issue pass. -/
  | engineIssueCycle (eng : Fin 104)
  /-- R175, JOURNAL_WORD_ERROR: A Journal word is read with a single-bit or uncorrectable ECC error, which is corrected,
    withholds a FREE entry, or raises fatal source 0x0C2. -/
  | journalWordError (je : Fin 4194304) (word : Fin 3) (syn : Byte) (e : WordErr)
  /-- R220, LANDING_WORD_ERROR: A Landing word is found with a single-bit or uncorrectable ECC error, which is
    corrected, ends its operation with PS or POISONED, or withholds free grains. -/
  | landingWordError (sub : Fin 1056) (je : Option (Fin 4194304)) (syn : Byte) (e : WordErr)
  /-- R274, TABLE_WORD_ERROR: A WTT or DVT word is corrected (0x062) or found uncorrectable (0x063), so lookups of the
    entry fail until it is rewritten. -/
  | tableWordError (tbl : Tbl) (idx : BitVec 18) (syn : Byte) (e : WordErr)
  /-- R274, HUB_FLIT_ERROR: A Hub flit word is corrected (0x160) or uncorrectable (0x161), ending the transfer's
    operation as for a Landing error. -/
  | hubFlitError (out : Fin 24) (je : Option (Fin 4194304)) (syn : Byte) (e : WordErr)
  /-- R274, CONFIG_REGISTER_PARITY_ERROR: A parity error in a configuration register raises fatal source 0x001 and
    enters HALT. -/
  | configRegisterParityError
  /-- R274, ARBITER_PARITY_ERROR: An arbiter state parity error raises fatal source 0x162 and enters HALT. -/
  | arbiterParityError (out : Fin 24)
  /-- R274, FAULT_COLLECTOR_PARITY_ERROR: A fault collector state parity error raises fatal source 0x1E0 and enters
    HALT. -/
  | faultCollectorParityError
  /-- R162, DATA_STORE_CORRECTION: A single-bit engine data-store error is repaired in place and counted as source
    0x081, with no retry. -/
  | dataStoreCorrection (eng : Fin 104)
  /-- R323, VDD_AON_POWER_UP: VDD_AON comes within its limits, and 1 ms later the SMBus target begins to answer while
    the bridge is in RESET. -/
  | vddAonPowerUp
  /-- R347, SVN_BURN_COMPLETE: An SVN burn finishes within 10 ms, so MIN_SVN is programmed, BUSY clears and BURN_RESULT
    is written. -/
  | svnBurnComplete (ok : Bool)
  /-- R365, TRST_N_ASSERT: TRST_N low puts the TAP in Test-Logic-Reset. -/
  | trstNAssert
  /-- R51, BAD_MSG: An MSG with an unknown or unreceivable CODE, LEN above 8, or P = 0 where P is required is dropped,
    counted in BAD_MSG and reported as source 0x020. -/
  | badMsg (link : Fin 2) (h : MsgHdr) (body : List Byte)
  deriving DecidableEq, Repr

end Sys2Proof
end

