-- ==== Sys2Proof/Decode.lean ====
section
/-! DEFINITION. The table of commands gives no row any bits: commands reach the block as what its interfaces carry, not as words. -/

namespace Sys2Proof

/-- The command that a word spells by the table's bits: none, as no row of the table has bits. -/
def decodeTableWord (_nbits _w : Nat) : Option Instr := none

end Sys2Proof
end

