-- ==== Sys2Proof/Machine/Store.lean ====
section
/-! DEFINITION. Finite maps as plain data: lists of (key, value) with rising keys. `FMap` is read with a default value, and no
entry equals the default, so equal maps are equal lists. -/

namespace Sys2Proof.Machine

/-- A map from numbers, as a list of pairs with strictly rising keys. -/
abbrev FMap (α : Type) := List (Nat × α)

/-- The entry at a key, if there is one. -/
def FMap.find {α : Type} (k : Nat) : FMap α → Option α
  | [] => none
  | (j, v) :: m => if j = k then some v else FMap.find k m

/-- The map without what is listed at a key. -/
def FMap.del {α : Type} (k : Nat) : FMap α → FMap α
  | [] => []
  | (j, v) :: m => if j = k then FMap.del k m else (j, v) :: FMap.del k m

/-- The map with the entry at a key replaced or inserted in order. -/
def FMap.put {α : Type} (k : Nat) (v : α) : FMap α → FMap α
  | [] => [(k, v)]
  | (j, w) :: m =>
    if j = k then (k, v) :: m
    else if k < j then (k, v) :: (j, w) :: m
    else (j, w) :: FMap.put k v m

/-- The value at a key, `d` where nothing is listed. -/
def FMap.get {α : Type} (d : α) (k : Nat) (m : FMap α) : α := (FMap.find k m).getD d

/-- Sets the value at a key; the default value is not listed. -/
def FMap.set {α : Type} [DecidableEq α] (d : α) (k : Nat) (v : α) (m : FMap α) : FMap α :=
  if v = d then FMap.del k m else FMap.put k v m

/-- The map with a function applied at a key. -/
def FMap.mod {α : Type} [DecidableEq α] (d : α) (k : Nat) (f : α → α) (m : FMap α) : FMap α :=
  FMap.set d k (f (FMap.get d k m)) m

/-- The map with a function applied to an entry that is listed; nothing changes where none is. -/
def FMap.upd {α : Type} (k : Nat) (f : α → α) : FMap α → FMap α
  | [] => []
  | (j, v) :: m => if j = k then (j, f v) :: m else (j, v) :: FMap.upd k f m

/-- The keys of a map are strictly rising from above `lo`. -/
def FMap.sortedFrom {α : Type} : Option Nat → FMap α → Bool
  | _, [] => true
  | lo, (j, _) :: m => (match lo with | none => true | some b => decide (b < j)) && FMap.sortedFrom (some j) m

/-- The canonical form: strictly rising keys. -/
def FMap.sorted {α : Type} (m : FMap α) : Bool := FMap.sortedFrom none m

/-- A number as `n` bytes, most significant first (R4). -/
def natBytes : Nat → Nat → List (BitVec 8)
  | 0, _ => []
  | n + 1, v => BitVec.ofNat 8 (v / 256 ^ n) :: natBytes n v

/-- The number that bytes spell, most significant first (R4). -/
def bytesNat : List (BitVec 8) → Nat
  | bs => bs.foldl (fun a b => a * 256 + b.toNat) 0

/-- The `n` bytes from offset `o`, zero beyond the end. -/
def slice (o n : Nat) (bs : List (BitVec 8)) : List (BitVec 8) :=
  let t := (bs.drop o).take n
  t ++ List.replicate (n - t.length) 0

/-- The big-endian field of `n` bytes at offset `o`. -/
def fieldAt (o n : Nat) (bs : List (BitVec 8)) : Nat := bytesNat (slice o n bs)

/-- Bits [hi:lo] of a number. -/
def bits (hi lo v : Nat) : Nat := v / 2 ^ lo % 2 ^ (hi + 1 - lo)

/-- Bit `n` of a number. -/
def bit (n v : Nat) : Bool := v / 2 ^ n % 2 = 1

/-- A truth value as a number. -/
def b2n (b : Bool) : Nat := if b then 1 else 0

/-- The least member of a list, if there is one. -/
def listMin : List Nat → Option Nat
  | [] => none
  | x :: xs => match listMin xs with | none => some x | some y => some (min x y)

/-- Ceiling division. -/
def ceilDiv (a b : Nat) : Nat := (a + b - 1) / b

end Sys2Proof.Machine
end

