-- ==== Sys2Proof/Machine/Sha.lean ====
section
/-! DEFINITION. SHA-384 and the verification of ECDSA signatures on P-384, as the standards that R334 cites give them (log entry 32). -/

namespace Sys2Proof.Machine

/-! ### SHA-384 -/

/-- The round constants. -/
def shaK : List Nat :=
  [0x428A2F98D728AE22, 0x7137449123EF65CD, 0xB5C0FBCFEC4D3B2F, 0xE9B5DBA58189DBBC]
   ++ [0x3956C25BF348B538, 0x59F111F1B605D019, 0x923F82A4AF194F9B, 0xAB1C5ED5DA6D8118]
   ++ [0xD807AA98A3030242, 0x12835B0145706FBE, 0x243185BE4EE4B28C, 0x550C7DC3D5FFB4E2]
   ++ [0x72BE5D74F27B896F, 0x80DEB1FE3B1696B1, 0x9BDC06A725C71235, 0xC19BF174CF692694]
   ++ [0xE49B69C19EF14AD2, 0xEFBE4786384F25E3, 0x0FC19DC68B8CD5B5, 0x240CA1CC77AC9C65]
   ++ [0x2DE92C6F592B0275, 0x4A7484AA6EA6E483, 0x5CB0A9DCBD41FBD4, 0x76F988DA831153B5]
   ++ [0x983E5152EE66DFAB, 0xA831C66D2DB43210, 0xB00327C898FB213F, 0xBF597FC7BEEF0EE4]
   ++ [0xC6E00BF33DA88FC2, 0xD5A79147930AA725, 0x06CA6351E003826F, 0x142929670A0E6E70]
   ++ [0x27B70A8546D22FFC, 0x2E1B21385C26C926, 0x4D2C6DFC5AC42AED, 0x53380D139D95B3DF]
   ++ [0x650A73548BAF63DE, 0x766A0ABB3C77B2A8, 0x81C2C92E47EDAEE6, 0x92722C851482353B]
   ++ [0xA2BFE8A14CF10364, 0xA81A664BBC423001, 0xC24B8B70D0F89791, 0xC76C51A30654BE30]
   ++ [0xD192E819D6EF5218, 0xD69906245565A910, 0xF40E35855771202A, 0x106AA07032BBD1B8]
   ++ [0x19A4C116B8D2D0C8, 0x1E376C085141AB53, 0x2748774CDF8EEB99, 0x34B0BCB5E19B48A8]
   ++ [0x391C0CB3C5C95A63, 0x4ED8AA4AE3418ACB, 0x5B9CCA4F7763E373, 0x682E6FF3D6B2B8A3]
   ++ [0x748F82EE5DEFB2FC, 0x78A5636F43172F60, 0x84C87814A1F0AB72, 0x8CC702081A6439EC]
   ++ [0x90BEFFFA23631E28, 0xA4506CEBDE82BDE9, 0xBEF9A3F7B2C67915, 0xC67178F2E372532B]
   ++ [0xCA273ECEEA26619C, 0xD186B8C721C0C207, 0xEADA7DD6CDE0EB1E, 0xF57D4F7FEE6ED178]
   ++ [0x06F067AA72176FBA, 0x0A637DC5A2C898A6, 0x113F9804BEF90DAE, 0x1B710B35131C471B]
   ++ [0x28DB77F523047D84, 0x32CAAB7B40C72493, 0x3C9EBE0A15C9BEBC, 0x431D67C49C100D4C]
   ++ [0x4CC5D4BECB3E42B6, 0x597F299CFC657E2A, 0x5FCB6FAB3AD6FAEC, 0x6C44198C4A475817]

/-- The initial hash value of SHA-384. -/
def shaH : List Nat :=
  [0xCBBB9D5DC1059ED8, 0x629A292A367CD507, 0x9159015A3070DD17, 0x152FECD8F70E5939]
   ++ [0x67332667FFC00B31, 0x8EB44A8768581511, 0xDB0C2E0D64F98FA7, 0x47B5481DBEFA4FA4]

/-- A 64-bit word rotated right. -/
def rotr64 (n x : Nat) : Nat := x / 2 ^ n + x % 2 ^ n * 2 ^ (64 - n)

/-- The functions of SHA-512 on words. -/
def shaSig0 (x : Nat) : Nat := Nat.xor (Nat.xor (rotr64 1 x) (rotr64 8 x)) (x / 2 ^ 7)
def shaSig1 (x : Nat) : Nat := Nat.xor (Nat.xor (rotr64 19 x) (rotr64 61 x)) (x / 2 ^ 6)
def shaSum0 (x : Nat) : Nat := Nat.xor (Nat.xor (rotr64 28 x) (rotr64 34 x)) (rotr64 39 x)
def shaSum1 (x : Nat) : Nat := Nat.xor (Nat.xor (rotr64 14 x) (rotr64 18 x)) (rotr64 41 x)
def shaCh (x y z : Nat) : Nat := Nat.xor (Nat.land x y) (Nat.land (2 ^ 64 - 1 - x) z)
def shaMaj (x y z : Nat) : Nat := Nat.xor (Nat.xor (Nat.land x y) (Nat.land x z)) (Nat.land y z)

/-- The working variables a to h. -/
structure ShaW where
  a : Nat
  b : Nat
  c : Nat
  d : Nat
  e : Nat
  f : Nat
  g : Nat
  h : Nat

/-- One round with a round constant and a word of the message schedule. -/
def shaRound (v : ShaW) (k w : Nat) : ShaW :=
  let t1 := v.h + shaSum1 v.e + shaCh v.e v.f v.g + k + w
  let t2 := shaSum0 v.a + shaMaj v.a v.b v.c
  { a := (t1 + t2) % 2 ^ 64, b := v.a, c := v.b, d := v.c, e := (v.d + t1) % 2 ^ 64, f := v.e, g := v.f, h := v.g }

/-- The rounds over the constants that are left; `w` holds the next 16 words of the message schedule. -/
def shaRounds : List Nat → List Nat → ShaW → ShaW
  | [], _, v => v
  | k :: ks, w, v =>
    let g (i : Nat) : Nat := w.getD i 0
    let next := (shaSig1 (g 14) + g 9 + shaSig0 (g 1) + g 0) % 2 ^ 64
    shaRounds ks (w.drop 1 ++ [next]) (shaRound v k (g 0))

/-- One 128-byte block. -/
def shaBlock (h : ShaW) (blk : List Byte) : ShaW :=
  let v := shaRounds shaK ((List.range 16).map fun i => fieldAt (8 * i) 8 blk) h
  let s (x y : Nat) : Nat := (x + y) % 2 ^ 64
  { a := s h.a v.a, b := s h.b v.b, c := s h.c v.c, d := s h.d v.d, e := s h.e v.e, f := s h.f v.f, g := s h.g v.g, h := s h.h v.h }

/-- The blocks of a padded message, at most `n`. -/
def shaBlocks : Nat → List Byte → ShaW → ShaW
  | 0, _, h => h
  | n + 1, m, h => if m.isEmpty then h else shaBlocks n (m.drop 128) (shaBlock h (m.take 128))

/-- The SHA-384 digest of a message, 48 bytes. -/
def sha384 (m : List Byte) : List Byte :=
  let z := (239 - m.length % 128) % 128
  let p := m ++ 0x80#8 :: List.replicate z 0#8 ++ natBytes 16 (8 * m.length)
  let g (i : Nat) : Nat := shaH.getD i 0
  let r := shaBlocks (p.length / 128 + 1) p
    { a := g 0, b := g 1, c := g 2, d := g 3, e := g 4, f := g 5, g := g 6, h := g 7 }
  natBytes 8 r.a ++ natBytes 8 r.b ++ natBytes 8 r.c ++ natBytes 8 r.d ++ natBytes 8 r.e ++ natBytes 8 r.f

/-! ### P-384 -/

/-- The field prime, the order of the base point, and the coefficient b. -/
def p384P : Nat := 2 ^ 384 - 2 ^ 128 - 2 ^ 96 + 2 ^ 32 - 1
def p384N : Nat :=
  0xFFFFFFFFFFFFFFFFFFFFFFFFFFFFFFFFFFFFFFFFFFFFFFFFC7634D81F4372DDF581A0DB248B0A77AECEC196ACCC52973
def p384B : Nat :=
  0xB3312FA7E23EE7E4988E056BE3F82D19181D9C6EFE8141120314088F5013875AC656398D8A2ED19D2A85C8EDD3EC2AEF

/-- A point: none is the point at infinity. -/
abbrev EcPoint := Option (Nat × Nat)

/-- The base point. -/
def p384G : EcPoint := some
  (0xAA87CA22BE8B05378EB1C71EF320AD746E1D3B628BA79B9859F741E082542A385502F25DBF55296C3A545E3872760AB7,
   0x3617DE4A96262C6F5D9E98BF9292DC29F8F41DBD289A147CE9DA3113B5F0B8C00A60B1CE1D7E819D7A431D7C90EA0E5F)

/-- b ^ e modulo m, over the low `k` bits of e. -/
def powMod (m : Nat) : Nat → Nat → Nat → Nat
  | 0, _, _ => 1
  | k + 1, b, e => (if e % 2 = 1 then b else 1) * powMod m k (b * b % m) (e / 2) % m

/-- The inverse modulo a prime of 384 bits. -/
def invMod (m x : Nat) : Nat := powMod m 384 (x % m) (m - 2)

/-- a − b modulo m, for b below m. -/
def subMod (m a b : Nat) : Nat := (a + m - b) % m

/-- The sum of two points. -/
def ecAdd : EcPoint → EcPoint → EcPoint
  | none, q => q
  | p, none => p
  | some (x1, y1), some (x2, y2) =>
    let m := p384P
    if x1 = x2 ∧ (y1 + y2) % m = 0 then none else
    let l :=
      if x1 = x2 then (3 * x1 * x1 + (m - 3)) * invMod m (2 * y1) % m
      else subMod m y2 y1 * invMod m (subMod m x2 x1) % m
    let x := subMod m (subMod m (l * l % m) x1) x2
    some (x, subMod m (l * subMod m x1 x % m) y1)

/-- A multiple of a point, over the low `n` bits of the factor. -/
def ecMul : Nat → Nat → EcPoint → EcPoint
  | 0, _, _ => none
  | n + 1, k, q =>
    let r := ecMul n (k / 2) (ecAdd q q)
    if k % 2 = 1 then ecAdd q r else r

/-- Whether a pair is a point of the curve. -/
def onCurve (x y : Nat) : Bool :=
  x < p384P && y < p384P && y * y % p384P == (x * x * x + (p384P - 3) * x + p384B) % p384P

/-- Whether a signature (r, s) by the key (x, y) over a digest is valid. -/
def ecdsaOk (x y r s : Nat) (digest : List Byte) : Bool :=
  if !onCurve x y || r == 0 || p384N ≤ r || s == 0 || p384N ≤ s then false else
  let w := invMod p384N s
  let u1 := bytesNat digest * w % p384N
  let u2 := r * w % p384N
  match ecAdd (ecMul 384 u1 p384G) (ecMul 384 u2 (some (x, y))) with
  | none => false
  | some (px, _) => px % p384N == r

end Sys2Proof.Machine
end

