-- ==== Sys2Proof/Machine/Aes.lean ====
section
/-! DEFINITION. AES-256 (FIPS 197), its XTS mode (IEEE 1619) as the cipher units use it (R227), and the RFC 3394 key unwrap (R231), which the
spec cites and does not restate (log entry 25). -/

namespace Sys2Proof.Machine

/-- The AES substitution table. -/
def sboxTable : List Nat :=
  [0x63, 0x7C, 0x77, 0x7B, 0xF2, 0x6B, 0x6F, 0xC5, 0x30, 0x01, 0x67, 0x2B, 0xFE, 0xD7, 0xAB, 0x76]
  ++ [0xCA, 0x82, 0xC9, 0x7D, 0xFA, 0x59, 0x47, 0xF0, 0xAD, 0xD4, 0xA2, 0xAF, 0x9C, 0xA4, 0x72, 0xC0]
  ++ [0xB7, 0xFD, 0x93, 0x26, 0x36, 0x3F, 0xF7, 0xCC, 0x34, 0xA5, 0xE5, 0xF1, 0x71, 0xD8, 0x31, 0x15]
  ++ [0x04, 0xC7, 0x23, 0xC3, 0x18, 0x96, 0x05, 0x9A, 0x07, 0x12, 0x80, 0xE2, 0xEB, 0x27, 0xB2, 0x75]
  ++ [0x09, 0x83, 0x2C, 0x1A, 0x1B, 0x6E, 0x5A, 0xA0, 0x52, 0x3B, 0xD6, 0xB3, 0x29, 0xE3, 0x2F, 0x84]
  ++ [0x53, 0xD1, 0x00, 0xED, 0x20, 0xFC, 0xB1, 0x5B, 0x6A, 0xCB, 0xBE, 0x39, 0x4A, 0x4C, 0x58, 0xCF]
  ++ [0xD0, 0xEF, 0xAA, 0xFB, 0x43, 0x4D, 0x33, 0x85, 0x45, 0xF9, 0x02, 0x7F, 0x50, 0x3C, 0x9F, 0xA8]
  ++ [0x51, 0xA3, 0x40, 0x8F, 0x92, 0x9D, 0x38, 0xF5, 0xBC, 0xB6, 0xDA, 0x21, 0x10, 0xFF, 0xF3, 0xD2]
  ++ [0xCD, 0x0C, 0x13, 0xEC, 0x5F, 0x97, 0x44, 0x17, 0xC4, 0xA7, 0x7E, 0x3D, 0x64, 0x5D, 0x19, 0x73]
  ++ [0x60, 0x81, 0x4F, 0xDC, 0x22, 0x2A, 0x90, 0x88, 0x46, 0xEE, 0xB8, 0x14, 0xDE, 0x5E, 0x0B, 0xDB]
  ++ [0xE0, 0x32, 0x3A, 0x0A, 0x49, 0x06, 0x24, 0x5C, 0xC2, 0xD3, 0xAC, 0x62, 0x91, 0x95, 0xE4, 0x79]
  ++ [0xE7, 0xC8, 0x37, 0x6D, 0x8D, 0xD5, 0x4E, 0xA9, 0x6C, 0x56, 0xF4, 0xEA, 0x65, 0x7A, 0xAE, 0x08]
  ++ [0xBA, 0x78, 0x25, 0x2E, 0x1C, 0xA6, 0xB4, 0xC6, 0xE8, 0xDD, 0x74, 0x1F, 0x4B, 0xBD, 0x8B, 0x8A]
  ++ [0x70, 0x3E, 0xB5, 0x66, 0x48, 0x03, 0xF6, 0x0E, 0x61, 0x35, 0x57, 0xB9, 0x86, 0xC1, 0x1D, 0x9E]
  ++ [0xE1, 0xF8, 0x98, 0x11, 0x69, 0xD9, 0x8E, 0x94, 0x9B, 0x1E, 0x87, 0xE9, 0xCE, 0x55, 0x28, 0xDF]
  ++ [0x8C, 0xA1, 0x89, 0x0D, 0xBF, 0xE6, 0x42, 0x68, 0x41, 0x99, 0x2D, 0x0F, 0xB0, 0x54, 0xBB, 0x16]

/-- The substitution of a byte, and its inverse. -/
def sbox (b : Nat) : Nat := sboxTable.getD b 0
def sboxInv (b : Nat) : Nat := sboxTable.findIdx (· == b)

/-- Doubling in GF(2⁸) modulo 0x11B. -/
def xtime (a : Nat) : Nat := if a < 128 then 2 * a else Nat.xor (2 * a) 0x11B

/-- Product in GF(2⁸) with a factor below 16. -/
def gmul (a k : Nat) : Nat :=
  let p (i : Nat) (v : Nat) : Nat := if bit i k then v else 0
  Nat.xor (Nat.xor (p 0 a) (p 1 (xtime a))) (Nat.xor (p 2 (xtime (xtime a))) (p 3 (xtime (xtime (xtime a)))))

/-- Two lists of bytes, added in GF(2). -/
def xorList (a b : List Nat) : List Nat := List.zipWith Nat.xor a b

/-- The words of the AES-256 key schedule, newest first, grown to `n` more words; `i` counts them. -/
def keyWords : Nat → Nat → Nat → List (List Nat) → List (List Nat)
  | 0, _, _, ws => ws
  | n + 1, i, rcon, ws =>
    let prev := ws.getD 0 []
    let back := ws.getD 7 []
    if i % 8 = 0 then
      let r := (prev.drop 1 ++ prev.take 1).map sbox
      keyWords n (i + 1) (xtime rcon) (xorList back (xorList r [rcon, 0, 0, 0]) :: ws)
    else if i % 8 = 4 then keyWords n (i + 1) rcon (xorList back (prev.map sbox) :: ws)
    else keyWords n (i + 1) rcon (xorList back prev :: ws)

/-- Cuts a list into pieces of `k`. -/
def chunks (k : Nat) : Nat → List α → List (List α)
  | 0, _ => []
  | n + 1, xs => if xs.isEmpty then [] else xs.take k :: chunks k n (xs.drop k)

/-- The 15 round keys of a 32-byte key. -/
def roundKeys (key : List Nat) : List (List Nat) :=
  let ws := keyWords 52 8 1 (chunks 4 8 key).reverse
  chunks 16 15 ws.reverse.flatten

/-- Row shift by `d` columns per row: byte `r + 4c` comes from column `c + d r`. -/
def shiftRows (d : Nat) (s : List Nat) : List Nat :=
  (List.range 16).map fun i => s.getD (i % 4 + 4 * ((i / 4 + d * (i % 4)) % 4)) 0

/-- One column times the circulant matrix of a row. -/
def mixCol (m : List Nat) (c : List Nat) : List Nat :=
  (List.range 4).map fun r => (List.range 4).foldl (fun a k => Nat.xor a (gmul (c.getD k 0) (m.getD ((k + 4 - r) % 4) 0))) 0

/-- All four columns. -/
def mixCols (m s : List Nat) : List Nat := ((chunks 4 4 s).map (mixCol m)).flatten

/-- The rounds of encryption. -/
def encRounds : List (List Nat) → List Nat → List Nat
  | [], s => s
  | [k], s => xorList (shiftRows 1 (s.map sbox)) k
  | k :: ks, s => encRounds ks (xorList (mixCols [2, 3, 1, 1] (shiftRows 1 (s.map sbox))) k)

/-- AES-256 encryption of a block of 16 bytes. -/
def aesEnc (key blk : List Nat) : List Nat :=
  match roundKeys key with
  | [] => []
  | k :: ks => encRounds ks (xorList blk k)

/-- The rounds of decryption, with the round keys from the last. -/
def decRounds : List (List Nat) → List Nat → List Nat
  | [], s => s
  | [k], s => xorList ((shiftRows 3 s).map sboxInv) k
  | k :: ks, s => decRounds ks (mixCols [14, 11, 13, 9] (xorList ((shiftRows 3 s).map sboxInv) k))

/-- AES-256 decryption of a block of 16 bytes. -/
def aesDec (key blk : List Nat) : List Nat :=
  match (roundKeys key).reverse with
  | [] => []
  | k :: ks => decRounds ks (xorList blk k)

/-! ### XTS -/

/-- Multiplication of a tweak by α: the 16 bytes are a number, least significant byte first. -/
def xtsAlpha (c : Nat) : List Nat → List Nat
  | [] => []
  | b :: bs => ((2 * b + c) % 256) :: xtsAlpha (b / 128) bs

def xtsNext (t : List Nat) : List Nat :=
  let u := xtsAlpha 0 t
  if 128 ≤ t.getD 15 0 then Nat.xor (u.getD 0 0) 0x87 :: u.drop 1 else u

/-- The blocks of a data unit under Key1 with a running tweak. -/
def xtsBlocks (f : List Nat → List Nat) : Nat → List Nat → List Nat → List Nat
  | 0, _, _ => []
  | n + 1, t, bs =>
    if bs.isEmpty then [] else xorList (f (xorList (bs.take 16) t)) t ++ xtsBlocks f n (xtsNext t) (bs.drop 16)

/-- A number as 16 bytes, least significant first. -/
def le16 (v : Nat) : List Nat := (List.range 16).map fun i => v / 256 ^ i % 256

/-- Bytes as numbers and back. -/
def toNats (bs : List (BitVec 8)) : List Nat := bs.map (·.toNat)
def toBytes (ns : List Nat) : List (BitVec 8) := ns.map (BitVec.ofNat 8)

/-- AES-256-XTS of one data unit (R227): `keys` is Key1 ‖ Key2, `unit` the tweak value. -/
def xts (enc : Bool) (keys : List (BitVec 8)) (unit : Nat) (data : List (BitVec 8)) : List (BitVec 8) :=
  let k := toNats keys
  let t := aesEnc (k.drop 32) (le16 unit)
  toBytes (xtsBlocks (fun b => if enc then aesEnc (k.take 32) b else aesDec (k.take 32) b) data.length t (toNats data))

/-! ### Key unwrap -/

/-- One step of the RFC 3394 unwrap: `t` counts down, `i` is the block. -/
def unwrapStep (kek : List Nat) (n t : Nat) (a : List Nat) (r : List (List Nat)) : List Nat × List (List Nat) :=
  let i := (t - 1) % n
  let b := aesDec kek (xorList a (toNats (natBytes 8 t)) ++ r.getD i [])
  (b.take 8, r.set i (b.drop 8))

/-- The steps from `t` down to 1. -/
def unwrapSteps (kek : List Nat) (n : Nat) : Nat → List Nat → List (List Nat) → List Nat × List (List Nat)
  | 0, a, r => (a, r)
  | t + 1, a, r => let x := unwrapStep kek n (t + 1) a r; unwrapSteps kek n t x.1 x.2

/-- RFC 3394 unwrap of 72 bytes under a KEK: the 64 bytes of plaintext where the integrity check value is the default one. -/
def keyUnwrap (kek wrapped : List (BitVec 8)) : Option (List (BitVec 8)) :=
  let w := toNats wrapped
  let x := unwrapSteps (toNats kek) 8 48 (w.take 8) (chunks 8 8 (w.drop 8))
  if x.1 = List.replicate 8 0xA6 then some (toBytes x.2.flatten) else none

end Sys2Proof.Machine
end

