-- ==== Sys2Proof/Config.lean ====
section
/-! DEFINITION. What the spec leaves open: free values, which nothing in the model can evaluate. -/

namespace Sys2Proof

/-- The stream of free values: the `n`-th value that the spec leaves open (log entry 4). -/
opaque Config.freeNat : Nat → Nat

/-- The Huffman block (its bits after BFINAL, in stream order) that a Fulling unit finds for a segment; the spec fixes only its form
and size (log entry 14). The arguments are the block type (1 fixed, 2 dynamic), the history and the segment. -/
opaque Config.fullProposal : Nat → List Byte → List Byte → List Bool

/-- The flits of the shared remainder of a Hub output's input buffer (R187), which the spec does not give (log entry 12). -/
opaque Config.hubShared : Nat → Nat

end Sys2Proof
end

