-- ==== Sys2Proof/Machine/Deflate.lean ====
section
/-! DEFINITION. Raw DEFLATE (RFC 1951) as the Fulling units decompress and compress it (R223 to R226). -/

namespace Sys2Proof.Machine

/-- Bits of bytes, least significant first. -/
def bitsOf (bs : List (BitVec 8)) : List Bool := bs.flatMap fun b => (List.range 8).map fun i => b.getLsbD i

/-- A number from bits, least significant first. -/
def bitsNat : List Bool → Nat
  | [] => 0
  | b :: bs => b2n b + 2 * bitsNat bs

/-- The first `n` bits as a number, and the rest; none when there are fewer. -/
def takeBits (n : Nat) (bs : List Bool) : Option (Nat × List Bool) :=
  let t := bs.take n
  if t.length = n then some (bitsNat t, bs.drop n) else none

/-- Bytes that whole groups of eight bits make, and the bits left over. -/
def packBits : Nat → List Bool → List (BitVec 8) × List Bool
  | 0, bs => ([], bs)
  | n + 1, bs =>
    if bs.length < 8 then ([], bs)
    else let r := packBits n (bs.drop 8); (BitVec.ofNat 8 (bitsNat (bs.take 8)) :: r.1, r.2)

/-- How a decompression stands: more input is needed, a final block has ended (with the bits left), or an error of Table 10.1. `out` is the
output, newest byte first. -/
inductive Inf
  | more (out : List (BitVec 8))
  | done (out : List (BitVec 8)) (rest : List Bool)
  | err (code : Nat) (out : List (BitVec 8))
  deriving DecidableEq, Repr

/-- A canonical code from its lengths: the symbols of each length, 1 to 15. -/
def codeOf (lens : List Nat) : List (List Nat) :=
  (List.range 15).map fun k => (List.range lens.length).filter fun s => lens.getD s 0 == k + 1

/-- Codes left unused when the code is filled from the lengths: negative means over-subscribed. -/
def codeLeft : List (List Nat) → Int → Int
  | [], left => left
  | c :: cs, left => codeLeft cs (2 * left - c.length)

/-- A code is over-subscribed. -/
def codeOver : List (List Nat) → Int → Bool
  | [], _ => false
  | c :: cs, left => let l := 2 * left - c.length; decide (l < 0) || codeOver cs l

/-- What a symbol read gives: a symbol and the rest, no code, or too few bits. -/
inductive Sym
  | sym (s : Nat) (rest : List Bool) | bad | short

/-- Reads one symbol: `code` and `first` follow the canonical numbering. -/
def readSym : List (List Nat) → Nat → Nat → List Bool → Sym
  | [], _, _, _ => .bad
  | c :: cs, code, first, bs =>
    match bs with
    | [] => .short
    | b :: rest =>
      let k := 2 * code + b2n b
      if k < 2 * first + c.length then .sym (c.getD (k - 2 * first) 0) rest
      else readSym cs k (2 * first + c.length) rest

/-- Base and extra bits of length symbol 257 + `i` and of distance code `d`. -/
def lenBase (i : Nat) : Nat × Nat :=
  if i < 8 then (3 + i, 0) else if i = 28 then (258, 0) else let e := i / 4 - 1; (3 + (4 + i % 4) * 2 ^ e, e)
def distBase (d : Nat) : Nat × Nat := if d < 4 then (1 + d, 0) else let e := d / 2 - 1; (1 + (2 + d % 2) * 2 ^ e, e)

/-- Copies a match of `n` bytes from distance `d`. -/
def copyMatch (d : Nat) : Nat → List (BitVec 8) → List (BitVec 8)
  | 0, out => out
  | n + 1, out => copyMatch d n (out.getD (d - 1) 0 :: out)

/-- The symbols of one Huffman block. The first fuel bounds symbols. `.done` here means that the block ended. -/
def infSyms (lit dist : List (List Nat)) : Nat → List Bool → List (BitVec 8) → Inf
  | 0, _, out => .more out
  | n + 1, bs, out =>
    match readSym lit 0 0 bs with
    | .short => .more out
    | .bad => .err 4 out
    | .sym s bs =>
      if s < 256 then infSyms lit dist n bs (BitVec.ofNat 8 s :: out)
      else if s = 256 then .done out bs
      else if 285 < s then .err 4 out
      else
        let lb := lenBase (s - 257)
        match takeBits lb.2 bs with
        | none => .more out
        | some (x, bs) =>
          match readSym dist 0 0 bs with
          | .short => .more out
          | .bad => .err 4 out
          | .sym d bs =>
            if 29 < d then .err 4 out else
            let db := distBase d
            match takeBits db.2 bs with
            | none => .more out
            | some (y, bs) =>
              let dist0 := db.1 + y
              if out.length < dist0 then .err 5 out
              else infSyms lit dist n bs (copyMatch dist0 (lb.1 + x) out)

/-- The fixed codes. -/
def fixedLit : List (List Nat) :=
  codeOf (List.replicate 144 8 ++ List.replicate 112 9 ++ List.replicate 24 7 ++ List.replicate 8 8)
def fixedDist : List (List Nat) := codeOf (List.replicate 32 5)

/-- The order of the code-length code lengths. -/
def clOrder : List Nat := [16, 17, 18, 0, 8, 7, 9, 6, 10, 5, 11, 4, 12, 3, 13, 2, 14, 1, 15]

/-- What the reading of a list of lengths gives. -/
inductive Lens
  | ok (lens : List Nat) (rest : List Bool) | bad | short

/-- Reads `n` code lengths with the code-length code; `acc` newest first. -/
def readLens (cl : List (List Nat)) (n : Nat) : Nat → List Bool → List Nat → Lens
  | 0, bs, acc => if acc.length = n then .ok acc.reverse bs else .short
  | k + 1, bs, acc =>
    if n ≤ acc.length then (if acc.length = n then .ok acc.reverse bs else .bad) else
    match readSym cl 0 0 bs with
    | .short => .short
    | .bad => .bad
    | .sym s bs =>
      if s < 16 then readLens cl n k bs (s :: acc)
      else
        let e := if s = 16 then (2, 3) else if s = 17 then (3, 3) else (7, 11)
        match takeBits e.1 bs with
        | none => .short
        | some (x, bs) =>
          if s = 16 ∧ acc.isEmpty then .bad
          else readLens cl n k bs (List.replicate (e.2 + x) (if s = 16 then acc.headD 0 else 0) ++ acc)

/-- The code lengths of the code-length code. -/
def readCl : Nat → List Nat → List Bool → Option (List (Nat × Nat) × List Bool)
  | 0, _, bs => some ([], bs)
  | _ + 1, [], bs => some ([], bs)
  | n + 1, o :: os, bs =>
    match takeBits 3 bs with
    | none => none
    | some (x, bs) => (readCl n os bs).map fun r => ((o, x) :: r.1, r.2)

/-- Whether a distance code is one that RFC 1951 allows: complete, or no code, or one code of one bit. -/
def distOk (lens : List Nat) : Bool :=
  codeLeft (codeOf lens) 1 == 0 || lens.all (· == 0) || lens.filter (· != 0) == [1]

/-- A dynamic block after its type bits. -/
def infDynamic (fuel : Nat) (bs : List Bool) (out : List (BitVec 8)) : Inf :=
  match takeBits 14 bs with
  | none => .more out
  | some (h, bs) =>
    let hlit := h % 32 + 257
    let hdist := h / 32 % 32 + 1
    if 286 < hlit ∨ 30 < hdist then .err 3 out else
    match readCl (h / 1024 + 4) clOrder bs with
    | none => .more out
    | some (ps, bs) =>
      let cl := codeOf ((List.range 19).map fun s => ((ps.find? fun p => p.1 == s).map (·.2)).getD 0)
      if codeOver cl 1 ∨ codeLeft cl 1 ≠ 0 then .err 3 out else
      match readLens cl (hlit + hdist) (hlit + hdist + 1) bs [] with
      | .short => .more out
      | .bad => .err 3 out
      | .ok lens bs =>
        let l := lens.take hlit
        let d := lens.drop hlit
        if codeOver (codeOf l) 1 ∨ codeLeft (codeOf l) 1 ≠ 0 ∨ codeOver (codeOf d) 1 ∨ !distOk d then .err 3 out
        else infSyms (codeOf l) (codeOf d) fuel bs out

/-- A stored block after its type bits; `pos` is the number of bits read so far in the stream. -/
def infStored (pos : Nat) (bs : List Bool) (out : List (BitVec 8)) : Inf :=
  let bs := bs.drop ((8 - pos % 8) % 8)
  match takeBits 32 bs with
  | none => .more out
  | some (h, bs) =>
    let len := h % 65536
    if h / 65536 ≠ 65535 - len then .err 2 out
    else
      let r := packBits len (bs.take (8 * len))
      if r.1.length = len then .done (r.1.reverse ++ out) (bs.drop (8 * len)) else .more (r.1.reverse ++ out)

/-- One block without its BFINAL bit: type and body. `total` is the number of bits of the whole stream, `bs` what is left of it. -/
def infBlock (total : Nat) (bs : List Bool) (out : List (BitVec 8)) : Inf :=
  match takeBits 2 bs with
  | none => .more out
  | some (t, bs) =>
    if t = 0 then infStored (total - bs.length) bs out
    else if t = 1 then infSyms fixedLit fixedDist (bs.length + 1) bs out
    else if t = 2 then infDynamic (bs.length + 1) bs out
    else .err 1 out

/-- Blocks up to the final one. -/
def infBlocks (total : Nat) : Nat → List Bool → List (BitVec 8) → Inf
  | 0, _, out => .more out
  | n + 1, bs, out =>
    match bs with
    | [] => .more out
    | fin :: bs =>
      match infBlock total bs out with
      | .done out rest => if fin then .done out rest else infBlocks total n rest out
      | r => r

/-- Decompression of a prefix of a stream (R225, R226). -/
def inflate (bs : List (BitVec 8)) : Inf :=
  let b := bitsOf bs
  infBlocks b.length (b.length + 1) b []

/-- The output of a decompression, oldest byte first. -/
def Inf.out : Inf → List (BitVec 8)
  | .more o => o.reverse
  | .done o _ => o.reverse
  | .err _ o => o.reverse

/-! ### Compression (R223) -/

/-- The bits of a number, least significant first. -/
def natBits (n v : Nat) : List Bool := (List.range n).map fun i => bit i v

/-- A stored block for a segment, after `pos` bits of the stream. -/
def storedBlock (pos : Nat) (fin : Bool) (seg : List (BitVec 8)) : List Bool :=
  let n := seg.length
  fin :: false :: false :: (List.replicate ((8 - (pos + 3) % 8) % 8) false ++ natBits 16 n ++ natBits 16 (65535 - n) ++ bitsOf seg)

/-- Whether bits (BTYPE and body) are one block of type `t` that spells the segment. -/
def blockOk (t : Nat) (hist seg : List (BitVec 8)) (bs : List Bool) : Bool :=
  match takeBits 2 bs with
  | some (u, _) => u == t && infBlock 0 bs (hist.reverse) == .done (seg.reverse ++ hist.reverse) []
  | none => false

/-- The fixed code of a literal byte, most significant code bit first. -/
def fixedByte (b : BitVec 8) : List Bool :=
  if b.toNat < 144 then (natBits 8 (48 + b.toNat)).reverse else (natBits 9 (256 + b.toNat)).reverse

/-- A fixed-Huffman block without a match, after its BFINAL bit. -/
def fixedLiterals (seg : List (BitVec 8)) : List Bool := true :: false :: (seg.flatMap fixedByte ++ List.replicate 7 false)

/-- The fixed-Huffman block that a unit finds: which matches it takes is open, and it need take none (log entry 14). -/
def fixedBlock (hist seg : List (BitVec 8)) : List Bool :=
  let p := Config.fullProposal 1 hist seg
  if blockOk 1 hist seg p then p else fixedLiterals seg

/-- The block of one segment (R223): of the types that STRATEGY allows the one with the fewest bits, among equals a stored block first and a
fixed-Huffman block before a dynamic one. Which matches and which code lengths a unit finds for a dynamic block is open, so the best that it has
may be no block at all (log entry 14). The second value says that the block is stored. -/
def deflateSeg (strategy pos : Nat) (fin : Bool) (hist seg : List (BitVec 8)) : List Bool × Bool :=
  let st := storedBlock pos fin seg
  let fx := fin :: fixedBlock hist seg
  let dy := Config.fullProposal 2 hist seg
  let two := if strategy ≠ 2 ∧ fx.length < st.length then fx else st
  if strategy = 0 ∧ blockOk 2 hist seg dy ∧ dy.length + 1 < two.length then (fin :: dy, false)
  else (two, !(strategy != 2 && decide (fx.length < st.length)))

end Sys2Proof.Machine
end

