-- ==== Sys2Proof/Machine/RegMap.lean ====
section
/-! DEFINITION. The register map of the Bridge Control Space (R16) as data: every register of the field tables of the spec, its
place, and its fields by access code (R6) and reset value (R7). The rows were set down from the field tables chapter by
chapter; each docstring names the register as the spec spells it. Fields of one row of Table 2.1 share a `Block`. -/

namespace Sys2Proof.Machine

/-- The blocks of Table 2.1. -/
inductive Block
  | glb | upd | flt | bst | pwr | kst | img | hub | tlk | jnl | eng | cmp | mgt | gpt | wtt | dvt | gate | bi
  deriving DecidableEq, Repr

/-- Base of a block (Table 2.1). -/
def Block.base : Block → Nat
  | .glb => 0x0
  | .upd => 0x8000
  | .flt => 0x10000
  | .bst => 0x18000
  | .pwr => 0x20000
  | .kst => 0x28000
  | .img => 0x30000
  | .hub => 0x38000
  | .tlk => 0x40000
  | .jnl => 0x50000
  | .eng => 0x60000
  | .cmp => 0x70000
  | .mgt => 0x80000
  | .gpt => 0x100000
  | .wtt => 0x200000
  | .dvt => 0x400000
  | .gate => 0x800000
  | .bi => 0x1000000

/-- Block size (Table 2.1). -/
def Block.size : Block → Nat
  | .glb => 0x2000
  | .upd => 0x2000
  | .flt => 0x2000
  | .bst => 0x2000
  | .pwr => 0x2000
  | .kst => 0x2000
  | .img => 0x2000
  | .hub => 0x2000
  | .tlk => 0x4000
  | .jnl => 0x4000
  | .eng => 0x4000
  | .cmp => 0x4000
  | .mgt => 0x2000
  | .gpt => 0x40000
  | .wtt => 0x200000
  | .dvt => 0x400000
  | .gate => 0x80000
  | .bi => 0x1000000

/-- Every register (or family of like registers) that the spec gives a field table. -/
inductive RegId
  | glbId | glbVendor | glbDieIdLo | glbDieIdHi | glbImgId | glbFuseBin | glbStraps | glbMode | glbModeReq
  | glbScratch | glbTsLo | glbTsHi | glbBadAccAddr | glbBadAccInfo | updStrobe | updBusy | updStatus | updErr
  | updCount | updKeyStatus | updKeyAddr | updLockStatus | updLockAddr | tlkBcsBaseLo | tlkBcsBaseHi | tlkBridgeId
  | tlkCplTimeout | tlkFailover | tlkDownLimit | tlkWakeDest | tlkCtl | tlkStat | tlkCredHdr | tlkCredData
  | tlkFecThresh | tlkFecCorr | tlkFecUncorr | tlkLinkCnt | tlkRxErr | tlkOutstanding | gptCfg | gptCtl | gptExchTo
  | gptLockTo | gptRetryCtl | gptCollCtl | gptDownHold | gptStat | gptAttnAck | gptAttnUnmute | gptErrCnt
  | gptRetryCnt | gptCollCnt | gptAttnCnt | gptLockCnt | gptLinkCnt | gptSlotCnt | gptSbiMap | gptSbiStat
  | gptSbiUnmute | updTblPend | updTblStat | updTblRejWtt | updTblRejDvt | updTblCtl | updTblBarrier | updTblCnt
  | sqBaseLo | sqBaseHi | qCfg | sqDb | sqHead | qStat | cqBaseLo | cqBaseHi | cqCoal | cqDb | cqTail | qCtl | qCnt
  | evDest | evVec | pelBaseLo | pelBaseHi | pelCfg | pelHead | pelTail | pelStat | pelCtl | fenceDb | fenceStat
  | digBaseLo | digBaseHi | digCfg | digCnt | gptSmapFld | gptSmapScale | gptSmapOfs | gptSmapRejLo | gptSmapRejHi
  | engCfg | engStat | engActive | engSpare | engRetired | engLastRetire | engMigTime | engCnt | engC0Cap
  | engDispatch | engInstSel | engInstCtx | engInstUseLo | engInstUseHi | jnlIdx | jnlCmd | jnlStat | jnlFilter
  | jnlData | jnlCntFree | jnlCntS | jnlHwm | jnlEcc | jnlMigCnt | jnlMigStat | hubArbCfg | hubMaskStat | hubDeadCnt
  | hubC0Cnt | hubC0Rej | hubC0Port | hubInstSel | hubInstC0 | hubInstHeld | hubOutSel | hubOutStat | hubOutFlitsLo
  | hubOutFlitsHi | jnlLndFloor | jnlLndFree | jnlLndOvs | jnlLndEcc | jnlLndInstSel | jnlLndInstUse | jnlWdCfg
  | jnlWdStat | jnlWdLast | cmpFuCfg | cmpUnitStat | cmpFuBytesLo | cmpFuBytesHi | cmpCuBytesLo | cmpCuBytesHi
  | cmpXformCnt | cmpUnitErr | cmpKekData | cmpKekLoad | cmpKekStat | cmpKekValid | cmpSlotSel | cmpSlotStat
  | cmpKldAddrLo | cmpKldAddrHi | cmpKldCmd | cmpKldStat | gateRgnCtl | gateRgnIdVal | gateRgnIdMask | gateRgnBaseLo
  | gateRgnBaseHi | gateRgnLimitLo | gateRgnLimitHi | gateDefmap | gateDbgUnlock | gateBarrier | gateRej
  | gateRejInfo | gateSel | gateStat | gateLastId | gateLastAddrLo | gateLastAddrHi | gateDbgStat | instId | instStat
  | instJquota | instLquota | instAllow | instDnw | instC0 | instAttnAck | instAttnUnmute | instCnt | mgtQBaseLo
  | mgtQBaseHi | mgtQCfg | mgtDb | mgtHead | mgtStat | mgtCtl | mgtCnt | mgtPoolJnl | mgtPoolLnd | mgtPoolEng
  | mgtPoolWin | mgtPoolDn | mgtPoolKey | mgtPoolC0 | mgtInstSel | mgtInstStat | fltFirstSrc | fltFirstSynLo
  | fltFirstSynHi | fltFirstTsLo | fltFirstTsHi | fltHighest | fltCntCe | fltCntUc | fltCntFt | fltHalt
  | fltHaltSynLo | fltHaltSynHi | fltHaltTsLo | fltHaltTsHi | fltSrcSel | fltSrcCfg | fltSrcCnt | fltEvDest
  | fltEvVec | fltEvDrop | fltChkExercise | fltChkStat | fltAlive | bstCfg | bstCeThresh | bstCmd | bstStat
  | bstLastMem | bstLastEng | bstFailMem | bstMisrMem | bstMisrMemExp | bstMisrEng | bstMisrEngExp | bstCnt | bstCnt2
  | bstSpare | bstSbSel | bstSbStat | bstRepairStat | bstFuseCmd | bstFuseStat | pwrModeStat | pwrModeCnt
  | pwrDozeCfg | pwrDroopCfg | pwrDroopStat | pwrDroopMax | pwrSlew | pwrGate | pwrSlewStat | pwrSlewCnt
  | pwrSlewMaxwait | pwrEngOn | pwrAvsCfg | pwrAvsStat | pwrAvsV | pwrTemp | pwrPower | pwrCalCfg | pwrCalCnt
  | pwrClkStat | kstStat | kstSbi | kstFired | kstAlert | kstEv | kstSmb | kstLogHead | kstRej | kstRejW | kstLogA
  | kstLogB | kstWatch | kstRuleIn | kstRuleDeb | kstRuleAct | imgBoot | imgSlotA | imgSlotB | imgSlotIdA
  | imgSlotIdB | imgFlash | imgLayout | imgBootCfg | imgSetCmd | imgSetStat | imgSetSeq | imgBoots | imgFatal
  | imgSvn | imgSvnBurn | imgFlAddr | imgFlCmd | imgFlStat | imgFlBuf
  deriving DecidableEq, Repr

/-- The half of a 64-bit pair that a register is (R17). -/
inductive Half
  | none | lo | hi
  deriving DecidableEq, Repr

/-- One row of the register map. The register at index `i` lies at `off + (i / n2) * s1 + (i % n2) * s2` in its block. The
masks give the bits of each access code of Table 0.3; bits in no mask are RO. -/
structure RegRow where
  block : Block
  off : Nat
  n1 : Nat := 1
  s1 : Nat := 0x4000000
  n2 : Nat := 1
  s2 : Nat := 4
  half : Half := .none
  keyed : Bool := false
  rw : Word := 0
  rws : Word := 0
  rc : Word := 0
  wo : Word := 0
  key : Word := 0
  prsv : Word := 0
  reset : Word := 0
  deriving DecidableEq, Repr

/-- The row of each register, from the field table that the comment names. -/
def RegId.row : RegId → RegRow
  -- GLB_ID
  | .glbId => { block := .glb, off := 0x0, prsv := 0x000000FF, reset := 0x0144A100 }
  -- GLB_VENDOR
  | .glbVendor => { block := .glb, off := 0x4, prsv := 0x0000FFFF, reset := 0x5C530000 }
  -- GLB_DIE_ID_LO
  | .glbDieIdLo => { block := .glb, off := 0x8, half := .lo }
  -- GLB_DIE_ID_HI
  | .glbDieIdHi => { block := .glb, off := 0xC, half := .hi }
  -- GLB_IMG_ID
  | .glbImgId => { block := .glb, off := 0x10 }
  -- GLB_FUSE_BIN
  | .glbFuseBin => { block := .glb, off := 0x14, prsv := 0xFFFFFFF0 }
  -- GLB_STRAPS
  | .glbStraps => { block := .glb, off := 0x18, prsv := 0xFFFFFF00 }
  -- GLB_MODE
  | .glbMode => { block := .glb, off := 0x20, prsv := 0xFFFFFFF8, reset := 0x00000001 }
  -- GLB_MODE_REQ
  | .glbModeReq => { block := .glb, off := 0x24, keyed := true, key := 0x00000007, prsv := 0xFFFFFFF8 }
  -- GLB_SCRATCH
  | .glbScratch => { block := .glb, off := 0x30, n1 := 4, s1 := 0x4, rw := 0xFFFFFFFF }
  -- GLB_TS_LO
  | .glbTsLo => { block := .glb, off := 0x40, half := .lo }
  -- GLB_TS_HI
  | .glbTsHi => { block := .glb, off := 0x44, half := .hi }
  -- GLB_BAD_ACC_ADDR
  | .glbBadAccAddr => { block := .glb, off := 0x50, prsv := 0xFC000000 }
  -- GLB_BAD_ACC_INFO
  | .glbBadAccInfo => { block := .glb, off := 0x54, rc := 0xFFCFFFFF, prsv := 0x00300000 }
  -- UPD_STROBE
  | .updStrobe => { block := .upd, off := 0x0, wo := 0x00001FFF, prsv := 0xFFFFE000 }
  -- UPD_BUSY
  | .updBusy => { block := .upd, off := 0x4, prsv := 0xFFFFFFFE }
  -- UPD_STATUS
  | .updStatus => { block := .upd, off := 0x8, prsv := 0xFC000000 }
  -- UPD_ERR
  | .updErr => { block := .upd, off := 0xC, rc := 0x00000001, prsv := 0xFFFFFFFE }
  -- UPD_COUNT
  | .updCount => { block := .upd, off := 0x10 }
  -- UPD_KEY_STATUS
  | .updKeyStatus => { block := .upd, off := 0x20, rc := 0xFFFF0007, prsv := 0x0000FFF8 }
  -- UPD_KEY_ADDR
  | .updKeyAddr => { block := .upd, off := 0x24, prsv := 0xFC000000 }
  -- UPD_LOCK_STATUS
  | .updLockStatus => { block := .upd, off := 0x28, rc := 0xFFFF0001, prsv := 0x0000FFFE }
  -- UPD_LOCK_ADDR
  | .updLockAddr => { block := .upd, off := 0x2C, prsv := 0xFC000000 }
  -- TLK_BCS_BASE_LO
  | .tlkBcsBaseLo => { block := .tlk, off := 0x0, half := .lo, prsv := 0x03FFFFFE }
  -- TLK_BCS_BASE_HI
  | .tlkBcsBaseHi => { block := .tlk, off := 0x4, half := .hi, prsv := 0xFF000000 }
  -- TLK_BRIDGE_ID
  | .tlkBridgeId => { block := .tlk, off := 0x8, prsv := 0xFFF00000 }
  -- TLK_CPL_TIMEOUT
  | .tlkCplTimeout => { block := .tlk, off := 0x10, rws := 0x0000FFFF, prsv := 0xFFFF0000, reset := 0x000003E8 }
  -- TLK_FAILOVER
  | .tlkFailover => { block := .tlk, off := 0x14, rws := 0x8000FFFF, prsv := 0x7FFF0000, reset := 0x000003E8 }
  -- TLK_DOWN_LIMIT
  | .tlkDownLimit => { block := .tlk, off := 0x18, rws := 0x0000FFFF, prsv := 0xFFFF0000, reset := 0x00000064 }
  -- TLK_WAKE_DEST
  | .tlkWakeDest => { block := .tlk, off := 0x20, rws := 0x003FFFFF, prsv := 0xFFC00000 }
  -- TLK_CTL
  | .tlkCtl => {
      block := .tlk, off := 0x1000, n1 := 2,
      s1 := 0x800, rws := 0x00000060, wo := 0x00000080, prsv := 0xFFFFFF1F }
  -- TLK_STAT
  | .tlkStat => { block := .tlk, off := 0x1004, n1 := 2, s1 := 0x800, prsv := 0x0000FF00, reset := 0x000000C0 }
  -- TLK_CRED_HDR
  | .tlkCredHdr => { block := .tlk, off := 0x1010, n1 := 2, s1 := 0x800, n2 := 4, s2 := 0x8, prsv := 0xFFFF0000 }
  -- TLK_CRED_DATA
  | .tlkCredData => { block := .tlk, off := 0x1014, n1 := 2, s1 := 0x800, n2 := 4, s2 := 0x8, prsv := 0xF000F000 }
  -- TLK_FEC_THRESH
  | .tlkFecThresh => {
      block := .tlk, off := 0x1030, n1 := 2,
      s1 := 0x800, rws := 0x0000FFFF, prsv := 0xFFFF0000, reset := 0x00000008 }
  -- TLK_FEC_CORR
  | .tlkFecCorr => { block := .tlk, off := 0x1040, n1 := 2, s1 := 0x800, rc := 0xFFFFFFFF }
  -- TLK_FEC_UNCORR
  | .tlkFecUncorr => { block := .tlk, off := 0x1044, n1 := 2, s1 := 0x800, rc := 0xFFFFFFFF }
  -- TLK_LINK_CNT
  | .tlkLinkCnt => { block := .tlk, off := 0x1048, n1 := 2, s1 := 0x800, rc := 0xFFFFFFFF }
  -- TLK_RX_ERR
  | .tlkRxErr => { block := .tlk, off := 0x104C, n1 := 2, s1 := 0x800, rc := 0xFFFFFFFF }
  -- TLK_OUTSTANDING
  | .tlkOutstanding => { block := .tlk, off := 0x1050, n1 := 2, s1 := 0x800, prsv := 0xFFFFE000 }
  -- GPT_CFG
  | .gptCfg => { block := .gpt, off := 0x0, n1 := 144, s1 := 0x400, prsv := 0xFFFC00C4 }
  -- GPT_CTL
  | .gptCtl => { block := .gpt, off := 0x4, n1 := 144, s1 := 0x400, wo := 0x00000001, prsv := 0xFFFFFFFE }
  -- GPT_EXCH_TO
  | .gptExchTo => {
      block := .gpt, off := 0x8, n1 := 144,
      s1 := 0x400, rws := 0x00003FFF, prsv := 0xFFFFC000, reset := 0x00000032 }
  -- GPT_LOCK_TO
  | .gptLockTo => {
      block := .gpt, off := 0xC, n1 := 144,
      s1 := 0x400, rws := 0x00003FFF, prsv := 0xFFFFC000, reset := 0x000003E8 }
  -- GPT_RETRY_CTL
  | .gptRetryCtl => {
      block := .gpt, off := 0x10, n1 := 144,
      s1 := 0x400, rws := 0x0000FF07, prsv := 0xFFFF00F8, reset := 0x00004003 }
  -- GPT_COLL_CTL
  | .gptCollCtl => {
      block := .gpt, off := 0x14, n1 := 144,
      s1 := 0x400, rws := 0x00FF00FF, prsv := 0xFF00FF00, reset := 0x00140005 }
  -- GPT_DOWN_HOLD
  | .gptDownHold => {
      block := .gpt, off := 0x18, n1 := 144,
      s1 := 0x400, rws := 0x000003FF, prsv := 0xFFFFFC00, reset := 0x0000000A }
  -- GPT_STAT
  | .gptStat => {
      block := .gpt, off := 0x20, n1 := 144,
      s1 := 0x400, rc := 0x00000008, prsv := 0x80808000, reset := 0x00000001 }
  -- GPT_ATTN_ACK
  | .gptAttnAck => { block := .gpt, off := 0x30, n1 := 144, s1 := 0x400, wo := 0x000007FF, prsv := 0xFFFFF800 }
  -- GPT_ATTN_UNMUTE
  | .gptAttnUnmute => { block := .gpt, off := 0x34, n1 := 144, s1 := 0x400, wo := 0x000007FF, prsv := 0xFFFFF800 }
  -- GPT_ERR_CNT
  | .gptErrCnt => { block := .gpt, off := 0x40, n1 := 144, s1 := 0x400, rc := 0xFFFFFFFF }
  -- GPT_RETRY_CNT
  | .gptRetryCnt => { block := .gpt, off := 0x44, n1 := 144, s1 := 0x400, rc := 0xFFFFFFFF }
  -- GPT_COLL_CNT
  | .gptCollCnt => { block := .gpt, off := 0x48, n1 := 144, s1 := 0x400, rc := 0xFFFFFFFF }
  -- GPT_ATTN_CNT
  | .gptAttnCnt => { block := .gpt, off := 0x4C, n1 := 144, s1 := 0x400, rc := 0xFFFFFFFF }
  -- GPT_LOCK_CNT
  | .gptLockCnt => { block := .gpt, off := 0x50, n1 := 144, s1 := 0x400, rc := 0xFFFFFFFF }
  -- GPT_LINK_CNT
  | .gptLinkCnt => { block := .gpt, off := 0x54, n1 := 144, s1 := 0x400, rc := 0xFFFFFFFF }
  -- GPT_SLOT_CNT
  | .gptSlotCnt => { block := .gpt, off := 0x58, n1 := 144, s1 := 0x400, rc := 0xFFFFFFFF }
  -- GPT_SBI_MAP
  | .gptSbiMap => { block := .gpt, off := 0x24000, n1 := 16, s1 := 0x4, rws := 0x8003FFFF, prsv := 0x7FFC0000 }
  -- GPT_SBI_STAT
  | .gptSbiStat => { block := .gpt, off := 0x24040 }
  -- GPT_SBI_UNMUTE
  | .gptSbiUnmute => { block := .gpt, off := 0x24044, wo := 0x0000FFFF, prsv := 0xFFFF0000 }
  -- UPD_TBL_PEND
  | .updTblPend => { block := .upd, off := 0x40, prsv := 0xE000E000 }
  -- UPD_TBL_STAT
  | .updTblStat => { block := .upd, off := 0x44, prsv := 0x3C000000 }
  -- UPD_TBL_REJ_WTT
  | .updTblRejWtt => { block := .upd, off := 0x48, prsv := 0x7FFF0000 }
  -- UPD_TBL_REJ_DVT
  | .updTblRejDvt => { block := .upd, off := 0x4C, prsv := 0x7FFC0000 }
  -- UPD_TBL_CTL
  | .updTblCtl => { block := .upd, off := 0x50, wo := 0x00000003, prsv := 0xFFFFFFFC }
  -- UPD_TBL_BARRIER
  | .updTblBarrier => { block := .upd, off := 0x54, wo := 0x00000001, prsv := 0x7FFFFFFE, reset := 0x80000000 }
  -- UPD_TBL_CNT
  | .updTblCnt => { block := .upd, off := 0x58, rc := 0xFFFFFFFF }
  -- SQ_BASE_LO
  | .sqBaseLo => {
      block := .bi, off := 0x0, n1 := 256, s1 := 0x10000,
      n2 := 4, s2 := 0x40, half := .lo, rw := 0xFFFFF000, prsv := 0x00000FFF }
  -- SQ_BASE_HI
  | .sqBaseHi => {
      block := .bi, off := 0x4, n1 := 256, s1 := 0x10000,
      n2 := 4, s2 := 0x40, half := .hi, rw := 0x00FFFFFF, prsv := 0xFF000000 }
  -- Q_CFG
  | .qCfg => {
      block := .bi, off := 0x8, n1 := 256, s1 := 0x10000,
      n2 := 4, s2 := 0x40, rw := 0x9F1FFF03, prsv := 0x60E000FC, reset := 0x00000001 }
  -- SQ_DB
  | .sqDb => {
      block := .bi, off := 0xC, n1 := 256, s1 := 0x10000,
      n2 := 4, s2 := 0x40, rw := 0x0000FFFF, prsv := 0xFFFF0000 }
  -- SQ_HEAD
  | .sqHead => { block := .bi, off := 0x10, n1 := 256, s1 := 0x10000, n2 := 4, s2 := 0x40, prsv := 0xFFFF0000 }
  -- Q_STAT
  | .qStat => {
      block := .bi, off := 0x14, n1 := 256, s1 := 0x10000,
      n2 := 4, s2 := 0x40, rc := 0x000001C0, prsv := 0x3F00FE00 }
  -- CQ_BASE_LO
  | .cqBaseLo => {
      block := .bi, off := 0x18, n1 := 256, s1 := 0x10000,
      n2 := 4, s2 := 0x40, half := .lo, rw := 0xFFFFF000, prsv := 0x00000FFF }
  -- CQ_BASE_HI
  | .cqBaseHi => {
      block := .bi, off := 0x1C, n1 := 256, s1 := 0x10000,
      n2 := 4, s2 := 0x40, half := .hi, rw := 0x00FFFFFF, prsv := 0xFF000000 }
  -- CQ_COAL
  | .cqCoal => {
      block := .bi, off := 0x20, n1 := 256, s1 := 0x10000,
      n2 := 4, s2 := 0x40, rw := 0x80FFFFFF, prsv := 0x7F000000, reset := 0x00010000 }
  -- CQ_DB
  | .cqDb => {
      block := .bi, off := 0x24, n1 := 256, s1 := 0x10000,
      n2 := 4, s2 := 0x40, rw := 0x0000FFFF, wo := 0x80000000, prsv := 0x7FFF0000 }
  -- CQ_TAIL
  | .cqTail => {
      block := .bi, off := 0x28, n1 := 256, s1 := 0x10000,
      n2 := 4, s2 := 0x40, prsv := 0x7FFF0000, reset := 0x80000000 }
  -- Q_CTL
  | .qCtl => {
      block := .bi, off := 0x2C, n1 := 256, s1 := 0x10000,
      n2 := 4, s2 := 0x40, wo := 0x00000001, prsv := 0xFFFFFFFE }
  -- Q_CNT
  | .qCnt => { block := .bi, off := 0x30, n1 := 256, s1 := 0x10000, n2 := 4, s2 := 0x40, rc := 0xFFFFFFFF }
  -- EV_DEST
  | .evDest => { block := .bi, off := 0x100, n1 := 256, s1 := 0x10000, rw := 0x001FFFFF, prsv := 0xFFE00000 }
  -- EV_VEC
  | .evVec => {
      block := .bi, off := 0x104, n1 := 256, s1 := 0x10000,
      n2 := 8, s2 := 0x4, rw := 0x800CFFFF, prsv := 0x7FF30000 }
  -- PEL_BASE_LO
  | .pelBaseLo => {
      block := .bi, off := 0x140, n1 := 256,
      s1 := 0x10000, half := .lo, rw := 0xFFFFF000, prsv := 0x00000FFF }
  -- PEL_BASE_HI
  | .pelBaseHi => {
      block := .bi, off := 0x144, n1 := 256,
      s1 := 0x10000, half := .hi, rw := 0x00FFFFFF, prsv := 0xFF000000 }
  -- PEL_CFG
  | .pelCfg => {
      block := .bi, off := 0x148, n1 := 256,
      s1 := 0x10000, rw := 0x8000001F, prsv := 0x7FFFFFE0, reset := 0x00000004 }
  -- PEL_HEAD
  | .pelHead => {
      block := .bi, off := 0x14C, n1 := 256,
      s1 := 0x10000, rw := 0x0000FFFF, rc := 0x80000000, prsv := 0x7FFF0000 }
  -- PEL_TAIL
  | .pelTail => { block := .bi, off := 0x150, n1 := 256, s1 := 0x10000, prsv := 0x7FFF0000, reset := 0x80000000 }
  -- PEL_STAT
  | .pelStat => { block := .bi, off := 0x154, n1 := 256, s1 := 0x10000, rc := 0x0000FFFF }
  -- PEL_CTL
  | .pelCtl => { block := .bi, off := 0x158, n1 := 256, s1 := 0x10000, wo := 0x00000001, prsv := 0xFFFFFFFE }
  -- FENCE_DB
  | .fenceDb => { block := .bi, off := 0x160, n1 := 256, s1 := 0x10000, wo := 0x0000FFFF, prsv := 0xFFFF0000 }
  -- FENCE_STAT
  | .fenceStat => { block := .bi, off := 0x164, n1 := 256, s1 := 0x10000, reset := 0x80000000 }
  -- DIG_BASE_LO
  | .digBaseLo => {
      block := .bi, off := 0x180, n1 := 256,
      s1 := 0x10000, half := .lo, rw := 0xFFFFF000, prsv := 0x00000FFF }
  -- DIG_BASE_HI
  | .digBaseHi => {
      block := .bi, off := 0x184, n1 := 256,
      s1 := 0x10000, half := .hi, rw := 0x00FFFFFF, prsv := 0xFF000000 }
  -- DIG_CFG
  | .digCfg => { block := .bi, off := 0x188, n1 := 256, s1 := 0x10000, rw := 0xFFFFFFFF }
  -- DIG_CNT
  | .digCnt => { block := .bi, off := 0x18C, n1 := 256, s1 := 0x10000, rc := 0xFFFFFFFF }
  -- GPT_SMAP_FLD
  | .gptSmapFld => {
      block := .gpt, off := 0x28000, n1 := 64, s1 := 0x80,
      n2 := 8, s2 := 0x10, rws := 0xC73F007F, prsv := 0x38C0FF80 }
  -- GPT_SMAP_SCALE
  | .gptSmapScale => { block := .gpt, off := 0x28004, n1 := 64, s1 := 0x80, n2 := 8, s2 := 0x10, rws := 0xFFFFFFFF }
  -- GPT_SMAP_OFS
  | .gptSmapOfs => { block := .gpt, off := 0x28008, n1 := 64, s1 := 0x80, n2 := 8, s2 := 0x10, rws := 0xFFFFFFFF }
  -- GPT_SMAP_REJ_LO
  | .gptSmapRejLo => { block := .gpt, off := 0x24048, half := .lo }
  -- GPT_SMAP_REJ_HI
  | .gptSmapRejHi => { block := .gpt, off := 0x2404C, half := .hi }
  -- ENG_CFG
  | .engCfg => { block := .eng, off := 0x0, prsv := 0xFFFFFF80 }
  -- ENG_STAT
  | .engStat => { block := .eng, off := 0x4, prsv := 0x7F800F80 }
  -- ENG_ACTIVE
  | .engActive => { block := .eng, off := 0x10, n1 := 4, s1 := 0x4 }
  -- ENG_SPARE
  | .engSpare => { block := .eng, off := 0x20, n1 := 4, s1 := 0x4 }
  -- ENG_RETIRED
  | .engRetired => { block := .eng, off := 0x30, n1 := 4, s1 := 0x4 }
  -- ENG_LAST_RETIRE
  | .engLastRetire => { block := .eng, off := 0x40, rc := 0xFF7F001F, prsv := 0x0080FFE0 }
  -- ENG_MIG_TIME
  | .engMigTime => { block := .eng, off := 0x44, prsv := 0xFFFF0000 }
  -- ENG_CNT
  | .engCnt => { block := .eng, off := 0x48, rc := 0xFFFFFFFF }
  -- ENG_C0_CAP
  | .engC0Cap => { block := .eng, off := 0x50, rws := 0x0000003F, prsv := 0xFFFFFFC0, reset := 0x00000019 }
  -- ENG_DISPATCH
  | .engDispatch => { block := .eng, off := 0x54, prsv := 0xFFFF0000 }
  -- ENG_INST_SEL
  | .engInstSel => { block := .eng, off := 0x60, rw := 0x000000FF, prsv := 0xFFFFFF00 }
  -- ENG_INST_CTX
  | .engInstCtx => { block := .eng, off := 0x64, prsv := 0xF800F800 }
  -- ENG_INST_USE_LO
  | .engInstUseLo => { block := .eng, off := 0x68, half := .lo }
  -- ENG_INST_USE_HI
  | .engInstUseHi => { block := .eng, off := 0x6C, half := .hi }
  -- JNL_IDX
  | .jnlIdx => { block := .jnl, off := 0x0, rw := 0x003FFFFF, prsv := 0xFFC00000 }
  -- JNL_CMD
  | .jnlCmd => { block := .jnl, off := 0x4, wo := 0x00000003, prsv := 0xFFFFFFFC }
  -- JNL_STAT
  | .jnlStat => { block := .jnl, off := 0x8, prsv := 0x07FFFFFF }
  -- JNL_FILTER
  | .jnlFilter => { block := .jnl, off := 0xC, rw := 0x7FFF01FF, prsv := 0x8000FE00, reset := 0x7EFF0000 }
  -- JNL_DATA
  | .jnlData => { block := .jnl, off := 0x10, n1 := 6, s1 := 0x4 }
  -- JNL_CNT_FREE
  | .jnlCntFree => { block := .jnl, off := 0x40, prsv := 0xFF800000, reset := 0x00400000 }
  -- JNL_CNT_S
  | .jnlCntS => { block := .jnl, off := 0x44, n1 := 6, s1 := 0x4, prsv := 0xFF800000 }
  -- JNL_HWM
  | .jnlHwm => { block := .jnl, off := 0x60, rc := 0x007FFFFF, prsv := 0xFF800000 }
  -- JNL_ECC
  | .jnlEcc => { block := .jnl, off := 0x64, rc := 0xFFFFFFFF }
  -- JNL_MIG_CNT
  | .jnlMigCnt => { block := .jnl, off := 0x68, rc := 0xFFFFFFFF }
  -- JNL_MIG_STAT
  | .jnlMigStat => { block := .jnl, off := 0x6C, prsv := 0x3FFFFC00 }
  -- HUB_ARB_CFG
  | .hubArbCfg => { block := .hub, off := 0x0, rws := 0xF0FFFFFF, prsv := 0x0F000000, reset := 0x10804000 }
  -- HUB_MASK_STAT
  | .hubMaskStat => { block := .hub, off := 0x4, prsv := 0x1FFFFF80, reset := 0xE0000068 }
  -- HUB_DEAD_CNT
  | .hubDeadCnt => { block := .hub, off := 0x8, rc := 0xFFFFFFFF }
  -- HUB_C0_CNT
  | .hubC0Cnt => { block := .hub, off := 0xC, rc := 0xFFFFFFFF }
  -- HUB_C0_REJ
  | .hubC0Rej => { block := .hub, off := 0x10, prsv := 0xFF800000 }
  -- HUB_C0_PORT
  | .hubC0Port => {
      block := .hub, off := 0x100, n1 := 23,
      s1 := 0x4, rws := 0x0000FF0F, prsv := 0xFFFF00F0, reset := 0x0000400A }
  -- HUB_INST_SEL
  | .hubInstSel => { block := .hub, off := 0x200, rw := 0x000000FF, prsv := 0xFFFFFF00 }
  -- HUB_INST_C0
  | .hubInstC0 => { block := .hub, off := 0x204, prsv := 0x0000FFF0 }
  -- HUB_INST_HELD
  | .hubInstHeld => { block := .hub, off := 0x208, rc := 0xFFFFFFFF }
  -- HUB_OUT_SEL
  | .hubOutSel => { block := .hub, off := 0x300, rw := 0x0000001F, prsv := 0xFFFFFFE0 }
  -- HUB_OUT_STAT
  | .hubOutStat => { block := .hub, off := 0x304, rc := 0xFF00FFFF, prsv := 0x00FF0000 }
  -- HUB_OUT_FLITS_LO
  | .hubOutFlitsLo => { block := .hub, off := 0x308, half := .lo }
  -- HUB_OUT_FLITS_HI
  | .hubOutFlitsHi => { block := .hub, off := 0x30C, half := .hi }
  -- JNL_LND_FLOOR
  | .jnlLndFloor => { block := .jnl, off := 0x100, n1 := 4, s1 := 0x4, prsv := 0xC0000000 }
  -- JNL_LND_FREE
  | .jnlLndFree => { block := .jnl, off := 0x110, prsv := 0xFFFC0000 }
  -- JNL_LND_OVS
  | .jnlLndOvs => { block := .jnl, off := 0x114, prsv := 0xFE00FFE0, reset := 0x01000000 }
  -- JNL_LND_ECC
  | .jnlLndEcc => { block := .jnl, off := 0x118, rc := 0xFFFFFFFF }
  -- JNL_LND_INST_SEL
  | .jnlLndInstSel => { block := .jnl, off := 0x120, rw := 0x000000FF, prsv := 0xFFFFFF00 }
  -- JNL_LND_INST_USE
  | .jnlLndInstUse => { block := .jnl, off := 0x124, prsv := 0x3FFC0000 }
  -- JNL_WD_CFG
  | .jnlWdCfg => { block := .jnl, off := 0x130, rw := 0x8000FFFF, prsv := 0x7FFF0000, reset := 0x800000C8 }
  -- JNL_WD_STAT
  | .jnlWdStat => { block := .jnl, off := 0x134, rc := 0xFFFF0000 }
  -- JNL_WD_LAST
  | .jnlWdLast => { block := .jnl, off := 0x138, rc := 0x803FFFFF, prsv := 0x7FC00000 }
  -- CMP_FU_CFG
  | .cmpFuCfg => { block := .cmp, off := 0x0, rws := 0x00000003, prsv := 0xFFFFFFFC }
  -- CMP_UNIT_STAT
  | .cmpUnitStat => { block := .cmp, off := 0x4, prsv := 0xFFFF0000, reset := 0x0000FFFF }
  -- CMP_FU_BYTES_LO
  | .cmpFuBytesLo => { block := .cmp, off := 0x8, half := .lo }
  -- CMP_FU_BYTES_HI
  | .cmpFuBytesHi => { block := .cmp, off := 0xC, half := .hi }
  -- CMP_CU_BYTES_LO
  | .cmpCuBytesLo => { block := .cmp, off := 0x10, half := .lo }
  -- CMP_CU_BYTES_HI
  | .cmpCuBytesHi => { block := .cmp, off := 0x14, half := .hi }
  -- CMP_XFORM_CNT
  | .cmpXformCnt => { block := .cmp, off := 0x18, rc := 0xFFFFFFFF }
  -- CMP_UNIT_ERR
  | .cmpUnitErr => { block := .cmp, off := 0x1C, rc := 0xFFFFFFFF }
  -- CMP_KEK_DATA
  | .cmpKekData => { block := .cmp, off := 0x100, n1 := 8, s1 := 0x8, keyed := true, key := 0xFFFFFFFF }
  -- CMP_KEK_LOAD
  | .cmpKekLoad => { block := .cmp, off := 0x140, keyed := true, key := 0x000003FF, prsv := 0xFFFFFC00 }
  -- CMP_KEK_STAT
  | .cmpKekStat => { block := .cmp, off := 0x148, rc := 0xC000FF00, prsv := 0x3FFF0000 }
  -- CMP_KEK_VALID
  | .cmpKekValid => { block := .cmp, off := 0x160, n1 := 8, s1 := 0x4 }
  -- CMP_SLOT_SEL
  | .cmpSlotSel => { block := .cmp, off := 0x200, rw := 0x00000FFF, prsv := 0xFFFFF000 }
  -- CMP_SLOT_STAT
  | .cmpSlotStat => { block := .cmp, off := 0x204, prsv := 0x1F00F800 }
  -- CMP_KLD_ADDR_LO
  | .cmpKldAddrLo => {
      block := .cmp, off := 0x2000, n1 := 256,
      s1 := 0x10, half := .lo, rw := 0xFFFFFF80, prsv := 0x0000007F }
  -- CMP_KLD_ADDR_HI
  | .cmpKldAddrHi => {
      block := .cmp, off := 0x2004, n1 := 256,
      s1 := 0x10, half := .hi, rw := 0x00FFFFFF, prsv := 0xFF000000 }
  -- CMP_KLD_CMD
  | .cmpKldCmd => { block := .cmp, off := 0x2008, n1 := 256, s1 := 0x10, wo := 0xC0000FFF, prsv := 0x3FFFF000 }
  -- CMP_KLD_STAT
  | .cmpKldStat => { block := .cmp, off := 0x200C, n1 := 256, s1 := 0x10, rc := 0x4FF00000, prsv := 0x300FF000 }
  -- GATE_RGN_CTL
  | .gateRgnCtl => {
      block := .gate, off := 0x0, n1 := 150, s1 := 0x800,
      n2 := 64, s2 := 0x20, rws := 0xF0000000, prsv := 0x0FFFFFFF }
  -- GATE_RGN_ID_VAL
  | .gateRgnIdVal => {
      block := .gate, off := 0x4, n1 := 150, s1 := 0x800,
      n2 := 64, s2 := 0x20, rws := 0x00FFFFFF, prsv := 0xFF000000 }
  -- GATE_RGN_ID_MASK
  | .gateRgnIdMask => {
      block := .gate, off := 0x8, n1 := 150, s1 := 0x800,
      n2 := 64, s2 := 0x20, rws := 0x00FFFFFF, prsv := 0xFF000000 }
  -- GATE_RGN_BASE_LO
  | .gateRgnBaseLo => {
      block := .gate, off := 0x10, n1 := 150, s1 := 0x800,
      n2 := 64, s2 := 0x20, half := .lo, rws := 0xFFFFFFFC, prsv := 0x00000003 }
  -- GATE_RGN_BASE_HI
  | .gateRgnBaseHi => {
      block := .gate, off := 0x14, n1 := 150, s1 := 0x800,
      n2 := 64, s2 := 0x20, half := .hi, rws := 0x00FFFFFF, prsv := 0xFF000000 }
  -- GATE_RGN_LIMIT_LO
  | .gateRgnLimitLo => {
      block := .gate, off := 0x18, n1 := 150, s1 := 0x800,
      n2 := 64, s2 := 0x20, half := .lo, rws := 0xFFFFFFFC, prsv := 0x00000003 }
  -- GATE_RGN_LIMIT_HI
  | .gateRgnLimitHi => {
      block := .gate, off := 0x1C, n1 := 150, s1 := 0x800,
      n2 := 64, s2 := 0x20, half := .hi, rws := 0x00FFFFFF, prsv := 0xFF000000 }
  -- GATE_DEFMAP
  | .gateDefmap => {
      block := .gate, off := 0x70000, n1 := 10,
      s1 := 0x8, keyed := true, key := 0xFFFFFFFF, reset := 0xFFFFFFFF }
  -- GATE_DBG_UNLOCK
  | .gateDbgUnlock => { block := .gate, off := 0x70100, keyed := true, key := 0x00000001, prsv := 0xFFFFFFFE }
  -- GATE_BARRIER
  | .gateBarrier => { block := .gate, off := 0x70200, wo := 0x00000001, prsv := 0x7FFFFFFE, reset := 0x80000000 }
  -- GATE_REJ
  | .gateRej => { block := .gate, off := 0x70300, n1 := 5, s1 := 0x4 }
  -- GATE_REJ_INFO
  | .gateRejInfo => { block := .gate, off := 0x70314, prsv := 0x1F00C0C0 }
  -- GATE_SEL
  | .gateSel => { block := .gate, off := 0x70400, rw := 0x000000FF, prsv := 0xFFFFFF00 }
  -- GATE_STAT
  | .gateStat => { block := .gate, off := 0x70404, rc := 0xFFFFFFFF }
  -- GATE_LAST_ID
  | .gateLastId => { block := .gate, off := 0x70408, rc := 0xE0FFFFFF, prsv := 0x1F000000 }
  -- GATE_LAST_ADDR_LO
  | .gateLastAddrLo => { block := .gate, off := 0x70410, half := .lo }
  -- GATE_LAST_ADDR_HI
  | .gateLastAddrHi => { block := .gate, off := 0x70414, half := .hi, prsv := 0xFF000000 }
  -- GATE_DBG_STAT
  | .gateDbgStat => { block := .gate, off := 0x70500, rc := 0xFFFFFF00, prsv := 0x000000FE }
  -- INST_ID
  | .instId => { block := .bi, off := 0x200, n1 := 256, s1 := 0x10000, prsv := 0x00F00000 }
  -- INST_STAT
  | .instStat => { block := .bi, off := 0x204, n1 := 256, s1 := 0x10000, prsv := 0x1F800000 }
  -- INST_JQUOTA
  | .instJquota => { block := .bi, off := 0x208, n1 := 256, s1 := 0x10000, prsv := 0xFF800000 }
  -- INST_LQUOTA
  | .instLquota => { block := .bi, off := 0x20C, n1 := 256, s1 := 0x10000, prsv := 0xFFFC0000 }
  -- INST_ALLOW
  | .instAllow => { block := .bi, off := 0x210, n1 := 256, s1 := 0x10000, prsv := 0xC0000000 }
  -- INST_DNW
  | .instDnw => { block := .bi, off := 0x214, n1 := 256, s1 := 0x10000, prsv := 0x00F80000 }
  -- INST_C0
  | .instC0 => { block := .bi, off := 0x218, n1 := 256, s1 := 0x10000, prsv := 0x0000FFF0 }
  -- INST_ATTN_ACK
  | .instAttnAck => { block := .bi, off := 0x220, n1 := 256, s1 := 0x10000, wo := 0x0003FFFF, prsv := 0xFFFC0000 }
  -- INST_ATTN_UNMUTE
  | .instAttnUnmute => { block := .bi, off := 0x224, n1 := 256, s1 := 0x10000, wo := 0x0003FFFF, prsv := 0xFFFC0000 }
  -- INST_CNT
  | .instCnt => { block := .bi, off := 0x228, n1 := 256, s1 := 0x10000, rc := 0xFFFFFFFF }
  -- MGT_Q_BASE_LO
  | .mgtQBaseLo => { block := .mgt, off := 0x0, half := .lo, rw := 0xFFFFF000, prsv := 0x00000FFF }
  -- MGT_Q_BASE_HI
  | .mgtQBaseHi => { block := .mgt, off := 0x4, half := .hi, rw := 0x00FFFFFF, prsv := 0xFF000000 }
  -- MGT_Q_CFG
  | .mgtQCfg => { block := .mgt, off := 0x8, rw := 0x8070001F, prsv := 0x7F8FFFE0, reset := 0x00000004 }
  -- MGT_DB
  | .mgtDb => { block := .mgt, off := 0xC, rw := 0x0000FFFF, prsv := 0xFFFF0000 }
  -- MGT_HEAD
  | .mgtHead => { block := .mgt, off := 0x10, prsv := 0xFFFF0000 }
  -- MGT_STAT
  | .mgtStat => { block := .mgt, off := 0x14, rc := 0x0000C000, prsv := 0x3E003FF0 }
  -- MGT_CTL
  | .mgtCtl => { block := .mgt, off := 0x18, wo := 0x00000001, prsv := 0xFFFFFFFE }
  -- MGT_CNT
  | .mgtCnt => { block := .mgt, off := 0x1C, rc := 0xFFFFFFFF }
  -- MGT_POOL_JNL
  | .mgtPoolJnl => { block := .mgt, off := 0x40, prsv := 0xFF800000, reset := 0x00400000 }
  -- MGT_POOL_LND
  | .mgtPoolLnd => { block := .mgt, off := 0x44, prsv := 0xFFFC0000, reset := 0x0001F880 }
  -- MGT_POOL_ENG
  | .mgtPoolEng => { block := .mgt, off := 0x48 }
  -- MGT_POOL_WIN
  | .mgtPoolWin => { block := .mgt, off := 0x4C, prsv := 0xFFFE0000, reset := 0x00010000 }
  -- MGT_POOL_DN
  | .mgtPoolDn => { block := .mgt, off := 0x50, prsv := 0xFFF80000, reset := 0x00040000 }
  -- MGT_POOL_KEY
  | .mgtPoolKey => { block := .mgt, off := 0x54, prsv := 0xFFFFE000, reset := 0x00001000 }
  -- MGT_POOL_C0
  | .mgtPoolC0 => { block := .mgt, off := 0x58 }
  -- MGT_INST_SEL
  | .mgtInstSel => { block := .mgt, off := 0x80, rw := 0x000000FF, prsv := 0xFFFFFF00 }
  -- MGT_INST_STAT
  | .mgtInstStat => { block := .mgt, off := 0x84, prsv := 0x01FFC000 }
  -- FLT_FIRST_SRC
  | .fltFirstSrc => { block := .flt, off := 0x0, rc := 0xF00001FF, prsv := 0x0FFFFE00 }
  -- FLT_FIRST_SYN_LO
  | .fltFirstSynLo => { block := .flt, off := 0x8, half := .lo }
  -- FLT_FIRST_SYN_HI
  | .fltFirstSynHi => { block := .flt, off := 0xC, half := .hi }
  -- FLT_FIRST_TS_LO
  | .fltFirstTsLo => { block := .flt, off := 0x10, half := .lo }
  -- FLT_FIRST_TS_HI
  | .fltFirstTsHi => { block := .flt, off := 0x14, half := .hi }
  -- FLT_HIGHEST
  | .fltHighest => { block := .flt, off := 0x18, rc := 0x00000003, prsv := 0xFFFFFFFC }
  -- FLT_CNT_CE
  | .fltCntCe => { block := .flt, off := 0x20, rc := 0xFFFFFFFF }
  -- FLT_CNT_UC
  | .fltCntUc => { block := .flt, off := 0x24, rc := 0xFFFFFFFF }
  -- FLT_CNT_FT
  | .fltCntFt => { block := .flt, off := 0x28, rc := 0xFFFFFFFF }
  -- FLT_HALT
  | .fltHalt => { block := .flt, off := 0x30, prsv := 0x7FFFFE00 }
  -- FLT_HALT_SYN_LO
  | .fltHaltSynLo => { block := .flt, off := 0x38, half := .lo }
  -- FLT_HALT_SYN_HI
  | .fltHaltSynHi => { block := .flt, off := 0x3C, half := .hi }
  -- FLT_HALT_TS_LO
  | .fltHaltTsLo => { block := .flt, off := 0x40, half := .lo }
  -- FLT_HALT_TS_HI
  | .fltHaltTsHi => { block := .flt, off := 0x44, half := .hi }
  -- FLT_SRC_SEL
  | .fltSrcSel => { block := .flt, off := 0x50, rw := 0x000001FF, prsv := 0xFFFFFE00 }
  -- FLT_SRC_CFG
  | .fltSrcCfg => { block := .flt, off := 0x54, rws := 0x80000000, prsv := 0x0FFFFFFF }
  -- FLT_SRC_CNT
  | .fltSrcCnt => { block := .flt, off := 0x58, rc := 0x0000FFFF, prsv := 0xFFFF0000 }
  -- FLT_EV_DEST
  | .fltEvDest => { block := .flt, off := 0x60, rws := 0x807FFFFF, prsv := 0x7F800000 }
  -- FLT_EV_VEC
  | .fltEvVec => { block := .flt, off := 0x64, rws := 0x0000FFFF, prsv := 0xFFFF0000 }
  -- FLT_EV_DROP
  | .fltEvDrop => { block := .flt, off := 0x68, rc := 0xFFFFFFFF }
  -- FLT_CHK_EXERCISE
  | .fltChkExercise => { block := .flt, off := 0x70, keyed := true, key := 0x80FF1F03, prsv := 0x7F00E0FC }
  -- FLT_CHK_STAT
  | .fltChkStat => { block := .flt, off := 0x78, rc := 0x40000000, prsv := 0x3F00FFFF }
  -- FLT_ALIVE
  | .fltAlive => { block := .flt, off := 0x80, rc := 0x000000FF, prsv := 0x3FFFFF00 }
  -- BST_CFG
  | .bstCfg => { block := .bst, off := 0x0, rws := 0xC0FFFFFF, prsv := 0x3F000000, reset := 0x001001F4 }
  -- BST_CE_THRESH
  | .bstCeThresh => { block := .bst, off := 0x4, rws := 0x0000FFFF, prsv := 0xFFFF0000, reset := 0x00000010 }
  -- BST_CMD
  | .bstCmd => { block := .bst, off := 0x8, wo := 0xC0000FFF, prsv := 0x3FFFF000 }
  -- BST_STAT
  | .bstStat => { block := .bst, off := 0xC, rc := 0x08000000, prsv := 0x0000FF80 }
  -- BST_LAST_MEM
  | .bstLastMem => { block := .bst, off := 0x10, rc := 0xF7FFFFFF, prsv := 0x08000000 }
  -- BST_LAST_ENG
  | .bstLastEng => { block := .bst, off := 0x14, rc := 0xF7FFFFFF, prsv := 0x08000000 }
  -- BST_FAIL_MEM
  | .bstFailMem => { block := .bst, off := 0x18, rc := 0xFFFFFFFF }
  -- BST_MISR_MEM
  | .bstMisrMem => { block := .bst, off := 0x20 }
  -- BST_MISR_MEM_EXP
  | .bstMisrMemExp => { block := .bst, off := 0x24 }
  -- BST_MISR_ENG
  | .bstMisrEng => { block := .bst, off := 0x28 }
  -- BST_MISR_ENG_EXP
  | .bstMisrEngExp => { block := .bst, off := 0x2C }
  -- BST_CNT
  | .bstCnt => { block := .bst, off := 0x30, rc := 0xFFFFFFFF }
  -- BST_CNT2
  | .bstCnt2 => { block := .bst, off := 0x34, rc := 0xFFFFFFFF }
  -- BST_SPARE
  | .bstSpare => { block := .bst, off := 0x38, prsv := 0xFC003800 }
  -- BST_SB_SEL
  | .bstSbSel => { block := .bst, off := 0x40, rw := 0x000007FF, prsv := 0xFFFFF800 }
  -- BST_SB_STAT
  | .bstSbStat => { block := .bst, off := 0x44, prsv := 0x0C000000 }
  -- BST_REPAIR_STAT
  | .bstRepairStat => { block := .bst, off := 0x50 }
  -- BST_FUSE_CMD
  | .bstFuseCmd => { block := .bst, off := 0x60, keyed := true, key := 0x0000037F, prsv := 0xFFFFFC80 }
  -- BST_FUSE_STAT
  | .bstFuseStat => { block := .bst, off := 0x68, rc := 0x7FFF0000, prsv := 0x0000F800 }
  -- PWR_MODE_STAT
  | .pwrModeStat => { block := .pwr, off := 0x0, rc := 0x0000F700, prsv := 0x000708FF }
  -- PWR_MODE_CNT
  | .pwrModeCnt => { block := .pwr, off := 0x4, rc := 0xFFFFFFFF }
  -- PWR_DOZE_CFG
  | .pwrDozeCfg => { block := .pwr, off := 0x8, rws := 0x0000FFFF, prsv := 0xFFFF0000, reset := 0x000003E8 }
  -- PWR_DROOP_CFG
  | .pwrDroopCfg => { block := .pwr, off := 0x10, rws := 0x00000003, prsv := 0xFFFFFFFC }
  -- PWR_DROOP_STAT
  | .pwrDroopStat => { block := .pwr, off := 0x14, rc := 0x0000FFFF, prsv := 0x0FFF0000 }
  -- PWR_DROOP_MAX
  | .pwrDroopMax => { block := .pwr, off := 0x18, rc := 0xFFFFFFFF }
  -- PWR_SLEW
  | .pwrSlew => { block := .pwr, off := 0x20, rws := 0x00FFFF3F, prsv := 0xFF0000C0, reset := 0x00001819 }
  -- PWR_GATE
  | .pwrGate => { block := .pwr, off := 0x24, rws := 0x0000FFFF, prsv := 0xFFFF0000, reset := 0x000000C8 }
  -- PWR_SLEW_STAT
  | .pwrSlewStat => { block := .pwr, off := 0x28, prsv := 0x7E00F800 }
  -- PWR_SLEW_CNT
  | .pwrSlewCnt => { block := .pwr, off := 0x2C, rc := 0xFFFFFFFF }
  -- PWR_SLEW_MAXWAIT
  | .pwrSlewMaxwait => { block := .pwr, off := 0x30, rc := 0xFFFFFFFF }
  -- PWR_ENG_ON
  | .pwrEngOn => { block := .pwr, off := 0x40, n1 := 4, s1 := 0x4 }
  -- PWR_AVS_CFG
  | .pwrAvsCfg => { block := .pwr, off := 0x50, rws := 0x8F00FFFF, prsv := 0x70FF0000, reset := 0x00000A19 }
  -- PWR_AVS_STAT
  | .pwrAvsStat => { block := .pwr, off := 0x54, rc := 0x40FF0000, prsv := 0x3F000000 }
  -- PWR_AVS_V
  | .pwrAvsV => { block := .pwr, off := 0x58 }
  -- PWR_TEMP
  | .pwrTemp => {
      block := .pwr, off := 0x60, n1 := 8,
      s1 := 0x4, rc := 0x0000FF00, prsv := 0x7FFF0000, reset := 0x00008080 }
  -- PWR_POWER
  | .pwrPower => { block := .pwr, off := 0x80, prsv := 0xFFFF0000 }
  -- PWR_CAL_CFG
  | .pwrCalCfg => { block := .pwr, off := 0x90, rws := 0xC000FFFF, prsv := 0x3FFF0000, reset := 0x80000064 }
  -- PWR_CAL_CNT
  | .pwrCalCnt => { block := .pwr, off := 0x94, rc := 0xFFFFFFFF }
  -- PWR_CLK_STAT
  | .pwrClkStat => { block := .pwr, off := 0xA0, prsv := 0x1FFFFFF8 }
  -- KST_STAT
  | .kstStat => { block := .kst, off := 0x0, prsv := 0x7FFFFFFF }
  -- KST_SBI
  | .kstSbi => { block := .kst, off := 0x4 }
  -- KST_FIRED
  | .kstFired => { block := .kst, off := 0x8, rc := 0xFFFFFFFF }
  -- KST_ALERT
  | .kstAlert => { block := .kst, off := 0xC, rc := 0xFFFFFFFF }
  -- KST_EV
  | .kstEv => { block := .kst, off := 0x10, rws := 0x8000FFFF, prsv := 0x7FFF0000 }
  -- KST_SMB
  | .kstSmb => { block := .kst, off := 0x14, rc := 0xFFFF0000, prsv := 0x0000FF80 }
  -- KST_LOG_HEAD
  | .kstLogHead => { block := .kst, off := 0x18, prsv := 0xFFFFFFF0 }
  -- KST_REJ
  | .kstRej => { block := .kst, off := 0x1C }
  -- KST_REJ_W
  | .kstRejW => { block := .kst, off := 0x20, prsv := 0xFFFF0000 }
  -- KST_LOG_A
  | .kstLogA => { block := .kst, off := 0x40, n1 := 16, s1 := 0x8, prsv := 0x001FFFFF }
  -- KST_LOG_B
  | .kstLogB => { block := .kst, off := 0x44, n1 := 16, s1 := 0x8 }
  -- KST_WATCH
  | .kstWatch => { block := .kst, off := 0x100, n1 := 16, s1 := 0x4, rws := 0x800000FF, prsv := 0x7FFFFF00 }
  -- KST_RULE_IN
  | .kstRuleIn => { block := .kst, off := 0x200, n1 := 32, s1 := 0x10, rws := 0xFC0FFFFF, prsv := 0x03F00000 }
  -- KST_RULE_DEB
  | .kstRuleDeb => { block := .kst, off := 0x204, n1 := 32, s1 := 0x10, rws := 0xFFFFFFFF }
  -- KST_RULE_ACT
  | .kstRuleAct => { block := .kst, off := 0x208, n1 := 32, s1 := 0x10, rws := 0xFC000000, prsv := 0x03FFFFFF }
  -- IMG_BOOT
  | .imgBoot => { block := .img, off := 0x0, prsv := 0x03FF0000, reset := 0xF0000000 }
  -- IMG_SLOT_A
  | .imgSlotA => { block := .img, off := 0x4, prsv := 0x07FF0000, reset := 0x0000FF00 }
  -- IMG_SLOT_B
  | .imgSlotB => { block := .img, off := 0x8, prsv := 0x07FF0000, reset := 0x0000FF00 }
  -- IMG_SLOT_ID_A
  | .imgSlotIdA => { block := .img, off := 0xC }
  -- IMG_SLOT_ID_B
  | .imgSlotIdB => { block := .img, off := 0x10 }
  -- IMG_FLASH
  | .imgFlash => { block := .img, off := 0x14, prsv := 0x00FFFFFF }
  -- IMG_LAYOUT
  | .imgLayout => { block := .img, off := 0x18 }
  -- IMG_BOOT_CFG
  | .imgBootCfg => { block := .img, off := 0x20, keyed := true, key := 0x00000007, prsv := 0xFFFFFFF8 }
  -- IMG_SET_CMD
  | .imgSetCmd => { block := .img, off := 0x28, keyed := true, key := 0x00000003, prsv := 0xFFFFFFFC }
  -- IMG_SET_STAT
  | .imgSetStat => { block := .img, off := 0x30, rc := 0x1000FFFF, prsv := 0x0FFF0000 }
  -- IMG_SET_SEQ
  | .imgSetSeq => { block := .img, off := 0x34 }
  -- IMG_BOOTS
  | .imgBoots => { block := .img, off := 0x38 }
  -- IMG_FATAL
  | .imgFatal => { block := .img, off := 0x3C, prsv := 0x0000C080 }
  -- IMG_SVN
  | .imgSvn => { block := .img, off := 0x40, rc := 0xE0000000, prsv := 0x0FFF0000 }
  -- IMG_SVN_BURN
  | .imgSvnBurn => { block := .img, off := 0x48, keyed := true, key := 0x000000FF, prsv := 0xFFFFFF00 }
  -- IMG_FL_ADDR
  | .imgFlAddr => { block := .img, off := 0x100, rw := 0x0FFFFFFF, prsv := 0xF0000000 }
  -- IMG_FL_CMD
  | .imgFlCmd => { block := .img, off := 0x104, wo := 0xE0000001, prsv := 0x1FFFFFFE }
  -- IMG_FL_STAT
  | .imgFlStat => { block := .img, off := 0x108, rc := 0x4F000000, prsv := 0x30FFFFFF }
  -- IMG_FL_BUF
  | .imgFlBuf => { block := .img, off := 0x1000, n1 := 64, s1 := 0x4, rw := 0xFFFFFFFF }

/-- The registers of each block. -/
def Block.regs : Block → List RegId
  | .glb =>
    [.glbId, .glbVendor, .glbDieIdLo, .glbDieIdHi, .glbImgId, .glbFuseBin, .glbStraps, .glbMode, .glbModeReq,
     .glbScratch, .glbTsLo, .glbTsHi, .glbBadAccAddr, .glbBadAccInfo]
  | .upd =>
    [.updStrobe, .updBusy, .updStatus, .updErr, .updCount, .updKeyStatus, .updKeyAddr, .updLockStatus, .updLockAddr,
     .updTblPend, .updTblStat, .updTblRejWtt, .updTblRejDvt, .updTblCtl, .updTblBarrier, .updTblCnt]
  | .flt =>
    [.fltFirstSrc, .fltFirstSynLo, .fltFirstSynHi, .fltFirstTsLo, .fltFirstTsHi, .fltHighest, .fltCntCe, .fltCntUc,
     .fltCntFt, .fltHalt, .fltHaltSynLo, .fltHaltSynHi, .fltHaltTsLo, .fltHaltTsHi, .fltSrcSel, .fltSrcCfg,
     .fltSrcCnt, .fltEvDest, .fltEvVec, .fltEvDrop, .fltChkExercise, .fltChkStat, .fltAlive]
  | .bst =>
    [.bstCfg, .bstCeThresh, .bstCmd, .bstStat, .bstLastMem, .bstLastEng, .bstFailMem, .bstMisrMem, .bstMisrMemExp,
     .bstMisrEng, .bstMisrEngExp, .bstCnt, .bstCnt2, .bstSpare, .bstSbSel, .bstSbStat, .bstRepairStat, .bstFuseCmd,
     .bstFuseStat]
  | .pwr =>
    [.pwrModeStat, .pwrModeCnt, .pwrDozeCfg, .pwrDroopCfg, .pwrDroopStat, .pwrDroopMax, .pwrSlew, .pwrGate,
     .pwrSlewStat, .pwrSlewCnt, .pwrSlewMaxwait, .pwrEngOn, .pwrAvsCfg, .pwrAvsStat, .pwrAvsV, .pwrTemp, .pwrPower,
     .pwrCalCfg, .pwrCalCnt, .pwrClkStat]
  | .kst =>
    [.kstStat, .kstSbi, .kstFired, .kstAlert, .kstEv, .kstSmb, .kstLogHead, .kstRej, .kstRejW, .kstLogA, .kstLogB,
     .kstWatch, .kstRuleIn, .kstRuleDeb, .kstRuleAct]
  | .img =>
    [.imgBoot, .imgSlotA, .imgSlotB, .imgSlotIdA, .imgSlotIdB, .imgFlash, .imgLayout, .imgBootCfg, .imgSetCmd,
     .imgSetStat, .imgSetSeq, .imgBoots, .imgFatal, .imgSvn, .imgSvnBurn, .imgFlAddr, .imgFlCmd, .imgFlStat,
     .imgFlBuf]
  | .hub =>
    [.hubArbCfg, .hubMaskStat, .hubDeadCnt, .hubC0Cnt, .hubC0Rej, .hubC0Port, .hubInstSel, .hubInstC0, .hubInstHeld,
     .hubOutSel, .hubOutStat, .hubOutFlitsLo, .hubOutFlitsHi]
  | .tlk =>
    [.tlkBcsBaseLo, .tlkBcsBaseHi, .tlkBridgeId, .tlkCplTimeout, .tlkFailover, .tlkDownLimit, .tlkWakeDest, .tlkCtl,
     .tlkStat, .tlkCredHdr, .tlkCredData, .tlkFecThresh, .tlkFecCorr, .tlkFecUncorr, .tlkLinkCnt, .tlkRxErr,
     .tlkOutstanding]
  | .jnl =>
    [.jnlIdx, .jnlCmd, .jnlStat, .jnlFilter, .jnlData, .jnlCntFree, .jnlCntS, .jnlHwm, .jnlEcc, .jnlMigCnt,
     .jnlMigStat, .jnlLndFloor, .jnlLndFree, .jnlLndOvs, .jnlLndEcc, .jnlLndInstSel, .jnlLndInstUse, .jnlWdCfg,
     .jnlWdStat, .jnlWdLast]
  | .eng =>
    [.engCfg, .engStat, .engActive, .engSpare, .engRetired, .engLastRetire, .engMigTime, .engCnt, .engC0Cap,
     .engDispatch, .engInstSel, .engInstCtx, .engInstUseLo, .engInstUseHi]
  | .cmp =>
    [.cmpFuCfg, .cmpUnitStat, .cmpFuBytesLo, .cmpFuBytesHi, .cmpCuBytesLo, .cmpCuBytesHi, .cmpXformCnt, .cmpUnitErr,
     .cmpKekData, .cmpKekLoad, .cmpKekStat, .cmpKekValid, .cmpSlotSel, .cmpSlotStat, .cmpKldAddrLo, .cmpKldAddrHi,
     .cmpKldCmd, .cmpKldStat]
  | .mgt =>
    [.mgtQBaseLo, .mgtQBaseHi, .mgtQCfg, .mgtDb, .mgtHead, .mgtStat, .mgtCtl, .mgtCnt, .mgtPoolJnl, .mgtPoolLnd,
     .mgtPoolEng, .mgtPoolWin, .mgtPoolDn, .mgtPoolKey, .mgtPoolC0, .mgtInstSel, .mgtInstStat]
  | .gpt =>
    [.gptCfg, .gptCtl, .gptExchTo, .gptLockTo, .gptRetryCtl, .gptCollCtl, .gptDownHold, .gptStat, .gptAttnAck,
     .gptAttnUnmute, .gptErrCnt, .gptRetryCnt, .gptCollCnt, .gptAttnCnt, .gptLockCnt, .gptLinkCnt, .gptSlotCnt,
     .gptSbiMap, .gptSbiStat, .gptSbiUnmute, .gptSmapFld, .gptSmapScale, .gptSmapOfs, .gptSmapRejLo, .gptSmapRejHi]
  | .wtt =>
    []
  | .dvt =>
    []
  | .gate =>
    [.gateRgnCtl, .gateRgnIdVal, .gateRgnIdMask, .gateRgnBaseLo, .gateRgnBaseHi, .gateRgnLimitLo, .gateRgnLimitHi,
     .gateDefmap, .gateDbgUnlock, .gateBarrier, .gateRej, .gateRejInfo, .gateSel, .gateStat, .gateLastId,
     .gateLastAddrLo, .gateLastAddrHi, .gateDbgStat]
  | .bi =>
    [.sqBaseLo, .sqBaseHi, .qCfg, .sqDb, .sqHead, .qStat, .cqBaseLo, .cqBaseHi, .cqCoal, .cqDb, .cqTail, .qCtl,
     .qCnt, .evDest, .evVec, .pelBaseLo, .pelBaseHi, .pelCfg, .pelHead, .pelTail, .pelStat, .pelCtl, .fenceDb,
     .fenceStat, .digBaseLo, .digBaseHi, .digCfg, .digCnt, .instId, .instStat, .instJquota, .instLquota, .instAllow,
     .instDnw, .instC0, .instAttnAck, .instAttnUnmute, .instCnt]

/-- The bits of a register whose reset value the image gives (R332: fields whose Reset column reads "img"), without those that R332
derives. -/
def RegId.imgMask : RegId → Word
  | .tlkFailover => 0x80000000
  | .tlkCtl => 0x00000060
  | .tlkCredHdr => 0x0000FFFF
  | .tlkCredData => 0x0FFF0FFF
  | .gptCfg => 0x0003FF3B
  | .gptSbiMap => 0x8003FFFF
  | .gptSmapFld => 0xC73F007F
  | .gptSmapScale => 0xFFFFFFFF
  | .gptSmapOfs => 0xFFFFFFFF
  | .engCfg => 0x0000007F
  | .jnlLndFloor => 0x3FFFFFFF
  | .cmpFuCfg => 0x00000003
  | .gateRgnCtl => 0xF0000000
  | .gateRgnIdVal => 0x00FFFFFF
  | .gateRgnIdMask => 0x00FFFFFF
  | .gateRgnBaseLo => 0xFFFFFFFC
  | .gateRgnBaseHi => 0x00FFFFFF
  | .gateRgnLimitLo => 0xFFFFFFFC
  | .gateRgnLimitHi => 0x00FFFFFF
  | .gateDefmap => 0xFFFFFFFF
  | .mgtPoolEng => 0xFFFF0000
  | .mgtPoolC0 => 0xFFFF0000
  | .fltSrcCfg => 0x80000000
  | .fltEvDest => 0x807FFFFF
  | .fltEvVec => 0x0000FFFF
  | .bstCfg => 0xC0000000
  | .pwrDroopCfg => 0x00000003
  | .pwrSlew => 0x00FF0000
  | .pwrAvsCfg => 0x8F000000
  | .pwrCalCfg => 0x40000000
  | .kstEv => 0x8000FFFF
  | .kstWatch => 0x800000FF
  | .kstRuleIn => 0xFC0FFFFF
  | .kstRuleDeb => 0xFFFFFFFF
  | .kstRuleAct => 0xFC000000
  | _ => 0

/-- A field of a register. -/
structure Fld where
  id : RegId
  hi : Nat
  lo : Nat
  deriving DecidableEq, Repr

namespace Fld

/-- GLB_ID.PART, RO. -/
def glbId_part : Fld := ⟨.glbId, 31, 16⟩
/-- GLB_ID.STEP, RO. -/
def glbId_step : Fld := ⟨.glbId, 15, 8⟩
/-- GLB_VENDOR.VENDOR, RO. -/
def glbVendor_vendor : Fld := ⟨.glbVendor, 31, 16⟩
/-- GLB_DIE_ID_LO.DIE_ID, RO. -/
def glbDieIdLo_die_id : Fld := ⟨.glbDieIdLo, 31, 0⟩
/-- GLB_DIE_ID_HI.DIE_ID, RO. -/
def glbDieIdHi_die_id : Fld := ⟨.glbDieIdHi, 31, 0⟩
/-- GLB_IMG_ID.IMAGE_ID, RO. -/
def glbImgId_image_id : Fld := ⟨.glbImgId, 31, 0⟩
/-- GLB_FUSE_BIN.SPEED_BIN, RO. -/
def glbFuseBin_speed_bin : Fld := ⟨.glbFuseBin, 3, 0⟩
/-- GLB_STRAPS.STRAPS, RO. -/
def glbStraps_straps : Fld := ⟨.glbStraps, 7, 0⟩
/-- GLB_MODE.MODE, RO. -/
def glbMode_mode : Fld := ⟨.glbMode, 2, 0⟩
/-- GLB_MODE_REQ.TARGET, KEY. -/
def glbModeReq_target : Fld := ⟨.glbModeReq, 2, 0⟩
/-- GLB_SCRATCH.DATA, RW. -/
def glbScratch_data : Fld := ⟨.glbScratch, 31, 0⟩
/-- GLB_TS_LO.TS, RO. -/
def glbTsLo_ts : Fld := ⟨.glbTsLo, 31, 0⟩
/-- GLB_TS_HI.TS, RO. -/
def glbTsHi_ts : Fld := ⟨.glbTsHi, 31, 0⟩
/-- GLB_BAD_ACC_ADDR.OFFSET, RO. -/
def glbBadAccAddr_offset : Fld := ⟨.glbBadAccAddr, 25, 0⟩
/-- GLB_BAD_ACC_INFO.VALID, RC. -/
def glbBadAccInfo_valid : Fld := ⟨.glbBadAccInfo, 31, 31⟩
/-- GLB_BAD_ACC_INFO.POSTED, RC. -/
def glbBadAccInfo_posted : Fld := ⟨.glbBadAccInfo, 30, 30⟩
/-- GLB_BAD_ACC_INFO.CAUSE, RC. -/
def glbBadAccInfo_cause : Fld := ⟨.glbBadAccInfo, 29, 27⟩
/-- GLB_BAD_ACC_INFO.SIZE, RC. -/
def glbBadAccInfo_size : Fld := ⟨.glbBadAccInfo, 26, 24⟩
/-- GLB_BAD_ACC_INFO.SOURCE, RC. -/
def glbBadAccInfo_source : Fld := ⟨.glbBadAccInfo, 23, 22⟩
/-- GLB_BAD_ACC_INFO.REQ_ID, RC. -/
def glbBadAccInfo_req_id : Fld := ⟨.glbBadAccInfo, 19, 0⟩
/-- UPD_STROBE.MASK, WO. -/
def updStrobe_mask : Fld := ⟨.updStrobe, 12, 0⟩
/-- UPD_BUSY.BUSY, RO. -/
def updBusy_busy : Fld := ⟨.updBusy, 0, 0⟩
/-- UPD_STATUS.RESULT, RO. -/
def updStatus_result : Fld := ⟨.updStatus, 25, 0⟩
/-- UPD_ERR.OVERRUN, RC. -/
def updErr_overrun : Fld := ⟨.updErr, 0, 0⟩
/-- UPD_COUNT.STROBES, RO. -/
def updCount_strobes : Fld := ⟨.updCount, 31, 0⟩
/-- UPD_KEY_STATUS.FAIL_CNT, RC. -/
def updKeyStatus_fail_cnt : Fld := ⟨.updKeyStatus, 31, 16⟩
/-- UPD_KEY_STATUS.CAUSE, RC. -/
def updKeyStatus_cause : Fld := ⟨.updKeyStatus, 2, 1⟩
/-- UPD_KEY_STATUS.KEY_FAIL, RC. -/
def updKeyStatus_key_fail : Fld := ⟨.updKeyStatus, 0, 0⟩
/-- UPD_KEY_ADDR.OFFSET, RO. -/
def updKeyAddr_offset : Fld := ⟨.updKeyAddr, 25, 0⟩
/-- UPD_LOCK_STATUS.VIOL_CNT, RC. -/
def updLockStatus_viol_cnt : Fld := ⟨.updLockStatus, 31, 16⟩
/-- UPD_LOCK_STATUS.REGLOCK_VIOL, RC. -/
def updLockStatus_reglock_viol : Fld := ⟨.updLockStatus, 0, 0⟩
/-- UPD_LOCK_ADDR.OFFSET, RO. -/
def updLockAddr_offset : Fld := ⟨.updLockAddr, 25, 0⟩
/-- TLK_BCS_BASE_LO.BASE_LO, RO. -/
def tlkBcsBaseLo_base_lo : Fld := ⟨.tlkBcsBaseLo, 31, 26⟩
/-- TLK_BCS_BASE_LO.PLACED, RO. -/
def tlkBcsBaseLo_placed : Fld := ⟨.tlkBcsBaseLo, 0, 0⟩
/-- TLK_BCS_BASE_HI.BASE_HI, RO. -/
def tlkBcsBaseHi_base_hi : Fld := ⟨.tlkBcsBaseHi, 23, 0⟩
/-- TLK_BRIDGE_ID.ID, RO. -/
def tlkBridgeId_id : Fld := ⟨.tlkBridgeId, 19, 0⟩
/-- TLK_CPL_TIMEOUT.LIMIT, RWS. -/
def tlkCplTimeout_limit : Fld := ⟨.tlkCplTimeout, 15, 0⟩
/-- TLK_FAILOVER.EN, RWS. -/
def tlkFailover_en : Fld := ⟨.tlkFailover, 31, 31⟩
/-- TLK_FAILOVER.HOLD, RWS. -/
def tlkFailover_hold : Fld := ⟨.tlkFailover, 15, 0⟩
/-- TLK_DOWN_LIMIT.LIMIT, RWS. -/
def tlkDownLimit_limit : Fld := ⟨.tlkDownLimit, 15, 0⟩
/-- TLK_WAKE_DEST.VC, RWS. -/
def tlkWakeDest_vc : Fld := ⟨.tlkWakeDest, 21, 20⟩
/-- TLK_WAKE_DEST.DEST, RWS. -/
def tlkWakeDest_dest : Fld := ⟨.tlkWakeDest, 19, 0⟩
/-- TLK_CTL.RETRAIN, WO. -/
def tlkCtl_retrain : Fld := ⟨.tlkCtl, 7, 7⟩
/-- TLK_CTL.MIN_WIDTH, RWS. -/
def tlkCtl_min_width : Fld := ⟨.tlkCtl, 6, 5⟩
/-- TLK_STAT.LANE_OK, RO. -/
def tlkStat_lane_ok : Fld := ⟨.tlkStat, 31, 16⟩
/-- TLK_STAT.WIDTH, RO. -/
def tlkStat_width : Fld := ⟨.tlkStat, 7, 6⟩
/-- TLK_STAT.REVERSED, RO. -/
def tlkStat_reversed : Fld := ⟨.tlkStat, 5, 5⟩
/-- TLK_STAT.GROUP, RO. -/
def tlkStat_group : Fld := ⟨.tlkStat, 4, 3⟩
/-- TLK_STAT.STATE, RO. -/
def tlkStat_state : Fld := ⟨.tlkStat, 2, 0⟩
/-- TLK_CRED_HDR.PH, RO. -/
def tlkCredHdr_ph : Fld := ⟨.tlkCredHdr, 15, 8⟩
/-- TLK_CRED_HDR.NPH, RO. -/
def tlkCredHdr_nph : Fld := ⟨.tlkCredHdr, 7, 0⟩
/-- TLK_CRED_DATA.PD, RO. -/
def tlkCredData_pd : Fld := ⟨.tlkCredData, 27, 16⟩
/-- TLK_CRED_DATA.NPD, RO. -/
def tlkCredData_npd : Fld := ⟨.tlkCredData, 11, 0⟩
/-- TLK_FEC_THRESH.UNCORR, RWS. -/
def tlkFecThresh_uncorr : Fld := ⟨.tlkFecThresh, 15, 0⟩
/-- TLK_FEC_CORR.COUNT, RC. -/
def tlkFecCorr_count : Fld := ⟨.tlkFecCorr, 31, 0⟩
/-- TLK_FEC_UNCORR.COUNT, RC. -/
def tlkFecUncorr_count : Fld := ⟨.tlkFecUncorr, 31, 0⟩
/-- TLK_LINK_CNT.RETRAINS, RC. -/
def tlkLinkCnt_retrains : Fld := ⟨.tlkLinkCnt, 31, 24⟩
/-- TLK_LINK_CNT.DEGRADES, RC. -/
def tlkLinkCnt_degrades : Fld := ⟨.tlkLinkCnt, 23, 16⟩
/-- TLK_LINK_CNT.REPLAYS, RC. -/
def tlkLinkCnt_replays : Fld := ⟨.tlkLinkCnt, 15, 0⟩
/-- TLK_RX_ERR.MALFORMED, RC. -/
def tlkRxErr_malformed : Fld := ⟨.tlkRxErr, 31, 24⟩
/-- TLK_RX_ERR.POISONED, RC. -/
def tlkRxErr_poisoned : Fld := ⟨.tlkRxErr, 23, 16⟩
/-- TLK_RX_ERR.LATE_CPL, RC. -/
def tlkRxErr_late_cpl : Fld := ⟨.tlkRxErr, 15, 8⟩
/-- TLK_RX_ERR.BAD_MSG, RC. -/
def tlkRxErr_bad_msg : Fld := ⟨.tlkRxErr, 7, 0⟩
/-- TLK_OUTSTANDING.NP_OUT, RO. -/
def tlkOutstanding_np_out : Fld := ⟨.tlkOutstanding, 12, 0⟩
/-- GPT_CFG.TX_INV, RO. -/
def gptCfg_tx_inv : Fld := ⟨.gptCfg, 17, 17⟩
/-- GPT_CFG.RX_INV, RO. -/
def gptCfg_rx_inv : Fld := ⟨.gptCfg, 16, 16⟩
/-- GPT_CFG.LEAD, RO. -/
def gptCfg_lead : Fld := ⟨.gptCfg, 15, 8⟩
/-- GPT_CFG.BOND, RO. -/
def gptCfg_bond : Fld := ⟨.gptCfg, 5, 4⟩
/-- GPT_CFG.WATCH, RO. -/
def gptCfg_watch : Fld := ⟨.gptCfg, 3, 3⟩
/-- GPT_CFG.RATE, RO. -/
def gptCfg_rate : Fld := ⟨.gptCfg, 1, 0⟩
/-- GPT_CTL.RETRAIN, WO. -/
def gptCtl_retrain : Fld := ⟨.gptCtl, 0, 0⟩
/-- GPT_EXCH_TO.LIMIT, RWS. -/
def gptExchTo_limit : Fld := ⟨.gptExchTo, 13, 0⟩
/-- GPT_LOCK_TO.LIMIT, RWS. -/
def gptLockTo_limit : Fld := ⟨.gptLockTo, 13, 0⟩
/-- GPT_RETRY_CTL.RETRY_LIMIT, RWS. -/
def gptRetryCtl_retry_limit : Fld := ⟨.gptRetryCtl, 15, 8⟩
/-- GPT_RETRY_CTL.REISSUE, RWS. -/
def gptRetryCtl_reissue : Fld := ⟨.gptRetryCtl, 2, 0⟩
/-- GPT_COLL_CTL.RSV_TIME, RWS. -/
def gptCollCtl_rsv_time : Fld := ⟨.gptCollCtl, 23, 16⟩
/-- GPT_COLL_CTL.UP_HINT, RWS. -/
def gptCollCtl_up_hint : Fld := ⟨.gptCollCtl, 7, 0⟩
/-- GPT_DOWN_HOLD.HOLD, RWS. -/
def gptDownHold_hold : Fld := ⟨.gptDownHold, 9, 0⟩
/-- GPT_STAT.LOCKS, RO. -/
def gptStat_locks : Fld := ⟨.gptStat, 30, 24⟩
/-- GPT_STAT.UP_OPEN, RO. -/
def gptStat_up_open : Fld := ⟨.gptStat, 22, 16⟩
/-- GPT_STAT.OPEN, RO. -/
def gptStat_open : Fld := ⟨.gptStat, 14, 8⟩
/-- GPT_STAT.LANE_LOCK, RO. -/
def gptStat_lane_lock : Fld := ⟨.gptStat, 7, 4⟩
/-- GPT_STAT.UPD_REJ, RC. -/
def gptStat_upd_rej : Fld := ⟨.gptStat, 3, 3⟩
/-- GPT_STAT.STATE, RO. -/
def gptStat_state : Fld := ⟨.gptStat, 2, 0⟩
/-- GPT_ATTN_ACK.DADDR, WO. -/
def gptAttnAck_daddr : Fld := ⟨.gptAttnAck, 10, 0⟩
/-- GPT_ATTN_UNMUTE.DADDR, WO. -/
def gptAttnUnmute_daddr : Fld := ⟨.gptAttnUnmute, 10, 0⟩
/-- GPT_ERR_CNT.CRC_ERR, RC. -/
def gptErrCnt_crc_err : Fld := ⟨.gptErrCnt, 31, 24⟩
/-- GPT_ERR_CNT.MALFORMED, RC. -/
def gptErrCnt_malformed : Fld := ⟨.gptErrCnt, 23, 16⟩
/-- GPT_ERR_CNT.RESP_TO, RC. -/
def gptErrCnt_resp_to : Fld := ⟨.gptErrCnt, 15, 8⟩
/-- GPT_ERR_CNT.POLL_TO, RC. -/
def gptErrCnt_poll_to : Fld := ⟨.gptErrCnt, 7, 0⟩
/-- GPT_RETRY_CNT.RETRY_RX, RC. -/
def gptRetryCnt_retry_rx : Fld := ⟨.gptRetryCnt, 31, 16⟩
/-- GPT_RETRY_CNT.RETRY_TX, RC. -/
def gptRetryCnt_retry_tx : Fld := ⟨.gptRetryCnt, 15, 0⟩
/-- GPT_COLL_CNT.LOSSES, RC. -/
def gptCollCnt_losses : Fld := ⟨.gptCollCnt, 31, 16⟩
/-- GPT_COLL_CNT.RESERVATIONS, RC. -/
def gptCollCnt_reservations : Fld := ⟨.gptCollCnt, 15, 8⟩
/-- GPT_COLL_CNT.RSV_EXPIRED, RC. -/
def gptCollCnt_rsv_expired : Fld := ⟨.gptCollCnt, 7, 0⟩
/-- GPT_ATTN_CNT.DELIVERED, RC. -/
def gptAttnCnt_delivered : Fld := ⟨.gptAttnCnt, 31, 16⟩
/-- GPT_ATTN_CNT.STORMS, RC. -/
def gptAttnCnt_storms : Fld := ⟨.gptAttnCnt, 15, 8⟩
/-- GPT_ATTN_CNT.ATTN_CLR, RC. -/
def gptAttnCnt_attn_clr : Fld := ⟨.gptAttnCnt, 7, 0⟩
/-- GPT_LOCK_CNT.LOCK_TO, RC. -/
def gptLockCnt_lock_to : Fld := ⟨.gptLockCnt, 31, 16⟩
/-- GPT_LOCK_CNT.ORPHANED, RC. -/
def gptLockCnt_orphaned : Fld := ⟨.gptLockCnt, 15, 8⟩
/-- GPT_LOCK_CNT.ABORTS, RC. -/
def gptLockCnt_aborts : Fld := ⟨.gptLockCnt, 7, 0⟩
/-- GPT_LINK_CNT.DOWNS, RC. -/
def gptLinkCnt_downs : Fld := ⟨.gptLinkCnt, 31, 24⟩
/-- GPT_LINK_CNT.TRAIN_FAIL, RC. -/
def gptLinkCnt_train_fail : Fld := ⟨.gptLinkCnt, 23, 16⟩
/-- GPT_LINK_CNT.COEF_UPDATES, RC. -/
def gptLinkCnt_coef_updates : Fld := ⟨.gptLinkCnt, 15, 0⟩
/-- GPT_SLOT_CNT.POLL_SKIP, RC. -/
def gptSlotCnt_poll_skip : Fld := ⟨.gptSlotCnt, 31, 16⟩
/-- GPT_SLOT_CNT.SLOT_FULL, RC. -/
def gptSlotCnt_slot_full : Fld := ⟨.gptSlotCnt, 15, 0⟩
/-- GPT_SBI_MAP.EN, RWS. -/
def gptSbiMap_en : Fld := ⟨.gptSbiMap, 31, 31⟩
/-- GPT_SBI_MAP.DN, RWS. -/
def gptSbiMap_dn : Fld := ⟨.gptSbiMap, 17, 0⟩
/-- GPT_SBI_STAT.MUTED, RO. -/
def gptSbiStat_muted : Fld := ⟨.gptSbiStat, 31, 16⟩
/-- GPT_SBI_STAT.LEVEL, RO. -/
def gptSbiStat_level : Fld := ⟨.gptSbiStat, 15, 0⟩
/-- GPT_SBI_UNMUTE.UNMUTE, WO. -/
def gptSbiUnmute_unmute : Fld := ⟨.gptSbiUnmute, 15, 0⟩
/-- UPD_TBL_PEND.DVT_PEND, RO. -/
def updTblPend_dvt_pend : Fld := ⟨.updTblPend, 28, 16⟩
/-- UPD_TBL_PEND.WTT_PEND, RO. -/
def updTblPend_wtt_pend : Fld := ⟨.updTblPend, 12, 0⟩
/-- UPD_TBL_STAT.WTT_OVF, RO. -/
def updTblStat_wtt_ovf : Fld := ⟨.updTblStat, 31, 31⟩
/-- UPD_TBL_STAT.DVT_OVF, RO. -/
def updTblStat_dvt_ovf : Fld := ⟨.updTblStat, 30, 30⟩
/-- UPD_TBL_STAT.DVT_REJ, RO. -/
def updTblStat_dvt_rej : Fld := ⟨.updTblStat, 25, 13⟩
/-- UPD_TBL_STAT.WTT_REJ, RO. -/
def updTblStat_wtt_rej : Fld := ⟨.updTblStat, 12, 0⟩
/-- UPD_TBL_REJ_WTT.VALID, RO. -/
def updTblRejWtt_valid : Fld := ⟨.updTblRejWtt, 31, 31⟩
/-- UPD_TBL_REJ_WTT.INDEX, RO. -/
def updTblRejWtt_index : Fld := ⟨.updTblRejWtt, 15, 0⟩
/-- UPD_TBL_REJ_DVT.VALID, RO. -/
def updTblRejDvt_valid : Fld := ⟨.updTblRejDvt, 31, 31⟩
/-- UPD_TBL_REJ_DVT.INDEX, RO. -/
def updTblRejDvt_index : Fld := ⟨.updTblRejDvt, 17, 0⟩
/-- UPD_TBL_CTL.DVT_DISCARD, WO. -/
def updTblCtl_dvt_discard : Fld := ⟨.updTblCtl, 1, 1⟩
/-- UPD_TBL_CTL.WTT_DISCARD, WO. -/
def updTblCtl_wtt_discard : Fld := ⟨.updTblCtl, 0, 0⟩
/-- UPD_TBL_BARRIER.DONE, RO. -/
def updTblBarrier_done : Fld := ⟨.updTblBarrier, 31, 31⟩
/-- UPD_TBL_BARRIER.START, WO. -/
def updTblBarrier_start : Fld := ⟨.updTblBarrier, 0, 0⟩
/-- UPD_TBL_CNT.MISMATCH, RC. -/
def updTblCnt_mismatch : Fld := ⟨.updTblCnt, 31, 16⟩
/-- UPD_TBL_CNT.NP_DROP, RC. -/
def updTblCnt_np_drop : Fld := ⟨.updTblCnt, 15, 0⟩
/-- SQ_BASE_LO.BASE_LO, RW. -/
def sqBaseLo_base_lo : Fld := ⟨.sqBaseLo, 31, 12⟩
/-- SQ_BASE_HI.BASE_HI, RW. -/
def sqBaseHi_base_hi : Fld := ⟨.sqBaseHi, 23, 0⟩
/-- Q_CFG.EN, RW. -/
def qCfg_en : Fld := ⟨.qCfg, 31, 31⟩
/-- Q_CFG.SQ_SIZE, RW. -/
def qCfg_sq_size : Fld := ⟨.qCfg, 28, 24⟩
/-- Q_CFG.CQ_SIZE, RW. -/
def qCfg_cq_size : Fld := ⟨.qCfg, 20, 16⟩
/-- Q_CFG.MAXP, RW. -/
def qCfg_maxp : Fld := ⟨.qCfg, 15, 8⟩
/-- Q_CFG.CLASS, RW. -/
def qCfg_class : Fld := ⟨.qCfg, 1, 0⟩
/-- SQ_DB.TAIL, RW. -/
def sqDb_tail : Fld := ⟨.sqDb, 15, 0⟩
/-- SQ_HEAD.HEAD, RO. -/
def sqHead_head : Fld := ⟨.sqHead, 15, 0⟩
/-- Q_STAT.STATE, RO. -/
def qStat_state : Fld := ⟨.qStat, 31, 30⟩
/-- Q_STAT.INFLIGHT, RO. -/
def qStat_inflight : Fld := ⟨.qStat, 23, 16⟩
/-- Q_STAT.BAD_HEAD, RC. -/
def qStat_bad_head : Fld := ⟨.qStat, 8, 8⟩
/-- Q_STAT.CFG_ERR, RC. -/
def qStat_cfg_err : Fld := ⟨.qStat, 7, 7⟩
/-- Q_STAT.BAD_DB, RC. -/
def qStat_bad_db : Fld := ⟨.qStat, 6, 6⟩
/-- Q_STAT.FAULT_CAUSE, RO. -/
def qStat_fault_cause : Fld := ⟨.qStat, 5, 4⟩
/-- Q_STAT.FAULT_STATUS, RO. -/
def qStat_fault_status : Fld := ⟨.qStat, 3, 0⟩
/-- CQ_BASE_LO.BASE_LO, RW. -/
def cqBaseLo_base_lo : Fld := ⟨.cqBaseLo, 31, 12⟩
/-- CQ_BASE_HI.BASE_HI, RW. -/
def cqBaseHi_base_hi : Fld := ⟨.cqBaseHi, 23, 0⟩
/-- CQ_COAL.TUNNEL, RW. -/
def cqCoal_tunnel : Fld := ⟨.cqCoal, 31, 31⟩
/-- CQ_COAL.COUNT, RW. -/
def cqCoal_count : Fld := ⟨.cqCoal, 23, 16⟩
/-- CQ_COAL.TIME, RW. -/
def cqCoal_time : Fld := ⟨.cqCoal, 15, 0⟩
/-- CQ_DB.ARM, WO. -/
def cqDb_arm : Fld := ⟨.cqDb, 31, 31⟩
/-- CQ_DB.HEAD, RW. -/
def cqDb_head : Fld := ⟨.cqDb, 15, 0⟩
/-- CQ_TAIL.PHASE, RO. -/
def cqTail_phase : Fld := ⟨.cqTail, 31, 31⟩
/-- CQ_TAIL.TAIL, RO. -/
def cqTail_tail : Fld := ⟨.cqTail, 15, 0⟩
/-- Q_CTL.RESUME, WO. -/
def qCtl_resume : Fld := ⟨.qCtl, 0, 0⟩
/-- Q_CNT.PROGRAMS, RC. -/
def qCnt_programs : Fld := ⟨.qCnt, 31, 16⟩
/-- Q_CNT.CCDS, RC. -/
def qCnt_ccds : Fld := ⟨.qCnt, 15, 0⟩
/-- EV_DEST.LINK, RW. -/
def evDest_link : Fld := ⟨.evDest, 20, 20⟩
/-- EV_DEST.DEST, RW. -/
def evDest_dest : Fld := ⟨.evDest, 19, 0⟩
/-- EV_VEC.EN, RW. -/
def evVec_en : Fld := ⟨.evVec, 31, 31⟩
/-- EV_VEC.VC, RW. -/
def evVec_vc : Fld := ⟨.evVec, 19, 18⟩
/-- EV_VEC.VECTOR, RW. -/
def evVec_vector : Fld := ⟨.evVec, 15, 0⟩
/-- PEL_BASE_LO.BASE_LO, RW. -/
def pelBaseLo_base_lo : Fld := ⟨.pelBaseLo, 31, 12⟩
/-- PEL_BASE_HI.BASE_HI, RW. -/
def pelBaseHi_base_hi : Fld := ⟨.pelBaseHi, 23, 0⟩
/-- PEL_CFG.EN, RW. -/
def pelCfg_en : Fld := ⟨.pelCfg, 31, 31⟩
/-- PEL_CFG.SIZE, RW. -/
def pelCfg_size : Fld := ⟨.pelCfg, 4, 0⟩
/-- PEL_HEAD.BAD, RC. -/
def pelHead_bad : Fld := ⟨.pelHead, 31, 31⟩
/-- PEL_HEAD.HEAD, RW. -/
def pelHead_head : Fld := ⟨.pelHead, 15, 0⟩
/-- PEL_TAIL.PHASE, RO. -/
def pelTail_phase : Fld := ⟨.pelTail, 31, 31⟩
/-- PEL_TAIL.TAIL, RO. -/
def pelTail_tail : Fld := ⟨.pelTail, 15, 0⟩
/-- PEL_STAT.STATE, RO. -/
def pelStat_state : Fld := ⟨.pelStat, 31, 30⟩
/-- PEL_STAT.WAITING, RO. -/
def pelStat_waiting : Fld := ⟨.pelStat, 29, 16⟩
/-- PEL_STAT.NOTICES, RC. -/
def pelStat_notices : Fld := ⟨.pelStat, 15, 0⟩
/-- PEL_CTL.RESUME, WO. -/
def pelCtl_resume : Fld := ⟨.pelCtl, 0, 0⟩
/-- FENCE_DB.TOKEN, WO. -/
def fenceDb_token : Fld := ⟨.fenceDb, 15, 0⟩
/-- FENCE_STAT.DONE, RO. -/
def fenceStat_done : Fld := ⟨.fenceStat, 31, 31⟩
/-- FENCE_STAT.ERR, RO. -/
def fenceStat_err : Fld := ⟨.fenceStat, 30, 30⟩
/-- FENCE_STAT.NOTICES, RO. -/
def fenceStat_notices : Fld := ⟨.fenceStat, 29, 16⟩
/-- FENCE_STAT.TOKEN, RO. -/
def fenceStat_token : Fld := ⟨.fenceStat, 15, 0⟩
/-- DIG_BASE_LO.BASE_LO, RW. -/
def digBaseLo_base_lo : Fld := ⟨.digBaseLo, 31, 12⟩
/-- DIG_BASE_HI.BASE_HI, RW. -/
def digBaseHi_base_hi : Fld := ⟨.digBaseHi, 23, 0⟩
/-- DIG_CFG.EN, RW. -/
def digCfg_en : Fld := ⟨.digCfg, 31, 31⟩
/-- DIG_CFG.FORCE, RW. -/
def digCfg_force : Fld := ⟨.digCfg, 30, 30⟩
/-- DIG_CFG.MIN, RW. -/
def digCfg_min : Fld := ⟨.digCfg, 29, 16⟩
/-- DIG_CFG.COUNT, RW. -/
def digCfg_count : Fld := ⟨.digCfg, 15, 0⟩
/-- DIG_CNT.WRITTEN, RC. -/
def digCnt_written : Fld := ⟨.digCnt, 31, 16⟩
/-- DIG_CNT.DROPPED, RC. -/
def digCnt_dropped : Fld := ⟨.digCnt, 15, 0⟩
/-- GPT_SMAP_FLD.EN, RWS. -/
def gptSmapFld_en : Fld := ⟨.gptSmapFld, 31, 31⟩
/-- GPT_SMAP_FLD.SIGNED, RWS. -/
def gptSmapFld_signed : Fld := ⟨.gptSmapFld, 30, 30⟩
/-- GPT_SMAP_FLD.SLOT, RWS. -/
def gptSmapFld_slot : Fld := ⟨.gptSmapFld, 26, 24⟩
/-- GPT_SMAP_FLD.WIDTH, RWS. -/
def gptSmapFld_width : Fld := ⟨.gptSmapFld, 21, 16⟩
/-- GPT_SMAP_FLD.BIT, RWS. -/
def gptSmapFld_bit : Fld := ⟨.gptSmapFld, 6, 0⟩
/-- GPT_SMAP_SCALE.SCALE, RWS. -/
def gptSmapScale_scale : Fld := ⟨.gptSmapScale, 31, 0⟩
/-- GPT_SMAP_OFS.OFS, RWS. -/
def gptSmapOfs_ofs : Fld := ⟨.gptSmapOfs, 31, 0⟩
/-- GPT_SMAP_REJ_LO.REJ, RO. -/
def gptSmapRejLo_rej : Fld := ⟨.gptSmapRejLo, 31, 0⟩
/-- GPT_SMAP_REJ_HI.REJ, RO. -/
def gptSmapRejHi_rej : Fld := ⟨.gptSmapRejHi, 31, 0⟩
/-- ENG_CFG.NACT, RO. -/
def engCfg_nact : Fld := ⟨.engCfg, 6, 0⟩
/-- ENG_STAT.MIG_BUSY, RO. -/
def engStat_mig_busy : Fld := ⟨.engStat, 31, 31⟩
/-- ENG_STAT.ACTIVE, RO. -/
def engStat_active : Fld := ⟨.engStat, 22, 16⟩
/-- ENG_STAT.SPARE, RO. -/
def engStat_spare : Fld := ⟨.engStat, 15, 12⟩
/-- ENG_STAT.RETIRED, RO. -/
def engStat_retired : Fld := ⟨.engStat, 6, 0⟩
/-- ENG_ACTIVE.MAP, RO. -/
def engActive_map : Fld := ⟨.engActive, 31, 0⟩
/-- ENG_SPARE.MAP, RO. -/
def engSpare_map : Fld := ⟨.engSpare, 31, 0⟩
/-- ENG_RETIRED.MAP, RO. -/
def engRetired_map : Fld := ⟨.engRetired, 31, 0⟩
/-- ENG_LAST_RETIRE.VALID, RC. -/
def engLastRetire_valid : Fld := ⟨.engLastRetire, 31, 31⟩
/-- ENG_LAST_RETIRE.ENGINE, RC. -/
def engLastRetire_engine : Fld := ⟨.engLastRetire, 30, 24⟩
/-- ENG_LAST_RETIRE.SPARE, RC. -/
def engLastRetire_spare : Fld := ⟨.engLastRetire, 22, 16⟩
/-- ENG_LAST_RETIRE.MOVED, RC. -/
def engLastRetire_moved : Fld := ⟨.engLastRetire, 4, 0⟩
/-- ENG_MIG_TIME.TIME, RO. -/
def engMigTime_time : Fld := ⟨.engMigTime, 15, 0⟩
/-- ENG_CNT.RETRIES, RC. -/
def engCnt_retries : Fld := ⟨.engCnt, 31, 16⟩
/-- ENG_CNT.RETIRES, RC. -/
def engCnt_retires : Fld := ⟨.engCnt, 15, 8⟩
/-- ENG_CNT.DS_CORR, RC. -/
def engCnt_ds_corr : Fld := ⟨.engCnt, 7, 0⟩
/-- ENG_C0_CAP.PCT, RWS. -/
def engC0Cap_pct : Fld := ⟨.engC0Cap, 5, 0⟩
/-- ENG_DISPATCH.WAITING, RO. -/
def engDispatch_waiting : Fld := ⟨.engDispatch, 15, 0⟩
/-- ENG_INST_SEL.INST, RW. -/
def engInstSel_inst : Fld := ⟨.engInstSel, 7, 0⟩
/-- ENG_INST_CTX.RESERVE, RO. -/
def engInstCtx_reserve : Fld := ⟨.engInstCtx, 26, 16⟩
/-- ENG_INST_CTX.HELD, RO. -/
def engInstCtx_held : Fld := ⟨.engInstCtx, 10, 0⟩
/-- ENG_INST_USE_LO.CYCLES, RO. -/
def engInstUseLo_cycles : Fld := ⟨.engInstUseLo, 31, 0⟩
/-- ENG_INST_USE_HI.CYCLES, RO. -/
def engInstUseHi_cycles : Fld := ⟨.engInstUseHi, 31, 0⟩
/-- JNL_IDX.JE, RW. -/
def jnlIdx_je : Fld := ⟨.jnlIdx, 21, 0⟩
/-- JNL_CMD.OP, WO. -/
def jnlCmd_op : Fld := ⟨.jnlCmd, 1, 0⟩
/-- JNL_STAT.BUSY, RO. -/
def jnlStat_busy : Fld := ⟨.jnlStat, 31, 31⟩
/-- JNL_STAT.HIT, RO. -/
def jnlStat_hit : Fld := ⟨.jnlStat, 30, 30⟩
/-- JNL_STAT.NONE, RO. -/
def jnlStat_none : Fld := ⟨.jnlStat, 29, 29⟩
/-- JNL_STAT.FROZEN, RO. -/
def jnlStat_frozen : Fld := ⟨.jnlStat, 28, 28⟩
/-- JNL_STAT.UNCORR, RO. -/
def jnlStat_uncorr : Fld := ⟨.jnlStat, 27, 27⟩
/-- JNL_FILTER.STATES, RW. -/
def jnlFilter_states : Fld := ⟨.jnlFilter, 30, 24⟩
/-- JNL_FILTER.KINDS, RW. -/
def jnlFilter_kinds : Fld := ⟨.jnlFilter, 23, 16⟩
/-- JNL_FILTER.INST_EN, RW. -/
def jnlFilter_inst_en : Fld := ⟨.jnlFilter, 8, 8⟩
/-- JNL_FILTER.INST, RW. -/
def jnlFilter_inst : Fld := ⟨.jnlFilter, 7, 0⟩
/-- JNL_DATA.WORD, RO. -/
def jnlData_word : Fld := ⟨.jnlData, 31, 0⟩
/-- JNL_CNT_FREE.COUNT, RO. -/
def jnlCntFree_count : Fld := ⟨.jnlCntFree, 22, 0⟩
/-- JNL_CNT_S.COUNT, RO. -/
def jnlCntS_count : Fld := ⟨.jnlCntS, 22, 0⟩
/-- JNL_HWM.HWM, RC. -/
def jnlHwm_hwm : Fld := ⟨.jnlHwm, 22, 0⟩
/-- JNL_ECC.CORR, RC. -/
def jnlEcc_corr : Fld := ⟨.jnlEcc, 31, 16⟩
/-- JNL_ECC.UNCORR_FREE, RC. -/
def jnlEcc_uncorr_free : Fld := ⟨.jnlEcc, 15, 0⟩
/-- JNL_MIG_CNT.JOURNAL, RC. -/
def jnlMigCnt_journal : Fld := ⟨.jnlMigCnt, 31, 16⟩
/-- JNL_MIG_CNT.LANDING, RC. -/
def jnlMigCnt_landing : Fld := ⟨.jnlMigCnt, 15, 0⟩
/-- JNL_MIG_STAT.BUSY, RO. -/
def jnlMigStat_busy : Fld := ⟨.jnlMigStat, 31, 31⟩
/-- JNL_MIG_STAT.LANDING, RO. -/
def jnlMigStat_landing : Fld := ⟨.jnlMigStat, 30, 30⟩
/-- JNL_MIG_STAT.SB, RO. -/
def jnlMigStat_sb : Fld := ⟨.jnlMigStat, 9, 0⟩
/-- HUB_ARB_CFG.STEP, RWS. -/
def hubArbCfg_step : Fld := ⟨.hubArbCfg, 31, 28⟩
/-- HUB_ARB_CFG.BASE1, RWS. -/
def hubArbCfg_base1 : Fld := ⟨.hubArbCfg, 23, 16⟩
/-- HUB_ARB_CFG.BASE2, RWS. -/
def hubArbCfg_base2 : Fld := ⟨.hubArbCfg, 15, 8⟩
/-- HUB_ARB_CFG.BASE3, RWS. -/
def hubArbCfg_base3 : Fld := ⟨.hubArbCfg, 7, 0⟩
/-- HUB_MASK_STAT.JW, RO. -/
def hubMaskStat_jw : Fld := ⟨.hubMaskStat, 31, 31⟩
/-- HUB_MASK_STAT.KBP, RO. -/
def hubMaskStat_kbp : Fld := ⟨.hubMaskStat, 30, 30⟩
/-- HUB_MASK_STAT.STC, RO. -/
def hubMaskStat_stc : Fld := ⟨.hubMaskStat, 29, 29⟩
/-- HUB_MASK_STAT.ENGINES, RO. -/
def hubMaskStat_engines : Fld := ⟨.hubMaskStat, 6, 0⟩
/-- HUB_DEAD_CNT.DEAD, RC. -/
def hubDeadCnt_dead : Fld := ⟨.hubDeadCnt, 31, 0⟩
/-- HUB_C0_CNT.HELD, RC. -/
def hubC0Cnt_held : Fld := ⟨.hubC0Cnt, 31, 16⟩
/-- HUB_C0_CNT.OVERSIZE, RC. -/
def hubC0Cnt_oversize : Fld := ⟨.hubC0Cnt, 15, 8⟩
/-- HUB_C0_CNT.NOALLOT, RC. -/
def hubC0Cnt_noallot : Fld := ⟨.hubC0Cnt, 7, 0⟩
/-- HUB_C0_REJ.REJ, RO. -/
def hubC0Rej_rej : Fld := ⟨.hubC0Rej, 22, 0⟩
/-- HUB_C0_PORT.RATE, RWS. -/
def hubC0Port_rate : Fld := ⟨.hubC0Port, 15, 8⟩
/-- HUB_C0_PORT.DEPTH, RWS. -/
def hubC0Port_depth : Fld := ⟨.hubC0Port, 3, 0⟩
/-- HUB_INST_SEL.INST, RW. -/
def hubInstSel_inst : Fld := ⟨.hubInstSel, 7, 0⟩
/-- HUB_INST_C0.RATE, RO. -/
def hubInstC0_rate : Fld := ⟨.hubInstC0, 31, 16⟩
/-- HUB_INST_C0.DEPTH, RO. -/
def hubInstC0_depth : Fld := ⟨.hubInstC0, 3, 0⟩
/-- HUB_INST_HELD.HELD, RC. -/
def hubInstHeld_held : Fld := ⟨.hubInstHeld, 31, 16⟩
/-- HUB_INST_HELD.PASSED, RC. -/
def hubInstHeld_passed : Fld := ⟨.hubInstHeld, 15, 0⟩
/-- HUB_OUT_SEL.OUT, RW. -/
def hubOutSel_out : Fld := ⟨.hubOutSel, 4, 0⟩
/-- HUB_OUT_STAT.C0_WAIT, RC. -/
def hubOutStat_c0_wait : Fld := ⟨.hubOutStat, 31, 24⟩
/-- HUB_OUT_STAT.WAIT, RC. -/
def hubOutStat_wait : Fld := ⟨.hubOutStat, 15, 0⟩
/-- HUB_OUT_FLITS_LO.FLITS, RO. -/
def hubOutFlitsLo_flits : Fld := ⟨.hubOutFlitsLo, 31, 0⟩
/-- HUB_OUT_FLITS_HI.FLITS, RO. -/
def hubOutFlitsHi_flits : Fld := ⟨.hubOutFlitsHi, 31, 0⟩
/-- JNL_LND_FLOOR.P, RO. -/
def jnlLndFloor_p : Fld := ⟨.jnlLndFloor, 29, 20⟩
/-- JNL_LND_FLOOR.N, RO. -/
def jnlLndFloor_n : Fld := ⟨.jnlLndFloor, 19, 10⟩
/-- JNL_LND_FLOOR.K, RO. -/
def jnlLndFloor_k : Fld := ⟨.jnlLndFloor, 9, 0⟩
/-- JNL_LND_FREE.SHARED, RO. -/
def jnlLndFree_shared : Fld := ⟨.jnlLndFree, 17, 0⟩
/-- JNL_LND_OVS.FREE, RO. -/
def jnlLndOvs_free : Fld := ⟨.jnlLndOvs, 24, 16⟩
/-- JNL_LND_OVS.OPS, RO. -/
def jnlLndOvs_ops : Fld := ⟨.jnlLndOvs, 4, 0⟩
/-- JNL_LND_ECC.CORR, RC. -/
def jnlLndEcc_corr : Fld := ⟨.jnlLndEcc, 31, 16⟩
/-- JNL_LND_ECC.UNCORR, RC. -/
def jnlLndEcc_uncorr : Fld := ⟨.jnlLndEcc, 15, 0⟩
/-- JNL_LND_INST_SEL.INST, RW. -/
def jnlLndInstSel_inst : Fld := ⟨.jnlLndInstSel, 7, 0⟩
/-- JNL_LND_INST_USE.OVS, RO. -/
def jnlLndInstUse_ovs : Fld := ⟨.jnlLndInstUse, 31, 31⟩
/-- JNL_LND_INST_USE.WITHHELD, RO. -/
def jnlLndInstUse_withheld : Fld := ⟨.jnlLndInstUse, 30, 30⟩
/-- JNL_LND_INST_USE.USED, RO. -/
def jnlLndInstUse_used : Fld := ⟨.jnlLndInstUse, 17, 0⟩
/-- JNL_WD_CFG.EN, RW. -/
def jnlWdCfg_en : Fld := ⟨.jnlWdCfg, 31, 31⟩
/-- JNL_WD_CFG.LIMIT, RW. -/
def jnlWdCfg_limit : Fld := ⟨.jnlWdCfg, 15, 0⟩
/-- JNL_WD_STAT.FIRED, RC. -/
def jnlWdStat_fired : Fld := ⟨.jnlWdStat, 31, 16⟩
/-- JNL_WD_STAT.SET_SIZE, RO. -/
def jnlWdStat_set_size : Fld := ⟨.jnlWdStat, 15, 0⟩
/-- JNL_WD_LAST.VALID, RC. -/
def jnlWdLast_valid : Fld := ⟨.jnlWdLast, 31, 31⟩
/-- JNL_WD_LAST.JE, RC. -/
def jnlWdLast_je : Fld := ⟨.jnlWdLast, 21, 0⟩
/-- CMP_FU_CFG.STRATEGY, RWS. -/
def cmpFuCfg_strategy : Fld := ⟨.cmpFuCfg, 1, 0⟩
/-- CMP_UNIT_STAT.CU_ACTIVE, RO. -/
def cmpUnitStat_cu_active : Fld := ⟨.cmpUnitStat, 15, 8⟩
/-- CMP_UNIT_STAT.FU_ACTIVE, RO. -/
def cmpUnitStat_fu_active : Fld := ⟨.cmpUnitStat, 7, 0⟩
/-- CMP_FU_BYTES_LO.BYTES, RO. -/
def cmpFuBytesLo_bytes : Fld := ⟨.cmpFuBytesLo, 31, 0⟩
/-- CMP_FU_BYTES_HI.BYTES, RO. -/
def cmpFuBytesHi_bytes : Fld := ⟨.cmpFuBytesHi, 31, 0⟩
/-- CMP_CU_BYTES_LO.BYTES, RO. -/
def cmpCuBytesLo_bytes : Fld := ⟨.cmpCuBytesLo, 31, 0⟩
/-- CMP_CU_BYTES_HI.BYTES, RO. -/
def cmpCuBytesHi_bytes : Fld := ⟨.cmpCuBytesHi, 31, 0⟩
/-- CMP_XFORM_CNT.STORED, RC. -/
def cmpXformCnt_stored : Fld := ⟨.cmpXformCnt, 31, 16⟩
/-- CMP_XFORM_CNT.DATA_ERR, RC. -/
def cmpXformCnt_data_err : Fld := ⟨.cmpXformCnt, 15, 8⟩
/-- CMP_XFORM_CNT.KEY_ERR, RC. -/
def cmpXformCnt_key_err : Fld := ⟨.cmpXformCnt, 7, 0⟩
/-- CMP_UNIT_ERR.RERUN, RC. -/
def cmpUnitErr_rerun : Fld := ⟨.cmpUnitErr, 31, 16⟩
/-- CMP_UNIT_ERR.FAILED, RC. -/
def cmpUnitErr_failed : Fld := ⟨.cmpUnitErr, 15, 8⟩
/-- CMP_UNIT_ERR.RETIRED, RC. -/
def cmpUnitErr_retired : Fld := ⟨.cmpUnitErr, 7, 0⟩
/-- CMP_KEK_DATA.WORD, KEY. -/
def cmpKekData_word : Fld := ⟨.cmpKekData, 31, 0⟩
/-- CMP_KEK_LOAD.OP, KEY. -/
def cmpKekLoad_op : Fld := ⟨.cmpKekLoad, 9, 8⟩
/-- CMP_KEK_LOAD.INST, KEY. -/
def cmpKekLoad_inst : Fld := ⟨.cmpKekLoad, 7, 0⟩
/-- CMP_KEK_STAT.RESULT, RC. -/
def cmpKekStat_result : Fld := ⟨.cmpKekStat, 31, 30⟩
/-- CMP_KEK_STAT.INST, RC. -/
def cmpKekStat_inst : Fld := ⟨.cmpKekStat, 15, 8⟩
/-- CMP_KEK_STAT.STAGED, RO. -/
def cmpKekStat_staged : Fld := ⟨.cmpKekStat, 7, 0⟩
/-- CMP_KEK_VALID.VALID, RO. -/
def cmpKekValid_valid : Fld := ⟨.cmpKekValid, 31, 0⟩
/-- CMP_SLOT_SEL.SLOT, RW. -/
def cmpSlotSel_slot : Fld := ⟨.cmpSlotSel, 11, 0⟩
/-- CMP_SLOT_STAT.STATE, RO. -/
def cmpSlotStat_state : Fld := ⟨.cmpSlotStat, 31, 30⟩
/-- CMP_SLOT_STAT.OWNED, RO. -/
def cmpSlotStat_owned : Fld := ⟨.cmpSlotStat, 29, 29⟩
/-- CMP_SLOT_STAT.OWNER, RO. -/
def cmpSlotStat_owner : Fld := ⟨.cmpSlotStat, 23, 16⟩
/-- CMP_SLOT_STAT.USERS, RO. -/
def cmpSlotStat_users : Fld := ⟨.cmpSlotStat, 10, 0⟩
/-- CMP_KLD_ADDR_LO.ADDR_LO, RW. -/
def cmpKldAddrLo_addr_lo : Fld := ⟨.cmpKldAddrLo, 31, 7⟩
/-- CMP_KLD_ADDR_HI.ADDR_HI, RW. -/
def cmpKldAddrHi_addr_hi : Fld := ⟨.cmpKldAddrHi, 23, 0⟩
/-- CMP_KLD_CMD.OP, WO. -/
def cmpKldCmd_op : Fld := ⟨.cmpKldCmd, 31, 30⟩
/-- CMP_KLD_CMD.SLOT, WO. -/
def cmpKldCmd_slot : Fld := ⟨.cmpKldCmd, 11, 0⟩
/-- CMP_KLD_STAT.BUSY, RO. -/
def cmpKldStat_busy : Fld := ⟨.cmpKldStat, 31, 31⟩
/-- CMP_KLD_STAT.OVERRUN, RC. -/
def cmpKldStat_overrun : Fld := ⟨.cmpKldStat, 30, 30⟩
/-- CMP_KLD_STAT.RESULT, RC. -/
def cmpKldStat_result : Fld := ⟨.cmpKldStat, 27, 24⟩
/-- CMP_KLD_STAT.TSTAT, RC. -/
def cmpKldStat_tstat : Fld := ⟨.cmpKldStat, 23, 20⟩
/-- CMP_KLD_STAT.SLOT, RO. -/
def cmpKldStat_slot : Fld := ⟨.cmpKldStat, 11, 0⟩
/-- GATE_RGN_CTL.EN, RWS. -/
def gateRgnCtl_en : Fld := ⟨.gateRgnCtl, 31, 31⟩
/-- GATE_RGN_CTL.RD, RWS. -/
def gateRgnCtl_rd : Fld := ⟨.gateRgnCtl, 30, 30⟩
/-- GATE_RGN_CTL.WR, RWS. -/
def gateRgnCtl_wr : Fld := ⟨.gateRgnCtl, 29, 29⟩
/-- GATE_RGN_CTL.LOCK, RWS. -/
def gateRgnCtl_lock : Fld := ⟨.gateRgnCtl, 28, 28⟩
/-- GATE_RGN_ID_VAL.VAL, RWS. -/
def gateRgnIdVal_val : Fld := ⟨.gateRgnIdVal, 23, 0⟩
/-- GATE_RGN_ID_MASK.MASK, RWS. -/
def gateRgnIdMask_mask : Fld := ⟨.gateRgnIdMask, 23, 0⟩
/-- GATE_RGN_BASE_LO.BASE_LO, RWS. -/
def gateRgnBaseLo_base_lo : Fld := ⟨.gateRgnBaseLo, 31, 2⟩
/-- GATE_RGN_BASE_HI.BASE_HI, RWS. -/
def gateRgnBaseHi_base_hi : Fld := ⟨.gateRgnBaseHi, 23, 0⟩
/-- GATE_RGN_LIMIT_LO.LIMIT_LO, RWS. -/
def gateRgnLimitLo_limit_lo : Fld := ⟨.gateRgnLimitLo, 31, 2⟩
/-- GATE_RGN_LIMIT_HI.LIMIT_HI, RWS. -/
def gateRgnLimitHi_limit_hi : Fld := ⟨.gateRgnLimitHi, 23, 0⟩
/-- GATE_DEFMAP.MAP, KEY. -/
def gateDefmap_map : Fld := ⟨.gateDefmap, 31, 0⟩
/-- GATE_DBG_UNLOCK.UNLOCK, KEY. -/
def gateDbgUnlock_unlock : Fld := ⟨.gateDbgUnlock, 0, 0⟩
/-- GATE_BARRIER.DONE, RO. -/
def gateBarrier_done : Fld := ⟨.gateBarrier, 31, 31⟩
/-- GATE_BARRIER.START, WO. -/
def gateBarrier_start : Fld := ⟨.gateBarrier, 0, 0⟩
/-- GATE_REJ.REJ, RO. -/
def gateRej_rej : Fld := ⟨.gateRej, 31, 0⟩
/-- GATE_REJ_INFO.VALID, RO. -/
def gateRejInfo_valid : Fld := ⟨.gateRejInfo, 31, 31⟩
/-- GATE_REJ_INFO.CAUSE, RO. -/
def gateRejInfo_cause : Fld := ⟨.gateRejInfo, 30, 29⟩
/-- GATE_REJ_INFO.GATE, RO. -/
def gateRejInfo_gate : Fld := ⟨.gateRejInfo, 23, 16⟩
/-- GATE_REJ_INFO.RGN_A, RO. -/
def gateRejInfo_rgn_a : Fld := ⟨.gateRejInfo, 13, 8⟩
/-- GATE_REJ_INFO.RGN_B, RO. -/
def gateRejInfo_rgn_b : Fld := ⟨.gateRejInfo, 5, 0⟩
/-- GATE_SEL.GATE, RW. -/
def gateSel_gate : Fld := ⟨.gateSel, 7, 0⟩
/-- GATE_STAT.REFUSED, RC. -/
def gateStat_refused : Fld := ⟨.gateStat, 31, 16⟩
/-- GATE_STAT.NOMATCH, RC. -/
def gateStat_nomatch : Fld := ⟨.gateStat, 15, 0⟩
/-- GATE_LAST_ID.VALID, RC. -/
def gateLastId_valid : Fld := ⟨.gateLastId, 31, 31⟩
/-- GATE_LAST_ID.CAUSE, RC. -/
def gateLastId_cause : Fld := ⟨.gateLastId, 30, 29⟩
/-- GATE_LAST_ID.ID, RC. -/
def gateLastId_id : Fld := ⟨.gateLastId, 23, 0⟩
/-- GATE_LAST_ADDR_LO.ADDR_LO, RO. -/
def gateLastAddrLo_addr_lo : Fld := ⟨.gateLastAddrLo, 31, 0⟩
/-- GATE_LAST_ADDR_HI.ADDR_HI, RO. -/
def gateLastAddrHi_addr_hi : Fld := ⟨.gateLastAddrHi, 23, 0⟩
/-- GATE_DBG_STAT.DENIED, RC. -/
def gateDbgStat_denied : Fld := ⟨.gateDbgStat, 31, 16⟩
/-- GATE_DBG_STAT.UNLOCK_IGN, RC. -/
def gateDbgStat_unlock_ign : Fld := ⟨.gateDbgStat, 15, 8⟩
/-- GATE_DBG_STAT.UNLOCKED, RO. -/
def gateDbgStat_unlocked : Fld := ⟨.gateDbgStat, 0, 0⟩
/-- INST_ID.INST, RO. -/
def instId_inst : Fld := ⟨.instId, 31, 24⟩
/-- INST_ID.REQ_ID, RO. -/
def instId_req_id : Fld := ⟨.instId, 19, 0⟩
/-- INST_STAT.STATE, RO. -/
def instStat_state : Fld := ⟨.instStat, 31, 29⟩
/-- INST_STAT.ENTRIES, RO. -/
def instStat_entries : Fld := ⟨.instStat, 22, 0⟩
/-- INST_JQUOTA.JQUOTA, RO. -/
def instJquota_jquota : Fld := ⟨.instJquota, 22, 0⟩
/-- INST_LQUOTA.LQUOTA, RO. -/
def instLquota_lquota : Fld := ⟨.instLquota, 17, 0⟩
/-- INST_ALLOW.WINALLOW, RO. -/
def instAllow_winallow : Fld := ⟨.instAllow, 29, 13⟩
/-- INST_ALLOW.KEYALLOW, RO. -/
def instAllow_keyallow : Fld := ⟨.instAllow, 12, 0⟩
/-- INST_DNW.WEIGHT, RO. -/
def instDnw_weight : Fld := ⟨.instDnw, 31, 24⟩
/-- INST_DNW.DNALLOW, RO. -/
def instDnw_dnallow : Fld := ⟨.instDnw, 18, 0⟩
/-- INST_C0.RATE, RO. -/
def instC0_rate : Fld := ⟨.instC0, 31, 16⟩
/-- INST_C0.DEPTH, RO. -/
def instC0_depth : Fld := ⟨.instC0, 3, 0⟩
/-- INST_ATTN_ACK.DN, WO. -/
def instAttnAck_dn : Fld := ⟨.instAttnAck, 17, 0⟩
/-- INST_ATTN_UNMUTE.DN, WO. -/
def instAttnUnmute_dn : Fld := ⟨.instAttnUnmute, 17, 0⟩
/-- INST_CNT.REFUSED, RC. -/
def instCnt_refused : Fld := ⟨.instCnt, 31, 16⟩
/-- INST_CNT.BAD_DN, RC. -/
def instCnt_bad_dn : Fld := ⟨.instCnt, 15, 0⟩
/-- MGT_Q_BASE_LO.BASE_LO, RW. -/
def mgtQBaseLo_base_lo : Fld := ⟨.mgtQBaseLo, 31, 12⟩
/-- MGT_Q_BASE_HI.BASE_HI, RW. -/
def mgtQBaseHi_base_hi : Fld := ⟨.mgtQBaseHi, 23, 0⟩
/-- MGT_Q_CFG.EN, RW. -/
def mgtQCfg_en : Fld := ⟨.mgtQCfg, 31, 31⟩
/-- MGT_Q_CFG.LINK, RW. -/
def mgtQCfg_link : Fld := ⟨.mgtQCfg, 22, 22⟩
/-- MGT_Q_CFG.VC, RW. -/
def mgtQCfg_vc : Fld := ⟨.mgtQCfg, 21, 20⟩
/-- MGT_Q_CFG.SIZE, RW. -/
def mgtQCfg_size : Fld := ⟨.mgtQCfg, 4, 0⟩
/-- MGT_DB.TAIL, RW. -/
def mgtDb_tail : Fld := ⟨.mgtDb, 15, 0⟩
/-- MGT_HEAD.HEAD, RO. -/
def mgtHead_head : Fld := ⟨.mgtHead, 15, 0⟩
/-- MGT_STAT.STATE, RO. -/
def mgtStat_state : Fld := ⟨.mgtStat, 31, 30⟩
/-- MGT_STAT.INPROG, RO. -/
def mgtStat_inprog : Fld := ⟨.mgtStat, 24, 16⟩
/-- MGT_STAT.UNPRIV, RC. -/
def mgtStat_unpriv : Fld := ⟨.mgtStat, 15, 15⟩
/-- MGT_STAT.BAD_DB, RC. -/
def mgtStat_bad_db : Fld := ⟨.mgtStat, 14, 14⟩
/-- MGT_STAT.FAULT_STATUS, RO. -/
def mgtStat_fault_status : Fld := ⟨.mgtStat, 3, 0⟩
/-- MGT_CTL.RESUME, WO. -/
def mgtCtl_resume : Fld := ⟨.mgtCtl, 0, 0⟩
/-- MGT_CNT.DONE, RC. -/
def mgtCnt_done : Fld := ⟨.mgtCnt, 31, 16⟩
/-- MGT_CNT.FAILED, RC. -/
def mgtCnt_failed : Fld := ⟨.mgtCnt, 15, 0⟩
/-- MGT_POOL_JNL.FREE, RO. -/
def mgtPoolJnl_free : Fld := ⟨.mgtPoolJnl, 22, 0⟩
/-- MGT_POOL_LND.FREE, RO. -/
def mgtPoolLnd_free : Fld := ⟨.mgtPoolLnd, 17, 0⟩
/-- MGT_POOL_ENG.TOTAL, RO. -/
def mgtPoolEng_total : Fld := ⟨.mgtPoolEng, 31, 16⟩
/-- MGT_POOL_ENG.FREE, RO. -/
def mgtPoolEng_free : Fld := ⟨.mgtPoolEng, 15, 0⟩
/-- MGT_POOL_WIN.FREE, RO. -/
def mgtPoolWin_free : Fld := ⟨.mgtPoolWin, 16, 0⟩
/-- MGT_POOL_DN.FREE, RO. -/
def mgtPoolDn_free : Fld := ⟨.mgtPoolDn, 18, 0⟩
/-- MGT_POOL_KEY.FREE, RO. -/
def mgtPoolKey_free : Fld := ⟨.mgtPoolKey, 12, 0⟩
/-- MGT_POOL_C0.TOTAL, RO. -/
def mgtPoolC0_total : Fld := ⟨.mgtPoolC0, 31, 16⟩
/-- MGT_POOL_C0.FREE, RO. -/
def mgtPoolC0_free : Fld := ⟨.mgtPoolC0, 15, 0⟩
/-- MGT_INST_SEL.INST, RW. -/
def mgtInstSel_inst : Fld := ⟨.mgtInstSel, 7, 0⟩
/-- MGT_INST_STAT.STATE, RO. -/
def mgtInstStat_state : Fld := ⟨.mgtInstStat, 31, 29⟩
/-- MGT_INST_STAT.DESTROYING, RO. -/
def mgtInstStat_destroying : Fld := ⟨.mgtInstStat, 28, 28⟩
/-- MGT_INST_STAT.ESCALATED, RO. -/
def mgtInstStat_escalated : Fld := ⟨.mgtInstStat, 27, 27⟩
/-- MGT_INST_STAT.ORPHAN, RO. -/
def mgtInstStat_orphan : Fld := ⟨.mgtInstStat, 26, 26⟩
/-- MGT_INST_STAT.KLD_BUSY, RO. -/
def mgtInstStat_kld_busy : Fld := ⟨.mgtInstStat, 25, 25⟩
/-- MGT_INST_STAT.LOCKS, RO. -/
def mgtInstStat_locks : Fld := ⟨.mgtInstStat, 13, 0⟩
/-- FLT_FIRST_SRC.VALID, RC. -/
def fltFirstSrc_valid : Fld := ⟨.fltFirstSrc, 31, 31⟩
/-- FLT_FIRST_SRC.OVF, RC. -/
def fltFirstSrc_ovf : Fld := ⟨.fltFirstSrc, 30, 30⟩
/-- FLT_FIRST_SRC.CLASS, RC. -/
def fltFirstSrc_class : Fld := ⟨.fltFirstSrc, 29, 28⟩
/-- FLT_FIRST_SRC.SRC, RC. -/
def fltFirstSrc_src : Fld := ⟨.fltFirstSrc, 8, 0⟩
/-- FLT_FIRST_SYN_LO.SYN, RO. -/
def fltFirstSynLo_syn : Fld := ⟨.fltFirstSynLo, 31, 0⟩
/-- FLT_FIRST_SYN_HI.SYN, RO. -/
def fltFirstSynHi_syn : Fld := ⟨.fltFirstSynHi, 31, 0⟩
/-- FLT_FIRST_TS_LO.TS, RO. -/
def fltFirstTsLo_ts : Fld := ⟨.fltFirstTsLo, 31, 0⟩
/-- FLT_FIRST_TS_HI.TS, RO. -/
def fltFirstTsHi_ts : Fld := ⟨.fltFirstTsHi, 31, 0⟩
/-- FLT_HIGHEST.CLASS, RC. -/
def fltHighest_class : Fld := ⟨.fltHighest, 1, 0⟩
/-- FLT_CNT_CE.COUNT, RC. -/
def fltCntCe_count : Fld := ⟨.fltCntCe, 31, 0⟩
/-- FLT_CNT_UC.COUNT, RC. -/
def fltCntUc_count : Fld := ⟨.fltCntUc, 31, 0⟩
/-- FLT_CNT_FT.COUNT, RC. -/
def fltCntFt_count : Fld := ⟨.fltCntFt, 31, 0⟩
/-- FLT_HALT.VALID, RO. -/
def fltHalt_valid : Fld := ⟨.fltHalt, 31, 31⟩
/-- FLT_HALT.SRC, RO. -/
def fltHalt_src : Fld := ⟨.fltHalt, 8, 0⟩
/-- FLT_HALT_SYN_LO.SYN, RO. -/
def fltHaltSynLo_syn : Fld := ⟨.fltHaltSynLo, 31, 0⟩
/-- FLT_HALT_SYN_HI.SYN, RO. -/
def fltHaltSynHi_syn : Fld := ⟨.fltHaltSynHi, 31, 0⟩
/-- FLT_HALT_TS_LO.TS, RO. -/
def fltHaltTsLo_ts : Fld := ⟨.fltHaltTsLo, 31, 0⟩
/-- FLT_HALT_TS_HI.TS, RO. -/
def fltHaltTsHi_ts : Fld := ⟨.fltHaltTsHi, 31, 0⟩
/-- FLT_SRC_SEL.SRC, RW. -/
def fltSrcSel_src : Fld := ⟨.fltSrcSel, 8, 0⟩
/-- FLT_SRC_CFG.EV_EN, RWS. -/
def fltSrcCfg_ev_en : Fld := ⟨.fltSrcCfg, 31, 31⟩
/-- FLT_SRC_CFG.DEFINED, RO. -/
def fltSrcCfg_defined : Fld := ⟨.fltSrcCfg, 30, 30⟩
/-- FLT_SRC_CFG.CLASS, RO. -/
def fltSrcCfg_class : Fld := ⟨.fltSrcCfg, 29, 28⟩
/-- FLT_SRC_CNT.COUNT, RC. -/
def fltSrcCnt_count : Fld := ⟨.fltSrcCnt, 15, 0⟩
/-- FLT_EV_DEST.EN, RWS. -/
def fltEvDest_en : Fld := ⟨.fltEvDest, 31, 31⟩
/-- FLT_EV_DEST.LINK, RWS. -/
def fltEvDest_link : Fld := ⟨.fltEvDest, 22, 22⟩
/-- FLT_EV_DEST.VC, RWS. -/
def fltEvDest_vc : Fld := ⟨.fltEvDest, 21, 20⟩
/-- FLT_EV_DEST.DEST, RWS. -/
def fltEvDest_dest : Fld := ⟨.fltEvDest, 19, 0⟩
/-- FLT_EV_VEC.VECTOR, RWS. -/
def fltEvVec_vector : Fld := ⟨.fltEvVec, 15, 0⟩
/-- FLT_EV_DROP.COUNT, RC. -/
def fltEvDrop_count : Fld := ⟨.fltEvDrop, 31, 0⟩
/-- FLT_CHK_EXERCISE.ARM, KEY. -/
def fltChkExercise_arm : Fld := ⟨.fltChkExercise, 31, 31⟩
/-- FLT_CHK_EXERCISE.N, KEY. -/
def fltChkExercise_n : Fld := ⟨.fltChkExercise, 23, 16⟩
/-- FLT_CHK_EXERCISE.GROUP, KEY. -/
def fltChkExercise_group : Fld := ⟨.fltChkExercise, 12, 8⟩
/-- FLT_CHK_EXERCISE.MODE, KEY. -/
def fltChkExercise_mode : Fld := ⟨.fltChkExercise, 1, 0⟩
/-- FLT_CHK_STAT.ACTIVE, RO. -/
def fltChkStat_active : Fld := ⟨.fltChkStat, 31, 31⟩
/-- FLT_CHK_STAT.IGNORED, RC. -/
def fltChkStat_ignored : Fld := ⟨.fltChkStat, 30, 30⟩
/-- FLT_CHK_STAT.LEFT, RO. -/
def fltChkStat_left : Fld := ⟨.fltChkStat, 23, 16⟩
/-- FLT_ALIVE.RUNNING, RO. -/
def fltAlive_running : Fld := ⟨.fltAlive, 31, 31⟩
/-- FLT_ALIVE.LEVEL, RO. -/
def fltAlive_level : Fld := ⟨.fltAlive, 30, 30⟩
/-- FLT_ALIVE.MISSES, RC. -/
def fltAlive_misses : Fld := ⟨.fltAlive, 7, 0⟩
/-- BST_CFG.EN, RWS. -/
def bstCfg_en : Fld := ⟨.bstCfg, 31, 31⟩
/-- BST_CFG.ENG_EN, RWS. -/
def bstCfg_eng_en : Fld := ⟨.bstCfg, 30, 30⟩
/-- BST_CFG.ENG_DIV, RWS. -/
def bstCfg_eng_div : Fld := ⟨.bstCfg, 23, 16⟩
/-- BST_CFG.PERIOD, RWS. -/
def bstCfg_period : Fld := ⟨.bstCfg, 15, 0⟩
/-- BST_CE_THRESH.THRESH, RWS. -/
def bstCeThresh_thresh : Fld := ⟨.bstCeThresh, 15, 0⟩
/-- BST_CMD.OP, WO. -/
def bstCmd_op : Fld := ⟨.bstCmd, 31, 30⟩
/-- BST_CMD.KIND, WO. -/
def bstCmd_kind : Fld := ⟨.bstCmd, 11, 11⟩
/-- BST_CMD.TARGET, WO. -/
def bstCmd_target : Fld := ⟨.bstCmd, 10, 0⟩
/-- BST_STAT.STATE, RO. -/
def bstStat_state : Fld := ⟨.bstStat, 31, 30⟩
/-- BST_STAT.MEM_BUSY, RO. -/
def bstStat_mem_busy : Fld := ⟨.bstStat, 29, 29⟩
/-- BST_STAT.ENG_BUSY, RO. -/
def bstStat_eng_busy : Fld := ⟨.bstStat, 28, 28⟩
/-- BST_STAT.CMD_IGN, RC. -/
def bstStat_cmd_ign : Fld := ⟨.bstStat, 27, 27⟩
/-- BST_STAT.NEXT_SB, RO. -/
def bstStat_next_sb : Fld := ⟨.bstStat, 26, 16⟩
/-- BST_STAT.NEXT_ENG, RO. -/
def bstStat_next_eng : Fld := ⟨.bstStat, 6, 0⟩
/-- BST_LAST_MEM.VALID, RC. -/
def bstLastMem_valid : Fld := ⟨.bstLastMem, 31, 31⟩
/-- BST_LAST_MEM.RESULT, RC. -/
def bstLastMem_result : Fld := ⟨.bstLastMem, 30, 28⟩
/-- BST_LAST_MEM.TARGET, RC. -/
def bstLastMem_target : Fld := ⟨.bstLastMem, 26, 16⟩
/-- BST_LAST_MEM.COUNT, RC. -/
def bstLastMem_count : Fld := ⟨.bstLastMem, 15, 0⟩
/-- BST_LAST_ENG.VALID, RC. -/
def bstLastEng_valid : Fld := ⟨.bstLastEng, 31, 31⟩
/-- BST_LAST_ENG.RESULT, RC. -/
def bstLastEng_result : Fld := ⟨.bstLastEng, 30, 28⟩
/-- BST_LAST_ENG.TARGET, RC. -/
def bstLastEng_target : Fld := ⟨.bstLastEng, 26, 16⟩
/-- BST_LAST_ENG.COUNT, RC. -/
def bstLastEng_count : Fld := ⟨.bstLastEng, 15, 0⟩
/-- BST_FAIL_MEM.VALID, RC. -/
def bstFailMem_valid : Fld := ⟨.bstFailMem, 31, 31⟩
/-- BST_FAIL_MEM.ROW, RC. -/
def bstFailMem_row : Fld := ⟨.bstFailMem, 30, 20⟩
/-- BST_FAIL_MEM.BIT, RC. -/
def bstFailMem_bit : Fld := ⟨.bstFailMem, 19, 11⟩
/-- BST_FAIL_MEM.NCELLS, RC. -/
def bstFailMem_ncells : Fld := ⟨.bstFailMem, 10, 0⟩
/-- BST_MISR_MEM.MISR, RO. -/
def bstMisrMem_misr : Fld := ⟨.bstMisrMem, 31, 0⟩
/-- BST_MISR_MEM_EXP.MISR, RO. -/
def bstMisrMemExp_misr : Fld := ⟨.bstMisrMemExp, 31, 0⟩
/-- BST_MISR_ENG.MISR, RO. -/
def bstMisrEng_misr : Fld := ⟨.bstMisrEng, 31, 0⟩
/-- BST_MISR_ENG_EXP.MISR, RO. -/
def bstMisrEngExp_misr : Fld := ⟨.bstMisrEngExp, 31, 0⟩
/-- BST_CNT.PASSES, RC. -/
def bstCnt_passes : Fld := ⟨.bstCnt, 31, 16⟩
/-- BST_CNT.FAILS, RC. -/
def bstCnt_fails : Fld := ⟨.bstCnt, 15, 8⟩
/-- BST_CNT.INCOMPLETE, RC. -/
def bstCnt_incomplete : Fld := ⟨.bstCnt, 7, 0⟩
/-- BST_CNT2.SKIPPED, RC. -/
def bstCnt2_skipped : Fld := ⟨.bstCnt2, 31, 16⟩
/-- BST_CNT2.CYCLES, RC. -/
def bstCnt2_cycles : Fld := ⟨.bstCnt2, 15, 0⟩
/-- BST_SPARE.FREE, RO. -/
def bstSpare_free : Fld := ⟨.bstSpare, 25, 20⟩
/-- BST_SPARE.UNTESTED, RO. -/
def bstSpare_untested : Fld := ⟨.bstSpare, 19, 14⟩
/-- BST_SPARE.FAILED, RO. -/
def bstSpare_failed : Fld := ⟨.bstSpare, 10, 0⟩
/-- BST_SB_SEL.SB, RW. -/
def bstSbSel_sb : Fld := ⟨.bstSbSel, 10, 0⟩
/-- BST_SB_STAT.ROLE, RO. -/
def bstSbStat_role : Fld := ⟨.bstSbStat, 31, 30⟩
/-- BST_SB_STAT.UNTESTED, RO. -/
def bstSbStat_untested : Fld := ⟨.bstSbStat, 29, 29⟩
/-- BST_SB_STAT.WITHHELD, RO. -/
def bstSbStat_withheld : Fld := ⟨.bstSbStat, 28, 28⟩
/-- BST_SB_STAT.INDEX, RO. -/
def bstSbStat_index : Fld := ⟨.bstSbStat, 25, 16⟩
/-- BST_SB_STAT.CE_CYCLE, RO. -/
def bstSbStat_ce_cycle : Fld := ⟨.bstSbStat, 15, 8⟩
/-- BST_SB_STAT.ROWS_USED, RO. -/
def bstSbStat_rows_used : Fld := ⟨.bstSbStat, 7, 4⟩
/-- BST_SB_STAT.COLS_USED, RO. -/
def bstSbStat_cols_used : Fld := ⟨.bstSbStat, 3, 0⟩
/-- BST_REPAIR_STAT.SOFT, RO. -/
def bstRepairStat_soft : Fld := ⟨.bstRepairStat, 31, 16⟩
/-- BST_REPAIR_STAT.PENDING, RO. -/
def bstRepairStat_pending : Fld := ⟨.bstRepairStat, 15, 0⟩
/-- BST_FUSE_CMD.OP, KEY. -/
def bstFuseCmd_op : Fld := ⟨.bstFuseCmd, 9, 8⟩
/-- BST_FUSE_CMD.ENGINE, KEY. -/
def bstFuseCmd_engine : Fld := ⟨.bstFuseCmd, 6, 0⟩
/-- BST_FUSE_STAT.BUSY, RO. -/
def bstFuseStat_busy : Fld := ⟨.bstFuseStat, 31, 31⟩
/-- BST_FUSE_STAT.RESULT, RC. -/
def bstFuseStat_result : Fld := ⟨.bstFuseStat, 30, 28⟩
/-- BST_FUSE_STAT.BURNED, RC. -/
def bstFuseStat_burned : Fld := ⟨.bstFuseStat, 27, 16⟩
/-- BST_FUSE_STAT.FREE, RO. -/
def bstFuseStat_free : Fld := ⟨.bstFuseStat, 10, 0⟩
/-- PWR_MODE_STAT.PHASE, RO. -/
def pwrModeStat_phase : Fld := ⟨.pwrModeStat, 31, 29⟩
/-- PWR_MODE_STAT.RESCUE, RO. -/
def pwrModeStat_rescue : Fld := ⟨.pwrModeStat, 28, 28⟩
/-- PWR_MODE_STAT.EXIT_CAUSE, RO. -/
def pwrModeStat_exit_cause : Fld := ⟨.pwrModeStat, 27, 24⟩
/-- PWR_MODE_STAT.EXIT_RULE, RO. -/
def pwrModeStat_exit_rule : Fld := ⟨.pwrModeStat, 23, 19⟩
/-- PWR_MODE_STAT.REQ_REJ, RC. -/
def pwrModeStat_req_rej : Fld := ⟨.pwrModeStat, 15, 15⟩
/-- PWR_MODE_STAT.REJ_CAUSE, RC. -/
def pwrModeStat_rej_cause : Fld := ⟨.pwrModeStat, 14, 12⟩
/-- PWR_MODE_STAT.REJ_TARGET, RC. -/
def pwrModeStat_rej_target : Fld := ⟨.pwrModeStat, 10, 8⟩
/-- PWR_MODE_CNT.DOZE_ENTRIES, RC. -/
def pwrModeCnt_doze_entries : Fld := ⟨.pwrModeCnt, 31, 16⟩
/-- PWR_MODE_CNT.ABANDONS, RC. -/
def pwrModeCnt_abandons : Fld := ⟨.pwrModeCnt, 15, 8⟩
/-- PWR_MODE_CNT.REJECTS, RC. -/
def pwrModeCnt_rejects : Fld := ⟨.pwrModeCnt, 7, 0⟩
/-- PWR_DOZE_CFG.QUIESCE_TO, RWS. -/
def pwrDozeCfg_quiesce_to : Fld := ⟨.pwrDozeCfg, 15, 0⟩
/-- PWR_DROOP_CFG.DEPTH, RWS. -/
def pwrDroopCfg_depth : Fld := ⟨.pwrDroopCfg, 1, 0⟩
/-- PWR_DROOP_STAT.ASSERTED, RO. -/
def pwrDroopStat_asserted : Fld := ⟨.pwrDroopStat, 31, 31⟩
/-- PWR_DROOP_STAT.STRETCHING, RO. -/
def pwrDroopStat_stretching : Fld := ⟨.pwrDroopStat, 30, 30⟩
/-- PWR_DROOP_STAT.FROZEN, RO. -/
def pwrDroopStat_frozen : Fld := ⟨.pwrDroopStat, 29, 29⟩
/-- PWR_DROOP_STAT.ADAPT_FROZEN, RO. -/
def pwrDroopStat_adapt_frozen : Fld := ⟨.pwrDroopStat, 28, 28⟩
/-- PWR_DROOP_STAT.COUNT, RC. -/
def pwrDroopStat_count : Fld := ⟨.pwrDroopStat, 15, 0⟩
/-- PWR_DROOP_MAX.MAX, RC. -/
def pwrDroopMax_max : Fld := ⟨.pwrDroopMax, 31, 0⟩
/-- PWR_SLEW.BUDGET, RWS. -/
def pwrSlew_budget : Fld := ⟨.pwrSlew, 23, 16⟩
/-- PWR_SLEW.C0_DEPTH, RWS. -/
def pwrSlew_c0_depth : Fld := ⟨.pwrSlew, 15, 8⟩
/-- PWR_SLEW.C0_PCT, RWS. -/
def pwrSlew_c0_pct : Fld := ⟨.pwrSlew, 5, 0⟩
/-- PWR_GATE.ENG_IDLE, RWS. -/
def pwrGate_eng_idle : Fld := ⟨.pwrGate, 15, 0⟩
/-- PWR_SLEW_STAT.FROZEN, RO. -/
def pwrSlewStat_frozen : Fld := ⟨.pwrSlewStat, 31, 31⟩
/-- PWR_SLEW_STAT.QUEUED, RO. -/
def pwrSlewStat_queued : Fld := ⟨.pwrSlewStat, 24, 16⟩
/-- PWR_SLEW_STAT.QCOST, RO. -/
def pwrSlewStat_qcost : Fld := ⟨.pwrSlewStat, 10, 0⟩
/-- PWR_SLEW_CNT.WAKES, RC. -/
def pwrSlewCnt_wakes : Fld := ⟨.pwrSlewCnt, 31, 16⟩
/-- PWR_SLEW_CNT.C0_WAKES, RC. -/
def pwrSlewCnt_c0_wakes : Fld := ⟨.pwrSlewCnt, 15, 0⟩
/-- PWR_SLEW_MAXWAIT.WAIT, RC. -/
def pwrSlewMaxwait_wait : Fld := ⟨.pwrSlewMaxwait, 31, 0⟩
/-- PWR_ENG_ON.MAP, RO. -/
def pwrEngOn_map : Fld := ⟨.pwrEngOn, 31, 0⟩
/-- PWR_AVS_CFG.EN, RWS. -/
def pwrAvsCfg_en : Fld := ⟨.pwrAvsCfg, 31, 31⟩
/-- PWR_AVS_CFG.RAIL, RWS. -/
def pwrAvsCfg_rail : Fld := ⟨.pwrAvsCfg, 27, 24⟩
/-- PWR_AVS_CFG.LOWT_STEP, RWS. -/
def pwrAvsCfg_lowt_step : Fld := ⟨.pwrAvsCfg, 15, 8⟩
/-- PWR_AVS_CFG.LOWT_C, RWS. -/
def pwrAvsCfg_lowt_c : Fld := ⟨.pwrAvsCfg, 7, 0⟩
/-- PWR_AVS_STAT.BUSY, RO. -/
def pwrAvsStat_busy : Fld := ⟨.pwrAvsStat, 31, 31⟩
/-- PWR_AVS_STAT.FAIL, RC. -/
def pwrAvsStat_fail : Fld := ⟨.pwrAvsStat, 30, 30⟩
/-- PWR_AVS_STAT.FAIL_CNT, RC. -/
def pwrAvsStat_fail_cnt : Fld := ⟨.pwrAvsStat, 23, 16⟩
/-- PWR_AVS_STAT.VSET, RO. -/
def pwrAvsStat_vset : Fld := ⟨.pwrAvsStat, 15, 0⟩
/-- PWR_AVS_V.VREAD, RO. -/
def pwrAvsV_vread : Fld := ⟨.pwrAvsV, 31, 16⟩
/-- PWR_AVS_V.VBIN, RO. -/
def pwrAvsV_vbin : Fld := ⟨.pwrAvsV, 15, 0⟩
/-- PWR_TEMP.VALID, RO. -/
def pwrTemp_valid : Fld := ⟨.pwrTemp, 31, 31⟩
/-- PWR_TEMP.MAX, RC. -/
def pwrTemp_max : Fld := ⟨.pwrTemp, 15, 8⟩
/-- PWR_TEMP.TEMP, RO. -/
def pwrTemp_temp : Fld := ⟨.pwrTemp, 7, 0⟩
/-- PWR_POWER.EST, RO. -/
def pwrPower_est : Fld := ⟨.pwrPower, 15, 0⟩
/-- PWR_CAL_CFG.RX_EN, RWS. -/
def pwrCalCfg_rx_en : Fld := ⟨.pwrCalCfg, 31, 31⟩
/-- PWR_CAL_CFG.TX_EN, RWS. -/
def pwrCalCfg_tx_en : Fld := ⟨.pwrCalCfg, 30, 30⟩
/-- PWR_CAL_CFG.TX_PERIOD, RWS. -/
def pwrCalCfg_tx_period : Fld := ⟨.pwrCalCfg, 15, 0⟩
/-- PWR_CAL_CNT.TX_REFRESH, RC. -/
def pwrCalCnt_tx_refresh : Fld := ⟨.pwrCalCnt, 31, 16⟩
/-- PWR_CAL_CNT.TX_NORESP, RC. -/
def pwrCalCnt_tx_noresp : Fld := ⟨.pwrCalCnt, 15, 8⟩
/-- PWR_CAL_CNT.POSTPONED, RC. -/
def pwrCalCnt_postponed : Fld := ⟨.pwrCalCnt, 7, 0⟩
/-- PWR_CLK_STAT.ROOT_LOCK, RO. -/
def pwrClkStat_root_lock : Fld := ⟨.pwrClkStat, 31, 31⟩
/-- PWR_CLK_STAT.CORE_GATED, RO. -/
def pwrClkStat_core_gated : Fld := ⟨.pwrClkStat, 30, 30⟩
/-- PWR_CLK_STAT.ENG_GATED, RO. -/
def pwrClkStat_eng_gated : Fld := ⟨.pwrClkStat, 29, 29⟩
/-- PWR_CLK_STAT.LEVEL, RO. -/
def pwrClkStat_level : Fld := ⟨.pwrClkStat, 2, 0⟩
/-- KST_STAT.RULES, RO. -/
def kstStat_rules : Fld := ⟨.kstStat, 31, 31⟩
/-- KST_SBI.RAW, RO. -/
def kstSbi_raw : Fld := ⟨.kstSbi, 31, 16⟩
/-- KST_SBI.DEB, RO. -/
def kstSbi_deb : Fld := ⟨.kstSbi, 15, 0⟩
/-- KST_FIRED.FIRED, RC. -/
def kstFired_fired : Fld := ⟨.kstFired, 31, 0⟩
/-- KST_ALERT.ALERT, RC. -/
def kstAlert_alert : Fld := ⟨.kstAlert, 31, 0⟩
/-- KST_EV.EN, RWS. -/
def kstEv_en : Fld := ⟨.kstEv, 31, 31⟩
/-- KST_EV.VECTOR, RWS. -/
def kstEv_vector : Fld := ⟨.kstEv, 15, 0⟩
/-- KST_SMB.PEC_ERR, RC. -/
def kstSmb_pec_err : Fld := ⟨.kstSmb, 31, 24⟩
/-- KST_SMB.NACKS, RC. -/
def kstSmb_nacks : Fld := ⟨.kstSmb, 23, 16⟩
/-- KST_SMB.ADDR, RO. -/
def kstSmb_addr : Fld := ⟨.kstSmb, 6, 0⟩
/-- KST_LOG_HEAD.NEXT, RO. -/
def kstLogHead_next : Fld := ⟨.kstLogHead, 3, 0⟩
/-- KST_REJ.RULES, RO. -/
def kstRej_rules : Fld := ⟨.kstRej, 31, 0⟩
/-- KST_REJ_W.SLOTS, RO. -/
def kstRejW_slots : Fld := ⟨.kstRejW, 15, 0⟩
/-- KST_LOG_A.VALID, RO. -/
def kstLogA_valid : Fld := ⟨.kstLogA, 31, 31⟩
/-- KST_LOG_A.ACTION, RO. -/
def kstLogA_action : Fld := ⟨.kstLogA, 30, 29⟩
/-- KST_LOG_A.RULE, RO. -/
def kstLogA_rule : Fld := ⟨.kstLogA, 28, 24⟩
/-- KST_LOG_A.MODE, RO. -/
def kstLogA_mode : Fld := ⟨.kstLogA, 23, 21⟩
/-- KST_LOG_B.TS, RO. -/
def kstLogB_ts : Fld := ⟨.kstLogB, 31, 0⟩
/-- KST_WATCH.EN, RWS. -/
def kstWatch_en : Fld := ⟨.kstWatch, 31, 31⟩
/-- KST_WATCH.PORT, RWS. -/
def kstWatch_port : Fld := ⟨.kstWatch, 7, 0⟩
/-- KST_RULE_IN.EN, RWS. -/
def kstRuleIn_en : Fld := ⟨.kstRuleIn, 31, 31⟩
/-- KST_RULE_IN.SRC, RWS. -/
def kstRuleIn_src : Fld := ⟨.kstRuleIn, 30, 27⟩
/-- KST_RULE_IN.INV, RWS. -/
def kstRuleIn_inv : Fld := ⟨.kstRuleIn, 26, 26⟩
/-- KST_RULE_IN.SEL, RWS. -/
def kstRuleIn_sel : Fld := ⟨.kstRuleIn, 19, 12⟩
/-- KST_RULE_IN.ARG, RWS. -/
def kstRuleIn_arg : Fld := ⟨.kstRuleIn, 11, 0⟩
/-- KST_RULE_DEB.DEB, RWS. -/
def kstRuleDeb_deb : Fld := ⟨.kstRuleDeb, 31, 24⟩
/-- KST_RULE_DEB.WINDOW, RWS. -/
def kstRuleDeb_window : Fld := ⟨.kstRuleDeb, 23, 8⟩
/-- KST_RULE_DEB.WUNIT, RWS. -/
def kstRuleDeb_wunit : Fld := ⟨.kstRuleDeb, 7, 7⟩
/-- KST_RULE_DEB.THRESH, RWS. -/
def kstRuleDeb_thresh : Fld := ⟨.kstRuleDeb, 6, 0⟩
/-- KST_RULE_ACT.ACTION, RWS. -/
def kstRuleAct_action : Fld := ⟨.kstRuleAct, 31, 30⟩
/-- KST_RULE_ACT.MODES, RWS. -/
def kstRuleAct_modes : Fld := ⟨.kstRuleAct, 29, 26⟩
/-- IMG_BOOT.SLOT, RO. -/
def imgBoot_slot : Fld := ⟨.imgBoot, 31, 30⟩
/-- IMG_BOOT.FIRST, RO. -/
def imgBoot_first : Fld := ⟨.imgBoot, 29, 28⟩
/-- IMG_BOOT.TRIAL, RO. -/
def imgBoot_trial : Fld := ⟨.imgBoot, 27, 27⟩
/-- IMG_BOOT.FALLBACK, RO. -/
def imgBoot_fallback : Fld := ⟨.imgBoot, 26, 26⟩
/-- IMG_BOOT.LOAD_MS, RO. -/
def imgBoot_load_ms : Fld := ⟨.imgBoot, 15, 0⟩
/-- IMG_SLOT_A.TRIED, RO. -/
def imgSlotA_tried : Fld := ⟨.imgSlotA, 31, 31⟩
/-- IMG_SLOT_A.RESULT, RO. -/
def imgSlotA_result : Fld := ⟨.imgSlotA, 30, 28⟩
/-- IMG_SLOT_A.BY_VERIFY, RO. -/
def imgSlotA_by_verify : Fld := ⟨.imgSlotA, 27, 27⟩
/-- IMG_SLOT_A.SECTION, RO. -/
def imgSlotA_section : Fld := ⟨.imgSlotA, 15, 8⟩
/-- IMG_SLOT_A.SVN, RO. -/
def imgSlotA_svn : Fld := ⟨.imgSlotA, 7, 0⟩
/-- IMG_SLOT_B.TRIED, RO. -/
def imgSlotB_tried : Fld := ⟨.imgSlotB, 31, 31⟩
/-- IMG_SLOT_B.RESULT, RO. -/
def imgSlotB_result : Fld := ⟨.imgSlotB, 30, 28⟩
/-- IMG_SLOT_B.BY_VERIFY, RO. -/
def imgSlotB_by_verify : Fld := ⟨.imgSlotB, 27, 27⟩
/-- IMG_SLOT_B.SECTION, RO. -/
def imgSlotB_section : Fld := ⟨.imgSlotB, 15, 8⟩
/-- IMG_SLOT_B.SVN, RO. -/
def imgSlotB_svn : Fld := ⟨.imgSlotB, 7, 0⟩
/-- IMG_SLOT_ID_A.IMAGE_ID, RO. -/
def imgSlotIdA_image_id : Fld := ⟨.imgSlotIdA, 31, 0⟩
/-- IMG_SLOT_ID_B.IMAGE_ID, RO. -/
def imgSlotIdB_image_id : Fld := ⟨.imgSlotIdB, 31, 0⟩
/-- IMG_FLASH.SIZE_LOG2, RO. -/
def imgFlash_size_log2 : Fld := ⟨.imgFlash, 31, 27⟩
/-- IMG_FLASH.ADDR4, RO. -/
def imgFlash_addr4 : Fld := ⟨.imgFlash, 26, 26⟩
/-- IMG_FLASH.MODE, RO. -/
def imgFlash_mode : Fld := ⟨.imgFlash, 25, 24⟩
/-- IMG_LAYOUT.SET_OFS, RO. -/
def imgLayout_set_ofs : Fld := ⟨.imgLayout, 31, 16⟩
/-- IMG_LAYOUT.SLOT_SIZE, RO. -/
def imgLayout_slot_size : Fld := ⟨.imgLayout, 15, 0⟩
/-- IMG_BOOT_CFG.TRIAL, KEY. -/
def imgBootCfg_trial : Fld := ⟨.imgBootCfg, 2, 2⟩
/-- IMG_BOOT_CFG.PREFER, KEY. -/
def imgBootCfg_prefer : Fld := ⟨.imgBootCfg, 1, 0⟩
/-- IMG_SET_CMD.OP, KEY. -/
def imgSetCmd_op : Fld := ⟨.imgSetCmd, 1, 0⟩
/-- IMG_SET_STAT.VALID, RO. -/
def imgSetStat_valid : Fld := ⟨.imgSetStat, 31, 31⟩
/-- IMG_SET_STAT.BUSY, RO. -/
def imgSetStat_busy : Fld := ⟨.imgSetStat, 30, 30⟩
/-- IMG_SET_STAT.PENDING, RO. -/
def imgSetStat_pending : Fld := ⟨.imgSetStat, 29, 29⟩
/-- IMG_SET_STAT.FAIL, RC. -/
def imgSetStat_fail : Fld := ⟨.imgSetStat, 28, 28⟩
/-- IMG_SET_STAT.FAIL_CNT, RC. -/
def imgSetStat_fail_cnt : Fld := ⟨.imgSetStat, 15, 8⟩
/-- IMG_SET_STAT.WRITES, RC. -/
def imgSetStat_writes : Fld := ⟨.imgSetStat, 7, 0⟩
/-- IMG_SET_SEQ.SEQ, RO. -/
def imgSetSeq_seq : Fld := ⟨.imgSetSeq, 31, 0⟩
/-- IMG_BOOTS.BOOTS_A, RO. -/
def imgBoots_boots_a : Fld := ⟨.imgBoots, 31, 16⟩
/-- IMG_BOOTS.BOOTS_B, RO. -/
def imgBoots_boots_b : Fld := ⟨.imgBoots, 15, 0⟩
/-- IMG_FATAL.TOTAL, RO. -/
def imgFatal_total : Fld := ⟨.imgFatal, 31, 16⟩
/-- IMG_FATAL.NEXT, RO. -/
def imgFatal_next : Fld := ⟨.imgFatal, 13, 8⟩
/-- IMG_FATAL.COUNT, RO. -/
def imgFatal_count : Fld := ⟨.imgFatal, 6, 0⟩
/-- IMG_SVN.BURN_RESULT, RC. -/
def imgSvn_burn_result : Fld := ⟨.imgSvn, 31, 29⟩
/-- IMG_SVN.BUSY, RO. -/
def imgSvn_busy : Fld := ⟨.imgSvn, 28, 28⟩
/-- IMG_SVN.RUN_SVN, RO. -/
def imgSvn_run_svn : Fld := ⟨.imgSvn, 15, 8⟩
/-- IMG_SVN.MIN_SVN, RO. -/
def imgSvn_min_svn : Fld := ⟨.imgSvn, 7, 0⟩
/-- IMG_SVN_BURN.VALUE, KEY. -/
def imgSvnBurn_value : Fld := ⟨.imgSvnBurn, 7, 0⟩
/-- IMG_FL_ADDR.ADDR, RW. -/
def imgFlAddr_addr : Fld := ⟨.imgFlAddr, 27, 0⟩
/-- IMG_FL_CMD.OP, WO. -/
def imgFlCmd_op : Fld := ⟨.imgFlCmd, 31, 29⟩
/-- IMG_FL_CMD.SLOT, WO. -/
def imgFlCmd_slot : Fld := ⟨.imgFlCmd, 0, 0⟩
/-- IMG_FL_STAT.BUSY, RO. -/
def imgFlStat_busy : Fld := ⟨.imgFlStat, 31, 31⟩
/-- IMG_FL_STAT.OVERRUN, RC. -/
def imgFlStat_overrun : Fld := ⟨.imgFlStat, 30, 30⟩
/-- IMG_FL_STAT.RESULT, RC. -/
def imgFlStat_result : Fld := ⟨.imgFlStat, 27, 24⟩
/-- IMG_FL_BUF.DATA, RW. -/
def imgFlBuf_data : Fld := ⟨.imgFlBuf, 31, 0⟩

end Fld

end Sys2Proof.Machine
end

