-- ==== Sys2Proof/Machine/Records.lean ====
section
/-! DEFINITION. The parts of the state that are records of their own: register accesses in flight, the fault collector, self-test,
modes and power, the Kickstand, and the Thaty links. -/

namespace Sys2Proof.Machine

/-- Modes of Table 14.5. -/
inductive Mode
  | reset | load | run | doze | service | halt
  deriving DecidableEq, Repr

/-- Phases of a mode (R305, PWR_MODE_STAT.PHASE). -/
inductive Phase
  | steady | quiescing | entering | exiting
  deriving DecidableEq, Repr

/-! ### Register accesses (chapter 2) -/

/-- Where the result of a register access goes: to its Thaty requester, to SMBus, to the TAP, or to a master of the service path or the
debug port that is not one of these. -/
inductive Via
  | thaty | smb | tap | path
  deriving DecidableEq, Repr

/-- A BCS access as R18 sees it: the span from the first enabled byte to the last (R46), the enables within it, and the bytes of a
write. `credits` are those that its packet gives back when it leaves the link receive buffer (R60, R71). -/
structure BcsReq where
  acc : Acc
  via : Via := .thaty
  off : Nat
  wr : Bool
  en : List Bool
  data : List Byte := []
  credits : List (Nat × Nat) := []
  deriving DecidableEq, Repr

/-- How a register access ended: performed with the bytes read, or refused with CA and a cause of Table 2.5. -/
inductive BcsRes
  | done (bytes : List Byte)
  | refused (cause : Nat)
  deriving DecidableEq, Repr

/-- A pending first half of a keyed pair (R32): the offset of A, the value, and the requester. -/
structure KeyPend where
  off : Nat
  val : Word
  src : Src
  reqId : BitVec 20
  deriving DecidableEq, Repr

/-- The update strobe (R30): the mask while BUSY is 1, and the non-posted UPD_STROBE writes that complete at the commit. -/
structure Strobe where
  mask : Option Nat := none
  resp : List BcsReq := []
  deriving DecidableEq, Repr

/-! ### Faults and ALIVE (chapter 13) -/

/-- The fault collector and ALIVE. EV_EN is per source (R296); `last` gives, per source and destination, the 1 ms interval of the
last EVENT plus one (R275); `lastToken` is the GLB_TS of the last liveness token. `firstNow` and `haltNow` mark a record captured by the command in progress (R277). -/
structure Flt where
  evEn : FMap Bool := []
  evEnSh : FMap Bool := []
  srcCnt : FMap Nat := []
  last : FMap Nat := []
  exGroup : Nat := 0
  exMode : Nat := 0
  exLeft : Nat := 0
  aliveRun : Bool := false
  aliveLevel : Bool := false
  lastToken : Nat := 0
  firstNow : Bool := false
  haltNow : Bool := false
  deriving DecidableEq, Repr

/-- Roles of a sub-bank (BST_SB_STAT.ROLE). -/
inductive SubRole
  | journal | landing | spare | failed
  deriving DecidableEq, Repr

/-- A physical sub-bank (R286 to R294). -/
structure Sub where
  role : SubRole := .failed
  index : Nat := 0
  untested : Bool := false
  isolated : Bool := false
  ce : Nat := 0
  rows : Nat := 0
  cols : Nat := 0
  deriving DecidableEq, Repr

/-- States of a Pouncing slice (Table 13.9). -/
inductive SliceSt
  | idle | prepare | test | judge | restore
  deriving DecidableEq, Repr

/-- Results of a slice (Table 13.8). -/
inductive SliceRes
  | pass | fail | incomplete | skipped
  deriving DecidableEq, Repr

/-- The slice machine of one kind: its target, what it served before the test, whether it is to be cut short, the failing cells,
the INCOMPLETE results in a row on the last target, the last target of step 4 of R286, and the engine
that stands in for an active target (R288). -/
structure Slice where
  st : SliceSt := .idle
  target : Nat := 0
  wasLanding : Bool := false
  cut : Bool := false
  res : SliceRes := .pass
  standin : Nat := 0
  cells : List (Nat × Nat) := []
  incTarget : Nat := 0
  incRun : Nat := 0
  last4 : Option Nat := none
  deriving DecidableEq, Repr

/-- A repair record (Table 13.10). -/
structure Repair where
  kind : Nat
  unit : Nat
  spare : Nat := 0
  pos : Nat := 0
  deriving DecidableEq, Repr

/-- Self-test and repair: sub-banks, the two slices, FOREGROUND (next sub-bank and engine, and whether STOP came), the count of
periods and whether a periodic start waits for the end of a droop (R286), and the repair records in the soft map, pending, and in fuses; the
records that a running fuse command still programs. -/
structure Bst where
  subs : FMap Sub := []
  mem : Slice := {}
  eng : Slice := {}
  fg : Bool := false
  fgMem : Nat := 0
  fgEng : Nat := 0
  fgStop : Bool := false
  periods : Nat := 0
  startDue : Bool := false
  soft : List Repair := []
  pendingRec : List Repair := []
  fuses : List Repair := []
  burn : Option (List Repair) := none
  deriving DecidableEq, Repr

/-! ### Modes, clocks and power (chapter 14) -/

/-- A wake in the queue (R302): its part, class, and the GLB_TS at which it was queued. The list order is the age order. -/
structure Wake where
  part : Part
  cls : Nat
  since : Nat
  deriving DecidableEq, Repr

/-- Power, droop and AVSBus. Bucket contents are in units of 0.1 mA: one TS tick gains p × B of them in the C0 bucket (R301). `avsWait`: the
setpoint write at hand waits until stretching has ended (R300). `droopPin`: DROOP_N is low at the pin, which nothing heeds until the root PLL
locks (R360). -/
structure Pwr where
  rescue : Bool := false
  runAfterFg : Bool := false
  rootLock : Bool := false
  coreGated : Bool := false
  engGated : Bool := false
  droop : Bool := false
  droopPin : Bool := false
  droopSince : Nat := 0
  level : Nat := 0
  frozen : Bool := false
  adaptFrozen : Bool := false
  c0Bucket : Nat := 0
  genBucket : Nat := 0
  pdBucket : Nat := 0
  wakes : List Wake := []
  granted : List Part := []
  pd : List Part := []
  up : List Part := []
  avsTries : Nat := 0
  avsBusy : Bool := false
  avsWait : Bool := false
  avsSet : Nat := 0
  lowT : Bool := false
  deriving DecidableEq, Repr

/-- The state of one Kickstand rule (R313). -/
structure RuleSt where
  run : Nat := 0
  lvl : Bool := false
  cnt : Nat := 0
  opened : Bool := false
  wend : Nat := 0
  lastPulse : Nat := 0
  deriving DecidableEq, Repr

/-- The Kickstand: its sample count in µs, the rules, TRIGGER pulses, TWAKE_N samples, and the SMBus target with the access address,
the last access result, and the alerts not yet reported. -/
structure Kst where
  now : Nat := 0
  rules : FMap RuleSt := []
  trig : List Nat := []
  twakeLow : Nat := 0
  smbUp : Bool := false
  smbAddr : Word := 0
  smbRes : Nat := 2
  alertNew : Word := 0
  deriving DecidableEq, Repr

/-! ### Translation (chapter 5) -/

/-- A WTT entry's fields (Tables 5.1 to 5.3). -/
structure Window where
  v : Bool
  inbound : Bool
  path : Bool
  np : Bool
  swap : Nat
  cls : Nat
  peer : Bool
  owner : Nat
  tbase : Nat
  tlimit : Nat
  dn : Nat
  gbase : Nat
  glimit : Nat
  port : Nat
  dHi : Nat
  dLo : Nat
  dgbase : Nat
  deriving DecidableEq, Repr

/-- A DVT entry's fields (Table 5.4); `maxb` and `bound` in bytes. -/
structure Device where
  v : Bool
  wake : Bool
  cls : Nat
  maxbCode : Nat
  bound : Nat
  port : Nat
  swap : Nat
  daddr : Nat
  owner : Nat
  smapEn : Bool
  smap : Nat
  poll : Nat
  storm : Nat
  digIdx : Nat
  deriving DecidableEq, Repr

/-- What outbound translation finds (Table 5.5, R264). -/
inductive OutFound
  | unmapped | mismatch | npDrop | reset (inst : Nat) | ok (w : Window) (dv : Device)
  deriving DecidableEq, Repr

/-! ### Thaty links (chapter 3) -/

/-- Link states of Table 3.13. -/
inductive LinkSt
  | down | train | up | retrain | quiet
  deriving DecidableEq, Repr

/-- Whose a Hub transfer is, so that its cancellation finds it (R190): an operation's, by JE, that of a context which has no operation yet,
or one that nothing cancels. -/
inductive XOwn
  | none | op (je : Nat) | ctx (n : Nat)
  deriving DecidableEq, Repr

/-- A Hub transfer (R181): output, input, class, sub-queue (R186), flits in all, those that its input has accepted (R182), those granted
(R189), rounds lost (C0), and whose it is. Inputs 0 to 23 are the Hub ports. The dedicated requesters of Table 8.1 stand at inputs of their own:
24 the Kickstand bridge path (C1) and the calibration slots (C3), 25 the Journal writer (C0) and the self-test controller (C3). -/
structure Xfer where
  out : Nat
  inp : Nat
  cls : Nat
  sub : Nat
  len : Nat
  got : Nat := 0
  sent : Nat := 0
  lost : Nat := 0
  own : XOwn := .none
  deriving DecidableEq, Repr

/-- A flit at a Hub output: granted, or in the destination's input buffer, and whether it takes space of the shared remainder (R187). -/
structure Flit where
  inp : Nat
  cls : Nat
  sub : Nat := 0
  own : XOwn := .none
  shared : Bool := false
  deriving DecidableEq, Repr

/-- A Hub output: ages and rounds waited per requester (4 × input + class), the sub-queue each requester served last, the requester last
granted, the flit granted for the next cycle, whether that grant was withdrawn, the destination's input buffer, oldest flit first, and the counts
of HUB_OUT_STAT and HUB_OUT_FLITS. -/
structure HubOut where
  ages : FMap Nat := []
  waits : FMap Nat := []
  subs : FMap Nat := []
  last : Nat := 0
  grant : Option Flit := none
  dead : Bool := false
  buf : List Flit := []
  flits : Nat := 0
  waitMax : Nat := 0
  c0Wait : Nat := 0
  deriving DecidableEq, Repr

/-- A packet at Thaty egress, with the Journal entries that leave COMPLETED when its blocks are acknowledged (R172), what ranks it there
(R183): its class, and the Journal timestamp and order of admission of its operation; and whose it is. -/
structure TxPkt where
  pkt : Packet
  frees : List Nat := []
  cls : Nat := 0
  age : Nat := 0
  serial : Nat := 0
  own : XOwn := .none
  deriving DecidableEq, Repr

/-- What goes on once a held C0 transfer is charged (R192): a piece or an UP frame's transfer of an operation, the completion of a Thaty
request, a packet for a link, a fetch of a context, or the completion entry of a CCD. -/
inductive HeldAct
  | piece (je : Nat)
  | cpl (je : Nat)
  | send (l : Nat) (t : TxPkt)
  | fetch (n : Nat)
  | entry (je : Nat)
  deriving DecidableEq, Repr

/-- A C0 transfer held for tokens (R192): instance, input, destination Hub port, sub-queue, payload bytes, whose it is, and what goes on once
it is charged. -/
structure C0Held where
  inst : Nat
  inp : Nat
  port : Nat
  sub : Nat
  bytes : Nat
  own : XOwn
  act : HeldAct
  deriving DecidableEq, Repr

/-- The Hub: transfers in the order in which they were formed (and charged), outputs, the C0 buckets of the ports in units of 1/256
token below their depth, transfers held for tokens, the Journal changes that have not crossed (of which the writer's buffer holds the first
64), and whether the writer took the last round. -/
structure Hub where
  xfers : List Xfer := []
  outs : FMap HubOut := []
  used : FMap Nat := []
  held : List C0Held := []
  jw : Nat := 0
  jwLast : Bool := false
  deriving DecidableEq, Repr


/-- A DATA block kept until an ACK covers it (R43): its SEQ, FPO, credit return and stream bytes, how often it was resent, and the packet
whose last byte it carries. -/
structure TxBlk where
  seq : Nat
  fpo : Nat
  cr : Nat × Nat := (0, 0)
  stream : List Byte
  resent : Nat := 0
  pkt : Option TxPkt := none
  deriving DecidableEq, Repr

/-- The Journal entries that the acknowledgement of a block frees: those of the packet that ends in it. -/
def TxBlk.frees (b : TxBlk) : List Nat := match b.pkt with | some t => t.frees | none => []

/-- What a request of the bridge is for, so that its completion finds its way (R56, R57); `dead` where its operation was squashed. -/
inductive Purpose
  | startEntry (inst q : Nat)
  | ccd (ctx : Nat)
  | data (ctx je : Nat)
  | upRd (je : Nat)
  | key (inst : Nat)
  | mgt
  | mgtRange
  | dead
  deriving DecidableEq, Repr

/-- One non-posted request of the bridge that is outstanding (R55, R56): `got` lists the pieces that have arrived as
(granule offset, bytes). -/
structure OutReq where
  tag : Nat
  vc : Nat
  addr : Nat
  granules : Nat
  destId : BitVec 20
  wr : Bool := false
  got : List (Nat × List Byte) := []
  purpose : Purpose
  deriving DecidableEq, Repr

/-- A request that waits in the link receive buffer: a stamp that orders it across the links, its packet, and what outbound translation
found at its Thaty ingress (R122). -/
structure HeldReq where
  stamp : Nat
  pkt : Packet
  found : OutFound
  deriving DecidableEq, Repr

/-- One Thaty link. Credits are held per key 4 × VC + type (PH, PD, NPH, NPD). `held` lists requests that wait in the receive
buffer, oldest first. `moved`: its traffic goes on the other link
(R69). `fails` counts failed trainings (R66). `ackDue`: a DATA block came in sequence that no block sent since acknowledges. -/
structure Link where
  st : LinkSt := .down
  width : Nat := 3
  group : Nat := 0
  reversed : Bool := false
  laneOk : BitVec 16 := 0
  quietReq : Bool := false
  fullWidth : Bool := false
  txSeq : Nat := 0
  unacked : List TxBlk := []
  egress : List TxPkt := []
  txCred : FMap Nat := []
  credRet : List (Nat × Nat) := []
  rxNext : Nat := 0
  nak : Bool := false
  ackDue : Bool := false
  rxPart : List Byte := []
  rxSkip : Bool := true
  ingress : List Packet := []
  held : List HeldReq := []
  outst : List OutReq := []
  quar : List Nat := []
  moved : Bool := false
  fails : Nat := 0
  deriving DecidableEq, Repr

/-! ### Engines and the Journal (chapter 7) -/

/-- What an engine is (R155, R163, R288). -/
inductive EngRole
  | none | active | spare | retired
  deriving DecidableEq, Repr

/-- A channel engine: role, whether it is an untested spare or under test, its issue pass per instance, the last 16,000 ENG cycles as
runs (kind, length) with the newest first (0: none issued; 1: C0 while a C1 to C3 context was ready; 2: any other issue), and the
instances that had a ready context on its last cycle. -/
structure Eng where
  role : EngRole := .none
  untested : Bool := false
  testing : Bool := false
  pass : FMap Nat := []
  win : List (Nat × Nat) := []
  readyInst : List Nat := []
  deriving DecidableEq, Repr

/-- Journal entry states (Table 7.3). -/
inductive JSt
  | free | admitted | issued | farDone | completed | squashed | error
  deriving DecidableEq, Repr

/-- A Journal entry (Table 7.3). `serial` is the order of admission, which ranks equal TS (R203);
`since` is GLB_TS at the last change of STATE, PROGRESS, RETRY or ENGINE (R214). -/
structure JEntry where
  st : JSt := .free
  kind : Nat := 0
  pst : Bool := false
  cls : Nat := 0
  inst : Nat := 0
  eng : Nat := 0x7F
  err : Nat := 0
  dn : Nat := 0
  retry : Nat := 0
  link : Nat := 0
  vc : Nat := 0
  pdone : Bool := false
  sqc : Bool := false
  progress : Nat := 0
  ts : Nat := 0
  ref : Nat := 0
  serial : Nat := 0
  acked : Bool := false
  since : Nat := 0
  deriving DecidableEq, Repr

/-- The Journal: entries that are not FREE, entries charged to an instance but still reading FREE (JE to instance, R170), withheld
FREE entries (R175) and entries with an uncorrectable word, each with the word, the command in progress, the next admission serial, the
blocked set that the watchdog found, the resources in which it last selected an entry with the GLB_TS, and the GLB_TS of the last engine
retirement. -/
structure Jnl where
  entries : FMap JEntry := []
  reserved : FMap Nat := []
  withheld : List (Nat × Nat) := []
  uncorr : List (Nat × Nat) := []
  scan : Option Nat := none
  scanTold : Bool := false
  serial : Nat := 0
  fails : Nat := 0
  blocked : List Nat := []
  wdPast : FMap Nat := []
  migAt : Nat := 0
  deriving DecidableEq, Repr

/-! ### Windows and devices (chapter 5) -/

/-- The WTT and DVT: committed entries (REJ included) by index, the pending stores (R120), their overflow bits, entries with an
uncorrectable word (source 0x063), and the admission serials of the operations that the table barrier still waits for (R123). -/
structure Tables where
  wtt : FMap (BitVec 256) := []
  dvt : FMap (BitVec 128) := []
  wttPend : FMap (BitVec 256) := []
  dvtPend : FMap (BitVec 128) := []
  wttOvf : Bool := false
  dvtOvf : Bool := false
  wttBad : List Nat := []
  dvtBad : List Nat := []
  barrier : List Nat := []
  deriving DecidableEq, Repr

/-! ### Gulum ports (chapter 4) -/

/-- Port states of Table 4.17. -/
inductive PortSt
  | down | off | train | up | sleep
  deriving DecidableEq, Repr

/-- Exchange states of Table 4.9. -/
inductive XSt
  | idle | cmd | up | guard | reserved
  deriving DecidableEq, Repr

/-- Lock states of Table 4.11. -/
inductive LockSt
  | none | locking | held | releasing | orphaned
  deriving DecidableEq, Repr

/-- What a channel-side exchange is: a piece of an operation's read or write, a LOCK-RD, an UNLOCK-WR, a poll, or an ACK-ATTN (for a
WAIT-ATTN's Journal entry, or asked for by a register write). -/
inductive XKind
  | rd | wr | lockRd | unlockWr | poll | ack
  deriving DecidableEq, Repr

/-- A queued or open channel-side exchange: what it is, the Journal entry it serves (none for a poll or a register's ACK-ATTN), its
DN, class and age (TS and serial), the instance of the operation, how often it was re-issued, and the earliest GLB_TS at which a device's hint lets it open. -/
structure XReq where
  kind : XKind
  je : Option Nat := none
  dn : Nat
  cls : Nat
  age : Nat
  serial : Nat
  inst : Nat := 0
  reissued : Nat := 0
  refusals : Nat := 0
  notBefore : Nat := 0
  deriving DecidableEq, Repr

/-- The open channel-side exchange at a device address: its request, the burst of its command, and whether its DATA has come. -/
structure XOpen where
  req : XReq
  pieceA : Nat := 0
  pieceE : Nat := 0
  gotData : Option (List Byte) := none
  deriving DecidableEq, Repr

/-- An open device-initiated exchange: its Journal entry, the UP frame, its UP-DATA when it has come, and whether the UP frame was
refused before admission and only its UP-DATA is awaited. -/
structure UpX where
  je : Option Nat
  frame : Frame
  data : Option (List Byte) := none
  deriving DecidableEq, Repr

/-- Why a lock is being released (Table 4.11): the new value was written, a CAS compare failed, or UNLOCK-ABORT was sent for a reason after which the
operation is queued again, ends, or has ended. -/
inductive RelWhy
  | wrote | cas | exc | requeue | endTo | endDe | ended
  deriving DecidableEq, Repr

/-- A device address of a port. `losses`, `lossSerial` and `lossBy` follow R89: what `openSerial` stood at, plus one, at the last refusal
since the loss count was reset, and at the last loss.
`upData` marks an UP-DATA to take and discard after a refused UP-WR. -/
structure Daddr where
  st : XSt := .idle
  opened : Option XOpen := none
  up : Option UpX := none
  losses : Nat := 0
  openSerial : Nat := 0
  lossSerial : Nat := 0
  lossBy : Nat := 0
  upRefused : Bool := false
  swallow : Option Nat := none
  lock : LockSt := .none
  lockReq : Option XReq := none
  relWhy : RelWhy := .ended
  relTries : Nat := 0
  squashWait : Bool := false
  deriving DecidableEq, Repr

/-- A bridge-written STATUS that waits at the port's egress (R76): its frame, the Journal entry whose completion it is, and what its
last byte does to the device address (closes an UP exchange, or starts the guard time). `retry` marks a RETRY, which waits in the same
order and whose last byte does nothing more. -/
structure StatusTx where
  daddr : Nat
  frame : Frame
  je : Option Nat := none
  closesUp : Bool := false
  guard : Bool := false
  retry : Bool := false
  deriving DecidableEq, Repr

/-- Other frames that wait at the port's egress behind RETRY and STATUS frames (R76), on a member lane: they leave one after the other, in
class order and age order within a class. `after` is the STATUS that is made once they have left. -/
structure EgressTx where
  frames : List Frame
  member : Nat := 0
  cls : Nat
  age : Nat
  serial : Nat := 0
  after : Option StatusTx := none
  deriving DecidableEq, Repr

/-- Transmit equalisation of one member lane (R320): the outstanding COEF-REQ's SEQ, the next SEQ, the last eye, the step being
tried, and the bridge's own coefficient positions. -/
structure Cal where
  outSeq : Option Nat := none
  nextSeq : Nat := 0
  lastEye : Option Nat := none
  tap : Nat := 0
  dir : Bool := false
  coef : List Int := [0, 0, 0]
  deriving DecidableEq, Repr

/-- A logical port (chapter 4): state, member lanes with lock, queued exchanges (oldest first by age), RETRY and STATUS frames at egress,
the other frames that wait behind them, whether DOZE entry waits for open exchanges to close, and the calibration of its members. -/
structure Port where
  st : PortSt := .down
  laneLock : Nat := 0
  queue : List (Nat × XReq) := []
  statusQ : List StatusTx := []
  egress : List EgressTx := []
  sleepPend : Bool := false
  cal : FMap Cal := []
  deriving DecidableEq, Repr

/-- Poll states of Table 4.13. -/
inductive PollSt
  | wait | due | out
  deriving DecidableEq, Repr

/-- Attention states of Table 4.14. -/
inductive AttnSt
  | clear | delivered | muted
  deriving DecidableEq, Repr

/-- What the bridge keeps per DN: poll and attention state, the interval count of R99 with the interval it counts, the STORM that a commit
changed with the 1 ms interval in which it still applies (R122), the serial of the ACK-ATTN queued for the present delivery (R146), the last
sample's ATTN for watch rules, and the telemetry digest (R149). -/
structure Dn where
  poll : PollSt := .wait
  attn : AttnSt := .clear
  interval : Nat := 0
  count : Nat := 0
  storm : Option (Nat × Nat) := none
  ackFor : Option Nat := none
  lastAttn : Bool := false
  lastSample : List Byte := []
  digSeq : Nat := 0
  digLast : Option (List Byte) := none
  digTs : Option Nat := none
  deriving DecidableEq, Repr

/-! ### Access gates (chapter 11) -/

/-- The counters and the capture of one gate (R249). -/
structure GateRec where
  refused : Nat := 0
  nom : Nat := 0
  valid : Bool := false
  cause : Nat := 0
  id : Nat := 0
  addr : Nat := 0
  deriving DecidableEq, Repr

/-- Landing grains held (R208): the pool 3 × class + type (0 P, 1 N, 2 K), and the grains from its floor, from the shared remainder and
from the oversize reserve. -/
structure Hold where
  pool : Nat := 0
  fl : Nat := 0
  sh : Nat := 0
  ovs : Nat := 0
  deriving DecidableEq, Repr

/-! ### Bridge instances (chapter 12) -/

/-- Instance states (Table 12.7). -/
inductive InstSt
  | free | active | drain | squash
  deriving DecidableEq, Repr

/-- A range of indices that an instance owns: type (0 DN, 1 window, 2 key slot), first index, count (R256). -/
structure Range where
  kind : Nat
  first : Nat
  count : Nat
  deriving DecidableEq, Repr

/-- A bridge instance: its draws from the pools (Table 12.1), requester ID, assigned ranges, reset in progress with the ring slots
whose results it owes (slot, phase), entries squashed, the C0 bucket (R192) in units of 1/65,536 token with its HELD and PASSED counts,
and the passes of R158. -/
structure Inst where
  st : InstSt := .free
  reqId : BitVec 20 := 0
  jquota : Nat := 0
  lquota : Nat := 0
  weight : Nat := 0
  winallow : Nat := 0
  dnallow : Nat := 0
  keyallow : Nat := 0
  c0rate : Nat := 0
  c0depth : Nat := 0
  owned : List Range := []
  destroying : Bool := false
  escalated : Bool := false
  owed : List (Nat × Bool) := []
  squashed : Nat := 0
  c0tokens : Nat := 0
  c0held : Nat := 0
  c0passed : Nat := 0
  dispPass : Nat := 0
  cycles : Nat := 0
  deriving DecidableEq, Repr

/-- States of the management queue (MGT_STAT.STATE). -/
inductive MgtSt
  | off | run | fault
  deriving DecidableEq, Repr

/-- The management queue (R257): state, head, ring phase, whether a command's fetch is out, the command fetched with its slot and phase,
the range list of a CREATE as far as it has come (whether a part is out, and the status of a failed fetch), the grains that its MRD holds
(R209), held result writes (slot, 8 bytes, and whether of a RESET or DESTROY). -/
structure Mgt where
  st : MgtSt := .off
  head : Nat := 0
  phase : Bool := true
  fetching : Bool := false
  cmd : Option (List Byte) := none
  slot : Nat := 0
  slotPhase : Bool := true
  list : List Byte := []
  listOut : Bool := false
  listErr : Nat := 0
  hold : Hold := {}
  heldRes : List (Nat × List Byte × Bool) := []
  deriving DecidableEq, Repr

/-! ### Keys and transform units (chapter 10) -/

/-- States of a key slot (R229). -/
inductive SlotSt
  | empty | valid | loading
  deriving DecidableEq, Repr

/-- A key slot: its state and its 64 key bytes. -/
structure KeySlot where
  st : SlotSt := .empty
  key : List Byte := []
  deriving DecidableEq, Repr

/-- A running key load of a mailbox (R231): the slot, the identity that wrote the command, the KEK it unwraps under, the grain that its MRD
holds (R209), and the Thaty status and bytes that it brought. -/
structure Mbox where
  slot : Nat := 0
  ident : Nat := 0
  kek : List Byte := []
  hold : Hold := {}
  got : Option (Nat × List Byte) := none
  deriving DecidableEq, Repr

/-- The CMP block: KEKs by instance, staged KEK words, key slots, running key loads, retired units (FUn: n, CUn: 8 + n), the chunk that each busy
unit runs, by the JE and the admission serial of its CCD (R234), and per unit the GLB_TS of the chunks in which its checks failed. -/
structure Cmp where
  keks : FMap (List Byte) := []
  staged : FMap Word := []
  slots : FMap KeySlot := []
  mboxes : FMap Mbox := []
  retired : List Nat := []
  busy : FMap (Nat × Nat) := []
  fails : List (Nat × Nat) := []
  deriving DecidableEq, Repr

/-! ### Image and settings (chapter 15) -/

/-- What a settings copy holds beside its seeds (Table 15.7, Table 15.8). `fatals` holds 64-byte records, newest last. -/
structure Settings where
  prefer : Bool := false
  trial : Bool := false
  bootsA : Nat := 0
  bootsB : Nat := 0
  soft : List Repair := []
  fatals : List (List Byte) := []
  fatalNext : Nat := 0
  deriving DecidableEq, Repr

/-- The image block: how far LOAD has come (the last step of Table 15.5 that ended), the flash as discovered, the bridge's own copy of
the settings but for its repair records (R343, R344), the current copy `cur` with its SEQ, validity and place, the copy that a write
programs (`writing`, with how many waiting records it takes), the slot tried first and the slot being tried with its bytes, whether this
LOAD is a trial, the running slot, a running flash command (OP, address, slot) with the buffer when it was given, fuses, a running SVN
burn, the templates and microcode of the running image, calibration seeds by lane, and whether the Journal and the Landing pool have
been formed. -/
structure Img where
  step : Nat := 0
  flashOk : Bool := false
  flashSize : Nat := 0
  prefer : Bool := false
  trial : Bool := false
  bootsA : Nat := 0
  bootsB : Nat := 0
  fatals : List (List Byte) := []
  fatalNext : Nat := 0
  cur : Settings := {}
  setSeq : Nat := 0
  setValid : Bool := false
  setCurY : Bool := false
  force : Bool := false
  writing : Option Settings := none
  setTake : Nat := 0
  lastSet : Option Nat := none
  first : Nat := 0
  slot : Nat := 0
  second : Bool := false
  wasTrial : Bool := false
  image : List Byte := []
  running : Option Nat := none
  flCmd : Option (Nat × Nat × Nat) := none
  flData : List Byte := []
  minSvn : Nat := 0
  keyHash : List Byte := []
  factory : Bool := false
  svnBurn : Option Nat := none
  templates : FMap (List Byte) := []
  microcode : List Byte := []
  seeds : FMap Nat := []
  formed : Bool := false
  deriving DecidableEq, Repr

/-- The Landing pool as the memory view of R367 shows it: bytes that accesses of the service path or the debug master wrote, and the admission serial
since which they stand (`epoch`; 0: since LOAD wrote zeros, R339). Traffic overwrites grains at places that the spec leaves open. -/
structure Land where
  cells : FMap Byte := []
  epoch : Nat := 0
  deriving DecidableEq, Repr

/-- The test access port (R365, R366): the instruction, and the access engine's last access with its STATUS. -/
structure Tap where
  ir : Byte := 1
  data : Nat := 0
  addr : Nat := 0
  wr : Bool := false
  space : Bool := false
  status : Nat := 0
  deriving DecidableEq, Repr

/-- What is cut: the Gulum address of byte 0, a multiple of 8; the number of bytes, a multiple of 8; the swap unit; the enables of
the first and last granule (bit `i`: byte `i`). -/
structure CutSpec where
  base : Nat
  n : Nat
  u : Nat
  fm : Nat
  lm : Nat
  deriving DecidableEq, Repr

/-! ### Operations, contexts, queue pairs (chapters 6, 7, 9) -/


/-- A CCD (Table 6.3). -/
structure Ccd where
  op : Nat := 0
  chain : Bool := false
  span : Bool := false
  shortok : Bool := false
  cmp : Bool := false
  enc : Bool := false
  pst : Bool := false
  dn : Nat := 0
  count : Nat := 0
  data : Nat := 0
  gaddr : Nat := 0
  dus : Nat := 0
  keyslot : Nat := 0
  aux : Nat := 0
  lbn : Nat := 0
  gcount : Nat := 0
  deriving DecidableEq, Repr

/-- What the bridge holds for a CCD beyond its Journal entry (in its context and its Landing allocation): the CCD, its address, queue
pair, program tag and IMM; the stages of its data (`s0` host bytes of a WRITE or device bytes of a READ, `s1` after the first transform,
`s2` after the second), the host bytes asked for (and the spans fetched) and written, the bits of a compressed stream that do not yet fill a byte, whether the
stages have ended; a WAIT-ATTN's wait, its sample, and the serial of the ACK-ATTN that it waits for; a LOCKED-RMW's operands and old value; keyUse while the CCD is in the use count of
its key slot; `segEnds` lists, for a WRITE with CMP, where the output of each segment ends (R208); `relock` where a retirement ended its lock, so that it starts again with a fresh age (R94); the units on which its present Fulling chunk and its present cipher chunk failed (R236). `segs` counts the segments that a WRITE has
compressed, or the bytes that a READ has decompressed. -/
structure CcdX where
  c : Ccd
  addr : Nat
  q : Nat
  ptag : Nat
  imm : Bool
  ctx : Nat
  s0 : List Byte := []
  s1 : List Byte := []
  s2 : List Byte := []
  segs : Nat := 0
  segEnds : List Nat := []
  bitsLeft : List Bool := []
  end1 : Bool := false
  end2 : Bool := false
  hasked : Nat := 0
  spans : List (Nat × Nat) := []
  fetching : Bool := false
  hdone : Nat := 0
  endShort : Bool := false
  excess : Bool := false
  detail : Nat := 0
  waiting : Bool := false
  ackOf : Option Nat := none
  since : Nat := 0
  sample : Option (List Byte) := none
  operands : List Byte := []
  newVal : Option Nat := none
  old : Option (List Byte) := none
  last : List Byte := []
  keyUse : Bool := false
  relock : Bool := false
  bad : List Nat := []
  cbad : List Nat := []
  deriving DecidableEq, Repr

/-- An operation that is not yet over, by JE: its target, what is cut and how, its identity at G_PORT, the request or UP frame behind it,
its data in request order, the read data by far-side offset, where the next piece is looked for, the piece at hand, and its first
failure (Gulum address, GLB_TS, its number in the order of failures, counted from one, status as Table 3.7 codes it, the STATUS record, and the bytes
that the failing piece did transfer). `tdn`: the target DN of a peer transfer, as its window named it at admission (R122). `judged`: all its
pieces were judged as they were cut, and `bad` lists where the refused ones start (R246).
`done`: the far side has ended. `silent`: nothing is owed any more (R115, R378). `c0wait`: a Hub transfer of it is held for tokens (R192);
`crossed`: the transfer of the piece at hand has been formed; `took`: the grains for its read data are held (R208). -/
structure Op where
  port : Nat := 0
  daddr : Nat := 0
  cut : CutSpec := { base := 0, n := 0, u := 1, fm := 0, lm := 0 }
  maxb : Nat := 64
  bound : Nat := 256
  wr : Bool := false
  ident : Nat := 0
  hdr : Option ReqHdr := none
  link : Nat := 0
  age : Nat := 0
  frame : Option Frame := none
  sport : Nat := 0
  sdaddr : Nat := 0
  tdn : Nat := 0
  np : Bool := false
  data : List Byte := []
  parts : List (Nat × List Byte) := []
  pos : Nat := 0
  cur : Option (Nat × Nat) := none
  closed : Nat := 0
  stop : Bool := false
  judged : Bool := false
  bad : List Nat := []
  failG : Option Nat := none
  failTs : Nat := 0
  failNo : Nat := 0
  fst : Nat := 0
  failDone : Nat := 0
  status : List Byte := []
  hold : Hold := {}
  area : Hold := {}
  c0wait : Bool := false
  crossed : Bool := false
  took : Bool := false
  ctx : Option Nat := none
  x : Option CcdX := none
  posted : Bool := false
  inflight : Bool := false
  done : Bool := false
  silent : Bool := false
  noticed : Bool := false
  deriving DecidableEq, Repr

/-- What a context does: it waits for its start entry, it may fetch the CCD at its address, that CCD's read is out, it runs the operation
of a JE, or it waits to be rebuilt on another engine (R163, R164). -/
inductive CtxSt
  | start | ready | fetching | run
  deriving DecidableEq, Repr

/-- A context of an engine (R156): a program of a queue pair, or one engine-path access (`access`). `je` is the reserved or running
Journal entry; `got` what its last read of host memory brought, as (Thaty status, bytes); `span` the OP and next device byte that a CCD
with SPAN leaves to its successor; `moving` marks a context not yet rebuilt, `stale` one whose start entry was asked for before its queue
pair was enabled anew. -/
structure Ctx where
  eng : Nat := 0x7F
  inst : Nat := 0
  q : Nat := 0
  access : Bool := false
  st : CtxSt := .start
  ptag : Nat := 0
  imm : Bool := false
  addr : Nat := 0
  jumps : Nat := 0
  je : Option Nat := none
  slot : Bool := false
  got : Option (Nat × List Byte) := none
  span : Option (Nat × Nat) := none
  hold : Hold := {}
  moving : Bool := false
  stale : Bool := false
  since : Nat := 0
  retries : Nat := 0
  deriving DecidableEq, Repr

/-- What a queue pair keeps beside its registers: whether the CQ is armed, entries since its last EVENT, its coalescing timer, an EVENT
that waits for held writes, the start entries that wait, as runs (number, GLB_TS of their doorbell) with the oldest first (R158), and
completions held in FAULT (R129). -/
structure Qp where
  armed : Bool := false
  n : Nat := 0
  timer : Bool := false
  evPend : Bool := false
  doors : List (Nat × Nat) := []
  held : List Nat := []
  deriving DecidableEq, Repr

/-- The Posted Error Log and FENCE of an instance: notices that wait, in the order of their failures, the posted writes that the pending
fence still covers (JE, serial), and the notices written for covered writes and for later ones (R151, R152). -/
structure Pel where
  waiting : List Nat := []
  cover : List (Nat × Nat) := []
  counted : Nat := 0
  later : Nat := 0
  deriving DecidableEq, Repr

/-- An attention or status tunnel EVENT that waits for the writes of its DN that were admitted before it, those with a serial below `upTo`
(R205), or the completion queue EVENT that follows such a one (R145); `inp` and `sub` name the Hub input that it enters at. -/
structure EvWait where
  dn : Nat
  upTo : Nat
  inp : Nat
  sub : Nat
  inst : Nat
  code : Nat
  vc : Nat
  add : Nat
  body : List Byte
  deriving DecidableEq, Repr

/-- What leaves the bridge during one command. -/
inductive Output
  | packet (link : Nat) (p : Packet)
  | block (link : Nat) (bytes : List Byte)
  | frame (port member : Nat) (f : Frame)
  | bcs (r : BcsReq) (res : BcsRes)
  | smb (bytes : List Byte)
  | smbNack
  | tdo (bits : Nat)
  | avs (rail mv : Nat)
  | alive (level : Bool)
  | flashErase (addr len : Nat)
  | flashProgram (addr : Nat) (bytes : List Byte)
  deriving DecidableEq, Repr

end Sys2Proof.Machine
end

