-- ==== Sys2Proof/Machine/State.lean ====
section
/-! DEFINITION. The state of the bridge as plain data, its value at reset, and the ways in which a command can stop. -/

namespace Sys2Proof.Machine

/-- Why a command can stop with a fault. -/
inductive Fault
  /-- A register write that is performed carries a 1 in a PRSV bit, which reads 0 (R35: the bridge's behaviour is not specified).
  Raised by every command that performs a register write. Safe: the model stops where the spec gives no effect. -/
  | prsvWrite
  deriving DecidableEq, Repr

/-- Why a command can be refused. -/
inductive Refusal
  /-- The command has no meaning yet. Raised by the dispatcher only. Safe. -/
  | notModelled (mnemonic : String)
  deriving DecidableEq, Repr

/-- The state of the bridge. -/
structure State where
  /-- Mode and phase (R305). -/
  mode : Mode := .reset
  phase : Phase := .steady
  /-- GLB_TS (R36), 64 bits. -/
  ts : Nat := 0
  /-- Commands that wait, oldest first (the model's own). -/
  pending : List Instr := []
  /-- What the last command sent out of the bridge (the model's own). -/
  outp : List Output := []
  /-- The model's own source of free values: how many have been drawn, and the next. -/
  freeCount : Nat := 0
  freeNext : Nat := 0
  /-- Register words by BCS offset: committed values, RWS shadows (R29), and the full _HI shadows of pairs (R20). -/
  regs : FMap Word := []
  shadow : FMap Word := []
  hiShadow : FMap Word := []
  /-- Pending first halves of keyed pairs, by block base (R32). -/
  keyPend : FMap KeyPend := []
  strobe : Strobe := {}
  /-- Register accesses that wait (R23, R24, R30, R308), oldest first; KST and IMG accesses in the crossing, oldest first. -/
  bcsWait : List BcsReq := []
  slowQ : List (BcsReq × BcsRes) := []
  flt : Flt := {}
  bst : Bst := {}
  pwr : Pwr := {}
  kst : Kst := {}
  links : FMap Link := []
  tbl : Tables := {}
  ports : FMap Port := []
  daddrs : FMap Daddr := []
  dns : FMap Dn := []
  gates : FMap GateRec := []
  insts : FMap Inst := []
  mgt : Mgt := {}
  cmp : Cmp := {}
  img : Img := {}
  land : Land := {}
  tap : Tap := {}
  engs : FMap Eng := []
  jnl : Jnl := {}
  hub : Hub := {}
  /-- Operations by JE, contexts by number, queue pairs by 4 × instance + Q, logs by instance. -/
  ops : FMap Op := []
  ctxs : FMap Ctx := []
  nextCtx : Nat := 0
  qps : FMap Qp := []
  pels : FMap Pel := []
  evWait : List EvWait := []
  /-- Landing grains withheld under R220, by sub-bank. -/
  landOut : List Nat := []
  deriving DecidableEq, Repr

/-- The bridge with PERST_N asserted: every register at its reset value, every queue empty. -/
def State.reset : State := {}

end Sys2Proof.Machine
end

