-- ==== Sys2Proof/Machine/Ops.lean ====
section
/-! DEFINITION. The named operations that every meaning uses: register fields, outputs, free values. -/

namespace Sys2Proof.Machine

/-- BCS offset of the register `id` at index `i`. -/
def regOff (id : RegId) (i : Nat) : Nat :=
  let r := id.row
  r.block.base + r.off + i / r.n2 * r.s1 + i % r.n2 * r.s2

/-- The register at a word offset `rel` of a block, from a list of candidates, with its index. -/
def findReg (rel : Nat) : List RegId → Option (RegId × Nat)
  | [] => none
  | id :: ids =>
    let r := id.row
    let d := rel - r.off
    if r.off ≤ rel ∧ d / r.s1 < r.n1 ∧ d % r.s1 / r.s2 < r.n2 ∧ d % r.s1 % r.s2 = 0 then
      some (id, d / r.s1 * r.n2 + d % r.s1 / r.s2)
    else findReg rel ids

/-- The aliased span of a block is four times its size; the others have none (R16). -/
def Block.aliased : Block → Bool
  | .wtt | .dvt | .gate | .bi => false
  | _ => true

/-- The whole span of a block (Table 2.1). -/
def Block.span (b : Block) : Nat := if b.aliased then 4 * b.size else b.size

/-- The blocks, in the order of Table 2.1. -/
def blocks : List Block :=
  [.glb, .upd, .flt, .bst, .pwr, .kst, .img, .hub, .tlk, .jnl, .eng, .cmp, .mgt, .gpt, .wtt, .dvt, .gate, .bi]

/-- The block that holds a BCS offset. -/
def blockAt (off : Nat) : Option Block := blocks.find? fun b => b.base ≤ off && off < b.base + b.span

/-- The register whose word lies at a base offset of the BCS. -/
def regAt (off : Nat) : Option (RegId × Nat) :=
  match blockAt off with
  | none => none
  | some b => findReg (off - b.base) b.regs

/-- A register word with the field [hi:lo] replaced. -/
def setBits (hi lo v : Nat) (w : Word) : Word :=
  let n := w.toNat
  BitVec.ofNat 32 (n - bits hi lo n * 2 ^ lo + v % 2 ^ (hi + 1 - lo) * 2 ^ lo)

/-- An entry changed from `old` at time `t`: `since` moves when STATE, PROGRESS, RETRY or ENGINE changed (R214). -/
def JEntry.stamp (e old : JEntry) (t : Nat) : JEntry :=
  if e.st == old.st && e.progress == old.progress && e.retry == old.retry && e.eng == old.eng then e else { e with since := t }

namespace State

/-- The stored (committed) word of a register. -/
def reg (s : State) (id : RegId) (i : Nat := 0) : Word := FMap.get id.row.reset (regOff id i) s.regs

/-- Sets the stored word of a register. -/
def setReg (s : State) (id : RegId) (i : Nat) (w : Word) : State :=
  { s with regs := FMap.set id.row.reset (regOff id i) w s.regs }

/-- The shadow word of a register with RWS fields (R29). -/
def shadowReg (s : State) (id : RegId) (i : Nat := 0) : Word := FMap.get id.row.reset (regOff id i) s.shadow

/-- Sets the shadow word of a register. -/
def setShadow (s : State) (id : RegId) (i : Nat) (w : Word) : State :=
  { s with shadow := FMap.set id.row.reset (regOff id i) w s.shadow }

/-- The stored value of a field. -/
def f (s : State) (x : Fld) (i : Nat := 0) : Nat := bits x.hi x.lo (s.reg x.id i).toNat

/-- A one-bit field as a truth value. -/
def fb (s : State) (x : Fld) (i : Nat := 0) : Bool := s.f x i ≠ 0

/-- Sets a stored field. -/
def setF (s : State) (x : Fld) (v : Nat) (i : Nat := 0) : State := s.setReg x.id i (setBits x.hi x.lo v (s.reg x.id i))

/-- Sets a field both in the committed word and in the shadow, as the image does (R339). -/
def setImg (s : State) (x : Fld) (v : Nat) (i : Nat := 0) : State :=
  (s.setF x v i).setShadow x.id i (setBits x.hi x.lo v (s.shadowReg x.id i))

/-- Steps a saturating counter field (R28). -/
def incF (s : State) (x : Fld) (i : Nat := 0) (n : Nat := 1) : State :=
  s.setF x (min (s.f x i + n) (2 ^ (x.hi + 1 - x.lo) - 1)) i

/-- Raises a field to a value that is larger. -/
def maxF (s : State) (x : Fld) (v : Nat) (i : Nat := 0) : State :=
  s.setF x (max (s.f x i) (min v (2 ^ (x.hi + 1 - x.lo) - 1))) i

/-- A 64-bit value of a pair from its two fields, low word first. -/
def pair (s : State) (lo hi : Fld) (i : Nat := 0) : Nat := s.f lo i * 2 ^ lo.lo + s.f hi i * 2 ^ 32

/-- Sets both words of a pair whose fields are whole words. -/
def setPair (s : State) (lo hi : Fld) (v : Nat) (i : Nat := 0) : State := (s.setF lo v i).setF hi (v / 2 ^ 32) i

/-- Appends to what the command sends out. -/
def emit (s : State) (o : Output) : State := { s with outp := s.outp ++ [o] }

/-- The start of every command: nothing has gone out yet, and no fault was captured on this edge. -/
def start (s : State) : State := { s with outp := [], flt := { s.flt with firstNow := false, haltNow := false } }

/-- The next free value (log entry 4). -/
def free (s : State) : Nat := s.freeNext

/-- The state after a free value has been drawn. -/
def draw (s : State) : State := { s with freeNext := Config.freeNat s.freeCount, freeCount := s.freeCount + 1 }

/-- GLB_MODE as read (GLB_MODE.MODE; RESET is never read). -/
def modeCode (m : Mode) : Nat :=
  match m with
  | .reset => 0 | .load => 1 | .run => 2 | .doze => 3 | .service => 4 | .halt => 5

/-- A link. -/
def link (s : State) (l : Nat) : Link := FMap.get {} l s.links

/-- Changes a link. -/
def modLink (s : State) (l : Nat) (g : Link → Link) : State := { s with links := FMap.mod {} l g s.links }

/-- An engine. -/
def eng (s : State) (e : Nat) : Eng := FMap.get {} e s.engs

/-- Changes an engine. -/
def modEng (s : State) (e : Nat) (g : Eng → Eng) : State := { s with engs := FMap.mod {} e g s.engs }

/-- A Journal entry; a JE that is not listed is FREE. -/
def entry (s : State) (je : Nat) : JEntry := FMap.get {} je s.jnl.entries

/-- Changes the Journal. -/
def modJnl (s : State) (g : Jnl → Jnl) : State := { s with jnl := g s.jnl }

/-- A change of a Journal entry goes through the Journal writer's buffer of 64 changes (R194); changes beyond these wait for it. -/
def jwChange (s : State) : State := { s with hub := { s.hub with jw := s.hub.jw + 1 } }

/-- Changes a Journal entry (R166: one change at a time), noting when a field that the watchdog observes changes (R214). -/
def modEntry (s : State) (je : Nat) (g : JEntry → JEntry) : State :=
  (s.modJnl fun j => { j with entries := FMap.mod {} je (fun e => (g e).stamp e s.ts) j.entries }).jwChange

/-- Changes the power record. -/
def modPwr (s : State) (g : Pwr → Pwr) : State := { s with pwr := g s.pwr }

/-- Changes the Kickstand record. -/
def modKst (s : State) (g : Kst → Kst) : State := { s with kst := g s.kst }

/-- Changes the self-test record. -/
def modBst (s : State) (g : Bst → Bst) : State := { s with bst := g s.bst }

/-- Changes the fault record. -/
def modFlt (s : State) (g : Flt → Flt) : State := { s with flt := g s.flt }

end State

end Sys2Proof.Machine
end

