-- ==== Sys2Proof/Machine/Wire.lean ====
section
/-! DEFINITION. The forms of Thaty packets and link blocks as bytes (R41, R42, R45 to R49), and CRC-32C. -/

namespace Sys2Proof.Machine

/-- One bit step of the reflected CRC-32C register (log entry 21). -/
def crcStep (c : Nat) : Nat := if c % 2 = 1 then Nat.xor (c / 2) 0x82F63B78 else c / 2

/-- One byte step of the CRC-32C register. -/
def crcByte (c : Nat) (b : Byte) : Nat :=
  crcStep (crcStep (crcStep (crcStep (crcStep (crcStep (crcStep (crcStep (Nat.xor c b.toNat))))))))

/-- CRC-32C over bytes (R41, R82). -/
def crc32c (bs : List Byte) : Word :=
  BitVec.ofNat 32 (Nat.xor (bs.foldl crcByte 0xFFFFFFFF) 0xFFFFFFFF)

/-- Granules of a coded LEN: 0 encodes 512 (Table 3.4, Table 3.5). -/
def granulesOf (len : Nat) : Nat := if len = 0 then 512 else len

/-- The coded LEN of a number of granules, 1 to 512. -/
def codeLen (n : Nat) : BitVec 10 := BitVec.ofNat 10 (n % 512)

/-- Request header as four words (Table 3.4). -/
def reqBytes (h : ReqHdr) (ty : Nat) : List Byte :=
  natBytes 4 (ty * 2 ^ 28 + h.vc.val * 2 ^ 26 + b2n h.priv * 2 ^ 25 + b2n h.np * 2 ^ 24 + b2n h.poison * 2 ^ 23 + h.reqId.toNat)
  ++ natBytes 4 (h.tag.toNat * 2 ^ 16 + h.fbe.toNat * 2 ^ 8 + h.lbe.toNat)
  ++ natBytes 4 (h.len.toNat * 2 ^ 22 + h.addr.toNat / 2 ^ 35)
  ++ natBytes 4 (h.addr.toNat / 8 % 2 ^ 32)

/-- Completion header as four words (Table 3.5). -/
def cplBytes (h : CplHdr) (ty : Nat) : List Byte :=
  natBytes 4 (ty * 2 ^ 28 + h.vc.val * 2 ^ 26 + b2n h.poison * 2 ^ 23 + h.destId.toNat)
  ++ natBytes 4 (h.tag.toNat * 2 ^ 16 + h.status.toNat * 2 ^ 12 + b2n h.last * 2 ^ 11 + h.len.toNat)
  ++ natBytes 4 (h.cmplId.toNat * 2 ^ 12 + h.offset.toNat)
  ++ natBytes 4 0

/-- Message header as four words (Table 3.6). -/
def msgBytes (h : MsgHdr) : List Byte :=
  natBytes 4 (8 * 2 ^ 28 + h.vc.val * 2 ^ 26 + b2n h.priv * 2 ^ 25 + h.destId.toNat)
  ++ natBytes 4 (h.code.toNat * 2 ^ 24 + h.len.toNat)
  ++ natBytes 4 (h.srcId.toNat * 2 ^ 12)
  ++ natBytes 4 h.arg.toNat

/-- A packet as bytes of the packet stream. -/
def packetBytes : Packet → List Byte
  | .mrd h => reqBytes h 1
  | .mwr h d => reqBytes h 2 ++ d
  | .cpl h d => cplBytes h 4 ++ d
  | .cpld h d => cplBytes h 5 ++ d
  | .msg h d => msgBytes h ++ d

/-- Virtual channel of a packet. -/
def packetVc : Packet → Nat
  | .mrd h => h.vc.val
  | .mwr h _ => h.vc.val
  | .cpl h _ => h.vc.val
  | .cpld h _ => h.vc.val
  | .msg h _ => h.vc.val

/-- Whether a packet is posted (R59): MWR with NP = 0, and MSG. -/
def packetPosted : Packet → Bool
  | .mwr h _ => !h.np
  | .msg _ _ => true
  | _ => false

/-- Whether a packet uses non-posted credits (R59). -/
def packetNp : Packet → Bool
  | .mrd _ => true
  | .mwr h _ => h.np
  | _ => false

/-- Payload bytes of a packet. -/
def packetPayload : Packet → Nat
  | .mrd _ => 0
  | .mwr _ d => d.length
  | .cpl _ d => d.length
  | .cpld _ d => d.length
  | .msg _ d => d.length

/-- The credits that a packet uses, as (credit key, count): keys are 4 × VC + 0 PH, 1 PD, 2 NPH, 3 NPD (R59). -/
def packetCredits (p : Packet) : List (Nat × Nat) :=
  let v := 4 * packetVc p
  let d := ceilDiv (packetPayload p) 64
  if packetPosted p then [(v, 1), (v + 1, d)]
  else if packetNp p then [(v + 2, 1), (v + 3, d)]
  else []

/-- The credits that a received packet gives back as it leaves the link receive buffer (R60). -/
def packetReturns (p : Packet) : List (Nat × Nat) := (packetCredits p).filter fun c => 0 < c.2

/-- Payload length in bytes that a header calls for, by TYPE (R47, R48); none for a reserved TYPE (R49). -/
def payloadOf (w0 w1 w2 : Nat) : Option Nat :=
  match w0 / 2 ^ 28 with
  | 1 => some 0
  | 2 => some (8 * granulesOf (w2 / 2 ^ 22))
  | 4 => some (if w1 / 2 ^ 12 % 16 = 3 then 8 * (w1 % 2 ^ 10) else 0)
  | 5 => some (8 * granulesOf (w1 % 2 ^ 10))
  | 8 => some (8 * (w1 % 16))
  | _ => none

/-- The packet that a header and payload spell; reserved fields are ignored (R49). -/
def packetOf (b : List Byte) : Option Packet :=
  let w0 := fieldAt 0 4 b
  let w1 := fieldAt 4 4 b
  let w2 := fieldAt 8 4 b
  let w3 := fieldAt 12 4 b
  let vc : Fin 4 := Fin.ofNat 4 (w0 / 2 ^ 26)
  let d := b.drop 16
  let req : ReqHdr := {
    vc := vc, priv := bit 25 w0, np := bit 24 w0, poison := bit 23 w0, reqId := BitVec.ofNat 20 w0,
    tag := BitVec.ofNat 16 (w1 / 2 ^ 16), fbe := BitVec.ofNat 8 (w1 / 2 ^ 8), lbe := BitVec.ofNat 8 w1,
    len := BitVec.ofNat 10 (w2 / 2 ^ 22), addr := BitVec.ofNat 56 (w2 % 2 ^ 21 * 2 ^ 35 + w3 * 8) }
  let cpl : CplHdr := {
    vc := vc, poison := bit 23 w0, destId := BitVec.ofNat 20 w0, tag := BitVec.ofNat 16 (w1 / 2 ^ 16),
    status := BitVec.ofNat 4 (w1 / 2 ^ 12), last := bit 11 w1, len := BitVec.ofNat 10 w1,
    cmplId := BitVec.ofNat 20 (w2 / 2 ^ 12), offset := BitVec.ofNat 9 w2 }
  let msg : MsgHdr := {
    vc := vc, priv := bit 25 w0, destId := BitVec.ofNat 20 w0, code := BitVec.ofNat 8 (w1 / 2 ^ 24),
    len := BitVec.ofNat 4 w1, srcId := BitVec.ofNat 20 (w2 / 2 ^ 12), arg := BitVec.ofNat 32 w3 }
  match w0 / 2 ^ 28 with
  | 1 => some (.mrd { req with np := false, poison := false })
  | 2 => some (.mwr req d)
  | 4 => some (.cpl { cpl with poison := false } d)
  | 5 => some (.cpld cpl d)
  | 8 => some (.msg msg d)
  | _ => none

/-- A link block's bytes 0 to 251 from its fields (Table 3.3). -/
def blockBody (seq btype ack : Nat) (nak : Bool) (fpo : Nat) (cr : Nat × Nat) (stream : List Byte) : List Byte :=
  natBytes 2 (seq * 16 + btype) ++ natBytes 2 (ack * 16 + b2n nak * 8) ++ natBytes 1 fpo ++ natBytes 1 0
  ++ natBytes 2 (cr.1 * 4096 + cr.2) ++ slice 0 244 stream

/-- A whole link block with its CRC. -/
def blockBytes (body : List Byte) : List Byte := body ++ natBytes 4 (crc32c body).toNat

/-- A stream cut into pieces of 244 bytes. -/
def chunk244 : Nat → List Byte → List (List Byte)
  | 0, _ => []
  | n + 1, bs => if bs.isEmpty then [] else slice 0 244 bs :: chunk244 n (bs.drop 244)

end Sys2Proof.Machine
end

