-- ==== Sys2Proof/Machine/Send.lean ====
section
/-! DEFINITION. Handing packets to Thaty egress and packing them into link blocks (R41 to R44, R50, R59, R61), and messages. -/

namespace Sys2Proof.Machine

/-- Whether a link sends packets now (R66). -/
def Link.flows (k : Link) : Bool := k.st == .up || k.st == .quiet

/-- Whether the credits that a packet needs are held (R59). -/
def haveCredits (m : FMap Nat) (p : Packet) : Bool :=
  (packetCredits p).all fun c => c.2 ≤ FMap.get 0 c.1 m

/-- The credits left after a packet is sent. -/
def useCredits (m : FMap Nat) (p : Packet) : FMap Nat :=
  (packetCredits p).foldl (fun m c => FMap.mod 0 c.1 (· - c.2) m) m

/-- The packets that may be sent now: a packet has its credits, and no earlier posted packet of its VC is left (Table 3.10: nothing passes a
posted packet; everything passes the rest). `seen` lists the VCs of posted packets that stand before. -/
def canTx (m : FMap Nat) : List Nat → List TxPkt → List TxPkt
  | _, [] => []
  | seen, t :: ts =>
    let rest := canTx m (if packetPosted t.pkt then packetVc t.pkt :: seen else seen) ts
    if !seen.contains (packetVc t.pkt) && haveCredits m t.pkt then t :: rest else rest

/-- Whether a packet goes before another (R183): the higher class, then the older Journal timestamp. -/
def TxPkt.before (a b : TxPkt) : Bool :=
  decide (a.cls < b.cls) || (a.cls == b.cls && (decide (a.age < b.age) || (a.age == b.age && decide (a.serial < b.serial))))

/-- The packet that goes first among some; of equals the one that was handed over first. -/
def firstTx : List TxPkt → Option TxPkt
  | [] => none
  | t :: ts =>
    match firstTx ts with
    | none => some t
    | some u => if u.before t then some u else some t

/-- The packet that is sent next (R183, R61), with the others in order. -/
def pickTx (m : FMap Nat) (ts : List TxPkt) : Option (TxPkt × List TxPkt) :=
  (firstTx (canTx m [] ts)).map fun t => (t, ts.erase t)

/-- A block goes on the link with the link's ACK and NAK (R43): every block acknowledges, and a NAK goes in one block. -/
def emitBlock (l seq btype fpo : Nat) (cr : Nat × Nat) (stream : List Byte) (s : State) : State :=
  let k := s.link l
  (s.modLink l fun k => { k with nak := false, ackDue := false }).emit
    (.block l (blockBytes (blockBody seq btype ((k.rxNext + 4095) % 4096) k.nak fpo cr stream)))

/-- A new DATA block is added to the unacknowledged blocks and put on the link, with the next credit return. `pkt`: the packet that
ends in it. -/
def sendBlock (l : Nat) (pkt : Option TxPkt) (fpo : Nat) (stream : List Byte) (s : State) : State :=
  let k := s.link l
  let cr := k.credRet.headD (0, 0)
  (emitBlock l k.txSeq 0 fpo cr stream s).modLink l fun k => { k with
    txSeq := (k.txSeq + 1) % 4096
    credRet := k.credRet.drop 1
    unacked := k.unacked ++ [{ seq := k.txSeq, fpo := fpo, cr := cr, stream := stream, pkt := pkt }] }

/-- The blocks of one packet: the first names the packet's start (R42), and the packet ends in the last. -/
def sendBlocks (l : Nat) (t : TxPkt) : Nat → List (List Byte) → State → State
  | _, [], s => s
  | fpo, [b], s => sendBlock l (some t) fpo b s
  | fpo, b :: bs, s => sendBlocks l t 0xFF bs (sendBlock l none fpo b s)

/-- Every unacknowledged block goes out again, in SEQ order, each with the credit return that it had (R43, R68). -/
def State.sendAgain (s : State) (l : Nat) : State :=
  (s.link l).unacked.foldl (fun s b => emitBlock l b.seq 0 b.fpo b.cr b.stream s) s

/-- A DATA block of filler alone, where an acknowledgement or a credit return waits and no packet carries it (R43, R60). -/
def State.idleBlock (s : State) (l : Nat) : State :=
  let k := s.link l
  if k.flows && (k.ackDue || k.nak || !k.credRet.isEmpty) && decide (k.unacked.length < 2048) then sendBlock l none 0xFF [] s else s

/-- Sends what the link can send now: credits, order, and at most 2,048 unacknowledged blocks (R43). -/
def pump (l : Nat) : Nat → State → State
  | 0, s => s
  | n + 1, s =>
    let k := s.link l
    if !k.flows then s else
    match pickTx k.txCred k.egress with
    | none => s
    | some (t, rest) =>
      let cs := chunk244 32 (packetBytes t.pkt)
      if k.unacked.length + cs.length > 2048 then s
      else pump l n (sendBlocks l t 0 cs
        (s.modLink l fun k => { k with egress := rest, txCred := useCredits k.txCred t.pkt }))

/-- Sends what a link holds and can send. -/
def State.pumpLink (s : State) (l : Nat) : State := pump l (s.link l).egress.length s

/-- The link that carries traffic for a link: the other one after failover (R69). -/
def State.route (s : State) (l : Nat) : Nat := if (s.link l).moved then 1 - l else l

/-- Hands a packet to Thaty egress (R50). -/
def State.handPkt (s : State) (l : Nat) (t : TxPkt) : State :=
  let l := s.route l
  ((s.emit (.packet l t.pkt)).modLink l fun k => { k with egress := k.egress ++ [t] }).pumpLink l

/-- A packet that no operation ranks, or whose operation this moment does: it ranks by its VC and the present time. -/
def State.txNow (s : State) (p : Packet) (frees : List Nat := []) : TxPkt :=
  { pkt := p, frees := frees, cls := packetVc p, age := s.ts, serial := s.jnl.serial }

/-- Hands such a packet to Thaty egress, with the Journal entries that its acknowledgement frees. -/
def State.handTx (s : State) (l : Nat) (p : Packet) (frees : List Nat := []) : State := s.handPkt l (s.txNow p frees)

/-- The bridge ID set by PLACE (R54). -/
def State.bridgeId (s : State) : BitVec 20 := BitVec.ofNat 20 (s.f Fld.tlkBridgeId_id)

/-- The header of a message that the bridge sends (R49: P is 0). -/
def State.msgHdr (s : State) (vc dest code arg : Nat) (body : List Byte) : MsgHdr :=
  { vc := Fin.ofNat 4 vc, priv := false, destId := BitVec.ofNat 20 dest, code := BitVec.ofNat 8 code
    len := BitVec.ofNat 4 (body.length / 8), srcId := s.bridgeId, arg := BitVec.ofNat 32 arg }

/-- Hands a message to Thaty egress; none is sent in HALT (R70) or in RESET. -/
def State.sendMsg (s : State) (l vc dest code arg : Nat) (body : List Byte) (frees : List Nat := []) : State :=
  if s.mode = .halt ∨ s.mode = .reset then s
  else s.handTx l (.msg (s.msgHdr vc dest code arg body) body) frees

/-- Index of a queue-page register with one instance per page. -/
def evVecIdx (inst code : Nat) : Nat := inst * 8 + (code - 1)

/-- Whether EVENTs of a code are on for an instance (EV_VEC_n.EN). -/
def State.evOn (s : State) (inst code : Nat) : Bool := s.fb Fld.evVec_en (evVecIdx inst code)

/-- An EVENT of an instance (R63): DEST from EV_DEST, VECTOR plus an offset, in the VC given. -/
def State.eventPkt (s : State) (inst code vc add : Nat) (body : List Byte) : Packet :=
  let vec := (s.f Fld.evVec_vector (evVecIdx inst code) + add) % 65536
  .msg (s.msgHdr vc (s.f Fld.evDest_dest inst) 1 (vec * 65536 + code * 256 + inst) body) body

/-- Sends an EVENT of an instance on the link of EV_DEST; none in HALT (R70) or in RESET. -/
def State.sendEventVc (s : State) (inst code vc add : Nat) (body : List Byte) : State :=
  if s.mode = .halt ∨ s.mode = .reset then s
  else s.handTx (s.f Fld.evDest_link inst) (s.eventPkt inst code vc add body)

/-- Sends an EVENT of an instance in the VC of its EV_VEC. -/
def State.sendEvent (s : State) (inst code : Nat) (body : List Byte) : State :=
  s.sendEventVc inst code (s.f Fld.evVec_vc (evVecIdx inst code)) 0 body

end Sys2Proof.Machine
end

