-- ==== Sys2Proof/Machine/Hooks.lean ====
section
/-! DEFINITION. What HALT and the fault collector need of other blocks: ports, key material, instances, and the fatal record. -/

namespace Sys2Proof.Machine

/-- An instance. -/
def State.inst (s : State) (i : Nat) : Inst := FMap.get {} i s.insts

/-- Changes an instance. -/
def State.modInst (s : State) (i : Nat) (g : Inst → Inst) : State := { s with insts := FMap.mod {} i g s.insts }

/-- Whether EVENTs may go to an instance: it is ACTIVE or in DRAIN (R265, R275). -/
def State.instHears (s : State) (i : Nat) : Bool := (s.inst i).st == .active || (s.inst i).st == .drain

/-- A logical port. -/
def State.port (s : State) (p : Nat) : Port := FMap.get {} p s.ports

/-- Changes a port. -/
def State.modPort (s : State) (p : Nat) (g : Port → Port) : State := { s with ports := FMap.mod {} p g s.ports }

/-- HALT at the ports (Table 4.17): training stops; the other states stay, and no exchange opens. -/
def State.haltPorts (s : State) : State :=
  { s with ports := s.ports.filterMap fun p =>
      let q := if p.2.st = .train then { p.2 with st := .down } else p.2
      if q = {} then none else some (p.1, q) }

/-- On entry to HALT every KEK and every key slot is cleared (R230), with what a running key load holds of them. -/
def State.clearKeys (s : State) : State := { s with cmp := { s.cmp with keks := [], slots := [], staged := [], mboxes := [] } }

/-- Changes the image block. -/
def State.modImg (s : State) (g : Img → Img) : State := { s with img := g s.img }

/-- BOOTS of the running slot. -/
def State.runBoots (s : State) : Nat :=
  match s.img.running with
  | some 0 => s.img.bootsA
  | some _ => s.img.bootsB
  | none => 0

/-- The fatal record of Table 15.9, from the registers written on the fatal edge. -/
def State.fatalRecord (s : State) : List Byte :=
  natBytes 4 (2 ^ 31 + s.f Fld.fltHalt_src)
  ++ natBytes 8 (s.pair Fld.fltHaltTsLo_ts Fld.fltHaltTsHi_ts)
  ++ natBytes 8 (s.pair Fld.fltHaltSynLo_syn Fld.fltHaltSynHi_syn)
  ++ natBytes 4 (s.f Fld.glbImgId_image_id)
  ++ natBytes 4 (s.runBoots * 65536)
  ++ natBytes 4 (s.f Fld.fltCntCe_count) ++ natBytes 4 (s.f Fld.fltCntUc_count) ++ natBytes 4 (s.f Fld.fltCntFt_count)
  ++ List.replicate 24 0

/-- One fatal record is added at HALT, and the oldest goes when 64 are held (R281, R344). -/
def State.addFatalRecord (s : State) : State :=
  (s.modImg fun m => { m with
    fatals := (m.fatals ++ [s.fatalRecord]).drop (m.fatals.length + 1 - 64)
    fatalNext := (m.fatalNext + 1) % 64 }).incF Fld.imgFatal_total

/-- The fatal record shows what the whole edge has written, where a later source of the fatal edge changes it. -/
def State.redoFatal (s : State) : State := s.modImg fun m => { m with fatals := m.fatals.dropLast ++ [s.fatalRecord] }

/-- The calibration seeds of `n` lanes from a lane on are captured (R344); what a seed holds is open. Lanes 0 to 31 are Thaty lanes, then the
Gulum lanes (Table 15.7). -/
def State.captureSeeds (s : State) (lane : Nat) : Nat → State
  | 0 => s
  | n + 1 =>
    let s := s.captureSeeds lane n
    (s.modImg fun m => { m with seeds := FMap.set 0 (lane + n) (s.free % 2 ^ 256) m.seeds }).draw

end Sys2Proof.Machine
end

