-- ==== Sys2Proof/Machine/Fault.lean ====
section
/-! DEFINITION. The fault collector (chapter 13): raising a source, the First Error Record, fault EVENTs, and the fatal edge. -/

namespace Sys2Proof.Machine

/-- Corrected sources of Table 13.2. -/
def ceSources : List Nat :=
  [0x000, 0x020, 0x021, 0x022, 0x023, 0x024, 0x040, 0x041, 0x042, 0x043, 0x060, 0x061, 0x062, 0x080, 0x081, 0x082, 0x083, 0x0C0,
   0x0C1, 0x0E0, 0x0E2, 0x100, 0x102, 0x120, 0x122, 0x160, 0x181, 0x1A0, 0x1A1, 0x1C0, 0x1C1, 0x1C2, 0x1C3, 0x1C4, 0x1C5]

/-- Uncorrected, contained sources of Table 13.2. -/
def ucSources : List Nat := [0x025, 0x063, 0x0A0, 0x0A1, 0x0C3, 0x0E1, 0x101, 0x121, 0x140, 0x161]

/-- Fatal sources of Table 13.2. -/
def ftSources : List Nat := [0x001, 0x026, 0x084, 0x085, 0x0C2, 0x103, 0x162, 0x180, 0x182, 0x183, 0x1A2, 0x1C6, 0x1E0]

/-- The class code of a source (Table 13.1); 0 where the source is not defined (R274). -/
def srcClass (src : Nat) : Nat :=
  if ftSources.contains src then 3 else if ucSources.contains src then 2 else if ceSources.contains src then 1 else 0

/-- The syndrome of a raised fault (Table 13.3). -/
def syndrome (unit : Nat) (inst je : Option Nat) (detail : Nat) : Nat :=
  unit % 2 ^ 11 * 2 ^ 53
  + (match inst with | some i => 2 ^ 52 + i % 256 * 2 ^ 44 | none => 0)
  + (match je with | some j => j % 2 ^ 22 * 2 ^ 22 + 2 ^ 21 | none => 0)
  + detail % 256

/-- The 1 ms interval of GLB_TS, which R99 and R275 align: 100,000 ticks of 10 ns. -/
def State.msNow (s : State) : Nat := s.ts / 100000

/-- Body of a fault EVENT (Table 13.4). -/
def State.faultBody (s : State) (src syn : Nat) : List Byte :=
  natBytes 4 (srcClass src * 2 ^ 30 + src) ++ natBytes 4 (s.ts % 2 ^ 32) ++ natBytes 8 syn

/-- One EVENT per source and destination in each 1 ms interval; a suppressed one steps FLT_EV_DROP (R275). -/
def State.faultEvent (s : State) (src dest : Nat) (send : State → State) : State :=
  if s.mode = .halt then s
  else if FMap.get 0 (src * 512 + dest) s.flt.last = s.msNow + 1 then s.incF Fld.fltEvDrop_count
  else send (s.modFlt fun f => { f with last := FMap.set 0 (src * 512 + dest) (s.msNow + 1) f.last })

/-- The EVENT to the fault destination (R275): destination number 256. -/
def State.faultDestEvent (s : State) (src syn : Nat) : State :=
  if s.fb Fld.fltEvDest_en then
    s.faultEvent src 256 fun s =>
      s.sendMsg (s.f Fld.fltEvDest_link) (s.f Fld.fltEvDest_vc) (s.f Fld.fltEvDest_dest) 1
        (s.f Fld.fltEvVec_vector * 65536 + 6 * 256) (s.faultBody src syn)
  else s

/-- The EVENT to the charged instance, when EV_VEC_6.EN is 1 and the instance is ACTIVE or in DRAIN (R275). -/
def State.faultInstEvent (s : State) (src syn inst : Nat) : State :=
  if s.evOn inst 6 && s.instHears inst then s.faultEvent src inst fun s => s.sendEvent inst 6 (s.faultBody src syn) else s

/-- The First Error Record (R276, R277): armed, it captures; a fault of the same command that ranks higher replaces one captured by
it, since a command stands for one edge; every other fault sets OVF. -/
def State.capture (s : State) (src syn : Nat) : State :=
  let write (s : State) : State :=
    ((((s.setF Fld.fltFirstSrc_valid 1).setF Fld.fltFirstSrc_class (srcClass src)).setF Fld.fltFirstSrc_src src).setPair
      Fld.fltFirstSynLo_syn Fld.fltFirstSynHi_syn syn).setPair Fld.fltFirstTsLo_ts Fld.fltFirstTsHi_ts s.ts
  if !s.fb Fld.fltFirstSrc_valid then (write s).modFlt fun f => { f with firstNow := true }
  else
    let s := s.setF Fld.fltFirstSrc_ovf 1
    let c := s.f Fld.fltFirstSrc_class
    if s.flt.firstNow && (c < srcClass src || (c = srcClass src && src < s.f Fld.fltFirstSrc_src)) then write s else s

/-- FLT_HALT and its companions, written on the fatal edge only (R280); several fatal sources rank as R277 gives. -/
def State.haltRecord (s : State) (src syn : Nat) : State :=
  if !s.fb Fld.fltHalt_valid || (s.flt.haltNow && src < s.f Fld.fltHalt_src) then
    ((((s.setF Fld.fltHalt_valid 1).setF Fld.fltHalt_src src).setPair Fld.fltHaltSynLo_syn Fld.fltHaltSynHi_syn syn).setPair
      Fld.fltHaltTsLo_ts Fld.fltHaltTsHi_ts s.ts).modFlt fun f => { f with haltNow := true }
  else s

/-- What HALT does to a link (Table 13.3's rows for HALT in Table 3.13): a QUIET link retrains at full width. -/
def State.haltLink (s : State) (l : Nat) : State :=
  if (s.link l).st = .quiet then
    (s.modLink l fun k => { k with st := .retrain, fullWidth := true }).incF Fld.tlkLinkCnt_retrains l
  else s

/-- The bridge enters HALT (R280): links as R70, ports as Table 4.17, key material cleared (R230), debug unlock ended (R253), ALIVE
holds its level (R282), a checker exercise ends as SERVICE is left (R284), and one fatal record waits for the settings area
(R281). The Journal, the slices and the transfers stand where they are (R177, R290). -/
def State.enterHalt (s : State) : State :=
  if s.mode = .halt then s else
  let s := { s with mode := .halt, phase := .steady }
  let s := (s.haltLink 0).haltLink 1
  let s := s.haltPorts.clearKeys.addFatalRecord
  let s := (s.setF Fld.gateDbgUnlock_unlock 0).setF Fld.gateDbgStat_unlocked 0
  s.modFlt fun f => { f with aliveRun := false, exLeft := 0 }

/-- The action of a source's class (R273): its counter, and the EVENTs or HALT. -/
def State.classAct (s : State) (src syn : Nat) (inst : Option Nat) : State :=
  match srcClass src with
  | 1 =>
    let s := s.incF Fld.fltCntCe_count
    if FMap.get false src s.flt.evEn then s.faultDestEvent src syn else s
  | 2 =>
    let s := (s.incF Fld.fltCntUc_count).faultDestEvent src syn
    match inst with | some i => s.faultInstEvent src syn i | none => s
  | 3 =>
    let s := s.incF Fld.fltCntFt_count
    if s.mode = .halt then (if s.flt.haltNow then s.haltRecord src syn else s)
    else (s.haltRecord src syn).enterHalt
  | _ => s

/-- A fault source is raised (R273): its class's counter, its own counter and FLT_HIGHEST step (R278), the capture is offered it, and
the action of its class follows. -/
def State.raise (s : State) (src : Nat) (unit : Nat := 0) (inst : Option Nat := none) (je : Option Nat := none) (detail : Nat := 0) :
    State :=
  if s.mode = .reset then s else
  let syn := syndrome unit inst je detail
  let c := srcClass src
  let s := s.modFlt fun f => { f with srcCnt := FMap.mod 0 src (fun n => min (n + 1) 65535) f.srcCnt }
  let s := s.maxF Fld.fltHighest_class c
  let s := s.capture src syn
  let s := s.classAct src syn inst
  if s.flt.haltNow then s.redoFatal else s

/-- Whether the checkers of a group of Table 13.6 see inverted check bits on their next check (R284). -/
def State.exOn (s : State) (g : Nat) : Bool := s.flt.exLeft != 0 && s.flt.exGroup == g

/-- How the next check of a SECDED group ends under an exercise: one inverted check bit is corrected, eight are not (R284). -/
def State.exKind (s : State) (g : Nat) (e : WordErr) : WordErr :=
  if s.exOn g then (if s.flt.exMode = 1 then .corrected else .uncorrectable) else e

/-- One check of a group is made; while an exercise of the group runs, it was one of the N (R284). -/
def State.exUse (s : State) (g : Nat) : State := if s.exOn g then s.modFlt fun f => { f with exLeft := f.exLeft - 1 } else s

end Sys2Proof.Machine
end

