-- ==== Sys2Proof/Machine/Gate.lean ====
section
/-! DEFINITION. Access gates (chapter 11): identities, regions, evaluation, reporting, and the strobe check. -/

namespace Sys2Proof.Machine

/-- Identity of a Thaty request or of a register access (Table 11.2). -/
def identOf (src : Src) (priv : Bool) (reqId : Nat) : Nat :=
  match src with
  | .tl0 | .tl1 => b2n priv * 2 ^ 20 + reqId
  | .svc => 2 ^ 22 + 2 ^ 20
  | .dbg => 2 ^ 22 + 2 ^ 21 + 2 ^ 20

/-- Identity of an UP frame: LEGACY, the lowest member of its port, and its device address. -/
def legacyIdent (port daddr : Nat) : Nat := 2 ^ 23 + port * 2 ^ 11 + daddr

/-- Numbers of the gates after the 144 ports (Table 11.1). -/
def gTlink (l : Nat) : Nat := 144 + l
def gBuf : Nat := 146
def gJnl : Nat := 147
def gCtl : Nat := 148
def gKey : Nat := 149

/-- Width of a gate's address space (Table 11.1). -/
def gateWidth (g : Nat) : Nat :=
  if g < 144 then 43 else if g < 146 then 56 else if g = 146 then 25 else if g = 147 then 35 else if g = 148 then 26 else 19

/-- A region as a gate sees it (R240): its bytes, identity match, and permissions. -/
structure Region where
  idx : Nat
  lo : Nat
  hi : Nat
  val : Nat
  mask : Nat
  rd : Bool
  wr : Bool
  lock : Bool
  deriving DecidableEq, Repr

/-- Region `r` of gate `g`, read through a function that gives register words. -/
def regionOf (word : RegId → Nat → Word) (g r : Nat) : Region :=
  let i := g * 64 + r
  let c := (word .gateRgnCtl i).toNat
  let base := (word .gateRgnBaseLo i).toNat / 4 * 4 + (word .gateRgnBaseHi i).toNat % 2 ^ 24 * 2 ^ 32
  let limit := (word .gateRgnLimitLo i).toNat / 4 * 4 + (word .gateRgnLimitHi i).toNat % 2 ^ 24 * 2 ^ 32
  { idx := r, lo := base, hi := limit + 3, val := (word .gateRgnIdVal i).toNat % 2 ^ 24
    mask := (word .gateRgnIdMask i).toNat % 2 ^ 24, rd := bit 30 c, wr := bit 29 c, lock := bit 28 c }

/-- The regions of gate `g` with EN = 1 in a register map; only listed words can have EN set, since regions reset to zero. -/
def enabledRegions (m : FMap Word) (g : Nat) : List Region :=
  let base := Block.gate.base + g * 0x800
  m.filterMap fun p =>
    if base ≤ p.1 ∧ p.1 < base + 0x800 ∧ p.1 % 32 = 0 ∧ bit 31 p.2.toNat then
      some (regionOf (fun id i => FMap.get id.row.reset (regOff id i) m) g ((p.1 - base) / 32))
    else none

/-- SERVICE entered because both image slots failed. -/
def State.rescued (s : State) : Bool := s.pwr.rescue && s.mode == .service

/-- The enabled regions of a gate; throughout rescue SERVICE none is enabled, whatever a strobe commits (R248, DESIGN CHOICE, log entry 91). -/
def State.regions (s : State) (g : Nat) : List Region := if s.rescued then [] else enabledRegions s.regs g

/-- The lowest edge above `a`: where a region begins, or just after which one ends (R117, R242); 2⁵⁶ when there is none. -/
def nextEdge (rs : List Region) (a : Nat) : Nat :=
  rs.foldl (fun m r =>
    let m := if a < r.lo then min m r.lo else m
    if a < r.hi + 1 then min m (r.hi + 1) else m) (2 ^ 56)

/-- Results of a gate. -/
inductive GRes
  | allow | noMatch | refuse | deny
  deriving DecidableEq, Repr

/-- The default map of a gate grants a kind (R248); kind RW needs both bits. Throughout rescue SERVICE every bit is 1. -/
def State.defmapGrants (s : State) (g : Nat) (rd wr : Bool) : Bool :=
  let m := s.f Fld.gateDefmap_map (g / 16)
  s.rescued || ((!rd || bit (2 * (g % 16)) m) && (!wr || bit (2 * (g % 16) + 1) m))

/-- `judge_part` (R242). RD is ignored in G_KEY and WR in G_JNL, whose accesses are of the other kind. -/
def State.judgePart (s : State) (g id p : Nat) (rd wr : Bool) : GRes :=
  match (s.regions g).find? fun r => r.lo ≤ p && p ≤ r.hi with
  | none => if bit 20 id && s.defmapGrants g rd wr then .allow else .noMatch
  | some r =>
    if bit 21 id && r.lock then
      if s.mode = .service && s.fb Fld.gateDbgUnlock_unlock then .allow else .deny
    else if Nat.land id r.mask = Nat.land r.val r.mask && (!rd || r.rd) && (!wr || r.wr) then .allow
    else .refuse

/-- The parts of an access (R242), each with its first byte and its result. -/
def State.judgeParts (s : State) (g id : Nat) (rd wr : Bool) (z : Nat) : Nat → Nat → List (Nat × GRes)
  | 0, _ => []
  | k + 1, a =>
    if z < a then [] else (a, s.judgePart g id a rd wr) :: s.judgeParts g id rd wr z k (nextEdge (s.regions g) a)

/-- What a gate decides about a whole access (R244): allowed; refused, with the first refused part; denied, with the first denied. -/
inductive Verdict
  | ok | bad (res : GRes) (addr : Nat) | denied (addr : Nat)
  deriving DecidableEq, Repr

/-- The decision over parts. -/
def verdictOf (ps : List (Nat × GRes)) : Verdict :=
  match ps.find? fun p => p.2 == .noMatch || p.2 == .refuse with
  | some p => .bad p.2 p.1
  | none => match ps.find? fun p => p.2 == .deny with | some p => .denied p.1 | none => .ok

/-- A gate evaluates an access of bytes `a` to `z`. Each region has two edges, so there are at most 2 × regions + 1 parts. -/
def State.judge (s : State) (g id a z : Nat) (rd wr : Bool) : Verdict :=
  verdictOf (s.judgeParts g id rd wr z (2 * (s.regions g).length + 2) a)

/-- The code of a result in GATE_LAST_ID.CAUSE. -/
def gresCode : GRes → Nat
  | .allow => 0 | .noMatch => 1 | .refuse => 2 | .deny => 3

/-- The first result at a gate since its capture was cleared is kept (R249). -/
def GateRec.capture (r : GateRec) (res : GRes) (id addr : Nat) : GateRec :=
  if r.valid then r else { r with valid := true, cause := gresCode res, id := id, addr := addr }

/-- Changes a gate's record. -/
def State.modGate (s : State) (g : Nat) (h : GateRec → GateRec) : State := { s with gates := FMap.mod {} g h s.gates }

/-- Reports a result other than ALLOW (R249, Table 11.6). -/
def State.gateReport (s : State) (g id addr : Nat) (res : GRes) (inst je : Option Nat := none) : State :=
  let s := s.modGate g fun r => r.capture res id addr
  match res with
  | .allow => s
  | .deny => s.incF Fld.gateDbgStat_denied
  | .refuse => (s.modGate g fun r => { r with refused := min (r.refused + 1) 65535 }).raise 0x122 g inst je
  | .noMatch =>
    (s.modGate g fun r => { r with nom := min (r.nom + 1) 65535 }).raise (if bit 20 id then 0x120 else 0x121) g inst je

/-- Judges an access whole and reports a refusal; whether it may be performed. -/
def State.gateCheck (s : State) (g id a z : Nat) (rd wr : Bool) (inst je : Option Nat := none) : Bool × State :=
  match s.judge g id a z rd wr with
  | .ok => (true, s)
  | .bad res addr => (false, s.gateReport g id addr res inst je)
  | .denied addr => (false, s.gateReport g id addr .deny inst je)

/-! ### The strobe check of GATE (R250) -/

/-- The gate whose regions hold a BCS offset. -/
def gateOfOff (k : Nat) : Option Nat :=
  if Block.gate.base ≤ k ∧ k < Block.gate.base + 150 * 0x800 then some ((k - Block.gate.base) / 0x800) else none

/-- The gates whose regions have pending changes, ascending and each once. -/
def State.changedGates (s : State) : List Nat :=
  let diff (k : Nat) : Bool := (FMap.get 0 k s.regs : Word) != FMap.get 0 k s.shadow
  let gs := ((s.regs.map (·.1)) ++ (s.shadow.map (·.1))).filterMap fun k => if diff k then gateOfOff k else none
  (List.range 150).filter gs.contains

/-- The first failure of a gate's pending regions, in the order of R250: (cause, region a, region b). A region whose LIMIT is below its BASE
covers no byte and shares none. -/
def gateFail (g : Nat) : List Region → Option (Nat × Nat × Nat)
  | [] => none
  | a :: bs =>
    if a.hi < a.lo + 3 ∨ 2 ^ gateWidth g ≤ a.hi then some (2, a.idx, a.idx)
    else match bs.find? fun b => b.lo + 3 ≤ b.hi && a.lo ≤ b.hi && b.lo ≤ a.hi with
      | some b => some (1, a.idx, b.idx)
      | none => gateFail g bs

/-- The gates that fail at a strobe, ascending, each with its first failure. -/
def State.failedGates (s : State) : List (Nat × Nat × Nat × Nat) :=
  s.changedGates.filterMap fun g => (gateFail g (enabledRegions s.shadow g)).map fun x => (g, x)

end Sys2Proof.Machine
end

