-- ==== Sys2Proof/Machine/Power.lean ====
section
/-! DEFINITION. Droop response, slew governor, core voltage and temperature (R298 to R304, R321, R322), and the commands on them. -/

namespace Sys2Proof.Machine

/-- Cost of a part in units of 0.1 mA (Table 14.4). -/
def partCost : Part → Nat
  | .hub _ => 10000
  | .eng _ => 6000
  | .tlane _ _ => 4000
  | .glane _ => 1000

/-- Budget B and share p (R301). -/
def State.budget (s : State) : Nat := s.f Fld.pwrSlew_budget
def State.c0Pct (s : State) : Nat := s.f Fld.pwrSlew_c0_pct

/-- Depth of the C0 bucket (PWR_SLEW.C0_DEPTH is in 0.1 A). -/
def State.c0Depth (s : State) : Nat := 1000 * s.f Fld.pwrSlew_c0_depth

/-- The gain of the three buckets in one GLB_TS tick (R301, R302): while the C0 bucket is full its gain goes to the general bucket,
and the wake buckets gain nothing while wakes are frozen. -/
def State.slewTick (s : State) : State :=
  let b := s.budget
  let p := s.c0Pct
  let d := s.c0Depth
  s.modPwr fun w =>
    let w := { w with pdBucket := min 10000 (w.pdBucket + 100 * b), c0Bucket := min d w.c0Bucket }
    if w.frozen then w
    else if d ≤ w.c0Bucket then { w with genBucket := min 10000 (w.genBucket + 100 * b) }
    else { w with c0Bucket := min d (w.c0Bucket + p * b), genBucket := min 10000 (w.genBucket + (100 - p) * b) }

/-- Whether a part is queued, granted or powered. -/
def Pwr.has (w : Pwr) (p : Part) : Bool := w.wakes.any (fun x => x.part == p) || w.granted.contains p || w.up.contains p

/-- Queues the wake of a part (R302: each part is queued at most once); a wake that waits already takes the higher class. A part whose power-down
is still queued stays up. -/
def State.queueWake (s : State) (p : Part) (cls : Nat) : State :=
  let s := s.modPwr fun w => { w with
    pd := w.pd.filter (· ≠ p), wakes := w.wakes.map fun x => if x.part = p then { x with cls := min x.cls cls } else x }
  if s.pwr.has p then s
  else s.modPwr fun w => { w with wakes := w.wakes ++ [{ part := p, cls := cls, since := s.ts }] }

/-- The head of the wake queue: the oldest of the highest class that waits (R302). -/
def wakeHead (q : List Wake) : Option Wake :=
  ((q.find? (·.cls == 0)).orElse fun _ => (q.find? (·.cls == 1)).orElse fun _ => (q.find? (·.cls == 2)).orElse fun _ =>
    q.head?)

/-- The grant of a wake from one of the buckets (R302), with the counters of PWR_SLEW_CNT and PWR_SLEW_MAXWAIT. -/
def State.grantWake (s : State) (x : Wake) (fromC0 : Bool) : State :=
  let c := partCost x.part
  let s := s.modPwr fun w => { w with
    wakes := w.wakes.erase x
    granted := w.granted ++ [x.part]
    c0Bucket := if fromC0 then w.c0Bucket - c else w.c0Bucket
    genBucket := if fromC0 then w.genBucket else w.genBucket - c }
  let s := s.incF Fld.pwrSlewCnt_wakes
  let s := if x.cls = 0 then s.incF Fld.pwrSlewCnt_c0_wakes else s
  s.maxF Fld.pwrSlewMaxwait_wait (s.ts - x.since)

/-- WAKE_GRANT (R302): the head is granted when a bucket that may serve it holds its cost; nothing is granted while wakes are
frozen (R300). -/
def execWakeGrant (s : State) : Host.Outcome State Fault Refusal :=
  let s := s.start
  .next <|
    if s.pwr.frozen then s else
    match wakeHead s.pwr.wakes with
    | none => s
    | some x =>
      if x.cls = 0 ∧ partCost x.part ≤ s.pwr.c0Bucket then s.grantWake x true
      else if partCost x.part ≤ s.pwr.genBucket then s.grantWake x false
      else s

/-- PART_USABLE (Table 14.4): a granted part becomes usable; an engine or Hub port is then unmasked (R304, R191). -/
def execPartUsable (p : Part) (s : State) : Host.Outcome State Fault Refusal :=
  let s := s.start
  .next <| if s.pwr.granted.contains p then s.modPwr fun w => { w with granted := w.granted.erase p, up := w.up ++ [p] } else s

/-- POWER_DOWN (R302): the part that fell due first powers down when the power-down bucket holds its cost. -/
def execPowerDown (s : State) : Host.Outcome State Fault Refusal :=
  let s := s.start
  .next <|
    match s.pwr.pd with
    | [] => s
    | p :: ps =>
      if partCost p ≤ s.pwr.pdBucket then
        s.modPwr fun w => { w with pd := ps, up := w.up.erase p, pdBucket := w.pdBucket - partCost p }
      else s

/-- Queues the power-down of a part that is up. -/
def State.queueDown (s : State) (p : Part) : State :=
  if s.pwr.up.contains p && !s.pwr.pd.contains p then s.modPwr fun w => { w with pd := w.pd ++ [p] } else s

/-- DROOP_N is sampled low (R299, R300): wakes and adaptation freeze, and pulses are removed at the full depth. It is ignored in RESET and
until the root PLL locks (R360). -/
def State.droopSeen (s : State) : State :=
  if !s.pwr.droopPin ∨ s.pwr.droop ∨ s.mode = .reset ∨ (s.mode = .load ∧ !s.pwr.rootLock) then s else
  let s := s.incF Fld.pwrDroopStat_count
  let lv := s.f Fld.pwrDroopCfg_depth + 1
  s.modPwr fun w => { w with droop := true, droopSince := s.ts, level := lv, frozen := true, adaptFrozen := true }

/-- DROOP_N_ASSERT (R299, R300). -/
def execDroopNAssert (s : State) : Host.Outcome State Fault Refusal :=
  .next (s.start.modPwr fun w => { w with droopPin := true }).droopSeen

/-- DROOP_N_RELEASE (R299): the ramp starts; PWR_DROOP_MAX keeps the longest assertion. -/
def execDroopNRelease (s : State) : Host.Outcome State Fault Refusal :=
  let s := s.start.modPwr fun w => { w with droopPin := false }
  .next <|
    if s.pwr.droop then
      (s.maxF Fld.pwrDroopMax_max (s.ts - s.pwr.droopSince)).modPwr fun w => { w with droop := false }
    else s


/-- A byte as signed °C, as an integer. -/
def degrees (b : Nat) : Int := if b < 128 then b else (b : Int) - 256

/-- One sensor's reading (R322, PWR_TEMPn); 0x80 is no reading (Table 14.12). -/
def State.readTemp (s : State) (n : Nat) (b : Nat) : State :=
  if b = 0x80 then s.setF Fld.pwrTemp_valid 0 n
  else
    let s := (s.setF Fld.pwrTemp_valid 1 n).setF Fld.pwrTemp_temp b n
    let s := if degrees (s.f Fld.pwrTemp_max n) < degrees b then s.setF Fld.pwrTemp_max b n else s
    if 105 < degrees b then s.raise 0x182 n else s

/-- The readings of sensors `n`, `n + 1`, … -/
def State.readTemps (s : State) (n : Nat) : List Byte → State
  | [] => s
  | b :: bs => if n < 8 then (s.readTemp n b.toNat).readTemps (n + 1) bs else s

/-- The hottest valid reading. -/
def State.hottest (s : State) : Option Int :=
  (List.range 8).foldl (fun m n =>
    if s.fb Fld.pwrTemp_valid n then
      let d := degrees (s.f Fld.pwrTemp_temp n)
      match m with | none => some d | some x => some (max x d)
    else m) none

/-- The low-temperature term switches on below LOWT_C and off at LOWT_C + 3 °C (R321). -/
def State.updateLowT (s : State) : State :=
  match s.hottest with
  | none => s.modPwr fun w => { w with lowT := false }
  | some d =>
    let c : Int := s.f Fld.pwrAvsCfg_lowt_c
    if d < c then s.modPwr fun w => { w with lowT := true }
    else if c + 3 ≤ d then s.modPwr fun w => { w with lowT := false }
    else s

/-- TEMP_SENSOR_UPDATE (R313, R321, R322). The sensors work in every mode but RESET. -/
def execTempSensorUpdate (t : List Byte) (s : State) : Host.Outcome State Fault Refusal :=
  let s := s.start
  .next <| if s.mode = .reset then s else (s.readTemps 0 t).updateLowT

/-- The core-voltage setpoint in mV (R321); in rescue it is 800 (R341). -/
def State.setpoint (s : State) : Nat :=
  if s.pwr.rescue then 800
  else min 800 (max 700 (s.f Fld.pwrAvsV_vbin + (if s.pwr.lowT then s.f Fld.pwrAvsCfg_lowt_step else 0)))

/-- The rail that AVSBus selects; in rescue select 0 (R341). -/
def State.avsRail (s : State) : Nat := if s.pwr.rescue then 0 else s.f Fld.pwrAvsCfg_rail

/-- Starts an AVSBus write of a setpoint (R321), which waits while pulses are removed (R300). -/
def State.avsStart (s : State) (mv tries : Nat) : State :=
  let s := s.modPwr fun w => { w with avsBusy := true, avsWait := w.frozen, avsTries := tries, avsSet := mv }
  if s.pwr.frozen then s else s.emit (.avs s.avsRail mv)

/-- A setpoint write that waited starts once stretching has ended. -/
def State.avsGo (s : State) : State := if s.pwr.avsWait ∧ !s.pwr.frozen then s.avsStart s.pwr.avsSet s.pwr.avsTries else s

/-- STRETCH_RAMP_STEP (R299, R300): after release the rate steps down one level; at level 0 stretching has ended, and wakes and setpoint writes
resume. -/
def execStretchRampStep (s : State) : Host.Outcome State Fault Refusal :=
  let s := s.start
  .next <|
    if s.pwr.droop ∨ s.pwr.level = 0 then s
    else (s.modPwr fun w => { w with level := w.level - 1, frozen := w.level != 1 }).avsGo

/-- AVS_WRITE (R321): a changed setpoint is written; nothing is written with EN = 0, while a transaction runs, or under R300. -/
def execAvsWrite (s : State) : Host.Outcome State Fault Refusal :=
  let s := s.start
  .next <|
    if s.mode = .reset ∨ s.mode = .load ∨ !s.fb Fld.pwrAvsCfg_en ∨ s.pwr.avsBusy ∨ s.pwr.frozen
      ∨ s.setpoint = s.f Fld.pwrAvsStat_vset then s
    else s.avsStart s.setpoint 1

/-- AVS_TRANSACTION_DONE (R321): success is the accepted setpoint and the voltage read back; a failure is retried twice, and the
third raises 0x181. -/
def execAvsTransactionDone (ok : Bool) (vread : BitVec 16) (s : State) : Host.Outcome State Fault Refusal :=
  let s := s.start
  .next <|
    if !s.pwr.avsBusy ∨ s.pwr.avsWait then s
    else if ok then
      ((s.setF Fld.pwrAvsStat_vset s.pwr.avsSet).setF Fld.pwrAvsV_vread vread.toNat).modPwr fun w => { w with avsBusy := false }
    else
      let s := s.incF Fld.pwrAvsStat_fail_cnt
      if s.pwr.avsTries < 3 then s.avsStart s.pwr.avsSet (s.pwr.avsTries + 1)
      else ((s.setF Fld.pwrAvsStat_fail 1).modPwr fun w => { w with avsBusy := false }).raise 0x181

/-- ROOT_PLL_LOCK (R298): the root PLL locks, which completes step 1 of LOAD; a DROOP_N that is low already is then seen. -/
def execRootPllLock (s : State) : Host.Outcome State Fault Refusal :=
  let s := s.start
  .next <| if s.mode = .reset then s else (s.modPwr fun w => { w with rootLock := true }).droopSeen

/-- ROOT_PLL_LOCK_LOSS (R298): fatal source 0x180. -/
def execRootPllLockLoss (s : State) : Host.Outcome State Fault Refusal :=
  let s := s.start
  .next <| if s.pwr.rootLock then (s.modPwr fun w => { w with rootLock := false }).raise 0x180 else s

/-- VDD_AON_POWER_UP (R323): the SMBus target
answers from 1 ms after VDD_AON is within its limits. -/
def execVddAonPowerUp (s : State) : Host.Outcome State Fault Refusal :=
  .next (s.start.modKst fun k => { k with smbUp := true })

end Sys2Proof.Machine
end

