-- ==== Sys2Proof/Machine/Hub.lean ====
section
/-! DEFINITION. The Hub (chapter 8): transfers, rounds and grants, C0 policing, withdrawals and masks. Operations do not wait until their
flits have crossed, but for tokens (log entry 12). -/

namespace Sys2Proof.Machine

/-- Flits of a transfer with `b` payload bytes (R181). -/
def flitsOf (b : Nat) : Nat := ceilDiv (16 + b) 64

/-- Hub port of a spoke group, of an engine's cluster, of the unit groups, of the Landing pool and the Journal memory (R10), and of a Thaty
link as R183 pairs it with a part's Hub port. -/
def hubSpoke (p : Nat) : Nat := 4 + p / 12
def hubCluster (e : Nat) : Nat := 16 + e / 26
def hubUnit (u : Nat) : Nat := if u < 8 then 20 else 21
def hubLanding : Nat := 22
def hubJournal : Nat := 23
def hubLink (l part : Nat) : Nat := 2 * l + part % 2

/-- The input of a requester key, and its class: key 4 × input + class. -/
def Flit.key (f : Flit) : Nat := 4 * f.inp + f.cls
def Xfer.key (x : Xfer) : Nat := 4 * x.inp + x.cls

/-- A flit of a transfer. -/
def Xfer.flit (x : Xfer) : Flit := { inp := x.inp, cls := x.cls, sub := x.sub, own := x.own }

/-- Whether a transfer has a flit at its input that is not yet granted. -/
def Xfer.holds (x : Xfer) : Bool := decide (x.sent < x.got)

/-- Where a packet for a link comes from: Hub port, sub-queue, class, instance, whose it is, and the age of its operation. -/
structure XSrc where
  inp : Nat
  sub : Nat
  cls : Nat
  inst : Nat
  own : XOwn := .none
  age : Nat
  serial : Nat

namespace State

/-- Changes the Hub. -/
def modHub (s : State) (g : Hub → Hub) : State := { s with hub := g s.hub }

/-- Forms a Hub transfer (R181). A C0 transfer of more than 5 flits is carried in C1 (R193), as is every one to the Journal memory (R194). A
dedicated requester has no input queue to pass. -/
def addXfer (s : State) (inp out cls sub bytes : Nat) (own : XOwn) : State :=
  let k := flitsOf bytes
  s.modHub fun h => { h with
    xfers := h.xfers ++ [{ out := out, inp := inp, cls := if cls = 0 ∧ (5 < k ∨ out = hubJournal) then 1 else cls, sub := sub, len := k
                           got := if 24 ≤ inp then k else 0, own := own }] }

/-- Forms the transfers of a data block, of at most 4,096 bytes each. -/
def addBlock (s : State) (inp out cls sub bytes : Nat) (own : XOwn) : State :=
  (List.range (ceilDiv bytes 4096)).foldl (fun s k => s.addXfer inp out cls sub (min 4096 (bytes - 4096 * k)) own) s


/-! ### C0 policing (R192) -/

/-- Tokens of a port bucket in units of 1/256, which lies `used` below its depth. -/
def portTokens (s : State) (p : Nat) : Nat := 256 * s.f Fld.hubC0Port_depth p - FMap.get 0 p s.hub.used

/-- Whether both buckets hold `k` tokens. -/
def haveTokens (s : State) (i p k : Nat) : Bool := decide (65536 * k ≤ (s.inst i).c0tokens) && decide (256 * k ≤ s.portTokens p)

/-- Whether an earlier C0 transfer of the instance at an input is held. -/
def c0Behind (s : State) (i inp : Nat) : Bool := s.hub.held.any fun h => h.inst == i && h.inp == inp

/-- Takes `k` tokens from both buckets. -/
def c0Take (s : State) (i p k : Nat) : State :=
  (s.modInst i fun n => { n with c0tokens := n.c0tokens - 65536 * k }).modHub fun h => { h with used := FMap.mod 0 p (· + 256 * k) h.used }

/-- Counts a transfer that was held, or charged without being held. -/
def c0Held (s : State) (i : Nat) : State :=
  (s.modInst i fun n => { n with c0held := min 65535 (n.c0held + 1) }).incF Fld.hubC0Cnt_held
def c0Passed (s : State) (i : Nat) : State := s.modInst i fun n => { n with c0passed := min 65535 (n.c0passed + 1) }

/-- The tokens that a C0 transfer is charged: one per flit, and none where R193 carries it in C1. -/
def c0Cost (bytes : Nat) : Nat := if 5 < flitsOf bytes then 0 else flitsOf bytes

/-- Forms a transfer of an instance's operation, charged where it is one of C0 (R192); whether it may go now. One that the buckets do not
cover, or that stands behind such a one, is held, and `act` goes on when it is charged. A transfer of C1 to C3, of an instance without a C0
allotment (R193), or to the Journal memory (R194) is not charged. -/
def formXfer (s : State) (inp out cls inst sub bytes : Nat) (own : XOwn) (act : HeldAct) : Bool × State :=
  let k := c0Cost bytes
  if cls ≠ 0 ∨ (s.inst inst).c0rate = 0 ∨ out = hubJournal then (true, s.addXfer inp out (if cls = 0 then 1 else cls) sub bytes own)
  else if s.haveTokens inst out k && !s.c0Behind inst inp then (true, ((s.c0Take inst out k).c0Passed inst).addXfer inp out 0 sub bytes own)
  else (false, (s.c0Held inst).modHub fun h =>
    { h with held := h.held ++ [{ inst := inst, inp := inp, port := out, sub := sub, bytes := bytes, own := own, act := act }] })

/-- The refill of one CORE cycle (R192). -/
def c0Refill (s : State) : State :=
  { s with
    insts := s.insts.map fun x =>
      (x.1, if x.2.c0rate = 0 then x.2 else { x.2 with c0tokens := min (65536 * x.2.c0depth) (x.2.c0tokens + x.2.c0rate) })
    hub := { s.hub with used := s.hub.used.filterMap fun x =>
      let u := x.2 - s.f Fld.hubC0Port_rate x.1
      if u = 0 then none else some (x.1, u) } }

/-- Hands a packet to Thaty egress from a part, by a transfer to the link's Hub port; a held one is handed over once it is charged. -/
def sendFrom (s : State) (x : XSrc) (l : Nat) (p : Packet) (frees : List Nat := []) : State :=
  let t : TxPkt := { pkt := p, frees := frees, cls := x.cls, age := x.age, serial := x.serial, own := x.own }
  let r := s.formXfer x.inp (hubLink (s.route l) x.inp) x.cls x.inst x.sub (packetPayload p) x.own (.send l t)
  if r.1 then r.2.handPkt l t else r.2

/-- A part that sends for an instance at this moment, of no operation. -/
def srcNow (s : State) (inp sub cls inst : Nat) : XSrc :=
  { inp := inp, sub := sub, cls := cls, inst := inst, age := s.ts, serial := s.jnl.serial }

/-- Sends an EVENT of an instance from a part (R63), in the class of its VC. -/
def eventFrom (s : State) (inp sub inst code vc add : Nat) (body : List Byte) : State :=
  if s.mode = .halt ∨ s.mode = .reset then s
  else s.sendFrom (s.srcNow inp sub vc inst) (s.f Fld.evDest_link inst) (s.eventPkt inst code vc add body)

/-! ### Withdrawals (R190) and masks (R191) -/

end State

/-- What a withdrawal does at an output whose requesters with keys `ks` lose their current transfers: a grant already made becomes a dead
cycle, the ages are discarded, and the destination discards the flits that it has. -/
def HubOut.drop (h : HubOut) (p : Flit → Bool) (ks : List Nat) : HubOut :=
  let h := { h with ages := h.ages.filter (fun a => !ks.contains a.1), buf := h.buf.filter fun f => !p f }
  match h.grant with
  | some f => if p f then { h with grant := none, dead := true, ages := FMap.set 0 f.key 0 h.ages } else h
  | none => h

namespace State

/-- The transfers whose flits satisfy `p` are withdrawn on one edge. -/
def withdrawBy (s : State) (p : Flit → Bool) : State :=
  s.modHub fun b => { b with
    xfers := b.xfers.filter fun x => !p x.flit
    outs := b.outs.map fun o => (o.1, o.2.drop p ((b.xfers.filter fun x => x.out == o.1 && x.sent != 0 && p x.flit).map (·.key))) }

/-- Whether a transfer is of one of some operations or contexts. -/
def ownedBy (jes ns : List Nat) : XOwn → Bool
  | .none => false
  | .op je => jes.contains je
  | .ctx n => ns.contains n

/-- The transfers of cancelled operations and contexts are withdrawn, those held for tokens too. -/
def withdraw (s : State) (jes : List Nat) (ns : List Nat := []) : State :=
  (s.withdrawBy fun f => ownedBy jes ns f.own).modHub fun b => { b with held := b.held.filter fun x => !ownedBy jes ns x.own }

/-- Whether an engine is masked: held in reset, under test, or without power. The target of an engine slice in Prepare still works. -/
def engMasked (s : State) (e : Nat) : Bool :=
  let moving := s.bst.eng.st == .prepare && s.bst.eng.target == e
  !(moving || ((s.eng e).role == .active && !(s.eng e).testing)) || !s.pwr.up.contains (.eng e)

/-- Whether the self-test controller is masked. -/
def stcMasked (s : State) : Bool := s.bst.mem.st == .idle && s.bst.eng.st == .idle

/-- Whether the Journal writer is masked: LOAD has not initialised the Journal. -/
def jwMasked (s : State) : Bool := s.mode == .reset || !s.img.formed

/-- Whether the Kickstand bridge path is masked. -/
def kbpMasked (s : State) : Bool := s.mode != .run && s.mode != .service

/-- Whether a sideband mask removes the requester of a flit. -/
def flitMasked (s : State) (f : Flit) : Bool :=
  match f.inp, f.cls with
  | 24, 1 => s.kbpMasked
  | 25, 0 => s.jwMasked
  | 25, _ => s.stcMasked
  | i, _ => decide (16 ≤ i ∧ i ≤ 19) && s.engMasked f.sub

/-- The keys of the dedicated requesters that are masked, which start with age 0 when the mask releases. -/
def keysMasked (s : State) : List Nat := [97, 100, 103].filter fun k => s.flitMasked { inp := k / 4, cls := k % 4 }

/-- The masks take effect in the round of the cycle in which they assert. -/
def maskRound (s : State) : State :=
  let ks := s.keysMasked
  (s.withdrawBy s.flitMasked).modHub fun b => { b with
    outs := b.outs.map fun o => (o.1, { o.2 with ages := o.2.ages.filter fun a => !ks.contains a.1 }) }

/-! ### The inputs (R182) -/

/-- One more flit of a transfer is accepted. -/
def takeIn1 (x : Xfer) : List Xfer → List Xfer
  | [] => []
  | y :: ys => if x = y then { y with got := y.got + 1 } :: ys else y :: takeIn1 x ys

/-- An input accepts one flit from its part: of the highest class that has one, and of the transfer formed first. -/
def acceptAt (xs : List Xfer) (i : Nat) : List Xfer :=
  match (List.range 4).findSome? fun c => xs.find? fun x => x.inp == i && x.cls == c && decide (x.got < x.len) with
  | some x => takeIn1 x xs
  | none => xs

/-- One CORE cycle at the 24 inputs. -/
def hubAccept (s : State) : State := s.modHub fun b => { b with xfers := (List.range 24).foldl acceptAt b.xfers }

/-! ### A round (R187 to R189) -/

/-- BASE of a class. -/
def hubBase (s : State) (c : Nat) : Nat :=
  if c = 1 then s.f Fld.hubArbCfg_base1 else if c = 2 then s.f Fld.hubArbCfg_base2 else s.f Fld.hubArbCfg_base3

/-- Effective priority of a C1 to C3 requester of age `a`. -/
def hubPrio (s : State) (k a : Nat) : Nat := min (s.hubBase (k % 4) + s.f Fld.hubArbCfg_step * a) 254

end State

/-- The space that a destination has for a flit of a class (R187): in the class's reserve first (10 flits for C0, 65 for each other class), then
in the shared remainder, which `true` names; none where both are full. -/
def hubSpace (o : Nat) (h : HubOut) (c : Nat) : Option Bool :=
  if (h.buf.filter fun f => f.cls == c && !f.shared).length < (if c = 0 then 10 else 65) then some false
  else if (h.buf.filter (·.shared)).length < Config.hubShared o then some true
  else none

/-- A flit is granted for the next cycle, and takes its space. -/
def HubOut.grantFlit (h : HubOut) (o : Nat) (f : Flit) : HubOut :=
  let f := { f with shared := (hubSpace o h f.cls).getD false }
  { h with grant := some f, buf := h.buf ++ [f] }

namespace State

/-- Whether the self-test controller presents a flit at an output (R195): it does while a slice tests. -/
def stcAt (s : State) (o : Nat) : Bool :=
  (o == hubLanding && s.bst.mem.st == .test && s.bst.mem.wasLanding) || (o == hubJournal && s.bst.mem.st == .test && !s.bst.mem.wasLanding)
  || (s.bst.eng.st == .test && o == hubCluster s.bst.eng.target)

/-- The C1 to C3 requesters that are eligible at an output, ascending. -/
def hubReqs (s : State) (h : HubOut) (o : Nat) : List Nat :=
  (List.range 104).filter fun k => k % 4 != 0 && (hubSpace o h (k % 4)).isSome
    && ((k == 103 && s.stcAt o) || s.hub.xfers.any fun x => x.out == o && x.key == k && x.holds)

/-- The winner among C1 to C3 requesters: highest priority, then the first after the one last granted in cyclic order. -/
def hubPick (s : State) (h : HubOut) : List Nat → Option Nat
  | ks =>
    let top := ks.foldl (fun m k => max m (s.hubPrio k (FMap.get 0 k h.ages))) 0
    let best := ks.filter fun k => s.hubPrio k (FMap.get 0 k h.ages) == top
    (best.find? fun k => h.last < k).orElse fun _ => best.head?

/-- The transfer that a class queue presents: the first of the next sub-queue that holds a flit (R186). -/
def hubNext (s : State) (h : HubOut) (o k : Nat) : Option Xfer :=
  let xs := s.hub.xfers.filter fun x => x.out == o && x.key == k && x.holds
  let prev := FMap.get 0 k h.subs
  let later := xs.filter fun x => prev < x.sub + 1
  let pool := if later.isEmpty then xs else later
  match listMin (pool.map (·.sub)) with
  | none => none
  | some m => pool.find? fun x => x.sub == m

/-- One flit of a transfer is granted. -/
def takeFlit (x : Xfer) : List Xfer → List Xfer
  | [] => []
  | y :: ys => if x = y then (if y.len ≤ y.sent + 1 then ys else { y with sent := y.sent + 1 } :: ys) else y :: takeFlit x ys

/-- Every eligible requester that does not win ages by one, up to the age at which P reaches 254. -/
def hubAge (s : State) (win : Nat) (ks : List Nat) (h : HubOut) : HubOut :=
  ks.foldl (fun h k =>
    if k = win then
      { h with ages := FMap.set 0 k 0 h.ages, waits := FMap.set 0 k 0 h.waits, waitMax := max h.waitMax (min 65535 (FMap.get 0 k h.waits)) }
    else
      let a := FMap.get 0 k h.ages
      { h with
        ages := if s.hubPrio k a = 254 then h.ages else FMap.set 0 k (a + 1) h.ages
        waits := FMap.mod 0 k (· + 1) h.waits }) h

/-- The C0 transfer that wins a round: of those that hold a flit the one charged first (R186, R188). -/
def hubC0 (s : State) (h : HubOut) (o : Nat) : Option Xfer :=
  if (hubSpace o h 0).isNone then none else s.hub.xfers.find? fun x => x.out == o && x.cls == 0 && x.holds

/-- The start of a cycle at an output: the flit granted before crosses, or the cycle is dead (R190); and where the free value `v` says so, the
destination takes the oldest flit out of its buffer, which the spec gives no time for (R210). -/
def hubCross (o v : Nat) (h : HubOut) : HubOut :=
  { h with
    flits := if h.grant.isSome then h.flits + 1 else h.flits, grant := none, dead := false
    buf := match h.buf with | [] => [] | f :: fs => if bit o v then fs else f :: fs }

/-- One CORE cycle at one output: the grant made before takes its course, and the next is made. -/
def hubOut (s : State) (v o : Nat) : State :=
  let h₀ : HubOut := FMap.get {} o s.hub.outs
  let s := if h₀.dead then s.incF Fld.hubDeadCnt_dead else s
  let h := hubCross o v h₀
  let ks := s.hubReqs h o
  let put (s : State) (h : HubOut) : State := s.modHub fun b => { b with outs := FMap.set {} o h b.outs }
  if o = hubJournal ∧ 0 < s.hub.jw ∧ !s.hub.jwLast ∧ !s.jwMasked ∧ (hubSpace o h 0).isSome then
    (put s ((s.hubAge 100 ks h).grantFlit o { inp := 25, cls := 0 })).modHub fun b => { b with jw := b.jw - 2, jwLast := true }
  else
    let s := if o = hubJournal then s.modHub fun b => { b with jwLast := false } else s
    match s.hubC0 h o with
    | some x =>
      let h := s.hubAge 100 ks h
      let h := if x.sent + 1 = x.len then { h with c0Wait := max h.c0Wait (min 255 x.lost) } else h
      (put s (h.grantFlit o x.flit)).modHub fun b =>
        { b with xfers := (takeFlit x b.xfers).map fun y =>
            if y.out = o ∧ y.cls = 0 ∧ y.holds ∧ y ≠ { x with sent := x.sent + 1 } then { y with lost := y.lost + 1 } else y }
    | none =>
      match s.hubPick h ks with
      | none => put s h
      | some k =>
        let h := s.hubAge k ks { h with last := k }
        match s.hubNext h o k with
        | some x =>
          (put s { h.grantFlit o x.flit with subs := FMap.set 0 k (x.sub + 1) h.subs }).modHub fun b => { b with xfers := takeFlit x b.xfers }
        | none => put s (h.grantFlit o { inp := k / 4, cls := k % 4 })

/-- At DOZE exit every bucket starts full and every age at 0 (R196). -/
def hubFresh (s : State) : State :=
  { s with
    insts := s.insts.map fun x => (x.1, if x.2.c0rate = 0 then x.2 else { x.2 with c0tokens := 65536 * x.2.c0depth })
    hub := { s.hub with used := [], outs := s.hub.outs.map fun x => (x.1, { x.2 with ages := [], waits := [] }) } }

/-- Whether nothing is on its way through the Hub: no transfer, no flit granted or in a destination's buffer, and no Journal change that has not
crossed (R196). -/
def hubEmpty (s : State) : Bool :=
  s.hub.xfers.isEmpty && s.hub.held.isEmpty && s.hub.jw == 0 && s.hub.outs.all fun o => o.2.grant.isNone && o.2.buf.isEmpty

end State

/-- One CORE cycle at the inputs and the 24 outputs, after the refill of the C0 buckets. -/
def State.hubCycle (s : State) : State := (List.range 24).foldl (fun t o => t.hubOut s.free o) ((s.draw.c0Refill.maskRound).hubAccept)

end Sys2Proof.Machine
end

