-- ==== Sys2Proof/Machine/Table.lean ====
section
/-! DEFINITION. WTT and DVT entries (R106 to R108), translation (R109 to R112), byte-order swap and burst cutting (R116, R117), and the
check of pending entries (R120, R121). -/

namespace Sys2Proof.Machine

/-- A big-endian field of a WTT entry: `n` bytes at byte offset `o`. -/
def wttWord (w : BitVec 256) (o n : Nat) : Nat := w.toNat / 256 ^ (32 - o - n) % 256 ^ n

/-- A big-endian field of a DVT entry. -/
def dvtWord (d : BitVec 128) (o n : Nat) : Nat := d.toNat / 256 ^ (16 - o - n) % 256 ^ n

/-- The fields of a WTT entry; page numbers count 4 KiB pages. -/
def windowOf (w : BitVec 256) : Window :=
  let c := wttWord w 0 4
  let inb := bit 30 c
  { v := bit 31 c, inbound := inb, path := bit 29 c, np := bit 28 c, swap := bits 27 26 c, cls := bits 25 24 c
    peer := bit 23 c, owner := bits 15 8 c
    tbase := if inb then bits 55 12 (wttWord w 16 8) else bits 55 12 (wttWord w 4 8)
    tlimit := bits 55 12 (wttWord w 12 8)
    dn := if inb then bits 17 0 (wttWord w 16 4) else bits 17 0 (wttWord w 20 4)
    gbase := if inb then bits 31 12 (wttWord w 8 4) else bits 31 12 (wttWord w 24 4)
    glimit := bits 31 12 (wttWord w 12 4)
    port := bits 31 24 (wttWord w 4 4), dHi := bits 21 11 (wttWord w 4 4), dLo := bits 10 0 (wttWord w 4 4)
    dgbase := bits 31 12 (wttWord w 20 4) }

/-- Pages of a window. -/
def Window.pages (w : Window) : Nat := if w.inbound then w.glimit - w.gbase + 1 else w.tlimit - w.tbase + 1

/-- The fields of a DVT entry. -/
def deviceOf (d : BitVec 128) : Device :=
  let a := dvtWord d 0 4
  let b := dvtWord d 4 4
  let c := dvtWord d 8 4
  { v := bit 31 a, wake := bit 30 a, cls := bits 29 28 a, maxbCode := bits 27 26 a, bound := 256 * 2 ^ bits 25 24 a
    port := bits 23 16 a, swap := bits 14 13 a, daddr := bits 10 0 a
    owner := bits 31 24 b, smapEn := bit 23 b, smap := bits 21 16 b, poll := bits 14 0 b
    storm := bits 31 16 c, digIdx := bits 15 0 c }

/-- Largest burst of a device in bytes (MAXB). -/
def Device.maxb (d : Device) : Nat := 64 * 2 ^ d.maxbCode

/-- The swap unit in bytes of a SWAP code. -/
def swapUnit (code : Nat) : Nat := 2 ^ code

/-- The image of an address under a swap of unit `u` (R116). -/
def swapAddr (u x : Nat) : Nat := x - x % u + (u - 1 - x % u)

/-- Changes the tables. -/
def State.modTbl (s : State) (g : Tables → Tables) : State := { s with tbl := g s.tbl }

/-- The committed WTT entry of an index. -/
def State.wttAt (s : State) (i : Nat) : BitVec 256 := FMap.get 0 i s.tbl.wtt

/-- The committed DVT entry of a DN. -/
def State.dvtAt (s : State) (n : Nat) : BitVec 128 := FMap.get 0 n s.tbl.dvt

/-- The device of a DN; an entry with an uncorrectable word is as one that is not valid (source 0x063). -/
def State.device (s : State) (n : Nat) : Device :=
  let d := deviceOf (s.dvtAt n)
  { d with v := d.v && !s.tbl.dvtBad.contains n }

/-- The windows that lookups see, with their index: valid, and without an uncorrectable word. -/
def State.windows (s : State) : List (Nat × Window) :=
  (s.tbl.wtt.map fun p => (p.1, windowOf p.2)).filter fun p => p.2.v && !s.tbl.wttBad.contains p.1

/-- The outbound window that contains a Thaty address (R109). -/
def State.outWindow (s : State) (addr : Nat) : Option (Nat × Window) :=
  s.windows.find? fun p => !p.2.inbound && p.2.tbase ≤ addr / 4096 && addr / 4096 ≤ p.2.tlimit

/-- The Gulum address of a Thaty address in an outbound window (R109). -/
def Window.toGulum (w : Window) (x : Nat) : Nat := w.gbase * 4096 + (x - w.tbase * 4096)

/-- The source DN of a port and device address (R111). -/
def State.dnAt (s : State) (port daddr : Nat) : Option Nat :=
  (s.tbl.dvt.find? fun p =>
    let d := deviceOf p.2
    d.v && d.port == port && d.daddr == daddr && !s.tbl.dvtBad.contains p.1).map (·.1)

/-- The inbound window of a port, device address and Gulum address (R111). -/
def State.inWindow (s : State) (port daddr g : Nat) : Option (Nat × Window) :=
  s.windows.find? fun p => p.2.inbound && p.2.port == port && p.2.dLo ≤ daddr && daddr ≤ p.2.dHi
    && p.2.gbase ≤ g / 4096 && g / 4096 ≤ p.2.glimit

/-- The Thaty address of a Gulum byte in an inbound window (R112). -/
def Window.toThaty (w : Window) (y : Nat) : Nat := w.tbase * 4096 + (y - w.gbase * 4096)

/-- The destination Gulum address of a peer byte (R113). -/
def Window.toPeer (w : Window) (y : Nat) : Nat := w.dgbase * 4096 + (y - w.gbase * 4096)

/-! ### Cutting (R117). Only the first and the last granule of an operation hold bytes that are not enabled. -/

/-- Whether byte `i` of the request is enabled, before the swap. -/
def CutSpec.en (c : CutSpec) (i : Nat) : Bool :=
  if c.n ≤ i then false
  else if i < 8 then bit i c.fm
  else if c.n ≤ i + 8 then bit (i + 8 - c.n) c.lm
  else true

/-- Whether byte `j` of the far side is enabled (step 1 of `cut`). -/
def CutSpec.sen (c : CutSpec) (j : Nat) : Bool := c.en (swapAddr c.u j)

/-- The first enabled far-side byte at or after `i`. -/
def CutSpec.nextEn (c : CutSpec) : Nat → Nat → Option Nat
  | 0, _ => none
  | k + 1, i => if c.n ≤ i then none else if c.sen i then some i else c.nextEn k (i + 1)

/-- The last byte of the run that holds enabled byte `i`. -/
def CutSpec.runEnd (c : CutSpec) : Nat → Nat → Nat
  | 0, i => i
  | k + 1, i =>
    if c.sen (i + 1) then
      if 8 ≤ i + 1 ∧ i + 1 + 8 < c.n then c.runEnd k (c.n - 9) else c.runEnd k (i + 1)
    else i

/-- The next piece at or after far-side byte `i`, as first and last Gulum byte (`cut_run`): at most the device boundary, `maxb` bytes
of words, and the next region edge. -/
def CutSpec.piece (c : CutSpec) (maxb bound : Nat) (edge : Nat → Nat) (i : Nat) : Option (Nat × Nat) :=
  match c.nextEn 17 i with
  | none => none
  | some j =>
    let a := c.base + j
    let z := c.base + c.runEnd 40 j
    some (a, min (min z ((a / bound + 1) * bound - 1)) (min (a - a % 4 + maxb - 1) (edge a - 1)))

/-- The whole list of pieces, at most `k` of them. -/
def CutSpec.pieces (c : CutSpec) (maxb bound : Nat) (edge : Nat → Nat) : Nat → Nat → List (Nat × Nat)
  | 0, _ => []
  | k + 1, i =>
    match c.piece maxb bound edge i with
    | none => []
    | some (a, e) => (a, e) :: c.pieces maxb bound edge k (e + 1 - c.base)

/-- LEN in words of a piece (R117). -/
def pieceWords (a e : Nat) : Nat := e / 4 - a / 4 + 1

/-- FBE of a piece: offsets a mod 4 to e mod 4, or to 3 when it has more than one word. -/
def pieceFbe (a e : Nat) : Nat :=
  let hi := if pieceWords a e = 1 then e % 4 else 3
  2 ^ (hi + 1) - 2 ^ (a % 4)

/-- LBE of a piece: offsets 0 to e mod 4, or zero when it has one word. -/
def pieceLbe (a e : Nat) : Nat := if pieceWords a e = 1 then 0 else 2 ^ (e % 4 + 1) - 1

/-- The number of enabled bytes of a request (popcount of its two masks and the granules between). -/
def CutSpec.count (c : CutSpec) : Nat :=
  let pop (m : Nat) : Nat := ((List.range 8).filter fun i => bit i m).length
  if c.n = 0 then 0 else if c.n = 8 then pop c.fm else pop c.fm + pop c.lm + (c.n - 16)

/-- The cut of `n` bytes from Gulum address `g`, as the engine and peer paths take it (R117): base rounded down to a multiple of 8,
and exactly the bytes of the transfer enabled. -/
def spanSpec (g n u : Nat) : CutSpec :=
  let base := g - g % 8
  let last := g + n - 1
  let m := last / 8 * 8 + 8 - base
  let one := m = 8
  { base := base, n := m, u := u
    fm := if one then 2 ^ (last % 8 + 1) - 2 ^ (g % 8) else 256 - 2 ^ (g % 8)
    lm := 2 ^ (last % 8 + 1) - 1 }

/-! ### The pending store and its check -/

/-- Bits of a WTT entry that no write changes: REJ is RO. -/
def wttRejBit : Nat := 2 ^ (16 + 8 * 28)
def dvtRejBit : Nat := 2 ^ (15 + 8 * 12)

/-- An entry with REJ set or cleared. -/
def setRej {w : Nat} (rej : Nat) (on : Bool) (e : BitVec w) : BitVec w :=
  if on then e ||| BitVec.ofNat w rej else e &&& ~~~ BitVec.ofNat w rej

/-- A port that is the lowest member of a logical port that is not OFF. -/
def State.isLead (s : State) (p : Nat) : Bool :=
  p < 144 && s.f Fld.gptCfg_lead p == p && s.f Fld.gptCfg_bond p != 3 && (FMap.get {} p s.ports).st != .off

/-- fields_ok for a WTT entry (Table 5.10). -/
def State.wttOk (s : State) (w : Window) : Bool :=
  if w.inbound then
    !w.path && s.isLead w.port && w.dLo ≤ w.dHi && w.gbase ≤ w.glimit
      && (if w.peer then (w.dgbase + w.pages) * 4096 ≤ 2 ^ 32 else (w.tbase + w.pages) * 4096 ≤ 2 ^ 56)
  else w.tbase ≤ w.tlimit && (w.gbase + w.pages) * 4096 ≤ 2 ^ 32 && !w.peer

/-- Whether two valid WTT entries conflict (Table 5.10). -/
def wttConflict (a b : Window) : Bool :=
  if !a.inbound && !b.inbound then a.tbase ≤ b.tlimit && b.tbase ≤ a.tlimit
  else a.inbound && b.inbound && a.port == b.port && a.dLo ≤ b.dHi && b.dLo ≤ a.dHi && a.gbase ≤ b.glimit && b.gbase ≤ a.glimit

/-- fields_ok for a DVT entry (Table 5.10). -/
def State.dvtOk (s : State) (d : Device) : Bool := s.isLead d.port && d.maxbCode != 3 && d.poll ≤ 16700

/-- Whether two valid DVT entries conflict. -/
def dvtConflict (a b : Device) : Bool := a.port == b.port && a.daddr == b.daddr

/-- One pass of the `repeat` of `check_table`: the pending entries, not yet failed, that conflict with a valid entry of the candidate
table. `val` gives the candidate's view of an entry. -/
def conflicted {α β : Type} (valid : β → Bool) (conf : β → β → Bool) (view : α → β) (com pend : FMap α) (failed : List Nat) :
    List Nat :=
  let live := pend.filter fun p => !failed.contains p.1
  let cand := (com.filter fun p => !(live.any fun q => q.1 == p.1)) ++ live
  let views := cand.map fun p => (p.1, view p.2)
  (live.filter fun p => valid (view p.2) && views.any fun q => q.1 != p.1 && valid q.2 && conf (view p.2) q.2).map (·.1)

/-- The `repeat` of `check_table`, which ends because each pass fails at least one more pending entry. -/
def checkLoop {α β : Type} (valid : β → Bool) (conf : β → β → Bool) (view : α → β) (com pend : FMap α) : Nat → List Nat → List Nat
  | 0, failed => failed
  | k + 1, failed =>
    match conflicted valid conf view com pend failed with
    | [] => failed
    | more => checkLoop valid conf view com pend k (failed ++ more)

/-- `check_table` (R121): the pending entries that fail. -/
def checkTable {α β : Type} (valid : β → Bool) (ok : β → Bool) (conf : β → β → Bool) (view : α → β) (com pend : FMap α) : List Nat :=
  checkLoop valid conf view com pend (pend.length + 1)
    ((pend.filter fun p => valid (view p.2) && !ok (view p.2)).map (·.1))

/-- The commit of the entries that pass, with REJ cleared in them and set in those that fail (R121). -/
def commitTable {w : Nat} (rej : Nat) (com pend : FMap (BitVec w)) (failed : List Nat) : FMap (BitVec w) :=
  pend.foldl (fun m p =>
    if failed.contains p.1 then FMap.mod 0 p.1 (setRej rej true) m else FMap.set 0 p.1 (setRej rej false p.2) m) com

/-- Bytes written into an entry at a byte offset. -/
def writeBytes {w : Nat} (len o : Nat) (bs : List Byte) (e : BitVec w) : BitVec w :=
  let n := bs.length
  let sh := 256 ^ (len - o - n)
  let old := e.toNat
  BitVec.ofNat w (old - old / sh % 256 ^ n * sh + bytesNat bs * sh)

/-- A write to a WTT entry goes into its pending slot, or sets the overflow bit (R120). REJ is not written. -/
def State.wttWrite (s : State) (i o : Nat) (bs : List Byte) : State :=
  match FMap.find i s.tbl.wttPend with
  | some e => s.modTbl fun t => { t with wttPend := FMap.put i (setRej wttRejBit false (writeBytes 32 o bs e)) t.wttPend }
  | none =>
    if s.tbl.wttPend.length < 4096 then
      s.modTbl fun t => { t with wttPend := FMap.put i (setRej wttRejBit false (writeBytes 32 o bs (s.wttAt i))) t.wttPend }
    else s.modTbl fun t => { t with wttOvf := true }

/-- A write to a DVT entry (R120). -/
def State.dvtWrite (s : State) (i o : Nat) (bs : List Byte) : State :=
  match FMap.find i s.tbl.dvtPend with
  | some e => s.modTbl fun t => { t with dvtPend := FMap.put i (setRej dvtRejBit false (writeBytes 16 o bs e)) t.dvtPend }
  | none =>
    if s.tbl.dvtPend.length < 4096 then
      s.modTbl fun t => { t with dvtPend := FMap.put i (setRej dvtRejBit false (writeBytes 16 o bs (s.dvtAt i))) t.dvtPend }
    else s.modTbl fun t => { t with dvtOvf := true }

end Sys2Proof.Machine
end

