-- ==== Sys2Proof/Machine/Jnl.lean ====
section
/-! DEFINITION. What every operation shares: Journal entries (R166 to R173), Landing grains (R207 to R212), the pieces of an operation
(R117, R118), requests to host memory (R54, R55, R247), and how an operation ends (R172, R216 to R218). -/

namespace Sys2Proof.Machine

/-- A bridge-written STATUS (R80, Table 4.5). -/
def bridgeStatus (err abort : Bool) (reason residual ts : Nat) : List Byte :=
  natBytes 2 (b2n err * 2 ^ 15 + b2n abort * 2 ^ 10 + b2n (residual != 0) * 2 ^ 9 + 2 ^ 8 + reason)
  ++ natBytes 2 residual ++ natBytes 4 ts ++ List.replicate 24 0

/-- Ways in which an operation fails: gate refusal, device error, a CCD's exceptional STATUS, frame error, no answer in time, and data
with an uncorrected error. -/
inductive Fail
  | ca | de | exc | fe | to | ps
  deriving DecidableEq, Repr

/-- The code that ERR takes (Table 7.5): a Thaty STATUS for KIND 0 to 3, a CSTAT for KIND 4, a bridge REASON for KIND 5 to 7. -/
def failCode (kind : Nat) (f : Fail) : Nat :=
  if kind < 4 then match f with | .ca => 2 | .de | .exc | .fe => 3 | .to => 4 | .ps => 5
  else if kind = 4 then match f with | .ca => 5 | .de | .fe => 2 | .exc => 3 | .to => 4 | .ps => 0xB
  else match f with | .ca => 7 | .de | .exc => 0xA | .fe => 2 | .to => 1 | .ps => 9

/-- The status of a failure as Table 3.7 codes it (Table 9.5). -/
def failStatus : Fail → Nat
  | .ca => 2 | .de | .exc | .fe => 3 | .to => 4 | .ps => 5

namespace State

/-- An operation, if the JE holds one. -/
def op? (s : State) (je : Nat) : Option Op := FMap.find je s.ops

/-- Changes an operation that is listed. -/
def modOp (s : State) (je : Nat) (g : Op → Op) : State := { s with ops := FMap.upd je g s.ops }

/-- Changes the CCD part of an operation. -/
def modX (s : State) (je : Nat) (g : CcdX → CcdX) : State := s.modOp je fun o => { o with x := o.x.map g }

/-- A context, if there is one of that number. -/
def ctx? (s : State) (k : Nat) : Option Ctx := FMap.find k s.ctxs

/-- Changes a context that is listed. -/
def modCtx (s : State) (k : Nat) (g : Ctx → Ctx) : State := { s with ctxs := FMap.upd k g s.ctxs }

/-- A context falls free. -/
def freeCtx (s : State) (k : Nat) : State := { s with ctxs := FMap.del k s.ctxs }

/-- A device address of a port. -/
def daddr (s : State) (p d : Nat) : Daddr := FMap.get {} (p * 2048 + d) s.daddrs

/-- Changes a device address. -/
def modDaddr (s : State) (p d : Nat) (g : Daddr → Daddr) : State :=
  { s with daddrs := FMap.mod {} (p * 2048 + d) g s.daddrs }

/-- What is kept of a DN. -/
def dn (s : State) (n : Nat) : Dn := FMap.get {} n s.dns

/-- Changes what is kept of a DN. -/
def modDn (s : State) (n : Nat) (g : Dn → Dn) : State := { s with dns := FMap.mod {} n g s.dns }

/-- The Posted Error Log and FENCE of an instance. -/
def pel (s : State) (i : Nat) : Pel := FMap.get {} i s.pels

/-- Changes a Posted Error Log. -/
def modPel (s : State) (i : Nat) (g : Pel → Pel) : State := { s with pels := FMap.mod {} i g s.pels }

/-- Whether the bridge does the work of operations: not in RESET, and not in HALT, where the Journal is frozen (R177). -/
def works (s : State) : Bool := s.mode != .reset && s.mode != .halt

/-! ### Landing grains -/

/-- Grains of a floor (R207): pool 3 × class + type; the fields code 4 KiB units minus one. -/
def floorCap (s : State) (pool : Nat) : Nat :=
  16 * (1 + (if pool % 3 = 0 then s.f Fld.jnlLndFloor_p (pool / 3) else if pool % 3 = 1 then s.f Fld.jnlLndFloor_n (pool / 3)
    else s.f Fld.jnlLndFloor_k (pool / 3)))

/-- Every hold, with the instance charged; the management queue's MRD is charged to none (256). -/
def holds (s : State) : List (Nat × Hold) :=
  s.ops.flatMap (fun p => [((s.entry p.1).inst, p.2.hold), ((s.entry p.1).inst, p.2.area)])
  ++ (s.ctxs.map fun p => (p.2.inst, p.2.hold)) ++ (s.cmp.mboxes.map fun p => (p.1, p.2.hold)) ++ [(256, s.mgt.hold)]

/-- Grains taken from a floor. -/
def floorUsed (s : State) (pool : Nat) : Nat :=
  (s.holds.map fun h => if h.2.pool = pool then h.2.fl else 0).sum

/-- Free grains of the shared remainder (Table 9.2): 131,072 grains less the oversize reserve, the context area and the floors. -/
def sharedFree (s : State) : Nat :=
  131072 - 256 - 1664 - ((List.range 12).map s.floorCap).sum - (s.holds.map fun h => h.2.sh).sum - s.landOut.length

/-- Free grains of the oversize reserve. -/
def ovsFree (s : State) : Nat := 256 - (s.holds.map fun h => h.2.ovs).sum

/-- Grains charged to an instance; an oversize operation charges min(g, Q) (R212). -/
def instUse (s : State) (i : Nat) : Nat :=
  (s.holds.map fun h => if h.1 = i then h.2.fl + h.2.sh + min h.2.ovs (s.inst i).lquota else 0).sum

/-- Free quota of an instance in grains. -/
def quotaFree (s : State) (i : Nat) : Nat := (s.inst i).lquota - s.instUse i

/-- Takes `g` grains from a floor while it has room, and from the shared remainder otherwise (R208). -/
def takeRoom (s : State) (pool g : Nat) : Option Hold :=
  let n := min g (s.floorCap pool - s.floorUsed pool)
  if g - n ≤ s.sharedFree then some { pool := pool, fl := n, sh := g - n } else none

/-- Takes `g` grains for an instance, within its quota (R208). -/
def takeHold (s : State) (i pool g : Nat) : Option Hold :=
  if s.instUse i + g ≤ (s.inst i).lquota then s.takeRoom pool g else none

/-- Whether posted admission of an instance is withheld: it holds an oversize posted write (R212). -/
def withheld (s : State) (i : Nat) : Bool :=
  s.ops.any fun p => (s.entry p.1).inst == i && (s.entry p.1).pst && 0 < p.2.hold.ovs

end State

/-- Grains that a number of bytes needs. -/
def grainsOf (n : Nat) : Nat := ceilDiv n 256

/-- A hold after `n` of its grains return; shared grains return first (log entry 22). -/
def Hold.drop (h : Hold) (n : Nat) : Hold :=
  { h with ovs := h.ovs - n, sh := h.sh - (n - h.ovs), fl := h.fl - (n - h.ovs - h.sh) }

/-- Grains of a hold. -/
def Hold.total (h : Hold) : Nat := h.fl + h.sh + h.ovs

/-- A hold with another taken from the same pool added. -/
def Hold.add (h k : Hold) : Hold := { pool := k.pool, fl := h.fl + k.fl, sh := h.sh + k.sh, ovs := h.ovs + k.ovs }

namespace State

/-! ### Journal entries -/

/-- Whether a JE can be taken (R170): FREE, not reserved, not withheld (R175). -/
def jeFree (s : State) (j : Nat) : Bool :=
  (FMap.find j s.jnl.entries).isNone && (FMap.find j s.jnl.reserved).isNone && !s.jnl.withheld.any fun w => w.1 == j

/-- The first JE from `j` upward, wrapping, that can be taken. -/
def nextFree (s : State) : Nat → Nat → Option Nat
  | 0, _ => none
  | k + 1, j => if s.jeFree j then some j else s.nextFree k ((j + 1) % 4194304)

/-- Which free JE is taken is open: the search starts at a free value (log entry 23). -/
def pickJe (s : State) : Option Nat :=
  s.nextFree (s.jnl.entries.length + s.jnl.reserved.length + s.jnl.withheld.length + 1) (s.free % 4194304)

/-- Journal entries charged to an instance, reserved ones included (R170). -/
def jnlUse (s : State) (i : Nat) : Nat :=
  (s.jnl.entries.filter fun p => p.2.inst == i).length + (s.jnl.reserved.filter fun p => p.2 == i).length

/-- Whether an instance has room in its Journal quota and the Journal a free entry. -/
def jeRoom (s : State) (i : Nat) : Option Nat := if s.jnlUse i < (s.inst i).jquota then s.pickJe else none

/-- JNL_HWM follows the number of non-FREE entries. -/
def updHwm (s : State) : State := s.maxF Fld.jnlHwm_hwm s.jnl.entries.length

/-- Admission (R170): every field of the entry is set, with PROGRESS 0 and TS from GLB_TS, and the operation is recorded. -/
def admitOp (s : State) (je : Nat) (e : JEntry) (o : Op) : State :=
  let e := { e with st := .admitted, ts := s.ts % 2 ^ 32, serial := s.jnl.serial, progress := 0, since := s.ts }
  let s := s.modJnl fun j => { j with
    entries := FMap.put je e j.entries, reserved := FMap.del je j.reserved, serial := j.serial + 1 }
  { s with ops := FMap.put je { o with age := s.ts } s.ops }.updHwm.jwChange

/-- Moves an entry to another state. -/
def setSt (s : State) (je : Nat) (st : JSt) : State :=
  (s.modJnl fun j => { j with entries := FMap.upd je (fun e => { e with st := st, since := s.ts }) j.entries }).jwChange

/-- Takes every queued exchange of an operation out of a port's queue. -/
def dequeueOp (s : State) (je p : Nat) : State :=
  s.modPort p fun q => { q with queue := q.queue.filter fun y => y.2.je != some je }

/-! ### EVENTs that keep their place behind a DN's writes (R205) -/

/-- A posted UP-WR of a DN that was admitted before serial `upTo` and whose MWR has not been handed to Thaty egress. -/
def writesBehind (s : State) (n upTo : Nat) : Bool :=
  s.ops.any fun p =>
    let e := s.entry p.1
    e.kind == 5 && e.dn == n && decide (e.serial < upTo) && !p.2.np && !p.2.posted && !p.2.done

/-- Sends an EVENT for a DN from a part, or keeps it until the DN's earlier writes have been handed over (R205). -/
def dnEvent (s : State) (n inp sub inst code vc add : Nat) (body : List Byte) : State :=
  if s.writesBehind n s.jnl.serial then
    { s with evWait := s.evWait ++
        [{ dn := n, upTo := s.jnl.serial, inp := inp, sub := sub, inst := inst, code := code, vc := vc, add := add, body := body }] }
  else s.eventFrom inp sub inst code vc add body

/-- Sends the EVENTs of a DN that waited, as far as no write stands before them. -/
def flushEvents (s : State) (n : Nat) : State :=
  let go (e : EvWait) : Bool := e.dn == n && !s.writesBehind n e.upTo
  (s.evWait.filter go).foldl (fun s e => s.eventFrom e.inp e.sub e.inst e.code e.vc e.add e.body)
    { s with evWait := s.evWait.filter fun e => !go e }

/-- The entry becomes FREE, and nothing of its operation stays, in a queue neither; EVENTs that waited for its write go. -/
def freeJe (s : State) (je : Nat) : State :=
  let e := s.entry je
  let s := match s.op? je with
    | some o => if e.kind = 7 then s.dequeueOp je o.port else s
    | none => s
  let s := { s with jnl := { s.jnl with entries := FMap.del je s.jnl.entries }, ops := FMap.del je s.ops }.jwChange
  if e.kind = 5 then s.flushEvents e.dn else s

/-- A failure takes its number in the order of failures (R151). -/
def numberFail (s : State) (je : Nat) : State :=
  (s.modOp je fun o => if o.failNo = 0 then { o with failNo := s.jnl.fails + 1 } else o).modJnl fun j => { j with fails := j.fails + 1 }

/-- Records the first error of an operation (R169): ERR, the address of the first failing piece, and its STATUS record. -/
def fail (s : State) (je : Nat) (f : Fail) (detail gaddr : Nat) (rec : List Byte) : State :=
  let e := s.entry je
  if e.err ≠ 0 ∨ (s.op? je).isNone then s else
  let s := (s.modEntry je fun e => { e with err := failCode e.kind f }).numberFail je
  (s.modOp je fun o => { o with failG := some gaddr, failTs := s.ts, fst := failStatus f, status := rec }).modX je
    fun x => { x with detail := detail }

/-! ### Queues of device addresses (R85, R203) -/

end State

/-- Whether one queued exchange is older than another (R85, R203). -/
def XReq.older (a b : XReq) : Bool := a.age < b.age || (a.age == b.age && a.serial < b.serial)

/-- A queue with an exchange inserted by age. -/
def insertReq (d : Nat) (x : XReq) : List (Nat × XReq) → List (Nat × XReq)
  | [] => [(d, x)]
  | y :: ys => if x.older y.2 then (d, x) :: y :: ys else y :: insertReq d x ys

namespace State

/-- Queues an exchange at a device address. -/
def enqueue (s : State) (p d : Nat) (x : XReq) : State := s.modPort p fun q => { q with queue := insertReq d x q.queue }

/-- Queues an operation at its device address, where it stands until its last piece opens (R203). -/
def enqueueOp (s : State) (je : Nat) (kind : XKind) (refusals : Nat := 0) (notBefore : Nat := 0) (reissued : Nat := 0) : State :=
  match s.op? je with
  | none => s
  | some o =>
    let e := s.entry je
    s.enqueue o.port o.daddr { kind := kind, je := some je, dn := e.dn, cls := e.cls, age := o.age, serial := e.serial, inst := e.inst,
                                refusals := refusals, notBefore := notBefore, reissued := reissued }

/-! ### Requests to host memory -/

end State

/-- Request header for the bytes `addr` to `addr + n − 1`, with exactly those enabled. -/
def spanHdr (vc : Nat) (np : Bool) (reqId : BitVec 20) (tag addr n : Nat) : ReqHdr :=
  let c := spanSpec addr n 1
  { vc := Fin.ofNat 4 vc, priv := false, np := np, poison := false, reqId := reqId, tag := BitVec.ofNat 16 tag
    fbe := BitVec.ofNat 8 c.fm, lbe := BitVec.ofNat 8 (if c.n = 8 then 0 else c.lm)
    len := codeLen (c.n / 8), addr := BitVec.ofNat 56 c.base }

/-- The lowest byte that a mask of eight enables, and the highest (R46). -/
def lowBit8 (m : Nat) : Nat := ((List.range 8).find? fun i => bit i m).getD 0
def highBit8 (m : Nat) : Nat := ((List.range 8).reverse.find? fun i => bit i m).getD 0

/-- Bytes as granules: zeros before and after. -/
def padGranules (addr : Nat) (bs : List Byte) : List Byte :=
  List.replicate (addr % 8) 0 ++ bs ++ List.replicate ((8 - (addr + bs.length) % 8) % 8) 0

/-- What becomes of a read that the bridge would issue: handed to Thaty egress, refused by G_TLINK, or no tag or place is free. -/
inductive Issue
  | sent | refused | full
  deriving DecidableEq, Repr

namespace State

/-- Link of an instance's traffic (R127). -/
def instLink (s : State) (i : Nat) : Nat := s.f Fld.evDest_link i

/-- The tags that outstanding and quarantined requests hold on either link: those of one link may move to the other, whose tag space then
never holds a tag twice (R69). -/
def heldTags (s : State) : List Nat :=
  [0, 1].flatMap fun l => ((s.link l).outst.map fun r => r.tag) ++ (s.link l).quar

/-! ### Table words (R274, R284) -/

/-- A word of a WTT or DVT entry is found wrong: corrected, or the entry is as one that is not valid until it is rewritten. -/
def tblWordError (s : State) (t : Tbl) (n syn : Nat) (e : WordErr) : State :=
  let s := s.exUse 2
  match t, e with
  | .wtt, .corrected => s.raise 0x062 0 none none syn
  | .dvt, .corrected => s.raise 0x062 1 none none syn
  | .wtt, .uncorrectable => (s.modTbl fun u => { u with wttBad := u.wttBad ++ [n] }).raise 0x063 0 none none syn
  | .dvt, .uncorrectable => (s.modTbl fun u => { u with dvtBad := u.dvtBad ++ [n] }).raise 0x063 1 none none syn

/-- A lookup reads a table entry, whose check an exercise may fail; the syndrome is open. -/
def tblCheck (s : State) (t : Tbl) (n : Option Nat) : State :=
  match n with
  | some n => if s.exOn 2 then (s.tblWordError t n (s.free % 256) (s.exKind 2 .corrected)).draw else s
  | none => s

/-- The first tag from `t` upward that is not held (R55). -/
def nextTag (held : List Nat) : Nat → Nat → Option Nat
  | 0, _ => none
  | n + 1, t => if held.contains t then nextTag held n ((t + 1) % 65536) else some t

/-- A tag for a new request; which is open (log entry 24). At most 4,096 requests are outstanding on a link (R55). -/
def pickTag (s : State) (l : Nat) : Option Nat :=
  if 4096 ≤ (s.link l).outst.length then none else nextTag s.heldTags (s.heldTags.length + 1) (s.free % 65536)

/-- Issues a non-posted request of the bridge with a header and payload (R55, R57), checked under `id` at the G_TLINK of the link that R127
names, not of the one to which failover has moved its traffic (R247). -/
def issue (s : State) (l₀ id : Nat) (wr : Bool) (h : ReqHdr) (data : List Byte) (a z : Nat) (pur : Purpose) (inst : Option Nat) :
    Issue × State :=
  let l := s.route l₀
  match s.pickTag l with
  | none => (.full, s)
  | some t =>
    let r := s.gateCheck (gTlink l₀) id a z (!wr) wr inst
    if !r.1 then (.refused, r.2) else
    let s := r.2.draw
    let h := { h with tag := BitVec.ofNat 16 t }
    let rq : OutReq := { tag := t, vc := h.vc.val, addr := h.addr.toNat, granules := granulesOf h.len.toNat, destId := h.reqId, wr := wr,
                         purpose := pur }
    let s := s.modLink l fun k => { k with outst := k.outst ++ [rq] }
    (.sent, s.handTx l (if wr then .mwr h data else .mrd h))

/-- Reads `n` bytes of host memory for an instance. -/
def instRead (s : State) (i vc addr n : Nat) (pur : Purpose) : Issue × State :=
  s.issue (s.instLink i) (s.inst i).reqId.toNat false (spanHdr vc false (s.inst i).reqId 0 addr n) [] addr (addr + n - 1) pur (some i)

/-- Checks a posted write of an instance at G_TLINK; the packet that carries it. -/
def instMwr (s : State) (i vc addr : Nat) (bs : List Byte) : Bool × Packet × State :=
  let id := (s.inst i).reqId
  let r := s.gateCheck (gTlink (s.instLink i)) id.toNat addr (addr + bs.length - 1) false true (some i)
  (r.1, .mwr (spanHdr vc false id 0 addr bs.length) (padGranules addr bs), r.2)

/-- Writes bytes that lie in one 4,096-byte block to host memory from a part, as one posted MWR; false where G_TLINK refuses. -/
def instWrite (s : State) (x : XSrc) (vc addr : Nat) (bs : List Byte) (frees : List Nat := []) : Bool × State :=
  let r := s.instMwr x.inst vc addr bs
  (r.1, if r.1 then r.2.2.sendFrom x (s.instLink x.inst) r.2.1 frees else r.2.2)

/-- Writes bytes to host memory, one MWR per 4,096-byte block, until one is refused; how many bytes were written. -/
def instWrites (x : XSrc) (vc : Nat) : Nat → Nat → List Byte → Nat → State → Bool × Nat × State
  | 0, _, _, w, s => (true, w, s)
  | k + 1, addr, bs, w, s =>
    if bs.isEmpty then (true, w, s) else
    let n := min bs.length (4096 - addr % 4096)
    let r := s.instWrite x vc addr (bs.take n)
    if r.1 then instWrites x vc k (addr + n) (bs.drop n) (w + n) r.2 else (false, w, r.2)

/-- A part that sends for an operation. -/
def srcOp (s : State) (inp sub je : Nat) : XSrc :=
  let e := s.entry je
  { inp := inp, sub := sub, cls := e.cls, inst := e.inst, own := .op je, serial := e.serial
    age := match s.op? je with | some o => o.age | none => s.ts }

/-! ### STATUS frames of the bridge (R76, R80) -/

end State

/-- A frame without address, payload and arguments. -/
def baseFrame (ftype daddr : Nat) : Frame :=
  { ftype := BitVec.ofNat 5 ftype, ax := false, daddr := BitVec.ofNat 11 daddr, len := 0, fbe := 0, lbe := 0, addr := 0, arg := 0
    crc := 0 }

/-- The bytes of a frame before its CRC (Tables 4.2 and 4.3), reserved fields as the sender wrote them. -/
def frameBody (f : Frame) : List Byte :=
  natBytes 4 (f.ftype.toNat * 2 ^ 27 + b2n f.ax * 2 ^ 26 + f.daddr.toNat * 2 ^ 15 + f.rsvHead.toNat * 2 ^ 14 + f.len.toNat * 2 ^ 8
    + f.fbe.toNat * 16 + f.lbe.toNat)
  ++ natBytes 4 (f.addr.toNat * 2 ^ 10 + f.rsvArg.toNat * 2 ^ 8 + f.arg.toNat)
  ++ (if f.ax then natBytes 4 (f.addrExt.toNat * 2 ^ 24 + b2n f.peer * 2 ^ 23 + f.srcPort.toNat * 2 ^ 15
        + f.srcDaddr.toNat * 2 ^ 4 + f.rsvExt.toNat) ++ natBytes 4 f.rsvTail.toNat else [])
  ++ f.payload

/-- A frame with its CRC (R77). -/
def sealFrame (f : Frame) : Frame := { f with crc := crc32c (frameBody f) }

/-- A STATUS frame. -/
def statusFrame (daddr : Nat) (rec : List Byte) : Frame := sealFrame { baseFrame 4 daddr with payload := rec }

namespace State

/-- Puts a bridge-written STATUS at the egress of a port, behind the RETRY and STATUS frames made before it (R76). -/
def queueStatus (s : State) (p : Nat) (x : StatusTx) : State := s.modPort p fun q => { q with statusQ := q.statusQ ++ [x] }

end State

/-- Whether waiting frames leave before others (R76): the higher class, then the older. -/
def EgressTx.before (a b : EgressTx) : Bool :=
  decide (a.cls < b.cls) || (a.cls == b.cls && (decide (a.age < b.age) || (a.age == b.age && decide (a.serial < b.serial))))

/-- Frames put into their place among those that wait. -/
def insertTx (x : EgressTx) : List EgressTx → List EgressTx
  | [] => [x]
  | y :: ys => if x.before y then x :: y :: ys else y :: insertTx x ys

namespace State

/-- Frames leave a port on a member lane (of a logical port all members act as one, R75). -/
def emitFrames (s : State) (p m : Nat) (fs : List Frame) : State := fs.foldl (fun s f => s.emit (.frame p m (sealFrame f))) s

/-- Frames other than RETRY and bridge-written STATUS are ready (R76): they leave at once, or wait behind those. -/
def sendFrames (s : State) (p : Nat) (x : EgressTx) : State :=
  if (s.port p).statusQ.isEmpty then
    let s := s.emitFrames p x.member x.frames
    match x.after with
    | some st => s.queueStatus p st
    | none => s
  else s.modPort p fun q => { q with egress := insertTx x q.egress }

/-- A RETRY is made (R76): it leaves at once, or behind the RETRY and STATUS frames made before it. -/
def sendRetryFrame (s : State) (p : Nat) (f : Frame) : State :=
  if (s.port p).statusQ.isEmpty then s.emitFrames p 0 [f]
  else s.queueStatus p { daddr := f.daddr.toNat, frame := sealFrame f, retry := true }

/-- What leaves a port next of itself (R76): RETRY frames at the head of their order, and once no STATUS waits the other frames, until one
of them makes a STATUS. -/
def flushPort : Nat → State → Nat → State
  | 0, s, _ => s
  | n + 1, s, p =>
    let q := s.port p
    match q.statusQ, q.egress with
    | x :: xs, _ => if x.retry then flushPort n ((s.modPort p fun q => { q with statusQ := xs }).emitFrames p 0 [x.frame]) p else s
    | [], y :: ys => flushPort n ((s.modPort p fun q => { q with egress := ys }).sendFrames p y) p
    | [], [] => s

/-! ### Read data and completions -/

end State

/-- Far-side bytes put at their offsets in a buffer of zeros. -/
def placeParts (n : Nat) (parts : List (Nat × List Byte)) : List Byte :=
  parts.foldl (fun b p => b.take p.1 ++ p.2 ++ b.drop (p.1 + p.2.length)) (List.replicate n 0)

/-- The order of each unit of `u` bytes reversed (R116). -/
def swapUnits (u : Nat) : Nat → List Byte → List Byte
  | 0, bs => bs
  | k + 1, bs => if bs.isEmpty then [] else (bs.take u).reverse ++ swapUnits u k (bs.drop u)

/-- Bytes under a swap of unit `u`. -/
def swapBytes (u : Nat) (bs : List Byte) : List Byte := if u ≤ 1 then bs else swapUnits u bs.length bs

/-- The data of a read in request order, every byte that is not enabled zero (R119). -/
def Op.readData (o : Op) : List Byte := swapBytes o.cut.u (placeParts o.cut.n o.parts)

namespace State

/-- Header of a completion the bridge returns (R53, R56). -/
def cplHdr (s : State) (h : ReqHdr) (status len : Nat) : CplHdr :=
  { vc := h.vc, poison := false, destId := h.reqId, tag := h.tag, status := BitVec.ofNat 4 status, last := true
    len := BitVec.ofNat 10 len, cmplId := s.bridgeId, offset := 0 }

/-- A CPL without data, or with the 32-byte STATUS for DE (R47). -/
def cplPkt (s : State) (h : ReqHdr) (status : Nat) (rec : List Byte) : Packet :=
  if status = 3 then .cpl (s.cplHdr h 3 4) rec else .cpl (s.cplHdr h status 0) []

/-- The completion of a direct or engine-path request (R56, Table 9.4). -/
def opCpl (s : State) (h : ReqHdr) (e : JEntry) (o : Op) : Packet :=
  if e.err = 0 ∧ !o.wr then .cpld (s.cplHdr h 0 h.len.toNat) o.readData
  else s.cplPkt h e.err o.status

/-- The number of an operation's first failure. -/
def failNo (s : State) (je : Nat) : Nat := match s.op? je with | some o => o.failNo | none => 0

/-- A notice put into its place among those that wait. -/
def insertNotice (s : State) (je : Nat) : List Nat → List Nat
  | [] => [je]
  | j :: js => if s.failNo je < s.failNo j then je :: j :: js else j :: s.insertNotice je js

/-- A posted failure: the entry waits in ERROR, and its notice is queued in the order of failures (R151, R218). -/
def oweNotice (s : State) (je : Nat) : State :=
  let i := (s.entry je).inst
  let s := ((s.setSt je .error).modOp je fun o => { o with hold := {}, area := {}, done := true }).numberFail je
  s.modPel i fun p => { p with waiting := s.insertNotice je p.waiting }

/-- The length of a CCD is incorrect (R137). HBYTES is counted as R137 gives. -/
def hbytes (x : CcdX) (progress : Nat) : Nat :=
  match x.c.op with
  | 1 | 4 => x.hdone
  | 2 | 3 => if x.c.cmp then x.s0.length else min progress x.c.count
  | 5 => 16 + (if x.old.isSome then 8 else 0)
  | _ => 0

/-- The CSTAT of a CCD whose far side ended without another error: OK or LENGTH (R137). -/
def ccdLength (x : CcdX) (progress : Nat) : Nat :=
  if x.excess then 1
  else if x.c.op < 1 ∨ 4 < x.c.op then 0
  else if hbytes x progress < x.c.count ∨ x.endShort ∨ (x.c.op = 1 ∧ x.c.cmp ∧ progress < x.c.gcount) then
    (if x.c.shortok then 0 else 1)
  else 0

/-- An engine-path access gives its context back. -/
def freeOpCtx (s : State) (o : Op) : State :=
  match o.ctx with
  | some k => s.freeCtx k
  | none => s

/-- The answer to a successful UP-RD: DATA in the class of its window, and then the closing STATUS (R76, R96). -/
def upAnswer (s : State) (je : Nat) (o : Op) (f : Frame) (pay : List Byte) (st : StatusTx) : State :=
  let e := s.entry je
  s.sendFrames o.sport {
    frames := [{ baseFrame 3 o.sdaddr with len := f.len, fbe := f.fbe, lbe := f.lbe, payload := pay }]
    cls := e.cls, age := o.age, serial := e.serial, after := some st }

/-- A STATUS made anew in the place of the one that waits for the completion of an entry at a port's egress. -/
def replaceStatus (s : State) (p je : Nat) (st : StatusTx) : State :=
  s.modPort p fun q => { q with statusQ := q.statusQ.map fun x => if x.je = some je then st else x }

/-- Whether a STATUS that completes an entry waits at a port's egress. -/
def statusOf (s : State) (p je : Nat) : Bool := (s.port p).statusQ.any fun x => x.je == some je

/-- The STATUS that closes a held peer transfer, preceded by DATA for a successful UP-RD (R114, Table 5.7). A posted one that fails before its
STATUS is sent closes with the error in its place (R217). -/
def peerStatus (s : State) (je : Nat) (e : JEntry) (o : Op) : State :=
  match o.frame with
  | none => s
  | some f =>
    let n := if f.len = 0 then 64 else f.len.toNat
    let good := e.err = 0
    let left := o.cut.count - e.progress
    let rec0 := if good then bridgeStatus false false 0 0 s.ts
      else if o.fst = 3 then o.status.take 2 ++ natBytes 2 (if o.wr then left - o.failDone else o.cut.count) ++ (o.status.drop 4)
      else bridgeStatus true false (if o.fst = 2 then 7 else if o.fst = 5 then 9 else 1) (if o.wr then 0 else o.cut.count) s.ts
    let off := f.addr.toNat * 4 % 8
    let st : StatusTx := { daddr := o.sdaddr, frame := statusFrame o.sdaddr rec0, je := some je, closesUp := true }
    let s := if good ∧ !o.wr then
        s.upAnswer je o f (slice off (4 * n) o.readData) st
      else if s.statusOf o.sport je then s.replaceStatus o.sport je st
      else s.queueStatus o.sport st
    s.setSt je .completed

/-- The completion of a direct or engine-path request is committed (R173): the entry becomes COMPLETED as the packet is handed to Thaty
egress; its grains return. -/
def finishCpl (s : State) (je : Nat) : State :=
  match s.op? je with
  | none => s
  | some o =>
    let e := s.entry je
    match o.hdr with
    | none => s
    | some h =>
      let t : TxPkt := { pkt := s.opCpl h e o, frees := [je], cls := e.cls, age := o.age, serial := e.serial }
      let s := (s.setSt je .completed).freeOpCtx o
      { s with ops := FMap.del je s.ops }.handPkt e.link t

/-- The far side of a direct or engine-path request has ended: its completion goes now, or waits for C0 tokens (R192). It comes from the spoke
group of its port, by logical port (R186), on the direct path, and from the Landing pool on the engine path (R12). -/
def oweCpl (s : State) (je : Nat) (e : JEntry) (o : Op) : State :=
  let inp := if e.kind < 2 then hubSpoke o.port else hubLanding
  let n := if e.err = 0 ∧ !o.wr then o.cut.n else if e.err = 3 then 32 else 0
  let s := (s.setSt je .farDone).modOp je fun o => { o with done := true, cur := none, stop := true }
  let r := s.formXfer inp (hubLink (s.route e.link) inp) e.cls e.inst (if e.kind < 2 then o.port else e.inst) n (.op je) (.cpl je)
  if r.1 then r.2.finishCpl je else r.2

/-- The far side of an operation has ended (R172): a direct or engine-path request completes at once, a posted one ends or owes a
notice, a CCD waits for its completion entry, a peer transfer answers its source. -/
def farEnd (s : State) (je : Nat) : State :=
  match s.op? je with
  | none => s
  | some o =>
    let s := s.dequeueOp je o.port
    let e := s.entry je
    if o.silent then (s.setSt je .farDone).freeJe je
    else if e.kind = 4 then
      let s := match o.x with
        | some x => if e.err = 0 then s.modEntry je fun e => { e with err := ccdLength x e.progress } else s
        | none => s
      if e.pst then (if (s.entry je).err = 0 then s.freeJe je else s.oweNotice je)
      else (s.setSt je .farDone).modOp je fun o => { o with done := true, hold := {}, area := {} }
    else if e.pst then
      let s := s.freeOpCtx o
      if e.err = 0 then s.freeJe je else s.oweNotice je
    else if e.kind < 4 then s.oweCpl je e o
    else if o.wr ∧ !o.np ∧ e.err = 0 then s.modOp je fun o => { o with done := true, hold := {} }
    else ((s.setSt je .farDone).peerStatus je e o).modOp je fun o => { o with done := true, hold := {} }

/-! ### Pieces -/

/-- The first byte of a piece's bytes in G_PORT's address space, and the region edge above it within the device address. -/
def pieceEdge (s : State) (o : Op) (a : Nat) : Nat :=
  min (2 ^ 32) (nextEdge (s.regions o.port) (o.daddr * 2 ^ 32 + a) - o.daddr * 2 ^ 32)

/-- The record of a gate refusal (Table 9.5). -/
def caRecord (s : State) : List Byte := bridgeStatus true false 7 0 s.ts

/-- Where an operation fails from outside: the start of the piece at hand, or else of the next one (R218). -/
def failAt (s : State) (o : Op) : Nat :=
  match o.cur, o.cut.piece o.maxb o.bound (s.pieceEdge o) o.pos with
  | some c, _ => c.1
  | none, some p => p.1
  | none, none => o.cut.base

/-- The Derailleur cuts the pieces of a direct or peer operation one per CORE cycle, each judged as it is cut, before a device answers the first
(R246): where the refused pieces start is noted, and for a read the first of them ends the operation. -/
def judgeAll (je : Nat) : Nat → Nat → State → State
  | 0, _, s => s
  | k + 1, pos, s =>
    match s.op? je with
    | none => s
    | some o =>
      match o.cut.piece o.maxb o.bound (s.pieceEdge o) pos with
      | none => s
      | some (a, e) =>
        let base := o.daddr * 2 ^ 32
        let r := s.gateCheck o.port o.ident (base + a) (base + e) (!o.wr) o.wr (some (s.entry je).inst) (some je)
        if r.1 then judgeAll je k (e + 1 - o.cut.base) r.2
        else
          let s := (r.2.fail je .ca 0 a r.2.caRecord).modOp je fun o => { o with bad := o.bad ++ [a], stop := o.stop || !o.wr }
          if o.wr then judgeAll je k (e + 1 - o.cut.base) s else s

/-- The next piece of an operation that its port's gate permits (R117, R118, R245, R246): a refused piece of a write is passed over, and
no piece of a read opens after a refusal. The operation's `cur` is then the piece at hand, or none where nothing is left. -/
def nextPiece (je : Nat) : Nat → State → State
  | 0, s => s
  | k + 1, s =>
    match s.op? je with
    | none => s
    | some o =>
      if o.stop then s.modOp je fun o => { o with cur := none }
      else match o.cut.piece o.maxb o.bound (s.pieceEdge o) o.pos with
        | none => s.modOp je fun o => { o with cur := none, stop := true }
        | some (a, e) =>
          let base := o.daddr * 2 ^ 32
          let r := if o.judged then (!o.bad.contains a, s)
            else s.gateCheck o.port o.ident (base + a) (base + e) (!o.wr) o.wr (some (s.entry je).inst) (some je)
          if r.1 then r.2.modOp je fun o => { o with cur := some (a, e), pos := e + 1 - o.cut.base }
          else
            let s := r.2.fail je .ca 0 a s.caRecord
            if o.wr then nextPiece je k (s.modOp je fun o => { o with pos := e + 1 - o.cut.base, cur := none })
            else s.modOp je fun o => { o with cur := none, stop := true }


/-- The far-side bytes `a` to `e` of a write, in far-side order. -/
def pieceData (o : Op) (a e : Nat) : List Byte :=
  (List.range (e + 1 - a)).map fun k => o.data.getD (swapAddr o.cut.u (a + k - o.cut.base)) 0

end State

end Sys2Proof.Machine
end

