-- ==== Sys2Proof/Machine/Doze.lean ====
section
/-! DEFINITION. Exit causes of DOZE (R309, R310) and what an exit or an abandoned entry does to links and ports (Tables 3.13, 4.17). -/

namespace Sys2Proof.Machine

namespace State

/-- DOZE exit at a link: a QUIET link retrains at full width. DEDUCED (log entry 76): a QUIET-REQ still unanswered is given up with the
entry, and a QUIET-ACK that comes later is ignored. -/
def wakeLink (s : State) (l : Nat) : State :=
  if (s.link l).st = .quiet then
    (s.modLink l fun k => { k with st := .retrain, fullWidth := true, quietReq := false }).incF Fld.tlkLinkCnt_retrains l
  else s.modLink l fun k => { k with quietReq := false }

/-- DOZE exit at the ports: a port in SLEEP starts training, and no port waits to sleep any more. -/
def wakePorts (s : State) : State :=
  { s with ports := s.ports.filterMap fun p =>
      let q := if p.2.st = .sleep then { p.2 with st := .train } else { p.2 with sleepPend := false }
      if q = {} then none else some (p.1, q) }

/-- The parts that a DOZE exit wakes (R310): every Hub port, every powered-down Thaty lane, every powered-down Gulum lane of a port in
use, and every active engine when ENG_IDLE is 0. -/
def exitParts (s : State) : List Part :=
  (List.range 24).map .hub
  ++ (List.range 32).map (fun n => .tlane (n / 16) (n % 16))
  ++ (if s.f Fld.pwrGate_eng_idle = 0 then (s.engs.filter fun e => e.2.role == .active).map fun e => .eng e.1 else [])
  ++ ((List.range 144).filter (fun p => s.f Fld.gptCfg_bond p != 3)).map .glane

/-- Queues the wakes of a DOZE exit, as class C1; a part that is up, granted or queued stays as it is. -/
def queueExitWakes (s : State) : State := s.exitParts.foldl (fun s p => s.queueWake p 1) s

/-- An exit cause (R305, R309): in DOZE the exit begins; in ENTERING the entry is abandoned, with the power-downs of engines that it queued (one
idle long enough falls due again by R304). PWR_MODE_STAT keeps the first cause. In other modes and phases it is no exit cause. -/
def exitSeen (s : State) (cause rule : Nat) : State :=
  let note (s : State) : State := (s.setF Fld.pwrModeStat_exit_cause cause).setF Fld.pwrModeStat_exit_rule rule
  if s.mode = .doze ∧ s.phase = .steady then { note s with phase := .exiting }
  else if s.mode = .run ∧ s.phase = .entering then
    let s := ((note s).incF Fld.pwrModeCnt_abandons).setF Fld.pwrModeStat_req_rej 1
    let s := { s with phase := .steady }.modPwr fun w => { w with
      pd := w.pd.filter fun p => match p with | .eng _ => false | _ => true }
    (((s.wakeLink 0).wakeLink 1).wakePorts).queueExitWakes
  else s

end State

end Sys2Proof.Machine
end

