-- ==== Sys2Proof/Machine/Attn.lean ====
section
/-! DEFINITION. Attention (R98 to R101), WAIT-ATTN (R146), signal maps and the telemetry digest (R148, R149). -/

namespace Sys2Proof.Machine

namespace State

/-! ### Attention -/

/-- An attention or storm EVENT of a DN, which its spoke group sends to the owner (R63, R205). -/
def attnEvent (s : State) (n code : Nat) (body : List Byte) : State :=
  let dv := s.device n
  s.dnEvent n (hubSpoke dv.port) dv.port dv.owner code (s.f Fld.evVec_vc (evVecIdx dv.owner code)) 0 body

/-- The lowest sideband input that feeds a DN (R101). -/
def sbiOf (s : State) (n : Nat) : Option Nat :=
  (List.range 16).find? fun k => s.fb Fld.gptSbiMap_en k && s.f Fld.gptSbiMap_dn k == n

/-- STORM of a DN as it applies now: a change applies from the next 1 ms interval (R122). -/
def stormNow (s : State) (n : Nat) : Nat :=
  match (s.dn n).storm with
  | some (iv, old) => if iv = s.msNow then old else (s.device n).storm
  | none => (s.device n).storm

/-- The storm threshold N of R99; none where muting is off. -/
def stormLimit (s : State) (n : Nat) : Option Nat :=
  let st := s.stormNow n
  if st = 0 then some 1 else if st = 0xFFFF then none else some st

/-- Whether EVENTs and deliveries of a DN go to its owner: the instance is ACTIVE or in DRAIN (R100). -/
def dnHears (s : State) (n : Nat) : Bool := (s.device n).v && s.instHears (s.device n).owner

/-- The deliveries a DN has had in the current 1 ms interval (R99). -/
def intervalCount (s : State) (n : Nat) : Nat := if (s.dn n).interval = s.msNow then (s.dn n).count else 0

/-- Queues an ACK-ATTN that a register write asks for, with the age of this moment (R98). -/
def queueAck (s : State) (p d n : Nat) : State :=
  let x : XReq := { kind := .ack, dn := n, cls := (s.device n).cls, age := s.ts, serial := s.jnl.serial }
  (s.enqueue p d x).modJnl fun j => { j with serial := j.serial + 1 }

/-- Queues the ACK-ATTN of a delivery for a WAIT-ATTN, with the age of its Journal timestamp (R85, R146). Its class is the DN's (R76, R108),
not the queue pair's of R126 (DEDUCED, log entry 83). -/
def queueAckFor (s : State) (n je : Nat) : State :=
  let dv := s.device n
  let e := s.entry je
  let age := match s.op? je with | some o => o.age | none => s.ts
  (s.enqueue dv.port dv.daddr { kind := .ack, je := some je, dn := n, cls := dv.cls, age := age, serial := e.serial }).modDn n
    fun d => { d with ackFor := some e.serial }

/-- The close of an ACK-ATTN exchange at a DN (Table 4.14). -/
def ackCloses (s : State) (n : Nat) : State := s.modDn n fun d => if d.attn = .delivered then { d with attn := .clear } else d

/-- An ACK-ATTN is over: a later one of the delivery is queued anew. -/
def ackOver (s : State) (n serial : Nat) : State :=
  s.modDn n fun d => if d.ackFor = some serial then { d with ackFor := none } else d

/-- The WAIT-ATTNs that wait for a DN. -/
def waiters (s : State) (n : Nat) : List Nat :=
  (s.ops.filter fun p => (s.entry p.1).dn == n && (match p.2.x with | some x => x.waiting | none => false)).map (·.1)

/-- A delivery satisfies a WAIT-ATTN (R146): with NOACK it ends now; otherwise it ends with its ACK-ATTN. -/
def satisfy (s : State) (pay : List Byte) (je : Nat) : State :=
  let s := s.modX je fun x => { x with waiting := false, sample := some pay }
  match (s.op? je).bind (·.x) with
  | some x => if bit 0 x.c.lbn then s.farEnd je else s
  | none => s

/-- The WAIT-ATTNs that end when an ACK-ATTN closes. -/
def ackers (s : State) (serial : Nat) : List Nat :=
  (s.ops.filter fun p => !p.2.done && (match p.2.x with | some x => x.ackOf == some serial | none => false)).map (·.1)

/-- Those of some WAIT-ATTNs that ask for an ACK-ATTN (NOACK 0). -/
def asksAck (s : State) (jes : List Nat) : List Nat :=
  jes.filter fun je => match (s.op? je).bind (·.x) with | some x => !bit 0 x.c.lbn | none => false

/-- The oldest of some operations (R85). -/
def oldestJe (s : State) : List Nat → Option Nat
  | [] => none
  | j :: js =>
    match s.oldestJe js with
    | none => some j
    | some k => if (s.entry k).serial < (s.entry j).serial then some k else some j

/-- WAIT-ATTNs wait for the ACK-ATTN of the present delivery, which is queued where none is queued or open (R146). -/
def joinAck (s : State) (n : Nat) (jes : List Nat) : State :=
  match s.oldestJe jes with
  | none => s
  | some je =>
    let s := if (s.dn n).ackFor.isSome then s else s.queueAckFor n je
    jes.foldl (fun s j => s.modX j fun x => { x with ackOf := (s.dn n).ackFor }) s

/-- WAIT-ATTNs are satisfied by one delivery, with one ACK-ATTN for all that ask for it. For a DN fed by a sideband input no frame is
sent, and the state returns to CLEAR at once (R101, R146). -/
def satisfyAll (s : State) (n : Nat) (pay : List Byte) (jes : List Nat) : State :=
  let asks := s.asksAck jes
  let s := jes.foldl (fun s je => s.satisfy pay je) s
  if asks.isEmpty then s
  else if (s.sbiOf n).isSome then asks.foldl (fun s j => s.farEnd j) (s.ackCloses n)
  else s.joinAck n asks

/-- Body of the attention EVENT (Table 4.15). -/
def attnBody (s : State) (n : Nat) (sbi : Option Nat) (pay : List Byte) : List Byte :=
  natBytes 4 ((match sbi with | some k => 2 ^ 31 + k * 2 ^ 24 | none => 0) + n) ++ natBytes 4 s.ts
  ++ (if sbi.isSome then List.replicate 16 0 else pay)

/-- A delivery (R100): the state and the counts step, the EVENT is sent, and the WAIT-ATTNs of the DN are satisfied. -/
def deliver (s : State) (n : Nat) (sbi : Option Nat) (pay : List Byte) : State :=
  let dv := s.device n
  let c := s.intervalCount n
  let s := s.modDn n fun d => { d with attn := .delivered, interval := s.msNow, count := c + 1, lastSample := pay, ackFor := none }
  let s := s.incF Fld.gptAttnCnt_delivered dv.port
  let s := if s.dnHears n && s.evOn dv.owner 2 then s.attnEvent n 2 (s.attnBody n sbi pay) else s
  s.satisfyAll n pay (s.waiters n)

/-- A storm (R99, R100): the DN is muted, and the storm EVENT is sent under the same conditions as a delivery's. -/
def storm (s : State) (n : Nat) : State :=
  let dv := s.device n
  let c := s.intervalCount n
  let s := (s.modDn n fun d => { d with attn := .muted }).incF Fld.gptAttnCnt_storms dv.port
  if s.dnHears n && s.evOn dv.owner 5 then s.attnEvent n 5 (natBytes 4 n ++ natBytes 4 (c * 65536)) else s

/-- An attention sample (Table 4.14). In DOZE and while the owner is in SQUASH no sample changes the state (R100, R309). -/
def attnSample (s : State) (n : Nat) (v : Bool) (sbi : Option Nat) (pay : List Byte) : State :=
  let dv := s.device n
  let s := if sbi.isNone then s.modDn n fun d => { d with lastAttn := v } else s
  if s.mode = .doze ∨ !s.works ∨ (s.inst dv.owner).st = .squash then s else
  match (s.dn n).attn with
  | .clear =>
    if v then
      if (match s.stormLimit n with | some k => decide (s.intervalCount n < k) | none => true) then s.deliver n sbi pay
      else s.storm n
    else s
  | .delivered => if v then s else (s.modDn n fun d => { d with attn := .clear }).incF Fld.gptAttnCnt_attn_clr dv.port
  | .muted => s

/-- Unmuting (Table 4.14). -/
def unmute (s : State) (n : Nat) : State := s.modDn n fun d => if d.attn = .muted then { d with attn := .clear } else d

/-- A write to an acknowledge register for a DN at a device address (R98, R101). -/
def ackWrite (s : State) (p d : Nat) : State :=
  match s.dnAt p d with
  | none => s.queueAck p d 262144
  | some n => if (s.sbiOf n).isSome then s.ackCloses n else s.queueAck p d n

/-! ### Signal maps and the digest -/

end State

/-- What a mapping gives for the eight slots: (value, valid, saturated). -/
abbrev Slots := FMap (Int × Bool × Bool)

/-- A 32-bit word as a signed number. -/
def signed32 (v : Nat) : Int := if v < 2 ^ 31 then v else (v : Int) - 2 ^ 32

/-- A signed number as 32 bits. -/
def word32 (x : Int) : Nat := (x % 2 ^ 32).toNat

namespace State

/-- One field of `map_fields` (R148). -/
def mapField (s : State) (r prof f : Nat) (m : Slots) : Slots :=
  let i := prof * 8 + f
  if !s.fb Fld.gptSmapFld_en i then m else
  let w := s.f Fld.gptSmapFld_width i
  let u := r / 2 ^ s.f Fld.gptSmapFld_bit i % 2 ^ w
  let v : Int := if s.fb Fld.gptSmapFld_signed i ∧ 0 < w ∧ bit (w - 1) u then (u : Int) - 2 ^ w else u
  let x : Int := v * signed32 (s.f Fld.gptSmapScale_scale i) + signed32 (s.f Fld.gptSmapOfs_ofs i)
  let hi : Int := 2 ^ 31 - 1
  let lo : Int := -(2 ^ 31)
  FMap.put (s.f Fld.gptSmapFld_slot i) (min (max x lo) hi, true, decide (hi < x ∨ x < lo)) m

/-- `map_fields` (R148). -/
def mapFields (s : State) (pay : List Byte) (prof : Nat) : Slots :=
  (List.range 8).foldl (fun m f => s.mapField (bytesNat pay) prof f m) []

/-- Bits 24 + s of the slots that a test picks. -/
def slotBits (m : Slots) (t : Bool × Bool → Bool) : Nat :=
  (m.map fun p => if t p.2.2 then 2 ^ (24 + p.1) else 0).sum

/-- VALID, SAT and the slots of a digest, which decide whether it differs from the last one (R149). -/
def digCore (m : Slots) : List Byte :=
  natBytes 4 (slotBits m (·.1)) ++ natBytes 4 (slotBits m (·.2))
  ++ (List.range 8).flatMap fun k => natBytes 4 (word32 (FMap.get (0, false, false) k m).1)

/-- The digest of Table 6.10. -/
def digest (seq ts n : Nat) (core : List Byte) : List Byte :=
  natBytes 4 seq ++ natBytes 4 ts ++ natBytes 4 (fieldAt 0 4 core + n) ++ core.drop 4
  ++ List.replicate 12 0 ++ natBytes 4 seq

/-- Maps a POLL-RESP and writes the digest where R149 calls for it. -/
def digestStep (s : State) (n : Nat) (pay : List Byte) : State :=
  let dv := s.device n
  let i := dv.owner
  if !dv.v || !dv.smapEn || s.mode == .doze || !s.works || !s.instHears i || !s.fb Fld.digCfg_en i then s else
  let core := digCore (s.mapFields pay dv.smap)
  let d := s.dn n
  if s.f Fld.digCfg_count i ≤ dv.digIdx then s.incF Fld.digCnt_dropped i
  else if !(s.fb Fld.digCfg_force i || d.digLast != some core) then s
  else if (match d.digTs with | some t => decide (s.ts < t + 100 * s.f Fld.digCfg_min i) | none => false) then s
  else
    let a := s.f Fld.digBaseLo_base_lo i * 4096 + s.f Fld.digBaseHi_base_hi i * 2 ^ 32 + 64 * dv.digIdx
    let r := s.instWrite (s.srcNow (hubSpoke dv.port) dv.port dv.cls i) dv.cls a (digest (d.digSeq + 1) s.ts n core)
    if r.1 then
      (r.2.modDn n fun d => { d with digSeq := d.digSeq + 1, digLast := some core, digTs := some s.ts }).incF Fld.digCnt_written i
    else r.2.incF Fld.digCnt_dropped i

end State

/-- GPT_SBI_UNMUTE, ATTN_INTERVAL and WAIT_ATTN_TIMEOUT share this file with what they act on. ATTN_INTERVAL (R99): an interval
boundary resets the delivery counts. -/
def execAttnInterval (s : State) : Host.Outcome State Fault Refusal :=
  let s := s.start
  .next <| if s.mode = .reset then s else
    { s with dns := s.dns.filterMap fun p =>
        let d := { p.2 with count := 0, interval := 0, storm := none }
        if d = {} then none else some (p.1, d) }

/-- WAIT_ATTN_TIMEOUT (R146): a WAIT-ATTN that still waits for a delivery ends with TIMEOUT, DETAIL 0x05. -/
def execWaitAttnTimeout (je : Fin 4194304) (s : State) : Host.Outcome State Fault Refusal :=
  let s := s.start
  .next <|
    if !s.works then s else
    match (s.op? je.val).bind (·.x) with
    | some x =>
      if x.waiting then
        ((s.modX je.val fun x => { x with waiting := false }).fail je.val .to 5 0 []).farEnd je.val
      else s
    | none => s

end Sys2Proof.Machine
end

