-- ==== Sys2Proof/Machine/Port.lean ====
section
/-! DEFINITION. Gulum exchanges (R83 to R97, R102): opening, answers, aborts, locks and polls. -/

namespace Sys2Proof.Machine

/-! ### Frames as received -/

/-- Words of a burst or payload: LEN 0 encodes 64 (Table 4.2). -/
def frameWords (f : Frame) : Nat := if f.len.toNat = 0 then 64 else f.len.toNat

/-- The 32-bit start address of a burst (R79); bits [31:24] are zero where AX is 0 (Table 4.3). -/
def frameAddr (f : Frame) : Nat := (if f.ax then f.addrExt.toNat * 2 ^ 24 else 0) + f.addr.toNat * 4

/-- Whether a frame's CRC is good (R77). -/
def frameGood (f : Frame) : Bool := crc32c (frameBody f) == f.crc

/-- The byte enables obey R79: one run; with more than one word, FBE ends at offset 3 and LBE starts at offset 0. -/
def enablesOk (n fbe lbe : Nat) : Bool :=
  if n = 1 then [1, 2, 4, 8, 3, 6, 12, 7, 14, 15].contains fbe && lbe == 0
  else [8, 12, 14, 15].contains fbe && [1, 3, 7, 15].contains lbe

/-- A burst obeys R79: it does not cross a 2 KiB boundary, and its enables are as given. -/
def burstOk (f : Frame) : Bool :=
  let a := frameAddr f
  a / 2048 == (a + 4 * frameWords f - 1) / 2048 && enablesOk (frameWords f) f.fbe.toNat f.lbe.toNat

/-- The lowest offset that a mask of four enables, and the highest. -/
def lowBit (m : Nat) : Nat := if bit 0 m then 0 else if bit 1 m then 1 else if bit 2 m then 2 else 3
def highBit (m : Nat) : Nat := if bit 3 m then 3 else if bit 2 m then 2 else if bit 1 m then 1 else 0

/-- The first and the last enabled byte of a burst. -/
def burstFirst (f : Frame) : Nat := frameAddr f + lowBit f.fbe.toNat
def burstLast (f : Frame) : Nat :=
  frameAddr f + 4 * (frameWords f - 1) + highBit (if frameWords f = 1 then f.fbe.toNat else f.lbe.toNat)

/-- Bytes that a burst enables. -/
def burstBytes (f : Frame) : Nat := burstLast f + 1 - burstFirst f

/-- A data frame carries the LEN, FBE and LBE of its command, and its bytes that are not enabled are zero (R79). -/
def dataOk (words fbe lbe : Nat) (f : Frame) : Bool :=
  frameWords f == words && f.fbe.toNat == fbe && f.lbe.toNat == lbe && f.payload.length == 4 * words
  && (f.payload.take (lowBit fbe)).all (· == 0)
  && (f.payload.drop (4 * (words - 1) + highBit (if words = 1 then fbe else lbe) + 1)).all (· == 0)

namespace State

/-- A port that receives: UP, and the bridge does its work. -/
def portRecv (s : State) (p : Nat) : Bool := s.works && (s.port p).st == .up

/-- Steps MALFORMED of a port. -/
def malformed (s : State) (p : Nat) : State := s.incF Fld.gptErrCnt_malformed p

/-- Whether the CRC check of a frame passes; under an exercise of the frame checkers it fails (R284). -/
def crcOk (s : State) (f : Frame) : Bool := frameGood f && !s.exOn 10

/-- A frame that fails its CRC is counted and reported (0x041). -/
def crcBad (s : State) (p : Nat) : State := ((s.exUse 10).incF Fld.gptErrCnt_crc_err p).raise 0x041 p

/-- The device addresses of a port that are listed, with their numbers. -/
def portDaddrs (s : State) (p : Nat) : List (Nat × Daddr) :=
  (s.daddrs.filter fun x => x.1 / 2048 == p).map fun x => (x.1 % 2048, x.2)

/-- Open channel-side exchanges, a held lock included, and open device-initiated exchanges (R84). DEDUCED (log entry 80): the bridge opens a
channel-side exchange while fewer than 60 channel-side ones are open, and fewer than 64 of both kinds. -/
def chanOpen (s : State) (p : Nat) : Nat := ((s.portDaddrs p).filter fun x => x.2.st == .cmd).length
def upOpen (s : State) (p : Nat) : Nat := ((s.portDaddrs p).filter fun x => x.2.st == .up).length

/-- The exchange at a device address closes: IDLE, or RESERVED after a fourth loss (R90). -/
def closeDaddr (s : State) (p d : Nat) : State :=
  s.modDaddr p d fun a => { a with st := if 4 ≤ a.losses then .reserved else .idle, opened := none, up := none, swallow := none }

/-! ### What an exchange gives to its operation -/

/-- Grains of fetched spans that are over once the bytes below `c` have closed (R208). -/
def spanGrains (spans : List (Nat × Nat)) (c : Nat) : Nat :=
  (spans.map fun x => if x.1 + x.2 ≤ c then grainsOf x.2 else (c - x.1) / 256).sum

/-- The host bytes of a WRITE CCD whose pieces have all closed once `c` device bytes have: with CMP those of the segments whose output ends
there. -/
def hostClosed (x : CcdX) (c : Nat) : Nat := if x.c.cmp then 16384 * (x.segEnds.filter (· ≤ c)).length else c

/-- After a piece of a write closes with success, its grains return where R208 and R212 say: a WRITE CCD's fetched data, an engine-path
write, and an oversize write. -/
def returnGrains (s : State) (je : Nat) : State :=
  match s.op? je with
  | none => s
  | some o =>
    if !o.wr then s else
    let k := (s.entry je).kind
    let keep (spans : List (Nat × Nat)) (c : Nat) : Nat := (spans.map fun x => grainsOf x.2).sum - spanGrains spans c
    let left := match o.x with
      | some x => keep x.spans (hostClosed x (o.closed - x.c.gaddr % 8))
        + (if x.fetching then grainsOf (x.hasked - (x.spans.map (·.2)).sum) else 0)
      | none => if k = 3 ∨ 0 < o.hold.ovs then keep [(0, o.cut.n)] o.closed else o.hold.total
    s.modOp je fun o => { o with hold := o.hold.drop (o.hold.total - left) }

/-- Device bytes of a READ or SENSE that have come and have not gone on to host memory or out of a transform. -/
def readBusy (x : CcdX) : Nat := x.s0.length - (if x.c.cmp then x.segs else x.s2.length)

/-- The grains of a READ's data return as the host writes that carry it are handed to Thaty egress (R208): what stays is that of a piece at hand,
of bytes that a transform still works on, and of host writes held for C0 tokens. -/
def readGrains (s : State) (je : Nat) : State :=
  match s.op? je with
  | none => s
  | some o =>
    match o.x with
    | none => s
    | some x =>
      if o.wr then s else
      let held := ((s.hub.held.filter fun h => h.own == .op je && h.inp == hubLanding).map (·.bytes)).sum
      let left := grainsOf (readBusy x + held) + (match o.cur with | some c => if o.took then grainsOf (c.2 + 1 - c.1) else 0 | none => 0)
      s.modOp je fun o => { o with hold := o.hold.drop (o.hold.total - left) }

/-- Ends an operation at the piece that failed: no later piece is sent (R118, Table 9.4). -/
def endAtPiece (s : State) (je : Nat) (f : Fail) (detail g : Nat) (rec : List Byte) : State :=
  ((s.fail je f detail g rec).modOp je fun o => { o with stop := true, cur := none }).farEnd je

/-- A Thaty status that ends a host access of a CCD (HOST_ERR, Table 6.6), `what`: 0 CCD fetch, 1 data read, 2 data write. -/
def hostErr (s : State) (je what st : Nat) : State :=
  let e := s.entry je
  if e.err ≠ 0 then s else
  (s.modEntry je fun e => { e with err := 6 }).modX je fun x => { x with detail := what * 16 + st }

/-- Writes the host bytes that a READ or SENSE has ready (R135), at most COUNT of them. -/
def pushHost (s : State) (je : Nat) : State :=
  match s.op? je with
  | some o =>
    match o.x with
    | some x =>
      let bs := (x.s2.take x.c.count).drop x.hdone
      if bs.isEmpty then s.readGrains je else
      let e := s.entry je
      let r := instWrites (s.srcOp hubLanding e.inst je) e.vc 5000 (x.c.data + x.hdone) bs 0 s
      let s := (r.2.2.modX je fun x => { x with hdone := x.hdone + r.2.1 }).readGrains je
      if r.1 then s else (s.hostErr je 2 2).modOp je fun o => { o with stop := true }
    | none => s
  | none => s

/-- The byte at a far-side offset among the parts received. -/
def partAt (parts : List (Nat × List Byte)) (j : Nat) : Option Byte :=
  (parts.find? fun p => p.1 ≤ j && j < p.1 + p.2.length).bind fun p => p.2[j - p.1]?

/-- The stream bytes that follow those already taken, as far as they have been received (R116: `g` is the offset of the transfer's
first byte in its first granule). -/
def takeStream (u g : Nat) (parts : List (Nat × List Byte)) : Nat → Nat → List Byte
  | 0, _ => []
  | k + 1, i =>
    match partAt parts (swapAddr u (i + g)) with
    | some b => b :: takeStream u g parts k (i + 1)
    | none => []

/-! ### Transform units (R234) -/

end State

/-- Data-unit size in bytes. -/
def duBytes (c : Ccd) : Nat := 512 * 2 ^ c.dus

/-- Whether every whole data unit that has come of a READ is decrypted. -/
def allDecrypted (x : CcdX) : Bool := !x.c.enc || x.s1.length == x.s0.length / duBytes x.c * duBytes x.c

/-- Whether a chunk of a CCD is there for a unit of a group (0 Fulling, 1 cipher). A READ whose pieces are over has a last decompression chunk, at
whose end its stream has ended or breaks off. -/
def chunkReady (o : Op) (x : CcdX) (g : Nat) : Bool :=
  if x.c.op = 2 then
    (if g = 0 then x.c.cmp && !x.end1 && 16384 * x.segs < x.c.count && min (16384 * (x.segs + 1)) x.c.count ≤ x.s0.length
     else x.c.enc && x.s2.length + duBytes x.c ≤ x.s1.length)
  else if x.c.op = 1 then
    !x.end2 && (if g = 0 then x.c.cmp && (x.segs < x.s1.length || (o.cur.isNone && o.stop && allDecrypted x))
      else x.c.enc && x.s1.length + duBytes x.c ≤ x.s0.length)
  else false

/-- Bytes that a chunk brings to its unit. -/
def chunkBytes (x : CcdX) (g : Nat) : Nat :=
  if g = 1 then duBytes x.c else if x.c.op = 2 then min 16384 (x.c.count - 16384 * x.segs) else min 4096 (x.s1.length - x.segs)

/-- The units on which the chunk that a unit's group would run has failed. -/
def badOf (x : CcdX) (u : Nat) : List Nat := if u < 8 then x.bad else x.cbad

namespace State

/-- Whether a unit (FUn: n, CUn: 8 + n) is retired. -/
def unitGone (s : State) (u : Nat) : Bool := s.cmp.retired.contains u

/-- Whether a unit may run a chunk of a CCD: it is not one on which the chunk failed (R236), unless no other unit of the group is left (log entry
88). -/
def unitMay (s : State) (x : CcdX) (u : Nat) : Bool :=
  !(badOf x u).contains u || (List.range 8).all fun k => let v := u / 8 * 8 + k; s.unitGone v || (badOf x u).contains v

/-- Whether a unit of a unit's group runs a chunk of a CCD: a stream runs through one unit at a time. -/
def inUnit (s : State) (je u : Nat) : Bool := s.cmp.busy.any fun b => b.1 / 8 == u / 8 && b.2 == (je, (s.entry je).serial)

/-- Whether a CCD waits for a unit. -/
def waitsUnit (s : State) (je u : Nat) : Bool :=
  match s.op? je with
  | none => false
  | some o =>
    match o.x with
    | none => false
    | some x => !o.done && (s.entry je).err == 0 && chunkReady o x (u / 8) && s.unitMay x u && !s.inUnit je u

/-- Whether a chunk is served before another: the higher class, then the older Journal timestamp. -/
def chunkBefore (s : State) (j k : Nat) : Bool :=
  let rank (i : Nat) : EgressTx := { frames := [], cls := (s.entry i).cls, age := match s.op? i with | some o => o.age | none => 0
                                     serial := (s.entry i).serial }
  (rank j).before (rank k)

/-- The chunk that a unit serves next. -/
def chunkFor (s : State) (u : Nat) : Option Nat :=
  (s.ops.filter fun p => s.waitsUnit p.1 u).foldl (fun m p => match m with
    | none => some p.1
    | some k => if s.chunkBefore p.1 k then some p.1 else some k) none

/-- The Hub carries a chunk from the Landing pool to a unit that is free. -/
def sendChunk (s : State) (je u : Nat) : State :=
  let e := s.entry je
  let n := match (s.op? je).bind (·.x) with | some x => chunkBytes x (u / 8) | none => 0
  { s with cmp := { s.cmp with busy := FMap.put u (je, e.serial) s.cmp.busy } }.addBlock hubLanding (hubUnit u) e.cls e.inst n (.op je)

/-- Every free unit takes the chunk that it serves next. Of several that are free the first is a free value's. -/
def serve (s : State) : State :=
  let us := ((List.range 16).map fun k => (k + s.free) % 16).filter fun u => !s.unitGone u && (FMap.find u s.cmp.busy).isNone
  if us.any fun u => (s.chunkFor u).isSome then
    us.foldl (fun s u => match s.chunkFor u with | some je => s.sendChunk je u | none => s) s.draw
  else s

/-- Moves received device bytes of a READ or SENSE through the stages that need no chunk, and on to host memory. -/
def flowRead (s : State) (je : Nat) : State :=
  match s.op? je with
  | some o =>
    if o.wr then s else
    match o.x with
    | some x =>
      let more := takeStream o.cut.u (x.c.gaddr % 8) o.parts 272 x.s0.length
      let s := s.modX je fun x =>
        let x := { x with s0 := x.s0 ++ more }
        let x := if x.c.enc then x else { x with s1 := x.s0 }
        if x.c.cmp then x else { x with s2 := x.s1 }
      (s.pushHost je).serve
    | none => s
  | none => s

/-- Whether a READ's transforms still have work (R225, R228). -/
def chunksLeft (x : CcdX) : Bool := x.c.op == 1 && !x.end2 && (!allDecrypted x || x.c.cmp)

/-- Goes on to the next piece, which stands in the queue of its device address (R203); when none is left the far side ends, a READ with
transforms only when these have no work left. -/
def goOn (s : State) (je : Nat) : State :=
  match s.op? je with
  | none => s
  | some o =>
    let s := nextPiece je (o.cut.n + 2) s
    match s.op? je with
    | none => s
    | some o =>
      if o.cur.isSome then s.enqueueOp je (if o.wr then .wr else .rd)
      else match o.x with
        | some x => if chunksLeft x && (s.entry je).err == 0 then s.serve else s.farEnd je
        | none => s.farEnd je

/-- Starts the pieces of a direct or peer operation, all of which are judged at once (R246). -/
def startPieces (s : State) (je : Nat) : State :=
  match s.op? je with
  | none => s
  | some o => ((judgeAll je (o.cut.n + 2) 0 s).modOp je fun o => { o with judged := true }).goOn je

/-- Read data crosses the Hub from the port that received it (R12, R113): to the Landing pool for an engine's operation, to the source's spoke
group for a peer UP-RD. That of the direct path crosses as the completion. -/
def readCross (s : State) (je n : Nat) (o : Op) : State :=
  let e := s.entry je
  let out := if e.kind = 7 then some (hubSpoke o.sport) else if e.kind < 2 then none else some hubLanding
  match out with
  | some q => if q = hubSpoke o.port then s else s.addXfer (hubSpoke o.port) q e.cls o.port n (.op je)
  | none => s

/-- A piece's exchange closed with success (R118): PROGRESS rises by `n` bytes, its data is kept, and its grains return. -/
def pieceGood (s : State) (je a e n : Nat) (data : Option (List Byte)) : State :=
  let s := (s.modEntry je fun x => { x with progress := x.progress + n }).modOp je fun o => { o with
    closed := e + 1 - o.cut.base, cur := none, crossed := false, took := false
    parts := match data with | some d => o.parts ++ [(a - o.cut.base, (d.drop (a % 4)).take n)] | none => o.parts }
  let s := match s.op? je, data with
    | some o, some _ => s.readCross je n o
    | _, _ => s
  s.returnGrains je

/-- The result of a piece's exchange (R137, R140, R216): `rec` is the closing STATUS, `data` the payload of its DATA frame. -/
def pieceResult (s : State) (je a e : Nat) (rec : List Byte) (data : Option (List Byte)) : State :=
  match s.op? je with
  | none => s
  | some o =>
    let w := fieldAt 0 2 rec
    let n := e + 1 - a
    if bit 15 w then
      ((s.modX je fun x => { x with last := rec }).modOp je fun o => { o with failDone := n - fieldAt 2 2 rec }).endAtPiece je .de 0 a rec
    else match o.x with
      | none => (s.pieceGood je a e n data).goOn je
      | some _ =>
        let m := if bit 9 w ∨ bit 14 w ∨ bit 13 w then n - fieldAt 2 2 rec else n
        let s := ((s.modX je fun x => { x with last := rec }).pieceGood je a e m data).flowRead je
        if bit 14 w ∨ bit 13 w then s.endAtPiece je .exc 0 a rec
        else if bit 9 w then
          ((s.modX je fun x => { x with endShort := true }).modOp je fun o => { o with stop := true }).goOn je
        else s.goOn je

/-! ### Opening an exchange (event a) -/

/-- A burst frame for the piece `a` to `e` of an operation (R117). -/
def burst (s : State) (ftype je : Nat) (o : Op) (a e : Nat) : Frame :=
  let peer := (s.entry je).kind == 7
  let ext := a / 2 ^ 24
  { baseFrame ftype o.daddr with
    ax := ext != 0 || peer, len := BitVec.ofNat 6 (pieceWords a e), fbe := BitVec.ofNat 4 (pieceFbe a e),
    lbe := BitVec.ofNat 4 (pieceLbe a e), addr := BitVec.ofNat 22 (a / 4), addrExt := BitVec.ofNat 8 ext, peer := peer,
    srcPort := if peer then BitVec.ofNat 8 o.sport else 0, srcDaddr := if peer then BitVec.ofNat 11 o.sdaddr else 0 }

/-- The DATA frame that follows the command `c` of a WR or UNLOCK-WR: whole words, the bytes that are not enabled zero. Of a peer operation
it carries AX = 1 with PEER and the source, as the command does (R113). -/
def burstData (c : Frame) (a e : Nat) (bs : List Byte) : Frame :=
  { baseFrame 3 c.daddr.toNat with
    ax := c.peer, peer := c.peer, srcPort := c.srcPort, srcDaddr := c.srcDaddr, len := c.len, fbe := c.fbe, lbe := c.lbe
    payload := List.replicate (a % 4) 0 ++ bs ++ List.replicate (3 - e % 4) 0 }

/-- Frames of a queued or open exchange, which go in its class and age (R76). -/
def reqTx (x : XReq) (fs : List Frame) : EgressTx := { frames := fs, cls := x.cls, age := x.age, serial := x.serial }

/-- Whether the bridge opens channel-side exchanges on a port now: UP, not on its way to SLEEP; in DOZE only polls of watch ports. -/
def portOpens (s : State) (p : Nat) (k : XKind) : Bool :=
  s.portRecv p && !(s.port p).sleepPend && (s.mode != .doze || k == .poll)

/-- Whether the data for a piece is at hand: its transfer is not held for C0 tokens (R192), every byte of a write has been placed, a LOCKED-RMW
has its operands. -/
def pieceReady (o : Op) (a e : Nat) : Bool :=
  !o.c0wait &&
  match o.x with
  | none => true
  | some x =>
    if x.c.op = 5 then x.operands.length == 16
    else if o.wr then (List.range (e + 1 - a)).all fun k => swapAddr o.cut.u (a + k - o.cut.base) < o.data.length
    else true

/-- Marks the exchange at a device address open. -/
def openAt (s : State) (p d : Nat) (x : XOpen) : State :=
  let s := s.modPort p fun q => { q with queue := q.queue.erase (d, x.req) }
  s.modDaddr p d fun a => { a with st := .cmd, opened := some x, openSerial := a.openSerial + 1 }

/-- The first exchange of an operation opens (Table 7.6). -/
def issued (s : State) (je : Nat) : State := if (s.entry je).st = .admitted then s.setSt je .issued else s

/-- Opens the piece at hand of an operation, judged again under the rules now in force (R251). -/
def openPiece (s : State) (p d je : Nat) (x : XReq) (o : Op) (a e : Nat) : State :=
  let base := d * 2 ^ 32
  let lock := x.kind == .lockRd
  let r := s.gateCheck p o.ident (base + a) (base + e) (lock || !o.wr) (lock || o.wr) (some (s.entry je).inst) (some je)
  if !r.1 then
    let s := (r.2.dequeueOp je p).fail je .ca 0 a r.2.caRecord
    if lock ∨ !o.wr then (s.modOp je fun o => { o with stop := true, cur := none }).farEnd je
    else (s.modOp je fun o => { o with cur := none }).goOn je
  else
    let s := (s.openAt p d { req := x, pieceA := a, pieceE := e }).modX je fun x => { x with last := [] }
    let s := s.issued je
    if lock then (s.modDaddr p d fun q => { q with lock := .locking, lockReq := some x }).sendFrames p (reqTx x [s.burst 7 je o a e])
    else if o.wr then
      let c := s.burst 1 je o a e
      s.sendFrames p (reqTx x [c, burstData c a e (pieceData o a e)])
    else s.sendFrames p (reqTx x [s.burst 2 je o a e])

/-- Whether an operation is an engine's, which hands its pieces to the Derailleur one by one (R161). -/
def byEngine (s : State) (je : Nat) : Bool := [2, 3, 4].contains (s.entry je).kind

/-- An engine hands a piece to its port by a Hub transfer (R12, R192): a write's data from the Landing pool, a read's command from the engine's
cluster; whether the piece has crossed, or waits for C0 tokens. -/
def crossPiece (s : State) (p je : Nat) (o : Op) (a e : Nat) : Bool × State :=
  if o.crossed || !s.byEngine je then (true, s) else
  let n := s.entry je
  let r := if o.wr then s.formXfer hubLanding (hubSpoke p) n.cls n.inst n.inst (e + 1 - a) (.op je) (.piece je)
    else s.formXfer (hubCluster n.eng) (hubSpoke p) n.cls n.inst n.eng 0 (.op je) (.piece je)
  (r.1, r.2.modOp je fun o => { o with crossed := true, c0wait := !r.1 })

/-- The grains for the data of a READ's or SENSE's piece (R208): a K-floor grain for each 256 bytes; whether they are had. -/
def takePiece (s : State) (je : Nat) (o : Op) (a e : Nat) : Bool × State :=
  match o.x with
  | none => (true, s)
  | some x =>
    if o.took || (x.c.op != 1 && x.c.op != 4) then (true, s) else
    match s.takeHold (s.entry je).inst (3 * (s.entry je).cls + 2) (grainsOf (e + 1 - a)) with
    | some h => (true, s.modOp je fun o => { o with hold := o.hold.add h, took := true })
    | none => (false, s)


/-- Opens the queued exchange that is oldest at a device address, where R84, R85, R87 and R90 let it open. An ACK-ATTN issues the WAIT-ATTNs
that it was queued for. -/
def openHead (s : State) (p d : Nat) (x : XReq) : State :=
  match x.kind with
  | .poll => ((s.openAt p d { req := x }).modDn x.dn fun n => { n with poll := .out }).sendFrames p (reqTx x [baseFrame 5 d])
  | .ack =>
    let s := (s.openAt p d { req := x }).sendFrames p (reqTx x [baseFrame 0xA d])
    if x.je.isSome then (s.ackers x.serial).foldl (fun s je => s.issued je) s else s
  | _ =>
    match x.je with
    | none => s
    | some je =>
      match s.op? je with
      | some o =>
        match o.cur with
        | some (a, e) =>
          if !pieceReady o a e then s else
          let t := s.takePiece je o a e
          if !t.1 then s else
          let r := t.2.crossPiece p je o a e
          if r.1 then r.2.openPiece p d je x o a e else r.2
        | none => s
      | none => s

/-- Whether what a queued exchange sends is at hand. -/
def reqReady (s : State) (x : XReq) : Bool :=
  match x.kind with
  | .poll | .ack => true
  | _ =>
    match x.je.bind s.op? with
    | some o => (match o.cur with | some (a, e) => pieceReady o a e | none => false)
    | none => false

/-- Whether the exchange at the head of a device address's queue may open there (R84, R87, R90): the port opens such exchanges, nothing is
open, held or reserved there, slots are free, and no back-off hint holds it. -/
def mayOpen (s : State) (p d : Nat) (x : XReq) : Bool :=
  let a := s.daddr p d
  s.portOpens p x.kind && a.st == .idle && a.lock == .none && decide (a.losses < 4) && decide (s.chanOpen p < 60)
    && decide (s.chanOpen p + s.upOpen p < 64) && decide (x.notBefore ≤ s.ts)

/-- Whether the opening frames of an exchange leave the port next (R76): no RETRY or STATUS waits, and no exchange that may open now at
another device address goes first by class and age. -/
def firstOut (s : State) (p d : Nat) (x : XReq) : Bool :=
  let q := s.port p
  q.statusQ.isEmpty && !q.queue.any fun y =>
    y.1 != d && (reqTx y.2 []).before (reqTx x []) && q.queue.find? (·.1 == y.1) == some y && s.mayOpen p y.1 y.2 && s.reqReady y.2

end State

/-- EXCHANGE_OPEN (R76, R83 to R85, R88 event a): the first byte of the opening frame is sent. -/
def execExchangeOpen (port : Fin 144) (daddr : Fin 2048) (s : State) : Host.Outcome State Fault Refusal :=
  let s := s.start
  .next <|
    let p := port.val
    let d := daddr.val
    match (s.port p).queue.find? (·.1 == d) with
    | none => s
    | some (_, x) => if s.mayOpen p d x ∧ s.firstOut p d x then s.openHead p d x else s

namespace State

/-! ### Locks (Table 4.11) -/

/-- The old value of a granted LOCKED-RMW is written to DATA + 16, once the operation ends (R147). -/
def writeOld (s : State) (je : Nat) : State :=
  match s.op? je with
  | some o =>
    match o.x with
    | some x =>
      match x.old with
      | some v =>
        let e := s.entry je
        let r := s.instWrite (s.srcOp hubLanding e.inst je) e.vc (x.c.data + 16) (List.replicate (8 - v.length) 0 ++ v)
        if r.1 then r.2 else (r.2.hostErr je 2 2).modX je fun x => { x with old := none }
      | none => s
    | none => s
  | none => s

/-- Ends a LOCKED-RMW. One that a STATUS with UNIT_CHECK or UNIT_EXCEPTION ended has that STATUS in its record (R140). -/
def endLocked (s : State) (je : Nat) : State :=
  let s := match s.op? je with
    | some o => if (s.entry je).err = 3 then s.modX je fun x => { x with last := o.status } else s
    | none => s
  (s.writeOld je).farEnd je

/-- The operation of a lock, if it is still there. -/
def lockJe (a : Daddr) : Option Nat := (a.lockReq.bind (·.je))

/-- No STATUS has ended the present exchange of a lock's operation. -/
def lockFresh (s : State) (a : Daddr) : State :=
  match lockJe a with
  | some je => s.modX je fun x => { x with last := [] }
  | none => s

/-- Sends UNLOCK-ABORT for a reason (Table 4.11), in the class and age of the locked operation. -/
def unlockAbort (s : State) (p d : Nat) (why : RelWhy) : State :=
  let a := s.daddr p d
  let x : XReq := a.lockReq.getD { kind := .lockRd, dn := 0, cls := 0, age := 0, serial := 0 }
  ((s.lockFresh a).modDaddr p d fun a => { a with lock := .releasing, relWhy := why, st := .cmd }).sendFrames p (reqTx x [baseFrame 9 d])

/-- The lock state of a device address returns to NONE, and its exchange closes. -/
def lockReleased (s : State) (p d : Nat) : State :=
  (s.closeDaddr p d).modDaddr p d fun a => { a with lock := .none, lockReq := none, relTries := 0, squashWait := false }

/-- Whether a STATUS has UNIT_CHECK or UNIT_EXCEPTION set (Table 4.5). -/
def unitExc (rec : List Byte) : Bool := bit 14 (fieldAt 0 2 rec) || bit 13 (fieldAt 0 2 rec)

/-- What the STATUS that ends a release brings about (Table 4.11). -/
def releaseDone (s : State) (p d : Nat) (rec : List Byte) : State :=
  let a := s.daddr p d
  let s := s.lockReleased p d
  match lockJe a with
  | none => s
  | some je =>
    match s.op? je with
    | none => s
    | some o =>
      let g := match o.cur with | some c => c.1 | none => 0
      match a.relWhy with
      | .wrote =>
        let s := s.modX je fun x => { x with last := rec }
        if bit 15 (fieldAt 0 2 rec) then (s.fail je .de 0 g rec).endLocked je
        else
          let c := match o.x with | some x => x.c.count | none => 0
          let s := s.modEntry je fun e => { e with progress := e.progress + c }
          (if unitExc rec then s.fail je .exc 0 g rec else s).endLocked je
      | .cas => (s.modX je fun x => { x with last := rec, detail := 1 }).endLocked je
      | .exc => s.endLocked je
      | .requeue =>
        match a.lockReq with
        | some x => s.enqueue p d { x with reissued := x.reissued + 1, refusals := 0, notBefore := 0 }
        | none => s
      | .endTo => ((s.modX je fun x => { x with last := rec }).fail je .to 1 g (bridgeStatus true true 1 0 s.ts)).endLocked je
      | .endDe =>
        let st := bridgeStatus true false 2 0 s.ts
        ((s.modX je fun x => { x with last := st }).fail je .fe 0 g st).endLocked je
      | .ended => s

/-- A LOCK-RD that was answered with a granting STATUS (R92): the lock is HELD, or released at once where its owner is gone. DEDUCED (log entry
85): where the STATUS has UNIT_CHECK or UNIT_EXCEPTION the CCD ends DEV_EXCEPT (R140), so no UNLOCK-WR follows and UNLOCK-ABORT releases the lock;
the old value was read. -/
def lockGranted (s : State) (p d je : Nat) (data : List Byte) (rec : List Byte) : State :=
  let a := s.daddr p d
  match a.opened with
  | none => s
  | some x =>
    if a.squashWait then s.unlockAbort p d .ended else
    let s := s.modDaddr p d fun q => { q with lock := .held }
    let bs := (data.drop (x.pieceA % 4)).take (x.pieceE + 1 - x.pieceA)
    let v := match s.op? je with
      | some o => swapBytes o.cut.u bs
      | none => bs
    let s := (s.modEntry je fun e => { e with progress := e.progress + v.length }).modX je fun c => { c with old := some v, last := rec }
    if unitExc rec then (s.fail je .exc 0 x.pieceA rec).unlockAbort p d .exc else s

/-- How an ACK-ATTN that did not close normally ends the WAIT-ATTNs it was queued for (R146). -/
def ackFails (s : State) (x : XReq) (f : Fail) (detail : Nat) (rec : List Byte) : State :=
  (s.ackers x.serial).foldl (fun s je =>
    ((s.modX je fun x => { x with last := rec, sample := if rec.isEmpty then x.sample else none }).fail je f detail 0 rec).farEnd
      je) (s.ackOver x.dn x.serial)

/-- What a port's loss of UP does to the operation of a device-initiated exchange (R104): an UP-WR whose data was wholly received goes on,
another ends in ERROR with ERR 0x01 and is FREE since nothing is owed, an UP-RD when its Thaty read ends. -/
def upLosesPort (s : State) (u : UpX) : State :=
  match u.je with
  | none => s
  | some je =>
    match s.op? je with
    | none => s
    | some o =>
      if (s.entry je).st = .completed then
        (if o.inflight then s.modEntry je fun e => { e with acked := true } else s.freeJe je)
      else if o.wr ∧ u.data.isNone then
        (((s.withdraw [je]).modEntry je fun e => { e with err := if e.err = 0 then 1 else e.err, st := .error }).dequeueOp je o.port).freeJe je
      else if o.done then s.freeJe je
      else s.modOp je fun o => { o with silent := true }

/-- What a port's loss of UP does at one device address (R104, Table 4.11). -/
def daddrLosesPort (s : State) (p : Nat) (x : Nat × Daddr) : State :=
  let d := x.1
  let a := x.2
  let locked := a.lock != .none && a.lock != .orphaned
  let s := s.modDaddr p d fun _ =>
    { lock := if a.lock = .none then .none else .orphaned, lockReq := if a.lock = .none then none else a.lockReq }
  let s := if locked then (s.incF Fld.gptLockCnt_orphaned p).raise 0x043 p else s
  let rec1 := bridgeStatus true true 1 0 s.ts
  let s := match a.opened with
    | none => match a.lock, lockJe a with
      | .none, _ => s
      | .orphaned, _ => s
      | _, some je => if (s.op? je).isSome && a.relWhy != .ended then (s.fail je .to 4 0 rec1).endLocked je else s
      | _, none => s
    | some o =>
      match o.req.kind, o.req.je with
      | .poll, _ => s
      | .ack, some _ => s.ackFails o.req .to 4 []
      | .ack, none => s
      | .lockRd, some je =>
        if (s.op? je).isSome && !(a.lock == .releasing && a.relWhy == .ended) then (s.fail je .to 4 o.pieceA rec1).endLocked je else s
      | _, some je => (s.withdraw [je]).endAtPiece je .to 4 o.pieceA rec1
      | _, none => s
  match a.up with
  | some u => s.upLosesPort u
  | none => s

/-- Members of a logical port. -/
def members (s : State) (p : Nat) : Nat := if s.f Fld.gptCfg_bond p = 1 then 2 else if s.f Fld.gptCfg_bond p = 2 then 4 else 1

/-- Steps a counter in the page of every member of a port (R103). -/
def memberInc (s : State) (x : Fld) (p : Nat) : State := (List.range (s.members p)).foldl (fun s m => s.incF x (p + m)) s

/-- A port goes from UP to DOWN (Table 4.17): nothing waits at its egress any more, and the loss is counted and reported. -/
def portFalls (s : State) (p : Nat) : State :=
  ((s.modPort p fun q => { q with st := .down, statusQ := [], egress := [], sleepPend := false, laneLock := 0 }).memberInc
    Fld.gptLinkCnt_downs p).raise 0x040 p

/-- What a port's loss of UP does to the attention and poll states of its devices (R104). -/
def dnsLosePort (s : State) (p : Nat) : State :=
  { s with dns := s.dns.filterMap fun (x : Nat × Dn) =>
      let n : Dn := if (s.device x.1).port = p then { x.2 with attn := .clear, poll := .wait, ackFor := none } else x.2
      if n = ({ poll := .wait } : Dn) then none else some (x.1, n) }

/-- A port leaves UP (R103, R104). In HALT the operations stand where they are, since the Journal is frozen (R177). -/
def leaveUp (s : State) (p : Nat) : State :=
  if (s.port p).st ≠ .up then s else
  let s := s.portFalls p
  if !s.works then s else
  let s := (s.modPort p fun q => { q with queue := q.queue.filter fun y => y.2.kind != .poll }).dnsLosePort p
  (s.portDaddrs p).foldl (fun s x => s.daddrLosesPort p x) s

/-- The LOCK-RD, or the release of a lock, got no good answer (events e and f in a locked sequence, R102). -/
def lockFail (s : State) (p d reason : Nat) : State :=
  let a := s.daddr p d
  let n := s.f Fld.gptRetryCtl_reissue p
  match a.lock with
  | .locking =>
    let again := match a.lockReq with | some x => decide (x.reissued < n) | none => false
    let s := s.modDaddr p d fun q => { q with relTries := 0 }
    if a.squashWait then s.unlockAbort p d .ended
    else s.unlockAbort p d (if again then .requeue else if reason = 1 then .endTo else .endDe)
  | .releasing =>
    let s := match a.relWhy, lockJe a with
      | .wrote, some je =>
        let g := match (s.op? je).bind (·.cur) with | some c => c.1 | none => 0
        let st := bridgeStatus true false 2 0 s.ts
        (if reason = 1 then s.fail je .to 1 g (bridgeStatus true true 1 0 s.ts)
          else (s.modX je fun x => { x with last := st }).fail je .fe 0 g st).endLocked je
      | _, _ => s
    let why := if a.relWhy = .wrote then .ended else a.relWhy
    if n ≤ a.relTries then s.leaveUp p else
    (s.modDaddr p d fun q => { q with relTries := q.relTries + 1 }).unlockAbort p d why
  | _ => s

/-! ### Answers -/

/-- Events (e) and (f) for an open channel-side exchange outside a locked sequence (R102): it is aborted with STATUS, and the operation
is re-issued or ended. Reason 0x01 is the timer, 0x02 a frame error. DEDUCED (log entry 81): the device address stays in CMD until the
last byte of that STATUS has been sent, so that an UP frame that comes before is refused as in CMD. -/
def abortCmd (s : State) (p d reason : Nat) : State :=
  match (s.daddr p d).opened with
  | none => s
  | some x =>
    let rec1 := bridgeStatus false true reason 0 s.ts
    let s := s.queueStatus p { daddr := d, frame := statusFrame d rec1, guard := true }
    let s := s.modDaddr p d fun a => { a with opened := none }
    let s := if reason = 1 ∧ x.req.kind ≠ .poll then s.incF Fld.gptErrCnt_resp_to p else s
    let again := decide (x.req.reissued < s.f Fld.gptRetryCtl_reissue p)
    let rq := { x.req with reissued := x.req.reissued + 1, refusals := 0, notBefore := 0 }
    let failed := if reason = 1 then bridgeStatus true true 1 0 s.ts else bridgeStatus true false 2 0 s.ts
    let kind : Fail := if reason = 1 then .to else .fe
    match x.req.kind, x.req.je with
    | .poll, _ => (s.incF Fld.gptErrCnt_poll_to p).modDn x.req.dn fun n => { n with poll := .wait }
    | .ack, some _ =>
      if again then s.enqueue p d rq
      else s.ackFails x.req kind (b2n (reason == 1)) (if reason = 1 then [] else failed)
    | .ack, none => if again then s.enqueue p d rq else s
    | .rd, some je =>
      if again then s.enqueue p d rq
      else (s.modX je fun c => { c with last := if reason = 1 then rec1 else failed }).endAtPiece je kind (b2n (reason == 1)) x.pieceA failed
    | _, some je =>
      (s.modX je fun c => { c with last := if reason = 1 then rec1 else failed }).endAtPiece je kind (b2n (reason == 1)) x.pieceA failed
    | _, none => s

/-! ### Device-initiated exchanges that end early -/

/-- Whether the closing STATUS of a device-initiated exchange already waits at egress, or follows DATA that waits there. -/
def statusWaits (s : State) (p d : Nat) : Bool :=
  let mine (x : StatusTx) : Bool := x.daddr == d && x.closesUp
  (s.port p).statusQ.any mine || (s.port p).egress.any fun y => match y.after with | some x => mine x | none => false

/-- The bridge closes an open device-initiated exchange with its own error STATUS (events e, f and k of Table 4.9, R115, R378). `code` is
the REASON, and ERR of an entry whose completion this STATUS is. -/
def closeUp (s : State) (p d code : Nat) (abort : Bool) : State :=
  let a := s.daddr p d
  match a.up with
  | none => s
  | some u =>
    if s.statusWaits p d then s else
    let st := statusFrame d (bridgeStatus true abort code (burstBytes u.frame) s.ts)
    match u.je with
    | none => s.queueStatus p { daddr := d, frame := st, closesUp := true }
    | some je =>
      let peer := (s.entry je).kind == 7 && (match s.op? je with | some o => !o.wr || u.data.isSome | none => false)
      if peer then
        -- R115: the destination operation runs to its own end, and nothing reports it
        (s.modOp je fun o => { o with silent := true }).queueStatus p { daddr := d, frame := st, closesUp := true }
      else
        -- the destination operation of a peer UP-WR whose data never came is not performed
        let s := match s.op? je with
          | some o => if (s.entry je).kind = 7 then s.dequeueOp je o.port else s
          | none => s
        let s := s.modEntry je fun e => { e with err := if e.err = 0 then code else e.err, st := .completed }
        ((s.modOp je fun o => { o with done := true, silent := true }).flushEvents (s.entry je).dn).queueStatus p
          { daddr := d, frame := st, je := some je, closesUp := true }

/-- Event (f), and event (e) where `reason` is 0x01, at a device address. -/
def badFrame (s : State) (p d reason : Nat) : State :=
  let a := s.daddr p d
  match a.st with
  | .cmd => if a.lock = .none then s.abortCmd p d reason else s.lockFail p d reason
  | .up =>
    let s := if reason = 1 ∧ a.up.isSome ∧ !s.statusWaits p d then s.incF Fld.gptErrCnt_resp_to p else s
    s.closeUp p d reason false
  | _ => s

/-- A frame for a device address that fails its CRC, or breaks R79 where that is event (f). -/
def frameFails (s : State) (p d : Nat) (crc : Bool) : State :=
  let s := if crc then s.crcBad p else if (s.daddr p d).st = .guard then s else s.malformed p
  s.badFrame p d 2

end State

/-- DATA (R83, R92): the data of the open read or LOCK-RD. -/
def execData (port : Fin 144) (f : Frame) (s : State) : Host.Outcome State Fault Refusal :=
  let s := s.start
  .next <|
    let p := port.val
    let d := f.daddr.toNat
    let a := s.daddr p d
    if !s.portRecv p then s
    else if !s.crcOk f then s.frameFails p d true
    else match a.st, a.opened with
      | .cmd, some x =>
        if (x.req.kind = .rd ∨ (x.req.kind = .lockRd ∧ a.lock = .locking)) ∧ x.gotData.isNone then
          if dataOk (pieceWords x.pieceA x.pieceE) (pieceFbe x.pieceA x.pieceE) (pieceLbe x.pieceA x.pieceE) f then
            s.modDaddr p d fun q => { q with opened := some { x with gotData := some f.payload } }
          else s.frameFails p d false
        else s.malformed p
      | .cmd, none => s
      | .guard, _ => s
      | _, _ => s.malformed p

namespace State

/-- A STATUS that closes the open channel-side exchange (event c). -/
def statusCloses (s : State) (p d : Nat) (x : XOpen) (rec : List Byte) : State :=
  let a := s.daddr p d
  let failed := bit 15 (fieldAt 0 2 rec)
  match x.req.kind, x.req.je with
  | .ack, _ =>
    let s := ((s.closeDaddr p d).ackCloses x.req.dn).ackOver x.req.dn x.req.serial
    if x.req.je.isSome then (s.ackers x.req.serial).foldl (fun s j => s.farEnd j) s else s
  | .wr, some je => (s.closeDaddr p d).pieceResult je x.pieceA x.pieceE rec none
  | .rd, some je =>
    if !failed ∧ x.gotData.isNone then s.malformed p
    else (s.closeDaddr p d).pieceResult je x.pieceA x.pieceE rec x.gotData
  | .lockRd, some je =>
    match a.lock with
    | .locking =>
      if failed ∧ a.squashWait then s.unlockAbort p d .ended
      else if failed then
        let s := (s.lockReleased p d).modX je fun c => { c with last := rec }
        (s.fail je .de 0 x.pieceA rec).farEnd je
      else match x.gotData with
        | some dt => s.lockGranted p d je dt rec
        | none => s.malformed p
    | .releasing => s.releaseDone p d rec
    | _ => s.malformed p
  | _, _ => s.malformed p

end State

/-- STATUS (R83, R88 event c, R118): the closing STATUS of a channel-side exchange. -/
def execStatus (port : Fin 144) (f : Frame) (s : State) : Host.Outcome State Fault Refusal :=
  let s := s.start
  .next <|
    let p := port.val
    let d := f.daddr.toNat
    let a := s.daddr p d
    if !s.portRecv p then s
    else if !s.crcOk f then s.frameFails p d true
    else match a.st, a.opened with
      | .cmd, some x =>
        if x.req.kind = .poll ∨ f.payload.length ≠ 32 then s.malformed p else s.statusCloses p d x f.payload
      | .cmd, none => if a.lock = .releasing then s.releaseDone p d f.payload else s
      | .guard, _ => s
      | _, _ => s.malformed p

/-- The back-off hint of a RETRY in GLB_TS ticks of 10 ns (R87). -/
def hintTicks (arg : Nat) : Nat := arg % 64 * 10 ^ (arg / 64 % 4 + 1)

namespace State

/-- A device refusal of an operation's piece or ACK-ATTN (R87): it returns to the queue with its age, or ends at RETRY_LIMIT. -/
def refusedByDevice (s : State) (p d : Nat) (x : XOpen) (arg : Nat) : State :=
  let n := x.req.refusals + 1
  let rq := { x.req with refusals := n, notBefore := s.ts + hintTicks arg }
  let limit := s.f Fld.gptRetryCtl_retry_limit p ≤ n
  match x.req.kind, x.req.je with
  | .poll, _ => (s.closeDaddr p d).modDn x.req.dn fun q => { q with poll := .wait }
  | .ack, some _ =>
    let s := (s.ackers x.req.serial).foldl (fun s je => s.modEntry je fun e => { e with retry := min (e.retry + 1) 255 }) (s.closeDaddr p d)
    if limit then s.ackFails x.req .to 2 [] else s.enqueue p d rq
  | .ack, none => let s := s.closeDaddr p d; if limit then s else s.enqueue p d rq
  | _, some je =>
    let s := s.modEntry je fun e => { e with retry := min (e.retry + 1) 255 }
    let s := if x.req.kind = .lockRd then s.lockReleased p d else s.closeDaddr p d
    if limit then s.endAtPiece je .to 2 x.pieceA (bridgeStatus true true 1 0 s.ts) else s.enqueue p d rq
  | _, none => s

end State

/-- RETRY (R87, R88 event d): a device refuses the open exchange. An UNLOCK-WR or UNLOCK-ABORT cannot be refused (Table 4.8). -/
def execRetry (port : Fin 144) (f : Frame) (s : State) : Host.Outcome State Fault Refusal :=
  let s := s.start
  .next <|
    let p := port.val
    let d := f.daddr.toNat
    let a := s.daddr p d
    if !s.portRecv p then s
    else if !s.crcOk f then s.frameFails p d true
    else match a.st, a.opened with
      | .cmd, some x =>
        let s := s.incF Fld.gptRetryCnt_retry_rx p
        if a.lock = .none ∨ a.lock = .locking then
          (if a.squashWait then s.unlockAbort p d .ended else s.refusedByDevice p d x f.arg.toNat)
        else s.malformed p
      | .cmd, none => s.incF Fld.gptRetryCnt_retry_rx p
      | .guard, _ => s.incF Fld.gptRetryCnt_retry_rx p
      | _, _ => (s.incF Fld.gptRetryCnt_retry_rx p).malformed p

/-- POLL_RESP (R97, R98): an attention sample, and the polled status for the signal map. -/
def execPollResp (port : Fin 144) (f : Frame) (s : State) : Host.Outcome State Fault Refusal :=
  let s := s.start
  .next <|
    let p := port.val
    let d := f.daddr.toNat
    let a := s.daddr p d
    if !s.portRecv p then s
    else if !s.crcOk f then s.frameFails p d true
    else match a.st, a.opened with
      | .cmd, some x =>
        if x.req.kind = .poll ∧ f.payload.length = 16 then
          let n := x.req.dn
          let s := (s.closeDaddr p d).modDn n fun q => { q with poll := .wait }
          (s.attnSample n (bit 15 (fieldAt 0 2 f.payload)) none f.payload).digestStep n f.payload
        else s.malformed p
      | .cmd, none => s
      | .guard, _ => s
      | _, _ => s.malformed p

/-- RESPONSE_TIMEOUT (R88 event e): the response timer of a device address in CMD or UP expires. The timer does not run while a lock is
HELD, nor once the closing STATUS waits at egress. -/
def execResponseTimeout (port : Fin 144) (daddr : Fin 2048) (s : State) : Host.Outcome State Fault Refusal :=
  let s := s.start
  .next <|
    let p := port.val
    let d := daddr.val
    let a := s.daddr p d
    if !s.portRecv p ∨ a.lock = .held then s
    else if a.st = .cmd ∧ a.lock ≠ .none then (s.incF Fld.gptErrCnt_resp_to p).lockFail p d 1
    else s.badFrame p d 1

end Sys2Proof.Machine
end

