-- ==== Sys2Proof/Machine/Up.lean ====
section
/-! DEFINITION. Device-initiated exchanges (R89, R90, R95, R96, R111 to R114), closing STATUS frames (R172, R217), reservations, the
ends of locks, and poll periods. -/

namespace Sys2Proof.Machine

namespace State

/-- A refusal of an UP frame with RETRY (Table 4.8): `cause`, and the hint of GPT_COLL_CTL.UP_HINT. `wr` marks an UP-WR, whose UP-DATA
is then taken and discarded. -/
def sendRetry (s : State) (p d cause : Nat) (wr : Bool) : State :=
  let s := s.sendRetryFrame p { baseFrame 0xB d with
    addr := BitVec.ofNat 22 (cause * 2 ^ 18), arg := BitVec.ofNat 8 (s.f Fld.gptCollCtl_up_hint p) }
  let s := s.incF Fld.gptRetryCnt_retry_tx p
  let s := if cause = 1 then s else s.incF Fld.gptSlotCnt_slot_full p
  s.modDaddr p d fun a => { a with upRefused := wr, lossSerial := a.openSerial + 1 }

/-- A collision (R89): the UP frame is refused with CAUSE 0x1. It counts as a loss when it is the first refusal since the loss count was
reset, or the exchange opened after the previous refusal, and when this exchange did not cause the previous loss; the fourth loss
reserves the device address (R90). -/
def collide (s : State) (p d : Nat) (wr : Bool) : State :=
  let a := s.daddr p d
  let loss := (a.lossSerial = 0 ∨ a.lossSerial < a.openSerial + 1) ∧ a.lossBy ≠ a.openSerial + 1
  let s := s.sendRetry p d 1 wr
  if loss then
    let s := (s.modDaddr p d fun q => { q with losses := q.losses + 1, lossBy := q.openSerial + 1 }).incF Fld.gptCollCnt_losses p
    if a.losses + 1 = 4 then s.incF Fld.gptCollCnt_reservations p else s
  else s

/-- What inbound translation finds (Table 5.6, R264): refused with a REASON (and whether MISMATCH counts), refused because the window's
owner drains or is squashed, or the source DN and the window. -/
inductive UpFound
  | no (reason : Nat) (mismatch : Bool)
  | leaving (owner : Nat)
  | ok (dn : Nat) (w : Window)
  deriving DecidableEq, Repr

/-- Inbound translation of an UP frame (R111, Table 5.6). -/
def upLookup (s : State) (p d g : Nat) : UpFound :=
  match s.dnAt p d, s.inWindow p d g with
  | some n, some (_, w) =>
    let dest := s.device w.dn
    if (s.inst w.owner).st = .free ∨ (s.device n).owner ≠ w.owner then .no 6 true
    else if w.peer ∧ (!dest.v ∨ dest.owner ≠ w.owner ∨ (dest.port = p ∧ dest.daddr = d)) then .no 6 true
    else if (s.inst w.owner).st ≠ .active then .leaving w.owner
    else .ok n w
  | _, _ => .no 6 false

/-- The first and last byte of a burst on the target side of its window, rounded to granules, with the swap and the enables after it
(R112, R116): offsets count from Gulum address `base`. -/
def upSpec (f : Frame) (u : Nat) : CutSpec :=
  let y0 := burstFirst f
  let y1 := burstLast f
  let base := y0 - y0 % 8
  let n := y1 / 8 * 8 + 8 - base
  let mask (o : Nat) : Nat :=
    ((List.range 8).map fun i => let y := swapAddr u (base + o + i); if y0 ≤ y ∧ y ≤ y1 then 2 ^ i else 0).sum
  { base := base, n := n, u := u, fm := mask 0, lm := mask (n - 8) }

/-- The request that an UP burst becomes (R112). -/
def upHdr (s : State) (w : Window) (c : CutSpec) : ReqHdr :=
  { vc := Fin.ofNat 4 w.cls, priv := false, np := w.np, poison := false, reqId := (s.inst w.owner).reqId, tag := 0
    fbe := BitVec.ofNat 8 c.fm, lbe := BitVec.ofNat 8 (if c.n = 8 then 0 else c.lm), len := codeLen (c.n / 8)
    addr := BitVec.ofNat 56 (w.toThaty c.base) }

/-- C0 operations of an instance without a C0 allotment run as C1 (R193). -/
def demote (s : State) (cls inst : Nat) : Nat × State :=
  if cls = 0 ∧ (s.inst inst).c0rate = 0 then (1, s.incF Fld.hubC0Cnt_noallot) else (cls, s)

/-- The end of a direct inbound operation with a Thaty status (R95, R96): DATA for a successful UP-RD, then the closing STATUS. Where the
exchange is closed already, nothing more is sent (R104, R378). -/
def upEnd (s : State) (je st : Nat) (data : List Byte) : State :=
  match s.op? je with
  | none => s
  | some o =>
    let s := s.modOp je fun o => { o with inflight := false }
    let e := s.entry je
    if o.silent then
      if e.st = .completed then (if e.acked then s.freeJe je else s)
      else (s.modEntry je fun e => { e with err := if e.err = 0 then 1 else e.err, st := .error }).freeJe je
    else
      match o.frame with
      | none => s
      | some f =>
        let code := if e.err ≠ 0 then e.err else match st with | 0 => 0 | 1 => 6 | 2 => 7 | 4 => 8 | 5 => 9 | 3 => 0xA | _ => 6
        let n := frameWords f
        let pay := (List.range (4 * n)).map fun k =>
          let y := frameAddr f + k
          if burstFirst f ≤ y ∧ y ≤ burstLast f then data.getD (swapAddr o.cut.u y - o.cut.base) 0 else 0
        let rec1 := bridgeStatus (code != 0) false code (if code = 0 then 0 else burstBytes f) s.ts
        let st : StatusTx := { daddr := o.sdaddr, frame := statusFrame o.sdaddr rec1, je := some je, closesUp := true }
        let s := s.modEntry je fun e => { e with err := if e.err = 0 then code else e.err, st := .completed }
        let s := (s.modOp je fun o => { o with done := true, hold := {} }).flushEvents e.dn
        if code = 0 ∧ !o.wr then s.upAnswer je o f pay st else s.queueStatus o.sport st


/-- Issues the MRD of an UP-RD (R96, R112). -/
def upRead (s : State) (je : Nat) : State :=
  match s.op? je with
  | none => s
  | some o =>
    match o.hdr with
    | none => s
    | some h =>
      let a := h.addr.toNat
      let first := a + lowBit8 h.fbe.toNat
      let last := a + o.cut.n - 8 + highBit8 (if o.cut.n = 8 then h.fbe.toNat else h.lbe.toNat)
      let r := s.issue o.link o.ident false { h with np := false } [] first last (.upRd je) (some (s.entry je).inst)
      let s := r.2.setSt je .issued
      match r.1 with
      | .sent => s.modOp je fun o => { o with inflight := true }
      | _ => s.upEnd je 2 []

/-- Forms the transfer of an admitted UP frame, charged to the C0 buckets (R192). -/
def upCharge (s : State) (je p out bytes : Nat) : State :=
  let e := s.entry je
  let r := s.formXfer (hubSpoke p) out e.cls e.inst p bytes (.op je) (.piece je)
  r.2.modOp je fun o => { o with c0wait := !r.1 }

/-- Admits an UP frame whose translation found a window (R95, R96, R112, R113). A lack of an entry, grains or a tag is RETRY with
CAUSE 0x3, and so is a posted write of an instance whose posted admission is withheld (R212). A demoted operation keeps the grains of its
window's class (R206). -/
def admitUp (s : State) (p d : Nat) (f : Frame) (wr : Bool) (n : Nat) (w : Window) : State :=
  let i := w.owner
  let pool := 3 * w.cls + (if !wr then 2 else if w.np then 1 else 0)
  match s.jeRoom i, s.takeHold i pool (grainsOf (4 * frameWords f)) with
  | some je, some h =>
    if (wr ∧ !w.np ∧ s.withheld i) ∨ (!w.peer ∧ (!wr ∨ w.np) ∧ (s.pickTag (s.route (s.instLink i))).isNone) then s.sendRetry p d 3 wr else
    let r := s.draw.demote w.cls i
    let s := r.2
    let u := swapUnit w.swap
    let c := upSpec f u
    let e : JEntry := { kind := if w.peer then 7 else if wr then 5 else 6, cls := r.1, inst := i, dn := n, link := s.instLink i
                        vc := w.cls, ref := p * 2 ^ 56 + d * 2 ^ 32 + frameAddr f }
    let dest := s.device w.dn
    let o : Op := { wr := wr, np := w.np, frame := some f, sport := p, sdaddr := d, ident := legacyIdent p d, hold := h
                    link := s.instLink i, hdr := some (s.upHdr w c), cut := c }
    let o := if w.peer then { o with
        port := dest.port, daddr := dest.daddr, tdn := w.dn, maxb := dest.maxb, bound := dest.bound
        cut := spanSpec (w.toPeer (burstFirst f)) (burstBytes f) u }
      else o
    let s := s.admitOp je e o
    let out := if w.peer then hubSpoke dest.port else hubLink (s.route o.link) (hubSpoke p)
    let s := s.upCharge je p out (if wr then burstBytes f else 0)
    let s := s.modDaddr p d fun a => { a with
      st := .up, up := some { je := some je, frame := f }, losses := 0, lossSerial := 0, upRefused := false }
    if w.peer then
      if wr then s.enqueueOp je .wr else s.startPieces je
    else if wr then s
    else match s.op? je with
      | some o => if o.c0wait then s else s.upRead je
      | none => s
  | _, _ => s.sendRetry p d 3 wr

/-- An UP frame that is not admitted and answered with STATUS (Table 5.6, R264): of an UP-WR the UP-DATA is taken first. It takes the device
address to UP as Table 4.9 has event (b) with a slot free, and resets the loss count (R88). -/
def refuseUp (s : State) (p d : Nat) (f : Frame) (wr : Bool) (reason : Nat) : State :=
  let s := s.modDaddr p d fun a => { a with
    st := .up, up := some { je := none, frame := f }, swallow := some reason, losses := 0, lossSerial := 0, upRefused := false }
  if wr then s
  else s.queueStatus p { daddr := d, frame := statusFrame d (bridgeStatus true false reason (burstBytes f) s.ts), closesUp := true }

/-- Whether the bridge has a Journal entry and Landing space for some UP burst: in the floor of one class or in the shared remainder. -/
def anyRoom (s : State) (wr : Bool) (g : Nat) : Bool :=
  s.pickJe.isSome && (List.range 4).any fun c =>
    let pool := 3 * c + (if wr then 0 else 2)
    g - min g (s.floorCap pool - s.floorUsed pool) ≤ s.sharedFree

/-- Whether there is a buffer for an UP frame, judged before translation (R95, R111). DEDUCED (log entry 82): where an inbound window of an
existing instance matches, an entry, grains and a tag of its owner and class; elsewhere an entry and Landing space of some class. -/
def upRoom (s : State) (p d : Nat) (f : Frame) (wr : Bool) : Bool :=
  let g := grainsOf (4 * frameWords f)
  match s.inWindow p d (frameAddr f) with
  | some (_, w) =>
    if (s.inst w.owner).st = .free then s.anyRoom wr g
    else (s.jeRoom w.owner).isSome && (s.takeHold w.owner (3 * w.cls + (if !wr then 2 else if w.np then 1 else 0)) g).isSome
      && (w.peer || (wr && !w.np) || (s.pickTag (s.route (s.instLink w.owner))).isSome) && !(wr && !w.np && s.withheld w.owner)
  | none => s.anyRoom wr g

/-- A well-formed or malformed UP-WR or UP-RD (events b and m of Table 4.9). -/
def upFrame (s : State) (p : Nat) (f : Frame) (wr : Bool) : State :=
  let d := f.daddr.toNat
  let a := s.daddr p d
  let asleep := s.mode = .doze ∨ s.phase = .entering
  if !s.portRecv p then s
  else if !s.crcOk f then s.frameFails p d true
  else if !burstOk f then
    match a.st with
    | .idle | .reserved =>
      ((s.malformed p).modDaddr p d fun q => { q with upRefused := wr }).queueStatus p
        { daddr := d, frame := statusFrame d (bridgeStatus true false 5 0 s.ts) }
    | _ => s.malformed p
  else match a.st with
    | .cmd => s.collide p d wr
    | .up => s.malformed p
    | .guard => s.sendRetry p d 1 wr
    | _ =>
      if asleep then
        let wake := match s.dnAt p d with | some n => (s.device n).wake | none => false
        let s := s.sendRetry p d 3 wr
        if wake then s.exitSeen 6 0 else s
      else if 64 ≤ s.chanOpen p + s.upOpen p then s.sendRetry p d 2 wr
      else if !s.upRoom p d f wr then s.sendRetry p d 3 wr
      else
        let s := (s.tblCheck .dvt (s.dnAt p d)).tblCheck .wtt ((s.inWindow p d (frameAddr f)).map (·.1))
        match s.upLookup p d (frameAddr f) with
        | .no reason mm =>
          let s := if mm then (s.incF Fld.updTblCnt_mismatch).raise 0x060 else s
          s.refuseUp p d f wr reason
        | .leaving i => (s.incF Fld.instCnt_refused i).refuseUp p d f wr 4
        | .ok n w => s.admitUp p d f wr n w

end State

/-- UP_WR (R95, R111). -/
def execUpWr (port : Fin 144) (f : Frame) (s : State) : Host.Outcome State Fault Refusal :=
  .next (s.start.upFrame port.val f true)

/-- UP_RD (R96, R111). -/
def execUpRd (port : Fin 144) (f : Frame) (s : State) : Host.Outcome State Fault Refusal :=
  .next (s.start.upFrame port.val f false)

namespace State

/-- The data of an admitted UP-WR has arrived, and its transfer is charged (R95, R112 to R114): the direct path hands its MWR to Thaty egress, the
peer path starts its destination operation; through a posted window the closing STATUS is written now, with the error where G_TLINK refuses the
MWR (R217). -/
def upAccept (s : State) (p d je : Nat) (o : Op) (f : Frame) (pay : List Byte) : State :=
  let y0 := burstFirst f
  let byte (y : Nat) : Byte := if y0 ≤ y ∧ y ≤ burstLast f then pay.getD (y - frameAddr f) 0 else 0
  let good : StatusTx := { daddr := d, frame := statusFrame d (bridgeStatus false false 0 0 s.ts), je := some je, closesUp := true }
  if (s.entry je).kind = 7 then
    let n := burstBytes f
    let bs := (List.range n).map fun k => byte (y0 + k)
    let s := s.modOp je fun o => { o with data := padGranules y0 bs }
    let s := if o.np ∨ o.silent then s else s.queueStatus p good
    (s.dequeueOp je o.port).startPieces je
  else
    let e := s.entry je
    let h := match o.hdr with | some h => h | none => spanHdr 0 false 0 0 0 1
    let bs := (List.range o.cut.n).map fun k => byte (swapAddr o.cut.u (o.cut.base + k))
    let a := h.addr.toNat
    let first := a + lowBit8 h.fbe.toNat
    let last := a + o.cut.n - 8 + highBit8 (if o.cut.n = 8 then h.fbe.toNat else h.lbe.toNat)
    let s := s.setSt je .issued
    if o.np then
      let r := s.issue o.link o.ident true h bs first last (.upRd je) (some e.inst)
      match r.1 with
      | .sent => r.2.modOp je fun o => { o with inflight := true }
      | _ => r.2.upEnd je 2 []
    else
      let r := s.gateCheck (gTlink o.link) o.ident first last false true (some e.inst) (some je)
      if !r.1 then (r.2.upEnd je 2 []).flushEvents e.dn else
      let s := if o.silent then r.2 else r.2.queueStatus p good
      let s := s.handPkt o.link { pkt := .mwr h bs, cls := e.cls, age := o.age, serial := e.serial, own := .op je }
      (s.modOp je fun o => { o with posted := true, done := true, hold := {} }).flushEvents e.dn

end State

/-- UP_DATA (R95, R112 to R114). -/
def execUpData (port : Fin 144) (f : Frame) (s : State) : Host.Outcome State Fault Refusal :=
  let s := s.start
  .next <|
    let p := port.val
    let d := f.daddr.toNat
    let a := s.daddr p d
    if !s.portRecv p then s
    else if !s.crcOk f then (s.modDaddr p d fun q => { q with upRefused := false }).frameFails p d true
    else match a.st, a.up with
      | .up, some u =>
        if u.frame.ftype ≠ 0x11 ∨ u.data.isSome ∨ s.statusWaits p d then s.malformed p
        else if !dataOk (frameWords u.frame) u.frame.fbe.toNat u.frame.lbe.toNat f then s.frameFails p d false
        else match u.je with
          | none =>
            let reason := match a.swallow with | some r => r | none => 6
            let s := s.modDaddr p d fun q => { q with up := some { u with data := some [] } }
            s.queueStatus p { daddr := d, closesUp := true
                              frame := statusFrame d (bridgeStatus true false reason (burstBytes u.frame) s.ts) }
          | some je =>
            match s.op? je with
            | some o =>
              let s := s.modDaddr p d fun q => { q with up := some { u with data := some f.payload } }
              if o.c0wait then s.modOp je fun o => { o with data := f.payload } else s.upAccept p d je o u.frame f.payload
            | none => s.malformed p
      | st, _ =>
        if a.upRefused then s.modDaddr p d fun q => { q with upRefused := false }
        else if st = .guard then s else s.malformed p

namespace State

/-- The posted point of a posted UP-WR or peer write (R217): PST becomes 1, and an operation whose far side has ended is FREE, or owes its
notice. -/
def postedPoint (s : State) (je : Nat) (o : Op) : State :=
  let s := s.modEntry je fun e => { e with pst := true }
  if !o.done then s else if (s.entry je).err = 0 then s.freeJe je else s.oweNotice je

/-- What the last byte of a closing STATUS does to the Journal entry it completes (R172, R217, R378). -/
def statusAcked (s : State) (je : Nat) : State :=
  match s.op? je with
  | none => s
  | some o =>
    if (s.entry je).st = .completed then
      (if o.inflight then s.modEntry je fun e => { e with acked := true } else s.freeJe je)
    else if o.wr ∧ !o.np ∧ !o.silent ∧ 5 ≤ (s.entry je).kind then s.postedPoint je o
    else s

/-- A port goes to SLEEP, and its lanes are due to power down (Table 4.17, R308). -/
def sleepPort (s : State) (p : Nat) : State :=
  let s := s.modPort p fun q => { q with st := .sleep, sleepPend := false, laneLock := 0 }
  ((List.range 144).filter fun m => s.f Fld.gptCfg_lead m == p).foldl (fun s m => s.queueDown (.glane m)) s

/-- A port that is to sleep does so once none of its exchanges is open. -/
def settleSleep (s : State) (p : Nat) : State :=
  let q := s.port p
  if q.sleepPend && q.st == .up && s.chanOpen p == 0 && s.upOpen p == 0 && q.statusQ.isEmpty && q.egress.isEmpty then s.sleepPort p else s

end State

/-- CLOSING_STATUS_SENT (R76, R88 event g, R172, R217): the last byte of the first bridge-written STATUS at the port's egress is sent, and
what waited behind it leaves. -/
def execClosingStatusSent (port : Fin 144) (s : State) : Host.Outcome State Fault Refusal :=
  let s := s.start
  .next <|
    let p := port.val
    if !s.portRecv p then s else
    match (s.port p).statusQ with
    | [] => s
    | x :: xs =>
      let s := (s.modPort p fun q => { q with statusQ := xs }).emit (.frame p 0 x.frame)
      let s := if x.guard then s.modDaddr p x.daddr fun a => if a.st = .cmd then { a with st := .guard } else a else s
      let s := if x.closesUp then s.closeDaddr p x.daddr else s
      let s := match x.je with | some je => s.statusAcked je | none => s
      (State.flushPort ((s.port p).statusQ.length + (s.port p).egress.length) s p).settleSleep p

/-- GUARD_END (R88 event h). -/
def execGuardEnd (port : Fin 144) (daddr : Fin 2048) (s : State) : Host.Outcome State Fault Refusal :=
  let s := s.start
  .next <| if s.works ∧ (s.daddr port.val daddr.val).st = .guard then (s.closeDaddr port.val daddr.val).settleSleep port.val else s

/-- RSV_TIME_EXPIRE (R90, event j): the reservation lapses, and the loss count resets. -/
def execRsvTimeExpire (port : Fin 144) (daddr : Fin 2048) (s : State) : Host.Outcome State Fault Refusal :=
  let s := s.start
  .next <|
    if s.works ∧ (s.daddr port.val daddr.val).st = .reserved then
      (s.modDaddr port.val daddr.val fun a => { a with st := .idle, losses := 0, lossSerial := 0 }).incF Fld.gptCollCnt_rsv_expired
        port.val
    else s

/-- LOSS_COUNT_EXPIRE (R89): no UP frame came within RSV_TIME after a refusal; a reservation made, with its fourth loss, runs by its own
rule (R90). -/
def execLossCountExpire (port : Fin 144) (daddr : Fin 2048) (s : State) : Host.Outcome State Fault Refusal :=
  let s := s.start
  .next <|
    if s.works ∧ (s.daddr port.val daddr.val).st ≠ .reserved ∧ (s.daddr port.val daddr.val).losses < 4 then
      s.modDaddr port.val daddr.val fun a => { a with losses := 0, lossSerial := 0 }
    else s

/-- The new value of a LOCKED-RMW (R147), none where a CAS compare fails. `old`, `a` and `b` as numbers of `n` bytes. -/
def rmwNew (func n old a b : Nat) : Option Nat :=
  let m := 2 ^ (8 * n)
  match func with
  | 0 => if old = a % m then some (b % m) else none
  | 1 => some (a % m)
  | 2 => some ((old + a) % m)
  | 3 => some (Nat.lor old (a % m))
  | _ => some (Nat.land old (a % m))

/-- UNLOCK_WR (R93, R147): the engine supplies the new value of a held lock, which UNLOCK-WR and DATA carry; where a CAS compare fails the
sequence ends with UNLOCK-ABORT. -/
def execUnlockWr (port : Fin 144) (daddr : Fin 2048) (s : State) : Host.Outcome State Fault Refusal :=
  let s := s.start
  .next <|
    let p := port.val
    let d := daddr.val
    let a := s.daddr p d
    if !s.portRecv p ∨ a.lock ≠ .held then s else
    match State.lockJe a with
    | none => s
    | some je =>
      match s.op? je, a.opened with
      | some o, some y =>
        match o.x with
        | none => s
        | some x =>
          let old := match x.old with | some v => bytesNat v | none => 0
          match rmwNew (x.c.aux % 8) x.c.count old (fieldAt 0 8 x.operands) (fieldAt 8 8 x.operands) with
          | none => s.unlockAbort p d .cas
          | some v =>
            let bs := swapBytes o.cut.u (natBytes x.c.count v)
            let s := s.modDaddr p d fun q => { q with lock := .releasing, relWhy := .wrote, relTries := 0 }
            let s := s.modX je fun x => { x with newVal := some v }
            let c := s.burst 8 je o y.pieceA y.pieceE
            s.sendFrames p (State.reqTx y.req [c, State.burstData c y.pieceA y.pieceE bs])
      | _, _ => s

/-- LOCK_TIMEOUT (R93): UNLOCK-ABORT is sent, and the operation ends with TO. -/
def execLockTimeout (port : Fin 144) (daddr : Fin 2048) (s : State) : Host.Outcome State Fault Refusal :=
  let s := s.start
  .next <|
    let p := port.val
    let d := daddr.val
    let a := s.daddr p d
    if !s.portRecv p ∨ a.lock ≠ .held then s else
    let g := match a.opened with | some y => y.pieceA | none => 0
    let s := (s.incF Fld.gptLockCnt_lock_to p).unlockAbort p d .ended
    match State.lockJe a with
    | some je => if (s.op? je).isSome then (s.fail je .to 3 g (bridgeStatus true true 3 0 s.ts)).endLocked je else s
    | none => s

/-- POLL_PERIOD (R97): the poll of a DN becomes DUE with the age of this moment, or a period that elapses while it is DUE counts
POLL_SKIP. -/
def execPollPeriod (dn : Fin 262144) (s : State) : Host.Outcome State Fault Refusal :=
  let s := s.start
  .next <|
    let n := dn.val
    let dv := s.device n
    if !dv.v ∨ dv.poll = 0 ∨ !s.portRecv dv.port then s else
    match (s.dn n).poll with
    | .wait =>
      let x : XReq := { kind := .poll, dn := n, cls := dv.cls, age := s.ts, serial := s.jnl.serial }
      ((s.modDn n fun q => { q with poll := .due }).enqueue dv.port dv.daddr x).modJnl fun j => { j with serial := j.serial + 1 }
    | .due => s.incF Fld.gptSlotCnt_poll_skip dv.port
    | .out => s

/-! ### Port states (Table 4.17) -/

/-- Whether links and ports train: the bridge works, and in LOAD the commit has been made (Table 15.5, step 11). -/
def State.linksOn (s : State) : Bool := s.works && (s.mode != .load || 10 ≤ s.img.step)

/-- PORT_LEAVES_UP (R103, R104). -/
def execPortLeavesUp (port : Fin 144) (s : State) : Host.Outcome State Fault Refusal :=
  let s := s.start
  .next <| if s.mode ≠ .reset then s.leaveUp port.val else s

/-- PORT_TRAINED (R103): UNLOCK-ABORT goes first to every device address with an orphaned lock (Table 4.11). -/
def execPortTrained (port : Fin 144) (s : State) : Host.Outcome State Fault Refusal :=
  let s := s.start
  .next <|
    let p := port.val
    if !s.works ∨ (s.port p).st ≠ .train then s else
    let s := (s.captureSeeds (32 + p) (s.members p)).modPort p fun q => { q with st := .up, laneLock := 2 ^ s.members p - 1 }
    (s.portDaddrs p).foldl (fun s x =>
      if x.2.lock = .orphaned then (s.modDaddr p x.1 fun a => { a with relTries := 0 }).unlockAbort p x.1 .ended else s) s

/-- PORT_TRAIN_TIMEOUT (R103). -/
def execPortTrainTimeout (port : Fin 144) (s : State) : Host.Outcome State Fault Refusal :=
  let s := s.start
  .next <|
    let p := port.val
    if s.works ∧ (s.port p).st = .train then
      ((s.modPort p fun q => { q with st := .down }).memberInc Fld.gptLinkCnt_train_fail p).raise 0x042 p
    else s

/-- PORT_RETRY_INTERVAL (R103). -/
def execPortRetryInterval (port : Fin 144) (s : State) : Host.Outcome State Fault Refusal :=
  let s := s.start
  .next <|
    if s.linksOn ∧ (s.port port.val).st = .down ∧ s.isLead port.val then s.modPort port.val fun q => { q with st := .train } else s

/-- DOWN_HOLD_EXPIRE (R104): the operations queued at a port that is not UP end with TO. -/
def execDownHoldExpire (port : Fin 144) (s : State) : Host.Outcome State Fault Refusal :=
  let s := s.start
  .next <|
    let p := port.val
    if !s.works ∨ (s.port p).st = .up then s else
    let q := (s.port p).queue
    let s := s.modPort p fun x => { x with queue := [] }
    q.foldl (fun s y =>
      match y.2.kind, y.2.je with
      | .poll, _ => s.modDn y.2.dn fun n => { n with poll := .wait }
      | .ack, some _ => s.ackFails y.2 .to 4 []
      | .ack, none => s
      | _, some je =>
        let g := match s.op? je with | some o => s.failAt o | none => 0
        (s.withdraw [je]).endAtPiece je .to 4 g (bridgeStatus true true 1 0 s.ts)
      | _, none => s) s

/-! ### LINK frames (R75, R82, R320) -/

/-- A LINK frame of a subtype on a member lane. -/
def linkFrame (sub : Nat) (pay : List Byte) : Frame :=
  sealFrame { baseFrame 0x1F 0 with arg := BitVec.ofNat 8 sub, payload := pay ++ List.replicate (8 - pay.length) 0 }

/-- Whether a received LINK frame is good; a bad CRC and a wrong payload length are counted. -/
def State.linkRecv (s : State) (p : Nat) (f : Frame) (act : State → State) : State :=
  if !s.portRecv p then s
  else if !s.crcOk f then s.crcBad p
  else if f.payload.length ≠ 8 then s.malformed p
  else act s

/-- LINK IDLE frames (R82, R103): in HALT every UP port sends nothing else, and a port at 3.125 Gb/s sends no other LINK frame. DESIGN CHOICE
(log entry 84): R82 gives no schedule; a REFCLK cycle sends one on each member lane of such a port, outside HALT where no frame waits. -/
def State.linkIdle (s : State) : State :=
  s.ports.foldl (fun s x =>
    if x.2.st = .up ∧ (s.mode = .halt ∨ (s.f Fld.gptCfg_rate x.1 = 1 ∧ x.2.statusQ.isEmpty)) then
      (List.range (s.members x.1)).foldl (fun s m => s.emit (.frame x.1 m (linkFrame 0 []))) s
    else s) s

/-- ALIGN (R75): the members are deskewed, which no state of the bridge shows. A LINK IDLE that is received does as little. -/
def execAlign (port : Fin 144) (f : Frame) (s : State) : Host.Outcome State Fault Refusal :=
  .next (s.start.linkRecv port.val f id)

/-- ALIGN_SEND (R75): an ALIGN frame on every member of a bonded port. -/
def execAlignSend (port : Fin 144) (s : State) : Host.Outcome State Fault Refusal :=
  let s := s.start
  .next <|
    let p := port.val
    if s.mode ≠ .reset ∧ (s.port p).st = .up ∧ s.mode ≠ .halt ∧ 1 < s.members p then
      (List.range (s.members p)).foldl (fun s m => s.emit (.frame p m (linkFrame 1 []))) s
    else s

/-- Calibration of a member lane. -/
def State.modCal (s : State) (p m : Nat) (g : Cal → Cal) : State := s.modPort p fun q => { q with cal := FMap.mod {} m g q.cal }

/-- One coefficient's step (Table 4.7): its new position and the report code. Where a step ends the range is open (Clause 72), so a free
value decides between "updated" and the limit. -/
def coefStep (code : Nat) (x : Int) (v : Nat) : Int × Nat :=
  match code with
  | 1 => if v % 2 = 0 then (x + 1, 1) else (x, 3)
  | 2 => if v % 2 = 0 then (x - 1, 1) else (x, 2)
  | _ => (x, 0)

/-- A transmit-calibration frame is ready, which competes as a C3 frame (R76). -/
def State.calSend (s : State) (p m : Nat) (f : Frame) : State :=
  s.sendFrames p { frames := [f], member := m, cls := 3, age := s.ts, serial := s.jnl.serial }

/-- The calibration slot of a port's spoke group presents one flit for a COEF-REQ that is due (R195). -/
def State.calSlot (s : State) (p : Nat) : State := s.addXfer 24 (hubSpoke p) 3 p 0 .none

/-- COEF_REQ (R320): the bridge steps its own transmitter and answers with COEF-STAT. It is ignored at 3.125 Gb/s (R82). -/
def execCoefReq (port : Fin 144) (member : Fin 4) (f : Frame) (s : State) : Host.Outcome State Fault Refusal :=
  .next <| s.start.linkRecv port.val f fun s =>
    let p := port.val
    if s.f Fld.gptCfg_rate p ≠ 0 ∨ s.mode = .load then s else
    let b := fieldAt 0 1 f.payload
    let c := FMap.get {} member.val (s.port p).cal
    let v := s.free
    let reset := bit 7 b || bit 6 b
    let step (code k : Nat) : Int × Nat := if reset then (0, 1 + v / 2 ^ k % 3) else coefStep code (c.coef.getD k 0) (v / 2 ^ k)
    let post := step (bits 5 4 b) 2
    let main := step (bits 3 2 b) 1
    let pre := step (bits 1 0 b) 0
    (((s.draw).modCal p member.val fun c => { c with coef := [pre.1, main.1, post.1] }).calSend p member.val
      (linkFrame 3 (natBytes 1 (post.2 * 16 + main.2 * 4 + pre.2) ++ slice 1 1 f.payload)))

/-- COEF_STAT (R320): the answer with the SEQ of the outstanding COEF-REQ. -/
def execCoefStat (port : Fin 144) (member : Fin 4) (f : Frame) (s : State) : Host.Outcome State Fault Refusal :=
  .next <| s.start.linkRecv port.val f fun s =>
    if (FMap.get {} member.val (s.port port.val).cal).outSeq = some (fieldAt 1 1 f.payload) then
      s.modCal port.val member.val fun c => { c with outSeq := none }
    else s

/-- TX_REFRESH (R320): the lane's eye is judged and one COEF-REQ is sent; a step that did not help is asked back, and which step comes next
otherwise is a free value. A refresh that falls due while adaptation is frozen is postponed. -/
def execTxRefresh (port : Fin 144) (member : Fin 4) (eye : BitVec 16) (s : State) : Host.Outcome State Fault Refusal :=
  let s := s.start
  .next <|
    let p := port.val
    let m := member.val
    let c := FMap.get {} m (s.port p).cal
    if !((s.mode = .run ∨ s.mode = .service) ∧ s.fb Fld.pwrCalCfg_tx_en ∧ (s.port p).st = .up ∧ s.f Fld.gptCfg_rate p = 0
      ∧ m < s.members p ∧ c.outSeq = none) then s
    else if s.pwr.adaptFrozen then s.incF Fld.pwrCalCnt_postponed
    else
      let better := match c.lastEye with | none => true | some y => decide (y < eye.toNat)
      let tap := if better then s.free % 3 else c.tap
      let dir := if better then decide (s.free / 3 % 2 = 1) else !c.dir
      let code := (if dir then 1 else 2) * 4 ^ tap
      let s := if better then s.draw else s
      let s := s.modCal p m fun c => { c with
        outSeq := some c.nextSeq, nextSeq := (c.nextSeq + 1) % 256, lastEye := some eye.toNat, tap := tap, dir := dir }
      let s := (s.incF Fld.pwrCalCnt_tx_refresh).incF Fld.gptLinkCnt_coef_updates (p + m)
      (s.calSlot p).calSend p m (linkFrame 2 (natBytes 1 code ++ natBytes 1 c.nextSeq))

/-- COEF_NORESP (R320): the COEF-REQ is given up, and the lane's next refresh starts again. -/
def execCoefNoresp (port : Fin 144) (member : Fin 4) (s : State) : Host.Outcome State Fault Refusal :=
  let s := s.start
  .next <|
    if s.mode ≠ .reset ∧ (FMap.get {} member.val (s.port port.val).cal).outSeq.isSome then
      (s.modCal port.val member.val fun c => { c with outSeq := none, lastEye := none }).incF Fld.pwrCalCnt_tx_noresp
    else s

end Sys2Proof.Machine
end

