-- ==== Sys2Proof/Machine/Req.lean ====
section
/-! DEFINITION. Requests received on a Thaty link that lie outside the BCS: checks (R51), translation (R109), and admission in the order of
R202 with the grains of R208 to R212, C0 policing (R192, R193), and the engine path (R157). -/

namespace Sys2Proof.Machine

/-- Whether FBE, LBE and LEN obey R46, and the request crosses no 4,096-byte boundary. -/
def reqOk (h : ReqHdr) : Bool :=
  let n := granulesOf h.len.toNat
  h.fbe != 0 && (if n = 1 then h.lbe == 0 else h.lbe != 0) && h.addr.toNat / 4096 == (h.addr.toNat + 8 * n - 1) / 4096

/-- The first and the last enabled byte of a request (R46). -/
def reqFirst (h : ReqHdr) : Nat := h.addr.toNat + lowBit8 h.fbe.toNat
def reqLast (h : ReqHdr) : Nat :=
  let n := granulesOf h.len.toNat
  if n = 1 then h.addr.toNat + highBit8 h.fbe.toNat else h.addr.toNat + 8 * (n - 1) + highBit8 h.lbe.toNat

/-- The source of a link. -/
def srcOf (l : Nat) : Src := if l = 0 then .tl0 else .tl1

namespace State

/-! ### The receive buffer -/

/-- A packet leaves the part of the receive buffer that waits to be handled. -/
def takeIn (s : State) (l : Nat) (p : Packet) : State := s.modLink l fun k => { k with ingress := k.ingress.erase p }

/-- The credits of a packet that leaves the receive buffer are returned (R60). -/
def giveCredits (s : State) (l : Nat) (p : Packet) : State :=
  s.modLink l fun k => { k with credRet := k.credRet ++ packetReturns p }

/-- A received packet that fails a check is counted and reported (R51, source 0x020). -/
def rxBad (s : State) (l : Nat) (x : Fld) : State := (s.incF x l).raise 0x020 l

/-- The end of a request that is not performed: a CPL with a status, nothing for a posted one. -/
def refuseReq (s : State) (l : Nat) (h : ReqHdr) (wr : Bool) (status : Nat) : State :=
  if wr && !h.np then s else s.handTx l (s.cplPkt h status [])

/-- Whether window requests must wake the bridge first (R71, R308, R309): DOZE, or the steps of DOZE entry. -/
def asleep (s : State) : Bool := s.mode == .doze || s.phase == .entering

/-- Outbound translation (R109, Table 5.5): the window and DVT fields that the request takes at its Thaty ingress (R122). -/
def outLook (s : State) (h : ReqHdr) (wr : Bool) : OutFound :=
  match s.outWindow (reqFirst h) with
  | none => .unmapped
  | some (_, w) =>
    let dv := s.device w.dn
    if (s.inst w.owner).st = .free ∨ !dv.v ∨ dv.owner ≠ w.owner then .mismatch
    else if w.np ∧ wr ∧ !h.np then .npDrop
    else .ok w dv

/-- What becomes of a translated request whose owner is not ACTIVE (R264), which is judged when the request is admitted. -/
def outNow (s : State) : OutFound → OutFound
  | .ok w dv => if (s.inst w.owner).st ≠ .active then .reset w.owner else .ok w dv
  | f => f

/-- Outbound translation and the state of the owner, for a request that is handled at its ingress. -/
def outFind (s : State) (h : ReqHdr) (wr : Bool) : OutFound := s.outNow (s.outLook h wr)

/-- What a poisoned posted MWR finds (R218): the window that contains it, with the device it names, where the owner exists. -/
def outPoisoned (s : State) (h : ReqHdr) : OutFound :=
  match s.outWindow (reqFirst h) with
  | none => .unmapped
  | some (_, w) => if (s.inst w.owner).st = .free then .unmapped else .ok w (s.device w.dn)

/-! ### Work that waits for a context (R158) -/

/-- Whether a queue pair has a start entry that may be read (R130, R131): RUN, tail ahead of head, fewer than MAXP programs in flight, the
owner ACTIVE. -/
def qpWork (s : State) (k : Nat) : Bool :=
  s.f Fld.qStat_state k == 1 && s.fb Fld.qCfg_en k && s.f Fld.sqHead_head k != s.f Fld.sqDb_tail k
  && s.f Fld.qStat_inflight k < s.f Fld.qCfg_maxp k && (s.inst (k / 4)).st == .active

/-- Whether such an entry waits for a context: none is taken for a start entry of the queue pair, whose entries are read one after the other. -/
def qpWaits (s : State) (k : Nat) : Bool :=
  s.qpWork k && !s.ctxs.any fun c => !c.2.access && c.2.inst == k / 4 && c.2.q == k % 4 && c.2.st == .start && !c.2.stale

/-- The engine-path accesses that wait for a context. -/
def accessWaits (s : State) : List Nat :=
  (s.ops.filter fun p =>
    let e := s.entry p.1
    (e.kind == 2 || e.kind == 3) && e.st == .admitted && p.2.ctx.isNone && !p.2.done && p.2.cur.isNone && !p.2.stop).map (·.1)

/-- Whether an instance has work that waits for a context, and whether it has any to be done. -/
def instWaits (s : State) (i : Nat) : Bool :=
  (List.range 4).any (fun q => s.qpWaits (4 * i + q)) || s.accessWaits.any fun j => (s.entry j).inst == i
def instWork (s : State) (i : Nat) : Bool :=
  (List.range 4).any (fun q => s.qpWork (4 * i + q)) || s.accessWaits.any fun j => (s.entry j).inst == i

/-- When an instance acquires waiting work after it had none, its dispatch pass is raised to the smallest among the instances with
waiting work (R158). `before` is the state before. -/
def raisePass (s : State) (before : State) (i : Nat) : State :=
  if before.instWork i || !s.instWork i then s else
  let ps := (s.insts.filter fun x => x.1 != i && s.instWork x.1).map (·.2.dispPass)
  match listMin ps with
  | none => s
  | some m => s.modInst i fun n => { n with dispPass := max n.dispPass m }

/-! ### Admission -/

/-- The instance that a translated request is charged to. -/
def foundInst : OutFound → Option Nat
  | .ok w _ => some w.owner
  | .reset i => some i
  | _ => none

/-- Whether an earlier packet holds back one of a VC and an instance (R202): a posted MWR of the same link, VC and instance. -/
def behind (before : List HeldReq) (vc i : Nat) : Bool :=
  before.any fun p => packetPosted p.pkt && packetVc p.pkt == vc && foundInst p.found == some i


/-- Whether an instance holds an oversize operation, and whether it holds grains of posted data (R211). -/
def hasOversize (s : State) (i : Nat) : Bool := s.ops.any fun p => (s.entry p.1).inst == i && 0 < p.2.hold.ovs
def hasPosted (s : State) (i : Nat) : Bool := s.holds.any fun h => h.1 == i && h.2.pool % 3 == 0 && 0 < h.2.total

/-- The grains of a request: an ordinary hold, or one from the oversize reserve where it needs more than its instance's whole quota and
R211 permits it. `first` says that no oversize operation waits that arrived earlier. -/
def takeGrains (s : State) (i pool g : Nat) (posted first : Bool) : Option Hold :=
  if g ≤ (s.inst i).lquota then s.takeHold i pool g
  else if first && g ≤ s.ovsFree && !s.hasOversize i && !(posted && s.hasPosted i) then some { pool := pool, ovs := g }
  else none

/-- Class of a request and its demotions (R58, R193): more than 32 granules in C0, or no C0 allotment. -/
def reqClassOf (s : State) (h : ReqHdr) (w : Window) : Nat × State :=
  let c := max h.vc.val w.cls
  if c = 0 ∧ 32 < granulesOf h.len.toNat then (1, s.incF Fld.hubC0Cnt_oversize) else s.demote c w.owner

/-- The entry of a request (Tables 7.3 and 7.4). -/
def reqEntry (l : Nat) (h : ReqHdr) (wr : Bool) (cls : Nat) (w : Window) : JEntry :=
  let posted := wr && !h.np
  { kind := 2 * b2n w.path + b2n wr, pst := posted, cls := cls, inst := w.owner, dn := w.dn, link := l, vc := h.vc.val
    ref := if posted then reqFirst h else h.reqId.toNat * 2 ^ 32 + h.tag.toNat * 2 ^ 16 }

/-- The operation of a request: what it cuts, its identity, and its data. -/
def reqOp (l : Nat) (h : ReqHdr) (wr : Bool) (data : List Byte) (w : Window) (dv : Device) (hold : Hold) : Op :=
  let n := 8 * granulesOf h.len.toNat
  { port := dv.port, daddr := dv.daddr, maxb := dv.maxb, bound := dv.bound, wr := wr, np := h.np
    cut := { base := w.toGulum h.addr.toNat, n := n, u := swapUnit (if w.path then dv.swap else w.swap)
             fm := h.fbe.toNat, lm := h.lbe.toNat }
    ident := identOf (srcOf l) h.priv h.reqId.toNat, hdr := some h, link := l
    data := if wr then slice 0 n data else [], hold := hold }

/-- An admitted request starts: its transfer is formed, and a direct one stands in the queue of its device address with its first piece, an
engine-path one without a piece until an engine takes it (R203). DEDUCED (log entry 86): no engine has taken an engine-path request yet (R158), so
its transfer goes to the Landing pool, which holds it and its data. -/
def startReq (s : State) (je l : Nat) (w : Window) (bytes : Nat) : State :=
  match s.op? je with
  | none => s
  | some o =>
    let e := s.entry je
    let out := if w.path then hubLanding else hubSpoke o.port
    let r := s.formXfer (hubLink l out) out e.cls e.inst e.inst bytes (.op je) (.piece je)
    let s := r.2.modOp je fun o => { o with c0wait := !r.1 }
    if w.path then s.enqueueOp je (if o.wr then .wr else .rd) else s.startPieces je

/-- A posted MWR that arrived poisoned (R218): it is admitted with ERR = PS, performs nothing, and owes its notice. -/
def admitPoisoned (s : State) (l je : Nat) (h : ReqHdr) (w : Window) : State :=
  let c := s.reqClassOf h w
  let e := { reqEntry l h true c.1 w with err := 5 }
  let o : Op := { wr := true, hdr := some h, link := l, failG := some (w.toGulum (reqFirst h)), failTs := s.ts, fst := 5
                  status := bridgeStatus true false 9 0 s.ts }
  (c.2.draw.admitOp je e o).oweNotice je

/-- Admission of a translated request (R202, R170, R208); none while it must wait. A demoted request takes the grains of its own class (R206). -/
def tryAdmit (s : State) (l : Nat) (before : List HeldReq) (first : Bool) (h : ReqHdr) (wr : Bool) (data : List Byte)
    (w : Window) (dv : Device) : Option State :=
  let i := w.owner
  let posted := wr && !h.np
  if behind before h.vc.val i || (posted && s.withheld i) then none
  else if wr && h.poison then (s.jeRoom i).map fun je => s.admitPoisoned l je h w
  else
    let c := s.reqClassOf h w
    let pool := 3 * max h.vc.val w.cls + (if !wr then 2 else if posted then 0 else 1)
    match s.jeRoom i, s.takeGrains i pool (grainsOf (8 * granulesOf h.len.toNat)) posted first with
    | some je, some hold =>
      let t := c.2.draw.admitOp je (reqEntry l h wr c.1 w) (reqOp l h wr data w dv hold)
      some ((t.startReq je l w (if wr then 8 * granulesOf h.len.toNat else 0)).raisePass s i)
    | _, _ => none

/-- The grains of the data of a packet that is held in the Landing pool (R208). -/
def packetGrains : Packet → Nat
  | .mrd h => grainsOf (8 * granulesOf h.len.toNat)
  | .mwr h _ => if h.poison then 0 else grainsOf (8 * granulesOf h.len.toNat)
  | _ => 0

/-- Whether a waiting request needs more grains than its instance's whole quota. -/
def isOversize (s : State) (p : HeldReq) : Bool :=
  match foundInst p.found with
  | some i => decide ((s.inst i).lquota < packetGrains p.pkt)
  | none => false

/-- Whether no oversize packet waits with a stamp below `st`, on either link (R211). -/
def oversizeFirst (s : State) (st : Nat) : Bool :=
  !((s.link 0).held ++ (s.link 1).held).any fun p => decide (p.stamp < st) && s.isOversize p

/-- A request outside the BCS whose translation finds no window to use: the refusal of Table 5.5 or R264; none where it translates. -/
def refuseOut (s : State) (l : Nat) (h : ReqHdr) (wr : Bool) : OutFound → Option State
  | .unmapped => some (s.refuseReq l h wr 1)
  | .mismatch => some (((s.incF Fld.updTblCnt_mismatch).raise 0x060).refuseReq l h wr 1)
  | .npDrop => some ((s.incF Fld.updTblCnt_np_drop).raise 0x061)
  | .reset i => some ((s.incF Fld.instCnt_refused i).refuseReq l h wr 1)
  | .ok _ _ => none

/-- Puts a request with the packets that wait in the link receive buffer, with what its translation found. -/
def holdPkt (s : State) (l : Nat) (p : Packet) (f : OutFound) : State :=
  (s.modLink l fun k => { k with held := k.held ++ [{ stamp := s.jnl.serial, pkt := p, found := f }] }).modJnl fun j =>
    { j with serial := j.serial + 1 }

/-- Handles a request that waits or has just come, at its place in the buffer, with what its translation found; none where it must wait
on. In HALT a non-posted request completes with CA and a posted one is dropped (R70). -/
def handleReq (s : State) (l : Nat) (before : List HeldReq) (st : Nat) (h : ReqHdr) (wr : Bool) (data : List Byte) (f : OutFound) :
    Option State :=
  if s.mode = .halt then some (s.refuseReq l h wr 2)
  else if s.asleep then none
  else match s.outNow f with
    | .ok w dv => s.tryAdmit l before (s.oversizeFirst st) h wr data w dv
    | g => s.refuseOut l h wr g

/-- A request outside the BCS that passes the checks of Table 3.8. In DOZE it waits and is an exit cause (R71). -/
def winRequest (s : State) (l : Nat) (p : Packet) (h : ReqHdr) (wr : Bool) (data : List Byte) : State :=
  let w := s.outWindow (reqFirst h)
  let s := (s.tblCheck .wtt (w.map (·.1))).tblCheck .dvt (w.map (·.2.dn))
  let f := s.outLook h wr
  match s.handleReq l (s.link l).held s.jnl.serial h wr data f with
  | some t => t.giveCredits l p
  | none => let s := s.holdPkt l p f; if s.asleep then s.exitSeen 5 0 else s

/-- Handles a poisoned posted MWR at its place in the buffer (R218): it is admitted where its translation found an ACTIVE owner, and
dropped otherwise; none where it must wait on. -/
def handlePoisoned (s : State) (l : Nat) (before : List HeldReq) (h : ReqHdr) (data : List Byte) (f : OutFound) : Option State :=
  if s.mode = .halt then some s
  else if s.asleep then none
  else match s.outNow f with
    | .ok w dv => s.tryAdmit l before true h true data w dv
    | .reset i => some (s.incF Fld.instCnt_refused i)
    | _ => some s

/-- A poisoned MWR (Table 3.8): a non-posted one completes with PS; a posted one owes a notice where a window names an owner that exists,
and is dropped otherwise. -/
def poisonedMwr (s : State) (l : Nat) (p : Packet) (h : ReqHdr) (data : List Byte) (inBcs : Bool) : State :=
  let s := s.rxBad l Fld.tlkRxErr_poisoned
  if h.np then (s.refuseReq l h true 5).giveCredits l p
  else if inBcs then s.giveCredits l p
  else
    let f := s.outPoisoned h
    match f with
    | .ok _ _ =>
      match s.handlePoisoned l (s.link l).held h data f with
      | some t => t.giveCredits l p
      | none => let s := s.holdPkt l p f; if s.asleep then s.exitSeen 5 0 else s
    | _ => s.giveCredits l p

/-- A waiting packet handled at its place, if it need not wait on. A poisoned MWR was counted when it came. -/
def handleHeld (s : State) (l : Nat) (before : List HeldReq) (x : HeldReq) : Option State :=
  match x.pkt with
  | .mrd h => s.handleReq l before x.stamp h false [] x.found
  | .mwr h d => if h.poison then s.handlePoisoned l before h d x.found else s.handleReq l before x.stamp h true d x.found
  | _ => some s

/-- A packet leaves the waiting part of the buffer. -/
def dropHeld (s : State) (l : Nat) (x : HeldReq) : State :=
  (s.modLink l fun k => { k with held := k.held.filter fun y => y.stamp != x.stamp }).giveCredits l x.pkt

/-- The first waiting packet of a link, of those that are oversize or of the others, that need not wait on. -/
def deferGo (s : State) (l : Nat) (big : Bool) : List HeldReq → List HeldReq → State
  | _, [] => s
  | before, x :: rest =>
    match if s.isOversize x == big then s.handleHeld l before x else none with
    | some t => t.dropHeld l x
    | none => s.deferGo l big (before ++ [x]) rest

/-- The packets that wait and are charged to an instance are refused on the edge on which it enters DRAIN or SQUASH (R264). -/
def refuseHeld (s : State) (i : Nat) : State :=
  [0, 1].foldl (fun s l =>
    (s.link l).held.foldl (fun s x =>
      if foundInst x.found = some i then
        let s := (s.dropHeld l x).incF Fld.instCnt_refused i
        match x.pkt with
        | .mrd h => s.refuseReq l h false 1
        | .mwr h _ => s.refuseReq l h true 1
        | _ => s
      else s) s) s

/-- The transfer of an operation's piece, or of an UP frame, is charged at last (R192). -/
def pieceGo (s : State) (je : Nat) : State :=
  match s.op? je with
  | none => s
  | some o =>
    let s := s.modOp je fun o => { o with c0wait := false }
    let e := s.entry je
    if e.kind = 6 then s.upRead je
    else if e.kind < 5 ∨ !o.wr ∨ o.data.isEmpty then s
    else match o.frame with
      | none => s
      | some f =>
        let s := s.upAccept o.sport o.sdaddr je { o with c0wait := false } f o.data
        if o.silent ∧ e.kind = 5 ∧ !o.np then s.freeJe je else s

/-- A held packet goes to its link, and the grains of read data that it carries return (R208). -/
def sendGo (s : State) (x : C0Held) (l : Nat) (t : TxPkt) : State :=
  let s := s.handPkt l t
  match x.own with
  | .op je => s.readGrains je
  | _ => s

end State

/-- DEFERRED_ADMISSION (R202, R208, R60). -/
def execDeferredAdmission (link : Fin 2) (s : State) : Host.Outcome State Fault Refusal :=
  let s := s.start
  .next <| if s.mode = .reset then s else s.deferGo link.val false [] (s.link link.val).held

/-- OVERSIZE_ADMISSION (R211). -/
def execOversizeAdmission (link : Fin 2) (s : State) : Host.Outcome State Fault Refusal :=
  let s := s.start
  .next <| if s.mode = .reset then s else s.deferGo link.val true [] (s.link link.val).held


end Sys2Proof.Machine
end

