-- ==== Sys2Proof/Machine/Tlk.lean ====
section
/-! DEFINITION. The Thaty links: link blocks and replay (R41 to R44), training, retraining and link loss (R66 to R71), messages received
(R64, R65). -/

namespace Sys2Proof.Machine

namespace State

/-! ### Blocks sent -/

/-- A CONTROL block of a code (Table 3.3). -/
def sendCtl (s : State) (l code : Nat) : State := emitBlock l 0 1 0xFF (0, 0) [BitVec.ofNat 8 code] s

/-- Every unacknowledged block is sent again, in SEQ order, and counted as resent (R43). -/
def resend (s : State) (l : Nat) : State :=
  (s.modLink l fun k => { k with unacked := k.unacked.map fun b => { b with resent := b.resent + 1 } }).sendAgain l

/-- A link enters RETRAIN (R67): transmission pauses and everything held is kept. -/
def retrainLink (s : State) (l : Nat) (full : Bool) : State :=
  (s.modLink l fun k => { k with st := .retrain, fullWidth := full, quietReq := false }).incF Fld.tlkLinkCnt_retrains l

/-- A retraining trigger of R67; ignored unless the link is UP or QUIET (Table 3.13). -/
def retrainTrigger (s : State) (l : Nat) : State :=
  if (s.link l).flows then (s.retrainLink l false).raise 0x022 l else s

/-- A replay (R43); the fourth resend of a block retrains the link (R44). -/
def replay (s : State) (l : Nat) : State :=
  let k := s.link l
  if !k.flows || k.unacked.isEmpty then s else
  let s := ((s.incF Fld.tlkLinkCnt_replays l).raise 0x021 l).resend l
  if (s.link l).unacked.any fun b => 4 ≤ b.resent then s.retrainTrigger l else s

/-! ### Acknowledgement -/

/-- Whether a data read issued for an operation is outstanding (R378). -/
def dataOut (s : State) (je : Nat) : Bool :=
  [0, 1].any fun l => (s.link l).outst.any fun r => match r.purpose with | .data _ j => j == je | _ => false

/-- A completion or notice has been acknowledged (Table 7.6): its entry becomes FREE, or does so when its last request ends (R378). In HALT the
Journal is frozen (R177). -/
def ackJe (s : State) (je : Nat) : State :=
  if !s.works then s else
  match (s.entry je).st with
  | .completed => if s.dataOut je then s.modEntry je fun e => { e with acked := true } else s.freeJe je
  | .error => s.freeJe je
  | .squashed => if (s.op? je).isNone then s.freeJe je else s.modEntry je fun e => { e with acked := true }
  | _ => s

/-- The unacknowledged blocks after an ACK, and the entries that it frees. -/
def ackBlocks (ack : Nat) (bs : List TxBlk) : List TxBlk × List Nat :=
  match bs.findIdx? fun b => b.seq == ack with
  | none => (bs, [])
  | some i => (bs.drop (i + 1), (bs.take (i + 1)).flatMap (·.frees))

/-- ACK, NAK and credit return of a received block. -/
def applyAck (s : State) (l ack : Nat) (nak : Bool) (crKey crCount : Nat) : State :=
  let r := ackBlocks ack (s.link l).unacked
  let s := s.modLink l fun k => { k with unacked := r.1, txCred := if crCount = 0 then k.txCred else FMap.mod 0 crKey (· + crCount) k.txCred }
  let s := r.2.foldl (fun s je => s.ackJe je) s
  (if nak then s.replay l else s).pumpLink l

end State

/-! ### The packet stream (R42) -/

/-- What the parsing of a stream gives: packets, the bytes of an unfinished one, and whether a reserved TYPE was met (R49, R51). -/
structure Parsed where
  pkts : List Packet
  rest : List Byte
  bad : Bool

/-- Parses packets that lie back to back; a word whose TYPE is 0x0 is filler. -/
def parseStream : Nat → List Byte → List Packet → Parsed
  | 0, bs, acc => { pkts := acc, rest := bs, bad := false }
  | n + 1, bs, acc =>
    if bs.length < 4 then { pkts := acc, rest := bs, bad := false }
    else if fieldAt 0 1 bs / 16 = 0 then parseStream n (bs.drop 4) acc
    else if bs.length < 16 then
      if [1, 2, 4, 5, 8].contains (fieldAt 0 1 bs / 16) then { pkts := acc, rest := bs, bad := false }
      else { pkts := acc, rest := [], bad := true }
    else match payloadOf (fieldAt 0 4 bs) (fieldAt 4 4 bs) (fieldAt 8 4 bs) with
      | none => { pkts := acc, rest := [], bad := true }
      | some len =>
        if bs.length < 16 + len then { pkts := acc, rest := bs, bad := false }
        else match packetOf (bs.take (16 + len)) with
          | some p => parseStream n (bs.drop (16 + len)) (acc ++ [p])
          | none => { pkts := acc, rest := [], bad := true }

namespace State

/-- A DATA block next in sequence: its stream is parsed, and its packets wait at Thaty ingress. After a reserved TYPE the stream is
discarded up to the next FPO position. -/
def rxStream (s : State) (l fpo : Nat) (stream : List Byte) : State :=
  let k := s.link l
  if k.rxSkip ∧ 60 < fpo then s else
  let bytes := if k.rxSkip then stream.drop (4 * fpo) else k.rxPart ++ stream
  let r := parseStream (bytes.length + 1) bytes []
  let s := s.modLink l fun k => { k with ingress := k.ingress ++ r.pkts, rxPart := r.rest, rxSkip := r.bad }
  if r.bad then s.rxBad l Fld.tlkRxErr_malformed else s

/-- QUIET-ACK (R66): the link narrows to ×4 on its lowest usable group and goes QUIET. -/
def quietAck (s : State) (l : Nat) : State :=
  let k := s.link l
  if k.st = .up ∧ k.quietReq then
    let g := (List.range 4).find? fun g => (List.range 4).all fun n => k.laneOk.getLsbD (4 * g + n)
    let s := s.modLink l fun k => { k with st := .quiet, width := 2, group := g.getD 0, quietReq := false }
    ((List.range 16).filter fun n => n / 4 != g.getD 0).foldl (fun s n => s.queueDown (.tlane l n)) s
  else s

/-- FULL-REQ (R66, R309): a QUIET link retrains at full width, and it is a DOZE exit cause. -/
def fullReq (s : State) (l : Nat) : State :=
  if (s.link l).st = .quiet then (s.retrainLink l true).exitSeen 7 0 else s

/-- A CONTROL block (Table 3.3). -/
def ctlBlock (s : State) (l code : Nat) : State :=
  match code with
  | 1 => s.retrainTrigger l
  | 2 => s.sendCtl l 3
  | 3 => s.quietAck l
  | 4 => s.fullReq l
  | _ => s

/-- A received link block (R43): a DATA block that fails its CRC or is not next in sequence is discarded whole; under an exercise of the block
checkers the discard raises 0x021 (Table 13.6). DESIGN CHOICE (log entry
77): of a block with a reserved BTYPE the ACK, NAK and credit return are taken and the rest is ignored, and a QUIET-REQ of the partner, which
Table 3.13 does not list, is answered with QUIET-ACK and changes no state. -/
def rxBlock (s : State) (l : Nat) (b : List Byte) : State :=
  if !(s.link l).flows then s
  else if s.exOn 9 then ((s.exUse 9).modLink l fun k => { k with nak := true }).raise 0x021 l
  else if b.length ≠ 256 ∨ crc32c (b.take 252) ≠ BitVec.ofNat 32 (fieldAt 252 4 b) then s.modLink l fun k => { k with nak := true }
  else
    let w0 := fieldAt 0 2 b
    let w1 := fieldAt 2 2 b
    let cr := fieldAt 6 2 b
    if w0 % 16 = 0 ∧ w0 / 16 ≠ (s.link l).rxNext then s.modLink l fun k => { k with nak := true }
    else
      let s := s.applyAck l (w1 / 16) (bit 3 w1) (cr / 4096) (cr % 4096)
      if w0 % 16 = 0 then
        (s.modLink l fun k => { k with rxNext := (k.rxNext + 1) % 4096, ackDue := true }).rxStream l (fieldAt 4 1 b) (slice 8 244 b)
      else if w0 % 16 = 1 then s.ctlBlock l (fieldAt 8 1 b)
      else s

end State


/-- LINK_BLOCK_RECEIVE (R43). -/
def execLinkBlockReceive (link : Fin 2) (block : List Byte) (s : State) : Host.Outcome State Fault Refusal :=
  .next (s.start.rxBlock link.val block)

/-- REPLAY_TIMEOUT (R43, R44). -/
def execReplayTimeout (link : Fin 2) (s : State) : Host.Outcome State Fault Refusal := .next (s.start.replay link.val)

/-- RETRAIN_REQ (R67). -/
def execRetrainReq (link : Fin 2) (s : State) : Host.Outcome State Fault Refusal := .next (s.start.retrainTrigger link.val)

/-- QUIET_ACK (R66). -/
def execQuietAck (link : Fin 2) (s : State) : Host.Outcome State Fault Refusal := .next (s.start.quietAck link.val)

/-- FULL_REQ (R66). -/
def execFullReq (link : Fin 2) (s : State) : Host.Outcome State Fault Refusal := .next (s.start.fullReq link.val)

/-- UNCORR_THRESHOLD (R67): `n` uncorrectable codewords within 1 ms. -/
def execUncorrThreshold (link : Fin 2) (n : BitVec 16) (s : State) : Host.Outcome State Fault Refusal :=
  let s := s.start
  .next <|
    let l := link.val
    if !(s.link l).flows then s else
    let s := s.incF Fld.tlkFecUncorr_count l n.toNat
    let t := s.f Fld.tlkFecThresh_uncorr l
    if t ≠ 0 ∧ t < n.toNat then s.retrainTrigger l else s

/-- LANE_LOCK_LOSS (R67): a lane of the group in use. -/
def execLaneLockLoss (link : Fin 2) (lane : Fin 16) (s : State) : Host.Outcome State Fault Refusal :=
  let s := s.start
  .next <|
    let k := s.link link.val
    let n := if k.width = 0 then 16 else if k.width = 1 then 8 else 4
    if lane.val / n = k.group ∧ k.width ≠ 3 then s.retrainTrigger link.val else s

namespace State

/-! ### Training -/

/-- The widest width of Table 3.2, down to a narrowest, whose group holds only good lanes: (WIDTH code, group). -/
def trainWidth (lanes : BitVec 16) (minWidth : Nat) : Option (Nat × Nat) :=
  let good (n g : Nat) : Bool := (List.range n).all fun i => lanes.getLsbD (n * g + i)
  if good 16 0 then some (0, 0)
  else if 1 ≤ minWidth ∧ (good 8 0 ∨ good 8 1) then some (1, if good 8 0 then 0 else 1)
  else if 2 ≤ minWidth then ((List.range 4).find? (good 4)).map fun g => (2, g)
  else none

/-- A training attempt failed: it is counted, the link goes DOWN, and what it holds is kept (R66). -/
def trainFail (s : State) (l : Nat) (lanes : BitVec 16) : State :=
  match (s.link l).st with
  | .train | .retrain => s.modLink l fun k => { k with st := .down, width := 3, group := 0, laneOk := lanes, fails := k.fails + 1 }
  | _ => s

/-- Whether a link that comes up must go QUIET: the bridge is in DOZE, of which EXITING is a part (R305), since links retrain to full width
once RUN is reached (R310); or DOZE entry is under way. -/
def dozing (s : State) : Bool := s.mode == .doze
def entering (s : State) : Bool := s.phase == .entering

/-- Unacknowledged blocks numbered from zero, when a link starts again from DOWN with its SEQ counters zero and its credits exchanged anew. -/
def renumber : Nat → List TxBlk → List TxBlk
  | _, [] => []
  | n, b :: bs => { b with seq := n % 4096, resent := 0, cr := (0, 0) } :: renumber (n + 1) bs

/-- Training or retraining has succeeded at a width (R66). From DOWN the link layer starts anew: SEQ counters zero, credits as the partner
advertises them. Unacknowledged blocks are replayed, after retraining with the credit returns that they carried (R68). -/
def trainGood (s : State) (l : Nat) (t : LinkTrain) (w g : Nat) : State :=
  let fresh := (s.link l).st = .train
  let s := s.captureSeeds (16 * l) 16
  let s := s.modLink l fun k =>
    let k := { k with width := w, group := g, laneOk := t.lanes, reversed := t.reversed, fullWidth := false, moved := false
                      unacked := k.unacked.map fun b => { b with resent := 0 } }
    if fresh then
      { k with
        unacked := renumber 0 k.unacked, txSeq := k.unacked.length % 4096, rxNext := 0, nak := false, ackDue := false, rxPart := []
        rxSkip := true
        credRet := [], txCred := (List.range 16).filterMap fun i => let c := t.credits.getD i 0; if c = 0 then none else some (i, c) }
    else k
  let s := if w = 0 then s else (s.incF Fld.tlkLinkCnt_degrades l).raise 0x023 l
  let quiet := s.dozing ∧ !fresh
  let s := s.modLink l fun k => if quiet then { k with st := .quiet, width := 2, group := if w = 2 then g else if w = 1 then 2 * g else 0 }
    else { k with st := .up }
  let s := (s.sendAgain l).pumpLink l
  if !quiet ∧ (s.dozing ∨ s.entering) then (s.modLink l fun k => { k with quietReq := true }).sendCtl l 2 else s

end State

/-- LINK_TRAINING_SUCCESS (R66, R59): a width below TLK_CTL.MIN_WIDTH is a failure, and so is a partner that advertises a finite completion
credit as the link layer starts. -/
def execLinkTrainingSuccess (link : Fin 2) (t : LinkTrain) (s : State) : Host.Outcome State Fault Refusal :=
  let s := s.start
  .next <|
    let l := link.val
    let k := s.link l
    if k.st ≠ .train ∧ k.st ≠ .retrain then s else
    match State.trainWidth t.lanes (s.f Fld.tlkCtl_min_width l) with
    | none => s.trainFail l t.lanes
    | some (w, g) => if k.st = .train ∧ t.finiteCpl then s.trainFail l t.lanes else s.trainGood l t w g

/-- LINK_TRAINING_FAIL (R66). -/
def execLinkTrainingFail (link : Fin 2) (lanes : BitVec 16) (s : State) : Host.Outcome State Fault Refusal :=
  .next (s.start.trainFail link.val lanes)

/-- LINK_TRAIN_TIMEOUT (R66): 20 ms of training or 2 ms of retraining without success. -/
def execLinkTrainTimeout (link : Fin 2) (s : State) : Host.Outcome State Fault Refusal :=
  let s := s.start
  .next (s.trainFail link.val (s.link link.val).laneOk)

/-- LINK_RETRY_INTERVAL (R66): a DOWN link trains again; not in HALT. -/
def execLinkRetryInterval (link : Fin 2) (s : State) : Host.Outcome State Fault Refusal :=
  let s := s.start
  .next <|
    if s.linksOn ∧ (s.link link.val).st = .down then s.modLink link.val fun k => { k with st := .train } else s

namespace State

/-- The packets that a link holds, in their order: those of which a block is not acknowledged, whole, and those at egress. -/
def heldPkts (k : Link) : List TxPkt := k.unacked.filterMap (·.pkt) ++ k.egress

/-- The tag of a non-posted request at egress. -/
def reqTag : Packet → Option Nat
  | .mrd h => some h.tag.toNat
  | .mwr h _ => if h.np then some h.tag.toNat else none
  | _ => none

/-- Whether a packet is one of the requests listed. -/
def inReqs (rs : List OutReq) (t : TxPkt) : Bool :=
  match reqTag t.pkt with
  | some g => rs.any fun r => r.tag == g
  | none => false

/-- Whether a link is out of UP and QUIET and holds traffic. -/
def holdsTraffic (s : State) (l : Nat) : Bool :=
  let k := s.link l
  !k.flows && (!k.unacked.isEmpty || !k.egress.isEmpty || !k.outst.isEmpty)

/-- Whether the traffic of a link may move to the other (R69). -/
def canMove (s : State) (l : Nat) : Bool :=
  !(s.link l).flows && s.fb Fld.tlkFailover_en && (s.link (1 - l)).st == .up && s.mode != .reset

end State

/-- FAILOVER (R69): what the link holds, unacknowledged packets included, goes on the other link in its order; the bridge's own requests
keep their tags. DEDUCED (log entry 78): requests beyond the 4,096 that the other link may have outstanding (R55) stay until there is room. -/
def execFailover (link : Fin 2) (s : State) : Host.Outcome State Fault Refusal :=
  let s := s.start
  .next <|
    let l := link.val
    let k := s.link l
    if !s.canMove l then s else
    let room := 4096 - (s.link (1 - l)).outst.length
    let stay := k.outst.drop room
    let ts := (State.heldPkts k).filter fun t => !State.inReqs stay t
    let held := !ts.isEmpty || !(k.outst.take room).isEmpty
    let s := s.modLink l fun k => { k with
      unacked := [], egress := (State.heldPkts k).filter (State.inReqs stay), outst := stay, quar := [], moved := true }
    let s := s.modLink (1 - l) fun o => { o with
      egress := o.egress ++ ts, outst := o.outst ++ k.outst.take room, quar := o.quar ++ k.quar }
    let s := s.pumpLink (1 - l)
    if held then s.raise 0x024 l else s

/-- DOWN_LIMIT (R69): traffic that cannot move is a fatal fault. -/
def execDownLimit (link : Fin 2) (s : State) : Host.Outcome State Fault Refusal :=
  let s := s.start
  .next <|
    if s.works ∧ s.holdsTraffic link.val ∧ !s.canMove link.val ∧ !(s.link link.val).moved then s.raise 0x026 link.val else s

/-- TAG_QUARANTINE_END (R57). -/
def execTagQuarantineEnd (link : Fin 2) (tag : BitVec 16) (s : State) : Host.Outcome State Fault Refusal :=
  .next (s.start.modLink link.val fun k => { k with quar := k.quar.erase tag.toNat })

namespace State

/-! ### Messages received -/

/-- Records a write that a written W1O field or a locked field refuses (R34). -/
def lockViol (s : State) (off : Nat) : State :=
  ((s.setF Fld.updLockStatus_reglock_viol 1).incF Fld.updLockStatus_viol_cnt).setF Fld.updLockAddr_offset off

/-- PLACE with P = 1 (R65): the first sets the base and the bridge ID; a later one that differs is recorded. DESIGN CHOICE (log entry 79): of
a body that is not 8 bytes long the base is in the first 8, zeros beyond its end. -/
def placeBcs (s : State) (l : Nat) (h : MsgHdr) (body : List Byte) : State :=
  let base := fieldAt 0 8 body
  let id := h.arg.toNat % 2 ^ 20
  if s.fb Fld.tlkBcsBaseLo_placed then
    if s.f Fld.tlkBcsBaseLo_base_lo = bits 31 26 base ∧ s.f Fld.tlkBcsBaseHi_base_hi = bits 55 32 base
      ∧ s.f Fld.tlkBridgeId_id = id then s
    else (s.lockViol (regOff .tlkBcsBaseLo 0)).rxBad l Fld.tlkRxErr_bad_msg
  else
    (((s.setF Fld.tlkBcsBaseLo_base_lo (bits 31 26 base)).setF Fld.tlkBcsBaseHi_base_hi (bits 55 32 base)).setF
      Fld.tlkBcsBaseLo_placed 1).setF Fld.tlkBridgeId_id id

/-- A received MSG (Table 3.8, R62, R70): one that the bridge does not receive is dropped and counted. -/
def msgRecv (s : State) (l : Nat) (h : MsgHdr) (body : List Byte) : State :=
  if !(s.link l).flows ∨ s.mode = .reset then s else
  let s := (s.takeIn l (.msg h body)).giveCredits l (.msg h body)
  if 8 < h.len.toNat ∨ !h.priv ∨ (h.code ≠ 2 ∧ h.code ≠ 3) then s.rxBad l Fld.tlkRxErr_bad_msg
  else if h.code = 3 then s.placeBcs l h body
  else if s.mode = .halt then s
  else s.exitSeen 4 0

end State

/-- WAKE_MSG (R64): a WAKE with P = 1 acts as an assertion of TWAKE_N. -/
def execWakeMsg (link : Fin 2) (h : MsgHdr) (body : List Byte) (s : State) : Host.Outcome State Fault Refusal :=
  .next (s.start.msgRecv link.val h body)

/-- PLACE (R65). -/
def execPlace (link : Fin 2) (h : MsgHdr) (body : List Byte) (s : State) : Host.Outcome State Fault Refusal :=
  .next (s.start.msgRecv link.val h body)

/-- BAD_MSG (R51): dropped, counted in BAD_MSG and reported as 0x020. -/
def execBadMsg (link : Fin 2) (h : MsgHdr) (body : List Byte) (s : State) : Host.Outcome State Fault Refusal :=
  .next (s.start.msgRecv link.val h body)

end Sys2Proof.Machine
end

