-- ==== Sys2Proof/Machine/Ccd.lean ====
section
/-! DEFINITION. CCDs (R132 to R137): their fields, the checks at admission (R133, R135, R232), how each operation starts, and the fetch of
host data (R208). -/

namespace Sys2Proof.Machine

/-- The fields of a CCD (Tables 6.3 and 6.4). -/
def ccdOf (b : List Byte) : Ccd :=
  let w0 := fieldAt 0 4 b
  let w5 := fieldAt 20 4 b
  { op := bits 31 28 w0, chain := bit 27 w0, span := bit 26 w0, shortok := bit 25 w0, cmp := bit 24 w0, enc := bit 23 w0
    pst := bit 22 w0, dn := w0 % 2 ^ 18, count := fieldAt 4 4 b, data := fieldAt 8 8 b % 2 ^ 56, gaddr := fieldAt 16 4 b
    dus := bits 31 30 w5, keyslot := bits 27 16 w5, aux := w5 % 65536, lbn := fieldAt 24 4 b, gcount := fieldAt 28 4 b }


/-- Device-side length (R222). -/
def devLen (c : Ccd) : Nat := if c.cmp then c.gcount else c.count

/-- Whether only flags allowed for the OP are set (Table 6.4). -/
def flagsOk (c : Ccd) : Bool :=
  match c.op with
  | 1 => !c.pst
  | 2 => true
  | 4 => !c.span && !c.cmp && !c.enc && !c.pst
  | 6 => !c.chain && !c.span && !c.shortok && !c.cmp && !c.enc && !c.pst
  | _ => !c.span && !c.shortok && !c.cmp && !c.enc && !c.pst

/-- COUNT, GCOUNT and the WAIT-ATTN limit lie in range. -/
def countOk (c : Ccd) : Bool :=
  match c.op with
  | 1 | 2 => 1 ≤ c.count && c.count ≤ 16777216 && (!c.cmp || (1 ≤ c.gcount && c.gcount ≤ 16777216))
  | 3 | 4 => 1 ≤ c.count && c.count ≤ 256
  | 5 => c.count == 4 || c.count == 8
  | 8 => 1 ≤ c.aux
  | _ => true

/-- The device range stays below 2³², and a LOCKED-RMW is aligned. -/
def rangeOk (c : Ccd) : Bool :=
  match c.op with
  | 1 | 2 | 3 | 4 => c.gaddr + devLen c ≤ 2 ^ 32
  | 5 => c.gaddr + c.count ≤ 2 ^ 32 && c.gaddr % c.count == 0
  | _ => true

/-- The field checks of step 1 of R135, in the order of Table 6.7; `prev` is the OP of a predecessor with SPAN, after which CMP is read as 0
(R136). -/
def fieldFault (c : Ccd) (prev : Option Nat) : Option Nat :=
  if c.op = 0 ∨ 8 < c.op then some 1
  else if !flagsOk c then some 2
  else if !countOk c then some 3
  else if !rangeOk c then some 4
  else if c.op = 5 ∧ c.data % 8 ≠ 0 then some 5
  else if (match prev with | some o => o != c.op | none => false) || (c.cmp && c.span) then some 7
  else if c.op = 5 ∧ 4 < c.aux % 8 then some 0xA
  else none

namespace State

/-! ### Key slots -/

/-- A key slot. -/
def slot (s : State) (k : Nat) : KeySlot := FMap.get {} k s.cmp.slots

/-- Changes a key slot. -/
def modSlot (s : State) (k : Nat) (g : KeySlot → KeySlot) : State :=
  { s with cmp := { s.cmp with slots := FMap.mod {} k g s.cmp.slots } }

/-- Whether an instance owns an index of a kind (R256): 0 DN, 1 window, 2 key slot. -/
def owns (s : State) (i kind idx : Nat) : Bool := (s.inst i).owned.any fun r => r.kind == kind && r.first ≤ idx && idx < r.first + r.count

/-- The use count of a slot (R229). -/
def slotUsers (s : State) (k : Nat) : Nat :=
  (s.ops.filter fun p => !p.2.done && (match p.2.x with | some x => x.keyUse && x.c.keyslot == k | none => false)).length

/-! ### Checks at admission -/

/-- The transform checks of Table 10.3, as (CSTAT, DETAIL). -/
def xformFault (s : State) (i : Nat) (c : Ccd) : Option (Nat × Nat) :=
  if c.enc ∧ devLen c % duBytes c ≠ 0 then some (7, 0xB)
  else if c.cmp ∧ (s.inst i).lquota < 152 then some (7, 0xB)
  else if c.enc ∧ !s.owns i 2 c.keyslot then some (0xA, 1)
  else if c.enc ∧ (s.slot c.keyslot).st = .empty then some (0xA, 2)
  else if c.enc ∧ (s.slot c.keyslot).st = .loading then some (0xA, 3)
  else none

/-- Whether the bytes of a CONTROL or SENSE form a single piece (R133). -/
def singlePiece (s : State) (c : Ccd) (dv : Device) : Bool :=
  let spec := spanSpec c.gaddr c.count (swapUnit dv.swap)
  let edge (a : Nat) : Nat := min (2 ^ 32) (nextEdge (s.regions dv.port) (dv.daddr * 2 ^ 32 + a) - dv.daddr * 2 ^ 32)
  (spec.pieces dv.maxb dv.bound edge 2 0).length == 1

/-- The checks of R135 in their order, as (CSTAT, DETAIL). -/
def ccdFault (s : State) (i : Nat) (c : Ccd) (prev : Option Nat) : Option (Nat × Nat) :=
  match fieldFault c prev with
  | some d => some (7, d)
  | none =>
    let dv := s.device c.dn
    if !dv.v ∨ dv.owner ≠ i then some (8, 0)
    else if (c.op = 3 ∨ c.op = 4) ∧ !s.singlePiece c dv then some (7, 8)
    else if c.op = 8 ∧ dv.poll = 0 ∧ (s.sbiOf c.dn).isNone then some (7, 9)
    else if c.op = 1 ∨ c.op = 2 then s.xformFault i c
    else none

/-! ### Host data -/

/-- Class of a context's work. -/
def ctxCls (s : State) (c : Ctx) : Nat :=
  if c.access then (match c.je with | some je => (s.entry je).cls | none => 3) else s.f Fld.qCfg_class (4 * c.inst + c.q)

/-- Base address of a ring from its two registers. -/
def ringBase (s : State) (lo hi : Fld) (i : Nat) : Nat := s.f lo i * 4096 + s.f hi i * 2 ^ 32

/-- Whether a tag is free for a read of an instance (R55). -/
def tagFree (s : State) (i : Nat) : Bool := (s.pickTag (s.route (s.instLink i))).isSome

/-- Host bytes that an operation reads in all. -/
def dataWant (x : CcdX) : Nat := if x.c.op = 2 ∨ x.c.op = 3 then x.c.count else if x.c.op = 5 then 16 else 0

/-- Host bytes that have come. -/
def dataGot (x : CcdX) : Nat := (x.spans.map (·.2)).sum

/-- Whether an exchange of an operation is open at its device address. -/
def pieceOpen (s : State) (je : Nat) (o : Op) : Bool :=
  match (s.daddr o.port o.daddr).opened with
  | some x => x.req.je == some je
  | none => false

/-- A CCD ends for a failed host access once no piece of it is open (R137, R140). -/
def endHost (s : State) (je what st : Nat) : State :=
  match s.op? je with
  | none => s
  | some o =>
    let s := (s.hostErr je what st).modOp je fun o => { o with stop := true }
    if s.pieceOpen je o then s else ((s.dequeueOp je o.port).modOp je fun o => { o with cur := none }).farEnd je

/-- The read that a context's state calls for: its address and bytes, and what it is for: a start entry, a CCD, or the host data of a CCD that
were asked for and have not come. -/
def fetchOf (s : State) (n : Nat) (c : Ctx) : Option (Nat × Nat × Purpose) :=
  let k := 4 * c.inst + c.q
  match c.st with
  | .start => some (s.ringBase Fld.sqBaseLo_base_lo Fld.sqBaseHi_base_hi k + 16 * s.f Fld.sqHead_head k, 16, .startEntry c.inst c.q)
  | .ready => none
  | .fetching => some (c.addr, 32, .ccd n)
  | .run =>
    match c.je.bind fun je => ((s.op? je).bind (·.x)).map fun x => (je, x) with
    | some (je, x) => some (x.c.data + dataGot x, x.hasked - dataGot x, .data n je)
    | none => none

/-- The read of a context is issued; where G_TLINK refuses it, it ends with CA. -/
def engIssue (s : State) (n : Nat) : State :=
  match s.ctx? n with
  | none => s
  | some c =>
    match s.fetchOf n c with
    | none => s
    | some (a, len, pur) =>
      let r := s.instRead c.inst (s.ctxCls c) a len pur
      match r.1, pur with
      | .refused, .data _ je => (r.2.modX je fun x => { x with fetching := false }).endHost je 1 2
      | .refused, _ => r.2.modCtx n fun c => { c with got := some (2, []) }
      | _, _ => r.2

/-- A context hands its read to its cluster as a transfer of one flit (R192): it is issued now, or once it is charged. -/
def engFetch (s : State) (n : Nat) : State :=
  match s.ctx? n with
  | none => s
  | some c =>
    let inp := hubCluster c.eng
    let own := match c.st, c.je with | .run, some je => XOwn.op je | _, _ => XOwn.ctx n
    let r := s.formXfer inp (hubLink (s.route (s.instLink c.inst)) inp) (s.ctxCls c) c.inst c.eng 0 own (.fetch n)
    if r.1 then r.2.engIssue n else r.2

/-- The engine issues the next fetch of a CCD's host data (R208, R135): at most 4,096 bytes, within one 4,096-byte block, and no more than
the instance's free quota. -/
def askData (s : State) (je : Nat) : State :=
  match s.op? je with
  | none => s
  | some o =>
    match o.x with
    | none => s
    | some x =>
      let e := s.entry je
      let i := e.inst
      let a := x.c.data + x.hasked
      let n := min (dataWant x - x.hasked) (min (4096 - a % 4096) (256 * s.quotaFree i))
      let off := match s.ctx? x.ctx with | some c => c.moving || s.engMasked c.eng | none => true
      if x.fetching || e.err != 0 || o.stop || o.done || n == 0 || off || !s.tagFree i then s
      else match s.takeHold i (3 * e.cls + 2) (grainsOf n) with
        | none => s
        | some h =>
          ((s.modX je fun x => { x with fetching := true, hasked := x.hasked + n }).modOp je fun o =>
            { o with hold := o.hold.add h }).engFetch x.ctx

/-! ### Starting an operation -/

/-- An admitted CCD that fails a check ends with no exchange (R135). -/
def endCcd (s : State) (je st detail : Nat) : State :=
  let s := if st = 0xA then s.incF Fld.cmpXformCnt_key_err else s
  ((s.modEntry je fun e => { e with err := st }).modX je fun x => { x with detail := detail }).farEnd je

/-- The operation of a CCD on its DN's values, which it keeps until it ends (R135). -/
def ccdOp (i : Nat) (x : CcdX) (dv : Device) (reqId : Nat) (h area : Hold) : Op :=
  let c := x.c
  let u := swapUnit dv.swap
  { port := dv.port, daddr := dv.daddr, maxb := dv.maxb, bound := dv.bound, wr := c.op == 2 || c.op == 3
    cut := if c.op = 5 then spanSpec c.gaddr c.count (min u c.count) else spanSpec c.gaddr (devLen c) u
    ident := reqId, link := i, data := if c.op = 2 ∨ c.op = 3 then List.replicate (c.gaddr % 8) 0 else []
    hold := h, area := area, x := some x }

/-- Starts an admitted CCD that passed its checks. -/
def startCcd (s : State) (je : Nat) (c : Ccd) : State :=
  match c.op with
  | 1 | 4 => s.goOn je
  | 2 | 3 => (s.goOn je).askData je
  | 5 =>
    let s := s.modOp je fun o => { o with cur := some (c.gaddr, c.gaddr + c.count - 1) }
    (s.enqueueOp je .lockRd).askData je
  | 8 =>
    let d := s.dn c.dn
    if d.attn = .delivered then s.satisfyAll c.dn d.lastSample [je]
    else s.modX je fun x => { x with waiting := true, since := s.ts }
  | _ => s.farEnd je

end State

end Sys2Proof.Machine
end

