-- ==== Sys2Proof/Machine/Prog.lean ====
section
/-! DEFINITION. Channel programs (chapter 6): dispatch (R158), start entries and CCDs (R129 to R136), completion entries and their EVENTs
(R139 to R145), notices and fences (R150 to R152). -/

namespace Sys2Proof.Machine

namespace State

/-- What a queue pair keeps, by 4 × instance + Q. -/
def qp (s : State) (k : Nat) : Qp := FMap.get {} k s.qps

/-- Changes what a queue pair keeps. -/
def modQp (s : State) (k : Nat) (g : Qp → Qp) : State := { s with qps := FMap.mod {} k g s.qps }

/-! ### Dispatch (R158) -/

/-- Engines that take contexts: active, not under test. -/
def actEngs (s : State) : List Nat := (s.engs.filter fun e => e.2.role == .active && !e.2.testing).map (·.1)

/-- Contexts in all, C. -/
def ctxTotal (s : State) : Nat := 16 * (s.engs.filter fun e => e.2.role == .active).length

/-- Instances that exist, and the sum of their weights. -/
def instsLive (s : State) : List (Nat × Inst) := s.insts.filter fun x => x.2.st != .free

/-- The context reserve K of an instance. -/
def reserve (s : State) (i : Nat) : Nat :=
  let c := s.ctxTotal
  let n := s.instsLive.length
  let w := (s.instsLive.map (·.2.weight)).sum
  if c < n then 0 else max 1 ((c - n) * (s.inst i).weight / w)

/-- Contexts that an instance holds. -/
def ctxHeld (s : State) (i : Nat) : Nat := (s.ctxs.filter fun c => c.2.inst == i).length

/-- Contexts of an engine. -/
def engCtxs (s : State) (e : Nat) : Nat := (s.ctxs.filter fun c => c.2.eng == e).length

/-- The engine that takes the next context: the lowest powered one with room, or the lowest with room. -/
def pickEng (s : State) : Option Nat :=
  let es := s.actEngs.filter fun e => s.engCtxs e < 16
  (es.find? fun e => s.pwr.up.contains (.eng e)).orElse fun _ => es.head?

/-- The age of a queue pair's oldest waiting start entry: when the doorbell that covers it was rung. -/
def doorAge (s : State) (k : Nat) : Nat := match (s.qp k).doors with | [] => s.ts | d :: _ => d.2

/-- The oldest waiting work of an instance: its rank (age, then order of admission), and the queue pair or Journal entry. -/
def oldestWork (s : State) (i : Nat) : Option (Nat × (Nat ⊕ Nat)) :=
  let qs := ((List.range 4).filter fun q => s.qpWaits (4 * i + q)).map fun q => ((s.doorAge (4 * i + q) * 2 ^ 64 + q), Sum.inl q)
  let js := (s.accessWaits.filter fun j => (s.entry j).inst == i).map fun j =>
    ((match s.op? j with | some o => o.age | none => 0) * 2 ^ 64 + (s.entry j).serial, Sum.inr j)
  (qs ++ js).foldl (fun m x => match m with | none => some x | some y => if x.1 < y.1 then some x else some y) none

/-- Whether one instance is served before another: smaller dispatch pass, then older work. -/
def servedFirst (s : State) (a b : Nat) : Bool :=
  let p := (s.inst a).dispPass
  let q := (s.inst b).dispPass
  p < q || (p == q && (match s.oldestWork a, s.oldestWork b with | some x, some y => x.1 < y.1 | _, _ => false))

/-- The instance that the dispatcher serves next. -/
def nextInst (s : State) : Option Nat :=
  let ws := (s.insts.filter fun x => s.instWaits x.1).map (·.1)
  let best (l : List Nat) : Option Nat :=
    l.foldl (fun m i => match m with | none => some i | some j => if s.servedFirst i j then some i else some j) none
  let free := s.ctxTotal - s.ctxs.length
  let need (i : Nat) : Nat := ((s.instsLive.filter fun x => x.1 != i).map fun x => s.reserve x.1 - s.ctxHeld x.1).sum
  (best (ws.filter fun i => s.ctxHeld i < s.reserve i)).orElse fun _ => best (ws.filter fun i => need i ≤ free - 1)

/-- A new context; its number. -/
def newCtx (s : State) (c : Ctx) : State := { s with ctxs := FMap.put s.nextCtx { c with since := s.ts } s.ctxs, nextCtx := s.nextCtx + 1 }

/-- An engine takes work of a class: its wake is queued when it is powered down, and a power-down of it that has fallen due is not carried out
(R304). -/
def wakeEng (s : State) (e cls : Nat) : State := s.queueWake (.eng e) cls

/-- The read of a context's start entry is issued once its engine, a grain and a tag are to be had (R130, R208). A context whose queue pair no
longer reads entries falls free. -/
def askStart (s : State) (n : Nat) : State :=
  match s.ctx? n with
  | none => s
  | some c =>
    if c.access || c.st != .start || decide (0 < c.hold.total) || c.got.isSome || c.moving then s
    else if c.stale || s.f Fld.qStat_state (4 * c.inst + c.q) != 1 || (s.inst c.inst).st != .active then s.freeCtx n
    else if s.engMasked c.eng || !s.tagFree c.inst then s
    else match s.takeHold c.inst (3 * s.ctxCls c + 2) 1 with
      | none => s
      | some h => (s.modCtx n fun c => { c with hold := h }).engFetch n

/-- Dispatches a program: the context is taken, and the read of the start entry is issued as soon as it may (R158, R130). -/
def dispatchQp (s : State) (i q e : Nat) : State :=
  ((s.newCtx { eng := e, inst := i, q := q, st := .start }).wakeEng e (s.f Fld.qCfg_class (4 * i + q))).askStart s.nextCtx

/-- Dispatches an engine-path access (R157), whose descriptor comes to the engine from the Landing pool. -/
def dispatchAccess (s : State) (i je e : Nat) : State :=
  let cls := (s.entry je).cls
  let s := (s.newCtx { eng := e, inst := i, access := true, st := .run, je := some je }).wakeEng e cls
  let s := (s.modEntry je fun x => { x with eng := e }).modOp je fun o => { o with ctx := some (s.nextCtx - 1) }
  let s := s.addXfer hubLanding (hubCluster e) cls i 0 (.op je)
  match s.op? je with
  | some o => (s.dequeueOp je o.port).goOn je
  | none => s

/-- The rank of a context by age: its entry's order of admission; one without an operation comes last. -/
def ctxRank (s : State) (c : Ctx) : Nat :=
  match c.je with
  | some je => if (FMap.find je s.jnl.entries).isSome then (s.entry je).serial else s.jnl.serial
  | none => s.jnl.serial

/-- The context first by age of those that found no spare, which wait at the head of the dispatch queue (R163). -/
def oldestMoved (s : State) : Option (Nat × Ctx) :=
  (s.ctxs.filter fun c => c.2.eng == 0x7F).foldl (fun m x => match m with
    | none => some x
    | some y => if s.ctxRank x.2 < s.ctxRank y.2 then some x else some y) none

/-- A context that found no spare is given to an engine (R163). One without a Journal entry goes on there; the operation of another is rebuilt. -/
def placeMoved (s : State) (k e : Nat) : State :=
  let s := s.modCtx k fun c => { c with eng := e, moving := c.je.isSome }
  match (s.ctx? k).bind (·.je) with
  | some je => if (FMap.find je s.jnl.entries).isSome then s.modEntry je fun x => { x with eng := e } else s
  | none => s

/-- Start entries whose reads could not be issued when their contexts were taken are asked for. -/
def askStarts (s : State) : State := s.ctxs.foldl (fun s c => s.askStart c.1) s

end State

/-- DISPATCH (R158). -/
def execDispatch (s : State) : Host.Outcome State Fault Refusal :=
  let s := s.start
  .next <|
    if !s.works then s else
    let s := s.askStarts
    match s.pickEng with
    | none => s
    | some e =>
      match s.oldestMoved with
      | some (k, c) => (s.placeMoved k e).wakeEng e (s.ctxCls c)
      | none =>
        match s.nextInst with
        | none => s
        | some i =>
          match s.oldestWork i with
          | some (_, .inl q) => s.dispatchQp i q e
          | some (_, .inr je) => s.dispatchAccess i je e
          | none => s

namespace State

/-! ### Queue pair states (Table 6.2) -/

/-- A queue pair enters FAULT (source 0x0A0): cause, and the Thaty status. -/
def qpFault (s : State) (k cause st : Nat) : State :=
  (((s.setF Fld.qStat_state 3 k).setF Fld.qStat_fault_cause cause k).setF Fld.qStat_fault_status st k).raise 0x0A0 (k % 4) (some (k / 4))

/-- Completion entries of a queue pair that are owed and held. -/
def qpHeld (s : State) (k : Nat) : Bool := !(s.qp k).held.isEmpty

/-- A queue pair in DRAIN with nothing in flight and nothing held becomes OFF. -/
def qpDrained (s : State) (k : Nat) : State :=
  if s.f Fld.qStat_state k = 2 ∧ s.f Fld.qStat_inflight k = 0 ∧ !s.qpHeld k then s.setF Fld.qStat_state 0 k else s

/-- A program ends: its context falls free, and an entry that MAXP kept waiting is waiting work again (R158). -/
def endProgram (s : State) (n i q : Nat) : State :=
  let k := 4 * i + q
  (((s.freeCtx n).setF Fld.qStat_inflight (s.f Fld.qStat_inflight k - 1) k).qpDrained k).raisePass s i

end State

/-- The doorbells of waiting entries after one entry has been read, and those of the first `n` waiting entries. -/
def dropDoor : List (Nat × Nat) → List (Nat × Nat)
  | [] => []
  | (n, t) :: ds => if n ≤ 1 then ds else (n - 1, t) :: ds
def keepDoors : Nat → List (Nat × Nat) → List (Nat × Nat)
  | _, [] => []
  | n, (k, t) :: ds => if n ≤ k then (if n = 0 then [] else [(n, t)]) else (k, t) :: keepDoors (n - k) ds

/-- The doorbells once `n` entries wait and a doorbell has just been rung at `t`. -/
def ringDoor (n t : Nat) (ds : List (Nat × Nat)) : List (Nat × Nat) :=
  let m := (ds.map (·.1)).sum
  if m < n then ds ++ [(n - m, t)] else keepDoors n ds

namespace State

/-- Slots of a CQ that are reserved (R141). -/
def cqReserved (s : State) (k : Nat) : Nat := (s.ctxs.filter fun c => c.2.slot && !c.2.access && 4 * c.2.inst + c.2.q == k).length

/-- Free slots of a CQ (R141). -/
def cqFree (s : State) (k : Nat) : Nat :=
  let n := 2 ^ s.f Fld.qCfg_cq_size k
  n - 1 - (s.f Fld.cqTail_tail k + n - s.f Fld.cqDb_head k) % n - s.cqReserved k

end State

/-- START_ENTRY_FETCHED (R130, R131, R134): the program starts, or the queue pair enters FAULT. An entry that arrives when the queue pair
is no longer in RUN, or its instance no longer ACTIVE, is not consumed. -/
def execStartEntryFetched (inst : Fin 256) (q : Fin 4) (s : State) : Host.Outcome State Fault Refusal :=
  let s := s.start
  .next <|
    let i := inst.val
    let k := 4 * i + q.val
    if !s.works then s else
    match s.ctxs.find? fun c => !c.2.access && c.2.inst == i && c.2.q == q.val && c.2.st == .start && c.2.got.isSome with
    | none => s.askStarts
    | some (n, c) =>
      if c.moving then s
      else if c.stale ∨ s.f Fld.qStat_state k ≠ 1 ∨ (s.inst i).st ≠ .active then s.freeCtx n
      else match c.got with
        | none => s
        | some (st, bs) =>
          if st ≠ 0 then (s.freeCtx n).qpFault k 1 st
          else
            let s := s.addXfer hubLanding (hubCluster c.eng) (s.ctxCls c) i 16 (.ctx n)
            let s := s.setF Fld.sqHead_head ((s.f Fld.sqHead_head k + 1) % 2 ^ s.f Fld.qCfg_sq_size k) k
            let s := s.modQp k fun p => { p with doors := dropDoor p.doors }
            let s := (s.setF Fld.qStat_inflight (s.f Fld.qStat_inflight k + 1) k).incF Fld.qCnt_programs k
            s.modCtx n fun c => { c with
              st := .ready, got := none, hold := {}, jumps := 0, addr := bits 55 5 (fieldAt 0 8 bs) * 32
              ptag := fieldAt 8 4 bs, imm := bit 31 (fieldAt 12 4 bs) }

/-- CCD_FETCH (R134, R141, R170): with a CQ slot and a Journal entry reserved, the engine issues the CCD's MRD. -/
def execCcdFetch (ctx : Nat) (s : State) : Host.Outcome State Fault Refusal :=
  let s := s.start
  .next <|
    if !s.works then s else
    match s.ctx? ctx with
    | none => s
    | some c =>
      let i := c.inst
      let k := 4 * i + c.q
      let cls := s.f Fld.qCfg_class k
      if c.access ∨ c.st ≠ .ready ∨ c.moving ∨ s.engMasked c.eng ∨ s.cqFree k = 0 ∨ !s.tagFree i then s else
      match s.jeRoom i, s.takeHold i (3 * cls + 2) 1 with
      | some je, some h =>
        let s := s.draw.modJnl fun j => { j with reserved := FMap.put je i j.reserved }
        (s.modCtx ctx fun c => { c with st := .fetching, slot := true, je := some je, hold := h, got := none }).engFetch ctx
      | _, _ => s

namespace State

/-- The entry of a CCD (Table 7.4). -/
def ccdEntry (s : State) (i q e cls dn addr : Nat) : JEntry :=
  { kind := 4, cls := cls, inst := i, eng := e, dn := dn, link := s.instLink i, vc := cls, ref := q * 2 ^ 56 + addr }

/-- Admits a CCD in its reserved entry and starts it, or ends it (R134, R135). None while grains that it needs before admission are not to be
had (R208, R233). -/
def admitCcd (s : State) (n : Nat) (c : Ctx) (je : Nat) (st : Nat) (d : Ccd) (fault : Option (Nat × Nat)) : Option State :=
  let i := c.inst
  let cls := s.f Fld.qCfg_class (4 * i + c.q)
  let s := s.modCtx n fun c => { c with hold := {} }
  let x : CcdX := { c := d, addr := c.addr, q := c.q, ptag := c.ptag, imm := c.imm, ctx := n, keyUse := d.enc && fault.isNone && st == 0 }
  let e := s.ccdEntry i c.q c.eng cls d.dn c.addr
  let run (s : State) : State := s.modCtx n fun c => { c with st := .run, got := none, span := none, je := some je }
  let dead (s : State) : State := run (s.admitOp je e { x := some x, ctx := none })
  if st ≠ 0 then some ((dead s).endCcd je 6 st)
  else match fault with
    | some (cs, dt) => some ((dead s).endCcd je cs dt)
    | none =>
      match s.takeHold i (3 * cls + 2) (if d.cmp then 136 else 0) with
      | none => none
      | some h =>
        let o := ccdOp (s.instLink i) x (s.device d.dn) (s.inst i).reqId.toNat {} h
        some ((run (s.admitOp je e o)).startCcd je d)

/-- What a CCD that has come is: a BRANCH that is performed goes on at its target; any other is admitted. A context that waits for the stream-state
area of a CCD with CMP holds no grain meanwhile (R233). -/
def takeCcd (s : State) (n : Nat) (c : Ctx) (je st : Nat) (bs : List Byte) : State :=
  let raw := if st = 0 then ccdOf bs else {}
  let d := match c.span with | some sp => { raw with cmp := false, gaddr := sp.2 } | none => raw
  let prev := c.span.map (·.1)
  let s := s.addXfer hubLanding (hubCluster c.eng) (s.ctxCls c) c.inst 32 (.ctx n)
  let fault :=
    if d.op = 6 then
      (if !flagsOk d then some (7, 2) else if d.data % 32 ≠ 0 then some (7, 5) else if c.jumps = 8 then some (7, 6)
       else if prev.isSome then some (7, 7) else none)
    else s.ccdFault c.inst d prev
  if st = 0 ∧ d.op = 6 ∧ fault.isNone then
    (s.modJnl fun j => { j with reserved := FMap.del je j.reserved }).modCtx n fun c =>
      { c with st := .ready, slot := false, je := none, got := none, hold := {}, jumps := c.jumps + 1, addr := d.data }
  else
    match s.admitCcd n { c with jumps := 0 } je st d fault with
    | some t => t.modCtx n fun c => { c with jumps := 0 }
    | none => s.modCtx n fun c => { c with hold := {} }

end State

/-- CCD_ADMISSION (R134, R135). -/
def execCcdAdmission (ctx : Nat) (s : State) : Host.Outcome State Fault Refusal :=
  let s := s.start
  .next <|
    if !s.works then s else
    match s.ctx? ctx with
    | none => s
    | some c =>
      match c.got, c.je with
      | some (st, bs), some je =>
        if c.st ≠ .fetching ∨ c.moving ∨ c.access then s else s.takeCcd ctx c je st bs
      | _, _ => s

namespace State

/-- Whether all data of a posted WRITE has been placed (R138). -/
def allPlaced (x : CcdX) : Bool :=
  x.c.op == 2 && x.c.pst && !x.excess && x.s0.length == x.c.count && (!x.c.cmp || x.end1) && (!x.c.enc || x.s2.length == x.s1.length)

/-- Once a posted WRITE has placed all its data its engine drives its pieces no further, and ENGINE reads "none" (R156). -/
def dataPlaced (s : State) (je : Nat) (x : CcdX) : State :=
  if allPlaced x && (s.entry je).eng != 0x7F then s.modEntry je fun e => { e with eng := 0x7F } else s

/-- Whether the pieces of an operation stand in the Derailleur's queue without an engine (R156). -/
def offEngine (s : State) (je : Nat) : Bool :=
  match (s.op? je).bind (·.x) with
  | some x => allPlaced x
  | none => false

/-- Stages that need no chunk pass bytes on at once (R222): `s0` to `s1` where a WRITE has no CMP, `s1` to `s2` where it has no ENC, and
`s2` into what the pieces carry. -/
def flowWrite (s : State) (je : Nat) : State :=
  let s := s.modX je fun x =>
    let x := if x.c.cmp then x else { x with s1 := x.s0, end1 := decide (dataWant x ≤ x.s0.length) }
    if x.c.enc then x else { x with s2 := x.s1 }
  match (s.op? je).bind (·.x) with
  | some x => ((s.modOp je fun o => { o with data := List.replicate (x.c.gaddr % 8) 0 ++ x.s2 }).dataPlaced je x).serve
  | none => s

end State

/-- DATA_FETCH (R208, R138): host data that has come is placed, a failed fetch ends the CCD, and the next fetch is issued. -/
def execDataFetch (ctx : Nat) (s : State) : Host.Outcome State Fault Refusal :=
  let s := s.start
  .next <|
    if !s.works then s else
    match s.ctx? ctx with
    | none => s
    | some c =>
      match c.je with
      | none => s
      | some je =>
        if c.st ≠ .run ∨ c.moving ∨ c.access then s else
        match c.got with
        | none => s.askData je
        | some (st, bs) =>
          let s := s.modCtx ctx fun c => { c with got := none }
          match (s.op? je).bind (·.x) with
          | none => s
          | some x =>
            if st ≠ 0 then (s.modX je fun x => { x with fetching := false }).endHost je 1 st
            else
              let o := State.dataGot x
              let n := x.hasked - o
              let bs := slice ((x.c.data + o) % 8) n bs
              let s := s.modX je fun x =>
                let x := { x with fetching := false, spans := x.spans ++ [(o, n)] }
                if x.c.op = 5 then { x with operands := bs } else { x with s0 := x.s0 ++ bs }
              let s := if x.c.op = 5 then s else s.flowWrite je
              s.askData je

namespace State

/-! ### Completion entries -/

/-- Body of the completion queue EVENT (Table 6.8). -/
def cqBody (s : State) (k : Nat) : List Byte :=
  natBytes 4 (k % 4 * 65536 + s.f Fld.cqTail_tail k) ++ natBytes 4 (min (s.qp k).n 65535 * 65536)

/-- The status tunnel EVENT of a CQ that waits for writes, which an EVENT of that CQ follows (R145). -/
def tunnelWaits (s : State) (k : Nat) : Option EvWait := (s.evWait.filter fun e => e.code == 3 && e.inst == k / 4 && e.add == k % 4).getLast?

/-- Sends the EVENT of a CQ (R143, R144), which disarms it: from an engine's cluster where a completion entry triggers it, and otherwise over no
Hub port. It follows a tunnel EVENT of its CQ that waits (R145). -/
def cqEvent (s : State) (k : Nat) (e : Option Nat) : State :=
  let vc := s.f Fld.qCfg_class k
  let s := match s.tunnelWaits k, e with
    | some w, _ => { s with evWait := s.evWait ++ [{ w with code := 1, body := s.cqBody k }] }
    | none, some e => s.eventFrom (hubCluster e) e (k / 4) 1 vc (k % 4) (s.cqBody k)
    | none, none => s.sendEventVc (k / 4) 1 vc (k % 4) (s.cqBody k)
  s.modQp k fun q => { q with armed := false, n := 0, timer := false, evPend := false }

/-- Bytes 0 to 31 of a completion entry (Table 6.5), without PHASE; `flags` holds END, MID, POSTED, STV, STK. -/
def entryHead (k : Nat) (x : CcdX) (je cstat detail dn hb gb : Nat) (flags : Nat) : List Byte :=
  natBytes 4 (flags + k % 4 * 2 ^ 24 + cstat * 2 ^ 16 + detail * 2 ^ 8 + x.c.op * 16) ++ natBytes 4 x.ptag ++ natBytes 8 x.addr
  ++ natBytes 4 je ++ natBytes 4 dn ++ natBytes 4 hb ++ natBytes 4 gb

/-- DETAIL of an entry: for a LOCKED-RMW that ended OK, whether the compare failed (Table 6.6). -/
def entryDetail (x : CcdX) (cstat : Nat) : Nat :=
  if cstat ≠ 0 then x.detail else if x.c.op = 5 ∧ x.newVal.isNone then 1 else 0

/-- The completion entry of a CCD: record, and whether STV and STK are set (R139). -/
def entryRecord (x : CcdX) (posted : Bool) : List Byte × Nat :=
  if posted then (List.replicate 32 0, 0)
  else match x.sample with
    | some p => (slice 0 32 (p ++ List.replicate 16 0), 3)
    | none => if x.last.length = 32 then (x.last, 1) else (List.replicate 32 0, 0)

/-- The engine of a context. -/
def ctxEng (s : State) (n : Nat) : Nat := match s.ctx? n with | some c => c.eng | none => 0

/-- Whether the program goes on after a CCD (R134). -/
def goesOn (x : CcdX) (cstat : Nat) : Bool := cstat == 0 && (if x.c.span then !x.endShort else x.c.chain)

/-- After a completion entry is written (R134, R141, R143, R145): the context takes the next CCD or ends, and the EVENTs follow. An EVENT that ARM
called for in FAULT follows the held entries (R129). -/
def afterEntry (s : State) (k n : Nat) (x : CcdX) (cstat dn : Nat) (rec : List Byte) (kind : Nat) : State :=
  let more := goesOn x cstat
  let e := s.ctxEng n
  let s := (s.incF Fld.qCnt_ccds k).modQp k fun q => { q with n := q.n + 1 }
  let w := fieldAt 0 2 rec
  let s := if kind = 1 ∧ (bit 15 w ∨ bit 14 w ∨ bit 13 w) ∧ s.fb Fld.cqCoal_tunnel k ∧ s.evOn (k / 4) 3 then
      s.dnEvent dn (hubCluster e) e (k / 4) 3 (s.f Fld.qCfg_class k) (k % 4)
        (natBytes 4 (k % 4 * 2 ^ 22 + dn) ++ natBytes 4 x.ptag ++ slice 0 32 rec)
    else s
  let s := if (s.qp k).armed ∧ !(s.qp k).evPend ∧ s.evOn (k / 4) 1 ∧ (s.f Fld.cqCoal_count k ≤ (s.qp k).n ∨ (!more ∧ x.imm)) then
      s.cqEvent k (some e)
    else s.modQp k fun q => { q with timer := q.timer || s.f Fld.cqCoal_time k != 0 }
  if more then
    s.modCtx n fun c => { c with
      st := .ready, slot := false, je := none, addr := c.addr + 32, jumps := 0
      span := if x.c.span then some (x.c.op, x.c.gaddr + x.c.count) else none }
  else s.endProgram n (k / 4) (k % 4)

/-- A completion entry is held while its queue pair is in FAULT (R129). -/
def holdEntry (s : State) (k je : Nat) : State :=
  s.modQp k fun q => { q with held := if q.held.contains je then q.held else q.held ++ [je] }

/-- Writes a completion entry and commits it (R139, R173, R217); a refused write puts the queue pair in FAULT and is held. -/
def writeEntry (s : State) (je : Nat) (x : CcdX) (posted : Bool) : State :=
  let e := s.entry je
  let i := e.inst
  let k := 4 * i + x.q
  let cstat := if posted then 0 else e.err
  let more := goesOn x cstat
  let early := posted && e.st != .farDone
  let quiet := posted || (allPlaced x && cstat == 0)
  let r := entryRecord x quiet
  let size := 2 ^ s.f Fld.qCfg_cq_size k
  let tail := s.f Fld.cqTail_tail k
  let phase := s.f Fld.cqTail_phase k
  let flags := phase * 2 ^ 31 + b2n (!more) * 2 ^ 30 + b2n (x.c.span && more) * 2 ^ 29 + b2n quiet * 2 ^ 28
    + (if r.2 = 0 then 0 else 2 ^ 27) + (if r.2 = 3 then 2 ^ 26 else 0)
  let hb := if early then x.c.count else hbytes x e.progress
  let bytes := entryHead k x je cstat (entryDetail x cstat) e.dn hb (e.progress) flags ++ r.1
  let a := s.ringBase Fld.cqBaseLo_base_lo Fld.cqBaseHi_base_hi k + 64 * tail
  let w := s.instMwr i e.vc a bytes
  if !w.1 then (w.2.2.qpFault k 2 2).holdEntry k je
  else
    let o := s.srcOp 0 0 je
    let s := w.2.2.handPkt (s.instLink i) { pkt := w.2.1, frees := if early then [] else [je], cls := e.cls, age := o.age, serial := o.serial }
    let s := (s.setF Fld.cqTail_tail ((tail + 1) % size) k).setF Fld.cqTail_phase (if tail + 1 = size then 1 - phase else phase) k
    let s := s.modQp k fun q => { q with held := q.held.erase je }
    let s := if early then
        (s.modEntry je fun e => { e with pst := true, pdone := true }).modX je fun x => { x with fetching := false }
      else { s.setSt je .completed with ops := FMap.del je s.ops }
    s.afterEntry k x.ctx x cstat e.dn r.1 r.2

/-- Whether something of a CCD waits for C0 tokens that its completion entry has to follow (R141). -/
def entryWaits (s : State) (je : Nat) : Bool := s.hub.held.any fun h => h.own == .op je && h.act != .piece je

/-- The completion entry of a CCD is formed at its engine's cluster (R192): it is written now, or once it is charged. -/
def formEntry (s : State) (je : Nat) (x : CcdX) (posted : Bool) : State :=
  let e := s.entry je
  let g := s.ctxEng x.ctx
  let r := s.formXfer (hubCluster g) (hubLink (s.route (s.instLink e.inst)) (hubCluster g)) e.cls e.inst g 64 (.op je) (.entry je)
  if r.1 then r.2.writeEntry je x posted else r.2

/-- The completion entry that a CCD owes now: of a CCD whose far side has ended, or of a posted WRITE whose data has all been placed. In
FAULT it is held; in SQUASH none is written. -/
def completion (s : State) (je : Nat) : State :=
  match s.op? je with
  | none => s
  | some o =>
    match o.x with
    | none => s
    | some x =>
      let e := s.entry je
      let k := 4 * e.inst + x.q
      let moving := match s.ctx? x.ctx with | some c => c.moving | none => true
      let ends := e.st == .farDone && o.done
      let posts := allPlaced x && !e.pst && e.err == 0 && (e.st == .admitted || e.st == .issued)
      if e.kind != 4 || moving || !(ends || posts) || s.entryWaits je then s
      else if s.f Fld.qStat_state k = 3 then s.holdEntry k je
      else s.formEntry je x posts

/-- A completion entry whose transfer is charged at last. -/
def entryGo (s : State) (je : Nat) : State :=
  match (s.op? je).bind (·.x) with
  | none => s
  | some x =>
    let e := s.entry je
    let k := 4 * e.inst + x.q
    if s.f Fld.qStat_state k = 3 then s.holdEntry k je else s.writeEntry je x (e.st != .farDone)

/-- What goes on when a held C0 transfer is charged (R192). -/
def c0Go (s : State) (x : C0Held) : State :=
  match x.act with
  | .piece je => s.pieceGo je
  | .cpl je => s.finishCpl je
  | .send l t => s.sendGo x l t
  | .fetch n => s.engIssue n
  | .entry je => s.entryGo je

/-- Whether a held transfer may be charged now: it is the first of its instance at its input, both buckets suffice, and a read has a tag. -/
def c0Free (s : State) (mine : List C0Held) (x : C0Held) : Bool :=
  (mine.find? fun g => g.inp == x.inp) == some x && s.haveTokens x.inst x.port (c0Cost x.bytes)
  && (match x.act with | .fetch _ => s.tagFree x.inst | _ => true)

end State

/-- COMPLETION_ENTRY (R134, R138 to R145, R173). -/
def execCompletionEntry (je : Fin 4194304) (s : State) : Host.Outcome State Fault Refusal :=
  let s := s.start
  .next <| if s.works then s.completion je.val else s

/-- CQ_COAL_TIME (R143): the timer stops, and an EVENT goes while the CQ is armed and EV_VEC_1.EN is 1; none where TIME has been written 0. -/
def execCqCoalTime (inst : Fin 256) (q : Fin 4) (s : State) : Host.Outcome State Fault Refusal :=
  let s := s.start
  .next <|
    let k := 4 * inst.val + q.val
    if !s.works ∨ !(s.qp k).timer then s else
    let s := s.modQp k fun p => { p with timer := false }
    if (s.qp k).armed ∧ s.evOn inst.val 1 ∧ s.instHears inst.val ∧ s.f Fld.cqCoal_time k ≠ 0 then s.cqEvent k none else s

/-- C0_HELD_RELEASE (R192): the oldest held transfer of the instance whose buckets both suffice is charged and formed; each input's transfers go
in order. -/
def execC0HeldRelease (inst : Fin 256) (s : State) : Host.Outcome State Fault Refusal :=
  let s := s.start
  .next <|
    if !s.works then s else
    let i := inst.val
    let mine := s.hub.held.filter fun h => h.inst == i
    match mine.find? (s.c0Free mine) with
    | none => s
    | some h =>
      (((s.c0Take i h.port (State.c0Cost h.bytes)).modHub fun b => { b with held := b.held.erase h }).addXfer h.inp h.port 0 h.sub h.bytes h.own).c0Go h

namespace State

/-! ### Notices and fences -/

/-- SRC of a notice (Table 6.11). -/
def noticeSrc (e : JEntry) : Nat := if e.kind < 4 then 0 else if e.kind = 4 then 1 else if e.kind = 5 then 2 else 3

/-- ADDR of a notice. -/
def noticeAddr (e : JEntry) (o : Op) : Nat :=
  if e.kind < 4 then e.ref % 2 ^ 56
  else if e.kind = 4 then (match o.x with | some x => x.addr | none => 0)
  else if e.kind = 5 then
    (match o.hdr with | some h => h.addr.toNat + lowBit8 h.fbe.toNat | none => 0)
  else 0

/-- A Posted Error Log record without PHASE (Table 6.11). The DN of a peer write is its target (R150). -/
def noticeRec (je : Nat) (e : JEntry) (o : Op) (phase : Nat) : List Byte :=
  let dn := if e.kind = 7 then o.tdn else e.dn
  let g := match e.kind, o.frame with
    | 5, some f => frameAddr f
    | _, _ => o.failG.getD 0
  natBytes 4 (phase * 2 ^ 31 + noticeSrc e * 2 ^ 28 + je) ++ natBytes 4 (o.fst * 2 ^ 24 + dn) ++ natBytes 8 (noticeAddr e o)
  ++ natBytes 4 g ++ natBytes 4 o.failTs ++ natBytes 4 (match o.x with | some x => x.ptag | none => 0) ++ natBytes 4 0
  ++ slice 0 32 o.status

/-- Whether the log has room (R151). -/
def pelFull (s : State) (i : Nat) : Bool :=
  s.f Fld.pelHead_head i == (s.f Fld.pelTail_tail i + 1) % 2 ^ s.f Fld.pelCfg_size i

/-- Counts a notice toward the fences (R152): of a write that the pending fence covers, or that no completed fence covered, or of a later
write. -/
def countNotice (s : State) (i je serial : Nat) : State :=
  let pend := !s.fb Fld.fenceStat_done i
  s.modPel i fun p =>
    let p := { p with waiting := p.waiting.erase je }
    if pend && !p.cover.contains (je, serial) then { p with later := p.later + 1 } else { p with counted := p.counted + 1 }

/-- Writes the first waiting notice of a log, if it may be written, and sends its EVENT (R151, R219). Both leave the Journal memory in the class
of the EVENT, so that the record comes first. -/
def noticeWrite (s : State) (i : Nat) : State :=
  match (s.pel i).waiting with
  | [] => s
  | je :: _ =>
    if !s.fb Fld.pelCfg_en i ∨ s.f Fld.pelStat_state i = 3 ∨ s.pelFull i ∨ (s.inst i).st = .squash then s else
    match s.op? je with
    | none => s.modPel i fun p => { p with waiting := p.waiting.erase je }
    | some o =>
      let e := s.entry je
      let tail := s.f Fld.pelTail_tail i
      let phase := s.f Fld.pelTail_phase i
      let size := 2 ^ s.f Fld.pelCfg_size i
      let a := s.ringBase Fld.pelBaseLo_base_lo Fld.pelBaseHi_base_hi i + 64 * tail
      let vc := s.f Fld.evVec_vc (evVecIdx i 4)
      let w := s.instWrite { s.srcOp hubJournal 0 je with cls := vc } vc a (noticeRec je e o phase) [je]
      if !w.1 then (w.2.setF Fld.pelStat_state 3 i).raise 0x0A1 4 (some i)
      else
        let s := (w.2.setF Fld.pelTail_tail ((tail + 1) % size) i).setF Fld.pelTail_phase (if tail + 1 = size then 1 - phase else phase) i
        let s := (s.incF Fld.pelStat_notices i).countNotice i je e.serial
        let s := s.modOp je fun o => { o with noticed := true }
        if s.evOn i 4 then
          s.eventFrom hubJournal 0 i 4 vc 0 (natBytes 4 (o.fst * 2 ^ 28 + je) ++ natBytes 4 (s.f Fld.pelTail_tail i * 65536))
        else s

/-- The posted writes of an instance that a fence started now covers (R152). -/
def fenceCover (s : State) (i : Nat) : List (Nat × Nat) :=
  (s.jnl.entries.filter fun p =>
    p.2.inst == i && p.2.st != .squashed && (match s.op? p.1 with
      | some o => !o.noticed && ((p.2.kind < 4 && p.2.pst) || (p.2.kind == 4 && p.2.pdone) || ((p.2.kind == 5 || p.2.kind == 7) && o.wr && !o.np))
      | none => false)).map fun p => (p.1, p.2.serial)

/-- Whether a covered write has taken effect or had its notice written. -/
def settled (s : State) (x : Nat × Nat) : Bool :=
  match FMap.find x.1 s.jnl.entries, s.op? x.1 with
  | some e, some o => e.serial != x.2 || o.noticed || (e.kind == 5 && o.done && e.err == 0) || (e.kind == 7 && o.done && e.err == 0)
  | some e, none => e.serial != x.2 || e.st != .squashed
  | none, _ => true

end State

/-- NOTICE_WRITE (R151, R219). -/
def execNoticeWrite (inst : Fin 256) (s : State) : Host.Outcome State Fault Refusal :=
  let s := s.start
  .next <| if s.works then s.noticeWrite inst.val else s

/-- FENCE_DONE (R152): every covered write has taken effect or had its notice written. -/
def execFenceDone (inst : Fin 256) (s : State) : Host.Outcome State Fault Refusal :=
  let s := s.start
  .next <|
    let i := inst.val
    if !s.works ∨ s.fb Fld.fenceStat_done i ∨ !(s.pel i).cover.all s.settled then s else
    let n := min (s.pel i).counted 16383
    let s := ((s.setF Fld.fenceStat_done 1 i).setF Fld.fenceStat_notices n i).setF Fld.fenceStat_err (b2n (n != 0)) i
    s.modPel i fun p => { p with cover := [], counted := p.later, later := 0 }

end Sys2Proof.Machine
end

