-- ==== Sys2Proof/Machine/Eng.lean ====
section
/-! DEFINITION. Engines (R159, R162 to R165, R304): issue cycles, retries, retirement, and the move of an operation; how open
exchanges and locks of an operation are ended from outside (event k of Table 4.9, Table 4.11). -/

namespace Sys2Proof.Machine

namespace State

/-! ### Ending an operation's exchange and lock -/

/-- Aborts the open channel-side exchange at a device address with STATUS (events e and k of Table 4.9): GUARD follows once it is
sent. -/
def abortExchange (s : State) (p d reason : Nat) : State :=
  (s.queueStatus p { daddr := d, frame := statusFrame d (bridgeStatus false true reason 0 s.ts), guard := true }).modDaddr p d
    fun a => { a with opened := none }

/-- Releases the lock of an operation whose owner is squashed or whose engine is retired (Table 4.11): at once where it is HELD, and once
the LOCK-RD is answered in LOCKING. -/
def dropLock (s : State) (je p d : Nat) (count : Fld) : State :=
  let a := s.daddr p d
  if State.lockJe a ≠ some je then s else
  match a.lock with
  | .locking => s.modDaddr p d fun a => { a with squashWait := true }
  | .held => (s.incF count p).unlockAbort p d .ended
  | _ => s

/-- Ends what an operation has open at its device address: its exchange, or its lock. -/
def stopExchange (s : State) (je reason : Nat) (count : Fld) : State :=
  match s.op? je with
  | none => s
  | some o =>
    let a := s.daddr o.port o.daddr
    if a.lock ≠ .none then s.dropLock je o.port o.daddr count
    else if s.pieceOpen je o then s.abortExchange o.port o.daddr reason
    else s

/-! ### Repair records (R293) -/

/-- A repair record waits for a settings-area write; when the map holds 4,096 records it is lost (0x1C4). -/
def addRepair (s : State) (unit : Nat) (r : Repair) : State :=
  if 4096 ≤ s.bst.soft.length + s.bst.pendingRec.length then s.raise 0x1C4 unit
  else s.modBst fun b => { b with pendingRec := b.pendingRec ++ [r] }

/-! ### Retirement -/

/-- Whether an engine is a free spare (R163, R288). -/
def freeSpare (x : Eng) : Bool := x.role == .spare && !x.untested && !x.testing

/-- The spare for an engine: the lowest free one of its cluster, or of the next cluster that has one (R163). -/
def pickSpare (s : State) (e : Nat) : Option Nat :=
  let fs := (s.engs.filter fun x => freeSpare x.2).map (·.1)
  (List.range 4).findSome? fun k => fs.find? fun x => x / 26 == (e / 26 + k) % 4

/-- The contexts of an engine, by number. -/
def ctxsOf (s : State) (e : Nat) : List (Nat × Ctx) := s.ctxs.filter fun c => c.2.eng == e


/-- Inserts a context in the order of age. -/
def insertCtx (s : State) (x : Nat × Ctx) : List (Nat × Ctx) → List (Nat × Ctx)
  | [] => [x]
  | y :: ys => if s.ctxRank x.2 < s.ctxRank y.2 then x :: y :: ys else y :: s.insertCtx x ys

/-- The contexts of an engine, oldest operation first. -/
def ctxsByAge (s : State) (e : Nat) : List (Nat × Ctx) := (s.ctxsOf e).foldr (fun x l => s.insertCtx x l) []

/-- Whether a context runs an operation that has been admitted. -/
def ctxHasOp (s : State) (c : Ctx) : Bool :=
  match c.je with
  | some je => (FMap.find je s.jnl.entries).isSome
  | none => false

/-- A read or a completion entry of a context that waits for C0 tokens waits at the cluster of the context's new engine. -/
def rekey (s : State) (n : Nat) (c : Ctx) (k : Nat) : State :=
  let inp := hubCluster k
  let mine (x : C0Held) : Bool := match x.act with | .fetch m => m == n | .entry je => c.je == some je | _ => false
  let move (x : C0Held) : C0Held :=
    if mine x && k != 0x7F then { x with inp := inp, sub := k, port := hubLink (s.route (s.instLink c.inst)) inp } else x
  s.modHub fun b => { b with held := b.held.map move }

/-- ENGINE of a context's entry is rewritten, unless its pieces have left the engine (R156). -/
def ctxEngine (s : State) (c : Ctx) (k : Nat) : State :=
  match c.je with
  | some je => if s.ctxHasOp c && !s.offEngine je then s.modEntry je fun x => { x with eng := k } else s
  | none => s

/-- A context goes to engine `k` (0x7F: it waits at the head of the dispatch queue) and its entry's ENGINE field with it. A context that
holds no Journal entry is rebuilt at once; another waits for CONTEXT_REBUILD. -/
def moveCtx (s : State) (n : Nat) (c : Ctx) (k : Nat) : State :=
  (((s.modCtx n fun c => { c with eng := k, moving := c.je.isSome || k == 0x7F }).rekey n c k).ctxEngine c k)

/-- Ends the open exchange of a moved operation (event k) or releases its lock, which has it start again (R94), and takes it from its queue until
it is rebuilt. -/
def haltCtxOp (s : State) (c : Ctx) : State :=
  match c.je with
  | none => s
  | some je =>
    if s.offEngine je then s else
    match s.op? je with
    | none => s
    | some o =>
      let a := s.daddr o.port o.daddr
      let locked := State.lockJe a == some je && (a.lock == .locking || a.lock == .held)
      let s := if locked then s.modX je fun x => { x with relock := true } else s
      (s.stopExchange je 4 Fld.gptLockCnt_aborts).dequeueOp je o.port

/-- The engine for a moved context when there is no spare: the lowest active engine with a free context. -/
def anyEng (s : State) (e : Nat) : Nat := match (s.actEngs.filter fun k => k != e && s.engCtxs k < 16).head? with | some k => k | none => 0x7F

end State

/-- The recorded end of a slice (R291): the run of INCOMPLETE results on one target, of which the third raises 0x1C2 (R286). -/
def Slice.note (x : Slice) (r : SliceRes) : Slice :=
  { x with
    res := r, cut := false, incTarget := x.target
    incRun := if r = .incomplete then (if x.incTarget = x.target then x.incRun + 1 else 1) else 0 }

namespace State

/-- The third INCOMPLETE in a row on one target is reported. -/
def thirdIncomplete (s : State) (x : Slice) : State :=
  if x.res = .incomplete ∧ x.incRun = 3 then s.raise 0x1C2 x.target else s

/-- The result of a slice is recorded (R291). -/
def lastResult (s : State) (k : SliceKind) (code target count : Nat) : State :=
  match k with
  | .mem => (((s.setF Fld.bstLastMem_valid 1).setF Fld.bstLastMem_result code).setF Fld.bstLastMem_target target).setF
      Fld.bstLastMem_count count
  | .eng => (((s.setF Fld.bstLastEng_valid 1).setF Fld.bstLastEng_result code).setF Fld.bstLastEng_target target).setF
      Fld.bstLastEng_count count

/-- The signature registers take a slice's MISR. -/
def writeMisr (s : State) (k : SliceKind) (m e : Word) : State :=
  match k with
  | .mem => (s.setF Fld.bstMisrMem_misr m.toNat).setF Fld.bstMisrMemExp_misr e.toNat
  | .eng => (s.setF Fld.bstMisrEng_misr m.toNat).setF Fld.bstMisrEngExp_misr e.toNat

/-- An engine slice that R163 ends is INCOMPLETE (R288, R291, Table 13.9), in Prepare with no block done; how far one in Test came, and the
signatures, are open. -/
def endSliceFor (s : State) : State :=
  let r := s.bst.eng.target
  let n := if s.bst.eng.st = .test then s.free % 3200 else 0
  let s := s.draw
  let m := s.free
  let s := s.draw
  let s := (((s.lastResult .eng 3 r n).writeMisr .eng (BitVec.ofNat 32 m) (BitVec.ofNat 32 s.free)).incF Fld.bstCnt_incomplete)
  let s := s.draw.modBst fun b => { b with eng := { b.eng.note .incomplete with st := .idle } }
  s.thirdIncomplete s.bst.eng

/-- The spare that R163 finds: a free one, or else the target of a running engine slice, which ends for it. A slice in Prepare whose own target is
retired ends as well, and the engine that stands in for it stays active. -/
def findSpare (s : State) (e : Nat) : Option Nat × State :=
  let s := if s.bst.eng.st = .prepare ∧ s.bst.eng.target = e then s.endSliceFor else s
  match s.pickSpare e with
  | some k => (some k, s)
  | none =>
    let t := s.bst.eng.target
    if (s.bst.eng.st = .prepare ∨ s.bst.eng.st = .test) ∧ t ≠ e then
      (some t, s.endSliceFor.modEng t fun x => { x with role := .spare, testing := false, untested := false })
    else (none, s)

/-- The transfers that an engine's requester holds are withdrawn (R190). -/
def withdrawEng (s : State) (e : Nat) : State := s.withdrawBy fun f => f.inp == hubCluster e && f.sub == e

/-- Retirement of an engine (R163, R164): fenced and masked, its open exchanges ended, its contexts given to the spare. -/
def retire (s : State) (e : Nat) : State :=
  let s := s.withdrawEng e
  let s := s.modEng e fun x => { x with role := .retired, testing := false, untested := false }
  let r := s.findSpare e
  let s := match r.1 with
    | some k => (r.2.modEng k fun x => { x with role := .active }).wakeEng k 1
    | none => r.2
  let cs := s.ctxsByAge e
  let moved := (cs.filter fun c => s.ctxHasOp c.2).length
  let s := cs.foldl (fun s c => (s.haltCtxOp c.2).moveCtx c.1 c.2 (match r.1 with | some k => k | none => s.anyEng e)) s
  let s := (((s.setF Fld.engLastRetire_valid 1).setF Fld.engLastRetire_engine e).setF Fld.engLastRetire_spare
    (match r.1 with | some k => k | none => 0x7F)).setF Fld.engLastRetire_moved moved
  let s := ((s.incF Fld.engCnt_retires).modJnl fun j => { j with migAt := s.ts }).addRepair e { kind := 3, unit := e }
  let s := s.raise 0x082 e
  if s.engs.any (fun x => x.2.role == .active) then s else s.raise 0x085 e

/-- The context that runs the operation of a JE, if there is one. -/
def ctxOf (s : State) (je : Nat) : Option (Nat × Ctx) := s.ctxs.find? fun c => c.2.je == some je

end State


namespace State

/-- A single-bit error in an engine's data store is repaired in place and counted (R162). -/
def dsRepair (s : State) (k syn : Nat) : State := ((s.exUse 4).incF Fld.engCnt_ds_corr).raise 0x081 k none none syn

end State

/-- DATA_STORE_CORRECTION (R162): on an engine that is active, or that still holds contexts or is being retired (R279). The word's syndrome is a
free value (log entry 4). -/
def execDataStoreCorrection (eng : Fin 104) (s : State) : Host.Outcome State Fault Refusal :=
  let s := s.start
  .next <|
    let r := (s.eng eng.val).role
    if s.works ∧ (r = .active ∨ r = .retired ∨ !(s.ctxsOf eng.val).isEmpty) then (s.dsRepair eng.val (s.free % 256)).draw else s

namespace State

/-- A LOCKED-RMW whose lock was dropped starts again from its LOCK-RD with a fresh age (R94). -/
def restartLocked (s : State) (je : Nat) (x : CcdX) : State :=
  let s := (s.modEntry je fun e => { e with progress := 0 }).modX je fun y => { y with old := none, newVal := none, last := [] }
  let s := s.modOp je fun o => { o with age := s.ts, cur := some (x.c.gaddr, x.c.gaddr + x.c.count - 1) }
  s.enqueueOp je .lockRd

/-- Whether the answer to a lock's release still ends or requeues the operation (R165). -/
def lockAnswers (s : State) (je : Nat) (o : Op) : Bool :=
  let a := s.daddr o.port o.daddr
  State.lockJe a == some je && a.lock == .releasing && a.relWhy != .ended

/-- Resumes a rebuilt operation at the device byte after PROGRESS (R164): the piece at hand is sent again whole, in its age's place, and the
ACK-ATTN that was queued for a WAIT-ATTN is queued again. -/
def resumeOp (s : State) (je : Nat) : State :=
  match s.op? je with
  | none => s
  | some o =>
    let e := s.entry je
    if o.done ∨ e.st = .squashed ∨ s.offEngine je then s else
    match o.x with
    | some x =>
      if x.c.op = 8 then (if x.ackOf = some e.serial then s.queueAckFor x.c.dn je else s)
      else if x.c.op = 5 then
        if s.lockAnswers je o then s
        else if x.relock then ((s.modX je fun y => { y with relock := false }).restartLocked je x).askData je
        else (s.enqueueOp je .lockRd).askData je
      else if o.cur.isSome then (s.enqueueOp je (if o.wr then .wr else .rd)).askData je
      else s.askData je
    | none => if o.cur.isSome then s.enqueueOp je (if o.wr then .wr else .rd) else s

/-- A context is rebuilt from its entry in the Journal memory and from its descriptor in the Landing pool, which cross the Hub (R164, R194). -/
def rebuildCross (s : State) (n je : Nat) : State :=
  match s.ctx? n with
  | none => s
  | some c =>
    let cls := s.ctxCls c
    let s := (s.addXfer (hubCluster c.eng) hubJournal cls c.eng 0 (.op je)).addXfer hubJournal (hubCluster c.eng) cls 0 24 (.op je)
    s.addXfer hubLanding (hubCluster c.eng) cls c.inst 32 (.op je)

/-- A context is rebuilt; ENG_MIG_TIME follows the last one (R164). -/
def rebuild (s : State) (n je : Nat) : State :=
  let s := ((s.modCtx n fun c => { c with moving := false }).rebuildCross n je).resumeOp je
  if s.ctxs.any (fun c => c.2.moving) then s
  else s.setF Fld.engMigTime_time (min 65535 ((s.ts - s.jnl.migAt) / 10))

/-- Whether a context on the target of an engine slice may move now (R288): it holds no open exchange and no lock. -/
def ctxQuiet (s : State) (c : Ctx) : Bool :=
  match c.je with
  | none => true
  | some je =>
    match s.op? je with
    | none => true
    | some o => !s.pieceOpen je o && !(State.lockJe (s.daddr o.port o.daddr) == some je && (s.daddr o.port o.daddr).lock != .none)

/-- Moves a context of the target of an engine slice to the engine that stands in for it (R288, step 1). -/
def standInCtx (s : State) (n : Nat) (c : Ctx) : State :=
  let k := s.bst.eng.standin
  let s := ((s.modCtx n fun c => { c with eng := k }).rekey n c k).ctxEngine c k
  match c.je with
  | some je => s.rebuildCross n je
  | none => s

end State

/-- CONTEXT_REBUILD (R164, R288): the operation of a retired engine, or of the target of an engine slice, is rebuilt on its new
engine. -/
def execContextRebuild (je : Fin 4194304) (s : State) : Host.Outcome State Fault Refusal :=
  let s := s.start
  .next <|
    if !s.works then s else
    match s.ctxOf je.val with
    | none => s
    | some (n, c) =>
      if c.moving then (if c.eng = 0x7F then s else s.rebuild n je.val)
      else if s.bst.eng.st = .prepare ∧ c.eng = s.bst.eng.target ∧ s.ctxQuiet c then s.standInCtx n c
      else s

/-! ### Issue cycles (R159) -/

/-- Adds one ENG cycle of a kind to a window of runs, newest first. -/
def winPush (k : Nat) : List (Nat × Nat) → List (Nat × Nat)
  | [] => [(k, 1)]
  | (j, n) :: w => if j = k then (j, n + 1) :: w else (k, 1) :: (j, n) :: w

/-- The newest `m` cycles of a window. -/
def winTrim (m : Nat) : List (Nat × Nat) → List (Nat × Nat)
  | [] => []
  | (k, n) :: w => if m = 0 then [] else if m ≤ n then [(k, m)] else (k, n) :: winTrim (m - n) w

/-- Cycles of the kinds that satisfy `p`. -/
def winCount (p : Nat → Bool) (w : List (Nat × Nat)) : Nat := (w.map fun x => if p x.1 then x.2 else 0).sum

namespace State

/-- Whether a context has an instruction to issue: it may fetch, something it waited for has come, or its operation has ended. -/
def ctxReady (s : State) (c : Ctx) : Bool :=
  !c.moving && (c.st == .ready || c.got.isSome || (c.st == .run && (match c.je with | some je => (s.entry je).st == .farDone | none => false)))


/-- The context that issues among some: the smallest issue pass of its instance, then the oldest operation. -/
def issueFirst (s : State) (e : Eng) (cs : List (Nat × Ctx)) : Option (Nat × Ctx) :=
  cs.foldl (fun m x => match m with
    | none => some x
    | some y =>
      let p := FMap.get 0 x.2.inst e.pass
      let q := FMap.get 0 y.2.inst e.pass
      if p < q ∨ (p = q ∧ s.ctxRank x.2 < s.ctxRank y.2) then some x else some y) none

/-- The issue passes of instances that newly have a ready context, raised to the smallest among the engine's ready instances. -/
def raiseIssue (e : Eng) (now : List Nat) : Eng :=
  match listMin ((now.filter fun i => e.readyInst.contains i).map fun i => FMap.get 0 i e.pass) with
  | none => { e with readyInst := now }
  | some m =>
    { e with
      readyInst := now
      pass := now.foldl (fun p i => if e.readyInst.contains i then p else FMap.set 0 i (max m (FMap.get 0 i p)) p) e.pass }

/-- One ENG cycle of an engine (R158, R159): the context that issues is chosen, and its instance charged. -/
def issueCycle (s : State) (k : Nat) : Option Nat × State :=
  let cs := (s.ctxsOf k).filter fun c => s.ctxReady c.2
  let e := raiseIssue (s.eng k) (cs.map (·.2.inst)).dedup
  let c0 := cs.filter fun c => s.ctxCls c.2 == 0
  let rest := cs.filter fun c => s.ctxCls c.2 != 0
  let capped := s.f Fld.engC0Cap_pct * winCount (· != 0) e.win < 100 * winCount (· == 1) e.win
  let pick := if c0.isEmpty ∨ (capped ∧ !rest.isEmpty) then s.issueFirst e rest else s.issueFirst e c0
  match pick with
  | none => (none, s.modEng k fun _ => { e with win := winTrim 16000 (winPush 0 e.win) })
  | some (m, c) =>
    let i := c.inst
    let up := 65536 / (s.inst i).weight
    let kind := if s.ctxCls c = 0 ∧ !rest.isEmpty then 1 else 2
    let s := s.modEng k fun _ => { e with
      win := winTrim 16000 (winPush kind e.win), pass := FMap.mod 0 i (· + up) e.pass }
    (some m, s.modInst i fun n => { n with dispPass := n.dispPass + up, cycles := (n.cycles + 1) % 2 ^ 64 })

end State

/-- ENGINE_IDLE (R304): an active engine without a context powers down in RUN and SERVICE, unless ENG_IDLE is 0. -/
def execEngineIdle (eng : Fin 104) (s : State) : Host.Outcome State Fault Refusal :=
  let s := s.start
  .next <|
    if (s.mode = .run ∨ s.mode = .service) ∧ s.f Fld.pwrGate_eng_idle ≠ 0 ∧ (s.eng eng.val).role = .active ∧ (s.ctxsOf eng.val).isEmpty then
      s.queueDown (.eng eng.val)
    else s

end Sys2Proof.Machine
end

