-- ==== Sys2Proof/Machine/Watch.lean ====
section
/-! DEFINITION. The deadlock watchdog (R214, R215), memory and flit errors (R175, R220, R274), and the parity errors that are fatal. -/

namespace Sys2Proof.Machine

namespace State

/-! ### The watchdog -/

/-- A holder that is no Journal entry. -/
def noEntry : Nat := 4194304

/-- A holder as a number. -/
def holder (j : Option Nat) : Nat := match j with | some k => k | none => noEntry

/-- Who holds a device address that is not free for the bridge: the open exchange on either side, or the lock. -/
def addrHolders (a : Daddr) : List Nat :=
  match a.opened, a.up with
  | some x, _ => [holder x.req.je]
  | none, some u => [holder u.je]
  | none, none => if a.lock = .none then [noEntry] else [holder (State.lockJe a)]

/-- Who holds the exchange slots of a port. -/
def slotHolders (s : State) (p : Nat) : List Nat :=
  (s.portDaddrs p).flatMap fun x => if x.2.st == .cmd || x.2.st == .up then addrHolders x.2 else []

/-- Who holds the grains that a fetch of a pool could take: of its floor and of the shared remainder. -/
def grainHolders (s : State) (pool : Nat) : List Nat :=
  let mine (h : Hold) : Bool := (h.pool == pool && 0 < h.fl) || 0 < h.sh
  (s.ops.filter fun p => mine p.2.hold || mine p.2.area).map (·.1) ++ (if s.ctxs.any fun c => mine c.2.hold then [noEntry] else [])

/-- What a queued operation waits for: its device address (1,000 + address), or the exchange slots of its port (100 + port). It waits for none
of the listed resources while it could open, waits for a back-off hint, or stands behind a held lock (R214). -/
def queueWait (s : State) (je : Nat) (o : Op) : Option (Nat × List Nat) :=
  let p := o.port
  let d := o.daddr
  let a := s.daddr p d
  let q := (s.port p).queue.filter fun y => y.1 == d
  if !q.any (fun y => y.2.je == some je) then none
  else if a.st ≠ .idle ∨ a.lock ≠ .none ∨ 4 ≤ a.losses then
    (if a.lock = .held then none else some (1000 + p * 2048 + d, addrHolders a))
  else match q.head? with
    | none => none
    | some y =>
      if y.2.je ≠ some je then some (1000 + p * 2048 + d, [holder y.2.je])
      else if s.ts < y.2.notBefore then none
      else if 60 ≤ s.chanOpen p ∨ 64 ≤ s.chanOpen p + s.upOpen p then some (100 + p, s.slotHolders p)
      else none

/-- Whether an operation waits for grains of its K floor: for the host data of a WRITE, CONTROL or LOCKED-RMW, or for the device data of the piece
at hand of a READ or SENSE (R208). No other resource of Landing, nor a Journal entry, is waited for by an entry: requests wait for those in
their link receive buffer, and contexts before they have an entry. -/
def wantsGrains (o : Op) : Bool :=
  match o.x with
  | some x =>
    !o.stop && !o.done && ((decide (x.hasked < dataWant x) && !x.fetching) || ((x.c.op == 1 || x.c.op == 4) && o.cur.isSome && !o.took))
  | none => false

/-- The Hub output (300 + output) at which a transfer of an operation has a flit, and no destination space for its class is free; the flits there
hold that space. -/
def hubWait (s : State) (je : Nat) : Option (Nat × List Nat) :=
  (s.hub.xfers.find? fun x => x.own == .op je && x.holds && (hubSpace x.out (FMap.get {} x.out s.hub.outs) x.cls).isNone).map fun x =>
    (300 + x.out, (FMap.get {} x.out s.hub.outs).buf.map fun f => match f.own with | .op j => j | _ => noEntry)

/-- Whether a posted packet at a link's egress lacks its posted credits. -/
def lacksCredits (k : Link) (t : TxPkt) : Bool := packetPosted t.pkt && !haveCredits k.txCred t.pkt

/-- The posted credits of a link and VC (400 + 4 × link + VC) that a packet of an operation waits for; the far end of the link holds them, and
no entry. -/
def creditWait (s : State) (je : Nat) : Option (Nat × List Nat) :=
  [0, 1].findSome? fun l =>
    let k := s.link l
    (k.egress.find? fun t => t.own == .op je && packetPosted t.pkt
      && k.egress.any fun u => packetVc u.pkt == packetVc t.pkt && lacksCredits k u).map fun t => (400 + 4 * l + packetVc t.pkt, [])

/-- The resource without a free unit for which an entry waits, and who holds its units (R214). -/
def waitOn (s : State) (je : Nat) : Option (Nat × List Nat) :=
  match s.op? je with
  | none => none
  | some o =>
    let pool := 3 * (s.entry je).cls + 2
    if wantsGrains o ∧ s.sharedFree = 0 ∧ s.floorCap pool ≤ s.floorUsed pool then some (pool, s.grainHolders pool)
    else ((s.hubWait je).orElse fun _ => s.creditWait je).orElse fun _ => s.queueWait je o

/-- The no-progress limit in ticks of GLB_TS; values below 10 µs act as 10. -/
def wdLimit (s : State) : Nat := 100 * max 10 (s.f Fld.jnlWdCfg_limit)

/-- Whether an entry is stalled (R214), in a resource in which the watchdog may select again (R215). -/
def stalled (s : State) (je : Nat) (e : JEntry) : Bool :=
  (e.st == .admitted || e.st == .issued) && s.wdLimit ≤ s.ts - e.since &&
  match s.waitOn je with
  | some (r, _) => (match FMap.find r s.jnl.wdPast with | some t => s.wdLimit ≤ s.ts - t | none => true)
  | none => false

/-- The entries of a set that stay when each needs every holder in the set. -/
def shrink (s : State) : Nat → List Nat → List Nat
  | 0, js => js
  | k + 1, js =>
    shrink s k (js.filter fun j => match s.waitOn j with | some (_, hs) => hs.all fun h => js.contains h | none => false)

/-- The largest blocked set (R214). -/
def blockedSet (s : State) : List Nat :=
  let js := (s.jnl.entries.filter fun p => s.stalled p.1 p.2).map (·.1)
  s.shrink js.length js

end State

/-- WATCHDOG_TICK (R214): the stalled entries are examined for a blocked set. -/
def execWatchdogTick (s : State) : Host.Outcome State Fault Refusal :=
  let s := s.start
  .next <|
    if !s.works ∨ !s.fb Fld.jnlWdCfg_en then s else
    let b := s.blockedSet
    let s := s.modJnl fun j => { j with blocked := b }
    if b.isEmpty then s else s.setF Fld.jnlWdStat_set_size (min 65535 b.length)

namespace State

/-- The entry of a set that was admitted last. -/
def youngest (s : State) (js : List Nat) : Option Nat :=
  js.foldl (fun m j => match m with
    | none => some j
    | some k => if (s.entry k).serial < (s.entry j).serial then some j else some k) none

/-- Ends a device's operation with an abort STATUS that closes its exchange (R215), in the place of a good one that waits (R217). Past its posted
point it owes a notice; where its exchange has closed it ends once no request of it is outstanding (R378). -/
def cutUp (s : State) (je : Nat) (o : Op) : State :=
  let isOpen : Bool := match (s.daddr o.sport o.sdaddr).up with | some u => u.je == some je | none => false
  let st : StatusTx := { daddr := o.sdaddr, frame := statusFrame o.sdaddr (bridgeStatus true true 1 (match o.frame with
    | some f => burstBytes f | none => 0) s.ts), je := some je, closesUp := true }
  let ended (s : State) : State := (s.modEntry je fun e => { e with st := .completed }).modOp je fun o => { o with done := true, silent := true }
  if (s.entry je).pst then s.oweNotice je
  else if s.statusOf o.sport je then (ended s).replaceStatus o.sport je st
  else if isOpen then (ended s).queueStatus o.sport st
  else if o.inflight then s.modOp je fun o => { o with silent := true }
  else (s.setSt je .error).freeJe je

/-- Ends an operation at once, whatever it has open (R215): its exchange is aborted with a REASON, its lock released, its grains returned. -/
def cutOff (s : State) (je : Nat) (f : Fail) (detail : Nat) : State :=
  match s.op? je with
  | none => s
  | some o =>
    let s := (s.withdraw [je]).fail je f detail (s.failAt o) (bridgeStatus true true 1 0 s.ts)
    let s := (s.stopExchange je 1 Fld.gptLockCnt_lock_to).dequeueOp je o.port
    let s := s.modOp je fun o => { o with hold := {}, area := {}, stop := true, cur := none }
    if (s.entry je).kind < 5 then s.farEnd je else s.cutUp je o

end State

/-- WATCHDOG_SELECT (R215): the youngest entry of the blocked set that was found ends with TO. -/
def execWatchdogSelect (s : State) : Host.Outcome State Fault Refusal :=
  let s := s.start
  .next <|
    if !s.works ∨ !s.fb Fld.jnlWdCfg_en then s else
    match s.youngest (s.jnl.blocked.filter fun j => s.stalled j (s.entry j)) with
    | none => s.modJnl fun j => { j with blocked := [] }
    | some je =>
      let i := (s.entry je).inst
      let rs := s.jnl.blocked.filterMap fun j => (s.waitOn j).map (·.1)
      let s := s.modJnl fun j => { j with blocked := [], wdPast := rs.foldl (fun m r => FMap.put r s.ts m) j.wdPast }
      let s := ((s.incF Fld.jnlWdStat_fired).setF Fld.jnlWdLast_valid 1).setF Fld.jnlWdLast_je je
      (s.cutOff je .to 6).raise 0x0C3 0 (some i) (some je)

namespace State

/-! ### Memory errors -/

/-- The physical sub-bank that serves an index of the Journal or the Landing pool. -/
def subOf (s : State) (r : SubRole) (i : Nat) : Nat :=
  match s.bst.subs.find? fun x => x.2.role == r && x.2.index == i with
  | some x => x.1
  | none => 0

/-- The physical sub-bank of a Journal word (R166). -/
def jnlSub (s : State) (je word : Nat) : Nat := s.subOf .journal (256 * word + je / 16384)

/-- A sub-bank. -/
def sub (s : State) (n : Nat) : Sub := FMap.get {} n s.bst.subs

/-- Changes a sub-bank. -/
def modSub (s : State) (n : Nat) (g : Sub → Sub) : State := s.modBst fun b => { b with subs := FMap.mod {} n g b.subs }

/-- A corrected error of a sub-bank counts in its cycle (R286). -/
def subCorrected (s : State) (n : Nat) : State := s.modSub n fun x => { x with ce := x.ce + 1 }

/-- A FREE entry with an uncorrectable word is withheld (R175); a reservation on it takes another entry, if there is one. -/
def withholdJe (s : State) (je word : Nat) : State :=
  let s := s.modJnl fun j => { j with withheld := j.withheld ++ [(je, word)], uncorr := j.uncorr ++ [(je, word)] }
  match FMap.find je s.jnl.reserved with
  | none => s
  | some i =>
    match s.pickJe with
    | none => s
    | some k =>
      let s := s.draw.modJnl fun j => { j with reserved := FMap.put k i (FMap.del je j.reserved) }
      { s with ctxs := s.ctxs.map fun c => (c.1, if c.2.je = some je then { c.2 with je := some k } else c.2) }

end State

namespace State

/-- A Journal word is read and found wrong (R175, sources 0x0C0, 0x0C1, 0x0C2). -/
def jnlWordError (s : State) (j word syn : Nat) (e : WordErr) : State :=
  let s := s.exUse 0
  let u := s.jnlSub j word
  match e with
  | .corrected => ((s.incF Fld.jnlEcc_corr).subCorrected u).raise 0x0C0 u none none syn
  | .uncorrectable =>
    if (FMap.find j s.jnl.entries).isSome then
      (s.modJnl fun q => { q with uncorr := q.uncorr ++ [(j, word)] }).raise 0x0C2 u (some (s.entry j).inst) (some j) syn
    else ((s.incF Fld.jnlEcc_uncorr_free).withholdJe j word).raise 0x0C1 u none none syn

/-- The check of a Journal word that is read; an exercise may fail it, with a syndrome that is open. -/
def jnlCheck (s : State) (je word : Nat) : State :=
  if s.exOn 0 then (s.jnlWordError je word (s.free % 256) (s.exKind 0 .corrected)).draw else s

end State

/-- JOURNAL_WORD_ERROR (R175, sources 0x0C0, 0x0C1, 0x0C2). -/
def execJournalWordError (je : Fin 4194304) (word : Fin 3) (syn : Byte) (e : WordErr) (s : State) : Host.Outcome State Fault Refusal :=
  let s := s.start
  .next <| if s.mode = .reset ∨ s.jwMasked then s else s.jnlWordError je.val word.val syn.toNat (s.exKind 0 e)

namespace State

/-- The record of an uncorrectable Landing error (Table 9.5). -/
def psRecord (s : State) : List Byte := bridgeStatus true false 9 0 s.ts

/-- An operation whose data or context holds an uncorrectable word ends (R220). A completion not yet handed to Thaty egress takes the error; an
UP-WR whose data has not come has none to lose. -/
def poisonOp (s : State) (je : Nat) : State :=
  match s.op? je with
  | none => s
  | some o =>
    let e := s.entry je
    if o.done then (if e.st = .farDone ∧ e.kind < 4 then s.fail je .ps 0 (s.failAt o) s.psRecord else s)
    else if 5 ≤ e.kind ∧ o.wr ∧ e.st = .admitted ∧ o.data.isEmpty then s
    else if e.kind = 5 ∨ e.kind = 6 then
      (if o.inflight then s.fail je .ps 0 (s.failAt o) s.psRecord else (s.withdraw [je]).upEnd je 5 [])
    else
      let s := (s.fail je .ps 0 (s.failAt o) s.psRecord).modOp je fun o => { o with stop := true }
      if s.pieceOpen je o then s
      else (((s.withdraw [je]).dequeueOp je o.port).modOp je fun o => { o with cur := none }).farEnd je

/-- The charged instance of an operation. -/
def instOf (s : State) (je : Nat) : Option Nat := if (FMap.find je s.jnl.entries).isSome then some (s.entry je).inst else none

/-- A Landing word of a sub-bank is read and found wrong (R220): in the data or context of an operation, or in free grains. -/
def landWordError (s : State) (u : Nat) (je : Option Nat) (syn : Nat) (e : WordErr) : State :=
  let s := s.exUse 1
  match e with
  | .corrected => ((s.incF Fld.jnlLndEcc_corr).subCorrected u).raise 0x0E0 u none none syn
  | .uncorrectable =>
    let s := s.incF Fld.jnlLndEcc_uncorr
    match je with
    | some j =>
      if (s.op? j).isSome then
        let i := s.instOf j
        (if s.works then s.poisonOp j else s).raise 0x0E1 u i (some j) syn
      else s.raise 0x0E2 u none none syn
    | none => ({ s with landOut := s.landOut ++ [u] } : State).raise 0x0E2 u none none syn

/-- A Hub flit is found wrong at an output (R274): an uncorrectable one ends the operation of its transfer as a Landing error does. -/
def flitError (s : State) (o : Nat) (je : Option Nat) (syn : Nat) (e : WordErr) : State :=
  let s := s.exUse 3
  match e with
  | .corrected => s.raise 0x160 o none none syn
  | .uncorrectable =>
    match je with
    | some j =>
      let i := s.instOf j
      (if s.works then s.poisonOp j else s).raise 0x161 o i (if (s.op? j).isSome then some j else none) syn
    | none => s.raise 0x161 o none none syn

/-- The check of a flit that crosses; an exercise may fail it, with a syndrome that is open. -/
def flitCheck (s : State) (o : Nat) (f : Flit) : State :=
  if s.exOn 3 then
    (s.flitError o (match f.own with | .op j => some j | _ => none) (s.free % 256) (s.exKind 3 .corrected)).draw
  else s

/-- The checks of the flits that cross in a cycle: those granted in the cycle before. -/
def flitChecks (before s : State) : State :=
  (List.range 24).foldl (fun s o => match (FMap.get {} o before.hub.outs).grant with | some f => s.flitCheck o f | none => s) s

end State

/-- HUB_ROUND (R182, R188, R192): one CORE cycle of the Hub. No output grants in RESET, in HALT (R196), or while DOZE gates the Hub. -/
def execHubRound (s : State) : Host.Outcome State Fault Refusal :=
  let s := s.start
  .next <|
    if s.mode = .reset ∨ s.mode = .halt ∨ s.mode = .doze then s
    else if s.exOn 3 then s.flitChecks s.hubCycle else s.hubCycle

/-- LANDING_WORD_ERROR (R220, sources 0x0E0, 0x0E1, 0x0E2): corrected, in an operation's data or context, or in free grains. -/
def execLandingWordError (sub : Fin 1056) (je : Option (Fin 4194304)) (syn : Byte) (e : WordErr) (s : State) :
    Host.Outcome State Fault Refusal :=
  let s := s.start
  .next <|
    if s.mode = .reset then s else s.landWordError sub.val (je.map (·.val)) syn.toNat (s.exKind 1 e)

/-- HUB_FLIT_ERROR (R274, sources 0x160 and 0x161). -/
def execHubFlitError (out : Fin 24) (je : Option (Fin 4194304)) (syn : Byte) (e : WordErr) (s : State) :
    Host.Outcome State Fault Refusal :=
  let s := s.start
  .next <|
    if s.mode = .reset then s else s.flitError out.val (je.map (·.val)) syn.toNat (s.exKind 3 e)

/-- TABLE_WORD_ERROR (R274, sources 0x062 and 0x063): an uncorrectable entry is as one that is not valid until it is rewritten. -/
def execTableWordError (tbl : Tbl) (idx : BitVec 18) (syn : Byte) (e : WordErr) (s : State) : Host.Outcome State Fault Refusal :=
  let s := s.start
  .next <|
    if s.mode = .reset then s else s.tblWordError tbl idx.toNat syn.toNat (s.exKind 2 e)

/-- CONFIG_REGISTER_PARITY_ERROR (R274, source 0x001). -/
def execConfigRegisterParityError (s : State) : Host.Outcome State Fault Refusal := .next ((s.start.exUse 11).raise 0x001)

/-- ARBITER_PARITY_ERROR (R274, source 0x162) in the arbiter of a Hub output. -/
def execArbiterParityError (out : Fin 24) (s : State) : Host.Outcome State Fault Refusal := .next (s.start.raise 0x162 out.val)

/-- FAULT_COLLECTOR_PARITY_ERROR (R274, source 0x1E0). -/
def execFaultCollectorParityError (s : State) : Host.Outcome State Fault Refusal := .next (s.start.raise 0x1E0)

end Sys2Proof.Machine
end

