-- ==== Sys2Proof/Machine/Cmp.lean ====
section
/-! DEFINITION. Inline compression and encryption (chapter 10): chunks (R222 to R228, R234), unit faults (R236), key loads and
key-encryption keys (R229 to R231). -/

namespace Sys2Proof.Machine

namespace State

/-- Steps a 64-bit counter by `n`. -/
def addPair (s : State) (lo hi : Fld) (n : Nat) : State := s.setPair lo hi ((s.pair lo hi + n) % 2 ^ 64)

/-! ### A WRITE (R222 to R224) -/

/-- After the last chunk of a compressed stream the operation is cut anew for the bytes there are; a piece that has its data stays. -/
def recut (s : State) (je : Nat) : State :=
  match s.op? je with
  | none => s
  | some o =>
    match o.x with
    | none => s
    | some x =>
      let n := x.s1.length
      if x.c.gcount ≤ n then s else
      let s := s.modOp je fun o => { o with cut := spanSpec x.c.gaddr n o.cut.u }
      match o.cur with
      | none => s
      | some (a, e) =>
        if pieceReady o a e then s
        else ((s.dequeueOp je o.port).modOp je fun o => { o with cur := none, pos := a - o.cut.base }).goOn je

/-- One segment of a WRITE is compressed (R223): the block's bits are packed, and the last block is padded to a byte and, with ENC, to a
data unit (R224). The stream is cut off at GCOUNT bytes, and ends there once it has more. -/
def compress (s : State) (je : Nat) (x : CcdX) : Option State :=
  let lo := 16384 * x.segs
  let n := min 16384 (x.c.count - lo)
  if x.end1 ∨ n = 0 ∨ x.s0.length < lo + n then none else
  let fin := decide (lo + n = x.c.count)
  let hist := (x.s0.take lo).drop (lo - 32768)
  let r := deflateSeg (s.f Fld.cmpFuCfg_strategy) (8 * x.s1.length + x.bitsLeft.length) fin hist ((x.s0.drop lo).take n)
  let bs := x.bitsLeft ++ r.1
  let bs := if fin then bs ++ List.replicate ((8 - bs.length % 8) % 8) false else bs
  let pb := packBits (bs.length / 8) bs
  let body := x.s1 ++ pb.1
  let du := duBytes x.c
  let out := if fin ∧ x.c.enc then body ++ List.replicate ((du - body.length % du) % du) 0 else body
  let more := decide (x.c.gcount < out.length) || (!fin && decide (x.c.gcount ≤ out.length))
  let s := s.addPair Fld.cmpFuBytesLo_bytes Fld.cmpFuBytesHi_bytes n
  let s := if r.2 then s.incF Fld.cmpXformCnt_stored else s
  let s := s.modX je fun x => { x with
    segs := x.segs + 1, segEnds := x.segEnds ++ [body.length + if pb.2.isEmpty then 0 else 1]
    bitsLeft := pb.2, end1 := fin || more, excess := more, s1 := out.take x.c.gcount }
  let s := s.flowWrite je
  some (if fin then s.recut je else s)

/-- One data unit of a WRITE is encrypted (R227). -/
def encrypt (s : State) (je : Nat) (x : CcdX) : Option State :=
  let du := duBytes x.c
  let k := x.s2.length / du
  if x.s1.length < du * (k + 1) then none else
  let out := x.s2 ++ xts true (s.slot x.c.keyslot).key (x.c.lbn + k) ((x.s1.drop (du * k)).take du)
  let s := s.addPair Fld.cmpCuBytesLo_bytes Fld.cmpCuBytesHi_bytes du
  let s := s.modX je fun x => { x with s2 := out, keyUse := !(x.end1 && out.length == x.s1.length) }
  some (s.flowWrite je)

/-! ### A READ (R225, R226, R228) -/

/-- A READ whose pieces are over ends once its transforms have no work left, or at an error. -/
def finishRead (s : State) (je : Nat) : State :=
  match s.op? je with
  | some o =>
    match o.x with
    | some x => if !o.done && o.cur.isNone && o.stop && (!chunksLeft x || (s.entry je).err != 0) then s.farEnd je else s
    | none => s
  | none => s

/-- No further piece of a READ opens; one that is open finishes. -/
def stopRead (s : State) (je : Nat) : State :=
  match s.op? je with
  | none => s
  | some o =>
    let s := s.modOp je fun o => { o with stop := true }
    if o.cur.isNone ∨ s.pieceOpen je o then s else (s.dequeueOp je o.port).modOp je fun o => { o with cur := none }

/-- One data unit of a READ is decrypted. -/
def decrypt (s : State) (je : Nat) (x : CcdX) : Option State :=
  let du := duBytes x.c
  let k := x.s1.length / du
  if x.end2 ∨ x.s0.length < du * (k + 1) then none else
  let out := x.s1 ++ xts false (s.slot x.c.keyslot).key (x.c.lbn + k) ((x.s0.drop (du * k)).take du)
  let s := s.addPair Fld.cmpCuBytesLo_bytes Fld.cmpCuBytesHi_bytes du
  let s := s.modX je fun x => { x with
    s1 := out, s2 := if x.c.cmp then x.s2 else out, keyUse := !decide (devLen x.c ≤ out.length) }
  some ((s.pushHost je).finishRead je)

/-- The final block of a READ's stream ends before byte `n + 1` of it: the length is incorrect where GCOUNT is more (R137). -/
def streamEnds (s : State) (je n : Nat) : State := s.modX je fun x => { x with endShort := x.endShort || decide (n < x.c.gcount) }

/-- The end of a READ's stream, with the DETAIL of Table 10.1 for an error. -/
def endStream (s : State) (je : Nat) (code : Nat) (excess : Bool) : State :=
  let s := s.modX je fun x => { x with end2 := true, excess := excess }
  let s := if code = 0 then s
    else ((s.modEntry je fun e => { e with err := 9 }).modX je fun x => { x with detail := code }).incF Fld.cmpXformCnt_data_err
  (s.stopRead je).finishRead je

/-- One chunk of a READ is decompressed (R225, R234): at most 4,096 more bytes of the stream and 16,384 bytes of output. -/
def decompress (s : State) (je : Nat) (o : Op) (x : CcdX) : Option State :=
  let n := min x.s1.length (x.segs + 4096)
  let last := o.cur.isNone && o.stop && allDecrypted x
  if x.end2 ∨ (n = x.segs ∧ !last) then none else
  let r := inflate (x.s1.take n)
  let all := r.out
  let out := all.take (min x.c.count (x.s2.length + 16384))
  let s := s.addPair Fld.cmpFuBytesLo_bytes Fld.cmpFuBytesHi_bytes (out.length - x.s2.length)
  let left := decide (out.length < min x.c.count all.length)
  let s := (s.modX je fun x => { x with s2 := out, segs := if left then x.segs else n }).pushHost je
  some <|
    if (s.entry je).err ≠ 0 then (s.modX je fun x => { x with end2 := true }).finishRead je
    else if left then s
    else if x.c.count < all.length then s.endStream je 0 true
    else match r with
      | .err code _ => s.endStream je code false
      | .done _ rest => (s.streamEnds je (ceilDiv (8 * n - rest.length) 8)).endStream je 0 false
      | .more _ =>
        if last ∧ n = x.s1.length then s.endStream je (if x.c.gcount ≤ x.s1.length then 6 else 0) false
        else s

/-! ### Chunks and unit faults -/


/-- The result of a chunk on a unit. -/
def chunk (s : State) (je u : Nat) (o : Op) (x : CcdX) : Option State :=
  if u < 8 then
    (if !x.c.cmp then none else if x.c.op = 2 then s.compress je x else if x.c.op = 1 then s.decompress je o x else none)
  else
    (if !x.c.enc then none else if x.c.op = 2 then s.encrypt je x else if x.c.op = 1 then s.decrypt je x else none)

/-- Notes the units on which the chunk of a group failed. -/
def setBad (s : State) (je u : Nat) (us : List Nat) : State := s.modX je fun x => if u < 8 then { x with bad := us } else { x with cbad := us }

/-- A unit's chunk is over, and the unit falls free. -/
def unitFree (s : State) (u : Nat) : State := { s with cmp := { s.cmp with busy := FMap.del u s.cmp.busy } }

/-- A unit fails a check: the third chunk within one second retires it, and the last unit of a kind is fatal (R236). -/
def unitFails (s : State) (u : Nat) : State :=
  let recent := s.cmp.fails.filter fun p => s.ts < p.2 + 100000000
  let n := (recent.filter fun p => p.1 == u).length
  let s : State := { s with cmp := { s.cmp with fails := recent ++ [(u, s.ts)] } }
  if n < 2 then s else
  let s : State := { s with cmp := { s.cmp with retired := s.cmp.retired ++ [u] } }
  let s := (s.incF Fld.cmpUnitErr_retired).raise 0x102 u
  if (List.range 8).all fun k => s.unitGone (u / 8 * 8 + k) then s.raise 0x103 u else s

end State

/-- The checker group of a transform unit (Table 13.6). -/
def unitGroup (u : Nat) : Nat := if u < 8 then 7 else 8

namespace State

/-- A check of a unit fails during a chunk of a CCD (R236): the chunk runs again on another unit, and the third failed run ends the CCD with
POISONED. A chunk that fails again on the unit is one chunk of the three. -/
def chunkFails (s : State) (j u : Nat) (x : CcdX) : State :=
  let us := badOf x u ++ [u]
  let s := (s.exUse (unitGroup u)).setBad j u (if us.length < 3 then us else [])
  let s := if us.length < 3 then s
    else ((s.poisonOp j).incF Fld.cmpUnitErr_failed).raise 0x101 u (some (s.entry j).inst) (some j)
  if (badOf x u).contains u then s else s.unitFails u

/-- A chunk of a CCD ends on a unit without a failed check, and its output crosses to the Landing pool. -/
def chunkPasses (s : State) (j u : Nat) (o : Op) (x : CcdX) : State :=
  let s := if (badOf x u).isEmpty then s
    else ((s.setBad j u []).incF Fld.cmpUnitErr_rerun).raise 0x100 u (some (s.entry j).inst) (some j)
  let was (x : CcdX) : Nat := x.s1.length + x.s2.length
  match s.chunk j u o x with
  | some t =>
    let n := match (t.op? j).bind (·.x) with | some y => was y - was x | none => 0
    let e := s.entry j
    t.addBlock (hubUnit u) hubLanding e.cls u n (.op j)
  | none => s

/-- The chunk of a CCD that a unit runs ends, with a failed check or without; the unit falls free and serves the next. The chunk of an operation
that has ended is discarded (R235). -/
def endChunk (s : State) (j u : Nat) (failed : Bool) : State :=
  match FMap.find u s.cmp.busy with
  | none => s
  | some (k, n) =>
    if k ≠ j then s else
    let s := s.unitFree u
    match s.op? j with
    | none => s.serve
    | some o =>
      match o.x with
      | none => s.serve
      | some x =>
        (if (s.entry j).serial ≠ n ∨ o.done ∨ (s.entry j).err ≠ 0 then s
         else if failed ∨ s.exOn (unitGroup u) then s.chunkFails j u x
         else s.chunkPasses j u o x).serve

end State

/-- CHUNK_DONE (R223 to R228, R234, R236): a chunk of a CCD ends on a unit (FUn: n, CUn: 8 + n); under an exercise of the unit's checkers
its check fails (R284). -/
def execChunkDone (je : Fin 4194304) (unit : Fin 16) (s : State) : Host.Outcome State Fault Refusal :=
  let s := s.start
  .next <| if s.works then s.endChunk je.val unit.val false else s

/-- CHUNK_CHECK_FAIL (R236): a check of a unit fails during a chunk. -/
def execChunkCheckFail (je : Fin 4194304) (unit : Fin 16) (s : State) : Host.Outcome State Fault Refusal :=
  let s := s.start
  .next <| if s.works then s.endChunk je.val unit.val true else s

namespace State

/-! ### Keys (R229 to R231) -/

/-- A running key load of a mailbox. -/
def mbox (s : State) (i : Nat) : Option Mbox := FMap.find i s.cmp.mboxes

/-- A key command of mailbox `i` ends with a RESULT, and a TSTAT for HOST_ERR. -/
def keyResult (s : State) (i r tstat : Nat) : State :=
  let s := (s.setF Fld.cmpKldStat_busy 0 i).setF Fld.cmpKldStat_result r i
  let s := if r = 6 then s.setF Fld.cmpKldStat_tstat tstat i else s
  { s with cmp := { s.cmp with mboxes := FMap.del i s.cmp.mboxes } }

/-- A failed load leaves its slot as it was. -/
def keyFails (s : State) (i r tstat : Nat) : State :=
  match s.mbox i with
  | none => s
  | some m =>
    (s.modSlot m.slot fun k => if k.st = .loading then { k with st := if k.key.isEmpty then .empty else .valid } else k).keyResult i r tstat

/-- Step 5 of Table 10.2: the MRD of a key load, which holds a grain of the C3 K floor until its completion has been used (R209); it waits
while no tag or no grain can be had (R55). -/
def keyIssue (s : State) (i : Nat) : State :=
  let a := 128 * s.f Fld.cmpKldAddrLo_addr_lo i + 2 ^ 32 * s.f Fld.cmpKldAddrHi_addr_hi i
  match s.takeHold i 11 1 with
  | none => s
  | some h =>
    let r := s.instRead i 3 a 72 (.key i)
    match r.1 with
    | .sent => { r.2 with cmp := { r.2.cmp with mboxes := FMap.upd i (fun m => { m with hold := h }) r.2.cmp.mboxes } }
    | .refused => r.2.keyFails i 6 2
    | .full => s

/-- Steps 2 to 5 of Table 10.2 for LOAD (`load`), or 2 to 4 for CLEAR, by an identity. -/
def keyGo (s : State) (i k ident : Nat) (load : Bool) : State :=
  if !s.owns i 2 k then s.keyResult i 3 0
  else if s.slotUsers k ≠ 0 ∨ (s.slot k).st = .loading then s.keyResult i 4 0
  else if !load then (s.modSlot k fun _ => {}).keyResult i 1 0
  else match FMap.find i s.cmp.keks with
    | none => s.keyResult i 5 0
    | some kek =>
      let s := s.modSlot k fun x => { x with st := .loading }
      let s : State := { s with cmp := { s.cmp with mboxes := FMap.put i { slot := k, ident := ident, kek := kek } s.cmp.mboxes } }
      s.keyIssue i

/-- A key command that starts: step 1 of Table 10.2, and the steps after it where G_KEY lets it pass. -/
def keyCommand (s : State) (i k ident : Nat) (load : Bool) : State :=
  if s.fb Fld.cmpKldStat_busy i then s.setF Fld.cmpKldStat_overrun 1 i else
  let s := (s.setF Fld.cmpKldStat_slot k i).setF Fld.cmpKldStat_busy 1 i
  let g := s.gateCheck gKey ident (128 * k) (128 * k + 127) false true
  if g.1 then g.2.keyGo i k ident load else g.2.keyResult i 2 0

/-- Steps 6 to 8 of Table 10.2; the gate is asked again at step 8 (R251). -/
def keyStep (s : State) (i : Nat) (m : Mbox) (st : Nat) (bs : List Byte) : State :=
  if st ≠ 0 then s.keyFails i 6 st
  else match keyUnwrap m.kek bs with
    | none => s.keyFails i 7 0
    | some key =>
      if key.take 32 = key.drop 32 then s.keyFails i 8 0
      else
        let g := s.gateCheck gKey m.ident (128 * m.slot) (128 * m.slot + 127) false true
        if g.1 then (g.2.modSlot m.slot fun _ => { st := .valid, key := key }).keyResult i 1 0
        else g.2.keyFails i 2 0

/-- A KEK command (R230): 1 sets it from the staged words, 2 clears it; every command clears the staging. -/
def kekCommand (s : State) (op i : Nat) : State :=
  if op ≠ 1 ∧ op ≠ 2 then s else
  let whole := (List.range 8).all fun k => (FMap.find k s.cmp.staged).isSome
  let bs := (List.range 8).flatMap fun k => natBytes 4 (FMap.get 0 k s.cmp.staged : Word).toNat
  let live := (s.inst i).st != .free
  let ok := live && (op == 2 || whole)
  let keks := if !ok then s.cmp.keks else if op = 1 then FMap.put i bs s.cmp.keks else FMap.del i s.cmp.keks
  let s : State := { s with cmp := { s.cmp with keks := keks, staged := [] } }
  (s.setF Fld.cmpKekStat_inst i).setF Fld.cmpKekStat_result (if !ok then 3 else op)

end State

/-- Whether the MRD of a key load is out. -/
def State.keyAsked (s : State) (i : Nat) : Bool :=
  [0, 1].any fun l => (s.link l).outst.any fun r => r.purpose == .key i

/-- KEY_UNWRAP (R231, steps 6 to 8): the wrapped key has come. A load whose MRD found no tag issues it. -/
def execKeyUnwrap (inst : Fin 256) (s : State) : Host.Outcome State Fault Refusal :=
  let s := s.start
  .next <|
    if !s.works then s else
    match s.mbox inst.val with
    | none => s
    | some m =>
      match m.got with
      | none => if s.keyAsked inst.val then s else s.keyIssue inst.val
      | some (st, bs) => s.keyStep inst.val m st bs

end Sys2Proof.Machine
end

