-- ==== Sys2Proof/Machine/Mgt.lean ====
section
/-! DEFINITION. Bridge instances (chapter 12): pools, the management queue (R257 to R262), resets and their completion (R263 to R268). -/

namespace Sys2Proof.Machine

/-- Quotas and allowances of an instance, in the order of Table 12.1. -/
structure Quota where
  jq : Nat
  lq : Nat
  weight : Nat
  win : Nat
  dn : Nat
  key : Nat
  rate : Nat
  depth : Nat
  deriving DecidableEq, Repr

/-- The quotas in 24 bytes laid out as bytes 8 to 31 of a CREATE (Table 12.3). -/
def quotaOf (b : List Byte) : Quota :=
  { jq := fieldAt 0 4 b % 2 ^ 23, lq := fieldAt 4 4 b % 2 ^ 18, weight := fieldAt 8 1 b, win := fieldAt 8 4 b % 2 ^ 17
    dn := fieldAt 12 4 b % 2 ^ 19, key := fieldAt 16 4 b % 2 ^ 13, rate := fieldAt 20 2 b, depth := fieldAt 22 2 b % 16 }

/-- The quotas of a CREATE with a template: each one that is zero comes from the template, and C0DEPTH follows C0RATE (R260). -/
def Quota.orElse (q t : Quota) : Quota :=
  let pick (x y : Nat) : Nat := if x = 0 then y else x
  { jq := pick q.jq t.jq, lq := pick q.lq t.lq, weight := pick q.weight t.weight, win := pick q.win t.win, dn := pick q.dn t.dn
    key := pick q.key t.key, rate := pick q.rate t.rate, depth := if q.rate = 0 then t.depth else q.depth }

/-- The first byte offset of a bad quota field of a CREATE or RESIZE, among those selected by MASK (Table 12.1); each field is named by the
byte that holds its first bit (log entry 29). -/
def quotaBad (q : Quota) (mask : Nat) : List (Nat × Bool) :=
  [(9, bit 0 mask && (q.jq < 16 || 4194304 < q.jq || q.jq % 16 != 0)), (13, bit 1 mask && (q.lq < 8 || 129152 < q.lq)),
   (16, bit 2 mask && q.weight == 0), (17, bit 3 mask && 65536 < q.win), (21, bit 4 mask && 262144 < q.dn),
   (26, bit 5 mask && 4096 < q.key), (31, bit 6 mask && q.rate != 0 && (q.depth < 5 || 10 < q.depth))]

/-- Nonzero reserved fields of the quota words. DESIGN CHOICE (log entry 74): R5 has a consumer ignore a reserved field, and Table 12.5 has a nonzero
one of a command or of a record of its range list end the command with BAD_CMD; the rule of the command holds here and in the checks below. -/
def quotaReserved (b : List Byte) : List (Nat × Bool) :=
  [(8, bits 31 23 (fieldAt 8 4 b) != 0), (12, bits 31 18 (fieldAt 12 4 b) != 0), (17, bits 23 17 (fieldAt 16 4 b) != 0),
   (20, bits 31 19 (fieldAt 20 4 b) != 0), (24, bits 31 13 (fieldAt 24 4 b) != 0), (30, bits 15 4 (fieldAt 28 4 b) != 0)]

/-- The least offset of a field that is bad. -/
def firstBad (fs : List (Nat × Bool)) : Option Nat := listMin ((fs.filter (·.2)).map (·.1))

/-- Indices of a type: DNs, windows, key slots (Table 12.1). -/
def kindSize (k : Nat) : Nat := if k = 0 then 262144 else if k = 1 then 65536 else 4096

/-- A range record (Table 12.4), and its bad fields by offset. -/
def rangeOf (b : List Byte) : Range := { kind := fieldAt 0 1 b / 64, first := fieldAt 1 3 b, count := fieldAt 5 3 b }
def rangeBad (b : List Byte) : List (Nat × Bool) :=
  let r := rangeOf b
  [(0, r.kind == 3 || fieldAt 0 1 b % 64 != 0), (4, fieldAt 4 1 b != 0),
   (5, r.count == 0 || 262144 < r.count || kindSize r.kind < r.first + r.count)]

/-- Whether two ranges share an index. -/
def Range.meets (a b : Range) : Bool := a.kind == b.kind && a.first < b.first + b.count && b.first < a.first + a.count

/-- A range without another: what is left on either side. -/
def Range.minus (a b : Range) : List Range :=
  if !a.meets b then [a]
  else (if a.first < b.first then [{ a with count := b.first - a.first }] else [])
    ++ (if b.first + b.count < a.first + a.count then
          [{ a with first := b.first + b.count, count := a.first + a.count - (b.first + b.count) }] else [])

/-- Indices that two ranges share. -/
def Range.common (a b : Range) : Nat :=
  if a.meets b then min (a.first + a.count) (b.first + b.count) - max a.first b.first else 0

namespace State

/-- Changes the management queue. -/
def modMgt (s : State) (g : Mgt → Mgt) : State := { s with mgt := g s.mgt }

/-! ### Pools (R255) -/

/-- What an instance has drawn from pool 1 to 7. -/
def drawn (i : Inst) (pool : Nat) : Nat :=
  match pool with
  | 1 => i.jquota | 2 => i.lquota | 3 => i.weight | 4 => i.winallow | 5 => i.dnallow | 6 => i.keyallow | _ => i.c0rate

/-- Total of a pool. -/
def poolTotal (s : State) (pool : Nat) : Nat :=
  match pool with
  | 1 => 4194304 | 2 => 129152 | 3 => s.f Fld.mgtPoolEng_total | 4 => 65536 | 5 => 262144 | 6 => 4096 | _ => s.f Fld.mgtPoolC0_total

/-- The amount of a pool that no instance has drawn. -/
def poolFree (s : State) (pool : Nat) : Nat := s.poolTotal pool - (s.insts.map fun x => drawn x.2 pool).sum

/-- The quota that a pool's number names. -/
def quotaAt (q : Quota) (pool : Nat) : Nat :=
  match pool with
  | 1 => q.jq | 2 => q.lq | 3 => q.weight | 4 => q.win | 5 => q.dn | 6 => q.key | _ => q.rate

/-- The allowance pool of a type of index, and the indices of a type that an instance is assigned. -/
def kindPool (k : Nat) : Nat := if k = 0 then 5 else if k = 1 then 4 else 6
def assigned (i : Inst) (k : Nat) : Nat := ((i.owned.filter fun r => r.kind == k).map (·.count)).sum

/-- Whether an index of a range is owned by some instance. -/
def rangeTaken (s : State) (r : Range) : Bool := s.insts.any fun x => x.2.owned.any fun o => o.meets r

/-! ### Table entries and key slots that an assignment writes (R124, R262) -/

/-- V := 0 in a table entry, and OWNER := `o` where one is given; the OWNER byte lies at `off`. -/
def ownEntry {w : Nat} (len off : Nat) (o : Option Nat) (e : BitVec w) : BitVec w :=
  let e := match o with | some i => writeBytes len off [BitVec.ofNat 8 i] e | none => e
  e &&& ~~~ BitVec.ofNat w (2 ^ (w - 1))

/-- Writes a range of a table's committed entries and of their pending copies. With an owner every entry of the range is written; without
one only entries that are listed can have V = 1. -/
def ownRange {w : Nat} (len off : Nat) (o : Option Nat) (r : Range) (m : FMap (BitVec w)) : FMap (BitVec w) :=
  match o with
  | some _ => (List.range r.count).foldl (fun m k => FMap.mod 0 (r.first + k) (ownEntry len off o) m) m
  | none => m.filterMap fun p =>
      let e := if r.first ≤ p.1 ∧ p.1 < r.first + r.count then ownEntry len off none p.2 else p.2
      if e = 0 then none else some (p.1, e)

/-- The pending copies of a range. -/
def ownPend {w : Nat} (len off : Nat) (o : Option Nat) (r : Range) (m : FMap (BitVec w)) : FMap (BitVec w) :=
  m.map fun p => (p.1, if r.first ≤ p.1 ∧ p.1 < r.first + r.count then ownEntry len off o p.2 else p.2)

/-- Polls of DNs whose entry is no longer valid or no longer enables polling stop (Table 4.13). -/
def pollsStop (s : State) : State :=
  let off (n : Nat) : Bool := let d := s.device n; !d.v || d.poll == 0
  { s with
    ports := s.ports.map fun p => (p.1, { p.2 with queue := p.2.queue.filter fun y => !(y.2.kind == .poll && off y.2.dn) })
    dns := s.dns.filterMap fun p =>
      let n := if off p.1 then { p.2 with poll := PollSt.wait } else p.2
      if n = ({} : Dn) then none else some (p.1, n) }

/-- What an assignment (`o` the owner) or a release (none) of a range writes. -/
def writeRange (s : State) (r : Range) (o : Option Nat) : State :=
  if r.kind = 0 then
    (s.modTbl fun t => { t with dvt := ownRange 16 4 o r t.dvt, dvtPend := ownPend 16 4 o r t.dvtPend }).pollsStop
  else if r.kind = 1 then
    s.modTbl fun t => { t with wtt := ownRange 32 2 o r t.wtt, wttPend := ownPend 32 2 o r t.wttPend }
  else { s with cmp := { s.cmp with slots := s.cmp.slots.filter fun p => !(r.first ≤ p.1 && p.1 < r.first + r.count) } }

/-- Assigns a range to an instance. -/
def giveRange (s : State) (i : Nat) (r : Range) : State :=
  (s.writeRange r (some i)).modInst i fun n => { n with owned := n.owned ++ [r] }

/-- Takes a range from an instance. -/
def takeRange (s : State) (i : Nat) (r : Range) : State :=
  (s.writeRange r none).modInst i fun n => { n with owned := n.owned.flatMap fun o => o.minus r }

/-! ### The management queue (R257) -/

/-- Link, VC and identity of the queue's traffic. -/
def mgtLink (s : State) : Nat := s.f Fld.mgtQCfg_link
def mgtVc (s : State) : Nat := s.f Fld.mgtQCfg_vc
def mgtIdent (s : State) : Nat := 2 ^ 20 + s.bridgeId.toNat

/-- Address of a slot of the ring. -/
def mgtSlot (s : State) (n : Nat) : Nat := s.ringBase Fld.mgtQBaseLo_base_lo Fld.mgtQBaseHi_base_hi 0 + 64 * n

/-- The queue enters FAULT with a Thaty status (source 0x140). -/
def mgtFault (s : State) (st : Nat) : State :=
  ((s.modMgt fun m => { m with st := .fault, fetching := false, hold := {} }).setF Fld.mgtStat_fault_status st).raise 0x140

/-- Reads host memory for the queue, with space of the K floor of its VC's class reserved for the data (R209); it waits while none is free. -/
def mgtRead (s : State) (a n : Nat) (pur : Purpose) : Issue × State :=
  match s.takeRoom (3 * s.mgtVc + 2) (grainsOf n) with
  | none => (.full, s)
  | some h =>
    let r := s.issue s.mgtLink s.mgtIdent false (spanHdr s.mgtVc false s.bridgeId 0 a n) [] a (a + n - 1) pur none
    (r.1, if r.1 = .sent then r.2.modMgt fun m => { m with hold := h } else r.2)

/-- Fetches the command at MGT_HEAD, while the queue runs, the tail is ahead, and no command is being carried out. -/
def mgtFetch (s : State) : State :=
  let m := s.mgt
  if m.st ≠ .run ∨ m.fetching ∨ m.cmd.isSome ∨ m.head = s.f Fld.mgtDb_tail ∨ !s.works then s else
  let r := s.mgtRead (s.mgtSlot m.head) 64 .mgt
  match r.1 with
  | .sent => r.2.modMgt fun m => { m with fetching := true }
  | .refused => r.2.mgtFault 2
  | .full => s

/-- Writes a result, or holds it behind a write that G_TLINK refused. -/
def mgtWrite (s : State) (slot : Nat) (bs : List Byte) (long : Bool := false) : State :=
  let hold (s : State) : State := s.modMgt fun m => { m with heldRes := m.heldRes ++ [(slot, bs, long)] }
  if !s.mgt.heldRes.isEmpty then hold s else
  let a := s.mgtSlot slot + 56
  let r := s.gateCheck (gTlink s.mgtLink) s.mgtIdent a (a + 7) false true
  if !r.1 then hold (r.2.mgtFault 2)
  else
    let s := r.2.handTx s.mgtLink (.mwr (spanHdr s.mgtVc false s.bridgeId 0 a 8) bs)
    if fieldAt 1 1 bs = 1 then s.incF Fld.mgtCnt_done else s.incF Fld.mgtCnt_failed

/-- The result of the command of a slot (bytes 56 to 63 of Table 12.2). -/
def mgtResult (s : State) (slot : Nat) (phase : Bool) (res detail info : Nat) (long : Bool := false) : State :=
  s.mgtWrite slot (natBytes 4 (b2n phase * 2 ^ 31 + res * 2 ^ 16 + detail % 65536) ++ natBytes 4 info) long

/-- The command at hand is over, and the next is fetched. -/
def mgtNext (s : State) : State :=
  (s.modMgt fun m => { m with cmd := none, list := [], listOut := false, listErr := 0 }).mgtFetch

/-- The command at hand ends with a result. -/
def mgtEnd (s : State) (res detail : Nat) : State := (s.mgtResult s.mgt.slot s.mgt.slotPhase res detail 0).mgtNext

/-- A command has been fetched (R257): MGT_HEAD goes past it, and one with a reserved OPCODE ends with BAD_CMD. -/
def mgtTaken (s : State) (bs : List Byte) : State :=
  let n := 2 ^ s.f Fld.mgtQCfg_size
  let s := s.modMgt fun m => { m with
    fetching := false, hold := {}, cmd := some bs, slot := m.head, slotPhase := m.phase, head := (m.head + 1) % n
    phase := if m.head + 1 = n then !m.phase else m.phase }
  if fieldAt 0 1 bs = 0 ∨ 6 < fieldAt 0 1 bs then s.mgtEnd 2 0 else s

/-- MGT_CTL.RESUME (R257): the held writes are retried in order, then the fetch. -/
def mgtGoOn (s : State) : State :=
  if s.mgt.st ≠ .fault then s else
  let held := s.mgt.heldRes
  let s := s.modMgt fun m => { m with st := if s.fb Fld.mgtQCfg_en then .run else .off, heldRes := [] }
  (held.foldl (fun s x => s.mgtWrite x.1 x.2.1 x.2.2) s).mgtFetch

/-! ### EVENTs and codes -/

/-- An instance-state EVENT (R269). -/
def instEvent (s : State) (i cause kind first count : Nat) : State :=
  if s.evOn i 7 && s.instHears i then
    s.sendEvent i 7 (natBytes 4 (cause * 2 ^ 28 + kind * 2 ^ 26 + first) ++ natBytes 4 count)
  else s

end State

/-- An instance state as INST_STAT.STATE codes it. -/
def instCode (st : InstSt) : Nat := match st with | .free => 0 | .active => 1 | .drain => 2 | .squash => 3

/-- What checks of a command find: a RESULT and DETAIL, or none. -/
abbrev Bad := Option (Nat × Nat)

/-- BAD_CMD at the least bad offset. -/
def badCmd (fs : List (Nat × Bool)) : Bad := (firstBad fs).map fun o => (2, o)

namespace State

/-- The command at hand, if it has an OPCODE: its instance and bytes. -/
def mgtCmd (s : State) (opc : Nat) : Option (Nat × List Byte) :=
  match s.mgt.cmd with
  | some b => if fieldAt 0 1 b = opc then some (fieldAt 1 1 b, b) else none
  | none => none

/-- STATE, unless the instance is in the state that a command needs. -/
def needState (s : State) (i : Nat) (ok : Bool) : Bad := if ok then none else some (3, instCode (s.inst i).st)

/-! ### CREATE (R260) -/

/-- The quotas that a CREATE asks for, none where its BLOCK is undefined. -/
def createQuota (s : State) (b : List Byte) : Option Quota :=
  let q := quotaOf (b.drop 8)
  if bit 31 (fieldAt 4 4 b) then (FMap.find (bits 27 24 (fieldAt 4 4 b)) s.img.templates).map fun t => q.orElse (quotaOf (t.drop 4))
  else some q

/-- The checks of a CREATE before its range list is fetched: BAD_CMD, STATE, DUP_ID. -/
def createCheck (s : State) (i : Nat) (b : List Byte) : Bad :=
  let w := fieldAt 4 4 b
  let q := s.createQuota b
  let fs := [(4, q.isNone || bits 30 28 w != 0), (5, bits 23 20 w != 0)] ++ quotaReserved b
    ++ [(32, fieldAt 32 1 b != 0), (39, fieldAt 39 1 b % 8 != 0), (40, bits 31 9 (fieldAt 40 4 b) != 0),
        (42, 256 < fieldAt 40 4 b % 512), (44, fieldAt 44 12 b != 0)]
    ++ (match q with | some q => quotaBad q 127 | none => [])
  let id := w % 2 ^ 20
  (badCmd fs).orElse fun _ => (s.needState i ((s.inst i).st == .free)).orElse fun _ =>
    if id = s.bridgeId.toNat ∨ s.insts.any (fun x => x.2.st != .free && x.2.reqId.toNat == id) then some (4, 0) else none

/-- Bytes of the range list of a CREATE, and the part of it that is asked for next. -/
def listBytes (b : List Byte) : Nat := 8 * (fieldAt 40 4 b % 512)

/-- The records of a range list. -/
def listRanges (bs : List Byte) : List (List Byte) := (List.range (bs.length / 8)).map fun k => slice (8 * k) 8 bs

/-- BAD_CMD in a record of a range list: the first record that is bad. -/
def listBad : Nat → List (List Byte) → Bad
  | _, [] => none
  | k, r :: rs => match firstBad (rangeBad r) with | some o => some (2, 0x8000 + 8 * k + o) | none => listBad (k + 1) rs

/-- NO_RES: a pool that lacks what is asked beyond what the instance has. -/
def poolLacks (s : State) (have_ : Nat → Nat) (q : Quota) (mask : Nat) : Bad :=
  ((List.range 7).find? fun k => bit k mask && s.poolFree (k + 1) < quotaAt q (k + 1) - have_ (k + 1)).map fun k => (6, k + 1)

/-- NO_RES: the range list gives more indices of a type than the allowance; the pools in their order. -/
def listExceeds (q : Quota) (rs : List Range) : Bad :=
  ([1, 0, 2].find? fun k => quotaAt q (kindPool k) < ((rs.filter fun r => r.kind == k).map (·.count)).sum).map fun k => (6, kindPool k)

/-- IN_USE: the first range of a list that is owned or meets an earlier one. -/
def listTaken (s : State) : Nat → List Range → List Range → Bad
  | _, _, [] => none
  | k, before, r :: rs =>
    if s.rangeTaken r ∨ before.any (fun o => o.meets r) then some (7, k) else s.listTaken (k + 1) (r :: before) rs

/-- The registers of an instance page take their reset values (R153, R271). -/
def clearPage (s : State) (i : Nat) : State :=
  let lo := Block.bi.base + i * 0x10000
  let keep (p : Nat × Word) : Bool := !(lo ≤ p.1 && p.1 < lo + 0x10000)
  { s with
    regs := s.regs.filter keep
    shadow := s.shadow.filter keep
    hiShadow := s.hiShadow.filter keep
    qps := s.qps.filter fun p => p.1 / 4 != i
    pels := FMap.del i s.pels }

/-- The C0 depth that an instance keeps: 0 when its RATE is 0 (R256). -/
def keptDepth (q : Quota) : Nat := if q.rate = 0 then 0 else q.depth

/-- The commit edge of a CREATE. -/
def createCommit (s : State) (i : Nat) (b : List Byte) (q : Quota) (rs : List Range) : State :=
  let n : Inst := { st := .active, reqId := BitVec.ofNat 20 (fieldAt 4 4 b), jquota := q.jq, lquota := q.lq, weight := q.weight
                    winallow := q.win, dnallow := q.dn, keyallow := q.key, c0rate := q.rate, c0depth := keptDepth q
                    c0tokens := 65536 * keptDepth q }
  rs.foldl (fun s r => s.giveRange i r) ((s.clearPage i).modInst i fun _ => n)

/-- The checks of a CREATE once its list is there, and its commit. -/
def createEnd (s : State) (i : Nat) (b : List Byte) : State :=
  match s.createQuota b with
  | none => s
  | some q =>
    let raw := listRanges s.mgt.list
    let rs := raw.map rangeOf
    let bad := (listBad 0 raw).orElse fun _ => (s.poolLacks (fun _ => 0) q 127).orElse fun _ => (listExceeds q rs).orElse fun _ =>
      s.listTaken 0 [] rs
    match bad with
    | some (r, d) => s.mgtEnd r d
    | none => (s.createCommit i b q rs).mgtEnd 1 0

/-- CREATE goes on: the next part of its range list is read, or it commits or fails. -/
def createStep (s : State) (i : Nat) (b : List Byte) : State :=
  match s.createCheck i b with
  | some (r, d) => s.mgtEnd r d
  | none =>
    let want := listBytes b
    let have_ := s.mgt.list.length
    if s.mgt.listOut then s
    else if s.mgt.listErr ≠ 0 then s.mgtEnd 5 s.mgt.listErr
    else if have_ < want then
      let a := fieldAt 32 8 b / 8 * 8 % 2 ^ 56 + have_
      let n := min (want - have_) (4096 - a % 4096)
      let r := s.mgtRead a n .mgtRange
      match r.1 with
      | .sent => r.2.modMgt fun m => { m with listOut := true }
      | .refused => r.2.mgtEnd 5 2
      | .full => s
    else s.createEnd i b

end State

/-- CREATE (R258 to R260): the command at the head of the management queue goes on until its commit edge. -/
def execCreate (s : State) : Host.Outcome State Fault Refusal :=
  let s := s.start
  .next <|
    if !s.works ∨ s.mgt.st ≠ .run then s else
    match s.mgtCmd 1 with
    | some (i, b) => s.createStep i b
    | none => s.mgtFetch

namespace State

/-! ### RESIZE (R261) -/

/-- The checks of a RESIZE. -/
def resizeCheck (s : State) (i : Nat) (b : List Byte) : Bad :=
  let mask := fieldAt 4 4 b % 128
  let q := quotaOf (b.drop 8)
  let n := s.inst i
  let c0busy := (List.range 4).any fun k => s.f Fld.qStat_state (4 * i + k) != 0 && s.f Fld.qCfg_class (4 * i + k) == 0
  (badCmd ([(4, bits 31 7 (fieldAt 4 4 b) != 0), (32, fieldAt 32 24 b != 0)] ++ quotaReserved b ++ quotaBad q mask)).orElse fun _ =>
    (s.needState i (n.st == .active)).orElse fun _ => (s.poolLacks (drawn n) q mask).orElse fun _ =>
      if (bit 3 mask && q.win < assigned n 1) || (bit 4 mask && q.dn < assigned n 0) || (bit 5 mask && q.key < assigned n 2)
        || (bit 6 mask && q.rate == 0 && c0busy) then some (7, 0) else none

/-- The effect of a RESIZE (Table 12.6). -/
def resizeCommit (s : State) (i : Nat) (b : List Byte) : State :=
  let mask := fieldAt 4 4 b % 128
  let q := quotaOf (b.drop 8)
  let s := s.modInst i fun n =>
    let n := if bit 0 mask then { n with jquota := q.jq } else n
    let n := if bit 1 mask then { n with lquota := q.lq } else n
    let n := if bit 2 mask then { n with weight := q.weight } else n
    let n := if bit 3 mask then { n with winallow := q.win } else n
    let n := if bit 4 mask then { n with dnallow := q.dn } else n
    let n := if bit 5 mask then { n with keyallow := q.key } else n
    if bit 6 mask then
      { n with c0rate := q.rate, c0depth := keptDepth q, c0tokens := min n.c0tokens (65536 * keptDepth q) } else n
  s.instEvent i 1 0 mask 0

end State

/-- RESIZE (R261). -/
def execResize (s : State) : Host.Outcome State Fault Refusal :=
  let s := s.start
  .next <|
    if !s.works ∨ s.mgt.st ≠ .run then s else
    match s.mgtCmd 2 with
    | some (i, b) =>
      (match s.resizeCheck i b with
      | some (r, d) => s.mgtEnd r d
      | none => (s.resizeCommit i b).mgtEnd 1 0)
    | none => s.mgtFetch

namespace State

/-! ### ASSIGN and RELEASE (R262) -/

/-- Bad fields of an ASSIGN or RELEASE, whose record lies at bytes 8 to 15. -/
def rangeCmdBad (b : List Byte) : List (Nat × Bool) :=
  [(4, fieldAt 4 4 b != 0), (16, fieldAt 16 40 b != 0)] ++ (rangeBad (slice 8 8 b)).map fun x => (8 + x.1, x.2)

/-- The checks of an ASSIGN. -/
def assignCheck (s : State) (i : Nat) (b : List Byte) : Bad :=
  let r := rangeOf (slice 8 8 b)
  let n := s.inst i
  let allow := if r.kind = 0 then n.dnallow else if r.kind = 1 then n.winallow else n.keyallow
  (badCmd (rangeCmdBad b)).orElse fun _ => (s.needState i (n.st == .active)).orElse fun _ =>
    if allow < assigned n r.kind + r.count then some (6, kindPool r.kind)
    else if s.rangeTaken r then some (7, 0) else none

/-- The checks of a RELEASE. -/
def releaseCheck (s : State) (i : Nat) (b : List Byte) : Bad :=
  let r := rangeOf (slice 8 8 b)
  let n := s.inst i
  let busy := r.kind == 2 && s.ops.any fun p => !p.2.done && (match p.2.x with
    | some x => x.keyUse && r.first ≤ x.c.keyslot && x.c.keyslot < r.first + r.count | none => false)
  (badCmd (rangeCmdBad b)).orElse fun _ => (s.needState i (n.st == .active)).orElse fun _ =>
    if busy then some (7, 0)
    else if (n.owned.map fun o => o.common r).sum = r.count then none else some (8, 0)

end State

/-- ASSIGN (R262). -/
def execAssign (s : State) : Host.Outcome State Fault Refusal :=
  let s := s.start
  .next <|
    if !s.works ∨ s.mgt.st ≠ .run then s else
    match s.mgtCmd 5 with
    | some (i, b) =>
      (match s.assignCheck i b with
      | some (r, d) => s.mgtEnd r d
      | none =>
        let r := rangeOf (slice 8 8 b)
        ((s.giveRange i r).instEvent i 2 r.kind r.first r.count).mgtEnd 1 0)
    | none => s.mgtFetch

/-- RELEASE (R262). -/
def execRelease (s : State) : Host.Outcome State Fault Refusal :=
  let s := s.start
  .next <|
    if !s.works ∨ s.mgt.st ≠ .run then s else
    match s.mgtCmd 6 with
    | some (i, b) =>
      (match s.releaseCheck i b with
      | some (r, d) => s.mgtEnd r d
      | none =>
        let r := rangeOf (slice 8 8 b)
        ((s.takeRange i r).instEvent i 3 r.kind r.first r.count).mgtEnd 1 0)
    | none => s.mgtFetch

namespace State

/-! ### Squash (R265) -/

/-- The lock of a squashed operation is no longer that operation's: its Journal entry is not named any more. -/
def disown (s : State) (je p d : Nat) : State :=
  s.modDaddr p d fun a => { a with
    lockReq := a.lockReq.map fun x => if x.je = some je then { x with je := some noEntry } else x
    opened := a.opened.map fun x => if x.req.je = some je then { x with req := { x.req with je := some noEntry } } else x
    relWhy := if State.lockJe a = some je ∧ a.lock = .releasing then .ended else a.relWhy }

/-- The open device-initiated exchange of a squashed operation ends under event (k). -/
def squashUp (s : State) (je : Nat) (o : Op) : State :=
  let a := s.daddr o.sport o.sdaddr
  match a.up with
  | none => s
  | some u =>
    if u.je ≠ some je then s else
    let s := s.modDaddr o.sport o.sdaddr fun a => { a with up := some { u with je := none } }
    let st : StatusTx := { daddr := o.sdaddr, closesUp := true
                           frame := statusFrame o.sdaddr (bridgeStatus true true 4 (burstBytes u.frame) s.ts) }
    if s.statusOf o.sport je then s.replaceStatus o.sport je st
    else if s.statusWaits o.sport o.sdaddr then s
    else s.queueStatus o.sport st

/-- One entry of a squashed instance (Table 7.6): its work stops, and a non-posted direct or engine-path request owes its CPL with TO, which
goes now (R173, R265). -/
def squashEntry (s : State) (je : Nat) (e : JEntry) : State :=
  if e.st = .completed ∨ e.st = .squashed then s else
  let s := s.setSt je .squashed
  match s.op? je with
  | none => s
  | some o =>
    let s := (s.stopExchange je 4 Fld.gptLockCnt_aborts).dequeueOp je o.port
    let s := (s.disown je o.port o.daddr).squashUp je o
    let s := s.modOp je fun o => { hold := o.hold, area := o.area, done := true, silent := true }
    if e.kind < 4 ∧ !e.pst then
      match o.hdr with
      | some h => (s.modEntry je fun e => { e with sqc := true }).handTx e.link (s.cplPkt h 4 []) [je]
      | none => s
    else s

/-- ACK-ATTN exchanges of an instance's DNs: queued ones are discarded, open ones end under event (k). -/
def squashAcks (s : State) (i : Nat) : State :=
  let mine (x : XReq) : Bool := x.kind == .ack && (s.device x.dn).v && (s.device x.dn).owner == i
  let open_ := s.daddrs.filter fun p => match p.2.opened with | some x => mine x.req | none => false
  let s : State := { s with ports := s.ports.map fun p => (p.1, { p.2 with queue := p.2.queue.filter fun y => !mine y.2 }) }
  open_.foldl (fun s p => s.abortExchange (p.1 / 2048) (p.1 % 2048) 4) s

/-- An instance enters SQUASH (R265): its work stops at once, and what waits for it in a link receive buffer is refused (R264). -/
def squash (s : State) (i : Nat) : State :=
  let es := s.jnl.entries.filter fun p => p.2.inst == i && p.2.st != .completed && p.2.st != .squashed
  let jes := es.map (·.1)
  let ns := (s.ctxs.filter fun c => c.2.inst == i).map (·.1)
  let s := ((s.withdraw jes ns).squashAcks i).refuseHeld i
  let dead (r : OutReq) : OutReq :=
    match r.purpose with
    | .upRd je | .data _ je => if jes.contains je then { r with purpose := .dead } else r
    | .ccd k => if ns.contains k then { r with purpose := .dead } else r
    | .startEntry k _ => if k = i then { r with purpose := .dead } else r
    | _ => r
  let s := (s.modLink 0 fun k => { k with outst := k.outst.map dead }).modLink 1 fun k => { k with outst := k.outst.map dead }
  let s := es.foldl (fun s p => s.squashEntry p.1 p.2) s
  let s := s.modJnl fun j => { j with reserved := j.reserved.filter fun p => p.2 != i }
  let s : State := { s with
    ctxs := s.ctxs.filter fun c => c.2.inst != i
    evWait := s.evWait.filter fun e => e.inst != i
    pels := FMap.del i s.pels
    qps := s.qps.map fun p => (p.1, if p.1 / 4 = i then { p.2 with held := [], evPend := false, timer := false } else p.2) }
  s.modInst i fun n => { n with st := .squash, squashed := n.squashed + es.length }

/-- The command at hand is one whose result is owed until the reset ends (R257). -/
def oweResult (s : State) (i : Nat) : State :=
  (s.modInst i fun n => { n with owed := n.owed ++ [(s.mgt.slot, s.mgt.slotPhase)] }).mgtNext

/-- The checks of a RESET. -/
def resetCheck (s : State) (i : Nat) (b : List Byte) : Bad :=
  let st := (s.inst i).st
  (badCmd [(4, bits 30 16 (fieldAt 4 4 b) != 0), (8, fieldAt 8 48 b != 0)]).orElse fun _ =>
    s.needState i (st == .active || (st == .drain && bit 31 (fieldAt 4 4 b)))

end State

/-- RESET (R263, Table 12.7). -/
def execReset (s : State) : Host.Outcome State Fault Refusal :=
  let s := s.start
  .next <|
    if !s.works ∨ s.mgt.st ≠ .run then s else
    match s.mgtCmd 3 with
    | some (i, b) =>
      (match s.resetCheck i b with
      | some (r, d) => s.mgtEnd r d
      | none =>
        if !bit 31 (fieldAt 4 4 b) then
          let s := (s.modInst i fun n => { n with st := .drain, squashed := 0, escalated := false }).refuseHeld i
          (s.instEvent i 4 0 0 0).oweResult i
        else if (s.inst i).st = .drain then ((s.modInst i fun n => { n with escalated := true }).squash i).oweResult i
        else ((s.modInst i fun n => { n with squashed := 0, escalated := false }).squash i).oweResult i)
    | none => s.mgtFetch

/-- DESTROY (R263, Table 12.7). -/
def execDestroy (s : State) : Host.Outcome State Fault Refusal :=
  let s := s.start
  .next <|
    if !s.works ∨ s.mgt.st ≠ .run then s else
    match s.mgtCmd 4 with
    | some (i, b) =>
      (match (badCmd [(4, fieldAt 4 52 b != 0)]).orElse fun _ => s.needState i ((s.inst i).st != .free) with
      | some (r, d) => s.mgtEnd r d
      | none =>
        let st := (s.inst i).st
        let s := s.modInst i fun n => { n with
          destroying := true
          escalated := if st = .drain then true else if st = .active then false else n.escalated
          squashed := if st = .active then 0 else n.squashed }
        (if st = .squash then s else s.squash i).oweResult i)
    | none => s.mgtFetch

/-- DRAIN_TIMEOUT (R263): the reset escalates to SQUASH. -/
def execDrainTimeout (inst : Fin 256) (s : State) : Host.Outcome State Fault Refusal :=
  let s := s.start
  .next <|
    if s.works ∧ (s.inst inst.val).st = .drain then (s.modInst inst.val fun n => { n with escalated := true }).squash inst.val
    else s

namespace State

/-! ### Reset completion (R267) -/

/-- Whether a SQUASHED entry is over: its work was discarded when it was squashed, so only the acknowledgement of its CPL is awaited. -/
def squashOver (e : JEntry) : Bool := e.st == .squashed && (!e.sqc || e.acked)

/-- The SQUASHED entries of an instance whose work has been discarded become FREE. -/
def freeSquashed (s : State) (i : Nat) : State :=
  (s.jnl.entries.filter fun p => p.2.inst == i && squashOver p.2).foldl (fun s p => s.freeJe p.1) s

/-- Locks that an instance owns (R266), by key of their device address. -/
def locksOf (s : State) (i : Nat) : List (Nat × Daddr) :=
  s.daddrs.filter fun p => p.2.lock != .none && (match p.2.lockReq with | some x => x.inst == i | none => false)

/-- The completion condition (R267). In DRAIN programs in flight and engine-path accesses also have to end (R264; log entry 28). -/
def resetOver (s : State) (i : Nat) : Bool :=
  !(s.jnl.entries.any fun p => p.2.inst == i) && (s.locksOf i).isEmpty && (s.mbox i).isNone
  && !(s.ctxs.any fun c => c.2.inst == i)

/-- The attention states of an instance's DNs become CLEAR, unmuted. -/
def clearAttn (s : State) (i : Nat) : State :=
  { s with dns := s.dns.filterMap fun p =>
      let n := if s.owns i 0 p.1 then { p.2 with attn := AttnSt.clear } else p.2
      if n = ({} : Dn) then none else some (p.1, n) }

/-- The results that a reset owes. -/
def payResults (s : State) (owed : List (Nat × Bool)) (detail info : Nat) : State :=
  owed.foldl (fun s x => s.mgtResult x.1 x.2 1 detail info true) s

/-- A destroyed instance is released (R267). -/
def releaseInst (s : State) (i : Nat) : State :=
  let s := (s.inst i).owned.foldl (fun s r => s.takeRange i r) s
  { s with insts := FMap.del i s.insts, cmp := { s.cmp with keks := FMap.del i s.cmp.keks } }

end State

/-- RESET_COMPLETION (R267). -/
def execResetCompletion (inst : Fin 256) (s : State) : Host.Outcome State Fault Refusal :=
  let s := s.start
  .next <|
    let i := inst.val
    let st := (s.inst i).st
    if !s.works ∨ (st ≠ .drain ∧ st ≠ .squash) then s else
    let s := s.freeSquashed i
    if !s.resetOver i then s else
    let n := s.inst i
    let s := (s.clearPage i).clearAttn i
    let s := if n.destroying then s.releaseInst i
      else s.modInst i fun n => { n with
        st := .active, escalated := false, owed := [], squashed := 0, c0tokens := 65536 * n.c0depth }
    s.payResults n.owed (b2n n.escalated) n.squashed

end Sys2Proof.Machine
end

