-- ==== Sys2Proof/Machine/Cpl.lean ====
section
/-! DEFINITION. Completions of the bridge's own requests (R56, R57). -/

namespace Sys2Proof.Machine

namespace State

/-- The data of a context's read crosses the Hub to the Landing pool (R181). DEDUCED (log entry 87): it is charged to no C0 bucket, since R192
lists no such transfer. -/
def fetchCross (s : State) (l n : Nat) (own : XOwn) (bs : List Byte) : State :=
  match s.ctx? n with
  | some c => if bs.isEmpty then s else s.addXfer (hubLink l hubLanding) hubLanding (s.ctxCls c) c.inst bs.length own
  | none => s

/-- An entry that has its completion acknowledged is FREE once its last request has ended (R172). -/
def dataOver (s : State) (je : Nat) : State :=
  let e := s.entry je
  if e.st = .completed ∧ e.acked then s.freeJe je else s

/-- Data of an UP-RD crosses the Hub to the spoke group of its source (R181). -/
def upCross (s : State) (l je : Nat) (bs : List Byte) : State :=
  match s.op? je with
  | some o =>
    let out := hubSpoke o.sport
    if bs.isEmpty then s else s.addXfer (hubLink l out) out (s.entry je).cls (s.entry je).inst bs.length (.op je)
  | none => s

/-- Brings the end of a request to the work it was for, from a link: a Thaty status, and the granules of a good read. -/
def deliverCpl (s : State) (l : Nat) (pur : Purpose) (st : Nat) (bs : List Byte) : State :=
  match pur with
  | .startEntry i q =>
    match s.ctxs.find? fun c => !c.2.access && c.2.inst == i && c.2.q == q && c.2.st == .start && decide (0 < c.2.hold.total) with
    | some c => (s.fetchCross l c.1 (.ctx c.1) bs).modCtx c.1 fun c => { c with got := some (st, bs) }
    | none => s
  | .ccd k => (s.fetchCross l k (.ctx k) bs).modCtx k fun c => { c with got := some (st, bs) }
  | .data k je =>
    let runs := match s.ctx? k with | some c => c.je == some je && c.st == .run | none => false
    if runs && (s.op? je).isSome then (s.fetchCross l k (.op je) bs).modCtx k fun c => { c with got := some (st, bs) }
    else s.dataOver je
  | .upRd je => (s.upCross l je bs).upEnd je st bs
  | .key i => { s with cmp := { s.cmp with mboxes := FMap.upd i (fun m => { m with got := some (st, bs) }) s.cmp.mboxes } }
  | .mgt => if st = 0 then s.mgtTaken bs else s.mgtFault st
  | .mgtRange =>
    s.modMgt fun m => { m with
      listOut := false, hold := {}, list := if st = 0 then m.list ++ bs else m.list, listErr := if st = 0 then m.listErr else st }
  | .dead => s

/-- A request of the bridge ends (R56): its tag is free again. -/
def endReq (s : State) (l : Nat) (r : OutReq) (st : Nat) (bs : List Byte) : State :=
  let s := s.modLink l fun k => { k with outst := k.outst.filter fun x => x.tag != r.tag }
  s.deliverCpl l r.purpose st bs

/-- The outstanding request that a completion names (Table 3.8). -/
def outReq (s : State) (l : Nat) (h : CplHdr) : Option OutReq :=
  (s.link l).outst.find? fun r => r.tag == h.tag.toNat && r.destId == h.destId

end State

/-- Whether a piece lies inside its request and overlaps no piece that has come (Table 3.8). -/
def pieceFits (r : OutReq) (off n : Nat) : Bool :=
  !r.wr && off + n ≤ r.granules && r.got.all fun p => off + n ≤ p.1 || p.1 + p.2.length / 8 ≤ off

/-- Granules that have come. -/
def gotGranules (r : OutReq) : Nat := (r.got.map fun p => p.2.length / 8).sum

/-- CPL (R56, Table 3.8): it ends the bridge's request with its status. In HALT the checks of Table 3.8 hold, and a good completion is not
taken up, since the Journal is frozen (R177; DEDUCED, log entry 75). -/
def execCpl (link : Fin 2) (h : CplHdr) (bytes : List Byte) (s : State) : Host.Outcome State Fault Refusal :=
  let s := s.start
  .next <|
    let l := link.val
    if s.mode = .reset ∨ !(s.link l).flows then s else
    let s := s.takeIn l (.cpl h bytes)
    match s.outReq l h with
    | none => s.rxBad l Fld.tlkRxErr_late_cpl
    | some r =>
      let st := h.status.toNat
      if 5 < st ∨ (st = 3 ∧ h.len ≠ 4) ∨ (st = 0 ∧ !r.wr) then s.rxBad l Fld.tlkRxErr_malformed
      else if !s.works then s
      else s.endReq l r st []

/-- CPLD (R56, Table 3.8): a piece of the data of the bridge's MRD, which completes when every granule has come. -/
def execCpld (link : Fin 2) (h : CplHdr) (bytes : List Byte) (s : State) : Host.Outcome State Fault Refusal :=
  let s := s.start
  .next <|
    let l := link.val
    if s.mode = .reset ∨ !(s.link l).flows then s else
    let s := s.takeIn l (.cpld h bytes)
    match s.outReq l h with
    | none => s.rxBad l Fld.tlkRxErr_late_cpl
    | some r =>
      let n := granulesOf h.len.toNat
      if !pieceFits r h.offset.toNat n ∨ h.status ≠ 0 then s.rxBad l Fld.tlkRxErr_malformed
      else if !s.works then s
      else if h.poison then s.endReq l r 5 []
      else
        let r := { r with got := r.got ++ [(h.offset.toNat, slice 0 (8 * n) bytes)] }
        if gotGranules r = r.granules then
          s.endReq l r 0 (placeParts (8 * r.granules) (r.got.map fun p => (8 * p.1, p.2)))
        else s.modLink l fun k => { k with outst := k.outst.map fun x => if x.tag = r.tag then r else x }

/-- The Journal entry that a request is for (R274). -/
def Purpose.je : Purpose → Option Nat
  | .data _ je | .upRd je => some je
  | _ => none

/-- CPL_TIMEOUT (R57): the request ends with TO, its tag is quarantined, and source 0x025 is raised. -/
def execCplTimeout (link : Fin 2) (tag : BitVec 16) (s : State) : Host.Outcome State Fault Refusal :=
  let s := s.start
  .next <|
    let l := link.val
    if !s.works ∨ (s.link l).st = .retrain then s else
    match (s.link l).outst.find? fun r => r.tag == tag.toNat with
    | none => s
    | some r =>
      let i := (s.insts.find? fun x => x.2.st != .free && x.2.reqId == r.destId).map (·.1)
      let s := s.modLink l fun k => { k with quar := k.quar ++ [r.tag] }
      (s.endReq l r 4 []).raise 0x025 l (if r.purpose = .mgt ∨ r.purpose = .mgtRange then none else i) r.purpose.je

end Sys2Proof.Machine
end

