-- ==== Sys2Proof/Machine/Bst.lean ====
section
/-! DEFINITION. ALIVE and liveness (R282, R283), the checker exercise (R284), Pouncing (R286 to R292), repair (R293) and fuse commands
(R295). -/

namespace Sys2Proof.Machine

namespace State

/-! ### Leaving SERVICE (R305, R284, R253) -/

/-- What the bridge does on the edge on which it leaves SERVICE: an exercise is cancelled, and debug unlock ends. -/
def endService (s : State) : State :=
  ((s.setF Fld.gateDbgUnlock_unlock 0).setF Fld.gateDbgStat_unlocked 0).modFlt fun f => { f with exLeft := 0 }

/-- Whether SERVICE may be left now: no slice runs, FOREGROUND has ended, and no fuse is being programmed. -/
def serviceIdle (s : State) : Bool :=
  s.bst.mem.st == .idle && s.bst.eng.st == .idle && !s.bst.fg && s.bst.burn.isNone && s.img.svnBurn.isNone

/-- A request for RUN that waits in SERVICE is carried out when nothing holds it any more. -/
def runAtLast (s : State) : State :=
  if s.mode = .service ∧ s.pwr.runAfterFg ∧ s.serviceIdle then
    { s.endService with mode := .run }.modPwr fun w => { w with runAfterFg := false }
  else s

/-! ### Targets (R286) -/

/-- Whether a sub-bank holds entries or grains withheld under R175 or R220. -/
def subWithheld (s : State) (n : Nat) : Bool :=
  s.landOut.contains n || s.jnl.withheld.any fun w => s.jnlSub w.1 w.2 == n

/-- Whether a sub-bank or an engine can be a target: not FAILED, not retired. -/
def canTest (s : State) (k : SliceKind) (n : Nat) : Bool :=
  match k with
  | .mem => n < 1056 && (s.sub n).role != .failed
  | .eng => n < 104 && ((s.eng n).role == .active || (s.eng n).role == .spare)

end State

/-- How many targets a kind has. -/
def kindCount : SliceKind → Nat
  | .mem => 1056
  | .eng => 104

namespace State

/-- The slice machine of a kind. -/
def sliceOf (s : State) : SliceKind → Slice
  | .mem => s.bst.mem
  | .eng => s.bst.eng

/-- Changes the slice machine of a kind. -/
def modSlice (s : State) (k : SliceKind) (g : Slice → Slice) : State :=
  match k with
  | .mem => s.modBst fun b => { b with mem := g b.mem }
  | .eng => s.modBst fun b => { b with eng := g b.eng }

/-- Step 4 of R286: the next target in ascending order after the last one, wrapping; none when nothing can be tested. -/
def nextTarget (s : State) (k : SliceKind) : Option Nat :=
  let n := kindCount k
  let from_ := match (s.sliceOf k).last4 with | none => 0 | some t => t + 1
  ((List.range n).map fun i => (from_ + i) % n).find? fun t => s.canTest k t

/-- Step 2 of R286: the lowest untested spare. -/
def untestedSpare (s : State) : SliceKind → Option Nat
  | .mem => (s.bst.subs.find? fun x => x.2.role == .spare && x.2.untested).map (·.1)
  | .eng => (s.engs.find? fun x => x.2.role == .spare && x.2.untested).map (·.1)

/-- Step 3 of R286, for memory: the lowest sub-bank with enough corrected errors in the cycle, or with something withheld. -/
def outOfTurn (s : State) : SliceKind → Option Nat
  | .mem =>
    (s.bst.subs.find? fun x => x.2.role != .failed && (s.f Fld.bstCeThresh_thresh ≤ x.2.ce || s.subWithheld x.1)).map (·.1)
  | .eng => none

/-- Step 1 of R286: the last target, after fewer than three INCOMPLETE results in a row. -/
def againTarget (s : State) (k : SliceKind) : Option Nat :=
  let x := s.sliceOf k
  if x.res = .incomplete ∧ x.incRun < 3 ∧ s.canTest k x.target then some x.target else none

/-- A wrap of step 4 ends a memory cycle: CYCLES steps, and the corrected errors of the next cycle are counted from zero. -/
def cycleEnds (s : State) : SliceKind → State
  | .mem => (s.incF Fld.bstCnt2_cycles).modBst fun b => { b with subs := b.subs.map fun x => (x.1, { x.2 with ce := 0 }) }
  | .eng => s

/-- The target of a periodic slice (R286). -/
def chooseTarget (s : State) (k : SliceKind) : Option Nat × State :=
  match (s.againTarget k).orElse fun _ => (s.untestedSpare k).orElse fun _ => s.outOfTurn k with
  | some t => (some t, s)
  | none =>
    match s.nextTarget k with
    | none => (none, s)
    | some t =>
      let wraps := match (s.sliceOf k).last4 with | none => false | some l => decide (t ≤ l)
      (some t, (if wraps then s.cycleEnds k else s).modSlice k fun x => { x with last4 := some t })

/-! ### Starting a slice (R287, R288) -/


/-- A slice ends SKIPPED for want of a free spare. -/
def skipSlice (s : State) (k : SliceKind) (t : Nat) : State :=
  let s := s.modSlice k fun x => { x with target := t }.note .skipped
  let s := if k = .mem then s.setF Fld.bstFailMem_valid 0 else s
  ((s.lastResult k 4 t 0).incF Fld.bstCnt2_skipped).raise 0x1C3 t

/-- The lowest free spare sub-bank (R287). -/
def spareSub (s : State) : Option Nat := (s.bst.subs.find? fun x => x.2.role == .spare && !x.2.untested && !x.2.isolated).map (·.1)

/-- The lowest free spare engine (R288). -/
def spareEng (s : State) : Option Nat := (s.engs.find? fun x => freeSpare x.2).map (·.1)

/-- A memory slice starts on a target. -/
def startMem (s : State) (t : Nat) : State :=
  let r := (s.sub t).role
  let go (s : State) (spare : Nat) : State :=
    s.modSlice .mem fun x => { x with st := .prepare, target := t, standin := spare, wasLanding := r == .landing, cut := false }
  if r = .spare then go s 0
  else match s.spareSub with
    | none => s.skipSlice .mem t
    | some k => go s k

/-- An engine slice starts on a target: the place of an active one passes to a spare on this edge. -/
def startEng (s : State) (t : Nat) : State :=
  let go (s : State) (spare : Nat) : State :=
    (s.modEng t fun e => { e with role := .spare, testing := true }).modSlice .eng fun x =>
      { x with st := .prepare, target := t, standin := spare, cut := false }
  if (s.eng t).role = .spare then go s 0
  else match s.spareEng with
    | none => s.skipSlice .eng t
    | some k => ((go s k).modEng k fun e => { e with role := .active }).wakeEng k 1

/-- A slice of a kind starts. -/
def startSlice (s : State) (k : SliceKind) (t : Nat) : State :=
  match k with
  | .mem => s.startMem t
  | .eng => s.startEng t

/-- A periodic slice of a kind starts, when that kind is idle. -/
def periodic (s : State) (k : SliceKind) : State :=
  if (s.sliceOf k).st ≠ .idle then s else
  let r := s.chooseTarget k
  match r.1 with
  | none => r.2
  | some t => r.2.startSlice k t

/-! ### The swap edge (R176, Table 13.7) -/

/-- The spare takes the place of a sub-bank: indices stay, and what was withheld in it is released. -/
def swapSub (s : State) (t k : Nat) : State :=
  let x := s.sub t
  let mine (w : Nat × Nat) : Bool := s.jnlSub w.1 w.2 == t
  let s := s.modJnl fun j => { j with
    withheld := j.withheld.filter fun w => !mine w
    uncorr := j.uncorr.filter fun w => !(mine w && j.withheld.contains w) }
  let s : State := { s with landOut := s.landOut.filter fun n => n != t }
  let s := (s.modSub k fun y => { y with role := x.role, index := x.index }).modSub t fun y =>
    { y with role := .spare, index := 0, isolated := true }
  s.incF (if x.role = .landing then Fld.jnlMigCnt_landing else Fld.jnlMigCnt_journal)

/-! ### Judge and restore (R289 to R291) -/


end State

/-- The expected completion count. -/
def fullCount : SliceKind → Nat
  | .mem => 12288
  | .eng => 3200

/-- Table 13.8. -/
def sliceVerdict (k : SliceKind) (r : SliceResult) : SliceRes :=
  if r.count ≠ fullCount k then .incomplete
  else if r.misr = r.expected ∧ (k = .eng ∨ r.cells = []) then .pass
  else .fail

/-- RESULT codes of BST_LAST_MEM. -/
def sliceCode : SliceRes → Nat
  | .pass => 1
  | .fail => 2
  | .incomplete => 3
  | .skipped => 4

namespace State

/-- BST_FAIL_MEM after a memory FAIL; where no compare failed, which cell it names is open. Its VALID says of the last memory slice that it
failed (R297). -/
def failMem (s : State) (cells : List (Nat × Nat)) : State :=
  let c := cells.headD (s.free % 2048, s.free / 2048 % 512)
  let s := if cells.isEmpty then s.draw else s
  (((s.setF Fld.bstFailMem_valid 1).setF Fld.bstFailMem_row c.1).setF Fld.bstFailMem_bit c.2).setF Fld.bstFailMem_ncells
    (min cells.length 2047)

/-- A slice is judged and goes on to Restore. -/
def judgeSlice (s : State) (k : SliceKind) (r : SliceResult) : State :=
  let t := (s.sliceOf k).target
  let v := sliceVerdict k r
  let s := ((s.modSlice k fun x => { x.note v with st := .restore, cells := r.cells }).lastResult k (sliceCode v) t r.count).writeMisr k
    r.misr r.expected
  let s := if k = .mem ∧ v ≠ .fail then s.setF Fld.bstFailMem_valid 0 else s
  match v with
  | .pass => s.incF Fld.bstCnt_passes
  | .fail =>
    let s := s.incF Fld.bstCnt_fails
    match k with
    | .mem => (s.failMem r.cells).raise 0x1C0 t
    | .eng => s.raise 0x1C1 t
  | _ => (s.incF Fld.bstCnt_incomplete).thirdIncomplete (s.sliceOf k)

/-- A slice in Test is cut off (Table 13.9): how far it came, and its signatures, are open. -/
def cutNow (s : State) (k : SliceKind) : State :=
  let n := s.free
  let s := s.draw
  let m := s.free
  let s := s.draw
  s.draw.judgeSlice k { count := n % fullCount k, misr := BitVec.ofNat 32 m, expected := BitVec.ofNat 32 s.free }

/-- QUIESCING cuts a slice in Test, and one in Prepare when it reaches Test (R290). -/
def cutSlice (s : State) (k : SliceKind) : State :=
  match (s.sliceOf k).st with
  | .test => s.cutNow k
  | .prepare => s.modSlice k fun x => { x with cut := true }
  | _ => s

/-- A prepared target is isolated or masked, and the test begins. -/
def beginTest (s : State) (k : SliceKind) : State :=
  let s := s.modSlice k fun x => { x with st := .test }
  if (s.sliceOf k).cut then s.cutNow k else s

/-- Moves the contexts of an engine slice's target that may move now (R288). -/
def moveQuiet (s : State) : State :=
  (s.ctxsOf s.bst.eng.target).foldl (fun s c => if s.ctxQuiet c.2 then s.standInCtx c.1 c.2 else s) s

/-- The end of Prepare: the swap edge of a memory slice, or the move of the last context of an engine slice. -/
def prepared (s : State) (k : SliceKind) : State :=
  if (s.sliceOf k).st ≠ .prepare then s else
  match k with
  | .mem =>
    let t := s.bst.mem.target
    (if (s.sub t).role = .spare then s.modSub t fun x => { x with isolated := true } else s.swapSub t s.bst.mem.standin).beginTest .mem
  | .eng =>
    let s := s.moveQuiet
    if (s.ctxsOf s.bst.eng.target).isEmpty then s.beginTest .eng else s

/-! ### Repair (R293) -/

end State

/-- The distinct numbers of a list, ascending. -/
def distinct (n : Nat) (xs : List Nat) : List Nat := (List.range n).filter xs.contains

/-- The repair records of a sub-bank for its failing cells: spare columns for bits that fail in two or more rows, then spare rows;
`cu` and `ru` of them are in use. One record of TYPE 0b00 where they do not cover every cell. -/
def repairFor (t cu ru : Nat) (cells : List (Nat × Nat)) : List Repair :=
  let cols := ((distinct 512 (cells.map (·.2))).filter fun b =>
    1 < (distinct 2048 ((cells.filter fun c => c.2 == b).map (·.1))).length).take (4 - cu)
  let left := cells.filter fun c => !cols.contains c.2
  let rows := (distinct 2048 (left.map (·.1))).take (8 - ru)
  if left.all fun c => rows.contains c.1 then
    cols.mapIdx (fun i b => { kind := 2, unit := t, spare := cu + i, pos := b })
    ++ rows.mapIdx fun i r => { kind := 1, unit := t, spare := ru + i, pos := r }
  else [{ kind := 0, unit := t }]

namespace State

/-- The end of Restore of a memory slice. -/
def restoreMem (s : State) : State :=
  let x := s.bst.mem
  let t := x.target
  let u := s.sub t
  let s := s.modSub t fun y => { y with
    role := if x.res = .fail then .failed else .spare, untested := x.res == .incomplete, isolated := false }
  if x.res = .fail then (repairFor t u.cols u.rows x.cells).foldl (fun s r => s.addRepair t r) s else s

/-- The end of Restore of an engine slice. -/
def restoreEng (s : State) : State :=
  let x := s.bst.eng
  let t := x.target
  let s := s.modEng t fun e => { e with
    role := if x.res = .fail then .retired else .spare, untested := x.res == .incomplete, testing := false }
  if x.res = .fail then s.addRepair t { kind := 3, unit := t } else s

/-! ### FOREGROUND (R292) -/

/-- The next target of FOREGROUND of a kind. -/
def fgPos (s : State) : SliceKind → Nat
  | .mem => s.bst.fgMem
  | .eng => s.bst.fgEng

/-- FOREGROUND goes on with a kind: the next target that can be tested starts; one that is SKIPPED is passed at once. -/
def fgNext (k : SliceKind) : Nat → State → State
  | 0, s => s
  | n + 1, s =>
    let p := s.fgPos k
    if !s.bst.fg ∨ s.bst.fgStop ∨ (s.sliceOf k).st ≠ .idle ∨ kindCount k ≤ p then s else
    let s := s.modBst fun b => match k with | .mem => { b with fgMem := p + 1 } | .eng => { b with fgEng := p + 1 }
    fgNext k n (if s.canTest k p then s.startSlice k p else s)

/-- FOREGROUND goes on, and ends when both kinds are through, or after STOP when the current slices have ended. -/
def fgGoOn (s : State) : State :=
  let s := fgNext .eng 105 (fgNext .mem 1057 s)
  let idle := s.bst.mem.st == .idle && s.bst.eng.st == .idle
  let through := s.bst.fgStop || (1056 ≤ s.bst.fgMem && 104 ≤ s.bst.fgEng)
  if s.bst.fg ∧ idle ∧ through then s.modBst fun b => { b with fg := false, fgStop := false } else s

/-- FOREGROUND stops after its current slices (R305). -/
def fgStops (s : State) : State := (s.modBst fun b => { b with fgStop := true }).fgGoOn

/-- The STOP command, which also cuts off the current slices in Test (Table 13.9). -/
def fgEnd (s : State) : State :=
  let s := if s.bst.mem.st = .test then s.cutNow .mem else s
  (if s.bst.eng.st = .test then s.cutNow .eng else s).fgStops

/-- The end of Restore: the slice is idle again. -/
def restored (s : State) (k : SliceKind) : State :=
  if (s.sliceOf k).st ≠ .restore then s else
  let s := match k with | .mem => s.restoreMem | .eng => s.restoreEng
  ((s.modSlice k fun x => { x with st := .idle, cells := [] }).fgGoOn).runAtLast

/-- A write of BST_CMD (R292). FOREGROUND takes a kind that a slice still holds when that slice ends; given again it starts over (log entry 90). -/
def bstCommand (s : State) (v : Nat) : State :=
  let ign (s : State) : State := s.setF Fld.bstStat_cmd_ign 1
  let k : SliceKind := if bit 11 v then .eng else .mem
  let t := v % 2048
  match v / 2 ^ 30 % 4 with
  | 1 =>
    if s.mode = .service then
      (s.modBst fun b => { b with fg := true, fgMem := 0, fgEng := 0, fgStop := false }).fgGoOn
    else ign s
  | 2 => if s.bst.fg then s.fgEnd.runAtLast else ign s
  | 3 =>
    if (s.mode = .run ∨ s.mode = .service) ∧ (s.sliceOf k).st = .idle ∧ s.canTest k t then s.startSlice k t else ign s
  | _ => s

/-! ### Fuse commands (R295) -/

/-- A fuse command ends with a result. -/
def fuseEnd (s : State) (res : Nat) : State :=
  ((s.setF Fld.bstFuseStat_result res).modBst fun b => { b with burn := none }).runAtLast

/-- A fuse command goes on with its records. -/
def fuseNext (s : State) (rs : List Repair) : State :=
  if rs.isEmpty then s.fuseEnd 1
  else if 1024 ≤ s.bst.fuses.length then s.fuseEnd 5
  else s.modBst fun b => { b with burn := some rs }

/-- A keyed write of BST_FUSE_CMD that takes effect; it has programmed no record yet. Whether VPP_FUSE is present is a free value, for the command
and before each further record. -/
def fuseCommand (s : State) (v : Nat) : State :=
  let op := v / 256 % 4
  if op = 0 ∨ op = 3 ∨ s.bst.burn.isSome then s
  else
    let s := s.setF Fld.bstFuseStat_burned 0
    if s.mode ≠ .service then s.setF Fld.bstFuseStat_result 2
    else if s.free % 2 ≠ 1 then s.draw.setF Fld.bstFuseStat_result 3
    else s.draw.fuseNext
      (if op = 1 then (s.bst.soft ++ s.bst.pendingRec).filter fun r => !s.bst.fuses.contains r
        else [{ kind := 3, unit := v % 128 }])

/-! ### The checker exercise (R284) -/

/-- A keyed write of FLT_CHK_EXERCISE that takes effect. -/
def chkExercise (s : State) (v : Nat) : State :=
  if s.mode ≠ .service ∨ s.flt.exLeft ≠ 0 ∨ 11 < v / 256 % 32 ∨ 1 < v % 4 then s.setF Fld.fltChkStat_ignored 1
  else if bit 31 v then
    s.modFlt fun f => { f with exGroup := v / 256 % 32, exMode := v % 4, exLeft := v / 2 ^ 16 % 256 }
  else s

end State

/-- The slices of a period start, in RUN outside QUIESCING and ENTERING. -/
def State.sliceStart (s : State) : State :=
  let s := s.modBst fun b => { b with startDue := false }
  if s.mode ≠ .run ∨ s.phase ≠ .steady ∨ !s.fb Fld.bstCfg_en then s else
  let s := s.modBst fun b => { b with periods := b.periods + 1 }
  let s := s.periodic .mem
  if s.fb Fld.bstCfg_eng_en ∧ s.bst.periods % s.f Fld.bstCfg_eng_div = 0 then s.periodic .eng else s

/-- SLICE_START (R286): a period elapses; while DROOP_N is asserted the start waits. -/
def execSliceStart (s : State) : Host.Outcome State Fault Refusal :=
  let s := s.start
  .next <|
    if s.pwr.droop then
      (if s.mode = .run ∧ s.phase = .steady ∧ s.fb Fld.bstCfg_en then s.modBst fun b => { b with startDue := true } else s)
    else s.sliceStart

/-- ADAPTATION_RESUME (R300, R286): 2 µs after DROOP_N is sampled high adaptation resumes, and a slice start that waited takes place. -/
def execAdaptationResume (s : State) : Host.Outcome State Fault Refusal :=
  let s := s.start
  .next <|
    if s.pwr.droop then s else
    let s := s.modPwr fun w => { w with adaptFrozen := false }
    if s.bst.startDue then s.sliceStart else s

/-- SLICE_PREPARED (R290). -/
def execSlicePrepared (kind : SliceKind) (s : State) : Host.Outcome State Fault Refusal :=
  let s := s.start
  .next <| if s.works then s.prepared kind else s

/-- SUBBANK_SWAP (R176): the same edge for the memory slice whose copy has been made; Pouncing decides when a sub-bank moves. -/
def execSubbankSwap (target spare : Fin 1056) (s : State) : Host.Outcome State Fault Refusal :=
  let s := s.start
  .next <|
    if s.works ∧ s.bst.mem.st = .prepare ∧ s.bst.mem.target = target.val ∧ s.bst.mem.standin = spare.val
      ∧ (s.sub target.val).role ≠ .spare then s.prepared .mem
    else s

/-- SLICE_TEST_DONE (R289): the completion count is reached, and the slice is judged. -/
def execSliceTestDone (kind : SliceKind) (r : SliceResult) (s : State) : Host.Outcome State Fault Refusal :=
  let s := s.start
  .next <| if s.works ∧ (s.sliceOf kind).st = .test then s.judgeSlice kind { r with count := fullCount kind } else s

/-- SLICE_TIME_LIMIT (R290): the count stays short. -/
def execSliceTimeLimit (kind : SliceKind) (r : SliceResult) (s : State) : Host.Outcome State Fault Refusal :=
  let s := s.start
  .next <|
    if s.works ∧ (s.sliceOf kind).st = .test then s.judgeSlice kind { r with count := min r.count (fullCount kind - 1) } else s

/-- SLICE_RESTORED (R290). -/
def execSliceRestored (kind : SliceKind) (s : State) : Host.Outcome State Fault Refusal :=
  let s := s.start
  .next <| if s.works then s.restored kind else s

/-- FUSE_RECORD_DONE (R295): a record is programmed and verified; a failed verify ends the command with 0x1C5, and the loss of VPP_FUSE ends it
before the next record. A command runs in SERVICE only. -/
def execFuseRecordDone (ok : Bool) (s : State) : Host.Outcome State Fault Refusal :=
  let s := s.start
  .next <|
    if s.mode ≠ .service then s else
    match s.bst.burn with
    | none => s
    | some [] => s.fuseEnd 1
    | some (r :: rs) =>
      if ok then
        let s := (s.modBst fun b => { b with fuses := b.fuses ++ [r] }).incF Fld.bstFuseStat_burned
        if rs.isEmpty then s.fuseEnd 1 else if s.free % 2 ≠ 1 then s.draw.fuseEnd 3 else s.draw.fuseNext rs
      else (s.fuseEnd 4).raise 0x1C5 r.unit

namespace State

/-! ### Instruction retries (R162) -/

/-- A retry of the instruction of a context passes, or fails; the third that fails retires the engine. Of a context that is being moved a fault is
counted and captured, and the move is not started again (R279). -/
def retried (s : State) (n : Nat) (c : Ctx) (passes : Bool) : State :=
  if c.eng = 0x7F then s
  else if passes then
    ((s.modCtx n fun c => { c with retries := 0 }).incF Fld.engCnt_retries).raise 0x080 c.eng (some c.inst) c.je
  else if c.moving then s
  else if c.retries < 2 then s.modCtx n fun c => { c with retries := c.retries + 1 }
  else ((s.modCtx n fun c => { c with retries := 0 }).retire c.eng).fgGoOn

/-- An exercise of an engine's checkers at an instruction (R284, Table 13.6): each run of the instruction is a check, so four inverted checks in a
row are a persistent failure, and fewer a retry that passes; one inverted bit of the data store is repaired. -/
def engExercise (s : State) (k n : Nat) : State :=
  match s.ctx? n with
  | none => s
  | some c =>
    if s.exOn 4 ∧ s.flt.exMode = 1 then (s.dsRepair k (s.free % 256)).draw
    else if s.exOn 4 ∨ s.exOn 5 ∨ s.exOn 6 then
      let j := min 4 s.flt.exLeft
      let s := s.modFlt fun f => { f with exLeft := f.exLeft - j }
      if j = 4 then (s.retire k).fgGoOn else s.retried n c true
    else s

end State

/-- INSTRUCTION_RETRY (R162, R163): a retry of the instruction that the operation's context runs passes, or fails. -/
def execInstructionRetry (je : Fin 4194304) (passes : Bool) (s : State) : Host.Outcome State Fault Refusal :=
  let s := s.start
  .next <|
    if !s.works then s else
    match s.ctxOf je.val with
    | none => s
    | some (n, c) => (((s.exUse 4).exUse 5).exUse 6).retried n c passes

/-- ENGINE_ISSUE_CYCLE (R159): what the instruction does is the commands' that name it (log entry 26). -/
def execEngineIssueCycle (eng : Fin 104) (s : State) : Host.Outcome State Fault Refusal :=
  let s := s.start
  .next <|
    if s.works ∧ !s.engMasked eng.val ∧ s.mode ≠ .doze then
      let r := s.issueCycle eng.val
      match r.1 with
      | some n => r.2.engExercise eng.val n
      | none => r.2
    else s

/-- ALIVE_TOGGLE (R282): each level lasts 200 AON cycles. -/
def execAliveToggle (s : State) : Host.Outcome State Fault Refusal :=
  let s := s.start
  .next <|
    if s.flt.aliveRun then (s.modFlt fun f => { f with aliveLevel := !f.aliveLevel }).emit (.alive (!s.flt.aliveLevel)) else s

/-- LIVENESS_TOKEN (R283): sent in every mode except RESET and HALT. -/
def execLivenessToken (s : State) : Host.Outcome State Fault Refusal :=
  let s := s.start
  .next <| if s.works then s.modFlt fun f => { f with lastToken := s.ts } else s

/-- LIVENESS_TIMEOUT (R283): two tokens have been missed; ALIVE holds its level until PERST_N, and a collector that still runs raises
0x183. -/
def execLivenessTimeout (collectorRuns : Bool) (s : State) : Host.Outcome State Fault Refusal :=
  let s := s.start
  .next <|
    if !s.works then s else
    let s := (s.incF Fld.fltAlive_misses 0 2).modFlt fun f => { f with aliveRun := false }
    if collectorRuns then s.raise 0x183 else s

end Sys2Proof.Machine
end

