-- ==== Sys2Proof/Machine/Modes.lean ====
section
/-! DEFINITION. Mode requests and transitions (R305 to R311). -/

namespace Sys2Proof.Machine

namespace State

/-- A rejected mode request (R306). -/
def rejectMode (s : State) (cause t : Nat) : State :=
  (((s.setF Fld.pwrModeStat_req_rej 1).setF Fld.pwrModeStat_rej_cause cause).setF Fld.pwrModeStat_rej_target t).incF
    Fld.pwrModeCnt_rejects

/-- A DOZE entry abandoned in QUIESCING (Table 14.5). -/
def abandonQuiesce (s : State) : State :=
  { (s.incF Fld.pwrModeCnt_abandons).setF Fld.pwrModeStat_req_rej 1 with phase := .steady }

/-- A request for DOZE that is permitted: quiescing starts, and running slices are cut short (R286, R307). -/
def startQuiesce (s : State) : State :=
  ((({ s with phase := .quiescing } : State).modBst fun b => { b with startDue := false }).cutSlice .mem).cutSlice .eng

/-- A request for DOZE (R306, Table 14.5). -/
def requestDoze (s : State) : State :=
  match s.mode, s.phase with
  | .run, .steady => s.startQuiesce
  | .run, .entering => s.rejectMode 2 3
  | .load, _ => s.rejectMode 2 3
  | .service, _ => s.rejectMode 1 3
  | _, _ => s

/-- A request for RUN in SERVICE: FOREGROUND stops, and RUN follows when the running slices and fuse command have ended. -/
def leaveService (s : State) : State :=
  if s.pwr.rescue then s.rejectMode 3 2
  else if s.pwr.runAfterFg then s
  else
    let s := s.modPwr fun w => { w with runAfterFg := true }
    (if s.bst.fg then s.fgStops else s).runAtLast

/-- A request for RUN (R306, R309, Table 14.5). -/
def requestRun (s : State) : State :=
  match s.mode, s.phase with
  | .run, .quiescing => s.abandonQuiesce
  | .run, .entering => s.exitSeen 1 0
  | .doze, .steady => s.exitSeen 1 0
  | .doze, _ => s.rejectMode 2 2
  | .load, _ => s.rejectMode 2 2
  | .service, _ => s.leaveService
  | _, _ => s

/-- A request for SERVICE (R306, Table 14.5). -/
def requestService (s : State) : State :=
  match s.mode, s.phase with
  | .run, .steady =>
    ({ s with mode := .service }.modPwr fun w => { w with runAfterFg := false }).modBst fun b => { b with startDue := false }
  | .run, .quiescing => s.rejectMode 1 4
  | .run, _ => s.rejectMode 2 4
  | .doze, _ => s.rejectMode 1 4
  | .load, _ => s.rejectMode 2 4
  | _, _ => s

/-- A mode request takes effect (R306). In RESET and HALT no write of GLB_MODE_REQ is performed (R312); TARGET 0 requests nothing. -/
def modeRequest (s : State) (t : Nat) : State :=
  if s.mode = .reset ∨ s.mode = .halt then s else
  match t with
  | 0 => s
  | 2 => s.requestRun
  | 3 => s.requestDoze
  | 4 => s.requestService
  | _ => s.rejectMode 1 t

/-! ### DOZE -/

/-- Quiescence (R307). -/
def quiescentNow (s : State) : Bool :=
  s.jnl.entries.all (fun e => e.2.st == .error)
  && s.ctxs.isEmpty
  && (List.range 1024).all (fun k => s.f Fld.qStat_state k == 0 || s.f Fld.qStat_inflight k == 0 && s.f Fld.sqHead_head k == s.f Fld.sqDb_tail k)
  && s.mgt.cmd.isNone && !s.mgt.fetching && s.insts.all (fun x => x.2.owed.isEmpty) && s.cmp.mboxes.isEmpty
  && s.bst.mem.st == .idle && s.bst.eng.st == .idle && s.hubEmpty

/-- Whether an enabled watch slot names a port (R317). -/
def watched (s : State) (p : Nat) : Bool := (List.range 16).any fun k => s.fb Fld.kstWatch_en k && s.f Fld.kstWatch_port k == p

/-- DOZE entry at a link (Table 3.13): an UP link is asked to go QUIET. -/
def quietLink (s : State) (l : Nat) : State :=
  if (s.link l).st = .up then (s.modLink l fun k => { k with quietReq := true }).sendCtl l 2 else s

/-- DOZE entry at a port that is no watch port (Table 4.17). -/
def dozePort (s : State) (p : Nat) : State :=
  if s.watched p then s else
  match (s.port p).st with
  | .down | .train => s.sleepPort p
  | .up => (s.modPort p fun q => { q with sleepPend := true }).settleSleep p
  | _ => s

/-- The entry steps start (R308): links, ports, and the power-down of engines and Hub ports. -/
def startEntering (s : State) : State :=
  let s : State := { s with phase := .entering }
  let s := (s.quietLink 0).quietLink 1
  let s := (List.range 104).foldl (fun s e => s.queueDown (.eng e)) s
  let s := (List.range 24).foldl (fun s h => s.queueDown (.hub h)) s
  ((List.range 144).filter s.isLead).foldl (fun s p => s.dozePort p) s

/-- Whether a Hub port is powered. -/
def hubUp (s : State) : Bool := (List.range 24).any fun h => s.pwr.up.contains (.hub h)

/-- Whether every Hub port is usable. -/
def hubAllUp (s : State) : Bool := (List.range 24).all fun h => s.pwr.up.contains (.hub h)

end State

/-- MODE_REQ_DOZE (R306). -/
def execModeReqDoze (s : State) : Host.Outcome State Fault Refusal := .next (s.start.modeRequest 3)

/-- MODE_REQ_RUN (R306). -/
def execModeReqRun (s : State) : Host.Outcome State Fault Refusal := .next (s.start.modeRequest 2)

/-- MODE_REQ_SERVICE (R306). -/
def execModeReqService (s : State) : Host.Outcome State Fault Refusal := .next (s.start.modeRequest 4)

/-- MODE_REQ_INVALID (R306): a request for a mode that cannot be requested. The codes of RUN, DOZE and SERVICE are no such request. -/
def execModeReqInvalid (t : BitVec 3) (s : State) : Host.Outcome State Fault Refusal :=
  let s := s.start
  .next <| if t = 2 ∨ t = 3 ∨ t = 4 then s else s.modeRequest t.toNat

/-- QUIESCENT (R307). -/
def execQuiescent (s : State) : Host.Outcome State Fault Refusal :=
  let s := s.start
  .next <| if s.mode = .run ∧ s.phase = .quiescing ∧ s.quiescentNow then s.startEntering else s

/-- QUIESCE_TIMEOUT (R305): the entry is abandoned with REJ_CAUSE 0b100. -/
def execQuiesceTimeout (s : State) : Host.Outcome State Fault Refusal :=
  let s := s.start
  .next <|
    if s.mode = .run ∧ s.phase = .quiescing then
      (s.abandonQuiesce.setF Fld.pwrModeStat_rej_cause 4).setF Fld.pwrModeStat_rej_target 3
    else s

/-- DOZE_ENTERED (R308): the last Hub port has powered down, and the Hub is gated. -/
def execDozeEntered (s : State) : Host.Outcome State Fault Refusal :=
  let s := s.start
  .next <|
    if s.mode = .run ∧ s.phase = .entering ∧ !s.hubUp ∧ s.hubEmpty then
      ({ s with mode := .doze, phase := .steady }.incF Fld.pwrModeCnt_doze_entries).modPwr fun w =>
        { w with coreGated := true, engGated := true }
    else s

/-- CLOCKS_UNGATED (R310): CORE and ENG run, the exit wakes are queued, the C0 bucket is full, and the Hub starts fresh. -/
def execClocksUngated (s : State) : Host.Outcome State Fault Refusal :=
  let s := s.start
  .next <|
    if s.mode = .doze ∧ s.phase = .exiting ∧ s.pwr.coreGated then
      let d := s.c0Depth
      ((s.modPwr fun w => { w with coreGated := false, engGated := false, c0Bucket := d }).queueExitWakes).hubFresh
    else s

/-- RUN is reached after DOZE (R310): links retrain to full width, and sleeping ports train. -/
def State.reachRun (s : State) : State :=
  (({ s with mode := .run, phase := .steady }.wakeLink 0).wakeLink 1).wakePorts

end Sys2Proof.Machine
end

