-- ==== Sys2Proof/Machine/Kick.lean ====
section
/-! DEFINITION. The Kickstand's samples and rules (R313 to R318). -/

namespace Sys2Proof.Machine

namespace State

/-- The state of a rule. -/
def rule (s : State) (r : Nat) : RuleSt := FMap.get {} r s.kst.rules

/-- Changes the state of a rule. -/
def modRule (s : State) (r : Nat) (g : RuleSt → RuleSt) : State := s.modKst fun k => { k with rules := FMap.mod {} r g k.rules }

/-- Whether ARG ms have passed since the last pulse of a timer rule. -/
def timerDue (s : State) (r : Nat) : Bool := 1000 * s.f Fld.kstRuleIn_arg r ≤ s.kst.now - (s.rule r).lastPulse

/-- Whether a port's signal detector works: on every port that is not OFF (R313). -/
def detects (s : State) (p : Nat) : Bool := s.f Fld.gptCfg_bond p != 3 && (s.port (s.f Fld.gptCfg_lead p)).st != .off

/-- The sample of a rule's input (Table 14.9), before inversion. -/
def ruleSample (s : State) (k : KickIn) (r : Nat) : Bool :=
  let sel := s.f Fld.kstRuleIn_sel r
  let arg := s.f Fld.kstRuleIn_arg r
  match s.f Fld.kstRuleIn_src r with
  | 1 => bit sel k.sbi.toNat
  | 2 => s.mode != .reset && (List.range 12).any fun j => bit j arg && bit (12 * sel + j) k.sigDet.toNat && s.detects (12 * sel + j)
  | 3 => s.fb Fld.kstWatch_en sel && s.tbl.dvt.any fun e =>
      let d := deviceOf e.2
      d.v && d.wake && d.port == s.f Fld.kstWatch_port sel && (s.dn e.1).lastAttn
  | 4 => s.fb Fld.pwrTemp_valid sel && decide (((arg % 128 : Nat) : Int) ≤ degrees (s.f Fld.pwrTemp_temp sel))
  | 5 => s.pwr.droopPin
  | 6 => !k.twakeN
  | 7 => s.kst.trig.contains r
  | 8 => s.timerDue r
  | _ => false

/-- The bit of KST_RULE_ACT.MODES for the current mode; LOAD and RESET have none. -/
def modeBit (s : State) : Option Nat :=
  match s.mode with
  | .halt => some 0
  | .run => some 1
  | .doze => some 2
  | .service => some 3
  | _ => none

/-- The Kickstand alert EVENT (R316). -/
def kickEvent (s : State) (r act : Nat) : State :=
  if s.fb Fld.kstEv_en ∧ (s.mode = .run ∨ s.mode = .service) then
    (s.addXfer 24 (2 * s.route (s.f Fld.fltEvDest_link)) 1 0 8 .none).sendMsg (s.f Fld.fltEvDest_link) (s.f Fld.fltEvDest_vc) (s.f Fld.fltEvDest_dest) 1
      (s.f Fld.kstEv_vector * 65536 + 8 * 256)
      (natBytes 4 (act * 2 ^ 30 + r * 2 ^ 25 + s.f Fld.kstRuleIn_src r * 2 ^ 21 + s.f Fld.kstRuleIn_sel r * 2 ^ 13)
        ++ natBytes 4 s.ts)
  else s

/-- WAKE goes out on TL0, or on TL1 when only that link is UP or QUIET (R64). -/
def sendWake (s : State) (r : Nat) : State :=
  match [0, 1].find? fun l => (s.link l).flows with
  | some l => s.sendMsg l (s.f Fld.tlkWakeDest_vc) (s.f Fld.tlkWakeDest_dest) 2 r []
  | none => s

/-- A record of the Kickstand log. -/
def kickLog (s : State) (r act : Nat) : State :=
  let i := s.f Fld.kstLogHead_next
  ((((((s.setF Fld.kstLogA_valid 1 i).setF Fld.kstLogA_action act i).setF Fld.kstLogA_rule r i).setF Fld.kstLogA_mode
    (modeCode s.mode) i).setF Fld.kstLogB_ts s.ts i)).setF Fld.kstLogHead_next (i + 1)

/-- A rule fires (R315). -/
def fireRule (s : State) (r : Nat) : State :=
  let s := s.setReg .kstFired 0 (s.reg .kstFired ||| BitVec.ofNat 32 (2 ^ r))
  match s.modeBit with
  | none => s
  | some b =>
    if !bit b (s.f Fld.kstRuleAct_modes r) then s else
    let act := s.f Fld.kstRuleAct_action r
    let s := s.kickLog r act
    match act with
    | 1 => ((if s.mode = .halt then s else s.sendWake r).exitSeen 2 r)
    | 2 =>
      let m := BitVec.ofNat 32 (2 ^ r)
      ((s.setReg .kstAlert 0 (s.reg .kstAlert ||| m)).modKst fun k => { k with alertNew := k.alertNew ||| m }).kickEvent r 2
    | _ => s.kickEvent r 0

/-- `rule_tick` (R313) for an enabled rule. -/
def ruleTick (s : State) (k : KickIn) (r : Nat) : State :=
  if !s.fb Fld.kstRuleIn_en r then s else
  let raw := s.ruleSample k r
  let src := s.f Fld.kstRuleIn_src r
  let s := if src = 8 ∧ raw then s.modRule r fun x => { x with lastPulse := s.kst.now } else s
  let now := s.kst.now
  let s := s.modRule r fun x => if x.opened ∧ x.wend ≤ now then { x with opened := false, cnt := 0 } else x
  let v := raw != s.fb Fld.kstRuleIn_inv r
  let x := s.rule r
  let deb := if src = 7 ∨ src = 8 then 1 else max (s.f Fld.kstRuleDeb_deb r) 1
  if v = x.lvl then s.modRule r fun x => { x with run := 0 }
  else if x.run + 1 < deb then s.modRule r fun x => { x with run := x.run + 1 }
  else
    let s := s.modRule r fun x => { x with lvl := v, run := 0 }
    if !v then s else
    let w := s.f Fld.kstRuleDeb_window r * (if s.fb Fld.kstRuleDeb_wunit r then 1000 else 1)
    let s := s.modRule r fun x =>
      let x := if x.cnt = 0 then { x with opened := true, wend := now + w } else x
      { x with cnt := x.cnt + 1 }
    if s.f Fld.kstRuleDeb_thresh r ≤ (s.rule r).cnt then
      (s.fireRule r).modRule r fun x => { x with cnt := 0, opened := false }
    else s

/-- The debounced level of a sideband input (R314). -/
def sbiLevel (s : State) (k : KickIn) (n : Nat) : Bool :=
  match (List.range 32).find? fun r => s.fb Fld.kstRuleIn_en r && s.f Fld.kstRuleIn_src r == 1 && s.f Fld.kstRuleIn_sel r == n with
  | some r => (s.rule r).lvl
  | none => bit n k.sbi.toNat

/-- The debounced level of a sideband input is taken; a change is an attention sample for the DN that it feeds (R101). -/
def sbiStep (k : KickIn) (s : State) (n : Nat) : State :=
  let v := s.sbiLevel k n
  let old := s.f Fld.kstSbi_deb
  if v = bit n old then s else
  let s := s.setF Fld.kstSbi_deb (if v then old + 2 ^ n else old - 2 ^ n)
  if s.fb Fld.gptSbiMap_en n then s.attnSample (s.f Fld.gptSbiMap_dn n) v (some n) [] else s

/-- TWAKE_N low in two samples in a row in DOZE or ENTERING is an exit cause (R318). -/
def twakeStep (s : State) (k : KickIn) : State :=
  if !s.asleep ∨ k.twakeN then s.modKst fun x => { x with twakeLow := 0 }
  else if s.kst.twakeLow = 0 then s.modKst fun x => { x with twakeLow := 1 }
  else (s.modKst fun x => { x with twakeLow := 0 }).exitSeen 3 0

end State

/-- KICKSTAND_SAMPLE (R313, R314, R318): one sample of 1 µs. Sideband inputs are sampled in every mode. -/
def execKickstandSample (k : KickIn) (s : State) : Host.Outcome State Fault Refusal :=
  let s := s.start
  .next <|
    let s := (s.modKst fun x => { x with now := x.now + 1 }).setF Fld.kstSbi_raw k.sbi.toNat
    let s := (List.range 32).foldl (fun s r => s.ruleTick k r) s
    let s := s.modKst fun x => { x with trig := [] }
    ((List.range 16).foldl (State.sbiStep k) s).twakeStep k

end Sys2Proof.Machine
end

