-- ==== Sys2Proof/Machine/Strobe.lean ====
section
/-! DEFINITION. The update strobe (R29 to R31): what each block checks, and the commit of its shadows on one edge. -/

namespace Sys2Proof.Machine

/-- Results of a strobe for a listed block (R31). -/
inductive UpdRes
  | all | some | none
  deriving DecidableEq, Repr

/-- The code of a result in UPD_STATUS (R31). -/
def UpdRes.code : UpdRes → Nat
  | .all => 1
  | .some => 2
  | .none => 3

/-- The result of a block that commits all but the units that failed. -/
def unitsRes (anyFailed : Bool) : UpdRes := if anyFailed then .some else .all

/-- The result of a block that commits all or nothing. -/
def wholeRes (ok : Bool) : UpdRes := if ok then .all else .none

/-- A number whose set bits are the members of a list. -/
def bitSet (xs : List Nat) : Nat := xs.foldl (fun m x => Nat.lor m (2 ^ x)) 0

namespace State

/-- A field of a pending value. -/
def fs (s : State) (x : Fld) (i : Nat := 0) : Nat := bits x.hi x.lo (s.shadowReg x.id i).toNat

/-- A pending value takes the place of the committed one in the RWS bits of a register (R29). -/
def commitReg (s : State) (id : RegId) (i : Nat) : State :=
  let m := id.row.rws
  s.setReg id i ((s.reg id i &&& ~~~ m) ||| (s.shadowReg id i &&& m))

/-- The offsets of a block at which a committed or a pending value is listed; elsewhere both are the reset value. -/
def listedIn (s : State) (b : Block) : List Nat :=
  (s.shadow.map (·.1) ++ s.regs.map (·.1)).filter fun k => b.base ≤ k && k < b.base + b.size

/-- Commits the shadows of a block, but for the units that `skip` names. -/
def commitBlock (s : State) (b : Block) (skip : RegId → Nat → Bool := fun _ _ => false) : State :=
  (s.listedIn b).foldl (fun s k =>
    match regAt k with
    | none => s
    | some (id, i) => if skip id i then s else s.commitReg id i) s

/-! ### Checks -/

/-- TLK (R72). -/
def tlkOk (s : State) : Bool :=
  5 ≤ s.fs Fld.tlkCplTimeout_limit && 10 ≤ s.fs Fld.tlkDownLimit_limit && s.fs Fld.tlkDownLimit_limit ≤ 1000
  && s.fs Fld.tlkCtl_min_width 0 != 3 && s.fs Fld.tlkCtl_min_width 1 != 3

/-- One page of GPT (R105). -/
def gptPageOk (s : State) (p : Nat) : Bool :=
  let within (lo hi v : Nat) : Bool := lo ≤ v && v ≤ hi
  within 1 10000 (s.fs Fld.gptExchTo_limit p) && within 10 10000 (s.fs Fld.gptLockTo_limit p)
  && s.fs Fld.gptRetryCtl_retry_limit p != 0 && s.fs Fld.gptCollCtl_rsv_time p != 0
  && within 1 1000 (s.fs Fld.gptDownHold_hold p)

/-- One signal-map profile (R154). -/
def smapOk (s : State) (p : Nat) : Bool :=
  (List.range 8).all fun f =>
    let i := 8 * p + f
    s.fs Fld.gptSmapFld_en i == 0
    || (1 ≤ s.fs Fld.gptSmapFld_width i && s.fs Fld.gptSmapFld_width i ≤ 32
        && s.fs Fld.gptSmapFld_bit i + s.fs Fld.gptSmapFld_width i ≤ 128)

/-- ENG (R179). -/
def engOk (s : State) : Bool := 1 ≤ s.fs Fld.engC0Cap_pct && s.fs Fld.engC0Cap_pct ≤ 50

/-- HUB_ARB_CFG (R201). -/
def hubArbOk (s : State) : Bool :=
  1 ≤ s.fs Fld.hubArbCfg_step && s.fs Fld.hubArbCfg_base3 < s.fs Fld.hubArbCfg_base2
  && s.fs Fld.hubArbCfg_base2 < s.fs Fld.hubArbCfg_base1 && s.fs Fld.hubArbCfg_base1 ≤ 240

/-- HUB_C0_PORTp (R201). -/
def hubPortOk (s : State) (p : Nat) : Bool :=
  1 ≤ s.fs Fld.hubC0Port_rate p && s.fs Fld.hubC0Port_rate p ≤ 64 && 5 ≤ s.fs Fld.hubC0Port_depth p
  && s.fs Fld.hubC0Port_depth p ≤ 10

/-- CMP (R237). -/
def cmpOk (s : State) : Bool := s.fs Fld.cmpFuCfg_strategy != 3

/-- BST (R297). -/
def bstOk (s : State) : Bool :=
  100 ≤ s.fs Fld.bstCfg_period && s.fs Fld.bstCfg_period ≤ 60000 && s.fs Fld.bstCfg_eng_div != 0
  && s.fs Fld.bstCeThresh_thresh != 0

/-- PWR (R325). -/
def pwrOk (s : State) : Bool :=
  let b := s.fs Fld.pwrSlew_budget
  let p := s.fs Fld.pwrSlew_c0_pct
  let d := s.fs Fld.pwrSlew_c0_depth
  let idle := s.fs Fld.pwrGate_eng_idle
  1 ≤ b && b ≤ 64 && p ≤ 50 && 6 ≤ d && d ≤ 64 && (idle == 0 || ceilDiv 11360 ((100 - p) * b) ≤ idle)
  && s.fs Fld.pwrDozeCfg_quiesce_to != 0 && 10 ≤ s.fs Fld.pwrCalCfg_tx_period && s.fs Fld.pwrCalCfg_tx_period ≤ 10000
  && s.fs Fld.pwrAvsCfg_lowt_step ≤ 20

/-- One enabled rule of the Kickstand (R326, Table 14.9). -/
def ruleOk (s : State) (r : Nat) : Bool :=
  let src := s.fs Fld.kstRuleIn_src r
  let sel := s.fs Fld.kstRuleIn_sel r
  s.fs Fld.kstRuleIn_en r == 0
  || (s.fs Fld.kstRuleAct_action r != 3 && 1 ≤ src && src ≤ 8
      && (if src = 1 ∨ src = 3 then sel < 16 else if src = 2 then sel < 12 else if src = 4 then sel < 8 else true)
      && s.fs Fld.kstRuleDeb_thresh r != 0 && (src != 8 || s.fs Fld.kstRuleIn_arg r != 0))

/-- One watch slot (R326); two enabled slots that name one port both fail (log entry 31). -/
def watchOk (s : State) (k : Nat) : Bool :=
  let p := s.fs Fld.kstWatch_port k
  s.fs Fld.kstWatch_en k == 0
  || (s.isLead p && s.fb Fld.gptCfg_watch p
      && !(List.range 16).any fun j => j != k && s.fs Fld.kstWatch_en j != 0 && s.fs Fld.kstWatch_port j == p)

/-! ### Commits, each with its result. The argument is the state whose shadows were checked. -/

/-- FLT: EV_EN of every source (R296), and the rest. -/
def strobeFlt (s : State) : State × UpdRes :=
  ((s.commitBlock .flt).modFlt fun f => { f with evEn := f.evEnSh }, .all)

/-- Whether a page is the one that controls and reports its logical port (R105): not that of another member of a bonded port. -/
def pageLeads (s : State) (p : Nat) : Bool := s.f Fld.gptCfg_bond p == 3 || s.f Fld.gptCfg_lead p == p

/-- GPT: pages and profiles that fail keep their old values (R105, R154). UPD_REJ of each page tells whether this strobe rejected it; the
pages of the other members of a bonded port keep it at 0. -/
def strobeGpt (s : State) : State × UpdRes :=
  let pages := (List.range 144).filter fun p => !s.gptPageOk p
  let maps := (List.range 64).filter fun p => !s.smapOk p
  let skip (id : RegId) (i : Nat) : Bool :=
    match id with
    | .gptExchTo | .gptLockTo | .gptRetryCtl | .gptCollCtl | .gptDownHold => pages.contains i
    | .gptSmapFld | .gptSmapScale | .gptSmapOfs => maps.contains (i / 8)
    | _ => false
  let t := s.commitBlock .gpt skip
  let t := ((List.range 144).filter s.pageLeads).foldl (fun t p => t.setF Fld.gptStat_upd_rej (b2n (pages.contains p)) p) t
  (t.setPair Fld.gptSmapRejLo_rej Fld.gptSmapRejHi_rej (bitSet maps), unitsRes (!pages.isEmpty || !maps.isEmpty))

/-- A port bucket keeps its tokens, capped at the new depth (R196); `used` counts units of 1/256 token below the depth. -/
def recapPort (s : State) (old : Nat → Nat) (p : Nat) : State :=
  let d := 256 * s.f Fld.hubC0Port_depth p
  { s with hub := { s.hub with used := FMap.mod 0 p (fun u => d - min d (256 * old p - u)) s.hub.used } }

/-- HUB (R201). -/
def strobeHub (s : State) : State × UpdRes :=
  let bad := (List.range 23).filter fun p => !s.hubPortOk p
  let s := s.setF Fld.hubC0Rej_rej (bitSet bad)
  if !s.hubArbOk then (s, .none) else
  let t := s.commitBlock .hub fun id i => id == .hubC0Port && bad.contains i
  ((List.range 23).foldl (fun t p => t.recapPort (fun p => s.f Fld.hubC0Port_depth p) p) t, unitsRes (!bad.isEmpty))

/-- KST (R326). -/
def strobeKst (s : State) : State × UpdRes :=
  let rules := (List.range 32).filter fun r => !s.ruleOk r
  let slots := (List.range 16).filter fun k => !s.watchOk k
  let t := s.commitBlock .kst fun id i =>
    match id with
    | .kstRuleIn | .kstRuleDeb | .kstRuleAct => rules.contains i
    | .kstWatch => slots.contains i
    | _ => false
  ((t.setF Fld.kstRej_rules (bitSet rules)).setF Fld.kstRejW_slots (bitSet slots), unitsRes (!rules.isEmpty || !slots.isEmpty))

/-- GATE (R250). -/
def strobeGate (s : State) : State × UpdRes :=
  let bad := s.failedGates
  let t := s.commitBlock .gate fun id i =>
    match id with
    | .gateRgnCtl | .gateRgnIdVal | .gateRgnIdMask | .gateRgnBaseLo | .gateRgnBaseHi | .gateRgnLimitLo | .gateRgnLimitHi =>
      bad.any fun b => b.1 == i / 64
    | _ => false
  let t := (List.range 5).foldl (fun t m =>
    t.setReg .gateRej m (BitVec.ofNat 32 (bitSet ((bad.filter fun b => b.1 / 32 == m).map fun b => b.1 % 32)))) t
  let t := match bad with
    | [] => t.setReg .gateRejInfo 0 0
    | (g, c, a, b) :: _ =>
      ((((t.setF Fld.gateRejInfo_valid 1).setF Fld.gateRejInfo_cause c).setF Fld.gateRejInfo_gate g).setF
        Fld.gateRejInfo_rgn_a a).setF Fld.gateRejInfo_rgn_b b
  (t, unitsRes (!bad.isEmpty))

/-- The entries that a check fails, as UPD_TBL_STAT and UPD_TBL_REJ report them (R125). -/
def tellRej (s : State) (n valid idx : Fld) (failed : List Nat) : State :=
  ((s.setF n failed.length).setF valid (b2n (!failed.isEmpty))).setF idx ((listMin failed).getD 0)

/-- WTT (R120, R121). -/
def strobeWtt (s : State) : State × UpdRes :=
  let t := s.tbl
  if t.wttOvf then (s.tellRej Fld.updTblStat_wtt_rej Fld.updTblRejWtt_valid Fld.updTblRejWtt_index [], .none) else
  let failed := checkTable (·.v) s.wttOk wttConflict windowOf t.wtt t.wttPend
  let done := (t.wttPend.map (·.1)).filter fun k => !failed.contains k
  let s := s.modTbl fun u => { u with
    wtt := commitTable wttRejBit u.wtt u.wttPend failed
    wttPend := u.wttPend.filter fun p => failed.contains p.1
    wttBad := u.wttBad.filter fun k => !done.contains k }
  (s.tellRej Fld.updTblStat_wtt_rej Fld.updTblRejWtt_valid Fld.updTblRejWtt_index failed, unitsRes (!failed.isEmpty))

/-- A commit changed V, PORT or DADDR of a DN (R122): its poll state restarts in WAIT and its attention state is CLEAR, unmuted. -/
def dnMoved (s : State) (n : Nat) : State :=
  ({ s with ports := s.ports.map fun p => (p.1, { p.2 with queue := p.2.queue.filter fun y => !(y.2.kind == .poll && y.2.dn == n) }) } : State)
    |>.modDn n fun d => { d with poll := .wait, attn := .clear, ackFor := none }

/-- A commit of a DN's DVT entry: its digests start anew (R149), and a change of STORM applies from the next 1 ms interval (R122). -/
def dnCommitted (s : State) (old : Device) (n : Nat) : State :=
  let iv := s.msNow
  let changed := decide ((s.device n).storm ≠ old.storm)
  s.modDn n fun d =>
    { d with
      digSeq := 0, digLast := none
      storm := if changed && !(match d.storm with | some x => x.1 == iv | none => false) then some (iv, old.storm) else d.storm }

/-- DVT (R120 to R122). -/
def strobeDvt (s : State) : State × UpdRes :=
  let t := s.tbl
  if t.dvtOvf then (s.tellRej Fld.updTblStat_dvt_rej Fld.updTblRejDvt_valid Fld.updTblRejDvt_index [], .none) else
  let failed := checkTable (·.v) s.dvtOk dvtConflict deviceOf t.dvt t.dvtPend
  let done := (t.dvtPend.map (·.1)).filter fun k => !failed.contains k
  let s' := s.modTbl fun u => { u with
    dvt := commitTable dvtRejBit u.dvt u.dvtPend failed
    dvtPend := u.dvtPend.filter fun p => failed.contains p.1
    dvtBad := u.dvtBad.filter fun k => !done.contains k }
  let moved := done.filter fun n =>
    let a := deviceOf (s.dvtAt n)
    let b := deviceOf (s'.dvtAt n)
    a.v != b.v || a.port != b.port || a.daddr != b.daddr
  let s' := done.foldl (fun t n => t.dnCommitted (deviceOf (s.dvtAt n)) n) s'
  let s := (moved.foldl (fun s n => s.dnMoved n) s').pollsStop
  (s.tellRej Fld.updTblStat_dvt_rej Fld.updTblRejDvt_valid Fld.updTblRejDvt_index failed, unitsRes (!failed.isEmpty))

/-- A block whose checks pass or fail as a whole. -/
def strobeWhole (s : State) (b : Block) (ok : Bool) : State × UpdRes := if ok then (s.commitBlock b, .all) else (s, .none)

/-- The strobe of the block with a mask bit (Table 2.4). -/
def strobeBit (s : State) (b : Nat) : State × UpdRes :=
  match b with
  | 0 => s.strobeFlt
  | 1 => s.strobeWhole .bst s.bstOk
  | 2 => let r := s.strobeWhole .pwr s.pwrOk; (r.1.modPwr fun w => { w with c0Bucket := min r.1.c0Depth w.c0Bucket }, r.2)
  | 3 => s.strobeKst
  | 4 => s.strobeHub
  | 5 => s.strobeWhole .tlk s.tlkOk
  | 6 => s.strobeWhole .jnl true
  | 7 => s.strobeWhole .eng s.engOk
  | 8 => s.strobeWhole .cmp s.cmpOk
  | 9 => s.strobeGpt
  | 10 => s.strobeWtt
  | 11 => s.strobeDvt
  | _ => s.strobeGate

/-- The commit of a strobe with a mask (R30): every listed block, UPD_STATUS and UPD_COUNT. -/
def commitMask (s : State) (mask : Nat) : State :=
  let r := (List.range 13).foldl (fun (a : State × Nat) b =>
    if bit b mask then let x := a.1.strobeBit b; (x.1, a.2 + x.2.code * 4 ^ b) else a) (s, 0)
  (r.1.setF Fld.updStatus_result r.2).setF Fld.updCount_strobes (r.1.f Fld.updCount_strobes + 1)

/-- Whether every block that has checks would pass them (R335, check 7). -/
def strobesPass (s : State) : Bool :=
  s.tlkOk && (List.range 144).all s.gptPageOk && (List.range 64).all s.smapOk && s.engOk && s.hubArbOk
  && (List.range 23).all s.hubPortOk && s.cmpOk && s.bstOk && s.pwrOk && (List.range 32).all s.ruleOk
  && (List.range 16).all s.watchOk
  && (List.range 150).all fun g => (gateFail g (enabledRegions s.shadow g)).isNone

end State

end Sys2Proof.Machine
end

