-- ==== Sys2Proof/Machine/Image.lean ====
section
/-! DEFINITION. The Hasum image (R330 to R335): its header, directory and sections, the checks of Table 15.4, and what its contents set. -/

namespace Sys2Proof.Machine

/-! ### The form of an image -/

/-- LENGTH, NSECT, SVN and IMAGE_ID of a header (Table 15.2). -/
def imgLength (b : List Byte) : Nat := fieldAt 20 4 b
def imgNsect (b : List Byte) : Nat := fieldAt 24 4 b % 128
def imgSvn (b : List Byte) : Nat := fieldAt 19 1 b
def imgId (b : List Byte) : Nat := fieldAt 8 4 b

/-- A directory entry (R331). -/
structure Section where
  ty : Nat
  off : Nat
  len : Nat
  crc : Nat
  deriving DecidableEq, Repr

/-- The directory of an image. -/
def sectionsOf (b : List Byte) : List Section :=
  let d := b.drop 64
  (List.range (imgNsect b)).map fun i =>
    { ty := fieldAt (16 * i) 1 d, off := fieldAt (16 * i + 4) 4 d, len := fieldAt (16 * i + 8) 4 d, crc := fieldAt (16 * i + 12) 4 d }

/-- The bytes of a section. -/
def sectionBytes (b : List Byte) (x : Section) : List Byte := slice x.off x.len b

/-- Causes of Table 15.4 as IMG_SLOT_A.RESULT codes them. -/
def noHeader : Nat := 2
def badCrc : Nat := 3
def badSignature : Nat := 4
def badSvn : Nat := 5
def badStructure : Nat := 6
def badFlash : Nat := 7

/-- Check 1: the header, for slots of `z` bytes. -/
def headerOk (b : List Byte) (z : Nat) : Bool :=
  let n := imgNsect b
  let len := imgLength b
  fieldAt 0 4 b == 0x48534D31 && fieldAt 4 2 b == 1 && fieldAt 12 2 b == 0x0144 && fieldAt 14 1 b ≤ 0xA1 && 0xA1 ≤ fieldAt 15 1 b
  && len % 64 == 0 && len ≤ z && 1 ≤ n && n ≤ 64
  && (crc32c (slice 0 60 b ++ slice 64 (16 * n) b)).toNat == fieldAt 60 4 b

/-- Whether entry `i` of a directory is bad after the entries before it (R331). -/
def entryBad (len n i : Nat) (before : List Section) (x : Section) : Bool :=
  let twice := before.any fun y => y.ty == x.ty
  !([1, 2, 3, 4, 5, 0x7F].contains x.ty) || ((i == 0) != (x.ty == 1)) || (x.ty != 0x7F && twice) || x.off % 64 != 0
  || x.off < 64 + 16 * n || len < x.off + x.len + 256 || (x.ty == 3 && x.len != 49152)
  || (match before.getLast? with | some y => x.off ≤ y.off || x.off < y.off + y.len | none => false)

/-- The first bad entry of a directory. -/
def firstBadEntry (len n : Nat) : Nat → List Section → List Section → Option Nat
  | _, _, [] => none
  | i, before, x :: xs => if entryBad len n i before x then some i else firstBadEntry len n (i + 1) (before ++ [x]) xs

/-- Check 2: the directory. A section that is missing is no section of the directory (SECTION 0xFF). -/
def directoryBad (b : List Byte) : Option Nat :=
  let xs := sectionsOf b
  match firstBadEntry (imgLength b) (imgNsect b) 0 [] xs with
  | some i => some i
  | none => if xs.any (·.ty == 2) && xs.any (·.ty == 3) then none else some 0xFF

/-- Check 3: the first section that misses its CRC. -/
def crcBad (b : List Byte) : Option Nat := (sectionsOf b).findIdx? fun x => (crc32c (sectionBytes b x)).toNat != x.crc

/-- Checks 1 to 3: the first that fails, as (cause, SECTION). -/
def earlyFail (b : List Byte) (z : Nat) : Option (Nat × Nat) :=
  if !headerOk b z then some (noHeader, 0xFF)
  else match directoryBad b with
    | some i => some (badStructure, i)
    | none => (crcBad b).map fun i => (badCrc, i)

/-- Checks 4 to 6 (R334). -/
def signatureFail (keyHash : List Byte) (minSvn : Nat) (b : List Byte) : Option (Nat × Nat) :=
  let n := imgLength b
  let sig := slice (n - 256) 256 b
  if sha384 (sig.take 96) ≠ keyHash then some (badSignature, 0xFF)
  else if imgSvn b < minSvn then some (badSvn, 0xFF)
  else if ecdsaOk (fieldAt 0 48 sig) (fieldAt 48 48 sig) (fieldAt 96 48 sig) (fieldAt 144 48 sig) (sha384 (b.take (n - 256))) then none
  else some (badSignature, 0xFF)

/-! ### Setting records (R332) -/

/-- A list cut into pieces of `k` bytes, at most `n` of them. -/
def piecesOf (k : Nat) : Nat → List Byte → List (List Byte)
  | 0, _ => []
  | n + 1, b => if b.isEmpty then [] else b.take k :: piecesOf k n (b.drop k)

/-- The setting records of a section's bytes, as (BCS offset, value). -/
def recordsOf (b : List Byte) : List (Nat × Word) :=
  (piecesOf 8 (b.length / 8 + 1) b).map fun r => (fieldAt 0 4 r % 2 ^ 26, BitVec.ofNat 32 (fieldAt 4 4 r))

/-- The register at a base offset (aliases are none). -/
def baseRegAt (off : Nat) : Option (RegId × Nat) :=
  match blockAt off with
  | some b => if off < b.base + b.size then regAt off else none
  | none => none

/-- The image's bits of a register; GATE_DEFMAP9 has six gates only. -/
def imgMaskAt (id : RegId) (i : Nat) : Word := if id = .gateDefmap ∧ i = 9 then 0xFFF else id.imgMask

/-- The reset value of a register's other bits. -/
def otherBits (id : RegId) (i : Nat) : Word := if id = .gateDefmap then 0 else id.row.reset &&& ~~~ imgMaskAt id i

/-- The source that a value for FLT_SRC_CFG names in bits [8:0] (R332). -/
def recordSrc (v : Word) : Nat := v.toNat % 512

/-- Whether a record may stand in an image; one of POWER names the PWR block only, and one for FLT_SRC_CFG names a source of Table 13.2. -/
def recordOk (power : Bool) (r : Nat × Word) : Bool :=
  match baseRegAt r.1 with
  | none => false
  | some (id, i) =>
    let m := imgMaskAt id i
    if id = .fltSrcCfg then !power && r.2.toNat / 512 % 2 ^ 22 == 0 && srcClass (recordSrc r.2) != 0
    else m != 0 && r.2 &&& ~~~ m == otherBits id i && (!power || id.row.block == .pwr)

/-- VBIN of a speed bin (Table 15.3). -/
def vbinOf (power : List Byte) (bin : Nat) : Nat := fieldAt (2 * bin) 2 power

/-- The contents of a POWER section. -/
def powerOk (b : List Byte) : Bool :=
  32 ≤ b.length && b.length % 8 == 0
  && (List.range 16).all (fun i => let v := vbinOf b i; v % 5 == 0 && 700 ≤ v && v ≤ 800)
  && (recordsOf (b.drop 32)).all (recordOk true)

/-! ### Table runs and templates (R333) -/

/-- A table run. -/
structure Run where
  dvt : Bool
  first : Nat
  entries : List (List Byte)
  deriving DecidableEq, Repr

/-- The runs of a TABLES section, at most `n`; none where one breaks off. -/
def runsOf : Nat → List Byte → Option (List Run)
  | 0, b => if b.isEmpty then some [] else none
  | n + 1, b =>
    if b.isEmpty then some [] else
    let dvt := bit 31 (fieldAt 0 4 b)
    let size := if dvt then 16 else 32
    let bytes := fieldAt 4 4 b * size
    if b.length < 8 + bytes then none
    else (runsOf n (b.drop (8 + bytes))).map fun rs =>
      { dvt := dvt, first := fieldAt 0 4 b % 2 ^ 18, entries := piecesOf size (bytes / size) ((b.drop 8).take bytes) } :: rs

/-- Whether runs stay within their tables and do not overlap. -/
def runsOk : List Run → Bool
  | [] => true
  | r :: rs =>
    r.first + r.entries.length ≤ (if r.dvt then 262144 else 65536)
    && rs.all (fun q => q.dvt != r.dvt || r.first + r.entries.length ≤ q.first || q.first + q.entries.length ≤ r.first) && runsOk rs

/-- A table with a run's entries, REJ = 0. -/
def putRun {w : Nat} (rej : Nat) (r : Run) (m : FMap (BitVec w)) : FMap (BitVec w) :=
  (r.entries.zipIdx r.first).foldl (fun m e => FMap.set 0 e.2 (setRej rej false (BitVec.ofNat w (bytesNat e.1))) m) m

/-- The templates of a BLOCKS section by BLOCK. -/
def templatesOf (b : List Byte) : List (Nat × List Byte) :=
  (piecesOf 32 (b.length / 32 + 1) b).map fun t => (fieldAt 0 4 t % 16, t)

/-- Whether the templates of a BLOCKS section may stand. -/
def blocksOk (b : List Byte) : Bool :=
  let ts := templatesOf b
  b.length % 32 == 0 && 1 ≤ ts.length && ts.length ≤ 16 && (ts.map (·.1)).eraseDups.length == ts.length
  && ts.all fun t => (quotaBad (quotaOf (t.2.drop 4)) 127).all fun x => !x.2

/-! ### What an image sets -/

/-- The bytes of the sections of a type. -/
def contentOf (b : List Byte) (ty : Nat) : List Byte := ((sectionsOf b).filter (·.ty == ty)).flatMap (sectionBytes b)

/-- All setting records, in the order of the image. -/
def allRecords (b : List Byte) : List (Nat × Word) := recordsOf ((contentOf b 1).drop 32) ++ recordsOf (contentOf b 2)

/-- All table runs. -/
def allRuns (b : List Byte) : List Run := let t := contentOf b 4; (runsOf (t.length + 1) t).getD []


namespace State

/-- Both values of a register's image bits are set. -/
def setMasked (s : State) (id : RegId) (i : Nat) (m v : Word) : State :=
  (s.setReg id i ((s.reg id i &&& ~~~ m) ||| (v &&& m))).setShadow id i ((s.shadowReg id i &&& ~~~ m) ||| (v &&& m))

/-- A setting record takes effect; one for FLT_SRC_CFG sets the EV_EN of the source that it names alone (R332). -/
def setRecord (s : State) (r : Nat × Word) : State :=
  match baseRegAt r.1 with
  | none => s
  | some (id, i) =>
    if id = .fltSrcCfg then
      let src := recordSrc r.2
      let on := bit 31 r.2.toNat
      s.modFlt fun f => { f with evEn := FMap.set false src on f.evEn, evEnSh := FMap.set false src on f.evEnSh }
    else s.setMasked id i (imgMaskAt id i) r.2

/-- Every image bit takes the reset value that it has without an image, so that nothing written during LOAD stays in one (R340). -/
def clearImgBits (s : State) : State :=
  ((s.regs.map (·.1)) ++ s.shadow.map (·.1)).foldl (fun s k =>
    match regAt k with
    | none => s
    | some (id, i) => s.setMasked id i (imgMaskAt id i) id.row.reset) (s.modFlt fun f => { f with evEn := [], evEnSh := [] })

/-- The contents of an image reach their targets (R340). -/
def applyImage (s : State) (b : List Byte) : State :=
  let s := (allRecords b).foldl setRecord s.clearImgBits
  let s := s.modTbl fun t => (allRuns b).foldl (fun t r =>
    if r.dvt then { t with dvt := putRun dvtRejBit r t.dvt } else { t with wtt := putRun wttRejBit r t.wtt }) t
  let s := s.modImg fun m => { m with
    templates := (templatesOf (contentOf b 5)).foldl (fun f t => FMap.put t.1 t.2 f) [], microcode := contentOf b 3 }
  s.setF Fld.pwrAvsV_vbin (vbinOf (contentOf b 1) (s.f Fld.glbFuseBin_speed_bin))

/-! ### Check 7 -/

/-- Advertised credits lie in Table 3.9. -/
def creditsOk (s : State) : Bool :=
  (List.range 2).all fun l =>
    let sum (x : Fld) : Nat := (List.range 4).foldl (fun n v => n + s.f x (4 * l + v)) 0
    let within (x : Fld) (lo hi : Nat) : Bool := (List.range 4).all fun v => lo ≤ s.f x (4 * l + v) && s.f x (4 * l + v) ≤ hi
    within Fld.tlkCredHdr_ph 8 255 && within Fld.tlkCredData_pd 64 1024 && within Fld.tlkCredHdr_nph 8 255
    && within Fld.tlkCredData_npd 64 512
    && sum Fld.tlkCredHdr_ph ≤ 640 && sum Fld.tlkCredData_pd ≤ 2048 && sum Fld.tlkCredHdr_nph ≤ 640
    && sum Fld.tlkCredData_npd ≤ 768

/-- The floors of R207 sum to at most 16 MiB. -/
def floorsOk (s : State) : Bool :=
  (List.range 4).foldl (fun n c => n + s.f Fld.jnlLndFloor_p c + s.f Fld.jnlLndFloor_n c + s.f Fld.jnlLndFloor_k c + 3) 0 ≤ 4096

/-- The bonding of a port (R75). -/
def bondOk (s : State) (p : Nat) : Bool :=
  let b := s.f Fld.gptCfg_bond p
  let n := 2 ^ b
  let lead := p - p % n
  b == 3
  || (s.f Fld.gptCfg_lead p == lead && s.f Fld.gptCfg_rate p ≤ 1 && (b == 0 || s.f Fld.gptCfg_rate p == 0)
      && (List.range n).all fun k => s.f Fld.gptCfg_bond (lead + k) == b)

/-- The ranges, totals and strobe checks of check 7, on the state that an image would commit. -/
def rangesOk (s : State) : Bool :=
  let nact := s.f Fld.engCfg_nact
  let w := s.f Fld.mgtPoolEng_total
  s.creditsOk && s.floorsOk && 1 ≤ nact && nact ≤ 96 && (List.range 144).all s.bondOk && 1 ≤ w && w ≤ 65280 && s.strobesPass

end State

/-- The state that an image alone would commit: reset values, and its contents. -/
def candidate (b : List Byte) : State := ({} : State).applyImage b

/-- The first section whose contents break R332, R333 or Table 5.10. -/
def contentBad (b : List Byte) : Option Nat :=
  let c := candidate b
  (sectionsOf b).findIdx? fun x =>
    let y := sectionBytes b x
    match x.ty with
    | 1 => !powerOk y
    | 2 => y.length % 8 != 0 || !(recordsOf y).all (recordOk false)
    | 4 =>
      match runsOf (y.length + 1) y with
      | none => true
      | some rs =>
        !runsOk rs || !(checkTable (·.v) c.wttOk wttConflict windowOf [] c.tbl.wtt).isEmpty
        || !(checkTable (·.v) c.dvtOk dvtConflict deviceOf [] c.tbl.dvt).isEmpty
    | 5 => !blocksOk y
    | _ => false

/-- Checks 4 to 7: the first that fails, as (cause, SECTION). -/
def lateFail (keyHash : List Byte) (minSvn : Nat) (b : List Byte) : Option (Nat × Nat) :=
  match signatureFail keyHash minSvn b with
  | some x => some x
  | none =>
    match contentBad b with
    | some i => some (badStructure, i)
    | none => if (candidate b).rangesOk then none else some (badStructure, 0xFF)

end Sys2Proof.Machine
end

