-- ==== Sys2Proof/Machine/Img.lean ====
section
/-! DEFINITION. RESET, LOAD and rescue (R336 to R341), the settings area (R343, R344), flash commands (R345, R346) and the SVN burn
(R347). -/

namespace Sys2Proof.Machine

/-- Bytes padded with zeros to a length. -/
def padTo (n : Nat) (b : List Byte) : List Byte := b ++ List.replicate (n - b.length) 0

/-! ### Repair records and settings copies -/

/-- A repair record of 8 bytes (Table 13.10). -/
def repairOf (b : List Byte) : Repair :=
  { kind := fieldAt 0 2 b / 2 ^ 14, unit := fieldAt 0 2 b % 2 ^ 11, spare := fieldAt 2 2 b / 2 ^ 12, pos := fieldAt 2 2 b % 2 ^ 12 }

/-- A repair record as bytes. -/
def Repair.bytes (r : Repair) : List Byte :=
  natBytes 2 (r.kind * 2 ^ 14 + r.unit) ++ natBytes 2 (r.spare * 2 ^ 12 + r.pos) ++ natBytes 4 0

/-- The CRC of a settings copy (Table 15.8): over 48 KiB with the CRC field taken as zero. -/
def copyCrc (b : List Byte) : Nat := (crc32c (slice 0 28 b ++ natBytes 4 0 ++ slice 32 0xBFE0 b)).toNat

/-- Whether a settings copy is valid (R343). -/
def copyValid (b : List Byte) : Bool := fieldAt 0 4 b == 0x53455431 && fieldAt 28 4 b == copyCrc b

/-- The settings of a copy (Table 15.8). -/
def settingsOf (b : List Byte) : Settings :=
  let n := min (fieldAt 16 4 b % 2 ^ 13) 4096
  let next := fieldAt 20 4 b / 2 ^ 8 % 64
  let k := min (fieldAt 20 4 b % 2 ^ 7) 64
  { prefer := bit 30 (fieldAt 8 4 b), trial := bit 29 (fieldAt 8 4 b), bootsA := fieldAt 12 2 b, bootsB := fieldAt 14 2 b
    soft := (piecesOf 8 n (slice 0x1000 (8 * n) b)).map repairOf
    fatals := (List.range k).map fun j => slice (0x9000 + 64 * ((next + 64 - k + j) % 64)) 64 b
    fatalNext := next }

/-- The seeds of a copy, when SEEDS says they are valid. -/
def seedsOf (b : List Byte) : FMap Nat :=
  if bit 0 (fieldAt 8 4 b) then
    (List.range 176).filterMap fun i => let v := fieldAt (0xA000 + 32 * i) 32 b; if v = 0 then none else some (i, v)
  else []

/-- A settings copy as 48 KiB of bytes (Tables 15.7 and 15.8). -/
def copyBytes (x : Settings) (seeds : FMap Nat) (seq : Nat) : List Byte :=
  let k := x.fatals.length
  let head := natBytes 4 0x53455431 ++ natBytes 4 seq ++ natBytes 4 (b2n x.prefer * 2 ^ 30 + b2n x.trial * 2 ^ 29 + 1)
    ++ natBytes 2 x.bootsA ++ natBytes 2 x.bootsB ++ natBytes 4 x.soft.length ++ natBytes 4 (x.fatalNext * 2 ^ 8 + k) ++ natBytes 4 0
  let ring := (List.range 64).flatMap fun i => x.fatals.getD ((i + 64 - (x.fatalNext + 64 - k) % 64) % 64) (List.replicate 64 0)
  let body := padTo 0x1000 (padTo 64 (head ++ natBytes 4 0)) ++ padTo 0x8000 (x.soft.flatMap Repair.bytes) ++ ring
    ++ padTo 0x2000 ((List.range 176).flatMap fun i => natBytes 32 (FMap.get 0 i seeds))
  head ++ natBytes 4 (copyCrc body) ++ body.drop 32

namespace State

/-! ### The bridge's own copy of the settings (R344) -/

/-- The soft map as the bridge keeps it: records that fuses do not hold. -/
def softMap (s : State) : List Repair := (s.bst.soft ++ s.bst.pendingRec).filter fun r => !s.bst.fuses.contains r

/-- The bridge's own copy. -/
def ownSettings (s : State) : Settings :=
  let m := s.img
  { prefer := m.prefer, trial := m.trial, bootsA := m.bootsA, bootsB := m.bootsB, soft := s.softMap, fatals := m.fatals
    fatalNext := m.fatalNext }

/-- Whether a settings write is due (IMG_SET_STAT.PENDING). -/
def settingsPending (s : State) : Bool := s.img.force || s.ownSettings != s.img.cur

/-- The slot size Z of a flash of `f` bytes (R329). -/
def slotSize (f : Nat) : Nat := let z := min (2 ^ 24) ((f - 2 ^ 20) / 2); z - z % 2 ^ 16

/-- The flash address of settings copy X or Y. -/
def copyBase (s : State) (y : Bool) : Nat := 2 * slotSize s.img.flashSize + b2n y * 2 ^ 19

/-! ### Slots -/

/-- What a verification of a slot finds goes to its registers (Table 15.4); SVN and IMAGE_ID when check 1 passed. -/
def slotResult (s : State) (slot cause sect : Nat) (byVerify : Bool) (b : List Byte) : State :=
  let known := cause != noHeader && cause != badFlash
  let w := BitVec.ofNat 32 (2 ^ 31 + cause * 2 ^ 28 + b2n byVerify * 2 ^ 27 + sect * 2 ^ 8 + (if known then imgSvn b else 0))
  let id := if known then BitVec.ofNat 32 (imgId b) else 0
  if slot = 0 then (s.setReg .imgSlotA 0 w).setReg .imgSlotIdA 0 id else (s.setReg .imgSlotB 0 w).setReg .imgSlotIdB 0 id

/-- BOOTS of a slot steps as the slot is tried (R336). -/
def bootSlot (s : State) (slot : Nat) : State :=
  s.modImg fun m =>
    if slot = 0 then { m with bootsA := min (m.bootsA + 1) 65535 } else { m with bootsB := min (m.bootsB + 1) 65535 }

/-- ms from PERST_N release (IMG_BOOT.LOAD_MS). -/
def loadMs (s : State) : State := s.setF Fld.imgBoot_load_ms (min (s.ts / 100000) 65535)

/-- Rescue (R341): SERVICE with the default credits, MIN_WIDTH ×4 and failover off, every port OFF, the links in training, and VDD_CORE asked
to 800 mV on rail 0. -/
def enterRescue (s : State) : State :=
  let s : State := { s with mode := .service, phase := .steady, ports := (List.range 144).map fun p => (p, { st := .off }) }
  let s := ((s.modPwr fun w => { w with rescue := true }).modImg fun m => { m with step := 11 }).loadMs
  let s := [0, 1].foldl (fun s l =>
    let s := (s.setImg Fld.tlkCtl_min_width 2 l).modLink l fun k => { k with st := .train }
    ([(0, 64, 128, 64, 64), (1, 128, 512, 128, 128), (2, 128, 512, 128, 128), (3, 64, 256, 64, 64)]).foldl (fun s c =>
      let i := 4 * l + c.1
      (((s.setImg Fld.tlkCredHdr_ph c.2.1 i).setImg Fld.tlkCredData_pd c.2.2.1 i).setImg Fld.tlkCredHdr_nph c.2.2.2.1 i).setImg
        Fld.tlkCredData_npd c.2.2.2.2 i) s) s
  (s.setImg Fld.tlkFailover_en 0).avsStart 800 1

/-- A slot fails (R335, R336): the cause is recorded, 0x1A0 is raised, and the other slot is tried, or rescue follows. -/
def slotFails (s : State) (cause sect : Nat) (b : List Byte) : State :=
  let n := s.img.slot
  let s := ((s.slotResult n cause sect false b).modImg fun m => { m with image := [] }).raise 0x1A0 n
  if s.mode ≠ .load then s
  else if s.img.second then s.enterRescue
  else (s.modImg fun m => { m with second := true, slot := 1 - n, step := 4 }).bootSlot (1 - n)

/-! ### Forming the memories and the engines (R155, R294, R339) -/

/-- The soft records that no fuse record overrules (R294). -/
def softEff (s : State) : List Repair :=
  s.bst.soft.filter fun r => !((r.kind == 1 || r.kind == 2) &&
    s.bst.fuses.any fun q => q.kind == r.kind && q.unit == r.unit && q.spare == r.spare)

/-- Records of a kind on a unit among those that are applied. -/
def recs (s : State) (kind unit : Nat) : List Repair :=
  (s.bst.fuses ++ s.softEff ++ s.bst.pendingRec).filter fun r => r.kind == kind && r.unit == unit

/-- The repair of one sub-bank that failed the March test. -/
def repairSub (s : State) (t : Nat) (cells : List (Nat × Nat)) : State :=
  if 1056 ≤ t ∨ !(s.recs 0 t).isEmpty then s
  else (repairFor t (s.recs 2 t).length (s.recs 1 t).length cells).foldl (fun s r => s.addRepair t r) s

/-- The Journal and the Landing pool are formed from the good sub-banks, ascending; the rest are spares (R294). -/
def formSubs (s : State) (bad : List Nat) : State :=
  let good := (List.range 1056).filter fun t => (s.recs 0 t).isEmpty && !bad.contains t
  let role (i : Nat) : SubRole × Nat :=
    if i < 768 then (.journal, i) else if i < 1024 then (.landing, i - 768) else (.spare, 0)
  let of (t : Nat) : Sub :=
    let x : Sub := { rows := (s.recs 1 t).length, cols := (s.recs 2 t).length }
    match good.findIdx? (· == t) with
    | some i => { x with role := (role i).1, index := (role i).2 }
    | none => x
  let s := s.modBst fun b => { b with subs := (List.range 1056).filterMap fun t => let x := of t; if x = {} then none else some (t, x) }
  if good.length < 1024 then s.raise 0x1C6 else s

/-- The engines in the order of R155: one of each cluster in turn. -/
def engineOrder : List Nat := (List.range 26).flatMap fun k => (List.range 4).map fun c => 26 * c + k

/-- The first NACT good engines become active, the other good ones spares (R155). -/
def formEngines (s : State) (nact : Nat) (bad : List Nat) : State :=
  let good := engineOrder.filter fun e => !bad.contains e && (s.recs 3 e).isEmpty
  let act := good.take nact
  let s : State := { s with engs := (List.range 104).map fun e =>
    (e, { role := if act.contains e then .active else if good.contains e then .spare else .retired }) }
  if good.isEmpty then s.raise 0x084 else if good.length < nact then s.raise 0x083 else s

/-! ### Commit (R340) -/

/-- The parts that LOAD wakes (R302), in their order of age. -/
def loadParts (s : State) : List Part :=
  (List.range 24).map .hub ++ (List.range 32).map (fun n => .tlane (n / 16) (n % 16))
  ++ (s.engs.filter fun e => e.2.role == .active).map (fun e => .eng e.1)
  ++ ((List.range 144).filter fun p => s.f Fld.gptCfg_bond p != 3).map .glane

/-- Links and ports begin to train (R337, step 11). -/
def startTraining (s : State) : State :=
  let s := (s.modLink 0 fun k => { k with st := .train }).modLink 1 fun k => { k with st := .train }
  { s with ports := (List.range 144).filterMap fun p =>
      if s.f Fld.gptCfg_bond p = 3 then some (p, { st := .off })
      else if s.f Fld.gptCfg_lead p = p then some (p, { st := .train }) else none }

/-- The commit edge. -/
def commitImage (s : State) : State :=
  let b := s.img.image
  let m := s.img
  let s := (s.applyImage b).setF Fld.glbImgId_image_id (imgId b)
  let s := (((s.setF Fld.imgBoot_slot m.slot).setF Fld.imgBoot_first m.first).setF Fld.imgBoot_trial (b2n m.wasTrial)).setF
    Fld.imgBoot_fallback (b2n m.second)
  let s := (s.setF Fld.imgSvn_run_svn (imgSvn b)).setF Fld.kstStat_rules 1
  let s := s.modImg fun m => { m with step := 10, running := some m.slot, formed := true, image := [] }
  let s := s.modKst fun k => { k with rules := if k.now = 0 then [] else (List.range 32).map fun r => (r, { lastPulse := k.now }) }
  let s := s.modPwr fun w => { w with c0Bucket := s.c0Depth, genBucket := 10000, pdBucket := 10000 }
  s.loadParts.foldl (fun s p => s.queueWake p 1) s.startTraining

/-! ### Flash commands (R346) -/

/-- Whether a range of the flash touches the running slot or the settings area. -/
def flashGuarded (s : State) (a n : Nat) : Bool :=
  let z := slotSize s.img.flashSize
  let hit (lo len : Nat) : Bool := a < lo + len && lo < a + n
  hit (2 * z) (2 ^ 20) || (match s.img.running with | some k => hit (k * z) z | none => false)

/-- IMG_FL_STAT.RESULT. -/
def flashResult (s : State) (r : Nat) : State := s.setF Fld.imgFlStat_result r

/-- The buffer IMG_FL_BUF as bytes. -/
def flashBuffer (s : State) : List Byte := (List.range 64).flatMap fun m => natBytes 4 (s.reg .imgFlBuf m).toNat

/-- A write of IMG_FL_CMD (R346, Table 15.10). -/
def flashCommand (s : State) (v : Nat) : State :=
  let op := v / 2 ^ 29 % 8
  if s.img.flCmd.isSome then s.setF Fld.imgFlStat_overrun 1
  else if op = 0 ∨ 4 < op then s
  else
    let a := s.f Fld.imgFlAddr_addr
    let works := s.mode = .run ∨ s.mode = .doze ∨ s.mode = .service
    if !(decide works || (op == 1 && s.mode == .halt)) then s.flashResult 4
    else if op ≠ 4 ∧ (s.img.flashSize ≤ a ∨ a % (if op = 1 then 4 else if op = 2 then 256 else 4096) ≠ 0) then s.flashResult 2
    else if op = 2 ∧ s.flashGuarded a 256 ∨ op = 3 ∧ s.flashGuarded a 4096 then s.flashResult 2
    else s.modImg fun m => { m with flCmd := some (op, a, v % 2), flData := if op = 2 then s.flashBuffer else [] }

/-- VERIFY ends: the checks of Table 15.4 on a slot, with no target written. -/
def verifySlot (s : State) (slot : Nat) (b : List Byte) : State :=
  let z := slotSize s.img.flashSize
  let r := if !s.img.flashOk then some (badFlash, 0xFF)
    else match earlyFail b z with
      | some x => some x
      | none => lateFail s.img.keyHash s.img.minSvn b
  match r with
  | none => s.slotResult slot 1 0xFF true b
  | some (c, x) => (s.slotResult slot c x true b).raise 0x1A0 slot

/-- A host command ends. -/
def flashDone (s : State) (op a slot : Nat) (b : List Byte) (err : Bool) : State :=
  let data := s.img.flData
  let s := s.modImg fun m => { m with flCmd := none, flData := [] }
  match op with
  | 1 =>
    if err then s.flashResult 3
    else ((List.range 64).foldl (fun s m => s.setReg .imgFlBuf m (BitVec.ofNat 32 (fieldAt (4 * m) 4 b))) s).flashResult 1
  | 2 => (s.emit (.flashProgram a data)).flashResult (if err ∨ slice 0 256 b ≠ data then 3 else 1)
  | 3 => (s.emit (.flashErase a 4096)).flashResult (if err then 3 else 1)
  | _ => if err then s.flashResult 3 else (s.verifySlot slot b).flashResult 1

/-! ### Keyed commands of the IMG block that take effect -/

/-- IMG_BOOT_CFG with PREFER A or B (R347). -/
def bootCfg (s : State) (v : Nat) : State := s.modImg fun m => { m with prefer := v % 2 = 1, trial := bit 2 v }

/-- IMG_SET_CMD (R347). -/
def setCommand (s : State) (v : Nat) : State :=
  match v % 4 with
  | 1 => (s.modBst fun b => { b with soft := [], pendingRec := [] }).modImg fun m => { m with setTake := 0 }
  | 2 => s.modImg fun m => { m with fatals := [] }
  | 3 => s.modImg fun m => { m with force := true }
  | _ => s

/-- IMG_SVN_BURN (R347). Whether VPP_FUSE is present is a free value. -/
def svnCommand (s : State) (v : Nat) : State :=
  if s.img.svnBurn.isSome then s
  else if s.mode ≠ .service then s.setF Fld.imgSvn_burn_result 2
  else
    let vpp := s.free % 2 = 1
    let s := s.draw
    if !vpp then s.setF Fld.imgSvn_burn_result 3
    else if v ≤ s.img.minSvn ∨ s.f Fld.imgSvn_run_svn < v then s.setF Fld.imgSvn_burn_result 4
    else s.modImg fun m => { m with svnBurn := some v }

/-- A settings write fails (R344): the old copy stays current, and the write is tried again. -/
def settingsFail (s : State) : State :=
  (((s.modImg fun m => { m with writing := none, setTake := 0, force := true }).setF Fld.imgSetStat_fail 1).incF
    Fld.imgSetStat_fail_cnt).raise 0x1A1

/-- A settings write has read back well (R344): the copy becomes current, and the records that it took no longer wait. -/
def settingsGood (s : State) (x : Settings) : State :=
  let n := s.img.setTake
  let s := s.modBst fun b => { b with
    soft := (b.soft ++ b.pendingRec.take n).filter x.soft.contains, pendingRec := b.pendingRec.drop n }
  (s.modImg fun m => { m with
    cur := x, setSeq := (m.setSeq + 1) % 2 ^ 32, setCurY := m.setValid && !m.setCurY, setValid := true, writing := none
    setTake := 0 }).incF Fld.imgSetStat_writes

/-- A settings write starts (R344): seeds are captured, and the copy that is not current is erased and programmed. -/
def settingsWrite (s : State) : State :=
  let s := (s.img.seeds.map (·.1)).foldl (fun s l => s.captureSeeds l 1) s
  let x := s.ownSettings
  let a := s.copyBase (s.img.setValid && !s.img.setCurY)
  let b := copyBytes x s.img.seeds ((s.img.setSeq + 1) % 2 ^ 32)
  ((s.modImg fun m => { m with writing := some x, setTake := s.bst.pendingRec.length, lastSet := some s.ts, force := false }).emit
    (.flashErase a 0xC000)).emit (.flashProgram a b)

/-- Whether a settings write may start: 10 s after the start of the one before, while no other operation holds the flash (R344, R345). -/
def settingsDue (s : State) : Bool :=
  (s.mode == .run || s.mode == .doze || s.mode == .service || s.mode == .halt) && s.img.flashOk && s.settingsPending
  && s.img.writing.isNone && s.img.flCmd.isNone
  && (match s.img.lastSet with | none => true | some t => decide (t + 1000000000 ≤ s.ts))

end State

/-! ### Commands -/

/-- PERST_N_ASSERT (R305): everything returns to reset. What remains is the model's own (the queue and the source of free values), the TAP,
which TRST_N alone resets, the SMBus target's readiness, which VDD_AON gives, and the level of DROOP_N. A TAP access in progress is not
performed (Table 16.10). -/
def execPerstNAssert (s : State) : Host.Outcome State Fault Refusal :=
  let t : State := { pending := s.pending, freeCount := s.freeCount, freeNext := s.freeNext
                     tap := if s.tap.status = 2 then { s.tap with status := 3 } else s.tap
                     kst := { smbUp := s.kst.smbUp }
                     pwr := { droopPin := s.pwr.droopPin } }
  .next (if s.flt.aliveLevel then t.emit (.alive false) else t)

/-- PERST_N_RELEASE (R337, R350): the straps are sampled, the timestamp starts, and LOAD begins. -/
def execPerstNRelease (straps : Byte) (s : State) : Host.Outcome State Fault Refusal :=
  let s := s.start
  .next <|
    if s.mode ≠ .reset then s
    else (({ s with mode := .load, ts := 0 } : State).setF Fld.glbStraps_straps straps.toNat).setF Fld.kstSmb_addr
      (0x58 + straps.toNat % 8)

/-- FUSE_SENSE (R337, step 2): after the root PLL has locked. A parity error is fatal; otherwise ALIVE starts with a rising edge (R282). -/
def execFuseSense (f : FuseData) (s : State) : Host.Outcome State Fault Refusal :=
  let s := s.start
  .next <|
    if s.mode ≠ .load ∨ s.img.step ≠ 0 ∨ !s.pwr.rootLock then s else
    let s := (s.setPair Fld.glbDieIdLo_die_id Fld.glbDieIdHi_die_id f.dieId.toNat).setF Fld.glbFuseBin_speed_bin f.speedBin.toNat
    let s := s.modBst fun b => { b with fuses := (f.repair.take 1024).map repairOf }
    let s := s.modImg fun m => { m with step := 2, minSvn := f.minSvn.val, keyHash := f.keyHash, factory := f.factory }
    if f.parityErr then s.raise 0x1A2
    else (s.modFlt fun t => { t with aliveRun := true, aliveLevel := true, lastToken := s.ts }).emit (.alive true)

/-- FLASH_DISCOVERY (R327 to R329, step 3). -/
def execFlashDiscovery (i : FlashInfo) (s : State) : Host.Outcome State Fault Refusal :=
  let s := s.start
  .next <|
    if s.mode ≠ .load ∨ s.img.step ≠ 2 then s else
    let s := s.modImg fun m => { m with step := 3 }
    let md := if i.m144 then 3 else if i.m114 then 2 else if i.m111 then 1 else 0
    if !i.sfdp ∨ !i.fit ∨ i.sizeLog2 < 23 ∨ 28 < i.sizeLog2 ∨ (24 < i.sizeLog2 ∧ !i.four) ∨ md = 0 then s
    else
      let f := 2 ^ i.sizeLog2
      let z := State.slotSize f
      let s := s.modImg fun m => { m with flashOk := true, flashSize := f }
      let s := ((s.setF Fld.imgFlash_size_log2 i.sizeLog2).setF Fld.imgFlash_addr4 (b2n (24 < i.sizeLog2))).setF Fld.imgFlash_mode md
      (s.setF Fld.imgLayout_set_ofs (2 * z / 2 ^ 16)).setF Fld.imgLayout_slot_size (z / 2 ^ 16)

/-- SETTINGS_READ (R343, R336, step 4): the current copy is the valid one with the larger SEQ; it gives the slot that is tried first. Without
a usable flash the settings are empty and both slots fail (R328). -/
def execSettingsRead (x y : List Byte) (s : State) : Host.Outcome State Fault Refusal :=
  let s := s.start
  .next <|
    if s.mode ≠ .load ∨ s.img.step ≠ 3 then s else
    let vx := s.img.flashOk && copyValid x
    let vy := s.img.flashOk && copyValid y
    let useY := vy && (!vx || decide (fieldAt 4 4 x < fieldAt 4 4 y))
    let c := if useY then y else x
    let s := if vx || vy then
        let t := settingsOf c
        (s.modImg fun m => { m with
          cur := t, prefer := t.prefer, bootsA := t.bootsA, bootsB := t.bootsB, fatals := t.fatals, fatalNext := t.fatalNext
          setSeq := fieldAt 4 4 c, setValid := true, setCurY := useY, seeds := seedsOf c, wasTrial := t.trial }).modBst
          fun b => { b with soft := t.soft }
      else s
    let first := b2n (s.img.prefer != s.img.wasTrial)
    let s := (s.modImg fun m => { m with step := 4, first := first, slot := first }).bootSlot first
    if s.img.flashOk then s else (s.slotFails badFlash 0xFF []).slotFails badFlash 0xFF []

/-- SLOT_FETCH (R335, step 5): the bytes of the slot that is tried, with checks 1 to 3. -/
def execSlotFetch (bytes : List Byte) (s : State) : Host.Outcome State Fault Refusal :=
  let s := s.start
  .next <|
    if s.mode ≠ .load ∨ s.img.step ≠ 4 then s else
    match earlyFail bytes (State.slotSize s.img.flashSize) with
    | some (c, x) => s.slotFails c x bytes
    | none => s.modImg fun m => { m with step := 5, image := bytes }

/-- SLOT_CHECKS (R335, step 6): checks 4 to 7. -/
def execSlotChecks (s : State) : Host.Outcome State Fault Refusal :=
  let s := s.start
  .next <|
    if s.mode ≠ .load ∨ s.img.step ≠ 5 then s else
    let b := s.img.image
    match lateFail s.img.keyHash s.img.minSvn b with
    | some (c, x) => s.slotFails c x b
    | none => (s.slotResult s.img.slot 1 0xFF false b).modImg fun m => { m with step := 7 }

/-- LOAD_CORE_VOLTAGE (R338, step 8): the image's PWR_AVS_CFG and VBIN act; with EN = 1 the first AVSBus write goes out. -/
def execLoadCoreVoltage (s : State) : Host.Outcome State Fault Refusal :=
  let s := s.start
  .next <|
    if s.mode ≠ .load ∨ s.img.step ≠ 7 then s else
    let c := candidate s.img.image
    let s := s.setMasked .pwrAvsCfg 0 (RegId.imgMask .pwrAvsCfg) (c.reg .pwrAvsCfg)
    let s := s.setF Fld.pwrAvsV_vbin (vbinOf (contentOf s.img.image 1) (s.f Fld.glbFuseBin_speed_bin))
    let s := s.modImg fun m => { m with step := 8 }
    if s.fb Fld.pwrAvsCfg_en then s.avsStart s.setpoint 1 else s

/-- LOAD_BIST (R339, step 9). -/
def execLoadBist (r : BistResult) (s : State) : Host.Outcome State Fault Refusal :=
  let s := s.start
  .next <|
    if s.mode ≠ .load ∨ s.img.step ≠ 8 then s else
    let s := s.modImg fun m => { m with step := 9 }
    let s := r.fails.foldl (fun s x => s.repairSub x.1 x.2) s
    let s := (r.again.filter (· < 1056)).foldl (fun s t => if (s.recs 0 t).isEmpty then s.addRepair t { kind := 0, unit := t } else s) s
    (s.formSubs r.again).formEngines ((candidate s.img.image).f Fld.engCfg_nact) r.badEngs

/-- LOAD_COMMIT (R340, step 10). -/
def execLoadCommit (s : State) : Host.Outcome State Fault Refusal :=
  let s := s.start
  .next <| if s.mode ≠ .load ∨ s.img.step ≠ 9 then s else s.commitImage

/-- LOAD_END (R337, step 11): every link and port has reached UP, DOWN or OFF. -/
def execLoadEnd (s : State) : Host.Outcome State Fault Refusal :=
  let s := s.start
  .next <|
    let trains := [0, 1].any (fun l => (s.link l).st == .train || (s.link l).st == .retrain) || s.ports.any fun p => p.2.st == .train
    if s.mode ≠ .load ∨ s.img.step ≠ 10 ∨ trains then s
    else (({ s with mode := .run } : State).modImg fun m => { m with step := 11 }).loadMs

/-- FLASH_CMD_COMPLETE (R346): a settings write goes first (R345). -/
def execFlashCmdComplete (bytes : List Byte) (err : Bool) (s : State) : Host.Outcome State Fault Refusal :=
  let s := s.start
  .next <|
    match s.img.flCmd with
    | some (op, a, slot) => if s.img.writing.isSome then s else s.flashDone op a slot bytes err
    | none => s

/-- SETTINGS_WRITE_START (R344). -/
def execSettingsWriteStart (s : State) : Host.Outcome State Fault Refusal :=
  let s := s.start
  .next <| if s.settingsDue then s.settingsWrite else s

/-- SETTINGS_WRITE_DONE (R344): the copy is read back. -/
def execSettingsWriteDone (ok : Bool) (s : State) : Host.Outcome State Fault Refusal :=
  let s := s.start
  .next <|
    match s.img.writing with
    | none => s
    | some x => if ok then s.settingsGood x else s.settingsFail

/-- SETTINGS_WRITE_TIMEOUT (R344). -/
def execSettingsWriteTimeout (s : State) : Host.Outcome State Fault Refusal :=
  let s := s.start
  .next <| if s.img.writing.isSome then s.settingsFail else s

/-- SVN_BURN_COMPLETE (R347). -/
def execSvnBurnComplete (ok : Bool) (s : State) : Host.Outcome State Fault Refusal :=
  let s := s.start
  .next <|
    match s.img.svnBurn with
    | none => s
    | some v =>
      ((s.setF Fld.imgSvn_burn_result (if ok then 1 else 5)).modImg fun m => { m with
        svnBurn := none, minSvn := if ok then v else m.minSvn }).runAtLast

end Sys2Proof.Machine
end

