-- ==== Sys2Proof/Machine/Live.lean ====
section
/-! DEFINITION. What a register reads as now: RO fields that show the state of a block are computed from it, and the other bits are as
stored. -/

namespace Sys2Proof.Machine

/-- A register word with fields filled in; a count beyond a field's range shows its largest value. -/
def fill (w : Word) (fs : List (Fld × Nat)) : Word :=
  fs.foldl (fun w p => setBits p.1.hi p.1.lo (min p.2 (2 ^ (p.1.hi + 1 - p.1.lo) - 1)) w) w

/-- The word with bit `n` set where a test holds. -/
def flags (n : Nat) (t : Nat → Bool) : Word := BitVec.ofNat 32 (((List.range n).filter t).map fun i => 2 ^ i).sum

/-- Codes of states that registers show. -/
def phaseCode (p : Phase) : Nat := match p with | .steady => 0 | .quiescing => 1 | .entering => 2 | .exiting => 3
def linkCode (k : LinkSt) : Nat := match k with | .down => 0 | .train => 1 | .up => 2 | .retrain => 3 | .quiet => 4
def portCode (p : PortSt) : Nat := match p with | .off => 0 | .down => 1 | .train => 2 | .up => 3 | .sleep => 4
def jstCode (j : JSt) : Nat :=
  match j with | .free => 0 | .admitted => 1 | .issued => 2 | .farDone => 3 | .completed => 4 | .squashed => 5 | .error => 6
def mgtCode (m : MgtSt) : Nat := match m with | .off => 0 | .run => 1 | .fault => 3
def slotCode (k : SlotSt) : Nat := match k with | .empty => 0 | .valid => 1 | .loading => 2
def roleCode (r : SubRole) : Nat := match r with | .journal => 0 | .landing => 1 | .spare => 2 | .failed => 3

namespace State

/-! ### Links and ports -/

/-- TLK_STAT (Table 3.13). -/
def liveTlkStat (s : State) (l : Nat) (w : Word) : Word :=
  let k := s.link l
  fill w [(Fld.tlkStat_lane_ok, k.laneOk.toNat), (Fld.tlkStat_width, k.width), (Fld.tlkStat_reversed, b2n k.reversed),
    (Fld.tlkStat_group, k.group), (Fld.tlkStat_state, linkCode k.st)]

/-- Device addresses of a port with a lock. -/
def locksAt (s : State) (p : Nat) : Nat := ((s.portDaddrs p).filter fun x => x.2.lock != .none).length

/-- GPT_STAT: a page that is not the lowest member of its logical port shows the state alone. -/
def liveGptStat (s : State) (p : Nat) (w : Word) : Word :=
  let lead := if s.f Fld.gptCfg_bond p = 3 then p else s.f Fld.gptCfg_lead p
  let q := s.port lead
  if lead = p then
    fill w [(Fld.gptStat_locks, s.locksAt p), (Fld.gptStat_up_open, s.upOpen p), (Fld.gptStat_open, s.chanOpen p + s.upOpen p),
      (Fld.gptStat_lane_lock, q.laneLock), (Fld.gptStat_state, portCode q.st)]
  else fill w [(Fld.gptStat_state, portCode q.st)]

/-- Whether a sideband input's DN is muted (R101). -/
def sbiMuted (s : State) (k : Nat) : Bool := s.fb Fld.gptSbiMap_en k && (s.dn (s.f Fld.gptSbiMap_dn k)).attn == .muted

/-! ### Engines, Journal, Landing pool, Hub -/

/-- A map of engines, word `k`. -/
def engMap (k : Nat) (t : Nat → Bool) : Word := flags 32 fun n => 32 * k + n < 104 && t (32 * k + n)

/-- Engines that a test holds for. -/
def engCount (s : State) (t : Eng → Bool) : Nat := (s.engs.filter fun e => t e.2).length

/-- Programs and engine-path accesses that wait for a context, and contexts that wait for an engine. -/
def waitingWork (s : State) : Nat :=
  let qp (k : Nat) : Nat :=
    if s.qpWaits k then
      min ((s.f Fld.sqDb_tail k + 2 ^ s.f Fld.qCfg_sq_size k - s.f Fld.sqHead_head k) % 2 ^ s.f Fld.qCfg_sq_size k)
        (s.f Fld.qCfg_maxp k - s.f Fld.qStat_inflight k)
    else 0
  ((s.instsLive.flatMap fun x => (List.range 4).map fun q => qp (4 * x.1 + q)).sum) + s.accessWaits.length
  + (s.ctxs.filter fun c => c.2.eng == 0x7F).length

/-- FREE entries that admission can take. -/
def jnlAvail (s : State) : Nat :=
  4194304 - s.jnl.entries.length - s.jnl.reserved.length - ((s.jnl.withheld.map (·.1)).eraseDups).length

/-- Whether a sub-bank copy runs (R176): Prepare of a memory slice whose target is no spare. -/
def copying (s : State) : Bool := s.bst.mem.st == .prepare && (s.sub s.bst.mem.target).role != .spare

/-- HUB_MASK_STAT (R191). The Kickstand's path is masked outside RUN and SERVICE. -/
def liveMask (s : State) (w : Word) : Word :=
  fill w [(Fld.hubMaskStat_jw, b2n s.jwMasked), (Fld.hubMaskStat_kbp, b2n s.kbpMasked),
    (Fld.hubMaskStat_stc, b2n s.stcMasked), (Fld.hubMaskStat_engines, ((List.range 104).filter s.engMasked).length)]

/-- The Hub output that HUB_OUT_SEL selects. -/
def selOut (s : State) : HubOut := FMap.get {} (s.f Fld.hubOutSel_out) s.hub.outs

/-! ### Self-test and power -/

/-- Whether BIST has formed the memories. -/
def formedYet (s : State) : Bool := 9 ≤ s.img.step && !s.pwr.rescue

/-- BST_STAT. -/
def liveBstStat (s : State) (w : Word) : Word :=
  let en := s.fb Fld.bstCfg_en
  let st := if s.bst.fg then 2 else if s.mode = .doze ∧ en then 3 else if en ∧ (s.mode = .run ∨ s.mode = .service) then 1 else 0
  fill w [(Fld.bstStat_state, st), (Fld.bstStat_mem_busy, b2n (s.bst.mem.st != .idle)),
    (Fld.bstStat_eng_busy, b2n (s.bst.eng.st != .idle)), (Fld.bstStat_next_sb, (s.nextTarget .mem).getD 0),
    (Fld.bstStat_next_eng, (s.nextTarget .eng).getD 0)]

/-- BST_SPARE. -/
def liveSpare (s : State) (w : Word) : Word :=
  let n (t : Sub → Bool) : Nat := (s.bst.subs.filter fun x => t x.2).length
  if !s.formedYet then w else
  fill w [(Fld.bstSpare_free, n fun x => x.role == .spare && !x.untested && !x.isolated),
    (Fld.bstSpare_untested, n fun x => x.role == .spare && x.untested), (Fld.bstSpare_failed, 1056 - n fun x => x.role != .failed)]

/-- BST_SB_STAT of the selected sub-bank. -/
def liveSbStat (s : State) (w : Word) : Word :=
  let t := s.f Fld.bstSbSel_sb
  let x := s.sub t
  if !s.formedYet then w else
  fill w [(Fld.bstSbStat_role, roleCode x.role), (Fld.bstSbStat_untested, b2n (x.role == .spare && x.untested)),
    (Fld.bstSbStat_withheld, b2n (s.subWithheld t)), (Fld.bstSbStat_index, x.index), (Fld.bstSbStat_ce_cycle, min 255 x.ce),
    (Fld.bstSbStat_rows_used, x.rows), (Fld.bstSbStat_cols_used, x.cols)]

/-- PWR_MODE_STAT. -/
def liveModeStat (s : State) (w : Word) : Word :=
  fill w [(Fld.pwrModeStat_phase, phaseCode s.phase), (Fld.pwrModeStat_rescue, b2n s.pwr.rescue)]

/-- PWR_SLEW_STAT; the queued cost in 0.1 A. -/
def liveSlew (s : State) (w : Word) : Word :=
  fill w [(Fld.pwrSlewStat_frozen, b2n s.pwr.frozen), (Fld.pwrSlewStat_queued, s.pwr.wakes.length),
    (Fld.pwrSlewStat_qcost, (s.pwr.wakes.map fun x => partCost x.part).sum / 1000)]

/-- IMG_SET_STAT. -/
def liveSet (s : State) (w : Word) : Word :=
  fill w [(Fld.imgSetStat_valid, b2n s.img.setValid), (Fld.imgSetStat_busy, b2n s.img.writing.isSome),
    (Fld.imgSetStat_pending, b2n s.settingsPending)]

/-- The record of the gate that GATE_SEL selects. -/
def selGate (s : State) : GateRec := FMap.get {} (s.f Fld.gateSel_gate) s.gates

/-- MGT_INST_STAT of the selected instance. -/
def liveMgtInst (s : State) (w : Word) : Word :=
  let i := s.f Fld.mgtInstSel_inst
  let n := s.inst i
  fill w [(Fld.mgtInstStat_state, instCode n.st), (Fld.mgtInstStat_destroying, b2n n.destroying),
    (Fld.mgtInstStat_escalated, b2n n.escalated), (Fld.mgtInstStat_orphan, b2n ((s.locksOf i).any fun p => p.2.lock == .orphaned)),
    (Fld.mgtInstStat_kld_busy, b2n (s.fb Fld.cmpKldStat_busy i)), (Fld.mgtInstStat_locks, (s.locksOf i).length)]

/-- RESET and DESTROY commands whose results are not yet written. -/
def mgtInprog (s : State) : Nat := ((s.insts.map fun x => x.2.owed.length).sum) + (s.mgt.heldRes.filter (·.2.2)).length

/-- CMP_SLOT_STAT of the selected slot. -/
def liveSlot (s : State) (w : Word) : Word :=
  let k := s.f Fld.cmpSlotSel_slot
  let o := s.insts.find? fun x => s.owns x.1 2 k
  fill w [(Fld.cmpSlotStat_state, slotCode (s.slot k).st), (Fld.cmpSlotStat_owned, b2n o.isSome),
    (Fld.cmpSlotStat_owner, (o.map (·.1)).getD 0), (Fld.cmpSlotStat_users, s.slotUsers k)]

/-- INST_STAT, quotas and allowances of an instance page. -/
def liveInst (s : State) (id : RegId) (i : Nat) (w : Word) : Word :=
  let n := s.inst i
  match id with
  | .instId => fill w [(Fld.instId_inst, i), (Fld.instId_req_id, n.reqId.toNat)]
  | .instStat => fill w [(Fld.instStat_state, instCode n.st), (Fld.instStat_entries, (s.jnl.entries.filter fun p => p.2.inst == i).length)]
  | .instJquota => fill w [(Fld.instJquota_jquota, n.jquota)]
  | .instLquota => fill w [(Fld.instLquota_lquota, n.lquota)]
  | .instAllow => fill w [(Fld.instAllow_winallow, n.winallow), (Fld.instAllow_keyallow, n.keyallow)]
  | .instDnw => fill w [(Fld.instDnw_weight, n.weight), (Fld.instDnw_dnallow, n.dnallow)]
  | .instC0 => fill w [(Fld.instC0_rate, n.c0rate), (Fld.instC0_depth, if n.c0rate = 0 then 0 else n.c0depth)]
  | .pelStat => fill w [(Fld.pelStat_waiting, (s.pel i).waiting.length)]
  | _ => w

/-- The JNL and ENG blocks. -/
def liveEng (s : State) (id : RegId) (i : Nat) (w : Word) : Word :=
  match id with
  | .engStat =>
    fill w [(Fld.engStat_mig_busy, b2n (s.ctxs.any fun c => c.2.moving)), (Fld.engStat_active, s.engCount fun e => e.role == .active),
      (Fld.engStat_spare, min 8 (s.engCount freeSpare)), (Fld.engStat_retired, s.engCount fun e => e.role == .retired)]
  | .engActive => engMap i fun n => (s.eng n).role == .active
  | .engSpare => engMap i fun n => (s.eng n).role == .spare
  | .engRetired => engMap i fun n => (s.eng n).role == .retired
  | .engDispatch => fill w [(Fld.engDispatch_waiting, s.waitingWork)]
  | .engInstCtx =>
    let n := s.f Fld.engInstSel_inst
    fill w [(Fld.engInstCtx_reserve, if (s.inst n).st = .free then 0 else s.reserve n), (Fld.engInstCtx_held, s.ctxHeld n)]
  | .engInstUseLo => BitVec.ofNat 32 (s.inst (s.f Fld.engInstSel_inst)).cycles
  | .engInstUseHi => BitVec.ofNat 32 ((s.inst (s.f Fld.engInstSel_inst)).cycles / 2 ^ 32)
  | .jnlStat => fill w [(Fld.jnlStat_busy, b2n s.jnl.scan.isSome), (Fld.jnlStat_frozen, b2n (s.mode == .halt))]
  | .jnlCntFree => fill w [(Fld.jnlCntFree_count, s.jnlAvail)]
  | .jnlCntS => fill w [(Fld.jnlCntS_count, (s.jnl.entries.filter fun p => jstCode p.2.st == i + 1).length)]
  | .jnlHwm => fill w [(Fld.jnlHwm_hwm, max (s.f Fld.jnlHwm_hwm) s.jnl.entries.length)]
  | .jnlMigStat =>
    if s.copying then fill w [(Fld.jnlMigStat_busy, 1), (Fld.jnlMigStat_landing, b2n ((s.sub s.bst.mem.target).role == .landing)),
      (Fld.jnlMigStat_sb, (s.sub s.bst.mem.target).index)]
    else w
  | .jnlLndFree => fill w [(Fld.jnlLndFree_shared, s.sharedFree)]
  | .jnlLndOvs =>
    fill w [(Fld.jnlLndOvs_free, s.ovsFree), (Fld.jnlLndOvs_ops, (s.ops.filter fun p => 0 < p.2.hold.ovs).length)]
  | .jnlLndInstUse =>
    let n := s.f Fld.jnlLndInstSel_inst
    fill w [(Fld.jnlLndInstUse_ovs, b2n (s.hasOversize n)), (Fld.jnlLndInstUse_withheld, b2n (s.withheld n)),
      (Fld.jnlLndInstUse_used, s.instUse n)]
  | _ => w

/-- The HUB block. -/
def liveHub (s : State) (id : RegId) (w : Word) : Word :=
  let n := s.inst (s.f Fld.hubInstSel_inst)
  match id with
  | .hubMaskStat => s.liveMask w
  | .hubInstC0 => fill w [(Fld.hubInstC0_rate, n.c0rate), (Fld.hubInstC0_depth, if n.c0rate = 0 then 0 else n.c0depth)]
  | .hubInstHeld => fill w [(Fld.hubInstHeld_held, n.c0held), (Fld.hubInstHeld_passed, n.c0passed)]
  | .hubOutStat => fill w [(Fld.hubOutStat_c0_wait, s.selOut.c0Wait), (Fld.hubOutStat_wait, s.selOut.waitMax)]
  | .hubOutFlitsLo => BitVec.ofNat 32 s.selOut.flits
  | .hubOutFlitsHi => BitVec.ofNat 32 (s.selOut.flits / 2 ^ 32)
  | _ => w

/-- The CMP and MGT blocks. -/
def liveMgt (s : State) (id : RegId) (i : Nat) (w : Word) : Word :=
  match id with
  | .cmpUnitStat =>
    fill w [(Fld.cmpUnitStat_cu_active, (flags 8 fun n => !s.unitGone (8 + n)).toNat),
      (Fld.cmpUnitStat_fu_active, (flags 8 fun n => !s.unitGone n).toNat)]
  | .cmpKekData => FMap.get 0 i s.cmp.staged
  | .cmpKekStat => fill w [(Fld.cmpKekStat_staged, (flags 8 fun k => (FMap.find k s.cmp.staged).isSome).toNat)]
  | .cmpKekValid => flags 32 fun n => (FMap.find (32 * i + n) s.cmp.keks).isSome
  | .cmpSlotStat => s.liveSlot w
  | .mgtHead => fill w [(Fld.mgtHead_head, s.mgt.head)]
  | .mgtStat => fill w [(Fld.mgtStat_state, mgtCode s.mgt.st), (Fld.mgtStat_inprog, s.mgtInprog)]
  | .mgtPoolJnl => fill w [(Fld.mgtPoolJnl_free, s.poolFree 1)]
  | .mgtPoolLnd => fill w [(Fld.mgtPoolLnd_free, s.poolFree 2)]
  | .mgtPoolEng => fill w [(Fld.mgtPoolEng_free, s.poolFree 3)]
  | .mgtPoolWin => fill w [(Fld.mgtPoolWin_free, s.poolFree 4)]
  | .mgtPoolDn => fill w [(Fld.mgtPoolDn_free, s.poolFree 5)]
  | .mgtPoolKey => fill w [(Fld.mgtPoolKey_free, s.poolFree 6)]
  | .mgtPoolC0 => fill w [(Fld.mgtPoolC0_free, s.poolFree 7)]
  | .mgtInstStat => s.liveMgtInst w
  | _ => w

/-- The PWR block. -/
def livePwr (s : State) (id : RegId) (i : Nat) (w : Word) : Word :=
  match id with
  | .pwrModeStat => s.liveModeStat w
  | .pwrDroopStat =>
    fill w [(Fld.pwrDroopStat_asserted, b2n s.pwr.droop), (Fld.pwrDroopStat_stretching, b2n (s.pwr.level != 0)),
      (Fld.pwrDroopStat_frozen, b2n s.pwr.frozen), (Fld.pwrDroopStat_adapt_frozen, b2n s.pwr.adaptFrozen)]
  | .pwrSlewStat => s.liveSlew w
  | .pwrEngOn => engMap i fun n => s.pwr.up.contains (.eng n)
  | .pwrAvsStat => fill w [(Fld.pwrAvsStat_busy, b2n (s.pwr.avsBusy && !s.pwr.avsWait))]
  | .pwrClkStat =>
    fill w [(Fld.pwrClkStat_root_lock, b2n s.pwr.rootLock), (Fld.pwrClkStat_core_gated, b2n s.pwr.coreGated),
      (Fld.pwrClkStat_eng_gated, b2n s.pwr.engGated), (Fld.pwrClkStat_level, s.pwr.level)]
  | _ => w

/-- BST_FUSE_STAT.FREE, whose reset is fuse: 0 until the fuses are sensed (log entry 64), then the record places not used. -/
def fusesFree (s : State) : Nat := if s.img.step < 2 then 0 else 1024 - s.bst.fuses.length

/-- The FLT and BST blocks. -/
def liveFlt (s : State) (id : RegId) (w : Word) : Word :=
  let k := s.f Fld.fltSrcSel_src
  match id with
  | .fltSrcCfg =>
    fill w [(Fld.fltSrcCfg_ev_en, b2n (FMap.get false k s.flt.evEn)), (Fld.fltSrcCfg_defined, b2n (srcClass k != 0)),
      (Fld.fltSrcCfg_class, srcClass k)]
  | .fltSrcCnt => fill w [(Fld.fltSrcCnt_count, FMap.get 0 k s.flt.srcCnt)]
  | .fltChkStat => fill w [(Fld.fltChkStat_active, b2n (s.flt.exLeft != 0)), (Fld.fltChkStat_left, s.flt.exLeft)]
  | .fltAlive => fill w [(Fld.fltAlive_running, b2n s.flt.aliveRun), (Fld.fltAlive_level, b2n s.flt.aliveLevel)]
  | .bstStat => s.liveBstStat w
  | .bstSpare => s.liveSpare w
  | .bstSbStat => s.liveSbStat w
  | .bstRepairStat =>
    fill w [(Fld.bstRepairStat_soft, (s.bst.soft ++ s.bst.pendingRec).length), (Fld.bstRepairStat_pending, s.bst.pendingRec.length)]
  | .bstFuseStat => fill w [(Fld.bstFuseStat_busy, b2n s.bst.burn.isSome), (Fld.bstFuseStat_free, s.fusesFree)]
  | _ => w

/-- The IMG block. -/
def liveImg (s : State) (id : RegId) (w : Word) : Word :=
  match id with
  | .imgBootCfg => fill w [(Fld.imgBootCfg_trial, b2n s.img.trial), (Fld.imgBootCfg_prefer, b2n s.img.prefer)]
  | .imgSetStat => s.liveSet w
  | .imgSetSeq => BitVec.ofNat 32 s.img.setSeq
  | .imgBoots => fill w [(Fld.imgBoots_boots_a, s.img.bootsA), (Fld.imgBoots_boots_b, s.img.bootsB)]
  | .imgFatal => fill w [(Fld.imgFatal_next, s.img.fatalNext), (Fld.imgFatal_count, s.img.fatals.length)]
  | .imgSvn => fill w [(Fld.imgSvn_busy, b2n s.img.svnBurn.isSome), (Fld.imgSvn_min_svn, s.img.minSvn)]
  | .imgFlStat => fill w [(Fld.imgFlStat_busy, b2n s.img.flCmd.isSome)]
  | _ => w

/-- The GATE block. -/
def liveGate (s : State) (id : RegId) (i : Nat) (w : Word) : Word :=
  let g := s.selGate
  match id with
  | .gateDefmap => if i = 9 then w &&& 0xFFF else w
  | .gateStat => fill w [(Fld.gateStat_refused, g.refused), (Fld.gateStat_nomatch, g.nom)]
  | .gateLastId => fill w [(Fld.gateLastId_valid, b2n g.valid), (Fld.gateLastId_cause, g.cause), (Fld.gateLastId_id, g.id)]
  | .gateLastAddrLo => BitVec.ofNat 32 g.addr
  | .gateLastAddrHi => BitVec.ofNat 32 (g.addr / 2 ^ 32)
  | _ => w

/-- The GLB, UPD, TLK and GPT blocks. -/
def liveBus (s : State) (id : RegId) (i : Nat) (w : Word) : Word :=
  match id with
  | .glbMode => fill w [(Fld.glbMode_mode, modeCode s.mode)]
  | .glbTsLo => BitVec.ofNat 32 s.ts
  | .glbTsHi => BitVec.ofNat 32 (s.ts / 2 ^ 32)
  | .updBusy => fill w [(Fld.updBusy_busy, b2n s.strobe.mask.isSome)]
  | .updTblPend => fill w [(Fld.updTblPend_dvt_pend, s.tbl.dvtPend.length), (Fld.updTblPend_wtt_pend, s.tbl.wttPend.length)]
  | .updTblStat => fill w [(Fld.updTblStat_wtt_ovf, b2n s.tbl.wttOvf), (Fld.updTblStat_dvt_ovf, b2n s.tbl.dvtOvf)]
  | .tlkStat => s.liveTlkStat i w
  | .tlkOutstanding => fill w [(Fld.tlkOutstanding_np_out, (s.link i).outst.length)]
  | .gptStat => s.liveGptStat i w
  | .gptSbiStat => fill w [(Fld.gptSbiStat_muted, (flags 16 s.sbiMuted).toNat), (Fld.gptSbiStat_level, s.f Fld.kstSbi_deb)]
  | _ => w

/-- The word that a register reads as now. -/
def liveWord (s : State) (id : RegId) (i : Nat := 0) : Word :=
  let w := s.reg id i
  match id.row.block with
  | .glb | .upd | .tlk | .gpt => s.liveBus id i w
  | .flt | .bst => s.liveFlt id w
  | .pwr => s.livePwr id i w
  | .img => s.liveImg id w
  | .hub => s.liveHub id w
  | .jnl | .eng => s.liveEng id i w
  | .cmp | .mgt => s.liveMgt id i w
  | .bi => s.liveInst id i w
  | .gate => s.liveGate id i w
  | .kst | .wtt | .dvt => w

/-- The bits of a register whose value the spec leaves open now: what a selector out of range selects, and the power estimate. -/
def openBits (s : State) (id : RegId) : Word :=
  let bad : Bool := match id with
    | .hubOutStat | .hubOutFlitsLo | .hubOutFlitsHi => 24 ≤ s.f Fld.hubOutSel_out
    | .bstSbStat => 1056 ≤ s.f Fld.bstSbSel_sb
    | .gateStat | .gateLastId | .gateLastAddrLo | .gateLastAddrHi => 150 ≤ s.f Fld.gateSel_gate
    | .pwrPower => true
    | _ => false
  if bad then ~~~ id.row.prsv else 0

end State

end Sys2Proof.Machine
end

