-- ==== Sys2Proof/Machine/Jidx.lean ====
section
/-! DEFINITION. Indirect access to the Journal (R178): the entry as bytes (R167), G_JNL (R249), READ, SCAN and ABORT. -/

namespace Sys2Proof.Machine

/-- A Journal entry as 24 bytes (Table 7.3); a FREE entry reads as zero in every field (R167). -/
def JEntry.bytes (e : JEntry) : List Byte :=
  if e.st = .free then List.replicate 24 0 else
  natBytes 4 (jstCode e.st * 2 ^ 29 + e.kind * 2 ^ 26 + b2n e.pst * 2 ^ 25 + e.cls * 2 ^ 23 + e.inst * 2 ^ 15 + e.eng * 2 ^ 8 + e.err)
  ++ natBytes 4 (e.dn * 2 ^ 14 + e.retry * 2 ^ 6 + e.link * 2 ^ 5 + e.vc * 8)
  ++ natBytes 4 (b2n e.pdone * 2 ^ 31 + b2n e.sqc * 2 ^ 30 + e.progress) ++ natBytes 4 e.ts ++ natBytes 8 e.ref

/-- Address of an entry in the space of G_JNL (Table 11.1). -/
def jnlAddr (inst je : Nat) : Nat := 2 ^ 27 * inst + 32 * je

namespace State

/-- An entry's INST; 0 where it is FREE. -/
def jnlInst (s : State) (je : Nat) : Nat := if (s.entry je).st = .free then 0 else (s.entry je).inst

/-- G_JNL's decision about an entry. -/
def jnlJudge (s : State) (id je : Nat) : Verdict :=
  let a := jnlAddr (s.jnlInst je) je
  s.judge gJnl id a (a + 23) true false

/-- Whether an entry passes JNL_FILTER. -/
def jnlPasses (s : State) (je : Nat) : Bool :=
  let e := s.entry je
  let k := if e.st = .free then 0 else e.kind
  bit (jstCode e.st) (s.f Fld.jnlFilter_states) && bit k (s.f Fld.jnlFilter_kinds)
  && (!s.fb Fld.jnlFilter_inst_en || s.jnlInst je == s.f Fld.jnlFilter_inst)

/-- Puts bytes into JNL_DATA0 to JNL_DATA5. -/
def setJnlData (s : State) (b : List Byte) : State :=
  (List.range 6).foldl (fun s k => s.setReg .jnlData k (BitVec.ofNat 32 (fieldAt (4 * k) 4 b))) s

/-- A word of the entry with an uncorrectable error is loaded raw: what it holds is open. -/
def rawWord (je : Nat) (b : List Byte) (s : State) (w : Nat) : List Byte × State :=
  if s.jnl.uncorr.contains (je, w) then (b.take (8 * w) ++ natBytes 8 s.free ++ b.drop (8 * w + 8), s.draw) else (b, s)

/-- Loads an entry, whose three words are checked. -/
def jnlLoad (s : State) (je : Nat) : State :=
  let s := [0, 1, 2].foldl (fun s w => s.jnlCheck je w) s
  let b := (s.entry je).bytes
  let s := s.setF Fld.jnlStat_uncorr (b2n (s.jnl.uncorr.any fun w => w.1 == je))
  if (s.entry je).st = .free then s.setJnlData b else
  let r := [0, 1, 2].foldl (fun (a : List Byte × State) w => rawWord je a.1 a.2 w) (b, s)
  r.2.setJnlData r.1

/-- What a command that G_JNL does not allow reports: the first entry refused, or else the first denied (R249). -/
def jnlReport (s : State) (id : Nat) (bad : Option (GRes × Nat)) : State :=
  match bad with
  | some (r, a) => s.gateReport gJnl id a r
  | none => s

/-- Puts 0xDEAD0BAD into each word of JNL_DATA whose part of the entry G_JNL denies; the others keep their true value (R253). -/
def jnlDenied (s : State) (id je : Nat) : State :=
  let a := jnlAddr (s.jnlInst je) je
  (List.range 6).foldl (fun t k =>
    if s.judgePart gJnl id (a + 4 * k) true false == .deny then t.setReg .jnlData k 0xDEAD0BAD else t) (s.jnlLoad je)

/-- READ (R178): a refused entry loads as zeros; the words of a denied one are as `jnlDenied` says. -/
def jnlRead (s : State) (id : Nat) : State :=
  let je := s.f Fld.jnlIdx_je
  let gone (s : State) (b : List Byte) : State := (s.setF Fld.jnlStat_uncorr 0).setJnlData b
  match s.jnlJudge id je with
  | .ok => s.jnlLoad je
  | .bad r a => (gone s (List.replicate 24 0)).jnlReport id (some (r, a))
  | .denied a => (s.jnlDenied id je).jnlReport id (some (.deny, a))

/-- The next JE worth a look: past FREE entries that share one decision (up to the next edge of a region or the next listed entry). -/
def jnlSkip (s : State) (je : Nat) : Nat :=
  if (s.entry je).st ≠ .free then je + 1 else
  let edge := nextEdge (s.regions gJnl) (jnlAddr 0 je) / 32
  let listed := match s.jnl.entries.find? fun p => je < p.1 with | some p => p.1 | none => 4194304
  max (je + 1) (min listed edge)

/-- The search of a SCAN below `lim`: the first entry that passes, and the first refused and the first denied on the way. -/
def jnlSearch (s : State) (id lim : Nat) : Nat → Nat → Option (GRes × Nat) → Option (GRes × Nat) → Option Nat × Option (GRes × Nat)
  | 0, _, bad, den => (none, bad.orElse fun _ => den)
  | k + 1, je, bad, den =>
    if lim ≤ je then (none, bad.orElse fun _ => den) else
    match s.jnlJudge id je with
    | .ok => if s.jnlPasses je then (some je, bad.orElse fun _ => den) else s.jnlSearch id lim k (s.jnlSkip je) bad den
    | .bad r a => s.jnlSearch id lim k (s.jnlSkip je) (bad.orElse fun _ => some (r, a)) den
    | .denied a => s.jnlSearch id lim k (s.jnlSkip je) bad (den.orElse fun _ => some (.deny, a))

/-- Fuel that covers every step of a search. -/
def scanFuel (s : State) : Nat := 2 * s.jnl.entries.length + 600

/-- A SCAN starts: what G_JNL refuses among the 16 entries of its first REG cycle is reported at once, whatever ends the scan (log
entry 40). -/
def scanStart (s : State) (id : Nat) : State :=
  let je := s.f Fld.jnlIdx_je
  match (s.jnlSearch id (min 4194304 (je + 16)) s.scanFuel je none none).2 with
  | some (.deny, _) | none => s.modJnl fun j => { j with scan := some id, scanTold := false }
  | some (r, a) => (s.modJnl fun j => { j with scan := some id, scanTold := true }).jnlReport id (some (r, a))

/-- A running SCAN ends: HIT with the entry loaded, or NONE. -/
def scanEnd (s : State) (id : Nat) : State :=
  let r := s.jnlSearch id 4194304 s.scanFuel (s.f Fld.jnlIdx_je) none none
  let s := (s.modJnl fun j => { j with scan := none }).jnlReport id (if s.jnl.scanTold then none else r.2)
  match r.1 with
  | some je => (((s.setF Fld.jnlIdx_je je).setF Fld.jnlStat_hit 1).setF Fld.jnlStat_none 0).jnlLoad je
  | none => (s.setF Fld.jnlStat_hit 0).setF Fld.jnlStat_none 1

/-- A write of JNL_CMD: while BUSY only ABORT acts. -/
def jnlCommand (s : State) (id v : Nat) : State :=
  match v % 4 with
  | 1 => if s.jnl.scan.isSome then s else s.jnlRead id
  | 2 => if s.jnl.scan.isSome then s else s.scanStart id
  | 3 => s.modJnl fun j => { j with scan := none }
  | _ => s

end State

/-- SCAN_DONE (R178): a scan finds an entry, or reaches the end. -/
def execScanDone (s : State) : Host.Outcome State Fault Refusal :=
  let s := s.start
  .next <| match s.jnl.scan with | some id => s.scanEnd id | none => s

end Sys2Proof.Machine
end

