-- ==== Sys2Proof/Machine/Read.lean ====
section
/-! DEFINITION. What an offset of the control space names (R16, R26, R32), and reads: words, pairs and the _HI shadow (R20 to R22), table
entries, clear-on-read (R28). -/

namespace Sys2Proof.Machine

/-- Alias writes (Table 2.3). -/
inductive AliasKind
  | set | clr | tgl
  deriving DecidableEq, Repr

/-- What the word at an offset is: a register; the complement word of a keyed register (A + 4); either of them through an alias; a word of a
table entry; or reserved. -/
inductive Target
  | reg (id : RegId) (i : Nat)
  | comp (id : RegId) (i : Nat)
  | viaAlias (k : AliasKind) (id : RegId) (i : Nat)
  | aliasComp (id : RegId) (i : Nat)
  | wtt (idx : Nat)
  | dvt (idx : Nat)
  | reserved
  deriving DecidableEq, Repr

/-- The word at an offset `x` inside a block. -/
def blockTarget (b : Block) (x : Nat) : Target :=
  match b with
  | .wtt => .wtt (x / 32)
  | .dvt => .dvt (x / 16)
  | _ =>
    match findReg x b.regs with
    | some (id, i) => .reg id i
    | none =>
      if x < 4 then .reserved else
      match findReg (x - 4) b.regs with
      | some (id, i) => if id.row.keyed then .comp id i else .reserved
      | none => .reserved

/-- A target seen through an alias. -/
def Target.through (k : AliasKind) : Target → Target
  | .reg id i => .viaAlias k id i
  | .comp id i => .aliasComp id i
  | t => t

/-- The target of the word that holds a BCS offset (R16, R26). -/
def targetAt (off : Nat) : Target :=
  let w := off - off % 4
  match blockAt w with
  | none => .reserved
  | some b =>
    let x := w - b.base
    if !b.aliased then blockTarget b x else
    let t := blockTarget b (x % b.size)
    match x / b.size with
    | 0 => t
    | 1 => t.through .set
    | 2 => t.through .clr
    | _ => t.through .tgl

/-- The pair whose _LO word a target is, with its _HI register. -/
def Target.pairHi : Target → Option RegId
  | .reg id i | .viaAlias _ id i =>
    if id.row.half = .lo then (regAt (regOff id i + 4)).map (·.1) else none
  | _ => none

/-- The first four bytes of a word. -/
def wordBytes (w : Word) : List Byte := natBytes 4 w.toNat

namespace State

/-- A register as it reads now, without side effects; bits that the spec leaves open take a free value. -/
def peek (s : State) (id : RegId) (i : Nat) : Word × State :=
  let m := s.openBits id
  let w := s.liveWord id i
  if m = 0 then (w, s) else ((w &&& ~~~ m) ||| (BitVec.ofNat 32 s.free &&& m), s.draw)

/-- What else a clearing read clears, where the value is held by index or beside the register. -/
def clearHeld (s : State) (id : RegId) : State :=
  match id with
  | .hubOutStat =>
    let o := s.f Fld.hubOutSel_out
    if o < 24 then s.modHub fun h => { h with outs := FMap.mod {} o (fun x => { x with waitMax := 0, c0Wait := 0 }) h.outs } else s
  | .hubInstHeld => s.modInst (s.f Fld.hubInstSel_inst) fun n => { n with c0held := 0, c0passed := 0 }
  | .fltSrcCnt => s.modFlt fun f => { f with srcCnt := FMap.del (s.f Fld.fltSrcSel_src) f.srcCnt }
  | .gateStat =>
    let g := s.f Fld.gateSel_gate
    if g < 150 then s.modGate g fun r => { r with refused := 0, nom := 0 } else s
  | .gateLastId =>
    let g := s.f Fld.gateSel_gate
    if g < 150 then s.modGate g fun r => { r with valid := false, cause := 0, id := 0 } else s
  | .kstAlert => s.modKst fun k => { k with alertNew := 0 }
  | _ => s

/-- A read clears the RC fields of a register to their reset values (R28). -/
def clearRc (s : State) (id : RegId) (i : Nat) : State :=
  let r := id.row
  if r.rc = 0 then s else (s.setReg id i ((s.reg id i &&& ~~~ r.rc) ||| (r.reset &&& r.rc))).clearHeld id

/-- A 4-byte read at the base offset of a register, with its side effects (R20, R28). -/
def readReg (s : State) (id : RegId) (i : Nat) : Word × State :=
  let off := regOff id i
  match id.row.half with
  | .none => let r := s.peek id i; (r.1, r.2.clearRc id i)
  | .lo =>
    let r := s.peek id i
    match regAt (off + 4) with
    | none => r
    | some (hi, j) => let h := r.2.peek hi j; (r.1, { h.2 with hiShadow := FMap.put (off + 4) h.1 h.2.hiShadow })
  | .hi =>
    match FMap.find off s.hiShadow with
    | some w => (w, { s with hiShadow := FMap.del off s.hiShadow })
    | none => s.peek id i

/-- A word as it reads without side effects. -/
def peekWord (s : State) (off : Nat) : Word × State :=
  match targetAt off with
  | .reg id i | .viaAlias _ id i => s.peek id i
  | _ => (0, s)

/-- A 4-byte read through an alias: what a read at the base offset returns, without its side effects (R26); a full shadow answers for its
_HI and stays full (DEDUCED, log entry 45). -/
def readAlias (s : State) (id : RegId) (i : Nat) : Word × State :=
  if id.row.half = .hi then
    match FMap.find (regOff id i) s.hiShadow with
    | some w => (w, s)
    | none => s.peek id i
  else s.peek id i

/-- A 4-byte read of a word that is not in a table. -/
def readWord (s : State) (off : Nat) : Word × State :=
  match targetAt off with
  | .reg id i => s.readReg id i
  | .viaAlias _ id i => s.readAlias id i
  | _ => s.peekWord off

/-- Bytes of a table entry, as committed. -/
def tableBytes (s : State) (off n : Nat) : List Byte :=
  match targetAt off with
  | .wtt k => slice (off % 32) n (natBytes 32 (s.wttAt k).toNat)
  | .dvt k => slice (off % 16) n (natBytes 16 (s.dvtAt k).toNat)
  | _ => []

/-- A read of `n` bytes, of a form that R18 permits. `side`: its side effects happen. -/
def readBytes (s : State) (off n : Nat) (side : Bool) : List Byte × State :=
  match targetAt off with
  | .wtt _ | .dvt _ => (s.tableBytes off n, s)
  | _ =>
    if n = 8 then
      let a := s.peekWord off
      let b := a.2.peekWord (off + 4)
      (wordBytes a.1 ++ wordBytes b.1, b.2)
    else
      let r := if n = 4 ∧ side then s.readWord off else s.peekWord off
      (slice (off % 4) n (wordBytes r.1), r.2)

end State

end Sys2Proof.Machine
end

