-- ==== Sys2Proof/Machine/Write.lean ====
section
/-! DEFINITION. What a register write does once it is performed: field codes, locked fields (R34), and the effects of the registers that
start something. -/

namespace Sys2Proof.Machine

/-- The identity of a register access, and whether its master is privileged (Table 11.2). -/
def accIdent (a : Acc) : Nat := identOf a.src a.priv a.reqId.toNat
def accPriv (a : Acc) : Bool := a.src == .svc || a.src == .dbg || a.priv

/-- `v` where the mask has ones, `w` elsewhere. -/
def blend (m v w : Word) : Word := (w &&& ~~~ m) ||| (v &&& m)

/-- The instance of an instance-page register. -/
def pageInst (id : RegId) (i : Nat) : Nat := i / id.row.n2

namespace State

/-! ### Plain fields and locked fields -/

/-- Stores bits of RW fields. -/
def putRw (s : State) (id : RegId) (i : Nat) (m v : Word) : State :=
  if m = 0 then s else s.setReg id i (blend m v (s.reg id i))

/-- Stores bits of RWS fields in the shadow (R29). -/
def putRws (s : State) (id : RegId) (i : Nat) (m v : Word) : State :=
  if m = 0 then s else s.setShadow id i (blend m v (s.shadowReg id i))

/-- The bits that are locked now: queue pairs not OFF (R129), an enabled log (R153), an enabled management queue (R272), and a gate region
with LOCK committed (R254). -/
def lockMask (s : State) (id : RegId) (i : Nat) : Word :=
  match id with
  | .sqBaseLo | .sqBaseHi | .cqBaseLo | .cqBaseHi => if s.f Fld.qStat_state i = 0 then 0 else id.row.rw
  | .qCfg => if s.f Fld.qStat_state i = 0 then 0 else 0x1F1FFF03
  | .pelBaseLo | .pelBaseHi => if s.fb Fld.pelCfg_en i then id.row.rw else 0
  | .pelCfg => if s.fb Fld.pelCfg_en i then 0x1F else 0
  | .mgtQBaseLo | .mgtQBaseHi => if s.fb Fld.mgtQCfg_en then id.row.rw else 0
  | .mgtQCfg => if s.fb Fld.mgtQCfg_en then 0x0070001F else 0
  | .gateRgnCtl | .gateRgnIdVal | .gateRgnIdMask | .gateRgnBaseLo | .gateRgnBaseHi | .gateRgnLimitLo | .gateRgnLimitHi =>
    if bit 28 (s.reg .gateRgnCtl i).toNat then id.row.rws else 0
  | _ => 0

/-- Whether a write carries a value for a locked field that differs from the stored value (R34). -/
def lockBreaks (s : State) (id : RegId) (i : Nat) (v : Word) : Bool :=
  let old := if id.row.rws = 0 then s.reg id i else s.shadowReg id i
  ((v ^^^ old) &&& s.lockMask id i) != 0

/-- The plain effect of a write on RW and RWS fields, locked bits left alone. -/
def store (s : State) (id : RegId) (i : Nat) (v : Word) : State :=
  let free := ~~~ s.lockMask id i
  (s.putRw id i (id.row.rw &&& free) v).putRws id i (id.row.rws &&& free) v

/-! ### Queue pairs (Table 6.2, R130, R142, R143) -/

/-- The enable checks of R129. -/
def qpEnableOk (s : State) (k : Nat) : Bool :=
  let sq := s.f Fld.qCfg_sq_size k
  let cq := s.f Fld.qCfg_cq_size k
  4 ≤ sq && sq ≤ 16 && 4 ≤ cq && cq ≤ 16 && s.f Fld.qCfg_maxp k != 0 && s.f Fld.cqCoal_count k != 0
  && (s.f Fld.qCfg_class k != 0 || (s.inst (k / 4)).c0rate != 0)

/-- Q_CFG.EN written 1 in OFF. A start entry that was asked for before is not of this run of the queue pair. -/
def qpEnable (s : State) (k : Nat) : State :=
  if !s.qpEnableOk k then s.setF Fld.qStat_cfg_err 1 k else
  let s := (((s.setF Fld.qCfg_en 1 k).setF Fld.sqHead_head 0 k).setF Fld.sqDb_tail 0 k).setF Fld.cqDb_head 0 k
  let s := (((s.setF Fld.cqTail_tail 0 k).setF Fld.cqTail_phase 1 k).setF Fld.qStat_state 1 k)
  let s : State := { s with ctxs := s.ctxs.map fun c =>
    (c.1, if !c.2.access && c.2.inst == k / 4 && c.2.q == k % 4 && c.2.st == .start then { c.2 with stale := true } else c.2) }
  s.modQp k fun q => { q with armed := true, doors := [] }

/-- A write of Q_CFG. -/
def writeQCfg (s : State) (k : Nat) (v : Word) : State :=
  let en := bit 31 v.toNat
  match s.f Fld.qStat_state k with
  | 0 => let s := s.putRw .qCfg k 0x1F1FFF03 v; if en then s.qpEnable k else s
  | 1 => if en then s else ((s.setF Fld.qCfg_en 0 k).setF Fld.qStat_state 2 k).qpDrained k
  | 2 => if en then s.setF Fld.qStat_cfg_err 1 k else s
  | _ => s.setF Fld.qCfg_en (b2n en) k

/-- A write of SQ_DB. -/
def writeSqDb (s : State) (k : Nat) (v : Word) : State :=
  let t := v.toNat % 2 ^ 16
  if s.f Fld.qStat_state k = 0 then s
  else if 2 ^ s.f Fld.qCfg_sq_size k ≤ t then s.setF Fld.qStat_bad_db 1 k
  else
    let n := 2 ^ s.f Fld.qCfg_sq_size k
    let waits := (t + n - s.f Fld.sqHead_head k % n) % n
    ((s.setF Fld.sqDb_tail t k).modQp k fun q => { q with doors := ringDoor waits s.ts q.doors }).raisePass s (k / 4)

/-- The EVENT of a CQ that is armed with unread entries, while EVENTs can go to its instance. -/
def cqEventNow (s : State) (k : Nat) : State :=
  if (s.qp k).armed && s.evOn (k / 4) 1 && s.instHears (k / 4) then s.cqEvent k none else s

/-- RESUME of a queue pair: the held completion entries are retried, and an EVENT that waited for them is sent. -/
def qpResume (s : State) (k : Nat) : State :=
  if s.f Fld.qStat_state k ≠ 3 then s else
  let held := (s.qp k).held
  let r := ((s.setF Fld.qStat_fault_cause 0 k).setF Fld.qStat_fault_status 0 k).setF Fld.qStat_state
    (if s.fb Fld.qCfg_en k then 1 else 2) k
  let r := held.foldl completion (r.modQp k fun q => { q with held := [] })
  let r := if (r.qp k).evPend && r.f Fld.qStat_state k != 3 then (r.cqEventNow k).modQp k fun q => { q with evPend := false } else r
  (r.qpDrained k).raisePass s (k / 4)

/-- Whether a head value is accepted (R142). -/
def headOk (size head tail h : Nat) : Bool :=
  let n := 2 ^ size
  h < n && (h + 65536 * n - head) % n ≤ (tail + 65536 * n - head) % n

/-- A write of CQ_DB. -/
def writeCqDb (s : State) (k : Nat) (v : Word) : State :=
  let h := v.toNat % 2 ^ 16
  let s := if headOk (s.f Fld.qCfg_cq_size k) (s.f Fld.cqDb_head k) (s.f Fld.cqTail_tail k) h then s.setF Fld.cqDb_head h k
    else s.setF Fld.qStat_bad_head 1 k
  if !bit 31 v.toNat ∨ s.f Fld.qStat_state k = 0 then s else
  let s := s.modQp k fun q => { q with armed := true }
  if s.f Fld.cqDb_head k = s.f Fld.cqTail_tail k then s
  else if s.f Fld.qStat_state k = 3 ∧ s.qpHeld k then s.modQp k fun q => { q with evPend := true }
  else s.cqEventNow k

/-! ### The Posted Error Log and FENCE (R151 to R153) -/

/-- A write of PEL_CFG. -/
def writePelCfg (s : State) (i : Nat) (v : Word) : State :=
  let old := s.fb Fld.pelCfg_en i
  let en := bit 31 v.toNat
  let fault := s.f Fld.pelStat_state i = 3
  let s := s.store .pelCfg i v
  let s := if fault then s else s.setF Fld.pelStat_state (b2n en) i
  if en ∧ !old then
    (((s.setF Fld.pelHead_head 0 i).setF Fld.pelTail_tail 0 i).setF Fld.pelTail_phase 1 i).setF Fld.pelStat_notices 0 i
  else s

/-- A write of PEL_HEAD. -/
def writePelHead (s : State) (i : Nat) (v : Word) : State :=
  let h := v.toNat % 2 ^ 16
  if headOk (s.f Fld.pelCfg_size i) (s.f Fld.pelHead_head i) (s.f Fld.pelTail_tail i) h then s.setF Fld.pelHead_head h i
  else s.setF Fld.pelHead_bad 1 i

/-- RESUME of a log: it leaves FAULT, and the held record is retried. -/
def pelGoOn (s : State) (i : Nat) : State :=
  if s.f Fld.pelStat_state i ≠ 3 then s else
  (s.setF Fld.pelStat_state (b2n (s.fb Fld.pelCfg_en i)) i).noticeWrite i

/-- A write of FENCE_DB. -/
def fenceStart (s : State) (i : Nat) (v : Word) : State :=
  let old := if s.fb Fld.fenceStat_done i then [] else (s.pel i).cover
  let cover := old ++ (s.fenceCover i).filter fun x => !old.contains x
  let s := s.modPel i fun p => { p with cover := cover, counted := p.counted + p.later, later := 0 }
  (s.setF Fld.fenceStat_done 0 i).setF Fld.fenceStat_token (v.toNat % 2 ^ 16) i

/-! ### Attention (R98, R99, R101, R271) -/

/-- Whether an instance may act on a DN through its page; BAD_DN steps where it may not. -/
def instMay (s : State) (i dn : Nat) : Bool := (s.device dn).v && s.owns i 0 dn

/-- INST_ATTN_ACK and INST_ATTN_UNMUTE. -/
def instAttn (s : State) (i dn : Nat) (unm : Bool) : State :=
  if (s.inst i).st = .squash then s
  else if !s.instMay i dn then s.incF Fld.instCnt_bad_dn i
  else if unm then s.unmute dn
  else s.ackWrite (s.device dn).port (s.device dn).daddr

/-- GPT_ATTN_UNMUTE at a port. -/
def portUnmute (s : State) (p d : Nat) : State :=
  match s.dnAt p d with
  | some n => s.unmute n
  | none => s

/-- GPT_SBI_UNMUTE. -/
def sbiUnmute (s : State) (m : Nat) : State :=
  (List.range 16).foldl (fun s k => if bit k m ∧ s.fb Fld.gptSbiMap_en k then s.unmute (s.f Fld.gptSbiMap_dn k) else s) s

/-! ### Strobe, tables, barriers -/

/-- A write of UPD_STROBE (R30). -/
def strobeStart (s : State) (v : Word) : State :=
  if s.strobe.mask.isSome then s.setF Fld.updErr_overrun 1
  else { s with strobe := { s.strobe with mask := some (v.toNat % 2 ^ 13) } }

/-- A discard of the WTT pending store (R125). -/
def wttDrop (s : State) : State :=
  let s := s.modTbl fun t => { t with wttPend := [], wttOvf := false, wtt := (t.wtt.map fun e => (e.1, setRej wttRejBit false e.2)).filter fun e => e.2 != 0 }
  s.tellRej Fld.updTblStat_wtt_rej Fld.updTblRejWtt_valid Fld.updTblRejWtt_index []

/-- A discard of the DVT pending store (R125). -/
def dvtDrop (s : State) : State :=
  let s := s.modTbl fun t => { t with dvtPend := [], dvtOvf := false, dvt := (t.dvt.map fun e => (e.1, setRej dvtRejBit false e.2)).filter fun e => e.2 != 0 }
  s.tellRej Fld.updTblStat_dvt_rej Fld.updTblRejDvt_valid Fld.updTblRejDvt_index []

/-- A write of UPD_TBL_CTL, ignored while a strobe is in progress. -/
def tblDiscard (s : State) (v : Word) : State :=
  if s.strobe.mask.isSome then s else
  let s := if bit 0 v.toNat then s.wttDrop else s
  if bit 1 v.toNat then s.dvtDrop else s

/-- START of the table barrier (R123): the operations that it waits for. -/
def tblBarrier (s : State) : State :=
  let es := s.jnl.entries.filter fun p => p.2.st == .admitted || p.2.st == .issued || p.2.st == .farDone
  (s.setF Fld.updTblBarrier_done 0).modTbl fun t => { t with barrier := es.map fun p => p.2.serial }

/-! ### The management queue (R257, R272) and key commands (R231) -/

/-- A write of MGT_Q_CFG: writing EN to 1 sets MGT_HEAD and the result phase to their reset values, also where EN was 1 (R272). -/
def writeMgtCfg (s : State) (v : Word) : State :=
  let en := bit 31 v.toNat
  let s := s.store .mgtQCfg 0 v
  if en then
    (s.modMgt fun m => { m with head := 0, phase := true, st := if m.st = .fault then .fault else .run }).mgtFetch
  else s.modMgt fun m => { m with st := if m.st = .fault then .fault else .off }

/-- A write of MGT_DB. -/
def writeMgtDb (s : State) (v : Word) : State :=
  let t := v.toNat % 2 ^ 16
  if 2 ^ s.f Fld.mgtQCfg_size ≤ t then s.setF Fld.mgtStat_bad_db 1 else (s.setF Fld.mgtDb_tail t).mgtFetch

/-- A write of CMP_KLD_CMD. -/
def writeKld (s : State) (i ident : Nat) (v : Word) : State :=
  let op := v.toNat / 2 ^ 30
  if (s.inst i).st = .drain ∨ (s.inst i).st = .squash then s
  else if s.fb Fld.cmpKldStat_busy i then s.setF Fld.cmpKldStat_overrun 1 i
  else if op = 1 ∨ op = 2 then s.keyCommand i (v.toNat % 2 ^ 12) ident (op == 1)
  else s

/-! ### A write of any register -/

/-- Ports: the pages of members other than the lowest start nothing. -/
def writePort (s : State) (id : RegId) (p : Nat) (v : Word) : State :=
  if !s.isLead p then s else
  match id with
  | .gptCtl => if bit 0 v.toNat then s.leaveUp p else s
  | .gptAttnAck => s.ackWrite p (v.toNat % 2 ^ 11)
  | _ => s.portUnmute p (v.toNat % 2 ^ 11)

/-- Registers whose write starts something; the others store. -/
def writeEffect (s : State) (a : Acc) (id : RegId) (i : Nat) (v : Word) : State :=
  match id with
  | .qCfg => s.writeQCfg i v
  | .sqDb => s.writeSqDb i v
  | .qCtl => if bit 0 v.toNat then s.qpResume i else s
  | .cqDb => s.writeCqDb i v
  | .pelCfg => s.writePelCfg i v
  | .pelHead => s.writePelHead i v
  | .pelCtl => if bit 0 v.toNat then s.pelGoOn i else s
  | .fenceDb => s.fenceStart i v
  | .instAttnAck => s.instAttn i (v.toNat % 2 ^ 18) false
  | .instAttnUnmute => s.instAttn i (v.toNat % 2 ^ 18) true
  | .gptCtl | .gptAttnAck | .gptAttnUnmute => s.writePort id i v
  | .gptSbiUnmute => s.sbiUnmute (v.toNat % 2 ^ 16)
  | .tlkCtl => let s := s.store id i v; if bit 7 v.toNat then s.retrainTrigger i else s
  | .updStrobe => s.strobeStart v
  | .updTblCtl => s.tblDiscard v
  | .updTblBarrier => if bit 0 v.toNat then s.tblBarrier else s
  | .gateBarrier => if bit 0 v.toNat then s.setF Fld.gateBarrier_done 0 else s
  | .jnlCmd => s.jnlCommand (accIdent a) v.toNat
  | .jnlIdx | .jnlFilter => if s.jnl.scan.isSome then s else s.store id i v
  | .mgtQCfg => s.writeMgtCfg v
  | .mgtDb => s.writeMgtDb v
  | .mgtCtl => if bit 0 v.toNat then s.mgtGoOn else s
  | .cmpKldCmd => s.writeKld i (accIdent a) v
  | .fltSrcCfg => s.modFlt fun f => { f with evEnSh := FMap.set false (s.f Fld.fltSrcSel_src) (bit 31 v.toNat) f.evEnSh }
  | .bstCmd => s.bstCommand v.toNat
  | .imgFlCmd => s.flashCommand v.toNat
  | _ => s.store id i v

/-- Whether a write reaches a register: not in the page of an instance that is FREE (R270), and in MGT only from a master with P = 1
(R257). -/
def reaches (s : State) (a : Acc) (id : RegId) (i : Nat) : Bool :=
  match id.row.block with
  | .bi => (s.inst (pageInst id i)).st != .free
  | .mgt => accPriv a
  | _ => true

/-- A 4-byte write of a register that reaches it; `viol` says that it breaks no lock, or that its access was recorded already. -/
def writeReg (s : State) (a : Acc) (id : RegId) (i : Nat) (v : Word) (viol : Bool := false) : State :=
  let s := if !viol && s.lockBreaks id i v then s.lockViol (regOff id i) else s
  s.writeEffect a id i v

/-! ### Aliases (Table 2.3) -/

/-- What an alias write writes. -/
def aliasWord (k : AliasKind) (old v : Word) : Word :=
  match k with
  | .set => old ||| v
  | .clr => old &&& ~~~ v
  | .tgl => old ^^^ v

/-- The word that an alias write amounts to: RW fields from the stored word, RWS fields from the shadow, WO fields not written. -/
def aliasValue (s : State) (k : AliasKind) (id : RegId) (i : Nat) (v : Word) : Word :=
  let sh : Word := if id = .fltSrcCfg then (if FMap.get false (s.f Fld.fltSrcSel_src) s.flt.evEnSh then 0x80000000 else 0) else s.shadowReg id i
  (aliasWord k (s.reg id i) v &&& id.row.rw) ||| (aliasWord k sh v &&& id.row.rws)

/-- A write through an alias of a register that is not keyed; where no field is RW or RWS it has no effect. -/
def writeAlias (s : State) (a : Acc) (k : AliasKind) (id : RegId) (i : Nat) (v : Word) (viol : Bool := false) : State :=
  if id.row.rw = 0 ∧ id.row.rws = 0 then s else s.writeReg a id i (s.aliasValue k id i v) viol

/-! ### Keyed registers (R32, R33) -/

/-- A failed keyed write pattern of the register at `off` (R33): causes 0 to 3. In CMP it clears the staged words (R230). -/
def keyFail (s : State) (off cause : Nat) : State :=
  let s := (((s.incF Fld.updKeyStatus_fail_cnt).setF Fld.updKeyStatus_cause cause).setF Fld.updKeyStatus_key_fail 1).setF
    Fld.updKeyAddr_offset off
  if blockAt off = some .cmp then { s with cmp := { s.cmp with staged := [] } } else s

/-- A keyed value takes effect. -/
def keyEffect (s : State) (id : RegId) (i : Nat) (v : Word) : State :=
  let n := v.toNat
  match id with
  | .glbModeReq => (s.putRw id i id.row.key v).modeRequest (n % 8)
  | .cmpKekData => { s with cmp := { s.cmp with staged := FMap.put i v s.cmp.staged } }
  | .cmpKekLoad => (s.putRw id i id.row.key v).kekCommand (n / 2 ^ 8 % 4) (n % 256)
  | .gateDbgUnlock =>
    if n % 2 = 1 ∧ s.mode ≠ .service then (s.incF Fld.gateDbgStat_unlock_ign)
    else (s.setF Fld.gateDbgUnlock_unlock n).setF Fld.gateDbgStat_unlocked n
  | .gateDefmap => if s.rescued then s else s.putRw id i id.row.key v
  | .fltChkExercise => (s.putRw id i id.row.key v).chkExercise n
  | .bstFuseCmd => (s.putRw id i id.row.key v).fuseCommand n
  | .imgBootCfg => if 2 ≤ n % 4 then s else s.bootCfg n
  | .imgSetCmd => (s.putRw id i id.row.key v).setCommand n
  | .imgSvnBurn => (s.putRw id i id.row.key v).svnCommand (n % 2 ^ 8)
  | _ => s.putRw id i id.row.key v

/-- A write to another register of a block breaks the block's pending pair (R33). -/
def breakPending (s : State) (base : Nat) : State :=
  match FMap.find base s.keyPend with
  | none => s
  | some p => ({ s with keyPend := FMap.del base s.keyPend } : State).keyFail p.off 2

/-- Whether an access comes from the requester of a pending first half: on either link the one with its requester ID, else the same
source. -/
def samePend (p : KeyPend) (a : Acc) : Bool :=
  (p.src == a.src || ((p.src == .tl0 || p.src == .tl1) && (a.src == .tl0 || a.src == .tl1))) && p.reqId == a.reqId

/-- A write to A or A + 4 of a keyed register that cannot be part of a good pair: posted, or through an alias. -/
def keyStray (s : State) (a : Acc) (base off : Nat) (first : Bool) : State :=
  let s := match FMap.find base s.keyPend with
    | some p => if first || p.off != off || !samePend p a then s.breakPending base else { s with keyPend := FMap.del base s.keyPend }
    | none => s
  s.keyFail off 1

/-- A non-posted write to A. -/
def keyFirst (s : State) (a : Acc) (base off : Nat) (v : Word) : State :=
  let s := s.breakPending base
  { s with keyPend := FMap.put base { off := off, val := v, src := a.src, reqId := a.reqId } s.keyPend }

/-- Whether a value may be written to a keyed register (IMG_BOOT_CFG.PREFER 0b10 and 0b11 fail as a complement mismatch, R347). -/
def keyValueOk (id : RegId) (v : Word) : Bool := id != .imgBootCfg || v.toNat % 4 < 2

/-- A non-posted write to A + 4. -/
def keySecond (s : State) (a : Acc) (base : Nat) (id : RegId) (i : Nat) (v : Word) : State :=
  let off := regOff id i
  match FMap.find base s.keyPend with
  | none => s.keyFail off 1
  | some p =>
    if p.off ≠ off then (s.breakPending base).keyFail off 1
    else
      let s := ({ s with keyPend := FMap.del base s.keyPend } : State)
      if !samePend p a then s.keyFail off 2
      else if v ≠ ~~~ p.val ∨ !keyValueOk id p.val then s.keyFail off 0
      else s.keyEffect id i p.val

end State

end Sys2Proof.Machine
end

