-- ==== Sys2Proof/Machine/Bcs.lean ====
section
/-! DEFINITION. An access to the control space from its arrival to its completion: forms (R18, R377), modes (R312), G_CTL, waiting (R23, R24,
R30, R308), refusal (R19), and the answer. -/

namespace Sys2Proof.Machine

/-! ### Forms (Table 2.2) -/

/-- Whether an access is of one whole table entry: a read by its span alone (R46), a write with every byte enabled. -/
def wholeEntry (r : BcsReq) : Bool :=
  (!r.wr || r.en.all id) && match targetAt r.off with
    | .wtt _ => r.en.length == 32 && r.off % 32 == 0
    | .dvt _ => r.en.length == 16 && r.off % 16 == 0
    | _ => false

/-- The first cause of Table 2.5 that the form of an access meets, in the order of R377; none for a form that is performed. -/
def formCause (r : BcsReq) : Option Nat :=
  let n := r.en.length
  let t := targetAt r.off
  if t = .reserved then some 1
  else if (n = 1 ∨ n = 2 ∨ n = 4 ∨ n = 8) ∧ r.off % n ≠ 0 then some 2
  else if wholeEntry r then none
  else if r.wr ∧ !((n == 4 || n == 8) && r.en.all id) then some 3
  else if n = 8 then (if t.pairHi.isSome then none else some 4)
  else if n = 1 ∨ n = 2 ∨ n = 4 then none
  else some 4

/-- The size code of GLB_BAD_ACC_INFO. -/
def sizeCode (n : Nat) : Nat := if n = 1 then 0 else if n = 2 then 1 else if n = 4 then 2 else if n = 8 then 3 else 4

/-- Source codes of GLB_BAD_ACC_INFO, and the paths on which accesses wait for one another (R24): the links, and the service path with the
debug port. -/
def srcCode (x : Src) : Nat := match x with | .tl0 => 0 | .tl1 => 1 | .svc => 2 | .dbg => 3
def srcPath (x : Src) : Nat := match x with | .tl0 => 0 | .tl1 => 1 | .svc => 2 | .dbg => 2

/-- Whether a source is a Thaty link, and which. -/
def srcLink (x : Src) : Option Nat := match x with | .tl0 => some 0 | .tl1 => some 1 | .svc => none | .dbg => none

/-- The block of an access. -/
def reqBlock (r : BcsReq) : Option Block := blockAt r.off

/-- Whether an access is a posted write. -/
def isPosted (r : BcsReq) : Bool := r.wr && r.acc.posted

/-- Bit of a block in a strobe mask (Table 2.4). -/
def maskBit (b : Block) : Option Nat :=
  match b with
  | .flt => some 0 | .bst => some 1 | .pwr => some 2 | .kst => some 3 | .hub => some 4 | .tlk => some 5 | .jnl => some 6 | .eng => some 7
  | .cmp => some 8 | .gpt => some 9 | .wtt => some 10 | .dvt => some 11 | .gate => some 12
  | .glb | .upd | .img | .mgt | .bi => none

/-- Blocks whose accesses cross into slow clock domains (R24). -/
def slowBlock (b : Block) : Bool := b == .kst || b == .img

/-- Blocks that need CORE or ENG, which DOZE holds (Table 14.7). -/
def dozeBlock (b : Block) : Bool := b == .hub || b == .jnl || b == .eng || b == .cmp || b == .mgt || b == .bi

/-- Registers that can be written in HALT outside KST (R253, R312, R347). -/
def haltReg (t : Target) : Bool :=
  match t with
  | .reg id _ | .viaAlias _ id _ | .comp id _ | .aliasComp id _ =>
    id == .jnlIdx || id == .jnlFilter || id == .jnlCmd || id == .imgFlAddr || id == .imgFlCmd || id == .gateDbgUnlock
  | _ => false

/-- The first word of a write. -/
def firstWord (r : BcsReq) : Word := BitVec.ofNat 32 (fieldAt 0 4 r.data)

/-- Whether an access writes UPD_STROBE. -/
def isStrobe (r : BcsReq) : Bool :=
  r.wr && match targetAt r.off with | .reg .updStrobe _ => true | _ => false

/-- A granule-aligned image of the bytes that a read returns, disabled bytes as zero. -/
def enabledBytes (en : List Bool) (bs : List Byte) : List Byte := List.zipWith (fun e b => if e then b else 0) en bs

/-- The request header that an access came with, as far as its completion needs it. -/
def accHdr (a : Acc) : ReqHdr :=
  { vc := a.vc, priv := a.priv, np := !a.posted, poison := false, reqId := a.reqId, tag := a.tag
    fbe := 0, lbe := 0, len := 1, addr := 0 }

namespace State

/-! ### Modes and waiting -/

/-- Whether a mode refuses an access to a block (Table 14.7, R312). -/
def modeRefuses (s : State) (b : Block) (r : BcsReq) : Bool :=
  match s.mode with
  | .reset => true
  | .load => !(b == .glb || b == .upd || b == .flt || b == .bst || b == .pwr || b == .kst || b == .img)
  | .run | .doze => false
  | .service => s.pwr.rescue && (dozeBlock b || b == .gpt || b == .wtt || b == .dvt)
  | .halt => r.wr && b != .kst && !haltReg (targetAt r.off)

/-- Whether DOZE holds an access: a block that needs CORE, or a strobe that lists HUB, JNL, ENG or CMP (R308, R309). -/
def dozeHeld (r : BcsReq) : Bool :=
  match reqBlock r with
  | some b => dozeBlock b || (isStrobe r && Nat.land (firstWord r).toNat 0x1D0 != 0)
  | none => false

/-- Whether an access of a good form must wait by itself: a write to a listed block while BUSY is 1 (R30), a full slow queue (R24), DOZE
(R308). -/
def selfHeld (s : State) (r : BcsReq) : Bool :=
  match reqBlock r with
  | none => false
  | some b =>
    (r.wr && match s.strobe.mask, maskBit b with | some m, some k => bit k m | _, _ => false)
    || (slowBlock b && 32 ≤ s.slowQ.length)
    || (s.mode == .doze && dozeHeld r)

/-- Whether an access must wait behind an earlier one of its path (R23, R24): to the same block, blocked by the slow queue, or a posted write
before a non-posted access. -/
def waitsBehind (s : State) (before : List BcsReq) (r : BcsReq) : Bool :=
  before.any fun w => srcPath w.acc.src == srcPath r.acc.src
    && (reqBlock w == reqBlock r || (isPosted w && !isPosted r)
        || match reqBlock w with | some b => slowBlock b && 32 ≤ s.slowQ.length | none => false)

/-- Whether a non-posted access waits for posted KST or IMG writes of its path that are still crossing (R23); one to KST or IMG follows
them through the same queue. -/
def waitsCrossing (s : State) (r : BcsReq) : Bool :=
  !isPosted r && !(match reqBlock r with | some b => slowBlock b | none => false)
    && s.slowQ.any fun w => isPosted w.1 && srcPath w.1.acc.src == srcPath r.acc.src

/-- Whether an access must wait. -/
def mustWait (s : State) (before : List BcsReq) (r : BcsReq) : Bool :=
  s.waitsBehind before r || s.waitsCrossing r || (formCause r == none && s.selfHeld r)

/-! ### Answers -/

/-- Completion of a Thaty access: read data in whole granules, an empty CPL for a write, or CA. -/
def bcsCpl (s : State) (r : BcsReq) (res : BcsRes) : Packet :=
  let h := accHdr r.acc
  match res with
  | .refused _ => s.cplPkt h 2 []
  | .done bs =>
    if r.wr then s.cplPkt h 0 []
    else
      let d := padGranules r.off (enabledBytes r.en bs)
      .cpld (s.cplHdr h 0 (d.length / 8 % 512)) d

/-- The answer of an SMBus access: the result, the address past an aligned access, and the bytes read. What a refused read returns is open
(log entry 44). -/
def smbAnswer (s : State) (r : BcsReq) (res : BcsRes) : State :=
  let s := s.modKst fun k => { k with
    smbRes := (match res with | .done _ => 0 | .refused _ => 1)
    smbAddr := if k.smbAddr.toNat % 4 = 0 then k.smbAddr + 4 &&& 0x3FFFFFF else k.smbAddr }
  if r.wr then s else
  match res with
  | .done bs => s.emit (.smb bs)
  | .refused _ => (s.emit (.smb (natBytes 4 (s.free % 2 ^ 32)))).draw

/-- The answer of a TAP access (Table 16.10). -/
def tapAnswer (s : State) (r : BcsReq) (res : BcsRes) : State :=
  match res with
  | .done bs => { s with tap := { s.tap with status := 0, data := if r.wr then s.tap.data else bytesNat bs } }
  | .refused _ => { s with tap := { s.tap with status := 1 } }

/-- An access completes. -/
def respond (s : State) (r : BcsReq) (res : BcsRes) : State :=
  let s := s.emit (.bcs r res)
  match r.via, srcLink r.acc.src with
  | .thaty, some l => if isPosted r then s else s.handTx l (s.bcsCpl r res)
  | .smb, _ => s.smbAnswer r res
  | .tap, _ => s.tapAnswer r res
  | _, _ => s

/-- A refused access (R18, R19, Table 2.5): the capture while it is empty, source 0x000 for a posted write, and CA. -/
def bcsRefuse (s : State) (r : BcsReq) (cause : Nat) : State :=
  let id := if (srcLink r.acc.src).isSome then r.acc.reqId.toNat else 0
  let s := if s.fb Fld.glbBadAccInfo_valid then s
    else (((((((s.setF Fld.glbBadAccAddr_offset r.off).setF Fld.glbBadAccInfo_valid 1).setF Fld.glbBadAccInfo_posted
      (b2n (isPosted r))).setF Fld.glbBadAccInfo_cause cause).setF Fld.glbBadAccInfo_size (sizeCode r.en.length)).setF
      Fld.glbBadAccInfo_source (srcCode r.acc.src)).setF Fld.glbBadAccInfo_req_id id)
  let s := if isPosted r then s.raise 0x000 else s
  s.respond r (.refused cause)

/-! ### Performing -/

/-- A 4-byte write at a BCS offset. `viol`: its access has been recorded under R34 already. -/
def writeWord (s : State) (a : Acc) (off : Nat) (v : Word) (viol : Bool) : State :=
  let base := match blockAt off with | some b => b.base | none => 0
  match targetAt off with
  | .reg id i =>
    if id.row.keyed then (if a.posted then s.keyStray a base off true else s.keyFirst a base off v)
    else if s.reaches a id i then (s.breakPending base).writeReg a id i v viol
    else if id.row.block = .mgt then s.setF Fld.mgtStat_unpriv 1
    else s
  | .viaAlias k id i =>
    if id.row.keyed then s.keyStray a base (regOff id i) true
    else if s.reaches a id i then (s.breakPending base).writeAlias a k id i v viol
    else s.setF Fld.mgtStat_unpriv 1
  | .comp id i => if a.posted then s.keyStray a base (regOff id i) false else s.keySecond a base id i v
  | .aliasComp id i => s.keyStray a base (regOff id i) false
  | .wtt _ | .dvt _ | .reserved => s

/-- Whether a write of a word is recorded under R34. -/
def wordBreaks (s : State) (a : Acc) (off : Nat) (v : Word) : Bool :=
  match targetAt off with
  | .reg id i => s.reaches a id i && s.lockBreaks id i v
  | .viaAlias k id i => s.reaches a id i && (id.row.rw != 0 || id.row.rws != 0) && s.lockBreaks id i (s.aliasValue k id i v)
  | _ => false

/-- Performs a write: bytes of a table entry, one register, or a pair. -/
def bcsWrite (s : State) (r : BcsReq) : State :=
  match targetAt r.off with
  | .wtt k => s.wttWrite k (r.off % 32) r.data
  | .dvt k => s.dvtWrite k (r.off % 16) r.data
  | _ =>
    let v := firstWord r
    let t := s.writeWord r.acc r.off v false
    if r.en.length = 8 then t.writeWord r.acc (r.off + 4) (BitVec.ofNat 32 (fieldAt 4 4 r.data)) (s.wordBreaks r.acc r.off v) else t

/-- Completes an access that was performed; one to KST or IMG when its crossing ends (R24). DESIGN CHOICE (log entry 72): such an access
is performed as it enters the queue, and only its completion is held to the end of the crossing. -/
def finishBcs (s : State) (r : BcsReq) (res : BcsRes) : State :=
  match reqBlock r with
  | some b => if slowBlock b then { s with slowQ := s.slowQ ++ [(r, res)] } else s.respond r res
  | none => s.respond r res

/-- Performs an access. A non-posted write of UPD_STROBE completes when BUSY is 0 again (R30). -/
def bcsPerform (s : State) (r : BcsReq) : State :=
  if r.wr then
    let s := s.bcsWrite r
    if isStrobe r ∧ !r.acc.posted then { s with strobe := { s.strobe with resp := s.strobe.resp ++ [r] } }
    else s.finishBcs r (.done [])
  else
    let x := s.readBytes r.off r.en.length true
    x.2.finishBcs r (.done x.1)

/-- The bytes of a read that G_CTL denies to the debug master (R253): 0xDEAD0BAD in each denied word. -/
def deniedBytes (s : State) (id : Nat) : Nat → List Byte → List Byte
  | _, [] => []
  | x, b :: bs =>
    (if s.judgePart gCtl id (x - x % 4) true false == .deny then BitVec.ofNat 8 (fieldAt (x % 4) 1 (natBytes 4 0xDEAD0BAD)) else b)
      :: s.deniedBytes id (x + 1) bs

/-- An access denied to the debug master completes normally: a write is dropped, and a read has no side effect. -/
def bcsDenied (s : State) (r : BcsReq) : State :=
  if r.wr then s.finishBcs r (.done [])
  else
    let x := s.readBytes r.off r.en.length false
    x.2.finishBcs r (.done (x.2.deniedBytes (accIdent r.acc) r.off x.1))

/-- An access that has its turn leaves the link receive buffer: its packet's credits are returned (R60, R71). -/
def leaveBuffer (s : State) (r : BcsReq) : State :=
  match srcLink r.acc.src with
  | some l => if r.credits = [] then s else s.modLink l fun k => { k with credRet := k.credRet ++ r.credits }
  | none => s

/-- What G_CTL decides about an access. -/
def bcsJudge (s : State) (r : BcsReq) : Verdict :=
  s.judge gCtl (accIdent r.acc) r.off (r.off + r.en.length - 1) (!r.wr) r.wr

/-- An access whose turn it is: refused under the first cause that applies, or performed. DESIGN CHOICE (log entry 73): a posted write that
G_CTL refuses raises both the source of the gate (R249) and source 0x000 (R19), and each class counter counts each. -/
def bcsDo (s : State) (r : BcsReq) : State :=
  let s := s.leaveBuffer r
  match formCause r, reqBlock r with
  | some c, _ => s.bcsRefuse r c
  | none, none => s.bcsRefuse r 1
  | none, some b =>
    if s.modeRefuses b r then s.bcsRefuse r 6 else
    match s.bcsJudge r with
    | .ok => s.bcsPerform r
    | .bad res addr => (s.gateReport gCtl (accIdent r.acc) addr res).bcsRefuse r 5
    | .denied addr => (s.gateReport gCtl (accIdent r.acc) addr .deny).bcsDenied r

/-- Performs every waiting access that need not wait on, oldest first. -/
def drainGo : List BcsReq → List BcsReq → State → State
  | kept, [], s => { s with bcsWait := kept }
  | kept, r :: rs, s => if s.mustWait kept r then drainGo (kept ++ [r]) rs s else drainGo kept rs (s.bcsDo r)

/-- The waiting accesses have another turn. -/
def drain (s : State) : State := drainGo [] s.bcsWait s

/-! ### Arrival -/

/-- An exit cause of DOZE, or of its entry steps (R308, R309). -/
def bcsWakes (s : State) (r : BcsReq) : State :=
  if formCause r = none ∧ dozeHeld r then s.exitSeen 5 0 else s

/-- An access arrives: it waits, or has its turn at once; then those that wait have another turn. -/
def bcsArrive (s : State) (r : BcsReq) : State :=
  let s := (if s.exOn 11 then (s.exUse 11).raise 0x001 else s).bcsWakes r
  if s.mustWait s.bcsWait r then { s with bcsWait := s.bcsWait ++ [r] }
  else if s.bcsWait = [] then s.bcsDo r
  else (s.bcsDo r).drain

/-- Whether a word written at an offset carries a 1 in a PRSV bit (R35), which reads 0. UPD_STROBE ignores its upper bits (R30). -/
def prsvWord (s : State) (a : Acc) (off : Nat) (v : Word) : Bool :=
  match targetAt off with
  | .reg id i => id != .updStrobe && s.reaches a id i && !(id.row.keyed && a.posted) && (v &&& id.row.prsv) != 0
  | .viaAlias _ id i => s.reaches a id i && !id.row.keyed && (v &&& id.row.prsv) != 0
  | _ => false

/-- Whether a write carries a 1 in a PRSV bit and is performed, or may be performed after it has waited: the spec gives no behaviour (R35). -/
def prsvStops (s : State) (r : BcsReq) : Bool :=
  r.wr && formCause r == none
  && (s.prsvWord r.acc r.off (firstWord r) || (r.en.length == 8 && s.prsvWord r.acc (r.off + 4) (BitVec.ofNat 32 (fieldAt 4 4 r.data))))
  && (s.mustWait s.bcsWait r
      || (match reqBlock r with | some b => !s.modeRefuses b r | none => false) && s.bcsJudge r == .ok)

/-- Whether a source can reach the BCS: not in RESET; a link that carries traffic once the BCS is placed (R15); the debug port when DAP_EN
is 1 (R350). -/
def canReach (s : State) (x : Src) : Bool :=
  s.mode != .reset && match x with
    | .tl0 => (s.link 0).flows && s.fb Fld.tlkBcsBaseLo_placed
    | .tl1 => (s.link 1).flows && s.fb Fld.tlkBcsBaseLo_placed
    | .svc => true
    | .dbg => bit 3 (s.f Fld.glbStraps_straps)

/-- A BCS access. -/
def bcsRun (s : State) (r : BcsReq) : Host.Outcome State Fault Refusal :=
  if !s.canReach r.acc.src then .next s
  else if s.prsvStops r then .fault .prsvWrite
  else .next (s.bcsArrive r)

end State

/-- The path of a source's answers. -/
def viaOf (a : Acc) : Via := if (srcLink a.src).isSome then .thaty else .path

/-- A 4-byte write. -/
def wordWrite (a : Acc) (off : Nat) (v : Word) : BcsReq :=
  { acc := a, via := viaOf a, off := off, wr := true, en := List.replicate 4 true, data := wordBytes v }

/-- A 4-byte read, which is never posted. -/
def wordRead (a : Acc) (off : Nat) : BcsReq :=
  { acc := { a with posted := false }, via := viaOf a, off := off, wr := false, en := List.replicate 4 true }

/-- A second step after a first that went on. -/
def thenDo (o : Host.Outcome State Fault Refusal) (g : State → Host.Outcome State Fault Refusal) : Host.Outcome State Fault Refusal :=
  match o with
  | .next s => g s
  | .fault f => .fault f
  | .refused r => .refused r

/-- A write of a word to the register `id` at index `i`. -/
def writeRow (a : Acc) (id : RegId) (i : Nat) (v : Word) (s : State) : Host.Outcome State Fault Refusal :=
  s.start.bcsRun (wordWrite a (regOff id i) v)

/-- The two writes of a keyed pair: `v` to A and `comp` to A + 4. -/
def keyedRow (a : Acc) (id : RegId) (i : Nat) (v comp : Word) (s : State) : Host.Outcome State Fault Refusal :=
  thenDo (s.start.bcsRun (wordWrite a (regOff id i) v)) fun t => t.bcsRun (wordWrite a (regOff id i + 4) comp)

/-- A keyed command register: the row's operation code stands in the field [hi:lo] of both words. -/
def keyedOp (a : Acc) (id : RegId) (hi lo op : Nat) (v comp : Word) (s : State) : Host.Outcome State Fault Refusal :=
  keyedRow a id 0 (setBits hi lo op v) (setBits hi lo (2 ^ (hi + 1 - lo) - 1 - op) comp) s

end Sys2Proof.Machine
end

