-- ==== Sys2Proof/Machine/Clock.lean ====
section
/-! DEFINITION. What passes when no command waits: one REFCLK cycle (log entry 1). -/

namespace Sys2Proof.Machine

/-- One REFCLK cycle (R36, R301): GLB_TS steps, the buckets of the slew governor gain, waiting accesses have another turn, and a link whose
acknowledgement or credits no packet carries sends a block for them, and ports send LINK IDLE. In RESET nothing steps. -/
def State.tick (s : State) : State :=
  let s := s.start
  if s.mode = .reset then s else ((({ s with ts := (s.ts + 1) % 2 ^ 64 }.slewTick).drain).idleBlock 0).idleBlock 1 |>.linkIdle

end Sys2Proof.Machine
end

