-- ==== Sys2Proof/Machine/Regs.lean ====
section
/-! DEFINITION. The commands that access registers and tables, and the events of the register path. A row that names a bit or an operation
code of its register sets it in the word it writes. -/

namespace Sys2Proof.Machine

/-! ### Accesses of any form (R18, R20, R26, R28, R32) -/

/-- The bytes of a write from its first enabled byte on: how many come before, and the rest up to its last enabled byte. -/
def enabledSpan (bs : List (Option Byte)) : Nat × List (Option Byte) :=
  let pre := (bs.takeWhile fun b => b.isNone).length
  (pre, ((bs.drop pre).reverse.dropWhile fun b => b.isNone).reverse)

/-- A write of bytes with their enables at an offset (R46); a write that enables no byte is none. -/
def bytesWrite (a : Acc) (off : Nat) (bs : List (Option Byte)) (s : State) : Host.Outcome State Fault Refusal :=
  let x := enabledSpan bs
  if x.2 = [] then .next s.start
  else s.start.bcsRun
    { acc := a, via := viaOf a, off := off + x.1, wr := true, en := x.2.map Option.isSome, data := x.2.map fun b => b.getD 0 }

/-- REGISTER_WRITE (R18). -/
def execRegisterWrite (a : Acc) (off : BitVec 26) (bytes : List (Option Byte)) (s : State) : Host.Outcome State Fault Refusal :=
  bytesWrite a off.toNat bytes s

/-- CLEAR_ON_READ (R28): a 4-byte read. -/
def execClearOnRead (a : Acc) (off : BitVec 26) (s : State) : Host.Outcome State Fault Refusal :=
  s.start.bcsRun (wordRead a off.toNat)

/-- PAIR_LO_READ (R20): a 4-byte read. -/
def execPairLoRead (a : Acc) (off : BitVec 26) (s : State) : Host.Outcome State Fault Refusal :=
  s.start.bcsRun (wordRead a off.toNat)

/-- PAIR_HI_READ (R20): a 4-byte read. -/
def execPairHiRead (a : Acc) (off : BitVec 26) (s : State) : Host.Outcome State Fault Refusal :=
  s.start.bcsRun (wordRead a off.toNat)

/-- ALIAS_WRITE (R26): a 4-byte write. -/
def execAliasWrite (a : Acc) (off : BitVec 26) (v : Word) (s : State) : Host.Outcome State Fault Refusal :=
  s.start.bcsRun (wordWrite a off.toNat v)

/-- KEYED_WRITE (R32): a 4-byte write of A or A + 4. -/
def execKeyedWrite (a : Acc) (off : BitVec 26) (v : Word) (s : State) : Host.Outcome State Fault Refusal :=
  s.start.bcsRun (wordWrite a off.toNat v)

/-- KEY_PENDING_EXPIRE (R32): the pending first half of the keyed register at an offset ends with cause 0b11. -/
def execKeyPendingExpire (off : BitVec 26) (s : State) : Host.Outcome State Fault Refusal :=
  let s := s.start
  .next <| match s.keyPend.find? fun p => p.2.off == off.toNat with
    | some (base, p) => ({ s with keyPend := FMap.del base s.keyPend } : State).keyFail p.off 3
    | none => s

/-- SLOW_ACCESS_COMPLETE (R24): the oldest crossing ends, its access completes, and its queue place is free. -/
def execSlowAccessComplete (s : State) : Host.Outcome State Fault Refusal :=
  let s := s.start
  .next <| match s.slowQ with
    | [] => s
    | x :: q => (({ s with slowQ := q } : State).respond x.1 x.2).drain

/-! ### The strobe (R30) and the tables (R120, R123, R125) -/

/-- UPD_STROBE (R30). -/
def execUpdStrobe (a : Acc) (mask : Word) (s : State) : Host.Outcome State Fault Refusal := writeRow a .updStrobe 0 mask s

/-- STROBE_COMMIT (R30, R31): the commit edge; the writes that waited for it complete, and those that were held are performed. -/
def execStrobeCommit (s : State) : Host.Outcome State Fault Refusal :=
  let s := s.start
  .next <| match s.strobe.mask with
    | none => s
    | some m =>
      if !s.works then s else
      let resp := s.strobe.resp
      let s : State := { s.commitMask m with strobe := {} }
      (resp.foldl (fun s r => s.respond r (.done [])) s).drain

/-- TABLE_ENTRY_WRITE (R120). The WTT has 65,536 entries, and a DVT entry 16 bytes. -/
def execTableEntryWrite (a : Acc) (tbl : Tbl) (idx : BitVec 18) (byteOff : Fin 32) (bytes : List (Option Byte)) (s : State) :
    Host.Outcome State Fault Refusal :=
  let off := match tbl with
    | .wtt => Block.wtt.base + 32 * (idx.toNat % 65536) + byteOff.val
    | .dvt => Block.dvt.base + 16 * idx.toNat + byteOff.val % 16
  bytesWrite a off bytes s

/-- WTT_DISCARD (R125). -/
def execWttDiscard (a : Acc) (s : State) : Host.Outcome State Fault Refusal := writeRow a .updTblCtl 0 1 s

/-- DVT_DISCARD (R125). -/
def execDvtDiscard (a : Acc) (s : State) : Host.Outcome State Fault Refusal := writeRow a .updTblCtl 0 2 s

/-- TBL_BARRIER_START (R123). -/
def execTblBarrierStart (a : Acc) (s : State) : Host.Outcome State Fault Refusal := writeRow a .updTblBarrier 0 1 s

/-- Whether an operation admitted before the table barrier is still in ADMITTED, ISSUED or FAR-DONE. -/
def State.barrierWaits (s : State) : Bool :=
  s.jnl.entries.any fun p =>
    s.tbl.barrier.contains p.2.serial && (p.2.st == .admitted || p.2.st == .issued || p.2.st == .farDone)

/-- TBL_BARRIER_DONE (R123). -/
def execTblBarrierDone (s : State) : Host.Outcome State Fault Refusal :=
  let s := s.start
  .next <| if !s.works ∨ s.barrierWaits then s else (s.setF Fld.updTblBarrier_done 1).modTbl fun t => { t with barrier := [] }

/-! ### Links and ports -/

/-- TLK_RETRAIN (R67): RETRAIN alone; the RWS field of TLK_CTL is written with what its shadow holds. -/
def execTlkRetrain (a : Acc) (link : Fin 2) (s : State) : Host.Outcome State Fault Refusal :=
  writeRow a .tlkCtl link.val ((s.shadowReg .tlkCtl link.val &&& 0x60) ||| 0x80) s

/-- GPT_RETRAIN (R103). -/
def execGptRetrain (a : Acc) (port : Fin 144) (s : State) : Host.Outcome State Fault Refusal := writeRow a .gptCtl port.val 1 s

/-- GPT_ATTN_ACK (R98). -/
def execGptAttnAck (a : Acc) (port : Fin 144) (v : Word) (s : State) : Host.Outcome State Fault Refusal :=
  writeRow a .gptAttnAck port.val v s

/-- GPT_ATTN_UNMUTE (R99). -/
def execGptAttnUnmute (a : Acc) (port : Fin 144) (v : Word) (s : State) : Host.Outcome State Fault Refusal :=
  writeRow a .gptAttnUnmute port.val v s

/-- GPT_SBI_UNMUTE (R101). -/
def execGptSbiUnmute (a : Acc) (v : Word) (s : State) : Host.Outcome State Fault Refusal := writeRow a .gptSbiUnmute 0 v s

/-! ### Instance pages -/

/-- INST_ATTN_ACK (R271). -/
def execInstAttnAck (a : Acc) (inst : Fin 256) (v : Word) (s : State) : Host.Outcome State Fault Refusal :=
  writeRow a .instAttnAck inst.val v s

/-- INST_ATTN_UNMUTE (R271). -/
def execInstAttnUnmute (a : Acc) (inst : Fin 256) (v : Word) (s : State) : Host.Outcome State Fault Refusal :=
  writeRow a .instAttnUnmute inst.val v s

/-- SQ_DB (R130). -/
def execSqDb (a : Acc) (inst : Fin 256) (q : Fin 4) (v : Word) (s : State) : Host.Outcome State Fault Refusal :=
  writeRow a .sqDb (4 * inst.val + q.val) v s

/-- QP_ENABLE (R129): Q_CFG with EN = 1. -/
def execQpEnable (a : Acc) (inst : Fin 256) (q : Fin 4) (v : Word) (s : State) : Host.Outcome State Fault Refusal :=
  writeRow a .qCfg (4 * inst.val + q.val) (setBits 31 31 1 v) s

/-- QP_DISABLE (R129): Q_CFG with EN = 0. -/
def execQpDisable (a : Acc) (inst : Fin 256) (q : Fin 4) (v : Word) (s : State) : Host.Outcome State Fault Refusal :=
  writeRow a .qCfg (4 * inst.val + q.val) (setBits 31 31 0 v) s

/-- RESUME (R129): Q_CTL with RESUME = 1. -/
def execResume (a : Acc) (inst : Fin 256) (q : Fin 4) (v : Word) (s : State) : Host.Outcome State Fault Refusal :=
  writeRow a .qCtl (4 * inst.val + q.val) (setBits 0 0 1 v) s

/-- CQ_DB (R142, R143). -/
def execCqDb (a : Acc) (inst : Fin 256) (q : Fin 4) (v : Word) (s : State) : Host.Outcome State Fault Refusal :=
  writeRow a .cqDb (4 * inst.val + q.val) v s

/-- PEL_ENABLE (R153): PEL_CFG with EN = 1. -/
def execPelEnable (a : Acc) (inst : Fin 256) (v : Word) (s : State) : Host.Outcome State Fault Refusal :=
  writeRow a .pelCfg inst.val (setBits 31 31 1 v) s

/-- PEL_HEAD (R142). -/
def execPelHead (a : Acc) (inst : Fin 256) (v : Word) (s : State) : Host.Outcome State Fault Refusal := writeRow a .pelHead inst.val v s

/-- PEL_RESUME (R151): PEL_CTL with RESUME = 1. -/
def execPelResume (a : Acc) (inst : Fin 256) (v : Word) (s : State) : Host.Outcome State Fault Refusal :=
  writeRow a .pelCtl inst.val (setBits 0 0 1 v) s

/-- FENCE_DB (R152). -/
def execFenceDb (a : Acc) (inst : Fin 256) (v : Word) (s : State) : Host.Outcome State Fault Refusal := writeRow a .fenceDb inst.val v s

/-! ### The Journal (R178) -/

/-- READ (R178): JNL_CMD with CMD = 1. -/
def execRead (a : Acc) (v : Word) (s : State) : Host.Outcome State Fault Refusal := writeRow a .jnlCmd 0 (setBits 1 0 1 v) s

/-- SCAN (R178): JNL_CMD with CMD = 2. -/
def execScan (a : Acc) (v : Word) (s : State) : Host.Outcome State Fault Refusal := writeRow a .jnlCmd 0 (setBits 1 0 2 v) s

/-- ABORT (R178): JNL_CMD with CMD = 3. -/
def execAbort (a : Acc) (v : Word) (s : State) : Host.Outcome State Fault Refusal := writeRow a .jnlCmd 0 (setBits 1 0 3 v) s

/-! ### Keys and gates -/

/-- KEK_SET (R230): CMP_KEK_LOAD with OP = 1. -/
def execKekSet (a : Acc) (v comp : Word) (s : State) : Host.Outcome State Fault Refusal := keyedOp a .cmpKekLoad 9 8 1 v comp s

/-- KEK_CLEAR (R230): CMP_KEK_LOAD with OP = 2. -/
def execKekClear (a : Acc) (v comp : Word) (s : State) : Host.Outcome State Fault Refusal := keyedOp a .cmpKekLoad 9 8 2 v comp s

/-- KEY_LOAD (R231): CMP_KLD_CMD with OP = 1. -/
def execKeyLoad (a : Acc) (inst : Fin 256) (v : Word) (s : State) : Host.Outcome State Fault Refusal :=
  writeRow a .cmpKldCmd inst.val (setBits 31 30 1 v) s

/-- KEY_CLEAR (R231): CMP_KLD_CMD with OP = 2. -/
def execKeyClear (a : Acc) (inst : Fin 256) (v : Word) (s : State) : Host.Outcome State Fault Refusal :=
  writeRow a .cmpKldCmd inst.val (setBits 31 30 2 v) s

/-- GATE_DEFMAP (R248). -/
def execGateDefmap (a : Acc) (m : Fin 10) (v comp : Word) (s : State) : Host.Outcome State Fault Refusal :=
  keyedRow a .gateDefmap m.val v comp s

/-- GATE_DBG_UNLOCK (R253). -/
def execGateDbgUnlock (a : Acc) (v comp : Word) (s : State) : Host.Outcome State Fault Refusal := keyedRow a .gateDbgUnlock 0 v comp s

/-- GATE_BARRIER_START (R252). -/
def execGateBarrierStart (a : Acc) (s : State) : Host.Outcome State Fault Refusal := writeRow a .gateBarrier 0 1 s

/-- GATE_BARRIER_DONE (R252): the accesses that the barrier waits for are past it; in this model each is judged again before it goes on. -/
def execGateBarrierDone (s : State) : Host.Outcome State Fault Refusal :=
  let s := s.start
  .next <| if s.works then s.setF Fld.gateBarrier_done 1 else s

/-! ### Management, checkers, self-test, fuses -/

/-- MGT_DB (R257). -/
def execMgtDb (a : Acc) (v : Word) (s : State) : Host.Outcome State Fault Refusal := writeRow a .mgtDb 0 v s

/-- MGT_ENABLE (R272): MGT_Q_CFG with EN = 1. -/
def execMgtEnable (a : Acc) (v : Word) (s : State) : Host.Outcome State Fault Refusal := writeRow a .mgtQCfg 0 (setBits 31 31 1 v) s

/-- MGT_RESUME (R257): MGT_CTL with RESUME = 1. -/
def execMgtResume (a : Acc) (v : Word) (s : State) : Host.Outcome State Fault Refusal := writeRow a .mgtCtl 0 (setBits 0 0 1 v) s

/-- FLT_CHK_EXERCISE (R284). -/
def execFltChkExercise (a : Acc) (v comp : Word) (s : State) : Host.Outcome State Fault Refusal := keyedRow a .fltChkExercise 0 v comp s

/-- ONE (R292): BST_CMD with OP = 3. -/
def execOne (a : Acc) (v : Word) (s : State) : Host.Outcome State Fault Refusal := writeRow a .bstCmd 0 (setBits 31 30 3 v) s

/-- FOREGROUND (R292): BST_CMD with OP = 1. -/
def execForeground (a : Acc) (v : Word) (s : State) : Host.Outcome State Fault Refusal := writeRow a .bstCmd 0 (setBits 31 30 1 v) s

/-- STOP (R292): BST_CMD with OP = 2. -/
def execStop (a : Acc) (v : Word) (s : State) : Host.Outcome State Fault Refusal := writeRow a .bstCmd 0 (setBits 31 30 2 v) s

/-- BURN (R295): BST_FUSE_CMD with OP = 1. -/
def execBurn (a : Acc) (v comp : Word) (s : State) : Host.Outcome State Fault Refusal := keyedOp a .bstFuseCmd 9 8 1 v comp s

/-- ENGINE (R295): BST_FUSE_CMD with OP = 2. -/
def execEngine (a : Acc) (v comp : Word) (s : State) : Host.Outcome State Fault Refusal := keyedOp a .bstFuseCmd 9 8 2 v comp s

/-! ### Flash and settings (R346, R347) -/

/-- READ_FLASH (R346): IMG_FL_CMD with OP = 1. -/
def execReadFlash (a : Acc) (v : Word) (s : State) : Host.Outcome State Fault Refusal := writeRow a .imgFlCmd 0 (setBits 31 29 1 v) s

/-- PROGRAM (R346): IMG_FL_CMD with OP = 2. -/
def execProgram (a : Acc) (v : Word) (s : State) : Host.Outcome State Fault Refusal := writeRow a .imgFlCmd 0 (setBits 31 29 2 v) s

/-- ERASE (R346): IMG_FL_CMD with OP = 3. -/
def execErase (a : Acc) (v : Word) (s : State) : Host.Outcome State Fault Refusal := writeRow a .imgFlCmd 0 (setBits 31 29 3 v) s

/-- VERIFY (R346): IMG_FL_CMD with OP = 4. -/
def execVerify (a : Acc) (v : Word) (s : State) : Host.Outcome State Fault Refusal := writeRow a .imgFlCmd 0 (setBits 31 29 4 v) s

/-- IMG_BOOT_CFG (R336, R347). -/
def execImgBootCfg (a : Acc) (v comp : Word) (s : State) : Host.Outcome State Fault Refusal := keyedRow a .imgBootCfg 0 v comp s

/-- EMPTY_SOFT_REPAIR_MAP (R344): IMG_SET_CMD with OP = 1. -/
def execEmptySoftRepairMap (a : Acc) (v comp : Word) (s : State) : Host.Outcome State Fault Refusal := keyedOp a .imgSetCmd 1 0 1 v comp s

/-- EMPTY_FATAL_RECORDS (R344): IMG_SET_CMD with OP = 2. -/
def execEmptyFatalRecords (a : Acc) (v comp : Word) (s : State) : Host.Outcome State Fault Refusal := keyedOp a .imgSetCmd 1 0 2 v comp s

/-- FORCE_SETTINGS_WRITE (R344): IMG_SET_CMD with OP = 3. -/
def execForceSettingsWrite (a : Acc) (v comp : Word) (s : State) : Host.Outcome State Fault Refusal := keyedOp a .imgSetCmd 1 0 3 v comp s

/-- IMG_SVN_BURN (R347). -/
def execImgSvnBurn (a : Acc) (v comp : Word) (s : State) : Host.Outcome State Fault Refusal := keyedRow a .imgSvnBurn 0 v comp s

/-! ### DOZE exit -/

/-- DOZE_EXIT_DONE (R310): the last Hub port is usable, RUN is reached, and the held accesses are performed. -/
def execDozeExitDone (s : State) : Host.Outcome State Fault Refusal :=
  let s := s.start
  .next <|
    if s.mode = .doze ∧ s.phase = .exiting ∧ !s.pwr.coreGated ∧ s.hubAllUp then s.reachRun.drain else s

/-! ### Requests from the Thaty links (R51, R52) -/

/-- The base of the BCS (R15). -/
def State.bcsBase (s : State) : Nat := s.f Fld.tlkBcsBaseLo_base_lo * 2 ^ 26 + s.f Fld.tlkBcsBaseHi_base_hi * 2 ^ 32

/-- Whether a request's address lies in the BCS. -/
def State.inBcs (s : State) (h : ReqHdr) : Bool :=
  s.fb Fld.tlkBcsBaseLo_placed && reqFirst h / 2 ^ 26 * 2 ^ 26 == s.bcsBase

/-- Whether a byte of a request is enabled, by its address (R46). -/
def reqEnabled (h : ReqHdr) (x : Nat) : Bool :=
  let n := granulesOf h.len.toNat
  let g := (x - h.addr.toNat) / 8
  let b := (x - h.addr.toNat) % 8
  if g = 0 then bit b h.fbe.toNat else if g = n - 1 then bit b h.lbe.toNat else true

/-- The BCS access that a request is (R46). -/
def reqAccess (l : Nat) (h : ReqHdr) (wr : Bool) (data : List Byte) : BcsReq :=
  let a := reqFirst h
  let n := reqLast h + 1 - a
  { acc := { src := srcOf l, reqId := h.reqId, priv := h.priv, posted := wr && !h.np, vc := h.vc, tag := h.tag }
    via := .thaty, off := a % 2 ^ 26, wr := wr, en := (List.range n).map fun k => reqEnabled h (a + k)
    data := if wr then slice (a - h.addr.toNat) n data else [] }

/-- MRD (R51, R52, R71). In HALT too, the checks of Table 3.8 come first, and the CA of R70 answers a request that passes them (DEDUCED, log
entry 75). -/
def execMrd (link : Fin 2) (h : ReqHdr) (s : State) : Host.Outcome State Fault Refusal :=
  let s := s.start
  let l := link.val
  if s.mode = .reset ∨ !(s.link l).flows then .next s else
  let s := s.takeIn l (.mrd h)
  if !reqOk h then .next (((s.rxBad l Fld.tlkRxErr_malformed).refuseReq l h false 1).giveCredits l (.mrd h))
  else if s.inBcs h then s.bcsRun { reqAccess l h false [] with credits := packetReturns (.mrd h) }
  else .next (s.winRequest l (.mrd h) h false [])

/-- MWR (R51, R52, R71). In HALT too, a malformed or poisoned non-posted one completes with UR or PS (DEDUCED, log entry 75). -/
def execMwr (link : Fin 2) (h : ReqHdr) (bytes : List Byte) (s : State) : Host.Outcome State Fault Refusal :=
  let s := s.start
  let l := link.val
  let p := Packet.mwr h bytes
  if s.mode = .reset ∨ !(s.link l).flows then .next s else
  let s := s.takeIn l p
  if !reqOk h then .next (((s.rxBad l Fld.tlkRxErr_malformed).refuseReq l h true 1).giveCredits l p)
  else if h.poison then .next (s.poisonedMwr l p h bytes (s.inBcs h))
  else if s.inBcs h then s.bcsRun { reqAccess l h true bytes with credits := packetReturns p }
  else .next (s.winRequest l p h true bytes)

end Sys2Proof.Machine
end

