-- ==== Sys2Proof/Machine/Smb.lean ====
section
/-! DEFINITION. The SMBus target (R323, R324): the commands of Table 14.11, the telemetry record of Table 14.12, and the alert. -/

namespace Sys2Proof.Machine

namespace State

/-- Whether an SMBus access is still in progress: SMB_SCL is stretched, and no further command can come (R324). -/
def smbBusy (s : State) : Bool :=
  s.bcsWait.any (·.via == .smb) || s.slowQ.any (·.1.via == .smb) || s.strobe.resp.any (·.via == .smb)

/-- Whether the target answers: 1 ms after VDD_AON, and not while it stretches the clock. -/
def smbHears (s : State) : Bool := s.kst.smbUp && !s.smbBusy

/-- A command with a bad PEC is NACKed on its last byte and counted. -/
def smbBadPec (s : State) : State := (s.emit .smbNack).incF Fld.kstSmb_pec_err

/-- A command that the target hears: `g` where its PEC is good. -/
def smbCmd (s : State) (pecOk : Bool) (g : State → State) : State :=
  if !s.smbHears then s else if pecOk then g s else s.smbBadPec

/-- The result of the last BCS access. -/
def setSmbRes (s : State) (r : Nat) : State := s.modKst fun k => { k with smbRes := r }

/-- A temperature byte of the telemetry record. -/
def telemTemp (s : State) (n : Nat) : Byte := if s.fb Fld.pwrTemp_valid n then BitVec.ofNat 8 (s.f Fld.pwrTemp_temp n) else 0x80

/-- Logical ports in UP. -/
def portsUp (s : State) : Nat := ((List.range 144).filter fun p => s.isLead p && (s.port p).st == .up).length

/-- The telemetry record (Table 14.12); POWER is as PWR_POWER reads. -/
def telemetry (s : State) (power : Nat) : List Byte :=
  natBytes 1 (b2n s.flt.aliveRun * 2 ^ 7 + modeCode s.mode)
  ++ natBytes 1 (s.f Fld.fltFirstSrc_valid * 2 ^ 7 + s.f Fld.fltHighest_class)
  ++ natBytes 2 (s.f Fld.pwrAvsStat_vset)
  ++ (List.range 8).map s.telemTemp
  ++ natBytes 2 power ++ natBytes 2 (s.f Fld.pwrDroopStat_count) ++ natBytes 4 (s.ts % 2 ^ 32)
  ++ natBytes 4 (s.reg .kstAlert).toNat
  ++ natBytes 1 ((s.liveWord .tlkStat 0).toNat % 256) ++ natBytes 1 ((s.liveWord .tlkStat 1).toNat % 256)
  ++ natBytes 2 s.portsUp ++ List.replicate 4 0

/-- A service-path access of one word by SMBus. -/
def smbAccess (s : State) (off : Nat) (wr : Bool) (v : Word) (via : Via) : Host.Outcome State Fault Refusal :=
  s.bcsRun { acc := { src := .svc }, via := via, off := off, wr := wr, en := List.replicate 4 true, data := if wr then wordBytes v else [] }

/-- BCS_READ and BCS_WRITE: not performed in RESET or with a bad PEC. -/
def smbBcs (s : State) (wr : Bool) (v : Word) (pecOk : Bool) : Host.Outcome State Fault Refusal :=
  if !s.smbHears then .next s
  else if !pecOk then .next (s.smbBadPec.setSmbRes 2)
  else if s.mode = .reset then .next (s.setSmbRes 2)
  else s.smbAccess s.kst.smbAddr.toNat wr v .smb

end State

/-- TELEM (R323). -/
def execTelem (pecOk : Bool) (s : State) : Host.Outcome State Fault Refusal :=
  .next (s.start.smbCmd pecOk fun s => (s.emit (.smb (s.telemetry (s.free % 2 ^ 16)))).draw)

/-- MODE (R323): a keyed write of GLB_MODE_REQ by the service path. TARGET is the low three bits of its low byte. In RESET it is NACKed. -/
def execMode (lo hi : Byte) (pecOk : Bool) (s : State) : Host.Outcome State Fault Refusal :=
  let s := s.start
  if !s.smbHears then .next s
  else if !pecOk then .next s.smbBadPec
  else if s.mode = .reset then .next (s.emit .smbNack)
  else
    let good := hi = ~~~ lo
    let v : Word := BitVec.ofNat 32 (lo.toNat % 8)
    thenDo (s.smbAccess (regOff .glbModeReq 0) true v .path) fun t =>
      t.smbAccess (regOff .glbModeReq 0 + 4) true (if good then ~~~ v else v) .path

/-- BCS_ADDR (R323): bits [31:26] are ignored. -/
def execBcsAddr (v : Word) (pecOk : Bool) (s : State) : Host.Outcome State Fault Refusal :=
  .next (s.start.smbCmd pecOk fun s => s.modKst fun k => { k with smbAddr := v &&& 0x3FFFFFF })

/-- BCS_READ (R323, R324). -/
def execBcsRead (pecOk : Bool) (s : State) : Host.Outcome State Fault Refusal := s.start.smbBcs false 0 pecOk

/-- BCS_WRITE (R323, R324). -/
def execBcsWrite (v : Word) (pecOk : Bool) (s : State) : Host.Outcome State Fault Refusal := s.start.smbBcs true v pecOk

/-- BCS_RESULT (R323, R355): in RESET it reads 0x02. -/
def execBcsResult (pecOk : Bool) (s : State) : Host.Outcome State Fault Refusal :=
  .next (s.start.smbCmd pecOk fun s => s.emit (.smb (natBytes 1 (if s.mode = .reset then 2 else s.kst.smbRes))))

/-- TRIGGER (R323): a pulse on the SMBus input of a rule until the next sample. -/
def execTrigger (b : Byte) (pecOk : Bool) (s : State) : Host.Outcome State Fault Refusal :=
  .next (s.start.smbCmd pecOk fun s => s.modKst fun k =>
    { k with trig := if k.trig.contains (b.toNat % 32) then k.trig else k.trig ++ [b.toNat % 32] })

/-- ALERTS (R323): KST_ALERT as a read at its base offset. -/
def execAlerts (pecOk : Bool) (s : State) : Host.Outcome State Fault Refusal :=
  .next (s.start.smbCmd pecOk fun s =>
    let r := s.readReg .kstAlert 0
    r.2.emit (.smb (wordBytes r.1)))

/-- ALERT_RESPONSE_ADDRESS (R324): while it asserts SMB_ALERT_N the target answers with its address and releases it. -/
def execAlertResponseAddress (s : State) : Host.Outcome State Fault Refusal :=
  let s := s.start
  .next <|
    if !s.smbHears ∨ s.kst.alertNew = 0 then s
    else (s.emit (.smb (natBytes 1 (2 * s.f Fld.kstSmb_addr)))).modKst fun k => { k with alertNew := 0 }

/-- The command codes of Table 14.11. -/
def smbCodes : List Byte := [0x01, 0x02, 0x10, 0x11, 0x12, 0x13, 0x20, 0x21]

/-- SMBUS_UNKNOWN_COMMAND (R323): a code that Table 14.11 does not list is NACKed and counted. -/
def execSmbusUnknownCommand (code : Byte) (s : State) : Host.Outcome State Fault Refusal :=
  let s := s.start
  .next <| if !s.smbHears ∨ smbCodes.contains code then s else (s.emit .smbNack).incF Fld.kstSmb_nacks

end Sys2Proof.Machine
end

