-- ==== Sys2Proof/Machine/Tap.lean ====
section
/-! DEFINITION. The test access port (R365), its access register (R366), and the Landing memory view (R367). -/

namespace Sys2Proof.Machine

/-! ### Instructions (Table 16.9) -/

/-- The listed instruction codes. -/
def tapCodes : List Byte := [0x00, 0x01, 0x02, 0x03, 0x04, 0x05, 0x06, 0x20, 0x21]

/-- The codes that are accepted only in RESET. -/
def resetOnly : List Byte := [0x00, 0x03, 0x04, 0x05, 0x06]

/-- What the instruction register makes the TAP do now: the loaded code, or BYPASS where it acts as BYPASS. -/
def State.tapActs (s : State) : Byte :=
  let c := s.tap.ir
  if !tapCodes.contains c then 0xFF
  else if resetOnly.contains c ∧ s.mode ≠ .reset then 0xFF
  else if c = 0x21 ∧ !bit 3 (s.f Fld.glbStraps_straps) then 0xFF
  else c

/-- The identification register (Table 16.9). -/
def idcodeWord : Nat := 0x10144ABD

/-- Loads an instruction. TDO gives the captured 0b0000_0001, then what the data register selected captures, where the spec gives it: the
identification, or the bypass bit. -/
def State.loadIr (s : State) (c : Byte) : State :=
  let s := ({ s with tap := { s.tap with ir := c } } : State).emit (.tdo 1)
  let a := s.tapActs
  if a = 0x01 then s.emit (.tdo idcodeWord)
  else if a = 0xFF ∨ a = 0x05 ∨ a = 0x06 then s.emit (.tdo 0)
  else s

/-- EXTEST (R365). -/
def execExtest (s : State) : Host.Outcome State Fault Refusal := .next (s.start.loadIr 0x00)

/-- IDCODE (R365). -/
def execIdcode (s : State) : Host.Outcome State Fault Refusal := .next (s.start.loadIr 0x01)

/-- SAMPLE/PRELOAD (R365). -/
def execSamplePreload (s : State) : Host.Outcome State Fault Refusal := .next (s.start.loadIr 0x02)

/-- EXTEST_PULSE (R365). -/
def execExtestPulse (s : State) : Host.Outcome State Fault Refusal := .next (s.start.loadIr 0x03)

/-- EXTEST_TRAIN (R365). -/
def execExtestTrain (s : State) : Host.Outcome State Fault Refusal := .next (s.start.loadIr 0x04)

/-- CLAMP (R365). -/
def execClamp (s : State) : Host.Outcome State Fault Refusal := .next (s.start.loadIr 0x05)

/-- HIGHZ (R365). -/
def execHighz (s : State) : Host.Outcome State Fault Refusal := .next (s.start.loadIr 0x06)

/-- BYPASS (R365): 0xFF, or a code that is not listed; a listed code is not this command. -/
def execBypass (code : BitVec 8) (s : State) : Host.Outcome State Fault Refusal :=
  .next (if tapCodes.contains code then s.start else s.start.loadIr code)

/-- TRST_N_ASSERT (R365): Test-Logic-Reset, in which IDCODE is the instruction. -/
def execTrstNAssert (s : State) : Host.Outcome State Fault Refusal := .next { s.start with tap := { s.tap with ir := 1 } }

namespace State

/-! ### The Landing memory view (R367) -/

/-- Whether the bytes of the view stand as written: the pool is formed, no operation or context holds anything, and nothing has been admitted
since. -/
def landKnown (s : State) : Bool := s.img.formed && s.ops.isEmpty && s.ctxs.isEmpty && s.land.epoch == s.jnl.serial

/-- A byte of the view, `open_` where the spec leaves it open. LOAD wrote zeros (R339). -/
def landByte (s : State) (open_ : Byte) (x : Nat) : Byte :=
  if !s.landKnown then open_ else
  match FMap.find x s.land.cells with
  | some b => b
  | none => if s.land.epoch = 0 then 0 else open_

/-- A word of the view. -/
def landRead (s : State) (x : Nat) : List Byte × State :=
  let o := natBytes 4 (s.free % 2 ^ 32)
  ((List.range 4).map fun k => s.landByte (BitVec.ofNat 8 (fieldAt k 1 o)) (x + k), s.draw)

/-- One byte written: a zero is not listed while unlisted bytes are zero. -/
def landPut (m : Land) (x : Nat) (b : Byte) : Land :=
  { m with cells := if m.epoch = 0 then FMap.set 0 x b m.cells else FMap.put x b m.cells }

/-- The record of the view before a write now: what traffic may have overwritten is forgotten. -/
def landFresh (s : State) : Land := if s.land.epoch = s.jnl.serial then s.land else { cells := [], epoch := s.jnl.serial }

/-- A word written to the view. While operations hold grains, or before the pool is formed, what the place holds afterwards stays open. -/
def landWrite (s : State) (x : Nat) (bs : List Byte) : State :=
  if !s.img.formed || !s.ops.isEmpty || !s.ctxs.isEmpty then s else
  { s with land := (List.range 4).foldl (fun m k => landPut m (x + k) (BitVec.ofNat 8 (fieldAt k 1 bs))) s.landFresh }

/-- Whether a mode permits an access to the view. -/
def landMode (s : State) (wr : Bool) : Bool :=
  match s.mode with
  | .service => true
  | .run | .doze | .halt => !wr
  | .reset | .load => false

/-- An access to the view: refused outside its modes, above its end, or by G_BUF; denied to the debug master as R253 gives. -/
def landAccess (s : State) (a : Acc) (x : Nat) (wr : Bool) (v : Nat) : State :=
  let done (s : State) (st : Nat) : State := { s with tap := { s.tap with status := st } }
  if !s.landMode wr ∨ 2 ^ 25 ≤ x then done s 1 else
  let id := accIdent a
  match s.judge gBuf id x (x + 3) (!wr) wr with
  | .bad res addr => done (s.gateReport gBuf id addr res) 1
  | .denied addr =>
    let s := done (s.gateReport gBuf id addr .deny) 0
    if wr then s else { s with tap := { s.tap with data := 0xDEAD0BAD } }
  | .ok =>
    if wr then done (s.landWrite x (natBytes 4 v)) 0
    else
      let s := if s.exOn 1 then (s.landWordError (s.subOf .landing (x / 131072)) none (s.free % 256) (s.exKind 1 .corrected)).draw else s
      let r := s.landRead x
      let s := done r.2 0
      { s with tap := { s.tap with data := bytesNat r.1 } }

/-! ### The access register (Table 16.10) -/

/-- What Capture-DR loads. -/
def tapCapture (t : Tap) : Nat :=
  t.data + t.addr * 2 ^ 32 + b2n t.wr * 2 ^ 58 + b2n t.space * 2 ^ 59 + t.status * 2 ^ 60

/-- Update-DR with OP = 1 starts an access, unless one is in progress. -/
def tapUpdate (s : State) (a : Acc) (dr : Nat) : Host.Outcome State Fault Refusal :=
  if !bit 60 dr ∨ s.tap.status = 2 then .next s else
  let x := dr / 2 ^ 32 % 2 ^ 26
  let wr := bit 58 dr
  let s : State := { s with tap := { s.tap with addr := x, wr := wr, space := bit 59 dr, status := 3 } }
  if s.mode = .reset ∨ x % 4 ≠ 0 then .next s
  else if bit 59 dr then .next (s.landAccess a x wr (dr % 2 ^ 32))
  else
    ({ s with tap := { s.tap with status := 2 } } : State).bcsRun
      { acc := a, via := .tap, off := x, wr := wr, en := List.replicate 4 true, data := if wr then natBytes 4 (dr % 2 ^ 32) else [] }

/-- A scan of the access register: the captured result goes out, then the update acts. -/
def tapScan (s : State) (c : Byte) (a : Acc) (dr : Nat) : Host.Outcome State Fault Refusal :=
  let s : State := { s with tap := { s.tap with ir := c } }
  if s.tapActs = 0xFF then .next (s.emit (.tdo 0))
  else (s.emit (.tdo (tapCapture s.tap))).tapUpdate a dr

end State

/-- SVC_ACC (R366). -/
def execSvcAcc (dr : BitVec 64) (s : State) : Host.Outcome State Fault Refusal := s.start.tapScan 0x20 { src := .svc } dr.toNat

/-- DAP_ACC (R366). -/
def execDapAcc (dr : BitVec 64) (s : State) : Host.Outcome State Fault Refusal := s.start.tapScan 0x21 { src := .dbg } dr.toNat

end Sys2Proof.Machine
end

