-- ==== Sys2Proof/Machine/Dispatch.lean ====
section
/-! DEFINITION. One arm per command: a direct call of its meaning. -/

namespace Sys2Proof.Machine

def exec (i : Instr) (s : State) : Host.Outcome State Fault Refusal :=
  match i with
  | .perstNAssert => Sys2Proof.Machine.execPerstNAssert s
  | .perstNRelease straps => Sys2Proof.Machine.execPerstNRelease straps s
  | .rootPllLock => Sys2Proof.Machine.execRootPllLock s
  | .rootPllLockLoss => Sys2Proof.Machine.execRootPllLockLoss s
  | .fuseSense f => Sys2Proof.Machine.execFuseSense f s
  | .flashDiscovery info => Sys2Proof.Machine.execFlashDiscovery info s
  | .settingsRead x y => Sys2Proof.Machine.execSettingsRead x y s
  | .slotFetch bytes => Sys2Proof.Machine.execSlotFetch bytes s
  | .slotChecks => Sys2Proof.Machine.execSlotChecks s
  | .loadCoreVoltage => Sys2Proof.Machine.execLoadCoreVoltage s
  | .loadBist r => Sys2Proof.Machine.execLoadBist r s
  | .loadCommit => Sys2Proof.Machine.execLoadCommit s
  | .loadEnd => Sys2Proof.Machine.execLoadEnd s
  | .aliveToggle => Sys2Proof.Machine.execAliveToggle s
  | .livenessToken => Sys2Proof.Machine.execLivenessToken s
  | .livenessTimeout collectorRuns => Sys2Proof.Machine.execLivenessTimeout collectorRuns s
  | .droopNAssert => Sys2Proof.Machine.execDroopNAssert s
  | .droopNRelease => Sys2Proof.Machine.execDroopNRelease s
  | .stretchRampStep => Sys2Proof.Machine.execStretchRampStep s
  | .adaptationResume => Sys2Proof.Machine.execAdaptationResume s
  | .tempSensorUpdate t => Sys2Proof.Machine.execTempSensorUpdate t s
  | .avsWrite => Sys2Proof.Machine.execAvsWrite s
  | .avsTransactionDone ok vread => Sys2Proof.Machine.execAvsTransactionDone ok vread s
  | .kickstandSample k => Sys2Proof.Machine.execKickstandSample k s
  | .registerWrite a off bytes => Sys2Proof.Machine.execRegisterWrite a off bytes s
  | .clearOnRead a off => Sys2Proof.Machine.execClearOnRead a off s
  | .pairLoRead a off => Sys2Proof.Machine.execPairLoRead a off s
  | .pairHiRead a off => Sys2Proof.Machine.execPairHiRead a off s
  | .aliasWrite a off v => Sys2Proof.Machine.execAliasWrite a off v s
  | .keyedWrite a off v => Sys2Proof.Machine.execKeyedWrite a off v s
  | .keyPendingExpire off => Sys2Proof.Machine.execKeyPendingExpire off s
  | .slowAccessComplete => Sys2Proof.Machine.execSlowAccessComplete s
  | .updStrobe a mask => Sys2Proof.Machine.execUpdStrobe a mask s
  | .strobeCommit => Sys2Proof.Machine.execStrobeCommit s
  | .tableEntryWrite a tbl idx byteOff bytes => Sys2Proof.Machine.execTableEntryWrite a tbl idx byteOff bytes s
  | .wttDiscard a => Sys2Proof.Machine.execWttDiscard a s
  | .dvtDiscard a => Sys2Proof.Machine.execDvtDiscard a s
  | .tblBarrierStart a => Sys2Proof.Machine.execTblBarrierStart a s
  | .tblBarrierDone => Sys2Proof.Machine.execTblBarrierDone s
  | .linkBlockReceive link block => Sys2Proof.Machine.execLinkBlockReceive link block s
  | .replayTimeout link => Sys2Proof.Machine.execReplayTimeout link s
  | .retrainReq link => Sys2Proof.Machine.execRetrainReq link s
  | .quietAck link => Sys2Proof.Machine.execQuietAck link s
  | .fullReq link => Sys2Proof.Machine.execFullReq link s
  | .uncorrThreshold link n => Sys2Proof.Machine.execUncorrThreshold link n s
  | .laneLockLoss link lane => Sys2Proof.Machine.execLaneLockLoss link lane s
  | .tlkRetrain a link => Sys2Proof.Machine.execTlkRetrain a link s
  | .linkTrainingSuccess link t => Sys2Proof.Machine.execLinkTrainingSuccess link t s
  | .linkTrainingFail link lanes => Sys2Proof.Machine.execLinkTrainingFail link lanes s
  | .linkTrainTimeout link => Sys2Proof.Machine.execLinkTrainTimeout link s
  | .linkRetryInterval link => Sys2Proof.Machine.execLinkRetryInterval link s
  | .failover link => Sys2Proof.Machine.execFailover link s
  | .downLimit link => Sys2Proof.Machine.execDownLimit link s
  | .mrd link h => Sys2Proof.Machine.execMrd link h s
  | .mwr link h bytes => Sys2Proof.Machine.execMwr link h bytes s
  | .cpl link h bytes => Sys2Proof.Machine.execCpl link h bytes s
  | .cpld link h bytes => Sys2Proof.Machine.execCpld link h bytes s
  | .wakeMsg link h body => Sys2Proof.Machine.execWakeMsg link h body s
  | .place link h body => Sys2Proof.Machine.execPlace link h body s
  | .cplTimeout link tag => Sys2Proof.Machine.execCplTimeout link tag s
  | .tagQuarantineEnd link tag => Sys2Proof.Machine.execTagQuarantineEnd link tag s
  | .deferredAdmission link => Sys2Proof.Machine.execDeferredAdmission link s
  | .oversizeAdmission link => Sys2Proof.Machine.execOversizeAdmission link s
  | .c0HeldRelease inst => Sys2Proof.Machine.execC0HeldRelease inst s
  | .data port f => Sys2Proof.Machine.execData port f s
  | .status port f => Sys2Proof.Machine.execStatus port f s
  | .retry port f => Sys2Proof.Machine.execRetry port f s
  | .pollResp port f => Sys2Proof.Machine.execPollResp port f s
  | .upWr port f => Sys2Proof.Machine.execUpWr port f s
  | .upRd port f => Sys2Proof.Machine.execUpRd port f s
  | .upData port f => Sys2Proof.Machine.execUpData port f s
  | .align port f => Sys2Proof.Machine.execAlign port f s
  | .alignSend port => Sys2Proof.Machine.execAlignSend port s
  | .coefReq port member f => Sys2Proof.Machine.execCoefReq port member f s
  | .coefStat port member f => Sys2Proof.Machine.execCoefStat port member f s
  | .txRefresh port member eye => Sys2Proof.Machine.execTxRefresh port member eye s
  | .coefNoresp port member => Sys2Proof.Machine.execCoefNoresp port member s
  | .exchangeOpen port daddr => Sys2Proof.Machine.execExchangeOpen port daddr s
  | .responseTimeout port daddr => Sys2Proof.Machine.execResponseTimeout port daddr s
  | .guardEnd port daddr => Sys2Proof.Machine.execGuardEnd port daddr s
  | .rsvTimeExpire port daddr => Sys2Proof.Machine.execRsvTimeExpire port daddr s
  | .lossCountExpire port daddr => Sys2Proof.Machine.execLossCountExpire port daddr s
  | .unlockWr port daddr => Sys2Proof.Machine.execUnlockWr port daddr s
  | .lockTimeout port daddr => Sys2Proof.Machine.execLockTimeout port daddr s
  | .pollPeriod dn => Sys2Proof.Machine.execPollPeriod dn s
  | .attnInterval => Sys2Proof.Machine.execAttnInterval s
  | .portLeavesUp port => Sys2Proof.Machine.execPortLeavesUp port s
  | .gptRetrain a port => Sys2Proof.Machine.execGptRetrain a port s
  | .portTrained port => Sys2Proof.Machine.execPortTrained port s
  | .portTrainTimeout port => Sys2Proof.Machine.execPortTrainTimeout port s
  | .portRetryInterval port => Sys2Proof.Machine.execPortRetryInterval port s
  | .downHoldExpire port => Sys2Proof.Machine.execDownHoldExpire port s
  | .gptAttnAck a port v => Sys2Proof.Machine.execGptAttnAck a port v s
  | .gptAttnUnmute a port v => Sys2Proof.Machine.execGptAttnUnmute a port v s
  | .gptSbiUnmute a v => Sys2Proof.Machine.execGptSbiUnmute a v s
  | .instAttnAck a inst v => Sys2Proof.Machine.execInstAttnAck a inst v s
  | .instAttnUnmute a inst v => Sys2Proof.Machine.execInstAttnUnmute a inst v s
  | .sqDb a inst q v => Sys2Proof.Machine.execSqDb a inst q v s
  | .qpEnable a inst q v => Sys2Proof.Machine.execQpEnable a inst q v s
  | .qpDisable a inst q v => Sys2Proof.Machine.execQpDisable a inst q v s
  | .resume a inst q v => Sys2Proof.Machine.execResume a inst q v s
  | .cqDb a inst q v => Sys2Proof.Machine.execCqDb a inst q v s
  | .dispatch => Sys2Proof.Machine.execDispatch s
  | .startEntryFetched inst q => Sys2Proof.Machine.execStartEntryFetched inst q s
  | .ccdFetch ctx => Sys2Proof.Machine.execCcdFetch ctx s
  | .ccdAdmission ctx => Sys2Proof.Machine.execCcdAdmission ctx s
  | .dataFetch ctx => Sys2Proof.Machine.execDataFetch ctx s
  | .completionEntry je => Sys2Proof.Machine.execCompletionEntry je s
  | .cqCoalTime inst q => Sys2Proof.Machine.execCqCoalTime inst q s
  | .waitAttnTimeout je => Sys2Proof.Machine.execWaitAttnTimeout je s
  | .noticeWrite inst => Sys2Proof.Machine.execNoticeWrite inst s
  | .pelEnable a inst v => Sys2Proof.Machine.execPelEnable a inst v s
  | .pelHead a inst v => Sys2Proof.Machine.execPelHead a inst v s
  | .pelResume a inst v => Sys2Proof.Machine.execPelResume a inst v s
  | .fenceDb a inst v => Sys2Proof.Machine.execFenceDb a inst v s
  | .fenceDone inst => Sys2Proof.Machine.execFenceDone inst s
  | .instructionRetry je passes => Sys2Proof.Machine.execInstructionRetry je passes s
  | .contextRebuild je => Sys2Proof.Machine.execContextRebuild je s
  | .read a v => Sys2Proof.Machine.execRead a v s
  | .scan a v => Sys2Proof.Machine.execScan a v s
  | .scanDone => Sys2Proof.Machine.execScanDone s
  | .abort a v => Sys2Proof.Machine.execAbort a v s
  | .subbankSwap target spare => Sys2Proof.Machine.execSubbankSwap target spare s
  | .watchdogTick => Sys2Proof.Machine.execWatchdogTick s
  | .watchdogSelect => Sys2Proof.Machine.execWatchdogSelect s
  | .chunkDone je unit => Sys2Proof.Machine.execChunkDone je unit s
  | .chunkCheckFail je unit => Sys2Proof.Machine.execChunkCheckFail je unit s
  | .kekSet a v comp => Sys2Proof.Machine.execKekSet a v comp s
  | .kekClear a v comp => Sys2Proof.Machine.execKekClear a v comp s
  | .keyLoad a inst v => Sys2Proof.Machine.execKeyLoad a inst v s
  | .keyClear a inst v => Sys2Proof.Machine.execKeyClear a inst v s
  | .keyUnwrap inst => Sys2Proof.Machine.execKeyUnwrap inst s
  | .gateDefmap a m v comp => Sys2Proof.Machine.execGateDefmap a m v comp s
  | .gateDbgUnlock a v comp => Sys2Proof.Machine.execGateDbgUnlock a v comp s
  | .gateBarrierStart a => Sys2Proof.Machine.execGateBarrierStart a s
  | .gateBarrierDone => Sys2Proof.Machine.execGateBarrierDone s
  | .mgtDb a v => Sys2Proof.Machine.execMgtDb a v s
  | .mgtEnable a v => Sys2Proof.Machine.execMgtEnable a v s
  | .mgtResume a v => Sys2Proof.Machine.execMgtResume a v s
  | .create => Sys2Proof.Machine.execCreate s
  | .resize => Sys2Proof.Machine.execResize s
  | .reset => Sys2Proof.Machine.execReset s
  | .destroy => Sys2Proof.Machine.execDestroy s
  | .assign => Sys2Proof.Machine.execAssign s
  | .release => Sys2Proof.Machine.execRelease s
  | .drainTimeout inst => Sys2Proof.Machine.execDrainTimeout inst s
  | .resetCompletion inst => Sys2Proof.Machine.execResetCompletion inst s
  | .fltChkExercise a v comp => Sys2Proof.Machine.execFltChkExercise a v comp s
  | .sliceStart => Sys2Proof.Machine.execSliceStart s
  | .slicePrepared kind => Sys2Proof.Machine.execSlicePrepared kind s
  | .sliceTestDone kind r => Sys2Proof.Machine.execSliceTestDone kind r s
  | .sliceTimeLimit kind r => Sys2Proof.Machine.execSliceTimeLimit kind r s
  | .sliceRestored kind => Sys2Proof.Machine.execSliceRestored kind s
  | .one a v => Sys2Proof.Machine.execOne a v s
  | .foreground a v => Sys2Proof.Machine.execForeground a v s
  | .stop a v => Sys2Proof.Machine.execStop a v s
  | .burn a v comp => Sys2Proof.Machine.execBurn a v comp s
  | .engine a v comp => Sys2Proof.Machine.execEngine a v comp s
  | .fuseRecordDone ok => Sys2Proof.Machine.execFuseRecordDone ok s
  | .modeReqDoze => Sys2Proof.Machine.execModeReqDoze s
  | .modeReqRun => Sys2Proof.Machine.execModeReqRun s
  | .modeReqService => Sys2Proof.Machine.execModeReqService s
  | .modeReqInvalid t => Sys2Proof.Machine.execModeReqInvalid t s
  | .quiescent => Sys2Proof.Machine.execQuiescent s
  | .quiesceTimeout => Sys2Proof.Machine.execQuiesceTimeout s
  | .dozeEntered => Sys2Proof.Machine.execDozeEntered s
  | .clocksUngated => Sys2Proof.Machine.execClocksUngated s
  | .dozeExitDone => Sys2Proof.Machine.execDozeExitDone s
  | .wakeGrant => Sys2Proof.Machine.execWakeGrant s
  | .partUsable p => Sys2Proof.Machine.execPartUsable p s
  | .powerDown => Sys2Proof.Machine.execPowerDown s
  | .engineIdle eng => Sys2Proof.Machine.execEngineIdle eng s
  | .telem pecOk => Sys2Proof.Machine.execTelem pecOk s
  | .mode lo hi pecOk => Sys2Proof.Machine.execMode lo hi pecOk s
  | .bcsAddr v pecOk => Sys2Proof.Machine.execBcsAddr v pecOk s
  | .bcsRead pecOk => Sys2Proof.Machine.execBcsRead pecOk s
  | .bcsWrite v pecOk => Sys2Proof.Machine.execBcsWrite v pecOk s
  | .bcsResult pecOk => Sys2Proof.Machine.execBcsResult pecOk s
  | .trigger b pecOk => Sys2Proof.Machine.execTrigger b pecOk s
  | .alerts pecOk => Sys2Proof.Machine.execAlerts pecOk s
  | .alertResponseAddress => Sys2Proof.Machine.execAlertResponseAddress s
  | .smbusUnknownCommand code => Sys2Proof.Machine.execSmbusUnknownCommand code s
  | .extest => Sys2Proof.Machine.execExtest s
  | .idcode => Sys2Proof.Machine.execIdcode s
  | .samplePreload => Sys2Proof.Machine.execSamplePreload s
  | .extestPulse => Sys2Proof.Machine.execExtestPulse s
  | .extestTrain => Sys2Proof.Machine.execExtestTrain s
  | .clamp => Sys2Proof.Machine.execClamp s
  | .highz => Sys2Proof.Machine.execHighz s
  | .bypass code => Sys2Proof.Machine.execBypass code s
  | .svcAcc dr => Sys2Proof.Machine.execSvcAcc dr s
  | .dapAcc dr => Sys2Proof.Machine.execDapAcc dr s
  | .readFlash a v => Sys2Proof.Machine.execReadFlash a v s
  | .program a v => Sys2Proof.Machine.execProgram a v s
  | .erase a v => Sys2Proof.Machine.execErase a v s
  | .verify a v => Sys2Proof.Machine.execVerify a v s
  | .flashCmdComplete bytes err => Sys2Proof.Machine.execFlashCmdComplete bytes err s
  | .imgBootCfg a v comp => Sys2Proof.Machine.execImgBootCfg a v comp s
  | .emptySoftRepairMap a v comp => Sys2Proof.Machine.execEmptySoftRepairMap a v comp s
  | .emptyFatalRecords a v comp => Sys2Proof.Machine.execEmptyFatalRecords a v comp s
  | .forceSettingsWrite a v comp => Sys2Proof.Machine.execForceSettingsWrite a v comp s
  | .imgSvnBurn a v comp => Sys2Proof.Machine.execImgSvnBurn a v comp s
  | .settingsWriteStart => Sys2Proof.Machine.execSettingsWriteStart s
  | .settingsWriteDone ok => Sys2Proof.Machine.execSettingsWriteDone ok s
  | .settingsWriteTimeout => Sys2Proof.Machine.execSettingsWriteTimeout s
  | .closingStatusSent port => Sys2Proof.Machine.execClosingStatusSent port s
  | .hubRound => Sys2Proof.Machine.execHubRound s
  | .engineIssueCycle eng => Sys2Proof.Machine.execEngineIssueCycle eng s
  | .journalWordError je word syn e => Sys2Proof.Machine.execJournalWordError je word syn e s
  | .landingWordError sub je syn e => Sys2Proof.Machine.execLandingWordError sub je syn e s
  | .tableWordError tbl idx syn e => Sys2Proof.Machine.execTableWordError tbl idx syn e s
  | .hubFlitError out je syn e => Sys2Proof.Machine.execHubFlitError out je syn e s
  | .configRegisterParityError => Sys2Proof.Machine.execConfigRegisterParityError s
  | .arbiterParityError out => Sys2Proof.Machine.execArbiterParityError out s
  | .faultCollectorParityError => Sys2Proof.Machine.execFaultCollectorParityError s
  | .dataStoreCorrection eng => Sys2Proof.Machine.execDataStoreCorrection eng s
  | .vddAonPowerUp => Sys2Proof.Machine.execVddAonPowerUp s
  | .svnBurnComplete ok => Sys2Proof.Machine.execSvnBurnComplete ok s
  | .trstNAssert => Sys2Proof.Machine.execTrstNAssert s
  | .badMsg link h body => Sys2Proof.Machine.execBadMsg link h body s

end Sys2Proof.Machine
end

