-- ==== Sys2Proof/WellFormed.lean ====
section
/-! DEFINITION. Which commands are well formed: operands that an interface can carry. A command that is not well formed is still total in the
model; no sender produces it. -/

namespace Sys2Proof

/-- Granules that a coded LEN field names (R45: 0 encodes 512). -/
def lenGranules (len : BitVec 10) : Nat := if len = 0 then 512 else len.toNat

/-- A write of bytes enables at least one, and lies inside the 64 MiB of the BCS (R15, R46). -/
def wfBytes (off : Nat) (bs : List (Option Byte)) : Bool := bs.any Option.isSome && off + bs.length ≤ 2 ^ 26

/-- A write inside one table entry (Table 2.1). -/
def wfEntry (t : Tbl) (idx o : Nat) (bs : List (Option Byte)) : Bool :=
  bs.any Option.isSome && match t with
    | .wtt => idx < 65536 && o + bs.length ≤ 32
    | .dvt => o + bs.length ≤ 16

/-- A part that exists (Table 14.4). -/
def wfPart : Part → Bool
  | .hub h => h < 24
  | .eng e => e < 104
  | .tlane l n => l < 2 && n < 16
  | .glane p => p < 144

/-- What fuse sense can read (Table 13.10). -/
def wfFuse (f : FuseData) : Bool := f.keyHash.length == 48 && f.repair.length ≤ 1024 && f.repair.all fun r => r.length == 8

/-- What LOAD's BIST can find: sub-banks and engines that exist. -/
def wfBist (r : BistResult) : Bool :=
  r.fails.all (fun f => f.1 < 1056) && r.again.all (fun n => n < 1056) && r.badEngs.all fun e => e < 104

/-- A frame carries whole words, at most 64 (Table 4.2). -/
def wfFrame (f : Frame) : Bool := f.payload.length % 4 == 0 && f.payload.length ≤ 256

/-- Payload of a request and of a completion, in whole granules (R45, R47). -/
def wfData (len : BitVec 10) (bs : List Byte) : Bool := bs.length == 8 * lenGranules len
def wfCpl (h : CplHdr) (bs : List Byte) : Bool := bs.length == 8 * h.len.toNat
def wfMsg (h : MsgHdr) (body : List Byte) : Bool := body.length == 8 * h.len.toNat

/-- Well-formed commands. -/
def Instr.wf (i : Instr) : Bool :=
  match i with
  | .fuseSense f => wfFuse f
  | .settingsRead x y => x.length == 49152 && y.length == 49152
  | .loadBist r => wfBist r
  | .tempSensorUpdate t => t.length == 8
  | .registerWrite _ off bs => wfBytes off.toNat bs
  | .tableEntryWrite _ t idx o bs => wfEntry t idx.toNat o.val bs
  | .linkBlockReceive _ b => b.length == 256
  | .mwr _ h bs => wfData h.len bs
  | .cpl _ h bs => wfCpl h bs
  | .cpld _ h bs => wfData h.len bs
  | .wakeMsg _ h body => wfMsg h body
  | .place _ h body => wfMsg h body
  | .badMsg _ h body => wfMsg h body
  | .data _ f | .status _ f | .retry _ f | .pollResp _ f | .upWr _ f | .upRd _ f | .upData _ f | .align _ f => wfFrame f
  | .coefReq _ _ f | .coefStat _ _ f => wfFrame f
  | .partUsable p => wfPart p
  | .modeReqInvalid t => t != 2 && t != 3 && t != 4
  | .smbusUnknownCommand c => !([0x01, 0x02, 0x10, 0x11, 0x12, 0x13, 0x20, 0x21] : List Byte).contains c
  | .bypass c => !([0x00, 0x01, 0x02, 0x03, 0x04, 0x05, 0x06, 0x20, 0x21] : List Byte).contains c
  | _ => true

end Sys2Proof
end

