-- ==== Sys2Proof/Safety.lean ====
section
/-! DEFINITION. The terms in which claims speak of runs: what the register path holds, when an access is performed at once, what a command
leaves unchanged, and the forms that states keep. -/

namespace Sys2Proof.Machine

/-- What the commands of the other blocks leave alone: the queue, the timestamp, the register path, and the Landing view. -/
structure Path where
  pending : List Instr
  ts : Nat
  slowQ : List (BcsReq × BcsRes)
  strobe : Strobe
  keyPend : FMap KeyPend
  bcsWait : List BcsReq
  land : Land
  deriving DecidableEq, Repr

namespace State

/-- The register path of a state. -/
def path (s : State) : Path := ⟨s.pending, s.ts, s.slowQ, s.strobe, s.keyPend, s.bcsWait, s.land⟩

/-! ### Frames -/

/-- Of all register words only those that hold the listed fields have changed, and in those no bit outside the listed fields. -/
def onlyFields (s t : State) (xs : List (Fld × Nat)) : Prop :=
  (∀ k, (∀ p ∈ xs, regOff p.1.id p.2 ≠ k) → FMap.find k t.regs = FMap.find k s.regs) ∧
  ∀ p ∈ xs, ∀ n, (∀ q ∈ xs, regOff q.1.id q.2 = regOff p.1.id p.2 → n < q.1.lo ∨ q.1.hi < n) →
    bits n n (t.reg p.1.id p.2).toNat = bits n n (s.reg p.1.id p.2).toNat

/-- Of all register words only those of the listed registers have changed. -/
def onlyRegs (s t : State) (xs : List (RegId × Nat)) : Prop :=
  ∀ k, (∀ p ∈ xs, regOff p.1 p.2 ≠ k) → FMap.find k t.regs = FMap.find k s.regs

/-- Every register word of the blocks other than the listed ones is as before. -/
def onlyBlocks (s t : State) (bs : List Block) : Prop :=
  ∀ k, (∀ b, blockAt k = some b → b ∉ bs) → FMap.find k t.regs = FMap.find k s.regs

/-- The sum of a counter field and a number, at most the counter's largest value (R28). -/
def sat (x : Fld) (n : Nat) : Nat := min n (2 ^ (x.hi + 1 - x.lo) - 1)

/-! ### Accesses that are performed at once -/

/-- Whether an access that comes now is performed, and performed at once: its source reaches the control space, nothing waits before it and it need
not wait, its form is good, its block's mode takes it, G_CTL lets it pass, it sets no PRSV bit, it is no exit cause of DOZE entry, and no exercise fails
its check (R284). -/
def goes (s : State) (r : BcsReq) : Bool :=
  s.canReach r.acc.src && s.bcsWait.isEmpty && formCause r == none && !s.mustWait [] r
  && (match reqBlock r with | some b => !s.modeRefuses b r | none => false)
  && s.bcsJudge r == .ok && !s.prsvStops r
  && !(s.mode == .run && s.phase == .entering && dozeHeld r) && !s.exOn 11

/-- No keyed pair is pending in the block that holds an offset. -/
def noPend (s : State) (off : Nat) : Bool :=
  match blockAt off with
  | some b => (FMap.find b.base s.keyPend).isNone
  | none => true

/-- The write of a word that a row makes is performed at once, and no keyed pair is pending in its block (R33 says what happens then). -/
def goesWrite (s : State) (a : Acc) (id : RegId) (i : Nat) (v : Word) : Bool :=
  s.goes (wordWrite a (regOff id i) v) && s.noPend (regOff id i)

/-- Both writes of a keyed pair are performed at once, non-posted, with the complement in the second (R32), and no pair is pending in the
block. -/
def goesKeyed (s : State) (a : Acc) (id : RegId) (i : Nat) (v comp : Word) : Bool :=
  !a.posted && comp == ~~~v && s.goes (wordWrite a (regOff id i) v) && s.goes (wordWrite a (regOff id i + 4) comp)
  && s.noPend (regOff id i) && s.slowQ.length < 31

/-- An access has ended with a result: its answer goes out, or waits in the crossing of KST and IMG (R24). -/
def ended (s t : State) (r : BcsReq) (res : BcsRes) : Prop :=
  match reqBlock r with
  | some b => if slowBlock b then t.slowQ = s.slowQ ++ [(r, res)] else Output.bcs r res ∈ t.outp
  | none => Output.bcs r res ∈ t.outp

/-- The state before an access, but for what answering it may change: what goes out, the links that carry completions, and the crossing
queue. -/
def asideFrom (s t : State) : State := { s.start with outp := t.outp, links := t.links, slowQ := t.slowQ }

/-- The sideband input map names no DN, and no Kickstand rule but those in `rs` is enabled. -/
def onlyRules (s : State) (rs : List Nat) : Prop :=
  (∀ r < 32, r ∉ rs → s.fb Fld.kstRuleIn_en r = false) ∧ ∀ n < 16, s.fb Fld.gptSbiMap_en n = false

/-! ### Fault sources and links -/

/-- No EVENT goes out for a corrected source: its EV_EN is 0 (R296). -/
def mute (s : State) (src : Nat) : Bool := !FMap.get false src s.flt.evEn

/-- A source has been raised once: its own counter and, for a corrected one, FLT_CNT_CE have stepped (R278). -/
def counted (s t : State) (src : Nat) : Prop :=
  FMap.get 0 src t.flt.srcCnt = min (FMap.get 0 src s.flt.srcCnt + 1) 65535 ∧
  (srcClass src = 1 → t.f Fld.fltCntCe_count = sat Fld.fltCntCe_count (s.f Fld.fltCntCe_count + 1))

/-- The links other than one are as before. -/
def sameLinksBut (s t : State) (l : Nat) : Prop := ∀ j, j ≠ l → t.link j = s.link j

/-- A link has entered RETRAIN and keeps everything that it holds (R67, R68); the retraining is counted and reported. -/
def retrained (s t : State) (l : Nat) : Prop :=
  t.link l = { s.link l with st := .retrain, fullWidth := false, quietReq := false } ∧ s.sameLinksBut t l
  ∧ t.f Fld.tlkLinkCnt_retrains l = sat Fld.tlkLinkCnt_retrains (s.f Fld.tlkLinkCnt_retrains l + 1) ∧ s.counted t 0x022

/-- The state before, but for the links, the registers of TLK and FLT, the fault collector, and what goes out. -/
def linkFrame (s t : State) : Prop :=
  s.onlyBlocks t [.tlk, .flt] ∧ t = { s.start with links := t.links, regs := t.regs, flt := t.flt, outp := t.outp }

/-- The block in which a link sends an unacknowledged block again, with the credit return that it had. -/
def resentBlock (s : State) (l : Nat) (nak : Bool) (b : TxBlk) : Output :=
  .block l (blockBytes (blockBody b.seq 0 (((s.link l).rxNext + 4095) % 4096) nak b.fpo b.cr b.stream))

/-- What a link puts out as it sends its unacknowledged blocks again: a NAK that is due goes in the first of them alone (R43). -/
def resentAll (s : State) (l : Nat) : List TxBlk → List Output
  | [] => []
  | b :: bs => s.resentBlock l (s.link l).nak b :: bs.map (s.resentBlock l false)

/-- A packet has left a link's ingress, and its credits wait to be returned (R60). -/
def took (s t : State) (l : Nat) (p : Packet) : Prop :=
  t.link l = { s.link l with ingress := (s.link l).ingress.erase p
                             credRet := (s.link l).credRet ++ packetReturns p }
  ∧ s.sameLinksBut t l

/-- The Landing pool that a request draws on, that of its own class (R206, R208): posted data, non-posted data, or read data. -/
def reqPool (h : ReqHdr) (wr : Bool) (w : Window) : Nat := 3 * max h.vc.val w.cls + (if !wr then 2 else if !h.np then 0 else 1)

/-- Every piece of an operation passes its port's gate (R246). -/
def piecesPass (s : State) (o : Op) : Prop :=
  ∀ pos < o.cut.n, ∀ x, o.cut.piece o.maxb o.bound (s.pieceEdge o) pos = some x →
    s.judge o.port o.ident (o.daddr * 2 ^ 32 + x.1) (o.daddr * 2 ^ 32 + x.2) (!o.wr) o.wr = .ok

/-- A request outside the BCS may be admitted now, as its Journal entry `je` with the grains `hold` (R170, R202, R208): its form is good, a window of an
ACTIVE instance and a valid device take it, no posted write before it holds it back, an entry and the grains are free, and the gate of its port lets a
direct one's pieces pass. -/
def admissible (s : State) (l : Nat) (before : List HeldReq) (first : Bool) (h : ReqHdr) (wr : Bool) (w : Window) (dv : Device)
    (je : Nat) (hold : Hold) : Prop :=
  s.works = true ∧ s.asleep = false ∧ s.exOn 2 = false ∧ reqOk h = true ∧ s.inBcs h = false ∧ (wr && h.poison) = false
  ∧ s.outFind h wr = .ok w dv ∧ behind before h.vc.val w.owner = false ∧ ((wr && !h.np) && s.withheld w.owner) = false
  ∧ s.jeRoom w.owner = some je
  ∧ s.takeGrains w.owner (reqPool h wr w) (grainsOf (8 * granulesOf h.len.toNat)) (wr && !h.np) first = some hold
  ∧ (w.path = false → s.piecesPass (reqOp l h wr [] w dv hold))

/-- A request has been admitted (R170): its entry has every field set, its operation holds the request and the grains, and no other entry, operation or
context has changed. -/
def admitted (s t : State) (l je : Nat) (h : ReqHdr) (wr : Bool) (w : Window) (hold : Hold) : Prop :=
  t.entry je = { State.reqEntry l h wr (s.reqClassOf h w).1 w with st := .admitted, ts := s.ts % 2 ^ 32, serial := s.jnl.serial, since := s.ts }
  ∧ (∃ o, t.op? je = some o ∧ o.hdr = some h ∧ o.hold = hold ∧ o.wr = wr ∧ o.age = s.ts)
  ∧ (∀ j, j ≠ je → t.entry j = s.entry j ∧ t.op? j = s.op? j)
  ∧ s.onlyBlocks t [.jnl, .hub] ∧ t.outp = []
  ∧ t = { s.start with links := t.links, jnl := t.jnl, ops := t.ops, regs := t.regs, hub := t.hub, insts := t.insts, ports := t.ports
                       freeCount := s.freeCount + 1, freeNext := t.freeNext }

/-! ### Ports -/

/-- The device addresses other than one are as before. -/
def sameDaddrsBut (s t : State) (p d : Nat) : Prop := ∀ k, k ≠ p * 2048 + d → FMap.get ({} : Daddr) k t.daddrs = FMap.get {} k s.daddrs

/-- The ports other than one are as before. -/
def samePortsBut (s t : State) (p : Nat) : Prop := ∀ q, q ≠ p → t.port q = s.port q

/-- The Journal entries and operations other than those of one JE are as before. -/
def sameOpsBut (s t : State) (je : Nat) : Prop := ∀ j, j ≠ je → t.entry j = s.entry j ∧ t.op? j = s.op? j

/-- The queued exchange `x` opens at a device address now (R76, R84, R85, R87, R90): it is the oldest there, it may open, and its frames leave the
port next. -/
def opensNow (s : State) (p d : Nat) (x : XReq) : Prop :=
  (s.port p).queue.find? (fun y => y.1 == d) = some (d, x) ∧ s.mayOpen p d x = true ∧ s.firstOut p d x = true

/-- The RETRY with which the bridge refuses an UP frame (Table 4.8). -/
def retryFrame (s : State) (p d cause : Nat) : Frame :=
  sealFrame { baseFrame 0xB d with addr := BitVec.ofNat 22 (cause * 2 ^ 18), arg := BitVec.ofNat 8 (s.f Fld.gptCollCtl_up_hint p) }

/-- Frames leave a port on a member lane now, or wait behind the RETRY and STATUS frames at its egress (R76). -/
def leaves (s t : State) (p m : Nat) (fs : List Frame) : Prop :=
  if (s.port p).statusQ.isEmpty then t.outp = fs.map (fun f => .frame p m (sealFrame f))
  else t.outp = [] ∧ ∃ y ∈ (t.port p).egress, y.frames = fs ∧ y.member = m

/-- A RETRY of the bridge leaves a port now, or waits in the order of the RETRY and STATUS frames made (R76). -/
def retrySent (s t : State) (p d cause : Nat) : Prop :=
  if (s.port p).statusQ.isEmpty then t.outp = [.frame p 0 (s.retryFrame p d cause)] ∧ t.ports = s.ports
  else t.outp = [] ∧ s.samePortsBut t p
    ∧ t.port p = { s.port p with statusQ := (s.port p).statusQ ++ [{ daddr := d, frame := s.retryFrame p d cause, retry := true }] }

/-- What the piece of an operation needs is at hand beside its data: the grains that a READ or SENSE takes for it are had or to be had (R208), and a C0
piece of an engine has crossed the Hub, so that it waits for no tokens (R192). -/
def pieceMay (s : State) (je : Nat) (o : Op) (a e : Nat) : Prop :=
  (s.takePiece je o a e).1 = true ∧ (o.crossed = true ∨ s.byEngine je = false ∨ (s.entry je).cls ≠ 0)

/-- The exchange of a piece has opened: the entry of its operation is ISSUED, and the operation keeps its piece and its data. -/
def pieceOpens (s t : State) (je : Nat) (o : Op) : Prop :=
  (t.entry je).st = .issued ∧ s.sameOpsBut t je
  ∧ ∃ u, t.op? je = some u ∧ u.cur = o.cur ∧ u.pos = o.pos ∧ u.data = o.data ∧ u.parts = o.parts ∧ u.wr = o.wr

/-- An exchange has opened: its device address is in CMD with it, and it has left the queue. -/
def opened (s t : State) (p d : Nat) (x : XOpen) : Prop :=
  t.daddr p d = { s.daddr p d with st := .cmd, opened := some x, openSerial := (s.daddr p d).openSerial + 1 } ∧ s.sameDaddrsBut t p d
  ∧ t.port p = { s.port p with queue := (s.port p).queue.erase (d, x.req) } ∧ s.samePortsBut t p

/-- What an UP frame asks for may be admitted (R95, R96, R111): it is good, its device address is free, the window `w` of DN `n` takes it, its
instance has the Journal entry `je` and the grains `hold`, a posted write is not withheld (R212), and another finds a tag (R55). -/
def upAdmissible (s : State) (p : Nat) (f : Frame) (wr : Bool) (n : Nat) (w : Window) (je : Nat) (hold : Hold) : Prop :=
  s.portRecv p = true ∧ s.crcOk f = true ∧ burstOk f = true ∧ s.mode ≠ .doze ∧ s.phase ≠ .entering ∧ s.exOn 2 = false
  ∧ ((s.daddr p f.daddr.toNat).st = .idle ∨ (s.daddr p f.daddr.toNat).st = .reserved) ∧ s.chanOpen p + s.upOpen p < 64
  ∧ s.upLookup p f.daddr.toNat (frameAddr f) = .ok n w ∧ w.peer = false ∧ w.cls ≠ 0 ∧ s.jeRoom w.owner = some je
  ∧ s.takeHold w.owner (3 * w.cls + (if !wr then 2 else if w.np then 1 else 0)) (grainsOf (4 * frameWords f)) = some hold
  ∧ (if wr && !w.np then s.withheld w.owner = false
     else (s.link (s.route (s.instLink w.owner))).outst.length < 4096 ∧ s.heldTags.length < 65536)

/-- The Journal entry that an admitted UP frame takes (R170, Tables 7.3 and 7.4). -/
def upEntry (s : State) (p : Nat) (f : Frame) (wr : Bool) (n : Nat) (w : Window) : JEntry :=
  { st := .admitted, kind := if wr then 5 else 6, cls := w.cls, inst := w.owner, dn := n, link := s.instLink w.owner, vc := w.cls
    ref := p * 2 ^ 56 + f.daddr.toNat * 2 ^ 32 + frameAddr f, ts := s.ts % 2 ^ 32, serial := s.jnl.serial, since := s.ts }

/-- The last byte of the access to host memory that an UP burst becomes, for a target side of `n` bytes (R112). -/
def upLast (h : ReqHdr) (n : Nat) : Nat := h.addr.toNat + n - 8 + highBit8 (if n = 8 then h.fbe.toNat else h.lbe.toNat)

/-- The operation of a direct request that has not failed: not posted, of class C1 to C3, and it owes its completion to `h`. -/
def directOp (s : State) (je : Nat) (o : Op) (h : ReqHdr) : Prop :=
  s.op? je = some o ∧ o.hdr = some h ∧ o.x = none ∧ o.silent = false ∧ o.ctx = none ∧ (s.entry je).kind < 2
  ∧ (s.entry je).pst = false ∧ (s.entry je).cls ≠ 0 ∧ (s.entry je).err = 0

/-- The operation of a direct request with no piece left to open. -/
def lastPiece (s : State) (je : Nat) (o : Op) (h : ReqHdr) : Prop :=
  s.directOp je o h ∧ o.stop = false ∧ o.cut.piece o.maxb o.bound (s.pieceEdge o) o.pos = none

/-! ### Host memory, programs, and the management queue -/

/-- A read of `n` bytes by an identity can be issued for a link's traffic: a place is free on the link that carries it, and a tag on both (R55), and the
G_TLINK of the link that R127 names lets it pass (R247). -/
def canRead (s : State) (l id addr n : Nat) : Prop :=
  (s.link (s.route l)).moved = false ∧ (s.link (s.route l)).outst.length < 4096 ∧ s.heldTags.length < 65536
  ∧ s.judge (gTlink l) id addr (addr + n - 1) true false = .ok

/-- Whether an outstanding request is a context's read: of the CCD at its address, or of the data of the operation that it runs. -/
def asked (s : State) (r : OutReq) (k : Nat) (c : Ctx) : Bool :=
  s.ctx? k == some c && match r.purpose with
    | .ccd j => j == k
    | .data j je => j == k && c.je == some je && c.st == .run && (s.op? je).isSome
    | _ => false

/-- Of the Hub only the transfers that are formed have changed: new ones stand behind those there were. -/
def sameHubBut (s t : State) : Prop := t.hub = { s.hub with xfers := t.hub.xfers } ∧ s.hub.xfers <+: t.hub.xfers

/-- G_TLINK lets an instance write `n` bytes of host memory (R247). -/
def canWrite (s : State) (i addr n : Nat) : Prop :=
  s.judge (gTlink (s.instLink i)) (s.inst i).reqId.toNat addr (addr + n - 1) false true = .ok

/-- The MRD of `n` bytes of an instance's host memory has gone to Thaty egress, and its request is outstanding. -/
def reads (s t : State) (i vc addr n : Nat) (pur : Purpose) : Prop :=
  ∃ tag, .packet (s.route (s.instLink i)) (.mrd { spanHdr vc false (s.inst i).reqId 0 addr n with tag := tag }) ∈ t.outp
    ∧ ∃ r ∈ (t.link (s.route (s.instLink i))).outst, r.tag = tag.toNat ∧ r.purpose = pur

/-- The bytes have gone to an instance's host memory as one posted MWR. -/
def writes (s t : State) (i vc addr : Nat) (bs : List Byte) : Prop :=
  .packet (s.route (s.instLink i)) (.mwr (spanHdr vc false (s.inst i).reqId 0 addr bs.length) (padGranules addr bs)) ∈ t.outp

/-- The contexts other than one are as before. -/
def sameCtxsBut (s t : State) (k : Nat) : Prop := ∀ j, j ≠ k → t.ctx? j = s.ctx? j

/-- No EVENT goes out for an uncorrected source, nor to any instance for a fault (R275). -/
def muteUc (s : State) : Prop := s.fb Fld.fltEvDest_en = false ∧ ∀ i, s.evOn i 6 = false

/-- The management queue has the command `b` of an OPCODE for an instance at hand, nothing held and nothing further to fetch, and its result can be
written. -/
def mgtReady (s : State) (opc i : Nat) (b : List Byte) : Prop :=
  s.works = true ∧ s.mgt.st = .run ∧ s.mgtCmd opc = some (i, b) ∧ s.mgt.heldRes = [] ∧ s.mgt.head = s.f Fld.mgtDb_tail
  ∧ s.judge (gTlink s.mgtLink) s.mgtIdent (s.mgtSlot s.mgt.slot + 56) (s.mgtSlot s.mgt.slot + 63) false true = .ok

/-- The result of the command at hand has been written to its slot and counted, and the queue is ready for the next (R257, Table 12.2). -/
def mgtTold (s t : State) (res detail : Nat) : Prop :=
  .packet (s.route s.mgtLink) (.mwr (spanHdr s.mgtVc false s.bridgeId 0 (s.mgtSlot s.mgt.slot + 56) 8)
    (natBytes 4 (b2n s.mgt.slotPhase * 2 ^ 31 + res * 2 ^ 16 + detail % 65536) ++ natBytes 4 0)) ∈ t.outp
  ∧ t.mgt = { s.mgt with cmd := none, list := [], listOut := false, listErr := 0 }
  ∧ (res = 1 → t.f Fld.mgtCnt_done = sat Fld.mgtCnt_done (s.f Fld.mgtCnt_done + 1))
  ∧ (res ≠ 1 → res < 256 → t.f Fld.mgtCnt_failed = sat Fld.mgtCnt_failed (s.f Fld.mgtCnt_failed + 1))

/-- The instances other than one are as before. -/
def sameInstsBut (s t : State) (i : Nat) : Prop := ∀ j, j ≠ i → t.inst j = s.inst j

/-- The write of a word that a row makes has ended without an error. -/
def wrote (s t : State) (a : Acc) (id : RegId) (i : Nat) (v : Word) : Prop := s.ended t (wordWrite a (regOff id i) v) (.done [])

/-- An EVENT of an instance, as it goes to Thaty egress (R63). -/
def eventOut (s : State) (i code vc add : Nat) (body : List Byte) : Output :=
  .packet (s.route (s.f Fld.evDest_link i)) (.msg (s.msgHdr vc (s.f Fld.evDest_dest i) 1
    ((s.f Fld.evVec_vector (evVecIdx i code) + add) % 65536 * 65536 + code * 256 + i) body) body)

/-- The queue pairs other than one are as before. -/
def sameQpsBut (s t : State) (k : Nat) : Prop := ∀ j, j ≠ k → t.qp j = s.qp j

/-- The key slots other than one are as before. -/
def sameSlotsBut (s t : State) (k : Nat) : Prop := ∀ j, j ≠ k → t.slot j = s.slot j

/-- A command of mailbox `i` for key slot `k` may begin: the mailbox is not busy, its instance takes commands, and G_KEY allows it. -/
def keyMay (s : State) (a : Acc) (i k : Nat) : Prop :=
  (s.inst i).st ≠ .drain ∧ (s.inst i).st ≠ .squash ∧ s.fb Fld.cmpKldStat_busy i = false
  ∧ s.judge gKey (accIdent a) (128 * k) (128 * k + 127) false true = .ok

/-! ### The forms that every step keeps -/

/-- The register path is in form: GLB_TS has 64 bits (R36); KST and IMG accesses alone are in the crossing, at most 32 (R24); a strobe in progress has
a 13-bit mask, and without one no UPD_STROBE write waits (R30); pending halves of keyed pairs are in canonical form (R32); the Landing view is a
memory in canonical form (R367). -/
def inForm (s : State) : Prop :=
  s.ts < 2 ^ 64
  ∧ s.slowQ.length ≤ 32 ∧ (∀ x ∈ s.slowQ, ∃ b, reqBlock x.1 = some b ∧ slowBlock b = true)
  ∧ (∀ m, s.strobe.mask = some m → m < 2 ^ 13) ∧ (s.strobe.mask = none → s.strobe.resp = [])
  ∧ FMap.sorted s.keyPend = true
  ∧ FMap.sorted s.land.cells = true ∧ (s.land.epoch = 0 → ∀ p ∈ s.land.cells, p.2 ≠ 0)

/-- A fault ranks before another of the same edge: a higher class, or an equal class and a lower source number (R277). -/
def ranksBefore (src other : Nat) : Prop := srcClass other < srcClass src ∨ srcClass other = srcClass src ∧ src < other

/-- The First Error Record holds a source, its class, a syndrome and the time (R276). -/
def recordHolds (s : State) (src syn time : Nat) : Prop :=
  s.f Fld.fltFirstSrc_valid = 1 ∧ s.f Fld.fltFirstSrc_src = src ∧ s.f Fld.fltFirstSrc_class = srcClass src
  ∧ s.pair Fld.fltFirstSynLo_syn Fld.fltFirstSynHi_syn = syn % 2 ^ 64 ∧ s.pair Fld.fltFirstTsLo_ts Fld.fltFirstTsHi_ts = time % 2 ^ 64

/-- The First Error Record, but for OVF, is as before. -/
def recordKept (s t : State) : Prop :=
  s.f Fld.fltFirstSrc_valid = t.f Fld.fltFirstSrc_valid ∧ s.f Fld.fltFirstSrc_src = t.f Fld.fltFirstSrc_src
  ∧ s.f Fld.fltFirstSrc_class = t.f Fld.fltFirstSrc_class
  ∧ s.reg .fltFirstSynLo = t.reg .fltFirstSynLo ∧ s.reg .fltFirstSynHi = t.reg .fltFirstSynHi
  ∧ s.reg .fltFirstTsLo = t.reg .fltFirstTsLo ∧ s.reg .fltFirstTsHi = t.reg .fltFirstTsHi

end State

/-- Registers whose write only stores: they are not keyed, and no rule gives their write an effect of its own. -/
def plainReg (id : RegId) : Bool :=
  !id.row.keyed &&
  !([.qCfg, .sqDb, .qCtl, .cqDb, .pelCfg, .pelHead, .pelCtl, .fenceDb, .instAttnAck, .instAttnUnmute, .gptCtl, .gptAttnAck, .gptAttnUnmute,
    .gptSbiUnmute, .tlkCtl, .updStrobe, .updTblCtl, .updTblBarrier, .gateBarrier, .jnlCmd, .jnlIdx, .jnlFilter, .mgtQCfg, .mgtDb, .mgtCtl,
    .cmpKldCmd, .fltSrcCfg, .bstCmd, .imgFlCmd] : List RegId).contains id

/-- The access that SMBus BCS_READ and BCS_WRITE make at an address (R324). -/
def smbReq (off : Nat) (wr : Bool) (v : Word) : BcsReq :=
  { acc := { src := .svc }, via := .smb, off := off, wr := wr, en := List.replicate 4 true, data := if wr then wordBytes v else [] }

/-- The access to the control space that an Update-DR of the access register starts (Table 16.10). -/
def tapReq (a : Acc) (dr : Nat) : BcsReq :=
  { acc := a, via := .tap, off := dr / 2 ^ 32 % 2 ^ 26, wr := bit 58 dr, en := List.replicate 4 true
    data := if bit 58 dr then natBytes 4 (dr % 2 ^ 32) else [] }

end Sys2Proof.Machine
end

