-- ==== Sys2Proof/Certificates/Slice0/Obligations.lean ====
section
/-! DEFINITION. The statements about the bridge. -/

open Sys2Proof Sys2Proof.Machine Sys2Proof.Machine.State

/-- A step takes the command at the front of the queue and runs it with the queue's rest; on an empty queue it is one REFCLK cycle (log entry 1), which in
RESET does nothing. -/
def Obligations.StepRunsTheFrontCommand : Prop :=
  (∀ (s : State) (c : Instr) (rest : List Instr), s.pending = c :: rest → step s = exec c { s with pending := rest })
  ∧ (∀ s : State, s.pending = [] → step s = .next s.tick)
  ∧ (∀ s : State, s.mode = .reset → s.tick = s.start)
  ∧ (∀ s : State, s.mode ≠ .reset → s.bcsWait = [] → s.tick.ts = (s.ts + 1) % 2 ^ 64 ∧ s.tick.regs = s.regs ∧ s.tick.bcsWait = [])

/-- R305, R339: right after reset the bridge is in RESET with nothing waiting, every register and shadow at its reset value, and its register path in
form. -/
def Obligations.ResetState : Prop :=
  State.reset.mode = .reset ∧ State.reset.pending = [] ∧ (∀ id i, State.reset.reg id i = id.row.reset ∧ State.reset.shadowReg id i = id.row.reset)
  ∧ (∀ l, (State.reset.link l).st = .down) ∧ (∀ p, (State.reset.port p).st = .down) ∧ (∀ je, (State.reset.entry je).st = .free)
  ∧ (∀ i, (State.reset.inst i).st = .free) ∧ State.reset.inForm

/-- Every step keeps the register path in form, and takes at most the front command from the queue and adds none. -/
def Obligations.StepKeepsTheForm : Prop :=
  ∀ s t : State, s.inForm → step s = .next t → t.inForm ∧ t.pending = s.pending.tail

/-- R45 to R48: a packet's bytes spell that packet again, for every packet that the forms of Tables 3.4 to 3.6 can carry: an MRD has neither NP nor
POISON, a CPL has no POISON, and a request's granule address is a multiple of 8. -/
def Obligations.PacketsRoundTrip : Prop :=
  ∀ p : Packet,
    (match p with
      | .mrd h => h.np = false ∧ h.poison = false ∧ h.addr.toNat % 8 = 0
      | .mwr h _ => h.addr.toNat % 8 = 0
      | .cpl h _ => h.poison = false
      | _ => True) →
    packetOf (packetBytes p) = some p

/-- R35: a write that is performed and carries a 1 in a PRSV bit, which reads 0, stops the model: the spec gives no behaviour. -/
def Obligations.PrsvWriteStops : Prop :=
  ∀ (s : State) (r : BcsReq), s.canReach r.acc.src = true → s.prsvStops r = true → s.bcsRun r = .fault .prsvWrite

/-- R273, R276, R277, R278: a raised fault is counted in its class and at its source, FLT_HIGHEST rises, and the First Error Record captures it while
armed; a record that stands keeps what it holds and sets OVF, unless it was captured by the same command and the new fault ranks before it. A read of
FLT_HIGHEST starts it anew. -/
def Obligations.FaultsAreCountedAndCaptured : Prop :=
  ∀ (s : State) (src unit : Nat) (inst je : Option Nat) (detail : Nat), s.mode ≠ .reset → srcClass src ≠ 0 →
    let t := s.raise src unit inst je detail
    FMap.get 0 src t.flt.srcCnt = min (FMap.get 0 src s.flt.srcCnt + 1) 65535
    ∧ t.f Fld.fltHighest_class = max (s.f Fld.fltHighest_class) (srcClass src)
    ∧ t.f Fld.fltCntCe_count = sat Fld.fltCntCe_count (s.f Fld.fltCntCe_count + b2n (srcClass src == 1))
    ∧ t.f Fld.fltCntUc_count = sat Fld.fltCntUc_count (s.f Fld.fltCntUc_count + b2n (srcClass src == 2))
    ∧ t.f Fld.fltCntFt_count = sat Fld.fltCntFt_count (s.f Fld.fltCntFt_count + b2n (srcClass src == 3))
    ∧ (s.f Fld.fltFirstSrc_valid = 0 →
        t.recordHolds src (syndrome unit inst je detail) s.ts ∧ t.f Fld.fltFirstSrc_ovf = s.f Fld.fltFirstSrc_ovf)
    ∧ (s.f Fld.fltFirstSrc_valid = 1 → s.flt.firstNow = true → State.ranksBefore src (s.f Fld.fltFirstSrc_src) →
        s.f Fld.fltFirstSrc_class = srcClass (s.f Fld.fltFirstSrc_src) →
        t.recordHolds src (syndrome unit inst je detail) s.ts ∧ t.f Fld.fltFirstSrc_ovf = 1)
    ∧ (s.f Fld.fltFirstSrc_valid = 1 → (s.flt.firstNow = false ∨ s.f Fld.fltFirstSrc_class = srcClass (s.f Fld.fltFirstSrc_src)
          ∧ ¬ State.ranksBefore src (s.f Fld.fltFirstSrc_src)) →
        s.recordKept t ∧ t.f Fld.fltFirstSrc_ovf = 1)
    ∧ (srcClass src = 3 → t.mode = .halt)
    ∧ (s.readBytes (regOff .fltHighest 0) 4 true).2.f Fld.fltHighest_class = 0

/-- R117: a piece starts at the next enabled byte, holds enabled bytes only, and is as long as the rule allows: it ends before a byte that is not enabled,
at the device boundary, at `maxb` bytes of words, or before the next region edge, and it crosses none of these. -/
def Obligations.PiecesAreMaximal : Prop :=
  ∀ (c : CutSpec) (maxb bound : Nat) (edge : Nat → Nat) (i : Nat),
    (c.u = 1 ∨ c.u = 2 ∨ c.u = 4 ∨ c.u = 8) → 0 < c.n → c.n % 8 = 0 → 4 ≤ maxb → 0 < bound → (∀ a, a < edge a) →
    match c.piece maxb bound edge i with
    | none => ∀ j, i ≤ j → c.sen j = false
    | some (a, e) =>
      c.base + i ≤ a ∧ a ≤ e ∧ (∀ j, i ≤ j → c.base + j < a → c.sen j = false) ∧ (∀ j, a ≤ c.base + j → c.base + j ≤ e → c.sen j = true)
      ∧ e / bound = a / bound ∧ e < a - a % 4 + maxb ∧ e < edge a
      ∧ (c.sen (e + 1 - c.base) = false ∨ (e + 1) / bound ≠ a / bound ∨ e + 1 = a - a % 4 + maxb ∨ e + 1 = edge a)

/-- R121: a strobe that lists WTT leaves no two valid committed windows in conflict, where there were none before. -/
def Obligations.StrobeKeepsWindowsApart : Prop :=
  ∀ s : State, FMap.sorted s.tbl.wtt = true → FMap.sorted s.tbl.wttPend = true →
    (∀ i j, i ≠ j → (windowOf (s.wttAt i)).v = true → (windowOf (s.wttAt j)).v = true → wttConflict (windowOf (s.wttAt i)) (windowOf (s.wttAt j)) = false) →
    let t := s.strobeWtt.1
    FMap.sorted t.tbl.wtt = true ∧ FMap.sorted t.tbl.wttPend = true
    ∧ ∀ i j, i ≠ j → (windowOf (t.wttAt i)).v = true → (windowOf (t.wttAt j)).v = true → wttConflict (windowOf (t.wttAt i)) (windowOf (t.wttAt j)) = false

/-- R299, R300: DROOP_N is sampled low once the root PLL has locked. Wakes and adaptation freeze, and pulses are removed at the depth of PWR_DROOP_CFG,
from the ramp of an earlier release too. R360: in RESET and in LOAD before the PLL locks only the level of the pin is noted, and a level that is still
low when the PLL locks is then heeded. R299, R300: after release the removal rate steps down one level at a time. Wakes, and a setpoint write that
waited, resume when stretching has ended, and adaptation on its own timer, with which a slice start that waited takes place (R286). -/
def Obligations.DroopFreezesAndRamps : Prop :=
  ((∀ s : State, s.mode ≠ .reset → (s.mode = .load → s.pwr.rootLock = true) → s.pwr.droop = false →
        ∃ t, exec .droopNAssert s = .next t
          ∧ t.pwr = { s.pwr with droop := true, droopPin := true, droopSince := s.ts, level := s.f Fld.pwrDroopCfg_depth + 1
                                 frozen := true, adaptFrozen := true }
          ∧ t.f Fld.pwrDroopStat_count = sat Fld.pwrDroopStat_count (s.f Fld.pwrDroopStat_count + 1)
          ∧ s.onlyFields t [(Fld.pwrDroopStat_count, 0)] ∧ t = { s.start with pwr := t.pwr, regs := t.regs })
      ∧ (∀ s : State, s.mode = .reset ∨ s.mode = .load ∧ s.pwr.rootLock = false →
        ∃ t, exec .droopNAssert s = .next t ∧ t = { s.start with pwr := { s.pwr with droopPin := true } })
      ∧ (∀ s : State, s.mode = .load → s.pwr.droopPin = true → s.pwr.droop = false →
        ∃ t, exec .rootPllLock s = .next t ∧ t.pwr.rootLock = true ∧ t.pwr.droop = true ∧ t.pwr.frozen = true
          ∧ t.pwr.level = s.f Fld.pwrDroopCfg_depth + 1 ∧ t = { s.start with pwr := t.pwr, regs := t.regs }))
  ∧ ((∀ s : State, s.pwr.droop = true →
        ∃ t, exec .droopNRelease s = .next t ∧ t.pwr = { s.pwr with droop := false, droopPin := false }
          ∧ t.f Fld.pwrDroopMax_max = max (s.f Fld.pwrDroopMax_max) (sat Fld.pwrDroopMax_max (s.ts - s.pwr.droopSince))
          ∧ s.onlyFields t [(Fld.pwrDroopMax_max, 0)] ∧ t = { s.start with pwr := t.pwr, regs := t.regs })
      ∧ (∀ s : State, s.pwr.droop = false → 0 < s.pwr.level →
        ∃ t, exec .stretchRampStep s = .next t ∧ t.pwr.level + 1 = s.pwr.level ∧ (t.pwr.frozen = false ↔ t.pwr.level = 0)
          ∧ (s.pwr.avsWait = true → t.pwr.level = 0 → t.pwr.avsWait = false ∧ t.outp = [.avs s.avsRail s.pwr.avsSet])
          ∧ (s.pwr.avsWait = false ∨ t.pwr.level ≠ 0 → t.pwr.avsWait = s.pwr.avsWait ∧ t.outp = [])
          ∧ (s.pwr.avsWait = true → s.pwr.avsBusy = true →
              t = { s.start with pwr := { s.pwr with level := t.pwr.level, frozen := t.pwr.frozen, avsWait := t.pwr.avsWait }, outp := t.outp })
          ∧ (s.pwr.avsWait = false →
              t = { s.start with pwr := { s.pwr with level := t.pwr.level, frozen := t.pwr.frozen } }))
      ∧ (∀ s : State, s.pwr.droop = false → s.bst.startDue = false →
        ∃ t, exec .adaptationResume s = .next t ∧ t = { s.start with pwr := { s.pwr with adaptFrozen := false } })
      ∧ (∀ s : State, s.pwr.droop = false → s.bst.startDue = true →
        ∃ t, exec .adaptationResume s = .next t ∧ t.pwr.adaptFrozen = false ∧ t.bst.startDue = false))

/-- R302: which wake is at the head of the queue: a C0 wake where one waits, else one of the highest class, and in its class the oldest. -/
def Obligations.WakeHeadIsOldestOfHighestClass : Prop :=
  ∀ (q : List Wake) (x : Wake), (∀ y ∈ q, y.cls < 4) → wakeHead q = some x →
    ∃ before after, q = before ++ x :: after ∧ (∀ y ∈ before, x.cls < y.cls) ∧ ∀ y ∈ after, x.cls ≤ y.cls

/-- R302: the head of the queue is granted from the C0 bucket where it is C0 and that bucket holds its cost, else from the general bucket where that one
does; its cost leaves that bucket and no other. R302, Table 14.4: a granted part becomes usable; a part that fell due first powers down from its own
bucket; R304: an active engine without a context for ENG_IDLE falls due. -/
def Obligations.WakesAndParts : Prop :=
  (∀ (s : State) (x : Wake), s.pwr.frozen = false → wakeHead s.pwr.wakes = some x →
        (x.cls = 0 ∧ partCost x.part ≤ s.pwr.c0Bucket ∨ partCost x.part ≤ s.pwr.genBucket) →
        ∃ t, exec .wakeGrant s = .next t ∧ x.part ∈ t.pwr.granted ∧ t.pwr.wakes = s.pwr.wakes.erase x
          ∧ (if x.cls = 0 ∧ partCost x.part ≤ s.pwr.c0Bucket then
              t.pwr.c0Bucket + partCost x.part = s.pwr.c0Bucket ∧ t.pwr.genBucket = s.pwr.genBucket
            else t.pwr.genBucket + partCost x.part = s.pwr.genBucket ∧ t.pwr.c0Bucket = s.pwr.c0Bucket)
          ∧ t.pwr.pdBucket = s.pwr.pdBucket ∧ t.pwr.up = s.pwr.up
          ∧ t.f Fld.pwrSlewCnt_wakes = sat Fld.pwrSlewCnt_wakes (s.f Fld.pwrSlewCnt_wakes + 1)
          ∧ s.onlyRegs t [(.pwrSlewCnt, 0), (.pwrSlewMaxwait, 0)] ∧ t = { s.start with pwr := t.pwr, regs := t.regs })
  ∧ ((∀ (s : State) (p : Part), p ∈ s.pwr.granted →
        ∃ t, exec (.partUsable p) s = .next t ∧ p ∈ t.pwr.up
          ∧ t = { s.start with pwr := { s.pwr with granted := s.pwr.granted.erase p, up := t.pwr.up } })
      ∧ (∀ (s : State) (p : Part) (ps : List Part), s.pwr.pd = p :: ps → partCost p ≤ s.pwr.pdBucket →
        ∃ t, exec .powerDown s = .next t ∧ t.pwr.pdBucket + partCost p = s.pwr.pdBucket
          ∧ t = { s.start with pwr := { s.pwr with pd := ps, up := s.pwr.up.erase p, pdBucket := t.pwr.pdBucket } })
      ∧ (∀ (s : State) (e : Fin 104), (s.mode = .run ∨ s.mode = .service) → s.f Fld.pwrGate_eng_idle ≠ 0 → (s.eng e.val).role = .active →
          (∀ c ∈ s.ctxs, c.2.eng ≠ e.val) → (.eng e.val) ∈ s.pwr.up → (.eng e.val) ∉ s.pwr.pd →
        ∃ t, exec (.engineIdle e) s = .next t ∧ t = { s.start with pwr := { s.pwr with pd := s.pwr.pd ++ [.eng e.val] } }))

/-- R321: the core voltage. A changed setpoint within 700 to 800 mV goes out; success makes it the accepted one; a failed transaction is retried twice (a
retry waits while pulses are removed, R300), and the third failure raises 0x181 and leaves the last accepted setpoint. R322, R313: each sensor's
reading is stored, its highest reading kept, and 0x80 is no reading; a reading above 105 °C is fatal (source 0x182). -/
def Obligations.VoltageAndTemperature : Prop :=
  ((∀ s : State, s.mode ≠ .reset → s.mode ≠ .load → s.fb Fld.pwrAvsCfg_en = true → s.pwr.avsBusy = false → s.pwr.frozen = false →
          s.setpoint ≠ s.f Fld.pwrAvsStat_vset →
        ∃ t, exec .avsWrite s = .next t ∧ 700 ≤ t.pwr.avsSet ∧ t.pwr.avsSet ≤ 800
          ∧ t = { s.start with pwr := { s.pwr with avsBusy := true, avsWait := false, avsTries := 1, avsSet := s.setpoint }
                               outp := [.avs s.avsRail s.setpoint] })
      ∧ (∀ (s : State) (vread : BitVec 16), s.pwr.avsBusy = true → s.pwr.avsWait = false → s.pwr.avsSet < 2 ^ 16 →
        ∃ t, exec (.avsTransactionDone true vread) s = .next t ∧ t.f Fld.pwrAvsStat_vset = s.pwr.avsSet ∧ t.f Fld.pwrAvsV_vread = vread.toNat
          ∧ s.onlyFields t [(Fld.pwrAvsStat_vset, 0), (Fld.pwrAvsV_vread, 0)]
          ∧ t = { s.start with pwr := { s.pwr with avsBusy := false }, regs := t.regs })
      ∧ (∀ (s : State) (vread : BitVec 16), s.pwr.avsBusy = true → s.pwr.avsWait = false → s.pwr.avsTries < 3 →
        ∃ t, exec (.avsTransactionDone false vread) s = .next t ∧ t.f Fld.pwrAvsStat_fail_cnt = sat Fld.pwrAvsStat_fail_cnt (s.f Fld.pwrAvsStat_fail_cnt + 1)
          ∧ s.onlyFields t [(Fld.pwrAvsStat_fail_cnt, 0)]
          ∧ t = { s.start with pwr := { s.pwr with avsTries := s.pwr.avsTries + 1, avsWait := s.pwr.frozen }, regs := t.regs
                               outp := if s.pwr.frozen then [] else [.avs s.avsRail s.pwr.avsSet] })
      ∧ (∀ (s : State) (vread : BitVec 16), s.mode ≠ .reset → s.pwr.avsBusy = true → s.pwr.avsWait = false → 3 ≤ s.pwr.avsTries →
        ∃ t, exec (.avsTransactionDone false vread) s = .next t ∧ t.pwr = { s.pwr with avsBusy := false }
          ∧ t.f Fld.pwrAvsStat_fail = 1 ∧ t.f Fld.pwrAvsStat_vset = s.f Fld.pwrAvsStat_vset
          ∧ t.f Fld.fltCntCe_count = sat Fld.fltCntCe_count (s.f Fld.fltCntCe_count + 1)
          ∧ t.mode = s.mode))
  ∧ ((∀ (s : State) (x : List Byte), s.mode ≠ .reset → x.length = 8 → (∀ b ∈ x, b.toNat ≠ 0x80 → degrees b.toNat ≤ 105) →
        ∃ t, exec (.tempSensorUpdate x) s = .next t ∧ t.mode = s.mode
          ∧ (∀ n b, x[n]? = some b → b.toNat ≠ 0x80 → t.f Fld.pwrTemp_valid n = 1 ∧ t.f Fld.pwrTemp_temp n = b.toNat
              ∧ degrees (t.f Fld.pwrTemp_max n) = max (degrees (s.f Fld.pwrTemp_max n)) (degrees b.toNat))
          ∧ (∀ n b, x[n]? = some b → b.toNat = 0x80 → t.f Fld.pwrTemp_valid n = 0 ∧ t.f Fld.pwrTemp_max n = s.f Fld.pwrTemp_max n)
          ∧ s.onlyRegs t ((List.range 8).map fun n => (.pwrTemp, n))
          ∧ t = { s.start with pwr := { s.pwr with lowT := t.pwr.lowT }, regs := t.regs })
      ∧ (∀ (s : State) (x : List Byte), s.mode ≠ .reset → x.length = 8 → (∃ b ∈ x, b.toNat ≠ 0x80 ∧ 105 < degrees b.toNat) →
        ∃ t, exec (.tempSensorUpdate x) s = .next t ∧ t.mode = .halt))

/-- R305, R337: PERST_N asserted puts the bridge in RESET from every state: but for the queue of commands, the model's source of free values, the test
access port, the SMBus target's supply and the level of DROOP_N, the state is that of reset, and ALIVE goes low. R337, R298, R36: what starts LOAD.
PERST_N released samples the straps, starts GLB_TS at 0 and enters LOAD; the root PLL locks; fuse sense then gives the die's identity, bin, MIN_SVN
and key hash, and ALIVE starts with a rising edge, unless a parity error is fatal; VDD_AON brings the SMBus target up in every mode. R327 to R329,
R336, R343: a fit flash gives its size, its addressing and the places of slots and settings; the current settings copy is the valid one with the
larger SEQ, and PREFER and TRIAL give the slot that is tried first. -/
def Obligations.ResetAndLoadBegin : Prop :=
  (∀ s : State, ∃ t, exec .perstNAssert s = .next t
        ∧ t = { State.reset with
            pending := s.pending, freeCount := s.freeCount, freeNext := s.freeNext, kst := { smbUp := s.kst.smbUp }
            pwr := { droopPin := s.pwr.droopPin }
            tap := { s.tap with status := if s.tap.status = 2 then 3 else s.tap.status }
            outp := if s.flt.aliveLevel then [.alive false] else [] })
  ∧ ((∀ (s : State) (straps : Byte), s.mode = .reset →
        ∃ t, exec (.perstNRelease straps) s = .next t ∧ t.mode = .load ∧ t.ts = 0 ∧ t.f Fld.glbStraps_straps = straps.toNat
          ∧ t.f Fld.kstSmb_addr = 0x58 + straps.toNat % 8
          ∧ s.onlyFields t [(Fld.glbStraps_straps, 0), (Fld.kstSmb_addr, 0)] ∧ t = { s.start with mode := .load, ts := 0, regs := t.regs })
      ∧ (∀ s : State, s.mode ≠ .reset → (s.pwr.droopPin = true → s.pwr.droop = true) →
        ∃ t, exec .rootPllLock s = .next t ∧ t = { s.start with pwr := { s.pwr with rootLock := true } })
      ∧ (∀ (s : State) (f : FuseData), s.mode = .load → s.img.step = 0 → s.pwr.rootLock = true → f.parityErr = false →
        ∃ t, exec (.fuseSense f) s = .next t ∧ t.mode = .load
          ∧ t.pair Fld.glbDieIdLo_die_id Fld.glbDieIdHi_die_id = f.dieId.toNat ∧ t.f Fld.glbFuseBin_speed_bin = f.speedBin.toNat
          ∧ t.img = { s.img with step := 2, minSvn := f.minSvn.val, keyHash := f.keyHash, factory := f.factory }
          ∧ t.bst.fuses = (f.repair.take 1024).map repairOf
          ∧ t.flt.aliveRun = true ∧ t.flt.aliveLevel = true ∧ t.outp = [.alive true]
          ∧ s.onlyRegs t [(.glbDieIdLo, 0), (.glbDieIdHi, 0), (.glbFuseBin, 0)]
          ∧ t = { s.start with regs := t.regs, img := t.img, bst := { s.bst with fuses := t.bst.fuses }, flt := t.flt, outp := t.outp })
      ∧ (∀ (s : State) (f : FuseData), s.mode = .load → s.img.step = 0 → s.pwr.rootLock = true → f.parityErr = true →
        ∃ t, exec (.fuseSense f) s = .next t ∧ t.mode = .halt)
      ∧ (∀ s : State, ∃ t, exec .vddAonPowerUp s = .next t ∧ t = { s.start with kst := { s.kst with smbUp := true } }))
  ∧ ((∀ (s : State) (i : FlashInfo), s.mode = .load → s.img.step = 2 → i.sfdp = true → i.fit = true → 23 ≤ i.sizeLog2 → i.sizeLog2 ≤ 28 →
          (24 < i.sizeLog2 → i.four = true) → (i.m144 || i.m114 || i.m111) = true →
        ∃ t, exec (.flashDiscovery i) s = .next t ∧ t.img = { s.img with step := 3, flashOk := true, flashSize := 2 ^ i.sizeLog2 }
          ∧ t.f Fld.imgFlash_size_log2 = i.sizeLog2 ∧ t.f Fld.imgFlash_addr4 = (if 24 < i.sizeLog2 then 1 else 0)
          ∧ t.f Fld.imgFlash_mode = (if i.m144 then 3 else if i.m114 then 2 else 1)
          ∧ t.f Fld.imgLayout_slot_size * 2 ^ 16 = State.slotSize (2 ^ i.sizeLog2)
          ∧ t.f Fld.imgLayout_set_ofs * 2 ^ 16 = 2 * State.slotSize (2 ^ i.sizeLog2)
          ∧ s.onlyRegs t [(.imgFlash, 0), (.imgLayout, 0)] ∧ t = { s.start with img := t.img, regs := t.regs })
      ∧ (∀ (s : State) (i : FlashInfo), s.mode = .load → s.img.step = 2 →
          (i.sfdp = false ∨ i.fit = false ∨ i.sizeLog2 < 23 ∨ 28 < i.sizeLog2 ∨ (24 < i.sizeLog2 ∧ i.four = false)) →
        ∃ t, exec (.flashDiscovery i) s = .next t ∧ t = { s.start with img := { s.img with step := 3 } })
      ∧ (∀ (s : State) (x y : List Byte), s.mode = .load → s.img.step = 3 → s.img.flashOk = true → s.img.setValid = false →
        ∃ t, exec (.settingsRead x y) s = .next t ∧ t.mode = .load ∧ t.img.step = 4
          ∧ (copyValid x = true → (copyValid y = true → fieldAt 4 4 y ≤ fieldAt 4 4 x) →
              t.img.setValid = true ∧ t.img.setCurY = false ∧ t.img.cur = settingsOf x)
          ∧ (copyValid y = true → (copyValid x = true → fieldAt 4 4 x < fieldAt 4 4 y) →
              t.img.setValid = true ∧ t.img.setCurY = true ∧ t.img.cur = settingsOf y)
          ∧ (copyValid x = false → copyValid y = false → t.img.setValid = false ∧ t.img.cur = s.img.cur)
          ∧ t.img.slot = t.img.first ∧ (t.img.first = 0 ↔ t.img.prefer = t.img.wasTrial)
          ∧ t = { s.start with img := t.img, bst := { s.bst with soft := t.bst.soft } }))

/-- R335, R336, R341: the slot that is tried. Checks 1 to 3 as its bytes arrive, 4 to 7 after; a slot that passes goes on; one that fails has the other
slot tried, and after the second failure the bridge is in rescue SERVICE. R338 to R340, R294, R337: the last steps of LOAD. The first AVSBus write;
the Journal and the Landing pool formed of 768 and 256 sub-banks, or HALT; the commit edge, after which links and ports train; and RUN once none
trains. -/
def Obligations.SlotsAndLoadEnd : Prop :=
  ((∀ (s : State) (b : List Byte), s.mode = .load → s.img.step = 4 →
        ∃ t, exec (.slotFetch b) s = .next t
          ∧ (earlyFail b (State.slotSize s.img.flashSize) = none → t = { s.start with img := { s.img with step := 5, image := b } })
          ∧ (∀ c x, earlyFail b (State.slotSize s.img.flashSize) = some (c, x) →
              (if s.img.second then t.mode = .service ∧ t.pwr.rescue = true ∧ t.img.step = 11
               else t.mode = .load ∧ t.img.step = 4 ∧ t.img.second = true ∧ t.img.slot = 1 - s.img.slot)
              ∧ t.f Fld.fltCntCe_count = sat Fld.fltCntCe_count (s.f Fld.fltCntCe_count + 1)))
      ∧ (∀ s : State, s.mode = .load → s.img.step = 5 →
        ∃ t, exec .slotChecks s = .next t
          ∧ (lateFail s.img.keyHash s.img.minSvn s.img.image = none → t.img = { s.img with step := 7 }
              ∧ s.onlyRegs t [(.imgSlotA, 0), (.imgSlotIdA, 0), (.imgSlotB, 0), (.imgSlotIdB, 0)]
              ∧ t = { s.start with img := t.img, regs := t.regs })
          ∧ (∀ c x, lateFail s.img.keyHash s.img.minSvn s.img.image = some (c, x) →
              (if s.img.second then t.mode = .service ∧ t.pwr.rescue = true ∧ t.img.step = 11
               else t.mode = .load ∧ t.img.step = 4 ∧ t.img.second = true ∧ t.img.slot = 1 - s.img.slot)
              ∧ t.f Fld.fltCntCe_count = sat Fld.fltCntCe_count (s.f Fld.fltCntCe_count + 1))))
  ∧ ((∀ s : State, s.mode = .load → s.img.step = 7 →
        ∃ t, exec .loadCoreVoltage s = .next t ∧ t.img = { s.img with step := 8 }
          ∧ (t.fb Fld.pwrAvsCfg_en = true → t.pwr.avsBusy = true
              ∧ (if s.pwr.frozen then t.outp = [] ∧ t.pwr.avsWait = true else t.outp = [.avs t.avsRail t.setpoint]))
          ∧ s.onlyRegs t [(.pwrAvsCfg, 0), (.pwrAvsV, 0)]
          ∧ t = { s.start with img := t.img, regs := t.regs, shadow := t.shadow, pwr := t.pwr, outp := t.outp })
      ∧ (∀ (s : State) (r : BistResult), s.mode = .load → s.img.step = 8 →
        ∃ t, exec (.loadBist r) s = .next t ∧ t.img.step = 9 ∧ (t.mode = .load ∨ t.mode = .halt)
          ∧ (t.mode = .load → (t.bst.subs.filter fun x => x.2.role == .journal).length = 768
              ∧ (t.bst.subs.filter fun x => x.2.role == .landing).length = 256 ∧ ∃ e ∈ t.engs, e.2.role ≠ .retired))
      ∧ (∀ s : State, s.mode = .load → s.img.step = 9 →
        ∃ t, exec .loadCommit s = .next t ∧ t.mode = .load ∧ t.img.step = 10 ∧ t.img.running = some s.img.slot ∧ t.img.formed = true
          ∧ t.f Fld.glbImgId_image_id = imgId s.img.image ∧ t.img.microcode = contentOf s.img.image 3
          ∧ t.pwr.genBucket = 10000 ∧ t.pwr.c0Bucket = t.c0Depth ∧ (t.link 0).st = .train ∧ (t.link 1).st = .train)
      ∧ (∀ s : State, s.mode = .load → s.img.step = 10 → (∀ l < 2, (s.link l).st ≠ .train ∧ (s.link l).st ≠ .retrain) →
          (∀ p ∈ s.ports, p.2.st ≠ .train) →
        ∃ t, exec .loadEnd s = .next t ∧ t.mode = .run ∧ t.img.step = 11
          ∧ s.onlyFields t [(Fld.imgBoot_load_ms, 0)]
          ∧ t = { s.start with mode := .run, img := { s.img with step := 11 }, regs := t.regs }))

/-- R282, R283, R298: ALIVE toggles while it runs; a liveness token is sent in every mode but RESET and HALT; when tokens fail ALIVE holds its level, and
a collector that still runs enters HALT (source 0x183), as does loss of root-PLL lock (source 0x180). -/
def Obligations.AliveAndLiveness : Prop :=
  (∀ s : State, s.flt.aliveRun = true →
    ∃ t, exec .aliveToggle s = .next t ∧ t.flt.aliveLevel = !s.flt.aliveLevel ∧ t.outp = [.alive (!s.flt.aliveLevel)]
      ∧ t = { s.start with flt := t.flt, outp := t.outp })
  ∧ (∀ s : State, s.mode ≠ .reset → s.mode ≠ .halt →
    ∃ t, exec .livenessToken s = .next t ∧ t = { s.start with flt := { s.start.flt with lastToken := s.ts } })
  ∧ (∀ s : State, s.mode ≠ .reset → s.mode ≠ .halt →
    ∃ t, exec (.livenessTimeout false) s = .next t ∧ t.flt = { s.start.flt with aliveRun := false } ∧ t.mode = s.mode
      ∧ t.f Fld.fltAlive_misses = sat Fld.fltAlive_misses (s.f Fld.fltAlive_misses + 2)
      ∧ s.onlyFields t [(Fld.fltAlive_misses, 0)] ∧ t = { s.start with flt := t.flt, regs := t.regs })
  ∧ (∀ s : State, s.mode ≠ .reset → s.mode ≠ .halt → ∃ t, exec (.livenessTimeout true) s = .next t ∧ t.mode = .halt ∧ t.flt.aliveRun = false)
  ∧ (∀ s : State, s.mode ≠ .reset → s.pwr.rootLock = true →
    ∃ t, exec .rootPllLockLoss s = .next t ∧ t.mode = .halt ∧ t.pwr.rootLock = false)

/-- R306, Table 14.5: what a mode request does that is permitted. DOZE from RUN starts quiescing (and cuts running slices short); RUN abandons quiescing
or ends DOZE; SERVICE is entered from RUN; RUN ends SERVICE at once when nothing runs. R306: a request that names the current mode, or DOZE during
QUIESCING, has no effect. R306: a request that Table 14.5 does not list is rejected, with its cause and its target, is counted, and changes nothing
else. -/
def Obligations.ModeRequests : Prop :=
  ((∀ s : State, s.mode = .run → s.phase = .steady → s.bst.mem.st = .idle → s.bst.eng.st = .idle →
        ∃ t, exec .modeReqDoze s = .next t ∧ t = { s.start with phase := .quiescing, bst := { s.bst with startDue := false } })
      ∧ (∀ s : State, s.mode = .run → s.phase = .steady →
        ∃ t, exec .modeReqDoze s = .next t ∧ t.mode = .run ∧ t.phase = .quiescing ∧ t.bst.mem.st ≠ .test ∧ t.bst.eng.st ≠ .test
          ∧ (s.bst.mem.st = .prepare → t.bst.mem.cut = true) ∧ (s.bst.eng.st = .prepare → t.bst.eng.cut = true))
      ∧ (∀ s : State, s.mode = .run → s.phase = .quiescing →
        ∃ t, exec .modeReqRun s = .next t ∧ t.f Fld.pwrModeCnt_abandons = sat Fld.pwrModeCnt_abandons (s.f Fld.pwrModeCnt_abandons + 1)
          ∧ t.f Fld.pwrModeStat_req_rej = 1 ∧ s.onlyFields t [(Fld.pwrModeCnt_abandons, 0), (Fld.pwrModeStat_req_rej, 0)]
          ∧ t = { s.start with phase := .steady, regs := t.regs })
      ∧ (∀ s : State, s.mode = .doze → s.phase = .steady →
        ∃ t, exec .modeReqRun s = .next t ∧ t.f Fld.pwrModeStat_exit_cause = 1 ∧ t.f Fld.pwrModeStat_exit_rule = 0
          ∧ s.onlyFields t [(Fld.pwrModeStat_exit_cause, 0), (Fld.pwrModeStat_exit_rule, 0)]
          ∧ t = { s.start with phase := .exiting, regs := t.regs })
      ∧ (∀ s : State, s.mode = .service → s.pwr.rescue = false → s.pwr.runAfterFg = false → s.serviceIdle = true →
        ∃ t, exec .modeReqRun s = .next t ∧ t.mode = .run ∧ t.f Fld.gateDbgUnlock_unlock = 0 ∧ t.f Fld.gateDbgStat_unlocked = 0
          ∧ s.onlyFields t [(Fld.gateDbgUnlock_unlock, 0), (Fld.gateDbgStat_unlocked, 0)]
          ∧ t = { s.start with mode := .run, regs := t.regs, flt := { s.start.flt with exLeft := 0 }, pwr := { s.pwr with runAfterFg := false } })
      ∧ (∀ s : State, s.mode = .run → s.phase = .steady →
        ∃ t, exec .modeReqService s = .next t
          ∧ t = { s.start with mode := .service, pwr := { s.pwr with runAfterFg := false }, bst := { s.bst with startDue := false } }))
  ∧ ((∀ s : State, s.mode = .run → s.phase = .steady → exec .modeReqRun s = .next s.start)
      ∧ (∀ s : State, s.mode = .doze → s.phase = .steady → exec .modeReqDoze s = .next s.start)
      ∧ (∀ s : State, s.mode = .service → exec .modeReqService s = .next s.start)
      ∧ (∀ s : State, s.mode = .run → s.phase = .quiescing → exec .modeReqDoze s = .next s.start))
  ∧ ((∀ (s : State) (m : BitVec 3), m = 1 ∨ m = 5 ∨ m = 6 ∨ m = 7 → s.mode ≠ .reset → s.mode ≠ .halt →
        ∃ t, exec (.modeReqInvalid m) s = .next t ∧ t.f Fld.pwrModeStat_req_rej = 1 ∧ t.f Fld.pwrModeStat_rej_cause = 1
          ∧ t.f Fld.pwrModeStat_rej_target = m.toNat ∧ t.f Fld.pwrModeCnt_rejects = sat Fld.pwrModeCnt_rejects (s.f Fld.pwrModeCnt_rejects + 1)
          ∧ t = { s.start with regs := t.regs })
      ∧ ∀ (s : State) (c : Instr) (cause target : Nat),
        (c = .modeReqDoze ∧ target = 3 ∧ (s.mode = .service ∧ cause = 1 ∨ s.mode = .load ∧ cause = 2 ∨ s.mode = .run ∧ s.phase = .entering ∧ cause = 2)
          ∨ c = .modeReqRun ∧ target = 2 ∧ (s.mode = .load ∧ cause = 2 ∨ s.mode = .doze ∧ s.phase = .exiting ∧ cause = 2
              ∨ s.mode = .service ∧ s.pwr.rescue = true ∧ cause = 3)
          ∨ c = .modeReqService ∧ target = 4 ∧ (s.mode = .run ∧ s.phase = .quiescing ∧ cause = 1 ∨ s.mode = .doze ∧ s.phase = .steady ∧ cause = 1
              ∨ s.mode = .run ∧ s.phase = .entering ∧ cause = 2 ∨ s.mode = .doze ∧ s.phase = .exiting ∧ cause = 1 ∨ s.mode = .load ∧ cause = 2)
          ∨ (∃ t : BitVec 3, c = .modeReqInvalid t ∧ target = t.toNat ∧ (t = 1 ∨ t = 5 ∨ t = 6 ∨ t = 7)) ∧ s.mode ≠ .reset ∧ s.mode ≠ .halt ∧ cause = 1) →
        ∃ t, exec c s = .next t ∧ t.f Fld.pwrModeStat_req_rej = 1 ∧ t.f Fld.pwrModeStat_rej_cause = cause
          ∧ t.f Fld.pwrModeStat_rej_target = target
          ∧ t.f Fld.pwrModeCnt_rejects = sat Fld.pwrModeCnt_rejects (s.f Fld.pwrModeCnt_rejects + 1)
          ∧ s.onlyFields t [(Fld.pwrModeStat_req_rej, 0), (Fld.pwrModeStat_rej_cause, 0), (Fld.pwrModeStat_rej_target, 0),
              (Fld.pwrModeCnt_rejects, 0)]
          ∧ t = { s.start with regs := t.regs })

/-- R307, R308, R305: the way into DOZE. The entry steps start when the bridge is quiescent, a time-out abandons the entry with REJ_CAUSE 0b100, and the
bridge is in DOZE when the last Hub port has powered down and every transfer has completed. R310: the way out of DOZE. After an exit cause CORE and
ENG run and the exit wakes are queued with the C0 bucket full; RUN is reached when every Hub port is usable: QUIET links retrain, sleeping ports
train, and the accesses that DOZE held are performed. -/
def Obligations.DozeEntryAndExit : Prop :=
  ((∀ s : State, s.mode = .run → s.phase = .quiescing → s.quiescentNow = true →
        ∃ t, exec .quiescent s = .next t ∧ t.mode = .run ∧ t.phase = .entering
          ∧ (∀ e < 104, .eng e ∈ s.pwr.up → .eng e ∈ t.pwr.pd) ∧ (∀ h < 24, .hub h ∈ s.pwr.up → .hub h ∈ t.pwr.pd)
          ∧ (∀ l < 2, (s.link l).st = .up → (t.link l).quietReq = true))
      ∧ (∀ s : State, s.mode = .run → s.phase = .quiescing →
        ∃ t, exec .quiesceTimeout s = .next t ∧ t.f Fld.pwrModeStat_req_rej = 1 ∧ t.f Fld.pwrModeStat_rej_cause = 4
          ∧ t.f Fld.pwrModeStat_rej_target = 3
          ∧ t.f Fld.pwrModeCnt_abandons = sat Fld.pwrModeCnt_abandons (s.f Fld.pwrModeCnt_abandons + 1)
          ∧ s.onlyRegs t [(.pwrModeStat, 0), (.pwrModeCnt, 0)] ∧ t = { s.start with phase := .steady, regs := t.regs })
      ∧ (∀ s : State, s.mode = .run → s.phase = .entering → (∀ h < 24, .hub h ∉ s.pwr.up) → s.hubEmpty = true →
        ∃ t, exec .dozeEntered s = .next t
          ∧ t.f Fld.pwrModeCnt_doze_entries = sat Fld.pwrModeCnt_doze_entries (s.f Fld.pwrModeCnt_doze_entries + 1)
          ∧ s.onlyFields t [(Fld.pwrModeCnt_doze_entries, 0)]
          ∧ t = { s.start with mode := .doze, phase := .steady, regs := t.regs, pwr := { s.pwr with coreGated := true, engGated := true } }))
  ∧ ((∀ s : State, s.mode = .doze → s.phase = .exiting → s.pwr.coreGated = true →
        ∃ t, exec .clocksUngated s = .next t ∧ t.mode = .doze ∧ t.phase = .exiting ∧ t.pwr.coreGated = false ∧ t.pwr.engGated = false
          ∧ t.pwr.c0Bucket = s.c0Depth
          ∧ (∀ h < 24, .hub h ∈ t.pwr.up ∨ .hub h ∈ t.pwr.granted ∨ ∃ w ∈ t.pwr.wakes, w.part = .hub h))
      ∧ (∀ s : State, s.mode = .doze → s.phase = .exiting → s.pwr.coreGated = false → (∀ h < 24, .hub h ∈ s.pwr.up) → s.bcsWait = [] →
        ∃ t, exec .dozeExitDone s = .next t ∧ t.mode = .run ∧ t.phase = .steady
          ∧ (∀ l < 2, (s.link l).st = .quiet → (t.link l).st = .retrain)
          ∧ (∀ p ∈ t.ports, p.2.st ≠ .sleep) ∧ t.jnl = s.jnl ∧ t.pwr = s.pwr)
      ∧ (∀ (s : State) (r : BcsReq), s.mode = .doze → s.phase = .exiting → s.pwr.coreGated = false → (∀ h < 24, .hub h ∈ s.pwr.up) →
          s.bcsWait = [r] → ({ s with mode := .run } : State).mustWait [] r = false →
        ∃ t, exec .dozeExitDone s = .next t ∧ t.bcsWait = []))

/-- R313 to R315, R318: a Kickstand sample. With no rule enabled it takes the sideband levels and ends the TRIGGER pulses; TWAKE_N low twice running ends
DOZE; and a rule whose debounced level rises often enough fires: here an ALERT, which sets its bit of KST_FIRED and KST_ALERT and logs one record. -/
def Obligations.KickstandSamples : Prop :=
  (∀ (s : State) (k : KickIn), s.onlyRules [] → s.mode ≠ .doze → s.phase ≠ .entering →
    ∃ t, exec (.kickstandSample k) s = .next t ∧ t.f Fld.kstSbi_raw = k.sbi.toNat ∧ t.f Fld.kstSbi_deb = k.sbi.toNat
      ∧ s.onlyFields t [(Fld.kstSbi_raw, 0), (Fld.kstSbi_deb, 0)]
      ∧ t = { s.start with kst := { s.kst with now := s.kst.now + 1, trig := [], twakeLow := 0 }, regs := t.regs })
  ∧ (∀ (s : State) (k : KickIn), s.onlyRules [] → s.mode = .doze → s.phase = .steady → k.twakeN = false → s.kst.twakeLow = 1 →
    ∃ t, exec (.kickstandSample k) s = .next t ∧ t.mode = .doze ∧ t.phase = .exiting ∧ t.f Fld.pwrModeStat_exit_cause = 3)
  ∧ (∀ (s : State) (k : KickIn) (r : Nat), r < 32 → s.onlyRules [r] → s.mode = .run → s.phase = .steady → s.fb Fld.kstRuleIn_en r = true →
      s.f Fld.kstRuleIn_src r = 1 → s.fb Fld.kstRuleIn_inv r = false → bit (s.f Fld.kstRuleIn_sel r) k.sbi.toNat = true →
      (s.rule r).lvl = false → max (s.f Fld.kstRuleDeb_deb r) 1 ≤ (s.rule r).run + 1 →
      ((s.rule r).opened = true → s.kst.now + 1 < (s.rule r).wend) → s.f Fld.kstRuleDeb_thresh r ≤ (s.rule r).cnt + 1 →
      bit 1 (s.f Fld.kstRuleAct_modes r) = true → s.f Fld.kstRuleAct_action r = 2 → s.fb Fld.kstEv_en = false →
    ∃ t, exec (.kickstandSample k) s = .next t ∧ t.reg .kstFired = s.reg .kstFired ||| BitVec.ofNat 32 (2 ^ r)
      ∧ t.reg .kstAlert = s.reg .kstAlert ||| BitVec.ofNat 32 (2 ^ r)
      ∧ t.f Fld.kstLogA_rule (s.f Fld.kstLogHead_next) = r ∧ t.f Fld.kstLogA_action (s.f Fld.kstLogHead_next) = 2
      ∧ (t.rule r).lvl = true ∧ (t.rule r).cnt = 0 ∧ t.mode = .run)

/-- R323, Table 14.12: TELEM returns 32 bytes: the mode with whether ALIVE toggles, the core-voltage setpoint, the die temperatures, the droop count,
GLB_TS and KST_ALERT stand where the table places them. What PWR_POWER reads is any value of its width. R323, R324: the SMBus commands that set or
report the target's own state: BCS_ADDR, BCS_RESULT, TRIGGER, ALERTS, the Alert Response Address, and an unknown code, which is NACKed and counted, as
is a bad PEC. R324, R323: SMBus accesses of the control space. A read returns the word at the access address and a write stores it, as any access of
the service path does, and the address steps by 4; MODE is a keyed write of GLB_MODE_REQ, whose second byte must be the complement of its first. -/
def Obligations.SmbusCommands : Prop :=
  (∀ s : State, s.smbHears = true →
        ∃ t rec, exec (.telem true) s = .next t ∧ t.outp = [.smb rec] ∧ rec.length = 32
          ∧ fieldAt 0 1 rec = b2n s.flt.aliveRun * 2 ^ 7 + modeCode s.mode
          ∧ fieldAt 2 2 rec = s.f Fld.pwrAvsStat_vset
          ∧ (∀ n < 8, fieldAt (4 + n) 1 rec = if s.fb Fld.pwrTemp_valid n then s.f Fld.pwrTemp_temp n else 0x80)
          ∧ fieldAt 14 2 rec = s.f Fld.pwrDroopStat_count ∧ fieldAt 16 4 rec = s.ts % 2 ^ 32 ∧ fieldAt 20 4 rec = (s.reg .kstAlert).toNat
          ∧ t = { s.start with outp := t.outp, freeCount := t.freeCount, freeNext := t.freeNext })
  ∧ ((∀ (s : State) (v : Word), s.smbHears = true →
        ∃ t, exec (.bcsAddr v true) s = .next t ∧ t = { s.start with kst := { s.kst with smbAddr := v &&& 0x3FFFFFF } })
      ∧ (∀ s : State, s.smbHears = true → s.mode ≠ .reset →
        ∃ t, exec (.bcsResult true) s = .next t ∧ t = { s.start with outp := [.smb (natBytes 1 s.kst.smbRes)] })
      ∧ (∀ (s : State) (b : Byte), s.smbHears = true →
        ∃ t, exec (.trigger b true) s = .next t ∧ b.toNat % 32 ∈ t.kst.trig
          ∧ t = { s.start with kst := { s.kst with trig := t.kst.trig } })
      ∧ (∀ s : State, s.smbHears = true →
        ∃ t, exec (.alerts true) s = .next t ∧ t.outp = [.smb (wordBytes (s.reg .kstAlert))] ∧ t.reg .kstAlert = 0
          ∧ s.onlyRegs t [(.kstAlert, 0)] ∧ t = { s.start with outp := t.outp, regs := t.regs, kst := { s.kst with alertNew := 0 } })
      ∧ (∀ s : State, s.smbHears = true → s.kst.alertNew ≠ 0 →
        ∃ t, exec .alertResponseAddress s = .next t ∧ (∃ b, t.outp = [.smb [b]]) ∧ t = { s.start with outp := t.outp, kst := { s.kst with alertNew := 0 } })
      ∧ (∀ (s : State) (c : Byte), s.smbHears = true → c ∉ smbCodes →
        ∃ t, exec (.smbusUnknownCommand c) s = .next t ∧ t.outp = [.smbNack]
          ∧ t.f Fld.kstSmb_nacks = sat Fld.kstSmb_nacks (s.f Fld.kstSmb_nacks + 1)
          ∧ s.onlyFields t [(Fld.kstSmb_nacks, 0)] ∧ t = { s.start with outp := t.outp, regs := t.regs })
      ∧ (∀ (s : State) (c : Instr), s.smbHears = true →
          (c = .telem false ∨ (∃ lo hi, c = .mode lo hi false) ∨ (∃ v, c = .bcsAddr v false) ∨ c = .bcsResult false ∨ (∃ b, c = .trigger b false)
            ∨ c = .alerts false) →
        ∃ t, exec c s = .next t ∧ t.outp = [.smbNack] ∧ t.f Fld.kstSmb_pec_err = sat Fld.kstSmb_pec_err (s.f Fld.kstSmb_pec_err + 1)
          ∧ s.onlyFields t [(Fld.kstSmb_pec_err, 0)] ∧ t = { s.start with outp := t.outp, regs := t.regs }))
  ∧ ((∀ s : State, s.smbHears = true → s.mode ≠ .reset → s.goes (smbReq s.kst.smbAddr.toNat false 0) = true →
          (∀ b, blockAt s.kst.smbAddr.toNat = some b → slowBlock b = false) →
        ∃ t, exec (.bcsRead true) s = .next t ∧ .smb (s.start.readBytes s.kst.smbAddr.toNat 4 true).1 ∈ t.outp ∧ t.kst.smbRes = 0
          ∧ t.kst.smbAddr = (s.kst.smbAddr + 4 &&& 0x3FFFFFF))
      ∧ (∀ (s : State) (v : Word), s.smbHears = true → s.mode ≠ .reset → s.kst.smbAddr.toNat = regOff .glbScratch 0 →
          s.goesWrite { src := .svc } .glbScratch 0 v = true →
        ∃ t, exec (.bcsWrite v true) s = .next t ∧ t.reg .glbScratch = v ∧ t.kst.smbRes = 0 ∧ t.kst.smbAddr = (s.kst.smbAddr + 4 &&& 0x3FFFFFF)
          ∧ s.onlyRegs t [(.glbScratch, 0)] ∧ t = { s.start with outp := t.outp, regs := t.regs, kst := t.kst })
      ∧ (∀ (s : State) (lo : Byte), s.smbHears = true → s.mode = .run → s.phase = .steady →
          s.goesKeyed { src := .svc } .glbModeReq 0 (BitVec.ofNat 32 (lo.toNat % 8)) (~~~BitVec.ofNat 32 (lo.toNat % 8)) = true →
        ∃ t, exec (.mode lo (~~~lo) true) s = .next t ∧ t.mode = (if lo.toNat % 8 = 4 then .service else .run)
          ∧ t.phase = (if lo.toNat % 8 = 3 then .quiescing else .steady))
      ∧ (∀ (s : State) (lo hi : Byte), s.smbHears = true → s.mode = .run → hi ≠ ~~~lo →
          s.goesKeyed { src := .svc } .glbModeReq 0 (BitVec.ofNat 32 (lo.toNat % 8)) (~~~BitVec.ofNat 32 (lo.toNat % 8)) = true →
        ∃ t, exec (.mode lo hi true) s = .next t ∧ t.mode = .run ∧ t.phase = s.phase ∧ t.f Fld.updKeyStatus_key_fail = 1
          ∧ t.f Fld.updKeyStatus_cause = 0))

/-- R365, Table 16.9: a TAP instruction is loaded, TDO first giving the captured 0b0000_0001; IDCODE then gives the identification 0x1014_4ABD, and an
instruction that is or acts as BYPASS a single 0 bit; EXTEST, EXTEST_PULSE, EXTEST_TRAIN, CLAMP and HIGHZ do what they name only in RESET. TRST_N
selects IDCODE. R366, Table 16.10: a scan of the access register gives the last result and, with OP = 1, starts one 4-byte access under the identity
of the service path or of the debug master: a performed read sets STATUS 0b00 and DATA, a performed write stores, and one in RESET or at an unaligned
address sets STATUS 0b11. R367: so does a write to the Landing view in SERVICE. -/
def Obligations.TapScans : Prop :=
  ((∀ s : State, ∃ t, exec .idcode s = .next t ∧ t.tapActs = 0x01
          ∧ t = { s.start with tap := { s.tap with ir := 0x01 }, outp := [.tdo 1, .tdo 0x10144ABD] })
      ∧ (∀ (s : State) (c : Instr) (code : Byte),
          (c = .extest ∧ code = 0x00 ∨ c = .extestPulse ∧ code = 0x03 ∨ c = .extestTrain ∧ code = 0x04 ∨ c = .clamp ∧ code = 0x05
            ∨ c = .highz ∧ code = 0x06) →
        ∃ t, exec c s = .next t ∧ t.tapActs = (if s.mode = .reset then code else 0xFF)
          ∧ t = { s.start with
              tap := { s.tap with ir := code }
              outp := if s.mode = .reset ∧ code ≠ 0x05 ∧ code ≠ 0x06 then [.tdo 1] else [.tdo 1, .tdo 0] })
      ∧ (∀ s : State, ∃ t, exec .samplePreload s = .next t ∧ t.tapActs = 0x02
          ∧ t = { s.start with tap := { s.tap with ir := 0x02 }, outp := [.tdo 1] })
      ∧ (∀ (s : State) (code : Byte), code ∉ tapCodes → ∃ t, exec (.bypass code) s = .next t ∧ t.tapActs = 0xFF
          ∧ t = { s.start with tap := { s.tap with ir := code }, outp := [.tdo 1, .tdo 0] })
      ∧ (∀ s : State, ∃ t, exec .trstNAssert s = .next t ∧ t = { s.start with tap := { s.tap with ir := 0x01 } }))
  ∧ ((∀ (s : State) (dr : BitVec 64) (dbg : Bool), bit 60 dr.toNat = true → bit 59 dr.toNat = false → bit 58 dr.toNat = false → s.tap.status ≠ 2 →
          s.mode ≠ .reset → s.goes (tapReq { src := if dbg then .dbg else .svc } dr.toNat) = true →
          (∀ b, blockAt (dr.toNat / 2 ^ 32 % 2 ^ 26) = some b → slowBlock b = false) →
        ∃ t, exec (if dbg then .dapAcc dr else .svcAcc dr) s = .next t ∧ t.tap.status = 0 ∧ t.tap.addr = dr.toNat / 2 ^ 32 % 2 ^ 26
          ∧ t.tap.data = bytesNat (s.start.readBytes (dr.toNat / 2 ^ 32 % 2 ^ 26) 4 true).1 ∧ .tdo (tapCapture s.tap) ∈ t.outp)
      ∧ (∀ (s : State) (dr : BitVec 64) (dbg : Bool), bit 60 dr.toNat = true → bit 59 dr.toNat = false → bit 58 dr.toNat = true → s.tap.status ≠ 2 →
          s.mode ≠ .reset → dr.toNat / 2 ^ 32 % 2 ^ 26 = regOff .glbScratch 0 →
          s.goesWrite { src := if dbg then .dbg else .svc } .glbScratch 0 (BitVec.ofNat 32 dr.toNat) = true →
        ∃ t, exec (if dbg then .dapAcc dr else .svcAcc dr) s = .next t ∧ t.tap.status = 0 ∧ t.reg .glbScratch = BitVec.ofNat 32 dr.toNat
          ∧ s.onlyRegs t [(.glbScratch, 0)] ∧ t = { s.start with outp := t.outp, regs := t.regs, tap := t.tap })
      ∧ (∀ (s : State) (dr : BitVec 64), bit 60 dr.toNat = true → s.tap.status ≠ 2 → (s.mode = .reset ∨ dr.toNat / 2 ^ 32 % 4 ≠ 0) →
        ∃ t, exec (.svcAcc dr) s = .next t ∧ t.tap.status = 3
          ∧ t = { s.start with tap := { s.tap with ir := 0x20, addr := t.tap.addr, wr := t.tap.wr, space := t.tap.space, status := 3 }, outp := t.outp })
      ∧ (∀ (s : State) (dr : BitVec 64), bit 60 dr.toNat = true → bit 59 dr.toNat = true → bit 58 dr.toNat = true → s.tap.status ≠ 2 →
          dr.toNat / 2 ^ 32 % 4 = 0 → dr.toNat / 2 ^ 32 % 2 ^ 26 < 2 ^ 25 → s.mode = .service →
          s.judge gBuf (accIdent { src := .svc }) (dr.toNat / 2 ^ 32 % 2 ^ 26) (dr.toNat / 2 ^ 32 % 2 ^ 26 + 3) false true = .ok →
          s.img.formed = true → s.ops = [] → s.ctxs = [] →
        ∃ t, exec (.svcAcc dr) s = .next t ∧ t.tap.status = 0
          ∧ (∀ k < 4, t.landByte 0 (dr.toNat / 2 ^ 32 % 2 ^ 26 + k) = BitVec.ofNat 8 (fieldAt k 1 (natBytes 4 (dr.toNat % 2 ^ 32))))
          ∧ (s.land.epoch = s.jnl.serial →
              ∀ x, (x < dr.toNat / 2 ^ 32 % 2 ^ 26 ∨ dr.toNat / 2 ^ 32 % 2 ^ 26 + 4 ≤ x) → t.landByte 0 x = s.landByte 0 x)
          ∧ t = { s.start with tap := t.tap, outp := t.outp, land := t.land }))

/-- R377, R18: an access is refused once, under the first cause that it meets: reserved offset, unaligned, narrow write, size, mode, G_CTL. A write of a
size other than 4 or 8 bytes, apart from a whole table entry, is narrow, and a read of such a size is refused for its size; an access that meets no
cause is not refused. R19: a refused access is offered to the capture of GLB_BAD_ACC_ADDR and GLB_BAD_ACC_INFO, which keeps the first, with its cause,
offset, source, size and whether it was posted; a posted one is counted once at source 0x000, and gets no answer; a non-posted Thaty access is
answered with CA. R18, R377: an access whose form is not one of Table 2.2 is refused under the first cause that its form meets; one of a good form is
refused with 0b110 in a mode that does not permit it. The refusal is offered to the capture of R19, which keeps the first, and changes nothing else; a
non-posted access is answered with CA. -/
def Obligations.AccessesAreRefused : Prop :=
  (∀ (s : State) (r : BcsReq) (reserved unaligned narrow size wrongMode : Bool),
        let n := r.en.length
        reserved = decide (targetAt r.off = .reserved) →
        unaligned = decide ((n = 1 ∨ n = 2 ∨ n = 4 ∨ n = 8) ∧ r.off % n ≠ 0) →
        narrow = decide (r.wr = true ∧ wholeEntry r = false ∧ (n ≠ 4 ∧ n ≠ 8 ∨ false ∈ r.en)) →
        size = decide (wholeEntry r = false ∧ (n ≠ 1 ∧ n ≠ 2 ∧ n ≠ 4 ∧ n ≠ 8 ∨ n = 8 ∧ (targetAt r.off).pairHi = none)) →
        wrongMode = decide (∃ b, blockAt r.off = some b ∧ s.modeRefuses b r = true) →
        (reserved = true → s.bcsDo r = s.bcsRefuse r 1)
        ∧ (reserved = false → unaligned = true → s.bcsDo r = s.bcsRefuse r 2)
        ∧ (reserved = false → unaligned = false → narrow = true → s.bcsDo r = s.bcsRefuse r 3)
        ∧ (reserved = false → unaligned = false → narrow = false → size = true → s.bcsDo r = s.bcsRefuse r 4)
        ∧ (reserved = false → unaligned = false → narrow = false → size = false → wrongMode = true → s.bcsDo r = s.bcsRefuse r 6)
        ∧ (reserved = false → unaligned = false → narrow = false → size = false → wrongMode = false → ∀ res addr, s.bcsJudge r = .bad res addr →
            s.bcsDo r = (s.gateReport gCtl (accIdent r.acc) addr res).bcsRefuse r 5)
        ∧ (reserved = false → unaligned = false → narrow = false → size = false → wrongMode = false → s.bcsJudge r = .ok → s.bcsDo r = s.bcsPerform r))
  ∧ (∀ (s : State) (r : BcsReq) (cause : Nat), s.mode ≠ .reset → cause < 8 → r.off < 2 ^ 26 → r.via = .thaty →
        let t := s.bcsRefuse r cause
        (s.fb Fld.glbBadAccInfo_valid = false →
          t.f Fld.glbBadAccInfo_valid = 1 ∧ t.f Fld.glbBadAccInfo_cause = cause ∧ t.f Fld.glbBadAccAddr_offset = r.off
          ∧ t.f Fld.glbBadAccInfo_posted = b2n (isPosted r) ∧ t.f Fld.glbBadAccInfo_source = srcCode r.acc.src
          ∧ t.f Fld.glbBadAccInfo_size = sizeCode r.en.length)
        ∧ (s.fb Fld.glbBadAccInfo_valid = true → t.reg .glbBadAccAddr = s.reg .glbBadAccAddr ∧ t.reg .glbBadAccInfo = s.reg .glbBadAccInfo)
        ∧ (isPosted r = true → s.counted t 0x000 ∧ (s.mute 0x000 = true → t.links = s.links))
        ∧ (isPosted r = false → t.flt = s.flt ∧ ∀ l, srcLink r.acc.src = some l →
            .packet (s.route l) (s.cplPkt (accHdr r.acc) 2 []) ∈ t.outp))
  ∧ (∀ (s : State) (a : Acc) (off : BitVec 26) (v : Word) (cause : Nat),
        s.canReach a.src = true → s.mustWait s.bcsWait (wordWrite a off.toNat v) = false → s.bcsWait = [] → a.posted = false → s.exOn 11 = false →
        (formCause (wordWrite a off.toNat v) = some cause
          ∨ formCause (wordWrite a off.toNat v) = none ∧ (∃ b, blockAt off.toNat = some b ∧ s.modeRefuses b (wordWrite a off.toNat v) = true) ∧ cause = 6) →
        ∃ t, exec (.registerWrite a off ((wordBytes v).map some)) s = .next t
          ∧ Output.bcs (wordWrite a off.toNat v) (.refused cause) ∈ t.outp
          ∧ (if s.fb Fld.glbBadAccInfo_valid then t.regs = s.regs
             else t.f Fld.glbBadAccInfo_valid = 1 ∧ t.f Fld.glbBadAccInfo_cause = cause ∧ t.f Fld.glbBadAccAddr_offset = off.toNat
               ∧ s.onlyRegs t [(.glbBadAccAddr, 0), (.glbBadAccInfo, 0)])
          ∧ t = { s.asideFrom t with regs := t.regs })

/-- R29, R34, R18: a write of a register that only stores. Its RW fields take the value at once and its RWS fields in the shadow; fields that are locked
stay, and a value that differs from a locked one is recorded as a violation; nothing else changes, and the access completes. R26, Table 2.3: a write
through an alias of such a register sets, clears or toggles bits of its RW fields in the stored value and of its RWS fields in the shadow. -/
def Obligations.RegisterWritesStore : Prop :=
  (∀ (s : State) (a : Acc) (off : BitVec 26) (id : RegId) (i : Nat) (v : Word),
        targetAt off.toNat = .reg id i → plainReg id = true → regOff id i = off.toNat → id.row.block ≠ .upd → s.reaches a id i = true →
        s.goes (wordWrite a off.toNat v) = true → s.noPend off.toNat = true →
        ∃ t, exec (.registerWrite a off ((wordBytes v).map some)) s = .next t
          ∧ t.reg id i = blend (id.row.rw &&& ~~~s.lockMask id i) v (s.reg id i)
          ∧ t.shadowReg id i = blend (id.row.rws &&& ~~~s.lockMask id i) v (s.shadowReg id i)
          ∧ (∀ k, k ≠ off.toNat → FMap.find k t.shadow = FMap.find k s.shadow)
          ∧ (if s.lockBreaks id i v then
              t.f Fld.updLockStatus_reglock_viol = 1 ∧ t.f Fld.updLockAddr_offset = off.toNat
              ∧ t.f Fld.updLockStatus_viol_cnt = sat Fld.updLockStatus_viol_cnt (s.f Fld.updLockStatus_viol_cnt + 1)
              ∧ s.onlyRegs t [(id, i), (.updLockStatus, 0), (.updLockAddr, 0)]
             else s.onlyRegs t [(id, i)])
          ∧ s.ended t (wordWrite a off.toNat v) (.done []) ∧ t = { s.asideFrom t with regs := t.regs, shadow := t.shadow })
  ∧ (∀ (s : State) (a : Acc) (off : BitVec 26) (k : AliasKind) (id : RegId) (i : Nat) (v : Word),
        targetAt off.toNat = .viaAlias k id i → plainReg id = true → id.row.block ≠ .upd → s.reaches a id i = true → s.lockMask id i = 0 →
        s.goes (wordWrite a off.toNat v) = true → s.noPend off.toNat = true →
        ∃ t, exec (.aliasWrite a off v) s = .next t
          ∧ t.reg id i = blend id.row.rw (aliasWord k (s.reg id i) v) (s.reg id i)
          ∧ t.shadowReg id i = blend id.row.rws (aliasWord k (s.shadowReg id i) v) (s.shadowReg id i)
          ∧ s.onlyRegs t [(id, i)] ∧ s.ended t (wordWrite a off.toNat v) (.done [])
          ∧ t = { s.asideFrom t with regs := t.regs, shadow := t.shadow })

/-- R28: a read at a register's base offset returns its word and clears its RC fields to their reset values; nothing else of the registers changes. R20: a
4-byte read of _LO returns the live _LO and keeps the live _HI of that edge; the next 4-byte read of _HI returns what was kept, whatever the live _HI
has become, and empties the shadow, after which _HI reads live. -/
def Obligations.RegisterReads : Prop :=
  (∀ (s : State) (a : Acc) (off : BitVec 26) (id : RegId) (i : Nat),
        targetAt off.toNat = .reg id i → regOff id i = off.toNat → id.row.half = .none → id.row.rc ≠ 0 → s.goes (wordRead a off.toNat) = true →
        ∃ t, exec (.clearOnRead a off) s = .next t
          ∧ s.ended t (wordRead a off.toNat) (.done (wordBytes (s.start.peek id i).1))
          ∧ t.reg id i = (s.reg id i &&& ~~~id.row.rc) ||| (id.row.reset &&& id.row.rc)
          ∧ s.onlyRegs t [(id, i)] ∧ t.shadow = s.shadow ∧ t.hiShadow = s.hiShadow)
  ∧ ((∀ (s : State) (a : Acc) (off : BitVec 26) (lo hi : RegId) (i j : Nat),
        targetAt off.toNat = .reg lo i → lo.row.half = .lo → regOff lo i = off.toNat → regAt (off.toNat + 4) = some (hi, j) →
        s.goes (wordRead a off.toNat) = true →
        ∃ t, exec (.pairLoRead a off) s = .next t
          ∧ s.ended t (wordRead a off.toNat) (.done (wordBytes (s.start.peek lo i).1))
          ∧ FMap.find (off.toNat + 4) t.hiShadow = some (((s.start.peek lo i).2.peek hi j).1) ∧ t.regs = s.regs
          ∧ ∀ k, k ≠ off.toNat + 4 → FMap.find k t.hiShadow = FMap.find k s.hiShadow)
      ∧ (∀ (s : State) (a : Acc) (off : BitVec 26) (hi : RegId) (i : Nat) (w : Word),
        targetAt off.toNat = .reg hi i → hi.row.half = .hi → regOff hi i = off.toNat → FMap.find off.toNat s.hiShadow = some w →
        s.goes (wordRead a off.toNat) = true →
        ∃ t, exec (.pairHiRead a off) s = .next t ∧ s.ended t (wordRead a off.toNat) (.done (wordBytes w))
          ∧ FMap.find off.toNat t.hiShadow = none ∧ t.regs = s.regs)
      ∧ (∀ (s : State) (a : Acc) (off : BitVec 26) (hi : RegId) (i : Nat),
        targetAt off.toNat = .reg hi i → hi.row.half = .hi → regOff hi i = off.toNat → FMap.find off.toNat s.hiShadow = none →
        s.goes (wordRead a off.toNat) = true →
        ∃ t, exec (.pairHiRead a off) s = .next t ∧ s.ended t (wordRead a off.toNat) (.done (wordBytes (s.start.peek hi i).1))
          ∧ t.hiShadow = s.hiShadow ∧ t.regs = s.regs))

/-- R32, R33: a keyed value takes effect only as a pair of non-posted writes of one requester, by either link, the second the complement of the first. The
first half waits; its complement gives the register the value; a wrong complement, another requester, a posted write or a missing first half has no
effect on it and is recorded with its cause, as is a first half that expires. -/
def Obligations.KeyedPairs : Prop :=
  (∀ (s : State) (a : Acc) (off : BitVec 26) (id : RegId) (i : Nat) (v : Word) (b : Block),
    targetAt off.toNat = .reg id i → id.row.keyed = true → blockAt off.toNat = some b → a.posted = false → s.noPend off.toNat = true →
    s.goes (wordWrite a off.toNat v) = true →
    ∃ t, exec (.keyedWrite a off v) s = .next t
      ∧ t.keyPend = FMap.put b.base { off := off.toNat, val := v, src := a.src, reqId := a.reqId } s.keyPend
      ∧ t = { s.asideFrom t with keyPend := t.keyPend })
  ∧ (∀ (s : State) (a : Acc) (off : BitVec 26) (i : Nat) (v : Word) (x : Src) (n : Nat),
    targetAt off.toNat = .comp .gateDefmap i → a.posted = false → s.goes (wordWrite a off.toNat (~~~v)) = true → s.rescued = false →
    FMap.find Block.gate.base s.keyPend = some { off := regOff .gateDefmap i, val := v, src := x, reqId := n } → n = a.reqId →
    (x = a.src ∨ (x = .tl0 ∨ x = .tl1) ∧ (a.src = .tl0 ∨ a.src = .tl1)) →
    ∃ t, exec (.keyedWrite a off (~~~v)) s = .next t ∧ (t.peek .gateDefmap i).1 = (if i = 9 then v &&& 0xFFF else v) ∧ s.onlyRegs t [(.gateDefmap, i)]
      ∧ t = { s.asideFrom t with regs := t.regs, keyPend := FMap.del Block.gate.base s.keyPend })
  ∧ (∀ (s : State) (a : Acc) (off : BitVec 26) (id : RegId) (i : Nat) (v : Word) (b : Block) (p : Option KeyPend) (cause : Nat),
    targetAt off.toNat = .comp id i → blockAt off.toNat = some b → b ≠ .cmp → s.goes (wordWrite a off.toNat v) = true →
    FMap.find b.base s.keyPend = p →
    (a.posted = true ∧ (∀ q, p = some q → q.off = regOff id i ∧ samePend q a = true) ∧ cause = 1
      ∨ a.posted = false ∧ p = none ∧ cause = 1
      ∨ a.posted = false ∧ (∃ q, p = some q ∧ q.off = regOff id i ∧ samePend q a = false) ∧ cause = 2
      ∨ a.posted = false ∧ (∃ q, p = some q ∧ q.off = regOff id i ∧ samePend q a = true ∧ v ≠ ~~~q.val) ∧ cause = 0) →
    ∃ t, exec (.keyedWrite a off v) s = .next t ∧ t.f Fld.updKeyStatus_key_fail = 1 ∧ t.f Fld.updKeyStatus_cause = cause
      ∧ t.f Fld.updKeyAddr_offset = regOff id i ∧ t.f Fld.updKeyStatus_fail_cnt = sat Fld.updKeyStatus_fail_cnt (s.f Fld.updKeyStatus_fail_cnt + 1)
      ∧ s.onlyRegs t [(.updKeyStatus, 0), (.updKeyAddr, 0)] ∧ FMap.find b.base t.keyPend = none
      ∧ t = { s.asideFrom t with regs := t.regs, keyPend := t.keyPend })
  ∧ (∀ (s : State) (off : BitVec 26) (base : Nat) (p : KeyPend), s.keyPend = [(base, p)] → p.off = off.toNat → blockAt p.off ≠ some .cmp →
    ∃ t, exec (.keyPendingExpire off) s = .next t ∧ t.keyPend = [] ∧ t.f Fld.updKeyStatus_key_fail = 1 ∧ t.f Fld.updKeyStatus_cause = 3
      ∧ t.f Fld.updKeyAddr_offset = off.toNat ∧ s.onlyRegs t [(.updKeyStatus, 0), (.updKeyAddr, 0)]
      ∧ t = { s.start with regs := t.regs, keyPend := [] })

/-- R24: accesses to KST and IMG complete when their crossing ends, oldest first; the answer goes out and the queue place is free. R30: a write of
UPD_STROBE starts a strobe for the blocks of its mask, bits above 12 ignored; while one is in progress it is ignored and sets OVERRUN. R29 to R31: the
commit of a block that passes or fails as a whole. Where its checks pass every pending value takes the place of the committed one and UPD_STATUS says
so; where they fail nothing is committed. BUSY falls and UPD_COUNT steps on the same edge. -/
def Obligations.SlowAccessesAndStrobes : Prop :=
  (∀ (s : State) (r : BcsReq) (res : BcsRes) (q : List (BcsReq × BcsRes)), s.slowQ = (r, res) :: q → s.bcsWait = [] →
        ∃ t, exec .slowAccessComplete s = .next t ∧ t.slowQ = q ∧ Output.bcs r res ∈ t.outp ∧ t.regs = s.regs ∧ t.shadow = s.shadow
          ∧ t.mode = s.mode ∧ t.bcsWait = [])
  ∧ (∀ (s : State) (a : Acc) (m : Word), s.goesWrite a .updStrobe 0 m = true →
        ∃ t, exec (.updStrobe a m) s = .next t
          ∧ (s.strobe.mask = none → t.strobe.mask = some (m.toNat % 2 ^ 13) ∧ t.regs = s.regs)
          ∧ (∀ n, s.strobe.mask = some n → t.strobe.mask = some n ∧ t.f Fld.updErr_overrun = 1 ∧ s.onlyFields t [(Fld.updErr_overrun, 0)])
          ∧ t.shadow = s.shadow)
  ∧ (∀ (s : State) (b : Block) (k : Nat) (ok : Bool), s.mode ≠ .reset → s.mode ≠ .halt → s.strobe.mask = some (2 ^ k) → s.bcsWait = [] →
        (b = .bst ∧ k = 1 ∧ ok = s.start.bstOk ∨ b = .pwr ∧ k = 2 ∧ ok = s.start.pwrOk ∨ b = .tlk ∧ k = 5 ∧ ok = s.start.tlkOk ∨ b = .jnl ∧ k = 6 ∧ ok = true
          ∨ b = .eng ∧ k = 7 ∧ ok = s.start.engOk ∨ b = .cmp ∧ k = 8 ∧ ok = s.start.cmpOk) →
        ∃ t, exec .strobeCommit s = .next t ∧ t.strobe = {} ∧ t.shadow = s.shadow
          ∧ (∀ id i, regAt (regOff id i) = some (id, i) → id.row.block = b →
              t.reg id i = if ok then (s.reg id i &&& ~~~id.row.rws) ||| (s.shadowReg id i &&& id.row.rws) else s.reg id i)
          ∧ t.f Fld.updStatus_result = (if ok then 1 else 3) * 4 ^ k
          ∧ t.f Fld.updCount_strobes = (s.f Fld.updCount_strobes + 1) % 2 ^ (Fld.updCount_strobes.hi + 1 - Fld.updCount_strobes.lo)
          ∧ s.onlyBlocks t [b, .upd])

/-- R120, R125, R123: writes to table entries go to pending slots, and discards and barriers act as their registers say. -/
def Obligations.TablesPendDiscardAndWait : Prop :=
  (∀ (s : State) (a : Acc) (idx : BitVec 18) (o : Fin 32) (v : Word), idx.toNat < 65536 → o.val % 4 = 0 →
    s.goes (wordWrite a (Block.wtt.base + 32 * idx.toNat + o.val) v) = true → (s.tbl.wttPend.length < 4096 ∨ (FMap.find idx.toNat s.tbl.wttPend).isSome) →
    ∃ t, exec (.tableEntryWrite a .wtt idx o ((wordBytes v).map some)) s = .next t
      ∧ FMap.find idx.toNat t.tbl.wttPend =
          some (setRej wttRejBit false (writeBytes 32 o.val (wordBytes v) ((FMap.find idx.toNat s.tbl.wttPend).getD (s.wttAt idx.toNat))))
      ∧ (∀ k, k ≠ idx.toNat → FMap.find k t.tbl.wttPend = FMap.find k s.tbl.wttPend)
      ∧ t = { s.asideFrom t with tbl := { s.tbl with wttPend := t.tbl.wttPend } })
  ∧ (∀ (s : State) (a : Acc) (idx : BitVec 18) (o : Fin 32) (v : Word), o.val < 16 → o.val % 4 = 0 →
    s.goes (wordWrite a (Block.dvt.base + 16 * idx.toNat + o.val) v) = true → 4096 ≤ s.tbl.dvtPend.length → FMap.find idx.toNat s.tbl.dvtPend = none →
    ∃ t, exec (.tableEntryWrite a .dvt idx o ((wordBytes v).map some)) s = .next t
      ∧ t = { s.asideFrom t with tbl := { s.tbl with dvtOvf := true } })
  ∧ (∀ (s : State) (a : Acc), s.goesWrite a .updTblCtl 0 1 = true → s.strobe.mask = none →
    ∃ t, exec (.wttDiscard a) s = .next t ∧ t.tbl.wttPend = [] ∧ t.tbl.wttOvf = false ∧ t.tbl.dvtPend = s.tbl.dvtPend ∧ t.tbl.dvt = s.tbl.dvt
      ∧ (∀ e ∈ s.tbl.wtt, windowOf e.2 ≠ windowOf 0 → ∃ e' ∈ t.tbl.wtt, e'.1 = e.1 ∧ windowOf e'.2 = windowOf e.2)
      ∧ (∀ e' ∈ t.tbl.wtt, e'.2 &&& BitVec.ofNat 256 wttRejBit = 0 ∧ ∃ e ∈ s.tbl.wtt, e'.1 = e.1 ∧ windowOf e'.2 = windowOf e.2)
      ∧ t.f Fld.updTblStat_wtt_rej = 0 ∧ t.f Fld.updTblRejWtt_valid = 0)
  ∧ (∀ (s : State) (a : Acc), s.goesWrite a .updTblCtl 0 2 = true → s.strobe.mask = none →
    ∃ t, exec (.dvtDiscard a) s = .next t ∧ t.tbl.dvtPend = [] ∧ t.tbl.dvtOvf = false ∧ t.tbl.wttPend = s.tbl.wttPend ∧ t.tbl.wtt = s.tbl.wtt
      ∧ (∀ e ∈ s.tbl.dvt, deviceOf e.2 ≠ deviceOf 0 → ∃ e' ∈ t.tbl.dvt, e'.1 = e.1 ∧ deviceOf e'.2 = deviceOf e.2)
      ∧ (∀ e' ∈ t.tbl.dvt, e'.2 &&& BitVec.ofNat 128 dvtRejBit = 0 ∧ ∃ e ∈ s.tbl.dvt, e'.1 = e.1 ∧ deviceOf e'.2 = deviceOf e.2)
      ∧ t.f Fld.updTblStat_dvt_rej = 0 ∧ t.f Fld.updTblRejDvt_valid = 0)
  ∧ (∀ (s : State) (a : Acc), s.goesWrite a .updTblBarrier 0 1 = true →
    ∃ t, exec (.tblBarrierStart a) s = .next t ∧ t.f Fld.updTblBarrier_done = 0
      ∧ (∀ e ∈ s.jnl.entries, (e.2.st = .admitted ∨ e.2.st = .issued ∨ e.2.st = .farDone) → e.2.serial ∈ t.tbl.barrier)
      ∧ s.onlyFields t [(Fld.updTblBarrier_done, 0)] ∧ t = { s.asideFrom t with regs := t.regs, tbl := { s.tbl with barrier := t.tbl.barrier } })
  ∧ (∀ s : State, s.mode ≠ .reset → s.mode ≠ .halt →
      (∀ e ∈ s.jnl.entries, e.2.serial ∈ s.tbl.barrier → e.2.st ≠ .admitted ∧ e.2.st ≠ .issued ∧ e.2.st ≠ .farDone) →
    ∃ t, exec .tblBarrierDone s = .next t ∧ t.f Fld.updTblBarrier_done = 1 ∧ s.onlyFields t [(Fld.updTblBarrier_done, 0)]
      ∧ t = { s.start with regs := t.regs, tbl := { s.tbl with barrier := [] } })

/-- R43: what a link does with a block. One that fails its CRC, and a DATA block that is not next in sequence, is discarded and sets NAK for the next
block; one in sequence is taken, its ACK ends what it covers, and the packets that its stream completes wait at Thaty ingress. R43, R44: when no ACK
comes in time, every unacknowledged block goes out again, in SEQ order, and none is given up; the fourth resend of a block also retrains the link. -/
def Obligations.LinkBlocksAndReplay : Prop :=
  (∀ (s : State) (l : Fin 2) (b : List Byte), (s.link l.val).flows = true → s.exOn 9 = false →
        (b.length ≠ 256 ∨ crc32c (b.take 252) ≠ BitVec.ofNat 32 (fieldAt 252 4 b) →
          ∃ t, exec (.linkBlockReceive l b) s = .next t ∧ t.link l.val = { s.link l.val with nak := true } ∧ s.sameLinksBut t l.val
            ∧ t = { s.start with links := t.links })
        ∧ (b.length = 256 → crc32c (b.take 252) = BitVec.ofNat 32 (fieldAt 252 4 b) → fieldAt 0 2 b % 16 = 0 →
            fieldAt 0 2 b / 16 ≠ (s.link l.val).rxNext →
          ∃ t, exec (.linkBlockReceive l b) s = .next t ∧ t.link l.val = { s.link l.val with nak := true } ∧ s.sameLinksBut t l.val
            ∧ t = { s.start with links := t.links })
        ∧ (∀ (pre post : List TxBlk) (x : TxBlk), b.length = 256 → crc32c (b.take 252) = BitVec.ofNat 32 (fieldAt 252 4 b) →
            fieldAt 0 2 b % 16 = 0 → bit 3 (fieldAt 2 2 b) = false → fieldAt 6 2 b % 4096 = 0 → (s.link l.val).egress = [] →
            fieldAt 0 2 b / 16 = (s.link l.val).rxNext → (s.link l.val).rxSkip = false →
            (s.link l.val).unacked = pre ++ x :: post → x.seq = fieldAt 2 2 b / 16 → (∀ y ∈ pre, y.seq ≠ x.seq) →
            (∀ y ∈ pre ++ [x], y.frees = []) →
            (parseStream (((s.link l.val).rxPart ++ slice 8 244 b).length + 1) ((s.link l.val).rxPart ++ slice 8 244 b) []).bad = false →
          ∃ t, exec (.linkBlockReceive l b) s = .next t
            ∧ t.link l.val = { s.link l.val with
                unacked := post, rxNext := ((s.link l.val).rxNext + 1) % 4096, ackDue := true
                ingress := (s.link l.val).ingress
                  ++ (parseStream (((s.link l.val).rxPart ++ slice 8 244 b).length + 1) ((s.link l.val).rxPart ++ slice 8 244 b) []).pkts
                rxPart := (parseStream (((s.link l.val).rxPart ++ slice 8 244 b).length + 1) ((s.link l.val).rxPart ++ slice 8 244 b) []).rest }
            ∧ s.sameLinksBut t l.val ∧ t = { s.start with links := t.links }))
  ∧ ((∀ (s : State) (l : Fin 2), s.mode ≠ .reset → (s.link l.val).flows = true → (s.link l.val).unacked ≠ [] → s.mute 0x021 = true →
          s.mute 0x022 = true →
        ∃ t, exec (.replayTimeout l) s = .next t ∧ t.outp = s.resentAll l.val (s.link l.val).unacked
          ∧ (t.link l.val).unacked = (s.link l.val).unacked.map (fun b => { b with resent := b.resent + 1 })
          ∧ t.f Fld.tlkLinkCnt_replays l.val = sat Fld.tlkLinkCnt_replays (s.f Fld.tlkLinkCnt_replays l.val + 1) 
          ∧ FMap.get 0 0x021 t.flt.srcCnt = min (FMap.get 0 0x021 s.flt.srcCnt + 1) 65535
          ∧ (if (s.link l.val).unacked.any (fun b => 3 ≤ b.resent) then
              t.link l.val = { s.link l.val with
                st := .retrain, fullWidth := false, quietReq := false, nak := false, ackDue := false, unacked := (t.link l.val).unacked }
             else t.link l.val = { s.link l.val with nak := false, ackDue := false, unacked := (t.link l.val).unacked })
          ∧ s.sameLinksBut t l.val ∧ s.linkFrame t)
      ∧ (∀ (s : State) (l : Fin 2), (s.link l.val).flows = false ∨ (s.link l.val).unacked = [] → exec (.replayTimeout l) s = .next s.start))

/-- R67, R68: each retraining trigger takes a link that is UP or QUIET to RETRAIN, and loses nothing; on a link in another state, at a threshold of zero,
up to the threshold, or for a lane outside the group in use, it does not. R67: a write of TLK_CTL with RETRAIN retrains a link that is UP or QUIET,
and leaves the registers of every other block but FLT alone. R66: the quiet states. QUIET-ACK narrows an UP link that has asked to ×4 on its lowest
usable group, and its other lanes fall due to power down; FULL-REQ takes a QUIET link to RETRAIN at full width, and is an exit cause of DOZE. -/
def Obligations.LinksRetrainAndQuiet : Prop :=
  ((∀ (s : State) (l : Fin 2), s.mode ≠ .reset → (s.link l.val).flows = true → s.mute 0x022 = true →
        (∃ t, exec (.retrainReq l) s = .next t ∧ s.retrained t l.val ∧ s.linkFrame t ∧ t.outp = [])
        ∧ (∀ lane : Fin 16, (s.link l.val).width < 3 →
            lane.val / (if (s.link l.val).width = 0 then 16 else if (s.link l.val).width = 1 then 8 else 4) = (s.link l.val).group →
            ∃ t, exec (.laneLockLoss l lane) s = .next t ∧ s.retrained t l.val ∧ s.linkFrame t ∧ t.outp = [])
        ∧ (∀ n : BitVec 16, s.f Fld.tlkFecThresh_uncorr l.val ≠ 0 → s.f Fld.tlkFecThresh_uncorr l.val < n.toNat →
            ∃ t, exec (.uncorrThreshold l n) s = .next t ∧ s.retrained t l.val ∧ s.linkFrame t ∧ t.outp = []
              ∧ t.f Fld.tlkFecUncorr_count l.val = sat Fld.tlkFecUncorr_count (s.f Fld.tlkFecUncorr_count l.val + n.toNat))
        ∧ (∀ n : BitVec 16, s.f Fld.tlkFecThresh_uncorr l.val = 0 ∨ n.toNat ≤ s.f Fld.tlkFecThresh_uncorr l.val →
            ∃ t, exec (.uncorrThreshold l n) s = .next t ∧ s.onlyFields t [(Fld.tlkFecUncorr_count, l.val)]
              ∧ t.f Fld.tlkFecUncorr_count l.val = sat Fld.tlkFecUncorr_count (s.f Fld.tlkFecUncorr_count l.val + n.toNat)
              ∧ t = { s.start with regs := t.regs }))
      ∧ (∀ (s : State) (l : Fin 2) (lane : Fin 16) (n : BitVec 16), (s.link l.val).flows = false →
          exec (.retrainReq l) s = .next s.start ∧ exec (.laneLockLoss l lane) s = .next s.start ∧ exec (.uncorrThreshold l n) s = .next s.start))
  ∧ (∀ (s : State) (a : Acc) (l : Fin 2),
        s.goesWrite a .tlkCtl l.val ((s.shadowReg .tlkCtl l.val &&& 0x60) ||| 0x80) = true → (s.link l.val).flows = true → s.mute 0x022 = true →
        ∃ t, exec (.tlkRetrain a l) s = .next t ∧ (t.link l.val).st = .retrain ∧ (t.link l.val).rxNext = (s.link l.val).rxNext
          ∧ t.f Fld.tlkLinkCnt_retrains l.val = sat Fld.tlkLinkCnt_retrains (s.f Fld.tlkLinkCnt_retrains l.val + 1) ∧ s.counted t 0x022
          ∧ s.onlyBlocks t [.tlk, .flt]
          ∧ t = { s.asideFrom t with regs := t.regs, shadow := t.shadow, flt := t.flt })
  ∧ ((∀ (s : State) (l : Fin 2) (g : Nat), (s.link l.val).st = .up → (s.link l.val).quietReq = true → g < 4 →
          (∀ n < 4, (s.link l.val).laneOk.getLsbD (4 * g + n) = true) → (∀ k < g, ∃ n < 4, (s.link l.val).laneOk.getLsbD (4 * k + n) = false) →
        ∃ t, exec (.quietAck l) s = .next t ∧ t.link l.val = { s.link l.val with st := .quiet, width := 2, group := g, quietReq := false }
          ∧ s.sameLinksBut t l.val
          ∧ (∀ n < 16, n / 4 ≠ g → Part.tlane l.val n ∈ s.pwr.up → Part.tlane l.val n ∈ t.pwr.pd)
          ∧ (∀ p ∈ t.pwr.pd, p ∉ s.pwr.pd → ∃ n < 16, n / 4 ≠ g ∧ p = Part.tlane l.val n)
          ∧ t = { s.start with links := t.links, pwr := { s.pwr with pd := t.pwr.pd } })
      ∧ (∀ (s : State) (l : Fin 2), ¬((s.link l.val).st = .up ∧ (s.link l.val).quietReq = true) → exec (.quietAck l) s = .next s.start)
      ∧ (∀ (s : State) (l : Fin 2), (s.link l.val).st = .quiet → ¬(s.mode = .run ∧ s.phase = .entering) →
        ∃ t, exec (.fullReq l) s = .next t ∧ t.link l.val = { s.link l.val with st := .retrain, fullWidth := true, quietReq := false }
          ∧ s.sameLinksBut t l.val
          ∧ t.f Fld.tlkLinkCnt_retrains l.val = sat Fld.tlkLinkCnt_retrains (s.f Fld.tlkLinkCnt_retrains l.val + 1)
          ∧ (if s.mode = .doze ∧ s.phase = .steady then t.phase = .exiting ∧ t.f Fld.pwrModeStat_exit_cause = 7 else t.phase = s.phase)
          ∧ s.onlyRegs t [(.tlkLinkCnt, l.val), (.pwrModeStat, 0)]
          ∧ t = { s.start with links := t.links, regs := t.regs, phase := t.phase })
      ∧ (∀ (s : State) (l : Fin 2), (s.link l.val).st ≠ .quiet → exec (.fullReq l) s = .next s.start))

/-- R66: what successful training makes of a link. At a width that is enough the link is UP; from TRAIN the link layer starts anew, with its SEQ counters
zero and the partner's credits; from RETRAIN it goes on where it stood. The unacknowledged blocks are sent again in either case. R66, R59: a training
or retraining that fails, that finds no width that is enough, that meets a partner with a finite completion credit, or that lasts too long, is counted
and leaves the link DOWN with all that it holds; a DOWN link trains again when the retry interval expires, but not in HALT. R69: what a link that is
down holds goes to the other link when it may: no packet is lost, the bridge's own requests keep their tags there as far as R55 leaves room for them
(log entry 78), and the move is reported; where it may not move, the limit on a link that holds traffic is a fatal fault of the link, and the bridge
enters HALT. -/
def Obligations.LinkTrainingAndLoss : Prop :=
  (∀ (s : State) (l : Fin 2) (x : LinkTrain) (w g : Nat), s.mode ≠ .reset → s.dozing = false → s.entering = false → s.mute 0x023 = true →
        State.trainWidth x.lanes (s.f Fld.tlkCtl_min_width l.val) = some (w, g) → (s.link l.val).egress = [] →
        ((s.link l.val).st = .train → x.finiteCpl = false →
          ∃ t, exec (.linkTrainingSuccess l x) s = .next t
            ∧ t.link l.val = { s.link l.val with
                st := .up, width := w, group := g, laneOk := x.lanes, reversed := x.reversed, fullWidth := false, moved := false
                unacked := State.renumber 0 (s.link l.val).unacked, txSeq := (s.link l.val).unacked.length % 4096, rxNext := 0, nak := false
                ackDue := false, rxPart := [], rxSkip := true, credRet := [], txCred := (t.link l.val).txCred }
            ∧ (∀ i < 16, FMap.get 0 i (t.link l.val).txCred = x.credits.getD i 0)
            ∧ t.outp = (State.renumber 0 (s.link l.val).unacked).map (fun b => .block l.val (blockBytes (blockBody b.seq 0 4095 false b.fpo (0, 0) b.stream)))
            ∧ s.sameLinksBut t l.val ∧ (w = 0 → t.regs = s.regs)
            ∧ (w ≠ 0 → t.f Fld.tlkLinkCnt_degrades l.val = sat Fld.tlkLinkCnt_degrades (s.f Fld.tlkLinkCnt_degrades l.val + 1) ∧ s.counted t 0x023)
            ∧ s.onlyBlocks t [.tlk, .flt]
            ∧ t = { s.start with links := t.links, regs := t.regs, flt := t.flt, outp := t.outp, img := { s.img with seeds := t.img.seeds }
                                 freeCount := t.freeCount, freeNext := t.freeNext })
        ∧ ((s.link l.val).st = .retrain →
          ∃ t, exec (.linkTrainingSuccess l x) s = .next t
            ∧ t.link l.val = { s.link l.val with
                st := .up, width := w, group := g, laneOk := x.lanes, reversed := x.reversed, fullWidth := false, moved := false
                unacked := (s.link l.val).unacked.map fun b => { b with resent := 0 }
                nak := (s.link l.val).nak && (s.link l.val).unacked.isEmpty, ackDue := (s.link l.val).ackDue && (s.link l.val).unacked.isEmpty }
            ∧ t.outp = s.resentAll l.val (s.link l.val).unacked ∧ s.sameLinksBut t l.val ∧ s.onlyBlocks t [.tlk, .flt]
            ∧ t = { s.start with links := t.links, regs := t.regs, flt := t.flt, outp := t.outp, img := { s.img with seeds := t.img.seeds }
                                 freeCount := t.freeCount, freeNext := t.freeNext }))
  ∧ ((∀ (s : State) (l : Fin 2) (lanes : BitVec 16), (s.link l.val).st = .train ∨ (s.link l.val).st = .retrain →
        (∃ t, exec (.linkTrainingFail l lanes) s = .next t ∧ s.sameLinksBut t l.val ∧ t = { s.start with links := t.links }
          ∧ t.link l.val = { s.link l.val with st := .down, width := 3, group := 0, laneOk := lanes, fails := (s.link l.val).fails + 1 })
        ∧ (∃ t, exec (.linkTrainTimeout l) s = .next t ∧ s.sameLinksBut t l.val ∧ t = { s.start with links := t.links }
          ∧ t.link l.val = { s.link l.val with st := .down, width := 3, group := 0, fails := (s.link l.val).fails + 1 })
        ∧ (∀ x : LinkTrain, State.trainWidth x.lanes (s.f Fld.tlkCtl_min_width l.val) = none ∨ (s.link l.val).st = .train ∧ x.finiteCpl = true →
          ∃ t, exec (.linkTrainingSuccess l x) s = .next t ∧ s.sameLinksBut t l.val ∧ t = { s.start with links := t.links }
            ∧ t.link l.val = { s.link l.val with st := .down, width := 3, group := 0, laneOk := x.lanes, fails := (s.link l.val).fails + 1 }))
      ∧ (∀ (s : State) (l : Fin 2) (lanes : BitVec 16) (x : LinkTrain), (s.link l.val).st ≠ .train → (s.link l.val).st ≠ .retrain →
          exec (.linkTrainingFail l lanes) s = .next s.start ∧ exec (.linkTrainTimeout l) s = .next s.start
          ∧ exec (.linkTrainingSuccess l x) s = .next s.start)
      ∧ (∀ (s : State) (l : Fin 2), s.linksOn = true → (s.link l.val).st = .down →
        ∃ t, exec (.linkRetryInterval l) s = .next t ∧ t.link l.val = { s.link l.val with st := .train } ∧ s.sameLinksBut t l.val
          ∧ t = { s.start with links := t.links })
      ∧ (∀ (s : State) (l : Fin 2), s.mode = .halt → exec (.linkRetryInterval l) s = .next s.start))
  ∧ ((∀ (s : State) (l : Fin 2), s.canMove l.val = true → s.mute 0x024 = true →
        ∃ t, exec (.failover l) s = .next t
          ∧ (t.link l.val).moved = true ∧ (t.link l.val).unacked = [] ∧ (t.link l.val).quar = []
          ∧ (t.link l.val).outst = (s.link l.val).outst.drop (4096 - (s.link (1 - l.val)).outst.length)
          ∧ (t.link (1 - l.val)).outst = (s.link (1 - l.val)).outst ++ (s.link l.val).outst.take (4096 - (s.link (1 - l.val)).outst.length)
          ∧ (t.link (1 - l.val)).quar = (s.link (1 - l.val)).quar ++ (s.link l.val).quar
          ∧ (∀ p ∈ State.heldPkts (s.link l.val),
              (if State.inReqs (t.link l.val).outst p then p ∈ (t.link l.val).egress
               else p ∈ (t.link (1 - l.val)).egress
                 ∨ ∀ c ∈ chunk244 32 (packetBytes p.pkt), ∃ b ∈ (t.link (1 - l.val)).unacked, b.stream = c))
          ∧ ((s.link l.val).outst.length + (s.link (1 - l.val)).outst.length ≤ 4096 →
              (s.link l.val).outst ≠ [] ∨ State.heldPkts (s.link l.val) ≠ [] → s.counted t 0x024) ∧ s.linkFrame t)
      ∧ (∀ (s : State) (l : Fin 2), s.canMove l.val = false → exec (.failover l) s = .next s.start)
      ∧ (∀ (s : State) (l : Fin 2), s.works = true → s.holdsTraffic l.val = true → s.canMove l.val = false → (s.link l.val).moved = false →
          s.fb Fld.fltHalt_valid = false →
        ∃ t, exec (.downLimit l) s = .next t ∧ t.mode = .halt ∧ t.f Fld.fltHalt_valid = 1 ∧ t.f Fld.fltHalt_src = 0x026
          ∧ t.jnl = s.jnl ∧ t.ops = s.ops ∧ t.ctxs = s.ctxs)
      ∧ (∀ (s : State) (l : Fin 2), s.holdsTraffic l.val = false ∨ s.canMove l.val = true → exec (.downLimit l) s = .next s.start))

/-- R46, R51, R52: a request whose enables, length or addresses break R46 is malformed, and one that no window takes is unmapped: where it is not posted
it completes with UR, and a posted one ends without an answer; a malformed one is counted and reported. R52, R18: a request whose address lies in the
BCS is an access to the control space: a read answers in one CPLD with the bytes, and a write of a register that only stores takes effect as R29 says. -/
def Obligations.RequestsRefusedOrToTheBcs : Prop :=
  ((∀ (s : State) (l : Fin 2) (h : ReqHdr) (bytes : List Byte), s.mode ≠ .reset → (s.link l.val).flows = true → reqOk h = false →
          s.mute 0x020 = true →
        (∃ t, exec (.mrd l h) s = .next t ∧ .packet (s.route l.val) (s.cplPkt h 1 []) ∈ t.outp ∧ s.linkFrame t
          ∧ t.f Fld.tlkRxErr_malformed l.val = sat Fld.tlkRxErr_malformed (s.f Fld.tlkRxErr_malformed l.val + 1) ∧ s.counted t 0x020)
        ∧ (∃ t, exec (.mwr l h bytes) s = .next t ∧ (h.np = true → .packet (s.route l.val) (s.cplPkt h 1 []) ∈ t.outp)
          ∧ (h.np = false → t.outp = []) ∧ s.linkFrame t
          ∧ t.f Fld.tlkRxErr_malformed l.val = sat Fld.tlkRxErr_malformed (s.f Fld.tlkRxErr_malformed l.val + 1) ∧ s.counted t 0x020))
      ∧ (∀ (s : State) (l : Fin 2) (h : ReqHdr) (bytes : List Byte), s.works = true → s.asleep = false → (s.link l.val).flows = true →
          reqOk h = true → s.inBcs h = false → s.outWindow (reqFirst h) = none →
        (∃ t, exec (.mrd l h) s = .next t ∧ .packet (s.route l.val) (s.cplPkt h 1 []) ∈ t.outp
          ∧ t = { s.start with links := t.links, outp := t.outp })
        ∧ (h.poison = false → ∃ t, exec (.mwr l h bytes) s = .next t ∧ (h.np = true → .packet (s.route l.val) (s.cplPkt h 1 []) ∈ t.outp)
          ∧ (h.np = false → t.outp = []) ∧ t = { s.start with links := t.links, outp := t.outp })))
  ∧ ((∀ (s : State) (l : Fin 2) (h : ReqHdr) (id : RegId) (i : Nat), reqOk h = true → s.inBcs h = true →
          targetAt (reqAccess l.val h false []).off = .reg id i → regOff id i = (reqAccess l.val h false []).off →
          (reqAccess l.val h false []).en = List.replicate 4 true → id.row.half = .none → id.row.rc = 0 →
          slowBlock id.row.block = false → s.goes (reqAccess l.val h false []) = true →
        ∃ t, exec (.mrd l h) s = .next t
          ∧ .packet (s.route l.val) (s.bcsCpl (reqAccess l.val h false [])
              (.done (wordBytes (((s.start.takeIn l.val (.mrd h)).giveCredits l.val (.mrd h)).peek id i).1))) ∈ t.outp
          ∧ t.regs = s.regs ∧ t.shadow = s.shadow ∧ t.jnl = s.jnl ∧ t.ops = s.ops)
      ∧ (∀ (s : State) (l : Fin 2) (h : ReqHdr) (bytes : List Byte) (a : Acc) (id : RegId) (i : Nat) (v : Word), reqOk h = true → h.poison = false →
          s.inBcs h = true → reqAccess l.val h true bytes = wordWrite a (regOff id i) v → targetAt (regOff id i) = .reg id i → plainReg id = true →
          id.row.block ≠ .upd → s.reaches a id i = true → s.lockMask id i = 0 → s.goesWrite a id i v = true →
        ∃ t, exec (.mwr l h bytes) s = .next t
          ∧ t.reg id i = blend id.row.rw v (s.reg id i) ∧ t.shadowReg id i = blend id.row.rws v (s.shadowReg id i)
          ∧ (h.np = true → slowBlock id.row.block = false → .packet (s.route l.val) (s.cplPkt (accHdr a) 0 []) ∈ t.outp)
          ∧ s.onlyRegs t [(id, i)] ∧ t = { s.asideFrom t with regs := t.regs, shadow := t.shadow }))

/-- R109, R170, R202, R208: a request in a window is admitted where nothing holds it back: it takes a free Journal entry and its grains, every field of
the entry is set, and its credits are returned. R202, R208, R211, R60: a request that waited in the receive buffer is admitted when nothing holds it
back any more: an ordinary one within its instance's quota, or one that needs more than the whole quota and takes the oversize reserve. Its credits
are then returned. R192, R193: a C0 transfer that was held is charged when both buckets hold its flits: the tokens leave the bucket of its instance
and that of its port, the transfer is formed, and its operation goes on. -/
def Obligations.RequestAdmission : Prop :=
  (∀ (s : State) (l : Fin 2) (h : ReqHdr) (bytes : List Byte) (w : Window) (dv : Device) (je : Nat) (hold : Hold),
        (s.link l.val).flows = true →
        (s.admissible l.val (s.link l.val).held (s.oversizeFirst s.jnl.serial) h false w dv je hold →
          ∃ t, exec (.mrd l h) s = .next t ∧ s.admitted t l.val je h false w hold ∧ s.took t l.val (.mrd h))
        ∧ (s.admissible l.val (s.link l.val).held (s.oversizeFirst s.jnl.serial) h true w dv je hold →
          ∃ t, exec (.mwr l h bytes) s = .next t ∧ s.admitted t l.val je h true w hold ∧ s.took t l.val (.mwr h bytes)))
  ∧ (∀ (s : State) (l : Fin 2) (h : ReqHdr) (st : Nat) (f : OutFound) (rest : List HeldReq) (w : Window) (dv : Device) (je : Nat) (hold : Hold),
        (s.link l.val).held = { stamp := st, pkt := .mrd h, found := f } :: rest → f = .ok w dv →
        s.admissible l.val [] (s.oversizeFirst st) h false w dv je hold →
        (grainsOf (8 * granulesOf h.len.toNat) ≤ (s.inst w.owner).lquota →
          ∃ t, exec (.deferredAdmission l) s = .next t ∧ s.admitted t l.val je h false w hold
            ∧ t.link l.val = { s.link l.val with
                held := (s.link l.val).held.filter (fun x => x.stamp != st)
                credRet := (s.link l.val).credRet ++ packetReturns (.mrd h) }
            ∧ s.sameLinksBut t l.val)
        ∧ ((s.inst w.owner).lquota < grainsOf (8 * granulesOf h.len.toNat) →
          ∃ t, exec (.oversizeAdmission l) s = .next t ∧ s.admitted t l.val je h false w hold ∧ hold.ovs = grainsOf (8 * granulesOf h.len.toNat)
            ∧ t.link l.val = { s.link l.val with
                held := (s.link l.val).held.filter (fun x => x.stamp != st)
                credRet := (s.link l.val).credRet ++ packetReturns (.mrd h) }
            ∧ s.sameLinksBut t l.val))
  ∧ (∀ (s : State) (i : Fin 256) (x : C0Held) (je : Nat) (o : Op), s.works = true → s.hub.held.filter (fun h => h.inst == i.val) = [x] →
        x.act = .piece je → s.op? je = some o → (s.entry je).kind < 5 → 65536 * State.c0Cost x.bytes ≤ (s.inst i.val).c0tokens →
        256 * State.c0Cost x.bytes ≤ s.portTokens x.port →
        ∃ t, exec (.c0HeldRelease i) s = .next t
          ∧ (t.inst i.val).c0tokens + 65536 * State.c0Cost x.bytes = (s.inst i.val).c0tokens
          ∧ FMap.get 0 x.port t.hub.used = FMap.get 0 x.port s.hub.used + 256 * State.c0Cost x.bytes
          ∧ t.hub.held = s.hub.held.erase x ∧ t.op? je = some { o with c0wait := false }
          ∧ (∃ y : Xfer, t.hub.xfers = s.hub.xfers ++ [y] ∧ y.inp = x.inp ∧ y.out = x.port ∧ y.sub = x.sub ∧ y.own = x.own
              ∧ y.len = flitsOf x.bytes ∧ y.sent = 0 ∧ (y.cls = 0 ↔ flitsOf x.bytes ≤ 5 ∧ x.port ≠ hubJournal))
          ∧ (∀ j, j ≠ je → t.op? j = s.op? j) ∧ (∀ j, j ≠ i.val → t.inst j = s.inst j)
          ∧ t = { s.start with
              insts := t.insts, ops := t.ops, hub := { s.hub with used := t.hub.used, held := t.hub.held, xfers := t.hub.xfers } })

/-- R56, Table 3.8: what completions do to the bridge's requests. A CPL with an error ends a read at once; a CPLD piece is kept until every granule has
come, and then the context that asked has the bytes, each at its offset; a poisoned piece ends it with PS; what answers no request is late, in HALT
too. R57: a request whose completion does not finish in time ends with TO; its tag is held back until the quarantine ends, and source 0x025 is raised.
The timer does not run while the link is in RETRAIN. -/
def Obligations.CompletionsAndTimeouts : Prop :=
  ((∀ (s : State) (l : Fin 2) (h : CplHdr) (bytes : List Byte), s.mode ≠ .reset → (s.link l.val).flows = true →
        (s.outReq l.val h = none → s.mute 0x020 = true →
          (∃ t, exec (.cpl l h bytes) s = .next t ∧ t.f Fld.tlkRxErr_late_cpl l.val = sat Fld.tlkRxErr_late_cpl (s.f Fld.tlkRxErr_late_cpl l.val + 1)
            ∧ s.counted t 0x020 ∧ t.outp = [] ∧ s.linkFrame t)
          ∧ (∃ t, exec (.cpld l h bytes) s = .next t ∧ t.f Fld.tlkRxErr_late_cpl l.val = sat Fld.tlkRxErr_late_cpl (s.f Fld.tlkRxErr_late_cpl l.val + 1)
            ∧ s.counted t 0x020 ∧ t.outp = [] ∧ s.linkFrame t))
        ∧ (∀ (r : OutReq) (k : Nat) (c : Ctx), s.works = true → s.outReq l.val h = some r → s.asked r k c = true →
          (∀ st ∈ ([1, 2, 4, 5] : List Nat), h.status.toNat = st →
            ∃ t, exec (.cpl l h bytes) s = .next t ∧ t.ctx? k = some { c with got := some (st, []) }
              ∧ t.link l.val = { s.link l.val with ingress := (s.link l.val).ingress.erase (.cpl h bytes)
                                                   outst := (s.link l.val).outst.filter fun x => x.tag != r.tag }
              ∧ s.sameLinksBut t l.val ∧ (∀ j, j ≠ k → t.ctx? j = s.ctx? j) ∧ t = { s.start with links := t.links, ctxs := t.ctxs })
          ∧ (pieceFits r h.offset.toNat (granulesOf h.len.toNat) = true → h.status = 0 →
            (h.poison = true →
              ∃ t, exec (.cpld l h bytes) s = .next t ∧ t.ctx? k = some { c with got := some (5, []) }
                ∧ t = { s.start with links := t.links, ctxs := t.ctxs })
            ∧ (h.poison = false → gotGranules r + granulesOf h.len.toNat = r.granules →
              ∃ t, exec (.cpld l h bytes) s = .next t
                ∧ t.ctx? k = some { c with got := some (0, placeParts (8 * r.granules)
                    ((r.got ++ [(h.offset.toNat, slice 0 (8 * granulesOf h.len.toNat) bytes)]).map fun p => (8 * p.1, p.2))) }
                ∧ t.link l.val = { s.link l.val with ingress := (s.link l.val).ingress.erase (.cpld h bytes)
                                                     outst := (s.link l.val).outst.filter fun x => x.tag != r.tag }
                ∧ s.sameLinksBut t l.val ∧ (∀ j, j ≠ k → t.ctx? j = s.ctx? j) ∧ s.sameHubBut t
                ∧ t = { s.start with links := t.links, ctxs := t.ctxs, hub := t.hub })
            ∧ (h.poison = false → gotGranules r + granulesOf h.len.toNat ≠ r.granules →
              ∃ t, exec (.cpld l h bytes) s = .next t
                ∧ (t.link l.val).outst = (s.link l.val).outst.map (fun x => if x.tag = r.tag then
                    { r with got := r.got ++ [(h.offset.toNat, slice 0 (8 * granulesOf h.len.toNat) bytes)] } else x)
                ∧ s.sameLinksBut t l.val ∧ t = { s.start with links := t.links }))))
      ∧ (∀ (s : State) (l : Fin 2) (h : CplHdr) (bytes : List Byte), (s.link l.val).flows = false →
          exec (.cpl l h bytes) s = .next s.start ∧ exec (.cpld l h bytes) s = .next s.start))
  ∧ ((∀ (s : State) (l : Fin 2) (tag : BitVec 16) (r : OutReq) (k : Nat) (c : Ctx), s.works = true → (s.link l.val).st ≠ .retrain →
          (s.link l.val).outst.find? (fun r => r.tag == tag.toNat) = some r → s.asked r k c = true →
          s.fb Fld.fltEvDest_en = false → (∀ i, s.evOn i 6 = false) →
        ∃ t, exec (.cplTimeout l tag) s = .next t ∧ t.ctx? k = some { c with got := some (4, []) }
          ∧ t.link l.val = { s.link l.val with outst := (s.link l.val).outst.filter (fun x => x.tag != r.tag), quar := (s.link l.val).quar ++ [r.tag] }
          ∧ s.sameLinksBut t l.val ∧ (∀ j, j ≠ k → t.ctx? j = s.ctx? j) ∧ s.counted t 0x025
          ∧ t.f Fld.fltCntUc_count = sat Fld.fltCntUc_count (s.f Fld.fltCntUc_count + 1) ∧ s.onlyBlocks t [.flt]
          ∧ t = { s.start with links := t.links, ctxs := t.ctxs, regs := t.regs, flt := t.flt })
      ∧ (∀ (s : State) (l : Fin 2) (tag : BitVec 16), (s.link l.val).st = .retrain → exec (.cplTimeout l tag) s = .next s.start)
      ∧ (∀ (s : State) (l : Fin 2) (tag : BitVec 16), ∃ t, exec (.tagQuarantineEnd l tag) s = .next t
          ∧ t.link l.val = { s.link l.val with quar := (s.link l.val).quar.erase tag.toNat } ∧ s.sameLinksBut t l.val
          ∧ t = { s.start with links := t.links }))

/-- R64, R65, R51: messages. WAKE with P begins DOZE exit; the first PLACE with P sets the base and the bridge ID in every mode, one that repeats them
changes nothing, and one that differs is recorded as a violation; a message that the bridge does not take is counted and reported. -/
def Obligations.MessagesReceived : Prop :=
  ∀ (s : State) (l : Fin 2) (h : MsgHdr) (body : List Byte), s.mode ≠ .reset → (s.link l.val).flows = true → h.len.toNat ≤ 8 →
    (h.priv = true → h.code = 2 → s.mode = .doze → s.phase = .steady →
      ∃ t, exec (.wakeMsg l h body) s = .next t ∧ t.phase = .exiting ∧ t.f Fld.pwrModeStat_exit_cause = 4 ∧ s.took t l.val (.msg h body)
        ∧ s.onlyRegs t [(.pwrModeStat, 0)] ∧ t = { s.start with links := t.links, regs := t.regs, phase := .exiting })
    ∧ (h.priv = true → h.code = 2 → s.mode ≠ .doze → ¬(s.mode = .run ∧ s.phase = .entering) →
      ∃ t, exec (.wakeMsg l h body) s = .next t ∧ s.took t l.val (.msg h body) ∧ t = { s.start with links := t.links })
    ∧ (h.priv = true → h.code = 3 → s.fb Fld.tlkBcsBaseLo_placed = false →
      ∃ t, exec (.place l h body) s = .next t ∧ t.fb Fld.tlkBcsBaseLo_placed = true ∧ t.f Fld.tlkBcsBaseLo_base_lo = bits 31 26 (fieldAt 0 8 body)
        ∧ t.f Fld.tlkBcsBaseHi_base_hi = bits 55 32 (fieldAt 0 8 body) ∧ t.f Fld.tlkBridgeId_id = h.arg.toNat % 2 ^ 20
        ∧ s.took t l.val (.msg h body) ∧ s.onlyRegs t [(.tlkBcsBaseLo, 0), (.tlkBcsBaseHi, 0), (.tlkBridgeId, 0)]
        ∧ t = { s.start with links := t.links, regs := t.regs })
    ∧ (h.priv = true → h.code = 3 → s.fb Fld.tlkBcsBaseLo_placed = true →
        s.f Fld.tlkBcsBaseLo_base_lo = bits 31 26 (fieldAt 0 8 body) → s.f Fld.tlkBcsBaseHi_base_hi = bits 55 32 (fieldAt 0 8 body) →
        s.f Fld.tlkBridgeId_id = h.arg.toNat % 2 ^ 20 →
      ∃ t, exec (.place l h body) s = .next t ∧ s.took t l.val (.msg h body) ∧ t = { s.start with links := t.links })
    ∧ (h.priv = true → h.code = 3 → s.fb Fld.tlkBcsBaseLo_placed = true → s.f Fld.tlkBridgeId_id ≠ h.arg.toNat % 2 ^ 20 → s.mute 0x020 = true →
      ∃ t, exec (.place l h body) s = .next t ∧ s.took t l.val (.msg h body)
        ∧ t.f Fld.updLockStatus_reglock_viol = 1 ∧ t.f Fld.updLockAddr_offset = regOff .tlkBcsBaseLo 0
        ∧ t.f Fld.updLockStatus_viol_cnt = sat Fld.updLockStatus_viol_cnt (s.f Fld.updLockStatus_viol_cnt + 1)
        ∧ t.f Fld.tlkRxErr_bad_msg l.val = sat Fld.tlkRxErr_bad_msg (s.f Fld.tlkRxErr_bad_msg l.val + 1) ∧ s.counted t 0x020
        ∧ t.reg .tlkBcsBaseLo = s.reg .tlkBcsBaseLo ∧ t.reg .tlkBcsBaseHi = s.reg .tlkBcsBaseHi ∧ t.reg .tlkBridgeId = s.reg .tlkBridgeId
        ∧ s.onlyBlocks t [.tlk, .flt, .upd] ∧ t = { s.start with links := t.links, regs := t.regs, flt := t.flt })
    ∧ (h.priv = false ∨ h.code ≠ 2 ∧ h.code ≠ 3 → s.mute 0x020 = true →
      ∃ t, exec (.badMsg l h body) s = .next t ∧ s.took t l.val (.msg h body)
        ∧ t.f Fld.tlkRxErr_bad_msg l.val = sat Fld.tlkRxErr_bad_msg (s.f Fld.tlkRxErr_bad_msg l.val + 1) ∧ s.counted t 0x020
        ∧ t.outp = [] ∧ s.linkFrame t)

/-- R83 to R85, R88 event a: the oldest exchange queued at a device address opens where it may: POLL, ACK-ATTN, RD, or WR with its data goes out, the
address is in CMD, and an operation's entry is ISSUED from its first piece on. An exchange that may not open waits. R83, R88, R118, R87, R77: what
frames of a device do to the open channel-side exchange. DATA waits for the STATUS; the closing STATUS of the last piece ends a direct read with its
data, or with DE and the record where it tells of an error; RETRY puts the exchange back into the queue until its hint has passed; a frame with a bad
CRC is counted. -/
def Obligations.ExchangesOpenAndAnswers : Prop :=
  ((∀ (s : State) (p : Fin 144) (d : Fin 2048) (x : XReq), s.opensNow p.val d.val x →
        (x.kind = .poll → ∃ t, exec (.exchangeOpen p d) s = .next t ∧ s.opened t p.val d.val { req := x } ∧ t.dn x.dn = { s.dn x.dn with poll := .out }
          ∧ t.outp = [.frame p.val 0 (sealFrame (baseFrame 5 d.val))] ∧ (∀ n, n ≠ x.dn → t.dn n = s.dn n)
          ∧ t = { s.start with daddrs := t.daddrs, ports := t.ports, dns := t.dns, outp := t.outp })
        ∧ (x.kind = .ack → ∃ t, exec (.exchangeOpen p d) s = .next t ∧ s.opened t p.val d.val { req := x }
          ∧ t.outp = [.frame p.val 0 (sealFrame (baseFrame 0xA d.val))]
          ∧ (x.je = none → t = { s.start with daddrs := t.daddrs, ports := t.ports, outp := t.outp })
          ∧ (x.je ≠ none → (∀ j ∈ s.ackers x.serial, (s.entry j).st = .admitted → (t.entry j).st = .issued)
              ∧ (∀ j, j ∉ s.ackers x.serial → t.entry j = s.entry j)
              ∧ t = { s.start with daddrs := t.daddrs, ports := t.ports, outp := t.outp, jnl := t.jnl, hub := t.hub }))
        ∧ (∀ (je a e : Nat) (o : Op), x.je = some je → s.op? je = some o → o.cur = some (a, e) → State.pieceReady o a e = true →
            (s.entry je).st = .admitted → s.pieceMay je o a e →
          (x.kind = .rd → o.wr = false →
            s.judge p.val o.ident (d.val * 2 ^ 32 + a) (d.val * 2 ^ 32 + e) true false = .ok →
            ∃ t, exec (.exchangeOpen p d) s = .next t ∧ s.opened t p.val d.val { req := x, pieceA := a, pieceE := e }
              ∧ t.outp = [.frame p.val 0 (sealFrame (s.burst 2 je o a e))] ∧ s.pieceOpens t je o
              ∧ t = { s.start with daddrs := t.daddrs, ports := t.ports, jnl := t.jnl, ops := t.ops, hub := t.hub, outp := t.outp })
          ∧ (x.kind = .wr → o.wr = true →
            s.judge p.val o.ident (d.val * 2 ^ 32 + a) (d.val * 2 ^ 32 + e) false true = .ok →
            ∃ t, exec (.exchangeOpen p d) s = .next t ∧ s.opened t p.val d.val { req := x, pieceA := a, pieceE := e }
              ∧ t.outp = [.frame p.val 0 (sealFrame (s.burst 1 je o a e)),
                  .frame p.val 0 (sealFrame (State.burstData (s.burst 1 je o a e) a e (State.pieceData o a e)))]
              ∧ s.pieceOpens t je o
              ∧ t = { s.start with daddrs := t.daddrs, ports := t.ports, jnl := t.jnl, ops := t.ops, hub := t.hub, outp := t.outp })))
      ∧ (∀ (s : State) (p : Fin 144) (d : Fin 2048), (∀ y ∈ (s.port p.val).queue, ¬ s.opensNow p.val d.val y.2) →
          exec (.exchangeOpen p d) s = .next s.start))
  ∧ ((∀ (s : State) (p : Fin 144) (f : Frame) (x : XOpen), s.portRecv p.val = true → s.crcOk f = true →
          (s.daddr p.val f.daddr.toNat).st = .cmd → (s.daddr p.val f.daddr.toNat).opened = some x → x.req.kind = .rd → x.gotData = none →
          dataOk (pieceWords x.pieceA x.pieceE) (pieceFbe x.pieceA x.pieceE) (pieceLbe x.pieceA x.pieceE) f = true →
        ∃ t, exec (.data p f) s = .next t
          ∧ t.daddr p.val f.daddr.toNat = { s.daddr p.val f.daddr.toNat with opened := some { x with gotData := some f.payload } }
          ∧ s.sameDaddrsBut t p.val f.daddr.toNat ∧ t = { s.start with daddrs := t.daddrs })
      ∧ (∀ (s : State) (p : Fin 144) (f : Frame), s.portRecv p.val = true → frameGood f = false → s.exOn 10 = false → s.mute 0x041 = true →
          (s.daddr p.val f.daddr.toNat).st = .idle →
        ∃ t, exec (.data p f) s = .next t ∧ exec (.status p f) s = .next t ∧ exec (.retry p f) s = .next t
          ∧ t.f Fld.gptErrCnt_crc_err p.val = sat Fld.gptErrCnt_crc_err (s.f Fld.gptErrCnt_crc_err p.val + 1) ∧ s.counted t 0x041
          ∧ s.onlyBlocks t [.gpt, .flt] ∧ t = { s.start with regs := t.regs, flt := t.flt })
      ∧ (∀ (s : State) (p : Fin 144) (f : Frame) (x : XOpen) (je : Nat) (o : Op) (h : ReqHdr), s.portRecv p.val = true → s.crcOk f = true →
          (s.daddr p.val f.daddr.toNat).st = .cmd → (s.daddr p.val f.daddr.toNat).opened = some x → (s.daddr p.val f.daddr.toNat).losses < 4 →
          x.req.kind = .rd → x.req.je = some je → f.payload.length = 32 → s.lastPiece je o h → o.wr = false →
        (∀ dt, x.gotData = some dt → bit 15 (fieldAt 0 2 f.payload) = false →
          ∃ t, exec (.status p f) s = .next t
            ∧ .packet (s.route (s.entry je).link) (.cpld (s.cplHdr h 0 h.len.toNat) (swapBytes o.cut.u (placeParts o.cut.n
                (o.parts ++ [(x.pieceA - o.cut.base, (dt.drop (x.pieceA % 4)).take (x.pieceE + 1 - x.pieceA))])))) ∈ t.outp
            ∧ (t.entry je).st = .completed ∧ (t.entry je).progress = (s.entry je).progress + (x.pieceE + 1 - x.pieceA) ∧ t.op? je = none
            ∧ (t.daddr p.val f.daddr.toNat).st = .idle ∧ s.sameDaddrsBut t p.val f.daddr.toNat ∧ s.sameOpsBut t je ∧ t.regs = s.regs)
        ∧ (bit 15 (fieldAt 0 2 f.payload) = true →
          ∃ t, exec (.status p f) s = .next t ∧ .packet (s.route (s.entry je).link) (.cpl (s.cplHdr h 3 4) f.payload) ∈ t.outp
            ∧ (t.entry je).st = .completed ∧ (t.entry je).err = 3 ∧ t.op? je = none
            ∧ (t.daddr p.val f.daddr.toNat).st = .idle ∧ s.sameDaddrsBut t p.val f.daddr.toNat ∧ s.sameOpsBut t je ∧ t.regs = s.regs))
      ∧ (∀ (s : State) (p : Fin 144) (f : Frame) (x : XOpen) (je : Nat), s.portRecv p.val = true → s.crcOk f = true →
          (s.daddr p.val f.daddr.toNat).st = .cmd → (s.daddr p.val f.daddr.toNat).opened = some x → (s.daddr p.val f.daddr.toNat).lock = .none →
          (s.daddr p.val f.daddr.toNat).squashWait = false → (s.daddr p.val f.daddr.toNat).losses < 4 → x.req.kind = .rd ∨ x.req.kind = .wr →
          x.req.je = some je → x.req.refusals + 1 < s.f Fld.gptRetryCtl_retry_limit p.val →
        ∃ t, exec (.retry p f) s = .next t
          ∧ t.f Fld.gptRetryCnt_retry_rx p.val = sat Fld.gptRetryCnt_retry_rx (s.f Fld.gptRetryCnt_retry_rx p.val + 1)
          ∧ (t.entry je).retry = min ((s.entry je).retry + 1) 255
          ∧ t.daddr p.val f.daddr.toNat = { s.daddr p.val f.daddr.toNat with st := .idle, opened := none, up := none, swallow := none }
          ∧ (t.port p.val).queue = insertReq f.daddr.toNat
              { x.req with refusals := x.req.refusals + 1, notBefore := s.ts + hintTicks f.arg.toNat } (s.port p.val).queue
          ∧ s.sameDaddrsBut t p.val f.daddr.toNat ∧ s.samePortsBut t p.val ∧ (∀ j, j ≠ je → t.entry j = s.entry j)
          ∧ s.onlyFields t [(Fld.gptRetryCnt_retry_rx, p.val)]
          ∧ t = { s.start with daddrs := t.daddrs, ports := t.ports, jnl := t.jnl, hub := t.hub, regs := t.regs }))

/-- R95, R96, R111, R112: device-initiated exchanges. An UP frame that a window takes is admitted; an UP-RD issues its MRD with the enabled bytes swapped;
one for which there is no buffer is refused with RETRY before its translation; one that no window takes ends with REASON 0x06 (for an UP-WR after its
data); one that meets an open exchange is refused with RETRY. R95, R112, R116, R172, R217: the data of a direct UP-WR through a posted window goes out
as one MWR, each byte at its swapped place, and its closing STATUS waits at egress; once the last byte of a closing STATUS is sent, the device address
is free and a completed entry is FREE. -/
def Obligations.DeviceInitiatedExchanges : Prop :=
  ((∀ (s : State) (p : Fin 144) (f : Frame) (n : Nat) (w : Window) (je : Nat) (hold : Hold),
        (s.upAdmissible p.val f true n w je hold →
          ∃ t, exec (.upWr p f) s = .next t ∧ t.entry je = s.upEntry p.val f true n w
            ∧ (∃ o, t.op? je = some o ∧ o.hold = hold ∧ o.hdr = some (s.upHdr w (State.upSpec f (swapUnit w.swap))) ∧ o.np = w.np)
            ∧ t.daddr p.val f.daddr.toNat = { s.daddr p.val f.daddr.toNat with
                st := .up, up := some { je := some je, frame := f }, losses := 0, lossSerial := 0, upRefused := false }
            ∧ s.sameDaddrsBut t p.val f.daddr.toNat ∧ s.sameOpsBut t je ∧ t.outp = [] ∧ t.links = s.links ∧ t.ports = s.ports
            ∧ s.onlyBlocks t [.jnl, .hub])
        ∧ (s.upAdmissible p.val f false n w je hold →
            s.judge (gTlink (s.instLink w.owner)) (legacyIdent p.val f.daddr.toNat) (reqFirst (s.upHdr w (State.upSpec f (swapUnit w.swap))))
              (State.upLast (s.upHdr w (State.upSpec f (swapUnit w.swap))) (State.upSpec f (swapUnit w.swap)).n) true false = .ok →
            (s.link (s.route (s.instLink w.owner))).moved = false →
          ∃ t tag, exec (.upRd p f) s = .next t ∧ t.entry je = { s.upEntry p.val f false n w with st := .issued }
            ∧ .packet (s.route (s.instLink w.owner)) (.mrd { s.upHdr w (State.upSpec f (swapUnit w.swap)) with np := false, tag := tag }) ∈ t.outp
            ∧ (∃ r ∈ (t.link (s.route (s.instLink w.owner))).outst, r.tag = tag.toNat ∧ r.purpose = .upRd je)
            ∧ t.daddr p.val f.daddr.toNat = { s.daddr p.val f.daddr.toNat with
                st := .up, up := some { je := some je, frame := f }, losses := 0, lossSerial := 0, upRefused := false }
            ∧ s.sameDaddrsBut t p.val f.daddr.toNat ∧ s.sameOpsBut t je ∧ t.ports = s.ports ∧ s.onlyBlocks t [.jnl, .hub]))
      ∧ (∀ (s : State) (p : Fin 144) (f : Frame), s.portRecv p.val = true → s.crcOk f = true → burstOk f = true → s.mode ≠ .doze →
          s.phase ≠ .entering → s.exOn 2 = false → (s.daddr p.val f.daddr.toNat).st = .idle → s.chanOpen p.val + s.upOpen p.val < 64 →
          s.upLookup p.val f.daddr.toNat (frameAddr f) = .no 6 false →
        (s.upRoom p.val f.daddr.toNat f false = true → ∃ t, exec (.upRd p f) s = .next t
          ∧ (t.port p.val).statusQ = (s.port p.val).statusQ
              ++ [{ daddr := f.daddr.toNat, frame := statusFrame f.daddr.toNat (bridgeStatus true false 6 (burstBytes f) s.ts), closesUp := true }]
          ∧ (t.daddr p.val f.daddr.toNat).st = .up ∧ s.sameDaddrsBut t p.val f.daddr.toNat ∧ s.samePortsBut t p.val
          ∧ t = { s.start with daddrs := t.daddrs, ports := t.ports })
        ∧ (s.upRoom p.val f.daddr.toNat f true = true →
          ∃ t, exec (.upWr p f) s = .next t ∧ (t.daddr p.val f.daddr.toNat).st = .up ∧ (t.daddr p.val f.daddr.toNat).swallow = some 6
            ∧ s.sameDaddrsBut t p.val f.daddr.toNat ∧ t = { s.start with daddrs := t.daddrs }))
      ∧ (∀ (s : State) (p : Fin 144) (f : Frame), s.portRecv p.val = true → s.crcOk f = true → burstOk f = true → s.mode ≠ .doze →
          s.phase ≠ .entering → (s.daddr p.val f.daddr.toNat).st = .idle ∨ (s.daddr p.val f.daddr.toNat).st = .reserved →
          s.chanOpen p.val + s.upOpen p.val < 64 →
        (s.upRoom p.val f.daddr.toNat f false = false →
          ∃ t, exec (.upRd p f) s = .next t ∧ s.retrySent t p.val f.daddr.toNat 3 ∧ (t.daddr p.val f.daddr.toNat).st = (s.daddr p.val f.daddr.toNat).st
            ∧ s.sameDaddrsBut t p.val f.daddr.toNat ∧ s.onlyRegs t [(.gptRetryCnt, p.val), (.gptSlotCnt, p.val)]
            ∧ t = { s.start with daddrs := t.daddrs, ports := t.ports, regs := t.regs, outp := t.outp })
        ∧ (s.upRoom p.val f.daddr.toNat f true = false →
          ∃ t, exec (.upWr p f) s = .next t ∧ s.retrySent t p.val f.daddr.toNat 3 ∧ (t.daddr p.val f.daddr.toNat).upRefused = true
            ∧ s.sameDaddrsBut t p.val f.daddr.toNat ∧ s.onlyRegs t [(.gptRetryCnt, p.val), (.gptSlotCnt, p.val)]
            ∧ t = { s.start with daddrs := t.daddrs, ports := t.ports, regs := t.regs, outp := t.outp }))
      ∧ (∀ (s : State) (p : Fin 144) (f : Frame), s.portRecv p.val = true → s.crcOk f = true → burstOk f = true →
          (s.daddr p.val f.daddr.toNat).st = .cmd →
        (∃ t, exec (.upRd p f) s = .next t ∧ s.retrySent t p.val f.daddr.toNat 1 ∧ (t.daddr p.val f.daddr.toNat).upRefused = false
          ∧ t.f Fld.gptRetryCnt_retry_tx p.val = sat Fld.gptRetryCnt_retry_tx (s.f Fld.gptRetryCnt_retry_tx p.val + 1)
          ∧ s.sameDaddrsBut t p.val f.daddr.toNat ∧ s.onlyRegs t [(.gptRetryCnt, p.val), (.gptCollCnt, p.val)]
          ∧ t = { s.start with daddrs := t.daddrs, ports := t.ports, regs := t.regs, outp := t.outp })
        ∧ (∃ t, exec (.upWr p f) s = .next t ∧ s.retrySent t p.val f.daddr.toNat 1 ∧ (t.daddr p.val f.daddr.toNat).upRefused = true
          ∧ t.f Fld.gptRetryCnt_retry_tx p.val = sat Fld.gptRetryCnt_retry_tx (s.f Fld.gptRetryCnt_retry_tx p.val + 1)
          ∧ s.sameDaddrsBut t p.val f.daddr.toNat ∧ s.onlyRegs t [(.gptRetryCnt, p.val), (.gptCollCnt, p.val)]
          ∧ t = { s.start with daddrs := t.daddrs, ports := t.ports, regs := t.regs, outp := t.outp })))
  ∧ ((∀ (s : State) (p : Fin 144) (f uf : Frame) (je : Nat) (o : Op) (h : ReqHdr), s.portRecv p.val = true → s.crcOk f = true →
          (s.daddr p.val f.daddr.toNat).st = .up → (s.daddr p.val f.daddr.toNat).up = some { je := some je, frame := uf } → uf.ftype = 0x11 →
          s.statusWaits p.val f.daddr.toNat = false → dataOk (frameWords uf) uf.fbe.toNat uf.lbe.toNat f = true → s.op? je = some o →
          (s.entry je).kind = 5 → o.hdr = some h → o.np = false → o.silent = false → o.c0wait = false → s.evWait = [] →
          s.judge (gTlink o.link) o.ident (reqFirst h) (State.upLast h o.cut.n) false true = .ok →
        ∃ t, exec (.upData p f) s = .next t
          ∧ .packet (s.route o.link) (.mwr h ((List.range o.cut.n).map fun k =>
              let y := swapAddr o.cut.u (o.cut.base + k)
              if burstFirst uf ≤ y ∧ y ≤ burstLast uf then f.payload.getD (y - frameAddr uf) 0 else 0)) ∈ t.outp
          ∧ (t.port p.val).statusQ = (s.port p.val).statusQ ++ [{
              daddr := f.daddr.toNat, frame := statusFrame f.daddr.toNat (bridgeStatus false false 0 0 s.ts), je := some je, closesUp := true }]
          ∧ (t.entry je).st = .issued ∧ t.op? je = some { o with posted := true, done := true, hold := {} }
          ∧ (∀ j, j ≠ je → t.op? j = s.op? j) ∧ s.sameDaddrsBut t p.val f.daddr.toNat ∧ s.samePortsBut t p.val ∧ t.regs = s.regs)
      ∧ (∀ (s : State) (p : Fin 144) (x : StatusTx) (xs : List StatusTx) (je : Nat) (o : Op), s.portRecv p.val = true →
          (s.port p.val).statusQ = x :: xs → x.guard = false → x.closesUp = true → x.je = some je → s.op? je = some o → o.inflight = false →
          (s.entry je).st = .completed → (s.daddr p.val x.daddr).losses < 4 → (s.port p.val).sleepPend = false → (xs = [] → (s.port p.val).egress = []) →
          (∀ y ∈ xs.head?, y.retry = false) → (∀ y ∈ (s.port o.port).queue, y.2.je ≠ some je) → s.evWait = [] →
        ∃ t, exec (.closingStatusSent p) s = .next t ∧ t.outp = [.frame p.val 0 x.frame] ∧ (t.port p.val).statusQ = xs
          ∧ t.daddr p.val x.daddr = { s.daddr p.val x.daddr with st := .idle, opened := none, up := none, swallow := none }
          ∧ (t.entry je).st = .free ∧ t.op? je = none ∧ s.sameOpsBut t je ∧ s.sameDaddrsBut t p.val x.daddr ∧ s.samePortsBut t p.val
          ∧ t = { s.start with daddrs := t.daddrs, ports := t.ports, jnl := t.jnl, ops := t.ops, hub := t.hub, outp := t.outp }))

/-- R88, R89, R90, R93, R102, R147: what ends an exchange without a good answer. The guard time frees the device address, or reserves it after the fourth
loss; the reservation and the losses lapse; a poll without an answer is aborted with STATUS and waits for its next period, and a read is queued again
while it may be re-issued; a held lock is written and released, aborted where a compare fails, or aborted when its time is up. -/
def Obligations.ExchangeTimersAndLocks : Prop :=
  (∀ (s : State) (p : Fin 144) (d : Fin 2048), s.works = true → (s.daddr p.val d.val).st = .guard → (s.port p.val).sleepPend = false →
    ∃ t, exec (.guardEnd p d) s = .next t
      ∧ t.daddr p.val d.val = { s.daddr p.val d.val with
          st := if 4 ≤ (s.daddr p.val d.val).losses then .reserved else .idle, opened := none, up := none, swallow := none }
      ∧ s.sameDaddrsBut t p.val d.val ∧ t = { s.start with daddrs := t.daddrs })
  ∧ (∀ (s : State) (p : Fin 144) (d : Fin 2048), s.works = true →
    ((s.daddr p.val d.val).st = .reserved →
      ∃ t, exec (.rsvTimeExpire p d) s = .next t ∧ t.daddr p.val d.val = { s.daddr p.val d.val with st := .idle, losses := 0, lossSerial := 0 }
        ∧ t.f Fld.gptCollCnt_rsv_expired p.val = sat Fld.gptCollCnt_rsv_expired (s.f Fld.gptCollCnt_rsv_expired p.val + 1)
        ∧ s.sameDaddrsBut t p.val d.val ∧ s.onlyFields t [(Fld.gptCollCnt_rsv_expired, p.val)]
        ∧ t = { s.start with daddrs := t.daddrs, regs := t.regs })
    ∧ ((s.daddr p.val d.val).st ≠ .reserved → (s.daddr p.val d.val).losses < 4 →
      ∃ t, exec (.lossCountExpire p d) s = .next t ∧ t.daddr p.val d.val = { s.daddr p.val d.val with losses := 0, lossSerial := 0 }
        ∧ s.sameDaddrsBut t p.val d.val ∧ t = { s.start with daddrs := t.daddrs })
    ∧ ((s.daddr p.val d.val).st = .reserved ∨ 4 ≤ (s.daddr p.val d.val).losses → exec (.lossCountExpire p d) s = .next s.start))
  ∧ (∀ (s : State) (p : Fin 144) (d : Fin 2048) (x : XOpen), s.portRecv p.val = true → (s.daddr p.val d.val).st = .cmd →
      (s.daddr p.val d.val).lock = .none → (s.daddr p.val d.val).opened = some x →
    (x.req.kind = .poll →
      ∃ t, exec (.responseTimeout p d) s = .next t ∧ t.daddr p.val d.val = { s.daddr p.val d.val with opened := none }
        ∧ (t.port p.val).statusQ = (s.port p.val).statusQ
            ++ [{ daddr := d.val, frame := statusFrame d.val (bridgeStatus false true 1 0 s.ts), guard := true }]
        ∧ t.dn x.req.dn = { s.dn x.req.dn with poll := .wait }
        ∧ t.f Fld.gptErrCnt_poll_to p.val = sat Fld.gptErrCnt_poll_to (s.f Fld.gptErrCnt_poll_to p.val + 1)
        ∧ s.sameDaddrsBut t p.val d.val ∧ s.samePortsBut t p.val ∧ s.onlyFields t [(Fld.gptErrCnt_poll_to, p.val)]
        ∧ t = { s.start with daddrs := t.daddrs, ports := t.ports, dns := t.dns, regs := t.regs })
    ∧ (∀ je, x.req.kind = .rd → x.req.je = some je → x.req.reissued < s.f Fld.gptRetryCtl_reissue p.val →
      ∃ t, exec (.responseTimeout p d) s = .next t ∧ t.daddr p.val d.val = { s.daddr p.val d.val with opened := none }
        ∧ t.port p.val = { s.port p.val with
            statusQ := (s.port p.val).statusQ
              ++ [{ daddr := d.val, frame := statusFrame d.val (bridgeStatus false true 1 0 s.ts), guard := true }]
            queue := insertReq d.val { x.req with reissued := x.req.reissued + 1, refusals := 0, notBefore := 0 } (s.port p.val).queue }
        ∧ t.f Fld.gptErrCnt_resp_to p.val = sat Fld.gptErrCnt_resp_to (s.f Fld.gptErrCnt_resp_to p.val + 1)
        ∧ s.sameDaddrsBut t p.val d.val ∧ s.samePortsBut t p.val ∧ s.onlyFields t [(Fld.gptErrCnt_resp_to, p.val)]
        ∧ t = { s.start with daddrs := t.daddrs, ports := t.ports, regs := t.regs }))
  ∧ (∀ (s : State) (p : Fin 144) (d : Fin 2048) (je : Nat) (o : Op) (x : CcdX) (y : XOpen) (old : List Byte), s.portRecv p.val = true →
      (s.daddr p.val d.val).lock = .held → State.lockJe (s.daddr p.val d.val) = some je → s.op? je = some o → o.x = some x →
      (s.daddr p.val d.val).opened = some y → x.old = some old →
    (∀ v, rmwNew (x.c.aux % 8) x.c.count (bytesNat old) (fieldAt 0 8 x.operands) (fieldAt 8 8 x.operands) = some v →
      ∃ t, exec (.unlockWr p d) s = .next t
        ∧ s.leaves t p.val 0 [s.burst 8 je o y.pieceA y.pieceE,
            State.burstData (s.burst 8 je o y.pieceA y.pieceE) y.pieceA y.pieceE (swapBytes o.cut.u (natBytes x.c.count v))]
        ∧ t.daddr p.val d.val = { s.daddr p.val d.val with lock := .releasing, relWhy := .wrote, relTries := 0 }
        ∧ t.op? je = some { o with x := some { x with newVal := some v } } ∧ (∀ j, j ≠ je → t.op? j = s.op? j)
        ∧ s.sameDaddrsBut t p.val d.val ∧ s.samePortsBut t p.val
        ∧ t = { s.start with daddrs := t.daddrs, ports := t.ports, ops := t.ops, outp := t.outp })
    ∧ (rmwNew (x.c.aux % 8) x.c.count (bytesNat old) (fieldAt 0 8 x.operands) (fieldAt 8 8 x.operands) = none →
      ∃ t, exec (.unlockWr p d) s = .next t ∧ s.leaves t p.val 0 [baseFrame 9 d.val]
        ∧ t.daddr p.val d.val = { s.daddr p.val d.val with lock := .releasing, relWhy := .cas, st := .cmd }
        ∧ t.op? je = some { o with x := some { x with last := [] } } ∧ (∀ j, j ≠ je → t.op? j = s.op? j)
        ∧ s.sameDaddrsBut t p.val d.val ∧ s.samePortsBut t p.val
        ∧ t = { s.start with daddrs := t.daddrs, ports := t.ports, ops := t.ops, outp := t.outp })
    ∧ ((s.entry je).kind = 4 → (s.entry je).pst = false → (s.entry je).err = 0 → o.silent = false →
      ∃ t, exec (.lockTimeout p d) s = .next t
        ∧ ((s.port p.val).statusQ = [] → .frame p.val 0 (sealFrame (baseFrame 9 d.val)) ∈ t.outp)
        ∧ t.daddr p.val d.val = { s.daddr p.val d.val with lock := .releasing, relWhy := .ended, st := .cmd }
        ∧ (t.entry je).err = 4 ∧ (t.entry je).st = .farDone
        ∧ t.f Fld.gptLockCnt_lock_to p.val = sat Fld.gptLockCnt_lock_to (s.f Fld.gptLockCnt_lock_to p.val + 1)
        ∧ s.sameDaddrsBut t p.val d.val ∧ ∀ j, j ≠ je → t.entry j = s.entry j))

/-- R97 to R100, R146: polls and attention. A period makes a poll due, or is skipped while one is; a response with attention is delivered while the DN is
CLEAR and below its storm limit, mutes it at the limit, and one without clears a delivered DN; an interval's end resets the counts; a WAIT-ATTN ends
with a timeout. R98, R99, R101, R271: the attention registers. An acknowledge queues one ACK-ATTN at the DN's device address, and an unmute makes a
muted DN CLEAR, at a port, for sideband inputs, and in the page of the instance that owns the DN; for a DN that the instance does not own only BAD_DN
steps. -/
def Obligations.PollsAndAttention : Prop :=
  ((∀ (s : State) (n : Fin 262144), (s.device n.val).v = true → (s.device n.val).poll ≠ 0 → s.portRecv (s.device n.val).port = true →
        ((s.dn n.val).poll = .wait →
          ∃ t, exec (.pollPeriod n) s = .next t ∧ t.dn n.val = { s.dn n.val with poll := .due } ∧ (∀ m, m ≠ n.val → t.dn m = s.dn m)
            ∧ (t.port (s.device n.val).port).queue = insertReq (s.device n.val).daddr
                { kind := .poll, dn := n.val, cls := (s.device n.val).cls, age := s.ts, serial := s.jnl.serial } (s.port (s.device n.val).port).queue
            ∧ s.samePortsBut t (s.device n.val).port
            ∧ t = { s.start with dns := t.dns, ports := t.ports, jnl := { s.jnl with serial := s.jnl.serial + 1 } })
        ∧ ((s.dn n.val).poll = .due →
          ∃ t, exec (.pollPeriod n) s = .next t
            ∧ t.f Fld.gptSlotCnt_poll_skip (s.device n.val).port = sat Fld.gptSlotCnt_poll_skip (s.f Fld.gptSlotCnt_poll_skip (s.device n.val).port + 1)
            ∧ s.onlyFields t [(Fld.gptSlotCnt_poll_skip, (s.device n.val).port)] ∧ t = { s.start with regs := t.regs }))
      ∧ (∀ (s : State) (p : Fin 144) (f : Frame) (x : XOpen), s.portRecv p.val = true → s.crcOk f = true →
          (s.daddr p.val f.daddr.toNat).st = .cmd → (s.daddr p.val f.daddr.toNat).opened = some x → (s.daddr p.val f.daddr.toNat).losses < 4 →
          x.req.kind = .poll → f.payload.length = 16 → s.mode ≠ .doze → (s.device x.req.dn).smapEn = false →
          (s.inst (s.device x.req.dn).owner).st ≠ .squash → s.evOn (s.device x.req.dn).owner 2 = false → s.evOn (s.device x.req.dn).owner 5 = false →
          s.waiters x.req.dn = [] →
        (bit 15 (fieldAt 0 2 f.payload) = true → (s.dn x.req.dn).attn = .clear →
            (∀ k, s.stormLimit x.req.dn = some k → s.intervalCount x.req.dn < k) →
          ∃ t, exec (.pollResp p f) s = .next t
            ∧ t.dn x.req.dn = { s.dn x.req.dn with
                poll := .wait, lastAttn := true, attn := .delivered, interval := s.msNow, count := s.intervalCount x.req.dn + 1, lastSample := f.payload
                ackFor := none }
            ∧ t.f Fld.gptAttnCnt_delivered (s.device x.req.dn).port
                = sat Fld.gptAttnCnt_delivered (s.f Fld.gptAttnCnt_delivered (s.device x.req.dn).port + 1)
            ∧ (t.daddr p.val f.daddr.toNat).st = .idle ∧ s.sameDaddrsBut t p.val f.daddr.toNat ∧ (∀ m, m ≠ x.req.dn → t.dn m = s.dn m)
            ∧ s.onlyFields t [(Fld.gptAttnCnt_delivered, (s.device x.req.dn).port)]
            ∧ t = { s.start with daddrs := t.daddrs, dns := t.dns, regs := t.regs })
        ∧ (∀ k, bit 15 (fieldAt 0 2 f.payload) = true → (s.dn x.req.dn).attn = .clear → s.stormLimit x.req.dn = some k →
            k ≤ s.intervalCount x.req.dn →
          ∃ t, exec (.pollResp p f) s = .next t ∧ t.dn x.req.dn = { s.dn x.req.dn with poll := .wait, lastAttn := true, attn := .muted }
            ∧ t.f Fld.gptAttnCnt_storms (s.device x.req.dn).port = sat Fld.gptAttnCnt_storms (s.f Fld.gptAttnCnt_storms (s.device x.req.dn).port + 1)
            ∧ s.onlyFields t [(Fld.gptAttnCnt_storms, (s.device x.req.dn).port)]
            ∧ t = { s.start with daddrs := t.daddrs, dns := t.dns, regs := t.regs })
        ∧ (bit 15 (fieldAt 0 2 f.payload) = false → (s.dn x.req.dn).attn = .delivered →
          ∃ t, exec (.pollResp p f) s = .next t ∧ t.dn x.req.dn = { s.dn x.req.dn with poll := .wait, lastAttn := false, attn := .clear }
            ∧ s.onlyFields t [(Fld.gptAttnCnt_attn_clr, (s.device x.req.dn).port)]
            ∧ t = { s.start with daddrs := t.daddrs, dns := t.dns, regs := t.regs }))
      ∧ (∀ s : State, s.mode ≠ .reset →
        ∃ t, exec .attnInterval s = .next t ∧ (∀ x ∈ t.dns, x.2.count = 0 ∧ x.2.interval = 0 ∧ x.2.storm = none)
          ∧ (∀ x ∈ s.dns, x.2.attn ≠ .clear → (x.1, { x.2 with count := 0, interval := 0, storm := none }) ∈ t.dns) ∧ t = { s.start with dns := t.dns })
      ∧ (∀ (s : State) (je : Fin 4194304) (o : Op) (x : CcdX), s.works = true → s.op? je.val = some o → o.x = some x → x.waiting = true →
          (s.entry je.val).kind = 4 → (s.entry je.val).pst = false → (s.entry je.val).err = 0 → o.silent = false →
        ∃ t, exec (.waitAttnTimeout je) s = .next t ∧ (t.entry je.val).err = 4 ∧ (t.entry je.val).st = .farDone
          ∧ (∃ u, (t.op? je.val).bind (·.x) = some u ∧ u.waiting = false ∧ u.detail = 5) ∧ s.sameOpsBut t je.val ∧ t.regs = s.regs))
  ∧ ((∀ (s : State) (a : Acc) (p : Fin 144) (v : Word) (n : Nat), s.isLead p.val = true → s.dnAt p.val (v.toNat % 2 ^ 11) = some n →
        (s.goesWrite a .gptAttnAck p.val v = true → s.sbiOf n = none →
          ∃ t, exec (.gptAttnAck a p v) s = .next t
            ∧ (t.port p.val).queue = insertReq (v.toNat % 2 ^ 11)
                { kind := .ack, dn := n, cls := (s.device n).cls, age := s.ts, serial := s.jnl.serial } (s.port p.val).queue
            ∧ s.samePortsBut t p.val ∧ s.ended t (wordWrite a (regOff .gptAttnAck p.val) v) (.done [])
            ∧ t = { s.asideFrom t with ports := t.ports, jnl := { s.jnl with serial := s.jnl.serial + 1 } })
        ∧ (s.goesWrite a .gptAttnUnmute p.val v = true → (s.dn n).attn = .muted →
          ∃ t, exec (.gptAttnUnmute a p v) s = .next t ∧ t.dn n = { s.dn n with attn := .clear } ∧ (∀ m, m ≠ n → t.dn m = s.dn m)
            ∧ t = { s.asideFrom t with dns := t.dns }))
      ∧ (∀ (s : State) (a : Acc) (v : Word) (k : Fin 16), s.goesWrite a .gptSbiUnmute 0 v = true → v.toNat % 2 ^ 16 = 2 ^ k.val →
          s.fb Fld.gptSbiMap_en k.val = true → (s.dn (s.f Fld.gptSbiMap_dn k.val)).attn = .muted →
        ∃ t, exec (.gptSbiUnmute a v) s = .next t ∧ t.dn (s.f Fld.gptSbiMap_dn k.val) = { s.dn (s.f Fld.gptSbiMap_dn k.val) with attn := .clear }
          ∧ (∀ m, m ≠ s.f Fld.gptSbiMap_dn k.val → t.dn m = s.dn m) ∧ t = { s.asideFrom t with dns := t.dns })
      ∧ (∀ (s : State) (a : Acc) (i : Fin 256) (v : Word), (s.inst i.val).st ≠ .free → (s.inst i.val).st ≠ .squash →
        (s.goesWrite a .instAttnAck i.val v = true → s.instMay i.val (v.toNat % 2 ^ 18) = true →
            s.dnAt (s.device (v.toNat % 2 ^ 18)).port (s.device (v.toNat % 2 ^ 18)).daddr = some (v.toNat % 2 ^ 18) → s.sbiOf (v.toNat % 2 ^ 18) = none →
          ∃ t, exec (.instAttnAck a i v) s = .next t
            ∧ (t.port (s.device (v.toNat % 2 ^ 18)).port).queue = insertReq (s.device (v.toNat % 2 ^ 18)).daddr
                { kind := .ack, dn := v.toNat % 2 ^ 18, cls := (s.device (v.toNat % 2 ^ 18)).cls, age := s.ts, serial := s.jnl.serial }
                (s.port (s.device (v.toNat % 2 ^ 18)).port).queue
            ∧ t = { s.asideFrom t with ports := t.ports, jnl := { s.jnl with serial := s.jnl.serial + 1 } })
        ∧ (s.goesWrite a .instAttnAck i.val v = true → s.instMay i.val (v.toNat % 2 ^ 18) = false →
          ∃ t, exec (.instAttnAck a i v) s = .next t
            ∧ t.f Fld.instCnt_bad_dn i.val = sat Fld.instCnt_bad_dn (s.f Fld.instCnt_bad_dn i.val + 1)
            ∧ s.onlyFields t [(Fld.instCnt_bad_dn, i.val)] ∧ t = { s.asideFrom t with regs := t.regs })
        ∧ (s.goesWrite a .instAttnUnmute i.val v = true → s.instMay i.val (v.toNat % 2 ^ 18) = true → (s.dn (v.toNat % 2 ^ 18)).attn = .muted →
          ∃ t, exec (.instAttnUnmute a i v) s = .next t
            ∧ t.dn (v.toNat % 2 ^ 18) = { s.dn (v.toNat % 2 ^ 18) with attn := .clear } ∧ (∀ m, m ≠ v.toNat % 2 ^ 18 → t.dn m = s.dn m)
            ∧ t = { s.asideFrom t with dns := t.dns })))

/-- R103, R104, Table 4.17, Table 4.11: the states of a port. Training begins at the retry interval, ends in UP or is counted as a failure; a port that
leaves UP stops polling and drops what waits at egress; an orphaned lock is released first when the port is UP again; work queued at a port that stays
down ends with TO. R75, R82, R320: LINK frames. ALIGN changes nothing and is sent on every member of a bonded port; a COEF-REQ steps the bridge's
transmitter, where the codes call for it, and is answered with its SEQ; the bridge's own requests go out one at a time, reverse a step that did not
help, and are given up without an answer; none goes out while adaptation is frozen. Where a step ends the range is open (log entry 4). -/
def Obligations.PortStatesAndLinkFrames : Prop :=
  ((∀ (s : State) (p : Fin 144), s.works = true → (s.port p.val).st = .up → s.portDaddrs p.val = [] → s.mute 0x040 = true →
        ∃ t, exec (.portLeavesUp p) s = .next t
          ∧ t.port p.val = { s.port p.val with
              st := .down, statusQ := [], egress := [], sleepPend := false, laneLock := 0
              queue := (s.port p.val).queue.filter fun y => y.2.kind != .poll }
          ∧ (∀ m < s.members p.val, t.f Fld.gptLinkCnt_downs (p.val + m) = sat Fld.gptLinkCnt_downs (s.f Fld.gptLinkCnt_downs (p.val + m) + 1))
          ∧ s.counted t 0x040 ∧ (∀ x ∈ t.dns, (s.device x.1).port = p.val → x.2.attn = .clear ∧ x.2.poll = .wait)
          ∧ s.samePortsBut t p.val ∧ s.onlyBlocks t [.gpt, .flt]
          ∧ t = { s.start with ports := t.ports, dns := t.dns, regs := t.regs, flt := t.flt })
      ∧ (∀ (s : State) (p : Fin 144), s.mode = .halt → (s.port p.val).st = .up →
        ∃ t, exec (.portLeavesUp p) s = .next t
          ∧ t.port p.val = { s.port p.val with st := .down, statusQ := [], egress := [], sleepPend := false, laneLock := 0 }
          ∧ (∀ m < s.members p.val, t.f Fld.gptLinkCnt_downs (p.val + m) = sat Fld.gptLinkCnt_downs (s.f Fld.gptLinkCnt_downs (p.val + m) + 1))
          ∧ s.counted t 0x040 ∧ s.samePortsBut t p.val ∧ t.dns = s.dns ∧ t.jnl = s.jnl ∧ t.ops = s.ops ∧ t.daddrs = s.daddrs
          ∧ s.onlyBlocks t [.gpt, .flt])
      ∧ (∀ (s : State) (p : Fin 144), (s.port p.val).st ≠ .up → exec (.portLeavesUp p) s = .next s.start)
      ∧ (∀ (s : State) (a : Acc) (p : Fin 144), s.goesWrite a .gptCtl p.val 1 = true → s.isLead p.val = true → (s.port p.val).st = .up →
          s.portDaddrs p.val = [] → s.mute 0x040 = true →
        ∃ t, exec (.gptRetrain a p) s = .next t ∧ (t.port p.val).st = .down ∧ (t.port p.val).statusQ = [] ∧ s.counted t 0x040
          ∧ s.ended t (wordWrite a (regOff .gptCtl p.val) 1) (.done []) ∧ s.samePortsBut t p.val ∧ s.onlyBlocks t [.gpt, .flt]
          ∧ t = { s.asideFrom t with ports := t.ports, dns := t.dns, regs := t.regs, flt := t.flt })
      ∧ (∀ (s : State) (p : Fin 144), s.works = true → (s.port p.val).st = .train →
        ((∀ x ∈ s.portDaddrs p.val, x.2.lock ≠ .orphaned) →
          ∃ t, exec (.portTrained p) s = .next t ∧ t.port p.val = { s.port p.val with st := .up, laneLock := 2 ^ s.members p.val - 1 }
            ∧ s.samePortsBut t p.val ∧ t = { s.start with ports := t.ports, img := { s.img with seeds := t.img.seeds }
                                                          freeCount := t.freeCount, freeNext := t.freeNext })
        ∧ (∀ d x, s.portDaddrs p.val = [(d, x)] → x.lock = .orphaned →
          ∃ t, exec (.portTrained p) s = .next t ∧ s.leaves t p.val 0 [baseFrame 9 d] ∧ (t.daddr p.val d).lock = .releasing
            ∧ (t.port p.val).st = .up)
        ∧ (s.mute 0x042 = true →
          ∃ t, exec (.portTrainTimeout p) s = .next t ∧ t.port p.val = { s.port p.val with st := .down } ∧ s.samePortsBut t p.val ∧ s.counted t 0x042
            ∧ (∀ m < s.members p.val,
                t.f Fld.gptLinkCnt_train_fail (p.val + m) = sat Fld.gptLinkCnt_train_fail (s.f Fld.gptLinkCnt_train_fail (p.val + m) + 1))
            ∧ s.onlyBlocks t [.gpt, .flt] ∧ t = { s.start with ports := t.ports, regs := t.regs, flt := t.flt }))
      ∧ (∀ (s : State) (p : Fin 144), s.linksOn = true → (s.port p.val).st = .down → s.isLead p.val = true →
        ∃ t, exec (.portRetryInterval p) s = .next t ∧ t.port p.val = { s.port p.val with st := .train } ∧ s.samePortsBut t p.val
          ∧ t = { s.start with ports := t.ports })
      ∧ (∀ (s : State) (p : Fin 144) (d : Nat) (x : XReq), s.works = true → (s.port p.val).st ≠ .up → (s.port p.val).queue = [(d, x)] →
        (x.kind = .poll → ∃ t, exec (.downHoldExpire p) s = .next t ∧ (t.port p.val).queue = [] ∧ t.dn x.dn = { s.dn x.dn with poll := .wait }
          ∧ s.samePortsBut t p.val ∧ t = { s.start with ports := t.ports, dns := t.dns })
        ∧ (∀ je o h, x.kind = .rd ∨ x.kind = .wr → x.je = some je → s.directOp je o h →
          ∃ t, exec (.downHoldExpire p) s = .next t ∧ (t.port p.val).queue = []
            ∧ .packet (s.route (s.entry je).link) (.cpl (s.cplHdr h 4 0) []) ∈ t.outp
            ∧ (t.entry je).st = .completed ∧ (t.entry je).err = 4 ∧ t.op? je = none ∧ s.sameOpsBut t je ∧ t.regs = s.regs)))
  ∧ ((∀ (s : State) (p : Fin 144) (f : Frame), s.crcOk f = true → f.payload.length = 8 → exec (.align p f) s = .next s.start)
      ∧ (∀ (s : State) (p : Fin 144), s.works = true → (s.port p.val).st = .up → 1 < s.members p.val →
        ∃ t, exec (.alignSend p) s = .next t ∧ t.outp = (List.range (s.members p.val)).map (fun m => .frame p.val m (linkFrame 1 []))
          ∧ t = { s.start with outp := t.outp })
      ∧ (∀ (s : State) (p : Fin 144) (m : Fin 4) (f : Frame), s.portRecv p.val = true → s.crcOk f = true → f.payload.length = 8 →
        (s.f Fld.gptCfg_rate p.val = 0 → s.mode ≠ .load →
          ∃ t c, exec (.coefReq p m f) s = .next t ∧ s.leaves t p.val m.val [linkFrame 3 (natBytes 1 c ++ slice 1 1 f.payload)]
            ∧ (fieldAt 0 1 f.payload = 0 → c = 0 ∧ (FMap.get {} m.val (t.port p.val).cal).coef
                = (List.range 3).map fun k => (FMap.get {} m.val (s.port p.val).cal).coef.getD k 0)
            ∧ (bit 7 (fieldAt 0 1 f.payload) = true → (FMap.get {} m.val (t.port p.val).cal).coef = [0, 0, 0])
            ∧ s.samePortsBut t p.val ∧ t = { s.start with ports := t.ports, outp := t.outp, freeCount := t.freeCount, freeNext := t.freeNext })
        ∧ (s.f Fld.gptCfg_rate p.val ≠ 0 → exec (.coefReq p m f) s = .next s.start)
        ∧ ((FMap.get {} m.val (s.port p.val).cal).outSeq = some (fieldAt 1 1 f.payload) →
          ∃ t, exec (.coefStat p m f) s = .next t
            ∧ FMap.get {} m.val (t.port p.val).cal = { FMap.get {} m.val (s.port p.val).cal with outSeq := none }
            ∧ s.samePortsBut t p.val ∧ t = { s.start with ports := t.ports })
        ∧ ((FMap.get {} m.val (s.port p.val).cal).outSeq ≠ some (fieldAt 1 1 f.payload) → exec (.coefStat p m f) s = .next s.start))
      ∧ (∀ (s : State) (p : Fin 144) (m : Fin 4) (eye : BitVec 16), (s.mode = .run ∨ s.mode = .service) → s.fb Fld.pwrCalCfg_tx_en = true →
          (s.port p.val).st = .up → s.f Fld.gptCfg_rate p.val = 0 → m.val < s.members p.val →
          (FMap.get {} m.val (s.port p.val).cal).outSeq = none →
        (s.pwr.adaptFrozen = false →
          ∃ t code, exec (.txRefresh p m eye) s = .next t
            ∧ s.leaves t p.val m.val [linkFrame 2 (natBytes 1 code ++ natBytes 1 (FMap.get {} m.val (s.port p.val).cal).nextSeq)]
            ∧ (∃ x, t.hub = { s.hub with xfers := s.hub.xfers ++ [x] } ∧ x.cls = 3 ∧ x.out = hubSpoke p.val)
            ∧ (FMap.get {} m.val (t.port p.val).cal).outSeq = some (FMap.get {} m.val (s.port p.val).cal).nextSeq
            ∧ (FMap.get {} m.val (t.port p.val).cal).lastEye = some eye.toNat
            ∧ (∀ y, (FMap.get {} m.val (s.port p.val).cal).lastEye = some y → eye.toNat ≤ y →
                (FMap.get {} m.val (t.port p.val).cal).tap = (FMap.get {} m.val (s.port p.val).cal).tap
                ∧ (FMap.get {} m.val (t.port p.val).cal).dir = !(FMap.get {} m.val (s.port p.val).cal).dir)
            ∧ t.f Fld.pwrCalCnt_tx_refresh = sat Fld.pwrCalCnt_tx_refresh (s.f Fld.pwrCalCnt_tx_refresh + 1)
            ∧ s.samePortsBut t p.val ∧ s.onlyRegs t [(.pwrCalCnt, 0), (.gptLinkCnt, p.val + m.val)]
            ∧ t = { s.start with ports := t.ports, regs := t.regs, hub := t.hub, outp := t.outp, freeCount := t.freeCount, freeNext := t.freeNext })
        ∧ (s.pwr.adaptFrozen = true →
          ∃ t, exec (.txRefresh p m eye) s = .next t ∧ t.f Fld.pwrCalCnt_postponed = sat Fld.pwrCalCnt_postponed (s.f Fld.pwrCalCnt_postponed + 1)
            ∧ s.onlyFields t [(Fld.pwrCalCnt_postponed, 0)] ∧ t = { s.start with regs := t.regs }))
      ∧ (∀ (s : State) (p : Fin 144) (m : Fin 4) (k : Nat), s.mode ≠ .reset → (FMap.get {} m.val (s.port p.val).cal).outSeq = some k →
        ∃ t, exec (.coefNoresp p m) s = .next t
          ∧ FMap.get {} m.val (t.port p.val).cal = { FMap.get {} m.val (s.port p.val).cal with outSeq := none, lastEye := none }
          ∧ t.f Fld.pwrCalCnt_tx_noresp = sat Fld.pwrCalCnt_tx_noresp (s.f Fld.pwrCalCnt_tx_noresp + 1)
          ∧ s.samePortsBut t p.val ∧ s.onlyFields t [(Fld.pwrCalCnt_tx_noresp, 0)] ∧ t = { s.start with ports := t.ports, regs := t.regs }))

/-- R129, R130, R142, R143: the registers of a queue pair. SQ_DB moves the tail, or sets BAD_DB; Q_CFG with EN = 1 in OFF clears the pointers, sets PHASE
and arms the CQ, or sets CFG_ERR; EN = 0 in RUN leads to OFF or DRAIN; RESUME ends FAULT; CQ_DB moves the head, or sets BAD_HEAD, and arms the CQ,
whose EVENT goes at once while entries are unread. R143, R145: the coalescing timer of a CQ sends the EVENT while the CQ is armed and TIME is not 0,
and disarms it; else it only stops. The EVENT follows a status tunnel EVENT of the CQ that waits. -/
def Obligations.QueuePairsAndCoalescing : Prop :=
  (∀ (s : State) (a : Acc) (i : Fin 256) (q : Fin 4) (v : Word) (k : Nat), k = 4 * i.val + q.val → (s.inst i.val).st ≠ .free →
        (s.goesWrite a .sqDb k v = true →
          (s.f Fld.qStat_state k = 0 → ∃ t, exec (.sqDb a i q v) s = .next t ∧ s.wrote t a .sqDb k v ∧ t = s.asideFrom t)
          ∧ (s.f Fld.qStat_state k ≠ 0 → v.toNat % 2 ^ 16 < 2 ^ s.f Fld.qCfg_sq_size k →
            ∃ t, exec (.sqDb a i q v) s = .next t ∧ t.f Fld.sqDb_tail k = v.toNat % 2 ^ 16 ∧ s.onlyFields t [(Fld.sqDb_tail, k)]
              ∧ s.sameQpsBut t k ∧ s.wrote t a .sqDb k v ∧ t = { s.asideFrom t with regs := t.regs, qps := t.qps, insts := t.insts })
          ∧ (s.f Fld.qStat_state k ≠ 0 → 2 ^ s.f Fld.qCfg_sq_size k ≤ v.toNat % 2 ^ 16 →
            ∃ t, exec (.sqDb a i q v) s = .next t ∧ t.f Fld.qStat_bad_db k = 1 ∧ s.onlyFields t [(Fld.qStat_bad_db, k)]
              ∧ t = { s.asideFrom t with regs := t.regs }))
        ∧ (s.goesWrite a .qCfg k (setBits 31 31 1 v) = true → s.f Fld.qStat_state k = 0 →
          (4 ≤ bits 28 24 v.toNat ∧ bits 28 24 v.toNat ≤ 16 ∧ 4 ≤ bits 20 16 v.toNat ∧ bits 20 16 v.toNat ≤ 16 ∧ bits 15 8 v.toNat ≠ 0
              ∧ s.f Fld.cqCoal_count k ≠ 0 ∧ (bits 1 0 v.toNat ≠ 0 ∨ (s.inst i.val).c0rate ≠ 0) →
            ∃ t, exec (.qpEnable a i q v) s = .next t ∧ t.f Fld.qCfg_en k = 1 ∧ t.f Fld.qCfg_sq_size k = bits 28 24 v.toNat
              ∧ t.f Fld.qCfg_cq_size k = bits 20 16 v.toNat ∧ t.f Fld.qCfg_maxp k = bits 15 8 v.toNat ∧ t.f Fld.qCfg_class k = bits 1 0 v.toNat
              ∧ t.f Fld.sqHead_head k = 0 ∧ t.f Fld.sqDb_tail k = 0 ∧ t.f Fld.cqDb_head k = 0 ∧ t.f Fld.cqTail_tail k = 0 ∧ t.f Fld.cqTail_phase k = 1
              ∧ t.reg .qStat k = setBits 31 30 1 (s.reg .qStat k) ∧ t.qp k = { s.qp k with armed := true, doors := [] } ∧ s.sameQpsBut t k
              ∧ (∀ n c, s.ctx? n = some c → t.ctx? n = some (if c.access = false ∧ c.inst = i.val ∧ c.q = q.val ∧ c.st = .start
                  then { c with stale := true } else c))
              ∧ s.onlyRegs t [(.qCfg, k), (.sqHead, k), (.sqDb, k), (.cqDb, k), (.cqTail, k), (.qStat, k)]
              ∧ t = { s.asideFrom t with regs := t.regs, qps := t.qps, ctxs := t.ctxs })
          ∧ (bits 28 24 v.toNat < 4 ∨ 16 < bits 28 24 v.toNat ∨ bits 20 16 v.toNat < 4 ∨ 16 < bits 20 16 v.toNat ∨ bits 15 8 v.toNat = 0
              ∨ s.f Fld.cqCoal_count k = 0 ∨ (bits 1 0 v.toNat = 0 ∧ (s.inst i.val).c0rate = 0) →
            ∃ t, exec (.qpEnable a i q v) s = .next t ∧ t.f Fld.qStat_cfg_err k = 1 ∧ t.f Fld.qStat_state k = 0 ∧ t.f Fld.qCfg_en k = s.f Fld.qCfg_en k
              ∧ s.onlyRegs t [(.qCfg, k), (.qStat, k)] ∧ t = { s.asideFrom t with regs := t.regs }))
        ∧ (s.goesWrite a .qCfg k (setBits 31 31 0 v) = true → s.f Fld.qStat_state k = 1 → s.lockBreaks .qCfg k (setBits 31 31 0 v) = false →
          ∃ t, exec (.qpDisable a i q v) s = .next t ∧ t.f Fld.qCfg_en k = 0
            ∧ t.f Fld.qStat_state k = (if s.f Fld.qStat_inflight k = 0 ∧ (s.qp k).held = [] then 0 else 2)
            ∧ s.onlyFields t [(Fld.qCfg_en, k), (Fld.qStat_state, k)] ∧ t = { s.asideFrom t with regs := t.regs })
        ∧ (s.goesWrite a .qCtl k (setBits 0 0 1 v) = true → s.f Fld.qStat_state k = 3 → (s.qp k).held = [] → (s.qp k).evPend = false →
          ∃ t, exec (.resume a i q v) s = .next t ∧ t.f Fld.qStat_fault_cause k = 0 ∧ t.f Fld.qStat_fault_status k = 0
            ∧ t.f Fld.qStat_state k = (if s.fb Fld.qCfg_en k = true then 1 else if s.f Fld.qStat_inflight k = 0 then 0 else 2)
            ∧ s.onlyFields t [(Fld.qStat_fault_cause, k), (Fld.qStat_fault_status, k), (Fld.qStat_state, k)] ∧ s.sameQpsBut t k
            ∧ t = { s.asideFrom t with regs := t.regs, qps := t.qps, insts := t.insts })
        ∧ (s.goesWrite a .cqDb k v = true →
          (bit 31 v.toNat = false → headOk (s.f Fld.qCfg_cq_size k) (s.f Fld.cqDb_head k) (s.f Fld.cqTail_tail k) (v.toNat % 2 ^ 16) = true →
            ∃ t, exec (.cqDb a i q v) s = .next t ∧ t.f Fld.cqDb_head k = v.toNat % 2 ^ 16 ∧ s.onlyFields t [(Fld.cqDb_head, k)]
              ∧ s.wrote t a .cqDb k v ∧ t = { s.asideFrom t with regs := t.regs })
          ∧ (bit 31 v.toNat = false → headOk (s.f Fld.qCfg_cq_size k) (s.f Fld.cqDb_head k) (s.f Fld.cqTail_tail k) (v.toNat % 2 ^ 16) = false →
            ∃ t, exec (.cqDb a i q v) s = .next t ∧ t.f Fld.qStat_bad_head k = 1 ∧ s.onlyFields t [(Fld.qStat_bad_head, k)]
              ∧ t = { s.asideFrom t with regs := t.regs })
          ∧ (bit 31 v.toNat = true → headOk (s.f Fld.qCfg_cq_size k) (s.f Fld.cqDb_head k) (s.f Fld.cqTail_tail k) (v.toNat % 2 ^ 16) = true →
              s.f Fld.qStat_state k = 1 → v.toNat % 2 ^ 16 = s.f Fld.cqTail_tail k →
            ∃ t, exec (.cqDb a i q v) s = .next t ∧ t.f Fld.cqDb_head k = v.toNat % 2 ^ 16 ∧ t.qp k = { s.qp k with armed := true }
              ∧ s.sameQpsBut t k ∧ s.onlyFields t [(Fld.cqDb_head, k)] ∧ t = { s.asideFrom t with regs := t.regs, qps := t.qps })
          ∧ (bit 31 v.toNat = true → headOk (s.f Fld.qCfg_cq_size k) (s.f Fld.cqDb_head k) (s.f Fld.cqTail_tail k) (v.toNat % 2 ^ 16) = true →
              s.f Fld.qStat_state k = 1 → v.toNat % 2 ^ 16 ≠ s.f Fld.cqTail_tail k → s.evOn i.val 1 = true → s.instHears i.val = true →
              s.tunnelWaits k = none →
            ∃ t, exec (.cqDb a i q v) s = .next t ∧ t.f Fld.cqDb_head k = v.toNat % 2 ^ 16
              ∧ s.eventOut i.val 1 (s.f Fld.qCfg_class k) q.val (s.cqBody k) ∈ t.outp
              ∧ t.qp k = { s.qp k with armed := false, n := 0, timer := false, evPend := false } ∧ s.sameQpsBut t k
              ∧ s.onlyFields t [(Fld.cqDb_head, k)] ∧ t = { s.asideFrom t with regs := t.regs, qps := t.qps })))
  ∧ (∀ (s : State) (i : Fin 256) (q : Fin 4) (k : Nat), k = 4 * i.val + q.val → s.works = true → (s.qp k).timer = true →
        ((s.qp k).armed = true → s.evOn i.val 1 = true → s.instHears i.val = true → s.f Fld.cqCoal_time k ≠ 0 →
          (s.tunnelWaits k = none →
            ∃ t, exec (.cqCoalTime i q) s = .next t ∧ s.eventOut i.val 1 (s.f Fld.qCfg_class k) q.val (s.cqBody k) ∈ t.outp
              ∧ t.qp k = { s.qp k with armed := false, n := 0, timer := false, evPend := false } ∧ s.sameQpsBut t k
              ∧ t = { s.start with qps := t.qps, links := t.links, outp := t.outp })
          ∧ (∀ w, s.tunnelWaits k = some w →
            ∃ t, exec (.cqCoalTime i q) s = .next t ∧ t.evWait = s.evWait ++ [{ w with code := 1, body := s.cqBody k }]
              ∧ t.qp k = { s.qp k with armed := false, n := 0, timer := false, evPend := false } ∧ s.sameQpsBut t k
              ∧ t = { s.start with qps := t.qps, evWait := t.evWait }))
        ∧ ((s.qp k).armed = false ∨ s.evOn i.val 1 = false ∨ s.instHears i.val = false ∨ s.f Fld.cqCoal_time k = 0 →
          ∃ t, exec (.cqCoalTime i q) s = .next t ∧ t.qp k = { s.qp k with timer := false } ∧ s.sameQpsBut t k ∧ t = { s.start with qps := t.qps }))

/-- R158, R130, R131: programs start. The dispatcher gives the oldest work of the instance served next a context on the engine chosen, and issues the
start entry's read; when the entry comes the head steps past it and the program is in flight, and an entry that does not come puts the queue pair in
FAULT with its cause and the Thaty status. R134, R135, R141, R170: a context fetches its CCD once it has a completion-queue slot and a Journal entry.
A BRANCH goes on at its target; a CCD that fails a check ends with that status and detail and no exchange, one that does not come ends with FETCH_ERR,
a NOP ends at once, and a WAIT-ATTN of a DN without attention waits. R208, R135, R138: the data of a program's write is fetched at most 4,096 bytes at
a time, within one 4,096-byte block and the instance's free quota, and what has come is placed behind what came before. -/
def Obligations.ProgramsCcdsAndData : Prop :=
  ((∀ (s : State) (e i q r : Nat), s.works = true →
          (∀ c ∈ s.ctxs, c.1 < s.nextCtx ∧ c.2.eng ≠ 0x7F
            ∧ (c.2.access = true ∨ c.2.st ≠ .start ∨ 0 < c.2.hold.total ∨ c.2.got.isSome = true ∨ c.2.moving = true)) →
          s.pickEng = some e → s.nextInst = some i → s.oldestWork i = some (r, .inl q) → (s.inst i).st = .active →
          s.f Fld.qStat_state (4 * i + q) = 1 →
        (∀ h, s.engMasked e = false → s.f Fld.qCfg_class (4 * i + q) ≠ 0 →
            s.takeHold i (3 * s.f Fld.qCfg_class (4 * i + q) + 2) 1 = some h →
            s.canRead (s.instLink i) (s.inst i).reqId.toNat
              (s.ringBase Fld.sqBaseLo_base_lo Fld.sqBaseHi_base_hi (4 * i + q) + 16 * s.f Fld.sqHead_head (4 * i + q)) 16 →
          ∃ t, exec .dispatch s = .next t
            ∧ s.reads t i (s.f Fld.qCfg_class (4 * i + q))
                (s.ringBase Fld.sqBaseLo_base_lo Fld.sqBaseHi_base_hi (4 * i + q) + 16 * s.f Fld.sqHead_head (4 * i + q)) 16 (.startEntry i q)
            ∧ t.ctx? s.nextCtx = some { eng := e, inst := i, q := q, st := .start, hold := h, since := s.ts } ∧ s.sameCtxsBut t s.nextCtx
            ∧ s.sameHubBut t
            ∧ t = { s.start with ctxs := t.ctxs, nextCtx := s.nextCtx + 1, links := t.links, outp := t.outp, hub := t.hub, pwr := t.pwr
                                 freeCount := s.freeCount + 1, freeNext := t.freeNext })
        ∧ (s.engMasked e = true →
          ∃ t, exec .dispatch s = .next t ∧ t.ctx? s.nextCtx = some { eng := e, inst := i, q := q, st := .start, since := s.ts }
            ∧ s.sameCtxsBut t s.nextCtx
            ∧ t = { s.start with ctxs := t.ctxs, nextCtx := s.nextCtx + 1, pwr := t.pwr }))
      ∧ (∀ s : State, s.works = true →
          (∀ c ∈ s.ctxs, c.2.eng ≠ 0x7F
            ∧ (c.2.access = true ∨ c.2.st ≠ .start ∨ 0 < c.2.hold.total ∨ c.2.got.isSome = true ∨ c.2.moving = true)) →
          s.pickEng = none ∨ s.nextInst = none → exec .dispatch s = .next s.start)
      ∧ (∀ (s : State) (i : Fin 256) (q : Fin 4) (k n : Nat) (c : Ctx), k = 4 * i.val + q.val → s.works = true →
          (s.ctxs.find? fun c => !c.2.access && c.2.inst == i.val && c.2.q == q.val && c.2.st == .start && c.2.got.isSome) = some (n, c) →
          s.ctx? n = some c → c.moving = false → c.stale = false → s.f Fld.qStat_state k = 1 → (s.inst i.val).st = .active →
        (∀ bs, c.got = some (0, bs) →
          ∃ t, exec (.startEntryFetched i q) s = .next t
            ∧ t.f Fld.sqHead_head k = (s.f Fld.sqHead_head k + 1) % 2 ^ s.f Fld.qCfg_sq_size k % 2 ^ 16
            ∧ t.f Fld.qStat_inflight k = (s.f Fld.qStat_inflight k + 1) % 2 ^ 8
            ∧ t.f Fld.qCnt_programs k = sat Fld.qCnt_programs (s.f Fld.qCnt_programs k + 1)
            ∧ t.ctx? n = some { c with st := .ready, got := none, hold := {}, jumps := 0, addr := bits 55 5 (fieldAt 0 8 bs) * 32
                                       ptag := fieldAt 8 4 bs, imm := bit 31 (fieldAt 12 4 bs) }
            ∧ t.qp k = { s.qp k with doors := dropDoor (s.qp k).doors } ∧ s.sameQpsBut t k ∧ s.sameHubBut t
            ∧ s.sameCtxsBut t n ∧ s.onlyFields t [(Fld.sqHead_head, k), (Fld.qStat_inflight, k), (Fld.qCnt_programs, k)]
            ∧ t = { s.start with regs := t.regs, ctxs := t.ctxs, qps := t.qps, hub := t.hub })
        ∧ (∀ st bs, c.got = some (st, bs) → st ≠ 0 → s.muteUc →
          ∃ t, exec (.startEntryFetched i q) s = .next t ∧ t.f Fld.qStat_state k = 3 ∧ t.f Fld.qStat_fault_cause k = 1
            ∧ t.f Fld.qStat_fault_status k = st % 16 ∧ t.ctx? n = none ∧ s.sameCtxsBut t n ∧ s.counted t 0x0A0 ∧ s.onlyBlocks t [.bi, .flt]
            ∧ t = { s.start with regs := t.regs, ctxs := t.ctxs, flt := t.flt })))
  ∧ ((∀ (s : State) (n : Nat) (c : Ctx) (k cls : Nat), s.works = true → s.ctx? n = some c → c.access = false → c.st = .ready → c.moving = false →
          s.engMasked c.eng = false → k = 4 * c.inst + c.q → cls = s.f Fld.qCfg_class k →
        (∀ je h, s.cqFree k ≠ 0 → s.jeRoom c.inst = some je → s.takeHold c.inst (3 * cls + 2) 1 = some h → cls ≠ 0 →
            s.canRead (s.instLink c.inst) (s.inst c.inst).reqId.toNat c.addr 32 →
          ∃ t, exec (.ccdFetch n) s = .next t ∧ s.reads t c.inst cls c.addr 32 (.ccd n)
            ∧ t.ctx? n = some { c with st := .fetching, slot := true, je := some je, hold := h, got := none } ∧ s.sameCtxsBut t n
            ∧ t.jnl = { s.jnl with reserved := FMap.put je c.inst s.jnl.reserved }
            ∧ t = { s.start with ctxs := t.ctxs, jnl := t.jnl, links := t.links, outp := t.outp, hub := t.hub
                                 freeCount := s.freeCount + 2, freeNext := t.freeNext })
        ∧ (s.cqFree k = 0 → exec (.ccdFetch n) s = .next s.start))
      ∧ (∀ (s : State) (n : Nat) (c : Ctx) (je st : Nat) (bs : List Byte) (cls : Nat), s.works = true → s.ctx? n = some c → c.access = false →
          c.st = .fetching → c.moving = false → c.got = some (st, bs) → c.je = some je → c.span = none →
          cls = s.f Fld.qCfg_class (4 * c.inst + c.q) →
        ((ccdOf bs).op = 6 → st = 0 → flagsOk (ccdOf bs) = true → (ccdOf bs).data % 32 = 0 → c.jumps ≠ 8 →
          ∃ t, exec (.ccdAdmission n) s = .next t
            ∧ t.ctx? n = some { c with
                st := .ready, slot := false, je := none, got := none, hold := {}, jumps := c.jumps + 1, addr := (ccdOf bs).data }
            ∧ s.sameCtxsBut t n ∧ s.sameHubBut t
            ∧ t = { s.start with ctxs := t.ctxs, hub := t.hub, jnl := { s.jnl with reserved := FMap.del je s.jnl.reserved } })
        ∧ ((ccdOf bs).op ≠ 6 → st = 0 → ∀ cs dt, s.ccdFault c.inst (ccdOf bs) none = some (cs, dt) →
          ∃ t, exec (.ccdAdmission n) s = .next t ∧ (t.entry je).st = .farDone ∧ (t.entry je).kind = 4 ∧ (t.entry je).err = cs
            ∧ (t.entry je).inst = c.inst ∧ (t.entry je).dn = (ccdOf bs).dn ∧ (t.entry je).cls = cls ∧ (t.entry je).progress = 0
            ∧ (∃ x, (t.op? je).bind (·.x) = some x ∧ x.detail = dt ∧ x.c = ccdOf bs)
            ∧ t.ctx? n = some { c with st := .run, got := none, hold := {}, jumps := 0 } ∧ FMap.find je t.jnl.reserved = none
            ∧ s.sameCtxsBut t n ∧ s.sameOpsBut t je ∧ s.onlyBlocks t [.jnl, .cmp]
            ∧ t = { s.start with ctxs := t.ctxs, jnl := t.jnl, ops := t.ops, regs := t.regs, hub := t.hub, ports := t.ports })
        ∧ (st ≠ 0 →
          ∃ t, exec (.ccdAdmission n) s = .next t ∧ (t.entry je).st = .farDone ∧ (t.entry je).kind = 4 ∧ (t.entry je).err = 6
            ∧ (∃ x, (t.op? je).bind (·.x) = some x ∧ x.detail = st) ∧ s.sameCtxsBut t n ∧ s.sameOpsBut t je ∧ s.onlyBlocks t [.jnl])
        ∧ (∀ h, (ccdOf bs).op = 7 → st = 0 → s.ccdFault c.inst (ccdOf bs) none = none →
            (s.modCtx n fun c => { c with hold := {} }).takeHold c.inst (3 * cls + 2) (if (ccdOf bs).cmp then 136 else 0) = some h →
          ∃ t, exec (.ccdAdmission n) s = .next t ∧ (t.entry je).st = .farDone ∧ (t.entry je).kind = 4 ∧ (t.entry je).err = 0
            ∧ (t.entry je).inst = c.inst ∧ s.sameCtxsBut t n ∧ s.sameOpsBut t je ∧ s.onlyBlocks t [.jnl])
        ∧ (∀ h, (ccdOf bs).op = 8 → st = 0 → s.ccdFault c.inst (ccdOf bs) none = none →
            (s.modCtx n fun c => { c with hold := {} }).takeHold c.inst (3 * cls + 2) (if (ccdOf bs).cmp then 136 else 0) = some h →
            (s.dn (ccdOf bs).dn).attn ≠ .delivered →
          ∃ t, exec (.ccdAdmission n) s = .next t ∧ (t.entry je).st = .admitted ∧ (t.entry je).kind = 4 ∧ (t.entry je).err = 0
            ∧ (∃ x, (t.op? je).bind (·.x) = some x ∧ x.waiting = true ∧ x.since = s.ts) ∧ s.sameCtxsBut t n ∧ s.sameOpsBut t je
            ∧ s.onlyBlocks t [.jnl])))
  ∧ (∀ (s : State) (n : Nat) (c : Ctx) (je : Nat) (o : Op) (x : CcdX), s.works = true → s.ctx? n = some c → c.je = some je → c.st = .run →
          c.moving = false → c.access = false → s.op? je = some o → o.x = some x → x.ctx = n →
        (∀ k h, c.got = none → x.fetching = false → State.dataGot x = x.hasked → (s.entry je).err = 0 → o.stop = false → o.done = false →
            (s.entry je).inst = c.inst → s.ctxCls c = (s.entry je).cls → (s.entry je).cls ≠ 0 → s.engMasked c.eng = false →
            k = min (State.dataWant x - x.hasked)
              (min (4096 - (x.c.data + x.hasked) % 4096) (256 * s.quotaFree (s.entry je).inst)) → k ≠ 0 →
            s.takeHold (s.entry je).inst (3 * (s.entry je).cls + 2) (grainsOf k) = some h →
            s.canRead (s.instLink (s.entry je).inst) (s.inst (s.entry je).inst).reqId.toNat (x.c.data + x.hasked) k →
          ∃ t, exec (.dataFetch n) s = .next t ∧ s.reads t c.inst (s.ctxCls c) (x.c.data + x.hasked) k (.data n je)
            ∧ t.op? je = some { o with x := some { x with fetching := true, hasked := x.hasked + k }, hold := o.hold.add h }
            ∧ (∀ j, j ≠ je → t.op? j = s.op? j) ∧ s.sameHubBut t
            ∧ t = { s.start with ops := t.ops, links := t.links, outp := t.outp, hub := t.hub
                                 freeCount := s.freeCount + 1, freeNext := t.freeNext })
        ∧ (∀ bs, c.got = some (0, bs) → x.c.op = 2 → x.c.cmp = false → x.c.enc = false → x.hasked = x.c.count →
            (FMap.find je s.jnl.entries).isSome = true →
          ∃ t, exec (.dataFetch n) s = .next t ∧ t.ctx? n = some { c with got := none } ∧ s.sameCtxsBut t n
            ∧ (∃ p y, t.op? je = some p ∧ p.x = some y
              ∧ y.s0 = x.s0 ++ slice ((x.c.data + State.dataGot x) % 8) (x.hasked - State.dataGot x) bs ∧ y.fetching = false
              ∧ y.spans = x.spans ++ [(State.dataGot x, x.hasked - State.dataGot x)] ∧ y.s2 = y.s0
              ∧ p.data = List.replicate (x.c.gaddr % 8) 0 ++ y.s0 ∧ p.hold = o.hold ∧ p.cur = o.cur
              ∧ t.entry je = (if State.allPlaced y = true then { s.entry je with eng := 0x7F } else s.entry je))
            ∧ (∀ j, j ≠ je → t.op? j = s.op? j ∧ t.entry j = s.entry j) ∧ s.sameHubBut t
            ∧ t = { s.start with ctxs := t.ctxs, ops := t.ops, jnl := { s.jnl with entries := t.jnl.entries }, hub := t.hub
                                 cmp := { s.cmp with busy := t.cmp.busy }, freeCount := t.freeCount, freeNext := t.freeNext })
        ∧ (∀ st bs, c.got = some (st, bs) → st ≠ 0 → (s.entry je).err = 0 → (s.entry je).kind = 4 → (s.entry je).pst = false → o.silent = false →
            s.pieceOpen je o = false →
          ∃ t, exec (.dataFetch n) s = .next t ∧ (t.entry je).err = 6 ∧ (t.entry je).st = .farDone
            ∧ (∃ y, (t.op? je).bind (·.x) = some y ∧ y.detail = 16 + st) ∧ s.sameCtxsBut t n ∧ s.sameOpsBut t je ∧ t.regs = s.regs))

/-- R134, R138 to R141, R173: the completion entry of a CCD whose far side has ended is written to the completion queue's tail slot, the tail and PHASE
move on, its Journal entry is COMPLETED, and the context takes the next CCD, or ends with its program. -/
def Obligations.CompletionEntries : Prop :=
  ∀ (s : State) (je : Fin 4194304) (o : Op) (x : CcdX) (c : Ctx) (k tail : Nat), s.works = true → s.op? je.val = some o → o.x = some x →
      (s.entry je.val).kind = 4 → (s.entry je.val).st = .farDone → o.done = true → s.ctx? x.ctx = some c → c.moving = false →
      k = 4 * (s.entry je.val).inst + x.q → tail = s.f Fld.cqTail_tail k → s.f Fld.qStat_state k ≠ 3 → x.c.pst = false →
      s.fb Fld.cqCoal_tunnel k = false → (s.qp k).armed = false → s.entryWaits je.val = false → (s.entry je.val).cls ≠ 0 →
      s.canWrite (s.entry je.val).inst (s.ringBase Fld.cqBaseLo_base_lo Fld.cqBaseHi_base_hi k + 64 * tail) 64 →
    ∃ t, exec (.completionEntry je) s = .next t
      ∧ s.writes t (s.entry je.val).inst (s.entry je.val).vc (s.ringBase Fld.cqBaseLo_base_lo Fld.cqBaseHi_base_hi k + 64 * tail)
          (State.entryHead k x je.val (s.entry je.val).err (State.entryDetail x (s.entry je.val).err) (s.entry je.val).dn
            (hbytes x (s.entry je.val).progress) (s.entry je.val).progress
            (s.f Fld.cqTail_phase k * 2 ^ 31 + b2n (!State.goesOn x (s.entry je.val).err) * 2 ^ 30
              + b2n (x.c.span && State.goesOn x (s.entry je.val).err) * 2 ^ 29 + b2n false * 2 ^ 28
              + (if (State.entryRecord x false).2 = 0 then 0 else 2 ^ 27) + (if (State.entryRecord x false).2 = 3 then 2 ^ 26 else 0))
            ++ (State.entryRecord x false).1)
      ∧ t.f Fld.cqTail_tail k = (tail + 1) % 2 ^ s.f Fld.qCfg_cq_size k % 2 ^ 16
      ∧ t.f Fld.cqTail_phase k = (if tail + 1 = 2 ^ s.f Fld.qCfg_cq_size k then 1 - s.f Fld.cqTail_phase k else s.f Fld.cqTail_phase k)
      ∧ (t.entry je.val).st = .completed ∧ t.op? je.val = none ∧ s.sameOpsBut t je.val
      ∧ t.f Fld.qCnt_ccds k = sat Fld.qCnt_ccds (s.f Fld.qCnt_ccds k + 1) ∧ (t.qp k).n = (s.qp k).n + 1 ∧ s.sameQpsBut t k
      ∧ (State.goesOn x (s.entry je.val).err = false → t.ctx? x.ctx = none ∧ t.f Fld.qStat_inflight k = s.f Fld.qStat_inflight k - 1)
      ∧ (State.goesOn x (s.entry je.val).err = true → t.f Fld.qStat_inflight k = s.f Fld.qStat_inflight k
          ∧ t.ctx? x.ctx = some { c with st := .ready, slot := false, je := none, addr := c.addr + 32, jumps := 0
                                         span := if x.c.span then some (x.c.op, x.c.gaddr + x.c.count) else none })
      ∧ s.sameCtxsBut t x.ctx
      ∧ s.onlyFields t [(Fld.cqTail_tail, k), (Fld.cqTail_phase, k), (Fld.qCnt_ccds, k), (Fld.qStat_inflight, k), (Fld.qStat_state, k)]
      ∧ t = { s.start with regs := t.regs, ctxs := t.ctxs, qps := t.qps, jnl := t.jnl, ops := t.ops, hub := t.hub, links := t.links, outp := t.outp
                           insts := t.insts }

/-- R142, R151 to R153: the Posted Error Log and FENCE. Enabling the log clears its pointers; PEL_HEAD moves the head, or sets BAD; RESUME ends FAULT; the
oldest notice is written to the tail slot, and the tail and PHASE move on; FENCE_DB covers the posted writes there are, and the fence is done once
each has taken effect or had its notice written. -/
def Obligations.NoticesAndFences : Prop :=
  (∀ (s : State) (a : Acc) (i : Fin 256) (v : Word), (s.inst i.val).st ≠ .free →
    (s.goesWrite a .pelCfg i.val (setBits 31 31 1 v) = true → s.f Fld.pelCfg_en i.val = 0 → s.f Fld.pelStat_state i.val ≠ 3 →
      ∃ t, exec (.pelEnable a i v) s = .next t ∧ t.f Fld.pelCfg_en i.val = 1 ∧ t.f Fld.pelCfg_size i.val = bits 4 0 v.toNat
        ∧ t.f Fld.pelStat_state i.val = 1 ∧ t.f Fld.pelHead_head i.val = 0 ∧ t.f Fld.pelTail_tail i.val = 0 ∧ t.f Fld.pelTail_phase i.val = 1
        ∧ t.f Fld.pelStat_notices i.val = 0 ∧ s.onlyRegs t [(.pelCfg, i.val), (.pelStat, i.val), (.pelHead, i.val), (.pelTail, i.val)]
        ∧ t = { s.asideFrom t with regs := t.regs })
    ∧ (s.goesWrite a .pelHead i.val v = true →
      (headOk (s.f Fld.pelCfg_size i.val) (s.f Fld.pelHead_head i.val) (s.f Fld.pelTail_tail i.val) (v.toNat % 2 ^ 16) = true →
        ∃ t, exec (.pelHead a i v) s = .next t ∧ t.f Fld.pelHead_head i.val = v.toNat % 2 ^ 16 ∧ s.onlyFields t [(Fld.pelHead_head, i.val)]
          ∧ t = { s.asideFrom t with regs := t.regs })
      ∧ (headOk (s.f Fld.pelCfg_size i.val) (s.f Fld.pelHead_head i.val) (s.f Fld.pelTail_tail i.val) (v.toNat % 2 ^ 16) = false →
        ∃ t, exec (.pelHead a i v) s = .next t ∧ t.f Fld.pelHead_bad i.val = 1 ∧ s.onlyFields t [(Fld.pelHead_bad, i.val)]
          ∧ t = { s.asideFrom t with regs := t.regs }))
    ∧ (s.goesWrite a .pelCtl i.val (setBits 0 0 1 v) = true → s.f Fld.pelStat_state i.val = 3 → (s.pel i.val).waiting = [] →
      ∃ t, exec (.pelResume a i v) s = .next t ∧ t.f Fld.pelStat_state i.val = b2n (s.fb Fld.pelCfg_en i.val)
        ∧ s.onlyFields t [(Fld.pelStat_state, i.val)] ∧ t = { s.asideFrom t with regs := t.regs })
    ∧ (s.goesWrite a .fenceDb i.val v = true → s.fb Fld.fenceStat_done i.val = true →
      ∃ t, exec (.fenceDb a i v) s = .next t ∧ t.f Fld.fenceStat_done i.val = 0 ∧ t.f Fld.fenceStat_token i.val = v.toNat % 2 ^ 16
        ∧ t.pel i.val = { s.pel i.val with
            cover := s.fenceCover i.val, counted := (s.pel i.val).counted + (s.pel i.val).later, later := 0 }
        ∧ (∀ j, j ≠ i.val → t.pel j = s.pel j) ∧ s.onlyFields t [(Fld.fenceStat_done, i.val), (Fld.fenceStat_token, i.val)]
        ∧ t = { s.asideFrom t with regs := t.regs, pels := t.pels }))
  ∧ (∀ (s : State) (i : Fin 256) (je : Nat) (js : List Nat) (o : Op) (tail : Nat), s.works = true → (s.pel i.val).waiting = je :: js →
      s.fb Fld.pelCfg_en i.val = true → s.f Fld.pelStat_state i.val ≠ 3 → s.pelFull i.val = false → (s.inst i.val).st ≠ .squash →
      s.op? je = some o → tail = s.f Fld.pelTail_tail i.val → s.evOn i.val 4 = false → (s.entry je).inst = i.val →
      s.f Fld.evVec_vc (evVecIdx i.val 4) ≠ 0 →
      s.canWrite i.val (s.ringBase Fld.pelBaseLo_base_lo Fld.pelBaseHi_base_hi i.val + 64 * tail) 64 →
    ∃ t, exec (.noticeWrite i) s = .next t
      ∧ s.writes t i.val (s.f Fld.evVec_vc (evVecIdx i.val 4)) (s.ringBase Fld.pelBaseLo_base_lo Fld.pelBaseHi_base_hi i.val + 64 * tail)
          (State.noticeRec je (s.entry je) o (s.f Fld.pelTail_phase i.val))
      ∧ t.f Fld.pelTail_tail i.val = (tail + 1) % 2 ^ s.f Fld.pelCfg_size i.val % 2 ^ 16
      ∧ t.f Fld.pelTail_phase i.val = (if tail + 1 = 2 ^ s.f Fld.pelCfg_size i.val then 1 - s.f Fld.pelTail_phase i.val else s.f Fld.pelTail_phase i.val)
      ∧ t.f Fld.pelStat_notices i.val = sat Fld.pelStat_notices (s.f Fld.pelStat_notices i.val + 1)
      ∧ (t.pel i.val).waiting = js ∧ (∀ j, j ≠ i.val → t.pel j = s.pel j) ∧ t.op? je = some { o with noticed := true }
      ∧ (∀ j, j ≠ je → t.op? j = s.op? j) ∧ s.onlyFields t [(Fld.pelTail_tail, i.val), (Fld.pelTail_phase, i.val), (Fld.pelStat_notices, i.val)]
      ∧ t = { s.start with regs := t.regs, pels := t.pels, ops := t.ops, links := t.links, outp := t.outp, hub := t.hub })
  ∧ (∀ (s : State) (i : Fin 256), s.works = true → s.fb Fld.fenceStat_done i.val = false →
    ((s.pel i.val).cover.all s.settled = true →
      ∃ t, exec (.fenceDone i) s = .next t ∧ t.f Fld.fenceStat_done i.val = 1
        ∧ t.f Fld.fenceStat_notices i.val = min (s.pel i.val).counted 16383 ∧ (t.f Fld.fenceStat_err i.val = 1 ↔ (s.pel i.val).counted ≠ 0)
        ∧ t.pel i.val = { s.pel i.val with cover := [], counted := (s.pel i.val).later, later := 0 }
        ∧ (∀ j, j ≠ i.val → t.pel j = s.pel j)
        ∧ s.onlyFields t [(Fld.fenceStat_done, i.val), (Fld.fenceStat_notices, i.val), (Fld.fenceStat_err, i.val)]
        ∧ t = { s.start with regs := t.regs, pels := t.pels })
    ∧ ((s.pel i.val).cover.all s.settled = false → exec (.fenceDone i) s = .next s.start))

/-- R162 to R164: an instruction is retried. A retry that passes is counted and reported; one that fails is tried again, and the third that fails retires
the engine and puts the spare that R163 chooses in its place; a moved context is rebuilt and its exchange queued again. -/
def Obligations.RetriesAndRetirement : Prop :=
  (∀ (s : State) (je : Fin 4194304) (n : Nat) (c : Ctx), s.works = true → s.ctxOf je.val = some (n, c) → s.ctx? n = some c → c.moving = false →
      c.eng ≠ 0x7F → s.exOn 4 = false → s.exOn 5 = false → s.exOn 6 = false →
    (s.mute 0x080 = true →
      ∃ t, exec (.instructionRetry je true) s = .next t ∧ t.ctx? n = some { c with retries := 0 } ∧ s.sameCtxsBut t n
        ∧ t.f Fld.engCnt_retries = sat Fld.engCnt_retries (s.f Fld.engCnt_retries + 1) ∧ s.counted t 0x080 ∧ s.onlyBlocks t [.eng, .flt]
        ∧ t = { s.start with ctxs := t.ctxs, regs := t.regs, flt := t.flt })
    ∧ (c.retries < 2 →
      ∃ t, exec (.instructionRetry je false) s = .next t ∧ t.ctx? n = some { c with retries := c.retries + 1 } ∧ s.sameCtxsBut t n
        ∧ t = { s.start with ctxs := t.ctxs })
    ∧ (∀ k, 2 ≤ c.retries → (s.eng c.eng).role = .active → s.bst.eng.st = .idle → s.pickSpare c.eng = some k → k ≠ c.eng → s.muteUc →
      ∃ t, exec (.instructionRetry je false) s = .next t ∧ (t.eng c.eng).role = .retired ∧ (t.eng k).role = .active
        ∧ (∀ e, e ≠ c.eng → e ≠ k → t.eng e = s.eng e)
        ∧ t.f Fld.engLastRetire_valid = 1 ∧ t.f Fld.engLastRetire_engine = c.eng % 2 ^ 7 ∧ t.f Fld.engLastRetire_spare = k % 2 ^ 7
        ∧ t.f Fld.engCnt_retires = sat Fld.engCnt_retires (s.f Fld.engCnt_retires + 1)))
  ∧ (∀ (s : State) (je : Fin 4194304) (n : Nat) (c : Ctx) (o : Op), s.works = true → s.ctxOf je.val = some (n, c) → s.ctx? n = some c →
      c.moving = true → c.eng ≠ 0x7F → s.op? je.val = some o → o.done = false → (s.entry je.val).st ≠ .squashed → (s.entry je.val).eng ≠ 0x7F →
      o.x = none → o.cur ≠ none → (s.ctxs.filter fun y => y.2.moving) = [(n, c)] →
    ∃ t, exec (.contextRebuild je) s = .next t ∧ t.ctx? n = some { c with moving := false } ∧ s.sameCtxsBut t n
      ∧ (t.port o.port).queue = insertReq o.daddr { kind := if o.wr then .wr else .rd, je := some je.val, dn := (s.entry je.val).dn
                                                    cls := (s.entry je.val).cls, age := o.age, serial := (s.entry je.val).serial
                                                    inst := (s.entry je.val).inst } (s.port o.port).queue
      ∧ s.samePortsBut t o.port ∧ t.f Fld.engMigTime_time = min 65535 ((s.ts - s.jnl.migAt) / 10)
      ∧ s.onlyFields t [(Fld.engMigTime_time, 0)] ∧ s.sameHubBut t
      ∧ t = { s.start with ctxs := t.ctxs, ports := t.ports, regs := t.regs, hub := t.hub })

/-- R178, R167, R249: indirect access to the Journal. READ loads the entry that JNL_IDX names, as its 24 bytes, or zeros where G_JNL refuses; a SCAN runs
until it finds an entry that passes the filter or reaches the end; ABORT ends it. R214, R215: a tick records the blocked set and its size; the
selection ends the youngest entry of the set with TO, counts and records it, and raises source 0x0C3; with no member left the set is dropped. -/
def Obligations.JournalAccessAndWatchdog : Prop :=
  ((∀ (s : State) (a : Acc) (v : Word) (je : Nat), je = s.f Fld.jnlIdx_je → s.jnl.scan = none →
        (s.goesWrite a .jnlCmd 0 (setBits 1 0 1 v) = true →
          (s.jnlJudge (accIdent a) je = .ok → (∀ w ∈ s.jnl.uncorr, w.1 ≠ je) → s.exOn 0 = false →
            ∃ t, exec (.read a v) s = .next t
              ∧ (∀ k < 6, t.reg .jnlData k = BitVec.ofNat 32 (fieldAt (4 * k) 4 (s.entry je).bytes)) ∧ t.f Fld.jnlStat_uncorr = 0
              ∧ s.onlyRegs t [(.jnlStat, 0), (.jnlData, 0), (.jnlData, 1), (.jnlData, 2), (.jnlData, 3), (.jnlData, 4), (.jnlData, 5)]
              ∧ t = { s.asideFrom t with regs := t.regs })
          ∧ (∀ p, s.jnlJudge (accIdent a) je = .denied p → (∀ w ∈ s.jnl.uncorr, w.1 ≠ je) → s.exOn 0 = false →
            ∃ t, exec (.read a v) s = .next t
              ∧ (∀ k < 6, t.reg .jnlData k
                  = if s.judgePart gJnl (accIdent a) (jnlAddr (s.jnlInst je) je + 4 * k) true false = .deny then 0xDEAD0BAD
                    else BitVec.ofNat 32 (fieldAt (4 * k) 4 (s.entry je).bytes)))
          ∧ (∀ p, s.jnlJudge (accIdent a) je = .bad .refuse p → s.mute 0x122 = true →
            ∃ t, exec (.read a v) s = .next t ∧ (∀ k < 6, t.reg .jnlData k = 0) ∧ s.counted t 0x122
              ∧ (FMap.get {} gJnl t.gates).refused = min ((FMap.get {} gJnl s.gates).refused + 1) 65535 ∧ s.onlyBlocks t [.jnl, .flt]
              ∧ t = { s.asideFrom t with regs := t.regs, gates := t.gates, flt := t.flt }))
        ∧ (s.goesWrite a .jnlCmd 0 (setBits 1 0 2 v) = true → (s.jnlSearch (accIdent a) (min 4194304 (je + 16)) s.scanFuel je none none).2 = none →
          ∃ t, exec (.scan a v) s = .next t
            ∧ t = { s.asideFrom t with jnl := { s.jnl with scan := some (accIdent a), scanTold := false } }))
      ∧ (∀ (s : State) (a : Acc) (v : Word), s.goesWrite a .jnlCmd 0 (setBits 1 0 3 v) = true →
        ∃ t, exec (.abort a v) s = .next t ∧ t = { s.asideFrom t with jnl := { s.jnl with scan := none } })
      ∧ (∀ (s : State) (id : Nat), s.jnl.scan = some id →
        (∀ j, s.jnlSearch id 4194304 s.scanFuel (s.f Fld.jnlIdx_je) none none = (some j, none) → (∀ w ∈ s.jnl.uncorr, w.1 ≠ j) →
            s.exOn 0 = false →
          ∃ t, exec .scanDone s = .next t ∧ t.f Fld.jnlIdx_je = j % 2 ^ 22 ∧ t.f Fld.jnlStat_hit = 1 ∧ t.f Fld.jnlStat_none = 0
            ∧ (∀ k < 6, t.reg .jnlData k = BitVec.ofNat 32 (fieldAt (4 * k) 4 (s.entry j).bytes)) ∧ t.jnl = { s.jnl with scan := none }
            ∧ s.onlyBlocks t [.jnl] ∧ t = { s.start with regs := t.regs, jnl := t.jnl })
        ∧ (s.jnlSearch id 4194304 s.scanFuel (s.f Fld.jnlIdx_je) none none = (none, none) →
          ∃ t, exec .scanDone s = .next t ∧ t.f Fld.jnlStat_hit = 0 ∧ t.f Fld.jnlStat_none = 1 ∧ t.jnl = { s.jnl with scan := none }
            ∧ s.onlyFields t [(Fld.jnlStat_hit, 0), (Fld.jnlStat_none, 0)] ∧ t = { s.start with regs := t.regs, jnl := t.jnl }))
      ∧ (∀ s : State, s.jnl.scan = none → exec .scanDone s = .next s.start))
  ∧ ((∀ s : State, s.works = true → s.fb Fld.jnlWdCfg_en = true →
        ∃ t, exec .watchdogTick s = .next t ∧ t.jnl = { s.jnl with blocked := s.blockedSet }
          ∧ (s.blockedSet ≠ [] → t.f Fld.jnlWdStat_set_size = min 65535 s.blockedSet.length) ∧ (s.blockedSet = [] → t.regs = s.regs)
          ∧ s.onlyFields t [(Fld.jnlWdStat_set_size, 0)] ∧ t = { s.start with jnl := t.jnl, regs := t.regs })
      ∧ (∀ s : State, s.works = true → s.fb Fld.jnlWdCfg_en = true →
        (∀ (je : Nat) (o : Op) (h : ReqHdr), s.youngest (s.jnl.blocked.filter fun j => s.stalled j (s.entry j)) = some je → s.directOp je o h →
            s.muteUc → (s.daddr o.port o.daddr).lock = .none →
          ∃ t, exec .watchdogSelect s = .next t ∧ .packet (s.route (s.entry je).link) (.cpl (s.cplHdr h 4 0) []) ∈ t.outp
            ∧ (t.entry je).err = 4 ∧ (t.entry je).st = .completed ∧ t.op? je = none ∧ s.sameOpsBut t je
            ∧ t.f Fld.jnlWdStat_fired = sat Fld.jnlWdStat_fired (s.f Fld.jnlWdStat_fired + 1) ∧ t.f Fld.jnlWdLast_valid = 1
            ∧ t.f Fld.jnlWdLast_je = je % 2 ^ 22 ∧ t.jnl.blocked = [] ∧ s.counted t 0x0C3 ∧ s.onlyBlocks t [.jnl, .flt])
        ∧ (s.youngest (s.jnl.blocked.filter fun j => s.stalled j (s.entry j)) = none →
          ∃ t, exec .watchdogSelect s = .next t ∧ t = { s.start with jnl := { s.jnl with blocked := [] } })))

/-- R214: the blocked set that a tick of the watchdog finds is a set of stalled entries each of which waits for a resource held by members of the set
alone, and it is the largest such set. -/
def Obligations.BlockedSetIsLargest : Prop :=
  ∀ s : State,
    (∀ je ∈ s.blockedSet, ∃ e, (je, e) ∈ s.jnl.entries ∧ s.stalled je e = true)
    ∧ (∀ je ∈ s.blockedSet, ∃ r hs, s.waitOn je = some (r, hs) ∧ ∀ h ∈ hs, h ∈ s.blockedSet)
    ∧ ∀ B : List Nat, (∀ je ∈ B, ∃ e, (je, e) ∈ s.jnl.entries ∧ s.stalled je e = true) →
        (∀ je ∈ B, ∃ r hs, s.waitOn je = some (r, hs) ∧ ∀ h ∈ hs, h ∈ B) → ∀ je ∈ B, je ∈ s.blockedSet

/-- R227, R234, R236: the chunk that a cipher unit runs appends the next data unit of a WRITE under AES-256-XTS, with the tweak of its logical block, and
counts its bytes; a failed check names the unit, on which the chunk does not run again, and is recorded against it, and the third failed run ends the
CCD with POISONED. A unit that runs no chunk of the CCD ends none. -/
def Obligations.ChunksOfTransforms : Prop :=
  (∀ (s : State) (je : Fin 4194304) (u : Fin 16) (b : Bool), s.works = true → (∀ n, FMap.find u.val s.cmp.busy ≠ some (je.val, n)) →
    exec (if b then .chunkDone je u else .chunkCheckFail je u) s = .next s.start)
  ∧ ∀ (s : State) (je : Fin 4194304) (u : Fin 16) (o : Op) (x : CcdX), s.works = true → s.op? je.val = some o →
      FMap.find u.val s.cmp.busy = some (je.val, (s.entry je.val).serial) →
      o.x = some x → o.done = false → (s.entry je.val).err = 0 → s.exOn 7 = false → s.exOn 8 = false →
    (∀ du k, 8 ≤ u.val → x.cbad = [] → x.c.enc = true → x.c.op = 2 → x.c.pst = false → du = duBytes x.c → k = x.s2.length / du →
        du * (k + 1) ≤ x.s1.length →
      ∃ t, exec (.chunkDone je u) s = .next t
        ∧ (∃ p y, t.op? je.val = some p ∧ p.x = some y
          ∧ y.s2 = x.s2 ++ xts true (s.slot x.c.keyslot).key (x.c.lbn + k) ((x.s1.drop (du * k)).take du)
          ∧ p.data = List.replicate (x.c.gaddr % 8) 0 ++ y.s2 ∧ p.cur = o.cur ∧ p.hold = o.hold)
        ∧ (∀ j, j ≠ je.val → t.op? j = s.op? j)
        ∧ t.pair Fld.cmpCuBytesLo_bytes Fld.cmpCuBytesHi_bytes = (s.pair Fld.cmpCuBytesLo_bytes Fld.cmpCuBytesHi_bytes + du) % 2 ^ 64
        ∧ (∀ v < 16, v ≠ u.val → ∀ w, FMap.find v s.cmp.busy = some w → FMap.find v t.cmp.busy = some w) ∧ s.sameHubBut t
        ∧ s.onlyRegs t [(.cmpCuBytesLo, 0), (.cmpCuBytesHi, 0)]
        ∧ t = { s.start with ops := t.ops, regs := t.regs, hub := t.hub, cmp := { s.cmp with busy := t.cmp.busy }
                             freeCount := t.freeCount, freeNext := t.freeNext })
    ∧ (¬ (badOf x u.val).contains u.val →
        ((s.cmp.fails.filter fun p => s.ts < p.2 + 100000000).filter fun p => p.1 == u.val).length < 2 →
      ((badOf x u.val).length < 2 →
        ∃ t, exec (.chunkCheckFail je u) s = .next t
          ∧ (∃ y, (t.op? je.val).bind (·.x) = some y ∧ badOf y u.val = badOf x u.val ++ [u.val] ∧ y.s0 = x.s0 ∧ y.s1 = x.s1 ∧ y.s2 = x.s2)
          ∧ (∀ j, j ≠ je.val → t.op? j = s.op? j)
          ∧ ((∃ v < 8, s.unitGone (u.val / 8 * 8 + v) = false ∧ u.val / 8 * 8 + v ∉ badOf x u.val ++ [u.val]) →
              FMap.find u.val t.cmp.busy ≠ some (je.val, (s.entry je.val).serial))
          ∧ t.cmp = { s.cmp with busy := t.cmp.busy, fails := (s.cmp.fails.filter fun p => s.ts < p.2 + 100000000) ++ [(u.val, s.ts)] }
          ∧ s.sameHubBut t
          ∧ t = { s.start with ops := t.ops, cmp := t.cmp, hub := t.hub, freeCount := t.freeCount, freeNext := t.freeNext })
      ∧ ((badOf x u.val).length = 2 → (s.entry je.val).kind = 4 → o.silent = false → s.muteUc →
        ∃ t, exec (.chunkCheckFail je u) s = .next t ∧ (t.entry je.val).err = 0xB
          ∧ t.f Fld.cmpUnitErr_failed = sat Fld.cmpUnitErr_failed (s.f Fld.cmpUnitErr_failed + 1) ∧ s.counted t 0x101
          ∧ s.sameOpsBut t je.val))

/-- R229 to R231: keys. KEK_SET stores the eight staged words as the key-encryption key of an instance that exists, KEK_CLEAR removes it, and either
clears the staging; a LOAD that passes the checks of Table 10.2 issues its read and holds the slot LOADING, one that fails a check ends with that
check's RESULT, and a CLEAR empties the slot; the unwrapped key makes the slot VALID, and a bad one leaves it as it was. -/
def Obligations.KeyCommands : Prop :=
  (∀ (s : State) (a : Acc) (v comp : Word) (i : Nat), i = v.toNat % 256 →
    (s.goesKeyed a .cmpKekLoad 0 (setBits 9 8 1 v) (setBits 9 8 2 comp) = true → (s.inst i).st ≠ .free →
        (∀ k < 8, (FMap.find k s.cmp.staged).isSome = true) →
      ∃ t, exec (.kekSet a v comp) s = .next t
        ∧ t.cmp = { s.cmp with
            keks := FMap.put i ((List.range 8).flatMap fun k => natBytes 4 (FMap.get 0 k s.cmp.staged : Word).toNat) s.cmp.keks, staged := [] }
        ∧ t.f Fld.cmpKekStat_inst = i ∧ t.f Fld.cmpKekStat_result = 1 ∧ s.onlyRegs t [(.cmpKekLoad, 0), (.cmpKekStat, 0)]
        ∧ t = { s.asideFrom t with regs := t.regs, cmp := t.cmp, keyPend := t.keyPend })
    ∧ (s.goesKeyed a .cmpKekLoad 0 (setBits 9 8 1 v) (setBits 9 8 2 comp) = true →
        (s.inst i).st = .free ∨ (∃ k < 8, (FMap.find k s.cmp.staged).isSome = false) →
      ∃ t, exec (.kekSet a v comp) s = .next t ∧ t.cmp = { s.cmp with staged := [] } ∧ t.f Fld.cmpKekStat_result = 3
        ∧ s.onlyRegs t [(.cmpKekLoad, 0), (.cmpKekStat, 0)] ∧ t = { s.asideFrom t with regs := t.regs, cmp := t.cmp, keyPend := t.keyPend })
    ∧ (s.goesKeyed a .cmpKekLoad 0 (setBits 9 8 2 v) (setBits 9 8 1 comp) = true → (s.inst i).st ≠ .free →
      ∃ t, exec (.kekClear a v comp) s = .next t ∧ t.cmp = { s.cmp with keks := FMap.del i s.cmp.keks, staged := [] }
        ∧ t.f Fld.cmpKekStat_inst = i ∧ t.f Fld.cmpKekStat_result = 2 ∧ s.onlyRegs t [(.cmpKekLoad, 0), (.cmpKekStat, 0)]
        ∧ t = { s.asideFrom t with regs := t.regs, cmp := t.cmp, keyPend := t.keyPend }))
  ∧ (∀ (s : State) (a : Acc) (i : Fin 256) (v : Word) (k : Nat), k = v.toNat % 2 ^ 12 → s.keyMay a i.val k →
    (s.goesWrite a .cmpKldCmd i.val (setBits 31 30 1 v) = true →
      (∀ kek h, s.owns i.val 2 k = true → s.slotUsers k = 0 → (s.slot k).st ≠ .loading → FMap.find i.val s.cmp.keks = some kek →
          s.mbox i.val = none → s.takeHold i.val 11 1 = some h →
          s.canRead (s.instLink i.val) (s.inst i.val).reqId.toNat
            (128 * s.f Fld.cmpKldAddrLo_addr_lo i.val + 2 ^ 32 * s.f Fld.cmpKldAddrHi_addr_hi i.val) 72 →
        ∃ t, exec (.keyLoad a i v) s = .next t ∧ t.f Fld.cmpKldStat_busy i.val = 1 ∧ t.f Fld.cmpKldStat_slot i.val = k
          ∧ t.slot k = { s.slot k with st := .loading } ∧ s.sameSlotsBut t k
          ∧ t.mbox i.val = some { slot := k, ident := accIdent a, kek := kek, hold := h }
          ∧ s.reads t i.val 3 (128 * s.f Fld.cmpKldAddrLo_addr_lo i.val + 2 ^ 32 * s.f Fld.cmpKldAddrHi_addr_hi i.val) 72 (.key i.val)
          ∧ s.onlyFields t [(Fld.cmpKldStat_busy, i.val), (Fld.cmpKldStat_slot, i.val)]
          ∧ t = { s.asideFrom t with regs := t.regs, cmp := t.cmp, freeCount := s.freeCount + 1, freeNext := t.freeNext })
      ∧ (∀ r, (s.owns i.val 2 k = false ∧ r = 3 ∨ s.owns i.val 2 k = true ∧ (s.slotUsers k ≠ 0 ∨ (s.slot k).st = .loading) ∧ r = 4
            ∨ s.owns i.val 2 k = true ∧ s.slotUsers k = 0 ∧ (s.slot k).st ≠ .loading ∧ FMap.find i.val s.cmp.keks = none ∧ r = 5) →
        ∃ t, exec (.keyLoad a i v) s = .next t ∧ t.f Fld.cmpKldStat_busy i.val = 0 ∧ t.f Fld.cmpKldStat_slot i.val = k
          ∧ t.f Fld.cmpKldStat_result i.val = r
          ∧ s.onlyFields t [(Fld.cmpKldStat_busy, i.val), (Fld.cmpKldStat_slot, i.val), (Fld.cmpKldStat_result, i.val)]
          ∧ t = { s.asideFrom t with regs := t.regs, cmp := { s.cmp with mboxes := FMap.del i.val s.cmp.mboxes } }))
    ∧ (s.goesWrite a .cmpKldCmd i.val (setBits 31 30 2 v) = true → s.owns i.val 2 k = true → s.slotUsers k = 0 → (s.slot k).st ≠ .loading →
      ∃ t, exec (.keyClear a i v) s = .next t ∧ t.f Fld.cmpKldStat_busy i.val = 0 ∧ t.f Fld.cmpKldStat_slot i.val = k
        ∧ t.f Fld.cmpKldStat_result i.val = 1 ∧ t.slot k = {} ∧ s.sameSlotsBut t k
        ∧ s.onlyFields t [(Fld.cmpKldStat_busy, i.val), (Fld.cmpKldStat_slot, i.val), (Fld.cmpKldStat_result, i.val)]
        ∧ t = { s.asideFrom t with regs := t.regs, cmp := t.cmp }))
  ∧ (∀ (s : State) (i : Fin 256) (m : Mbox) (bs : List Byte), s.works = true → s.mbox i.val = some m → m.got = some (0, bs) →
      (s.slot m.slot).st = .loading → s.judge gKey m.ident (128 * m.slot) (128 * m.slot + 127) false true = .ok →
    ∃ t, exec (.keyUnwrap i) s = .next t
      ∧ t.slot m.slot = (match keyUnwrap m.kek bs with
          | some key => if key.take 32 ≠ key.drop 32 then { st := .valid, key := key }
              else { s.slot m.slot with st := if (s.slot m.slot).key.isEmpty then .empty else .valid }
          | none => { s.slot m.slot with st := if (s.slot m.slot).key.isEmpty then .empty else .valid })
      ∧ t.f Fld.cmpKldStat_result i.val = (match keyUnwrap m.kek bs with
          | some key => if key.take 32 ≠ key.drop 32 then 1 else 8
          | none => 7)
      ∧ s.sameSlotsBut t m.slot ∧ t.f Fld.cmpKldStat_busy i.val = 0 ∧ t.mbox i.val = none
      ∧ s.onlyFields t [(Fld.cmpKldStat_busy, i.val), (Fld.cmpKldStat_result, i.val)] ∧ t = { s.start with regs := t.regs, cmp := t.cmp })

/-- R242, R244: a gate allows an access when it allows every byte of it, and what it refuses first is the refused byte with the lowest address. -/
def Obligations.GatesJudgeEveryByte : Prop :=
  ∀ (s : State) (g id a z : Nat) (rd wr : Bool), z < 2 ^ 56 →
    (s.judge g id a z rd wr = .ok ↔ ∀ p, a ≤ p → p ≤ z → s.judgePart g id p rd wr = .allow)
    ∧ ∀ r p, s.judge g id a z rd wr = .bad r p → a ≤ p ∧ p ≤ z ∧ s.judgePart g id p rd wr = r
        ∧ ∀ y, a ≤ y → y < p → s.judgePart g id y rd wr = .allow ∨ s.judgePart g id y rd wr = .deny

/-- R248, R252, R253: the registers of the gates. GATE_DEFMAP holds what its keyed pair wrote; debug unlock is set in SERVICE only, and an unlock
elsewhere is counted and ignored; the barrier's DONE is 0 from its start until it is done. -/
def Obligations.GateRegisters : Prop :=
  (∀ (s : State) (a : Acc) (m : Fin 10) (v comp : Word), s.goesKeyed a .gateDefmap m.val v comp = true →
    ∃ t, exec (.gateDefmap a m v comp) s = .next t ∧ t.reg .gateDefmap m.val = v ∧ s.onlyRegs t [(.gateDefmap, m.val)]
      ∧ t = { s.asideFrom t with regs := t.regs, keyPend := t.keyPend })
  ∧ (∀ (s : State) (a : Acc) (v comp : Word), s.goesKeyed a .gateDbgUnlock 0 v comp = true →
    (s.mode = .service ∨ v.toNat % 2 = 0 →
      ∃ t, exec (.gateDbgUnlock a v comp) s = .next t ∧ t.f Fld.gateDbgUnlock_unlock = v.toNat % 2 ∧ t.f Fld.gateDbgStat_unlocked = v.toNat % 2
        ∧ s.onlyFields t [(Fld.gateDbgUnlock_unlock, 0), (Fld.gateDbgStat_unlocked, 0)]
        ∧ t = { s.asideFrom t with regs := t.regs, keyPend := t.keyPend })
    ∧ (s.mode ≠ .service → v.toNat % 2 = 1 →
      ∃ t, exec (.gateDbgUnlock a v comp) s = .next t
        ∧ t.f Fld.gateDbgStat_unlock_ign = sat Fld.gateDbgStat_unlock_ign (s.f Fld.gateDbgStat_unlock_ign + 1)
        ∧ s.onlyFields t [(Fld.gateDbgStat_unlock_ign, 0)] ∧ t = { s.asideFrom t with regs := t.regs, keyPend := t.keyPend }))
  ∧ (∀ (s : State) (a : Acc), s.goesWrite a .gateBarrier 0 1 = true →
    ∃ t, exec (.gateBarrierStart a) s = .next t ∧ t.f Fld.gateBarrier_done = 0 ∧ s.onlyFields t [(Fld.gateBarrier_done, 0)]
      ∧ t = { s.asideFrom t with regs := t.regs })
  ∧ (∀ s : State, s.works = true →
    ∃ t, exec .gateBarrierDone s = .next t ∧ t.f Fld.gateBarrier_done = 1 ∧ s.onlyFields t [(Fld.gateBarrier_done, 0)]
      ∧ t = { s.start with regs := t.regs })

/-- R257, R272: the management queue. MGT_DB moves the tail, which starts the fetch of the command at the head, or sets BAD_DB; a write without P = 1 is
ignored and sets UNPRIV; enabling the queue clears its head and sets its phase; RESUME ends FAULT. -/
def Obligations.ManagementQueue : Prop :=
  (∀ (s : State) (a : Acc) (v : Word), s.goesWrite a .mgtDb 0 v = true →
    (accPriv a = false →
      ∃ t, exec (.mgtDb a v) s = .next t ∧ t.f Fld.mgtStat_unpriv = 1 ∧ s.onlyFields t [(Fld.mgtStat_unpriv, 0)]
        ∧ t = { s.asideFrom t with regs := t.regs })
    ∧ (accPriv a = true → 2 ^ s.f Fld.mgtQCfg_size ≤ v.toNat % 2 ^ 16 →
      ∃ t, exec (.mgtDb a v) s = .next t ∧ t.f Fld.mgtStat_bad_db = 1 ∧ s.onlyFields t [(Fld.mgtStat_bad_db, 0)]
        ∧ t = { s.asideFrom t with regs := t.regs })
    ∧ (accPriv a = true → v.toNat % 2 ^ 16 < 2 ^ s.f Fld.mgtQCfg_size →
      (s.mgt.st ≠ .run ∨ s.mgt.fetching = true ∨ s.mgt.cmd ≠ none ∨ s.mgt.head = v.toNat % 2 ^ 16 →
        ∃ t, exec (.mgtDb a v) s = .next t ∧ t.f Fld.mgtDb_tail = v.toNat % 2 ^ 16 ∧ s.onlyFields t [(Fld.mgtDb_tail, 0)]
          ∧ t = { s.asideFrom t with regs := t.regs })
      ∧ (∀ h, s.mgt.st = .run → s.mgt.fetching = false → s.mgt.cmd = none → s.mgt.head ≠ v.toNat % 2 ^ 16 →
          s.takeRoom (3 * s.mgtVc + 2) 1 = some h → s.canRead s.mgtLink s.mgtIdent (s.mgtSlot s.mgt.head) 64 →
        ∃ t, exec (.mgtDb a v) s = .next t ∧ t.f Fld.mgtDb_tail = v.toNat % 2 ^ 16 ∧ s.onlyFields t [(Fld.mgtDb_tail, 0)]
          ∧ t.mgt = { s.mgt with fetching := true, hold := h }
          ∧ (∃ tag, .packet (s.route s.mgtLink)
              (.mrd { spanHdr s.mgtVc false s.bridgeId 0 (s.mgtSlot s.mgt.head) 64 with tag := tag }) ∈ t.outp)
          ∧ t = { s.asideFrom t with regs := t.regs, mgt := t.mgt, freeCount := s.freeCount + 1, freeNext := t.freeNext })))
  ∧ (∀ (s : State) (a : Acc) (v : Word), accPriv a = true →
    (s.goesWrite a .mgtQCfg 0 (setBits 31 31 1 v) = true → s.fb Fld.mgtQCfg_en = false → s.mgt.st = .off → s.f Fld.mgtDb_tail = 0 →
      ∃ t, exec (.mgtEnable a v) s = .next t ∧ t.f Fld.mgtQCfg_en = 1 ∧ t.f Fld.mgtQCfg_size = bits 4 0 v.toNat
        ∧ t.f Fld.mgtQCfg_link = bits 22 22 v.toNat ∧ t.f Fld.mgtQCfg_vc = bits 21 20 v.toNat
        ∧ t.mgt = { s.mgt with head := 0, phase := true, st := .run } ∧ s.onlyRegs t [(.mgtQCfg, 0)]
        ∧ t = { s.asideFrom t with regs := t.regs, mgt := t.mgt })
    ∧ (s.goesWrite a .mgtCtl 0 (setBits 0 0 1 v) = true → s.mgt.st = .fault → s.mgt.heldRes = [] → s.mgt.head = s.f Fld.mgtDb_tail →
      ∃ t, exec (.mgtResume a v) s = .next t ∧ t.mgt = { s.mgt with st := if s.fb Fld.mgtQCfg_en then .run else .off }
        ∧ t = { s.asideFrom t with mgt := t.mgt }))

/-- R258 to R262: the commands that create and change instances. Each that passes its checks has its effect and the result OK, and one that fails a check
changes no instance and has that check's RESULT and DETAIL. R263 to R265, R267: resets. A RESET in DRAIN mode, or with SQUASH, and a DESTROY, change
the instance's state and leave their result owed; a DRAIN that takes too long is squashed; of a squashed instance no context and no waiting request is
left; when everything is over the instance is ACTIVE again, or gone, and the result is written with what was escalated and squashed. -/
def Obligations.InstanceCommands : Prop :=
  ((∀ (s : State) (i : Nat) (b : List Byte),
        (∀ q, s.mgtReady 1 i b → s.createCheck i b = none → listBytes b = 0 → s.mgt.list = [] → s.mgt.listOut = false → s.mgt.listErr = 0 →
            s.createQuota b = some q → s.poolLacks (fun _ => 0) q 127 = none →
          ∃ t, exec .create s = .next t
            ∧ t.inst i = { st := .active, reqId := BitVec.ofNat 20 (fieldAt 4 4 b), jquota := q.jq, lquota := q.lq, weight := q.weight
                           winallow := q.win, dnallow := q.dn, keyallow := q.key, c0rate := q.rate, c0depth := State.keptDepth q
                           c0tokens := 65536 * State.keptDepth q }
            ∧ s.sameInstsBut t i ∧ s.mgtTold t 1 0 ∧ (∀ k, Block.bi.base + i * 0x10000 ≤ k → k < Block.bi.base + (i + 1) * 0x10000 →
                FMap.find k t.regs = none ∧ FMap.find k t.shadow = none)
            ∧ t = { s.start with insts := t.insts, regs := t.regs, shadow := t.shadow, hiShadow := t.hiShadow, qps := t.qps, pels := t.pels
                                 mgt := t.mgt, links := t.links, outp := t.outp })
        ∧ (∀ r d, s.mgtReady 1 i b → s.createCheck i b = some (r, d) →
          ∃ t, exec .create s = .next t ∧ s.mgtTold t r d ∧ s.onlyFields t [(Fld.mgtCnt_done, 0), (Fld.mgtCnt_failed, 0)]
            ∧ t = { s.start with regs := t.regs, mgt := t.mgt, links := t.links, outp := t.outp })
        ∧ (s.mgtReady 2 i b → s.resizeCheck i b = none → s.evOn i 7 = false →
          ∃ t, exec .resize s = .next t ∧ s.mgtTold t 1 0 ∧ s.sameInstsBut t i
            ∧ (t.inst i).jquota = (if bit 0 (fieldAt 4 4 b) then (quotaOf (b.drop 8)).jq else (s.inst i).jquota)
            ∧ (t.inst i).lquota = (if bit 1 (fieldAt 4 4 b) then (quotaOf (b.drop 8)).lq else (s.inst i).lquota)
            ∧ (t.inst i).weight = (if bit 2 (fieldAt 4 4 b) then (quotaOf (b.drop 8)).weight else (s.inst i).weight)
            ∧ (t.inst i).winallow = (if bit 3 (fieldAt 4 4 b) then (quotaOf (b.drop 8)).win else (s.inst i).winallow)
            ∧ (t.inst i).dnallow = (if bit 4 (fieldAt 4 4 b) then (quotaOf (b.drop 8)).dn else (s.inst i).dnallow)
            ∧ (t.inst i).keyallow = (if bit 5 (fieldAt 4 4 b) then (quotaOf (b.drop 8)).key else (s.inst i).keyallow)
            ∧ (t.inst i).c0rate = (if bit 6 (fieldAt 4 4 b) then (quotaOf (b.drop 8)).rate else (s.inst i).c0rate)
            ∧ (t.inst i).owned = (s.inst i).owned ∧ (t.inst i).st = .active
            ∧ t = { s.start with insts := t.insts, regs := t.regs, mgt := t.mgt, links := t.links, outp := t.outp })
        ∧ (∀ r, s.mgtReady 5 i b → s.assignCheck i b = none → r = rangeOf (slice 8 8 b) → s.evOn i 7 = false →
          ∃ t, exec .assign s = .next t ∧ s.mgtTold t 1 0 ∧ s.sameInstsBut t i ∧ t.inst i = { s.inst i with owned := (s.inst i).owned ++ [r] }
            ∧ (r.kind = 0 → ∀ k, r.first ≤ k → k < r.first + r.count →
                FMap.get 0 k t.tbl.dvt = State.ownEntry 16 4 (some i) (FMap.get 0 k s.tbl.dvt : BitVec 128))
            ∧ (r.kind = 1 → ∀ k, r.first ≤ k → k < r.first + r.count →
                FMap.get 0 k t.tbl.wtt = State.ownEntry 32 2 (some i) (FMap.get 0 k s.tbl.wtt : BitVec 256))
            ∧ (r.kind = 2 → ∀ k, r.first ≤ k → k < r.first + r.count → t.slot k = {})
            ∧ t = { s.start with insts := t.insts, regs := t.regs, mgt := t.mgt, links := t.links, outp := t.outp, tbl := t.tbl, dns := t.dns
                                 ports := t.ports, cmp := t.cmp })
        ∧ (∀ r, s.mgtReady 6 i b → s.releaseCheck i b = none → r = rangeOf (slice 8 8 b) → s.evOn i 7 = false →
          ∃ t, exec .release s = .next t ∧ s.mgtTold t 1 0 ∧ s.sameInstsBut t i
            ∧ t.inst i = { s.inst i with owned := (s.inst i).owned.flatMap fun o => o.minus r }
            ∧ (r.kind = 2 → ∀ k, r.first ≤ k → k < r.first + r.count → t.slot k = {})
            ∧ t = { s.start with insts := t.insts, regs := t.regs, mgt := t.mgt, links := t.links, outp := t.outp, tbl := t.tbl, dns := t.dns
                                 ports := t.ports, cmp := t.cmp })))
  ∧ ((∀ (s : State) (i : Nat) (b : List Byte),
        (s.mgtReady 3 i b → s.resetCheck i b = none → bit 31 (fieldAt 4 4 b) = false → s.evOn i 7 = false →
            (∀ l < 2, ∀ x ∈ (s.link l).held, foundInst x.found ≠ some i) →
          ∃ t, exec .reset s = .next t
            ∧ t.inst i = { s.inst i with st := .drain, squashed := 0, escalated := false
                                         owed := (s.inst i).owed ++ [(s.mgt.slot, s.mgt.slotPhase)] }
            ∧ s.sameInstsBut t i ∧ t.mgt = { s.mgt with cmd := none, list := [], listOut := false, listErr := 0 }
            ∧ t = { s.start with insts := t.insts, mgt := t.mgt })
        ∧ (s.mgtReady 3 i b → s.resetCheck i b = none → bit 31 (fieldAt 4 4 b) = true →
          ∃ t, exec .reset s = .next t ∧ (t.inst i).st = .squash ∧ (t.inst i).owed = (s.inst i).owed ++ [(s.mgt.slot, s.mgt.slotPhase)]
            ∧ ((t.inst i).escalated = true ↔ (s.inst i).st = .drain) ∧ s.sameInstsBut t i ∧ (∀ c ∈ t.ctxs, c.2.inst ≠ i)
            ∧ (∀ x ∈ t.jnl.reserved, x.2 ≠ i) ∧ (∀ l < 2, ∀ x ∈ (t.link l).held, foundInst x.found ≠ some i))
        ∧ (s.mgtReady 4 i b → (badCmd [(4, fieldAt 4 52 b != 0)]) = none → (s.inst i).st = .active →
          ∃ t, exec .destroy s = .next t ∧ (t.inst i).st = .squash ∧ (t.inst i).destroying = true
            ∧ (t.inst i).owed = (s.inst i).owed ++ [(s.mgt.slot, s.mgt.slotPhase)] ∧ s.sameInstsBut t i ∧ (∀ c ∈ t.ctxs, c.2.inst ≠ i)))
      ∧ (∀ (s : State) (i : Fin 256), s.works = true →
        ((s.inst i.val).st = .drain →
          ∃ t, exec (.drainTimeout i) s = .next t ∧ (t.inst i.val).st = .squash ∧ (t.inst i.val).escalated = true ∧ s.sameInstsBut t i.val
            ∧ (∀ c ∈ t.ctxs, c.2.inst ≠ i.val) ∧ (∀ x ∈ t.jnl.reserved, x.2 ≠ i.val)
            ∧ (∀ l < 2, ∀ x ∈ (t.link l).held, foundInst x.found ≠ some i.val))
        ∧ ((s.inst i.val).st ≠ .drain → exec (.drainTimeout i) s = .next s.start))
      ∧ (∀ (s : State) (i : Fin 256) (slot : Nat) (ph : Bool), s.works = true → (s.inst i.val).st = .drain ∨ (s.inst i.val).st = .squash →
          (∀ p ∈ s.jnl.entries, p.2.inst ≠ i.val) → s.locksOf i.val = [] → s.mbox i.val = none → (∀ c ∈ s.ctxs, c.2.inst ≠ i.val) →
          (s.inst i.val).owed = [(slot, ph)] → s.mgt.st ≠ .fault → s.mgt.heldRes = [] →
          s.judge (gTlink s.mgtLink) s.mgtIdent (s.mgtSlot slot + 56) (s.mgtSlot slot + 63) false true = .ok →
        ∃ t, exec (.resetCompletion i) s = .next t
          ∧ .packet (s.route s.mgtLink) (.mwr (spanHdr s.mgtVc false s.bridgeId 0 (s.mgtSlot slot + 56) 8)
              (natBytes 4 (b2n ph * 2 ^ 31 + 65536 + b2n (s.inst i.val).escalated) ++ natBytes 4 (s.inst i.val).squashed)) ∈ t.outp
          ∧ t.f Fld.mgtCnt_done = sat Fld.mgtCnt_done (s.f Fld.mgtCnt_done + 1) ∧ s.sameInstsBut t i.val
          ∧ ((s.inst i.val).destroying = false → t.inst i.val = { s.inst i.val with
              st := .active, escalated := false, owed := [], squashed := 0, c0tokens := 65536 * (s.inst i.val).c0depth })
          ∧ ((s.inst i.val).destroying = true → t.inst i.val = {} ∧ FMap.find i.val t.cmp.keks = none)
          ∧ s.onlyBlocks t [.bi, .mgt]))

/-- R286 to R288: the slices of self-test start. In RUN a period starts a memory slice on the target that R286 lists first, with the lowest free spare to
stand in for it, or ends it SKIPPED where none is free; an active engine's place passes to the spare on that edge; outside RUN none starts, and while
droop lasts the start waits until adaptation resumes. R176, R287, R288: the end of Prepare. A target that is a spare is isolated; otherwise its
stand-in takes its role and index and it is an isolated spare, on one edge; an engine's test begins once it holds no context. -/
def Obligations.SlicesStartAndPrepare : Prop :=
  ((∀ (s : State) (n : Nat), s.mode = .run → s.phase = .steady → s.fb Fld.bstCfg_en = true → s.pwr.droop = false →
          s.fb Fld.bstCfg_eng_en = false → s.bst.mem.st = .idle →
        (((s.againTarget .mem).orElse fun _ => (s.untestedSpare .mem).orElse fun _ => s.outOfTurn .mem) = some n →
          ((s.sub n).role = .spare →
            ∃ t, exec .sliceStart s = .next t ∧ t = { s.start with bst := { s.bst with
              periods := s.bst.periods + 1, startDue := false
              mem := { s.bst.mem with st := .prepare, target := n, standin := 0, wasLanding := false, cut := false } } })
          ∧ (∀ k, (s.sub n).role ≠ .spare → s.spareSub = some k →
            ∃ t, exec .sliceStart s = .next t ∧ t = { s.start with bst := { s.bst with
              periods := s.bst.periods + 1, startDue := false
              mem := { s.bst.mem with st := .prepare, target := n, standin := k, wasLanding := (s.sub n).role == .landing, cut := false } } })
          ∧ ((s.sub n).role ≠ .spare → s.spareSub = none → s.mute 0x1C3 = true →
            ∃ t, exec .sliceStart s = .next t ∧ t.bst.mem.st = .idle ∧ t.bst.mem.res = .skipped ∧ t.f Fld.bstLastMem_valid = 1
              ∧ t.f Fld.bstLastMem_result = 4 ∧ t.f Fld.bstLastMem_target = n % 2 ^ 11
              ∧ t.f Fld.bstCnt2_skipped = sat Fld.bstCnt2_skipped (s.f Fld.bstCnt2_skipped + 1) ∧ s.counted t 0x1C3 ∧ s.onlyBlocks t [.bst, .flt]
              ∧ t = { s.start with bst := t.bst, regs := t.regs, flt := t.flt }))
        ∧ (∀ k, ((s.againTarget .mem).orElse fun _ => (s.untestedSpare .mem).orElse fun _ => s.outOfTurn .mem) = none →
            s.nextTarget .mem = some n → (∀ l, s.bst.mem.last4 = some l → l < n) → (s.sub n).role ≠ .spare → s.spareSub = some k →
          ∃ t, exec .sliceStart s = .next t ∧ t = { s.start with bst := { s.bst with
            periods := s.bst.periods + 1, startDue := false
            mem := { s.bst.mem with
              st := .prepare, target := n, standin := k, wasLanding := (s.sub n).role == .landing, cut := false, last4 := some n } } }))
      ∧ (∀ (s : State) (n k : Nat), s.mode = .run → s.phase = .steady → s.fb Fld.bstCfg_en = true → s.pwr.droop = false →
          s.bst.mem.st ≠ .idle → s.fb Fld.bstCfg_eng_en = true → (s.bst.periods + 1) % s.f Fld.bstCfg_eng_div = 0 →
          s.bst.eng.st = .idle → ((s.againTarget .eng).orElse fun _ => s.untestedSpare .eng) = some n → (s.eng n).role = .active →
          s.spareEng = some k → k ≠ n →
        ∃ t, exec .sliceStart s = .next t ∧ t.eng n = { s.eng n with role := .spare, testing := true } ∧ t.eng k = { s.eng k with role := .active }
          ∧ (∀ e, e ≠ n → e ≠ k → t.eng e = s.eng e)
          ∧ t.bst = { s.bst with
              periods := s.bst.periods + 1, startDue := false
              eng := { s.bst.eng with st := .prepare, target := n, standin := k, cut := false } }
          ∧ t = { s.start with engs := t.engs, bst := t.bst, pwr := t.pwr })
      ∧ (∀ s : State, s.pwr.droop = false → s.mode ≠ .run ∨ s.phase ≠ .steady ∨ s.fb Fld.bstCfg_en = false →
        exec .sliceStart s = .next { s.start with bst := { s.bst with startDue := false } })
      ∧ (∀ s : State, s.pwr.droop = true →
        (s.mode = .run → s.phase = .steady → s.fb Fld.bstCfg_en = true →
          exec .sliceStart s = .next { s.start with bst := { s.bst with startDue := true } })
        ∧ (s.mode ≠ .run ∨ s.phase ≠ .steady ∨ s.fb Fld.bstCfg_en = false → exec .sliceStart s = .next s.start))
      ∧ (∀ s : State, s.pwr.droop = false → s.bst.startDue = true →
        exec .adaptationResume s = exec .sliceStart { s with pwr := { s.pwr with adaptFrozen := false } }))
  ∧ ((∀ (s : State) (n k : Nat), s.works = true → s.bst.mem.st = .prepare → s.bst.mem.target = n → s.bst.mem.standin = k → s.bst.mem.cut = false →
        ((s.sub n).role = .spare →
          ∃ t, exec (.slicePrepared .mem) s = .next t ∧ t.sub n = { s.sub n with isolated := true } ∧ (∀ m, m ≠ n → t.sub m = s.sub m)
            ∧ t.bst.mem = { s.bst.mem with st := .test } ∧ t = { s.start with bst := t.bst })
        ∧ ((s.sub n).role ≠ .spare → k ≠ n →
          ∃ t, exec (.slicePrepared .mem) s = .next t ∧ t.sub k = { s.sub k with role := (s.sub n).role, index := (s.sub n).index }
            ∧ t.sub n = { s.sub n with role := .spare, index := 0, isolated := true } ∧ (∀ m, m ≠ n → m ≠ k → t.sub m = s.sub m)
            ∧ t.bst.mem = { s.bst.mem with st := .test } ∧ (∀ m ∈ t.landOut, m ≠ n) ∧ (∀ w ∈ t.jnl.withheld, s.jnlSub w.1 w.2 ≠ n)
            ∧ t.jnl.entries = s.jnl.entries ∧ s.onlyRegs t [(.jnlMigCnt, 0)]
            ∧ t = { s.start with bst := t.bst, jnl := t.jnl, landOut := t.landOut, regs := t.regs }))
      ∧ (∀ (s : State) (n k : Fin 1056), s.works = true → s.bst.mem.st = .prepare → s.bst.mem.target = n.val → s.bst.mem.standin = k.val →
          (s.sub n.val).role ≠ .spare → exec (.subbankSwap n k) s = exec (.slicePrepared .mem) s)
      ∧ (∀ (s : State) (n k : Fin 1056), s.works = true → s.bst.mem.st = .prepare → s.bst.mem.target = n.val → s.bst.mem.standin = k.val →
          s.bst.mem.cut = false → (s.sub n.val).role ≠ .spare → k ≠ n →
        ∃ t, exec (.subbankSwap n k) s = .next t ∧ t.sub k.val = { s.sub k.val with role := (s.sub n.val).role, index := (s.sub n.val).index }
          ∧ t.sub n.val = { s.sub n.val with role := .spare, index := 0, isolated := true })
      ∧ (∀ s : State, s.works = true → s.bst.eng.st = .prepare → s.bst.eng.cut = false → s.ctxsOf s.bst.eng.target = [] →
        ∃ t, exec (.slicePrepared .eng) s = .next t ∧ t = { s.start with bst := { s.bst with eng := { s.bst.eng with st := .test } } }))

/-- R289, R291: a slice is judged. With the whole count it passes when its signature is the expected one and no memory compare failed, and fails
otherwise; a slice that its time limit ends is INCOMPLETE whatever its signature. R287, R288, R293: the end of Restore. The target is a tested spare
after PASS, an untested one after INCOMPLETE, and FAILED (an engine: retired) after FAIL, when its repair is recorded; the slice machine is idle. -/
def Obligations.SlicesAreJudgedAndRestored : Prop :=
  ((∀ (s : State) (r : SliceResult), s.works = true → s.bst.mem.st = .test →
        (r.misr = r.expected → r.cells = [] →
          ∃ t, exec (.sliceTestDone .mem r) s = .next t ∧ t.f Fld.bstLastMem_result = 1 ∧ t.f Fld.bstLastMem_count = 12288
            ∧ t.f Fld.bstLastMem_target = s.bst.mem.target % 2 ^ 11 ∧ t.reg .bstMisrMem = r.misr ∧ t.reg .bstMisrMemExp = r.expected
            ∧ t.f Fld.bstCnt_passes = sat Fld.bstCnt_passes (s.f Fld.bstCnt_passes + 1) ∧ t.bst.mem.st = .restore ∧ t.bst.mem.res = .pass
            ∧ s.onlyBlocks t [.bst] ∧ t = { s.start with bst := { s.bst with mem := t.bst.mem }, regs := t.regs })
        ∧ (r.misr ≠ r.expected ∨ r.cells ≠ [] → s.mute 0x1C0 = true →
          ∃ t, exec (.sliceTestDone .mem r) s = .next t ∧ t.f Fld.bstLastMem_result = 2 ∧ t.bst.mem.st = .restore ∧ t.bst.mem.res = .fail
            ∧ t.bst.mem.cells = r.cells ∧ t.f Fld.bstCnt_fails = sat Fld.bstCnt_fails (s.f Fld.bstCnt_fails + 1) ∧ s.counted t 0x1C0
            ∧ (∀ c cs, r.cells = c :: cs → t.f Fld.bstFailMem_row = c.1 % 2 ^ 11 ∧ t.f Fld.bstFailMem_bit = c.2 % 2 ^ 9
                ∧ t.f Fld.bstFailMem_ncells = min r.cells.length 2047)
            ∧ s.onlyBlocks t [.bst, .flt])
        ∧ (s.bst.mem.incRun < 2 →
          ∃ t, exec (.sliceTimeLimit .mem r) s = .next t ∧ t.f Fld.bstLastMem_result = 3 ∧ t.f Fld.bstLastMem_count = min r.count 12287
            ∧ t.f Fld.bstCnt_incomplete = sat Fld.bstCnt_incomplete (s.f Fld.bstCnt_incomplete + 1) ∧ t.bst.mem.st = .restore
            ∧ t.bst.mem.res = .incomplete ∧ s.onlyBlocks t [.bst] ∧ t = { s.start with bst := { s.bst with mem := t.bst.mem }, regs := t.regs }))
      ∧ (∀ (s : State) (r : SliceResult), s.works = true → s.bst.eng.st = .test →
        (r.misr = r.expected →
          ∃ t, exec (.sliceTestDone .eng r) s = .next t ∧ t.f Fld.bstLastEng_result = 1 ∧ t.f Fld.bstLastEng_count = 3200
            ∧ t.bst.eng.st = .restore ∧ t.bst.eng.res = .pass ∧ t.f Fld.bstCnt_passes = sat Fld.bstCnt_passes (s.f Fld.bstCnt_passes + 1)
            ∧ s.onlyBlocks t [.bst] ∧ t = { s.start with bst := { s.bst with eng := t.bst.eng }, regs := t.regs })
        ∧ (r.misr ≠ r.expected → s.mute 0x1C1 = true →
          ∃ t, exec (.sliceTestDone .eng r) s = .next t ∧ t.f Fld.bstLastEng_result = 2 ∧ t.bst.eng.st = .restore ∧ t.bst.eng.res = .fail
            ∧ t.f Fld.bstCnt_fails = sat Fld.bstCnt_fails (s.f Fld.bstCnt_fails + 1) ∧ s.counted t 0x1C1 ∧ s.onlyBlocks t [.bst, .flt])
        ∧ (s.bst.eng.incRun < 2 →
          ∃ t, exec (.sliceTimeLimit .eng r) s = .next t ∧ t.f Fld.bstLastEng_result = 3 ∧ t.f Fld.bstLastEng_count = min r.count 3199
            ∧ t.bst.eng.st = .restore ∧ t.bst.eng.res = .incomplete ∧ s.onlyBlocks t [.bst])))
  ∧ ((∀ (s : State) (n : Nat), s.works = true → s.mode ≠ .service → s.bst.mem.st = .restore → s.bst.mem.target = n → s.bst.fg = false →
        ∃ t, exec (.sliceRestored .mem) s = .next t
          ∧ t.sub n = { s.sub n with role := if s.bst.mem.res = .fail then .failed else .spare, untested := s.bst.mem.res == .incomplete
                                     isolated := false }
          ∧ (∀ m, m ≠ n → t.sub m = s.sub m) ∧ t.bst.mem = { s.bst.mem with st := .idle, cells := [] }
          ∧ (s.bst.mem.res ≠ .fail → t.bst.pendingRec = s.bst.pendingRec ∧ t = { s.start with bst := t.bst })
          ∧ (s.bst.mem.res = .fail → s.bst.soft.length + s.bst.pendingRec.length + 12 ≤ 4096 →
              t.bst.pendingRec = s.bst.pendingRec ++ repairFor n (s.sub n).cols (s.sub n).rows s.bst.mem.cells ∧ t = { s.start with bst := t.bst }))
      ∧ (∀ (s : State) (n : Nat), s.works = true → s.mode ≠ .service → s.bst.eng.st = .restore → s.bst.eng.target = n → s.bst.fg = false →
        ∃ t, exec (.sliceRestored .eng) s = .next t
          ∧ t.eng n = { s.eng n with role := if s.bst.eng.res = .fail then .retired else .spare, untested := s.bst.eng.res == .incomplete
                                     testing := false }
          ∧ (∀ m, m ≠ n → t.eng m = s.eng m) ∧ t.bst.eng = { s.bst.eng with st := .idle, cells := [] }
          ∧ (s.bst.eng.res ≠ .fail → t = { s.start with bst := { s.bst with eng := t.bst.eng }, engs := t.engs })
          ∧ (s.bst.eng.res = .fail → s.bst.soft.length + s.bst.pendingRec.length < 4096 →
              t.bst.pendingRec = s.bst.pendingRec ++ [{ kind := 3, unit := n }])))

/-- R293: the repair of a sub-bank. Where the records do not give the sub-bank up, every failing cell lies in a replaced column or row, and at most 4
columns and 8 rows are in use. -/
def Obligations.RepairsCoverEveryCell : Prop :=
  ∀ (t cu ru : Nat) (cells : List (Nat × Nat)),
    repairFor t cu ru cells = [{ kind := 0, unit := t }]
    ∨ ((∀ c ∈ cells, ∃ r ∈ repairFor t cu ru cells, r.kind = 2 ∧ r.pos = c.2 ∨ r.kind = 1 ∧ r.pos = c.1)
      ∧ (∀ r ∈ repairFor t cu ru cells, r.unit = t ∧ (r.kind = 2 ∧ cu ≤ r.spare ∧ r.spare < 4 ∨ r.kind = 1 ∧ ru ≤ r.spare ∧ r.spare < 8)))

/-- R292: the commands of BST_CMD. ONE starts a slice on its target in RUN or SERVICE while its kind is idle; FOREGROUND, in SERVICE, starts with the
lowest targets that can be tested, and takes a kind that is busy when its slice ends; STOP ends it; a command that cannot run sets CMD_IGN. R284: the
checker exercise. In SERVICE, with none running, an armed exercise of a group and mode that exist makes the group's next N checks see inverted check
bits; any other write sets IGNORED. -/
def Obligations.SelfTestAndExercise : Prop :=
  ((∀ (s : State) (a : Acc) (v : Word),
        (∀ n, s.goesWrite a .bstCmd 0 (setBits 31 30 3 v) = true → n = v.toNat % 2048 → bit 11 v.toNat = false → s.mode = .run ∨ s.mode = .service →
            s.bst.mem.st = .idle → n < 1056 → (s.sub n).role = .spare →
          ∃ t, exec (.one a v) s = .next t
            ∧ t = { s.asideFrom t with bst := { s.bst with
                mem := { s.bst.mem with st := .prepare, target := n, standin := 0, wasLanding := false, cut := false } } })
        ∧ (s.goesWrite a .bstCmd 0 (setBits 31 30 3 v) = true →
            (s.mode ≠ .run ∧ s.mode ≠ .service ∨ (s.sliceOf (if bit 11 v.toNat then .eng else .mem)).st ≠ .idle
              ∨ s.canTest (if bit 11 v.toNat then .eng else .mem) (v.toNat % 2048) = false) →
          ∃ t, exec (.one a v) s = .next t ∧ t.f Fld.bstStat_cmd_ign = 1 ∧ s.onlyFields t [(Fld.bstStat_cmd_ign, 0)]
            ∧ t = { s.asideFrom t with regs := t.regs })
        ∧ (∀ n e, s.goesWrite a .bstCmd 0 (setBits 31 30 1 v) = true → s.mode = .service → s.bst.mem.st = .idle →
            s.bst.eng.st = .idle → (∀ m < n, s.canTest .mem m = false) → n < 1056 → (s.sub n).role = .spare →
            (∀ m < e, s.canTest .eng m = false) → e < 104 → (s.eng e).role = .spare →
          ∃ t, exec (.foreground a v) s = .next t
            ∧ t.bst = { s.bst with
                fg := true, fgMem := n + 1, fgEng := e + 1, fgStop := false
                mem := { s.bst.mem with st := .prepare, target := n, standin := 0, wasLanding := false, cut := false }
                eng := { s.bst.eng with st := .prepare, target := e, standin := 0, cut := false } }
            ∧ t.eng e = { s.eng e with testing := true } ∧ t = { s.asideFrom t with bst := t.bst, engs := t.engs })
        ∧ (s.goesWrite a .bstCmd 0 (setBits 31 30 1 v) = true → s.mode = .service → s.bst.mem.st ≠ .idle → s.bst.eng.st ≠ .idle →
          ∃ t, exec (.foreground a v) s = .next t
            ∧ t = { s.asideFrom t with bst := { s.bst with fg := true, fgMem := 0, fgEng := 0, fgStop := false } })
        ∧ (s.goesWrite a .bstCmd 0 (setBits 31 30 1 v) = true → s.mode ≠ .service →
          ∃ t, exec (.foreground a v) s = .next t ∧ t.f Fld.bstStat_cmd_ign = 1 ∧ s.onlyFields t [(Fld.bstStat_cmd_ign, 0)]
            ∧ t = { s.asideFrom t with regs := t.regs })
        ∧ (s.goesWrite a .bstCmd 0 (setBits 31 30 2 v) = true → s.bst.fg = true → s.pwr.runAfterFg = false → s.bst.mem.st ≠ .test →
            s.bst.eng.st ≠ .test →
          ∃ t, exec (.stop a v) s = .next t ∧ t = { s.asideFrom t with bst := { s.bst with
            fg := !(s.bst.mem.st == .idle && s.bst.eng.st == .idle), fgStop := !(s.bst.mem.st == .idle && s.bst.eng.st == .idle) } })
        ∧ (s.goesWrite a .bstCmd 0 (setBits 31 30 2 v) = true → s.bst.fg = false →
          ∃ t, exec (.stop a v) s = .next t ∧ t.f Fld.bstStat_cmd_ign = 1 ∧ s.onlyFields t [(Fld.bstStat_cmd_ign, 0)]
            ∧ t = { s.asideFrom t with regs := t.regs })))
  ∧ (∀ (s : State) (a : Acc) (v comp : Word), s.goesKeyed a .fltChkExercise 0 v comp = true →
        (s.mode = .service → s.flt.exLeft = 0 → bits 12 8 v.toNat ≤ 11 → bits 1 0 v.toNat ≤ 1 → bit 31 v.toNat = true →
          ∃ t, exec (.fltChkExercise a v comp) s = .next t
            ∧ t.flt = { s.start.flt with exGroup := bits 12 8 v.toNat, exMode := bits 1 0 v.toNat, exLeft := bits 23 16 v.toNat }
            ∧ s.onlyRegs t [(.fltChkExercise, 0)] ∧ t = { s.asideFrom t with regs := t.regs, flt := t.flt, keyPend := t.keyPend })
        ∧ (s.mode ≠ .service ∨ s.flt.exLeft ≠ 0 ∨ 11 < bits 12 8 v.toNat ∨ 1 < bits 1 0 v.toNat →
          ∃ t, exec (.fltChkExercise a v comp) s = .next t ∧ t.f Fld.fltChkStat_ignored = 1
            ∧ s.onlyRegs t [(.fltChkExercise, 0), (.fltChkStat, 0)] ∧ t = { s.asideFrom t with regs := t.regs, keyPend := t.keyPend }))

/-- R295: fuse commands. Outside SERVICE they end with MODE; in SERVICE, with the fuse supply there (a free value of the model, log entry 4), the records
that fuses do not hold, or one engine's, are programmed one by one; without it the command ends with NO_VPP, at its start or before a further record.
A record that fails its verify ends the command and raises 0x1C5. A command goes on in SERVICE only. R347: the SVN burn. Outside SERVICE it ends with
MODE; in SERVICE, with the fuse supply there (a free value of the model, log entry 4), a value above MIN_SVN and not above the running image's is
programmed, and any other ends with BAD_VALUE; a burn that verifies raises MIN_SVN. -/
def Obligations.FuseAndSvnCommands : Prop :=
  ((∀ (s : State) (a : Acc) (v comp : Word), s.bst.burn = none →
        (s.goesKeyed a .bstFuseCmd 0 (setBits 9 8 1 v) (setBits 9 8 2 comp) = true →
          (s.mode ≠ .service →
            ∃ t, exec (.burn a v comp) s = .next t ∧ t.f Fld.bstFuseStat_result = 2 ∧ t.f Fld.bstFuseStat_burned = 0 ∧ s.onlyRegs t [(.bstFuseCmd, 0), (.bstFuseStat, 0)]
              ∧ t = { s.asideFrom t with regs := t.regs, keyPend := t.keyPend })
          ∧ (s.mode = .service → s.freeNext % 2 = 0 →
            ∃ t, exec (.burn a v comp) s = .next t ∧ t.f Fld.bstFuseStat_result = 3 ∧ t.f Fld.bstFuseStat_burned = 0 ∧ s.onlyRegs t [(.bstFuseCmd, 0), (.bstFuseStat, 0)]
              ∧ t = { s.asideFrom t with regs := t.regs, keyPend := t.keyPend, freeCount := s.freeCount + 1, freeNext := t.freeNext })
          ∧ (∀ rs, s.mode = .service → s.freeNext % 2 = 1 → rs = (s.bst.soft ++ s.bst.pendingRec).filter (fun r => !s.bst.fuses.contains r) →
              rs ≠ [] → s.bst.fuses.length < 1024 →
            ∃ t, exec (.burn a v comp) s = .next t ∧ t.bst = { s.bst with burn := some rs } ∧ t.f Fld.bstFuseStat_burned = 0
              ∧ s.onlyRegs t [(.bstFuseCmd, 0), (.bstFuseStat, 0)]
              ∧ t = { s.asideFrom t with regs := t.regs, keyPend := t.keyPend, bst := t.bst, freeCount := s.freeCount + 1, freeNext := t.freeNext }))
        ∧ (s.goesKeyed a .bstFuseCmd 0 (setBits 9 8 2 v) (setBits 9 8 1 comp) = true → s.mode = .service → s.freeNext % 2 = 1 →
            s.bst.fuses.length < 1024 →
          ∃ t, exec (.engine a v comp) s = .next t ∧ t.bst = { s.bst with burn := some [{ kind := 3, unit := v.toNat % 128 }] }
            ∧ t.f Fld.bstFuseStat_burned = 0 ∧ s.onlyRegs t [(.bstFuseCmd, 0), (.bstFuseStat, 0)]))
      ∧ (∀ (s : State) (b : Bool), s.mode ≠ .service ∨ s.bst.burn = none → exec (.fuseRecordDone b) s = .next s.start)
      ∧ (∀ (s : State) (r : Repair) (rs : List Repair), s.bst.burn = some (r :: rs) → s.pwr.runAfterFg = false → s.mode = .service →
        (∃ t, exec (.fuseRecordDone true) s = .next t ∧ t.bst = { s.bst with fuses := s.bst.fuses ++ [r], burn := t.bst.burn }
          ∧ t.f Fld.bstFuseStat_burned = sat Fld.bstFuseStat_burned (s.f Fld.bstFuseStat_burned + 1)
          ∧ (rs = [] → t.bst.burn = none ∧ t.f Fld.bstFuseStat_result = 1 ∧ t.freeCount = s.freeCount)
          ∧ (rs ≠ [] → s.freeNext % 2 = 0 → t.bst.burn = none ∧ t.f Fld.bstFuseStat_result = 3)
          ∧ (rs ≠ [] → s.freeNext % 2 = 1 → 1023 ≤ s.bst.fuses.length → t.bst.burn = none ∧ t.f Fld.bstFuseStat_result = 5)
          ∧ (rs ≠ [] → s.freeNext % 2 = 1 → s.bst.fuses.length < 1023 → t.bst.burn = some rs)
          ∧ s.onlyRegs t [(.bstFuseStat, 0)]
          ∧ t = { s.start with bst := t.bst, regs := t.regs, freeCount := t.freeCount, freeNext := t.freeNext })
        ∧ (s.mute 0x1C5 = true →
          ∃ t, exec (.fuseRecordDone false) s = .next t ∧ t.bst = { s.bst with burn := none } ∧ t.f Fld.bstFuseStat_result = 4
            ∧ s.counted t 0x1C5 ∧ s.onlyBlocks t [.bst, .flt] ∧ t = { s.start with bst := t.bst, regs := t.regs, flt := t.flt })))
  ∧ ((∀ (s : State) (a : Acc) (v comp : Word) (n : Nat), s.goesKeyed a .imgSvnBurn 0 v comp = true → n = v.toNat % 2 ^ 8 → s.img.svnBurn = none →
        (s.mode ≠ .service →
          ∃ t, exec (.imgSvnBurn a v comp) s = .next t ∧ t.f Fld.imgSvn_burn_result = 2 ∧ s.onlyRegs t [(.imgSvnBurn, 0), (.imgSvn, 0)]
            ∧ t = { s.asideFrom t with regs := t.regs, keyPend := t.keyPend })
        ∧ (s.mode = .service →
          ∃ t, exec (.imgSvnBurn a v comp) s = .next t
            ∧ (s.freeNext % 2 = 0 → t.f Fld.imgSvn_burn_result = 3 ∧ t.img = s.img)
            ∧ (s.freeNext % 2 = 1 → n ≤ s.img.minSvn ∨ s.f Fld.imgSvn_run_svn < n → t.f Fld.imgSvn_burn_result = 4 ∧ t.img = s.img)
            ∧ (s.freeNext % 2 = 1 → s.img.minSvn < n → n ≤ s.f Fld.imgSvn_run_svn → t.img = { s.img with svnBurn := some n })
            ∧ s.onlyRegs t [(.imgSvnBurn, 0), (.imgSvn, 0)]
            ∧ t = { s.asideFrom t with regs := t.regs, keyPend := t.keyPend, img := t.img, freeCount := s.freeCount + 1, freeNext := t.freeNext }))
      ∧ (∀ (s : State) (n : Nat), s.img.svnBurn = some n → s.pwr.runAfterFg = false →
        (∃ t, exec (.svnBurnComplete true) s = .next t ∧ t.f Fld.imgSvn_burn_result = 1 ∧ t.img = { s.img with svnBurn := none, minSvn := n }
          ∧ s.onlyFields t [(Fld.imgSvn_burn_result, 0)] ∧ t = { s.start with img := t.img, regs := t.regs })
        ∧ (∃ t, exec (.svnBurnComplete false) s = .next t ∧ t.f Fld.imgSvn_burn_result = 5 ∧ t.img = { s.img with svnBurn := none }
          ∧ s.onlyFields t [(Fld.imgSvn_burn_result, 0)] ∧ t = { s.start with img := t.img, regs := t.regs })))

/-- R345, R346: flash commands. One is accepted where its mode, its address and, for PROGRAM and ERASE, the guarded ranges allow it, and its end puts what
was read into the buffer, or sends the bytes programmed or the erase to the flash; a command while one runs sets OVERRUN. R344, R347: the bridge's
settings. IMG_BOOT_CFG sets what is preferred and tried; IMG_SET_CMD empties the soft map or the fatal records, or asks for a write; a write takes the
bridge's own copy to the place that is not current, and the copy is current once it reads back well, while a failure keeps the old one and raises
0x1A1. -/
def Obligations.FlashAndSettingsCommands : Prop :=
  ((∀ (s : State) (a : Acc) (v : Word) (ad : Nat), ad = s.f Fld.imgFlAddr_addr → s.mode = .run ∨ s.mode = .doze ∨ s.mode = .service →
        (s.img.flCmd = none → ad < s.img.flashSize →
          (s.goesWrite a .imgFlCmd 0 (setBits 31 29 1 v) = true → ad % 4 = 0 →
            ∃ t, exec (.readFlash a v) s = .next t ∧ t = { s.asideFrom t with img := { s.img with flCmd := some (1, ad, v.toNat % 2), flData := [] } })
          ∧ (s.goesWrite a .imgFlCmd 0 (setBits 31 29 2 v) = true → ad % 256 = 0 → s.flashGuarded ad 256 = false →
            ∃ t, exec (.program a v) s = .next t
              ∧ t = { s.asideFrom t with img := { s.img with flCmd := some (2, ad, v.toNat % 2), flData := s.flashBuffer } })
          ∧ (s.goesWrite a .imgFlCmd 0 (setBits 31 29 2 v) = true → ad % 256 ≠ 0 ∨ s.flashGuarded ad 256 = true →
            ∃ t, exec (.program a v) s = .next t ∧ t.f Fld.imgFlStat_result = 2 ∧ s.onlyFields t [(Fld.imgFlStat_result, 0)]
              ∧ t = { s.asideFrom t with regs := t.regs })
          ∧ (s.goesWrite a .imgFlCmd 0 (setBits 31 29 3 v) = true → ad % 4096 = 0 → s.flashGuarded ad 4096 = false →
            ∃ t, exec (.erase a v) s = .next t ∧ t = { s.asideFrom t with img := { s.img with flCmd := some (3, ad, v.toNat % 2), flData := [] } }))
        ∧ (s.img.flCmd = none → s.goesWrite a .imgFlCmd 0 (setBits 31 29 4 v) = true →
            ∃ t, exec (.verify a v) s = .next t ∧ t = { s.asideFrom t with img := { s.img with flCmd := some (4, ad, v.toNat % 2), flData := [] } })
        ∧ (s.img.flCmd ≠ none → s.goesWrite a .imgFlCmd 0 (setBits 31 29 1 v) = true →
            ∃ t, exec (.readFlash a v) s = .next t ∧ t.f Fld.imgFlStat_overrun = 1 ∧ s.onlyFields t [(Fld.imgFlStat_overrun, 0)]
              ∧ t = { s.asideFrom t with regs := t.regs }))
      ∧ (∀ (s : State) (bs : List Byte) (op ad slot : Nat), s.img.writing = none → s.img.flCmd = some (op, ad, slot) →
        (op = 1 → ∃ t, exec (.flashCmdComplete bs false) s = .next t ∧ (∀ m < 64, t.reg .imgFlBuf m = BitVec.ofNat 32 (fieldAt (4 * m) 4 bs))
          ∧ t.f Fld.imgFlStat_result = 1 ∧ t.img = { s.img with flCmd := none, flData := [] } ∧ s.onlyBlocks t [.img]
          ∧ t = { s.start with img := t.img, regs := t.regs })
        ∧ (op = 2 → ∃ t, exec (.flashCmdComplete bs false) s = .next t ∧ t.outp = [.flashProgram ad s.img.flData]
          ∧ t.f Fld.imgFlStat_result = (if slice 0 256 bs = s.img.flData then 1 else 3) ∧ t.img = { s.img with flCmd := none, flData := [] }
          ∧ s.onlyFields t [(Fld.imgFlStat_result, 0)] ∧ t = { s.start with img := t.img, regs := t.regs, outp := t.outp })
        ∧ (op = 3 → ∃ t, exec (.flashCmdComplete bs false) s = .next t ∧ t.outp = [.flashErase ad 4096] ∧ t.f Fld.imgFlStat_result = 1
          ∧ t.img = { s.img with flCmd := none, flData := [] } ∧ s.onlyFields t [(Fld.imgFlStat_result, 0)]
          ∧ t = { s.start with img := t.img, regs := t.regs, outp := t.outp })
        ∧ (op = 1 → ∃ t, exec (.flashCmdComplete bs true) s = .next t ∧ t.f Fld.imgFlStat_result = 3
          ∧ t = { s.start with img := { s.img with flCmd := none, flData := [] }, regs := t.regs })))
  ∧ ((∀ (s : State) (a : Acc) (v comp : Word),
        (s.goesKeyed a .imgBootCfg 0 v comp = true → v.toNat % 4 < 2 →
          ∃ t, exec (.imgBootCfg a v comp) s = .next t
            ∧ t = { s.asideFrom t with img := { s.img with prefer := decide (v.toNat % 2 = 1), trial := bit 2 v.toNat }, keyPend := t.keyPend })
        ∧ (s.goesKeyed a .imgSetCmd 0 (setBits 1 0 1 v) (setBits 1 0 2 comp) = true →
          ∃ t, exec (.emptySoftRepairMap a v comp) s = .next t ∧ s.onlyRegs t [(.imgSetCmd, 0)]
            ∧ t = { s.asideFrom t with bst := { s.bst with soft := [], pendingRec := [] }, img := { s.img with setTake := 0 }, regs := t.regs
                                       keyPend := t.keyPend })
        ∧ (s.goesKeyed a .imgSetCmd 0 (setBits 1 0 2 v) (setBits 1 0 1 comp) = true →
          ∃ t, exec (.emptyFatalRecords a v comp) s = .next t ∧ s.onlyRegs t [(.imgSetCmd, 0)]
            ∧ t = { s.asideFrom t with img := { s.img with fatals := [] }, regs := t.regs, keyPend := t.keyPend })
        ∧ (s.goesKeyed a .imgSetCmd 0 (setBits 1 0 3 v) (setBits 1 0 0 comp) = true →
          ∃ t, exec (.forceSettingsWrite a v comp) s = .next t ∧ s.onlyRegs t [(.imgSetCmd, 0)]
            ∧ t = { s.asideFrom t with img := { s.img with force := true }, regs := t.regs, keyPend := t.keyPend }))
      ∧ (∀ s : State, s.settingsDue = true →
        ∃ t, exec .settingsWriteStart s = .next t
          ∧ t.img = { s.img with writing := some s.ownSettings, setTake := s.bst.pendingRec.length, lastSet := some s.ts, force := false
                                 seeds := t.img.seeds }
          ∧ t.outp = [.flashErase (s.copyBase (s.img.setValid && !s.img.setCurY)) 0xC000,
              .flashProgram (s.copyBase (s.img.setValid && !s.img.setCurY)) (copyBytes s.ownSettings t.img.seeds ((s.img.setSeq + 1) % 2 ^ 32))]
          ∧ t = { s.start with img := t.img, outp := t.outp, freeCount := t.freeCount, freeNext := t.freeNext })
      ∧ (∀ s : State, s.settingsDue = false → exec .settingsWriteStart s = .next s.start)
      ∧ (∀ (s : State) (x : Settings), s.img.writing = some x →
        (∃ t, exec (.settingsWriteDone true) s = .next t
          ∧ t.img = { s.img with
              cur := x, setSeq := (s.img.setSeq + 1) % 2 ^ 32, setCurY := s.img.setValid && !s.img.setCurY, setValid := true, writing := none
              setTake := 0 }
          ∧ t.bst.pendingRec = s.bst.pendingRec.drop s.img.setTake
          ∧ t.f Fld.imgSetStat_writes = sat Fld.imgSetStat_writes (s.f Fld.imgSetStat_writes + 1)
          ∧ s.onlyFields t [(Fld.imgSetStat_writes, 0)] ∧ t = { s.start with img := t.img, bst := t.bst, regs := t.regs })
        ∧ (s.mode ≠ .reset → s.mute 0x1A1 = true →
          ∃ t, exec (.settingsWriteDone false) s = .next t ∧ exec .settingsWriteTimeout s = .next t
            ∧ t.img = { s.img with writing := none, setTake := 0, force := true } ∧ t.f Fld.imgSetStat_fail = 1
            ∧ t.f Fld.imgSetStat_fail_cnt = sat Fld.imgSetStat_fail_cnt (s.f Fld.imgSetStat_fail_cnt + 1) ∧ s.counted t 0x1A1
            ∧ s.onlyBlocks t [.img, .flt] ∧ t = { s.start with img := t.img, regs := t.regs, flt := t.flt })))

/-- R162, R175, R220, R274: errors in the bridge's memories and paths. A corrected error is counted and reported under its source and changes no
operation; an uncorrectable word of a FREE Journal entry withholds it, one of a table entry makes it invalid, one of free Landing grains withholds
grains, and one in a direct operation's data ends it with status POISONED. R273, R274, R280: fatal errors. A parity error in a configuration register,
an arbiter or the fault collector, and an uncorrectable word of a live Journal entry, put the bridge in HALT: FLT_HALT names the source, every key is
gone, debug unlock has ended, and one fatal record more is kept. -/
def Obligations.MemoryAndFatalErrors : Prop :=
  ((∀ (s : State) (je : Fin 4194304) (w : Fin 3) (y : Byte), s.mode ≠ .reset → s.jwMasked = false → s.exOn 0 = false →
        (s.mute 0x0C0 = true →
          ∃ t, exec (.journalWordError je w y .corrected) s = .next t
            ∧ t.f Fld.jnlEcc_corr = sat Fld.jnlEcc_corr (s.f Fld.jnlEcc_corr + 1) ∧ s.counted t 0x0C0
            ∧ t.sub (s.jnlSub je.val w.val) = { s.sub (s.jnlSub je.val w.val) with ce := (s.sub (s.jnlSub je.val w.val)).ce + 1 }
            ∧ s.onlyBlocks t [.jnl, .flt] ∧ t = { s.start with bst := t.bst, regs := t.regs, flt := t.flt })
        ∧ (FMap.find je.val s.jnl.entries = none → FMap.find je.val s.jnl.reserved = none → s.mute 0x0C1 = true →
          ∃ t, exec (.journalWordError je w y .uncorrectable) s = .next t
            ∧ t.f Fld.jnlEcc_uncorr_free = sat Fld.jnlEcc_uncorr_free (s.f Fld.jnlEcc_uncorr_free + 1) ∧ s.counted t 0x0C1
            ∧ t.jnl = { s.jnl with withheld := s.jnl.withheld ++ [(je.val, w.val)], uncorr := s.jnl.uncorr ++ [(je.val, w.val)] }
            ∧ t.jeFree je.val = false ∧ s.onlyBlocks t [.jnl, .flt] ∧ t = { s.start with jnl := t.jnl, regs := t.regs, flt := t.flt }))
      ∧ (∀ (s : State) (u : Fin 1056) (y : Byte), s.mode ≠ .reset → s.exOn 1 = false →
        (∀ je, s.mute 0x0E0 = true →
          ∃ t, exec (.landingWordError u je y .corrected) s = .next t
            ∧ t.f Fld.jnlLndEcc_corr = sat Fld.jnlLndEcc_corr (s.f Fld.jnlLndEcc_corr + 1) ∧ s.counted t 0x0E0 ∧ s.onlyBlocks t [.jnl, .flt]
            ∧ t = { s.start with bst := t.bst, regs := t.regs, flt := t.flt })
        ∧ (s.mute 0x0E2 = true →
          ∃ t, exec (.landingWordError u none y .uncorrectable) s = .next t
            ∧ t.f Fld.jnlLndEcc_uncorr = sat Fld.jnlLndEcc_uncorr (s.f Fld.jnlLndEcc_uncorr + 1) ∧ s.counted t 0x0E2
            ∧ t.landOut = s.landOut ++ [u.val] ∧ s.onlyBlocks t [.jnl, .flt]
            ∧ t = { s.start with landOut := t.landOut, regs := t.regs, flt := t.flt })
        ∧ (∀ (je : Fin 4194304) (o : Op) (h : ReqHdr), s.works = true → s.directOp je.val o h → o.done = false → s.pieceOpen je.val o = false →
            s.muteUc →
          ∃ t, exec (.landingWordError u (some je) y .uncorrectable) s = .next t
            ∧ .packet (s.route (s.entry je.val).link) (.cpl (s.cplHdr h 5 0) []) ∈ t.outp ∧ (t.entry je.val).err = 5
            ∧ (t.entry je.val).st = .completed ∧ t.op? je.val = none ∧ s.sameOpsBut t je.val ∧ s.counted t 0x0E1))
      ∧ (∀ (s : State) (i : BitVec 18) (y : Byte) (tb : Tbl), s.mode ≠ .reset → s.exOn 2 = false →
        (s.mute 0x062 = true →
          ∃ t, exec (.tableWordError tb i y .corrected) s = .next t ∧ s.counted t 0x062 ∧ s.onlyBlocks t [.flt]
            ∧ t = { s.start with regs := t.regs, flt := t.flt })
        ∧ (s.muteUc →
          ∃ t, exec (.tableWordError tb i y .uncorrectable) s = .next t ∧ s.counted t 0x063 ∧ s.onlyBlocks t [.flt]
            ∧ t.tbl = (match tb with
                | .wtt => { s.tbl with wttBad := s.tbl.wttBad ++ [i.toNat] }
                | .dvt => { s.tbl with dvtBad := s.tbl.dvtBad ++ [i.toNat] })
            ∧ t = { s.start with tbl := t.tbl, regs := t.regs, flt := t.flt }))
      ∧ (∀ (s : State) (o : Fin 24) (y : Byte), s.mode ≠ .reset → s.exOn 3 = false →
        (∀ je, s.mute 0x160 = true →
          ∃ t, exec (.hubFlitError o je y .corrected) s = .next t ∧ s.counted t 0x160 ∧ s.onlyBlocks t [.flt]
            ∧ t = { s.start with regs := t.regs, flt := t.flt })
        ∧ (s.muteUc →
          ∃ t, exec (.hubFlitError o none y .uncorrectable) s = .next t ∧ s.counted t 0x161 ∧ s.onlyBlocks t [.flt]
            ∧ t = { s.start with regs := t.regs, flt := t.flt }))
      ∧ (∀ (s : State) (e : Fin 104), s.works = true →
          (s.eng e.val).role = .active ∨ (s.eng e.val).role = .retired ∨ (s.ctxsOf e.val) ≠ [] → s.exOn 4 = false → s.mute 0x081 = true →
        ∃ t, exec (.dataStoreCorrection e) s = .next t ∧ t.f Fld.engCnt_ds_corr = sat Fld.engCnt_ds_corr (s.f Fld.engCnt_ds_corr + 1)
          ∧ s.counted t 0x081 ∧ s.onlyBlocks t [.eng, .flt]
          ∧ t = { s.start with regs := t.regs, flt := t.flt, freeCount := t.freeCount, freeNext := t.freeNext }))
  ∧ (∀ (s : State) (c : Instr) (src : Nat), s.mode ≠ .reset → s.mode ≠ .halt → s.fb Fld.fltHalt_valid = false →
          (c = .configRegisterParityError ∧ src = 0x001 ∧ s.exOn 11 = false ∨ (∃ o, c = .arbiterParityError o) ∧ src = 0x162
            ∨ c = .faultCollectorParityError ∧ src = 0x1E0
            ∨ (∃ (je : Fin 4194304) (w : Fin 3) (y : Byte), c = .journalWordError je w y .uncorrectable ∧ FMap.find je.val s.jnl.entries ≠ none)
                ∧ s.jwMasked = false ∧ s.exOn 0 = false ∧ src = 0x0C2) →
        ∃ t, exec c s = .next t ∧ t.mode = .halt ∧ t.phase = .steady ∧ t.f Fld.fltHalt_valid = 1 ∧ t.f Fld.fltHalt_src = src ∧ s.counted t src
          ∧ t.f Fld.fltCntFt_count = sat Fld.fltCntFt_count (s.f Fld.fltCntFt_count + 1) ∧ t.f Fld.fltHighest_class = 3
          ∧ t.pair Fld.fltHaltTsLo_ts Fld.fltHaltTsHi_ts = s.ts % 2 ^ 64
          ∧ t.cmp.keks = [] ∧ t.cmp.slots = [] ∧ t.cmp.staged = [] ∧ t.cmp.mboxes = [] ∧ t.f Fld.gateDbgUnlock_unlock = 0 ∧ t.f Fld.gateDbgStat_unlocked = 0
          ∧ t.flt.aliveRun = false ∧ (∀ p ∈ t.ports, p.2.st ≠ .train)
          ∧ t.img.fatals.length = min 64 (s.img.fatals.length + 1) ∧ t.img.fatalNext = (s.img.fatalNext + 1) % 64
          ∧ t.jnl.entries = s.jnl.entries ∧ t.ops = s.ops ∧ t.ctxs = s.ctxs ∧ t.insts = s.insts)

/-- R182, R192, R196: a CORE cycle refills the C0 bucket of every instance at its rate and up to its depth; of a transfer alone in the Hub its input
accepts a flit, and its output grants one; in RESET, HALT and DOZE no output grants. R158, R159: an issue cycle of an engine with one ready context
charges its instance one cycle and raises its dispatch pass by 65,536 over its weight; one without a ready context charges none. -/
def Obligations.HubAndIssueCycles : Prop :=
  ((∀ s : State, s.mode ≠ .reset → s.mode ≠ .halt → s.mode ≠ .doze → s.exOn 3 = false →
        ∃ t, exec .hubRound s = .next t
          ∧ (∀ i, t.inst i = if (s.inst i).c0rate = 0 then s.inst i
              else { s.inst i with c0tokens := min (65536 * (s.inst i).c0depth) ((s.inst i).c0tokens + (s.inst i).c0rate) })
          ∧ s.onlyBlocks t [.hub]
          ∧ t = { s.start with insts := t.insts, hub := t.hub, regs := t.regs, freeCount := s.freeCount + 1, freeNext := t.freeNext })
      ∧ (∀ (s : State) (x : Xfer), s.mode ≠ .reset → s.mode ≠ .halt → s.mode ≠ .doze → s.exOn 3 = false → s.hub.xfers = [x] → x.out < 24 →
          x.inp < 26 → x.cls < 4 → x.sent ≤ x.got → x.got ≤ x.len → x.sent < x.len → (24 ≤ x.inp → x.got = x.len) → s.flitMasked x.flit = false →
          (FMap.get {} x.out s.hub.outs).buf = [] → s.hub.jw = 0 → s.bst.mem.st ≠ .test → s.bst.eng.st ≠ .test →
        ∃ t, exec .hubRound s = .next t
          ∧ t.hub.xfers = (if x.sent + 1 = x.len then [] else [{ x with sent := x.sent + 1, got := min x.len (x.got + 1) }])
          ∧ (FMap.get {} x.out t.hub.outs).grant = some x.flit ∧ (FMap.get {} x.out t.hub.outs).buf = [x.flit]
          ∧ ∀ o < 24, o ≠ x.out → (FMap.get {} o t.hub.outs).grant = none)
      ∧ (∀ s : State, s.mode = .reset ∨ s.mode = .halt ∨ s.mode = .doze → exec .hubRound s = .next s.start))
  ∧ (∀ (s : State) (e : Fin 104), s.works = true → s.engMasked e.val = false → s.mode ≠ .doze → s.exOn 4 = false → s.exOn 5 = false →
          s.exOn 6 = false →
        (∀ n c, (s.ctxsOf e.val).filter (fun x => s.ctxReady x.2) = [(n, c)] →
          ∃ t, exec (.engineIssueCycle e) s = .next t
            ∧ t.inst c.inst = { s.inst c.inst with
                dispPass := (s.inst c.inst).dispPass + 65536 / (s.inst c.inst).weight, cycles := ((s.inst c.inst).cycles + 1) % 2 ^ 64 }
            ∧ s.sameInstsBut t c.inst ∧ (∀ k, k ≠ e.val → t.eng k = s.eng k) ∧ t = { s.start with engs := t.engs, insts := t.insts })
        ∧ ((s.ctxsOf e.val).filter (fun x => s.ctxReady x.2) = [] →
          ∃ t, exec (.engineIssueCycle e) s = .next t ∧ (t.eng e.val).win = winTrim 16000 (winPush 0 (s.eng e.val).win)
            ∧ (∀ k, k ≠ e.val → t.eng k = s.eng k) ∧ t = { s.start with engs := t.engs }))

/-- R187, R188: among the C1 to C3 requesters of an output the one granted has the highest effective priority, which an age raises up to 254. R187: the
space of a destination. A flit of a class is refused only where the class's reserve (10 flits for C0, 65 for each other) and the shared remainder are
both full; a class with room in its reserve takes none of the remainder. -/
def Obligations.HubGrantsHighestPriority : Prop :=
  (∀ (s : State) (h : HubOut) (ks : List Nat),
        (ks ≠ [] → s.hubPick h ks ≠ none)
        ∧ ∀ k, s.hubPick h ks = some k → k ∈ ks ∧ ∀ j ∈ ks, s.hubPrio j (FMap.get 0 j h.ages) ≤ s.hubPrio k (FMap.get 0 k h.ages)
            ∧ (s.hubPrio j (FMap.get 0 j h.ages) = s.hubPrio k (FMap.get 0 k h.ages) → h.last < j → h.last < k))
  ∧ (∀ (o c : Nat) (h : HubOut),
        (hubSpace o h c = some false ↔ (h.buf.filter fun f => f.cls == c && !f.shared).length < (if c = 0 then 10 else 65))
        ∧ (hubSpace o h c = none → (if c = 0 then 10 else 65) ≤ (h.buf.filter fun f => f.cls == c && !f.shared).length
            ∧ Config.hubShared o ≤ (h.buf.filter (·.shared)).length))
end

