-- ==== Sys2Proof/Laws/Bits.lean ====
section
/-! SUPPORT. Laws of bit fields of a register word (R17): a field reads as it was written, and the others stay. -/

namespace Sys2Proof.Machine

theorem bits_lt (hi lo v : Nat) : bits hi lo v < 2 ^ (hi + 1 - lo) := Nat.mod_lt _ (Nat.two_pow_pos _)

theorem pow_split {a b : Nat} (h : a ≤ b) : 2 ^ b = 2 ^ a * 2 ^ (b - a) := by rw [← pow_add]; congr 1; omega

/-- A number is what stands above a field, the field, and what stands below it. -/
theorem bits_parts {hi lo : Nat} (h : lo ≤ hi + 1) (n : Nat) :
    n = n / 2 ^ (hi + 1) * 2 ^ (hi + 1) + bits hi lo n * 2 ^ lo + n % 2 ^ lo := by
  have h1 := Nat.div_add_mod n (2 ^ lo)
  have h2 := Nat.div_add_mod (n / 2 ^ lo) (2 ^ (hi + 1 - lo))
  have h3 : n / 2 ^ lo / 2 ^ (hi + 1 - lo) = n / 2 ^ (hi + 1) := by rw [Nat.div_div_eq_div_mul, ← pow_split h]
  have h4 := pow_split h
  rw [h3] at h2
  simp only [bits]
  rw [h4]
  calc n = 2 ^ lo * (n / 2 ^ lo) + n % 2 ^ lo := h1.symm
    _ = 2 ^ lo * (2 ^ (hi + 1 - lo) * (n / 2 ^ (hi + 1)) + n / 2 ^ lo % 2 ^ (hi + 1 - lo)) + n % 2 ^ lo := by rw [h2]
    _ = _ := by rw [h4]; ring

/-- What `setBits` gives, as a number. -/
theorem setBits_toNat {hi lo : Nat} (h : lo ≤ hi) (h32 : hi < 32) (v : Nat) (w : Word) :
    (setBits hi lo v w).toNat =
      w.toNat / 2 ^ (hi + 1) * 2 ^ (hi + 1) + v % 2 ^ (hi + 1 - lo) * 2 ^ lo + w.toNat % 2 ^ lo := by
  have hp := bits_parts (by omega : lo ≤ hi + 1) w.toNat
  have h8 : w.toNat - bits hi lo w.toNat * 2 ^ lo = w.toNat / 2 ^ (hi + 1) * 2 ^ (hi + 1) + w.toNat % 2 ^ lo := by omega
  have hv : v % 2 ^ (hi + 1 - lo) + 1 ≤ 2 ^ (hi + 1 - lo) := Nat.mod_lt _ (Nat.two_pow_pos _)
  have hm : w.toNat % 2 ^ lo < 2 ^ lo := Nat.mod_lt _ (Nat.two_pow_pos _)
  have hq : w.toNat / 2 ^ (hi + 1) + 1 ≤ 2 ^ (31 - hi) := by
    apply Nat.div_lt_of_lt_mul; rw [← pow_add]; have := w.isLt; convert this using 2; omega
  have h5 : 2 ^ (hi + 1) * 2 ^ (31 - hi) = 2 ^ 32 := by rw [← pow_add]; congr 1; omega
  have h4 : 2 ^ (hi + 1 - lo) * 2 ^ lo = 2 ^ (hi + 1) := by rw [← pow_add]; congr 1; omega
  have h6 := Nat.mul_le_mul_right (2 ^ lo) hv
  have h7 := Nat.mul_le_mul_right (2 ^ (hi + 1)) hq
  rw [add_mul] at h6 h7
  rw [mul_comm (2 ^ (31 - hi))] at h7
  have hlt : w.toNat / 2 ^ (hi + 1) * 2 ^ (hi + 1) + w.toNat % 2 ^ lo + v % 2 ^ (hi + 1 - lo) * 2 ^ lo < 2 ^ 32 := by omega
  unfold setBits
  simp only [BitVec.toNat_ofNat]
  rw [h8, Nat.mod_eq_of_lt hlt]
  omega

/-- A field reads as it was written. -/
theorem bits_setBits_same {hi lo : Nat} (h : lo ≤ hi) (h32 : hi < 32) (v : Nat) (w : Word) :
    bits hi lo (setBits hi lo v w).toNat = v % 2 ^ (hi + 1 - lo) := by
  rw [setBits_toNat h h32]
  have hm : w.toNat % 2 ^ lo < 2 ^ lo := Nat.mod_lt _ (Nat.two_pow_pos _)
  have h4 : 2 ^ (hi + 1) = 2 ^ (hi + 1 - lo) * 2 ^ lo := by rw [← pow_add]; congr 1; omega
  have e : w.toNat / 2 ^ (hi + 1) * 2 ^ (hi + 1) + v % 2 ^ (hi + 1 - lo) * 2 ^ lo + w.toNat % 2 ^ lo
      = (w.toNat / 2 ^ (hi + 1) * 2 ^ (hi + 1 - lo) + v % 2 ^ (hi + 1 - lo)) * 2 ^ lo + w.toNat % 2 ^ lo := by
    rw [h4]; ring
  rw [e]
  unfold bits
  rw [Nat.add_comm, Nat.add_mul_div_right _ _ (Nat.two_pow_pos _), Nat.div_eq_of_lt hm, Nat.zero_add, Nat.add_comm,
    Nat.add_mul_mod_self_right, Nat.mod_mod]

/-- A field above the one that is written stays. -/
theorem bits_setBits_above {hi lo hi' lo' : Nat} (h : lo ≤ hi) (h32 : hi < 32) (ha : hi < lo') (v : Nat) (w : Word) :
    bits hi' lo' (setBits hi lo v w).toNat = bits hi' lo' w.toNat := by
  rw [setBits_toNat h h32]
  have hm : w.toNat % 2 ^ lo < 2 ^ lo := Nat.mod_lt _ (Nat.two_pow_pos _)
  have hv : v % 2 ^ (hi + 1 - lo) + 1 ≤ 2 ^ (hi + 1 - lo) := Nat.mod_lt _ (Nat.two_pow_pos _)
  have h4 : 2 ^ (hi + 1 - lo) * 2 ^ lo = 2 ^ (hi + 1) := by rw [← pow_add]; congr 1; omega
  have h6 := Nat.mul_le_mul_right (2 ^ lo) hv
  rw [add_mul, h4] at h6
  have hd : (w.toNat / 2 ^ (hi + 1) * 2 ^ (hi + 1) + v % 2 ^ (hi + 1 - lo) * 2 ^ lo + w.toNat % 2 ^ lo) / 2 ^ (hi + 1)
      = w.toNat / 2 ^ (hi + 1) := by
    rw [add_assoc, Nat.add_comm, Nat.add_mul_div_right _ _ (Nat.two_pow_pos _), Nat.div_eq_of_lt (by omega), Nat.zero_add]
  unfold bits
  rw [pow_split (by omega : hi + 1 ≤ lo'), ← Nat.div_div_eq_div_mul, hd, Nat.div_div_eq_div_mul]

/-- A field below the one that is written stays. -/
theorem bits_setBits_below {hi lo hi' lo' : Nat} (h : lo ≤ hi) (h32 : hi < 32) (ha : hi' < lo) (v : Nat) (w : Word) :
    bits hi' lo' (setBits hi lo v w).toNat = bits hi' lo' w.toNat := by
  rw [setBits_toNat h h32]
  have hp := bits_parts (by omega : lo ≤ hi + 1) w.toNat
  have e (n : Nat) : bits hi' lo' n = n % 2 ^ (hi' + 1) / 2 ^ lo' := by
    unfold bits
    by_cases hl : lo' ≤ hi' + 1
    · rw [pow_split hl, Nat.mod_mul_right_div_self]
    · have h1 : hi' + 1 - lo' = 0 := by omega
      have h2 : n % 2 ^ (hi' + 1) < 2 ^ lo' :=
        lt_of_lt_of_le (Nat.mod_lt _ (Nat.two_pow_pos _)) (Nat.pow_le_pow_right (by omega) (by omega))
      rw [h1, Nat.div_eq_of_lt h2, pow_zero, Nat.mod_one]
  have hmod (x y : Nat) : (x * 2 ^ (hi + 1) + y * 2 ^ lo + w.toNat % 2 ^ lo) % 2 ^ (hi' + 1)
      = w.toNat % 2 ^ lo % 2 ^ (hi' + 1) := by
    rw [pow_split (by omega : hi' + 1 ≤ hi + 1), pow_split (by omega : hi' + 1 ≤ lo)]
    rw [show x * (2 ^ (hi' + 1) * 2 ^ (hi + 1 - (hi' + 1))) + y * (2 ^ (hi' + 1) * 2 ^ (lo - (hi' + 1)))
        + w.toNat % (2 ^ (hi' + 1) * 2 ^ (lo - (hi' + 1)))
      = w.toNat % (2 ^ (hi' + 1) * 2 ^ (lo - (hi' + 1))) + 2 ^ (hi' + 1) * (x * 2 ^ (hi + 1 - (hi' + 1)) + y * 2 ^ (lo - (hi' + 1)))
      by ring, Nat.add_mul_mod_self_left]
  rw [e, e, hmod]
  conv_rhs => rw [hp, hmod]

/-- A field that does not meet the one that is written stays. -/
theorem bits_setBits_apart {hi lo hi' lo' : Nat} (h : lo ≤ hi) (h32 : hi < 32) (ha : hi < lo' ∨ hi' < lo) (v : Nat) (w : Word) :
    bits hi' lo' (setBits hi lo v w).toNat = bits hi' lo' w.toNat := by
  rcases ha with ha | ha
  · exact bits_setBits_above h h32 ha v w
  · exact bits_setBits_below h h32 ha v w

end Sys2Proof.Machine
end

