-- ==== Sys2Proof/Laws/Fmap.lean ====
section
/-! SUPPORT. Laws of finite maps: read after write, and the canonical form. -/

namespace Sys2Proof.Machine

variable {α : Type}

@[simp] theorem FMap.find_nil (k : Nat) : FMap.find k ([] : FMap α) = none := rfl

theorem FMap.find_cons (k j : Nat) (v : α) (m : FMap α) :
    FMap.find k ((j, v) :: m) = if j = k then some v else FMap.find k m := rfl

@[simp] theorem FMap.get_nil (d : α) (k : Nat) : FMap.get d k ([] : FMap α) = d := rfl

/-! ### Read after write -/

@[simp] theorem FMap.find_put_same (k : Nat) (v : α) (m : FMap α) : FMap.find k (FMap.put k v m) = some v := by
  induction m with
  | nil => simp [FMap.put, FMap.find]
  | cons p m ih =>
    obtain ⟨j, w⟩ := p
    by_cases h : j = k
    · simp [FMap.put, FMap.find, h]
    · by_cases hk : k < j <;> simp [FMap.put, FMap.find, h, hk, ih]

theorem FMap.find_put_ne {k j : Nat} (h : j ≠ k) (v : α) (m : FMap α) : FMap.find j (FMap.put k v m) = FMap.find j m := by
  induction m with
  | nil => simp [FMap.put, FMap.find, Ne.symm h]
  | cons p m ih =>
    obtain ⟨i, w⟩ := p
    by_cases hi : i = k
    · subst hi; simp [FMap.put, FMap.find, Ne.symm h]
    · by_cases hk : k < i <;> simp [FMap.put, FMap.find, hi, hk, Ne.symm h, ih]

theorem FMap.find_del_ne {k j : Nat} (h : j ≠ k) (m : FMap α) : FMap.find j (FMap.del k m) = FMap.find j m := by
  induction m with
  | nil => rfl
  | cons p m ih =>
    obtain ⟨i, w⟩ := p
    by_cases hi : i = k
    · subst hi; simp [FMap.del, FMap.find, Ne.symm h, ih]
    · simp [FMap.del, FMap.find, hi, ih]

@[simp] theorem FMap.find_del_same (k : Nat) (m : FMap α) : FMap.find k (FMap.del k m) = none := by
  induction m with
  | nil => rfl
  | cons p m ih =>
    obtain ⟨i, w⟩ := p
    by_cases hi : i = k <;> simp [FMap.del, FMap.find, hi, ih]

/-! ### The canonical form -/

/-- Every key of a map is above `b`. -/
def FMap.above (b : Nat) (m : FMap α) : Prop := ∀ p ∈ m, b < p.1

theorem FMap.sortedFrom_iff (lo : Option Nat) (m : FMap α) :
    FMap.sortedFrom lo m = true ↔ (m.Pairwise fun p q => p.1 < q.1) ∧ (∀ b ∈ lo, FMap.above b m) := by
  induction m generalizing lo with
  | nil => simp [FMap.sortedFrom, FMap.above]
  | cons p m ih =>
    obtain ⟨j, v⟩ := p
    cases lo with
    | none => simp [FMap.sortedFrom, ih, FMap.above, and_comm]
    | some b =>
      simp only [FMap.sortedFrom, Bool.and_eq_true, decide_eq_true_eq, ih, FMap.above, Option.mem_def, Option.some.injEq,
        List.pairwise_cons, List.mem_cons, forall_eq_or_imp, forall_eq']
      constructor
      · rintro ⟨hb, hp, ha⟩
        exact ⟨⟨ha, hp⟩, hb, fun p hm => lt_trans hb (ha p hm)⟩
      · rintro ⟨⟨ha, hp⟩, hb, -⟩
        exact ⟨hb, hp, ha⟩

/-- The canonical form says that the keys rise strictly. -/
theorem FMap.sorted_iff (m : FMap α) : FMap.sorted m = true ↔ m.Pairwise fun p q => p.1 < q.1 := by
  simp [FMap.sorted, FMap.sortedFrom_iff]

theorem FMap.mem_put {k : Nat} {v : α} {m : FMap α} {p : Nat × α} (h : p ∈ FMap.put k v m) : p = (k, v) ∨ p ∈ m := by
  induction m with
  | nil => simpa [FMap.put] using h
  | cons q m ih =>
    obtain ⟨j, w⟩ := q
    by_cases hj : j = k
    · simp only [FMap.put, hj, if_true, List.mem_cons] at h; simp; tauto
    · by_cases hk : k < j
      · simp only [FMap.put, hj, hk, if_false, if_true, List.mem_cons] at h; simp; tauto
      · simp only [FMap.put, hj, hk, if_false, List.mem_cons] at h
        rcases h with h | h
        · simp [h]
        · rcases ih h with h | h <;> simp [h]

theorem FMap.mem_del {k : Nat} {m : FMap α} {p : Nat × α} (h : p ∈ FMap.del k m) : p ∈ m := by
  induction m with
  | nil => simp [FMap.del] at h
  | cons q m ih =>
    obtain ⟨j, w⟩ := q
    by_cases hj : j = k
    · simp only [FMap.del, hj, if_true] at h; simp [ih h]
    · simp only [FMap.del, hj, if_false, List.mem_cons] at h
      rcases h with h | h
      · simp [h]
      · simp [ih h]

/-- Putting a value keeps the canonical form. -/
theorem FMap.sorted_put (k : Nat) (v : α) {m : FMap α} (h : FMap.sorted m = true) : FMap.sorted (FMap.put k v m) = true := by
  rw [FMap.sorted_iff] at *
  induction m with
  | nil => simp [FMap.put]
  | cons p m ih =>
    obtain ⟨j, w⟩ := p
    rw [List.pairwise_cons] at h
    by_cases hj : j = k
    · subst hj; simpa [FMap.put] using h
    · by_cases hk : k < j
      · simp only [FMap.put, hj, hk, if_false, if_true, List.pairwise_cons, List.mem_cons, forall_eq_or_imp]
        exact ⟨⟨by simp, fun q hq => lt_trans hk (h.1 q hq)⟩, h.1, h.2⟩
      · simp only [FMap.put, hj, hk, if_false, List.pairwise_cons]
        refine ⟨fun q hq => ?_, ih h.2⟩
        rcases FMap.mem_put hq with rfl | hq
        · exact lt_of_le_of_ne (not_lt.mp hk) hj
        · exact h.1 q hq

/-- Removing an entry keeps the canonical form. -/
theorem FMap.sorted_del (k : Nat) {m : FMap α} (h : FMap.sorted m = true) : FMap.sorted (FMap.del k m) = true := by
  rw [FMap.sorted_iff] at *
  induction m with
  | nil => simp [FMap.del]
  | cons p m ih =>
    obtain ⟨j, w⟩ := p
    rw [List.pairwise_cons] at h
    by_cases hj : j = k
    · simpa [FMap.del, hj] using ih h.2
    · simp only [FMap.del, hj, if_false, List.pairwise_cons]
      exact ⟨fun q hq => h.1 q (FMap.mem_del hq), ih h.2⟩

/-- Setting a value keeps the canonical form. -/
theorem FMap.sorted_set [DecidableEq α] (d : α) (k : Nat) (v : α) {m : FMap α} (h : FMap.sorted m = true) :
    FMap.sorted (FMap.set d k v m) = true := by
  unfold FMap.set; split
  · exact FMap.sorted_del k h
  · exact FMap.sorted_put k v h

/-- A key below every key of a map is not listed. -/
theorem FMap.find_of_above {b k : Nat} (hk : k ≤ b) {m : FMap α} (h : FMap.above b m) : FMap.find k m = none := by
  induction m with
  | nil => rfl
  | cons p m ih =>
    obtain ⟨j, v⟩ := p
    have hj : b < j := h (j, v) (by simp)
    have : j ≠ k := by omega
    simp [FMap.find, this, ih fun q hq => h q (by simp [hq])]

/-! ### Reading through the default -/

theorem FMap.get_set_ne [DecidableEq α] {k j : Nat} (h : j ≠ k) (d e : α) (v : α) (m : FMap α) :
    FMap.get e j (FMap.set d k v m) = FMap.get e j m := by
  unfold FMap.set FMap.get; split
  · rw [FMap.find_del_ne h]
  · rw [FMap.find_put_ne h]

theorem FMap.find_set_ne [DecidableEq α] {k j : Nat} (h : j ≠ k) (d : α) (v : α) (m : FMap α) :
    FMap.find j (FMap.set d k v m) = FMap.find j m := by
  unfold FMap.set; split
  · rw [FMap.find_del_ne h]
  · rw [FMap.find_put_ne h]

@[simp] theorem FMap.get_set_same [DecidableEq α] (d : α) (k : Nat) (v : α) (m : FMap α) : FMap.get d k (FMap.set d k v m) = v := by
  unfold FMap.set FMap.get; split
  · next hv => rw [FMap.find_del_same, hv]; rfl
  · simp

@[simp] theorem FMap.get_mod_same [DecidableEq α] (d : α) (k : Nat) (f : α → α) (m : FMap α) :
    FMap.get d k (FMap.mod d k f m) = f (FMap.get d k m) := FMap.get_set_same d k _ m

theorem FMap.get_mod_ne [DecidableEq α] {k j : Nat} (h : j ≠ k) (d : α) (f : α → α) (m : FMap α) :
    FMap.get d j (FMap.mod d k f m) = FMap.get d j m := FMap.get_set_ne h d d _ m

theorem FMap.sorted_mod [DecidableEq α] (d : α) (k : Nat) (f : α → α) {m : FMap α} (h : FMap.sorted m = true) :
    FMap.sorted (FMap.mod d k f m) = true := FMap.sorted_set d k _ h

end Sys2Proof.Machine
end

