-- ==== Sys2Proof/Laws/Regs.lean ====
section
/-! SUPPORT. Laws of register words and fields: what is written reads back, and every other register and field stays. -/

namespace Sys2Proof.Machine

/-- A field that lies in a word. -/
abbrev Fld.fits (x : Fld) : Prop := x.lo ≤ x.hi ∧ x.hi < 32

namespace State

/-! ### Words -/

@[simp] theorem reg_setReg_same (s : State) (id : RegId) (i : Nat) (w : Word) : (s.setReg id i w).reg id i = w := by
  simp [reg, setReg]

theorem reg_setReg_ne (s : State) {id id' : RegId} {i j : Nat} (h : regOff id' j ≠ regOff id i) (w : Word) :
    (s.setReg id i w).reg id' j = s.reg id' j := by
  simp [reg, setReg, FMap.get_set_ne h]

@[simp] theorem shadowReg_setShadow_same (s : State) (id : RegId) (i : Nat) (w : Word) : (s.setShadow id i w).shadowReg id i = w := by
  simp [shadowReg, setShadow]

theorem shadowReg_setShadow_ne (s : State) {id id' : RegId} {i j : Nat} (h : regOff id' j ≠ regOff id i) (w : Word) :
    (s.setShadow id i w).shadowReg id' j = s.shadowReg id' j := by
  simp [shadowReg, setShadow, FMap.get_set_ne h]

@[simp] theorem reg_setShadow (s : State) (id id' : RegId) (i j : Nat) (w : Word) : (s.setShadow id i w).reg id' j = s.reg id' j := rfl
@[simp] theorem shadowReg_setReg (s : State) (id id' : RegId) (i j : Nat) (w : Word) :
    (s.setReg id i w).shadowReg id' j = s.shadowReg id' j := rfl
@[simp] theorem f_setShadow (s : State) (id : RegId) (x : Fld) (i j : Nat) (w : Word) : (s.setShadow id i w).f x j = s.f x j := rfl

/-- Two states with the same register words read alike. -/
theorem reg_congr {s t : State} (h : t.regs = s.regs) (id : RegId) (i : Nat) : t.reg id i = s.reg id i := by simp [reg, h]
theorem f_congr {s t : State} (h : t.regs = s.regs) (x : Fld) (i : Nat) : t.f x i = s.f x i := by simp [f, reg_congr h]

/-! ### Fields -/

theorem f_setF_same (s : State) {x : Fld} (h : x.fits) (v i : Nat) : (s.setF x v i).f x i = v % 2 ^ (x.hi + 1 - x.lo) := by
  simp [f, setF, bits_setBits_same h.1 h.2]

/-- Another field of the word that is written. -/
theorem f_setF_apart (s : State) {x y : Fld} (h : x.fits) (hid : y.id = x.id) (ha : x.hi < y.lo ∨ y.hi < x.lo) (v i : Nat) :
    (s.setF x v i).f y i = s.f y i := by
  simp only [f, setF, hid, reg_setReg_same]
  exact bits_setBits_apart h.1 h.2 ha v _

/-- A field of another word. -/
theorem f_setF_ne (s : State) {x y : Fld} {i j : Nat} (h : regOff y.id j ≠ regOff x.id i) (v : Nat) :
    (s.setF x v i).f y j = s.f y j := by
  simp [f, setF, reg_setReg_ne s h]

theorem reg_setF_ne (s : State) {x : Fld} {id : RegId} {i j : Nat} (h : regOff id j ≠ regOff x.id i) (v : Nat) :
    (s.setF x v i).reg id j = s.reg id j := by
  simp [setF, reg_setReg_ne s h]

/-- A saturating counter steps. -/
theorem f_incF_same (s : State) {x : Fld} (h : x.fits) (i n : Nat) :
    (s.incF x i n).f x i = min (s.f x i + n) (2 ^ (x.hi + 1 - x.lo) - 1) := by
  rw [incF, f_setF_same s h, Nat.mod_eq_of_lt]
  have := Nat.two_pow_pos (x.hi + 1 - x.lo)
  omega

theorem f_incF_ne (s : State) {x y : Fld} {i j : Nat} (h : regOff y.id j ≠ regOff x.id i) (n : Nat) :
    (s.incF x i n).f y j = s.f y j := f_setF_ne s h _

theorem f_incF_apart (s : State) {x y : Fld} (h : x.fits) (hid : y.id = x.id) (ha : x.hi < y.lo ∨ y.hi < x.lo) (i n : Nat) :
    (s.incF x i n).f y i = s.f y i := f_setF_apart s h hid ha _ i

theorem reg_incF_ne (s : State) {x : Fld} {id : RegId} {i j : Nat} (h : regOff id j ≠ regOff x.id i) (n : Nat) :
    (s.incF x i n).reg id j = s.reg id j := reg_setF_ne s h _

/-- A maximum rises. -/
theorem f_maxF_same (s : State) {x : Fld} (h : x.fits) (v i : Nat) :
    (s.maxF x v i).f x i = max (s.f x i) (min v (2 ^ (x.hi + 1 - x.lo) - 1)) := by
  rw [maxF, f_setF_same s h, Nat.mod_eq_of_lt]
  have := Nat.two_pow_pos (x.hi + 1 - x.lo)
  have : s.f x i < 2 ^ (x.hi + 1 - x.lo) := bits_lt _ _ _
  omega

theorem f_maxF_ne (s : State) {x y : Fld} {i j : Nat} (h : regOff y.id j ≠ regOff x.id i) (v : Nat) :
    (s.maxF x v i).f y j = s.f y j := f_setF_ne s h _

theorem f_lt (s : State) (x : Fld) (i : Nat) : s.f x i < 2 ^ (x.hi + 1 - x.lo) := bits_lt _ _ _

end State

end Sys2Proof.Machine
end

