-- ==== Sys2Proof/Laws/State.lean ====
section
/-! SUPPORT. One lemma per field of the state per named update, true by definition, so that no proof unfolds a record update. -/

namespace Sys2Proof.Machine.State

/-! ### setReg -/

@[simp] theorem setReg_mode (s : State) (id : RegId) (i : Nat) (w : Word) : (s.setReg id i w).mode = s.mode := rfl
@[simp] theorem setReg_phase (s : State) (id : RegId) (i : Nat) (w : Word) : (s.setReg id i w).phase = s.phase := rfl
@[simp] theorem setReg_ts (s : State) (id : RegId) (i : Nat) (w : Word) : (s.setReg id i w).ts = s.ts := rfl
@[simp] theorem setReg_pending (s : State) (id : RegId) (i : Nat) (w : Word) : (s.setReg id i w).pending = s.pending := rfl
@[simp] theorem setReg_outp (s : State) (id : RegId) (i : Nat) (w : Word) : (s.setReg id i w).outp = s.outp := rfl
@[simp] theorem setReg_freeCount (s : State) (id : RegId) (i : Nat) (w : Word) : (s.setReg id i w).freeCount = s.freeCount := rfl
@[simp] theorem setReg_freeNext (s : State) (id : RegId) (i : Nat) (w : Word) : (s.setReg id i w).freeNext = s.freeNext := rfl
@[simp] theorem setReg_regs (s : State) (id : RegId) (i : Nat) (w : Word) : (s.setReg id i w).regs = FMap.set id.row.reset (regOff id i) w s.regs := rfl
@[simp] theorem setReg_shadow (s : State) (id : RegId) (i : Nat) (w : Word) : (s.setReg id i w).shadow = s.shadow := rfl
@[simp] theorem setReg_hiShadow (s : State) (id : RegId) (i : Nat) (w : Word) : (s.setReg id i w).hiShadow = s.hiShadow := rfl
@[simp] theorem setReg_keyPend (s : State) (id : RegId) (i : Nat) (w : Word) : (s.setReg id i w).keyPend = s.keyPend := rfl
@[simp] theorem setReg_strobe (s : State) (id : RegId) (i : Nat) (w : Word) : (s.setReg id i w).strobe = s.strobe := rfl
@[simp] theorem setReg_bcsWait (s : State) (id : RegId) (i : Nat) (w : Word) : (s.setReg id i w).bcsWait = s.bcsWait := rfl
@[simp] theorem setReg_slowQ (s : State) (id : RegId) (i : Nat) (w : Word) : (s.setReg id i w).slowQ = s.slowQ := rfl
@[simp] theorem setReg_flt (s : State) (id : RegId) (i : Nat) (w : Word) : (s.setReg id i w).flt = s.flt := rfl
@[simp] theorem setReg_bst (s : State) (id : RegId) (i : Nat) (w : Word) : (s.setReg id i w).bst = s.bst := rfl
@[simp] theorem setReg_pwr (s : State) (id : RegId) (i : Nat) (w : Word) : (s.setReg id i w).pwr = s.pwr := rfl
@[simp] theorem setReg_kst (s : State) (id : RegId) (i : Nat) (w : Word) : (s.setReg id i w).kst = s.kst := rfl
@[simp] theorem setReg_links (s : State) (id : RegId) (i : Nat) (w : Word) : (s.setReg id i w).links = s.links := rfl
@[simp] theorem setReg_tbl (s : State) (id : RegId) (i : Nat) (w : Word) : (s.setReg id i w).tbl = s.tbl := rfl
@[simp] theorem setReg_ports (s : State) (id : RegId) (i : Nat) (w : Word) : (s.setReg id i w).ports = s.ports := rfl
@[simp] theorem setReg_daddrs (s : State) (id : RegId) (i : Nat) (w : Word) : (s.setReg id i w).daddrs = s.daddrs := rfl
@[simp] theorem setReg_dns (s : State) (id : RegId) (i : Nat) (w : Word) : (s.setReg id i w).dns = s.dns := rfl
@[simp] theorem setReg_gates (s : State) (id : RegId) (i : Nat) (w : Word) : (s.setReg id i w).gates = s.gates := rfl
@[simp] theorem setReg_insts (s : State) (id : RegId) (i : Nat) (w : Word) : (s.setReg id i w).insts = s.insts := rfl
@[simp] theorem setReg_mgt (s : State) (id : RegId) (i : Nat) (w : Word) : (s.setReg id i w).mgt = s.mgt := rfl
@[simp] theorem setReg_cmp (s : State) (id : RegId) (i : Nat) (w : Word) : (s.setReg id i w).cmp = s.cmp := rfl
@[simp] theorem setReg_img (s : State) (id : RegId) (i : Nat) (w : Word) : (s.setReg id i w).img = s.img := rfl
@[simp] theorem setReg_land (s : State) (id : RegId) (i : Nat) (w : Word) : (s.setReg id i w).land = s.land := rfl
@[simp] theorem setReg_tap (s : State) (id : RegId) (i : Nat) (w : Word) : (s.setReg id i w).tap = s.tap := rfl
@[simp] theorem setReg_engs (s : State) (id : RegId) (i : Nat) (w : Word) : (s.setReg id i w).engs = s.engs := rfl
@[simp] theorem setReg_jnl (s : State) (id : RegId) (i : Nat) (w : Word) : (s.setReg id i w).jnl = s.jnl := rfl
@[simp] theorem setReg_hub (s : State) (id : RegId) (i : Nat) (w : Word) : (s.setReg id i w).hub = s.hub := rfl
@[simp] theorem setReg_ops (s : State) (id : RegId) (i : Nat) (w : Word) : (s.setReg id i w).ops = s.ops := rfl
@[simp] theorem setReg_ctxs (s : State) (id : RegId) (i : Nat) (w : Word) : (s.setReg id i w).ctxs = s.ctxs := rfl
@[simp] theorem setReg_nextCtx (s : State) (id : RegId) (i : Nat) (w : Word) : (s.setReg id i w).nextCtx = s.nextCtx := rfl
@[simp] theorem setReg_qps (s : State) (id : RegId) (i : Nat) (w : Word) : (s.setReg id i w).qps = s.qps := rfl
@[simp] theorem setReg_pels (s : State) (id : RegId) (i : Nat) (w : Word) : (s.setReg id i w).pels = s.pels := rfl
@[simp] theorem setReg_evWait (s : State) (id : RegId) (i : Nat) (w : Word) : (s.setReg id i w).evWait = s.evWait := rfl
@[simp] theorem setReg_landOut (s : State) (id : RegId) (i : Nat) (w : Word) : (s.setReg id i w).landOut = s.landOut := rfl

/-! ### setShadow -/

@[simp] theorem setShadow_mode (s : State) (id : RegId) (i : Nat) (w : Word) : (s.setShadow id i w).mode = s.mode := rfl
@[simp] theorem setShadow_phase (s : State) (id : RegId) (i : Nat) (w : Word) : (s.setShadow id i w).phase = s.phase := rfl
@[simp] theorem setShadow_ts (s : State) (id : RegId) (i : Nat) (w : Word) : (s.setShadow id i w).ts = s.ts := rfl
@[simp] theorem setShadow_pending (s : State) (id : RegId) (i : Nat) (w : Word) : (s.setShadow id i w).pending = s.pending := rfl
@[simp] theorem setShadow_outp (s : State) (id : RegId) (i : Nat) (w : Word) : (s.setShadow id i w).outp = s.outp := rfl
@[simp] theorem setShadow_freeCount (s : State) (id : RegId) (i : Nat) (w : Word) : (s.setShadow id i w).freeCount = s.freeCount := rfl
@[simp] theorem setShadow_freeNext (s : State) (id : RegId) (i : Nat) (w : Word) : (s.setShadow id i w).freeNext = s.freeNext := rfl
@[simp] theorem setShadow_regs (s : State) (id : RegId) (i : Nat) (w : Word) : (s.setShadow id i w).regs = s.regs := rfl
@[simp] theorem setShadow_shadow (s : State) (id : RegId) (i : Nat) (w : Word) : (s.setShadow id i w).shadow = FMap.set id.row.reset (regOff id i) w s.shadow := rfl
@[simp] theorem setShadow_hiShadow (s : State) (id : RegId) (i : Nat) (w : Word) : (s.setShadow id i w).hiShadow = s.hiShadow := rfl
@[simp] theorem setShadow_keyPend (s : State) (id : RegId) (i : Nat) (w : Word) : (s.setShadow id i w).keyPend = s.keyPend := rfl
@[simp] theorem setShadow_strobe (s : State) (id : RegId) (i : Nat) (w : Word) : (s.setShadow id i w).strobe = s.strobe := rfl
@[simp] theorem setShadow_bcsWait (s : State) (id : RegId) (i : Nat) (w : Word) : (s.setShadow id i w).bcsWait = s.bcsWait := rfl
@[simp] theorem setShadow_slowQ (s : State) (id : RegId) (i : Nat) (w : Word) : (s.setShadow id i w).slowQ = s.slowQ := rfl
@[simp] theorem setShadow_flt (s : State) (id : RegId) (i : Nat) (w : Word) : (s.setShadow id i w).flt = s.flt := rfl
@[simp] theorem setShadow_bst (s : State) (id : RegId) (i : Nat) (w : Word) : (s.setShadow id i w).bst = s.bst := rfl
@[simp] theorem setShadow_pwr (s : State) (id : RegId) (i : Nat) (w : Word) : (s.setShadow id i w).pwr = s.pwr := rfl
@[simp] theorem setShadow_kst (s : State) (id : RegId) (i : Nat) (w : Word) : (s.setShadow id i w).kst = s.kst := rfl
@[simp] theorem setShadow_links (s : State) (id : RegId) (i : Nat) (w : Word) : (s.setShadow id i w).links = s.links := rfl
@[simp] theorem setShadow_tbl (s : State) (id : RegId) (i : Nat) (w : Word) : (s.setShadow id i w).tbl = s.tbl := rfl
@[simp] theorem setShadow_ports (s : State) (id : RegId) (i : Nat) (w : Word) : (s.setShadow id i w).ports = s.ports := rfl
@[simp] theorem setShadow_daddrs (s : State) (id : RegId) (i : Nat) (w : Word) : (s.setShadow id i w).daddrs = s.daddrs := rfl
@[simp] theorem setShadow_dns (s : State) (id : RegId) (i : Nat) (w : Word) : (s.setShadow id i w).dns = s.dns := rfl
@[simp] theorem setShadow_gates (s : State) (id : RegId) (i : Nat) (w : Word) : (s.setShadow id i w).gates = s.gates := rfl
@[simp] theorem setShadow_insts (s : State) (id : RegId) (i : Nat) (w : Word) : (s.setShadow id i w).insts = s.insts := rfl
@[simp] theorem setShadow_mgt (s : State) (id : RegId) (i : Nat) (w : Word) : (s.setShadow id i w).mgt = s.mgt := rfl
@[simp] theorem setShadow_cmp (s : State) (id : RegId) (i : Nat) (w : Word) : (s.setShadow id i w).cmp = s.cmp := rfl
@[simp] theorem setShadow_img (s : State) (id : RegId) (i : Nat) (w : Word) : (s.setShadow id i w).img = s.img := rfl
@[simp] theorem setShadow_land (s : State) (id : RegId) (i : Nat) (w : Word) : (s.setShadow id i w).land = s.land := rfl
@[simp] theorem setShadow_tap (s : State) (id : RegId) (i : Nat) (w : Word) : (s.setShadow id i w).tap = s.tap := rfl
@[simp] theorem setShadow_engs (s : State) (id : RegId) (i : Nat) (w : Word) : (s.setShadow id i w).engs = s.engs := rfl
@[simp] theorem setShadow_jnl (s : State) (id : RegId) (i : Nat) (w : Word) : (s.setShadow id i w).jnl = s.jnl := rfl
@[simp] theorem setShadow_hub (s : State) (id : RegId) (i : Nat) (w : Word) : (s.setShadow id i w).hub = s.hub := rfl
@[simp] theorem setShadow_ops (s : State) (id : RegId) (i : Nat) (w : Word) : (s.setShadow id i w).ops = s.ops := rfl
@[simp] theorem setShadow_ctxs (s : State) (id : RegId) (i : Nat) (w : Word) : (s.setShadow id i w).ctxs = s.ctxs := rfl
@[simp] theorem setShadow_nextCtx (s : State) (id : RegId) (i : Nat) (w : Word) : (s.setShadow id i w).nextCtx = s.nextCtx := rfl
@[simp] theorem setShadow_qps (s : State) (id : RegId) (i : Nat) (w : Word) : (s.setShadow id i w).qps = s.qps := rfl
@[simp] theorem setShadow_pels (s : State) (id : RegId) (i : Nat) (w : Word) : (s.setShadow id i w).pels = s.pels := rfl
@[simp] theorem setShadow_evWait (s : State) (id : RegId) (i : Nat) (w : Word) : (s.setShadow id i w).evWait = s.evWait := rfl
@[simp] theorem setShadow_landOut (s : State) (id : RegId) (i : Nat) (w : Word) : (s.setShadow id i w).landOut = s.landOut := rfl

/-! ### setF -/

@[simp] theorem setF_mode (s : State) (x : Fld) (v i : Nat) : (s.setF x v i).mode = s.mode := rfl
@[simp] theorem setF_phase (s : State) (x : Fld) (v i : Nat) : (s.setF x v i).phase = s.phase := rfl
@[simp] theorem setF_ts (s : State) (x : Fld) (v i : Nat) : (s.setF x v i).ts = s.ts := rfl
@[simp] theorem setF_pending (s : State) (x : Fld) (v i : Nat) : (s.setF x v i).pending = s.pending := rfl
@[simp] theorem setF_outp (s : State) (x : Fld) (v i : Nat) : (s.setF x v i).outp = s.outp := rfl
@[simp] theorem setF_freeCount (s : State) (x : Fld) (v i : Nat) : (s.setF x v i).freeCount = s.freeCount := rfl
@[simp] theorem setF_freeNext (s : State) (x : Fld) (v i : Nat) : (s.setF x v i).freeNext = s.freeNext := rfl
@[simp] theorem setF_regs (s : State) (x : Fld) (v i : Nat) : (s.setF x v i).regs = FMap.set x.id.row.reset (regOff x.id i) (setBits x.hi x.lo v (s.reg x.id i)) s.regs := rfl
@[simp] theorem setF_shadow (s : State) (x : Fld) (v i : Nat) : (s.setF x v i).shadow = s.shadow := rfl
@[simp] theorem setF_hiShadow (s : State) (x : Fld) (v i : Nat) : (s.setF x v i).hiShadow = s.hiShadow := rfl
@[simp] theorem setF_keyPend (s : State) (x : Fld) (v i : Nat) : (s.setF x v i).keyPend = s.keyPend := rfl
@[simp] theorem setF_strobe (s : State) (x : Fld) (v i : Nat) : (s.setF x v i).strobe = s.strobe := rfl
@[simp] theorem setF_bcsWait (s : State) (x : Fld) (v i : Nat) : (s.setF x v i).bcsWait = s.bcsWait := rfl
@[simp] theorem setF_slowQ (s : State) (x : Fld) (v i : Nat) : (s.setF x v i).slowQ = s.slowQ := rfl
@[simp] theorem setF_flt (s : State) (x : Fld) (v i : Nat) : (s.setF x v i).flt = s.flt := rfl
@[simp] theorem setF_bst (s : State) (x : Fld) (v i : Nat) : (s.setF x v i).bst = s.bst := rfl
@[simp] theorem setF_pwr (s : State) (x : Fld) (v i : Nat) : (s.setF x v i).pwr = s.pwr := rfl
@[simp] theorem setF_kst (s : State) (x : Fld) (v i : Nat) : (s.setF x v i).kst = s.kst := rfl
@[simp] theorem setF_links (s : State) (x : Fld) (v i : Nat) : (s.setF x v i).links = s.links := rfl
@[simp] theorem setF_tbl (s : State) (x : Fld) (v i : Nat) : (s.setF x v i).tbl = s.tbl := rfl
@[simp] theorem setF_ports (s : State) (x : Fld) (v i : Nat) : (s.setF x v i).ports = s.ports := rfl
@[simp] theorem setF_daddrs (s : State) (x : Fld) (v i : Nat) : (s.setF x v i).daddrs = s.daddrs := rfl
@[simp] theorem setF_dns (s : State) (x : Fld) (v i : Nat) : (s.setF x v i).dns = s.dns := rfl
@[simp] theorem setF_gates (s : State) (x : Fld) (v i : Nat) : (s.setF x v i).gates = s.gates := rfl
@[simp] theorem setF_insts (s : State) (x : Fld) (v i : Nat) : (s.setF x v i).insts = s.insts := rfl
@[simp] theorem setF_mgt (s : State) (x : Fld) (v i : Nat) : (s.setF x v i).mgt = s.mgt := rfl
@[simp] theorem setF_cmp (s : State) (x : Fld) (v i : Nat) : (s.setF x v i).cmp = s.cmp := rfl
@[simp] theorem setF_img (s : State) (x : Fld) (v i : Nat) : (s.setF x v i).img = s.img := rfl
@[simp] theorem setF_land (s : State) (x : Fld) (v i : Nat) : (s.setF x v i).land = s.land := rfl
@[simp] theorem setF_tap (s : State) (x : Fld) (v i : Nat) : (s.setF x v i).tap = s.tap := rfl
@[simp] theorem setF_engs (s : State) (x : Fld) (v i : Nat) : (s.setF x v i).engs = s.engs := rfl
@[simp] theorem setF_jnl (s : State) (x : Fld) (v i : Nat) : (s.setF x v i).jnl = s.jnl := rfl
@[simp] theorem setF_hub (s : State) (x : Fld) (v i : Nat) : (s.setF x v i).hub = s.hub := rfl
@[simp] theorem setF_ops (s : State) (x : Fld) (v i : Nat) : (s.setF x v i).ops = s.ops := rfl
@[simp] theorem setF_ctxs (s : State) (x : Fld) (v i : Nat) : (s.setF x v i).ctxs = s.ctxs := rfl
@[simp] theorem setF_nextCtx (s : State) (x : Fld) (v i : Nat) : (s.setF x v i).nextCtx = s.nextCtx := rfl
@[simp] theorem setF_qps (s : State) (x : Fld) (v i : Nat) : (s.setF x v i).qps = s.qps := rfl
@[simp] theorem setF_pels (s : State) (x : Fld) (v i : Nat) : (s.setF x v i).pels = s.pels := rfl
@[simp] theorem setF_evWait (s : State) (x : Fld) (v i : Nat) : (s.setF x v i).evWait = s.evWait := rfl
@[simp] theorem setF_landOut (s : State) (x : Fld) (v i : Nat) : (s.setF x v i).landOut = s.landOut := rfl

/-! ### incF -/

@[simp] theorem incF_mode (s : State) (x : Fld) (i n : Nat) : (s.incF x i n).mode = s.mode := rfl
@[simp] theorem incF_phase (s : State) (x : Fld) (i n : Nat) : (s.incF x i n).phase = s.phase := rfl
@[simp] theorem incF_ts (s : State) (x : Fld) (i n : Nat) : (s.incF x i n).ts = s.ts := rfl
@[simp] theorem incF_pending (s : State) (x : Fld) (i n : Nat) : (s.incF x i n).pending = s.pending := rfl
@[simp] theorem incF_outp (s : State) (x : Fld) (i n : Nat) : (s.incF x i n).outp = s.outp := rfl
@[simp] theorem incF_freeCount (s : State) (x : Fld) (i n : Nat) : (s.incF x i n).freeCount = s.freeCount := rfl
@[simp] theorem incF_freeNext (s : State) (x : Fld) (i n : Nat) : (s.incF x i n).freeNext = s.freeNext := rfl
@[simp] theorem incF_shadow (s : State) (x : Fld) (i n : Nat) : (s.incF x i n).shadow = s.shadow := rfl
@[simp] theorem incF_hiShadow (s : State) (x : Fld) (i n : Nat) : (s.incF x i n).hiShadow = s.hiShadow := rfl
@[simp] theorem incF_keyPend (s : State) (x : Fld) (i n : Nat) : (s.incF x i n).keyPend = s.keyPend := rfl
@[simp] theorem incF_strobe (s : State) (x : Fld) (i n : Nat) : (s.incF x i n).strobe = s.strobe := rfl
@[simp] theorem incF_bcsWait (s : State) (x : Fld) (i n : Nat) : (s.incF x i n).bcsWait = s.bcsWait := rfl
@[simp] theorem incF_slowQ (s : State) (x : Fld) (i n : Nat) : (s.incF x i n).slowQ = s.slowQ := rfl
@[simp] theorem incF_flt (s : State) (x : Fld) (i n : Nat) : (s.incF x i n).flt = s.flt := rfl
@[simp] theorem incF_bst (s : State) (x : Fld) (i n : Nat) : (s.incF x i n).bst = s.bst := rfl
@[simp] theorem incF_pwr (s : State) (x : Fld) (i n : Nat) : (s.incF x i n).pwr = s.pwr := rfl
@[simp] theorem incF_kst (s : State) (x : Fld) (i n : Nat) : (s.incF x i n).kst = s.kst := rfl
@[simp] theorem incF_links (s : State) (x : Fld) (i n : Nat) : (s.incF x i n).links = s.links := rfl
@[simp] theorem incF_tbl (s : State) (x : Fld) (i n : Nat) : (s.incF x i n).tbl = s.tbl := rfl
@[simp] theorem incF_ports (s : State) (x : Fld) (i n : Nat) : (s.incF x i n).ports = s.ports := rfl
@[simp] theorem incF_daddrs (s : State) (x : Fld) (i n : Nat) : (s.incF x i n).daddrs = s.daddrs := rfl
@[simp] theorem incF_dns (s : State) (x : Fld) (i n : Nat) : (s.incF x i n).dns = s.dns := rfl
@[simp] theorem incF_gates (s : State) (x : Fld) (i n : Nat) : (s.incF x i n).gates = s.gates := rfl
@[simp] theorem incF_insts (s : State) (x : Fld) (i n : Nat) : (s.incF x i n).insts = s.insts := rfl
@[simp] theorem incF_mgt (s : State) (x : Fld) (i n : Nat) : (s.incF x i n).mgt = s.mgt := rfl
@[simp] theorem incF_cmp (s : State) (x : Fld) (i n : Nat) : (s.incF x i n).cmp = s.cmp := rfl
@[simp] theorem incF_img (s : State) (x : Fld) (i n : Nat) : (s.incF x i n).img = s.img := rfl
@[simp] theorem incF_land (s : State) (x : Fld) (i n : Nat) : (s.incF x i n).land = s.land := rfl
@[simp] theorem incF_tap (s : State) (x : Fld) (i n : Nat) : (s.incF x i n).tap = s.tap := rfl
@[simp] theorem incF_engs (s : State) (x : Fld) (i n : Nat) : (s.incF x i n).engs = s.engs := rfl
@[simp] theorem incF_jnl (s : State) (x : Fld) (i n : Nat) : (s.incF x i n).jnl = s.jnl := rfl
@[simp] theorem incF_hub (s : State) (x : Fld) (i n : Nat) : (s.incF x i n).hub = s.hub := rfl
@[simp] theorem incF_ops (s : State) (x : Fld) (i n : Nat) : (s.incF x i n).ops = s.ops := rfl
@[simp] theorem incF_ctxs (s : State) (x : Fld) (i n : Nat) : (s.incF x i n).ctxs = s.ctxs := rfl
@[simp] theorem incF_nextCtx (s : State) (x : Fld) (i n : Nat) : (s.incF x i n).nextCtx = s.nextCtx := rfl
@[simp] theorem incF_qps (s : State) (x : Fld) (i n : Nat) : (s.incF x i n).qps = s.qps := rfl
@[simp] theorem incF_pels (s : State) (x : Fld) (i n : Nat) : (s.incF x i n).pels = s.pels := rfl
@[simp] theorem incF_evWait (s : State) (x : Fld) (i n : Nat) : (s.incF x i n).evWait = s.evWait := rfl
@[simp] theorem incF_landOut (s : State) (x : Fld) (i n : Nat) : (s.incF x i n).landOut = s.landOut := rfl

/-! ### maxF -/

@[simp] theorem maxF_mode (s : State) (x : Fld) (v i : Nat) : (s.maxF x v i).mode = s.mode := rfl
@[simp] theorem maxF_phase (s : State) (x : Fld) (v i : Nat) : (s.maxF x v i).phase = s.phase := rfl
@[simp] theorem maxF_ts (s : State) (x : Fld) (v i : Nat) : (s.maxF x v i).ts = s.ts := rfl
@[simp] theorem maxF_pending (s : State) (x : Fld) (v i : Nat) : (s.maxF x v i).pending = s.pending := rfl
@[simp] theorem maxF_outp (s : State) (x : Fld) (v i : Nat) : (s.maxF x v i).outp = s.outp := rfl
@[simp] theorem maxF_freeCount (s : State) (x : Fld) (v i : Nat) : (s.maxF x v i).freeCount = s.freeCount := rfl
@[simp] theorem maxF_freeNext (s : State) (x : Fld) (v i : Nat) : (s.maxF x v i).freeNext = s.freeNext := rfl
@[simp] theorem maxF_shadow (s : State) (x : Fld) (v i : Nat) : (s.maxF x v i).shadow = s.shadow := rfl
@[simp] theorem maxF_hiShadow (s : State) (x : Fld) (v i : Nat) : (s.maxF x v i).hiShadow = s.hiShadow := rfl
@[simp] theorem maxF_keyPend (s : State) (x : Fld) (v i : Nat) : (s.maxF x v i).keyPend = s.keyPend := rfl
@[simp] theorem maxF_strobe (s : State) (x : Fld) (v i : Nat) : (s.maxF x v i).strobe = s.strobe := rfl
@[simp] theorem maxF_bcsWait (s : State) (x : Fld) (v i : Nat) : (s.maxF x v i).bcsWait = s.bcsWait := rfl
@[simp] theorem maxF_slowQ (s : State) (x : Fld) (v i : Nat) : (s.maxF x v i).slowQ = s.slowQ := rfl
@[simp] theorem maxF_flt (s : State) (x : Fld) (v i : Nat) : (s.maxF x v i).flt = s.flt := rfl
@[simp] theorem maxF_bst (s : State) (x : Fld) (v i : Nat) : (s.maxF x v i).bst = s.bst := rfl
@[simp] theorem maxF_pwr (s : State) (x : Fld) (v i : Nat) : (s.maxF x v i).pwr = s.pwr := rfl
@[simp] theorem maxF_kst (s : State) (x : Fld) (v i : Nat) : (s.maxF x v i).kst = s.kst := rfl
@[simp] theorem maxF_links (s : State) (x : Fld) (v i : Nat) : (s.maxF x v i).links = s.links := rfl
@[simp] theorem maxF_tbl (s : State) (x : Fld) (v i : Nat) : (s.maxF x v i).tbl = s.tbl := rfl
@[simp] theorem maxF_ports (s : State) (x : Fld) (v i : Nat) : (s.maxF x v i).ports = s.ports := rfl
@[simp] theorem maxF_daddrs (s : State) (x : Fld) (v i : Nat) : (s.maxF x v i).daddrs = s.daddrs := rfl
@[simp] theorem maxF_dns (s : State) (x : Fld) (v i : Nat) : (s.maxF x v i).dns = s.dns := rfl
@[simp] theorem maxF_gates (s : State) (x : Fld) (v i : Nat) : (s.maxF x v i).gates = s.gates := rfl
@[simp] theorem maxF_insts (s : State) (x : Fld) (v i : Nat) : (s.maxF x v i).insts = s.insts := rfl
@[simp] theorem maxF_mgt (s : State) (x : Fld) (v i : Nat) : (s.maxF x v i).mgt = s.mgt := rfl
@[simp] theorem maxF_cmp (s : State) (x : Fld) (v i : Nat) : (s.maxF x v i).cmp = s.cmp := rfl
@[simp] theorem maxF_img (s : State) (x : Fld) (v i : Nat) : (s.maxF x v i).img = s.img := rfl
@[simp] theorem maxF_land (s : State) (x : Fld) (v i : Nat) : (s.maxF x v i).land = s.land := rfl
@[simp] theorem maxF_tap (s : State) (x : Fld) (v i : Nat) : (s.maxF x v i).tap = s.tap := rfl
@[simp] theorem maxF_engs (s : State) (x : Fld) (v i : Nat) : (s.maxF x v i).engs = s.engs := rfl
@[simp] theorem maxF_jnl (s : State) (x : Fld) (v i : Nat) : (s.maxF x v i).jnl = s.jnl := rfl
@[simp] theorem maxF_hub (s : State) (x : Fld) (v i : Nat) : (s.maxF x v i).hub = s.hub := rfl
@[simp] theorem maxF_ops (s : State) (x : Fld) (v i : Nat) : (s.maxF x v i).ops = s.ops := rfl
@[simp] theorem maxF_ctxs (s : State) (x : Fld) (v i : Nat) : (s.maxF x v i).ctxs = s.ctxs := rfl
@[simp] theorem maxF_nextCtx (s : State) (x : Fld) (v i : Nat) : (s.maxF x v i).nextCtx = s.nextCtx := rfl
@[simp] theorem maxF_qps (s : State) (x : Fld) (v i : Nat) : (s.maxF x v i).qps = s.qps := rfl
@[simp] theorem maxF_pels (s : State) (x : Fld) (v i : Nat) : (s.maxF x v i).pels = s.pels := rfl
@[simp] theorem maxF_evWait (s : State) (x : Fld) (v i : Nat) : (s.maxF x v i).evWait = s.evWait := rfl
@[simp] theorem maxF_landOut (s : State) (x : Fld) (v i : Nat) : (s.maxF x v i).landOut = s.landOut := rfl

/-! ### setPair -/

@[simp] theorem setPair_mode (s : State) (lo hi : Fld) (v i : Nat) : (s.setPair lo hi v i).mode = s.mode := rfl
@[simp] theorem setPair_phase (s : State) (lo hi : Fld) (v i : Nat) : (s.setPair lo hi v i).phase = s.phase := rfl
@[simp] theorem setPair_ts (s : State) (lo hi : Fld) (v i : Nat) : (s.setPair lo hi v i).ts = s.ts := rfl
@[simp] theorem setPair_pending (s : State) (lo hi : Fld) (v i : Nat) : (s.setPair lo hi v i).pending = s.pending := rfl
@[simp] theorem setPair_outp (s : State) (lo hi : Fld) (v i : Nat) : (s.setPair lo hi v i).outp = s.outp := rfl
@[simp] theorem setPair_freeCount (s : State) (lo hi : Fld) (v i : Nat) : (s.setPair lo hi v i).freeCount = s.freeCount := rfl
@[simp] theorem setPair_freeNext (s : State) (lo hi : Fld) (v i : Nat) : (s.setPair lo hi v i).freeNext = s.freeNext := rfl
@[simp] theorem setPair_shadow (s : State) (lo hi : Fld) (v i : Nat) : (s.setPair lo hi v i).shadow = s.shadow := rfl
@[simp] theorem setPair_hiShadow (s : State) (lo hi : Fld) (v i : Nat) : (s.setPair lo hi v i).hiShadow = s.hiShadow := rfl
@[simp] theorem setPair_keyPend (s : State) (lo hi : Fld) (v i : Nat) : (s.setPair lo hi v i).keyPend = s.keyPend := rfl
@[simp] theorem setPair_strobe (s : State) (lo hi : Fld) (v i : Nat) : (s.setPair lo hi v i).strobe = s.strobe := rfl
@[simp] theorem setPair_bcsWait (s : State) (lo hi : Fld) (v i : Nat) : (s.setPair lo hi v i).bcsWait = s.bcsWait := rfl
@[simp] theorem setPair_slowQ (s : State) (lo hi : Fld) (v i : Nat) : (s.setPair lo hi v i).slowQ = s.slowQ := rfl
@[simp] theorem setPair_flt (s : State) (lo hi : Fld) (v i : Nat) : (s.setPair lo hi v i).flt = s.flt := rfl
@[simp] theorem setPair_bst (s : State) (lo hi : Fld) (v i : Nat) : (s.setPair lo hi v i).bst = s.bst := rfl
@[simp] theorem setPair_pwr (s : State) (lo hi : Fld) (v i : Nat) : (s.setPair lo hi v i).pwr = s.pwr := rfl
@[simp] theorem setPair_kst (s : State) (lo hi : Fld) (v i : Nat) : (s.setPair lo hi v i).kst = s.kst := rfl
@[simp] theorem setPair_links (s : State) (lo hi : Fld) (v i : Nat) : (s.setPair lo hi v i).links = s.links := rfl
@[simp] theorem setPair_tbl (s : State) (lo hi : Fld) (v i : Nat) : (s.setPair lo hi v i).tbl = s.tbl := rfl
@[simp] theorem setPair_ports (s : State) (lo hi : Fld) (v i : Nat) : (s.setPair lo hi v i).ports = s.ports := rfl
@[simp] theorem setPair_daddrs (s : State) (lo hi : Fld) (v i : Nat) : (s.setPair lo hi v i).daddrs = s.daddrs := rfl
@[simp] theorem setPair_dns (s : State) (lo hi : Fld) (v i : Nat) : (s.setPair lo hi v i).dns = s.dns := rfl
@[simp] theorem setPair_gates (s : State) (lo hi : Fld) (v i : Nat) : (s.setPair lo hi v i).gates = s.gates := rfl
@[simp] theorem setPair_insts (s : State) (lo hi : Fld) (v i : Nat) : (s.setPair lo hi v i).insts = s.insts := rfl
@[simp] theorem setPair_mgt (s : State) (lo hi : Fld) (v i : Nat) : (s.setPair lo hi v i).mgt = s.mgt := rfl
@[simp] theorem setPair_cmp (s : State) (lo hi : Fld) (v i : Nat) : (s.setPair lo hi v i).cmp = s.cmp := rfl
@[simp] theorem setPair_img (s : State) (lo hi : Fld) (v i : Nat) : (s.setPair lo hi v i).img = s.img := rfl
@[simp] theorem setPair_land (s : State) (lo hi : Fld) (v i : Nat) : (s.setPair lo hi v i).land = s.land := rfl
@[simp] theorem setPair_tap (s : State) (lo hi : Fld) (v i : Nat) : (s.setPair lo hi v i).tap = s.tap := rfl
@[simp] theorem setPair_engs (s : State) (lo hi : Fld) (v i : Nat) : (s.setPair lo hi v i).engs = s.engs := rfl
@[simp] theorem setPair_jnl (s : State) (lo hi : Fld) (v i : Nat) : (s.setPair lo hi v i).jnl = s.jnl := rfl
@[simp] theorem setPair_hub (s : State) (lo hi : Fld) (v i : Nat) : (s.setPair lo hi v i).hub = s.hub := rfl
@[simp] theorem setPair_ops (s : State) (lo hi : Fld) (v i : Nat) : (s.setPair lo hi v i).ops = s.ops := rfl
@[simp] theorem setPair_ctxs (s : State) (lo hi : Fld) (v i : Nat) : (s.setPair lo hi v i).ctxs = s.ctxs := rfl
@[simp] theorem setPair_nextCtx (s : State) (lo hi : Fld) (v i : Nat) : (s.setPair lo hi v i).nextCtx = s.nextCtx := rfl
@[simp] theorem setPair_qps (s : State) (lo hi : Fld) (v i : Nat) : (s.setPair lo hi v i).qps = s.qps := rfl
@[simp] theorem setPair_pels (s : State) (lo hi : Fld) (v i : Nat) : (s.setPair lo hi v i).pels = s.pels := rfl
@[simp] theorem setPair_evWait (s : State) (lo hi : Fld) (v i : Nat) : (s.setPair lo hi v i).evWait = s.evWait := rfl
@[simp] theorem setPair_landOut (s : State) (lo hi : Fld) (v i : Nat) : (s.setPair lo hi v i).landOut = s.landOut := rfl

/-! ### setImg -/

@[simp] theorem setImg_mode (s : State) (x : Fld) (v i : Nat) : (s.setImg x v i).mode = s.mode := rfl
@[simp] theorem setImg_phase (s : State) (x : Fld) (v i : Nat) : (s.setImg x v i).phase = s.phase := rfl
@[simp] theorem setImg_ts (s : State) (x : Fld) (v i : Nat) : (s.setImg x v i).ts = s.ts := rfl
@[simp] theorem setImg_pending (s : State) (x : Fld) (v i : Nat) : (s.setImg x v i).pending = s.pending := rfl
@[simp] theorem setImg_outp (s : State) (x : Fld) (v i : Nat) : (s.setImg x v i).outp = s.outp := rfl
@[simp] theorem setImg_freeCount (s : State) (x : Fld) (v i : Nat) : (s.setImg x v i).freeCount = s.freeCount := rfl
@[simp] theorem setImg_freeNext (s : State) (x : Fld) (v i : Nat) : (s.setImg x v i).freeNext = s.freeNext := rfl
@[simp] theorem setImg_hiShadow (s : State) (x : Fld) (v i : Nat) : (s.setImg x v i).hiShadow = s.hiShadow := rfl
@[simp] theorem setImg_keyPend (s : State) (x : Fld) (v i : Nat) : (s.setImg x v i).keyPend = s.keyPend := rfl
@[simp] theorem setImg_strobe (s : State) (x : Fld) (v i : Nat) : (s.setImg x v i).strobe = s.strobe := rfl
@[simp] theorem setImg_bcsWait (s : State) (x : Fld) (v i : Nat) : (s.setImg x v i).bcsWait = s.bcsWait := rfl
@[simp] theorem setImg_slowQ (s : State) (x : Fld) (v i : Nat) : (s.setImg x v i).slowQ = s.slowQ := rfl
@[simp] theorem setImg_flt (s : State) (x : Fld) (v i : Nat) : (s.setImg x v i).flt = s.flt := rfl
@[simp] theorem setImg_bst (s : State) (x : Fld) (v i : Nat) : (s.setImg x v i).bst = s.bst := rfl
@[simp] theorem setImg_pwr (s : State) (x : Fld) (v i : Nat) : (s.setImg x v i).pwr = s.pwr := rfl
@[simp] theorem setImg_kst (s : State) (x : Fld) (v i : Nat) : (s.setImg x v i).kst = s.kst := rfl
@[simp] theorem setImg_links (s : State) (x : Fld) (v i : Nat) : (s.setImg x v i).links = s.links := rfl
@[simp] theorem setImg_tbl (s : State) (x : Fld) (v i : Nat) : (s.setImg x v i).tbl = s.tbl := rfl
@[simp] theorem setImg_ports (s : State) (x : Fld) (v i : Nat) : (s.setImg x v i).ports = s.ports := rfl
@[simp] theorem setImg_daddrs (s : State) (x : Fld) (v i : Nat) : (s.setImg x v i).daddrs = s.daddrs := rfl
@[simp] theorem setImg_dns (s : State) (x : Fld) (v i : Nat) : (s.setImg x v i).dns = s.dns := rfl
@[simp] theorem setImg_gates (s : State) (x : Fld) (v i : Nat) : (s.setImg x v i).gates = s.gates := rfl
@[simp] theorem setImg_insts (s : State) (x : Fld) (v i : Nat) : (s.setImg x v i).insts = s.insts := rfl
@[simp] theorem setImg_mgt (s : State) (x : Fld) (v i : Nat) : (s.setImg x v i).mgt = s.mgt := rfl
@[simp] theorem setImg_cmp (s : State) (x : Fld) (v i : Nat) : (s.setImg x v i).cmp = s.cmp := rfl
@[simp] theorem setImg_img (s : State) (x : Fld) (v i : Nat) : (s.setImg x v i).img = s.img := rfl
@[simp] theorem setImg_land (s : State) (x : Fld) (v i : Nat) : (s.setImg x v i).land = s.land := rfl
@[simp] theorem setImg_tap (s : State) (x : Fld) (v i : Nat) : (s.setImg x v i).tap = s.tap := rfl
@[simp] theorem setImg_engs (s : State) (x : Fld) (v i : Nat) : (s.setImg x v i).engs = s.engs := rfl
@[simp] theorem setImg_jnl (s : State) (x : Fld) (v i : Nat) : (s.setImg x v i).jnl = s.jnl := rfl
@[simp] theorem setImg_hub (s : State) (x : Fld) (v i : Nat) : (s.setImg x v i).hub = s.hub := rfl
@[simp] theorem setImg_ops (s : State) (x : Fld) (v i : Nat) : (s.setImg x v i).ops = s.ops := rfl
@[simp] theorem setImg_ctxs (s : State) (x : Fld) (v i : Nat) : (s.setImg x v i).ctxs = s.ctxs := rfl
@[simp] theorem setImg_nextCtx (s : State) (x : Fld) (v i : Nat) : (s.setImg x v i).nextCtx = s.nextCtx := rfl
@[simp] theorem setImg_qps (s : State) (x : Fld) (v i : Nat) : (s.setImg x v i).qps = s.qps := rfl
@[simp] theorem setImg_pels (s : State) (x : Fld) (v i : Nat) : (s.setImg x v i).pels = s.pels := rfl
@[simp] theorem setImg_evWait (s : State) (x : Fld) (v i : Nat) : (s.setImg x v i).evWait = s.evWait := rfl
@[simp] theorem setImg_landOut (s : State) (x : Fld) (v i : Nat) : (s.setImg x v i).landOut = s.landOut := rfl

/-! ### emit -/

@[simp] theorem emit_mode (s : State) (o : Output) : (s.emit o).mode = s.mode := rfl
@[simp] theorem emit_phase (s : State) (o : Output) : (s.emit o).phase = s.phase := rfl
@[simp] theorem emit_ts (s : State) (o : Output) : (s.emit o).ts = s.ts := rfl
@[simp] theorem emit_pending (s : State) (o : Output) : (s.emit o).pending = s.pending := rfl
@[simp] theorem emit_outp (s : State) (o : Output) : (s.emit o).outp = s.outp ++ [o] := rfl
@[simp] theorem emit_freeCount (s : State) (o : Output) : (s.emit o).freeCount = s.freeCount := rfl
@[simp] theorem emit_freeNext (s : State) (o : Output) : (s.emit o).freeNext = s.freeNext := rfl
@[simp] theorem emit_regs (s : State) (o : Output) : (s.emit o).regs = s.regs := rfl
@[simp] theorem emit_shadow (s : State) (o : Output) : (s.emit o).shadow = s.shadow := rfl
@[simp] theorem emit_hiShadow (s : State) (o : Output) : (s.emit o).hiShadow = s.hiShadow := rfl
@[simp] theorem emit_keyPend (s : State) (o : Output) : (s.emit o).keyPend = s.keyPend := rfl
@[simp] theorem emit_strobe (s : State) (o : Output) : (s.emit o).strobe = s.strobe := rfl
@[simp] theorem emit_bcsWait (s : State) (o : Output) : (s.emit o).bcsWait = s.bcsWait := rfl
@[simp] theorem emit_slowQ (s : State) (o : Output) : (s.emit o).slowQ = s.slowQ := rfl
@[simp] theorem emit_flt (s : State) (o : Output) : (s.emit o).flt = s.flt := rfl
@[simp] theorem emit_bst (s : State) (o : Output) : (s.emit o).bst = s.bst := rfl
@[simp] theorem emit_pwr (s : State) (o : Output) : (s.emit o).pwr = s.pwr := rfl
@[simp] theorem emit_kst (s : State) (o : Output) : (s.emit o).kst = s.kst := rfl
@[simp] theorem emit_links (s : State) (o : Output) : (s.emit o).links = s.links := rfl
@[simp] theorem emit_tbl (s : State) (o : Output) : (s.emit o).tbl = s.tbl := rfl
@[simp] theorem emit_ports (s : State) (o : Output) : (s.emit o).ports = s.ports := rfl
@[simp] theorem emit_daddrs (s : State) (o : Output) : (s.emit o).daddrs = s.daddrs := rfl
@[simp] theorem emit_dns (s : State) (o : Output) : (s.emit o).dns = s.dns := rfl
@[simp] theorem emit_gates (s : State) (o : Output) : (s.emit o).gates = s.gates := rfl
@[simp] theorem emit_insts (s : State) (o : Output) : (s.emit o).insts = s.insts := rfl
@[simp] theorem emit_mgt (s : State) (o : Output) : (s.emit o).mgt = s.mgt := rfl
@[simp] theorem emit_cmp (s : State) (o : Output) : (s.emit o).cmp = s.cmp := rfl
@[simp] theorem emit_img (s : State) (o : Output) : (s.emit o).img = s.img := rfl
@[simp] theorem emit_land (s : State) (o : Output) : (s.emit o).land = s.land := rfl
@[simp] theorem emit_tap (s : State) (o : Output) : (s.emit o).tap = s.tap := rfl
@[simp] theorem emit_engs (s : State) (o : Output) : (s.emit o).engs = s.engs := rfl
@[simp] theorem emit_jnl (s : State) (o : Output) : (s.emit o).jnl = s.jnl := rfl
@[simp] theorem emit_hub (s : State) (o : Output) : (s.emit o).hub = s.hub := rfl
@[simp] theorem emit_ops (s : State) (o : Output) : (s.emit o).ops = s.ops := rfl
@[simp] theorem emit_ctxs (s : State) (o : Output) : (s.emit o).ctxs = s.ctxs := rfl
@[simp] theorem emit_nextCtx (s : State) (o : Output) : (s.emit o).nextCtx = s.nextCtx := rfl
@[simp] theorem emit_qps (s : State) (o : Output) : (s.emit o).qps = s.qps := rfl
@[simp] theorem emit_pels (s : State) (o : Output) : (s.emit o).pels = s.pels := rfl
@[simp] theorem emit_evWait (s : State) (o : Output) : (s.emit o).evWait = s.evWait := rfl
@[simp] theorem emit_landOut (s : State) (o : Output) : (s.emit o).landOut = s.landOut := rfl

/-! ### start -/

@[simp] theorem start_mode (s : State) : s.start.mode = s.mode := rfl
@[simp] theorem start_phase (s : State) : s.start.phase = s.phase := rfl
@[simp] theorem start_ts (s : State) : s.start.ts = s.ts := rfl
@[simp] theorem start_pending (s : State) : s.start.pending = s.pending := rfl
@[simp] theorem start_outp (s : State) : s.start.outp = [] := rfl
@[simp] theorem start_freeCount (s : State) : s.start.freeCount = s.freeCount := rfl
@[simp] theorem start_freeNext (s : State) : s.start.freeNext = s.freeNext := rfl
@[simp] theorem start_regs (s : State) : s.start.regs = s.regs := rfl
@[simp] theorem start_shadow (s : State) : s.start.shadow = s.shadow := rfl
@[simp] theorem start_hiShadow (s : State) : s.start.hiShadow = s.hiShadow := rfl
@[simp] theorem start_keyPend (s : State) : s.start.keyPend = s.keyPend := rfl
@[simp] theorem start_strobe (s : State) : s.start.strobe = s.strobe := rfl
@[simp] theorem start_bcsWait (s : State) : s.start.bcsWait = s.bcsWait := rfl
@[simp] theorem start_slowQ (s : State) : s.start.slowQ = s.slowQ := rfl
@[simp] theorem start_flt (s : State) : s.start.flt = { s.flt with firstNow := false, haltNow := false } := rfl
@[simp] theorem start_bst (s : State) : s.start.bst = s.bst := rfl
@[simp] theorem start_pwr (s : State) : s.start.pwr = s.pwr := rfl
@[simp] theorem start_kst (s : State) : s.start.kst = s.kst := rfl
@[simp] theorem start_links (s : State) : s.start.links = s.links := rfl
@[simp] theorem start_tbl (s : State) : s.start.tbl = s.tbl := rfl
@[simp] theorem start_ports (s : State) : s.start.ports = s.ports := rfl
@[simp] theorem start_daddrs (s : State) : s.start.daddrs = s.daddrs := rfl
@[simp] theorem start_dns (s : State) : s.start.dns = s.dns := rfl
@[simp] theorem start_gates (s : State) : s.start.gates = s.gates := rfl
@[simp] theorem start_insts (s : State) : s.start.insts = s.insts := rfl
@[simp] theorem start_mgt (s : State) : s.start.mgt = s.mgt := rfl
@[simp] theorem start_cmp (s : State) : s.start.cmp = s.cmp := rfl
@[simp] theorem start_img (s : State) : s.start.img = s.img := rfl
@[simp] theorem start_land (s : State) : s.start.land = s.land := rfl
@[simp] theorem start_tap (s : State) : s.start.tap = s.tap := rfl
@[simp] theorem start_engs (s : State) : s.start.engs = s.engs := rfl
@[simp] theorem start_jnl (s : State) : s.start.jnl = s.jnl := rfl
@[simp] theorem start_hub (s : State) : s.start.hub = s.hub := rfl
@[simp] theorem start_ops (s : State) : s.start.ops = s.ops := rfl
@[simp] theorem start_ctxs (s : State) : s.start.ctxs = s.ctxs := rfl
@[simp] theorem start_nextCtx (s : State) : s.start.nextCtx = s.nextCtx := rfl
@[simp] theorem start_qps (s : State) : s.start.qps = s.qps := rfl
@[simp] theorem start_pels (s : State) : s.start.pels = s.pels := rfl
@[simp] theorem start_evWait (s : State) : s.start.evWait = s.evWait := rfl
@[simp] theorem start_landOut (s : State) : s.start.landOut = s.landOut := rfl

/-! ### draw -/

@[simp] theorem draw_mode (s : State) : s.draw.mode = s.mode := rfl
@[simp] theorem draw_phase (s : State) : s.draw.phase = s.phase := rfl
@[simp] theorem draw_ts (s : State) : s.draw.ts = s.ts := rfl
@[simp] theorem draw_pending (s : State) : s.draw.pending = s.pending := rfl
@[simp] theorem draw_outp (s : State) : s.draw.outp = s.outp := rfl
@[simp] theorem draw_freeCount (s : State) : s.draw.freeCount = s.freeCount + 1 := rfl
@[simp] theorem draw_regs (s : State) : s.draw.regs = s.regs := rfl
@[simp] theorem draw_shadow (s : State) : s.draw.shadow = s.shadow := rfl
@[simp] theorem draw_hiShadow (s : State) : s.draw.hiShadow = s.hiShadow := rfl
@[simp] theorem draw_keyPend (s : State) : s.draw.keyPend = s.keyPend := rfl
@[simp] theorem draw_strobe (s : State) : s.draw.strobe = s.strobe := rfl
@[simp] theorem draw_bcsWait (s : State) : s.draw.bcsWait = s.bcsWait := rfl
@[simp] theorem draw_slowQ (s : State) : s.draw.slowQ = s.slowQ := rfl
@[simp] theorem draw_flt (s : State) : s.draw.flt = s.flt := rfl
@[simp] theorem draw_bst (s : State) : s.draw.bst = s.bst := rfl
@[simp] theorem draw_pwr (s : State) : s.draw.pwr = s.pwr := rfl
@[simp] theorem draw_kst (s : State) : s.draw.kst = s.kst := rfl
@[simp] theorem draw_links (s : State) : s.draw.links = s.links := rfl
@[simp] theorem draw_tbl (s : State) : s.draw.tbl = s.tbl := rfl
@[simp] theorem draw_ports (s : State) : s.draw.ports = s.ports := rfl
@[simp] theorem draw_daddrs (s : State) : s.draw.daddrs = s.daddrs := rfl
@[simp] theorem draw_dns (s : State) : s.draw.dns = s.dns := rfl
@[simp] theorem draw_gates (s : State) : s.draw.gates = s.gates := rfl
@[simp] theorem draw_insts (s : State) : s.draw.insts = s.insts := rfl
@[simp] theorem draw_mgt (s : State) : s.draw.mgt = s.mgt := rfl
@[simp] theorem draw_cmp (s : State) : s.draw.cmp = s.cmp := rfl
@[simp] theorem draw_img (s : State) : s.draw.img = s.img := rfl
@[simp] theorem draw_land (s : State) : s.draw.land = s.land := rfl
@[simp] theorem draw_tap (s : State) : s.draw.tap = s.tap := rfl
@[simp] theorem draw_engs (s : State) : s.draw.engs = s.engs := rfl
@[simp] theorem draw_jnl (s : State) : s.draw.jnl = s.jnl := rfl
@[simp] theorem draw_hub (s : State) : s.draw.hub = s.hub := rfl
@[simp] theorem draw_ops (s : State) : s.draw.ops = s.ops := rfl
@[simp] theorem draw_ctxs (s : State) : s.draw.ctxs = s.ctxs := rfl
@[simp] theorem draw_nextCtx (s : State) : s.draw.nextCtx = s.nextCtx := rfl
@[simp] theorem draw_qps (s : State) : s.draw.qps = s.qps := rfl
@[simp] theorem draw_pels (s : State) : s.draw.pels = s.pels := rfl
@[simp] theorem draw_evWait (s : State) : s.draw.evWait = s.evWait := rfl
@[simp] theorem draw_landOut (s : State) : s.draw.landOut = s.landOut := rfl

/-! ### modLink -/

@[simp] theorem modLink_mode (s : State) (l : Nat) (g : Link → Link) : (s.modLink l g).mode = s.mode := rfl
@[simp] theorem modLink_phase (s : State) (l : Nat) (g : Link → Link) : (s.modLink l g).phase = s.phase := rfl
@[simp] theorem modLink_ts (s : State) (l : Nat) (g : Link → Link) : (s.modLink l g).ts = s.ts := rfl
@[simp] theorem modLink_pending (s : State) (l : Nat) (g : Link → Link) : (s.modLink l g).pending = s.pending := rfl
@[simp] theorem modLink_outp (s : State) (l : Nat) (g : Link → Link) : (s.modLink l g).outp = s.outp := rfl
@[simp] theorem modLink_freeCount (s : State) (l : Nat) (g : Link → Link) : (s.modLink l g).freeCount = s.freeCount := rfl
@[simp] theorem modLink_freeNext (s : State) (l : Nat) (g : Link → Link) : (s.modLink l g).freeNext = s.freeNext := rfl
@[simp] theorem modLink_regs (s : State) (l : Nat) (g : Link → Link) : (s.modLink l g).regs = s.regs := rfl
@[simp] theorem modLink_shadow (s : State) (l : Nat) (g : Link → Link) : (s.modLink l g).shadow = s.shadow := rfl
@[simp] theorem modLink_hiShadow (s : State) (l : Nat) (g : Link → Link) : (s.modLink l g).hiShadow = s.hiShadow := rfl
@[simp] theorem modLink_keyPend (s : State) (l : Nat) (g : Link → Link) : (s.modLink l g).keyPend = s.keyPend := rfl
@[simp] theorem modLink_strobe (s : State) (l : Nat) (g : Link → Link) : (s.modLink l g).strobe = s.strobe := rfl
@[simp] theorem modLink_bcsWait (s : State) (l : Nat) (g : Link → Link) : (s.modLink l g).bcsWait = s.bcsWait := rfl
@[simp] theorem modLink_slowQ (s : State) (l : Nat) (g : Link → Link) : (s.modLink l g).slowQ = s.slowQ := rfl
@[simp] theorem modLink_flt (s : State) (l : Nat) (g : Link → Link) : (s.modLink l g).flt = s.flt := rfl
@[simp] theorem modLink_bst (s : State) (l : Nat) (g : Link → Link) : (s.modLink l g).bst = s.bst := rfl
@[simp] theorem modLink_pwr (s : State) (l : Nat) (g : Link → Link) : (s.modLink l g).pwr = s.pwr := rfl
@[simp] theorem modLink_kst (s : State) (l : Nat) (g : Link → Link) : (s.modLink l g).kst = s.kst := rfl
@[simp] theorem modLink_links (s : State) (l : Nat) (g : Link → Link) : (s.modLink l g).links = FMap.mod {} l g s.links := rfl
@[simp] theorem modLink_tbl (s : State) (l : Nat) (g : Link → Link) : (s.modLink l g).tbl = s.tbl := rfl
@[simp] theorem modLink_ports (s : State) (l : Nat) (g : Link → Link) : (s.modLink l g).ports = s.ports := rfl
@[simp] theorem modLink_daddrs (s : State) (l : Nat) (g : Link → Link) : (s.modLink l g).daddrs = s.daddrs := rfl
@[simp] theorem modLink_dns (s : State) (l : Nat) (g : Link → Link) : (s.modLink l g).dns = s.dns := rfl
@[simp] theorem modLink_gates (s : State) (l : Nat) (g : Link → Link) : (s.modLink l g).gates = s.gates := rfl
@[simp] theorem modLink_insts (s : State) (l : Nat) (g : Link → Link) : (s.modLink l g).insts = s.insts := rfl
@[simp] theorem modLink_mgt (s : State) (l : Nat) (g : Link → Link) : (s.modLink l g).mgt = s.mgt := rfl
@[simp] theorem modLink_cmp (s : State) (l : Nat) (g : Link → Link) : (s.modLink l g).cmp = s.cmp := rfl
@[simp] theorem modLink_img (s : State) (l : Nat) (g : Link → Link) : (s.modLink l g).img = s.img := rfl
@[simp] theorem modLink_land (s : State) (l : Nat) (g : Link → Link) : (s.modLink l g).land = s.land := rfl
@[simp] theorem modLink_tap (s : State) (l : Nat) (g : Link → Link) : (s.modLink l g).tap = s.tap := rfl
@[simp] theorem modLink_engs (s : State) (l : Nat) (g : Link → Link) : (s.modLink l g).engs = s.engs := rfl
@[simp] theorem modLink_jnl (s : State) (l : Nat) (g : Link → Link) : (s.modLink l g).jnl = s.jnl := rfl
@[simp] theorem modLink_hub (s : State) (l : Nat) (g : Link → Link) : (s.modLink l g).hub = s.hub := rfl
@[simp] theorem modLink_ops (s : State) (l : Nat) (g : Link → Link) : (s.modLink l g).ops = s.ops := rfl
@[simp] theorem modLink_ctxs (s : State) (l : Nat) (g : Link → Link) : (s.modLink l g).ctxs = s.ctxs := rfl
@[simp] theorem modLink_nextCtx (s : State) (l : Nat) (g : Link → Link) : (s.modLink l g).nextCtx = s.nextCtx := rfl
@[simp] theorem modLink_qps (s : State) (l : Nat) (g : Link → Link) : (s.modLink l g).qps = s.qps := rfl
@[simp] theorem modLink_pels (s : State) (l : Nat) (g : Link → Link) : (s.modLink l g).pels = s.pels := rfl
@[simp] theorem modLink_evWait (s : State) (l : Nat) (g : Link → Link) : (s.modLink l g).evWait = s.evWait := rfl
@[simp] theorem modLink_landOut (s : State) (l : Nat) (g : Link → Link) : (s.modLink l g).landOut = s.landOut := rfl

/-! ### modEng -/

@[simp] theorem modEng_mode (s : State) (e : Nat) (g : Eng → Eng) : (s.modEng e g).mode = s.mode := rfl
@[simp] theorem modEng_phase (s : State) (e : Nat) (g : Eng → Eng) : (s.modEng e g).phase = s.phase := rfl
@[simp] theorem modEng_ts (s : State) (e : Nat) (g : Eng → Eng) : (s.modEng e g).ts = s.ts := rfl
@[simp] theorem modEng_pending (s : State) (e : Nat) (g : Eng → Eng) : (s.modEng e g).pending = s.pending := rfl
@[simp] theorem modEng_outp (s : State) (e : Nat) (g : Eng → Eng) : (s.modEng e g).outp = s.outp := rfl
@[simp] theorem modEng_freeCount (s : State) (e : Nat) (g : Eng → Eng) : (s.modEng e g).freeCount = s.freeCount := rfl
@[simp] theorem modEng_freeNext (s : State) (e : Nat) (g : Eng → Eng) : (s.modEng e g).freeNext = s.freeNext := rfl
@[simp] theorem modEng_regs (s : State) (e : Nat) (g : Eng → Eng) : (s.modEng e g).regs = s.regs := rfl
@[simp] theorem modEng_shadow (s : State) (e : Nat) (g : Eng → Eng) : (s.modEng e g).shadow = s.shadow := rfl
@[simp] theorem modEng_hiShadow (s : State) (e : Nat) (g : Eng → Eng) : (s.modEng e g).hiShadow = s.hiShadow := rfl
@[simp] theorem modEng_keyPend (s : State) (e : Nat) (g : Eng → Eng) : (s.modEng e g).keyPend = s.keyPend := rfl
@[simp] theorem modEng_strobe (s : State) (e : Nat) (g : Eng → Eng) : (s.modEng e g).strobe = s.strobe := rfl
@[simp] theorem modEng_bcsWait (s : State) (e : Nat) (g : Eng → Eng) : (s.modEng e g).bcsWait = s.bcsWait := rfl
@[simp] theorem modEng_slowQ (s : State) (e : Nat) (g : Eng → Eng) : (s.modEng e g).slowQ = s.slowQ := rfl
@[simp] theorem modEng_flt (s : State) (e : Nat) (g : Eng → Eng) : (s.modEng e g).flt = s.flt := rfl
@[simp] theorem modEng_bst (s : State) (e : Nat) (g : Eng → Eng) : (s.modEng e g).bst = s.bst := rfl
@[simp] theorem modEng_pwr (s : State) (e : Nat) (g : Eng → Eng) : (s.modEng e g).pwr = s.pwr := rfl
@[simp] theorem modEng_kst (s : State) (e : Nat) (g : Eng → Eng) : (s.modEng e g).kst = s.kst := rfl
@[simp] theorem modEng_links (s : State) (e : Nat) (g : Eng → Eng) : (s.modEng e g).links = s.links := rfl
@[simp] theorem modEng_tbl (s : State) (e : Nat) (g : Eng → Eng) : (s.modEng e g).tbl = s.tbl := rfl
@[simp] theorem modEng_ports (s : State) (e : Nat) (g : Eng → Eng) : (s.modEng e g).ports = s.ports := rfl
@[simp] theorem modEng_daddrs (s : State) (e : Nat) (g : Eng → Eng) : (s.modEng e g).daddrs = s.daddrs := rfl
@[simp] theorem modEng_dns (s : State) (e : Nat) (g : Eng → Eng) : (s.modEng e g).dns = s.dns := rfl
@[simp] theorem modEng_gates (s : State) (e : Nat) (g : Eng → Eng) : (s.modEng e g).gates = s.gates := rfl
@[simp] theorem modEng_insts (s : State) (e : Nat) (g : Eng → Eng) : (s.modEng e g).insts = s.insts := rfl
@[simp] theorem modEng_mgt (s : State) (e : Nat) (g : Eng → Eng) : (s.modEng e g).mgt = s.mgt := rfl
@[simp] theorem modEng_cmp (s : State) (e : Nat) (g : Eng → Eng) : (s.modEng e g).cmp = s.cmp := rfl
@[simp] theorem modEng_img (s : State) (e : Nat) (g : Eng → Eng) : (s.modEng e g).img = s.img := rfl
@[simp] theorem modEng_land (s : State) (e : Nat) (g : Eng → Eng) : (s.modEng e g).land = s.land := rfl
@[simp] theorem modEng_tap (s : State) (e : Nat) (g : Eng → Eng) : (s.modEng e g).tap = s.tap := rfl
@[simp] theorem modEng_engs (s : State) (e : Nat) (g : Eng → Eng) : (s.modEng e g).engs = FMap.mod {} e g s.engs := rfl
@[simp] theorem modEng_jnl (s : State) (e : Nat) (g : Eng → Eng) : (s.modEng e g).jnl = s.jnl := rfl
@[simp] theorem modEng_hub (s : State) (e : Nat) (g : Eng → Eng) : (s.modEng e g).hub = s.hub := rfl
@[simp] theorem modEng_ops (s : State) (e : Nat) (g : Eng → Eng) : (s.modEng e g).ops = s.ops := rfl
@[simp] theorem modEng_ctxs (s : State) (e : Nat) (g : Eng → Eng) : (s.modEng e g).ctxs = s.ctxs := rfl
@[simp] theorem modEng_nextCtx (s : State) (e : Nat) (g : Eng → Eng) : (s.modEng e g).nextCtx = s.nextCtx := rfl
@[simp] theorem modEng_qps (s : State) (e : Nat) (g : Eng → Eng) : (s.modEng e g).qps = s.qps := rfl
@[simp] theorem modEng_pels (s : State) (e : Nat) (g : Eng → Eng) : (s.modEng e g).pels = s.pels := rfl
@[simp] theorem modEng_evWait (s : State) (e : Nat) (g : Eng → Eng) : (s.modEng e g).evWait = s.evWait := rfl
@[simp] theorem modEng_landOut (s : State) (e : Nat) (g : Eng → Eng) : (s.modEng e g).landOut = s.landOut := rfl

/-! ### modJnl -/

@[simp] theorem modJnl_mode (s : State) (g : Jnl → Jnl) : (s.modJnl g).mode = s.mode := rfl
@[simp] theorem modJnl_phase (s : State) (g : Jnl → Jnl) : (s.modJnl g).phase = s.phase := rfl
@[simp] theorem modJnl_ts (s : State) (g : Jnl → Jnl) : (s.modJnl g).ts = s.ts := rfl
@[simp] theorem modJnl_pending (s : State) (g : Jnl → Jnl) : (s.modJnl g).pending = s.pending := rfl
@[simp] theorem modJnl_outp (s : State) (g : Jnl → Jnl) : (s.modJnl g).outp = s.outp := rfl
@[simp] theorem modJnl_freeCount (s : State) (g : Jnl → Jnl) : (s.modJnl g).freeCount = s.freeCount := rfl
@[simp] theorem modJnl_freeNext (s : State) (g : Jnl → Jnl) : (s.modJnl g).freeNext = s.freeNext := rfl
@[simp] theorem modJnl_regs (s : State) (g : Jnl → Jnl) : (s.modJnl g).regs = s.regs := rfl
@[simp] theorem modJnl_shadow (s : State) (g : Jnl → Jnl) : (s.modJnl g).shadow = s.shadow := rfl
@[simp] theorem modJnl_hiShadow (s : State) (g : Jnl → Jnl) : (s.modJnl g).hiShadow = s.hiShadow := rfl
@[simp] theorem modJnl_keyPend (s : State) (g : Jnl → Jnl) : (s.modJnl g).keyPend = s.keyPend := rfl
@[simp] theorem modJnl_strobe (s : State) (g : Jnl → Jnl) : (s.modJnl g).strobe = s.strobe := rfl
@[simp] theorem modJnl_bcsWait (s : State) (g : Jnl → Jnl) : (s.modJnl g).bcsWait = s.bcsWait := rfl
@[simp] theorem modJnl_slowQ (s : State) (g : Jnl → Jnl) : (s.modJnl g).slowQ = s.slowQ := rfl
@[simp] theorem modJnl_flt (s : State) (g : Jnl → Jnl) : (s.modJnl g).flt = s.flt := rfl
@[simp] theorem modJnl_bst (s : State) (g : Jnl → Jnl) : (s.modJnl g).bst = s.bst := rfl
@[simp] theorem modJnl_pwr (s : State) (g : Jnl → Jnl) : (s.modJnl g).pwr = s.pwr := rfl
@[simp] theorem modJnl_kst (s : State) (g : Jnl → Jnl) : (s.modJnl g).kst = s.kst := rfl
@[simp] theorem modJnl_links (s : State) (g : Jnl → Jnl) : (s.modJnl g).links = s.links := rfl
@[simp] theorem modJnl_tbl (s : State) (g : Jnl → Jnl) : (s.modJnl g).tbl = s.tbl := rfl
@[simp] theorem modJnl_ports (s : State) (g : Jnl → Jnl) : (s.modJnl g).ports = s.ports := rfl
@[simp] theorem modJnl_daddrs (s : State) (g : Jnl → Jnl) : (s.modJnl g).daddrs = s.daddrs := rfl
@[simp] theorem modJnl_dns (s : State) (g : Jnl → Jnl) : (s.modJnl g).dns = s.dns := rfl
@[simp] theorem modJnl_gates (s : State) (g : Jnl → Jnl) : (s.modJnl g).gates = s.gates := rfl
@[simp] theorem modJnl_insts (s : State) (g : Jnl → Jnl) : (s.modJnl g).insts = s.insts := rfl
@[simp] theorem modJnl_mgt (s : State) (g : Jnl → Jnl) : (s.modJnl g).mgt = s.mgt := rfl
@[simp] theorem modJnl_cmp (s : State) (g : Jnl → Jnl) : (s.modJnl g).cmp = s.cmp := rfl
@[simp] theorem modJnl_img (s : State) (g : Jnl → Jnl) : (s.modJnl g).img = s.img := rfl
@[simp] theorem modJnl_land (s : State) (g : Jnl → Jnl) : (s.modJnl g).land = s.land := rfl
@[simp] theorem modJnl_tap (s : State) (g : Jnl → Jnl) : (s.modJnl g).tap = s.tap := rfl
@[simp] theorem modJnl_engs (s : State) (g : Jnl → Jnl) : (s.modJnl g).engs = s.engs := rfl
@[simp] theorem modJnl_jnl (s : State) (g : Jnl → Jnl) : (s.modJnl g).jnl = g s.jnl := rfl
@[simp] theorem modJnl_hub (s : State) (g : Jnl → Jnl) : (s.modJnl g).hub = s.hub := rfl
@[simp] theorem modJnl_ops (s : State) (g : Jnl → Jnl) : (s.modJnl g).ops = s.ops := rfl
@[simp] theorem modJnl_ctxs (s : State) (g : Jnl → Jnl) : (s.modJnl g).ctxs = s.ctxs := rfl
@[simp] theorem modJnl_nextCtx (s : State) (g : Jnl → Jnl) : (s.modJnl g).nextCtx = s.nextCtx := rfl
@[simp] theorem modJnl_qps (s : State) (g : Jnl → Jnl) : (s.modJnl g).qps = s.qps := rfl
@[simp] theorem modJnl_pels (s : State) (g : Jnl → Jnl) : (s.modJnl g).pels = s.pels := rfl
@[simp] theorem modJnl_evWait (s : State) (g : Jnl → Jnl) : (s.modJnl g).evWait = s.evWait := rfl
@[simp] theorem modJnl_landOut (s : State) (g : Jnl → Jnl) : (s.modJnl g).landOut = s.landOut := rfl

/-! ### modEntry -/

@[simp] theorem modEntry_mode (s : State) (je : Nat) (g : JEntry → JEntry) : (s.modEntry je g).mode = s.mode := rfl
@[simp] theorem modEntry_phase (s : State) (je : Nat) (g : JEntry → JEntry) : (s.modEntry je g).phase = s.phase := rfl
@[simp] theorem modEntry_ts (s : State) (je : Nat) (g : JEntry → JEntry) : (s.modEntry je g).ts = s.ts := rfl
@[simp] theorem modEntry_pending (s : State) (je : Nat) (g : JEntry → JEntry) : (s.modEntry je g).pending = s.pending := rfl
@[simp] theorem modEntry_outp (s : State) (je : Nat) (g : JEntry → JEntry) : (s.modEntry je g).outp = s.outp := rfl
@[simp] theorem modEntry_freeCount (s : State) (je : Nat) (g : JEntry → JEntry) : (s.modEntry je g).freeCount = s.freeCount := rfl
@[simp] theorem modEntry_freeNext (s : State) (je : Nat) (g : JEntry → JEntry) : (s.modEntry je g).freeNext = s.freeNext := rfl
@[simp] theorem modEntry_regs (s : State) (je : Nat) (g : JEntry → JEntry) : (s.modEntry je g).regs = s.regs := rfl
@[simp] theorem modEntry_shadow (s : State) (je : Nat) (g : JEntry → JEntry) : (s.modEntry je g).shadow = s.shadow := rfl
@[simp] theorem modEntry_hiShadow (s : State) (je : Nat) (g : JEntry → JEntry) : (s.modEntry je g).hiShadow = s.hiShadow := rfl
@[simp] theorem modEntry_keyPend (s : State) (je : Nat) (g : JEntry → JEntry) : (s.modEntry je g).keyPend = s.keyPend := rfl
@[simp] theorem modEntry_strobe (s : State) (je : Nat) (g : JEntry → JEntry) : (s.modEntry je g).strobe = s.strobe := rfl
@[simp] theorem modEntry_bcsWait (s : State) (je : Nat) (g : JEntry → JEntry) : (s.modEntry je g).bcsWait = s.bcsWait := rfl
@[simp] theorem modEntry_slowQ (s : State) (je : Nat) (g : JEntry → JEntry) : (s.modEntry je g).slowQ = s.slowQ := rfl
@[simp] theorem modEntry_flt (s : State) (je : Nat) (g : JEntry → JEntry) : (s.modEntry je g).flt = s.flt := rfl
@[simp] theorem modEntry_bst (s : State) (je : Nat) (g : JEntry → JEntry) : (s.modEntry je g).bst = s.bst := rfl
@[simp] theorem modEntry_pwr (s : State) (je : Nat) (g : JEntry → JEntry) : (s.modEntry je g).pwr = s.pwr := rfl
@[simp] theorem modEntry_kst (s : State) (je : Nat) (g : JEntry → JEntry) : (s.modEntry je g).kst = s.kst := rfl
@[simp] theorem modEntry_links (s : State) (je : Nat) (g : JEntry → JEntry) : (s.modEntry je g).links = s.links := rfl
@[simp] theorem modEntry_tbl (s : State) (je : Nat) (g : JEntry → JEntry) : (s.modEntry je g).tbl = s.tbl := rfl
@[simp] theorem modEntry_ports (s : State) (je : Nat) (g : JEntry → JEntry) : (s.modEntry je g).ports = s.ports := rfl
@[simp] theorem modEntry_daddrs (s : State) (je : Nat) (g : JEntry → JEntry) : (s.modEntry je g).daddrs = s.daddrs := rfl
@[simp] theorem modEntry_dns (s : State) (je : Nat) (g : JEntry → JEntry) : (s.modEntry je g).dns = s.dns := rfl
@[simp] theorem modEntry_gates (s : State) (je : Nat) (g : JEntry → JEntry) : (s.modEntry je g).gates = s.gates := rfl
@[simp] theorem modEntry_insts (s : State) (je : Nat) (g : JEntry → JEntry) : (s.modEntry je g).insts = s.insts := rfl
@[simp] theorem modEntry_mgt (s : State) (je : Nat) (g : JEntry → JEntry) : (s.modEntry je g).mgt = s.mgt := rfl
@[simp] theorem modEntry_cmp (s : State) (je : Nat) (g : JEntry → JEntry) : (s.modEntry je g).cmp = s.cmp := rfl
@[simp] theorem modEntry_img (s : State) (je : Nat) (g : JEntry → JEntry) : (s.modEntry je g).img = s.img := rfl
@[simp] theorem modEntry_land (s : State) (je : Nat) (g : JEntry → JEntry) : (s.modEntry je g).land = s.land := rfl
@[simp] theorem modEntry_tap (s : State) (je : Nat) (g : JEntry → JEntry) : (s.modEntry je g).tap = s.tap := rfl
@[simp] theorem modEntry_engs (s : State) (je : Nat) (g : JEntry → JEntry) : (s.modEntry je g).engs = s.engs := rfl
@[simp] theorem modEntry_hub (s : State) (je : Nat) (g : JEntry → JEntry) :
    (s.modEntry je g).hub = { s.hub with jw := s.hub.jw + 1 } := rfl
@[simp] theorem modEntry_ops (s : State) (je : Nat) (g : JEntry → JEntry) : (s.modEntry je g).ops = s.ops := rfl
@[simp] theorem modEntry_ctxs (s : State) (je : Nat) (g : JEntry → JEntry) : (s.modEntry je g).ctxs = s.ctxs := rfl
@[simp] theorem modEntry_nextCtx (s : State) (je : Nat) (g : JEntry → JEntry) : (s.modEntry je g).nextCtx = s.nextCtx := rfl
@[simp] theorem modEntry_qps (s : State) (je : Nat) (g : JEntry → JEntry) : (s.modEntry je g).qps = s.qps := rfl
@[simp] theorem modEntry_pels (s : State) (je : Nat) (g : JEntry → JEntry) : (s.modEntry je g).pels = s.pels := rfl
@[simp] theorem modEntry_evWait (s : State) (je : Nat) (g : JEntry → JEntry) : (s.modEntry je g).evWait = s.evWait := rfl
@[simp] theorem modEntry_landOut (s : State) (je : Nat) (g : JEntry → JEntry) : (s.modEntry je g).landOut = s.landOut := rfl

/-! ### modPwr -/

@[simp] theorem modPwr_mode (s : State) (g : Pwr → Pwr) : (s.modPwr g).mode = s.mode := rfl
@[simp] theorem modPwr_phase (s : State) (g : Pwr → Pwr) : (s.modPwr g).phase = s.phase := rfl
@[simp] theorem modPwr_ts (s : State) (g : Pwr → Pwr) : (s.modPwr g).ts = s.ts := rfl
@[simp] theorem modPwr_pending (s : State) (g : Pwr → Pwr) : (s.modPwr g).pending = s.pending := rfl
@[simp] theorem modPwr_outp (s : State) (g : Pwr → Pwr) : (s.modPwr g).outp = s.outp := rfl
@[simp] theorem modPwr_freeCount (s : State) (g : Pwr → Pwr) : (s.modPwr g).freeCount = s.freeCount := rfl
@[simp] theorem modPwr_freeNext (s : State) (g : Pwr → Pwr) : (s.modPwr g).freeNext = s.freeNext := rfl
@[simp] theorem modPwr_regs (s : State) (g : Pwr → Pwr) : (s.modPwr g).regs = s.regs := rfl
@[simp] theorem modPwr_shadow (s : State) (g : Pwr → Pwr) : (s.modPwr g).shadow = s.shadow := rfl
@[simp] theorem modPwr_hiShadow (s : State) (g : Pwr → Pwr) : (s.modPwr g).hiShadow = s.hiShadow := rfl
@[simp] theorem modPwr_keyPend (s : State) (g : Pwr → Pwr) : (s.modPwr g).keyPend = s.keyPend := rfl
@[simp] theorem modPwr_strobe (s : State) (g : Pwr → Pwr) : (s.modPwr g).strobe = s.strobe := rfl
@[simp] theorem modPwr_bcsWait (s : State) (g : Pwr → Pwr) : (s.modPwr g).bcsWait = s.bcsWait := rfl
@[simp] theorem modPwr_slowQ (s : State) (g : Pwr → Pwr) : (s.modPwr g).slowQ = s.slowQ := rfl
@[simp] theorem modPwr_flt (s : State) (g : Pwr → Pwr) : (s.modPwr g).flt = s.flt := rfl
@[simp] theorem modPwr_bst (s : State) (g : Pwr → Pwr) : (s.modPwr g).bst = s.bst := rfl
@[simp] theorem modPwr_pwr (s : State) (g : Pwr → Pwr) : (s.modPwr g).pwr = g s.pwr := rfl
@[simp] theorem modPwr_kst (s : State) (g : Pwr → Pwr) : (s.modPwr g).kst = s.kst := rfl
@[simp] theorem modPwr_links (s : State) (g : Pwr → Pwr) : (s.modPwr g).links = s.links := rfl
@[simp] theorem modPwr_tbl (s : State) (g : Pwr → Pwr) : (s.modPwr g).tbl = s.tbl := rfl
@[simp] theorem modPwr_ports (s : State) (g : Pwr → Pwr) : (s.modPwr g).ports = s.ports := rfl
@[simp] theorem modPwr_daddrs (s : State) (g : Pwr → Pwr) : (s.modPwr g).daddrs = s.daddrs := rfl
@[simp] theorem modPwr_dns (s : State) (g : Pwr → Pwr) : (s.modPwr g).dns = s.dns := rfl
@[simp] theorem modPwr_gates (s : State) (g : Pwr → Pwr) : (s.modPwr g).gates = s.gates := rfl
@[simp] theorem modPwr_insts (s : State) (g : Pwr → Pwr) : (s.modPwr g).insts = s.insts := rfl
@[simp] theorem modPwr_mgt (s : State) (g : Pwr → Pwr) : (s.modPwr g).mgt = s.mgt := rfl
@[simp] theorem modPwr_cmp (s : State) (g : Pwr → Pwr) : (s.modPwr g).cmp = s.cmp := rfl
@[simp] theorem modPwr_img (s : State) (g : Pwr → Pwr) : (s.modPwr g).img = s.img := rfl
@[simp] theorem modPwr_land (s : State) (g : Pwr → Pwr) : (s.modPwr g).land = s.land := rfl
@[simp] theorem modPwr_tap (s : State) (g : Pwr → Pwr) : (s.modPwr g).tap = s.tap := rfl
@[simp] theorem modPwr_engs (s : State) (g : Pwr → Pwr) : (s.modPwr g).engs = s.engs := rfl
@[simp] theorem modPwr_jnl (s : State) (g : Pwr → Pwr) : (s.modPwr g).jnl = s.jnl := rfl
@[simp] theorem modPwr_hub (s : State) (g : Pwr → Pwr) : (s.modPwr g).hub = s.hub := rfl
@[simp] theorem modPwr_ops (s : State) (g : Pwr → Pwr) : (s.modPwr g).ops = s.ops := rfl
@[simp] theorem modPwr_ctxs (s : State) (g : Pwr → Pwr) : (s.modPwr g).ctxs = s.ctxs := rfl
@[simp] theorem modPwr_nextCtx (s : State) (g : Pwr → Pwr) : (s.modPwr g).nextCtx = s.nextCtx := rfl
@[simp] theorem modPwr_qps (s : State) (g : Pwr → Pwr) : (s.modPwr g).qps = s.qps := rfl
@[simp] theorem modPwr_pels (s : State) (g : Pwr → Pwr) : (s.modPwr g).pels = s.pels := rfl
@[simp] theorem modPwr_evWait (s : State) (g : Pwr → Pwr) : (s.modPwr g).evWait = s.evWait := rfl
@[simp] theorem modPwr_landOut (s : State) (g : Pwr → Pwr) : (s.modPwr g).landOut = s.landOut := rfl

/-! ### modKst -/

@[simp] theorem modKst_mode (s : State) (g : Kst → Kst) : (s.modKst g).mode = s.mode := rfl
@[simp] theorem modKst_phase (s : State) (g : Kst → Kst) : (s.modKst g).phase = s.phase := rfl
@[simp] theorem modKst_ts (s : State) (g : Kst → Kst) : (s.modKst g).ts = s.ts := rfl
@[simp] theorem modKst_pending (s : State) (g : Kst → Kst) : (s.modKst g).pending = s.pending := rfl
@[simp] theorem modKst_outp (s : State) (g : Kst → Kst) : (s.modKst g).outp = s.outp := rfl
@[simp] theorem modKst_freeCount (s : State) (g : Kst → Kst) : (s.modKst g).freeCount = s.freeCount := rfl
@[simp] theorem modKst_freeNext (s : State) (g : Kst → Kst) : (s.modKst g).freeNext = s.freeNext := rfl
@[simp] theorem modKst_regs (s : State) (g : Kst → Kst) : (s.modKst g).regs = s.regs := rfl
@[simp] theorem modKst_shadow (s : State) (g : Kst → Kst) : (s.modKst g).shadow = s.shadow := rfl
@[simp] theorem modKst_hiShadow (s : State) (g : Kst → Kst) : (s.modKst g).hiShadow = s.hiShadow := rfl
@[simp] theorem modKst_keyPend (s : State) (g : Kst → Kst) : (s.modKst g).keyPend = s.keyPend := rfl
@[simp] theorem modKst_strobe (s : State) (g : Kst → Kst) : (s.modKst g).strobe = s.strobe := rfl
@[simp] theorem modKst_bcsWait (s : State) (g : Kst → Kst) : (s.modKst g).bcsWait = s.bcsWait := rfl
@[simp] theorem modKst_slowQ (s : State) (g : Kst → Kst) : (s.modKst g).slowQ = s.slowQ := rfl
@[simp] theorem modKst_flt (s : State) (g : Kst → Kst) : (s.modKst g).flt = s.flt := rfl
@[simp] theorem modKst_bst (s : State) (g : Kst → Kst) : (s.modKst g).bst = s.bst := rfl
@[simp] theorem modKst_pwr (s : State) (g : Kst → Kst) : (s.modKst g).pwr = s.pwr := rfl
@[simp] theorem modKst_kst (s : State) (g : Kst → Kst) : (s.modKst g).kst = g s.kst := rfl
@[simp] theorem modKst_links (s : State) (g : Kst → Kst) : (s.modKst g).links = s.links := rfl
@[simp] theorem modKst_tbl (s : State) (g : Kst → Kst) : (s.modKst g).tbl = s.tbl := rfl
@[simp] theorem modKst_ports (s : State) (g : Kst → Kst) : (s.modKst g).ports = s.ports := rfl
@[simp] theorem modKst_daddrs (s : State) (g : Kst → Kst) : (s.modKst g).daddrs = s.daddrs := rfl
@[simp] theorem modKst_dns (s : State) (g : Kst → Kst) : (s.modKst g).dns = s.dns := rfl
@[simp] theorem modKst_gates (s : State) (g : Kst → Kst) : (s.modKst g).gates = s.gates := rfl
@[simp] theorem modKst_insts (s : State) (g : Kst → Kst) : (s.modKst g).insts = s.insts := rfl
@[simp] theorem modKst_mgt (s : State) (g : Kst → Kst) : (s.modKst g).mgt = s.mgt := rfl
@[simp] theorem modKst_cmp (s : State) (g : Kst → Kst) : (s.modKst g).cmp = s.cmp := rfl
@[simp] theorem modKst_img (s : State) (g : Kst → Kst) : (s.modKst g).img = s.img := rfl
@[simp] theorem modKst_land (s : State) (g : Kst → Kst) : (s.modKst g).land = s.land := rfl
@[simp] theorem modKst_tap (s : State) (g : Kst → Kst) : (s.modKst g).tap = s.tap := rfl
@[simp] theorem modKst_engs (s : State) (g : Kst → Kst) : (s.modKst g).engs = s.engs := rfl
@[simp] theorem modKst_jnl (s : State) (g : Kst → Kst) : (s.modKst g).jnl = s.jnl := rfl
@[simp] theorem modKst_hub (s : State) (g : Kst → Kst) : (s.modKst g).hub = s.hub := rfl
@[simp] theorem modKst_ops (s : State) (g : Kst → Kst) : (s.modKst g).ops = s.ops := rfl
@[simp] theorem modKst_ctxs (s : State) (g : Kst → Kst) : (s.modKst g).ctxs = s.ctxs := rfl
@[simp] theorem modKst_nextCtx (s : State) (g : Kst → Kst) : (s.modKst g).nextCtx = s.nextCtx := rfl
@[simp] theorem modKst_qps (s : State) (g : Kst → Kst) : (s.modKst g).qps = s.qps := rfl
@[simp] theorem modKst_pels (s : State) (g : Kst → Kst) : (s.modKst g).pels = s.pels := rfl
@[simp] theorem modKst_evWait (s : State) (g : Kst → Kst) : (s.modKst g).evWait = s.evWait := rfl
@[simp] theorem modKst_landOut (s : State) (g : Kst → Kst) : (s.modKst g).landOut = s.landOut := rfl

/-! ### modBst -/

@[simp] theorem modBst_mode (s : State) (g : Bst → Bst) : (s.modBst g).mode = s.mode := rfl
@[simp] theorem modBst_phase (s : State) (g : Bst → Bst) : (s.modBst g).phase = s.phase := rfl
@[simp] theorem modBst_ts (s : State) (g : Bst → Bst) : (s.modBst g).ts = s.ts := rfl
@[simp] theorem modBst_pending (s : State) (g : Bst → Bst) : (s.modBst g).pending = s.pending := rfl
@[simp] theorem modBst_outp (s : State) (g : Bst → Bst) : (s.modBst g).outp = s.outp := rfl
@[simp] theorem modBst_freeCount (s : State) (g : Bst → Bst) : (s.modBst g).freeCount = s.freeCount := rfl
@[simp] theorem modBst_freeNext (s : State) (g : Bst → Bst) : (s.modBst g).freeNext = s.freeNext := rfl
@[simp] theorem modBst_regs (s : State) (g : Bst → Bst) : (s.modBst g).regs = s.regs := rfl
@[simp] theorem modBst_shadow (s : State) (g : Bst → Bst) : (s.modBst g).shadow = s.shadow := rfl
@[simp] theorem modBst_hiShadow (s : State) (g : Bst → Bst) : (s.modBst g).hiShadow = s.hiShadow := rfl
@[simp] theorem modBst_keyPend (s : State) (g : Bst → Bst) : (s.modBst g).keyPend = s.keyPend := rfl
@[simp] theorem modBst_strobe (s : State) (g : Bst → Bst) : (s.modBst g).strobe = s.strobe := rfl
@[simp] theorem modBst_bcsWait (s : State) (g : Bst → Bst) : (s.modBst g).bcsWait = s.bcsWait := rfl
@[simp] theorem modBst_slowQ (s : State) (g : Bst → Bst) : (s.modBst g).slowQ = s.slowQ := rfl
@[simp] theorem modBst_flt (s : State) (g : Bst → Bst) : (s.modBst g).flt = s.flt := rfl
@[simp] theorem modBst_bst (s : State) (g : Bst → Bst) : (s.modBst g).bst = g s.bst := rfl
@[simp] theorem modBst_pwr (s : State) (g : Bst → Bst) : (s.modBst g).pwr = s.pwr := rfl
@[simp] theorem modBst_kst (s : State) (g : Bst → Bst) : (s.modBst g).kst = s.kst := rfl
@[simp] theorem modBst_links (s : State) (g : Bst → Bst) : (s.modBst g).links = s.links := rfl
@[simp] theorem modBst_tbl (s : State) (g : Bst → Bst) : (s.modBst g).tbl = s.tbl := rfl
@[simp] theorem modBst_ports (s : State) (g : Bst → Bst) : (s.modBst g).ports = s.ports := rfl
@[simp] theorem modBst_daddrs (s : State) (g : Bst → Bst) : (s.modBst g).daddrs = s.daddrs := rfl
@[simp] theorem modBst_dns (s : State) (g : Bst → Bst) : (s.modBst g).dns = s.dns := rfl
@[simp] theorem modBst_gates (s : State) (g : Bst → Bst) : (s.modBst g).gates = s.gates := rfl
@[simp] theorem modBst_insts (s : State) (g : Bst → Bst) : (s.modBst g).insts = s.insts := rfl
@[simp] theorem modBst_mgt (s : State) (g : Bst → Bst) : (s.modBst g).mgt = s.mgt := rfl
@[simp] theorem modBst_cmp (s : State) (g : Bst → Bst) : (s.modBst g).cmp = s.cmp := rfl
@[simp] theorem modBst_img (s : State) (g : Bst → Bst) : (s.modBst g).img = s.img := rfl
@[simp] theorem modBst_land (s : State) (g : Bst → Bst) : (s.modBst g).land = s.land := rfl
@[simp] theorem modBst_tap (s : State) (g : Bst → Bst) : (s.modBst g).tap = s.tap := rfl
@[simp] theorem modBst_engs (s : State) (g : Bst → Bst) : (s.modBst g).engs = s.engs := rfl
@[simp] theorem modBst_jnl (s : State) (g : Bst → Bst) : (s.modBst g).jnl = s.jnl := rfl
@[simp] theorem modBst_hub (s : State) (g : Bst → Bst) : (s.modBst g).hub = s.hub := rfl
@[simp] theorem modBst_ops (s : State) (g : Bst → Bst) : (s.modBst g).ops = s.ops := rfl
@[simp] theorem modBst_ctxs (s : State) (g : Bst → Bst) : (s.modBst g).ctxs = s.ctxs := rfl
@[simp] theorem modBst_nextCtx (s : State) (g : Bst → Bst) : (s.modBst g).nextCtx = s.nextCtx := rfl
@[simp] theorem modBst_qps (s : State) (g : Bst → Bst) : (s.modBst g).qps = s.qps := rfl
@[simp] theorem modBst_pels (s : State) (g : Bst → Bst) : (s.modBst g).pels = s.pels := rfl
@[simp] theorem modBst_evWait (s : State) (g : Bst → Bst) : (s.modBst g).evWait = s.evWait := rfl
@[simp] theorem modBst_landOut (s : State) (g : Bst → Bst) : (s.modBst g).landOut = s.landOut := rfl

/-! ### modFlt -/

@[simp] theorem modFlt_mode (s : State) (g : Flt → Flt) : (s.modFlt g).mode = s.mode := rfl
@[simp] theorem modFlt_phase (s : State) (g : Flt → Flt) : (s.modFlt g).phase = s.phase := rfl
@[simp] theorem modFlt_ts (s : State) (g : Flt → Flt) : (s.modFlt g).ts = s.ts := rfl
@[simp] theorem modFlt_pending (s : State) (g : Flt → Flt) : (s.modFlt g).pending = s.pending := rfl
@[simp] theorem modFlt_outp (s : State) (g : Flt → Flt) : (s.modFlt g).outp = s.outp := rfl
@[simp] theorem modFlt_freeCount (s : State) (g : Flt → Flt) : (s.modFlt g).freeCount = s.freeCount := rfl
@[simp] theorem modFlt_freeNext (s : State) (g : Flt → Flt) : (s.modFlt g).freeNext = s.freeNext := rfl
@[simp] theorem modFlt_regs (s : State) (g : Flt → Flt) : (s.modFlt g).regs = s.regs := rfl
@[simp] theorem modFlt_shadow (s : State) (g : Flt → Flt) : (s.modFlt g).shadow = s.shadow := rfl
@[simp] theorem modFlt_hiShadow (s : State) (g : Flt → Flt) : (s.modFlt g).hiShadow = s.hiShadow := rfl
@[simp] theorem modFlt_keyPend (s : State) (g : Flt → Flt) : (s.modFlt g).keyPend = s.keyPend := rfl
@[simp] theorem modFlt_strobe (s : State) (g : Flt → Flt) : (s.modFlt g).strobe = s.strobe := rfl
@[simp] theorem modFlt_bcsWait (s : State) (g : Flt → Flt) : (s.modFlt g).bcsWait = s.bcsWait := rfl
@[simp] theorem modFlt_slowQ (s : State) (g : Flt → Flt) : (s.modFlt g).slowQ = s.slowQ := rfl
@[simp] theorem modFlt_flt (s : State) (g : Flt → Flt) : (s.modFlt g).flt = g s.flt := rfl
@[simp] theorem modFlt_bst (s : State) (g : Flt → Flt) : (s.modFlt g).bst = s.bst := rfl
@[simp] theorem modFlt_pwr (s : State) (g : Flt → Flt) : (s.modFlt g).pwr = s.pwr := rfl
@[simp] theorem modFlt_kst (s : State) (g : Flt → Flt) : (s.modFlt g).kst = s.kst := rfl
@[simp] theorem modFlt_links (s : State) (g : Flt → Flt) : (s.modFlt g).links = s.links := rfl
@[simp] theorem modFlt_tbl (s : State) (g : Flt → Flt) : (s.modFlt g).tbl = s.tbl := rfl
@[simp] theorem modFlt_ports (s : State) (g : Flt → Flt) : (s.modFlt g).ports = s.ports := rfl
@[simp] theorem modFlt_daddrs (s : State) (g : Flt → Flt) : (s.modFlt g).daddrs = s.daddrs := rfl
@[simp] theorem modFlt_dns (s : State) (g : Flt → Flt) : (s.modFlt g).dns = s.dns := rfl
@[simp] theorem modFlt_gates (s : State) (g : Flt → Flt) : (s.modFlt g).gates = s.gates := rfl
@[simp] theorem modFlt_insts (s : State) (g : Flt → Flt) : (s.modFlt g).insts = s.insts := rfl
@[simp] theorem modFlt_mgt (s : State) (g : Flt → Flt) : (s.modFlt g).mgt = s.mgt := rfl
@[simp] theorem modFlt_cmp (s : State) (g : Flt → Flt) : (s.modFlt g).cmp = s.cmp := rfl
@[simp] theorem modFlt_img (s : State) (g : Flt → Flt) : (s.modFlt g).img = s.img := rfl
@[simp] theorem modFlt_land (s : State) (g : Flt → Flt) : (s.modFlt g).land = s.land := rfl
@[simp] theorem modFlt_tap (s : State) (g : Flt → Flt) : (s.modFlt g).tap = s.tap := rfl
@[simp] theorem modFlt_engs (s : State) (g : Flt → Flt) : (s.modFlt g).engs = s.engs := rfl
@[simp] theorem modFlt_jnl (s : State) (g : Flt → Flt) : (s.modFlt g).jnl = s.jnl := rfl
@[simp] theorem modFlt_hub (s : State) (g : Flt → Flt) : (s.modFlt g).hub = s.hub := rfl
@[simp] theorem modFlt_ops (s : State) (g : Flt → Flt) : (s.modFlt g).ops = s.ops := rfl
@[simp] theorem modFlt_ctxs (s : State) (g : Flt → Flt) : (s.modFlt g).ctxs = s.ctxs := rfl
@[simp] theorem modFlt_nextCtx (s : State) (g : Flt → Flt) : (s.modFlt g).nextCtx = s.nextCtx := rfl
@[simp] theorem modFlt_qps (s : State) (g : Flt → Flt) : (s.modFlt g).qps = s.qps := rfl
@[simp] theorem modFlt_pels (s : State) (g : Flt → Flt) : (s.modFlt g).pels = s.pels := rfl
@[simp] theorem modFlt_evWait (s : State) (g : Flt → Flt) : (s.modFlt g).evWait = s.evWait := rfl
@[simp] theorem modFlt_landOut (s : State) (g : Flt → Flt) : (s.modFlt g).landOut = s.landOut := rfl

/-! ### modInst -/

@[simp] theorem modInst_mode (s : State) (i : Nat) (g : Inst → Inst) : (s.modInst i g).mode = s.mode := rfl
@[simp] theorem modInst_phase (s : State) (i : Nat) (g : Inst → Inst) : (s.modInst i g).phase = s.phase := rfl
@[simp] theorem modInst_ts (s : State) (i : Nat) (g : Inst → Inst) : (s.modInst i g).ts = s.ts := rfl
@[simp] theorem modInst_pending (s : State) (i : Nat) (g : Inst → Inst) : (s.modInst i g).pending = s.pending := rfl
@[simp] theorem modInst_outp (s : State) (i : Nat) (g : Inst → Inst) : (s.modInst i g).outp = s.outp := rfl
@[simp] theorem modInst_freeCount (s : State) (i : Nat) (g : Inst → Inst) : (s.modInst i g).freeCount = s.freeCount := rfl
@[simp] theorem modInst_freeNext (s : State) (i : Nat) (g : Inst → Inst) : (s.modInst i g).freeNext = s.freeNext := rfl
@[simp] theorem modInst_regs (s : State) (i : Nat) (g : Inst → Inst) : (s.modInst i g).regs = s.regs := rfl
@[simp] theorem modInst_shadow (s : State) (i : Nat) (g : Inst → Inst) : (s.modInst i g).shadow = s.shadow := rfl
@[simp] theorem modInst_hiShadow (s : State) (i : Nat) (g : Inst → Inst) : (s.modInst i g).hiShadow = s.hiShadow := rfl
@[simp] theorem modInst_keyPend (s : State) (i : Nat) (g : Inst → Inst) : (s.modInst i g).keyPend = s.keyPend := rfl
@[simp] theorem modInst_strobe (s : State) (i : Nat) (g : Inst → Inst) : (s.modInst i g).strobe = s.strobe := rfl
@[simp] theorem modInst_bcsWait (s : State) (i : Nat) (g : Inst → Inst) : (s.modInst i g).bcsWait = s.bcsWait := rfl
@[simp] theorem modInst_slowQ (s : State) (i : Nat) (g : Inst → Inst) : (s.modInst i g).slowQ = s.slowQ := rfl
@[simp] theorem modInst_flt (s : State) (i : Nat) (g : Inst → Inst) : (s.modInst i g).flt = s.flt := rfl
@[simp] theorem modInst_bst (s : State) (i : Nat) (g : Inst → Inst) : (s.modInst i g).bst = s.bst := rfl
@[simp] theorem modInst_pwr (s : State) (i : Nat) (g : Inst → Inst) : (s.modInst i g).pwr = s.pwr := rfl
@[simp] theorem modInst_kst (s : State) (i : Nat) (g : Inst → Inst) : (s.modInst i g).kst = s.kst := rfl
@[simp] theorem modInst_links (s : State) (i : Nat) (g : Inst → Inst) : (s.modInst i g).links = s.links := rfl
@[simp] theorem modInst_tbl (s : State) (i : Nat) (g : Inst → Inst) : (s.modInst i g).tbl = s.tbl := rfl
@[simp] theorem modInst_ports (s : State) (i : Nat) (g : Inst → Inst) : (s.modInst i g).ports = s.ports := rfl
@[simp] theorem modInst_daddrs (s : State) (i : Nat) (g : Inst → Inst) : (s.modInst i g).daddrs = s.daddrs := rfl
@[simp] theorem modInst_dns (s : State) (i : Nat) (g : Inst → Inst) : (s.modInst i g).dns = s.dns := rfl
@[simp] theorem modInst_gates (s : State) (i : Nat) (g : Inst → Inst) : (s.modInst i g).gates = s.gates := rfl
@[simp] theorem modInst_insts (s : State) (i : Nat) (g : Inst → Inst) : (s.modInst i g).insts = FMap.mod {} i g s.insts := rfl
@[simp] theorem modInst_mgt (s : State) (i : Nat) (g : Inst → Inst) : (s.modInst i g).mgt = s.mgt := rfl
@[simp] theorem modInst_cmp (s : State) (i : Nat) (g : Inst → Inst) : (s.modInst i g).cmp = s.cmp := rfl
@[simp] theorem modInst_img (s : State) (i : Nat) (g : Inst → Inst) : (s.modInst i g).img = s.img := rfl
@[simp] theorem modInst_land (s : State) (i : Nat) (g : Inst → Inst) : (s.modInst i g).land = s.land := rfl
@[simp] theorem modInst_tap (s : State) (i : Nat) (g : Inst → Inst) : (s.modInst i g).tap = s.tap := rfl
@[simp] theorem modInst_engs (s : State) (i : Nat) (g : Inst → Inst) : (s.modInst i g).engs = s.engs := rfl
@[simp] theorem modInst_jnl (s : State) (i : Nat) (g : Inst → Inst) : (s.modInst i g).jnl = s.jnl := rfl
@[simp] theorem modInst_hub (s : State) (i : Nat) (g : Inst → Inst) : (s.modInst i g).hub = s.hub := rfl
@[simp] theorem modInst_ops (s : State) (i : Nat) (g : Inst → Inst) : (s.modInst i g).ops = s.ops := rfl
@[simp] theorem modInst_ctxs (s : State) (i : Nat) (g : Inst → Inst) : (s.modInst i g).ctxs = s.ctxs := rfl
@[simp] theorem modInst_nextCtx (s : State) (i : Nat) (g : Inst → Inst) : (s.modInst i g).nextCtx = s.nextCtx := rfl
@[simp] theorem modInst_qps (s : State) (i : Nat) (g : Inst → Inst) : (s.modInst i g).qps = s.qps := rfl
@[simp] theorem modInst_pels (s : State) (i : Nat) (g : Inst → Inst) : (s.modInst i g).pels = s.pels := rfl
@[simp] theorem modInst_evWait (s : State) (i : Nat) (g : Inst → Inst) : (s.modInst i g).evWait = s.evWait := rfl
@[simp] theorem modInst_landOut (s : State) (i : Nat) (g : Inst → Inst) : (s.modInst i g).landOut = s.landOut := rfl

/-! ### modPort -/

@[simp] theorem modPort_mode (s : State) (p : Nat) (g : Port → Port) : (s.modPort p g).mode = s.mode := rfl
@[simp] theorem modPort_phase (s : State) (p : Nat) (g : Port → Port) : (s.modPort p g).phase = s.phase := rfl
@[simp] theorem modPort_ts (s : State) (p : Nat) (g : Port → Port) : (s.modPort p g).ts = s.ts := rfl
@[simp] theorem modPort_pending (s : State) (p : Nat) (g : Port → Port) : (s.modPort p g).pending = s.pending := rfl
@[simp] theorem modPort_outp (s : State) (p : Nat) (g : Port → Port) : (s.modPort p g).outp = s.outp := rfl
@[simp] theorem modPort_freeCount (s : State) (p : Nat) (g : Port → Port) : (s.modPort p g).freeCount = s.freeCount := rfl
@[simp] theorem modPort_freeNext (s : State) (p : Nat) (g : Port → Port) : (s.modPort p g).freeNext = s.freeNext := rfl
@[simp] theorem modPort_regs (s : State) (p : Nat) (g : Port → Port) : (s.modPort p g).regs = s.regs := rfl
@[simp] theorem modPort_shadow (s : State) (p : Nat) (g : Port → Port) : (s.modPort p g).shadow = s.shadow := rfl
@[simp] theorem modPort_hiShadow (s : State) (p : Nat) (g : Port → Port) : (s.modPort p g).hiShadow = s.hiShadow := rfl
@[simp] theorem modPort_keyPend (s : State) (p : Nat) (g : Port → Port) : (s.modPort p g).keyPend = s.keyPend := rfl
@[simp] theorem modPort_strobe (s : State) (p : Nat) (g : Port → Port) : (s.modPort p g).strobe = s.strobe := rfl
@[simp] theorem modPort_bcsWait (s : State) (p : Nat) (g : Port → Port) : (s.modPort p g).bcsWait = s.bcsWait := rfl
@[simp] theorem modPort_slowQ (s : State) (p : Nat) (g : Port → Port) : (s.modPort p g).slowQ = s.slowQ := rfl
@[simp] theorem modPort_flt (s : State) (p : Nat) (g : Port → Port) : (s.modPort p g).flt = s.flt := rfl
@[simp] theorem modPort_bst (s : State) (p : Nat) (g : Port → Port) : (s.modPort p g).bst = s.bst := rfl
@[simp] theorem modPort_pwr (s : State) (p : Nat) (g : Port → Port) : (s.modPort p g).pwr = s.pwr := rfl
@[simp] theorem modPort_kst (s : State) (p : Nat) (g : Port → Port) : (s.modPort p g).kst = s.kst := rfl
@[simp] theorem modPort_links (s : State) (p : Nat) (g : Port → Port) : (s.modPort p g).links = s.links := rfl
@[simp] theorem modPort_tbl (s : State) (p : Nat) (g : Port → Port) : (s.modPort p g).tbl = s.tbl := rfl
@[simp] theorem modPort_ports (s : State) (p : Nat) (g : Port → Port) : (s.modPort p g).ports = FMap.mod {} p g s.ports := rfl
@[simp] theorem modPort_daddrs (s : State) (p : Nat) (g : Port → Port) : (s.modPort p g).daddrs = s.daddrs := rfl
@[simp] theorem modPort_dns (s : State) (p : Nat) (g : Port → Port) : (s.modPort p g).dns = s.dns := rfl
@[simp] theorem modPort_gates (s : State) (p : Nat) (g : Port → Port) : (s.modPort p g).gates = s.gates := rfl
@[simp] theorem modPort_insts (s : State) (p : Nat) (g : Port → Port) : (s.modPort p g).insts = s.insts := rfl
@[simp] theorem modPort_mgt (s : State) (p : Nat) (g : Port → Port) : (s.modPort p g).mgt = s.mgt := rfl
@[simp] theorem modPort_cmp (s : State) (p : Nat) (g : Port → Port) : (s.modPort p g).cmp = s.cmp := rfl
@[simp] theorem modPort_img (s : State) (p : Nat) (g : Port → Port) : (s.modPort p g).img = s.img := rfl
@[simp] theorem modPort_land (s : State) (p : Nat) (g : Port → Port) : (s.modPort p g).land = s.land := rfl
@[simp] theorem modPort_tap (s : State) (p : Nat) (g : Port → Port) : (s.modPort p g).tap = s.tap := rfl
@[simp] theorem modPort_engs (s : State) (p : Nat) (g : Port → Port) : (s.modPort p g).engs = s.engs := rfl
@[simp] theorem modPort_jnl (s : State) (p : Nat) (g : Port → Port) : (s.modPort p g).jnl = s.jnl := rfl
@[simp] theorem modPort_hub (s : State) (p : Nat) (g : Port → Port) : (s.modPort p g).hub = s.hub := rfl
@[simp] theorem modPort_ops (s : State) (p : Nat) (g : Port → Port) : (s.modPort p g).ops = s.ops := rfl
@[simp] theorem modPort_ctxs (s : State) (p : Nat) (g : Port → Port) : (s.modPort p g).ctxs = s.ctxs := rfl
@[simp] theorem modPort_nextCtx (s : State) (p : Nat) (g : Port → Port) : (s.modPort p g).nextCtx = s.nextCtx := rfl
@[simp] theorem modPort_qps (s : State) (p : Nat) (g : Port → Port) : (s.modPort p g).qps = s.qps := rfl
@[simp] theorem modPort_pels (s : State) (p : Nat) (g : Port → Port) : (s.modPort p g).pels = s.pels := rfl
@[simp] theorem modPort_evWait (s : State) (p : Nat) (g : Port → Port) : (s.modPort p g).evWait = s.evWait := rfl
@[simp] theorem modPort_landOut (s : State) (p : Nat) (g : Port → Port) : (s.modPort p g).landOut = s.landOut := rfl

/-! ### modImg -/

@[simp] theorem modImg_mode (s : State) (g : Img → Img) : (s.modImg g).mode = s.mode := rfl
@[simp] theorem modImg_phase (s : State) (g : Img → Img) : (s.modImg g).phase = s.phase := rfl
@[simp] theorem modImg_ts (s : State) (g : Img → Img) : (s.modImg g).ts = s.ts := rfl
@[simp] theorem modImg_pending (s : State) (g : Img → Img) : (s.modImg g).pending = s.pending := rfl
@[simp] theorem modImg_outp (s : State) (g : Img → Img) : (s.modImg g).outp = s.outp := rfl
@[simp] theorem modImg_freeCount (s : State) (g : Img → Img) : (s.modImg g).freeCount = s.freeCount := rfl
@[simp] theorem modImg_freeNext (s : State) (g : Img → Img) : (s.modImg g).freeNext = s.freeNext := rfl
@[simp] theorem modImg_regs (s : State) (g : Img → Img) : (s.modImg g).regs = s.regs := rfl
@[simp] theorem modImg_shadow (s : State) (g : Img → Img) : (s.modImg g).shadow = s.shadow := rfl
@[simp] theorem modImg_hiShadow (s : State) (g : Img → Img) : (s.modImg g).hiShadow = s.hiShadow := rfl
@[simp] theorem modImg_keyPend (s : State) (g : Img → Img) : (s.modImg g).keyPend = s.keyPend := rfl
@[simp] theorem modImg_strobe (s : State) (g : Img → Img) : (s.modImg g).strobe = s.strobe := rfl
@[simp] theorem modImg_bcsWait (s : State) (g : Img → Img) : (s.modImg g).bcsWait = s.bcsWait := rfl
@[simp] theorem modImg_slowQ (s : State) (g : Img → Img) : (s.modImg g).slowQ = s.slowQ := rfl
@[simp] theorem modImg_flt (s : State) (g : Img → Img) : (s.modImg g).flt = s.flt := rfl
@[simp] theorem modImg_bst (s : State) (g : Img → Img) : (s.modImg g).bst = s.bst := rfl
@[simp] theorem modImg_pwr (s : State) (g : Img → Img) : (s.modImg g).pwr = s.pwr := rfl
@[simp] theorem modImg_kst (s : State) (g : Img → Img) : (s.modImg g).kst = s.kst := rfl
@[simp] theorem modImg_links (s : State) (g : Img → Img) : (s.modImg g).links = s.links := rfl
@[simp] theorem modImg_tbl (s : State) (g : Img → Img) : (s.modImg g).tbl = s.tbl := rfl
@[simp] theorem modImg_ports (s : State) (g : Img → Img) : (s.modImg g).ports = s.ports := rfl
@[simp] theorem modImg_daddrs (s : State) (g : Img → Img) : (s.modImg g).daddrs = s.daddrs := rfl
@[simp] theorem modImg_dns (s : State) (g : Img → Img) : (s.modImg g).dns = s.dns := rfl
@[simp] theorem modImg_gates (s : State) (g : Img → Img) : (s.modImg g).gates = s.gates := rfl
@[simp] theorem modImg_insts (s : State) (g : Img → Img) : (s.modImg g).insts = s.insts := rfl
@[simp] theorem modImg_mgt (s : State) (g : Img → Img) : (s.modImg g).mgt = s.mgt := rfl
@[simp] theorem modImg_cmp (s : State) (g : Img → Img) : (s.modImg g).cmp = s.cmp := rfl
@[simp] theorem modImg_img (s : State) (g : Img → Img) : (s.modImg g).img = g s.img := rfl
@[simp] theorem modImg_land (s : State) (g : Img → Img) : (s.modImg g).land = s.land := rfl
@[simp] theorem modImg_tap (s : State) (g : Img → Img) : (s.modImg g).tap = s.tap := rfl
@[simp] theorem modImg_engs (s : State) (g : Img → Img) : (s.modImg g).engs = s.engs := rfl
@[simp] theorem modImg_jnl (s : State) (g : Img → Img) : (s.modImg g).jnl = s.jnl := rfl
@[simp] theorem modImg_hub (s : State) (g : Img → Img) : (s.modImg g).hub = s.hub := rfl
@[simp] theorem modImg_ops (s : State) (g : Img → Img) : (s.modImg g).ops = s.ops := rfl
@[simp] theorem modImg_ctxs (s : State) (g : Img → Img) : (s.modImg g).ctxs = s.ctxs := rfl
@[simp] theorem modImg_nextCtx (s : State) (g : Img → Img) : (s.modImg g).nextCtx = s.nextCtx := rfl
@[simp] theorem modImg_qps (s : State) (g : Img → Img) : (s.modImg g).qps = s.qps := rfl
@[simp] theorem modImg_pels (s : State) (g : Img → Img) : (s.modImg g).pels = s.pels := rfl
@[simp] theorem modImg_evWait (s : State) (g : Img → Img) : (s.modImg g).evWait = s.evWait := rfl
@[simp] theorem modImg_landOut (s : State) (g : Img → Img) : (s.modImg g).landOut = s.landOut := rfl

/-! ### modGate -/

@[simp] theorem modGate_mode (s : State) (n : Nat) (g : GateRec → GateRec) : (s.modGate n g).mode = s.mode := rfl
@[simp] theorem modGate_phase (s : State) (n : Nat) (g : GateRec → GateRec) : (s.modGate n g).phase = s.phase := rfl
@[simp] theorem modGate_ts (s : State) (n : Nat) (g : GateRec → GateRec) : (s.modGate n g).ts = s.ts := rfl
@[simp] theorem modGate_pending (s : State) (n : Nat) (g : GateRec → GateRec) : (s.modGate n g).pending = s.pending := rfl
@[simp] theorem modGate_outp (s : State) (n : Nat) (g : GateRec → GateRec) : (s.modGate n g).outp = s.outp := rfl
@[simp] theorem modGate_freeCount (s : State) (n : Nat) (g : GateRec → GateRec) : (s.modGate n g).freeCount = s.freeCount := rfl
@[simp] theorem modGate_freeNext (s : State) (n : Nat) (g : GateRec → GateRec) : (s.modGate n g).freeNext = s.freeNext := rfl
@[simp] theorem modGate_regs (s : State) (n : Nat) (g : GateRec → GateRec) : (s.modGate n g).regs = s.regs := rfl
@[simp] theorem modGate_shadow (s : State) (n : Nat) (g : GateRec → GateRec) : (s.modGate n g).shadow = s.shadow := rfl
@[simp] theorem modGate_hiShadow (s : State) (n : Nat) (g : GateRec → GateRec) : (s.modGate n g).hiShadow = s.hiShadow := rfl
@[simp] theorem modGate_keyPend (s : State) (n : Nat) (g : GateRec → GateRec) : (s.modGate n g).keyPend = s.keyPend := rfl
@[simp] theorem modGate_strobe (s : State) (n : Nat) (g : GateRec → GateRec) : (s.modGate n g).strobe = s.strobe := rfl
@[simp] theorem modGate_bcsWait (s : State) (n : Nat) (g : GateRec → GateRec) : (s.modGate n g).bcsWait = s.bcsWait := rfl
@[simp] theorem modGate_slowQ (s : State) (n : Nat) (g : GateRec → GateRec) : (s.modGate n g).slowQ = s.slowQ := rfl
@[simp] theorem modGate_flt (s : State) (n : Nat) (g : GateRec → GateRec) : (s.modGate n g).flt = s.flt := rfl
@[simp] theorem modGate_bst (s : State) (n : Nat) (g : GateRec → GateRec) : (s.modGate n g).bst = s.bst := rfl
@[simp] theorem modGate_pwr (s : State) (n : Nat) (g : GateRec → GateRec) : (s.modGate n g).pwr = s.pwr := rfl
@[simp] theorem modGate_kst (s : State) (n : Nat) (g : GateRec → GateRec) : (s.modGate n g).kst = s.kst := rfl
@[simp] theorem modGate_links (s : State) (n : Nat) (g : GateRec → GateRec) : (s.modGate n g).links = s.links := rfl
@[simp] theorem modGate_tbl (s : State) (n : Nat) (g : GateRec → GateRec) : (s.modGate n g).tbl = s.tbl := rfl
@[simp] theorem modGate_ports (s : State) (n : Nat) (g : GateRec → GateRec) : (s.modGate n g).ports = s.ports := rfl
@[simp] theorem modGate_daddrs (s : State) (n : Nat) (g : GateRec → GateRec) : (s.modGate n g).daddrs = s.daddrs := rfl
@[simp] theorem modGate_dns (s : State) (n : Nat) (g : GateRec → GateRec) : (s.modGate n g).dns = s.dns := rfl
@[simp] theorem modGate_gates (s : State) (n : Nat) (g : GateRec → GateRec) : (s.modGate n g).gates = FMap.mod {} n g s.gates := rfl
@[simp] theorem modGate_insts (s : State) (n : Nat) (g : GateRec → GateRec) : (s.modGate n g).insts = s.insts := rfl
@[simp] theorem modGate_mgt (s : State) (n : Nat) (g : GateRec → GateRec) : (s.modGate n g).mgt = s.mgt := rfl
@[simp] theorem modGate_cmp (s : State) (n : Nat) (g : GateRec → GateRec) : (s.modGate n g).cmp = s.cmp := rfl
@[simp] theorem modGate_img (s : State) (n : Nat) (g : GateRec → GateRec) : (s.modGate n g).img = s.img := rfl
@[simp] theorem modGate_land (s : State) (n : Nat) (g : GateRec → GateRec) : (s.modGate n g).land = s.land := rfl
@[simp] theorem modGate_tap (s : State) (n : Nat) (g : GateRec → GateRec) : (s.modGate n g).tap = s.tap := rfl
@[simp] theorem modGate_engs (s : State) (n : Nat) (g : GateRec → GateRec) : (s.modGate n g).engs = s.engs := rfl
@[simp] theorem modGate_jnl (s : State) (n : Nat) (g : GateRec → GateRec) : (s.modGate n g).jnl = s.jnl := rfl
@[simp] theorem modGate_hub (s : State) (n : Nat) (g : GateRec → GateRec) : (s.modGate n g).hub = s.hub := rfl
@[simp] theorem modGate_ops (s : State) (n : Nat) (g : GateRec → GateRec) : (s.modGate n g).ops = s.ops := rfl
@[simp] theorem modGate_ctxs (s : State) (n : Nat) (g : GateRec → GateRec) : (s.modGate n g).ctxs = s.ctxs := rfl
@[simp] theorem modGate_nextCtx (s : State) (n : Nat) (g : GateRec → GateRec) : (s.modGate n g).nextCtx = s.nextCtx := rfl
@[simp] theorem modGate_qps (s : State) (n : Nat) (g : GateRec → GateRec) : (s.modGate n g).qps = s.qps := rfl
@[simp] theorem modGate_pels (s : State) (n : Nat) (g : GateRec → GateRec) : (s.modGate n g).pels = s.pels := rfl
@[simp] theorem modGate_evWait (s : State) (n : Nat) (g : GateRec → GateRec) : (s.modGate n g).evWait = s.evWait := rfl
@[simp] theorem modGate_landOut (s : State) (n : Nat) (g : GateRec → GateRec) : (s.modGate n g).landOut = s.landOut := rfl

/-! ### modTbl -/

@[simp] theorem modTbl_mode (s : State) (g : Tables → Tables) : (s.modTbl g).mode = s.mode := rfl
@[simp] theorem modTbl_phase (s : State) (g : Tables → Tables) : (s.modTbl g).phase = s.phase := rfl
@[simp] theorem modTbl_ts (s : State) (g : Tables → Tables) : (s.modTbl g).ts = s.ts := rfl
@[simp] theorem modTbl_pending (s : State) (g : Tables → Tables) : (s.modTbl g).pending = s.pending := rfl
@[simp] theorem modTbl_outp (s : State) (g : Tables → Tables) : (s.modTbl g).outp = s.outp := rfl
@[simp] theorem modTbl_freeCount (s : State) (g : Tables → Tables) : (s.modTbl g).freeCount = s.freeCount := rfl
@[simp] theorem modTbl_freeNext (s : State) (g : Tables → Tables) : (s.modTbl g).freeNext = s.freeNext := rfl
@[simp] theorem modTbl_regs (s : State) (g : Tables → Tables) : (s.modTbl g).regs = s.regs := rfl
@[simp] theorem modTbl_shadow (s : State) (g : Tables → Tables) : (s.modTbl g).shadow = s.shadow := rfl
@[simp] theorem modTbl_hiShadow (s : State) (g : Tables → Tables) : (s.modTbl g).hiShadow = s.hiShadow := rfl
@[simp] theorem modTbl_keyPend (s : State) (g : Tables → Tables) : (s.modTbl g).keyPend = s.keyPend := rfl
@[simp] theorem modTbl_strobe (s : State) (g : Tables → Tables) : (s.modTbl g).strobe = s.strobe := rfl
@[simp] theorem modTbl_bcsWait (s : State) (g : Tables → Tables) : (s.modTbl g).bcsWait = s.bcsWait := rfl
@[simp] theorem modTbl_slowQ (s : State) (g : Tables → Tables) : (s.modTbl g).slowQ = s.slowQ := rfl
@[simp] theorem modTbl_flt (s : State) (g : Tables → Tables) : (s.modTbl g).flt = s.flt := rfl
@[simp] theorem modTbl_bst (s : State) (g : Tables → Tables) : (s.modTbl g).bst = s.bst := rfl
@[simp] theorem modTbl_pwr (s : State) (g : Tables → Tables) : (s.modTbl g).pwr = s.pwr := rfl
@[simp] theorem modTbl_kst (s : State) (g : Tables → Tables) : (s.modTbl g).kst = s.kst := rfl
@[simp] theorem modTbl_links (s : State) (g : Tables → Tables) : (s.modTbl g).links = s.links := rfl
@[simp] theorem modTbl_tbl (s : State) (g : Tables → Tables) : (s.modTbl g).tbl = g s.tbl := rfl
@[simp] theorem modTbl_ports (s : State) (g : Tables → Tables) : (s.modTbl g).ports = s.ports := rfl
@[simp] theorem modTbl_daddrs (s : State) (g : Tables → Tables) : (s.modTbl g).daddrs = s.daddrs := rfl
@[simp] theorem modTbl_dns (s : State) (g : Tables → Tables) : (s.modTbl g).dns = s.dns := rfl
@[simp] theorem modTbl_gates (s : State) (g : Tables → Tables) : (s.modTbl g).gates = s.gates := rfl
@[simp] theorem modTbl_insts (s : State) (g : Tables → Tables) : (s.modTbl g).insts = s.insts := rfl
@[simp] theorem modTbl_mgt (s : State) (g : Tables → Tables) : (s.modTbl g).mgt = s.mgt := rfl
@[simp] theorem modTbl_cmp (s : State) (g : Tables → Tables) : (s.modTbl g).cmp = s.cmp := rfl
@[simp] theorem modTbl_img (s : State) (g : Tables → Tables) : (s.modTbl g).img = s.img := rfl
@[simp] theorem modTbl_land (s : State) (g : Tables → Tables) : (s.modTbl g).land = s.land := rfl
@[simp] theorem modTbl_tap (s : State) (g : Tables → Tables) : (s.modTbl g).tap = s.tap := rfl
@[simp] theorem modTbl_engs (s : State) (g : Tables → Tables) : (s.modTbl g).engs = s.engs := rfl
@[simp] theorem modTbl_jnl (s : State) (g : Tables → Tables) : (s.modTbl g).jnl = s.jnl := rfl
@[simp] theorem modTbl_hub (s : State) (g : Tables → Tables) : (s.modTbl g).hub = s.hub := rfl
@[simp] theorem modTbl_ops (s : State) (g : Tables → Tables) : (s.modTbl g).ops = s.ops := rfl
@[simp] theorem modTbl_ctxs (s : State) (g : Tables → Tables) : (s.modTbl g).ctxs = s.ctxs := rfl
@[simp] theorem modTbl_nextCtx (s : State) (g : Tables → Tables) : (s.modTbl g).nextCtx = s.nextCtx := rfl
@[simp] theorem modTbl_qps (s : State) (g : Tables → Tables) : (s.modTbl g).qps = s.qps := rfl
@[simp] theorem modTbl_pels (s : State) (g : Tables → Tables) : (s.modTbl g).pels = s.pels := rfl
@[simp] theorem modTbl_evWait (s : State) (g : Tables → Tables) : (s.modTbl g).evWait = s.evWait := rfl
@[simp] theorem modTbl_landOut (s : State) (g : Tables → Tables) : (s.modTbl g).landOut = s.landOut := rfl

/-! ### modHub -/

@[simp] theorem modHub_mode (s : State) (g : Hub → Hub) : (s.modHub g).mode = s.mode := rfl
@[simp] theorem modHub_phase (s : State) (g : Hub → Hub) : (s.modHub g).phase = s.phase := rfl
@[simp] theorem modHub_ts (s : State) (g : Hub → Hub) : (s.modHub g).ts = s.ts := rfl
@[simp] theorem modHub_pending (s : State) (g : Hub → Hub) : (s.modHub g).pending = s.pending := rfl
@[simp] theorem modHub_outp (s : State) (g : Hub → Hub) : (s.modHub g).outp = s.outp := rfl
@[simp] theorem modHub_freeCount (s : State) (g : Hub → Hub) : (s.modHub g).freeCount = s.freeCount := rfl
@[simp] theorem modHub_freeNext (s : State) (g : Hub → Hub) : (s.modHub g).freeNext = s.freeNext := rfl
@[simp] theorem modHub_regs (s : State) (g : Hub → Hub) : (s.modHub g).regs = s.regs := rfl
@[simp] theorem modHub_shadow (s : State) (g : Hub → Hub) : (s.modHub g).shadow = s.shadow := rfl
@[simp] theorem modHub_hiShadow (s : State) (g : Hub → Hub) : (s.modHub g).hiShadow = s.hiShadow := rfl
@[simp] theorem modHub_keyPend (s : State) (g : Hub → Hub) : (s.modHub g).keyPend = s.keyPend := rfl
@[simp] theorem modHub_strobe (s : State) (g : Hub → Hub) : (s.modHub g).strobe = s.strobe := rfl
@[simp] theorem modHub_bcsWait (s : State) (g : Hub → Hub) : (s.modHub g).bcsWait = s.bcsWait := rfl
@[simp] theorem modHub_slowQ (s : State) (g : Hub → Hub) : (s.modHub g).slowQ = s.slowQ := rfl
@[simp] theorem modHub_flt (s : State) (g : Hub → Hub) : (s.modHub g).flt = s.flt := rfl
@[simp] theorem modHub_bst (s : State) (g : Hub → Hub) : (s.modHub g).bst = s.bst := rfl
@[simp] theorem modHub_pwr (s : State) (g : Hub → Hub) : (s.modHub g).pwr = s.pwr := rfl
@[simp] theorem modHub_kst (s : State) (g : Hub → Hub) : (s.modHub g).kst = s.kst := rfl
@[simp] theorem modHub_links (s : State) (g : Hub → Hub) : (s.modHub g).links = s.links := rfl
@[simp] theorem modHub_tbl (s : State) (g : Hub → Hub) : (s.modHub g).tbl = s.tbl := rfl
@[simp] theorem modHub_ports (s : State) (g : Hub → Hub) : (s.modHub g).ports = s.ports := rfl
@[simp] theorem modHub_daddrs (s : State) (g : Hub → Hub) : (s.modHub g).daddrs = s.daddrs := rfl
@[simp] theorem modHub_dns (s : State) (g : Hub → Hub) : (s.modHub g).dns = s.dns := rfl
@[simp] theorem modHub_gates (s : State) (g : Hub → Hub) : (s.modHub g).gates = s.gates := rfl
@[simp] theorem modHub_insts (s : State) (g : Hub → Hub) : (s.modHub g).insts = s.insts := rfl
@[simp] theorem modHub_mgt (s : State) (g : Hub → Hub) : (s.modHub g).mgt = s.mgt := rfl
@[simp] theorem modHub_cmp (s : State) (g : Hub → Hub) : (s.modHub g).cmp = s.cmp := rfl
@[simp] theorem modHub_img (s : State) (g : Hub → Hub) : (s.modHub g).img = s.img := rfl
@[simp] theorem modHub_land (s : State) (g : Hub → Hub) : (s.modHub g).land = s.land := rfl
@[simp] theorem modHub_tap (s : State) (g : Hub → Hub) : (s.modHub g).tap = s.tap := rfl
@[simp] theorem modHub_engs (s : State) (g : Hub → Hub) : (s.modHub g).engs = s.engs := rfl
@[simp] theorem modHub_jnl (s : State) (g : Hub → Hub) : (s.modHub g).jnl = s.jnl := rfl
@[simp] theorem modHub_hub (s : State) (g : Hub → Hub) : (s.modHub g).hub = g s.hub := rfl
@[simp] theorem modHub_ops (s : State) (g : Hub → Hub) : (s.modHub g).ops = s.ops := rfl
@[simp] theorem modHub_ctxs (s : State) (g : Hub → Hub) : (s.modHub g).ctxs = s.ctxs := rfl
@[simp] theorem modHub_nextCtx (s : State) (g : Hub → Hub) : (s.modHub g).nextCtx = s.nextCtx := rfl
@[simp] theorem modHub_qps (s : State) (g : Hub → Hub) : (s.modHub g).qps = s.qps := rfl
@[simp] theorem modHub_pels (s : State) (g : Hub → Hub) : (s.modHub g).pels = s.pels := rfl
@[simp] theorem modHub_evWait (s : State) (g : Hub → Hub) : (s.modHub g).evWait = s.evWait := rfl
@[simp] theorem modHub_landOut (s : State) (g : Hub → Hub) : (s.modHub g).landOut = s.landOut := rfl

/-! ### modOp -/

@[simp] theorem modOp_mode (s : State) (je : Nat) (g : Op → Op) : (s.modOp je g).mode = s.mode := rfl
@[simp] theorem modOp_phase (s : State) (je : Nat) (g : Op → Op) : (s.modOp je g).phase = s.phase := rfl
@[simp] theorem modOp_ts (s : State) (je : Nat) (g : Op → Op) : (s.modOp je g).ts = s.ts := rfl
@[simp] theorem modOp_pending (s : State) (je : Nat) (g : Op → Op) : (s.modOp je g).pending = s.pending := rfl
@[simp] theorem modOp_outp (s : State) (je : Nat) (g : Op → Op) : (s.modOp je g).outp = s.outp := rfl
@[simp] theorem modOp_freeCount (s : State) (je : Nat) (g : Op → Op) : (s.modOp je g).freeCount = s.freeCount := rfl
@[simp] theorem modOp_freeNext (s : State) (je : Nat) (g : Op → Op) : (s.modOp je g).freeNext = s.freeNext := rfl
@[simp] theorem modOp_regs (s : State) (je : Nat) (g : Op → Op) : (s.modOp je g).regs = s.regs := rfl
@[simp] theorem modOp_shadow (s : State) (je : Nat) (g : Op → Op) : (s.modOp je g).shadow = s.shadow := rfl
@[simp] theorem modOp_hiShadow (s : State) (je : Nat) (g : Op → Op) : (s.modOp je g).hiShadow = s.hiShadow := rfl
@[simp] theorem modOp_keyPend (s : State) (je : Nat) (g : Op → Op) : (s.modOp je g).keyPend = s.keyPend := rfl
@[simp] theorem modOp_strobe (s : State) (je : Nat) (g : Op → Op) : (s.modOp je g).strobe = s.strobe := rfl
@[simp] theorem modOp_bcsWait (s : State) (je : Nat) (g : Op → Op) : (s.modOp je g).bcsWait = s.bcsWait := rfl
@[simp] theorem modOp_slowQ (s : State) (je : Nat) (g : Op → Op) : (s.modOp je g).slowQ = s.slowQ := rfl
@[simp] theorem modOp_flt (s : State) (je : Nat) (g : Op → Op) : (s.modOp je g).flt = s.flt := rfl
@[simp] theorem modOp_bst (s : State) (je : Nat) (g : Op → Op) : (s.modOp je g).bst = s.bst := rfl
@[simp] theorem modOp_pwr (s : State) (je : Nat) (g : Op → Op) : (s.modOp je g).pwr = s.pwr := rfl
@[simp] theorem modOp_kst (s : State) (je : Nat) (g : Op → Op) : (s.modOp je g).kst = s.kst := rfl
@[simp] theorem modOp_links (s : State) (je : Nat) (g : Op → Op) : (s.modOp je g).links = s.links := rfl
@[simp] theorem modOp_tbl (s : State) (je : Nat) (g : Op → Op) : (s.modOp je g).tbl = s.tbl := rfl
@[simp] theorem modOp_ports (s : State) (je : Nat) (g : Op → Op) : (s.modOp je g).ports = s.ports := rfl
@[simp] theorem modOp_daddrs (s : State) (je : Nat) (g : Op → Op) : (s.modOp je g).daddrs = s.daddrs := rfl
@[simp] theorem modOp_dns (s : State) (je : Nat) (g : Op → Op) : (s.modOp je g).dns = s.dns := rfl
@[simp] theorem modOp_gates (s : State) (je : Nat) (g : Op → Op) : (s.modOp je g).gates = s.gates := rfl
@[simp] theorem modOp_insts (s : State) (je : Nat) (g : Op → Op) : (s.modOp je g).insts = s.insts := rfl
@[simp] theorem modOp_mgt (s : State) (je : Nat) (g : Op → Op) : (s.modOp je g).mgt = s.mgt := rfl
@[simp] theorem modOp_cmp (s : State) (je : Nat) (g : Op → Op) : (s.modOp je g).cmp = s.cmp := rfl
@[simp] theorem modOp_img (s : State) (je : Nat) (g : Op → Op) : (s.modOp je g).img = s.img := rfl
@[simp] theorem modOp_land (s : State) (je : Nat) (g : Op → Op) : (s.modOp je g).land = s.land := rfl
@[simp] theorem modOp_tap (s : State) (je : Nat) (g : Op → Op) : (s.modOp je g).tap = s.tap := rfl
@[simp] theorem modOp_engs (s : State) (je : Nat) (g : Op → Op) : (s.modOp je g).engs = s.engs := rfl
@[simp] theorem modOp_jnl (s : State) (je : Nat) (g : Op → Op) : (s.modOp je g).jnl = s.jnl := rfl
@[simp] theorem modOp_hub (s : State) (je : Nat) (g : Op → Op) : (s.modOp je g).hub = s.hub := rfl
@[simp] theorem modOp_ops (s : State) (je : Nat) (g : Op → Op) : (s.modOp je g).ops = FMap.upd je g s.ops := rfl
@[simp] theorem modOp_ctxs (s : State) (je : Nat) (g : Op → Op) : (s.modOp je g).ctxs = s.ctxs := rfl
@[simp] theorem modOp_nextCtx (s : State) (je : Nat) (g : Op → Op) : (s.modOp je g).nextCtx = s.nextCtx := rfl
@[simp] theorem modOp_qps (s : State) (je : Nat) (g : Op → Op) : (s.modOp je g).qps = s.qps := rfl
@[simp] theorem modOp_pels (s : State) (je : Nat) (g : Op → Op) : (s.modOp je g).pels = s.pels := rfl
@[simp] theorem modOp_evWait (s : State) (je : Nat) (g : Op → Op) : (s.modOp je g).evWait = s.evWait := rfl
@[simp] theorem modOp_landOut (s : State) (je : Nat) (g : Op → Op) : (s.modOp je g).landOut = s.landOut := rfl

/-! ### modX -/

@[simp] theorem modX_mode (s : State) (je : Nat) (g : CcdX → CcdX) : (s.modX je g).mode = s.mode := rfl
@[simp] theorem modX_phase (s : State) (je : Nat) (g : CcdX → CcdX) : (s.modX je g).phase = s.phase := rfl
@[simp] theorem modX_ts (s : State) (je : Nat) (g : CcdX → CcdX) : (s.modX je g).ts = s.ts := rfl
@[simp] theorem modX_pending (s : State) (je : Nat) (g : CcdX → CcdX) : (s.modX je g).pending = s.pending := rfl
@[simp] theorem modX_outp (s : State) (je : Nat) (g : CcdX → CcdX) : (s.modX je g).outp = s.outp := rfl
@[simp] theorem modX_freeCount (s : State) (je : Nat) (g : CcdX → CcdX) : (s.modX je g).freeCount = s.freeCount := rfl
@[simp] theorem modX_freeNext (s : State) (je : Nat) (g : CcdX → CcdX) : (s.modX je g).freeNext = s.freeNext := rfl
@[simp] theorem modX_regs (s : State) (je : Nat) (g : CcdX → CcdX) : (s.modX je g).regs = s.regs := rfl
@[simp] theorem modX_shadow (s : State) (je : Nat) (g : CcdX → CcdX) : (s.modX je g).shadow = s.shadow := rfl
@[simp] theorem modX_hiShadow (s : State) (je : Nat) (g : CcdX → CcdX) : (s.modX je g).hiShadow = s.hiShadow := rfl
@[simp] theorem modX_keyPend (s : State) (je : Nat) (g : CcdX → CcdX) : (s.modX je g).keyPend = s.keyPend := rfl
@[simp] theorem modX_strobe (s : State) (je : Nat) (g : CcdX → CcdX) : (s.modX je g).strobe = s.strobe := rfl
@[simp] theorem modX_bcsWait (s : State) (je : Nat) (g : CcdX → CcdX) : (s.modX je g).bcsWait = s.bcsWait := rfl
@[simp] theorem modX_slowQ (s : State) (je : Nat) (g : CcdX → CcdX) : (s.modX je g).slowQ = s.slowQ := rfl
@[simp] theorem modX_flt (s : State) (je : Nat) (g : CcdX → CcdX) : (s.modX je g).flt = s.flt := rfl
@[simp] theorem modX_bst (s : State) (je : Nat) (g : CcdX → CcdX) : (s.modX je g).bst = s.bst := rfl
@[simp] theorem modX_pwr (s : State) (je : Nat) (g : CcdX → CcdX) : (s.modX je g).pwr = s.pwr := rfl
@[simp] theorem modX_kst (s : State) (je : Nat) (g : CcdX → CcdX) : (s.modX je g).kst = s.kst := rfl
@[simp] theorem modX_links (s : State) (je : Nat) (g : CcdX → CcdX) : (s.modX je g).links = s.links := rfl
@[simp] theorem modX_tbl (s : State) (je : Nat) (g : CcdX → CcdX) : (s.modX je g).tbl = s.tbl := rfl
@[simp] theorem modX_ports (s : State) (je : Nat) (g : CcdX → CcdX) : (s.modX je g).ports = s.ports := rfl
@[simp] theorem modX_daddrs (s : State) (je : Nat) (g : CcdX → CcdX) : (s.modX je g).daddrs = s.daddrs := rfl
@[simp] theorem modX_dns (s : State) (je : Nat) (g : CcdX → CcdX) : (s.modX je g).dns = s.dns := rfl
@[simp] theorem modX_gates (s : State) (je : Nat) (g : CcdX → CcdX) : (s.modX je g).gates = s.gates := rfl
@[simp] theorem modX_insts (s : State) (je : Nat) (g : CcdX → CcdX) : (s.modX je g).insts = s.insts := rfl
@[simp] theorem modX_mgt (s : State) (je : Nat) (g : CcdX → CcdX) : (s.modX je g).mgt = s.mgt := rfl
@[simp] theorem modX_cmp (s : State) (je : Nat) (g : CcdX → CcdX) : (s.modX je g).cmp = s.cmp := rfl
@[simp] theorem modX_img (s : State) (je : Nat) (g : CcdX → CcdX) : (s.modX je g).img = s.img := rfl
@[simp] theorem modX_land (s : State) (je : Nat) (g : CcdX → CcdX) : (s.modX je g).land = s.land := rfl
@[simp] theorem modX_tap (s : State) (je : Nat) (g : CcdX → CcdX) : (s.modX je g).tap = s.tap := rfl
@[simp] theorem modX_engs (s : State) (je : Nat) (g : CcdX → CcdX) : (s.modX je g).engs = s.engs := rfl
@[simp] theorem modX_jnl (s : State) (je : Nat) (g : CcdX → CcdX) : (s.modX je g).jnl = s.jnl := rfl
@[simp] theorem modX_hub (s : State) (je : Nat) (g : CcdX → CcdX) : (s.modX je g).hub = s.hub := rfl
@[simp] theorem modX_ctxs (s : State) (je : Nat) (g : CcdX → CcdX) : (s.modX je g).ctxs = s.ctxs := rfl
@[simp] theorem modX_nextCtx (s : State) (je : Nat) (g : CcdX → CcdX) : (s.modX je g).nextCtx = s.nextCtx := rfl
@[simp] theorem modX_qps (s : State) (je : Nat) (g : CcdX → CcdX) : (s.modX je g).qps = s.qps := rfl
@[simp] theorem modX_pels (s : State) (je : Nat) (g : CcdX → CcdX) : (s.modX je g).pels = s.pels := rfl
@[simp] theorem modX_evWait (s : State) (je : Nat) (g : CcdX → CcdX) : (s.modX je g).evWait = s.evWait := rfl
@[simp] theorem modX_landOut (s : State) (je : Nat) (g : CcdX → CcdX) : (s.modX je g).landOut = s.landOut := rfl

/-! ### modCtx -/

@[simp] theorem modCtx_mode (s : State) (k : Nat) (g : Ctx → Ctx) : (s.modCtx k g).mode = s.mode := rfl
@[simp] theorem modCtx_phase (s : State) (k : Nat) (g : Ctx → Ctx) : (s.modCtx k g).phase = s.phase := rfl
@[simp] theorem modCtx_ts (s : State) (k : Nat) (g : Ctx → Ctx) : (s.modCtx k g).ts = s.ts := rfl
@[simp] theorem modCtx_pending (s : State) (k : Nat) (g : Ctx → Ctx) : (s.modCtx k g).pending = s.pending := rfl
@[simp] theorem modCtx_outp (s : State) (k : Nat) (g : Ctx → Ctx) : (s.modCtx k g).outp = s.outp := rfl
@[simp] theorem modCtx_freeCount (s : State) (k : Nat) (g : Ctx → Ctx) : (s.modCtx k g).freeCount = s.freeCount := rfl
@[simp] theorem modCtx_freeNext (s : State) (k : Nat) (g : Ctx → Ctx) : (s.modCtx k g).freeNext = s.freeNext := rfl
@[simp] theorem modCtx_regs (s : State) (k : Nat) (g : Ctx → Ctx) : (s.modCtx k g).regs = s.regs := rfl
@[simp] theorem modCtx_shadow (s : State) (k : Nat) (g : Ctx → Ctx) : (s.modCtx k g).shadow = s.shadow := rfl
@[simp] theorem modCtx_hiShadow (s : State) (k : Nat) (g : Ctx → Ctx) : (s.modCtx k g).hiShadow = s.hiShadow := rfl
@[simp] theorem modCtx_keyPend (s : State) (k : Nat) (g : Ctx → Ctx) : (s.modCtx k g).keyPend = s.keyPend := rfl
@[simp] theorem modCtx_strobe (s : State) (k : Nat) (g : Ctx → Ctx) : (s.modCtx k g).strobe = s.strobe := rfl
@[simp] theorem modCtx_bcsWait (s : State) (k : Nat) (g : Ctx → Ctx) : (s.modCtx k g).bcsWait = s.bcsWait := rfl
@[simp] theorem modCtx_slowQ (s : State) (k : Nat) (g : Ctx → Ctx) : (s.modCtx k g).slowQ = s.slowQ := rfl
@[simp] theorem modCtx_flt (s : State) (k : Nat) (g : Ctx → Ctx) : (s.modCtx k g).flt = s.flt := rfl
@[simp] theorem modCtx_bst (s : State) (k : Nat) (g : Ctx → Ctx) : (s.modCtx k g).bst = s.bst := rfl
@[simp] theorem modCtx_pwr (s : State) (k : Nat) (g : Ctx → Ctx) : (s.modCtx k g).pwr = s.pwr := rfl
@[simp] theorem modCtx_kst (s : State) (k : Nat) (g : Ctx → Ctx) : (s.modCtx k g).kst = s.kst := rfl
@[simp] theorem modCtx_links (s : State) (k : Nat) (g : Ctx → Ctx) : (s.modCtx k g).links = s.links := rfl
@[simp] theorem modCtx_tbl (s : State) (k : Nat) (g : Ctx → Ctx) : (s.modCtx k g).tbl = s.tbl := rfl
@[simp] theorem modCtx_ports (s : State) (k : Nat) (g : Ctx → Ctx) : (s.modCtx k g).ports = s.ports := rfl
@[simp] theorem modCtx_daddrs (s : State) (k : Nat) (g : Ctx → Ctx) : (s.modCtx k g).daddrs = s.daddrs := rfl
@[simp] theorem modCtx_dns (s : State) (k : Nat) (g : Ctx → Ctx) : (s.modCtx k g).dns = s.dns := rfl
@[simp] theorem modCtx_gates (s : State) (k : Nat) (g : Ctx → Ctx) : (s.modCtx k g).gates = s.gates := rfl
@[simp] theorem modCtx_insts (s : State) (k : Nat) (g : Ctx → Ctx) : (s.modCtx k g).insts = s.insts := rfl
@[simp] theorem modCtx_mgt (s : State) (k : Nat) (g : Ctx → Ctx) : (s.modCtx k g).mgt = s.mgt := rfl
@[simp] theorem modCtx_cmp (s : State) (k : Nat) (g : Ctx → Ctx) : (s.modCtx k g).cmp = s.cmp := rfl
@[simp] theorem modCtx_img (s : State) (k : Nat) (g : Ctx → Ctx) : (s.modCtx k g).img = s.img := rfl
@[simp] theorem modCtx_land (s : State) (k : Nat) (g : Ctx → Ctx) : (s.modCtx k g).land = s.land := rfl
@[simp] theorem modCtx_tap (s : State) (k : Nat) (g : Ctx → Ctx) : (s.modCtx k g).tap = s.tap := rfl
@[simp] theorem modCtx_engs (s : State) (k : Nat) (g : Ctx → Ctx) : (s.modCtx k g).engs = s.engs := rfl
@[simp] theorem modCtx_jnl (s : State) (k : Nat) (g : Ctx → Ctx) : (s.modCtx k g).jnl = s.jnl := rfl
@[simp] theorem modCtx_hub (s : State) (k : Nat) (g : Ctx → Ctx) : (s.modCtx k g).hub = s.hub := rfl
@[simp] theorem modCtx_ops (s : State) (k : Nat) (g : Ctx → Ctx) : (s.modCtx k g).ops = s.ops := rfl
@[simp] theorem modCtx_ctxs (s : State) (k : Nat) (g : Ctx → Ctx) : (s.modCtx k g).ctxs = FMap.upd k g s.ctxs := rfl
@[simp] theorem modCtx_nextCtx (s : State) (k : Nat) (g : Ctx → Ctx) : (s.modCtx k g).nextCtx = s.nextCtx := rfl
@[simp] theorem modCtx_qps (s : State) (k : Nat) (g : Ctx → Ctx) : (s.modCtx k g).qps = s.qps := rfl
@[simp] theorem modCtx_pels (s : State) (k : Nat) (g : Ctx → Ctx) : (s.modCtx k g).pels = s.pels := rfl
@[simp] theorem modCtx_evWait (s : State) (k : Nat) (g : Ctx → Ctx) : (s.modCtx k g).evWait = s.evWait := rfl
@[simp] theorem modCtx_landOut (s : State) (k : Nat) (g : Ctx → Ctx) : (s.modCtx k g).landOut = s.landOut := rfl

/-! ### freeCtx -/

@[simp] theorem freeCtx_mode (s : State) (k : Nat) : (s.freeCtx k).mode = s.mode := rfl
@[simp] theorem freeCtx_phase (s : State) (k : Nat) : (s.freeCtx k).phase = s.phase := rfl
@[simp] theorem freeCtx_ts (s : State) (k : Nat) : (s.freeCtx k).ts = s.ts := rfl
@[simp] theorem freeCtx_pending (s : State) (k : Nat) : (s.freeCtx k).pending = s.pending := rfl
@[simp] theorem freeCtx_outp (s : State) (k : Nat) : (s.freeCtx k).outp = s.outp := rfl
@[simp] theorem freeCtx_freeCount (s : State) (k : Nat) : (s.freeCtx k).freeCount = s.freeCount := rfl
@[simp] theorem freeCtx_freeNext (s : State) (k : Nat) : (s.freeCtx k).freeNext = s.freeNext := rfl
@[simp] theorem freeCtx_regs (s : State) (k : Nat) : (s.freeCtx k).regs = s.regs := rfl
@[simp] theorem freeCtx_shadow (s : State) (k : Nat) : (s.freeCtx k).shadow = s.shadow := rfl
@[simp] theorem freeCtx_hiShadow (s : State) (k : Nat) : (s.freeCtx k).hiShadow = s.hiShadow := rfl
@[simp] theorem freeCtx_keyPend (s : State) (k : Nat) : (s.freeCtx k).keyPend = s.keyPend := rfl
@[simp] theorem freeCtx_strobe (s : State) (k : Nat) : (s.freeCtx k).strobe = s.strobe := rfl
@[simp] theorem freeCtx_bcsWait (s : State) (k : Nat) : (s.freeCtx k).bcsWait = s.bcsWait := rfl
@[simp] theorem freeCtx_slowQ (s : State) (k : Nat) : (s.freeCtx k).slowQ = s.slowQ := rfl
@[simp] theorem freeCtx_flt (s : State) (k : Nat) : (s.freeCtx k).flt = s.flt := rfl
@[simp] theorem freeCtx_bst (s : State) (k : Nat) : (s.freeCtx k).bst = s.bst := rfl
@[simp] theorem freeCtx_pwr (s : State) (k : Nat) : (s.freeCtx k).pwr = s.pwr := rfl
@[simp] theorem freeCtx_kst (s : State) (k : Nat) : (s.freeCtx k).kst = s.kst := rfl
@[simp] theorem freeCtx_links (s : State) (k : Nat) : (s.freeCtx k).links = s.links := rfl
@[simp] theorem freeCtx_tbl (s : State) (k : Nat) : (s.freeCtx k).tbl = s.tbl := rfl
@[simp] theorem freeCtx_ports (s : State) (k : Nat) : (s.freeCtx k).ports = s.ports := rfl
@[simp] theorem freeCtx_daddrs (s : State) (k : Nat) : (s.freeCtx k).daddrs = s.daddrs := rfl
@[simp] theorem freeCtx_dns (s : State) (k : Nat) : (s.freeCtx k).dns = s.dns := rfl
@[simp] theorem freeCtx_gates (s : State) (k : Nat) : (s.freeCtx k).gates = s.gates := rfl
@[simp] theorem freeCtx_insts (s : State) (k : Nat) : (s.freeCtx k).insts = s.insts := rfl
@[simp] theorem freeCtx_mgt (s : State) (k : Nat) : (s.freeCtx k).mgt = s.mgt := rfl
@[simp] theorem freeCtx_cmp (s : State) (k : Nat) : (s.freeCtx k).cmp = s.cmp := rfl
@[simp] theorem freeCtx_img (s : State) (k : Nat) : (s.freeCtx k).img = s.img := rfl
@[simp] theorem freeCtx_land (s : State) (k : Nat) : (s.freeCtx k).land = s.land := rfl
@[simp] theorem freeCtx_tap (s : State) (k : Nat) : (s.freeCtx k).tap = s.tap := rfl
@[simp] theorem freeCtx_engs (s : State) (k : Nat) : (s.freeCtx k).engs = s.engs := rfl
@[simp] theorem freeCtx_jnl (s : State) (k : Nat) : (s.freeCtx k).jnl = s.jnl := rfl
@[simp] theorem freeCtx_hub (s : State) (k : Nat) : (s.freeCtx k).hub = s.hub := rfl
@[simp] theorem freeCtx_ops (s : State) (k : Nat) : (s.freeCtx k).ops = s.ops := rfl
@[simp] theorem freeCtx_ctxs (s : State) (k : Nat) : (s.freeCtx k).ctxs = FMap.del k s.ctxs := rfl
@[simp] theorem freeCtx_nextCtx (s : State) (k : Nat) : (s.freeCtx k).nextCtx = s.nextCtx := rfl
@[simp] theorem freeCtx_qps (s : State) (k : Nat) : (s.freeCtx k).qps = s.qps := rfl
@[simp] theorem freeCtx_pels (s : State) (k : Nat) : (s.freeCtx k).pels = s.pels := rfl
@[simp] theorem freeCtx_evWait (s : State) (k : Nat) : (s.freeCtx k).evWait = s.evWait := rfl
@[simp] theorem freeCtx_landOut (s : State) (k : Nat) : (s.freeCtx k).landOut = s.landOut := rfl

/-! ### modDaddr -/

@[simp] theorem modDaddr_mode (s : State) (p d : Nat) (g : Daddr → Daddr) : (s.modDaddr p d g).mode = s.mode := rfl
@[simp] theorem modDaddr_phase (s : State) (p d : Nat) (g : Daddr → Daddr) : (s.modDaddr p d g).phase = s.phase := rfl
@[simp] theorem modDaddr_ts (s : State) (p d : Nat) (g : Daddr → Daddr) : (s.modDaddr p d g).ts = s.ts := rfl
@[simp] theorem modDaddr_pending (s : State) (p d : Nat) (g : Daddr → Daddr) : (s.modDaddr p d g).pending = s.pending := rfl
@[simp] theorem modDaddr_outp (s : State) (p d : Nat) (g : Daddr → Daddr) : (s.modDaddr p d g).outp = s.outp := rfl
@[simp] theorem modDaddr_freeCount (s : State) (p d : Nat) (g : Daddr → Daddr) : (s.modDaddr p d g).freeCount = s.freeCount := rfl
@[simp] theorem modDaddr_freeNext (s : State) (p d : Nat) (g : Daddr → Daddr) : (s.modDaddr p d g).freeNext = s.freeNext := rfl
@[simp] theorem modDaddr_regs (s : State) (p d : Nat) (g : Daddr → Daddr) : (s.modDaddr p d g).regs = s.regs := rfl
@[simp] theorem modDaddr_shadow (s : State) (p d : Nat) (g : Daddr → Daddr) : (s.modDaddr p d g).shadow = s.shadow := rfl
@[simp] theorem modDaddr_hiShadow (s : State) (p d : Nat) (g : Daddr → Daddr) : (s.modDaddr p d g).hiShadow = s.hiShadow := rfl
@[simp] theorem modDaddr_keyPend (s : State) (p d : Nat) (g : Daddr → Daddr) : (s.modDaddr p d g).keyPend = s.keyPend := rfl
@[simp] theorem modDaddr_strobe (s : State) (p d : Nat) (g : Daddr → Daddr) : (s.modDaddr p d g).strobe = s.strobe := rfl
@[simp] theorem modDaddr_bcsWait (s : State) (p d : Nat) (g : Daddr → Daddr) : (s.modDaddr p d g).bcsWait = s.bcsWait := rfl
@[simp] theorem modDaddr_slowQ (s : State) (p d : Nat) (g : Daddr → Daddr) : (s.modDaddr p d g).slowQ = s.slowQ := rfl
@[simp] theorem modDaddr_flt (s : State) (p d : Nat) (g : Daddr → Daddr) : (s.modDaddr p d g).flt = s.flt := rfl
@[simp] theorem modDaddr_bst (s : State) (p d : Nat) (g : Daddr → Daddr) : (s.modDaddr p d g).bst = s.bst := rfl
@[simp] theorem modDaddr_pwr (s : State) (p d : Nat) (g : Daddr → Daddr) : (s.modDaddr p d g).pwr = s.pwr := rfl
@[simp] theorem modDaddr_kst (s : State) (p d : Nat) (g : Daddr → Daddr) : (s.modDaddr p d g).kst = s.kst := rfl
@[simp] theorem modDaddr_links (s : State) (p d : Nat) (g : Daddr → Daddr) : (s.modDaddr p d g).links = s.links := rfl
@[simp] theorem modDaddr_tbl (s : State) (p d : Nat) (g : Daddr → Daddr) : (s.modDaddr p d g).tbl = s.tbl := rfl
@[simp] theorem modDaddr_ports (s : State) (p d : Nat) (g : Daddr → Daddr) : (s.modDaddr p d g).ports = s.ports := rfl
@[simp] theorem modDaddr_daddrs (s : State) (p d : Nat) (g : Daddr → Daddr) : (s.modDaddr p d g).daddrs = FMap.mod {} (p * 2048 + d) g s.daddrs := rfl
@[simp] theorem modDaddr_dns (s : State) (p d : Nat) (g : Daddr → Daddr) : (s.modDaddr p d g).dns = s.dns := rfl
@[simp] theorem modDaddr_gates (s : State) (p d : Nat) (g : Daddr → Daddr) : (s.modDaddr p d g).gates = s.gates := rfl
@[simp] theorem modDaddr_insts (s : State) (p d : Nat) (g : Daddr → Daddr) : (s.modDaddr p d g).insts = s.insts := rfl
@[simp] theorem modDaddr_mgt (s : State) (p d : Nat) (g : Daddr → Daddr) : (s.modDaddr p d g).mgt = s.mgt := rfl
@[simp] theorem modDaddr_cmp (s : State) (p d : Nat) (g : Daddr → Daddr) : (s.modDaddr p d g).cmp = s.cmp := rfl
@[simp] theorem modDaddr_img (s : State) (p d : Nat) (g : Daddr → Daddr) : (s.modDaddr p d g).img = s.img := rfl
@[simp] theorem modDaddr_land (s : State) (p d : Nat) (g : Daddr → Daddr) : (s.modDaddr p d g).land = s.land := rfl
@[simp] theorem modDaddr_tap (s : State) (p d : Nat) (g : Daddr → Daddr) : (s.modDaddr p d g).tap = s.tap := rfl
@[simp] theorem modDaddr_engs (s : State) (p d : Nat) (g : Daddr → Daddr) : (s.modDaddr p d g).engs = s.engs := rfl
@[simp] theorem modDaddr_jnl (s : State) (p d : Nat) (g : Daddr → Daddr) : (s.modDaddr p d g).jnl = s.jnl := rfl
@[simp] theorem modDaddr_hub (s : State) (p d : Nat) (g : Daddr → Daddr) : (s.modDaddr p d g).hub = s.hub := rfl
@[simp] theorem modDaddr_ops (s : State) (p d : Nat) (g : Daddr → Daddr) : (s.modDaddr p d g).ops = s.ops := rfl
@[simp] theorem modDaddr_ctxs (s : State) (p d : Nat) (g : Daddr → Daddr) : (s.modDaddr p d g).ctxs = s.ctxs := rfl
@[simp] theorem modDaddr_nextCtx (s : State) (p d : Nat) (g : Daddr → Daddr) : (s.modDaddr p d g).nextCtx = s.nextCtx := rfl
@[simp] theorem modDaddr_qps (s : State) (p d : Nat) (g : Daddr → Daddr) : (s.modDaddr p d g).qps = s.qps := rfl
@[simp] theorem modDaddr_pels (s : State) (p d : Nat) (g : Daddr → Daddr) : (s.modDaddr p d g).pels = s.pels := rfl
@[simp] theorem modDaddr_evWait (s : State) (p d : Nat) (g : Daddr → Daddr) : (s.modDaddr p d g).evWait = s.evWait := rfl
@[simp] theorem modDaddr_landOut (s : State) (p d : Nat) (g : Daddr → Daddr) : (s.modDaddr p d g).landOut = s.landOut := rfl

/-! ### modDn -/

@[simp] theorem modDn_mode (s : State) (n : Nat) (g : Dn → Dn) : (s.modDn n g).mode = s.mode := rfl
@[simp] theorem modDn_phase (s : State) (n : Nat) (g : Dn → Dn) : (s.modDn n g).phase = s.phase := rfl
@[simp] theorem modDn_ts (s : State) (n : Nat) (g : Dn → Dn) : (s.modDn n g).ts = s.ts := rfl
@[simp] theorem modDn_pending (s : State) (n : Nat) (g : Dn → Dn) : (s.modDn n g).pending = s.pending := rfl
@[simp] theorem modDn_outp (s : State) (n : Nat) (g : Dn → Dn) : (s.modDn n g).outp = s.outp := rfl
@[simp] theorem modDn_freeCount (s : State) (n : Nat) (g : Dn → Dn) : (s.modDn n g).freeCount = s.freeCount := rfl
@[simp] theorem modDn_freeNext (s : State) (n : Nat) (g : Dn → Dn) : (s.modDn n g).freeNext = s.freeNext := rfl
@[simp] theorem modDn_regs (s : State) (n : Nat) (g : Dn → Dn) : (s.modDn n g).regs = s.regs := rfl
@[simp] theorem modDn_shadow (s : State) (n : Nat) (g : Dn → Dn) : (s.modDn n g).shadow = s.shadow := rfl
@[simp] theorem modDn_hiShadow (s : State) (n : Nat) (g : Dn → Dn) : (s.modDn n g).hiShadow = s.hiShadow := rfl
@[simp] theorem modDn_keyPend (s : State) (n : Nat) (g : Dn → Dn) : (s.modDn n g).keyPend = s.keyPend := rfl
@[simp] theorem modDn_strobe (s : State) (n : Nat) (g : Dn → Dn) : (s.modDn n g).strobe = s.strobe := rfl
@[simp] theorem modDn_bcsWait (s : State) (n : Nat) (g : Dn → Dn) : (s.modDn n g).bcsWait = s.bcsWait := rfl
@[simp] theorem modDn_slowQ (s : State) (n : Nat) (g : Dn → Dn) : (s.modDn n g).slowQ = s.slowQ := rfl
@[simp] theorem modDn_flt (s : State) (n : Nat) (g : Dn → Dn) : (s.modDn n g).flt = s.flt := rfl
@[simp] theorem modDn_bst (s : State) (n : Nat) (g : Dn → Dn) : (s.modDn n g).bst = s.bst := rfl
@[simp] theorem modDn_pwr (s : State) (n : Nat) (g : Dn → Dn) : (s.modDn n g).pwr = s.pwr := rfl
@[simp] theorem modDn_kst (s : State) (n : Nat) (g : Dn → Dn) : (s.modDn n g).kst = s.kst := rfl
@[simp] theorem modDn_links (s : State) (n : Nat) (g : Dn → Dn) : (s.modDn n g).links = s.links := rfl
@[simp] theorem modDn_tbl (s : State) (n : Nat) (g : Dn → Dn) : (s.modDn n g).tbl = s.tbl := rfl
@[simp] theorem modDn_ports (s : State) (n : Nat) (g : Dn → Dn) : (s.modDn n g).ports = s.ports := rfl
@[simp] theorem modDn_daddrs (s : State) (n : Nat) (g : Dn → Dn) : (s.modDn n g).daddrs = s.daddrs := rfl
@[simp] theorem modDn_dns (s : State) (n : Nat) (g : Dn → Dn) : (s.modDn n g).dns = FMap.mod {} n g s.dns := rfl
@[simp] theorem modDn_gates (s : State) (n : Nat) (g : Dn → Dn) : (s.modDn n g).gates = s.gates := rfl
@[simp] theorem modDn_insts (s : State) (n : Nat) (g : Dn → Dn) : (s.modDn n g).insts = s.insts := rfl
@[simp] theorem modDn_mgt (s : State) (n : Nat) (g : Dn → Dn) : (s.modDn n g).mgt = s.mgt := rfl
@[simp] theorem modDn_cmp (s : State) (n : Nat) (g : Dn → Dn) : (s.modDn n g).cmp = s.cmp := rfl
@[simp] theorem modDn_img (s : State) (n : Nat) (g : Dn → Dn) : (s.modDn n g).img = s.img := rfl
@[simp] theorem modDn_land (s : State) (n : Nat) (g : Dn → Dn) : (s.modDn n g).land = s.land := rfl
@[simp] theorem modDn_tap (s : State) (n : Nat) (g : Dn → Dn) : (s.modDn n g).tap = s.tap := rfl
@[simp] theorem modDn_engs (s : State) (n : Nat) (g : Dn → Dn) : (s.modDn n g).engs = s.engs := rfl
@[simp] theorem modDn_jnl (s : State) (n : Nat) (g : Dn → Dn) : (s.modDn n g).jnl = s.jnl := rfl
@[simp] theorem modDn_hub (s : State) (n : Nat) (g : Dn → Dn) : (s.modDn n g).hub = s.hub := rfl
@[simp] theorem modDn_ops (s : State) (n : Nat) (g : Dn → Dn) : (s.modDn n g).ops = s.ops := rfl
@[simp] theorem modDn_ctxs (s : State) (n : Nat) (g : Dn → Dn) : (s.modDn n g).ctxs = s.ctxs := rfl
@[simp] theorem modDn_nextCtx (s : State) (n : Nat) (g : Dn → Dn) : (s.modDn n g).nextCtx = s.nextCtx := rfl
@[simp] theorem modDn_qps (s : State) (n : Nat) (g : Dn → Dn) : (s.modDn n g).qps = s.qps := rfl
@[simp] theorem modDn_pels (s : State) (n : Nat) (g : Dn → Dn) : (s.modDn n g).pels = s.pels := rfl
@[simp] theorem modDn_evWait (s : State) (n : Nat) (g : Dn → Dn) : (s.modDn n g).evWait = s.evWait := rfl
@[simp] theorem modDn_landOut (s : State) (n : Nat) (g : Dn → Dn) : (s.modDn n g).landOut = s.landOut := rfl

/-! ### modPel -/

@[simp] theorem modPel_mode (s : State) (i : Nat) (g : Pel → Pel) : (s.modPel i g).mode = s.mode := rfl
@[simp] theorem modPel_phase (s : State) (i : Nat) (g : Pel → Pel) : (s.modPel i g).phase = s.phase := rfl
@[simp] theorem modPel_ts (s : State) (i : Nat) (g : Pel → Pel) : (s.modPel i g).ts = s.ts := rfl
@[simp] theorem modPel_pending (s : State) (i : Nat) (g : Pel → Pel) : (s.modPel i g).pending = s.pending := rfl
@[simp] theorem modPel_outp (s : State) (i : Nat) (g : Pel → Pel) : (s.modPel i g).outp = s.outp := rfl
@[simp] theorem modPel_freeCount (s : State) (i : Nat) (g : Pel → Pel) : (s.modPel i g).freeCount = s.freeCount := rfl
@[simp] theorem modPel_freeNext (s : State) (i : Nat) (g : Pel → Pel) : (s.modPel i g).freeNext = s.freeNext := rfl
@[simp] theorem modPel_regs (s : State) (i : Nat) (g : Pel → Pel) : (s.modPel i g).regs = s.regs := rfl
@[simp] theorem modPel_shadow (s : State) (i : Nat) (g : Pel → Pel) : (s.modPel i g).shadow = s.shadow := rfl
@[simp] theorem modPel_hiShadow (s : State) (i : Nat) (g : Pel → Pel) : (s.modPel i g).hiShadow = s.hiShadow := rfl
@[simp] theorem modPel_keyPend (s : State) (i : Nat) (g : Pel → Pel) : (s.modPel i g).keyPend = s.keyPend := rfl
@[simp] theorem modPel_strobe (s : State) (i : Nat) (g : Pel → Pel) : (s.modPel i g).strobe = s.strobe := rfl
@[simp] theorem modPel_bcsWait (s : State) (i : Nat) (g : Pel → Pel) : (s.modPel i g).bcsWait = s.bcsWait := rfl
@[simp] theorem modPel_slowQ (s : State) (i : Nat) (g : Pel → Pel) : (s.modPel i g).slowQ = s.slowQ := rfl
@[simp] theorem modPel_flt (s : State) (i : Nat) (g : Pel → Pel) : (s.modPel i g).flt = s.flt := rfl
@[simp] theorem modPel_bst (s : State) (i : Nat) (g : Pel → Pel) : (s.modPel i g).bst = s.bst := rfl
@[simp] theorem modPel_pwr (s : State) (i : Nat) (g : Pel → Pel) : (s.modPel i g).pwr = s.pwr := rfl
@[simp] theorem modPel_kst (s : State) (i : Nat) (g : Pel → Pel) : (s.modPel i g).kst = s.kst := rfl
@[simp] theorem modPel_links (s : State) (i : Nat) (g : Pel → Pel) : (s.modPel i g).links = s.links := rfl
@[simp] theorem modPel_tbl (s : State) (i : Nat) (g : Pel → Pel) : (s.modPel i g).tbl = s.tbl := rfl
@[simp] theorem modPel_ports (s : State) (i : Nat) (g : Pel → Pel) : (s.modPel i g).ports = s.ports := rfl
@[simp] theorem modPel_daddrs (s : State) (i : Nat) (g : Pel → Pel) : (s.modPel i g).daddrs = s.daddrs := rfl
@[simp] theorem modPel_dns (s : State) (i : Nat) (g : Pel → Pel) : (s.modPel i g).dns = s.dns := rfl
@[simp] theorem modPel_gates (s : State) (i : Nat) (g : Pel → Pel) : (s.modPel i g).gates = s.gates := rfl
@[simp] theorem modPel_insts (s : State) (i : Nat) (g : Pel → Pel) : (s.modPel i g).insts = s.insts := rfl
@[simp] theorem modPel_mgt (s : State) (i : Nat) (g : Pel → Pel) : (s.modPel i g).mgt = s.mgt := rfl
@[simp] theorem modPel_cmp (s : State) (i : Nat) (g : Pel → Pel) : (s.modPel i g).cmp = s.cmp := rfl
@[simp] theorem modPel_img (s : State) (i : Nat) (g : Pel → Pel) : (s.modPel i g).img = s.img := rfl
@[simp] theorem modPel_land (s : State) (i : Nat) (g : Pel → Pel) : (s.modPel i g).land = s.land := rfl
@[simp] theorem modPel_tap (s : State) (i : Nat) (g : Pel → Pel) : (s.modPel i g).tap = s.tap := rfl
@[simp] theorem modPel_engs (s : State) (i : Nat) (g : Pel → Pel) : (s.modPel i g).engs = s.engs := rfl
@[simp] theorem modPel_jnl (s : State) (i : Nat) (g : Pel → Pel) : (s.modPel i g).jnl = s.jnl := rfl
@[simp] theorem modPel_hub (s : State) (i : Nat) (g : Pel → Pel) : (s.modPel i g).hub = s.hub := rfl
@[simp] theorem modPel_ops (s : State) (i : Nat) (g : Pel → Pel) : (s.modPel i g).ops = s.ops := rfl
@[simp] theorem modPel_ctxs (s : State) (i : Nat) (g : Pel → Pel) : (s.modPel i g).ctxs = s.ctxs := rfl
@[simp] theorem modPel_nextCtx (s : State) (i : Nat) (g : Pel → Pel) : (s.modPel i g).nextCtx = s.nextCtx := rfl
@[simp] theorem modPel_qps (s : State) (i : Nat) (g : Pel → Pel) : (s.modPel i g).qps = s.qps := rfl
@[simp] theorem modPel_pels (s : State) (i : Nat) (g : Pel → Pel) : (s.modPel i g).pels = FMap.mod {} i g s.pels := rfl
@[simp] theorem modPel_evWait (s : State) (i : Nat) (g : Pel → Pel) : (s.modPel i g).evWait = s.evWait := rfl
@[simp] theorem modPel_landOut (s : State) (i : Nat) (g : Pel → Pel) : (s.modPel i g).landOut = s.landOut := rfl

/-! ### modSlot -/

@[simp] theorem modSlot_mode (s : State) (k : Nat) (g : KeySlot → KeySlot) : (s.modSlot k g).mode = s.mode := rfl
@[simp] theorem modSlot_phase (s : State) (k : Nat) (g : KeySlot → KeySlot) : (s.modSlot k g).phase = s.phase := rfl
@[simp] theorem modSlot_ts (s : State) (k : Nat) (g : KeySlot → KeySlot) : (s.modSlot k g).ts = s.ts := rfl
@[simp] theorem modSlot_pending (s : State) (k : Nat) (g : KeySlot → KeySlot) : (s.modSlot k g).pending = s.pending := rfl
@[simp] theorem modSlot_outp (s : State) (k : Nat) (g : KeySlot → KeySlot) : (s.modSlot k g).outp = s.outp := rfl
@[simp] theorem modSlot_freeCount (s : State) (k : Nat) (g : KeySlot → KeySlot) : (s.modSlot k g).freeCount = s.freeCount := rfl
@[simp] theorem modSlot_freeNext (s : State) (k : Nat) (g : KeySlot → KeySlot) : (s.modSlot k g).freeNext = s.freeNext := rfl
@[simp] theorem modSlot_regs (s : State) (k : Nat) (g : KeySlot → KeySlot) : (s.modSlot k g).regs = s.regs := rfl
@[simp] theorem modSlot_shadow (s : State) (k : Nat) (g : KeySlot → KeySlot) : (s.modSlot k g).shadow = s.shadow := rfl
@[simp] theorem modSlot_hiShadow (s : State) (k : Nat) (g : KeySlot → KeySlot) : (s.modSlot k g).hiShadow = s.hiShadow := rfl
@[simp] theorem modSlot_keyPend (s : State) (k : Nat) (g : KeySlot → KeySlot) : (s.modSlot k g).keyPend = s.keyPend := rfl
@[simp] theorem modSlot_strobe (s : State) (k : Nat) (g : KeySlot → KeySlot) : (s.modSlot k g).strobe = s.strobe := rfl
@[simp] theorem modSlot_bcsWait (s : State) (k : Nat) (g : KeySlot → KeySlot) : (s.modSlot k g).bcsWait = s.bcsWait := rfl
@[simp] theorem modSlot_slowQ (s : State) (k : Nat) (g : KeySlot → KeySlot) : (s.modSlot k g).slowQ = s.slowQ := rfl
@[simp] theorem modSlot_flt (s : State) (k : Nat) (g : KeySlot → KeySlot) : (s.modSlot k g).flt = s.flt := rfl
@[simp] theorem modSlot_bst (s : State) (k : Nat) (g : KeySlot → KeySlot) : (s.modSlot k g).bst = s.bst := rfl
@[simp] theorem modSlot_pwr (s : State) (k : Nat) (g : KeySlot → KeySlot) : (s.modSlot k g).pwr = s.pwr := rfl
@[simp] theorem modSlot_kst (s : State) (k : Nat) (g : KeySlot → KeySlot) : (s.modSlot k g).kst = s.kst := rfl
@[simp] theorem modSlot_links (s : State) (k : Nat) (g : KeySlot → KeySlot) : (s.modSlot k g).links = s.links := rfl
@[simp] theorem modSlot_tbl (s : State) (k : Nat) (g : KeySlot → KeySlot) : (s.modSlot k g).tbl = s.tbl := rfl
@[simp] theorem modSlot_ports (s : State) (k : Nat) (g : KeySlot → KeySlot) : (s.modSlot k g).ports = s.ports := rfl
@[simp] theorem modSlot_daddrs (s : State) (k : Nat) (g : KeySlot → KeySlot) : (s.modSlot k g).daddrs = s.daddrs := rfl
@[simp] theorem modSlot_dns (s : State) (k : Nat) (g : KeySlot → KeySlot) : (s.modSlot k g).dns = s.dns := rfl
@[simp] theorem modSlot_gates (s : State) (k : Nat) (g : KeySlot → KeySlot) : (s.modSlot k g).gates = s.gates := rfl
@[simp] theorem modSlot_insts (s : State) (k : Nat) (g : KeySlot → KeySlot) : (s.modSlot k g).insts = s.insts := rfl
@[simp] theorem modSlot_mgt (s : State) (k : Nat) (g : KeySlot → KeySlot) : (s.modSlot k g).mgt = s.mgt := rfl
@[simp] theorem modSlot_cmp (s : State) (k : Nat) (g : KeySlot → KeySlot) : (s.modSlot k g).cmp = { s.cmp with slots := FMap.mod {} k g s.cmp.slots } := rfl
@[simp] theorem modSlot_img (s : State) (k : Nat) (g : KeySlot → KeySlot) : (s.modSlot k g).img = s.img := rfl
@[simp] theorem modSlot_land (s : State) (k : Nat) (g : KeySlot → KeySlot) : (s.modSlot k g).land = s.land := rfl
@[simp] theorem modSlot_tap (s : State) (k : Nat) (g : KeySlot → KeySlot) : (s.modSlot k g).tap = s.tap := rfl
@[simp] theorem modSlot_engs (s : State) (k : Nat) (g : KeySlot → KeySlot) : (s.modSlot k g).engs = s.engs := rfl
@[simp] theorem modSlot_jnl (s : State) (k : Nat) (g : KeySlot → KeySlot) : (s.modSlot k g).jnl = s.jnl := rfl
@[simp] theorem modSlot_hub (s : State) (k : Nat) (g : KeySlot → KeySlot) : (s.modSlot k g).hub = s.hub := rfl
@[simp] theorem modSlot_ops (s : State) (k : Nat) (g : KeySlot → KeySlot) : (s.modSlot k g).ops = s.ops := rfl
@[simp] theorem modSlot_ctxs (s : State) (k : Nat) (g : KeySlot → KeySlot) : (s.modSlot k g).ctxs = s.ctxs := rfl
@[simp] theorem modSlot_nextCtx (s : State) (k : Nat) (g : KeySlot → KeySlot) : (s.modSlot k g).nextCtx = s.nextCtx := rfl
@[simp] theorem modSlot_qps (s : State) (k : Nat) (g : KeySlot → KeySlot) : (s.modSlot k g).qps = s.qps := rfl
@[simp] theorem modSlot_pels (s : State) (k : Nat) (g : KeySlot → KeySlot) : (s.modSlot k g).pels = s.pels := rfl
@[simp] theorem modSlot_evWait (s : State) (k : Nat) (g : KeySlot → KeySlot) : (s.modSlot k g).evWait = s.evWait := rfl
@[simp] theorem modSlot_landOut (s : State) (k : Nat) (g : KeySlot → KeySlot) : (s.modSlot k g).landOut = s.landOut := rfl

/-! ### modQp -/

@[simp] theorem modQp_mode (s : State) (k : Nat) (g : Qp → Qp) : (s.modQp k g).mode = s.mode := rfl
@[simp] theorem modQp_phase (s : State) (k : Nat) (g : Qp → Qp) : (s.modQp k g).phase = s.phase := rfl
@[simp] theorem modQp_ts (s : State) (k : Nat) (g : Qp → Qp) : (s.modQp k g).ts = s.ts := rfl
@[simp] theorem modQp_pending (s : State) (k : Nat) (g : Qp → Qp) : (s.modQp k g).pending = s.pending := rfl
@[simp] theorem modQp_outp (s : State) (k : Nat) (g : Qp → Qp) : (s.modQp k g).outp = s.outp := rfl
@[simp] theorem modQp_freeCount (s : State) (k : Nat) (g : Qp → Qp) : (s.modQp k g).freeCount = s.freeCount := rfl
@[simp] theorem modQp_freeNext (s : State) (k : Nat) (g : Qp → Qp) : (s.modQp k g).freeNext = s.freeNext := rfl
@[simp] theorem modQp_regs (s : State) (k : Nat) (g : Qp → Qp) : (s.modQp k g).regs = s.regs := rfl
@[simp] theorem modQp_shadow (s : State) (k : Nat) (g : Qp → Qp) : (s.modQp k g).shadow = s.shadow := rfl
@[simp] theorem modQp_hiShadow (s : State) (k : Nat) (g : Qp → Qp) : (s.modQp k g).hiShadow = s.hiShadow := rfl
@[simp] theorem modQp_keyPend (s : State) (k : Nat) (g : Qp → Qp) : (s.modQp k g).keyPend = s.keyPend := rfl
@[simp] theorem modQp_strobe (s : State) (k : Nat) (g : Qp → Qp) : (s.modQp k g).strobe = s.strobe := rfl
@[simp] theorem modQp_bcsWait (s : State) (k : Nat) (g : Qp → Qp) : (s.modQp k g).bcsWait = s.bcsWait := rfl
@[simp] theorem modQp_slowQ (s : State) (k : Nat) (g : Qp → Qp) : (s.modQp k g).slowQ = s.slowQ := rfl
@[simp] theorem modQp_flt (s : State) (k : Nat) (g : Qp → Qp) : (s.modQp k g).flt = s.flt := rfl
@[simp] theorem modQp_bst (s : State) (k : Nat) (g : Qp → Qp) : (s.modQp k g).bst = s.bst := rfl
@[simp] theorem modQp_pwr (s : State) (k : Nat) (g : Qp → Qp) : (s.modQp k g).pwr = s.pwr := rfl
@[simp] theorem modQp_kst (s : State) (k : Nat) (g : Qp → Qp) : (s.modQp k g).kst = s.kst := rfl
@[simp] theorem modQp_links (s : State) (k : Nat) (g : Qp → Qp) : (s.modQp k g).links = s.links := rfl
@[simp] theorem modQp_tbl (s : State) (k : Nat) (g : Qp → Qp) : (s.modQp k g).tbl = s.tbl := rfl
@[simp] theorem modQp_ports (s : State) (k : Nat) (g : Qp → Qp) : (s.modQp k g).ports = s.ports := rfl
@[simp] theorem modQp_daddrs (s : State) (k : Nat) (g : Qp → Qp) : (s.modQp k g).daddrs = s.daddrs := rfl
@[simp] theorem modQp_dns (s : State) (k : Nat) (g : Qp → Qp) : (s.modQp k g).dns = s.dns := rfl
@[simp] theorem modQp_gates (s : State) (k : Nat) (g : Qp → Qp) : (s.modQp k g).gates = s.gates := rfl
@[simp] theorem modQp_insts (s : State) (k : Nat) (g : Qp → Qp) : (s.modQp k g).insts = s.insts := rfl
@[simp] theorem modQp_mgt (s : State) (k : Nat) (g : Qp → Qp) : (s.modQp k g).mgt = s.mgt := rfl
@[simp] theorem modQp_cmp (s : State) (k : Nat) (g : Qp → Qp) : (s.modQp k g).cmp = s.cmp := rfl
@[simp] theorem modQp_img (s : State) (k : Nat) (g : Qp → Qp) : (s.modQp k g).img = s.img := rfl
@[simp] theorem modQp_land (s : State) (k : Nat) (g : Qp → Qp) : (s.modQp k g).land = s.land := rfl
@[simp] theorem modQp_tap (s : State) (k : Nat) (g : Qp → Qp) : (s.modQp k g).tap = s.tap := rfl
@[simp] theorem modQp_engs (s : State) (k : Nat) (g : Qp → Qp) : (s.modQp k g).engs = s.engs := rfl
@[simp] theorem modQp_jnl (s : State) (k : Nat) (g : Qp → Qp) : (s.modQp k g).jnl = s.jnl := rfl
@[simp] theorem modQp_hub (s : State) (k : Nat) (g : Qp → Qp) : (s.modQp k g).hub = s.hub := rfl
@[simp] theorem modQp_ops (s : State) (k : Nat) (g : Qp → Qp) : (s.modQp k g).ops = s.ops := rfl
@[simp] theorem modQp_ctxs (s : State) (k : Nat) (g : Qp → Qp) : (s.modQp k g).ctxs = s.ctxs := rfl
@[simp] theorem modQp_nextCtx (s : State) (k : Nat) (g : Qp → Qp) : (s.modQp k g).nextCtx = s.nextCtx := rfl
@[simp] theorem modQp_qps (s : State) (k : Nat) (g : Qp → Qp) : (s.modQp k g).qps = FMap.mod {} k g s.qps := rfl
@[simp] theorem modQp_pels (s : State) (k : Nat) (g : Qp → Qp) : (s.modQp k g).pels = s.pels := rfl
@[simp] theorem modQp_evWait (s : State) (k : Nat) (g : Qp → Qp) : (s.modQp k g).evWait = s.evWait := rfl
@[simp] theorem modQp_landOut (s : State) (k : Nat) (g : Qp → Qp) : (s.modQp k g).landOut = s.landOut := rfl

/-! ### modMgt -/

@[simp] theorem modMgt_mode (s : State) (g : Mgt → Mgt) : (s.modMgt g).mode = s.mode := rfl
@[simp] theorem modMgt_phase (s : State) (g : Mgt → Mgt) : (s.modMgt g).phase = s.phase := rfl
@[simp] theorem modMgt_ts (s : State) (g : Mgt → Mgt) : (s.modMgt g).ts = s.ts := rfl
@[simp] theorem modMgt_pending (s : State) (g : Mgt → Mgt) : (s.modMgt g).pending = s.pending := rfl
@[simp] theorem modMgt_outp (s : State) (g : Mgt → Mgt) : (s.modMgt g).outp = s.outp := rfl
@[simp] theorem modMgt_freeCount (s : State) (g : Mgt → Mgt) : (s.modMgt g).freeCount = s.freeCount := rfl
@[simp] theorem modMgt_freeNext (s : State) (g : Mgt → Mgt) : (s.modMgt g).freeNext = s.freeNext := rfl
@[simp] theorem modMgt_regs (s : State) (g : Mgt → Mgt) : (s.modMgt g).regs = s.regs := rfl
@[simp] theorem modMgt_shadow (s : State) (g : Mgt → Mgt) : (s.modMgt g).shadow = s.shadow := rfl
@[simp] theorem modMgt_hiShadow (s : State) (g : Mgt → Mgt) : (s.modMgt g).hiShadow = s.hiShadow := rfl
@[simp] theorem modMgt_keyPend (s : State) (g : Mgt → Mgt) : (s.modMgt g).keyPend = s.keyPend := rfl
@[simp] theorem modMgt_strobe (s : State) (g : Mgt → Mgt) : (s.modMgt g).strobe = s.strobe := rfl
@[simp] theorem modMgt_bcsWait (s : State) (g : Mgt → Mgt) : (s.modMgt g).bcsWait = s.bcsWait := rfl
@[simp] theorem modMgt_slowQ (s : State) (g : Mgt → Mgt) : (s.modMgt g).slowQ = s.slowQ := rfl
@[simp] theorem modMgt_flt (s : State) (g : Mgt → Mgt) : (s.modMgt g).flt = s.flt := rfl
@[simp] theorem modMgt_bst (s : State) (g : Mgt → Mgt) : (s.modMgt g).bst = s.bst := rfl
@[simp] theorem modMgt_pwr (s : State) (g : Mgt → Mgt) : (s.modMgt g).pwr = s.pwr := rfl
@[simp] theorem modMgt_kst (s : State) (g : Mgt → Mgt) : (s.modMgt g).kst = s.kst := rfl
@[simp] theorem modMgt_links (s : State) (g : Mgt → Mgt) : (s.modMgt g).links = s.links := rfl
@[simp] theorem modMgt_tbl (s : State) (g : Mgt → Mgt) : (s.modMgt g).tbl = s.tbl := rfl
@[simp] theorem modMgt_ports (s : State) (g : Mgt → Mgt) : (s.modMgt g).ports = s.ports := rfl
@[simp] theorem modMgt_daddrs (s : State) (g : Mgt → Mgt) : (s.modMgt g).daddrs = s.daddrs := rfl
@[simp] theorem modMgt_dns (s : State) (g : Mgt → Mgt) : (s.modMgt g).dns = s.dns := rfl
@[simp] theorem modMgt_gates (s : State) (g : Mgt → Mgt) : (s.modMgt g).gates = s.gates := rfl
@[simp] theorem modMgt_insts (s : State) (g : Mgt → Mgt) : (s.modMgt g).insts = s.insts := rfl
@[simp] theorem modMgt_mgt (s : State) (g : Mgt → Mgt) : (s.modMgt g).mgt = g s.mgt := rfl
@[simp] theorem modMgt_cmp (s : State) (g : Mgt → Mgt) : (s.modMgt g).cmp = s.cmp := rfl
@[simp] theorem modMgt_img (s : State) (g : Mgt → Mgt) : (s.modMgt g).img = s.img := rfl
@[simp] theorem modMgt_land (s : State) (g : Mgt → Mgt) : (s.modMgt g).land = s.land := rfl
@[simp] theorem modMgt_tap (s : State) (g : Mgt → Mgt) : (s.modMgt g).tap = s.tap := rfl
@[simp] theorem modMgt_engs (s : State) (g : Mgt → Mgt) : (s.modMgt g).engs = s.engs := rfl
@[simp] theorem modMgt_jnl (s : State) (g : Mgt → Mgt) : (s.modMgt g).jnl = s.jnl := rfl
@[simp] theorem modMgt_hub (s : State) (g : Mgt → Mgt) : (s.modMgt g).hub = s.hub := rfl
@[simp] theorem modMgt_ops (s : State) (g : Mgt → Mgt) : (s.modMgt g).ops = s.ops := rfl
@[simp] theorem modMgt_ctxs (s : State) (g : Mgt → Mgt) : (s.modMgt g).ctxs = s.ctxs := rfl
@[simp] theorem modMgt_nextCtx (s : State) (g : Mgt → Mgt) : (s.modMgt g).nextCtx = s.nextCtx := rfl
@[simp] theorem modMgt_qps (s : State) (g : Mgt → Mgt) : (s.modMgt g).qps = s.qps := rfl
@[simp] theorem modMgt_pels (s : State) (g : Mgt → Mgt) : (s.modMgt g).pels = s.pels := rfl
@[simp] theorem modMgt_evWait (s : State) (g : Mgt → Mgt) : (s.modMgt g).evWait = s.evWait := rfl
@[simp] theorem modMgt_landOut (s : State) (g : Mgt → Mgt) : (s.modMgt g).landOut = s.landOut := rfl

end Sys2Proof.Machine.State
end

