-- ==== Sys2Proof/Laws/Path.lean ====
section
/-! SUPPORT. What leaves the register path alone (`State.path`: the queue of commands, GLB_TS, the crossing of R24, the strobe, the pending halves of
keyed pairs, the waiting accesses, the Landing view): one lemma per operation, and per command that answers a next state. -/

namespace Sys2Proof.Machine

@[simp] theorem State.path_with (s : State) (x0 x1 x4 x5 x6 x7 x8 x9 x14 x15 x16 x17 x18 x19 x20 x21 x22 x23 x24 x25 x26 x27 x29 x30 x31 x32 x33 x34 x35
    x36 x37 x38 x39) :
    State.path (State.mk x0 x1 s.ts s.pending x4 x5 x6 x7 x8 x9
      s.keyPend s.strobe s.bcsWait s.slowQ x14 x15 x16 x17 x18 x19 x20 x21 x22 x23 x24 x25 x26
      x27 s.land x29 x30 x31 x32 x33 x34 x35 x36 x37 x38 x39) = s.path := rfl
theorem State.path_ite {c : Prop} [Decidable c] {a b s : State} (ha : c → a.path = s.path) (hb : ¬c → b.path = s.path) :
    (if c then a else b).path = s.path := by
  split <;> simp_all
theorem State.path_foldl {α : Type} (g : State → α → State) (l : List α) (s : State) (h : ∀ s x, (g s x).path = s.path) :
    (l.foldl g s).path = s.path := by
  induction l generalizing s with
  | nil => rfl
  | cons x l ih => simp [List.foldl, ih, h]
theorem State.path_foldlP {α β : Type} (g : β × State → α → β × State) (l : List α) (b : β) (s : State) (h : ∀ b s x, (g (b, s) x).2.path = s.path) :
    (l.foldl g (b, s)).2.path = s.path := by
  induction l generalizing b s with
  | nil => rfl
  | cons x l ih =>
    rw [List.foldl_cons]
    have := ih (g (b, s) x).1 (g (b, s) x).2
    simpa [h] using this
theorem State.path_foldlF {α β : Type} (g : State × β → α → State × β) (l : List α) (b : β) (s : State) (h : ∀ b s x, (g (s, b) x).1.path = s.path) :
    (l.foldl g (s, b)).1.path = s.path := by
  induction l generalizing b s with
  | nil => rfl
  | cons x l ih =>
    rw [List.foldl_cons]
    have := ih (g (s, b) x).2 (g (s, b) x).1
    simpa [h] using this

/-- The form of the register path rests on the register path alone. -/
theorem State.inForm_congr {s t : State} (h : t.path = s.path) : t.inForm ↔ s.inForm := by
  simp only [State.path, Path.mk.injEq] at h
  obtain ⟨-, h1, h2, h3, h4, -, h5⟩ := h
  unfold State.inForm
  rw [h1, h2, h3, h4, h5]

@[simp] theorem State.path_setReg (s : State) (a1 a2 a3) : (State.setReg s a1 a2 a3).path = s.path := by
  simp only [State.setReg, State.path_with]

@[simp] theorem State.path_setShadow (s : State) (a1 a2 a3) : (State.setShadow s a1 a2 a3).path = s.path := by
  simp only [State.setShadow, State.path_with]

@[simp] theorem State.path_setF (s : State) (a1 a2 a3) : (State.setF s a1 a2 a3).path = s.path := by
  simp only [State.setF, State.path_setReg]

@[simp] theorem State.path_setImg (s : State) (a1 a2 a3) : (State.setImg s a1 a2 a3).path = s.path := by
  simp only [State.setImg, State.path_setShadow, State.path_setF]

@[simp] theorem State.path_incF (s : State) (a1 a2 a3) : (State.incF s a1 a2 a3).path = s.path := by
  simp only [State.incF, State.path_setF]

@[simp] theorem State.path_maxF (s : State) (a1 a2 a3) : (State.maxF s a1 a2 a3).path = s.path := by
  simp only [State.maxF, State.path_setF]

@[simp] theorem State.path_setPair (s : State) (a1 a2 a3 a4) : (State.setPair s a1 a2 a3 a4).path = s.path := by
  simp only [State.setPair, State.path_setF]

@[simp] theorem State.path_emit (s : State) (a1) : (State.emit s a1).path = s.path := by
  simp only [State.emit, State.path_with]

@[simp] theorem State.path_start (s : State)  : (State.start s).path = s.path := by
  simp only [State.start, State.path_with]

@[simp] theorem State.path_draw (s : State)  : (State.draw s).path = s.path := by
  simp only [State.draw, State.path_with]

@[simp] theorem State.path_modLink (s : State) (a1 a2) : (State.modLink s a1 a2).path = s.path := by
  simp only [State.modLink, State.path_with]

@[simp] theorem State.path_modEng (s : State) (a1 a2) : (State.modEng s a1 a2).path = s.path := by
  simp only [State.modEng, State.path_with]

@[simp] theorem State.path_modJnl (s : State) (a1) : (State.modJnl s a1).path = s.path := by
  simp only [State.modJnl, State.path_with]

@[simp] theorem State.path_jwChange (s : State)  : (State.jwChange s).path = s.path := by
  simp only [State.jwChange, State.path_with]

@[simp] theorem State.path_modEntry (s : State) (a1 a2) : (State.modEntry s a1 a2).path = s.path := by
  simp only [State.modEntry, State.path_jwChange, State.path_modJnl]

@[simp] theorem State.path_modPwr (s : State) (a1) : (State.modPwr s a1).path = s.path := by
  simp only [State.modPwr, State.path_with]

@[simp] theorem State.path_modKst (s : State) (a1) : (State.modKst s a1).path = s.path := by
  simp only [State.modKst, State.path_with]

@[simp] theorem State.path_modBst (s : State) (a1) : (State.modBst s a1).path = s.path := by
  simp only [State.modBst, State.path_with]

@[simp] theorem State.path_modFlt (s : State) (a1) : (State.modFlt s a1).path = s.path := by
  simp only [State.modFlt, State.path_with]

@[simp] theorem State.path_emitBlock (s : State) (a1 a2 a3 a4 a5 a6) : (emitBlock a1 a2 a3 a4 a5 a6 s).path = s.path := by
  simp only [emitBlock, State.path_emit, State.path_modLink]

@[simp] theorem State.path_sendBlock (s : State) (a1 a2 a3 a4) : (sendBlock a1 a2 a3 a4 s).path = s.path := by
  simp only [sendBlock, State.path_modLink, State.path_emitBlock]

@[simp] theorem State.path_sendBlocks (s : State) (a1 a2 a3 a4) : (sendBlocks a1 a2 a3 a4 s).path = s.path := by
  fun_induction sendBlocks a1 a2 a3 a4 s <;> simp_all

@[simp] theorem State.path_sendAgain (s : State) (a1) : (State.sendAgain s a1).path = s.path := by
  simp only [State.sendAgain, State.path_emitBlock, State.path_foldl, implies_true]

@[simp] theorem State.path_idleBlock (s : State) (a1) : (State.idleBlock s a1).path = s.path := by
  simp only [State.idleBlock, State.path_sendBlock, apply_ite State.path, ite_self]

@[simp] theorem State.path_pump (s : State) (a1 a2) : (pump a1 a2 s).path = s.path := by
  fun_induction pump a1 a2 s <;> simp_all

@[simp] theorem State.path_pumpLink (s : State) (a1) : (State.pumpLink s a1).path = s.path := by
  simp only [State.pumpLink, State.path_pump]

@[simp] theorem State.path_handPkt (s : State) (a1 a2) : (State.handPkt s a1 a2).path = s.path := by
  simp only [State.handPkt, State.path_pumpLink, State.path_modLink, State.path_emit]

@[simp] theorem State.path_handTx (s : State) (a1 a2 a3) : (State.handTx s a1 a2 a3).path = s.path := by
  simp only [State.handTx, State.path_handPkt]

@[simp] theorem State.path_sendMsg (s : State) (a1 a2 a3 a4 a5 a6 a7) : (State.sendMsg s a1 a2 a3 a4 a5 a6 a7).path = s.path := by
  simp only [State.sendMsg, State.path_handTx, apply_ite State.path, ite_self]

@[simp] theorem State.path_sendEventVc (s : State) (a1 a2 a3 a4 a5) : (State.sendEventVc s a1 a2 a3 a4 a5).path = s.path := by
  simp only [State.sendEventVc, State.path_handTx, apply_ite State.path, ite_self]

@[simp] theorem State.path_sendEvent (s : State) (a1 a2 a3) : (State.sendEvent s a1 a2 a3).path = s.path := by
  simp only [State.sendEvent, State.path_sendEventVc]

@[simp] theorem State.path_modInst (s : State) (a1 a2) : (State.modInst s a1 a2).path = s.path := by
  simp only [State.modInst, State.path_with]

@[simp] theorem State.path_modPort (s : State) (a1 a2) : (State.modPort s a1 a2).path = s.path := by
  simp only [State.modPort, State.path_with]

@[simp] theorem State.path_haltPorts (s : State)  : (State.haltPorts s).path = s.path := by
  simp only [State.haltPorts, State.path_with]

@[simp] theorem State.path_clearKeys (s : State)  : (State.clearKeys s).path = s.path := by
  simp only [State.clearKeys, State.path_with]

@[simp] theorem State.path_modImg (s : State) (a1) : (State.modImg s a1).path = s.path := by
  simp only [State.modImg, State.path_with]

@[simp] theorem State.path_addFatalRecord (s : State)  : (State.addFatalRecord s).path = s.path := by
  simp only [State.addFatalRecord, State.path_incF, State.path_modImg]

@[simp] theorem State.path_redoFatal (s : State)  : (State.redoFatal s).path = s.path := by
  simp only [State.redoFatal, State.path_modImg]

@[simp] theorem State.path_captureSeeds (s : State) (a1 a2) : (State.captureSeeds s a1 a2).path = s.path := by
  induction a2 with
  | zero => rfl
  | succ n ih => simp only [State.captureSeeds, State.path_draw, State.path_modImg, ih]

theorem State.path_faultEvent (s : State) (a1 a2 a3) (h : ∀ s, (a3 s).path = s.path) : (State.faultEvent s a1 a2 a3).path = s.path := by
  unfold State.faultEvent
  (repeat' split) <;> simp only [h, State.path_modFlt, State.path_incF]

@[simp] theorem State.path_faultDestEvent (s : State) (a1 a2) : (State.faultDestEvent s a1 a2).path = s.path := by
  unfold State.faultDestEvent
  split
  · exact State.path_faultEvent _ _ _ _ fun s => by simp only [State.path_sendMsg]
  · rfl

@[simp] theorem State.path_faultInstEvent (s : State) (a1 a2 a3) : (State.faultInstEvent s a1 a2 a3).path = s.path := by
  unfold State.faultInstEvent
  split
  · exact State.path_faultEvent _ _ _ _ fun s => by simp only [State.path_sendEvent]
  · rfl

@[simp] theorem State.path_capture (s : State) (a1 a2) : (State.capture s a1 a2).path = s.path := by
  have hw : ∀ t : State, (((((t.setF Fld.fltFirstSrc_valid 1).setF Fld.fltFirstSrc_class (srcClass a1)).setF Fld.fltFirstSrc_src
      a1).setPair Fld.fltFirstSynLo_syn Fld.fltFirstSynHi_syn a2).setPair Fld.fltFirstTsLo_ts Fld.fltFirstTsHi_ts t.ts).path = t.path := by
    intro t; simp only [State.path_setPair, State.path_setF]
  unfold State.capture
  dsimp only
  split
  · rw [State.path_modFlt, hw]
  · split
    · rw [hw, State.path_setF]
    · rw [State.path_setF]

@[simp] theorem State.path_haltRecord (s : State) (a1 a2) : (State.haltRecord s a1 a2).path = s.path := by
  simp only [State.haltRecord, State.path_modFlt, State.path_setPair, State.path_setF, apply_ite State.path, ite_self]

@[simp] theorem State.path_haltLink (s : State) (a1) : (State.haltLink s a1).path = s.path := by
  simp only [State.haltLink, State.path_incF, State.path_modLink, apply_ite State.path, ite_self]

@[simp] theorem State.path_enterHalt (s : State)  : (State.enterHalt s).path = s.path := by
  simp only [State.enterHalt, State.path_haltLink, State.path_addFatalRecord, State.path_clearKeys, State.path_haltPorts, State.path_setF,
      State.path_modFlt, State.path_with, apply_ite State.path, ite_self]

@[simp] theorem State.path_classAct (s : State) (a1 a2 a3) : (State.classAct s a1 a2 a3).path = s.path := by
  unfold State.classAct
  repeat' first
    | with_reducible rfl
    | simp only [State.path_incF, State.path_faultDestEvent, State.path_faultInstEvent, State.path_haltRecord, State.path_enterHalt, apply_ite
        State.path, ite_self]
    | split

@[simp] theorem State.path_raise (s : State) (a1 a2 a3 a4 a5) : (State.raise s a1 a2 a3 a4 a5).path = s.path := by
  simp only [State.raise, State.path_modFlt, State.path_maxF, State.path_capture, State.path_classAct, State.path_redoFatal, apply_ite State.path,
      ite_self]

@[simp] theorem State.path_exUse (s : State) (a1) : (State.exUse s a1).path = s.path := by
  simp only [State.exUse, State.path_modFlt, apply_ite State.path, ite_self]

@[simp] theorem State.path_modGate (s : State) (a1 a2) : (State.modGate s a1 a2).path = s.path := by
  simp only [State.modGate, State.path_with]

@[simp] theorem State.path_gateReport (s : State) (a1 a2 a3 a4 a5 a6) : (State.gateReport s a1 a2 a3 a4 a5 a6).path = s.path := by
  unfold State.gateReport
  repeat' first
    | with_reducible rfl
    | simp only [State.path_modGate, State.path_incF, State.path_raise]
    | split

@[simp] theorem State.path_gateCheck (s : State) (a1 a2 a3 a4 a5 a6 a7 a8) : (State.gateCheck s a1 a2 a3 a4 a5 a6 a7 a8).2.path = s.path := by
  unfold State.gateCheck
  repeat' first
    | with_reducible rfl
    | simp only [State.path_gateReport]
    | split

@[simp] theorem State.path_modTbl (s : State) (a1) : (State.modTbl s a1).path = s.path := by
  simp only [State.modTbl, State.path_with]

@[simp] theorem State.path_wttWrite (s : State) (a1 a2 a3) : (State.wttWrite s a1 a2 a3).path = s.path := by
  unfold State.wttWrite
  repeat' first
    | with_reducible rfl
    | simp only [State.path_modTbl, apply_ite State.path, ite_self]
    | split

@[simp] theorem State.path_dvtWrite (s : State) (a1 a2 a3) : (State.dvtWrite s a1 a2 a3).path = s.path := by
  unfold State.dvtWrite
  repeat' first
    | with_reducible rfl
    | simp only [State.path_modTbl, apply_ite State.path, ite_self]
    | split

@[simp] theorem State.path_slewTick (s : State)  : (State.slewTick s).path = s.path := by
  simp only [State.slewTick, State.path_modPwr]

@[simp] theorem State.path_queueWake (s : State) (a1 a2) : (State.queueWake s a1 a2).path = s.path := by
  simp only [State.queueWake, State.path_modPwr, apply_ite State.path, ite_self]

@[simp] theorem State.path_grantWake (s : State) (a1 a2) : (State.grantWake s a1 a2).path = s.path := by
  simp only [State.grantWake, State.path_modPwr, State.path_incF, State.path_maxF, apply_ite State.path, ite_self]

theorem State.path_execWakeGrant (s : State)  : ∀ t, (execWakeGrant s) = .next t → t.path = s.path := by
  intro t h
  unfold execWakeGrant at h
  try dsimp only at h
  rw [← Host.Outcome.next.inj h]
  repeat' first
    | with_reducible rfl
    | simp only [State.path_start, State.path_grantWake, apply_ite State.path, ite_self]
    | split

theorem State.path_execPartUsable (s : State) (a1) : ∀ t, (execPartUsable a1 s) = .next t → t.path = s.path := by
  intro t h
  unfold execPartUsable at h
  rw [← Host.Outcome.next.inj h]; simp only [State.path_start, State.path_modPwr, apply_ite State.path, ite_self]

theorem State.path_execPowerDown (s : State)  : ∀ t, (execPowerDown s) = .next t → t.path = s.path := by
  intro t h
  unfold execPowerDown at h
  try dsimp only at h
  rw [← Host.Outcome.next.inj h]
  repeat' first
    | with_reducible rfl
    | simp only [State.path_start, State.path_modPwr, apply_ite State.path, ite_self]
    | split

@[simp] theorem State.path_queueDown (s : State) (a1) : (State.queueDown s a1).path = s.path := by
  simp only [State.queueDown, State.path_modPwr, apply_ite State.path, ite_self]

@[simp] theorem State.path_droopSeen (s : State)  : (State.droopSeen s).path = s.path := by
  simp only [State.droopSeen, State.path_incF, State.path_modPwr, apply_ite State.path, ite_self]

theorem State.path_execDroopNAssert (s : State)  : ∀ t, (execDroopNAssert s) = .next t → t.path = s.path := by
  intro t h
  unfold execDroopNAssert at h
  rw [← Host.Outcome.next.inj h]; simp only [State.path_droopSeen, State.path_modPwr, State.path_start]

theorem State.path_execDroopNRelease (s : State)  : ∀ t, (execDroopNRelease s) = .next t → t.path = s.path := by
  intro t h
  unfold execDroopNRelease at h
  rw [← Host.Outcome.next.inj h]; simp only [State.path_start, State.path_modPwr, State.path_maxF, apply_ite State.path, ite_self]

@[simp] theorem State.path_readTemp (s : State) (a1 a2) : (State.readTemp s a1 a2).path = s.path := by
  simp only [State.readTemp, State.path_setF, State.path_raise, apply_ite State.path, ite_self]

@[simp] theorem State.path_readTemps (s : State) (a1 a2) : (State.readTemps s a1 a2).path = s.path := by
  fun_induction State.readTemps s a1 a2 <;> simp_all

@[simp] theorem State.path_updateLowT (s : State)  : (State.updateLowT s).path = s.path := by
  unfold State.updateLowT
  repeat' first
    | with_reducible rfl
    | simp only [State.path_modPwr, apply_ite State.path, ite_self]
    | split

theorem State.path_execTempSensorUpdate (s : State) (a1) : ∀ t, (execTempSensorUpdate a1 s) = .next t → t.path = s.path := by
  intro t h
  unfold execTempSensorUpdate at h
  rw [← Host.Outcome.next.inj h]; simp only [State.path_start, State.path_updateLowT, State.path_readTemps, apply_ite State.path, ite_self]

@[simp] theorem State.path_avsStart (s : State) (a1 a2) : (State.avsStart s a1 a2).path = s.path := by
  simp only [State.avsStart, State.path_modPwr, State.path_emit, apply_ite State.path, ite_self]

@[simp] theorem State.path_avsGo (s : State)  : (State.avsGo s).path = s.path := by
  simp only [State.avsGo, State.path_avsStart, apply_ite State.path, ite_self]

theorem State.path_execStretchRampStep (s : State)  : ∀ t, (execStretchRampStep s) = .next t → t.path = s.path := by
  intro t h
  unfold execStretchRampStep at h
  rw [← Host.Outcome.next.inj h]; simp only [State.path_start, State.path_avsGo, State.path_modPwr, apply_ite State.path, ite_self]

theorem State.path_execAvsWrite (s : State)  : ∀ t, (execAvsWrite s) = .next t → t.path = s.path := by
  intro t h
  unfold execAvsWrite at h
  rw [← Host.Outcome.next.inj h]; simp only [State.path_start, State.path_avsStart, apply_ite State.path, ite_self]

theorem State.path_execAvsTransactionDone (s : State) (a1 a2) : ∀ t, (execAvsTransactionDone a1 a2 s) = .next t → t.path = s.path := by
  intro t h
  unfold execAvsTransactionDone at h
  rw [← Host.Outcome.next.inj h]; simp only [State.path_start, State.path_modPwr, State.path_setF, State.path_incF, State.path_avsStart,
      State.path_raise, apply_ite State.path, ite_self]

theorem State.path_execRootPllLock (s : State)  : ∀ t, (execRootPllLock s) = .next t → t.path = s.path := by
  intro t h
  unfold execRootPllLock at h
  rw [← Host.Outcome.next.inj h]; simp only [State.path_start, State.path_droopSeen, State.path_modPwr, apply_ite State.path, ite_self]

theorem State.path_execRootPllLockLoss (s : State)  : ∀ t, (execRootPllLockLoss s) = .next t → t.path = s.path := by
  intro t h
  unfold execRootPllLockLoss at h
  rw [← Host.Outcome.next.inj h]; simp only [State.path_start, State.path_raise, State.path_modPwr, apply_ite State.path, ite_self]

theorem State.path_execVddAonPowerUp (s : State)  : ∀ t, (execVddAonPowerUp s) = .next t → t.path = s.path := by
  intro t h
  unfold execVddAonPowerUp at h
  rw [← Host.Outcome.next.inj h]; simp only [State.path_modKst, State.path_start]

@[simp] theorem State.path_modHub (s : State) (a1) : (State.modHub s a1).path = s.path := by
  simp only [State.modHub, State.path_with]

@[simp] theorem State.path_addXfer (s : State) (a1 a2 a3 a4 a5 a6) : (State.addXfer s a1 a2 a3 a4 a5 a6).path = s.path := by
  simp only [State.addXfer, State.path_modHub]

@[simp] theorem State.path_addBlock (s : State) (a1 a2 a3 a4 a5 a6) : (State.addBlock s a1 a2 a3 a4 a5 a6).path = s.path := by
  simp only [State.addBlock, State.path_addXfer, State.path_foldl, implies_true]

@[simp] theorem State.path_c0Take (s : State) (a1 a2 a3) : (State.c0Take s a1 a2 a3).path = s.path := by
  simp only [State.c0Take, State.path_modHub, State.path_modInst]

@[simp] theorem State.path_c0Held (s : State) (a1) : (State.c0Held s a1).path = s.path := by
  simp only [State.c0Held, State.path_incF, State.path_modInst]

@[simp] theorem State.path_c0Passed (s : State) (a1) : (State.c0Passed s a1).path = s.path := by
  simp only [State.c0Passed, State.path_modInst]

@[simp] theorem State.path_formXfer (s : State) (a1 a2 a3 a4 a5 a6 a7 a8) : (State.formXfer s a1 a2 a3 a4 a5 a6 a7 a8).2.path = s.path := by
  unfold State.formXfer
  repeat' first
    | with_reducible rfl
    | simp only [State.path_addXfer, State.path_c0Passed, State.path_c0Take, State.path_modHub, State.path_c0Held]
    | split

@[simp] theorem State.path_c0Refill (s : State)  : (State.c0Refill s).path = s.path := by
  simp only [State.c0Refill, State.path_with]

@[simp] theorem State.path_sendFrom (s : State) (a1 a2 a3 a4) : (State.sendFrom s a1 a2 a3 a4).path = s.path := by
  simp only [State.sendFrom, State.path_formXfer, State.path_handPkt, apply_ite State.path, ite_self]

@[simp] theorem State.path_eventFrom (s : State) (a1 a2 a3 a4 a5 a6 a7) : (State.eventFrom s a1 a2 a3 a4 a5 a6 a7).path = s.path := by
  simp only [State.eventFrom, State.path_sendFrom, apply_ite State.path, ite_self]

@[simp] theorem State.path_withdrawBy (s : State) (a1) : (State.withdrawBy s a1).path = s.path := by
  simp only [State.withdrawBy, State.path_modHub]

@[simp] theorem State.path_withdraw (s : State) (a1 a2) : (State.withdraw s a1 a2).path = s.path := by
  simp only [State.withdraw, State.path_modHub, State.path_withdrawBy]

@[simp] theorem State.path_maskRound (s : State)  : (State.maskRound s).path = s.path := by
  simp only [State.maskRound, State.path_modHub, State.path_withdrawBy]

@[simp] theorem State.path_hubAccept (s : State)  : (State.hubAccept s).path = s.path := by
  simp only [State.hubAccept, State.path_modHub]

@[simp] theorem State.path_hubOut (s : State) (a1 a2) : (State.hubOut s a1 a2).path = s.path := by
  unfold State.hubOut
  repeat' first
    | with_reducible rfl
    | simp only [State.path_incF, State.path_modHub, apply_ite State.path, ite_self]
    | split

@[simp] theorem State.path_hubFresh (s : State)  : (State.hubFresh s).path = s.path := by
  simp only [State.hubFresh, State.path_with]

@[simp] theorem State.path_hubCycle (s : State)  : (State.hubCycle s).path = s.path := by
  simp only [State.hubCycle, State.path_hubOut, State.path_hubAccept, State.path_maskRound, State.path_c0Refill, State.path_draw, State.path_foldl,
      implies_true]

@[simp] theorem State.path_modOp (s : State) (a1 a2) : (State.modOp s a1 a2).path = s.path := by
  simp only [State.modOp, State.path_with]

@[simp] theorem State.path_modX (s : State) (a1 a2) : (State.modX s a1 a2).path = s.path := by
  simp only [State.modX, State.path_modOp]

@[simp] theorem State.path_modCtx (s : State) (a1 a2) : (State.modCtx s a1 a2).path = s.path := by
  simp only [State.modCtx, State.path_with]

@[simp] theorem State.path_freeCtx (s : State) (a1) : (State.freeCtx s a1).path = s.path := by
  simp only [State.freeCtx, State.path_with]

@[simp] theorem State.path_modDaddr (s : State) (a1 a2 a3) : (State.modDaddr s a1 a2 a3).path = s.path := by
  simp only [State.modDaddr, State.path_with]

@[simp] theorem State.path_modDn (s : State) (a1 a2) : (State.modDn s a1 a2).path = s.path := by
  simp only [State.modDn, State.path_with]

@[simp] theorem State.path_modPel (s : State) (a1 a2) : (State.modPel s a1 a2).path = s.path := by
  simp only [State.modPel, State.path_with]

@[simp] theorem State.path_updHwm (s : State)  : (State.updHwm s).path = s.path := by
  simp only [State.updHwm, State.path_maxF]

@[simp] theorem State.path_admitOp (s : State) (a1 a2 a3) : (State.admitOp s a1 a2 a3).path = s.path := by
  simp only [State.admitOp, State.path_modJnl, State.path_jwChange, State.path_updHwm, State.path_with]

@[simp] theorem State.path_setSt (s : State) (a1 a2) : (State.setSt s a1 a2).path = s.path := by
  simp only [State.setSt, State.path_jwChange, State.path_modJnl]

@[simp] theorem State.path_dequeueOp (s : State) (a1 a2) : (State.dequeueOp s a1 a2).path = s.path := by
  simp only [State.dequeueOp, State.path_modPort]

@[simp] theorem State.path_dnEvent (s : State) (a1 a2 a3 a4 a5 a6 a7 a8) : (State.dnEvent s a1 a2 a3 a4 a5 a6 a7 a8).path = s.path := by
  simp only [State.dnEvent, State.path_eventFrom, State.path_with, apply_ite State.path, ite_self]

@[simp] theorem State.path_flushEvents (s : State) (a1) : (State.flushEvents s a1).path = s.path := by
  simp only [State.flushEvents, State.path_eventFrom, State.path_foldl, State.path_with, implies_true]

@[simp] theorem State.path_freeJe (s : State) (a1) : (State.freeJe s a1).path = s.path := by
  unfold State.freeJe
  repeat' first
    | with_reducible rfl
    | simp only [State.path_dequeueOp, State.path_jwChange, State.path_flushEvents, State.path_with, apply_ite State.path, ite_self]
    | split

@[simp] theorem State.path_numberFail (s : State) (a1) : (State.numberFail s a1).path = s.path := by
  simp only [State.numberFail, State.path_modJnl, State.path_modOp]

@[simp] theorem State.path_fail (s : State) (a1 a2 a3 a4 a5) : (State.fail s a1 a2 a3 a4 a5).path = s.path := by
  simp only [State.fail, State.path_numberFail, State.path_modEntry, State.path_modX, State.path_modOp, apply_ite State.path, ite_self]

@[simp] theorem State.path_enqueue (s : State) (a1 a2 a3) : (State.enqueue s a1 a2 a3).path = s.path := by
  simp only [State.enqueue, State.path_modPort]

@[simp] theorem State.path_enqueueOp (s : State) (a1 a2 a3 a4 a5) : (State.enqueueOp s a1 a2 a3 a4 a5).path = s.path := by
  unfold State.enqueueOp
  repeat' first
    | with_reducible rfl
    | simp only [State.path_enqueue]
    | split

@[simp] theorem State.path_tblWordError (s : State) (a1 a2 a3 a4) : (State.tblWordError s a1 a2 a3 a4).path = s.path := by
  unfold State.tblWordError
  repeat' first
    | with_reducible rfl
    | simp only [State.path_exUse, State.path_raise, State.path_modTbl]
    | split

@[simp] theorem State.path_tblCheck (s : State) (a1 a2) : (State.tblCheck s a1 a2).path = s.path := by
  unfold State.tblCheck
  repeat' first
    | with_reducible rfl
    | simp only [State.path_draw, State.path_tblWordError, apply_ite State.path, ite_self]
    | split

@[simp] theorem State.path_issue (s : State) (a1 a2 a3 a4 a5 a6 a7 a8 a9) : (State.issue s a1 a2 a3 a4 a5 a6 a7 a8 a9).2.path = s.path := by
  unfold State.issue
  repeat' first
    | with_reducible rfl
    | simp only [State.path_gateCheck, State.path_draw, State.path_modLink, State.path_handTx]
    | split

@[simp] theorem State.path_instRead (s : State) (a1 a2 a3 a4 a5) : (State.instRead s a1 a2 a3 a4 a5).2.path = s.path := by
  simp only [State.instRead, State.path_issue]

@[simp] theorem State.path_instMwr (s : State) (a1 a2 a3 a4) : (State.instMwr s a1 a2 a3 a4).2.2.path = s.path := by
  simp only [State.instMwr, State.path_gateCheck]

@[simp] theorem State.path_instWrite (s : State) (a1 a2 a3 a4 a5) : (State.instWrite s a1 a2 a3 a4 a5).2.path = s.path := by
  simp only [State.instWrite, State.path_instMwr, State.path_sendFrom, apply_ite State.path, ite_self]

@[simp] theorem State.path_instWrites (s : State) (a1 a2 a3 a4 a5 a6) : (State.instWrites a1 a2 a3 a4 a5 a6 s).2.2.path = s.path := by
  fun_induction State.instWrites a1 a2 a3 a4 a5 a6 s
  · rfl
  · rfl
  · simp_all +zetaDelta
  · simp +zetaDelta

@[simp] theorem State.path_queueStatus (s : State) (a1 a2) : (State.queueStatus s a1 a2).path = s.path := by
  simp only [State.queueStatus, State.path_modPort]

@[simp] theorem State.path_emitFrames (s : State) (a1 a2 a3) : (State.emitFrames s a1 a2 a3).path = s.path := by
  simp only [State.emitFrames, State.path_emit, State.path_foldl, implies_true]

@[simp] theorem State.path_sendFrames (s : State) (a1 a2) : (State.sendFrames s a1 a2).path = s.path := by
  unfold State.sendFrames
  repeat' first
    | with_reducible rfl
    | simp only [State.path_emitFrames, State.path_queueStatus, State.path_modPort, apply_ite State.path]
    | split

@[simp] theorem State.path_sendRetryFrame (s : State) (a1 a2) : (State.sendRetryFrame s a1 a2).path = s.path := by
  simp only [State.sendRetryFrame, State.path_emitFrames, State.path_queueStatus, apply_ite State.path, ite_self]

@[simp] theorem State.path_flushPort (s : State) (a1 a2) : (State.flushPort a1 s a2).path = s.path := by
  fun_induction State.flushPort a1 s a2 <;> simp_all

@[simp] theorem State.path_oweNotice (s : State) (a1) : (State.oweNotice s a1).path = s.path := by
  simp only [State.oweNotice, State.path_numberFail, State.path_modOp, State.path_setSt, State.path_modPel]

@[simp] theorem State.path_freeOpCtx (s : State) (a1) : (State.freeOpCtx s a1).path = s.path := by
  unfold State.freeOpCtx
  repeat' first
    | with_reducible rfl
    | simp only [State.path_freeCtx]
    | split

@[simp] theorem State.path_upAnswer (s : State) (a1 a2 a3 a4 a5) : (State.upAnswer s a1 a2 a3 a4 a5).path = s.path := by
  simp only [State.upAnswer, State.path_sendFrames]

@[simp] theorem State.path_replaceStatus (s : State) (a1 a2 a3) : (State.replaceStatus s a1 a2 a3).path = s.path := by
  simp only [State.replaceStatus, State.path_modPort]

@[simp] theorem State.path_peerStatus (s : State) (a1 a2 a3) : (State.peerStatus s a1 a2 a3).path = s.path := by
  unfold State.peerStatus
  repeat' first
    | with_reducible rfl
    | simp only [State.path_upAnswer, State.path_replaceStatus, State.path_queueStatus, State.path_setSt, apply_ite State.path, ite_self]
    | split

@[simp] theorem State.path_finishCpl (s : State) (a1) : (State.finishCpl s a1).path = s.path := by
  unfold State.finishCpl
  repeat' first
    | with_reducible rfl
    | simp only [State.path_freeOpCtx, State.path_setSt, State.path_handPkt, State.path_with]
    | split

@[simp] theorem State.path_oweCpl (s : State) (a1 a2 a3) : (State.oweCpl s a1 a2 a3).path = s.path := by
  simp only [State.oweCpl, State.path_modOp, State.path_setSt, State.path_formXfer, State.path_finishCpl, apply_ite State.path, ite_self]

@[simp] theorem State.path_farEnd (s : State) (a1) : (State.farEnd s a1).path = s.path := by
  unfold State.farEnd
  repeat' first
    | with_reducible rfl
    | simp only [State.path_dequeueOp, State.path_freeJe, State.path_setSt, State.path_modEntry, State.path_oweNotice, State.path_modOp,
        State.path_freeOpCtx, State.path_oweCpl, State.path_peerStatus, apply_ite State.path, ite_self]
    | split

@[simp] theorem State.path_judgeAll (s : State) (a1 a2 a3) : (State.judgeAll a1 a2 a3 s).path = s.path := by
  induction a2 generalizing a3 s with
  | zero => rfl
  | succ k ih =>
    rw [State.judgeAll]
    repeat' first
      | with_reducible rfl
      | simp only [ih, State.path_gateCheck, State.path_modOp, State.path_fail]
      | split

@[simp] theorem State.path_nextPiece (s : State) (a1 a2) : (State.nextPiece a1 a2 s).path = s.path := by
  induction a2 generalizing s with
  | zero => rfl
  | succ n ih =>
    unfold State.nextPiece
    repeat' first
      | with_reducible rfl
      | simp only [ih, State.path_modOp, State.path_gateCheck, State.path_fail]
      | split

@[simp] theorem State.path_wakeLink (s : State) (a1) : (State.wakeLink s a1).path = s.path := by
  simp only [State.wakeLink, State.path_incF, State.path_modLink, apply_ite State.path, ite_self]

@[simp] theorem State.path_wakePorts (s : State)  : (State.wakePorts s).path = s.path := by
  simp only [State.wakePorts, State.path_with]

@[simp] theorem State.path_queueExitWakes (s : State)  : (State.queueExitWakes s).path = s.path := by
  simp only [State.queueExitWakes, State.path_queueWake, State.path_foldl, implies_true]

@[simp] theorem State.path_exitSeen (s : State) (a1 a2) : (State.exitSeen s a1 a2).path = s.path := by
  have hw (t : State) (x) : State.path { t with phase := x } = t.path := rfl
  unfold State.exitSeen
  dsimp only
  split
  · refine (hw ((s.setF Fld.pwrModeStat_exit_cause a1).setF Fld.pwrModeStat_exit_rule a2) .exiting).trans ?_
    simp only [State.path_setF]
  · split
    · simp only [State.path_queueExitWakes, State.path_wakePorts, State.path_wakeLink, State.path_modPwr]
      refine (hw ((((s.setF Fld.pwrModeStat_exit_cause a1).setF Fld.pwrModeStat_exit_rule a2).incF Fld.pwrModeCnt_abandons).setF
        Fld.pwrModeStat_req_rej 1) .steady).trans ?_
      simp only [State.path_setF, State.path_incF]
    · rfl

@[simp] theorem State.path_attnEvent (s : State) (a1 a2 a3) : (State.attnEvent s a1 a2 a3).path = s.path := by
  simp only [State.attnEvent, State.path_dnEvent]

@[simp] theorem State.path_queueAck (s : State) (a1 a2 a3) : (State.queueAck s a1 a2 a3).path = s.path := by
  simp only [State.queueAck, State.path_modJnl, State.path_enqueue]

@[simp] theorem State.path_queueAckFor (s : State) (a1 a2) : (State.queueAckFor s a1 a2).path = s.path := by
  simp only [State.queueAckFor, State.path_modDn, State.path_enqueue]

@[simp] theorem State.path_ackCloses (s : State) (a1) : (State.ackCloses s a1).path = s.path := by
  simp only [State.ackCloses, State.path_modDn]

@[simp] theorem State.path_ackOver (s : State) (a1 a2) : (State.ackOver s a1 a2).path = s.path := by
  simp only [State.ackOver, State.path_modDn]

@[simp] theorem State.path_satisfy (s : State) (a1 a2) : (State.satisfy s a1 a2).path = s.path := by
  unfold State.satisfy
  repeat' first
    | with_reducible rfl
    | simp only [State.path_modX, State.path_farEnd, apply_ite State.path, ite_self]
    | split

@[simp] theorem State.path_joinAck (s : State) (a1 a2) : (State.joinAck s a1 a2).path = s.path := by
  unfold State.joinAck
  repeat' first
    | with_reducible rfl
    | simp only [State.path_queueAckFor, State.path_modX, State.path_foldl, apply_ite State.path, ite_self, implies_true]
    | split

@[simp] theorem State.path_satisfyAll (s : State) (a1 a2 a3) : (State.satisfyAll s a1 a2 a3).path = s.path := by
  simp only [State.satisfyAll, State.path_satisfy, State.path_farEnd, State.path_ackCloses, State.path_joinAck, State.path_foldl, apply_ite
      State.path, ite_self, implies_true]

@[simp] theorem State.path_deliver (s : State) (a1 a2 a3) : (State.deliver s a1 a2 a3).path = s.path := by
  simp only [State.deliver, State.path_modDn, State.path_incF, State.path_attnEvent, State.path_satisfyAll, apply_ite State.path, ite_self]

@[simp] theorem State.path_storm (s : State) (a1) : (State.storm s a1).path = s.path := by
  simp only [State.storm, State.path_incF, State.path_modDn, State.path_attnEvent, apply_ite State.path, ite_self]

@[simp] theorem State.path_attnSample (s : State) (a1 a2 a3 a4) : (State.attnSample s a1 a2 a3 a4).path = s.path := by
  unfold State.attnSample
  repeat' first
    | with_reducible rfl
    | simp only [State.path_modDn, State.path_deliver, State.path_storm, State.path_incF, apply_ite State.path, ite_self]
    | split

@[simp] theorem State.path_unmute (s : State) (a1) : (State.unmute s a1).path = s.path := by
  simp only [State.unmute, State.path_modDn]

@[simp] theorem State.path_ackWrite (s : State) (a1 a2) : (State.ackWrite s a1 a2).path = s.path := by
  unfold State.ackWrite
  repeat' first
    | with_reducible rfl
    | simp only [State.path_queueAck, State.path_ackCloses, apply_ite State.path, ite_self]
    | split

@[simp] theorem State.path_digestStep (s : State) (a1 a2) : (State.digestStep s a1 a2).path = s.path := by
  simp only [State.digestStep, State.path_incF, State.path_instWrite, State.path_modDn, apply_ite State.path, ite_self]

theorem State.path_execAttnInterval (s : State)  : ∀ t, (execAttnInterval s) = .next t → t.path = s.path := by
  intro t h
  unfold execAttnInterval at h
  rw [← Host.Outcome.next.inj h]; simp only [State.path_start, State.path_with, apply_ite State.path, ite_self]

theorem State.path_execWaitAttnTimeout (s : State) (a1) : ∀ t, (execWaitAttnTimeout a1 s) = .next t → t.path = s.path := by
  intro t h
  unfold execWaitAttnTimeout at h
  try dsimp only at h
  rw [← Host.Outcome.next.inj h]
  repeat' first
    | with_reducible rfl
    | simp only [State.path_start, State.path_farEnd, State.path_fail, State.path_modX, apply_ite State.path, ite_self]
    | split

@[simp] theorem State.path_malformed (s : State) (a1) : (State.malformed s a1).path = s.path := by
  simp only [State.malformed, State.path_incF]

@[simp] theorem State.path_crcBad (s : State) (a1) : (State.crcBad s a1).path = s.path := by
  simp only [State.crcBad, State.path_raise, State.path_incF, State.path_exUse]

@[simp] theorem State.path_closeDaddr (s : State) (a1 a2) : (State.closeDaddr s a1 a2).path = s.path := by
  simp only [State.closeDaddr, State.path_modDaddr]

@[simp] theorem State.path_returnGrains (s : State) (a1) : (State.returnGrains s a1).path = s.path := by
  unfold State.returnGrains
  repeat' first
    | with_reducible rfl
    | simp only [State.path_modOp, apply_ite State.path, ite_self]
    | split

@[simp] theorem State.path_readGrains (s : State) (a1) : (State.readGrains s a1).path = s.path := by
  unfold State.readGrains
  repeat' first
    | with_reducible rfl
    | simp only [State.path_modOp, apply_ite State.path, ite_self]
    | split

@[simp] theorem State.path_endAtPiece (s : State) (a1 a2 a3 a4 a5) : (State.endAtPiece s a1 a2 a3 a4 a5).path = s.path := by
  simp only [State.endAtPiece, State.path_farEnd, State.path_modOp, State.path_fail]

@[simp] theorem State.path_hostErr (s : State) (a1 a2 a3) : (State.hostErr s a1 a2 a3).path = s.path := by
  simp only [State.hostErr, State.path_modX, State.path_modEntry, apply_ite State.path, ite_self]

@[simp] theorem State.path_pushHost (s : State) (a1) : (State.pushHost s a1).path = s.path := by
  unfold State.pushHost
  repeat' first
    | with_reducible rfl
    | simp only [State.path_readGrains, State.path_instWrites, State.path_modX, State.path_modOp, State.path_hostErr, apply_ite State.path,
        ite_self]
    | split

@[simp] theorem State.path_sendChunk (s : State) (a1 a2) : (State.sendChunk s a1 a2).path = s.path := by
  simp only [State.sendChunk, State.path_addBlock, State.path_with]

@[simp] theorem State.path_serve (s : State) : (State.serve s).path = s.path := by
  unfold State.serve
  dsimp only
  split
  · rw [State.path_foldl _ _ _ fun s u => by split <;> simp only [State.path_sendChunk], State.path_draw]
  · rfl

@[simp] theorem State.path_flowRead (s : State) (a1) : (State.flowRead s a1).path = s.path := by
  unfold State.flowRead
  repeat' first
    | with_reducible rfl
    | simp only [State.path_modX, State.path_serve, State.path_pushHost, apply_ite State.path]
    | split

@[simp] theorem State.path_goOn (s : State) (a1) : (State.goOn s a1).path = s.path := by
  unfold State.goOn
  repeat' first
    | with_reducible rfl
    | simp only [State.path_nextPiece, State.path_enqueueOp, State.path_serve, State.path_farEnd, apply_ite State.path, ite_self]
    | split

@[simp] theorem State.path_startPieces (s : State) (a1) : (State.startPieces s a1).path = s.path := by
  unfold State.startPieces
  split <;> simp only [State.path_goOn, State.path_modOp, State.path_judgeAll]

@[simp] theorem State.path_readCross (s : State) (a1 a2 a3) : (State.readCross s a1 a2 a3).path = s.path := by
  unfold State.readCross
  repeat' first
    | with_reducible rfl
    | simp only [State.path_addXfer, apply_ite State.path, ite_self]
    | split

@[simp] theorem State.path_pieceGood (s : State) (a1 a2 a3 a4 a5) : (State.pieceGood s a1 a2 a3 a4 a5).path = s.path := by
  unfold State.pieceGood
  repeat' first
    | with_reducible rfl
    | simp only [State.path_modOp, State.path_modEntry, State.path_readCross, State.path_returnGrains]
    | split

@[simp] theorem State.path_pieceResult (s : State) (a1 a2 a3 a4 a5) : (State.pieceResult s a1 a2 a3 a4 a5).path = s.path := by
  unfold State.pieceResult
  repeat' first
    | with_reducible rfl
    | simp only [State.path_endAtPiece, State.path_modX, State.path_goOn, State.path_pieceGood, State.path_flowRead, State.path_modOp, apply_ite
        State.path, ite_self]
    | split

@[simp] theorem State.path_openAt (s : State) (a1 a2 a3) : (State.openAt s a1 a2 a3).path = s.path := by
  simp only [State.openAt, State.path_modPort, State.path_modDaddr]

@[simp] theorem State.path_issued (s : State) (a1) : (State.issued s a1).path = s.path := by
  simp only [State.issued, State.path_setSt, apply_ite State.path, ite_self]

@[simp] theorem State.path_openPiece (s : State) (a1 a2 a3 a4 a5 a6 a7) : (State.openPiece s a1 a2 a3 a4 a5 a6 a7).path = s.path := by
  simp only [State.openPiece, State.path_gateCheck, State.path_fail, State.path_dequeueOp, State.path_farEnd, State.path_modOp, State.path_goOn,
      State.path_modX, State.path_openAt, State.path_issued, State.path_sendFrames, State.path_modDaddr, apply_ite State.path, ite_self]

@[simp] theorem State.path_crossPiece (s : State) (a1 a2 a3 a4 a5) : (State.crossPiece s a1 a2 a3 a4 a5).2.path = s.path := by
  unfold State.crossPiece
  repeat' first
    | with_reducible rfl
    | simp only [State.path_formXfer, State.path_modOp]
    | split

@[simp] theorem State.path_takePiece (s : State) (a1 a2 a3 a4) : (State.takePiece s a1 a2 a3 a4).2.path = s.path := by
  unfold State.takePiece
  repeat' first
    | with_reducible rfl
    | simp only [State.path_modOp]
    | split

@[simp] theorem State.path_openHead (s : State) (a1 a2 a3) : (State.openHead s a1 a2 a3).path = s.path := by
  unfold State.openHead
  repeat' first
    | with_reducible rfl
    | simp only [State.path_sendFrames, State.path_modDn, State.path_openAt, State.path_issued, State.path_takePiece, State.path_crossPiece,
        State.path_openPiece, State.path_foldl, apply_ite State.path, ite_self, implies_true]
    | split

theorem State.path_execExchangeOpen (s : State) (a1 a2) : ∀ t, (execExchangeOpen a1 a2 s) = .next t → t.path = s.path := by
  intro t h
  unfold execExchangeOpen at h
  try dsimp only at h
  rw [← Host.Outcome.next.inj h]
  repeat' first
    | with_reducible rfl
    | simp only [State.path_start, State.path_openHead, apply_ite State.path, ite_self]
    | split

@[simp] theorem State.path_writeOld (s : State) (a1) : (State.writeOld s a1).path = s.path := by
  unfold State.writeOld
  repeat' first
    | with_reducible rfl
    | simp only [State.path_instWrite, State.path_modX, State.path_hostErr, apply_ite State.path, ite_self]
    | split

@[simp] theorem State.path_endLocked (s : State) (a1) : (State.endLocked s a1).path = s.path := by
  unfold State.endLocked
  repeat' first
    | with_reducible rfl
    | simp only [State.path_modX, State.path_farEnd, State.path_writeOld, apply_ite State.path, ite_self]
    | split

@[simp] theorem State.path_lockFresh (s : State) (a1) : (State.lockFresh s a1).path = s.path := by
  unfold State.lockFresh
  repeat' first
    | with_reducible rfl
    | simp only [State.path_modX]
    | split

@[simp] theorem State.path_unlockAbort (s : State) (a1 a2 a3) : (State.unlockAbort s a1 a2 a3).path = s.path := by
  simp only [State.unlockAbort, State.path_sendFrames, State.path_modDaddr, State.path_lockFresh]

@[simp] theorem State.path_lockReleased (s : State) (a1 a2) : (State.lockReleased s a1 a2).path = s.path := by
  simp only [State.lockReleased, State.path_modDaddr, State.path_closeDaddr]

@[simp] theorem State.path_releaseDone (s : State) (a1 a2 a3) : (State.releaseDone s a1 a2 a3).path = s.path := by
  unfold State.releaseDone
  repeat' first
    | with_reducible rfl
    | simp only [State.path_lockReleased, State.path_modX, State.path_endLocked, State.path_fail, State.path_modEntry, State.path_enqueue, apply_ite
        State.path, ite_self]
    | split

@[simp] theorem State.path_lockGranted (s : State) (a1 a2 a3 a4 a5) : (State.lockGranted s a1 a2 a3 a4 a5).path = s.path := by
  unfold State.lockGranted
  repeat' first
    | with_reducible rfl
    | simp only [State.path_unlockAbort, State.path_modDaddr, State.path_modX, State.path_modEntry, State.path_fail, apply_ite State.path, ite_self]
    | split

@[simp] theorem State.path_ackFails (s : State) (a1 a2 a3 a4) : (State.ackFails s a1 a2 a3 a4).path = s.path := by
  simp only [State.ackFails, State.path_farEnd, State.path_fail, State.path_modX, State.path_ackOver, State.path_foldl, implies_true]

@[simp] theorem State.path_upLosesPort (s : State) (a1) : (State.upLosesPort s a1).path = s.path := by
  unfold State.upLosesPort
  repeat' first
    | with_reducible rfl
    | simp only [State.path_modEntry, State.path_freeJe, State.path_dequeueOp, State.path_withdraw, State.path_modOp, apply_ite State.path,
        ite_self]
    | split

@[simp] theorem State.path_daddrLosesPort (s : State) (a1 a2) : (State.daddrLosesPort s a1 a2).path = s.path := by
  unfold State.daddrLosesPort
  repeat' first
    | with_reducible rfl
    | simp only [State.path_modDaddr, State.path_raise, State.path_incF, State.path_endLocked, State.path_fail, State.path_ackFails,
        State.path_endAtPiece, State.path_withdraw, State.path_upLosesPort, apply_ite State.path, ite_self]
    | split

@[simp] theorem State.path_memberInc (s : State) (a1 a2) : (State.memberInc s a1 a2).path = s.path := by
  simp only [State.memberInc, State.path_incF, State.path_foldl, implies_true]

@[simp] theorem State.path_portFalls (s : State) (a1) : (State.portFalls s a1).path = s.path := by
  simp only [State.portFalls, State.path_raise, State.path_memberInc, State.path_modPort]

@[simp] theorem State.path_dnsLosePort (s : State) (a1) : (State.dnsLosePort s a1).path = s.path := by
  simp only [State.dnsLosePort, State.path_with]

@[simp] theorem State.path_leaveUp (s : State) (a1) : (State.leaveUp s a1).path = s.path := by
  simp only [State.leaveUp, State.path_portFalls, State.path_dnsLosePort, State.path_modPort, State.path_daddrLosesPort, State.path_foldl, apply_ite
      State.path, ite_self, implies_true]

@[simp] theorem State.path_lockFail (s : State) (a1 a2 a3) : (State.lockFail s a1 a2 a3).path = s.path := by
  unfold State.lockFail
  repeat' first
    | with_reducible rfl
    | simp only [State.path_modDaddr, State.path_unlockAbort, State.path_endLocked, State.path_fail, State.path_modX, State.path_leaveUp, apply_ite
        State.path, ite_self]
    | split

@[simp] theorem State.path_abortCmd (s : State) (a1 a2 a3) : (State.abortCmd s a1 a2 a3).path = s.path := by
  unfold State.abortCmd
  repeat' first
    | with_reducible rfl
    | simp only [State.path_queueStatus, State.path_modDaddr, State.path_incF, State.path_modDn, State.path_enqueue, State.path_ackFails,
        State.path_endAtPiece, State.path_modX, apply_ite State.path, ite_self]
    | split

@[simp] theorem State.path_closeUp (s : State) (a1 a2 a3 a4) : (State.closeUp s a1 a2 a3 a4).path = s.path := by
  unfold State.closeUp
  repeat' first
    | with_reducible rfl
    | simp only [State.path_queueStatus, State.path_modOp, State.path_dequeueOp, State.path_modEntry, State.path_flushEvents, apply_ite State.path,
        ite_self]
    | split

@[simp] theorem State.path_badFrame (s : State) (a1 a2 a3) : (State.badFrame s a1 a2 a3).path = s.path := by
  unfold State.badFrame
  repeat' first
    | with_reducible rfl
    | simp only [State.path_abortCmd, State.path_lockFail, State.path_incF, State.path_closeUp, apply_ite State.path, ite_self]
    | split

@[simp] theorem State.path_frameFails (s : State) (a1 a2 a3) : (State.frameFails s a1 a2 a3).path = s.path := by
  simp only [State.frameFails, State.path_crcBad, State.path_malformed, State.path_badFrame, apply_ite State.path, ite_self]

theorem State.path_execData (s : State) (a1 a2) : ∀ t, (execData a1 a2 s) = .next t → t.path = s.path := by
  intro t h
  unfold execData at h
  try dsimp only at h
  rw [← Host.Outcome.next.inj h]
  repeat' first
    | with_reducible rfl
    | simp only [State.path_start, State.path_frameFails, State.path_modDaddr, State.path_malformed, apply_ite State.path, ite_self]
    | split

@[simp] theorem State.path_statusCloses (s : State) (a1 a2 a3 a4) : (State.statusCloses s a1 a2 a3 a4).path = s.path := by
  unfold State.statusCloses
  repeat' first
    | with_reducible rfl
    | simp only [State.path_ackOver, State.path_ackCloses, State.path_closeDaddr, State.path_farEnd, State.path_pieceResult, State.path_malformed,
        State.path_unlockAbort, State.path_modX, State.path_lockReleased, State.path_fail, State.path_lockGranted, State.path_releaseDone,
        State.path_foldl, apply_ite State.path, ite_self, implies_true]
    | split

theorem State.path_execStatus (s : State) (a1 a2) : ∀ t, (execStatus a1 a2 s) = .next t → t.path = s.path := by
  intro t h
  unfold execStatus at h
  try dsimp only at h
  rw [← Host.Outcome.next.inj h]
  repeat' first
    | with_reducible rfl
    | simp only [State.path_start, State.path_frameFails, State.path_malformed, State.path_statusCloses, State.path_releaseDone, apply_ite
        State.path, ite_self]
    | split

@[simp] theorem State.path_refusedByDevice (s : State) (a1 a2 a3 a4) : (State.refusedByDevice s a1 a2 a3 a4).path = s.path := by
  unfold State.refusedByDevice
  repeat' first
    | with_reducible rfl
    | simp only [State.path_modDn, State.path_closeDaddr, State.path_modEntry, State.path_ackFails, State.path_enqueue, State.path_lockReleased,
        State.path_endAtPiece, State.path_foldl, apply_ite State.path, ite_self, implies_true]
    | split

theorem State.path_execRetry (s : State) (a1 a2) : ∀ t, (execRetry a1 a2 s) = .next t → t.path = s.path := by
  intro t h
  unfold execRetry at h
  try dsimp only at h
  rw [← Host.Outcome.next.inj h]
  repeat' first
    | with_reducible rfl
    | simp only [State.path_start, State.path_frameFails, State.path_incF, State.path_unlockAbort, State.path_refusedByDevice, State.path_malformed,
        apply_ite State.path, ite_self]
    | split

theorem State.path_execPollResp (s : State) (a1 a2) : ∀ t, (execPollResp a1 a2 s) = .next t → t.path = s.path := by
  intro t h
  unfold execPollResp at h
  try dsimp only at h
  rw [← Host.Outcome.next.inj h]
  repeat' first
    | with_reducible rfl
    | simp only [State.path_start, State.path_frameFails, State.path_modDn, State.path_closeDaddr, State.path_digestStep, State.path_attnSample,
        State.path_malformed, apply_ite State.path, ite_self]
    | split

theorem State.path_execResponseTimeout (s : State) (a1 a2) : ∀ t, (execResponseTimeout a1 a2 s) = .next t → t.path = s.path := by
  intro t h
  unfold execResponseTimeout at h
  rw [← Host.Outcome.next.inj h]; simp only [State.path_start, State.path_lockFail, State.path_incF, State.path_badFrame, apply_ite State.path,
      ite_self]

@[simp] theorem State.path_sendRetry (s : State) (a1 a2 a3 a4) : (State.sendRetry s a1 a2 a3 a4).path = s.path := by
  simp only [State.sendRetry, State.path_sendRetryFrame, State.path_incF, State.path_modDaddr, apply_ite State.path, ite_self]

@[simp] theorem State.path_collide (s : State) (a1 a2 a3) : (State.collide s a1 a2 a3).path = s.path := by
  simp only [State.collide, State.path_sendRetry, State.path_incF, State.path_modDaddr, apply_ite State.path, ite_self]

@[simp] theorem State.path_demote (s : State) (a1 a2) : (State.demote s a1 a2).2.path = s.path := by
  unfold State.demote
  repeat' first
    | with_reducible rfl
    | simp only [State.path_incF]
    | split

@[simp] theorem State.path_upEnd (s : State) (a1 a2 a3) : (State.upEnd s a1 a2 a3).path = s.path := by
  unfold State.upEnd
  repeat' first
    | with_reducible rfl
    | simp only [State.path_modOp, State.path_freeJe, State.path_modEntry, State.path_flushEvents, State.path_upAnswer, State.path_queueStatus,
        apply_ite State.path, ite_self]
    | split

@[simp] theorem State.path_upRead (s : State) (a1) : (State.upRead s a1).path = s.path := by
  unfold State.upRead
  repeat' first
    | with_reducible rfl
    | simp only [State.path_issue, State.path_setSt, State.path_modOp, State.path_upEnd]
    | split

@[simp] theorem State.path_upCharge (s : State) (a1 a2 a3 a4) : (State.upCharge s a1 a2 a3 a4).path = s.path := by
  simp only [State.upCharge, State.path_formXfer, State.path_modOp]

@[simp] theorem State.path_admitUp (s : State) (a1 a2 a3 a4 a5 a6) : (State.admitUp s a1 a2 a3 a4 a5 a6).path = s.path := by
  unfold State.admitUp
  repeat' first
    | with_reducible rfl
    | simp only [State.path_sendRetry, State.path_demote, State.path_draw, State.path_admitOp, State.path_upCharge, State.path_modDaddr,
        State.path_enqueueOp, State.path_startPieces, State.path_upRead, apply_ite State.path, ite_self]
    | split

@[simp] theorem State.path_refuseUp (s : State) (a1 a2 a3 a4 a5) : (State.refuseUp s a1 a2 a3 a4 a5).path = s.path := by
  simp only [State.refuseUp, State.path_modDaddr, State.path_queueStatus, apply_ite State.path, ite_self]

@[simp] theorem State.path_upFrame (s : State) (a1 a2 a3) : (State.upFrame s a1 a2 a3).path = s.path := by
  unfold State.upFrame
  repeat' first
    | with_reducible rfl
    | simp only [State.path_frameFails, State.path_queueStatus, State.path_modDaddr, State.path_malformed, State.path_collide, State.path_sendRetry,
        State.path_exitSeen, State.path_tblCheck, State.path_raise, State.path_incF, State.path_refuseUp, State.path_admitUp, apply_ite State.path,
        ite_self]
    | split

theorem State.path_execUpWr (s : State) (a1 a2) : ∀ t, (execUpWr a1 a2 s) = .next t → t.path = s.path := by
  intro t h
  unfold execUpWr at h
  rw [← Host.Outcome.next.inj h]; simp only [State.path_upFrame, State.path_start]

theorem State.path_execUpRd (s : State) (a1 a2) : ∀ t, (execUpRd a1 a2 s) = .next t → t.path = s.path := by
  intro t h
  unfold execUpRd at h
  rw [← Host.Outcome.next.inj h]; simp only [State.path_upFrame, State.path_start]

@[simp] theorem State.path_upAccept (s : State) (a1 a2 a3 a4 a5 a6) : (State.upAccept s a1 a2 a3 a4 a5 a6).path = s.path := by
  unfold State.upAccept
  repeat' first
    | with_reducible rfl
    | simp only [State.path_modOp, State.path_queueStatus, State.path_startPieces, State.path_dequeueOp, State.path_setSt, State.path_issue,
        State.path_upEnd, State.path_gateCheck, State.path_flushEvents, State.path_handPkt, apply_ite State.path, ite_self]
    | split

theorem State.path_execUpData (s : State) (a1 a2) : ∀ t, (execUpData a1 a2 s) = .next t → t.path = s.path := by
  intro t h
  unfold execUpData at h
  try dsimp only at h
  rw [← Host.Outcome.next.inj h]
  repeat' first
    | with_reducible rfl
    | simp only [State.path_start, State.path_frameFails, State.path_modDaddr, State.path_malformed, State.path_queueStatus, State.path_modOp,
        State.path_upAccept, apply_ite State.path, ite_self]
    | split

@[simp] theorem State.path_postedPoint (s : State) (a1 a2) : (State.postedPoint s a1 a2).path = s.path := by
  simp only [State.postedPoint, State.path_modEntry, State.path_freeJe, State.path_oweNotice, apply_ite State.path, ite_self]

@[simp] theorem State.path_statusAcked (s : State) (a1) : (State.statusAcked s a1).path = s.path := by
  unfold State.statusAcked
  repeat' first
    | with_reducible rfl
    | simp only [State.path_modEntry, State.path_freeJe, State.path_postedPoint, apply_ite State.path, ite_self]
    | split

@[simp] theorem State.path_sleepPort (s : State) (a1) : (State.sleepPort s a1).path = s.path := by
  simp only [State.sleepPort, State.path_modPort, State.path_queueDown, State.path_foldl, implies_true]

@[simp] theorem State.path_settleSleep (s : State) (a1) : (State.settleSleep s a1).path = s.path := by
  simp only [State.settleSleep, State.path_sleepPort, apply_ite State.path, ite_self]

theorem State.path_execClosingStatusSent (s : State) (a1) : ∀ t, (execClosingStatusSent a1 s) = .next t → t.path = s.path := by
  intro t h
  unfold execClosingStatusSent at h
  try dsimp only at h
  rw [← Host.Outcome.next.inj h]
  repeat' first
    | with_reducible rfl
    | simp only [State.path_start, State.path_emit, State.path_modPort, State.path_modDaddr, State.path_closeDaddr, State.path_statusAcked,
        State.path_settleSleep, State.path_flushPort, apply_ite State.path, ite_self]
    | split

theorem State.path_execGuardEnd (s : State) (a1 a2) : ∀ t, (execGuardEnd a1 a2 s) = .next t → t.path = s.path := by
  intro t h
  unfold execGuardEnd at h
  rw [← Host.Outcome.next.inj h]; simp only [State.path_start, State.path_settleSleep, State.path_closeDaddr, apply_ite State.path, ite_self]

theorem State.path_execRsvTimeExpire (s : State) (a1 a2) : ∀ t, (execRsvTimeExpire a1 a2 s) = .next t → t.path = s.path := by
  intro t h
  unfold execRsvTimeExpire at h
  rw [← Host.Outcome.next.inj h]; simp only [State.path_start, State.path_incF, State.path_modDaddr, apply_ite State.path, ite_self]

theorem State.path_execLossCountExpire (s : State) (a1 a2) : ∀ t, (execLossCountExpire a1 a2 s) = .next t → t.path = s.path := by
  intro t h
  unfold execLossCountExpire at h
  rw [← Host.Outcome.next.inj h]; simp only [State.path_start, State.path_modDaddr, apply_ite State.path, ite_self]

theorem State.path_execUnlockWr (s : State) (a1 a2) : ∀ t, (execUnlockWr a1 a2 s) = .next t → t.path = s.path := by
  intro t h
  unfold execUnlockWr at h
  try dsimp only at h
  rw [← Host.Outcome.next.inj h]
  repeat' first
    | with_reducible rfl
    | simp only [State.path_start, State.path_unlockAbort, State.path_modDaddr, State.path_modX, State.path_sendFrames, apply_ite State.path]
    | split

theorem State.path_execLockTimeout (s : State) (a1 a2) : ∀ t, (execLockTimeout a1 a2 s) = .next t → t.path = s.path := by
  intro t h
  unfold execLockTimeout at h
  try dsimp only at h
  rw [← Host.Outcome.next.inj h]
  repeat' first
    | with_reducible rfl
    | simp only [State.path_start, State.path_unlockAbort, State.path_incF, State.path_endLocked, State.path_fail, apply_ite State.path, ite_self]
    | split

theorem State.path_execPollPeriod (s : State) (a1) : ∀ t, (execPollPeriod a1 s) = .next t → t.path = s.path := by
  intro t h
  unfold execPollPeriod at h
  try dsimp only at h
  rw [← Host.Outcome.next.inj h]
  repeat' first
    | with_reducible rfl
    | simp only [State.path_start, State.path_modJnl, State.path_enqueue, State.path_modDn, State.path_incF, apply_ite State.path]
    | split

theorem State.path_execPortLeavesUp (s : State) (a1) : ∀ t, (execPortLeavesUp a1 s) = .next t → t.path = s.path := by
  intro t h
  unfold execPortLeavesUp at h
  rw [← Host.Outcome.next.inj h]; simp only [State.path_start, State.path_leaveUp, apply_ite State.path, ite_self]

theorem State.path_execPortTrained (s : State) (a1) : ∀ t, (execPortTrained a1 s) = .next t → t.path = s.path := by
  intro t h
  unfold execPortTrained at h
  rw [← Host.Outcome.next.inj h]; simp only [State.path_start, State.path_modPort, State.path_captureSeeds, State.path_unlockAbort,
      State.path_modDaddr, State.path_foldl, apply_ite State.path, ite_self, implies_true]

theorem State.path_execPortTrainTimeout (s : State) (a1) : ∀ t, (execPortTrainTimeout a1 s) = .next t → t.path = s.path := by
  intro t h
  unfold execPortTrainTimeout at h
  rw [← Host.Outcome.next.inj h]; simp only [State.path_start, State.path_raise, State.path_memberInc, State.path_modPort, apply_ite State.path,
      ite_self]

theorem State.path_execPortRetryInterval (s : State) (a1) : ∀ t, (execPortRetryInterval a1 s) = .next t → t.path = s.path := by
  intro t h
  unfold execPortRetryInterval at h
  rw [← Host.Outcome.next.inj h]; simp only [State.path_start, State.path_modPort, apply_ite State.path, ite_self]

theorem State.path_execDownHoldExpire (s : State) (a1) : ∀ t, (execDownHoldExpire a1 s) = .next t → t.path = s.path := by
  intro t h
  unfold execDownHoldExpire at h
  extract_lets u at h
  split at h
  · rw [← Host.Outcome.next.inj h, State.path_start]
  · rw [← Host.Outcome.next.inj h, State.path_foldl, State.path_modPort, State.path_start]
    intro r y
    split <;> first | rfl | simp only [State.path_ackFails, State.path_endAtPiece, State.path_withdraw]

@[simp] theorem State.path_linkRecv (s : State) (a1 a2 a3) (h : ∀ t, (a3 t).path = t.path) : (State.linkRecv s a1 a2 a3).path = s.path := by
  unfold State.linkRecv
  repeat' first
    | with_reducible rfl
    | simp only [State.path_crcBad, State.path_malformed, h]
    | split

@[simp] theorem State.path_linkIdle (s : State)  : (State.linkIdle s).path = s.path := by
  simp only [State.linkIdle, State.path_emit, State.path_foldl, apply_ite State.path, ite_self, implies_true]

theorem State.path_execAlign (s : State) (a1 a2) : ∀ t, (execAlign a1 a2 s) = .next t → t.path = s.path := by
  intro t h
  unfold execAlign at h
  rw [← Host.Outcome.next.inj h]
  exact (State.path_linkRecv _ _ _ _ fun _ => rfl).trans (State.path_start _)

theorem State.path_execAlignSend (s : State) (a1) : ∀ t, (execAlignSend a1 s) = .next t → t.path = s.path := by
  intro t h
  unfold execAlignSend at h
  rw [← Host.Outcome.next.inj h]; simp only [State.path_start, State.path_emit, State.path_foldl, apply_ite State.path, ite_self, implies_true]

@[simp] theorem State.path_modCal (s : State) (a1 a2 a3) : (State.modCal s a1 a2 a3).path = s.path := by
  simp only [State.modCal, State.path_modPort]

@[simp] theorem State.path_calSend (s : State) (a1 a2 a3) : (State.calSend s a1 a2 a3).path = s.path := by
  simp only [State.calSend, State.path_sendFrames]

@[simp] theorem State.path_calSlot (s : State) (a1) : (State.calSlot s a1).path = s.path := by
  simp only [State.calSlot, State.path_addXfer]

theorem State.path_execCoefReq (s : State) (a1 a2 a3) : ∀ t, (execCoefReq a1 a2 a3 s) = .next t → t.path = s.path := by
  intro t h
  unfold execCoefReq at h
  rw [← Host.Outcome.next.inj h]; simp only [State.path_linkRecv, State.path_start, State.path_calSend, State.path_modCal, State.path_draw,
      apply_ite State.path, ite_self, implies_true]

theorem State.path_execCoefStat (s : State) (a1 a2 a3) : ∀ t, (execCoefStat a1 a2 a3 s) = .next t → t.path = s.path := by
  intro t h
  unfold execCoefStat at h
  rw [← Host.Outcome.next.inj h]; simp only [State.path_linkRecv, State.path_start, State.path_modCal, apply_ite State.path, ite_self, implies_true]

theorem State.path_execTxRefresh (s : State) (a1 a2 a3) : ∀ t, (execTxRefresh a1 a2 a3 s) = .next t → t.path = s.path := by
  intro t h
  unfold execTxRefresh at h
  rw [← Host.Outcome.next.inj h]; simp only [State.path_start, State.path_incF, State.path_draw, State.path_modCal, State.path_calSend,
      State.path_calSlot, apply_ite State.path, ite_self]

theorem State.path_execCoefNoresp (s : State) (a1 a2) : ∀ t, (execCoefNoresp a1 a2 s) = .next t → t.path = s.path := by
  intro t h
  unfold execCoefNoresp at h
  rw [← Host.Outcome.next.inj h]; simp only [State.path_start, State.path_incF, State.path_modCal, apply_ite State.path, ite_self]

@[simp] theorem State.path_takeIn (s : State) (a1 a2) : (State.takeIn s a1 a2).path = s.path := by
  simp only [State.takeIn, State.path_modLink]

@[simp] theorem State.path_giveCredits (s : State) (a1 a2) : (State.giveCredits s a1 a2).path = s.path := by
  simp only [State.giveCredits, State.path_modLink]

@[simp] theorem State.path_rxBad (s : State) (a1 a2) : (State.rxBad s a1 a2).path = s.path := by
  simp only [State.rxBad, State.path_raise, State.path_incF]

@[simp] theorem State.path_refuseReq (s : State) (a1 a2 a3 a4) : (State.refuseReq s a1 a2 a3 a4).path = s.path := by
  simp only [State.refuseReq, State.path_handTx, apply_ite State.path, ite_self]

@[simp] theorem State.path_raisePass (s s0 : State) (a1) : (State.raisePass s s0 a1).path = s.path := by
  unfold State.raisePass
  repeat' first
    | with_reducible rfl
    | simp only [State.path_modInst]
    | split

@[simp] theorem State.path_reqClassOf (s : State) (a1 a2) : (State.reqClassOf s a1 a2).2.path = s.path := by
  unfold State.reqClassOf
  repeat' first
    | with_reducible rfl
    | simp only [State.path_incF, State.path_demote]
    | split

@[simp] theorem State.path_startReq (s : State) (a1 a2 a3 a4) : (State.startReq s a1 a2 a3 a4).path = s.path := by
  unfold State.startReq
  repeat' first
    | with_reducible rfl
    | simp only [State.path_formXfer, State.path_modOp, State.path_enqueueOp, State.path_startPieces, apply_ite State.path, ite_self]
    | split

@[simp] theorem State.path_admitPoisoned (s : State) (a1 a2 a3 a4) : (State.admitPoisoned s a1 a2 a3 a4).path = s.path := by
  simp only [State.admitPoisoned, State.path_reqClassOf, State.path_oweNotice, State.path_admitOp, State.path_draw]

theorem State.path_tryAdmit (s : State) (a1 a2 a3 a4 a5 a6 a7 a8) : ∀ t, (State.tryAdmit s a1 a2 a3 a4 a5 a6 a7 a8) = some t → t.path = s.path := by
  intro t; unfold State.tryAdmit; dsimp only
  split
  · intro h; cases h
  · split
    · cases s.jeRoom a7.owner with
      | none => intro h; cases h
      | some je => intro h; cases h; simp only [State.path_admitPoisoned]
    · split
      · intro h; cases h; simp only [State.path_raisePass, State.path_startReq, State.path_admitOp, State.path_draw, State.path_reqClassOf]
      · intro h; cases h

theorem State.path_refuseOut (s : State) (a1 a2 a3 a4) : ∀ t, (State.refuseOut s a1 a2 a3 a4) = some t → t.path = s.path := by
  intro t; unfold State.refuseOut; split <;> intro h <;> cases h <;> simp only [State.path_refuseReq, State.path_raise, State.path_incF]

@[simp] theorem State.path_holdPkt (s : State) (a1 a2 a3) : (State.holdPkt s a1 a2 a3).path = s.path := by
  simp only [State.holdPkt, State.path_modJnl, State.path_modLink]

theorem State.path_handleReq (s : State) (a1 a2 a3 a4 a5 a6 a7) : ∀ t, (State.handleReq s a1 a2 a3 a4 a5 a6 a7) = some t → t.path = s.path := by
  intro t; unfold State.handleReq
  split
  · intro h; cases h; simp only [State.path_refuseReq]
  · split
    · intro h; cases h
    · split
      · exact State.path_tryAdmit _ _ _ _ _ _ _ _ _ _
      · exact State.path_refuseOut _ _ _ _ _ _

@[simp] theorem State.path_winRequest (s : State) (a1 a2 a3 a4 a5) : (State.winRequest s a1 a2 a3 a4 a5).path = s.path := by
  unfold State.winRequest
  extract_lets w u f
  have hu : u.path = s.path := by simp only [u, State.path_tblCheck]
  rw [← hu]
  split
  · next t h => rw [State.path_giveCredits, State.path_handleReq _ _ _ _ _ _ _ _ _ h]
  · refine State.path_ite (fun _ => ?_) (fun _ => ?_)
    · exact (State.path_exitSeen _ _ _).trans (State.path_holdPkt _ _ _ _)
    · exact State.path_holdPkt _ _ _ _

theorem State.path_handlePoisoned (s : State) (a1 a2 a3 a4 a5) : ∀ t, (State.handlePoisoned s a1 a2 a3 a4 a5) = some t → t.path = s.path := by
  intro t; unfold State.handlePoisoned
  split
  · intro h; cases h; rfl
  · split
    · intro h; cases h
    · split
      · exact State.path_tryAdmit _ _ _ _ _ _ _ _ _ _
      · intro h; cases h; simp only [State.path_incF]
      · intro h; cases h; rfl

@[simp] theorem State.path_poisonedMwr (s : State) (a1 a2 a3 a4 a5) : (State.poisonedMwr s a1 a2 a3 a4 a5).path = s.path := by
  unfold State.poisonedMwr
  dsimp only
  repeat' first
    | with_reducible rfl
    | simp only [State.path_giveCredits, State.path_refuseReq, State.path_rxBad, State.path_exitSeen, State.path_holdPkt]
    | split
  next h => rw [State.path_handlePoisoned _ _ _ _ _ _ _ h, State.path_rxBad]

theorem State.path_handleHeld (s : State) (a1 a2 a3) : ∀ t, (State.handleHeld s a1 a2 a3) = some t → t.path = s.path := by
  intro t; unfold State.handleHeld; split
  · exact State.path_handleReq _ _ _ _ _ _ _ _ _
  · split
    · exact State.path_handlePoisoned _ _ _ _ _ _ _
    · exact State.path_handleReq _ _ _ _ _ _ _ _ _
  · intro h; cases h; rfl

@[simp] theorem State.path_dropHeld (s : State) (a1 a2) : (State.dropHeld s a1 a2).path = s.path := by
  simp only [State.dropHeld, State.path_giveCredits, State.path_modLink]

@[simp] theorem State.path_deferGo (s : State) (a1 a2 a3 a4) : (State.deferGo s a1 a2 a3 a4).path = s.path := by
  induction a4 generalizing a3 with
  | nil => rfl
  | cons x l ih =>
    unfold State.deferGo
    split
    · next t h =>
      split at h
      · rw [State.path_dropHeld, State.path_handleHeld _ _ _ _ _ h]
      · cases h
    · exact ih _

@[simp] theorem State.path_refuseHeld (s : State) (a1) : (State.refuseHeld s a1).path = s.path := by
  unfold State.refuseHeld
  refine State.path_foldl _ _ _ fun s l => State.path_foldl _ _ _ fun s x => ?_
  repeat' first
    | with_reducible rfl
    | simp only [State.path_dropHeld, State.path_refuseReq, State.path_incF]
    | split

@[simp] theorem State.path_pieceGo (s : State) (a1) : (State.pieceGo s a1).path = s.path := by
  unfold State.pieceGo
  repeat' first
    | with_reducible rfl
    | simp only [State.path_modOp, State.path_upRead, State.path_upAccept, State.path_freeJe, apply_ite State.path, ite_self]
    | split

@[simp] theorem State.path_sendGo (s : State) (a1 a2 a3) : (State.sendGo s a1 a2 a3).path = s.path := by
  unfold State.sendGo
  repeat' first
    | with_reducible rfl
    | simp only [State.path_handPkt, State.path_readGrains]
    | split

theorem State.path_execDeferredAdmission (s : State) (a1) : ∀ t, (execDeferredAdmission a1 s) = .next t → t.path = s.path := by
  intro t h
  unfold execDeferredAdmission at h
  rw [← Host.Outcome.next.inj h]; simp only [State.path_start, State.path_deferGo, apply_ite State.path, ite_self]

theorem State.path_execOversizeAdmission (s : State) (a1) : ∀ t, (execOversizeAdmission a1 s) = .next t → t.path = s.path := by
  intro t h
  unfold execOversizeAdmission at h
  rw [← Host.Outcome.next.inj h]; simp only [State.path_start, State.path_deferGo, apply_ite State.path, ite_self]

@[simp] theorem State.path_sendCtl (s : State) (a1 a2) : (State.sendCtl s a1 a2).path = s.path := by
  simp only [State.sendCtl, State.path_emitBlock]

@[simp] theorem State.path_resend (s : State) (a1) : (State.resend s a1).path = s.path := by
  simp only [State.resend, State.path_sendAgain, State.path_modLink]

@[simp] theorem State.path_retrainLink (s : State) (a1 a2) : (State.retrainLink s a1 a2).path = s.path := by
  simp only [State.retrainLink, State.path_incF, State.path_modLink]

@[simp] theorem State.path_retrainTrigger (s : State) (a1) : (State.retrainTrigger s a1).path = s.path := by
  simp only [State.retrainTrigger, State.path_raise, State.path_retrainLink, apply_ite State.path, ite_self]

@[simp] theorem State.path_replay (s : State) (a1) : (State.replay s a1).path = s.path := by
  simp only [State.replay, State.path_resend, State.path_raise, State.path_incF, State.path_retrainTrigger, apply_ite State.path, ite_self]

@[simp] theorem State.path_ackJe (s : State) (a1) : (State.ackJe s a1).path = s.path := by
  unfold State.ackJe
  repeat' first
    | with_reducible rfl
    | simp only [State.path_freeJe, State.path_modEntry, apply_ite State.path, ite_self]
    | split

@[simp] theorem State.path_applyAck (s : State) (a1 a2 a3 a4 a5) : (State.applyAck s a1 a2 a3 a4 a5).path = s.path := by
  simp only [State.applyAck, State.path_modLink, State.path_ackJe, State.path_pumpLink, State.path_replay, State.path_foldl, apply_ite State.path,
      ite_self, implies_true]

@[simp] theorem State.path_rxStream (s : State) (a1 a2 a3) : (State.rxStream s a1 a2 a3).path = s.path := by
  simp only [State.rxStream, State.path_modLink, State.path_rxBad, apply_ite State.path, ite_self]

@[simp] theorem State.path_quietAck (s : State) (a1) : (State.quietAck s a1).path = s.path := by
  simp only [State.quietAck, State.path_modLink, State.path_queueDown, State.path_foldl, apply_ite State.path, ite_self, implies_true]

@[simp] theorem State.path_fullReq (s : State) (a1) : (State.fullReq s a1).path = s.path := by
  simp only [State.fullReq, State.path_exitSeen, State.path_retrainLink, apply_ite State.path, ite_self]

@[simp] theorem State.path_ctlBlock (s : State) (a1 a2) : (State.ctlBlock s a1 a2).path = s.path := by
  unfold State.ctlBlock
  repeat' first
    | with_reducible rfl
    | simp only [State.path_retrainTrigger, State.path_sendCtl, State.path_quietAck, State.path_fullReq]
    | split

@[simp] theorem State.path_rxBlock (s : State) (a1 a2) : (State.rxBlock s a1 a2).path = s.path := by
  simp only [State.rxBlock, State.path_raise, State.path_modLink, State.path_exUse, State.path_applyAck, State.path_rxStream, State.path_ctlBlock,
      apply_ite State.path, ite_self]

theorem State.path_execLinkBlockReceive (s : State) (a1 a2) : ∀ t, (execLinkBlockReceive a1 a2 s) = .next t → t.path = s.path := by
  intro t h
  unfold execLinkBlockReceive at h
  rw [← Host.Outcome.next.inj h]; simp only [State.path_rxBlock, State.path_start]

theorem State.path_execReplayTimeout (s : State) (a1) : ∀ t, (execReplayTimeout a1 s) = .next t → t.path = s.path := by
  intro t h
  unfold execReplayTimeout at h
  rw [← Host.Outcome.next.inj h]; simp only [State.path_replay, State.path_start]

theorem State.path_execRetrainReq (s : State) (a1) : ∀ t, (execRetrainReq a1 s) = .next t → t.path = s.path := by
  intro t h
  unfold execRetrainReq at h
  rw [← Host.Outcome.next.inj h]; simp only [State.path_retrainTrigger, State.path_start]

theorem State.path_execQuietAck (s : State) (a1) : ∀ t, (execQuietAck a1 s) = .next t → t.path = s.path := by
  intro t h
  unfold execQuietAck at h
  rw [← Host.Outcome.next.inj h]; simp only [State.path_quietAck, State.path_start]

theorem State.path_execFullReq (s : State) (a1) : ∀ t, (execFullReq a1 s) = .next t → t.path = s.path := by
  intro t h
  unfold execFullReq at h
  rw [← Host.Outcome.next.inj h]; simp only [State.path_fullReq, State.path_start]

theorem State.path_execUncorrThreshold (s : State) (a1 a2) : ∀ t, (execUncorrThreshold a1 a2 s) = .next t → t.path = s.path := by
  intro t h
  unfold execUncorrThreshold at h
  rw [← Host.Outcome.next.inj h]; simp only [State.path_start, State.path_incF, State.path_retrainTrigger, apply_ite State.path, ite_self]

theorem State.path_execLaneLockLoss (s : State) (a1 a2) : ∀ t, (execLaneLockLoss a1 a2 s) = .next t → t.path = s.path := by
  intro t h
  unfold execLaneLockLoss at h
  rw [← Host.Outcome.next.inj h]; simp only [State.path_start, State.path_retrainTrigger, apply_ite State.path, ite_self]

@[simp] theorem State.path_trainFail (s : State) (a1 a2) : (State.trainFail s a1 a2).path = s.path := by
  unfold State.trainFail
  repeat' first
    | with_reducible rfl
    | simp only [State.path_modLink]
    | split

@[simp] theorem State.path_trainGood (s : State) (a1 a2 a3 a4) : (State.trainGood s a1 a2 a3 a4).path = s.path := by
  simp only [State.trainGood, State.path_captureSeeds, State.path_modLink, State.path_raise, State.path_incF, State.path_pumpLink,
      State.path_sendAgain, State.path_sendCtl, apply_ite State.path, ite_self]

theorem State.path_execLinkTrainingSuccess (s : State) (a1 a2) : ∀ t, (execLinkTrainingSuccess a1 a2 s) = .next t → t.path = s.path := by
  intro t h
  unfold execLinkTrainingSuccess at h
  try dsimp only at h
  rw [← Host.Outcome.next.inj h]
  repeat' first
    | with_reducible rfl
    | simp only [State.path_start, State.path_trainFail, State.path_trainGood, apply_ite State.path, ite_self]
    | split

theorem State.path_execLinkTrainingFail (s : State) (a1 a2) : ∀ t, (execLinkTrainingFail a1 a2 s) = .next t → t.path = s.path := by
  intro t h
  unfold execLinkTrainingFail at h
  rw [← Host.Outcome.next.inj h]; simp only [State.path_trainFail, State.path_start]

theorem State.path_execLinkTrainTimeout (s : State) (a1) : ∀ t, (execLinkTrainTimeout a1 s) = .next t → t.path = s.path := by
  intro t h
  unfold execLinkTrainTimeout at h
  rw [← Host.Outcome.next.inj h]; simp only [State.path_start, State.path_trainFail]

theorem State.path_execLinkRetryInterval (s : State) (a1) : ∀ t, (execLinkRetryInterval a1 s) = .next t → t.path = s.path := by
  intro t h
  unfold execLinkRetryInterval at h
  rw [← Host.Outcome.next.inj h]; simp only [State.path_start, State.path_modLink, apply_ite State.path, ite_self]

theorem State.path_execFailover (s : State) (a1) : ∀ t, (execFailover a1 s) = .next t → t.path = s.path := by
  intro t h
  unfold execFailover at h
  rw [← Host.Outcome.next.inj h]; simp only [State.path_start, State.path_modLink, State.path_pumpLink, State.path_raise, apply_ite State.path,
      ite_self]

theorem State.path_execDownLimit (s : State) (a1) : ∀ t, (execDownLimit a1 s) = .next t → t.path = s.path := by
  intro t h
  unfold execDownLimit at h
  rw [← Host.Outcome.next.inj h]; simp only [State.path_start, State.path_raise, apply_ite State.path, ite_self]

theorem State.path_execTagQuarantineEnd (s : State) (a1 a2) : ∀ t, (execTagQuarantineEnd a1 a2 s) = .next t → t.path = s.path := by
  intro t h
  unfold execTagQuarantineEnd at h
  rw [← Host.Outcome.next.inj h]; simp only [State.path_modLink, State.path_start]

@[simp] theorem State.path_lockViol (s : State) (a1) : (State.lockViol s a1).path = s.path := by
  simp only [State.lockViol, State.path_setF, State.path_incF]

@[simp] theorem State.path_placeBcs (s : State) (a1 a2 a3) : (State.placeBcs s a1 a2 a3).path = s.path := by
  simp only [State.placeBcs, State.path_rxBad, State.path_lockViol, State.path_setF, apply_ite State.path, ite_self]

@[simp] theorem State.path_msgRecv (s : State) (a1 a2 a3) : (State.msgRecv s a1 a2 a3).path = s.path := by
  simp only [State.msgRecv, State.path_giveCredits, State.path_takeIn, State.path_rxBad, State.path_placeBcs, State.path_exitSeen, apply_ite
      State.path, ite_self]

theorem State.path_execWakeMsg (s : State) (a1 a2 a3) : ∀ t, (execWakeMsg a1 a2 a3 s) = .next t → t.path = s.path := by
  intro t h
  unfold execWakeMsg at h
  rw [← Host.Outcome.next.inj h]; simp only [State.path_msgRecv, State.path_start]

theorem State.path_execPlace (s : State) (a1 a2 a3) : ∀ t, (execPlace a1 a2 a3 s) = .next t → t.path = s.path := by
  intro t h
  unfold execPlace at h
  rw [← Host.Outcome.next.inj h]; simp only [State.path_msgRecv, State.path_start]

theorem State.path_execBadMsg (s : State) (a1 a2 a3) : ∀ t, (execBadMsg a1 a2 a3 s) = .next t → t.path = s.path := by
  intro t h
  unfold execBadMsg at h
  rw [← Host.Outcome.next.inj h]; simp only [State.path_msgRecv, State.path_start]

@[simp] theorem State.path_modSlot (s : State) (a1 a2) : (State.modSlot s a1 a2).path = s.path := by
  simp only [State.modSlot, State.path_with]

@[simp] theorem State.path_endHost (s : State) (a1 a2 a3) : (State.endHost s a1 a2 a3).path = s.path := by
  unfold State.endHost
  repeat' first
    | with_reducible rfl
    | simp only [State.path_modOp, State.path_hostErr, State.path_farEnd, State.path_dequeueOp, apply_ite State.path, ite_self]
    | split

@[simp] theorem State.path_engIssue (s : State) (a1) : (State.engIssue s a1).path = s.path := by
  unfold State.engIssue
  repeat' first
    | with_reducible rfl
    | simp only [State.path_instRead, State.path_endHost, State.path_modX, State.path_modCtx]
    | split

@[simp] theorem State.path_engFetch (s : State) (a1) : (State.engFetch s a1).path = s.path := by
  unfold State.engFetch
  repeat' first
    | with_reducible rfl
    | simp only [State.path_formXfer, State.path_engIssue, apply_ite State.path, ite_self]
    | split

@[simp] theorem State.path_askData (s : State) (a1) : (State.askData s a1).path = s.path := by
  unfold State.askData
  repeat' first
    | with_reducible rfl
    | simp only [State.path_engFetch, State.path_modOp, State.path_modX, apply_ite State.path]
    | split

@[simp] theorem State.path_endCcd (s : State) (a1 a2 a3) : (State.endCcd s a1 a2 a3).path = s.path := by
  simp only [State.endCcd, State.path_incF, State.path_farEnd, State.path_modX, State.path_modEntry, apply_ite State.path, ite_self]

@[simp] theorem State.path_startCcd (s : State) (a1 a2) : (State.startCcd s a1 a2).path = s.path := by
  unfold State.startCcd
  repeat' first
    | with_reducible rfl
    | simp only [State.path_goOn, State.path_askData, State.path_modOp, State.path_enqueueOp, State.path_satisfyAll, State.path_modX,
        State.path_farEnd, apply_ite State.path, ite_self]
    | split

@[simp] theorem State.path_modQp (s : State) (a1 a2) : (State.modQp s a1 a2).path = s.path := by
  simp only [State.modQp, State.path_with]

@[simp] theorem State.path_newCtx (s : State) (a1) : (State.newCtx s a1).path = s.path := by
  simp only [State.newCtx, State.path_with]

@[simp] theorem State.path_wakeEng (s : State) (a1 a2) : (State.wakeEng s a1 a2).path = s.path := by
  simp only [State.wakeEng, State.path_queueWake]

@[simp] theorem State.path_askStart (s : State) (a1) : (State.askStart s a1).path = s.path := by
  unfold State.askStart
  repeat' first
    | with_reducible rfl
    | simp only [State.path_freeCtx, State.path_engFetch, State.path_modCtx, apply_ite State.path]
    | split

@[simp] theorem State.path_dispatchQp (s : State) (a1 a2 a3) : (State.dispatchQp s a1 a2 a3).path = s.path := by
  simp only [State.dispatchQp, State.path_askStart, State.path_wakeEng, State.path_newCtx]

@[simp] theorem State.path_dispatchAccess (s : State) (a1 a2 a3) : (State.dispatchAccess s a1 a2 a3).path = s.path := by
  unfold State.dispatchAccess
  repeat' first
    | with_reducible rfl
    | simp only [State.path_wakeEng, State.path_newCtx, State.path_modOp, State.path_modEntry, State.path_addXfer, State.path_goOn,
        State.path_dequeueOp]
    | split

@[simp] theorem State.path_placeMoved (s : State) (a1 a2) : (State.placeMoved s a1 a2).path = s.path := by
  unfold State.placeMoved
  repeat' first
    | with_reducible rfl
    | simp only [State.path_modCtx, State.path_modEntry, apply_ite State.path, ite_self]
    | split

@[simp] theorem State.path_askStarts (s : State)  : (State.askStarts s).path = s.path := by
  simp only [State.askStarts, State.path_askStart, State.path_foldl, implies_true]

theorem State.path_execDispatch (s : State)  : ∀ t, (execDispatch s) = .next t → t.path = s.path := by
  intro t h
  unfold execDispatch at h
  try dsimp only at h
  rw [← Host.Outcome.next.inj h]
  repeat' first
    | with_reducible rfl
    | simp only [State.path_start, State.path_askStarts, State.path_wakeEng, State.path_placeMoved, State.path_dispatchQp,
        State.path_dispatchAccess, apply_ite State.path]
    | split

@[simp] theorem State.path_qpFault (s : State) (a1 a2 a3) : (State.qpFault s a1 a2 a3).path = s.path := by
  simp only [State.qpFault, State.path_raise, State.path_setF]

@[simp] theorem State.path_qpDrained (s : State) (a1) : (State.qpDrained s a1).path = s.path := by
  simp only [State.qpDrained, State.path_setF, apply_ite State.path, ite_self]

@[simp] theorem State.path_endProgram (s : State) (a1 a2 a3) : (State.endProgram s a1 a2 a3).path = s.path := by
  simp only [State.endProgram, State.path_raisePass, State.path_qpDrained, State.path_setF, State.path_freeCtx]

theorem State.path_execStartEntryFetched (s : State) (a1 a2) : ∀ t, (execStartEntryFetched a1 a2 s) = .next t → t.path = s.path := by
  intro t h
  unfold execStartEntryFetched at h
  try dsimp only at h
  rw [← Host.Outcome.next.inj h]
  repeat' first
    | with_reducible rfl
    | simp only [State.path_start, State.path_askStarts, State.path_freeCtx, State.path_qpFault, State.path_addXfer, State.path_setF,
        State.path_modQp, State.path_incF, State.path_modCtx, apply_ite State.path, ite_self]
    | split

theorem State.path_execCcdFetch (s : State) (a1) : ∀ t, (execCcdFetch a1 s) = .next t → t.path = s.path := by
  intro t h
  unfold execCcdFetch at h
  try dsimp only at h
  rw [← Host.Outcome.next.inj h]
  repeat' first
    | with_reducible rfl
    | simp only [State.path_start, State.path_modJnl, State.path_draw, State.path_engFetch, State.path_modCtx, apply_ite State.path]
    | split

theorem State.path_admitCcd (s : State) (a1 a2 a3 a4 a5 a6) : ∀ t, (State.admitCcd s a1 a2 a3 a4 a5 a6) = some t → t.path = s.path := by
  intro t; unfold State.admitCcd; dsimp only
  repeat' first
    | (intro h; cases h; done)
    | (intro h; cases h; simp only [State.path_endCcd, State.path_startCcd, State.path_modCtx, State.path_admitOp]; done)
    | split

@[simp] theorem State.path_takeCcd (s : State) (a1 a2 a3 a4 a5) : (State.takeCcd s a1 a2 a3 a4 a5).path = s.path := by
  unfold State.takeCcd
  extract_lets raw d prev u fault
  have hu : u.path = s.path := by simp only [u, State.path_addXfer]
  rw [← hu]
  refine State.path_ite (fun _ => ?_) (fun _ => ?_)
  · simp only [State.path_modCtx, State.path_modJnl]
  · cases h : State.admitCcd u a1 _ _ _ _ _ with
    | none => exact State.path_modCtx _ _ _
    | some t => exact (State.path_modCtx _ _ _).trans (State.path_admitCcd _ _ _ _ _ _ _ _ h)

theorem State.path_execCcdAdmission (s : State) (a1) : ∀ t, (execCcdAdmission a1 s) = .next t → t.path = s.path := by
  intro t h
  unfold execCcdAdmission at h
  try dsimp only at h
  rw [← Host.Outcome.next.inj h]
  repeat' first
    | with_reducible rfl
    | simp only [State.path_start, State.path_takeCcd, apply_ite State.path, ite_self]
    | split

@[simp] theorem State.path_dataPlaced (s : State) (a1 a2) : (State.dataPlaced s a1 a2).path = s.path := by
  simp only [State.dataPlaced, State.path_modEntry, apply_ite State.path, ite_self]

@[simp] theorem State.path_flowWrite (s : State) (a1) : (State.flowWrite s a1).path = s.path := by
  unfold State.flowWrite
  repeat' first
    | with_reducible rfl
    | simp only [State.path_modX, State.path_serve, State.path_dataPlaced, State.path_modOp]
    | split

theorem State.path_execDataFetch (s : State) (a1) : ∀ t, (execDataFetch a1 s) = .next t → t.path = s.path := by
  intro t h
  unfold execDataFetch at h
  try dsimp only at h
  rw [← Host.Outcome.next.inj h]
  repeat' first
    | with_reducible rfl
    | simp only [State.path_start, State.path_askData, State.path_modCtx, State.path_endHost, State.path_modX, State.path_flowWrite, apply_ite
        State.path, ite_self]
    | split

@[simp] theorem State.path_cqEvent (s : State) (a1 a2) : (State.cqEvent s a1 a2).path = s.path := by
  unfold State.cqEvent
  repeat' first
    | with_reducible rfl
    | simp only [State.path_eventFrom, State.path_sendEventVc, State.path_modQp, State.path_with]
    | split

@[simp] theorem State.path_afterEntry (s : State) (a1 a2 a3 a4 a5 a6 a7) : (State.afterEntry s a1 a2 a3 a4 a5 a6 a7).path = s.path := by
  simp only [State.afterEntry, State.path_modQp, State.path_incF, State.path_dnEvent, State.path_cqEvent, State.path_modCtx, State.path_endProgram,
      apply_ite State.path, ite_self]

@[simp] theorem State.path_holdEntry (s : State) (a1 a2) : (State.holdEntry s a1 a2).path = s.path := by
  simp only [State.holdEntry, State.path_modQp]

@[simp] theorem State.path_writeEntry (s : State) (a1 a2 a3) : (State.writeEntry s a1 a2 a3).path = s.path := by
  have hp (t : State) (m) : State.path { t with ops := m } = t.path := rfl
  unfold State.writeEntry
  refine State.path_ite (fun _ => ?_) (fun _ => ?_)
  · simp only [State.path_holdEntry, State.path_qpFault, State.path_instMwr]
  · refine (State.path_afterEntry _ _ _ _ _ _ _ _).trans (State.path_ite (fun _ => ?_) (fun _ => ?_))
    · simp only [State.path_modX, State.path_modEntry, State.path_modQp, State.path_setF, State.path_handPkt, State.path_instMwr]
    · rw [hp]; simp only [State.path_setSt, State.path_modQp, State.path_setF, State.path_handPkt, State.path_instMwr]

@[simp] theorem State.path_formEntry (s : State) (a1 a2 a3) : (State.formEntry s a1 a2 a3).path = s.path := by
  simp only [State.formEntry, State.path_formXfer, State.path_writeEntry, apply_ite State.path, ite_self]

@[simp] theorem State.path_completion (s : State) (a1) : (State.completion s a1).path = s.path := by
  unfold State.completion
  repeat' first
    | with_reducible rfl
    | simp only [State.path_holdEntry, State.path_formEntry, apply_ite State.path, ite_self]
    | split

@[simp] theorem State.path_entryGo (s : State) (a1) : (State.entryGo s a1).path = s.path := by
  unfold State.entryGo
  repeat' first
    | with_reducible rfl
    | simp only [State.path_holdEntry, State.path_writeEntry, apply_ite State.path, ite_self]
    | split

@[simp] theorem State.path_c0Go (s : State) (a1) : (State.c0Go s a1).path = s.path := by
  unfold State.c0Go
  repeat' first
    | with_reducible rfl
    | simp only [State.path_pieceGo, State.path_finishCpl, State.path_sendGo, State.path_engIssue, State.path_entryGo]
    | split

theorem State.path_execCompletionEntry (s : State) (a1) : ∀ t, (execCompletionEntry a1 s) = .next t → t.path = s.path := by
  intro t h
  unfold execCompletionEntry at h
  rw [← Host.Outcome.next.inj h]; simp only [State.path_start, State.path_completion, apply_ite State.path, ite_self]

theorem State.path_execCqCoalTime (s : State) (a1 a2) : ∀ t, (execCqCoalTime a1 a2 s) = .next t → t.path = s.path := by
  intro t h
  unfold execCqCoalTime at h
  rw [← Host.Outcome.next.inj h]; simp only [State.path_start, State.path_modQp, State.path_cqEvent, apply_ite State.path, ite_self]

theorem State.path_execC0HeldRelease (s : State) (a1) : ∀ t, (execC0HeldRelease a1 s) = .next t → t.path = s.path := by
  intro t h
  unfold execC0HeldRelease at h
  try dsimp only at h
  rw [← Host.Outcome.next.inj h]
  repeat' first
    | with_reducible rfl
    | simp only [State.path_start, State.path_c0Go, State.path_addXfer, State.path_modHub, State.path_c0Take, apply_ite State.path]
    | split

@[simp] theorem State.path_countNotice (s : State) (a1 a2 a3) : (State.countNotice s a1 a2 a3).path = s.path := by
  simp only [State.countNotice, State.path_modPel]

@[simp] theorem State.path_noticeWrite (s : State) (a1) : (State.noticeWrite s a1).path = s.path := by
  unfold State.noticeWrite
  repeat' first
    | with_reducible rfl
    | simp only [State.path_modPel, State.path_instWrite, State.path_raise, State.path_setF, State.path_countNotice, State.path_incF,
        State.path_modOp, State.path_eventFrom, apply_ite State.path, ite_self]
    | split

theorem State.path_execNoticeWrite (s : State) (a1) : ∀ t, (execNoticeWrite a1 s) = .next t → t.path = s.path := by
  intro t h
  unfold execNoticeWrite at h
  rw [← Host.Outcome.next.inj h]; simp only [State.path_start, State.path_noticeWrite, apply_ite State.path, ite_self]

theorem State.path_execFenceDone (s : State) (a1) : ∀ t, (execFenceDone a1 s) = .next t → t.path = s.path := by
  intro t h
  unfold execFenceDone at h
  rw [← Host.Outcome.next.inj h]; simp only [State.path_start, State.path_setF, State.path_modPel, apply_ite State.path, ite_self]

@[simp] theorem State.path_abortExchange (s : State) (a1 a2 a3) : (State.abortExchange s a1 a2 a3).path = s.path := by
  simp only [State.abortExchange, State.path_modDaddr, State.path_queueStatus]

@[simp] theorem State.path_dropLock (s : State) (a1 a2 a3 a4) : (State.dropLock s a1 a2 a3 a4).path = s.path := by
  unfold State.dropLock
  repeat' first
    | with_reducible rfl
    | simp only [State.path_modDaddr, State.path_unlockAbort, State.path_incF, apply_ite State.path]
    | split

@[simp] theorem State.path_stopExchange (s : State) (a1 a2 a3) : (State.stopExchange s a1 a2 a3).path = s.path := by
  unfold State.stopExchange
  repeat' first
    | with_reducible rfl
    | simp only [State.path_dropLock, State.path_abortExchange, apply_ite State.path, ite_self]
    | split

@[simp] theorem State.path_addRepair (s : State) (a1 a2) : (State.addRepair s a1 a2).path = s.path := by
  simp only [State.addRepair, State.path_raise, State.path_modBst, apply_ite State.path, ite_self]

@[simp] theorem State.path_rekey (s : State) (a1 a2 a3) : (State.rekey s a1 a2 a3).path = s.path := by
  simp only [State.rekey, State.path_modHub]

@[simp] theorem State.path_ctxEngine (s : State) (a1 a2) : (State.ctxEngine s a1 a2).path = s.path := by
  unfold State.ctxEngine
  repeat' first
    | with_reducible rfl
    | simp only [State.path_modEntry, apply_ite State.path, ite_self]
    | split

@[simp] theorem State.path_moveCtx (s : State) (a1 a2 a3) : (State.moveCtx s a1 a2 a3).path = s.path := by
  simp only [State.moveCtx, State.path_ctxEngine, State.path_rekey, State.path_modCtx]

@[simp] theorem State.path_haltCtxOp (s : State) (a1) : (State.haltCtxOp s a1).path = s.path := by
  unfold State.haltCtxOp
  repeat' first
    | with_reducible rfl
    | simp only [State.path_modX, State.path_dequeueOp, State.path_stopExchange, apply_ite State.path, ite_self]
    | split

@[simp] theorem State.path_thirdIncomplete (s : State) (a1) : (State.thirdIncomplete s a1).path = s.path := by
  simp only [State.thirdIncomplete, State.path_raise, apply_ite State.path, ite_self]

@[simp] theorem State.path_lastResult (s : State) (a1 a2 a3 a4) : (State.lastResult s a1 a2 a3 a4).path = s.path := by
  unfold State.lastResult
  repeat' first
    | with_reducible rfl
    | simp only [State.path_setF]
    | split

@[simp] theorem State.path_writeMisr (s : State) (a1 a2 a3) : (State.writeMisr s a1 a2 a3).path = s.path := by
  unfold State.writeMisr
  repeat' first
    | with_reducible rfl
    | simp only [State.path_setF]
    | split

@[simp] theorem State.path_endSliceFor (s : State)  : (State.endSliceFor s).path = s.path := by
  simp only [State.endSliceFor, State.path_draw, State.path_incF, State.path_writeMisr, State.path_lastResult, State.path_modBst,
      State.path_thirdIncomplete]

@[simp] theorem State.path_findSpare (s : State) (a1) : (State.findSpare s a1).2.path = s.path := by
  unfold State.findSpare
  repeat' first
    | with_reducible rfl
    | simp only [State.path_endSliceFor, State.path_modEng, apply_ite State.path, ite_self]
    | split

@[simp] theorem State.path_withdrawEng (s : State) (a1) : (State.withdrawEng s a1).path = s.path := by
  simp only [State.withdrawEng, State.path_withdrawBy]

@[simp] theorem State.path_retire (s : State) (a1) : (State.retire s a1).path = s.path := by
  unfold State.retire
  repeat' first
    | with_reducible rfl
    | simp only [State.path_withdrawEng, State.path_modEng, State.path_findSpare, State.path_wakeEng, State.path_moveCtx, State.path_haltCtxOp,
        State.path_setF, State.path_addRepair, State.path_modJnl, State.path_incF, State.path_raise, State.path_foldl, apply_ite State.path,
        ite_self, implies_true]
    | split

@[simp] theorem State.path_dsRepair (s : State) (a1 a2) : (State.dsRepair s a1 a2).path = s.path := by
  simp only [State.dsRepair, State.path_raise, State.path_incF, State.path_exUse]

theorem State.path_execDataStoreCorrection (s : State) (a1) : ∀ t, (execDataStoreCorrection a1 s) = .next t → t.path = s.path := by
  intro t h
  unfold execDataStoreCorrection at h
  rw [← Host.Outcome.next.inj h]; simp only [State.path_start, State.path_dsRepair, State.path_draw, apply_ite State.path, ite_self]

@[simp] theorem State.path_restartLocked (s : State) (a1 a2) : (State.restartLocked s a1 a2).path = s.path := by
  simp only [State.restartLocked, State.path_modX, State.path_modEntry, State.path_modOp, State.path_enqueueOp]

@[simp] theorem State.path_resumeOp (s : State) (a1) : (State.resumeOp s a1).path = s.path := by
  unfold State.resumeOp
  repeat' first
    | with_reducible rfl
    | simp only [State.path_queueAckFor, State.path_askData, State.path_restartLocked, State.path_modX, State.path_enqueueOp, apply_ite State.path,
        ite_self]
    | split

@[simp] theorem State.path_rebuildCross (s : State) (a1 a2) : (State.rebuildCross s a1 a2).path = s.path := by
  unfold State.rebuildCross
  repeat' first
    | with_reducible rfl
    | simp only [State.path_addXfer]
    | split

@[simp] theorem State.path_rebuild (s : State) (a1 a2) : (State.rebuild s a1 a2).path = s.path := by
  simp only [State.rebuild, State.path_resumeOp, State.path_rebuildCross, State.path_modCtx, State.path_setF, apply_ite State.path, ite_self]

@[simp] theorem State.path_standInCtx (s : State) (a1 a2) : (State.standInCtx s a1 a2).path = s.path := by
  unfold State.standInCtx
  repeat' first
    | with_reducible rfl
    | simp only [State.path_ctxEngine, State.path_rekey, State.path_modCtx, State.path_rebuildCross]
    | split

theorem State.path_execContextRebuild (s : State) (a1) : ∀ t, (execContextRebuild a1 s) = .next t → t.path = s.path := by
  intro t h
  unfold execContextRebuild at h
  try dsimp only at h
  rw [← Host.Outcome.next.inj h]
  repeat' first
    | with_reducible rfl
    | simp only [State.path_start, State.path_rebuild, State.path_standInCtx, apply_ite State.path, ite_self]
    | split

@[simp] theorem State.path_issueCycle (s : State) (a1) : (State.issueCycle s a1).2.path = s.path := by
  unfold State.issueCycle
  repeat' first
    | with_reducible rfl
    | simp only [State.path_modEng, State.path_modInst]
    | split

theorem State.path_execEngineIdle (s : State) (a1) : ∀ t, (execEngineIdle a1 s) = .next t → t.path = s.path := by
  intro t h
  unfold execEngineIdle at h
  rw [← Host.Outcome.next.inj h]; simp only [State.path_start, State.path_queueDown, apply_ite State.path, ite_self]

theorem State.path_execWatchdogTick (s : State)  : ∀ t, (execWatchdogTick s) = .next t → t.path = s.path := by
  intro t h
  unfold execWatchdogTick at h
  rw [← Host.Outcome.next.inj h]; simp only [State.path_start, State.path_modJnl, State.path_setF, apply_ite State.path, ite_self]

@[simp] theorem State.path_cutUp (s : State) (a1 a2) : (State.cutUp s a1 a2).path = s.path := by
  simp only [State.cutUp, State.path_modOp, State.path_modEntry, State.path_oweNotice, State.path_replaceStatus, State.path_queueStatus,
      State.path_freeJe, State.path_setSt, apply_ite State.path, ite_self]

@[simp] theorem State.path_cutOff (s : State) (a1 a2 a3) : (State.cutOff s a1 a2 a3).path = s.path := by
  unfold State.cutOff
  repeat' first
    | with_reducible rfl
    | simp only [State.path_fail, State.path_withdraw, State.path_dequeueOp, State.path_stopExchange, State.path_modOp, State.path_farEnd,
        State.path_cutUp, apply_ite State.path, ite_self]
    | split

theorem State.path_execWatchdogSelect (s : State)  : ∀ t, (execWatchdogSelect s) = .next t → t.path = s.path := by
  intro t h
  unfold execWatchdogSelect at h
  try dsimp only at h
  rw [← Host.Outcome.next.inj h]
  repeat' first
    | with_reducible rfl
    | simp only [State.path_start, State.path_modJnl, State.path_setF, State.path_incF, State.path_raise, State.path_cutOff,
        apply_ite State.path]
    | split

@[simp] theorem State.path_modSub (s : State) (a1 a2) : (State.modSub s a1 a2).path = s.path := by
  simp only [State.modSub, State.path_modBst]

@[simp] theorem State.path_subCorrected (s : State) (a1) : (State.subCorrected s a1).path = s.path := by
  simp only [State.subCorrected, State.path_modSub]

@[simp] theorem State.path_withholdJe (s : State) (a1 a2) : (State.withholdJe s a1 a2).path = s.path := by
  unfold State.withholdJe
  repeat' first
    | with_reducible rfl
    | simp only [State.path_modJnl, State.path_draw, State.path_with]
    | split

@[simp] theorem State.path_jnlWordError (s : State) (a1 a2 a3 a4) : (State.jnlWordError s a1 a2 a3 a4).path = s.path := by
  unfold State.jnlWordError
  repeat' first
    | with_reducible rfl
    | simp only [State.path_exUse, State.path_raise, State.path_subCorrected, State.path_incF, State.path_modJnl, State.path_withholdJe, apply_ite
        State.path, ite_self]
    | split

@[simp] theorem State.path_jnlCheck (s : State) (a1 a2) : (State.jnlCheck s a1 a2).path = s.path := by
  simp only [State.jnlCheck, State.path_draw, State.path_jnlWordError, apply_ite State.path, ite_self]

theorem State.path_execJournalWordError (s : State) (a1 a2 a3 a4) : ∀ t, (execJournalWordError a1 a2 a3 a4 s) = .next t → t.path = s.path := by
  intro t h
  unfold execJournalWordError at h
  rw [← Host.Outcome.next.inj h]; simp only [State.path_start, State.path_jnlWordError, apply_ite State.path, ite_self]

@[simp] theorem State.path_poisonOp (s : State) (a1) : (State.poisonOp s a1).path = s.path := by
  unfold State.poisonOp
  repeat' first
    | with_reducible rfl
    | simp only [State.path_fail, State.path_upEnd, State.path_withdraw, State.path_modOp, State.path_farEnd, State.path_dequeueOp, apply_ite
        State.path, ite_self]
    | split

@[simp] theorem State.path_landWordError (s : State) (a1 a2 a3 a4) : (State.landWordError s a1 a2 a3 a4).path = s.path := by
  unfold State.landWordError
  repeat' first
    | with_reducible rfl
    | simp only [State.path_exUse, State.path_raise, State.path_subCorrected, State.path_incF, State.path_poisonOp, State.path_with, apply_ite
        State.path, ite_self]
    | split

@[simp] theorem State.path_flitError (s : State) (a1 a2 a3 a4) : (State.flitError s a1 a2 a3 a4).path = s.path := by
  unfold State.flitError
  repeat' first
    | with_reducible rfl
    | simp only [State.path_exUse, State.path_raise, State.path_poisonOp, apply_ite State.path, ite_self]
    | split

@[simp] theorem State.path_flitCheck (s : State) (a1 a2) : (State.flitCheck s a1 a2).path = s.path := by
  simp only [State.flitCheck, State.path_draw, State.path_flitError, apply_ite State.path, ite_self]

@[simp] theorem State.path_flitChecks (s : State) (t : State) : (State.flitChecks s t).path = t.path := by
  unfold State.flitChecks
  exact State.path_foldl _ _ _ fun u o => by split <;> simp only [State.path_flitCheck]

theorem State.path_execHubRound (s : State)  : ∀ t, (execHubRound s) = .next t → t.path = s.path := by
  intro t h
  unfold execHubRound at h
  rw [← Host.Outcome.next.inj h]; simp only [State.path_start, State.path_flitChecks, State.path_hubCycle, apply_ite State.path, ite_self]

theorem State.path_execLandingWordError (s : State) (a1 a2 a3 a4) : ∀ t, (execLandingWordError a1 a2 a3 a4 s) = .next t → t.path = s.path := by
  intro t h
  unfold execLandingWordError at h
  rw [← Host.Outcome.next.inj h]; simp only [State.path_start, State.path_landWordError, apply_ite State.path, ite_self]

theorem State.path_execHubFlitError (s : State) (a1 a2 a3 a4) : ∀ t, (execHubFlitError a1 a2 a3 a4 s) = .next t → t.path = s.path := by
  intro t h
  unfold execHubFlitError at h
  rw [← Host.Outcome.next.inj h]; simp only [State.path_start, State.path_flitError, apply_ite State.path, ite_self]

theorem State.path_execTableWordError (s : State) (a1 a2 a3 a4) : ∀ t, (execTableWordError a1 a2 a3 a4 s) = .next t → t.path = s.path := by
  intro t h
  unfold execTableWordError at h
  rw [← Host.Outcome.next.inj h]; simp only [State.path_start, State.path_tblWordError, apply_ite State.path, ite_self]

theorem State.path_execConfigRegisterParityError (s : State)  : ∀ t, (execConfigRegisterParityError s) = .next t → t.path = s.path := by
  intro t h
  unfold execConfigRegisterParityError at h
  rw [← Host.Outcome.next.inj h]; simp only [State.path_raise, State.path_exUse, State.path_start]

theorem State.path_execArbiterParityError (s : State) (a1) : ∀ t, (execArbiterParityError a1 s) = .next t → t.path = s.path := by
  intro t h
  unfold execArbiterParityError at h
  rw [← Host.Outcome.next.inj h]; simp only [State.path_raise, State.path_start]

theorem State.path_execFaultCollectorParityError (s : State)  : ∀ t, (execFaultCollectorParityError s) = .next t → t.path = s.path := by
  intro t h
  unfold execFaultCollectorParityError at h
  rw [← Host.Outcome.next.inj h]; simp only [State.path_raise, State.path_start]

@[simp] theorem State.path_addPair (s : State) (a1 a2 a3) : (State.addPair s a1 a2 a3).path = s.path := by
  simp only [State.addPair, State.path_setPair]

@[simp] theorem State.path_recut (s : State) (a1) : (State.recut s a1).path = s.path := by
  unfold State.recut
  repeat' first
    | with_reducible rfl
    | simp only [State.path_modOp, State.path_goOn, State.path_dequeueOp, apply_ite State.path, ite_self]
    | split

theorem State.path_compress (s : State) (a1 a2) : ∀ t, (State.compress s a1 a2) = some t → t.path = s.path := by
  intro t; unfold State.compress; dsimp only; split
  · intro h; cases h
  · intro h; cases h
    repeat' first
      | with_reducible rfl
      | simp only [State.path_recut, State.path_flowWrite, State.path_modX, State.path_incF, State.path_addPair]
      | split

theorem State.path_encrypt (s : State) (a1 a2) : ∀ t, (State.encrypt s a1 a2) = some t → t.path = s.path := by
  intro t; unfold State.encrypt; dsimp only; split
  · intro h; cases h
  · intro h; cases h; simp only [State.path_flowWrite, State.path_modX, State.path_addPair]

@[simp] theorem State.path_finishRead (s : State) (a1) : (State.finishRead s a1).path = s.path := by
  unfold State.finishRead
  repeat' first
    | with_reducible rfl
    | simp only [State.path_farEnd, apply_ite State.path, ite_self]
    | split

@[simp] theorem State.path_stopRead (s : State) (a1) : (State.stopRead s a1).path = s.path := by
  unfold State.stopRead
  repeat' first
    | with_reducible rfl
    | simp only [State.path_modOp, State.path_dequeueOp, apply_ite State.path, ite_self]
    | split

theorem State.path_decrypt (s : State) (a1 a2) : ∀ t, (State.decrypt s a1 a2) = some t → t.path = s.path := by
  intro t; unfold State.decrypt; dsimp only; split
  · intro h; cases h
  · intro h; cases h; simp only [State.path_finishRead, State.path_pushHost, State.path_modX, State.path_addPair]

@[simp] theorem State.path_streamEnds (s : State) (a1 a2) : (State.streamEnds s a1 a2).path = s.path := by
  simp only [State.streamEnds, State.path_modX]

@[simp] theorem State.path_endStream (s : State) (a1 a2 a3) : (State.endStream s a1 a2 a3).path = s.path := by
  simp only [State.endStream, State.path_modX, State.path_incF, State.path_modEntry, State.path_finishRead, State.path_stopRead, apply_ite
      State.path, ite_self]

theorem State.path_decompress (s : State) (a1 a2 a3) : ∀ t, (State.decompress s a1 a2 a3) = some t → t.path = s.path := by
  intro t h
  unfold State.decompress at h
  extract_lets n last r all out u left v at h
  have hv : v.path = s.path := by simp only [v, u, State.path_pushHost, State.path_modX, State.path_addPair]
  clear_value v r n last left all
  split at h
  · exact nomatch h
  · rw [← Option.some.inj h, ← hv]
    repeat' split
    all_goals first
      | with_reducible rfl
      | simp only [State.path_endStream, State.path_finishRead, State.path_modX, State.path_streamEnds]

theorem State.path_chunk (s : State) (a1 a2 a3 a4) : ∀ t, (State.chunk s a1 a2 a3 a4) = some t → t.path = s.path := by
  intro t h; unfold State.chunk at h
  repeat' split at h
  all_goals first
    | exact absurd h (by simp; done)
    | exact State.path_compress _ _ _ _ h
    | exact State.path_decompress _ _ _ _ _ h
    | exact State.path_encrypt _ _ _ _ h
    | exact State.path_decrypt _ _ _ _ h

@[simp] theorem State.path_setBad (s : State) (a1 a2 a3) : (State.setBad s a1 a2 a3).path = s.path := by
  simp only [State.setBad, State.path_modX]

@[simp] theorem State.path_unitFree (s : State) (a1) : (State.unitFree s a1).path = s.path := by
  simp only [State.unitFree, State.path_with]

@[simp] theorem State.path_unitFails (s : State) (a1) : (State.unitFails s a1).path = s.path := by
  simp only [State.unitFails, State.path_raise, State.path_incF, State.path_with, apply_ite State.path, ite_self]

@[simp] theorem State.path_chunkFails (s : State) (a1 a2 a3) : (State.chunkFails s a1 a2 a3).path = s.path := by
  simp only [State.chunkFails, State.path_setBad, State.path_exUse, State.path_raise, State.path_incF, State.path_poisonOp, State.path_unitFails,
      apply_ite State.path, ite_self]

@[simp] theorem State.path_chunkPasses (s : State) (a1 a2 a3 a4) : (State.chunkPasses s a1 a2 a3 a4).path = s.path := by
  unfold State.chunkPasses
  extract_lets u was
  have hu : u.path = s.path := by
    simp only [u]
    split <;> simp only [State.path_raise, State.path_incF, State.path_setBad]
  clear_value u
  split
  · next t h => rw [State.path_addBlock, State.path_chunk _ _ _ _ _ _ h, hu]
  · exact hu

@[simp] theorem State.path_endChunk (s : State) (a1 a2 a3) : (State.endChunk s a1 a2 a3).path = s.path := by
  unfold State.endChunk
  repeat' first
    | with_reducible rfl
    | simp only [State.path_unitFree, State.path_serve, State.path_chunkFails, State.path_chunkPasses, apply_ite State.path, ite_self]
    | split

theorem State.path_execChunkDone (s : State) (a1 a2) : ∀ t, (execChunkDone a1 a2 s) = .next t → t.path = s.path := by
  intro t h
  unfold execChunkDone at h
  rw [← Host.Outcome.next.inj h]; simp only [State.path_start, State.path_endChunk, apply_ite State.path, ite_self]

theorem State.path_execChunkCheckFail (s : State) (a1 a2) : ∀ t, (execChunkCheckFail a1 a2 s) = .next t → t.path = s.path := by
  intro t h
  unfold execChunkCheckFail at h
  rw [← Host.Outcome.next.inj h]; simp only [State.path_start, State.path_endChunk, apply_ite State.path, ite_self]

@[simp] theorem State.path_keyResult (s : State) (a1 a2 a3) : (State.keyResult s a1 a2 a3).path = s.path := by
  simp only [State.keyResult, State.path_setF, State.path_with, apply_ite State.path, ite_self]

@[simp] theorem State.path_keyFails (s : State) (a1 a2 a3) : (State.keyFails s a1 a2 a3).path = s.path := by
  unfold State.keyFails
  repeat' first
    | with_reducible rfl
    | simp only [State.path_keyResult, State.path_modSlot]
    | split

@[simp] theorem State.path_keyIssue (s : State) (a1) : (State.keyIssue s a1).path = s.path := by
  unfold State.keyIssue
  repeat' first
    | with_reducible rfl
    | simp only [State.path_instRead, State.path_keyFails, State.path_with]
    | split

@[simp] theorem State.path_keyGo (s : State) (a1 a2 a3 a4) : (State.keyGo s a1 a2 a3 a4).path = s.path := by
  unfold State.keyGo
  repeat' first
    | with_reducible rfl
    | simp only [State.path_keyResult, State.path_modSlot, State.path_keyIssue, State.path_with, apply_ite State.path]
    | split

@[simp] theorem State.path_keyCommand (s : State) (a1 a2 a3 a4) : (State.keyCommand s a1 a2 a3 a4).path = s.path := by
  simp only [State.keyCommand, State.path_setF, State.path_gateCheck, State.path_keyGo, State.path_keyResult, apply_ite State.path, ite_self]

@[simp] theorem State.path_keyStep (s : State) (a1 a2 a3 a4) : (State.keyStep s a1 a2 a3 a4).path = s.path := by
  unfold State.keyStep
  repeat' first
    | with_reducible rfl
    | simp only [State.path_keyFails, State.path_gateCheck, State.path_keyResult, State.path_modSlot, apply_ite State.path, ite_self]
    | split

@[simp] theorem State.path_kekCommand (s : State) (a1 a2) : (State.kekCommand s a1 a2).path = s.path := by
  simp only [State.kekCommand, State.path_setF, State.path_with, apply_ite State.path, ite_self]

theorem State.path_execKeyUnwrap (s : State) (a1) : ∀ t, (execKeyUnwrap a1 s) = .next t → t.path = s.path := by
  intro t h
  unfold execKeyUnwrap at h
  try dsimp only at h
  rw [← Host.Outcome.next.inj h]
  repeat' first
    | with_reducible rfl
    | simp only [State.path_start, State.path_keyIssue, State.path_keyStep, apply_ite State.path, ite_self]
    | split

@[simp] theorem State.path_modMgt (s : State) (a1) : (State.modMgt s a1).path = s.path := by
  simp only [State.modMgt, State.path_with]

@[simp] theorem State.path_pollsStop (s : State)  : (State.pollsStop s).path = s.path := by
  simp only [State.pollsStop, State.path_with]

@[simp] theorem State.path_writeRange (s : State) (a1 a2) : (State.writeRange s a1 a2).path = s.path := by
  simp only [State.writeRange, State.path_pollsStop, State.path_modTbl, State.path_with, apply_ite State.path, ite_self]

@[simp] theorem State.path_giveRange (s : State) (a1 a2) : (State.giveRange s a1 a2).path = s.path := by
  simp only [State.giveRange, State.path_modInst, State.path_writeRange]

@[simp] theorem State.path_takeRange (s : State) (a1 a2) : (State.takeRange s a1 a2).path = s.path := by
  simp only [State.takeRange, State.path_modInst, State.path_writeRange]

@[simp] theorem State.path_mgtFault (s : State) (a1) : (State.mgtFault s a1).path = s.path := by
  simp only [State.mgtFault, State.path_raise, State.path_setF, State.path_modMgt]

@[simp] theorem State.path_mgtRead (s : State) (a1 a2 a3) : (State.mgtRead s a1 a2 a3).2.path = s.path := by
  unfold State.mgtRead
  repeat' first
    | with_reducible rfl
    | simp only [State.path_issue, State.path_modMgt, apply_ite State.path, ite_self]
    | split

@[simp] theorem State.path_mgtFetch (s : State)  : (State.mgtFetch s).path = s.path := by
  unfold State.mgtFetch
  repeat' first
    | with_reducible rfl
    | simp only [State.path_mgtRead, State.path_modMgt, State.path_mgtFault, apply_ite State.path]
    | split

@[simp] theorem State.path_mgtWrite (s : State) (a1 a2 a3) : (State.mgtWrite s a1 a2 a3).path = s.path := by
  simp only [State.mgtWrite, State.path_modMgt, State.path_gateCheck, State.path_mgtFault, State.path_handTx, State.path_incF, apply_ite State.path,
      ite_self]

@[simp] theorem State.path_mgtResult (s : State) (a1 a2 a3 a4 a5 a6) : (State.mgtResult s a1 a2 a3 a4 a5 a6).path = s.path := by
  simp only [State.mgtResult, State.path_mgtWrite]

@[simp] theorem State.path_mgtNext (s : State)  : (State.mgtNext s).path = s.path := by
  simp only [State.mgtNext, State.path_mgtFetch, State.path_modMgt]

@[simp] theorem State.path_mgtEnd (s : State) (a1 a2) : (State.mgtEnd s a1 a2).path = s.path := by
  simp only [State.mgtEnd, State.path_mgtNext, State.path_mgtResult]

@[simp] theorem State.path_mgtTaken (s : State) (a1) : (State.mgtTaken s a1).path = s.path := by
  simp only [State.mgtTaken, State.path_modMgt, State.path_mgtEnd, apply_ite State.path, ite_self]

@[simp] theorem State.path_mgtGoOn (s : State)  : (State.mgtGoOn s).path = s.path := by
  simp only [State.mgtGoOn, State.path_modMgt, State.path_mgtFetch, State.path_mgtWrite, State.path_foldl, apply_ite State.path, ite_self,
      implies_true]

@[simp] theorem State.path_instEvent (s : State) (a1 a2 a3 a4 a5) : (State.instEvent s a1 a2 a3 a4 a5).path = s.path := by
  simp only [State.instEvent, State.path_sendEvent, apply_ite State.path, ite_self]

@[simp] theorem State.path_clearPage (s : State) (a1) : (State.clearPage s a1).path = s.path := by
  simp only [State.clearPage, State.path_with]

@[simp] theorem State.path_createCommit (s : State) (a1 a2 a3 a4) : (State.createCommit s a1 a2 a3 a4).path = s.path := by
  simp only [State.createCommit, State.path_giveRange, State.path_modInst, State.path_clearPage, State.path_foldl, implies_true]

@[simp] theorem State.path_createEnd (s : State) (a1 a2) : (State.createEnd s a1 a2).path = s.path := by
  unfold State.createEnd
  repeat' first
    | with_reducible rfl
    | simp only [State.path_mgtEnd, State.path_createCommit]
    | split

@[simp] theorem State.path_createStep (s : State) (a1 a2) : (State.createStep s a1 a2).path = s.path := by
  unfold State.createStep
  repeat' first
    | with_reducible rfl
    | simp only [State.path_mgtEnd, State.path_mgtRead, State.path_modMgt, State.path_createEnd, apply_ite State.path]
    | split

theorem State.path_execCreate (s : State)  : ∀ t, (execCreate s) = .next t → t.path = s.path := by
  intro t h
  unfold execCreate at h
  try dsimp only at h
  rw [← Host.Outcome.next.inj h]
  repeat' first
    | with_reducible rfl
    | simp only [State.path_start, State.path_createStep, State.path_mgtFetch, apply_ite State.path]
    | split

@[simp] theorem State.path_resizeCommit (s : State) (a1 a2) : (State.resizeCommit s a1 a2).path = s.path := by
  simp only [State.resizeCommit, State.path_modInst, State.path_instEvent]

theorem State.path_execResize (s : State)  : ∀ t, (execResize s) = .next t → t.path = s.path := by
  intro t h
  unfold execResize at h
  try dsimp only at h
  rw [← Host.Outcome.next.inj h]
  repeat' first
    | with_reducible rfl
    | simp only [State.path_start, State.path_mgtEnd, State.path_resizeCommit, State.path_mgtFetch, apply_ite State.path]
    | split

theorem State.path_execAssign (s : State)  : ∀ t, (execAssign s) = .next t → t.path = s.path := by
  intro t h
  unfold execAssign at h
  try dsimp only at h
  rw [← Host.Outcome.next.inj h]
  repeat' first
    | with_reducible rfl
    | simp only [State.path_start, State.path_mgtEnd, State.path_instEvent, State.path_giveRange, State.path_mgtFetch, apply_ite State.path]
    | split

theorem State.path_execRelease (s : State)  : ∀ t, (execRelease s) = .next t → t.path = s.path := by
  intro t h
  unfold execRelease at h
  try dsimp only at h
  rw [← Host.Outcome.next.inj h]
  repeat' first
    | with_reducible rfl
    | simp only [State.path_start, State.path_mgtEnd, State.path_instEvent, State.path_takeRange, State.path_mgtFetch, apply_ite State.path]
    | split

@[simp] theorem State.path_disown (s : State) (a1 a2 a3) : (State.disown s a1 a2 a3).path = s.path := by
  simp only [State.disown, State.path_modDaddr]

@[simp] theorem State.path_squashUp (s : State) (a1 a2) : (State.squashUp s a1 a2).path = s.path := by
  unfold State.squashUp
  repeat' first
    | with_reducible rfl
    | simp only [State.path_modDaddr, State.path_replaceStatus, State.path_queueStatus, apply_ite State.path, ite_self]
    | split

@[simp] theorem State.path_squashEntry (s : State) (a1 a2) : (State.squashEntry s a1 a2).path = s.path := by
  unfold State.squashEntry
  repeat' first
    | with_reducible rfl
    | simp only [State.path_setSt, State.path_dequeueOp, State.path_stopExchange, State.path_squashUp, State.path_disown, State.path_modOp,
        State.path_handTx, State.path_modEntry, apply_ite State.path]
    | split

@[simp] theorem State.path_squashAcks (s : State) (a1) : (State.squashAcks s a1).path = s.path := by
  simp only [State.squashAcks, State.path_abortExchange, State.path_foldl, State.path_with, implies_true]

@[simp] theorem State.path_squash (s : State) (a1) : (State.squash s a1).path = s.path := by
  simp only [State.squash, State.path_refuseHeld, State.path_squashAcks, State.path_withdraw, State.path_modLink, State.path_squashEntry,
      State.path_modJnl, State.path_modInst, State.path_foldl, State.path_with, implies_true]

@[simp] theorem State.path_oweResult (s : State) (a1) : (State.oweResult s a1).path = s.path := by
  simp only [State.oweResult, State.path_mgtNext, State.path_modInst]

theorem State.path_execReset (s : State)  : ∀ t, (execReset s) = .next t → t.path = s.path := by
  intro t h
  unfold execReset at h
  try dsimp only at h
  rw [← Host.Outcome.next.inj h]
  repeat' first
    | with_reducible rfl
    | simp only [State.path_start, State.path_mgtEnd, State.path_refuseHeld, State.path_modInst, State.path_oweResult, State.path_instEvent,
        State.path_squash, State.path_mgtFetch, apply_ite State.path, ite_self]
    | split

theorem State.path_execDestroy (s : State)  : ∀ t, (execDestroy s) = .next t → t.path = s.path := by
  intro t h
  unfold execDestroy at h
  try dsimp only at h
  rw [← Host.Outcome.next.inj h]
  repeat' first
    | with_reducible rfl
    | simp only [State.path_start, State.path_mgtEnd, State.path_modInst, State.path_oweResult, State.path_squash, State.path_mgtFetch, apply_ite
        State.path, ite_self]
    | split

theorem State.path_execDrainTimeout (s : State) (a1) : ∀ t, (execDrainTimeout a1 s) = .next t → t.path = s.path := by
  intro t h
  unfold execDrainTimeout at h
  rw [← Host.Outcome.next.inj h]; simp only [State.path_start, State.path_squash, State.path_modInst, apply_ite State.path, ite_self]

@[simp] theorem State.path_freeSquashed (s : State) (a1) : (State.freeSquashed s a1).path = s.path := by
  simp only [State.freeSquashed, State.path_freeJe, State.path_foldl, implies_true]

@[simp] theorem State.path_clearAttn (s : State) (a1) : (State.clearAttn s a1).path = s.path := by
  simp only [State.clearAttn, State.path_with]

@[simp] theorem State.path_payResults (s : State) (a1 a2 a3) : (State.payResults s a1 a2 a3).path = s.path := by
  simp only [State.payResults, State.path_mgtResult, State.path_foldl, implies_true]

@[simp] theorem State.path_releaseInst (s : State) (a1) : (State.releaseInst s a1).path = s.path := by
  simp only [State.releaseInst, State.path_takeRange, State.path_foldl, State.path_with, implies_true]

theorem State.path_execResetCompletion (s : State) (a1) : ∀ t, (execResetCompletion a1 s) = .next t → t.path = s.path := by
  intro t h
  unfold execResetCompletion at h
  rw [← Host.Outcome.next.inj h]; simp only [State.path_start, State.path_freeSquashed, State.path_clearAttn, State.path_clearPage,
      State.path_releaseInst, State.path_modInst, State.path_payResults, apply_ite State.path, ite_self]

@[simp] theorem State.path_fetchCross (s : State) (a1 a2 a3 a4) : (State.fetchCross s a1 a2 a3 a4).path = s.path := by
  unfold State.fetchCross
  repeat' first
    | with_reducible rfl
    | simp only [State.path_addXfer, apply_ite State.path, ite_self]
    | split

@[simp] theorem State.path_dataOver (s : State) (a1) : (State.dataOver s a1).path = s.path := by
  simp only [State.dataOver, State.path_freeJe, apply_ite State.path, ite_self]

@[simp] theorem State.path_upCross (s : State) (a1 a2 a3) : (State.upCross s a1 a2 a3).path = s.path := by
  unfold State.upCross
  repeat' first
    | with_reducible rfl
    | simp only [State.path_addXfer, apply_ite State.path, ite_self]
    | split

@[simp] theorem State.path_deliverCpl (s : State) (a1 a2 a3 a4) : (State.deliverCpl s a1 a2 a3 a4).path = s.path := by
  unfold State.deliverCpl
  repeat' first
    | with_reducible rfl
    | simp only [State.path_modCtx, State.path_fetchCross, State.path_dataOver, State.path_upEnd, State.path_upCross, State.path_mgtTaken,
        State.path_mgtFault, State.path_modMgt, State.path_with, apply_ite State.path, ite_self]
    | split

@[simp] theorem State.path_endReq (s : State) (a1 a2 a3 a4) : (State.endReq s a1 a2 a3 a4).path = s.path := by
  simp only [State.endReq, State.path_modLink, State.path_deliverCpl]

theorem State.path_execCpl (s : State) (a1 a2 a3) : ∀ t, (execCpl a1 a2 a3 s) = .next t → t.path = s.path := by
  intro t h
  unfold execCpl at h
  try dsimp only at h
  rw [← Host.Outcome.next.inj h]
  repeat' first
    | with_reducible rfl
    | simp only [State.path_start, State.path_takeIn, State.path_rxBad, State.path_endReq, apply_ite State.path, ite_self]
    | split

theorem State.path_execCpld (s : State) (a1 a2 a3) : ∀ t, (execCpld a1 a2 a3 s) = .next t → t.path = s.path := by
  intro t h
  unfold execCpld at h
  try dsimp only at h
  rw [← Host.Outcome.next.inj h]
  repeat' first
    | with_reducible rfl
    | simp only [State.path_start, State.path_takeIn, State.path_rxBad, State.path_endReq, State.path_modLink, apply_ite State.path, ite_self]
    | split

theorem State.path_execCplTimeout (s : State) (a1 a2) : ∀ t, (execCplTimeout a1 a2 s) = .next t → t.path = s.path := by
  intro t h
  unfold execCplTimeout at h
  try dsimp only at h
  rw [← Host.Outcome.next.inj h]
  repeat' first
    | with_reducible rfl
    | simp only [State.path_start, State.path_modLink, State.path_raise, State.path_endReq, apply_ite State.path]
    | split

@[simp] theorem State.path_endService (s : State)  : (State.endService s).path = s.path := by
  simp only [State.endService, State.path_modFlt, State.path_setF]

@[simp] theorem State.path_runAtLast (s : State)  : (State.runAtLast s).path = s.path := by
  simp only [State.runAtLast, State.path_modPwr, State.path_endService, State.path_with, apply_ite State.path, ite_self]

@[simp] theorem State.path_modSlice (s : State) (a1 a2) : (State.modSlice s a1 a2).path = s.path := by
  unfold State.modSlice
  repeat' first
    | with_reducible rfl
    | simp only [State.path_modBst]
    | split

@[simp] theorem State.path_cycleEnds (s : State) (a1) : (State.cycleEnds s a1).path = s.path := by
  unfold State.cycleEnds
  repeat' first
    | with_reducible rfl
    | simp only [State.path_modBst, State.path_incF]
    | split

@[simp] theorem State.path_chooseTarget (s : State) (a1) : (State.chooseTarget s a1).2.path = s.path := by
  unfold State.chooseTarget
  repeat' first
    | with_reducible rfl
    | simp only [State.path_modSlice, State.path_cycleEnds, apply_ite State.path, ite_self]
    | split

@[simp] theorem State.path_skipSlice (s : State) (a1 a2) : (State.skipSlice s a1 a2).path = s.path := by
  simp only [State.skipSlice, State.path_modSlice, State.path_setF, State.path_raise, State.path_incF, State.path_lastResult, apply_ite State.path,
      ite_self]

@[simp] theorem State.path_startMem (s : State) (a1) : (State.startMem s a1).path = s.path := by
  unfold State.startMem
  repeat' first
    | with_reducible rfl
    | simp only [State.path_modSlice, State.path_skipSlice, apply_ite State.path]
    | split

@[simp] theorem State.path_startEng (s : State) (a1) : (State.startEng s a1).path = s.path := by
  unfold State.startEng
  repeat' first
    | with_reducible rfl
    | simp only [State.path_modSlice, State.path_modEng, State.path_skipSlice, State.path_wakeEng, apply_ite State.path]
    | split

@[simp] theorem State.path_startSlice (s : State) (a1 a2) : (State.startSlice s a1 a2).path = s.path := by
  unfold State.startSlice
  repeat' first
    | with_reducible rfl
    | simp only [State.path_startMem, State.path_startEng]
    | split

@[simp] theorem State.path_periodic (s : State) (a1) : (State.periodic s a1).path = s.path := by
  unfold State.periodic
  repeat' first
    | with_reducible rfl
    | simp only [State.path_chooseTarget, State.path_startSlice, apply_ite State.path]
    | split

@[simp] theorem State.path_swapSub (s : State) (a1 a2) : (State.swapSub s a1 a2).path = s.path := by
  simp only [State.swapSub, State.path_modJnl, State.path_modSub, State.path_incF, State.path_with]

@[simp] theorem State.path_failMem (s : State) (a1) : (State.failMem s a1).path = s.path := by
  simp only [State.failMem, State.path_draw, State.path_setF, apply_ite State.path, ite_self]

@[simp] theorem State.path_judgeSlice (s : State) (a1 a2) : (State.judgeSlice s a1 a2).path = s.path := by
  unfold State.judgeSlice
  repeat' first
    | with_reducible rfl
    | simp only [State.path_writeMisr, State.path_lastResult, State.path_modSlice, State.path_setF, State.path_incF, State.path_raise,
        State.path_failMem, State.path_thirdIncomplete, apply_ite State.path, ite_self]
    | split

@[simp] theorem State.path_cutNow (s : State) (a1) : (State.cutNow s a1).path = s.path := by
  simp only [State.cutNow, State.path_draw, State.path_judgeSlice]

@[simp] theorem State.path_cutSlice (s : State) (a1) : (State.cutSlice s a1).path = s.path := by
  unfold State.cutSlice
  repeat' first
    | with_reducible rfl
    | simp only [State.path_cutNow, State.path_modSlice]
    | split

@[simp] theorem State.path_beginTest (s : State) (a1) : (State.beginTest s a1).path = s.path := by
  simp only [State.beginTest, State.path_modSlice, State.path_cutNow, apply_ite State.path, ite_self]

@[simp] theorem State.path_moveQuiet (s : State)  : (State.moveQuiet s).path = s.path := by
  simp only [State.moveQuiet, State.path_standInCtx, State.path_foldl, apply_ite State.path, ite_self, implies_true]

@[simp] theorem State.path_prepared (s : State) (a1) : (State.prepared s a1).path = s.path := by
  unfold State.prepared
  repeat' first
    | with_reducible rfl
    | simp only [State.path_beginTest, State.path_modSub, State.path_swapSub, State.path_moveQuiet, apply_ite State.path, ite_self]
    | split

@[simp] theorem State.path_restoreMem (s : State)  : (State.restoreMem s).path = s.path := by
  simp only [State.restoreMem, State.path_modSub, State.path_addRepair, State.path_foldl, apply_ite State.path, ite_self, implies_true]

@[simp] theorem State.path_restoreEng (s : State)  : (State.restoreEng s).path = s.path := by
  simp only [State.restoreEng, State.path_modEng, State.path_addRepair, apply_ite State.path, ite_self]

@[simp] theorem State.path_fgNext (k : SliceKind) (n : Nat) (s : State) : (State.fgNext k n s).path = s.path := by
  induction n generalizing s with
  | zero => rfl
  | succ n ih =>
    unfold State.fgNext
    extract_lets p u
    have hu : u.path = s.path := State.path_modBst _ _
    clear_value u
    split
    · rfl
    · rw [ih, apply_ite State.path, State.path_startSlice, ite_self, hu]

@[simp] theorem State.path_fgGoOn (s : State)  : (State.fgGoOn s).path = s.path := by
  simp only [State.fgGoOn, State.path_fgNext, State.path_modBst, apply_ite State.path, ite_self]

@[simp] theorem State.path_fgStops (s : State)  : (State.fgStops s).path = s.path := by
  simp only [State.fgStops, State.path_fgGoOn, State.path_modBst]

@[simp] theorem State.path_fgEnd (s : State)  : (State.fgEnd s).path = s.path := by
  simp only [State.fgEnd, State.path_cutNow, State.path_fgStops, apply_ite State.path, ite_self]

@[simp] theorem State.path_restored (s : State) (a1) : (State.restored s a1).path = s.path := by
  unfold State.restored
  repeat' first
    | with_reducible rfl
    | simp only [State.path_restoreMem, State.path_restoreEng, State.path_runAtLast, State.path_fgGoOn, State.path_modSlice, apply_ite State.path]
    | split

@[simp] theorem State.path_bstCommand (s : State) (a1) : (State.bstCommand s a1).path = s.path := by
  unfold State.bstCommand
  repeat' first
    | with_reducible rfl
    | simp only [State.path_setF, State.path_fgGoOn, State.path_modBst, State.path_runAtLast, State.path_fgEnd, State.path_startSlice, apply_ite
        State.path, ite_self]
    | split

@[simp] theorem State.path_fuseEnd (s : State) (a1) : (State.fuseEnd s a1).path = s.path := by
  simp only [State.fuseEnd, State.path_runAtLast, State.path_modBst, State.path_setF]

@[simp] theorem State.path_fuseNext (s : State) (a1) : (State.fuseNext s a1).path = s.path := by
  simp only [State.fuseNext, State.path_fuseEnd, State.path_modBst, apply_ite State.path, ite_self]

@[simp] theorem State.path_fuseCommand (s : State) (a1) : (State.fuseCommand s a1).path = s.path := by
  simp only [State.fuseCommand, State.path_setF, State.path_draw, State.path_fuseNext, apply_ite State.path, ite_self]

@[simp] theorem State.path_chkExercise (s : State) (a1) : (State.chkExercise s a1).path = s.path := by
  simp only [State.chkExercise, State.path_setF, State.path_modFlt, apply_ite State.path, ite_self]

@[simp] theorem State.path_sliceStart (s : State)  : (State.sliceStart s).path = s.path := by
  simp only [State.sliceStart, State.path_modBst, State.path_periodic, apply_ite State.path, ite_self]

theorem State.path_execSliceStart (s : State)  : ∀ t, (execSliceStart s) = .next t → t.path = s.path := by
  intro t h
  unfold execSliceStart at h
  rw [← Host.Outcome.next.inj h]; simp only [State.path_start, State.path_modBst, State.path_sliceStart, apply_ite State.path, ite_self]

theorem State.path_execAdaptationResume (s : State)  : ∀ t, (execAdaptationResume s) = .next t → t.path = s.path := by
  intro t h
  unfold execAdaptationResume at h
  rw [← Host.Outcome.next.inj h]; simp only [State.path_start, State.path_modPwr, State.path_sliceStart, apply_ite State.path, ite_self]

theorem State.path_execSlicePrepared (s : State) (a1) : ∀ t, (execSlicePrepared a1 s) = .next t → t.path = s.path := by
  intro t h
  unfold execSlicePrepared at h
  rw [← Host.Outcome.next.inj h]; simp only [State.path_start, State.path_prepared, apply_ite State.path, ite_self]

theorem State.path_execSubbankSwap (s : State) (a1 a2) : ∀ t, (execSubbankSwap a1 a2 s) = .next t → t.path = s.path := by
  intro t h
  unfold execSubbankSwap at h
  rw [← Host.Outcome.next.inj h]; simp only [State.path_start, State.path_prepared, apply_ite State.path, ite_self]

theorem State.path_execSliceTestDone (s : State) (a1 a2) : ∀ t, (execSliceTestDone a1 a2 s) = .next t → t.path = s.path := by
  intro t h
  unfold execSliceTestDone at h
  rw [← Host.Outcome.next.inj h]; simp only [State.path_start, State.path_judgeSlice, apply_ite State.path, ite_self]

theorem State.path_execSliceTimeLimit (s : State) (a1 a2) : ∀ t, (execSliceTimeLimit a1 a2 s) = .next t → t.path = s.path := by
  intro t h
  unfold execSliceTimeLimit at h
  rw [← Host.Outcome.next.inj h]; simp only [State.path_start, State.path_judgeSlice, apply_ite State.path, ite_self]

theorem State.path_execSliceRestored (s : State) (a1) : ∀ t, (execSliceRestored a1 s) = .next t → t.path = s.path := by
  intro t h
  unfold execSliceRestored at h
  rw [← Host.Outcome.next.inj h]; simp only [State.path_start, State.path_restored, apply_ite State.path, ite_self]

theorem State.path_execFuseRecordDone (s : State) (a1) : ∀ t, (execFuseRecordDone a1 s) = .next t → t.path = s.path := by
  intro t h
  unfold execFuseRecordDone at h
  try dsimp only at h
  rw [← Host.Outcome.next.inj h]
  repeat' first
    | with_reducible rfl
    | simp only [State.path_start, State.path_fuseEnd, State.path_incF, State.path_modBst, State.path_draw, State.path_fuseNext, State.path_raise,
        apply_ite State.path, ite_self]
    | split

@[simp] theorem State.path_retried (s : State) (a1 a2 a3) : (State.retried s a1 a2 a3).path = s.path := by
  simp only [State.retried, State.path_raise, State.path_incF, State.path_modCtx, State.path_fgGoOn, State.path_retire, apply_ite State.path,
      ite_self]

@[simp] theorem State.path_engExercise (s : State) (a1 a2) : (State.engExercise s a1 a2).path = s.path := by
  unfold State.engExercise
  repeat' first
    | with_reducible rfl
    | simp only [State.path_draw, State.path_dsRepair, State.path_modFlt, State.path_fgGoOn, State.path_retire, State.path_retried, apply_ite
        State.path, ite_self]
    | split

theorem State.path_execInstructionRetry (s : State) (a1 a2) : ∀ t, (execInstructionRetry a1 a2 s) = .next t → t.path = s.path := by
  intro t h
  unfold execInstructionRetry at h
  try dsimp only at h
  rw [← Host.Outcome.next.inj h]
  repeat' first
    | with_reducible rfl
    | simp only [State.path_start, State.path_retried, State.path_exUse, apply_ite State.path]
    | split

theorem State.path_execEngineIssueCycle (s : State) (a1) : ∀ t, (execEngineIssueCycle a1 s) = .next t → t.path = s.path := by
  intro t h
  unfold execEngineIssueCycle at h
  try dsimp only at h
  rw [← Host.Outcome.next.inj h]
  repeat' first
    | with_reducible rfl
    | simp only [State.path_start, State.path_issueCycle, State.path_engExercise, apply_ite State.path]
    | split

theorem State.path_execAliveToggle (s : State)  : ∀ t, (execAliveToggle s) = .next t → t.path = s.path := by
  intro t h
  unfold execAliveToggle at h
  rw [← Host.Outcome.next.inj h]; simp only [State.path_start, State.path_emit, State.path_modFlt, apply_ite State.path, ite_self]

theorem State.path_execLivenessToken (s : State)  : ∀ t, (execLivenessToken s) = .next t → t.path = s.path := by
  intro t h
  unfold execLivenessToken at h
  rw [← Host.Outcome.next.inj h]; simp only [State.path_start, State.path_modFlt, apply_ite State.path, ite_self]

theorem State.path_execLivenessTimeout (s : State) (a1) : ∀ t, (execLivenessTimeout a1 s) = .next t → t.path = s.path := by
  intro t h
  unfold execLivenessTimeout at h
  rw [← Host.Outcome.next.inj h]; simp only [State.path_start, State.path_modFlt, State.path_incF, State.path_raise, apply_ite State.path, ite_self]

@[simp] theorem State.path_rejectMode (s : State) (a1 a2) : (State.rejectMode s a1 a2).path = s.path := by
  simp only [State.rejectMode, State.path_incF, State.path_setF]

@[simp] theorem State.path_abandonQuiesce (s : State) : (State.abandonQuiesce s).path = s.path := by
  have hp (t : State) (p) : State.path { t with phase := p } = t.path := rfl
  rw [State.abandonQuiesce, hp, State.path_setF, State.path_incF]

@[simp] theorem State.path_startQuiesce (s : State)  : (State.startQuiesce s).path = s.path := by
  simp only [State.startQuiesce, State.path_cutSlice, State.path_modBst, State.path_with]

@[simp] theorem State.path_requestDoze (s : State)  : (State.requestDoze s).path = s.path := by
  unfold State.requestDoze
  repeat' first
    | with_reducible rfl
    | simp only [State.path_startQuiesce, State.path_rejectMode]
    | split

@[simp] theorem State.path_leaveService (s : State)  : (State.leaveService s).path = s.path := by
  simp only [State.leaveService, State.path_rejectMode, State.path_modPwr, State.path_runAtLast, State.path_fgStops, apply_ite State.path, ite_self]

@[simp] theorem State.path_requestRun (s : State)  : (State.requestRun s).path = s.path := by
  unfold State.requestRun
  repeat' first
    | with_reducible rfl
    | simp only [State.path_abandonQuiesce, State.path_exitSeen, State.path_rejectMode, State.path_leaveService]
    | split

@[simp] theorem State.path_requestService (s : State)  : (State.requestService s).path = s.path := by
  unfold State.requestService
  repeat' first
    | with_reducible rfl
    | simp only [State.path_modBst, State.path_modPwr, State.path_rejectMode, State.path_with]
    | split

@[simp] theorem State.path_modeRequest (s : State) (a1) : (State.modeRequest s a1).path = s.path := by
  unfold State.modeRequest
  repeat' first
    | with_reducible rfl
    | simp only [State.path_requestRun, State.path_requestDoze, State.path_requestService, State.path_rejectMode, apply_ite State.path]
    | split

@[simp] theorem State.path_quietLink (s : State) (a1) : (State.quietLink s a1).path = s.path := by
  simp only [State.quietLink, State.path_sendCtl, State.path_modLink, apply_ite State.path, ite_self]

@[simp] theorem State.path_dozePort (s : State) (a1) : (State.dozePort s a1).path = s.path := by
  unfold State.dozePort
  repeat' first
    | with_reducible rfl
    | simp only [State.path_sleepPort, State.path_settleSleep, State.path_modPort, apply_ite State.path]
    | split

@[simp] theorem State.path_startEntering (s : State)  : (State.startEntering s).path = s.path := by
  simp only [State.startEntering, State.path_quietLink, State.path_queueDown, State.path_dozePort, State.path_foldl, State.path_with, implies_true]

theorem State.path_execModeReqDoze (s : State)  : ∀ t, (execModeReqDoze s) = .next t → t.path = s.path := by
  intro t h
  unfold execModeReqDoze at h
  rw [← Host.Outcome.next.inj h]; simp only [State.path_modeRequest, State.path_start]

theorem State.path_execModeReqRun (s : State)  : ∀ t, (execModeReqRun s) = .next t → t.path = s.path := by
  intro t h
  unfold execModeReqRun at h
  rw [← Host.Outcome.next.inj h]; simp only [State.path_modeRequest, State.path_start]

theorem State.path_execModeReqService (s : State)  : ∀ t, (execModeReqService s) = .next t → t.path = s.path := by
  intro t h
  unfold execModeReqService at h
  rw [← Host.Outcome.next.inj h]; simp only [State.path_modeRequest, State.path_start]

theorem State.path_execModeReqInvalid (s : State) (a1) : ∀ t, (execModeReqInvalid a1 s) = .next t → t.path = s.path := by
  intro t h
  unfold execModeReqInvalid at h
  rw [← Host.Outcome.next.inj h]; simp only [State.path_start, State.path_modeRequest, apply_ite State.path, ite_self]

theorem State.path_execQuiescent (s : State)  : ∀ t, (execQuiescent s) = .next t → t.path = s.path := by
  intro t h
  unfold execQuiescent at h
  rw [← Host.Outcome.next.inj h]; simp only [State.path_start, State.path_startEntering, apply_ite State.path, ite_self]

theorem State.path_execQuiesceTimeout (s : State)  : ∀ t, (execQuiesceTimeout s) = .next t → t.path = s.path := by
  intro t h
  unfold execQuiesceTimeout at h
  rw [← Host.Outcome.next.inj h]; simp only [State.path_start, State.path_setF, State.path_abandonQuiesce, apply_ite State.path, ite_self]

theorem State.path_execDozeEntered (s : State)  : ∀ t, (execDozeEntered s) = .next t → t.path = s.path := by
  intro t h
  unfold execDozeEntered at h
  rw [← Host.Outcome.next.inj h]; simp only [State.path_start, State.path_modPwr, State.path_incF, State.path_with, apply_ite State.path, ite_self]

theorem State.path_execClocksUngated (s : State)  : ∀ t, (execClocksUngated s) = .next t → t.path = s.path := by
  intro t h
  unfold execClocksUngated at h
  rw [← Host.Outcome.next.inj h]; simp only [State.path_start, State.path_hubFresh, State.path_queueExitWakes, State.path_modPwr, apply_ite
      State.path, ite_self]

@[simp] theorem State.path_reachRun (s : State)  : (State.reachRun s).path = s.path := by
  simp only [State.reachRun, State.path_wakePorts, State.path_wakeLink, State.path_with]

@[simp] theorem State.path_modRule (s : State) (a1 a2) : (State.modRule s a1 a2).path = s.path := by
  simp only [State.modRule, State.path_modKst]

@[simp] theorem State.path_kickEvent (s : State) (a1 a2) : (State.kickEvent s a1 a2).path = s.path := by
  simp only [State.kickEvent, State.path_sendMsg, State.path_addXfer, apply_ite State.path, ite_self]

@[simp] theorem State.path_sendWake (s : State) (a1) : (State.sendWake s a1).path = s.path := by
  unfold State.sendWake
  repeat' first
    | with_reducible rfl
    | simp only [State.path_sendMsg]
    | split

@[simp] theorem State.path_kickLog (s : State) (a1 a2) : (State.kickLog s a1 a2).path = s.path := by
  simp only [State.kickLog, State.path_setF]

@[simp] theorem State.path_fireRule (s : State) (a1) : (State.fireRule s a1).path = s.path := by
  unfold State.fireRule
  repeat' first
    | with_reducible rfl
    | simp only [State.path_setReg, State.path_kickLog, State.path_exitSeen, State.path_sendWake, State.path_kickEvent, State.path_modKst, apply_ite
        State.path, ite_self]
    | split

@[simp] theorem State.path_ruleTick (s : State) (a1 a2) : (State.ruleTick s a1 a2).path = s.path := by
  simp only [State.ruleTick, State.path_modRule, State.path_fireRule, apply_ite State.path, ite_self]

@[simp] theorem State.path_sbiStep (s : State) (a1 a2) : (State.sbiStep a1 s a2).path = s.path := by
  simp only [State.sbiStep, State.path_setF, State.path_attnSample, apply_ite State.path, ite_self]

@[simp] theorem State.path_twakeStep (s : State) (a1) : (State.twakeStep s a1).path = s.path := by
  simp only [State.twakeStep, State.path_modKst, State.path_exitSeen, apply_ite State.path, ite_self]

theorem State.path_execKickstandSample (s : State) (a1) : ∀ t, (execKickstandSample a1 s) = .next t → t.path = s.path := by
  intro t h
  unfold execKickstandSample at h
  rw [← Host.Outcome.next.inj h]; simp only [State.path_start, State.path_setF, State.path_modKst, State.path_ruleTick, State.path_twakeStep,
      State.path_sbiStep, State.path_foldl, implies_true]

@[simp] theorem State.path_commitReg (s : State) (a1 a2) : (State.commitReg s a1 a2).path = s.path := by
  simp only [State.commitReg, State.path_setReg]

@[simp] theorem State.path_commitBlock (s : State) (a1 a2) : (State.commitBlock s a1 a2).path = s.path := by
  unfold State.commitBlock
  refine State.path_foldl _ _ _ fun t k => ?_
  split
  · rfl
  · split
    · rfl
    · rw [State.path_commitReg]

@[simp] theorem State.path_strobeFlt (s : State)  : (State.strobeFlt s).1.path = s.path := by
  simp only [State.strobeFlt, State.path_modFlt, State.path_commitBlock]

@[simp] theorem State.path_strobeGpt (s : State)  : (State.strobeGpt s).1.path = s.path := by
  simp only [State.strobeGpt, State.path_commitBlock, State.path_setF, State.path_setPair, State.path_foldl, implies_true]

@[simp] theorem State.path_recapPort (s : State) (a1 a2) : (State.recapPort s a1 a2).path = s.path := by
  simp only [State.recapPort, State.path_with]

@[simp] theorem State.path_strobeHub (s : State)  : (State.strobeHub s).1.path = s.path := by
  unfold State.strobeHub
  repeat' first
    | with_reducible rfl
    | simp only [State.path_setF, State.path_commitBlock, State.path_recapPort, State.path_foldl, implies_true]
    | split

@[simp] theorem State.path_strobeKst (s : State)  : (State.strobeKst s).1.path = s.path := by
  simp only [State.strobeKst, State.path_commitBlock, State.path_setF]

@[simp] theorem State.path_strobeGate (s : State)  : (State.strobeGate s).1.path = s.path := by
  unfold State.strobeGate
  repeat' first
    | with_reducible rfl
    | simp only [State.path_commitBlock, State.path_setReg, State.path_setF, State.path_foldl, implies_true]
    | split

@[simp] theorem State.path_tellRej (s : State) (a1 a2 a3 a4) : (State.tellRej s a1 a2 a3 a4).path = s.path := by
  simp only [State.tellRej, State.path_setF]

@[simp] theorem State.path_strobeWtt (s : State)  : (State.strobeWtt s).1.path = s.path := by
  unfold State.strobeWtt
  repeat' first
    | with_reducible rfl
    | simp only [State.path_tellRej, State.path_modTbl]
    | split

@[simp] theorem State.path_dnMoved (s : State) (a1) : (State.dnMoved s a1).path = s.path := by
  simp only [State.dnMoved, State.path_modDn, State.path_with]

@[simp] theorem State.path_dnCommitted (s : State) (a1 a2) : (State.dnCommitted s a1 a2).path = s.path := by
  simp only [State.dnCommitted, State.path_modDn]

@[simp] theorem State.path_strobeDvt (s : State)  : (State.strobeDvt s).1.path = s.path := by
  unfold State.strobeDvt
  repeat' first
    | with_reducible rfl
    | simp only [State.path_tellRej, State.path_modTbl, State.path_dnCommitted, State.path_pollsStop, State.path_dnMoved, State.path_foldl, implies_true]
    | split

@[simp] theorem State.path_strobeWhole (s : State) (a1 a2) : (State.strobeWhole s a1 a2).1.path = s.path := by
  unfold State.strobeWhole
  repeat' first
    | with_reducible rfl
    | simp only [State.path_commitBlock]
    | split

@[simp] theorem State.path_strobeBit (s : State) (a1) : (State.strobeBit s a1).1.path = s.path := by
  unfold State.strobeBit
  repeat' first
    | with_reducible rfl
    | simp only [State.path_strobeFlt, State.path_strobeWhole, State.path_modPwr, State.path_strobeKst, State.path_strobeHub, State.path_strobeGpt,
        State.path_strobeWtt, State.path_strobeDvt, State.path_strobeGate]
    | split

@[simp] theorem State.path_commitMask (s : State) (a1) : (State.commitMask s a1).path = s.path := by
  unfold State.commitMask
  dsimp only
  rw [State.path_setF, State.path_setF, State.path_foldlF]
  intro b t x; dsimp only; split
  · exact State.path_strobeBit _ _
  · rfl

@[simp] theorem State.path_setMasked (s : State) (a1 a2 a3 a4) : (State.setMasked s a1 a2 a3 a4).path = s.path := by
  simp only [State.setMasked, State.path_setShadow, State.path_setReg]

@[simp] theorem State.path_setRecord (s : State) (a1) : (State.setRecord s a1).path = s.path := by
  unfold State.setRecord
  repeat' first
    | with_reducible rfl
    | simp only [State.path_modFlt, State.path_setMasked, apply_ite State.path, ite_self]
    | split

@[simp] theorem State.path_clearImgBits (s : State) : (State.clearImgBits s).path = s.path := by
  unfold State.clearImgBits
  rw [State.path_foldl, State.path_modFlt]
  intro t k
  split
  · rfl
  · rw [State.path_setMasked]

@[simp] theorem State.path_applyImage (s : State) (a1) : (State.applyImage s a1).path = s.path := by
  simp only [State.applyImage, State.path_setRecord, State.path_clearImgBits, State.path_modTbl, State.path_modImg, State.path_setF,
      State.path_foldl, implies_true]

@[simp] theorem State.path_slotResult (s : State) (a1 a2 a3 a4 a5) : (State.slotResult s a1 a2 a3 a4 a5).path = s.path := by
  simp only [State.slotResult, State.path_setReg, apply_ite State.path, ite_self]

@[simp] theorem State.path_bootSlot (s : State) (a1) : (State.bootSlot s a1).path = s.path := by
  simp only [State.bootSlot, State.path_modImg]

@[simp] theorem State.path_loadMs (s : State)  : (State.loadMs s).path = s.path := by
  simp only [State.loadMs, State.path_setF]

@[simp] theorem State.path_enterRescue (s : State)  : (State.enterRescue s).path = s.path := by
  simp only [State.enterRescue, State.path_loadMs, State.path_modImg, State.path_modPwr, State.path_modLink, State.path_setImg, State.path_avsStart,
      State.path_foldl, State.path_with, implies_true]

@[simp] theorem State.path_slotFails (s : State) (a1 a2 a3) : (State.slotFails s a1 a2 a3).path = s.path := by
  simp only [State.slotFails, State.path_raise, State.path_modImg, State.path_slotResult, State.path_enterRescue, State.path_bootSlot, apply_ite
      State.path, ite_self]

@[simp] theorem State.path_repairSub (s : State) (a1 a2) : (State.repairSub s a1 a2).path = s.path := by
  simp only [State.repairSub, State.path_addRepair, State.path_foldl, apply_ite State.path, ite_self, implies_true]

@[simp] theorem State.path_formSubs (s : State) (a1) : (State.formSubs s a1).path = s.path := by
  simp only [State.formSubs, State.path_modBst, State.path_raise, apply_ite State.path, ite_self]

@[simp] theorem State.path_formEngines (s : State) (a1 a2) : (State.formEngines s a1 a2).path = s.path := by
  simp only [State.formEngines, State.path_raise, State.path_with, apply_ite State.path, ite_self]

@[simp] theorem State.path_startTraining (s : State)  : (State.startTraining s).path = s.path := by
  simp only [State.startTraining, State.path_modLink, State.path_with]

@[simp] theorem State.path_commitImage (s : State)  : (State.commitImage s).path = s.path := by
  simp only [State.commitImage, State.path_setF, State.path_applyImage, State.path_modImg, State.path_modKst, State.path_modPwr,
      State.path_queueWake, State.path_startTraining, State.path_foldl, implies_true]

@[simp] theorem State.path_flashResult (s : State) (a1) : (State.flashResult s a1).path = s.path := by
  simp only [State.flashResult, State.path_setF]

@[simp] theorem State.path_flashCommand (s : State) (a1) : (State.flashCommand s a1).path = s.path := by
  simp only [State.flashCommand, State.path_setF, State.path_flashResult, State.path_modImg, apply_ite State.path, ite_self]

@[simp] theorem State.path_verifySlot (s : State) (a1 a2) : (State.verifySlot s a1 a2).path = s.path := by
  unfold State.verifySlot
  repeat' first
    | with_reducible rfl
    | simp only [State.path_slotResult, State.path_raise]
    | split

@[simp] theorem State.path_flashDone (s : State) (a1 a2 a3 a4 a5) : (State.flashDone s a1 a2 a3 a4 a5).path = s.path := by
  unfold State.flashDone
  repeat' first
    | with_reducible rfl
    | simp only [State.path_modImg, State.path_flashResult, State.path_setReg, State.path_emit, State.path_verifySlot, State.path_foldl, apply_ite
        State.path, ite_self, implies_true]
    | split

@[simp] theorem State.path_bootCfg (s : State) (a1) : (State.bootCfg s a1).path = s.path := by
  simp only [State.bootCfg, State.path_modImg]

@[simp] theorem State.path_setCommand (s : State) (a1) : (State.setCommand s a1).path = s.path := by
  unfold State.setCommand
  repeat' first
    | with_reducible rfl
    | simp only [State.path_modImg, State.path_modBst]
    | split

@[simp] theorem State.path_svnCommand (s : State) (a1) : (State.svnCommand s a1).path = s.path := by
  simp only [State.svnCommand, State.path_setF, State.path_draw, State.path_modImg, apply_ite State.path, ite_self]

@[simp] theorem State.path_settingsFail (s : State)  : (State.settingsFail s).path = s.path := by
  simp only [State.settingsFail, State.path_raise, State.path_incF, State.path_setF, State.path_modImg]

@[simp] theorem State.path_settingsGood (s : State) (a1) : (State.settingsGood s a1).path = s.path := by
  simp only [State.settingsGood, State.path_modBst, State.path_incF, State.path_modImg]

@[simp] theorem State.path_settingsWrite (s : State)  : (State.settingsWrite s).path = s.path := by
  simp only [State.settingsWrite, State.path_captureSeeds, State.path_emit, State.path_modImg, State.path_foldl, implies_true]

theorem State.path_execFuseSense (s : State) (a1) : ∀ t, (execFuseSense a1 s) = .next t → t.path = s.path := by
  intro t h
  unfold execFuseSense at h
  rw [← Host.Outcome.next.inj h]; simp only [State.path_start, State.path_setF, State.path_setPair, State.path_modBst, State.path_modImg,
      State.path_raise, State.path_emit, State.path_modFlt, apply_ite State.path, ite_self]

theorem State.path_execFlashDiscovery (s : State) (a1) : ∀ t, (execFlashDiscovery a1 s) = .next t → t.path = s.path := by
  intro t h
  unfold execFlashDiscovery at h
  rw [← Host.Outcome.next.inj h]; simp only [State.path_start, State.path_modImg, State.path_setF, apply_ite State.path, ite_self]

theorem State.path_execSettingsRead (s : State) (a1 a2) : ∀ t, (execSettingsRead a1 a2 s) = .next t → t.path = s.path := by
  intro t h
  unfold execSettingsRead at h
  rw [← Host.Outcome.next.inj h]; simp only [State.path_start, State.path_modBst, State.path_modImg, State.path_bootSlot, State.path_slotFails,
      apply_ite State.path, ite_self]

theorem State.path_execSlotFetch (s : State) (a1) : ∀ t, (execSlotFetch a1 s) = .next t → t.path = s.path := by
  intro t h
  unfold execSlotFetch at h
  try dsimp only at h
  rw [← Host.Outcome.next.inj h]
  repeat' first
    | with_reducible rfl
    | simp only [State.path_start, State.path_slotFails, State.path_modImg, apply_ite State.path]
    | split

theorem State.path_execSlotChecks (s : State)  : ∀ t, (execSlotChecks s) = .next t → t.path = s.path := by
  intro t h
  unfold execSlotChecks at h
  try dsimp only at h
  rw [← Host.Outcome.next.inj h]
  repeat' first
    | with_reducible rfl
    | simp only [State.path_start, State.path_slotFails, State.path_modImg, State.path_slotResult, apply_ite State.path]
    | split

theorem State.path_execLoadCoreVoltage (s : State)  : ∀ t, (execLoadCoreVoltage s) = .next t → t.path = s.path := by
  intro t h
  unfold execLoadCoreVoltage at h
  rw [← Host.Outcome.next.inj h]; simp only [State.path_start, State.path_setMasked, State.path_setF, State.path_modImg, State.path_avsStart,
      apply_ite State.path, ite_self]

theorem State.path_execLoadBist (s : State) (a1) : ∀ t, (execLoadBist a1 s) = .next t → t.path = s.path := by
  intro t h
  unfold execLoadBist at h
  rw [← Host.Outcome.next.inj h]; simp only [State.path_start, State.path_modImg, State.path_repairSub, State.path_addRepair,
      State.path_formEngines, State.path_formSubs, State.path_foldl, apply_ite State.path, ite_self, implies_true]

theorem State.path_execLoadCommit (s : State)  : ∀ t, (execLoadCommit s) = .next t → t.path = s.path := by
  intro t h
  unfold execLoadCommit at h
  rw [← Host.Outcome.next.inj h]; simp only [State.path_start, State.path_commitImage, apply_ite State.path, ite_self]

theorem State.path_execLoadEnd (s : State)  : ∀ t, (execLoadEnd s) = .next t → t.path = s.path := by
  intro t h
  unfold execLoadEnd at h
  rw [← Host.Outcome.next.inj h]; simp only [State.path_start, State.path_loadMs, State.path_modImg, State.path_with, apply_ite State.path,
      ite_self]

theorem State.path_execFlashCmdComplete (s : State) (a1 a2) : ∀ t, (execFlashCmdComplete a1 a2 s) = .next t → t.path = s.path := by
  intro t h
  unfold execFlashCmdComplete at h
  try dsimp only at h
  rw [← Host.Outcome.next.inj h]
  repeat' first
    | with_reducible rfl
    | simp only [State.path_start, State.path_flashDone, apply_ite State.path, ite_self]
    | split

theorem State.path_execSettingsWriteStart (s : State)  : ∀ t, (execSettingsWriteStart s) = .next t → t.path = s.path := by
  intro t h
  unfold execSettingsWriteStart at h
  rw [← Host.Outcome.next.inj h]; simp only [State.path_start, State.path_settingsWrite, apply_ite State.path, ite_self]

theorem State.path_execSettingsWriteDone (s : State) (a1) : ∀ t, (execSettingsWriteDone a1 s) = .next t → t.path = s.path := by
  intro t h
  unfold execSettingsWriteDone at h
  try dsimp only at h
  rw [← Host.Outcome.next.inj h]
  repeat' first
    | with_reducible rfl
    | simp only [State.path_start, State.path_settingsGood, State.path_settingsFail, apply_ite State.path, ite_self]
    | split

theorem State.path_execSettingsWriteTimeout (s : State)  : ∀ t, (execSettingsWriteTimeout s) = .next t → t.path = s.path := by
  intro t h
  unfold execSettingsWriteTimeout at h
  rw [← Host.Outcome.next.inj h]; simp only [State.path_start, State.path_settingsFail, apply_ite State.path, ite_self]

theorem State.path_execSvnBurnComplete (s : State) (a1) : ∀ t, (execSvnBurnComplete a1 s) = .next t → t.path = s.path := by
  intro t h
  unfold execSvnBurnComplete at h
  try dsimp only at h
  rw [← Host.Outcome.next.inj h]
  repeat' first
    | with_reducible rfl
    | simp only [State.path_start, State.path_runAtLast, State.path_modImg, State.path_setF]
    | split

@[simp] theorem State.path_peek (s : State) (a1 a2) : (State.peek s a1 a2).2.path = s.path := by
  unfold State.peek
  repeat' first
    | with_reducible rfl
    | simp only [State.path_draw]
    | split

@[simp] theorem State.path_clearHeld (s : State) (a1) : (State.clearHeld s a1).path = s.path := by
  unfold State.clearHeld
  repeat' first
    | with_reducible rfl
    | simp only [State.path_modHub, State.path_modInst, State.path_modFlt, State.path_modGate, State.path_modKst, apply_ite State.path, ite_self]
    | split

@[simp] theorem State.path_clearRc (s : State) (a1 a2) : (State.clearRc s a1 a2).path = s.path := by
  simp only [State.clearRc, State.path_clearHeld, State.path_setReg, apply_ite State.path, ite_self]

@[simp] theorem State.path_readReg (s : State) (a1 a2) : (State.readReg s a1 a2).2.path = s.path := by
  unfold State.readReg
  repeat' first
    | with_reducible rfl
    | simp only [State.path_peek, State.path_clearRc, State.path_with]
    | split

@[simp] theorem State.path_peekWord (s : State) (a1) : (State.peekWord s a1).2.path = s.path := by
  unfold State.peekWord
  repeat' first
    | with_reducible rfl
    | simp only [State.path_peek]
    | split

@[simp] theorem State.path_readAlias (s : State) (a1 a2) : (State.readAlias s a1 a2).2.path = s.path := by
  unfold State.readAlias
  repeat' first
    | with_reducible rfl
    | simp only [State.path_peek]
    | split

@[simp] theorem State.path_readWord (s : State) (a1) : (State.readWord s a1).2.path = s.path := by
  unfold State.readWord
  repeat' first
    | with_reducible rfl
    | simp only [State.path_readReg, State.path_readAlias, State.path_peekWord]
    | split

@[simp] theorem State.path_readBytes (s : State) (a1 a2 a3) : (State.readBytes s a1 a2 a3).2.path = s.path := by
  unfold State.readBytes
  repeat' first
    | with_reducible rfl
    | simp only [State.path_peekWord, State.path_readWord]
    | split

@[simp] theorem State.path_setJnlData (s : State) (a1) : (State.setJnlData s a1).path = s.path := by
  simp only [State.setJnlData, State.path_setReg, State.path_foldl, implies_true]

@[simp] theorem State.path_rawWord (s : State) (a1 a2 a3) : (State.rawWord a1 a2 s a3).2.path = s.path := by
  unfold State.rawWord
  repeat' first
    | with_reducible rfl
    | simp only [State.path_draw]
    | split

@[simp] theorem State.path_jnlLoad (s : State) (a1) : (State.jnlLoad s a1).path = s.path := by
  have hc : (([0, 1, 2] : List Nat).foldl (fun s w => s.jnlCheck a1 w) s).path = s.path :=
    State.path_foldl _ _ _ fun s w => State.path_jnlCheck _ _ _
  unfold State.jnlLoad
  dsimp only
  split
  · rw [State.path_setJnlData, State.path_setF]; exact hc
  · rw [State.path_setJnlData, State.path_foldlP, State.path_setF]
    · exact hc
    · intro b t w; exact State.path_rawWord _ _ _ _

@[simp] theorem State.path_jnlReport (s : State) (a1 a2) : (State.jnlReport s a1 a2).path = s.path := by
  unfold State.jnlReport
  repeat' first
    | with_reducible rfl
    | simp only [State.path_gateReport]
    | split

@[simp] theorem State.path_jnlDenied (s : State) (a1 a2) : (State.jnlDenied s a1 a2).path = s.path := by
  simp only [State.jnlDenied, State.path_setReg, State.path_jnlLoad, State.path_foldl, apply_ite State.path, ite_self, implies_true]

@[simp] theorem State.path_jnlRead (s : State) (a1) : (State.jnlRead s a1).path = s.path := by
  unfold State.jnlRead
  repeat' first
    | with_reducible rfl
    | simp only [State.path_setJnlData, State.path_setF, State.path_jnlLoad, State.path_jnlReport, State.path_jnlDenied]
    | split

@[simp] theorem State.path_scanStart (s : State) (a1) : (State.scanStart s a1).path = s.path := by
  unfold State.scanStart
  repeat' first
    | with_reducible rfl
    | simp only [State.path_modJnl, State.path_jnlReport]
    | split

@[simp] theorem State.path_scanEnd (s : State) (a1) : (State.scanEnd s a1).path = s.path := by
  unfold State.scanEnd
  repeat' first
    | with_reducible rfl
    | simp only [State.path_jnlReport, State.path_modJnl, State.path_jnlLoad, State.path_setF]
    | split

@[simp] theorem State.path_jnlCommand (s : State) (a1 a2) : (State.jnlCommand s a1 a2).path = s.path := by
  unfold State.jnlCommand
  repeat' first
    | with_reducible rfl
    | simp only [State.path_jnlRead, State.path_scanStart, State.path_modJnl, apply_ite State.path, ite_self]
    | split

theorem State.path_execScanDone (s : State)  : ∀ t, (execScanDone s) = .next t → t.path = s.path := by
  intro t h
  unfold execScanDone at h
  try dsimp only at h
  rw [← Host.Outcome.next.inj h]
  repeat' first
    | with_reducible rfl
    | simp only [State.path_start, State.path_scanEnd]
    | split

@[simp] theorem State.path_putRw (s : State) (a1 a2 a3 a4) : (State.putRw s a1 a2 a3 a4).path = s.path := by
  simp only [State.putRw, State.path_setReg, apply_ite State.path, ite_self]

@[simp] theorem State.path_putRws (s : State) (a1 a2 a3 a4) : (State.putRws s a1 a2 a3 a4).path = s.path := by
  simp only [State.putRws, State.path_setShadow, apply_ite State.path, ite_self]

@[simp] theorem State.path_store (s : State) (a1 a2 a3) : (State.store s a1 a2 a3).path = s.path := by
  simp only [State.store, State.path_putRws, State.path_putRw]

@[simp] theorem State.path_qpEnable (s : State) (a1) : (State.qpEnable s a1).path = s.path := by
  have hp (t : State) (m) : State.path { t with ctxs := m } = t.path := rfl
  unfold State.qpEnable
  refine State.path_ite (fun _ => ?_) (fun _ => ?_)
  · simp only [State.path_setF]
  · dsimp only
    rw [State.path_modQp, hp]
    simp only [State.path_setF]

@[simp] theorem State.path_writeQCfg (s : State) (a1 a2) : (State.writeQCfg s a1 a2).path = s.path := by
  unfold State.writeQCfg
  repeat' first
    | with_reducible rfl
    | simp only [State.path_putRw, State.path_qpEnable, State.path_qpDrained, State.path_setF, apply_ite State.path, ite_self]
    | split

@[simp] theorem State.path_writeSqDb (s : State) (a1 a2) : (State.writeSqDb s a1 a2).path = s.path := by
  simp only [State.writeSqDb, State.path_setF, State.path_modQp, State.path_raisePass, apply_ite State.path, ite_self]

@[simp] theorem State.path_cqEventNow (s : State) (a1) : (State.cqEventNow s a1).path = s.path := by
  simp only [State.cqEventNow, State.path_cqEvent, apply_ite State.path, ite_self]

@[simp] theorem State.path_qpResume (s : State) (a1) : (State.qpResume s a1).path = s.path := by
  simp only [State.qpResume, State.path_setF, State.path_completion, State.path_modQp, State.path_cqEventNow, State.path_raisePass,
      State.path_qpDrained, State.path_foldl, apply_ite State.path, ite_self, implies_true]

@[simp] theorem State.path_writeCqDb (s : State) (a1 a2) : (State.writeCqDb s a1 a2).path = s.path := by
  simp only [State.writeCqDb, State.path_setF, State.path_modQp, State.path_cqEventNow, apply_ite State.path, ite_self]

@[simp] theorem State.path_writePelCfg (s : State) (a1 a2) : (State.writePelCfg s a1 a2).path = s.path := by
  simp only [State.writePelCfg, State.path_store, State.path_setF, apply_ite State.path, ite_self]

@[simp] theorem State.path_writePelHead (s : State) (a1 a2) : (State.writePelHead s a1 a2).path = s.path := by
  simp only [State.writePelHead, State.path_setF, apply_ite State.path, ite_self]

@[simp] theorem State.path_pelGoOn (s : State) (a1) : (State.pelGoOn s a1).path = s.path := by
  simp only [State.pelGoOn, State.path_noticeWrite, State.path_setF, apply_ite State.path, ite_self]

@[simp] theorem State.path_fenceStart (s : State) (a1 a2) : (State.fenceStart s a1 a2).path = s.path := by
  simp only [State.fenceStart, State.path_modPel, State.path_setF]

@[simp] theorem State.path_instAttn (s : State) (a1 a2 a3) : (State.instAttn s a1 a2 a3).path = s.path := by
  simp only [State.instAttn, State.path_incF, State.path_unmute, State.path_ackWrite, apply_ite State.path, ite_self]

@[simp] theorem State.path_portUnmute (s : State) (a1 a2) : (State.portUnmute s a1 a2).path = s.path := by
  unfold State.portUnmute
  repeat' first
    | with_reducible rfl
    | simp only [State.path_unmute]
    | split

@[simp] theorem State.path_sbiUnmute (s : State) (a1) : (State.sbiUnmute s a1).path = s.path := by
  simp only [State.sbiUnmute, State.path_unmute, State.path_foldl, apply_ite State.path, ite_self, implies_true]

@[simp] theorem State.path_wttDrop (s : State)  : (State.wttDrop s).path = s.path := by
  simp only [State.wttDrop, State.path_modTbl, State.path_tellRej]

@[simp] theorem State.path_dvtDrop (s : State)  : (State.dvtDrop s).path = s.path := by
  simp only [State.dvtDrop, State.path_modTbl, State.path_tellRej]

@[simp] theorem State.path_tblDiscard (s : State) (a1) : (State.tblDiscard s a1).path = s.path := by
  simp only [State.tblDiscard, State.path_wttDrop, State.path_dvtDrop, apply_ite State.path, ite_self]

@[simp] theorem State.path_tblBarrier (s : State)  : (State.tblBarrier s).path = s.path := by
  simp only [State.tblBarrier, State.path_modTbl, State.path_setF]

@[simp] theorem State.path_writeMgtCfg (s : State) (a1) : (State.writeMgtCfg s a1).path = s.path := by
  simp only [State.writeMgtCfg, State.path_store, State.path_mgtFetch, State.path_modMgt, apply_ite State.path, ite_self]

@[simp] theorem State.path_writeMgtDb (s : State) (a1) : (State.writeMgtDb s a1).path = s.path := by
  simp only [State.writeMgtDb, State.path_setF, State.path_mgtFetch, apply_ite State.path, ite_self]

@[simp] theorem State.path_writeKld (s : State) (a1 a2 a3) : (State.writeKld s a1 a2 a3).path = s.path := by
  simp only [State.writeKld, State.path_setF, State.path_keyCommand, apply_ite State.path, ite_self]

@[simp] theorem State.path_writePort (s : State) (a1 a2 a3) : (State.writePort s a1 a2 a3).path = s.path := by
  unfold State.writePort
  repeat' first
    | with_reducible rfl
    | simp only [State.path_leaveUp, State.path_ackWrite, State.path_portUnmute, apply_ite State.path, ite_self]
    | split

@[simp] theorem State.path_keyFail (s : State) (a1 a2) : (State.keyFail s a1 a2).path = s.path := by
  have hp (t : State) (m) : State.path { t with cmp := m } = t.path := rfl
  unfold State.keyFail
  extract_lets u
  have hu : u.path = s.path := by simp only [u, State.path_setF, State.path_incF]
  clear_value u
  rw [apply_ite State.path, hp, ite_self, hu]

@[simp] theorem State.path_keyEffect (s : State) (a1 a2 a3) : (State.keyEffect s a1 a2 a3).path = s.path := by
  unfold State.keyEffect
  repeat' first
    | with_reducible rfl
    | simp only [State.path_modeRequest, State.path_putRw, State.path_kekCommand, State.path_incF, State.path_setF, State.path_chkExercise,
        State.path_fuseCommand, State.path_bootCfg, State.path_setCommand, State.path_svnCommand, State.path_with, apply_ite State.path, ite_self]
    | split

@[simp] theorem State.path_smbAnswer (s : State) (a1 a2) : (State.smbAnswer s a1 a2).path = s.path := by
  unfold State.smbAnswer
  repeat' first
    | with_reducible rfl
    | simp only [State.path_modKst, State.path_emit, State.path_draw, apply_ite State.path]
    | split

@[simp] theorem State.path_tapAnswer (s : State) (a1 a2) : (State.tapAnswer s a1 a2).path = s.path := by
  unfold State.tapAnswer
  repeat' first
    | with_reducible rfl
    | simp only [State.path_with]
    | split

@[simp] theorem State.path_respond (s : State) (a1 a2) : (State.respond s a1 a2).path = s.path := by
  unfold State.respond
  repeat' first
    | with_reducible rfl
    | simp only [State.path_emit, State.path_handTx, State.path_smbAnswer, State.path_tapAnswer, apply_ite State.path, ite_self]
    | split

@[simp] theorem State.path_bcsRefuse (s : State) (a1 a2) : (State.bcsRefuse s a1 a2).path = s.path := by
  simp only [State.bcsRefuse, State.path_setF, State.path_raise, State.path_respond, apply_ite State.path, ite_self]

@[simp] theorem State.path_leaveBuffer (s : State) (a1) : (State.leaveBuffer s a1).path = s.path := by
  unfold State.leaveBuffer
  repeat' first
    | with_reducible rfl
    | simp only [State.path_modLink, apply_ite State.path, ite_self]
    | split

@[simp] theorem State.path_bcsWakes (s : State) (a1) : (State.bcsWakes s a1).path = s.path := by
  simp only [State.bcsWakes, State.path_exitSeen, apply_ite State.path, ite_self]

theorem State.path_execTblBarrierDone (s : State)  : ∀ t, (execTblBarrierDone s) = .next t → t.path = s.path := by
  intro t h
  unfold execTblBarrierDone at h
  rw [← Host.Outcome.next.inj h]; simp only [State.path_start, State.path_modTbl, State.path_setF, apply_ite State.path, ite_self]

theorem State.path_execGateBarrierDone (s : State)  : ∀ t, (execGateBarrierDone s) = .next t → t.path = s.path := by
  intro t h
  unfold execGateBarrierDone at h
  rw [← Host.Outcome.next.inj h]; simp only [State.path_start, State.path_setF, apply_ite State.path, ite_self]

@[simp] theorem State.path_smbBadPec (s : State)  : (State.smbBadPec s).path = s.path := by
  simp only [State.smbBadPec, State.path_incF, State.path_emit]

@[simp] theorem State.path_setSmbRes (s : State) (a1) : (State.setSmbRes s a1).path = s.path := by
  simp only [State.setSmbRes, State.path_modKst]

theorem State.path_execAlertResponseAddress (s : State)  : ∀ t, (execAlertResponseAddress s) = .next t → t.path = s.path := by
  intro t h
  unfold execAlertResponseAddress at h
  rw [← Host.Outcome.next.inj h]; simp only [State.path_start, State.path_modKst, State.path_emit, apply_ite State.path, ite_self]

theorem State.path_execSmbusUnknownCommand (s : State) (a1) : ∀ t, (execSmbusUnknownCommand a1 s) = .next t → t.path = s.path := by
  intro t h
  unfold execSmbusUnknownCommand at h
  rw [← Host.Outcome.next.inj h]; simp only [State.path_start, State.path_incF, State.path_emit, apply_ite State.path, ite_self]

@[simp] theorem State.path_loadIr (s : State) (a1) : (State.loadIr s a1).path = s.path := by
  simp only [State.loadIr, State.path_emit, State.path_with, apply_ite State.path, ite_self]

theorem State.path_execExtest (s : State)  : ∀ t, (execExtest s) = .next t → t.path = s.path := by
  intro t h
  unfold execExtest at h
  rw [← Host.Outcome.next.inj h]; simp only [State.path_loadIr, State.path_start]

theorem State.path_execIdcode (s : State)  : ∀ t, (execIdcode s) = .next t → t.path = s.path := by
  intro t h
  unfold execIdcode at h
  rw [← Host.Outcome.next.inj h]; simp only [State.path_loadIr, State.path_start]

theorem State.path_execSamplePreload (s : State)  : ∀ t, (execSamplePreload s) = .next t → t.path = s.path := by
  intro t h
  unfold execSamplePreload at h
  rw [← Host.Outcome.next.inj h]; simp only [State.path_loadIr, State.path_start]

theorem State.path_execExtestPulse (s : State)  : ∀ t, (execExtestPulse s) = .next t → t.path = s.path := by
  intro t h
  unfold execExtestPulse at h
  rw [← Host.Outcome.next.inj h]; simp only [State.path_loadIr, State.path_start]

theorem State.path_execExtestTrain (s : State)  : ∀ t, (execExtestTrain s) = .next t → t.path = s.path := by
  intro t h
  unfold execExtestTrain at h
  rw [← Host.Outcome.next.inj h]; simp only [State.path_loadIr, State.path_start]

theorem State.path_execClamp (s : State)  : ∀ t, (execClamp s) = .next t → t.path = s.path := by
  intro t h
  unfold execClamp at h
  rw [← Host.Outcome.next.inj h]; simp only [State.path_loadIr, State.path_start]

theorem State.path_execHighz (s : State)  : ∀ t, (execHighz s) = .next t → t.path = s.path := by
  intro t h
  unfold execHighz at h
  rw [← Host.Outcome.next.inj h]; simp only [State.path_loadIr, State.path_start]

theorem State.path_execBypass (s : State) (a1) : ∀ t, (execBypass a1 s) = .next t → t.path = s.path := by
  intro t h
  unfold execBypass at h
  rw [← Host.Outcome.next.inj h]; simp only [State.path_start, State.path_loadIr, apply_ite State.path, ite_self]

theorem State.path_execTrstNAssert (s : State)  : ∀ t, (execTrstNAssert s) = .next t → t.path = s.path := by
  intro t h
  unfold execTrstNAssert at h
  rw [← Host.Outcome.next.inj h]; simp only [State.path_start, State.path_with]

@[simp] theorem State.path_landRead (s : State) (a1) : (State.landRead s a1).2.path = s.path := by
  simp only [State.landRead, State.path_draw]

end Sys2Proof.Machine
end

