-- ==== Sys2Proof/Laws/Form.lean ====
section
/-! SUPPORT. The BCS operations that act on the register path: each keeps its form (`State.inForm`) and takes no command from the queue. -/

namespace Sys2Proof.Machine.State

/-- The form of the register path is kept; the queue of commands and the crossing are as before, and a strobe in progress goes on. -/
def formKept (s t : State) : Prop :=
  (s.inForm → t.inForm) ∧ t.pending = s.pending ∧ t.slowQ = s.slowQ ∧ (s.strobe.mask.isSome → t.strobe.mask.isSome)

theorem formKept_refl (s : State) : s.formKept s := ⟨id, rfl, rfl, id⟩
theorem formKept.trans {s t u : State} (h : s.formKept t) (g : t.formKept u) : s.formKept u := 
  ⟨g.1 ∘ h.1, g.2.1.trans h.2.1, g.2.2.1.trans h.2.2.1, g.2.2.2 ∘ h.2.2.2⟩
theorem formKept_of_path {s t : State} (h : t.path = s.path) : s.formKept t :=
  ⟨(inForm_congr h).mpr, congrArg Path.pending h, congrArg Path.slowQ h, fun m => by rw [show t.strobe = s.strobe from congrArg Path.strobe h]; exact m⟩

theorem formKept_strobeStart (s : State) (v : Word) : s.formKept (s.strobeStart v) := by
  unfold strobeStart
  split
  · exact formKept_of_path (path_setF _ _ _ _)
  · refine ⟨fun ⟨h1, h2, h3, _, _, h6⟩ => ⟨h1, h2, h3, ?_, ?_, h6⟩, rfl, rfl, fun _ => rfl⟩
    · intro m hm
      rw [← Option.some.inj hm]
      exact Nat.mod_lt _ (by decide)
    · intro hm; cases hm

/-- A map of pending halves with sorted keys may replace the old one. -/
theorem formKept_keyPend (s : State) {m : FMap KeyPend} (h : FMap.sorted s.keyPend = true → FMap.sorted m = true) :
    s.formKept { s with keyPend := m } :=
  ⟨fun ⟨h1, h2, h3, h4, h5, h6, h7⟩ => ⟨h1, h2, h3, h4, h5, h h6, h7⟩, rfl, rfl, id⟩

theorem formKept_writeEffect (s : State) (a : Acc) (id : RegId) (i : Nat) (v : Word) : s.formKept (s.writeEffect a id i v) := by
  unfold writeEffect
  split
  all_goals first
    | exact formKept_strobeStart _ _
    | (refine formKept_of_path ?_; simp; done)
    | (refine formKept_of_path ?_; split <;> simp)

theorem strobeStart_isSome (s : State) (v : Word) : (s.strobeStart v).strobe.mask.isSome := by
  unfold strobeStart
  split
  · next h => rw [show (s.setF Fld.updErr_overrun 1).strobe = s.strobe from congrArg Path.strobe (path_setF s Fld.updErr_overrun 1 0)]; exact h
  · rfl

theorem formKept_writeReg (s : State) (a : Acc) (id : RegId) (i : Nat) (v : Word) (viol : Bool) : s.formKept (s.writeReg a id i v viol) := by
  unfold writeReg
  extract_lets u
  exact (formKept_of_path (by simp only [u, apply_ite State.path, path_lockViol, ite_self])).trans (formKept_writeEffect _ _ _ _ _)

theorem formKept_writeAlias (s : State) (a : Acc) (k : AliasKind) (id : RegId) (i : Nat) (v : Word) (viol : Bool) :
    s.formKept (s.writeAlias a k id i v viol) := by
  unfold writeAlias
  split
  · exact formKept_refl s
  · exact formKept_writeReg _ _ _ _ _ _

theorem formKept_breakPending (s : State) (base : Nat) : s.formKept (s.breakPending base) := by
  unfold breakPending
  split
  · exact formKept_refl s
  · exact (formKept_keyPend s (FMap.sorted_del base)).trans (formKept_of_path (path_keyFail _ _ _))

theorem formKept_keyStray (s : State) (a : Acc) (base off : Nat) (first : Bool) : s.formKept (s.keyStray a base off first) := by
  unfold keyStray
  extract_lets u
  have hu : s.formKept u := by
    unfold u
    split
    · split
      · exact formKept_breakPending _ _
      · exact formKept_keyPend s (FMap.sorted_del base)
    · exact formKept_refl s
  exact hu.trans (formKept_of_path (path_keyFail _ _ _))

theorem formKept_keyFirst (s : State) (a : Acc) (base off : Nat) (v : Word) : s.formKept (s.keyFirst a base off v) :=
  (formKept_breakPending s base).trans (formKept_keyPend _ (FMap.sorted_put base _))

theorem formKept_keySecond (s : State) (a : Acc) (base : Nat) (id : RegId) (i : Nat) (v : Word) : s.formKept (s.keySecond a base id i v) := by
  unfold keySecond
  extract_lets off
  split
  · exact formKept_of_path (path_keyFail _ _ _)
  · split
    · exact (formKept_breakPending _ _).trans (formKept_of_path (path_keyFail _ _ _))
    · refine (formKept_keyPend s (FMap.sorted_del base)).trans (formKept_of_path ?_)
      split
      · exact path_keyFail _ _ _
      · split
        · exact path_keyFail _ _ _
        · exact path_keyEffect _ _ _ _

theorem formKept_writeWord (s : State) (a : Acc) (off : Nat) (v : Word) (viol : Bool) : s.formKept (s.writeWord a off v viol) := by
  unfold writeWord
  extract_lets base
  split
  · split
    · split
      · exact formKept_keyStray _ _ _ _ _
      · exact formKept_keyFirst _ _ _ _ _
    · split
      · exact (formKept_breakPending _ _).trans (formKept_writeReg _ _ _ _ _ _)
      · split
        · exact formKept_of_path (path_setF _ _ _ _)
        · exact formKept_refl s
  · split
    · exact formKept_keyStray _ _ _ _ _
    · split
      · exact (formKept_breakPending _ _).trans (formKept_writeAlias _ _ _ _ _ _ _)
      · exact formKept_of_path (path_setF _ _ _ _)
  · split
    · exact formKept_keyStray _ _ _ _ _
    · exact formKept_keySecond _ _ _ _ _ _
  · exact formKept_keyStray _ _ _ _ _
  all_goals exact formKept_refl s

theorem formKept_bcsWrite (s : State) (r : BcsReq) : s.formKept (s.bcsWrite r) := by
  unfold bcsWrite
  split
  · exact formKept_of_path (path_wttWrite _ _ _ _)
  · exact formKept_of_path (path_dvtWrite _ _ _ _)
  · extract_lets v t
    split
    · exact (formKept_writeWord _ _ _ _ _).trans (formKept_writeWord _ _ _ _ _)
    · exact formKept_writeWord _ _ _ _ _

/-- A write of UPD_STROBE that is performed leaves a strobe in progress. -/
theorem bcsWrite_strobe (s : State) (r : BcsReq) (h : isStrobe r = true) : (s.bcsWrite r).strobe.mask.isSome := by
  obtain ⟨_, i, ht⟩ : r.wr = true ∧ ∃ i, targetAt r.off = .reg .updStrobe i := by
    unfold isStrobe at h
    split at h
    · rename_i i e; exact ⟨by simpa using h, i, e⟩
    · simp at h
  have hs : ∀ v viol, (s.writeWord r.acc r.off v viol).strobe.mask.isSome := by
    intro v viol
    unfold writeWord
    rw [ht]
    have hr : s.reaches r.acc .updStrobe i = true := rfl
    simp only [hr, show RegId.updStrobe.row.keyed = false from rfl]
    simp only [Bool.false_eq_true, if_false, if_true]
    unfold writeReg writeEffect
    exact strobeStart_isSome _ _
  unfold bcsWrite
  rw [ht]
  dsimp only
  split
  · exact (formKept_writeWord _ _ _ _ _).2.2.2 (hs _ _)
  · exact hs _ _

/-- As `formKept`, where the crossing or the waiting accesses may change. -/
def bcsKept (s t : State) : Prop := (s.inForm → t.inForm) ∧ t.pending = s.pending

theorem bcsKept.trans {s t u : State} (h : s.bcsKept t) (g : t.bcsKept u) : s.bcsKept u := ⟨g.1 ∘ h.1, g.2.trans h.2⟩
theorem bcsKept_of_formKept {s t : State} (h : s.formKept t) : s.bcsKept t := ⟨h.1, h.2.1⟩
theorem bcsKept_of_path {s t : State} (h : t.path = s.path) : s.bcsKept t := bcsKept_of_formKept (formKept_of_path h)

theorem bcsKept_finishBcs (s : State) (r : BcsReq) (res : BcsRes) (h : ∀ b, reqBlock r = some b → slowBlock b = true → s.slowQ.length < 32) :
    s.bcsKept (s.finishBcs r res) := by
  unfold finishBcs
  split
  · next b hb =>
    split
    · next hs =>
      have hl := h b hb hs
      refine ⟨fun ⟨h1, _, h3, h4⟩ => ⟨h1, ?_, ?_, h4⟩, rfl⟩
      · rw [List.length_append]; exact Nat.succ_le_of_lt hl
      · intro x hx
        rcases List.mem_append.mp hx with hx | hx
        · exact h3 x hx
        · rw [List.mem_singleton.mp hx]; exact ⟨b, hb, hs⟩
    · exact bcsKept_of_path (path_respond _ _ _)
  · exact bcsKept_of_path (path_respond _ _ _)

theorem bcsKept_bcsPerform (s : State) (r : BcsReq) (h : ∀ b, reqBlock r = some b → slowBlock b = true → s.slowQ.length < 32) :
    s.bcsKept (s.bcsPerform r) := by
  unfold bcsPerform
  split
  · extract_lets u
    have hu : s.formKept u := formKept_bcsWrite _ _
    split
    · next hs =>
      refine (bcsKept_of_formKept hu).trans ⟨fun ⟨h1, h2, h3, h4, _, h6⟩ => ⟨h1, h2, h3, h4, fun hm => ?_, h6⟩, rfl⟩
      have := bcsWrite_strobe s r hs.1
      rw [show (s.bcsWrite r).strobe.mask = none from hm] at this
      cases this
    · exact (bcsKept_of_formKept hu).trans (bcsKept_finishBcs _ _ _ fun b hb hs => by rw [hu.2.2.1]; exact h b hb hs)
  · extract_lets x
    have hx : x.2.path = s.path := path_readBytes _ _ _ _
    exact (bcsKept_of_path hx).trans (bcsKept_finishBcs _ _ _ fun b hb hs => by
      rw [show x.2.slowQ = s.slowQ from congrArg Path.slowQ hx]; exact h b hb hs)

theorem bcsKept_bcsDenied (s : State) (r : BcsReq) (h : ∀ b, reqBlock r = some b → slowBlock b = true → s.slowQ.length < 32) :
    s.bcsKept (s.bcsDenied r) := by
  unfold bcsDenied
  split
  · exact bcsKept_finishBcs _ _ _ h
  · extract_lets x
    have hx : x.2.path = s.path := path_readBytes _ _ _ _
    exact (bcsKept_of_path hx).trans (bcsKept_finishBcs _ _ _ fun b hb hs => by
      rw [show x.2.slowQ = s.slowQ from congrArg Path.slowQ hx]; exact h b hb hs)

/-- An access that need not wait finds room in the crossing, where it needs it. -/
theorem room_of_mustWait {s : State} {before : List BcsReq} {r : BcsReq} (h : s.mustWait before r = false) (hf : formCause r = none) :
    ∀ b, reqBlock r = some b → slowBlock b = true → s.slowQ.length < 32 := by
  intro b hb hs
  unfold mustWait selfHeld at h
  rw [hf, hb] at h
  simp only [hs, Bool.or_eq_false_iff, Bool.and_eq_false_iff, Bool.true_and] at h
  rcases h.2 with h | h
  · cases h
  · simpa using h.1.2

theorem bcsKept_bcsDo (s : State) {before : List BcsReq} {r : BcsReq} (h : s.mustWait before r = false) : s.bcsKept (s.bcsDo r) := by
  unfold bcsDo
  extract_lets u
  have hu : u.path = s.path := path_leaveBuffer _ _
  refine (bcsKept_of_path hu).trans ?_
  split
  · exact bcsKept_of_path (path_bcsRefuse _ _ _)
  · exact bcsKept_of_path (path_bcsRefuse _ _ _)
  · next b hf hb =>
    have hr : ∀ b, reqBlock r = some b → slowBlock b = true → u.slowQ.length < 32 := by
      rw [show u.slowQ = s.slowQ from congrArg Path.slowQ hu]; exact room_of_mustWait h hf
    split
    · exact bcsKept_of_path (path_bcsRefuse _ _ _)
    · split
      · exact bcsKept_bcsPerform _ _ hr
      · exact bcsKept_of_path ((path_bcsRefuse _ _ _).trans (path_gateReport _ _ _ _ _ _ _))
      · have hg : (u.gateReport gCtl (accIdent r.acc) ‹Nat› .deny).path = u.path := path_gateReport _ _ _ _ _ _ _
        exact (bcsKept_of_path hg).trans (bcsKept_bcsDenied _ _ fun b hb hs => by
          rw [show (u.gateReport gCtl (accIdent r.acc) _ .deny).slowQ = u.slowQ from congrArg Path.slowQ hg]; exact hr b hb hs)

theorem bcsKept_drainGo (kept rs : List BcsReq) (s : State) : s.bcsKept (drainGo kept rs s) := by
  induction rs generalizing kept s with
  | nil => exact ⟨id, rfl⟩
  | cons r rs ih =>
    unfold drainGo
    split
    · exact ih _ _
    · next h => exact (bcsKept_bcsDo s (by simpa using h)).trans (ih _ _)

theorem bcsKept_drain (s : State) : s.bcsKept s.drain := bcsKept_drainGo _ _ _

theorem bcsKept_bcsArrive (s : State) (r : BcsReq) : s.bcsKept (s.bcsArrive r) := by
  unfold bcsArrive
  extract_lets u
  have hu : s.bcsKept u := bcsKept_of_path <| (path_bcsWakes _ _).trans (by split <;> simp only [path_raise, path_exUse])
  refine hu.trans ?_
  split
  · exact ⟨id, rfl⟩
  · next h =>
    have hd : u.bcsKept (u.bcsDo r) := bcsKept_bcsDo u (by simpa using h)
    split
    · exact hd
    · exact hd.trans (bcsKept_drain _)

/-- A BCS access that goes on keeps the form of the register path, and takes no command from the queue. -/
theorem bcsKept_bcsRun {s t : State} {r : BcsReq} (h : s.bcsRun r = .next t) : s.bcsKept t := by
  unfold bcsRun at h
  split at h
  · rw [← Host.Outcome.next.inj h]; exact ⟨id, rfl⟩
  · split at h
    · exact nomatch h
    · rw [← Host.Outcome.next.inj h]; exact bcsKept_bcsArrive _ _

end Sys2Proof.Machine.State
end

