-- ==== Sys2Proof/Tests/Slice0.lean ====
section
/-! SUPPORT. Tests: commands that are not well formed, the spec's worked examples, and, for every statement with hypotheses, states and
operands that meet the hypotheses of each of its clauses. -/


set_option Elab.async false
open Sys2Proof Sys2Proof.Machine Sys2Proof.Machine.State
namespace Sys2Proof.Tests
def up : State := { mode := .run, img := { step := 12, formed := true } }
def svc : Acc := { src := .svc }

theorem find_none_of_all {α : Type} {k : Nat} : ∀ {m : FMap α} (q : Nat × α → Bool), m.all q = true → (∀ v, q (k, v) = false) → FMap.find k m = none
  | [], _, _, _ => rfl
  | (j, v) :: m, q, h, hk => by
    simp only [List.all_cons, Bool.and_eq_true] at h
    have hj : j ≠ k := fun e => by rw [e, hk v] at h; simp at h
    rw [FMap.find, if_neg hj]; exact find_none_of_all q h.2 hk

/-- No EVENT of code 6 goes out where no EV_VEC word of that code is listed. -/
theorem evOn_off {s : State} (h : s.regs.all (fun p => p.1 % 0x10000 != regOff .evVec 5 % 0x10000) = true) : ∀ i, s.evOn i 6 = false := by
  intro i
  have hr : s.reg .evVec (evVecIdx i 6) = 0 := by
    unfold State.reg FMap.get
    rw [find_none_of_all _ h]
    · rfl
    · intro v
      have : regOff .evVec (evVecIdx i 6) % 0x10000 = regOff .evVec 5 % 0x10000 := by
        simp [regOff, evVecIdx, RegId.row, Block.base]; omega
      simp [this]
  unfold State.evOn State.fb State.f
  rw [show Fld.evVec_en.id = RegId.evVec from rfl, hr]; rfl

theorem of_piece {o : Option (Nat × Nat)} {P : Nat → Nat → Verdict} (h : (match o with | some p => decide (P p.1 p.2 = .ok) | none => true) = true) :
    ∀ a e, o = some (a, e) → P a e = .ok := by
  intro a e he
  subst he
  simpa using h

def droopy : State := { up with pwr := { up.pwr with droop := true } }
def ramp : State := { up with pwr := { up.pwr with level := 1, frozen := true } }
def wkC0 : Wake := ⟨.hub 3, 0, 0⟩
def wkC1 : Wake := ⟨.eng 5, 1, 0⟩
def wakeC0 : State := { up with pwr := { up.pwr with wakes := [wkC0], c0Bucket := 10000 } }
def wakeGen : State := { up with pwr := { up.pwr with wakes := [wkC1, wkC0], genBucket := 10000 } }
def granted : State := { up with pwr := { up.pwr with granted := [.eng 5] } }
def falling : State := { up with pwr := { up.pwr with pd := [.eng 5, .hub 1], pdBucket := 10000, up := [.eng 5, .hub 1] } }
def idleEng : State := ({ up with pwr := { up.pwr with up := [.eng 5] } } : State).modEng 5 (fun e => { e with role := .active }) |>.setF Fld.pwrGate_eng_idle 1
def avsOn : State := up.setF Fld.pwrAvsCfg_en 1
def avsBusy : State := { avsOn with pwr := { avsOn.pwr with avsBusy := true, avsTries := 1, avsSet := 750 } }
def avsLast : State := { avsBusy with pwr := { avsBusy.pwr with avsTries := 3 } }
def droopPinned : State := { up with mode := .load, pwr := { up.pwr with droopPin := true } }
def startDue : State := { up with bst := { up.bst with startDue := true } }
def rampAvs : State := { ramp with pwr := { ramp.pwr with avsWait := true, avsBusy := true, avsSet := 750 } }
def temps : List Byte := [0x20, 0x80, 0x10, 0xF0, 0x80, 0x55, 0x00, 0x69]
def hotTemps : List Byte := [0x20, 0x80, 0x10, 0xF0, 0x6A, 0x55, 0x00, 0x33]
def fuses (parityErr : Bool) : FuseData :=
  { dieId := 0x123456789, speedBin := 5, minSvn := 3, keyHash := [1, 2], repair := [[0, 0, 0, 0], [0x80, 0, 0, 1]], factory := false, parityErr := parityErr }
def loading (n : Nat) : State := { mode := .load, img := { step := n }, pwr := { rootLock := true } }
def flashy (n : Nat) : State := { loading n with img := { step := n, flashOk := true, flashSize := 2 ^ 24 } }
def flashFit : FlashInfo := { sfdp := true, fit := true, sizeLog2 := 28, four := true, m144 := false, m114 := true, m111 := true }
def flashUnfit : FlashInfo := { flashFit with sizeLog2 := 22 }
def allGood : BistResult := { fails := [], again := [], badEngs := [] }
def aliveUp : State := { up with flt := { up.flt with aliveRun := true, aliveLevel := true } }
def locked : State := { up with pwr := { up.pwr with rootLock := true } }
def quiescing : State := { up with phase := .quiescing }
def entering : State := { up with phase := .entering }
def dozing : State := { up with mode := .doze, phase := .steady, pwr := { up.pwr with coreGated := true, engGated := true } }
def exiting : State := { up with mode := .doze, phase := .exiting }
def exitingUp : State := { exiting with pwr := { exiting.pwr with up := (List.range 24).map .hub } }
def serving : State := { up with mode := .service }
def testing : State := { up with bst := { up.bst with mem := { up.bst.mem with st := .test } } }
def rescue : State := { serving with pwr := { serving.pwr with rescue := true } }
def readReq : BcsReq := { acc := svc, off := 0, wr := false, en := [true, true, true, true] }
def exitingHeld : State := { exitingUp with bcsWait := [readReq] }
def exitingGated : State := { dozing with phase := .exiting }
def kick : KickIn := { sbi := 0x0008, twakeN := false }
def dozeLow : State := { dozing with kst := { dozing.kst with twakeLow := 1 } }
def ruled : State :=
  (((((up.setF Fld.kstRuleIn_en 1).setF Fld.kstRuleIn_src 1).setF Fld.kstRuleIn_sel 3).setF Fld.kstRuleDeb_thresh 1).setF Fld.kstRuleAct_modes 2).setF
    Fld.kstRuleAct_action 2
def smbOn : State := { up with kst := { up.kst with smbUp := true, smbAddr := BitVec.ofNat 32 (regOff .glbScratch 0) } }
def alerted : State := { smbOn with kst := { smbOn.kst with alertNew := 2 } }
def drOf (wr space : Bool) (addr data : Nat) : BitVec 64 :=
  BitVec.ofNat 64 (2 ^ 60 + b2n space * 2 ^ 59 + b2n wr * 2 ^ 58 + addr * 2 ^ 32 + data)
def formed : State := { serving with img := { serving.img with formed := true } }
def ofs (id : RegId) (i : Nat) : BitVec 26 := BitVec.ofNat 26 (regOff id i)
def badFormed : BcsReq := wordWrite svc 2 0
def mgtOn : State := up.setF Fld.mgtQCfg_en 1
def mask2 : State := { up with strobe := { mask := some 4 } }
def shadowed : State := { up with hiShadow := [(regOff .glbTsHi 0, 5)] }
def defmapOff : Nat := regOff .gateDefmap 9
def halfGiven : State := { up with keyPend := [(Block.gate.base, { off := defmapOff, val := 0xF0F0F0F0, src := .svc, reqId := 0 })] }
def crossing : State := { up with slowQ := [(smbReq Block.kst.base false 0, .done [1, 2, 3, 4])] }
def fullTable : State := { up with tbl := { up.tbl with dvtPend := (List.range 4096).map fun k => (k, 1) } }
def waited : State := { up with jnl := { up.jnl with entries := [(3, { st := .completed, serial := 9 })] }, tbl := { up.tbl with barrier := [9] } }
def pendTable : State :=
  { up with tbl := { up.tbl with wtt := [(3, 1)], wttPend := [(4, 1)], dvt := [(3, 1)], dvtPend := [(4, 1)], wttOvf := true, dvtOvf := true } }
def dbg : Acc := { src := .dbg }
def halfDbg : State := halfGiven.setF Fld.glbStraps_straps 8
def badThaty : BcsReq := { badFormed with via := .thaty, acc := { svc with src := .tl0 } }
def givenHalf : KeyPend := { off := defmapOff, val := 0xF0F0F0F0, src := .svc, reqId := 0 }
def full : Link := { st := .up, width := 0, laneOk := 0xFFFF, rxSkip := false }
def linkSt (k : Link) : State := { up with links := [(1, k)] }
def linked : State := linkSt full
def ackBlk : TxBlk := { seq := 5, fpo := 0, stream := [1], resent := 3 }
def unacked : State := linkSt { full with unacked := [ackBlk, { ackBlk with seq := 6 }], txSeq := 7 }
def block (seq ack : Nat) : List Byte := blockBytes (blockBody seq 0 ack false 0xFF (0, 0) [])
def thresh : State := linked.setF Fld.tlkFecThresh_uncorr 9 1
def quietReq : State := { linkSt { full with quietReq := true } with pwr := { up.pwr with up := [.tlane 1 3, .tlane 1 4] } }
def quiet : State := { linkSt { full with st := .quiet, width := 2 } with mode := .doze }
def trainOk : LinkTrain := { lanes := 0xFFFF, reversed := true, credits := [1, 2, 3, 4, 5], finiteCpl := false }
def trainBad : LinkTrain := { trainOk with lanes := 0, finiteCpl := true }
def training : State := linkSt { full with st := .train, unacked := [ackBlk] }
def retraining : State := linkSt { full with st := .retrain, unacked := [ackBlk] }
def down : State := linkSt { st := .down }
def outReq : OutReq := { tag := 0x1234, vc := 1, addr := 0, granules := 1, destId := 0, purpose := .ccd 6 }
def moving : State := State.setF ({ up with links := [(0, full), (1, { full with st := .down, unacked := [ackBlk], outst := [outReq] })] }) Fld.tlkFailover_en 1
def stuck : State := { up with links := [(1, { full with st := .down, unacked := [ackBlk], outst := [outReq] })] }
def rdHdr : ReqHdr := { vc := 1, priv := true, np := false, poison := false, reqId := 0x12, tag := 3, fbe := 0xFF, lbe := 0, len := 1, addr := 0x7008 }
def wrHdr : ReqHdr := { rdHdr with np := true }
def badHdr : ReqHdr := { rdHdr with lbe := 1 }
def bcsHdr (id : RegId) : ReqHdr := { rdHdr with np := true, addr := BitVec.ofNat 56 (regOff id 0), fbe := 0x0F }
def placed : State := (linked.setF Fld.tlkBcsBaseLo_placed 1).setReg .gateDefmap 9 0xFFFFFFFF
def win : BitVec 256 := BitVec.ofNat 256 (0x91000500 * 2 ^ 224 + 0x7000 * 2 ^ 160 + 0x7000 * 2 ^ 96 + 44 * 2 ^ 64 + 0x2000 * 2 ^ 32)
def winIn : BitVec 256 :=
  BitVec.ofNat 256 (0xD1000500 * 2 ^ 224 + (9 * 2 ^ 24 + 77 * 2 ^ 11 + 77) * 2 ^ 192 + 0x4000 * 2 ^ 160 + 0x4000 * 2 ^ 128 + 0x9000 * 2 ^ 64)
def dev : BitVec 128 := BitVec.ofNat 128 ((0x80090000 + 77) * 2 ^ 96 + 5 * 2 ^ 88)
def inst5 : Inst := { st := .active, reqId := 0x45, jquota := 4, lquota := 8, weight := 1 }
def served : State :=
  { linked with
      insts := [(5, inst5)], tbl := { up.tbl with wtt := [(7, win), (8, winIn)], dvt := [(44, dev)] }
      ports := [(9, { st := .up })]
      regs := (List.range 9).foldl (fun m i => FMap.set 0 (regOff .gateDefmap i) 0xFFFFFFFF m) [(regOff .gateDefmap 9, 0xFFF)] }
def granted5 : Hold := { pool := 5, fl := 1 }
def held : State := { served with links := [(1, { full with held := [{ stamp := 3, pkt := .mrd rdHdr, found := .ok (windowOf win) (deviceOf dev) }] })] }
def oversize : State := { held with insts := [(5, { inst5 with lquota := 0 })] }
def opIn (e : JEntry) (o : Op) : State := { served with jnl := { up.jnl with entries := [(3, e)] }, ops := [(3, o)] }
def c0Held : C0Held := { inst := 5, inp := 1, port := 2, sub := 5, bytes := 100, own := .op 3, act := .piece 3 }
def c0State : State :=
  { opIn { st := .admitted, inst := 5 } { c0wait := true } with
      insts := [(5, { inst5 with c0tokens := 65536 * 4 })], hub := { up.hub with held := [c0Held] } }
def ctxAsks : State := { served with links := [(1, { full with outst := [outReq] })], ctxs := [(6, { eng := 3, inst := 5, st := .fetching })] }
def cplHdr : CplHdr := { vc := 1, poison := false, destId := 0, tag := 0x1234, status := 0, last := true, len := 1, cmplId := 0, offset := 0 }
def msgHdr (code : Byte) : MsgHdr := { vc := 0, priv := true, destId := 0, code := code, len := 1, srcId := 0, arg := 0x77 }
def dozeLinked : State := { linked with mode := .doze, phase := .steady }
def placedAt : State := (placed.setF Fld.tlkBcsBaseLo_base_lo 1).setF Fld.tlkBridgeId_id 0x77
def ctxAsks2 : State := { ctxAsks with links := [(1, { full with outst := [{ outReq with granules := 2 }] })] }
def quarantined : State := { ctxAsks with links := [(1, { full with quar := [4] })] }
def fetchingCtx : Ctx := { eng := 3, inst := 5, st := .fetching }
def cplPoison : CplHdr := { cplHdr with poison := true }
def outReq2 : OutReq := { outReq with granules := 2 }
def downHalt : State := { down with mode := .halt }
def granted4 : Hold := { granted5 with pool := 4 }
def cplBad : CplHdr := { cplHdr with status := 4 }
def ackBlk6 : TxBlk := { ackBlk with seq := 6 }
def oversized : Hold := { pool := 5, ovs := 1 }
def c0Op : Op := { c0wait := true }
def ddKey : Nat := 9 * 2048 + 77
def dev6 : BitVec 128 := BitVec.ofNat 128 ((0x80090000 + 77) * 2 ^ 96 + (5 * 2 ^ 24 + 10) * 2 ^ 64)
def ported : State := ({ served with tbl := { served.tbl with dvt := [(44, dev6)] } } : State).setF Fld.gptCfg_lead 9 9
def atDevice (s : State) (a : Daddr) : State := { s with daddrs := [(ddKey, a)] }
def queued (s : State) (x : XReq) : State := { s with ports := [(9, { st := .up, queue := [(77, x)] })] }
def xreq (kind : XKind) (je : Option Nat) : XReq := { kind := kind, je := je, dn := 44, cls := 1, age := 0, serial := 0, inst := 5 }
def directOf (wr : Bool) : Op :=
  { port := 9, daddr := 77, cut := { base := 0x2008, n := 8, u := 1, fm := 0xFF, lm := 0 }, hdr := some rdHdr, ident := identOf .tl1 true 0x12
    cur := some (0x2008, 0x200F), link := 1, pos := 8, wr := wr, data := natBytes 8 0x0102030405060708 }
def directIn (st : JSt) (wr : Bool) : State :=
  { ported with jnl := { up.jnl with entries := [(3, { st := st, kind := b2n wr, cls := 1, inst := 5, dn := 44, link := 1, vc := 1 })] }
                ops := [(3, directOf wr)] }
def openRd (data : Option (List Byte)) : XOpen := { req := xreq .rd (some 3), pieceA := 0x2008, pieceE := 0x200F, gotData := data }
def rdOpen (data : Option (List Byte)) : State := atDevice (directIn .issued false) { st := .cmd, opened := some (openRd data) }
def dataFrame : Frame :=
  sealFrame { baseFrame 3 77 with len := 2, fbe := 0xF, lbe := 0xF, payload := natBytes 8 0x1112131415161718 }
def stFrame (err : Bool) : Frame := statusFrame 77 (bridgeStatus err false 0 0 0)
def upF (ftype : Nat) : Frame :=
  sealFrame { baseFrame ftype 77 with len := 2, fbe := 0xF, lbe := 0xF, addr := BitVec.ofNat 22 (0x4010 / 4) }
def upWin : Window := windowOf winIn
def regionAll (g : Nat) (m : FMap Word) : FMap Word :=
  let i := 64 * g
  [(regOff .gateRgnCtl i, (0xE0000000 : Word)), (regOff .gateRgnLimitLo i, 0xFFFFFFFC), (regOff .gateRgnLimitHi i, 0xFFFFFF)].foldl
    (fun m p => FMap.set 0 p.1 p.2 m) m
def portedAll : State := { ported with regs := regionAll 144 (regionAll 145 ported.regs) }
def postedWin : Window := { upWin with np := false }
def upOp : Op :=
  { port := 9, daddr := 77, cut := State.upSpec (upF 0x11) 1, hdr := some (ported.upHdr postedWin (State.upSpec (upF 0x11) 1)), link := 1
    ident := legacyIdent 9 77, wr := true, sport := 9, sdaddr := 77, frame := some (upF 0x11) }
def upEntry5 : JEntry := { st := .admitted, kind := 5, cls := 1, inst := 5, dn := 44, link := 1, vc := 1 }
def upOpen : State :=
  atDevice { portedAll with jnl := { up.jnl with entries := [(3, upEntry5)] }, ops := [(3, upOp)] }
    { st := .up, up := some { je := some 3, frame := upF 0x11 } }
def closing : StatusTx := { daddr := 77, frame := stFrame false, je := some 3, closesUp := true }
def closingUp : State :=
  { upOpen with ports := [(9, { st := .up, statusQ := [closing] })], jnl := { up.jnl with entries := [(3, { upEntry5 with st := .completed })] } }
def guarded (losses : Nat) : State := atDevice ported { st := .guard, losses := losses }
def reserved : State := atDevice ported { st := .reserved, losses := 4 }
def polling : State := { atDevice ported { st := .cmd, opened := some { req := xreq .poll none } } with dns := [(44, { poll := .out })] }
def rmwCcd (f : Nat) : CcdX :=
  { c := { op := 5, count := 4, aux := f }, addr := 0, q := 0, ptag := 0, imm := false, ctx := 6
    operands := natBytes 8 3 ++ natBytes 8 9, old := some (natBytes 4 5) }
def lockOp (f : Nat) : Op := { directOf true with hdr := none, x := some (rmwCcd f) }
def lockHeld (f : Nat) : State :=
  atDevice { ported with jnl := { up.jnl with entries := [(3, { st := .issued, kind := 4, cls := 1, inst := 5, dn := 44 })] }, ops := [(3, lockOp f)] }
    { st := .cmd, lock := .held, lockReq := some (xreq .lockRd (some 3))
      opened := some { req := xreq .lockRd (some 3), pieceA := 0x2008, pieceE := 0x200B } }
def dnState (d : Dn) (s : State) : State := { s with dns := [(44, d)] }
def pollFrame (attn : Bool) : Frame := sealFrame { baseFrame 6 77 with payload := natBytes 2 (b2n attn * 2 ^ 15) ++ List.replicate 14 0 }
def waitX : CcdX := { rmwCcd 0 with waiting := true }
def waiting : State :=
  { ported with jnl := { up.jnl with entries := [(3, { st := .admitted, kind := 4, cls := 1, inst := 5, dn := 44 })] }
                ops := [(3, { directOf false with hdr := none, x := some waitX, cur := none })] }
def owning : State := { ported with insts := [(5, { inst5 with owned := [{ kind := 0, first := 40, count := 9 }] })] }
def muted (s : State) : State := dnState { attn := .muted } s
def sbiFed : State := muted ((ported.setF Fld.gptSbiMap_en 1 3).setF Fld.gptSbiMap_dn 44 3)
def portIs (x : PortSt) (s : State) : State := { s with ports := [(9, { st := x })] }
def orphan : State := atDevice (portIs .train ported) { lock := .orphaned }
def lateQueue (x : XReq) (s : State) : State := { s with ports := [(9, { st := .down, queue := [(77, x)] })] }
def bonded : State := { (ported.setF Fld.gptCfg_bond 1 8).setF Fld.gptCfg_bond 1 9 with ports := [(8, { st := .up })] }
def linkF : Frame := linkFrame 2 [0x11, 0x05]
def calPort (c : Cal) : State := ({ ported with ports := [(9, { st := .up, cal := [(0, c)] })] } : State).setF Fld.pwrCalCfg_tx_en 1
def lockOpen : XOpen := { req := xreq .lockRd (some 3), pieceA := 0x2008, pieceE := 0x200B }
def waitOp : Op := { directOf false with hdr := none, x := some waitX, cur := none }
def calFrozen : State := { calPort {} with pwr := { up.pwr with adaptFrozen := true } }
def dnOut : Dn := { poll := .out, interval := polling.msNow, count := 1 }
def dnTold : Dn := { attn := .delivered, interval := 3, count := 1 }
def retryBase : Frame := { baseFrame 0xB 77 with arg := 0x45 }
def dnDelivered : Dn := { poll := .out, attn := .delivered }
def upDataFrame : Frame := { dataFrame with ftype := 0x13 }
def badFrame : Frame := { dataFrame with crc := 0 }
def pollOpen : XOpen := { req := xreq .poll none }
def orphaned : Daddr := { lock := .orphaned }
def calEye : Cal := { lastEye := some 8 }
def calAsked : Cal := { outSeq := some 5 }
def dnDue : Dn := { poll := .due }
def noRoom : State := { ported with insts := [(5, { inst5 with jquota := 0 })] }
def haltNow (s : State) : State := { s with mode := .halt }
def qpOff : State := ({ portedAll with insts := [(5, { inst5 with jquota := 4194304, lquota := 129152 })] } : State)
def qpFields : List (Fld × Nat) := [(Fld.qCfg_en, 1), (Fld.qCfg_sq_size, 4), (Fld.qCfg_cq_size, 4), (Fld.qCfg_maxp, 2), (Fld.qCfg_class, 1), (Fld.qStat_state, 1)]
def qpUp : State := qpFields.foldl (fun s p => s.setF p.1 p.2 21) qpOff
def qCfgWord : Word := 0x04040201
def qpFaulted : State := qpUp.setF Fld.qStat_state 3 21
def evSet (code : Nat) (s : State) : State := s.setF Fld.evVec_en 1 (evVecIdx 5 code)
def cqAhead : State := (evSet 1 qpUp).setF Fld.cqTail_tail 5 21
def coal : State := { (evSet 1 qpUp).setF Fld.cqCoal_time 9 21 with qps := [(21, { timer := true, armed := true })] }
def toldEv : EvWait := { dn := 44, upTo := 9, inp := 8, sub := 77, inst := 5, code := 3, vc := 1, add := 1, body := [] }
def coalTold : State := { coal with evWait := [toldEv] }
def coalOff : State := { qpUp with qps := [(21, { timer := true, armed := true })] }
def engOn (s : State) : State := { s.modEng 3 (fun e => { e with role := .active }) with pwr := { up.pwr with up := [.eng 3] } }
def dispatchable : State := engOn (qpUp.setF Fld.sqDb_tail 3 21)
def engAsleep : State := { dispatchable with pwr := up.pwr }
def starting (got : Nat × List Byte) : State := { qpUp with ctxs := [(6, { eng := 3, inst := 5, q := 1, got := some got })] }
def startEntry : List Byte := natBytes 8 0x1000 ++ natBytes 8 7
def ctxAt (st : CtxSt) : Ctx := { eng := 3, inst := 5, q := 1, st := st, addr := 0x1000 }
def readyCtx : State := { engOn qpUp with ctxs := [(6, ctxAt .ready)] }
def cqFull : State := readyCtx.setF Fld.cqTail_tail 15 21
def cameCtx (st : Nat) (bs : List Byte) : Ctx := { ctxAt .fetching with je := some 3, slot := true, got := some (st, bs) }
def ccdCame (st : Nat) (bs : List Byte) : State :=
  { qpUp with ctxs := [(6, cameCtx st bs)], jnl := { up.jnl with reserved := [(3, 5)] } }
def ccdBytes (op dn count data : Nat) : List Byte :=
  natBytes 4 (op * 2 ^ 28 + dn) ++ natBytes 4 count ++ natBytes 8 data ++ natBytes 4 0x2000 ++ natBytes 4 1 ++ natBytes 8 0
def wrCcd : Ccd := { op := 2, dn := 44, count := 16, data := 0x3000, gaddr := 0x2000 }
def wrX : CcdX := { c := wrCcd, addr := 0x1000, q := 1, ptag := 7, imm := false, ctx := 6 }
def ccdEntry5 : JEntry := { st := .admitted, kind := 4, cls := 1, inst := 5, dn := 44, link := 1, vc := 1, eng := 3 }
def wrOp (x : CcdX) : Op :=
  { port := 9, daddr := 77, cut := spanSpec 0x2000 16 1, ident := 0x45, wr := true, link := 1, x := some x }
def runCtx (got : Option (Nat × List Byte)) : Ctx := { ctxAt .run with je := some 3, slot := true, got := got }
def running (e : JEntry) (x : CcdX) (o : Op) (got : Option (Nat × List Byte)) : State :=
  { engOn qpUp with ctxs := [(6, runCtx got)], jnl := { up.jnl with entries := [(3, e)] }, ops := [(3, { o with x := some x })] }
def askedX : CcdX := { wrX with hasked := 16, fetching := true }
def sixteen : List Byte := natBytes 16 0x112233445566778899AABBCCDDEEFF
def endedX : CcdX := { wrX with c := { wrCcd with chain := true } }
def farDone (x : CcdX) : State := (running { ccdEntry5 with st := .farDone, progress := 16 } x { wrOp x with done := true } none).setF Fld.qStat_inflight 1 21
def grantedNone : Hold := { pool := 5 }
def startCtx (got : Nat × List Byte) : Ctx := { eng := 3, inst := 5, q := 1, got := some got }
def doneOp (x : CcdX) : Op := { wrOp x with done := true }
def pelUp : State := (qpUp.setF Fld.pelCfg_en 1 5).setF Fld.pelCfg_size 4 5 |>.setF Fld.pelStat_state 1 5
def pelAhead : State := pelUp.setF Fld.pelTail_tail 5 5
def pelFault : State := pelUp.setF Fld.pelStat_state 3 5
def noticeOp : Op := { port := 9, daddr := 77, wr := true, failG := some 0x2008, failTs := 77, fst := 3, stop := true, done := true }
def noticeEntry : JEntry := { st := .farDone, pst := true, cls := 1, inst := 5, dn := 44, link := 1, vc := 1, err := 3, serial := 9 }
def noticed : State :=
  { pelUp.setF Fld.evVec_vc 1 (evVecIdx 5 4) with jnl := { up.jnl with entries := [(3, noticeEntry)] }, ops := [(3, noticeOp)], pels := [(5, { waiting := [3] })] }
def fenceIdle : State := noticed.setF Fld.fenceStat_done 1 5
def fencing (cover : List (Nat × Nat)) : State := ({ noticed with pels := [(5, { cover := cover, counted := 1 })] } : State).setF Fld.fenceStat_done 0 5
def retryCtx (n : Nat) : Ctx := { ctxAt .run with je := some 3, slot := true, retries := n }
def retrying (n : Nat) : State :=
  let s : State := { engOn qpUp with ctxs := [(6, retryCtx n)], jnl := { up.jnl with entries := [(3, ccdEntry5)] }, ops := [(3, wrOp wrX)] }
  s.modEng 4 (fun e => { e with role := .spare })
def movedCtx : Ctx := { eng := 4, inst := 5, access := true, st := .run, je := some 3, moving := true }
def movedState : State := { directIn .issued false with ctxs := [(6, movedCtx)], jnl := { up.jnl with entries := [(3, { (directIn .issued false).entry 3 with eng := 4 })] } }
def jnlState : State :=
  ((directIn .issued false).setF Fld.jnlFilter_states 4).setF Fld.jnlFilter_kinds 0xFF
def jnlMuted (s : State) : State := s.setF Fld.jnlIdx_je 3
def jnlHidden : State := { jnlMuted jnlState with regs := FMap.put (regOff .gateDefmap 9) 0 (jnlMuted jnlState).regs }
def scanning (states : Nat) : State :=
  let s := jnlState.setF Fld.jnlFilter_states states
  { s with jnl := { s.jnl with scan := some (accIdent svc) } }
def wdOn (s : State) : State := { s.setF Fld.jnlWdCfg_en 1 with ts := 2000000 }
def queuedDirect : State := { directIn .admitted false with ports := [(9, { st := .up, queue := [(77, xreq .rd (some 3))] })] }
def selfHeld : State :=
  wdOn (atDevice queuedDirect { st := .cmd, opened := some { req := xreq .rd (some 3), pieceA := 0x2008, pieceE := 0x200F } })
def wdFound : State := { selfHeld with jnl := { selfHeld.jnl with blocked := [3] } }
def encCcd : Ccd := { op := 2, enc := true, dn := 44, count := 512, data := 0x3000, gaddr := 0x2000, keyslot := 2, lbn := 1 }
def encX (runs : Nat) : CcdX :=
  { wrX with c := encCcd, s0 := List.replicate 512 1, s1 := List.replicate 512 1, hasked := 512, cbad := (List.range runs).map (8 + ·), keyUse := true, end1 := true }
def encOp (runs : Nat) : Op := { wrOp (encX runs) with cut := spanSpec 0x2000 512 1 }
def encRun (runs : Nat) : State :=
  let s := running ccdEntry5 (encX runs) (encOp runs) none
  { s with cmp := { s.cmp with slots := [(2, { st := .valid, key := (List.range 64).map (BitVec.ofNat 8) })], busy := [(10, (3, 0))] } }
def staged : State := { qpUp with cmp := { up.cmp with staged := (List.range 8).map fun k => (k, BitVec.ofNat 32 (k + 1)) } }
def kek5 : List Byte := (List.range 32).map (BitVec.ofNat 8)
def keyed : State :=
  let s : State := { qpUp with insts := [(5, { inst5 with owned := [{ kind := 2, first := 2, count := 3 }], reqId := 0x45 })] }
  { s with cmp := { s.cmp with keks := [(5, kek5)] } }
def busySlot : State := { keyed with cmp := { keyed.cmp with slots := [(2, { st := .loading })] } }
def wrapped (flip : Nat) : List Byte := (List.range 72).map (fun k => BitVec.ofNat 8 (k + flip))
def loadingKey (bs : List Byte) : State :=
  { keyed with cmp := { keyed.cmp with
      slots := [(2, { st := .loading })], mboxes := [(5, { slot := 2, ident := accIdent svc, kek := kek5, got := some (0, bs) })] } }
def goodWrap : List Byte := natBytes 72 0xfd60da85910562b7128c68e8ef7d0d9c52181542a03c58d6f16a00e9f4bef9ed195ee89e3b724a701fcd74c1ce288cf8231e94a70f0b5b21de12f6d18a4b28522a19529842b7deeb
def sameWrap : List Byte := natBytes 72 0xae29aeb009e4fe54303a4cf89cef7ebc652673949dd9238a7f164c0993a9b9da6fc496baff3acc228bc74e113553fe48765c0c49b372f591bad5ee69f3f33c2c4478e937a2de724e
def mboxOf (bs : List Byte) : Mbox := { slot := 2, ident := accIdent svc, kek := kek5, got := some (0, bs) }
def keys64 : List Byte := (List.range 64).map (BitVec.ofNat 8)
def keyless : State := { keyed with cmp := {} }
def grantedK : Hold := { pool := 11, fl := 1 }
def jnlDenied : State := (jnlMuted (((jnlState.setF Fld.gateRgnCtl_en 1 (64 * 147)).setF Fld.gateRgnCtl_lock 1 (64 * 147)).setF Fld.gateRgnLimitHi_limit_hi 0xFFFF (64 * 147))).setF Fld.glbStraps_straps 8
def plainAcc : Acc := { src := .tl1, reqId := 0x31, tag := 9, posted := false, priv := false }
def mgtUp : State :=
  let s : State := { qpUp with mgt := { st := .run }, regs := (regionAll 148 qpUp.regs) }
  { (((s.setF Fld.mgtQCfg_en 1).setF Fld.mgtQCfg_size 4).setF Fld.mgtQCfg_link 1).setF Fld.tlkBcsBaseLo_placed 1 with pwr := up.pwr }
def mgtOff : State := { (mgtUp.setF Fld.mgtQCfg_en 0) with mgt := {} }
def mgtFaulted : State := { mgtUp with mgt := { st := .fault, head := 3, fetching := false } } |>.setF Fld.mgtDb_tail 3
def quotaBytes (jq lq weight win dn key rate depth : Nat) : List Byte :=
  natBytes 4 jq ++ natBytes 4 lq ++ natBytes 4 (weight * 2 ^ 24 + win) ++ natBytes 4 dn ++ natBytes 4 key ++ natBytes 4 (rate * 2 ^ 16 + depth)
def cmdBytes (op inst w1 : Nat) (rest : List Byte) : List Byte := slice 0 64 (natBytes 4 (op * 2 ^ 24 + inst * 2 ^ 16) ++ natBytes 4 w1 ++ rest)
def mgtHas (s : State) (b : List Byte) : State := { s with mgt := { st := .run, head := 3, cmd := some b, slot := 2 } } |>.setF Fld.mgtDb_tail 3
def poolState : State :=
  let s := (mgtUp.setF Fld.mgtPoolEng_total 100).setF Fld.mgtPoolC0_total 1000
  { s with insts := [(5, { inst5 with jquota := 16, lquota := 8, winallow := 8, dnallow := 16, keyallow := 8, owned := [⟨0, 40, 9⟩, ⟨2, 2, 3⟩] })] }
def createCmd : List Byte := cmdBytes 1 9 0x77 (quotaBytes 16 8 1 4 4 4 100 7)
def quota9 : Quota := { jq := 16, lq := 8, weight := 1, win := 4, dn := 4, key := 4, rate := 100, depth := 7 }
def dupCmd : List Byte := cmdBytes 1 9 0x45 (quotaBytes 16 8 1 4 4 4 100 7)
def resizeCmd : List Byte := cmdBytes 2 5 0x7F (quotaBytes 32 16 2 9 17 9 100 7)
def rangeBytes (kind first count : Nat) : List Byte := natBytes 1 (kind * 64) ++ natBytes 3 first ++ natBytes 1 0 ++ natBytes 3 count
def assignCmd (kind first : Nat) : List Byte := cmdBytes 5 5 0 (rangeBytes kind first 2)
def releaseCmd (kind first : Nat) : List Byte := cmdBytes 6 5 0 (rangeBytes kind first 2)
def resetCmd (squash : Nat) : List Byte := cmdBytes 3 5 (squash * 2 ^ 31) []
def destroyCmd : List Byte := cmdBytes 4 5 0 []
def busyInst (st : InstSt) : State :=
  { poolState with
      insts := [(5, { inst5 with st := st, c0depth := 6 })], ctxs := [(6, ctxAt .ready)], jnl := { up.jnl with reserved := [(7, 5)] } }
def overInst (destroying : Bool) : State :=
  { mgtUp with insts := [(5, { inst5 with st := .squash, squashed := 4, owed := [(2, true)], destroying := destroying })] }
def grantedM : Hold := { pool := 2, fl := 1 }
def subSpare : Sub := { role := .spare }
def subJ : Sub := { role := .journal, index := 3, ce := 4 }
def subState (subs : FMap Sub) (s : State) : State := { s with bst := { s.bst with subs := subs } }
def bstOn (subs : FMap Sub) : State := (subState subs up).setF Fld.bstCfg_en 1 |>.setF Fld.bstCfg_eng_en 0
def sliceAt (st : SliceSt) (n k : Nat) (res : SliceRes) (subs : FMap Sub) : State :=
  let s := bstOn subs
  { s with bst := { s.bst with mem := { s.bst.mem with st := st, target := n, standin := k, res := res } } }
def engSlice (st : SliceSt) (res : SliceRes) : State :=
  { up with bst := { up.bst with eng := { st := st, target := 4, standin := 5, res := res } }, engs := [(4, { role := .spare, testing := true }), (5, { role := .active })] }
def engStart : State :=
  let s := (sliceAt .test 0 0 .pass []).setF Fld.bstCfg_eng_en 1 |>.setF Fld.bstCfg_eng_div 1
  { s with bst := { s.bst with eng := { res := .incomplete, incRun := 1, target := 4 } }, engs := [(4, { role := .active }), (5, { role := .spare })] }
def goodRes : SliceResult := { count := 12288, misr := 5, expected := 5, cells := [] }
def badRes : SliceResult := { count := 100, misr := 5, expected := 6, cells := [(3, 4)] }
def fgReady : State := { serving with bst := { up.bst with subs := [(2, subSpare)] }, engs := [(1, { role := .spare })] }
def fgRuns : State := { fgReady with bst := { fgReady.bst with fg := true } }
def aRepair : Repair := { kind := 2, unit := 7, spare := 1, pos := 9 }
def fuseState (vpp : Nat) : State := { serving with freeNext := vpp, bst := { up.bst with soft := [aRepair] } }
def burning (rs : List Repair) : State := { serving with bst := { up.bst with burn := some (aRepair :: rs) } }
def flashUp (addr : Nat) : State :=
  let s := up.setF Fld.imgFlAddr_addr addr
  { s with img := { s.img with flashOk := true, flashSize := 2 ^ 24, running := some 0 } }
def flashRuns (op : Nat) (data : List Byte) : State :=
  let s := (flashUp 0x700000)
  { s with img := { s.img with flCmd := some (op, 0x700000, 0), flData := data } }
def page : List Byte := natBytes 256 0x123456
def setDue : State := let s := flashUp 0; { s with img := { s.img with force := true } }
def setWriting : State := let s := flashUp 0; { s with img := { s.img with writing := some { prefer := true } } }
def svnState (vpp : Nat) : State := { serving.setF Fld.imgSvn_run_svn 7 with freeNext := vpp }
def svnRuns : State := { serving with img := { serving.img with svnBurn := some 6 } }
def subRow : FMap Sub := (List.range 4).map fun k => (k, { role := .journal, index := k })
def memState : State := subState subRow up
def jeLive : State := { memState with jnl := { up.jnl with entries := [(5, { st := .admitted, inst := 5 })] } }
def directBusy : State := directIn .issued false
def c0Refill : State := { up with insts := [(5, { inst5 with c0rate := 100, c0depth := 6, c0tokens := 393200 })] }
def xfer1 : Xfer := { out := 3, inp := 20, cls := 1, sub := 5, len := 2, got := 1, own := .op 3 }
def oneXfer : State := { up with hub := { up.hub with xfers := [xfer1] } }
def failedCells : State := { sliceAt .restore 2 7 .fail [(2, subSpare)] with bst := { (sliceAt .restore 2 7 .fail [(2, subSpare)]).bst with mem := { st := .restore, target := 2, res := .fail, cells := [(3, 4), (9, 4), (5, 5)] } } }
def subUntested : Sub := { subSpare with untested := true }
def subTired : Sub := { subJ with ce := 255 }
def agedOut : HubOut := { ages := [(81, 40)] }
def subFresh : Sub := { subJ with ce := 0 }
def preferB : Settings := { prefer := true }

def droopRun : State := let s := bstOn []; { s with pwr := { s.pwr with droop := true } }
def droopServing : State := { serving with pwr := { serving.pwr with droop := true } }
def fgBusy : State := { fgReady with bst := { fgReady.bst with mem := { st := .test, target := 2 }, eng := { st := .test, target := 1 } } }
def waitingQueue : State := { up with pending := [.hubRound, .sliceStart] }
def tracked (first : Nat) (now : Bool) : State :=
  let s := (((up.setF Fld.fltFirstSrc_valid 1).setF Fld.fltFirstSrc_src first).setF Fld.fltFirstSrc_class (srcClass first))
  { s with flt := { s.flt with firstNow := now } }
def prsvReq : BcsReq := wordWrite svc (regOff .gateDbgUnlock 0) 0xFFFFFFFF
def cut1 : CutSpec := { base := 0x1000, n := 16, u := 4, fm := 0xFC, lm := 0x3F }
def apart : State := { up with tbl := { up.tbl with wtt := [(7, win)], wttPend := [(7, win), (9, win)] } }

theorem apart_ok : ∀ i j : Nat, i ≠ j → (windowOf (apart.wttAt i)).v = true → (windowOf (apart.wttAt j)).v = true →
    wttConflict (windowOf (apart.wttAt i)) (windowOf (apart.wttAt j)) = false := by
  have off : ∀ k, k ≠ 7 → (windowOf (apart.wttAt k)).v = false := by
    intro k hk
    have : apart.wttAt k = 0 := by
      simp [State.wttAt, apart, FMap.get, FMap.find, Ne.symm hk]
    rw [this]; decide +kernel
  intro i j hij hi hj
  by_cases h : i = 7
  · rw [off j (by omega)] at hj; cases hj
  · rw [off i h] at hi; cases hi

/-! ### Commands that are not well formed -/

theorem test_wf_write_enables_nothing : (Instr.registerWrite svc 0 [none, none, none, none]).wf = false := by decide
theorem test_wf_write_beyond_the_bcs : (Instr.registerWrite svc 0x3FFFFFE [some 1, some 2, some 3, some 4]).wf = false := by decide
theorem test_wf_window_index : (Instr.tableEntryWrite svc .wtt 65536 0 [some 1]).wf = false := by decide
theorem test_wf_device_entry_end : (Instr.tableEntryWrite svc .dvt 0 14 [some 1, some 2, some 3]).wf = false := by decide
theorem test_wf_part : (Instr.partUsable (.hub 24)).wf = false ∧ (Instr.partUsable (.eng 104)).wf = false
    ∧ (Instr.partUsable (.tlane 2 0)).wf = false ∧ (Instr.partUsable (.glane 144)).wf = false := by decide
theorem test_wf_fuses : (Instr.fuseSense (fuses false)).wf = false := by decide
theorem test_wf_bist : (Instr.loadBist ⟨[(1056, [])], [], []⟩).wf = false ∧ (Instr.loadBist ⟨[], [1056], []⟩).wf = false
    ∧ (Instr.loadBist ⟨[], [], [104]⟩).wf = false := by decide
theorem test_wf_settings : (Instr.settingsRead [] []).wf = false := by decide
theorem test_wf_temperature : (Instr.tempSensorUpdate [0x20]).wf = false := by decide
theorem test_wf_block : (Instr.linkBlockReceive 0 [1]).wf = false := by decide
theorem test_wf_frame : (Instr.data 9 { dataFrame with payload := [1, 2, 3] }).wf = false := by decide
theorem test_wf_payload : (Instr.mwr 1 wrHdr [1]).wf = false ∧ (Instr.cpl 1 cplHdr [1]).wf = false ∧ (Instr.cpld 1 cplHdr [1]).wf = false
    ∧ (Instr.wakeMsg 1 (msgHdr 2) [1]).wf = false := by decide
theorem test_wf_mode : (Instr.modeReqInvalid 3).wf = false := by decide
theorem test_wf_smbus : (Instr.smbusUnknownCommand 0x13).wf = false := by decide
theorem test_wf_tap : (Instr.bypass 0x21).wf = false := by decide
theorem test_wf_good : (Instr.registerWrite svc 0x10 [some 1, none, none, none]).wf = true ∧ (Instr.partUsable (.hub 23)).wf = true
    ∧ (Instr.data 9 dataFrame).wf = true ∧ (Instr.mwr 1 wrHdr [1, 2, 3, 4, 5, 6, 7, 8]).wf = true ∧ (Instr.modeReqInvalid 1).wf = true := by decide

/-! ### The worked examples of the spec -/

/-- Chapter 0: a DN in a big-endian field. -/
theorem test_dn_bytes : natBytes 4 176833 = [0x00, 0x02, 0xB2, 0xC1] := by decide

/-- Table 3.14: the header of an MRD of 512 bytes. -/
theorem test_mrd_header :
    packetBytes (.mrd { vc := 1, priv := false, np := false, poison := false, reqId := 0x2A105, tag := 0x41, fbe := 0xFF, lbe := 0xFF, len := 64
                        addr := 0x12345678003700 })
      = natBytes 4 0x1402A105 ++ natBytes 4 0x0041FFFF ++ natBytes 4 0x1002468A ++ natBytes 4 0xCF0006E0 := by decide +kernel

/-- Table 3.15: the header of the CPL with DE that answers it. -/
theorem test_cpl_header :
    packetBytes (.cpl { vc := 1, poison := false, destId := 0x2A105, tag := 0x41, status := 3, last := true, len := 4, cmplId := 0x010C4
                        offset := 0 } [])
      = natBytes 4 0x4402A105 ++ natBytes 4 0x00413804 ++ natBytes 4 0x010C4000 ++ natBytes 4 0 := by decide +kernel

/-- The sparse write of Table 5.8. -/
def sparse : CutSpec := { base := 0x8000, n := 4096, u := 1, fm := 0xF3, lm := 0x7F }

/-- Table 5.8: 17 pieces, of which the ninth is cut short by BOUND. -/
theorem test_sparse_pieces : sparse.pieces 256 2048 (fun _ => 2 ^ 56) 20 0
      = [(0x8000, 0x8001), (0x8004, 0x8103), (0x8104, 0x8203), (0x8204, 0x8303), (0x8304, 0x8403), (0x8404, 0x8503), (0x8504, 0x8603)]
        ++ [(0x8604, 0x8703), (0x8704, 0x87FF), (0x8800, 0x88FF), (0x8900, 0x89FF), (0x8A00, 0x8AFF), (0x8B00, 0x8BFF), (0x8C00, 0x8CFF)]
        ++ [(0x8D00, 0x8DFF), (0x8E00, 0x8EFF), (0x8F00, 0x8FFE)]
    ∧ sparse.count = 4093 := by decide +kernel

/-- Table 5.8: LEN, FBE and LBE of the first, the ninth and the last piece. -/
theorem test_piece_enables : (pieceWords 0x8000 0x8001, pieceFbe 0x8000 0x8001, pieceLbe 0x8000 0x8001) = (1, 3, 0)
    ∧ (pieceWords 0x8704 0x87FF, pieceFbe 0x8704 0x87FF, pieceLbe 0x8704 0x87FF) = (63, 15, 15)
    ∧ (pieceWords 0x8F00 0x8FFE, pieceFbe 0x8F00 0x8FFE, pieceLbe 0x8F00 0x8FFE) = (64, 15, 7) := by decide +kernel

/-- The second access of Table 5.9: bytes 6 and 7 of a granule through SWAP 0b10. -/
def swapped : Op := { cut := { base := 0x40, n := 8, u := 4, fm := 0xC0, lm := 0 }, wr := true, data := [0, 0, 0, 0, 0, 0, 0xAB, 0xCD] }

theorem test_swapped_write : swapped.cut.pieces 64 256 (fun _ => 2 ^ 56) 20 0 = [(0x44, 0x45)]
    ∧ State.pieceData swapped 0x44 0x45 = [0xCD, 0xAB] := by decide +kernel

/-- Chapter 2: GLB_TS_LO fills the shadow that the read of GLB_TS_HI returns 20 ticks later. -/
theorem test_timestamp_halves : (let r := ({ up with ts := 0x12FFFFFFF0 } : State).readBytes (regOff .glbTsLo 0) 4 true
      (r.1, ({ r.2 with ts := 0x1300000004 } : State).readBytes (regOff .glbTsHi 0) 4 true |>.1))
    = ([0xFF, 0xFF, 0xFF, 0xF0], [0x00, 0x00, 0x00, 0x12]) := by decide +kernel

/-- The next state of a command, and the state before it where there is none. -/
def after (c : Instr) (s : State) : State := match exec c s with | .next t => t | _ => s

/-- Chapter 2: a posted second half leaves GLB_MODE_REQ as it was; UPD_KEY_STATUS reads 0x0001_0003 and UPD_KEY_ADDR 0x24. -/
theorem test_posted_half : (let s := after (.registerWrite svc 0x24 ((natBytes 4 3).map some)) up
      let s := after (.registerWrite { svc with posted := true } 0x28 ((natBytes 4 0xFFFFFFFC).map some)) s
      (s.phase, s.reg .updKeyStatus, s.reg .updKeyAddr)) = (.steady, 0x00010003, 0x24) := by decide +kernel

/-- Chapter 2: the same pair with both halves non-posted requests DOZE. -/
theorem test_doze_pair : (let s := after (.registerWrite svc 0x24 ((natBytes 4 3).map some)) up
      (after (.registerWrite svc 0x28 ((natBytes 4 0xFFFFFFFC).map some)) s).phase) ≠ .steady := by decide +kernel

/-- R377: an unaligned read at a reserved offset, and a narrow write to HUB during LOAD. -/
theorem test_refusal_causes : formCause { acc := svc, off := Block.glb.base + 0x1F01, wr := false, en := List.replicate 4 true } = some 1
    ∧ formCause { acc := svc, off := Block.hub.base, wr := true, en := [true, true], data := [0, 0] } = some 3 := by decide +kernel

/-- Chapter 6: profile 5, field 0, maps bits [111:100] to slot 2. -/
def tempMap : State := ((up.setReg .gptSmapFld 40 0xC20C0064).setReg .gptSmapScale 40 0x1000).setReg .gptSmapOfs 40 0
def sample (b2 b3 : Byte) : List Byte := [0, 0, b2, b3] ++ List.replicate 12 0

theorem test_temperature_field : regOff .gptSmapFld 40 = Block.gpt.base + 0x28280
    ∧ tempMap.mapFields (sample 0x19 0x0A) 5 = [(2, 0x00190000, true, false)]
    ∧ (tempMap.mapFields (sample 0xFF 0xE0) 5).map (fun p => word32 p.2.1) = [0xFFFFE000]
    ∧ slotBits (tempMap.mapFields (sample 0x19 0x0A) 5) (·.1) = 2 ^ 26 := by decide +kernel

/-- Table 12.7a: the CREATE of BI3. -/
def createBi3 : List Byte :=
  natBytes 4 0x01030100 ++ natBytes 4 0x0002A105 ++ natBytes 4 0x00010000 ++ natBytes 4 0x100 ++ natBytes 4 0x28000010 ++ natBytes 4 0x40
  ++ natBytes 4 0x20 ++ natBytes 4 0x04000005 ++ natBytes 8 0x0012000000004000 ++ natBytes 4 5 ++ List.replicate 20 0

theorem test_create_bi3 : poolState.createCheck 3 createBi3 = none
    ∧ poolState.createQuota createBi3 = some { jq := 65536, lq := 256, weight := 40, win := 16, dn := 64, key := 32, rate := 1024, depth := 5 }
    ∧ listBytes createBi3 = 40 := by decide +kernel

/-- Chapter 12: the range list of BI3. -/
theorem test_range_list : rangeOf (natBytes 8 0x0002B2C100000001) = ⟨0, 176833, 1⟩ ∧ rangeOf (natBytes 8 0x4000010200000001) = ⟨1, 0x102, 1⟩
    ∧ rangeOf (natBytes 8 0x8000001100000001) = ⟨2, 17, 1⟩ := by decide +kernel

/-- Table 10.5: the WRITE CCD with CMP and ENC. -/
def ccd105 : Ccd :=
  ccdOf (natBytes 4 0x2182B2C1 ++ natBytes 4 0x4000 ++ natBytes 8 0 ++ natBytes 4 0x40000 ++ natBytes 4 0x110000 ++ natBytes 4 0x7A00 ++ natBytes 4 0x4200)

theorem test_write_ccd : ccd105 = { op := 2, cmp := true, enc := true, dn := 0x2B2C1, count := 16384, gaddr := 0x40000, keyslot := 17
                                    lbn := 0x7A00, gcount := 16896 }
    ∧ fieldFault ccd105 none = none ∧ duBytes ccd105 = 512 := by decide +kernel

/-- Chapter 10: the tweak block of unit 0x7A00. -/
theorem test_tweak : le16 0x7A00 = [0x00, 0x7A] ++ List.replicate 14 0 := by decide

/-- Table 11.4: the three regions of G_PORT37. -/
def port37 : State :=
  let put (r : Nat) (c lo hi : Word) (s : State) : State :=
    let i := 37 * 64 + r
    (((((((s.setReg .gateRgnCtl i c).setReg .gateRgnIdVal i 0x0002A105).setReg .gateRgnIdMask i 0x00FFFFFF).setReg .gateRgnBaseHi i 0x1A4).setReg
      .gateRgnBaseLo i lo).setReg .gateRgnLimitHi i 0x1A4).setReg .gateRgnLimitLo i hi)
  put 2 0xE0000000 0x8900 0xFFFC (put 1 0xC0000000 0x8800 0x88FC (put 0 0xE0000000 0 0x87FC up))

/-- Chapter 11: the write to 0x8600 to 0x89FF is cut at the region edges, and only its middle is refused. -/
theorem test_port37 : regOff .gateRgnCtl (37 * 64) = 0x812800
    ∧ port37.judge 37 0x2A105 0x1A400008600 0x1A4000087FF false true = .ok
    ∧ port37.judge 37 0x2A105 0x1A400008800 0x1A4000088FF false true = .bad .refuse 0x1A400008800
    ∧ port37.judge 37 0x2A105 0x1A400008900 0x1A4000089FF false true = .ok
    ∧ port37.judge 37 0x12A105 0x1A400008900 0x1A4000089FF false true = .bad .refuse 0x1A400008900 := by decide +kernel

/-- Table 9.8: record 0 and its EVENT. -/
def lateEntry : JEntry := { st := .error, pst := true, cls := 1, inst := 3, dn := 176833, vc := 1, err := 4, ref := 0x00123456780090 * 256 }
def lateOp : Op := { wr := true, failG := some 0x9000, fst := 4, status := bridgeStatus true true 1 0 0 }

theorem test_notice_record : (State.noticeRec 0xA4000 lateEntry lateOp 1).take 8 = natBytes 8 0x800A40000402B2C1
    ∧ ((State.noticeRec 0xA4000 lateEntry lateOp 1).drop 16).take 4 = natBytes 4 0x9000
    ∧ ((State.noticeRec 0xA4000 lateEntry lateOp 1).drop 32).take 2 = natBytes 2 0x8501 := by decide +kernel

/-- Chapter 13: the syndrome of the fatal fault of Table 13.5, and that of the squash as Table 13.3 lays it out (log entry 71). -/
theorem test_syndromes : syndrome 0 (some 3) (some 0xA5000) 0 = 0x0010329400200000
    ∧ syndrome 383 (some 7) (some 0x1FC005) 0x5C = 0x2FF077F00160005C := by decide +kernel

/-- Table 13.5: FLT_FIRST_SRC after the watchdog's selection and a corrected Landing word, and FLT_HALT after the fatal edge. -/
def squashFault : State := (up.raise 0x0C3 0 (some 3) (some 0xA5000)).start.raise 0x0E0

theorem test_first_error_record : squashFault.reg .fltFirstSrc = 0xE00000C3
    ∧ (squashFault.start.raise 0x0C2 383 (some 7) (some 0x1FC005) 0x5C).reg .fltHalt = 0x800000C2
    ∧ (squashFault.start.raise 0x0C2 383 (some 7) (some 0x1FC005) 0x5C).f Fld.fltHighest_class = 3 := by decide +kernel

/-- Chapter 2: HUB commits and GATE fails at one strobe, whose status reads 0x0200_0100. -/
def overlapping : State :=
  let put (s : State) (r : Nat) : State :=
    ((s.setShadow .gateRgnCtl (37 * 64 + r) 0xE0000000).setShadow .gateRgnLimitLo (37 * 64 + r) 0xFC)
  put (put up 0) 1

theorem test_strobe_status : (let s := after (.updStrobe svc 0x1010) overlapping
      (after .strobeCommit s).reg .updStatus) = 0x02000100 := by decide +kernel

/-! ### Witnesses: states and operands that meet the hypotheses of each clause of each statement -/

/-! `Obligations.DroopFreezesAndRamps` -/

theorem witness_DroopAssertFreezes_1 :
    up.mode ≠ Mode.reset ∧ (up.mode = Mode.load → up.pwr.rootLock = true) ∧ up.pwr.droop = false := by
  decide +kernel

theorem witness_DroopAssertFreezes_2 :
    (reset.mode = Mode.reset ∨ reset.mode = Mode.load ∧ reset.pwr.rootLock = false) := by
  decide +kernel

theorem witness_DroopAssertFreezes_3 :
    droopPinned.mode = Mode.load ∧ droopPinned.pwr.droopPin = true ∧ droopPinned.pwr.droop = false := by
  decide +kernel

theorem witness_DroopReleaseRamps_1 :
    droopy.pwr.droop = true := by
  decide +kernel

theorem witness_DroopReleaseRamps_2 :
    ramp.pwr.droop = false ∧ 0 < ramp.pwr.level := by
  decide +kernel

theorem witness_DroopReleaseRamps_3 :
    up.pwr.droop = false ∧ up.bst.startDue = false := by
  decide +kernel

theorem witness_DroopReleaseRamps_4 :
    startDue.pwr.droop = false ∧ startDue.bst.startDue = true := by
  decide +kernel

theorem witness_DroopReleaseRamps_5 :
    rampAvs.pwr.droop = false ∧ 0 < rampAvs.pwr.level := by
  decide +kernel

/-! `Obligations.WakeHeadIsOldestOfHighestClass` -/

theorem witness_WakeHeadIsOldestOfHighestClass :
    (∀ y ∈ [wkC1, wkC0], y.cls < 4) ∧ wakeHead [wkC1, wkC0] = some wkC0 := by
  decide +kernel

/-! `Obligations.WakesAndParts` -/

theorem witness_WakeGrantTakesItsCost_1 :
    wakeC0.pwr.frozen = false ∧ wakeHead wakeC0.pwr.wakes = some wkC0 ∧ (wkC0.cls = 0 ∧ partCost wkC0.part ≤ wakeC0.pwr.c0Bucket ∨ partCost
      wkC0.part ≤ wakeC0.pwr.genBucket) := by
  decide +kernel

theorem witness_WakeGrantTakesItsCost_2 :
    wakeGen.pwr.frozen = false ∧ wakeHead wakeGen.pwr.wakes = some wkC0 ∧ (wkC0.cls = 0 ∧ partCost wkC0.part ≤ wakeGen.pwr.c0Bucket ∨ partCost
      wkC0.part ≤ wakeGen.pwr.genBucket) := by
  decide +kernel

theorem witness_PartsPowerUpAndDown_1 :
    Part.eng 5 ∈ granted.pwr.granted := by
  decide +kernel

theorem witness_PartsPowerUpAndDown_2 :
    falling.pwr.pd = [Part.eng 5, Part.hub 1] ∧ partCost (Part.eng 5) ≤ falling.pwr.pdBucket := by
  decide +kernel

theorem witness_PartsPowerUpAndDown_3 :
    (idleEng.mode = Mode.run ∨ idleEng.mode = Mode.service) ∧ idleEng.f Fld.pwrGate_eng_idle ≠ 0 ∧ (idleEng.eng 5).role = EngRole.active ∧ (∀ c ∈
      idleEng.ctxs, c.2.eng ≠ 5) ∧ Part.eng 5 ∈ idleEng.pwr.up ∧ Part.eng 5 ∉ idleEng.pwr.pd := by
  decide +kernel

/-! `Obligations.VoltageAndTemperature` -/

theorem witness_CoreVoltageFollowsSetpoint_1 :
    avsOn.mode ≠ Mode.reset ∧ avsOn.mode ≠ Mode.load ∧ avsOn.fb Fld.pwrAvsCfg_en = true ∧ avsOn.pwr.avsBusy = false ∧ avsOn.pwr.frozen = false ∧
      avsOn.setpoint ≠ avsOn.f Fld.pwrAvsStat_vset := by
  decide +kernel

theorem witness_CoreVoltageFollowsSetpoint_2 :
    avsBusy.pwr.avsBusy = true ∧ avsBusy.pwr.avsWait = false ∧ avsBusy.pwr.avsSet < 2 ^ 16 := by
  decide +kernel

theorem witness_CoreVoltageFollowsSetpoint_3 :
    avsBusy.pwr.avsBusy = true ∧ avsBusy.pwr.avsWait = false ∧ avsBusy.pwr.avsTries < 3 := by
  decide +kernel

theorem witness_CoreVoltageFollowsSetpoint_4 :
    avsLast.mode ≠ Mode.reset ∧ avsLast.pwr.avsBusy = true ∧ avsLast.pwr.avsWait = false ∧ 3 ≤ avsLast.pwr.avsTries := by
  decide +kernel

theorem witness_TemperatureReadings_1 :
    up.mode ≠ Mode.reset ∧ temps.length = 8 ∧ (∀ b ∈ temps, BitVec.toNat b ≠ 128 → degrees (BitVec.toNat b) ≤ (105 : ℤ)) := by
  decide +kernel

theorem witness_TemperatureReadings_2 :
    up.mode ≠ Mode.reset ∧ hotTemps.length = 8 ∧ (∃ b ∈ hotTemps, BitVec.toNat b ≠ 128 ∧ (105 : ℤ) < degrees (BitVec.toNat b)) := by
  decide +kernel

/-! `Obligations.ResetAndLoadBegin` -/

theorem witness_LoadBegins_1 :
    reset.mode = Mode.reset := by
  decide +kernel

theorem witness_LoadBegins_2 :
    (loading 0).mode ≠ Mode.reset ∧ ((loading 0).pwr.droopPin = true → (loading 0).pwr.droop = true) := by
  decide +kernel

theorem witness_LoadBegins_3 :
    (loading 0).mode = Mode.load ∧ (loading 0).img.step = 0 ∧ (loading 0).pwr.rootLock = true ∧ (fuses false).parityErr = false := by
  decide +kernel

theorem witness_LoadBegins_4 :
    (loading 0).mode = Mode.load ∧ (loading 0).img.step = 0 ∧ (loading 0).pwr.rootLock = true ∧ (fuses true).parityErr = true := by
  decide +kernel

theorem witness_FlashAndSettingsFound_1 :
    (loading 2).mode = Mode.load ∧ (loading 2).img.step = 2 ∧ flashFit.sfdp = true ∧ flashFit.fit = true ∧ 23 ≤ flashFit.sizeLog2 ∧
      flashFit.sizeLog2 ≤ 28 ∧ (24 < flashFit.sizeLog2 → flashFit.four = true) ∧ (flashFit.m144 || flashFit.m114 || flashFit.m111) = true := by
  decide +kernel

theorem witness_FlashAndSettingsFound_2 :
    (loading 2).mode = Mode.load ∧ (loading 2).img.step = 2 ∧ (flashUnfit.sfdp = false ∨ flashUnfit.fit = false ∨ flashUnfit.sizeLog2 < 23 ∨ 28 <
      flashUnfit.sizeLog2 ∨ 24 < flashUnfit.sizeLog2 ∧ flashUnfit.four = false) := by
  decide +kernel

theorem witness_FlashAndSettingsFound_3 :
    (flashy 3).mode = Mode.load ∧ (flashy 3).img.step = 3 ∧ (flashy 3).img.flashOk = true ∧ (flashy 3).img.setValid = false := by
  decide +kernel

/-! `Obligations.SlotsAndLoadEnd` -/

theorem witness_SlotsAreTriedInTurn_1 :
    (flashy 4).mode = Mode.load ∧ (flashy 4).img.step = 4 := by
  decide +kernel

theorem witness_SlotsAreTriedInTurn_2 :
    (flashy 5).mode = Mode.load ∧ (flashy 5).img.step = 5 := by
  decide +kernel

theorem witness_LoadFinishes_1 :
    (flashy 7).mode = Mode.load ∧ (flashy 7).img.step = 7 := by
  decide +kernel

theorem witness_LoadFinishes_2 :
    (flashy 8).mode = Mode.load ∧ (flashy 8).img.step = 8 := by
  decide +kernel

theorem witness_LoadFinishes_3 :
    (flashy 9).mode = Mode.load ∧ (flashy 9).img.step = 9 := by
  decide +kernel

theorem witness_LoadFinishes_4 :
    (flashy 10).mode = Mode.load ∧ (flashy 10).img.step = 10 ∧ (∀ l < 2, ((flashy 10).link l).st ≠ LinkSt.train ∧ ((flashy 10).link l).st ≠
      LinkSt.retrain) ∧ (∀ p ∈ (flashy 10).ports, p.2.st ≠ PortSt.train) := by
  decide +kernel

/-! `Obligations.AliveAndLiveness` -/

theorem witness_AliveAndLiveness_1 :
    aliveUp.flt.aliveRun = true := by
  decide +kernel

theorem witness_AliveAndLiveness_2 :
    up.mode ≠ Mode.reset ∧ up.mode ≠ Mode.halt := by
  decide +kernel

theorem witness_AliveAndLiveness_3 :
    up.mode ≠ Mode.reset ∧ up.mode ≠ Mode.halt := by
  decide +kernel

theorem witness_AliveAndLiveness_4 :
    up.mode ≠ Mode.reset ∧ up.mode ≠ Mode.halt := by
  decide +kernel

theorem witness_AliveAndLiveness_5 :
    locked.mode ≠ Mode.reset ∧ locked.pwr.rootLock = true := by
  decide +kernel

/-! `Obligations.ModeRequests` -/

theorem witness_ModeRequestsThatArePermitted_1 :
    up.mode = Mode.run ∧ up.phase = Phase.steady ∧ up.bst.mem.st = SliceSt.idle ∧ up.bst.eng.st = SliceSt.idle := by
  decide +kernel

theorem witness_ModeRequestsThatArePermitted_2 :
    testing.mode = Mode.run ∧ testing.phase = Phase.steady := by
  decide +kernel

theorem witness_ModeRequestsThatArePermitted_3 :
    quiescing.mode = Mode.run ∧ quiescing.phase = Phase.quiescing := by
  decide +kernel

theorem witness_ModeRequestsThatArePermitted_4 :
    dozing.mode = Mode.doze ∧ dozing.phase = Phase.steady := by
  decide +kernel

theorem witness_ModeRequestsThatArePermitted_5 :
    serving.mode = Mode.service ∧ serving.pwr.rescue = false ∧ serving.pwr.runAfterFg = false ∧ serving.serviceIdle = true := by
  decide +kernel

theorem witness_ModeRequestsThatArePermitted_6 :
    up.mode = Mode.run ∧ up.phase = Phase.steady := by
  decide +kernel

theorem witness_ModeRequestForTheCurrentMode_1 :
    up.mode = Mode.run ∧ up.phase = Phase.steady := by
  decide +kernel

theorem witness_ModeRequestForTheCurrentMode_2 :
    dozing.mode = Mode.doze ∧ dozing.phase = Phase.steady := by
  decide +kernel

theorem witness_ModeRequestForTheCurrentMode_3 :
    serving.mode = Mode.service := by
  decide +kernel

theorem witness_ModeRequestForTheCurrentMode_4 :
    quiescing.mode = Mode.run ∧ quiescing.phase = Phase.quiescing := by
  decide +kernel

theorem witness_ModeRequestsThatAreRejected_1 :
    (Instr.modeReqDoze = Instr.modeReqDoze ∧ 3 = 3 ∧ (serving.mode = Mode.service ∧ 1 = 1 ∨ serving.mode = Mode.load ∧ 1 = 2 ∨ serving.mode =
      Mode.run ∧ serving.phase = Phase.entering ∧ 1 = 2) ∨ Instr.modeReqDoze = Instr.modeReqRun ∧ 3 = 2 ∧ (serving.mode = Mode.load ∧ 1 = 2 ∨
      serving.mode = Mode.doze ∧ serving.phase = Phase.exiting ∧ 1 = 2 ∨ serving.mode = Mode.service ∧ serving.pwr.rescue = true ∧ 1 = 3) ∨
      Instr.modeReqDoze = Instr.modeReqService ∧ 3 = 4 ∧ (serving.mode = Mode.run ∧ serving.phase = Phase.quiescing ∧ 1 = 1 ∨ serving.mode =
      Mode.doze ∧ serving.phase = Phase.steady ∧ 1 = 1 ∨ serving.mode = Mode.run ∧ serving.phase = Phase.entering ∧ 1 = 2 ∨ serving.mode = Mode.doze
      ∧ serving.phase = Phase.exiting ∧ 1 = 1 ∨ serving.mode = Mode.load ∧ 1 = 2) ∨ (∃ t, Instr.modeReqDoze = Instr.modeReqInvalid t ∧ 3 = t.toNat ∧
      (t = (1 : BitVec 3) ∨ t = (5 : BitVec 3) ∨ t = (6 : BitVec 3) ∨ t = (7 : BitVec 3))) ∧ serving.mode ≠ Mode.reset ∧ serving.mode ≠ Mode.halt ∧
      1 = 1) := by
  decide +kernel

theorem witness_ModeRequestsThatAreRejected_2 :
    (Instr.modeReqRun = Instr.modeReqDoze ∧ 2 = 3 ∧ (rescue.mode = Mode.service ∧ 3 = 1 ∨ rescue.mode = Mode.load ∧ 3 = 2 ∨ rescue.mode = Mode.run
      ∧ rescue.phase = Phase.entering ∧ 3 = 2) ∨ Instr.modeReqRun = Instr.modeReqRun ∧ 2 = 2 ∧ (rescue.mode = Mode.load ∧ 3 = 2 ∨ rescue.mode =
      Mode.doze ∧ rescue.phase = Phase.exiting ∧ 3 = 2 ∨ rescue.mode = Mode.service ∧ rescue.pwr.rescue = true ∧ 3 = 3) ∨ Instr.modeReqRun =
      Instr.modeReqService ∧ 2 = 4 ∧ (rescue.mode = Mode.run ∧ rescue.phase = Phase.quiescing ∧ 3 = 1 ∨ rescue.mode = Mode.doze ∧ rescue.phase =
      Phase.steady ∧ 3 = 1 ∨ rescue.mode = Mode.run ∧ rescue.phase = Phase.entering ∧ 3 = 2 ∨ rescue.mode = Mode.doze ∧ rescue.phase = Phase.exiting
      ∧ 3 = 1 ∨ rescue.mode = Mode.load ∧ 3 = 2) ∨ (∃ t, Instr.modeReqRun = Instr.modeReqInvalid t ∧ 2 = t.toNat ∧ (t = (1 : BitVec 3) ∨ t = (5 :
      BitVec 3) ∨ t = (6 : BitVec 3) ∨ t = (7 : BitVec 3))) ∧ rescue.mode ≠ Mode.reset ∧ rescue.mode ≠ Mode.halt ∧ 3 = 1) := by
  decide +kernel

theorem witness_ModeRequestsThatAreRejected_3 :
    (Instr.modeReqService = Instr.modeReqDoze ∧ 4 = 3 ∧ (entering.mode = Mode.service ∧ 2 = 1 ∨ entering.mode = Mode.load ∧ 2 = 2 ∨ entering.mode
      = Mode.run ∧ entering.phase = Phase.entering ∧ 2 = 2) ∨ Instr.modeReqService = Instr.modeReqRun ∧ 4 = 2 ∧ (entering.mode = Mode.load ∧ 2 = 2 ∨
      entering.mode = Mode.doze ∧ entering.phase = Phase.exiting ∧ 2 = 2 ∨ entering.mode = Mode.service ∧ entering.pwr.rescue = true ∧ 2 = 3) ∨
      Instr.modeReqService = Instr.modeReqService ∧ 4 = 4 ∧ (entering.mode = Mode.run ∧ entering.phase = Phase.quiescing ∧ 2 = 1 ∨ entering.mode =
      Mode.doze ∧ entering.phase = Phase.steady ∧ 2 = 1 ∨ entering.mode = Mode.run ∧ entering.phase = Phase.entering ∧ 2 = 2 ∨ entering.mode =
      Mode.doze ∧ entering.phase = Phase.exiting ∧ 2 = 1 ∨ entering.mode = Mode.load ∧ 2 = 2) ∨ (∃ t, Instr.modeReqService = Instr.modeReqInvalid t
      ∧ 4 = t.toNat ∧ (t = (1 : BitVec 3) ∨ t = (5 : BitVec 3) ∨ t = (6 : BitVec 3) ∨ t = (7 : BitVec 3))) ∧ entering.mode ≠ Mode.reset ∧
      entering.mode ≠ Mode.halt ∧ 2 = 1) := by
  decide +kernel

theorem witness_ModeRequestsThatAreRejected_4 :
    (Instr.modeReqInvalid (7 : BitVec 3) = Instr.modeReqDoze ∧ 7 = 3 ∧ (up.mode = Mode.service ∧ 1 = 1 ∨ up.mode = Mode.load ∧ 1 = 2 ∨ up.mode =
      Mode.run ∧ up.phase = Phase.entering ∧ 1 = 2) ∨ Instr.modeReqInvalid (7 : BitVec 3) = Instr.modeReqRun ∧ 7 = 2 ∧ (up.mode = Mode.load ∧ 1 = 2
      ∨ up.mode = Mode.doze ∧ up.phase = Phase.exiting ∧ 1 = 2 ∨ up.mode = Mode.service ∧ up.pwr.rescue = true ∧ 1 = 3) ∨ Instr.modeReqInvalid (7 :
      BitVec 3) = Instr.modeReqService ∧ 7 = 4 ∧ (up.mode = Mode.run ∧ up.phase = Phase.quiescing ∧ 1 = 1 ∨ up.mode = Mode.doze ∧ up.phase =
      Phase.steady ∧ 1 = 1 ∨ up.mode = Mode.run ∧ up.phase = Phase.entering ∧ 1 = 2 ∨ up.mode = Mode.doze ∧ up.phase = Phase.exiting ∧ 1 = 1 ∨
      up.mode = Mode.load ∧ 1 = 2) ∨ (∃ t, Instr.modeReqInvalid (7 : BitVec 3) = Instr.modeReqInvalid t ∧ 7 = t.toNat ∧ (t = (1 : BitVec 3) ∨ t = (5
      : BitVec 3) ∨ t = (6 : BitVec 3) ∨ t = (7 : BitVec 3))) ∧ up.mode ≠ Mode.reset ∧ up.mode ≠ Mode.halt ∧ 1 = 1) := by
  decide +kernel

theorem witness_ModeRequestsThatAreRejected_5 :
    ((7 : BitVec 3) = (1 : BitVec 3) ∨ (7 : BitVec 3) = (5 : BitVec 3) ∨ (7 : BitVec 3) = (6 : BitVec 3) ∨ (7 : BitVec 3) = (7 : BitVec 3)) ∧
      up.mode ≠ Mode.reset ∧ up.mode ≠ Mode.halt := by
  decide +kernel

/-! `Obligations.DozeEntryAndExit` -/

theorem witness_DozeEntry_1 :
    quiescing.mode = Mode.run ∧ quiescing.phase = Phase.quiescing ∧ quiescing.quiescentNow = true := by
  decide +kernel

theorem witness_DozeEntry_2 :
    quiescing.mode = Mode.run ∧ quiescing.phase = Phase.quiescing := by
  decide +kernel

theorem witness_DozeEntry_3 :
    entering.mode = Mode.run ∧ entering.phase = Phase.entering ∧ (∀ h < 24, Part.hub h ∉ entering.pwr.up) ∧ entering.hubEmpty = true := by
  decide +kernel

theorem witness_DozeExit_3 :
    exitingHeld.mode = Mode.doze ∧ exitingHeld.phase = Phase.exiting ∧ exitingHeld.pwr.coreGated = false ∧ (∀ h < 24, Part.hub h ∈
      exitingHeld.pwr.up) ∧ exitingHeld.bcsWait = [readReq] ∧ ({ exitingHeld with mode := .run } : State).mustWait [] readReq = false := by
  decide +kernel

theorem witness_DozeExit_1 :
    exitingGated.mode = Mode.doze ∧ exitingGated.phase = Phase.exiting ∧ exitingGated.pwr.coreGated = true := by
  decide +kernel

theorem witness_DozeExit_2 :
    exitingUp.mode = Mode.doze ∧ exitingUp.phase = Phase.exiting ∧ exitingUp.pwr.coreGated = false ∧ (∀ h < 24, Part.hub h ∈ exitingUp.pwr.up) ∧
      exitingUp.bcsWait = [] := by
  decide +kernel

/-! `Obligations.KickstandSamples` -/

theorem witness_KickstandSamples_1 :
    up.onlyRules [] ∧ up.mode ≠ Mode.doze ∧ up.phase ≠ Phase.entering := by
  refine ⟨by unfold State.onlyRules; decide +kernel, by decide +kernel, ?_⟩
  decide +kernel

theorem witness_KickstandSamples_2 :
    dozeLow.onlyRules [] ∧ dozeLow.mode = Mode.doze ∧ dozeLow.phase = Phase.steady ∧ kick.twakeN = false ∧ dozeLow.kst.twakeLow = 1 := by
  refine ⟨by unfold State.onlyRules; decide +kernel, by decide +kernel, by decide +kernel, by decide +kernel, ?_⟩
  decide +kernel

theorem witness_KickstandSamples_3 :
    0 < 32 ∧ ruled.onlyRules [0] ∧ ruled.mode = Mode.run ∧ ruled.phase = Phase.steady ∧ ruled.fb Fld.kstRuleIn_en = true ∧ ruled.f
      Fld.kstRuleIn_src = 1 ∧ ruled.fb Fld.kstRuleIn_inv = false ∧ bit (ruled.f Fld.kstRuleIn_sel) kick.sbi.toNat = true ∧ (ruled.rule 0).lvl =
      false ∧ max (ruled.f Fld.kstRuleDeb_deb) 1 ≤ (ruled.rule 0).run + 1 ∧ ((ruled.rule 0).opened = true → ruled.kst.now + 1 < (ruled.rule 0).wend)
      ∧ ruled.f Fld.kstRuleDeb_thresh ≤ (ruled.rule 0).cnt + 1 ∧ bit 1 (ruled.f Fld.kstRuleAct_modes) = true ∧ ruled.f Fld.kstRuleAct_action = 2 ∧
      ruled.fb Fld.kstEv_en = false := by
  refine ⟨by decide +kernel, by unfold State.onlyRules; decide +kernel, by decide +kernel, by decide +kernel, ?_⟩
  refine ⟨by decide +kernel, by decide +kernel, by decide +kernel, by decide +kernel, ?_⟩
  refine ⟨by decide +kernel, by decide +kernel, by decide +kernel, by decide +kernel, ?_⟩
  refine ⟨by decide +kernel, by decide +kernel, ?_⟩
  decide +kernel

/-! `Obligations.SmbusCommands` -/

theorem witness_TelemetryRecord :
    smbOn.smbHears = true := by
  decide +kernel

theorem witness_SmbusOwnCommands_1 :
    smbOn.smbHears = true := by
  decide +kernel

theorem witness_SmbusOwnCommands_2 :
    smbOn.smbHears = true ∧ smbOn.mode ≠ Mode.reset := by
  decide +kernel

theorem witness_SmbusOwnCommands_3 :
    smbOn.smbHears = true := by
  decide +kernel

theorem witness_SmbusOwnCommands_4 :
    smbOn.smbHears = true := by
  decide +kernel

theorem witness_SmbusOwnCommands_5 :
    alerted.smbHears = true ∧ alerted.kst.alertNew ≠ (0 : Word) := by
  decide +kernel

theorem witness_SmbusOwnCommands_6 :
    smbOn.smbHears = true ∧ (238 : Byte) ∉ smbCodes := by
  decide +kernel

theorem witness_SmbusOwnCommands_7 :
    smbOn.smbHears = true ∧ (Instr.telem false = Instr.telem false ∨ (∃ lo hi, Instr.telem false = Instr.mode lo hi false) ∨ (∃ v, Instr.telem
      false = Instr.bcsAddr v false) ∨ Instr.telem false = Instr.bcsResult false ∨ (∃ b, Instr.telem false = Instr.trigger b false) ∨ Instr.telem
      false = Instr.alerts false) := by
  decide +kernel

theorem witness_SmbusAccesses_1 :
    smbOn.smbHears = true ∧ smbOn.mode ≠ Mode.reset ∧ smbOn.goes (smbReq (BitVec.toNat smbOn.kst.smbAddr) false (0 : Word)) = true ∧ (∀ (b :
      Block), blockAt (BitVec.toNat smbOn.kst.smbAddr) = some b → slowBlock b = false) := by
  decide +kernel

theorem witness_SmbusAccesses_2 :
    smbOn.smbHears = true ∧ smbOn.mode ≠ Mode.reset ∧ BitVec.toNat smbOn.kst.smbAddr = regOff RegId.glbScratch 0 ∧ smbOn.goesWrite { src :=
      Src.svc } RegId.glbScratch 0 (305419896 : Word) = true := by
  decide +kernel

theorem witness_SmbusAccesses_3 :
    smbOn.smbHears = true ∧ smbOn.mode = Mode.run ∧ smbOn.phase = Phase.steady ∧ smbOn.goesKeyed { src := Src.svc } RegId.glbModeReq 0
      (BitVec.ofNat 32 (BitVec.toNat (3 : Byte) % 8)) (~~~BitVec.ofNat 32 (BitVec.toNat (3 : Byte) % 8)) = true := by
  decide +kernel

theorem witness_SmbusAccesses_4 :
    smbOn.smbHears = true ∧ smbOn.mode = Mode.run ∧ (3 : Byte) ≠ ~~~(3 : Byte) ∧ smbOn.goesKeyed { src := Src.svc } RegId.glbModeReq 0
      (BitVec.ofNat 32 (BitVec.toNat (3 : Byte) % 8)) (~~~BitVec.ofNat 32 (BitVec.toNat (3 : Byte) % 8)) = true := by
  decide +kernel

/-! `Obligations.TapScans` -/

theorem witness_TapInstructions_2 :
    (Instr.extest = Instr.extest ∧ (0 : Byte) = (0 : Byte) ∨ Instr.extest = Instr.extestPulse ∧ (0 : Byte) = (3 : Byte) ∨ Instr.extest =
      Instr.extestTrain ∧ (0 : Byte) = (4 : Byte) ∨ Instr.extest = Instr.clamp ∧ (0 : Byte) = (5 : Byte) ∨ Instr.extest = Instr.highz ∧ (0 : Byte) =
      (6 : Byte)) := by
  decide +kernel

theorem witness_TapInstructions_4 :
    (119 : Byte) ∉ tapCodes := by
  decide +kernel

theorem witness_TapAccesses_1 :
    bit 60 (drOf false false (regOff RegId.glbScratch 0) 0).toNat = true ∧ bit 59 (drOf false false (regOff RegId.glbScratch 0) 0).toNat = false ∧
      bit 58 (drOf false false (regOff RegId.glbScratch 0) 0).toNat = false ∧ up.tap.status ≠ 2 ∧ up.mode ≠ Mode.reset ∧ up.goes (tapReq { src := if
      false = true then Src.dbg else Src.svc } (drOf false false (regOff RegId.glbScratch 0) 0).toNat) = true ∧ (∀ (b : Block), blockAt ((drOf false
      false (regOff RegId.glbScratch 0) 0).toNat / 2 ^ 32 % 2 ^ 26) = some b → slowBlock b = false) := by
  decide +kernel

theorem witness_TapAccesses_2 :
    bit 60 (drOf true false (regOff RegId.glbScratch 0) 7).toNat = true ∧ bit 59 (drOf true false (regOff RegId.glbScratch 0) 7).toNat = false ∧
      bit 58 (drOf true false (regOff RegId.glbScratch 0) 7).toNat = true ∧ up.tap.status ≠ 2 ∧ up.mode ≠ Mode.reset ∧ (drOf true false (regOff
      RegId.glbScratch 0) 7).toNat / 2 ^ 32 % 2 ^ 26 = regOff RegId.glbScratch 0 ∧ up.goesWrite { src := if false = true then Src.dbg else Src.svc }
      RegId.glbScratch 0 (BitVec.ofNat 32 (drOf true false (regOff RegId.glbScratch 0) 7).toNat) = true := by
  decide +kernel

theorem witness_TapAccesses_3 :
    bit 60 (drOf true false 2 7).toNat = true ∧ up.tap.status ≠ 2 ∧ (up.mode = Mode.reset ∨ (drOf true false 2 7).toNat / 2 ^ 32 % 4 ≠ 0) := by
  decide +kernel

theorem witness_TapAccesses_4 :
    bit 60 (drOf true true 4096 7).toNat = true ∧ bit 59 (drOf true true 4096 7).toNat = true ∧ bit 58 (drOf true true 4096 7).toNat = true ∧
      formed.tap.status ≠ 2 ∧ (drOf true true 4096 7).toNat / 2 ^ 32 % 4 = 0 ∧ (drOf true true 4096 7).toNat / 2 ^ 32 % 2 ^ 26 < 2 ^ 25 ∧
      formed.mode = Mode.service ∧ formed.judge gBuf (accIdent { src := Src.svc }) ((drOf true true 4096 7).toNat / 2 ^ 32 % 2 ^ 26) ((drOf true
      true 4096 7).toNat / 2 ^ 32 % 2 ^ 26 + 3) false true = Verdict.ok ∧ formed.img.formed = true ∧ formed.ops = [] ∧ formed.ctxs = [] := by
  decide +kernel

/-! `Obligations.AccessesAreRefused` -/

theorem witness_AccessRefusedForFormOrMode_1 :
    up.canReach svc.src = true ∧ up.mustWait up.bcsWait (wordWrite svc (BitVec.toNat (2 : BitVec 26)) (7 : Word)) = false ∧ up.bcsWait = [] ∧
      svc.posted = false ∧ up.exOn 11 = false ∧ (formCause (wordWrite svc (BitVec.toNat (2 : BitVec 26)) (7 : Word)) = some 2 ∨ formCause (wordWrite
      svc (BitVec.toNat (2 : BitVec 26)) (7 : Word)) = none ∧ (∃ b, blockAt (BitVec.toNat (2 : BitVec 26)) = some b ∧ up.modeRefuses b (wordWrite
      svc (BitVec.toNat (2 : BitVec 26)) (7 : Word)) = true) ∧ 2 = 6) := by
  decide +kernel

theorem witness_AccessRefusedForFormOrMode_2 :
    (loading 3).canReach svc.src = true ∧ (loading 3).mustWait (loading 3).bcsWait (wordWrite svc (ofs RegId.tlkCtl 0).toNat (7 : Word)) = false ∧
      (loading 3).bcsWait = [] ∧ svc.posted = false ∧ (loading 3).exOn 11 = false ∧ (formCause (wordWrite svc (ofs RegId.tlkCtl 0).toNat (7 : Word))
      = some 6 ∨ formCause (wordWrite svc (ofs RegId.tlkCtl 0).toNat (7 : Word)) = none ∧ (∃ b, blockAt (ofs RegId.tlkCtl 0).toNat = some b ∧
      (loading 3).modeRefuses b (wordWrite svc (ofs RegId.tlkCtl 0).toNat (7 : Word)) = true) ∧ 6 = 6) := by
  decide +kernel

theorem witness_RefusalCausesInOrder :
    false = decide (targetAt badFormed.off = Target.reserved) ∧ (true = decide ((badFormed.en.length = 1 ∨ badFormed.en.length = 2 ∨
      badFormed.en.length = 4 ∨ badFormed.en.length = 8) ∧ badFormed.off % badFormed.en.length ≠ 0)) ∧ (false = decide (badFormed.wr = true ∧
      wholeEntry badFormed = false ∧ (badFormed.en.length ≠ 4 ∧ badFormed.en.length ≠ 8 ∨ false ∈ badFormed.en))) ∧ (false = decide (wholeEntry
      badFormed = false ∧ (badFormed.en.length ≠ 1 ∧ badFormed.en.length ≠ 2 ∧ badFormed.en.length ≠ 4 ∧ badFormed.en.length ≠ 8 ∨
      badFormed.en.length = 8 ∧ (targetAt badFormed.off).pairHi = none))) ∧ (false = decide (∃ b, blockAt badFormed.off = some b ∧ up.modeRefuses b
      badFormed = true)) := by
  decide +kernel

theorem witness_RefusalsAreReported :
    up.mode ≠ Mode.reset ∧ 2 < 8 ∧ badThaty.off < 2 ^ 26 ∧ badThaty.via = Via.thaty := by
  decide +kernel

/-! `Obligations.RegisterWritesStore` -/

theorem witness_RegisterWriteStores_1 :
    targetAt (ofs RegId.glbScratch 0).toNat = Target.reg RegId.glbScratch 0 ∧ plainReg RegId.glbScratch = true ∧ regOff RegId.glbScratch 0 = (ofs
      RegId.glbScratch 0).toNat ∧ RegId.glbScratch.row.block ≠ Block.upd ∧ up.reaches svc RegId.glbScratch 0 = true ∧ up.goes (wordWrite svc (ofs
      RegId.glbScratch 0).toNat (3735928559 : Word)) = true ∧ up.noPend (ofs RegId.glbScratch 0).toNat = true := by
  decide +kernel

theorem witness_RegisterWriteStores_2 :
    targetAt (ofs RegId.mgtQBaseLo 0).toNat = Target.reg RegId.mgtQBaseLo 0 ∧ plainReg RegId.mgtQBaseLo = true ∧ regOff RegId.mgtQBaseLo 0 = (ofs
      RegId.mgtQBaseLo 0).toNat ∧ RegId.mgtQBaseLo.row.block ≠ Block.upd ∧ mgtOn.reaches svc RegId.mgtQBaseLo 0 = true ∧ mgtOn.goes (wordWrite svc
      (ofs RegId.mgtQBaseLo 0).toNat (3735879680 : Word)) = true ∧ mgtOn.noPend (ofs RegId.mgtQBaseLo 0).toNat = true := by
  decide +kernel

theorem witness_RegisterWriteStores_3 :
    targetAt (ofs RegId.engC0Cap 0).toNat = Target.reg RegId.engC0Cap 0 ∧ plainReg RegId.engC0Cap = true ∧ regOff RegId.engC0Cap 0 = (ofs
      RegId.engC0Cap 0).toNat ∧ RegId.engC0Cap.row.block ≠ Block.upd ∧ up.reaches svc RegId.engC0Cap 0 = true ∧ up.goes (wordWrite svc (ofs
      RegId.engC0Cap 0).toNat (49 : Word)) = true ∧ up.noPend (ofs RegId.engC0Cap 0).toNat = true := by
  decide +kernel

theorem witness_AliasWriteActsOnFields :
    targetAt (BitVec.ofNat 26 (regOff RegId.engC0Cap 0 + Block.eng.size)).toNat = Target.viaAlias AliasKind.set RegId.engC0Cap 0 ∧ plainReg
      RegId.engC0Cap = true ∧ RegId.engC0Cap.row.block ≠ Block.upd ∧ up.reaches svc RegId.engC0Cap 0 = true ∧ up.lockMask RegId.engC0Cap 0 = (0 :
      Word) ∧ up.goes (wordWrite svc (BitVec.ofNat 26 (regOff RegId.engC0Cap 0 + Block.eng.size)).toNat (49 : Word)) = true ∧ up.noPend
      (BitVec.ofNat 26 (regOff RegId.engC0Cap 0 + Block.eng.size)).toNat = true := by
  decide +kernel

/-! `Obligations.RegisterReads` -/

theorem witness_ReadClearsRcFields :
    targetAt (ofs RegId.tlkFecCorr 1).toNat = Target.reg RegId.tlkFecCorr 1 ∧ regOff RegId.tlkFecCorr 1 = (ofs RegId.tlkFecCorr 1).toNat ∧
      RegId.tlkFecCorr.row.half = Half.none ∧ RegId.tlkFecCorr.row.rc ≠ (0 : Word) ∧ (up.setF Fld.tlkFecCorr_count 77 1).goes (wordRead svc (ofs
      RegId.tlkFecCorr 1).toNat) = true := by
  decide +kernel

theorem witness_PairReadsAreCoherent_1 :
    targetAt (ofs RegId.glbTsLo 0).toNat = Target.reg RegId.glbTsLo 0 ∧ RegId.glbTsLo.row.half = Half.lo ∧ regOff RegId.glbTsLo 0 = (ofs
      RegId.glbTsLo 0).toNat ∧ regAt ((ofs RegId.glbTsLo 0).toNat + 4) = some (RegId.glbTsHi, 0) ∧ up.goes (wordRead svc (ofs RegId.glbTsLo
      0).toNat) = true := by
  decide +kernel

theorem witness_PairReadsAreCoherent_2 :
    targetAt (ofs RegId.glbTsHi 0).toNat = Target.reg RegId.glbTsHi 0 ∧ RegId.glbTsHi.row.half = Half.hi ∧ regOff RegId.glbTsHi 0 = (ofs
      RegId.glbTsHi 0).toNat ∧ FMap.find (ofs RegId.glbTsHi 0).toNat shadowed.hiShadow = some (5 : Word) ∧ shadowed.goes (wordRead svc (ofs
      RegId.glbTsHi 0).toNat) = true := by
  decide +kernel

theorem witness_PairReadsAreCoherent_3 :
    targetAt (ofs RegId.glbTsHi 0).toNat = Target.reg RegId.glbTsHi 0 ∧ RegId.glbTsHi.row.half = Half.hi ∧ regOff RegId.glbTsHi 0 = (ofs
      RegId.glbTsHi 0).toNat ∧ FMap.find (ofs RegId.glbTsHi 0).toNat up.hiShadow = none ∧ up.goes (wordRead svc (ofs RegId.glbTsHi 0).toNat) = true := by
  decide +kernel

/-! `Obligations.KeyedPairs` -/

theorem witness_KeyedPairs_1 :
    targetAt (ofs RegId.gateDefmap 9).toNat = Target.reg RegId.gateDefmap 9 ∧ RegId.gateDefmap.row.keyed = true ∧ blockAt (ofs RegId.gateDefmap
      9).toNat = some Block.gate ∧ svc.posted = false ∧ up.noPend (ofs RegId.gateDefmap 9).toNat = true ∧ up.goes (wordWrite svc (ofs
      RegId.gateDefmap 9).toNat (4042322160 : Word)) = true := by
  decide +kernel

theorem witness_KeyedPairs_2 :
    targetAt (ofs RegId.gateDefmap 9 + (4 : BitVec 26)).toNat = Target.comp RegId.gateDefmap 9 ∧ svc.posted = false ∧ halfGiven.goes (wordWrite
      svc (ofs RegId.gateDefmap 9 + (4 : BitVec 26)).toNat (~~~(4042322160 : Word))) = true ∧ halfGiven.rescued = false ∧ FMap.find Block.gate.base
      halfGiven.keyPend = some { off := regOff RegId.gateDefmap 9, val := (4042322160 : Word), src := Src.svc, reqId := ↑0 } ∧ ↑0 = svc.reqId ∧
      (Src.svc = svc.src ∨ (Src.svc = Src.tl0 ∨ Src.svc = Src.tl1) ∧ (svc.src = Src.tl0 ∨ svc.src = Src.tl1)) := by
  decide +kernel

theorem witness_KeyedPairs_3 :
    targetAt (ofs RegId.gateDefmap 9 + (4 : BitVec 26)).toNat = Target.comp RegId.gateDefmap 9 ∧ blockAt (ofs RegId.gateDefmap 9 + (4 : BitVec
      26)).toNat = some Block.gate ∧ Block.gate ≠ Block.cmp ∧ halfGiven.goes (wordWrite svc (ofs RegId.gateDefmap 9 + (4 : BitVec 26)).toNat
      (4042322160 : Word)) = true ∧ FMap.find Block.gate.base halfGiven.keyPend = some givenHalf ∧ (svc.posted = true ∧ (∀ (q : KeyPend), some
      givenHalf = some q → q.off = regOff RegId.gateDefmap 9 ∧ samePend q svc = true) ∧ 0 = 1 ∨ svc.posted = false ∧ some givenHalf = none ∧ 0 = 1 ∨
      svc.posted = false ∧ (∃ q : KeyPend, some givenHalf = some q ∧ q.off = regOff RegId.gateDefmap 9 ∧ samePend q svc = false) ∧ 0 = 2 ∨
      svc.posted = false ∧ (∃ q : KeyPend, some givenHalf = some q ∧ q.off = regOff RegId.gateDefmap 9 ∧ samePend q svc = true ∧ (4042322160 : Word)
      ≠ ~~~q.val) ∧ 0 = 0) := by
  decide +kernel

theorem witness_KeyedPairs_3b :
    targetAt (ofs RegId.gateDefmap 9 + (4 : BitVec 26)).toNat = Target.comp RegId.gateDefmap 9 ∧ blockAt (ofs RegId.gateDefmap 9 + (4 : BitVec
      26)).toNat = some Block.gate ∧ Block.gate ≠ Block.cmp ∧ up.goes (wordWrite svc (ofs RegId.gateDefmap 9 + (4 : BitVec 26)).toNat (4042322160 :
      Word)) = true ∧ FMap.find Block.gate.base up.keyPend = none ∧ (svc.posted = true ∧ (∀ (q : KeyPend), (none : Option KeyPend) = some q → q.off
      = regOff RegId.gateDefmap 9 ∧ samePend q svc = true) ∧ 1 = 1 ∨ svc.posted = false ∧ (none : Option KeyPend) = none ∧ 1 = 1 ∨ svc.posted =
      false ∧ (∃ q : KeyPend, (none : Option KeyPend) = some q ∧ q.off = regOff RegId.gateDefmap 9 ∧ samePend q svc = false) ∧ 1 = 2 ∨ svc.posted =
      false ∧ (∃ q : KeyPend, (none : Option KeyPend) = some q ∧ q.off = regOff RegId.gateDefmap 9 ∧ samePend q svc = true ∧ (4042322160 : Word) ≠
      ~~~q.val) ∧ 1 = 0) := by
  decide +kernel

theorem witness_KeyedPairs_3c :
    targetAt (ofs RegId.gateDefmap 9 + (4 : BitVec 26)).toNat = Target.comp RegId.gateDefmap 9 ∧ blockAt (ofs RegId.gateDefmap 9 + (4 : BitVec
      26)).toNat = some Block.gate ∧ Block.gate ≠ Block.cmp ∧ halfDbg.goes (wordWrite dbg (ofs RegId.gateDefmap 9 + (4 : BitVec 26)).toNat
      (252645135 : Word)) = true ∧ FMap.find Block.gate.base halfDbg.keyPend = some givenHalf ∧ (dbg.posted = true ∧ (∀ (q : KeyPend), some
      givenHalf = some q → q.off = regOff RegId.gateDefmap 9 ∧ samePend q dbg = true) ∧ 2 = 1 ∨ dbg.posted = false ∧ some givenHalf = none ∧ 2 = 1 ∨
      dbg.posted = false ∧ (∃ q, some givenHalf = some q ∧ q.off = regOff RegId.gateDefmap 9 ∧ samePend q dbg = false) ∧ 2 = 2 ∨ dbg.posted = false
      ∧ (∃ q, some givenHalf = some q ∧ q.off = regOff RegId.gateDefmap 9 ∧ samePend q dbg = true ∧ (252645135 : Word) ≠ ~~~q.val) ∧ 2 = 0) := by
  decide +kernel

theorem witness_KeyedPairs_4 :
    halfGiven.keyPend = [(Block.gate.base, givenHalf)] ∧ givenHalf.off = (ofs RegId.gateDefmap 9).toNat ∧ blockAt givenHalf.off ≠ some Block.cmp := by
  decide +kernel

/-! `Obligations.SlowAccessesAndStrobes` -/

theorem witness_SlowAccessesCompleteInOrder :
    crossing.slowQ = [(smbReq Block.kst.base false (0 : Word), BcsRes.done [(1 : Byte), (2 : Byte), (3 : Byte), (4 : Byte)])] ∧ crossing.bcsWait =
      [] := by
  decide +kernel

theorem witness_StrobeStartsOrOverruns_1 :
    up.goesWrite svc RegId.updStrobe 0 (4294959233 : Word) = true := by
  decide +kernel

theorem witness_StrobeStartsOrOverruns_2 :
    mask2.goesWrite svc RegId.updStrobe 0 (4294959233 : Word) = true := by
  decide +kernel

theorem witness_StrobeCommitsAllOrNothing :
    mask2.mode ≠ Mode.reset ∧ mask2.mode ≠ Mode.halt ∧ mask2.strobe.mask = some (2 ^ 2) ∧ mask2.bcsWait = [] ∧ (Block.pwr = Block.bst ∧ 2 = 1 ∧
      mask2.start.pwrOk = mask2.start.bstOk ∨ Block.pwr = Block.pwr ∧ 2 = 2 ∧ mask2.start.pwrOk = mask2.start.pwrOk ∨ Block.pwr = Block.tlk ∧ 2 = 5
      ∧ mask2.start.pwrOk = mask2.start.tlkOk ∨ Block.pwr = Block.jnl ∧ 2 = 6 ∧ mask2.start.pwrOk = true ∨ Block.pwr = Block.eng ∧ 2 = 7 ∧
      mask2.start.pwrOk = mask2.start.engOk ∨ Block.pwr = Block.cmp ∧ 2 = 8 ∧ mask2.start.pwrOk = mask2.start.cmpOk) := by
  decide +kernel

/-! `Obligations.TablesPendDiscardAndWait` -/

theorem witness_TablesPendDiscardAndWait_1 :
    BitVec.toNat (65535 : BitVec 18) < 65536 ∧ 28 % 4 = 0 ∧ up.goes (wordWrite svc (Block.wtt.base + 32 * BitVec.toNat (65535 : BitVec 18) + 28)
      (16909060 : Word)) = true ∧ (List.length up.tbl.wttPend < 4096 ∨ (FMap.find (BitVec.toNat (65535 : BitVec 18)) up.tbl.wttPend).isSome = true) := by
  decide +kernel

theorem witness_TablesPendDiscardAndWait_2 :
    12 < 16 ∧ 12 % 4 = 0 ∧ fullTable.goes (wordWrite svc (Block.dvt.base + 16 * BitVec.toNat (262143 : BitVec 18) + 12) (16909060 : Word)) = true
      ∧ 4096 ≤ List.length fullTable.tbl.dvtPend ∧ FMap.find (BitVec.toNat (262143 : BitVec 18)) fullTable.tbl.dvtPend = none := by
  decide +kernel

theorem witness_TablesPendDiscardAndWait_3 :
    pendTable.goesWrite svc RegId.updTblCtl 0 (1 : Word) = true ∧ pendTable.strobe.mask = none := by
  decide +kernel

theorem witness_TablesPendDiscardAndWait_4 :
    pendTable.goesWrite svc RegId.updTblCtl 0 (2 : Word) = true ∧ pendTable.strobe.mask = none := by
  decide +kernel

theorem witness_TablesPendDiscardAndWait_5 :
    waited.goesWrite svc RegId.updTblBarrier 0 (1 : Word) = true := by
  decide +kernel

theorem witness_TablesPendDiscardAndWait_6 :
    waited.mode ≠ Mode.reset ∧ waited.mode ≠ Mode.halt ∧ (∀ e ∈ waited.jnl.entries, e.2.serial ∈ waited.tbl.barrier → e.2.st ≠ JSt.admitted ∧
      e.2.st ≠ JSt.issued ∧ e.2.st ≠ JSt.farDone) := by
  decide +kernel

/-! `Obligations.LinkBlocksAndReplay` -/

theorem witness_LinkBlocksAreTakenInOrder_1 :
    (linked.link 1).flows = true ∧ linked.exOn 9 = false ∧ ([(1 : Byte)].length ≠ 256 ∨ crc32c (List.take 252 [(1 : Byte)]) ≠ BitVec.ofNat 32
      (fieldAt 252 4 [(1 : Byte)])) := by
  decide +kernel

theorem witness_LinkBlocksAreTakenInOrder_2 :
    (linked.link 1).flows = true ∧ linked.exOn 9 = false ∧ (block 9 4095).length = 256 ∧ crc32c (List.take 252 (block 9 4095)) = BitVec.ofNat 32
      (fieldAt 252 4 (block 9 4095)) ∧ fieldAt 0 2 (block 9 4095) % 16 = 0 ∧ fieldAt 0 2 (block 9 4095) / 16 ≠ (linked.link 1).rxNext := by
  decide +kernel

theorem witness_LinkBlocksAreTakenInOrder_3 :
    (unacked.link 1).flows = true ∧ unacked.exOn 9 = false ∧ (block 0 5).length = 256 ∧ crc32c (List.take 252 (block 0 5)) = BitVec.ofNat 32
      (fieldAt 252 4 (block 0 5)) ∧ fieldAt 0 2 (block 0 5) % 16 = 0 ∧ bit 3 (fieldAt 2 2 (block 0 5)) = false ∧ fieldAt 6 2 (block 0 5) % 4096 = 0
      ∧ (unacked.link 1).egress = [] ∧ fieldAt 0 2 (block 0 5) / 16 = (unacked.link 1).rxNext ∧ (unacked.link 1).rxSkip = false ∧ (unacked.link
      1).unacked = [] ++ [ackBlk, ackBlk6] ∧ ackBlk.seq = fieldAt 2 2 (block 0 5) / 16 ∧ (∀ y ∈ ([] : List TxBlk), y.seq ≠ ackBlk.seq) ∧ (∀ y ∈ []
      ++ [ackBlk], y.frees = []) ∧ (parseStream (((unacked.link 1).rxPart ++ slice 8 244 (block 0 5)).length + 1) ((unacked.link 1).rxPart ++ slice
      8 244 (block 0 5)) []).bad = false := by
  decide +kernel

theorem witness_ReplaySendsEveryUnackedBlock_1 :
    unacked.mode ≠ Mode.reset ∧ (unacked.link 1).flows = true ∧ (unacked.link 1).unacked ≠ [] ∧ unacked.mute 33 = true ∧ unacked.mute 34 = true := by
  decide +kernel

theorem witness_ReplaySendsEveryUnackedBlock_2 :
    ((linked.link 1).flows = false ∨ (linked.link 1).unacked = []) := by
  decide +kernel

/-! `Obligations.LinksRetrainAndQuiet` -/

theorem witness_RetrainingTriggers_1 :
    linked.mode ≠ Mode.reset ∧ (linked.link 1).flows = true ∧ linked.mute 34 = true := by
  decide +kernel

theorem witness_RetrainingTriggers_2 :
    linked.mode ≠ Mode.reset ∧ (linked.link 1).flows = true ∧ linked.mute 34 = true ∧ (linked.link 1).width < 3 ∧ (15 / if (linked.link 1).width =
      0 then 16 else if (linked.link 1).width = 1 then 8 else 4) = (linked.link 1).group := by
  decide +kernel

theorem witness_RetrainingTriggers_3 :
    thresh.mode ≠ Mode.reset ∧ (thresh.link 1).flows = true ∧ thresh.mute 34 = true ∧ thresh.f Fld.tlkFecThresh_uncorr 1 ≠ 0 ∧ thresh.f
      Fld.tlkFecThresh_uncorr 1 < BitVec.toNat (10 : BitVec 16) := by
  decide +kernel

theorem witness_RetrainingTriggers_4 :
    thresh.mode ≠ Mode.reset ∧ (thresh.link 1).flows = true ∧ thresh.mute 34 = true ∧ (thresh.f Fld.tlkFecThresh_uncorr 1 = 0 ∨ BitVec.toNat (9 :
      BitVec 16) ≤ thresh.f Fld.tlkFecThresh_uncorr 1) := by
  decide +kernel

theorem witness_RetrainingTriggers_5 :
    (up.link 1).flows = false := by
  decide +kernel

theorem witness_HostRetrainsLink :
    linked.goesWrite svc RegId.tlkCtl 1 (linked.shadowReg RegId.tlkCtl 1 &&& (96 : Word) ||| (128 : Word)) = true ∧ (linked.link 1).flows = true ∧
      linked.mute 34 = true := by
  decide +kernel

theorem witness_QuietAndFullWidth_1 :
    (quietReq.link 1).st = LinkSt.up ∧ (quietReq.link 1).quietReq = true ∧ 0 < 4 ∧ (∀ n < 4, (quietReq.link 1).laneOk.getLsbD (4 * 0 + n) = true)
      ∧ (∀ k < 0, ∃ n < 4, (quietReq.link 1).laneOk.getLsbD (4 * k + n) = false) := by
  decide +kernel

theorem witness_QuietAndFullWidth_2 :
    (¬((linked.link 1).st = LinkSt.up ∧ (linked.link 1).quietReq = true)) := by
  decide +kernel

theorem witness_QuietAndFullWidth_3 :
    (quiet.link 1).st = LinkSt.quiet ∧ (¬(quiet.mode = Mode.run ∧ quiet.phase = Phase.entering)) := by
  decide +kernel

theorem witness_QuietAndFullWidth_4 :
    (linked.link 1).st ≠ LinkSt.quiet := by
  decide +kernel

/-! `Obligations.LinkTrainingAndLoss` -/

theorem witness_TrainingBringsLinkUp_1 :
    training.mode ≠ Mode.reset ∧ training.dozing = false ∧ training.entering = false ∧ training.mute 35 = true ∧ trainWidth trainOk.lanes
      (training.f Fld.tlkCtl_min_width 1) = some (0, 0) ∧ (training.link 1).egress = [] ∧ (training.link 1).st = LinkSt.train ∧ trainOk.finiteCpl =
      false := by
  decide +kernel

theorem witness_TrainingBringsLinkUp_2 :
    retraining.mode ≠ Mode.reset ∧ retraining.dozing = false ∧ retraining.entering = false ∧ retraining.mute 35 = true ∧ trainWidth trainOk.lanes
      (retraining.f Fld.tlkCtl_min_width 1) = some (0, 0) ∧ (retraining.link 1).egress = [] ∧ (retraining.link 1).st = LinkSt.retrain := by
  decide +kernel

theorem witness_TrainingFails_1 :
    ((training.link 1).st = LinkSt.train ∨ (training.link 1).st = LinkSt.retrain) := by
  decide +kernel

theorem witness_TrainingFails_2 :
    ((retraining.link 1).st = LinkSt.train ∨ (retraining.link 1).st = LinkSt.retrain) := by
  decide +kernel

theorem witness_TrainingFails_3 :
    ((training.link 1).st = LinkSt.train ∨ (training.link 1).st = LinkSt.retrain) ∧ (trainWidth trainBad.lanes (training.f Fld.tlkCtl_min_width 1)
      = none ∨ (training.link 1).st = LinkSt.train ∧ trainBad.finiteCpl = true) := by
  decide +kernel

theorem witness_TrainingFails_4 :
    (linked.link 1).st ≠ LinkSt.train ∧ (linked.link 1).st ≠ LinkSt.retrain := by
  decide +kernel

theorem witness_TrainingFails_5 :
    down.linksOn = true ∧ (down.link 1).st = LinkSt.down := by
  decide +kernel

theorem witness_TrainingFails_6 :
    downHalt.mode = Mode.halt := by
  decide +kernel

theorem witness_FailoverAndDownLimit_1 :
    moving.canMove 1 = true ∧ moving.mute 36 = true := by
  decide +kernel

theorem witness_FailoverAndDownLimit_2 :
    stuck.canMove 1 = false := by
  decide +kernel

theorem witness_FailoverAndDownLimit_3 :
    stuck.works = true ∧ stuck.holdsTraffic 1 = true ∧ stuck.canMove 1 = false ∧ (stuck.link 1).moved = false ∧ stuck.fb Fld.fltHalt_valid = false := by
  decide +kernel

theorem witness_FailoverAndDownLimit_4 :
    (moving.holdsTraffic 1 = false ∨ moving.canMove 1 = true) := by
  decide +kernel

/-! `Obligations.RequestsRefusedOrToTheBcs` -/

theorem witness_RequestsThatAreNotPerformed_1 :
    linked.mode ≠ Mode.reset ∧ (linked.link 1).flows = true ∧ reqOk badHdr = false ∧ linked.mute 32 = true := by
  decide +kernel

theorem witness_RequestsThatAreNotPerformed_2 :
    linked.works = true ∧ linked.asleep = false ∧ (linked.link 1).flows = true ∧ reqOk rdHdr = true ∧ linked.inBcs rdHdr = false ∧
      linked.outWindow (reqFirst rdHdr) = none := by
  decide +kernel

theorem witness_RequestsThatAreNotPerformed_3 :
    linked.works = true ∧ linked.asleep = false ∧ (linked.link 1).flows = true ∧ reqOk wrHdr = true ∧ linked.inBcs wrHdr = false ∧
      linked.outWindow (reqFirst wrHdr) = none ∧ wrHdr.poison = false := by
  decide +kernel

theorem witness_RequestsToTheControlSpace_1 :
    reqOk (bcsHdr RegId.glbScratch) = true ∧ placed.inBcs (bcsHdr RegId.glbScratch) = true ∧ targetAt (reqAccess 1 (bcsHdr RegId.glbScratch) false
      []).off = Target.reg RegId.glbScratch 0 ∧ regOff RegId.glbScratch 0 = (reqAccess 1 (bcsHdr RegId.glbScratch) false []).off ∧ (reqAccess 1
      (bcsHdr RegId.glbScratch) false []).en = List.replicate 4 true ∧ RegId.glbScratch.row.half = Half.none ∧ RegId.glbScratch.row.rc = (0 : Word)
      ∧ slowBlock RegId.glbScratch.row.block = false ∧ placed.goes (reqAccess 1 (bcsHdr RegId.glbScratch) false []) = true := by
  decide +kernel

theorem witness_RequestsToTheControlSpace_2 :
    reqOk (bcsHdr RegId.glbScratch) = true ∧ (bcsHdr RegId.glbScratch).poison = false ∧ placed.inBcs (bcsHdr RegId.glbScratch) = true ∧ reqAccess
      1 (bcsHdr RegId.glbScratch) true (natBytes 8 (7 * 2 ^ 32)) = wordWrite (reqAccess 1 (bcsHdr RegId.glbScratch) true (natBytes 8 7)).acc (regOff
      RegId.glbScratch 0) (7 : Word) ∧ targetAt (regOff RegId.glbScratch 0) = Target.reg RegId.glbScratch 0 ∧ plainReg RegId.glbScratch = true ∧
      RegId.glbScratch.row.block ≠ Block.upd ∧ placed.reaches (reqAccess 1 (bcsHdr RegId.glbScratch) true (natBytes 8 7)).acc RegId.glbScratch 0 =
      true ∧ placed.lockMask RegId.glbScratch 0 = (0 : Word) ∧ placed.goesWrite (reqAccess 1 (bcsHdr RegId.glbScratch) true (natBytes 8 7)).acc
      RegId.glbScratch 0 (7 : Word) = true := by
  decide +kernel

/-! `Obligations.RequestAdmission` -/

theorem witness_RequestsAreAdmitted_1 :
    (served.link 1).flows = true ∧ served.admissible 1 (served.link 1).held (served.oversizeFirst served.jnl.serial) rdHdr false (windowOf win)
      (deviceOf dev) (served.free % 4194304) granted5 := by
  refine ⟨by decide +kernel, ?_⟩
  unfold State.admissible
  refine ⟨by decide +kernel, by decide +kernel, by decide +kernel, ?_⟩
  refine ⟨by decide +kernel, by decide +kernel, by decide +kernel, ?_⟩
  refine ⟨by decide +kernel, by decide +kernel, by decide +kernel, by decide +kernel, by decide +kernel, fun _ => ?_⟩
  unfold State.piecesPass
  decide +kernel

theorem witness_RequestsAreAdmitted_2 :
    (served.link 1).flows = true ∧ served.admissible 1 (served.link 1).held (served.oversizeFirst served.jnl.serial) wrHdr true (windowOf win)
      (deviceOf dev) (served.free % 4194304) granted4 := by
  refine ⟨by decide +kernel, ?_⟩
  unfold State.admissible
  refine ⟨by decide +kernel, by decide +kernel, by decide +kernel, ?_⟩
  refine ⟨by decide +kernel, by decide +kernel, by decide +kernel, ?_⟩
  refine ⟨by decide +kernel, by decide +kernel, by decide +kernel, by decide +kernel, by decide +kernel, fun _ => ?_⟩
  unfold State.piecesPass
  decide +kernel

theorem witness_WaitingRequestsAreAdmitted_1 :
    (held.link 1).held = [{ stamp := 3, pkt := Packet.mrd rdHdr, found := OutFound.ok (windowOf win) (deviceOf dev) }] ∧ OutFound.ok (windowOf
      win) (deviceOf dev) = OutFound.ok (windowOf win) (deviceOf dev) ∧ held.admissible 1 [] (held.oversizeFirst 3) rdHdr false (windowOf win)
      (deviceOf dev) (held.free % 4194304) granted5 ∧ grainsOf (8 * granulesOf rdHdr.len.toNat) ≤ (held.inst (windowOf win).owner).lquota := by
  refine ⟨by decide +kernel, by decide +kernel, ?_⟩
  refine ⟨?_, ?_⟩
  · unfold State.admissible
    refine ⟨by decide +kernel, by decide +kernel, by decide +kernel, ?_⟩
    refine ⟨by decide +kernel, by decide +kernel, by decide +kernel, ?_⟩
    refine ⟨by decide +kernel, by decide +kernel, by decide +kernel, by decide +kernel, by decide +kernel, fun _ => ?_⟩
    unfold State.piecesPass
    decide +kernel
  decide +kernel

theorem witness_WaitingRequestsAreAdmitted_2 :
    (oversize.link 1).held = [{ stamp := 3, pkt := Packet.mrd rdHdr, found := OutFound.ok (windowOf win) (deviceOf dev) }] ∧ OutFound.ok (windowOf
      win) (deviceOf dev) = OutFound.ok (windowOf win) (deviceOf dev) ∧ oversize.admissible 1 [] (oversize.oversizeFirst 3) rdHdr false (windowOf
      win) (deviceOf dev) (oversize.free % 4194304) oversized ∧ (oversize.inst (windowOf win).owner).lquota < grainsOf (8 * granulesOf
      rdHdr.len.toNat) := by
  refine ⟨by decide +kernel, by decide +kernel, ?_⟩
  refine ⟨?_, ?_⟩
  · unfold State.admissible
    refine ⟨by decide +kernel, by decide +kernel, by decide +kernel, ?_⟩
    refine ⟨by decide +kernel, by decide +kernel, by decide +kernel, ?_⟩
    refine ⟨by decide +kernel, by decide +kernel, by decide +kernel, by decide +kernel, by decide +kernel, fun _ => ?_⟩
    unfold State.piecesPass
    decide +kernel
  decide +kernel

theorem witness_HeldTransferIsCharged :
    c0State.works = true ∧ List.filter (fun h ↦ h.inst == 5) c0State.hub.held = [c0Held] ∧ c0Held.act = HeldAct.piece 3 ∧ c0State.op? 3 = some
      c0Op ∧ (c0State.entry 3).kind < 5 ∧ 65536 * c0Cost c0Held.bytes ≤ (c0State.inst 5).c0tokens ∧ 256 * c0Cost c0Held.bytes ≤ c0State.portTokens
      c0Held.port := by
  decide +kernel

/-! `Obligations.CompletionsAndTimeouts` -/

theorem witness_CompletionsEndRequests_1 :
    linked.mode ≠ Mode.reset ∧ (linked.link 1).flows = true ∧ linked.outReq 1 cplHdr = none ∧ linked.mute 32 = true := by
  decide +kernel

theorem witness_CompletionsEndRequests_6 :
    (retraining.link 1).flows = false := by
  decide +kernel

theorem witness_CompletionsEndRequests_2 :
    ctxAsks.mode ≠ Mode.reset ∧ (ctxAsks.link 1).flows = true ∧ ctxAsks.works = true ∧ ctxAsks.outReq 1 cplBad = some outReq ∧ ctxAsks.asked
      outReq 6 fetchingCtx = true ∧ 4 ∈ [1, 2, 4, 5] ∧ cplBad.status.toNat = 4 := by
  decide +kernel

theorem witness_CompletionsEndRequests_3 :
    ctxAsks.mode ≠ Mode.reset ∧ (ctxAsks.link 1).flows = true ∧ ctxAsks.works = true ∧ ctxAsks.outReq 1 cplPoison = some outReq ∧ ctxAsks.asked
      outReq 6 fetchingCtx = true ∧ pieceFits outReq cplPoison.offset.toNat (granulesOf cplPoison.len.toNat) = true ∧ cplPoison.status = (0 : BitVec
      4) ∧ cplPoison.poison = true := by
  decide +kernel

theorem witness_CompletionsEndRequests_4 :
    ctxAsks.mode ≠ Mode.reset ∧ (ctxAsks.link 1).flows = true ∧ ctxAsks.works = true ∧ ctxAsks.outReq 1 cplHdr = some outReq ∧ ctxAsks.asked
      outReq 6 fetchingCtx = true ∧ pieceFits outReq cplHdr.offset.toNat (granulesOf cplHdr.len.toNat) = true ∧ cplHdr.status = (0 : BitVec 4) ∧
      cplHdr.poison = false ∧ gotGranules outReq + granulesOf cplHdr.len.toNat = outReq.granules := by
  decide +kernel

theorem witness_CompletionsEndRequests_5 :
    ctxAsks2.mode ≠ Mode.reset ∧ (ctxAsks2.link 1).flows = true ∧ ctxAsks2.works = true ∧ ctxAsks2.outReq 1 cplHdr = some outReq2 ∧ ctxAsks2.asked
      outReq2 6 fetchingCtx = true ∧ pieceFits outReq2 cplHdr.offset.toNat (granulesOf cplHdr.len.toNat) = true ∧ cplHdr.status = (0 : BitVec 4) ∧
      cplHdr.poison = false ∧ gotGranules outReq2 + granulesOf cplHdr.len.toNat ≠ outReq2.granules := by
  decide +kernel

theorem witness_CompletionTimeout_1 :
    ctxAsks.works = true ∧ (ctxAsks.link 1).st ≠ LinkSt.retrain ∧ List.find? (fun r ↦ r.tag == BitVec.toNat (4660 : BitVec 16)) (ctxAsks.link
      1).outst = some outReq ∧ ctxAsks.asked outReq 6 fetchingCtx = true ∧ ctxAsks.fb Fld.fltEvDest_en = false ∧ (∀ (i : ℕ), ctxAsks.evOn i 6 =
      false) := by
  refine ⟨by decide +kernel, by decide +kernel, by decide +kernel, by decide +kernel, ?_⟩
  refine ⟨by decide +kernel, ?_⟩
  exact evOn_off (by decide +kernel)

theorem witness_CompletionTimeout_2 :
    (retraining.link 1).st = LinkSt.retrain := by
  decide +kernel

/-! `Obligations.MessagesReceived` -/

theorem witness_MessagesReceived_1 :
    dozeLinked.mode ≠ Mode.reset ∧ (dozeLinked.link 1).flows = true ∧ (msgHdr (2 : Byte)).len.toNat ≤ 8 ∧ (msgHdr (2 : Byte)).priv = true ∧
      (msgHdr (2 : Byte)).code = (2 : Byte) ∧ dozeLinked.mode = Mode.doze ∧ dozeLinked.phase = Phase.steady := by
  decide +kernel

theorem witness_MessagesReceived_2 :
    linked.mode ≠ Mode.reset ∧ (linked.link 1).flows = true ∧ (msgHdr (2 : Byte)).len.toNat ≤ 8 ∧ (msgHdr (2 : Byte)).priv = true ∧ (msgHdr (2 :
      Byte)).code = (2 : Byte) ∧ linked.mode ≠ Mode.doze ∧ (¬(linked.mode = Mode.run ∧ linked.phase = Phase.entering)) := by
  decide +kernel

theorem witness_MessagesReceived_3 :
    linked.mode ≠ Mode.reset ∧ (linked.link 1).flows = true ∧ (msgHdr (3 : Byte)).len.toNat ≤ 8 ∧ (msgHdr (3 : Byte)).priv = true ∧ (msgHdr (3 :
      Byte)).code = (3 : Byte) ∧ linked.fb Fld.tlkBcsBaseLo_placed = false := by
  decide +kernel

theorem witness_MessagesReceived_4 :
    placedAt.mode ≠ Mode.reset ∧ (placedAt.link 1).flows = true ∧ (msgHdr (3 : Byte)).len.toNat ≤ 8 ∧ (msgHdr (3 : Byte)).priv = true ∧ (msgHdr (3
      : Byte)).code = (3 : Byte) ∧ placedAt.fb Fld.tlkBcsBaseLo_placed = true ∧ placedAt.f Fld.tlkBcsBaseLo_base_lo = bits 31 26 (fieldAt 0 8
      (natBytes 8 (2 ^ 26))) ∧ placedAt.f Fld.tlkBcsBaseHi_base_hi = bits 55 32 (fieldAt 0 8 (natBytes 8 (2 ^ 26))) ∧ placedAt.f Fld.tlkBridgeId_id
      = BitVec.toNat (msgHdr (3 : Byte)).arg % 2 ^ 20 := by
  decide +kernel

theorem witness_MessagesReceived_5 :
    placed.mode ≠ Mode.reset ∧ (placed.link 1).flows = true ∧ (msgHdr (3 : Byte)).len.toNat ≤ 8 ∧ (msgHdr (3 : Byte)).priv = true ∧ (msgHdr (3 :
      Byte)).code = (3 : Byte) ∧ placed.fb Fld.tlkBcsBaseLo_placed = true ∧ placed.f Fld.tlkBridgeId_id ≠ BitVec.toNat (msgHdr (3 : Byte)).arg % 2 ^
      20 ∧ placed.mute 32 = true := by
  decide +kernel

theorem witness_MessagesReceived_6 :
    linked.mode ≠ Mode.reset ∧ (linked.link 1).flows = true ∧ (msgHdr (9 : Byte)).len.toNat ≤ 8 ∧ ((msgHdr (9 : Byte)).priv = false ∨ (msgHdr (9 :
      Byte)).code ≠ (2 : Byte) ∧ (msgHdr (9 : Byte)).code ≠ (3 : Byte)) ∧ linked.mute 32 = true := by
  decide +kernel

/-! `Obligations.ExchangesOpenAndAnswers` -/

theorem witness_ExchangesOpen_1 :
    (queued ported (xreq XKind.poll none)).opensNow 9 77 (xreq XKind.poll none) ∧ (xreq XKind.poll none).kind = XKind.poll := by
  refine ⟨by unfold State.opensNow; decide +kernel, ?_⟩
  decide +kernel

theorem witness_ExchangesOpen_2 :
    (queued ported (xreq XKind.ack none)).opensNow 9 77 (xreq XKind.ack none) ∧ (xreq XKind.ack none).kind = XKind.ack := by
  refine ⟨by unfold State.opensNow; decide +kernel, ?_⟩
  decide +kernel

theorem witness_ExchangesOpen_3 :
    (queued (directIn JSt.admitted false) (xreq XKind.rd (some 3))).opensNow 9 77 (xreq XKind.rd (some 3)) ∧ (xreq XKind.rd (some 3)).je = some 3
      ∧ (queued (directIn JSt.admitted false) (xreq XKind.rd (some 3))).op? 3 = some (directOf false) ∧ (directOf false).cur = some (8200, 8207) ∧
      pieceReady (directOf false) 8200 8207 = true ∧ ((queued (directIn JSt.admitted false) (xreq XKind.rd (some 3))).entry 3).st = JSt.admitted ∧
      (queued (directIn JSt.admitted false) (xreq XKind.rd (some 3))).pieceMay 3 (directOf false) 8200 8207 ∧ (xreq XKind.rd (some 3)).kind =
      XKind.rd ∧ (directOf false).wr = false ∧ (queued (directIn JSt.admitted false) (xreq XKind.rd (some 3))).judge 9 (directOf false).ident (77 *
      2 ^ 32 + 8200) (77 * 2 ^ 32 + 8207) true false = Verdict.ok := by
  refine ⟨by unfold State.opensNow; decide +kernel, by decide +kernel, by decide +kernel, by decide +kernel, ?_⟩
  refine ⟨by decide +kernel, by decide +kernel, by unfold State.pieceMay; decide +kernel, by decide +kernel, ?_⟩
  refine ⟨by decide +kernel, ?_⟩
  decide +kernel

theorem witness_ExchangesOpen_4 :
    (queued (directIn JSt.admitted true) (xreq XKind.wr (some 3))).opensNow 9 77 (xreq XKind.wr (some 3)) ∧ (xreq XKind.wr (some 3)).je = some 3 ∧
      (queued (directIn JSt.admitted true) (xreq XKind.wr (some 3))).op? 3 = some (directOf true) ∧ (directOf true).cur = some (8200, 8207) ∧
      pieceReady (directOf true) 8200 8207 = true ∧ ((queued (directIn JSt.admitted true) (xreq XKind.wr (some 3))).entry 3).st = JSt.admitted ∧
      (queued (directIn JSt.admitted true) (xreq XKind.wr (some 3))).pieceMay 3 (directOf true) 8200 8207 ∧ (xreq XKind.wr (some 3)).kind = XKind.wr
      ∧ (directOf true).wr = true ∧ (queued (directIn JSt.admitted true) (xreq XKind.wr (some 3))).judge 9 (directOf true).ident (77 * 2 ^ 32 +
      8200) (77 * 2 ^ 32 + 8207) false true = Verdict.ok := by
  refine ⟨by unfold State.opensNow; decide +kernel, by decide +kernel, by decide +kernel, by decide +kernel, ?_⟩
  refine ⟨by decide +kernel, by decide +kernel, by unfold State.pieceMay; decide +kernel, by decide +kernel, ?_⟩
  refine ⟨by decide +kernel, ?_⟩
  decide +kernel

theorem witness_ChannelAnswers_1 :
    (rdOpen none).portRecv 9 = true ∧ (rdOpen none).crcOk dataFrame = true ∧ ((rdOpen none).daddr 9 dataFrame.daddr.toNat).st = XSt.cmd ∧ ((rdOpen
      none).daddr 9 dataFrame.daddr.toNat).opened = some (openRd none) ∧ (openRd none).req.kind = XKind.rd ∧ (openRd none).gotData = none ∧ dataOk
      (pieceWords (openRd none).pieceA (openRd none).pieceE) (pieceFbe (openRd none).pieceA (openRd none).pieceE) (pieceLbe (openRd none).pieceA
      (openRd none).pieceE) dataFrame = true := by
  decide +kernel

theorem witness_ChannelAnswers_2 :
    ported.portRecv 9 = true ∧ frameGood badFrame = false ∧ ported.exOn 10 = false ∧ ported.mute 65 = true ∧ (ported.daddr 9
      badFrame.daddr.toNat).st = XSt.idle := by
  decide +kernel

theorem witness_ChannelAnswers_3 :
    (rdOpen (some dataFrame.payload)).portRecv 9 = true ∧ (rdOpen (some dataFrame.payload)).crcOk (stFrame false) = true ∧ ((rdOpen (some
      dataFrame.payload)).daddr 9 (stFrame false).daddr.toNat).st = XSt.cmd ∧ ((rdOpen (some dataFrame.payload)).daddr 9 (stFrame
      false).daddr.toNat).opened = some (openRd (some dataFrame.payload)) ∧ ((rdOpen (some dataFrame.payload)).daddr 9 (stFrame
      false).daddr.toNat).losses < 4 ∧ (openRd (some dataFrame.payload)).req.kind = XKind.rd ∧ (openRd (some dataFrame.payload)).req.je = some 3 ∧
      (stFrame false).payload.length = 32 ∧ (rdOpen (some dataFrame.payload)).lastPiece 3 (directOf false) rdHdr ∧ (directOf false).wr = false ∧
      (openRd (some dataFrame.payload)).gotData = some dataFrame.payload ∧ bit 15 (fieldAt 0 2 (stFrame false).payload) = false := by
  refine ⟨by decide +kernel, by decide +kernel, by decide +kernel, by decide +kernel, ?_⟩
  refine ⟨by decide +kernel, by decide +kernel, by decide +kernel, by decide +kernel, ?_⟩
  refine ⟨by unfold State.lastPiece State.directOp; decide +kernel, by decide +kernel, by decide +kernel, ?_⟩
  decide +kernel

theorem witness_ChannelAnswers_4 :
    (rdOpen none).portRecv 9 = true ∧ (rdOpen none).crcOk (stFrame true) = true ∧ ((rdOpen none).daddr 9 (stFrame true).daddr.toNat).st = XSt.cmd
      ∧ ((rdOpen none).daddr 9 (stFrame true).daddr.toNat).opened = some (openRd none) ∧ ((rdOpen none).daddr 9 (stFrame true).daddr.toNat).losses <
      4 ∧ (openRd none).req.kind = XKind.rd ∧ (openRd none).req.je = some 3 ∧ (stFrame true).payload.length = 32 ∧ (rdOpen none).lastPiece 3
      (directOf false) rdHdr ∧ (directOf false).wr = false ∧ bit 15 (fieldAt 0 2 (stFrame true).payload) = true := by
  refine ⟨by decide +kernel, by decide +kernel, by decide +kernel, by decide +kernel, ?_⟩
  refine ⟨by decide +kernel, by decide +kernel, by decide +kernel, by decide +kernel, ?_⟩
  refine ⟨by unfold State.lastPiece State.directOp; decide +kernel, by decide +kernel, ?_⟩
  decide +kernel

theorem witness_ChannelAnswers_5 :
    (rdOpen none).portRecv 9 = true ∧ (rdOpen none).crcOk (sealFrame retryBase) = true ∧ ((rdOpen none).daddr 9 (sealFrame
      retryBase).daddr.toNat).st = XSt.cmd ∧ ((rdOpen none).daddr 9 (sealFrame retryBase).daddr.toNat).opened = some (openRd none) ∧ ((rdOpen
      none).daddr 9 (sealFrame retryBase).daddr.toNat).lock = LockSt.none ∧ ((rdOpen none).daddr 9 (sealFrame retryBase).daddr.toNat).squashWait =
      false ∧ ((rdOpen none).daddr 9 (sealFrame retryBase).daddr.toNat).losses < 4 ∧ ((openRd none).req.kind = XKind.rd ∨ (openRd none).req.kind =
      XKind.wr) ∧ (openRd none).req.je = some 3 ∧ (openRd none).req.refusals + 1 < (rdOpen none).f Fld.gptRetryCtl_retry_limit 9 := by
  decide +kernel

/-! `Obligations.DeviceInitiatedExchanges` -/

theorem witness_UpFramesAreAdmitted_1 :
    ported.upAdmissible 9 (upF 17) true 44 upWin (ported.free % 4194304) granted4 := by
  unfold State.upAdmissible; decide +kernel

theorem witness_UpFramesAreAdmitted_2 :
    portedAll.upAdmissible 9 (upF 16) false 44 upWin (portedAll.free % 4194304) granted5 ∧ portedAll.judge (gTlink (portedAll.instLink
      upWin.owner)) (legacyIdent 9 (upF 16).daddr.toNat) (reqFirst (portedAll.upHdr upWin (upSpec (upF 16) (swapUnit upWin.swap)))) (upLast
      (portedAll.upHdr upWin (upSpec (upF 16) (swapUnit upWin.swap))) (upSpec (upF 16) (swapUnit upWin.swap)).n) true false = Verdict.ok ∧
      (portedAll.link (portedAll.route (portedAll.instLink upWin.owner))).moved = false := by
  refine ⟨by unfold State.upAdmissible; decide +kernel, by decide +kernel, ?_⟩
  decide +kernel

theorem witness_UpFramesAreAdmitted_3 :
    (portIs PortSt.up up).portRecv 9 = true ∧ (portIs PortSt.up up).crcOk (upF 16) = true ∧ burstOk (upF 16) = true ∧ (portIs PortSt.up up).mode ≠
      Mode.doze ∧ (portIs PortSt.up up).phase ≠ Phase.entering ∧ (portIs PortSt.up up).exOn 2 = false ∧ ((portIs PortSt.up up).daddr 9 (upF
      16).daddr.toNat).st = XSt.idle ∧ (portIs PortSt.up up).chanOpen 9 + (portIs PortSt.up up).upOpen 9 < 64 ∧ (portIs PortSt.up up).upLookup 9
      (upF 16).daddr.toNat (frameAddr (upF 16)) = UpFound.no 6 false ∧ (portIs PortSt.up up).upRoom 9 (upF 16).daddr.toNat (upF 16) false = true := by
  decide +kernel

theorem witness_UpFramesAreAdmitted_4 :
    (portIs PortSt.up up).portRecv 9 = true ∧ (portIs PortSt.up up).crcOk (upF 17) = true ∧ burstOk (upF 17) = true ∧ (portIs PortSt.up up).mode ≠
      Mode.doze ∧ (portIs PortSt.up up).phase ≠ Phase.entering ∧ (portIs PortSt.up up).exOn 2 = false ∧ ((portIs PortSt.up up).daddr 9 (upF
      17).daddr.toNat).st = XSt.idle ∧ (portIs PortSt.up up).chanOpen 9 + (portIs PortSt.up up).upOpen 9 < 64 ∧ (portIs PortSt.up up).upLookup 9
      (upF 17).daddr.toNat (frameAddr (upF 17)) = UpFound.no 6 false ∧ (portIs PortSt.up up).upRoom 9 (upF 17).daddr.toNat (upF 17) true = true := by
  decide +kernel

theorem witness_UpFramesAreAdmitted_7 :
    noRoom.portRecv 9 = true ∧ noRoom.crcOk (upF 16) = true ∧ burstOk (upF 16) = true ∧ noRoom.mode ≠ Mode.doze ∧ noRoom.phase ≠ Phase.entering ∧
      ((noRoom.daddr 9 (upF 16).daddr.toNat).st = XSt.idle ∨ (noRoom.daddr 9 (upF 16).daddr.toNat).st = XSt.reserved) ∧ noRoom.chanOpen 9 +
      noRoom.upOpen 9 < 64 ∧ noRoom.upRoom 9 (upF 16).daddr.toNat (upF 16) false = false := by
  decide +kernel

theorem witness_UpFramesAreAdmitted_8 :
    noRoom.portRecv 9 = true ∧ noRoom.crcOk (upF 17) = true ∧ burstOk (upF 17) = true ∧ noRoom.mode ≠ Mode.doze ∧ noRoom.phase ≠ Phase.entering ∧
      ((noRoom.daddr 9 (upF 17).daddr.toNat).st = XSt.idle ∨ (noRoom.daddr 9 (upF 17).daddr.toNat).st = XSt.reserved) ∧ noRoom.chanOpen 9 +
      noRoom.upOpen 9 < 64 ∧ noRoom.upRoom 9 (upF 17).daddr.toNat (upF 17) true = false := by
  decide +kernel

theorem witness_UpFramesAreAdmitted_5 :
    (rdOpen none).portRecv 9 = true ∧ (rdOpen none).crcOk (upF 16) = true ∧ burstOk (upF 16) = true ∧ ((rdOpen none).daddr 9 (upF
      16).daddr.toNat).st = XSt.cmd := by
  decide +kernel

theorem witness_UpFramesAreAdmitted_6 :
    (rdOpen none).portRecv 9 = true ∧ (rdOpen none).crcOk (upF 17) = true ∧ burstOk (upF 17) = true ∧ ((rdOpen none).daddr 9 (upF
      17).daddr.toNat).st = XSt.cmd := by
  decide +kernel

theorem witness_UpDataAndClosingStatus_1 :
    upOpen.portRecv 9 = true ∧ upOpen.crcOk (sealFrame upDataFrame) = true ∧ (upOpen.daddr 9 (sealFrame upDataFrame).daddr.toNat).st = XSt.up ∧
      (upOpen.daddr 9 (sealFrame upDataFrame).daddr.toNat).up = some { je := some 3, frame := upF 17 } ∧ (upF 17).ftype = (17 : BitVec 5) ∧
      upOpen.statusWaits 9 (sealFrame upDataFrame).daddr.toNat = false ∧ dataOk (frameWords (upF 17)) (upF 17).fbe.toNat (upF 17).lbe.toNat
      (sealFrame upDataFrame) = true ∧ upOpen.op? 3 = some upOp ∧ (upOpen.entry 3).kind = 5 ∧ upOp.hdr = some (ported.upHdr postedWin (upSpec (upF
      17) 1)) ∧ upOp.np = false ∧ upOp.silent = false ∧ upOp.c0wait = false ∧ upOpen.evWait = [] ∧ upOpen.judge (gTlink upOp.link) upOp.ident
      (reqFirst (ported.upHdr postedWin (upSpec (upF 17) 1))) (upLast (ported.upHdr postedWin (upSpec (upF 17) 1)) upOp.cut.n) false true =
      Verdict.ok := by
  decide +kernel

theorem witness_UpDataAndClosingStatus_2 :
    closingUp.portRecv 9 = true ∧ (closingUp.port 9).statusQ = [closing] ∧ closing.guard = false ∧ closing.closesUp = true ∧ closing.je = some 3 ∧
      closingUp.op? 3 = some upOp ∧ upOp.inflight = false ∧ (closingUp.entry 3).st = JSt.completed ∧ (closingUp.daddr 9 closing.daddr).losses < 4 ∧
      (closingUp.port 9).sleepPend = false ∧ (([] : List StatusTx) = [] → (closingUp.port 9).egress = []) ∧ (∀ y ∈ ([] : List StatusTx).head?,
      y.retry = false) ∧ (∀ y ∈ (closingUp.port upOp.port).queue, y.2.je ≠ some 3) ∧ closingUp.evWait = [] := by
  decide +kernel

/-! `Obligations.ExchangeTimersAndLocks` -/

theorem witness_ExchangeTimersAndLocks_1 :
    (guarded 4).works = true ∧ ((guarded 4).daddr 9 77).st = XSt.guard ∧ ((guarded 4).port 9).sleepPend = false := by
  decide +kernel

theorem witness_ExchangeTimersAndLocks_1b :
    (guarded 3).works = true ∧ ((guarded 3).daddr 9 77).st = XSt.guard ∧ ((guarded 3).port 9).sleepPend = false := by
  decide +kernel

theorem witness_ExchangeTimersAndLocks_2 :
    reserved.works = true ∧ (reserved.daddr 9 77).st = XSt.reserved := by
  decide +kernel

theorem witness_ExchangeTimersAndLocks_3b :
    (guarded 4).works = true ∧ (((guarded 4).daddr 9 77).st = XSt.reserved ∨ 4 ≤ ((guarded 4).daddr 9 77).losses) := by
  decide +kernel

theorem witness_ExchangeTimersAndLocks_3 :
    (guarded 3).works = true ∧ ((guarded 3).daddr 9 77).st ≠ XSt.reserved ∧ ((guarded 3).daddr 9 77).losses < 4 := by
  decide +kernel

theorem witness_ExchangeTimersAndLocks_4 :
    polling.portRecv 9 = true ∧ (polling.daddr 9 77).st = XSt.cmd ∧ (polling.daddr 9 77).lock = LockSt.none ∧ (polling.daddr 9 77).opened = some
      pollOpen ∧ pollOpen.req.kind = XKind.poll := by
  decide +kernel

theorem witness_ExchangeTimersAndLocks_5 :
    ((rdOpen none).setF Fld.gptRetryCtl_reissue 1 9).portRecv 9 = true ∧ (((rdOpen none).setF Fld.gptRetryCtl_reissue 1 9).daddr 9 77).st =
      XSt.cmd ∧ (((rdOpen none).setF Fld.gptRetryCtl_reissue 1 9).daddr 9 77).lock = LockSt.none ∧ (((rdOpen none).setF Fld.gptRetryCtl_reissue 1
      9).daddr 9 77).opened = some (openRd none) ∧ (openRd none).req.kind = XKind.rd ∧ (openRd none).req.je = some 3 ∧ (openRd none).req.reissued <
      ((rdOpen none).setF Fld.gptRetryCtl_reissue 1 9).f Fld.gptRetryCtl_reissue 9 := by
  decide +kernel

theorem witness_ExchangeTimersAndLocks_6 :
    (lockHeld 2).portRecv 9 = true ∧ ((lockHeld 2).daddr 9 77).lock = LockSt.held ∧ lockJe ((lockHeld 2).daddr 9 77) = some 3 ∧ (lockHeld 2).op? 3
      = some (lockOp 2) ∧ (lockOp 2).x = some (rmwCcd 2) ∧ ((lockHeld 2).daddr 9 77).opened = some lockOpen ∧ (rmwCcd 2).old = some (natBytes 4 5) ∧
      rmwNew ((rmwCcd 2).c.aux % 8) (rmwCcd 2).c.count (bytesNat (natBytes 4 5)) (fieldAt 0 8 (rmwCcd 2).operands) (fieldAt 8 8 (rmwCcd 2).operands)
      = some 8 := by
  decide +kernel

theorem witness_ExchangeTimersAndLocks_7 :
    (lockHeld 0).portRecv 9 = true ∧ ((lockHeld 0).daddr 9 77).lock = LockSt.held ∧ lockJe ((lockHeld 0).daddr 9 77) = some 3 ∧ (lockHeld 0).op? 3
      = some (lockOp 0) ∧ (lockOp 0).x = some (rmwCcd 0) ∧ ((lockHeld 0).daddr 9 77).opened = some lockOpen ∧ (rmwCcd 0).old = some (natBytes 4 5) ∧
      rmwNew ((rmwCcd 0).c.aux % 8) (rmwCcd 0).c.count (bytesNat (natBytes 4 5)) (fieldAt 0 8 (rmwCcd 0).operands) (fieldAt 8 8 (rmwCcd 0).operands)
      = none := by
  decide +kernel

theorem witness_ExchangeTimersAndLocks_8 :
    (lockHeld 0).portRecv 9 = true ∧ ((lockHeld 0).daddr 9 77).lock = LockSt.held ∧ lockJe ((lockHeld 0).daddr 9 77) = some 3 ∧ (lockHeld 0).op? 3
      = some (lockOp 0) ∧ (lockOp 0).x = some (rmwCcd 0) ∧ ((lockHeld 0).daddr 9 77).opened = some lockOpen ∧ (rmwCcd 0).old = some (natBytes 4 5) ∧
      ((lockHeld 0).entry 3).kind = 4 ∧ ((lockHeld 0).entry 3).pst = false ∧ ((lockHeld 0).entry 3).err = 0 ∧ (lockOp 0).silent = false := by
  decide +kernel

/-! `Obligations.PollsAndAttention` -/

theorem witness_PollsAndAttention_1 :
    (ported.device 44).v = true ∧ (ported.device 44).poll ≠ 0 ∧ ported.portRecv (ported.device 44).port = true ∧ (ported.dn 44).poll = PollSt.wait := by
  decide +kernel

theorem witness_PollsAndAttention_2 :
    ((dnState dnDue ported).device 44).v = true ∧ ((dnState dnDue ported).device 44).poll ≠ 0 ∧ (dnState dnDue ported).portRecv ((dnState dnDue
      ported).device 44).port = true ∧ ((dnState dnDue ported).dn 44).poll = PollSt.due := by
  decide +kernel

theorem witness_PollsAndAttention_3 :
    polling.portRecv 9 = true ∧ polling.crcOk (pollFrame true) = true ∧ (polling.daddr 9 (pollFrame true).daddr.toNat).st = XSt.cmd ∧
      (polling.daddr 9 (pollFrame true).daddr.toNat).opened = some pollOpen ∧ (polling.daddr 9 (pollFrame true).daddr.toNat).losses < 4 ∧
      pollOpen.req.kind = XKind.poll ∧ (pollFrame true).payload.length = 16 ∧ polling.mode ≠ Mode.doze ∧ (polling.device pollOpen.req.dn).smapEn =
      false ∧ (polling.inst (polling.device pollOpen.req.dn).owner).st ≠ InstSt.squash ∧ polling.evOn (polling.device pollOpen.req.dn).owner 2 =
      false ∧ polling.evOn (polling.device pollOpen.req.dn).owner 5 = false ∧ polling.waiters pollOpen.req.dn = [] ∧ bit 15 (fieldAt 0 2 (pollFrame
      true).payload) = true ∧ (polling.dn pollOpen.req.dn).attn = AttnSt.clear ∧ (∀ (k : ℕ), polling.stormLimit pollOpen.req.dn = some k →
      polling.intervalCount pollOpen.req.dn < k) := by
  decide +kernel

theorem witness_PollsAndAttention_4 :
    (dnState dnOut polling).portRecv 9 = true ∧ (dnState dnOut polling).crcOk (pollFrame true) = true ∧ ((dnState dnOut polling).daddr 9
      (pollFrame true).daddr.toNat).st = XSt.cmd ∧ ((dnState dnOut polling).daddr 9 (pollFrame true).daddr.toNat).opened = some pollOpen ∧ ((dnState
      dnOut polling).daddr 9 (pollFrame true).daddr.toNat).losses < 4 ∧ pollOpen.req.kind = XKind.poll ∧ (pollFrame true).payload.length = 16 ∧
      (dnState dnOut polling).mode ≠ Mode.doze ∧ ((dnState dnOut polling).device pollOpen.req.dn).smapEn = false ∧ ((dnState dnOut polling).inst
      ((dnState dnOut polling).device pollOpen.req.dn).owner).st ≠ InstSt.squash ∧ (dnState dnOut polling).evOn ((dnState dnOut polling).device
      pollOpen.req.dn).owner 2 = false ∧ (dnState dnOut polling).evOn ((dnState dnOut polling).device pollOpen.req.dn).owner 5 = false ∧ (dnState
      dnOut polling).waiters pollOpen.req.dn = [] ∧ bit 15 (fieldAt 0 2 (pollFrame true).payload) = true ∧ ((dnState dnOut polling).dn
      pollOpen.req.dn).attn = AttnSt.clear ∧ (dnState dnOut polling).stormLimit pollOpen.req.dn = some 1 ∧ 1 ≤ (dnState dnOut polling).intervalCount
      pollOpen.req.dn := by
  decide +kernel

theorem witness_PollsAndAttention_5 :
    (dnState dnDelivered polling).portRecv 9 = true ∧ (dnState dnDelivered polling).crcOk (pollFrame false) = true ∧ ((dnState dnDelivered
      polling).daddr 9 (pollFrame false).daddr.toNat).st = XSt.cmd ∧ ((dnState dnDelivered polling).daddr 9 (pollFrame false).daddr.toNat).opened =
      some pollOpen ∧ ((dnState dnDelivered polling).daddr 9 (pollFrame false).daddr.toNat).losses < 4 ∧ pollOpen.req.kind = XKind.poll ∧ (pollFrame
      false).payload.length = 16 ∧ (dnState dnDelivered polling).mode ≠ Mode.doze ∧ ((dnState dnDelivered polling).device pollOpen.req.dn).smapEn =
      false ∧ ((dnState dnDelivered polling).inst ((dnState dnDelivered polling).device pollOpen.req.dn).owner).st ≠ InstSt.squash ∧ (dnState
      dnDelivered polling).evOn ((dnState dnDelivered polling).device pollOpen.req.dn).owner 2 = false ∧ (dnState dnDelivered polling).evOn
      ((dnState dnDelivered polling).device pollOpen.req.dn).owner 5 = false ∧ (dnState dnDelivered polling).waiters pollOpen.req.dn = [] ∧ bit 15
      (fieldAt 0 2 (pollFrame false).payload) = false ∧ ((dnState dnDelivered polling).dn pollOpen.req.dn).attn = AttnSt.delivered := by
  decide +kernel

theorem witness_PollsAndAttention_6 :
    (dnState dnTold ported).mode ≠ Mode.reset := by
  decide +kernel

theorem witness_PollsAndAttention_7 :
    waiting.works = true ∧ waiting.op? 3 = some waitOp ∧ waitOp.x = some waitX ∧ waitX.waiting = true ∧ (waiting.entry 3).kind = 4 ∧
      (waiting.entry 3).pst = false ∧ (waiting.entry 3).err = 0 ∧ waitOp.silent = false := by
  decide +kernel

theorem witness_AttentionRegisters_1 :
    ported.isLead 9 = true ∧ ported.dnAt 9 (BitVec.toNat (77 : Word) % 2 ^ 11) = some 44 ∧ ported.goesWrite svc RegId.gptAttnAck 9 (77 : Word) =
      true ∧ ported.sbiOf 44 = none := by
  decide +kernel

theorem witness_AttentionRegisters_2 :
    (muted ported).isLead 9 = true ∧ (muted ported).dnAt 9 (BitVec.toNat (77 : Word) % 2 ^ 11) = some 44 ∧ (muted ported).goesWrite svc
      RegId.gptAttnUnmute 9 (77 : Word) = true ∧ ((muted ported).dn 44).attn = AttnSt.muted := by
  decide +kernel

theorem witness_AttentionRegisters_3 :
    sbiFed.goesWrite svc RegId.gptSbiUnmute 0 (8 : Word) = true ∧ BitVec.toNat (8 : Word) % 2 ^ 16 = 2 ^ 3 ∧ sbiFed.fb Fld.gptSbiMap_en 3 = true ∧
      (sbiFed.dn (sbiFed.f Fld.gptSbiMap_dn 3)).attn = AttnSt.muted := by
  decide +kernel

theorem witness_AttentionRegisters_4 :
    (owning.inst 5).st ≠ InstSt.free ∧ (owning.inst 5).st ≠ InstSt.squash ∧ owning.goesWrite svc RegId.instAttnAck 5 (44 : Word) = true ∧
      owning.instMay 5 (BitVec.toNat (44 : Word) % 2 ^ 18) = true ∧ owning.dnAt (owning.device (BitVec.toNat (44 : Word) % 2 ^ 18)).port
      (owning.device (BitVec.toNat (44 : Word) % 2 ^ 18)).daddr = some (BitVec.toNat (44 : Word) % 2 ^ 18) ∧ owning.sbiOf (BitVec.toNat (44 : Word)
      % 2 ^ 18) = none := by
  decide +kernel

theorem witness_AttentionRegisters_5 :
    (owning.inst 5).st ≠ InstSt.free ∧ (owning.inst 5).st ≠ InstSt.squash ∧ owning.goesWrite svc RegId.instAttnAck 5 (60 : Word) = true ∧
      owning.instMay 5 (BitVec.toNat (60 : Word) % 2 ^ 18) = false := by
  decide +kernel

theorem witness_AttentionRegisters_6 :
    ((muted owning).inst 5).st ≠ InstSt.free ∧ ((muted owning).inst 5).st ≠ InstSt.squash ∧ (muted owning).goesWrite svc RegId.instAttnUnmute 5
      (44 : Word) = true ∧ (muted owning).instMay 5 (BitVec.toNat (44 : Word) % 2 ^ 18) = true ∧ ((muted owning).dn (BitVec.toNat (44 : Word) % 2 ^
      18)).attn = AttnSt.muted := by
  decide +kernel

/-! `Obligations.PortStatesAndLinkFrames` -/

theorem witness_PortStates_1 :
    ported.works = true ∧ (ported.port 9).st = PortSt.up ∧ ported.portDaddrs 9 = [] ∧ ported.mute 64 = true := by
  decide +kernel

theorem witness_PortStates_10 :
    (haltNow ported).mode = Mode.halt ∧ ((haltNow ported).port 9).st = PortSt.up := by
  decide +kernel

theorem witness_PortStates_2 :
    ((portIs PortSt.down ported).port 9).st ≠ PortSt.up := by
  decide +kernel

theorem witness_PortStates_3 :
    ported.goesWrite svc RegId.gptCtl 9 (1 : Word) = true ∧ ported.isLead 9 = true ∧ (ported.port 9).st = PortSt.up ∧ ported.portDaddrs 9 = [] ∧
      ported.mute 64 = true := by
  decide +kernel

theorem witness_PortStates_4 :
    (portIs PortSt.train ported).works = true ∧ ((portIs PortSt.train ported).port 9).st = PortSt.train ∧ (∀ x ∈ (portIs PortSt.train
      ported).portDaddrs 9, x.2.lock ≠ LockSt.orphaned) := by
  decide +kernel

theorem witness_PortStates_5 :
    orphan.works = true ∧ (orphan.port 9).st = PortSt.train ∧ orphan.portDaddrs 9 = [(77, orphaned)] ∧ orphaned.lock = LockSt.orphaned := by
  decide +kernel

theorem witness_PortStates_6 :
    orphan.works = true ∧ (orphan.port 9).st = PortSt.train ∧ orphan.mute 66 = true := by
  decide +kernel

theorem witness_PortStates_7 :
    (portIs PortSt.down ported).linksOn = true ∧ ((portIs PortSt.down ported).port 9).st = PortSt.down ∧ (portIs PortSt.down ported).isLead 9 =
      true := by
  decide +kernel

theorem witness_PortStates_8 :
    (lateQueue (xreq XKind.poll none) ported).works = true ∧ ((lateQueue (xreq XKind.poll none) ported).port 9).st ≠ PortSt.up ∧ ((lateQueue (xreq
      XKind.poll none) ported).port 9).queue = [(77, xreq XKind.poll none)] ∧ (xreq XKind.poll none).kind = XKind.poll := by
  decide +kernel

theorem witness_PortStates_9 :
    (lateQueue (xreq XKind.rd (some 3)) (directIn JSt.admitted false)).works = true ∧ ((lateQueue (xreq XKind.rd (some 3)) (directIn JSt.admitted
      false)).port 9).st ≠ PortSt.up ∧ ((lateQueue (xreq XKind.rd (some 3)) (directIn JSt.admitted false)).port 9).queue = [(77, xreq XKind.rd (some
      3))] ∧ ((xreq XKind.rd (some 3)).kind = XKind.rd ∨ (xreq XKind.rd (some 3)).kind = XKind.wr) ∧ (xreq XKind.rd (some 3)).je = some 3 ∧
      (lateQueue (xreq XKind.rd (some 3)) (directIn JSt.admitted false)).directOp 3 (directOf false) rdHdr := by
  refine ⟨by decide +kernel, by decide +kernel, by decide +kernel, by decide +kernel, ?_⟩
  refine ⟨by decide +kernel, ?_⟩
  unfold State.directOp; decide +kernel

theorem witness_LinkFramesAndEqualisation_1 :
    ported.crcOk (Machine.linkFrame 1 []) = true ∧ (Machine.linkFrame 1 []).payload.length = 8 := by
  decide +kernel

theorem witness_LinkFramesAndEqualisation_2 :
    bonded.works = true ∧ (bonded.port 8).st = PortSt.up ∧ 1 < bonded.members 8 := by
  decide +kernel

theorem witness_LinkFramesAndEqualisation_3 :
    ported.portRecv 9 = true ∧ ported.crcOk linkF = true ∧ linkF.payload.length = 8 ∧ ported.f Fld.gptCfg_rate 9 = 0 ∧ ported.mode ≠ Mode.load := by
  decide +kernel

theorem witness_LinkFramesAndEqualisation_4 :
    (ported.setF Fld.gptCfg_rate 1 9).portRecv 9 = true ∧ (ported.setF Fld.gptCfg_rate 1 9).crcOk linkF = true ∧ linkF.payload.length = 8 ∧
      (ported.setF Fld.gptCfg_rate 1 9).f Fld.gptCfg_rate 9 ≠ 0 := by
  decide +kernel

theorem witness_LinkFramesAndEqualisation_5 :
    (calPort calAsked).portRecv 9 = true ∧ (calPort calAsked).crcOk (Machine.linkFrame 3 [(0 : Byte), (5 : Byte)]) = true ∧ (Machine.linkFrame 3
      [(0 : Byte), (5 : Byte)]).payload.length = 8 ∧ (FMap.get { } 0 ((calPort calAsked).port 9).cal).outSeq = some (fieldAt 1 1 (Machine.linkFrame
      3 [(0 : Byte), (5 : Byte)]).payload) := by
  decide +kernel

theorem witness_LinkFramesAndEqualisation_6 :
    (calPort calAsked).portRecv 9 = true ∧ (calPort calAsked).crcOk (Machine.linkFrame 3 [(0 : Byte), (6 : Byte)]) = true ∧ (Machine.linkFrame 3
      [(0 : Byte), (6 : Byte)]).payload.length = 8 ∧ (FMap.get { } 0 ((calPort calAsked).port 9).cal).outSeq ≠ some (fieldAt 1 1 (Machine.linkFrame
      3 [(0 : Byte), (6 : Byte)]).payload) := by
  decide +kernel

theorem witness_LinkFramesAndEqualisation_7 :
    ((calPort calEye).mode = Mode.run ∨ (calPort calEye).mode = Mode.service) ∧ (calPort calEye).fb Fld.pwrCalCfg_tx_en = true ∧ ((calPort
      calEye).port 9).st = PortSt.up ∧ (calPort calEye).f Fld.gptCfg_rate 9 = 0 ∧ 0 < (calPort calEye).members 9 ∧ (FMap.get { } 0 ((calPort
      calEye).port 9).cal).outSeq = none ∧ (calPort calEye).pwr.adaptFrozen = false := by
  decide +kernel

theorem witness_LinkFramesAndEqualisation_8 :
    (calFrozen.mode = Mode.run ∨ calFrozen.mode = Mode.service) ∧ calFrozen.fb Fld.pwrCalCfg_tx_en = true ∧ (calFrozen.port 9).st = PortSt.up ∧
      calFrozen.f Fld.gptCfg_rate 9 = 0 ∧ 0 < calFrozen.members 9 ∧ (FMap.get { } 0 (calFrozen.port 9).cal).outSeq = none ∧
      calFrozen.pwr.adaptFrozen = true := by
  decide +kernel

theorem witness_LinkFramesAndEqualisation_9 :
    (calPort calAsked).mode ≠ Mode.reset ∧ (FMap.get { } 0 ((calPort calAsked).port 9).cal).outSeq = some 5 := by
  decide +kernel

/-! `Obligations.QueuePairsAndCoalescing` -/

theorem witness_QueuePairRegisters_1 :
    21 = 4 * 5 + 1 ∧ (qpOff.inst 5).st ≠ InstSt.free ∧ qpOff.goesWrite svc RegId.sqDb 21 (3 : Word) = true ∧ qpOff.f Fld.qStat_state 21 = 0 := by
  decide +kernel

theorem witness_QueuePairRegisters_2 :
    21 = 4 * 5 + 1 ∧ (qpUp.inst 5).st ≠ InstSt.free ∧ qpUp.goesWrite svc RegId.sqDb 21 (3 : Word) = true ∧ qpUp.f Fld.qStat_state 21 ≠ 0 ∧
      BitVec.toNat (3 : Word) % 2 ^ 16 < 2 ^ qpUp.f Fld.qCfg_sq_size 21 := by
  decide +kernel

theorem witness_QueuePairRegisters_3 :
    21 = 4 * 5 + 1 ∧ (qpUp.inst 5).st ≠ InstSt.free ∧ qpUp.goesWrite svc RegId.sqDb 21 (16 : Word) = true ∧ qpUp.f Fld.qStat_state 21 ≠ 0 ∧ 2 ^
      qpUp.f Fld.qCfg_sq_size 21 ≤ BitVec.toNat (16 : Word) % 2 ^ 16 := by
  decide +kernel

theorem witness_QueuePairRegisters_4 :
    21 = 4 * 5 + 1 ∧ (qpOff.inst 5).st ≠ InstSt.free ∧ qpOff.goesWrite svc RegId.qCfg 21 (setBits 31 31 1 qCfgWord) = true ∧ qpOff.f
      Fld.qStat_state 21 = 0 ∧ (4 ≤ bits 28 24 (BitVec.toNat qCfgWord) ∧ bits 28 24 (BitVec.toNat qCfgWord) ≤ 16 ∧ 4 ≤ bits 20 16 (BitVec.toNat
      qCfgWord) ∧ bits 20 16 (BitVec.toNat qCfgWord) ≤ 16 ∧ bits 15 8 (BitVec.toNat qCfgWord) ≠ 0 ∧ qpOff.f Fld.cqCoal_count 21 ≠ 0 ∧ (bits 1 0
      (BitVec.toNat qCfgWord) ≠ 0 ∨ (qpOff.inst 5).c0rate ≠ 0)) := by
  decide +kernel

theorem witness_QueuePairRegisters_5 :
    21 = 4 * 5 + 1 ∧ (qpOff.inst 5).st ≠ InstSt.free ∧ qpOff.goesWrite svc RegId.qCfg 21 (setBits 31 31 1 (50594305 : Word)) = true ∧ qpOff.f
      Fld.qStat_state 21 = 0 ∧ (bits 28 24 (BitVec.toNat (50594305 : Word)) < 4 ∨ 16 < bits 28 24 (BitVec.toNat (50594305 : Word)) ∨ bits 20 16
      (BitVec.toNat (50594305 : Word)) < 4 ∨ 16 < bits 20 16 (BitVec.toNat (50594305 : Word)) ∨ bits 15 8 (BitVec.toNat (50594305 : Word)) = 0 ∨
      qpOff.f Fld.cqCoal_count 21 = 0 ∨ bits 1 0 (BitVec.toNat (50594305 : Word)) = 0 ∧ (qpOff.inst 5).c0rate = 0) := by
  decide +kernel

theorem witness_QueuePairRegisters_6 :
    21 = 4 * 5 + 1 ∧ (qpUp.inst 5).st ≠ InstSt.free ∧ qpUp.goesWrite svc RegId.qCfg 21 (setBits 31 31 0 qCfgWord) = true ∧ qpUp.f Fld.qStat_state
      21 = 1 ∧ qpUp.lockBreaks RegId.qCfg 21 (setBits 31 31 0 qCfgWord) = false := by
  decide +kernel

theorem witness_QueuePairRegisters_7 :
    21 = 4 * 5 + 1 ∧ (qpFaulted.inst 5).st ≠ InstSt.free ∧ qpFaulted.goesWrite svc RegId.qCtl 21 (setBits 0 0 1 (1 : Word)) = true ∧ qpFaulted.f
      Fld.qStat_state 21 = 3 ∧ (qpFaulted.qp 21).held = [] ∧ (qpFaulted.qp 21).evPend = false := by
  decide +kernel

theorem witness_QueuePairRegisters_8 :
    21 = 4 * 5 + 1 ∧ (cqAhead.inst 5).st ≠ InstSt.free ∧ cqAhead.goesWrite svc RegId.cqDb 21 (5 : Word) = true ∧ bit 31 (BitVec.toNat (5 : Word))
      = false ∧ headOk (cqAhead.f Fld.qCfg_cq_size 21) (cqAhead.f Fld.cqDb_head 21) (cqAhead.f Fld.cqTail_tail 21) (BitVec.toNat (5 : Word) % 2 ^
      16) = true := by
  decide +kernel

theorem witness_QueuePairRegisters_9 :
    21 = 4 * 5 + 1 ∧ (cqAhead.inst 5).st ≠ InstSt.free ∧ cqAhead.goesWrite svc RegId.cqDb 21 (6 : Word) = true ∧ bit 31 (BitVec.toNat (6 : Word))
      = false ∧ headOk (cqAhead.f Fld.qCfg_cq_size 21) (cqAhead.f Fld.cqDb_head 21) (cqAhead.f Fld.cqTail_tail 21) (BitVec.toNat (6 : Word) % 2 ^
      16) = false := by
  decide +kernel

theorem witness_QueuePairRegisters_A :
    21 = 4 * 5 + 1 ∧ (cqAhead.inst 5).st ≠ InstSt.free ∧ cqAhead.goesWrite svc RegId.cqDb 21 (2147483653 : Word) = true ∧ bit 31 (BitVec.toNat
      (2147483653 : Word)) = true ∧ headOk (cqAhead.f Fld.qCfg_cq_size 21) (cqAhead.f Fld.cqDb_head 21) (cqAhead.f Fld.cqTail_tail 21) (BitVec.toNat
      (2147483653 : Word) % 2 ^ 16) = true ∧ cqAhead.f Fld.qStat_state 21 = 1 ∧ BitVec.toNat (2147483653 : Word) % 2 ^ 16 = cqAhead.f
      Fld.cqTail_tail 21 := by
  decide +kernel

theorem witness_QueuePairRegisters_B :
    21 = 4 * 5 + 1 ∧ (cqAhead.inst 5).st ≠ InstSt.free ∧ cqAhead.goesWrite svc RegId.cqDb 21 (2147483652 : Word) = true ∧ bit 31 (BitVec.toNat
      (2147483652 : Word)) = true ∧ headOk (cqAhead.f Fld.qCfg_cq_size 21) (cqAhead.f Fld.cqDb_head 21) (cqAhead.f Fld.cqTail_tail 21) (BitVec.toNat
      (2147483652 : Word) % 2 ^ 16) = true ∧ cqAhead.f Fld.qStat_state 21 = 1 ∧ BitVec.toNat (2147483652 : Word) % 2 ^ 16 ≠ cqAhead.f
      Fld.cqTail_tail 21 ∧ cqAhead.evOn 5 1 = true ∧ cqAhead.instHears 5 = true ∧ cqAhead.tunnelWaits 21 = none := by
  decide +kernel

theorem witness_CoalescingTimer_1 :
    21 = 4 * 5 + 1 ∧ coal.works = true ∧ (coal.qp 21).timer = true ∧ (coal.qp 21).armed = true ∧ coal.evOn 5 1 = true ∧ coal.instHears 5 = true ∧
      coal.f Fld.cqCoal_time 21 ≠ 0 ∧ coal.tunnelWaits 21 = none := by
  decide +kernel

theorem witness_CoalescingTimer_3 :
    21 = 4 * 5 + 1 ∧ coalTold.works = true ∧ (coalTold.qp 21).timer = true ∧ (coalTold.qp 21).armed = true ∧ coalTold.evOn 5 1 = true ∧
      coalTold.instHears 5 = true ∧ coalTold.f Fld.cqCoal_time 21 ≠ 0 ∧ coalTold.tunnelWaits 21 = some toldEv := by
  decide +kernel

theorem witness_CoalescingTimer_2 :
    21 = 4 * 5 + 1 ∧ coalOff.works = true ∧ (coalOff.qp 21).timer = true ∧ ((coalOff.qp 21).armed = false ∨ coalOff.evOn 5 1 = false ∨
      coalOff.instHears 5 = false ∨ coalOff.f Fld.cqCoal_time 21 = 0) := by
  decide +kernel

/-! `Obligations.ProgramsCcdsAndData` -/

theorem witness_ProgramsStart_1 :
    dispatchable.works = true ∧ (∀ c ∈ dispatchable.ctxs, c.1 < dispatchable.nextCtx ∧ c.2.eng ≠ 127 ∧ (c.2.access = true ∨ c.2.st ≠ CtxSt.start ∨
      0 < c.2.hold.total ∨ c.2.got.isSome = true ∨ c.2.moving = true)) ∧ dispatchable.pickEng = some 3 ∧ dispatchable.nextInst = some 5 ∧
      dispatchable.oldestWork 5 = some (1, Sum.inl 1) ∧ (dispatchable.inst 5).st = InstSt.active ∧ dispatchable.f Fld.qStat_state (4 * 5 + 1) = 1 ∧
      dispatchable.engMasked 3 = false ∧ dispatchable.f Fld.qCfg_class (4 * 5 + 1) ≠ 0 ∧ dispatchable.takeHold 5 (3 * dispatchable.f Fld.qCfg_class
      (4 * 5 + 1) + 2) 1 = some granted5 ∧ dispatchable.canRead (dispatchable.instLink 5) (dispatchable.inst 5).reqId.toNat (dispatchable.ringBase
      Fld.sqBaseLo_base_lo Fld.sqBaseHi_base_hi (4 * 5 + 1) + 16 * dispatchable.f Fld.sqHead_head (4 * 5 + 1)) 16 := by
  refine ⟨by decide +kernel, by decide +kernel, by decide +kernel, by decide +kernel, ?_⟩
  refine ⟨by decide +kernel, by decide +kernel, by decide +kernel, by decide +kernel, ?_⟩
  refine ⟨by decide +kernel, by decide +kernel, ?_⟩
  unfold State.canRead; decide +kernel

theorem witness_ProgramsStart_5 :
    engAsleep.works = true ∧ (∀ c ∈ engAsleep.ctxs, c.1 < engAsleep.nextCtx ∧ c.2.eng ≠ 127 ∧ (c.2.access = true ∨ c.2.st ≠ CtxSt.start ∨ 0 <
      c.2.hold.total ∨ c.2.got.isSome = true ∨ c.2.moving = true)) ∧ engAsleep.pickEng = some 3 ∧ engAsleep.nextInst = some 5 ∧ engAsleep.oldestWork
      5 = some (1, Sum.inl 1) ∧ (engAsleep.inst 5).st = InstSt.active ∧ engAsleep.f Fld.qStat_state (4 * 5 + 1) = 1 ∧ engAsleep.engMasked 3 = true := by
  decide +kernel

theorem witness_ProgramsStart_2 :
    (engOn qpUp).works = true ∧ (∀ c ∈ (engOn qpUp).ctxs, c.2.eng ≠ 127 ∧ (c.2.access = true ∨ c.2.st ≠ CtxSt.start ∨ 0 < c.2.hold.total ∨
      c.2.got.isSome = true ∨ c.2.moving = true)) ∧ ((engOn qpUp).pickEng = none ∨ (engOn qpUp).nextInst = none) := by
  decide +kernel

theorem witness_ProgramsStart_3 :
    21 = 4 * 5 + 1 ∧ (starting (0, startEntry)).works = true ∧ List.find? (fun c ↦ !c.2.access && c.2.inst == 5 && c.2.q == 1 && c.2.st ==
      CtxSt.start && c.2.got.isSome) (starting (0, startEntry)).ctxs = some (6, startCtx (0, startEntry)) ∧ (starting (0, startEntry)).ctx? 6 = some
      (startCtx (0, startEntry)) ∧ (startCtx (0, startEntry)).moving = false ∧ (startCtx (0, startEntry)).stale = false ∧ (starting (0,
      startEntry)).f Fld.qStat_state 21 = 1 ∧ ((starting (0, startEntry)).inst 5).st = InstSt.active ∧ (startCtx (0, startEntry)).got = some (0,
      startEntry) := by
  decide +kernel

theorem witness_ProgramsStart_4 :
    21 = 4 * 5 + 1 ∧ (starting (3, [])).works = true ∧ List.find? (fun c ↦ !c.2.access && c.2.inst == 5 && c.2.q == 1 && c.2.st == CtxSt.start &&
      c.2.got.isSome) (starting (3, [])).ctxs = some (6, startCtx (3, [])) ∧ (starting (3, [])).ctx? 6 = some (startCtx (3, [])) ∧ (startCtx (3,
      [])).moving = false ∧ (startCtx (3, [])).stale = false ∧ (starting (3, [])).f Fld.qStat_state 21 = 1 ∧ ((starting (3, [])).inst 5).st =
      InstSt.active ∧ (startCtx (3, [])).got = some (3, []) ∧ 3 ≠ 0 ∧ (starting (3, [])).muteUc := by
  refine ⟨by decide +kernel, by decide +kernel, by decide +kernel, by decide +kernel, ?_⟩
  refine ⟨by decide +kernel, by decide +kernel, by decide +kernel, by decide +kernel, ?_⟩
  refine ⟨by decide +kernel, by decide +kernel, ?_⟩
  exact ⟨by decide +kernel, evOn_off (by decide +kernel)⟩

theorem witness_CcdsAreFetchedAndAdmitted_1 :
    readyCtx.works = true ∧ readyCtx.ctx? 6 = some (ctxAt CtxSt.ready) ∧ (ctxAt CtxSt.ready).access = false ∧ (ctxAt CtxSt.ready).st = CtxSt.ready
      ∧ (ctxAt CtxSt.ready).moving = false ∧ readyCtx.engMasked (ctxAt CtxSt.ready).eng = false ∧ 21 = 4 * (ctxAt CtxSt.ready).inst + (ctxAt
      CtxSt.ready).q ∧ 1 = readyCtx.f Fld.qCfg_class 21 ∧ readyCtx.cqFree 21 ≠ 0 ∧ readyCtx.jeRoom (ctxAt CtxSt.ready).inst = some (readyCtx.free %
      4194304) ∧ readyCtx.takeHold (ctxAt CtxSt.ready).inst (3 * 1 + 2) 1 = some granted5 ∧ 1 ≠ 0 ∧ readyCtx.canRead (readyCtx.instLink (ctxAt
      CtxSt.ready).inst) (readyCtx.inst (ctxAt CtxSt.ready).inst).reqId.toNat (ctxAt CtxSt.ready).addr 32 := by
  refine ⟨by decide +kernel, by decide +kernel, by decide +kernel, by decide +kernel, ?_⟩
  refine ⟨by decide +kernel, by decide +kernel, by decide +kernel, by decide +kernel, ?_⟩
  refine ⟨by decide +kernel, by decide +kernel, by decide +kernel, by decide +kernel, ?_⟩
  unfold State.canRead; decide +kernel

theorem witness_CcdsAreFetchedAndAdmitted_2 :
    cqFull.works = true ∧ cqFull.ctx? 6 = some (ctxAt CtxSt.ready) ∧ (ctxAt CtxSt.ready).access = false ∧ (ctxAt CtxSt.ready).st = CtxSt.ready ∧
      (ctxAt CtxSt.ready).moving = false ∧ cqFull.engMasked (ctxAt CtxSt.ready).eng = false ∧ 21 = 4 * (ctxAt CtxSt.ready).inst + (ctxAt
      CtxSt.ready).q ∧ 1 = cqFull.f Fld.qCfg_class 21 ∧ cqFull.cqFree 21 = 0 := by
  decide +kernel

theorem witness_CcdsAreFetchedAndAdmitted_3 :
    (ccdCame 0 (ccdBytes 6 0 0 8192)).works = true ∧ (ccdCame 0 (ccdBytes 6 0 0 8192)).ctx? 6 = some (cameCtx 0 (ccdBytes 6 0 0 8192)) ∧ (cameCtx
      0 (ccdBytes 6 0 0 8192)).access = false ∧ (cameCtx 0 (ccdBytes 6 0 0 8192)).st = CtxSt.fetching ∧ (cameCtx 0 (ccdBytes 6 0 0 8192)).moving =
      false ∧ (cameCtx 0 (ccdBytes 6 0 0 8192)).got = some (0, ccdBytes 6 0 0 8192) ∧ (cameCtx 0 (ccdBytes 6 0 0 8192)).je = some 3 ∧ (cameCtx 0
      (ccdBytes 6 0 0 8192)).span = none ∧ 1 = (ccdCame 0 (ccdBytes 6 0 0 8192)).f Fld.qCfg_class (4 * (cameCtx 0 (ccdBytes 6 0 0 8192)).inst +
      (cameCtx 0 (ccdBytes 6 0 0 8192)).q) ∧ (ccdOf (ccdBytes 6 0 0 8192)).op = 6 ∧ 0 = 0 ∧ flagsOk (ccdOf (ccdBytes 6 0 0 8192)) = true ∧ (ccdOf
      (ccdBytes 6 0 0 8192)).data % 32 = 0 ∧ (cameCtx 0 (ccdBytes 6 0 0 8192)).jumps ≠ 8 := by
  decide +kernel

theorem witness_CcdsAreFetchedAndAdmitted_4 :
    (ccdCame 0 (ccdBytes 2 44 0 8192)).works = true ∧ (ccdCame 0 (ccdBytes 2 44 0 8192)).ctx? 6 = some (cameCtx 0 (ccdBytes 2 44 0 8192)) ∧
      (cameCtx 0 (ccdBytes 2 44 0 8192)).access = false ∧ (cameCtx 0 (ccdBytes 2 44 0 8192)).st = CtxSt.fetching ∧ (cameCtx 0 (ccdBytes 2 44 0
      8192)).moving = false ∧ (cameCtx 0 (ccdBytes 2 44 0 8192)).got = some (0, ccdBytes 2 44 0 8192) ∧ (cameCtx 0 (ccdBytes 2 44 0 8192)).je = some
      3 ∧ (cameCtx 0 (ccdBytes 2 44 0 8192)).span = none ∧ 1 = (ccdCame 0 (ccdBytes 2 44 0 8192)).f Fld.qCfg_class (4 * (cameCtx 0 (ccdBytes 2 44 0
      8192)).inst + (cameCtx 0 (ccdBytes 2 44 0 8192)).q) ∧ (ccdOf (ccdBytes 2 44 0 8192)).op ≠ 6 ∧ 0 = 0 ∧ (ccdCame 0 (ccdBytes 2 44 0
      8192)).ccdFault (cameCtx 0 (ccdBytes 2 44 0 8192)).inst (ccdOf (ccdBytes 2 44 0 8192)) none = some (7, 3) := by
  decide +kernel

theorem witness_CcdsAreFetchedAndAdmitted_5 :
    (ccdCame 3 []).works = true ∧ (ccdCame 3 []).ctx? 6 = some (cameCtx 3 []) ∧ (cameCtx 3 []).access = false ∧ (cameCtx 3 []).st = CtxSt.fetching
      ∧ (cameCtx 3 []).moving = false ∧ (cameCtx 3 []).got = some (3, []) ∧ (cameCtx 3 []).je = some 3 ∧ (cameCtx 3 []).span = none ∧ 1 = (ccdCame 3
      []).f Fld.qCfg_class (4 * (cameCtx 3 []).inst + (cameCtx 3 []).q) ∧ 3 ≠ 0 := by
  decide +kernel

theorem witness_CcdsAreFetchedAndAdmitted_6 :
    (ccdCame 0 (ccdBytes 7 44 0 0)).works = true ∧ (ccdCame 0 (ccdBytes 7 44 0 0)).ctx? 6 = some (cameCtx 0 (ccdBytes 7 44 0 0)) ∧ (cameCtx 0
      (ccdBytes 7 44 0 0)).access = false ∧ (cameCtx 0 (ccdBytes 7 44 0 0)).st = CtxSt.fetching ∧ (cameCtx 0 (ccdBytes 7 44 0 0)).moving = false ∧
      (cameCtx 0 (ccdBytes 7 44 0 0)).got = some (0, ccdBytes 7 44 0 0) ∧ (cameCtx 0 (ccdBytes 7 44 0 0)).je = some 3 ∧ (cameCtx 0 (ccdBytes 7 44 0
      0)).span = none ∧ 1 = (ccdCame 0 (ccdBytes 7 44 0 0)).f Fld.qCfg_class (4 * (cameCtx 0 (ccdBytes 7 44 0 0)).inst + (cameCtx 0 (ccdBytes 7 44 0
      0)).q) ∧ (ccdOf (ccdBytes 7 44 0 0)).op = 7 ∧ 0 = 0 ∧ (ccdCame 0 (ccdBytes 7 44 0 0)).ccdFault (cameCtx 0 (ccdBytes 7 44 0 0)).inst (ccdOf
      (ccdBytes 7 44 0 0)) none = none ∧ ((ccdCame 0 (ccdBytes 7 44 0 0)).modCtx 6 fun c => { c with hold := {} }).takeHold (cameCtx 0 (ccdBytes 7
      44 0 0)).inst (3 * 1 + 2) (if (ccdOf (ccdBytes 7 44 0 0)).cmp = true then 136 else 0) = some grantedNone := by
  decide +kernel

theorem witness_CcdsAreFetchedAndAdmitted_7 :
    (ccdCame 0 (ccdBytes 8 44 0 0)).works = true ∧ (ccdCame 0 (ccdBytes 8 44 0 0)).ctx? 6 = some (cameCtx 0 (ccdBytes 8 44 0 0)) ∧ (cameCtx 0
      (ccdBytes 8 44 0 0)).access = false ∧ (cameCtx 0 (ccdBytes 8 44 0 0)).st = CtxSt.fetching ∧ (cameCtx 0 (ccdBytes 8 44 0 0)).moving = false ∧
      (cameCtx 0 (ccdBytes 8 44 0 0)).got = some (0, ccdBytes 8 44 0 0) ∧ (cameCtx 0 (ccdBytes 8 44 0 0)).je = some 3 ∧ (cameCtx 0 (ccdBytes 8 44 0
      0)).span = none ∧ 1 = (ccdCame 0 (ccdBytes 8 44 0 0)).f Fld.qCfg_class (4 * (cameCtx 0 (ccdBytes 8 44 0 0)).inst + (cameCtx 0 (ccdBytes 8 44 0
      0)).q) ∧ (ccdOf (ccdBytes 8 44 0 0)).op = 8 ∧ 0 = 0 ∧ (ccdCame 0 (ccdBytes 8 44 0 0)).ccdFault (cameCtx 0 (ccdBytes 8 44 0 0)).inst (ccdOf
      (ccdBytes 8 44 0 0)) none = none ∧ ((ccdCame 0 (ccdBytes 8 44 0 0)).modCtx 6 fun c => { c with hold := {} }).takeHold (cameCtx 0 (ccdBytes 8
      44 0 0)).inst (3 * 1 + 2) (if (ccdOf (ccdBytes 8 44 0 0)).cmp = true then 136 else 0) = some grantedNone ∧ ((ccdCame 0 (ccdBytes 8 44 0 0)).dn
      (ccdOf (ccdBytes 8 44 0 0)).dn).attn ≠ AttnSt.delivered := by
  decide +kernel

theorem witness_DataIsFetched_1 :
    (running ccdEntry5 wrX (wrOp wrX) none).works = true ∧ (running ccdEntry5 wrX (wrOp wrX) none).ctx? 6 = some (runCtx none) ∧ (runCtx none).je
      = some 3 ∧ (runCtx none).st = CtxSt.run ∧ (runCtx none).moving = false ∧ (runCtx none).access = false ∧ (running ccdEntry5 wrX (wrOp wrX)
      none).op? 3 = some (wrOp wrX) ∧ (wrOp wrX).x = some wrX ∧ wrX.ctx = 6 ∧ (runCtx none).got = none ∧ wrX.fetching = false ∧ dataGot wrX =
      wrX.hasked ∧ ((running ccdEntry5 wrX (wrOp wrX) none).entry 3).err = 0 ∧ (wrOp wrX).stop = false ∧ (wrOp wrX).done = false ∧ ((running
      ccdEntry5 wrX (wrOp wrX) none).entry 3).inst = (runCtx none).inst ∧ (running ccdEntry5 wrX (wrOp wrX) none).ctxCls (runCtx none) = ((running
      ccdEntry5 wrX (wrOp wrX) none).entry 3).cls ∧ ((running ccdEntry5 wrX (wrOp wrX) none).entry 3).cls ≠ 0 ∧ (running ccdEntry5 wrX (wrOp wrX)
      none).engMasked (runCtx none).eng = false ∧ 16 = min (dataWant wrX - wrX.hasked) (min (4096 - (wrX.c.data + wrX.hasked) % 4096) (256 *
      (running ccdEntry5 wrX (wrOp wrX) none).quotaFree ((running ccdEntry5 wrX (wrOp wrX) none).entry 3).inst)) ∧ 16 ≠ 0 ∧ (running ccdEntry5 wrX
      (wrOp wrX) none).takeHold ((running ccdEntry5 wrX (wrOp wrX) none).entry 3).inst (3 * ((running ccdEntry5 wrX (wrOp wrX) none).entry 3).cls +
      2) (grainsOf 16) = some granted5 ∧ (running ccdEntry5 wrX (wrOp wrX) none).canRead ((running ccdEntry5 wrX (wrOp wrX) none).instLink ((running
      ccdEntry5 wrX (wrOp wrX) none).entry 3).inst) ((running ccdEntry5 wrX (wrOp wrX) none).inst ((running ccdEntry5 wrX (wrOp wrX) none).entry
      3).inst).reqId.toNat (wrX.c.data + wrX.hasked) 16 := by
  refine ⟨by decide +kernel, by decide +kernel, by decide +kernel, by decide +kernel, ?_⟩
  refine ⟨by decide +kernel, by decide +kernel, by decide +kernel, by decide +kernel, ?_⟩
  refine ⟨by decide +kernel, by decide +kernel, by decide +kernel, by decide +kernel, ?_⟩
  refine ⟨by decide +kernel, by decide +kernel, by decide +kernel, by decide +kernel, ?_⟩
  refine ⟨by decide +kernel, by decide +kernel, by decide +kernel, by decide +kernel, ?_⟩
  refine ⟨by decide +kernel, by decide +kernel, ?_⟩
  unfold State.canRead; decide +kernel

theorem witness_DataIsFetched_2 :
    (running ccdEntry5 askedX (wrOp askedX) (some (0, sixteen))).works = true ∧ (running ccdEntry5 askedX (wrOp askedX) (some (0, sixteen))).ctx?
      6 = some (runCtx (some (0, sixteen))) ∧ (runCtx (some (0, sixteen))).je = some 3 ∧ (runCtx (some (0, sixteen))).st = CtxSt.run ∧ (runCtx (some
      (0, sixteen))).moving = false ∧ (runCtx (some (0, sixteen))).access = false ∧ (running ccdEntry5 askedX (wrOp askedX) (some (0, sixteen))).op?
      3 = some (wrOp askedX) ∧ (wrOp askedX).x = some askedX ∧ askedX.ctx = 6 ∧ (runCtx (some (0, sixteen))).got = some (0, sixteen) ∧ askedX.c.op =
      2 ∧ askedX.c.cmp = false ∧ askedX.c.enc = false ∧ askedX.hasked = askedX.c.count ∧ (FMap.find 3 (running ccdEntry5 askedX (wrOp askedX) (some
      (0, sixteen))).jnl.entries).isSome = true := by
  decide +kernel

theorem witness_DataIsFetched_3 :
    (running ccdEntry5 askedX (wrOp askedX) (some (3, []))).works = true ∧ (running ccdEntry5 askedX (wrOp askedX) (some (3, []))).ctx? 6 = some
      (runCtx (some (3, []))) ∧ (runCtx (some (3, []))).je = some 3 ∧ (runCtx (some (3, []))).st = CtxSt.run ∧ (runCtx (some (3, []))).moving =
      false ∧ (runCtx (some (3, []))).access = false ∧ (running ccdEntry5 askedX (wrOp askedX) (some (3, []))).op? 3 = some (wrOp askedX) ∧ (wrOp
      askedX).x = some askedX ∧ askedX.ctx = 6 ∧ (runCtx (some (3, []))).got = some (3, []) ∧ 3 ≠ 0 ∧ ((running ccdEntry5 askedX (wrOp askedX) (some
      (3, []))).entry 3).err = 0 ∧ ((running ccdEntry5 askedX (wrOp askedX) (some (3, []))).entry 3).kind = 4 ∧ ((running ccdEntry5 askedX (wrOp
      askedX) (some (3, []))).entry 3).pst = false ∧ (wrOp askedX).silent = false ∧ (running ccdEntry5 askedX (wrOp askedX) (some (3,
      []))).pieceOpen 3 (wrOp askedX) = false := by
  decide +kernel

/-! `Obligations.CompletionEntries` -/

theorem witness_CompletionEntries_1 :
    (farDone wrX).works = true ∧ (farDone wrX).op? 3 = some (doneOp wrX) ∧ (doneOp wrX).x = some wrX ∧ ((farDone wrX).entry 3).kind = 4 ∧
      ((farDone wrX).entry 3).st = JSt.farDone ∧ (doneOp wrX).done = true ∧ (farDone wrX).ctx? wrX.ctx = some (runCtx none) ∧ (runCtx none).moving =
      false ∧ 21 = 4 * ((farDone wrX).entry 3).inst + wrX.q ∧ 0 = (farDone wrX).f Fld.cqTail_tail 21 ∧ (farDone wrX).f Fld.qStat_state 21 ≠ 3 ∧
      wrX.c.pst = false ∧ (farDone wrX).fb Fld.cqCoal_tunnel 21 = false ∧ ((farDone wrX).qp 21).armed = false ∧ (farDone wrX).entryWaits 3 = false ∧
      ((farDone wrX).entry 3).cls ≠ 0 ∧ (farDone wrX).canWrite ((farDone wrX).entry 3).inst ((farDone wrX).ringBase Fld.cqBaseLo_base_lo
      Fld.cqBaseHi_base_hi 21 + 64 * 0) 64 := by
  refine ⟨by decide +kernel, by decide +kernel, by decide +kernel, by decide +kernel, ?_⟩
  refine ⟨by decide +kernel, by decide +kernel, by decide +kernel, by decide +kernel, ?_⟩
  refine ⟨by decide +kernel, by decide +kernel, by decide +kernel, by decide +kernel, ?_⟩
  refine ⟨by decide +kernel, by decide +kernel, by decide +kernel, by decide +kernel, ?_⟩
  unfold State.canWrite; decide +kernel

theorem witness_CompletionEntries_2 :
    (farDone endedX).works = true ∧ (farDone endedX).op? 3 = some (doneOp endedX) ∧ (doneOp endedX).x = some endedX ∧ ((farDone endedX).entry
      3).kind = 4 ∧ ((farDone endedX).entry 3).st = JSt.farDone ∧ (doneOp endedX).done = true ∧ (farDone endedX).ctx? endedX.ctx = some (runCtx
      none) ∧ (runCtx none).moving = false ∧ 21 = 4 * ((farDone endedX).entry 3).inst + endedX.q ∧ 0 = (farDone endedX).f Fld.cqTail_tail 21 ∧
      (farDone endedX).f Fld.qStat_state 21 ≠ 3 ∧ endedX.c.pst = false ∧ (farDone endedX).fb Fld.cqCoal_tunnel 21 = false ∧ ((farDone endedX).qp
      21).armed = false ∧ (farDone endedX).entryWaits 3 = false ∧ ((farDone endedX).entry 3).cls ≠ 0 ∧ (farDone endedX).canWrite ((farDone
      endedX).entry 3).inst ((farDone endedX).ringBase Fld.cqBaseLo_base_lo Fld.cqBaseHi_base_hi 21 + 64 * 0) 64 := by
  refine ⟨by decide +kernel, by decide +kernel, by decide +kernel, by decide +kernel, ?_⟩
  refine ⟨by decide +kernel, by decide +kernel, by decide +kernel, by decide +kernel, ?_⟩
  refine ⟨by decide +kernel, by decide +kernel, by decide +kernel, by decide +kernel, ?_⟩
  refine ⟨by decide +kernel, by decide +kernel, by decide +kernel, by decide +kernel, ?_⟩
  unfold State.canWrite; decide +kernel

/-! `Obligations.NoticesAndFences` -/

theorem witness_NoticesAndFences_1 :
    ((pelUp.setF Fld.pelCfg_en 0 5).inst 5).st ≠ InstSt.free ∧ (pelUp.setF Fld.pelCfg_en 0 5).goesWrite svc RegId.pelCfg 5 (setBits 31 31 1 (4 :
      Word)) = true ∧ (pelUp.setF Fld.pelCfg_en 0 5).f Fld.pelCfg_en 5 = 0 ∧ (pelUp.setF Fld.pelCfg_en 0 5).f Fld.pelStat_state 5 ≠ 3 := by
  decide +kernel

theorem witness_NoticesAndFences_2 :
    (pelAhead.inst 5).st ≠ InstSt.free ∧ pelAhead.goesWrite svc RegId.pelHead 5 (5 : Word) = true ∧ headOk (pelAhead.f Fld.pelCfg_size 5)
      (pelAhead.f Fld.pelHead_head 5) (pelAhead.f Fld.pelTail_tail 5) (BitVec.toNat (5 : Word) % 2 ^ 16) = true := by
  decide +kernel

theorem witness_NoticesAndFences_3 :
    (pelAhead.inst 5).st ≠ InstSt.free ∧ pelAhead.goesWrite svc RegId.pelHead 5 (6 : Word) = true ∧ headOk (pelAhead.f Fld.pelCfg_size 5)
      (pelAhead.f Fld.pelHead_head 5) (pelAhead.f Fld.pelTail_tail 5) (BitVec.toNat (6 : Word) % 2 ^ 16) = false := by
  decide +kernel

theorem witness_NoticesAndFences_4 :
    (pelFault.inst 5).st ≠ InstSt.free ∧ pelFault.goesWrite svc RegId.pelCtl 5 (setBits 0 0 1 (1 : Word)) = true ∧ pelFault.f Fld.pelStat_state 5
      = 3 ∧ (pelFault.pel 5).waiting = [] := by
  decide +kernel

theorem witness_NoticesAndFences_5 :
    (fenceIdle.inst 5).st ≠ InstSt.free ∧ fenceIdle.goesWrite svc RegId.fenceDb 5 (4660 : Word) = true ∧ fenceIdle.fb Fld.fenceStat_done 5 = true := by
  decide +kernel

theorem witness_NoticesAndFences_6 :
    noticed.works = true ∧ (noticed.pel 5).waiting = [3] ∧ noticed.fb Fld.pelCfg_en 5 = true ∧ noticed.f Fld.pelStat_state 5 ≠ 3 ∧ noticed.pelFull
      5 = false ∧ (noticed.inst 5).st ≠ InstSt.squash ∧ noticed.op? 3 = some noticeOp ∧ 0 = noticed.f Fld.pelTail_tail 5 ∧ noticed.evOn 5 4 = false
      ∧ (noticed.entry 3).inst = 5 ∧ noticed.f Fld.evVec_vc (evVecIdx 5 4) ≠ 0 ∧ noticed.canWrite 5 (noticed.ringBase Fld.pelBaseLo_base_lo
      Fld.pelBaseHi_base_hi 5 + 64 * 0) 64 := by
  refine ⟨by decide +kernel, by decide +kernel, by decide +kernel, by decide +kernel, ?_⟩
  refine ⟨by decide +kernel, by decide +kernel, by decide +kernel, by decide +kernel, ?_⟩
  refine ⟨by decide +kernel, by decide +kernel, by decide +kernel, ?_⟩
  unfold State.canWrite; decide +kernel

theorem witness_NoticesAndFences_7 :
    (fencing [(4, 9)]).works = true ∧ (fencing [(4, 9)]).fb Fld.fenceStat_done 5 = false ∧ ((fencing [(4, 9)]).pel 5).cover.all (fencing [(4,
      9)]).settled = true := by
  decide +kernel

theorem witness_NoticesAndFences_8 :
    (fencing [(3, 9)]).works = true ∧ (fencing [(3, 9)]).fb Fld.fenceStat_done 5 = false ∧ ((fencing [(3, 9)]).pel 5).cover.all (fencing [(3,
      9)]).settled = false := by
  decide +kernel

/-! `Obligations.RetriesAndRetirement` -/

theorem witness_RetriesAndRetirement_1 :
    (retrying 1).works = true ∧ (retrying 1).ctxOf 3 = some (6, retryCtx 1) ∧ (retrying 1).ctx? 6 = some (retryCtx 1) ∧ (retryCtx 1).moving =
      false ∧ (retryCtx 1).eng ≠ 127 ∧ (retrying 1).exOn 4 = false ∧ (retrying 1).exOn 5 = false ∧ (retrying 1).exOn 6 = false ∧ (retrying 1).mute
      128 = true := by
  decide +kernel

theorem witness_RetriesAndRetirement_2 :
    (retrying 1).works = true ∧ (retrying 1).ctxOf 3 = some (6, retryCtx 1) ∧ (retrying 1).ctx? 6 = some (retryCtx 1) ∧ (retryCtx 1).moving =
      false ∧ (retryCtx 1).eng ≠ 127 ∧ (retrying 1).exOn 4 = false ∧ (retrying 1).exOn 5 = false ∧ (retrying 1).exOn 6 = false ∧ (retryCtx
      1).retries < 2 := by
  decide +kernel

theorem witness_RetriesAndRetirement_3 :
    (retrying 2).works = true ∧ (retrying 2).ctxOf 3 = some (6, retryCtx 2) ∧ (retrying 2).ctx? 6 = some (retryCtx 2) ∧ (retryCtx 2).moving =
      false ∧ (retryCtx 2).eng ≠ 127 ∧ (retrying 2).exOn 4 = false ∧ (retrying 2).exOn 5 = false ∧ (retrying 2).exOn 6 = false ∧ 2 ≤ (retryCtx
      2).retries ∧ ((retrying 2).eng (retryCtx 2).eng).role = EngRole.active ∧ (retrying 2).bst.eng.st = SliceSt.idle ∧ (retrying 2).pickSpare
      (retryCtx 2).eng = some 4 ∧ 4 ≠ (retryCtx 2).eng ∧ (retrying 2).muteUc := by
  refine ⟨by decide +kernel, by decide +kernel, by decide +kernel, by decide +kernel, ?_⟩
  refine ⟨by decide +kernel, by decide +kernel, by decide +kernel, by decide +kernel, ?_⟩
  refine ⟨by decide +kernel, by decide +kernel, by decide +kernel, by decide +kernel, ?_⟩
  refine ⟨by decide +kernel, ?_⟩
  exact ⟨by decide +kernel, evOn_off (by decide +kernel)⟩

theorem witness_RetriesAndRetirement_4 :
    movedState.works = true ∧ movedState.ctxOf 3 = some (6, movedCtx) ∧ movedState.ctx? 6 = some movedCtx ∧ movedCtx.moving = true ∧ movedCtx.eng
      ≠ 127 ∧ movedState.op? 3 = some (directOf false) ∧ (directOf false).done = false ∧ (movedState.entry 3).st ≠ JSt.squashed ∧ (movedState.entry
      3).eng ≠ 127 ∧ (directOf false).x = none ∧ (directOf false).cur ≠ none ∧ List.filter (fun y ↦ y.2.moving) movedState.ctxs = [(6, movedCtx)] := by
  decide +kernel

/-! `Obligations.JournalAccessAndWatchdog` -/

theorem witness_JournalAccess_1 :
    3 = (jnlMuted jnlState).f Fld.jnlIdx_je ∧ (jnlMuted jnlState).jnl.scan = none ∧ (jnlMuted jnlState).goesWrite svc RegId.jnlCmd 0 (setBits 1 0
      1 (0 : Word)) = true ∧ (jnlMuted jnlState).jnlJudge (accIdent svc) 3 = Verdict.ok ∧ (∀ w ∈ (jnlMuted jnlState).jnl.uncorr, w.1 ≠ 3) ∧
      (jnlMuted jnlState).exOn 0 = false := by
  decide +kernel

theorem witness_JournalAccess_8 :
    3 = jnlDenied.f Fld.jnlIdx_je ∧ jnlDenied.jnl.scan = none ∧ jnlDenied.goesWrite { src := Src.dbg } RegId.jnlCmd 0 (setBits 1 0 1 (0 : Word)) =
      true ∧ jnlDenied.jnlJudge (accIdent { src := Src.dbg }) 3 = Verdict.denied (jnlAddr 5 3) ∧ (∀ w ∈ jnlDenied.jnl.uncorr, w.1 ≠ 3) ∧
      jnlDenied.exOn 0 = false := by
  decide +kernel

theorem witness_JournalAccess_2 :
    3 = (jnlMuted ((jnlState.setF Fld.gateRgnCtl_en 1 (64 * 147)).setF Fld.gateRgnLimitHi_limit_hi 65535 (64 * 147))).f Fld.jnlIdx_je ∧ (jnlMuted
      ((jnlState.setF Fld.gateRgnCtl_en 1 (64 * 147)).setF Fld.gateRgnLimitHi_limit_hi 65535 (64 * 147))).jnl.scan = none ∧ (jnlMuted
      ((jnlState.setF Fld.gateRgnCtl_en 1 (64 * 147)).setF Fld.gateRgnLimitHi_limit_hi 65535 (64 * 147))).goesWrite svc RegId.jnlCmd 0 (setBits 1 0
      1 (0 : Word)) = true ∧ (jnlMuted ((jnlState.setF Fld.gateRgnCtl_en 1 (64 * 147)).setF Fld.gateRgnLimitHi_limit_hi 65535 (64 * 147))).jnlJudge
      (accIdent svc) 3 = Verdict.bad GRes.refuse (jnlAddr 5 3) ∧ (jnlMuted ((jnlState.setF Fld.gateRgnCtl_en 1 (64 * 147)).setF
      Fld.gateRgnLimitHi_limit_hi 65535 (64 * 147))).mute 290 = true := by
  decide +kernel

theorem witness_JournalAccess_3 :
    0 = jnlState.f Fld.jnlIdx_je ∧ jnlState.jnl.scan = none ∧ jnlState.goesWrite svc RegId.jnlCmd 0 (setBits 1 0 2 (0 : Word)) = true ∧
      (jnlState.jnlSearch (accIdent svc) (min 4194304 (0 + 16)) jnlState.scanFuel 0 none none).2 = none := by
  decide +kernel

theorem witness_JournalAccess_4 :
    (scanning 4).goesWrite svc RegId.jnlCmd 0 (setBits 1 0 3 (0 : Word)) = true := by
  decide +kernel

theorem witness_JournalAccess_5 :
    (scanning 4).jnl.scan = some (accIdent svc) ∧ (scanning 4).jnlSearch (accIdent svc) 4194304 (scanning 4).scanFuel ((scanning 4).f
      Fld.jnlIdx_je) none none = (some 3, none) ∧ (∀ w ∈ (scanning 4).jnl.uncorr, w.1 ≠ 3) ∧ (scanning 4).exOn 0 = false := by
  decide +kernel

theorem witness_JournalAccess_6 :
    (scanning 8).jnl.scan = some (accIdent svc) ∧ (scanning 8).jnlSearch (accIdent svc) 4194304 (scanning 8).scanFuel ((scanning 8).f
      Fld.jnlIdx_je) none none = (none, none) := by
  decide +kernel

theorem witness_JournalAccess_7 :
    jnlState.jnl.scan = none := by
  decide +kernel

theorem witness_WatchdogActs_1 :
    selfHeld.works = true ∧ selfHeld.fb Fld.jnlWdCfg_en = true := by
  decide +kernel

theorem witness_WatchdogActs_2 :
    wdFound.works = true ∧ wdFound.fb Fld.jnlWdCfg_en = true ∧ wdFound.youngest (List.filter (fun j ↦ wdFound.stalled j (wdFound.entry j))
      wdFound.jnl.blocked) = some 3 ∧ wdFound.directOp 3 (directOf false) rdHdr ∧ wdFound.muteUc ∧ (wdFound.daddr (directOf false).port (directOf
      false).daddr).lock = LockSt.none := by
  refine ⟨by decide +kernel, by decide +kernel, by decide +kernel, by unfold State.directOp; decide +kernel, ?_⟩
  refine ⟨by exact ⟨by decide +kernel, evOn_off (by decide +kernel)⟩, ?_⟩
  decide +kernel

theorem witness_WatchdogActs_3 :
    selfHeld.works = true ∧ selfHeld.fb Fld.jnlWdCfg_en = true ∧ selfHeld.youngest (List.filter (fun j ↦ selfHeld.stalled j (selfHeld.entry j))
      selfHeld.jnl.blocked) = none := by
  decide +kernel

/-! `Obligations.ChunksOfTransforms` -/

theorem witness_ChunksOfTransforms_4 :
    (encRun 0).works = true ∧ (∀ (n : ℕ), FMap.find 8 (encRun 0).cmp.busy ≠ some (3, n)) := by
  refine ⟨by decide +kernel, ?_⟩
  intro n; rw [show FMap.find 8 (encRun 0).cmp.busy = none by decide +kernel]; simp

theorem witness_ChunksOfTransforms_5 :
    (encRun 0).works = true ∧ (∀ (n : ℕ), FMap.find 8 (encRun 0).cmp.busy ≠ some (3, n)) := by
  refine ⟨by decide +kernel, ?_⟩
  intro n; rw [show FMap.find 8 (encRun 0).cmp.busy = none by decide +kernel]; simp

theorem witness_ChunksOfTransforms_1 :
    (encRun 0).works = true ∧ (encRun 0).op? 3 = some (encOp 0) ∧ FMap.find 10 (encRun 0).cmp.busy = some (3, ((encRun 0).entry 3).serial) ∧
      (encOp 0).x = some (encX 0) ∧ (encOp 0).done = false ∧ ((encRun 0).entry 3).err = 0 ∧ (encRun 0).exOn 7 = false ∧ (encRun 0).exOn 8 = false ∧
      8 ≤ 10 ∧ (encX 0).cbad = [] ∧ (encX 0).c.enc = true ∧ (encX 0).c.op = 2 ∧ (encX 0).c.pst = false ∧ 512 = duBytes (encX 0).c ∧ 0 = (encX
      0).s2.length / 512 ∧ 512 * (0 + 1) ≤ (encX 0).s1.length := by
  decide +kernel

theorem witness_ChunksOfTransforms_2 :
    (encRun 1).works = true ∧ (encRun 1).op? 3 = some (encOp 1) ∧ FMap.find 10 (encRun 1).cmp.busy = some (3, ((encRun 1).entry 3).serial) ∧
      (encOp 1).x = some (encX 1) ∧ (encOp 1).done = false ∧ ((encRun 1).entry 3).err = 0 ∧ (encRun 1).exOn 7 = false ∧ (encRun 1).exOn 8 = false ∧
      (¬(badOf (encX 1) 10).contains 10 = true) ∧ (List.filter (fun p ↦ p.1 == 10) (List.filter (fun p ↦ decide ((encRun 1).ts < p.2 + 100000000))
      (encRun 1).cmp.fails)).length < 2 ∧ (badOf (encX 1) 10).length < 2 := by
  decide +kernel

theorem witness_ChunksOfTransforms_3 :
    (encRun 2).works = true ∧ (encRun 2).op? 3 = some (encOp 2) ∧ FMap.find 10 (encRun 2).cmp.busy = some (3, ((encRun 2).entry 3).serial) ∧
      (encOp 2).x = some (encX 2) ∧ (encOp 2).done = false ∧ ((encRun 2).entry 3).err = 0 ∧ (encRun 2).exOn 7 = false ∧ (encRun 2).exOn 8 = false ∧
      (¬(badOf (encX 2) 10).contains 10 = true) ∧ (List.filter (fun p ↦ p.1 == 10) (List.filter (fun p ↦ decide ((encRun 2).ts < p.2 + 100000000))
      (encRun 2).cmp.fails)).length < 2 ∧ (badOf (encX 2) 10).length = 2 ∧ ((encRun 2).entry 3).kind = 4 ∧ (encOp 2).silent = false ∧ (encRun
      2).muteUc := by
  refine ⟨by decide +kernel, by decide +kernel, by decide +kernel, by decide +kernel, ?_⟩
  refine ⟨by decide +kernel, by decide +kernel, by decide +kernel, by decide +kernel, ?_⟩
  refine ⟨by decide +kernel, by decide +kernel, by decide +kernel, by decide +kernel, ?_⟩
  refine ⟨by decide +kernel, ?_⟩
  exact ⟨by decide +kernel, evOn_off (by decide +kernel)⟩

/-! `Obligations.KeyCommands` -/

theorem witness_KeyCommands_1 :
    5 = BitVec.toNat (5 : Word) % 256 ∧ staged.goesKeyed svc RegId.cmpKekLoad 0 (setBits 9 8 1 (5 : Word)) (setBits 9 8 2 (~~~(5 : Word))) = true
      ∧ (staged.inst 5).st ≠ InstSt.free ∧ (∀ k < 8, (FMap.find k staged.cmp.staged).isSome = true) := by
  decide +kernel

theorem witness_KeyCommands_2 :
    5 = BitVec.toNat (5 : Word) % 256 ∧ qpUp.goesKeyed svc RegId.cmpKekLoad 0 (setBits 9 8 1 (5 : Word)) (setBits 9 8 2 (~~~(5 : Word))) = true ∧
      ((qpUp.inst 5).st = InstSt.free ∨ ∃ k < 8, (FMap.find k qpUp.cmp.staged).isSome = false) := by
  decide +kernel

theorem witness_KeyCommands_3 :
    5 = BitVec.toNat (5 : Word) % 256 ∧ keyed.goesKeyed svc RegId.cmpKekLoad 0 (setBits 9 8 2 (5 : Word)) (setBits 9 8 1 (~~~(5 : Word))) = true ∧
      (keyed.inst 5).st ≠ InstSt.free := by
  decide +kernel

theorem witness_KeyCommands_4 :
    2 = BitVec.toNat (2 : Word) % 2 ^ 12 ∧ keyed.keyMay svc 5 2 ∧ keyed.goesWrite svc RegId.cmpKldCmd 5 (setBits 31 30 1 (2 : Word)) = true ∧
      keyed.owns 5 2 2 = true ∧ keyed.slotUsers 2 = 0 ∧ (keyed.slot 2).st ≠ SlotSt.loading ∧ FMap.find 5 keyed.cmp.keks = some kek5 ∧ keyed.mbox 5 =
      none ∧ keyed.takeHold 5 11 1 = some grantedK ∧ keyed.canRead (keyed.instLink 5) (keyed.inst 5).reqId.toNat (128 * keyed.f
      Fld.cmpKldAddrLo_addr_lo 5 + 2 ^ 32 * keyed.f Fld.cmpKldAddrHi_addr_hi 5) 72 := by
  refine ⟨by decide +kernel, by unfold State.keyMay; decide +kernel, by decide +kernel, by decide +kernel, ?_⟩
  refine ⟨by decide +kernel, by decide +kernel, by decide +kernel, by decide +kernel, ?_⟩
  refine ⟨by decide +kernel, ?_⟩
  unfold State.canRead; decide +kernel

theorem witness_KeyCommands_5 :
    7 = BitVec.toNat (7 : Word) % 2 ^ 12 ∧ keyed.keyMay svc 5 7 ∧ keyed.goesWrite svc RegId.cmpKldCmd 5 (setBits 31 30 1 (7 : Word)) = true ∧
      (keyed.owns 5 2 7 = false ∧ 3 = 3 ∨ keyed.owns 5 2 7 = true ∧ (keyed.slotUsers 7 ≠ 0 ∨ (keyed.slot 7).st = SlotSt.loading) ∧ 3 = 4 ∨
      keyed.owns 5 2 7 = true ∧ keyed.slotUsers 7 = 0 ∧ (keyed.slot 7).st ≠ SlotSt.loading ∧ FMap.find 5 keyed.cmp.keks = none ∧ 3 = 5) := by
  refine ⟨by decide +kernel, by unfold State.keyMay; decide +kernel, by decide +kernel, ?_⟩
  decide +kernel

theorem witness_KeyCommands_6 :
    2 = BitVec.toNat (2 : Word) % 2 ^ 12 ∧ busySlot.keyMay svc 5 2 ∧ busySlot.goesWrite svc RegId.cmpKldCmd 5 (setBits 31 30 1 (2 : Word)) = true
      ∧ (busySlot.owns 5 2 2 = false ∧ 4 = 3 ∨ busySlot.owns 5 2 2 = true ∧ (busySlot.slotUsers 2 ≠ 0 ∨ (busySlot.slot 2).st = SlotSt.loading) ∧ 4 =
      4 ∨ busySlot.owns 5 2 2 = true ∧ busySlot.slotUsers 2 = 0 ∧ (busySlot.slot 2).st ≠ SlotSt.loading ∧ FMap.find 5 busySlot.cmp.keks = none ∧ 4 =
      5) := by
  refine ⟨by decide +kernel, by unfold State.keyMay; decide +kernel, by decide +kernel, ?_⟩
  decide +kernel

theorem witness_KeyCommands_7 :
    2 = BitVec.toNat (2 : Word) % 2 ^ 12 ∧ keyless.keyMay svc 5 2 ∧ keyless.goesWrite svc RegId.cmpKldCmd 5 (setBits 31 30 1 (2 : Word)) = true ∧
      (keyless.owns 5 2 2 = false ∧ 5 = 3 ∨ keyless.owns 5 2 2 = true ∧ (keyless.slotUsers 2 ≠ 0 ∨ (keyless.slot 2).st = SlotSt.loading) ∧ 5 = 4 ∨
      keyless.owns 5 2 2 = true ∧ keyless.slotUsers 2 = 0 ∧ (keyless.slot 2).st ≠ SlotSt.loading ∧ FMap.find 5 keyless.cmp.keks = none ∧ 5 = 5) := by
  refine ⟨by decide +kernel, by unfold State.keyMay; decide +kernel, by decide +kernel, ?_⟩
  decide +kernel

theorem witness_KeyCommands_8 :
    2 = BitVec.toNat (2 : Word) % 2 ^ 12 ∧ keyed.keyMay svc 5 2 ∧ keyed.goesWrite svc RegId.cmpKldCmd 5 (setBits 31 30 2 (2 : Word)) = true ∧
      keyed.owns 5 2 2 = true ∧ keyed.slotUsers 2 = 0 ∧ (keyed.slot 2).st ≠ SlotSt.loading := by
  refine ⟨by decide +kernel, by unfold State.keyMay; decide +kernel, by decide +kernel, by decide +kernel, ?_⟩
  refine ⟨by decide +kernel, ?_⟩
  decide +kernel

theorem witness_KeyCommands_9 :
    (loadingKey (wrapped 0)).works = true ∧ (loadingKey (wrapped 0)).mbox 5 = some (mboxOf (wrapped 0)) ∧ (mboxOf (wrapped 0)).got = some (0,
      wrapped 0) ∧ ((loadingKey (wrapped 0)).slot (mboxOf (wrapped 0)).slot).st = SlotSt.loading ∧ (loadingKey (wrapped 0)).judge gKey (mboxOf
      (wrapped 0)).ident (128 * (mboxOf (wrapped 0)).slot) (128 * (mboxOf (wrapped 0)).slot + 127) false true = Verdict.ok := by
  decide +kernel

/-! `Obligations.GatesJudgeEveryByte` -/

theorem witness_GatesJudgeEveryByte_1 :
    100 < 2 ^ 56 := by
  decide +kernel

/-! `Obligations.GateRegisters` -/

theorem witness_GateRegisters_1 :
    up.goesKeyed svc RegId.gateDefmap 3 (4660 : Word) (~~~(4660 : Word)) = true := by
  decide +kernel

theorem witness_GateRegisters_2 :
    serving.goesKeyed svc RegId.gateDbgUnlock 0 (1 : Word) (~~~(1 : Word)) = true ∧ (serving.mode = Mode.service ∨ BitVec.toNat (1 : Word) % 2 =
      0) := by
  decide +kernel

theorem witness_GateRegisters_3 :
    up.goesKeyed svc RegId.gateDbgUnlock 0 (1 : Word) (~~~(1 : Word)) = true ∧ up.mode ≠ Mode.service ∧ BitVec.toNat (1 : Word) % 2 = 1 := by
  decide +kernel

theorem witness_GateRegisters_4 :
    up.goesWrite svc RegId.gateBarrier 0 (1 : Word) = true := by
  decide +kernel

theorem witness_GateRegisters_5 :
    up.works = true := by
  decide +kernel

/-! `Obligations.ManagementQueue` -/

theorem witness_ManagementQueue_1 :
    mgtUp.goesWrite plainAcc RegId.mgtDb 0 (3 : Word) = true ∧ accPriv plainAcc = false := by
  decide +kernel

theorem witness_ManagementQueue_2 :
    mgtUp.goesWrite svc RegId.mgtDb 0 (16 : Word) = true ∧ accPriv svc = true ∧ 2 ^ mgtUp.f Fld.mgtQCfg_size ≤ BitVec.toNat (16 : Word) % 2 ^ 16 := by
  decide +kernel

theorem witness_ManagementQueue_3 :
    mgtUp.goesWrite svc RegId.mgtDb 0 (0 : Word) = true ∧ accPriv svc = true ∧ BitVec.toNat (0 : Word) % 2 ^ 16 < 2 ^ mgtUp.f Fld.mgtQCfg_size ∧
      (mgtUp.mgt.st ≠ MgtSt.run ∨ mgtUp.mgt.fetching = true ∨ mgtUp.mgt.cmd ≠ none ∨ mgtUp.mgt.head = BitVec.toNat (0 : Word) % 2 ^ 16) := by
  decide +kernel

theorem witness_ManagementQueue_4 :
    mgtUp.goesWrite svc RegId.mgtDb 0 (3 : Word) = true ∧ accPriv svc = true ∧ BitVec.toNat (3 : Word) % 2 ^ 16 < 2 ^ mgtUp.f Fld.mgtQCfg_size ∧
      mgtUp.mgt.st = MgtSt.run ∧ mgtUp.mgt.fetching = false ∧ mgtUp.mgt.cmd = none ∧ mgtUp.mgt.head ≠ BitVec.toNat (3 : Word) % 2 ^ 16 ∧
      mgtUp.takeRoom (3 * mgtUp.mgtVc + 2) 1 = some grantedM ∧ mgtUp.canRead mgtUp.mgtLink mgtUp.mgtIdent (mgtUp.mgtSlot mgtUp.mgt.head) 64 := by
  refine ⟨by decide +kernel, by decide +kernel, by decide +kernel, by decide +kernel, ?_⟩
  refine ⟨by decide +kernel, by decide +kernel, by decide +kernel, by decide +kernel, ?_⟩
  unfold State.canRead; decide +kernel

theorem witness_ManagementQueue_5 :
    accPriv svc = true ∧ mgtOff.goesWrite svc RegId.mgtQCfg 0 (setBits 31 31 1 (2151677956 : Word)) = true ∧ mgtOff.fb Fld.mgtQCfg_en = false ∧
      mgtOff.mgt.st = MgtSt.off ∧ mgtOff.f Fld.mgtDb_tail = 0 := by
  decide +kernel

theorem witness_ManagementQueue_6 :
    accPriv svc = true ∧ mgtFaulted.goesWrite svc RegId.mgtCtl 0 (setBits 0 0 1 (1 : Word)) = true ∧ mgtFaulted.mgt.st = MgtSt.fault ∧
      mgtFaulted.mgt.heldRes = [] ∧ mgtFaulted.mgt.head = mgtFaulted.f Fld.mgtDb_tail := by
  decide +kernel

/-! `Obligations.InstanceCommands` -/

theorem witness_InstancesAreCreatedAndChanged_1 :
    (mgtHas poolState createCmd).mgtReady 1 9 createCmd ∧ (mgtHas poolState createCmd).createCheck 9 createCmd = none ∧ listBytes createCmd = 0 ∧
      (mgtHas poolState createCmd).mgt.list = [] ∧ (mgtHas poolState createCmd).mgt.listOut = false ∧ (mgtHas poolState createCmd).mgt.listErr = 0 ∧
      (mgtHas poolState createCmd).createQuota createCmd = some quota9 ∧ (mgtHas poolState createCmd).poolLacks (fun _ => 0) quota9 127 = none := by
  refine ⟨by unfold State.mgtReady; decide +kernel, by decide +kernel, by decide +kernel, by decide +kernel, ?_⟩
  refine ⟨by decide +kernel, by decide +kernel, by decide +kernel, ?_⟩
  decide +kernel

theorem witness_InstancesAreCreatedAndChanged_2 :
    (mgtHas poolState dupCmd).mgtReady 1 9 dupCmd ∧ (mgtHas poolState dupCmd).createCheck 9 dupCmd = some (4, 0) := by
  refine ⟨by unfold State.mgtReady; decide +kernel, ?_⟩
  decide +kernel

theorem witness_InstancesAreCreatedAndChanged_3 :
    (mgtHas poolState resizeCmd).mgtReady 2 5 resizeCmd ∧ (mgtHas poolState resizeCmd).resizeCheck 5 resizeCmd = none ∧ (mgtHas poolState
      resizeCmd).evOn 5 7 = false := by
  refine ⟨by unfold State.mgtReady; decide +kernel, by decide +kernel, ?_⟩
  decide +kernel

theorem witness_InstancesAreCreatedAndChanged_4 :
    (mgtHas poolState (assignCmd 0 60)).mgtReady 5 5 (assignCmd 0 60) ∧ (mgtHas poolState (assignCmd 0 60)).assignCheck 5 (assignCmd 0 60) = none
      ∧ { kind := 0, first := 60, count := 2 } = rangeOf (slice 8 8 (assignCmd 0 60)) ∧ (mgtHas poolState (assignCmd 0 60)).evOn 5 7 = false := by
  refine ⟨by unfold State.mgtReady; decide +kernel, by decide +kernel, by decide +kernel, ?_⟩
  decide +kernel

theorem witness_InstancesAreCreatedAndChanged_5 :
    (mgtHas poolState (assignCmd 1 60)).mgtReady 5 5 (assignCmd 1 60) ∧ (mgtHas poolState (assignCmd 1 60)).assignCheck 5 (assignCmd 1 60) = none
      ∧ { kind := 1, first := 60, count := 2 } = rangeOf (slice 8 8 (assignCmd 1 60)) ∧ (mgtHas poolState (assignCmd 1 60)).evOn 5 7 = false := by
  refine ⟨by unfold State.mgtReady; decide +kernel, by decide +kernel, by decide +kernel, ?_⟩
  decide +kernel

theorem witness_InstancesAreCreatedAndChanged_6 :
    (mgtHas poolState (assignCmd 2 60)).mgtReady 5 5 (assignCmd 2 60) ∧ (mgtHas poolState (assignCmd 2 60)).assignCheck 5 (assignCmd 2 60) = none
      ∧ { kind := 2, first := 60, count := 2 } = rangeOf (slice 8 8 (assignCmd 2 60)) ∧ (mgtHas poolState (assignCmd 2 60)).evOn 5 7 = false := by
  refine ⟨by unfold State.mgtReady; decide +kernel, by decide +kernel, by decide +kernel, ?_⟩
  decide +kernel

theorem witness_InstancesAreCreatedAndChanged_7 :
    (mgtHas poolState (releaseCmd 0 44)).mgtReady 6 5 (releaseCmd 0 44) ∧ (mgtHas poolState (releaseCmd 0 44)).releaseCheck 5 (releaseCmd 0 44) =
      none ∧ { kind := 0, first := 44, count := 2 } = rangeOf (slice 8 8 (releaseCmd 0 44)) ∧ (mgtHas poolState (releaseCmd 0 44)).evOn 5 7 = false := by
  refine ⟨by unfold State.mgtReady; decide +kernel, by decide +kernel, by decide +kernel, ?_⟩
  decide +kernel

theorem witness_InstancesAreCreatedAndChanged_8 :
    (mgtHas poolState (releaseCmd 2 3)).mgtReady 6 5 (releaseCmd 2 3) ∧ (mgtHas poolState (releaseCmd 2 3)).releaseCheck 5 (releaseCmd 2 3) = none
      ∧ { kind := 2, first := 3, count := 2 } = rangeOf (slice 8 8 (releaseCmd 2 3)) ∧ (mgtHas poolState (releaseCmd 2 3)).evOn 5 7 = false := by
  refine ⟨by unfold State.mgtReady; decide +kernel, by decide +kernel, by decide +kernel, ?_⟩
  decide +kernel

theorem witness_InstanceResets_1 :
    (mgtHas (busyInst InstSt.active) (resetCmd 0)).mgtReady 3 5 (resetCmd 0) ∧ (mgtHas (busyInst InstSt.active) (resetCmd 0)).resetCheck 5
      (resetCmd 0) = none ∧ bit 31 (fieldAt 4 4 (resetCmd 0)) = false ∧ (mgtHas (busyInst InstSt.active) (resetCmd 0)).evOn 5 7 = false ∧ (∀ l < 2,
      ∀ x ∈ ((mgtHas (busyInst InstSt.active) (resetCmd 0)).link l).held, foundInst x.found ≠ some 5) := by
  refine ⟨by unfold State.mgtReady; decide +kernel, by decide +kernel, by decide +kernel, by decide +kernel, ?_⟩
  decide +kernel

theorem witness_InstanceResets_2 :
    (mgtHas (busyInst InstSt.active) (resetCmd 1)).mgtReady 3 5 (resetCmd 1) ∧ (mgtHas (busyInst InstSt.active) (resetCmd 1)).resetCheck 5
      (resetCmd 1) = none ∧ bit 31 (fieldAt 4 4 (resetCmd 1)) = true := by
  refine ⟨by unfold State.mgtReady; decide +kernel, by decide +kernel, ?_⟩
  decide +kernel

theorem witness_InstanceResets_2b :
    (mgtHas (busyInst InstSt.drain) (resetCmd 1)).mgtReady 3 5 (resetCmd 1) ∧ (mgtHas (busyInst InstSt.drain) (resetCmd 1)).resetCheck 5 (resetCmd
      1) = none ∧ bit 31 (fieldAt 4 4 (resetCmd 1)) = true := by
  refine ⟨by unfold State.mgtReady; decide +kernel, by decide +kernel, ?_⟩
  decide +kernel

theorem witness_InstanceResets_3 :
    (mgtHas (busyInst InstSt.active) destroyCmd).mgtReady 4 5 destroyCmd ∧ badCmd [(4, fieldAt 4 52 destroyCmd != 0)] = none ∧ ((mgtHas (busyInst
      InstSt.active) destroyCmd).inst 5).st = InstSt.active := by
  refine ⟨by unfold State.mgtReady; decide +kernel, by decide +kernel, ?_⟩
  decide +kernel

theorem witness_InstanceResets_4 :
    (busyInst InstSt.drain).works = true ∧ ((busyInst InstSt.drain).inst 5).st = InstSt.drain := by
  decide +kernel

theorem witness_InstanceResets_5 :
    (busyInst InstSt.active).works = true ∧ ((busyInst InstSt.active).inst 5).st ≠ InstSt.drain := by
  decide +kernel

theorem witness_InstanceResets_6 :
    (overInst false).works = true ∧ (((overInst false).inst 5).st = InstSt.drain ∨ ((overInst false).inst 5).st = InstSt.squash) ∧ (∀ p ∈
      (overInst false).jnl.entries, p.2.inst ≠ 5) ∧ (overInst false).locksOf 5 = [] ∧ (overInst false).mbox 5 = none ∧ (∀ c ∈ (overInst false).ctxs,
      c.2.inst ≠ 5) ∧ ((overInst false).inst 5).owed = [(2, true)] ∧ (overInst false).mgt.st ≠ MgtSt.fault ∧ (overInst false).mgt.heldRes = [] ∧
      (overInst false).judge (gTlink (overInst false).mgtLink) (overInst false).mgtIdent ((overInst false).mgtSlot 2 + 56) ((overInst false).mgtSlot
      2 + 63) false true = Verdict.ok := by
  decide +kernel

theorem witness_InstanceResets_7 :
    (overInst true).works = true ∧ (((overInst true).inst 5).st = InstSt.drain ∨ ((overInst true).inst 5).st = InstSt.squash) ∧ (∀ p ∈ (overInst
      true).jnl.entries, p.2.inst ≠ 5) ∧ (overInst true).locksOf 5 = [] ∧ (overInst true).mbox 5 = none ∧ (∀ c ∈ (overInst true).ctxs, c.2.inst ≠ 5)
      ∧ ((overInst true).inst 5).owed = [(2, true)] ∧ (overInst true).mgt.st ≠ MgtSt.fault ∧ (overInst true).mgt.heldRes = [] ∧ (overInst
      true).judge (gTlink (overInst true).mgtLink) (overInst true).mgtIdent ((overInst true).mgtSlot 2 + 56) ((overInst true).mgtSlot 2 + 63) false
      true = Verdict.ok := by
  decide +kernel

/-! `Obligations.SlicesStartAndPrepare` -/

theorem witness_SlicesStart_1 :
    (bstOn [(2, subUntested)]).mode = Mode.run ∧ (bstOn [(2, subUntested)]).phase = Phase.steady ∧ (bstOn [(2, subUntested)]).fb Fld.bstCfg_en =
      true ∧ (bstOn [(2, subUntested)]).pwr.droop = false ∧ (bstOn [(2, subUntested)]).fb Fld.bstCfg_eng_en = false ∧ (bstOn [(2,
      subUntested)]).bst.mem.st = SliceSt.idle ∧ (((bstOn [(2, subUntested)]).againTarget SliceKind.mem).orElse fun _ => ((bstOn [(2,
      subUntested)]).untestedSpare SliceKind.mem).orElse fun _ => (bstOn [(2, subUntested)]).outOfTurn SliceKind.mem) = some 2 ∧ ((bstOn [(2,
      subUntested)]).sub 2).role = SubRole.spare := by
  decide +kernel

theorem witness_SlicesStart_2 :
    (bstOn [(2, subTired), (7, subSpare)]).mode = Mode.run ∧ (bstOn [(2, subTired), (7, subSpare)]).phase = Phase.steady ∧ (bstOn [(2, subTired),
      (7, subSpare)]).fb Fld.bstCfg_en = true ∧ (bstOn [(2, subTired), (7, subSpare)]).pwr.droop = false ∧ (bstOn [(2, subTired), (7, subSpare)]).fb
      Fld.bstCfg_eng_en = false ∧ (bstOn [(2, subTired), (7, subSpare)]).bst.mem.st = SliceSt.idle ∧ (((bstOn [(2, subTired), (7,
      subSpare)]).againTarget SliceKind.mem).orElse fun _ => ((bstOn [(2, subTired), (7, subSpare)]).untestedSpare SliceKind.mem).orElse fun _ =>
      (bstOn [(2, subTired), (7, subSpare)]).outOfTurn SliceKind.mem) = some 2 ∧ ((bstOn [(2, subTired), (7, subSpare)]).sub 2).role ≠ SubRole.spare
      ∧ (bstOn [(2, subTired), (7, subSpare)]).spareSub = some 7 := by
  decide +kernel

theorem witness_SlicesStart_3 :
    (bstOn [(2, subTired)]).mode = Mode.run ∧ (bstOn [(2, subTired)]).phase = Phase.steady ∧ (bstOn [(2, subTired)]).fb Fld.bstCfg_en = true ∧
      (bstOn [(2, subTired)]).pwr.droop = false ∧ (bstOn [(2, subTired)]).fb Fld.bstCfg_eng_en = false ∧ (bstOn [(2, subTired)]).bst.mem.st =
      SliceSt.idle ∧ (((bstOn [(2, subTired)]).againTarget SliceKind.mem).orElse fun _ => ((bstOn [(2, subTired)]).untestedSpare
      SliceKind.mem).orElse fun _ => (bstOn [(2, subTired)]).outOfTurn SliceKind.mem) = some 2 ∧ ((bstOn [(2, subTired)]).sub 2).role ≠
      SubRole.spare ∧ (bstOn [(2, subTired)]).spareSub = none ∧ (bstOn [(2, subTired)]).mute 451 = true := by
  decide +kernel

theorem witness_SlicesStart_4 :
    (bstOn [(2, subFresh), (7, subSpare)]).mode = Mode.run ∧ (bstOn [(2, subFresh), (7, subSpare)]).phase = Phase.steady ∧ (bstOn [(2, subFresh),
      (7, subSpare)]).fb Fld.bstCfg_en = true ∧ (bstOn [(2, subFresh), (7, subSpare)]).pwr.droop = false ∧ (bstOn [(2, subFresh), (7, subSpare)]).fb
      Fld.bstCfg_eng_en = false ∧ (bstOn [(2, subFresh), (7, subSpare)]).bst.mem.st = SliceSt.idle ∧ (((bstOn [(2, subFresh), (7,
      subSpare)]).againTarget SliceKind.mem).orElse fun _ => ((bstOn [(2, subFresh), (7, subSpare)]).untestedSpare SliceKind.mem).orElse fun _ =>
      (bstOn [(2, subFresh), (7, subSpare)]).outOfTurn SliceKind.mem) = none ∧ (bstOn [(2, subFresh), (7, subSpare)]).nextTarget SliceKind.mem =
      some 2 ∧ (∀ (l : ℕ), (bstOn [(2, subFresh), (7, subSpare)]).bst.mem.last4 = some l → l < 2) ∧ ((bstOn [(2, subFresh), (7, subSpare)]).sub
      2).role ≠ SubRole.spare ∧ (bstOn [(2, subFresh), (7, subSpare)]).spareSub = some 7 := by
  decide +kernel

theorem witness_SlicesStart_5 :
    engStart.mode = Mode.run ∧ engStart.phase = Phase.steady ∧ engStart.fb Fld.bstCfg_en = true ∧ engStart.pwr.droop = false ∧ engStart.bst.mem.st
      ≠ SliceSt.idle ∧ engStart.fb Fld.bstCfg_eng_en = true ∧ (engStart.bst.periods + 1) % engStart.f Fld.bstCfg_eng_div = 0 ∧ engStart.bst.eng.st =
      SliceSt.idle ∧ ((engStart.againTarget SliceKind.eng).orElse fun _ => engStart.untestedSpare SliceKind.eng) = some 4 ∧ (engStart.eng 4).role =
      EngRole.active ∧ engStart.spareEng = some 5 ∧ 5 ≠ 4 := by
  decide +kernel

theorem witness_SlicesStart_7 :
    droopRun.pwr.droop = true ∧ droopRun.mode = Mode.run ∧ droopRun.phase = Phase.steady ∧ droopRun.fb Fld.bstCfg_en = true := by
  decide +kernel

theorem witness_SlicesStart_8 :
    droopServing.pwr.droop = true ∧ (droopServing.mode ≠ Mode.run ∨ droopServing.phase ≠ Phase.steady ∨ droopServing.fb Fld.bstCfg_en = false) := by
  decide +kernel

theorem witness_SlicesStart_9 :
    startDue.pwr.droop = false ∧ startDue.bst.startDue = true := by
  decide +kernel

theorem witness_SlicesStart_6 :
    serving.pwr.droop = false ∧ (serving.mode ≠ Mode.run ∨ serving.phase ≠ Phase.steady ∨ serving.fb Fld.bstCfg_en = false) := by
  decide +kernel

theorem witness_SlicesArePrepared_1 :
    (sliceAt SliceSt.prepare 2 0 SliceRes.pass [(2, subSpare)]).works = true ∧ (sliceAt SliceSt.prepare 2 0 SliceRes.pass [(2,
      subSpare)]).bst.mem.st = SliceSt.prepare ∧ (sliceAt SliceSt.prepare 2 0 SliceRes.pass [(2, subSpare)]).bst.mem.target = 2 ∧ (sliceAt
      SliceSt.prepare 2 0 SliceRes.pass [(2, subSpare)]).bst.mem.standin = 0 ∧ (sliceAt SliceSt.prepare 2 0 SliceRes.pass [(2,
      subSpare)]).bst.mem.cut = false ∧ ((sliceAt SliceSt.prepare 2 0 SliceRes.pass [(2, subSpare)]).sub 2).role = SubRole.spare := by
  decide +kernel

theorem witness_SlicesArePrepared_2 :
    (sliceAt SliceSt.prepare 2 7 SliceRes.pass [(2, subJ), (7, subSpare)]).works = true ∧ (sliceAt SliceSt.prepare 2 7 SliceRes.pass [(2, subJ),
      (7, subSpare)]).bst.mem.st = SliceSt.prepare ∧ (sliceAt SliceSt.prepare 2 7 SliceRes.pass [(2, subJ), (7, subSpare)]).bst.mem.target = 2 ∧
      (sliceAt SliceSt.prepare 2 7 SliceRes.pass [(2, subJ), (7, subSpare)]).bst.mem.standin = 7 ∧ (sliceAt SliceSt.prepare 2 7 SliceRes.pass [(2,
      subJ), (7, subSpare)]).bst.mem.cut = false ∧ ((sliceAt SliceSt.prepare 2 7 SliceRes.pass [(2, subJ), (7, subSpare)]).sub 2).role ≠
      SubRole.spare ∧ 7 ≠ 2 := by
  decide +kernel

theorem witness_SlicesArePrepared_3 :
    (sliceAt SliceSt.prepare 2 7 SliceRes.pass [(2, subJ), (7, subSpare)]).works = true ∧ (sliceAt SliceSt.prepare 2 7 SliceRes.pass [(2, subJ),
      (7, subSpare)]).bst.mem.st = SliceSt.prepare ∧ (sliceAt SliceSt.prepare 2 7 SliceRes.pass [(2, subJ), (7, subSpare)]).bst.mem.target = 2 ∧
      (sliceAt SliceSt.prepare 2 7 SliceRes.pass [(2, subJ), (7, subSpare)]).bst.mem.standin = 7 ∧ ((sliceAt SliceSt.prepare 2 7 SliceRes.pass [(2,
      subJ), (7, subSpare)]).sub 2).role ≠ SubRole.spare := by
  decide +kernel

theorem witness_SlicesArePrepared_4 :
    (sliceAt SliceSt.prepare 2 7 SliceRes.pass [(2, subJ), (7, subSpare)]).works = true ∧ (sliceAt SliceSt.prepare 2 7 SliceRes.pass [(2, subJ),
      (7, subSpare)]).bst.mem.st = SliceSt.prepare ∧ (sliceAt SliceSt.prepare 2 7 SliceRes.pass [(2, subJ), (7, subSpare)]).bst.mem.target = 2 ∧
      (sliceAt SliceSt.prepare 2 7 SliceRes.pass [(2, subJ), (7, subSpare)]).bst.mem.standin = 7 ∧ (sliceAt SliceSt.prepare 2 7 SliceRes.pass [(2,
      subJ), (7, subSpare)]).bst.mem.cut = false ∧ ((sliceAt SliceSt.prepare 2 7 SliceRes.pass [(2, subJ), (7, subSpare)]).sub 2).role ≠
      SubRole.spare ∧ (7 : Fin 1056) ≠ (2 : Fin 1056) := by
  decide +kernel

theorem witness_SlicesArePrepared_5 :
    (engSlice SliceSt.prepare SliceRes.pass).works = true ∧ (engSlice SliceSt.prepare SliceRes.pass).bst.eng.st = SliceSt.prepare ∧ (engSlice
      SliceSt.prepare SliceRes.pass).bst.eng.cut = false ∧ (engSlice SliceSt.prepare SliceRes.pass).ctxsOf (engSlice SliceSt.prepare
      SliceRes.pass).bst.eng.target = [] := by
  decide +kernel

/-! `Obligations.SlicesAreJudgedAndRestored` -/

theorem witness_SlicesAreJudged_1 :
    (sliceAt SliceSt.test 2 7 SliceRes.pass [(2, subSpare)]).works = true ∧ (sliceAt SliceSt.test 2 7 SliceRes.pass [(2, subSpare)]).bst.mem.st =
      SliceSt.test ∧ goodRes.misr = goodRes.expected ∧ goodRes.cells = [] := by
  decide +kernel

theorem witness_SlicesAreJudged_2 :
    (sliceAt SliceSt.test 2 7 SliceRes.pass [(2, subSpare)]).works = true ∧ (sliceAt SliceSt.test 2 7 SliceRes.pass [(2, subSpare)]).bst.mem.st =
      SliceSt.test ∧ (badRes.misr ≠ badRes.expected ∨ badRes.cells ≠ []) ∧ (sliceAt SliceSt.test 2 7 SliceRes.pass [(2, subSpare)]).mute 448 = true := by
  decide +kernel

theorem witness_SlicesAreJudged_3 :
    (sliceAt SliceSt.test 2 7 SliceRes.pass [(2, subSpare)]).works = true ∧ (sliceAt SliceSt.test 2 7 SliceRes.pass [(2, subSpare)]).bst.mem.st =
      SliceSt.test ∧ (sliceAt SliceSt.test 2 7 SliceRes.pass [(2, subSpare)]).bst.mem.incRun < 2 := by
  decide +kernel

theorem witness_SlicesAreJudged_4 :
    (engSlice SliceSt.test SliceRes.pass).works = true ∧ (engSlice SliceSt.test SliceRes.pass).bst.eng.st = SliceSt.test ∧ goodRes.misr =
      goodRes.expected := by
  decide +kernel

theorem witness_SlicesAreJudged_5 :
    (engSlice SliceSt.test SliceRes.pass).works = true ∧ (engSlice SliceSt.test SliceRes.pass).bst.eng.st = SliceSt.test ∧ badRes.misr ≠
      badRes.expected ∧ (engSlice SliceSt.test SliceRes.pass).mute 449 = true := by
  decide +kernel

theorem witness_SlicesAreJudged_6 :
    (engSlice SliceSt.test SliceRes.pass).works = true ∧ (engSlice SliceSt.test SliceRes.pass).bst.eng.st = SliceSt.test ∧ (engSlice SliceSt.test
      SliceRes.pass).bst.eng.incRun < 2 := by
  decide +kernel

theorem witness_SlicesAreRestored_1 :
    (sliceAt SliceSt.restore 2 7 SliceRes.pass [(2, subSpare)]).works = true ∧ (sliceAt SliceSt.restore 2 7 SliceRes.pass [(2, subSpare)]).mode ≠
      Mode.service ∧ (sliceAt SliceSt.restore 2 7 SliceRes.pass [(2, subSpare)]).bst.mem.st = SliceSt.restore ∧ (sliceAt SliceSt.restore 2 7
      SliceRes.pass [(2, subSpare)]).bst.mem.target = 2 ∧ (sliceAt SliceSt.restore 2 7 SliceRes.pass [(2, subSpare)]).bst.fg = false := by
  decide +kernel

theorem witness_SlicesAreRestored_1b :
    failedCells.works = true ∧ failedCells.mode ≠ Mode.service ∧ failedCells.bst.mem.st = SliceSt.restore ∧ failedCells.bst.mem.target = 2 ∧
      failedCells.bst.fg = false := by
  decide +kernel

theorem witness_SlicesAreRestored_2 :
    (engSlice SliceSt.restore SliceRes.pass).works = true ∧ (engSlice SliceSt.restore SliceRes.pass).mode ≠ Mode.service ∧ (engSlice
      SliceSt.restore SliceRes.pass).bst.eng.st = SliceSt.restore ∧ (engSlice SliceSt.restore SliceRes.pass).bst.eng.target = 4 ∧ (engSlice
      SliceSt.restore SliceRes.pass).bst.fg = false := by
  decide +kernel

theorem witness_SlicesAreRestored_2b :
    (engSlice SliceSt.restore SliceRes.fail).works = true ∧ (engSlice SliceSt.restore SliceRes.fail).mode ≠ Mode.service ∧ (engSlice
      SliceSt.restore SliceRes.fail).bst.eng.st = SliceSt.restore ∧ (engSlice SliceSt.restore SliceRes.fail).bst.eng.target = 4 ∧ (engSlice
      SliceSt.restore SliceRes.fail).bst.fg = false := by
  decide +kernel

/-! `Obligations.SelfTestAndExercise` -/

theorem witness_SelfTestCommands_1 :
    (bstOn [(2, subSpare)]).goesWrite svc RegId.bstCmd 0 (setBits 31 30 3 (2 : Word)) = true ∧ 2 = BitVec.toNat (2 : Word) % 2048 ∧ bit 11
      (BitVec.toNat (2 : Word)) = false ∧ ((bstOn [(2, subSpare)]).mode = Mode.run ∨ (bstOn [(2, subSpare)]).mode = Mode.service) ∧ (bstOn [(2,
      subSpare)]).bst.mem.st = SliceSt.idle ∧ 2 < 1056 ∧ ((bstOn [(2, subSpare)]).sub 2).role = SubRole.spare := by
  decide +kernel

theorem witness_SelfTestCommands_2 :
    (bstOn [(2, subSpare)]).goesWrite svc RegId.bstCmd 0 (setBits 31 30 3 (3 : Word)) = true ∧ ((bstOn [(2, subSpare)]).mode ≠ Mode.run ∧ (bstOn
      [(2, subSpare)]).mode ≠ Mode.service ∨ ((bstOn [(2, subSpare)]).sliceOf (if bit 11 (BitVec.toNat (3 : Word)) = true then SliceKind.eng else
      SliceKind.mem)).st ≠ SliceSt.idle ∨ (bstOn [(2, subSpare)]).canTest (if bit 11 (BitVec.toNat (3 : Word)) = true then SliceKind.eng else
      SliceKind.mem) (BitVec.toNat (3 : Word) % 2048) = false) := by
  decide +kernel

theorem witness_SelfTestCommands_3 :
    fgReady.goesWrite svc RegId.bstCmd 0 (setBits 31 30 1 (0 : Word)) = true ∧ fgReady.mode = Mode.service ∧ fgReady.bst.mem.st = SliceSt.idle ∧
      fgReady.bst.eng.st = SliceSt.idle ∧ (∀ m < 2, fgReady.canTest SliceKind.mem m = false) ∧ 2 < 1056 ∧ (fgReady.sub 2).role = SubRole.spare ∧ (∀
      m < 1, fgReady.canTest SliceKind.eng m = false) ∧ 1 < 104 ∧ (fgReady.eng 1).role = EngRole.spare := by
  decide +kernel

theorem witness_SelfTestCommands_7 :
    fgBusy.goesWrite svc RegId.bstCmd 0 (setBits 31 30 1 (0 : Word)) = true ∧ fgBusy.mode = Mode.service ∧ fgBusy.bst.mem.st ≠ SliceSt.idle ∧
      fgBusy.bst.eng.st ≠ SliceSt.idle := by
  decide +kernel

theorem witness_SelfTestCommands_4 :
    up.goesWrite svc RegId.bstCmd 0 (setBits 31 30 1 (0 : Word)) = true ∧ up.mode ≠ Mode.service := by
  decide +kernel

theorem witness_SelfTestCommands_5 :
    fgRuns.goesWrite svc RegId.bstCmd 0 (setBits 31 30 2 (0 : Word)) = true ∧ fgRuns.bst.fg = true ∧ fgRuns.pwr.runAfterFg = false ∧
      fgRuns.bst.mem.st ≠ SliceSt.test ∧ fgRuns.bst.eng.st ≠ SliceSt.test := by
  decide +kernel

theorem witness_SelfTestCommands_6 :
    up.goesWrite svc RegId.bstCmd 0 (setBits 31 30 2 (0 : Word)) = true ∧ up.bst.fg = false := by
  decide +kernel

/-! `Obligations.FuseAndSvnCommands` -/

theorem witness_FuseCommands_1 :
    up.bst.burn = none ∧ up.goesKeyed svc RegId.bstFuseCmd 0 (setBits 9 8 1 (0 : Word)) (setBits 9 8 2 (~~~(0 : Word))) = true ∧ up.mode ≠
      Mode.service := by
  decide +kernel

theorem witness_FuseCommands_2 :
    (fuseState 0).bst.burn = none ∧ (fuseState 0).goesKeyed svc RegId.bstFuseCmd 0 (setBits 9 8 1 (0 : Word)) (setBits 9 8 2 (~~~(0 : Word))) =
      true ∧ (fuseState 0).mode = Mode.service ∧ (fuseState 0).freeNext % 2 = 0 := by
  decide +kernel

theorem witness_FuseCommands_3 :
    (fuseState 1).bst.burn = none ∧ (fuseState 1).goesKeyed svc RegId.bstFuseCmd 0 (setBits 9 8 1 (0 : Word)) (setBits 9 8 2 (~~~(0 : Word))) =
      true ∧ (fuseState 1).mode = Mode.service ∧ (fuseState 1).freeNext % 2 = 1 ∧ [aRepair] = List.filter (fun r ↦ !(fuseState 1).bst.fuses.contains
      r) ((fuseState 1).bst.soft ++ (fuseState 1).bst.pendingRec) ∧ [aRepair] ≠ [] ∧ (fuseState 1).bst.fuses.length < 1024 := by
  decide +kernel

theorem witness_FuseCommands_4 :
    (fuseState 1).bst.burn = none ∧ (fuseState 1).goesKeyed svc RegId.bstFuseCmd 0 (setBits 9 8 2 (7 : Word)) (setBits 9 8 1 (~~~(7 : Word))) =
      true ∧ (fuseState 1).mode = Mode.service ∧ (fuseState 1).freeNext % 2 = 1 ∧ (fuseState 1).bst.fuses.length < 1024 := by
  decide +kernel

theorem witness_FuseCommands_7 :
    (up.mode ≠ Mode.service ∨ up.bst.burn = none) := by
  decide +kernel

theorem witness_FuseCommands_5 :
    (burning []).bst.burn = some [aRepair] ∧ (burning []).pwr.runAfterFg = false ∧ (burning []).mode = Mode.service := by
  decide +kernel

theorem witness_FuseCommands_6 :
    (burning [aRepair]).bst.burn = some [aRepair, aRepair] ∧ (burning [aRepair]).pwr.runAfterFg = false ∧ (burning [aRepair]).mode = Mode.service
      ∧ (burning [aRepair]).mute 453 = true := by
  decide +kernel

/-! `Obligations.SelfTestAndExercise` -/

theorem witness_CheckerExercise_1 :
    serving.goesKeyed svc RegId.fltChkExercise 0 (2147681537 : Word) (~~~(2147681537 : Word)) = true ∧ serving.mode = Mode.service ∧
      serving.flt.exLeft = 0 ∧ bits 12 8 (BitVec.toNat (2147681537 : Word)) ≤ 11 ∧ bits 1 0 (BitVec.toNat (2147681537 : Word)) ≤ 1 ∧ bit 31
      (BitVec.toNat (2147681537 : Word)) = true := by
  decide +kernel

theorem witness_CheckerExercise_2 :
    up.goesKeyed svc RegId.fltChkExercise 0 (2147681537 : Word) (~~~(2147681537 : Word)) = true ∧ (up.mode ≠ Mode.service ∨ up.flt.exLeft ≠ 0 ∨ 11
      < bits 12 8 (BitVec.toNat (2147681537 : Word)) ∨ 1 < bits 1 0 (BitVec.toNat (2147681537 : Word))) := by
  decide +kernel

/-! `Obligations.FlashAndSettingsCommands` -/

theorem witness_FlashCommands_1 :
    7340036 = (flashUp 7340036).f Fld.imgFlAddr_addr ∧ ((flashUp 7340036).mode = Mode.run ∨ (flashUp 7340036).mode = Mode.doze ∨ (flashUp
      7340036).mode = Mode.service) ∧ (flashUp 7340036).img.flCmd = none ∧ 7340036 < (flashUp 7340036).img.flashSize ∧ (flashUp 7340036).goesWrite
      svc RegId.imgFlCmd 0 (setBits 31 29 1 (0 : Word)) = true ∧ 7340036 % 4 = 0 := by
  decide +kernel

theorem witness_FlashCommands_2 :
    7864576 = (flashUp 7864576).f Fld.imgFlAddr_addr ∧ ((flashUp 7864576).mode = Mode.run ∨ (flashUp 7864576).mode = Mode.doze ∨ (flashUp
      7864576).mode = Mode.service) ∧ (flashUp 7864576).img.flCmd = none ∧ 7864576 < (flashUp 7864576).img.flashSize ∧ (flashUp 7864576).goesWrite
      svc RegId.imgFlCmd 0 (setBits 31 29 2 (0 : Word)) = true ∧ 7864576 % 256 = 0 ∧ (flashUp 7864576).flashGuarded 7864576 256 = false := by
  decide +kernel

theorem witness_FlashCommands_3 :
    256 = (flashUp 256).f Fld.imgFlAddr_addr ∧ ((flashUp 256).mode = Mode.run ∨ (flashUp 256).mode = Mode.doze ∨ (flashUp 256).mode =
      Mode.service) ∧ (flashUp 256).img.flCmd = none ∧ 256 < (flashUp 256).img.flashSize ∧ (flashUp 256).goesWrite svc RegId.imgFlCmd 0 (setBits 31
      29 2 (0 : Word)) = true ∧ (256 % 256 ≠ 0 ∨ (flashUp 256).flashGuarded 256 256 = true) := by
  decide +kernel

theorem witness_FlashCommands_4 :
    7868416 = (flashUp 7868416).f Fld.imgFlAddr_addr ∧ ((flashUp 7868416).mode = Mode.run ∨ (flashUp 7868416).mode = Mode.doze ∨ (flashUp
      7868416).mode = Mode.service) ∧ (flashUp 7868416).img.flCmd = none ∧ 7868416 < (flashUp 7868416).img.flashSize ∧ (flashUp 7868416).goesWrite
      svc RegId.imgFlCmd 0 (setBits 31 29 3 (0 : Word)) = true ∧ 7868416 % 4096 = 0 ∧ (flashUp 7868416).flashGuarded 7868416 4096 = false := by
  decide +kernel

theorem witness_FlashCommands_5 :
    0 = (flashUp 0).f Fld.imgFlAddr_addr ∧ ((flashUp 0).mode = Mode.run ∨ (flashUp 0).mode = Mode.doze ∨ (flashUp 0).mode = Mode.service) ∧
      (flashUp 0).img.flCmd = none ∧ (flashUp 0).goesWrite svc RegId.imgFlCmd 0 (setBits 31 29 4 (0 : Word)) = true := by
  decide +kernel

theorem witness_FlashCommands_6 :
    7340032 = (flashRuns 1 []).f Fld.imgFlAddr_addr ∧ ((flashRuns 1 []).mode = Mode.run ∨ (flashRuns 1 []).mode = Mode.doze ∨ (flashRuns 1
      []).mode = Mode.service) ∧ (flashRuns 1 []).img.flCmd ≠ none ∧ (flashRuns 1 []).goesWrite svc RegId.imgFlCmd 0 (setBits 31 29 1 (0 : Word)) =
      true := by
  decide +kernel

theorem witness_FlashCommands_7 :
    (flashRuns 1 []).img.writing = none ∧ (flashRuns 1 []).img.flCmd = some (1, 7340032, 0) ∧ 1 = 1 := by
  decide +kernel

theorem witness_FlashCommands_8 :
    (flashRuns 2 page).img.writing = none ∧ (flashRuns 2 page).img.flCmd = some (2, 7340032, 0) ∧ 2 = 2 := by
  decide +kernel

theorem witness_FlashCommands_9 :
    (flashRuns 3 []).img.writing = none ∧ (flashRuns 3 []).img.flCmd = some (3, 7340032, 0) ∧ 3 = 3 := by
  decide +kernel

theorem witness_FlashCommands_A :
    (flashRuns 1 []).img.writing = none ∧ (flashRuns 1 []).img.flCmd = some (1, 7340032, 0) ∧ 1 = 1 := by
  decide +kernel

theorem witness_SettingsArea_1 :
    up.goesKeyed svc RegId.imgBootCfg 0 (5 : Word) (~~~(5 : Word)) = true ∧ BitVec.toNat (5 : Word) % 4 < 2 := by
  decide +kernel

theorem witness_SettingsArea_2 :
    (fuseState 0).goesKeyed svc RegId.imgSetCmd 0 (setBits 1 0 1 (0 : Word)) (setBits 1 0 2 (~~~(0 : Word))) = true := by
  decide +kernel

theorem witness_SettingsArea_3 :
    up.goesKeyed svc RegId.imgSetCmd 0 (setBits 1 0 2 (0 : Word)) (setBits 1 0 1 (~~~(0 : Word))) = true := by
  decide +kernel

theorem witness_SettingsArea_4 :
    up.goesKeyed svc RegId.imgSetCmd 0 (setBits 1 0 3 (0 : Word)) (setBits 1 0 0 (~~~(0 : Word))) = true := by
  decide +kernel

theorem witness_SettingsArea_5 :
    setDue.settingsDue = true := by
  decide +kernel

theorem witness_SettingsArea_6 :
    up.settingsDue = false := by
  decide +kernel

theorem witness_SettingsArea_7 :
    setWriting.img.writing = some preferB := by
  decide +kernel

theorem witness_SettingsArea_8 :
    setWriting.img.writing = some preferB ∧ setWriting.mode ≠ Mode.reset ∧ setWriting.mute 417 = true := by
  decide +kernel

/-! `Obligations.FuseAndSvnCommands` -/

theorem witness_SvnBurn_1 :
    up.goesKeyed svc RegId.imgSvnBurn 0 (6 : Word) (~~~(6 : Word)) = true ∧ 6 = BitVec.toNat (6 : Word) % 2 ^ 8 ∧ up.img.svnBurn = none ∧ up.mode
      ≠ Mode.service := by
  decide +kernel

theorem witness_SvnBurn_2 :
    (svnState 1).goesKeyed svc RegId.imgSvnBurn 0 (6 : Word) (~~~(6 : Word)) = true ∧ 6 = BitVec.toNat (6 : Word) % 2 ^ 8 ∧ (svnState
      1).img.svnBurn = none ∧ (svnState 1).mode = Mode.service := by
  decide +kernel

theorem witness_SvnBurn_3 :
    svnRuns.img.svnBurn = some 6 ∧ svnRuns.pwr.runAfterFg = false := by
  decide +kernel

theorem witness_SvnBurn_4 :
    svnRuns.img.svnBurn = some 6 ∧ svnRuns.pwr.runAfterFg = false := by
  decide +kernel

/-! `Obligations.MemoryAndFatalErrors` -/

theorem witness_MemoryErrors_1 :
    memState.mode ≠ Mode.reset ∧ memState.jwMasked = false ∧ memState.exOn 0 = false ∧ memState.mute 192 = true := by
  decide +kernel

theorem witness_MemoryErrors_2 :
    memState.mode ≠ Mode.reset ∧ memState.jwMasked = false ∧ memState.exOn 0 = false ∧ FMap.find 5 memState.jnl.entries = none ∧ FMap.find 5
      memState.jnl.reserved = none ∧ memState.mute 193 = true := by
  decide +kernel

theorem witness_MemoryErrors_3 :
    memState.mode ≠ Mode.reset ∧ memState.exOn 1 = false ∧ memState.mute 224 = true := by
  decide +kernel

theorem witness_MemoryErrors_4 :
    memState.mode ≠ Mode.reset ∧ memState.exOn 1 = false ∧ memState.mute 226 = true := by
  decide +kernel

theorem witness_MemoryErrors_5 :
    directBusy.mode ≠ Mode.reset ∧ directBusy.exOn 1 = false ∧ directBusy.works = true ∧ directBusy.directOp 3 (directOf false) rdHdr ∧ (directOf
      false).done = false ∧ directBusy.pieceOpen 3 (directOf false) = false ∧ directBusy.muteUc := by
  refine ⟨by decide +kernel, by decide +kernel, by decide +kernel, by unfold State.directOp; decide +kernel, ?_⟩
  refine ⟨by decide +kernel, by decide +kernel, ?_⟩
  exact ⟨by decide +kernel, evOn_off (by decide +kernel)⟩

theorem witness_MemoryErrors_6 :
    memState.mode ≠ Mode.reset ∧ memState.exOn 2 = false ∧ memState.mute 98 = true := by
  decide +kernel

theorem witness_MemoryErrors_7 :
    memState.mode ≠ Mode.reset ∧ memState.exOn 2 = false ∧ memState.muteUc := by
  refine ⟨by decide +kernel, by decide +kernel, ?_⟩
  exact ⟨by decide +kernel, evOn_off (by decide +kernel)⟩

theorem witness_MemoryErrors_8 :
    memState.mode ≠ Mode.reset ∧ memState.exOn 3 = false ∧ memState.mute 352 = true := by
  decide +kernel

theorem witness_MemoryErrors_9 :
    memState.mode ≠ Mode.reset ∧ memState.exOn 3 = false ∧ memState.muteUc := by
  refine ⟨by decide +kernel, by decide +kernel, ?_⟩
  exact ⟨by decide +kernel, evOn_off (by decide +kernel)⟩

theorem witness_FatalErrorsHalt_1 :
    up.mode ≠ Mode.reset ∧ up.mode ≠ Mode.halt ∧ up.fb Fld.fltHalt_valid = false ∧ (Instr.configRegisterParityError =
      Instr.configRegisterParityError ∧ 1 = 1 ∧ up.exOn 11 = false ∨ (∃ o, Instr.configRegisterParityError = Instr.arbiterParityError o) ∧ 1 = 354 ∨
      Instr.configRegisterParityError = Instr.faultCollectorParityError ∧ 1 = 480 ∨ (∃ je w y, Instr.configRegisterParityError =
      Instr.journalWordError je w y WordErr.uncorrectable ∧ FMap.find (↑je) up.jnl.entries ≠ none) ∧ up.jwMasked = false ∧ up.exOn 0 = false ∧ 1 =
      194) := by
  decide +kernel

theorem witness_FatalErrorsHalt_2 :
    up.mode ≠ Mode.reset ∧ up.mode ≠ Mode.halt ∧ up.fb Fld.fltHalt_valid = false ∧ (Instr.arbiterParityError (3 : Fin 24) =
      Instr.configRegisterParityError ∧ 354 = 1 ∧ up.exOn 11 = false ∨ (∃ o, Instr.arbiterParityError (3 : Fin 24) = Instr.arbiterParityError o) ∧
      354 = 354 ∨ Instr.arbiterParityError (3 : Fin 24) = Instr.faultCollectorParityError ∧ 354 = 480 ∨ (∃ je w y, Instr.arbiterParityError (3 : Fin
      24) = Instr.journalWordError je w y WordErr.uncorrectable ∧ FMap.find (↑je) up.jnl.entries ≠ none) ∧ up.jwMasked = false ∧ up.exOn 0 = false ∧
      354 = 194) := by
  decide +kernel

theorem witness_FatalErrorsHalt_3 :
    up.mode ≠ Mode.reset ∧ up.mode ≠ Mode.halt ∧ up.fb Fld.fltHalt_valid = false ∧ (Instr.faultCollectorParityError =
      Instr.configRegisterParityError ∧ 480 = 1 ∧ up.exOn 11 = false ∨ (∃ o, Instr.faultCollectorParityError = Instr.arbiterParityError o) ∧ 480 =
      354 ∨ Instr.faultCollectorParityError = Instr.faultCollectorParityError ∧ 480 = 480 ∨ (∃ je w y, Instr.faultCollectorParityError =
      Instr.journalWordError je w y WordErr.uncorrectable ∧ FMap.find (↑je) up.jnl.entries ≠ none) ∧ up.jwMasked = false ∧ up.exOn 0 = false ∧ 480 =
      194) := by
  decide +kernel

theorem witness_FatalErrorsHalt_4 :
    jeLive.mode ≠ Mode.reset ∧ jeLive.mode ≠ Mode.halt ∧ jeLive.fb Fld.fltHalt_valid = false ∧ (Instr.journalWordError (5 : Fin 4194304) (1 : Fin
      3) (9 : Byte) WordErr.uncorrectable = Instr.configRegisterParityError ∧ 194 = 1 ∧ jeLive.exOn 11 = false ∨ (∃ o, Instr.journalWordError (5 :
      Fin 4194304) (1 : Fin 3) (9 : Byte) WordErr.uncorrectable = Instr.arbiterParityError o) ∧ 194 = 354 ∨ Instr.journalWordError (5 : Fin 4194304)
      (1 : Fin 3) (9 : Byte) WordErr.uncorrectable = Instr.faultCollectorParityError ∧ 194 = 480 ∨ (∃ je w y, Instr.journalWordError (5 : Fin
      4194304) (1 : Fin 3) (9 : Byte) WordErr.uncorrectable = Instr.journalWordError je w y WordErr.uncorrectable ∧ FMap.find (↑je)
      jeLive.jnl.entries ≠ none) ∧ jeLive.jwMasked = false ∧ jeLive.exOn 0 = false ∧ 194 = 194) := by
  refine ⟨by decide +kernel, by decide +kernel, by decide +kernel, ?_⟩
  exact Or.inr (Or.inr (Or.inr ⟨⟨5, 1, 9, rfl, by decide +kernel⟩, by decide +kernel, by decide +kernel, rfl⟩))

/-! `Obligations.HubAndIssueCycles` -/

theorem witness_HubCycles_1 :
    c0Refill.mode ≠ Mode.reset ∧ c0Refill.mode ≠ Mode.halt ∧ c0Refill.mode ≠ Mode.doze ∧ c0Refill.exOn 3 = false := by
  decide +kernel

theorem witness_HubCycles_2 :
    oneXfer.mode ≠ Mode.reset ∧ oneXfer.mode ≠ Mode.halt ∧ oneXfer.mode ≠ Mode.doze ∧ oneXfer.exOn 3 = false ∧ oneXfer.hub.xfers = [xfer1] ∧
      xfer1.out < 24 ∧ xfer1.inp < 26 ∧ xfer1.cls < 4 ∧ xfer1.sent ≤ xfer1.got ∧ xfer1.got ≤ xfer1.len ∧ xfer1.sent < xfer1.len ∧ (24 ≤ xfer1.inp →
      xfer1.got = xfer1.len) ∧ oneXfer.flitMasked xfer1.flit = false ∧ (FMap.get { } xfer1.out oneXfer.hub.outs).buf = [] ∧ oneXfer.hub.jw = 0 ∧
      oneXfer.bst.mem.st ≠ SliceSt.test ∧ oneXfer.bst.eng.st ≠ SliceSt.test := by
  decide +kernel

theorem witness_HubCycles_3 :
    (dozing.mode = Mode.reset ∨ dozing.mode = Mode.halt ∨ dozing.mode = Mode.doze) := by
  decide +kernel

theorem witness_IssueCyclesAreCharged_1 :
    readyCtx.works = true ∧ readyCtx.engMasked 3 = false ∧ readyCtx.mode ≠ Mode.doze ∧ readyCtx.exOn 4 = false ∧ readyCtx.exOn 5 = false ∧
      readyCtx.exOn 6 = false ∧ List.filter (fun x => readyCtx.ctxReady x.2) (readyCtx.ctxsOf 3) = [(6, ctxAt CtxSt.ready)] := by
  decide +kernel

theorem witness_IssueCyclesAreCharged_2 :
    (engOn qpUp).works = true ∧ (engOn qpUp).engMasked 3 = false ∧ (engOn qpUp).mode ≠ Mode.doze ∧ (engOn qpUp).exOn 4 = false ∧ (engOn qpUp).exOn
      5 = false ∧ (engOn qpUp).exOn 6 = false ∧ List.filter (fun x => (engOn qpUp).ctxReady x.2) ((engOn qpUp).ctxsOf 3) = [] := by
  decide +kernel

/-! `Obligations.StepRunsTheFrontCommand` -/

theorem witness_StepRunsTheFrontCommand_1 :
    waitingQueue.pending = [Instr.hubRound, Instr.sliceStart] := by
  decide +kernel

theorem witness_StepRunsTheFrontCommand_2 :
    up.pending = [] := by
  decide +kernel

theorem witness_StepRunsTheFrontCommand_3 :
    reset.mode = Mode.reset := by
  decide +kernel

theorem witness_StepRunsTheFrontCommand_4 :
    up.mode ≠ Mode.reset ∧ up.bcsWait = [] := by
  decide +kernel

/-! `Obligations.PrsvWriteStops` -/

theorem witness_PrsvWriteStops_1 :
    up.canReach prsvReq.acc.src = true ∧ up.prsvStops prsvReq = true := by
  decide +kernel

/-! `Obligations.FaultsAreCountedAndCaptured` -/

theorem witness_FaultsAreCountedAndCaptured_1 :
    up.mode ≠ Mode.reset ∧ srcClass 224 ≠ 0 := by
  decide +kernel

theorem witness_FaultsAreCountedAndCaptured_2 :
    (tracked 224 true).mode ≠ Mode.reset ∧ srcClass 225 ≠ 0 := by
  decide +kernel

theorem witness_FaultsAreCountedAndCaptured_3 :
    (tracked 224 false).mode ≠ Mode.reset ∧ srcClass 225 ≠ 0 := by
  decide +kernel

theorem witness_FaultsAreCountedAndCaptured_4 :
    (tracked 225 true).mode ≠ Mode.reset ∧ srcClass 1 ≠ 0 := by
  decide +kernel

/-! `Obligations.PacketsRoundTrip` -/

theorem witness_PacketsRoundTrip_1 :
    (rdHdr.np = false ∧ rdHdr.poison = false ∧ rdHdr.addr.toNat % 8 = 0 ∧ wrHdr.addr.toNat % 8 = 0 ∧ cplHdr.poison = false) := by
  decide +kernel

/-! `Obligations.PiecesAreMaximal` -/

theorem witness_PiecesAreMaximal_1 :
    (cut1.u = 1 ∨ cut1.u = 2 ∨ cut1.u = 4 ∨ cut1.u = 8) ∧ 0 < cut1.n ∧ cut1.n % 8 = 0 ∧ 4 ≤ 16 ∧ 0 < 256 ∧ (∀ (a : ℕ), a < a + 1) := by
  refine ⟨by decide +kernel, by decide +kernel, by decide +kernel, by decide +kernel, ?_⟩
  refine ⟨by decide +kernel, ?_⟩
  exact fun a => Nat.lt_succ_self a

/-! `Obligations.StrobeKeepsWindowsApart` -/

theorem witness_StrobeKeepsWindowsApart_1 :
    apart.tbl.wtt.sorted = true ∧ apart.tbl.wttPend.sorted = true ∧ (∀ (i j : ℕ), i ≠ j → (windowOf (apart.wttAt i)).v = true → (windowOf
      (apart.wttAt j)).v = true → wttConflict (windowOf (apart.wttAt i)) (windowOf (apart.wttAt j)) = false) := by
  refine ⟨by decide +kernel, by decide +kernel, ?_⟩
  exact apart_ok

end Sys2Proof.Tests
end

section
/-! PROOFS. A raised fault (chapter 13): what the First Error Record, FLT_HIGHEST, the counters of the classes and of the sources hold after it. -/

namespace Sys2Proof.Machine

/-! ### The registers that a fault is counted and captured in -/

/-- The registers of the First Error Record (R276). -/
def recordRegs : List RegId := [.fltFirstSrc, .fltFirstSynLo, .fltFirstSynHi, .fltFirstTsLo, .fltFirstTsHi]

/-- FLT_HIGHEST and the counters of the classes (R278). -/
def countRegs : List RegId := [.fltHighest, .fltCntCe, .fltCntUc, .fltCntFt]

/-- The counter of a class (R278). -/
def classCnt : Nat → Fld
  | 1 => Fld.fltCntCe_count
  | 2 => Fld.fltCntUc_count
  | _ => Fld.fltCntFt_count

theorem srcClass_le (src : Nat) : srcClass src ≤ 3 := by
  unfold srcClass
  split_ifs <;> omega

/-- A source that is defined has a number of Table 13.2, which the nine bits of FLT_FIRST_SRC.SRC hold. -/
theorem src_lt_of_srcClass {src : Nat} (h : srcClass src ≠ 0) : src < 512 := by
  have hall : ∀ n ∈ ftSources ++ ucSources ++ ceSources, n < 512 := by decide
  apply hall
  by_contra hn
  simp only [List.mem_append, not_or] at hn
  obtain ⟨⟨hft, huc⟩, hce⟩ := hn
  exact h (by simp [srcClass, hft, huc, hce])

namespace State

/-- Two states hold the same words in the registers of a list. -/
def sameRegs (s t : State) (l : List RegId) : Prop := ∀ id ∈ l, t.reg id = s.reg id

theorem sameRegs.trans {s t u : State} {l : List RegId} (h : s.sameRegs t l) (h' : t.sameRegs u l) : s.sameRegs u l :=
  fun id hid => (h' id hid).trans (h id hid)

theorem sameRegs.f_eq {s t : State} {l : List RegId} (h : s.sameRegs t l) {x : Fld} (hx : x.id ∈ l) : t.f x = s.f x := by
  simp [f, h _ hx]

theorem sameRegs_setF (s : State) {x : Fld} {i : Nat} {l : List RegId} (h : ∀ id ∈ l, regOff id 0 ≠ regOff x.id i) (v : Nat) :
    s.sameRegs (s.setF x v i) l := fun id hid => reg_setF_ne s (h id hid) v

theorem sameRegs_modFlt (s : State) (g : Flt → Flt) (l : List RegId) : s.sameRegs (s.modFlt g) l :=
  fun id _ => reg_congr (modFlt_regs s g) id 0

/-- What the record holds rests on its registers alone. -/
theorem recordHolds_congr {s t : State} (h : s.sameRegs t recordRegs) (src syn time : Nat) :
    t.recordHolds src syn time ↔ s.recordHolds src syn time := by
  simp [recordHolds, pair, h.f_eq (x := Fld.fltFirstSrc_valid) (by decide), h.f_eq (x := Fld.fltFirstSrc_src) (by decide),
    h.f_eq (x := Fld.fltFirstSrc_class) (by decide), h.f_eq (x := Fld.fltFirstSynLo_syn) (by decide),
    h.f_eq (x := Fld.fltFirstSynHi_syn) (by decide), h.f_eq (x := Fld.fltFirstTsLo_ts) (by decide),
    h.f_eq (x := Fld.fltFirstTsHi_ts) (by decide)]

theorem recordKept_of_sameRegs {s t : State} (h : s.sameRegs t recordRegs) : s.recordKept t :=
  ⟨(h.f_eq (by decide)).symm, (h.f_eq (by decide)).symm, (h.f_eq (by decide)).symm, (h _ (by decide)).symm, (h _ (by decide)).symm,
    (h _ (by decide)).symm, (h _ (by decide)).symm⟩

theorem recordKept.trans {s t u : State} (h : s.recordKept t) (h' : t.recordKept u) : s.recordKept u := by
  obtain ⟨h1, h2, h3, h4, h5, h6, h7⟩ := h
  obtain ⟨k1, k2, k3, k4, k5, k6, k7⟩ := h'
  exact ⟨h1.trans k1, h2.trans k2, h3.trans k3, h4.trans k4, h5.trans k5, h6.trans k6, h7.trans k7⟩

/-! ### The counters of the classes -/

theorem sat_f (s : State) (x : Fld) (i : Nat) : sat x (s.f x i) = s.f x i :=
  Nat.min_eq_left (Nat.le_sub_one_of_lt (s.f_lt x i))

/-- The counter of one class steps, and the others stay. -/
theorem f_incF_classCnt (s : State) {c k : Nat} (hc : c ∈ [1, 2, 3]) (hk : k ∈ [1, 2, 3]) :
    (s.incF (classCnt c)).f (classCnt k) = sat (classCnt k) (s.f (classCnt k) + b2n (c == k)) := by
  by_cases h : c = k
  · subst h
    have hfit : ∀ c ∈ [1, 2, 3], (classCnt c).fits := by decide
    simpa [b2n, sat] using s.f_incF_same (hfit c hc) 0 1
  · have hoff : ∀ c ∈ [1, 2, 3], ∀ k ∈ [1, 2, 3], c ≠ k → regOff (classCnt k).id 0 ≠ regOff (classCnt c).id 0 := by decide
    simp [b2n, h, sat_f, f_incF_ne s (hoff c hc k hk h)]

theorem sameRegs_incF_classCnt (s : State) {c : Nat} (hc : c ∈ [1, 2, 3]) :
    s.sameRegs (s.incF (classCnt c)) (recordRegs ++ [.fltHighest]) := by
  have hoff : ∀ c ∈ [1, 2, 3], ∀ id ∈ recordRegs ++ [.fltHighest], regOff id 0 ≠ regOff (classCnt c).id 0 := by decide
  exact sameRegs_setF s (hoff c hc) _

/-! ### What a raised fault does first: its source's counter and FLT_HIGHEST -/

/-- The state in which the First Error Record is offered a fault. -/
def noteFault (s : State) (src : Nat) : State :=
  (s.modFlt fun f => { f with srcCnt := FMap.mod 0 src (fun n => min (n + 1) 65535) f.srcCnt }).maxF Fld.fltHighest_class (srcClass src)

@[simp] theorem noteFault_ts (s : State) (src : Nat) : (s.noteFault src).ts = s.ts := rfl
@[simp] theorem noteFault_firstNow (s : State) (src : Nat) : (s.noteFault src).flt.firstNow = s.flt.firstNow := rfl

theorem noteFault_srcCnt (s : State) (src : Nat) :
    FMap.get 0 src (s.noteFault src).flt.srcCnt = min (FMap.get 0 src s.flt.srcCnt + 1) 65535 := by
  simp [noteFault]

theorem f_noteFault_highest (s : State) (src : Nat) :
    (s.noteFault src).f Fld.fltHighest_class = max (s.f Fld.fltHighest_class) (srcClass src) := by
  have hmax := f_maxF_same (s.modFlt fun f => { f with srcCnt := FMap.mod 0 src (fun n => min (n + 1) 65535) f.srcCnt })
    (x := Fld.fltHighest_class) (by decide) (srcClass src) 0
  have hle : min (srcClass src) 3 = srcClass src := Nat.min_eq_left (srcClass_le src)
  exact hmax.trans (congrArg (max (s.f Fld.fltHighest_class)) hle)

theorem sameRegs_noteFault (s : State) (src : Nat) :
    s.sameRegs (s.noteFault src) (recordRegs ++ [.fltCntCe, .fltCntUc, .fltCntFt]) :=
  (sameRegs_modFlt s _ _).trans (sameRegs_setF (x := Fld.fltHighest_class) _ (by decide) _)

/-! ### The First Error Record -/

/-- What a capture writes (R276). -/
def writeRecord (s : State) (src syn : Nat) : State :=
  ((((s.setF Fld.fltFirstSrc_valid 1).setF Fld.fltFirstSrc_class (srcClass src)).setF Fld.fltFirstSrc_src src).setPair
    Fld.fltFirstSynLo_syn Fld.fltFirstSynHi_syn syn).setPair Fld.fltFirstTsLo_ts Fld.fltFirstTsHi_ts s.ts

theorem capture_armed (s : State) {src syn : Nat} (hv : s.f Fld.fltFirstSrc_valid = 0) :
    s.capture src syn = (s.writeRecord src syn).modFlt fun f => { f with firstNow := true } := by
  have hfb : s.fb Fld.fltFirstSrc_valid = false := by simp [fb, hv]
  simp only [capture, hfb, Bool.not_false, if_true, writeRecord]

/-- While the record stands, OVF is set, and a fault of the same command that ranks before the one held takes the record (R277). -/
theorem capture_standing (s : State) {src syn : Nat} (hv : s.f Fld.fltFirstSrc_valid = 1) :
    s.capture src syn =
      if s.flt.firstNow = true ∧ (s.f Fld.fltFirstSrc_class < srcClass src
          ∨ s.f Fld.fltFirstSrc_class = srcClass src ∧ src < s.f Fld.fltFirstSrc_src)
      then (s.setF Fld.fltFirstSrc_ovf 1).writeRecord src syn else s.setF Fld.fltFirstSrc_ovf 1 := by
  have hcls : (s.setF Fld.fltFirstSrc_ovf 1).f Fld.fltFirstSrc_class = s.f Fld.fltFirstSrc_class :=
    f_setF_apart s (x := Fld.fltFirstSrc_ovf) (y := Fld.fltFirstSrc_class) (by decide) rfl (by decide) 1 0
  have hsrc : (s.setF Fld.fltFirstSrc_ovf 1).f Fld.fltFirstSrc_src = s.f Fld.fltFirstSrc_src :=
    f_setF_apart s (x := Fld.fltFirstSrc_ovf) (y := Fld.fltFirstSrc_src) (by decide) rfl (by decide) 1 0
  have hnow : (s.setF Fld.fltFirstSrc_ovf 1).flt.firstNow = s.flt.firstNow := congrArg Flt.firstNow (setF_flt s _ 1 0)
  have hfb : s.fb Fld.fltFirstSrc_valid = true := by simp [fb, hv]
  simp only [capture, hfb, hcls, hsrc, hnow, Bool.not_true, Bool.false_eq_true, if_false, Bool.and_eq_true, Bool.or_eq_true,
    decide_eq_true_eq, writeRecord]

/-- A pair of whole words reads as it was written. -/
theorem pair_setPair (s : State) {lo hi : Fld} (hlo : lo.lo = 0 ∧ lo.hi = 31) (hhi : hi.lo = 0 ∧ hi.hi = 31)
    (hne : regOff lo.id 0 ≠ regOff hi.id 0) (v : Nat) : (s.setPair lo hi v).pair lo hi = v % 2 ^ 64 := by
  have hfl : lo.fits := by simp [Fld.fits, hlo]
  have hfh : hi.fits := by simp [Fld.fits, hhi]
  simp only [pair, setPair, f_setF_ne _ hne, f_setF_same _ hfl, f_setF_same _ hfh, hlo, hhi]
  omega

theorem pair_setPair_ne (s : State) {lo hi lo' hi' : Fld} (h1 : regOff lo'.id 0 ≠ regOff lo.id 0) (h2 : regOff lo'.id 0 ≠ regOff hi.id 0)
    (h3 : regOff hi'.id 0 ≠ regOff lo.id 0) (h4 : regOff hi'.id 0 ≠ regOff hi.id 0) (v : Nat) :
    (s.setPair lo hi v).pair lo' hi' = s.pair lo' hi' := by
  simp only [pair, setPair, f_setF_ne _ h1, f_setF_ne _ h2, f_setF_ne _ h3, f_setF_ne _ h4]

theorem f_setPair_ne (s : State) {lo hi x : Fld} (h1 : regOff x.id 0 ≠ regOff lo.id 0) (h2 : regOff x.id 0 ≠ regOff hi.id 0) (v : Nat) :
    (s.setPair lo hi v).f x = s.f x := by
  simp only [setPair, f_setF_ne _ h1, f_setF_ne _ h2]

theorem writeRecord_holds (s : State) {src : Nat} (hc : srcClass src ≠ 0) (syn : Nat) :
    (s.writeRecord src syn).recordHolds src syn s.ts := by
  have hsrc : src % 512 = src := Nat.mod_eq_of_lt (src_lt_of_srcClass hc)
  have hcls : srcClass src % 4 = srcClass src := Nat.mod_eq_of_lt (Nat.lt_succ_of_le (srcClass_le src))
  refine ⟨?valid, ?src, ?cls, ?syn, ?time⟩
  case valid =>
    simp (disch := decide) only [writeRecord, f_setPair_ne, f_setF_apart, f_setF_same]
    decide
  case src =>
    simp (disch := decide) only [writeRecord, f_setPair_ne, f_setF_same]
    exact hsrc
  case cls =>
    simp (disch := decide) only [writeRecord, f_setPair_ne, f_setF_apart, f_setF_same]
    exact hcls
  case syn => simp (disch := decide) only [writeRecord, pair_setPair_ne, pair_setPair]
  case time => simp (disch := decide) only [writeRecord, pair_setPair]

theorem f_writeRecord_ovf (s : State) (src syn : Nat) :
    (s.writeRecord src syn).f Fld.fltFirstSrc_ovf = s.f Fld.fltFirstSrc_ovf := by
  simp (disch := decide) only [writeRecord, f_setPair_ne, f_setF_apart]

theorem setF_ovf_recordKept (s : State) : s.recordKept (s.setF Fld.fltFirstSrc_ovf 1) := by
  simp (disch := decide) only [recordKept, f_setF_apart, reg_setF_ne, and_self]

theorem f_setF_ovf (s : State) : (s.setF Fld.fltFirstSrc_ovf 1).f Fld.fltFirstSrc_ovf = 1 := f_setF_same s (by decide) 1 0

@[simp] theorem writeRecord_flt (s : State) (src syn : Nat) : (s.writeRecord src syn).flt = s.flt := by
  rw [writeRecord, setPair_flt, setPair_flt, setF_flt, setF_flt, setF_flt]

theorem sameRegs_writeRecord (s : State) (src syn : Nat) : s.sameRegs (s.writeRecord src syn) countRegs := by
  have hoff : ∀ id ∈ countRegs, ∀ id' ∈ recordRegs, regOff id 0 ≠ regOff id' 0 := by decide
  intro id hid
  have hset (t : State) (x : Fld) (v : Nat) (hx : x.id ∈ recordRegs) : (t.setF x v).reg id = t.reg id :=
    reg_setF_ne t (hoff id hid _ hx) v
  simp (disch := decide) only [writeRecord, setPair, hset]

/-- A capture writes the record, sets OVF, or both. -/
theorem capture_cases (s : State) (src syn : Nat) :
    s.capture src syn = ((s.writeRecord src syn).modFlt fun f => { f with firstNow := true })
    ∨ s.capture src syn = (s.setF Fld.fltFirstSrc_ovf 1).writeRecord src syn
    ∨ s.capture src syn = s.setF Fld.fltFirstSrc_ovf 1 := by
  have hlt : s.f Fld.fltFirstSrc_valid < 2 := s.f_lt Fld.fltFirstSrc_valid 0
  rcases (by omega : s.f Fld.fltFirstSrc_valid = 0 ∨ s.f Fld.fltFirstSrc_valid = 1) with hv | hv
  · exact .inl (s.capture_armed hv)
  · rw [s.capture_standing hv]
    split_ifs
    · exact .inr (.inl rfl)
    · exact .inr (.inr rfl)

/-- A capture changes the registers of the record alone. -/
theorem sameRegs_capture (s : State) (src syn : Nat) : s.sameRegs (s.capture src syn) countRegs := by
  have hovf : s.sameRegs (s.setF Fld.fltFirstSrc_ovf 1) countRegs := sameRegs_setF s (by decide) 1
  rcases s.capture_cases src syn with h | h | h <;> rw [h]
  · exact (s.sameRegs_writeRecord src syn).trans (sameRegs_modFlt _ _ _)
  · exact hovf.trans (sameRegs_writeRecord _ src syn)
  · exact hovf

theorem capture_srcCnt (s : State) (src syn : Nat) : (s.capture src syn).flt.srcCnt = s.flt.srcCnt := by
  rcases s.capture_cases src syn with h | h | h <;> rw [h]
  · rw [modFlt_flt, writeRecord_flt]
  · rw [writeRecord_flt, setF_flt]
  · rw [setF_flt]

/-! ### The action of the class -/

/-- What the action of a class leaves alone, but for the counter of the class: the counters of the sources, and the registers of the record, of
FLT_HIGHEST and of the counters of the classes. -/
def faultWords (s : State) : FMap Nat × List Word := (s.flt.srcCnt, (recordRegs ++ countRegs).map fun id => s.reg id)

theorem faultWords_eq_iff {s t : State} :
    t.faultWords = s.faultWords ↔ t.flt.srcCnt = s.flt.srcCnt ∧ s.sameRegs t (recordRegs ++ countRegs) := by
  simp only [faultWords, sameRegs, Prod.mk.injEq, List.map_inj_left]

theorem faultWords_congr {s t : State} (hregs : t.regs = s.regs) (hcnt : t.flt.srcCnt = s.flt.srcCnt) : t.faultWords = s.faultWords :=
  faultWords_eq_iff.mpr ⟨hcnt, fun id _ => reg_congr hregs id 0⟩

theorem faultWords_setF (s : State) {x : Fld} {i : Nat} (h : ∀ id ∈ recordRegs ++ countRegs, regOff id 0 ≠ regOff x.id i) (v : Nat) :
    (s.setF x v i).faultWords = s.faultWords := faultWords_eq_iff.mpr ⟨rfl, sameRegs_setF s h v⟩

theorem faultWords_incF (s : State) {x : Fld} {i : Nat} (h : ∀ id ∈ recordRegs ++ countRegs, regOff id 0 ≠ regOff x.id i) (n : Nat) :
    (s.incF x i n).faultWords = s.faultWords := faultWords_setF s h _

theorem faultWords_setPair (s : State) {lo hi : Fld} (hlo : ∀ id ∈ recordRegs ++ countRegs, regOff id 0 ≠ regOff lo.id 0)
    (hhi : ∀ id ∈ recordRegs ++ countRegs, regOff id 0 ≠ regOff hi.id 0) (v : Nat) : (s.setPair lo hi v).faultWords = s.faultWords :=
  (faultWords_setF _ hhi _).trans (faultWords_setF s hlo v)

theorem faultWords_modFlt (s : State) {g : Flt → Flt} (h : ∀ x, (g x).srcCnt = x.srcCnt) : (s.modFlt g).faultWords = s.faultWords :=
  faultWords_congr (modFlt_regs s g) ((congrArg Flt.srcCnt (modFlt_flt s g)).trans (h s.flt))

@[simp] theorem faultWords_emit (s : State) (o : Output) : (s.emit o).faultWords = s.faultWords := rfl
@[simp] theorem faultWords_modLink (s : State) (l : Nat) (g : Link → Link) : (s.modLink l g).faultWords = s.faultWords := rfl
@[simp] theorem faultWords_modImg (s : State) (g : Img → Img) : (s.modImg g).faultWords = s.faultWords := rfl
@[simp] theorem faultWords_haltPorts (s : State) : s.haltPorts.faultWords = s.faultWords := rfl
@[simp] theorem faultWords_clearKeys (s : State) : s.clearKeys.faultWords = s.faultWords := rfl
@[simp] theorem faultWords_redoFatal (s : State) : s.redoFatal.faultWords = s.faultWords := rfl

/-! A message goes out: the links and the output change. -/

@[simp] theorem faultWords_sendBlock (s : State) (l : Nat) (pkt : Option TxPkt) (fpo : Nat) (stream : List Byte) :
    (sendBlock l pkt fpo stream s).faultWords = s.faultWords := rfl

@[simp] theorem faultWords_sendBlocks (s : State) (l : Nat) (t : TxPkt) (fpo : Nat) (cs : List (List Byte)) :
    (sendBlocks l t fpo cs s).faultWords = s.faultWords := by
  fun_induction sendBlocks l t fpo cs s with
  | case1 => rfl
  | case2 => rfl
  | case3 fpo s b bs hne ih => exact ih

@[simp] theorem faultWords_pump (s : State) (l n : Nat) : (pump l n s).faultWords = s.faultWords := by
  fun_induction pump l n s with
  | case5 => simp_all
  | _ => rfl

@[simp] theorem faultWords_handTx (s : State) (l : Nat) (p : Packet) (frees : List Nat) : (s.handTx l p frees).faultWords = s.faultWords := by
  simp [handTx, handPkt, pumpLink]

@[simp] theorem faultWords_sendMsg (s : State) (l vc dest code arg : Nat) (body : List Byte) (frees : List Nat) :
    (s.sendMsg l vc dest code arg body frees).faultWords = s.faultWords := by
  unfold sendMsg
  split <;> simp

@[simp] theorem faultWords_sendEvent (s : State) (inst code : Nat) (body : List Byte) :
    (s.sendEvent inst code body).faultWords = s.faultWords := by
  unfold sendEvent sendEventVc
  split <;> simp

theorem faultWords_faultEvent (s : State) (src dest : Nat) {send : State → State} (h : ∀ t, (send t).faultWords = t.faultWords) :
    (s.faultEvent src dest send).faultWords = s.faultWords := by
  unfold faultEvent
  split_ifs
  · rfl
  · exact faultWords_incF s (by decide) 1
  · exact h _

@[simp] theorem faultWords_faultDestEvent (s : State) (src syn : Nat) : (s.faultDestEvent src syn).faultWords = s.faultWords := by
  unfold faultDestEvent
  split
  · exact faultWords_faultEvent s src 256 fun t => faultWords_sendMsg ..
  · rfl

@[simp] theorem faultWords_faultInstEvent (s : State) (src syn inst : Nat) : (s.faultInstEvent src syn inst).faultWords = s.faultWords := by
  unfold faultInstEvent
  split
  · exact faultWords_faultEvent s src inst fun t => faultWords_sendEvent ..
  · rfl

/-! The fatal edge: FLT_HALT and its companions, and what HALT does. -/

@[simp] theorem faultWords_haltRecord (s : State) (src syn : Nat) : (s.haltRecord src syn).faultWords = s.faultWords := by
  unfold haltRecord
  split
  · rw [faultWords_modFlt _ (by intro; rfl), faultWords_setPair _ (by decide) (by decide), faultWords_setPair _ (by decide) (by decide),
      faultWords_setF _ (by decide), faultWords_setF _ (by decide)]
  · rfl

@[simp] theorem haltRecord_mode (s : State) (src syn : Nat) : (s.haltRecord src syn).mode = s.mode := by
  unfold haltRecord
  split
  · rw [modFlt_mode, setPair_mode, setPair_mode, setF_mode, setF_mode]
  · rfl

theorem faultWords_haltLink (s : State) {l : Nat} (h : ∀ id ∈ recordRegs ++ countRegs, regOff id 0 ≠ regOff .tlkLinkCnt l) :
    (s.haltLink l).faultWords = s.faultWords := by
  unfold haltLink
  split
  · exact (faultWords_incF (x := Fld.tlkLinkCnt_retrains) _ h 1).trans (faultWords_modLink s l _)
  · rfl

@[simp] theorem faultWords_enterHalt (s : State) : s.enterHalt.faultWords = s.faultWords := by
  unfold enterHalt
  split
  · rfl
  · dsimp only
    rw [faultWords_modFlt _ (by intro; rfl), faultWords_setF _ (by decide), faultWords_setF _ (by decide), addFatalRecord,
      faultWords_incF _ (by decide)]
    simp only [faultWords_modImg, faultWords_clearKeys, faultWords_haltPorts]
    rw [faultWords_haltLink _ (by decide), faultWords_haltLink _ (by decide)]
    rfl

theorem haltLink_mode (s : State) (l : Nat) : (s.haltLink l).mode = s.mode := by
  unfold haltLink
  split
  · rw [incF_mode, modLink_mode]
  · rfl

theorem addFatalRecord_mode (s : State) : s.addFatalRecord.mode = s.mode := by
  rw [addFatalRecord, incF_mode, modImg_mode]

theorem enterHalt_mode (s : State) : s.enterHalt.mode = .halt := by
  unfold enterHalt
  split
  next h => exact h
  next =>
    have hports (t : State) : t.haltPorts.clearKeys.mode = t.mode := rfl
    dsimp only
    rw [modFlt_mode, setF_mode, setF_mode, addFatalRecord_mode, hports, haltLink_mode, haltLink_mode]

theorem srcClass_mem {src : Nat} (h : srcClass src ≠ 0) : srcClass src ∈ [1, 2, 3] := by
  have hle := srcClass_le src
  simp only [List.mem_cons, List.not_mem_nil, or_false]
  omega

/-- Of the words above, the action of a class changes the counter of the class alone. -/
theorem faultWords_classAct (s : State) {src : Nat} (hc : srcClass src ≠ 0) (syn : Nat) (inst : Option Nat) :
    (s.classAct src syn inst).faultWords = (s.incF (classCnt (srcClass src))).faultWords := by
  have hmem := srcClass_mem hc
  simp only [List.mem_cons, List.not_mem_nil, or_false] at hmem
  rcases hmem with h | h | h <;> simp only [classAct, h, classCnt]
  case inl =>
    split_ifs
    · exact faultWords_faultDestEvent ..
    · rfl
  case inr.inl =>
    cases inst with
    | none => exact faultWords_faultDestEvent ..
    | some i => exact (faultWords_faultInstEvent ..).trans (faultWords_faultDestEvent ..)
  case inr.inr =>
    split_ifs
    · exact faultWords_haltRecord ..
    · rfl
    · exact (faultWords_enterHalt _).trans (faultWords_haltRecord ..)

/-- A fatal source leaves the bridge in HALT (R280). -/
theorem classAct_halts (s : State) {src : Nat} (hc : srcClass src = 3) (syn : Nat) (inst : Option Nat) :
    (s.classAct src syn inst).mode = .halt := by
  simp only [classAct, hc]
  split_ifs with hm hn
  · rw [haltRecord_mode, hm]
  · exact hm
  · exact enterHalt_mode _

/-! ### A raised fault -/

/-- The parts of a raise, out of RESET. -/
theorem raise_eq (s : State) (src unit : Nat) (inst je : Option Nat) (detail : Nat) (hm : s.mode ≠ .reset) :
    let t := ((s.noteFault src).capture src (syndrome unit inst je detail)).classAct src (syndrome unit inst je detail) inst
    s.raise src unit inst je detail = if t.flt.haltNow then t.redoFatal else t :=
  if_neg hm

theorem raise_halts (s : State) {src : Nat} (unit : Nat) (inst je : Option Nat) (detail : Nat) (hm : s.mode ≠ .reset)
    (hc : srcClass src = 3) : (s.raise src unit inst je detail).mode = .halt := by
  rw [s.raise_eq src unit inst je detail hm]
  split_ifs
  · rw [redoFatal, modImg_mode]
    exact classAct_halts _ hc _ inst
  · exact classAct_halts _ hc _ inst

section
variable (s : State) {src : Nat} (unit : Nat) (inst je : Option Nat) (detail : Nat) (hm : s.mode ≠ .reset) (hc : srcClass src ≠ 0)
include hm hc

/-- A raised fault steps its source's counter and FLT_HIGHEST, is offered to the First Error Record, and steps the counter of its class; nothing
that it does besides changes these. -/
theorem faultWords_raise :
    (s.raise src unit inst je detail).faultWords
      = (((s.noteFault src).capture src (syndrome unit inst je detail)).incF (classCnt (srcClass src))).faultWords := by
  rw [s.raise_eq src unit inst je detail hm]
  split_ifs
  · exact (faultWords_redoFatal _).trans (faultWords_classAct _ hc _ inst)
  · exact faultWords_classAct _ hc _ inst

theorem raise_srcCnt :
    FMap.get 0 src (s.raise src unit inst je detail).flt.srcCnt = min (FMap.get 0 src s.flt.srcCnt + 1) 65535 := by
  obtain ⟨hcnt, -⟩ := faultWords_eq_iff.mp (s.faultWords_raise unit inst je detail hm hc)
  rw [hcnt, incF_flt, capture_srcCnt, noteFault_srcCnt]

theorem f_raise_highest :
    (s.raise src unit inst je detail).f Fld.fltHighest_class = max (s.f Fld.fltHighest_class) (srcClass src) := by
  obtain ⟨-, hregs⟩ := faultWords_eq_iff.mp (s.faultWords_raise unit inst je detail hm hc)
  calc _ = _ := hregs.f_eq (by decide)
    _ = _ := (sameRegs_incF_classCnt _ (srcClass_mem hc)).f_eq (by decide)
    _ = _ := (sameRegs_capture _ src _).f_eq (by decide)
    _ = _ := s.f_noteFault_highest src

/-- The counter of the fault's class steps, and the others stay (R278). -/
theorem f_raise_classCnt {k : Nat} (hk : k ∈ [1, 2, 3]) :
    (s.raise src unit inst je detail).f (classCnt k) = sat (classCnt k) (s.f (classCnt k) + b2n (srcClass src == k)) := by
  have hcap : ∀ k ∈ [1, 2, 3], (classCnt k).id ∈ countRegs := by decide
  have hnote : ∀ k ∈ [1, 2, 3], (classCnt k).id ∈ recordRegs ++ [.fltCntCe, .fltCntUc, .fltCntFt] := by decide
  obtain ⟨-, hregs⟩ := faultWords_eq_iff.mp (s.faultWords_raise unit inst je detail hm hc)
  rw [hregs.f_eq (List.mem_append_right _ (hcap k hk)), f_incF_classCnt _ (srcClass_mem hc) hk,
    (sameRegs_capture _ src _).f_eq (hcap k hk), (s.sameRegs_noteFault src).f_eq (hnote k hk)]

/-- The First Error Record after a raise is the one after the capture. -/
theorem sameRegs_capture_raise :
    ((s.noteFault src).capture src (syndrome unit inst je detail)).sameRegs (s.raise src unit inst je detail) recordRegs := by
  obtain ⟨-, hregs⟩ := faultWords_eq_iff.mp (s.faultWords_raise unit inst je detail hm hc)
  exact fun id hid => (hregs id (List.mem_append_left _ hid)).trans
    (sameRegs_incF_classCnt _ (srcClass_mem hc) id (List.mem_append_left _ hid))

/-- An armed record captures the fault (R276). -/
theorem raise_captures_armed (hv : s.f Fld.fltFirstSrc_valid = 0) :
    (s.raise src unit inst je detail).recordHolds src (syndrome unit inst je detail) s.ts
    ∧ (s.raise src unit inst je detail).f Fld.fltFirstSrc_ovf = s.f Fld.fltFirstSrc_ovf := by
  have hnote := s.sameRegs_noteFault src
  have hcap := s.sameRegs_capture_raise unit inst je detail hm hc
  rw [capture_armed _ ((hnote.f_eq (by decide)).trans hv)] at hcap
  have hwrite := (sameRegs_modFlt _ _ _).trans hcap
  constructor
  · exact (recordHolds_congr hwrite ..).mpr (writeRecord_holds _ hc _)
  · calc _ = _ := hwrite.f_eq (by decide)
      _ = _ := f_writeRecord_ovf ..
      _ = _ := hnote.f_eq (by decide)

/-- A record that stands takes a fault that ranks before the one that the same command captured (R277). -/
theorem raise_replaces (hv : s.f Fld.fltFirstSrc_valid = 1) (hnow : s.flt.firstNow = true)
    (hrank : ranksBefore src (s.f Fld.fltFirstSrc_src)) (hcls : s.f Fld.fltFirstSrc_class = srcClass (s.f Fld.fltFirstSrc_src)) :
    (s.raise src unit inst je detail).recordHolds src (syndrome unit inst je detail) s.ts
    ∧ (s.raise src unit inst je detail).f Fld.fltFirstSrc_ovf = 1 := by
  have hnote := s.sameRegs_noteFault src
  have hcap := s.sameRegs_capture_raise unit inst je detail hm hc
  rw [capture_standing _ ((hnote.f_eq (by decide)).trans hv), hnote.f_eq (x := Fld.fltFirstSrc_class) (by decide),
    hnote.f_eq (x := Fld.fltFirstSrc_src) (by decide), hcls, noteFault_firstNow, if_pos ⟨hnow, hrank⟩] at hcap
  have hholds := writeRecord_holds ((s.noteFault src).setF Fld.fltFirstSrc_ovf 1) hc (syndrome unit inst je detail)
  rw [setF_ts, noteFault_ts] at hholds
  constructor
  · exact (recordHolds_congr hcap ..).mpr hholds
  · calc _ = _ := hcap.f_eq (by decide)
      _ = _ := f_writeRecord_ovf ..
      _ = _ := f_setF_ovf _

/-- A record that stands keeps what it holds against every other fault, and sets OVF (R276, R277). -/
theorem raise_keeps (hv : s.f Fld.fltFirstSrc_valid = 1)
    (hlate : s.flt.firstNow = false ∨ s.f Fld.fltFirstSrc_class = srcClass (s.f Fld.fltFirstSrc_src)
      ∧ ¬ ranksBefore src (s.f Fld.fltFirstSrc_src)) :
    s.recordKept (s.raise src unit inst je detail) ∧ (s.raise src unit inst je detail).f Fld.fltFirstSrc_ovf = 1 := by
  have hnote := s.sameRegs_noteFault src
  have hcap := s.sameRegs_capture_raise unit inst je detail hm hc
  have hstands : ¬ (s.flt.firstNow = true ∧ (s.f Fld.fltFirstSrc_class < srcClass src
      ∨ s.f Fld.fltFirstSrc_class = srcClass src ∧ src < s.f Fld.fltFirstSrc_src)) := by
    rintro ⟨hnow, hrank⟩
    rcases hlate with hnow' | ⟨hcls, hnot⟩
    · simp [hnow'] at hnow
    · rw [hcls] at hrank
      exact hnot hrank
  rw [capture_standing _ ((hnote.f_eq (by decide)).trans hv), hnote.f_eq (x := Fld.fltFirstSrc_class) (by decide),
    hnote.f_eq (x := Fld.fltFirstSrc_src) (by decide), noteFault_firstNow, if_neg hstands] at hcap
  constructor
  · exact (recordKept_of_sameRegs fun id hid => hnote id (List.mem_append_left _ hid)).trans
      ((setF_ovf_recordKept _).trans (recordKept_of_sameRegs hcap))
  · exact (hcap.f_eq (by decide)).trans (f_setF_ovf _)

end

/-! ### The read of FLT_HIGHEST -/

theorem clearRc_fltHighest (s : State) : (s.clearRc .fltHighest 0).f Fld.fltHighest_class = 0 := by
  have hclear : s.clearRc .fltHighest 0 = s.setReg .fltHighest 0 ((s.reg .fltHighest 0 &&& ~~~ 3#32) ||| (0#32 &&& 3#32)) := rfl
  rw [hclear, f, show Fld.fltHighest_class.id = .fltHighest from rfl, reg_setReg_same]
  have hlow (n : Nat) : (n &&& 4294967292) % 2 ^ 2 = 0 := by
    rw [Nat.and_mod_two_pow]
    exact Nat.and_zero _
  simpa [Fld.fltHighest_class, bits] using hlow (s.reg .fltHighest).toNat

/-- A read of FLT_HIGHEST clears it (R28, R278). -/
theorem readBytes_clears_highest (s : State) :
    (s.readBytes (regOff .fltHighest 0) 4 true).2.f Fld.fltHighest_class = 0 := by
  have htarget : targetAt (regOff .fltHighest 0) = .reg .fltHighest 0 := by decide
  have hrc : (s.readReg .fltHighest 0).2 = s.clearRc .fltHighest 0 := rfl
  simp [readBytes, htarget, readWord, hrc, clearRc_fltHighest]

end State

/-- Settles O6: the raise is followed through its three parts, of which the capture alone writes the record, and the action of the class alone the
counters of the classes. -/
theorem faultsAreCountedAndCaptured : Obligations.FaultsAreCountedAndCaptured := by
  unfold Obligations.FaultsAreCountedAndCaptured
  intro s src unit inst je detail hm hc
  refine ⟨s.raise_srcCnt unit inst je detail hm hc, s.f_raise_highest unit inst je detail hm hc, ?ce, ?uc, ?ft,
    s.raise_captures_armed unit inst je detail hm hc, s.raise_replaces unit inst je detail hm hc,
    s.raise_keeps unit inst je detail hm hc, s.raise_halts unit inst je detail hm, s.readBytes_clears_highest⟩
  case ce => exact s.f_raise_classCnt unit inst je detail hm hc (k := 1) (by decide)
  case uc => exact s.f_raise_classCnt unit inst je detail hm hc (k := 2) (by decide)
  case ft => exact s.f_raise_classCnt unit inst je detail hm hc (k := 3) (by decide)

end Sys2Proof.Machine
end

section
/-! PROOFS. Every step keeps the register path in form (`State.inForm`) and takes at most the front command from the queue: one lemma per way in which
a command meets the register path, one line per command, and the step. -/

namespace Sys2Proof.Machine

namespace State

/-- Where an outcome goes on, its state is in form when `s` is, and has the queue of `s`. -/
def outKept (s : State) (o : Host.Outcome State Fault Refusal) : Prop := ∀ t, o = .next t → s.bcsKept t

theorem outKept_next {s t : State} (h : s.bcsKept t) : s.outKept (.next t) := by
  rintro _ ⟨⟩
  exact h

theorem outKept_of_path {s : State} {o : Host.Outcome State Fault Refusal} (h : ∀ t, o = .next t → t.path = s.path) : s.outKept o :=
  fun t ht => bcsKept_of_path (h t ht)

theorem bcsKept_start (s : State) : s.bcsKept s.start := bcsKept_of_path (path_start s)

/-! ### Accesses to the control space -/

theorem outKept_bcsRun {s u : State} (h : s.bcsKept u) (r : BcsReq) : s.outKept (u.bcsRun r) :=
  fun _ ht => h.trans (bcsKept_bcsRun ht)

theorem outKept_thenDo {s : State} {o : Host.Outcome State Fault Refusal} {g : State → Host.Outcome State Fault Refusal} (ho : s.outKept o)
    (hg : ∀ t, s.bcsKept t → s.outKept (g t)) : s.outKept (thenDo o g) := by
  cases o with
  | next t => exact hg t (ho t rfl)
  | fault f => exact fun _ h => nomatch h
  | refused r => exact fun _ h => nomatch h

theorem outKept_writeRow (s : State) (a : Acc) (id : RegId) (i : Nat) (v : Word) : s.outKept (writeRow a id i v s) :=
  outKept_bcsRun (bcsKept_start s) _

theorem outKept_keyedRow (s : State) (a : Acc) (id : RegId) (i : Nat) (v comp : Word) : s.outKept (keyedRow a id i v comp s) :=
  outKept_thenDo (outKept_bcsRun (bcsKept_start s) _) fun _ h => outKept_bcsRun h _

theorem outKept_keyedOp (s : State) (a : Acc) (id : RegId) (hi lo op : Nat) (v comp : Word) : s.outKept (keyedOp a id hi lo op v comp s) :=
  outKept_keyedRow s a id 0 _ _

theorem outKept_bytesWrite (s : State) (a : Acc) (off : Nat) (bs : List (Option Byte)) : s.outKept (bytesWrite a off bs s) := by
  unfold bytesWrite
  extract_lets x
  split
  · exact outKept_next (bcsKept_start s)
  · exact outKept_bcsRun (bcsKept_start s) _

/-! ### Events of the register path -/

theorem outKept_execKeyPendingExpire (s : State) (off : BitVec 26) : s.outKept (execKeyPendingExpire off s) := by
  refine outKept_next ((bcsKept_start s).trans ?_)
  split
  · exact (bcsKept_of_formKept (formKept_keyPend _ (FMap.sorted_del _))).trans (bcsKept_of_path (path_keyFail _ _ _))
  · exact bcsKept_of_path rfl

/-- The oldest crossing leaves its queue. -/
theorem bcsKept_slowQ_tail {s : State} {x : BcsReq × BcsRes} {q : List (BcsReq × BcsRes)} (h : s.slowQ = x :: q) :
    s.bcsKept { s with slowQ := q } := by
  refine ⟨fun ⟨hts, hlen, hslow, hrest⟩ => ⟨hts, ?_, ?_, hrest⟩, rfl⟩
  · rw [h, List.length_cons] at hlen
    exact Nat.le_of_succ_le hlen
  · exact fun y hy => hslow y (h ▸ List.mem_cons_of_mem x hy)

theorem outKept_execSlowAccessComplete (s : State) : s.outKept (execSlowAccessComplete s) := by
  refine outKept_next ((bcsKept_start s).trans ?_)
  split
  · exact bcsKept_of_path rfl
  · next x q h => exact ((bcsKept_slowQ_tail h).trans (bcsKept_of_path (path_respond _ _ _))).trans (bcsKept_drain _)

/-- The strobe ends: none is in progress, and none waits. -/
theorem bcsKept_strobe_ends (s : State) : s.bcsKept { s with strobe := {} } :=
  ⟨fun ⟨hts, hlen, hslow, _, _, hrest⟩ => ⟨hts, hlen, hslow, fun _ h => (nomatch h), fun _ => rfl, hrest⟩, rfl⟩

theorem outKept_execStrobeCommit (s : State) : s.outKept (execStrobeCommit s) := by
  refine outKept_next ((bcsKept_start s).trans ?_)
  split
  · exact bcsKept_of_path rfl
  · next m _ =>
    split
    · exact bcsKept_of_path rfl
    · refine (((bcsKept_of_path (path_commitMask _ m)).trans (bcsKept_strobe_ends _)).trans (bcsKept_of_path ?_)).trans (bcsKept_drain _)
      exact path_foldl _ _ _ fun s r => path_respond s r _

theorem outKept_execDozeExitDone (s : State) : s.outKept (execDozeExitDone s) := by
  refine outKept_next ((bcsKept_start s).trans ?_)
  split
  · exact (bcsKept_of_path (path_reachRun _)).trans (bcsKept_drain _)
  · exact bcsKept_of_path rfl

/-! ### Requests from the Thaty links -/

theorem outKept_execMrd (s : State) (link : Fin 2) (h : ReqHdr) : s.outKept (execMrd link h s) := by
  unfold execMrd
  extract_lets u l v
  have hv : s.bcsKept v := bcsKept_of_path (by simp [v, u])
  split
  · exact outKept_next (bcsKept_start s)
  · split
    · exact outKept_next (hv.trans (bcsKept_of_path (by simp)))
    · split
      · exact outKept_bcsRun hv _
      · exact outKept_next (hv.trans (bcsKept_of_path (path_winRequest _ _ _ _ _ _)))

theorem outKept_execMwr (s : State) (link : Fin 2) (h : ReqHdr) (bytes : List Byte) : s.outKept (execMwr link h bytes s) := by
  unfold execMwr
  extract_lets u l p v
  have hv : s.bcsKept v := bcsKept_of_path (by simp [v, u])
  split
  · exact outKept_next (bcsKept_start s)
  · split
    · exact outKept_next (hv.trans (bcsKept_of_path (by simp)))
    · split
      · exact outKept_next (hv.trans (bcsKept_of_path (path_poisonedMwr _ _ _ _ _ _)))
      · split
        · exact outKept_bcsRun hv _
        · exact outKept_next (hv.trans (bcsKept_of_path (path_winRequest _ _ _ _ _ _)))

/-! ### RESET and LOAD -/

theorem outKept_execPerstNAssert (s : State) : s.outKept (execPerstNAssert s) := by
  unfold execPerstNAssert
  extract_lets _ t
  have ht : s.bcsKept t := ⟨fun _ => by simp [t, inForm, FMap.sorted, FMap.sortedFrom], rfl⟩
  refine outKept_next (ht.trans (bcsKept_of_path ?_))
  split
  · exact path_emit _ _
  · rfl

theorem outKept_execPerstNRelease (s : State) (straps : Byte) : s.outKept (execPerstNRelease straps s) := by
  refine outKept_next ((bcsKept_start s).trans ?_)
  split
  · exact bcsKept_of_path rfl
  · have hts : s.start.bcsKept { s.start with mode := .load, ts := 0 } := ⟨fun h => ⟨by norm_num, h.2⟩, rfl⟩
    exact hts.trans (bcsKept_of_path (by simp))

/-! ### SMBus -/

theorem bcsKept_smbCmd (s : State) (pecOk : Bool) {g : State → State} (h : ∀ s, (g s).path = s.path) :
    s.bcsKept (s.start.smbCmd pecOk g) := by
  refine bcsKept_of_path ?_
  unfold smbCmd
  split
  · exact path_start s
  · split
    · exact (h _).trans (path_start s)
    · exact (path_smbBadPec _).trans (path_start s)

theorem outKept_smbBcs (s : State) (wr : Bool) (v : Word) (pecOk : Bool) : s.outKept (s.start.smbBcs wr v pecOk) := by
  unfold smbBcs
  split
  · exact outKept_next (bcsKept_start s)
  · split
    · exact outKept_next (bcsKept_of_path (by simp))
    · split
      · exact outKept_next (bcsKept_of_path (by simp))
      · exact outKept_bcsRun (bcsKept_start s) _

theorem outKept_execMode (s : State) (lo hi : Byte) (pecOk : Bool) : s.outKept (execMode lo hi pecOk s) := by
  unfold execMode
  extract_lets u good v
  split
  · exact outKept_next (bcsKept_start s)
  · split
    · exact outKept_next (bcsKept_of_path (by simp [u]))
    · split
      · exact outKept_next (bcsKept_of_path (by simp [u]))
      · exact outKept_thenDo (outKept_bcsRun (bcsKept_start s) _) fun _ h => outKept_bcsRun h _

/-! ### The test access port -/

/-- The Landing view is a memory in canonical form (R367). -/
def landForm (m : Land) : Prop := FMap.sorted m.cells = true ∧ (m.epoch = 0 → ∀ p ∈ m.cells, p.2 ≠ 0)

theorem landForm_landPut {m : Land} (h : landForm m) (x : Nat) (b : Byte) : landForm (landPut m x b) := by
  obtain ⟨hs, hz⟩ := h
  unfold landPut
  split
  · next he =>
    refine ⟨FMap.sorted_set 0 x b hs, fun _ p hp => ?_⟩
    unfold FMap.set at hp
    split at hp
    · exact hz he p (FMap.mem_del hp)
    · next hb =>
      rcases FMap.mem_put hp with rfl | hp
      · exact hb
      · exact hz he p hp
  · next he => exact ⟨FMap.sorted_put x b hs, fun h0 => absurd h0 he⟩

theorem landForm_foldl_landPut {m : Land} (h : landForm m) (x : Nat → Nat) (b : Nat → Byte) (ks : List Nat) :
    landForm (ks.foldl (fun m k => landPut m (x k) (b k)) m) := by
  induction ks generalizing m with
  | nil => exact h
  | cons k ks ih => exact ih (landForm_landPut h _ _)

theorem bcsKept_landWrite (s : State) (x : Nat) (bs : List Byte) : s.bcsKept (s.landWrite x bs) := by
  unfold landWrite
  split
  · exact bcsKept_of_path rfl
  · refine ⟨fun ⟨hts, hlen, hslow, hm, hr, hk, hland⟩ => ⟨hts, hlen, hslow, hm, hr, hk, landForm_foldl_landPut ?_ _ _ _⟩, rfl⟩
    unfold landFresh
    split
    · exact hland
    · exact ⟨rfl, fun _ _ h => nomatch h⟩

theorem bcsKept_landAccess (s : State) (a : Acc) (x : Nat) (wr : Bool) (v : Nat) : s.bcsKept (s.landAccess a x wr v) := by
  unfold landAccess
  extract_lets done id u r v src
  have hdone (u : State) (st : Nat) : (done u st).path = u.path := rfl
  split
  · exact bcsKept_of_path (hdone _ _)
  · split
    · exact bcsKept_of_path (by simp [hdone])
    · split
      · exact bcsKept_of_path (by simp [hdone])
      · exact bcsKept_of_path (by simp [hdone])
    · split
      · exact (bcsKept_landWrite _ _ _).trans (bcsKept_of_path (hdone _ _))
      · have hu : u.path = s.path := by
          unfold u
          split <;> simp
        exact bcsKept_of_path ((path_landRead u x).trans hu)

theorem outKept_tapScan (s : State) (c : Byte) (a : Acc) (dr : Nat) : s.outKept (s.start.tapScan c a dr) := by
  unfold tapScan
  extract_lets _ u
  have hu : s.bcsKept u := bcsKept_of_path rfl
  split
  · exact outKept_next hu
  · unfold tapUpdate
    split
    · exact outKept_next hu
    · extract_lets x wr _ v
      have hv : s.bcsKept v := bcsKept_of_path rfl
      split
      · exact outKept_next hv
      · split
        · exact outKept_next (hv.trans (bcsKept_landAccess _ _ _ _ _))
        · exact outKept_bcsRun (bcsKept_of_path rfl) _

/-! ### Every command, and the step -/

theorem outKept_exec (s : State) (c : Instr) : s.outKept (exec c s) := by
  cases c with
  | perstNAssert => exact outKept_execPerstNAssert s
  | perstNRelease straps => exact outKept_execPerstNRelease s _
  | rootPllLock => exact outKept_of_path (State.path_execRootPllLock s)
  | rootPllLockLoss => exact outKept_of_path (State.path_execRootPllLockLoss s)
  | fuseSense f => exact outKept_of_path (State.path_execFuseSense s f)
  | flashDiscovery info => exact outKept_of_path (State.path_execFlashDiscovery s info)
  | settingsRead x y => exact outKept_of_path (State.path_execSettingsRead s x y)
  | slotFetch bytes => exact outKept_of_path (State.path_execSlotFetch s bytes)
  | slotChecks => exact outKept_of_path (State.path_execSlotChecks s)
  | loadCoreVoltage => exact outKept_of_path (State.path_execLoadCoreVoltage s)
  | loadBist r => exact outKept_of_path (State.path_execLoadBist s r)
  | loadCommit => exact outKept_of_path (State.path_execLoadCommit s)
  | loadEnd => exact outKept_of_path (State.path_execLoadEnd s)
  | aliveToggle => exact outKept_of_path (State.path_execAliveToggle s)
  | livenessToken => exact outKept_of_path (State.path_execLivenessToken s)
  | livenessTimeout collectorRuns => exact outKept_of_path (State.path_execLivenessTimeout s collectorRuns)
  | droopNAssert => exact outKept_of_path (State.path_execDroopNAssert s)
  | droopNRelease => exact outKept_of_path (State.path_execDroopNRelease s)
  | stretchRampStep => exact outKept_of_path (State.path_execStretchRampStep s)
  | adaptationResume => exact outKept_of_path (State.path_execAdaptationResume s)
  | tempSensorUpdate t => exact outKept_of_path (State.path_execTempSensorUpdate s t)
  | avsWrite => exact outKept_of_path (State.path_execAvsWrite s)
  | avsTransactionDone ok vread => exact outKept_of_path (State.path_execAvsTransactionDone s ok vread)
  | kickstandSample k => exact outKept_of_path (State.path_execKickstandSample s k)
  | registerWrite a off bytes => exact outKept_bytesWrite s _ _ _
  | clearOnRead a off => exact outKept_bcsRun (bcsKept_start s) _
  | pairLoRead a off => exact outKept_bcsRun (bcsKept_start s) _
  | pairHiRead a off => exact outKept_bcsRun (bcsKept_start s) _
  | aliasWrite a off v => exact outKept_bcsRun (bcsKept_start s) _
  | keyedWrite a off v => exact outKept_bcsRun (bcsKept_start s) _
  | keyPendingExpire off => exact outKept_execKeyPendingExpire s _
  | slowAccessComplete => exact outKept_execSlowAccessComplete s
  | updStrobe a mask => exact outKept_writeRow s _ _ _ _
  | strobeCommit => exact outKept_execStrobeCommit s
  | tableEntryWrite a tbl idx byteOff bytes => exact outKept_bytesWrite s _ _ _
  | wttDiscard a => exact outKept_writeRow s _ _ _ _
  | dvtDiscard a => exact outKept_writeRow s _ _ _ _
  | tblBarrierStart a => exact outKept_writeRow s _ _ _ _
  | tblBarrierDone => exact outKept_of_path (State.path_execTblBarrierDone s)
  | linkBlockReceive link block => exact outKept_of_path (State.path_execLinkBlockReceive s link block)
  | replayTimeout link => exact outKept_of_path (State.path_execReplayTimeout s link)
  | retrainReq link => exact outKept_of_path (State.path_execRetrainReq s link)
  | quietAck link => exact outKept_of_path (State.path_execQuietAck s link)
  | fullReq link => exact outKept_of_path (State.path_execFullReq s link)
  | uncorrThreshold link n => exact outKept_of_path (State.path_execUncorrThreshold s link n)
  | laneLockLoss link lane => exact outKept_of_path (State.path_execLaneLockLoss s link lane)
  | tlkRetrain a link => exact outKept_writeRow s _ _ _ _
  | linkTrainingSuccess link t => exact outKept_of_path (State.path_execLinkTrainingSuccess s link t)
  | linkTrainingFail link lanes => exact outKept_of_path (State.path_execLinkTrainingFail s link lanes)
  | linkTrainTimeout link => exact outKept_of_path (State.path_execLinkTrainTimeout s link)
  | linkRetryInterval link => exact outKept_of_path (State.path_execLinkRetryInterval s link)
  | failover link => exact outKept_of_path (State.path_execFailover s link)
  | downLimit link => exact outKept_of_path (State.path_execDownLimit s link)
  | mrd link h => exact outKept_execMrd s _ _
  | mwr link h bytes => exact outKept_execMwr s _ _ _
  | cpl link h bytes => exact outKept_of_path (State.path_execCpl s link h bytes)
  | cpld link h bytes => exact outKept_of_path (State.path_execCpld s link h bytes)
  | wakeMsg link h body => exact outKept_of_path (State.path_execWakeMsg s link h body)
  | place link h body => exact outKept_of_path (State.path_execPlace s link h body)
  | cplTimeout link tag => exact outKept_of_path (State.path_execCplTimeout s link tag)
  | tagQuarantineEnd link tag => exact outKept_of_path (State.path_execTagQuarantineEnd s link tag)
  | deferredAdmission link => exact outKept_of_path (State.path_execDeferredAdmission s link)
  | oversizeAdmission link => exact outKept_of_path (State.path_execOversizeAdmission s link)
  | c0HeldRelease inst => exact outKept_of_path (State.path_execC0HeldRelease s inst)
  | data port f => exact outKept_of_path (State.path_execData s port f)
  | status port f => exact outKept_of_path (State.path_execStatus s port f)
  | retry port f => exact outKept_of_path (State.path_execRetry s port f)
  | pollResp port f => exact outKept_of_path (State.path_execPollResp s port f)
  | upWr port f => exact outKept_of_path (State.path_execUpWr s port f)
  | upRd port f => exact outKept_of_path (State.path_execUpRd s port f)
  | upData port f => exact outKept_of_path (State.path_execUpData s port f)
  | align port f => exact outKept_of_path (State.path_execAlign s port f)
  | alignSend port => exact outKept_of_path (State.path_execAlignSend s port)
  | coefReq port member f => exact outKept_of_path (State.path_execCoefReq s port member f)
  | coefStat port member f => exact outKept_of_path (State.path_execCoefStat s port member f)
  | txRefresh port member eye => exact outKept_of_path (State.path_execTxRefresh s port member eye)
  | coefNoresp port member => exact outKept_of_path (State.path_execCoefNoresp s port member)
  | exchangeOpen port daddr => exact outKept_of_path (State.path_execExchangeOpen s port daddr)
  | responseTimeout port daddr => exact outKept_of_path (State.path_execResponseTimeout s port daddr)
  | guardEnd port daddr => exact outKept_of_path (State.path_execGuardEnd s port daddr)
  | rsvTimeExpire port daddr => exact outKept_of_path (State.path_execRsvTimeExpire s port daddr)
  | lossCountExpire port daddr => exact outKept_of_path (State.path_execLossCountExpire s port daddr)
  | unlockWr port daddr => exact outKept_of_path (State.path_execUnlockWr s port daddr)
  | lockTimeout port daddr => exact outKept_of_path (State.path_execLockTimeout s port daddr)
  | pollPeriod dn => exact outKept_of_path (State.path_execPollPeriod s dn)
  | attnInterval => exact outKept_of_path (State.path_execAttnInterval s)
  | portLeavesUp port => exact outKept_of_path (State.path_execPortLeavesUp s port)
  | gptRetrain a port => exact outKept_writeRow s _ _ _ _
  | portTrained port => exact outKept_of_path (State.path_execPortTrained s port)
  | portTrainTimeout port => exact outKept_of_path (State.path_execPortTrainTimeout s port)
  | portRetryInterval port => exact outKept_of_path (State.path_execPortRetryInterval s port)
  | downHoldExpire port => exact outKept_of_path (State.path_execDownHoldExpire s port)
  | gptAttnAck a port v => exact outKept_writeRow s _ _ _ _
  | gptAttnUnmute a port v => exact outKept_writeRow s _ _ _ _
  | gptSbiUnmute a v => exact outKept_writeRow s _ _ _ _
  | instAttnAck a inst v => exact outKept_writeRow s _ _ _ _
  | instAttnUnmute a inst v => exact outKept_writeRow s _ _ _ _
  | sqDb a inst q v => exact outKept_writeRow s _ _ _ _
  | qpEnable a inst q v => exact outKept_writeRow s _ _ _ _
  | qpDisable a inst q v => exact outKept_writeRow s _ _ _ _
  | resume a inst q v => exact outKept_writeRow s _ _ _ _
  | cqDb a inst q v => exact outKept_writeRow s _ _ _ _
  | dispatch => exact outKept_of_path (State.path_execDispatch s)
  | startEntryFetched inst q => exact outKept_of_path (State.path_execStartEntryFetched s inst q)
  | ccdFetch ctx => exact outKept_of_path (State.path_execCcdFetch s ctx)
  | ccdAdmission ctx => exact outKept_of_path (State.path_execCcdAdmission s ctx)
  | dataFetch ctx => exact outKept_of_path (State.path_execDataFetch s ctx)
  | completionEntry je => exact outKept_of_path (State.path_execCompletionEntry s je)
  | cqCoalTime inst q => exact outKept_of_path (State.path_execCqCoalTime s inst q)
  | waitAttnTimeout je => exact outKept_of_path (State.path_execWaitAttnTimeout s je)
  | noticeWrite inst => exact outKept_of_path (State.path_execNoticeWrite s inst)
  | pelEnable a inst v => exact outKept_writeRow s _ _ _ _
  | pelHead a inst v => exact outKept_writeRow s _ _ _ _
  | pelResume a inst v => exact outKept_writeRow s _ _ _ _
  | fenceDb a inst v => exact outKept_writeRow s _ _ _ _
  | fenceDone inst => exact outKept_of_path (State.path_execFenceDone s inst)
  | instructionRetry je passes => exact outKept_of_path (State.path_execInstructionRetry s je passes)
  | contextRebuild je => exact outKept_of_path (State.path_execContextRebuild s je)
  | read a v => exact outKept_writeRow s _ _ _ _
  | scan a v => exact outKept_writeRow s _ _ _ _
  | scanDone => exact outKept_of_path (State.path_execScanDone s)
  | abort a v => exact outKept_writeRow s _ _ _ _
  | subbankSwap target spare => exact outKept_of_path (State.path_execSubbankSwap s target spare)
  | watchdogTick => exact outKept_of_path (State.path_execWatchdogTick s)
  | watchdogSelect => exact outKept_of_path (State.path_execWatchdogSelect s)
  | chunkDone je unit => exact outKept_of_path (State.path_execChunkDone s je unit)
  | chunkCheckFail je unit => exact outKept_of_path (State.path_execChunkCheckFail s je unit)
  | kekSet a v comp => exact outKept_keyedOp s _ _ _ _ _ _ _
  | kekClear a v comp => exact outKept_keyedOp s _ _ _ _ _ _ _
  | keyLoad a inst v => exact outKept_writeRow s _ _ _ _
  | keyClear a inst v => exact outKept_writeRow s _ _ _ _
  | keyUnwrap inst => exact outKept_of_path (State.path_execKeyUnwrap s inst)
  | gateDefmap a m v comp => exact outKept_keyedRow s _ _ _ _ _
  | gateDbgUnlock a v comp => exact outKept_keyedRow s _ _ _ _ _
  | gateBarrierStart a => exact outKept_writeRow s _ _ _ _
  | gateBarrierDone => exact outKept_of_path (State.path_execGateBarrierDone s)
  | mgtDb a v => exact outKept_writeRow s _ _ _ _
  | mgtEnable a v => exact outKept_writeRow s _ _ _ _
  | mgtResume a v => exact outKept_writeRow s _ _ _ _
  | create => exact outKept_of_path (State.path_execCreate s)
  | resize => exact outKept_of_path (State.path_execResize s)
  | reset => exact outKept_of_path (State.path_execReset s)
  | destroy => exact outKept_of_path (State.path_execDestroy s)
  | assign => exact outKept_of_path (State.path_execAssign s)
  | release => exact outKept_of_path (State.path_execRelease s)
  | drainTimeout inst => exact outKept_of_path (State.path_execDrainTimeout s inst)
  | resetCompletion inst => exact outKept_of_path (State.path_execResetCompletion s inst)
  | fltChkExercise a v comp => exact outKept_keyedRow s _ _ _ _ _
  | sliceStart => exact outKept_of_path (State.path_execSliceStart s)
  | slicePrepared kind => exact outKept_of_path (State.path_execSlicePrepared s kind)
  | sliceTestDone kind r => exact outKept_of_path (State.path_execSliceTestDone s kind r)
  | sliceTimeLimit kind r => exact outKept_of_path (State.path_execSliceTimeLimit s kind r)
  | sliceRestored kind => exact outKept_of_path (State.path_execSliceRestored s kind)
  | one a v => exact outKept_writeRow s _ _ _ _
  | foreground a v => exact outKept_writeRow s _ _ _ _
  | stop a v => exact outKept_writeRow s _ _ _ _
  | burn a v comp => exact outKept_keyedOp s _ _ _ _ _ _ _
  | engine a v comp => exact outKept_keyedOp s _ _ _ _ _ _ _
  | fuseRecordDone ok => exact outKept_of_path (State.path_execFuseRecordDone s ok)
  | modeReqDoze => exact outKept_of_path (State.path_execModeReqDoze s)
  | modeReqRun => exact outKept_of_path (State.path_execModeReqRun s)
  | modeReqService => exact outKept_of_path (State.path_execModeReqService s)
  | modeReqInvalid t => exact outKept_of_path (State.path_execModeReqInvalid s t)
  | quiescent => exact outKept_of_path (State.path_execQuiescent s)
  | quiesceTimeout => exact outKept_of_path (State.path_execQuiesceTimeout s)
  | dozeEntered => exact outKept_of_path (State.path_execDozeEntered s)
  | clocksUngated => exact outKept_of_path (State.path_execClocksUngated s)
  | dozeExitDone => exact outKept_execDozeExitDone s
  | wakeGrant => exact outKept_of_path (State.path_execWakeGrant s)
  | partUsable p => exact outKept_of_path (State.path_execPartUsable s p)
  | powerDown => exact outKept_of_path (State.path_execPowerDown s)
  | engineIdle eng => exact outKept_of_path (State.path_execEngineIdle s eng)
  | telem pecOk => exact outKept_next (bcsKept_smbCmd s _ fun _ => by simp)
  | mode lo hi pecOk => exact outKept_execMode s _ _ _
  | bcsAddr v pecOk => exact outKept_next (bcsKept_smbCmd s _ fun _ => by simp)
  | bcsRead pecOk => exact outKept_smbBcs s _ _ _
  | bcsWrite v pecOk => exact outKept_smbBcs s _ _ _
  | bcsResult pecOk => exact outKept_next (bcsKept_smbCmd s _ fun _ => by simp)
  | trigger b pecOk => exact outKept_next (bcsKept_smbCmd s _ fun _ => by simp)
  | alerts pecOk => exact outKept_next (bcsKept_smbCmd s _ fun _ => by simp)
  | alertResponseAddress => exact outKept_of_path (State.path_execAlertResponseAddress s)
  | smbusUnknownCommand code => exact outKept_of_path (State.path_execSmbusUnknownCommand s code)
  | extest => exact outKept_of_path (State.path_execExtest s)
  | idcode => exact outKept_of_path (State.path_execIdcode s)
  | samplePreload => exact outKept_of_path (State.path_execSamplePreload s)
  | extestPulse => exact outKept_of_path (State.path_execExtestPulse s)
  | extestTrain => exact outKept_of_path (State.path_execExtestTrain s)
  | clamp => exact outKept_of_path (State.path_execClamp s)
  | highz => exact outKept_of_path (State.path_execHighz s)
  | bypass code => exact outKept_of_path (State.path_execBypass s code)
  | svcAcc dr => exact outKept_tapScan s 0x20 { src := .svc } dr.toNat
  | dapAcc dr => exact outKept_tapScan s 0x21 { src := .dbg } dr.toNat
  | readFlash a v => exact outKept_writeRow s _ _ _ _
  | program a v => exact outKept_writeRow s _ _ _ _
  | erase a v => exact outKept_writeRow s _ _ _ _
  | verify a v => exact outKept_writeRow s _ _ _ _
  | flashCmdComplete bytes err => exact outKept_of_path (State.path_execFlashCmdComplete s bytes err)
  | imgBootCfg a v comp => exact outKept_keyedRow s _ _ _ _ _
  | emptySoftRepairMap a v comp => exact outKept_keyedOp s _ _ _ _ _ _ _
  | emptyFatalRecords a v comp => exact outKept_keyedOp s _ _ _ _ _ _ _
  | forceSettingsWrite a v comp => exact outKept_keyedOp s _ _ _ _ _ _ _
  | imgSvnBurn a v comp => exact outKept_keyedRow s _ _ _ _ _
  | settingsWriteStart => exact outKept_of_path (State.path_execSettingsWriteStart s)
  | settingsWriteDone ok => exact outKept_of_path (State.path_execSettingsWriteDone s ok)
  | settingsWriteTimeout => exact outKept_of_path (State.path_execSettingsWriteTimeout s)
  | closingStatusSent port => exact outKept_of_path (State.path_execClosingStatusSent s port)
  | hubRound => exact outKept_of_path (State.path_execHubRound s)
  | engineIssueCycle eng => exact outKept_of_path (State.path_execEngineIssueCycle s eng)
  | journalWordError je word syn e => exact outKept_of_path (State.path_execJournalWordError s je word syn e)
  | landingWordError sub je syn e => exact outKept_of_path (State.path_execLandingWordError s sub je syn e)
  | tableWordError tbl idx syn e => exact outKept_of_path (State.path_execTableWordError s tbl idx syn e)
  | hubFlitError out je syn e => exact outKept_of_path (State.path_execHubFlitError s out je syn e)
  | configRegisterParityError => exact outKept_of_path (State.path_execConfigRegisterParityError s)
  | arbiterParityError out => exact outKept_of_path (State.path_execArbiterParityError s out)
  | faultCollectorParityError => exact outKept_of_path (State.path_execFaultCollectorParityError s)
  | dataStoreCorrection eng => exact outKept_of_path (State.path_execDataStoreCorrection s eng)
  | vddAonPowerUp => exact outKept_of_path (State.path_execVddAonPowerUp s)
  | svnBurnComplete ok => exact outKept_of_path (State.path_execSvnBurnComplete s ok)
  | trstNAssert => exact outKept_of_path (State.path_execTrstNAssert s)
  | badMsg link h body => exact outKept_of_path (State.path_execBadMsg s link h body)
/-- A REFCLK cycle (log entry 1) keeps GLB_TS within 64 bits. -/
theorem bcsKept_tick (s : State) : s.bcsKept s.tick := by
  unfold tick
  extract_lets u
  have hu : s.bcsKept u := bcsKept_start s
  split
  · exact hu
  · have hts : u.bcsKept { u with ts := (u.ts + 1) % 2 ^ 64 } := ⟨fun h => ⟨Nat.mod_lt _ (by norm_num), h.2⟩, rfl⟩
    refine ((hu.trans hts).trans (bcsKept_of_path (path_slewTick _))).trans ((bcsKept_drain _).trans (bcsKept_of_path ?_))
    simp

end State

/-- Settles O3: a step is a REFCLK cycle, or one of the commands, each of which keeps the form. -/
theorem stepKeepsTheForm : Obligations.StepKeepsTheForm := by
  unfold Obligations.StepKeepsTheForm
  intro s t hs h
  unfold step at h
  split at h
  · next hp =>
    rw [← Host.Outcome.next.inj h]
    obtain ⟨hform, hpend⟩ := s.bcsKept_tick
    exact ⟨hform hs, by rw [hpend, hp, List.tail_nil]⟩
  · next c rest hp =>
    obtain ⟨hform, hpend⟩ := State.outKept_exec { s with pending := rest } c t h
    exact ⟨hform hs, by rw [hpend, hp, List.tail_cons]⟩

end Sys2Proof.Machine
end

section
/-! PROOFS. The forms of Thaty packets (R45 to R48): the words of a header read back, and a packet's bytes spell the packet. -/

namespace Sys2Proof.Machine

/-! ### Bytes of numbers -/

@[simp] theorem length_natBytes (n v : Nat) : (natBytes n v).length = n := by
  induction n with
  | zero => rfl
  | succ n ih => simp [natBytes, ih]

theorem foldl_bytes (a : Nat) (bs : List Byte) :
    bs.foldl (fun a b => a * 256 + b.toNat) a = a * 256 ^ bs.length + bytesNat bs := by
  induction bs generalizing a with
  | nil => simp [bytesNat]
  | cons b bs ih =>
    rw [bytesNat, List.foldl_cons, List.foldl_cons, ih, ih (0 * 256 + b.toNat), List.length_cons, pow_succ]
    ring

/-- Of a number its `n` bytes spell what lies below 256^n. -/
theorem bytesNat_natBytes (n v : Nat) : bytesNat (natBytes n v) = v % 256 ^ n := by
  induction n with
  | zero => simp [natBytes, bytesNat, Nat.mod_one]
  | succ n ih =>
    have hb := foldl_bytes (0 * 256 + (BitVec.ofNat 8 (v / 256 ^ n)).toNat) (natBytes n v)
    rw [natBytes, bytesNat, List.foldl_cons, hb, ih, length_natBytes, BitVec.toNat_ofNat, Nat.mod_pow_succ (b := 256), Nat.zero_mul,
      Nat.zero_add, Nat.mul_comm, Nat.add_comm]

/-- A field that the bytes of a number spell reads as that number, whatever stands before and after them. -/
theorem fieldAt_natBytes {b pre post : List Byte} {o n v : Nat} (hb : b = pre ++ (natBytes n v ++ post)) (ho : pre.length = o)
    (hv : v < 256 ^ n) : fieldAt o n b = v := by
  subst hb ho
  simp [fieldAt, slice, bytesNat_natBytes, Nat.mod_eq_of_lt hv]

/-- A header of four words, with what follows it. -/
def headed (w0 w1 w2 w3 : Nat) (d : List Byte) : List Byte := natBytes 4 w0 ++ natBytes 4 w1 ++ natBytes 4 w2 ++ natBytes 4 w3 ++ d

section
variable {w0 w1 w2 w3 : Nat} (d : List Byte)

theorem headed_word0 (h : w0 < 2 ^ 32) : fieldAt 0 4 (headed w0 w1 w2 w3 d) = w0 :=
  fieldAt_natBytes (pre := []) (by simp [headed]; rfl) rfl h
theorem headed_word1 (h : w1 < 2 ^ 32) : fieldAt 4 4 (headed w0 w1 w2 w3 d) = w1 :=
  fieldAt_natBytes (pre := natBytes 4 w0) (by simp [headed]; rfl) (by simp) h
theorem headed_word2 (h : w2 < 2 ^ 32) : fieldAt 8 4 (headed w0 w1 w2 w3 d) = w2 :=
  fieldAt_natBytes (pre := natBytes 4 w0 ++ natBytes 4 w1) (by simp [headed]; rfl) (by simp) h
theorem headed_word3 (h : w3 < 2 ^ 32) : fieldAt 12 4 (headed w0 w1 w2 w3 d) = w3 :=
  fieldAt_natBytes (pre := natBytes 4 w0 ++ natBytes 4 w1 ++ natBytes 4 w2) (by simp [headed]; rfl) (by simp) h
theorem headed_rest : (headed w0 w1 w2 w3 d).drop 16 = d := List.drop_left' (by simp)

end

/-! ### Fields of header words -/

theorem b2n_le (b : Bool) : b2n b ≤ 1 := by cases b <;> decide

theorem bit_eq {n w : Nat} {b : Bool} (h : w / 2 ^ n % 2 = b2n b) : bit n w = b := by
  cases b <;> simp_all [bit, b2n]

theorem ofNat_eq {n w : Nat} {x : BitVec n} (h : w % 2 ^ n = x.toNat) : BitVec.ofNat n w = x :=
  BitVec.eq_of_toNat_eq (by rw [BitVec.toNat_ofNat, h])

theorem vc_eq {w : Nat} {v : Fin 4} (h : w % 4 = v.val) : Fin.ofNat 4 w = v := Fin.ext h

/-- The first word of a request header (Table 3.4). -/
theorem reqWord0 (h : ReqHdr) (ty : Nat) (hty : ty < 16) :
    let w := ty * 2 ^ 28 + h.vc.val * 2 ^ 26 + b2n h.priv * 2 ^ 25 + b2n h.np * 2 ^ 24 + b2n h.poison * 2 ^ 23 + h.reqId.toNat
    w < 2 ^ 32 ∧ w / 2 ^ 28 = ty ∧ Fin.ofNat 4 (w / 2 ^ 26) = h.vc ∧ bit 25 w = h.priv ∧ bit 24 w = h.np ∧ bit 23 w = h.poison
      ∧ BitVec.ofNat 20 w = h.reqId := by
  intro w
  have hvc := h.vc.isLt
  have hpriv := b2n_le h.priv
  have hnp := b2n_le h.np
  have hpoison := b2n_le h.poison
  have hid := h.reqId.isLt
  refine ⟨by omega, by omega, vc_eq ?_, bit_eq ?_, bit_eq ?_, bit_eq ?_, ofNat_eq ?_⟩ <;> omega

/-- The other words of a request header (Table 3.4). -/
theorem reqWords (h : ReqHdr) (haddr : h.addr.toNat % 8 = 0) :
    let w1 := h.tag.toNat * 2 ^ 16 + h.fbe.toNat * 2 ^ 8 + h.lbe.toNat
    let w2 := h.len.toNat * 2 ^ 22 + h.addr.toNat / 2 ^ 35
    let w3 := h.addr.toNat / 8 % 2 ^ 32
    (w1 < 2 ^ 32 ∧ w2 < 2 ^ 32 ∧ w3 < 2 ^ 32)
      ∧ BitVec.ofNat 16 (w1 / 2 ^ 16) = h.tag ∧ BitVec.ofNat 8 (w1 / 2 ^ 8) = h.fbe ∧ BitVec.ofNat 8 w1 = h.lbe
      ∧ BitVec.ofNat 10 (w2 / 2 ^ 22) = h.len ∧ BitVec.ofNat 56 (w2 % 2 ^ 21 * 2 ^ 35 + w3 * 8) = h.addr := by
  intro w1 w2 w3
  have htag := h.tag.isLt
  have hfbe := h.fbe.isLt
  have hlbe := h.lbe.isLt
  have hlen := h.len.isLt
  have hlt := h.addr.isLt
  refine ⟨⟨by omega, by omega, by omega⟩, ofNat_eq ?_, ofNat_eq ?_, ofNat_eq ?_, ofNat_eq ?_, ofNat_eq ?_⟩ <;> omega

/-- The words of a completion header (Table 3.5). -/
theorem cplWords (h : CplHdr) (ty : Nat) (hty : ty < 16) :
    let w0 := ty * 2 ^ 28 + h.vc.val * 2 ^ 26 + b2n h.poison * 2 ^ 23 + h.destId.toNat
    let w1 := h.tag.toNat * 2 ^ 16 + h.status.toNat * 2 ^ 12 + b2n h.last * 2 ^ 11 + h.len.toNat
    let w2 := h.cmplId.toNat * 2 ^ 12 + h.offset.toNat
    (w0 < 2 ^ 32 ∧ w1 < 2 ^ 32 ∧ w2 < 2 ^ 32) ∧ w0 / 2 ^ 28 = ty
      ∧ Fin.ofNat 4 (w0 / 2 ^ 26) = h.vc ∧ bit 23 w0 = h.poison ∧ BitVec.ofNat 20 w0 = h.destId
      ∧ BitVec.ofNat 16 (w1 / 2 ^ 16) = h.tag ∧ BitVec.ofNat 4 (w1 / 2 ^ 12) = h.status ∧ bit 11 w1 = h.last ∧ BitVec.ofNat 10 w1 = h.len
      ∧ BitVec.ofNat 20 (w2 / 2 ^ 12) = h.cmplId ∧ BitVec.ofNat 9 w2 = h.offset := by
  intro w0 w1 w2
  have hvc := h.vc.isLt
  have hpoison := b2n_le h.poison
  have hdest := h.destId.isLt
  have htag := h.tag.isLt
  have hstatus := h.status.isLt
  have hlast := b2n_le h.last
  have hlen := h.len.isLt
  have hcmpl := h.cmplId.isLt
  have hoff := h.offset.isLt
  refine ⟨⟨by omega, by omega, by omega⟩, by omega, vc_eq ?_, bit_eq ?_, ofNat_eq ?_, ofNat_eq ?_, ofNat_eq ?_, bit_eq ?_, ofNat_eq ?_,
    ofNat_eq ?_, ofNat_eq ?_⟩ <;> omega

/-- The words of a message header (Table 3.6). -/
theorem msgWords (h : MsgHdr) :
    let w0 := 8 * 2 ^ 28 + h.vc.val * 2 ^ 26 + b2n h.priv * 2 ^ 25 + h.destId.toNat
    let w1 := h.code.toNat * 2 ^ 24 + h.len.toNat
    let w2 := h.srcId.toNat * 2 ^ 12
    (w0 < 2 ^ 32 ∧ w1 < 2 ^ 32 ∧ w2 < 2 ^ 32) ∧ w0 / 2 ^ 28 = 8
      ∧ Fin.ofNat 4 (w0 / 2 ^ 26) = h.vc ∧ bit 25 w0 = h.priv ∧ BitVec.ofNat 20 w0 = h.destId
      ∧ BitVec.ofNat 8 (w1 / 2 ^ 24) = h.code ∧ BitVec.ofNat 4 w1 = h.len ∧ BitVec.ofNat 20 (w2 / 2 ^ 12) = h.srcId := by
  intro w0 w1 w2
  have hvc := h.vc.isLt
  have hpriv := b2n_le h.priv
  have hdest := h.destId.isLt
  have hcode := h.code.isLt
  have hlen := h.len.isLt
  have hsrc := h.srcId.isLt
  refine ⟨⟨by omega, by omega, by omega⟩, by omega, vc_eq ?_, bit_eq ?_, ofNat_eq ?_, ofNat_eq ?_, ofNat_eq ?_, ofNat_eq ?_⟩ <;> omega

/-! ### Packets -/

theorem reqBytes_headed (h : ReqHdr) (ty : Nat) (d : List Byte) :
    reqBytes h ty ++ d = headed
      (ty * 2 ^ 28 + h.vc.val * 2 ^ 26 + b2n h.priv * 2 ^ 25 + b2n h.np * 2 ^ 24 + b2n h.poison * 2 ^ 23 + h.reqId.toNat)
      (h.tag.toNat * 2 ^ 16 + h.fbe.toNat * 2 ^ 8 + h.lbe.toNat) (h.len.toNat * 2 ^ 22 + h.addr.toNat / 2 ^ 35)
      (h.addr.toNat / 8 % 2 ^ 32) d := rfl

theorem packetOf_mrd (h : ReqHdr) (haddr : h.addr.toNat % 8 = 0) (hnp : h.np = false) (hpoison : h.poison = false) :
    packetOf (reqBytes h 1) = some (.mrd h) := by
  obtain ⟨hw0, hty, hvc, hpriv, -, -, hid⟩ := reqWord0 h 1 (by omega)
  obtain ⟨⟨hw1, hw2, hw3⟩, htag, hfbe, hlbe, hlen, ha⟩ := reqWords h haddr
  rw [← List.append_nil (reqBytes h 1), reqBytes_headed]
  simp only [packetOf, headed_word0 _ hw0, headed_word1 _ hw1, headed_word2 _ hw2, headed_word3 _ hw3, hty, hvc, hpriv, hid, htag, hfbe,
    hlbe, hlen, ha]
  cases h
  cases hnp
  cases hpoison
  rfl

theorem packetOf_mwr (h : ReqHdr) (haddr : h.addr.toNat % 8 = 0) (d : List Byte) : packetOf (reqBytes h 2 ++ d) = some (.mwr h d) := by
  obtain ⟨hw0, hty, hvc, hpriv, hnp, hpoison, hid⟩ := reqWord0 h 2 (by omega)
  obtain ⟨⟨hw1, hw2, hw3⟩, htag, hfbe, hlbe, hlen, ha⟩ := reqWords h haddr
  rw [reqBytes_headed]
  simp only [packetOf, headed_word0 _ hw0, headed_word1 _ hw1, headed_word2 _ hw2, headed_word3 _ hw3, headed_rest, hty, hvc, hpriv, hnp,
    hpoison, hid, htag, hfbe, hlbe, hlen, ha]

theorem cplBytes_headed (h : CplHdr) (ty : Nat) (d : List Byte) :
    cplBytes h ty ++ d = headed (ty * 2 ^ 28 + h.vc.val * 2 ^ 26 + b2n h.poison * 2 ^ 23 + h.destId.toNat)
      (h.tag.toNat * 2 ^ 16 + h.status.toNat * 2 ^ 12 + b2n h.last * 2 ^ 11 + h.len.toNat) (h.cmplId.toNat * 2 ^ 12 + h.offset.toNat) 0 d :=
  rfl

theorem packetOf_cpl (h : CplHdr) (hp : h.poison = false) (d : List Byte) : packetOf (cplBytes h 4 ++ d) = some (.cpl h d) := by
  obtain ⟨⟨hw0, hw1, hw2⟩, hty, hvc, -, hdest, htag, hstatus, hlast, hlen, hcmpl, hoff⟩ := cplWords h 4 (by omega)
  rw [cplBytes_headed]
  simp only [packetOf, headed_word0 _ hw0, headed_word1 _ hw1, headed_word2 _ hw2, headed_rest, hty, hvc, hdest, htag, hstatus, hlast, hlen,
    hcmpl, hoff, ← hp]

theorem packetOf_cpld (h : CplHdr) (d : List Byte) : packetOf (cplBytes h 5 ++ d) = some (.cpld h d) := by
  obtain ⟨⟨hw0, hw1, hw2⟩, hty, hvc, hpoison, hdest, htag, hstatus, hlast, hlen, hcmpl, hoff⟩ := cplWords h 5 (by omega)
  rw [cplBytes_headed]
  simp only [packetOf, headed_word0 _ hw0, headed_word1 _ hw1, headed_word2 _ hw2, headed_rest, hty, hvc, hpoison, hdest, htag, hstatus, hlast,
    hlen, hcmpl, hoff]

theorem msgBytes_headed (h : MsgHdr) (d : List Byte) :
    msgBytes h ++ d = headed (8 * 2 ^ 28 + h.vc.val * 2 ^ 26 + b2n h.priv * 2 ^ 25 + h.destId.toNat) (h.code.toNat * 2 ^ 24 + h.len.toNat)
      (h.srcId.toNat * 2 ^ 12) h.arg.toNat d := rfl

theorem packetOf_msg (h : MsgHdr) (d : List Byte) : packetOf (msgBytes h ++ d) = some (.msg h d) := by
  obtain ⟨⟨hw0, hw1, hw2⟩, hty, hvc, hpriv, hdest, hcode, hlen, hsrc⟩ := msgWords h
  have harg : BitVec.ofNat 32 h.arg.toNat = h.arg := ofNat_eq (Nat.mod_eq_of_lt h.arg.isLt)
  rw [msgBytes_headed]
  simp only [packetOf, headed_word0 _ hw0, headed_word1 _ hw1, headed_word2 _ hw2, headed_word3 _ h.arg.isLt, headed_rest, hty, hvc, hpriv, hdest,
    hcode, hlen, hsrc, harg]

/-- Settles O4: the words of each form read back field by field. -/
theorem packetsRoundTrip : Obligations.PacketsRoundTrip := by
  unfold Obligations.PacketsRoundTrip
  intro p hp
  cases p with
  | mrd h =>
    obtain ⟨hnp, hpoison, haddr⟩ := hp
    exact packetOf_mrd h haddr hnp hpoison
  | mwr h d => exact packetOf_mwr h hp d
  | cpl h d => exact packetOf_cpl h hp d
  | cpld h d => exact packetOf_cpld h d
  | msg h d => exact packetOf_msg h d

end Sys2Proof.Machine
end

section
/-! PROOFS. More laws of finite maps: what is listed, and what is found. -/

namespace Sys2Proof.Machine.FMap

variable {α β : Type}

theorem mem_of_find {k : Nat} {v : α} {m : FMap α} (h : FMap.find k m = some v) : (k, v) ∈ m := by
  induction m with
  | nil => cases h
  | cons p m ih =>
    obtain ⟨j, w⟩ := p
    rw [FMap.find_cons] at h
    split at h
    · next hj =>
      obtain rfl := Option.some.inj h
      simp [hj]
    · exact List.mem_cons_of_mem _ (ih h)

theorem find_of_mem {k : Nat} {v : α} {m : FMap α} (hs : FMap.sorted m = true) (h : (k, v) ∈ m) : FMap.find k m = some v := by
  rw [FMap.sorted_iff] at hs
  induction m with
  | nil => cases h
  | cons p m ih =>
    obtain ⟨j, w⟩ := p
    obtain ⟨hj, hm⟩ := List.pairwise_cons.mp hs
    rcases List.mem_cons.mp h with heq | hmem
    · cases heq
      simp [FMap.find_cons]
    · rw [FMap.find_cons, if_neg (hj _ hmem).ne]
      exact ih hm hmem

theorem find_eq_none {k : Nat} {m : FMap α} : FMap.find k m = none ↔ ∀ p ∈ m, p.1 ≠ k := by
  induction m with
  | nil => simp
  | cons p m ih =>
    obtain ⟨j, w⟩ := p
    rw [FMap.find_cons]
    split <;> simp_all

/-- A map over the values changes what is found, not where. -/
theorem find_map (g : Nat → α → β) (k : Nat) (m : FMap α) :
    FMap.find k (m.map fun p => (p.1, g p.1 p.2)) = (FMap.find k m).map (g k) := by
  induction m with
  | nil => rfl
  | cons p m ih =>
    obtain ⟨j, w⟩ := p
    rw [List.map_cons, FMap.find_cons, FMap.find_cons, ih]
    split
    · next hj =>
      obtain rfl : j = k := hj
      rfl
    · rfl

theorem get_map {g : Nat → α → α} {d : α} {k : Nat} (hd : g k d = d) (m : FMap α) :
    FMap.get d k (m.map fun p => (p.1, g p.1 p.2)) = g k (FMap.get d k m) := by
  rw [FMap.get, FMap.get, find_map]
  cases FMap.find k m <;> simp [hd]

theorem sorted_filter {m : FMap α} (h : FMap.sorted m = true) (f : Nat × α → Bool) : FMap.sorted (m.filter f) = true := by
  rw [FMap.sorted_iff] at *
  exact h.filter f

end Sys2Proof.Machine.FMap
end

section
/-! PROOFS. Frames: which register words a named update leaves alone, what a message sent changes, and what a raised fault below the fatal class
changes. -/

namespace Sys2Proof.Machine

namespace State

/-! ### Registers left alone -/

theorem onlyRegs_of_regs {s t : State} (h : t.regs = s.regs) (xs : List (RegId × Nat)) : s.onlyRegs t xs := fun k _ => by rw [h]

theorem onlyRegs.trans {s t u : State} {xs : List (RegId × Nat)} (h : s.onlyRegs t xs) (h' : t.onlyRegs u xs) : s.onlyRegs u xs :=
  fun k hk => (h' k hk).trans (h k hk)

theorem onlyRegs.mono {s t : State} {xs ys : List (RegId × Nat)} (h : s.onlyRegs t xs) (hsub : xs ⊆ ys) : s.onlyRegs t ys :=
  fun k hk => h k fun p hp => hk p (hsub hp)

theorem onlyRegs_setReg (s : State) {id : RegId} {i : Nat} {xs : List (RegId × Nat)} (h : (id, i) ∈ xs) (w : Word) :
    s.onlyRegs (s.setReg id i w) xs := fun k hk => by
  rw [setReg_regs, FMap.find_set_ne (Ne.symm (hk (id, i) h))]

theorem onlyRegs_setF (s : State) {x : Fld} {i : Nat} {xs : List (RegId × Nat)} (h : (x.id, i) ∈ xs) (v : Nat) :
    s.onlyRegs (s.setF x v i) xs := onlyRegs_setReg s h _

theorem onlyRegs_incF (s : State) {x : Fld} {i : Nat} {xs : List (RegId × Nat)} (h : (x.id, i) ∈ xs) (n : Nat) :
    s.onlyRegs (s.incF x i n) xs := onlyRegs_setReg s h _

theorem onlyRegs_maxF (s : State) {x : Fld} {i : Nat} {xs : List (RegId × Nat)} (h : (x.id, i) ∈ xs) (v : Nat) :
    s.onlyRegs (s.maxF x v i) xs := onlyRegs_setReg s h _

/-- A register apart from the listed ones keeps its word. -/
theorem onlyRegs.reg_eq {s t : State} {xs : List (RegId × Nat)} (h : s.onlyRegs t xs) {id : RegId} {i : Nat}
    (hne : ∀ p ∈ xs, regOff p.1 p.2 ≠ regOff id i) : t.reg id i = s.reg id i := by
  rw [reg, reg, FMap.get, FMap.get, h _ hne]

theorem onlyRegs.f_eq {s t : State} {xs : List (RegId × Nat)} (h : s.onlyRegs t xs) {x : Fld} {i : Nat}
    (hne : ∀ p ∈ xs, regOff p.1 p.2 ≠ regOff x.id i) : t.f x i = s.f x i := by
  rw [f, f, h.reg_eq hne]

theorem onlyFields_of_regs {s t : State} (h : t.regs = s.regs) (xs : List (Fld × Nat)) : s.onlyFields t xs :=
  ⟨fun k _ => by rw [h], fun p _ n _ => by rw [reg_congr h]⟩

theorem onlyFields.trans {s t u : State} {xs : List (Fld × Nat)} (h : s.onlyFields t xs) (h' : t.onlyFields u xs) : s.onlyFields u xs :=
  ⟨fun k hk => (h'.1 k hk).trans (h.1 k hk), fun p hp n hn => (h'.2 p hp n hn).trans (h.2 p hp n hn)⟩

/-- The listed fields that share a word with `x` name it alike. -/
abbrev wordsApart (x : Fld) (i : Nat) (xs : List (Fld × Nat)) : Prop :=
  ∀ p ∈ xs, regOff p.1.id p.2 = regOff x.id i → p.1.id = x.id ∧ p.2 = i

theorem onlyFields_setF (s : State) {x : Fld} {i : Nat} {xs : List (Fld × Nat)} (hmem : (x, i) ∈ xs) (hfit : x.fits)
    (hw : wordsApart x i xs) (v : Nat) : s.onlyFields (s.setF x v i) xs := by
  refine ⟨fun k hk => ?_, fun p hp n hn => ?_⟩
  · rw [setF_regs, FMap.find_set_ne (Ne.symm (hk (x, i) hmem))]
  · by_cases hoff : regOff p.1.id p.2 = regOff x.id i
    · obtain ⟨hid, hi⟩ := hw p hp hoff
      rw [hid, hi, setF, reg_setReg_same]
      exact bits_setBits_apart hfit.1 hfit.2 (hn (x, i) hmem hoff.symm).symm v _
    · rw [reg_setF_ne s hoff]

theorem onlyFields_incF (s : State) {x : Fld} {i : Nat} {xs : List (Fld × Nat)} (hmem : (x, i) ∈ xs) (hfit : x.fits)
    (hw : wordsApart x i xs) (n : Nat) : s.onlyFields (s.incF x i n) xs := onlyFields_setF s hmem hfit hw _

theorem onlyFields_maxF (s : State) {x : Fld} {i : Nat} {xs : List (Fld × Nat)} (hmem : (x, i) ∈ xs) (hfit : x.fits)
    (hw : wordsApart x i xs) (v : Nat) : s.onlyFields (s.maxF x v i) xs := onlyFields_setF s hmem hfit hw _

/-! A frame goes on through a named update, and through what leaves the register words alone. -/

theorem onlyFields.congr {s t u : State} {xs : List (Fld × Nat)} (h : s.onlyFields t xs) (hu : u.regs = t.regs) : s.onlyFields u xs :=
  h.trans (onlyFields_of_regs hu xs)

theorem onlyFields.setF {s t : State} {xs : List (Fld × Nat)} (h : s.onlyFields t xs) {x : Fld} {i : Nat} (hmem : (x, i) ∈ xs) (hfit : x.fits)
    (hw : wordsApart x i xs) (v : Nat) : s.onlyFields (t.setF x v i) xs := h.trans (onlyFields_setF t hmem hfit hw v)

theorem onlyFields.incF {s t : State} {xs : List (Fld × Nat)} (h : s.onlyFields t xs) {x : Fld} {i : Nat} (hmem : (x, i) ∈ xs) (hfit : x.fits)
    (hw : wordsApart x i xs) (n : Nat) : s.onlyFields (t.incF x i n) xs := h.trans (onlyFields_incF t hmem hfit hw n)

theorem onlyFields.maxF {s t : State} {xs : List (Fld × Nat)} (h : s.onlyFields t xs) {x : Fld} {i : Nat} (hmem : (x, i) ∈ xs) (hfit : x.fits)
    (hw : wordsApart x i xs) (v : Nat) : s.onlyFields (t.maxF x v i) xs := h.trans (onlyFields_maxF t hmem hfit hw v)

theorem onlyFields.refl (s : State) (xs : List (Fld × Nat)) : s.onlyFields s xs := onlyFields_of_regs rfl xs

theorem onlyRegs.congr {s t u : State} {xs : List (RegId × Nat)} (h : s.onlyRegs t xs) (hu : u.regs = t.regs) : s.onlyRegs u xs :=
  h.trans (onlyRegs_of_regs hu xs)

theorem onlyRegs.setReg {s t : State} {xs : List (RegId × Nat)} (h : s.onlyRegs t xs) {id : RegId} {i : Nat} (hmem : (id, i) ∈ xs) (w : Word) :
    s.onlyRegs (t.setReg id i w) xs := h.trans (onlyRegs_setReg t hmem w)

theorem onlyRegs.setF {s t : State} {xs : List (RegId × Nat)} (h : s.onlyRegs t xs) {x : Fld} {i : Nat} (hmem : (x.id, i) ∈ xs) (v : Nat) :
    s.onlyRegs (t.setF x v i) xs := h.trans (onlyRegs_setF t hmem v)

theorem onlyRegs.incF {s t : State} {xs : List (RegId × Nat)} (h : s.onlyRegs t xs) {x : Fld} {i : Nat} (hmem : (x.id, i) ∈ xs) (n : Nat) :
    s.onlyRegs (t.incF x i n) xs := h.trans (onlyRegs_incF t hmem n)

theorem onlyRegs.maxF {s t : State} {xs : List (RegId × Nat)} (h : s.onlyRegs t xs) {x : Fld} {i : Nat} (hmem : (x.id, i) ∈ xs) (v : Nat) :
    s.onlyRegs (t.maxF x v i) xs := h.trans (onlyRegs_maxF t hmem v)

theorem onlyRegs.refl (s : State) (xs : List (RegId × Nat)) : s.onlyRegs s xs := onlyRegs_of_regs rfl xs

theorem wordsApart_singleton (x : Fld) (i : Nat) : wordsApart x i [(x, i)] := by
  simp [wordsApart]

theorem onlyBlocks_of_regs {s t : State} (h : t.regs = s.regs) (bs : List Block) : s.onlyBlocks t bs := fun k _ => by rw [h]

theorem onlyBlocks.trans {s t u : State} {bs : List Block} (h : s.onlyBlocks t bs) (h' : t.onlyBlocks u bs) : s.onlyBlocks u bs :=
  fun k hk => (h' k hk).trans (h k hk)

theorem onlyBlocks.mono {s t : State} {bs cs : List Block} (h : s.onlyBlocks t bs) (hsub : bs ⊆ cs) : s.onlyBlocks t cs :=
  fun k hk => h k fun b hb hmem => hk b hb (hsub hmem)

theorem onlyBlocks_setReg (s : State) {id : RegId} {i : Nat} {bs : List Block} {b : Block} (hb : blockAt (regOff id i) = some b) (hmem : b ∈ bs)
    (w : Word) : s.onlyBlocks (s.setReg id i w) bs := fun k hk => by
  have hne : k ≠ regOff id i := by
    rintro rfl
    exact hk b hb hmem
  rw [setReg_regs, FMap.find_set_ne hne]

theorem onlyBlocks_setF (s : State) {x : Fld} {i : Nat} {bs : List Block} {b : Block} (hb : blockAt (regOff x.id i) = some b) (hmem : b ∈ bs)
    (v : Nat) : s.onlyBlocks (s.setF x v i) bs := onlyBlocks_setReg s hb hmem _

theorem onlyBlocks_incF (s : State) {x : Fld} {i : Nat} {bs : List Block} {b : Block} (hb : blockAt (regOff x.id i) = some b) (hmem : b ∈ bs)
    (n : Nat) : s.onlyBlocks (s.incF x i n) bs := onlyBlocks_setReg s hb hmem _

theorem onlyBlocks_maxF (s : State) {x : Fld} {i : Nat} {bs : List Block} {b : Block} (hb : blockAt (regOff x.id i) = some b) (hmem : b ∈ bs)
    (v : Nat) : s.onlyBlocks (s.maxF x v i) bs := onlyBlocks_setReg s hb hmem _

theorem onlyBlocks.congr {s t u : State} {bs : List Block} (h : s.onlyBlocks t bs) (hu : u.regs = t.regs) : s.onlyBlocks u bs :=
  h.trans (onlyBlocks_of_regs hu bs)

theorem onlyBlocks.setReg {s t : State} {bs : List Block} (h : s.onlyBlocks t bs) {id : RegId} {i : Nat} {b : Block}
    (hb : blockAt (regOff id i) = some b) (hmem : b ∈ bs) (w : Word) : s.onlyBlocks (t.setReg id i w) bs := h.trans (onlyBlocks_setReg t hb hmem w)

theorem onlyBlocks.setF {s t : State} {bs : List Block} (h : s.onlyBlocks t bs) {x : Fld} {i : Nat} {b : Block}
    (hb : blockAt (regOff x.id i) = some b) (hmem : b ∈ bs) (v : Nat) : s.onlyBlocks (t.setF x v i) bs := h.trans (onlyBlocks_setF t hb hmem v)

theorem onlyBlocks.incF {s t : State} {bs : List Block} (h : s.onlyBlocks t bs) {x : Fld} {i : Nat} {b : Block}
    (hb : blockAt (regOff x.id i) = some b) (hmem : b ∈ bs) (n : Nat) : s.onlyBlocks (t.incF x i n) bs := h.trans (onlyBlocks_incF t hb hmem n)

theorem onlyBlocks.refl (s : State) (bs : List Block) : s.onlyBlocks s bs := onlyBlocks_of_regs rfl bs

theorem onlyBlocks.reg_eq {s t : State} {bs : List Block} (h : s.onlyBlocks t bs) {id : RegId} {i : Nat} {b : Block}
    (hb : blockAt (regOff id i) = some b) (hmem : b ∉ bs) : t.reg id i = s.reg id i := by
  rw [reg, reg, FMap.get, FMap.get, h]
  rintro c hc
  obtain rfl : b = c := Option.some.inj (hb.symm.trans hc)
  exact hmem

theorem onlyBlocks.f_eq {s t : State} {bs : List Block} (h : s.onlyBlocks t bs) {x : Fld} {i : Nat} {b : Block}
    (hb : blockAt (regOff x.id i) = some b) (hmem : b ∉ bs) : t.f x i = s.f x i := by
  rw [f, f, h.reg_eq hb hmem]

/-! ### Registers alone changed -/

/-- The state but for its register words. -/
def offRegs (s : State) : State := { s with regs := [] }

theorem eq_of_offRegs {s t : State} (h : t.offRegs = s.offRegs) : t = { s with regs := t.regs } :=
  congrArg (fun u : State => { u with regs := t.regs }) h

@[simp] theorem offRegs_setReg (s : State) (id : RegId) (i : Nat) (w : Word) : (s.setReg id i w).offRegs = s.offRegs := rfl
@[simp] theorem offRegs_setF (s : State) (x : Fld) (v i : Nat) : (s.setF x v i).offRegs = s.offRegs := offRegs_setReg s _ _ _
@[simp] theorem offRegs_incF (s : State) (x : Fld) (i n : Nat) : (s.incF x i n).offRegs = s.offRegs := offRegs_setF s _ _ _
@[simp] theorem offRegs_maxF (s : State) (x : Fld) (v i : Nat) : (s.maxF x v i).offRegs = s.offRegs := offRegs_setF s _ _ _
@[simp] theorem offRegs_setPair (s : State) (lo hi : Fld) (v i : Nat) : (s.setPair lo hi v i).offRegs = s.offRegs := by
  rw [setPair, offRegs_setF, offRegs_setF]

/-! ### A message sent -/

/-- The state but for the links and what goes out. -/
def offLinks (s : State) : State := { s with links := [], outp := [] }

theorem eq_of_offLinks {s t : State} (h : t.offLinks = s.offLinks) : t = { s with links := t.links, outp := t.outp } :=
  congrArg (fun u : State => { u with links := t.links, outp := t.outp }) h

theorem offLinks_regs {s t : State} (h : t.offLinks = s.offLinks) : t.regs = s.regs :=
  (congrArg State.regs h : t.offLinks.regs = s.offLinks.regs)

@[simp] theorem offLinks_emit (s : State) (o : Output) : (s.emit o).offLinks = s.offLinks := rfl
@[simp] theorem offLinks_modLink (s : State) (l : Nat) (g : Link → Link) : (s.modLink l g).offLinks = s.offLinks := rfl
@[simp] theorem offLinks_sendBlock (s : State) (l : Nat) (pkt : Option TxPkt) (fpo : Nat) (stream : List Byte) :
    (sendBlock l pkt fpo stream s).offLinks = s.offLinks := rfl

@[simp] theorem offLinks_sendBlocks (s : State) (l : Nat) (t : TxPkt) (fpo : Nat) (cs : List (List Byte)) :
    (sendBlocks l t fpo cs s).offLinks = s.offLinks := by
  fun_induction sendBlocks l t fpo cs s with
  | case1 => rfl
  | case2 => rfl
  | case3 fpo s b bs hne ih => exact ih

@[simp] theorem offLinks_pump (s : State) (l n : Nat) : (pump l n s).offLinks = s.offLinks := by
  fun_induction pump l n s with
  | case5 => simp_all
  | _ => rfl

@[simp] theorem offLinks_pumpLink (s : State) (l : Nat) : (s.pumpLink l).offLinks = s.offLinks := offLinks_pump s l _

@[simp] theorem offLinks_handPkt (s : State) (l : Nat) (t : TxPkt) : (s.handPkt l t).offLinks = s.offLinks := by
  simp [handPkt]

@[simp] theorem offLinks_handTx (s : State) (l : Nat) (p : Packet) (frees : List Nat) : (s.handTx l p frees).offLinks = s.offLinks :=
  offLinks_handPkt s l _

@[simp] theorem offLinks_sendMsg (s : State) (l vc dest code arg : Nat) (body : List Byte) (frees : List Nat) :
    (s.sendMsg l vc dest code arg body frees).offLinks = s.offLinks := by
  unfold sendMsg
  split <;> simp

@[simp] theorem offLinks_sendEventVc (s : State) (inst code vc add : Nat) (body : List Byte) :
    (s.sendEventVc inst code vc add body).offLinks = s.offLinks := by
  unfold sendEventVc
  split <;> simp

@[simp] theorem offLinks_sendEvent (s : State) (inst code : Nat) (body : List Byte) : (s.sendEvent inst code body).offLinks = s.offLinks :=
  offLinks_sendEventVc s inst code _ _ _

/-! ### A fault below the fatal class -/

/-- The state but for what a fault below the fatal class changes. -/
def offFault (s : State) : State :=
  { s with regs := [], links := [], outp := [], flt := { s.flt with srcCnt := [], firstNow := false, last := [] } }

theorem eq_of_offFault {s t : State} (h : t.offFault = s.offFault) :
    t = { s with
      regs := t.regs, links := t.links, outp := t.outp
      flt := { s.flt with srcCnt := t.flt.srcCnt, firstNow := t.flt.firstNow, last := t.flt.last } } :=
  congrArg (fun u : State => { u with
    regs := t.regs, links := t.links, outp := t.outp
    flt := { u.flt with srcCnt := t.flt.srcCnt, firstNow := t.flt.firstNow, last := t.flt.last } }) h

theorem flt_of_offFault {s t : State} (h : t.offFault = s.offFault) : t.flt.evEn = s.flt.evEn ∧ t.flt.haltNow = s.flt.haltNow :=
  ⟨(congrArg (fun u : State => u.flt.evEn) h : t.offFault.flt.evEn = s.offFault.flt.evEn),
    (congrArg (fun u : State => u.flt.haltNow) h : t.offFault.flt.haltNow = s.offFault.flt.haltNow)⟩

theorem offFault_of_offLinks {s t : State} (h : t.offLinks = s.offLinks) : t.offFault = s.offFault :=
  congrArg (fun u : State => { u with regs := [], flt := { u.flt with srcCnt := [], firstNow := false, last := [] } }) h

@[simp] theorem offFault_setReg (s : State) (id : RegId) (i : Nat) (w : Word) : (s.setReg id i w).offFault = s.offFault := rfl
@[simp] theorem offFault_setF (s : State) (x : Fld) (v i : Nat) : (s.setF x v i).offFault = s.offFault := offFault_setReg s _ _ _
@[simp] theorem offFault_incF (s : State) (x : Fld) (i n : Nat) : (s.incF x i n).offFault = s.offFault := offFault_setF s _ _ _
@[simp] theorem offFault_maxF (s : State) (x : Fld) (v i : Nat) : (s.maxF x v i).offFault = s.offFault := offFault_setF s _ _ _
@[simp] theorem offFault_setPair (s : State) (lo hi : Fld) (v i : Nat) : (s.setPair lo hi v i).offFault = s.offFault := by
  simp [setPair]
theorem offFault_modFlt (s : State) {g : Flt → Flt} (h : ∀ x, { g x with srcCnt := [], firstNow := false, last := [] }
    = { x with srcCnt := [], firstNow := false, last := [] }) : (s.modFlt g).offFault = s.offFault := by
  simp only [offFault, modFlt, h]

@[simp] theorem offFault_writeRecord (s : State) (src syn : Nat) : (s.writeRecord src syn).offFault = s.offFault := by
  simp [writeRecord]

@[simp] theorem offFault_noteFault (s : State) (src : Nat) : (s.noteFault src).offFault = s.offFault := by
  rw [noteFault, offFault_maxF]
  exact offFault_modFlt s fun _ => rfl

@[simp] theorem offFault_capture (s : State) (src syn : Nat) : (s.capture src syn).offFault = s.offFault := by
  rcases s.capture_cases src syn with h | h | h <;> rw [h]
  · exact (offFault_modFlt _ fun _ => rfl).trans (offFault_writeRecord s src syn)
  · simp
  · simp

theorem offFault_faultEvent (s : State) (src dest : Nat) {send : State → State} (h : ∀ t, (send t).offFault = t.offFault) :
    (s.faultEvent src dest send).offFault = s.offFault := by
  unfold faultEvent
  split_ifs
  · rfl
  · simp
  · exact (h _).trans (offFault_modFlt s fun _ => rfl)

@[simp] theorem offFault_faultDestEvent (s : State) (src syn : Nat) : (s.faultDestEvent src syn).offFault = s.offFault := by
  unfold faultDestEvent
  split
  · exact offFault_faultEvent s src 256 fun t => offFault_of_offLinks (offLinks_sendMsg ..)
  · rfl

@[simp] theorem offFault_faultInstEvent (s : State) (src syn inst : Nat) : (s.faultInstEvent src syn inst).offFault = s.offFault := by
  unfold faultInstEvent
  split
  · exact offFault_faultEvent s src inst fun t => offFault_of_offLinks (offLinks_sendEvent ..)
  · rfl

theorem offFault_classAct (s : State) {src : Nat} (hc : srcClass src ≠ 3) (syn : Nat) (inst : Option Nat) :
    (s.classAct src syn inst).offFault = s.offFault := by
  unfold classAct
  split
  · dsimp only
    split <;> simp
  · dsimp only
    split <;> simp
  · contradiction
  · rfl

/-- A fault below the fatal class changes registers, the links and what goes out, and of the fault collector its counts and records alone. -/
theorem offFault_raise (s : State) {src : Nat} (hc : srcClass src ≠ 3) (hn : s.flt.haltNow = false) (unit : Nat) (inst je : Option Nat)
    (detail : Nat) : (s.raise src unit inst je detail).offFault = s.offFault := by
  by_cases hm : s.mode = .reset
  · simp [raise, hm]
  · have hact := ((((s.noteFault src).capture src (syndrome unit inst je detail)).offFault_classAct hc
      (syndrome unit inst je detail) inst).trans (offFault_capture _ _ _)).trans (s.offFault_noteFault src)
    have hnow : (((s.noteFault src).capture src (syndrome unit inst je detail)).classAct src (syndrome unit inst je detail) inst).flt.haltNow
        = false := (congrArg (fun u : State => u.flt.haltNow) hact).trans hn
    rw [raise_eq s src unit inst je detail hm, if_neg (by simp [hnow])]
    exact hact

/-! What a fault writes lies in the block FLT. -/

theorem onlyBlocks_writeRecord (s : State) (src syn : Nat) : s.onlyBlocks (s.writeRecord src syn) [.flt] := by
  have hset (t : State) (x : Fld) (v : Nat) (hx : x.id ∈ recordRegs) : t.onlyBlocks (t.setF x v) [.flt] := by
    have hflt : ∀ id ∈ recordRegs, blockAt (regOff id 0) = some .flt := by decide
    exact onlyBlocks_setF t (hflt _ hx) (by decide) v
  unfold writeRecord setPair
  refine ((((((hset _ _ _ ?_).trans (hset _ _ _ ?_)).trans (hset _ _ _ ?_)).trans (hset _ _ _ ?_)).trans (hset _ _ _ ?_)).trans
    (hset _ _ _ ?_)).trans (hset _ _ _ ?_) <;> decide

theorem onlyBlocks_capture (s : State) (src syn : Nat) : s.onlyBlocks (s.capture src syn) [.flt] := by
  have hovf : s.onlyBlocks (s.setF Fld.fltFirstSrc_ovf 1) [.flt] := onlyBlocks_setF s (b := .flt) (by decide) (by decide) 1
  rcases s.capture_cases src syn with h | h | h <;> rw [h]
  · exact (s.onlyBlocks_writeRecord src syn).trans (onlyBlocks_of_regs (modFlt_regs _ _) _)
  · exact hovf.trans (onlyBlocks_writeRecord _ src syn)
  · exact hovf

theorem onlyBlocks_faultEvent (s : State) (src dest : Nat) {send : State → State} (h : ∀ t, (send t).regs = t.regs) :
    s.onlyBlocks (s.faultEvent src dest send) [.flt] := by
  unfold faultEvent
  split_ifs
  · exact onlyBlocks_of_regs rfl _
  · exact onlyBlocks_incF s (b := .flt) (by decide) (by decide) 1
  · exact onlyBlocks_of_regs ((h _).trans (modFlt_regs _ _)) _

theorem onlyBlocks_faultDestEvent (s : State) (src syn : Nat) : s.onlyBlocks (s.faultDestEvent src syn) [.flt] := by
  unfold faultDestEvent
  split
  · exact onlyBlocks_faultEvent s src 256 fun t => offLinks_regs (offLinks_sendMsg ..)
  · exact onlyBlocks_of_regs rfl _

theorem onlyBlocks_faultInstEvent (s : State) (src syn inst : Nat) : s.onlyBlocks (s.faultInstEvent src syn inst) [.flt] := by
  unfold faultInstEvent
  split
  · exact onlyBlocks_faultEvent s src inst fun t => offLinks_regs (offLinks_sendEvent ..)
  · exact onlyBlocks_of_regs rfl _

theorem onlyBlocks_classAct (s : State) {src : Nat} (hc : srcClass src ≠ 3) (syn : Nat) (inst : Option Nat) :
    s.onlyBlocks (s.classAct src syn inst) [.flt] := by
  have hcnt (x : Fld) (hx : blockAt (regOff x.id 0) = some .flt) : s.onlyBlocks (s.incF x) [.flt] := onlyBlocks_incF s hx (by decide) 1
  unfold classAct
  split
  · dsimp only
    split
    · exact (hcnt _ (by decide)).trans (onlyBlocks_faultDestEvent _ _ _)
    · exact hcnt _ (by decide)
  · have huc := (hcnt Fld.fltCntUc_count (by decide)).trans (onlyBlocks_faultDestEvent _ src syn)
    dsimp only
    split
    · exact huc.trans (onlyBlocks_faultInstEvent _ _ _ _)
    · exact huc
  · contradiction
  · exact onlyBlocks_of_regs rfl _

theorem onlyBlocks_raise (s : State) {src : Nat} (hc : srcClass src ≠ 3) (unit : Nat) (inst je : Option Nat) (detail : Nat) :
    s.onlyBlocks (s.raise src unit inst je detail) [.flt] := by
  by_cases hm : s.mode = .reset
  · exact onlyBlocks_of_regs (by simp [raise, hm]) _
  · have hnote : s.onlyBlocks (s.noteFault src) [.flt] :=
      (onlyBlocks_of_regs (modFlt_regs s _) _).trans (onlyBlocks_maxF _ (b := .flt) (by decide) (by decide) _)
    have hact := (hnote.trans (onlyBlocks_capture _ src (syndrome unit inst je detail))).trans
      (onlyBlocks_classAct _ hc (syndrome unit inst je detail) inst)
    rw [raise_eq s src unit inst je detail hm]
    split
    · exact hact.trans (onlyBlocks_of_regs rfl _)
    · exact hact

theorem classAct_mute (s : State) {src : Nat} (hc : srcClass src = 1) (hmute : s.mute src = true) (syn : Nat) (inst : Option Nat) :
    s.classAct src syn inst = s.incF Fld.fltCntCe_count := by
  have hev : FMap.get false src s.flt.evEn = false := by simpa [mute] using hmute
  unfold classAct
  simp [hc, hev]

@[simp] theorem writeRecord_links (s : State) (src syn : Nat) : (s.writeRecord src syn).links = s.links := by
  rw [writeRecord, setPair_links, setPair_links, setF_links, setF_links, setF_links]

@[simp] theorem writeRecord_outp (s : State) (src syn : Nat) : (s.writeRecord src syn).outp = s.outp := by
  rw [writeRecord, setPair_outp, setPair_outp, setF_outp, setF_outp, setF_outp]

theorem capture_quiet (s : State) (src syn : Nat) : (s.capture src syn).links = s.links ∧ (s.capture src syn).outp = s.outp := by
  rcases s.capture_cases src syn with h | h | h
  · rw [h, modFlt_links, modFlt_outp, writeRecord_links, writeRecord_outp]
    exact ⟨rfl, rfl⟩
  · rw [h, writeRecord_links, writeRecord_outp]
    exact ⟨setF_links .., setF_outp ..⟩
  · rw [h]
    exact ⟨setF_links .., setF_outp ..⟩

/-- A corrected source whose EV_EN is 0 sends nothing (R296). -/
theorem raise_mute (s : State) {src : Nat} (hc : srcClass src = 1) (hmute : s.mute src = true) (hn : s.flt.haltNow = false) (unit : Nat)
    (inst je : Option Nat) (detail : Nat) :
    (s.raise src unit inst je detail).links = s.links ∧ (s.raise src unit inst je detail).outp = s.outp := by
  by_cases hm : s.mode = .reset
  · simp [raise, hm]
  · have hcap := (offFault_capture (s.noteFault src) src (syndrome unit inst je detail)).trans (s.offFault_noteFault src)
    have hquiet := capture_quiet (s.noteFault src) src (syndrome unit inst je detail)
    have hnote : (s.noteFault src).links = s.links ∧ (s.noteFault src).outp = s.outp := by simp [noteFault]
    rw [raise_eq s src unit inst je detail hm]
    generalize (s.noteFault src).capture src (syndrome unit inst je detail) = c at hcap hquiet ⊢
    obtain ⟨hev, hhalt⟩ := flt_of_offFault hcap
    have hcm : c.mute src = true := by rwa [mute, hev]
    have hnow : ¬ (c.incF Fld.fltCntCe_count).flt.haltNow = true := by simp [hhalt, hn]
    rw [classAct_mute c hc hcm, if_neg hnow, incF_links, incF_outp]
    exact ⟨hquiet.1.trans hnote.1, hquiet.2.trans hnote.2⟩

/-- What a raised source counts (R278). -/
theorem counted_raise (s : State) {src : Nat} (hm : s.mode ≠ .reset) (hc : srcClass src ≠ 0) (unit : Nat) (inst je : Option Nat) (detail : Nat) :
    s.counted (s.raise src unit inst je detail) src := by
  refine ⟨s.raise_srcCnt unit inst je detail hm hc, fun h1 => ?_⟩
  have hcnt := s.f_raise_classCnt unit inst je detail hm hc (k := 1) (by decide)
  rwa [h1, show b2n ((1 : Nat) == 1) = 1 from rfl] at hcnt

end State

end Sys2Proof.Machine
end

section
/-! PROOFS. The wake queue of the slew governor (R302). -/

namespace Sys2Proof.Machine

/-- The first wake of the lowest class number in the queue has only higher numbers before it. -/
theorem wake_split_of_find {q : List Wake} {c : Nat} {x : Wake} (hx : q.find? (·.cls == c) = some x) (hlow : ∀ y ∈ q, c ≤ y.cls) :
    ∃ before after, q = before ++ x :: after ∧ (∀ y ∈ before, x.cls < y.cls) ∧ ∀ y ∈ after, x.cls ≤ y.cls := by
  obtain ⟨hc, before, after, rfl, hnot⟩ := List.find?_eq_some_iff_append.mp hx
  have hxc : x.cls = c := by simpa using hc
  refine ⟨before, after, rfl, fun y hy => ?_, fun y hy => ?_⟩
  · have hle := hlow y (by simp [hy])
    have hne : y.cls ≠ c := by simpa using hnot y hy
    omega
  · rw [hxc]
    exact hlow y (by simp [hy])

theorem cls_above_of_find_none {q : List Wake} {c : Nat} (hx : q.find? (·.cls == c) = none) (hlow : ∀ y ∈ q, c ≤ y.cls) :
    ∀ y ∈ q, c + 1 ≤ y.cls := by
  intro y hy
  have hle := hlow y hy
  have hne : y.cls ≠ c := by simpa using List.find?_eq_none.mp hx y hy
  omega

/-- Settles O10: class by class, the first wake of the class that is found has only lower classes before it. -/
theorem wakeHeadIsOldestOfHighestClass : Obligations.WakeHeadIsOldestOfHighestClass := by
  unfold Obligations.WakeHeadIsOldestOfHighestClass
  intro q x hcls hx
  have hlow0 : ∀ y ∈ q, 0 ≤ y.cls := fun _ _ => Nat.zero_le _
  cases h0 : q.find? (·.cls == 0) with
  | some y =>
    obtain rfl : y = x := by simpa [wakeHead, h0] using hx
    exact wake_split_of_find h0 hlow0
  | none =>
    have hlow1 := cls_above_of_find_none h0 hlow0
    cases h1 : q.find? (·.cls == 1) with
    | some y =>
      obtain rfl : y = x := by simpa [wakeHead, h0, h1] using hx
      exact wake_split_of_find h1 hlow1
    | none =>
      have hlow2 := cls_above_of_find_none h1 hlow1
      cases h2 : q.find? (·.cls == 2) with
      | some y =>
        obtain rfl : y = x := by simpa [wakeHead, h0, h1, h2] using hx
        exact wake_split_of_find h2 hlow2
      | none =>
        have hlow3 := cls_above_of_find_none h2 hlow2
        have hhead : q.head? = some x := by simpa [wakeHead, h0, h1, h2] using hx
        obtain ⟨after, rfl⟩ := List.head?_eq_some_iff.mp hhead
        refine ⟨[], after, rfl, by simp, fun y hy => ?_⟩
        have hx3 := hcls x (by simp)
        have hy3 := hlow3 y (by simp [hy])
        omega

end Sys2Proof.Machine
end

section
/-! PROOFS. The winner of a Hub round, and the space of a destination (R187, R188). -/

namespace Sys2Proof.Machine

/-- The largest value of a function over a list bounds it from above, and is reached where the list is not empty. -/
theorem foldl_max_spec (g : Nat → Nat) (ks : List Nat) (m : Nat) :
    let top := ks.foldl (fun m k => max m (g k)) m
    m ≤ top ∧ (∀ k ∈ ks, g k ≤ top) ∧ (top = m ∨ ∃ k ∈ ks, g k = top) := by
  induction ks generalizing m with
  | nil => simp
  | cons k ks ih =>
    obtain ⟨hm, hks, htop⟩ := ih (max m (g k))
    simp only [List.foldl_cons, List.mem_cons, forall_eq_or_imp, exists_eq_or_imp]
    refine ⟨by omega, ⟨by omega, hks⟩, ?_⟩
    rcases htop with htop | htop
    · omega
    · exact .inr (.inr htop)

namespace State

/-- The requesters among which a round chooses: those of the highest effective priority. -/
def hubBest (s : State) (h : HubOut) (ks : List Nat) : List Nat :=
  ks.filter fun k => s.hubPrio k (FMap.get 0 k h.ages) == ks.foldl (fun m k => max m (s.hubPrio k (FMap.get 0 k h.ages))) 0

theorem hubPick_eq (s : State) (h : HubOut) (ks : List Nat) :
    s.hubPick h ks = ((s.hubBest h ks).find? fun k => h.last < k).orElse fun _ => (s.hubBest h ks).head? := rfl

theorem mem_hubBest {s : State} {h : HubOut} {ks : List Nat} {k : Nat} :
    k ∈ s.hubBest h ks ↔ k ∈ ks ∧ ∀ j ∈ ks, s.hubPrio j (FMap.get 0 j h.ages) ≤ s.hubPrio k (FMap.get 0 k h.ages) := by
  obtain ⟨-, hle, htop⟩ := foldl_max_spec (fun k => s.hubPrio k (FMap.get 0 k h.ages)) ks 0
  simp only [hubBest, List.mem_filter, beq_iff_eq]
  constructor
  · rintro ⟨hk, hmax⟩
    exact ⟨hk, fun j hj => hmax ▸ hle j hj⟩
  · rintro ⟨hk, hmax⟩
    refine ⟨hk, le_antisymm (hle k hk) ?_⟩
    rcases htop with htop | ⟨j, hj, htop⟩
    · rw [htop]
      exact Nat.zero_le _
    · rw [← htop]
      exact hmax j hj

theorem hubBest_ne_nil {s : State} {h : HubOut} {ks : List Nat} (hks : ks ≠ []) : s.hubBest h ks ≠ [] := by
  obtain ⟨-, hle, htop⟩ := foldl_max_spec (fun k => s.hubPrio k (FMap.get 0 k h.ages)) ks 0
  obtain ⟨k, hk⟩ := List.exists_mem_of_ne_nil ks hks
  rcases htop with htop | ⟨j, hj, htop⟩
  · refine List.ne_nil_of_mem (mem_hubBest.mpr ⟨hk, fun j hj => ?_⟩)
    have := hle j hj
    omega
  · exact List.ne_nil_of_mem (mem_hubBest.mpr ⟨hj, fun i hi => htop ▸ hle i hi⟩)

theorem hubPick_ne_none {s : State} {h : HubOut} {ks : List Nat} (hks : ks ≠ []) : s.hubPick h ks ≠ none := by
  rw [hubPick_eq]
  cases hf : (s.hubBest h ks).find? fun k => h.last < k with
  | some k => simp
  | none => simpa using hubBest_ne_nil hks

/-- The winner is of the highest priority, and past the one last granted where one of that priority is. -/
theorem hubPick_spec {s : State} {h : HubOut} {ks : List Nat} {k : Nat} (hk : s.hubPick h ks = some k) :
    k ∈ s.hubBest h ks ∧ ((∃ j ∈ s.hubBest h ks, h.last < j) → h.last < k) := by
  rw [hubPick_eq] at hk
  cases hf : (s.hubBest h ks).find? fun k => h.last < k with
  | some j =>
    obtain rfl : j = k := by simpa [hf] using hk
    exact ⟨List.mem_of_find?_eq_some hf, fun _ => by simpa using List.find?_some hf⟩
  | none =>
    have hhead : (s.hubBest h ks).head? = some k := by simpa [hf] using hk
    refine ⟨List.mem_of_head? hhead, fun ⟨j, hj, hlast⟩ => ?_⟩
    exact absurd hlast (by simpa using List.find?_eq_none.mp hf j hj)

end State

/-- Settles O60: the winner comes from the requesters of the highest priority; the space goes by the class's reserve first. -/
theorem hubGrantsHighestPriority : Obligations.HubGrantsHighestPriority := by
  unfold Obligations.HubGrantsHighestPriority
  refine ⟨fun s h ks => ⟨State.hubPick_ne_none, fun k hk => ?_⟩, fun o c h => ?_⟩
  · obtain ⟨hbest, hlast⟩ := State.hubPick_spec hk
    obtain ⟨hmem, hmax⟩ := State.mem_hubBest.mp hbest
    refine ⟨hmem, fun j hj => ⟨hmax j hj, fun heq hlt => hlast ⟨j, State.mem_hubBest.mpr ⟨hj, fun i hi => ?_⟩, hlt⟩⟩⟩
    rw [heq]
    exact hmax i hi
  · unfold hubSpace
    generalize (if c = 0 then 10 else 65) = reserve
    split
    · next hroom => exact ⟨iff_of_true rfl hroom, fun h => nomatch h⟩
    · next hfull =>
      split
      · exact ⟨iff_of_false (by simp) hfull, fun h => nomatch h⟩
      · next hshared => exact ⟨iff_of_false (by simp) hfull, fun _ => ⟨Nat.le_of_not_lt hfull, Nat.le_of_not_lt hshared⟩⟩

end Sys2Proof.Machine
end

section
/-! PROOFS. The blocked set of the deadlock watchdog (R214). -/

namespace Sys2Proof.Machine.State

/-- Whether an entry waits for a resource whose holders are all listed. -/
def blockedIn (s : State) (js : List Nat) (j : Nat) : Bool :=
  match s.waitOn j with
  | some (_, hs) => hs.all fun h => js.contains h
  | none => false

theorem blockedIn_iff {s : State} {js : List Nat} {j : Nat} :
    s.blockedIn js j = true ↔ ∃ r hs, s.waitOn j = some (r, hs) ∧ ∀ h ∈ hs, h ∈ js := by
  unfold blockedIn
  cases hw : s.waitOn j with
  | none => simp
  | some x => simp [Prod.eq_iff_fst_eq_snd_eq, and_assoc]

theorem shrink_succ (s : State) (k : Nat) (js : List Nat) : s.shrink (k + 1) js = s.shrink k (js.filter (s.blockedIn js)) := rfl

theorem shrink_subset (s : State) (k : Nat) (js : List Nat) : s.shrink k js ⊆ js := by
  induction k generalizing js with
  | zero => exact List.Subset.refl js
  | succ k ih => exact fun j hj => List.mem_of_mem_filter (ih _ hj)

/-- A set in which each needs only holders of the set is never shrunk away. -/
theorem subset_shrink {s : State} {bs : List Nat} (hb : ∀ j ∈ bs, s.blockedIn bs j = true) (k : Nat) {js : List Nat} (hsub : bs ⊆ js) :
    bs ⊆ s.shrink k js := by
  induction k generalizing js with
  | zero => exact hsub
  | succ k ih =>
    refine ih fun j hj => List.mem_filter.mpr ⟨hsub hj, ?_⟩
    obtain ⟨r, hs, hw, hin⟩ := blockedIn_iff.mp (hb j hj)
    exact blockedIn_iff.mpr ⟨r, hs, hw, fun h hh => hsub (hin h hh)⟩

theorem shrink_of_blocked {s : State} {js : List Nat} (h : ∀ j ∈ js, s.blockedIn js j = true) (k : Nat) : s.shrink k js = js := by
  induction k with
  | zero => rfl
  | succ k ih => rw [shrink_succ, List.filter_eq_self.mpr h, ih]

/-- As many rounds as there are entries reach a set from which none falls out. -/
theorem shrink_blocked (s : State) (k : Nat) (js : List Nat) (hk : js.length ≤ k) :
    ∀ j ∈ s.shrink k js, s.blockedIn (s.shrink k js) j = true := by
  induction k generalizing js with
  | zero => simp [List.eq_nil_of_length_eq_zero (Nat.le_zero.mp hk), shrink]
  | succ k ih =>
    rw [shrink_succ]
    by_cases hall : ∀ j ∈ js, s.blockedIn js j = true
    · rw [List.filter_eq_self.mpr hall, shrink_of_blocked hall]
      exact hall
    · refine ih _ ?_
      have hlt : (js.filter (s.blockedIn js)).length < js.length := by
        rw [List.length_filter_lt_length_iff_exists]
        simpa using hall
      omega

end Sys2Proof.Machine.State

namespace Sys2Proof.Machine

/-- Settles O45: the stalled entries shrink to a set from which none falls out, and no blocked set loses a member on the way. -/
theorem blockedSetIsLargest : Obligations.BlockedSetIsLargest := by
  unfold Obligations.BlockedSetIsLargest
  intro s
  have hstalled (je : Nat) : je ∈ (s.jnl.entries.filter fun p => s.stalled p.1 p.2).map (·.1)
      ↔ ∃ e, (je, e) ∈ s.jnl.entries ∧ s.stalled je e = true := by
    simp
  refine ⟨fun je hje => (hstalled je).mp (s.shrink_subset _ _ hje), fun je hje => ?_, fun bs hst hwait => ?_⟩
  · exact State.blockedIn_iff.mp (s.shrink_blocked _ _ le_rfl je hje)
  · exact State.subset_shrink (fun j hj => State.blockedIn_iff.mpr (hwait j hj)) _ fun j hj => (hstalled j).mpr (hst j hj)

end Sys2Proof.Machine
end

section
/-! PROOFS. A gate judges an access part by part, and every byte of a part alike (R242, R244). -/

namespace Sys2Proof.Machine

/-! ### The edges of regions -/

/-- Where the regions of a gate begin, and just after they end. -/
def regionEdges (rs : List Region) : List Nat := rs.flatMap fun r => [r.lo, r.hi + 1]

theorem length_regionEdges (rs : List Region) : (regionEdges rs).length = 2 * rs.length := by
  induction rs with
  | nil => rfl
  | cons r rs ih =>
    rw [regionEdges, List.flatMap_cons, List.length_append, ← regionEdges, ih]
    simp only [List.length_cons, List.length_nil]
    omega

/-- The least of `m` and the edges of a region above `a`. -/
def edgeMin (a m : Nat) (r : Region) : Nat :=
  let m := if a < r.lo then min m r.lo else m
  if a < r.hi + 1 then min m (r.hi + 1) else m

theorem edgeMin_spec (a m : Nat) (r : Region) :
    edgeMin a m r ≤ m ∧ (a < r.lo → edgeMin a m r ≤ r.lo) ∧ (a < r.hi + 1 → edgeMin a m r ≤ r.hi + 1)
      ∧ (edgeMin a m r = m ∨ a < edgeMin a m r ∧ (edgeMin a m r = r.lo ∨ edgeMin a m r = r.hi + 1)) := by
  unfold edgeMin
  dsimp only
  split <;> split <;> omega

theorem foldl_edgeMin_spec (a : Nat) (rs : List Region) (m : Nat) :
    rs.foldl (edgeMin a) m ≤ m ∧ (∀ e ∈ regionEdges rs, a < e → rs.foldl (edgeMin a) m ≤ e)
      ∧ (rs.foldl (edgeMin a) m = m ∨ rs.foldl (edgeMin a) m ∈ regionEdges rs ∧ a < rs.foldl (edgeMin a) m) := by
  induction rs generalizing m with
  | nil => simp [regionEdges]
  | cons r rs ih =>
    obtain ⟨hm, hle, hmem⟩ := ih (edgeMin a m r)
    obtain ⟨hr, hlo, hhi, heq⟩ := edgeMin_spec a m r
    have hcons (x : Nat) : x ∈ regionEdges (r :: rs) ↔ x = r.lo ∨ x = r.hi + 1 ∨ x ∈ regionEdges rs := by
      simp [regionEdges]
    simp only [List.foldl_cons, hcons]
    refine ⟨hm.trans hr, ?_, ?_⟩
    · rintro e (rfl | rfl | he) hae
      · exact hm.trans (hlo hae)
      · exact hm.trans (hhi hae)
      · exact hle e he hae
    · rcases hmem with hmem | ⟨hmem, hlt⟩
      · rw [hmem]
        omega
      · exact .inr ⟨.inr (.inr hmem), hlt⟩

/-- The next edge above `a` is the least of 2⁵⁶ and the edges above `a`. -/
theorem nextEdge_spec (rs : List Region) (a : Nat) :
    (∀ e ∈ regionEdges rs, a < e → nextEdge rs a ≤ e) ∧ (nextEdge rs a = 2 ^ 56 ∨ nextEdge rs a ∈ regionEdges rs ∧ a < nextEdge rs a) :=
  (foldl_edgeMin_spec a rs (2 ^ 56)).2

/-- How many edges stand above a byte. -/
def edgesAbove (rs : List Region) (a : Nat) : Nat := ((regionEdges rs).filter fun e => a < e).length

theorem edgesAbove_lt {rs : List Region} {a e : Nat} (he : e ∈ regionEdges rs) (hae : a < e) : edgesAbove rs e < edgesAbove rs a := by
  have hsub : (regionEdges rs).filter (fun x => e < x) = ((regionEdges rs).filter fun x => a < x).filter fun x => e < x := by
    rw [List.filter_filter]
    refine List.filter_congr fun x _ => ?_
    by_cases hx : e < x
    · simp [hx, lt_trans hae hx]
    · simp [hx]
  rw [edgesAbove, hsub, edgesAbove, List.length_filter_lt_length_iff_exists]
  exact ⟨e, by simp [he, hae], by simp⟩

namespace State

/-! ### The bytes of a part -/

/-- A byte is judged by which regions cover it. -/
theorem judgePart_congr {s : State} {g p q : Nat} (h : ∀ r ∈ s.regions g, (r.lo ≤ p ∧ p ≤ r.hi) ↔ (r.lo ≤ q ∧ q ≤ r.hi)) (id : Nat)
    (rd wr : Bool) : s.judgePart g id p rd wr = s.judgePart g id q rd wr := by
  have hfind : (s.regions g).find? (fun r => r.lo ≤ p && p ≤ r.hi) = (s.regions g).find? (fun r => r.lo ≤ q && q ≤ r.hi) := by
    have hgen : ∀ rs : List Region, (∀ r ∈ rs, (r.lo ≤ p ∧ p ≤ r.hi) ↔ (r.lo ≤ q ∧ q ≤ r.hi)) →
        rs.find? (fun r => r.lo ≤ p && p ≤ r.hi) = rs.find? (fun r => r.lo ≤ q && q ≤ r.hi) := by
      intro rs
      induction rs with
      | nil => intro _; rfl
      | cons r rs ih =>
        intro hrs
        have hr : (decide (r.lo ≤ p) && decide (p ≤ r.hi)) = (decide (r.lo ≤ q) && decide (q ≤ r.hi)) := by
          simpa only [← Bool.decide_and, decide_eq_decide] using hrs r (by simp)
        rw [List.find?_cons, List.find?_cons, hr, ih fun x hx => hrs x (by simp [hx])]
    exact hgen _ h
  unfold judgePart
  rw [hfind]

/-- Every byte before the next edge is judged as the first byte of its part. -/
theorem judgePart_in_part (s : State) (g id : Nat) (rd wr : Bool) {a p : Nat} (hap : a ≤ p) (hp : p < nextEdge (s.regions g) a) :
    s.judgePart g id p rd wr = s.judgePart g id a rd wr := by
  obtain ⟨hle, -⟩ := nextEdge_spec (s.regions g) a
  refine judgePart_congr (fun r hr => ?_) id rd wr
  have hlo : a < r.lo → nextEdge (s.regions g) a ≤ r.lo := hle r.lo (List.mem_flatMap.mpr ⟨r, hr, by simp⟩)
  have hhi : a < r.hi + 1 → nextEdge (s.regions g) a ≤ r.hi + 1 := hle (r.hi + 1) (List.mem_flatMap.mpr ⟨r, hr, by simp⟩)
  omega

/-- Enough parts are made from `a` on: `a` is beyond the access, or more parts may come than edges stand above it. -/
def partsLeft (s : State) (g z k a : Nat) : Prop := z < a ∨ edgesAbove (s.regions g) a < k

theorem partsLeft_next {s : State} {g z k a : Nat} (hz : z < 2 ^ 56) (haz : a ≤ z) (h : s.partsLeft g z (k + 1) a) :
    a ≤ nextEdge (s.regions g) a ∧ s.partsLeft g z k (nextEdge (s.regions g) a) := by
  obtain ⟨-, hedge⟩ := nextEdge_spec (s.regions g) a
  rcases hedge with hedge | ⟨hmem, hlt⟩
  · exact ⟨by omega, .inl (by omega)⟩
  · have hfew := edgesAbove_lt hmem hlt
    refine ⟨by omega, .inr ?_⟩
    rcases h with h | h <;> omega

theorem judgeParts_allow (s : State) (g id : Nat) (rd wr : Bool) {z : Nat} (hz : z < 2 ^ 56) (k a : Nat) (h : s.partsLeft g z k a) :
    (∀ x ∈ s.judgeParts g id rd wr z k a, x.2 = .allow) ↔ ∀ p, a ≤ p → p ≤ z → s.judgePart g id p rd wr = .allow := by
  induction k generalizing a with
  | zero =>
    have hza : z < a := by rcases h with h | h <;> omega
    exact iff_of_true (by simp [judgeParts]) fun p _ _ => by omega
  | succ k ih =>
    unfold judgeParts
    split
    · exact iff_of_true (by simp) fun p _ _ => by omega
    · next haz =>
      obtain ⟨hae, hleft⟩ := partsLeft_next hz (by omega) h
      simp only [List.mem_cons, forall_eq_or_imp, ih _ hleft]
      constructor
      · rintro ⟨ha, hrest⟩ p hap hpz
        by_cases hp : p < nextEdge (s.regions g) a
        · rw [s.judgePart_in_part g id rd wr hap hp, ha]
        · exact hrest p (by omega) hpz
      · exact fun hall => ⟨hall a le_rfl (by omega), fun p hp hpz => hall p (by omega) hpz⟩

theorem judgeParts_bad (s : State) (g id : Nat) (rd wr : Bool) {z : Nat} (hz : z < 2 ^ 56) (k a : Nat) (h : s.partsLeft g z k a) {x : Nat × GRes}
    (hx : (s.judgeParts g id rd wr z k a).find? (fun p => p.2 == .noMatch || p.2 == .refuse) = some x) :
    a ≤ x.1 ∧ x.1 ≤ z ∧ s.judgePart g id x.1 rd wr = x.2
      ∧ ∀ y, a ≤ y → y < x.1 → s.judgePart g id y rd wr = .allow ∨ s.judgePart g id y rd wr = .deny := by
  induction k generalizing a with
  | zero => simp [judgeParts] at hx
  | succ k ih =>
    unfold judgeParts at hx
    split at hx
    · simp at hx
    · next haz =>
      obtain ⟨hae, hleft⟩ := partsLeft_next hz (by omega) h
      rw [List.find?_cons] at hx
      split at hx
      · obtain rfl := Option.some.inj hx
        exact ⟨le_rfl, by omega, rfl, fun y _ _ => by omega⟩
      · next hgood =>
        obtain ⟨hex, hxz, hres, hbefore⟩ := ih _ hleft hx
        refine ⟨by omega, hxz, hres, fun y hay hyx => ?_⟩
        by_cases hy : y < nextEdge (s.regions g) a
        · rw [s.judgePart_in_part g id rd wr hay hy]
          cases hr : s.judgePart g id a rd wr <;> simp_all
        · exact hbefore y (by omega) hyx

end State

theorem verdictOf_eq_ok {ps : List (Nat × GRes)} : verdictOf ps = .ok ↔ ∀ x ∈ ps, x.2 = .allow := by
  unfold verdictOf
  split
  · next x hx =>
    refine iff_of_false (by simp) fun hall => ?_
    have hbad := List.find?_some hx
    rw [hall x (List.mem_of_find?_eq_some hx)] at hbad
    cases hbad
  · next hbad =>
    split
    · next x hx =>
      refine iff_of_false (by simp) fun hall => ?_
      have hdeny := List.find?_some hx
      rw [hall x (List.mem_of_find?_eq_some hx)] at hdeny
      cases hdeny
    · next hdeny =>
      refine iff_of_true rfl fun x hx => ?_
      have hb := List.find?_eq_none.mp hbad x hx
      have hd := List.find?_eq_none.mp hdeny x hx
      cases hr : x.2 <;> simp_all

theorem verdictOf_eq_bad {ps : List (Nat × GRes)} {r : GRes} {p : Nat} (h : verdictOf ps = .bad r p) :
    ps.find? (fun x => x.2 == .noMatch || x.2 == .refuse) = some (p, r) := by
  unfold verdictOf at h
  split at h
  · next x hx =>
    cases h
    exact hx
  · split at h <;> cases h

/-- Settles O48: the parts end at the edges of regions, between which every byte is judged alike. -/
theorem gatesJudgeEveryByte : Obligations.GatesJudgeEveryByte := by
  unfold Obligations.GatesJudgeEveryByte
  intro s g id a z rd wr hz
  have hleft : s.partsLeft g z (2 * (s.regions g).length + 2) a := by
    have hle : edgesAbove (s.regions g) a ≤ (regionEdges (s.regions g)).length := List.length_filter_le _ _
    rw [length_regionEdges] at hle
    exact .inr (by omega)
  refine ⟨?_, fun r p h => s.judgeParts_bad g id rd wr hz _ a hleft (verdictOf_eq_bad h)⟩
  rw [State.judge, verdictOf_eq_ok, s.judgeParts_allow g id rd wr hz _ a hleft]

end Sys2Proof.Machine
end

section
/-! PROOFS. The cut of a burst into pieces (R117): the next enabled byte, the run that holds it, and the limits of a piece. -/

namespace Sys2Proof.Machine.CutSpec

/-- A cut as its callers make it: whole granules, and a swap unit that divides a granule (R116). -/
structure Formed (c : CutSpec) : Prop where
  unit : c.u = 1 ∨ c.u = 2 ∨ c.u = 4 ∨ c.u = 8
  whole : c.n % 8 = 0

section
variable {c : CutSpec} (hc : c.Formed)
include hc

/-- A swap stays in its granule. -/
theorem swapAddr_granule (j : Nat) : swapAddr c.u j / 8 = j / 8 := by
  unfold swapAddr
  rcases hc.unit with h | h | h | h <;> rw [h] <;> omega

/-- No byte beyond the request is enabled. -/
theorem sen_beyond {j : Nat} (hj : c.n ≤ j) : c.sen j = false := by
  have hg := swapAddr_granule hc j
  have hn := hc.whole
  have hle : c.n ≤ swapAddr c.u j := by omega
  simp [sen, en, hle]

/-- Every byte between the first and the last granule is enabled. -/
theorem sen_middle {j : Nat} (h8 : 8 ≤ j) (hn : j + 8 < c.n) : c.sen j = true := by
  have hg := swapAddr_granule hc j
  have hw := hc.whole
  have h1 : ¬ c.n ≤ swapAddr c.u j := by omega
  have h2 : ¬ swapAddr c.u j < 8 := by omega
  have h3 : ¬ c.n ≤ swapAddr c.u j + 8 := by omega
  simp [sen, en, h1, h2, h3]

/-- An enabled byte lies in the request. -/
theorem lt_of_sen {j : Nat} (hj : c.sen j = true) : j < c.n := by
  by_contra hn
  rw [sen_beyond hc (Nat.le_of_not_lt hn)] at hj
  cases hj

/-! ### The next enabled byte -/

omit hc in
theorem nextEn_some {k i j : Nat} (h : c.nextEn k i = some j) : i ≤ j ∧ c.sen j = true ∧ ∀ x, i ≤ x → x < j → c.sen x = false := by
  induction k generalizing i with
  | zero => cases h
  | succ k ih =>
    unfold nextEn at h
    split at h
    · cases h
    · split at h
      · next hi =>
        obtain rfl := Option.some.inj h
        exact ⟨le_rfl, hi, fun x _ _ => by omega⟩
      · next hi =>
        obtain ⟨hij, hj, hnot⟩ := ih h
        refine ⟨by omega, hj, fun x hix hxj => ?_⟩
        rcases Nat.eq_or_lt_of_le hix with rfl | hlt
        · simpa using hi
        · exact hnot x hlt hxj

theorem nextEn_none {k i : Nat} (h : c.nextEn k i = none) : ∀ x, i ≤ x → x < i + k → c.sen x = false := by
  induction k generalizing i with
  | zero => exact fun x _ _ => by omega
  | succ k ih =>
    intro x hix hxk
    unfold nextEn at h
    split at h
    · next hn => exact sen_beyond hc (by omega)
    · split at h
      · cases h
      · next hi =>
        rcases Nat.eq_or_lt_of_le hix with rfl | hlt
        · simpa using hi
        · exact ih h x hlt (by omega)

/-- Within 17 bytes the search meets an enabled byte, or the end of the request. -/
theorem nextEn_17_none {i : Nat} (h : c.nextEn 17 i = none) {j : Nat} (hij : i ≤ j) : c.sen j = false := by
  have hnone := nextEn_none hc h
  by_cases hj : j < i + 17
  · exact hnone j hij hj
  · refine sen_beyond hc (Nat.le_of_not_lt fun hjn => ?_)
    have hmid : c.sen (max i 8) = false := hnone _ (by omega) (by omega)
    rw [sen_middle hc (by omega) (by omega)] at hmid
    cases hmid

/-! ### The run of an enabled byte -/

omit hc in
/-- How many steps the search for a run's end takes at most. -/
def runFuel (c : CutSpec) (i : Nat) : Nat := if c.n ≤ i + 9 then c.n - i else if 7 ≤ i then 11 else 20 - i

/-- A run ends before a byte that is not enabled, and holds enabled bytes only. -/
theorem runEnd_spec {k i : Nat} (hk : c.runFuel i ≤ k) (hi : c.sen i = true) :
    i ≤ c.runEnd k i ∧ (∀ x, i ≤ x → x ≤ c.runEnd k i → c.sen x = true) ∧ c.sen (c.runEnd k i + 1) = false := by
  induction k generalizing i with
  | zero =>
    have hn := lt_of_sen hc hi
    unfold runFuel at hk
    split at hk
    · omega
    · split at hk <;> omega
  | succ k ih =>
    have hn := lt_of_sen hc hi
    unfold runEnd
    split
    · next hnext =>
      split
      · next hmid =>
        have hsen : c.sen (c.n - 9) = true := sen_middle hc (by omega) (by omega)
        have hfuel : c.runFuel (c.n - 9) ≤ k := by
          unfold runFuel at hk ⊢
          split at hk
          · omega
          · split at hk <;> split <;> omega
        obtain ⟨hle, hrun, hend⟩ := ih hfuel hsen
        refine ⟨by omega, fun x hix hx => ?_, hend⟩
        rcases Nat.eq_or_lt_of_le hix with rfl | hlt
        · exact hi
        · by_cases hx9 : x + 8 < c.n
          · exact sen_middle hc (by omega) hx9
          · exact hrun x (by omega) hx
      · next hmid =>
        have hn' := lt_of_sen hc hnext
        have hfuel : c.runFuel (i + 1) ≤ k := by
          unfold runFuel at hk ⊢
          split at hk
          · split <;> omega
          · split at hk
            · omega
            · split
              · omega
              · split <;> omega
        obtain ⟨hle, hrun, hend⟩ := ih hfuel hnext
        refine ⟨by omega, fun x hix hx => ?_, hend⟩
        rcases Nat.eq_or_lt_of_le hix with rfl | hlt
        · exact hi
        · exact hrun x hlt hx
    · next hnext =>
      refine ⟨le_rfl, fun x h1 h2 => ?_, by simpa using hnext⟩
      obtain rfl : x = i := le_antisymm h2 h1
      exact hi

omit hc in
theorem runFuel_le (c : CutSpec) (i : Nat) : c.runFuel i ≤ 40 := by
  unfold runFuel
  split
  · omega
  · split <;> omega

end

end Sys2Proof.Machine.CutSpec

namespace Sys2Proof.Machine

/-- The last byte of the block of `bound` bytes that holds `a`. -/
theorem deviceBlock_spec {bound : Nat} (hb : 0 < bound) (a : Nat) :
    let b := (a / bound + 1) * bound - 1
    a ≤ b ∧ (∀ x, a ≤ x → x ≤ b → x / bound = a / bound) ∧ (b + 1) / bound ≠ a / bound := by
  intro b
  have hlo : a / bound * bound ≤ a := Nat.div_mul_le_self a bound
  have hhi : a < (a / bound + 1) * bound := by
    rw [Nat.mul_comm]
    exact Nat.lt_mul_div_succ a hb
  refine ⟨by omega, fun x hax hxb => ?_, ?_⟩
  · rw [Nat.div_eq_iff hb]
    rw [Nat.succ_mul] at hhi
    have hb : b = a / bound * bound + bound - 1 := by rw [← Nat.succ_mul]
    omega
  · rw [show b + 1 = (a / bound + 1) * bound by omega, Nat.mul_div_cancel _ hb]
    omega

/-- Settles O7: a piece is cut out of the run of the next enabled byte by the least of three limits. -/
theorem piecesAreMaximal : Obligations.PiecesAreMaximal := by
  unfold Obligations.PiecesAreMaximal
  intro c maxb bound edge i hu hn hn8 hmaxb hbound hedge
  have hc : c.Formed := ⟨hu, hn8⟩
  unfold CutSpec.piece
  cases hj : c.nextEn 17 i with
  | none => exact fun j hij => CutSpec.nextEn_17_none hc hj hij
  | some j =>
    obtain ⟨hij, hsen, hbefore⟩ := CutSpec.nextEn_some hj
    obtain ⟨hle, hrun, hend⟩ := CutSpec.runEnd_spec hc (c.runFuel_le j) hsen
    have hedge := hedge (c.base + j)
    obtain ⟨hin, hstay, hleave⟩ := deviceBlock_spec hbound (c.base + j)
    dsimp only
    generalize c.runEnd 40 j = z at hle hrun hend
    generalize ((c.base + j) / bound + 1) * bound - 1 = b at hin hstay hleave
    generalize he : min (min (c.base + z) b) (min (c.base + j - (c.base + j) % 4 + maxb - 1) (edge (c.base + j) - 1)) = e
    have hae : c.base + j ≤ e := by omega
    refine ⟨by omega, hae, fun x h1 h2 => hbefore x h1 (by omega), fun x h1 h2 => hrun x (by omega) (by omega), hstay e hae (by omega), by omega,
      by omega, ?_⟩
    by_cases hz : e = c.base + z
    · exact .inl (by rwa [show e + 1 - c.base = z + 1 by omega])
    · by_cases hb : e = b
      · exact .inr (.inl (hb ▸ hleave))
      · omega

end Sys2Proof.Machine
end

section
/-! PROOFS. The check and the commit of pending table entries (R120, R121): the REJ bit, what a commit leaves at each index, and the check's end. -/

namespace Sys2Proof.Machine

/-! ### The REJ bit -/

theorem bit_eq_bits (n v : Nat) : bit n v = decide (bits n n v = 1) := by
  simp [bit, bits]

/-- A field of whole bytes of a word rests on the bits that it holds. -/
theorem bits_bytes_congr {w hi lo k n : Nat} {a b : BitVec w} (h : ∀ i, lo ≤ i → i ≤ hi → i < 8 * n → a.getLsbD (8 * k + i) = b.getLsbD (8 * k + i)) :
    bits hi lo (a.toNat / 256 ^ k % 256 ^ n) = bits hi lo (b.toNat / 256 ^ k % 256 ^ n) := by
  have htest (v : BitVec w) (j : Nat) : (bits hi lo (v.toNat / 256 ^ k % 256 ^ n)).testBit j
      = (decide (j < hi + 1 - lo) && (decide (lo + j < 8 * n) && v.getLsbD (8 * k + (lo + j)))) := by
    rw [bits, Nat.testBit_mod_two_pow, Nat.testBit_div_two_pow, show (256 : Nat) = 2 ^ 8 from rfl, ← pow_mul, ← pow_mul, Nat.testBit_mod_two_pow,
      Nat.testBit_div_two_pow, BitVec.getLsbD, Nat.add_comm j lo, Nat.add_comm (lo + j)]
  refine Nat.eq_of_testBit_eq fun j => ?_
  rw [htest, htest]
  by_cases hj : j < hi + 1 - lo
  · by_cases hn : lo + j < 8 * n
    · rw [h (lo + j) (by omega) (by omega) hn]
    · simp [hn]
  · simp [hj]

theorem getLsbD_setRej {w r i : Nat} (hi : i ≠ r) (on : Bool) (e : BitVec w) : (setRej (2 ^ r) on e).getLsbD i = e.getLsbD i := by
  have hr : (BitVec.ofNat w (2 ^ r)).getLsbD i = false := by
    rw [BitVec.getLsbD_ofNat, Nat.testBit_two_pow_of_ne (Ne.symm hi), Bool.and_false]
  unfold setRej
  split
  · rw [BitVec.getLsbD_or, hr, Bool.or_false]
  · by_cases hw : i < w
    · rw [BitVec.getLsbD_and, BitVec.getLsbD_not, hr]
      simp [hw]
    · rw [BitVec.getLsbD_of_ge _ _ (by omega), BitVec.getLsbD_of_ge _ _ (by omega)]

/-- A field of a WTT entry that does not hold REJ reads the same with and without it. -/
theorem wttField_setRej (on : Bool) (e : BitVec 256) {hi lo o n : Nat}
    (h : 240 < 8 * (32 - o - n) + lo ∨ 8 * (32 - o - n) + min hi (8 * n - 1) < 240) :
    bits hi lo (wttWord (setRej wttRejBit on e) o n) = bits hi lo (wttWord e o n) :=
  bits_bytes_congr fun i _ _ _ => getLsbD_setRej (r := 240) (by omega) on e

theorem dvtField_setRej (on : Bool) (e : BitVec 128) {hi lo o n : Nat}
    (h : 111 < 8 * (16 - o - n) + lo ∨ 8 * (16 - o - n) + min hi (8 * n - 1) < 111) :
    bits hi lo (dvtWord (setRej dvtRejBit on e) o n) = bits hi lo (dvtWord e o n) :=
  bits_bytes_congr fun i _ _ _ => getLsbD_setRej (r := 111) (by omega) on e

/-- REJ is no field of a window. -/
@[simp] theorem windowOf_setRej (on : Bool) (e : BitVec 256) : windowOf (setRej wttRejBit on e) = windowOf e := by
  simp only [windowOf, bit_eq_bits]
  simp (disch := norm_num) only [wttField_setRej]

/-- REJ is no field of a device. -/
@[simp] theorem deviceOf_setRej (on : Bool) (e : BitVec 128) : deviceOf (setRej dvtRejBit on e) = deviceOf e := by
  simp only [deviceOf, bit_eq_bits]
  simp (disch := norm_num) only [dvtField_setRej]

/-! ### What a commit leaves -/

theorem sorted_commitTable {w : Nat} (rej : Nat) {com : FMap (BitVec w)} (h : FMap.sorted com = true) (pend : FMap (BitVec w)) (failed : List Nat) :
    FMap.sorted (commitTable rej com pend failed) = true := by
  unfold commitTable
  induction pend generalizing com with
  | nil => exact h
  | cons p pend ih =>
    refine ih ?_
    dsimp only
    split
    · exact FMap.sorted_mod _ _ _ h
    · exact FMap.sorted_set _ _ _ h

/-- The entry at an index after a commit: the pending one where it passes, else the committed one, with REJ as the check says. -/
theorem get_commitTable {w : Nat} (rej : Nat) (com : FMap (BitVec w)) {pend : FMap (BitVec w)} (h : FMap.sorted pend = true) (failed : List Nat)
    (k : Nat) :
    FMap.get 0 k (commitTable rej com pend failed) = match FMap.find k pend with
      | some e => if failed.contains k then setRej rej true (FMap.get 0 k com) else setRej rej false e
      | none => FMap.get 0 k com := by
  rw [FMap.sorted_iff] at h
  unfold commitTable
  induction pend generalizing com with
  | nil => rfl
  | cons p pend ih =>
    obtain ⟨j, e⟩ := p
    obtain ⟨hj, hpend⟩ := List.pairwise_cons.mp h
    rw [List.foldl_cons, ih _ hpend, FMap.find_cons]
    by_cases hjk : j = k
    · subst hjk
      have hnone : FMap.find j pend = none := FMap.find_eq_none.mpr fun q hq => (hj q hq).ne'
      rw [hnone, if_pos rfl]
      dsimp only
      split
      · exact FMap.get_mod_same _ _ _ _
      · exact FMap.get_set_same _ _ _ _
    · have hcom : FMap.get 0 k (if failed.contains j then FMap.mod 0 j (setRej rej true) com else FMap.set 0 j (setRej rej false e) com)
          = FMap.get 0 k com := by
        split
        · exact FMap.get_mod_ne (Ne.symm hjk) _ _ _
        · exact FMap.get_set_ne (Ne.symm hjk) _ _ _ _
      rw [if_neg hjk, hcom]

/-! ### The check -/

section
variable {α β : Type} (valid : β → Bool) (conf : β → β → Bool) (view : α → β) (com pend : FMap α)

/-- The pending entries that have not failed. -/
def liveOf (pend : FMap α) (failed : List Nat) : FMap α := pend.filter fun p => !failed.contains p.1

/-- The table that the check judges: the committed entries that no live entry replaces, and the live ones. -/
def candidates (com pend : FMap α) (failed : List Nat) : FMap α :=
  (com.filter fun p => !((liveOf pend failed).any fun q => q.1 == p.1)) ++ liveOf pend failed

theorem conflicted_eq_nil {failed : List Nat} (h : conflicted valid conf view com pend failed = []) {p q : Nat × α} (hp : p ∈ liveOf pend failed)
    (hq : q ∈ candidates com pend failed) (hne : q.1 ≠ p.1) (hpv : valid (view p.2) = true) (hqv : valid (view q.2) = true) :
    conf (view p.2) (view q.2) = false := by
  have hnil := List.filter_eq_nil_iff.mp (List.map_eq_nil_iff.mp h) p hp
  rw [hpv, Bool.true_and, List.any_map, Bool.not_eq_true, List.any_eq_false] at hnil
  simpa [hne, hqv] using hnil q hq

theorem mem_conflicted {failed : List Nat} {k : Nat} (h : k ∈ conflicted valid conf view com pend failed) :
    ∃ p ∈ liveOf pend failed, p.1 = k := by
  obtain ⟨p, hp, rfl⟩ := List.mem_map.mp h
  exact ⟨p, List.mem_of_mem_filter hp, rfl⟩

theorem liveOf_append (failed more : List Nat) : liveOf pend (failed ++ more) = (liveOf pend failed).filter fun p => !more.contains p.1 := by
  simp [liveOf, List.filter_filter, Bool.and_comm]

/-- With as many passes as there are live entries and one more, the last finds no conflict. -/
theorem checkLoop_clean (k : Nat) (failed : List Nat) (hk : (liveOf pend failed).length < k) :
    conflicted valid conf view com pend (checkLoop valid conf view com pend k failed) = [] := by
  induction k generalizing failed with
  | zero => omega
  | succ k ih =>
    unfold checkLoop
    split
    · next h => exact h
    · next more hmore =>
      obtain ⟨j, hj⟩ := List.exists_mem_of_ne_nil _ hmore
      obtain ⟨p, hp, rfl⟩ := mem_conflicted valid conf view com pend hj
      refine ih _ ?_
      have hlt : (liveOf pend (failed ++ conflicted valid conf view com pend failed)).length < (liveOf pend failed).length := by
        rw [liveOf_append, List.length_filter_lt_length_iff_exists]
        exact ⟨p, hp, by simpa using hj⟩
      omega

theorem checkTable_clean (ok : β → Bool) : conflicted valid conf view com pend (checkTable valid ok conf view com pend) = [] :=
  checkLoop_clean valid conf view com pend _ _ (Nat.lt_succ_of_le (List.length_filter_le _ _))

end

theorem wttConflict_comm (a b : Window) : wttConflict a b = wttConflict b a := by
  unfold wttConflict
  rw [Bool.and_comm (!a.inbound), Bool.and_comm a.inbound, Bool.beq_comm (a := a.port)]
  split
  · exact Bool.and_comm _ _
  · ac_rfl

namespace State

@[simp] theorem tellRej_tbl (s : State) (n valid idx : Fld) (failed : List Nat) : (s.tellRej n valid idx failed).tbl = s.tbl := by
  simp [tellRej]

/-- The pending WTT entries that the check fails. -/
def wttFailed (s : State) : List Nat := checkTable (·.v) s.wttOk wttConflict windowOf s.tbl.wtt s.tbl.wttPend

theorem strobeWtt_tbl_of_ovf {s : State} (h : s.tbl.wttOvf = true) : s.strobeWtt.1.tbl = s.tbl := by
  simp [strobeWtt, h]

theorem strobeWtt_tbl {s : State} (h : s.tbl.wttOvf = false) :
    s.strobeWtt.1.tbl.wtt = commitTable wttRejBit s.tbl.wtt s.tbl.wttPend s.wttFailed
    ∧ s.strobeWtt.1.tbl.wttPend = s.tbl.wttPend.filter fun p => s.wttFailed.contains p.1 := by
  simp [strobeWtt, h, wttFailed]

theorem mem_live_wtt {s : State} (hpend : FMap.sorted s.tbl.wttPend = true) {k : Nat} {e : BitVec 256} :
    (k, e) ∈ liveOf s.tbl.wttPend s.wttFailed ↔ FMap.find k s.tbl.wttPend = some e ∧ s.wttFailed.contains k = false := by
  rw [liveOf, List.mem_filter]
  constructor
  · rintro ⟨hmem, hnot⟩
    exact ⟨FMap.find_of_mem hpend hmem, by simpa using hnot⟩
  · rintro ⟨hfind, hnot⟩
    exact ⟨FMap.mem_of_find hfind, by simpa using hnot⟩

/-- A window that is valid after the commit stands in the candidate table; it is a live one, or was committed before. -/
theorem valid_window_is_candidate {s : State} (hovf : s.tbl.wttOvf = false) (hpend : FMap.sorted s.tbl.wttPend = true) {k : Nat}
    (hv : (windowOf (s.strobeWtt.1.wttAt k)).v = true) :
    ∃ e, (k, e) ∈ candidates s.tbl.wtt s.tbl.wttPend s.wttFailed ∧ windowOf (s.strobeWtt.1.wttAt k) = windowOf e
      ∧ ((k, e) ∈ liveOf s.tbl.wttPend s.wttFailed ∨ windowOf (s.strobeWtt.1.wttAt k) = windowOf (s.wttAt k)) := by
  have hget := get_commitTable wttRejBit s.tbl.wtt hpend s.wttFailed k
  rw [wttAt, (strobeWtt_tbl hovf).1] at hv ⊢
  by_cases hlive : ∃ e, (k, e) ∈ liveOf s.tbl.wttPend s.wttFailed
  · obtain ⟨e, he⟩ := hlive
    obtain ⟨hfind, hnot⟩ := (mem_live_wtt hpend).mp he
    refine ⟨e, List.mem_append_right _ he, ?_, .inl he⟩
    rw [hget, hfind]
    simp only [hnot, Bool.false_eq_true, if_false, windowOf_setRej]
  · have hold : windowOf (FMap.get 0 k (commitTable wttRejBit s.tbl.wtt s.tbl.wttPend s.wttFailed)) = windowOf (s.wttAt k) := by
      rw [hget]
      split
      · next e hfind =>
        split
        · exact windowOf_setRej _ _
        · next hnot => exact absurd ⟨e, (mem_live_wtt hpend).mpr ⟨hfind, by simpa using hnot⟩⟩ hlive
      · rfl
    rw [hold] at hv ⊢
    cases hcom : FMap.find k s.tbl.wtt with
    | none =>
      rw [wttAt, FMap.get, hcom] at hv
      exact absurd hv (by decide)
    | some e =>
      have hat : s.wttAt k = e := by rw [wttAt, FMap.get, hcom, Option.getD_some]
      refine ⟨e, List.mem_append_left _ (List.mem_filter.mpr ⟨FMap.mem_of_find hcom, ?_⟩), by rw [hat], .inr rfl⟩
      simp only [Bool.not_eq_true', List.any_eq_false, beq_iff_eq]
      rintro ⟨j, e'⟩ hq rfl
      exact hlive ⟨e', hq⟩

end State

/-- Settles O8: an entry that commits conflicts with none of the candidate table, which holds what is valid after the commit. -/
theorem strobeKeepsWindowsApart : Obligations.StrobeKeepsWindowsApart := by
  unfold Obligations.StrobeKeepsWindowsApart
  intro s hwtt hpend hapart
  dsimp only
  cases hovf : s.tbl.wttOvf with
  | true =>
    have htbl := State.strobeWtt_tbl_of_ovf hovf
    have hat (k : Nat) : s.strobeWtt.1.wttAt k = s.wttAt k := by rw [State.wttAt, htbl, State.wttAt]
    simp only [htbl, hat]
    exact ⟨hwtt, hpend, hapart⟩
  | false =>
    obtain ⟨hw, hp⟩ := State.strobeWtt_tbl hovf
    rw [hw, hp]
    refine ⟨sorted_commitTable _ hwtt _ _, FMap.sorted_filter hpend _, fun i j hij hi hj => ?_⟩
    obtain ⟨a, hacand, haeq, ha⟩ := State.valid_window_is_candidate hovf hpend hi
    obtain ⟨b, hbcand, hbeq, hb⟩ := State.valid_window_is_candidate hovf hpend hj
    have hav : (windowOf a).v = true := by rwa [← haeq]
    have hbv : (windowOf b).v = true := by rwa [← hbeq]
    have hclean := checkTable_clean (·.v) wttConflict windowOf s.tbl.wtt s.tbl.wttPend s.wttOk
    rcases ha with ha | ha
    · rw [haeq, hbeq]
      exact conflicted_eq_nil (p := (i, a)) (q := (j, b)) (·.v) wttConflict windowOf _ _ hclean ha hbcand (Ne.symm hij) hav hbv
    · rcases hb with hb | hb
      · rw [haeq, hbeq, wttConflict_comm (windowOf a)]
        exact conflicted_eq_nil (p := (j, b)) (q := (i, a)) (·.v) wttConflict windowOf _ _ hclean hb hacand hij hbv hav
      · rw [ha] at hi ⊢
        rw [hb] at hj ⊢
        exact hapart i j hij hi hj

end Sys2Proof.Machine
end

section
/-! PROOFS. Mode requests (R306): what a rejection records, what cutting a slice short leaves of it, and the requests of Table 14.5. -/

namespace Sys2Proof.Machine

namespace State

/-! ### A rejected request -/

theorem offRegs_rejectMode (s : State) (cause target : Nat) : (s.rejectMode cause target).offRegs = s.offRegs := by
  rw [rejectMode, offRegs_incF, offRegs_setF, offRegs_setF, offRegs_setF]

theorem rejectMode_records (s : State) {cause target : Nat} (hc : cause < 8) (ht : target < 8) :
    (s.rejectMode cause target).f Fld.pwrModeStat_req_rej = 1 ∧ (s.rejectMode cause target).f Fld.pwrModeStat_rej_cause = cause
    ∧ (s.rejectMode cause target).f Fld.pwrModeStat_rej_target = target
    ∧ (s.rejectMode cause target).f Fld.pwrModeCnt_rejects = sat Fld.pwrModeCnt_rejects (s.f Fld.pwrModeCnt_rejects + 1) := by
  have hcause : cause % 2 ^ (Fld.pwrModeStat_rej_cause.hi + 1 - Fld.pwrModeStat_rej_cause.lo) = cause := Nat.mod_eq_of_lt hc
  have htarget : target % 2 ^ (Fld.pwrModeStat_rej_target.hi + 1 - Fld.pwrModeStat_rej_target.lo) = target := Nat.mod_eq_of_lt ht
  refine ⟨?_, ?_, ?_, ?_⟩
  · simp (disch := decide) only [rejectMode, f_incF_ne, f_setF_apart, f_setF_same]
    decide
  · simp (disch := decide) only [rejectMode, f_incF_ne, f_setF_apart, f_setF_same, hcause]
  · simp (disch := decide) only [rejectMode, f_incF_ne, f_setF_same, htarget]
  · simp (disch := decide) only [rejectMode, f_incF_same, f_setF_ne, sat]

theorem onlyFields_rejectMode (s : State) (cause target : Nat) :
    s.onlyFields (s.rejectMode cause target) [(Fld.pwrModeStat_req_rej, 0), (Fld.pwrModeStat_rej_cause, 0), (Fld.pwrModeStat_rej_target, 0),
      (Fld.pwrModeCnt_rejects, 0)] := by
  refine ((((onlyFields.refl s _).setF ?_ ?_ ?_ _).setF ?_ ?_ ?_ _).setF ?_ ?_ ?_ _).incF ?_ ?_ ?_ _ <;> decide

/-- What Table 14.5 asks of a request that is not listed. -/
theorem rejected_of_next {s : State} {c : Instr} {cause target : Nat} (h : exec c s = .next (s.start.rejectMode cause target)) (hc : cause < 8)
    (ht : target < 8) :
    ∃ t, exec c s = .next t ∧ t.f Fld.pwrModeStat_req_rej = 1 ∧ t.f Fld.pwrModeStat_rej_cause = cause
      ∧ t.f Fld.pwrModeStat_rej_target = target
      ∧ t.f Fld.pwrModeCnt_rejects = sat Fld.pwrModeCnt_rejects (s.f Fld.pwrModeCnt_rejects + 1)
      ∧ s.onlyFields t [(Fld.pwrModeStat_req_rej, 0), (Fld.pwrModeStat_rej_cause, 0), (Fld.pwrModeStat_rej_target, 0),
          (Fld.pwrModeCnt_rejects, 0)]
      ∧ t = { s.start with regs := t.regs } := by
  obtain ⟨hrej, hcause, htarget, hcnt⟩ := s.start.rejectMode_records hc ht
  exact ⟨_, h, hrej, hcause, htarget, hcnt, onlyFields_rejectMode s.start cause target, eq_of_offRegs (offRegs_rejectMode ..)⟩

/-! ### A slice that is cut short -/

@[simp] theorem offFault_modSlice_congr (s : State) (k : SliceKind) (g : Slice → Slice) :
    (s.modSlice k g).offFault = s.offFault.modSlice k g := by
  cases k <;> rfl

@[simp] theorem offFault_lastResult (s : State) (k : SliceKind) (code target count : Nat) :
    (s.lastResult k code target count).offFault = s.offFault := by
  cases k <;> simp only [lastResult, offFault_setF]

@[simp] theorem offFault_writeMisr (s : State) (k : SliceKind) (m e : Word) : (s.writeMisr k m e).offFault = s.offFault := by
  cases k <;> simp only [writeMisr, offFault_setF]

theorem offFault_thirdIncomplete (s : State) (hn : s.flt.haltNow = false) (x : Slice) : (s.thirdIncomplete x).offFault = s.offFault := by
  unfold thirdIncomplete
  split_ifs
  · exact s.offFault_raise (by decide) hn ..
  · rfl

/-- A slice that is judged INCOMPLETE goes on to Restore; beside that only registers and the fault collector change. -/
theorem offFault_judgeSlice (s : State) (k : SliceKind) {r : SliceResult} (hv : sliceVerdict k r = .incomplete) (hn : s.flt.haltNow = false) :
    (s.judgeSlice k r).offFault
      = (s.modSlice k fun x => { x.note .incomplete with st := .restore, cells := r.cells }).offFault := by
  have hcond (u : State) (p : Prop) [Decidable p] (x : Fld) : (if p then u.setF x 0 else u).offFault = u.offFault := by
    split_ifs
    · exact offFault_setF ..
    · rfl
  unfold judgeSlice
  simp only [hv]
  generalize hu : (if k = .mem ∧ SliceRes.incomplete ≠ .fail then State.setF _ _ _ else _ : State) = u
  have hoff : u.offFault = (s.modSlice k fun x => { x.note .incomplete with st := .restore, cells := r.cells }).offFault := by
    rw [← hu, hcond, offFault_writeMisr, offFault_lastResult]
  have hnow : (u.incF Fld.bstCnt_incomplete).flt.haltNow = false := by
    rw [incF_flt, (flt_of_offFault hoff).2]
    cases k <;> exact hn
  rw [offFault_thirdIncomplete _ hnow, offFault_incF, hoff]

theorem sliceVerdict_cut (k : SliceKind) (n : Nat) (m e : Word) :
    sliceVerdict k { count := n % fullCount k, misr := m, expected := e } = .incomplete := by
  have hlt : n % fullCount k < fullCount k := Nat.mod_lt _ (by cases k <;> decide)
  exact if_pos (Nat.ne_of_lt hlt)

end State

/-- A slice that is cut short is not in Test, and one in Prepare is ended when it gets there; the other kind's is as it was. -/
structure State.CutShort (s t : State) (k : SliceKind) : Prop where
  mode : t.mode = s.mode
  phase : t.phase = s.phase
  haltNow : t.flt.haltNow = s.flt.haltNow
  notTest : (t.sliceOf k).st ≠ .test
  cut : (s.sliceOf k).st = .prepare → (t.sliceOf k).cut = true
  other : ∀ j, j ≠ k → t.sliceOf j = s.sliceOf j

namespace State

theorem sliceOf_modSlice (s : State) (k : SliceKind) (g : Slice → Slice) : (s.modSlice k g).sliceOf k = g (s.sliceOf k) := by
  cases k <;> rfl

theorem sliceOf_modSlice_ne (s : State) {k j : SliceKind} (h : j ≠ k) (g : Slice → Slice) : (s.modSlice k g).sliceOf j = s.sliceOf j := by
  cases k <;> cases j <;> first | rfl | exact absurd rfl h

theorem sliceOf_of_offFault {s t : State} (h : t.offFault = s.offFault) (k : SliceKind) : t.sliceOf k = s.sliceOf k :=
  (congrArg (fun u : State => u.sliceOf k) h : t.offFault.sliceOf k = s.offFault.sliceOf k)

theorem mode_of_offFault {s t : State} (h : t.offFault = s.offFault) : t.mode = s.mode ∧ t.phase = s.phase :=
  ⟨(congrArg State.mode h : t.offFault.mode = s.offFault.mode), (congrArg State.phase h : t.offFault.phase = s.offFault.phase)⟩

theorem modSlice_mode (s : State) (k : SliceKind) (g : Slice → Slice) :
    (s.modSlice k g).mode = s.mode ∧ (s.modSlice k g).phase = s.phase ∧ (s.modSlice k g).flt = s.flt := by
  cases k <;> exact ⟨rfl, rfl, rfl⟩

theorem cutSlice_cutShort (s : State) (k : SliceKind) (hn : s.flt.haltNow = false) : s.CutShort (s.cutSlice k) k := by
  unfold cutSlice
  split
  next htest =>
    have hslice (j : SliceKind) : s.draw.draw.draw.sliceOf j = s.sliceOf j := by cases j <;> rfl
    have hoff := s.draw.draw.draw.offFault_judgeSlice k
      (sliceVerdict_cut k s.free (BitVec.ofNat 32 s.draw.free) (BitVec.ofNat 32 s.draw.draw.free)) hn
    obtain ⟨hmode, hphase⟩ := mode_of_offFault hoff
    obtain ⟨hmode', hphase', hflt⟩ := modSlice_mode s.draw.draw.draw k fun x => { x.note .incomplete with st := .restore, cells := [] }
    have hk := sliceOf_of_offFault hoff
    refine ⟨hmode.trans hmode', hphase.trans hphase', ?_, ?_, fun h => ?_, fun j hj => ?_⟩
    · exact (flt_of_offFault hoff).2.trans (congrArg Flt.haltNow hflt)
    · exact fun h => SliceSt.noConfusion (((congrArg Slice.st (hk k)).trans (congrArg Slice.st (sliceOf_modSlice ..))).symm.trans h)
    · exact SliceSt.noConfusion (htest.symm.trans h)
    · exact ((hk j).trans (sliceOf_modSlice_ne _ hj _)).trans (hslice j)
  next hprep =>
    obtain ⟨hmode, hphase, hflt⟩ := modSlice_mode s k fun x => { x with cut := true }
    refine ⟨hmode, hphase, congrArg Flt.haltNow hflt, ?_, fun _ => ?_, fun j hj => sliceOf_modSlice_ne s hj _⟩
    · rw [sliceOf_modSlice]
      exact fun h => SliceSt.noConfusion (hprep.symm.trans h)
    · rw [sliceOf_modSlice]
  next hnt hnp => exact ⟨rfl, rfl, rfl, hnt, fun h => absurd h hnp, fun _ _ => rfl⟩

theorem cutSlice_idle (s : State) (k : SliceKind) (h : (s.sliceOf k).st = .idle) : s.cutSlice k = s := by
  simp [cutSlice, h]

/-! ### Requests that are permitted -/

theorem requestDoze_idle (s : State) (hm : s.mode = .run) (hp : s.phase = .steady) (hmem : s.bst.mem.st = .idle) (heng : s.bst.eng.st = .idle) :
    s.requestDoze = { s with phase := .quiescing, bst := { s.bst with startDue := false } } := by
  simp only [requestDoze, hm, hp, startQuiesce]
  rw [cutSlice_idle, cutSlice_idle]
  · rfl
  · exact hmem
  · rw [cutSlice_idle]
    · exact heng
    · exact hmem

theorem requestDoze_cuts (s : State) (hm : s.mode = .run) (hp : s.phase = .steady) (hn : s.flt.haltNow = false) :
    s.requestDoze.mode = .run ∧ s.requestDoze.phase = .quiescing
    ∧ s.requestDoze.bst.mem.st ≠ .test ∧ s.requestDoze.bst.eng.st ≠ .test
    ∧ (s.bst.mem.st = .prepare → s.requestDoze.bst.mem.cut = true) ∧ (s.bst.eng.st = .prepare → s.requestDoze.bst.eng.cut = true) := by
  have hreq : s.requestDoze = s.startQuiesce := by simp only [requestDoze, hm, hp]
  rw [hreq, startQuiesce]
  have hmem := cutSlice_cutShort (({ s with phase := .quiescing } : State).modBst fun b => { b with startDue := false }) .mem hn
  generalize ((({ s with phase := .quiescing } : State).modBst fun b => { b with startDue := false }).cutSlice .mem) = t at hmem ⊢
  have heng := cutSlice_cutShort t .eng (hmem.haltNow.trans hn)
  have hbefore : t.bst.eng = s.bst.eng := hmem.other .eng (by decide)
  have hafter : (t.cutSlice .eng).bst.mem = t.bst.mem := heng.other .mem (by decide)
  refine ⟨(heng.mode.trans hmem.mode).trans hm, heng.phase.trans hmem.phase, ?_, heng.notTest, fun h => ?_, fun h => ?_⟩
  · rw [hafter]
    exact hmem.notTest
  · rw [hafter]
    exact hmem.cut h
  · exact heng.cut ((congrArg Slice.st hbefore).trans h)

theorem modeRequest_works (s : State) (hr : s.mode ≠ .reset) (hh : s.mode ≠ .halt) :
    s.modeRequest 2 = s.requestRun ∧ s.modeRequest 3 = s.requestDoze ∧ s.modeRequest 4 = s.requestService := by
  have hnot : ¬ (s.mode = .reset ∨ s.mode = .halt) := by simp [hr, hh]
  exact ⟨if_neg hnot, if_neg hnot, if_neg hnot⟩

theorem modeRequest_invalid (s : State) (hr : s.mode ≠ .reset) (hh : s.mode ≠ .halt) {m : BitVec 3} (h : m = 1 ∨ m = 5 ∨ m = 6 ∨ m = 7) :
    exec (.modeReqInvalid m) s = .next (s.start.rejectMode 1 m.toNat) := by
  have hnot : ¬ (s.start.mode = .reset ∨ s.start.mode = .halt) := by
    rintro (h | h)
    · exact hr h
    · exact hh h
  have hreq : s.start.modeRequest m.toNat = s.start.rejectMode 1 m.toNat := by
    unfold modeRequest
    rw [if_neg hnot]
    rcases h with rfl | rfl | rfl | rfl <;> rfl
  have hlisted : ¬ (m = 2 ∨ m = 3 ∨ m = 4) := by rcases h with rfl | rfl | rfl | rfl <;> decide
  exact (congrArg Host.Outcome.next (if_neg hlisted)).trans (congrArg Host.Outcome.next hreq)

/-- A mode request of an initiator in a mode that takes requests. -/
theorem exec_modeReq (s : State) {m : Mode} (hm : s.mode = m) (hr : m ≠ .reset) (hh : m ≠ .halt) :
    exec .modeReqDoze s = .next s.start.requestDoze ∧ exec .modeReqRun s = .next s.start.requestRun
    ∧ exec .modeReqService s = .next s.start.requestService := by
  obtain ⟨hrun, hdoze, hservice⟩ := s.start.modeRequest_works (hm.trans_ne hr) (hm.trans_ne hh)
  exact ⟨congrArg Host.Outcome.next hdoze, congrArg Host.Outcome.next hrun, congrArg Host.Outcome.next hservice⟩

/-- The state with another phase; the branches of a mode change end so. -/
def withPhase (s : State) (p : Phase) : State := { s with phase := p }

theorem withPhase_regs (s : State) (p : Phase) : (s.withPhase p).regs = s.regs := rfl
theorem offRegs_withPhase (s : State) (p : Phase) : (s.withPhase p).offRegs = s.offRegs.withPhase p := rfl

/-- What changes the phase and register words. -/
theorem eq_withPhase {s t u : State} {p : Phase} (h : t = u.withPhase p) (hu : u.offRegs = s.offRegs) : t = { s with phase := p, regs := t.regs } := by
  have hoff : t.offRegs = (s.withPhase p).offRegs := by rw [h, offRegs_withPhase, hu, offRegs_withPhase]
  exact eq_of_offRegs hoff

theorem abandonQuiesce_told (s : State) :
    s.abandonQuiesce.f Fld.pwrModeCnt_abandons = sat Fld.pwrModeCnt_abandons (s.f Fld.pwrModeCnt_abandons + 1)
    ∧ s.abandonQuiesce.f Fld.pwrModeStat_req_rej = 1
    ∧ s.onlyFields s.abandonQuiesce [(Fld.pwrModeCnt_abandons, 0), (Fld.pwrModeStat_req_rej, 0)]
    ∧ s.abandonQuiesce = { s with phase := .steady, regs := s.abandonQuiesce.regs } := by
  have heq : s.abandonQuiesce = ((s.incF Fld.pwrModeCnt_abandons).setF Fld.pwrModeStat_req_rej 1).withPhase .steady := rfl
  have hregs := (congrArg State.regs heq).trans (withPhase_regs _ _)
  refine ⟨?_, ?_, onlyFields.congr ?_ hregs, eq_withPhase heq (by rw [offRegs_setF, offRegs_incF])⟩
  · rw [f_congr hregs]
    simp (disch := decide) only [f_setF_ne, f_incF_same, sat]
  · rw [f_congr hregs, f_setF_same _ (by decide)]
    decide
  · refine ((onlyFields.refl s _).incF ?_ ?_ ?_ 1).setF ?_ ?_ ?_ 1 <;> decide

theorem exitSeen_doze (s : State) (hm : s.mode = .doze) (hp : s.phase = .steady) {cause rule : Nat} (hc : cause < 16) (hr : rule < 32) :
    (s.exitSeen cause rule).f Fld.pwrModeStat_exit_cause = cause ∧ (s.exitSeen cause rule).f Fld.pwrModeStat_exit_rule = rule
    ∧ s.onlyFields (s.exitSeen cause rule) [(Fld.pwrModeStat_exit_cause, 0), (Fld.pwrModeStat_exit_rule, 0)]
    ∧ s.exitSeen cause rule = { s with phase := .exiting, regs := (s.exitSeen cause rule).regs } := by
  have heq : s.exitSeen cause rule = ((s.setF Fld.pwrModeStat_exit_cause cause).setF Fld.pwrModeStat_exit_rule rule).withPhase .exiting :=
    if_pos ⟨hm, hp⟩
  have hregs := (congrArg State.regs heq).trans (withPhase_regs _ _)
  refine ⟨?_, ?_, onlyFields.congr ?_ hregs, eq_withPhase heq (by rw [offRegs_setF, offRegs_setF])⟩
  · rw [f_congr hregs]
    simp (disch := decide) only [f_setF_apart, f_setF_same]
    exact Nat.mod_eq_of_lt hc
  · rw [f_congr hregs]
    simp (disch := decide) only [f_setF_same]
    exact Nat.mod_eq_of_lt hr
  · refine ((onlyFields.refl s _).setF ?_ ?_ ?_ _).setF ?_ ?_ ?_ _ <;> decide

theorem endService_told (s : State) :
    s.endService.f Fld.gateDbgUnlock_unlock = 0 ∧ s.endService.f Fld.gateDbgStat_unlocked = 0
    ∧ s.onlyFields s.endService [(Fld.gateDbgUnlock_unlock, 0), (Fld.gateDbgStat_unlocked, 0)]
    ∧ s.endService = { s with regs := s.endService.regs, flt := { s.flt with exLeft := 0 } } := by
  have hregs : s.endService.regs = ((s.setF Fld.gateDbgUnlock_unlock 0).setF Fld.gateDbgStat_unlocked 0).regs := modFlt_regs _ _
  refine ⟨?_, ?_, onlyFields.congr ?_ hregs, rfl⟩
  · rw [f_congr hregs]
    simp (disch := decide) only [f_setF_ne, f_setF_same, Nat.zero_mod]
  · rw [f_congr hregs]
    simp (disch := decide) only [f_setF_same, Nat.zero_mod]
  · refine ((onlyFields.refl s _).setF ?_ ?_ ?_ _).setF ?_ ?_ ?_ _ <;> decide

/-- RUN entered from SERVICE. -/
def intoRun (s : State) : State := { s with mode := .run, pwr := { s.pwr with runAfterFg := false } }

theorem leaveService_idle (s : State) (hm : s.mode = .service) (hresc : s.pwr.rescue = false) (hrun : s.pwr.runAfterFg = false)
    (hidle : s.serviceIdle = true) : s.leaveService = s.endService.intoRun := by
  have hfg : s.bst.fg = false := by
    simp only [serviceIdle, Bool.and_eq_true, Bool.not_eq_true'] at hidle
    obtain ⟨⟨⟨⟨_, _⟩, hfg⟩, _⟩, _⟩ := hidle
    exact hfg
  have hgo : (s.modPwr fun w => { w with runAfterFg := true }).runAtLast = s.endService.intoRun := if_pos ⟨hm, rfl, hidle⟩
  rw [← hgo, leaveService, hresc, hrun]
  simp [hfg]

/-! ### Table 14.5 -/

theorem requests_permitted :
    (∀ s : State, s.mode = .run → s.phase = .steady → s.bst.mem.st = .idle → s.bst.eng.st = .idle →
        ∃ t, exec .modeReqDoze s = .next t ∧ t = { s.start with phase := .quiescing, bst := { s.bst with startDue := false } })
      ∧ (∀ s : State, s.mode = .run → s.phase = .steady →
        ∃ t, exec .modeReqDoze s = .next t ∧ t.mode = .run ∧ t.phase = .quiescing ∧ t.bst.mem.st ≠ .test ∧ t.bst.eng.st ≠ .test
          ∧ (s.bst.mem.st = .prepare → t.bst.mem.cut = true) ∧ (s.bst.eng.st = .prepare → t.bst.eng.cut = true))
      ∧ (∀ s : State, s.mode = .run → s.phase = .quiescing →
        ∃ t, exec .modeReqRun s = .next t ∧ t.f Fld.pwrModeCnt_abandons = sat Fld.pwrModeCnt_abandons (s.f Fld.pwrModeCnt_abandons + 1)
          ∧ t.f Fld.pwrModeStat_req_rej = 1 ∧ s.onlyFields t [(Fld.pwrModeCnt_abandons, 0), (Fld.pwrModeStat_req_rej, 0)]
          ∧ t = { s.start with phase := .steady, regs := t.regs })
      ∧ (∀ s : State, s.mode = .doze → s.phase = .steady →
        ∃ t, exec .modeReqRun s = .next t ∧ t.f Fld.pwrModeStat_exit_cause = 1 ∧ t.f Fld.pwrModeStat_exit_rule = 0
          ∧ s.onlyFields t [(Fld.pwrModeStat_exit_cause, 0), (Fld.pwrModeStat_exit_rule, 0)]
          ∧ t = { s.start with phase := .exiting, regs := t.regs })
      ∧ (∀ s : State, s.mode = .service → s.pwr.rescue = false → s.pwr.runAfterFg = false → s.serviceIdle = true →
        ∃ t, exec .modeReqRun s = .next t ∧ t.mode = .run ∧ t.f Fld.gateDbgUnlock_unlock = 0 ∧ t.f Fld.gateDbgStat_unlocked = 0
          ∧ s.onlyFields t [(Fld.gateDbgUnlock_unlock, 0), (Fld.gateDbgStat_unlocked, 0)]
          ∧ t = { s.start with mode := .run, regs := t.regs, flt := { s.start.flt with exLeft := 0 }, pwr := { s.pwr with runAfterFg := false } })
      ∧ (∀ s : State, s.mode = .run → s.phase = .steady →
        ∃ t, exec .modeReqService s = .next t
          ∧ t = { s.start with mode := .service, pwr := { s.pwr with runAfterFg := false }, bst := { s.bst with startDue := false } }) := by
  refine ⟨fun s hm hp hmem heng => ?_, fun s hm hp => ?_, fun s hm hp => ?_, fun s hm hp => ?_, fun s hm hresc hrun hidle => ?_, fun s hm hp => ?_⟩
  · exact ⟨_, (exec_modeReq s hm (by decide) (by decide)).1, requestDoze_idle s.start hm hp hmem heng⟩
  · exact ⟨_, (exec_modeReq s hm (by decide) (by decide)).1, requestDoze_cuts s.start hm hp rfl⟩
  · have hreq : s.start.requestRun = s.start.abandonQuiesce := by simp only [requestRun, start, hm, hp]
    exact ⟨_, (exec_modeReq s hm (by decide) (by decide)).2.1.trans (congrArg Host.Outcome.next hreq), abandonQuiesce_told s.start⟩
  · have hreq : s.start.requestRun = s.start.exitSeen 1 0 := by simp only [requestRun, start, hm, hp]
    exact ⟨_, (exec_modeReq s hm (by decide) (by decide)).2.1.trans (congrArg Host.Outcome.next hreq),
      exitSeen_doze s.start hm hp (by decide) (by decide)⟩
  · have hreq : s.start.requestRun = s.start.leaveService := by simp only [requestRun, start, hm]
    obtain ⟨hunlock, hunlocked, honly, heq⟩ := s.start.endService_told
    refine ⟨_, (exec_modeReq s hm (by decide) (by decide)).2.1.trans (congrArg Host.Outcome.next
      (hreq.trans (s.start.leaveService_idle hm hresc hrun hidle))), rfl, hunlock, hunlocked, honly, ?_⟩
    exact congrArg intoRun heq
  · have hreq : s.start.requestService = { s.start with
        mode := .service, pwr := { s.pwr with runAfterFg := false }, bst := { s.bst with startDue := false } } := by
      simp only [requestService, start, hm, hp]
      rfl
    exact ⟨_, (exec_modeReq s hm (by decide) (by decide)).2.2, hreq⟩

theorem requests_without_effect :
    (∀ s : State, s.mode = .run → s.phase = .steady → exec .modeReqRun s = .next s.start)
      ∧ (∀ s : State, s.mode = .doze → s.phase = .steady → exec .modeReqDoze s = .next s.start)
      ∧ (∀ s : State, s.mode = .service → exec .modeReqService s = .next s.start)
      ∧ (∀ s : State, s.mode = .run → s.phase = .quiescing → exec .modeReqDoze s = .next s.start) := by
  refine ⟨fun s hm hp => ?_, fun s hm hp => ?_, fun s hm => ?_, fun s hm hp => ?_⟩ <;>
    obtain ⟨hdoze, hrun, hservice⟩ := exec_modeReq s hm (by decide) (by decide)
  · rw [hrun]; simp only [requestRun, start, hm, hp]
  · rw [hdoze]; simp only [requestDoze, start, hm, hp]
  · rw [hservice]; simp only [requestService, start, hm]
  · rw [hdoze]; simp only [requestDoze, start, hm, hp]

/-- The rejections of Table 14.5, each with its cause. -/
theorem requests_rejected (s : State) (c : Instr) (cause target : Nat)
    (h : c = .modeReqDoze ∧ target = 3 ∧ (s.mode = .service ∧ cause = 1 ∨ s.mode = .load ∧ cause = 2 ∨ s.mode = .run ∧ s.phase = .entering ∧ cause = 2)
      ∨ c = .modeReqRun ∧ target = 2 ∧ (s.mode = .load ∧ cause = 2 ∨ s.mode = .doze ∧ s.phase = .exiting ∧ cause = 2
          ∨ s.mode = .service ∧ s.pwr.rescue = true ∧ cause = 3)
      ∨ c = .modeReqService ∧ target = 4 ∧ (s.mode = .run ∧ s.phase = .quiescing ∧ cause = 1 ∨ s.mode = .doze ∧ s.phase = .steady ∧ cause = 1
          ∨ s.mode = .run ∧ s.phase = .entering ∧ cause = 2 ∨ s.mode = .doze ∧ s.phase = .exiting ∧ cause = 1 ∨ s.mode = .load ∧ cause = 2)
      ∨ (∃ t : BitVec 3, c = .modeReqInvalid t ∧ target = t.toNat ∧ (t = 1 ∨ t = 5 ∨ t = 6 ∨ t = 7)) ∧ s.mode ≠ .reset ∧ s.mode ≠ .halt ∧ cause = 1) :
    exec c s = .next (s.start.rejectMode cause target) ∧ cause < 8 ∧ target < 8 := by
  rcases h with ⟨rfl, rfl, h⟩ | ⟨rfl, rfl, h⟩ | ⟨rfl, rfl, h⟩ | ⟨⟨t, rfl, rfl, ht⟩, hr, hh, rfl⟩
  · rcases h with ⟨hm, rfl⟩ | ⟨hm, rfl⟩ | ⟨hm, hp, rfl⟩ <;> refine ⟨?_, by decide, by decide⟩ <;>
      rw [(exec_modeReq s hm (by decide) (by decide)).1]
    · simp only [requestDoze, start, hm]
    · simp only [requestDoze, start, hm]
    · simp only [requestDoze, start, hm, hp]
  · rcases h with ⟨hm, rfl⟩ | ⟨hm, hp, rfl⟩ | ⟨hm, hp, rfl⟩ <;> refine ⟨?_, by decide, by decide⟩ <;>
      rw [(exec_modeReq s hm (by decide) (by decide)).2.1]
    · simp only [requestRun, start, hm]
    · simp only [requestRun, start, hm, hp]
    · simp only [requestRun, leaveService, start, hm, hp, if_true]
  · rcases h with ⟨hm, hp, rfl⟩ | ⟨hm, hp, rfl⟩ | ⟨hm, hp, rfl⟩ | ⟨hm, hp, rfl⟩ | ⟨hm, rfl⟩ <;> refine ⟨?_, by decide, by decide⟩ <;>
      rw [(exec_modeReq s hm (by decide) (by decide)).2.2]
    · simp only [requestService, start, hm, hp]
    · simp only [requestService, start, hm]
    · simp only [requestService, start, hm, hp]
    · simp only [requestService, start, hm]
    · simp only [requestService, start, hm]
  · exact ⟨modeRequest_invalid s hr hh ht, by decide, t.isLt⟩

end State

/-- Settles O16: the permitted requests, those without effect, and the rejections, each by its line of Table 14.5. -/
theorem modeRequests : Obligations.ModeRequests := by
  refine ⟨State.requests_permitted, State.requests_without_effect, fun s m hm hr hh => ?_, fun s c cause target h => ?_⟩
  · obtain ⟨t, hnext, hrej, hcause, htarget, hcnt, _, hframe⟩ :=
      State.rejected_of_next (State.modeRequest_invalid s hr hh hm) (by decide) m.isLt
    exact ⟨t, hnext, hrej, hcause, htarget, hcnt, hframe⟩
  · obtain ⟨hnext, hc, ht⟩ := State.requests_rejected s c cause target h
    exact State.rejected_of_next hnext hc ht

end Sys2Proof.Machine
end

section
/-! PROOFS. Accesses to the control space: what answering one changes, what an access that is performed at once does, and where a register's word
lies. -/

namespace Sys2Proof.Machine

/-! ### Where a register's word lies (R16) -/

theorem findReg_some {rel : Nat} {ids : List RegId} {id : RegId} {i : Nat} (h : findReg rel ids = some (id, i)) :
    id ∈ ids ∧ id.row.off + i / id.row.n2 * id.row.s1 + i % id.row.n2 * id.row.s2 = rel ∧ i / id.row.n2 < id.row.n1
    ∧ i % id.row.n2 < id.row.n2 := by
  induction ids with
  | nil => exact nomatch h
  | cons x xs ih =>
    unfold findReg at h
    dsimp only at h
    split at h
    next hx =>
      obtain ⟨hle, hn1, hn2, hmod⟩ := hx
      obtain ⟨rfl, rfl⟩ : x = id ∧ _ = i := by simpa using h
      have hpos : 0 < x.row.n2 := Nat.zero_lt_of_lt hn2
      rw [Nat.add_comm (_ * x.row.n2), Nat.add_mul_div_right _ _ hpos, Nat.div_eq_of_lt hn2, Nat.zero_add, Nat.add_mul_mod_self_right,
        Nat.mod_eq_of_lt hn2]
      have hd := Nat.div_add_mod (rel - x.row.off) x.row.s1
      have hr := Nat.div_add_mod ((rel - x.row.off) % x.row.s1) x.row.s2
      rw [hmod, Nat.add_zero] at hr
      refine ⟨List.mem_cons_self, ?_, hn1, hn2⟩
      rw [Nat.mul_comm _ x.row.s1, Nat.mul_comm _ x.row.s2]
      omega
    next => exact ⟨List.mem_cons_of_mem _ (ih h).1, (ih h).2⟩

/-- A register is listed in the block that its row names. -/
theorem block_of_mem_regs (b : Block) (id : RegId) (h : id ∈ b.regs) : id.row.block = b := by
  have hall : ∀ b ∈ blocks, ∀ id ∈ b.regs, id.row.block = b := by decide
  exact hall b (by cases b <;> decide) id h

theorem regAt_some {k : Nat} {id : RegId} {i : Nat} (h : regAt k = some (id, i)) :
    blockAt k = some id.row.block ∧ regOff id i = k := by
  unfold regAt at h
  split at h
  · exact nomatch h
  next b hb =>
    obtain ⟨hmem, hoff, _⟩ := findReg_some h
    have hblock := block_of_mem_regs b id hmem
    have hin := List.find?_some hb
    simp only [Bool.and_eq_true, decide_eq_true_eq] at hin
    refine ⟨hblock ▸ hb, ?_⟩
    unfold regOff
    dsimp only
    rw [hblock]
    omega

/-- A register's words lie in its block's own space. -/
theorem regAt_lt {k : Nat} {id : RegId} {i : Nat} (h : regAt k = some (id, i)) : k < id.row.block.base + id.row.block.size := by
  have hfit : ∀ b ∈ blocks, ∀ id ∈ b.regs, id.row.off + (id.row.n1 - 1) * id.row.s1 + (id.row.n2 - 1) * id.row.s2 < b.size := by decide
  unfold regAt at h
  split at h
  · exact nomatch h
  next b hb =>
    obtain ⟨hmem, hoff, hn1, hn2⟩ := findReg_some h
    have hbase := List.find?_some hb
    simp only [Bool.and_eq_true, decide_eq_true_eq] at hbase
    have hlt := hfit b (by cases b <;> decide) id hmem
    have h1 : i / id.row.n2 * id.row.s1 ≤ (id.row.n1 - 1) * id.row.s1 := Nat.mul_le_mul_right _ (by omega)
    have h2 : i % id.row.n2 * id.row.s2 ≤ (id.row.n2 - 1) * id.row.s2 := Nat.mul_le_mul_right _ (by omega)
    rw [block_of_mem_regs b id hmem]
    omega

theorem base_le_regOff (id : RegId) (i : Nat) : id.row.block.base ≤ regOff id i := by
  unfold regOff
  dsimp only
  omega

/-- A register of a block that begins above an offset lies elsewhere. -/
theorem regOff_ne_of_lt {id id' : RegId} {j : Nat} (h : regOff id' j < id.row.block.base) (i : Nat) : regOff id i ≠ regOff id' j :=
  fun he => absurd (base_le_regOff id i) (by omega)

theorem blocks_apart : ∀ b ∈ blocks, ∀ c ∈ blocks, b ≠ c → b.base + b.span ≤ c.base ∨ c.base + c.span ≤ b.base := by decide

theorem blockAt_iff (k : Nat) (b : Block) : blockAt k = some b ↔ b.base ≤ k ∧ k < b.base + b.span := by
  have hin {c : Block} (h : blockAt k = some c) : c.base ≤ k ∧ k < c.base + c.span := by
    have hc := List.find?_some h
    simpa only [Bool.and_eq_true, decide_eq_true_eq] using hc
  refine ⟨hin, fun h => ?_⟩
  have hb : b ∈ blocks := by cases b <;> decide
  have hsome : (blockAt k).isSome := List.find?_isSome.mpr ⟨b, hb, by simp [h.1, h.2]⟩
  obtain ⟨c, hc⟩ := Option.isSome_iff_exists.mp hsome
  have hck := hin hc
  by_cases hbc : b = c
  · rw [hbc, hc]
  · have := blocks_apart b hb c (List.mem_of_find?_eq_some hc) hbc
    omega

theorem through_ne_comp (k : AliasKind) (t : Target) (id : RegId) (i : Nat) : t.through k ≠ .comp id i := by
  cases t <;> simp [Target.through]

theorem through_ne_reg (k : AliasKind) (t : Target) (id : RegId) (i : Nat) : t.through k ≠ .reg id i := by
  cases t <;> simp [Target.through]

theorem blockTarget_reg {b : Block} {x : Nat} {id : RegId} {i : Nat} (h : blockTarget b x = .reg id i) : findReg x b.regs = some (id, i) := by
  unfold blockTarget at h
  split at h
  · exact nomatch h
  · exact nomatch h
  · split at h
    next id' i' hf =>
      obtain ⟨rfl, rfl⟩ := Target.reg.inj h
      exact hf
    next =>
      split at h
      · exact nomatch h
      · split at h
        · split at h <;> exact nomatch h
        · exact nomatch h

theorem blockTarget_comp {b : Block} {x : Nat} {id : RegId} {i : Nat} (h : blockTarget b x = .comp id i) :
    4 ≤ x ∧ findReg (x - 4) b.regs = some (id, i) := by
  unfold blockTarget at h
  split at h
  · exact nomatch h
  · exact nomatch h
  · split at h
    next => exact nomatch h
    next =>
      split at h
      · exact nomatch h
      · next hx =>
        split at h
        next id' i' hf =>
          split at h
          · obtain ⟨rfl, rfl⟩ := Target.comp.inj h
            exact ⟨by omega, hf⟩
          · exact nomatch h
        next => exact nomatch h

/-- What is not seen through the aliases lies in the block's own space. -/
theorem targetAt_direct {off : Nat} {t : Target} (h : targetAt off = t) (ht : ∀ k u, Target.through k u ≠ t) (hr : t ≠ .reserved)
    (ha : off % 4 = 0) : ∃ b, blockAt off = some b ∧ blockTarget b (off - b.base) = t := by
  unfold targetAt at h
  simp only [ha, Nat.sub_zero] at h
  split at h
  · exact absurd h.symm hr
  next b hb =>
    refine ⟨b, hb, ?_⟩
    split at h
    · exact h
    · split at h
      next hz =>
        have hpos : 0 < b.size := by cases b <;> decide
        rwa [Nat.mod_eq_of_lt ((Nat.div_eq_zero_iff_lt hpos).mp hz)] at h
      all_goals exact absurd h (ht _ _)

theorem targetAt_reg {off : Nat} {id : RegId} {i : Nat} (h : targetAt off = .reg id i) (ha : off % 4 = 0) :
    blockAt off = some id.row.block ∧ regOff id i = off := by
  obtain ⟨b, hb, hbt⟩ := targetAt_direct h (fun k u => through_ne_reg k u id i) nofun ha
  exact regAt_some (by simp only [regAt, hb, blockTarget_reg hbt])

theorem targetAt_comp {off : Nat} {id : RegId} {i : Nat} (h : targetAt off = .comp id i) (ha : off % 4 = 0) :
    blockAt off = some id.row.block ∧ regOff id i + 4 = off ∧ blockAt (regOff id i) = some id.row.block := by
  obtain ⟨b, hb, hbt⟩ := targetAt_direct h (fun k u => through_ne_comp k u id i) nofun ha
  obtain ⟨hx, hf⟩ := blockTarget_comp hbt
  obtain ⟨hle, hlt⟩ := (blockAt_iff off b).mp hb
  have hprev : blockAt (off - 4) = some b := (blockAt_iff _ _).mpr ⟨by omega, by omega⟩
  have hat : regAt (off - 4) = some (id, i) := by
    simp only [regAt, hprev]
    rwa [show off - 4 - b.base = off - b.base - 4 by omega]
  obtain ⟨hblock, hoff⟩ := regAt_some hat
  obtain rfl : b = id.row.block := Option.some.inj (hprev.symm.trans hblock)
  exact ⟨hb, by omega, hoff ▸ hblock⟩

/-- The register that an offset names is alone there. -/
theorem eq_of_targetAt {off : Nat} {id id' : RegId} {i j : Nat} (h : targetAt off = .reg id i) (h' : targetAt (regOff id' j) = .reg id' j)
    (he : off = regOff id' j) : id = id' := by
  rw [he, h'] at h
  exact (Target.reg.inj h).1.symm

namespace State

/-! ### What an answer changes -/

/-- The state but for what an answer changes: what goes out, the links, and the crossing queue. -/
def offAnswer (s : State) : State := { s with outp := [], links := [], slowQ := [] }

theorem eq_of_offAnswer {s t : State} (h : t.offAnswer = s.offAnswer) : t = { s with outp := t.outp, links := t.links, slowQ := t.slowQ } :=
  congrArg (fun u : State => { u with outp := t.outp, links := t.links, slowQ := t.slowQ }) h

theorem offAnswer_of_offLinks {s t : State} (h : t.offLinks = s.offLinks) : t.offAnswer = s.offAnswer :=
  congrArg (fun u : State => { u with slowQ := [] }) h

theorem offLinks_respond (s : State) {r : BcsReq} (hv : r.via = .thaty ∨ r.via = .path) (res : BcsRes) :
    (s.respond r res).offLinks = s.offLinks := by
  unfold respond
  dsimp only
  split
  · split
    · rfl
    · rw [offLinks_handTx, offLinks_emit]
  · next h => rcases hv with hv | hv <;> exact Via.noConfusion (hv.symm.trans h)
  · next h => rcases hv with hv | hv <;> exact Via.noConfusion (hv.symm.trans h)
  · rfl

theorem offAnswer_finishBcs (s : State) {r : BcsReq} (hv : r.via = .thaty ∨ r.via = .path) (res : BcsRes) :
    (s.finishBcs r res).offAnswer = s.offAnswer := by
  unfold finishBcs
  split
  · split
    · rfl
    · exact offAnswer_of_offLinks (offLinks_respond s hv res)
  · exact offAnswer_of_offLinks (offLinks_respond s hv res)

theorem viaOf_cases (a : Acc) : viaOf a = .thaty ∨ viaOf a = .path := by
  unfold viaOf
  split <;> simp

/-! ### What has gone out stays so -/

theorem outp_sendBlock (l : Nat) (pkt : Option TxPkt) (fpo : Nat) (stream : List Byte) (s : State) :
    s.outp ⊆ (sendBlock l pkt fpo stream s).outp := List.subset_append_left _ _

theorem outp_sendBlocks (l : Nat) (t : TxPkt) (fpo : Nat) (cs : List (List Byte)) (s : State) :
    s.outp ⊆ (sendBlocks l t fpo cs s).outp := by
  fun_induction sendBlocks l t fpo cs s with
  | case1 => exact List.Subset.refl _
  | case2 => exact outp_sendBlock ..
  | case3 fpo s b bs hne ih => exact List.Subset.trans (outp_sendBlock ..) ih

theorem outp_pump (l n : Nat) (s : State) : s.outp ⊆ (pump l n s).outp := by
  fun_induction pump l n s with
  | case5 n s k hk t rest =>
    rename_i ih
    exact List.Subset.trans (outp_sendBlocks l t 0 _ (s.modLink l fun k => { k with egress := rest, txCred := useCredits k.txCred t.pkt })) ih
  | _ => exact List.Subset.refl _

theorem outp_handPkt (s : State) (l : Nat) (t : TxPkt) : Output.packet (s.route l) t.pkt :: s.outp ⊆ (s.handPkt l t).outp :=
  have hput : Output.packet (s.route l) t.pkt :: s.outp ⊆ s.outp ++ [Output.packet (s.route l) t.pkt] := by simp
  List.Subset.trans hput (outp_pump (s.route l) _
    ((s.emit (.packet (s.route l) t.pkt)).modLink (s.route l) fun k => { k with egress := k.egress ++ [t] }))

theorem outp_handTx (s : State) (l : Nat) (p : Packet) (frees : List Nat) : Output.packet (s.route l) p :: s.outp ⊆ (s.handTx l p frees).outp :=
  outp_handPkt s l (s.txNow p frees)

theorem outp_smbAnswer (s : State) (r : BcsReq) (res : BcsRes) : s.outp ⊆ (s.smbAnswer r res).outp := by
  unfold smbAnswer
  dsimp only
  split
  · exact List.Subset.refl _
  · split <;> exact List.subset_append_left _ _

/-- An access that has ended is told. -/
theorem bcs_mem_respond (s : State) (r : BcsReq) (res : BcsRes) : Output.bcs r res ∈ (s.respond r res).outp := by
  have hmem : Output.bcs r res ∈ (s.emit (.bcs r res)).outp := List.mem_append_right _ (List.mem_singleton_self _)
  unfold respond
  dsimp only
  split
  · split
    · exact hmem
    · exact outp_handTx _ _ _ _ (List.mem_cons_of_mem _ hmem)
  · exact outp_smbAnswer _ _ _ hmem
  · unfold tapAnswer
    split <;> exact hmem
  · exact hmem

theorem ended_finishBcs {s t : State} (h : t.slowQ = s.slowQ) (r : BcsReq) (res : BcsRes) : s.ended (t.finishBcs r res) r res := by
  unfold ended finishBcs
  cases reqBlock r with
  | none => exact bcs_mem_respond ..
  | some b =>
    dsimp only
    split
    · exact congrArg (· ++ [(r, res)]) h
    · exact bcs_mem_respond ..

/-! ### An access that is performed at once -/

theorem exitSeen_of_not (s : State) (cause rule : Nat) (hd : ¬ (s.mode = .doze ∧ s.phase = .steady)) (he : ¬ (s.mode = .run ∧ s.phase = .entering)) :
    s.exitSeen cause rule = s := by
  unfold exitSeen
  dsimp only
  rw [if_neg hd, if_neg he]

/-- What holds of an access that is performed at once. -/
structure Goes (s : State) (r : BcsReq) : Prop where
  reach : s.canReach r.acc.src = true
  alone : s.bcsWait = []
  form : formCause r = none
  free : s.mustWait [] r = false
  block : ∃ b, reqBlock r = some b ∧ s.modeRefuses b r = false
  judge : s.bcsJudge r = .ok
  prsv : s.prsvStops r = false
  entering : ¬ (s.mode = .run ∧ s.phase = .entering ∧ dozeHeld r = true)
  exercise : s.exOn 11 = false

theorem goes_iff (s : State) (r : BcsReq) : s.goes r = true ↔ s.Goes r := by
  unfold goes
  constructor
  · intro h
    simp only [Bool.and_eq_true, Bool.not_eq_true', List.isEmpty_iff, beq_iff_eq, Bool.and_eq_false_iff] at h
    obtain ⟨⟨⟨⟨⟨⟨⟨⟨hreach, halone⟩, hform⟩, hfree⟩, hblock⟩, hjudge⟩, hprsv⟩, hent⟩, hex⟩ := h
    refine ⟨hreach, halone, hform, hfree, ?_, hjudge, hprsv, ?_, hex⟩
    · split at hblock
      next b hb => exact ⟨b, hb, by simpa using hblock⟩
      next => exact nomatch hblock
    · rintro ⟨hm, hp, hd⟩
      simp [hm, hp, hd] at hent
  · rintro ⟨hreach, halone, hform, hfree, ⟨b, hb, hmode⟩, hjudge, hprsv, hent, hex⟩
    have hent' : (s.mode == .run && s.phase == .entering && dozeHeld r) = false := by
      rw [Bool.eq_false_iff]
      intro hc
      simp only [Bool.and_eq_true, beq_iff_eq] at hc
      exact hent ⟨hc.1.1, hc.1.2, hc.2⟩
    simp [hreach, halone, hform, hfree, hb, hmode, hjudge, hprsv, hent', hex]

/-- A gate judges by the register words, the mode and whether the bridge is rescued. -/
theorem judge_congr {s t : State} (hregs : t.regs = s.regs) (hm : t.mode = s.mode) (hp : t.pwr = s.pwr) (g id a z : Nat) (rd wr : Bool) :
    t.judge g id a z rd wr = s.judge g id a z rd wr := by
  have hrescued : t.rescued = s.rescued := by simp [rescued, hm, hp]
  have hregions : t.regions g = s.regions g := by simp [regions, hrescued, hregs]
  have hpart (p : Nat) : t.judgePart g id p rd wr = s.judgePart g id p rd wr := by
    simp [judgePart, hregions, defmapGrants, hrescued, f_congr hregs, hm, fb]
  have hparts (k : Nat) : ∀ x, t.judgeParts g id rd wr z k x = s.judgeParts g id rd wr z k x := by
    induction k with
    | zero => exact fun _ => rfl
    | succ k ih => exact fun x => by simp only [judgeParts, hpart, hregions, ih]
  simp only [judge, hregions, hparts]

theorem bcsJudge_start (s : State) (r : BcsReq) : s.start.bcsJudge r = s.bcsJudge r :=
  judge_congr (s := s) (t := s.start) rfl rfl rfl ..

theorem prsvStops_start (s : State) (r : BcsReq) : s.start.prsvStops r = s.prsvStops r := by
  unfold prsvStops
  rw [bcsJudge_start]
  rfl

theorem goes_start (s : State) (r : BcsReq) : s.start.goes r = s.goes r := by
  unfold goes
  rw [bcsJudge_start, prsvStops_start]
  rfl

/-- An access that DOZE holds waits there, so one that goes is no exit cause. -/
theorem Goes.wakes {s : State} {r : BcsReq} (h : s.Goes r) : s.bcsWakes r = s := by
  unfold bcsWakes
  split
  next hd =>
    refine exitSeen_of_not s 5 0 ?_ fun he => h.entering ⟨he.1, he.2, hd.2⟩
    rintro ⟨hm, _⟩
    obtain ⟨b, hb, _⟩ := h.block
    have hheld : s.selfHeld r = true := by simp [selfHeld, hb, hm, hd.2]
    have hwait := h.free
    simp [mustWait, h.form, hheld] at hwait
  next => rfl

theorem leaveBuffer_nil (s : State) {r : BcsReq} (h : r.credits = []) : s.leaveBuffer r = s := by
  unfold leaveBuffer
  split
  · exact if_pos h
  · rfl

theorem Goes.does {s : State} {r : BcsReq} (h : s.Goes r) (hc : r.credits = []) : s.bcsDo r = s.bcsPerform r := by
  obtain ⟨b, hb, hmode⟩ := h.block
  simp [bcsDo, leaveBuffer_nil s hc, h.form, hb, hmode, h.judge]

theorem Goes.run {s : State} {r : BcsReq} (h : s.Goes r) (hc : r.credits = []) : s.bcsRun r = .next (s.bcsPerform r) := by
  have harrive : s.bcsArrive r = s.bcsPerform r := by
    simp [bcsArrive, h.exercise, h.wakes, h.alone, h.free, h.does hc]
  simp [bcsRun, h.reach, h.prsv, harrive]

theorem bcsRun_of_goes {s : State} {r : BcsReq} (h : s.goes r = true) (hc : r.credits = []) : s.start.bcsRun r = .next (s.start.bcsPerform r) :=
  Goes.run ((goes_iff s.start r).mp ((goes_start s r).trans h)) hc

/-! ### The write of one word -/

theorem firstWord_wordWrite (a : Acc) (off : Nat) (v : Word) : firstWord (wordWrite a off v) = v := by
  have hbytes : bytesNat (natBytes 4 v.toNat) = v.toNat := by
    rw [bytesNat_natBytes]
    exact Nat.mod_eq_of_lt v.isLt
  have hfield : fieldAt 0 4 (wordWrite a off v).data = bytesNat (natBytes 4 v.toNat) := by
    simp [fieldAt, slice, wordWrite, wordBytes, List.take_of_length_le, length_natBytes]
  rw [firstWord, hfield, hbytes, BitVec.ofNat_toNat, BitVec.setWidth_eq]

/-- Whether an offset names a word that is not in a table. -/
def notTable (t : Target) : Prop := ∀ k, t ≠ .wtt k ∧ t ≠ .dvt k

theorem bcsWrite_wordWrite (s : State) (a : Acc) (off : Nat) (v : Word) (h : notTable (targetAt off)) :
    s.bcsWrite (wordWrite a off v) = s.writeWord a off v false := by
  have hoff : (wordWrite a off v).off = off := rfl
  unfold bcsWrite
  rw [hoff]
  split
  next k hk => exact absurd hk (h k).1
  next k hk => exact absurd hk (h k).2
  next => rw [firstWord_wordWrite]; exact if_neg (show ¬ (4 : Nat) = 8 by decide)

/-- The write of a word that is performed at once, where it starts no strobe. -/
theorem exec_wordWrite {s : State} {a : Acc} {off : Nat} {v : Word} (hg : s.goes (wordWrite a off v) = true) (ht : notTable (targetAt off))
    (hs : isStrobe (wordWrite a off v) = false) :
    s.start.bcsRun (wordWrite a off v) = .next ((s.start.writeWord a off v false).finishBcs (wordWrite a off v) (.done [])) := by
  rw [bcsRun_of_goes hg rfl]
  have hwr : (wordWrite a off v).wr = true := rfl
  simp [bcsPerform, hwr, bcsWrite_wordWrite s.start a off v ht, hs]

/-- An access of one word that is performed is aligned (R18). -/
theorem formCause_aligned {r : BcsReq} (hlen : r.en.length = 4) (h : formCause r = none) : r.off % 4 = 0 := by
  by_contra hne
  unfold formCause at h
  simp only [hlen] at h
  split at h
  · exact nomatch h
  · rw [if_pos (by simp [hne])] at h
    exact nomatch h

theorem breakPending_noPend (s : State) {off : Nat} {b : Block} (hb : blockAt off = some b) (h : s.noPend off = true) :
    s.breakPending b.base = s := by
  have hnone : FMap.find b.base s.keyPend = none := by simpa [noPend, hb] using h
  simp [breakPending, hnone]

/-- An offset that names a register or one of its words lies in a block. -/
theorem goes_block {s : State} {r : BcsReq} (h : s.goes r = true) : ∃ b, blockAt r.off = some b := by
  obtain ⟨b, hb, _⟩ := ((goes_iff s r).mp h).block
  exact ⟨b, hb⟩

/-- A write at the base offset of a register that is not keyed, while no pair is pending in its block. -/
theorem writeWord_reg (s : State) {a : Acc} {off : Nat} {b : Block} {id : RegId} {i : Nat} (ht : targetAt off = .reg id i)
    (hk : id.row.keyed = false) (hb : blockAt off = some b) (hp : s.noPend off = true) (hr : s.reaches a id i = true) (v : Word) (viol : Bool) :
    s.writeWord a off v viol = s.writeReg a id i v viol := by
  unfold writeWord
  rw [hb, ht]
  simp [hk, hr, breakPending_noPend s hb hp]

/-- A write through the aliases of such a register. -/
theorem writeWord_alias (s : State) {a : Acc} {off : Nat} {b : Block} {k : AliasKind} {id : RegId} {i : Nat}
    (ht : targetAt off = .viaAlias k id i) (hk : id.row.keyed = false) (hb : blockAt off = some b) (hp : s.noPend off = true)
    (hr : s.reaches a id i = true) (v : Word) (viol : Bool) : s.writeWord a off v viol = s.writeAlias a k id i v viol := by
  unfold writeWord
  rw [hb, ht]
  simp [hk, hr, breakPending_noPend s hb hp]

theorem isStrobe_of_ne {a : Acc} {off : Nat} {v : Word} (h : ∀ i, targetAt off ≠ .reg .updStrobe i) : isStrobe (wordWrite a off v) = false := by
  unfold isStrobe
  split
  next i hi => exact absurd hi (h i)
  next => rfl

end State

end Sys2Proof.Machine
end

section
/-! PROOFS. Writes of registers that only store (R18, R26, R29, R34): locked bits, the plain effect of a write, and what the aliases write. -/

namespace Sys2Proof.Machine

namespace State

/-! ### Plain effects -/

theorem writeEffect_plain (s : State) (a : Acc) {id : RegId} (h : plainReg id = true) (i : Nat) (v : Word) :
    s.writeEffect a id i v = s.store id i v := by
  unfold writeEffect
  split
  all_goals first
    | rfl
    | exact absurd h (by decide)

theorem plainReg_notKeyed {id : RegId} (h : plainReg id = true) : id.row.keyed = false := by
  simp only [plainReg, Bool.and_eq_true, Bool.not_eq_true'] at h
  exact h.1

theorem plainReg_ne {id : RegId} (h : plainReg id = true) : id ≠ .updStrobe ∧ id ≠ .fltSrcCfg := by
  constructor <;> rintro rfl <;> exact absurd h (by decide)

theorem blend_zero (v w : Word) : blend 0 v w = w := by
  rw [blend, show ~~~(0 : Word) = BitVec.allOnes 32 from rfl, BitVec.and_allOnes]
  simp

theorem blend_allOnes (v w : Word) : blend (BitVec.allOnes 32) v w = v := by
  rw [blend, BitVec.and_allOnes]
  simp

theorem reg_putRw (s : State) (id : RegId) (i : Nat) (m v : Word) : (s.putRw id i m v).reg id i = blend m v (s.reg id i) := by
  unfold putRw
  split
  next h => rw [h, blend_zero]
  next => exact reg_setReg_same ..

theorem shadowReg_putRws (s : State) (id : RegId) (i : Nat) (m v : Word) :
    (s.putRws id i m v).shadowReg id i = blend m v (s.shadowReg id i) := by
  unfold putRws
  split
  next h => rw [h, blend_zero]
  next => exact shadowReg_setShadow_same ..

theorem putRws_regs (s : State) (id : RegId) (i : Nat) (m v : Word) : (s.putRws id i m v).regs = s.regs := by
  unfold putRws
  split <;> rfl

theorem putRw_shadow (s : State) (id : RegId) (i : Nat) (m v : Word) : (s.putRw id i m v).shadow = s.shadow := by
  unfold putRw
  split <;> rfl

theorem onlyRegs_putRw (s : State) (id : RegId) (i : Nat) (m v : Word) {xs : List (RegId × Nat)} (h : (id, i) ∈ xs) :
    s.onlyRegs (s.putRw id i m v) xs := by
  unfold putRw
  split
  · exact onlyRegs.refl s xs
  · exact onlyRegs_setReg s h _

theorem offRegs_putRw (s : State) (id : RegId) (i : Nat) (m v : Word) : (s.putRw id i m v).offRegs = s.offRegs := by
  unfold putRw
  split <;> rfl

/-- The state but for its register and shadow words. -/
def offWords (s : State) : State := { s with regs := [], shadow := [] }

theorem offWords_of_offRegs {s t : State} (h : t.offRegs = s.offRegs) : t.offWords = s.offWords :=
  congrArg (fun u : State => { u with shadow := [] }) h

theorem offWords_putRws (s : State) (id : RegId) (i : Nat) (m v : Word) : (s.putRws id i m v).offWords = s.offWords := by
  unfold putRws
  split <;> rfl

/-- What a write that only stores does. -/
theorem store_stores (s : State) (id : RegId) (i : Nat) (v : Word) :
    (s.store id i v).reg id i = blend (id.row.rw &&& ~~~s.lockMask id i) v (s.reg id i)
    ∧ (s.store id i v).shadowReg id i = blend (id.row.rws &&& ~~~s.lockMask id i) v (s.shadowReg id i)
    ∧ (∀ k, k ≠ regOff id i → FMap.find k (s.store id i v).shadow = FMap.find k s.shadow)
    ∧ s.onlyRegs (s.store id i v) [(id, i)] ∧ (s.store id i v).offWords = s.offWords := by
  unfold store
  dsimp only
  generalize id.row.rw &&& ~~~s.lockMask id i = m
  generalize id.row.rws &&& ~~~s.lockMask id i = n
  have hsh := s.putRw_shadow id i m v
  refine ⟨?_, ?_, fun k hk => ?_, ?_, ?_⟩
  · rw [reg_congr (putRws_regs ..), reg_putRw]
  · rw [shadowReg_putRws, shadowReg, hsh]
    rfl
  · rw [← hsh]
    unfold putRws
    split
    · rfl
    · exact FMap.find_set_ne hk ..
  · exact (onlyRegs_putRw s id i m v (List.mem_singleton_self _)).congr (putRws_regs ..)
  · exact (offWords_putRws ..).trans (offWords_of_offRegs (offRegs_putRw ..))

/-! ### A write that a locked field refuses -/

theorem lockViol_records (s : State) {off : Nat} (h : off < 2 ^ 26) :
    (s.lockViol off).f Fld.updLockStatus_reglock_viol = 1 ∧ (s.lockViol off).f Fld.updLockAddr_offset = off
    ∧ (s.lockViol off).f Fld.updLockStatus_viol_cnt = sat Fld.updLockStatus_viol_cnt (s.f Fld.updLockStatus_viol_cnt + 1)
    ∧ s.onlyRegs (s.lockViol off) [(.updLockStatus, 0), (.updLockAddr, 0)] ∧ (s.lockViol off).offRegs = s.offRegs := by
  refine ⟨?_, ?_, ?_, ?_, ?_⟩
  · simp (disch := decide) only [lockViol, f_setF_ne, f_incF_apart, f_setF_same]
    decide
  · simp (disch := decide) only [lockViol, f_setF_same]
    exact Nat.mod_eq_of_lt h
  · simp (disch := decide) only [lockViol, f_setF_ne, f_incF_same, f_setF_apart, sat]
  · refine (((onlyRegs.refl s _).setF ?_ _).incF ?_ _).setF ?_ _ <;> decide
  · rw [lockViol, offRegs_setF, offRegs_incF, offRegs_setF]

/-- Only registers of blocks behind UPD lock others. -/
theorem lockMask_congr {s t : State} (h : s.onlyRegs t [(.updLockStatus, 0), (.updLockAddr, 0)]) (id : RegId) (i : Nat) :
    t.lockMask id i = s.lockMask id i := by
  have hr (x : RegId) (hx : Block.flt.base ≤ x.row.block.base) (j : Nat) : t.reg x j = s.reg x j := by
    refine h.reg_eq fun p hp => Ne.symm (regOff_ne_of_lt (Nat.lt_of_lt_of_le ?_ hx) j)
    have hall : ∀ p ∈ [(RegId.updLockStatus, 0), (.updLockAddr, 0)], regOff p.1 p.2 < Block.flt.base := by decide
    exact hall p hp
  have hf (x : Fld) (hx : Block.flt.base ≤ x.id.row.block.base) (j : Nat) : t.f x j = s.f x j := by rw [f, f, hr x.id hx]
  have hfb (x : Fld) (hx : Block.flt.base ≤ x.id.row.block.base) (j : Nat) : t.fb x j = s.fb x j := by rw [fb, fb, hf x hx]
  unfold lockMask
  split <;> simp only [hf Fld.qStat_state (by decide), hfb Fld.pelCfg_en (by decide), hfb Fld.mgtQCfg_en (by decide), hr .gateRgnCtl (by decide)]

/-- A write of a register that only stores, with the record of a lock that it breaks. -/
theorem writeReg_stores (s : State) (a : Acc) {id : RegId} (hp : plainReg id = true) (hu : id.row.block ≠ .upd) {i : Nat}
    (hat : targetAt (regOff id i) = .reg id i) (hoff : regOff id i < 2 ^ 26) (v : Word) :
    (s.writeReg a id i v).reg id i = blend (id.row.rw &&& ~~~s.lockMask id i) v (s.reg id i)
    ∧ (s.writeReg a id i v).shadowReg id i = blend (id.row.rws &&& ~~~s.lockMask id i) v (s.shadowReg id i)
    ∧ (∀ k, k ≠ regOff id i → FMap.find k (s.writeReg a id i v).shadow = FMap.find k s.shadow)
    ∧ (if s.lockBreaks id i v then
        (s.writeReg a id i v).f Fld.updLockStatus_reglock_viol = 1 ∧ (s.writeReg a id i v).f Fld.updLockAddr_offset = regOff id i
        ∧ (s.writeReg a id i v).f Fld.updLockStatus_viol_cnt = sat Fld.updLockStatus_viol_cnt (s.f Fld.updLockStatus_viol_cnt + 1)
        ∧ s.onlyRegs (s.writeReg a id i v) [(id, i), (.updLockStatus, 0), (.updLockAddr, 0)]
       else s.onlyRegs (s.writeReg a id i v) [(id, i)])
    ∧ (s.writeReg a id i v).offWords = s.offWords := by
  unfold writeReg
  simp only [Bool.not_false, Bool.true_and, writeEffect_plain _ a hp]
  split_ifs
  · obtain ⟨hviol, haddr, hcnt, honly, hoffr⟩ := s.lockViol_records hoff
    obtain ⟨hreg, hshadow, hothers, hstore, hwords⟩ := (s.lockViol (regOff id i)).store_stores id i v
    have hne (x : RegId) (hx : x.row.block = .upd) (hxt : targetAt (regOff x 0) = .reg x 0) : regOff x 0 ≠ regOff id i := fun he =>
      hu ((congrArg (fun y : RegId => y.row.block) (eq_of_targetAt hat hxt he.symm)).trans hx)
    have hstat := hne .updLockStatus rfl (by decide)
    have hladdr := hne .updLockAddr rfl (by decide)
    have hsh : (s.lockViol (regOff id i)).shadow = s.shadow :=
      (congrArg State.shadow hoffr : (s.lockViol (regOff id i)).offRegs.shadow = s.offRegs.shadow)
    have hold : (s.lockViol (regOff id i)).reg id i = s.reg id i :=
      honly.reg_eq fun p hp => by
        rcases List.mem_pair.mp hp with rfl | rfl
        · exact hstat
        · exact hladdr
    have hkeep (x : Fld) (hx : regOff x.id 0 ≠ regOff id i) : ((s.lockViol (regOff id i)).store id i v).f x = (s.lockViol (regOff id i)).f x :=
      hstore.f_eq fun p hp => by
        rw [List.mem_singleton.mp hp]
        exact hx.symm
    rw [lockMask_congr honly] at hreg hshadow
    refine ⟨by rw [hreg, hold], ?_, fun k hk => (hothers k hk).trans (by rw [hsh]), ⟨?_, ?_, ?_, ?_⟩,
      hwords.trans (offWords_of_offRegs hoffr)⟩
    · rw [hshadow, shadowReg, shadowReg, hsh]
    · rw [hkeep _ hstat, hviol]
    · rw [hkeep _ hladdr, haddr]
    · rw [hkeep _ hstat, hcnt]
    · exact (honly.mono (by simp)).trans (hstore.mono (by simp))
  · exact s.store_stores id i v

/-! ### The aliases -/

/-- No bit of a register is both RW and RWS. -/
theorem rw_and_rws (id : RegId) : id.row.rw &&& id.row.rws = 0 := by cases id <;> rfl

theorem blend_split {m n : Word} (h : m &&& n = 0) (x y w : Word) :
    blend m ((x &&& m) ||| (y &&& n)) w = blend m x w ∧ blend n ((x &&& m) ||| (y &&& n)) w = blend n y w := by
  have hbit (k : Nat) (hk : k < 32) : (m[k] && n[k]) = false := by
    rw [← BitVec.getElem_and, h]
    simp
  unfold blend
  constructor <;> ext k hk <;> have := hbit k hk <;>
    cases hm : m[k] <;> cases hn : n[k] <;> simp_all

theorem aliasValue_plain (s : State) {id : RegId} (hp : plainReg id = true) (k : AliasKind) (i : Nat) (v w : Word) :
    blend id.row.rw (s.aliasValue k id i v) w = blend id.row.rw (aliasWord k (s.reg id i) v) w
    ∧ blend id.row.rws (s.aliasValue k id i v) w = blend id.row.rws (aliasWord k (s.shadowReg id i) v) w := by
  unfold aliasValue
  dsimp only
  rw [if_neg (plainReg_ne hp).2]
  exact blend_split (rw_and_rws id) _ _ w

/-- A write through one of the aliases of a register that only stores and of which nothing is locked. -/
theorem writeAlias_stores (s : State) (a : Acc) (k : AliasKind) {id : RegId} (hp : plainReg id = true) {i : Nat} (hl : s.lockMask id i = 0) (v : Word) :
    (s.writeAlias a k id i v).reg id i = blend id.row.rw (aliasWord k (s.reg id i) v) (s.reg id i)
    ∧ (s.writeAlias a k id i v).shadowReg id i = blend id.row.rws (aliasWord k (s.shadowReg id i) v) (s.shadowReg id i)
    ∧ s.onlyRegs (s.writeAlias a k id i v) [(id, i)] ∧ (s.writeAlias a k id i v).offWords = s.offWords := by
  have hbreaks (w : Word) : s.lockBreaks id i w = false := by simp [lockBreaks, hl]
  unfold writeAlias
  split
  next h =>
    rw [h.1, h.2, blend_zero, blend_zero]
    exact ⟨rfl, rfl, onlyRegs.refl s _, rfl⟩
  next =>
    have hstore : s.writeReg a id i (s.aliasValue k id i v) = s.store id i (s.aliasValue k id i v) := by
      simp [writeReg, hbreaks, writeEffect_plain _ a hp]
    obtain ⟨hreg, hshadow, _, honly, hwords⟩ := s.store_stores id i (s.aliasValue k id i v)
    rw [hl, show ~~~(0 : Word) = BitVec.allOnes 32 from rfl, BitVec.and_allOnes] at hreg hshadow
    rw [hstore]
    exact ⟨hreg.trans (aliasValue_plain s hp k i v _).1, hshadow.trans (aliasValue_plain s hp k i v _).2, honly, hwords⟩

/-! ### The access -/

/-- The state of an access that has stored words and been answered. -/
theorem eq_of_offWords {s u t : State} (hw : u.offWords = s.start.offWords) (ha : t.offAnswer = u.offAnswer) :
    t = { s.asideFrom t with regs := t.regs, shadow := t.shadow } := by
  have h : t.offAnswer.offWords = s.start.offWords.offAnswer := (congrArg offWords ha).trans (congrArg offAnswer hw)
  exact congrArg (fun x : State =>
    { x with outp := t.outp, links := t.links, slowQ := t.slowQ, regs := t.regs, shadow := t.shadow }) h

theorem slowQ_of_offWords {s u : State} (h : u.offWords = s.offWords) : u.slowQ = s.slowQ :=
  (congrArg State.slowQ h : u.offWords.slowQ = s.offWords.slowQ)

theorem words_of_offAnswer {s t : State} (h : t.offAnswer = s.offAnswer) : t.regs = s.regs ∧ t.shadow = s.shadow :=
  ⟨(congrArg State.regs h : t.offAnswer.regs = s.offAnswer.regs), (congrArg State.shadow h : t.offAnswer.shadow = s.offAnswer.shadow)⟩

theorem offAnswer_wordWrite (s : State) (a : Acc) (off : Nat) (v : Word) (res : BcsRes) :
    (s.finishBcs (wordWrite a off v) res).offAnswer = s.offAnswer := offAnswer_finishBcs s (viaOf_cases a) res

/-- R18, R34. -/
theorem exec_registerWrite_plain (s : State) (a : Acc) (off : BitVec 26) {id : RegId} {i : Nat} (v : Word) (ht : targetAt off.toNat = .reg id i)
    (hp : plainReg id = true) (hr : s.reaches a id i = true) (hg : s.goes (wordWrite a off.toNat v) = true) (hn : s.noPend off.toNat = true) :
    exec (.registerWrite a off ((wordBytes v).map some)) s
      = .next ((s.start.writeReg a id i v).finishBcs (wordWrite a off.toNat v) (.done [])) := by
  have hspan : exec (.registerWrite a off ((wordBytes v).map some)) s = s.start.bcsRun (wordWrite a off.toNat v) := rfl
  obtain ⟨b, hb⟩ := goes_block hg
  have hnt : notTable (targetAt off.toNat) := fun k => by rw [ht]; exact ⟨nofun, nofun⟩
  have hstrobe : isStrobe (wordWrite a off.toNat v) = false := isStrobe_of_ne fun j hj =>
    (plainReg_ne hp).1 (Target.reg.inj (ht.symm.trans hj)).1
  rw [hspan, exec_wordWrite hg hnt hstrobe, writeWord_reg s.start ht (plainReg_notKeyed hp) hb hn hr]

theorem exec_aliasWrite_plain (s : State) (a : Acc) (off : BitVec 26) {k : AliasKind} {id : RegId} {i : Nat} (v : Word)
    (ht : targetAt off.toNat = .viaAlias k id i) (hp : plainReg id = true) (hr : s.reaches a id i = true)
    (hg : s.goes (wordWrite a off.toNat v) = true) (hn : s.noPend off.toNat = true) :
    exec (.aliasWrite a off v) s = .next ((s.start.writeAlias a k id i v).finishBcs (wordWrite a off.toNat v) (.done [])) := by
  have hspan : exec (.aliasWrite a off v) s = s.start.bcsRun (wordWrite a off.toNat v) := rfl
  obtain ⟨b, hb⟩ := goes_block hg
  have hnt : notTable (targetAt off.toNat) := fun j => by rw [ht]; exact ⟨nofun, nofun⟩
  have hstrobe : isStrobe (wordWrite a off.toNat v) = false := isStrobe_of_ne fun j hj => nomatch ht.symm.trans hj
  rw [hspan, exec_wordWrite hg hnt hstrobe, writeWord_alias s.start ht (plainReg_notKeyed hp) hb hn hr]

end State

/-- Settles O22: the write stores as `writeReg_stores` and `writeAlias_stores` say, and its answer changes no register. -/
theorem registerWritesStore : Obligations.RegisterWritesStore := by
  refine ⟨fun s a off id i v ht hp hoff hu hr hg hn => ?_, fun s a off k id i v ht hp hu hr hl hg hn => ?_⟩
  · have hlt : regOff id i < 2 ^ 26 := hoff ▸ off.isLt
    obtain ⟨hreg, hshadow, hothers, hviol, hwords⟩ := s.start.writeReg_stores a hp hu (hoff ▸ ht) hlt v
    have hans := (s.start.writeReg a id i v).offAnswer_wordWrite a off.toNat v (.done [])
    obtain ⟨hregs, hsh⟩ := State.words_of_offAnswer hans
    refine ⟨_, s.exec_registerWrite_plain a off v ht hp hr hg hn, ?_, ?_, ?_, ?_, ?_, State.eq_of_offWords hwords hans⟩
    · rw [State.reg_congr hregs]
      exact hreg
    · rw [State.shadowReg, hsh]
      exact hshadow
    · rw [hsh, ← hoff]
      exact hothers
    · by_cases hl : s.lockBreaks id i v = true
      · rw [if_pos (show s.start.lockBreaks id i v = true from hl)] at hviol
        obtain ⟨hset, haddr, hcnt, honly⟩ := hviol
        rw [hoff] at haddr
        rw [if_pos hl, State.f_congr hregs, State.f_congr hregs, State.f_congr hregs]
        exact ⟨hset, haddr, hcnt, State.onlyRegs.congr honly hregs⟩
      · rw [if_neg (show ¬ s.start.lockBreaks id i v = true from hl)] at hviol
        rw [if_neg hl]
        exact State.onlyRegs.congr hviol hregs
    · exact State.ended_finishBcs (State.slowQ_of_offWords hwords) ..
  · obtain ⟨hreg, hshadow, honly, hwords⟩ := s.start.writeAlias_stores a k hp hl v
    have hans := (s.start.writeAlias a k id i v).offAnswer_wordWrite a off.toNat v (.done [])
    obtain ⟨hregs, hsh⟩ := State.words_of_offAnswer hans
    refine ⟨_, s.exec_aliasWrite_plain a off v ht hp hr hg hn, ?_, ?_, State.onlyRegs.congr honly hregs, ?_, State.eq_of_offWords hwords hans⟩
    · rw [State.reg_congr hregs]
      exact hreg
    · rw [State.shadowReg, hsh]
      exact hshadow
    · exact State.ended_finishBcs (State.slowQ_of_offWords hwords) ..

end Sys2Proof.Machine
end

section
/-! PROOFS. Reads of a word (R20, R28): clear-on-read, and the shadow of a pair. -/

namespace Sys2Proof.Machine

namespace State

/-! ### A read that is performed at once -/

theorem slice_wordBytes (w : Word) : slice 0 4 (wordBytes w) = wordBytes w := by
  simp [slice, wordBytes, List.take_of_length_le, length_natBytes]

theorem exec_wordRead {s : State} {a : Acc} {off : Nat} {id : RegId} {i : Nat} (hg : s.goes (wordRead a off) = true)
    (ht : targetAt off = .reg id i) :
    s.start.bcsRun (wordRead a off)
      = .next ((s.start.readReg id i).2.finishBcs (wordRead a off) (.done (wordBytes (s.start.readReg id i).1))) := by
  have halign : off % 4 = 0 := formCause_aligned rfl ((goes_iff s _).mp hg).form
  have hread : s.start.readBytes off 4 true = (wordBytes (s.start.readReg id i).1, (s.start.readReg id i).2) := by
    simp [readBytes, readWord, ht, halign, slice_wordBytes]
  have hperf : s.start.bcsPerform (wordRead a off)
      = (s.start.readBytes off 4 true).2.finishBcs (wordRead a off) (.done (s.start.readBytes off 4 true).1) := rfl
  rw [bcsRun_of_goes hg rfl, hperf, hread]

/-! ### What reading leaves alone -/

/-- The state but for the free values. -/
def offFree (s : State) : State := { s with freeCount := 0, freeNext := 0 }

theorem offFree_peek (s : State) (id : RegId) (i : Nat) : (s.peek id i).2.offFree = s.offFree := by
  unfold peek
  dsimp only
  split <;> rfl

/-- The words, the _HI shadows and the crossing are as before. -/
structure SameWords (s t : State) : Prop where
  regs : t.regs = s.regs
  shadow : t.shadow = s.shadow
  hiShadow : t.hiShadow = s.hiShadow
  slowQ : t.slowQ = s.slowQ

theorem sameWords_of_offFree {s t : State} (h : t.offFree = s.offFree) : s.SameWords t :=
  ⟨(congrArg State.regs h : t.offFree.regs = s.offFree.regs), (congrArg State.shadow h : t.offFree.shadow = s.offFree.shadow),
    (congrArg State.hiShadow h : t.offFree.hiShadow = s.offFree.hiShadow), (congrArg State.slowQ h : t.offFree.slowQ = s.offFree.slowQ)⟩

theorem sameWords_peek (s : State) (id : RegId) (i : Nat) : s.SameWords (s.peek id i).2 := sameWords_of_offFree (offFree_peek s id i)

theorem sameWords_clearHeld (s : State) (id : RegId) : s.SameWords (s.clearHeld id) := by
  unfold clearHeld
  split
  case h_1 => dsimp only; split <;> exact ⟨rfl, rfl, rfl, rfl⟩
  case h_4 => dsimp only; split <;> exact ⟨rfl, rfl, rfl, rfl⟩
  case h_5 => dsimp only; split <;> exact ⟨rfl, rfl, rfl, rfl⟩
  all_goals exact ⟨rfl, rfl, rfl, rfl⟩

/-- R28. -/
theorem clearRc_clears (s : State) {id : RegId} (h : id.row.rc ≠ 0) (i : Nat) :
    (s.clearRc id i).reg id i = (s.reg id i &&& ~~~id.row.rc) ||| (id.row.reset &&& id.row.rc) ∧ s.onlyRegs (s.clearRc id i) [(id, i)]
    ∧ (s.clearRc id i).shadow = s.shadow ∧ (s.clearRc id i).hiShadow = s.hiShadow ∧ (s.clearRc id i).slowQ = s.slowQ := by
  have hclear : s.clearRc id i = (s.setReg id i ((s.reg id i &&& ~~~id.row.rc) ||| (id.row.reset &&& id.row.rc))).clearHeld id := if_neg h
  rw [hclear]
  have hheld := (s.setReg id i ((s.reg id i &&& ~~~id.row.rc) ||| (id.row.reset &&& id.row.rc))).sameWords_clearHeld id
  exact ⟨(reg_congr hheld.regs id i).trans (reg_setReg_same ..),
    (onlyRegs_setReg s (List.mem_singleton_self _) _).congr hheld.regs, hheld.shadow, hheld.hiShadow, hheld.slowQ⟩

/-- An answer leaves the words alone. -/
theorem sameWords_answer (s : State) (a : Acc) (off : Nat) (res : BcsRes) :
    (s.finishBcs (wordRead a off) res).regs = s.regs ∧ (s.finishBcs (wordRead a off) res).shadow = s.shadow
    ∧ (s.finishBcs (wordRead a off) res).hiShadow = s.hiShadow := by
  have h := offAnswer_finishBcs s (r := wordRead a off) (viaOf_cases a) res
  generalize s.finishBcs (wordRead a off) res = t at h
  exact ⟨(congrArg State.regs h : t.offAnswer.regs = s.offAnswer.regs), (congrArg State.shadow h : t.offAnswer.shadow = s.offAnswer.shadow),
    (congrArg State.hiShadow h : t.offAnswer.hiShadow = s.offAnswer.hiShadow)⟩

theorem clearOnRead_clears (s : State) (a : Acc) (off : BitVec 26) (id : RegId) (i : Nat) (ht : targetAt off.toNat = .reg id i)
    (hh : id.row.half = .none) (hrc : id.row.rc ≠ 0) (hg : s.goes (wordRead a off.toNat) = true) :
    ∃ t, exec (.clearOnRead a off) s = .next t
      ∧ s.ended t (wordRead a off.toNat) (.done (wordBytes (s.start.peek id i).1))
      ∧ t.reg id i = (s.reg id i &&& ~~~id.row.rc) ||| (id.row.reset &&& id.row.rc)
      ∧ s.onlyRegs t [(id, i)] ∧ t.shadow = s.shadow ∧ t.hiShadow = s.hiShadow := by
  have hread : s.start.readReg id i = ((s.start.peek id i).1, (s.start.peek id i).2.clearRc id i) := by simp only [readReg, hh]
  have hexec : exec (.clearOnRead a off) s = s.start.bcsRun (wordRead a off.toNat) := rfl
  have hpeek := s.start.sameWords_peek id i
  obtain ⟨hreg, honly, hsh, hhi, hslow⟩ := (s.start.peek id i).2.clearRc_clears hrc i
  obtain ⟨hregs, hshadow, hhiShadow⟩ := ((s.start.peek id i).2.clearRc id i).sameWords_answer a off.toNat (.done (wordBytes (s.start.peek id i).1))
  refine ⟨_, by rw [hexec, exec_wordRead hg ht, hread], ended_finishBcs (hslow.trans hpeek.slowQ) _ _, ?_, ?_,
    hshadow.trans (hsh.trans hpeek.shadow), hhiShadow.trans (hhi.trans hpeek.hiShadow)⟩
  · rw [reg_congr hregs, hreg, reg_congr hpeek.regs]
    rfl
  · exact ((onlyRegs_of_regs hpeek.regs _).trans honly).congr hregs

theorem pairLoRead_keepsHi (s : State) (a : Acc) (off : BitVec 26) (lo hi : RegId) (i j : Nat) (ht : targetAt off.toNat = .reg lo i)
    (hh : lo.row.half = .lo) (hoff : regOff lo i = off.toNat) (hat : regAt (off.toNat + 4) = some (hi, j))
    (hg : s.goes (wordRead a off.toNat) = true) :
    ∃ t, exec (.pairLoRead a off) s = .next t
      ∧ s.ended t (wordRead a off.toNat) (.done (wordBytes (s.start.peek lo i).1))
      ∧ FMap.find (off.toNat + 4) t.hiShadow = some (((s.start.peek lo i).2.peek hi j).1) ∧ t.regs = s.regs
      ∧ ∀ k, k ≠ off.toNat + 4 → FMap.find k t.hiShadow = FMap.find k s.hiShadow := by
  have hexec : exec (.pairLoRead a off) s = s.start.bcsRun (wordRead a off.toNat) := rfl
  have hlo := s.start.sameWords_peek lo i
  have hhi := (s.start.peek lo i).2.sameWords_peek hi j
  have hread : s.start.readReg lo i = ((s.start.peek lo i).1, { ((s.start.peek lo i).2.peek hi j).2 with
      hiShadow := FMap.put (off.toNat + 4) ((s.start.peek lo i).2.peek hi j).1 ((s.start.peek lo i).2.peek hi j).2.hiShadow }) := by
    simp only [readReg, hh, hoff, hat]
  rw [hhi.hiShadow, hlo.hiShadow] at hread
  obtain ⟨hregs, _, hhiShadow⟩ := (s.start.readReg lo i).2.sameWords_answer a off.toNat (.done (wordBytes (s.start.readReg lo i).1))
  refine ⟨_, hexec.trans (exec_wordRead hg ht), ?_, ?_, ?_, fun k hk => ?_⟩
  · rw [show (s.start.peek lo i).1 = (s.start.readReg lo i).1 by rw [hread]]
    refine ended_finishBcs ?_ _ _
    rw [hread]
    exact hhi.slowQ.trans hlo.slowQ
  · rw [hhiShadow, hread, FMap.find_put_same]
  · rw [hregs, hread]
    exact hhi.regs.trans hlo.regs
  · rw [hhiShadow, hread, FMap.find_put_ne hk]
    rfl

theorem pairHiRead_kept (s : State) (a : Acc) (off : BitVec 26) (hi : RegId) (i : Nat) (w : Word) (ht : targetAt off.toNat = .reg hi i)
    (hh : hi.row.half = .hi) (hoff : regOff hi i = off.toNat) (hw : FMap.find off.toNat s.hiShadow = some w)
    (hg : s.goes (wordRead a off.toNat) = true) :
    ∃ t, exec (.pairHiRead a off) s = .next t ∧ s.ended t (wordRead a off.toNat) (.done (wordBytes w))
      ∧ FMap.find off.toNat t.hiShadow = none ∧ t.regs = s.regs := by
  have hexec : exec (.pairHiRead a off) s = s.start.bcsRun (wordRead a off.toNat) := rfl
  have hwt : FMap.find off.toNat s.start.hiShadow = some w := hw
  have hread : s.start.readReg hi i = (w, { s.start with hiShadow := FMap.del off.toNat s.start.hiShadow }) := by
    simp only [readReg, hh, hoff, hwt]
  have hslow : (s.start.readReg hi i).2.slowQ = s.slowQ := by rw [hread]; rfl
  have hval : (s.start.readReg hi i).1 = w := by rw [hread]
  obtain ⟨hregs, _, hhiShadow⟩ := (s.start.readReg hi i).2.sameWords_answer a off.toNat (.done (wordBytes (s.start.readReg hi i).1))
  refine ⟨_, hexec.trans (exec_wordRead hg ht), ?_, ?_, ?_⟩
  · rw [hval]
    exact ended_finishBcs hslow _ _
  · rw [hhiShadow, hread, FMap.find_del_same]
  · rw [hregs, hread]
    rfl

theorem pairHiRead_live (s : State) (a : Acc) (off : BitVec 26) (hi : RegId) (i : Nat) (ht : targetAt off.toNat = .reg hi i)
    (hh : hi.row.half = .hi) (hoff : regOff hi i = off.toNat) (hn : FMap.find off.toNat s.hiShadow = none)
    (hg : s.goes (wordRead a off.toNat) = true) :
    ∃ t, exec (.pairHiRead a off) s = .next t ∧ s.ended t (wordRead a off.toNat) (.done (wordBytes (s.start.peek hi i).1))
      ∧ t.hiShadow = s.hiShadow ∧ t.regs = s.regs := by
  have hexec : exec (.pairHiRead a off) s = s.start.bcsRun (wordRead a off.toNat) := rfl
  have hnt : FMap.find off.toNat s.start.hiShadow = none := hn
  have hread : s.start.readReg hi i = s.start.peek hi i := by simp only [readReg, hh, hoff, hnt]
  have hpeek := s.start.sameWords_peek hi i
  obtain ⟨hregs, _, hhiShadow⟩ := (s.start.readReg hi i).2.sameWords_answer a off.toNat (.done (wordBytes (s.start.readReg hi i).1))
  refine ⟨_, hexec.trans (exec_wordRead hg ht), ?_, ?_, ?_⟩
  · rw [hread]
    exact ended_finishBcs hpeek.slowQ _ _
  · rw [hhiShadow, hread]
    exact hpeek.hiShadow
  · rw [hregs, hread]
    exact hpeek.regs

end State

/-- Settles O23: a read that is performed at once is `readReg`, and its answer changes no word. -/
theorem registerReads : Obligations.RegisterReads :=
  ⟨fun s a off id i ht _ hh hrc hg => s.clearOnRead_clears a off id i ht hh hrc hg,
    fun s a off lo hi i j ht hh hoff hat hg => s.pairLoRead_keepsHi a off lo hi i j ht hh hoff hat hg,
    fun s a off hi i w ht hh hoff hw hg => s.pairHiRead_kept a off hi i w ht hh hoff hw hg,
    fun s a off hi i ht hh hoff hn hg => s.pairHiRead_live a off hi i ht hh hoff hn hg⟩

end Sys2Proof.Machine
end

section
/-! PROOFS. Keyed pairs (R32, R33): the first half waits, its complement takes effect, and each pattern that fails is recorded with its cause. -/

namespace Sys2Proof.Machine

namespace State

/-! ### A pattern that fails -/

/-- The state but for its register words and pending halves. -/
def offKeys (s : State) : State := { s with regs := [], keyPend := [] }

theorem offKeys_of_offRegs {s t : State} (h : t.offRegs = s.offRegs) : t.offKeys = s.offKeys :=
  congrArg (fun u : State => { u with keyPend := [] }) h

/-- The record of a failed pattern, where no staged key is in it. -/
theorem keyFail_records (s : State) {off cause : Nat} (hoff : off < 2 ^ 26) (hc : cause < 4) (hb : blockAt off ≠ some .cmp) :
    (s.keyFail off cause).f Fld.updKeyStatus_key_fail = 1 ∧ (s.keyFail off cause).f Fld.updKeyStatus_cause = cause
    ∧ (s.keyFail off cause).f Fld.updKeyAddr_offset = off
    ∧ (s.keyFail off cause).f Fld.updKeyStatus_fail_cnt = sat Fld.updKeyStatus_fail_cnt (s.f Fld.updKeyStatus_fail_cnt + 1)
    ∧ s.onlyRegs (s.keyFail off cause) [(.updKeyStatus, 0), (.updKeyAddr, 0)] ∧ (s.keyFail off cause).offRegs = s.offRegs := by
  have heq : s.keyFail off cause = (((s.incF Fld.updKeyStatus_fail_cnt).setF Fld.updKeyStatus_cause cause).setF
      Fld.updKeyStatus_key_fail 1).setF Fld.updKeyAddr_offset off := if_neg hb
  rw [heq]
  refine ⟨?_, ?_, ?_, ?_, ?_, ?_⟩
  · simp (disch := decide) only [f_setF_ne, f_setF_same]
    decide
  · simp (disch := decide) only [f_setF_ne, f_setF_apart, f_setF_same]
    exact Nat.mod_eq_of_lt hc
  · simp (disch := decide) only [f_setF_same]
    exact Nat.mod_eq_of_lt hoff
  · simp (disch := decide) only [f_setF_ne, f_setF_apart, f_incF_same, sat]
  · refine ((((onlyRegs.refl s _).incF ?_ _).setF ?_ _).setF ?_ _).setF ?_ _ <;> decide
  · rw [offRegs_setF, offRegs_setF, offRegs_setF, offRegs_incF]

theorem keyPend_of_offRegs {s t : State} (h : t.offRegs = s.offRegs) : t.keyPend = s.keyPend :=
  (congrArg State.keyPend h : t.offRegs.keyPend = s.offRegs.keyPend)

/-- The state without the pending half of a block. -/
def dropPend (s : State) (base : Nat) : State := { s with keyPend := FMap.del base s.keyPend }

/-- The complement of the half that waits gives the register its value (R32). -/
theorem keySecond_good (s : State) {a : Acc} {base : Nat} {id : RegId} {i : Nat} {p : KeyPend} (hf : FMap.find base s.keyPend = some p)
    (hoff : p.off = regOff id i) (hsame : samePend p a = true) (hok : keyValueOk id p.val = true) :
    s.keySecond a base id i (~~~p.val) = (s.dropPend base).keyEffect id i p.val := by
  simp [keySecond, hf, hoff, hsame, hok, dropPend]

theorem writeWord_comp (s : State) {a : Acc} {off : Nat} {b : Block} {id : RegId} {i : Nat} (ht : targetAt off = .comp id i)
    (hb : blockAt off = some b) (hp : a.posted = false) (v : Word) (viol : Bool) :
    s.writeWord a off v viol = s.keySecond a b.base id i v := by
  unfold writeWord
  simp [hb, ht, hp]

/-- The half that is pending at another register, or none, is gone once a write to A + 4 has failed. -/
theorem writeWord_fails (s : State) {a : Acc} {off : Nat} {id : RegId} {i : Nat} {b : Block} {v : Word} {p : Option KeyPend} {cause : Nat}
    (ht : targetAt off = .comp id i) (hb : blockAt off = some b) (hf : FMap.find b.base s.keyPend = p)
    (h : a.posted = true ∧ (∀ q, p = some q → q.off = regOff id i ∧ samePend q a = true) ∧ cause = 1
      ∨ a.posted = false ∧ p = none ∧ cause = 1
      ∨ a.posted = false ∧ (∃ q, p = some q ∧ q.off = regOff id i ∧ samePend q a = false) ∧ cause = 2
      ∨ a.posted = false ∧ (∃ q, p = some q ∧ q.off = regOff id i ∧ samePend q a = true ∧ v ≠ ~~~q.val) ∧ cause = 0) :
    cause < 4 ∧ ∃ u, s.writeWord a off v false = State.keyFail u (regOff id i) cause ∧ FMap.find b.base u.keyPend = none
      ∧ u.regs = s.regs ∧ u.offKeys = s.offKeys := by
  have hdel : FMap.find b.base (s.dropPend b.base).keyPend = none := FMap.find_del_same ..
  unfold writeWord
  simp only [hb, ht]
  rcases h with ⟨hp, hq, rfl⟩ | ⟨hp, rfl, rfl⟩ | ⟨hp, ⟨q, rfl, hq, hsame⟩, rfl⟩ | ⟨hp, ⟨q, rfl, hq, hsame, hv⟩, rfl⟩ <;>
    refine ⟨by decide, ?_⟩
  · cases p with
    | none => exact ⟨s, by simp [hp, keyStray, hf], hf, rfl, rfl⟩
    | some q =>
      obtain ⟨hoff, hsame⟩ := hq q rfl
      exact ⟨s.dropPend b.base, by simp [hp, keyStray, hf, hoff, hsame, dropPend], hdel, rfl, rfl⟩
  · exact ⟨s, by simp [hp, keySecond, hf], hf, rfl, rfl⟩
  · exact ⟨s.dropPend b.base, by simp [hp, keySecond, hf, hq, hsame, dropPend], hdel, rfl, rfl⟩
  · exact ⟨s.dropPend b.base, by simp [hp, keySecond, hf, hq, hsame, hv, dropPend], hdel, rfl, rfl⟩

/-! ### The accesses -/

/-- The state of an access that has changed words and pending halves and been answered. -/
theorem eq_of_offKeys {s u t : State} (hw : u.offKeys = s.start.offKeys) (ha : t.offAnswer = u.offAnswer) :
    t = { s.asideFrom t with regs := t.regs, keyPend := t.keyPend } := by
  have h : t.offAnswer.offKeys = s.start.offKeys.offAnswer := (congrArg offKeys ha).trans (congrArg offAnswer hw)
  exact congrArg (fun x : State =>
    { x with outp := t.outp, links := t.links, slowQ := t.slowQ, regs := t.regs, keyPend := t.keyPend }) h

theorem keys_of_offAnswer {s t : State} (h : t.offAnswer = s.offAnswer) : t.regs = s.regs ∧ t.keyPend = s.keyPend :=
  ⟨(congrArg State.regs h : t.offAnswer.regs = s.offAnswer.regs), (congrArg State.keyPend h : t.offAnswer.keyPend = s.offAnswer.keyPend)⟩

/-- A write of a word that is no table entry and starts no strobe. -/
theorem exec_keyedWrite {s : State} {a : Acc} {off : BitVec 26} {v : Word} (hg : s.goes (wordWrite a off.toNat v) = true)
    (ht : (∃ id i, targetAt off.toNat = .reg id i ∧ id.row.keyed = true) ∨ ∃ id i, targetAt off.toNat = .comp id i) :
    exec (.keyedWrite a off v) s = .next ((s.start.writeWord a off.toNat v false).finishBcs (wordWrite a off.toNat v) (.done [])) := by
  have hexec : exec (.keyedWrite a off v) s = s.start.bcsRun (wordWrite a off.toNat v) := rfl
  rw [hexec]
  rcases ht with ⟨id, i, ht, hk⟩ | ⟨id, i, ht⟩
  · refine exec_wordWrite hg (fun k => by rw [ht]; exact ⟨nofun, nofun⟩) (isStrobe_of_ne fun j hj => ?_)
    rw [(Target.reg.inj (ht.symm.trans hj)).1] at hk
    exact absurd hk (by decide)
  · exact exec_wordWrite hg (fun k => by rw [ht]; exact ⟨nofun, nofun⟩) (isStrobe_of_ne fun j hj => nomatch ht.symm.trans hj)

theorem keyedWrite_first (s : State) (a : Acc) (off : BitVec 26) (id : RegId) (i : Nat) (v : Word) (b : Block)
    (ht : targetAt off.toNat = .reg id i) (hk : id.row.keyed = true) (hb : blockAt off.toNat = some b) (hp : a.posted = false)
    (hn : s.noPend off.toNat = true) (hg : s.goes (wordWrite a off.toNat v) = true) :
    ∃ t, exec (.keyedWrite a off v) s = .next t
      ∧ t.keyPend = FMap.put b.base { off := off.toNat, val := v, src := a.src, reqId := a.reqId } s.keyPend
      ∧ t = { s.asideFrom t with keyPend := t.keyPend } := by
  have hbreak : s.start.breakPending b.base = s.start := breakPending_noPend s.start hb hn
  have hwrite : s.start.writeWord a off.toNat v false = { s.start with
      keyPend := FMap.put b.base { off := off.toNat, val := v, src := a.src, reqId := a.reqId } s.keyPend } := by
    unfold writeWord
    simp only [hb, ht, hk, if_true, hp, Bool.false_eq_true, if_false, keyFirst, hbreak]
    rfl
  have hans := (s.start.writeWord a off.toNat v false).offAnswer_wordWrite a off.toNat v (.done [])
  obtain ⟨hregs, hkeys⟩ := keys_of_offAnswer hans
  have hoff : (s.start.writeWord a off.toNat v false).offKeys = s.start.offKeys := by rw [hwrite]; rfl
  have heq := eq_of_offKeys hoff hans
  have hwords : (s.start.writeWord a off.toNat v false).regs = s.regs := by rw [hwrite]; rfl
  rw [hregs, hwords] at heq
  exact ⟨_, exec_keyedWrite hg (.inl ⟨id, i, ht, hk⟩), by rw [hkeys, hwrite], heq⟩

theorem samePend_of {x : Src} {off : Nat} {v : Word} {a : Acc} {n : Nat} (hn : n = a.reqId)
    (h : x = a.src ∨ (x = .tl0 ∨ x = .tl1) ∧ (a.src = .tl0 ∨ a.src = .tl1)) :
    samePend { off := off, val := v, src := x, reqId := n } a = true := by
  unfold samePend
  rcases h with h | ⟨hx, ha⟩
  · simp [h, hn]
  · rcases hx with hx | hx <;> rcases ha with ha | ha <;> simp [hx, ha, hn]

/-- A default map reads as it is stored. -/
theorem peek_gateDefmap (s : State) (i : Nat) :
    (s.peek .gateDefmap i).1 = if i = 9 then s.reg .gateDefmap i &&& 0xFFF else s.reg .gateDefmap i := rfl

theorem keyedWrite_second (s : State) (a : Acc) (off : BitVec 26) (i : Nat) (v : Word) (x : Src) (n : Nat)
    (ht : targetAt off.toNat = .comp .gateDefmap i) (hp : a.posted = false) (hg : s.goes (wordWrite a off.toNat (~~~v)) = true)
    (hr : s.rescued = false)
    (hf : FMap.find Block.gate.base s.keyPend = some { off := regOff .gateDefmap i, val := v, src := x, reqId := n }) (hn : n = a.reqId)
    (hx : x = a.src ∨ (x = .tl0 ∨ x = .tl1) ∧ (a.src = .tl0 ∨ a.src = .tl1)) :
    ∃ t, exec (.keyedWrite a off (~~~v)) s = .next t ∧ (t.peek .gateDefmap i).1 = (if i = 9 then v &&& 0xFFF else v) ∧ s.onlyRegs t [(.gateDefmap, i)]
      ∧ t = { s.asideFrom t with regs := t.regs, keyPend := FMap.del Block.gate.base s.keyPend } := by
  have halign : off.toNat % 4 = 0 := formCause_aligned rfl ((goes_iff s _).mp hg).form
  have hb : blockAt off.toNat = some .gate := (targetAt_comp ht halign).1
  have hsame := samePend_of (off := regOff .gateDefmap i) (v := v) hn hx
  have hrt : (s.start.dropPend Block.gate.base).rescued = false := hr
  have hft : FMap.find Block.gate.base s.start.keyPend = some { off := regOff .gateDefmap i, val := v, src := x, reqId := n } := hf
  have hwrite : s.start.writeWord a off.toNat (~~~v) false
      = (s.start.dropPend Block.gate.base).putRw .gateDefmap i RegId.gateDefmap.row.key v := by
    have heff : (s.start.dropPend Block.gate.base).keyEffect .gateDefmap i v
        = (s.start.dropPend Block.gate.base).putRw .gateDefmap i RegId.gateDefmap.row.key v := if_neg (by rw [hrt]; decide)
    rw [← heff, writeWord_comp s.start ht hb hp]
    exact keySecond_good s.start hft rfl hsame rfl
  have hans := (s.start.writeWord a off.toNat (~~~v) false).offAnswer_wordWrite a off.toNat (~~~v) (.done [])
  obtain ⟨hregs, hkeys⟩ := keys_of_offAnswer hans
  have hput := (s.start.dropPend Block.gate.base).offRegs_putRw .gateDefmap i RegId.gateDefmap.row.key v
  have heq := eq_of_offKeys (s := s) ((congrArg offKeys hwrite).trans (offKeys_of_offRegs (s := s.start.dropPend Block.gate.base) hput)) hans
  have hpend : (s.start.writeWord a off.toNat (~~~v) false).keyPend = FMap.del Block.gate.base s.keyPend := by
    rw [hwrite]
    exact keyPend_of_offRegs hput
  rw [hkeys, hpend] at heq
  refine ⟨_, exec_keyedWrite hg (.inr ⟨_, _, ht⟩), ?_, ?_, heq⟩
  · have hval : blend RegId.gateDefmap.row.key v ((s.start.dropPend Block.gate.base).reg .gateDefmap i) = v := by
      rw [show RegId.gateDefmap.row.key = BitVec.allOnes 32 from rfl, blend_allOnes]
    rw [peek_gateDefmap, reg_congr hregs, hwrite, reg_putRw, hval]
  · refine onlyRegs.congr ?_ hregs
    rw [hwrite]
    exact onlyRegs_putRw (s.start.dropPend Block.gate.base) .gateDefmap i _ v (List.mem_singleton_self _)

theorem keyedWrite_fails (s : State) (a : Acc) (off : BitVec 26) (id : RegId) (i : Nat) (v : Word) (b : Block) (p : Option KeyPend) (cause : Nat)
    (ht : targetAt off.toNat = .comp id i) (hb : blockAt off.toNat = some b) (hcmp : b ≠ .cmp)
    (hg : s.goes (wordWrite a off.toNat v) = true) (hf : FMap.find b.base s.keyPend = p)
    (h : a.posted = true ∧ (∀ q, p = some q → q.off = regOff id i ∧ samePend q a = true) ∧ cause = 1
      ∨ a.posted = false ∧ p = none ∧ cause = 1
      ∨ a.posted = false ∧ (∃ q, p = some q ∧ q.off = regOff id i ∧ samePend q a = false) ∧ cause = 2
      ∨ a.posted = false ∧ (∃ q, p = some q ∧ q.off = regOff id i ∧ samePend q a = true ∧ v ≠ ~~~q.val) ∧ cause = 0) :
    ∃ t, exec (.keyedWrite a off v) s = .next t ∧ t.f Fld.updKeyStatus_key_fail = 1 ∧ t.f Fld.updKeyStatus_cause = cause
      ∧ t.f Fld.updKeyAddr_offset = regOff id i ∧ t.f Fld.updKeyStatus_fail_cnt = sat Fld.updKeyStatus_fail_cnt (s.f Fld.updKeyStatus_fail_cnt + 1)
      ∧ s.onlyRegs t [(.updKeyStatus, 0), (.updKeyAddr, 0)] ∧ FMap.find b.base t.keyPend = none
      ∧ t = { s.asideFrom t with regs := t.regs, keyPend := t.keyPend } := by
  have halign : off.toNat % 4 = 0 := formCause_aligned rfl ((goes_iff s _).mp hg).form
  obtain ⟨hblock, hprev, hb'⟩ := targetAt_comp ht halign
  obtain rfl : b = id.row.block := Option.some.inj (hb.symm.trans hblock)
  have hoff : regOff id i < 2 ^ 26 := by have := off.isLt; omega
  obtain ⟨hc, u, hwrite, hnone, huregs, hukeys⟩ := s.start.writeWord_fails (v := v) ht hb hf h
  obtain ⟨hfail, hcause, haddr, hcnt, honly, hoffr⟩ := u.keyFail_records hoff hc (by rw [hb']; simpa using hcmp)
  have hans := (s.start.writeWord a off.toNat v false).offAnswer_wordWrite a off.toNat v (.done [])
  obtain ⟨hregs, hkeys⟩ := keys_of_offAnswer hans
  refine ⟨_, exec_keyedWrite hg (.inr ⟨_, _, ht⟩), ?_, ?_, ?_, ?_, ?_, ?_, eq_of_offKeys ?_ hans⟩
  · rw [f_congr hregs, hwrite, hfail]
  · rw [f_congr hregs, hwrite, hcause]
  · rw [f_congr hregs, hwrite, haddr]
  · rw [f_congr hregs, hwrite, hcnt, f_congr huregs]
    rfl
  · refine onlyRegs.congr ?_ hregs
    rw [hwrite]
    exact (onlyRegs_of_regs huregs _).trans honly
  · rw [hkeys, hwrite, keyPend_of_offRegs hoffr, hnone]
  · rw [hwrite]
    exact (offKeys_of_offRegs hoffr).trans hukeys

theorem keyPendingExpire_fails (s : State) (off : BitVec 26) (base : Nat) (p : KeyPend) (hk : s.keyPend = [(base, p)]) (hp : p.off = off.toNat)
    (hb : blockAt p.off ≠ some .cmp) :
    ∃ t, exec (.keyPendingExpire off) s = .next t ∧ t.keyPend = [] ∧ t.f Fld.updKeyStatus_key_fail = 1 ∧ t.f Fld.updKeyStatus_cause = 3
      ∧ t.f Fld.updKeyAddr_offset = off.toNat ∧ s.onlyRegs t [(.updKeyStatus, 0), (.updKeyAddr, 0)]
      ∧ t = { s.start with regs := t.regs, keyPend := [] } := by
  have hdrop : (s.start.dropPend base) = { s.start with keyPend := [] } := by
    have hdel : FMap.del base s.start.keyPend = [] := by simp [hk, FMap.del]
    rw [dropPend, hdel]
  have hnext : exec (.keyPendingExpire off) s = .next ((s.start.dropPend base).keyFail p.off 3) := by
    have hfind : s.start.keyPend.find? (fun q => q.2.off == off.toNat) = some (base, p) := by simp [hk, hp]
    change Host.Outcome.next (match s.start.keyPend.find? (fun q => q.2.off == off.toNat) with
      | some (base, p) => (s.start.dropPend base).keyFail p.off 3
      | none => s.start) = _
    rw [hfind]
  obtain ⟨hfail, hcause, haddr, _, honly, hoffr⟩ := (s.start.dropPend base).keyFail_records (off := p.off) (cause := 3) (hp ▸ off.isLt) (by decide) hb
  have hpend : ((s.start.dropPend base).keyFail p.off 3).keyPend = [] := by
    rw [keyPend_of_offRegs hoffr, hdrop]
  refine ⟨_, hnext, hpend, hfail, hcause, haddr.trans hp, honly, ?_⟩
  rw [hdrop] at hoffr ⊢
  exact eq_of_offRegs hoffr

end State

/-- Settles O24: `keyFirst`, `keySecond` and `keyStray` by the pending half that they find. -/
theorem keyedPairs : Obligations.KeyedPairs :=
  ⟨fun s a off id i v b => s.keyedWrite_first a off id i v b, fun s a off i v x n => s.keyedWrite_second a off i v x n,
    fun s a off id i v b p cause => s.keyedWrite_fails a off id i v b p cause, fun s off base p => s.keyPendingExpire_fails off base p⟩

end Sys2Proof.Machine
end

section
/-! PROOFS. Accesses that complete late, and the strobe (R24, R29 to R31): what telling an access changes, the commit of a block, and the commit
edge. -/

namespace Sys2Proof.Machine

namespace State

/-! ### Telling an access of any kind -/

/-- The state but for what telling an access changes, by whatever way it came. -/
def offTold (s : State) : State :=
  { s with outp := [], links := [], freeCount := 0, freeNext := 0, tap := { s.tap with status := 0, data := 0 }
           kst := { s.kst with smbRes := 0, smbAddr := 0 } }

theorem offTold_of_offLinks {s t : State} (h : t.offLinks = s.offLinks) : t.offTold = s.offTold :=
  congrArg (fun u : State => { u with freeCount := 0, freeNext := 0, tap := { u.tap with status := 0, data := 0 }
                                      kst := { u.kst with smbRes := 0, smbAddr := 0 } }) h

theorem offTold_respond (s : State) (r : BcsReq) (res : BcsRes) : (s.respond r res).offTold = s.offTold := by
  unfold respond
  dsimp only
  split
  · split
    · rfl
    · exact offTold_of_offLinks (offLinks_handTx ..)
  · unfold smbAnswer
    dsimp only
    split
    · rfl
    · split <;> rfl
  · unfold tapAnswer
    split <;> rfl
  · rfl

/-- What telling an access leaves alone of what a claim speaks of. -/
structure SameTold (s t : State) : Prop where
  regs : t.regs = s.regs
  shadow : t.shadow = s.shadow
  slowQ : t.slowQ = s.slowQ
  bcsWait : t.bcsWait = s.bcsWait
  strobe : t.strobe = s.strobe
  mode : t.mode = s.mode

theorem sameTold_of_offTold {s t : State} (h : t.offTold = s.offTold) : s.SameTold t where
  regs := (congrArg State.regs h : t.offTold.regs = s.offTold.regs)
  shadow := (congrArg State.shadow h : t.offTold.shadow = s.offTold.shadow)
  slowQ := (congrArg State.slowQ h : t.offTold.slowQ = s.offTold.slowQ)
  bcsWait := (congrArg State.bcsWait h : t.offTold.bcsWait = s.offTold.bcsWait)
  strobe := (congrArg State.strobe h : t.offTold.strobe = s.offTold.strobe)
  mode := (congrArg State.mode h : t.offTold.mode = s.offTold.mode)

theorem offTold_responds (rs : List BcsReq) (res : BcsRes) (s : State) : (rs.foldl (fun s r => s.respond r res) s).offTold = s.offTold := by
  induction rs generalizing s with
  | nil => rfl
  | cons r rs ih => exact (ih _).trans (offTold_respond s r res)

theorem drain_nil (s : State) (h : s.bcsWait = []) : s.drain = s := by
  rw [drain, h]
  exact congrArg (fun w => { s with bcsWait := w }) h.symm

theorem slowAccessComplete_completes (s : State) (r : BcsReq) (res : BcsRes) (q : List (BcsReq × BcsRes)) (hq : s.slowQ = (r, res) :: q)
    (hw : s.bcsWait = []) :
    ∃ t, exec .slowAccessComplete s = .next t ∧ t.slowQ = q ∧ Output.bcs r res ∈ t.outp ∧ t.regs = s.regs ∧ t.shadow = s.shadow
      ∧ t.mode = s.mode ∧ t.bcsWait = [] := by
  have hsame := sameTold_of_offTold (offTold_respond { s.start with slowQ := q } r res)
  have hexec : exec .slowAccessComplete s = .next (({ s.start with slowQ := q } : State).respond r res) := by
    have hqt : s.start.slowQ = (r, res) :: q := hq
    change Host.Outcome.next (match s.start.slowQ with
      | [] => s.start
      | x :: q => (({ s.start with slowQ := q } : State).respond x.1 x.2).drain) = _
    rw [hqt]
    exact congrArg Host.Outcome.next (drain_nil _ (hsame.bcsWait.trans hw))
  exact ⟨_, hexec, hsame.slowQ, bcs_mem_respond .., hsame.regs, hsame.shadow, hsame.mode, hsame.bcsWait.trans hw⟩

/-! ### A write of UPD_STROBE -/

/-- The write of UPD_STROBE ends at once where it is posted, else when the strobe ends (R30). -/
theorem exec_updStrobe (s : State) (a : Acc) (m : Word) (hg : s.goesWrite a .updStrobe 0 m = true) :
    ∃ t, exec (.updStrobe a m) s = .next t ∧ t.strobe.mask = (s.start.strobeStart m).strobe.mask ∧ t.regs = (s.start.strobeStart m).regs
      ∧ t.shadow = (s.start.strobeStart m).shadow := by
  obtain ⟨hgo, hn⟩ := Bool.and_eq_true_iff.mp hg
  have ht : targetAt (regOff .updStrobe 0) = .reg .updStrobe 0 := by decide
  have hwrite : s.start.bcsWrite (wordWrite a (regOff .updStrobe 0) m) = s.start.strobeStart m := by
    rw [bcsWrite_wordWrite s.start a _ m (fun k => by rw [ht]; exact ⟨nofun, nofun⟩),
      writeWord_reg s.start ht rfl (b := .upd) (by decide) hn rfl]
    unfold writeReg
    simp [lockBreaks, lockMask, writeEffect]
  have hstrobe : isStrobe (wordWrite a (regOff .updStrobe 0) m) = true := by
    have hoff : (wordWrite a (regOff .updStrobe 0) m).off = regOff .updStrobe 0 := rfl
    simp only [isStrobe, hoff, ht]
    rfl
  have hexec : exec (.updStrobe a m) s = .next (s.start.bcsPerform (wordWrite a (regOff .updStrobe 0) m)) := bcsRun_of_goes hgo rfl
  have hwr : (wordWrite a (regOff .updStrobe 0) m).wr = true := rfl
  refine ⟨_, hexec, ?_⟩
  unfold bcsPerform
  simp only [hwr, if_true, hwrite]
  split
  · exact ⟨rfl, rfl, rfl⟩
  · have hans := (s.start.strobeStart m).offAnswer_wordWrite a (regOff .updStrobe 0) m (.done [])
    obtain ⟨hregs, hsh⟩ := words_of_offAnswer hans
    have hst := congrArg State.strobe hans
    exact ⟨congrArg Strobe.mask hst, hregs, hsh⟩

theorem updStrobe_starts (s : State) (a : Acc) (m : Word) (hg : s.goesWrite a .updStrobe 0 m = true) :
    ∃ t, exec (.updStrobe a m) s = .next t
      ∧ (s.strobe.mask = none → t.strobe.mask = some (m.toNat % 2 ^ 13) ∧ t.regs = s.regs)
      ∧ (∀ n, s.strobe.mask = some n → t.strobe.mask = some n ∧ t.f Fld.updErr_overrun = 1 ∧ s.onlyFields t [(Fld.updErr_overrun, 0)])
      ∧ t.shadow = s.shadow := by
  obtain ⟨t, hexec, hmask, hregs, hshadow⟩ := s.exec_updStrobe a m hg
  have hcase : (s.strobe.mask = none → s.start.strobeStart m = { s.start with strobe := { s.strobe with mask := some (m.toNat % 2 ^ 13) } })
      ∧ (∀ n, s.strobe.mask = some n → s.start.strobeStart m = s.start.setF Fld.updErr_overrun 1) := by
    constructor
    · intro h
      exact if_neg (by simp [h])
    · intro n h
      exact if_pos (by simp [h])
  refine ⟨t, hexec, fun h => ?_, fun n h => ?_, ?_⟩
  · rw [hmask, hregs, hcase.1 h]
    exact ⟨rfl, rfl⟩
  · rw [hcase.2 n h] at hmask hregs
    refine ⟨hmask.trans h, ?_, onlyFields.congr ?_ hregs⟩
    · rw [f_congr hregs, f_setF_same _ (by decide)]
      decide
    · exact onlyFields_setF s.start (x := Fld.updErr_overrun) (List.mem_singleton_self _) (by decide) (wordsApart_singleton _ _) 1
  · rw [hshadow]
    cases h : s.strobe.mask with
    | none => rw [hcase.1 h]; rfl
    | some n => rw [hcase.2 n h]; rfl

/-! ### The commit of a block -/

/-- The committed word of a register: its pending RWS bits, and the others as they are (R29). -/
def committedWord (s : State) (id : RegId) (i : Nat) : Word := (s.reg id i &&& ~~~id.row.rws) ||| (s.shadowReg id i &&& id.row.rws)

/-- One offset of a commit. -/
def commitAt (s : State) (k : Nat) : State :=
  match regAt k with
  | none => s
  | some (id, i) => s.commitReg id i

theorem commitBlock_eq (s : State) (b : Block) : s.commitBlock b = (s.listedIn b).foldl commitAt s := rfl

theorem commitAt_offRegs (s : State) (k : Nat) : (s.commitAt k).offRegs = s.offRegs := by
  unfold commitAt
  split
  · rfl
  · exact offRegs_setReg ..

theorem commitAt_shadowReg (s : State) (k : Nat) (id : RegId) (i : Nat) : (s.commitAt k).shadowReg id i = s.shadowReg id i := by
  unfold commitAt
  split <;> rfl

theorem commitAt_reg_same (s : State) {id : RegId} {i : Nat} (h : regAt (regOff id i) = some (id, i)) :
    (s.commitAt (regOff id i)).reg id i = s.committedWord id i := by
  unfold commitAt
  rw [h]
  exact reg_setReg_same ..

theorem commitAt_reg_ne (s : State) {k : Nat} {id : RegId} {i : Nat} (h : regOff id i ≠ k) : (s.commitAt k).reg id i = s.reg id i := by
  unfold commitAt
  split
  · rfl
  next id' i' hat => exact reg_setReg_ne s ((regAt_some hat).2 ▸ h) _

theorem committedWord_idem (r d m : Word) : ((r &&& ~~~m ||| d &&& m) &&& ~~~m) ||| (d &&& m) = r &&& ~~~m ||| d &&& m := by
  ext k hk
  simp only [BitVec.getElem_or, BitVec.getElem_and, BitVec.getElem_not]
  cases r[k] <;> cases d[k] <;> cases m[k] <;> rfl

theorem reg_commits (ks : List Nat) (s : State) {id : RegId} {i : Nat} (h : regAt (regOff id i) = some (id, i)) :
    (ks.foldl commitAt s).reg id i = if regOff id i ∈ ks then s.committedWord id i else s.reg id i := by
  induction ks generalizing s with
  | nil => simp
  | cons k ks ih =>
    have hsh := s.commitAt_shadowReg k id i
    rw [List.foldl_cons, ih]
    by_cases hk : regOff id i = k
    · subst hk
      have hreg := s.commitAt_reg_same h
      have hagain : (s.commitAt (regOff id i)).committedWord id i = s.committedWord id i := by
        rw [committedWord, hreg, hsh]
        exact committedWord_idem ..
      simp [hagain, hreg]
    · have hreg := s.commitAt_reg_ne (id := id) (i := i) hk
      simp [committedWord, hreg, hsh, hk]

theorem committedWord_reset (w m : Word) : w &&& ~~~m ||| w &&& m = w := by
  ext k hk
  simp only [BitVec.getElem_or, BitVec.getElem_and, BitVec.getElem_not]
  cases w[k] <;> cases m[k] <;> rfl

theorem reg_commitBlock (s : State) {b : Block} {id : RegId} {i : Nat} (h : regAt (regOff id i) = some (id, i)) (hb : id.row.block = b) :
    (s.commitBlock b).reg id i = s.committedWord id i := by
  rw [commitBlock_eq, reg_commits _ _ h]
  split
  · rfl
  next hnot =>
    have hrange : (decide (b.base ≤ regOff id i) && decide (regOff id i < b.base + b.size)) = true := by
      have hle := base_le_regOff id i
      have hlt := regAt_lt h
      rw [hb] at hle hlt
      simp [hle, hlt]
    have hunlisted : regOff id i ∉ s.shadow.map (·.1) ++ s.regs.map (·.1) := fun hmem =>
      hnot (List.mem_filter.mpr ⟨hmem, hrange⟩)
    rw [List.mem_append, not_or] at hunlisted
    have hnone {m : FMap Word} (hm : regOff id i ∉ m.map (·.1)) : FMap.find (regOff id i) m = none :=
      FMap.find_eq_none.mpr fun p hp he => hm (List.mem_map.mpr ⟨p, hp, he⟩)
    have hreg : s.reg id i = id.row.reset := by rw [reg, FMap.get, hnone hunlisted.2]; rfl
    have hshadow : s.shadowReg id i = id.row.reset := by rw [shadowReg, FMap.get, hnone hunlisted.1]; rfl
    rw [committedWord, hreg, hshadow, committedWord_reset]

theorem offRegs_commitBlock (s : State) (b : Block) : (s.commitBlock b).offRegs = s.offRegs := by
  rw [commitBlock_eq]
  generalize s.listedIn b = ks
  induction ks generalizing s with
  | nil => rfl
  | cons k ks ih => exact (ih _).trans (commitAt_offRegs s k)

theorem onlyBlocks_commits (ks : List Nat) (s : State) {b : Block} (h : ∀ k ∈ ks, blockAt k = some b) :
    s.onlyBlocks (ks.foldl commitAt s) [b] := by
  induction ks generalizing s with
  | nil => exact onlyBlocks.refl s _
  | cons k ks ih =>
    refine onlyBlocks.trans ?_ (ih _ fun j hj => h j (List.mem_cons_of_mem _ hj))
    unfold commitAt
    split
    · exact onlyBlocks.refl s _
    next id i hat =>
      exact onlyBlocks_setReg s ((regAt_some hat).2.symm ▸ h k List.mem_cons_self) (List.mem_singleton_self b) _

theorem onlyBlocks_commitBlock (s : State) (b : Block) : s.onlyBlocks (s.commitBlock b) [b] := by
  rw [commitBlock_eq]
  refine onlyBlocks_commits _ _ fun k hk => ?_
  have hrange := (List.mem_filter.mp hk).2
  simp only [Bool.and_eq_true, decide_eq_true_eq] at hrange
  have hspan : b.size ≤ b.span := by cases b <;> decide
  exact (blockAt_iff k b).mpr ⟨hrange.1, by omega⟩

/-! ### The commit edge -/

/-- A strobe of one block, before UPD_STATUS and UPD_COUNT. -/
theorem commitMask_single (s : State) {k : Nat} (h : k < 13) :
    s.commitMask (2 ^ k) = ((s.strobeBit k).1.setF Fld.updStatus_result ((s.strobeBit k).2.code * 4 ^ k)).setF Fld.updCount_strobes
      ((s.strobeBit k).1.f Fld.updCount_strobes + 1) := by
  have hfold (n : Nat) (a : State × Nat) : (List.range n).foldl (fun (a : State × Nat) b =>
      if bit b (2 ^ k) then let x := a.1.strobeBit b; (x.1, a.2 + x.2.code * 4 ^ b) else a) a
      = if k < n then ((a.1.strobeBit k).1, a.2 + (a.1.strobeBit k).2.code * 4 ^ k) else a := by
    induction n with
    | zero => simp
    | succ n ih =>
      rw [List.range_succ, List.foldl_append, ih, List.foldl_cons, List.foldl_nil]
      have hbit : bit n (2 ^ k) = decide (k = n) := Nat.testBit_eq_decide_div_mod_eq.symm.trans Nat.testBit_two_pow
      rw [hbit]
      rcases Nat.lt_trichotomy k n with hlt | rfl | hgt
      · simp [hlt, Nat.ne_of_lt hlt, Nat.lt_succ_of_lt hlt]
      · simp
      · have h1 : ¬ k < n := by omega
        have h2 : ¬ k < n + 1 := by omega
        have h3 : k ≠ n := by omega
        simp [h1, h2, h3]
  unfold commitMask
  rw [hfold, if_pos h]
  simp

/-- The state with no strobe in progress. -/
def strobeOver (s : State) : State := { s with strobe := {} }

theorem strobeOver_regs (s : State) : s.strobeOver.regs = s.regs := rfl

/-- The blocks that a strobe commits whole or not at all (R31), each with its bit and its checks. -/
def wholeBlock (s : State) (b : Block) (k : Nat) (ok : Bool) : Prop :=
  b = .bst ∧ k = 1 ∧ ok = s.bstOk ∨ b = .pwr ∧ k = 2 ∧ ok = s.pwrOk ∨ b = .tlk ∧ k = 5 ∧ ok = s.tlkOk ∨ b = .jnl ∧ k = 6 ∧ ok = true
    ∨ b = .eng ∧ k = 7 ∧ ok = s.engOk ∨ b = .cmp ∧ k = 8 ∧ ok = s.cmpOk

/-- The strobe of such a block. -/
theorem strobeBit_whole (s : State) {b : Block} {k : Nat} {ok : Bool} (h : s.wholeBlock b k ok) :
    k < 9 ∧ b ≠ .upd ∧ (s.strobeBit k).2 = wholeRes ok ∧ (s.strobeBit k).1.regs = (if ok then (s.commitBlock b).regs else s.regs)
    ∧ (s.strobeBit k).1.shadow = s.shadow ∧ (s.strobeBit k).1.bcsWait = s.bcsWait := by
  have hwhole : (s.strobeWhole b ok).2 = wholeRes ok ∧ (s.strobeWhole b ok).1.regs = (if ok then (s.commitBlock b).regs else s.regs)
      ∧ (s.strobeWhole b ok).1.shadow = s.shadow ∧ (s.strobeWhole b ok).1.bcsWait = s.bcsWait := by
    have hoff := s.offRegs_commitBlock b
    cases ok with
    | false => exact ⟨rfl, rfl, rfl, rfl⟩
    | true => exact ⟨rfl, rfl, (congrArg State.shadow hoff : (s.commitBlock b).offRegs.shadow = s.offRegs.shadow),
        (congrArg State.bcsWait hoff : (s.commitBlock b).offRegs.bcsWait = s.offRegs.bcsWait)⟩
  rcases h with ⟨rfl, rfl, rfl⟩ | ⟨rfl, rfl, rfl⟩ | ⟨rfl, rfl, rfl⟩ | ⟨rfl, rfl, rfl⟩ | ⟨rfl, rfl, rfl⟩ | ⟨rfl, rfl, rfl⟩ <;>
    exact ⟨by decide, by decide, hwhole⟩

theorem strobeCommit_commits (s : State) (b : Block) (k : Nat) (ok : Bool) (hr : s.mode ≠ .reset) (hh : s.mode ≠ .halt)
    (hm : s.strobe.mask = some (2 ^ k)) (hw : s.bcsWait = []) (h : s.start.wholeBlock b k ok) :
    ∃ t, exec .strobeCommit s = .next t ∧ t.strobe = {} ∧ t.shadow = s.shadow
      ∧ (∀ id i, regAt (regOff id i) = some (id, i) → id.row.block = b →
          t.reg id i = if ok then (s.reg id i &&& ~~~id.row.rws) ||| (s.shadowReg id i &&& id.row.rws) else s.reg id i)
      ∧ t.f Fld.updStatus_result = (if ok then 1 else 3) * 4 ^ k
      ∧ t.f Fld.updCount_strobes = (s.f Fld.updCount_strobes + 1) % 2 ^ (Fld.updCount_strobes.hi + 1 - Fld.updCount_strobes.lo)
      ∧ s.onlyBlocks t [b, .upd] := by
  obtain ⟨hk, hupd, hres, hregs, hshadow, hwait⟩ := s.start.strobeBit_whole h
  have hsame := sameTold_of_offTold (offTold_responds s.strobe.resp (.done []) (s.start.commitMask (2 ^ k)).strobeOver)
  have hcommit := s.start.commitMask_single (k := k) (by omega)
  have hcw : (s.start.commitMask (2 ^ k)).bcsWait = [] := by rw [hcommit, setF_bcsWait, setF_bcsWait, hwait]; exact hw
  have hexec : exec .strobeCommit s
      = .next (s.strobe.resp.foldl (fun (s : State) r => s.respond r (.done [])) (s.start.commitMask (2 ^ k)).strobeOver) := by
    have hmt : s.start.strobe.mask = some (2 ^ k) := hm
    have hworks : s.start.works = true := by simp [works, hr, hh]
    change Host.Outcome.next (match s.start.strobe.mask with
      | none => s.start
      | some m =>
        if !s.start.works then s.start else
          ((s.strobe.resp.foldl (fun (s : State) r => s.respond r (.done [])) (s.start.commitMask m).strobeOver).drain)) = _
    rw [hmt]
    simp only [hworks, Bool.not_true, Bool.false_eq_true, if_false]
    exact congrArg Host.Outcome.next (drain_nil _ (hsame.bcsWait.trans hcw))
  have hcregs : (s.strobe.resp.foldl (fun (s : State) r => s.respond r (.done [])) (s.start.commitMask (2 ^ k)).strobeOver).regs
      = (((s.start.strobeBit k).1.setF Fld.updStatus_result ((s.start.strobeBit k).2.code * 4 ^ k)).setF Fld.updCount_strobes
        ((s.start.strobeBit k).1.f Fld.updCount_strobes + 1)).regs :=
    (hsame.regs.trans (strobeOver_regs _)).trans (congrArg State.regs hcommit)
  have honly : s.onlyBlocks (s.start.strobeBit k).1 [b] := by
    cases ok with
    | false => exact onlyBlocks_of_regs hregs _
    | true => exact onlyBlocks.congr (onlyBlocks_commitBlock s.start b) hregs
  have hblk : blockAt (regOff .updStatus 0) = some .upd ∧ blockAt (regOff .updCount 0) = some .upd := by decide
  refine ⟨_, hexec, hsame.strobe, ?_, fun id i hat hb => ?_, ?_, ?_, ?_⟩
  · refine hsame.shadow.trans ?_
    change (s.start.commitMask (2 ^ k)).shadow = s.shadow
    rw [hcommit, setF_shadow, setF_shadow, hshadow]
    rfl
  · have hat' := (regAt_some hat).1
    rw [hb] at hat'
    have hne {x : RegId} (hx : blockAt (regOff x 0) = some .upd) : regOff id i ≠ regOff x 0 := fun he =>
      hupd (Option.some.inj (hat'.symm.trans (he ▸ hx)))
    rw [reg_congr hcregs, reg_setF_ne _ (hne (x := .updCount) hblk.2), reg_setF_ne _ (hne (x := .updStatus) hblk.1)]
    cases ok with
    | false => exact reg_congr hregs id i
    | true => exact (reg_congr hregs id i).trans (reg_commitBlock s.start hat hb)
  · rw [f_congr hcregs]
    simp (disch := decide) only [f_setF_ne, f_setF_same]
    rw [hres]
    have hlt : (wholeRes ok).code * 4 ^ k < 2 ^ 26 := by
      have hcode : (wholeRes ok).code ≤ 3 := by cases ok <;> decide
      have hpow : 4 ^ k ≤ 4 ^ 8 := Nat.pow_le_pow_right (by decide) (by omega)
      have hmax : 3 * 4 ^ 8 < 2 ^ 26 := by decide
      exact Nat.lt_of_le_of_lt (Nat.mul_le_mul hcode hpow) hmax
    have hwidth : 2 ^ (Fld.updStatus_result.hi + 1 - Fld.updStatus_result.lo) = 2 ^ 26 := rfl
    rw [hwidth, Nat.mod_eq_of_lt hlt]
    cases ok <;> rfl
  · rw [f_congr hcregs, f_setF_same _ (by decide), honly.f_eq (x := Fld.updCount_strobes) hblk.2 (by simpa using hupd.symm)]
  · have hall := (honly.mono (cs := [b, .upd]) (by simp)).setF (x := Fld.updStatus_result) (i := 0) hblk.1 (by simp)
      ((s.start.strobeBit k).2.code * 4 ^ k)
    exact (hall.setF (x := Fld.updCount_strobes) (i := 0) hblk.2 (by simp) _).congr hcregs

end State

/-- Settles O25: the crossing's head completes, UPD_STROBE starts or overruns, and the commit edge commits the whole block or nothing. -/
theorem slowAccessesAndStrobes : Obligations.SlowAccessesAndStrobes :=
  ⟨fun s r res q => s.slowAccessComplete_completes r res q, fun s a m => s.updStrobe_starts a m,
    fun s b k ok => s.strobeCommit_commits b k ok⟩

end Sys2Proof.Machine
end

section
/-! PROOFS. A fault that sends nothing, in one record; and the links one by one. -/

namespace Sys2Proof.Machine

namespace State

/-! ### A fault that sends nothing -/

theorem classAct_muteUc (s : State) {src : Nat} (hc : srcClass src = 2) (hmute : s.muteUc) (syn : Nat) (inst : Option Nat) :
    s.classAct src syn inst = s.incF Fld.fltCntUc_count := by
  obtain ⟨hdest, hinst⟩ := hmute
  have hdest' : (s.incF Fld.fltCntUc_count).fb Fld.fltEvDest_en = false := by
    rwa [fb, f_incF_ne _ (by decide), ← fb]
  have hinst' (i : Nat) : (s.incF Fld.fltCntUc_count).evOn i 6 = false := by
    have hne : regOff Fld.evVec_en.id (evVecIdx i 6) ≠ regOff Fld.fltCntUc_count.id 0 := regOff_ne_of_lt (by decide) _
    rw [evOn, fb, f_incF_ne _ hne, ← fb]
    exact hinst i
  unfold classAct
  cases inst <;> simp [hc, faultDestEvent, faultInstEvent, hdest', hinst']

/-- No EVENT goes out for a source below the fatal class (R275, R296). -/
def silent (s : State) (src : Nat) : Prop := srcClass src = 1 ∧ s.mute src = true ∨ srcClass src = 2 ∧ s.muteUc

/-- What a raised source of which nothing is sent has done. -/
structure Raised (s t : State) (src : Nat) : Prop where
  off : t.offFault = s.offFault
  links : t.links = s.links
  outp : t.outp = s.outp
  only : s.onlyBlocks t [.flt]
  counted : s.counted t src
  others : ∀ k, k ≠ src → FMap.get 0 k t.flt.srcCnt = FMap.get 0 k s.flt.srcCnt

theorem muteUc_of_onlyBlocks {s t : State} (h : s.muteUc) (hf : t.f Fld.fltEvDest_en = s.f Fld.fltEvDest_en)
    (hv : ∀ k, t.reg .evVec k = s.reg .evVec k) : t.muteUc := by
  obtain ⟨hdest, hinst⟩ := h
  refine ⟨by rw [fb, hf, ← fb]; exact hdest, fun i => ?_⟩
  have hfield : t.f Fld.evVec_en (evVecIdx i 6) = s.f Fld.evVec_en (evVecIdx i 6) :=
    congrArg (fun w : Word => bits Fld.evVec_en.hi Fld.evVec_en.lo w.toNat) (hv _)
  rw [evOn, fb, hfield, ← fb]
  exact hinst i

theorem capture_keeps (s : State) (src syn : Nat) {id : RegId} {i : Nat} (h : ∀ x ∈ recordRegs, regOff id i ≠ regOff x 0) :
    (s.capture src syn).reg id i = s.reg id i := by
  have hset (t : State) (x : Fld) (v : Nat) (hx : x.id ∈ recordRegs) : (t.setF x v).reg id i = t.reg id i := reg_setF_ne t (h _ hx) v
  have hwrite (t : State) : (t.writeRecord src syn).reg id i = t.reg id i := by
    unfold writeRecord setPair
    rw [hset, hset, hset, hset, hset, hset, hset] <;> decide
  rcases s.capture_cases src syn with h | h | h <;> rw [h]
  · exact (reg_congr (modFlt_regs _ _) id i).trans (hwrite s)
  · exact (hwrite _).trans (hset s _ 1 (by decide))
  · exact hset s _ 1 (by decide)

theorem raise_silent (s : State) {src : Nat} (hm : s.mode ≠ .reset) (hq : s.silent src) (hn : s.flt.haltNow = false) (unit : Nat)
    (inst je : Option Nat) (detail : Nat) : s.Raised (s.raise src unit inst je detail) src := by
  have hc0 : srcClass src ≠ 0 := by rcases hq with ⟨h, _⟩ | ⟨h, _⟩ <;> omega
  have hc3 : srcClass src ≠ 3 := by rcases hq with ⟨h, _⟩ | ⟨h, _⟩ <;> omega
  have hquiet : (s.raise src unit inst je detail).links = s.links ∧ (s.raise src unit inst je detail).outp = s.outp := by
    rcases hq with ⟨hc, hmute⟩ | ⟨hc, hmute⟩
    · exact s.raise_mute hc hmute hn unit inst je detail
    · have hcap := (offFault_capture (s.noteFault src) src (syndrome unit inst je detail)).trans (s.offFault_noteFault src)
      have hlinks := capture_quiet (s.noteFault src) src (syndrome unit inst je detail)
      have hnote : (s.noteFault src).links = s.links ∧ (s.noteFault src).outp = s.outp := by simp [noteFault]
      have hnreg {id : RegId} {i : Nat} (h : regOff id i ≠ regOff .fltHighest 0) : (s.noteFault src).reg id i = s.reg id i := by
        rw [noteFault, maxF, reg_setF_ne _ h, reg_congr (modFlt_regs _ _)]
      have hreg {id : RegId} {i : Nat} (h1 : regOff id i ≠ regOff .fltHighest 0) (h : ∀ x ∈ recordRegs, regOff id i ≠ regOff x 0) :
          ((s.noteFault src).capture src (syndrome unit inst je detail)).reg id i = s.reg id i :=
        (capture_keeps _ _ _ h).trans (hnreg h1)
      have hcm : ((s.noteFault src).capture src (syndrome unit inst je detail)).muteUc := by
        have hlow : ∀ x ∈ RegId.fltHighest :: recordRegs, regOff x 0 < RegId.evVec.row.block.base := by decide
        refine muteUc_of_onlyBlocks hmute (congrArg (fun w : Word => bits _ _ w.toNat) (hreg (by decide) (by decide))) fun k => ?_
        exact hreg (regOff_ne_of_lt (hlow _ List.mem_cons_self) k) fun x hx => regOff_ne_of_lt (hlow x (List.mem_cons_of_mem _ hx)) k
      rw [raise_eq s src unit inst je detail hm]
      generalize (s.noteFault src).capture src (syndrome unit inst je detail) = c at hcap hlinks hcm ⊢
      have hnow : ¬ (c.incF Fld.fltCntUc_count).flt.haltNow = true := by simp [(flt_of_offFault hcap).2, hn]
      rw [classAct_muteUc c hc hcm, if_neg hnow, incF_links, incF_outp]
      exact ⟨hlinks.1.trans hnote.1, hlinks.2.trans hnote.2⟩
  refine ⟨s.offFault_raise hc3 hn .., hquiet.1, hquiet.2, s.onlyBlocks_raise hc3 unit inst je detail, s.counted_raise hm hc0 .., fun k hk => ?_⟩
  obtain ⟨hcnt, -⟩ := faultWords_eq_iff.mp (s.faultWords_raise unit inst je detail hm hc0)
  rw [hcnt, incF_flt, capture_srcCnt]
  exact FMap.get_mod_ne hk 0 (fun n => min (n + 1) 65535) s.flt.srcCnt

theorem Raised.mode {s t : State} {src : Nat} (h : s.Raised t src) : t.mode = s.mode := (mode_of_offFault h.off).1

theorem Raised.haltNow {s t : State} {src : Nat} (h : s.Raised t src) : t.flt.haltNow = s.flt.haltNow := (flt_of_offFault h.off).2

theorem Raised.mute {s t : State} {src : Nat} (h : s.Raised t src) (other : Nat) : t.mute other = s.mute other := by
  rw [State.mute, State.mute, (flt_of_offFault h.off).1]

theorem Raised.link {s t : State} {src : Nat} (h : s.Raised t src) (l : Nat) : t.link l = s.link l := by rw [State.link, h.links, State.link]

/-! ### Links -/

theorem link_congr {s t : State} (h : t.links = s.links) (l : Nat) : t.link l = s.link l := by rw [link, h, link]

@[simp] theorem link_modLink_same (s : State) (l : Nat) (g : Link → Link) : (s.modLink l g).link l = g (s.link l) := FMap.get_mod_same ..

theorem link_modLink_ne (s : State) {l j : Nat} (h : j ≠ l) (g : Link → Link) : (s.modLink l g).link j = s.link j := FMap.get_mod_ne h ..

theorem sameLinksBut_modLink (s : State) (l : Nat) (g : Link → Link) : s.sameLinksBut (s.modLink l g) l :=
  fun _ hj => link_modLink_ne s hj g

theorem sameLinksBut.trans {s t u : State} {l : Nat} (h : s.sameLinksBut t l) (h' : t.sameLinksBut u l) : s.sameLinksBut u l :=
  fun j hj => (h' j hj).trans (h j hj)

theorem sameLinksBut_of_links {s t : State} (h : t.links = s.links) (l : Nat) : s.sameLinksBut t l := fun j _ => link_congr h j

theorem blockAt_tlkLinkCnt {l : Nat} (h : l < 2) : blockAt (regOff .tlkLinkCnt l) = some .tlk := by
  have hall : ∀ l < 2, blockAt (regOff .tlkLinkCnt l) = some .tlk := by decide
  exact hall l h

/-- The frame of a link's events: the links, the registers of TLK and FLT, the fault collector, and what goes out. -/
theorem linkFrame_of {s t : State} (hregs : s.onlyBlocks t [.tlk, .flt]) (hoff : t.offFault = s.start.offFault) : s.linkFrame t :=
  ⟨hregs, congrArg (fun u : State => { u with links := t.links, regs := t.regs, flt := t.flt, outp := t.outp }) (eq_of_offFault hoff)⟩

end State

end Sys2Proof.Machine
end

section
/-! PROOFS. What a link does with a block (R43), and the replay of what is not acknowledged (R43, R44). -/

namespace Sys2Proof.Machine

/-- The unacknowledged blocks after one more resend. -/
def resentOnce (bs : List TxBlk) : List TxBlk := bs.map fun b => { b with resent := b.resent + 1 }

/-- A link whose ACK and NAK have gone out. -/
def Link.told (k : Link) : Link := { k with nak := false, ackDue := false }

/-- A link whose unacknowledged blocks count one resend more. -/
def Link.resends (k : Link) : Link := { k with unacked := resentOnce k.unacked }

namespace State

/-! ### Blocks sent again -/

/-- One block of a replay. -/
def emitAgain (l : Nat) (s : State) (b : TxBlk) : State := emitBlock l b.seq 0 b.fpo b.cr b.stream s

theorem emitAgain_outp (s : State) (l : Nat) (b : TxBlk) : (s.emitAgain l b).outp = s.outp ++ [s.resentBlock l (s.link l).nak b] := rfl
theorem emitAgain_link (s : State) (l : Nat) (b : TxBlk) : (s.emitAgain l b).link l = (s.link l).told :=
  link_modLink_same s l Link.told
theorem emitAgain_others (s : State) (l : Nat) (b : TxBlk) : s.sameLinksBut (s.emitAgain l b) l :=
  sameLinksBut_modLink s l Link.told
theorem emitAgain_offLinks (s : State) (l : Nat) (b : TxBlk) : (s.emitAgain l b).offLinks = s.offLinks := rfl

theorem resentBlock_congr {s t : State} {l : Nat} (h : (t.link l).rxNext = (s.link l).rxNext) (nak : Bool) (b : TxBlk) :
    t.resentBlock l nak b = s.resentBlock l nak b := by
  rw [resentBlock, resentBlock, h]

theorem resentAll_congr {s t : State} {l : Nat} (hnext : (t.link l).rxNext = (s.link l).rxNext) (hnak : (t.link l).nak = (s.link l).nak)
    (bs : List TxBlk) : t.resentAll l bs = s.resentAll l bs := by
  cases bs with
  | nil => rfl
  | cons c cs =>
    rw [resentAll, resentAll, hnak, resentBlock_congr hnext, List.map_congr_left fun d _ => resentBlock_congr hnext false d]

/-- After the first block no NAK is due. -/
theorem resentAll_told {s t : State} {l : Nat} (h : t.link l = (s.link l).told) (bs : List TxBlk) :
    t.resentAll l bs = bs.map (s.resentBlock l false) := by
  have hnext : (t.link l).rxNext = (s.link l).rxNext := by rw [h]; rfl
  have hnak : (t.link l).nak = false := by rw [h]; rfl
  cases bs with
  | nil => rfl
  | cons c cs =>
    rw [resentAll, hnak, resentBlock_congr hnext, List.map_congr_left fun d _ => resentBlock_congr hnext false d, List.map_cons]

/-- A replay puts every block out in order, a NAK that is due in the first alone. -/
theorem emitAgain_all (l : Nat) (bs : List TxBlk) (s : State) :
    (bs.foldl (emitAgain l) s).outp = s.outp ++ s.resentAll l bs
    ∧ (bs ≠ [] → (bs.foldl (emitAgain l) s).link l = (s.link l).told)
    ∧ s.sameLinksBut (bs.foldl (emitAgain l) s) l ∧ (bs.foldl (emitAgain l) s).offLinks = s.offLinks := by
  induction bs generalizing s with
  | nil => exact ⟨(List.append_nil _).symm, fun h => absurd rfl h, fun _ _ => rfl, rfl⟩
  | cons b bs ih =>
    obtain ⟨hout, hlink, hothers, hoff⟩ := ih (s.emitAgain l b)
    have hl := s.emitAgain_link l b
    refine ⟨?_, fun _ => ?_, (emitAgain_others s l b).trans hothers, hoff.trans (emitAgain_offLinks s l b)⟩
    · rw [List.foldl_cons, hout, emitAgain_outp, resentAll_told hl, List.append_assoc]
      rfl
    · rw [List.foldl_cons]
      cases bs with
      | nil => exact hl
      | cons c cs =>
        rw [hlink (List.cons_ne_nil _ _), hl]
        rfl

theorem resentAll_resentOnce (s : State) (l : Nat) (bs : List TxBlk) : s.resentAll l (resentOnce bs) = s.resentAll l bs := by
  cases bs with
  | nil => rfl
  | cons b bs =>
    simp only [resentOnce, resentAll, List.map_cons, List.map_map]
    rfl

theorem resend_sends (s : State) (l : Nat) (h : (s.link l).unacked ≠ []) :
    (s.resend l).outp = s.outp ++ s.resentAll l (s.link l).unacked
    ∧ (s.resend l).link l = { s.link l with nak := false, ackDue := false, unacked := resentOnce (s.link l).unacked }
    ∧ s.sameLinksBut (s.resend l) l ∧ (s.resend l).offLinks = s.offLinks := by
  have hmod := s.link_modLink_same l Link.resends
  obtain ⟨hout, hlink, hothers, hoff⟩ := emitAgain_all l (resentOnce (s.link l).unacked)
    (s.modLink l Link.resends)
  have heq : s.resend l
      = (resentOnce (s.link l).unacked).foldl (emitAgain l) (s.modLink l Link.resends) := by
    change (((s.modLink l Link.resends).link l).unacked).foldl (emitAgain l) _ = _
    rw [hmod]
    rfl
  have hne : resentOnce (s.link l).unacked ≠ [] := by simpa [resentOnce] using h
  have hall := resentAll_congr (s := s) (t := s.modLink l Link.resends) (l := l) (by rw [hmod]; rfl) (by rw [hmod]; rfl)
  refine ⟨?_, ?_, ?_, ?_⟩
  · rw [heq, hout, hall, resentAll_resentOnce]
    rfl
  · rw [heq, hlink hne, hmod]
    rfl
  · rw [heq]
    exact (sameLinksBut_modLink s l _).trans hothers
  · rw [heq, hoff]
    rfl

/-! ### Retraining -/

/-- A link that enters RETRAIN (R67). -/
theorem retrainLink_retrains (s : State) {l : Nat} (hl : l < 2) (full : Bool) :
    (s.retrainLink l full).link l = { s.link l with st := .retrain, fullWidth := full, quietReq := false }
    ∧ s.sameLinksBut (s.retrainLink l full) l
    ∧ (s.retrainLink l full).f Fld.tlkLinkCnt_retrains l = sat Fld.tlkLinkCnt_retrains (s.f Fld.tlkLinkCnt_retrains l + 1)
    ∧ s.onlyFields (s.retrainLink l full) [(Fld.tlkLinkCnt_retrains, l)] ∧ s.onlyBlocks (s.retrainLink l full) [.tlk]
    ∧ (s.retrainLink l full).offFault = s.offFault ∧ (s.retrainLink l full).outp = s.outp ∧ (s.retrainLink l full).flt = s.flt := by
  have hregs : (s.modLink l fun k => { k with st := .retrain, fullWidth := full, quietReq := false }).regs = s.regs := modLink_regs ..
  have hinc := (s.modLink l fun k => { k with st := .retrain, fullWidth := full, quietReq := false }).incF_links Fld.tlkLinkCnt_retrains l 1
  unfold retrainLink
  refine ⟨?_, ?_, ?_, ?_, ?_, ?_, ?_, ?_⟩
  · rw [link_congr hinc, link_modLink_same]
  · exact (sameLinksBut_modLink s l _).trans (sameLinksBut_of_links hinc l)
  · rw [f_incF_same _ (by decide), f_congr hregs, sat]
  · exact (onlyFields_of_regs hregs _).incF (List.mem_singleton_self _) (by decide) (wordsApart_singleton _ _) 1
  · exact (onlyBlocks_of_regs hregs _).incF (x := Fld.tlkLinkCnt_retrains) (blockAt_tlkLinkCnt hl) (List.mem_singleton_self _) 1
  · rw [offFault_incF]
    rfl
  · rw [incF_outp]
    rfl
  · rw [incF_flt]
    rfl

theorem f_retrainLink_replays (s : State) (l : Nat) (full : Bool) :
    (s.retrainLink l full).f Fld.tlkLinkCnt_replays l = s.f Fld.tlkLinkCnt_replays l := by
  rw [retrainLink, f_incF_apart _ (x := Fld.tlkLinkCnt_retrains) (y := Fld.tlkLinkCnt_replays) (by decide) rfl (by decide),
    f_congr (modLink_regs _ _ _)]

/-- What a trigger does to a link that is UP or QUIET, when no EVENT goes out for it. -/
theorem retrainTrigger_retrains (s : State) {l : Nat} (hl : l < 2) (hm : s.mode ≠ .reset) (hf : (s.link l).flows = true)
    (hmute : s.mute 0x022 = true) (hn : s.flt.haltNow = false) :
    s.retrained (s.retrainTrigger l) l ∧ (s.retrainTrigger l).offFault = s.offFault ∧ s.onlyBlocks (s.retrainTrigger l) [.tlk, .flt]
    ∧ (s.retrainTrigger l).outp = s.outp
    ∧ (∀ x : Fld, blockAt (regOff x.id l) = some .tlk → (s.retrainLink l false).f x l = s.f x l → (s.retrainTrigger l).f x l = s.f x l)
    ∧ ∀ k, k ≠ 0x022 → FMap.get 0 k (s.retrainTrigger l).flt.srcCnt = FMap.get 0 k s.flt.srcCnt := by
  obtain ⟨hlink, hothers, hcnt, _, hblocks, hoff, hout, hflt⟩ := s.retrainLink_retrains hl false
  have hmode : (s.retrainLink l false).mode = s.mode := incF_mode _ _ _ _
  have hraised := (s.retrainLink l false).raise_silent (src := 0x022) (by rwa [hmode]) (.inl ⟨by decide, by rw [mute, hflt, ← mute]; exact hmute⟩)
    (by rw [hflt, hn]) l none none 0
  have heq : s.retrainTrigger l = (s.retrainLink l false).raise 0x022 l := if_pos hf
  have hkeep (x : Fld) (hx : blockAt (regOff x.id l) = some .tlk) : (s.retrainTrigger l).f x l = (s.retrainLink l false).f x l := by
    rw [heq]
    exact hraised.only.f_eq hx (by decide)
  have hcounted := hraised.counted
  rw [← heq] at hraised hcounted
  refine ⟨⟨(hraised.link l).trans hlink, hothers.trans (sameLinksBut_of_links hraised.links l), (hkeep Fld.tlkLinkCnt_retrains (blockAt_tlkLinkCnt hl)).trans hcnt, ?_⟩,
    hraised.off.trans hoff, (hblocks.mono (by simp)).trans (hraised.only.mono (by simp)), hraised.outp.trans hout,
    fun x hx h => (hkeep x hx).trans h, fun k hk => (hraised.others k hk).trans (by rw [hflt])⟩
  obtain ⟨hsrc, hce⟩ := hcounted
  refine ⟨by rw [hsrc, hflt], fun h => (hce h).trans ?_⟩
  rw [hblocks.f_eq (x := Fld.fltCntCe_count) (i := 0) (b := .flt) (by decide) (by decide)]

/-! ### A replay -/

theorem any_resentOnce (bs : List TxBlk) : ((resentOnce bs).any fun b => 4 ≤ b.resent) = bs.any fun b => 3 ≤ b.resent := by
  rw [resentOnce, List.any_map]
  exact congrArg bs.any (funext fun b => by simp [Function.comp, Nat.succ_le_succ_iff])

/-- The state of a replay before the retraining that the fourth resend brings: counted, reported and sent. -/
def replayed (s : State) (l : Nat) : State := ((s.incF Fld.tlkLinkCnt_replays l).raise 0x021 l).resend l

theorem replay_eq (s : State) (l : Nat) (hf : (s.link l).flows = true) (hu : (s.link l).unacked ≠ []) :
    s.replay l = if ((s.replayed l).link l).unacked.any (fun b => 4 ≤ b.resent) then (s.replayed l).retrainTrigger l else s.replayed l := by
  unfold replay
  simp only [hf, Bool.not_true, Bool.false_or, List.isEmpty_iff, hu, if_false]
  rfl

theorem replayed_sends (s : State) {l : Nat} (hl : l < 2) (hm : s.mode ≠ .reset) (hu : (s.link l).unacked ≠ []) (hmute : s.mute 0x021 = true)
    (hn : s.flt.haltNow = false) :
    (s.replayed l).outp = s.outp ++ s.resentAll l (s.link l).unacked
    ∧ (s.replayed l).link l = { s.link l with nak := false, ackDue := false, unacked := resentOnce (s.link l).unacked }
    ∧ s.sameLinksBut (s.replayed l) l ∧ (s.replayed l).offFault = s.offFault ∧ s.onlyBlocks (s.replayed l) [.tlk, .flt]
    ∧ (s.replayed l).f Fld.tlkLinkCnt_replays l = sat Fld.tlkLinkCnt_replays (s.f Fld.tlkLinkCnt_replays l + 1)
    ∧ FMap.get 0 0x021 (s.replayed l).flt.srcCnt = min (FMap.get 0 0x021 s.flt.srcCnt + 1) 65535 := by
  have hraised := (s.incF Fld.tlkLinkCnt_replays l).raise_silent (src := 0x021) (by rwa [incF_mode])
    (.inl ⟨by decide, by rw [mute, incF_flt, ← mute]; exact hmute⟩) (by rw [incF_flt, hn]) l none none 0
  have hlink := (hraised.link l).trans (link_congr (incF_links _ _ _ _) l)
  obtain ⟨hout, hl', hothers, hoff⟩ := ((s.incF Fld.tlkLinkCnt_replays l).raise 0x021 l).resend_sends l (by rw [hlink]; exact hu)
  have hregs : (s.replayed l).regs = ((s.incF Fld.tlkLinkCnt_replays l).raise 0x021 l).regs := offLinks_regs hoff
  have hflt : (s.replayed l).flt = ((s.incF Fld.tlkLinkCnt_replays l).raise 0x021 l).flt :=
    (congrArg State.flt hoff : (s.replayed l).offLinks.flt = ((s.incF Fld.tlkLinkCnt_replays l).raise 0x021 l).offLinks.flt)
  have hall := resentAll_congr (s := s) (t := (s.incF Fld.tlkLinkCnt_replays l).raise 0x021 l) (l := l) (by rw [hlink]) (by rw [hlink])
  refine ⟨?_, ?_, ?_, ?_, ?_, ?_, ?_⟩
  · rw [replayed, hout, hraised.outp, incF_outp, hlink, hall]
  · rw [replayed, hl', hlink]
  · exact ((sameLinksBut_of_links (incF_links _ _ _ _) l).trans (sameLinksBut_of_links hraised.links l)).trans hothers
  · exact (offFault_of_offLinks hoff).trans (hraised.off.trans (offFault_incF _ _ _ _))
  · exact (((onlyBlocks_incF s (x := Fld.tlkLinkCnt_replays) (blockAt_tlkLinkCnt hl) (by simp) 1).trans (hraised.only.mono (by simp)))).congr hregs
  · rw [f_congr hregs, hraised.only.f_eq (x := Fld.tlkLinkCnt_replays) (blockAt_tlkLinkCnt hl) (by decide), f_incF_same _ (by decide)]
    rfl
  · rw [hflt, hraised.counted.1, incF_flt]

theorem replayTimeout_replays (s : State) (l : Fin 2) (hm : s.mode ≠ .reset) (hf : (s.link l.val).flows = true) (hu : (s.link l.val).unacked ≠ [])
    (h21 : s.mute 0x021 = true) (h22 : s.mute 0x022 = true) :
    ∃ t, exec (.replayTimeout l) s = .next t ∧ t.outp = s.resentAll l.val (s.link l.val).unacked
      ∧ (t.link l.val).unacked = (s.link l.val).unacked.map (fun b => { b with resent := b.resent + 1 })
      ∧ t.f Fld.tlkLinkCnt_replays l.val = sat Fld.tlkLinkCnt_replays (s.f Fld.tlkLinkCnt_replays l.val + 1)
      ∧ FMap.get 0 0x021 t.flt.srcCnt = min (FMap.get 0 0x021 s.flt.srcCnt + 1) 65535
      ∧ (if (s.link l.val).unacked.any (fun b => 3 ≤ b.resent) then
          t.link l.val = { s.link l.val with
            st := .retrain, fullWidth := false, quietReq := false, nak := false, ackDue := false, unacked := (t.link l.val).unacked }
         else t.link l.val = { s.link l.val with nak := false, ackDue := false, unacked := (t.link l.val).unacked })
      ∧ s.sameLinksBut t l.val ∧ s.linkFrame t := by
  obtain ⟨hout, hlink, hothers, hoff, hblocks, hcnt, hsrc⟩ := s.start.replayed_sends l.isLt hm hu h21 rfl
  have hexec : exec (.replayTimeout l) s = .next (s.start.replay l.val) := rfl
  have hun : ((s.start.replayed l.val).link l.val).unacked = resentOnce (s.link l.val).unacked := congrArg Link.unacked hlink
  have hreplay := s.start.replay_eq l.val hf hu
  rw [hun, any_resentOnce] at hreplay
  refine ⟨_, hexec, ?_⟩
  rw [hreplay]
  split
  next hany =>
    have hmode : (s.start.replayed l.val).mode = s.mode := (mode_of_offFault hoff).1
    obtain ⟨hev, hnow⟩ := flt_of_offFault hoff
    have hmute : (s.start.replayed l.val).mute 0x022 = true := by
      rw [mute, hev]
      exact h22
    have hflows : ((s.start.replayed l.val).link l.val).flows = true := by rw [hlink]; exact hf
    obtain ⟨⟨hl, ho, _, _⟩, hoff', hblocks', hout', hkeep, hsrcs⟩ :=
      (s.start.replayed l.val).retrainTrigger_retrains l.isLt (by rw [hmode]; exact hm) hflows hmute hnow
    have happart := (s.start.replayed l.val).f_retrainLink_replays l.val false
    refine ⟨hout'.trans hout, ?_, (hkeep Fld.tlkLinkCnt_replays (blockAt_tlkLinkCnt l.isLt) happart).trans hcnt, (hsrcs _ (by decide)).trans hsrc, ?_,
      hothers.trans ho, linkFrame_of (hblocks.trans hblocks') (hoff'.trans hoff)⟩
    · rw [hl, hlink]
      rfl
    · rw [hl, hlink]
      rfl
  next =>
    refine ⟨hout, hun, hcnt, hsrc, ?_, hothers, linkFrame_of hblocks hoff⟩
    rw [hlink]
    rfl

theorem replayTimeout_nothing (s : State) (l : Fin 2) (h : (s.link l.val).flows = false ∨ (s.link l.val).unacked = []) :
    exec (.replayTimeout l) s = .next s.start := by
  have hexec : exec (.replayTimeout l) s = .next (s.start.replay l.val) := rfl
  have hidle : (!(s.start.link l.val).flows || (s.start.link l.val).unacked.isEmpty) = true := by
    have hl : s.start.link l.val = s.link l.val := rfl
    rw [hl]
    rcases h with h | h <;> simp [h]
  rw [hexec, replay, if_pos hidle]

/-! ### A block received -/

/-- A discarded block (R43). -/
theorem nakLink_frame (s : State) (l : Nat) :
    (s.start.modLink l fun k => { k with nak := true }).link l = { s.link l with nak := true }
    ∧ s.sameLinksBut (s.start.modLink l fun k => { k with nak := true }) l
    ∧ (s.start.modLink l fun k => { k with nak := true }) = { s.start with links := (s.start.modLink l fun k => { k with nak := true }).links } :=
  ⟨link_modLink_same .., sameLinksBut_modLink s.start l _, rfl⟩

theorem ackBlocks_ends {pre post : List TxBlk} {x : TxBlk} (hpre : ∀ y ∈ pre, y.seq ≠ x.seq) (hfree : ∀ y ∈ pre ++ [x], y.frees = []) :
    ackBlocks x.seq (pre ++ x :: post) = (post, []) := by
  have hidx : (pre ++ x :: post).findIdx? (fun b => b.seq == x.seq) = some pre.length := by
    have hnone : pre.findIdx? (fun b => b.seq == x.seq) = none := List.findIdx?_eq_none_iff.mpr fun y hy => by simpa using hpre y hy
    rw [List.findIdx?_append, hnone, List.findIdx?_cons]
    simp
  have hsplit : pre ++ x :: post = (pre ++ [x]) ++ post := by simp
  have hlen : pre.length + 1 = (pre ++ [x]).length := by simp
  unfold ackBlocks
  rw [hidx]
  dsimp only
  rw [hlen, hsplit, List.drop_left, List.take_left]
  exact congrArg (Prod.mk post) (List.flatMap_eq_nil_iff.mpr hfree)

/-- The ACK of a block with no NAK and no credit return, while nothing waits at egress. -/
theorem applyAck_ends (s : State) {l : Nat} {pre post : List TxBlk} {x : TxBlk} (hu : (s.link l).unacked = pre ++ x :: post)
    (hpre : ∀ y ∈ pre, y.seq ≠ x.seq) (hfree : ∀ y ∈ pre ++ [x], y.frees = []) (heg : (s.link l).egress = []) (key : Nat) :
    s.applyAck l x.seq false key 0 = s.modLink l fun k => { k with unacked := post } := by
  have hpump (u : State) (hu : (u.link l).egress = []) : u.pumpLink l = u := by rw [pumpLink, hu]; rfl
  unfold applyAck
  rw [hu, ackBlocks_ends hpre hfree]
  simp only [if_true, List.foldl_nil, Bool.false_eq_true, if_false]
  exact hpump _ (by rw [link_modLink_same]; exact heg)

theorem modLink_modLink (s : State) (l : Nat) (g h : Link → Link) : ((s.modLink l g).modLink l h).link l = h (g (s.link l)) := by
  rw [link_modLink_same, link_modLink_same]

/-- A stream that is parsed without a reserved TYPE. -/
theorem rxStream_good (s : State) {l fpo : Nat} {stream : List Byte} (hs : (s.link l).rxSkip = false)
    (hb : (parseStream (((s.link l).rxPart ++ stream).length + 1) ((s.link l).rxPart ++ stream) []).bad = false) :
    s.rxStream l fpo stream = s.modLink l fun k => { k with
      ingress := k.ingress ++ (parseStream (((s.link l).rxPart ++ stream).length + 1) ((s.link l).rxPart ++ stream) []).pkts
      rxPart := (parseStream (((s.link l).rxPart ++ stream).length + 1) ((s.link l).rxPart ++ stream) []).rest
      rxSkip := false } := by
  unfold rxStream
  simp only [hs, Bool.false_eq_true, false_and, if_false, hb]

theorem rxBlock_taken (s : State) {l : Nat} {b : List Byte} {pre post : List TxBlk} {x : TxBlk} (hf : (s.link l).flows = true)
    (hex : s.exOn 9 = false) (hlen : b.length = 256) (hcrc : crc32c (b.take 252) = BitVec.ofNat 32 (fieldAt 252 4 b))
    (hdata : fieldAt 0 2 b % 16 = 0) (hnak : bit 3 (fieldAt 2 2 b) = false) (hcr : fieldAt 6 2 b % 4096 = 0) (heg : (s.link l).egress = [])
    (hseq : fieldAt 0 2 b / 16 = (s.link l).rxNext) (hu : (s.link l).unacked = pre ++ x :: post) (hack : x.seq = fieldAt 2 2 b / 16)
    (hpre : ∀ y ∈ pre, y.seq ≠ x.seq) (hfree : ∀ y ∈ pre ++ [x], y.frees = []) :
    s.rxBlock l b = ((s.modLink l fun k => { k with unacked := post }).modLink l fun k => { k with
      rxNext := (k.rxNext + 1) % 4096, ackDue := true }).rxStream l (fieldAt 4 1 b) (slice 8 244 b) := by
  have hcrcn : ¬ (b.length ≠ 256 ∨ crc32c (b.take 252) ≠ BitVec.ofNat 32 (fieldAt 252 4 b)) := by simp [hlen, hcrc]
  unfold rxBlock
  rw [if_neg (by simp [hf]), if_neg (by simp [hex]), if_neg hcrcn]
  dsimp only
  rw [if_neg (by simp [hseq]), if_pos hdata, hnak, hcr, ← hack, applyAck_ends s hu hpre hfree heg]

theorem linkBlock_taken (s : State) (l : Fin 2) (b : List Byte) (pre post : List TxBlk) (x : TxBlk) (hf : (s.link l.val).flows = true)
    (hex : s.exOn 9 = false) (hlen : b.length = 256) (hcrc : crc32c (b.take 252) = BitVec.ofNat 32 (fieldAt 252 4 b))
    (hdata : fieldAt 0 2 b % 16 = 0) (hnak : bit 3 (fieldAt 2 2 b) = false) (hcr : fieldAt 6 2 b % 4096 = 0)
    (heg : (s.link l.val).egress = []) (hseq : fieldAt 0 2 b / 16 = (s.link l.val).rxNext) (hskip : (s.link l.val).rxSkip = false)
    (hu : (s.link l.val).unacked = pre ++ x :: post) (hack : x.seq = fieldAt 2 2 b / 16) (hpre : ∀ y ∈ pre, y.seq ≠ x.seq)
    (hfree : ∀ y ∈ pre ++ [x], y.frees = [])
    (hb : (parseStream (((s.link l.val).rxPart ++ slice 8 244 b).length + 1) ((s.link l.val).rxPart ++ slice 8 244 b) []).bad = false) :
    ∃ t, exec (.linkBlockReceive l b) s = .next t
      ∧ t.link l.val = { s.link l.val with
          unacked := post, rxNext := ((s.link l.val).rxNext + 1) % 4096, ackDue := true
          ingress := (s.link l.val).ingress
            ++ (parseStream (((s.link l.val).rxPart ++ slice 8 244 b).length + 1) ((s.link l.val).rxPart ++ slice 8 244 b) []).pkts
          rxPart := (parseStream (((s.link l.val).rxPart ++ slice 8 244 b).length + 1) ((s.link l.val).rxPart ++ slice 8 244 b) []).rest }
      ∧ s.sameLinksBut t l.val ∧ t = { s.start with links := t.links } := by
  have hexec : exec (.linkBlockReceive l b) s = .next (s.start.rxBlock l.val b) := rfl
  have hblock := s.start.rxBlock_taken (l := l.val) hf hex hlen hcrc hdata hnak hcr heg hseq hu hack hpre hfree
  have hl := s.start.modLink_modLink l.val (fun k => { k with unacked := post }) fun k => { k with
    rxNext := (k.rxNext + 1) % 4096, ackDue := true }
  have hpart : ((((s.start.modLink l.val fun k => { k with unacked := post }).modLink l.val fun k => { k with
      rxNext := (k.rxNext + 1) % 4096, ackDue := true }).link l.val).rxPart) = (s.link l.val).rxPart := by rw [hl]; rfl
  rw [rxStream_good _ (by rw [hl]; exact hskip) (by rw [hpart]; exact hb), hpart] at hblock
  refine ⟨_, hexec, ?_, ?_, ?_⟩
  · rw [hblock, link_modLink_same, hl]
    rw [← hskip]
    rfl
  · rw [hblock]
    exact ((sameLinksBut_modLink s.start _ _).trans (sameLinksBut_modLink _ _ _)).trans (sameLinksBut_modLink _ _ _)
  · rw [hblock]
    rfl

theorem linkBlock_discarded (s : State) (l : Fin 2) (b : List Byte) (hf : (s.link l.val).flows = true) (hex : s.exOn 9 = false)
    (h : (b.length ≠ 256 ∨ crc32c (b.take 252) ≠ BitVec.ofNat 32 (fieldAt 252 4 b))
      ∨ b.length = 256 ∧ crc32c (b.take 252) = BitVec.ofNat 32 (fieldAt 252 4 b) ∧ fieldAt 0 2 b % 16 = 0 ∧ fieldAt 0 2 b / 16 ≠ (s.link l.val).rxNext) :
    ∃ t, exec (.linkBlockReceive l b) s = .next t ∧ t.link l.val = { s.link l.val with nak := true } ∧ s.sameLinksBut t l.val
      ∧ t = { s.start with links := t.links } := by
  have hexec : exec (.linkBlockReceive l b) s = .next (s.start.rxBlock l.val b) := rfl
  have hblock : s.start.rxBlock l.val b = s.start.modLink l.val fun k => { k with nak := true } := by
    have hfs : (s.start.link l.val).flows = true := hf
    have hes : s.start.exOn 9 = false := hex
    unfold rxBlock
    rw [if_neg (by rw [hfs]; decide), if_neg (by rw [hes]; decide)]
    rcases h with h | ⟨hlen, hcrc, hdata, hseq⟩
    · rw [if_pos h]
    · rw [if_neg (by simp [hlen, hcrc])]
      exact if_pos ⟨hdata, hseq⟩
  obtain ⟨hlink, hothers, heq⟩ := s.nakLink_frame l.val
  exact ⟨_, hexec.trans (congrArg _ hblock), hlink, hothers, heq⟩

end State

/-- Settles O27: the three ways of a received block, and a replay with the retraining that the fourth resend brings. -/
theorem linkBlocksAndReplay : Obligations.LinkBlocksAndReplay :=
  ⟨fun s l b hf hex => ⟨fun h => s.linkBlock_discarded l b hf hex (.inl h),
      fun hlen hcrc hdata hseq => s.linkBlock_discarded l b hf hex (.inr ⟨hlen, hcrc, hdata, hseq⟩),
      fun pre post x hlen hcrc hdata hnak hcr heg hseq hskip hu hack hpre hfree hb =>
        s.linkBlock_taken l b pre post x hf hex hlen hcrc hdata hnak hcr heg hseq hskip hu hack hpre hfree hb⟩,
    fun s l hm hf hu h21 h22 => s.replayTimeout_replays l hm hf hu h21 h22, fun s l h => s.replayTimeout_nothing l h⟩

end Sys2Proof.Machine
end

section
/-! PROOFS. What a listed entry becomes when it is changed, and the accessors after a change of one entry. -/

namespace Sys2Proof.Machine

variable {α : Type}

@[simp] theorem find_upd_same (k : Nat) (g : α → α) (m : FMap α) : FMap.find k (FMap.upd k g m) = (FMap.find k m).map g := by
  induction m with
  | nil => rfl
  | cons p m ih =>
    obtain ⟨j, v⟩ := p
    by_cases h : j = k <;> simp [FMap.upd, FMap.find, h, ih]

theorem find_upd_ne {k j : Nat} (h : j ≠ k) (g : α → α) (m : FMap α) : FMap.find j (FMap.upd k g m) = FMap.find j m := by
  induction m with
  | nil => rfl
  | cons p m ih =>
    obtain ⟨i, v⟩ := p
    by_cases hi : i = k <;> simp [FMap.upd, FMap.find, hi, ih, Ne.symm h]

theorem get_upd_ne {k j : Nat} (h : j ≠ k) (d : α) (g : α → α) (m : FMap α) : FMap.get d j (FMap.upd k g m) = FMap.get d j m := by
  rw [FMap.get, find_upd_ne h, FMap.get]

theorem get_put_same (d : α) (k : Nat) (v : α) (m : FMap α) : FMap.get d k (FMap.put k v m) = v := by simp [FMap.get]

theorem get_put_ne {k j : Nat} (h : j ≠ k) (d v : α) (m : FMap α) : FMap.get d j (FMap.put k v m) = FMap.get d j m := by
  rw [FMap.get, FMap.find_put_ne h, FMap.get]

theorem get_del_same (d : α) (k : Nat) (m : FMap α) : FMap.get d k (FMap.del k m) = d := by simp [FMap.get]

theorem get_del_ne {k j : Nat} (h : j ≠ k) (d : α) (m : FMap α) : FMap.get d j (FMap.del k m) = FMap.get d j m := by
  rw [FMap.get, FMap.find_del_ne h, FMap.get]

namespace State

@[simp] theorem ctx?_modCtx_same (s : State) (k : Nat) (g : Ctx → Ctx) : (s.modCtx k g).ctx? k = (s.ctx? k).map g := find_upd_same ..
theorem ctx?_modCtx_ne (s : State) {k j : Nat} (h : j ≠ k) (g : Ctx → Ctx) : (s.modCtx k g).ctx? j = s.ctx? j := find_upd_ne h ..
@[simp] theorem ctx?_freeCtx_same (s : State) (k : Nat) : (s.freeCtx k).ctx? k = none := FMap.find_del_same ..
theorem ctx?_freeCtx_ne (s : State) {k j : Nat} (h : j ≠ k) : (s.freeCtx k).ctx? j = s.ctx? j := FMap.find_del_ne h ..
theorem ctx?_congr {s t : State} (h : t.ctxs = s.ctxs) (k : Nat) : t.ctx? k = s.ctx? k := by rw [ctx?, h, ctx?]

@[simp] theorem op?_modOp_same (s : State) (je : Nat) (g : Op → Op) : (s.modOp je g).op? je = (s.op? je).map g := find_upd_same ..
theorem op?_modOp_ne (s : State) {je j : Nat} (h : j ≠ je) (g : Op → Op) : (s.modOp je g).op? j = s.op? j := find_upd_ne h ..
theorem op?_congr {s t : State} (h : t.ops = s.ops) (je : Nat) : t.op? je = s.op? je := by rw [op?, h, op?]

theorem entry_congr {s t : State} (h : t.jnl.entries = s.jnl.entries) (je : Nat) : t.entry je = s.entry je := by rw [entry, h, entry]
@[simp] theorem entry_modEntry_same (s : State) (je : Nat) (g : JEntry → JEntry) :
    (s.modEntry je g).entry je = (g (s.entry je)).stamp (s.entry je) s.ts :=
  FMap.get_mod_same ({} : JEntry) je (fun e => (g e).stamp e s.ts) s.jnl.entries
theorem entry_modEntry_ne (s : State) {je j : Nat} (h : j ≠ je) (g : JEntry → JEntry) : (s.modEntry je g).entry j = s.entry j :=
  FMap.get_mod_ne h ({} : JEntry) (fun e => (g e).stamp e s.ts) s.jnl.entries
theorem entry_setSt_ne (s : State) {je j : Nat} (h : j ≠ je) (st : JSt) : (s.setSt je st).entry j = s.entry j := get_upd_ne h ..

@[simp] theorem inst_modInst_same (s : State) (i : Nat) (g : Inst → Inst) : (s.modInst i g).inst i = g (s.inst i) := FMap.get_mod_same ..
theorem inst_modInst_ne (s : State) {i j : Nat} (h : j ≠ i) (g : Inst → Inst) : (s.modInst i g).inst j = s.inst j := FMap.get_mod_ne h ..
theorem inst_congr {s t : State} (h : t.insts = s.insts) (i : Nat) : t.inst i = s.inst i := by rw [inst, h, inst]

@[simp] theorem port_modPort_same (s : State) (p : Nat) (g : Port → Port) : (s.modPort p g).port p = g (s.port p) := FMap.get_mod_same ..
theorem port_modPort_ne (s : State) {p q : Nat} (h : q ≠ p) (g : Port → Port) : (s.modPort p g).port q = s.port q := FMap.get_mod_ne h ..
theorem port_congr {s t : State} (h : t.ports = s.ports) (p : Nat) : t.port p = s.port p := by rw [port, h, port]

@[simp] theorem daddr_modDaddr_same (s : State) (p d : Nat) (g : Daddr → Daddr) : (s.modDaddr p d g).daddr p d = g (s.daddr p d) :=
  FMap.get_mod_same ..
theorem sameDaddrsBut_modDaddr (s : State) (p d : Nat) (g : Daddr → Daddr) : s.sameDaddrsBut (s.modDaddr p d g) p d :=
  fun _ h => FMap.get_mod_ne h ..
theorem daddr_congr {s t : State} (h : t.daddrs = s.daddrs) (p d : Nat) : t.daddr p d = s.daddr p d := by rw [daddr, h, daddr]

@[simp] theorem dn_modDn_same (s : State) (n : Nat) (g : Dn → Dn) : (s.modDn n g).dn n = g (s.dn n) := FMap.get_mod_same ..
theorem dn_modDn_ne (s : State) {n m : Nat} (h : m ≠ n) (g : Dn → Dn) : (s.modDn n g).dn m = s.dn m := FMap.get_mod_ne h ..
theorem dn_congr {s t : State} (h : t.dns = s.dns) (n : Nat) : t.dn n = s.dn n := by rw [dn, h, dn]

@[simp] theorem pel_modPel_same (s : State) (i : Nat) (g : Pel → Pel) : (s.modPel i g).pel i = g (s.pel i) := FMap.get_mod_same ..
theorem pel_modPel_ne (s : State) {i j : Nat} (h : j ≠ i) (g : Pel → Pel) : (s.modPel i g).pel j = s.pel j := FMap.get_mod_ne h ..
theorem pel_congr {s t : State} (h : t.pels = s.pels) (i : Nat) : t.pel i = s.pel i := by rw [pel, h, pel]

@[simp] theorem slot_modSlot_same (s : State) (k : Nat) (g : KeySlot → KeySlot) : (s.modSlot k g).slot k = g (s.slot k) :=
  FMap.get_mod_same ..
theorem sameSlotsBut_modSlot (s : State) (k : Nat) (g : KeySlot → KeySlot) : s.sameSlotsBut (s.modSlot k g) k :=
  fun _ h => FMap.get_mod_ne h ..

@[simp] theorem qp_modQp_same (s : State) (k : Nat) (g : Qp → Qp) : (s.modQp k g).qp k = g (s.qp k) := FMap.get_mod_same ..
theorem sameQpsBut_modQp (s : State) (k : Nat) (g : Qp → Qp) : s.sameQpsBut (s.modQp k g) k := fun _ h => FMap.get_mod_ne h ..
theorem qp_congr {s t : State} (h : t.qps = s.qps) (k : Nat) : t.qp k = s.qp k := by rw [qp, h, qp]

@[simp] theorem eng_modEng_same (s : State) (e : Nat) (g : Eng → Eng) : (s.modEng e g).eng e = g (s.eng e) := FMap.get_mod_same ..
theorem eng_modEng_ne (s : State) {e j : Nat} (h : j ≠ e) (g : Eng → Eng) : (s.modEng e g).eng j = s.eng j := FMap.get_mod_ne h ..
theorem eng_congr {s t : State} (h : t.engs = s.engs) (e : Nat) : t.eng e = s.eng e := by rw [eng, h, eng]

end State

end Sys2Proof.Machine
end

section
/-! PROOFS. Completions of the bridge's requests and their timeout (R56, R57). -/

namespace Sys2Proof.Machine

namespace State

/-! ### A counter that steps with its fault -/

/-- What a counter that steps with a corrected source, of which nothing is sent, has done. -/
structure CountedWith (s t : State) (x : Fld) (i src : Nat) (b : Block) : Prop where
  count : t.f x i = sat x (s.f x i + 1)
  counted : s.counted t src
  off : t.offFault = s.offFault
  links : t.links = s.links
  outp : t.outp = s.outp
  only : s.onlyBlocks t [b, .flt]

theorem incF_raise_counts (s : State) {x : Fld} {i src : Nat} {b : Block} (hb : blockAt (regOff x.id i) = some b) (hne : b ≠ .flt) (hfits : x.fits)
    (hm : s.mode ≠ .reset) (hc : srcClass src = 1) (hmute : s.mute src = true) (hn : s.flt.haltNow = false) (unit : Nat) :
    s.CountedWith ((s.incF x i).raise src unit) x i src b := by
  have hraised := (s.incF x i).raise_silent (src := src) (by rwa [incF_mode])
    (.inl ⟨hc, by rw [mute, incF_flt, ← mute]; exact hmute⟩) (by rw [incF_flt, hn]) unit none none 0
  have hflt : regOff Fld.fltCntCe_count.id 0 ≠ regOff x.id i := by
    intro h
    rw [← h] at hb
    exact hne (Option.some.inj hb).symm
  obtain ⟨hsrc, hce⟩ := hraised.counted
  refine ⟨?_, ⟨by rw [hsrc, incF_flt], fun h => (hce h).trans (by rw [f_incF_ne _ hflt])⟩, hraised.off.trans (offFault_incF ..),
    hraised.links.trans (incF_links ..), hraised.outp.trans (incF_outp ..), ?_⟩
  · rw [hraised.only.f_eq (x := x) hb (by simpa using hne), f_incF_same _ hfits]
    rfl
  · exact (onlyBlocks_incF s hb (by simp) 1).trans (hraised.only.mono (by simp))

theorem blockAt_tlkRxErr {l : Nat} (h : l < 2) : blockAt (regOff .tlkRxErr l) = some .tlk := by
  have hall : ∀ l < 2, blockAt (regOff .tlkRxErr l) = some .tlk := by decide
  exact hall l h

theorem rxBad_counts (s : State) {l : Nat} (hl : l < 2) (hm : s.mode ≠ .reset) (hmute : s.mute 0x020 = true) (hn : s.flt.haltNow = false)
    {x : Fld} (hid : x.id = .tlkRxErr) (hfits : x.fits) : s.CountedWith (s.rxBad l x) x l 0x020 .tlk :=
  incF_raise_counts s (by rw [hid]; exact blockAt_tlkRxErr hl) (by decide) hfits hm (by decide) hmute hn l

/-! ### The context that asked -/

theorem asked_iff (s : State) (r : OutReq) (k : Nat) (c : Ctx) : s.asked r k c = true ↔
    s.ctx? k = some c ∧ (r.purpose = .ccd k ∨ ∃ je, r.purpose = .data k je ∧ c.je = some je ∧ c.st = .run ∧ (s.op? je).isSome = true) := by
  unfold asked
  cases hp : r.purpose <;> simp [and_assoc]

theorem asked_congr {s t : State} (hc : t.ctxs = s.ctxs) (ho : t.ops = s.ops) (r : OutReq) (k : Nat) (c : Ctx) :
    t.asked r k c = s.asked r k c := by
  unfold asked
  simp only [ctx?_congr hc, op?_congr ho]

/-- The context gets its answer, after the data's transfer through the Hub. -/
theorem deliverCpl_asked (s : State) {r : OutReq} {k : Nat} {c : Ctx} (h : s.asked r k c = true) (l st : Nat) (bs : List Byte) :
    ∃ own, s.deliverCpl l r.purpose st bs = (s.fetchCross l k own bs).modCtx k fun c => { c with got := some (st, bs) } := by
  obtain ⟨hctx, hp | ⟨je, hp, hje, hst, hop⟩⟩ := (asked_iff s r k c).mp h
  · exact ⟨.ctx k, by rw [hp]; rfl⟩
  · refine ⟨.op je, ?_⟩
    have hruns : (match s.ctx? k with | some c => c.je == some je && c.st == .run | none => false) = true := by simp [hctx, hje, hst]
    rw [hp]
    change (if (match s.ctx? k with | some c => c.je == some je && c.st == .run | none => false) && (s.op? je).isSome then _ else _) = _
    rw [hruns, hop]
    rfl

theorem fetchCross_nil (s : State) (l k : Nat) (own : XOwn) : s.fetchCross l k own [] = s := by
  unfold fetchCross
  cases s.ctx? k <;> rfl

/-- The crossing of a context's data forms at most one transfer, behind those there were. -/
theorem fetchCross_hub (s : State) (l k : Nat) (own : XOwn) (bs : List Byte) :
    s.sameHubBut (s.fetchCross l k own bs) ∧ s.fetchCross l k own bs = { s with hub := (s.fetchCross l k own bs).hub } := by
  unfold fetchCross
  cases s.ctx? k with
  | none => exact ⟨⟨rfl, List.prefix_rfl⟩, rfl⟩
  | some c =>
    dsimp only
    split
    · exact ⟨⟨rfl, List.prefix_rfl⟩, rfl⟩
    · exact ⟨⟨rfl, List.prefix_append ..⟩, rfl⟩

/-- The bridge's request of a context ends: its tag is free, and the context has its answer. -/
theorem endReq_asked (s : State) {r : OutReq} {k : Nat} {c : Ctx} (h : s.asked r k c = true) (l st : Nat) (bs : List Byte) :
    (s.endReq l r st bs).ctx? k = some { c with got := some (st, bs) }
    ∧ (s.endReq l r st bs).link l = { s.link l with outst := (s.link l).outst.filter fun x => x.tag != r.tag }
    ∧ s.sameLinksBut (s.endReq l r st bs) l ∧ (∀ j, j ≠ k → (s.endReq l r st bs).ctx? j = s.ctx? j) ∧ s.sameHubBut (s.endReq l r st bs)
    ∧ s.endReq l r st bs
      = { s with links := (s.endReq l r st bs).links, ctxs := (s.endReq l r st bs).ctxs, hub := (s.endReq l r st bs).hub }
    ∧ (bs = [] → (s.endReq l r st bs).hub = s.hub) := by
  have hmod : ∀ g, (s.modLink l g).asked r k c = true := fun g => by rwa [asked_congr (modLink_ctxs ..) (modLink_ops ..)]
  have hctx := ((asked_iff s r k c).mp h).1
  unfold endReq
  dsimp only
  obtain ⟨own, heq⟩ := deliverCpl_asked _ (hmod fun k => { k with outst := k.outst.filter fun x => x.tag != r.tag }) l st bs
  have hlink := s.link_modLink_same l fun k => { k with outst := k.outst.filter fun x => x.tag != r.tag }
  have hothers := sameLinksBut_modLink s l fun k => { k with outst := k.outst.filter fun x => x.tag != r.tag }
  have hwith : (s.modLink l fun k => { k with outst := k.outst.filter fun x => x.tag != r.tag })
      = { s with links := (s.modLink l fun k => { k with outst := k.outst.filter fun x => x.tag != r.tag }).links } := rfl
  have hctxs : (s.modLink l fun k => { k with outst := k.outst.filter fun x => x.tag != r.tag }).ctxs = s.ctxs := rfl
  have hub : (s.modLink l fun k => { k with outst := k.outst.filter fun x => x.tag != r.tag }).hub = s.hub := rfl
  rw [heq]
  clear heq
  generalize (s.modLink l fun k => { k with outst := k.outst.filter fun x => x.tag != r.tag }) = m at hlink hothers hwith hctxs hub ⊢
  obtain ⟨⟨hhub, hpre⟩, hfc⟩ := m.fetchCross_hub l k own bs
  have hfcl : (m.fetchCross l k own bs).links = m.links := by rw [hfc]
  have hfcc : (m.fetchCross l k own bs).ctxs = m.ctxs := by rw [hfc]
  refine ⟨?_, ?_, ?_, fun j hj => ?_, ?_, ?_, fun hbs => ?_⟩
  · rw [ctx?_modCtx_same, ctx?_congr (hfcc.trans hctxs), hctx]
    rfl
  · rw [link_congr ((modCtx_links ..).trans hfcl), hlink]
  · exact hothers.trans (sameLinksBut_of_links ((modCtx_links ..).trans hfcl) l)
  · rw [ctx?_modCtx_ne _ hj, ctx?_congr (hfcc.trans hctxs)]
  · rw [sameHubBut, modCtx_hub, ← hub]
    exact ⟨hhub, hpre⟩
  · rw [hfc, hwith]
    rfl
  · subst hbs
    rw [modCtx_hub, fetchCross_nil, hub]

/-! ### CPL and CPLD -/

theorem takeIn_link (s : State) (l : Nat) (p : Packet) : (s.takeIn l p).link l = { s.link l with ingress := (s.link l).ingress.erase p } :=
  link_modLink_same ..

theorem outReq_takeIn (s : State) (l : Nat) (p : Packet) (h : CplHdr) : (s.takeIn l p).outReq l h = s.outReq l h := by
  rw [outReq, takeIn_link, outReq]

theorem asked_takeIn {s : State} {r : OutReq} {k : Nat} {c : Ctx} (h : s.asked r k c = true) (l : Nat) (p : Packet) :
    (s.start.takeIn l p).asked r k c = true := h

theorem exec_cpl (s : State) (l : Fin 2) (h : CplHdr) (bytes : List Byte) (hm : s.mode ≠ .reset) (hf : (s.link l.val).flows = true) :
    exec (.cpl l h bytes) s = .next (match s.outReq l.val h with
      | none => (s.start.takeIn l.val (.cpl h bytes)).rxBad l.val Fld.tlkRxErr_late_cpl
      | some r =>
        if 5 < h.status.toNat ∨ (h.status.toNat = 3 ∧ h.len ≠ 4) ∨ (h.status.toNat = 0 ∧ !r.wr) then
          (s.start.takeIn l.val (.cpl h bytes)).rxBad l.val Fld.tlkRxErr_malformed
        else if !s.works then s.start.takeIn l.val (.cpl h bytes)
        else (s.start.takeIn l.val (.cpl h bytes)).endReq l.val r h.status.toNat []) := by
  have hpass : ¬ (s.start.mode = .reset ∨ (!(s.start.link l.val).flows) = true) := by
    rintro (h | h)
    · exact hm h
    · rw [show (s.start.link l.val).flows = true from hf] at h
      exact Bool.noConfusion h
  change Host.Outcome.next (if s.start.mode = .reset ∨ (!(s.start.link l.val).flows) = true then s.start else
    match (s.start.takeIn l.val (.cpl h bytes)).outReq l.val h with | none => _ | some r => _) = _
  rw [if_neg hpass, outReq_takeIn]
  rw [show s.start.outReq l.val h = s.outReq l.val h from rfl]
  cases s.outReq l.val h <;> rfl

theorem exec_cpld (s : State) (l : Fin 2) (h : CplHdr) (bytes : List Byte) (hm : s.mode ≠ .reset) (hf : (s.link l.val).flows = true) :
    exec (.cpld l h bytes) s = .next (match s.outReq l.val h with
      | none => (s.start.takeIn l.val (.cpld h bytes)).rxBad l.val Fld.tlkRxErr_late_cpl
      | some r =>
        if !pieceFits r h.offset.toNat (granulesOf h.len.toNat) ∨ h.status ≠ 0 then
          (s.start.takeIn l.val (.cpld h bytes)).rxBad l.val Fld.tlkRxErr_malformed
        else if !s.works then s.start.takeIn l.val (.cpld h bytes)
        else if h.poison then (s.start.takeIn l.val (.cpld h bytes)).endReq l.val r 5 []
        else
          let r := { r with got := r.got ++ [(h.offset.toNat, slice 0 (8 * granulesOf h.len.toNat) bytes)] }
          if gotGranules r = r.granules then
            (s.start.takeIn l.val (.cpld h bytes)).endReq l.val r 0 (placeParts (8 * r.granules) (r.got.map fun p => (8 * p.1, p.2)))
          else (s.start.takeIn l.val (.cpld h bytes)).modLink l.val
            fun k => { k with outst := k.outst.map fun x => if x.tag = r.tag then r else x }) := by
  have hpass : ¬ (s.start.mode = .reset ∨ (!(s.start.link l.val).flows) = true) := by
    rintro (h | h)
    · exact hm h
    · rw [show (s.start.link l.val).flows = true from hf] at h
      exact Bool.noConfusion h
  change Host.Outcome.next (if s.start.mode = .reset ∨ (!(s.start.link l.val).flows) = true then s.start else
    match (s.start.takeIn l.val (.cpld h bytes)).outReq l.val h with | none => _ | some r => _) = _
  rw [if_neg hpass, outReq_takeIn]
  rw [show s.start.outReq l.val h = s.outReq l.val h from rfl]
  cases s.outReq l.val h <;> rfl

/-- A completion that answers no request (R56). -/
theorem lateCpl (s : State) {l : Nat} (hl : l < 2) (hm : s.mode ≠ .reset) (hmute : s.mute 0x020 = true) (p : Packet) :
    ((s.start.takeIn l p).rxBad l Fld.tlkRxErr_late_cpl).f Fld.tlkRxErr_late_cpl l
      = sat Fld.tlkRxErr_late_cpl (s.f Fld.tlkRxErr_late_cpl l + 1)
    ∧ s.counted ((s.start.takeIn l p).rxBad l Fld.tlkRxErr_late_cpl) 0x020
    ∧ ((s.start.takeIn l p).rxBad l Fld.tlkRxErr_late_cpl).outp = [] ∧ s.linkFrame ((s.start.takeIn l p).rxBad l Fld.tlkRxErr_late_cpl) := by
  obtain ⟨hcount, hcounted, hoff, -, hout, honly⟩ :=
    (s.start.takeIn l p).rxBad_counts hl hm hmute rfl (x := Fld.tlkRxErr_late_cpl) rfl (by decide)
  exact ⟨hcount, hcounted, hout, linkFrame_of honly hoff⟩

theorem exec_cpl_stopped (s : State) (l : Fin 2) (h : CplHdr) (bytes : List Byte) (hf : (s.link l.val).flows = false) :
    exec (.cpl l h bytes) s = .next s.start ∧ exec (.cpld l h bytes) s = .next s.start := by
  have hstop : s.start.mode = .reset ∨ (!(s.start.link l.val).flows) = true := by
    right
    rw [show (s.start.link l.val).flows = false from hf]
    rfl
  exact ⟨congrArg Host.Outcome.next (if_pos hstop), congrArg Host.Outcome.next (if_pos hstop)⟩

/-- A request that ends, taken from the receive buffer: the two changes of its link in one. -/
theorem endReq_takeIn (s : State) {r : OutReq} {k : Nat} {c : Ctx} (h : s.asked r k c = true) (l st : Nat) (bs : List Byte) (p : Packet) :
    ((s.start.takeIn l p).endReq l r st bs).ctx? k = some { c with got := some (st, bs) }
    ∧ ((s.start.takeIn l p).endReq l r st bs).link l
      = { s.link l with ingress := (s.link l).ingress.erase p, outst := (s.link l).outst.filter fun x => x.tag != r.tag }
    ∧ s.sameLinksBut ((s.start.takeIn l p).endReq l r st bs) l
    ∧ (∀ j, j ≠ k → ((s.start.takeIn l p).endReq l r st bs).ctx? j = s.ctx? j) ∧ s.sameHubBut ((s.start.takeIn l p).endReq l r st bs)
    ∧ (s.start.takeIn l p).endReq l r st bs
      = { s.start with
          links := ((s.start.takeIn l p).endReq l r st bs).links, ctxs := ((s.start.takeIn l p).endReq l r st bs).ctxs
          hub := ((s.start.takeIn l p).endReq l r st bs).hub }
    ∧ (bs = [] → ((s.start.takeIn l p).endReq l r st bs).hub = s.hub) := by
  obtain ⟨hctx, hlink, hothers, hctxs, hhub, heq, hnil⟩ := endReq_asked _ (asked_takeIn h l p) l st bs
  refine ⟨hctx, ?_, (sameLinksBut_modLink s.start l _).trans hothers, hctxs, hhub, ?_, hnil⟩
  · rw [hlink, takeIn_link]
    rfl
  · exact heq

/-! ### The timeout -/

theorem timeout_ends (s : State) (l : Fin 2) (tag : BitVec 16) (r : OutReq) (k : Nat) (c : Ctx) (hw : s.works = true)
    (hst : (s.link l.val).st ≠ .retrain) (hr : (s.link l.val).outst.find? (fun r => r.tag == tag.toNat) = some r) (ha : s.asked r k c = true)
    (hq : s.muteUc) :
    ∃ t, exec (.cplTimeout l tag) s = .next t ∧ t.ctx? k = some { c with got := some (4, []) }
      ∧ t.link l.val = { s.link l.val with outst := (s.link l.val).outst.filter (fun x => x.tag != r.tag), quar := (s.link l.val).quar ++ [r.tag] }
      ∧ s.sameLinksBut t l.val ∧ (∀ j, j ≠ k → t.ctx? j = s.ctx? j) ∧ s.counted t 0x025
      ∧ t.f Fld.fltCntUc_count = sat Fld.fltCntUc_count (s.f Fld.fltCntUc_count + 1) ∧ s.onlyBlocks t [.flt]
      ∧ t = { s.start with links := t.links, ctxs := t.ctxs, regs := t.regs, flt := t.flt } := by
  have hm : s.mode ≠ .reset := fun h => by simp [works, h] at hw
  have ha' : (s.start.modLink l.val fun k => { k with quar := k.quar ++ [r.tag] }).asked r k c = true := ha
  obtain ⟨hctx, hlink, hothers, hctxs, -, heq, hnil⟩ := endReq_asked _ ha' l.val 4 []
  have hlink0 := s.start.link_modLink_same l.val fun k => { k with quar := k.quar ++ [r.tag] }
  have hoth0 := sameLinksBut_modLink s.start l.val fun k => { k with quar := k.quar ++ [r.tag] }
  have hexec : exec (.cplTimeout l tag) s = .next (((s.start.modLink l.val fun k => { k with quar := k.quar ++ [r.tag] }).endReq l.val r 4 []).raise
      0x025 l.val (if r.purpose = .mgt ∨ r.purpose = .mgtRange then none
        else (s.start.insts.find? fun x => x.2.st != .free && x.2.reqId == r.destId).map (·.1)) r.purpose.je) := by
    have hgo : ¬ ((!s.start.works) = true ∨ (s.start.link l.val).st = .retrain) := by
      rw [show s.start.works = true from hw]
      exact fun h => h.elim (fun h => Bool.noConfusion h) hst
    change Host.Outcome.next (if (!s.start.works) = true ∨ (s.start.link l.val).st = .retrain then s.start else
      match (s.start.link l.val).outst.find? (fun r => r.tag == tag.toNat) with | none => s.start | some r => _) = _
    rw [if_neg hgo, show (s.start.link l.val).outst.find? (fun r => r.tag == tag.toNat) = some r from hr]
  rw [hexec]
  refine ⟨_, rfl, ?_⟩
  generalize (if r.purpose = .mgt ∨ r.purpose = .mgtRange then none
    else (s.start.insts.find? fun x => x.2.st != .free && x.2.reqId == r.destId).map (·.1)) = i
  generalize (s.start.modLink l.val fun k => { k with quar := k.quar ++ [r.tag] }).endReq l.val r 4 [] = e at *
  have heq' : e = { s.start with links := e.links, ctxs := e.ctxs } := by
    refine heq.trans ?_
    rw [hnil rfl]
    rfl
  have hregs : e.regs = s.regs := by rw [heq']; rfl
  have hflt : e.flt = s.start.flt := by rw [heq']
  have hmode : e.mode = s.mode := by rw [heq']; rfl
  have hout : e.outp = [] := by rw [heq']; rfl
  have hquiet : e.muteUc :=
    muteUc_of_onlyBlocks hq (f_congr hregs _ _) fun k => reg_congr hregs _ _
  have hraised := e.raise_silent (src := 0x025) (by rwa [hmode]) (.inr ⟨by decide, hquiet⟩) (by rw [hflt]; rfl) l.val i r.purpose.je 0
  have huc := e.f_raise_classCnt (src := 0x025) l.val i r.purpose.je 0 (by rwa [hmode]) (by decide) (k := 2) (by decide)
  have hcs : (e.raise 0x025 l.val i r.purpose.je).ctxs = e.ctxs :=
    (congrArg State.ctxs hraised.off : (e.raise 0x025 l.val i r.purpose.je).offFault.ctxs = e.offFault.ctxs)
  obtain ⟨hsrc, hce⟩ := hraised.counted
  refine ⟨?_, ?_, ?_, fun j hj => ?_, ⟨?_, fun h => absurd h (by decide)⟩, ?_, ?_, ?_⟩
  · rw [ctx?_congr hcs, hctx]
  · rw [hraised.link, hlink, hlink0]
    rfl
  · exact (hoth0.trans hothers).trans (sameLinksBut_of_links hraised.links _)
  · rw [ctx?_congr hcs, hctxs j hj]
    rfl
  · rw [hsrc, hflt]
    rfl
  · rw [f_congr hregs] at huc
    exact huc
  · exact (onlyBlocks_of_regs hregs _).trans hraised.only
  · have hr := eq_of_offFault hraised.off
    rw [hraised.outp, hout] at hr
    have ho := congrArg (fun u : State => ({ u with
        regs := (e.raise 0x025 l.val i r.purpose.je).regs, links := (e.raise 0x025 l.val i r.purpose.je).links, outp := []
        flt := (e.raise 0x025 l.val i r.purpose.je).flt } : State)) heq'
    have hf := congrArg State.flt hr
    rw [hcs]
    refine Eq.trans ?_ ho
    rw [← hraised.links] at *
    conv_lhs => rw [hr]
    rw [hf]

theorem exec_cplTimeout_retrain (s : State) (l : Fin 2) (tag : BitVec 16) (h : (s.link l.val).st = .retrain) :
    exec (.cplTimeout l tag) s = .next s.start :=
  congrArg Host.Outcome.next (if_pos (.inr h))

end State

theorem slice_length (o n : Nat) (bs : List Byte) : (slice o n bs).length = n := by
  simp only [slice, List.length_append, List.length_replicate, List.length_take]
  omega

theorem gotGranules_snoc (r : OutReq) (off n : Nat) (bs : List Byte) :
    gotGranules { r with got := r.got ++ [(off, slice 0 (8 * n) bs)] } = gotGranules r + n := by
  simp [gotGranules, slice_length]

/-- Settles O32, by what each command comes to once its guards are known, and what the end of a context's request does. -/
theorem completionsAndTimeouts : Obligations.CompletionsAndTimeouts := by
  unfold Obligations.CompletionsAndTimeouts
  refine ⟨⟨fun s l h bytes hm hf => ⟨fun hnone hmute => ?_, fun r k c hw hr ha => ?_⟩, fun s l h bytes hf => s.exec_cpl_stopped l h bytes hf⟩,
    fun s l tag r k c hw hst hr ha hdest hinst => s.timeout_ends l tag r k c hw hst hr ha ⟨hdest, hinst⟩,
    fun s l tag h => s.exec_cplTimeout_retrain l tag h,
    fun s l tag => ⟨_, rfl, State.link_modLink_same .., State.sameLinksBut_modLink s.start l.val _, rfl⟩⟩
  · constructor
    · refine ⟨_, s.exec_cpl l h bytes hm hf, ?_⟩
      rw [hnone]
      exact s.lateCpl l.isLt hm hmute _
    · refine ⟨_, s.exec_cpld l h bytes hm hf, ?_⟩
      rw [hnone]
      exact s.lateCpl l.isLt hm hmute _
  · have hnw : ¬ (!s.works) = true := by simp [hw]
    refine ⟨fun st hst hh => ?_, fun hfit hst => ?_⟩
    · obtain ⟨hctx, hlink, hothers, hctxs, -, heq, hnil⟩ := s.endReq_takeIn ha l.val st [] (.cpl h bytes)
      refine ⟨_, s.exec_cpl l h bytes hm hf, ?_⟩
      have hgood : ¬ (5 < st ∨ (st = 3 ∧ h.len ≠ 4) ∨ (st = 0 ∧ (!r.wr) = true)) := by
        fin_cases hst <;> simp
      rw [hr, hh]
      dsimp only
      rw [if_neg hgood, if_neg hnw]
      refine ⟨hctx, hlink, hothers, hctxs, ?_⟩
      rw [hnil rfl] at heq
      exact heq
    · have hgood : ¬ ((!pieceFits r h.offset.toNat (granulesOf h.len.toNat)) = true ∨ h.status ≠ 0) := by simp [hfit, hst]
      have hexec := s.exec_cpld l h bytes hm hf
      rw [hr] at hexec
      dsimp only at hexec
      rw [if_neg hgood, if_neg hnw] at hexec
      refine ⟨fun hp => ?_, fun hp hall => ?_, fun hp hall => ?_⟩
      · obtain ⟨hctx, -, -, -, -, heq, hnil⟩ := s.endReq_takeIn ha l.val 5 [] (.cpld h bytes)
        rw [if_pos hp] at hexec
        rw [hnil rfl] at heq
        exact ⟨_, hexec, hctx, heq⟩
      · rw [if_neg (by simp [hp])] at hexec
        obtain ⟨hctx, hlink, hothers, hctxs, hhub, heq, -⟩ := s.endReq_takeIn ha l.val 0 (placeParts (8 * r.granules)
          ((r.got ++ [(h.offset.toNat, slice 0 (8 * granulesOf h.len.toNat) bytes)]).map fun p => (8 * p.1, p.2))) (.cpld h bytes)
        have hdone : gotGranules { r with got := r.got ++ [(h.offset.toNat, slice 0 (8 * granulesOf h.len.toNat) bytes)] } = r.granules := by
          rw [gotGranules_snoc, hall]
        rw [if_pos hdone] at hexec
        exact ⟨_, hexec, hctx, hlink, hothers, hctxs, hhub, heq⟩
      · rw [if_neg (by simp [hp])] at hexec
        have hmore : gotGranules { r with got := r.got ++ [(h.offset.toNat, slice 0 (8 * granulesOf h.len.toNat) bytes)] } ≠ r.granules := by
          rwa [gotGranules_snoc]
        rw [if_neg hmore] at hexec
        refine ⟨_, hexec, ?_, (State.sameLinksBut_modLink s.start l.val _).trans (State.sameLinksBut_modLink _ l.val _), rfl⟩
        rw [State.link_modLink_same, State.takeIn_link]
        rfl

end Sys2Proof.Machine
end

section
/-! PROOFS. What an admitted operation does first: its Hub transfer is formed (R181, R192), its pieces are judged (R246), and it stands in its
queue (R203). -/

namespace Sys2Proof.Machine

namespace State

/-! ### Register writes below the gates leave what a gate decides -/

theorem filterMap_del {α β : Type} (k : Nat) (g : Nat × α → Option β) (h : ∀ v, g (k, v) = none) (m : FMap α) :
    (FMap.del k m).filterMap g = m.filterMap g := by
  induction m with
  | nil => rfl
  | cons p m ih =>
    obtain ⟨j, v⟩ := p
    by_cases hj : j = k
    · subst hj
      rw [FMap.del, if_pos rfl, ih, List.filterMap_cons, h]
    · rw [FMap.del, if_neg hj, List.filterMap_cons, List.filterMap_cons, ih]

theorem filterMap_put {α β : Type} (k : Nat) (w : α) (g : Nat × α → Option β) (h : ∀ v, g (k, v) = none) (m : FMap α) :
    (FMap.put k w m).filterMap g = m.filterMap g := by
  induction m with
  | nil => rw [FMap.put, List.filterMap_cons, h]
  | cons p m ih =>
    obtain ⟨j, v⟩ := p
    by_cases hj : j = k
    · subst hj
      rw [FMap.put, if_pos rfl, List.filterMap_cons, List.filterMap_cons, h, h]
    · rw [FMap.put, if_neg hj]
      split
      · rw [List.filterMap_cons, h]
      · rw [List.filterMap_cons, List.filterMap_cons, ih]

theorem filterMap_set {α β : Type} [DecidableEq α] (d : α) (k : Nat) (w : α) (g : Nat × α → Option β) (h : ∀ v, g (k, v) = none) (m : FMap α) :
    (FMap.set d k w m).filterMap g = m.filterMap g := by
  unfold FMap.set
  split
  · exact filterMap_del k g h m
  · exact filterMap_put k w g h m

theorem gate_le_regOff (id : RegId) (h : id.row.block = .gate) (i : Nat) : Block.gate.base ≤ regOff id i := h ▸ base_le_regOff id i

theorem enabledRegions_set {k : Nat} (hk : k < Block.gate.base) (d w : Word) (m : FMap Word) (g : Nat) :
    enabledRegions (FMap.set d k w m) g = enabledRegions m g := by
  have hget (id : RegId) (hb : id.row.block = .gate) (i : Nat) :
      FMap.get id.row.reset (regOff id i) (FMap.set d k w m) = FMap.get id.row.reset (regOff id i) m :=
    FMap.get_set_ne (by have := gate_le_regOff id hb i; omega) ..
  have hregion (r : Nat) : regionOf (fun id i => FMap.get id.row.reset (regOff id i) (FMap.set d k w m)) g r
      = regionOf (fun id i => FMap.get id.row.reset (regOff id i) m) g r := by
    unfold regionOf
    simp only [hget .gateRgnCtl rfl, hget .gateRgnBaseLo rfl, hget .gateRgnBaseHi rfl, hget .gateRgnLimitLo rfl, hget .gateRgnLimitHi rfl,
      hget .gateRgnIdVal rfl, hget .gateRgnIdMask rfl]
  unfold enabledRegions
  simp only [hregion]
  exact filterMap_set d k w _ (fun v => if_neg fun h => by omega) m

/-- Every gate decides as before, and its regions are as before. -/
def sameGates (s t : State) : Prop :=
  (∀ g, t.regions g = s.regions g) ∧ ∀ g id a z rd wr, t.judge g id a z rd wr = s.judge g id a z rd wr

theorem sameGates.trans {s t u : State} (h : s.sameGates t) (h' : t.sameGates u) : s.sameGates u :=
  ⟨fun g => (h'.1 g).trans (h.1 g), fun g id a z rd wr => (h'.2 g id a z rd wr).trans (h.2 g id a z rd wr)⟩

theorem sameGates_of_regs {s t : State} (hregs : t.regs = s.regs) (hm : t.mode = s.mode) (hp : t.pwr = s.pwr) : s.sameGates t :=
  ⟨fun g => by simp [regions, rescued, hregs, hm, hp], judge_congr hregs hm hp⟩

theorem sameGates_setReg (s : State) {id : RegId} {i : Nat} (h : regOff id i < Block.gate.base) (w : Word) : s.sameGates (s.setReg id i w) := by
  have hregions (g : Nat) : (s.setReg id i w).regions g = s.regions g := by
    unfold regions
    rw [show (s.setReg id i w).rescued = s.rescued from rfl, show (s.setReg id i w).regs = FMap.set id.row.reset (regOff id i) w s.regs from rfl,
      enabledRegions_set h]
  have hf (x : Fld) (hb : x.id.row.block = .gate) (j : Nat) : (s.setReg id i w).f x j = s.f x j := by
    rw [f, f, reg_setReg_ne _ (by have := gate_le_regOff x.id hb j; omega)]
  refine ⟨hregions, fun g idn a z rd wr => ?_⟩
  have hpart (p : Nat) : (s.setReg id i w).judgePart g idn p rd wr = s.judgePart g idn p rd wr := by
    simp only [judgePart, hregions, defmapGrants, fb, hf Fld.gateDefmap_map rfl, hf Fld.gateDbgUnlock_unlock rfl]
    rfl
  have hparts (k : Nat) : ∀ x, (s.setReg id i w).judgeParts g idn rd wr z k x = s.judgeParts g idn rd wr z k x := by
    induction k with
    | zero => exact fun _ => rfl
    | succ k ih => exact fun x => by simp only [judgeParts, hpart, hregions, ih]
  simp only [judge, hregions, hparts]

theorem sameGates_incF (s : State) {x : Fld} {i : Nat} (h : regOff x.id i < Block.gate.base) (n : Nat) : s.sameGates (s.incF x i n) :=
  sameGates_setReg s h _

theorem sameGates_maxF (s : State) {x : Fld} {i : Nat} (h : regOff x.id i < Block.gate.base) (v : Nat) : s.sameGates (s.maxF x v i) :=
  sameGates_setReg s h _

/-! ### What starting an operation leaves alone -/

/-- The state but for what admitting and starting an operation changes. -/
def offStart (s : State) : State :=
  { s with links := [], jnl := {}, ops := [], regs := [], hub := {}, insts := [], ports := [], freeCount := 0, freeNext := 0 }

theorem eq_of_offStart {s t : State} (h : t.offStart = s.offStart) : t = { s with
    links := t.links, jnl := t.jnl, ops := t.ops, regs := t.regs, hub := t.hub, insts := t.insts, ports := t.ports
    freeCount := t.freeCount, freeNext := t.freeNext } :=
  congrArg (fun u : State => { u with
    links := t.links, jnl := t.jnl, ops := t.ops, regs := t.regs, hub := t.hub, insts := t.insts, ports := t.ports
    freeCount := t.freeCount, freeNext := t.freeNext }) h

/-- An operation under way: what its start may have changed, and what it left. -/
structure Starts (s t : State) (je : Nat) (o u : Op) : Prop where
  off : t.offStart = s.offStart
  jnl : t.jnl = s.jnl
  links : t.links = s.links
  count : t.freeCount = s.freeCount
  only : s.onlyBlocks t [.hub]
  gates : s.sameGates t
  op : s.op? je = some o → t.op? je = some u
  others : ∀ j, j ≠ je → t.op? j = s.op? j

theorem Starts.trans {s t v : State} {je : Nat} {o u w : Op} (h : s.Starts t je o u) (h' : t.Starts v je u w) : s.Starts v je o w :=
  ⟨h'.off.trans h.off, h'.jnl.trans h.jnl, h'.links.trans h.links, h'.count.trans h.count, h.only.trans h'.only, h.gates.trans h'.gates,
    fun ho => h'.op (h.op ho), fun j hj => (h'.others j hj).trans (h.others j hj)⟩

theorem starts_modOp (s : State) (je : Nat) (o : Op) (g : Op → Op) : s.Starts (s.modOp je g) je o (g o) :=
  ⟨rfl, rfl, rfl, rfl, onlyBlocks_of_regs rfl _, sameGates_of_regs rfl rfl rfl, fun h => by rw [op?_modOp_same, h]; rfl,
    fun _ hj => op?_modOp_ne s hj g⟩

theorem starts_enqueueOp (s : State) (je : Nat) (o : Op) (k : XKind) : s.Starts (s.enqueueOp je k) je o o := by
  unfold enqueueOp
  split
  · exact ⟨rfl, rfl, rfl, rfl, onlyBlocks_of_regs rfl _, sameGates_of_regs rfl rfl rfl, id, fun _ _ => rfl⟩
  · exact ⟨rfl, rfl, rfl, rfl, onlyBlocks_of_regs rfl _, sameGates_of_regs rfl rfl rfl, id, fun _ _ => rfl⟩

theorem starts_modHub (s : State) (je : Nat) (o : Op) (g : Hub → Hub) : s.Starts (s.modHub g) je o o :=
  ⟨rfl, rfl, rfl, rfl, onlyBlocks_of_regs rfl _, sameGates_of_regs rfl rfl rfl, id, fun _ _ => rfl⟩

theorem starts_modInst (s : State) (je : Nat) (o : Op) (i : Nat) (g : Inst → Inst) : s.Starts (s.modInst i g) je o o :=
  ⟨rfl, rfl, rfl, rfl, onlyBlocks_of_regs rfl _, sameGates_of_regs rfl rfl rfl, id, fun _ _ => rfl⟩

theorem starts_incF (s : State) (je : Nat) (o : Op) {x : Fld} (hb : blockAt (regOff x.id 0) = some .hub) (hlow : regOff x.id 0 < Block.gate.base)
    (n : Nat) : s.Starts (s.incF x 0 n) je o o :=
  ⟨rfl, incF_jnl .., incF_links .., incF_freeCount .., onlyBlocks_incF s hb (by simp) n, sameGates_incF s hlow n, id, fun _ _ => rfl⟩

theorem starts_addXfer (s : State) (je : Nat) (o : Op) (inp out cls sub bytes : Nat) (own : XOwn) :
    s.Starts (s.addXfer inp out cls sub bytes own) je o o := by
  unfold addXfer
  exact starts_modHub ..

theorem starts_c0Held (s : State) (je : Nat) (o : Op) (i : Nat) : s.Starts (s.c0Held i) je o o := by
  unfold c0Held
  exact (starts_modInst s je o i _).trans (starts_incF _ je o (x := Fld.hubC0Cnt_held) (by decide) (by decide) 1)

theorem starts_formXfer (s : State) (je : Nat) (o : Op) (inp out cls inst sub bytes : Nat) (own : XOwn) (act : HeldAct) :
    s.Starts (s.formXfer inp out cls inst sub bytes own act).2 je o o := by
  unfold formXfer
  dsimp only
  split
  · exact starts_addXfer ..
  · split
    · exact ((starts_modInst s je o _ _).trans (starts_modHub _ je o _)).trans ((starts_modInst _ je o _ _).trans (starts_addXfer ..))
    · dsimp only
      exact (starts_c0Held s je o inst).trans (starts_modHub ..)

/-! ### The pieces of an operation whose gate lets them pass -/

theorem lt_of_piece {c : CutSpec} {maxb bound i : Nat} {edge : Nat → Nat} {x : Nat × Nat} (h : c.piece maxb bound edge i = some x) : i < c.n := by
  unfold CutSpec.piece at h
  split at h
  · cases h
  · next j hj =>
    unfold CutSpec.nextEn at hj
    split at hj
    · cases hj
    · omega

theorem gateCheck_ok {s : State} {g id a z : Nat} {rd wr : Bool} (h : s.judge g id a z rd wr = .ok) (inst je : Option Nat) :
    s.gateCheck g id a z rd wr inst je = (true, s) := by
  rw [gateCheck, h]

theorem judgeAll_passes (s : State) {je : Nat} {o : Op} (ho : s.op? je = some o) (hp : s.piecesPass o) (k pos : Nat) :
    judgeAll je k pos s = s := by
  induction k generalizing pos with
  | zero => rfl
  | succ k ih =>
    unfold judgeAll
    rw [ho]
    dsimp only
    cases hx : o.cut.piece o.maxb o.bound (s.pieceEdge o) pos with
    | none => rfl
    | some x =>
      obtain ⟨a, e⟩ := x
      dsimp only
      rw [gateCheck_ok (hp pos (lt_of_piece hx) (a, e) hx), if_pos rfl]
      exact ih _

/-- The first piece of an operation that has been judged and of which nothing was refused. -/
theorem starts_nextPiece (s : State) {je : Nat} {o : Op} {x : Nat × Nat} (ho : s.op? je = some o) (hs : o.stop = false) (hj : o.judged = true)
    (hb : o.bad = []) (hx : o.cut.piece o.maxb o.bound (s.pieceEdge o) o.pos = some x) (k : Nat) :
    nextPiece je (k + 1) s = s.modOp je fun o => { o with cur := some x, pos := x.2 + 1 - o.cut.base } := by
  unfold nextPiece
  simp [ho, hs, hx, hj, hb]

/-- Two operations with the same target, cut and identity. -/
structure SameTarget (o u : Op) : Prop where
  port : u.port = o.port
  daddr : u.daddr = o.daddr
  cut : u.cut = o.cut
  maxb : u.maxb = o.maxb
  bound : u.bound = o.bound
  ident : u.ident = o.ident
  wr : u.wr = o.wr

theorem pieceEdge_congr {s t : State} {o u : Op} (h : s.sameGates t) (ho : SameTarget o u) : t.pieceEdge u = s.pieceEdge o := by
  obtain ⟨hport, hdaddr, -, -, -, -, -⟩ := ho
  funext a
  simp only [pieceEdge, hport, hdaddr, h.1]

theorem piece_congr {s t : State} {o u : Op} (h : s.sameGates t) (ho : SameTarget o u) (pos : Nat) :
    u.cut.piece u.maxb u.bound (t.pieceEdge u) pos = o.cut.piece o.maxb o.bound (s.pieceEdge o) pos := by
  rw [pieceEdge_congr h ho, ho.cut, ho.maxb, ho.bound]

theorem piecesPass_congr {s t : State} {o u : Op} (h : s.sameGates t) (ho : SameTarget o u) (hp : s.piecesPass o) : t.piecesPass u := by
  intro pos hpos x hx
  rw [piece_congr h ho] at hx
  rw [h.2, ho.port, ho.ident, ho.daddr, ho.wr]
  exact hp pos (by rwa [← ho.cut]) x hx

/-- What an operation keeps of a request while it is under way. -/
structure SameRequest (o u : Op) : Prop where
  hdr : u.hdr = o.hdr
  hold : u.hold = o.hold
  wr : u.wr = o.wr
  age : u.age = o.age

theorem startPieces_starts (s : State) {je : Nat} {o : Op} {x : Nat × Nat} (ho : s.op? je = some o) (hs : o.stop = false) (hb : o.bad = [])
    (hp : s.piecesPass o) (hx : o.cut.piece o.maxb o.bound (s.pieceEdge o) o.pos = some x) :
    s.Starts (s.startPieces je) je o { o with judged := true, cur := some x, pos := x.2 + 1 - o.cut.base } := by
  have hjudge : judgeAll je (o.cut.n + 2) 0 s = s := judgeAll_passes s ho hp _ _
  have h1 := s.starts_modOp je o fun o => { o with judged := true }
  have ho1 := h1.op ho
  have hx1 := (piece_congr h1.gates (o := o) (u := { o with judged := true }) ⟨rfl, rfl, rfl, rfl, rfl, rfl, rfl⟩ o.pos).trans hx
  have hnext := starts_nextPiece (s.modOp je fun o => { o with judged := true }) ho1 hs rfl hb hx1 (o.cut.n + 1)
  have h2 := h1.trans ((s.modOp je fun o => { o with judged := true }).starts_modOp je { o with judged := true }
    fun o => { o with cur := some x, pos := x.2 + 1 - o.cut.base })
  unfold startPieces
  rw [ho]
  dsimp only
  rw [hjudge]
  unfold goOn
  rw [ho1]
  dsimp only
  rw [hnext, h2.op ho]
  exact h2.trans (starts_enqueueOp _ je _ _)

theorem startReq_starts (s : State) {je : Nat} {o : Op} {w : Window} (ho : s.op? je = some o) (hfresh : o.stop = false ∧ o.bad = [])
    (hp : w.path = false → s.piecesPass o ∧ ∃ x, o.cut.piece o.maxb o.bound (s.pieceEdge o) o.pos = some x) (l bytes : Nat) :
    ∃ u, s.Starts (s.startReq je l w bytes) je o u ∧ SameRequest o u := by
  unfold startReq
  rw [ho]
  dsimp only
  generalize (if w.path = true then hubLanding else hubSpoke o.port) = out
  have hform := s.starts_formXfer je o (hubLink l out) out (s.entry je).cls (s.entry je).inst (s.entry je).inst bytes (.op je) (.piece je)
  generalize s.formXfer (hubLink l out) out (s.entry je).cls (s.entry je).inst (s.entry je).inst bytes (.op je) (.piece je) = r at hform ⊢
  have h1 := hform.trans (r.2.starts_modOp je o fun o => { o with c0wait := !r.1 })
  have hsame : SameTarget o { o with c0wait := !r.1 } := ⟨rfl, rfl, rfl, rfl, rfl, rfl, rfl⟩
  split
  · exact ⟨_, h1.trans (starts_enqueueOp _ je _ _), rfl, rfl, rfl, rfl⟩
  · next hpath =>
    obtain ⟨hpass, x, hx⟩ := hp (by simpa using hpath)
    have hstart := startPieces_starts (r.2.modOp je fun o => { o with c0wait := !r.1 }) (h1.op ho) hfresh.1 hfresh.2
      (piecesPass_congr h1.gates hsame hpass) ((piece_congr h1.gates hsame o.pos).trans hx)
    exact ⟨_, h1.trans hstart, rfl, rfl, rfl, rfl⟩

end State

/-! ### The first piece of a request -/

/-- A swap within a granule undoes itself. -/
theorem swapAddr_swapAddr {c : CutSpec} (hc : c.Formed) (b : Nat) (hb : b < 8) : swapAddr c.u (swapAddr c.u b) = b ∧ swapAddr c.u b < 8 := by
  unfold swapAddr
  rcases hc.unit with h | h | h | h <;> rw [h] <;> omega

/-- A request whose first granule enables a byte has a piece. -/
theorem piece_of_fbe {c : CutSpec} (hc : c.Formed) (hn : 8 ≤ c.n) {b : Nat} (hb : b < 8) (hen : bit b c.fm = true) (maxb bound : Nat)
    (edge : Nat → Nat) : ∃ x, c.piece maxb bound edge 0 = some x := by
  unfold CutSpec.piece
  cases hnext : c.nextEn 17 0 with
  | some j => exact ⟨_, rfl⟩
  | none =>
    obtain ⟨hback, hlt⟩ := swapAddr_swapAddr hc b hb
    have hoff := CutSpec.nextEn_17_none hc hnext (Nat.zero_le (swapAddr c.u b))
    rw [CutSpec.sen, hback, CutSpec.en, if_neg (by omega), if_pos hb, hen] at hoff
    cases hoff

theorem fbe_enables : ∀ f : BitVec 8, f ≠ 0 → ∃ b, b < 8 ∧ bit b f.toNat = true := by decide

theorem swapUnit_divides : ∀ k < 4, swapUnit k = 1 ∨ swapUnit k = 2 ∨ swapUnit k = 4 ∨ swapUnit k = 8 := by decide

end Sys2Proof.Machine
end

section
/-! PROOFS. Requests in windows are admitted (R109, R170, R202, R208, R211), and held C0 transfers are charged (R192). -/

namespace Sys2Proof.Machine

/-- The state with other links. -/
def State.relinked (s : State) (m : FMap Link) : State := { s with links := m }

/-- An entry as its admission at a time makes it. -/
def JEntry.admittedAt (e : JEntry) (ts serial : Nat) : JEntry :=
  { e with st := .admitted, ts := ts % 2 ^ 32, serial := serial, progress := 0, since := ts }

namespace State

/-! ### The entry and operation of a request -/

theorem windowOf_swap (b : BitVec 256) : (windowOf b).swap < 4 := bits_lt 27 26 _

theorem outWindow_swap {s : State} {a i : Nat} {w : Window} (h : s.outWindow a = some (i, w)) : w.swap < 4 := by
  have hmem := List.mem_of_find?_eq_some h
  obtain ⟨p, -, hp⟩ := List.mem_map.mp (List.mem_of_mem_filter hmem)
  obtain ⟨-, rfl⟩ := Prod.mk.inj hp
  exact windowOf_swap _

theorem outNow_ok {s : State} {f : OutFound} {w : Window} {dv : Device} (h : s.outNow f = .ok w dv) : f = .ok w dv := by
  unfold outNow at h
  split at h
  · split at h
    · cases h
    · exact h
  · exact h

theorem outLook_swap {s : State} {h : ReqHdr} {wr : Bool} {w : Window} {dv : Device} (hf : s.outLook h wr = .ok w dv) : w.swap < 4 := by
  unfold outLook at hf
  split at hf
  · cases hf
  · next i w' hw =>
    dsimp only at hf
    split at hf
    · cases hf
    · split at hf
      · cases hf
      · obtain ⟨rfl, -⟩ := OutFound.ok.inj hf
        exact outWindow_swap hw

theorem reqOp_formed (l : Nat) (h : ReqHdr) (wr : Bool) (data : List Byte) {w : Window} (dv : Device) (hold : Hold) (hp : w.path = false)
    (hw : w.swap < 4) : (reqOp l h wr data w dv hold).cut.Formed := by
  refine ⟨?_, Nat.mul_mod_right 8 _⟩
  have hu : (reqOp l h wr data w dv hold).cut.u = swapUnit w.swap := by simp [reqOp, hp]
  rw [hu]
  exact swapUnit_divides _ hw

/-- The first piece of an admitted request. -/
theorem reqOp_piece (l : Nat) {h : ReqHdr} (hok : reqOk h = true) (wr : Bool) (data : List Byte) {w : Window} (dv : Device)
    (hold : Hold) (hp : w.path = false) (hw : w.swap < 4) (maxb bound : Nat) (edge : Nat → Nat) :
    ∃ x, (reqOp l h wr data w dv hold).cut.piece maxb bound edge 0 = some x := by
  have hfbe : h.fbe ≠ 0 := by
    simp only [reqOk, Bool.and_eq_true, bne_iff_ne] at hok
    exact hok.1.1
  obtain ⟨b, hb, hen⟩ := fbe_enables _ hfbe
  have hn : 8 ≤ 8 * granulesOf h.len.toNat := by
    unfold granulesOf
    split <;> omega
  exact piece_of_fbe (reqOp_formed l h wr data dv hold hp hw) hn hb hen maxb bound edge

/-! ### Admission -/

/-- The Journal and the operations after an admission. -/
def admits (s : State) (je : Nat) (e : JEntry) (o : Op) : State :=
  { s with
    jnl := { s.jnl with
      entries := FMap.put je (e.admittedAt s.ts s.jnl.serial) s.jnl.entries, reserved := FMap.del je s.jnl.reserved, serial := s.jnl.serial + 1 }
    ops := FMap.put je { o with age := s.ts } s.ops }

theorem admitOp_eq (s : State) (je : Nat) (e : JEntry) (o : Op) : s.admitOp je e o = (s.admits je e o).updHwm.jwChange := rfl

theorem updHwm_keeps (s : State) : s.updHwm.jwChange.offStart = s.offStart ∧ s.updHwm.jwChange.jnl = s.jnl ∧ s.updHwm.jwChange.ops = s.ops
    ∧ s.updHwm.jwChange.links = s.links ∧ s.updHwm.jwChange.freeCount = s.freeCount ∧ s.onlyBlocks s.updHwm.jwChange [.jnl]
    ∧ s.sameGates s.updHwm.jwChange := by
  have hregs (t : State) : t.jwChange.regs = t.regs := rfl
  have hjnl : s.updHwm.jnl = s.jnl := maxF_jnl ..
  have hops : s.updHwm.ops = s.ops := maxF_ops ..
  have hlinks : s.updHwm.links = s.links := maxF_links ..
  have hcount : s.updHwm.freeCount = s.freeCount := maxF_freeCount ..
  refine ⟨rfl, hjnl, hops, hlinks, hcount, ?_, ?_⟩
  · exact (onlyBlocks_maxF s (x := Fld.jnlHwm_hwm) (i := 0) (b := .jnl) (by decide) (by simp) _).congr (hregs _)
  · exact (sameGates_maxF s (x := Fld.jnlHwm_hwm) (i := 0) (by decide) _).trans (sameGates_of_regs (hregs _) rfl rfl)

theorem admitOp_admits (s : State) (je : Nat) (e : JEntry) (o : Op) :
    (s.admitOp je e o).offStart = s.offStart ∧ (s.admitOp je e o).entry je = e.admittedAt s.ts s.jnl.serial
    ∧ (∀ j, j ≠ je → (s.admitOp je e o).entry j = s.entry j ∧ (s.admitOp je e o).op? j = s.op? j)
    ∧ (s.admitOp je e o).op? je = some { o with age := s.ts } ∧ (s.admitOp je e o).links = s.links
    ∧ (s.admitOp je e o).freeCount = s.freeCount ∧ s.onlyBlocks (s.admitOp je e o) [.jnl] ∧ s.sameGates (s.admitOp je e o) := by
  obtain ⟨hoff, hjnl, hops, hlinks, hcount, honly, hgates⟩ := (s.admits je e o).updHwm_keeps
  rw [← admitOp_eq] at *
  have hentry (j : Nat) := entry_congr (congrArg Jnl.entries hjnl) j
  refine ⟨hoff, (hentry je).trans (get_put_same ..), fun j hj => ⟨(hentry j).trans (get_put_ne hj ..), (op?_congr hops j).trans (FMap.find_put_ne hj ..)⟩,
    (op?_congr hops je).trans (FMap.find_put_same ..), hlinks, hcount, (onlyBlocks_of_regs (s := s) rfl _).trans honly,
    sameGates.trans (t := s.admits je e o) (sameGates_of_regs rfl rfl rfl) hgates⟩

theorem nextFree_congr {s t : State} (h : t.jnl = s.jnl) (k j : Nat) : t.nextFree k j = s.nextFree k j := by
  induction k generalizing j with
  | zero => rfl
  | succ k ih =>
    have hfree : t.jeFree j = s.jeFree j := by simp only [jeFree, h]
    rw [nextFree, nextFree, hfree, ih]

theorem jeRoom_congr {s t : State} (h : t.jnl = s.jnl) (hi : t.insts = s.insts) (hf : t.freeNext = s.freeNext) (i : Nat) :
    t.jeRoom i = s.jeRoom i := by
  have huse : t.jnlUse i = s.jnlUse i := by simp only [jnlUse, h]
  have hpick : t.pickJe = s.pickJe := by simp only [pickJe, free, nextFree_congr h, h, hf]
  rw [jeRoom, jeRoom, huse, hpick, inst_congr hi]

theorem reqClass_congr {s t : State} (hi : t.insts = s.insts) (h : ReqHdr) (w : Window) : (t.reqClassOf h w).1 = (s.reqClassOf h w).1 := by
  unfold reqClassOf demote
  simp only [inst_congr hi]
  split_ifs <;> rfl

theorem reqClassOf_keeps (s : State) (h : ReqHdr) (w : Window) :
    (s.reqClassOf h w).2.offStart = s.offStart ∧ (s.reqClassOf h w).2.jnl = s.jnl ∧ (s.reqClassOf h w).2.ops = s.ops
    ∧ (s.reqClassOf h w).2.links = s.links
    ∧ (s.reqClassOf h w).2.freeCount = s.freeCount ∧ s.onlyBlocks (s.reqClassOf h w).2 [.hub] ∧ s.sameGates (s.reqClassOf h w).2 := by
  have hinc (x : Fld) (hb : blockAt (regOff x.id 0) = some .hub) (hlow : regOff x.id 0 < Block.gate.base) :
      (s.incF x).offStart = s.offStart ∧ (s.incF x).jnl = s.jnl ∧ (s.incF x).ops = s.ops ∧ (s.incF x).links = s.links
      ∧ (s.incF x).freeCount = s.freeCount ∧ s.onlyBlocks (s.incF x) [.hub] ∧ s.sameGates (s.incF x) :=
    ⟨rfl, incF_jnl .., incF_ops .., incF_links .., incF_freeCount .., onlyBlocks_incF s hb (by simp) 1, sameGates_incF s hlow 1⟩
  unfold reqClassOf demote
  dsimp only
  split
  · exact hinc Fld.hubC0Cnt_oversize (by decide) (by decide)
  · split
    · exact hinc Fld.hubC0Cnt_noallot (by decide) (by decide)
    · exact ⟨rfl, rfl, rfl, rfl, rfl, onlyBlocks_of_regs rfl _, sameGates_of_regs rfl rfl rfl⟩

/-- An engine's share after new work changes instances alone. -/
theorem raisePass_insts (s before : State) (i : Nat) : s.raisePass before i = { s with insts := (s.raisePass before i).insts } := by
  unfold raisePass
  split
  · rfl
  · dsimp only
    split <;> rfl

/-- The frame of an admission (R170). -/
theorem admitted_frame {s t : State} (hoff : t.offStart = s.start.offStart) (hcount : t.freeCount = s.freeCount + 1) :
    t = { s.start with links := t.links, jnl := t.jnl, ops := t.ops, regs := t.regs, hub := t.hub, insts := t.insts, ports := t.ports
                       freeCount := s.freeCount + 1, freeNext := t.freeNext } := by
  rw [← hcount]
  exact eq_of_offStart hoff

theorem reqPool_eq (h : ReqHdr) (wr : Bool) (w : Window) :
    reqPool h wr w = 3 * max h.vc.val w.cls + (if !wr then 2 else if wr && !h.np then 0 else 1) := by
  cases wr <;> rfl

theorem tryAdmit_admits (s : State) (m : FMap Link) {l : Nat} {before : List HeldReq} {first : Bool} {h : ReqHdr} {wr : Bool} {w : Window}
    {dv : Device} {je : Nat} {hold : Hold} (ha : s.admissible l before first h wr w dv je hold) (data : List Byte) :
    ∃ t, (s.start.relinked m).tryAdmit l before first h wr data w dv = some t ∧ t.links = m
      ∧ ∀ n, s.admitted (t.relinked n) l je h wr w hold := by
  obtain ⟨-, -, -, hok, -, hpoison, hfind, hbehind, hwith, hroom, htake, hpass⟩ := ha
  have hswap : w.swap < 4 := outLook_swap (outNow_ok hfind)
  obtain ⟨hoffc, hjnlc, hopsc, hlinksc, hcountc, honlyc, hgatesc⟩ := (s.start.relinked m).reqClassOf_keeps h w
  have hcls : ((s.start.relinked m).reqClassOf h w).1 = (s.reqClassOf h w).1 :=
    reqClass_congr (s := s) (t := s.start.relinked m) rfl h w
  have hroom' : (s.start.relinked m).jeRoom w.owner = some je := 
    (jeRoom_congr (s := s) (t := s.start.relinked m) rfl rfl rfl _).trans hroom
  have hgates0 : s.sameGates (s.start.relinked m) := sameGates_of_regs rfl rfl rfl
  unfold tryAdmit
  rw [if_neg (by simp only [hbehind, Bool.false_or]; rw [show (s.start.relinked m).withheld w.owner = s.withheld w.owner from rfl, hwith]; decide),
    if_neg (by rw [hpoison]; decide)]
  dsimp only
  rw [hroom', ← reqPool_eq, show (s.start.relinked m).takeGrains w.owner (reqPool h wr w) (grainsOf (8 * granulesOf h.len.toNat)) (wr && !h.np) first
    = some hold from htake, hcls]
  generalize ((s.start.relinked m).reqClassOf h w).2 = c at *
  obtain ⟨hoffa, hentry, hothers, hop, hlinksa, hcounta, honlya, hgatesa⟩ :=
    c.draw.admitOp_admits je (reqEntry l h wr (s.reqClassOf h w).1 w) (reqOp l h wr data w dv hold)
  dsimp only
  generalize c.draw.admitOp je (reqEntry l h wr (s.reqClassOf h w).1 w) (reqOp l h wr data w dv hold) = a at *
  have hcts : c.ts = s.ts := (congrArg State.ts hoffc : c.offStart.ts = (s.start.relinked m).offStart.ts)
  have hgates : s.sameGates a := (hgates0.trans hgatesc).trans (sameGates.trans (t := c.draw) (sameGates_of_regs rfl rfl rfl) hgatesa)
  have htarget : SameTarget (reqOp l h wr [] w dv hold) { reqOp l h wr data w dv hold with age := c.draw.ts } :=
    ⟨rfl, rfl, rfl, rfl, rfl, rfl, rfl⟩
  obtain ⟨u, hu, hreq⟩ := a.startReq_starts (w := w) hop ⟨rfl, rfl⟩
    (fun hp => ⟨piecesPass_congr hgates htarget (hpass hp), reqOp_piece l hok wr data dv hold hp hswap _ _ _⟩)
    l (if wr then 8 * granulesOf h.len.toNat else 0)
  refine ⟨_, rfl, ?_, fun n => ?_⟩
  · rw [raisePass_insts]
    exact hu.links.trans (hlinksa.trans hlinksc)
  · rw [raisePass_insts]
    generalize a.startReq je l w (if wr then 8 * granulesOf h.len.toNat else 0) = t at *
    refine ⟨?_, ⟨u, hu.op hop, hreq.hdr, hreq.hold, hreq.wr, ?_⟩, fun j hj => ?_, ?_, ?_, ?_⟩
    · refine (entry_congr (s := a) (congrArg Jnl.entries hu.jnl) je).trans (hentry.trans ?_)
      rw [draw_ts, hcts, draw_jnl, hjnlc]
      rfl
    · rw [hreq.age]
      exact hcts
    · refine ⟨(entry_congr (s := a) (congrArg Jnl.entries hu.jnl) j).trans ((hothers j hj).1.trans ?_),
        (hu.others j hj).trans ((hothers j hj).2.trans ?_)⟩
      · exact entry_congr (congrArg Jnl.entries hjnlc) j
      · exact op?_congr hopsc j
    · exact (((((onlyBlocks_of_regs rfl _).trans honlyc).mono (by simp)).trans ((onlyBlocks_of_regs rfl _).trans (honlya.mono (by simp)))).trans
        (hu.only.mono (by simp))).congr rfl
    · have hout : t.outp = (s.start.relinked m).outp :=
        (congrArg State.outp (hu.off.trans (hoffa.trans hoffc)) : t.offStart.outp = (s.start.relinked m).offStart.outp)
      exact hout
    · refine admitted_frame (hu.off.trans (hoffa.trans hoffc)) ?_
      change t.freeCount = _
      rw [hu.count, hcounta, draw_freeCount, hcountc]
      rfl

/-! ### Requests as they come -/

theorem tblCheck_off {s : State} (h : s.exOn 2 = false) (x : Tbl) (n : Option Nat) : s.tblCheck x n = s := by
  unfold tblCheck
  cases n with
  | none => rfl
  | some n => simp [h]

theorem oversizeFirst_congr {s t : State} (hl : ∀ l, (t.link l).held = (s.link l).held) (hi : t.insts = s.insts) (st : Nat) :
    t.oversizeFirst st = s.oversizeFirst st := by
  have hover (p : HeldReq) : t.isOversize p = s.isOversize p := by simp only [isOversize, inst_congr hi]
  simp only [oversizeFirst, hl, hover]

theorem not_halt_of_works {s : State} (h : s.works = true) : s.mode ≠ .halt := fun hm => by simp [works, hm] at h
theorem not_reset_of_works {s : State} (h : s.works = true) : s.mode ≠ .reset := fun hm => by simp [works, hm] at h

theorem handleReq_admits (s : State) (m : FMap Link) {l st : Nat} {before : List HeldReq} {h : ReqHdr} {wr : Bool} {w : Window}
    {dv : Device} {je : Nat} {hold : Hold} (ha : s.admissible l before ((s.start.relinked m).oversizeFirst st) h wr w dv je hold)
    {f : OutFound} (hf : s.outNow f = .ok w dv) (data : List Byte) :
    ∃ t, (s.start.relinked m).handleReq l before st h wr data f = some t ∧ t.links = m ∧ ∀ n, s.admitted (t.relinked n) l je h wr w hold := by
  obtain ⟨hw, hasleep, -⟩ := id ha
  unfold handleReq
  rw [if_neg (show ¬ (s.start.relinked m).mode = .halt from not_halt_of_works hw),
    if_neg (by rw [show (s.start.relinked m).asleep = false from hasleep]; decide), show (s.start.relinked m).outNow f = .ok w dv from hf]
  exact s.tryAdmit_admits m ha data

theorem link_takeIn_held (s : State) (l j : Nat) (p : Packet) : ((s.takeIn l p).link j).held = (s.link j).held := by
  by_cases h : j = l
  · subst h
    rw [takeIn_link]
  · rw [takeIn, link_modLink_ne s h]

/-- A request that is admitted as it comes (R109, R170). -/
theorem winRequest_admits (s : State) {l : Nat} (p : Packet) {h : ReqHdr} {wr : Bool} {w : Window} {dv : Device} {je : Nat} {hold : Hold}
    (ha : s.admissible l (s.link l).held (s.oversizeFirst s.jnl.serial) h wr w dv je hold) (data : List Byte) :
    s.admitted ((s.start.takeIn l p).winRequest l p h wr data) l je h wr w hold
    ∧ s.took ((s.start.takeIn l p).winRequest l p h wr data) l p := by
  have hheld (j : Nat) : ((s.start.takeIn l p).link j).held = (s.link j).held := link_takeIn_held s.start l j p
  obtain ⟨-, -, hex, -, -, -, hfind, -⟩ := id ha
  have hfirst : (s.start.takeIn l p).oversizeFirst s.jnl.serial = s.oversizeFirst s.jnl.serial := oversizeFirst_congr hheld rfl _
  rw [← hfirst] at ha
  obtain ⟨t, ht, hlinks, hadm⟩ := s.handleReq_admits (s.start.takeIn l p).links ha (f := s.outLook h wr) hfind data
  have heq : (s.start.takeIn l p).winRequest l p h wr data = t.giveCredits l p := by
    unfold winRequest
    dsimp only
    rw [tblCheck_off (s := s.start.takeIn l p) hex, tblCheck_off (s := s.start.takeIn l p) hex, hheld,
      show (s.start.takeIn l p).handleReq l (s.link l).held (s.start.takeIn l p).jnl.serial h wr data ((s.start.takeIn l p).outLook h wr) = some t from ht]
  have hl (j : Nat) : t.link j = (s.start.takeIn l p).link j := link_congr hlinks j
  rw [heq]
  refine ⟨hadm _, ?_, fun j hj => ?_⟩
  · rw [giveCredits, link_modLink_same, hl, takeIn_link]
    rfl
  · rw [giveCredits, link_modLink_ne t hj, hl, takeIn, link_modLink_ne s.start hj]
    rfl

theorem exec_mrd_window (s : State) (l : Fin 2) {h : ReqHdr} (hm : s.mode ≠ .reset) (hf : (s.link l.val).flows = true) (hok : reqOk h = true)
    (hb : s.inBcs h = false) : exec (.mrd l h) s = .next ((s.start.takeIn l.val (.mrd h)).winRequest l.val (.mrd h) h false []) := by
  have hpass : ¬ (s.start.mode = .reset ∨ (!(s.start.link l.val).flows) = true) := by
    rw [show s.start.link l.val = s.link l.val from rfl, hf]
    exact fun h => h.elim hm (by decide)
  change (if s.start.mode = .reset ∨ (!(s.start.link l.val).flows) = true then _ else if (!reqOk h) = true then _
    else if (s.start.takeIn l.val (.mrd h)).inBcs h = true then _ else _) = _
  rw [if_neg hpass, if_neg (by simp [hok]), if_neg (by rw [show (s.start.takeIn l.val (.mrd h)).inBcs h = s.inBcs h from rfl, hb]; decide)]

theorem exec_mwr_window (s : State) (l : Fin 2) {h : ReqHdr} (bytes : List Byte) (hm : s.mode ≠ .reset) (hf : (s.link l.val).flows = true)
    (hok : reqOk h = true) (hb : s.inBcs h = false) (hp : h.poison = false) :
    exec (.mwr l h bytes) s = .next ((s.start.takeIn l.val (.mwr h bytes)).winRequest l.val (.mwr h bytes) h true bytes) := by
  have hpass : ¬ (s.start.mode = .reset ∨ (!(s.start.link l.val).flows) = true) := by
    rw [show s.start.link l.val = s.link l.val from rfl, hf]
    exact fun h => h.elim hm (by decide)
  change (if s.start.mode = .reset ∨ (!(s.start.link l.val).flows) = true then _ else if (!reqOk h) = true then _
    else if h.poison = true then _ else if (s.start.takeIn l.val (.mwr h bytes)).inBcs h = true then _ else _) = _
  rw [if_neg hpass, if_neg (by simp [hok]), if_neg (by simp [hp]),
    if_neg (by rw [show (s.start.takeIn l.val (.mwr h bytes)).inBcs h = s.inBcs h from rfl, hb]; decide)]

/-! ### Requests that waited -/

/-- A waiting read at the head of its buffer, when nothing holds it back any more. -/
theorem deferGo_admits (s : State) (l : Nat) {h : ReqHdr} {st : Nat} {rest : List HeldReq} {w : Window} {dv : Device} {je : Nat} {hold : Hold}
    {big : Bool} (ha : s.admissible l [] (s.oversizeFirst st) h false w dv je hold)
    (hbig : decide ((s.inst w.owner).lquota < grainsOf (8 * granulesOf h.len.toNat)) = big) :
    s.admitted (s.start.deferGo l big [] ({ stamp := st, pkt := .mrd h, found := .ok w dv } :: rest)) l je h false w hold
    ∧ (s.start.deferGo l big [] ({ stamp := st, pkt := .mrd h, found := .ok w dv } :: rest)).link l = { s.link l with
        held := (s.link l).held.filter (fun x => x.stamp != st), credRet := (s.link l).credRet ++ packetReturns (.mrd h) }
    ∧ s.sameLinksBut (s.start.deferGo l big [] ({ stamp := st, pkt := .mrd h, found := .ok w dv } :: rest)) l := by
  obtain ⟨-, -, -, -, -, -, hfind, -⟩ := id ha
  have hnow : s.outNow (.ok w dv) = .ok w dv := by
    rw [outFind, outNow_ok hfind] at hfind
    exact hfind
  have hover : s.start.isOversize { stamp := st, pkt := .mrd h, found := .ok w dv } = big := hbig
  have ha' : s.admissible l [] ((s.start.relinked s.links).oversizeFirst st) h false w dv je hold := by
    rwa [oversizeFirst_congr (s := s) (t := s.start.relinked s.links) (fun _ => rfl) rfl]
  obtain ⟨t, ht, hlinks, hadm⟩ := s.handleReq_admits s.links ha' hnow []
  have heq : s.start.deferGo l big [] ({ stamp := st, pkt := .mrd h, found := .ok w dv } :: rest)
      = t.dropHeld l { stamp := st, pkt := .mrd h, found := .ok w dv } := by
    unfold deferGo
    rw [hover, if_pos (by simp), show s.start.handleHeld l [] { stamp := st, pkt := .mrd h, found := .ok w dv } = some t from ht]
  have hl (j : Nat) : t.link j = s.link j := link_congr hlinks j
  rw [heq]
  refine ⟨hadm _, ?_, fun j hj => ?_⟩
  · rw [dropHeld, giveCredits, link_modLink_same, link_modLink_same, hl]
  · rw [dropHeld, giveCredits, link_modLink_ne _ hj, link_modLink_ne t hj, hl]

theorem ovs_of_takeGrains {s : State} {i pool g : Nat} {posted first : Bool} {hold : Hold} (h : s.takeGrains i pool g posted first = some hold)
    (hg : (s.inst i).lquota < g) : hold.ovs = g := by
  unfold takeGrains at h
  rw [if_neg (Nat.not_le.mpr hg)] at h
  split at h
  · obtain rfl := Option.some.inj h
    rfl
  · cases h

theorem exec_deferredAdmission (s : State) (l : Fin 2) (hm : s.mode ≠ .reset) :
    exec (.deferredAdmission l) s = .next (s.start.deferGo l.val false [] (s.link l.val).held)
    ∧ exec (.oversizeAdmission l) s = .next (s.start.deferGo l.val true [] (s.link l.val).held) :=
  ⟨congrArg Host.Outcome.next (if_neg hm), congrArg Host.Outcome.next (if_neg hm)⟩

/-! ### Held C0 transfers -/

/-- The state in which a held transfer has been charged and formed (R192). -/
def charged (s : State) (i : Nat) (x : C0Held) : State :=
  (((s.c0Take i x.port (c0Cost x.bytes)).modHub fun b => { b with held := b.held.erase x }).addXfer x.inp x.port 0 x.sub x.bytes x.own)

/-- The tokens of a charged transfer leave the bucket of its owner and that of its port. -/
theorem charged_takes (s : State) (i : Nat) (x : C0Held) :
    ((s.charged i x).inst i).c0tokens = (s.inst i).c0tokens - 65536 * c0Cost x.bytes
    ∧ (∀ j, j ≠ i → (s.charged i x).inst j = s.inst j)
    ∧ FMap.get 0 x.port (s.charged i x).hub.used = FMap.get 0 x.port s.hub.used + 256 * c0Cost x.bytes :=
  ⟨congrArg Inst.c0tokens (s.inst_modInst_same i fun n => { n with c0tokens := n.c0tokens - 65536 * c0Cost x.bytes }),
    fun _ hj => s.inst_modInst_ne hj fun n => { n with c0tokens := n.c0tokens - 65536 * c0Cost x.bytes },
    FMap.get_mod_same 0 x.port (· + 256 * c0Cost x.bytes) s.hub.used⟩

theorem pieceGo_charges (s : State) {je : Nat} {o : Op} (ho : s.op? je = some o) (hk : (s.entry je).kind < 5) :
    s.pieceGo je = s.modOp je fun o => { o with c0wait := false } := by
  unfold pieceGo
  rw [ho]
  dsimp only
  rw [show (s.modOp je fun o => { o with c0wait := false }).entry je = s.entry je from rfl, if_neg (by omega), if_pos (.inl hk)]

theorem exec_c0HeldRelease (s : State) (i : Fin 256) {x : C0Held} {je : Nat} {o : Op} (hw : s.works = true)
    (hheld : s.hub.held.filter (fun h => h.inst == i.val) = [x]) (hact : x.act = .piece je) (ho : s.op? je = some o)
    (hk : (s.entry je).kind < 5) (hinst : 65536 * c0Cost x.bytes ≤ (s.inst i.val).c0tokens) (hport : 256 * c0Cost x.bytes ≤ s.portTokens x.port) :
    exec (.c0HeldRelease i) s = .next ((s.start.charged i.val x).modOp je fun o => { o with c0wait := false }) := by
  have hx : x.inst = i.val := by
    have hmem : x ∈ s.hub.held.filter (fun h => h.inst == i.val) := by rw [hheld]; exact List.mem_singleton_self x
    simpa using (List.mem_filter.mp hmem).2
  have hfree : s.start.c0Free [x] x = true := by
    have htok : s.start.haveTokens x.inst x.port (c0Cost x.bytes) = true := by
      rw [hx, haveTokens, Bool.and_eq_true]
      exact ⟨decide_eq_true hinst, decide_eq_true hport⟩
    simp [c0Free, htok, hact]
  have hfind : [x].find? (s.start.c0Free [x]) = some x := by simp [hfree]
  change Host.Outcome.next (if (!s.start.works) = true then s.start else
    match (s.hub.held.filter fun h => h.inst == i.val).find? (s.start.c0Free (s.hub.held.filter fun h => h.inst == i.val)) with
    | none => s.start
    | some h => (s.start.charged i.val h).c0Go h) = _
  rw [if_neg (by rw [show s.start.works = true from hw]; decide), hheld, hfind]
  dsimp only
  unfold c0Go
  rw [hact]
  exact congrArg Host.Outcome.next (pieceGo_charges (s.start.charged i.val x) ho hk)

end State

/-- Settles O31: what admission makes of the state, the same for a request that comes and for one that waited, and the charge of a held transfer. -/
theorem requestAdmission : Obligations.RequestAdmission := by
  unfold Obligations.RequestAdmission
  refine ⟨fun s l h bytes w dv je hold hf => ⟨fun ha => ?_, fun ha => ?_⟩, ?_, ?_⟩
  · obtain ⟨hw, -, -, hok, hb, -⟩ := id ha
    exact ⟨_, s.exec_mrd_window l (State.not_reset_of_works hw) hf hok hb, s.winRequest_admits _ ha []⟩
  · obtain ⟨hw, -, -, hok, hb, hp, -⟩ := id ha
    exact ⟨_, s.exec_mwr_window l bytes (State.not_reset_of_works hw) hf hok hb (by simpa using hp), s.winRequest_admits _ ha bytes⟩
  · rintro s l h st f rest w dv je hold hheld rfl ha
    obtain ⟨hw, -, -, -, -, -, -, -, -, -, htake, -⟩ := id ha
    obtain ⟨hdef, hovs⟩ := s.exec_deferredAdmission l (State.not_reset_of_works hw)
    rw [hheld] at hdef hovs
    refine ⟨fun hq => ⟨_, hdef, ?_⟩, fun hq => ⟨_, hovs, ?_⟩⟩
    · exact s.deferGo_admits l.val ha (decide_eq_false (Nat.not_lt.mpr hq))
    · obtain ⟨hadm, hlinks⟩ := s.deferGo_admits (rest := rest) l.val ha (decide_eq_true hq)
      exact ⟨hadm, State.ovs_of_takeGrains htake hq, hlinks⟩
  · intro s i x je o hw hheld hact ho hk hinst hport
    obtain ⟨htok, hothers, hused⟩ := s.start.charged_takes i.val x
    refine ⟨_, s.exec_c0HeldRelease i hw hheld hact ho hk hinst hport, ?_, hused, rfl, ?_, ⟨_, rfl, rfl, rfl, rfl, rfl, rfl, rfl, ?_⟩,
      fun j hj => State.op?_modOp_ne _ hj _, hothers, rfl⟩
    · change ((s.start.charged i.val x).inst i.val).c0tokens + _ = _
      rw [htok]
      exact Nat.sub_add_cancel hinst
    · rw [State.op?_modOp_same, show (s.start.charged i.val x).op? je = some o from ho]
      rfl
    · by_cases h5 : 5 < flitsOf x.bytes <;> by_cases hj : x.port = hubJournal <;> simp [h5, hj]
      omega

end Sys2Proof.Machine
end

section
/-! PROOFS. The step function, the state of reset, and what a fault of any class leaves alone. -/

namespace Sys2Proof.Machine

namespace State

/-! ### What a fault of any class leaves alone -/

/-- The state but for what a fault may change, on the fatal edge too. -/
def offHalt (s : State) : State :=
  { s with mode := .reset, phase := .steady, regs := [], links := [], outp := [], ports := [], cmp := {}, img := {}, flt := {} }

theorem offHalt_of_offFault {s t : State} (h : t.offFault = s.offFault) : t.offHalt = s.offHalt :=
  (congrArg offHalt h : t.offFault.offHalt = s.offFault.offHalt)

@[simp] theorem offHalt_setF (s : State) (x : Fld) (v i : Nat) : (s.setF x v i).offHalt = s.offHalt := rfl
@[simp] theorem offHalt_incF (s : State) (x : Fld) (i n : Nat) : (s.incF x i n).offHalt = s.offHalt := rfl
@[simp] theorem offHalt_setPair (s : State) (lo hi : Fld) (v i : Nat) : (s.setPair lo hi v i).offHalt = s.offHalt := by
  rw [setPair, offHalt_setF, offHalt_setF]
@[simp] theorem offHalt_modFlt (s : State) (g : Flt → Flt) : (s.modFlt g).offHalt = s.offHalt := rfl
@[simp] theorem offHalt_modImg (s : State) (g : Img → Img) : (s.modImg g).offHalt = s.offHalt := rfl
@[simp] theorem offHalt_modLink (s : State) (l : Nat) (g : Link → Link) : (s.modLink l g).offHalt = s.offHalt := rfl
@[simp] theorem offHalt_haltPorts (s : State) : s.haltPorts.offHalt = s.offHalt := rfl
@[simp] theorem offHalt_clearKeys (s : State) : s.clearKeys.offHalt = s.offHalt := rfl

@[simp] theorem offHalt_haltRecord (s : State) (src syn : Nat) : (s.haltRecord src syn).offHalt = s.offHalt := by
  unfold haltRecord
  split
  · rw [offHalt_modFlt, offHalt_setPair, offHalt_setPair, offHalt_setF, offHalt_setF]
  · rfl

@[simp] theorem offHalt_haltLink (s : State) (l : Nat) : (s.haltLink l).offHalt = s.offHalt := by
  unfold haltLink
  split
  · rw [offHalt_incF, offHalt_modLink]
  · rfl

@[simp] theorem offHalt_addFatalRecord (s : State) : s.addFatalRecord.offHalt = s.offHalt := by
  rw [addFatalRecord, offHalt_incF, offHalt_modImg]

@[simp] theorem offHalt_enterHalt (s : State) : s.enterHalt.offHalt = s.offHalt := by
  unfold enterHalt
  split
  · rfl
  · dsimp only
    rw [offHalt_modFlt, offHalt_setF, offHalt_setF, offHalt_addFatalRecord, offHalt_clearKeys, offHalt_haltPorts, offHalt_haltLink,
      offHalt_haltLink]
    rfl

theorem offHalt_classAct (s : State) (src syn : Nat) (inst : Option Nat) : (s.classAct src syn inst).offHalt = s.offHalt := by
  by_cases hc : srcClass src = 3
  · simp only [classAct, hc]
    split_ifs
    · rw [offHalt_haltRecord, offHalt_incF]
    · rw [offHalt_incF]
    · rw [offHalt_enterHalt, offHalt_haltRecord, offHalt_incF]
  · exact offHalt_of_offFault (offFault_classAct s hc syn inst)

/-- A fault changes modes, registers, links, ports, keys, the image block and the fault collector, and sends; nothing else. -/
theorem offHalt_raise (s : State) (src unit : Nat) (inst je : Option Nat) (detail : Nat) :
    (s.raise src unit inst je detail).offHalt = s.offHalt := by
  by_cases hm : s.mode = .reset
  · rw [raise, if_pos hm]
  · have hact := (offHalt_classAct ((s.noteFault src).capture src (syndrome unit inst je detail)) src (syndrome unit inst je detail) inst).trans
      (offHalt_of_offFault ((offFault_capture _ _ _).trans (s.offFault_noteFault src)))
    rw [raise_eq s src unit inst je detail hm]
    split
    · rw [redoFatal, offHalt_modImg, hact]
    · exact hact

theorem raise_pwr (s : State) (src unit : Nat) (inst je : Option Nat) (detail : Nat) : (s.raise src unit inst je detail).pwr = s.pwr :=
  (congrArg State.pwr (offHalt_raise s src unit inst je detail) : (s.raise src unit inst je detail).offHalt.pwr = s.offHalt.pwr)

theorem raise_bst (s : State) (src unit : Nat) (inst je : Option Nat) (detail : Nat) : (s.raise src unit inst je detail).bst = s.bst :=
  (congrArg State.bst (offHalt_raise s src unit inst je detail) : (s.raise src unit inst je detail).offHalt.bst = s.offHalt.bst)

/-! ### A REFCLK cycle -/

theorem offLinks_idleBlock (s : State) (l : Nat) : (s.idleBlock l).offLinks = s.offLinks := by
  unfold idleBlock
  dsimp only
  split
  · exact offLinks_sendBlock ..
  · rfl

theorem offLinks_foldl {α : Type} (g : State → α → State) (h : ∀ t x, (g t x).offLinks = t.offLinks) (xs : List α) (s : State) :
    (xs.foldl g s).offLinks = s.offLinks := by
  induction xs generalizing s with
  | nil => rfl
  | cons x xs ih => exact (ih _).trans (h s x)

theorem offLinks_linkIdle (s : State) : s.linkIdle.offLinks = s.offLinks := by
  unfold linkIdle
  refine offLinks_foldl _ (fun t x => ?_) _ s
  split
  · exact offLinks_foldl _ (fun u m => offLinks_emit u _) _ t
  · rfl

/-- A tick of GLB_TS with the gain of the wake buckets (R301). -/
def ticked (s : State) : State := ({ s with ts := (s.ts + 1) % 2 ^ 64 } : State).slewTick

theorem tick_reset (s : State) (h : s.mode = .reset) : s.tick = s.start := if_pos h

/-- Out of RESET a REFCLK cycle with no access waiting changes GLB_TS and the wake buckets, and what the links send. -/
theorem tick_works (s : State) (hm : s.mode ≠ .reset) (hw : s.bcsWait = []) : s.tick.offLinks = s.start.ticked.offLinks := by
  have hdrain : s.start.ticked.drain = s.start.ticked := drain_nil _ hw
  have htick : s.tick = ((s.start.ticked.drain.idleBlock 0).idleBlock 1).linkIdle := if_neg hm
  rw [htick, hdrain, offLinks_linkIdle, offLinks_idleBlock, offLinks_idleBlock]

end State

/-- Settles O1: the step function's two equations, and a REFCLK cycle without its blocks. -/
theorem stepRunsTheFrontCommand : Obligations.StepRunsTheFrontCommand := by
  unfold Obligations.StepRunsTheFrontCommand
  refine ⟨fun s c rest h => ?_, fun s h => ?_, State.tick_reset, fun s hm hw => ?_⟩
  · rw [step, h]
  · rw [step, h]
  · have h := s.tick_works hm hw
    exact ⟨(congrArg State.ts h : s.tick.offLinks.ts = s.start.ticked.offLinks.ts), State.offLinks_regs (s := s.start.ticked) h,
      (congrArg State.bcsWait h : s.tick.offLinks.bcsWait = s.start.ticked.offLinks.bcsWait).trans hw⟩

/-- Settles O2: the empty maps read as their defaults. -/
theorem resetState : Obligations.ResetState := by
  unfold Obligations.ResetState
  refine ⟨rfl, rfl, fun id i => ⟨rfl, rfl⟩, fun l => rfl, fun p => rfl, fun je => rfl, fun i => rfl, ?_⟩
  unfold State.inForm
  refine ⟨by decide, by decide, ?_, ?_, fun _ => rfl, rfl, rfl, ?_⟩
  · exact fun x hx => nomatch hx
  · exact fun m hm => nomatch hm
  · exact fun _ p hp => nomatch hp

end Sys2Proof.Machine
end

section
/-! PROOFS. Droop (R298 to R300, R360), wakes and parts (R302, R304). -/

namespace Sys2Proof.Machine

/-- The power record once a droop is heeded at a time. -/
def Pwr.droopAt (w : Pwr) (ts lv : Nat) : Pwr := { w with droop := true, droopSince := ts, level := lv, frozen := true, adaptFrozen := true }

/-- The power record with an AVSBus write at hand. -/
def Pwr.avsAt (w : Pwr) (mv tries : Nat) (wait : Bool) : Pwr :=
  { w with avsBusy := true, avsWait := wait, avsTries := tries, avsSet := mv }

namespace State

/-- The state with another power record. -/
def withPwr (s : State) (w : Pwr) : State := { s with pwr := w }

/-! ### Droop -/

/-- A droop that is heeded (R299, R300). -/
theorem droopSeen_heeds (s : State) (hpin : s.pwr.droopPin = true) (hd : s.pwr.droop = false) (hm : s.mode ≠ .reset)
    (hl : s.mode = .load → s.pwr.rootLock = true) :
    s.droopSeen = (s.incF Fld.pwrDroopStat_count).withPwr (s.pwr.droopAt s.ts (s.f Fld.pwrDroopCfg_depth + 1)) := by
  have hgo : ¬ ((!s.pwr.droopPin) = true ∨ s.pwr.droop = true ∨ s.mode = .reset ∨ (s.mode = .load ∧ (!s.pwr.rootLock) = true)) := by
    simp only [hpin, hd, hm, Bool.not_true, Bool.false_eq_true, false_or]
    exact fun h => by simp [hl h.1] at h
  unfold droopSeen
  rw [if_neg hgo]
  dsimp only
  rw [f_incF_ne s (x := Fld.pwrDroopStat_count) (y := Fld.pwrDroopCfg_depth) (by decide)]
  rfl

theorem droopSeen_ignores (s : State) (h : s.mode = .reset ∨ s.mode = .load ∧ s.pwr.rootLock = false) : s.droopSeen = s := by
  refine if_pos (.inr (.inr ?_))
  rcases h with h | ⟨h, hr⟩
  · exact .inl h
  · exact .inr ⟨h, by rw [hr]; rfl⟩

theorem exec_droopNAssert (s : State) (hm : s.mode ≠ .reset) (hl : s.mode = .load → s.pwr.rootLock = true) (hd : s.pwr.droop = false) :
    ∃ t, exec .droopNAssert s = .next t
      ∧ t.pwr = { s.pwr with droop := true, droopPin := true, droopSince := s.ts, level := s.f Fld.pwrDroopCfg_depth + 1
                             frozen := true, adaptFrozen := true }
      ∧ t.f Fld.pwrDroopStat_count = sat Fld.pwrDroopStat_count (s.f Fld.pwrDroopStat_count + 1)
      ∧ s.onlyFields t [(Fld.pwrDroopStat_count, 0)] ∧ t = { s.start with pwr := t.pwr, regs := t.regs } := by
  have hexec : exec .droopNAssert s = .next (s.start.modPwr fun w => { w with droopPin := true }).droopSeen := rfl
  have hfields : s.onlyFields (s.incF Fld.pwrDroopStat_count) [(Fld.pwrDroopStat_count, 0)] :=
    (onlyFields.refl s _).incF (by decide) (by decide) (by decide) 1
  rw [droopSeen_heeds (s.start.modPwr fun w => { w with droopPin := true }) rfl hd hm hl] at hexec
  refine ⟨_, hexec, rfl, ?_, hfields.congr rfl, ?_⟩
  · exact f_incF_same s (x := Fld.pwrDroopStat_count) (by decide) 0 1
  · rfl

theorem exec_rootPllLock_heeds (s : State) (hm : s.mode = .load) (hpin : s.pwr.droopPin = true) (hd : s.pwr.droop = false) :
    ∃ t, exec .rootPllLock s = .next t ∧ t.pwr.rootLock = true ∧ t.pwr.droop = true ∧ t.pwr.frozen = true
      ∧ t.pwr.level = s.f Fld.pwrDroopCfg_depth + 1 ∧ t = { s.start with pwr := t.pwr, regs := t.regs } := by
  have hexec : exec .rootPllLock s = .next (s.start.modPwr fun w => { w with rootLock := true }).droopSeen :=
    congrArg Host.Outcome.next (if_neg (by rw [show s.start.mode = .load from hm]; decide))
  rw [droopSeen_heeds (s.start.modPwr fun w => { w with rootLock := true }) hpin hd (by change s.mode ≠ _; rw [hm]; decide) (fun _ => rfl)] at hexec
  exact ⟨_, hexec, rfl, rfl, rfl, rfl, rfl⟩

theorem exec_droopNRelease (s : State) (hd : s.pwr.droop = true) :
    ∃ t, exec .droopNRelease s = .next t ∧ t.pwr = { s.pwr with droop := false, droopPin := false }
      ∧ t.f Fld.pwrDroopMax_max = max (s.f Fld.pwrDroopMax_max) (sat Fld.pwrDroopMax_max (s.ts - s.pwr.droopSince))
      ∧ s.onlyFields t [(Fld.pwrDroopMax_max, 0)] ∧ t = { s.start with pwr := t.pwr, regs := t.regs } := by
  have hexec : exec .droopNRelease s = .next ((s.start.maxF Fld.pwrDroopMax_max (s.ts - s.pwr.droopSince)).withPwr
      { s.pwr with droop := false, droopPin := false }) := congrArg Host.Outcome.next (if_pos hd)
  have hfields : s.onlyFields (s.maxF Fld.pwrDroopMax_max (s.ts - s.pwr.droopSince)) [(Fld.pwrDroopMax_max, 0)] :=
    (onlyFields.refl s _).maxF (by decide) (by decide) (by decide) _
  refine ⟨_, hexec, rfl, ?_, hfields.congr rfl, rfl⟩
  exact f_maxF_same s (x := Fld.pwrDroopMax_max) (by decide) (s.ts - s.pwr.droopSince) 0

theorem avsStart_sends (s : State) (mv tries : Nat) (h : s.pwr.frozen = false) :
    s.avsStart mv tries = (s.withPwr (s.pwr.avsAt mv tries false)).emit (.avs s.avsRail mv) := by
  have hgo : s.avsStart mv tries = (s.withPwr (s.pwr.avsAt mv tries s.pwr.frozen)).emit (.avs s.avsRail mv) :=
    if_neg (show ¬ s.pwr.frozen = true by simp [h])
  rw [hgo, h]

theorem avsStart_waits (s : State) (mv tries : Nat) (h : s.pwr.frozen = true) :
    s.avsStart mv tries = s.withPwr (s.pwr.avsAt mv tries true) := by
  have hgo : s.avsStart mv tries = s.withPwr (s.pwr.avsAt mv tries s.pwr.frozen) := if_pos h
  rw [hgo, h]

/-- A level of the ramp less (R299). -/
def ramped (s : State) : State := s.start.withPwr { s.pwr with level := s.pwr.level - 1, frozen := s.pwr.level != 1 }

theorem exec_stretchRampStep (s : State) (hd : s.pwr.droop = false) (hl : 0 < s.pwr.level) : exec .stretchRampStep s = .next s.ramped.avsGo := by
  refine congrArg Host.Outcome.next (if_neg ?_)
  rw [show s.start.pwr = s.pwr from rfl, hd]
  simp only [Bool.false_eq_true, false_or]
  omega

theorem ramp_step (s : State) (hd : s.pwr.droop = false) (hl : 0 < s.pwr.level) :
    ∃ t, exec .stretchRampStep s = .next t ∧ t.pwr.level + 1 = s.pwr.level ∧ (t.pwr.frozen = false ↔ t.pwr.level = 0)
      ∧ (s.pwr.avsWait = true → t.pwr.level = 0 → t.pwr.avsWait = false ∧ t.outp = [.avs s.avsRail s.pwr.avsSet])
      ∧ (s.pwr.avsWait = false ∨ t.pwr.level ≠ 0 → t.pwr.avsWait = s.pwr.avsWait ∧ t.outp = [])
      ∧ (s.pwr.avsWait = true → s.pwr.avsBusy = true →
          t = { s.start with pwr := { s.pwr with level := t.pwr.level, frozen := t.pwr.frozen, avsWait := t.pwr.avsWait }, outp := t.outp })
      ∧ (s.pwr.avsWait = false →
          t = { s.start with pwr := { s.pwr with level := t.pwr.level, frozen := t.pwr.frozen } }) := by
  have hfrozen : s.ramped.pwr.frozen = (s.pwr.level != 1) := rfl
  have hexec := s.exec_stretchRampStep hd hl
  have hlevel : s.pwr.level - 1 + 1 = s.pwr.level := by omega
  have hone : (s.pwr.level != 1) = false ↔ s.pwr.level - 1 = 0 := by
    rw [bne_eq_false_iff_eq]
    omega
  by_cases hw : s.pwr.avsWait = true ∧ s.pwr.level = 1
  · obtain ⟨hwait, h1⟩ := hw
    have hgo : s.ramped.avsGo = (s.ramped.withPwr (s.ramped.pwr.avsAt s.pwr.avsSet s.pwr.avsTries false)).emit (.avs s.avsRail s.pwr.avsSet) :=
      (if_pos ⟨hwait, by rw [hfrozen, h1]; rfl⟩).trans (s.ramped.avsStart_sends _ _ (by rw [hfrozen, h1]; rfl))
    rw [hgo] at hexec
    refine ⟨_, hexec, hlevel, hone, fun _ _ => ⟨rfl, rfl⟩, fun h => absurd h ?_, fun _ hb => ?_, fun h => ?_⟩
    · rintro (h | h)
      · rw [hwait] at h
        cases h
      · exact h (show s.pwr.level - 1 = 0 by omega)
    · change _ = ((s.start.withPwr { s.pwr with level := s.pwr.level - 1, frozen := s.pwr.level != 1, avsWait := false }).emit
        (.avs s.avsRail s.pwr.avsSet))
      rw [Pwr.avsAt, ← hb]
      rfl
    · rw [hwait] at h
      cases h
  · have hgo : s.ramped.avsGo = s.ramped := by
      refine if_neg fun h => hw ⟨h.1, ?_⟩
      simpa [hfrozen] using h.2
    rw [hgo] at hexec
    refine ⟨_, hexec, hlevel, hone, fun h h0 => absurd ⟨h, ?_⟩ hw, fun _ => ⟨rfl, rfl⟩, fun _ _ => rfl, fun _ => rfl⟩
    change s.pwr.level - 1 = 0 at h0
    omega

/-! ### A slice start that waited -/

/-- What the start of slices keeps of the waiting start and of adaptation. -/
def sameDue (s t : State) : Prop := t.bst.startDue = s.bst.startDue ∧ t.pwr.adaptFrozen = s.pwr.adaptFrozen

theorem sameDue.trans {s t u : State} (h : s.sameDue t) (h' : t.sameDue u) : s.sameDue u := ⟨h'.1.trans h.1, h'.2.trans h.2⟩

theorem sameDue_refl (s : State) : s.sameDue s := ⟨rfl, rfl⟩

theorem sameDue_of {s t : State} (hb : t.bst = s.bst) (hp : t.pwr = s.pwr) : s.sameDue t := by rw [sameDue, hb, hp]; exact ⟨rfl, rfl⟩

theorem sameDue_modSlice (s : State) (k : SliceKind) (g : Slice → Slice) : s.sameDue (s.modSlice k g) := by
  cases k <;> exact ⟨rfl, rfl⟩

theorem sameDue_of_offHalt {s t : State} (h : t.offHalt = s.offHalt) : s.sameDue t :=
  sameDue_of (congrArg State.bst h : t.offHalt.bst = s.offHalt.bst) (congrArg State.pwr h : t.offHalt.pwr = s.offHalt.pwr)

theorem sameDue_skipSlice (s : State) (k : SliceKind) (t : Nat) : s.sameDue (s.skipSlice k t) := by
  have hvalid (u : State) : u.offHalt = (if k = .mem then u.setF Fld.bstFailMem_valid 0 else u).offHalt := by
    split
    · exact (offHalt_setF ..).symm
    · rfl
  unfold skipSlice
  dsimp only
  refine (sameDue_modSlice s k fun x => ({ x with target := t } : Slice).note .skipped).trans (sameDue_of_offHalt ?_)
  rw [offHalt_raise, offHalt_incF, offHalt_of_offFault (offFault_lastResult ..), ← hvalid]

theorem sameDue_modEng (s : State) (e : Nat) (g : Eng → Eng) : s.sameDue (s.modEng e g) := ⟨rfl, rfl⟩

theorem sameDue_queueWake (s : State) (p : Part) (cls : Nat) : s.sameDue (s.queueWake p cls) := by
  unfold queueWake
  dsimp only
  split <;> exact ⟨rfl, rfl⟩

theorem sameDue_startSlice (s : State) (k : SliceKind) (t : Nat) : s.sameDue (s.startSlice k t) := by
  cases k with
  | mem =>
    simp only [startSlice, startMem]
    split
    · exact sameDue_modSlice s .mem _
    · split
      · exact sameDue_skipSlice s .mem t
      · exact sameDue_modSlice s .mem _
  | eng =>
    simp only [startSlice, startEng]
    split
    · exact (sameDue_modEng s t _).trans (sameDue_modSlice _ .eng _)
    · split
      · exact sameDue_skipSlice s .eng t
      · exact ((sameDue_modEng s t _).trans (sameDue_modSlice _ .eng _)).trans
          ((sameDue_modEng _ _ _).trans (sameDue_queueWake _ _ _))

theorem sameDue_chooseTarget (s : State) (k : SliceKind) : s.sameDue (s.chooseTarget k).2 := by
  have hcycle (t : State) : t.sameDue (t.cycleEnds k) := by
    cases k
    · exact ⟨rfl, rfl⟩
    · exact sameDue_refl t
  have hwrap (b : Bool) : s.sameDue (if b then s.cycleEnds k else s) := by
    cases b
    · exact sameDue_refl s
    · exact hcycle s
  unfold chooseTarget
  split
  · exact sameDue_refl s
  · split
    · exact sameDue_refl s
    · exact (hwrap _).trans (sameDue_modSlice _ k _)

theorem sameDue_periodic (s : State) (k : SliceKind) : s.sameDue (s.periodic k) := by
  unfold periodic
  split
  · exact sameDue_refl s
  · dsimp only
    split
    · exact sameDue_chooseTarget s k
    · exact (sameDue_chooseTarget s k).trans (sameDue_startSlice _ k _)

/-- The slices of a period start, and no start waits any more. -/
theorem sliceStart_done (s : State) : s.sliceStart.bst.startDue = false ∧ s.sliceStart.pwr.adaptFrozen = s.pwr.adaptFrozen := by
  have hdone (t : State) (h : (s.modBst fun b => { b with startDue := false }).sameDue t) :
      t.bst.startDue = false ∧ t.pwr.adaptFrozen = s.pwr.adaptFrozen := h
  unfold sliceStart
  dsimp only
  split
  · exact ⟨rfl, rfl⟩
  · have hmem : (s.modBst fun b => { b with startDue := false }).sameDue
        (((s.modBst fun b => { b with startDue := false }).modBst fun b => { b with periods := b.periods + 1 }).periodic .mem) :=
      sameDue.trans (t := (s.modBst fun b => { b with startDue := false }).modBst fun b => { b with periods := b.periods + 1 }) ⟨rfl, rfl⟩
        (sameDue_periodic _ .mem)
    split
    · exact hdone _ (hmem.trans (sameDue_periodic _ .eng))
    · exact hdone _ hmem

/-! ### Wakes and parts -/

/-- A grant's registers: the count of wakes, and the longest wait. -/
theorem grantWake_grants (s : State) (x : Wake) (fromC0 : Bool) :
    (s.grantWake x fromC0).f Fld.pwrSlewCnt_wakes = sat Fld.pwrSlewCnt_wakes (s.f Fld.pwrSlewCnt_wakes + 1)
    ∧ s.onlyRegs (s.grantWake x fromC0) [(.pwrSlewCnt, 0), (.pwrSlewMaxwait, 0)] ∧ (s.grantWake x fromC0).offRegs
      = (s.withPwr { s.pwr with
          wakes := s.pwr.wakes.erase x, granted := s.pwr.granted ++ [x.part]
          c0Bucket := if fromC0 then s.pwr.c0Bucket - partCost x.part else s.pwr.c0Bucket
          genBucket := if fromC0 then s.pwr.genBucket else s.pwr.genBucket - partCost x.part }).offRegs := by
  unfold grantWake
  dsimp only
  generalize hw : (s.modPwr fun w => { w with
      wakes := w.wakes.erase x, granted := w.granted ++ [x.part]
      c0Bucket := if fromC0 then w.c0Bucket - partCost x.part else w.c0Bucket
      genBucket := if fromC0 then w.genBucket else w.genBucket - partCost x.part }) = u
  have hregs : u.regs = s.regs := by rw [← hw]; rfl
  have honly : s.onlyRegs u [(.pwrSlewCnt, 0), (.pwrSlewMaxwait, 0)] := onlyRegs_of_regs hregs _
  have hcnt : s.onlyRegs (u.incF Fld.pwrSlewCnt_wakes) [(.pwrSlewCnt, 0), (.pwrSlewMaxwait, 0)] := honly.incF (by decide) 1
  have hval : (u.incF Fld.pwrSlewCnt_wakes).f Fld.pwrSlewCnt_wakes = sat Fld.pwrSlewCnt_wakes (s.f Fld.pwrSlewCnt_wakes + 1) := by
    rw [f_incF_same _ (by decide), f_congr hregs]
    rfl
  have hwith : u = s.withPwr { s.pwr with
      wakes := s.pwr.wakes.erase x, granted := s.pwr.granted ++ [x.part]
      c0Bucket := if fromC0 then s.pwr.c0Bucket - partCost x.part else s.pwr.c0Bucket
      genBucket := if fromC0 then s.pwr.genBucket else s.pwr.genBucket - partCost x.part } := hw.symm
  rw [← hwith]
  have hmax (t : State) : (t.maxF Fld.pwrSlewMaxwait_wait (t.ts - x.since)).f Fld.pwrSlewCnt_wakes = t.f Fld.pwrSlewCnt_wakes :=
    f_maxF_ne t (x := Fld.pwrSlewMaxwait_wait) (by decide) _
  split
  · refine ⟨?_, (hcnt.incF (x := Fld.pwrSlewCnt_c0_wakes) (by decide) 1).maxF (by decide) _, ?_⟩
    · rw [hmax, f_incF_apart _ (x := Fld.pwrSlewCnt_c0_wakes) (y := Fld.pwrSlewCnt_wakes) (by decide) rfl (by decide), hval]
    · rw [offRegs_maxF, offRegs_incF, offRegs_incF]
  · refine ⟨?_, hcnt.maxF (by decide) _, ?_⟩
    · rw [hmax, hval]
    · rw [offRegs_maxF, offRegs_incF]

theorem exec_wakeGrant (s : State) (x : Wake) (hf : s.pwr.frozen = false) (hx : wakeHead s.pwr.wakes = some x) :
    exec .wakeGrant s = .next (if x.cls = 0 ∧ partCost x.part ≤ s.pwr.c0Bucket then s.start.grantWake x true
      else if partCost x.part ≤ s.pwr.genBucket then s.start.grantWake x false else s.start) := by
  change Host.Outcome.next (if s.pwr.frozen = true then s.start else match wakeHead s.pwr.wakes with | none => s.start | some x => _) = _
  rw [if_neg (by rw [hf]; decide), hx]
  rfl

/-- A grant from the bucket that serves the head of the queue (R302). -/
theorem wakeGrant_grants (s : State) (x : Wake) (hf : s.pwr.frozen = false) (hx : wakeHead s.pwr.wakes = some x)
    (hb : x.cls = 0 ∧ partCost x.part ≤ s.pwr.c0Bucket ∨ partCost x.part ≤ s.pwr.genBucket) :
    ∃ t, exec .wakeGrant s = .next t ∧ x.part ∈ t.pwr.granted ∧ t.pwr.wakes = s.pwr.wakes.erase x
      ∧ (if x.cls = 0 ∧ partCost x.part ≤ s.pwr.c0Bucket then
          t.pwr.c0Bucket + partCost x.part = s.pwr.c0Bucket ∧ t.pwr.genBucket = s.pwr.genBucket
        else t.pwr.genBucket + partCost x.part = s.pwr.genBucket ∧ t.pwr.c0Bucket = s.pwr.c0Bucket)
      ∧ t.pwr.pdBucket = s.pwr.pdBucket ∧ t.pwr.up = s.pwr.up
      ∧ t.f Fld.pwrSlewCnt_wakes = sat Fld.pwrSlewCnt_wakes (s.f Fld.pwrSlewCnt_wakes + 1)
      ∧ s.onlyRegs t [(.pwrSlewCnt, 0), (.pwrSlewMaxwait, 0)] ∧ t = { s.start with pwr := t.pwr, regs := t.regs } := by
  have hexec := s.exec_wakeGrant x hf hx
  have hmem : x.part ∈ s.pwr.granted ++ [x.part] := by simp
  by_cases hc : x.cls = 0 ∧ partCost x.part ≤ s.pwr.c0Bucket
  · rw [if_pos hc] at hexec
    obtain ⟨hcnt, hregs, hoff⟩ := s.start.grantWake_grants x true
    have heq := eq_of_offRegs hoff
    have hpwr := congrArg State.pwr heq
    generalize s.start.grantWake x true = t at *
    refine ⟨t, hexec, ?_⟩
    rw [hpwr, if_pos hc]
    refine ⟨hmem, rfl, ⟨Nat.sub_add_cancel hc.2, rfl⟩, rfl, rfl, hcnt, hregs, ?_⟩
    exact heq
  · have hgen : partCost x.part ≤ s.pwr.genBucket := hb.resolve_left hc
    rw [if_neg hc, if_pos hgen] at hexec
    obtain ⟨hcnt, hregs, hoff⟩ := s.start.grantWake_grants x false
    have heq := eq_of_offRegs hoff
    have hpwr := congrArg State.pwr heq
    generalize s.start.grantWake x false = t at *
    refine ⟨t, hexec, ?_⟩
    rw [hpwr, if_neg hc]
    refine ⟨hmem, rfl, ⟨Nat.sub_add_cancel hgen, rfl⟩, rfl, rfl, hcnt, hregs, ?_⟩
    exact heq

/-- A part that is up, and whose power-down is not queued. -/
theorem queueDown_queues (s : State) {p : Part} (hu : p ∈ s.pwr.up) (hd : p ∉ s.pwr.pd) :
    s.queueDown p = s.withPwr { s.pwr with pd := s.pwr.pd ++ [p] } := if_pos (by simp [hu, hd])

end State

/-- Settles O9: what each command comes to where its guard holds, and what a slice start keeps. -/
theorem droopFreezesAndRamps : Obligations.DroopFreezesAndRamps := by
  unfold Obligations.DroopFreezesAndRamps
  refine ⟨⟨fun s hm hl hd => s.exec_droopNAssert hm hl hd, fun s h => ⟨_, congrArg Host.Outcome.next (State.droopSeen_ignores _ h), rfl⟩,
    fun s hm hpin hd => s.exec_rootPllLock_heeds hm hpin hd⟩, fun s hd => s.exec_droopNRelease hd, fun s hd hl => s.ramp_step hd hl,
    fun s hd hs => ?_, fun s hd hs => ?_⟩
  · have hgo : ¬ s.pwr.droop = true := by simp [hd]
    have hnot : ¬ s.bst.startDue = true := by simp [hs]
    exact ⟨_, congrArg Host.Outcome.next ((if_neg hgo).trans (if_neg hnot)), rfl⟩
  · have hgo : ¬ s.pwr.droop = true := by simp [hd]
    obtain ⟨hdue, hfrozen⟩ := (s.start.modPwr fun w => { w with adaptFrozen := false }).sliceStart_done
    exact ⟨_, congrArg Host.Outcome.next ((if_neg hgo).trans (if_pos hs)), hfrozen, hdue⟩

/-- Settles O11: the grant's bucket, and the parts' three commands. -/
theorem wakesAndParts : Obligations.WakesAndParts := by
  unfold Obligations.WakesAndParts
  refine ⟨fun s x hf hx hb => s.wakeGrant_grants x hf hx hb, fun s p hp => ?_, fun s p ps hp hc => ?_, fun s e hm hi hr hc hu hd => ?_⟩
  · exact ⟨_, congrArg Host.Outcome.next (if_pos (by simpa using hp)), by simp [State.modPwr], rfl⟩
  · have hexec : exec .powerDown s = .next (s.start.withPwr { s.pwr with
        pd := ps, up := s.pwr.up.erase p, pdBucket := s.pwr.pdBucket - partCost p }) := by
      change Host.Outcome.next (match s.pwr.pd with | [] => s.start | p :: ps => if partCost p ≤ s.pwr.pdBucket then _ else _) = _
      rw [hp]
      exact congrArg Host.Outcome.next (if_pos hc)
    exact ⟨_, hexec, Nat.sub_add_cancel hc, rfl⟩
  · have hidle : (s.start.ctxsOf e.val).isEmpty = true := by
      simp only [State.ctxsOf, List.isEmpty_iff, List.filter_eq_nil_iff, State.start_ctxs]
      exact fun c hmem => by simp [hc c hmem]
    refine ⟨_, (congrArg Host.Outcome.next (if_pos ⟨hm, hi, hr, hidle⟩)).trans (congrArg Host.Outcome.next (s.start.queueDown_queues hu hd)), rfl⟩

end Sys2Proof.Machine
end

section
/-! PROOFS. Core voltage and temperature (R321, R322), ALIVE and liveness (R282, R283). -/

namespace Sys2Proof.Machine

theorem Pwr.avsAt_busy {w : Pwr} (h : w.avsBusy = true) (mv tries : Nat) (wait : Bool) :
    w.avsAt mv tries wait = { w with avsWait := wait, avsTries := tries, avsSet := mv } := by
  rw [Pwr.avsAt, ← h]

namespace State

theorem withPwr_regs (s : State) (w : Pwr) : (s.withPwr w).regs = s.regs := rfl

/-! ### Core voltage -/

theorem setpoint_mem (s : State) : 700 ≤ s.setpoint ∧ s.setpoint ≤ 800 := by
  unfold setpoint
  split <;> omega

theorem exec_avsWrite (s : State) (hm : s.mode ≠ .reset) (hl : s.mode ≠ .load) (hen : s.fb Fld.pwrAvsCfg_en = true) (hb : s.pwr.avsBusy = false)
    (hf : s.pwr.frozen = false) (hset : s.setpoint ≠ s.f Fld.pwrAvsStat_vset) :
    exec .avsWrite s = .next ((s.start.withPwr (s.pwr.avsAt s.setpoint 1 false)).emit (.avs s.avsRail s.setpoint)) := by
  have hgo : ¬ (s.mode = .reset ∨ s.mode = .load ∨ (!s.fb Fld.pwrAvsCfg_en) = true ∨ s.pwr.avsBusy = true ∨ s.pwr.frozen = true
      ∨ s.setpoint = s.f Fld.pwrAvsStat_vset) := by
    simp [hm, hl, hen, hb, hf, hset]
  exact congrArg Host.Outcome.next ((if_neg hgo).trans (s.start.avsStart_sends _ _ hf))

/-- A transaction that ends while one runs (R321). -/
theorem exec_avsTransactionDone (s : State) (ok : Bool) (vread : BitVec 16) (hb : s.pwr.avsBusy = true) (hw : s.pwr.avsWait = false) :
    exec (.avsTransactionDone ok vread) s = .next (if ok then
        ((s.start.setF Fld.pwrAvsStat_vset s.pwr.avsSet).setF Fld.pwrAvsV_vread vread.toNat).withPwr { s.pwr with avsBusy := false }
      else if s.pwr.avsTries < 3 then (s.start.incF Fld.pwrAvsStat_fail_cnt).avsStart s.pwr.avsSet (s.pwr.avsTries + 1)
      else (((s.start.incF Fld.pwrAvsStat_fail_cnt).setF Fld.pwrAvsStat_fail 1).withPwr { s.pwr with avsBusy := false }).raise 0x181) := by
  have hgo : ¬ ((!s.pwr.avsBusy) = true ∨ s.pwr.avsWait = true) := by simp [hb, hw]
  exact congrArg Host.Outcome.next (if_neg hgo)

theorem avsDone_accepts (s : State) (vread : BitVec 16) (hb : s.pwr.avsBusy = true) (hw : s.pwr.avsWait = false) (hset : s.pwr.avsSet < 2 ^ 16) :
    ∃ t, exec (.avsTransactionDone true vread) s = .next t ∧ t.f Fld.pwrAvsStat_vset = s.pwr.avsSet ∧ t.f Fld.pwrAvsV_vread = vread.toNat
      ∧ s.onlyFields t [(Fld.pwrAvsStat_vset, 0), (Fld.pwrAvsV_vread, 0)]
      ∧ t = { s.start with pwr := { s.pwr with avsBusy := false }, regs := t.regs } := by
  have hfields : s.onlyFields ((s.setF Fld.pwrAvsStat_vset s.pwr.avsSet).setF Fld.pwrAvsV_vread vread.toNat)
      [(Fld.pwrAvsStat_vset, 0), (Fld.pwrAvsV_vread, 0)] := by
    refine ((onlyFields.refl s _).setF ?_ ?_ ?_ _).setF ?_ ?_ ?_ _ <;> decide
  have hvset : ((s.setF Fld.pwrAvsStat_vset s.pwr.avsSet).setF Fld.pwrAvsV_vread vread.toNat).f Fld.pwrAvsStat_vset = s.pwr.avsSet := by
    have hwidth : 2 ^ (Fld.pwrAvsStat_vset.hi + 1 - Fld.pwrAvsStat_vset.lo) = 2 ^ 16 := rfl
    rw [f_setF_ne _ (by decide), f_setF_same _ (by decide), hwidth, Nat.mod_eq_of_lt hset]
  have hvread : ((s.setF Fld.pwrAvsStat_vset s.pwr.avsSet).setF Fld.pwrAvsV_vread vread.toNat).f Fld.pwrAvsV_vread = vread.toNat := by
    have hwidth : 2 ^ (Fld.pwrAvsV_vread.hi + 1 - Fld.pwrAvsV_vread.lo) = 2 ^ 16 := rfl
    rw [f_setF_same _ (by decide), hwidth, Nat.mod_eq_of_lt vread.isLt]
  exact ⟨_, s.exec_avsTransactionDone true vread hb hw, hvset, hvread, hfields.congr rfl, rfl⟩

theorem avsDone_retries (s : State) (vread : BitVec 16) (hb : s.pwr.avsBusy = true) (hw : s.pwr.avsWait = false) (ht : s.pwr.avsTries < 3) :
    ∃ t, exec (.avsTransactionDone false vread) s = .next t ∧ t.f Fld.pwrAvsStat_fail_cnt = sat Fld.pwrAvsStat_fail_cnt (s.f Fld.pwrAvsStat_fail_cnt + 1)
      ∧ s.onlyFields t [(Fld.pwrAvsStat_fail_cnt, 0)]
      ∧ t = { s.start with pwr := { s.pwr with avsTries := s.pwr.avsTries + 1, avsWait := s.pwr.frozen }, regs := t.regs
                           outp := if s.pwr.frozen then [] else [.avs s.avsRail s.pwr.avsSet] } := by
  have hexec := s.exec_avsTransactionDone false vread hb hw
  rw [if_neg (by decide), if_pos ht] at hexec
  have hfields : s.onlyFields (s.incF Fld.pwrAvsStat_fail_cnt) [(Fld.pwrAvsStat_fail_cnt, 0)] :=
    (onlyFields.refl s _).incF (by decide) (by decide) (by decide) 1
  have hcnt := f_incF_same s (x := Fld.pwrAvsStat_fail_cnt) (by decide) 0 1
  have hrail : (s.start.incF Fld.pwrAvsStat_fail_cnt).avsRail = s.avsRail := by
    unfold avsRail
    rw [f_incF_ne _ (by decide)]
    rfl
  have hpwr : (s.start.incF Fld.pwrAvsStat_fail_cnt).pwr = s.pwr := rfl
  cases hfz : s.pwr.frozen with
  | true =>
    rw [avsStart_waits (s.start.incF Fld.pwrAvsStat_fail_cnt) _ _ hfz] at hexec
    refine ⟨_, hexec, hcnt, hfields.congr rfl, ?_⟩
    rw [hpwr, Pwr.avsAt_busy hb]
    rfl
  | false =>
    rw [avsStart_sends (s.start.incF Fld.pwrAvsStat_fail_cnt) _ _ hfz, hrail] at hexec
    refine ⟨_, hexec, hcnt, hfields.congr rfl, ?_⟩
    rw [hpwr, Pwr.avsAt_busy hb]
    rfl

theorem avsDone_fails (s : State) (vread : BitVec 16) (hm : s.mode ≠ .reset) (hb : s.pwr.avsBusy = true) (hw : s.pwr.avsWait = false)
    (ht : 3 ≤ s.pwr.avsTries) :
    ∃ t, exec (.avsTransactionDone false vread) s = .next t ∧ t.pwr = { s.pwr with avsBusy := false }
      ∧ t.f Fld.pwrAvsStat_fail = 1 ∧ t.f Fld.pwrAvsStat_vset = s.f Fld.pwrAvsStat_vset
      ∧ t.f Fld.fltCntCe_count = sat Fld.fltCntCe_count (s.f Fld.fltCntCe_count + 1)
      ∧ t.mode = s.mode := by
  have hexec := s.exec_avsTransactionDone false vread hb hw
  rw [if_neg (by decide), if_neg (by omega)] at hexec
  generalize hu : ((s.start.incF Fld.pwrAvsStat_fail_cnt).setF Fld.pwrAvsStat_fail 1).withPwr { s.pwr with avsBusy := false } = u at hexec
  have hregs : u.regs = ((s.start.incF Fld.pwrAvsStat_fail_cnt).setF Fld.pwrAvsStat_fail 1).regs := by rw [← hu, withPwr_regs]
  have hmode : u.mode = s.mode := by rw [← hu]; rfl
  have hpwr : u.pwr = { s.pwr with avsBusy := false } := by rw [← hu]; rfl
  have hhalt : u.flt.haltNow = false := by rw [← hu]; rfl
  have honly := u.onlyBlocks_raise (src := 0x181) (by decide) 0 none none 0
  have hcounted := u.counted_raise (src := 0x181) (by rwa [hmode]) (by decide) 0 none none 0
  refine ⟨_, hexec, (raise_pwr ..).trans hpwr, ?_, ?_, ?_, ?_⟩
  · rw [honly.f_eq (x := Fld.pwrAvsStat_fail) (b := .pwr) (by decide) (by decide), f_congr hregs, f_setF_same _ (by decide)]
    rfl
  · rw [honly.f_eq (x := Fld.pwrAvsStat_vset) (b := .pwr) (by decide) (by decide), f_congr hregs,
      f_setF_apart _ (x := Fld.pwrAvsStat_fail) (y := Fld.pwrAvsStat_vset) (by decide) rfl (by decide),
      f_incF_apart _ (x := Fld.pwrAvsStat_fail_cnt) (y := Fld.pwrAvsStat_vset) (by decide) rfl (by decide), f_congr (start_regs s)]
  · rw [hcounted.2 (by decide), f_congr hregs, f_setF_ne _ (by decide), f_incF_ne _ (by decide), f_congr (start_regs s)]
  · exact (mode_of_offFault (u.offFault_raise (by decide) hhalt 0 none none 0)).1.trans hmode

/-! ### Temperature -/

theorem regOff_pwrTemp_inj {n m : Nat} (h : n ≠ m) : regOff .pwrTemp n ≠ regOff .pwrTemp m := by
  have hoff (k : Nat) : regOff .pwrTemp k = regOff .pwrTemp 0 + 4 * k := by
    simp only [regOff, RegId.row]
    omega
  rw [hoff n, hoff m]
  omega

/-- One reading that is not too hot (R322). -/
theorem readTemp_stores (s : State) (n : Nat) (b : Byte) (hb : b.toNat ≠ 0x80 → degrees b.toNat ≤ 105) :
    (s.readTemp n b.toNat).offRegs = s.offRegs ∧ s.onlyRegs (s.readTemp n b.toNat) [(.pwrTemp, n)]
    ∧ (b.toNat ≠ 0x80 → (s.readTemp n b.toNat).f Fld.pwrTemp_valid n = 1 ∧ (s.readTemp n b.toNat).f Fld.pwrTemp_temp n = b.toNat
        ∧ degrees ((s.readTemp n b.toNat).f Fld.pwrTemp_max n) = max (degrees (s.f Fld.pwrTemp_max n)) (degrees b.toNat))
    ∧ (b.toNat = 0x80 → (s.readTemp n b.toNat).f Fld.pwrTemp_valid n = 0 ∧ (s.readTemp n b.toNat).f Fld.pwrTemp_max n = s.f Fld.pwrTemp_max n) := by
  have h256 : b.toNat < 2 ^ 8 := b.isLt
  have hmem : ((RegId.pwrTemp, n) : RegId × Nat) ∈ [(RegId.pwrTemp, n)] := List.mem_singleton_self _
  by_cases h80 : b.toNat = 0x80
  · have heq : s.readTemp n b.toNat = s.setF Fld.pwrTemp_valid 0 n := if_pos h80
    rw [heq]
    refine ⟨offRegs_setF .., onlyRegs_setF s hmem 0, fun h => absurd h80 h, fun _ => ⟨?_, ?_⟩⟩
    · rw [f_setF_same _ (by decide)]
      rfl
    · rw [f_setF_apart _ (x := Fld.pwrTemp_valid) (y := Fld.pwrTemp_max) (by decide) rfl (by decide)]
  · have hcool : ¬ 105 < degrees b.toNat := by have := hb h80; omega
    generalize hv : (s.setF Fld.pwrTemp_valid 1 n).setF Fld.pwrTemp_temp b.toNat n = v
    have hoff : v.offRegs = s.offRegs := by rw [← hv, offRegs_setF, offRegs_setF]
    have honly : s.onlyRegs v [(.pwrTemp, n)] := by
      rw [← hv]
      exact (onlyRegs_setF s (x := Fld.pwrTemp_valid) hmem 1).setF hmem _
    have hvalid : v.f Fld.pwrTemp_valid n = 1 := by
      rw [← hv, f_setF_apart _ (x := Fld.pwrTemp_temp) (y := Fld.pwrTemp_valid) (by decide) rfl (by decide), f_setF_same _ (by decide)]
      rfl
    have htemp : v.f Fld.pwrTemp_temp n = b.toNat := by
      have hwidth : 2 ^ (Fld.pwrTemp_temp.hi + 1 - Fld.pwrTemp_temp.lo) = 2 ^ 8 := rfl
      rw [← hv, f_setF_same _ (by decide), hwidth, Nat.mod_eq_of_lt h256]
    have hmax : v.f Fld.pwrTemp_max n = s.f Fld.pwrTemp_max n := by
      rw [← hv, f_setF_apart _ (x := Fld.pwrTemp_temp) (y := Fld.pwrTemp_max) (by decide) rfl (by decide),
        f_setF_apart _ (x := Fld.pwrTemp_valid) (y := Fld.pwrTemp_max) (by decide) rfl (by decide)]
    have heq : s.readTemp n b.toNat = if degrees (v.f Fld.pwrTemp_max n) < degrees b.toNat then v.setF Fld.pwrTemp_max b.toNat n else v := by
      unfold readTemp
      rw [if_neg h80]
      dsimp only
      rw [hv, if_neg hcool]
    rw [heq, hmax]
    split
    · next hlt =>
      refine ⟨(offRegs_setF ..).trans hoff, honly.setF hmem _, fun _ => ⟨?_, ?_, ?_⟩, fun h => absurd h h80⟩
      · rw [f_setF_apart _ (x := Fld.pwrTemp_max) (y := Fld.pwrTemp_valid) (by decide) rfl (by decide), hvalid]
      · rw [f_setF_apart _ (x := Fld.pwrTemp_max) (y := Fld.pwrTemp_temp) (by decide) rfl (by decide), htemp]
      · have hwidth : 2 ^ (Fld.pwrTemp_max.hi + 1 - Fld.pwrTemp_max.lo) = 2 ^ 8 := rfl
        rw [f_setF_same _ (by decide), hwidth, Nat.mod_eq_of_lt h256]
        omega
    · next hge => exact ⟨hoff, honly, fun _ => ⟨hvalid, htemp, by rw [hmax]; omega⟩, fun h => absurd h h80⟩

/-- The readings of the sensors from one on, none too hot. -/
theorem readTemps_stores (bs : List Byte) (s : State) (n : Nat) (hlen : n + bs.length ≤ 8)
    (hcool : ∀ b ∈ bs, b.toNat ≠ 0x80 → degrees b.toNat ≤ 105) :
    (s.readTemps n bs).offRegs = s.offRegs ∧ s.onlyRegs (s.readTemps n bs) ((List.range bs.length).map fun i => (.pwrTemp, n + i))
    ∧ (∀ i b, bs[i]? = some b → b.toNat ≠ 0x80 →
        (s.readTemps n bs).f Fld.pwrTemp_valid (n + i) = 1 ∧ (s.readTemps n bs).f Fld.pwrTemp_temp (n + i) = b.toNat
        ∧ degrees ((s.readTemps n bs).f Fld.pwrTemp_max (n + i)) = max (degrees (s.f Fld.pwrTemp_max (n + i))) (degrees b.toNat))
    ∧ (∀ i b, bs[i]? = some b → b.toNat = 0x80 →
        (s.readTemps n bs).f Fld.pwrTemp_valid (n + i) = 0 ∧ (s.readTemps n bs).f Fld.pwrTemp_max (n + i) = s.f Fld.pwrTemp_max (n + i)) := by
  induction bs generalizing s n with
  | nil => exact ⟨rfl, onlyRegs.refl s _, fun i b h => by simp at h, fun i b h => by simp at h⟩
  | cons c cs ih =>
    rw [List.length_cons] at hlen
    have heq : s.readTemps n (c :: cs) = (s.readTemp n c.toNat).readTemps (n + 1) cs := if_pos (by omega)
    obtain ⟨hoff, honly, hgood, hnone⟩ := s.readTemp_stores n c (hcool c List.mem_cons_self)
    obtain ⟨hoff', honly', hgood', hnone'⟩ := ih (s.readTemp n c.toNat) (n + 1) (by omega) fun b hb => hcool b (List.mem_cons_of_mem _ hb)
    rw [heq]
    have hkeep (x : Fld) (hx : x.id = .pwrTemp) : ((s.readTemp n c.toNat).readTemps (n + 1) cs).f x n = (s.readTemp n c.toNat).f x n :=
      honly'.f_eq fun p hp => by
        obtain ⟨i, -, rfl⟩ := List.mem_map.mp hp
        rw [hx]
        exact regOff_pwrTemp_inj (by omega)
    have hlater (x : Fld) (hx : x.id = .pwrTemp) (i : Nat) : (s.readTemp n c.toNat).f x (n + 1 + i) = s.f x (n + 1 + i) :=
      honly.f_eq fun p hp => by
        obtain rfl := List.mem_singleton.mp hp
        rw [hx]
        exact regOff_pwrTemp_inj (by omega)
    have hidx (i : Nat) : n + (i + 1) = n + 1 + i := by omega
    refine ⟨hoff'.trans hoff, ?_, fun i b hi hb => ?_, fun i b hi hb => ?_⟩
    · refine (honly.mono ?_).trans (honly'.mono ?_)
      · exact fun p hp => List.mem_map.mpr ⟨0, by simp, by rw [List.mem_singleton.mp hp]; rfl⟩
      · intro p hp
        obtain ⟨i, hi, rfl⟩ := List.mem_map.mp hp
        exact List.mem_map.mpr ⟨i + 1, by simpa using hi, by rw [hidx]⟩
    · cases i with
      | zero =>
        obtain rfl : c = b := by simpa using hi
        simp only [Nat.add_zero]
        rw [hkeep Fld.pwrTemp_valid rfl, hkeep Fld.pwrTemp_temp rfl, hkeep Fld.pwrTemp_max rfl]
        exact hgood hb
      | succ i =>
        rw [hidx i, ← hlater Fld.pwrTemp_max rfl]
        exact hgood' i b (by simpa using hi) hb
    · cases i with
      | zero =>
        obtain rfl : c = b := by simpa using hi
        simp only [Nat.add_zero]
        rw [hkeep Fld.pwrTemp_valid rfl, hkeep Fld.pwrTemp_max rfl]
        exact hnone hb
      | succ i =>
        rw [hidx i, ← hlater Fld.pwrTemp_max rfl]
        exact hnone' i b (by simpa using hi) hb

theorem updateLowT_eq (s : State) : s.updateLowT = s.withPwr { s.pwr with lowT := s.updateLowT.pwr.lowT } := by
  unfold updateLowT
  split
  · rfl
  · dsimp only
    split_ifs <;> rfl

/-- A reading leaves the bridge in its mode or in HALT, and one that is too hot in HALT. -/
theorem readTemp_mode (s : State) (hm : s.mode ≠ .reset) (n b : Nat) :
    ((s.readTemp n b).mode = s.mode ∨ (s.readTemp n b).mode = .halt) ∧ (b ≠ 0x80 → 105 < degrees b → (s.readTemp n b).mode = .halt) := by
  unfold readTemp
  split
  · next h => exact ⟨.inl (setF_mode ..), fun h' => absurd h h'⟩
  · dsimp only
    have hmode (u : State) (h : u.mode = s.mode) : ((if 105 < degrees b then u.raise 0x182 n else u).mode = s.mode
        ∨ (if 105 < degrees b then u.raise 0x182 n else u).mode = .halt)
        ∧ (b ≠ 0x80 → 105 < degrees b → (if 105 < degrees b then u.raise 0x182 n else u).mode = .halt) := by
      have hfatal : (u.raise 0x182 n).mode = .halt := u.raise_halts n none none 0 (by rwa [h]) (by decide)
      split
      · exact ⟨.inr hfatal, fun _ _ => hfatal⟩
      · next hcool => exact ⟨.inl h, fun _ h' => absurd h' hcool⟩
    refine hmode _ ?_
    split
    · rw [setF_mode, setF_mode, setF_mode]
    · rw [setF_mode, setF_mode]

theorem readTemps_mode (bs : List Byte) (s : State) (hm : s.mode ≠ .reset) (n : Nat) (hlen : n + bs.length ≤ 8) :
    ((s.readTemps n bs).mode = s.mode ∨ (s.readTemps n bs).mode = .halt)
    ∧ ((∃ b ∈ bs, b.toNat ≠ 0x80 ∧ 105 < degrees b.toNat) → (s.readTemps n bs).mode = .halt) := by
  induction bs generalizing s n with
  | nil => exact ⟨.inl rfl, fun ⟨b, hb, _⟩ => nomatch hb⟩
  | cons c cs ih =>
    rw [List.length_cons] at hlen
    have heq : s.readTemps n (c :: cs) = (s.readTemp n c.toNat).readTemps (n + 1) cs := if_pos (by omega)
    obtain ⟨hmode, hhot⟩ := s.readTemp_mode hm n c.toNat
    have hnot : (s.readTemp n c.toNat).mode ≠ .reset := by
      rcases hmode with h | h <;> rw [h]
      · exact hm
      · decide
    obtain ⟨hmode', hhot'⟩ := ih (s.readTemp n c.toNat) hnot (n + 1) (by omega)
    rw [heq]
    refine ⟨?_, fun ⟨b, hb, h80, h105⟩ => ?_⟩
    · rcases hmode' with h | h
      · rw [h]
        exact hmode
      · exact .inr h
    · rcases List.mem_cons.mp hb with rfl | hb
      · have h := hhot h80 h105
        rcases hmode' with h' | h'
        · rw [h', h]
        · exact h'
      · exact hhot' ⟨b, hb, h80, h105⟩

theorem exec_tempSensorUpdate (s : State) (x : List Byte) (hm : s.mode ≠ .reset) :
    exec (.tempSensorUpdate x) s = .next (s.start.readTemps 0 x).updateLowT := congrArg Host.Outcome.next (if_neg hm)

/-! ### ALIVE and liveness -/

theorem aliveRun_enterHalt (s : State) (h : s.mode ≠ .halt) : s.enterHalt.flt.aliveRun = false := by
  unfold enterHalt
  rw [if_neg h]
  rfl

/-- A fatal source of a command that was not yet fatal stops ALIVE (R282). -/
theorem raise_stopsAlive (s : State) {src : Nat} (hc : srcClass src = 3) (hm : s.mode ≠ .reset) (hh : s.mode ≠ .halt) (unit : Nat)
    (inst je : Option Nat) (detail : Nat) : (s.raise src unit inst je detail).flt.aliveRun = false := by
  have hmode : ((s.noteFault src).capture src (syndrome unit inst je detail)).mode = s.mode :=
    (mode_of_offFault ((offFault_capture _ _ _).trans (s.offFault_noteFault src))).1
  generalize hcap : (s.noteFault src).capture src (syndrome unit inst je detail) = c at hmode
  have hact : (c.classAct src (syndrome unit inst je detail) inst).flt.aliveRun = false := by
    have hne : ¬ (c.incF Fld.fltCntFt_count).mode = .halt := by rw [incF_mode, hmode]; exact hh
    simp only [classAct, hc, if_neg hne]
    refine aliveRun_enterHalt _ ?_
    rw [haltRecord_mode]
    exact hne
  rw [raise_eq s src unit inst je detail hm, hcap]
  split
  · exact hact
  · exact hact

end State

/-- Settles O12: the four ends of a transaction, and the readings by induction along the sensors. -/
theorem voltageAndTemperature : Obligations.VoltageAndTemperature := by
  unfold Obligations.VoltageAndTemperature
  refine ⟨⟨fun s hm hl hen hb hf hset => ⟨_, s.exec_avsWrite hm hl hen hb hf hset, s.setpoint_mem.1, s.setpoint_mem.2, rfl⟩,
    fun s v hb hw hset => s.avsDone_accepts v hb hw hset, fun s v hb hw ht => s.avsDone_retries v hb hw ht,
    fun s v hm hb hw ht => s.avsDone_fails v hm hb hw ht⟩, fun s x hm hlen hcool => ?_, fun s x hm hlen hhot => ?_⟩
  · obtain ⟨hoff, honly, hgood, hnone⟩ := State.readTemps_stores x s.start 0 (by omega) hcool
    simp only [Nat.zero_add] at hgood hnone honly
    have hlow := (s.start.readTemps 0 x).updateLowT_eq
    have heq := State.eq_of_offRegs hoff
    rw [hlen] at honly
    refine ⟨_, s.exec_tempSensorUpdate x hm, ?_, ?_, ?_, ?_, ?_⟩
    all_goals generalize s.start.readTemps 0 x = t at *
    · rw [hlow, State.withPwr]
      exact (congrArg State.mode hoff : t.offRegs.mode = s.start.offRegs.mode)
    · rw [hlow]
      exact hgood
    · rw [hlow]
      exact hnone
    · rw [hlow]
      exact honly.congr rfl
    · generalize t.updateLowT.pwr.lowT = b at hlow
      rw [hlow, heq]
      rfl
  · refine ⟨_, s.exec_tempSensorUpdate x hm, ?_⟩
    rw [State.updateLowT_eq]
    exact (State.readTemps_mode x s.start hm 0 (by omega)).2 hhot

/-- Settles O15: the commands' guards, and what a fatal source does to mode, power and ALIVE. -/
theorem aliveAndLiveness : Obligations.AliveAndLiveness := by
  unfold Obligations.AliveAndLiveness
  have hworks (s : State) (hm : s.mode ≠ .reset) (hh : s.mode ≠ .halt) : s.works = true := by simp [State.works, hm, hh]
  have hgo (s : State) (hm : s.mode ≠ .reset) (hh : s.mode ≠ .halt) : ¬ (!s.start.works) = true := by
    rw [show s.start.works = s.works from rfl, hworks s hm hh]
    decide
  refine ⟨fun s h => ⟨_, congrArg Host.Outcome.next (if_pos h), rfl, rfl, rfl⟩,
    fun s hm hh => ⟨_, congrArg Host.Outcome.next (if_pos (hworks s hm hh)), rfl⟩, fun s hm hh => ?_, fun s hm hh => ?_, fun s hm hr => ?_⟩
  · have hfields : s.onlyFields (s.start.incF Fld.fltAlive_misses 0 2) [(Fld.fltAlive_misses, 0)] :=
      (State.onlyFields_of_regs rfl _).incF (by decide) (by decide) (by decide) 2
    exact ⟨_, congrArg Host.Outcome.next (if_neg (hgo s hm hh)), rfl, rfl, State.f_incF_same s (x := Fld.fltAlive_misses) (by decide) 0 2,
      hfields.congr rfl, rfl⟩
  · have hexec : exec (.livenessTimeout true) s
        = .next (((s.start.incF Fld.fltAlive_misses 0 2).modFlt fun f => { f with aliveRun := false }).raise 0x183) :=
      congrArg Host.Outcome.next (if_neg (hgo s hm hh))
    have hmode : ((s.start.incF Fld.fltAlive_misses 0 2).modFlt fun f => { f with aliveRun := false }).mode = s.mode := rfl
    refine ⟨_, hexec, ?_⟩
    generalize (s.start.incF Fld.fltAlive_misses 0 2).modFlt (fun f => { f with aliveRun := false }) = u at hmode
    rw [← hmode] at hm hh
    exact ⟨u.raise_halts 0 none none 0 hm (by decide), u.raise_stopsAlive (by decide) hm hh 0 none none 0⟩
  · have hexec : exec .rootPllLockLoss s = .next ((s.start.withPwr { s.pwr with rootLock := false }).raise 0x180) :=
      congrArg Host.Outcome.next (if_pos hr)
    exact ⟨_, hexec, State.raise_halts _ 0 none none 0 hm (by decide),
      congrArg Pwr.rootLock (State.raise_pwr (s.start.withPwr { s.pwr with rootLock := false }) 0x180 0 none none 0)⟩

end Sys2Proof.Machine
end

section
/-! PROOFS. The registers of the gates (R248): a keyed pair of GATE_DEFMAP that is completed in rescue SERVICE is not stored. -/

namespace Sys2Proof.Machine

namespace State

/-- The state right after reset, but in rescue SERVICE (R350), where the gates allow everything. -/
def inRescue : State := { mode := .service, pwr := { rescue := true } }

/-- What GATE_DEFMAP[3] holds after a step. -/
def defmapAfter : Host.Outcome State Fault Refusal → Option Word
  | .next t => some (t.reg .gateDefmap 3)
  | _ => none

theorem defmapAfter_gateDefmap_inRescue :
    defmapAfter (exec (.gateDefmap { src := .svc } 3 1 (~~~1)) inRescue) = some (inRescue.reg .gateDefmap 3) := by
  decide +kernel

end State

/-- Refutes O49: in rescue SERVICE the good pair of GATE_DEFMAP goes, but `keyEffect` leaves the register at its reset value. -/
theorem not_gateRegisters : ¬ Obligations.GateRegisters := by
  intro h
  obtain ⟨t, hexec, hreg, _⟩ := h.1 State.inRescue { src := .svc } 3 1 (~~~1) (by decide +kernel)
  have hafter := State.defmapAfter_gateDefmap_inRescue
  rw [hexec] at hafter
  have hkept : t.reg .gateDefmap 3 = State.inRescue.reg .gateDefmap 3 := Option.some.inj hafter
  exact absurd (hkept.symm.trans hreg) (by decide +kernel)

end Sys2Proof.Machine
end

section
/-! PROOFS. Messages (R51, R64, R65): what leaves the ingress, and what WAKE, PLACE and the others then do. -/

namespace Sys2Proof.Machine

namespace State

/-- The state in which a packet has left a link's ingress and its credits wait to be returned. -/
def taken (s : State) (l : Nat) (p : Packet) : State := (s.start.takeIn l p).giveCredits l p

theorem taken_took (s : State) (l : Nat) (p : Packet) : s.took (s.taken l p) l p := by
  refine ⟨?_, sameLinksBut.trans (s := s) (sameLinksBut_modLink s.start l _) (sameLinksBut_modLink (s.start.takeIn l p) l _)⟩
  rw [taken, giveCredits, link_modLink_same, takeIn_link]
  rfl

theorem took_of_links {s t u : State} {l : Nat} {p : Packet} (h : s.took t l p) (hl : u.links = t.links) : s.took u l p :=
  ⟨(link_congr hl l).trans h.1, h.2.trans (sameLinksBut_of_links hl l)⟩

/-- A message whose packet has left the ingress. -/
def msgTaken (u : State) (l : Nat) (h : MsgHdr) (body : List Byte) : State :=
  if 8 < h.len.toNat ∨ !h.priv ∨ (h.code ≠ 2 ∧ h.code ≠ 3) then u.rxBad l Fld.tlkRxErr_bad_msg
  else if h.code = 3 then u.placeBcs l h body
  else if u.mode = .halt then u
  else u.exitSeen 4 0

theorem msgRecv_flows (s : State) {l : Nat} {h : MsgHdr} {body : List Byte} (hm : s.mode ≠ .reset) (hf : (s.link l).flows = true) :
    s.start.msgRecv l h body = (s.taken l (.msg h body)).msgTaken l h body := by
  have hf' : (s.start.link l).flows = true := hf
  exact if_neg (by simp [hf', hm])

theorem msgTaken_wake (u : State) {l : Nat} {h : MsgHdr} {body : List Byte} (hlen : h.len.toNat ≤ 8) (hp : h.priv = true) (hc : h.code = 2) :
    u.msgTaken l h body = if u.mode = .halt then u else u.exitSeen 4 0 := by
  have hlen' : ¬ 8 < h.len.toNat := by omega
  simp [msgTaken, hlen', hp, hc]

theorem msgTaken_place (u : State) {l : Nat} {h : MsgHdr} {body : List Byte} (hlen : h.len.toNat ≤ 8) (hp : h.priv = true) (hc : h.code = 3) :
    u.msgTaken l h body = u.placeBcs l h body := by
  have hlen' : ¬ 8 < h.len.toNat := by omega
  simp [msgTaken, hlen', hp, hc]

/-! ### WAKE -/

theorem onlyFields.onlyRegs {s t : State} {xs : List (Fld × Nat)} (h : s.onlyFields t xs) : s.onlyRegs t (xs.map fun p => (p.1.id, p.2)) :=
  fun k hk => h.1 k fun p hp => hk _ (List.mem_map_of_mem hp)

theorem wakeMsg_exits (s : State) (l : Nat) (h : MsgHdr) (body : List Byte) (hm : s.mode ≠ .reset) (hf : (s.link l).flows = true)
    (hlen : h.len.toNat ≤ 8) (hp : h.priv = true) (hc : h.code = 2) (hd : s.mode = .doze) :
    s.start.msgRecv l h body = (s.taken l (.msg h body)).exitSeen 4 0 := by
  have hmt : (s.taken l (.msg h body)).mode = .doze := hd
  rw [msgRecv_flows s hm hf, msgTaken_wake _ hlen hp hc, if_neg (by simp [hmt])]

theorem wakeMsg_idle (s : State) (l : Nat) (h : MsgHdr) (body : List Byte) (hm : s.mode ≠ .reset) (hf : (s.link l).flows = true)
    (hlen : h.len.toNat ≤ 8) (hp : h.priv = true) (hc : h.code = 2) (hd : s.mode ≠ .doze) (hph : ¬(s.mode = .run ∧ s.phase = .entering)) :
    s.start.msgRecv l h body = s.taken l (.msg h body) := by
  have hnot : ¬ (s.mode = .doze ∧ s.phase = .steady) := fun hx => hd hx.1
  have hseen : (s.taken l (.msg h body)).exitSeen 4 0 = s.taken l (.msg h body) := (if_neg hnot).trans (if_neg hph)
  rw [msgRecv_flows s hm hf, msgTaken_wake _ hlen hp hc, hseen, ite_self]

/-! ### PLACE -/

/-- The state with the base and the bridge ID set (R65). -/
def placedAt (s : State) (lo hi id : Nat) : State :=
  (((s.setF Fld.tlkBcsBaseLo_base_lo lo).setF Fld.tlkBcsBaseHi_base_hi hi).setF Fld.tlkBcsBaseLo_placed 1).setF Fld.tlkBridgeId_id id

theorem placedAt_places (s : State) {lo hi id : Nat} (hlo : lo < 2 ^ 6) (hhi : hi < 2 ^ 24) (hid : id < 2 ^ 20) :
    (s.placedAt lo hi id).fb Fld.tlkBcsBaseLo_placed = true ∧ (s.placedAt lo hi id).f Fld.tlkBcsBaseLo_base_lo = lo
    ∧ (s.placedAt lo hi id).f Fld.tlkBcsBaseHi_base_hi = hi ∧ (s.placedAt lo hi id).f Fld.tlkBridgeId_id = id
    ∧ s.onlyRegs (s.placedAt lo hi id) [(.tlkBcsBaseLo, 0), (.tlkBcsBaseHi, 0), (.tlkBridgeId, 0)]
    ∧ (s.placedAt lo hi id).offRegs = s.offRegs := by
  refine ⟨?_, ?_, ?_, ?_, ?_, ?_⟩
  · simp (disch := decide) only [fb, placedAt, f_setF_ne, f_setF_same]
    rfl
  · simp (disch := decide) only [placedAt, f_setF_ne, f_setF_apart, f_setF_same]
    exact Nat.mod_eq_of_lt hlo
  · simp (disch := decide) only [placedAt, f_setF_ne, f_setF_same]
    exact Nat.mod_eq_of_lt hhi
  · simp (disch := decide) only [placedAt, f_setF_same]
    exact Nat.mod_eq_of_lt hid
  · refine ((((onlyRegs.refl s _).setF ?_ _).setF ?_ _).setF ?_ _).setF ?_ _ <;> decide
  · simp only [placedAt, offRegs_setF]

theorem bits_lt (hi lo w : Nat) : bits hi lo w < 2 ^ (hi + 1 - lo) := Nat.mod_lt _ (Nat.two_pow_pos _)

theorem placeBcs_first (s : State) (l : Nat) (h : MsgHdr) (body : List Byte) (hp : s.fb Fld.tlkBcsBaseLo_placed = false) :
    s.placeBcs l h body = s.placedAt (bits 31 26 (fieldAt 0 8 body)) (bits 55 32 (fieldAt 0 8 body)) (h.arg.toNat % 2 ^ 20) :=
  if_neg (by simp [hp])

theorem placeBcs_again (s : State) (l : Nat) (h : MsgHdr) (body : List Byte) (hp : s.fb Fld.tlkBcsBaseLo_placed = true)
    (hsame : s.f Fld.tlkBcsBaseLo_base_lo = bits 31 26 (fieldAt 0 8 body) ∧ s.f Fld.tlkBcsBaseHi_base_hi = bits 55 32 (fieldAt 0 8 body)
      ∧ s.f Fld.tlkBridgeId_id = h.arg.toNat % 2 ^ 20) : s.placeBcs l h body = s := by
  rw [placeBcs, if_pos hp]
  exact if_pos hsame

theorem placeBcs_other (s : State) (l : Nat) (h : MsgHdr) (body : List Byte) (hp : s.fb Fld.tlkBcsBaseLo_placed = true)
    (hid : s.f Fld.tlkBridgeId_id ≠ h.arg.toNat % 2 ^ 20) :
    s.placeBcs l h body = (s.lockViol (regOff .tlkBcsBaseLo 0)).rxBad l Fld.tlkRxErr_bad_msg := by
  rw [placeBcs, if_pos hp]
  exact if_neg fun hsame => hid hsame.2.2

/-- A counted reception error leaves the registers alone that are neither RX_ERR nor of FLT. -/
theorem rxBad_reg (s : State) (l : Nat) {x : Fld} (hid : x.id = .tlkRxErr) {id : RegId} {i : Nat} {b : Block} (hb : blockAt (regOff id i) = some b)
    (hf : b ≠ .flt) (hne : regOff id i ≠ regOff .tlkRxErr l) : (s.rxBad l x).reg id i = s.reg id i := by
  have hraise := (s.incF x l).onlyBlocks_raise (src := 0x020) (by decide) l none none 0
  rw [rxBad, hraise.reg_eq hb (by simpa using hf)]
  exact (onlyRegs_incF s (x := x) (List.mem_singleton_self _) 1).reg_eq fun p hp => by
    rw [List.mem_singleton.mp hp, hid]
    exact hne.symm

/-- A PLACE that differs is recorded as a violation, and nothing of it is taken over. -/
theorem place_recorded (s : State) {l : Nat} (hl : l < 2) (hm : s.mode ≠ .reset) (hmute : s.mute 0x020 = true) (hn : s.flt.haltNow = false) :
    ((s.lockViol (regOff .tlkBcsBaseLo 0)).rxBad l Fld.tlkRxErr_bad_msg).f Fld.updLockStatus_reglock_viol = 1
    ∧ ((s.lockViol (regOff .tlkBcsBaseLo 0)).rxBad l Fld.tlkRxErr_bad_msg).f Fld.updLockAddr_offset = regOff .tlkBcsBaseLo 0
    ∧ ((s.lockViol (regOff .tlkBcsBaseLo 0)).rxBad l Fld.tlkRxErr_bad_msg).f Fld.updLockStatus_viol_cnt
      = sat Fld.updLockStatus_viol_cnt (s.f Fld.updLockStatus_viol_cnt + 1)
    ∧ ((s.lockViol (regOff .tlkBcsBaseLo 0)).rxBad l Fld.tlkRxErr_bad_msg).f Fld.tlkRxErr_bad_msg l
      = sat Fld.tlkRxErr_bad_msg (s.f Fld.tlkRxErr_bad_msg l + 1)
    ∧ s.counted ((s.lockViol (regOff .tlkBcsBaseLo 0)).rxBad l Fld.tlkRxErr_bad_msg) 0x020
    ∧ (∀ id ∈ [RegId.tlkBcsBaseLo, .tlkBcsBaseHi, .tlkBridgeId],
        ((s.lockViol (regOff .tlkBcsBaseLo 0)).rxBad l Fld.tlkRxErr_bad_msg).reg id = s.reg id)
    ∧ s.onlyBlocks ((s.lockViol (regOff .tlkBcsBaseLo 0)).rxBad l Fld.tlkRxErr_bad_msg) [.tlk, .flt, .upd]
    ∧ ((s.lockViol (regOff .tlkBcsBaseLo 0)).rxBad l Fld.tlkRxErr_bad_msg).links = s.links
    ∧ (s.lockViol (regOff .tlkBcsBaseLo 0)).rxBad l Fld.tlkRxErr_bad_msg
      = { s with regs := ((s.lockViol (regOff .tlkBcsBaseLo 0)).rxBad l Fld.tlkRxErr_bad_msg).regs
                 flt := ((s.lockViol (regOff .tlkBcsBaseLo 0)).rxBad l Fld.tlkRxErr_bad_msg).flt } := by
  obtain ⟨hviol, haddr, hcnt, honly, hoff⟩ := s.lockViol_records (off := regOff .tlkBcsBaseLo 0) (by decide)
  have hwith := eq_of_offRegs hoff
  have hupd : s.onlyBlocks (s.lockViol (regOff .tlkBcsBaseLo 0)) [.upd] := by
    refine ((((onlyBlocks.refl s _).setF (x := Fld.updLockStatus_reglock_viol) (b := .upd) (by decide) (by decide) 1).incF
      (x := Fld.updLockStatus_viol_cnt) (b := .upd) (by decide) (by decide) 1).setF (x := Fld.updLockAddr_offset) (b := .upd) (by decide) (by decide) _)
  have hkept (id : RegId) (i : Nat) (hb : blockAt (regOff id i) = some .tlk) :
      (s.lockViol (regOff .tlkBcsBaseLo 0)).reg id i = s.reg id i := hupd.reg_eq hb (by decide)
  generalize s.lockViol (regOff .tlkBcsBaseLo 0) = u at hviol haddr hcnt hoff hwith hupd hkept ⊢
  have hmu : u.mode ≠ .reset := by rw [hwith]; exact hm
  have hflt : u.flt = s.flt := by rw [hwith]
  have hmuteu : u.mute 0x020 = true := by rw [mute, hflt]; exact hmute
  have hbad := u.rxBad_counts hl hmu hmuteu (by rw [hflt]; exact hn) (x := Fld.tlkRxErr_bad_msg) rfl (by decide)
  have hsame (x : Fld) (hb : blockAt (regOff x.id 0) = some .upd) : (u.rxBad l Fld.tlkRxErr_bad_msg).f x = u.f x :=
    hbad.only.f_eq hb (by decide)
  obtain ⟨hsrc, hce⟩ := hbad.counted
  have hrx : u.f Fld.tlkRxErr_bad_msg l = s.f Fld.tlkRxErr_bad_msg l := by
    rw [f, f]
    exact congrArg (fun w : Word => bits _ _ w.toNat) (hkept .tlkRxErr l (blockAt_tlkRxErr hl))
  refine ⟨(hsame _ (by decide)).trans hviol, (hsame _ (by decide)).trans haddr, (hsame _ (by decide)).trans hcnt, ?_, ⟨?_, fun h => ?_⟩,
    fun id hid => ?_, (hupd.mono (by decide)).trans (hbad.only.mono (by decide)), ?_, ?_⟩
  · rw [hbad.count, hrx]
  · rw [hsrc, hflt]
  · rw [hce h, hupd.f_eq (x := Fld.fltCntCe_count) (b := .flt) (by decide) (by decide)]
  · have hne : ∀ id ∈ [RegId.tlkBcsBaseLo, .tlkBcsBaseHi, .tlkBridgeId], blockAt (regOff id 0) = some .tlk
        ∧ ∀ l < 2, regOff id 0 ≠ regOff .tlkRxErr l := by decide
    obtain ⟨hblock, hother⟩ := hne id hid
    exact (u.rxBad_reg l rfl hblock (by decide) (hother l hl)).trans (hkept id 0 hblock)
  · rw [hbad.links, hwith]
  · have heq := eq_of_offFault hbad.off
    rw [hbad.links, hbad.outp] at heq
    rw [heq, hwith]

/-! ### The claim -/

theorem msgs_received (s : State) (l : Fin 2) (h : MsgHdr) (body : List Byte) : exec (.wakeMsg l h body) s = .next (s.start.msgRecv l.val h body)
    ∧ exec (.place l h body) s = .next (s.start.msgRecv l.val h body) ∧ exec (.badMsg l h body) s = .next (s.start.msgRecv l.val h body) :=
  ⟨rfl, rfl, rfl⟩

/-- The state of a packet that has been taken, with what happened then to registers alone. -/
theorem regs_of_taken {s t : State} {l : Nat} {p : Packet} (h : t.offRegs = (s.taken l p).offRegs) :
    s.took t l p ∧ t = { s.start with links := t.links, regs := t.regs } := by
  have heq := eq_of_offRegs h
  have hl : t.links = (s.taken l p).links := (congrArg State.links h : t.offRegs.links = (s.taken l p).offRegs.links)
  refine ⟨took_of_links (s.taken_took l p) hl, ?_⟩
  rw [hl]
  exact heq

end State

/-- Settles O33: `msgRecv` by its code, and `placeBcs` by what has been placed. -/
theorem messagesReceived : Obligations.MessagesReceived := by
  intro s l h body hm hf hlen
  obtain ⟨hwake, hplace, hbad⟩ := s.msgs_received l h body
  rw [hwake, hplace, hbad]
  refine ⟨fun hp hc hd hph => ?_, fun hp hc hd hph => ?_, fun hp hc hpl => ?_, fun hp hc hpl hlo hhi hid => ?_, fun hp hc hpl hid hmute => ?_,
    fun hk hmute => ?_⟩
  · obtain ⟨hcause, -, honly, heq⟩ := (s.taken l.val (.msg h body)).exitSeen_doze hd hph (cause := 4) (rule := 0) (by decide) (by decide)
    have hlinks : ((s.taken l.val (.msg h body)).exitSeen 4 0).links = (s.taken l.val (.msg h body)).links := by rw [heq]
    have hphase : ((s.taken l.val (.msg h body)).exitSeen 4 0).phase = .exiting := by rw [heq]
    refine ⟨_, congrArg _ (s.wakeMsg_exits l.val h body hm hf hlen hp hc hd), hphase, hcause,
      State.took_of_links (s.taken_took _ _) hlinks, honly.onlyRegs.mono (by decide), ?_⟩
    rw [hlinks]
    exact heq
  · exact ⟨_, congrArg _ (s.wakeMsg_idle l.val h body hm hf hlen hp hc hd hph), s.taken_took _ _, rfl⟩
  · obtain ⟨hplaced, hlo, hhi, hid, honly, hoff⟩ := (s.taken l.val (.msg h body)).placedAt_places (State.bits_lt 31 26 (fieldAt 0 8 body))
      (State.bits_lt 55 32 (fieldAt 0 8 body)) (Nat.mod_lt h.arg.toNat (Nat.two_pow_pos 20))
    obtain ⟨htook, heq⟩ := State.regs_of_taken hoff
    rw [State.msgRecv_flows s hm hf, State.msgTaken_place _ hlen hp hc, State.placeBcs_first (s.taken l.val (.msg h body)) _ _ _ hpl]
    exact ⟨_, rfl, hplaced, hlo, hhi, hid, htook, honly, heq⟩
  · rw [State.msgRecv_flows s hm hf, State.msgTaken_place _ hlen hp hc, State.placeBcs_again (s.taken l.val (.msg h body)) _ _ _ hpl ⟨hlo, hhi, hid⟩]
    exact ⟨_, rfl, s.taken_took _ _, rfl⟩
  · obtain ⟨hviol, haddr, hcnt, hbad, hcounted, hkept, honly, hlinks, heq⟩ :=
      (s.taken l.val (.msg h body)).place_recorded l.isLt hm hmute rfl
    rw [State.msgRecv_flows s hm hf, State.msgTaken_place _ hlen hp hc, State.placeBcs_other (s.taken l.val (.msg h body)) _ _ _ hpl hid]
    refine ⟨_, rfl, State.took_of_links (s.taken_took _ _) hlinks, hviol, haddr, hcnt, hbad, hcounted, hkept _ (by decide), hkept _ (by decide),
      hkept _ (by decide), honly, ?_⟩
    rw [hlinks]
    exact heq
  · have hcond : 8 < h.len.toNat ∨ (!h.priv) = true ∨ (h.code ≠ 2 ∧ h.code ≠ 3) := .inr (hk.imp (by simp [·]) id)
    have hb := (s.taken l.val (.msg h body)).rxBad_counts l.isLt hm hmute rfl (x := Fld.tlkRxErr_bad_msg) rfl (by decide)
    rw [State.msgRecv_flows s hm hf, State.msgTaken, if_pos hcond]
    refine ⟨_, rfl, State.took_of_links (s.taken_took _ _) hb.links, hb.count, hb.counted, hb.outp, hb.only, ?_⟩
    have heq := State.eq_of_offFault hb.off
    rw [hb.links, hb.outp] at heq
    rw [hb.links, hb.outp]
    exact congrArg (fun u : State => { u with flt := ((s.taken l.val (.msg h body)).rxBad l.val Fld.tlkRxErr_bad_msg).flt }) heq

end Sys2Proof.Machine
end

section
/-! PROOFS. Rows that write a register (R23, R32): what the write of a word comes to, what both writes of a keyed pair come to, and what sending a
packet leaves of a link. -/

namespace Sys2Proof.Machine

/-- What sending changes of a link is taken out. -/
def Link.offTx (k : Link) : Link :=
  { k with txSeq := 0, unacked := [], egress := [], txCred := [], credRet := [], nak := false, ackDue := false }

namespace State

/-! ### Sending -/

/-- Every link is as before, but for what sending changes. -/
structure SameRx (s t : State) : Prop where
  link : ∀ l, (t.link l).offTx = (s.link l).offTx

theorem SameRx.refl (s : State) : s.SameRx s := ⟨fun _ => rfl⟩

theorem SameRx.trans {s t u : State} (h : s.SameRx t) (h' : t.SameRx u) : s.SameRx u := ⟨fun l => (h'.link l).trans (h.link l)⟩

theorem sameRx_of_links {s t : State} (h : t.links = s.links) : s.SameRx t := ⟨fun l => by rw [link_congr h]⟩

theorem sameRx_modLink (s : State) (l : Nat) {g : Link → Link} (h : ∀ k, (g k).offTx = k.offTx) : s.SameRx (s.modLink l g) := by
  refine ⟨fun j => ?_⟩
  by_cases hj : j = l
  · rw [hj, link_modLink_same, h]
  · rw [link_modLink_ne s hj]

theorem sameRx_emitBlock (l seq btype fpo : Nat) (cr : Nat × Nat) (stream : List Byte) (s : State) :
    s.SameRx (emitBlock l seq btype fpo cr stream s) :=
  (sameRx_modLink s l (g := fun k => { k with nak := false, ackDue := false }) fun _ => rfl).trans (sameRx_of_links rfl)

theorem sameRx_sendBlock (l : Nat) (pkt : Option TxPkt) (fpo : Nat) (stream : List Byte) (s : State) :
    s.SameRx (sendBlock l pkt fpo stream s) :=
  (sameRx_emitBlock l _ 0 fpo _ stream s).trans (sameRx_modLink _ l fun _ => rfl)

theorem sameRx_sendBlocks (l : Nat) (t : TxPkt) (fpo : Nat) (cs : List (List Byte)) (s : State) : s.SameRx (sendBlocks l t fpo cs s) := by
  fun_induction sendBlocks l t fpo cs s with
  | case1 => exact SameRx.refl _
  | case2 => exact sameRx_sendBlock ..
  | case3 fpo s b bs hne ih => exact (sameRx_sendBlock ..).trans ih

theorem sameRx_pump (l n : Nat) (s : State) : s.SameRx (pump l n s) := by
  fun_induction pump l n s with
  | case5 n s k hk t rest =>
    rename_i ih
    exact ((sameRx_modLink s l (g := fun k => { k with egress := rest, txCred := useCredits k.txCred t.pkt }) fun _ => rfl).trans
      (sameRx_sendBlocks l t 0 _ _)).trans ih
  | _ => exact SameRx.refl _

theorem sameRx_handPkt (s : State) (l : Nat) (t : TxPkt) : s.SameRx (s.handPkt l t) :=
  ((sameRx_of_links (s := s) (t := s.emit (.packet (s.route l) t.pkt)) rfl).trans
    (sameRx_modLink _ (s.route l) (g := fun k => { k with egress := k.egress ++ [t] }) fun _ => rfl)).trans (sameRx_pump (s.route l) _ _)

theorem sameRx_handTx (s : State) (l : Nat) (p : Packet) (frees : List Nat) : s.SameRx (s.handTx l p frees) := sameRx_handPkt s l _

theorem sameRx_respond (s : State) {r : BcsReq} (hv : r.via = .thaty ∨ r.via = .path) (res : BcsRes) : s.SameRx (s.respond r res) := by
  have hemit : s.SameRx (s.emit (.bcs r res)) := sameRx_of_links rfl
  unfold respond
  dsimp only
  split
  · split
    · exact hemit
    · exact hemit.trans (sameRx_handTx ..)
  · next h => rcases hv with hv | hv <;> exact Via.noConfusion (hv.symm.trans h)
  · next h => rcases hv with hv | hv <;> exact Via.noConfusion (hv.symm.trans h)
  · exact hemit

theorem sameRx_finishBcs (s : State) {r : BcsReq} (hv : r.via = .thaty ∨ r.via = .path) (res : BcsRes) : s.SameRx (s.finishBcs r res) := by
  unfold finishBcs
  split
  · split
    · exact sameRx_of_links rfl
    · exact sameRx_respond s hv res
  · exact sameRx_respond s hv res

theorem SameRx.flows {s t : State} (h : s.SameRx t) (l : Nat) : (t.link l).flows = (s.link l).flows :=
  (congrArg Link.flows (h.link l) : (t.link l).offTx.flows = (s.link l).offTx.flows)

theorem outp_respond (s : State) (r : BcsReq) (res : BcsRes) : s.outp ⊆ (s.respond r res).outp := by
  have hemit : s.outp ⊆ (s.emit (.bcs r res)).outp := List.subset_append_left _ _
  unfold respond
  dsimp only
  split
  · split
    · exact hemit
    · exact List.Subset.trans hemit fun o ho => outp_handTx _ _ _ _ (List.mem_cons_of_mem _ ho)
  · exact List.Subset.trans hemit (outp_smbAnswer ..)
  · unfold tapAnswer
    split <;> exact hemit
  · exact hemit

theorem outp_finishBcs (s : State) (r : BcsReq) (res : BcsRes) : s.outp ⊆ (s.finishBcs r res).outp := by
  unfold finishBcs
  split
  · split
    · exact List.Subset.refl _
    · exact outp_respond s r res
  · exact outp_respond s r res

/-! ### The write of a register that is not keyed -/

/-- What a row leaves that writes a register. -/
structure Writes (s : State) (a : Acc) (id : RegId) (i : Nat) (v : Word) (u t : State) : Prop where
  answer : t.offAnswer = u.offAnswer
  rx : u.SameRx t
  outp : u.outp ⊆ t.outp
  wrote : u.slowQ = s.slowQ → s.wrote t a id i v

theorem writes_finishBcs (s u : State) (a : Acc) (id : RegId) (i : Nat) (v : Word) :
    s.Writes a id i v u (u.finishBcs (wordWrite a (regOff id i) v) (.done [])) :=
  ⟨u.offAnswer_wordWrite a _ v _, u.sameRx_finishBcs (viaOf_cases a) _, u.outp_finishBcs _ _, fun h => ended_finishBcs h _ _⟩

/-- A row that writes a register which is not keyed, and which no lock holds. -/
theorem writeRow_writes {s : State} {a : Acc} {id : RegId} {i : Nat} {v : Word} (hg : s.goesWrite a id i v = true)
    (ht : targetAt (regOff id i) = .reg id i) (hk : id.row.keyed = false) (hu : id ≠ .updStrobe) (hr : s.reaches a id i = true)
    (hl : s.lockBreaks id i v = false) : ∃ t, writeRow a id i v s = .next t ∧ s.Writes a id i v (s.start.writeEffect a id i v) t := by
  obtain ⟨hgo, hn⟩ := Bool.and_eq_true_iff.mp hg
  obtain ⟨b, hb⟩ := goes_block hgo
  have hstrobe : isStrobe (wordWrite a (regOff id i) v) = false := isStrobe_of_ne fun j hj => hu (Target.reg.inj (ht.symm.trans hj)).1
  have hlock : s.start.lockBreaks id i v = false := hl
  have hwrite : s.start.writeReg a id i v = s.start.writeEffect a id i v := by
    rw [writeReg, hlock]
    rfl
  have hrow : writeRow a id i v s = .next ((s.start.writeEffect a id i v).finishBcs (wordWrite a (regOff id i) v) (.done [])) := by
    rw [writeRow, exec_wordWrite hgo (fun k => by rw [ht]; exact ⟨nofun, nofun⟩) hstrobe, writeWord_reg s.start ht hk hb hn hr, hwrite]
  exact ⟨_, hrow, writes_finishBcs s _ a id i v⟩

theorem lockBreaks_free {s : State} {id : RegId} {i : Nat} (h : s.lockMask id i = 0) (v : Word) : s.lockBreaks id i v = false := by
  simp [lockBreaks, h]

/-- The state after a row's write, by what the write left and what the answer changed. -/
theorem Writes.eq {s u t : State} {a : Acc} {id : RegId} {i : Nat} {v : Word} (h : s.Writes a id i v u t) :
    t = { u with outp := t.outp, links := t.links, slowQ := t.slowQ } := eq_of_offAnswer h.answer

theorem Writes.regs {s u t : State} {a : Acc} {id : RegId} {i : Nat} {v : Word} (h : s.Writes a id i v u t) : t.regs = u.regs :=
  (congrArg State.regs h.answer : t.offAnswer.regs = u.offAnswer.regs)

theorem f_incF_sat (s : State) {x : Fld} (h : x.fits) (n i : Nat) : (s.incF x i n).f x i = sat x (s.f x i + n) := by
  rw [f_incF_same s h, sat]

end State

end Sys2Proof.Machine
end

section
/-! PROOFS. What makes a link retrain (R67, R68), and how it becomes QUIET and wide again (R66). -/

namespace Sys2Proof.Machine

namespace State

/-! ### Triggers -/

/-- A trigger that reaches a link which is UP or QUIET, in the state at the start of a step. -/
theorem retrainTrigger_start (s : State) {l : Nat} (hl : l < 2) (hm : s.mode ≠ .reset) (hf : (s.link l).flows = true)
    (hmute : s.mute 0x022 = true) :
    s.retrained (s.start.retrainTrigger l) l ∧ s.linkFrame (s.start.retrainTrigger l) ∧ (s.start.retrainTrigger l).outp = [] := by
  obtain ⟨hret, hoff, honly, hout, -, -⟩ := s.start.retrainTrigger_retrains hl hm hf hmute rfl
  exact ⟨hret, linkFrame_of honly hoff, hout⟩

theorem retrainTrigger_idle (s : State) {l : Nat} (hf : (s.link l).flows = false) : s.retrainTrigger l = s := if_neg (by simp [hf])

/-- The lanes of a group at a WIDTH code (Table 3.2). -/
def groupLanes (w : Nat) : Nat := if w = 0 then 16 else if w = 1 then 8 else 4

theorem exec_laneLockLoss (s : State) (l : Fin 2) (lane : Fin 16) :
    exec (.laneLockLoss l lane) s
      = .next (if lane.val / groupLanes (s.link l.val).width = (s.link l.val).group ∧ (s.link l.val).width ≠ 3
          then s.start.retrainTrigger l.val else s.start) := rfl

theorem blockAt_tlkFecUncorr {l : Nat} (h : l < 2) : blockAt (regOff .tlkFecUncorr l) = some .tlk := by
  have hall : ∀ l < 2, blockAt (regOff .tlkFecUncorr l) = some .tlk := by decide
  exact hall l h

/-- The state after uncorrectable codewords have been counted. -/
def uncorrSeen (s : State) (l n : Nat) : State := s.start.incF Fld.tlkFecUncorr_count l n

theorem exec_uncorrThreshold (s : State) (l : Fin 2) (n : BitVec 16) (hf : (s.link l.val).flows = true) :
    exec (.uncorrThreshold l n) s = .next (if s.f Fld.tlkFecThresh_uncorr l.val ≠ 0 ∧ s.f Fld.tlkFecThresh_uncorr l.val < n.toNat
      then (s.uncorrSeen l.val n.toNat).retrainTrigger l.val else s.uncorrSeen l.val n.toNat) := by
  have hflows : ¬ (!(s.start.link l.val).flows) = true := by
    rw [show s.start.link l.val = s.link l.val from rfl, hf]
    decide
  have hthresh : (s.uncorrSeen l.val n.toNat).f Fld.tlkFecThresh_uncorr l.val = s.f Fld.tlkFecThresh_uncorr l.val := by
    have hne : ∀ l < 2, regOff Fld.tlkFecThresh_uncorr.id l ≠ regOff Fld.tlkFecUncorr_count.id l := by decide
    exact f_incF_ne s.start (hne l.val l.isLt) n.toNat
  rw [← hthresh]
  exact congrArg Host.Outcome.next (if_neg hflows)

/-- Codewords above the threshold retrain the link, and are counted. -/
theorem uncorrSeen_retrains (s : State) {l : Nat} (hl : l < 2) (hm : s.mode ≠ .reset) (hf : (s.link l).flows = true)
    (hmute : s.mute 0x022 = true) (n : Nat) :
    s.retrained ((s.uncorrSeen l n).retrainTrigger l) l ∧ s.linkFrame ((s.uncorrSeen l n).retrainTrigger l)
    ∧ ((s.uncorrSeen l n).retrainTrigger l).outp = []
    ∧ ((s.uncorrSeen l n).retrainTrigger l).f Fld.tlkFecUncorr_count l = sat Fld.tlkFecUncorr_count (s.f Fld.tlkFecUncorr_count l + n) := by
  have hapart : ∀ l < 2, regOff Fld.tlkLinkCnt_retrains.id l ≠ regOff Fld.tlkFecUncorr_count.id l
      ∧ regOff Fld.fltCntCe_count.id 0 ≠ regOff Fld.tlkFecUncorr_count.id l := by decide
  obtain ⟨hcntne, hcene⟩ := hapart l hl
  have hcount : (s.uncorrSeen l n).f Fld.tlkFecUncorr_count l = sat Fld.tlkFecUncorr_count (s.f Fld.tlkFecUncorr_count l + n) :=
    f_incF_sat s.start (by decide) n l
  have hretrains : (s.uncorrSeen l n).f Fld.tlkLinkCnt_retrains l = s.f Fld.tlkLinkCnt_retrains l := f_incF_ne s.start hcntne n
  have hce : (s.uncorrSeen l n).f Fld.fltCntCe_count = s.f Fld.fltCntCe_count := f_incF_ne s.start hcene n
  have hseen : s.onlyBlocks (s.uncorrSeen l n) [.tlk, .flt] :=
    (onlyBlocks_of_regs (s := s) (t := s.start) rfl _).incF (x := Fld.tlkFecUncorr_count) (blockAt_tlkFecUncorr hl) (by decide) n
  have hlinks : (s.uncorrSeen l n).links = s.links := incF_links ..
  have hflt : (s.uncorrSeen l n).flt = s.start.flt := incF_flt ..
  have hout : (s.uncorrSeen l n).outp = [] := incF_outp ..
  have hfault : (s.uncorrSeen l n).offFault = s.start.offFault := offFault_incF ..
  have hmode : (s.uncorrSeen l n).mode = s.mode := incF_mode ..
  generalize s.uncorrSeen l n = u at hcount hretrains hce hseen hlinks hflt hout hfault hmode ⊢
  obtain ⟨⟨hlink, hothers, hcnt, hsrc, hces⟩, hoff, honly, houtp, hkeep, -⟩ := u.retrainTrigger_retrains hl (by rwa [hmode])
    (by rwa [link_congr hlinks]) (by rw [mute, hflt]; exact hmute) (by rw [hflt]; rfl)
  have hfield : (u.retrainLink l false).f Fld.tlkFecUncorr_count l = u.f Fld.tlkFecUncorr_count l := by
    have hne : ∀ l < 2, regOff Fld.tlkFecUncorr_count.id l ≠ regOff Fld.tlkLinkCnt_retrains.id l := by decide
    rw [retrainLink, f_incF_ne _ (hne l hl), f_congr (modLink_regs _ _ _)]
  refine ⟨⟨?_, ?_, ?_, ?_, fun h => ?_⟩, linkFrame_of (hseen.trans honly) (hoff.trans hfault), houtp.trans hout,
    (hkeep Fld.tlkFecUncorr_count (blockAt_tlkFecUncorr hl) hfield).trans hcount⟩
  · rw [hlink, link_congr hlinks]
  · exact (sameLinksBut_of_links hlinks l).trans hothers
  · rw [hcnt, hretrains]
  · rw [hsrc, hflt]
    rfl
  · rw [hces h, hce]

theorem triggers (s : State) (l : Fin 2) (hm : s.mode ≠ .reset) (hf : (s.link l.val).flows = true) (hmute : s.mute 0x022 = true) :
    (∃ t, exec (.retrainReq l) s = .next t ∧ s.retrained t l.val ∧ s.linkFrame t ∧ t.outp = [])
    ∧ (∀ lane : Fin 16, (s.link l.val).width < 3 →
        lane.val / (if (s.link l.val).width = 0 then 16 else if (s.link l.val).width = 1 then 8 else 4) = (s.link l.val).group →
        ∃ t, exec (.laneLockLoss l lane) s = .next t ∧ s.retrained t l.val ∧ s.linkFrame t ∧ t.outp = [])
    ∧ (∀ n : BitVec 16, s.f Fld.tlkFecThresh_uncorr l.val ≠ 0 → s.f Fld.tlkFecThresh_uncorr l.val < n.toNat →
        ∃ t, exec (.uncorrThreshold l n) s = .next t ∧ s.retrained t l.val ∧ s.linkFrame t ∧ t.outp = []
          ∧ t.f Fld.tlkFecUncorr_count l.val = sat Fld.tlkFecUncorr_count (s.f Fld.tlkFecUncorr_count l.val + n.toNat))
    ∧ (∀ n : BitVec 16, s.f Fld.tlkFecThresh_uncorr l.val = 0 ∨ n.toNat ≤ s.f Fld.tlkFecThresh_uncorr l.val →
        ∃ t, exec (.uncorrThreshold l n) s = .next t ∧ s.onlyFields t [(Fld.tlkFecUncorr_count, l.val)]
          ∧ t.f Fld.tlkFecUncorr_count l.val = sat Fld.tlkFecUncorr_count (s.f Fld.tlkFecUncorr_count l.val + n.toNat)
          ∧ t = { s.start with regs := t.regs }) := by
  refine ⟨⟨_, rfl, s.retrainTrigger_start l.isLt hm hf hmute⟩, fun lane hw hg => ?_, fun n h0 hlt => ?_, fun n h => ?_⟩
  · exact ⟨_, (s.exec_laneLockLoss l lane).trans (congrArg _ (if_pos ⟨hg, by omega⟩)), s.retrainTrigger_start l.isLt hm hf hmute⟩
  · exact ⟨_, (s.exec_uncorrThreshold l n hf).trans (congrArg _ (if_pos ⟨h0, hlt⟩)), s.uncorrSeen_retrains l.isLt hm hf hmute n.toNat⟩
  · have hnot : ¬ (s.f Fld.tlkFecThresh_uncorr l.val ≠ 0 ∧ s.f Fld.tlkFecThresh_uncorr l.val < n.toNat) := by omega
    refine ⟨_, (s.exec_uncorrThreshold l n hf).trans (congrArg _ (if_neg hnot)), ?_, f_incF_sat s.start (by decide) n.toNat l.val, ?_⟩
    · exact (onlyFields_of_regs (s := s) (t := s.start) rfl _).incF (List.mem_singleton_self _) (by decide) (wordsApart_singleton _ _) n.toNat
    · exact eq_of_offRegs (offRegs_incF ..)

theorem triggers_idle (s : State) (l : Fin 2) (lane : Fin 16) (n : BitVec 16) (hf : (s.link l.val).flows = false) :
    exec (.retrainReq l) s = .next s.start ∧ exec (.laneLockLoss l lane) s = .next s.start ∧ exec (.uncorrThreshold l n) s = .next s.start := by
  have hidle : s.start.retrainTrigger l.val = s.start := s.start.retrainTrigger_idle hf
  have hflows : (!(s.start.link l.val).flows) = true := by
    rw [show s.start.link l.val = s.link l.val from rfl, hf]
    rfl
  refine ⟨congrArg _ hidle, ?_, congrArg Host.Outcome.next (if_pos hflows)⟩
  rw [exec_laneLockLoss, hidle, ite_self]

/-! ### TLK_CTL -/

theorem store_shadow_only (s : State) {id : RegId} (h : id.row.rw = 0) (i : Nat) (v : Word) :
    s.store id i v = { s with shadow := (s.store id i v).shadow } := by
  have hnone : id.row.rw &&& ~~~s.lockMask id i = 0 := by rw [h]; simp
  have hput : s.putRw id i (id.row.rw &&& ~~~s.lockMask id i) v = s := if_pos hnone
  unfold store
  dsimp only
  rw [hput]
  unfold putRws
  split <;> rfl

theorem bit7_retrain (w : Word) : bit 7 ((w &&& 0x60) ||| 0x80).toNat = true := by
  have h : ((w &&& 0x60#32) ||| 0x80#32).getLsbD 7 = true := by simp
  rw [BitVec.getLsbD, Nat.testBit_eq_decide_div_mod_eq] at h
  exact h

theorem tlkRetrain_retrains (s : State) (a : Acc) (l : Fin 2)
    (hg : s.goesWrite a .tlkCtl l.val ((s.shadowReg .tlkCtl l.val &&& 0x60) ||| 0x80) = true) (hf : (s.link l.val).flows = true)
    (hmute : s.mute 0x022 = true) :
    ∃ t, exec (.tlkRetrain a l) s = .next t ∧ (t.link l.val).st = .retrain ∧ (t.link l.val).rxNext = (s.link l.val).rxNext
      ∧ t.f Fld.tlkLinkCnt_retrains l.val = sat Fld.tlkLinkCnt_retrains (s.f Fld.tlkLinkCnt_retrains l.val + 1) ∧ s.counted t 0x022
      ∧ s.onlyBlocks t [.tlk, .flt] ∧ t = { s.asideFrom t with regs := t.regs, shadow := t.shadow, flt := t.flt } := by
  have hm : s.mode ≠ .reset := by
    have hreach := ((goes_iff s _).mp (Bool.and_eq_true_iff.mp hg).1).reach
    intro hreset
    simp [canReach, hreset] at hreach
  have ht : ∀ l < 2, targetAt (regOff .tlkCtl l) = .reg .tlkCtl l := by decide
  obtain ⟨t, hexec, hw⟩ := writeRow_writes hg (ht l.val l.isLt) rfl (by decide) rfl (lockBreaks_free rfl _)
  have heff : s.start.writeEffect a .tlkCtl l.val ((s.shadowReg .tlkCtl l.val &&& 0x60) ||| 0x80)
      = (s.start.store .tlkCtl l.val ((s.shadowReg .tlkCtl l.val &&& 0x60) ||| 0x80)).retrainTrigger l.val :=
    if_pos (bit7_retrain _)
  have hstore := s.start.store_shadow_only (id := .tlkCtl) rfl l.val ((s.shadowReg .tlkCtl l.val &&& 0x60) ||| 0x80)
  rw [heff] at hw
  generalize s.start.store .tlkCtl l.val ((s.shadowReg .tlkCtl l.val &&& 0x60) ||| 0x80) = u at hstore hw
  have hflows : (u.link l.val).flows = true := by rw [hstore]; exact hf
  obtain ⟨⟨hlink, -, hcnt, hsrc, hce⟩, hoff, honly, -, -, -⟩ := u.retrainTrigger_retrains l.isLt (by rw [hstore]; exact hm) hflows
    (by rw [mute, hstore]; exact hmute) (by rw [hstore]; rfl)
  have hrx : (t.link l.val).offTx = ({ u.link l.val with st := .retrain, fullWidth := false, quietReq := false } : Link).offTx :=
    (hw.rx.link l.val).trans (congrArg Link.offTx hlink)
  have hst := congrArg Link.st hrx
  have hnext := congrArg Link.rxNext hrx
  have hflt : t.flt = (u.retrainTrigger l.val).flt := (congrArg State.flt hw.answer : t.offAnswer.flt = _)
  have hregs : u.regs = s.regs := by rw [hstore]; rfl
  refine ⟨t, hexec, ?_, ?_, ?_, ⟨?_, fun h => ?_⟩, ?_, ?_⟩
  · exact hst
  · exact hnext.trans (by rw [hstore]; rfl)
  · rw [f_congr hw.regs, hcnt, f_congr hregs]
  · rw [hflt, hsrc, hstore]
    rfl
  · rw [f_congr hw.regs, hce h, f_congr hregs]
  · exact ((onlyBlocks_of_regs hregs _).trans honly).congr hw.regs
  · have hE : t.offAnswer.offFault = u.offFault.offAnswer := (congrArg offFault hw.answer).trans (congrArg offAnswer hoff)
    rw [hstore] at hE
    exact congrArg (fun x : State => { x with outp := t.outp, links := t.links, slowQ := t.slowQ, regs := t.regs, shadow := t.shadow, flt := t.flt }) hE

/-! ### QUIET and full width -/

/-- Power-downs of some lanes of a link fall due. -/
theorem queueDowns (ps : List Part) (s : State) : ∃ pd, ps.foldl queueDown s = s.withPwr { s.pwr with pd := pd }
    ∧ (∀ p ∈ ps, p ∈ s.pwr.up → p ∈ pd) ∧ (∀ p ∈ pd, p ∉ s.pwr.pd → p ∈ ps) ∧ s.pwr.pd ⊆ pd := by
  induction ps generalizing s with
  | nil => exact ⟨s.pwr.pd, rfl, fun _ h => (nomatch h), fun p h hn => absurd h hn, fun _ h => h⟩
  | cons p ps ih =>
    by_cases hp : p ∈ s.pwr.up ∧ p ∉ s.pwr.pd
    · obtain ⟨pd, heq, hdue, hnew, hsub⟩ := ih (s.withPwr { s.pwr with pd := s.pwr.pd ++ [p] })
      have hpd : p ∈ pd := hsub (List.mem_append_right s.pwr.pd (List.mem_singleton_self p))
      refine ⟨pd, ?_, fun q hq hup => ?_, fun q hq hn => ?_, fun q hq => hsub (List.mem_append_left _ hq)⟩
      · rw [List.foldl_cons, s.queueDown_queues hp.1 hp.2, heq]
        rfl
      · rcases List.mem_cons.mp hq with rfl | hq
        · exact hpd
        · exact hdue q hq hup
      · by_cases hqp : q = p
        · exact hqp ▸ List.mem_cons_self
        · exact List.mem_cons_of_mem _ (hnew q hq fun hin => (List.mem_append.mp hin).elim hn fun h => hqp (List.mem_singleton.mp h))
    · have hkeep : s.queueDown p = s := by
        refine if_neg fun h => hp ?_
        simpa using h
      obtain ⟨pd, heq, hdue, hnew, hsub⟩ := ih s
      refine ⟨pd, by rw [List.foldl_cons, hkeep, heq], fun q hq hup => ?_, fun q hq hn => List.mem_cons_of_mem _ (hnew q hq hn), hsub⟩
      rcases List.mem_cons.mp hq with rfl | hq
      · exact hsub (by by_contra hn; exact hp ⟨hup, hn⟩)
      · exact hdue q hq hup

/-- The lanes of a link outside a group of four. -/
def otherLanes (l g : Nat) : List Part := ((List.range 16).filter fun n => n / 4 != g).map (Part.tlane l)

theorem mem_otherLanes {l g : Nat} {p : Part} : p ∈ otherLanes l g ↔ ∃ n < 16, n / 4 ≠ g ∧ p = Part.tlane l n := by
  simp only [otherLanes, List.mem_map, List.mem_filter, List.mem_range, bne_iff_ne, ne_eq, and_assoc]
  exact ⟨fun ⟨n, hn, hg, h⟩ => ⟨n, hn, hg, h.symm⟩, fun ⟨n, hn, hg, h⟩ => ⟨n, hn, hg, h.symm⟩⟩

theorem find_group {q : Nat → Bool} {g : Nat} (hg : g < 4) (hq : q g = true) (hlow : ∀ k < g, q k = false) :
    (List.range 4).find? q = some g := by
  rw [List.find?_range_eq_some]
  exact ⟨hq, List.mem_range.mpr hg, fun k hk => by simp [hlow k hk]⟩

theorem quietAck_quiets (s : State) (l : Fin 2) (g : Nat) (hst : (s.link l.val).st = .up) (hq : (s.link l.val).quietReq = true) (hg : g < 4)
    (hok : ∀ n < 4, (s.link l.val).laneOk.getLsbD (4 * g + n) = true)
    (hlow : ∀ k < g, ∃ n < 4, (s.link l.val).laneOk.getLsbD (4 * k + n) = false) :
    ∃ t, exec (.quietAck l) s = .next t ∧ t.link l.val = { s.link l.val with st := .quiet, width := 2, group := g, quietReq := false }
      ∧ s.sameLinksBut t l.val ∧ (∀ n < 16, n / 4 ≠ g → Part.tlane l.val n ∈ s.pwr.up → Part.tlane l.val n ∈ t.pwr.pd)
      ∧ (∀ p ∈ t.pwr.pd, p ∉ s.pwr.pd → ∃ n < 16, n / 4 ≠ g ∧ p = Part.tlane l.val n)
      ∧ t = { s.start with links := t.links, pwr := { s.pwr with pd := t.pwr.pd } } := by
  have hfind : (List.range 4).find? (fun g => (List.range 4).all fun n => (s.link l.val).laneOk.getLsbD (4 * g + n)) = some g := by
    refine find_group hg (List.all_eq_true.mpr fun n hn => hok n (List.mem_range.mp hn)) fun k hk => ?_
    obtain ⟨n, hn, hbad⟩ := hlow k hk
    exact List.all_eq_false.mpr ⟨n, List.mem_range.mpr hn, by simp [hbad]⟩
  have hexec : exec (.quietAck l) s = .next ((otherLanes l.val g).foldl queueDown
      (s.start.modLink l.val fun k => { k with st := .quiet, width := 2, group := g, quietReq := false })) := by
    have hstart : exec (.quietAck l) s = .next (s.start.quietAck l.val) := rfl
    have hlink : s.start.link l.val = s.link l.val := rfl
    rw [hstart, quietAck, hlink, if_pos ⟨hst, hq⟩, hfind, otherLanes, List.foldl_map]
    rfl
  have hnarrow := s.start.link_modLink_same l.val fun k => { k with st := .quiet, width := 2, group := g, quietReq := false }
  have hothers := sameLinksBut_modLink s.start l.val fun k => { k with st := .quiet, width := 2, group := g, quietReq := false }
  have hwith : (s.start.modLink l.val fun k => { k with st := .quiet, width := 2, group := g, quietReq := false })
      = { s.start with links := (s.start.modLink l.val fun k => { k with st := .quiet, width := 2, group := g, quietReq := false }).links } := rfl
  generalize (s.start.modLink l.val fun k => { k with st := .quiet, width := 2, group := g, quietReq := false }) = u at hexec hnarrow hothers hwith
  obtain ⟨pd, heq, hdue, hnew, -⟩ := queueDowns (otherLanes l.val g) u
  have hpwr : u.pwr = s.pwr := by rw [hwith]; rfl
  rw [hpwr] at heq hdue hnew
  rw [heq] at hexec
  refine ⟨_, hexec, hnarrow, hothers, fun n hn hng hup => hdue _ (mem_otherLanes.mpr ⟨n, hn, hng, rfl⟩) hup,
    fun p hp hn => mem_otherLanes.mp (hnew p hp hn), ?_⟩
  rw [hwith]
  rfl

theorem fullReq_retrains (s : State) (l : Fin 2) (hst : (s.link l.val).st = .quiet) (hent : ¬(s.mode = .run ∧ s.phase = .entering)) :
    ∃ t, exec (.fullReq l) s = .next t ∧ t.link l.val = { s.link l.val with st := .retrain, fullWidth := true, quietReq := false }
      ∧ s.sameLinksBut t l.val
      ∧ t.f Fld.tlkLinkCnt_retrains l.val = sat Fld.tlkLinkCnt_retrains (s.f Fld.tlkLinkCnt_retrains l.val + 1)
      ∧ (if s.mode = .doze ∧ s.phase = .steady then t.phase = .exiting ∧ t.f Fld.pwrModeStat_exit_cause = 7 else t.phase = s.phase)
      ∧ s.onlyRegs t [(.tlkLinkCnt, l.val), (.pwrModeStat, 0)]
      ∧ t = { s.start with links := t.links, regs := t.regs, phase := t.phase } := by
  have hexec : exec (.fullReq l) s = .next ((s.start.retrainLink l.val true).exitSeen 7 0) := congrArg Host.Outcome.next (if_pos hst)
  obtain ⟨hlink, hothers, hcnt, honly, -, hfault, hout, hflt⟩ := s.start.retrainLink_retrains l.isLt true
  have hwith : s.start.retrainLink l.val true = { s.start with
      links := (s.start.retrainLink l.val true).links, regs := (s.start.retrainLink l.val true).regs } := by
    exact eq_of_offRegs (offRegs_incF (s.start.modLink l.val fun k => { k with st := .retrain, fullWidth := true, quietReq := false }) _ _ _)
  generalize s.start.retrainLink l.val true = u at hexec hlink hothers hcnt honly hwith
  have hmode : u.mode = s.mode := by rw [hwith]; rfl
  have hphase : u.phase = s.phase := by rw [hwith]; rfl
  have hregs : s.onlyRegs u [(.tlkLinkCnt, l.val), (.pwrModeStat, 0)] := honly.onlyRegs.mono (List.cons_subset_cons _ (List.nil_subset _))
  by_cases hd : s.mode = .doze ∧ s.phase = .steady
  · obtain ⟨hcause, -, hfields, heq⟩ := u.exitSeen_doze (hmode.trans hd.1) (hphase.trans hd.2) (cause := 7) (rule := 0) (by decide) (by decide)
    have hlinks : (u.exitSeen 7 0).links = u.links := by rw [heq]
    have hph : (u.exitSeen 7 0).phase = .exiting := by rw [heq]
    have hne : ∀ l < 2, regOff Fld.tlkLinkCnt_retrains.id l ≠ regOff .pwrModeStat 0 := by decide
    refine ⟨_, hexec, (link_congr hlinks _).trans hlink, hothers.trans (sameLinksBut_of_links hlinks _), ?_, ?_,
      hregs.trans (hfields.onlyRegs.mono (List.subset_cons_of_subset _ (by decide))), ?_⟩
    · rw [hfields.onlyRegs.f_eq (x := Fld.tlkLinkCnt_retrains) (i := l.val) fun p hp => ?_]
      · exact hcnt
      · have hmem : p.1 = .pwrModeStat ∧ p.2 = 0 := by
          simp only [List.map_cons, List.map_nil, List.mem_cons, List.not_mem_nil, or_false] at hp
          rcases hp with rfl | rfl <;> exact ⟨rfl, rfl⟩
        rw [hmem.1, hmem.2]
        exact (hne l.val l.isLt).symm
    · rw [if_pos hd]
      exact ⟨hph, hcause⟩
    · rw [hlinks, hph]
      exact heq.trans (congrArg (fun x : State => { x with regs := (u.exitSeen 7 0).regs, phase := .exiting }) hwith)
  · have hseen : u.exitSeen 7 0 = u := exitSeen_of_not u 7 0 (by rwa [hmode, hphase]) (by rwa [hmode, hphase])
    rw [hseen] at hexec
    refine ⟨_, hexec, hlink, hothers, hcnt, ?_, hregs, ?_⟩
    · rw [if_neg hd, hphase]
    · rw [hphase]
      exact hwith

end State

/-- Settles O28: `retrainTrigger` at each of its callers, `quietAck` by the lanes, and `fullReq` by the mode. -/
theorem linksRetrainAndQuiet : Obligations.LinksRetrainAndQuiet := by
  unfold Obligations.LinksRetrainAndQuiet
  refine ⟨⟨fun s l hm hf hmute => s.triggers l hm hf hmute, fun s l lane n hf => s.triggers_idle l lane n hf⟩,
    fun s a l hg hf hmute => s.tlkRetrain_retrains a l hg hf hmute,
    fun s l g hst hq hg hok hlow => s.quietAck_quiets l g hst hq hg hok hlow, fun s l h => congrArg Host.Outcome.next (if_neg h),
    fun s l hst hent => s.fullReq_retrains l hst hent, fun s l h => congrArg Host.Outcome.next (if_neg h)⟩

end Sys2Proof.Machine
end

section
/-! PROOFS. The fatal edge (R273, R280): what a fatal source leaves of a bridge that was not in HALT. -/

namespace Sys2Proof.Machine

namespace State

/-- The registers that entering HALT changes. -/
def haltRegs : List (RegId × Nat) := [(.tlkLinkCnt, 0), (.tlkLinkCnt, 1), (.imgFatal, 0), (.gateDbgUnlock, 0), (.gateDbgStat, 0)]

theorem haltLink_with (s : State) {l : Nat} (hl : l < 2) : s.onlyRegs (s.haltLink l) haltRegs
    ∧ s.haltLink l = { s with links := (s.haltLink l).links, regs := (s.haltLink l).regs } := by
  have hmem : ∀ l < 2, (Fld.tlkLinkCnt_retrains.id, l) ∈ haltRegs := by decide
  unfold haltLink
  split
  · refine ⟨(onlyRegs_of_regs (modLink_regs ..) _).incF (hmem l hl) 1, ?_⟩
    exact eq_of_offRegs (offRegs_incF (s.modLink l fun k => { k with st := .retrain, fullWidth := true }) Fld.tlkLinkCnt_retrains l 1)
  · exact ⟨onlyRegs.refl s _, rfl⟩

/-- What entering HALT leaves of a state. -/
structure EntersHalt (s t : State) : Prop where
  mode : t.mode = .halt
  phase : t.phase = .steady
  cmp : t.cmp = { s.cmp with keks := [], slots := [], staged := [], mboxes := [] }
  unlock : t.f Fld.gateDbgUnlock_unlock = 0
  unlocked : t.f Fld.gateDbgStat_unlocked = 0
  flt : t.flt = { s.flt with aliveRun := false, exLeft := 0 }
  ports : ∀ p ∈ t.ports, p.2.st ≠ .train
  fatals : t.img.fatals.length = min 64 (s.img.fatals.length + 1)
  fatalNext : t.img.fatalNext = (s.img.fatalNext + 1) % 64
  regs : s.onlyRegs t haltRegs
  off : t.offHalt = s.offHalt

theorem haltPorts_untrained (s : State) : ∀ p ∈ s.haltPorts.ports, p.2.st ≠ .train := by
  intro p hp
  obtain ⟨q, -, hq⟩ := List.mem_filterMap.mp hp
  have hst : (if q.2.st = .train then { q.2 with st := .down } else q.2).st ≠ .train := by
    split
    · exact nofun
    next h => exact h
  dsimp only at hq
  generalize (if q.2.st = .train then { q.2 with st := .down } else q.2) = k at hq hst
  split at hq
  · exact nomatch hq
  · rw [← Option.some.inj hq]
    exact hst

/-- Keys, ports and the image block on the fatal edge. -/
def haltCore (s : State) : State := s.haltPorts.clearKeys.addFatalRecord

theorem haltCore_core (s : State) : s.haltCore.cmp = { s.cmp with keks := [], slots := [], staged := [], mboxes := [] }
    ∧ s.haltCore.flt = s.flt ∧ (∀ p ∈ s.haltCore.ports, p.2.st ≠ .train)
    ∧ s.haltCore.img.fatals.length = min 64 (s.img.fatals.length + 1) ∧ s.haltCore.img.fatalNext = (s.img.fatalNext + 1) % 64
    ∧ s.onlyRegs s.haltCore haltRegs := by
  refine ⟨rfl, rfl, s.haltPorts_untrained, ?_, rfl, ?_⟩
  · have hlen : s.haltCore.img.fatals.length = (s.img.fatals ++ [s.haltPorts.clearKeys.fatalRecord]).length - (s.img.fatals.length + 1 - 64) :=
      List.length_drop
    rw [hlen, List.length_append, List.length_singleton]
    omega
  · exact (onlyRegs_of_regs (s := s) (t := s.haltPorts.clearKeys.modImg _) rfl _).incF (x := Fld.imgFatal_total) (by decide) 1

theorem enterHalt_enters (s : State) (h : s.mode ≠ .halt) : s.EntersHalt s.enterHalt := by
  have hoff := s.offHalt_enterHalt
  have hmode := s.enterHalt_mode
  obtain ⟨h0, hw0⟩ := haltLink_with ({ s with mode := .halt, phase := .steady } : State) (l := 0) (by decide)
  obtain ⟨h1, hw1⟩ := haltLink_with (({ s with mode := .halt, phase := .steady } : State).haltLink 0) (l := 1) (by decide)
  have heq : s.enterHalt = (((((({ s with mode := .halt, phase := .steady } : State).haltLink 0).haltLink 1).haltCore.setF
      Fld.gateDbgUnlock_unlock 0).setF Fld.gateDbgStat_unlocked 0).modFlt fun f => { f with aliveRun := false, exLeft := 0 }) := if_neg h
  have hw := hw1.trans (congrArg (fun u : State => { u with
    links := ((({ s with mode := .halt, phase := .steady } : State).haltLink 0).haltLink 1).links
    regs := ((({ s with mode := .halt, phase := .steady } : State).haltLink 0).haltLink 1).regs }) hw0)
  have hlinkRegs : s.onlyRegs ((({ s with mode := .halt, phase := .steady } : State).haltLink 0).haltLink 1) haltRegs := h0.trans h1
  clear hw0 hw1 h0 h1
  generalize (({ s with mode := .halt, phase := .steady } : State).haltLink 0).haltLink 1 = k at heq hw hlinkRegs
  obtain ⟨hcmp, hflt, hports, hlen, hnext, hregs⟩ := k.haltCore_core
  have hphase : k.haltCore.phase = .steady := by
    have hp : k.haltCore.phase = k.phase := rfl
    rw [hp, hw]
  have hks : k.cmp = s.cmp ∧ k.flt = s.flt ∧ k.img = s.img := by rw [hw]; exact ⟨rfl, rfl, rfl⟩
  obtain ⟨hkc, hkf, hki⟩ := hks
  rw [hkc] at hcmp
  rw [hkf] at hflt
  rw [hki] at hlen hnext
  generalize k.haltCore = c at heq hcmp hflt hports hlen hnext hregs hphase
  have hmf := (c.setF Fld.gateDbgUnlock_unlock 0).setF Fld.gateDbgStat_unlocked 0 |>.modFlt_regs fun f => { f with aliveRun := false, exLeft := 0 }
  have hset : c.onlyRegs ((c.setF Fld.gateDbgUnlock_unlock 0).setF Fld.gateDbgStat_unlocked 0) haltRegs :=
    ((onlyRegs.refl c _).setF (by decide) 0).setF (by decide) 0
  rw [← heq] at hmf
  refine ⟨hmode, ?_, ?_, ?_, ?_, ?_, ?_, ?_, ?_, (hlinkRegs.trans (hregs.trans hset)).congr hmf, hoff⟩
  · rw [heq, modFlt_phase, setF_phase, setF_phase, hphase]
  · rw [heq, modFlt_cmp, setF_cmp, setF_cmp, hcmp]
  · rw [f_congr hmf, f_setF_ne _ (x := Fld.gateDbgStat_unlocked) (y := Fld.gateDbgUnlock_unlock) (by decide), f_setF_same _ (by decide),
      Nat.zero_mod]
  · rw [f_congr hmf, f_setF_same _ (by decide), Nat.zero_mod]
  · rw [heq, State.modFlt]
    dsimp only
    rw [setF_flt, setF_flt, hflt]
  · rw [heq, modFlt_ports, setF_ports, setF_ports]
    exact hports
  · rw [heq, modFlt_img, setF_img, setF_img, hlen]
  · rw [heq, modFlt_img, setF_img, setF_img, hnext]

/-- The state with the fatal edge recorded (R280). -/
def haltWritten (s : State) (src syn : Nat) : State :=
  ((((s.setF Fld.fltHalt_valid 1).setF Fld.fltHalt_src src).setPair Fld.fltHaltSynLo_syn Fld.fltHaltSynHi_syn syn).setPair
    Fld.fltHaltTsLo_ts Fld.fltHaltTsHi_ts s.ts).modFlt fun f => { f with haltNow := true }

theorem haltWritten_records (s : State) {src : Nat} (hs : src < 512) (syn : Nat) :
    (s.haltWritten src syn).f Fld.fltHalt_valid = 1 ∧ (s.haltWritten src syn).f Fld.fltHalt_src = src
    ∧ (s.haltWritten src syn).pair Fld.fltHaltTsLo_ts Fld.fltHaltTsHi_ts = s.ts % 2 ^ 64
    ∧ (s.haltWritten src syn).flt = { s.flt with haltNow := true } ∧ (s.haltWritten src syn).mode = s.mode
    ∧ (s.haltWritten src syn).cmp = s.cmp ∧ (s.haltWritten src syn).img = s.img := by
  unfold haltWritten
  generalize hu : (s.setF Fld.fltHalt_valid 1).setF Fld.fltHalt_src src = u
  have hvalid : u.f Fld.fltHalt_valid = 1 := by
    rw [← hu, f_setF_apart _ (x := Fld.fltHalt_src) (y := Fld.fltHalt_valid) (by decide) rfl (by decide), f_setF_same _ (by decide)]
    rfl
  have hsrc : u.f Fld.fltHalt_src = src := by
    rw [← hu, f_setF_same _ (by decide)]
    exact Nat.mod_eq_of_lt hs
  have hflt : u.flt = s.flt := by rw [← hu, setF_flt, setF_flt]
  have hmode : u.mode = s.mode := by rw [← hu, setF_mode, setF_mode]
  have hcmp : u.cmp = s.cmp := by rw [← hu, setF_cmp, setF_cmp]
  have himg : u.img = s.img := by rw [← hu, setF_img, setF_img]
  have hregs := modFlt_regs ((u.setPair Fld.fltHaltSynLo_syn Fld.fltHaltSynHi_syn syn).setPair Fld.fltHaltTsLo_ts Fld.fltHaltTsHi_ts s.ts)
    fun f => { f with haltNow := true }
  refine ⟨?_, ?_, ?_, ?_, ?_, ?_, ?_⟩
  · rw [f_congr hregs, f_setPair_ne _ (by decide) (by decide), f_setPair_ne _ (by decide) (by decide), hvalid]
  · rw [f_congr hregs, f_setPair_ne _ (by decide) (by decide), f_setPair_ne _ (by decide) (by decide), hsrc]
  · rw [pair, f_congr hregs, f_congr hregs]
    exact pair_setPair _ ⟨rfl, rfl⟩ ⟨rfl, rfl⟩ (by decide) s.ts
  · rw [modFlt]
    dsimp only
    rw [setPair_flt, setPair_flt, hflt]
  · rw [modFlt_mode, setPair_mode, setPair_mode, hmode]
  · rw [modFlt_cmp, setPair_cmp, setPair_cmp, hcmp]
  · rw [modFlt_img, setPair_img, setPair_img, himg]

/-- What a fatal source leaves of a bridge that was not in HALT. -/
structure Halts (s t : State) (src : Nat) : Prop where
  mode : t.mode = .halt
  phase : t.phase = .steady
  valid : t.f Fld.fltHalt_valid = 1
  named : t.f Fld.fltHalt_src = src
  time : t.pair Fld.fltHaltTsLo_ts Fld.fltHaltTsHi_ts = s.ts % 2 ^ 64
  counted : s.counted t src
  fatal : t.f Fld.fltCntFt_count = sat Fld.fltCntFt_count (s.f Fld.fltCntFt_count + 1)
  highest : t.f Fld.fltHighest_class = 3
  cmp : t.cmp = { s.cmp with keks := [], slots := [], staged := [], mboxes := [] }
  unlock : t.f Fld.gateDbgUnlock_unlock = 0
  unlocked : t.f Fld.gateDbgStat_unlocked = 0
  alive : t.flt.aliveRun = false
  ports : ∀ p ∈ t.ports, p.2.st ≠ .train
  fatals : t.img.fatals.length = min 64 (s.img.fatals.length + 1)
  fatalNext : t.img.fatalNext = (s.img.fatalNext + 1) % 64
  off : t.offHalt = s.offHalt

theorem raise_fatal (s : State) {src : Nat} (hc : srcClass src = 3) (hm : s.mode ≠ .reset) (hh : s.mode ≠ .halt)
    (hv : s.fb Fld.fltHalt_valid = false) (unit : Nat) (inst je : Option Nat) (detail : Nat) :
    s.Halts (s.raise src unit inst je detail) src := by
  have hc0 : srcClass src ≠ 0 := by omega
  have hoff := s.offHalt_raise src unit inst je detail
  have hcounted := s.counted_raise hm hc0 unit inst je detail
  have hft := s.f_raise_classCnt unit inst je detail hm hc0 (k := 3) (by decide)
  have hhigh := s.f_raise_highest unit inst je detail hm hc0
  have hclass := s.f_lt Fld.fltHighest_class 0
  have hwidth : 2 ^ (Fld.fltHighest_class.hi + 1 - Fld.fltHighest_class.lo) = 4 := rfl
  have hcap := (offFault_capture (s.noteFault src) src (syndrome unit inst je detail)).trans (s.offFault_noteFault src)
  have hkept : ((s.noteFault src).capture src (syndrome unit inst je detail)).reg .fltHalt = s.reg .fltHalt := by
    rw [capture_keeps _ _ _ (by decide), noteFault, maxF, reg_setF_ne _ (by decide), reg_congr (modFlt_regs _ _)]
  have heq := s.raise_eq src unit inst je detail hm
  dsimp only at heq
  generalize (s.noteFault src).capture src (syndrome unit inst je detail) = c at hcap hkept heq
  have hcm : c.mode = s.mode := (mode_of_offFault hcap).1
  have hcvalid : (c.incF Fld.fltCntFt_count).fb Fld.fltHalt_valid = false := by
    rw [fb, f_incF_ne _ (by decide)]
    exact (congrArg (fun w : Word => decide (bits 31 31 w.toNat ≠ 0)) hkept).trans hv
  have hact : c.classAct src (syndrome unit inst je detail) inst
      = ((c.incF Fld.fltCntFt_count).haltWritten src (syndrome unit inst je detail)).enterHalt := by
    have hnot : ¬ (c.incF Fld.fltCntFt_count).mode = .halt := by rw [incF_mode, hcm]; exact hh
    simp only [classAct, hc]
    rw [if_neg hnot, haltRecord, if_pos (by rw [hcvalid]; rfl)]
    rfl
  obtain ⟨hvalid, hsrc, htime, hflt, hmode, hcmp, himg⟩ := (c.incF Fld.fltCntFt_count).haltWritten_records (src_lt_of_srcClass hc0) (syndrome unit inst je detail)
  have hent := ((c.incF Fld.fltCntFt_count).haltWritten src (syndrome unit inst je detail)).enterHalt_enters
    (by rw [hmode, incF_mode, hcm]; exact hh)
  rw [hact] at heq
  rw [incF_flt] at hflt
  rw [incF_cmp] at hcmp
  rw [incF_img] at himg
  rw [incF_ts] at htime
  generalize (c.incF Fld.fltCntFt_count).haltWritten src (syndrome unit inst je detail) = w at heq hvalid hsrc htime hflt hcmp himg hent
  have hnow : w.enterHalt.flt.haltNow = true := by rw [hent.flt, hflt]
  rw [if_pos hnow] at heq
  have hregs : (s.raise src unit inst je detail).regs = w.enterHalt.regs := by rw [heq]; rfl
  have hsame (x : Fld) (hx : ∀ p ∈ haltRegs, regOff p.1 p.2 ≠ regOff x.id 0) : (s.raise src unit inst je detail).f x = w.f x :=
    (f_congr hregs x 0).trans (hent.regs.f_eq hx)
  have hcs : c.cmp = s.cmp ∧ c.ts = s.ts ∧ c.img = s.img :=
    ⟨(congrArg State.cmp hcap : c.offFault.cmp = s.offFault.cmp), (congrArg State.ts hcap : c.offFault.ts = s.offFault.ts),
      (congrArg State.img hcap : c.offFault.img = s.offFault.img)⟩
  obtain ⟨hcc, hct, hci⟩ := hcs
  refine ⟨?_, ?_, (hsame _ (by decide)).trans hvalid, (hsame _ (by decide)).trans hsrc, ?_, hcounted, ?_, ?_, ?_, ?_, ?_, ?_, ?_, ?_, ?_, hoff⟩
  · rw [heq, redoFatal, modImg_mode, hent.mode]
  · rw [heq, redoFatal, modImg_phase, hent.phase]
  · rw [pair, hsame _ (by decide), hsame _ (by decide), ← pair, htime, hct]
  · rw [hc] at hft
    exact hft
  · rw [hhigh, hc]
    omega
  · rw [heq, redoFatal, modImg_cmp, hent.cmp, hcmp, hcc]
  · rw [f_congr hregs, hent.unlock]
  · rw [f_congr hregs, hent.unlocked]
  · rw [heq, redoFatal, modImg_flt, hent.flt]
  · rw [heq, redoFatal, modImg_ports]
    exact hent.ports
  · have hlen : (s.raise src unit inst je detail).img.fatals.length = w.enterHalt.img.fatals.length - 1 + 1 := by
      rw [heq, redoFatal, modImg]
      simp
    rw [hlen, hent.fatals, himg, hci]
    omega
  · have hnext : (s.raise src unit inst je detail).img.fatalNext = w.enterHalt.img.fatalNext := by
      rw [heq]
      rfl
    rw [hnext, hent.fatalNext, himg, hci]

end State

end Sys2Proof.Machine
end

section
/-! PROOFS. The training of a link (R66, R59), and the loss of one (R69). -/

namespace Sys2Proof.Machine

/-- A link that has trained, before it is UP: its width, and what starts anew. -/
def Link.trained (k : Link) (x : LinkTrain) (w g : Nat) (fresh : Prop) [Decidable fresh] : Link :=
  let k := { k with width := w, group := g, laneOk := x.lanes, reversed := x.reversed, fullWidth := false, moved := false
                    unacked := k.unacked.map fun b => { b with resent := 0 } }
  if fresh then
    { k with
      unacked := State.renumber 0 k.unacked, txSeq := k.unacked.length % 4096, rxNext := 0, nak := false, ackDue := false, rxPart := []
      rxSkip := true
      credRet := [], txCred := (List.range 16).filterMap fun i => let c := x.credits.getD i 0; if c = 0 then none else some (i, c) }
  else k

/-- A link that is UP. -/
def Link.ups (k : Link) : Link := { k with st := .up }

/-- What stays at a link when its traffic moves, of `room` places for requests at the other (R69, R55). -/
def Link.left (k : Link) (room : Nat) : Link :=
  { k with unacked := [], egress := (State.heldPkts k).filter (State.inReqs (k.outst.drop room)), outst := k.outst.drop room, quar := [], moved := true }

/-- What a link holds once it has taken over what moves. -/
def Link.takesOver (o k : Link) (room : Nat) : Link :=
  { o with egress := o.egress ++ ((State.heldPkts k).filter fun t => !State.inReqs (k.outst.drop room) t), outst := o.outst ++ k.outst.take room
           quar := o.quar ++ k.quar }

namespace State

/-! ### Training that succeeds -/

theorem captureSeeds_with (s : State) (lane n : Nat) : ∃ c fc fn, s.captureSeeds lane n
    = { s with img := { s.img with seeds := c }, freeCount := fc, freeNext := fn } := by
  induction n with
  | zero => exact ⟨_, _, _, rfl⟩
  | succ n ih =>
    obtain ⟨c, fc, fn, h⟩ := ih
    have heq : s.captureSeeds lane (n + 1)
        = ((s.captureSeeds lane n).modImg fun m => { m with seeds := FMap.set 0 (lane + n) ((s.captureSeeds lane n).free % 2 ^ 256) m.seeds }).draw := rfl
    exact ⟨_, _, _, by rw [heq, h]; rfl⟩

theorem renumber_resent (n : Nat) (bs : List TxBlk) : renumber n (bs.map fun b => { b with resent := 0 }) = renumber n bs := by
  induction bs generalizing n with
  | nil => rfl
  | cons b bs ih => rw [List.map_cons, renumber, renumber, ih]

theorem renumber_cr {n : Nat} {bs : List TxBlk} : ∀ b ∈ renumber n bs, b.cr = (0, 0) := by
  induction bs generalizing n with
  | nil => exact fun _ h => nomatch h
  | cons c cs ih =>
    intro b hb
    rcases List.mem_cons.mp hb with rfl | hb
    · rfl
    · exact ih b hb

theorem find_credits (cs : List Nat) (n i : Nat) (hi : i < n) :
    FMap.get 0 i ((List.range n).filterMap fun i => if cs.getD i 0 = 0 then none else some (i, cs.getD i 0)) = cs.getD i 0 := by
  have hfind (l : List Nat) (hl : l.Nodup) : FMap.get 0 i (l.filterMap fun i => if cs.getD i 0 = 0 then none else some (i, cs.getD i 0))
      = if i ∈ l then cs.getD i 0 else 0 := by
    induction l with
    | nil => rfl
    | cons j l ih =>
      obtain ⟨hj, hl⟩ := List.nodup_cons.mp hl
      have ih := ih hl
      by_cases hc : cs.getD j 0 = 0
      · rw [List.filterMap_cons_none (by rw [if_pos hc]), ih]
        by_cases hij : i = j
        · subst hij
          rw [if_neg hj, if_pos List.mem_cons_self, hc]
        · simp [hij]
      · rw [List.filterMap_cons_some (by rw [if_neg hc])]
        by_cases hij : i = j
        · subst hij
          simp [FMap.get, FMap.find]
        · rw [FMap.get, FMap.find, if_neg fun h => hij h.symm, ← FMap.get, ih]
          simp [hij]
  rw [hfind _ List.nodup_range, if_pos (List.mem_range.mpr hi)]

/-- The link has its width, its seeds are captured, and a narrower width is counted (R66). -/
def widthNoted (s : State) (l : Nat) (x : LinkTrain) (w g : Nat) : State :=
  let u := (s.captureSeeds (16 * l) 16).modLink l fun k => k.trained x w g ((s.link l).st = .train)
  if w = 0 then u else (u.incF Fld.tlkLinkCnt_degrades l).raise 0x023 l

/-- The blocks of a link that comes up go out again, and what its credits allow goes after them. -/
def sentAgain (s : State) (l : Nat) (quiet : Prop) [Decidable quiet] (w g : Nat) : State :=
  ((s.modLink l fun k => if quiet then { k with st := .quiet, width := 2, group := if w = 2 then g else if w = 1 then 2 * g else 0 }
    else { k with st := .up }).sendAgain l).pumpLink l

/-- A link that comes up while the bridge is in DOZE, or on its way there, asks to be QUIET. -/
def asksQuiet (s : State) (l : Nat) (quiet : Prop) [Decidable quiet] : State :=
  if !quiet ∧ (s.dozing ∨ s.entering) then (s.modLink l fun k => { k with quietReq := true }).sendCtl l 2 else s

theorem trainGood_eq (s : State) (l : Nat) (x : LinkTrain) (w g : Nat) (hd : (s.widthNoted l x w g).dozing = false)
    (he : (s.widthNoted l x w g).entering = false) :
    s.trainGood l x w g = ((((s.widthNoted l x w g).modLink l Link.ups).sendAgain l).pumpLink l) := by
  have hparts : s.trainGood l x w g
      = ((s.widthNoted l x w g).sentAgain l ((s.widthNoted l x w g).dozing ∧ !((s.link l).st = .train)) w g).asksQuiet l
        ((s.widthNoted l x w g).dozing ∧ !((s.link l).st = .train)) := rfl
  have hq : ¬ ((s.widthNoted l x w g).dozing = true ∧ (!decide ((s.link l).st = .train)) = true) := by simp [hd]
  rw [hparts]
  generalize s.widthNoted l x w g = v at hd he hq ⊢
  have hsent : v.sentAgain l (v.dozing ∧ !((s.link l).st = .train)) w g = (((v.modLink l Link.ups).sendAgain l).pumpLink l) := by
    simp only [sentAgain, if_neg hq, Link.ups]
    rfl
  have hoff : (((v.modLink l Link.ups).sendAgain l).pumpLink l).offLinks = v.offLinks := by
    rw [offLinks_pumpLink]
    exact (emitAgain_all l _ (v.modLink l Link.ups)).2.2.2
  have hmode : (((v.modLink l Link.ups).sendAgain l).pumpLink l).mode = v.mode := (congrArg State.mode hoff : _)
  have hphase : (((v.modLink l Link.ups).sendAgain l).pumpLink l).phase = v.phase := (congrArg State.phase hoff : _)
  rw [hsent]
  refine if_neg fun h => ?_
  have hd' : (((v.modLink l Link.ups).sendAgain l).pumpLink l).dozing = false := by rw [dozing, hmode]; exact hd
  have he' : (((v.modLink l Link.ups).sendAgain l).pumpLink l).entering = false := by rw [entering, hphase]; exact he
  simp [hd', he'] at h

/-- What capturing the seeds and noting the width leave. -/
structure WidthNoted (s t : State) (l : Nat) (k : Link) (w : Nat) : Prop where
  link : t.link l = k
  others : s.sameLinksBut t l
  outp : t.outp = s.outp
  wide : w = 0 → t.regs = s.regs
  narrow : w ≠ 0 → t.f Fld.tlkLinkCnt_degrades l = sat Fld.tlkLinkCnt_degrades (s.f Fld.tlkLinkCnt_degrades l + 1) ∧ s.counted t 0x023
  only : s.onlyBlocks t [.tlk, .flt]
  eq : t = { s with links := t.links, regs := t.regs, flt := t.flt, img := { s.img with seeds := t.img.seeds }, freeCount := t.freeCount
                    freeNext := t.freeNext }

theorem widthNoted_notes (s : State) {l : Nat} (hl : l < 2) (x : LinkTrain) (w g : Nat) (hm : s.mode ≠ .reset) (hmute : s.mute 0x023 = true)
    (hn : s.flt.haltNow = false) :
    s.WidthNoted (s.widthNoted l x w g) l ((s.link l).trained x w g ((s.link l).st = .train)) w := by
  obtain ⟨c, fc, fn, hseeds⟩ := s.captureSeeds_with (16 * l) 16
  have hlinks : (s.captureSeeds (16 * l) 16).links = s.links := by rw [hseeds]
  have hu : s.widthNoted l x w g = (if w = 0 then (s.captureSeeds (16 * l) 16).modLink l fun k => k.trained x w g ((s.link l).st = .train)
      else (((s.captureSeeds (16 * l) 16).modLink l fun k => k.trained x w g ((s.link l).st = .train)).incF Fld.tlkLinkCnt_degrades l).raise
        0x023 l) := rfl
  have hlink := (s.captureSeeds (16 * l) 16).link_modLink_same l fun k => k.trained x w g ((s.link l).st = .train)
  have hothers := (sameLinksBut_of_links hlinks l).trans
    (sameLinksBut_modLink (s.captureSeeds (16 * l) 16) l fun k => k.trained x w g ((s.link l).st = .train))
  have hwith : ((s.captureSeeds (16 * l) 16).modLink l fun k => k.trained x w g ((s.link l).st = .train))
      = { s with links := ((s.captureSeeds (16 * l) 16).modLink l fun k => k.trained x w g ((s.link l).st = .train)).links
                 img := { s.img with seeds := c }, freeCount := fc, freeNext := fn } := by
    rw [modLink]
    dsimp only
    rw [hseeds]
  rw [link_congr hlinks] at hlink
  rw [hu]
  clear hu
  generalize (s.captureSeeds (16 * l) 16).modLink l (fun k => k.trained x w g ((s.link l).st = .train)) = u at hlink hothers hwith ⊢
  have hregs : u.regs = s.regs := by rw [hwith]
  have hflt : u.flt = s.flt := by rw [hwith]
  by_cases hw : w = 0
  · rw [if_pos hw]
    refine ⟨hlink, hothers, by rw [hwith], fun _ => hregs, fun h => absurd hw h, onlyBlocks_of_regs hregs _, ?_⟩
    rw [hwith]
  · rw [if_neg hw]
    have hb := u.incF_raise_counts (x := Fld.tlkLinkCnt_degrades) (i := l) (src := 0x023) (b := .tlk) (blockAt_tlkLinkCnt hl) (by decide) (by decide)
      (by rw [hwith]; exact hm) (by decide) (by rw [mute, hflt]; exact hmute) (by rw [hflt]; exact hn) l
    obtain ⟨hsrc, hce⟩ := hb.counted
    refine ⟨(link_congr hb.links l).trans hlink, hothers.trans (sameLinksBut_of_links hb.links l), ?_, fun h => absurd h hw, fun _ => ⟨?_, ?_, fun h => ?_⟩,
      (onlyBlocks_of_regs hregs _).trans hb.only, ?_⟩
    · rw [hb.outp, hwith]
    · rw [hb.count, f_congr hregs]
    · rw [hsrc, hflt]
    · rw [hce h, f_congr hregs]
    · have heq := eq_of_offFault hb.off
      have himg : ((u.incF Fld.tlkLinkCnt_degrades l).raise 0x023 l).img = u.img :=
        (congrArg State.img hb.off : ((u.incF Fld.tlkLinkCnt_degrades l).raise 0x023 l).offFault.img = u.offFault.img)
      have hfree : ((u.incF Fld.tlkLinkCnt_degrades l).raise 0x023 l).freeCount = u.freeCount :=
        (congrArg State.freeCount hb.off : ((u.incF Fld.tlkLinkCnt_degrades l).raise 0x023 l).offFault.freeCount = u.offFault.freeCount)
      have hnext : ((u.incF Fld.tlkLinkCnt_degrades l).raise 0x023 l).freeNext = u.freeNext :=
        (congrArg State.freeNext hb.off : ((u.incF Fld.tlkLinkCnt_degrades l).raise 0x023 l).offFault.freeNext = u.offFault.freeNext)
      rw [hb.links, hb.outp] at heq
      rw [hb.links, himg, hfree, hnext]
      generalize (u.incF Fld.tlkLinkCnt_degrades l).raise 0x023 l = t at heq ⊢
      rw [hwith] at heq ⊢
      exact congrArg (fun y : State => { y with flt := t.flt }) heq

theorem pumpLink_nil (s : State) {l : Nat} (h : (s.link l).egress = []) : s.pumpLink l = s := by
  rw [pumpLink, h]
  rfl

/-- The blocks of a link that comes up with nothing at egress go out again. -/
theorem comesUp_sends (s : State) (l : Nat) (h : (s.link l).egress = []) :
    (((s.modLink l Link.ups).sendAgain l).pumpLink l).outp = s.outp ++ s.resentAll l (s.link l).unacked
    ∧ (((s.modLink l Link.ups).sendAgain l).pumpLink l).link l
      = { s.link l with st := .up, nak := (s.link l).nak && (s.link l).unacked.isEmpty
                        ackDue := (s.link l).ackDue && (s.link l).unacked.isEmpty }
    ∧ s.sameLinksBut (((s.modLink l Link.ups).sendAgain l).pumpLink l) l
    ∧ (((s.modLink l Link.ups).sendAgain l).pumpLink l).offLinks = s.offLinks := by
  obtain ⟨hout, hlink, hothers, hoff⟩ := emitAgain_all l (s.link l).unacked (s.modLink l Link.ups)
  have hup := s.link_modLink_same l Link.ups
  have hsend : (s.modLink l Link.ups).sendAgain l = (s.link l).unacked.foldl (emitAgain l) (s.modLink l Link.ups) := by
    rw [sendAgain, hup]
    rfl
  have hsame := resentAll_congr (s := s) (t := s.modLink l Link.ups) (l := l) (by rw [hup]; rfl) (by rw [hup]; rfl) (s.link l).unacked
  have hlast : ((s.modLink l Link.ups).sendAgain l).link l
      = { s.link l with st := .up, nak := (s.link l).nak && (s.link l).unacked.isEmpty
                        ackDue := (s.link l).ackDue && (s.link l).unacked.isEmpty } := by
    rw [hsend]
    by_cases hu : (s.link l).unacked = []
    · rw [hu, List.foldl_nil, hup]
      simp [Link.ups]
    · rw [hlink hu, hup]
      have he : (s.link l).unacked.isEmpty = false := by simpa [List.isEmpty_iff] using hu
      simp [Link.ups, Link.told, he]
  rw [pumpLink_nil _ (by rw [hlast]; exact h)]
  refine ⟨?_, hlast, (sameLinksBut_modLink s l Link.ups).trans ?_, ?_⟩
  · rw [hsend, hout, hsame]
    rfl
  · rw [hsend]
    exact hothers
  · rw [hsend]
    exact hoff

theorem exec_linkTrainingSuccess (s : State) (l : Fin 2) (x : LinkTrain) {w g : Nat} (hst : (s.link l.val).st = .train ∨ (s.link l.val).st = .retrain)
    (hw : trainWidth x.lanes (s.f Fld.tlkCtl_min_width l.val) = some (w, g)) (hf : ¬((s.link l.val).st = .train ∧ x.finiteCpl = true)) :
    exec (.linkTrainingSuccess l x) s = .next (s.start.trainGood l.val x w g) := by
  have hgo : ¬ ((s.start.link l.val).st ≠ .train ∧ (s.start.link l.val).st ≠ .retrain) := by
    rintro ⟨h1, h2⟩
    exact hst.elim h1 h2
  have hwt : trainWidth x.lanes (s.start.f Fld.tlkCtl_min_width l.val) = some (w, g) := hw
  have hexec : exec (.linkTrainingSuccess l x) s = .next (if (s.start.link l.val).st ≠ .train ∧ (s.start.link l.val).st ≠ .retrain then s.start else
      match trainWidth x.lanes (s.start.f Fld.tlkCtl_min_width l.val) with
      | none => s.start.trainFail l.val x.lanes
      | some (w, g) => if (s.start.link l.val).st = .train ∧ x.finiteCpl then s.start.trainFail l.val x.lanes else s.start.trainGood l.val x w g) := rfl
  rw [hexec, if_neg hgo, hwt]
  exact congrArg Host.Outcome.next (if_neg hf)

/-- A link comes up with its width noted, and its blocks go out again (R66, R68). -/
theorem trainGood_comesUp (s : State) {l : Nat} (hl : l < 2) (x : LinkTrain) (w g : Nat) (hm : s.mode ≠ .reset) (hd : s.dozing = false)
    (he : s.entering = false) (hmute : s.mute 0x023 = true) (hn : s.flt.haltNow = false) (hegress : (s.link l).egress = []) :
    ∃ v : State, s.WidthNoted v l ((s.link l).trained x w g ((s.link l).st = .train)) w
      ∧ (s.trainGood l x w g).outp = s.outp ++ v.resentAll l (v.link l).unacked
      ∧ (s.trainGood l x w g).link l = { v.link l with st := .up, nak := (v.link l).nak && (v.link l).unacked.isEmpty
                                                       ackDue := (v.link l).ackDue && (v.link l).unacked.isEmpty }
      ∧ s.sameLinksBut (s.trainGood l x w g) l ∧ (s.trainGood l x w g).regs = v.regs ∧ (s.trainGood l x w g).flt = v.flt
      ∧ s.onlyBlocks (s.trainGood l x w g) [.tlk, .flt]
      ∧ s.trainGood l x w g = { s with
        links := (s.trainGood l x w g).links, regs := (s.trainGood l x w g).regs, flt := (s.trainGood l x w g).flt
        outp := (s.trainGood l x w g).outp, img := { s.img with seeds := (s.trainGood l x w g).img.seeds }
        freeCount := (s.trainGood l x w g).freeCount, freeNext := (s.trainGood l x w g).freeNext } := by
  have hv := s.widthNoted_notes hl x w g hm hmute hn
  have hvd : (s.widthNoted l x w g).dozing = false := by
    rw [dozing, hv.eq]
    exact hd
  have hve : (s.widthNoted l x w g).entering = false := by
    rw [entering, hv.eq]
    exact he
  rw [trainGood_eq s l x w g hvd hve]
  have hveg : ((s.widthNoted l x w g).link l).egress = [] := by
    rw [hv.link, Link.trained]
    dsimp only
    split <;> exact hegress
  generalize s.widthNoted l x w g = v at hv hveg ⊢
  obtain ⟨hout, hlink, hothers, hoff⟩ := v.comesUp_sends l hveg
  generalize ((v.modLink l Link.ups).sendAgain l).pumpLink l = t at hout hlink hothers hoff ⊢
  have hregs : t.regs = v.regs := (congrArg State.regs hoff : t.offLinks.regs = v.offLinks.regs)
  have hflt : t.flt = v.flt := (congrArg State.flt hoff : t.offLinks.flt = v.offLinks.flt)
  have himg : t.img = v.img := (congrArg State.img hoff : t.offLinks.img = v.offLinks.img)
  have hfc : t.freeCount = v.freeCount := (congrArg State.freeCount hoff : t.offLinks.freeCount = v.offLinks.freeCount)
  have hfn : t.freeNext = v.freeNext := (congrArg State.freeNext hoff : t.offLinks.freeNext = v.offLinks.freeNext)
  refine ⟨v, hv, by rw [hout, hv.outp], hlink, hv.others.trans hothers, hregs, hflt, hv.only.congr hregs, ?_⟩
  rw [hregs, hflt, himg, hfc, hfn]
  exact (eq_of_offLinks hoff).trans (congrArg (fun u : State => { u with links := t.links, outp := t.outp }) hv.eq)

theorem resentAll_anew {s : State} {l : Nat} (hn : (s.link l).nak = false) (hr : (s.link l).rxNext = 0) {bs : List TxBlk}
    (hcr : ∀ b ∈ bs, b.cr = (0, 0)) :
    s.resentAll l bs = bs.map fun b => .block l (blockBytes (blockBody b.seq 0 4095 false b.fpo (0, 0) b.stream)) := by
  have hblock (b : TxBlk) (hb : b ∈ bs) :
      s.resentBlock l false b = .block l (blockBytes (blockBody b.seq 0 4095 false b.fpo (0, 0) b.stream)) := by
    rw [resentBlock, hr, hcr b hb]
  cases bs with
  | nil => rfl
  | cons b bs =>
    rw [resentAll, hn, hblock b List.mem_cons_self, List.map_cons]
    exact congrArg (List.cons _) (List.map_congr_left fun c hc => hblock c (List.mem_cons_of_mem _ hc))

theorem resentAll_resent (s : State) (l : Nat) (bs : List TxBlk) :
    s.resentAll l (bs.map fun b => { b with resent := 0 }) = s.resentAll l bs := by
  cases bs with
  | nil => rfl
  | cons b bs =>
    simp only [resentAll, List.map_cons, List.map_map]
    rfl

/-- The claim about a link that trains, and about one that retrains. -/
theorem linkTrainingSuccess_comesUp (s : State) (l : Fin 2) (x : LinkTrain) (w g : Nat) (hm : s.mode ≠ .reset) (hd : s.dozing = false)
    (he : s.entering = false) (hmute : s.mute 0x023 = true) (hw : trainWidth x.lanes (s.f Fld.tlkCtl_min_width l.val) = some (w, g))
    (hegress : (s.link l.val).egress = []) :
    ((s.link l.val).st = .train → x.finiteCpl = false →
      ∃ t, exec (.linkTrainingSuccess l x) s = .next t
        ∧ t.link l.val = { s.link l.val with
            st := .up, width := w, group := g, laneOk := x.lanes, reversed := x.reversed, fullWidth := false, moved := false
            unacked := renumber 0 (s.link l.val).unacked, txSeq := (s.link l.val).unacked.length % 4096, rxNext := 0, nak := false
            ackDue := false, rxPart := [], rxSkip := true, credRet := [], txCred := (t.link l.val).txCred }
        ∧ (∀ i < 16, FMap.get 0 i (t.link l.val).txCred = x.credits.getD i 0)
        ∧ t.outp = (renumber 0 (s.link l.val).unacked).map (fun b => .block l.val (blockBytes (blockBody b.seq 0 4095 false b.fpo (0, 0) b.stream)))
        ∧ s.sameLinksBut t l.val ∧ (w = 0 → t.regs = s.regs)
        ∧ (w ≠ 0 → t.f Fld.tlkLinkCnt_degrades l.val = sat Fld.tlkLinkCnt_degrades (s.f Fld.tlkLinkCnt_degrades l.val + 1) ∧ s.counted t 0x023)
        ∧ s.onlyBlocks t [.tlk, .flt]
        ∧ t = { s.start with links := t.links, regs := t.regs, flt := t.flt, outp := t.outp, img := { s.img with seeds := t.img.seeds }
                             freeCount := t.freeCount, freeNext := t.freeNext })
    ∧ ((s.link l.val).st = .retrain →
      ∃ t, exec (.linkTrainingSuccess l x) s = .next t
        ∧ t.link l.val = { s.link l.val with
            st := .up, width := w, group := g, laneOk := x.lanes, reversed := x.reversed, fullWidth := false, moved := false
            unacked := (s.link l.val).unacked.map fun b => { b with resent := 0 }
            nak := (s.link l.val).nak && (s.link l.val).unacked.isEmpty, ackDue := (s.link l.val).ackDue && (s.link l.val).unacked.isEmpty }
        ∧ t.outp = s.resentAll l.val (s.link l.val).unacked ∧ s.sameLinksBut t l.val ∧ s.onlyBlocks t [.tlk, .flt]
        ∧ t = { s.start with links := t.links, regs := t.regs, flt := t.flt, outp := t.outp, img := { s.img with seeds := t.img.seeds }
                             freeCount := t.freeCount, freeNext := t.freeNext }) := by
  obtain ⟨v, hv, hout, hlink, hothers, hregs, hflt, honly, heq⟩ := s.start.trainGood_comesUp l.isLt x w g hm hd he hmute rfl hegress
  have hstart : s.start.link l.val = s.link l.val := rfl
  have hvl := hv.link
  rw [hstart] at hvl
  refine ⟨fun hst hfin => ?_, fun hst => ?_⟩
  · have hanew : v.link l.val = { s.link l.val with
        width := w, group := g, laneOk := x.lanes, reversed := x.reversed, fullWidth := false, moved := false
        unacked := renumber 0 (s.link l.val).unacked, txSeq := (s.link l.val).unacked.length % 4096, rxNext := 0, nak := false, ackDue := false
        rxPart := [], rxSkip := true, credRet := []
        txCred := (List.range 16).filterMap fun i => if x.credits.getD i 0 = 0 then none else some (i, x.credits.getD i 0) } := by
      rw [hvl, Link.trained]
      dsimp only
      rw [if_pos hst, renumber_resent, List.length_map]
    rw [hanew] at hlink
    have hsends := resentAll_anew (s := v) (l := l.val) (by rw [hanew]) (by rw [hanew]) (bs := renumber 0 (s.link l.val).unacked) renumber_cr
    have hun : (v.link l.val).unacked = renumber 0 (s.link l.val).unacked := by rw [hanew]
    rw [hun, hsends] at hout
    refine ⟨_, s.exec_linkTrainingSuccess l x (.inl hst) hw (by simp [hfin]), ?_, fun i hi => ?_, hout, hothers, fun h => ?_, fun h => ?_, honly, heq⟩
    · rw [hlink]
      simp
    · rw [hlink]
      exact find_credits x.credits 16 i hi
    · rw [hregs, hv.wide h]
      rfl
    · obtain ⟨hcnt, hsrc, hce⟩ := hv.narrow h
      refine ⟨(f_congr hregs _ _).trans hcnt, ?_, fun h => (f_congr hregs _ _).trans (hce h)⟩
      rw [hflt]
      exact hsrc
  · have hnot : ¬ (s.link l.val).st = .train := by rw [hst]; decide
    have hback : v.link l.val = { s.link l.val with
        width := w, group := g, laneOk := x.lanes, reversed := x.reversed, fullWidth := false, moved := false
        unacked := (s.link l.val).unacked.map fun b => { b with resent := 0 } } := by
      rw [hvl, Link.trained]
      dsimp only
      rw [if_neg hnot]
    have hsame := resentAll_congr (s := s) (t := v) (l := l.val) (by rw [hback]) (by rw [hback]) (s.link l.val).unacked
    have hun : (v.link l.val).unacked = (s.link l.val).unacked.map fun b => { b with resent := 0 } := by rw [hback]
    rw [hun, resentAll_resent, hsame] at hout
    rw [hback] at hlink
    refine ⟨_, s.exec_linkTrainingSuccess l x (.inr hst) hw (by simp [hst]), ?_, hout, hothers, honly, heq⟩
    rw [hlink]
    simp

/-! ### Training that fails -/

theorem trainFail_fails (s : State) {l : Nat} (hst : (s.link l).st = .train ∨ (s.link l).st = .retrain) (lanes : BitVec 16) :
    s.sameLinksBut (s.trainFail l lanes) l ∧ s.trainFail l lanes = { s with links := (s.trainFail l lanes).links }
    ∧ (s.trainFail l lanes).link l
      = { s.link l with st := .down, width := 3, group := 0, laneOk := lanes, fails := (s.link l).fails + 1 } := by
  have heq : s.trainFail l lanes
      = s.modLink l fun k => { k with st := .down, width := 3, group := 0, laneOk := lanes, fails := k.fails + 1 } := by
    unfold trainFail
    rcases hst with h | h <;> rw [h]
  rw [heq]
  exact ⟨sameLinksBut_modLink s l _, rfl, link_modLink_same ..⟩

theorem trainFail_idle (s : State) {l : Nat} (ht : (s.link l).st ≠ .train) (hr : (s.link l).st ≠ .retrain) (lanes : BitVec 16) :
    s.trainFail l lanes = s := by
  unfold trainFail
  split
  next h => exact absurd h ht
  next h => exact absurd h hr
  next => rfl

theorem linkTrainingFail_fails (s : State) (l : Fin 2) (lanes : BitVec 16) (hst : (s.link l.val).st = .train ∨ (s.link l.val).st = .retrain) :
    (∃ t, exec (.linkTrainingFail l lanes) s = .next t ∧ s.sameLinksBut t l.val ∧ t = { s.start with links := t.links }
      ∧ t.link l.val = { s.link l.val with st := .down, width := 3, group := 0, laneOk := lanes, fails := (s.link l.val).fails + 1 })
    ∧ (∃ t, exec (.linkTrainTimeout l) s = .next t ∧ s.sameLinksBut t l.val ∧ t = { s.start with links := t.links }
      ∧ t.link l.val = { s.link l.val with st := .down, width := 3, group := 0, fails := (s.link l.val).fails + 1 })
    ∧ (∀ x : LinkTrain, trainWidth x.lanes (s.f Fld.tlkCtl_min_width l.val) = none ∨ (s.link l.val).st = .train ∧ x.finiteCpl = true →
      ∃ t, exec (.linkTrainingSuccess l x) s = .next t ∧ s.sameLinksBut t l.val ∧ t = { s.start with links := t.links }
        ∧ t.link l.val = { s.link l.val with st := .down, width := 3, group := 0, laneOk := x.lanes, fails := (s.link l.val).fails + 1 }) := by
  refine ⟨⟨_, rfl, s.start.trainFail_fails hst lanes⟩, ⟨_, rfl, s.start.trainFail_fails hst _⟩, fun x hx => ?_⟩
  have hgo : ¬ ((s.start.link l.val).st ≠ .train ∧ (s.start.link l.val).st ≠ .retrain) := by
    rintro ⟨h1, h2⟩
    exact hst.elim h1 h2
  have hexec : exec (.linkTrainingSuccess l x) s = .next (s.start.trainFail l.val x.lanes) := by
    refine congrArg Host.Outcome.next ((if_neg hgo).trans ?_)
    cases hw : trainWidth x.lanes (s.start.f Fld.tlkCtl_min_width l.val) with
    | none => rfl
    | some p =>
      obtain ⟨w, g⟩ := p
      have hfin : (s.start.link l.val).st = .train ∧ x.finiteCpl = true := hx.resolve_left fun h => nomatch h.symm.trans hw
      exact if_pos hfin
  exact ⟨_, hexec, s.start.trainFail_fails hst _⟩

theorem linkTraining_idle (s : State) (l : Fin 2) (lanes : BitVec 16) (x : LinkTrain) (ht : (s.link l.val).st ≠ .train)
    (hr : (s.link l.val).st ≠ .retrain) :
    exec (.linkTrainingFail l lanes) s = .next s.start ∧ exec (.linkTrainTimeout l) s = .next s.start
    ∧ exec (.linkTrainingSuccess l x) s = .next s.start := by
  have hgo : (s.start.link l.val).st ≠ .train ∧ (s.start.link l.val).st ≠ .retrain := ⟨ht, hr⟩
  exact ⟨congrArg _ (s.start.trainFail_idle ht hr lanes), congrArg _ (s.start.trainFail_idle ht hr _), congrArg Host.Outcome.next (if_pos hgo)⟩

/-! ### The loss of a link -/

theorem chunks_sent (l : Nat) (t : TxPkt) (fpo : Nat) (cs : List (List Byte)) (s : State) :
    (∀ b ∈ (s.link l).unacked, b ∈ ((sendBlocks l t fpo cs s).link l).unacked)
    ∧ (∀ c ∈ cs, ∃ b ∈ ((sendBlocks l t fpo cs s).link l).unacked, b.stream = c)
    ∧ ((sendBlocks l t fpo cs s).link l).egress = (s.link l).egress := by
  have hsend (pkt : Option TxPkt) (fpo : Nat) (c : List Byte) (s : State) :
      ∃ b : TxBlk, ((sendBlock l pkt fpo c s).link l).unacked = (s.link l).unacked ++ [b] ∧ b.stream = c
        ∧ ((sendBlock l pkt fpo c s).link l).egress = (s.link l).egress := by
    have hlink := link_modLink_same (emitBlock l (s.link l).txSeq 0 fpo ((s.link l).credRet.headD (0, 0)) c s) l fun k => { k with
      txSeq := (k.txSeq + 1) % 4096, credRet := k.credRet.drop 1
      unacked := k.unacked ++ [{ seq := k.txSeq, fpo := fpo, cr := (s.link l).credRet.headD (0, 0), stream := c, pkt := pkt }] }
    have hemit : (emitBlock l (s.link l).txSeq 0 fpo ((s.link l).credRet.headD (0, 0)) c s).link l = (s.link l).told :=
      link_modLink_same s l Link.told
    rw [hemit] at hlink
    refine ⟨{ seq := (s.link l).txSeq, fpo := fpo, cr := (s.link l).credRet.headD (0, 0), stream := c, pkt := pkt }, ?_, rfl, ?_⟩
    · have hun := congrArg Link.unacked hlink
      exact hun
    · have heg := congrArg Link.egress hlink
      exact heg
  fun_induction sendBlocks l t fpo cs s with
  | case1 => exact ⟨fun _ h => h, fun _ h => (nomatch h), rfl⟩
  | case2 fpo c s =>
    obtain ⟨b, hun, hb, heg⟩ := hsend (some t) fpo c s
    refine ⟨fun y hy => ?_, fun d hd => ⟨b, ?_, hb.trans (List.mem_singleton.mp hd).symm⟩, heg⟩
    · rw [hun]
      exact List.mem_append_left _ hy
    · rw [hun]
      exact List.mem_append_right _ (List.mem_singleton_self _)
  | case3 fpo c cs s hne ih =>
    obtain ⟨b, hun, hb, heg⟩ := hsend none fpo c s
    obtain ⟨hkeep, hall, hegs⟩ := ih
    refine ⟨fun y hy => hkeep y ?_, fun d hd => ?_, hegs.trans heg⟩
    · rw [hun]
      exact List.mem_append_left _ hy
    · rcases List.mem_cons.mp hd with rfl | hd
      · exact ⟨b, hkeep b (by rw [hun]; exact List.mem_append_right _ (List.mem_singleton_self _)), hb⟩
      · exact hall d hd

/-- What waits at egress waits there still, or all its blocks are unacknowledged. -/
theorem pump_keepsAll (l n : Nat) (s : State) (p : TxPkt) :
    (∀ b ∈ (s.link l).unacked, b ∈ ((pump l n s).link l).unacked)
    ∧ (p ∈ (s.link l).egress → p ∈ ((pump l n s).link l).egress
        ∨ ∀ c ∈ chunk244 32 (packetBytes p.pkt), ∃ b ∈ ((pump l n s).link l).unacked, b.stream = c) := by
  fun_induction pump l n s with
  | case5 n s k hk t rest hpick cs hroom ih =>
    have hlink := s.link_modLink_same l fun k => { k with egress := rest, txCred := useCredits k.txCred t.pkt }
    obtain ⟨hkeep, hall, heg⟩ := chunks_sent l t 0 (chunk244 32 (packetBytes t.pkt))
      (s.modLink l fun k => { k with egress := rest, txCred := useCredits k.txCred t.pkt })
    rw [hlink] at hkeep heg
    obtain ⟨hun, hp⟩ := ih
    refine ⟨fun b hb => hun b (hkeep b hb), fun hmem => ?_⟩
    have hrest : rest = (s.link l).egress.erase t := by
      have hpick' : pickTx (s.link l).txCred (s.link l).egress = some (t, rest) := hpick
      unfold pickTx at hpick'
      obtain ⟨u, -, hu⟩ := Option.map_eq_some_iff.mp hpick'
      obtain ⟨rfl, rfl⟩ := Prod.mk.inj hu
      rfl
    by_cases hpt : p = t
    · subst hpt
      refine .inr fun c hc => ?_
      obtain ⟨b, hb, hs⟩ := hall c hc
      exact ⟨b, hun b hb, hs⟩
    · refine hp ?_
      rw [heg, hrest]
      exact (List.mem_erase_of_ne hpt).mpr hmem
  | _ => exact ⟨fun _ h => h, .inl⟩

theorem sameLinksBut_sendBlock (l : Nat) (pkt : Option TxPkt) (fpo : Nat) (c : List Byte) (s : State) :
    s.sameLinksBut (sendBlock l pkt fpo c s) l := by
  have hemit : s.sameLinksBut (emitBlock l (s.link l).txSeq 0 fpo ((s.link l).credRet.headD (0, 0)) c s) l := sameLinksBut_modLink s l Link.told
  exact hemit.trans (sameLinksBut_modLink _ l _)

theorem sameLinksBut_sendBlocks (l : Nat) (t : TxPkt) (fpo : Nat) (cs : List (List Byte)) (s : State) :
    s.sameLinksBut (sendBlocks l t fpo cs s) l := by
  fun_induction sendBlocks l t fpo cs s with
  | case1 => exact fun _ _ => rfl
  | case2 fpo c s => exact sameLinksBut_sendBlock l _ fpo c s
  | case3 fpo c cs s hne ih => exact (sameLinksBut_sendBlock l none fpo c s).trans ih

theorem sameLinksBut_pump (l n : Nat) (s : State) : s.sameLinksBut (pump l n s) l := by
  fun_induction pump l n s with
  | case5 n s k hk t rest hpick cs hroom ih =>
    exact ((sameLinksBut_modLink s l fun k => { k with egress := rest, txCred := useCredits k.txCred t.pkt }).trans
      (sameLinksBut_sendBlocks l t 0 _ _)).trans ih
  | _ => exact fun _ _ => rfl

/-- The places for requests at the other link. -/
def otherRoom (s : State) (l : Nat) : Nat := 4096 - (s.link (1 - l)).outst.length

/-- The traffic of a link has moved, and goes on (R69). -/
def moves (s : State) (l : Nat) : State :=
  ((s.modLink l fun _ => (s.link l).left (s.otherRoom l)).modLink (1 - l) fun o => o.takesOver (s.link l) (s.otherRoom l)).pumpLink (1 - l)

/-- Whether what moves is reported (R69). -/
def moveTold (s : State) (l : Nat) : Bool :=
  !((heldPkts (s.link l)).filter fun t => !inReqs ((s.link l).outst.drop (s.otherRoom l)) t).isEmpty
  || !((s.link l).outst.take (s.otherRoom l)).isEmpty

theorem exec_failover (s : State) (l : Fin 2) (h : s.canMove l.val = true) :
    exec (.failover l) s = .next (if s.moveTold l.val then (s.start.moves l.val).raise 0x024 l.val else s.start.moves l.val) := by
  have hgo : ¬ (!s.start.canMove l.val) = true := by
    rw [show s.start.canMove l.val = s.canMove l.val from rfl, h]
    decide
  have hmod : (s.start.modLink l.val fun k => { k with
        unacked := [], egress := (heldPkts k).filter (inReqs ((s.link l.val).outst.drop (s.otherRoom l.val)))
        outst := (s.link l.val).outst.drop (s.otherRoom l.val), quar := [], moved := true })
      = s.start.modLink l.val fun _ => (s.start.link l.val).left (s.start.otherRoom l.val) := by
    have hmods (g h : Link → Link) (hgh : g (s.link l.val) = h (s.link l.val)) : s.start.modLink l.val g = s.start.modLink l.val h := by
      have hfind : g (FMap.get ({} : Link) l.val s.start.links) = h (FMap.get {} l.val s.start.links) := hgh
      rw [modLink, modLink, FMap.mod, FMap.mod, hfind]
    exact hmods _ _ rfl
  refine congrArg Host.Outcome.next ((if_neg hgo).trans ?_)
  rw [moves, ← hmod]
  rfl

/-- What the move leaves of the two links. -/
theorem moves_moves (s : State) {l : Nat} (hl : l < 2) :
    (s.moves l).link l = (s.link l).left (s.otherRoom l)
    ∧ ((s.moves l).link (1 - l)).offTx = ((s.link (1 - l)).takesOver (s.link l) (s.otherRoom l)).offTx
    ∧ (∀ p ∈ (heldPkts (s.link l)).filter fun t => !inReqs ((s.link l).outst.drop (s.otherRoom l)) t,
        p ∈ ((s.moves l).link (1 - l)).egress
          ∨ ∀ c ∈ chunk244 32 (packetBytes p.pkt), ∃ b ∈ ((s.moves l).link (1 - l)).unacked, b.stream = c)
    ∧ (s.moves l).offLinks = s.offLinks := by
  have hne : l ≠ 1 - l := by omega
  have hother : ((s.modLink l fun _ => (s.link l).left (s.otherRoom l)).modLink (1 - l) fun o => o.takesOver (s.link l) (s.otherRoom l)).link (1 - l)
      = (s.link (1 - l)).takesOver (s.link l) (s.otherRoom l) := by
    rw [link_modLink_same, link_modLink_ne _ hne.symm]
  have hthis : ((s.modLink l fun _ => (s.link l).left (s.otherRoom l)).modLink (1 - l) fun o => o.takesOver (s.link l) (s.otherRoom l)).link l
      = (s.link l).left (s.otherRoom l) := by
    rw [link_modLink_ne _ hne, link_modLink_same]
  have hoff : ((s.modLink l fun _ => (s.link l).left (s.otherRoom l)).modLink (1 - l) fun o => o.takesOver (s.link l) (s.otherRoom l)).offLinks
      = s.offLinks := rfl
  unfold moves
  generalize (s.modLink l fun _ => (s.link l).left (s.otherRoom l)).modLink (1 - l) (fun o => o.takesOver (s.link l) (s.otherRoom l)) = u
    at hother hthis hoff ⊢
  refine ⟨?_, ?_, fun p hp => ?_, (offLinks_pumpLink u (1 - l)).trans hoff⟩
  · exact (sameLinksBut_pump (1 - l) _ u l hne).trans hthis
  · exact ((sameRx_pump (1 - l) _ u).link (1 - l)).trans (congrArg Link.offTx hother)
  · refine (pump_keepsAll (1 - l) _ u p).2 ?_
    rw [hother]
    exact List.mem_append_right _ hp

theorem failover_moves (s : State) (l : Fin 2) (h : s.canMove l.val = true) (hmute : s.mute 0x024 = true) :
    ∃ t, exec (.failover l) s = .next t
      ∧ (t.link l.val).moved = true ∧ (t.link l.val).unacked = [] ∧ (t.link l.val).quar = []
      ∧ (t.link l.val).outst = (s.link l.val).outst.drop (4096 - (s.link (1 - l.val)).outst.length)
      ∧ (t.link (1 - l.val)).outst = (s.link (1 - l.val)).outst ++ (s.link l.val).outst.take (4096 - (s.link (1 - l.val)).outst.length)
      ∧ (t.link (1 - l.val)).quar = (s.link (1 - l.val)).quar ++ (s.link l.val).quar
      ∧ (∀ p ∈ heldPkts (s.link l.val),
          (if inReqs (t.link l.val).outst p then p ∈ (t.link l.val).egress
           else p ∈ (t.link (1 - l.val)).egress
             ∨ ∀ c ∈ chunk244 32 (packetBytes p.pkt), ∃ b ∈ (t.link (1 - l.val)).unacked, b.stream = c))
      ∧ ((s.link l.val).outst.length + (s.link (1 - l.val)).outst.length ≤ 4096 →
          (s.link l.val).outst ≠ [] ∨ heldPkts (s.link l.val) ≠ [] → s.counted t 0x024) ∧ s.linkFrame t := by
  have hm : s.mode ≠ .reset := by
    simp only [canMove, Bool.and_eq_true, bne_iff_ne] at h
    exact h.2
  obtain ⟨hthis, hother, hpkts, hoff⟩ := s.start.moves_moves l.isLt
  have hmmode : (s.start.moves l.val).mode = s.mode := (congrArg State.mode hoff : (s.start.moves l.val).offLinks.mode = _)
  have hmregs : (s.start.moves l.val).regs = s.regs := (congrArg State.regs hoff : (s.start.moves l.val).offLinks.regs = _)
  have hmflt : (s.start.moves l.val).flt = s.start.flt := (congrArg State.flt hoff : (s.start.moves l.val).offLinks.flt = _)
  have hraised := (s.start.moves l.val).raise_silent (src := 0x024) (by rw [hmmode]; exact hm)
    (.inl ⟨by decide, by rw [mute, hmflt]; exact hmute⟩) (by rw [hmflt]; rfl) l.val none none 0
  have hcounted : s.counted ((s.start.moves l.val).raise 0x024 l.val) 0x024 := by
    obtain ⟨hsrc, hce⟩ := hraised.counted
    refine ⟨?_, fun h => ?_⟩
    · rw [hsrc, hmflt]
      rfl
    · rw [hce h, f_congr hmregs]
  obtain ⟨t, hexec, hlinks, honly, hfault, htold⟩ : ∃ t, exec (.failover l) s = .next t ∧ t.links = (s.start.moves l.val).links
      ∧ s.onlyBlocks t [.tlk, .flt] ∧ t.offFault = s.start.offFault ∧ (s.moveTold l.val = true → s.counted t 0x024) := by
    rw [s.exec_failover l h]
    have hmf : (s.start.moves l.val).offFault = s.start.offFault := offFault_of_offLinks hoff
    by_cases hb : s.moveTold l.val = true
    · rw [if_pos hb]
      exact ⟨_, rfl, hraised.links, (onlyBlocks_of_regs hmregs _).trans (hraised.only.mono (by decide)), hraised.off.trans hmf, fun _ => hcounted⟩
    · rw [if_neg hb]
      exact ⟨_, rfl, rfl, onlyBlocks_of_regs hmregs _, hmf, fun h => absurd h hb⟩
  have htl : t.link l.val = (s.link l.val).left (s.otherRoom l.val) := (link_congr hlinks _).trans hthis
  have hto : (t.link (1 - l.val)).offTx = ((s.link (1 - l.val)).takesOver (s.link l.val) (s.otherRoom l.val)).offTx := by
    rw [link_congr hlinks]
    exact hother
  have houtst := congrArg Link.outst hto
  have hquar := congrArg Link.quar hto
  refine ⟨t, hexec, by rw [htl]; rfl, by rw [htl]; rfl, by rw [htl]; rfl, by rw [htl]; rfl, houtst, hquar, fun p hp => ?_, fun hlen hany => ?_,
    linkFrame_of honly hfault⟩
  · have hstay : (t.link l.val).outst = (s.link l.val).outst.drop (s.otherRoom l.val) := by rw [htl]; rfl
    rw [hstay]
    split
    next hin =>
      rw [htl]
      exact List.mem_filter.mpr ⟨hp, hin⟩
    next hin =>
      rw [link_congr hlinks]
      have hout : (!inReqs ((s.link l.val).outst.drop (s.otherRoom l.val)) p) = true := by simpa using hin
      exact hpkts p (List.mem_filter.mpr ⟨hp, hout⟩)
  · refine htold ?_
    have hroom : (s.link l.val).outst.length ≤ s.otherRoom l.val := by rw [otherRoom]; omega
    have hdrop : (s.link l.val).outst.drop (s.otherRoom l.val) = [] := List.drop_eq_nil_of_le hroom
    have hnone (p : TxPkt) : inReqs [] p = false := by
      unfold inReqs
      split <;> rfl
    rw [moveTold, hdrop, List.take_of_length_le hroom]
    simp only [hnone, Bool.not_false, List.filter_true, Bool.or_eq_true, Bool.not_eq_true', List.isEmpty_eq_false_iff]
    exact hany.symm

theorem canMove_start (s : State) (l : Nat) : s.start.canMove l = s.canMove l := rfl

theorem downLimit_halts (s : State) (l : Fin 2) (hw : s.works = true) (ht : s.holdsTraffic l.val = true) (hc : s.canMove l.val = false)
    (hmv : (s.link l.val).moved = false) (hv : s.fb Fld.fltHalt_valid = false) :
    ∃ t, exec (.downLimit l) s = .next t ∧ t.mode = .halt ∧ t.f Fld.fltHalt_valid = 1 ∧ t.f Fld.fltHalt_src = 0x026
      ∧ t.jnl = s.jnl ∧ t.ops = s.ops ∧ t.ctxs = s.ctxs := by
  have hgo : s.start.works = true ∧ s.start.holdsTraffic l.val = true ∧ (!s.start.canMove l.val) = true ∧ (!(s.start.link l.val).moved) = true := by
    rw [canMove_start, hc, show s.start.link l.val = s.link l.val from rfl, hmv]
    exact ⟨hw, ht, rfl, rfl⟩
  have hh := s.start.raise_fatal (src := 0x026) (by decide) (not_reset_of_works hw) (not_halt_of_works hw) hv l.val none none 0
  refine ⟨_, congrArg Host.Outcome.next (if_pos hgo), hh.mode, hh.valid, hh.named, ?_, ?_, ?_⟩
  · exact (congrArg State.jnl hh.off : _)
  · exact (congrArg State.ops hh.off : _)
  · exact (congrArg State.ctxs hh.off : _)

theorem downLimit_idle (s : State) (l : Fin 2) (h : s.holdsTraffic l.val = false ∨ s.canMove l.val = true) :
    exec (.downLimit l) s = .next s.start := by
  refine congrArg Host.Outcome.next (if_neg fun hgo => ?_)
  obtain ⟨-, ht, hc, -⟩ := hgo
  rw [canMove_start] at hc
  rw [show s.start.holdsTraffic l.val = s.holdsTraffic l.val from rfl] at ht
  rcases h with h | h
  · rw [h] at ht
    exact Bool.false_ne_true ht
  · rw [h] at hc
    exact Bool.false_ne_true hc

end State

/-- Settles O29: `trainGood` by its parts, `trainFail`, and FAILOVER and DOWN_LIMIT by whether the traffic may move. -/
theorem linkTrainingAndLoss : Obligations.LinkTrainingAndLoss := by
  unfold Obligations.LinkTrainingAndLoss
  refine ⟨fun s l x w g hm hd he hmute hw heg => s.linkTrainingSuccess_comesUp l x w g hm hd he hmute hw heg,
    ⟨fun s l lanes hst => s.linkTrainingFail_fails l lanes hst, fun s l lanes x ht hr => s.linkTraining_idle l lanes x ht hr,
      fun s l hon hst => ?_, fun s l hh => ?_⟩,
    fun s l h hmute => s.failover_moves l h hmute, fun s l h => ?_, fun s l hw ht hc hmv hv => s.downLimit_halts l hw ht hc hmv hv,
    fun s l h => s.downLimit_idle l h⟩
  · have hgo : s.start.linksOn = true ∧ (s.start.link l.val).st = .down := ⟨hon, hst⟩
    exact ⟨_, congrArg Host.Outcome.next (if_pos hgo), State.link_modLink_same .., State.sameLinksBut_modLink s.start l.val _, rfl⟩
  · refine congrArg Host.Outcome.next (if_neg fun hgo => ?_)
    have hon : s.linksOn = true := hgo.1
    simp [State.linksOn, State.works, hh] at hon
  · have hstop : (!s.start.canMove l.val) = true := by rw [State.canMove_start, h]; rfl
    exact congrArg Host.Outcome.next (if_pos hstop)


end Sys2Proof.Machine
end

section
/-! PROOFS. Writes to table entries (R120), discards (R125) and the table barrier (R123). -/

namespace Sys2Proof.Machine

namespace State

/-! ### Entries -/

theorem targetAt_entry {b : Block} {size k o : Nat} (hb : b.aliased = false) (hal : b.base % 4 = 0) (hsize : size % 4 = 0)
    (ho4 : o % 4 = 0) (hin : size * k + o < b.span) : targetAt (b.base + size * k + o) = blockTarget b (size * k + o) := by
  have halign : (b.base + size * k + o) % 4 = 0 := by
    have hk : size * k % 4 = 0 := by rw [Nat.mul_mod, hsize, Nat.zero_mul, Nat.zero_mod]
    omega
  have hblock : blockAt (b.base + size * k + o) = some b := (blockAt_iff _ _).mpr ⟨by omega, by omega⟩
  unfold targetAt
  simp only [halign, Nat.sub_zero, hblock, hb, Bool.not_false, if_true]
  congr 1
  omega

theorem targetAt_wtt {k o : Nat} (hk : k < 65536) (ho : o < 32) (ho4 : o % 4 = 0) : targetAt (Block.wtt.base + 32 * k + o) = .wtt k := by
  have hspan : Block.wtt.span = 32 * 65536 := by decide
  rw [targetAt_entry rfl (by decide) (by decide) ho4 (by omega)]
  refine congrArg Target.wtt ?_
  omega

theorem targetAt_dvt {k o : Nat} (hk : k < 262144) (ho : o < 16) (ho4 : o % 4 = 0) : targetAt (Block.dvt.base + 16 * k + o) = .dvt k := by
  have hspan : Block.dvt.span = 16 * 262144 := by decide
  rw [targetAt_entry rfl (by decide) (by decide) ho4 (by omega)]
  refine congrArg Target.dvt ?_
  omega

/-- A write of one word that is performed, and starts no strobe. -/
theorem bcsRun_wordWrite {s : State} {a : Acc} {off : Nat} {v : Word} (hg : s.goes (wordWrite a off v) = true)
    (hs : ∀ i, targetAt off ≠ .reg .updStrobe i) :
    s.start.bcsRun (wordWrite a off v) = .next ((s.start.bcsWrite (wordWrite a off v)).finishBcs (wordWrite a off v) (.done [])) := by
  have hwr : (wordWrite a off v).wr = true := rfl
  rw [bcsRun_of_goes hg rfl]
  simp [bcsPerform, hwr, isStrobe_of_ne hs]

theorem writeEntry_wtt (s : State) {a : Acc} {k o : Nat} {v : Word} (hk : k < 65536) (ho : o < 32) (ho4 : o % 4 = 0)
    (hg : s.goes (wordWrite a (Block.wtt.base + 32 * k + o) v) = true) :
    s.start.bcsRun (wordWrite a (Block.wtt.base + 32 * k + o) v)
      = .next ((s.start.wttWrite k o (wordBytes v)).finishBcs (wordWrite a (Block.wtt.base + 32 * k + o) v) (.done [])) := by
  have ht := targetAt_wtt hk ho ho4
  have hoff : (wordWrite a (Block.wtt.base + 32 * k + o) v).off = Block.wtt.base + 32 * k + o := rfl
  have hdata : (wordWrite a (Block.wtt.base + 32 * k + o) v).data = wordBytes v := rfl
  have hbase : Block.wtt.base % 32 = 0 := by decide
  have hmod : (Block.wtt.base + 32 * k + o) % 32 = o := by omega
  rw [bcsRun_wordWrite hg (fun i h => nomatch ht.symm.trans h), bcsWrite, hoff, ht, hdata]
  simp only [hmod]

theorem writeEntry_dvt (s : State) {a : Acc} {k o : Nat} {v : Word} (hk : k < 262144) (ho : o < 16) (ho4 : o % 4 = 0)
    (hg : s.goes (wordWrite a (Block.dvt.base + 16 * k + o) v) = true) :
    s.start.bcsRun (wordWrite a (Block.dvt.base + 16 * k + o) v)
      = .next ((s.start.dvtWrite k o (wordBytes v)).finishBcs (wordWrite a (Block.dvt.base + 16 * k + o) v) (.done [])) := by
  have ht := targetAt_dvt hk ho ho4
  have hoff : (wordWrite a (Block.dvt.base + 16 * k + o) v).off = Block.dvt.base + 16 * k + o := rfl
  have hdata : (wordWrite a (Block.dvt.base + 16 * k + o) v).data = wordBytes v := rfl
  have hbase : Block.dvt.base % 16 = 0 := by decide
  have hmod : (Block.dvt.base + 16 * k + o) % 16 = o := by omega
  rw [bcsRun_wordWrite hg (fun i h => nomatch ht.symm.trans h), bcsWrite, hoff, ht, hdata]
  simp only [hmod]

/-- The state with other tables. -/
def withTbl (s : State) (u : Tables) : State := { s with tbl := u }

theorem eq_aside_of_tbl {s t : State} {u : Tables} (h : t.offAnswer = (s.start.withTbl u).offAnswer) : t = { s.asideFrom t with tbl := u } :=
  congrArg (fun x : State => { x with outp := t.outp, links := t.links, slowQ := t.slowQ }) h

theorem tbl_of_offAnswer {s t : State} (h : t.offAnswer = s.offAnswer) : t.tbl = s.tbl := (congrArg State.tbl h : t.offAnswer.tbl = s.offAnswer.tbl)

theorem wttWrite_pends (s : State) (k o : Nat) (bs : List Byte) (h : s.tbl.wttPend.length < 4096 ∨ (FMap.find k s.tbl.wttPend).isSome) :
    s.wttWrite k o bs = s.withTbl { s.tbl with
      wttPend := FMap.put k (setRej wttRejBit false (writeBytes 32 o bs ((FMap.find k s.tbl.wttPend).getD (s.wttAt k)))) s.tbl.wttPend } := by
  unfold wttWrite
  cases hf : FMap.find k s.tbl.wttPend with
  | some e => rfl
  | none =>
    have hlen : s.tbl.wttPend.length < 4096 := h.resolve_right (by simp [hf])
    exact if_pos hlen

theorem dvtWrite_overflows (s : State) (k o : Nat) (bs : List Byte) (h : 4096 ≤ s.tbl.dvtPend.length) (hf : FMap.find k s.tbl.dvtPend = none) :
    s.dvtWrite k o bs = s.withTbl { s.tbl with dvtOvf := true } := by
  unfold dvtWrite
  rw [hf]
  exact if_neg (by omega)

theorem tableEntryWrite_wtt (s : State) (a : Acc) (idx : BitVec 18) (o : Fin 32) (v : Word) (hi : idx.toNat < 65536) (ho : o.val % 4 = 0)
    (hg : s.goes (wordWrite a (Block.wtt.base + 32 * idx.toNat + o.val) v) = true)
    (hroom : s.tbl.wttPend.length < 4096 ∨ (FMap.find idx.toNat s.tbl.wttPend).isSome) :
    ∃ t, exec (.tableEntryWrite a .wtt idx o ((wordBytes v).map some)) s = .next t
      ∧ FMap.find idx.toNat t.tbl.wttPend =
          some (setRej wttRejBit false (writeBytes 32 o.val (wordBytes v) ((FMap.find idx.toNat s.tbl.wttPend).getD (s.wttAt idx.toNat))))
      ∧ (∀ k, k ≠ idx.toNat → FMap.find k t.tbl.wttPend = FMap.find k s.tbl.wttPend)
      ∧ t = { s.asideFrom t with tbl := { s.tbl with wttPend := t.tbl.wttPend } } := by
  have hexec : exec (.tableEntryWrite a .wtt idx o ((wordBytes v).map some)) s
      = s.start.bcsRun (wordWrite a (Block.wtt.base + 32 * (idx.toNat % 65536) + o.val) v) := rfl
  rw [Nat.mod_eq_of_lt hi, writeEntry_wtt s hi o.isLt ho hg] at hexec
  have hwrite := s.start.wttWrite_pends idx.toNat o.val (wordBytes v) hroom
  have hans := (s.start.wttWrite idx.toNat o.val (wordBytes v)).offAnswer_wordWrite a (Block.wtt.base + 32 * idx.toNat + o.val) v (.done [])
  have htbl := tbl_of_offAnswer hans
  rw [hwrite] at hans htbl
  refine ⟨_, hexec, ?_, fun k hk => ?_, ?_⟩
  · rw [hwrite, htbl]
    exact FMap.find_put_same ..
  · rw [hwrite, htbl]
    exact FMap.find_put_ne hk ..
  · rw [hwrite]
    have heq := eq_aside_of_tbl hans
    rw [htbl]
    exact heq

theorem tableEntryWrite_dvt (s : State) (a : Acc) (idx : BitVec 18) (o : Fin 32) (v : Word) (ho16 : o.val < 16) (ho : o.val % 4 = 0)
    (hg : s.goes (wordWrite a (Block.dvt.base + 16 * idx.toNat + o.val) v) = true) (hfull : 4096 ≤ s.tbl.dvtPend.length)
    (hf : FMap.find idx.toNat s.tbl.dvtPend = none) :
    ∃ t, exec (.tableEntryWrite a .dvt idx o ((wordBytes v).map some)) s = .next t
      ∧ t = { s.asideFrom t with tbl := { s.tbl with dvtOvf := true } } := by
  have hexec : exec (.tableEntryWrite a .dvt idx o ((wordBytes v).map some)) s
      = s.start.bcsRun (wordWrite a (Block.dvt.base + 16 * idx.toNat + o.val % 16) v) := rfl
  rw [Nat.mod_eq_of_lt ho16, writeEntry_dvt s idx.isLt ho16 ho hg] at hexec
  have hans := (s.start.dvtWrite idx.toNat o.val (wordBytes v)).offAnswer_wordWrite a (Block.dvt.base + 16 * idx.toNat + o.val) v (.done [])
  refine ⟨_, hexec, ?_⟩
  rw [s.start.dvtWrite_overflows idx.toNat o.val (wordBytes v) hfull hf] at hans ⊢
  exact eq_aside_of_tbl hans

/-! ### Discards -/

theorem setRej_cleared {w : Nat} (r : Nat) (e : BitVec w) : setRej r false e &&& BitVec.ofNat w r = 0 := by
  unfold setRej
  rw [if_neg Bool.false_ne_true]
  ext k hk
  simp

/-- The entries of a table after a discard: those with a value, and no REJ bit. -/
def rejCleared {w : Nat} (r : Nat) (m : FMap (BitVec w)) : FMap (BitVec w) :=
  (m.map fun e => (e.1, setRej r false e.2)).filter fun e => e.2 != 0

/-- A discard keeps what the entries of a table mean. -/
theorem rejCleared_keeps {w : Nat} {β : Type} {r : Nat} {view : BitVec w → β} (hview : ∀ e, view (setRej r false e) = view e) (m : FMap (BitVec w)) :
    (∀ e ∈ m, view e.2 ≠ view 0 → ∃ e' ∈ rejCleared r m, e'.1 = e.1 ∧ view e'.2 = view e.2)
    ∧ (∀ e' ∈ rejCleared r m, e'.2 &&& BitVec.ofNat w r = 0 ∧ ∃ e ∈ m, e'.1 = e.1 ∧ view e'.2 = view e.2) := by
  refine ⟨fun e he hne => ⟨(e.1, setRej r false e.2), List.mem_filter.mpr ⟨List.mem_map.mpr ⟨e, he, rfl⟩, ?_⟩, rfl, hview e.2⟩, fun e' he' => ?_⟩
  · refine bne_iff_ne.mpr fun hz => hne ?_
    have hz' : setRej r false e.2 = 0 := hz
    rw [← hview e.2, hz']
  · obtain ⟨e, he, rfl⟩ := List.mem_map.mp (List.mem_filter.mp he').1
    exact ⟨setRej_cleared r e.2, e, he, rfl, hview e.2⟩

theorem tellRej_none (s : State) {n valid idx : Fld} (hn : n.fits) (hv : valid.fits) (h1 : regOff n.id 0 ≠ regOff valid.id 0)
    (h2 : regOff n.id 0 ≠ regOff idx.id 0) (hvi : idx.fits) (hid : valid.id = idx.id) (ha : idx.hi < valid.lo ∨ valid.hi < idx.lo) :
    (s.tellRej n valid idx []).f n = 0 ∧ (s.tellRej n valid idx []).f valid = 0 := by
  have heq : s.tellRej n valid idx [] = ((s.setF n 0).setF valid 0).setF idx 0 := rfl
  rw [heq]
  constructor
  · rw [f_setF_ne _ h2, f_setF_ne _ h1, f_setF_same _ hn, Nat.zero_mod]
  · rw [f_setF_apart _ hvi hid ha, f_setF_same _ hv, Nat.zero_mod]

/-- The tables after a discard of the WTT pending store. -/
def wttDropped (t : Tables) : Tables := { t with wttPend := [], wttOvf := false, wtt := rejCleared wttRejBit t.wtt }

/-- The tables after a discard of the DVT pending store. -/
def dvtDropped (t : Tables) : Tables := { t with dvtPend := [], dvtOvf := false, dvt := rejCleared dvtRejBit t.dvt }

theorem wttDrop_drops (s : State) : s.wttDrop.tbl = wttDropped s.tbl ∧ s.wttDrop.f Fld.updTblStat_wtt_rej = 0 ∧ s.wttDrop.f Fld.updTblRejWtt_valid = 0 := by
  obtain ⟨hrej, hvalid⟩ := (s.modTbl wttDropped).tellRej_none (n := Fld.updTblStat_wtt_rej) (valid := Fld.updTblRejWtt_valid)
    (idx := Fld.updTblRejWtt_index) (by decide) (by decide) (by decide) (by decide) (by decide) rfl (by decide)
  exact ⟨tellRej_tbl (s.modTbl wttDropped) .., hrej, hvalid⟩

theorem dvtDrop_drops (s : State) : s.dvtDrop.tbl = dvtDropped s.tbl ∧ s.dvtDrop.f Fld.updTblStat_dvt_rej = 0 ∧ s.dvtDrop.f Fld.updTblRejDvt_valid = 0 := by
  obtain ⟨hrej, hvalid⟩ := (s.modTbl dvtDropped).tellRej_none (n := Fld.updTblStat_dvt_rej) (valid := Fld.updTblRejDvt_valid)
    (idx := Fld.updTblRejDvt_index) (by decide) (by decide) (by decide) (by decide) (by decide) rfl (by decide)
  exact ⟨tellRej_tbl (s.modTbl dvtDropped) .., hrej, hvalid⟩

/-- A write of UPD_TBL_CTL is performed as a discard. -/
theorem tblCtl_discards (s : State) {a : Acc} {v : Word} (hg : s.goesWrite a .updTblCtl 0 v = true) :
    ∃ t, writeRow a .updTblCtl 0 v s = .next t ∧ t.tbl = (s.start.tblDiscard v).tbl ∧ t.regs = (s.start.tblDiscard v).regs := by
  obtain ⟨t, hexec, hw⟩ := writeRow_writes hg (by decide) rfl (by decide) rfl (lockBreaks_free rfl _)
  exact ⟨t, hexec, tbl_of_offAnswer hw.answer, hw.regs⟩

theorem tblDiscard_wtt (s : State) (h : s.strobe.mask = none) : s.tblDiscard 1 = s.wttDrop := by
  have hn : ¬ s.strobe.mask.isSome = true := by simp [h]
  exact if_neg hn

theorem tblDiscard_dvt (s : State) (h : s.strobe.mask = none) : s.tblDiscard 2 = s.dvtDrop := by
  have hn : ¬ s.strobe.mask.isSome = true := by simp [h]
  exact if_neg hn

/-! ### The barrier -/

theorem tblBarrierStart_starts (s : State) (a : Acc) (hg : s.goesWrite a .updTblBarrier 0 1 = true) :
    ∃ t, exec (.tblBarrierStart a) s = .next t ∧ t.f Fld.updTblBarrier_done = 0
      ∧ (∀ e ∈ s.jnl.entries, (e.2.st = .admitted ∨ e.2.st = .issued ∨ e.2.st = .farDone) → e.2.serial ∈ t.tbl.barrier)
      ∧ s.onlyFields t [(Fld.updTblBarrier_done, 0)]
      ∧ t = { s.asideFrom t with regs := t.regs, tbl := { s.tbl with barrier := t.tbl.barrier } } := by
  obtain ⟨t, hexec, hw⟩ := writeRow_writes hg (by decide) rfl (by decide) rfl (lockBreaks_free rfl _)
  have heff : s.start.writeEffect a .updTblBarrier 0 1 = (s.start.setF Fld.updTblBarrier_done 0).withTbl { s.tbl with
      barrier := (s.jnl.entries.filter fun p => p.2.st == .admitted || p.2.st == .issued || p.2.st == .farDone).map fun p => p.2.serial } := rfl
  have hregs : t.regs = (s.start.setF Fld.updTblBarrier_done 0).regs := by
    rw [hw.regs, heff]
    rfl
  have htbl : t.tbl = { s.tbl with
      barrier := (s.jnl.entries.filter fun p => p.2.st == .admitted || p.2.st == .issued || p.2.st == .farDone).map fun p => p.2.serial } := by
    rw [tbl_of_offAnswer hw.answer, heff]
    rfl
  have hans := hw.answer
  rw [heff] at hans
  refine ⟨t, hexec, ?_, fun e he hst => ?_, ?_, ?_⟩
  · rw [f_congr hregs, f_setF_same _ (by decide), Nat.zero_mod]
  · rw [htbl]
    refine List.mem_map.mpr ⟨e, List.mem_filter.mpr ⟨he, ?_⟩, rfl⟩
    rcases hst with h | h | h <;> simp [h]
  · exact ((onlyFields.refl s.start _).setF (List.mem_singleton_self _) (by decide) (wordsApart_singleton _ _) 0).congr hregs
  · rw [htbl, hregs]
    exact congrArg (fun x : State => { x with outp := t.outp, links := t.links, slowQ := t.slowQ }) hans

theorem tblBarrierDone_done (s : State) (hr : s.mode ≠ .reset) (hh : s.mode ≠ .halt)
    (h : ∀ e ∈ s.jnl.entries, e.2.serial ∈ s.tbl.barrier → e.2.st ≠ .admitted ∧ e.2.st ≠ .issued ∧ e.2.st ≠ .farDone) :
    ∃ t, exec .tblBarrierDone s = .next t ∧ t.f Fld.updTblBarrier_done = 1 ∧ s.onlyFields t [(Fld.updTblBarrier_done, 0)]
      ∧ t = { s.start with regs := t.regs, tbl := { s.tbl with barrier := [] } } := by
  have hwaits : s.start.barrierWaits = false := by
    refine List.any_eq_false.mpr fun e he => ?_
    have hst := h e he
    simp only [Bool.and_eq_true, Bool.or_eq_true, beq_iff_eq, List.contains_iff_mem, not_and]
    intro hmem hor
    obtain ⟨h1, h2, h3⟩ := hst hmem
    rcases hor with (hor | hor) | hor
    · exact h1 hor
    · exact h2 hor
    · exact h3 hor
  have hworks : s.start.works = true := by
    have hw : s.works = true := by simp [works, hr, hh]
    exact hw
  have hnot : ¬ ((!s.start.works) = true ∨ s.start.barrierWaits = true) := by simp [hworks, hwaits]
  have hdone := f_setF_same s.start (x := Fld.updTblBarrier_done) (by decide) 1 0
  have honly := onlyFields_setF s.start (List.mem_singleton_self (Fld.updTblBarrier_done, 0)) (by decide) (wordsApart_singleton _ _) 1
  have hoff := eq_of_offRegs (offRegs_setF s.start Fld.updTblBarrier_done 1 0)
  have hexec : exec .tblBarrierDone s
      = .next ((s.start.setF Fld.updTblBarrier_done 1).modTbl fun t => { t with barrier := [] }) := congrArg Host.Outcome.next (if_neg hnot)
  generalize s.start.setF Fld.updTblBarrier_done 1 = u at hdone honly hoff hexec
  refine ⟨_, hexec, hdone, honly, ?_⟩
  rw [modTbl, hoff]
  rfl

end State

/-- Settles O26: `wttWrite` and `dvtWrite` by the pending store, the discards entry by entry, and the barrier by its serial numbers. -/
theorem tablesPendDiscardAndWait : Obligations.TablesPendDiscardAndWait := by
  unfold Obligations.TablesPendDiscardAndWait
  refine ⟨fun s a idx o v hi ho hg hroom => s.tableEntryWrite_wtt a idx o v hi ho hg hroom,
    fun s a idx o v ho16 ho hg hfull hf => s.tableEntryWrite_dvt a idx o v ho16 ho hg hfull hf, fun s a hg hm => ?_, fun s a hg hm => ?_,
    fun s a hg => s.tblBarrierStart_starts a hg, fun s hr hh h => s.tblBarrierDone_done hr hh h⟩
  · obtain ⟨t, hexec, htbl, hregs⟩ := s.tblCtl_discards hg
    rw [s.start.tblDiscard_wtt hm] at htbl hregs
    obtain ⟨hdrop, hrej, hvalid⟩ := s.start.wttDrop_drops
    obtain ⟨hkeep, hclear⟩ := State.rejCleared_keeps (windowOf_setRej false) s.tbl.wtt
    rw [hdrop] at htbl
    refine ⟨t, hexec, ?_⟩
    rw [State.f_congr hregs, State.f_congr hregs, htbl]
    exact ⟨rfl, rfl, rfl, rfl, hkeep, hclear, hrej, hvalid⟩
  · obtain ⟨t, hexec, htbl, hregs⟩ := s.tblCtl_discards hg
    rw [s.start.tblDiscard_dvt hm] at htbl hregs
    obtain ⟨hdrop, hrej, hvalid⟩ := s.start.dvtDrop_drops
    obtain ⟨hkeep, hclear⟩ := State.rejCleared_keeps (deviceOf_setRej false) s.tbl.dvt
    rw [hdrop] at htbl
    refine ⟨t, hexec, ?_⟩
    rw [State.f_congr hregs, State.f_congr hregs, htbl]
    exact ⟨rfl, rfl, rfl, rfl, hkeep, hclear, hrej, hvalid⟩

end Sys2Proof.Machine
end

section
/-! PROOFS. The bridge's own requests (R55, R57, R247): a tag is found where one is free, and a read that may be issued goes out. What stands in
the fields of a word that a write has stored. -/

namespace Sys2Proof.Machine

/-! ### Fields of a stored word -/

theorem bits_congr {hi lo : Nat} {a b : Word} (h : ∀ k, lo ≤ k → k ≤ hi → a.getLsbD k = b.getLsbD k) : bits hi lo a.toNat = bits hi lo b.toNat := by
  unfold bits
  refine Nat.eq_of_testBit_eq fun k => ?_
  rw [Nat.testBit_mod_two_pow, Nat.testBit_mod_two_pow, Nat.testBit_div_two_pow, Nat.testBit_div_two_pow]
  by_cases hk : k < hi + 1 - lo
  · have hbit := h (k + lo) (by omega) (by omega)
    simp only [BitVec.getLsbD] at hbit
    rw [hbit]
  · simp [hk]

/-- Whether a mask covers a field. -/
def coversField (m : Word) (x : Fld) : Bool := (List.range 32).all fun k => decide (k < x.lo) || decide (x.hi < k) || m.getLsbD k

theorem bits_blend {m : Word} {x : Fld} (hx : x.fits) (hm : coversField m x = true) (v w : Word) :
    bits x.hi x.lo (blend m v w).toNat = bits x.hi x.lo v.toNat := by
  refine bits_congr fun k hlo hhi => ?_
  have hk : k < 32 := Nat.lt_of_le_of_lt hhi hx.2
  have hbit := List.all_eq_true.mp hm k (List.mem_range.mpr hk)
  have hcov : m.getLsbD k = true := by
    rcases Bool.or_eq_true_iff.mp hbit with h | h
    · rcases Bool.or_eq_true_iff.mp h with h | h
      · exact absurd (of_decide_eq_true h) (by omega)
      · exact absurd (of_decide_eq_true h) (by omega)
    · exact h
  have hget : m[k] = true := by rwa [BitVec.getLsbD_eq_getElem hk] at hcov
  simp [blend, hcov, hk, hget]

namespace State

/-! ### Tags -/

theorem nextTag_none {held : List Nat} {n t : Nat} (ht : t < 65536) (h : nextTag held n t = none) : ∀ k < n, (t + k) % 65536 ∈ held := by
  induction n generalizing t with
  | zero => exact fun k hk => absurd hk (Nat.not_lt_zero k)
  | succ n ih =>
    rw [nextTag] at h
    split at h
    next hmem =>
      intro k hk
      cases k with
      | zero =>
        rw [Nat.add_zero, Nat.mod_eq_of_lt ht]
        exact List.contains_iff_mem.mp hmem
      | succ k =>
        have hnext := ih (Nat.mod_lt (t + 1) (by decide)) h k (by omega)
        rwa [Nat.mod_add_mod, Nat.add_assoc, Nat.add_comm 1 k] at hnext
    next => exact nomatch h

/-- Where fewer than 65,536 tags are held, one more is found (R55). -/
theorem nextTag_found {held : List Nat} (h : held.length < 65536) (n : Nat) :
    ∃ t, nextTag held (held.length + 1) (n % 65536) = some t := by
  refine Option.ne_none_iff_exists'.mp fun hnone => ?_
  have hin := nextTag_none (Nat.mod_lt n (by decide)) hnone
  have hnodup : ((List.range (held.length + 1)).map fun k => (n % 65536 + k) % 65536).Nodup := by
    refine List.Nodup.map_on (fun a ha b hb hab => ?_) List.nodup_range
    have ha' := List.mem_range.mp ha
    have hb' := List.mem_range.mp hb
    omega
  have hsub : ((List.range (held.length + 1)).map fun k => (n % 65536 + k) % 65536) ⊆ held := by
    intro x hx
    obtain ⟨k, hk, rfl⟩ := List.mem_map.mp hx
    exact hin k (List.mem_range.mp hk)
  have hlen := (hnodup.subperm hsub).length_le
  simp only [List.length_map, List.length_range] at hlen
  omega

theorem nextTag_lt {held : List Nat} {n t u : Nat} (ht : t < 65536) (h : nextTag held n t = some u) : u < 65536 := by
  induction n generalizing t with
  | zero => exact nomatch h
  | succ n ih =>
    rw [nextTag] at h
    split at h
    · exact ih (Nat.mod_lt _ (by decide)) h
    · rw [← Option.some.inj h]
      exact ht

theorem pickTag_found (s : State) {l : Nat} (hl : (s.link l).outst.length < 4096) (ht : s.heldTags.length < 65536) :
    ∃ t < 65536, s.pickTag l = some t := by
  obtain ⟨t, h⟩ := nextTag_found ht s.free
  refine ⟨t, nextTag_lt (Nat.mod_lt _ (by decide)) h, ?_⟩
  rw [pickTag, if_neg (by omega)]
  exact h

/-! ### A request that is issued -/

/-- An outstanding request of the bridge. -/
def reqOf (t : Nat) (h : ReqHdr) (wr : Bool) (pur : Purpose) : OutReq :=
  { tag := t, vc := h.vc.val, addr := h.addr.toNat, granules := granulesOf h.len.toNat, destId := h.reqId, wr := wr, purpose := pur }

/-- A link with one more outstanding request. -/
def withReq (k : Link) (r : OutReq) : Link := { k with outst := k.outst ++ [r] }

/-- What issuing a request leaves: the packet has gone to Thaty egress, and the request is outstanding on the link. -/
structure Issues (s t : State) (l : Nat) (h : ReqHdr) (wr : Bool) (data : List Byte) (pur : Purpose) (tag : BitVec 16) : Prop where
  sent : Output.packet l (if wr then .mwr { h with tag := tag } data else .mrd { h with tag := tag }) ∈ t.outp
  outp : s.outp ⊆ t.outp
  link : (t.link l).offTx = (withReq (s.link l) (reqOf tag.toNat h wr pur)).offTx
  others : s.sameLinksBut t l
  eq : t = { s with links := t.links, outp := t.outp, freeCount := s.freeCount + 1, freeNext := t.freeNext }

theorem sameLinksBut_handPkt (s : State) (l : Nat) (t : TxPkt) : s.sameLinksBut (s.handPkt l t) (s.route l) := by
  have hput : s.sameLinksBut ((s.emit (.packet (s.route l) t.pkt)).modLink (s.route l) fun k => { k with egress := k.egress ++ [t] }) (s.route l) :=
    sameLinksBut.trans (s := s) (t := s.emit (.packet (s.route l) t.pkt)) (fun _ _ => rfl) (sameLinksBut_modLink _ (s.route l) _)
  exact hput.trans (sameLinksBut_pump (s.route l) _ _)

theorem issue_issues (s : State) {l₀ id a z : Nat} {wr : Bool} {h : ReqHdr} {data : List Byte} {pur : Purpose} {inst : Option Nat}
    (hroute : (s.link (s.route l₀)).moved = false) (hout : (s.link (s.route l₀)).outst.length < 4096) (ht : s.heldTags.length < 65536)
    (hgate : s.judge (gTlink l₀) id a z (!wr) wr = .ok) :
    ∃ t tag, s.issue l₀ id wr h data a z pur inst = (.sent, t) ∧ s.Issues t (s.route l₀) h wr data pur tag := by
  obtain ⟨n, hn, hpick⟩ := s.pickTag_found hout ht
  have hgo := gateCheck_ok hgate inst none
  have hissue : s.issue l₀ id wr h data a z pur inst
      = (.sent, (s.draw.modLink (s.route l₀) fun k => withReq k (reqOf n h wr pur)).handTx (s.route l₀)
          (if wr then .mwr { h with tag := BitVec.ofNat 16 n } data else .mrd { h with tag := BitVec.ofNat 16 n })) := by
    unfold issue
    dsimp only
    rw [hpick]
    dsimp only
    rw [hgo]
    rfl
  have hmod := s.draw.link_modLink_same (s.route l₀) fun k => withReq k (reqOf n h wr pur)
  have hothers := sameLinksBut_modLink s.draw (s.route l₀) fun k => withReq k (reqOf n h wr pur)
  have hwith : (s.draw.modLink (s.route l₀) fun k => withReq k (reqOf n h wr pur))
      = { s with links := (s.draw.modLink (s.route l₀) fun k => withReq k (reqOf n h wr pur)).links, freeCount := s.freeCount + 1
                 freeNext := s.draw.freeNext } := rfl
  have htag : (BitVec.ofNat 16 n).toNat = n := by
    rw [BitVec.toNat_ofNat]
    exact Nat.mod_eq_of_lt hn
  have hsame : s.draw.link (s.route l₀) = s.link (s.route l₀) := rfl
  rw [hsame] at hmod
  generalize (s.draw.modLink (s.route l₀) fun k => withReq k (reqOf n h wr pur)) = u at hissue hmod hothers hwith
  have hmoved : (u.link (s.route l₀)).moved = false := by rw [hmod]; exact hroute
  have hself : u.route (s.route l₀) = s.route l₀ := by
    rw [route, hmoved]
    rfl
  have houtu : u.outp = s.outp := by rw [hwith]
  have hoffu : u.freeCount = s.freeCount + 1 := by rw [hwith]
  generalize hp : (if wr then Packet.mwr { h with tag := BitVec.ofNat 16 n } data else .mrd { h with tag := BitVec.ofNat 16 n }) = p at hissue
  have hsent := outp_handTx u (s.route l₀) p []
  have hoff := offLinks_handTx u (s.route l₀) p []
  rw [hself, houtu] at hsent
  refine ⟨_, BitVec.ofNat 16 n, hissue, ?_, fun o ho => hsent (List.mem_cons_of_mem _ ho), ?_, ?_, ?_⟩
  · rw [hp]
    exact hsent List.mem_cons_self
  · rw [(sameRx_handTx u (s.route l₀) p []).link, hmod, htag]
  · have hhand := sameLinksBut_handPkt u (s.route l₀) (u.txNow p [])
    rw [hself] at hhand
    exact sameLinksBut.trans (s := s) hothers hhand
  · have hnext : (u.handTx (s.route l₀) p).freeNext = s.draw.freeNext := by
      have hu : (u.handTx (s.route l₀) p).freeNext = u.freeNext := (congrArg State.freeNext hoff : (u.handTx (s.route l₀) p).offLinks.freeNext = _)
      rw [hu, hwith]
    rw [hnext]
    exact (eq_of_offLinks hoff).trans (congrArg (fun x : State => { x with
      links := (u.handTx (s.route l₀) p).links, outp := (u.handTx (s.route l₀) p).outp }) hwith)

end State

end Sys2Proof.Machine
end

section
/-! PROOFS. The registers of the management queue (R257, R272). -/

namespace Sys2Proof.Machine

namespace State

/-- The bridge works where a write goes to a register that cannot be written in HALT. -/
theorem works_of_goesWrite {s : State} {a : Acc} {id : RegId} {i : Nat} {v : Word} (hg : s.goesWrite a id i v = true)
    (ht : targetAt (regOff id i) = .reg id i) (hk : blockAt (regOff id i) ≠ some .kst) (hh : haltReg (.reg id i) = false) : s.works = true := by
  have hgo := (goes_iff s _).mp (Bool.and_eq_true_iff.mp hg).1
  obtain ⟨b, hb, hmode⟩ := hgo.block
  have hr : s.mode ≠ .reset := by
    intro hm
    have hreach := hgo.reach
    simp [canReach, hm] at hreach
  have hhalt : s.mode ≠ .halt := by
    intro hm
    have hoff : (wordWrite a (regOff id i) v).off = regOff id i := rfl
    have hblock : blockAt (regOff id i) = some b := hb
    have hb' : b ≠ .kst := fun h => hk (by rw [hblock, h])
    simp [modeRefuses, hm, hoff, ht, hh, hb', wordWrite] at hmode
  simp [works, hr, hhalt]

/-! ### Writes from masters without P -/

/-- A write to MGT from a master without P = 1 is ignored, and sets UNPRIV (R257). -/
theorem mgtWrite_unpriv {s : State} {a : Acc} {id : RegId} {i : Nat} {v : Word} (hg : s.goesWrite a id i v = true)
    (ht : targetAt (regOff id i) = .reg id i) (hk : id.row.keyed = false) (hb : id.row.block = .mgt) (hp : accPriv a = false) :
    ∃ t, writeRow a id i v s = .next t ∧ t.f Fld.mgtStat_unpriv = 1 ∧ s.onlyFields t [(Fld.mgtStat_unpriv, 0)]
      ∧ t = { s.asideFrom t with regs := t.regs } := by
  obtain ⟨hgo, -⟩ := Bool.and_eq_true_iff.mp hg
  have hreach : s.start.reaches a id i = false := by rw [reaches, hb]; exact hp
  have hwrite : s.start.writeWord a (regOff id i) v false = s.start.setF Fld.mgtStat_unpriv 1 := by
    unfold writeWord
    simp [ht, hk, hreach, hb]
  have hne : id ≠ .updStrobe := by
    rintro rfl
    exact absurd hb (by decide)
  have hrow := exec_wordWrite (v := v) hgo (fun k => by rw [ht]; exact ⟨nofun, nofun⟩)
    (isStrobe_of_ne fun j hj => hne (Target.reg.inj (ht.symm.trans hj)).1)
  rw [hwrite] at hrow
  have hans := (s.start.setF Fld.mgtStat_unpriv 1).offAnswer_wordWrite a (regOff id i) v (.done [])
  have hregs := (keys_of_offAnswer hans).1
  refine ⟨_, hrow, ?_, ?_, ?_⟩
  · rw [f_congr hregs, f_setF_same _ (by decide)]
    rfl
  · exact ((onlyFields.refl s.start _).setF (List.mem_singleton_self _) (by decide) (wordsApart_singleton _ _) 1).congr hregs
  · have heq := eq_of_offAnswer hans
    rw [hregs]
    exact heq

/-! ### MGT_DB -/

theorem mgtFetch_idle (s : State) (h : s.mgt.st ≠ .run ∨ s.mgt.fetching = true ∨ s.mgt.cmd ≠ none ∨ s.mgt.head = s.f Fld.mgtDb_tail) :
    s.mgtFetch = s := by
  refine if_pos ?_
  rcases h with h | h | h | h
  · exact .inl h
  · exact .inr (.inl h)
  · exact .inr (.inr (.inl (Option.isSome_iff_ne_none.mpr h)))
  · exact .inr (.inr (.inr (.inl h)))

/-- The registers that hold the floors of the Landing pools. -/
def floorFlds : List Fld := [Fld.jnlLndFloor_p, Fld.jnlLndFloor_n, Fld.jnlLndFloor_k]

/-- The grains that can be taken rest on the floors, and on what holds grains. -/
theorem takeRoom_of_regs {s t : State} (h : t = { s with regs := t.regs }) (hf : ∀ x ∈ floorFlds, ∀ i < 4, t.f x i = s.f x i) {pool : Nat}
    (hp : pool < 12) (g : Nat) : t.takeRoom pool g = s.takeRoom pool g := by
  have hcap (p : Nat) (hp : p < 12) : t.floorCap p = s.floorCap p := by
    have hi : p / 3 < 4 := by omega
    simp only [floorCap, hf Fld.jnlLndFloor_p (by decide) _ hi, hf Fld.jnlLndFloor_n (by decide) _ hi, hf Fld.jnlLndFloor_k (by decide) _ hi]
  have hcaps : (List.range 12).map t.floorCap = (List.range 12).map s.floorCap :=
    List.map_congr_left fun p hp => hcap p (List.mem_range.mp hp)
  have hholds : t.holds = s.holds := by
    rw [h]
    rfl
  have hout : t.landOut = s.landOut := by rw [h]
  rw [takeRoom, takeRoom, floorUsed, floorUsed, sharedFree, sharedFree, hcap pool hp, hcaps, hholds, hout]

/-- The command at the head is fetched: space is held, and the read goes out (R257, R209). -/
theorem mgtFetch_fetches (s : State) {h : Hold} (hst : s.mgt.st = .run) (hf : s.mgt.fetching = false) (hc : s.mgt.cmd = none)
    (hne : s.mgt.head ≠ s.f Fld.mgtDb_tail) (hw : s.works = true) (hroom : s.takeRoom (3 * s.mgtVc + 2) 1 = some h)
    (hread : s.canRead s.mgtLink s.mgtIdent (s.mgtSlot s.mgt.head) 64) :
    ∃ t tag, s.mgtFetch = t.modMgt (fun m => { m with fetching := true, hold := h })
      ∧ s.Issues t (s.route s.mgtLink) (spanHdr s.mgtVc false s.bridgeId 0 (s.mgtSlot s.mgt.head) 64) false [] .mgt tag := by
  obtain ⟨hmoved, hout, htags, hgate⟩ := hread
  obtain ⟨t, tag, hissue, hiss⟩ := s.issue_issues (h := spanHdr s.mgtVc false s.bridgeId 0 (s.mgtSlot s.mgt.head) 64) (data := []) (pur := .mgt)
    (inst := none) (wr := false) hmoved hout htags hgate
  have hgo : ¬ (s.mgt.st ≠ .run ∨ s.mgt.fetching = true ∨ s.mgt.cmd.isSome = true ∨ s.mgt.head = s.f Fld.mgtDb_tail ∨ (!s.works) = true) := by
    simp [hst, hf, hc, hne, hw]
  have hmgt : s.mgtRead (s.mgtSlot s.mgt.head) 64 .mgt = (.sent, t.modMgt fun m => { m with hold := h }) := by
    have hg : grainsOf 64 = 1 := by decide
    unfold mgtRead
    rw [hg, hroom]
    dsimp only
    rw [hissue]
    rfl
  refine ⟨t, tag, ?_, hiss⟩
  have hfetch : s.mgtFetch = (match (s.mgtRead (s.mgtSlot s.mgt.head) 64 .mgt).1 with
      | .sent => (s.mgtRead (s.mgtSlot s.mgt.head) 64 .mgt).2.modMgt fun m => { m with fetching := true }
      | .refused => (s.mgtRead (s.mgtSlot s.mgt.head) 64 .mgt).2.mgtFault 2
      | .full => s) := if_neg hgo
  rw [hfetch, hmgt]
  rfl

/-- The state with the tail of the management queue at a slot. -/
def mgtTailAt (s : State) (n : Nat) : State := s.setF Fld.mgtDb_tail n

theorem mgtTailAt_at (s : State) {n : Nat} (hn : n < 2 ^ 16) : (s.mgtTailAt n).f Fld.mgtDb_tail = n
    ∧ s.onlyFields (s.mgtTailAt n) [(Fld.mgtDb_tail, 0)] ∧ s.mgtTailAt n = { s with regs := (s.mgtTailAt n).regs }
    ∧ s.sameGates (s.mgtTailAt n) := by
  refine ⟨?_, onlyFields_setF s (List.mem_singleton_self _) (by decide) (wordsApart_singleton _ _) n, rfl, sameGates_setReg s (by decide) _⟩
  rw [mgtTailAt, f_setF_same _ (by decide)]
  exact Nat.mod_eq_of_lt hn

theorem mgtTailAt_f (s : State) (n : Nat) {x : Fld} {i : Nat} (h : regOff x.id i ≠ regOff .mgtDb 0) : (s.mgtTailAt n).f x i = s.f x i :=
  f_setF_ne (x := Fld.mgtDb_tail) (i := 0) s h n

theorem floor_apart : ∀ x ∈ floorFlds, ∀ i < 4, regOff x.id i ≠ regOff .mgtDb 0 := by decide

theorem mgtVc_lt (s : State) : s.mgtVc < 4 := s.f_lt Fld.mgtQCfg_vc 0

/-- What the queue's fetches rest on does not change with its tail. -/
theorem mgtTailAt_fetch (s : State) (n : Nat) : (s.mgtTailAt n).mgtLink = s.mgtLink ∧ (s.mgtTailAt n).mgtVc = s.mgtVc
    ∧ (s.mgtTailAt n).mgtIdent = s.mgtIdent ∧ (s.mgtTailAt n).bridgeId = s.bridgeId ∧ (∀ k, (s.mgtTailAt n).mgtSlot k = s.mgtSlot k)
    ∧ (∀ pool < 12, ∀ g, (s.mgtTailAt n).takeRoom pool g = s.takeRoom pool g) ∧ (∀ l, (s.mgtTailAt n).route l = s.route l) := by
  have hid : (s.mgtTailAt n).bridgeId = s.bridgeId := congrArg (BitVec.ofNat 20) (s.mgtTailAt_f n (by decide))
  refine ⟨s.mgtTailAt_f n (by decide), s.mgtTailAt_f n (by decide), ?_, hid, fun k => ?_, fun pool hp g => ?_, fun l => rfl⟩
  · rw [mgtIdent, hid, mgtIdent]
  · rw [mgtSlot, mgtSlot, ringBase, ringBase, mgtTailAt_f s n (by decide), mgtTailAt_f s n (by decide)]
  · exact takeRoom_of_regs rfl (fun x hx i hi => s.mgtTailAt_f n (floor_apart x hx i hi)) hp g

theorem mgtDb_writes (s : State) {a : Acc} {v : Word} (hg : s.goesWrite a .mgtDb 0 v = true) (hp : accPriv a = true) :
    ∃ t, exec (.mgtDb a v) s = .next t ∧ s.Writes a .mgtDb 0 v (s.start.writeMgtDb v) t :=
  writeRow_writes hg (by decide) rfl (by decide) hp (lockBreaks_free rfl _)

theorem mgtDb_bad (s : State) {a : Acc} {v : Word} (hg : s.goesWrite a .mgtDb 0 v = true) (hp : accPriv a = true)
    (hv : 2 ^ s.f Fld.mgtQCfg_size ≤ v.toNat % 2 ^ 16) :
    ∃ t, exec (.mgtDb a v) s = .next t ∧ t.f Fld.mgtStat_bad_db = 1 ∧ s.onlyFields t [(Fld.mgtStat_bad_db, 0)]
      ∧ t = { s.asideFrom t with regs := t.regs } := by
  obtain ⟨t, hexec, hw⟩ := s.mgtDb_writes hg hp
  have heff : s.start.writeMgtDb v = s.start.setF Fld.mgtStat_bad_db 1 := if_pos hv
  rw [heff] at hw
  refine ⟨t, hexec, ?_, ?_, ?_⟩
  · rw [f_congr hw.regs, f_setF_same _ (by decide)]
    rfl
  · exact (onlyFields_setF s.start (List.mem_singleton_self _) (by decide) (wordsApart_singleton _ _) 1).congr hw.regs
  · have heq := hw.eq
    rw [hw.regs]
    exact heq

theorem mgtDb_tail (s : State) {a : Acc} {v : Word} (hg : s.goesWrite a .mgtDb 0 v = true) (hp : accPriv a = true)
    (hv : v.toNat % 2 ^ 16 < 2 ^ s.f Fld.mgtQCfg_size) :
    ∃ t, exec (.mgtDb a v) s = .next t ∧ s.Writes a .mgtDb 0 v (s.start.mgtTailAt (v.toNat % 2 ^ 16)).mgtFetch t := by
  obtain ⟨t, hexec, hw⟩ := s.mgtDb_writes hg hp
  have hsize : s.start.f Fld.mgtQCfg_size = s.f Fld.mgtQCfg_size := rfl
  have heff : s.start.writeMgtDb v = (s.start.mgtTailAt (v.toNat % 2 ^ 16)).mgtFetch := if_neg (by rw [hsize]; omega)
  rw [heff] at hw
  exact ⟨t, hexec, hw⟩

theorem mgtDb_moves (s : State) {a : Acc} {v : Word} (hg : s.goesWrite a .mgtDb 0 v = true) (hp : accPriv a = true)
    (hv : v.toNat % 2 ^ 16 < 2 ^ s.f Fld.mgtQCfg_size)
    (h : s.mgt.st ≠ .run ∨ s.mgt.fetching = true ∨ s.mgt.cmd ≠ none ∨ s.mgt.head = v.toNat % 2 ^ 16) :
    ∃ t, exec (.mgtDb a v) s = .next t ∧ t.f Fld.mgtDb_tail = v.toNat % 2 ^ 16 ∧ s.onlyFields t [(Fld.mgtDb_tail, 0)]
      ∧ t = { s.asideFrom t with regs := t.regs } := by
  obtain ⟨t, hexec, hw⟩ := s.mgtDb_tail hg hp hv
  obtain ⟨htail, honly, hwith, -⟩ := s.start.mgtTailAt_at (Nat.mod_lt v.toNat (Nat.two_pow_pos 16))
  generalize s.start.mgtTailAt (v.toNat % 2 ^ 16) = u at hw htail honly hwith
  have hmgt : u.mgt = s.mgt := by rw [hwith]; rfl
  rw [mgtFetch_idle u (by rw [hmgt, htail]; exact h)] at hw
  refine ⟨t, hexec, ?_, honly.congr hw.regs, ?_⟩
  · rw [f_congr hw.regs, htail]
  · have heq := hw.eq
    rw [hwith] at heq
    rw [hw.regs]
    exact heq

theorem mgtDb_fetches (s : State) {a : Acc} {v : Word} {h : Hold} (hg : s.goesWrite a .mgtDb 0 v = true) (hp : accPriv a = true)
    (hv : v.toNat % 2 ^ 16 < 2 ^ s.f Fld.mgtQCfg_size) (hst : s.mgt.st = .run) (hf : s.mgt.fetching = false) (hc : s.mgt.cmd = none)
    (hne : s.mgt.head ≠ v.toNat % 2 ^ 16) (hroom : s.takeRoom (3 * s.mgtVc + 2) 1 = some h)
    (hread : s.canRead s.mgtLink s.mgtIdent (s.mgtSlot s.mgt.head) 64) :
    ∃ t, exec (.mgtDb a v) s = .next t ∧ t.f Fld.mgtDb_tail = v.toNat % 2 ^ 16 ∧ s.onlyFields t [(Fld.mgtDb_tail, 0)]
      ∧ t.mgt = { s.mgt with fetching := true, hold := h }
      ∧ (∃ tag, .packet (s.route s.mgtLink)
          (.mrd { spanHdr s.mgtVc false s.bridgeId 0 (s.mgtSlot s.mgt.head) 64 with tag := tag }) ∈ t.outp)
      ∧ t = { s.asideFrom t with regs := t.regs, mgt := t.mgt, freeCount := s.freeCount + 1, freeNext := t.freeNext } := by
  have hworks : s.works = true := works_of_goesWrite hg (by decide) (by decide) rfl
  obtain ⟨t, hexec, hw⟩ := s.mgtDb_tail hg hp hv
  obtain ⟨htail, honly, hwith, hgates⟩ := s.start.mgtTailAt_at (Nat.mod_lt v.toNat (Nat.two_pow_pos 16))
  obtain ⟨hlink, hvc, hident, hid, hslot, htake, hroute⟩ := s.start.mgtTailAt_fetch (v.toNat % 2 ^ 16)
  generalize s.start.mgtTailAt (v.toNat % 2 ^ 16) = u at hw htail honly hwith hgates hlink hvc hident hid hslot htake hroute
  have hmgt : u.mgt = s.mgt := by rw [hwith]; rfl
  have huw : u.works = true := by rw [hwith]; exact hworks
  have hpool : 3 * s.start.mgtVc + 2 < 12 := by have := mgtVc_lt s.start; omega
  have huroom : u.takeRoom (3 * u.mgtVc + 2) 1 = some h := by
    rw [hvc, htake _ hpool]
    exact hroom
  have huread : u.canRead u.mgtLink u.mgtIdent (u.mgtSlot u.mgt.head) 64 := by
    obtain ⟨hmoved, hout, htags, hgate⟩ := hread
    refine ⟨?_, ?_, ?_, ?_⟩
    · rw [hlink, hroute, hwith]
      exact hmoved
    · rw [hlink, hroute, hwith]
      exact hout
    · rw [hwith]
      exact htags
    · rw [hgates.2, hlink, hident, hslot, hmgt, (sameGates_of_regs (s := s) (t := s.start) rfl rfl rfl).2]
      exact hgate
  obtain ⟨w, tag, hfetch, hiss⟩ := u.mgtFetch_fetches (by rw [hmgt, hst]) (by rw [hmgt, hf]) (by rw [hmgt, hc]) (by rw [hmgt, htail]; exact hne) huw huroom
    huread
  rw [hfetch] at hw
  have hmod : (w.modMgt fun m => { m with fetching := true, hold := h }).regs = u.regs := by
    rw [modMgt]
    dsimp only
    rw [hiss.eq]
  have hregs := hw.regs.trans hmod
  have hwm : (w.modMgt fun m => { m with fetching := true, hold := h }).mgt = { s.mgt with fetching := true, hold := h } := by
    rw [modMgt]
    dsimp only
    rw [hiss.eq]
    dsimp only
    rw [hmgt]
  have htm : t.mgt = { s.mgt with fetching := true, hold := h } := by
    rw [← hwm]
    exact (congrArg State.mgt hw.answer : t.offAnswer.mgt = _)
  refine ⟨t, hexec, ?_, honly.congr hregs, htm, ⟨tag, ?_⟩, ?_⟩
  · rw [f_congr hregs, htail]
  · have hsent := hiss.sent
    rw [hlink, hvc, hid, hslot, hroute, hmgt] at hsent
    exact hw.outp hsent
  · have hcount : u.freeCount = s.freeCount := by rw [hwith]; rfl
    have hfetched : t = { w with outp := t.outp, links := t.links, slowQ := t.slowQ, regs := t.regs, mgt := t.mgt, freeNext := t.freeNext } :=
      congrArg (fun x : State => { x with
        outp := t.outp, links := t.links, slowQ := t.slowQ, regs := t.regs, mgt := t.mgt, freeNext := t.freeNext }) hw.answer
    refine hfetched.trans ((congrArg (fun x : State => { x with
      outp := t.outp, links := t.links, slowQ := t.slowQ, regs := t.regs, mgt := t.mgt, freeNext := t.freeNext }) hiss.eq).trans ?_)
    rw [hcount]
    exact congrArg (fun x : State => { x with
      outp := t.outp, links := t.links, slowQ := t.slowQ, regs := t.regs, mgt := t.mgt, freeCount := s.freeCount + 1
      freeNext := t.freeNext }) hwith

/-! ### MGT_Q_CFG and MGT_CTL -/

theorem setBits_top (v : Word) : bit 31 (setBits 31 31 1 v).toNat = true := by
  have h := bits_setBits_same (hi := 31) (lo := 31) (by decide) (by decide) 1 v
  rw [bit_eq_bits, h]
  rfl

/-- A write that stores in a register without shadowed fields and without locks. -/
theorem store_unlocked (s : State) {id : RegId} (hrws : id.row.rws = 0) {i : Nat} (hl : s.lockMask id i = 0) (v : Word) :
    s.store id i v = s.putRw id i id.row.rw v := by
  have hall : ~~~(0 : Word) = BitVec.allOnes 32 := rfl
  unfold store
  dsimp only
  rw [hl, hrws, hall, BitVec.and_allOnes]
  exact if_pos (BitVec.zero_and ..)

theorem f_putRw (s : State) {x : Fld} {m : Word} (hx : x.fits) (hm : coversField m x = true) (i : Nat) (v : Word) :
    (s.putRw x.id i m v).f x i = bits x.hi x.lo v.toNat := by
  rw [f, reg_putRw, bits_blend hx hm]

theorem mgtEnable_enables (s : State) (a : Acc) (v : Word) (hp : accPriv a = true) (hg : s.goesWrite a .mgtQCfg 0 (setBits 31 31 1 v) = true)
    (hen : s.fb Fld.mgtQCfg_en = false) (hst : s.mgt.st = .off) (htail : s.f Fld.mgtDb_tail = 0) :
    ∃ t, exec (.mgtEnable a v) s = .next t ∧ t.f Fld.mgtQCfg_en = 1 ∧ t.f Fld.mgtQCfg_size = bits 4 0 v.toNat
      ∧ t.f Fld.mgtQCfg_link = bits 22 22 v.toNat ∧ t.f Fld.mgtQCfg_vc = bits 21 20 v.toNat
      ∧ t.mgt = { s.mgt with head := 0, phase := true, st := .run } ∧ s.onlyRegs t [(.mgtQCfg, 0)]
      ∧ t = { s.asideFrom t with regs := t.regs, mgt := t.mgt } := by
  have hlock : s.lockMask .mgtQCfg 0 = 0 := if_neg (by simp [hen])
  obtain ⟨t, hexec, hw⟩ := writeRow_writes hg (by decide) rfl (by decide) hp (lockBreaks_free hlock _)
  have hput := s.start.store_unlocked (id := .mgtQCfg) (i := 0) rfl hlock (setBits 31 31 1 v)
  have heff : s.start.writeEffect a .mgtQCfg 0 (setBits 31 31 1 v)
      = ((s.start.store .mgtQCfg 0 (setBits 31 31 1 v)).modMgt fun m => { m with
        head := 0, phase := true, st := if m.st = .fault then .fault else .run }).mgtFetch := if_pos (setBits_top v)
  rw [hput] at heff
  have hf (x : Fld) (hid : x.id = .mgtQCfg) (hx : x.fits) (hm : coversField RegId.mgtQCfg.row.rw x = true) :
      (s.start.putRw .mgtQCfg 0 RegId.mgtQCfg.row.rw (setBits 31 31 1 v)).f x = bits x.hi x.lo (setBits 31 31 1 v).toNat := by
    rw [← hid] at hm ⊢
    exact s.start.f_putRw hx hm 0 _
  have honly := onlyRegs_putRw s.start .mgtQCfg 0 RegId.mgtQCfg.row.rw (setBits 31 31 1 v) (List.mem_singleton_self _)
  have hwith := eq_of_offRegs (offRegs_putRw s.start .mgtQCfg 0 RegId.mgtQCfg.row.rw (setBits 31 31 1 v))
  generalize s.start.putRw .mgtQCfg 0 RegId.mgtQCfg.row.rw (setBits 31 31 1 v) = u at heff hf honly hwith
  have hmgt : u.mgt = s.mgt := by rw [hwith]; rfl
  have hutail : (u.modMgt fun m => { m with head := 0, phase := true, st := if m.st = .fault then .fault else .run }).f Fld.mgtDb_tail = 0 := by
    have hsame : (u.modMgt fun m => { m with head := 0, phase := true, st := if m.st = .fault then .fault else .run }).regs = u.regs := rfl
    rw [f_congr hsame]
    exact (honly.f_eq (by decide)).trans htail
  rw [mgtFetch_idle _ (.inr (.inr (.inr hutail.symm)))] at heff
  rw [heff] at hw
  have hregs : t.regs = u.regs := hw.regs
  have htm : t.mgt = { s.mgt with head := 0, phase := true, st := .run } := by
    have h : t.mgt = { u.mgt with head := 0, phase := true, st := if u.mgt.st = .fault then .fault else .run } :=
      (congrArg State.mgt hw.answer : t.offAnswer.mgt = _)
    rw [h, hmgt, hst]
    rfl
  refine ⟨t, hexec, ?_, ?_, ?_, ?_, htm, honly.congr hregs, ?_⟩
  · rw [f_congr hregs, hf _ rfl (by decide) (by decide)]
    exact bits_setBits_same (by decide) (by decide) 1 v
  · rw [f_congr hregs, hf _ rfl (by decide) (by decide)]
    exact bits_setBits_apart (by decide) (by decide) (by decide) 1 v
  · rw [f_congr hregs, hf _ rfl (by decide) (by decide)]
    exact bits_setBits_apart (by decide) (by decide) (by decide) 1 v
  · rw [f_congr hregs, hf _ rfl (by decide) (by decide)]
    exact bits_setBits_apart (by decide) (by decide) (by decide) 1 v
  · have hE : t = { u with outp := t.outp, links := t.links, slowQ := t.slowQ, regs := t.regs, mgt := t.mgt } :=
      congrArg (fun x : State => { x with outp := t.outp, links := t.links, slowQ := t.slowQ, regs := t.regs, mgt := t.mgt }) hw.answer
    exact hE.trans (congrArg (fun x : State => { x with
      outp := t.outp, links := t.links, slowQ := t.slowQ, regs := t.regs, mgt := t.mgt }) hwith)

theorem mgtResume_resumes (s : State) (a : Acc) (v : Word) (hp : accPriv a = true) (hg : s.goesWrite a .mgtCtl 0 (setBits 0 0 1 v) = true)
    (hst : s.mgt.st = .fault) (hheld : s.mgt.heldRes = []) (hhead : s.mgt.head = s.f Fld.mgtDb_tail) :
    ∃ t, exec (.mgtResume a v) s = .next t ∧ t.mgt = { s.mgt with st := if s.fb Fld.mgtQCfg_en then .run else .off }
      ∧ t = { s.asideFrom t with mgt := t.mgt } := by
  obtain ⟨t, hexec, hw⟩ := writeRow_writes hg (by decide) rfl (by decide) hp (lockBreaks_free rfl _)
  have hbit : bit 0 (setBits 0 0 1 v).toNat = true := by
    rw [bit_eq_bits, bits_setBits_same (by decide) (by decide)]
    rfl
  have heff : s.start.writeEffect a .mgtCtl 0 (setBits 0 0 1 v)
      = s.start.modMgt fun m => { m with st := if s.fb Fld.mgtQCfg_en then .run else .off } := by
    have hgo : ¬ s.start.mgt.st ≠ .fault := fun h => h hst
    have hback : s.start.writeEffect a .mgtCtl 0 (setBits 0 0 1 v) = s.start.mgtGoOn := if_pos hbit
    have hsame : (s.start.modMgt fun m => { m with st := if s.start.fb Fld.mgtQCfg_en then .run else .off, heldRes := [] })
        = s.start.modMgt fun m => { m with st := if s.fb Fld.mgtQCfg_en then .run else .off } := by
      have hm : s.start.mgt.heldRes = [] := hheld
      simp only [modMgt]
      rw [← hm]
      rfl
    have hgoOn : s.start.mgtGoOn = (s.start.mgt.heldRes.foldl (fun s x => s.mgtWrite x.1 x.2.1 x.2.2)
        (s.start.modMgt fun m => { m with st := if s.start.fb Fld.mgtQCfg_en then .run else .off, heldRes := [] })).mgtFetch := if_neg hgo
    have hm : s.start.mgt.heldRes = [] := hheld
    rw [hback, hgoOn, hm, List.foldl_nil, hsame]
    exact mgtFetch_idle _ (.inr (.inr (.inr hhead)))
  rw [heff] at hw
  have htm : t.mgt = { s.mgt with st := if s.fb Fld.mgtQCfg_en then .run else .off } := (congrArg State.mgt hw.answer : t.offAnswer.mgt = _)
  refine ⟨t, hexec, htm, ?_⟩
  rw [htm]
  exact hw.eq

end State

/-- Settles O50: `writeMgtDb`, `writeMgtCfg` and `mgtGoOn`, each with the fetch that it may start. -/
theorem managementQueue : Obligations.ManagementQueue := by
  unfold Obligations.ManagementQueue
  refine ⟨fun s a v hg => ⟨fun hp => State.mgtWrite_unpriv hg (by decide) rfl rfl hp, fun hp hv => s.mgtDb_bad hg hp hv, fun hp hv =>
    ⟨fun h => s.mgtDb_moves hg hp hv h, fun h hst hf hc hne hroom hread => s.mgtDb_fetches hg hp hv hst hf hc hne hroom hread⟩⟩,
    fun s a v hp => ⟨fun hg hen hst htail => s.mgtEnable_enables a v hp hg hen hst htail,
      fun hg hst hheld hhead => s.mgtResume_resumes a v hp hg hst hheld hhead⟩⟩

end Sys2Proof.Machine
end

section
/-! PROOFS. The row of a keyed register: both writes of its pair are performed (R32). -/

namespace Sys2Proof.Machine

namespace State

/-- The state before an access, but for the pending halves and for what answering it may change. -/
def offPair (s : State) : State := { s with outp := [], links := [], slowQ := [], keyPend := [] }

theorem offPair_of_offAnswer {s t : State} (h : t.offAnswer = s.offAnswer) : t.offPair = s.offPair :=
  congrArg (fun u : State => { u with keyPend := [] }) h

theorem eq_of_offPair {s u : State} (h : u.offPair = s.offPair) :
    u = { s with outp := u.outp, links := u.links, slowQ := u.slowQ, keyPend := u.keyPend } :=
  congrArg (fun x : State => { x with outp := u.outp, links := u.links, slowQ := u.slowQ, keyPend := u.keyPend }) h

/-- An access goes after another non-posted one has been answered, while the crossing queue has room. -/
theorem Goes.after {s u : State} {r q : BcsReq} {res : BcsRes} (h : s.Goes r) (hsame : u.offPair = s.start.offPair) (hrx : s.SameRx u)
    (hq : u.slowQ = s.slowQ ∨ u.slowQ = s.slowQ ++ [(q, res)]) (hpost : isPosted q = false) (hroom : s.slowQ.length < 31) : u.Goes r := by
  have hregs : u.regs = s.regs := (congrArg State.regs hsame : u.offPair.regs = s.start.offPair.regs)
  have hmode : u.mode = s.mode := (congrArg State.mode hsame : u.offPair.mode = s.start.offPair.mode)
  have hpwr : u.pwr = s.pwr := (congrArg State.pwr hsame : u.offPair.pwr = s.start.offPair.pwr)
  have hphase : u.phase = s.phase := (congrArg State.phase hsame : u.offPair.phase = s.start.offPair.phase)
  have hflt : u.flt = s.start.flt := (congrArg State.flt hsame : u.offPair.flt = s.start.offPair.flt)
  have hstrobe : u.strobe = s.strobe := (congrArg State.strobe hsame : u.offPair.strobe = s.start.offPair.strobe)
  have hwait : u.bcsWait = s.bcsWait := (congrArg State.bcsWait hsame : u.offPair.bcsWait = s.start.offPair.bcsWait)
  have hinsts : u.insts = s.insts := (congrArg State.insts hsame : u.offPair.insts = s.start.offPair.insts)
  have hjudge : u.bcsJudge r = s.bcsJudge r := judge_congr hregs hmode hpwr ..
  have hrefuses (b : Block) : u.modeRefuses b r = s.modeRefuses b r := by simp only [modeRefuses, hmode, hpwr]
  have hlen : ¬ 32 ≤ u.slowQ.length ∧ ¬ 32 ≤ s.slowQ.length := by
    rcases hq with hq | hq <;> rw [hq] <;> simp <;> omega
  have hself : u.selfHeld r = s.selfHeld r := by
    simp only [selfHeld, hstrobe, hmode, hlen.1, hlen.2]
  have hcross : u.waitsCrossing r = s.waitsCrossing r := by
    rcases hq with hq | hq <;> simp [waitsCrossing, hq, hpost]
  have hmust : u.mustWait [] r = s.mustWait [] r := by
    simp only [mustWait, hcross, hself, waitsBehind, List.any_nil]
  have hplaced : u.fb Fld.tlkBcsBaseLo_placed = s.fb Fld.tlkBcsBaseLo_placed := by simp only [fb, f_congr hregs]
  have hstraps : u.f Fld.glbStraps_straps = s.f Fld.glbStraps_straps := f_congr hregs _ 0
  have hreach : u.canReach r.acc.src = s.canReach r.acc.src := by
    unfold canReach
    rw [hmode, hplaced, hstraps, hrx.flows, hrx.flows]
  have hreaches (id : RegId) (i : Nat) : u.reaches r.acc id i = s.reaches r.acc id i := by
    unfold reaches
    rw [inst_congr hinsts]
  have hprsv : u.prsvStops r = s.prsvStops r := by
    unfold prsvStops prsvWord
    simp only [hreaches, hwait, h.alone, hmust, hrefuses, hjudge]
  exact ⟨hreach.trans h.reach, hwait.trans h.alone, h.form, hmust.trans h.free,
    h.block.imp fun b hb => ⟨hb.1, (hrefuses b).trans hb.2⟩, hjudge.trans h.judge, hprsv.trans h.prsv,
    fun he => h.entering ⟨hmode ▸ he.1, hphase ▸ he.2.1, he.2.2⟩, by rw [exOn, hflt]; exact h.exercise⟩

/-- What the row of a keyed register leaves: `u` is the state whose pair takes effect, `w` the state after that effect. -/
structure KeyedWrites (s : State) (a : Acc) (id : RegId) (i : Nat) (comp : Word) (u w t : State) : Prop where
  same : u.offPair = s.start.offPair
  rxFirst : s.SameRx u
  answer : t.offAnswer = w.offAnswer
  rx : w.SameRx t
  outp : w.outp ⊆ t.outp
  ended : w.slowQ = u.slowQ → u.ended t (wordWrite a (regOff id i + 4) comp) (.done [])

theorem slowQ_finishBcs (s : State) {r : BcsReq} (hv : r.via = .thaty ∨ r.via = .path) (res : BcsRes) :
    (s.finishBcs r res).slowQ = s.slowQ ∨ (s.finishBcs r res).slowQ = s.slowQ ++ [(r, res)] := by
  have hrespond : (s.respond r res).slowQ = s.slowQ := (congrArg State.slowQ (offLinks_respond s hv res) : (s.respond r res).offLinks.slowQ = s.offLinks.slowQ)
  unfold finishBcs
  split
  · split
    · exact .inr rfl
    · exact .inl hrespond
  · exact .inl hrespond

/-- The first half of a keyed pair waits in its block, and what goes at once still does. -/
theorem keyedFirst_waits {s : State} {a : Acc} {id : RegId} {i : Nat} {v comp : Word} (hg : s.goesKeyed a id i v comp = true)
    (ht : targetAt (regOff id i) = .reg id i) (hk : id.row.keyed = true) :
    ∃ (b : Block) (y : State), blockAt (regOff id i) = some b ∧ s.start.bcsRun (wordWrite a (regOff id i) v) = .next y
      ∧ y.offPair = s.start.offPair ∧ s.SameRx y
      ∧ FMap.find b.base y.keyPend = some { off := regOff id i, val := v, src := a.src, reqId := a.reqId }
      ∧ ∀ r, s.Goes r → y.Goes r := by
  simp only [goesKeyed, Bool.and_eq_true, Bool.not_eq_true', beq_iff_eq, decide_eq_true_eq] at hg
  obtain ⟨⟨⟨⟨⟨hp, -⟩, hfirst⟩, -⟩, hn⟩, hroom⟩ := hg
  obtain ⟨b, hb⟩ : ∃ b, blockAt (regOff id i) = some b := goes_block hfirst
  have hfree : s.start.breakPending b.base = s.start := breakPending_noPend s.start hb hn
  have hne (j : Nat) : id ≠ .updStrobe := by rintro rfl; exact absurd hk (by decide)
  have hrun : s.start.bcsRun (wordWrite a (regOff id i) v)
      = .next ((s.start.writeWord a (regOff id i) v false).finishBcs (wordWrite a (regOff id i) v) (.done [])) :=
    exec_wordWrite hfirst (fun k => by rw [ht]; exact ⟨nofun, nofun⟩)
      (isStrobe_of_ne fun j hj => hne j (Target.reg.inj (ht.symm.trans hj)).1)
  have hword : s.start.writeWord a (regOff id i) v false = { s.start with
      keyPend := FMap.put b.base { off := regOff id i, val := v, src := a.src, reqId := a.reqId } s.keyPend } := by
    unfold writeWord
    simp only [hb, ht, hk, if_true, hp, Bool.false_eq_true, if_false, keyFirst]
    rw [hfree]
    rfl
  rw [hword] at hrun
  generalize hx : ({ s.start with keyPend := FMap.put b.base _ s.keyPend } : State) = x at hrun
  have hxsame : x.offPair = s.start.offPair := by rw [← hx]; rfl
  have hxrx : s.SameRx x := sameRx_of_links (by rw [← hx]; rfl)
  have hxq : x.slowQ = s.slowQ := by rw [← hx]; rfl
  have hvia := viaOf_cases a
  have hans : (x.finishBcs (wordWrite a (regOff id i) v) (.done [])).offAnswer = x.offAnswer := x.offAnswer_finishBcs hvia _
  have hsame := (offPair_of_offAnswer hans).trans hxsame
  have hrx := hxrx.trans (x.sameRx_finishBcs (r := wordWrite a (regOff id i) v) hvia (.done []))
  have hslow := x.slowQ_finishBcs (r := wordWrite a (regOff id i) v) hvia (.done [])
  have hpend : (x.finishBcs (wordWrite a (regOff id i) v) (.done [])).keyPend = x.keyPend :=
    (congrArg State.keyPend hans : State.keyPend (offAnswer _) = x.offAnswer.keyPend)
  have hfind : FMap.find b.base x.keyPend = some { off := regOff id i, val := v, src := a.src, reqId := a.reqId } := by
    rw [← hx]
    exact FMap.find_put_same ..
  rw [hxq] at hslow
  rw [← hpend] at hfind
  generalize x.finishBcs (wordWrite a (regOff id i) v) (.done []) = y at hrun hsame hrx hslow hfind
  have hpost : isPosted (wordWrite a (regOff id i) v) = false := hp
  exact ⟨b, y, hb, hrun, hsame, hrx, hfind, fun r h => h.after hsame hrx hslow hpost hroom⟩

theorem keyedRow_writes {s : State} {a : Acc} {id : RegId} {i : Nat} {v comp : Word} (hg : s.goesKeyed a id i v comp = true)
    (ht : targetAt (regOff id i) = .reg id i) (hc : targetAt (regOff id i + 4) = .comp id i) (hk : id.row.keyed = true)
    (hok : keyValueOk id v = true) :
    ∃ u t, keyedRow a id i v comp s = .next t ∧ s.KeyedWrites a id i comp u (u.keyEffect id i v) t := by
  obtain ⟨b, y, hb, hrun, hsame, hrx, hfind, hgoes⟩ := keyedFirst_waits hg ht hk
  simp only [goesKeyed, Bool.and_eq_true, Bool.not_eq_true', beq_iff_eq, decide_eq_true_eq] at hg
  obtain ⟨⟨⟨⟨⟨hp, hcomp⟩, hfirst⟩, hsecond⟩, -⟩, -⟩ := hg
  have hgo : y.Goes (wordWrite a (regOff id i + 4) comp) := hgoes _ ((goes_iff s _).mp hsecond)
  obtain ⟨c, hb'⟩ := goes_block hsecond
  have hword' : y.writeWord a (regOff id i + 4) comp false = (y.dropPend b.base).keyEffect id i v := by
    obtain rfl : c = b := by
      have halign := formCause_aligned rfl ((goes_iff s _).mp hfirst).form
      exact Option.some.inj (hb'.symm.trans ((targetAt_comp hc (by simpa [wordWrite] using halign)).1.trans
        ((targetAt_reg ht halign).1.symm.trans hb)))
    rw [writeWord_comp y hc hb' hp, hcomp]
    exact keySecond_good y hfind rfl (by simp [samePend]) hok
  have hrun' : y.bcsRun (wordWrite a (regOff id i + 4) comp)
      = .next (((y.dropPend b.base).keyEffect id i v).finishBcs (wordWrite a (regOff id i + 4) comp) (.done [])) := by
    have hs : isStrobe (wordWrite a (regOff id i + 4) comp) = false := isStrobe_of_ne fun j hj => nomatch hc.symm.trans hj
    have hwr : (wordWrite a (regOff id i + 4) comp).wr = true := rfl
    rw [hgo.run rfl, ← hword']
    simp [bcsPerform, hwr, bcsWrite_wordWrite y a _ comp (fun k => by rw [hc]; exact ⟨nofun, nofun⟩), hs]
  refine ⟨y.dropPend b.base, _, ?_, hsame, hrx.trans (sameRx_of_links rfl), offAnswer_wordWrite _ a _ comp _, sameRx_finishBcs _ (viaOf_cases a) _,
    outp_finishBcs _ _ _, fun h => ended_finishBcs h _ _⟩
  rw [keyedRow, hrun]
  exact hrun'

theorem KeyedWrites.regs {s u w t : State} {a : Acc} {id : RegId} {i : Nat} {comp : Word} (h : s.KeyedWrites a id i comp u w t) :
    t.regs = w.regs ∧ u.regs = s.regs :=
  ⟨(congrArg State.regs h.answer : t.offAnswer.regs = w.offAnswer.regs), (congrArg State.regs h.same : u.offPair.regs = s.start.offPair.regs)⟩

/-- The state after a keyed pair whose effect is `w`. -/
theorem KeyedWrites.eq {s u w t : State} {a : Acc} {id : RegId} {i : Nat} {comp : Word} (h : s.KeyedWrites a id i comp u w t) :
    t = { w with outp := t.outp, links := t.links, slowQ := t.slowQ } ∧
    u = { s.start with outp := u.outp, links := u.links, slowQ := u.slowQ, keyPend := u.keyPend } :=
  ⟨eq_of_offAnswer h.answer, eq_of_offPair h.same⟩

/-- The state but for what a keyed pair and its answer may change. -/
def offKeyed (s : State) : State := { s.offPair with regs := [] }

/-- The state `x` in which the value of a keyed pair has been stored in its register, and takes effect. -/
structure KeyPut (s : State) (id : RegId) (i : Nat) (v : Word) (x : State) : Prop where
  same : x.offKeyed = s.start.offKeyed
  rx : s.SameRx x
  only : s.onlyRegs x [(id, i)]
  stored : x.reg id i = blend id.row.key v (s.reg id i)

theorem KeyPut.get {s x : State} {id : RegId} {i : Nat} {v : Word} {α : Type} (h : s.KeyPut id i v x) (g : State → α)
    (hg : ∀ u : State, g u.offKeyed = g u) : g x = g s.start :=
  ((hg x).symm.trans (congrArg g h.same)).trans (hg _)

theorem KeyPut.f_eq {s x : State} {y : Fld} {j : Nat} {v : Word} (h : s.KeyPut y.id j v x) (hy : y.fits)
    (hm : coversField y.id.row.key y = true) : x.f y j = bits y.hi y.lo v.toNat := by
  rw [f, h.stored, bits_blend hy hm]

/-- The row of a keyed register that stores its value, from which the command `g` then takes effect. -/
theorem keyedRow_puts {s : State} {a : Acc} {id : RegId} {i : Nat} {v comp : Word} {g : State → State} (hg : s.goesKeyed a id i v comp = true)
    (ht : targetAt (regOff id i) = .reg id i) (hc : targetAt (regOff id i + 4) = .comp id i) (hk : id.row.keyed = true)
    (hok : keyValueOk id v = true) (heff : ∀ u : State, u.keyEffect id i v = g (u.putRw id i id.row.key v)) :
    ∃ x t, keyedRow a id i v comp s = .next t ∧ s.KeyPut id i v x ∧ t.offAnswer = (g x).offAnswer ∧ (g x).outp ⊆ t.outp := by
  obtain ⟨u, t, hrow, hw⟩ := keyedRow_writes hg ht hc hk hok
  obtain ⟨_, huregs⟩ := hw.regs
  have hput := u.offRegs_putRw id i id.row.key v
  refine ⟨u.putRw id i id.row.key v, t, hrow, ⟨?_, ?_, ?_, ?_⟩, heff u ▸ hw.answer, heff u ▸ hw.outp⟩
  · exact (congrArg offPair hput : offPair (offRegs _) = _).trans (congrArg offRegs hw.same)
  · exact hw.rxFirst.trans (sameRx_of_links (congrArg State.links hput : State.links (offRegs _) = u.offRegs.links))
  · exact (onlyRegs_of_regs huregs _).trans (u.onlyRegs_putRw id i _ v (List.mem_singleton_self _))
  · rw [reg_putRw, reg_congr huregs]

/-- The state after the row of a keyed register whose command changed register words alone. -/
theorem KeyPut.eq_of_answer {s x w t : State} {id : RegId} {i : Nat} {v : Word} (h : s.KeyPut id i v x) (ha : t.offAnswer = w.offAnswer)
    (hw : w.offRegs = x.offRegs) : t = { s.asideFrom t with regs := t.regs, keyPend := t.keyPend } := by
  have hE : t.offAnswer.offRegs = x.offRegs.offAnswer := (congrArg offRegs ha).trans (congrArg offAnswer hw)
  exact (congrArg (fun y : State => { y with
      outp := t.outp, links := t.links, slowQ := t.slowQ, regs := t.regs, keyPend := t.keyPend }) hE).trans
    (congrArg (fun y : State => { y with
      outp := t.outp, links := t.links, slowQ := t.slowQ, regs := t.regs, keyPend := t.keyPend }) h.same)

/-- The state after a row's write that changed register words alone. -/
theorem Writes.eq_regs {s u t : State} {a : Acc} {id : RegId} {i : Nat} {v : Word} (h : s.Writes a id i v u t)
    (hu : u.offRegs = s.start.offRegs) : t = { s.asideFrom t with regs := t.regs } := by
  have hE : t.offAnswer.offRegs = u.offRegs.offAnswer := congrArg offRegs h.answer
  rw [hu] at hE
  exact congrArg (fun x : State => { x with outp := t.outp, links := t.links, slowQ := t.slowQ, regs := t.regs }) hE

end State

end Sys2Proof.Machine
end

section
/-! PROOFS. The commands of BST_CMD (R292) and the checker exercise (R284). -/

namespace Sys2Proof.Machine

/-- A memory slice in Prepare on a spare, which needs no stand-in. -/
def Slice.onSpare (x : Slice) (n : Nat) : Slice :=
  { x with st := .prepare, target := n, standin := 0, wasLanding := false, cut := false }

namespace State

/-- The state with its self-test record replaced. -/
def withBst (s : State) (b : Bst) : State := { s with bst := b }

/-- FOREGROUND starts over. -/
def startFg (s : State) : State := s.withBst { s.bst with fg := true, fgMem := 0, fgEng := 0, fgStop := false }

/-- FOREGROUND with its memory slice started on a spare. -/
def fgMemOn (s : State) (n : Nat) : State :=
  s.withBst { s.bst with fg := true, fgMem := n + 1, fgEng := 0, fgStop := false, mem := s.bst.mem.onSpare n }

/-! ### BST_CMD -/

theorem startMem_spare {s : State} {n : Nat} (h : (s.sub n).role = .spare) :
    s.startMem n = s.withBst { s.bst with mem := s.bst.mem.onSpare n } := by
  unfold startMem
  rw [h]
  rfl

theorem startEng_spare {s : State} {e : Nat} (h : (s.eng e).role = .spare) :
    s.startEng e = (s.withBst { s.bst with eng := { s.bst.eng with st := .prepare, target := e, standin := 0, cut := false } }).modEng e
      fun g => { g with role := .spare, testing := true } := by
  unfold startEng
  rw [h]
  rfl

theorem writeBst_writes {s : State} {a : Acc} {v : Word} (hg : s.goesWrite a .bstCmd 0 v = true) :
    ∃ t, writeRow a .bstCmd 0 v s = .next t ∧ s.Writes a .bstCmd 0 v (s.start.bstCommand v.toNat) t :=
  writeRow_writes hg (by decide) rfl (by decide) rfl (lockBreaks_free rfl _)

theorem setBits_op (op : Nat) (v : Word) : (setBits 31 30 op v).toNat / 2 ^ 30 % 4 = op % 4 :=
  bits_setBits_same (hi := 31) (lo := 30) (by decide) (by decide) op v

theorem setBits_op_target (op : Nat) (v : Word) : (setBits 31 30 op v).toNat % 2048 = v.toNat % 2048 := by
  have h := bits_setBits_apart (hi := 31) (lo := 30) (hi' := 10) (lo' := 0) (by decide) (by decide) (by decide) op v
  simpa [bits] using h

theorem setBits_op_kind (op : Nat) (v : Word) : bit 11 (setBits 31 30 op v).toNat = bit 11 v.toNat := by
  rw [bit_eq_bits, bit_eq_bits, bits_setBits_apart (by decide) (by decide) (by decide)]

/-- A command of BST_CMD that cannot run. -/
theorem bst_ignored {s : State} {a : Acc} {w : Word} (hg : s.goesWrite a .bstCmd 0 w = true)
    (h : s.start.bstCommand w.toNat = s.start.setF Fld.bstStat_cmd_ign 1) :
    ∃ t, writeRow a .bstCmd 0 w s = .next t ∧ t.f Fld.bstStat_cmd_ign = 1 ∧ s.onlyFields t [(Fld.bstStat_cmd_ign, 0)]
      ∧ t = { s.asideFrom t with regs := t.regs } := by
  obtain ⟨t, hrow, hw⟩ := writeBst_writes hg
  rw [h] at hw
  have honly : s.onlyFields (s.start.setF Fld.bstStat_cmd_ign 1) [(Fld.bstStat_cmd_ign, 0)] := by
    refine (onlyFields.refl s _).setF ?_ ?_ ?_ _ <;> decide
  refine ⟨t, hrow, ?_, honly.congr hw.regs, hw.eq_regs (offRegs_setF ..)⟩
  rw [f_congr hw.regs, f_setF_same _ (by decide)]
  rfl

theorem one_ignored {s : State} {a : Acc} {v : Word} (hg : s.goesWrite a .bstCmd 0 (setBits 31 30 3 v) = true)
    (h : s.mode ≠ .run ∧ s.mode ≠ .service ∨ (s.sliceOf (if bit 11 v.toNat then .eng else .mem)).st ≠ .idle
      ∨ s.canTest (if bit 11 v.toNat then .eng else .mem) (v.toNat % 2048) = false) :
    ∃ t, exec (.one a v) s = .next t ∧ t.f Fld.bstStat_cmd_ign = 1 ∧ s.onlyFields t [(Fld.bstStat_cmd_ign, 0)]
      ∧ t = { s.asideFrom t with regs := t.regs } := by
  refine bst_ignored hg ?_
  unfold bstCommand
  simp only [setBits_op, setBits_op_target, setBits_op_kind]
  refine if_neg ?_
  rintro ⟨hm, hidle, hcan⟩
  rcases h with ⟨hrun, hserv⟩ | hbusy | hnot
  · exact hm.elim hrun hserv
  · exact hbusy hidle
  · have hcan' : s.canTest (if bit 11 v.toNat then .eng else .mem) (v.toNat % 2048) = true := hcan
    rw [hnot] at hcan'
    exact nomatch hcan'


theorem one_starts {s : State} {a : Acc} {v : Word} {n : Nat} (hg : s.goesWrite a .bstCmd 0 (setBits 31 30 3 v) = true)
    (hn : n = v.toNat % 2048) (hk : bit 11 v.toNat = false) (hm : s.mode = .run ∨ s.mode = .service) (hidle : s.bst.mem.st = .idle)
    (hlt : n < 1056) (hrole : (s.sub n).role = .spare) :
    ∃ t, exec (.one a v) s = .next t ∧ t = { s.asideFrom t with bst := { s.bst with mem := s.bst.mem.onSpare n } } := by
  obtain ⟨t, hrow, hw⟩ := writeBst_writes hg
  have hgo : s.start.bstCommand (setBits 31 30 3 v).toNat = s.start.startMem n := by
    have hcan : s.canTest .mem n = true := by simp [canTest, hlt, hrole]
    unfold bstCommand
    simp only [setBits_op, setBits_op_target, setBits_op_kind, hk, ← hn]
    exact if_pos ⟨hm, hidle, hcan⟩
  rw [hgo, startMem_spare (s := s.start) hrole] at hw
  exact ⟨t, hrow, hw.eq⟩

/-! ### FOREGROUND and STOP -/

theorem fgNext_holds {s : State} {k : SliceKind} (h : s.bst.fgStop = true ∨ (s.sliceOf k).st ≠ .idle) (n : Nat) : fgNext k n s = s := by
  cases n with
  | zero => rfl
  | succ n => exact if_pos (.inr (h.imp_right .inl))

/-- While both kinds hold, FOREGROUND ends when it is through, or has been stopped, and no slice is left. -/
theorem fgGoOn_holds {s : State} (hmem : s.bst.fgStop = true ∨ s.bst.mem.st ≠ .idle) (heng : s.bst.fgStop = true ∨ s.bst.eng.st ≠ .idle) :
    s.fgGoOn = if s.bst.fg = true ∧ s.bst.mem.st = .idle ∧ s.bst.eng.st = .idle then s.withBst { s.bst with fg := false, fgStop := false } else s := by
  unfold fgGoOn
  rw [fgNext_holds (k := .mem) hmem, fgNext_holds (k := .eng) heng]
  by_cases hi : s.bst.mem.st = .idle ∧ s.bst.eng.st = .idle
  · have hstop : s.bst.fgStop = true := hmem.resolve_right fun h => h hi.1
    simp [hi, hstop, modBst, withBst]
  · have hi' : (s.bst.mem.st == .idle && s.bst.eng.st == .idle) = false := by simpa using hi
    simp [hi, hi']

/-- The state with the place that FOREGROUND has reached in a kind. -/
def atPos (s : State) (k : SliceKind) (p : Nat) : State :=
  s.modBst fun b => match k with | .mem => { b with fgMem := p } | .eng => { b with fgEng := p }

theorem sliceOf_atPos (s : State) (k : SliceKind) (p : Nat) : (s.atPos k p).sliceOf k = s.sliceOf k := by cases k <;> rfl
theorem fgPos_atPos (s : State) (k : SliceKind) (p : Nat) : (s.atPos k p).fgPos k = p := by cases k <;> rfl
theorem atPos_atPos (s : State) (k : SliceKind) (p q : Nat) : (s.atPos k p).atPos k q = s.atPos k q := by cases k <;> rfl
theorem fg_atPos (s : State) (k : SliceKind) (p : Nat) : (s.atPos k p).bst.fg = s.bst.fg ∧ (s.atPos k p).bst.fgStop = s.bst.fgStop := by
  cases k <;> exact ⟨rfl, rfl⟩
theorem canTest_atPos (s : State) (k : SliceKind) (p m : Nat) : (s.atPos k p).canTest k m = s.canTest k m := by cases k <;> rfl

/-- FOREGROUND passes the targets that cannot be tested, and starts the first that can. -/
theorem fgNext_finds {k : SliceKind} (d : Nat) : ∀ {s : State} {p : Nat} (f : Nat), s.fgPos k = p → s.bst.fg = true → s.bst.fgStop = false →
    (s.sliceOf k).st = .idle → (∀ m < p + d, p ≤ m → s.canTest k m = false) → s.canTest k (p + d) = true → p + d < kindCount k →
    fgNext k (f + d + 1) s = fgNext k f ((s.atPos k (p + d + 1)).startSlice k (p + d)) := by
  have hstep {s : State} {p : Nat} (n : Nat) (hp : s.fgPos k = p) (hfg : s.bst.fg = true) (hstop : s.bst.fgStop = false)
      (hidle : (s.sliceOf k).st = .idle) (hlt : p < kindCount k) : fgNext k (n + 1) s
        = fgNext k n (if s.canTest k p then (s.atPos k (p + 1)).startSlice k p else s.atPos k (p + 1)) := by
    have hgo : ¬ ((!s.bst.fg) = true ∨ s.bst.fgStop = true ∨ (s.sliceOf k).st ≠ .idle ∨ kindCount k ≤ s.fgPos k) := by
      simp [hfg, hstop, hidle, hp, hlt]
    have h : fgNext k (n + 1) s = fgNext k n (if (s.atPos k (s.fgPos k + 1)).canTest k (s.fgPos k)
      then (s.atPos k (s.fgPos k + 1)).startSlice k (s.fgPos k) else s.atPos k (s.fgPos k + 1)) := if_neg hgo
    rw [h, canTest_atPos, hp]
  induction d with
  | zero =>
    intro s p f hp hfg hstop hidle _ hcan hlt
    rw [hstep _ hp hfg hstop hidle hlt]
    exact congrArg _ (if_pos hcan)
  | succ d ih =>
    intro s p f hp hfg hstop hidle hnot hcan hlt
    have hskip : s.canTest k p = false := hnot p (by omega) (Nat.le_refl p)
    rw [hstep _ hp hfg hstop hidle (by omega), if_neg (by simp [hskip])]
    have hrec := @ih (s.atPos k (p + 1)) (p + 1) f (fgPos_atPos ..) ((fg_atPos ..).1.trans hfg) ((fg_atPos ..).2.trans hstop)
      (by rw [sliceOf_atPos]; exact hidle) (fun m hm hle => by rw [canTest_atPos]; exact hnot m (by omega) (by omega))
      (by rw [canTest_atPos, show p + 1 + d = p + (d + 1) by omega]; exact hcan) (by omega)
    rw [show f + (d + 1) = f + d + 1 by omega, hrec, atPos_atPos, show p + 1 + d = p + (d + 1) by omega]

theorem stop_ends {s : State} {a : Acc} {v : Word} (hg : s.goesWrite a .bstCmd 0 (setBits 31 30 2 v) = true) (hfg : s.bst.fg = true)
    (hr : s.pwr.runAfterFg = false) (hmem : s.bst.mem.st ≠ .test) (heng : s.bst.eng.st ≠ .test) :
    ∃ t, exec (.stop a v) s = .next t ∧ t = { s.asideFrom t with bst := { s.bst with
      fg := !(s.bst.mem.st == .idle && s.bst.eng.st == .idle), fgStop := !(s.bst.mem.st == .idle && s.bst.eng.st == .idle) } } := by
  obtain ⟨t, hrow, hw⟩ := writeBst_writes hg
  have hcmd : s.start.bstCommand (setBits 31 30 2 v).toNat = s.start.fgEnd.runAtLast := by
    unfold bstCommand
    simp only [setBits_op]
    exact if_pos hfg
  have hend : s.start.fgEnd = s.start.withBst { s.bst with
      fg := !(s.bst.mem.st == .idle && s.bst.eng.st == .idle), fgStop := !(s.bst.mem.st == .idle && s.bst.eng.st == .idle) } := by
    have hstops : s.start.fgEnd = (s.start.withBst { s.bst with fgStop := true }).fgGoOn := by
      have hfirst : s.start.fgEnd = (if s.start.bst.eng.st = .test then s.start.cutNow .eng else s.start).fgStops :=
        congrArg (fun x : State => (if x.bst.eng.st = .test then x.cutNow .eng else x).fgStops) (if_neg hmem)
      exact hfirst.trans (congrArg fgStops (if_neg heng))
    rw [hstops, fgGoOn_holds (.inl rfl) (.inl rfl)]
    by_cases hi : s.bst.mem.st = .idle ∧ s.bst.eng.st = .idle
    · rw [if_pos ⟨hfg, hi⟩]
      simp [hi, withBst]
    · rw [if_neg fun h => hi h.2]
      have hi' : (s.bst.mem.st == .idle && s.bst.eng.st == .idle) = false := by simpa using hi
      simp [hi', withBst, hfg]
  have hlast : s.start.fgEnd.runAtLast = s.start.fgEnd := by
    refine if_neg fun h => ?_
    rw [hend] at h
    exact absurd (hr.symm.trans h.2.1) (by decide)
  rw [hcmd, hlast, hend] at hw
  exact ⟨t, hrow, hw.eq⟩

theorem foreground_goes {s : State} {v : Word} (hm : s.mode = .service) :
    s.start.bstCommand (setBits 31 30 1 v).toNat
      = s.start.startFg.fgGoOn := by
  unfold bstCommand
  simp only [setBits_op]
  exact if_pos hm

theorem foreground_ignored {s : State} {a : Acc} {v : Word} (hg : s.goesWrite a .bstCmd 0 (setBits 31 30 1 v) = true) (hm : s.mode ≠ .service) :
    ∃ t, exec (.foreground a v) s = .next t ∧ t.f Fld.bstStat_cmd_ign = 1 ∧ s.onlyFields t [(Fld.bstStat_cmd_ign, 0)]
      ∧ t = { s.asideFrom t with regs := t.regs } := by
  refine bst_ignored hg ?_
  unfold bstCommand
  simp only [setBits_op]
  exact if_neg hm

theorem stop_ignored {s : State} {a : Acc} {v : Word} (hg : s.goesWrite a .bstCmd 0 (setBits 31 30 2 v) = true) (hfg : s.bst.fg = false) :
    ∃ t, exec (.stop a v) s = .next t ∧ t.f Fld.bstStat_cmd_ign = 1 ∧ s.onlyFields t [(Fld.bstStat_cmd_ign, 0)]
      ∧ t = { s.asideFrom t with regs := t.regs } := by
  refine bst_ignored hg ?_
  unfold bstCommand
  simp only [setBits_op]
  exact if_neg fun h => absurd (hfg.symm.trans h) (by decide)

theorem foreground_busy {s : State} {a : Acc} {v : Word} (hg : s.goesWrite a .bstCmd 0 (setBits 31 30 1 v) = true) (hm : s.mode = .service)
    (hmem : s.bst.mem.st ≠ .idle) (heng : s.bst.eng.st ≠ .idle) :
    ∃ t, exec (.foreground a v) s = .next t
      ∧ t = { s.asideFrom t with bst := { s.bst with fg := true, fgMem := 0, fgEng := 0, fgStop := false } } := by
  obtain ⟨t, hrow, hw⟩ := writeBst_writes hg
  rw [foreground_goes hm, fgGoOn_holds (s := s.start.startFg) (.inr hmem) (.inr heng), if_neg fun h => hmem h.2.1] at hw
  exact ⟨t, hrow, hw.eq⟩

theorem foreground_starts {s : State} {a : Acc} {v : Word} {n e : Nat} (hg : s.goesWrite a .bstCmd 0 (setBits 31 30 1 v) = true)
    (hm : s.mode = .service) (hmem : s.bst.mem.st = .idle) (heng : s.bst.eng.st = .idle) (hbefore : ∀ m < n, s.canTest .mem m = false)
    (hn : n < 1056) (hrole : (s.sub n).role = .spare) (hbefore' : ∀ m < e, s.canTest .eng m = false) (he : e < 104)
    (hrole' : (s.eng e).role = .spare) :
    ∃ t, exec (.foreground a v) s = .next t
      ∧ t.bst = { s.bst with
          fg := true, fgMem := n + 1, fgEng := e + 1, fgStop := false, mem := s.bst.mem.onSpare n
          eng := { s.bst.eng with st := .prepare, target := e, standin := 0, cut := false } }
      ∧ t.eng e = { s.eng e with testing := true } ∧ t = { s.asideFrom t with bst := t.bst, engs := t.engs } := by
  obtain ⟨t, hrow, hw⟩ := writeBst_writes hg
  rw [foreground_goes hm] at hw
  obtain ⟨f, hf⟩ : ∃ f, 1057 = f + n + 1 := ⟨1056 - n, by omega⟩
  obtain ⟨g, hgf⟩ : ∃ g, 105 = g + e + 1 := ⟨104 - e, by omega⟩
  have hcan : s.canTest .mem n = true := by simp [canTest, hn, hrole]
  have hcan' : s.canTest .eng e = true := by simp [canTest, he, hrole']
  have hmemGo : fgNext .mem 1057 s.start.startFg
      = s.start.fgMemOn n := by
    rw [hf, fgNext_finds (k := .mem) (s := s.start.startFg) (p := 0) n f rfl rfl rfl hmem (fun m hlt _ => hbefore m (by omega)) (by rw [Nat.zero_add]; exact hcan)
      (by rw [Nat.zero_add]; exact hn), Nat.zero_add]
    have hgo := startMem_spare (s := s.start.startFg.atPos .mem (n + 1)) hrole
    refine (congrArg (fgNext .mem f) hgo).trans (fgNext_holds (k := .mem) (.inr ?_) f)
    exact fun h => nomatch (show SliceSt.prepare = .idle from h)
  have hengGo : fgNext .eng 105 (s.start.fgMemOn n)
      = (s.start.withBst { s.bst with
          fg := true, fgMem := n + 1, fgEng := e + 1, fgStop := false, mem := s.bst.mem.onSpare n
          eng := { s.bst.eng with st := .prepare, target := e, standin := 0, cut := false } }).modEng e fun g => { g with role := .spare, testing := true } := by
    rw [hgf, fgNext_finds (k := .eng) (s := s.start.fgMemOn n) (p := 0) e g rfl rfl rfl heng (fun m hlt _ => hbefore' m (by omega)) (by rw [Nat.zero_add]; exact hcan')
      (by rw [Nat.zero_add]; exact he), Nat.zero_add]
    have hgo := startEng_spare
      (s := (s.start.fgMemOn n).atPos .eng (e + 1)) hrole'
    refine (congrArg (fgNext .eng g) hgo).trans (fgNext_holds (k := .eng) (.inr ?_) g)
    exact fun h => nomatch (show SliceSt.prepare = .idle from h)
  have hend : s.start.startFg.fgGoOn
      = (s.start.withBst { s.bst with
          fg := true, fgMem := n + 1, fgEng := e + 1, fgStop := false, mem := s.bst.mem.onSpare n
          eng := { s.bst.eng with st := .prepare, target := e, standin := 0, cut := false } }).modEng e fun g => { g with role := .spare, testing := true } := by
    unfold fgGoOn
    rw [hmemGo, hengGo]
    exact if_neg fun h => Bool.noConfusion h.2.1
  rw [hend] at hw
  refine ⟨t, hrow, (congrArg State.bst hw.answer : t.offAnswer.bst = _), ?_, ?_⟩
  · have hengs : t.engs = (s.modEng e fun g => { g with role := .spare, testing := true }).engs :=
      (congrArg State.engs hw.answer : t.offAnswer.engs = _)
    rw [eng_congr hengs, eng_modEng_same, ← hrole']
  · exact congrArg (fun x : State => { x with outp := t.outp, links := t.links, slowQ := t.slowQ, bst := t.bst, engs := t.engs }) hw.answer

/-! ### The checker exercise -/

theorem fltChkExercise_puts {s : State} {a : Acc} {v comp : Word} (hg : s.goesKeyed a .fltChkExercise 0 v comp = true) :
    ∃ x t, exec (.fltChkExercise a v comp) s = .next t ∧ s.KeyPut .fltChkExercise 0 v x
      ∧ t.offAnswer = (x.chkExercise v.toNat).offAnswer ∧ (x.chkExercise v.toNat).outp ⊆ t.outp :=
  keyedRow_puts hg (by decide) (by decide) rfl rfl fun _ => rfl

theorem chkExercise_bits (s : State) (v : Nat) : s.chkExercise v =
    if s.mode ≠ .service ∨ s.flt.exLeft ≠ 0 ∨ 11 < bits 12 8 v ∨ 1 < bits 1 0 v then s.setF Fld.fltChkStat_ignored 1
    else if bit 31 v then s.modFlt fun f => { f with exGroup := bits 12 8 v, exMode := bits 1 0 v, exLeft := bits 23 16 v } else s := by
  simp [chkExercise, bits]

theorem exercise_starts {s : State} {a : Acc} {v comp : Word} (hg : s.goesKeyed a .fltChkExercise 0 v comp = true) (hm : s.mode = .service)
    (hleft : s.flt.exLeft = 0) (hgroup : bits 12 8 v.toNat ≤ 11) (hmode : bits 1 0 v.toNat ≤ 1) (harm : bit 31 v.toNat = true) :
    ∃ t, exec (.fltChkExercise a v comp) s = .next t
      ∧ t.flt = { s.start.flt with exGroup := bits 12 8 v.toNat, exMode := bits 1 0 v.toNat, exLeft := bits 23 16 v.toNat }
      ∧ s.onlyRegs t [(.fltChkExercise, 0)] ∧ t = { s.asideFrom t with regs := t.regs, flt := t.flt, keyPend := t.keyPend } := by
  obtain ⟨x, t, hrow, hput, hans, -⟩ := fltChkExercise_puts hg
  have hmx : x.mode = s.mode := hput.get State.mode fun _ => rfl
  have hfx : x.flt = s.start.flt := hput.get State.flt fun _ => rfl
  have heff : x.chkExercise v.toNat = x.modFlt fun f => { f with
      exGroup := bits 12 8 v.toNat, exMode := bits 1 0 v.toNat, exLeft := bits 23 16 v.toNat } := by
    have hgo : ¬ (x.mode ≠ .service ∨ x.flt.exLeft ≠ 0 ∨ 11 < bits 12 8 v.toNat ∨ 1 < bits 1 0 v.toNat) := by
      rw [hmx, hfx]
      rintro (h | h | h | h)
      · exact h hm
      · exact h hleft
      · omega
      · omega
    rw [chkExercise_bits, if_neg hgo, if_pos harm]
  rw [heff] at hans
  have hflt : t.flt = { x.flt with exGroup := bits 12 8 v.toNat, exMode := bits 1 0 v.toNat, exLeft := bits 23 16 v.toNat } :=
    (congrArg State.flt hans : t.offAnswer.flt = _)
  refine ⟨t, hrow, hflt.trans (by rw [hfx]), hput.only.congr (congrArg State.regs hans : t.offAnswer.regs = _), ?_⟩
  exact (congrArg (fun y : State => { y with
      outp := t.outp, links := t.links, slowQ := t.slowQ, regs := t.regs, flt := t.flt, keyPend := t.keyPend }) hans).trans
    (congrArg (fun y : State => { y with
      outp := t.outp, links := t.links, slowQ := t.slowQ, regs := t.regs, flt := t.flt, keyPend := t.keyPend }) hput.same)

theorem exercise_ignored {s : State} {a : Acc} {v comp : Word} (hg : s.goesKeyed a .fltChkExercise 0 v comp = true)
    (h : s.mode ≠ .service ∨ s.flt.exLeft ≠ 0 ∨ 11 < bits 12 8 v.toNat ∨ 1 < bits 1 0 v.toNat) :
    ∃ t, exec (.fltChkExercise a v comp) s = .next t ∧ t.f Fld.fltChkStat_ignored = 1
      ∧ s.onlyRegs t [(.fltChkExercise, 0), (.fltChkStat, 0)] ∧ t = { s.asideFrom t with regs := t.regs, keyPend := t.keyPend } := by
  obtain ⟨x, t, hrow, hput, hans, -⟩ := fltChkExercise_puts hg
  have hmx : x.mode = s.mode := hput.get State.mode fun _ => rfl
  have hfx : x.flt = s.start.flt := hput.get State.flt fun _ => rfl
  have heff : x.chkExercise v.toNat = x.setF Fld.fltChkStat_ignored 1 := by
    rw [chkExercise_bits, hmx, hfx]
    exact if_pos h
  rw [heff] at hans
  obtain ⟨hregs, -⟩ := keys_of_offAnswer hans
  have hset := offRegs_setF x Fld.fltChkStat_ignored 1 0
  refine ⟨t, hrow, ?_, ?_, ?_⟩
  · rw [f_congr hregs, f_setF_same _ (by decide)]
    rfl
  · exact ((hput.only.mono (List.cons_subset_cons _ (List.nil_subset _))).setF (List.mem_cons_of_mem _ (List.mem_singleton_self _)) _).congr hregs
  · exact hput.eq_of_answer hans hset

end State

/-- Settles O55: by operation code and by what the command finds; `fgNext_finds` finds the first target of a kind that can be tested. -/
theorem selfTestAndExercise : Obligations.SelfTestAndExercise :=
  ⟨fun _ _ _ => ⟨fun _ hg hn hk hm hidle hlt hrole => State.one_starts hg hn hk hm hidle hlt hrole, State.one_ignored,
      fun _ _ hg hm hmem heng hb hn hr hb' he hr' => State.foreground_starts hg hm hmem heng hb hn hr hb' he hr',
      State.foreground_busy, State.foreground_ignored, State.stop_ends, State.stop_ignored⟩,
    fun _ _ _ _ hg => ⟨fun hm hl hgr hmo ha => State.exercise_starts hg hm hl hgr hmo ha, State.exercise_ignored hg⟩⟩

end Sys2Proof.Machine
end

section
/-! PROOFS. Fuse commands (R295) and the SVN burn (R347). -/

namespace Sys2Proof.Machine

namespace State

/-! ### Fuse commands -/

theorem setBits_fuseOp (op : Nat) (v : Word) : (setBits 9 8 op v).toNat / 256 % 4 = op % 4 :=
  bits_setBits_same (hi := 9) (lo := 8) (by decide) (by decide) op v

theorem setBits_fuseUnit (op : Nat) (v : Word) : (setBits 9 8 op v).toNat % 128 = v.toNat % 128 := by
  have h := bits_setBits_apart (hi := 9) (lo := 8) (hi' := 6) (lo' := 0) (by decide) (by decide) (by decide) op v
  simpa [bits] using h

theorem fuseRow_puts {s : State} {a : Acc} {v comp : Word} (hg : s.goesKeyed a .bstFuseCmd 0 v comp = true) :
    ∃ x t, keyedRow a .bstFuseCmd 0 v comp s = .next t ∧ s.KeyPut .bstFuseCmd 0 v x
      ∧ t.offAnswer = (x.fuseCommand v.toNat).offAnswer ∧ (x.fuseCommand v.toNat).outp ⊆ t.outp :=
  keyedRow_puts hg (by decide) (by decide) rfl rfl fun _ => rfl

/-- The register words that a fuse command and its record may change. -/
abbrev fuseRegs : List (RegId × Nat) := [(.bstFuseCmd, 0), (.bstFuseStat, 0)]

theorem fuseRegs_stat : ((RegId.bstFuseStat, 0) : RegId × Nat) ∈ fuseRegs := List.mem_cons_of_mem _ (List.mem_singleton_self _)

/-- The result of a fuse command, over the cleared count of records. -/
theorem fuseTold (s : State) {res : Nat} (h : res < 8) :
    ((s.setF Fld.bstFuseStat_burned 0).setF Fld.bstFuseStat_result res).f Fld.bstFuseStat_result = res
    ∧ ((s.setF Fld.bstFuseStat_burned 0).setF Fld.bstFuseStat_result res).f Fld.bstFuseStat_burned = 0 := by
  constructor
  · rw [f_setF_same _ (by decide)]
    exact Nat.mod_eq_of_lt h
  · rw [f_setF_apart (x := Fld.bstFuseStat_result) (y := Fld.bstFuseStat_burned) _ (by decide) rfl (by decide), f_setF_same _ (by decide)]
    rfl

/-- A fuse command while none runs: outside SERVICE it ends, and in SERVICE by what the free value says of the fuse supply. -/
theorem fuseCommand_runs {x : State} {op : Nat} {v : Word} (hop : op = 1 ∨ op = 2) (hburn : x.bst.burn = none) :
    x.fuseCommand (setBits 9 8 op v).toNat = if x.mode ≠ .service then (x.setF Fld.bstFuseStat_burned 0).setF Fld.bstFuseStat_result 2
      else if x.freeNext % 2 ≠ 1 then (x.setF Fld.bstFuseStat_burned 0).draw.setF Fld.bstFuseStat_result 3
      else (x.setF Fld.bstFuseStat_burned 0).draw.fuseNext
        (if op = 1 then (x.bst.soft ++ x.bst.pendingRec).filter fun r => !x.bst.fuses.contains r else [{ kind := 3, unit := v.toNat % 128 }]) := by
  have hgo : ¬ (op % 4 = 0 ∨ op % 4 = 3 ∨ x.bst.burn.isSome = true) := by
    rw [hburn]
    rcases hop with rfl | rfl <;> decide
  have hop4 : (op % 4 = 1) = (op = 1) := by
    rcases hop with rfl | rfl <;> rfl
  unfold fuseCommand
  simp only [setBits_fuseOp, setBits_fuseUnit, hop4]
  exact if_neg hgo

theorem fuseRow_runs {s : State} {a : Acc} {v comp : Word} {op : Nat} (hop : op = 1 ∨ op = 2) (hburn : s.bst.burn = none)
    (hg : s.goesKeyed a .bstFuseCmd 0 (setBits 9 8 op v) comp = true) :
    ∃ x t, keyedRow a .bstFuseCmd 0 (setBits 9 8 op v) comp s = .next t ∧ s.KeyPut .bstFuseCmd 0 (setBits 9 8 op v) x
      ∧ t.offAnswer = (if s.mode ≠ .service then (x.setF Fld.bstFuseStat_burned 0).setF Fld.bstFuseStat_result 2
        else if s.freeNext % 2 ≠ 1 then (x.setF Fld.bstFuseStat_burned 0).draw.setF Fld.bstFuseStat_result 3
        else (x.setF Fld.bstFuseStat_burned 0).draw.fuseNext (if op = 1 then (s.bst.soft ++ s.bst.pendingRec).filter
          fun r => !s.bst.fuses.contains r else [{ kind := 3, unit := v.toNat % 128 }])).offAnswer := by
  obtain ⟨x, t, hrow, hput, hans, -⟩ := fuseRow_puts hg
  have hbx : x.bst = s.bst := hput.get State.bst fun _ => rfl
  have hmx : x.mode = s.mode := hput.get State.mode fun _ => rfl
  have hfx : x.freeNext = s.freeNext := hput.get State.freeNext fun _ => rfl
  rw [fuseCommand_runs hop (hbx ▸ hburn), hmx, hfx, hbx] at hans
  exact ⟨x, t, hrow, hput, hans⟩

theorem burn_offService {s : State} {a : Acc} {v comp : Word} (hburn : s.bst.burn = none)
    (hg : s.goesKeyed a .bstFuseCmd 0 (setBits 9 8 1 v) (setBits 9 8 2 comp) = true) (hm : s.mode ≠ .service) :
    ∃ t, exec (.burn a v comp) s = .next t ∧ t.f Fld.bstFuseStat_result = 2 ∧ t.f Fld.bstFuseStat_burned = 0
      ∧ s.onlyRegs t fuseRegs ∧ t = { s.asideFrom t with regs := t.regs, keyPend := t.keyPend } := by
  obtain ⟨x, t, hrow, hput, hans⟩ := fuseRow_runs (.inl rfl) hburn hg
  rw [if_pos hm] at hans
  obtain ⟨hregs, -⟩ := keys_of_offAnswer hans
  obtain ⟨hres, hcount⟩ := x.fuseTold (res := 2) (by decide)
  refine ⟨t, hrow, (f_congr hregs _ _).trans hres, (f_congr hregs _ _).trans hcount, ?_, hput.eq_of_answer hans ?_⟩
  · exact (((hput.only.mono (List.cons_subset_cons _ (List.nil_subset _))).setF fuseRegs_stat _).setF fuseRegs_stat _).congr hregs
  · rw [offRegs_setF, offRegs_setF]

theorem burn_noSupply {s : State} {a : Acc} {v comp : Word} (hburn : s.bst.burn = none)
    (hg : s.goesKeyed a .bstFuseCmd 0 (setBits 9 8 1 v) (setBits 9 8 2 comp) = true) (hm : s.mode = .service) (hfree : s.freeNext % 2 = 0) :
    ∃ t, exec (.burn a v comp) s = .next t ∧ t.f Fld.bstFuseStat_result = 3 ∧ t.f Fld.bstFuseStat_burned = 0
      ∧ s.onlyRegs t fuseRegs
      ∧ t = { s.asideFrom t with regs := t.regs, keyPend := t.keyPend, freeCount := s.freeCount + 1, freeNext := t.freeNext } := by
  obtain ⟨x, t, hrow, hput, hans⟩ := fuseRow_runs (.inl rfl) hburn hg
  have hcx : x.freeCount = s.freeCount := hput.get State.freeCount fun _ => rfl
  rw [if_neg (not_not.mpr hm), if_pos (by omega)] at hans
  have hsame : t.regs = ((x.setF Fld.bstFuseStat_burned 0).setF Fld.bstFuseStat_result 3).regs := (keys_of_offAnswer hans).1
  obtain ⟨hres, hcount⟩ := x.fuseTold (res := 3) (by decide)
  refine ⟨t, hrow, (f_congr hsame _ _).trans hres, (f_congr hsame _ _).trans hcount, ?_, ?_⟩
  · exact (((hput.only.mono (List.cons_subset_cons _ (List.nil_subset _))).setF fuseRegs_stat _).setF fuseRegs_stat _).congr hsame
  · exact (congrArg (fun y : State => { y with
      outp := t.outp, links := t.links, slowQ := t.slowQ, regs := t.regs, keyPend := t.keyPend, freeNext := t.freeNext }) hans).trans
      ((congrArg (fun y : State => { y with
      outp := t.outp, links := t.links, slowQ := t.slowQ, regs := t.regs, keyPend := t.keyPend
      freeCount := x.freeCount + 1, freeNext := t.freeNext }) hput.same).trans
      (by rw [hcx]))

theorem fuse_starts {s : State} {a : Acc} {v comp : Word} {op : Nat} {rs : List Repair} (hop : op = 1 ∨ op = 2) (hburn : s.bst.burn = none)
    (hg : s.goesKeyed a .bstFuseCmd 0 (setBits 9 8 op v) comp = true) (hm : s.mode = .service) (hfree : s.freeNext % 2 = 1)
    (hrs : rs = if op = 1 then (s.bst.soft ++ s.bst.pendingRec).filter (fun r => !s.bst.fuses.contains r)
      else [{ kind := 3, unit := v.toNat % 128 }]) (hne : rs ≠ []) (hlen : s.bst.fuses.length < 1024) :
    ∃ t, keyedRow a .bstFuseCmd 0 (setBits 9 8 op v) comp s = .next t ∧ t.bst = { s.bst with burn := some rs }
      ∧ t.f Fld.bstFuseStat_burned = 0 ∧ s.onlyRegs t fuseRegs
      ∧ t = { s.asideFrom t with
        regs := t.regs, keyPend := t.keyPend, bst := t.bst, freeCount := s.freeCount + 1, freeNext := t.freeNext } := by
  obtain ⟨x, t, hrow, hput, hans⟩ := fuseRow_runs hop hburn hg
  have hcx : x.freeCount = s.freeCount := hput.get State.freeCount fun _ => rfl
  have hbx : x.bst = s.bst := hput.get State.bst fun _ => rfl
  have hnext : (x.setF Fld.bstFuseStat_burned 0).draw.fuseNext rs
      = (x.setF Fld.bstFuseStat_burned 0).draw.modBst fun b => { b with burn := some rs } := by
    have hlen' : ¬ 1024 ≤ x.bst.fuses.length := by
      rw [hbx]
      omega
    exact (if_neg (by simpa using hne)).trans (if_neg hlen')
  rw [if_neg (not_not.mpr hm), if_neg (by omega), ← hrs, hnext] at hans
  have hsame : t.regs = (x.setF Fld.bstFuseStat_burned 0).regs := (keys_of_offAnswer hans).1
  refine ⟨t, hrow, ?_, ?_, ?_, ?_⟩
  · have hbst : t.bst = { x.bst with burn := some rs } := (congrArg State.bst hans : t.offAnswer.bst = _)
    rw [hbst, hbx]
  · rw [f_congr hsame, f_setF_same _ (by decide)]
    rfl
  · exact ((hput.only.mono (List.cons_subset_cons _ (List.nil_subset _))).setF fuseRegs_stat _).congr hsame
  · exact (congrArg (fun y : State => { y with
      outp := t.outp, links := t.links, slowQ := t.slowQ, regs := t.regs, keyPend := t.keyPend, bst := t.bst, freeNext := t.freeNext }) hans).trans
      ((congrArg (fun y : State => { y with
      outp := t.outp, links := t.links, slowQ := t.slowQ, regs := t.regs, keyPend := t.keyPend, bst := t.bst
      freeCount := x.freeCount + 1, freeNext := t.freeNext }) hput.same).trans
      (by rw [hcx]))

/-! ### Records -/

/-- What a raised source of which nothing is sent leaves of the state. -/
theorem Raised.eq {s t : State} {src : Nat} (h : s.Raised t src) : t = { s with regs := t.regs, flt := t.flt } := by
  have heq : t = { s with regs := t.regs, links := t.links, outp := t.outp, flt := t.flt } :=
    congrArg (fun u : State => { u with regs := t.regs, links := t.links, outp := t.outp, flt := t.flt }) h.off
  rwa [h.links, h.outp] at heq

/-- A corrected source that is raised after other blocks have changed has been raised once. -/
theorem raise_after {s u : State} {src : Nat} {bs : List Block} (hm : u.mode ≠ .reset) (hc : srcClass src = 1) (hmute : s.mute src = true)
    (hflt : u.flt = s.start.flt) (honly : s.onlyBlocks u bs) (hbs : Block.flt ∉ bs) (unit : Nat) (inst je : Option Nat) (detail : Nat) :
    u.Raised (u.raise src unit inst je detail) src ∧ s.counted (u.raise src unit inst je detail) src := by
  have hraised := u.raise_silent (src := src) hm (.inl ⟨hc, by rw [mute, hflt]; exact hmute⟩) (by rw [hflt]; rfl) unit inst je detail
  obtain ⟨hsrc, hce⟩ := hraised.counted
  refine ⟨hraised, ?_, fun h => ?_⟩
  · rw [hsrc, hflt]
    rfl
  · rw [hce h, honly.f_eq (x := Fld.fltCntCe_count) (b := .flt) (by decide) hbs]

theorem fuseRecordDone_idle {s : State} {b : Bool} (h : s.mode ≠ .service ∨ s.bst.burn = none) :
    exec (.fuseRecordDone b) s = .next s.start := by
  refine congrArg Host.Outcome.next ?_
  by_cases hm : s.mode ≠ .service
  · exact if_pos hm
  · have hburn : s.start.bst.burn = none := h.resolve_left hm
    refine (if_neg hm).trans ?_
    simp only [hburn]

theorem runAtLast_plain {s : State} (h : s.pwr.runAfterFg = false) : s.runAtLast = s :=
  if_neg fun hr => absurd (h.symm.trans hr.2.1) (by decide)

theorem fuseEnd_plain {s : State} (h : s.pwr.runAfterFg = false) (res : Nat) :
    s.fuseEnd res = (s.setF Fld.bstFuseStat_result res).modBst fun b => { b with burn := none } :=
  runAtLast_plain (by rw [modBst, setF_pwr]; exact h)

/-- A record that verifies goes to the fuses and is counted. -/
def recorded (s : State) (r : Repair) : State :=
  (s.modBst fun b => { b with fuses := b.fuses ++ [r] }).incF Fld.bstFuseStat_burned

theorem fuseRecordDone_runs {s : State} {r : Repair} {rs : List Repair} (hburn : s.bst.burn = some (r :: rs)) (hm : s.mode = .service)
    (b : Bool) : exec (.fuseRecordDone b) s = .next (if b then
      (if rs.isEmpty then (s.start.recorded r).fuseEnd 1 else if s.freeNext % 2 ≠ 1 then (s.start.recorded r).draw.fuseEnd 3
        else (s.start.recorded r).draw.fuseNext rs) else (s.start.fuseEnd 4).raise 0x1C5 r.unit) := by
  refine congrArg Host.Outcome.next ((if_neg (not_not.mpr hm)).trans ?_)
  have hb : s.start.bst.burn = some (r :: rs) := hburn
  simp only [hb]
  rfl

/-- The state but for what a fuse record may change. -/
def offFuse (s : State) : State := { s with regs := [], bst := {}, freeCount := 0, freeNext := 0 }

/-- A record has gone to the fuses and been counted, and these records are left to program. -/
structure Burned (s : State) (r : Repair) (left : Option (List Repair)) (t : State) : Prop where
  bst : t.bst = { s.bst with fuses := s.bst.fuses ++ [r], burn := left }
  count : t.f Fld.bstFuseStat_burned = sat Fld.bstFuseStat_burned (s.f Fld.bstFuseStat_burned + 1)
  only : s.onlyRegs t [(.bstFuseStat, 0)]
  same : t.offFuse = s.start.offFuse

theorem recorded_burned (s : State) (r : Repair) :
    s.Burned r s.bst.burn (s.start.recorded r) ∧ (s.start.recorded r).freeCount = s.freeCount := by
  have hoff := offRegs_incF (s.start.modBst fun b => { b with fuses := b.fuses ++ [r] }) Fld.bstFuseStat_burned 0 1
  have hcount := (s.start.modBst fun b => { b with fuses := b.fuses ++ [r] }).f_incF_sat (x := Fld.bstFuseStat_burned) (by decide) 1 0
  have honly := (onlyRegs.congr (onlyRegs.refl s [(.bstFuseStat, 0)]) (rfl : (s.start.modBst fun b => { b with fuses := b.fuses ++ [r] }).regs = s.regs)).incF
    (x := Fld.bstFuseStat_burned) (i := 0) (List.mem_singleton_self _) 1
  unfold recorded
  generalize (s.start.modBst fun b => { b with fuses := b.fuses ++ [r] }).incF Fld.bstFuseStat_burned = u at *
  have hbst := congrArg State.bst hoff
  have hfree := congrArg State.freeCount hoff
  have hsame := congrArg offFuse hoff
  exact ⟨⟨hbst, hcount, honly, hsame⟩, hfree⟩

theorem fuseEnd_told {s : State} (h : s.pwr.runAfterFg = false) {res : Nat} (hres : res < 8) :
    ∃ u, s.fuseEnd res = (u.modBst fun b => { b with burn := none }) ∧ u.offRegs = s.offRegs ∧ u.f Fld.bstFuseStat_result = res
      ∧ u.f Fld.bstFuseStat_burned = s.f Fld.bstFuseStat_burned ∧ s.onlyRegs u [(.bstFuseStat, 0)] :=
  ⟨_, fuseEnd_plain h res, offRegs_setF .., (f_setF_same s (by decide) res 0).trans (Nat.mod_eq_of_lt hres),
    f_setF_apart s (x := Fld.bstFuseStat_result) (y := Fld.bstFuseStat_burned) (by decide) rfl (by decide) res 0,
    onlyRegs_setF s (x := Fld.bstFuseStat_result) (i := 0) (List.mem_singleton_self _) res⟩

theorem Burned.ends {s t : State} {r : Repair} {left : Option (List Repair)} (h : s.Burned r left t) (hr : s.pwr.runAfterFg = false)
    {res : Nat} (hres : res < 8) :
    s.Burned r none (t.fuseEnd res) ∧ (t.fuseEnd res).f Fld.bstFuseStat_result = res ∧ (t.fuseEnd res).freeCount = t.freeCount := by
  have hpwr : t.pwr = s.pwr := (congrArg State.pwr h.same : t.offFuse.pwr = s.start.offFuse.pwr)
  obtain ⟨u, hend, hoff, hset, hcount, honly⟩ := fuseEnd_told (s := t) (by rw [hpwr]; exact hr) hres
  rw [hend]
  have hbst : u.bst = t.bst := (congrArg State.bst hoff : u.offRegs.bst = t.offRegs.bst)
  have hfree : u.freeCount = t.freeCount := (congrArg State.freeCount hoff : u.offRegs.freeCount = t.offRegs.freeCount)
  refine ⟨⟨?_, hcount.trans h.count, h.only.trans honly, (congrArg offFuse hoff : u.offRegs.offFuse = t.offRegs.offFuse).trans h.same⟩, hset, hfree⟩
  rw [modBst, hbst, h.bst]

theorem Burned.eq {s t : State} {r : Repair} {left : Option (List Repair)} (h : s.Burned r left t) :
    t.bst = { s.bst with fuses := s.bst.fuses ++ [r], burn := t.bst.burn } ∧ t.bst.burn = left
    ∧ t = { s.start with bst := t.bst, regs := t.regs, freeCount := t.freeCount, freeNext := t.freeNext } := by
  refine ⟨?_, congrArg Bst.burn h.bst, congrArg (fun u : State => { u with
    bst := t.bst, regs := t.regs, freeCount := t.freeCount, freeNext := t.freeNext }) h.same⟩
  rw [h.bst]

theorem fuseRecord_good {s : State} {r : Repair} {rs : List Repair} (hburn : s.bst.burn = some (r :: rs)) (hr : s.pwr.runAfterFg = false)
    (hm : s.mode = .service) :
    ∃ t, exec (.fuseRecordDone true) s = .next t ∧ t.bst = { s.bst with fuses := s.bst.fuses ++ [r], burn := t.bst.burn }
      ∧ t.f Fld.bstFuseStat_burned = sat Fld.bstFuseStat_burned (s.f Fld.bstFuseStat_burned + 1)
      ∧ (rs = [] → t.bst.burn = none ∧ t.f Fld.bstFuseStat_result = 1 ∧ t.freeCount = s.freeCount)
      ∧ (rs ≠ [] → s.freeNext % 2 = 0 → t.bst.burn = none ∧ t.f Fld.bstFuseStat_result = 3)
      ∧ (rs ≠ [] → s.freeNext % 2 = 1 → 1023 ≤ s.bst.fuses.length → t.bst.burn = none ∧ t.f Fld.bstFuseStat_result = 5)
      ∧ (rs ≠ [] → s.freeNext % 2 = 1 → s.bst.fuses.length < 1023 → t.bst.burn = some rs)
      ∧ s.onlyRegs t [(.bstFuseStat, 0)]
      ∧ t = { s.start with bst := t.bst, regs := t.regs, freeCount := t.freeCount, freeNext := t.freeNext } := by
  obtain ⟨hkept, hcount⟩ := s.recorded_burned r
  have hdrawn : s.Burned r s.bst.burn (s.start.recorded r).draw := ⟨hkept.bst, hkept.count, hkept.only, hkept.same⟩
  refine ⟨_, fuseRecordDone_runs hburn hm true, ?_⟩
  rw [if_pos rfl]
  by_cases hrs : rs = []
  · obtain ⟨hb, hres, hfree⟩ := hkept.ends hr (res := 1) (by decide)
    obtain ⟨hbst, hleft, heq⟩ := hb.eq
    rw [if_pos (by simpa using hrs)]
    exact ⟨hbst, hb.count, fun _ => ⟨hleft, hres, hfree.trans hcount⟩, fun h => absurd hrs h, fun h => absurd hrs h, fun h => absurd hrs h,
      hb.only, heq⟩
  rw [if_neg (by simpa using hrs)]
  by_cases hfree : s.freeNext % 2 = 1
  · rw [if_neg (not_not.mpr hfree)]
    have hlen : (s.start.recorded r).draw.bst.fuses.length = s.bst.fuses.length + 1 := by
      rw [hdrawn.bst]
      simp
    unfold fuseNext
    rw [if_neg (by simpa using hrs), hlen]
    by_cases hroom : 1023 ≤ s.bst.fuses.length
    · obtain ⟨hb, hres, -⟩ := hdrawn.ends hr (res := 5) (by decide)
      obtain ⟨hbst, hleft, heq⟩ := hb.eq
      rw [if_pos (by omega)]
      exact ⟨hbst, hb.count, fun h => absurd h hrs, fun _ h => by omega, fun _ _ _ => ⟨hleft, hres⟩, fun _ _ h => by omega, hb.only, heq⟩
    · have hb : s.Burned r (some rs) ((s.start.recorded r).draw.modBst fun b => { b with burn := some rs }) :=
        ⟨congrArg (fun b : Bst => { b with burn := some rs }) hkept.bst, hkept.count, hkept.only, hkept.same⟩
      obtain ⟨hbst, hleft, heq⟩ := hb.eq
      rw [if_neg (by omega)]
      exact ⟨hbst, hb.count, fun h => absurd h hrs, fun _ h => by omega, fun _ _ h => absurd h hroom, fun _ _ _ => hleft, hb.only, heq⟩
  · obtain ⟨hb, hres, -⟩ := hdrawn.ends hr (res := 3) (by decide)
    obtain ⟨hbst, hleft, heq⟩ := hb.eq
    rw [if_pos hfree]
    exact ⟨hbst, hb.count, fun h => absurd h hrs, fun _ _ => ⟨hleft, hres⟩, fun _ h => absurd h hfree, fun _ h => absurd h hfree, hb.only, heq⟩

theorem fuseRecord_bad {s : State} {r : Repair} {rs : List Repair} (hburn : s.bst.burn = some (r :: rs)) (hr : s.pwr.runAfterFg = false)
    (hm : s.mode = .service) (hmute : s.mute 0x1C5 = true) :
    ∃ t, exec (.fuseRecordDone false) s = .next t ∧ t.bst = { s.bst with burn := none } ∧ t.f Fld.bstFuseStat_result = 4
      ∧ s.counted t 0x1C5 ∧ s.onlyBlocks t [.bst, .flt] ∧ t = { s.start with bst := t.bst, regs := t.regs, flt := t.flt } := by
  refine ⟨_, fuseRecordDone_runs hburn hm false, ?_⟩
  rw [if_neg Bool.false_ne_true, fuseEnd_plain (s := s.start) hr]
  have hres := f_setF_same s.start (x := Fld.bstFuseStat_result) (by decide) 4 0
  have honly : s.onlyBlocks (s.start.setF Fld.bstFuseStat_result 4) [.bst] :=
    onlyBlocks_setF s.start (x := Fld.bstFuseStat_result) (i := 0) (b := .bst) (by decide) (by decide) 4
  have heq := offRegs_setF s.start Fld.bstFuseStat_result 4 0
  generalize s.start.setF Fld.bstFuseStat_result 4 = u at *
  have hmode : u.mode = s.mode := (congrArg State.mode heq : u.offRegs.mode = s.start.offRegs.mode)
  have hflt : u.flt = s.start.flt := (congrArg State.flt heq : u.offRegs.flt = s.start.offRegs.flt)
  have hbst : u.bst = s.bst := (congrArg State.bst heq : u.offRegs.bst = s.start.offRegs.bst)
  have honly' : s.onlyBlocks (u.modBst fun b => { b with burn := none }) [.bst] := honly
  obtain ⟨hraised, hcounted⟩ := raise_after (s := s) (u := u.modBst fun b => { b with burn := none }) (src := 0x1C5)
    (by rw [modBst, hmode, hm]; decide) (by decide) hmute hflt honly' (by decide) r.unit none none 0
  have hE := hraised.eq
  generalize (u.modBst fun b => { b with burn := none }).raise 0x1C5 r.unit = t at *
  have hb : t.bst = { u.bst with burn := none } := congrArg State.bst hE
  refine ⟨by rw [hb, hbst], ?_, hcounted, (honly'.mono (by decide)).trans (hraised.only.mono (by decide)), ?_⟩
  · exact (hraised.only.f_eq (x := Fld.bstFuseStat_result) (b := .bst) (by decide) (by decide)).trans hres
  · exact (congrArg (fun y : State => { y with bst := t.bst }) hE).trans
      (congrArg (fun y : State => { y with bst := t.bst, regs := t.regs, flt := t.flt }) heq)

/-! ### The SVN burn -/

/-- The register words that the SVN burn and its record may change. -/
abbrev svnRegs : List (RegId × Nat) := [(.imgSvnBurn, 0), (.imgSvn, 0)]

theorem svnRegs_record : ((RegId.imgSvn, 0) : RegId × Nat) ∈ svnRegs := List.mem_cons_of_mem _ (List.mem_singleton_self _)

theorem svnRow_runs {s : State} {a : Acc} {v comp : Word} (hg : s.goesKeyed a .imgSvnBurn 0 v comp = true) (hidle : s.img.svnBurn = none) :
    ∃ x t, exec (.imgSvnBurn a v comp) s = .next t ∧ s.KeyPut .imgSvnBurn 0 v x
      ∧ t.offAnswer = (if s.mode ≠ .service then x.setF Fld.imgSvn_burn_result 2
        else if s.freeNext % 2 ≠ 1 then x.draw.setF Fld.imgSvn_burn_result 3
        else if v.toNat % 2 ^ 8 ≤ s.img.minSvn ∨ s.f Fld.imgSvn_run_svn < v.toNat % 2 ^ 8 then x.draw.setF Fld.imgSvn_burn_result 4
        else x.draw.modImg fun m => { m with svnBurn := some (v.toNat % 2 ^ 8) }).offAnswer := by
  obtain ⟨x, t, hrow, hput, hans, -⟩ := keyedRow_puts (g := fun x => x.svnCommand (v.toNat % 2 ^ 8)) hg (by decide) (by decide) rfl rfl fun _ => rfl
  have hix : x.img = s.img := hput.get State.img fun _ => rfl
  have hmx : x.mode = s.mode := hput.get State.mode fun _ => rfl
  have hfx : x.freeNext = s.freeNext := hput.get State.freeNext fun _ => rfl
  have hrun : x.f Fld.imgSvn_run_svn = s.f Fld.imgSvn_run_svn :=
    congrArg (fun w : Word => bits 15 8 w.toNat) (hput.only.reg_eq (id := .imgSvn) (i := 0) (by decide))
  have hfirst : x.svnCommand (v.toNat % 2 ^ 8) = if x.mode ≠ .service then x.setF Fld.imgSvn_burn_result 2
        else if x.freeNext % 2 ≠ 1 then x.draw.setF Fld.imgSvn_burn_result 3
        else if v.toNat % 2 ^ 8 ≤ x.img.minSvn ∨ x.f Fld.imgSvn_run_svn < v.toNat % 2 ^ 8 then x.draw.setF Fld.imgSvn_burn_result 4
        else x.draw.modImg fun m => { m with svnBurn := some (v.toNat % 2 ^ 8) } := by
    have hgo : ¬ x.img.svnBurn.isSome = true := by
      rw [hix, hidle]
      exact nofun
    refine (if_neg hgo).trans ?_
    by_cases hfree : x.freeNext % 2 = 1
    · have hvpp : (!decide (x.free % 2 = 1)) = false := by rw [decide_eq_true (show x.free % 2 = 1 from hfree)]; rfl
      simp only [hvpp, hfree, ne_eq, not_true_eq_false, if_false, Bool.false_eq_true]
      rfl
    · have hvpp : (!decide (x.free % 2 = 1)) = true := by rw [decide_eq_false (show ¬ x.free % 2 = 1 from hfree)]; rfl
      simp only [hvpp, hfree, ne_eq, not_false_eq_true, if_true]
  rw [hfirst, hix, hmx, hfx, hrun] at hans
  exact ⟨x, t, hrow, hput, hans⟩

/-- A result of the SVN burn that is drawn with the fuse supply absent or the value bad. -/
theorem svn_told {s x t : State} {v : Word} {res : Nat} (hput : s.KeyPut .imgSvnBurn 0 v x) (hres : res < 8)
    (hans : t.offAnswer = (x.draw.setF Fld.imgSvn_burn_result res).offAnswer) :
    t.f Fld.imgSvn_burn_result = res ∧ t.img = s.img ∧ s.onlyRegs t svnRegs
      ∧ t = { s.asideFrom t with regs := t.regs, keyPend := t.keyPend, img := t.img, freeCount := s.freeCount + 1, freeNext := t.freeNext } := by
  obtain ⟨hregs, -⟩ := keys_of_offAnswer hans
  have hcx : x.freeCount = s.freeCount := hput.get State.freeCount fun _ => rfl
  have hset := f_setF_same x.draw (x := Fld.imgSvn_burn_result) (by decide) res 0
  have honly : s.onlyRegs x.draw svnRegs := hput.only.mono (List.cons_subset_cons _ (List.nil_subset _))
  have hoff : t.offAnswer.offRegs = x.draw.offRegs.offAnswer := (congrArg offRegs hans).trans (congrArg offAnswer (offRegs_setF x.draw Fld.imgSvn_burn_result res 0))
  refine ⟨(f_congr hregs _ _).trans (hset.trans (Nat.mod_eq_of_lt hres)), ?_, (honly.setF svnRegs_record _).congr hregs, ?_⟩
  · have himg : t.img = x.img := (congrArg State.img hoff : t.offAnswer.offRegs.img = x.draw.offRegs.offAnswer.img)
    exact himg.trans (hput.get State.img fun _ => rfl)
  · exact (congrArg (fun y : State => { y with
      outp := t.outp, links := t.links, slowQ := t.slowQ, regs := t.regs, keyPend := t.keyPend, img := t.img, freeNext := t.freeNext }) hoff).trans
      ((congrArg (fun y : State => { y with
      outp := t.outp, links := t.links, slowQ := t.slowQ, regs := t.regs, keyPend := t.keyPend, img := t.img
      freeCount := x.freeCount + 1, freeNext := t.freeNext }) hput.same).trans (by rw [hcx]))

theorem svn_offService {s : State} {a : Acc} {v comp : Word} (hg : s.goesKeyed a .imgSvnBurn 0 v comp = true) (hidle : s.img.svnBurn = none)
    (hm : s.mode ≠ .service) :
    ∃ t, exec (.imgSvnBurn a v comp) s = .next t ∧ t.f Fld.imgSvn_burn_result = 2 ∧ s.onlyRegs t svnRegs
      ∧ t = { s.asideFrom t with regs := t.regs, keyPend := t.keyPend } := by
  obtain ⟨x, t, hrow, hput, hans⟩ := svnRow_runs hg hidle
  rw [if_pos hm] at hans
  obtain ⟨hregs, -⟩ := keys_of_offAnswer hans
  have honly : s.onlyRegs x svnRegs := hput.only.mono (List.cons_subset_cons _ (List.nil_subset _))
  refine ⟨t, hrow, ?_, (honly.setF svnRegs_record _).congr hregs, hput.eq_of_answer hans (offRegs_setF ..)⟩
  rw [f_congr hregs, f_setF_same _ (by decide)]
  rfl

theorem svn_service {s : State} {a : Acc} {v comp : Word} {n : Nat} (hg : s.goesKeyed a .imgSvnBurn 0 v comp = true) (hn : n = v.toNat % 2 ^ 8)
    (hidle : s.img.svnBurn = none) (hm : s.mode = .service) :
    ∃ t, exec (.imgSvnBurn a v comp) s = .next t
      ∧ (s.freeNext % 2 = 0 → t.f Fld.imgSvn_burn_result = 3 ∧ t.img = s.img)
      ∧ (s.freeNext % 2 = 1 → n ≤ s.img.minSvn ∨ s.f Fld.imgSvn_run_svn < n → t.f Fld.imgSvn_burn_result = 4 ∧ t.img = s.img)
      ∧ (s.freeNext % 2 = 1 → s.img.minSvn < n → n ≤ s.f Fld.imgSvn_run_svn → t.img = { s.img with svnBurn := some n })
      ∧ s.onlyRegs t svnRegs
      ∧ t = { s.asideFrom t with regs := t.regs, keyPend := t.keyPend, img := t.img, freeCount := s.freeCount + 1, freeNext := t.freeNext } := by
  obtain ⟨x, t, hrow, hput, hans⟩ := svnRow_runs hg hidle
  rw [if_neg (not_not.mpr hm), ← hn] at hans
  refine ⟨t, hrow, ?_⟩
  by_cases hfree : s.freeNext % 2 = 1
  · rw [if_neg (not_not.mpr hfree)] at hans
    by_cases hbad : n ≤ s.img.minSvn ∨ s.f Fld.imgSvn_run_svn < n
    · rw [if_pos hbad] at hans
      obtain ⟨hres, himg, honly, heq⟩ := svn_told hput (by decide) hans
      exact ⟨fun h => by omega, fun _ _ => ⟨hres, himg⟩, fun _ h h' => by omega, honly, heq⟩
    · rw [if_neg hbad] at hans
      have hcx : x.freeCount = s.freeCount := hput.get State.freeCount fun _ => rfl
      have hix : x.img = s.img := hput.get State.img fun _ => rfl
      have himg : t.img = { x.img with svnBurn := some n } := (congrArg State.img hans : t.offAnswer.img = _)
      refine ⟨fun h => by omega, fun _ h => absurd h hbad, fun _ _ _ => himg.trans (by rw [hix]),
        (hput.only.mono (List.cons_subset_cons _ (List.nil_subset _))).congr (congrArg State.regs hans : t.offAnswer.regs = _), ?_⟩
      exact (congrArg (fun y : State => { y with
        outp := t.outp, links := t.links, slowQ := t.slowQ, regs := t.regs, keyPend := t.keyPend, img := t.img, freeNext := t.freeNext }) hans).trans
        ((congrArg (fun y : State => { y with
        outp := t.outp, links := t.links, slowQ := t.slowQ, regs := t.regs, keyPend := t.keyPend, img := t.img
        freeCount := x.freeCount + 1, freeNext := t.freeNext }) hput.same).trans (by rw [hcx]))
  · rw [if_pos hfree] at hans
    obtain ⟨hres, himg, honly, heq⟩ := svn_told hput (by decide) hans
    exact ⟨fun _ => ⟨hres, himg⟩, fun h => absurd h hfree, fun h => absurd h hfree, honly, heq⟩

theorem svnResult_told (s : State) (res : Nat) (hres : res < 8) :
    ∃ u, s.setF Fld.imgSvn_burn_result res = u ∧ u.offRegs = s.offRegs ∧ u.f Fld.imgSvn_burn_result = res
      ∧ s.onlyFields u [(Fld.imgSvn_burn_result, 0)] :=
  ⟨_, rfl, offRegs_setF .., (f_setF_same s (by decide) res 0).trans (Nat.mod_eq_of_lt hres),
    onlyFields_setF s (List.mem_singleton_self _) (by decide) (by decide) res⟩

theorem svnBurn_completes {s : State} {n : Nat} (hburn : s.img.svnBurn = some n) (hr : s.pwr.runAfterFg = false) (b : Bool) :
    ∃ t, exec (.svnBurnComplete b) s = .next t ∧ t.f Fld.imgSvn_burn_result = (if b then 1 else 5)
      ∧ t.img = { s.img with svnBurn := none, minSvn := if b then n else s.img.minSvn }
      ∧ s.onlyFields t [(Fld.imgSvn_burn_result, 0)] ∧ t = { s.start with img := t.img, regs := t.regs } := by
  obtain ⟨u, hu, hoff, hset, honly⟩ := svnResult_told s.start (if b then 1 else 5) (by cases b <;> decide)
  have himg : u.img = s.img := (congrArg State.img hoff : u.offRegs.img = s.start.offRegs.img)
  have hpwr : u.pwr = s.pwr := (congrArg State.pwr hoff : u.offRegs.pwr = s.start.offRegs.pwr)
  have hnext : exec (.svnBurnComplete b) s
      = .next (u.modImg fun m => { m with svnBurn := none, minSvn := if b then n else m.minSvn }) := by
    have hb : s.start.img.svnBurn = some n := hburn
    have hlast := runAtLast_plain (s := u.modImg fun m => { m with svnBurn := none, minSvn := if b then n else m.minSvn })
      (by rw [modImg, hpwr]; exact hr)
    rw [← hlast, ← hu]
    refine congrArg Host.Outcome.next ?_
    simp only [hb]
  refine ⟨_, hnext, hset, by rw [modImg, himg], honly, ?_⟩
  exact (congrArg (fun y : State => { y with
    img := { u.img with svnBurn := none, minSvn := if b then n else u.img.minSvn }, regs := u.regs }) hoff)

end State

/-- Settles O56: the command words by their operation code; `Burned` says what a record that verifies leaves. -/
theorem fuseAndSvnCommands : Obligations.FuseAndSvnCommands :=
  ⟨⟨fun _ _ _ _ hb => ⟨fun hg => ⟨State.burn_offService hb hg, State.burn_noSupply hb hg,
        fun _ hm hf hrs hne hlen => State.fuse_starts (.inl rfl) hb hg hm hf hrs hne hlen⟩,
      fun hg hm hf hlen => (State.fuse_starts (.inr rfl) hb hg hm hf rfl (List.cons_ne_nil _ _) hlen).imp
        fun _ ⟨hrow, hbst, hcount, honly, _⟩ => ⟨hrow, hbst, hcount, honly⟩⟩,
      fun _ _ h => State.fuseRecordDone_idle h,
      fun _ _ _ hb hr hm => ⟨State.fuseRecord_good hb hr hm, State.fuseRecord_bad hb hr hm⟩⟩,
    fun _ _ _ _ _ hg hn hidle => ⟨State.svn_offService hg hidle, State.svn_service hg hn hidle⟩,
    fun _ _ hburn hr => ⟨State.svnBurn_completes hburn hr true, State.svnBurn_completes hburn hr false⟩⟩

end Sys2Proof.Machine
end

section
/-! PROOFS. Flash commands by host software (R345, R346) and the bridge's settings (R344, R347). -/

namespace Sys2Proof.Machine

/-- The image block with a flash command under way. -/
def Img.flashes (m : Img) (op ad slot : Nat) (data : List Byte) : Img := { m with flCmd := some (op, ad, slot), flData := data }

/-- The image block once a flash command has ended. -/
def Img.flashEnds (m : Img) : Img := { m with flCmd := none, flData := [] }

namespace State

/-- The state with its image block replaced. -/
def withImg (s : State) (m : Img) : State := { s with img := m }

/-! ### A flash command starts -/

theorem writeFlash_writes {s : State} {a : Acc} {v : Word} (hg : s.goesWrite a .imgFlCmd 0 v = true) :
    ∃ t, writeRow a .imgFlCmd 0 v s = .next t ∧ s.Writes a .imgFlCmd 0 v (s.start.flashCommand v.toNat) t :=
  writeRow_writes hg (by decide) rfl (by decide) rfl (lockBreaks_free rfl _)

theorem setBits_flOp (op : Nat) (v : Word) : (setBits 31 29 op v).toNat / 2 ^ 29 % 8 = op % 8 :=
  bits_setBits_same (hi := 31) (lo := 29) (by decide) (by decide) op v

theorem setBits_flSlot (op : Nat) (v : Word) : (setBits 31 29 op v).toNat % 2 = v.toNat % 2 := by
  have h := bits_setBits_apart (hi := 31) (lo := 29) (hi' := 0) (lo' := 0) (by decide) (by decide) (by decide) op v
  simpa [bits] using h

/-- How many bytes a flash command's address must be a multiple of. -/
def flUnit (op : Nat) : Nat := if op = 1 then 4 else if op = 2 then 256 else 4096

/-- A flash command in a mode that takes it, while none runs. -/
theorem flashCommand_runs {s : State} {op : Nat} {v : Word} (hop : op = 1 ∨ op = 2 ∨ op = 3 ∨ op = 4) (hm : s.mode = .run ∨ s.mode = .doze ∨ s.mode = .service)
    (hidle : s.img.flCmd = none) :
    s.flashCommand (setBits 31 29 op v).toNat =
      if op ≠ 4 ∧ (s.img.flashSize ≤ s.f Fld.imgFlAddr_addr ∨ s.f Fld.imgFlAddr_addr % flUnit op ≠ 0) then s.flashResult 2
      else if op = 2 ∧ s.flashGuarded (s.f Fld.imgFlAddr_addr) 256 = true ∨ op = 3 ∧ s.flashGuarded (s.f Fld.imgFlAddr_addr) 4096 = true
      then s.flashResult 2
      else s.withImg (s.img.flashes op (s.f Fld.imgFlAddr_addr) (v.toNat % 2) (if op = 2 then s.flashBuffer else [])) := by
  have hop8 : op % 8 = op := by omega
  have hnone : ¬ s.img.flCmd.isSome = true := by rw [hidle]; exact nofun
  have hworks : ¬ (!(decide (s.mode = .run ∨ s.mode = .doze ∨ s.mode = .service) || (op == 1 && s.mode == .halt))) = true := by
    rw [decide_eq_true hm]
    exact nofun
  unfold flashCommand
  simp only [setBits_flOp, setBits_flSlot, hop8]
  rw [if_neg hnone, if_neg (by omega), if_neg hworks]
  rfl

theorem flash_starts {s : State} {a : Acc} {v : Word} {op ad : Nat} (hop : op = 1 ∨ op = 2 ∨ op = 3 ∨ op = 4)
    (hm : s.mode = .run ∨ s.mode = .doze ∨ s.mode = .service) (hidle : s.img.flCmd = none) (had : ad = s.f Fld.imgFlAddr_addr)
    (hg : s.goesWrite a .imgFlCmd 0 (setBits 31 29 op v) = true) (hadr : op = 4 ∨ ad < s.img.flashSize ∧ ad % flUnit op = 0)
    (hguard : (op = 2 → s.flashGuarded ad 256 = false) ∧ (op = 3 → s.flashGuarded ad 4096 = false)) :
    ∃ t, writeRow a .imgFlCmd 0 (setBits 31 29 op v) s = .next t
      ∧ t = { s.asideFrom t with img := { s.img with flCmd := some (op, ad, v.toNat % 2), flData := if op = 2 then s.flashBuffer else [] } } := by
  obtain ⟨t, hrow, hw⟩ := writeFlash_writes hg
  have hfirst : ¬ (op ≠ 4 ∧ (s.img.flashSize ≤ ad ∨ ad % flUnit op ≠ 0)) := by
    rintro ⟨hne, h⟩
    obtain ⟨hlt, hunit⟩ := hadr.resolve_left hne
    exact h.elim (fun h => by omega) fun h => h hunit
  have hsecond : ¬ (op = 2 ∧ s.flashGuarded ad 256 = true ∨ op = 3 ∧ s.flashGuarded ad 4096 = true) := by
    rintro (⟨h, hg⟩ | ⟨h, hg⟩)
    · exact absurd ((hguard.1 h).symm.trans hg) (by decide)
    · exact absurd ((hguard.2 h).symm.trans hg) (by decide)
  subst had
  have hcmd := (flashCommand_runs (s := s.start) (v := v) hop hm hidle).trans ((if_neg hfirst).trans (if_neg hsecond))
  rw [hcmd] at hw
  exact ⟨t, hrow, hw.eq⟩

theorem flash_told (s : State) {x : Fld} (hx : x.fits) {n : Nat} (hn : n < 2 ^ (x.hi + 1 - x.lo)) {a : Acc} {v : Word} {id : RegId} {t : State}
    (hw : s.Writes a id 0 v (s.start.setF x n) t) (hwords : wordsApart x 0 [(x, 0)]) :
    t.f x = n ∧ s.onlyFields t [(x, 0)] ∧ t = { s.asideFrom t with regs := t.regs } :=
  ⟨(f_congr hw.regs _ _).trans ((f_setF_same s.start hx n 0).trans (Nat.mod_eq_of_lt hn)),
    ((onlyFields.refl s _).setF (List.mem_singleton_self _) hx hwords n).congr hw.regs, hw.eq_regs (offRegs_setF ..)⟩

theorem program_refused {s : State} {a : Acc} {v : Word} {ad : Nat} (hm : s.mode = .run ∨ s.mode = .doze ∨ s.mode = .service)
    (hidle : s.img.flCmd = none) (had : ad = s.f Fld.imgFlAddr_addr) (hg : s.goesWrite a .imgFlCmd 0 (setBits 31 29 2 v) = true)
    (hbad : ad % 256 ≠ 0 ∨ s.flashGuarded ad 256 = true) :
    ∃ t, exec (.program a v) s = .next t ∧ t.f Fld.imgFlStat_result = 2 ∧ s.onlyFields t [(Fld.imgFlStat_result, 0)]
      ∧ t = { s.asideFrom t with regs := t.regs } := by
  obtain ⟨t, hrow, hw⟩ := writeFlash_writes hg
  subst had
  have hcmd : s.start.flashCommand (setBits 31 29 2 v).toNat = s.start.setF Fld.imgFlStat_result 2 := by
    rw [flashCommand_runs (s := s.start) (.inr (.inl rfl)) hm hidle]
    rcases hbad with hunit | hguard
    · exact if_pos ⟨by decide, .inr hunit⟩
    · rw [show s.start.flashGuarded (s.start.f Fld.imgFlAddr_addr) 256 = true from hguard]
      split
      · rfl
      · exact if_pos (.inl ⟨rfl, rfl⟩)
  rw [hcmd] at hw
  exact ⟨t, hrow, flash_told s (by decide) (by decide) hw (by decide)⟩

theorem flash_overruns {s : State} {a : Acc} {v : Word} (hbusy : s.img.flCmd ≠ none) (hg : s.goesWrite a .imgFlCmd 0 v = true) :
    ∃ t, writeRow a .imgFlCmd 0 v s = .next t ∧ t.f Fld.imgFlStat_overrun = 1 ∧ s.onlyFields t [(Fld.imgFlStat_overrun, 0)]
      ∧ t = { s.asideFrom t with regs := t.regs } := by
  obtain ⟨t, hrow, hw⟩ := writeFlash_writes hg
  have hcmd : s.start.flashCommand v.toNat = s.start.setF Fld.imgFlStat_overrun 1 := if_pos (Option.isSome_iff_ne_none.mpr hbusy)
  rw [hcmd] at hw
  exact ⟨t, hrow, flash_told s (by decide) (by decide) hw (by decide)⟩

/-! ### A flash command ends -/

theorem flashCmdComplete_runs {s : State} {bs : List Byte} {err : Bool} {op ad slot : Nat} (hw : s.img.writing = none)
    (hcmd : s.img.flCmd = some (op, ad, slot)) : exec (.flashCmdComplete bs err) s = .next (s.start.flashDone op ad slot bs err) := by
  refine congrArg Host.Outcome.next ?_
  have hc : s.start.img.flCmd = some (op, ad, slot) := hcmd
  have hw' : ¬ s.start.img.writing.isSome = true := by
    rw [show s.start.img.writing = none from hw]
    exact nofun
  simp only [hc]
  exact if_neg hw'

/-- The buffer IMG_FL_BUF filled from bytes, its first `n` words. -/
def bufFilled (bs : List Byte) (n : Nat) (s : State) : State :=
  (List.range n).foldl (fun s m => s.setReg .imgFlBuf m (BitVec.ofNat 32 (fieldAt (4 * m) 4 bs))) s

theorem bufFilled_succ (bs : List Byte) (n : Nat) (s : State) :
    bufFilled bs (n + 1) s = (bufFilled bs n s).setReg .imgFlBuf n (BitVec.ofNat 32 (fieldAt (4 * n) 4 bs)) := by
  simp [bufFilled, List.range_succ]

theorem blockAt_imgFlBuf {m : Nat} (h : m < 64) : blockAt (regOff .imgFlBuf m) = some .img := by
  have hall : ∀ m < 64, blockAt (regOff .imgFlBuf m) = some .img := by decide
  exact hall m h

theorem regOff_imgFlBuf (m : Nat) : regOff .imgFlBuf m = regOff .imgFlBuf 0 + 4 * m := by
  simp [regOff, RegId.row, Nat.mod_one, Nat.mul_comm]

theorem bufFilled_fills (bs : List Byte) (s : State) (n : Nat) (hn : n ≤ 64) :
    (∀ m < n, (bufFilled bs n s).reg .imgFlBuf m = BitVec.ofNat 32 (fieldAt (4 * m) 4 bs)) ∧ (bufFilled bs n s).offRegs = s.offRegs
    ∧ s.onlyBlocks (bufFilled bs n s) [.img] := by
  induction n with
  | zero => exact ⟨fun _ h => absurd h (Nat.not_lt_zero _), rfl, onlyBlocks.refl s _⟩
  | succ n ih =>
    obtain ⟨hfill, hoff, honly⟩ := ih (by omega)
    rw [bufFilled_succ]
    refine ⟨fun m hm => ?_, hoff, honly.setReg (blockAt_imgFlBuf hn) (List.mem_singleton_self _) _⟩
    by_cases he : m = n
    · rw [he, reg_setReg_same]
    · rw [reg_setReg_ne _ (by rw [regOff_imgFlBuf m, regOff_imgFlBuf n]; omega)]
      exact hfill m (by omega)

/-- What is left of the image block of the state when a flash command ends. -/
theorem flashDone_read (s : State) (ad slot : Nat) (bs : List Byte) :
    s.flashDone 1 ad slot bs false = (bufFilled bs 64 (s.withImg s.img.flashEnds)).setF Fld.imgFlStat_result 1 := rfl

/-- A field of a register that is set, and nothing else. -/
theorem setF_tells (s : State) {x : Fld} (hx : x.fits) (hwords : wordsApart x 0 [(x, 0)]) {n : Nat} (hn : n < 2 ^ (x.hi + 1 - x.lo)) :
    ∃ u, s.setF x n = u ∧ u.offRegs = s.offRegs ∧ u.f x = n ∧ s.onlyFields u [(x, 0)]
      ∧ ∀ id i, regOff id i ≠ regOff x.id 0 → u.reg id i = s.reg id i :=
  ⟨_, rfl, offRegs_setF .., (f_setF_same s hx n 0).trans (Nat.mod_eq_of_lt hn), onlyFields_setF s (List.mem_singleton_self _) hx hwords n,
    fun _ _ h => reg_setF_ne s h n⟩

theorem flashRead_ends {s : State} {bs : List Byte} {ad slot : Nat} (hw : s.img.writing = none) (hcmd : s.img.flCmd = some (1, ad, slot)) :
    ∃ t, exec (.flashCmdComplete bs false) s = .next t ∧ (∀ m < 64, t.reg .imgFlBuf m = BitVec.ofNat 32 (fieldAt (4 * m) 4 bs))
      ∧ t.f Fld.imgFlStat_result = 1 ∧ t.img = { s.img with flCmd := none, flData := [] } ∧ s.onlyBlocks t [.img]
      ∧ t = { s.start with img := t.img, regs := t.regs } := by
  refine ⟨_, flashCmdComplete_runs hw hcmd, ?_⟩
  obtain ⟨hfill, hoff, honly⟩ := bufFilled_fills bs (s.start.withImg s.img.flashEnds) 64 (Nat.le_refl _)
  obtain ⟨u, hu, hset, hres, hfields, hregs⟩ := (bufFilled bs 64 (s.start.withImg s.img.flashEnds)).setF_tells
    (x := Fld.imgFlStat_result) (by decide) (by decide) (n := 1) (by decide)
  rw [flashDone_read, show s.start.img.flashEnds = s.img.flashEnds from rfl, hu]
  have honly' : s.onlyBlocks u [.img] := by
    rw [← hu]
    exact onlyBlocks.setF (s := s) (b := .img) honly (by decide) (List.mem_singleton_self _) 1
  have hne : ∀ m < 64, regOff .imgFlBuf m ≠ regOff Fld.imgFlStat_result.id 0 := by decide
  have hsame := hset.trans hoff
  have himg := congrArg State.img hsame
  exact ⟨fun m hm => (hregs _ _ (hne m hm)).trans (hfill m hm), hres, himg, honly',
    congrArg (fun y : State => { y with img := u.img, regs := u.regs }) hsame⟩

/-- A flash command that ends with a result, after what it sends. -/
theorem flash_ends {s : State} {bs : List Byte} {err : Bool} {op ad slot : Nat} (hw : s.img.writing = none)
    (hcmd : s.img.flCmd = some (op, ad, slot)) {res : Nat} (hres : res < 16) {out : List Output}
    (hdone : s.start.flashDone op ad slot bs err
      = ({ s.start.withImg s.img.flashEnds with outp := out } : State).setF Fld.imgFlStat_result res) :
    ∃ t, exec (.flashCmdComplete bs err) s = .next t ∧ t.outp = out ∧ t.f Fld.imgFlStat_result = res
      ∧ t.img = { s.img with flCmd := none, flData := [] } ∧ s.onlyFields t [(Fld.imgFlStat_result, 0)]
      ∧ t = { s.start with img := t.img, regs := t.regs, outp := t.outp } := by
  obtain ⟨u, hu, hset, hfield, hfields, -⟩ := ({ s.start.withImg s.img.flashEnds with outp := out } : State).setF_tells
    (x := Fld.imgFlStat_result) (by decide) (by decide) (n := res) hres
  have hout := congrArg State.outp hset
  have himg := congrArg State.img hset
  refine ⟨u, by rw [flashCmdComplete_runs hw hcmd, hdone, hu], hout, hfield, himg, hfields, ?_⟩
  exact congrArg (fun y : State => { y with img := u.img, regs := u.regs, outp := u.outp }) hset

/-! ### Settings -/

theorem imgBootCfg_sets {s : State} {a : Acc} {v comp : Word} (hg : s.goesKeyed a .imgBootCfg 0 v comp = true) (hv : v.toNat % 4 < 2) :
    ∃ t, exec (.imgBootCfg a v comp) s = .next t
      ∧ t = { s.asideFrom t with img := { s.img with prefer := decide (v.toNat % 2 = 1), trial := bit 2 v.toNat }, keyPend := t.keyPend } := by
  have hok : keyValueOk .imgBootCfg v = true := by simpa [keyValueOk] using hv
  obtain ⟨u, t, hrow, hw⟩ := keyedRow_writes hg (by decide) (by decide) rfl hok
  have himg : u.img = s.img := (congrArg State.img hw.same : u.offPair.img = s.start.offPair.img)
  have heff : u.keyEffect .imgBootCfg 0 v = u.withImg { s.img with prefer := decide (v.toNat % 2 = 1), trial := bit 2 v.toNat } := by
    rw [← himg]
    exact if_neg (by omega)
  have hans := hw.answer
  rw [heff] at hans
  exact ⟨t, hrow, (congrArg (fun y : State => { y with outp := t.outp, links := t.links, slowQ := t.slowQ, keyPend := t.keyPend }) hans).trans
    (congrArg (fun y : State => { y with
      outp := t.outp, links := t.links, slowQ := t.slowQ, keyPend := t.keyPend
      img := { s.img with prefer := decide (v.toNat % 2 = 1), trial := bit 2 v.toNat } }) hw.same)⟩

theorem setRow_runs {s : State} {a : Acc} {v comp : Word} {op : Nat} (hg : s.goesKeyed a .imgSetCmd 0 (setBits 1 0 op v) comp = true) :
    ∃ x t, keyedRow a .imgSetCmd 0 (setBits 1 0 op v) comp s = .next t ∧ s.KeyPut .imgSetCmd 0 (setBits 1 0 op v) x
      ∧ t.offAnswer = (x.setCommand op).offAnswer := by
  obtain ⟨x, t, hrow, hput, hans, -⟩ := keyedRow_puts (g := fun x => x.setCommand op) hg (by decide) (by decide) rfl rfl fun u => by
    have hop : (setBits 1 0 op v).toNat % 4 = op % 4 := by
      have h := bits_setBits_same (hi := 1) (lo := 0) (by decide) (by decide) op v
      simpa [bits] using h
    have heff : u.keyEffect .imgSetCmd 0 (setBits 1 0 op v)
        = (u.putRw .imgSetCmd 0 RegId.imgSetCmd.row.key (setBits 1 0 op v)).setCommand (setBits 1 0 op v).toNat := rfl
    rw [heff]
    unfold setCommand
    rw [hop]
  exact ⟨x, t, hrow, hput, hans⟩

theorem emptySoftRepairMap_empties {s : State} {a : Acc} {v comp : Word}
    (hg : s.goesKeyed a .imgSetCmd 0 (setBits 1 0 1 v) (setBits 1 0 2 comp) = true) :
    ∃ t, exec (.emptySoftRepairMap a v comp) s = .next t ∧ s.onlyRegs t [(.imgSetCmd, 0)]
      ∧ t = { s.asideFrom t with bst := { s.bst with soft := [], pendingRec := [] }, img := { s.img with setTake := 0 }, regs := t.regs
                                 keyPend := t.keyPend } := by
  obtain ⟨x, t, hrow, hput, hans⟩ := setRow_runs hg
  have himg : x.img = s.img := hput.get State.img fun _ => rfl
  have hbst : x.bst = s.bst := hput.get State.bst fun _ => rfl
  refine ⟨t, hrow, hput.only.congr (congrArg State.regs hans : t.offAnswer.regs = _), ?_⟩
  rw [← himg, ← hbst]
  exact (congrArg (fun y : State => { y with
      outp := t.outp, links := t.links, slowQ := t.slowQ, regs := t.regs, keyPend := t.keyPend }) hans).trans
    (congrArg (fun y : State => { y with
      outp := t.outp, links := t.links, slowQ := t.slowQ, regs := t.regs, keyPend := t.keyPend
      bst := { x.bst with soft := [], pendingRec := [] }, img := { x.img with setTake := 0 } }) hput.same)

theorem emptyFatalRecords_empties {s : State} {a : Acc} {v comp : Word}
    (hg : s.goesKeyed a .imgSetCmd 0 (setBits 1 0 2 v) (setBits 1 0 1 comp) = true) :
    ∃ t, exec (.emptyFatalRecords a v comp) s = .next t ∧ s.onlyRegs t [(.imgSetCmd, 0)]
      ∧ t = { s.asideFrom t with img := { s.img with fatals := [] }, regs := t.regs, keyPend := t.keyPend } := by
  obtain ⟨x, t, hrow, hput, hans⟩ := setRow_runs hg
  have himg : x.img = s.img := hput.get State.img fun _ => rfl
  refine ⟨t, hrow, hput.only.congr (congrArg State.regs hans : t.offAnswer.regs = _), ?_⟩
  rw [← himg]
  exact (congrArg (fun y : State => { y with
      outp := t.outp, links := t.links, slowQ := t.slowQ, regs := t.regs, keyPend := t.keyPend }) hans).trans
    (congrArg (fun y : State => { y with
      outp := t.outp, links := t.links, slowQ := t.slowQ, regs := t.regs, keyPend := t.keyPend, img := { x.img with fatals := [] } }) hput.same)

theorem forceSettingsWrite_asks {s : State} {a : Acc} {v comp : Word}
    (hg : s.goesKeyed a .imgSetCmd 0 (setBits 1 0 3 v) (setBits 1 0 0 comp) = true) :
    ∃ t, exec (.forceSettingsWrite a v comp) s = .next t ∧ s.onlyRegs t [(.imgSetCmd, 0)]
      ∧ t = { s.asideFrom t with img := { s.img with force := true }, regs := t.regs, keyPend := t.keyPend } := by
  obtain ⟨x, t, hrow, hput, hans⟩ := setRow_runs hg
  have himg : x.img = s.img := hput.get State.img fun _ => rfl
  refine ⟨t, hrow, hput.only.congr (congrArg State.regs hans : t.offAnswer.regs = _), ?_⟩
  rw [← himg]
  exact (congrArg (fun y : State => { y with
      outp := t.outp, links := t.links, slowQ := t.slowQ, regs := t.regs, keyPend := t.keyPend }) hans).trans
    (congrArg (fun y : State => { y with
      outp := t.outp, links := t.links, slowQ := t.slowQ, regs := t.regs, keyPend := t.keyPend, img := { x.img with force := true } }) hput.same)

/-- The state with other seeds, after free values have been drawn for them. -/
def reseeded (s : State) (seeds : FMap Nat) (c n : Nat) : State :=
  { s with img := { s.img with seeds := seeds }, freeCount := c, freeNext := n }

theorem captureAll_reseeds (ls : List Nat) : ∀ s : State, ∃ m c n, ls.foldl (fun s l => s.captureSeeds l 1) s = s.reseeded m c n := by
  induction ls with
  | nil => exact fun s => ⟨s.img.seeds, s.freeCount, s.freeNext, rfl⟩
  | cons l ls ih =>
    intro s
    obtain ⟨m, c, n, h⟩ := s.captureSeeds_with l 1
    obtain ⟨m', c', n', h'⟩ := ih (s.captureSeeds l 1)
    refine ⟨m', c', n', ?_⟩
    rw [List.foldl_cons, h', h]
    rfl

theorem settingsWrite_starts {s : State} (h : s.settingsDue = true) :
    ∃ t, exec .settingsWriteStart s = .next t
      ∧ t.img = { s.img with writing := some s.ownSettings, setTake := s.bst.pendingRec.length, lastSet := some s.ts, force := false
                             seeds := t.img.seeds }
      ∧ t.outp = [.flashErase (s.copyBase (s.img.setValid && !s.img.setCurY)) 0xC000,
          .flashProgram (s.copyBase (s.img.setValid && !s.img.setCurY)) (copyBytes s.ownSettings t.img.seeds ((s.img.setSeq + 1) % 2 ^ 32))]
      ∧ t = { s.start with img := t.img, outp := t.outp, freeCount := t.freeCount, freeNext := t.freeNext } := by
  have hnext : exec .settingsWriteStart s = .next s.start.settingsWrite := congrArg Host.Outcome.next (if_pos h)
  obtain ⟨m, c, n, hseeds⟩ := captureAll_reseeds (s.start.img.seeds.map (·.1)) s.start
  refine ⟨_, hnext, ?_⟩
  unfold settingsWrite
  rw [hseeds]
  exact ⟨rfl, rfl, rfl⟩

/-- A counter field that steps, and nothing else. -/
theorem incF_tells (s : State) {x : Fld} (hx : x.fits) (hwords : wordsApart x 0 [(x, 0)]) :
    ∃ u, s.incF x = u ∧ u.offRegs = s.offRegs ∧ u.f x = sat x (s.f x + 1) ∧ s.onlyFields u [(x, 0)] :=
  ⟨_, rfl, offRegs_incF .., s.f_incF_sat hx 1 0, (onlyFields.refl s _).incF (List.mem_singleton_self _) hx hwords 1⟩

theorem settings_good {s : State} {x : Settings} (hw : s.img.writing = some x) :
    ∃ t, exec (.settingsWriteDone true) s = .next t
      ∧ t.img = { s.img with
          cur := x, setSeq := (s.img.setSeq + 1) % 2 ^ 32, setCurY := s.img.setValid && !s.img.setCurY, setValid := true, writing := none
          setTake := 0 }
      ∧ t.bst.pendingRec = s.bst.pendingRec.drop s.img.setTake
      ∧ t.f Fld.imgSetStat_writes = sat Fld.imgSetStat_writes (s.f Fld.imgSetStat_writes + 1)
      ∧ s.onlyFields t [(Fld.imgSetStat_writes, 0)] ∧ t = { s.start with img := t.img, bst := t.bst, regs := t.regs } := by
  have hnext : exec (.settingsWriteDone true) s = .next (s.start.settingsGood x) := by
    have hw' : s.start.img.writing = some x := hw
    refine congrArg Host.Outcome.next ?_
    simp only [hw']
    rfl
  have hgood : s.start.settingsGood x = (({ s.start with
      bst := { s.bst with
        soft := (s.bst.soft ++ s.bst.pendingRec.take s.img.setTake).filter x.soft.contains, pendingRec := s.bst.pendingRec.drop s.img.setTake }
      img := { s.img with
        cur := x, setSeq := (s.img.setSeq + 1) % 2 ^ 32, setCurY := s.img.setValid && !s.img.setCurY, setValid := true, writing := none
        setTake := 0 } } : State).incF Fld.imgSetStat_writes) := rfl
  obtain ⟨u, hu, hoff, hcount, honly⟩ := ({ s.start with
      bst := { s.bst with
        soft := (s.bst.soft ++ s.bst.pendingRec.take s.img.setTake).filter x.soft.contains, pendingRec := s.bst.pendingRec.drop s.img.setTake }
      img := { s.img with
        cur := x, setSeq := (s.img.setSeq + 1) % 2 ^ 32, setCurY := s.img.setValid && !s.img.setCurY, setValid := true, writing := none
        setTake := 0 } } : State).incF_tells (x := Fld.imgSetStat_writes) (by decide) (by decide)
  have himg := congrArg State.img hoff
  have hpend := congrArg (fun y : State => y.bst.pendingRec) hoff
  exact ⟨u, by rw [hnext, hgood, hu], himg, hpend, hcount, honly, congrArg (fun y : State => { y with img := u.img, bst := u.bst, regs := u.regs }) hoff⟩

/-- What a failed write leaves of the image block, before it is reported. -/
def settingsDropped (s : State) : State := s.withImg { s.img with writing := none, setTake := 0, force := true }

theorem settingsFail_tells (s : State) : ∃ u, (s.settingsDropped.setF Fld.imgSetStat_fail 1).incF Fld.imgSetStat_fail_cnt = u
    ∧ u.offRegs = s.settingsDropped.offRegs ∧ u.f Fld.imgSetStat_fail = 1
    ∧ u.f Fld.imgSetStat_fail_cnt = sat Fld.imgSetStat_fail_cnt (s.f Fld.imgSetStat_fail_cnt + 1) ∧ s.onlyBlocks u [.img] := by
  refine ⟨_, rfl, (offRegs_incF ..).trans (offRegs_setF ..), ?_, ?_, ?_⟩
  · rw [f_incF_apart (x := Fld.imgSetStat_fail_cnt) (y := Fld.imgSetStat_fail) _ (by decide) rfl (by decide), f_setF_same _ (by decide)]
    rfl
  · rw [f_incF_sat _ (by decide), f_setF_apart (x := Fld.imgSetStat_fail) (y := Fld.imgSetStat_fail_cnt) _ (by decide) rfl (by decide)]
    rfl
  · exact (onlyBlocks.setF (s := s) (t := s.settingsDropped) (onlyBlocks_of_regs rfl _) (x := Fld.imgSetStat_fail) (i := 0) (b := .img)
      (by decide) (List.mem_singleton_self _) 1).incF (x := Fld.imgSetStat_fail_cnt) (i := 0) (b := .img) (by decide) (List.mem_singleton_self _) 1

theorem settingsFail_eq (s : State) :
    s.settingsFail = ((s.settingsDropped.setF Fld.imgSetStat_fail 1).incF Fld.imgSetStat_fail_cnt).raise 0x1A1 := rfl

theorem settings_fail {s : State} {x : Settings} (hw : s.img.writing = some x) (hm : s.mode ≠ .reset) (hmute : s.mute 0x1A1 = true) :
    ∃ t, exec (.settingsWriteDone false) s = .next t ∧ exec .settingsWriteTimeout s = .next t
      ∧ t.img = { s.img with writing := none, setTake := 0, force := true } ∧ t.f Fld.imgSetStat_fail = 1
      ∧ t.f Fld.imgSetStat_fail_cnt = sat Fld.imgSetStat_fail_cnt (s.f Fld.imgSetStat_fail_cnt + 1) ∧ s.counted t 0x1A1
      ∧ s.onlyBlocks t [.img, .flt] ∧ t = { s.start with img := t.img, regs := t.regs, flt := t.flt } := by
  have hw' : s.start.img.writing = some x := hw
  obtain ⟨u, hu, hoff, hfail, hcnt, honly⟩ := s.start.settingsFail_tells
  have hdone : exec (.settingsWriteDone false) s = .next (u.raise 0x1A1) := by
    refine congrArg Host.Outcome.next ?_
    simp only [hw', Bool.false_eq_true, if_false]
    rw [settingsFail_eq, hu]
  have htime : exec .settingsWriteTimeout s = .next (u.raise 0x1A1) := by
    refine congrArg Host.Outcome.next ?_
    rw [hw', ← hu, ← settingsFail_eq]
    exact if_pos rfl
  have hmode : u.mode = s.mode := (congrArg State.mode hoff : u.offRegs.mode = s.start.settingsDropped.offRegs.mode)
  have hflt : u.flt = s.start.flt := (congrArg State.flt hoff : u.offRegs.flt = s.start.settingsDropped.offRegs.flt)
  obtain ⟨hraised, hcounted⟩ := raise_after (s := s) (u := u) (src := 0x1A1) (by rw [hmode]; exact hm) (by decide) hmute hflt honly (by decide) 0
    none none 0
  have hE := hraised.eq
  generalize u.raise 0x1A1 = t at *
  have himg := congrArg State.img hE
  have huimg := congrArg State.img hoff
  refine ⟨t, hdone, htime, himg.trans huimg, ?_, ?_, hcounted, (honly.mono (by decide)).trans (hraised.only.mono (by decide)), ?_⟩
  · exact (hraised.only.f_eq (x := Fld.imgSetStat_fail) (b := .img) (by decide) (by decide)).trans hfail
  · exact (hraised.only.f_eq (x := Fld.imgSetStat_fail_cnt) (b := .img) (by decide) (by decide)).trans hcnt
  · exact (congrArg (fun y : State => { y with img := t.img }) hE).trans
      (congrArg (fun y : State => { y with img := t.img, regs := t.regs, flt := t.flt }) hoff)

end State

/-- Settles O57: the command words by their operation code, and `captureAll_reseeds` for the seeds that a settings write takes. -/
theorem flashAndSettingsCommands : Obligations.FlashAndSettingsCommands :=
  ⟨⟨fun _ _ _ _ had hm =>
      ⟨fun hidle hlt => ⟨fun hg hu => State.flash_starts (op := 1) (.inl rfl) hm hidle had hg (.inr ⟨hlt, hu⟩) ⟨nofun, nofun⟩,
          fun hg hu hguard => State.flash_starts (op := 2) (.inr (.inl rfl)) hm hidle had hg (.inr ⟨hlt, hu⟩) ⟨fun _ => hguard, nofun⟩,
          fun hg hbad => State.program_refused hm hidle had hg hbad,
          fun hg hu hguard => State.flash_starts (op := 3) (.inr (.inr (.inl rfl))) hm hidle had hg (.inr ⟨hlt, hu⟩) ⟨nofun, fun _ => hguard⟩⟩,
        fun hidle hg => State.flash_starts (op := 4) (.inr (.inr (.inr rfl))) hm hidle had hg (.inl rfl) ⟨nofun, nofun⟩,
        fun hbusy hg => State.flash_overruns hbusy hg⟩,
      fun s bs op ad slot hw hcmd => ⟨fun h => State.flashRead_ends hw (h ▸ hcmd),
        fun h => by
          subst h
          by_cases hsame : slice 0 256 bs = s.img.flData
          · rw [if_pos hsame]
            exact State.flash_ends hw hcmd (by decide) (congrArg (fun n => State.setF _ Fld.imgFlStat_result n) (if_neg (by simpa using hsame)))
          · rw [if_neg hsame]
            exact State.flash_ends hw hcmd (by decide) (congrArg (fun n => State.setF _ Fld.imgFlStat_result n) (if_pos (.inr hsame))),
        fun h => by
          subst h
          exact State.flash_ends hw hcmd (by decide) rfl,
        fun h => by
          subst h
          obtain ⟨t, hnext, hout, hres, himg, -, heq⟩ := State.flash_ends (bs := bs) (err := true) (res := 3) (out := []) hw hcmd (by decide) rfl
          refine ⟨t, hnext, hres, ?_⟩
          rw [himg, hout] at heq
          exact heq⟩⟩,
    fun _ _ _ _ => ⟨State.imgBootCfg_sets, State.emptySoftRepairMap_empties, State.emptyFatalRecords_empties, State.forceSettingsWrite_asks⟩,
    fun _ h => State.settingsWrite_starts h, fun _ h => congrArg Host.Outcome.next (if_neg fun h' => absurd (h.symm.trans h') (by decide)),
    fun _ _ hw => ⟨State.settings_good hw, State.settings_fail hw⟩⟩

end Sys2Proof.Machine
end

section
/-! PROOFS. Registers side by side in a page, posted writes to host memory (R247, R181), and the Posted Error Log, its registers, and FENCE
(R151 to R153). -/

namespace Sys2Proof.Machine

/-! ### Registers of one page -/

/-- Two registers whose offsets lie a fixed distance apart at every index. -/
def sideBySide (id id' : RegId) : Bool :=
  id.row.block == id'.row.block && id.row.n2 == id'.row.n2 && id.row.s1 == id'.row.s1 && id.row.s2 == id'.row.s2 && id.row.off != id'.row.off

theorem regOff_sideBySide {id id' : RegId} (h : sideBySide id id' = true) (i : Nat) : regOff id i ≠ regOff id' i := by
  simp only [sideBySide, Bool.and_eq_true, beq_iff_eq, bne_iff_ne] at h
  obtain ⟨⟨⟨⟨hb, hn⟩, h1⟩, h2⟩, hoff⟩ := h
  simp only [regOff, hb, hn, h1, h2]
  omega

/-- A field, and others each of which shares its register or stands beside it. -/
def fieldsApart (x : Fld) (xs : List Fld) : Bool := xs.all fun y => y.id == x.id || sideBySide y.id x.id

theorem mem_page {α : Type} {x : α} {xs : List α} (h : x ∈ xs) (i : Nat) : (x, i) ∈ xs.map fun y => (y, i) := List.mem_map_of_mem h

namespace State

theorem wordsApart_page {x : Fld} {xs : List Fld} (h : fieldsApart x xs = true) (i : Nat) : wordsApart x i (xs.map fun y => (y, i)) := by
  intro p hp he
  obtain ⟨y, hy, rfl⟩ := List.mem_map.mp hp
  have hcases := List.all_eq_true.mp h y hy
  simp only [Bool.or_eq_true, beq_iff_eq] at hcases
  exact ⟨hcases.resolve_right fun hside => regOff_sideBySide hside i he, rfl⟩

theorem f_setF_page (s : State) {x y : Fld} (h : sideBySide y.id x.id = true) (v i : Nat) : (s.setF x v i).f y i = s.f y i :=
  f_setF_ne s (regOff_sideBySide h i) v

theorem f_incF_page (s : State) {x y : Fld} (h : sideBySide y.id x.id = true) (n i : Nat) : (s.incF x i n).f y i = s.f y i :=
  f_setF_page s h _ i

/-! ### Writes to host memory -/

/-- What a posted write to the host memory of one of the instances leaves: the MWR has gone to Thaty egress, by a transfer through the Hub. -/
structure HostWrites (s t : State) (i vc addr : Nat) (bs : List Byte) : Prop where
  sent : s.writes t i vc addr bs
  outp : s.outp ⊆ t.outp
  rx : s.SameRx t
  hub : s.sameHubBut t
  eq : t = { s with links := t.links, outp := t.outp, hub := t.hub }

theorem addXfer_formed (s : State) (inp out cls sub bytes : Nat) (own : XOwn) :
    s.sameHubBut (s.addXfer inp out cls sub bytes own) ∧ s.addXfer inp out cls sub bytes own
      = { s with hub := (s.addXfer inp out cls sub bytes own).hub } := ⟨⟨rfl, List.prefix_append ..⟩, rfl⟩

theorem instWrite_writes (s : State) {x : XSrc} {vc addr : Nat} {bs : List Byte} (frees : List Nat) (hcls : x.cls ≠ 0)
    (hgate : s.canWrite x.inst addr bs.length) :
    ∃ t, s.instWrite x vc addr bs frees = (true, t) ∧ s.HostWrites t x.inst vc addr bs := by
  have hmwr : s.instMwr x.inst vc addr bs
      = (true, .mwr (spanHdr vc false (s.inst x.inst).reqId 0 addr bs.length) (padGranules addr bs), s) := by
    have hgo := gateCheck_ok hgate (some x.inst) none
    unfold instMwr
    dsimp only
    rw [hgo]
  generalize hp : Packet.mwr (spanHdr vc false (s.inst x.inst).reqId 0 addr bs.length) (padGranules addr bs) = p at hmwr
  obtain ⟨u, hform, hhub, hwith⟩ : ∃ u, s.formXfer x.inp (hubLink (s.route (s.instLink x.inst)) x.inp) x.cls x.inst x.sub (packetPayload p) x.own
        (.send (s.instLink x.inst) { pkt := p, frees := frees, cls := x.cls, age := x.age, serial := x.serial, own := x.own }) = (true, u)
      ∧ s.sameHubBut u ∧ u = { s with hub := u.hub } := by
    obtain ⟨hhub, hwith⟩ := s.addXfer_formed x.inp (hubLink (s.route (s.instLink x.inst)) x.inp) (if x.cls = 0 then 1 else x.cls) x.sub
      (packetPayload p) x.own
    exact ⟨_, if_pos (.inl hcls), hhub, hwith⟩
  have hgo : s.instWrite x vc addr bs frees = (true, u.handPkt (s.instLink x.inst)
      { pkt := p, frees := frees, cls := x.cls, age := x.age, serial := x.serial, own := x.own }) := by
    unfold instWrite sendFrom
    rw [hmwr]
    dsimp only
    rw [if_pos rfl, hform]
    rfl
  generalize hk : { pkt := p, frees := frees, cls := x.cls, age := x.age, serial := x.serial, own := x.own : TxPkt } = k at hgo
  have hpkt : k.pkt = p := by rw [← hk]
  have hlinks : u.links = s.links := by rw [hwith]
  have hout : u.outp = s.outp := by rw [hwith]
  have hroute : u.route (s.instLink x.inst) = s.route (s.instLink x.inst) := by simp only [route, link_congr hlinks]
  have hsent := u.outp_handPkt (s.instLink x.inst) k
  have hoff := u.offLinks_handPkt (s.instLink x.inst) k
  rw [hroute, hpkt, hout] at hsent
  have hhubt : (u.handPkt (s.instLink x.inst) k).hub = u.hub :=
    (congrArg State.hub hoff : (u.handPkt (s.instLink x.inst) k).offLinks.hub = u.offLinks.hub)
  refine ⟨_, hgo, ?_, fun o ho => hsent (List.mem_cons_of_mem _ ho), (sameRx_of_links hlinks).trans (u.sameRx_handPkt _ k), ?_, ?_⟩
  · rw [writes, hp]
    exact hsent List.mem_cons_self
  · rw [sameHubBut, hhubt]
    exact hhub
  · exact (congrArg (fun y : State => { y with
      links := (u.handPkt (s.instLink x.inst) k).links, outp := (u.handPkt (s.instLink x.inst) k).outp
      hub := (u.handPkt (s.instLink x.inst) k).hub }) hoff).trans (congrArg (fun y : State => { y with
      links := (u.handPkt (s.instLink x.inst) k).links, outp := (u.handPkt (s.instLink x.inst) k).outp
      hub := (u.handPkt (s.instLink x.inst) k).hub }) hwith)

/-! ### The registers of the log -/

theorem targetAt_pel (id : RegId) (h : id = .pelCfg ∨ id = .pelHead ∨ id = .pelCtl ∨ id = .fenceDb) {i : Nat} (hi : i < 256) :
    targetAt (regOff id i) = .reg id i := by
  have hall : ∀ id ∈ [RegId.pelCfg, .pelHead, .pelCtl, .fenceDb], ∀ i < 256, targetAt (regOff id i) = .reg id i := by decide +kernel
  exact hall id (by simpa using h) i hi

theorem reaches_bi {s : State} {a : Acc} {id : RegId} {i : Nat} (hb : id.row.block = .bi) (h : (s.inst (pageInst id i)).st ≠ .free) :
    s.reaches a id i = true := by
  unfold reaches
  rw [hb]
  simpa using h

theorem pelEnable_enables {s : State} {a : Acc} {i : Fin 256} {v : Word} (hi : (s.inst i.val).st ≠ .free)
    (hg : s.goesWrite a .pelCfg i.val (setBits 31 31 1 v) = true) (hen : s.f Fld.pelCfg_en i.val = 0) (hst : s.f Fld.pelStat_state i.val ≠ 3) :
    ∃ t, exec (.pelEnable a i v) s = .next t ∧ t.f Fld.pelCfg_en i.val = 1 ∧ t.f Fld.pelCfg_size i.val = bits 4 0 v.toNat
      ∧ t.f Fld.pelStat_state i.val = 1 ∧ t.f Fld.pelHead_head i.val = 0 ∧ t.f Fld.pelTail_tail i.val = 0 ∧ t.f Fld.pelTail_phase i.val = 1
      ∧ t.f Fld.pelStat_notices i.val = 0 ∧ s.onlyRegs t [(.pelCfg, i.val), (.pelStat, i.val), (.pelHead, i.val), (.pelTail, i.val)]
      ∧ t = { s.asideFrom t with regs := t.regs } := by
  have hoff : s.fb Fld.pelCfg_en i.val = false := by rw [fb, hen]; rfl
  have hlock : s.lockMask .pelCfg i.val = 0 := if_neg (by rw [hoff]; decide)
  obtain ⟨t, hrow, hw⟩ := writeRow_writes hg (targetAt_pel .pelCfg (.inl rfl) i.isLt) rfl (by decide)
    (reaches_bi rfl (by rw [show pageInst .pelCfg i.val = i.val from Nat.div_one _]; exact hi)) (lockBreaks_free hlock _)
  have hput := s.start.store_unlocked (id := .pelCfg) (i := i.val) rfl hlock (setBits 31 31 1 v)
  have heff : s.start.writeEffect a .pelCfg i.val (setBits 31 31 1 v)
      = (((((s.start.putRw .pelCfg i.val RegId.pelCfg.row.rw (setBits 31 31 1 v)).setF Fld.pelStat_state 1 i.val).setF Fld.pelHead_head 0 i.val).setF
        Fld.pelTail_tail 0 i.val).setF Fld.pelTail_phase 1 i.val).setF Fld.pelStat_notices 0 i.val := by
    have hst' : ¬ s.start.f Fld.pelStat_state i.val = 3 := hst
    have hcond : (bit 31 (setBits 31 31 1 v).toNat = true ∧ (!s.start.fb Fld.pelCfg_en i.val) = true) :=
      ⟨setBits_top v, by rw [show s.start.fb Fld.pelCfg_en i.val = false from hoff]; rfl⟩
    refine Eq.trans (if_pos hcond) ?_
    rw [if_neg hst', hput, hcond.1]
    rfl
  have hcfg (x : Fld) (hid : x.id = .pelCfg) (hx : x.fits) (hm : coversField RegId.pelCfg.row.rw x = true) :
      (s.start.putRw .pelCfg i.val RegId.pelCfg.row.rw (setBits 31 31 1 v)).f x i.val = bits x.hi x.lo (setBits 31 31 1 v).toNat := by
    rw [← hid] at hm ⊢
    exact s.start.f_putRw hx hm i.val _
  have honly := onlyRegs_putRw s.start .pelCfg i.val RegId.pelCfg.row.rw (setBits 31 31 1 v)
    (xs := [(.pelCfg, i.val), (.pelStat, i.val), (.pelHead, i.val), (.pelTail, i.val)]) (List.mem_cons_self ..)
  have hoffr := offRegs_putRw s.start .pelCfg i.val RegId.pelCfg.row.rw (setBits 31 31 1 v)
  rw [heff] at hw
  generalize s.start.putRw .pelCfg i.val RegId.pelCfg.row.rw (setBits 31 31 1 v) = u at hw hcfg honly hoffr
  refine ⟨t, hrow, ?_, ?_, ?_, ?_, ?_, ?_, ?_, ?_, hw.eq_regs ?_⟩
  · rw [f_congr hw.regs]
    simp (disch := decide) only [f_setF_page]
    rw [hcfg _ rfl (by decide) (by decide)]
    exact bits_setBits_same (hi := 31) (lo := 31) (by decide) (by decide) 1 v
  · rw [f_congr hw.regs]
    simp (disch := decide) only [f_setF_page]
    rw [hcfg _ rfl (by decide) (by decide)]
    exact bits_setBits_apart (hi := 31) (lo := 31) (by decide) (by decide) (by decide) 1 v
  · rw [f_congr hw.regs]
    simp (disch := decide) only [f_setF_page, f_setF_apart, f_setF_same]
    rfl
  · rw [f_congr hw.regs]
    simp (disch := decide) only [f_setF_page, f_setF_same]
    rfl
  · rw [f_congr hw.regs]
    simp (disch := decide) only [f_setF_page, f_setF_apart, f_setF_same]
    rfl
  · rw [f_congr hw.regs]
    simp (disch := decide) only [f_setF_page, f_setF_same]
    rfl
  · rw [f_congr hw.regs]
    simp (disch := decide) only [f_setF_same]
    rfl
  · have hmem {id : RegId} (h : id ∈ [RegId.pelCfg, .pelStat, .pelHead, .pelTail]) := mem_page h i.val
    exact (((((honly.setF (hmem (by decide)) _).setF (hmem (by decide)) _).setF (hmem (by decide)) _).setF (hmem (by decide)) _).setF
      (hmem (by decide)) _).congr hw.regs
  · rw [offRegs_setF, offRegs_setF, offRegs_setF, offRegs_setF, offRegs_setF, hoffr]

theorem pelHead_moves {s : State} {a : Acc} {i : Fin 256} {v : Word} (hi : (s.inst i.val).st ≠ .free) (hg : s.goesWrite a .pelHead i.val v = true)
    {x : Fld} {n : Nat} (hx : x.fits) (hn : n < 2 ^ (x.hi + 1 - x.lo))
    (heff : s.start.writePelHead i.val v = s.start.setF x n i.val) :
    ∃ t, exec (.pelHead a i v) s = .next t ∧ t.f x i.val = n ∧ s.onlyFields t [(x, i.val)] ∧ t = { s.asideFrom t with regs := t.regs } := by
  obtain ⟨t, hrow, hw⟩ := writeRow_writes hg (targetAt_pel .pelHead (.inr (.inl rfl)) i.isLt) rfl (by decide)
    (reaches_bi rfl (by rw [show pageInst .pelHead i.val = i.val from Nat.div_one _]; exact hi)) (lockBreaks_free rfl _)
  have heff' : s.start.writeEffect a .pelHead i.val v = s.start.setF x n i.val := heff
  rw [heff'] at hw
  exact ⟨t, hrow, (f_congr hw.regs _ _).trans ((f_setF_same s.start hx n i.val).trans (Nat.mod_eq_of_lt hn)),
    ((onlyFields.refl s _).setF (List.mem_singleton_self _) hx (wordsApart_singleton x i.val) n).congr hw.regs, hw.eq_regs (offRegs_setF ..)⟩

theorem pelResume_resumes {s : State} {a : Acc} {i : Fin 256} {v : Word} (hi : (s.inst i.val).st ≠ .free)
    (hg : s.goesWrite a .pelCtl i.val (setBits 0 0 1 v) = true) (hst : s.f Fld.pelStat_state i.val = 3) (hnone : (s.pel i.val).waiting = []) :
    ∃ t, exec (.pelResume a i v) s = .next t ∧ t.f Fld.pelStat_state i.val = b2n (s.fb Fld.pelCfg_en i.val)
      ∧ s.onlyFields t [(Fld.pelStat_state, i.val)] ∧ t = { s.asideFrom t with regs := t.regs } := by
  obtain ⟨t, hrow, hw⟩ := writeRow_writes hg (targetAt_pel .pelCtl (.inr (.inr (.inl rfl))) i.isLt) rfl (by decide)
    (reaches_bi rfl (by rw [show pageInst .pelCtl i.val = i.val from Nat.div_one _]; exact hi)) (lockBreaks_free rfl _)
  have hbit : bit 0 (setBits 0 0 1 v).toNat = true := by
    rw [bit_eq_bits, bits_setBits_same (by decide) (by decide)]
    rfl
  have hgo : s.start.writeEffect a .pelCtl i.val (setBits 0 0 1 v)
      = (s.start.setF Fld.pelStat_state (b2n (s.fb Fld.pelCfg_en i.val)) i.val).noticeWrite i.val :=
    (if_pos hbit).trans (if_neg (not_not.mpr hst))
  have hnotice (u : State) (hu : u.pels = s.pels) : u.noticeWrite i.val = u := by
    have hpel : (u.pel i.val).waiting = [] := by
      rw [pel, hu]
      exact hnone
    unfold noticeWrite
    rw [hpel]
  rw [hgo, hnotice _ (by rw [setF_pels]; rfl)] at hw
  refine ⟨t, hrow, ?_, ((onlyFields.refl s _).setF (List.mem_singleton_self _) (by decide) (wordsApart_singleton _ _) _).congr hw.regs,
    hw.eq_regs (offRegs_setF ..)⟩
  rw [f_congr hw.regs, f_setF_same _ (by decide)]
  cases s.fb Fld.pelCfg_en i.val <;> rfl

/-! ### FENCE -/

theorem fenceStart_starts {s : State} {i : Nat} (v : Word) (hdone : s.fb Fld.fenceStat_done i = true) :
    s.fenceStart i v = ((s.modPel i fun p => { p with cover := s.fenceCover i, counted := p.counted + p.later, later := 0 }).setF
      Fld.fenceStat_done 0 i).setF Fld.fenceStat_token (v.toNat % 2 ^ 16) i := by
  unfold fenceStart
  simp only [hdone, if_true, List.nil_append]
  have hall : ((s.fenceCover i).filter fun x => !([] : List (Nat × Nat)).contains x) = s.fenceCover i :=
    List.filter_eq_self.mpr fun _ _ => rfl
  rw [hall]

theorem fenceDb_covers {s : State} {a : Acc} {i : Fin 256} {v : Word} (hi : (s.inst i.val).st ≠ .free)
    (hg : s.goesWrite a .fenceDb i.val v = true) (hdone : s.fb Fld.fenceStat_done i.val = true) :
    ∃ t, exec (.fenceDb a i v) s = .next t ∧ t.f Fld.fenceStat_done i.val = 0 ∧ t.f Fld.fenceStat_token i.val = v.toNat % 2 ^ 16
      ∧ t.pel i.val = { s.pel i.val with
          cover := s.fenceCover i.val, counted := (s.pel i.val).counted + (s.pel i.val).later, later := 0 }
      ∧ (∀ j, j ≠ i.val → t.pel j = s.pel j) ∧ s.onlyFields t [(Fld.fenceStat_done, i.val), (Fld.fenceStat_token, i.val)]
      ∧ t = { s.asideFrom t with regs := t.regs, pels := t.pels } := by
  obtain ⟨t, hrow, hw⟩ := writeRow_writes hg (targetAt_pel .fenceDb (.inr (.inr (.inr rfl))) i.isLt) rfl (by decide)
    (reaches_bi rfl (by rw [show pageInst .fenceDb i.val = i.val from Nat.div_one _]; exact hi)) (lockBreaks_free rfl _)
  have heff : s.start.writeEffect a .fenceDb i.val v = _ := fenceStart_starts (s := s.start) v hdone
  rw [heff] at hw
  have hpel := s.start.pel_modPel_same i.val fun p => { p with cover := s.fenceCover i.val, counted := p.counted + p.later, later := 0 }
  have hothers (j : Nat) (h : j ≠ i.val) := s.start.pel_modPel_ne h
    fun p => { p with cover := s.fenceCover i.val, counted := p.counted + p.later, later := 0 }
  have hregs : (s.start.modPel i.val fun p => { p with cover := s.fenceCover i.val, counted := p.counted + p.later, later := 0 }).regs = s.regs := rfl
  have hwith : ∃ m, (s.start.modPel i.val fun p => { p with cover := s.fenceCover i.val, counted := p.counted + p.later, later := 0 })
      = { s.start with pels := m } := ⟨_, rfl⟩
  rw [show s.start.fenceCover i.val = s.fenceCover i.val from rfl] at hw
  generalize (s.start.modPel i.val fun p => { p with cover := s.fenceCover i.val, counted := p.counted + p.later, later := 0 }) = u at *
  obtain ⟨m, rfl⟩ := hwith
  have hoff : t.offAnswer.offRegs = ({ s.start with pels := m } : State).offRegs.offAnswer := by
    have h := congrArg offRegs hw.answer
    rw [h]
    exact congrArg offAnswer ((offRegs_setF ..).trans (offRegs_setF ..))
  have htp : t.pels = m := (congrArg State.pels hoff : t.offAnswer.offRegs.pels = m)
  have hsame (j : Nat) : t.pel j = ({ s.start with pels := m } : State).pel j := pel_congr htp j
  refine ⟨t, hrow, ?_, ?_, (hsame _).trans hpel, fun j hj => (hsame j).trans (hothers j hj), ?_, ?_⟩
  · rw [f_congr hw.regs]
    simp (disch := decide) only [f_setF_apart, f_setF_same]
    rfl
  · rw [f_congr hw.regs, f_setF_same _ (by decide)]
    exact Nat.mod_mod ..
  · have hapart {x : Fld} (h : fieldsApart x [Fld.fenceStat_done, Fld.fenceStat_token] = true) := wordsApart_page h i.val
    exact ((onlyFields.congr (onlyFields.refl s _) hregs).setF (List.mem_cons_self ..) (by decide) (hapart (by decide)) _).setF
      (List.mem_cons_of_mem _ (List.mem_singleton_self _)) (by decide) (hapart (by decide)) _ |>.congr hw.regs
  · rw [← htp] at hoff
    exact congrArg (fun y : State => { y with
      outp := t.outp, links := t.links, slowQ := t.slowQ, regs := t.regs, pels := t.pels }) hoff

theorem fenceDone_runs {s : State} {i : Fin 256} (hworks : s.works = true) (hdone : s.fb Fld.fenceStat_done i.val = false) :
    exec (.fenceDone i) s = .next (if (s.pel i.val).cover.all s.settled then
      (((s.start.setF Fld.fenceStat_done 1 i.val).setF Fld.fenceStat_notices (min (s.pel i.val).counted 16383) i.val).setF Fld.fenceStat_err
        (b2n (min (s.pel i.val).counted 16383 != 0)) i.val).modPel i.val (fun p => { p with cover := [], counted := p.later, later := 0 })
      else s.start) := by
  refine congrArg Host.Outcome.next ?_
  have hw : s.start.works = true := hworks
  have hd : s.start.fb Fld.fenceStat_done i.val = false := hdone
  have hset : s.start.settled = s.settled := rfl
  by_cases hall : (s.pel i.val).cover.all s.settled = true
  · rw [if_pos hall]
    refine if_neg ?_
    rw [hw, hd, show (s.start.pel i.val).cover.all s.start.settled = true from hall]
    decide
  · rw [if_neg hall]
    exact if_pos (.inr (.inr (by rw [show (s.start.pel i.val).cover.all s.start.settled = false from Bool.eq_false_iff.mpr hall]; rfl)))

theorem fenceDone_ends {s : State} {i : Fin 256} (hworks : s.works = true) (hdone : s.fb Fld.fenceStat_done i.val = false)
    (hall : (s.pel i.val).cover.all s.settled = true) :
    ∃ t, exec (.fenceDone i) s = .next t ∧ t.f Fld.fenceStat_done i.val = 1
      ∧ t.f Fld.fenceStat_notices i.val = min (s.pel i.val).counted 16383 ∧ (t.f Fld.fenceStat_err i.val = 1 ↔ (s.pel i.val).counted ≠ 0)
      ∧ t.pel i.val = { s.pel i.val with cover := [], counted := (s.pel i.val).later, later := 0 }
      ∧ (∀ j, j ≠ i.val → t.pel j = s.pel j)
      ∧ s.onlyFields t [(Fld.fenceStat_done, i.val), (Fld.fenceStat_notices, i.val), (Fld.fenceStat_err, i.val)]
      ∧ t = { s.start with regs := t.regs, pels := t.pels } := by
  refine ⟨_, fenceDone_runs hworks hdone, ?_⟩
  rw [if_pos hall]
  obtain ⟨u, hu, hoff, hd, hn, he, honly⟩ : ∃ u, (((s.start.setF Fld.fenceStat_done 1 i.val).setF Fld.fenceStat_notices
      (min (s.pel i.val).counted 16383) i.val).setF Fld.fenceStat_err (b2n (min (s.pel i.val).counted 16383 != 0)) i.val) = u
      ∧ u.offRegs = s.start.offRegs ∧ u.f Fld.fenceStat_done i.val = 1 ∧ u.f Fld.fenceStat_notices i.val = min (s.pel i.val).counted 16383
      ∧ u.f Fld.fenceStat_err i.val = b2n (min (s.pel i.val).counted 16383 != 0)
      ∧ s.onlyFields u [(Fld.fenceStat_done, i.val), (Fld.fenceStat_notices, i.val), (Fld.fenceStat_err, i.val)] := by
    refine ⟨_, rfl, by rw [offRegs_setF, offRegs_setF, offRegs_setF], ?_, ?_, ?_, ?_⟩
    · simp (disch := decide) only [f_setF_apart, f_setF_same]
      rfl
    · simp (disch := decide) only [f_setF_apart, f_setF_same]
      exact Nat.mod_eq_of_lt (show min (s.pel i.val).counted 16383 < 16384 by omega)
    · rw [f_setF_same _ (by decide)]
      cases (min (s.pel i.val).counted 16383 != 0) <;> rfl
    · have hapart {x : Fld} (h : fieldsApart x [Fld.fenceStat_done, Fld.fenceStat_notices, Fld.fenceStat_err] = true) := wordsApart_page h i.val
      have hmem {x : Fld} (h : x ∈ [Fld.fenceStat_done, Fld.fenceStat_notices, Fld.fenceStat_err]) := mem_page h i.val
      exact (((onlyFields.refl s _).setF (hmem (by decide)) (by decide) (hapart (by decide)) _).setF (hmem (by decide)) (by decide)
        (hapart (by decide)) _).setF (hmem (by decide)) (by decide) (hapart (by decide)) _
  rw [hu]
  have hpels : u.pels = s.pels := (congrArg State.pels hoff : u.offRegs.pels = s.start.offRegs.pels)
  refine ⟨hd, hn, ?_, ?_, fun j hj => (u.pel_modPel_ne hj _).trans (pel_congr hpels j), honly, ?_⟩
  · have herr : (u.modPel i.val fun p => { p with cover := [], counted := p.later, later := 0 }).f Fld.fenceStat_err i.val
        = b2n (min (s.pel i.val).counted 16383 != 0) := he
    rw [herr]
    by_cases hz : (s.pel i.val).counted = 0
    · simp [hz, b2n]
    · have : min (s.pel i.val).counted 16383 ≠ 0 := by omega
      simp [hz, b2n, this]
  · rw [pel_modPel_same, pel_congr hpels]
  · exact congrArg (fun y : State => { y with
      regs := u.regs, pels := (u.modPel i.val fun p => { p with cover := [], counted := p.later, later := 0 }).pels }) hoff

/-! ### Notices -/

theorem length_noticeRec (je : Nat) (e : JEntry) (o : Op) (phase : Nat) : (noticeRec je e o phase).length = 64 := by
  simp [noticeRec, length_natBytes, slice_length]

theorem regOff_evVec_ne (k i : Nat) {id : RegId} (h : id = .pelTail ∨ id = .pelStat) : regOff .evVec k ≠ regOff id i := by
  rcases h with rfl | rfl <;> simp [regOff, RegId.row] <;> omega

/-- The tail of a log moved on, and the record counted. -/
def tailMoved (s : State) (i : Nat) : State :=
  ((s.setF Fld.pelTail_tail ((s.f Fld.pelTail_tail i + 1) % 2 ^ s.f Fld.pelCfg_size i) i).setF Fld.pelTail_phase
    (if s.f Fld.pelTail_tail i + 1 = 2 ^ s.f Fld.pelCfg_size i then 1 - s.f Fld.pelTail_phase i else s.f Fld.pelTail_phase i) i).incF
    Fld.pelStat_notices i

/-- A notice that is written: the state after the record has gone out. -/
def noticed (s : State) (i je : Nat) : State :=
  ((s.tailMoved i).countNotice i je (s.entry je).serial).modOp je fun o => { o with noticed := true }

theorem offRegs_tailMoved (s : State) (i : Nat) : (s.tailMoved i).offRegs = s.offRegs := by
  rw [tailMoved, offRegs_incF, offRegs_setF, offRegs_setF]

theorem tailMoved_evVec (s : State) (i k : Nat) : (s.tailMoved i).reg .evVec k = s.reg .evVec k := by
  rw [tailMoved, reg_incF_ne _ (regOff_evVec_ne k i (.inr rfl)), reg_setF_ne _ (regOff_evVec_ne k i (.inl rfl)),
    reg_setF_ne _ (regOff_evVec_ne k i (.inl rfl))]

/-- The fields that a record that is written moves on. -/
abbrev tailFields : List Fld := [Fld.pelTail_tail, Fld.pelTail_phase, Fld.pelStat_notices]

theorem tailMoved_moves (s : State) (i : Nat) :
    (s.tailMoved i).f Fld.pelTail_tail i = (s.f Fld.pelTail_tail i + 1) % 2 ^ s.f Fld.pelCfg_size i % 2 ^ 16
    ∧ (s.tailMoved i).f Fld.pelTail_phase i
      = (if s.f Fld.pelTail_tail i + 1 = 2 ^ s.f Fld.pelCfg_size i then 1 - s.f Fld.pelTail_phase i else s.f Fld.pelTail_phase i)
    ∧ (s.tailMoved i).f Fld.pelStat_notices i = sat Fld.pelStat_notices (s.f Fld.pelStat_notices i + 1)
    ∧ s.onlyFields (s.tailMoved i) (tailFields.map fun y => (y, i)) := by
  have hphase : s.f Fld.pelTail_phase i < 2 := f_lt s Fld.pelTail_phase i
  unfold tailMoved
  generalize hn : (s.f Fld.pelTail_tail i + 1) % 2 ^ s.f Fld.pelCfg_size i = n
  generalize hp : (if s.f Fld.pelTail_tail i + 1 = 2 ^ s.f Fld.pelCfg_size i then 1 - s.f Fld.pelTail_phase i else s.f Fld.pelTail_phase i) = p
  have hp2 : p < 2 := by
    rw [← hp]
    split <;> omega
  refine ⟨?_, ?_, ?_, ?_⟩
  · rw [f_incF_page _ (by decide)]
    simp (disch := decide) only [f_setF_apart, f_setF_same]
    rfl
  · rw [f_incF_page _ (by decide), f_setF_same _ (by decide)]
    exact Nat.mod_eq_of_lt hp2
  · rw [f_incF_sat _ (by decide)]
    simp (disch := decide) only [f_setF_page]
  · have hapart {x : Fld} (h : fieldsApart x tailFields = true) := wordsApart_page h i
    have hmem {x : Fld} (h : x ∈ tailFields) := mem_page h i
    exact (((onlyFields.refl s _).setF (hmem (by decide)) (by decide) (hapart (by decide)) _).setF (hmem (by decide)) (by decide)
      (hapart (by decide)) _).incF (hmem (by decide)) (by decide) (hapart (by decide)) _

theorem countNotice_regs (s : State) (i je serial : Nat) :
    ((s.countNotice i je serial).modOp je fun o => { o with noticed := true }).regs = s.regs := rfl

theorem noticed_evOn (s : State) (i je k c : Nat) : (s.noticed i je).evOn k c = s.evOn k c := by
  have hreg := reg_congr (countNotice_regs (s.tailMoved i) i je (s.entry je).serial) .evVec (evVecIdx k c)
  have hf : (s.noticed i je).f Fld.evVec_en (evVecIdx k c) = s.f Fld.evVec_en (evVecIdx k c) :=
    congrArg (fun w : Word => bits Fld.evVec_en.hi Fld.evVec_en.lo w.toNat) (hreg.trans (s.tailMoved_evVec i _))
  simp only [evOn, fb, hf]

theorem noticeWrite_runs {s u : State} {i je : Nat} {js : List Nat} {o : Op} {a : Nat} (hw : (s.pel i).waiting = je :: js)
    (hgo : s.fb Fld.pelCfg_en i = true ∧ s.f Fld.pelStat_state i ≠ 3 ∧ s.pelFull i = false ∧ (s.inst i).st ≠ .squash) (ho : s.op? je = some o)
    (ha : a = s.ringBase Fld.pelBaseLo_base_lo Fld.pelBaseHi_base_hi i + 64 * s.f Fld.pelTail_tail i)
    (hwrite : s.instWrite { s.srcOp hubJournal 0 je with cls := s.f Fld.evVec_vc (evVecIdx i 4) } (s.f Fld.evVec_vc (evVecIdx i 4)) a
      (noticeRec je (s.entry je) o (s.f Fld.pelTail_phase i)) [je] = (true, u)) (hregs : u.regs = s.regs) (hev : s.evOn i 4 = false)
    (he : u.entry je = s.entry je) : s.noticeWrite i = u.noticed i je := by
  obtain ⟨hen, hst, hfull, hsq⟩ := hgo
  have hgo : ¬ ((!s.fb Fld.pelCfg_en i) = true ∨ s.f Fld.pelStat_state i = 3 ∨ s.pelFull i = true ∨ (s.inst i).st = .squash) := by
    simp [hen, hst, hfull, hsq]
  have hevu : (u.noticed i je).evOn i 4 = false := by
    rw [noticed_evOn, evOn, fb, f_congr hregs]
    exact hev
  unfold noticeWrite
  simp only [hw]
  rw [if_neg hgo]
  simp only [ho]
  rw [← ha, hwrite]
  have hrefused : ¬ (!true) = true := by decide
  dsimp only
  rw [if_neg hrefused]
  have hnoticed : (((((u.setF Fld.pelTail_tail ((s.f Fld.pelTail_tail i + 1) % 2 ^ s.f Fld.pelCfg_size i) i).setF Fld.pelTail_phase
      (if s.f Fld.pelTail_tail i + 1 = 2 ^ s.f Fld.pelCfg_size i then 1 - s.f Fld.pelTail_phase i else s.f Fld.pelTail_phase i) i).incF
      Fld.pelStat_notices i).countNotice i je (s.entry je).serial).modOp je fun o => { o with noticed := true }) = u.noticed i je := by
    rw [noticed, tailMoved, he, f_congr hregs, f_congr hregs, f_congr hregs]
  rw [hnoticed]
  exact if_neg (by rw [hevu]; decide)

/-- The state but for what counting a notice changes. -/
def offNotice (s : State) : State := { s with pels := [], ops := [] }

theorem countNotice_told (s : State) (i je serial : Nat) :
    ∃ t, ((s.countNotice i je serial).modOp je fun o => { o with noticed := true }) = t ∧ t.regs = s.regs
    ∧ (t.pel i).waiting = (s.pel i).waiting.erase je ∧ (∀ j, j ≠ i → t.pel j = s.pel j)
    ∧ t.op? je = (s.op? je).map (fun o => { o with noticed := true }) ∧ (∀ j, j ≠ je → t.op? j = s.op? j) ∧ t.offNotice = s.offNotice := by
  have hpels : ((s.countNotice i je serial).modOp je fun o => { o with noticed := true }).pels = (s.countNotice i je serial).pels := rfl
  refine ⟨_, rfl, rfl, ?_, fun j hj => ?_, op?_modOp_same (s.countNotice i je serial) je _, fun j hj => op?_modOp_ne (s.countNotice i je serial) hj _, rfl⟩
  · rw [pel_congr hpels, countNotice, pel_modPel_same]
    dsimp only
    split <;> rfl
  · rw [pel_congr hpels, countNotice, pel_modPel_ne _ hj]

theorem noticeWrite_writes {s : State} {i : Fin 256} {je : Nat} {js : List Nat} {o : Op} {tail : Nat} (hworks : s.works = true)
    (hw : (s.pel i.val).waiting = je :: js) (hen : s.fb Fld.pelCfg_en i.val = true) (hst : s.f Fld.pelStat_state i.val ≠ 3)
    (hfull : s.pelFull i.val = false) (hsq : (s.inst i.val).st ≠ .squash) (ho : s.op? je = some o) (htail : tail = s.f Fld.pelTail_tail i.val)
    (hev : s.evOn i.val 4 = false) (hinst : (s.entry je).inst = i.val) (hvc : s.f Fld.evVec_vc (evVecIdx i.val 4) ≠ 0)
    (hgate : s.canWrite i.val (s.ringBase Fld.pelBaseLo_base_lo Fld.pelBaseHi_base_hi i.val + 64 * tail) 64) :
    ∃ t, exec (.noticeWrite i) s = .next t
      ∧ s.writes t i.val (s.f Fld.evVec_vc (evVecIdx i.val 4)) (s.ringBase Fld.pelBaseLo_base_lo Fld.pelBaseHi_base_hi i.val + 64 * tail)
          (State.noticeRec je (s.entry je) o (s.f Fld.pelTail_phase i.val))
      ∧ t.f Fld.pelTail_tail i.val = (tail + 1) % 2 ^ s.f Fld.pelCfg_size i.val % 2 ^ 16
      ∧ t.f Fld.pelTail_phase i.val = (if tail + 1 = 2 ^ s.f Fld.pelCfg_size i.val then 1 - s.f Fld.pelTail_phase i.val else s.f Fld.pelTail_phase i.val)
      ∧ t.f Fld.pelStat_notices i.val = sat Fld.pelStat_notices (s.f Fld.pelStat_notices i.val + 1)
      ∧ (t.pel i.val).waiting = js ∧ (∀ j, j ≠ i.val → t.pel j = s.pel j) ∧ t.op? je = some { o with noticed := true }
      ∧ (∀ j, j ≠ je → t.op? j = s.op? j) ∧ s.onlyFields t [(Fld.pelTail_tail, i.val), (Fld.pelTail_phase, i.val), (Fld.pelStat_notices, i.val)]
      ∧ t = { s.start with regs := t.regs, pels := t.pels, ops := t.ops, links := t.links, outp := t.outp, hub := t.hub } := by
  subst htail
  have hinst' : (s.start.entry je).inst = i.val := hinst
  have hx : ({ s.start.srcOp hubJournal 0 je with cls := s.f Fld.evVec_vc (evVecIdx i.val 4) } : XSrc).inst = i.val := hinst'
  have hgate' : s.start.canWrite ({ s.start.srcOp hubJournal 0 je with cls := s.f Fld.evVec_vc (evVecIdx i.val 4) } : XSrc).inst
      (s.ringBase Fld.pelBaseLo_base_lo Fld.pelBaseHi_base_hi i.val + 64 * s.f Fld.pelTail_tail i.val)
      (noticeRec je (s.entry je) o (s.f Fld.pelTail_phase i.val)).length := by
    rw [hx, length_noticeRec]
    exact (judge_congr (s := s) (t := s.start) rfl rfl rfl ..).trans hgate
  obtain ⟨u, hwrite, hwrites⟩ := s.start.instWrite_writes (x := { s.start.srcOp hubJournal 0 je with cls := s.f Fld.evVec_vc (evVecIdx i.val 4) })
    (vc := s.f Fld.evVec_vc (evVecIdx i.val 4)) (addr := s.ringBase Fld.pelBaseLo_base_lo Fld.pelBaseHi_base_hi i.val + 64 * s.f Fld.pelTail_tail i.val)
    (bs := noticeRec je (s.entry je) o (s.f Fld.pelTail_phase i.val)) [je] hvc hgate'
  rw [hx] at hwrites
  have hregs : u.regs = s.regs := by rw [hwrites.eq]; rfl
  have hjnl : u.jnl = s.jnl := by rw [hwrites.eq]; rfl
  have hpels : u.pels = s.pels := by rw [hwrites.eq]; rfl
  have hops : u.ops = s.ops := by rw [hwrites.eq]; rfl
  have hrun : exec (.noticeWrite i) s = .next (u.noticed i.val je) := by
    refine congrArg Host.Outcome.next ((if_pos (show s.start.works = true from hworks)).trans ?_)
    exact noticeWrite_runs (s := s.start) hw ⟨hen, hst, hfull, hsq⟩ ho rfl hwrite hregs hev (entry_congr (congrArg Jnl.entries hjnl) je)
  obtain ⟨w, hwt, hoff, htl, hph, hcnt, honly⟩ : ∃ w, u.tailMoved i.val = w ∧ w.offRegs = u.offRegs
      ∧ w.f Fld.pelTail_tail i.val = (u.f Fld.pelTail_tail i.val + 1) % 2 ^ u.f Fld.pelCfg_size i.val % 2 ^ 16
      ∧ w.f Fld.pelTail_phase i.val = (if u.f Fld.pelTail_tail i.val + 1 = 2 ^ u.f Fld.pelCfg_size i.val then 1 - u.f Fld.pelTail_phase i.val
          else u.f Fld.pelTail_phase i.val)
      ∧ w.f Fld.pelStat_notices i.val = sat Fld.pelStat_notices (u.f Fld.pelStat_notices i.val + 1)
      ∧ u.onlyFields w (tailFields.map fun y => (y, i.val)) :=
    ⟨_, rfl, u.offRegs_tailMoved i.val, u.tailMoved_moves i.val⟩
  obtain ⟨t, ht, hregs', hwait, hothers, hop, hops', hsame⟩ := countNotice_told w i.val je (u.entry je).serial
  refine ⟨t, by rw [hrun, noticed, hwt, ht], ?_⟩
  have hpw : w.pels = s.pels := (congrArg State.pels hoff : w.offRegs.pels = u.offRegs.pels).trans hpels
  have how : w.ops = s.ops := (congrArg State.ops hoff : w.offRegs.ops = u.offRegs.ops).trans hops
  have hout : w.outp = u.outp := (congrArg State.outp hoff : w.offRegs.outp = u.offRegs.outp)
  refine ⟨?_, ?_, ?_, ?_, ?_, fun j hj => (hothers j hj).trans (pel_congr hpw j), ?_, fun j hj => (hops' j hj).trans (op?_congr how j), ?_, ?_⟩
  · have hto : t.outp = w.outp := (congrArg State.outp hsame : t.offNotice.outp = w.offNotice.outp)
    rw [writes, hto, hout]
    exact hwrites.sent
  · rw [f_congr hregs', htl, f_congr hregs, f_congr hregs]
  · rw [f_congr hregs', hph, f_congr hregs, f_congr hregs, f_congr hregs]
  · rw [f_congr hregs', hcnt, f_congr hregs]
  · rw [hwait, pel_congr hpw, hw]
    exact List.erase_cons_head ..
  · rw [hop, op?_congr how, ho]
    rfl
  · exact ((onlyFields_of_regs hregs _).trans honly).congr hregs'
  · have hkeep {x y : State} (h : x = y) := congrArg (fun z : State => { z with
      regs := t.regs, pels := t.pels, ops := t.ops, links := t.links, outp := t.outp, hub := t.hub }) h
    have hwrote := hkeep hwrites.eq
    exact (hkeep hsame).trans ((hkeep hoff).trans hwrote)

end State

/-- Settles O42: the log's registers by `writeRow_writes`, and a notice by what its write to host memory leaves. -/
theorem noticesAndFences : Obligations.NoticesAndFences :=
  ⟨fun s a i v hi => ⟨State.pelEnable_enables hi,
      fun hg => ⟨fun hok => State.pelHead_moves hi hg (by decide) (Nat.mod_lt _ (by decide)) (if_pos hok),
        fun hbad => State.pelHead_moves hi hg (by decide) (by decide) (if_neg fun h => absurd (hbad.symm.trans h) (by decide))⟩,
      State.pelResume_resumes hi, State.fenceDb_covers hi⟩,
    fun _ _ _ _ _ _ hworks hw hen hst hfull hsq ho htail hev hinst hvc hgate =>
      State.noticeWrite_writes hworks hw hen hst hfull hsq ho htail hev hinst hvc hgate,
    fun _ _ hworks hdone => ⟨State.fenceDone_ends hworks hdone,
      fun hnot => (State.fenceDone_runs hworks hdone).trans (congrArg Host.Outcome.next (if_neg (by rw [hnot]; decide)))⟩⟩

end Sys2Proof.Machine
end

section
/-! PROOFS. Where the registers of the queue pairs stand (Table 2.4). -/

namespace Sys2Proof.Machine

namespace State

/-! ### The registers of a queue pair -/

theorem targetAt_qp (id : RegId) (h : id = .sqDb ∨ id = .qCfg ∨ id = .qCtl ∨ id = .cqDb) {k : Nat} (hk : k < 1024) :
    targetAt (regOff id k) = .reg id k := by
  have hall : ∀ id ∈ [RegId.sqDb, .qCfg, .qCtl, .cqDb], ∀ k < 1024, targetAt (regOff id k) = .reg id k := by decide +kernel
  exact hall id (by simpa using h) k hk

end State

end Sys2Proof.Machine
end

section
/-! PROOFS. The registers of a queue pair (R129, R130, R142, R143), and the coalescing timer of its completion queue. -/

namespace Sys2Proof.Machine

namespace State

/-- The state with its queue pairs replaced. -/
def withQps (s : State) (m : FMap Qp) : State := { s with qps := m }

/-! ### The registers of a queue pair -/

/-- The write of a register of queue pair `q` of an owner that is not free. -/
theorem qpRow_writes {s : State} {a : Acc} {id : RegId} {i : Fin 256} {q : Fin 4} {v : Word} (hi : (s.inst i.val).st ≠ .free)
    (h : id = .sqDb ∨ id = .qCfg ∨ id = .qCtl ∨ id = .cqDb) (hg : s.goesWrite a id (4 * i.val + q.val) v = true)
    (hl : s.lockBreaks id (4 * i.val + q.val) v = false) :
    ∃ t, writeRow a id (4 * i.val + q.val) v s = .next t
      ∧ s.Writes a id (4 * i.val + q.val) v (s.start.writeEffect a id (4 * i.val + q.val) v) t := by
  have hpage : id.row.block = .bi ∧ id.row.keyed = false ∧ id ≠ .updStrobe ∧ pageInst id (4 * i.val + q.val) = i.val := by
    have hdiv : (4 * i.val + q.val) / 4 = i.val := by omega
    rcases h with rfl | rfl | rfl | rfl <;> exact ⟨rfl, rfl, by decide, hdiv⟩
  obtain ⟨hb, hkey, hne, hinst⟩ := hpage
  exact writeRow_writes hg (targetAt_qp id h (by omega)) hkey hne (reaches_bi hb (by rw [hinst]; exact hi)) hl

theorem sqDb_row {s : State} {a : Acc} {i : Fin 256} {q : Fin 4} {v : Word} (hi : (s.inst i.val).st ≠ .free)
    (hg : s.goesWrite a .sqDb (4 * i.val + q.val) v = true) :
    ∃ t, exec (.sqDb a i q v) s = .next t ∧ s.Writes a .sqDb (4 * i.val + q.val) v (s.start.writeSqDb (4 * i.val + q.val) v) t :=
  qpRow_writes hi (.inl rfl) hg (lockBreaks_free rfl _)

theorem sqDb_off {s : State} {a : Acc} {i : Fin 256} {q : Fin 4} {v : Word} (hi : (s.inst i.val).st ≠ .free)
    (hg : s.goesWrite a .sqDb (4 * i.val + q.val) v = true) (hst : s.f Fld.qStat_state (4 * i.val + q.val) = 0) :
    ∃ t, exec (.sqDb a i q v) s = .next t ∧ s.wrote t a .sqDb (4 * i.val + q.val) v ∧ t = s.asideFrom t := by
  obtain ⟨t, hrow, hw⟩ := sqDb_row hi hg
  have heff : s.start.writeSqDb (4 * i.val + q.val) v = s.start := if_pos hst
  rw [heff] at hw
  exact ⟨t, hrow, hw.wrote rfl, hw.eq⟩

theorem sqDb_rings {s : State} {a : Acc} {i : Fin 256} {q : Fin 4} {v : Word} (hi : (s.inst i.val).st ≠ .free)
    (hg : s.goesWrite a .sqDb (4 * i.val + q.val) v = true) (hst : s.f Fld.qStat_state (4 * i.val + q.val) ≠ 0)
    (ht : v.toNat % 2 ^ 16 < 2 ^ s.f Fld.qCfg_sq_size (4 * i.val + q.val)) :
    ∃ t, exec (.sqDb a i q v) s = .next t ∧ t.f Fld.sqDb_tail (4 * i.val + q.val) = v.toNat % 2 ^ 16
      ∧ s.onlyFields t [(Fld.sqDb_tail, 4 * i.val + q.val)] ∧ s.sameQpsBut t (4 * i.val + q.val)
      ∧ s.wrote t a .sqDb (4 * i.val + q.val) v ∧ t = { s.asideFrom t with regs := t.regs, qps := t.qps, insts := t.insts } := by
  obtain ⟨t, hrow, hw⟩ := sqDb_row hi hg
  generalize 4 * i.val + q.val = k at *
  obtain ⟨u, hu, hoff, hf, honly⟩ : ∃ u, s.start.setF Fld.sqDb_tail (v.toNat % 2 ^ 16) k = u ∧ u.offRegs = s.start.offRegs
      ∧ u.f Fld.sqDb_tail k = v.toNat % 2 ^ 16 ∧ s.onlyFields u [(Fld.sqDb_tail, k)] :=
    ⟨_, rfl, offRegs_setF .., (f_setF_same s.start (by decide) _ k).trans (Nat.mod_mod ..),
      (onlyFields.refl s _).setF (List.mem_singleton_self _) (by decide) (wordsApart_singleton _ _) _⟩
  obtain ⟨g, heff⟩ : ∃ g, s.start.writeSqDb k v = (u.modQp k g).raisePass s.start (k / 4) := by
    rw [← hu]
    exact ⟨_, (if_neg hst).trans (if_neg (Nat.not_le.mpr ht))⟩
  have hins := raisePass_insts (u.modQp k g) s.start (k / 4)
  rw [heff] at hw
  have hqps : u.qps = s.qps := (congrArg State.qps hoff : u.offRegs.qps = s.start.offRegs.qps)
  have hregs : ((u.modQp k g).raisePass s.start (k / 4)).regs = u.regs := by rw [hins]; rfl
  have hslow : ((u.modQp k g).raisePass s.start (k / 4)).slowQ = s.slowQ := by
    rw [hins]
    exact (congrArg State.slowQ hoff : u.offRegs.slowQ = s.start.offRegs.slowQ)
  have hkeep {x y : State} (h : x = y) := congrArg (fun z : State => { z with
    outp := t.outp, links := t.links, slowQ := t.slowQ, regs := t.regs, qps := t.qps, insts := t.insts }) h
  refine ⟨t, hrow, ?_, honly.congr (hw.regs.trans hregs), fun j hj => ?_, hw.wrote hslow, ?_⟩
  · exact (f_congr (hw.regs.trans hregs) _ _).trans hf
  · have htq : t.qps = ((u.modQp k g).raisePass s.start (k / 4)).qps :=
      (congrArg State.qps hw.answer : t.offAnswer.qps = State.qps (offAnswer _))
    rw [qp_congr (s := u.modQp k g) (htq.trans (by rw [hins])), sameQpsBut_modQp u k g j hj, qp_congr hqps]
  · have hlast := hkeep hins
    have hfirst := hkeep hoff
    exact (hkeep hw.answer).trans (hlast.trans hfirst)

theorem qpField_tells {s : State} {a : Acc} {id : RegId} {k : Nat} {v : Word} {x : Fld} {n : Nat} {t : State} (hx : x.fits)
    (hn : n < 2 ^ (x.hi + 1 - x.lo)) (hw : s.Writes a id k v (s.start.setF x n k) t) :
    t.f x k = n ∧ s.onlyFields t [(x, k)] ∧ s.wrote t a id k v ∧ t = { s.asideFrom t with regs := t.regs } :=
  ⟨(f_congr hw.regs _ _).trans ((f_setF_same s.start hx n k).trans (Nat.mod_eq_of_lt hn)),
    ((onlyFields.refl s _).setF (List.mem_singleton_self _) hx (wordsApart_singleton _ _) n).congr hw.regs,
    hw.wrote (by rw [setF_slowQ]; rfl), hw.eq_regs (offRegs_setF ..)⟩

theorem sqDb_bad {s : State} {a : Acc} {i : Fin 256} {q : Fin 4} {v : Word} (hi : (s.inst i.val).st ≠ .free)
    (hg : s.goesWrite a .sqDb (4 * i.val + q.val) v = true) (hst : s.f Fld.qStat_state (4 * i.val + q.val) ≠ 0)
    (ht : 2 ^ s.f Fld.qCfg_sq_size (4 * i.val + q.val) ≤ v.toNat % 2 ^ 16) :
    ∃ t, exec (.sqDb a i q v) s = .next t ∧ t.f Fld.qStat_bad_db (4 * i.val + q.val) = 1
      ∧ s.onlyFields t [(Fld.qStat_bad_db, 4 * i.val + q.val)] ∧ t = { s.asideFrom t with regs := t.regs } := by
  obtain ⟨t, hrow, hw⟩ := sqDb_row hi hg
  have heff : s.start.writeSqDb (4 * i.val + q.val) v = s.start.setF Fld.qStat_bad_db 1 (4 * i.val + q.val) :=
    (if_neg hst).trans (if_pos ht)
  rw [heff] at hw
  obtain ⟨hf, honly, -, heq⟩ := qpField_tells (by decide) (by decide) hw
  exact ⟨t, hrow, hf, honly, heq⟩

/-! ### CQ_DB -/

theorem cqDb_row {s : State} {a : Acc} {i : Fin 256} {q : Fin 4} {v : Word} (hi : (s.inst i.val).st ≠ .free)
    (hg : s.goesWrite a .cqDb (4 * i.val + q.val) v = true) :
    ∃ t, exec (.cqDb a i q v) s = .next t ∧ s.Writes a .cqDb (4 * i.val + q.val) v (s.start.writeCqDb (4 * i.val + q.val) v) t :=
  qpRow_writes hi (.inr (.inr (.inr rfl))) hg (lockBreaks_free rfl _)

/-- A write of CQ_DB that does not arm. -/
theorem writeCqDb_plain {s : State} {k : Nat} {v : Word} (harm : bit 31 v.toNat = false) :
    s.writeCqDb k v = if headOk (s.f Fld.qCfg_cq_size k) (s.f Fld.cqDb_head k) (s.f Fld.cqTail_tail k) (v.toNat % 2 ^ 16) then
      s.setF Fld.cqDb_head (v.toNat % 2 ^ 16) k else s.setF Fld.qStat_bad_head 1 k :=
  if_pos (.inl (by rw [harm]; rfl))

theorem cqDb_head {s : State} {a : Acc} {i : Fin 256} {q : Fin 4} {v : Word} {k : Nat} (hk : k = 4 * i.val + q.val) (hi : (s.inst i.val).st ≠ .free)
    (hg : s.goesWrite a .cqDb k v = true) (harm : bit 31 v.toNat = false)
    (hok : headOk (s.f Fld.qCfg_cq_size k) (s.f Fld.cqDb_head k) (s.f Fld.cqTail_tail k) (v.toNat % 2 ^ 16) = true) :
    ∃ t, exec (.cqDb a i q v) s = .next t ∧ t.f Fld.cqDb_head k = v.toNat % 2 ^ 16 ∧ s.onlyFields t [(Fld.cqDb_head, k)]
      ∧ s.wrote t a .cqDb k v ∧ t = { s.asideFrom t with regs := t.regs } := by
  subst hk
  obtain ⟨t, hrow, hw⟩ := cqDb_row hi hg
  have heff := (writeCqDb_plain (s := s.start) (k := 4 * i.val + q.val) harm).trans (if_pos hok)
  rw [heff] at hw
  exact ⟨t, hrow, qpField_tells (by decide) (Nat.mod_lt _ (by decide)) hw⟩

theorem cqDb_bad {s : State} {a : Acc} {i : Fin 256} {q : Fin 4} {v : Word} {k : Nat} (hk : k = 4 * i.val + q.val) (hi : (s.inst i.val).st ≠ .free)
    (hg : s.goesWrite a .cqDb k v = true) (harm : bit 31 v.toNat = false)
    (hbad : headOk (s.f Fld.qCfg_cq_size k) (s.f Fld.cqDb_head k) (s.f Fld.cqTail_tail k) (v.toNat % 2 ^ 16) = false) :
    ∃ t, exec (.cqDb a i q v) s = .next t ∧ t.f Fld.qStat_bad_head k = 1 ∧ s.onlyFields t [(Fld.qStat_bad_head, k)]
      ∧ t = { s.asideFrom t with regs := t.regs } := by
  subst hk
  obtain ⟨t, hrow, hw⟩ := cqDb_row hi hg
  have heff := (writeCqDb_plain (s := s.start) (k := 4 * i.val + q.val) harm).trans (if_neg fun h => absurd (hbad.symm.trans h) (by decide))
  rw [heff] at hw
  obtain ⟨hf, honly, -, heq⟩ := qpField_tells (by decide) (by decide) hw
  exact ⟨t, hrow, hf, honly, heq⟩

/-- The state once CQ_DB has moved the head, and whatever else is as before. -/
theorem cqDb_moves (s : State) (k : Nat) (v : Word) :
    ∃ u, s.setF Fld.cqDb_head (v.toNat % 2 ^ 16) k = u ∧ u.offRegs = s.offRegs ∧ u.f Fld.cqDb_head k = v.toNat % 2 ^ 16
      ∧ (∀ x j, regOff x.id j ≠ regOff .cqDb k → u.f x j = s.f x j) ∧ s.onlyFields u [(Fld.cqDb_head, k)] :=
  ⟨_, rfl, offRegs_setF .., (f_setF_same s (by decide) _ k).trans (Nat.mod_mod ..), fun _ _ h => f_setF_ne s h _,
    (onlyFields.refl s _).setF (List.mem_singleton_self _) (by decide) (wordsApart_singleton _ _) _⟩

/-- A write of CQ_DB that arms, where the queue pair runs. -/
theorem writeCqDb_arms {s u : State} {k : Nat} {v : Word} (harm : bit 31 v.toNat = true) (hst : s.f Fld.qStat_state k = 1)
    (hok : headOk (s.f Fld.qCfg_cq_size k) (s.f Fld.cqDb_head k) (s.f Fld.cqTail_tail k) (v.toNat % 2 ^ 16) = true)
    (hu : s.setF Fld.cqDb_head (v.toNat % 2 ^ 16) k = u) (hf : u.f Fld.cqDb_head k = v.toNat % 2 ^ 16)
    (hne : ∀ x j, regOff x.id j ≠ regOff .cqDb k → u.f x j = s.f x j) :
    s.writeCqDb k v = if v.toNat % 2 ^ 16 = s.f Fld.cqTail_tail k then u.modQp k fun q => { q with armed := true }
      else (u.modQp k fun q => { q with armed := true }).cqEventNow k := by
  have hstu : u.f Fld.qStat_state k = 1 := (hne _ _ (regOff_sideBySide (id := .qStat) (by decide) k)).trans hst
  have htail : u.f Fld.cqTail_tail k = s.f Fld.cqTail_tail k := hne _ _ (regOff_sideBySide (id := .cqTail) (by decide) k)
  have hgo : ¬ ((!bit 31 v.toNat) = true ∨ u.f Fld.qStat_state k = 0) := by
    rw [harm, hstu]
    decide
  have hfirst : (if headOk (s.f Fld.qCfg_cq_size k) (s.f Fld.cqDb_head k) (s.f Fld.cqTail_tail k) (v.toNat % 2 ^ 16)
      then s.setF Fld.cqDb_head (v.toNat % 2 ^ 16) k else s.setF Fld.qStat_bad_head 1 k) = u := (if_pos hok).trans hu
  unfold writeCqDb
  dsimp only
  rw [hfirst, if_neg hgo]
  have hhead : (u.modQp k fun q => { q with armed := true }).f Fld.cqDb_head k = v.toNat % 2 ^ 16 := hf
  have hst' : (u.modQp k fun q => { q with armed := true }).f Fld.qStat_state k = 1 := hstu
  have htail' : (u.modQp k fun q => { q with armed := true }).f Fld.cqTail_tail k = s.f Fld.cqTail_tail k := htail
  rw [hhead, hst', htail', if_neg (c := 1 = 3 ∧ _) (by simp)]

theorem cqDb_arms {s : State} {a : Acc} {i : Fin 256} {q : Fin 4} {v : Word} {k : Nat} (hk : k = 4 * i.val + q.val) (hi : (s.inst i.val).st ≠ .free)
    (hg : s.goesWrite a .cqDb k v = true) (harm : bit 31 v.toNat = true)
    (hok : headOk (s.f Fld.qCfg_cq_size k) (s.f Fld.cqDb_head k) (s.f Fld.cqTail_tail k) (v.toNat % 2 ^ 16) = true)
    (hst : s.f Fld.qStat_state k = 1) (htail : v.toNat % 2 ^ 16 = s.f Fld.cqTail_tail k) :
    ∃ t, exec (.cqDb a i q v) s = .next t ∧ t.f Fld.cqDb_head k = v.toNat % 2 ^ 16 ∧ t.qp k = { s.qp k with armed := true }
      ∧ s.sameQpsBut t k ∧ s.onlyFields t [(Fld.cqDb_head, k)] ∧ t = { s.asideFrom t with regs := t.regs, qps := t.qps } := by
  subst hk
  obtain ⟨t, hrow, hw⟩ := cqDb_row hi hg
  generalize 4 * i.val + q.val = k at *
  obtain ⟨u, hu, hoff, hf, hne, honly⟩ := s.start.cqDb_moves k v
  have heff := (writeCqDb_arms (s := s.start) harm hst hok hu hf hne).trans (if_pos htail)
  rw [heff] at hw
  have hqps : u.qps = s.qps := (congrArg State.qps hoff : u.offRegs.qps = s.start.offRegs.qps)
  have htq : t.qps = (u.modQp k fun q => { q with armed := true }).qps := (congrArg State.qps hw.answer : t.offAnswer.qps = State.qps (offAnswer _))
  have hkeep {x y : State} (h : x = y) := congrArg (fun z : State => { z with
    outp := t.outp, links := t.links, slowQ := t.slowQ, regs := t.regs, qps := t.qps }) h
  refine ⟨t, hrow, (f_congr hw.regs _ _).trans hf, ?_, fun j hj => ?_, onlyFields.congr honly hw.regs, ?_⟩
  · rw [qp_congr htq, qp_modQp_same, qp_congr hqps]
  · rw [qp_congr htq, sameQpsBut_modQp u k _ j hj, qp_congr hqps]
  · have hlast := hkeep hoff
    exact (hkeep hw.answer).trans hlast

/-- The EVENT of a CQ that goes out over no Hub port, where no tunnel EVENT waits (R143). -/
theorem cqEvent_sends {s : State} {k : Nat} (hm : s.mode ≠ .halt ∧ s.mode ≠ .reset) (hnone : s.tunnelWaits k = none) :
    ∃ t, s.cqEvent k none = t ∧ s.eventOut (k / 4) 1 (s.f Fld.qCfg_class k) (k % 4) (s.cqBody k) ∈ t.outp ∧ t.slowQ = s.slowQ
      ∧ t.qp k = { s.qp k with armed := false, n := 0, timer := false, evPend := false } ∧ s.sameQpsBut t k
      ∧ t = { s with qps := t.qps, links := t.links, outp := t.outp } := by
  have hsend : s.sendEventVc (k / 4) 1 (s.f Fld.qCfg_class k) (k % 4) (s.cqBody k) = s.handTx (s.f Fld.evDest_link (k / 4))
      (s.eventPkt (k / 4) 1 (s.f Fld.qCfg_class k) (k % 4) (s.cqBody k)) := if_neg (by simp [hm.1, hm.2])
  have hevent : s.cqEvent k none = (s.handTx (s.f Fld.evDest_link (k / 4)) (s.eventPkt (k / 4) 1 (s.f Fld.qCfg_class k) (k % 4) (s.cqBody k))).modQp k
      fun q => { q with armed := false, n := 0, timer := false, evPend := false } := by
    unfold cqEvent
    simp only [hnone]
    rw [hsend]
  have hout := s.outp_handTx (s.f Fld.evDest_link (k / 4)) (s.eventPkt (k / 4) 1 (s.f Fld.qCfg_class k) (k % 4) (s.cqBody k)) []
  have hoff := s.offLinks_handTx (s.f Fld.evDest_link (k / 4)) (s.eventPkt (k / 4) 1 (s.f Fld.qCfg_class k) (k % 4) (s.cqBody k)) []
  have hpkt : s.eventOut (k / 4) 1 (s.f Fld.qCfg_class k) (k % 4) (s.cqBody k)
      = .packet (s.route (s.f Fld.evDest_link (k / 4))) (s.eventPkt (k / 4) 1 (s.f Fld.qCfg_class k) (k % 4) (s.cqBody k)) := rfl
  rw [hpkt, hevent]
  generalize s.handTx (s.f Fld.evDest_link (k / 4)) (s.eventPkt (k / 4) 1 (s.f Fld.qCfg_class k) (k % 4) (s.cqBody k)) = u at *
  have hqps : u.qps = s.qps := (congrArg State.qps hoff : u.offLinks.qps = s.offLinks.qps)
  refine ⟨_, rfl, hout List.mem_cons_self, (congrArg State.slowQ hoff : u.offLinks.slowQ = s.offLinks.slowQ), ?_, fun j hj => ?_, ?_⟩
  · rw [qp_modQp_same, qp_congr hqps]
  · rw [sameQpsBut_modQp u k _ j hj, qp_congr hqps]
  · exact congrArg (fun z : State => { z with links := u.links, outp := u.outp, qps := (u.modQp k fun q => { q with
      armed := false, n := 0, timer := false, evPend := false }).qps }) hoff

theorem regOff_cqDb_ne {id : RegId} (h : id = .evDest ∨ id = .evVec) (j k : Nat) : regOff id j ≠ regOff .cqDb k := by
  rcases h with rfl | rfl <;> simp [regOff, RegId.row] <;> omega

/-- An EVENT is as it was where CQ_DB alone has changed. -/
theorem eventOut_kept {s w : State} {k : Nat} (hfw : ∀ (x : Fld) (j : Nat), regOff x.id j ≠ regOff .cqDb k → w.f x j = s.f x j)
    (hlinks : w.links = s.links) (i code vc add : Nat) (body : List Byte) : w.eventOut i code vc add body = s.eventOut i code vc add body := by
  have hdest (x : Fld) (hx : x.id = .evDest) (j : Nat) : w.f x j = s.f x j := hfw x j (by rw [hx]; exact regOff_cqDb_ne (.inl rfl) _ _)
  have hbridge : w.bridgeId = s.bridgeId := by
    rw [bridgeId, hfw Fld.tlkBridgeId_id 0 (regOff_ne_of_lt (id := .cqDb) (id' := .tlkBridgeId) (j := 0) (by decide) k).symm, bridgeId]
  rw [eventOut, eventOut, msgHdr, msgHdr, hbridge, hdest Fld.evDest_link rfl, hdest Fld.evDest_dest rfl, hfw Fld.evVec_vector _ (regOff_cqDb_ne (.inr rfl) _ _), route, route, link_congr hlinks]

theorem cqDb_event {s : State} {a : Acc} {i : Fin 256} {q : Fin 4} {v : Word} {k : Nat} (hk : k = 4 * i.val + q.val) (hi : (s.inst i.val).st ≠ .free)
    (hg : s.goesWrite a .cqDb k v = true) (harm : bit 31 v.toNat = true)
    (hok : headOk (s.f Fld.qCfg_cq_size k) (s.f Fld.cqDb_head k) (s.f Fld.cqTail_tail k) (v.toNat % 2 ^ 16) = true)
    (hst : s.f Fld.qStat_state k = 1) (htail : v.toNat % 2 ^ 16 ≠ s.f Fld.cqTail_tail k) (hev : s.evOn i.val 1 = true)
    (hears : s.instHears i.val = true) (hnone : s.tunnelWaits k = none) :
    ∃ t, exec (.cqDb a i q v) s = .next t ∧ t.f Fld.cqDb_head k = v.toNat % 2 ^ 16
      ∧ s.eventOut i.val 1 (s.f Fld.qCfg_class k) q.val (s.cqBody k) ∈ t.outp
      ∧ t.qp k = { s.qp k with armed := false, n := 0, timer := false, evPend := false } ∧ s.sameQpsBut t k
      ∧ s.onlyFields t [(Fld.cqDb_head, k)] ∧ t = { s.asideFrom t with regs := t.regs, qps := t.qps } := by
  obtain ⟨hdiv, hmod⟩ : k / 4 = i.val ∧ k % 4 = q.val := by omega
  have ht := targetAt_qp .cqDb (.inr (.inr (.inr rfl))) (k := k) (by omega)
  have hblock : blockAt (regOff .cqDb k) = some .bi :=
    (targetAt_reg ht (formCause_aligned (r := wordWrite a (regOff .cqDb k) v) rfl ((goes_iff s _).mp (Bool.and_eq_true_iff.mp hg).1).form)).1
  have hworks := works_of_goesWrite hg ht (by rw [hblock]; decide) rfl
  have hmode : s.mode ≠ .halt ∧ s.mode ≠ .reset := ⟨not_halt_of_works hworks, not_reset_of_works hworks⟩
  obtain ⟨t, hrow, hw⟩ := cqDb_row (q := q) hi (hk ▸ hg)
  rw [← hk] at hw
  obtain ⟨u, hu, hoff, hf, hne, honly⟩ := s.start.cqDb_moves k v
  have heff := (writeCqDb_arms (s := s.start) harm hst hok hu hf hne).trans (if_neg htail)
  have hqps : u.qps = s.qps := (congrArg State.qps hoff : u.offRegs.qps = s.start.offRegs.qps)
  obtain ⟨w, hwu, hregs, hqpw, hothw, hwith⟩ : ∃ w, (u.modQp k fun q => { q with armed := true }) = w ∧ w.regs = u.regs
      ∧ w.qp k = { s.qp k with armed := true } ∧ s.sameQpsBut w k ∧ w.offRegs.withQps [] = s.start.offRegs.withQps [] := by
    have hsame := congrArg (fun z : State => z.withQps []) hoff
    refine ⟨_, rfl, rfl, ?_, fun j hj => ?_, hsame⟩
    · rw [qp_modQp_same, qp_congr hqps]
    · rw [sameQpsBut_modQp u k _ j hj, qp_congr hqps]
  have hfw (x : Fld) (j : Nat) (h : regOff x.id j ≠ regOff .cqDb k) : w.f x j = s.f x j := (f_congr hregs x j).trans (hne x j h)
  have hgo : (w.qp k).armed = true ∧ w.evOn (k / 4) 1 = true ∧ w.instHears (k / 4) = true := by
    refine ⟨by rw [hqpw], ?_, ?_⟩
    · rw [evOn, fb, hfw Fld.evVec_en _ (regOff_cqDb_ne (.inr rfl) _ _), hdiv]
      exact hev
    · have hinsts : w.insts = s.insts := (congrArg State.insts hwith : (w.offRegs.withQps []).insts = (s.start.offRegs.withQps []).insts)
      rw [instHears, inst_congr hinsts, hdiv]
      exact hears
  have hnow : w.cqEventNow k = w.cqEvent k none := if_pos (by rw [hgo.1, hgo.2.1, hgo.2.2]; rfl)
  have hmodew : w.mode = s.mode := (congrArg State.mode hwith : (w.offRegs.withQps []).mode = (s.start.offRegs.withQps []).mode)
  have hwaitw : w.evWait = s.evWait := (congrArg State.evWait hwith : (w.offRegs.withQps []).evWait = (s.start.offRegs.withQps []).evWait)
  have hlinksw : w.links = s.links := (congrArg State.links hwith : (w.offRegs.withQps []).links = (s.start.offRegs.withQps []).links)
  obtain ⟨z, hz, hsent, hslow, hqp, hoth, heq⟩ := cqEvent_sends (s := w) (k := k) (hmodew ▸ hmode) (by rw [tunnelWaits, hwaitw]; exact hnone)
  rw [heff, hwu, hnow, hz] at hw
  have hbody : w.cqBody k = s.cqBody k := by
    rw [cqBody, hqpw, hfw Fld.cqTail_tail k (regOff_sideBySide (by decide) k), cqBody]
  have hout : w.eventOut (k / 4) 1 (w.f Fld.qCfg_class k) (k % 4) (w.cqBody k) = s.eventOut i.val 1 (s.f Fld.qCfg_class k) q.val (s.cqBody k) := by
    rw [hbody, hdiv, hmod, hfw Fld.qCfg_class k (regOff_sideBySide (by decide) k), eventOut_kept hfw hlinksw]
  rw [hout] at hsent
  have htq : t.qps = z.qps := (congrArg State.qps hw.answer : t.offAnswer.qps = z.offAnswer.qps)
  have htr : t.regs = u.regs := by
    rw [hw.regs, heq]
    exact hregs
  refine ⟨t, hrow, (f_congr htr _ _).trans hf, hw.outp hsent, ?_, fun j hj => ?_, onlyFields.congr honly htr, ?_⟩
  · rw [qp_congr htq, hqp, hqpw]
  · rw [qp_congr htq, hoth j hj, hothw j hj]
  · have hkeep {x y : State} (h : x = y) := congrArg (fun z : State => { z with
      outp := t.outp, links := t.links, slowQ := t.slowQ, regs := t.regs, qps := t.qps }) h
    have hmid := hkeep heq
    have hlast := hkeep hwith
    exact (hkeep hw.answer).trans (hmid.trans hlast)

/-! ### The coalescing timer -/

theorem cqCoal_runs {s : State} {i : Fin 256} {q : Fin 4} {k : Nat} (hk : k = 4 * i.val + q.val) (hworks : s.works = true)
    (ht : (s.qp k).timer = true) :
    exec (.cqCoalTime i q) s = .next (if (s.qp k).armed ∧ s.evOn i.val 1 ∧ s.instHears i.val ∧ s.f Fld.cqCoal_time k ≠ 0
      then (s.start.modQp k fun p => { p with timer := false }).cqEvent k none else s.start.modQp k fun p => { p with timer := false }) := by
  subst hk
  have hgo : ¬ ((!s.start.works) = true ∨ (!(s.start.qp (4 * i.val + q.val)).timer) = true) := by
    rw [show s.start.works = true from hworks, show (s.start.qp (4 * i.val + q.val)).timer = true from ht]
    decide
  have harmed : ((s.start.modQp (4 * i.val + q.val) fun p => { p with timer := false }).qp (4 * i.val + q.val)).armed
      = (s.qp (4 * i.val + q.val)).armed := by
    rw [qp_modQp_same]
    rfl
  refine congrArg Host.Outcome.next ((if_neg hgo).trans ?_)
  dsimp only
  rw [harmed]
  rfl

/-- The state once the timer of a CQ has stopped. -/
theorem timer_stops (s : State) (k : Nat) : ∃ u, (s.modQp k fun p => { p with timer := false }) = u ∧ u.qp k = { s.qp k with timer := false }
    ∧ s.sameQpsBut u k ∧ u = { s with qps := u.qps } ∧ u.regs = s.regs ∧ u.cqBody k = s.cqBody k := by
  refine ⟨_, rfl, qp_modQp_same .., sameQpsBut_modQp s k _, rfl, rfl, ?_⟩
  have hf : (s.modQp k fun p => { p with timer := false }).f Fld.cqTail_tail k = s.f Fld.cqTail_tail k := rfl
  rw [cqBody, cqBody, hf, qp_modQp_same]

theorem cqCoal_stops {s : State} {i : Fin 256} {q : Fin 4} {k : Nat} (hk : k = 4 * i.val + q.val) (hworks : s.works = true)
    (ht : (s.qp k).timer = true)
    (h : (s.qp k).armed = false ∨ s.evOn i.val 1 = false ∨ s.instHears i.val = false ∨ s.f Fld.cqCoal_time k = 0) :
    ∃ t, exec (.cqCoalTime i q) s = .next t ∧ t.qp k = { s.qp k with timer := false } ∧ s.sameQpsBut t k ∧ t = { s.start with qps := t.qps } := by
  obtain ⟨u, hu, hqp, hoth, heq, -⟩ := s.start.timer_stops k
  refine ⟨u, ?_, hqp, hoth, heq⟩
  rw [cqCoal_runs hk hworks ht, if_neg, hu]
  rintro ⟨harmed, hev, hears, htime⟩
  rcases h with h | h | h | h
  · exact absurd (h.symm.trans harmed) (by decide)
  · exact absurd (h.symm.trans hev) (by decide)
  · exact absurd (h.symm.trans hears) (by decide)
  · exact htime h

theorem cqCoal_sends {s : State} {i : Fin 256} {q : Fin 4} {k : Nat} (hk : k = 4 * i.val + q.val) (hworks : s.works = true)
    (ht : (s.qp k).timer = true) (harmed : (s.qp k).armed = true) (hev : s.evOn i.val 1 = true) (hears : s.instHears i.val = true)
    (htime : s.f Fld.cqCoal_time k ≠ 0) :
    (s.tunnelWaits k = none →
      ∃ t, exec (.cqCoalTime i q) s = .next t ∧ s.eventOut i.val 1 (s.f Fld.qCfg_class k) q.val (s.cqBody k) ∈ t.outp
        ∧ t.qp k = { s.qp k with armed := false, n := 0, timer := false, evPend := false } ∧ s.sameQpsBut t k
        ∧ t = { s.start with qps := t.qps, links := t.links, outp := t.outp })
    ∧ (∀ w, s.tunnelWaits k = some w →
      ∃ t, exec (.cqCoalTime i q) s = .next t ∧ t.evWait = s.evWait ++ [{ w with code := 1, body := s.cqBody k }]
        ∧ t.qp k = { s.qp k with armed := false, n := 0, timer := false, evPend := false } ∧ s.sameQpsBut t k
        ∧ t = { s.start with qps := t.qps, evWait := t.evWait }) := by
  obtain ⟨hdiv, hmod⟩ : k / 4 = i.val ∧ k % 4 = q.val := by omega
  obtain ⟨u, hu, hqp, hoth, heq, hregs, hbody⟩ := s.start.timer_stops k
  have hrun : exec (.cqCoalTime i q) s = .next (u.cqEvent k none) := by
    rw [cqCoal_runs hk hworks ht, if_pos ⟨harmed, hev, hears, htime⟩, hu]
  have hwait : u.evWait = s.evWait := by rw [heq]; rfl
  have hmode : u.mode = s.mode := by rw [heq]; rfl
  have hlinks : u.links = s.links := by rw [heq]; rfl
  refine ⟨fun hnone => ?_, fun w hw => ?_⟩
  · obtain ⟨t, htt, hsent, -, hqpt, hotht, heqt⟩ := cqEvent_sends (s := u) (k := k)
      (by rw [hmode]; exact ⟨not_halt_of_works hworks, not_reset_of_works hworks⟩) (by rw [tunnelWaits, hwait]; exact hnone)
    have hout : u.eventOut (k / 4) 1 (u.f Fld.qCfg_class k) (k % 4) (u.cqBody k) = s.eventOut i.val 1 (s.f Fld.qCfg_class k) q.val (s.cqBody k) := by
      have hb : u.cqBody k = s.cqBody k := hbody
      rw [hb, hdiv, hmod, f_congr hregs, eventOut_kept (s := s) (w := u) (k := 0) (fun x j _ => f_congr hregs x j) hlinks]
      rfl
    rw [hout] at hsent
    refine ⟨t, hrun.trans (congrArg _ htt), hsent, ?_, fun j hj => (hotht j hj).trans (hoth j hj), ?_⟩
    · rw [hqpt, hqp]
      rfl
    · have hlast := congrArg (fun z : State => { z with qps := t.qps, links := t.links, outp := t.outp }) heq
      exact heqt.trans hlast
  · have hevent : u.cqEvent k none = (State.modQp { u with evWait := u.evWait ++ [{ w with code := 1, body := u.cqBody k }] } k
        fun q => { q with armed := false, n := 0, timer := false, evPend := false }) := by
      have hw' : u.tunnelWaits k = some w := by rw [tunnelWaits, hwait]; exact hw
      unfold cqEvent
      simp only [hw']
    refine ⟨_, hrun.trans (congrArg _ hevent), ?_, ?_, fun j hj => ?_, ?_⟩
    · have hb : u.cqBody k = s.cqBody k := hbody
      rw [← hwait, ← hb]
      rfl
    · rw [qp_modQp_same]
      have hsame : ({ u with evWait := u.evWait ++ [{ w with code := 1, body := u.cqBody k }] } : State).qp k = { s.qp k with timer := false } := hqp
      rw [hsame]
    · have hsame := sameQpsBut_modQp ({ u with evWait := u.evWait ++ [{ w with code := 1, body := u.cqBody k }] } : State) k
        (fun q => { q with armed := false, n := 0, timer := false, evPend := false }) j hj
      exact hsame.trans (hoth j hj)
    · exact congrArg (fun z : State => { z with
        evWait := u.evWait ++ [{ w with code := 1, body := u.cqBody k }]
        qps := (State.modQp u k fun q => { q with armed := false, n := 0, timer := false, evPend := false }).qps }) heq

/-! ### Q_CFG -/

theorem writeQCfg_locks {s : State} {k : Nat} (h : s.f Fld.qStat_state k = 0) (v : Word) : s.lockBreaks .qCfg k v = false :=
  have hfree : s.lockMask .qCfg k = 0 := if_pos h
  lockBreaks_free hfree v

/-- A field that a mask does not touch. -/
theorem bits_blend_off {m : Word} {hi lo : Nat} (hm : ∀ k, lo ≤ k → k ≤ hi → m.getLsbD k = false) (v w : Word) :
    bits hi lo (blend m v w).toNat = bits hi lo w.toNat := by
  refine bits_congr fun k hlo hhi => ?_
  have hbit := hm k hlo hhi
  by_cases hk : k < 32
  · have hoff : m[k] = false := hbit
    simp [blend, hoff, hk]
  · simp [blend, BitVec.getLsbD_of_ge _ k (Nat.not_lt.mp hk)]

theorem qpEnableOk_iff (s : State) (k : Nat) : s.qpEnableOk k = true ↔ 4 ≤ s.f Fld.qCfg_sq_size k ∧ s.f Fld.qCfg_sq_size k ≤ 16
    ∧ 4 ≤ s.f Fld.qCfg_cq_size k ∧ s.f Fld.qCfg_cq_size k ≤ 16 ∧ s.f Fld.qCfg_maxp k ≠ 0 ∧ s.f Fld.cqCoal_count k ≠ 0
    ∧ (s.f Fld.qCfg_class k ≠ 0 ∨ (s.inst (k / 4)).c0rate ≠ 0) := by
  simp [qpEnableOk, and_assoc]

/-- Q_CFG once its plain fields are stored. -/
theorem qCfg_stored (s : State) (k : Nat) (v : Word) :
    ∃ u, s.putRw .qCfg k 0x1F1FFF03 (setBits 31 31 1 v) = u ∧ u.offRegs = s.offRegs ∧ u.f Fld.qCfg_sq_size k = bits 28 24 v.toNat
      ∧ u.f Fld.qCfg_cq_size k = bits 20 16 v.toNat ∧ u.f Fld.qCfg_maxp k = bits 15 8 v.toNat ∧ u.f Fld.qCfg_class k = bits 1 0 v.toNat
      ∧ u.f Fld.qCfg_en k = s.f Fld.qCfg_en k ∧ (∀ id, regOff id k ≠ regOff .qCfg k → u.reg id k = s.reg id k)
      ∧ s.onlyRegs u [(.qCfg, k)] := by
  have hf (x : Fld) (hid : x.id = .qCfg) (hx : x.fits) (hm : coversField 0x1F1FFF03 x = true) (ha : x.hi < 31) :
      (s.putRw .qCfg k 0x1F1FFF03 (setBits 31 31 1 v)).f x k = bits x.hi x.lo v.toNat := by
    have h := s.f_putRw hx hm k (setBits 31 31 1 v)
    rw [hid] at h
    rw [h, bits_setBits_apart (by decide) (by decide) (.inr ha)]
  refine ⟨_, rfl, offRegs_putRw .., hf Fld.qCfg_sq_size rfl (by decide) (by decide) (by decide),
    hf Fld.qCfg_cq_size rfl (by decide) (by decide) (by decide), hf Fld.qCfg_maxp rfl (by decide) (by decide) (by decide),
    hf Fld.qCfg_class rfl (by decide) (by decide) (by decide), ?_, fun id h => ?_, onlyRegs_putRw s _ _ _ _ (List.mem_singleton_self _)⟩
  · have hword := congrArg (fun w : Word => bits 31 31 w.toNat) (s.reg_putRw .qCfg k 0x1F1FFF03 (setBits 31 31 1 v))
    refine Eq.trans hword ?_
    refine bits_blend_off (fun j hlo hhi => ?_) _ _
    obtain rfl : j = 31 := Nat.le_antisymm hhi hlo
    decide
  · rw [putRw, if_neg (by decide)]
    exact reg_setReg_ne s h _

theorem qpEnable_row {s : State} {a : Acc} {i : Fin 256} {q : Fin 4} {v : Word} (hi : (s.inst i.val).st ≠ .free)
    (hg : s.goesWrite a .qCfg (4 * i.val + q.val) (setBits 31 31 1 v) = true) (hst : s.f Fld.qStat_state (4 * i.val + q.val) = 0) :
    ∃ t, exec (.qpEnable a i q v) s = .next t ∧ s.Writes a .qCfg (4 * i.val + q.val) (setBits 31 31 1 v)
      ((s.start.putRw .qCfg (4 * i.val + q.val) 0x1F1FFF03 (setBits 31 31 1 v)).qpEnable (4 * i.val + q.val)) t := by
  obtain ⟨t, hrow, hw⟩ := qpRow_writes hi (.inr (.inl rfl)) hg (writeQCfg_locks hst _)
  have heff : s.start.writeEffect a .qCfg (4 * i.val + q.val) (setBits 31 31 1 v)
      = (s.start.putRw .qCfg (4 * i.val + q.val) 0x1F1FFF03 (setBits 31 31 1 v)).qpEnable (4 * i.val + q.val) := by
    show s.start.writeQCfg (4 * i.val + q.val) (setBits 31 31 1 v) = _
    have hst' : s.start.f Fld.qStat_state (4 * i.val + q.val) = 0 := hst
    unfold writeQCfg
    simp only [hst']
    exact if_pos (setBits_top v)
  rw [heff] at hw
  exact ⟨t, hrow, hw⟩

theorem qpEnable_errs {s : State} {a : Acc} {i : Fin 256} {q : Fin 4} {v : Word} {k : Nat} (hk : k = 4 * i.val + q.val) (hi : (s.inst i.val).st ≠ .free)
    (hg : s.goesWrite a .qCfg k (setBits 31 31 1 v) = true) (hst : s.f Fld.qStat_state k = 0)
    (hbad : bits 28 24 v.toNat < 4 ∨ 16 < bits 28 24 v.toNat ∨ bits 20 16 v.toNat < 4 ∨ 16 < bits 20 16 v.toNat ∨ bits 15 8 v.toNat = 0
              ∨ s.f Fld.cqCoal_count k = 0 ∨ (bits 1 0 v.toNat = 0 ∧ (s.inst i.val).c0rate = 0)) :
    ∃ t, exec (.qpEnable a i q v) s = .next t ∧ t.f Fld.qStat_cfg_err k = 1 ∧ t.f Fld.qStat_state k = 0 ∧ t.f Fld.qCfg_en k = s.f Fld.qCfg_en k
              ∧ s.onlyRegs t [(.qCfg, k), (.qStat, k)] ∧ t = { s.asideFrom t with regs := t.regs } := by
  have hdiv : k / 4 = i.val := by omega
  subst hk
  obtain ⟨t, hrow, hw⟩ := qpEnable_row hi hg hst
  generalize 4 * i.val + q.val = k at *
  obtain ⟨u, hu, hoff, hsq, hcq, hmaxp, hclass, hen, hne, honly⟩ := s.start.qCfg_stored k v
  rw [hu] at hw
  have hinst : u.inst (k / 4) = s.inst i.val := by
    rw [hdiv]
    exact inst_congr (s := s) (congrArg State.insts hoff : u.offRegs.insts = s.start.offRegs.insts) _
  have hnot : ¬ u.qpEnableOk k = true := by
    have hcount : u.f Fld.cqCoal_count k = s.f Fld.cqCoal_count k :=
      congrArg (fun w : Word => bits _ _ w.toNat) (hne .cqCoal (regOff_sideBySide (by decide) k))
    rw [qpEnableOk_iff, hsq, hcq, hmaxp, hclass, hcount, hinst]
    omega
  have heff : u.qpEnable k = u.setF Fld.qStat_cfg_err 1 k := if_pos (by simp [hnot])
  rw [heff] at hw
  have hstat (x : Fld) (hx : x.id = .qStat) : u.f x k = s.f x k :=
    congrArg (fun w : Word => bits x.hi x.lo w.toNat) (hne x.id (by rw [hx]; exact regOff_sideBySide (by decide) k))
  refine ⟨t, hrow, (f_congr hw.regs _ _).trans (f_setF_same u (by decide) 1 k), (f_congr hw.regs _ _).trans ?_,
    (f_congr hw.regs _ _).trans ?_, onlyRegs.congr ?_ hw.regs, hw.eq_regs ((offRegs_setF ..).trans hoff)⟩
  · exact (f_setF_apart u (x := Fld.qStat_cfg_err) (y := Fld.qStat_state) (by decide) rfl (by decide) 1 k).trans ((hstat Fld.qStat_state rfl).trans hst)
  · exact (f_setF_page u (x := Fld.qStat_cfg_err) (y := Fld.qCfg_en) (by decide) 1 k).trans hen
  · exact (honly.mono (by simp)).setF (by simp [Fld.qStat_cfg_err]) 1

/-- The pages of a queue pair that enabling it clears. -/
def qpCleared (s : State) (k : Nat) : State :=
  let s := (((s.setF Fld.qCfg_en 1 k).setF Fld.sqHead_head 0 k).setF Fld.sqDb_tail 0 k).setF Fld.cqDb_head 0 k
  ((s.setF Fld.cqTail_tail 0 k).setF Fld.cqTail_phase 1 k).setF Fld.qStat_state 1 k

theorem qpCleared_tells (s : State) (k : Nat) :
    ∃ u, s.qpCleared k = u ∧ u.offRegs = s.offRegs ∧ u.f Fld.qCfg_en k = 1
      ∧ (∀ x : Fld, x.id = .qCfg → (x.hi < 31 ∧ x.lo ≤ x.hi) → u.f x k = s.f x k)
      ∧ u.f Fld.sqHead_head k = 0 ∧ u.f Fld.sqDb_tail k = 0 ∧ u.f Fld.cqDb_head k = 0 ∧ u.f Fld.cqTail_tail k = 0 ∧ u.f Fld.cqTail_phase k = 1
      ∧ u.reg .qStat k = setBits 31 30 1 (s.reg .qStat k)
      ∧ s.onlyRegs u [(.qCfg, k), (.sqHead, k), (.sqDb, k), (.cqDb, k), (.cqTail, k), (.qStat, k)] := by
  refine ⟨_, rfl, ?_, ?_, fun x hid hx => ?_, ?_, ?_, ?_, ?_, ?_, ?_, ?_⟩
  · simp only [qpCleared, offRegs_setF]
  · unfold qpCleared
    simp (disch := decide) only [f_setF_page, f_setF_same]
    decide
  · have hside (y : Fld) (hy : sideBySide .qCfg y.id = true) (z : State) (n : Nat) : (z.setF y n k).f x k = z.f x k :=
      f_setF_page z (by rw [hid]; exact hy) n k
    unfold qpCleared
    dsimp only
    rw [hside _ (by decide), hside _ (by decide), hside _ (by decide), hside _ (by decide), hside _ (by decide), hside _ (by decide)]
    exact f_setF_apart s (x := Fld.qCfg_en) (by decide) hid (.inr hx.1) 1 k
  · unfold qpCleared
    simp (disch := decide) only [f_setF_page, f_setF_same, Nat.zero_mod]
  · unfold qpCleared
    simp (disch := decide) only [f_setF_page, f_setF_same, Nat.zero_mod]
  · unfold qpCleared
    simp (disch := decide) only [f_setF_page, f_setF_same, Nat.zero_mod]
  · unfold qpCleared
    simp (disch := decide) only [f_setF_page, f_setF_apart, f_setF_same, Nat.zero_mod]
  · unfold qpCleared
    simp (disch := decide) only [f_setF_page, f_setF_same]
    decide
  · have hside (y : Fld) (hy : sideBySide .qStat y.id = true) (z : State) (n : Nat) : (z.setF y n k).reg .qStat k = z.reg .qStat k :=
      reg_setF_ne z (regOff_sideBySide hy k) n
    unfold qpCleared
    dsimp only
    refine (reg_setReg_same ..).trans (congrArg (setBits 31 30 1) ?_)
    refine Eq.trans (b := ((((((s.setF Fld.qCfg_en 1 k).setF Fld.sqHead_head 0 k).setF Fld.sqDb_tail 0 k).setF Fld.cqDb_head 0 k).setF
      Fld.cqTail_tail 0 k).setF Fld.cqTail_phase 1 k).reg .qStat k) rfl ?_
    rw [hside _ (by decide), hside _ (by decide), hside _ (by decide), hside _ (by decide), hside _ (by decide),
      hside _ (by decide)]
  · have hfirst := (onlyRegs.refl s [(.qCfg, k), (.sqHead, k), (.sqDb, k), (.cqDb, k), (.cqTail, k), (.qStat, k)]).setF (x := Fld.qCfg_en)
      (i := k) (by simp [Fld.qCfg_en]) 1
    have hpointers := ((hfirst.setF (x := Fld.sqHead_head) (i := k) (by simp [Fld.sqHead_head]) 0).setF (x := Fld.sqDb_tail) (i := k)
      (by simp [Fld.sqDb_tail]) 0).setF (x := Fld.cqDb_head) (i := k) (by simp [Fld.cqDb_head]) 0
    exact ((hpointers.setF (x := Fld.cqTail_tail) (i := k) (by simp [Fld.cqTail_tail]) 0).setF (x := Fld.cqTail_phase) (i := k)
      (by simp [Fld.cqTail_phase]) 1).setF (x := Fld.qStat_state) (i := k) (by simp [Fld.qStat_state]) 1

theorem qpEnable_enables {s : State} {a : Acc} {i : Fin 256} {q : Fin 4} {v : Word} {k : Nat} (hk : k = 4 * i.val + q.val) (hi : (s.inst i.val).st ≠ .free)
    (hg : s.goesWrite a .qCfg k (setBits 31 31 1 v) = true) (hst : s.f Fld.qStat_state k = 0)
    (hok : 4 ≤ bits 28 24 v.toNat ∧ bits 28 24 v.toNat ≤ 16 ∧ 4 ≤ bits 20 16 v.toNat ∧ bits 20 16 v.toNat ≤ 16 ∧ bits 15 8 v.toNat ≠ 0
              ∧ s.f Fld.cqCoal_count k ≠ 0 ∧ (bits 1 0 v.toNat ≠ 0 ∨ (s.inst i.val).c0rate ≠ 0)) :
    ∃ t, exec (.qpEnable a i q v) s = .next t ∧ t.f Fld.qCfg_en k = 1 ∧ t.f Fld.qCfg_sq_size k = bits 28 24 v.toNat
              ∧ t.f Fld.qCfg_cq_size k = bits 20 16 v.toNat ∧ t.f Fld.qCfg_maxp k = bits 15 8 v.toNat ∧ t.f Fld.qCfg_class k = bits 1 0 v.toNat
              ∧ t.f Fld.sqHead_head k = 0 ∧ t.f Fld.sqDb_tail k = 0 ∧ t.f Fld.cqDb_head k = 0 ∧ t.f Fld.cqTail_tail k = 0 ∧ t.f Fld.cqTail_phase k = 1
              ∧ t.reg .qStat k = setBits 31 30 1 (s.reg .qStat k) ∧ t.qp k = { s.qp k with armed := true, doors := [] } ∧ s.sameQpsBut t k
              ∧ (∀ n c, s.ctx? n = some c → t.ctx? n = some (if c.access = false ∧ c.inst = i.val ∧ c.q = q.val ∧ c.st = .start
                  then { c with stale := true } else c))
              ∧ s.onlyRegs t [(.qCfg, k), (.sqHead, k), (.sqDb, k), (.cqDb, k), (.cqTail, k), (.qStat, k)]
              ∧ t = { s.asideFrom t with regs := t.regs, qps := t.qps, ctxs := t.ctxs } := by
  obtain ⟨hdiv, hmod⟩ : k / 4 = i.val ∧ k % 4 = q.val := by omega
  subst hk
  obtain ⟨t, hrow, hw⟩ := qpEnable_row hi hg hst
  generalize 4 * i.val + q.val = k at *
  obtain ⟨u, hu, hoff, hsq, hcq, hmaxp, hclass, -, hne, honly⟩ := s.start.qCfg_stored k v
  obtain ⟨w, hwu, hoffw, hen, hcfg, hsh, hsd, hcd, hct, hcp, hqs, honlyw⟩ := u.qpCleared_tells k
  rw [hu] at hw
  have hinst : u.inst (k / 4) = s.inst i.val := by
    rw [hdiv]
    exact inst_congr (s := s) (congrArg State.insts hoff : u.offRegs.insts = s.start.offRegs.insts) _
  have hcount : u.f Fld.cqCoal_count k = s.f Fld.cqCoal_count k :=
    congrArg (fun w : Word => bits _ _ w.toNat) (hne .cqCoal (regOff_sideBySide (by decide) k))
  have hgood : u.qpEnableOk k = true := by
    rw [qpEnableOk_iff, hsq, hcq, hmaxp, hclass, hcount, hinst]
    exact hok
  have heff : u.qpEnable k = State.modQp { w with ctxs := w.ctxs.map fun c =>
      (c.1, if !c.2.access && c.2.inst == k / 4 && c.2.q == k % 4 && c.2.st == .start then { c.2 with stale := true } else c.2) } k
      fun q => { q with armed := true, doors := [] } := by
    rw [← hwu]
    exact if_neg (by simp [hgood])
  rw [heff] at hw
  have hregs : t.regs = w.regs := hw.regs
  have hqps : w.qps = s.qps := (congrArg State.qps (hoffw.trans hoff) : w.offRegs.qps = s.start.offRegs.qps)
  have hctxs : w.ctxs = s.ctxs := (congrArg State.ctxs (hoffw.trans hoff) : w.offRegs.ctxs = s.start.offRegs.ctxs)
  have htq : t.qps = (w.modQp k fun q => { q with armed := true, doors := [] }).qps := (congrArg State.qps hw.answer : t.offAnswer.qps = State.qps (offAnswer _))
  refine ⟨t, hrow, (f_congr hregs _ _).trans hen, (f_congr hregs _ _).trans ((hcfg Fld.qCfg_sq_size rfl (by decide)).trans hsq),
    (f_congr hregs _ _).trans ((hcfg Fld.qCfg_cq_size rfl (by decide)).trans hcq), (f_congr hregs _ _).trans ((hcfg Fld.qCfg_maxp rfl (by decide)).trans hmaxp),
    (f_congr hregs _ _).trans ((hcfg Fld.qCfg_class rfl (by decide)).trans hclass), (f_congr hregs _ _).trans hsh, (f_congr hregs _ _).trans hsd,
    (f_congr hregs _ _).trans hcd, (f_congr hregs _ _).trans hct, (f_congr hregs _ _).trans hcp, ?_, ?_, fun j hj => ?_, fun n c hc => ?_, ?_, ?_⟩
  · have hlast : t.reg .qStat k = w.reg .qStat k := by rw [reg, hregs, reg]
    rw [hlast, hqs, hne .qStat (regOff_sideBySide (by decide) k)]
    rfl
  · rw [qp_congr htq, qp_modQp_same, qp_congr hqps]
  · rw [qp_congr htq, sameQpsBut_modQp w k _ j hj, qp_congr hqps]
  · have htc : t.ctxs = w.ctxs.map fun c =>
        (c.1, if !c.2.access && c.2.inst == k / 4 && c.2.q == k % 4 && c.2.st == .start then { c.2 with stale := true } else c.2) :=
      (congrArg State.ctxs hw.answer : t.offAnswer.ctxs = State.ctxs (offAnswer _))
    have hmap := FMap.find_map (fun _ (c : Ctx) => if !c.access && c.inst == k / 4 && c.q == k % 4 && c.st == .start then { c with stale := true } else c) n w.ctxs
    have hfound : FMap.find n w.ctxs = some c := by rw [hctxs]; exact hc
    rw [ctx?, htc, hmap, hfound, hdiv, hmod]
    simp [and_assoc]
  · exact ((honly.mono (by simp)).trans honlyw).congr hregs
  · have hkeep {x y : State} (h : x = y) := congrArg (fun z : State => { z with
      outp := t.outp, links := t.links, slowQ := t.slowQ, regs := t.regs, qps := t.qps, ctxs := t.ctxs }) h
    have hlast := hkeep (hoffw.trans hoff)
    exact (hkeep hw.answer).trans hlast

/-- Q_CFG with EN = 0 in RUN. -/
theorem qpDisabled_tells (s : State) (k : Nat) :
    ∃ u, ((s.setF Fld.qCfg_en 0 k).setF Fld.qStat_state 2 k).qpDrained k = u ∧ u.offRegs = s.offRegs ∧ u.f Fld.qCfg_en k = 0
      ∧ u.f Fld.qStat_state k = (if s.f Fld.qStat_inflight k = 0 ∧ (s.qp k).held = [] then 0 else 2)
      ∧ s.onlyFields u [(Fld.qCfg_en, k), (Fld.qStat_state, k)] := by
  obtain ⟨w, hw, hoff, hen, hst, hin, honly⟩ : ∃ w, (s.setF Fld.qCfg_en 0 k).setF Fld.qStat_state 2 k = w ∧ w.offRegs = s.offRegs ∧ w.f Fld.qCfg_en k = 0
      ∧ w.f Fld.qStat_state k = 2 ∧ w.f Fld.qStat_inflight k = s.f Fld.qStat_inflight k
      ∧ s.onlyFields w [(Fld.qCfg_en, k), (Fld.qStat_state, k)] := by
    refine ⟨_, rfl, (offRegs_setF ..).trans (offRegs_setF ..), ?_, (f_setF_same _ (by decide) 2 k).trans (by decide), ?_, ?_⟩
    · simp (disch := decide) only [f_setF_page, f_setF_same, Nat.zero_mod]
    · simp (disch := decide) only [f_setF_page, f_setF_apart]
    · exact (((onlyFields.refl s _).setF (mem_page (xs := [Fld.qCfg_en, Fld.qStat_state]) (by decide) k) (by decide)
        (wordsApart_page (by decide) k) 0).setF (mem_page (xs := [Fld.qCfg_en, Fld.qStat_state]) (by decide) k) (by decide) (wordsApart_page (by decide) k) 2)
  have hheld : w.qpHeld k = !(s.qp k).held.isEmpty := by
    rw [qpHeld, qp_congr (t := w) (s := s) (congrArg State.qps hoff : w.offRegs.qps = s.offRegs.qps)]
  rw [hw]
  by_cases h : s.f Fld.qStat_inflight k = 0 ∧ (s.qp k).held = []
  · obtain ⟨hzero, hnil⟩ := h
    have hdr : w.qpDrained k = w.setF Fld.qStat_state 0 k := if_pos ⟨hst, hin.trans hzero, by rw [hheld, hnil]; rfl⟩
    refine ⟨_, hdr, (offRegs_setF ..).trans hoff, ?_, ?_, ?_⟩
    · exact (f_setF_page w (x := Fld.qStat_state) (by decide) 0 k).trans hen
    · rw [if_pos ⟨hzero, hnil⟩]
      exact (f_setF_same w (by decide) 0 k).trans (Nat.zero_mod _)
    · exact honly.setF (mem_page (xs := [Fld.qCfg_en, Fld.qStat_state]) (by decide) k) (by decide)
        (wordsApart_page (xs := [Fld.qCfg_en, Fld.qStat_state]) (by decide) k) 0
  · have hdr : w.qpDrained k = w := by
      refine if_neg fun hgo => h ⟨hin.symm.trans hgo.2.1, ?_⟩
      have hz := hgo.2.2
      rw [hheld] at hz
      simpa using hz
    exact ⟨_, hdr, hoff, hen, by rw [if_neg h]; exact hst, honly⟩

theorem qpDisable_disables {s : State} {a : Acc} {i : Fin 256} {q : Fin 4} {v : Word} {k : Nat} (hk : k = 4 * i.val + q.val) (hi : (s.inst i.val).st ≠ .free)
    (hg : s.goesWrite a .qCfg k (setBits 31 31 0 v) = true) (hst : s.f Fld.qStat_state k = 1) (hl : s.lockBreaks .qCfg k (setBits 31 31 0 v) = false) :
    ∃ t, exec (.qpDisable a i q v) s = .next t ∧ t.f Fld.qCfg_en k = 0
            ∧ t.f Fld.qStat_state k = (if s.f Fld.qStat_inflight k = 0 ∧ (s.qp k).held = [] then 0 else 2)
            ∧ s.onlyFields t [(Fld.qCfg_en, k), (Fld.qStat_state, k)] ∧ t = { s.asideFrom t with regs := t.regs } := by
  subst hk
  obtain ⟨t, hrow, hw⟩ := qpRow_writes hi (.inr (.inl rfl)) hg hl
  have hexec : exec (.qpDisable a i q v) s = .next t := hrow
  generalize 4 * i.val + q.val = k at *
  have hoffbit : bit 31 (setBits 31 31 0 v).toNat = false := by
    rw [bit_eq_bits, bits_setBits_same (by decide) (by decide)]
    rfl
  have heff : s.start.writeEffect a .qCfg k (setBits 31 31 0 v) = ((s.start.setF Fld.qCfg_en 0 k).setF Fld.qStat_state 2 k).qpDrained k := by
    show s.start.writeQCfg k (setBits 31 31 0 v) = _
    have hst' : s.start.f Fld.qStat_state k = 1 := hst
    unfold writeQCfg
    simp only [hst']
    exact if_neg (by rw [hoffbit]; decide)
  obtain ⟨u, hu, hoff, hen, hstate, honly⟩ := s.start.qpDisabled_tells k
  rw [heff, hu] at hw
  exact ⟨t, hexec, (f_congr hw.regs _ _).trans hen, (f_congr hw.regs _ _).trans hstate, onlyFields.congr honly hw.regs, hw.eq_regs hoff⟩

/-! ### RESUME -/

/-- The status fields of a queue pair that RESUME sets. -/
theorem qpResumed_tells (s : State) (k : Nat) :
    ∃ u, (((s.setF Fld.qStat_fault_cause 0 k).setF Fld.qStat_fault_status 0 k).setF Fld.qStat_state (if s.fb Fld.qCfg_en k then 1 else 2) k) = u
      ∧ u.offRegs = s.offRegs ∧ u.f Fld.qStat_fault_cause k = 0 ∧ u.f Fld.qStat_fault_status k = 0
      ∧ u.f Fld.qStat_state k = (if s.fb Fld.qCfg_en k = true then 1 else 2) ∧ u.f Fld.qStat_inflight k = s.f Fld.qStat_inflight k
      ∧ s.onlyFields u [(Fld.qStat_fault_cause, k), (Fld.qStat_fault_status, k), (Fld.qStat_state, k)] := by
  refine ⟨_, rfl, (offRegs_setF ..).trans ((offRegs_setF ..).trans (offRegs_setF ..)), ?_, ?_, ?_, ?_, ?_⟩
  · simp (disch := decide) only [f_setF_apart, f_setF_same, Nat.zero_mod]
  · simp (disch := decide) only [f_setF_apart, f_setF_same, Nat.zero_mod]
  · rw [f_setF_same _ (by decide)]
    split <;> decide
  · simp (disch := decide) only [f_setF_apart]
  · have hmem (x : Fld) (h : x ∈ [Fld.qStat_fault_cause, Fld.qStat_fault_status, Fld.qStat_state]) := mem_page h k
    exact (((onlyFields.refl s _).setF (hmem _ (by decide)) (by decide) (wordsApart_page (by decide) k) 0).setF (hmem _ (by decide)) (by decide)
      (wordsApart_page (by decide) k) 0).setF (hmem _ (by decide)) (by decide) (wordsApart_page (by decide) k) _

theorem resume_resumes {s : State} {a : Acc} {i : Fin 256} {q : Fin 4} {v : Word} {k : Nat} (hk : k = 4 * i.val + q.val) (hi : (s.inst i.val).st ≠ .free)
    (hg : s.goesWrite a .qCtl k (setBits 0 0 1 v) = true) (hst : s.f Fld.qStat_state k = 3) (hheld : (s.qp k).held = []) (hpend : (s.qp k).evPend = false) :
    ∃ t, exec (.resume a i q v) s = .next t ∧ t.f Fld.qStat_fault_cause k = 0 ∧ t.f Fld.qStat_fault_status k = 0
            ∧ t.f Fld.qStat_state k = (if s.fb Fld.qCfg_en k = true then 1 else if s.f Fld.qStat_inflight k = 0 then 0 else 2)
            ∧ s.onlyFields t [(Fld.qStat_fault_cause, k), (Fld.qStat_fault_status, k), (Fld.qStat_state, k)] ∧ s.sameQpsBut t k
            ∧ t = { s.asideFrom t with regs := t.regs, qps := t.qps, insts := t.insts } := by
  subst hk
  obtain ⟨t, hrow, hw⟩ := qpRow_writes hi (.inr (.inr (.inl rfl))) hg (lockBreaks_free rfl _)
  have hexec : exec (.resume a i q v) s = .next t := hrow
  generalize 4 * i.val + q.val = k at *
  obtain ⟨u, hu, hoff, hcause, hstatus, hstate, hin, honly⟩ := s.start.qpResumed_tells k
  have hqps : u.qps = s.qps := (congrArg State.qps hoff : u.offRegs.qps = s.start.offRegs.qps)
  obtain ⟨w, hwu, hregs, hqp, hoth, heq⟩ : ∃ w, (u.modQp k fun q => { q with held := [] }) = w ∧ w.regs = u.regs
      ∧ w.qp k = { s.qp k with held := [] } ∧ s.sameQpsBut w k ∧ w = { u with qps := w.qps } := by
    refine ⟨_, rfl, rfl, ?_, fun j hj => ?_, rfl⟩
    · rw [qp_modQp_same, qp_congr hqps]
    · rw [sameQpsBut_modQp u k _ j hj, qp_congr hqps]
  have heff : s.start.writeEffect a .qCtl k (setBits 0 0 1 v) = (w.qpDrained k).raisePass s.start (k / 4) := by
    have hbit : bit 0 (setBits 0 0 1 v).toNat = true := by
      rw [bit_eq_bits, bits_setBits_same (by decide) (by decide)]
      rfl
    have hheld' : (s.start.qp k).held = [] := hheld
    have hgo : s.start.writeEffect a .qCtl k (setBits 0 0 1 v) = s.start.qpResume k := if_pos hbit
    rw [hgo, qpResume, if_neg (by rw [show s.start.f Fld.qStat_state k = 3 from hst]; decide)]
    dsimp only
    rw [hheld', hu, List.foldl_nil, hwu, if_neg]
    rw [hqp, hpend]
    exact Bool.false_ne_true
  rw [heff] at hw
  obtain ⟨z, hz, hoffz, hcz, hfz, hsz, honlyz⟩ : ∃ z, w.qpDrained k = z ∧ z.offRegs = w.offRegs ∧ z.f Fld.qStat_fault_cause k = 0
      ∧ z.f Fld.qStat_fault_status k = 0
      ∧ z.f Fld.qStat_state k = (if s.fb Fld.qCfg_en k = true then 1 else if s.f Fld.qStat_inflight k = 0 then 0 else 2)
      ∧ s.onlyFields z [(Fld.qStat_fault_cause, k), (Fld.qStat_fault_status, k), (Fld.qStat_state, k)] := by
    have hstw : w.f Fld.qStat_state k = (if s.fb Fld.qCfg_en k = true then 1 else 2) := (f_congr hregs _ _).trans hstate
    have hinw : w.f Fld.qStat_inflight k = s.f Fld.qStat_inflight k := (f_congr hregs _ _).trans hin
    have hnone : w.qpHeld k = false := by
      rw [qpHeld, hqp]
      rfl
    by_cases h : w.f Fld.qStat_state k = 2 ∧ w.f Fld.qStat_inflight k = 0
    · obtain ⟨htwo, hzero⟩ := h
      have hen : ¬ s.fb Fld.qCfg_en k = true := fun hen => by simp [hstw, hen] at htwo
      have hdr : w.qpDrained k = w.setF Fld.qStat_state 0 k := if_pos ⟨htwo, hzero, by rw [hnone]; rfl⟩
      refine ⟨_, hdr, offRegs_setF .., ?_, ?_, ?_, ?_⟩
      · exact (f_setF_apart w (x := Fld.qStat_state) (y := Fld.qStat_fault_cause) (by decide) rfl (by decide) 0 k).trans ((f_congr hregs _ _).trans hcause)
      · exact (f_setF_apart w (x := Fld.qStat_state) (y := Fld.qStat_fault_status) (by decide) rfl (by decide) 0 k).trans ((f_congr hregs _ _).trans hstatus)
      · rw [if_neg hen, if_pos (hinw.symm.trans hzero)]
        exact (f_setF_same w (by decide) 0 k).trans (Nat.zero_mod _)
      · exact (honly.congr hregs).setF (mem_page (xs := [Fld.qStat_fault_cause, Fld.qStat_fault_status, Fld.qStat_state]) (by decide) k) (by decide)
          (wordsApart_page (xs := [Fld.qStat_fault_cause, Fld.qStat_fault_status, Fld.qStat_state]) (by decide) k) 0
    · have hdr : w.qpDrained k = w := if_neg fun hgo => h ⟨hgo.1, hgo.2.1⟩
      refine ⟨_, hdr, rfl, (f_congr hregs _ _).trans hcause, (f_congr hregs _ _).trans hstatus, hstw.trans ?_, onlyFields.congr honly hregs⟩
      by_cases hen : s.fb Fld.qCfg_en k = true
      · rw [if_pos hen, if_pos hen]
      · rw [if_neg hen, if_neg hen, if_neg]
        exact fun hzero => h ⟨hstw.trans (if_neg hen), hinw.trans hzero⟩
  rw [hz] at hw
  have hins := raisePass_insts z s.start (k / 4)
  have hrz : (z.raisePass s.start (k / 4)).regs = z.regs := by rw [hins]
  have htr : t.regs = z.regs := hw.regs.trans hrz
  have htq : t.qps = w.qps := by
    have hfirst : t.qps = (z.raisePass s.start (k / 4)).qps := (congrArg State.qps hw.answer : t.offAnswer.qps = State.qps (offAnswer _))
    rw [hfirst, hins]
    exact (congrArg State.qps hoffz : z.offRegs.qps = w.offRegs.qps)
  refine ⟨t, hexec, (f_congr htr _ _).trans hcz, (f_congr htr _ _).trans hfz, (f_congr htr _ _).trans hsz, onlyFields.congr honlyz htr,
    fun j hj => (qp_congr htq j).trans (hoth j hj), ?_⟩
  have hkeep {x y : State} (h : x = y) := congrArg (fun z : State => { z with
    outp := t.outp, links := t.links, slowQ := t.slowQ, regs := t.regs, qps := t.qps, insts := t.insts }) h
  have hmid := hkeep hins
  have hz' := hkeep hoffz
  have hw' := hkeep heq
  have hlast := hkeep hoff
  exact (hkeep hw.answer).trans (hmid.trans (hz'.trans (hw'.trans hlast)))

end State

open State in
/-- Settles O39: each register write by its row, the enable through the fields that it clears, and the coalescing timer. -/
theorem queuePairsAndCoalescing : Obligations.QueuePairsAndCoalescing := by
  refine ⟨fun s a i q v k hk hi => ⟨fun hg => ⟨fun hst => ?_, fun hst ht => ?_, fun hst ht => ?_⟩, fun hg hst => ⟨qpEnable_enables hk hi hg hst,
    qpEnable_errs hk hi hg hst⟩, qpDisable_disables hk hi, resume_resumes hk hi, fun hg => ⟨cqDb_head hk hi hg, cqDb_bad hk hi hg, cqDb_arms hk hi hg,
    cqDb_event hk hi hg⟩⟩, fun s i q k hk hworks ht => ⟨cqCoal_sends hk hworks ht, cqCoal_stops hk hworks ht⟩⟩
  · subst hk
    exact sqDb_off hi hg hst
  · subst hk
    exact sqDb_rings hi hg hst ht
  · subst hk
    exact sqDb_bad hi hg hst ht

end Sys2Proof.Machine
end

section
/-! PROOFS. Key-encryption keys and key-slot commands (R229 to R231). -/

namespace Sys2Proof.Machine

/-- What is put at a new key stands beside what was there. -/
theorem FMap.put_perm {α : Type} {k : Nat} (v : α) : ∀ {m : FMap α}, FMap.find k m = none → (FMap.put k v m).Perm ((k, v) :: m)
  | [], _ => .refl _
  | (j, w) :: m, h => by
    have hj : ¬ j = k := fun hj => by
      rw [FMap.find_cons, if_pos hj] at h
      exact absurd h (by simp)
    have hm : FMap.find k m = none := by rwa [FMap.find_cons, if_neg hj] at h
    unfold FMap.put
    rw [if_neg hj]
    split
    · exact .refl _
    · exact ((FMap.put_perm v hm).cons _).trans (.swap ..)

namespace State

/-- The state with its CMP block replaced. -/
def withCmp (s : State) (c : Cmp) : State := { s with cmp := c }

/-- Of more fields than those that may have changed. -/
theorem onlyFields.mono {s t : State} {xs ys : List (Fld × Nat)} (h : s.onlyFields t xs) (hsub : xs ⊆ ys)
    (hw : ∀ q ∈ xs, wordsApart q.1 q.2 ys) : s.onlyFields t ys := by
  refine ⟨fun k hk => h.1 k fun p hp => hk p (hsub hp), fun p hp n hn => ?_⟩
  by_cases hq : ∃ q ∈ xs, regOff q.1.id q.2 = regOff p.1.id p.2
  · obtain ⟨q, hq, hoff⟩ := hq
    obtain ⟨hid, hi⟩ := hw q hq p hp hoff.symm
    have hbit := h.2 q hq n fun r hr hoffr => hn r (hsub hr) (hoffr.trans hoff)
    rw [← hid, ← hi] at hbit
    exact hbit
  · have hfind := h.1 (regOff p.1.id p.2) fun q hqx hoff => hq ⟨q, hqx, hoff⟩
    rw [reg, FMap.get, hfind]
    rfl

/-! ### KEK commands -/

theorem kekRow_puts {s : State} {a : Acc} {v comp : Word} {op op' : Nat}
    (hg : s.goesKeyed a .cmpKekLoad 0 (setBits 9 8 op v) (setBits 9 8 op' comp) = true) :
    ∃ x t, keyedRow a .cmpKekLoad 0 (setBits 9 8 op v) (setBits 9 8 op' comp) s = .next t ∧ s.KeyPut .cmpKekLoad 0 (setBits 9 8 op v) x
      ∧ t.offAnswer = (x.kekCommand (op % 4) (v.toNat % 256)).offAnswer := by
  obtain ⟨x, t, hrow, hput, hans, -⟩ := keyedRow_puts (g := fun x => x.kekCommand (op % 4) (v.toNat % 256)) hg (by decide) (by decide) rfl rfl
    fun u => by
      have hop : (setBits 9 8 op v).toNat / 2 ^ 8 % 4 = op % 4 := bits_setBits_same (hi := 9) (lo := 8) (by decide) (by decide) op v
      have hinst : (setBits 9 8 op v).toNat % 256 = v.toNat % 256 := by
        have h := bits_setBits_apart (hi := 9) (lo := 8) (hi' := 7) (lo' := 0) (by decide) (by decide) (by decide) op v
        simpa [bits] using h
      have heff : u.keyEffect .cmpKekLoad 0 (setBits 9 8 op v) = (u.putRw .cmpKekLoad 0 RegId.cmpKekLoad.row.key (setBits 9 8 op v)).kekCommand
          ((setBits 9 8 op v).toNat / 2 ^ 8 % 4) ((setBits 9 8 op v).toNat % 256) := rfl
      rw [heff, hop, hinst]
  exact ⟨x, t, hrow, hput, hans⟩

/-- What a KEK command leaves: the keys and no staged word, and its outcome. -/
theorem kekCommand_tells (s : State) {op i r : Nat} {keks : FMap (List Byte)} (hop : op = 1 ∨ op = 2) (hi : i < 256)
    (hcases : (r = op ∧ (s.inst i).st ≠ .free ∧ (op = 2 ∨ ∀ k < 8, (FMap.find k s.cmp.staged).isSome = true)
          ∧ keks = if op = 1 then FMap.put i ((List.range 8).flatMap fun k => natBytes 4 (FMap.get 0 k s.cmp.staged : Word).toNat) s.cmp.keks
            else FMap.del i s.cmp.keks)
        ∨ (r = 3 ∧ op = 1 ∧ ((s.inst i).st = .free ∨ ∃ k < 8, (FMap.find k s.cmp.staged).isSome = false) ∧ keks = s.cmp.keks)) :
    ∃ u, s.kekCommand op i = u ∧ u.offRegs = (s.withCmp { s.cmp with keks := keks, staged := [] }).offRegs ∧ u.f Fld.cmpKekStat_inst = i
      ∧ u.f Fld.cmpKekStat_result = r ∧ s.onlyRegs u [(.cmpKekStat, 0)] := by
  have hgo : ¬ (op ≠ 1 ∧ op ≠ 2) := by omega
  have hokay : ((s.inst i).st != .free && (op == 2 || (List.range 8).all fun k => (FMap.find k s.cmp.staged).isSome)) = decide (r = op) := by
    rcases hcases with ⟨hr, hlive, hwhole, -⟩ | ⟨hr, hop1, hbad, -⟩
    · subst hr
      rcases hwhole with h | h
      · simp [hlive, h]
      · simpa [hlive] using Or.inr h
    · subst hr hop1
      rcases hbad with h | ⟨k, hk, h⟩
      · simp [h]
      · simp only [Nat.reduceBEq, Bool.false_or, Nat.reduceEqDiff, decide_false, Bool.and_eq_false_iff]
        refine .inr (Bool.eq_false_iff.mpr fun hall => ?_)
        exact absurd (h.symm.trans (List.all_eq_true.mp hall k (List.mem_range.mpr hk))) (by decide)
  have hr : (if (!decide (r = op)) = true then 3 else op) = r := by
    rcases hcases with ⟨hr, -⟩ | ⟨hr, hop1, -⟩
    · simp [hr]
    · simp [hr, hop1]
  have hkeks : (if (!decide (r = op)) = true then s.cmp.keks else if op = 1 then
      FMap.put i ((List.range 8).flatMap fun k => natBytes 4 (FMap.get 0 k s.cmp.staged : Word).toNat) s.cmp.keks else FMap.del i s.cmp.keks) = keks := by
    rcases hcases with ⟨hr, -, -, hk⟩ | ⟨hr, hop1, -, hk⟩
    · simp [hr, hk]
    · simp [hr, hop1, hk]
  have hcmd : s.kekCommand op i = ((s.withCmp { s.cmp with keks := keks, staged := [] }).setF Fld.cmpKekStat_inst i).setF Fld.cmpKekStat_result r := by
    unfold kekCommand
    rw [if_neg hgo]
    dsimp only
    rw [hokay, hr, hkeks]
    rfl
  have hrlt : r < 4 := by omega
  refine ⟨_, hcmd, (offRegs_setF ..).trans (offRegs_setF ..), ?_, ?_, ?_⟩
  · rw [f_setF_apart _ (x := Fld.cmpKekStat_result) (y := Fld.cmpKekStat_inst) (by decide) rfl (by decide), f_setF_same _ (by decide)]
    exact Nat.mod_eq_of_lt hi
  · rw [f_setF_same _ (by decide)]
    exact Nat.mod_eq_of_lt hrlt
  · exact (((onlyRegs_of_regs (t := s.withCmp { s.cmp with keks := keks, staged := [] }) rfl _).setF (x := Fld.cmpKekStat_inst)
      (List.mem_singleton_self _) _).setF (x := Fld.cmpKekStat_result) (List.mem_singleton_self _) _)

theorem kek_runs {s : State} {a : Acc} {v comp : Word} {op op' r i : Nat} {keks : FMap (List Byte)} (hi : i = v.toNat % 256) (hop : op = 1 ∨ op = 2)
    (hg : s.goesKeyed a .cmpKekLoad 0 (setBits 9 8 op v) (setBits 9 8 op' comp) = true)
    (hcases : (r = op ∧ (s.inst i).st ≠ .free ∧ (op = 2 ∨ ∀ k < 8, (FMap.find k s.cmp.staged).isSome = true)
          ∧ keks = if op = 1 then FMap.put i ((List.range 8).flatMap fun k => natBytes 4 (FMap.get 0 k s.cmp.staged : Word).toNat) s.cmp.keks
            else FMap.del i s.cmp.keks)
        ∨ (r = 3 ∧ op = 1 ∧ ((s.inst i).st = .free ∨ ∃ k < 8, (FMap.find k s.cmp.staged).isSome = false) ∧ keks = s.cmp.keks)) :
    ∃ t, keyedRow a .cmpKekLoad 0 (setBits 9 8 op v) (setBits 9 8 op' comp) s = .next t
      ∧ t.cmp = { s.cmp with keks := keks, staged := [] } ∧ t.f Fld.cmpKekStat_inst = i ∧ t.f Fld.cmpKekStat_result = r
      ∧ s.onlyRegs t [(.cmpKekLoad, 0), (.cmpKekStat, 0)] ∧ t = { s.asideFrom t with regs := t.regs, cmp := t.cmp, keyPend := t.keyPend } := by
  obtain ⟨x, t, hrow, hput, hans⟩ := kekRow_puts hg
  have hmod : op % 4 = op := by omega
  rw [hmod, ← hi] at hans
  have hcmp : x.cmp = s.cmp := hput.get State.cmp fun _ => rfl
  have hinst : x.inst i = s.inst i := inst_congr (hput.get State.insts fun _ => rfl) i
  obtain ⟨u, hu, hoff, hfi, hfr, honly⟩ := x.kekCommand_tells (r := r) (keks := keks) hop (hi ▸ Nat.mod_lt _ (by decide)) (by
    rw [hcmp, hinst]
    exact hcases)
  rw [hu] at hans
  have hregs : t.regs = u.regs := (congrArg State.regs hans : t.offAnswer.regs = u.offAnswer.regs)
  have htc : t.cmp = u.cmp := (congrArg State.cmp hans : t.offAnswer.cmp = u.offAnswer.cmp)
  have huc : u.cmp = { x.cmp with keks := keks, staged := [] } := (congrArg State.cmp hoff : u.offRegs.cmp = _)
  refine ⟨t, hrow, ?_, (f_congr hregs _ _).trans hfi, (f_congr hregs _ _).trans hfr, ?_, ?_⟩
  · rw [htc, huc, hcmp]
  · exact onlyRegs.congr ((hput.only.mono (List.cons_subset_cons _ (List.nil_subset _))).trans (honly.mono (by simp))) hregs
  · have hkeep {y z : State} (h : y = z) := congrArg (fun y : State => { y with
      outp := t.outp, links := t.links, slowQ := t.slowQ, regs := t.regs, cmp := t.cmp, keyPend := t.keyPend }) h
    have hmid := hkeep hoff
    have hlast := hkeep hput.same
    exact (hkeep hans).trans (hmid.trans hlast)

/-! ### A key command begins -/

theorem targetAt_kld : ∀ i < 256, targetAt (regOff .cmpKldCmd i) = .reg .cmpKldCmd i := by decide +kernel

theorem kld_row {s : State} {a : Acc} {i : Fin 256} {v : Word} {op : Nat}
    (hg : s.goesWrite a .cmpKldCmd i.val (setBits 31 30 op v) = true) :
    ∃ t, writeRow a .cmpKldCmd i.val (setBits 31 30 op v) s = .next t
      ∧ s.Writes a .cmpKldCmd i.val (setBits 31 30 op v) (s.start.writeKld i.val (accIdent a) (setBits 31 30 op v)) t :=
  writeRow_writes hg (targetAt_kld _ i.isLt) rfl (by decide) rfl (lockBreaks_free rfl _)

/-- Where a key command begins: BUSY and the slot, and what nothing else of the command can see. -/
theorem kldBegun_tells (s : State) {k i : Nat} (hk : k < 2 ^ 12) (hi : i < 256) :
    ∃ u, (s.setF Fld.cmpKldStat_slot k i).setF Fld.cmpKldStat_busy 1 i = u ∧ u.offRegs = s.offRegs ∧ u.f Fld.cmpKldStat_slot i = k
      ∧ u.f Fld.cmpKldStat_busy i = 1 ∧ s.onlyFields u [(Fld.cmpKldStat_busy, i), (Fld.cmpKldStat_slot, i)]
      ∧ (∀ x : Fld, sideBySide x.id .cmpKldStat = true → u.f x i = s.f x i) ∧ s.sameGates u := by
  have hlow : regOff .cmpKldStat i < Block.gate.base := by
    simp only [regOff, RegId.row, Block.base]
    omega
  refine ⟨_, rfl, (offRegs_setF ..).trans (offRegs_setF ..), ?_, ?_, ?_, fun x hx => ?_, ?_⟩
  · rw [f_setF_apart _ (x := Fld.cmpKldStat_busy) (y := Fld.cmpKldStat_slot) (by decide) rfl (by decide), f_setF_same _ (by decide)]
    exact Nat.mod_eq_of_lt hk
  · exact (f_setF_same _ (by decide) 1 i).trans (by decide)
  · exact ((onlyFields.refl s _).setF (mem_page (xs := [Fld.cmpKldStat_busy, Fld.cmpKldStat_slot]) (by decide) i) (by decide)
      (wordsApart_page (by decide) i) k).setF (mem_page (xs := [Fld.cmpKldStat_busy, Fld.cmpKldStat_slot]) (by decide) i) (by decide)
      (wordsApart_page (xs := [Fld.cmpKldStat_busy, Fld.cmpKldStat_slot]) (by decide) i) 1
  · rw [f_setF_page _ (x := Fld.cmpKldStat_busy) hx, f_setF_page _ (x := Fld.cmpKldStat_slot) hx]
  · exact (sameGates_setReg s (id := .cmpKldStat) hlow _).trans (sameGates_setReg (s.setF Fld.cmpKldStat_slot k i) (id := .cmpKldStat) hlow _)

/-- A command that may begin sets BUSY and the slot, and goes on at step 2 of Table 10.2. -/
theorem kld_begins {s : State} {a : Acc} {i : Fin 256} {v : Word} {k op : Nat} (hk : k = v.toNat % 2 ^ 12) (hop : op = 1 ∨ op = 2)
    (hmay : s.keyMay a i.val k) (hg : s.goesWrite a .cmpKldCmd i.val (setBits 31 30 op v) = true) :
    ∃ t, writeRow a .cmpKldCmd i.val (setBits 31 30 op v) s = .next t ∧ s.Writes a .cmpKldCmd i.val (setBits 31 30 op v)
      (((s.start.setF Fld.cmpKldStat_slot k i.val).setF Fld.cmpKldStat_busy 1 i.val).keyGo i.val k (accIdent a) (op == 1)) t := by
  obtain ⟨t, hrow, hw⟩ := kld_row hg
  obtain ⟨hdrain, hsquash, hbusy, hgate⟩ := hmay
  have hslot : (setBits 31 30 op v).toNat % 2 ^ 12 = k := by
    have h := bits_setBits_apart (hi := 31) (lo := 30) (hi' := 11) (lo' := 0) (by decide) (by decide) (by decide) op v
    rw [hk]
    simpa [bits] using h
  have hcmd : (setBits 31 30 op v).toNat / 2 ^ 30 = op := by
    have h := bits_setBits_same (hi := 31) (lo := 30) (by decide) (by decide) op v
    simp only [bits] at h
    have hlt := (setBits 31 30 op v).isLt
    omega
  have heff : s.start.writeKld i.val (accIdent a) (setBits 31 30 op v)
      = ((s.start.setF Fld.cmpKldStat_slot k i.val).setF Fld.cmpKldStat_busy 1 i.val).keyGo i.val k (accIdent a) (op == 1) := by
    have hbusy' : ¬ s.start.fb Fld.cmpKldStat_busy i.val = true := fun h => absurd (hbusy.symm.trans h) (by decide)
    have hst : ¬ ((s.start.inst i.val).st = .drain ∨ (s.start.inst i.val).st = .squash) := not_or.mpr ⟨hdrain, hsquash⟩
    have hgo : s.start.writeKld i.val (accIdent a) (setBits 31 30 op v) = s.start.keyCommand i.val k (accIdent a) (op == 1) := by
      unfold writeKld
      dsimp only
      rw [hcmd, hslot, if_neg hst, if_neg hbusy', if_pos hop]
    rw [hgo]
    unfold keyCommand
    rw [if_neg hbusy']
    obtain ⟨u, hu, -, -, -, -, -, hgates⟩ := s.start.kldBegun_tells (k := k) (i := i.val) (hk ▸ Nat.mod_lt _ (by decide)) i.isLt
    rw [hu]
    dsimp only
    rw [gateCheck_ok ((hgates.2 ..).trans (((sameGates_of_regs (s := s) (t := s.start) rfl rfl rfl).2 ..).trans hgate)) none none]
    rfl
  rw [heff] at hw
  exact ⟨t, hrow, hw⟩

/-- A key command ends: BUSY falls, and the mailbox holds no load. -/
theorem keyResult_tells (s : State) {i r : Nat} (hr : r < 16) (hne : r ≠ 6) (tstat : Nat) :
    ∃ u, s.keyResult i r tstat = u ∧ u.offRegs = (s.withCmp { s.cmp with mboxes := FMap.del i s.cmp.mboxes }).offRegs
      ∧ u.f Fld.cmpKldStat_busy i = 0 ∧ u.f Fld.cmpKldStat_result i = r ∧ u.f Fld.cmpKldStat_slot i = s.f Fld.cmpKldStat_slot i
      ∧ s.onlyFields u [(Fld.cmpKldStat_busy, i), (Fld.cmpKldStat_result, i)] := by
  obtain ⟨w, hw, hoff, hbusy, hres, hslot, honly⟩ : ∃ w, (s.setF Fld.cmpKldStat_busy 0 i).setF Fld.cmpKldStat_result r i = w ∧ w.offRegs = s.offRegs
      ∧ w.f Fld.cmpKldStat_busy i = 0 ∧ w.f Fld.cmpKldStat_result i = r ∧ w.f Fld.cmpKldStat_slot i = s.f Fld.cmpKldStat_slot i
      ∧ s.onlyFields w [(Fld.cmpKldStat_busy, i), (Fld.cmpKldStat_result, i)] := by
    refine ⟨_, rfl, (offRegs_setF ..).trans (offRegs_setF ..), ?_, ?_, ?_, ?_⟩
    · simp (disch := decide) only [f_setF_apart, f_setF_same, Nat.zero_mod]
    · exact (f_setF_same _ (by decide) r i).trans (Nat.mod_eq_of_lt hr)
    · simp (disch := decide) only [f_setF_apart]
    · exact ((onlyFields.refl s _).setF (mem_page (xs := [Fld.cmpKldStat_busy, Fld.cmpKldStat_result]) (by decide) i) (by decide)
        (wordsApart_page (by decide) i) 0).setF (mem_page (xs := [Fld.cmpKldStat_busy, Fld.cmpKldStat_result]) (by decide) i) (by decide)
        (wordsApart_page (xs := [Fld.cmpKldStat_busy, Fld.cmpKldStat_result]) (by decide) i) r
  have hcmp : w.cmp = s.cmp := (congrArg State.cmp hoff : w.offRegs.cmp = s.offRegs.cmp)
  have heq : s.keyResult i r tstat = w.withCmp { w.cmp with mboxes := FMap.del i w.cmp.mboxes } := by
    unfold keyResult
    dsimp only
    rw [hw, if_neg hne]
    rfl
  refine ⟨_, heq, ?_, hbusy, hres, hslot, honly⟩
  rw [hcmp]
  exact congrArg (fun z : State => z.withCmp { s.cmp with mboxes := FMap.del i s.cmp.mboxes }) hoff

/-- Fields of CMP_KLD_STAT, among those that a command may change. -/
theorem kldStat_wide {s t : State} {i : Nat} {xs : List Fld} (h : s.onlyFields t (xs.map fun y => (y, i)))
    (hsub : xs ⊆ [Fld.cmpKldStat_busy, Fld.cmpKldStat_slot, Fld.cmpKldStat_result]) :
    s.onlyFields t ([Fld.cmpKldStat_busy, Fld.cmpKldStat_slot, Fld.cmpKldStat_result].map fun y => (y, i)) :=
  h.mono (List.map_subset _ hsub) fun q hq => by
    obtain ⟨x, hx, rfl⟩ := List.mem_map.mp hq
    have hall : ∀ x ∈ [Fld.cmpKldStat_busy, Fld.cmpKldStat_slot, Fld.cmpKldStat_result],
        fieldsApart x [Fld.cmpKldStat_busy, Fld.cmpKldStat_slot, Fld.cmpKldStat_result] = true := by decide
    exact wordsApart_page (hall x (hsub hx)) _

/-- The fields that a command sets where it begins and where it ends. -/
theorem kldStat_both {s u t : State} {i : Nat} (h : s.onlyFields u [(Fld.cmpKldStat_busy, i), (Fld.cmpKldStat_slot, i)])
    (h' : u.onlyFields t [(Fld.cmpKldStat_busy, i), (Fld.cmpKldStat_result, i)]) :
    s.onlyFields t [(Fld.cmpKldStat_busy, i), (Fld.cmpKldStat_slot, i), (Fld.cmpKldStat_result, i)] :=
  onlyFields.trans (kldStat_wide (xs := [Fld.cmpKldStat_busy, Fld.cmpKldStat_slot]) h (by decide))
    (kldStat_wide (xs := [Fld.cmpKldStat_busy, Fld.cmpKldStat_result]) h' (by decide))

/-- What a key command asks after BUSY is set is as before. -/
theorem kldBegun_same {s u : State} (hoff : u.offRegs = s.start.offRegs) {i k : Nat} :
    u.cmp = s.cmp ∧ u.owns i 2 k = s.owns i 2 k ∧ u.slotUsers k = s.slotUsers k := by
  refine ⟨(congrArg State.cmp hoff : u.offRegs.cmp = s.start.offRegs.cmp), ?_, ?_⟩
  · rw [owns, inst_congr (s := s) (t := u) (congrArg State.insts hoff : u.offRegs.insts = s.start.offRegs.insts), owns]
  · have hops : u.ops = s.ops := (congrArg State.ops hoff : u.offRegs.ops = s.start.offRegs.ops)
    rw [slotUsers, hops, slotUsers]

theorem keyLoad_fails {s : State} {a : Acc} {i : Fin 256} {v : Word} {k r : Nat} (hk : k = v.toNat % 2 ^ 12) (hmay : s.keyMay a i.val k)
    (hg : s.goesWrite a .cmpKldCmd i.val (setBits 31 30 1 v) = true)
    (h : s.owns i.val 2 k = false ∧ r = 3 ∨ s.owns i.val 2 k = true ∧ (s.slotUsers k ≠ 0 ∨ (s.slot k).st = .loading) ∧ r = 4
            ∨ s.owns i.val 2 k = true ∧ s.slotUsers k = 0 ∧ (s.slot k).st ≠ .loading ∧ FMap.find i.val s.cmp.keks = none ∧ r = 5) :
    ∃ t, exec (.keyLoad a i v) s = .next t ∧ t.f Fld.cmpKldStat_busy i.val = 0 ∧ t.f Fld.cmpKldStat_slot i.val = k
          ∧ t.f Fld.cmpKldStat_result i.val = r
          ∧ s.onlyFields t [(Fld.cmpKldStat_busy, i.val), (Fld.cmpKldStat_slot, i.val), (Fld.cmpKldStat_result, i.val)]
          ∧ t = { s.asideFrom t with regs := t.regs, cmp := { s.cmp with mboxes := FMap.del i.val s.cmp.mboxes } } := by
  obtain ⟨t, hrow, hw⟩ := kld_begins hk (.inl rfl) hmay hg
  obtain ⟨u, hu, hoff, hslot, -, honly, -⟩ := s.start.kldBegun_tells (k := k) (i := i.val) (hk ▸ Nat.mod_lt _ (by decide)) i.isLt
  rw [hu] at hw
  obtain ⟨hcmp, howns, husers⟩ := kldBegun_same hoff (i := i.val) (k := k)
  have hst : (u.slot k).st = (s.slot k).st := by rw [slot, hcmp, slot]
  have hgo : u.keyGo i.val k (accIdent a) (1 == 1) = u.keyResult i.val r 0 := by
    unfold keyGo
    rw [howns, husers, hst, hcmp]
    rcases h with ⟨h, rfl⟩ | ⟨h, hbusy, rfl⟩ | ⟨h, hz, hst, hnone, rfl⟩
    · rw [h]
      rfl
    · rw [h, if_neg (by decide), if_pos hbusy]
    · rw [h, if_neg (by decide), if_neg (by simp [hz, hst]), if_neg (by decide), hnone]
  obtain ⟨w, hwu, hoffw, hbusy, hres, hslotw, honlyw⟩ := u.keyResult_tells (i := i.val) (r := r) (by omega) (by omega) 0
  rw [hgo, hwu] at hw
  have hregs : t.regs = w.regs := hw.regs
  refine ⟨t, hrow, (f_congr hregs _ _).trans hbusy, (f_congr hregs _ _).trans (hslotw.trans hslot), (f_congr hregs _ _).trans hres, ?_, ?_⟩
  · exact (kldStat_both (s := s) honly honlyw).congr hregs
  · have hkeep {y z : State} (h : y = z) := congrArg (fun y : State => { y with
      outp := t.outp, links := t.links, slowQ := t.slowQ, regs := t.regs, cmp := { s.cmp with mboxes := FMap.del i.val s.cmp.mboxes } }) h
    have hmid := hkeep hoffw
    have hlast := hkeep hoff
    have htc : t.cmp = { s.cmp with mboxes := FMap.del i.val s.cmp.mboxes } := by
      have hfirst : t.cmp = w.cmp := (congrArg State.cmp hw.answer : t.offAnswer.cmp = w.offAnswer.cmp)
      have hsecond : w.cmp = { u.cmp with mboxes := FMap.del i.val u.cmp.mboxes } := (congrArg State.cmp hoffw : w.offRegs.cmp = _)
      rw [hfirst, hsecond, hcmp]
    have hfirst := hkeep hw.answer
    have hall := hfirst.trans (hmid.trans hlast)
    exact Eq.trans (by rw [← htc]; rfl) hall

theorem keyClear_clears {s : State} {a : Acc} {i : Fin 256} {v : Word} {k : Nat} (hk : k = v.toNat % 2 ^ 12) (hmay : s.keyMay a i.val k)
    (hg : s.goesWrite a .cmpKldCmd i.val (setBits 31 30 2 v) = true) (howns : s.owns i.val 2 k = true) (husers : s.slotUsers k = 0)
    (hst : (s.slot k).st ≠ .loading) :
    ∃ t, exec (.keyClear a i v) s = .next t ∧ t.f Fld.cmpKldStat_busy i.val = 0 ∧ t.f Fld.cmpKldStat_slot i.val = k
        ∧ t.f Fld.cmpKldStat_result i.val = 1 ∧ t.slot k = {} ∧ s.sameSlotsBut t k
        ∧ s.onlyFields t [(Fld.cmpKldStat_busy, i.val), (Fld.cmpKldStat_slot, i.val), (Fld.cmpKldStat_result, i.val)]
        ∧ t = { s.asideFrom t with regs := t.regs, cmp := t.cmp } := by
  obtain ⟨t, hrow, hw⟩ := kld_begins hk (.inr rfl) hmay hg
  obtain ⟨u, hu, hoff, hslot, -, honly, -⟩ := s.start.kldBegun_tells (k := k) (i := i.val) (hk ▸ Nat.mod_lt _ (by decide)) i.isLt
  rw [hu] at hw
  obtain ⟨hcmp, howns', husers'⟩ := kldBegun_same hoff (i := i.val) (k := k)
  have hgo : u.keyGo i.val k (accIdent a) (2 == 1) = (u.modSlot k fun _ => {}).keyResult i.val 1 0 := by
    have hst' : (u.slot k).st ≠ .loading := by
      rw [slot, hcmp]
      exact hst
    unfold keyGo
    rw [howns', husers', howns, husers, if_neg (by decide), if_neg (by simp [hst']), if_pos (by decide)]
  obtain ⟨w, hwu, hoffw, hbusy, hres, hslotw, honlyw⟩ := (u.modSlot k fun _ => {}).keyResult_tells (i := i.val) (r := 1) (by decide) (by decide) 0
  rw [hgo, hwu] at hw
  have hregs : t.regs = w.regs := hw.regs
  have hslots : t.cmp.slots = (u.modSlot k fun _ => {}).cmp.slots := by
    have hfirst : t.cmp = w.cmp := (congrArg State.cmp hw.answer : t.offAnswer.cmp = w.offAnswer.cmp)
    have hsecond : w.cmp = { (u.modSlot k fun _ => {}).cmp with mboxes := FMap.del i.val (u.modSlot k fun _ => {}).cmp.mboxes } :=
      (congrArg State.cmp hoffw : w.offRegs.cmp = _)
    rw [hfirst, hsecond]
  have hof (j : Nat) : t.slot j = (u.modSlot k fun _ => {}).slot j := congrArg (FMap.get ({} : KeySlot) j) hslots
  refine ⟨t, hrow, (f_congr hregs _ _).trans hbusy, (f_congr hregs _ _).trans (hslotw.trans hslot), (f_congr hregs _ _).trans hres,
    (hof k).trans (slot_modSlot_same ..), fun j hj => ?_,
    (kldStat_both (s := s) honly (onlyFields.congr (s := u) honlyw rfl)).congr hregs, ?_⟩
  · rw [hof j, sameSlotsBut_modSlot u k _ j hj, slot, hcmp, slot]
  · have hkeep {y z : State} (h : y = z) := congrArg (fun y : State => { y with
      outp := t.outp, links := t.links, slowQ := t.slowQ, regs := t.regs, cmp := t.cmp }) h
    have hmid := hkeep hoffw
    have hlast := hkeep hoff
    exact (hkeep hw.answer).trans (hmid.trans hlast)

/-- A new mailbox that holds no grain changes no sum over the holds. -/
theorem holds_newMbox {s t : State} {i : Nat} {m : Mbox} (heq : t = { s with cmp := t.cmp })
    (hm : t.cmp.mboxes = FMap.put i m s.cmp.mboxes) (hnone : s.mbox i = none) (hold : m.hold = {}) (g : Nat × Hold → Nat) (hg : g (i, {}) = 0) :
    (t.holds.map g).sum = (s.holds.map g).sum := by
  have hperm : ((t.cmp.mboxes.map fun p => (p.1, p.2.hold)).map g).sum = ((s.cmp.mboxes.map fun p => (p.1, p.2.hold)).map g).sum := by
    rw [hm, (((FMap.put_perm m hnone).map fun p => (p.1, p.2.hold)).map g).sum_eq]
    simp [hold, hg]
  have hops : t.ops = s.ops := by rw [heq]
  have hctxs : t.ctxs = s.ctxs := by rw [heq]
  have hmgt : t.mgt = s.mgt := by rw [heq]
  have hentry (k : Nat) : t.entry k = s.entry k := by rw [heq]; rfl
  simp only [holds, List.map_append, List.sum_append, hperm, hops, hctxs, hmgt, hentry]

theorem takeHold_newMbox {s t : State} {i : Nat} {m : Mbox} (heq : t = { s with cmp := t.cmp })
    (hm : t.cmp.mboxes = FMap.put i m s.cmp.mboxes) (hnone : s.mbox i = none) (hold : m.hold = {}) (pool g : Nat) :
    t.takeHold i pool g = s.takeHold i pool g := by
  have hsum := holds_newMbox heq hm hnone hold
  have hinst (k : Nat) : t.inst k = s.inst k := by rw [heq]; rfl
  have hcap (k : Nat) : t.floorCap k = s.floorCap k := by rw [heq]; rfl
  have hland : t.landOut = s.landOut := by rw [heq]
  have huse : t.instUse i = s.instUse i := by
    rw [instUse, instUse, hinst]
    exact hsum _ (by simp)
  have hfloor : t.floorUsed pool = s.floorUsed pool := hsum _ (by simp)
  have hshared : t.sharedFree = s.sharedFree := by
    have hsh := hsum (fun h => h.2.sh) rfl
    rw [sharedFree, sharedFree, hsh, hland, funext hcap]
  rw [takeHold, takeHold, huse, hinst, takeRoom, takeRoom, hcap, hfloor, hshared]

/-- The state of a key load whose MRD goes out next: the slot is LOADING, and its mailbox holds the load. -/
def kldStarts (s : State) (i k ident : Nat) (kek : List Byte) : State :=
  let s := s.modSlot k fun x => { x with st := .loading }
  { s with cmp := { s.cmp with mboxes := FMap.put i { slot := k, ident := ident, kek := kek } s.cmp.mboxes } }

theorem kldStarts_tells (s : State) (i k ident : Nat) (kek : List Byte) :
    ∃ u, s.kldStarts i k ident kek = u ∧ u = { s with cmp := u.cmp } ∧ u.regs = s.regs ∧ u.slot k = { s.slot k with st := .loading }
      ∧ s.sameSlotsBut u k ∧ u.cmp.mboxes = FMap.put i { slot := k, ident := ident, kek := kek } s.cmp.mboxes :=
  ⟨_, rfl, rfl, rfl, s.slot_modSlot_same k fun x => { x with st := .loading }, s.sameSlotsBut_modSlot k fun x => { x with st := .loading }, rfl⟩

/-- A request that was issued as a read for one of the instances is one. -/
theorem Issues.reads {s t : State} {i vc addr n : Nat} {pur : Purpose} {tag : BitVec 16}
    (h : s.Issues t (s.route (s.instLink i)) (spanHdr vc false (s.inst i).reqId 0 addr n) false [] pur tag) : s.reads t i vc addr n pur := by
  have houtst : (t.link (s.route (s.instLink i))).outst = (s.link (s.route (s.instLink i))).outst
      ++ [reqOf tag.toNat (spanHdr vc false (s.inst i).reqId 0 addr n) false pur] := congrArg Link.outst h.link
  refine ⟨tag, h.sent, reqOf tag.toNat (spanHdr vc false (s.inst i).reqId 0 addr n) false pur, ?_, rfl, rfl⟩
  rw [houtst]
  exact List.mem_append_right _ (List.mem_singleton_self _)

/-- What a read for one of the instances rests on: the links, the instances and the link of its EVENTs. -/
theorem reads_congr {s z t : State} {i vc addr n : Nat} {pur : Purpose} (hl : z.links = s.links) (hi : z.insts = s.insts)
    (hd : z.instLink i = s.instLink i) (h : z.reads t i vc addr n pur) : s.reads t i vc addr n pur := by
  have hroute : z.route (s.instLink i) = s.route (s.instLink i) := by rw [route, link_congr hl, route]
  rw [State.reads, hd, hroute, inst_congr hi] at h
  exact h

theorem canRead_congr {s z : State} {l id addr n : Nat} (hl : z.links = s.links) (hg : s.sameGates z) (h : s.canRead l id addr n) :
    z.canRead l id addr n := by
  obtain ⟨hmoved, hout, htags, hgate⟩ := h
  have hroute : z.route l = s.route l := by rw [route, link_congr hl, route]
  have hheld : z.heldTags = s.heldTags := by simp only [heldTags, link_congr hl]
  exact ⟨by rw [hroute, link_congr hl]; exact hmoved, by rw [hroute, link_congr hl]; exact hout, by rw [hheld]; exact htags, (hg.2 ..).trans hgate⟩

/-- The MRD of a key load goes out, and its grain is held. -/
theorem keyIssue_issues {s : State} {i : Nat} {h : Hold} {m : Mbox} (hhold : s.takeHold i 11 1 = some h) (hm : s.mbox i = some m)
    (hread : s.canRead (s.instLink i) (s.inst i).reqId.toNat (128 * s.f Fld.cmpKldAddrLo_addr_lo i + 2 ^ 32 * s.f Fld.cmpKldAddrHi_addr_hi i) 72) :
    ∃ t, s.keyIssue i = t ∧ t.mbox i = some { m with hold := h } ∧ t.cmp.slots = s.cmp.slots
      ∧ s.reads t i 3 (128 * s.f Fld.cmpKldAddrLo_addr_lo i + 2 ^ 32 * s.f Fld.cmpKldAddrHi_addr_hi i) 72 (.key i)
      ∧ t = { s with links := t.links, outp := t.outp, cmp := t.cmp, freeCount := s.freeCount + 1, freeNext := t.freeNext } := by
  obtain ⟨hmoved, hout, htags, hgate⟩ := hread
  obtain ⟨u, tag, hissue, hissues⟩ := issue_issues s (h := spanHdr 3 false (s.inst i).reqId 0
    (128 * s.f Fld.cmpKldAddrLo_addr_lo i + 2 ^ 32 * s.f Fld.cmpKldAddrHi_addr_hi i) 72) (wr := false) (data := []) (pur := .key i) (inst := some i)
    hmoved hout htags hgate
  have hgo : s.keyIssue i = u.withCmp { u.cmp with mboxes := FMap.upd i (fun m => { m with hold := h }) u.cmp.mboxes } := by
    unfold keyIssue instRead
    simp only [hhold, hissue]
    rfl
  have hcmp : u.cmp = s.cmp := by rw [hissues.eq]
  refine ⟨_, hgo, ?_, (congrArg Cmp.slots hcmp : u.cmp.slots = s.cmp.slots), hissues.reads, ?_⟩
  · have hupd := find_upd_same i (fun m : Mbox => { m with hold := h }) u.cmp.mboxes
    have hfound : FMap.find i u.cmp.mboxes = some m := by rw [hcmp]; exact hm
    rw [hfound] at hupd
    exact hupd
  · exact congrArg (fun z : State => z.withCmp { u.cmp with mboxes := FMap.upd i (fun m => { m with hold := h }) u.cmp.mboxes }) hissues.eq

theorem cmpKld_floor_apart : ∀ x ∈ floorFlds, ∀ i < 4, ∀ j < 256, regOff x.id i ≠ regOff .cmpKldStat j := by
  intro x hx i hi j hj
  have hx' : x.id = .jnlLndFloor := by
    revert x
    decide
  rw [hx']
  simp only [regOff, RegId.row, Block.base]
  omega

theorem keyLoad_loads {s : State} {a : Acc} {i : Fin 256} {v : Word} {k : Nat} (hk : k = v.toNat % 2 ^ 12) (hmay : s.keyMay a i.val k)
    (hg : s.goesWrite a .cmpKldCmd i.val (setBits 31 30 1 v) = true) {kek : List Byte} {h : Hold} (howns : s.owns i.val 2 k = true)
    (husers : s.slotUsers k = 0) (hst : (s.slot k).st ≠ .loading) (hkek : FMap.find i.val s.cmp.keks = some kek) (hnone : s.mbox i.val = none)
    (hhold : s.takeHold i.val 11 1 = some h)
    (hread : s.canRead (s.instLink i.val) (s.inst i.val).reqId.toNat
            (128 * s.f Fld.cmpKldAddrLo_addr_lo i.val + 2 ^ 32 * s.f Fld.cmpKldAddrHi_addr_hi i.val) 72) :
    ∃ t, exec (.keyLoad a i v) s = .next t ∧ t.f Fld.cmpKldStat_busy i.val = 1 ∧ t.f Fld.cmpKldStat_slot i.val = k
          ∧ t.slot k = { s.slot k with st := .loading } ∧ s.sameSlotsBut t k
          ∧ t.mbox i.val = some { slot := k, ident := accIdent a, kek := kek, hold := h }
          ∧ s.reads t i.val 3 (128 * s.f Fld.cmpKldAddrLo_addr_lo i.val + 2 ^ 32 * s.f Fld.cmpKldAddrHi_addr_hi i.val) 72 (.key i.val)
          ∧ s.onlyFields t [(Fld.cmpKldStat_busy, i.val), (Fld.cmpKldStat_slot, i.val)]
          ∧ t = { s.asideFrom t with regs := t.regs, cmp := t.cmp, freeCount := s.freeCount + 1, freeNext := t.freeNext } := by
  obtain ⟨t, hrow, hw⟩ := kld_begins hk (.inl rfl) hmay hg
  obtain ⟨u, hu, hoff, hslot, hbusy, honly, hside, hgates⟩ := s.start.kldBegun_tells (k := k) (i := i.val) (hk ▸ Nat.mod_lt _ (by decide)) i.isLt
  have hfloor : ∀ x ∈ floorFlds, ∀ j < 4, u.f x j = s.f x j := fun x hx j hj => by
    have happart := cmpKld_floor_apart x hx j hj i.val i.isLt
    rw [← hu, f_setF_ne _ (x := Fld.cmpKldStat_busy) happart, f_setF_ne _ (x := Fld.cmpKldStat_slot) happart]
    rfl
  rw [hu] at hw
  obtain ⟨hcmp, howns', husers'⟩ := kldBegun_same hoff (i := i.val) (k := k)
  obtain ⟨z, hz, hzeq, hzregs, hzslot, hzoth, hzbox⟩ := u.kldStarts_tells i.val k (accIdent a) kek
  have hgo : u.keyGo i.val k (accIdent a) (1 == 1) = z.keyIssue i.val := by
    have hst' : (u.slot k).st ≠ .loading := by
      rw [slot, hcmp]
      exact hst
    unfold keyGo
    rw [howns', husers', howns, husers, if_neg (by decide), if_neg (by simp [hst']), if_neg (by decide), hcmp, hkek, ← hz]
    rfl
  have hueq := eq_of_offRegs hoff
  have htake : z.takeHold i.val 11 1 = some h := by
    have hnone' : u.mbox i.val = none := by rw [mbox, hcmp]; exact hnone
    rw [takeHold_newMbox hzeq hzbox hnone' rfl]
    have huse : u.instUse i.val = s.instUse i.val := by rw [hueq]; rfl
    have hinst : u.inst i.val = s.inst i.val := by rw [hueq]; rfl
    have hroom : u.takeRoom 11 1 = s.start.takeRoom 11 1 := takeRoom_of_regs hueq hfloor (by decide) 1
    rw [takeHold, huse, hinst, hroom]
    exact hhold
  have hzlinks : z.links = s.links := by rw [hzeq, hueq]; rfl
  have hzinsts : z.insts = s.insts := by rw [hzeq, hueq]; rfl
  have haddr (x : Fld) (hx : sideBySide x.id .cmpKldStat = true) : z.f x i.val = s.f x i.val := (f_congr hzregs _ _).trans (hside x hx)
  have hlink : z.instLink i.val = s.instLink i.val := by
    refine (f_congr hzregs _ _).trans ?_
    have happart : regOff RegId.evDest i.val ≠ regOff .cmpKldStat i.val := by
      have hlt := i.isLt
      simp only [regOff, RegId.row, Block.base]
      omega
    rw [← hu, f_setF_ne _ (x := Fld.cmpKldStat_busy) happart, f_setF_ne _ (x := Fld.cmpKldStat_slot) happart]
    rfl
  have hzg : s.sameGates z := ((sameGates_of_regs (s := s) (t := s.start) rfl rfl rfl).trans hgates).trans
    (sameGates_of_regs hzregs (by rw [hzeq]) (by rw [hzeq]))
  obtain ⟨y, hy, hbox, hslots, hreads, hyeq⟩ := keyIssue_issues (s := z) (m := { slot := k, ident := accIdent a, kek := kek }) htake (by
      rw [mbox, hzbox]
      exact FMap.find_put_same ..) (by
      rw [hlink, inst_congr hzinsts, haddr Fld.cmpKldAddrLo_addr_lo (by decide), haddr Fld.cmpKldAddrHi_addr_hi (by decide)]
      exact canRead_congr hzlinks hzg hread)
  rw [haddr Fld.cmpKldAddrLo_addr_lo (by decide), haddr Fld.cmpKldAddrHi_addr_hi (by decide)] at hreads
  rw [hgo, hy] at hw
  have hyregs : y.regs = u.regs := by rw [hyeq]; exact hzregs
  have hregs : t.regs = u.regs := hw.regs.trans hyregs
  have htc : t.cmp = y.cmp := (congrArg State.cmp hw.answer : t.offAnswer.cmp = y.offAnswer.cmp)
  have hof (j : Nat) : t.slot j = z.slot j := by rw [slot, htc, hslots, slot]
  have huslot (j : Nat) : u.slot j = s.slot j := by rw [slot, hcmp, slot]
  refine ⟨t, hrow, (f_congr hregs _ _).trans hbusy, (f_congr hregs _ _).trans hslot, ?_, fun j hj => ?_, ?_, ?_, onlyFields.congr honly hregs, ?_⟩
  · rw [hof, hzslot, huslot]
  · rw [hof, hzoth j hj, huslot]
  · rw [mbox, htc]
    exact hbox
  · obtain ⟨tag, hsent, r, hr, hrt⟩ := reads_congr hzlinks hzinsts hlink hreads
    refine ⟨tag, hw.outp hsent, r, ?_, hrt⟩
    have houtst : (t.link (s.route (s.instLink i.val))).outst = (y.link (s.route (s.instLink i.val))).outst :=
      (congrArg Link.outst (hw.rx.link _) : (t.link (s.route (s.instLink i.val))).offTx.outst = (y.link (s.route (s.instLink i.val))).offTx.outst)
    rw [houtst]
    exact hr
  · have hcount : z.freeCount = s.freeCount := by rw [hzeq, hueq]; rfl
    have hnext : t.freeNext = y.freeNext := (congrArg State.freeNext hw.answer : t.offAnswer.freeNext = y.offAnswer.freeNext)
    rw [hnext, ← hcount]
    have hkeep {x y : State} (h : x = y) := congrArg (fun x : State => { x with
      outp := t.outp, links := t.links, slowQ := t.slowQ, regs := t.regs, cmp := t.cmp }) h
    have hmid := hkeep hyeq
    have hlast {x x' : State} (h : x = x') := congrArg (fun x : State => { x with
      outp := t.outp, links := t.links, slowQ := t.slowQ, regs := t.regs, cmp := t.cmp, freeCount := z.freeCount + 1, freeNext := y.freeNext }) h
    have hz' := hlast hzeq
    have hu' := hlast hueq
    exact (hkeep hw.answer).trans (hmid.trans (hz'.trans hu'))

/-! ### The unwrapped key -/

/-- A key load that has come ends with its result, and its slot with it. -/
theorem keyUnwrap_ends {s : State} {i : Fin 256} {m : Mbox} {bs : List Byte} {g : KeySlot → KeySlot} {r : Nat} (hworks : s.works = true)
    (hm : s.mbox i.val = some m) (hgot : m.got = some (0, bs)) (hr : r < 16) (hne : r ≠ 6)
    (hstep : s.start.keyStep i.val m 0 bs = (s.start.modSlot m.slot g).keyResult i.val r 0) :
    ∃ t, exec (.keyUnwrap i) s = .next t ∧ t.slot m.slot = g (s.slot m.slot) ∧ t.f Fld.cmpKldStat_result i.val = r
      ∧ s.sameSlotsBut t m.slot ∧ t.f Fld.cmpKldStat_busy i.val = 0 ∧ t.mbox i.val = none
      ∧ s.onlyFields t [(Fld.cmpKldStat_busy, i.val), (Fld.cmpKldStat_result, i.val)] ∧ t = { s.start with regs := t.regs, cmp := t.cmp } := by
  obtain ⟨t, ht, hoff, hbusy, hres, -, honly⟩ := (s.start.modSlot m.slot g).keyResult_tells (i := i.val) hr hne 0
  have hexec : exec (.keyUnwrap i) s = .next t := by
    have hgo : ¬ (!s.start.works) = true := by
      rw [show s.start.works = true from hworks]
      decide
    refine congrArg Host.Outcome.next ((if_neg hgo).trans ?_)
    have hm' : s.start.mbox i.val = some m := hm
    simp only [hm', hgot]
    exact hstep.trans ht
  have hcmp : t.cmp = { (s.start.modSlot m.slot g).cmp with mboxes := FMap.del i.val (s.start.modSlot m.slot g).cmp.mboxes } :=
    (congrArg State.cmp hoff : t.offRegs.cmp = _)
  have hof (j : Nat) : t.slot j = (s.start.modSlot m.slot g).slot j := by rw [slot, hcmp, slot]
  refine ⟨t, hexec, (hof _).trans (slot_modSlot_same ..), hres, fun j hj => (hof j).trans (sameSlotsBut_modSlot s.start m.slot g j hj), hbusy, ?_,
    onlyFields.congr (s := s) honly rfl, ?_⟩
  · rw [mbox, hcmp]
    exact FMap.find_del_same ..
  · exact congrArg (fun y : State => { y with regs := t.regs, cmp := t.cmp }) hoff

/-- A slot after a load that failed: as it was before the load. -/
def unloaded (k : KeySlot) : KeySlot := { k with st := if k.key.isEmpty then .empty else .valid }

theorem modSlot_congr (s : State) {k : Nat} {g g' : KeySlot → KeySlot} (h : g (s.slot k) = g' (s.slot k)) : s.modSlot k g = s.modSlot k g' := by
  have hmod : FMap.mod {} k g s.cmp.slots = FMap.mod {} k g' s.cmp.slots := congrArg (fun x => FMap.set ({} : KeySlot) k x s.cmp.slots) h
  rw [modSlot, hmod, modSlot]

theorem keyFails_unloads {s : State} {i : Nat} {m : Mbox} (hm : s.mbox i = some m) (hst : (s.slot m.slot).st = .loading) (r tstat : Nat) :
    s.keyFails i r tstat = (s.modSlot m.slot unloaded).keyResult i r tstat := by
  have hmod := s.modSlot_congr (k := m.slot) (g := fun k => if k.st = .loading then { k with st := if k.key.isEmpty then .empty else .valid } else k)
    (g' := unloaded) (if_pos hst)
  unfold keyFails
  simp only [hm]
  rw [hmod]

theorem keyUnwrap_unwraps {s : State} {i : Fin 256} {m : Mbox} {bs : List Byte} (hworks : s.works = true)
    (hm : s.mbox i.val = some m) (hgot : m.got = some (0, bs)) (hst : (s.slot m.slot).st = .loading)
    (hgate : s.judge gKey m.ident (128 * m.slot) (128 * m.slot + 127) false true = .ok) :
    ∃ t, exec (.keyUnwrap i) s = .next t
      ∧ t.slot m.slot = (match keyUnwrap m.kek bs with
          | some key => if key.take 32 ≠ key.drop 32 then { st := .valid, key := key }
              else { s.slot m.slot with st := if (s.slot m.slot).key.isEmpty then .empty else .valid }
          | none => { s.slot m.slot with st := if (s.slot m.slot).key.isEmpty then .empty else .valid })
      ∧ t.f Fld.cmpKldStat_result i.val = (match keyUnwrap m.kek bs with
          | some key => if key.take 32 ≠ key.drop 32 then 1 else 8
          | none => 7)
      ∧ s.sameSlotsBut t m.slot ∧ t.f Fld.cmpKldStat_busy i.val = 0 ∧ t.mbox i.val = none
      ∧ s.onlyFields t [(Fld.cmpKldStat_busy, i.val), (Fld.cmpKldStat_result, i.val)] ∧ t = { s.start with regs := t.regs, cmp := t.cmp } := by
  have hfails (r : Nat) := keyFails_unloads (s := s.start) (i := i.val) hm hst r 0
  have hpass : s.start.gateCheck gKey m.ident (128 * m.slot) (128 * m.slot + 127) false true = (true, s.start) :=
    gateCheck_ok (((sameGates_of_regs (s := s) (t := s.start) rfl rfl rfl).2 ..).trans hgate) none none
  cases hkey : keyUnwrap m.kek bs with
  | none =>
    refine keyUnwrap_ends hworks hm hgot (by decide) (by decide) (g := unloaded) ?_
    rw [← hfails]
    unfold keyStep
    rw [if_neg (by decide), hkey]
  | some key =>
    by_cases hsame : key.take 32 = key.drop 32
    · have hnot : ¬ key.take 32 ≠ key.drop 32 := not_not.mpr hsame
      dsimp only
      rw [if_neg hnot, if_neg hnot]
      refine keyUnwrap_ends hworks hm hgot (by decide) (by decide) (g := unloaded) ?_
      rw [← hfails]
      unfold keyStep
      rw [if_neg (by decide), hkey]
      exact if_pos hsame
    · have hne : key.take 32 ≠ key.drop 32 := hsame
      dsimp only
      rw [if_pos hne, if_pos hne]
      refine keyUnwrap_ends hworks hm hgot (by decide) (by decide) (g := fun _ => { st := .valid, key := key }) ?_
      unfold keyStep
      rw [if_neg (by decide), hkey]
      dsimp only
      rw [if_neg hsame, hpass]
      rfl

end State

open State in
/-- Settles O47: the KEK commands, the commands of a mailbox up to the MRD of a load, and the unwrapped key. -/
theorem keyCommands : Obligations.KeyCommands := by
  refine ⟨fun s a v comp i hi => ⟨fun hg hlive hwhole => ?_, fun hg hbad => ?_, fun hg hlive => ?_⟩, fun s a i v k hk hmay => ⟨fun hg =>
    ⟨fun kek h howns husers hst hkek hnone hhold hread => keyLoad_loads hk hmay hg howns husers hst hkek hnone hhold hread,
      fun r h => keyLoad_fails hk hmay hg h⟩, fun hg => keyClear_clears hk hmay hg⟩,
    fun s i m bs hworks hm hgot hst hgate => keyUnwrap_unwraps hworks hm hgot hst hgate⟩
  · exact kek_runs hi (.inl rfl) hg (.inl ⟨rfl, hlive, .inr hwhole, rfl⟩)
  · obtain ⟨t, hrow, hcmp, -, hres, honly, heq⟩ := kek_runs hi (.inl rfl) hg (.inr ⟨rfl, rfl, hbad, rfl⟩)
    exact ⟨t, hrow, hcmp, hres, honly, heq⟩
  · exact kek_runs hi (.inr rfl) hg (.inl ⟨rfl, hlive, .inl rfl, rfl⟩)

end Sys2Proof.Machine
end

section
/-! PROOFS. The completion entry of a CCD (R134, R138 to R141, R173). -/

namespace Sys2Proof.Machine

namespace State

/-- The fields of a page that may have changed, among more fields of that page. -/
theorem onlyFields.page {s t : State} {k : Nat} {xs ys : List Fld} (h : s.onlyFields t (xs.map fun y => (y, k))) (hsub : xs ⊆ ys)
    (happ : ∀ x ∈ xs, fieldsApart x ys = true) : s.onlyFields t (ys.map fun y => (y, k)) :=
  h.mono (List.map_subset _ hsub) fun q hq => by
    obtain ⟨x, hx, rfl⟩ := List.mem_map.mp hq
    exact wordsApart_page (happ x hx) _

/-! ### The tail of a completion queue -/

/-- The tail of a completion queue moved on. -/
def cqMoved (s : State) (k : Nat) : State :=
  (s.setF Fld.cqTail_tail ((s.f Fld.cqTail_tail k + 1) % 2 ^ s.f Fld.qCfg_cq_size k) k).setF Fld.cqTail_phase
    (if s.f Fld.cqTail_tail k + 1 = 2 ^ s.f Fld.qCfg_cq_size k then 1 - s.f Fld.cqTail_phase k else s.f Fld.cqTail_phase k) k

theorem cqMoved_tells (s : State) (k : Nat) :
    ∃ u, s.cqMoved k = u ∧ u.offRegs = s.offRegs
      ∧ u.f Fld.cqTail_tail k = (s.f Fld.cqTail_tail k + 1) % 2 ^ s.f Fld.qCfg_cq_size k % 2 ^ 16
      ∧ u.f Fld.cqTail_phase k = (if s.f Fld.cqTail_tail k + 1 = 2 ^ s.f Fld.qCfg_cq_size k then 1 - s.f Fld.cqTail_phase k else s.f Fld.cqTail_phase k)
      ∧ (∀ y : Fld, sideBySide y.id .cqTail = true → u.f y k = s.f y k)
      ∧ s.onlyFields u ([Fld.cqTail_tail, Fld.cqTail_phase].map fun y => (y, k)) := by
  have hphase : s.f Fld.cqTail_phase k < 2 := f_lt s Fld.cqTail_phase k
  unfold cqMoved
  generalize hn : (s.f Fld.cqTail_tail k + 1) % 2 ^ s.f Fld.qCfg_cq_size k = n
  generalize hp : (if s.f Fld.cqTail_tail k + 1 = 2 ^ s.f Fld.qCfg_cq_size k then 1 - s.f Fld.cqTail_phase k else s.f Fld.cqTail_phase k) = p
  have hp2 : p < 2 := by
    rw [← hp]
    split <;> omega
  refine ⟨_, rfl, (offRegs_setF ..).trans (offRegs_setF ..), ?_, ?_, fun y hy => ?_, ?_⟩
  · simp (disch := decide) only [f_setF_apart, f_setF_same]
    rfl
  · rw [f_setF_same _ (by decide)]
    exact Nat.mod_eq_of_lt hp2
  · rw [f_setF_page _ (x := Fld.cqTail_phase) hy, f_setF_page _ (x := Fld.cqTail_tail) hy]
  · exact ((onlyFields.refl s _).setF (mem_page (xs := [Fld.cqTail_tail, Fld.cqTail_phase]) (by decide) k) (by decide) (wordsApart_page (by decide) k) n).setF
      (mem_page (xs := [Fld.cqTail_tail, Fld.cqTail_phase]) (by decide) k) (by decide) (wordsApart_page (xs := [Fld.cqTail_tail, Fld.cqTail_phase]) (by decide) k) p

/-! ### A written entry -/

/-- The Journal entry and the operation of a CCD whose completion entry has been written (R173). -/
def entryDone (s : State) (je k : Nat) : State :=
  let s := s.modQp k fun q => { q with held := q.held.erase je }
  { s.setSt je .completed with ops := FMap.del je s.ops }

theorem setSt_eq (s : State) (je : Nat) (st : JSt) : s.setSt je st = { s with jnl := (s.setSt je st).jnl, hub := (s.setSt je st).hub } := rfl

theorem entryDone_eq (s : State) (je k : Nat) : s.entryDone je k = { s with
    jnl := (s.entryDone je k).jnl, hub := (s.entryDone je k).hub, ops := FMap.del je s.ops
    qps := (s.modQp k fun q => { q with held := q.held.erase je }).qps } := by
  unfold entryDone
  dsimp only
  rw [setSt_eq]
  rfl

theorem entry_entryDone (s : State) (je k j : Nat) : (s.entryDone je k).entry j = (s.setSt je .completed).entry j := rfl

theorem entryDone_tells (s : State) {je : Nat} (k : Nat) (h : (s.entry je).st = .farDone) :
    ∃ u, s.entryDone je k = u ∧ u.regs = s.regs ∧ (u.entry je).st = .completed ∧ u.op? je = none ∧ s.sameOpsBut u je
      ∧ u.qp k = { s.qp k with held := (s.qp k).held.erase je } ∧ s.sameQpsBut u k
      ∧ u = { s with jnl := u.jnl, ops := u.ops, qps := u.qps, hub := u.hub } := by
  have hops : (s.entryDone je k).ops = FMap.del je s.ops := by rw [entryDone_eq]
  have hqps : (s.entryDone je k).qps = (s.modQp k fun q => { q with held := q.held.erase je }).qps := by rw [entryDone_eq]
  refine ⟨_, rfl, by rw [entryDone_eq], ?_, ?_, fun j hj => ⟨?_, ?_⟩, ?_, fun j hj => ?_, by rw [entryDone_eq]⟩
  · have hlisted : ∃ e, FMap.find je s.jnl.entries = some e := by
      cases hf : FMap.find je s.jnl.entries with
      | some e => exact ⟨e, rfl⟩
      | none =>
        rw [entry, FMap.get, hf] at h
        exact absurd h (by decide)
    obtain ⟨e, he⟩ := hlisted
    have hupd := find_upd_same je (fun e : JEntry => { e with st := .completed, since := s.ts }) s.jnl.entries
    rw [he] at hupd
    have hentry : (s.setSt je .completed).entry je = { e with st := .completed, since := s.ts } := congrArg (fun o : Option JEntry => o.getD {}) hupd
    rw [entry_entryDone, hentry]
  · rw [op?, hops]
    exact FMap.find_del_same ..
  · rw [entry_entryDone, entry_setSt_ne s hj]
  · rw [op?, hops]
    exact FMap.find_del_ne hj ..
  · rw [qp_congr hqps, qp_modQp_same]
  · rw [qp_congr hqps]
    exact sameQpsBut_modQp s k _ j hj

/-- A program that ends (R134, R158). -/
theorem endProgram_tells (s : State) (n k : Nat) :
    ∃ u, s.endProgram n (k / 4) (k % 4) = u ∧ u.ctx? n = none ∧ s.sameCtxsBut u n
      ∧ u.f Fld.qStat_inflight k = s.f Fld.qStat_inflight k - 1 ∧ (∀ y : Fld, sideBySide y.id .qStat = true → u.f y k = s.f y k)
      ∧ s.onlyFields u ([Fld.qStat_inflight, Fld.qStat_state].map fun y => (y, k)) ∧ u = { s with regs := u.regs, ctxs := u.ctxs, insts := u.insts } := by
  have hk : 4 * (k / 4) + k % 4 = k := by omega
  obtain ⟨w, hw, hoff, hin, hside, honly⟩ : ∃ w, (s.freeCtx n).setF Fld.qStat_inflight (s.f Fld.qStat_inflight k - 1) k = w
      ∧ w.offRegs = (s.freeCtx n).offRegs ∧ w.f Fld.qStat_inflight k = s.f Fld.qStat_inflight k - 1
      ∧ (∀ y : Fld, sideBySide y.id .qStat = true → w.f y k = s.f y k)
      ∧ s.onlyFields w ([Fld.qStat_inflight, Fld.qStat_state].map fun y => (y, k)) := by
    refine ⟨_, rfl, offRegs_setF .., ?_, fun y hy => f_setF_page _ (x := Fld.qStat_inflight) hy _ k, ?_⟩
    · rw [f_setF_same _ (by decide)]
      exact Nat.mod_eq_of_lt (Nat.lt_of_le_of_lt (Nat.sub_le ..) (f_lt s Fld.qStat_inflight k))
    · exact (onlyFields_of_regs (t := s.freeCtx n) rfl _).setF (mem_page (xs := [Fld.qStat_inflight, Fld.qStat_state]) (by decide) k) (by decide)
        (wordsApart_page (by decide) k) _
  obtain ⟨z, hz, hoffz, hinz, hsidez, honlyz⟩ : ∃ z, w.qpDrained k = z ∧ z.offRegs = w.offRegs ∧ z.f Fld.qStat_inflight k = s.f Fld.qStat_inflight k - 1
      ∧ (∀ y : Fld, sideBySide y.id .qStat = true → z.f y k = s.f y k)
      ∧ s.onlyFields z ([Fld.qStat_inflight, Fld.qStat_state].map fun y => (y, k)) := by
    unfold qpDrained
    split
    · refine ⟨_, rfl, offRegs_setF .., ?_, fun y hy => (f_setF_page w (x := Fld.qStat_state) hy 0 k).trans (hside y hy), ?_⟩
      · rw [f_setF_apart _ (x := Fld.qStat_state) (y := Fld.qStat_inflight) (by decide) rfl (by decide)]
        exact hin
      · exact honly.setF (mem_page (xs := [Fld.qStat_inflight, Fld.qStat_state]) (by decide) k) (by decide)
          (wordsApart_page (xs := [Fld.qStat_inflight, Fld.qStat_state]) (by decide) k) 0
    · exact ⟨_, rfl, rfl, hin, hside, honly⟩
  have hins := raisePass_insts z s (k / 4)
  have hrun : s.endProgram n (k / 4) (k % 4) = z.raisePass s (k / 4) := by
    unfold endProgram
    dsimp only
    rw [hk, hw, hz]
  have hregs : (z.raisePass s (k / 4)).regs = z.regs := by rw [hins]
  have hctxs : (z.raisePass s (k / 4)).ctxs = (s.freeCtx n).ctxs := by
    rw [hins]
    exact (congrArg State.ctxs (hoffz.trans hoff) : z.offRegs.ctxs = (s.freeCtx n).offRegs.ctxs)
  refine ⟨_, hrun, ?_, fun j hj => ?_, (f_congr hregs _ _).trans hinz, fun y hy => (f_congr hregs _ _).trans (hsidez y hy), honlyz.congr hregs, ?_⟩
  · rw [ctx?_congr hctxs, ctx?_freeCtx_same]
  · rw [ctx?_congr hctxs, ctx?_freeCtx_ne s hj]
  · have hkeep {x y : State} (h : x = y) := congrArg (fun x : State => { x with
      regs := (z.raisePass s (k / 4)).regs, ctxs := (z.raisePass s (k / 4)).ctxs, insts := (z.raisePass s (k / 4)).insts }) h
    have hlast := hkeep (hoffz.trans hoff)
    exact (hkeep hins).trans hlast

/-! ### What follows a completion entry -/

/-- The counts of a completion entry that is written while the CQ is not armed. -/
def entryCounted (s : State) (k : Nat) : State :=
  let s := (s.incF Fld.qCnt_ccds k).modQp k fun q => { q with n := q.n + 1 }
  s.modQp k fun q => { q with timer := q.timer || s.f Fld.cqCoal_time k != 0 }

theorem entryCounted_tells (s : State) (k : Nat) :
    ∃ u, s.entryCounted k = u ∧ u.f Fld.qCnt_ccds k = sat Fld.qCnt_ccds (s.f Fld.qCnt_ccds k + 1) ∧ (u.qp k).n = (s.qp k).n + 1 ∧ s.sameQpsBut u k
      ∧ (∀ y : Fld, sideBySide y.id .qCnt = true → u.f y k = s.f y k)
      ∧ s.onlyFields u ([Fld.qCnt_ccds].map fun y => (y, k)) ∧ u = { s with regs := u.regs, qps := u.qps } := by
  obtain ⟨w, hw, hoff, hcnt, hside, honly⟩ : ∃ w, s.incF Fld.qCnt_ccds k = w ∧ w.offRegs = s.offRegs
      ∧ w.f Fld.qCnt_ccds k = sat Fld.qCnt_ccds (s.f Fld.qCnt_ccds k + 1) ∧ (∀ y : Fld, sideBySide y.id .qCnt = true → w.f y k = s.f y k)
      ∧ s.onlyFields w ([Fld.qCnt_ccds].map fun y => (y, k)) :=
    ⟨_, rfl, offRegs_incF .., f_incF_sat _ (by decide) .., fun y hy => f_incF_page s (x := Fld.qCnt_ccds) hy 1 k,
      (onlyFields.refl s _).incF (mem_page (xs := [Fld.qCnt_ccds]) (by decide) k) (by decide) (wordsApart_page (by decide) k) 1⟩
  have hqps : w.qps = s.qps := (congrArg State.qps hoff : w.offRegs.qps = s.offRegs.qps)
  obtain ⟨g, hg⟩ : ∃ g : Qp → Qp, s.entryCounted k = (w.modQp k fun q => { q with n := q.n + 1 }).modQp k fun q => { q with timer := g q |>.timer } := by
    refine ⟨fun q => { q with timer := q.timer || (w.modQp k fun q => { q with n := q.n + 1 }).f Fld.cqCoal_time k != 0 }, ?_⟩
    unfold entryCounted
    rw [hw]
  refine ⟨_, hg, hcnt, ?_, fun j hj => ?_, hside, honly.congr rfl, ?_⟩
  · rw [qp_modQp_same, qp_modQp_same, qp_congr hqps]
  · rw [sameQpsBut_modQp _ k _ j hj, sameQpsBut_modQp w k _ j hj, qp_congr hqps]
  · exact congrArg (fun x : State => { x with
      regs := w.regs, qps := ((w.modQp k fun q => { q with n := q.n + 1 }).modQp k fun q => { q with timer := g q |>.timer }).qps }) hoff

/-- A completion entry that calls for no EVENT: the context takes the next CCD, or its program ends. -/
theorem afterEntry_quiet (s : State) {k : Nat} (n : Nat) (x : CcdX) (cstat dn : Nat) (rec : List Byte) (kind : Nat)
    (htunnel : s.fb Fld.cqCoal_tunnel k = false) (harmed : (s.qp k).armed = false) :
    s.afterEntry k n x cstat dn rec kind = if goesOn x cstat then (s.entryCounted k).modCtx n fun c => { c with
        st := .ready, slot := false, je := none, addr := c.addr + 32, jumps := 0
        span := if x.c.span then some (x.c.op, x.c.gaddr + x.c.count) else none }
      else (s.entryCounted k).endProgram n (k / 4) (k % 4) := by
  obtain ⟨w, hw, htun, harm⟩ : ∃ w, ((s.incF Fld.qCnt_ccds k).modQp k fun q => { q with n := q.n + 1 }) = w ∧ w.fb Fld.cqCoal_tunnel k = false
      ∧ (w.qp k).armed = false := by
    refine ⟨_, rfl, ?_, ?_⟩
    · have hsame : ((s.incF Fld.qCnt_ccds k).modQp k fun q => { q with n := q.n + 1 }).f Fld.cqCoal_tunnel k = s.f Fld.cqCoal_tunnel k :=
        f_incF_page s (x := Fld.qCnt_ccds) (y := Fld.cqCoal_tunnel) (by decide) 1 k
      rw [fb, hsame]
      exact htunnel
    · rw [qp_modQp_same, qp_congr (t := s.incF Fld.qCnt_ccds k) (incF_qps ..)]
      exact harmed
  have hnotun {a b c : Prop} : ¬ (a ∧ b ∧ w.fb Fld.cqCoal_tunnel k = true ∧ c) := fun h => absurd (htun.symm.trans h.2.2.1) (by decide)
  have hnoarm {a : Prop} : ¬ ((w.qp k).armed = true ∧ a) := fun h => absurd (harm.symm.trans h.1) (by decide)
  unfold afterEntry entryCounted
  dsimp only
  rw [hw, if_neg hnotun, if_neg hnoarm]

/-! ### The entry is written -/

/-- The completion entry of a CCD whose far side has ended, without POSTED (Table 6.5). -/
def entryBytes (s : State) (je k : Nat) (x : CcdX) : List Byte :=
  entryHead k x je (s.entry je).err (entryDetail x (s.entry je).err) (s.entry je).dn (hbytes x (s.entry je).progress) (s.entry je).progress
    (s.f Fld.cqTail_phase k * 2 ^ 31 + b2n (!goesOn x (s.entry je).err) * 2 ^ 30
      + b2n (x.c.span && goesOn x (s.entry je).err) * 2 ^ 29 + b2n false * 2 ^ 28
      + (if (entryRecord x false).2 = 0 then 0 else 2 ^ 27) + (if (entryRecord x false).2 = 3 then 2 ^ 26 else 0))
    ++ (entryRecord x false).1

/-- Where the next completion entry of a queue pair goes. -/
def entrySlot (s : State) (k : Nat) : Nat := s.ringBase Fld.cqBaseLo_base_lo Fld.cqBaseHi_base_hi k + 64 * s.f Fld.cqTail_tail k

theorem length_entryBytes (s : State) (je k : Nat) (x : CcdX) : (s.entryBytes je k x).length = 64 := by
  have hrec : (entryRecord x false).1.length = 32 := by
    unfold entryRecord
    rw [if_neg (by decide)]
    split
    · exact slice_length ..
    · split
      · next h => exact h
      · exact List.length_replicate
  rw [entryBytes, List.length_append, hrec]
  simp [entryHead, length_natBytes]

theorem writeEntry_runs {s : State} {je k : Nat} {x : CcdX} (hk : k = 4 * (s.entry je).inst + x.q) (hpst : x.c.pst = false)
    (hgate : s.canWrite (s.entry je).inst (s.entrySlot k) 64) :
    ∃ v, s.writeEntry je x false = ((v.cqMoved k).entryDone je k).afterEntry k x.ctx x (s.entry je).err (s.entry je).dn (entryRecord x false).1
        (entryRecord x false).2
      ∧ s.writes v (s.entry je).inst (s.entry je).vc (s.entrySlot k) (s.entryBytes je k x) ∧ v = { s with links := v.links, outp := v.outp } := by
  have hquiet : (allPlaced x && (s.entry je).err == 0) = false := by simp [allPlaced, hpst]
  have hmwr : s.instMwr (s.entry je).inst (s.entry je).vc (s.entrySlot k) (s.entryBytes je k x)
      = (true, .mwr (spanHdr (s.entry je).vc false (s.inst (s.entry je).inst).reqId 0 (s.entrySlot k) (s.entryBytes je k x).length)
          (padGranules (s.entrySlot k) (s.entryBytes je k x)), s) := by
    have hgate' : s.canWrite (s.entry je).inst (s.entrySlot k) (s.entryBytes je k x).length := by
      rw [length_entryBytes]
      exact hgate
    have hgo := gateCheck_ok hgate' (some (s.entry je).inst) none
    unfold instMwr
    dsimp only
    rw [hgo]
  generalize hp : Packet.mwr (spanHdr (s.entry je).vc false (s.inst (s.entry je).inst).reqId 0 (s.entrySlot k) (s.entryBytes je k x).length)
    (padGranules (s.entrySlot k) (s.entryBytes je k x)) = p at hmwr
  obtain ⟨q, hq, hrun⟩ : ∃ q : TxPkt, q.pkt = p ∧ s.writeEntry je x false
      = (((s.handPkt (s.instLink (s.entry je).inst) q).cqMoved k).entryDone je k).afterEntry k x.ctx x (s.entry je).err (s.entry je).dn
        (entryRecord x false).1 (entryRecord x false).2 := by
    refine ⟨{ pkt := p, frees := [je], cls := (s.entry je).cls, age := (s.srcOp 0 0 je).age, serial := (s.srcOp 0 0 je).serial }, rfl, ?_⟩
    have hregs : (s.handPkt (s.instLink (s.entry je).inst)
        { pkt := p, frees := [je], cls := (s.entry je).cls, age := (s.srcOp 0 0 je).age, serial := (s.srcOp 0 0 je).serial }).regs = s.regs :=
      (congrArg State.regs (offLinks_handPkt ..) : State.regs (offLinks _) = s.offLinks.regs)
    unfold cqMoved
    rw [f_congr hregs, f_congr hregs, f_congr hregs]
    unfold writeEntry
    dsimp only
    simp only [Bool.false_eq_true, if_false, Bool.false_or, Bool.false_and, hquiet, ← hk]
    unfold entrySlot entryBytes at hmwr
    rw [hmwr]
    exact if_neg Bool.false_ne_true
  have hsent := s.outp_handPkt (s.instLink (s.entry je).inst) q
  rw [hq] at hsent
  refine ⟨_, hrun, ?_, eq_of_offLinks (offLinks_handPkt ..)⟩
  rw [writes, hp]
  exact hsent List.mem_cons_self

/-- The context after a completion entry: it takes the next CCD, or its program ends. -/
theorem goesOn_tells (s : State) (k : Nat) (x : CcdX) (cstat : Nat) {c : Ctx} (hc : s.ctx? x.ctx = some c) :
    ∃ t, (if goesOn x cstat then s.modCtx x.ctx fun c => { c with
        st := .ready, slot := false, je := none, addr := c.addr + 32, jumps := 0
        span := if x.c.span then some (x.c.op, x.c.gaddr + x.c.count) else none }
      else s.endProgram x.ctx (k / 4) (k % 4)) = t
      ∧ (goesOn x cstat = false → t.ctx? x.ctx = none ∧ t.f Fld.qStat_inflight k = s.f Fld.qStat_inflight k - 1)
      ∧ (goesOn x cstat = true → t.f Fld.qStat_inflight k = s.f Fld.qStat_inflight k
          ∧ t.ctx? x.ctx = some { c with st := .ready, slot := false, je := none, addr := c.addr + 32, jumps := 0
                                         span := if x.c.span then some (x.c.op, x.c.gaddr + x.c.count) else none })
      ∧ s.sameCtxsBut t x.ctx ∧ (∀ y : Fld, sideBySide y.id .qStat = true → t.f y k = s.f y k)
      ∧ s.onlyFields t ([Fld.qStat_inflight, Fld.qStat_state].map fun y => (y, k)) ∧ t = { s with regs := t.regs, ctxs := t.ctxs, insts := t.insts } := by
  cases hgo : goesOn x cstat with
  | true =>
    refine ⟨_, if_pos rfl, nofun, fun _ => ⟨rfl, ?_⟩, fun j hj => ctx?_modCtx_ne s hj _, fun _ _ => rfl, onlyFields_of_regs rfl _, rfl⟩
    rw [ctx?_modCtx_same, hc]
    rfl
  | false =>
    obtain ⟨t, ht, hctx, hctxs, hin, hside, honly, heq⟩ := s.endProgram_tells x.ctx k
    exact ⟨t, (if_neg Bool.false_ne_true).trans ht, fun _ => ⟨hctx, hin⟩, nofun, hctxs, hside, honly, heq⟩

theorem completion_forms {s : State} {je k : Nat} {o : Op} {x : CcdX} {c : Ctx} (ho : s.op? je = some o) (hx : o.x = some x)
    (hkind : (s.entry je).kind = 4) (hst : (s.entry je).st = .farDone) (hdone : o.done = true) (hc : s.ctx? x.ctx = some c) (hmoving : c.moving = false)
    (hk : k = 4 * (s.entry je).inst + x.q) (hfault : s.f Fld.qStat_state k ≠ 3) (hpst : x.c.pst = false) (hwaits : s.entryWaits je = false)
    (hcls : (s.entry je).cls ≠ 0) : ∃ u : State, s.completion je = u.writeEntry je x false ∧ u = { s with hub := u.hub } := by
  obtain ⟨u, hform, hu⟩ : ∃ u : State, s.formEntry je x false = u.writeEntry je x false ∧ u = { s with hub := u.hub } := by
    obtain ⟨u, hgo, hu⟩ : ∃ u, s.formXfer (hubCluster (s.ctxEng x.ctx)) (hubLink (s.route (s.instLink (s.entry je).inst)) (hubCluster (s.ctxEng x.ctx)))
        (s.entry je).cls (s.entry je).inst (s.ctxEng x.ctx) 64 (.op je) (.entry je) = (true, u) ∧ u = { s with hub := u.hub } :=
      ⟨_, if_pos (.inl hcls), (addXfer_formed ..).2⟩
    refine ⟨u, ?_, hu⟩
    unfold formEntry
    dsimp only
    rw [hgo]
    exact if_pos rfl
  refine ⟨u, ?_, hu⟩
  have hposts : (allPlaced x && !(s.entry je).pst && (s.entry je).err == 0 && ((s.entry je).st == .admitted || (s.entry je).st == .issued)) = false := by
    simp [allPlaced, hpst]
  have hgo : ¬ ((s.entry je).kind != 4 || c.moving
      || !(((s.entry je).st == .farDone && o.done) || false) || s.entryWaits je) = true := by
    simp [hkind, hmoving, hst, hdone, hwaits]
  unfold completion
  simp only [ho, hx, hc]
  rw [hposts, if_neg hgo, ← hk, if_neg hfault, hform]

theorem completionEntry_writes {s : State} {je : Fin 4194304} {o : Op} {x : CcdX} {c : Ctx} {k tail : Nat} (hworks : s.works = true)
    (ho : s.op? je.val = some o) (hx : o.x = some x)
    (hkind : (s.entry je.val).kind = 4) (hst : (s.entry je.val).st = .farDone) (hdone : o.done = true) (hc : s.ctx? x.ctx = some c)
    (hmoving : c.moving = false) (hk : k = 4 * (s.entry je.val).inst + x.q) (htail : tail = s.f Fld.cqTail_tail k)
    (hfault : s.f Fld.qStat_state k ≠ 3) (hpst : x.c.pst = false) (htunnel : s.fb Fld.cqCoal_tunnel k = false) (harmed : (s.qp k).armed = false)
    (hwaits : s.entryWaits je.val = false) (hcls : (s.entry je.val).cls ≠ 0) (hgate : s.canWrite (s.entry je.val).inst (s.entrySlot k) 64) :
    ∃ t, exec (.completionEntry je) s = .next t
      ∧ s.writes t (s.entry je.val).inst (s.entry je.val).vc (s.entrySlot k) (s.entryBytes je.val k x)
      ∧ t.f Fld.cqTail_tail k = (tail + 1) % 2 ^ s.f Fld.qCfg_cq_size k % 2 ^ 16
      ∧ t.f Fld.cqTail_phase k = (if tail + 1 = 2 ^ s.f Fld.qCfg_cq_size k then 1 - s.f Fld.cqTail_phase k else s.f Fld.cqTail_phase k)
      ∧ (t.entry je.val).st = .completed ∧ t.op? je.val = none ∧ s.sameOpsBut t je.val
      ∧ t.f Fld.qCnt_ccds k = sat Fld.qCnt_ccds (s.f Fld.qCnt_ccds k + 1) ∧ (t.qp k).n = (s.qp k).n + 1 ∧ s.sameQpsBut t k
      ∧ (State.goesOn x (s.entry je.val).err = false → t.ctx? x.ctx = none ∧ t.f Fld.qStat_inflight k = s.f Fld.qStat_inflight k - 1)
      ∧ (State.goesOn x (s.entry je.val).err = true → t.f Fld.qStat_inflight k = s.f Fld.qStat_inflight k
          ∧ t.ctx? x.ctx = some { c with st := .ready, slot := false, je := none, addr := c.addr + 32, jumps := 0
                                         span := if x.c.span then some (x.c.op, x.c.gaddr + x.c.count) else none })
      ∧ s.sameCtxsBut t x.ctx
      ∧ s.onlyFields t ([Fld.cqTail_tail, Fld.cqTail_phase, Fld.qCnt_ccds, Fld.qStat_inflight, Fld.qStat_state].map fun y => (y, k))
      ∧ t = { s.start with regs := t.regs, ctxs := t.ctxs, qps := t.qps, jnl := t.jnl, ops := t.ops, hub := t.hub, links := t.links, outp := t.outp
                           insts := t.insts } := by
  subst htail
  obtain ⟨u, hform, hu⟩ := completion_forms (s := s.start) ho hx hkind hst hdone hc hmoving hk hfault hpst hwaits hcls
  have hur : u.regs = s.regs := by rw [hu]; rfl
  have hue : u.entry je.val = s.entry je.val := by rw [hu]; rfl
  have huw : u.canWrite (u.entry je.val).inst (u.entrySlot k) 64 := by
    have hg := (sameGates_of_regs (s := s) (t := u) hur (by rw [hu]; rfl) (by rw [hu]; rfl)).2
    have hlink : u.instLink (s.entry je.val).inst = s.instLink (s.entry je.val).inst := f_congr hur ..
    have hslot : u.entrySlot k = s.entrySlot k := by simp only [entrySlot, ringBase, f_congr hur]
    have hinst : u.inst (s.entry je.val).inst = s.inst (s.entry je.val).inst := by rw [hu]; rfl
    rw [hue, canWrite, hlink, hslot, hinst, hg]
    exact hgate
  obtain ⟨v, hwrite, hsent, hv⟩ := writeEntry_runs (s := u) (je := je.val) (k := k) (x := x) (by rw [hue]; exact hk) hpst huw
  rw [hue] at hwrite hsent
  have hvr : v.regs = s.regs := by rw [hv]; exact hur
  have hvq : v.qps = s.qps := by rw [hv, hu]; rfl
  have hvc : v.ctxs = s.ctxs := by rw [hv, hu]; rfl
  have hvo : v.ops = s.ops := by rw [hv, hu]; rfl
  have hve (j : Nat) : v.entry j = s.entry j := by rw [hv, hu]; rfl
  obtain ⟨w, hw, hoffw, htl, hph, hsidew, honlyw⟩ := v.cqMoved_tells k
  have hwq : w.qps = s.qps := (congrArg State.qps hoffw : w.offRegs.qps = v.offRegs.qps).trans hvq
  have hwc : w.ctxs = s.ctxs := (congrArg State.ctxs hoffw : w.offRegs.ctxs = v.offRegs.ctxs).trans hvc
  have hwo : w.ops = s.ops := (congrArg State.ops hoffw : w.offRegs.ops = v.offRegs.ops).trans hvo
  have hwe (j : Nat) : w.entry j = s.entry j := (entry_congr (congrArg (fun z : State => z.jnl.entries) hoffw : w.offRegs.jnl.entries = v.offRegs.jnl.entries) j).trans (hve j)
  obtain ⟨d, hd, hdr, hde, hdo, hdothers, hdq, hdqs, hdeq⟩ := w.entryDone_tells (je := je.val) k (by rw [hwe]; exact hst)
  obtain ⟨n, hn, hcnt, hnq, hnqs, hsiden, honlyn, hneq⟩ := d.entryCounted_tells k
  have hafter := d.afterEntry_quiet (k := k) x.ctx x (s.entry je.val).err (s.entry je.val).dn (entryRecord x false).1 (entryRecord x false).2 (by
      rw [fb, f_congr hdr, hsidew Fld.cqCoal_tunnel (by decide), f_congr hvr]
      exact htunnel) (by
      rw [hdq, qp_congr hwq]
      exact harmed)
  rw [hw, hd, hafter, hn] at hwrite
  have hnc : n.ctxs = s.ctxs := by rw [hneq, hdeq]; exact hwc
  obtain ⟨t, ht, hend, hgoes, hctxs, hsidet, honlyt, hteq⟩ := n.goesOn_tells k x (s.entry je.val).err (c := c) (by rw [ctx?_congr hnc]; exact hc)
  rw [ht] at hwrite
  have hexec : exec (.completionEntry je) s = .next t :=
    congrArg Host.Outcome.next ((if_pos (show s.start.works = true from hworks)).trans (hform.trans hwrite))
  have htq : t.qps = n.qps := by rw [hteq]
  have hto : t.ops = d.ops := by rw [hteq, hneq]
  have hte (j : Nat) : t.entry j = d.entry j := by rw [hteq, hneq]; rfl
  have hnin : n.f Fld.qStat_inflight k = s.f Fld.qStat_inflight k := by
    rw [hsiden Fld.qStat_inflight (by decide), f_congr hdr, hsidew Fld.qStat_inflight (by decide), f_congr hvr]
  have hnd : n.f Fld.cqTail_tail k = w.f Fld.cqTail_tail k := (hsiden Fld.cqTail_tail (by decide)).trans (f_congr hdr ..)
  have hnp : n.f Fld.cqTail_phase k = w.f Fld.cqTail_phase k := (hsiden Fld.cqTail_phase (by decide)).trans (f_congr hdr ..)
  rw [f_congr hvr, f_congr hvr] at htl
  rw [f_congr hvr, f_congr hvr, f_congr hvr] at hph
  refine ⟨t, hexec, ?_, (hsidet _ (by decide)).trans (hnd.trans htl), (hsidet _ (by decide)).trans (hnp.trans hph), ?_, ?_, fun j hj => ⟨?_, ?_⟩, ?_, ?_,
    fun j hj => ?_, fun h => ⟨(hend h).1, ?_⟩, fun h => ⟨?_, (hgoes h).2⟩, fun j hj => (hctxs j hj).trans (ctx?_congr hnc j), ?_, ?_⟩
  · have hout : t.outp = v.outp := by
      rw [hteq, hneq, hdeq]
      exact (congrArg State.outp hoffw : w.offRegs.outp = v.offRegs.outp)
    have huinst : u.inst (s.entry je.val).inst = s.inst (s.entry je.val).inst := by rw [hu]; rfl
    have hulink : u.route (u.instLink (s.entry je.val).inst) = s.route (s.instLink (s.entry je.val).inst) := by
      have hlink : u.instLink (s.entry je.val).inst = s.instLink (s.entry je.val).inst := f_congr hur ..
      have hlinks : u.links = s.links := by rw [hu]; rfl
      rw [hlink, route, link_congr hlinks, route]
    have hslot : u.entrySlot k = s.entrySlot k := by simp only [entrySlot, ringBase, f_congr hur]
    have hbytes : u.entryBytes je.val k x = s.entryBytes je.val k x := by simp only [entryBytes, f_congr hur, hue]
    rw [writes, huinst, hulink, hslot, hbytes] at hsent
    rw [writes, hout]
    exact hsent
  · rw [hte]
    exact hde
  · rw [op?_congr hto]
    exact hdo
  · rw [hte, (hdothers j hj).1, hwe]
  · rw [op?_congr hto, (hdothers j hj).2, op?_congr hwo]
  · rw [hsidet Fld.qCnt_ccds (by decide), hcnt, f_congr hdr, hsidew Fld.qCnt_ccds (by decide), f_congr hvr]
  · rw [qp_congr htq, hnq, hdq, qp_congr hwq]
  · rw [qp_congr htq, hnqs j hj, hdqs j hj, qp_congr hwq]
  · rw [(hend h).2, hnin]
  · rw [(hgoes h).1, hnin]
  · have hfirst := (onlyFields_of_regs hvr _).trans (honlyw.page (ys := [Fld.cqTail_tail, Fld.cqTail_phase, Fld.qCnt_ccds, Fld.qStat_inflight, Fld.qStat_state])
      (by decide) (by decide))
    have hsecond := (onlyFields_of_regs (s := w) hdr _).trans (honlyn.page (ys := [Fld.cqTail_tail, Fld.cqTail_phase, Fld.qCnt_ccds, Fld.qStat_inflight, Fld.qStat_state])
      (by decide) (by decide))
    exact (hfirst.trans hsecond).trans (honlyt.page (by decide) (by decide))
  · have hkeep {y z : State} (h : y = z) := congrArg (fun y : State => { y with
      regs := t.regs, ctxs := t.ctxs, qps := t.qps, jnl := t.jnl, ops := t.ops, hub := t.hub, links := t.links, outp := t.outp, insts := t.insts }) h
    have h1 := hkeep hneq
    have h2 := hkeep hdeq
    have h3 := hkeep hoffw
    have h4 := hkeep hv
    have h5 := hkeep hu
    exact (hkeep hteq).trans (h1.trans (h2.trans (h3.trans (h4.trans h5))))

end State

/-- Settles O41: the entry by its write to host memory, and what follows it by the states after each part. -/
theorem completionEntries : Obligations.CompletionEntries := by
  intro s je o x c k tail hworks ho hx hkind hst hdone hc hmoving hk htail hfault hpst htunnel harmed hwaits hcls hgate
  subst htail
  exact State.completionEntry_writes hworks ho hx hkind hst hdone hc hmoving hk rfl hfault hpst htunnel harmed hwaits hcls hgate

end Sys2Proof.Machine
end

section
/-! PROOFS. Errors in the bridge's memories and paths (R162, R175, R220, R274), and fatal errors (R273, R274, R280). -/

namespace Sys2Proof.Machine

namespace State

/-! ### Checks outside an exercise -/

theorem exUse_off {s : State} {g : Nat} (h : s.exOn g = false) : s.start.exUse g = s.start :=
  if_neg fun hon => absurd (h.symm.trans hon) (by decide)

theorem exKind_off {s : State} {g : Nat} (h : s.exOn g = false) (e : WordErr) : s.start.exKind g e = e :=
  if_neg fun hon => absurd (h.symm.trans hon) (by decide)

/-- An uncorrected source that is raised after others of the state have changed has been raised once. -/
theorem raise_afterUc {s u : State} {src : Nat} (hm : u.mode ≠ .reset) (hc : srcClass src = 2) (hmute : u.muteUc) (hflt : u.flt = s.start.flt)
    (unit : Nat) (inst je : Option Nat) (detail : Nat) :
    u.Raised (u.raise src unit inst je detail) src ∧ s.counted (u.raise src unit inst je detail) src := by
  have hraised := u.raise_silent (src := src) hm (.inr ⟨hc, hmute⟩) (by rw [hflt]; rfl) unit inst je detail
  obtain ⟨hsrc, -⟩ := hraised.counted
  refine ⟨hraised, ?_, fun h => absurd (h.symm.trans hc) (by decide)⟩
  rw [hsrc, hflt]
  rfl

/-! ### Journal words -/

theorem journalWordError_runs {s : State} (je : Fin 4194304) (w : Fin 3) (y : Byte) (e : WordErr) (hm : s.mode ≠ .reset) (hmask : s.jwMasked = false)
    (hex : s.exOn 0 = false) : exec (.journalWordError je w y e) s = .next (match e with
      | .corrected => ((s.start.incF Fld.jnlEcc_corr).subCorrected (s.jnlSub je.val w.val)).raise 0x0C0 (s.jnlSub je.val w.val) none none y.toNat
      | .uncorrectable => if (FMap.find je.val s.jnl.entries).isSome then
          (s.start.modJnl fun q => { q with uncorr := q.uncorr ++ [(je.val, w.val)] }).raise 0x0C2 (s.jnlSub je.val w.val) (some (s.entry je.val).inst)
            (some je.val) y.toNat
        else ((s.start.incF Fld.jnlEcc_uncorr_free).withholdJe je.val w.val).raise 0x0C1 (s.jnlSub je.val w.val) none none y.toNat) := by
  have hgo : ¬ (s.start.mode = .reset ∨ s.start.jwMasked = true) := by
    rintro (h | h)
    · exact hm h
    · exact absurd (hmask.symm.trans h) (by decide)
  refine congrArg Host.Outcome.next ((if_neg hgo).trans ?_)
  unfold jnlWordError
  dsimp only
  rw [exUse_off hex, exKind_off hex]
  cases e with
  | corrected => rfl
  | uncorrectable => rfl

theorem journalWord_corrects {s : State} (je : Fin 4194304) (w : Fin 3) (y : Byte) (hm : s.mode ≠ .reset) (hmask : s.jwMasked = false)
    (hex : s.exOn 0 = false) (hmute : s.mute 0x0C0 = true) :
    ∃ t, exec (.journalWordError je w y .corrected) s = .next t
            ∧ t.f Fld.jnlEcc_corr = sat Fld.jnlEcc_corr (s.f Fld.jnlEcc_corr + 1) ∧ s.counted t 0x0C0
            ∧ t.sub (s.jnlSub je.val w.val) = { s.sub (s.jnlSub je.val w.val) with ce := (s.sub (s.jnlSub je.val w.val)).ce + 1 }
            ∧ s.onlyBlocks t [.jnl, .flt] ∧ t = { s.start with bst := t.bst, regs := t.regs, flt := t.flt } := by
  obtain ⟨u, hu, hf, hflt, honly, hsub, heq⟩ : ∃ u, (s.start.incF Fld.jnlEcc_corr).subCorrected (s.jnlSub je.val w.val) = u
      ∧ u.f Fld.jnlEcc_corr = sat Fld.jnlEcc_corr (s.f Fld.jnlEcc_corr + 1) ∧ u.flt = s.start.flt ∧ s.onlyBlocks u [.jnl]
      ∧ u.sub (s.jnlSub je.val w.val) = { s.sub (s.jnlSub je.val w.val) with ce := (s.sub (s.jnlSub je.val w.val)).ce + 1 }
      ∧ u = { s.start with bst := u.bst, regs := u.regs } :=
    ⟨_, rfl, f_incF_sat s.start (by decide) .., rfl, (onlyBlocks.refl s _).incF (x := Fld.jnlEcc_corr) (b := .jnl) (by decide) (by decide) 1,
      FMap.get_mod_same ({} : Sub) _ (fun x => { x with ce := x.ce + 1 }) s.bst.subs, rfl⟩
  have hmu : u.mode ≠ .reset := by rw [heq]; exact hm
  obtain ⟨hraised, hcounted⟩ := raise_after (s := s) hmu (by decide) hmute hflt honly (by decide) (s.jnlSub je.val w.val) none none y.toNat
  refine ⟨_, journalWordError_runs je w y .corrected hm hmask hex, ?_⟩
  rw [hu]
  generalize u.raise 0x0C0 (s.jnlSub je.val w.val) none none y.toNat = t at hraised hcounted
  have hbst : t.bst = u.bst := by rw [hraised.eq]
  refine ⟨(hraised.only.f_eq (x := Fld.jnlEcc_corr) (b := .jnl) (by decide) (by decide)).trans hf, hcounted, ?_,
    (honly.mono (by simp)).trans (hraised.only.mono (by simp)), ?_⟩
  · rw [sub, hbst]
    exact hsub
  · rw [hbst]
    exact hraised.eq.trans (congrArg (fun z : State => { z with regs := t.regs, flt := t.flt }) heq)

theorem journalWord_withholds {s : State} (je : Fin 4194304) (w : Fin 3) (y : Byte) (hm : s.mode ≠ .reset) (hmask : s.jwMasked = false)
    (hex : s.exOn 0 = false) (hfree : FMap.find je.val s.jnl.entries = none) (hres : FMap.find je.val s.jnl.reserved = none)
    (hmute : s.mute 0x0C1 = true) :
    ∃ t, exec (.journalWordError je w y .uncorrectable) s = .next t
            ∧ t.f Fld.jnlEcc_uncorr_free = sat Fld.jnlEcc_uncorr_free (s.f Fld.jnlEcc_uncorr_free + 1) ∧ s.counted t 0x0C1
            ∧ t.jnl = { s.jnl with withheld := s.jnl.withheld ++ [(je.val, w.val)], uncorr := s.jnl.uncorr ++ [(je.val, w.val)] }
            ∧ t.jeFree je.val = false ∧ s.onlyBlocks t [.jnl, .flt] ∧ t = { s.start with jnl := t.jnl, regs := t.regs, flt := t.flt } := by
  have hnone : (s.start.incF Fld.jnlEcc_uncorr_free).withholdJe je.val w.val = (s.start.incF Fld.jnlEcc_uncorr_free).modJnl fun j => { j with
      withheld := j.withheld ++ [(je.val, w.val)], uncorr := j.uncorr ++ [(je.val, w.val)] } := by
    have hres' : FMap.find je.val ((s.start.incF Fld.jnlEcc_uncorr_free).modJnl fun j => { j with
      withheld := j.withheld ++ [(je.val, w.val)], uncorr := j.uncorr ++ [(je.val, w.val)] }).jnl.reserved = none := hres
    unfold withholdJe
    simp only [hres']
  obtain ⟨u, hu, hf, hflt, honly, hjnl, heq⟩ : ∃ u, (s.start.incF Fld.jnlEcc_uncorr_free).withholdJe je.val w.val = u
      ∧ u.f Fld.jnlEcc_uncorr_free = sat Fld.jnlEcc_uncorr_free (s.f Fld.jnlEcc_uncorr_free + 1) ∧ u.flt = s.start.flt ∧ s.onlyBlocks u [.jnl]
      ∧ u.jnl = { s.jnl with withheld := s.jnl.withheld ++ [(je.val, w.val)], uncorr := s.jnl.uncorr ++ [(je.val, w.val)] }
      ∧ u = { s.start with jnl := u.jnl, regs := u.regs } :=
    ⟨_, hnone, f_incF_sat s.start (by decide) .., rfl, (onlyBlocks.refl s _).incF (x := Fld.jnlEcc_uncorr_free) (b := .jnl) (by decide) (by decide) 1,
      rfl, rfl⟩
  have hmu : u.mode ≠ .reset := by rw [heq]; exact hm
  obtain ⟨hraised, hcounted⟩ := raise_after (s := s) hmu (by decide) hmute hflt honly (by decide) (s.jnlSub je.val w.val) none none y.toNat
  refine ⟨_, (journalWordError_runs je w y .uncorrectable hm hmask hex).trans (congrArg Host.Outcome.next (if_neg (by simp [hfree]))), ?_⟩
  rw [hu]
  generalize u.raise 0x0C1 (s.jnlSub je.val w.val) none none y.toNat = t at hraised hcounted
  have htj : t.jnl = u.jnl := by rw [hraised.eq]
  refine ⟨(hraised.only.f_eq (x := Fld.jnlEcc_uncorr_free) (b := .jnl) (by decide) (by decide)).trans hf, hcounted, htj.trans hjnl, ?_,
    (honly.mono (by simp)).trans (hraised.only.mono (by simp)), ?_⟩
  · rw [jeFree, htj, hjnl]
    simp
  · rw [htj]
    exact hraised.eq.trans (congrArg (fun z : State => { z with regs := t.regs, flt := t.flt }) heq)

/-! ### Landing words -/

theorem landingWordError_runs {s : State} (u : Fin 1056) (je : Option (Fin 4194304)) (y : Byte) (e : WordErr) (hm : s.mode ≠ .reset)
    (hex : s.exOn 1 = false) : exec (.landingWordError u je y e) s = .next (match e with
      | .corrected => ((s.start.incF Fld.jnlLndEcc_corr).subCorrected u.val).raise 0x0E0 u.val none none y.toNat
      | .uncorrectable => match je with
        | some j => if ((s.start.incF Fld.jnlLndEcc_uncorr).op? j.val).isSome then
              (if (s.start.incF Fld.jnlLndEcc_uncorr).works then (s.start.incF Fld.jnlLndEcc_uncorr).poisonOp j.val
                else s.start.incF Fld.jnlLndEcc_uncorr).raise 0x0E1 u.val ((s.start.incF Fld.jnlLndEcc_uncorr).instOf j.val) (some j.val) y.toNat
            else (s.start.incF Fld.jnlLndEcc_uncorr).raise 0x0E2 u.val none none y.toNat
        | none => ({ s.start.incF Fld.jnlLndEcc_uncorr with landOut := s.landOut ++ [u.val] } : State).raise 0x0E2 u.val none none y.toNat) := by
  refine congrArg Host.Outcome.next ((if_neg (show ¬ s.start.mode = .reset from hm)).trans ?_)
  unfold landWordError
  dsimp only
  rw [exUse_off hex, exKind_off hex]
  cases e with
  | corrected => rfl
  | uncorrectable => cases je <;> rfl

theorem landingWord_corrects {s : State} (u : Fin 1056) (je : Option (Fin 4194304)) (y : Byte) (hm : s.mode ≠ .reset) (hex : s.exOn 1 = false)
    (hmute : s.mute 0x0E0 = true) :
    ∃ t, exec (.landingWordError u je y .corrected) s = .next t
            ∧ t.f Fld.jnlLndEcc_corr = sat Fld.jnlLndEcc_corr (s.f Fld.jnlLndEcc_corr + 1) ∧ s.counted t 0x0E0 ∧ s.onlyBlocks t [.jnl, .flt]
            ∧ t = { s.start with bst := t.bst, regs := t.regs, flt := t.flt } := by
  obtain ⟨w, hw, hf, hflt, honly, heq⟩ : ∃ w, (s.start.incF Fld.jnlLndEcc_corr).subCorrected u.val = w
      ∧ w.f Fld.jnlLndEcc_corr = sat Fld.jnlLndEcc_corr (s.f Fld.jnlLndEcc_corr + 1) ∧ w.flt = s.start.flt ∧ s.onlyBlocks w [.jnl]
      ∧ w = { s.start with bst := w.bst, regs := w.regs } :=
    ⟨_, rfl, f_incF_sat s.start (by decide) .., rfl, (onlyBlocks.refl s _).incF (x := Fld.jnlLndEcc_corr) (b := .jnl) (by decide) (by decide) 1, rfl⟩
  obtain ⟨hraised, hcounted⟩ := raise_after (s := s) (u := w) (by rw [heq]; exact hm) (by decide) hmute hflt honly (by decide) u.val none none y.toNat
  refine ⟨_, landingWordError_runs u je y .corrected hm hex, ?_⟩
  rw [hw]
  generalize w.raise 0x0E0 u.val none none y.toNat = t at hraised hcounted
  have hbst : t.bst = w.bst := by rw [hraised.eq]
  refine ⟨(hraised.only.f_eq (x := Fld.jnlLndEcc_corr) (b := .jnl) (by decide) (by decide)).trans hf, hcounted,
    (honly.mono (by simp)).trans (hraised.only.mono (by simp)), ?_⟩
  rw [hbst]
  exact hraised.eq.trans (congrArg (fun z : State => { z with regs := t.regs, flt := t.flt }) heq)

theorem landingWord_withholds {s : State} (u : Fin 1056) (y : Byte) (hm : s.mode ≠ .reset) (hex : s.exOn 1 = false)
    (hmute : s.mute 0x0E2 = true) :
    ∃ t, exec (.landingWordError u none y .uncorrectable) s = .next t
            ∧ t.f Fld.jnlLndEcc_uncorr = sat Fld.jnlLndEcc_uncorr (s.f Fld.jnlLndEcc_uncorr + 1) ∧ s.counted t 0x0E2
            ∧ t.landOut = s.landOut ++ [u.val] ∧ s.onlyBlocks t [.jnl, .flt]
            ∧ t = { s.start with landOut := t.landOut, regs := t.regs, flt := t.flt } := by
  obtain ⟨w, hw, hf, hflt, honly, hland, heq⟩ : ∃ w, ({ s.start.incF Fld.jnlLndEcc_uncorr with landOut := s.landOut ++ [u.val] } : State) = w
      ∧ w.f Fld.jnlLndEcc_uncorr = sat Fld.jnlLndEcc_uncorr (s.f Fld.jnlLndEcc_uncorr + 1) ∧ w.flt = s.start.flt ∧ s.onlyBlocks w [.jnl]
      ∧ w.landOut = s.landOut ++ [u.val] ∧ w = { s.start with landOut := w.landOut, regs := w.regs } :=
    ⟨_, rfl, f_incF_sat s.start (by decide) .., rfl, (onlyBlocks.refl s _).incF (x := Fld.jnlLndEcc_uncorr) (b := .jnl) (by decide) (by decide) 1,
      rfl, rfl⟩
  obtain ⟨hraised, hcounted⟩ := raise_after (s := s) (u := w) (by rw [heq]; exact hm) (by decide) hmute hflt honly (by decide) u.val none none y.toNat
  refine ⟨_, landingWordError_runs u none y .uncorrectable hm hex, ?_⟩
  dsimp only
  rw [hw]
  generalize w.raise 0x0E2 u.val none none y.toNat = t at hraised hcounted
  have htl : t.landOut = w.landOut := by rw [hraised.eq]
  refine ⟨(hraised.only.f_eq (x := Fld.jnlLndEcc_uncorr) (b := .jnl) (by decide) (by decide)).trans hf, hcounted, htl.trans hland,
    (honly.mono (by simp)).trans (hraised.only.mono (by simp)), ?_⟩
  rw [htl]
  exact hraised.eq.trans (congrArg (fun z : State => { z with regs := t.regs, flt := t.flt }) heq)

/-! ### Table words, Hub flits and data stores -/

theorem startRaise_silent {s : State} {src : Nat} (hm : s.mode ≠ .reset) (hq : s.silent src) (unit : Nat) (inst je : Option Nat) (detail : Nat) :
    s.counted (s.start.raise src unit inst je detail) src ∧ s.onlyBlocks (s.start.raise src unit inst je detail) [.flt]
      ∧ s.start.raise src unit inst je detail = { s.start with
        regs := (s.start.raise src unit inst je detail).regs, flt := (s.start.raise src unit inst je detail).flt } := by
  have hr := s.start.raise_silent (src := src) hm hq rfl unit inst je detail
  exact ⟨hr.counted, hr.only, hr.eq⟩

theorem tableWordError_runs {s : State} (tb : Tbl) (i : BitVec 18) (y : Byte) (e : WordErr) (hm : s.mode ≠ .reset) (hex : s.exOn 2 = false) :
    exec (.tableWordError tb i y e) s = .next (match tb, e with
      | .wtt, .corrected => s.start.raise 0x062 0 none none y.toNat
      | .dvt, .corrected => s.start.raise 0x062 1 none none y.toNat
      | .wtt, .uncorrectable => (s.start.modTbl fun u => { u with wttBad := u.wttBad ++ [i.toNat] }).raise 0x063 0 none none y.toNat
      | .dvt, .uncorrectable => (s.start.modTbl fun u => { u with dvtBad := u.dvtBad ++ [i.toNat] }).raise 0x063 1 none none y.toNat) := by
  refine congrArg Host.Outcome.next ((if_neg (show ¬ s.start.mode = .reset from hm)).trans ?_)
  unfold tblWordError
  dsimp only
  cases tb <;> cases e <;> rw [exUse_off hex, exKind_off hex] <;> rfl

theorem tableWord_corrects {s : State} (tb : Tbl) (i : BitVec 18) (y : Byte) (hm : s.mode ≠ .reset) (hex : s.exOn 2 = false)
    (hmute : s.mute 0x062 = true) :
    ∃ t, exec (.tableWordError tb i y .corrected) s = .next t ∧ s.counted t 0x062 ∧ s.onlyBlocks t [.flt]
            ∧ t = { s.start with regs := t.regs, flt := t.flt } := by
  have hr (k : Nat) := startRaise_silent (src := 0x062) hm (.inl ⟨by decide, hmute⟩) k none none y.toNat
  refine ⟨_, tableWordError_runs tb i y .corrected hm hex, ?_⟩
  cases tb with
  | wtt => exact hr 0
  | dvt => exact hr 1

theorem tableWord_spoils {s : State} (tb : Tbl) (i : BitVec 18) (y : Byte) (hm : s.mode ≠ .reset) (hex : s.exOn 2 = false) (hmute : s.muteUc) :
    ∃ t, exec (.tableWordError tb i y .uncorrectable) s = .next t ∧ s.counted t 0x063 ∧ s.onlyBlocks t [.flt]
            ∧ t.tbl = (match tb with
                | .wtt => { s.tbl with wttBad := s.tbl.wttBad ++ [i.toNat] }
                | .dvt => { s.tbl with dvtBad := s.tbl.dvtBad ++ [i.toNat] })
            ∧ t = { s.start with tbl := t.tbl, regs := t.regs, flt := t.flt } := by
  have hr (g : Tables → Tables) (k : Nat) := raise_afterUc (s := s) (u := s.start.modTbl g) (src := 0x063) hm (by decide) hmute rfl k none none y.toNat
  refine ⟨_, tableWordError_runs tb i y .uncorrectable hm hex, ?_⟩
  cases tb with
  | wtt =>
    obtain ⟨hraised, hcounted⟩ := hr (fun u => { u with wttBad := u.wttBad ++ [i.toNat] }) 0
    have htbl := congrArg State.tbl hraised.eq
    refine ⟨hcounted, hraised.only, htbl, ?_⟩
    exact hraised.eq.trans (by rw [htbl]; rfl)
  | dvt =>
    obtain ⟨hraised, hcounted⟩ := hr (fun u => { u with dvtBad := u.dvtBad ++ [i.toNat] }) 1
    have htbl := congrArg State.tbl hraised.eq
    refine ⟨hcounted, hraised.only, htbl, ?_⟩
    exact hraised.eq.trans (by rw [htbl]; rfl)

theorem hubFlitError_runs {s : State} (o : Fin 24) (je : Option (Fin 4194304)) (y : Byte) (e : WordErr) (hm : s.mode ≠ .reset)
    (hex : s.exOn 3 = false) (h : e = .corrected ∨ je = none) :
    exec (.hubFlitError o je y e) s = .next (s.start.raise (match e with | .corrected => 0x160 | .uncorrectable => 0x161) o.val none none y.toNat) := by
  refine congrArg Host.Outcome.next ((if_neg (show ¬ s.start.mode = .reset from hm)).trans ?_)
  unfold flitError
  dsimp only
  rw [exUse_off hex, exKind_off hex]
  cases e with
  | corrected => rfl
  | uncorrectable =>
    obtain rfl : je = none := h.resolve_left (by simp)
    rfl

theorem dataStoreCorrection_corrects {s : State} (e : Fin 104) (hworks : s.works = true)
    (hrole : (s.eng e.val).role = .active ∨ (s.eng e.val).role = .retired ∨ (s.ctxsOf e.val) ≠ []) (hex : s.exOn 4 = false)
    (hmute : s.mute 0x081 = true) :
    ∃ t, exec (.dataStoreCorrection e) s = .next t ∧ t.f Fld.engCnt_ds_corr = sat Fld.engCnt_ds_corr (s.f Fld.engCnt_ds_corr + 1)
          ∧ s.counted t 0x081 ∧ s.onlyBlocks t [.eng, .flt]
          ∧ t = { s.start with regs := t.regs, flt := t.flt, freeCount := t.freeCount, freeNext := t.freeNext } := by
  have hm : s.mode ≠ .reset := not_reset_of_works hworks
  obtain ⟨u, hu, hf, hflt, honly, heq⟩ : ∃ u, s.start.incF Fld.engCnt_ds_corr = u
      ∧ u.f Fld.engCnt_ds_corr = sat Fld.engCnt_ds_corr (s.f Fld.engCnt_ds_corr + 1) ∧ u.flt = s.start.flt ∧ s.onlyBlocks u [.eng]
      ∧ u = { s.start with regs := u.regs } :=
    ⟨_, rfl, f_incF_sat s.start (by decide) .., rfl, (onlyBlocks.refl s _).incF (x := Fld.engCnt_ds_corr) (b := .eng) (by decide) (by decide) 1, rfl⟩
  obtain ⟨hraised, hcounted⟩ := raise_after (s := s) (u := u) (by rw [heq]; exact hm) (by decide) hmute hflt honly (by decide) e.val none none
    (s.start.free % 256)
  have hgo : s.start.works = true ∧ ((s.start.eng e.val).role = .active ∨ (s.start.eng e.val).role = .retired
      ∨ (!(s.start.ctxsOf e.val).isEmpty) = true) := by
    refine ⟨hworks, hrole.imp_right (Or.imp_right fun h => ?_)⟩
    rw [Bool.not_eq_true', List.isEmpty_eq_false_iff]
    exact h
  have hrun : exec (.dataStoreCorrection e) s = .next (u.raise 0x081 e.val none none (s.start.free % 256)).draw := by
    refine congrArg Host.Outcome.next ((if_pos hgo).trans ?_)
    rw [dsRepair, exUse_off hex, hu]
  refine ⟨_, hrun, (hraised.only.f_eq (x := Fld.engCnt_ds_corr) (b := .eng) (by decide) (by decide)).trans hf, hcounted,
    (honly.mono (by simp)).trans (hraised.only.mono (by simp)), ?_⟩
  generalize u.raise 0x081 e.val none none (s.start.free % 256) = t at hraised
  have hkeep {x y : State} (h : x = y) := congrArg (fun z : State => { z with
    regs := t.regs, flt := t.flt, freeCount := t.draw.freeCount, freeNext := t.draw.freeNext }) h
  have hlast := hkeep heq
  exact (hkeep hraised.eq).trans hlast

/-! ### Fatal errors -/

theorem fatal_halts {s u t : State} {src : Nat} (h : u.Halts t src) (hu : u = { s.start with jnl := u.jnl }) (he : u.jnl.entries = s.jnl.entries) :
    t.mode = .halt ∧ t.phase = .steady ∧ t.f Fld.fltHalt_valid = 1 ∧ t.f Fld.fltHalt_src = src ∧ s.counted t src
          ∧ t.f Fld.fltCntFt_count = sat Fld.fltCntFt_count (s.f Fld.fltCntFt_count + 1) ∧ t.f Fld.fltHighest_class = 3
          ∧ t.pair Fld.fltHaltTsLo_ts Fld.fltHaltTsHi_ts = s.ts % 2 ^ 64
          ∧ t.cmp.keks = [] ∧ t.cmp.slots = [] ∧ t.cmp.staged = [] ∧ t.cmp.mboxes = [] ∧ t.f Fld.gateDbgUnlock_unlock = 0 ∧ t.f Fld.gateDbgStat_unlocked = 0
          ∧ t.flt.aliveRun = false ∧ (∀ p ∈ t.ports, p.2.st ≠ .train)
          ∧ t.img.fatals.length = min 64 (s.img.fatals.length + 1) ∧ t.img.fatalNext = (s.img.fatalNext + 1) % 64
          ∧ t.jnl.entries = s.jnl.entries ∧ t.ops = s.ops ∧ t.ctxs = s.ctxs ∧ t.insts = s.insts := by
  have hoff := h.off
  have hregs : u.regs = s.regs := by rw [hu]; rfl
  have hflt : u.flt = s.start.flt := by rw [hu]
  have hts : u.ts = s.ts := by rw [hu]; rfl
  have himg : u.img = s.img := by rw [hu]; rfl
  obtain ⟨hsrc, hce⟩ := h.counted
  refine ⟨h.mode, h.phase, h.valid, h.named, ⟨?_, fun hone => ?_⟩, ?_, h.highest, ?_, by rw [h.cmp], by rw [h.cmp], by rw [h.cmp], by rw [h.cmp],
    h.unlock, h.unlocked, h.alive, h.ports, ?_, ?_, ?_, ?_, ?_, ?_⟩
  · rw [hsrc, hflt]
    rfl
  · rw [hce hone, f_congr hregs]
  · rw [h.fatal, f_congr hregs]
  · rw [h.time, hts]
  · rw [h.fatals, himg]
  · rw [h.fatalNext, himg]
  · have hj : t.jnl = u.jnl := (congrArg State.jnl hoff : t.offHalt.jnl = u.offHalt.jnl)
    rw [hj, he]
  · have ho : t.ops = u.ops := (congrArg State.ops hoff : t.offHalt.ops = u.offHalt.ops)
    rw [ho, hu]
    rfl
  · have hc : t.ctxs = u.ctxs := (congrArg State.ctxs hoff : t.offHalt.ctxs = u.offHalt.ctxs)
    rw [hc, hu]
    rfl
  · have hi : t.insts = u.insts := (congrArg State.insts hoff : t.offHalt.insts = u.offHalt.insts)
    rw [hi, hu]
    rfl

/-- What each fatal error raises. -/
theorem fatal_raises {s : State} {c : Instr} {src : Nat} (hm : s.mode ≠ .reset)
    (hc : c = .configRegisterParityError ∧ src = 0x001 ∧ s.exOn 11 = false ∨ (∃ o, c = .arbiterParityError o) ∧ src = 0x162
            ∨ c = .faultCollectorParityError ∧ src = 0x1E0
            ∨ (∃ (je : Fin 4194304) (w : Fin 3) (y : Byte), c = .journalWordError je w y .uncorrectable ∧ FMap.find je.val s.jnl.entries ≠ none)
                ∧ s.jwMasked = false ∧ s.exOn 0 = false ∧ src = 0x0C2) :
    srcClass src = 3 ∧ ∃ u unit inst je detail, exec c s = .next (State.raise u src unit inst je detail) ∧ u = { s.start with jnl := u.jnl }
      ∧ u.jnl.entries = s.jnl.entries := by
  rcases hc with ⟨rfl, rfl, hex⟩ | ⟨⟨o, rfl⟩, rfl⟩ | ⟨rfl, rfl⟩ | ⟨⟨je, w, y, rfl, hlisted⟩, hmask, hex, rfl⟩
  · refine ⟨by decide, s.start, 0, none, none, 0, ?_, rfl, rfl⟩
    exact congrArg (fun z : State => Host.Outcome.next (z.raise 0x001)) (exUse_off hex)
  · exact ⟨by decide, s.start, o.val, none, none, 0, rfl, rfl, rfl⟩
  · exact ⟨by decide, s.start, 0, none, none, 0, rfl, rfl, rfl⟩
  · refine ⟨by decide, s.start.modJnl fun q => { q with uncorr := q.uncorr ++ [(je.val, w.val)] }, _, _, _, _,
      (journalWordError_runs je w y .uncorrectable hm hmask hex).trans (congrArg Host.Outcome.next (if_pos ?_)), rfl, rfl⟩
    exact Option.isSome_iff_ne_none.mpr hlisted

theorem fatalError_halts {s : State} {c : Instr} {src : Nat} (hm : s.mode ≠ .reset) (hh : s.mode ≠ .halt) (hv : s.fb Fld.fltHalt_valid = false)
    (hc : c = .configRegisterParityError ∧ src = 0x001 ∧ s.exOn 11 = false ∨ (∃ o, c = .arbiterParityError o) ∧ src = 0x162
            ∨ c = .faultCollectorParityError ∧ src = 0x1E0
            ∨ (∃ (je : Fin 4194304) (w : Fin 3) (y : Byte), c = .journalWordError je w y .uncorrectable ∧ FMap.find je.val s.jnl.entries ≠ none)
                ∧ s.jwMasked = false ∧ s.exOn 0 = false ∧ src = 0x0C2) :
    ∃ t u : State, exec c s = .next t ∧ u.Halts t src ∧ u = { s.start with jnl := u.jnl } ∧ u.jnl.entries = s.jnl.entries := by
  obtain ⟨hclass, u, unit, inst, je, detail, hexec, hu, he⟩ := fatal_raises hm hc
  have hmode : u.mode = s.mode := by rw [hu]; rfl
  have hregs : u.regs = s.regs := by rw [hu]; rfl
  exact ⟨_, u, hexec, u.raise_fatal hclass (by rw [hmode]; exact hm) (by rw [hmode]; exact hh) (by rw [fb, f_congr hregs]; exact hv) unit inst je detail,
    hu, he⟩

end State

end Sys2Proof.Machine
end

section
/-! PROOFS. The far side of a direct operation ends: its failure, and its completion (R169, R172, R173). -/

namespace Sys2Proof.Machine

namespace State

/-! ### One operation changes -/

/-- Of all Journal entries and operations one pair alone has changed, the Hub's transfers, and the queues of the ports. -/
structure OneOp (s t : State) (je : Nat) : Prop where
  others : s.sameOpsBut t je
  eq : t = { s with jnl := t.jnl, ops := t.ops, hub := t.hub, ports := t.ports }

theorem OneOp.refl (s : State) (je : Nat) : s.OneOp s je := ⟨fun _ _ => ⟨rfl, rfl⟩, rfl⟩

theorem OneOp.trans {s t u : State} {je : Nat} (h : s.OneOp t je) (h' : t.OneOp u je) : s.OneOp u je := by
  refine ⟨fun j hj => ⟨(h'.others j hj).1.trans (h.others j hj).1, (h'.others j hj).2.trans (h.others j hj).2⟩, ?_⟩
  have hkeep {x y : State} (h : x = y) := congrArg (fun z : State => { z with jnl := u.jnl, ops := u.ops, hub := u.hub, ports := u.ports }) h
  have hlast := hkeep h.eq
  exact (hkeep h'.eq).trans hlast

theorem oneOp_modOp (s : State) (je : Nat) (g : Op → Op) : s.OneOp (s.modOp je g) je :=
  ⟨fun _ hj => ⟨rfl, op?_modOp_ne s hj g⟩, rfl⟩

theorem oneOp_modEntry (s : State) (je : Nat) (g : JEntry → JEntry) : s.OneOp (s.modEntry je g) je :=
  ⟨fun _ hj => ⟨entry_modEntry_ne s hj g, rfl⟩, rfl⟩

theorem oneOp_setSt (s : State) (je : Nat) (st : JSt) : s.OneOp (s.setSt je st) je :=
  ⟨fun _ hj => ⟨entry_setSt_ne s hj st, rfl⟩, setSt_eq ..⟩

theorem oneOp_of_eq {s t : State} {je : Nat} (h : t = { s with hub := t.hub, ports := t.ports }) : s.OneOp t je := by
  refine ⟨fun j _ => ⟨?_, ?_⟩, ?_⟩
  · rw [h]
    rfl
  · rw [h]
    rfl
  · exact congrArg (fun z : State => { z with jnl := t.jnl, ops := t.ops, hub := t.hub, ports := t.ports }) h

theorem listed_of_ne {s : State} {je : Nat} (h : s.entry je ≠ {}) : ∃ e, FMap.find je s.jnl.entries = some e := by
  cases hf : FMap.find je s.jnl.entries with
  | some e => exact ⟨e, rfl⟩
  | none => exact absurd (by rw [entry, FMap.get, hf]; rfl) h

theorem entry_setSt_same {s : State} {je : Nat} (h : s.entry je ≠ {}) (st : JSt) :
    (s.setSt je st).entry je = { s.entry je with st := st, since := s.ts } := by
  obtain ⟨e, he⟩ := listed_of_ne h
  have hupd := find_upd_same je (fun e : JEntry => { e with st := st, since := s.ts }) s.jnl.entries
  rw [he] at hupd
  have hnew : (s.setSt je st).entry je = { e with st := st, since := s.ts } := congrArg (fun o : Option JEntry => o.getD {}) hupd
  have hold : s.entry je = e := congrArg (fun o : Option JEntry => o.getD {}) he
  rw [hnew, hold]

/-! ### A failure -/

/-- The operation once a failure is recorded (R169). -/
def failed (s : State) (o : Op) (f : Fail) (gaddr : Nat) (rec : List Byte) : Op :=
  { o with failNo := if o.failNo = 0 then s.jnl.fails + 1 else o.failNo, failG := some gaddr, failTs := s.ts, fst := failStatus f, status := rec }

theorem numberFail_numbers {s : State} {je : Nat} {o : Op} (ho : s.op? je = some o) :
    (s.numberFail je).entry je = s.entry je ∧ (s.numberFail je).op? je = some { o with failNo := if o.failNo = 0 then s.jnl.fails + 1 else o.failNo }
      ∧ s.OneOp (s.numberFail je) je := by
  refine ⟨rfl, ?_, fun j hj => ⟨rfl, op?_modOp_ne s hj _⟩, rfl⟩
  have hsame := s.op?_modOp_same je fun o => if o.failNo = 0 then { o with failNo := s.jnl.fails + 1 } else o
  rw [ho] at hsame
  refine hsame.trans (congrArg some ?_)
  dsimp only
  split <;> rfl

theorem fail_records {s : State} {je : Nat} {o : Op} (ho : s.op? je = some o) (herr : (s.entry je).err = 0) (f : Fail)
    (detail gaddr : Nat) (rec : List Byte) :
    ∃ t, s.fail je f detail gaddr rec = t ∧ t.entry je = { s.entry je with err := failCode (s.entry je).kind f }
      ∧ t.op? je = some { s.failed o f gaddr rec with x := o.x.map fun x => { x with detail := detail } } ∧ s.OneOp t je := by
  have hgo : ¬ ((s.entry je).err ≠ 0 ∨ (s.op? je).isNone = true) := by simp [herr, ho]
  obtain ⟨u, hu, hue, huo, huf, hone⟩ : ∃ u, s.modEntry je (fun e => { e with err := failCode e.kind f }) = u
      ∧ u.entry je = { s.entry je with err := failCode (s.entry je).kind f } ∧ u.op? je = some o ∧ u.jnl.fails = s.jnl.fails ∧ s.OneOp u je := by
    refine ⟨_, rfl, ?_, ho, rfl, oneOp_modEntry ..⟩
    rw [entry_modEntry_same]
    simp [JEntry.stamp]
  obtain ⟨hwe, hwo, hone'⟩ := numberFail_numbers huo
  have hts : (u.numberFail je).ts = s.ts := by rw [(hone.trans hone').eq]
  have hrun : s.fail je f detail gaddr rec = ((u.numberFail je).modOp je fun o =>
      { o with failG := some gaddr, failTs := s.ts, fst := failStatus f, status := rec }).modX je fun x => { x with detail := detail } := by
    unfold fail
    dsimp only
    rw [if_neg hgo, hu, hts]
  generalize u.numberFail je = w at hrun hwe hwo hone' hts
  refine ⟨_, hrun, hwe.trans hue, ?_, ((hone.trans hone').trans (oneOp_modOp ..)).trans (oneOp_modOp ..)⟩
  have hfirst := w.op?_modOp_same je fun o => { o with failG := some gaddr, failTs := s.ts, fst := failStatus f, status := rec }
  have hsecond := (w.modOp je fun o => { o with failG := some gaddr, failTs := s.ts, fst := failStatus f, status := rec }).op?_modOp_same je
    fun o => { o with x := o.x.map fun x => { x with detail := detail } }
  rw [hfirst, hwo, huf] at hsecond
  exact hsecond

theorem fail_fails {s : State} {je : Nat} {o : Op} (ho : s.op? je = some o) (hx : o.x = none) (herr : (s.entry je).err = 0) (f : Fail)
    (detail gaddr : Nat) (rec : List Byte) :
    ∃ t, s.fail je f detail gaddr rec = t ∧ t.entry je = { s.entry je with err := failCode (s.entry je).kind f }
      ∧ t.op? je = some (s.failed o f gaddr rec) ∧ s.OneOp t je := by
  obtain ⟨t, hrun, hent, hop, hone⟩ := fail_records ho herr f detail gaddr rec
  refine ⟨t, hrun, hent, hop.trans (congrArg some ?_), hone⟩
  simp [failed, hx]

/-! ### The completion of a request -/

/-- A completion that is committed (R173). -/
theorem finishCpl_completes {s : State} {je : Nat} {o : Op} {h : ReqHdr} (ho : s.op? je = some o) (hh : o.hdr = some h) (hctx : o.ctx = none)
    (hl : s.entry je ≠ {}) :
    ∃ t, s.finishCpl je = t ∧ .packet (s.route (s.entry je).link) (s.opCpl h (s.entry je) o) ∈ t.outp
      ∧ t.entry je = { s.entry je with st := .completed, since := s.ts } ∧ t.op? je = none ∧ s.sameOpsBut t je ∧ s.outp ⊆ t.outp
      ∧ s.SameRx t ∧ t = { s with jnl := t.jnl, ops := t.ops, hub := t.hub, links := t.links, outp := t.outp } := by
  obtain ⟨u, hu, hue, huo, huothers, hueq⟩ : ∃ u, ({ s.setSt je .completed with ops := FMap.del je s.ops } : State) = u
      ∧ u.entry je = { s.entry je with st := .completed, since := s.ts } ∧ u.op? je = none ∧ s.sameOpsBut u je
      ∧ u = { s with jnl := u.jnl, ops := u.ops, hub := u.hub } := by
    refine ⟨_, rfl, entry_setSt_same hl .completed, FMap.find_del_same .., fun j hj => ⟨entry_setSt_ne s hj .completed, FMap.find_del_ne hj ..⟩, ?_⟩
    rw [setSt_eq]
  obtain ⟨p, hp, hrun⟩ : ∃ p : TxPkt, p.pkt = s.opCpl h (s.entry je) o ∧ s.finishCpl je = u.handPkt (s.entry je).link p := by
    refine ⟨{ pkt := s.opCpl h (s.entry je) o, frees := [je], cls := (s.entry je).cls, age := o.age, serial := (s.entry je).serial }, rfl, ?_⟩
    unfold finishCpl freeOpCtx
    simp only [ho, hh, hctx]
    rw [← hu]
    rfl
  have hlinks : u.links = s.links := by rw [hueq]
  have houtu : u.outp = s.outp := by rw [hueq]
  have hroute : u.route (s.entry je).link = s.route (s.entry je).link := by rw [route, link_congr hlinks, route]
  have hsent := u.outp_handPkt (s.entry je).link p
  rw [hp, hroute, houtu] at hsent
  have hoff := u.offLinks_handPkt (s.entry je).link p
  have hrx := u.sameRx_handPkt (s.entry je).link p
  generalize u.handPkt (s.entry je).link p = t at hrun hsent hoff hrx
  have hj : t.jnl = u.jnl := (congrArg State.jnl hoff : t.offLinks.jnl = u.offLinks.jnl)
  have hops : t.ops = u.ops := (congrArg State.ops hoff : t.offLinks.ops = u.offLinks.ops)
  have hent (k : Nat) : t.entry k = u.entry k := entry_congr (congrArg Jnl.entries hj) k
  refine ⟨t, hrun, hsent List.mem_cons_self, (hent je).trans hue, (op?_congr hops je).trans huo,
    fun k hk => ⟨(hent k).trans (huothers k hk).1, (op?_congr hops k).trans (huothers k hk).2⟩,
    fun x hx => hsent (List.mem_cons_of_mem _ hx), (sameRx_of_links hlinks).trans hrx, ?_⟩
  have hkeep {x y : State} (h : x = y) := congrArg (fun z : State => { z with
    jnl := t.jnl, ops := t.ops, hub := t.hub, links := t.links, outp := t.outp }) h
  have hlast := hkeep hueq
  exact (hkeep hoff).trans hlast

/-- What the end of a direct request leaves: its completion has gone to Thaty egress, and its entry is COMPLETED. -/
structure Completes (s t : State) (je : Nat) (h : ReqHdr) (o : Op) : Prop where
  sent : .packet (s.route (s.entry je).link) (s.opCpl h (s.entry je) o) ∈ t.outp
  entry : t.entry je = { s.entry je with st := .completed, since := s.ts }
  op : t.op? je = none
  others : s.sameOpsBut t je
  outp : s.outp ⊆ t.outp
  rx : s.SameRx t

theorem oweCpl_completes {s : State} {je : Nat} {o : Op} {h : ReqHdr} (ho : s.op? je = some o) (hh : o.hdr = some h) (hctx : o.ctx = none)
    (hl : s.entry je ≠ {}) (hcls : (s.entry je).cls ≠ 0) :
    ∃ t, s.oweCpl je (s.entry je) o = t ∧ s.Completes t je h o
      ∧ t = { s with jnl := t.jnl, ops := t.ops, hub := t.hub, links := t.links, outp := t.outp } := by
  have hmod := (s.setSt je .farDone).op?_modOp_same je fun o => { o with done := true, cur := none, stop := true }
  have hops : (s.setSt je .farDone).op? je = some o := ho
  rw [hops] at hmod
  have hent : ((s.setSt je .farDone).modOp je fun o => { o with done := true, cur := none, stop := true }).entry je
      = { s.entry je with st := .farDone, since := s.ts } := entry_setSt_same hl .farDone
  have hone : s.OneOp ((s.setSt je .farDone).modOp je fun o => { o with done := true, cur := none, stop := true }) je :=
    (oneOp_setSt s je .farDone).trans (oneOp_modOp ..)
  have hports : ((s.setSt je .farDone).modOp je fun o => { o with done := true, cur := none, stop := true }).ports = s.ports := rfl
  obtain ⟨w, hw, hwe, hwo, hwone, hwports⟩ : ∃ w, s.oweCpl je (s.entry je) o = w.finishCpl je ∧ w.entry je = { s.entry je with st := .farDone, since := s.ts }
      ∧ w.op? je = some { o with done := true, cur := none, stop := true } ∧ s.OneOp w je ∧ w.ports = s.ports := by
    unfold oweCpl
    dsimp only
    generalize (s.setSt je .farDone).modOp je (fun o => { o with done := true, cur := none, stop := true }) = u at hmod hent hone hports
    obtain ⟨v, hv, hveq⟩ : ∃ v, u.formXfer (if (s.entry je).kind < 2 then hubSpoke o.port else hubLanding)
        (hubLink (u.route (s.entry je).link) (if (s.entry je).kind < 2 then hubSpoke o.port else hubLanding)) (s.entry je).cls (s.entry je).inst
        (if (s.entry je).kind < 2 then o.port else (s.entry je).inst)
        (if (s.entry je).err = 0 ∧ !o.wr then o.cut.n else if (s.entry je).err = 3 then 32 else 0) (.op je) (.cpl je) = (true, v)
          ∧ v = { u with hub := v.hub } := ⟨_, if_pos (.inl hcls), (addXfer_formed ..).2⟩
    rw [hv]
    refine ⟨v, if_pos rfl, ?_, ?_, hone.trans (oneOp_of_eq ?_), ?_⟩
    · rw [hveq]
      exact hent
    · rw [hveq]
      exact hmod
    · exact congrArg (fun z : State => { z with hub := v.hub, ports := v.ports }) hveq
    · rw [hveq]
      exact hports
  obtain ⟨t, ht, hsent, hte, hto, hothers, houtp, hrx, hteq⟩ := finishCpl_completes hwo hh hctx (by
    rw [hwe]
    intro heq
    have hst : JSt.farDone = JSt.free := congrArg JEntry.st heq
    exact absurd hst (by decide))
  have hweq : w = { s with jnl := w.jnl, ops := w.ops, hub := w.hub } := by
    have h := hwone.eq
    rw [hwports] at h
    exact h
  have hlinks : w.links = s.links := by rw [hweq]
  have hts : w.ts = s.ts := by rw [hweq]
  have hcpl : w.opCpl h (w.entry je) { o with done := true, cur := none, stop := true } = s.opCpl h (s.entry je) o := by
    rw [hwe, hweq]
    rfl
  have hroute : w.route (w.entry je).link = s.route (s.entry je).link := by rw [hwe, route, link_congr hlinks, route]
  rw [hcpl, hroute] at hsent
  refine ⟨t, hw.trans ht, ⟨hsent, ?_, hto, fun j hj => ⟨(hothers j hj).1.trans (hwone.others j hj).1, (hothers j hj).2.trans (hwone.others j hj).2⟩, ?_,
    (sameRx_of_links hlinks).trans hrx⟩, ?_⟩
  · rw [hte, hwe, hts]
  · have hout : w.outp = s.outp := by rw [hweq]
    rw [← hout]
    exact houtp
  · have hkeep {x y : State} (h : x = y) := congrArg (fun z : State => { z with
      jnl := t.jnl, ops := t.ops, hub := t.hub, links := t.links, outp := t.outp }) h
    have hlast := hkeep hweq
    exact (hkeep hteq).trans hlast

theorem farEnd_completes {s : State} {je : Nat} {o : Op} {h : ReqHdr} (ho : s.op? je = some o) (hh : o.hdr = some h) (hctx : o.ctx = none)
    (hsilent : o.silent = false) (hkind : (s.entry je).kind < 2) (hpst : (s.entry je).pst = false) (hl : s.entry je ≠ {})
    (hcls : (s.entry je).cls ≠ 0) :
    ∃ t, s.farEnd je = t ∧ s.Completes t je h o
      ∧ t = { s.dequeueOp je o.port with jnl := t.jnl, ops := t.ops, hub := t.hub, links := t.links, outp := t.outp } := by
  obtain ⟨t, ht, hc, heq⟩ := oweCpl_completes (s := s.dequeueOp je o.port) ho hh hctx hl hcls
  refine ⟨t, ?_, ⟨hc.sent, hc.entry, hc.op, hc.others, hc.outp, ⟨hc.rx.link⟩⟩, heq⟩
  unfold farEnd
  simp only [ho]
  have hent : (s.dequeueOp je o.port).entry je = s.entry je := rfl
  have hkind4 : ¬ (s.entry je).kind = 4 := by omega
  have hlt : (s.entry je).kind < 4 := by omega
  rw [hent, hsilent, hpst, if_neg Bool.false_ne_true, if_neg hkind4, if_neg Bool.false_ne_true, if_pos hlt]
  exact ht

end State

end Sys2Proof.Machine
end

section
/-! PROOFS. An uncorrectable word in a direct operation's data ends it with POISONED (R220). -/

namespace Sys2Proof.Machine

namespace State

/-- The state of an operation that is stopped, with its transfers and exchanges taken away. -/
theorem stopped_tells {s : State} {je : Nat} {o : Op} (p : Nat) (ho : s.op? je = some o) :
    ∃ t, (((s.withdraw [je]).dequeueOp je p).modOp je fun o => { o with cur := none }) = t ∧ t.entry je = s.entry je
      ∧ t.op? je = some { o with cur := none } ∧ s.OneOp t je := by
  obtain ⟨w, hw, hwe, hwo, heq⟩ : ∃ w, (s.withdraw [je]).dequeueOp je p = w ∧ w.entry je = s.entry je ∧ w.op? je = s.op? je
      ∧ w = { s with hub := w.hub, ports := w.ports } := ⟨_, rfl, rfl, rfl, rfl⟩
  have hsame := w.op?_modOp_same je fun o => { o with cur := none }
  rw [hwo, ho] at hsame
  exact ⟨_, congrArg (fun z : State => z.modOp je fun o => { o with cur := none }) hw, hwe, hsame, (oneOp_of_eq heq).trans (oneOp_modOp ..)⟩

/-- A direct operation that is poisoned with no piece open ends with status POISONED. -/
theorem poisonOp_completes {s : State} {je : Nat} {o : Op} {h : ReqHdr} (hd : s.directOp je o h) (hdone : o.done = false)
    (hopen : s.pieceOpen je o = false) :
    ∃ t, s.poisonOp je = t ∧ .packet (s.route (s.entry je).link) (.cpl (s.cplHdr h 5 0) []) ∈ t.outp ∧ (t.entry je).err = 5
      ∧ (t.entry je).st = .completed ∧ t.op? je = none ∧ s.sameOpsBut t je
      ∧ t = { s with jnl := t.jnl, ops := t.ops, hub := t.hub, links := t.links, outp := t.outp, ports := t.ports } := by
  obtain ⟨ho, hh, hx, hsilent, hctx, hkind, hpst, hcls, herr⟩ := hd
  obtain ⟨u, hu, hue, huo, hone⟩ := fail_fails ho hx herr .ps 0 (s.failAt o) s.psRecord
  have hcode : failCode (s.entry je).kind .ps = 5 := if_pos (by omega)
  rw [hcode] at hue
  obtain ⟨v, hv, hve, hvo, hvone⟩ : ∃ v, (u.modOp je fun o => { o with stop := true }) = v ∧ v.entry je = u.entry je
      ∧ v.op? je = some { s.failed o .ps (s.failAt o) s.psRecord with stop := true } ∧ s.OneOp v je := by
    have hstop := u.op?_modOp_same je fun o => { o with stop := true }
    rw [huo] at hstop
    exact ⟨_, rfl, rfl, hstop, hone.trans (oneOp_modOp ..)⟩
  obtain ⟨z, hz', hze', hzo, hzone⟩ := stopped_tells o.port hvo
  have hz := hvone.trans hzone
  have hze : z.entry je = { s.entry je with err := 5 } := hze'.trans (hve.trans hue)
  have hrun : s.poisonOp je = z.farEnd je := by
    have hclosed : ¬ v.pieceOpen je o = true := by
      have hd : v.daddrs = s.daddrs := by rw [hvone.eq]
      have hsame : v.pieceOpen je o = s.pieceOpen je o := by rw [pieceOpen, daddr, hd, pieceOpen, daddr]
      rw [hsame, hopen]
      exact Bool.false_ne_true
    have hnot5 : ¬ (5 ≤ (s.entry je).kind ∧ o.wr = true ∧ (s.entry je).st = .admitted ∧ o.data.isEmpty = true) := by omega
    have hnot6 : ¬ ((s.entry je).kind = 5 ∨ (s.entry je).kind = 6) := by omega
    unfold poisonOp
    simp only [ho]
    rw [hdone, if_neg Bool.false_ne_true, if_neg hnot5, if_neg hnot6, hu, hv, if_neg hclosed, hz']
  obtain ⟨t, ht, hc, heq⟩ := farEnd_completes hzo hh hctx hsilent (by rw [hze]; exact hkind) (by rw [hze]; exact hpst) (by
      rw [hze]
      intro h
      have herr5 : 5 = 0 := congrArg JEntry.err h
      exact absurd herr5 (by decide)) (by rw [hze]; exact hcls)
  have hlinks : z.links = s.links := by rw [hz.eq]
  have hregs : z.regs = s.regs := by rw [hz.eq]
  have hroute : z.route (z.entry je).link = s.route (s.entry je).link := by rw [hze, route, link_congr hlinks, route]
  have hcpl : z.opCpl h (z.entry je) { s.failed o .ps (s.failAt o) s.psRecord with stop := true, cur := none } = .cpl (s.cplHdr h 5 0) [] := by
    have hhdr : z.cplHdr h 5 0 = s.cplHdr h 5 0 := by
      rw [cplHdr, bridgeId, f_congr hregs]
      rfl
    rw [hze]
    exact congrArg (Packet.cpl · []) hhdr
  have hsent := hc.sent
  rw [hroute, hcpl] at hsent
  refine ⟨t, hrun.trans ht, hsent, ?_, ?_, hc.op, fun j hj => ⟨(hc.others j hj).1.trans (hz.others j hj).1, (hc.others j hj).2.trans (hz.others j hj).2⟩, ?_⟩
  · rw [hc.entry, hze]
  · rw [hc.entry]
  · have hkeep {x y : State} (h : x = y) := congrArg (fun x : State => { x with
      jnl := t.jnl, ops := t.ops, hub := t.hub, links := t.links, outp := t.outp, ports := t.ports }) h
    have hlast := hkeep hz.eq
    exact (hkeep heq).trans hlast

theorem landingWord_poisons {s : State} (u : Fin 1056) (je : Fin 4194304) (y : Byte) {o : Op} {h : ReqHdr} (hm : s.mode ≠ .reset) (hex : s.exOn 1 = false)
    (hworks : s.works = true) (hd : s.directOp je.val o h) (hdone : o.done = false) (hopen : s.pieceOpen je.val o = false) (hmute : s.muteUc) :
    ∃ t, exec (.landingWordError u (some je) y .uncorrectable) s = .next t
            ∧ .packet (s.route (s.entry je.val).link) (.cpl (s.cplHdr h 5 0) []) ∈ t.outp ∧ (t.entry je.val).err = 5
            ∧ (t.entry je.val).st = .completed ∧ t.op? je.val = none ∧ s.sameOpsBut t je.val ∧ s.counted t 0x0E1 := by
  obtain ⟨w, hw, hflt, honly, heq⟩ : ∃ w, s.start.incF Fld.jnlLndEcc_uncorr = w ∧ w.flt = s.start.flt ∧ s.onlyBlocks w [.jnl]
      ∧ w = { s.start with regs := w.regs } :=
    ⟨_, rfl, rfl, (onlyBlocks.refl s _).incF (x := Fld.jnlLndEcc_uncorr) (b := .jnl) (by decide) (by decide) 1, rfl⟩
  have hwd : w.directOp je.val o h := by rw [heq]; exact hd
  have hwopen : w.pieceOpen je.val o = false := by rw [heq]; exact hopen
  have hww : w.works = true := by rw [heq]; exact hworks
  have hwop : (w.op? je.val).isSome = true := by
    rw [hwd.1]
    rfl
  obtain ⟨z, hz, hsent, herr, hst, hop, hothers, hzeq⟩ := poisonOp_completes hwd hdone hwopen
  have hrun := landingWordError_runs u (some je) y .uncorrectable hm hex
  dsimp only at hrun
  rw [hw, if_pos hwop, if_pos hww, hz] at hrun
  have hzr : z.regs = w.regs := by rw [hzeq]
  have hmutez : z.muteUc := by
    refine muteUc_of_onlyBlocks hmute ?_ fun k => ?_
    · rw [f_congr hzr]
      exact honly.f_eq (x := Fld.fltEvDest_en) (b := .flt) (by decide) (by decide)
    · rw [reg_congr hzr, ← hw]
      exact reg_setF_ne s.start (x := Fld.jnlLndEcc_uncorr) (regOff_ne_of_lt (by decide) k) _
  obtain ⟨hraised, hcounted⟩ := raise_afterUc (s := s) (u := z) (src := 0x0E1) (by
      rw [hzeq, heq]
      exact hm) (by decide) hmutez (by rw [hzeq]; exact hflt) u.val (w.instOf je.val) (some je.val) y.toNat
  generalize z.raise 0x0E1 u.val (w.instOf je.val) (some je.val) y.toNat = t at hrun hraised hcounted
  have hte (j : Nat) : t.entry j = z.entry j := by rw [hraised.eq]; rfl
  have hto (j : Nat) : t.op? j = z.op? j := by rw [hraised.eq]; rfl
  have hwe (j : Nat) : w.entry j = s.entry j := by rw [heq]; rfl
  have hwo (j : Nat) : w.op? j = s.op? j := by rw [heq]; rfl
  have hroute : w.route (w.entry je.val).link = s.route (s.entry je.val).link := by rw [heq]; rfl
  have hhdr : w.cplHdr h 5 0 = s.cplHdr h 5 0 := by
    have hid : w.bridgeId = s.bridgeId := by
      rw [bridgeId, honly.f_eq (b := .tlk) (by decide) (by decide), bridgeId]
    rw [cplHdr, hid, cplHdr]
  rw [hroute, hhdr] at hsent
  refine ⟨t, hrun, ?_, ?_, ?_, ?_, fun j hj => ⟨?_, ?_⟩, hcounted⟩
  · rw [hraised.outp]
    exact hsent
  · rw [hte, herr]
  · rw [hte, hst]
  · rw [hto, hop]
  · rw [hte, (hothers j hj).1, hwe]
  · rw [hto, (hothers j hj).2, hwo]

end State

open State in
/-- Settles O58: each error by what it changes before its source is raised, and a fatal one by what HALT leaves. -/
theorem memoryAndFatalErrors : Obligations.MemoryAndFatalErrors := by
  refine ⟨⟨fun s je w y hm hmask hex => ⟨journalWord_corrects je w y hm hmask hex, journalWord_withholds je w y hm hmask hex⟩,
    fun s u y hm hex => ⟨fun je => landingWord_corrects u je y hm hex, landingWord_withholds u y hm hex,
      fun je o h hworks hd hdone hopen hmute => landingWord_poisons u je y hm hex hworks hd hdone hopen hmute⟩,
    fun s i y tb hm hex => ⟨tableWord_corrects tb i y hm hex, tableWord_spoils tb i y hm hex⟩,
    fun s o y hm hex => ⟨fun je hmute => ?_, fun hmute => ?_⟩,
    fun s e hworks hrole hex hmute => dataStoreCorrection_corrects e hworks hrole hex hmute⟩, fun s c src hm hh hv hc => ?_⟩
  · exact ⟨_, hubFlitError_runs o je y .corrected hm hex (.inl rfl), startRaise_silent (src := 0x160) hm (.inl ⟨by decide, hmute⟩) o.val none none y.toNat⟩
  · exact ⟨_, hubFlitError_runs o none y .uncorrectable hm hex (.inr rfl),
      startRaise_silent (src := 0x161) hm (.inr ⟨by decide, hmute⟩) o.val none none y.toNat⟩
  · obtain ⟨t, u, hexec, hhalts, hu, he⟩ := fatalError_halts hm hh hv hc
    exact ⟨t, hexec, fatal_halts hhalts hu he⟩

end Sys2Proof.Machine
end

section
/-! PROOFS. A CORE cycle of the Hub (R182, R187, R192) and an ENG cycle of an engine (R158, R159). -/

namespace Sys2Proof.Machine

namespace State

/-! ### An issue cycle -/

@[simp] theorem raiseIssue_win (e : Eng) (now : List Nat) : (raiseIssue e now).win = e.win := by
  unfold raiseIssue
  split <;> rfl

/-- The only ready context issues, whatever its class. -/
theorem issueCycle_issues {s : State} {k n : Nat} {c : Ctx} (h : (s.ctxsOf k).filter (fun x => s.ctxReady x.2) = [(n, c)]) :
    ∃ e, s.issueCycle k = (some n, (s.modEng k fun _ => e).modInst c.inst fun i =>
      { i with dispPass := i.dispPass + 65536 / (s.inst c.inst).weight, cycles := (i.cycles + 1) % 2 ^ 64 }) := by
  unfold issueCycle
  rw [h]
  cases hc : s.ctxCls c == 0 with
  | true => exact ⟨_, by simp only [List.filter_cons, hc, bne, Bool.not_true]; simp; rfl⟩
  | false => exact ⟨_, by simp only [List.filter_cons, hc, bne, Bool.not_false]; simp; rfl⟩

theorem issueCycle_idles {s : State} {k : Nat} (h : (s.ctxsOf k).filter (fun x => s.ctxReady x.2) = []) :
    ∃ e, s.issueCycle k = (none, s.modEng k fun _ => e) ∧ e.win = winTrim 16000 (winPush 0 (s.eng k).win) := by
  unfold issueCycle
  rw [h]
  exact ⟨_, by simp [issueFirst]; rfl, by simp⟩

theorem engExercise_off {s : State} (h4 : s.exOn 4 = false) (h5 : s.exOn 5 = false) (h6 : s.exOn 6 = false) (k n : Nat) : s.engExercise k n = s := by
  unfold engExercise
  cases s.ctx? n with
  | none => rfl
  | some c => simp [h4, h5, h6]

theorem engineIssueCycle_runs {s : State} (e : Fin 104) (hw : s.works = true) (hmask : s.engMasked e.val = false) (hd : s.mode ≠ .doze) :
    exec (.engineIssueCycle e) s = .next (match (s.start.issueCycle e.val).1 with
      | some n => (s.start.issueCycle e.val).2.engExercise e.val n
      | none => (s.start.issueCycle e.val).2) :=
  congrArg Host.Outcome.next (if_pos ⟨hw, (show (!s.engMasked e.val) = true by rw [hmask]; rfl), hd⟩)

theorem engineIssueCycle_issues {s : State} (e : Fin 104) (hw : s.works = true) (hmask : s.engMasked e.val = false) (hd : s.mode ≠ .doze)
    (h4 : s.exOn 4 = false) (h5 : s.exOn 5 = false) (h6 : s.exOn 6 = false) {n : Nat} {c : Ctx}
    (h : (s.ctxsOf e.val).filter (fun x => s.ctxReady x.2) = [(n, c)]) :
    ∃ t, exec (.engineIssueCycle e) s = .next t
            ∧ t.inst c.inst = { s.inst c.inst with
                dispPass := (s.inst c.inst).dispPass + 65536 / (s.inst c.inst).weight, cycles := ((s.inst c.inst).cycles + 1) % 2 ^ 64 }
            ∧ s.sameInstsBut t c.inst ∧ (∀ k, k ≠ e.val → t.eng k = s.eng k) ∧ t = { s.start with engs := t.engs, insts := t.insts } := by
  obtain ⟨eng, hrun⟩ := s.start.issueCycle_issues h
  have hex : (s.start.issueCycle e.val).2.engExercise e.val n = (s.start.issueCycle e.val).2 :=
    engExercise_off (by rw [hrun]; exact h4) (by rw [hrun]; exact h5) (by rw [hrun]; exact h6) e.val n
  refine ⟨(s.start.issueCycle e.val).2, (s.engineIssueCycle_runs e hw hmask hd).trans (congrArg Host.Outcome.next ?_), ?_⟩
  · rw [hrun] at hex ⊢
    exact hex
  · rw [hrun]
    exact ⟨inst_modInst_same .., fun j hj => inst_modInst_ne _ hj _, fun k hk => by exact s.start.eng_modEng_ne hk fun _ => eng, rfl⟩

theorem engineIssueCycle_idles {s : State} (e : Fin 104) (hw : s.works = true) (hmask : s.engMasked e.val = false) (hd : s.mode ≠ .doze)
    (h : (s.ctxsOf e.val).filter (fun x => s.ctxReady x.2) = []) :
    ∃ t, exec (.engineIssueCycle e) s = .next t ∧ (t.eng e.val).win = winTrim 16000 (winPush 0 (s.eng e.val).win)
            ∧ (∀ k, k ≠ e.val → t.eng k = s.eng k) ∧ t = { s.start with engs := t.engs } := by
  obtain ⟨eng, hrun, hwin⟩ := s.start.issueCycle_idles h
  refine ⟨s.start.modEng e.val fun _ => eng, (s.engineIssueCycle_runs e hw hmask hd).trans (congrArg Host.Outcome.next ?_), ?_,
    fun k hk => s.start.eng_modEng_ne hk _, rfl⟩
  · rw [hrun]
  · rw [eng_modEng_same, hwin]
    rfl

/-! ### The outputs of the Hub -/

/-- The registers at an output's cycle: a dead cycle is counted. -/
def deadSeen (s : State) (o : Nat) : State := if (FMap.get {} o s.hub.outs).dead then s.incF Fld.hubDeadCnt_dead else s

theorem deadSeen_onlyBlocks (s : State) (o : Nat) : s.onlyBlocks (s.deadSeen o) [.hub] := by
  unfold deadSeen
  split
  · exact onlyBlocks_incF s (b := .hub) (by decide) (by decide) 1
  · exact .refl s _

theorem deadSeen_eq (s : State) (o : Nat) : s.deadSeen o = { s with regs := (s.deadSeen o).regs } := by
  unfold deadSeen
  split <;> rfl

/-- Whether a state differs from another in the Hub alone. -/
def sameButHub (s t : State) : Prop := t = { s with hub := t.hub }

theorem sameButHub_modHub {s t : State} (h : s.sameButHub t) (g : Hub → Hub) : s.sameButHub (t.modHub g) := by
  have hkeep := congrArg (fun w : State => ({ w with hub := g t.hub } : State)) h
  exact hkeep

theorem sameButHub_ite {s t u : State} {c : Prop} [Decidable c] (ht : s.sameButHub t) (hu : s.sameButHub u) : s.sameButHub (if c then t else u) := by
  split
  · exact ht
  · exact hu

/-- A cycle at an output changes the Hub, and at most counts a dead cycle. -/
theorem hubOut_counts (s : State) (v o : Nat) : (s.deadSeen o).sameButHub (s.hubOut v o) := by
  unfold hubOut
  dsimp only
  rw [← deadSeen]
  have hj : (s.deadSeen o).sameButHub (if o = hubJournal then (s.deadSeen o).modHub fun b => { b with jwLast := false } else s.deadSeen o) :=
    sameButHub_ite rfl rfl
  refine sameButHub_ite rfl ?_
  generalize (if o = hubJournal then (s.deadSeen o).modHub fun b => { b with jwLast := false } else s.deadSeen o) = w at hj
  generalize hubCross o v (FMap.get {} o s.hub.outs) = h
  cases w.hubC0 h o with
  | some x => exact sameButHub_modHub (sameButHub_modHub hj _) _
  | none =>
    dsimp only
    cases w.hubPick h ((s.deadSeen o).hubReqs h o) with
    | none => exact sameButHub_modHub hj _
    | some k =>
      dsimp only
      split
      · exact sameButHub_modHub (sameButHub_modHub hj _) _
      · exact sameButHub_modHub hj _

theorem hubOut_changes (s : State) (v o : Nat) :
    s.onlyBlocks (s.hubOut v o) [.hub] ∧ s.hubOut v o = { s with hub := (s.hubOut v o).hub, regs := (s.hubOut v o).regs } := by
  have hsame : s.hubOut v o = { s.deadSeen o with hub := (s.hubOut v o).hub } := s.hubOut_counts v o
  have hregs := congrArg State.regs hsame
  have hdead := congrArg (fun w : State => ({ w with hub := (s.hubOut v o).hub } : State)) (s.deadSeen_eq o)
  refine ⟨(s.deadSeen_onlyBlocks o).congr hregs, (hsame.trans hdead).trans ?_⟩
  rw [hregs]

theorem foldl_hubOut_changes (v : Nat) (os : List Nat) (s : State) :
    s.onlyBlocks (os.foldl (fun t o => t.hubOut v o) s) [.hub]
      ∧ os.foldl (fun t o => t.hubOut v o) s
        = { s with hub := (os.foldl (fun t o => t.hubOut v o) s).hub, regs := (os.foldl (fun t o => t.hubOut v o) s).regs } := by
  induction os generalizing s with
  | nil => exact ⟨.refl s _, rfl⟩
  | cons o os ih =>
    obtain ⟨hblocks, heq⟩ := s.hubOut_changes v o
    obtain ⟨hrest, hend⟩ := ih (s.hubOut v o)
    rw [List.foldl_cons]
    generalize os.foldl (fun t o => t.hubOut v o) (s.hubOut v o) = t at hrest hend ⊢
    refine ⟨hblocks.trans hrest, hend.trans ?_⟩
    have hkeep := congrArg (fun w : State => ({ w with hub := t.hub, regs := t.regs } : State)) heq
    exact hkeep

/-- What the inputs of the Hub and its buckets are when the outputs' round begins. -/
def hubTurn (s : State) : State := (s.start.draw.c0Refill.maskRound).hubAccept

theorem hubRound_runs {s : State} (hr : s.mode ≠ .reset) (hh : s.mode ≠ .halt) (hd : s.mode ≠ .doze) (hex : s.exOn 3 = false) :
    exec .hubRound s = .next ((List.range 24).foldl (fun t o => t.hubOut s.start.free o) s.hubTurn) := by
  have hgo : ¬ (s.start.mode = .reset ∨ s.start.mode = .halt ∨ s.start.mode = .doze) := by
    rintro (h | h | h)
    · exact hr h
    · exact hh h
    · exact hd h
  exact congrArg Host.Outcome.next ((if_neg hgo).trans (if_neg fun h => absurd (hex.symm.trans h) (by decide)))

/-- One refill of the C0 bucket of one of the instances. -/
def refilled (n : Inst) : Inst := if n.c0rate = 0 then n else { n with c0tokens := min (65536 * n.c0depth) (n.c0tokens + n.c0rate) }

theorem inst_hubTurn (s : State) (i : Nat) : s.hubTurn.inst i = refilled (s.inst i) :=
  FMap.get_map (g := fun _ => refilled) rfl s.insts

theorem hubRound_refills {s : State} (hr : s.mode ≠ .reset) (hh : s.mode ≠ .halt) (hd : s.mode ≠ .doze) (hex : s.exOn 3 = false) :
    ∃ t, exec .hubRound s = .next t
          ∧ (∀ i, t.inst i = if (s.inst i).c0rate = 0 then s.inst i
              else { s.inst i with c0tokens := min (65536 * (s.inst i).c0depth) ((s.inst i).c0tokens + (s.inst i).c0rate) })
          ∧ s.onlyBlocks t [.hub]
          ∧ t = { s.start with insts := t.insts, hub := t.hub, regs := t.regs, freeCount := s.freeCount + 1, freeNext := t.freeNext } := by
  obtain ⟨hblocks, heq⟩ := foldl_hubOut_changes s.start.free (List.range 24) s.hubTurn
  refine ⟨_, hubRound_runs hr hh hd hex, ?_⟩
  generalize (List.range 24).foldl (fun t o => t.hubOut s.start.free o) s.hubTurn = t at hblocks heq ⊢
  have hinsts := congrArg State.insts heq
  have hfree := congrArg State.freeNext heq
  refine ⟨fun i => (inst_congr hinsts i).trans (s.inst_hubTurn i), hblocks, heq.trans ?_⟩
  rw [hinsts, hfree]
  rfl

/-! ### A transfer alone in the Hub -/

/-- The state from which an output chooses: the Journal writer has had no turn there. -/
def chooses (s : State) (o : Nat) : State := if o = hubJournal then (s.deadSeen o).modHub fun b => { b with jwLast := false } else s.deadSeen o

theorem deadSeen_hub (s : State) (o : Nat) : (s.deadSeen o).hub = s.hub ∧ (s.deadSeen o).bst = s.bst := by
  unfold deadSeen
  split <;> exact ⟨rfl, rfl⟩

theorem chooses_reads (s : State) (o : Nat) : (s.chooses o).hub.xfers = s.hub.xfers ∧ (s.chooses o).hub.outs = s.hub.outs
    ∧ (s.chooses o).hub.jw = s.hub.jw := by
  obtain ⟨hdead, -⟩ := s.deadSeen_hub o
  unfold chooses
  split
  · dsimp only [modHub]
    rw [hdead]
    exact ⟨rfl, rfl, rfl⟩
  · rw [hdead]
    exact ⟨rfl, rfl, rfl⟩

theorem hubPick_nil (s : State) (h : HubOut) : s.hubPick h [] = none := rfl

/-- Without a requester an output grants none, and only that output changes. -/
theorem hubOut_idles {s : State} {o : Nat} (v : Nat) (hx : ∀ x ∈ s.hub.xfers, x.out ≠ o) (hjw : s.hub.jw = 0) (hstc : s.stcAt o = false) :
    ∃ h, (s.hubOut v o).hub.xfers = s.hub.xfers ∧ (s.hubOut v o).hub.jw = 0 ∧ (s.hubOut v o).hub.outs = FMap.set {} o h s.hub.outs
      ∧ h.grant = none := by
  obtain ⟨hxfers, houts, hjws⟩ := s.chooses_reads o
  obtain ⟨hdead, hbst⟩ := s.deadSeen_hub o
  obtain ⟨h, hh, hgrant⟩ : ∃ h, hubCross o v (FMap.get {} o s.hub.outs) = h ∧ h.grant = none := ⟨_, rfl, rfl⟩
  have hreqs : (s.deadSeen o).hubReqs h o = [] := by
    refine List.filter_eq_nil_iff.mpr fun k _ => ?_
    have hnone : ((s.deadSeen o).hub.xfers.any fun x => x.out == o && x.key == k && x.holds) = false := by
      rw [hdead]
      exact List.any_eq_false.mpr fun x hmem => by simp [hx x hmem]
    have hstc' : (s.deadSeen o).stcAt o = false := by
      unfold stcAt at hstc ⊢
      rw [hbst]
      exact hstc
    simp [hnone, hstc']
  have hc0 : (s.chooses o).hubC0 h o = none := by
    unfold hubC0
    rw [hxfers]
    split
    · rfl
    · exact List.find?_eq_none.mpr fun x hmem => by simp [hx x hmem]
  refine ⟨h, ?_⟩
  have hout : s.hubOut v o = (s.chooses o).modHub fun b => { b with outs := FMap.set {} o h b.outs } := by
    unfold hubOut
    dsimp only
    rw [← deadSeen, ← chooses, hh, if_neg (fun hc => absurd (hdead ▸ hc.2.1) (by rw [hjw]; decide)), hc0, hreqs, hubPick_nil]
  rw [hout]
  exact ⟨hxfers, hjws.trans hjw, by rw [← houts]; rfl, hgrant⟩

/-- The outputs of a list grant none where no transfer is for one of them, and the other outputs stay. -/
theorem foldl_hubOut_idles (v : Nat) {os : List Nat} {s : State} (hx : ∀ x ∈ s.hub.xfers, x.out ∉ os) (hjw : s.hub.jw = 0)
    (hmem : s.bst.mem.st ≠ .test) (heng : s.bst.eng.st ≠ .test) :
    let t := os.foldl (fun t o => t.hubOut v o) s
    t.hub.xfers = s.hub.xfers ∧ t.hub.jw = 0 ∧ (∀ o ∈ os, (FMap.get {} o t.hub.outs).grant = none)
      ∧ ∀ o, o ∉ os → FMap.get {} o t.hub.outs = FMap.get {} o s.hub.outs := by
  induction os generalizing s with
  | nil => exact ⟨rfl, hjw, fun o ho => absurd ho (by simp), fun _ _ => rfl⟩
  | cons o os ih =>
    have hstc : s.stcAt o = false := by simp [stcAt, hmem, heng]
    obtain ⟨h, hxfers, hjws, houts, hgrant⟩ := hubOut_idles v (fun x hm ho => hx x hm (by simp [ho])) hjw hstc
    have hbst := congrArg State.bst (s.hubOut_changes v o).2
    obtain ⟨hxs, hj, hnone, hkept⟩ := ih (s := s.hubOut v o) (fun x hm ho => hx x (hxfers ▸ hm) (by simp [ho])) hjws
      (by rw [hbst]; exact hmem) (by rw [hbst]; exact heng)
    rw [List.foldl_cons]
    refine ⟨hxs.trans hxfers, hj, fun p hp => ?_, fun p hp => ?_⟩
    · by_cases hin : p ∈ os
      · exact hnone p hin
      · obtain rfl : p = o := by simpa [hin] using hp
        rw [hkept p hin, houts, FMap.get_set_same]
        exact hgrant
    · obtain ⟨hne, hout⟩ : p ≠ o ∧ p ∉ os := by simpa using hp
      rw [hkept p hout, houts, FMap.get_set_ne hne]

/-- What is left of the only transfer of the Hub once a flit of it is granted. -/
def flitGone (x : Xfer) : List Xfer := if x.len ≤ x.sent + 1 then [] else [{ x with sent := x.sent + 1 }]

/-- A grant at an output whose destination's buffer is empty. -/
structure GrantsAlone (h : HubOut) (x : Xfer) : Prop where
  grant : h.grant = some x.flit
  buf : h.buf = [x.flit]

theorem hubSpace_empty {h : HubOut} (hb : h.buf = []) (o c : Nat) : hubSpace o h c = some false := by
  unfold hubSpace
  rw [hb]
  exact if_pos (by split <;> exact Nat.succ_pos _)

theorem grantsAlone_grantFlit {h : HubOut} (hb : h.buf = []) (o : Nat) (x : Xfer) : GrantsAlone (h.grantFlit o x.flit) x := by
  unfold HubOut.grantFlit
  rw [hubSpace_empty hb, hb]
  exact ⟨rfl, rfl⟩

theorem hubAge_buf (s : State) (win : Nat) (ks : List Nat) (h : HubOut) : (s.hubAge win ks h).buf = h.buf := by
  unfold hubAge
  induction ks generalizing h with
  | nil => rfl
  | cons k ks ih =>
    rw [List.foldl_cons, ih]
    split <;> rfl

/-- The requester of the only transfer for an output is the only one there. -/
theorem mem_hubReqs_alone {s : State} {x : Xfer} {h : HubOut} (hx : s.hub.xfers = [x]) (hinp : x.inp < 26) (hcls : x.cls < 4) (hc : x.cls ≠ 0)
    (hholds : x.sent < x.got) (hb : h.buf = []) (hstc : s.stcAt x.out = false) {k : Nat} : k ∈ s.hubReqs h x.out ↔ k = x.key := by
  have hkey : x.key % 4 = x.cls := by rw [Xfer.key]; omega
  have hlt : x.key < 104 := by rw [Xfer.key]; omega
  simp only [hubReqs, hx, hubSpace_empty hb, hstc, List.mem_filter, List.mem_range, List.any_cons, List.any_nil, Xfer.holds, hholds]
  constructor
  · rintro ⟨-, hk⟩
    simp at hk
    exact hk.2.symm
  · rintro rfl
    exact ⟨hlt, by simp [hkey, hc]⟩

theorem set_congr {m n : FMap HubOut} (h : m = n) {k : Nat} {v : HubOut} : FMap.set {} k v m = FMap.set {} k v n := by rw [h]

theorem hubNext_alone {s : State} {x : Xfer} (h : HubOut) (hx : s.hub.xfers = [x]) (hholds : x.sent < x.got) :
    s.hubNext h x.out x.key = some x := by
  unfold hubNext
  rw [hx]
  have hfound : [x].filter (fun y => y.out == x.out && y.key == x.key && y.holds) = [x] := by simp [Xfer.holds, hholds]
  have hpool : (if ([x].filter fun y => FMap.get 0 x.key h.subs < y.sub + 1).isEmpty then [x]
      else [x].filter fun y => FMap.get 0 x.key h.subs < y.sub + 1) = [x] := by
    by_cases hlater : FMap.get 0 x.key h.subs < x.sub + 1
    · rw [List.filter_cons_of_pos (by simpa using hlater)]
      rfl
    · rw [List.filter_cons_of_neg (by simpa using hlater)]
      rfl
  dsimp only
  rw [hfound, hpool]
  exact List.find?_cons_of_pos (by simp)

/-- The only transfer for an output with room is granted its next flit there. -/
theorem hubOut_grants {s : State} {x : Xfer} (v : Nat) (hx : s.hub.xfers = [x]) (hinp : x.inp < 26) (hcls : x.cls < 4) (hholds : x.sent < x.got)
    (hjw : s.hub.jw = 0) (hbuf : (FMap.get {} x.out s.hub.outs).buf = []) (hstc : s.stcAt x.out = false) :
    ∃ h, (s.hubOut v x.out).hub.xfers = flitGone x ∧ (s.hubOut v x.out).hub.jw = 0
      ∧ (s.hubOut v x.out).hub.outs = FMap.set {} x.out h s.hub.outs ∧ GrantsAlone h x := by
  obtain ⟨hxfers, houts, hjws⟩ := s.chooses_reads x.out
  obtain ⟨hdead, hbst⟩ := s.deadSeen_hub x.out
  obtain ⟨h, hh, hempty⟩ : ∃ h, hubCross x.out v (FMap.get {} x.out s.hub.outs) = h ∧ h.buf = [] := ⟨_, rfl, by simp [hubCross, hbuf]⟩
  have hnojw (p : Prop) : ¬ (x.out = hubJournal ∧ 0 < (s.deadSeen x.out).hub.jw ∧ p) := by
    rw [hdead, hjw]
    exact fun hc => absurd hc.2.1 (Nat.lt_irrefl 0)
  have htake : takeFlit x [x] = flitGone x := by
    simp only [takeFlit, flitGone]
    rfl
  unfold hubOut
  dsimp only
  rw [← deadSeen, ← chooses, hh, if_neg (hnojw _)]
  by_cases hc : x.cls = 0
  · have hc0 : (s.chooses x.out).hubC0 h x.out = some x := by
      unfold hubC0
      rw [hxfers, hx, hubSpace_empty hempty]
      simp [hc, Xfer.holds, hholds]
    rw [hc0]
    dsimp only
    refine ⟨_, ?_, hjws.trans hjw, set_congr houts, grantsAlone_grantFlit ?_ _ _⟩
    · dsimp only [modHub]
      rw [hxfers, hx, htake]
      unfold flitGone
      split
      · rfl
      · simp
    · split
      · exact (hubAge_buf ..).trans hempty
      · exact (hubAge_buf ..).trans hempty
  · have hc0 : (s.chooses x.out).hubC0 h x.out = none := by
      unfold hubC0
      rw [hxfers, hx]
      simp [hc]
    have hreqs {k : Nat} : k ∈ (s.deadSeen x.out).hubReqs h x.out ↔ k = x.key :=
      mem_hubReqs_alone (hdead ▸ hx) hinp hcls hc hholds hempty (by unfold stcAt at hstc ⊢; rw [hbst]; exact hstc)
    obtain ⟨k, hk⟩ := Option.ne_none_iff_exists'.mp (hubPick_ne_none (s := s.chooses x.out) (h := h) (List.ne_nil_of_mem (hreqs.mpr rfl)))
    obtain rfl : k = x.key := hreqs.mp (mem_hubBest.mp (hubPick_spec hk).1).1
    rw [hc0]
    dsimp only
    rw [hk]
    dsimp only
    rw [hubNext_alone _ (hxfers.trans hx) hholds]
    refine ⟨_, ?_, hjws.trans hjw, set_congr houts, ?_⟩
    · dsimp only [modHub]
      rw [hxfers, hx, htake]
    · obtain ⟨hgrant, hbuf⟩ := grantsAlone_grantFlit (h := (s.chooses x.out).hubAge x.key ((s.deadSeen x.out).hubReqs h x.out) { h with last := x.key })
        ((hubAge_buf ..).trans hempty) x.out x
      exact ⟨hgrant, hbuf⟩

/-! ### The inputs, for a transfer alone in the Hub -/

/-- An input that the transfer does not come from, or has nothing more of, accepts nothing. -/
theorem acceptAt_other {x : Xfer} {i : Nat} (h : x.inp ≠ i ∨ x.len ≤ x.got) : acceptAt [x] i = [x] := by
  have hnone : ((List.range 4).findSome? fun c => [x].find? fun x => x.inp == i && x.cls == c && decide (x.got < x.len)) = none := by
    refine List.findSome?_eq_none_iff.mpr fun c _ => List.find?_eq_none.mpr fun y hy => ?_
    obtain rfl : y = x := by simpa using hy
    rcases h with h | h
    · simp [h]
    · simp [Nat.not_lt.mpr h]
  unfold acceptAt
  rw [hnone]

theorem acceptAt_own {x : Xfer} (hcls : x.cls < 4) (hlt : x.got < x.len) : acceptAt [x] x.inp = [{ x with got := x.got + 1 }] := by
  have hsome : ((List.range 4).findSome? fun c => [x].find? fun y => y.inp == x.inp && y.cls == c && decide (y.got < y.len)) = some x := by
    have hfind (c : Nat) : ([x].find? fun y => y.inp == x.inp && y.cls == c && decide (y.got < y.len)) = if x.cls = c then some x else none := by
      by_cases hc : x.cls = c <;> simp [hc, hlt]
    simp only [hfind]
    rcases (by omega : x.cls = 0 ∨ x.cls = 1 ∨ x.cls = 2 ∨ x.cls = 3) with h | h | h | h <;> rw [h] <;> rfl
  unfold acceptAt
  rw [hsome]
  exact if_pos rfl

theorem foldl_acceptAt_other {x : Xfer} {is : List Nat} (h : x.inp ∉ is ∨ x.len ≤ x.got) : is.foldl acceptAt [x] = [x] := by
  induction is with
  | nil => rfl
  | cons i is ih =>
    rw [List.foldl_cons, acceptAt_other (h.imp (fun hm he => hm (by simp [he])) id)]
    exact ih (h.imp (fun hm hin => hm (by simp [hin])) id)

/-- The transfer once its input has taken one more flit of it. -/
def accepted (x : Xfer) : Xfer := { x with got := min x.len (x.got + 1) }

theorem range_split {n k : Nat} (h : k < n) : ∃ pre post, List.range n = pre ++ k :: post ∧ k ∉ pre ∧ k ∉ post := by
  obtain ⟨pre, post, hsplit⟩ := List.append_of_mem (List.mem_range.mpr h)
  have hnodup := List.nodup_range (n := n)
  rw [hsplit, List.nodup_append, List.nodup_cons] at hnodup
  obtain ⟨-, ⟨hpost, -⟩, hpre⟩ := hnodup
  exact ⟨pre, post, hsplit, fun hin => hpre k hin k (by simp) rfl, hpost⟩

theorem foldl_acceptAt {x : Xfer} (hcls : x.cls < 4) (hgot : x.got ≤ x.len) (hded : 24 ≤ x.inp → x.got = x.len) :
    (List.range 24).foldl acceptAt [x] = [accepted x] := by
  by_cases hfull : x.got = x.len
  · have hmin : min x.len (x.got + 1) = x.got := by omega
    rw [foldl_acceptAt_other (.inr hfull.ge), accepted, hmin]
  · have hlt : x.got < x.len := by omega
    obtain ⟨pre, post, hsplit, hpre, hpost⟩ := range_split (n := 24) (k := x.inp) (by omega)
    rw [hsplit, List.foldl_append, foldl_acceptAt_other (.inl hpre), List.foldl_cons, acceptAt_own hcls hlt, accepted, Nat.min_eq_right hlt]
    exact foldl_acceptAt_other (x := { x with got := x.got + 1 }) (.inl hpost)

theorem hubAccept_xfers (s : State) : s.hubAccept.hub.xfers = (List.range 24).foldl acceptAt s.hub.xfers := by
  rw [hubAccept, modHub]

theorem hubAccept_keeps (s : State) : s.hubAccept.hub.jw = s.hub.jw ∧ s.hubAccept.bst = s.bst ∧ s.hubAccept.hub.outs = s.hub.outs := by
  rw [hubAccept, modHub]
  exact ⟨rfl, rfl, rfl⟩

theorem maskRound_xfers (s : State) : s.maskRound.hub.xfers = s.hub.xfers.filter fun x => !s.flitMasked x.flit := rfl

theorem hubTurn_reads (s : State) : s.hubTurn.hub.jw = s.hub.jw ∧ s.hubTurn.bst = s.bst :=
  ⟨(hubAccept_keeps _).1, (hubAccept_keeps _).2.1⟩

theorem hubTurn_xfers {s : State} {x : Xfer} (hx : s.hub.xfers = [x]) (hcls : x.cls < 4) (hgot : x.got ≤ x.len) (hded : 24 ≤ x.inp → x.got = x.len)
    (hmask : s.flitMasked x.flit = false) : s.hubTurn.hub.xfers = [accepted x] := by
  have hfilter : (s.start.draw.c0Refill.hub.xfers.filter fun y => !s.start.draw.c0Refill.flitMasked y.flit) = [x] := by
    rw [show s.start.draw.c0Refill.hub.xfers = [x] from hx, List.filter_cons_of_pos (by rw [show s.start.draw.c0Refill.flitMasked x.flit = false from hmask]; rfl), List.filter_nil]
  rw [hubTurn, hubAccept_xfers, maskRound_xfers, hfilter]
  exact foldl_acceptAt hcls hgot hded

/-- An output that keeps some of its ages. -/
def agesKept (q : Nat × Nat → Bool) (h : HubOut) : HubOut := { h with ages := h.ages.filter q }

/-- The masks at an output: what they withdraw there, and the ages that they discard. -/
theorem hubTurn_outs (s : State) : ∃ (p : Flit → Bool) (ks : Nat → List Nat) (q : Nat × Nat → Bool),
    s.hubTurn.hub.outs = (s.hub.outs.map fun o => (o.1, o.2.drop p (ks o.1))).map fun o => (o.1, agesKept q o.2) :=
  ⟨s.start.draw.c0Refill.flitMasked,
    fun k => (s.hub.xfers.filter fun x => x.out == k && x.sent != 0 && s.start.draw.c0Refill.flitMasked x.flit).map (·.key),
    fun a => !s.start.draw.c0Refill.keysMasked.contains a.1, (hubAccept_keeps s.start.draw.c0Refill.maskRound).2.2.trans rfl⟩

/-- The masks leave a buffer that is empty so. -/
theorem hubTurn_buf {s : State} {o : Nat} (h : (FMap.get {} o s.hub.outs).buf = []) : (FMap.get {} o s.hubTurn.hub.outs).buf = [] := by
  have hdrop (o : HubOut) (p : Flit → Bool) (ks : List Nat) (ho : o.buf = []) : (o.drop p ks).buf = [] := by
    unfold HubOut.drop
    rw [ho]
    dsimp only
    split
    · split <;> rfl
    · rfl
  obtain ⟨p, ks, q, houts⟩ := s.hubTurn_outs
  rw [houts, FMap.get_map (g := fun _ h => agesKept q h) rfl, FMap.get_map (g := fun k (h : HubOut) => h.drop p (ks k)) rfl]
  exact hdrop _ _ _ h

theorem hubRound_grants {s : State} {x : Xfer} (hr : s.mode ≠ .reset) (hh : s.mode ≠ .halt) (hd : s.mode ≠ .doze) (hex : s.exOn 3 = false)
    (hx : s.hub.xfers = [x]) (hout : x.out < 24) (hinp : x.inp < 26) (hcls : x.cls < 4) (hsent : x.sent ≤ x.got) (hgot : x.got ≤ x.len)
    (hlt : x.sent < x.len) (hded : 24 ≤ x.inp → x.got = x.len) (hmask : s.flitMasked x.flit = false)
    (hbuf : (FMap.get {} x.out s.hub.outs).buf = []) (hjw : s.hub.jw = 0) (hmem : s.bst.mem.st ≠ .test) (heng : s.bst.eng.st ≠ .test) :
    ∃ t, exec .hubRound s = .next t
          ∧ t.hub.xfers = (if x.sent + 1 = x.len then [] else [{ x with sent := x.sent + 1, got := min x.len (x.got + 1) }])
          ∧ (FMap.get {} x.out t.hub.outs).grant = some x.flit ∧ (FMap.get {} x.out t.hub.outs).buf = [x.flit]
          ∧ ∀ o < 24, o ≠ x.out → (FMap.get {} o t.hub.outs).grant = none := by
  refine ⟨_, hubRound_runs hr hh hd hex, ?_⟩
  obtain ⟨pre, post, hsplit, hpre, hpost⟩ := range_split hout
  obtain ⟨hturn, hturnBst⟩ := s.hubTurn_reads
  have hxs := hubTurn_xfers hx hcls hgot hded hmask
  rw [hsplit, List.foldl_append, List.foldl_cons]
  generalize s.start.free = v
  obtain ⟨hxs₁, hjw₁, hnone₁, hkept₁⟩ := foldl_hubOut_idles v (os := pre) (s := s.hubTurn) (by rw [hxs]; simpa [accepted] using hpre)
    (hturn.trans hjw) (by rw [hturnBst]; exact hmem) (by rw [hturnBst]; exact heng)
  have hbst₁ := (congrArg State.bst (foldl_hubOut_changes v pre s.hubTurn).2).trans hturnBst
  generalize pre.foldl (fun t o => t.hubOut v o) s.hubTurn = t₁ at hxs₁ hjw₁ hnone₁ hkept₁ hbst₁ ⊢
  have hstc : t₁.stcAt x.out = false := by
    unfold stcAt
    rw [hbst₁]
    simp [hmem, heng]
  have hbuf₁ : (FMap.get {} x.out t₁.hub.outs).buf = [] := by
    rw [hkept₁ x.out hpre]
    exact hubTurn_buf hbuf
  obtain ⟨h, hxs₂, hjw₂, houts₂, hgrant, hbuf₂⟩ := hubOut_grants (x := accepted x) v (hxs₁.trans hxs) hinp hcls
    (show x.sent < min x.len (x.got + 1) by omega) hjw₁ hbuf₁ hstc
  have hbst₂ := congrArg State.bst (t₁.hubOut_changes v x.out).2
  obtain ⟨hxs₃, -, hnone₃, hkept₃⟩ := foldl_hubOut_idles v (os := post) (s := t₁.hubOut v x.out) (by
      rw [show (t₁.hubOut v x.out).hub.xfers = _ from hxs₂]
      intro y hy
      unfold flitGone at hy
      split at hy
      · exact absurd hy (by simp)
      · obtain rfl := List.mem_singleton.mp hy
        exact hpost)
    hjw₂ (by rw [hbst₂, hbst₁]; exact hmem) (by rw [hbst₂, hbst₁]; exact heng)
  generalize post.foldl (fun t o => t.hubOut v o) (t₁.hubOut v x.out) = t at hxs₃ hnone₃ hkept₃ ⊢
  have hown : FMap.get {} x.out t.hub.outs = h := by
    rw [hkept₃ x.out hpost, show (t₁.hubOut v x.out).hub.outs = _ from houts₂]
    exact FMap.get_set_same ..
  refine ⟨?_, by rw [hown]; exact hgrant, by rw [hown]; exact hbuf₂, fun o ho hne => ?_⟩
  · rw [hxs₃, show (t₁.hubOut v x.out).hub.xfers = _ from hxs₂]
    unfold flitGone accepted
    dsimp only
    by_cases hlast : x.sent + 1 = x.len
    · rw [if_pos hlast.ge, if_pos hlast]
    · rw [if_neg (by omega), if_neg hlast]
  · have hmem : o ∈ pre ++ x.out :: post := hsplit ▸ List.mem_range.mpr ho
    by_cases hin : o ∈ post
    · exact hnone₃ o hin
    · rw [hkept₃ o hin, show (t₁.hubOut v x.out).hub.outs = _ from houts₂]
      rw [FMap.get_set_ne (k := (accepted x).out) hne]
      exact hnone₁ o (by simpa [hin, hne] using hmem)

end State

/-- Settles O59: what a round does outside the transfers is said of every output; the transfer alone follows from the split of the outputs at its own. -/
theorem hubAndIssueCycles : Obligations.HubAndIssueCycles := by
  unfold Obligations.HubAndIssueCycles
  refine ⟨⟨fun s hr hh hd hex => State.hubRound_refills hr hh hd hex,
    fun s x hr hh hd hex hx hout hinp hcls hsent hgot hlt hded hmask hbuf hjw hmem heng =>
      State.hubRound_grants hr hh hd hex hx hout hinp hcls hsent hgot hlt hded hmask hbuf hjw hmem heng,
    fun s h => congrArg Host.Outcome.next (if_pos h)⟩, fun s e hw hmask hd h4 h5 h6 => ⟨fun n c h => ?_, fun h => ?_⟩⟩
  · exact State.engineIssueCycle_issues e hw hmask hd h4 h5 h6 h
  · exact State.engineIssueCycle_idles e hw hmask hd h

end Sys2Proof.Machine
end

section
/-! PROOFS. Self-test slices are judged, and their targets restored or failed (R287 to R291, R293). -/

namespace Sys2Proof.Machine

namespace State

/-! ### The record of a slice's end -/

/-- The fields of a slice's record (R291), for either kind. -/
def lastValid : SliceKind → Fld
  | .mem => Fld.bstLastMem_valid
  | .eng => Fld.bstLastEng_valid
def lastRes : SliceKind → Fld
  | .mem => Fld.bstLastMem_result
  | .eng => Fld.bstLastEng_result
def lastTarget : SliceKind → Fld
  | .mem => Fld.bstLastMem_target
  | .eng => Fld.bstLastEng_target
def lastCount : SliceKind → Fld
  | .mem => Fld.bstLastMem_count
  | .eng => Fld.bstLastEng_count

/-- The registers of a slice's record and of its signatures. -/
def lastRegs : SliceKind → List RegId
  | .mem => [.bstLastMem, .bstMisrMem, .bstMisrMemExp]
  | .eng => [.bstLastEng, .bstMisrEng, .bstMisrEngExp]

/-- What the registers and the slice machine tell of a slice that has been judged. -/
structure Judged (s : State) (k : SliceKind) (r : SliceResult) (v : SliceRes) (t : State) : Prop where
  result : t.f (lastRes k) = sliceCode v
  count : t.f (lastCount k) = r.count % 2 ^ 16
  target : t.f (lastTarget k) = (s.sliceOf k).target % 2 ^ 11
  misr : k = .mem → t.reg .bstMisrMem = r.misr ∧ t.reg .bstMisrMemExp = r.expected
  slice : t.sliceOf k = { (s.sliceOf k).note v with st := .restore, cells := r.cells }

theorem Judged.keep {s t u : State} {k : SliceKind} {r : SliceResult} {v : SliceRes} (h : s.Judged k r v t)
    (hregs : ∀ id ∈ lastRegs k, u.reg id = t.reg id) (hbst : u.bst = t.bst) : s.Judged k r v u := by
  obtain ⟨hresult, hcount, htarget, hmisr, hslice⟩ := h
  have hsame : u.sliceOf k = t.sliceOf k := by
    cases k
    · exact congrArg Bst.mem hbst
    · exact congrArg Bst.eng hbst
  have hf {x : Fld} (hx : x.id ∈ lastRegs k) : u.f x = t.f x := by rw [f, f, hregs _ hx]
  refine ⟨(hf ?_).trans hresult, (hf ?_).trans hcount, (hf ?_).trans htarget, fun hk => ?_, hsame.trans hslice⟩
  · cases k <;> exact List.mem_cons_self
  · cases k <;> exact List.mem_cons_self
  · cases k <;> exact List.mem_cons_self
  · subst hk
    obtain ⟨hm, he⟩ := hmisr rfl
    exact ⟨(hregs _ (by decide)).trans hm, (hregs _ (by decide)).trans he⟩

theorem sliceCode_lt (v : SliceRes) : sliceCode v % 2 ^ 3 = sliceCode v := by cases v <;> rfl

/-- Writes of four fields of one register leave the others. -/
theorem setFour_keeps {s : State} {w x y z : Fld} {a b c d : Nat} {id : RegId} {i : Nat} (h : regOff id i ≠ regOff x.id 0) (hw : w.id = x.id)
    (hy : y.id = x.id) (hz : z.id = x.id) : ((((s.setF w a).setF x b).setF y c).setF z d).reg id i = s.reg id i := by
  rw [reg_setF_ne _ (hz ▸ h), reg_setF_ne _ (hy ▸ h), reg_setF_ne _ h, reg_setF_ne _ (hw ▸ h)]

theorem lastResult_tells (s : State) (k : SliceKind) (code target count : Nat) :
    ∃ u, s.lastResult k code target count = u ∧ u.offRegs = s.offRegs ∧ u.f (lastValid k) = 1 ∧ u.f (lastRes k) = code % 2 ^ 3
      ∧ u.f (lastTarget k) = target % 2 ^ 11 ∧ u.f (lastCount k) = count % 2 ^ 16 ∧ s.onlyBlocks u [.bst]
      ∧ ∀ id i, regOff id i ≠ regOff (lastRes k).id 0 → u.reg id i = s.reg id i := by
  cases k <;>
  · refine ⟨_, rfl, ?_, ?_, ?_, ?_, ?_, ?_, fun id i h => ?_⟩
    · simp only [lastResult, offRegs_setF]
    · simp (disch := decide) only [lastResult, lastValid, f_setF_apart, f_setF_same]
      rfl
    · simp (disch := decide) only [lastResult, lastRes, f_setF_apart, f_setF_same]
      rfl
    · simp (disch := decide) only [lastResult, lastTarget, f_setF_apart, f_setF_same]
      rfl
    · simp (disch := decide) only [lastResult, lastCount, f_setF_same]
      rfl
    · refine onlyBlocks.setF (onlyBlocks.setF (onlyBlocks.setF (onlyBlocks_setF s (b := .bst) ?_ (by decide) 1) (b := .bst) ?_ (by decide) code)
        (b := .bst) ?_ (by decide) target) (b := .bst) ?_ (by decide) count <;> decide
    · exact setFour_keeps h rfl rfl rfl

theorem setBits_full (v : Nat) (w : Word) : setBits 31 0 v w = BitVec.ofNat 32 v := by
  apply BitVec.eq_of_toNat_eq
  have := w.isLt
  simp only [setBits, bits, BitVec.toNat_ofNat]
  omega

theorem reg_setF_full (s : State) {x : Fld} (hhi : x.hi = 31) (hlo : x.lo = 0) (v : Nat) : (s.setF x v).reg x.id = BitVec.ofNat 32 v := by
  rw [setF, hhi, hlo, setBits_full, reg_setReg_same]

/-- The signature registers of both kinds. -/
def misrRegs : List RegId := [.bstMisrMem, .bstMisrMemExp, .bstMisrEng, .bstMisrEngExp]

theorem writeMisr_tells (s : State) (k : SliceKind) (m e : Word) :
    ∃ u, s.writeMisr k m e = u ∧ u.offRegs = s.offRegs ∧ (k = .mem → u.reg .bstMisrMem = m ∧ u.reg .bstMisrMemExp = e) ∧ s.onlyBlocks u [.bst]
      ∧ ∀ id i, (∀ j ∈ misrRegs, regOff id i ≠ regOff j 0) → u.reg id i = s.reg id i := by
  cases k with
  | mem =>
    refine ⟨_, rfl, ?_, fun _ => ⟨?_, ?_⟩, ?_, fun id i h => ?_⟩
    · simp only [writeMisr, offRegs_setF]
    · refine (reg_setF_ne _ (by decide) e.toNat).trans ((reg_setF_full s (x := Fld.bstMisrMem_misr) rfl rfl m.toNat).trans ?_)
      simp
    · refine (reg_setF_full _ (x := Fld.bstMisrMemExp_misr) rfl rfl e.toNat).trans ?_
      simp
    · exact (onlyBlocks_setF s (x := Fld.bstMisrMem_misr) (b := .bst) (by decide) (by decide) m.toNat).setF (x := Fld.bstMisrMemExp_misr) (b := .bst)
        (by decide) (by decide) e.toNat
    · exact (reg_setF_ne _ (x := Fld.bstMisrMemExp_misr) (h _ (by decide)) e.toNat).trans (reg_setF_ne s (x := Fld.bstMisrMem_misr) (h _ (by decide)) _)
  | eng =>
    refine ⟨_, rfl, ?_, fun h => (nomatch h), ?_, fun id i h => ?_⟩
    · simp only [writeMisr, offRegs_setF]
    · exact (onlyBlocks_setF s (x := Fld.bstMisrEng_misr) (b := .bst) (by decide) (by decide) m.toNat).setF (x := Fld.bstMisrEngExp_misr) (b := .bst)
        (by decide) (by decide) e.toNat
    · exact (reg_setF_ne _ (x := Fld.bstMisrEngExp_misr) (h _ (by decide)) e.toNat).trans (reg_setF_ne s (x := Fld.bstMisrEng_misr) (h _ (by decide)) _)

/-- A slice that has been judged, before its result is counted. -/
def recordedSlice (s : State) (k : SliceKind) (r : SliceResult) (v : SliceRes) : State :=
  ((s.modSlice k fun x => { x.note v with st := .restore, cells := r.cells }).lastResult k (sliceCode v) (s.sliceOf k).target r.count).writeMisr k
    r.misr r.expected

/-- The slice machine of a kind, judged. -/
def bstJudged (b : Bst) (r : SliceResult) (v : SliceRes) : SliceKind → Bst
  | .mem => { b with mem := { b.mem.note v with st := .restore, cells := r.cells } }
  | .eng => { b with eng := { b.eng.note v with st := .restore, cells := r.cells } }

theorem recordedSlice_tells (s : State) (k : SliceKind) (r : SliceResult) (v : SliceRes) :
    ∃ u, s.recordedSlice k r v = u ∧ s.Judged k r v u ∧ u.offRegs = (s.withBst (bstJudged s.bst r v k)).offRegs ∧ s.onlyBlocks u [.bst]
      ∧ ∀ x : Fld, x.id = .bstCnt ∨ x.id = .bstFailMem → u.f x = s.f x := by
  obtain ⟨w, hw, hoffw⟩ : ∃ w, (s.modSlice k fun x => { x.note v with st := .restore, cells := r.cells }) = w ∧ w = s.withBst (bstJudged s.bst r v k) :=
    ⟨_, rfl, by cases k <;> rfl⟩
  obtain ⟨u, hu, hoffu, -, hres, htgt, hcnt, honlyu, hkeepu⟩ := w.lastResult_tells k (sliceCode v) (s.sliceOf k).target r.count
  obtain ⟨t, ht, hofft, hmisr, honlyt, hkeept⟩ := u.writeMisr_tells k r.misr r.expected
  have hwregs : w.regs = s.regs := by rw [hoffw]; rfl
  have hlast {x : Fld} (hx : x.id = (lastRes k).id) : t.f x = u.f x := by
    rw [f, f, hkeept _ 0 fun j hj => ?_]
    rw [hx]
    revert j
    cases k <;> decide
  have hoff : t.offRegs = (s.withBst (bstJudged s.bst r v k)).offRegs := (hofft.trans hoffu).trans (congrArg offRegs hoffw)
  have hbst : t.bst = bstJudged s.bst r v k := (congrArg State.bst hoff : t.offRegs.bst = (s.withBst (bstJudged s.bst r v k)).offRegs.bst)
  refine ⟨t, ?_, ⟨?_, ?_, ?_, hmisr, ?_⟩, hoff, ((onlyBlocks_of_regs hwregs _).trans honlyu).trans honlyt, fun x hx => ?_⟩
  · rw [recordedSlice, hw, hu, ht]
  · exact ((hlast rfl).trans hres).trans (sliceCode_lt v)
  · exact (hlast (by cases k <;> rfl)).trans hcnt
  · exact (hlast (by cases k <;> rfl)).trans htgt
  · cases k
    · exact congrArg Bst.mem hbst
    · exact congrArg Bst.eng hbst
  · have hne : regOff x.id 0 ≠ regOff (lastRes k).id 0 := by
      rcases hx with hx | hx <;> rw [hx] <;> cases k <;> decide
    have hnem : ∀ j ∈ misrRegs, regOff x.id 0 ≠ regOff j 0 := by
      rcases hx with hx | hx <;> rw [hx] <;> decide
    rw [f, f, hkeept _ 0 hnem, hkeepu _ 0 hne, reg_congr hwregs]

/-- The registers of a judged slice lie apart from the counters and BST_FAIL_MEM. -/
theorem Judged.setF {s t : State} {k : SliceKind} {r : SliceResult} {v : SliceRes} (h : s.Judged k r v t) {x : Fld}
    (hx : x.id = .bstCnt ∨ x.id = .bstFailMem) (n : Nat) : s.Judged k r v (t.setF x n) := by
  refine h.keep (fun id hid => reg_setF_ne t ?_ n) rfl
  revert id
  rcases hx with hx | hx <;> rw [hx] <;> cases k <;> decide

/-- The result of the slice of a judged kind, and whether BST_FAIL_MEM still names a cell. -/
def failSeen (s : State) (k : SliceKind) (v : SliceRes) : State := if k = .mem ∧ v ≠ .fail then s.setF Fld.bstFailMem_valid 0 else s

theorem failSeen_tells {s t : State} {k : SliceKind} {r : SliceResult} {v : SliceRes} (h : s.Judged k r v t) :
    s.Judged k r v (t.failSeen k v) ∧ (t.failSeen k v).offRegs = t.offRegs ∧ t.onlyBlocks (t.failSeen k v) [.bst]
      ∧ ∀ x : Fld, x.id = .bstCnt → (t.failSeen k v).f x = t.f x := by
  unfold failSeen
  split
  · refine ⟨h.setF (.inr rfl) 0, offRegs_setF .., onlyBlocks_setF t (b := .bst) (by decide) (by decide) 0, fun x hx => f_setF_ne t ?_ 0⟩
    rw [hx]
    decide
  · exact ⟨h, rfl, .refl t _, fun _ _ => rfl⟩

/-- A slice that has been judged, with its counter stepped. -/
theorem counted_tells {s t : State} {k : SliceKind} {r : SliceResult} {v : SliceRes} (h : s.Judged k r v t) {x : Fld} (hx : x.fits) (hid : x.id = .bstCnt) :
    s.Judged k r v (t.incF x) ∧ (t.incF x).offRegs = t.offRegs ∧ t.onlyBlocks (t.incF x) [.bst] ∧ (t.incF x).f x = sat x (t.f x + 1) :=
  ⟨h.setF (.inl hid) _, offRegs_incF .., onlyBlocks_incF t (b := .bst) (by rw [hid]; decide) (by decide) 1, f_incF_sat t hx 1 0⟩

theorem judgeSlice_eq (s : State) (k : SliceKind) (r : SliceResult) : s.judgeSlice k r =
    match sliceVerdict k r with
    | .pass => ((s.recordedSlice k r (sliceVerdict k r)).failSeen k (sliceVerdict k r)).incF Fld.bstCnt_passes
    | .fail => match k with
      | .mem => ((((s.recordedSlice .mem r (sliceVerdict .mem r)).failSeen .mem (sliceVerdict .mem r)).incF Fld.bstCnt_fails).failMem r.cells).raise
          0x1C0 s.bst.mem.target
      | .eng => (((s.recordedSlice .eng r (sliceVerdict .eng r)).failSeen .eng (sliceVerdict .eng r)).incF Fld.bstCnt_fails).raise
          0x1C1 s.bst.eng.target
    | _ => (((s.recordedSlice k r (sliceVerdict k r)).failSeen k (sliceVerdict k r)).incF Fld.bstCnt_incomplete).thirdIncomplete
        (((s.recordedSlice k r (sliceVerdict k r)).failSeen k (sliceVerdict k r)).sliceOf k) := by
  unfold judgeSlice
  dsimp only
  cases k <;> cases sliceVerdict _ r <;> rfl

theorem judgeSlice_passes (s : State) {k : SliceKind} {r : SliceResult} (hv : sliceVerdict k r = .pass) :
    ∃ t, s.judgeSlice k r = t ∧ s.Judged k r .pass t ∧ t.f Fld.bstCnt_passes = sat Fld.bstCnt_passes (s.f Fld.bstCnt_passes + 1)
      ∧ s.onlyBlocks t [.bst] ∧ t.offRegs = (s.withBst (bstJudged s.bst r .pass k)).offRegs := by
  obtain ⟨u, hu, hju, hoffu, honlyu, hfu⟩ := s.recordedSlice_tells k r .pass
  obtain ⟨hjv, hoffv, honlyv, hfv⟩ := failSeen_tells hju
  obtain ⟨hjt, hofft, honlyt, hft⟩ := counted_tells hjv (x := Fld.bstCnt_passes) (by decide) rfl
  refine ⟨_, by rw [judgeSlice_eq, hv, hu], hjt, ?_, (honlyu.trans honlyv).trans honlyt, (hofft.trans hoffv).trans hoffu⟩
  rw [hft, hfv _ rfl, hfu _ (.inl rfl)]

theorem judgeSlice_incomplete (s : State) {k : SliceKind} {r : SliceResult} (hv : sliceVerdict k r = .incomplete) (hrun : (s.sliceOf k).incRun < 2) :
    ∃ t, s.judgeSlice k r = t ∧ s.Judged k r .incomplete t
      ∧ t.f Fld.bstCnt_incomplete = sat Fld.bstCnt_incomplete (s.f Fld.bstCnt_incomplete + 1)
      ∧ s.onlyBlocks t [.bst] ∧ t.offRegs = (s.withBst (bstJudged s.bst r .incomplete k)).offRegs := by
  obtain ⟨u, hu, hju, hoffu, honlyu, hfu⟩ := s.recordedSlice_tells k r .incomplete
  obtain ⟨hjv, hoffv, honlyv, hfv⟩ := failSeen_tells hju
  obtain ⟨hjt, hofft, honlyt, hft⟩ := counted_tells hjv (x := Fld.bstCnt_incomplete) (by decide) rfl
  have hthird : ¬ (((u.failSeen k .incomplete).sliceOf k).res = .incomplete ∧ ((u.failSeen k .incomplete).sliceOf k).incRun = 3) := by
    rw [hjv.slice, Slice.note]
    rintro ⟨-, h⟩
    dsimp only at h
    rw [if_pos rfl] at h
    split at h <;> omega
  refine ⟨_, by rw [judgeSlice_eq, hv, hu]; exact if_neg hthird, hjt, ?_, (honlyu.trans honlyv).trans honlyt, (hofft.trans hoffv).trans hoffu⟩
  rw [hft, hfv _ rfl, hfu _ (.inl rfl)]

theorem failCell_tells (s : State) (c : Nat × Nat) (n : Nat) :
    ∃ u, (((s.setF Fld.bstFailMem_valid 1).setF Fld.bstFailMem_row c.1).setF Fld.bstFailMem_bit c.2).setF Fld.bstFailMem_ncells n = u
      ∧ u.offRegs = s.offRegs ∧ s.onlyBlocks u [.bst] ∧ u.f Fld.bstFailMem_row = c.1 % 2 ^ 11 ∧ u.f Fld.bstFailMem_bit = c.2 % 2 ^ 9
      ∧ u.f Fld.bstFailMem_ncells = n % 2 ^ 11 ∧ ∀ x : Fld, x.id = .bstCnt → u.f x = s.f x := by
  refine ⟨_, rfl, ?_, ?_, ?_, ?_, ?_, fun x hx => ?_⟩
  · simp only [offRegs_setF]
  · exact (((onlyBlocks_setF s (x := Fld.bstFailMem_valid) (b := .bst) (by decide) (by decide) 1).setF (x := Fld.bstFailMem_row)
      (b := .bst) (by decide) (by decide) c.1).setF (x := Fld.bstFailMem_bit) (b := .bst) (by decide) (by decide) c.2).setF
      (x := Fld.bstFailMem_ncells) (b := .bst) (by decide) (by decide) n
  · simp (disch := decide) only [f_setF_apart, f_setF_same]
    rfl
  · simp (disch := decide) only [f_setF_apart, f_setF_same]
    rfl
  · simp (disch := decide) only [f_setF_same]
    rfl
  · have hne : regOff x.id 0 ≠ regOff Fld.bstFailMem_row.id 0 := by rw [hx]; decide
    rw [f, setFour_keeps (i := 0) (w := Fld.bstFailMem_valid) (x := Fld.bstFailMem_row) (y := Fld.bstFailMem_bit) (z := Fld.bstFailMem_ncells) hne
      rfl rfl rfl, f]

/-- BST_FAIL_MEM after a memory slice that failed: the first failing cell, where a compare failed. -/
theorem failMem_tells {s t : State} {k : SliceKind} {r : SliceResult} {v : SliceRes} (h : s.Judged k r v t) (cells : List (Nat × Nat)) :
    ∃ u, t.failMem cells = u ∧ s.Judged k r v u ∧ u.flt = t.flt ∧ u.mode = t.mode ∧ t.onlyBlocks u [.bst]
      ∧ (∀ x : Fld, x.id = .bstCnt → u.f x = t.f x)
      ∧ ∀ c cs, cells = c :: cs → u.f Fld.bstFailMem_row = c.1 % 2 ^ 11 ∧ u.f Fld.bstFailMem_bit = c.2 % 2 ^ 9
          ∧ u.f Fld.bstFailMem_ncells = min cells.length 2047 := by
  obtain ⟨c, w, hw, hc, hregs, hbst, hflt, hmode⟩ : ∃ (c : Nat × Nat) (w : State), t.failMem cells
      = (((w.setF Fld.bstFailMem_valid 1).setF Fld.bstFailMem_row c.1).setF Fld.bstFailMem_bit c.2).setF Fld.bstFailMem_ncells (min cells.length 2047)
      ∧ (∀ d ds, cells = d :: ds → c = d) ∧ w.regs = t.regs ∧ w.bst = t.bst ∧ w.flt = t.flt ∧ w.mode = t.mode := by
    refine ⟨_, _, rfl, ?_, ?_, ?_, ?_, ?_⟩
    · rintro d ds rfl
      rfl
    all_goals split <;> rfl
  have hjw : s.Judged k r v w := h.keep (fun id _ => reg_congr hregs id 0) hbst
  have hlen : min cells.length 2047 % 2 ^ 11 = min cells.length 2047 := by omega
  have hju := (((hjw.setF (x := Fld.bstFailMem_valid) (.inr rfl) 1).setF (x := Fld.bstFailMem_row) (.inr rfl) c.1).setF
    (x := Fld.bstFailMem_bit) (.inr rfl) c.2).setF (x := Fld.bstFailMem_ncells) (.inr rfl) (min cells.length 2047)
  obtain ⟨u, hu, hoff, honly, hrow, hbit, hn, hkeep⟩ := w.failCell_tells c (min cells.length 2047)
  rw [hu] at hw hju
  refine ⟨u, hw, hju, (congrArg State.flt hoff :).trans hflt, (congrArg State.mode hoff :).trans hmode, (onlyBlocks_of_regs hregs _).trans honly,
    fun x hx => (hkeep x hx).trans (f_congr hregs x 0), fun d ds hd => ?_⟩
  obtain rfl := hc d ds hd
  exact ⟨hrow, hbit, hn.trans hlen⟩

/-- Raising a source leaves what the BST registers and the slice machine tell. -/
theorem Judged.raised {s t u : State} {k : SliceKind} {r : SliceResult} {v : SliceRes} {src : Nat} (h : s.Judged k r v t) (hr : t.Raised u src) :
    s.Judged k r v u := by
  refine h.keep (fun id hid => hr.only.reg_eq (b := .bst) ?_ (by decide)) (congrArg State.bst hr.off : u.offFault.bst = t.offFault.bst)
  revert id
  cases k <;> decide

theorem judgeMem_fails {s : State} {r : SliceResult} (hv : sliceVerdict .mem r = .fail) (hm : s.mode ≠ .reset) (hmute : s.mute 0x1C0 = true) :
    ∃ t, s.start.judgeSlice .mem r = t ∧ s.start.Judged .mem r .fail t ∧ t.f Fld.bstCnt_fails = sat Fld.bstCnt_fails (s.f Fld.bstCnt_fails + 1)
      ∧ s.counted t 0x1C0
      ∧ (∀ c cs, r.cells = c :: cs → t.f Fld.bstFailMem_row = c.1 % 2 ^ 11 ∧ t.f Fld.bstFailMem_bit = c.2 % 2 ^ 9
          ∧ t.f Fld.bstFailMem_ncells = min r.cells.length 2047)
      ∧ s.onlyBlocks t [.bst, .flt] := by
  obtain ⟨u, hu, hju, hoffu, honlyu, hfu⟩ := s.start.recordedSlice_tells .mem r .fail
  obtain ⟨hjv, hoffv, honlyv, hfv⟩ := failSeen_tells hju
  obtain ⟨hjw, hoffw, honlyw, hfw⟩ := counted_tells hjv (x := Fld.bstCnt_fails) (by decide) rfl
  obtain ⟨x, hx, hjx, hflt, hmode, honlyx, hfx, hcells⟩ := failMem_tells hjw r.cells
  have hoff := (hoffw.trans hoffv).trans hoffu
  have hfltx : x.flt = s.start.flt := hflt.trans (congrArg State.flt hoff :)
  have hmodex : x.mode ≠ .reset := by rw [hmode.trans (congrArg State.mode hoff :)]; exact hm
  have honly : s.onlyBlocks x [.bst] := ((honlyu.trans honlyv).trans honlyw).trans honlyx
  obtain ⟨hraised, hcounted⟩ := raise_after hmodex (by decide) hmute hfltx honly (by decide) s.bst.mem.target none none 0
  have hkeep {y : Fld} (hy : blockAt (regOff y.id 0) = some .bst) : (x.raise 0x1C0 s.bst.mem.target).f y = x.f y :=
    hraised.only.f_eq (b := .bst) hy (by decide)
  refine ⟨_, by rw [judgeSlice_eq, hv, hu, hx]; rfl, hjx.raised hraised, ?_, hcounted, fun c cs hc => ?_, ?_⟩
  · rw [hkeep (by decide), hfx _ rfl, hfw, hfv _ rfl, hfu _ (.inl rfl)]
    rfl
  · obtain ⟨hrow, hbit, hn⟩ := hcells c cs hc
    rw [hkeep (by decide), hkeep (by decide), hkeep (by decide)]
    exact ⟨hrow, hbit, hn⟩
  · exact (honly.mono (by decide)).trans (hraised.only.mono (by decide))

theorem judgeEng_fails {s : State} {r : SliceResult} (hv : sliceVerdict .eng r = .fail) (hm : s.mode ≠ .reset) (hmute : s.mute 0x1C1 = true) :
    ∃ t, s.start.judgeSlice .eng r = t ∧ s.start.Judged .eng r .fail t ∧ t.f Fld.bstCnt_fails = sat Fld.bstCnt_fails (s.f Fld.bstCnt_fails + 1)
      ∧ s.counted t 0x1C1 ∧ s.onlyBlocks t [.bst, .flt] := by
  obtain ⟨u, hu, hju, hoffu, honlyu, hfu⟩ := s.start.recordedSlice_tells .eng r .fail
  obtain ⟨hjv, hoffv, honlyv, hfv⟩ := failSeen_tells hju
  obtain ⟨hjw, hoffw, honlyw, hfw⟩ := counted_tells hjv (x := Fld.bstCnt_fails) (by decide) rfl
  obtain ⟨x, hx⟩ : ∃ x, (u.failSeen .eng .fail).incF Fld.bstCnt_fails = x := ⟨_, rfl⟩
  rw [hx] at hjw hoffw honlyw hfw
  have hoff : x.offRegs = _ := (hoffw.trans hoffv).trans hoffu
  have hfltx := congrArg State.flt hoff
  have hmodex := congrArg State.mode hoff
  have honly : s.onlyBlocks x [.bst] := (honlyu.trans honlyv).trans honlyw
  obtain ⟨hraised, hcounted⟩ := raise_after (u := x) (fun h => hm (hmodex.symm.trans h)) (by decide) hmute hfltx honly (by decide) s.bst.eng.target none
    none 0
  refine ⟨_, by rw [judgeSlice_eq, hv, hu, hx]; rfl, hjw.raised hraised, ?_, hcounted, (honly.mono (by decide)).trans (hraised.only.mono (by decide))⟩
  rw [hraised.only.f_eq (x := Fld.bstCnt_fails) (b := .bst) (by decide) (by decide), hfw, hfv _ rfl, hfu _ (.inl rfl)]
  rfl

/-! ### Restore -/

theorem sliceRestored_runs {s : State} {k : SliceKind} (hw : s.works = true) (hst : (s.sliceOf k).st = .restore) :
    exec (.sliceRestored k) s = .next (((match k with | .mem => s.start.restoreMem | .eng => s.start.restoreEng).modSlice k fun x =>
      { x with st := .idle, cells := [] }).fgGoOn.runAtLast) := by
  refine congrArg Host.Outcome.next ((if_pos hw).trans ((if_neg (not_not_intro ?_)).trans ?_))
  · cases k <;> exact hst
  · cases k <;> rfl

/-- Outside SERVICE, and without FOREGROUND, the end of Restore only makes the slice machine idle. -/
theorem goesOn_alone {s : State} (hm : s.mode ≠ .service) (hfg : s.bst.fg = false) : s.fgGoOn.runAtLast = s := by
  have hnext (k : SliceKind) (n : Nat) : fgNext k n s = s := by
    cases n with
    | zero => rfl
    | succ n => exact if_pos (.inl (by rw [hfg]; rfl))
  have hgo : s.fgGoOn = s := by
    unfold fgGoOn
    dsimp only
    rw [hnext, hnext]
    exact if_neg fun h => absurd (hfg.symm.trans h.1) (by decide)
  rw [hgo]
  exact if_neg fun h => hm h.1

/-- The repair records of a sub-bank: at most 4 columns and 8 rows. -/
theorem length_repairFor (t cu ru : Nat) (cells : List (Nat × Nat)) : (repairFor t cu ru cells).length ≤ 12 := by
  unfold repairFor
  dsimp only
  split
  · simp only [List.length_append, List.length_mapIdx, List.length_take]
    omega
  · exact Nat.le_of_ble_eq_true rfl

theorem addRepair_waits {s : State} (h : ¬ 4096 ≤ s.bst.soft.length + s.bst.pendingRec.length) (unit : Nat) (r : Repair) :
    s.addRepair unit r = s.withBst { s.bst with pendingRec := s.bst.pendingRec ++ [r] } := if_neg h

/-- Records that all have room wait in their order. -/
theorem foldl_addRepair (unit : Nat) (rs : List Repair) {s : State} (h : s.bst.soft.length + s.bst.pendingRec.length + rs.length ≤ 4096) :
    rs.foldl (fun s r => s.addRepair unit r) s = s.withBst { s.bst with pendingRec := s.bst.pendingRec ++ rs } := by
  induction rs generalizing s with
  | nil => simp [withBst]
  | cons r rs ih =>
    rw [List.length_cons] at h
    rw [List.foldl_cons, addRepair_waits (by omega), ih (by simp only [withBst, List.length_append, List.length_singleton]; omega)]
    simp [withBst]

/-- The sub-bank of a slice after Restore. -/
def subAfter (x : Slice) (y : Sub) : Sub :=
  { y with role := if x.res = .fail then .failed else .spare, untested := x.res == .incomplete, isolated := false }

/-- The engine of a slice after Restore. -/
def engAfter (x : Slice) (y : Eng) : Eng :=
  { y with role := if x.res = .fail then .retired else .spare, untested := x.res == .incomplete, testing := false }

/-- A slice machine that is idle again. -/
def sliceIdle (x : Slice) : Slice := { x with st := .idle, cells := [] }

/-- Whether the records have room or not, repair changes the waiting records alone, apart from a fault it may raise. -/
theorem offFault_addRepairs (unit : Nat) (rs : List Repair) {s : State} (hhalt : s.flt.haltNow = false) :
    ∃ new, (rs.foldl (fun s r => s.addRepair unit r) s).offFault = (s.withBst { s.bst with pendingRec := new }).offFault := by
  induction rs generalizing s with
  | nil => exact ⟨s.bst.pendingRec, rfl⟩
  | cons r rs ih =>
    obtain ⟨new, hadd⟩ : ∃ new, (s.addRepair unit r).offFault = (s.withBst { s.bst with pendingRec := new }).offFault := by
      unfold addRepair
      split
      · exact ⟨s.bst.pendingRec, offFault_raise s (by decide) hhalt unit none none 0⟩
      · exact ⟨s.bst.pendingRec ++ [r], rfl⟩
    obtain ⟨old, hrest⟩ := ih (s := s.addRepair unit r) ((flt_of_offFault hadd).2.trans hhalt)
    refine ⟨old, hrest.trans ?_⟩
    have hbst := congrArg State.bst hadd
    have hkeep := congrArg (fun w : State => w.withBst { w.bst with pendingRec := old }) hadd
    exact hkeep

/-- What Restore of a memory slice leaves, with the records `rs` waiting for a settings write. -/
def memRestored (s : State) (rs : List Repair) : State :=
  s.withBst { s.bst with subs := FMap.mod {} s.bst.mem.target (subAfter s.bst.mem) s.bst.subs, mem := sliceIdle s.bst.mem, pendingRec := rs }

/-- The records that the repair of a memory slice's target asks for. -/
def memRepair (s : State) : List Repair :=
  repairFor s.bst.mem.target (s.sub s.bst.mem.target).cols (s.sub s.bst.mem.target).rows s.bst.mem.cells

theorem restoreMem_eq (s : State) : s.restoreMem =
    if s.bst.mem.res = .fail then
      s.memRepair.foldl (fun t r => t.addRepair s.bst.mem.target r) (s.modSub s.bst.mem.target (subAfter s.bst.mem))
    else s.modSub s.bst.mem.target (subAfter s.bst.mem) := rfl

theorem restoreMem_offFault {s : State} (hhalt : s.flt.haltNow = false) :
    ∃ rs, (s.restoreMem.modSlice .mem sliceIdle).offFault = (s.memRestored rs).offFault := by
  rw [restoreMem_eq]
  split
  · obtain ⟨new, hnew⟩ := offFault_addRepairs s.bst.mem.target s.memRepair (s := s.modSub s.bst.mem.target (subAfter s.bst.mem)) hhalt
    have hkeep := congrArg (fun w : State => w.modSlice .mem sliceIdle) hnew
    exact ⟨new, hkeep⟩
  · exact ⟨s.bst.pendingRec, rfl⟩

theorem restoreMem_records {s : State} (hres : s.bst.mem.res = .fail) (hroom : s.bst.soft.length + s.bst.pendingRec.length + 12 ≤ 4096) :
    s.restoreMem.modSlice .mem sliceIdle = s.memRestored (s.bst.pendingRec ++ s.memRepair) := by
  have hlen : s.memRepair.length ≤ 12 := length_repairFor ..
  rw [restoreMem_eq, if_pos hres,
    foldl_addRepair s.bst.mem.target s.memRepair (s := s.modSub s.bst.mem.target (subAfter s.bst.mem)) (show s.bst.soft.length + s.bst.pendingRec.length
      + s.memRepair.length ≤ 4096 by omega)]
  rfl

theorem sub_memRestored (s : State) (rs : List Repair) :
    (s.memRestored rs).sub s.bst.mem.target = subAfter s.bst.mem (s.sub s.bst.mem.target)
      ∧ ∀ m, m ≠ s.bst.mem.target → (s.memRestored rs).sub m = s.sub m :=
  ⟨FMap.get_mod_same .., fun _ hm => FMap.get_mod_ne hm ..⟩

theorem memSlice_restores {s : State} {n : Nat} (hw : s.works = true) (hm : s.mode ≠ .service) (hst : s.bst.mem.st = .restore)
    (hn : s.bst.mem.target = n) (hfg : s.bst.fg = false) :
    ∃ t, exec (.sliceRestored .mem) s = .next t
          ∧ t.sub n = { s.sub n with role := if s.bst.mem.res = .fail then .failed else .spare, untested := s.bst.mem.res == .incomplete
                                     isolated := false }
          ∧ (∀ m, m ≠ n → t.sub m = s.sub m) ∧ t.bst.mem = { s.bst.mem with st := .idle, cells := [] }
          ∧ (s.bst.mem.res ≠ .fail → t.bst.pendingRec = s.bst.pendingRec ∧ t = { s.start with bst := t.bst })
          ∧ (s.bst.mem.res = .fail → s.bst.soft.length + s.bst.pendingRec.length + 12 ≤ 4096 →
              t.bst.pendingRec = s.bst.pendingRec ++ repairFor n (s.sub n).cols (s.sub n).rows s.bst.mem.cells ∧ t = { s.start with bst := t.bst }) := by
  subst hn
  obtain ⟨rs, hoff⟩ := s.start.restoreMem_offFault rfl
  have hbst : (s.start.restoreMem.modSlice .mem sliceIdle).bst = (s.start.memRestored rs).bst := (congrArg State.bst hoff :)
  have hmode : (s.start.restoreMem.modSlice .mem sliceIdle).mode = s.mode := (congrArg State.mode hoff :)
  have hrun := (s.sliceRestored_runs (k := .mem) hw hst).trans (congrArg Host.Outcome.next (goesOn_alone
    (s := s.start.restoreMem.modSlice .mem sliceIdle) (by rw [hmode]; exact hm) (by rw [hbst]; exact hfg)))
  obtain ⟨hown, hothers⟩ := s.start.sub_memRestored rs
  refine ⟨_, hrun, ?_, fun m hne => ?_, ?_, fun hres => ?_, fun hres hroom => ?_⟩
  · rw [sub, hbst]
    exact hown
  · rw [sub, hbst]
    exact hothers m hne
  · rw [hbst]
    rfl
  · rw [restoreMem_eq, if_neg (show ¬ s.start.bst.mem.res = .fail from hres)]
    exact ⟨rfl, rfl⟩
  · rw [restoreMem_records (s := s.start) hres hroom]
    exact ⟨rfl, rfl⟩

/-! ### Restore of an engine -/

/-- What Restore of an engine slice leaves, with the records `rs` waiting for a settings write. -/
def engRestored (s : State) (rs : List Repair) : State :=
  { s with bst := { s.bst with eng := sliceIdle s.bst.eng, pendingRec := rs }, engs := FMap.mod {} s.bst.eng.target (engAfter s.bst.eng) s.engs }

theorem restoreEng_eq (s : State) : s.restoreEng =
    if s.bst.eng.res = .fail then
      (s.modEng s.bst.eng.target (engAfter s.bst.eng)).addRepair s.bst.eng.target { kind := 3, unit := s.bst.eng.target }
    else s.modEng s.bst.eng.target (engAfter s.bst.eng) := rfl

theorem restoreEng_offFault {s : State} (hhalt : s.flt.haltNow = false) :
    ∃ rs, (s.restoreEng.modSlice .eng sliceIdle).offFault = (s.engRestored rs).offFault := by
  rw [restoreEng_eq]
  split
  · obtain ⟨new, hnew⟩ := offFault_addRepairs s.bst.eng.target [{ kind := 3, unit := s.bst.eng.target }]
      (s := s.modEng s.bst.eng.target (engAfter s.bst.eng)) hhalt
    have hkeep := congrArg (fun w : State => w.modSlice .eng sliceIdle) hnew
    exact ⟨new, hkeep⟩
  · exact ⟨s.bst.pendingRec, rfl⟩

theorem engSlice_restores {s : State} {n : Nat} (hw : s.works = true) (hm : s.mode ≠ .service) (hst : s.bst.eng.st = .restore)
    (hn : s.bst.eng.target = n) (hfg : s.bst.fg = false) :
    ∃ t, exec (.sliceRestored .eng) s = .next t
          ∧ t.eng n = { s.eng n with role := if s.bst.eng.res = .fail then .retired else .spare, untested := s.bst.eng.res == .incomplete
                                     testing := false }
          ∧ (∀ m, m ≠ n → t.eng m = s.eng m) ∧ t.bst.eng = { s.bst.eng with st := .idle, cells := [] }
          ∧ (s.bst.eng.res ≠ .fail → t = { s.start with bst := { s.bst with eng := t.bst.eng }, engs := t.engs })
          ∧ (s.bst.eng.res = .fail → s.bst.soft.length + s.bst.pendingRec.length < 4096 →
              t.bst.pendingRec = s.bst.pendingRec ++ [{ kind := 3, unit := n }]) := by
  subst hn
  obtain ⟨rs, hoff⟩ := s.start.restoreEng_offFault rfl
  have hbst : (s.start.restoreEng.modSlice .eng sliceIdle).bst = (s.start.engRestored rs).bst := (congrArg State.bst hoff :)
  have hmode : (s.start.restoreEng.modSlice .eng sliceIdle).mode = s.mode := (congrArg State.mode hoff :)
  have hengs : (s.start.restoreEng.modSlice .eng sliceIdle).engs = (s.start.engRestored rs).engs := (congrArg State.engs hoff :)
  have hrun := (s.sliceRestored_runs (k := .eng) hw hst).trans (congrArg Host.Outcome.next (goesOn_alone
    (s := s.start.restoreEng.modSlice .eng sliceIdle) (by rw [hmode]; exact hm) (by rw [hbst]; exact hfg)))
  refine ⟨_, hrun, ?_, fun m hne => ?_, ?_, fun hres => ?_, fun hres hroom => ?_⟩
  · rw [eng, hengs]
    exact FMap.get_mod_same ..
  · rw [eng, hengs]
    exact FMap.get_mod_ne hne ..
  · rw [hbst]
    rfl
  · rw [restoreEng_eq, if_neg (show ¬ s.start.bst.eng.res = .fail from hres)]
    rfl
  · rw [restoreEng_eq, if_pos (show s.start.bst.eng.res = .fail from hres),
      addRepair_waits (s := s.start.modEng s.start.bst.eng.target (engAfter s.start.bst.eng)) (Nat.not_le.mpr hroom)]
    rfl

/-! ### The verdicts of Table 13.8 -/

theorem sliceTestDone_runs {s : State} (k : SliceKind) {r : SliceResult} (hw : s.works = true) (hst : (s.sliceOf k).st = .test) :
    exec (.sliceTestDone k r) s = .next (s.start.judgeSlice k { r with count := fullCount k }) :=
  congrArg Host.Outcome.next (if_pos ⟨hw, by cases k <;> exact hst⟩)

theorem sliceTimeLimit_runs {s : State} (k : SliceKind) {r : SliceResult} (hw : s.works = true) (hst : (s.sliceOf k).st = .test) :
    exec (.sliceTimeLimit k r) s = .next (s.start.judgeSlice k { r with count := min r.count (fullCount k - 1) }) :=
  congrArg Host.Outcome.next (if_pos ⟨hw, by cases k <;> exact hst⟩)

theorem sliceVerdict_full (k : SliceKind) (r : SliceResult) :
    sliceVerdict k { r with count := fullCount k } = if r.misr = r.expected ∧ (k = .eng ∨ r.cells = []) then .pass else .fail :=
  if_neg (not_not_intro rfl)

theorem sliceVerdict_short (k : SliceKind) (r : SliceResult) : sliceVerdict k { r with count := min r.count (fullCount k - 1) } = .incomplete :=
  if_pos (by cases k <;> simp only [fullCount] <;> omega)

theorem eq_of_offRegs_start {s t : State} {b : Bst} (h : t.offRegs = (s.start.withBst b).offRegs) : t = { s.start with bst := b, regs := t.regs } :=
  congrArg (fun w : State => { w with regs := t.regs }) h

theorem memTest_passes {s : State} {r : SliceResult} (hw : s.works = true) (hst : s.bst.mem.st = .test) (hmisr : r.misr = r.expected)
    (hcells : r.cells = []) :
    ∃ t, exec (.sliceTestDone .mem r) s = .next t ∧ t.f Fld.bstLastMem_result = 1 ∧ t.f Fld.bstLastMem_count = 12288
            ∧ t.f Fld.bstLastMem_target = s.bst.mem.target % 2 ^ 11 ∧ t.reg .bstMisrMem = r.misr ∧ t.reg .bstMisrMemExp = r.expected
            ∧ t.f Fld.bstCnt_passes = sat Fld.bstCnt_passes (s.f Fld.bstCnt_passes + 1) ∧ t.bst.mem.st = .restore ∧ t.bst.mem.res = .pass
            ∧ s.onlyBlocks t [.bst] ∧ t = { s.start with bst := { s.bst with mem := t.bst.mem }, regs := t.regs } := by
  obtain ⟨t, ht, ⟨hres, hcount, htarget, hm, hslice⟩, hcnt, honly, hoff⟩ := s.start.judgeSlice_passes (k := .mem)
    (r := { r with count := fullCount .mem }) ((sliceVerdict_full .mem r).trans (if_pos ⟨hmisr, .inr hcells⟩))
  have hmem : t.bst.mem = _ := hslice
  obtain ⟨hm, he⟩ := hm rfl
  refine ⟨t, (s.sliceTestDone_runs .mem hw hst).trans (congrArg _ ht), hres, hcount, htarget, hm, he, hcnt, by rw [hmem], by rw [hmem]; rfl, honly, ?_⟩
  rw [hmem]
  exact eq_of_offRegs_start hoff

theorem memTest_fails {s : State} {r : SliceResult} (hw : s.works = true) (hst : s.bst.mem.st = .test) (hbad : r.misr ≠ r.expected ∨ r.cells ≠ [])
    (hmute : s.mute 0x1C0 = true) :
    ∃ t, exec (.sliceTestDone .mem r) s = .next t ∧ t.f Fld.bstLastMem_result = 2 ∧ t.bst.mem.st = .restore ∧ t.bst.mem.res = .fail
            ∧ t.bst.mem.cells = r.cells ∧ t.f Fld.bstCnt_fails = sat Fld.bstCnt_fails (s.f Fld.bstCnt_fails + 1) ∧ s.counted t 0x1C0
            ∧ (∀ c cs, r.cells = c :: cs → t.f Fld.bstFailMem_row = c.1 % 2 ^ 11 ∧ t.f Fld.bstFailMem_bit = c.2 % 2 ^ 9
                ∧ t.f Fld.bstFailMem_ncells = min r.cells.length 2047)
            ∧ s.onlyBlocks t [.bst, .flt] := by
  have hfail : ¬ (r.misr = r.expected ∧ (SliceKind.mem = .eng ∨ r.cells = [])) := by
    rintro ⟨hm, hk | hc⟩
    · exact nomatch hk
    · exact hbad.elim (absurd hm) (absurd hc)
  obtain ⟨t, ht, ⟨hres, -, -, -, hslice⟩, hcnt, hcounted, hcells, honly⟩ := judgeMem_fails (s := s) (r := { r with count := fullCount .mem })
    ((sliceVerdict_full .mem r).trans (if_neg hfail)) (not_reset_of_works hw) hmute
  have hmem : t.bst.mem = _ := hslice
  exact ⟨t, (s.sliceTestDone_runs .mem hw hst).trans (congrArg _ ht), hres, by rw [hmem], by rw [hmem]; rfl, by rw [hmem], hcnt, hcounted, hcells, honly⟩

theorem memTest_incomplete {s : State} {r : SliceResult} (hw : s.works = true) (hst : s.bst.mem.st = .test) (hrun : s.bst.mem.incRun < 2) :
    ∃ t, exec (.sliceTimeLimit .mem r) s = .next t ∧ t.f Fld.bstLastMem_result = 3 ∧ t.f Fld.bstLastMem_count = min r.count 12287
            ∧ t.f Fld.bstCnt_incomplete = sat Fld.bstCnt_incomplete (s.f Fld.bstCnt_incomplete + 1) ∧ t.bst.mem.st = .restore
            ∧ t.bst.mem.res = .incomplete ∧ s.onlyBlocks t [.bst] ∧ t = { s.start with bst := { s.bst with mem := t.bst.mem }, regs := t.regs } := by
  obtain ⟨t, ht, ⟨hres, hcount, -, -, hslice⟩, hcnt, honly, hoff⟩ := s.start.judgeSlice_incomplete (k := .mem) (sliceVerdict_short .mem r) hrun
  have hmem : t.bst.mem = _ := hslice
  have hlt : min r.count 12287 % 2 ^ 16 = min r.count 12287 := by omega
  refine ⟨t, (s.sliceTimeLimit_runs .mem hw hst).trans (congrArg _ ht), hres, hcount.trans hlt, hcnt, by rw [hmem], by rw [hmem]; rfl, honly, ?_⟩
  rw [hmem]
  exact eq_of_offRegs_start hoff

theorem engTest_passes {s : State} {r : SliceResult} (hw : s.works = true) (hst : s.bst.eng.st = .test) (hmisr : r.misr = r.expected) :
    ∃ t, exec (.sliceTestDone .eng r) s = .next t ∧ t.f Fld.bstLastEng_result = 1 ∧ t.f Fld.bstLastEng_count = 3200
            ∧ t.bst.eng.st = .restore ∧ t.bst.eng.res = .pass ∧ t.f Fld.bstCnt_passes = sat Fld.bstCnt_passes (s.f Fld.bstCnt_passes + 1)
            ∧ s.onlyBlocks t [.bst] ∧ t = { s.start with bst := { s.bst with eng := t.bst.eng }, regs := t.regs } := by
  obtain ⟨t, ht, ⟨hres, hcount, -, -, hslice⟩, hcnt, honly, hoff⟩ := s.start.judgeSlice_passes (k := .eng)
    (r := { r with count := fullCount .eng }) ((sliceVerdict_full .eng r).trans (if_pos ⟨hmisr, .inl rfl⟩))
  have heng : t.bst.eng = _ := hslice
  refine ⟨t, (s.sliceTestDone_runs .eng hw hst).trans (congrArg _ ht), hres, hcount, by rw [heng], by rw [heng]; rfl, hcnt, honly, ?_⟩
  rw [heng]
  exact eq_of_offRegs_start hoff

theorem engTest_fails {s : State} {r : SliceResult} (hw : s.works = true) (hst : s.bst.eng.st = .test) (hbad : r.misr ≠ r.expected)
    (hmute : s.mute 0x1C1 = true) :
    ∃ t, exec (.sliceTestDone .eng r) s = .next t ∧ t.f Fld.bstLastEng_result = 2 ∧ t.bst.eng.st = .restore ∧ t.bst.eng.res = .fail
            ∧ t.f Fld.bstCnt_fails = sat Fld.bstCnt_fails (s.f Fld.bstCnt_fails + 1) ∧ s.counted t 0x1C1 ∧ s.onlyBlocks t [.bst, .flt] := by
  obtain ⟨t, ht, ⟨hres, -, -, -, hslice⟩, hcnt, hcounted, honly⟩ := judgeEng_fails (s := s) (r := { r with count := fullCount .eng })
    ((sliceVerdict_full .eng r).trans (if_neg fun h => hbad h.1)) (not_reset_of_works hw) hmute
  have heng : t.bst.eng = _ := hslice
  exact ⟨t, (s.sliceTestDone_runs .eng hw hst).trans (congrArg _ ht), hres, by rw [heng], by rw [heng]; rfl, hcnt, hcounted, honly⟩

theorem engTest_incomplete {s : State} {r : SliceResult} (hw : s.works = true) (hst : s.bst.eng.st = .test) (hrun : s.bst.eng.incRun < 2) :
    ∃ t, exec (.sliceTimeLimit .eng r) s = .next t ∧ t.f Fld.bstLastEng_result = 3 ∧ t.f Fld.bstLastEng_count = min r.count 3199
            ∧ t.bst.eng.st = .restore ∧ t.bst.eng.res = .incomplete ∧ s.onlyBlocks t [.bst] := by
  obtain ⟨t, ht, ⟨hres, hcount, -, -, hslice⟩, -, honly, -⟩ := s.start.judgeSlice_incomplete (k := .eng) (sliceVerdict_short .eng r) hrun
  have heng : t.bst.eng = _ := hslice
  have hlt : min r.count 3199 % 2 ^ 16 = min r.count 3199 := by omega
  exact ⟨t, (s.sliceTimeLimit_runs .eng hw hst).trans (congrArg _ ht), hres, hcount.trans hlt, by rw [heng], by rw [heng]; rfl, honly⟩

end State

/-- Settles O53: a judged slice is recorded in the registers of its kind and counted by its verdict; Restore changes its target alone. -/
theorem slicesAreJudgedAndRestored : Obligations.SlicesAreJudgedAndRestored := by
  unfold Obligations.SlicesAreJudgedAndRestored
  exact ⟨⟨fun s r hw hst => ⟨State.memTest_passes hw hst, State.memTest_fails hw hst, State.memTest_incomplete hw hst⟩,
    fun s r hw hst => ⟨State.engTest_passes hw hst, State.engTest_fails hw hst, State.engTest_incomplete hw hst⟩⟩,
    fun s n hw hm hst hn hfg => State.memSlice_restores hw hm hst hn hfg, fun s n hw hm hst hn hfg => State.engSlice_restores hw hm hst hn hfg⟩

end Sys2Proof.Machine
end

section
/-! PROOFS. Self-test slices start on their targets, and the end of Prepare (R176, R286 to R290). -/

namespace Sys2Proof.Machine

/-- A memory slice in Prepare on a target that a spare stands in for. -/
def Slice.onTarget (x : Slice) (n k : Nat) (landing : Bool) : Slice :=
  { x with st := .prepare, target := n, standin := k, wasLanding := landing, cut := false }

namespace State

theorem onlyFields.onlyBlocks {s t : State} {xs : List (Fld × Nat)} (h : s.onlyFields t xs) {b : Block}
    (hb : ∀ p ∈ xs, blockAt (regOff p.1.id p.2) = some b) : s.onlyBlocks t [b] :=
  fun k hk => h.1 k fun p hp he => hk b (he ▸ hb p hp) List.mem_cons_self

/-! ### A period -/

/-- A period has elapsed, and its slices start now. -/
def period (s : State) : State := s.start.withBst { s.bst with periods := s.bst.periods + 1, startDue := false }

theorem sliceStart_runs {s : State} (hm : s.mode = .run) (hp : s.phase = .steady) (hen : s.fb Fld.bstCfg_en = true) (hd : s.pwr.droop = false) :
    exec .sliceStart s = .next (if (s.period.periodic .mem).fb Fld.bstCfg_eng_en ∧ (s.period.periodic .mem).bst.periods
      % (s.period.periodic .mem).f Fld.bstCfg_eng_div = 0 then (s.period.periodic .mem).periodic .eng else s.period.periodic .mem) := by
  have hgo : ¬ (s.mode ≠ .run ∨ s.phase ≠ .steady ∨ (!s.fb Fld.bstCfg_en) = true) := by simp [hm, hp, hen]
  exact congrArg Host.Outcome.next ((if_neg fun h => absurd (hd.symm.trans h) (by decide)).trans (if_neg hgo))

/-- A memory slice alone starts, where the engines' slices are off. -/
theorem sliceStart_memory {s t : State} (hm : s.mode = .run) (hp : s.phase = .steady) (hen : s.fb Fld.bstCfg_en = true) (hd : s.pwr.droop = false)
    (heng : s.fb Fld.bstCfg_eng_en = false) (ht : s.period.periodic .mem = t) (hkeep : t.f Fld.bstCfg_eng_en = s.f Fld.bstCfg_eng_en) :
    exec .sliceStart s = .next t := by
  have hoff : t.fb Fld.bstCfg_eng_en = false := by rw [← heng, fb, fb, hkeep]
  rw [sliceStart_runs hm hp hen hd, ht]
  exact congrArg Host.Outcome.next (if_neg fun h => absurd (hoff.symm.trans h.1) (by decide))

/-- The target that steps 1 to 3 of R286 find for a memory slice. -/
def memFirst (s : State) : Option Nat := (s.againTarget .mem).orElse fun _ => (s.untestedSpare .mem).orElse fun _ => s.outOfTurn .mem

theorem periodic_first {s : State} {n : Nat} (hst : s.bst.mem.st = .idle) (hn : s.memFirst = some n) : s.period.periodic .mem = s.period.startMem n := by
  have hchoose : s.period.chooseTarget .mem = (some n, s.period) := by
    unfold chooseTarget
    rw [show ((s.period.againTarget .mem).orElse fun _ => (s.period.untestedSpare .mem).orElse fun _ => s.period.outOfTurn .mem) = some n from hn]
  unfold periodic
  rw [if_neg (show ¬ (s.period.sliceOf .mem).st ≠ .idle from not_not_intro hst)]
  dsimp only
  rw [hchoose]
  rfl

/-- Step 4 of R286, where it does not wrap. -/
theorem periodic_next {s : State} {n : Nat} (hst : s.bst.mem.st = .idle) (hnone : s.memFirst = none) (hn : s.nextTarget .mem = some n)
    (hwrap : ∀ l, s.bst.mem.last4 = some l → l < n) :
    s.period.periodic .mem = (s.period.modSlice .mem fun x => { x with last4 := some n }).startMem n := by
  have hchoose : s.period.chooseTarget .mem = (some n, s.period.modSlice .mem fun x => { x with last4 := some n }) := by
    unfold chooseTarget
    rw [show ((s.period.againTarget .mem).orElse fun _ => (s.period.untestedSpare .mem).orElse fun _ => s.period.outOfTurn .mem) = none from hnone]
    dsimp only
    rw [show s.period.nextTarget .mem = some n from hn]
    dsimp only
    cases hl : s.bst.mem.last4 with
    | none =>
      rw [show (s.period.sliceOf .mem).last4 = none from hl]
      rfl
    | some l =>
      rw [show (s.period.sliceOf .mem).last4 = some l from hl]
      dsimp only
      rw [if_neg (by simpa using hwrap l hl)]
  unfold periodic
  rw [if_neg (show ¬ (s.period.sliceOf .mem).st ≠ .idle from not_not_intro hst)]
  dsimp only
  rw [hchoose]
  rfl

/-- A memory slice starts with a spare in its target's place. -/
theorem startMem_standsIn {s : State} {n k : Nat} (hrole : (s.sub n).role ≠ .spare) (hk : s.spareSub = some k) :
    s.startMem n = s.withBst { s.bst with mem := s.bst.mem.onTarget n k ((s.sub n).role == .landing) } := by
  unfold startMem
  dsimp only
  rw [if_neg hrole, hk]
  rfl

theorem startMem_skips {s : State} {n : Nat} (hrole : (s.sub n).role ≠ .spare) (hk : s.spareSub = none) : s.startMem n = s.skipSlice .mem n := by
  unfold startMem
  dsimp only
  rw [if_neg hrole, hk]

/-- A slice that is SKIPPED is recorded, counted and reported. -/
theorem skipMem_tells {s : State} {n : Nat} (hm : s.mode ≠ .reset) (hst : s.bst.mem.st = .idle) (hmute : s.mute 0x1C3 = true) :
    ∃ t, s.period.skipSlice .mem n = t ∧ t.bst.mem.st = .idle ∧ t.bst.mem.res = .skipped ∧ t.f Fld.bstLastMem_valid = 1
              ∧ t.f Fld.bstLastMem_result = 4 ∧ t.f Fld.bstLastMem_target = n % 2 ^ 11
              ∧ t.f Fld.bstCnt2_skipped = sat Fld.bstCnt2_skipped (s.f Fld.bstCnt2_skipped + 1) ∧ s.counted t 0x1C3 ∧ s.onlyBlocks t [.bst, .flt]
              ∧ t = { s.start with bst := t.bst, regs := t.regs, flt := t.flt } ∧ t.f Fld.bstCfg_eng_en = s.f Fld.bstCfg_eng_en := by
  obtain ⟨v, hv, hoffv, -, honlyv, hkeepv⟩ := (s.period.modSlice .mem fun x => { x with target := n }.note .skipped).setF_tells
    (x := Fld.bstFailMem_valid) (by decide) (by decide) (n := 0) (by decide)
  obtain ⟨u, hu, hoffu, hvalid, hres, htgt, -, honlyu, hkeepu⟩ := v.lastResult_tells .mem 4 n 0
  obtain ⟨w, hw, hoffw, hcnt, honlyw⟩ := u.incF_tells (x := Fld.bstCnt2_skipped) (by decide) (by decide)
  have hoff := (hoffw.trans hoffu).trans hoffv
  have hbst : w.bst = (s.period.modSlice .mem fun x => { x with target := n }.note .skipped).bst := (congrArg State.bst hoff :)
  have hflt := congrArg State.flt hoff
  have hmode := congrArg State.mode hoff
  have honly : s.onlyBlocks w [.bst] := ((honlyv.onlyBlocks (b := .bst) (by decide) : s.onlyBlocks v [.bst]).trans honlyu).trans
    (honlyw.onlyBlocks (by decide))
  obtain ⟨hraised, hcounted⟩ := raise_after (u := w) (fun h => hm (hmode.symm.trans h)) (by decide) hmute hflt honly (by decide) n none none 0
  have hkeep {x : Fld} (hx : x.id = .bstLastMem) : (w.raise 0x1C3 n).f x = u.f x := by
    rw [hraised.only.f_eq (b := .bst) (by rw [hx]; decide) (by decide), ← hw, f_incF_ne u (by rw [hx]; decide)]
  have hbst' : (w.raise 0x1C3 n).bst = w.bst := (congrArg State.bst hraised.off :)
  refine ⟨w.raise 0x1C3 n, ?_, ?_, ?_, (hkeep rfl).trans hvalid, (hkeep rfl).trans hres, (hkeep rfl).trans htgt, ?_, hcounted,
    (honly.mono (by decide)).trans (hraised.only.mono (by decide)), ?_, ?_⟩
  · unfold skipSlice
    dsimp only
    rw [if_pos rfl, hv, hu, hw]
  · rw [hbst', hbst]
    exact hst
  · rw [hbst', hbst]
    rfl
  · rw [hraised.only.f_eq (b := .bst) (by decide) (by decide), hcnt, f, hkeepu _ 0 (by decide), ← hv, reg_setF_ne _ (by decide)]
    rfl
  · refine hraised.eq.trans ?_
    have hback := congrArg (fun x : State => { x with regs := (w.raise 0x1C3 n).regs, flt := (w.raise 0x1C3 n).flt }) (eq_of_offRegs hoff)
    rw [hbst', hbst] at *
    exact hback
  · rw [hraised.only.f_eq (b := .bst) (by decide) (by decide), ← hw, f_incF_ne u (by decide), f, hkeepu _ 0 (by decide), ← hv, reg_setF_ne _ (by decide)]
    rfl

theorem sliceStart_skips {s : State} {n : Nat} (hm : s.mode = .run) (hp : s.phase = .steady) (hen : s.fb Fld.bstCfg_en = true)
    (hd : s.pwr.droop = false) (heng : s.fb Fld.bstCfg_eng_en = false) (hst : s.bst.mem.st = .idle) (hn : s.memFirst = some n)
    (hrole : (s.sub n).role ≠ .spare) (hk : s.spareSub = none) (hmute : s.mute 0x1C3 = true) :
    ∃ t, exec .sliceStart s = .next t ∧ t.bst.mem.st = .idle ∧ t.bst.mem.res = .skipped ∧ t.f Fld.bstLastMem_valid = 1
              ∧ t.f Fld.bstLastMem_result = 4 ∧ t.f Fld.bstLastMem_target = n % 2 ^ 11
              ∧ t.f Fld.bstCnt2_skipped = sat Fld.bstCnt2_skipped (s.f Fld.bstCnt2_skipped + 1) ∧ s.counted t 0x1C3 ∧ s.onlyBlocks t [.bst, .flt]
              ∧ t = { s.start with bst := t.bst, regs := t.regs, flt := t.flt } := by
  obtain ⟨t, ht, hidle, hres, hvalid, hcode, htgt, hcnt, hcounted, honly, heq, hkeep⟩ := skipMem_tells (n := n) (s := s)
    (by rw [hm]; decide) hst hmute
  have hstart : s.period.periodic .mem = t := by
    rw [periodic_first hst hn, startMem_skips (s := s.period) hrole hk, ht]
  exact ⟨t, sliceStart_memory hm hp hen hd heng hstart hkeep, hidle, hres, hvalid, hcode, htgt, hcnt, hcounted, honly, heq⟩

theorem sliceStart_spare {s : State} {n : Nat} (hm : s.mode = .run) (hp : s.phase = .steady) (hen : s.fb Fld.bstCfg_en = true)
    (hd : s.pwr.droop = false) (heng : s.fb Fld.bstCfg_eng_en = false) (hst : s.bst.mem.st = .idle) (hn : s.memFirst = some n)
    (hrole : (s.sub n).role = .spare) :
    exec .sliceStart s = .next { s.start with bst := { s.bst with
              periods := s.bst.periods + 1, startDue := false
              mem := { s.bst.mem with st := .prepare, target := n, standin := 0, wasLanding := false, cut := false } } } :=
  sliceStart_memory hm hp hen hd heng ((periodic_first hst hn).trans (startMem_spare (s := s.period) hrole)) rfl

theorem sliceStart_standsIn {s : State} {n k : Nat} (hm : s.mode = .run) (hp : s.phase = .steady) (hen : s.fb Fld.bstCfg_en = true)
    (hd : s.pwr.droop = false) (heng : s.fb Fld.bstCfg_eng_en = false) (hst : s.bst.mem.st = .idle) (hn : s.memFirst = some n)
    (hrole : (s.sub n).role ≠ .spare) (hk : s.spareSub = some k) :
    exec .sliceStart s = .next { s.start with bst := { s.bst with
              periods := s.bst.periods + 1, startDue := false
              mem := { s.bst.mem with st := .prepare, target := n, standin := k, wasLanding := (s.sub n).role == .landing, cut := false } } } :=
  sliceStart_memory hm hp hen hd heng ((periodic_first hst hn).trans (startMem_standsIn (s := s.period) hrole hk)) rfl

theorem sliceStart_next {s : State} {n k : Nat} (hm : s.mode = .run) (hp : s.phase = .steady) (hen : s.fb Fld.bstCfg_en = true)
    (hd : s.pwr.droop = false) (heng : s.fb Fld.bstCfg_eng_en = false) (hst : s.bst.mem.st = .idle) (hnone : s.memFirst = none)
    (hn : s.nextTarget .mem = some n) (hwrap : ∀ l, s.bst.mem.last4 = some l → l < n) (hrole : (s.sub n).role ≠ .spare) (hk : s.spareSub = some k) :
    exec .sliceStart s = .next { s.start with bst := { s.bst with
            periods := s.bst.periods + 1, startDue := false
            mem := { s.bst.mem with
              st := .prepare, target := n, standin := k, wasLanding := (s.sub n).role == .landing, cut := false, last4 := some n } } } :=
  sliceStart_memory hm hp hen hd heng ((periodic_next hst hnone hn hwrap).trans
    (startMem_standsIn (s := s.period.modSlice .mem fun x => { x with last4 := some n }) hrole hk)) rfl

/-! ### An engine slice -/

/-- The wake of a part changes the slew governor alone. -/
theorem queueWake_pwr (s : State) (p : Part) (cls : Nat) : s.queueWake p cls = s.withPwr (s.queueWake p cls).pwr := by
  unfold queueWake
  dsimp only
  split <;> rfl

/-- An active engine's place passes to its stand-in. -/
def engStands (s : State) (n k : Nat) : State :=
  ((s.modEng n fun e => { e with role := .spare, testing := true }).withBst { s.bst with
    eng := { s.bst.eng with st := .prepare, target := n, standin := k, cut := false } }).modEng k fun e => { e with role := .active }

theorem sliceStart_engine {s : State} {n k : Nat} (hm : s.mode = .run) (hp : s.phase = .steady) (hen : s.fb Fld.bstCfg_en = true)
    (hd : s.pwr.droop = false) (hbusy : s.bst.mem.st ≠ .idle) (heng : s.fb Fld.bstCfg_eng_en = true)
    (hdiv : (s.bst.periods + 1) % s.f Fld.bstCfg_eng_div = 0) (hst : s.bst.eng.st = .idle)
    (hn : ((s.againTarget .eng).orElse fun _ => s.untestedSpare .eng) = some n) (hrole : (s.eng n).role = .active) (hk : s.spareEng = some k)
    (hne : k ≠ n) :
    ∃ t, exec .sliceStart s = .next t ∧ t.eng n = { s.eng n with role := .spare, testing := true } ∧ t.eng k = { s.eng k with role := .active }
          ∧ (∀ e, e ≠ n → e ≠ k → t.eng e = s.eng e)
          ∧ t.bst = { s.bst with
              periods := s.bst.periods + 1, startDue := false
              eng := { s.bst.eng with st := .prepare, target := n, standin := k, cut := false } }
          ∧ t = { s.start with engs := t.engs, bst := t.bst, pwr := t.pwr } := by
  have hmem : s.period.periodic .mem = s.period := if_pos hbusy
  have hchoose : s.period.chooseTarget .eng = (some n, s.period) := by
    have hfound : ((s.period.againTarget .eng).orElse fun _ => (s.period.untestedSpare .eng).orElse fun _ => s.period.outOfTurn .eng) = some n := by
      rw [← hn]
      change ((s.againTarget .eng).orElse fun _ => (s.untestedSpare .eng).orElse fun _ => none) = _
      cases s.againTarget .eng <;> cases s.untestedSpare .eng <;> rfl
    unfold chooseTarget
    rw [hfound]
  have hstart : s.period.startEng n = (s.period.engStands n k).queueWake (.eng k) 1 := by
    unfold startEng
    dsimp only
    rw [if_neg (show ¬ (s.period.eng n).role = .spare by rw [show s.period.eng n = s.eng n from rfl, hrole]; decide),
      show s.period.spareEng = some k from hk]
    rfl
  have hperiodic : s.period.periodic .eng = (s.period.engStands n k).queueWake (.eng k) 1 := by
    unfold periodic
    rw [if_neg (show ¬ (s.period.sliceOf .eng).st ≠ .idle from not_not_intro hst)]
    dsimp only
    rw [hchoose]
    exact hstart
  have hrun : exec .sliceStart s = .next ((s.period.engStands n k).queueWake (.eng k) 1) := by
    rw [sliceStart_runs hm hp hen hd, hmem, ← hperiodic]
    exact congrArg Host.Outcome.next (if_pos ⟨heng, hdiv⟩)
  have hpwr := (s.period.engStands n k).queueWake_pwr (.eng k) 1
  generalize (s.period.engStands n k).queueWake (.eng k) 1 = t at hrun hpwr
  have hengs : t.engs = (s.period.engStands n k).engs := (congrArg State.engs hpwr :)
  have hbst : t.bst = (s.period.engStands n k).bst := (congrArg State.bst hpwr :)
  have heng (e : Nat) : t.eng e = (s.period.engStands n k).eng e := eng_congr hengs e
  have heng' (u : State) (b : Bst) (e : Nat) : (u.withBst b).eng e = u.eng e := eng_congr rfl e
  refine ⟨t, hrun, ?_, ?_, fun e hen hek => ?_, hbst, ?_⟩
  · rw [heng, engStands, eng_modEng_ne _ hne.symm, heng']
    exact eng_modEng_same ..
  · rw [heng, engStands, eng_modEng_same, heng', eng_modEng_ne _ hne]
    rfl
  · rw [heng, engStands, eng_modEng_ne _ hek, heng', eng_modEng_ne _ hen]
    rfl
  · rw [hengs, hbst]
    exact hpwr

/-! ### A start that is not the moment for one -/

theorem sliceStart_none {s : State} (hd : s.pwr.droop = false) (h : s.mode ≠ .run ∨ s.phase ≠ .steady ∨ s.fb Fld.bstCfg_en = false) :
    exec .sliceStart s = .next { s.start with bst := { s.bst with startDue := false } } := by
  refine congrArg Host.Outcome.next ((if_neg fun hc => absurd (hd.symm.trans hc) (by decide)).trans (if_pos ?_))
  exact h.imp id (Or.imp id fun h => show (!s.fb Fld.bstCfg_en) = true by rw [h]; rfl)

theorem sliceStart_droops {s : State} (hd : s.pwr.droop = true) :
    (s.mode = .run → s.phase = .steady → s.fb Fld.bstCfg_en = true →
          exec .sliceStart s = .next { s.start with bst := { s.bst with startDue := true } })
        ∧ (s.mode ≠ .run ∨ s.phase ≠ .steady ∨ s.fb Fld.bstCfg_en = false → exec .sliceStart s = .next s.start) := by
  refine ⟨fun hm hp hen => congrArg Host.Outcome.next ((if_pos hd).trans (if_pos ⟨hm, hp, hen⟩)), fun h => ?_⟩
  refine congrArg Host.Outcome.next ((if_pos hd).trans (if_neg ?_))
  rintro ⟨hm, hp, hen⟩
  rcases h with h | h | h
  · exact h hm
  · exact h hp
  · exact absurd (h.symm.trans hen) (by decide)

theorem adaptationResume_starts {s : State} (hd : s.pwr.droop = false) (hdue : s.bst.startDue = true) :
    exec .adaptationResume s = exec .sliceStart { s with pwr := { s.pwr with adaptFrozen := false } } := by
  have hoff : ¬ s.pwr.droop = true := fun h => absurd (hd.symm.trans h) (by decide)
  exact congrArg Host.Outcome.next (((if_neg hoff).trans (if_pos hdue)).trans (if_neg hoff).symm)

/-! ### The end of Prepare -/

theorem sub_congr {s t : State} (h : t.bst.subs = s.bst.subs) (n : Nat) : t.sub n = s.sub n := by rw [sub, h, sub]
theorem sub_modSlice (s : State) (g : Slice → Slice) (n : Nat) : (s.modSlice .mem g).sub n = s.sub n := rfl
theorem sub_modSub_same (s : State) (n : Nat) (g : Sub → Sub) : (s.modSub n g).sub n = g (s.sub n) := FMap.get_mod_same ..
theorem sub_modSub_ne (s : State) {n m : Nat} (h : m ≠ n) (g : Sub → Sub) : (s.modSub n g).sub m = s.sub m := FMap.get_mod_ne h ..

theorem slicePrepared_runs {s : State} {k : SliceKind} (hw : s.works = true) : exec (.slicePrepared k) s = .next (s.start.prepared k) :=
  congrArg Host.Outcome.next (if_pos hw)

theorem beginTest_uncut {s : State} {k : SliceKind} (h : (s.sliceOf k).cut = false) : s.beginTest k = s.modSlice k fun x => { x with st := .test } := by
  refine if_neg fun hc => absurd (h.symm.trans (Eq.trans ?_ hc)) (by decide)
  cases k <;> rfl

theorem prepared_mem {s : State} (hst : s.bst.mem.st = .prepare) : s.prepared .mem =
    (if (s.sub s.bst.mem.target).role = .spare then s.modSub s.bst.mem.target fun x => { x with isolated := true }
      else s.swapSub s.bst.mem.target s.bst.mem.standin).beginTest .mem := if_neg (not_not_intro hst)

theorem slicePrepared_spare {s : State} {n : Nat} (hw : s.works = true) (hst : s.bst.mem.st = .prepare) (hn : s.bst.mem.target = n)
    (hcut : s.bst.mem.cut = false) (hrole : (s.sub n).role = .spare) :
    ∃ t, exec (.slicePrepared .mem) s = .next t ∧ t.sub n = { s.sub n with isolated := true } ∧ (∀ m, m ≠ n → t.sub m = s.sub m)
            ∧ t.bst.mem = { s.bst.mem with st := .test } ∧ t = { s.start with bst := t.bst } := by
  subst hn
  have hrun : s.start.prepared .mem = (s.start.modSub s.bst.mem.target fun x => { x with isolated := true }).modSlice .mem fun x =>
      { x with st := .test } := by
    rw [prepared_mem (s := s.start) hst, if_pos (show (s.start.sub s.start.bst.mem.target).role = .spare from hrole)]
    exact beginTest_uncut hcut
  exact ⟨_, (slicePrepared_runs hw).trans (congrArg _ hrun), (sub_modSlice ..).trans (sub_modSub_same s.start ..),
    fun m hm => (sub_modSlice ..).trans (sub_modSub_ne s.start hm _), rfl, rfl⟩

/-- The swap edge, on which the test begins. -/
theorem prepared_swaps {s : State} (hst : s.bst.mem.st = .prepare) (hcut : s.bst.mem.cut = false) (hrole : (s.sub s.bst.mem.target).role ≠ .spare) :
    s.prepared .mem = (s.swapSub s.bst.mem.target s.bst.mem.standin).modSlice .mem fun x => { x with st := .test } := by
  rw [prepared_mem hst, if_neg hrole]
  exact beginTest_uncut hcut

/-- What the swap edge does to the sub-banks, the Journal and the Landing pool. -/
def swapped (s : State) (n k : Nat) : State :=
  (({ s with
      jnl := { s.jnl with
        withheld := s.jnl.withheld.filter fun w => !(s.jnlSub w.1 w.2 == n)
        uncorr := s.jnl.uncorr.filter fun w => !((s.jnlSub w.1 w.2 == n) && s.jnl.withheld.contains w) }
      landOut := s.landOut.filter fun m => m != n } : State).modSub k fun y =>
    { y with role := (s.sub n).role, index := (s.sub n).index }).modSub n fun y => { y with role := .spare, index := 0, isolated := true }

theorem swapSub_eq (s : State) (n k : Nat) :
    s.swapSub n k = (s.swapped n k).incF (if (s.sub n).role = .landing then Fld.jnlMigCnt_landing else Fld.jnlMigCnt_journal) := rfl

theorem sub_swapped (s : State) {n k : Nat} (hne : k ≠ n) : (s.swapped n k).sub k = { s.sub k with role := (s.sub n).role, index := (s.sub n).index }
    ∧ (s.swapped n k).sub n = { s.sub n with role := .spare, index := 0, isolated := true }
    ∧ ∀ m, m ≠ n → m ≠ k → (s.swapped n k).sub m = s.sub m := by
  refine ⟨?_, ?_, fun m hmn hmk => ?_⟩
  · rw [swapped, sub_modSub_ne _ hne, sub_modSub_same]
    rfl
  · rw [swapped, sub_modSub_same, sub_modSub_ne _ hne.symm]
    rfl
  · rw [swapped, sub_modSub_ne _ hmn, sub_modSub_ne _ hmk]
    rfl

theorem slicePrepared_swaps {s : State} {n k : Nat} (hw : s.works = true) (hst : s.bst.mem.st = .prepare) (hn : s.bst.mem.target = n)
    (hk : s.bst.mem.standin = k) (hcut : s.bst.mem.cut = false) (hrole : (s.sub n).role ≠ .spare) (hne : k ≠ n) :
    ∃ t, exec (.slicePrepared .mem) s = .next t ∧ t.sub k = { s.sub k with role := (s.sub n).role, index := (s.sub n).index }
            ∧ t.sub n = { s.sub n with role := .spare, index := 0, isolated := true } ∧ (∀ m, m ≠ n → m ≠ k → t.sub m = s.sub m)
            ∧ t.bst.mem = { s.bst.mem with st := .test } ∧ (∀ m ∈ t.landOut, m ≠ n) ∧ (∀ w ∈ t.jnl.withheld, s.jnlSub w.1 w.2 ≠ n)
            ∧ t.jnl.entries = s.jnl.entries ∧ s.onlyRegs t [(.jnlMigCnt, 0)]
            ∧ t = { s.start with bst := t.bst, jnl := t.jnl, landOut := t.landOut, regs := t.regs } := by
  subst hn hk
  obtain ⟨hin, hout, hothers⟩ := s.start.sub_swapped hne
  obtain ⟨u, hu, hoff, honly⟩ : ∃ u, s.start.swapSub s.bst.mem.target s.bst.mem.standin = u
      ∧ u.offRegs = (s.start.swapped s.bst.mem.target s.bst.mem.standin).offRegs ∧ s.onlyRegs u [(.jnlMigCnt, 0)] := by
    refine ⟨_, rfl, ?_, ?_⟩
    · rw [swapSub_eq]
      exact offRegs_incF ..
    · rw [swapSub_eq]
      have hregs : s.onlyRegs (s.start.swapped s.bst.mem.target s.bst.mem.standin) [(.jnlMigCnt, 0)] := onlyRegs_of_regs rfl _
      split
      · exact hregs.incF (x := Fld.jnlMigCnt_landing) List.mem_cons_self 1
      · exact hregs.incF (x := Fld.jnlMigCnt_journal) List.mem_cons_self 1
  have hrun : exec (.slicePrepared .mem) s = .next (u.modSlice .mem fun x => { x with st := .test }) := by
    rw [slicePrepared_runs hw, prepared_swaps (s := s.start) hst hcut hrole, ← hu]
    rfl
  have hbst : u.bst = (s.start.swapped s.bst.mem.target s.bst.mem.standin).bst := (congrArg State.bst hoff :)
  have hjnl : u.jnl = (s.start.swapped s.bst.mem.target s.bst.mem.standin).jnl := (congrArg State.jnl hoff :)
  have hland : u.landOut = (s.start.swapped s.bst.mem.target s.bst.mem.standin).landOut := (congrArg State.landOut hoff :)
  have hsub (m : Nat) : (u.modSlice .mem fun x => { x with st := .test }).sub m = (s.start.swapped s.bst.mem.target s.bst.mem.standin).sub m :=
    sub_congr (congrArg Bst.subs hbst) m
  refine ⟨_, hrun, (hsub _).trans hin, (hsub _).trans hout, fun m hmn hmk => (hsub m).trans (hothers m hmn hmk), ?_, fun m hm => ?_, fun w hw => ?_, ?_,
    honly.congr rfl, ?_⟩
  · exact (congrArg (fun b : Bst => ({ b.mem with st := .test } : Slice)) hbst :)
  · rw [show (u.modSlice .mem fun x => { x with st := .test }).landOut = _ from hland] at hm
    simpa using (List.mem_filter.mp hm).2
  · rw [show (u.modSlice .mem fun x => { x with st := .test }).jnl = _ from hjnl] at hw
    have hkept := (List.mem_filter.mp hw).2
    exact fun h => absurd hkept (by rw [show s.start.jnlSub w.1 w.2 = s.bst.mem.target from h]; simp)
  · exact (congrArg Jnl.entries hjnl :)
  · have hback := congrArg (fun x : State => { x with regs := u.regs, bst := { u.bst with mem := { u.bst.mem with st := .test } }, jnl := u.jnl
                                                      landOut := u.landOut }) hoff
    exact hback

theorem slicePrepared_engine {s : State} (hw : s.works = true) (hst : s.bst.eng.st = .prepare) (hcut : s.bst.eng.cut = false)
    (hctxs : s.ctxsOf s.bst.eng.target = []) :
    ∃ t, exec (.slicePrepared .eng) s = .next t ∧ t = { s.start with bst := { s.bst with eng := { s.bst.eng with st := .test } } } := by
  have hquiet : s.start.moveQuiet = s.start := by
    unfold moveQuiet
    rw [show s.start.ctxsOf s.start.bst.eng.target = [] from hctxs]
    rfl
  refine ⟨_, (slicePrepared_runs hw).trans (congrArg _ ((if_neg (not_not_intro hst)).trans ?_)), rfl⟩
  dsimp only
  rw [hquiet, if_pos (by rw [show s.start.ctxsOf s.start.bst.eng.target = [] from hctxs]; rfl)]
  exact beginTest_uncut (s := s.start) (k := .eng) hcut

theorem subbankSwap_prepares {s : State} (n k : Fin 1056) (hw : s.works = true) (hst : s.bst.mem.st = .prepare) (hn : s.bst.mem.target = n.val)
    (hk : s.bst.mem.standin = k.val) (hrole : (s.sub n.val).role ≠ .spare) : exec (.subbankSwap n k) s = exec (.slicePrepared .mem) s :=
  (congrArg Host.Outcome.next (if_pos ⟨hw, hst, hn, hk, hrole⟩)).trans (slicePrepared_runs hw).symm

end State

/-- Settles O52: the start of a period chooses its target by R286; Prepare ends with the target isolated, or with its spare in its place. -/
theorem slicesStartAndPrepare : Obligations.SlicesStartAndPrepare := by
  unfold Obligations.SlicesStartAndPrepare
  refine ⟨⟨fun s n hm hp hen hd heng hst => ⟨fun hn => ⟨fun hrole => ⟨_, State.sliceStart_spare hm hp hen hd heng hst hn hrole, rfl⟩,
      fun k hrole hk => ⟨_, State.sliceStart_standsIn hm hp hen hd heng hst hn hrole hk, rfl⟩,
      fun hrole hk hmute => State.sliceStart_skips hm hp hen hd heng hst hn hrole hk hmute⟩,
      fun k hnone hn hwrap hrole hk => ⟨_, State.sliceStart_next hm hp hen hd heng hst hnone hn hwrap hrole hk, rfl⟩⟩,
    fun s n k hm hp hen hd hbusy heng hdiv hst hn hrole hk hne => State.sliceStart_engine hm hp hen hd hbusy heng hdiv hst hn hrole hk hne,
    fun s hd h => State.sliceStart_none hd h, fun s hd => State.sliceStart_droops hd, fun s hd hdue => State.adaptationResume_starts hd hdue⟩,
    fun s n k hw hst hn hk hcut => ⟨State.slicePrepared_spare hw hst hn hcut, State.slicePrepared_swaps hw hst hn hk hcut⟩,
    fun s n k hw hst hn hk hrole => State.subbankSwap_prepares n k hw hst hn hk hrole, fun s n k hw hst hn hk hcut hrole hne => ?_,
    fun s hw hst hcut hctxs => State.slicePrepared_engine hw hst hcut hctxs⟩
  obtain ⟨t, ht, hin, hout, -⟩ := State.slicePrepared_swaps hw hst hn hk hcut hrole fun h => hne (Fin.ext h)
  exact ⟨t, (State.subbankSwap_prepares n k hw hst hn hk hrole).trans ht, hin, hout⟩

end Sys2Proof.Machine
end

section
/-! PROOFS. The slots of the image and the last steps of LOAD (R294, R335 to R341). -/

namespace Sys2Proof.Machine

namespace State

/-! ### What a fault of any class leaves of LOAD -/

/-- A fault keeps the mode, or enters HALT. -/
theorem raise_mode (s : State) (src unit : Nat) (inst je : Option Nat) (detail : Nat) :
    (s.raise src unit inst je detail).mode = s.mode ∨ (s.raise src unit inst je detail).mode = .halt := by
  by_cases hm : s.mode = .reset
  · exact .inl (by rw [raise, if_pos hm])
  · by_cases hc : srcClass src = 3
    · exact .inr (raise_halts s unit inst je detail hm hc)
    · left
      have hact : (((s.noteFault src).capture src (syndrome unit inst je detail)).classAct src (syndrome unit inst je detail) inst).offFault = s.offFault :=
        ((offFault_classAct _ hc _ _).trans (offFault_capture _ _ _)).trans (s.offFault_noteFault src)
      have hmode := congrArg State.mode hact
      rw [raise_eq s src unit inst je detail hm]
      split
      · exact hmode
      · exact hmode

theorem img_setF (s : State) (x : Fld) (v i : Nat) : (s.setF x v i).img = s.img := (congrArg State.img (offRegs_setF s x v i) :)
theorem img_setPair (s : State) (lo hi : Fld) (v i : Nat) : (s.setPair lo hi v i).img = s.img := (congrArg State.img (offRegs_setPair s lo hi v i) :)
theorem img_modFlt (s : State) (g : Flt → Flt) : (s.modFlt g).img = s.img := rfl

theorem img_haltLink (s : State) (l : Nat) : (s.haltLink l).img = s.img := by
  unfold haltLink
  split
  · exact img_setF ..
  · rfl

theorem addFatalRecord_step (s : State) : s.addFatalRecord.img.step = s.img.step := by
  rw [addFatalRecord, incF, img_setF]
  rfl

theorem enterHalt_step (s : State) : s.enterHalt.img.step = s.img.step := by
  unfold enterHalt
  split
  · rfl
  · dsimp only
    rw [img_modFlt, img_setF, img_setF, addFatalRecord_step]
    change ((({ s with mode := .halt, phase := .steady } : State).haltLink 0).haltLink 1).img.step = s.img.step
    rw [img_haltLink, img_haltLink]

theorem haltRecord_img (s : State) (src syn : Nat) : (s.haltRecord src syn).img = s.img := by
  unfold haltRecord
  split
  · rw [img_modFlt, img_setPair, img_setPair, img_setF, img_setF]
  · rfl

theorem raise_step (s : State) (src unit : Nat) (inst je : Option Nat) (detail : Nat) : (s.raise src unit inst je detail).img.step = s.img.step := by
  by_cases hm : s.mode = .reset
  · rw [raise, if_pos hm]
  · have hcap : ((s.noteFault src).capture src (syndrome unit inst je detail)).img = s.img :=
      (congrArg State.img ((offFault_capture (s.noteFault src) src (syndrome unit inst je detail)).trans (s.offFault_noteFault src)) :)
    have hact : (((s.noteFault src).capture src (syndrome unit inst je detail)).classAct src (syndrome unit inst je detail) inst).img.step
        = s.img.step := by
      rw [← hcap]
      generalize (s.noteFault src).capture src (syndrome unit inst je detail) = t
      by_cases hc : srcClass src = 3
      · simp only [classAct, hc]
        split_ifs
        · rw [haltRecord_img]
          rfl
        · rfl
        · rw [enterHalt_step, haltRecord_img]
          rfl
      · exact congrArg Img.step (congrArg State.img (offFault_classAct t hc (syndrome unit inst je detail) inst) :)
    rw [raise_eq s src unit inst je detail hm]
    split
    · exact hact
    · exact hact

/-! ### The memories are formed -/

/-- What the search for an element by its value finds in a list without repetition. -/
theorem findIdx?_getElem {xs : List Nat} (h : xs.Nodup) {i : Nat} (hi : i < xs.length) : xs.findIdx? (· == xs[i]) = some i := by
  refine List.findIdx?_eq_some_iff_getElem.mpr ⟨hi, by simp, fun j hj => ?_⟩
  have hne : xs[j] ≠ xs[i] := fun he => absurd ((List.Nodup.getElem_inj_iff h).mp he) (by omega)
  simpa using hne

/-- A predicate that goes by the place in a list without repetition picks a part of it. -/
theorem filter_range {xs : List Nat} {p : Nat → Bool} {lo hi : Nat} (hlo : lo ≤ hi) (hlen : hi ≤ xs.length)
    (hp : ∀ i (h : i < xs.length), p xs[i] = true ↔ lo ≤ i ∧ i < hi) : (xs.filter p).length = hi - lo := by
  have hsplit : xs = xs.take lo ++ ((xs.drop lo).take (hi - lo) ++ xs.drop hi) := by
    have hdrop : xs.drop hi = (xs.drop lo).drop (hi - lo) := by rw [List.drop_drop, Nat.add_sub_cancel' hlo]
    rw [hdrop, List.take_append_drop, List.take_append_drop]
  have hfirst : (xs.take lo).filter p = [] := by
    refine List.filter_eq_nil_iff.mpr fun x hx => ?_
    obtain ⟨i, hi', rfl⟩ := List.mem_take_iff_getElem.mp hx
    exact fun h => absurd ((hp i (by omega)).mp h) (by omega)
  have hmid : ((xs.drop lo).take (hi - lo)).filter p = (xs.drop lo).take (hi - lo) := by
    refine List.filter_eq_self.mpr fun x hx => ?_
    obtain ⟨i, hi', rfl⟩ := List.mem_take_iff_getElem.mp hx
    rw [List.length_drop] at hi'
    rw [List.getElem_drop]
    exact (hp (lo + i) (by omega)).mpr (by omega)
  have hlast : (xs.drop hi).filter p = [] := by
    refine List.filter_eq_nil_iff.mpr fun x hx => ?_
    obtain ⟨i, hi', rfl⟩ := List.mem_iff_getElem.mp hx
    rw [List.getElem_drop]
    exact fun h => absurd ((hp (hi + i) (by rw [List.length_drop] at hi'; omega)).mp h) (by omega)
  rw [hsplit, List.filter_append, List.filter_append, hfirst, hmid, hlast, List.nil_append, List.append_nil, List.length_take, List.length_drop]
  omega

/-- The sub-banks that may serve, ascending. -/
def goodSubs (s : State) (bad : List Nat) : List Nat := (List.range 1056).filter fun t => (s.recs 0 t).isEmpty && !bad.contains t

/-- The role and index at a place among the good sub-banks (R294). -/
def placeRole (i : Nat) : SubRole × Nat := if i < 768 then (.journal, i) else if i < 1024 then (.landing, i - 768) else (.spare, 0)

/-- The sub-bank that LOAD forms. -/
def formedSub (s : State) (bad : List Nat) (t : Nat) : Sub :=
  let x : Sub := { rows := (s.recs 1 t).length, cols := (s.recs 2 t).length }
  match (s.goodSubs bad).findIdx? (· == t) with
  | some i => { x with role := (placeRole i).1, index := (placeRole i).2 }
  | none => x

/-- The sub-banks that LOAD forms. -/
def formedSubs (s : State) (bad : List Nat) : FMap Sub :=
  (List.range 1056).filterMap fun t => if s.formedSub bad t = {} then none else some (t, s.formedSub bad t)

theorem formSubs_eq (s : State) (bad : List Nat) : s.formSubs bad =
    if (s.goodSubs bad).length < 1024 then (s.withBst { s.bst with subs := s.formedSubs bad }).raise 0x1C6
    else s.withBst { s.bst with subs := s.formedSubs bad } := by
  unfold formSubs formedSubs formedSub goodSubs
  generalize List.range 1056 = ts
  rfl

/-- What a predicate picks, another that is weaker may pick first. -/
theorem length_filter_filter {ts : List Nat} {p q : Nat → Bool} (h : ∀ t ∈ ts, p t = true → q t = true) :
    (ts.filter p).length = ((ts.filter q).filter p).length := by
  rw [List.filter_filter]
  refine congrArg List.length (List.filter_congr fun t ht => ?_)
  cases hp : p t with
  | false => rfl
  | true => rw [h t ht hp]; rfl

/-- The sub-banks of a role, counted in the range. -/
theorem length_filter_formed {f : Nat → Sub} {r : SubRole} (hr : r ≠ .failed) (ts : List Nat) :
    ((ts.filterMap fun t => if f t = {} then none else some (t, f t)).filter fun x => x.2.role == r).length
      = (ts.filter fun t => (f t).role == r).length := by
  induction ts with
  | nil => rfl
  | cons t ts ih =>
    by_cases he : f t = {}
    · have hrole : ((f t).role == r) = false := by
        rw [he]
        exact beq_false_of_ne hr.symm
      rw [List.filterMap_cons_none (by rw [if_pos he]), List.filter_cons_of_neg (by rw [hrole]; decide), ih]
    · rw [List.filterMap_cons_some (by rw [if_neg he])]
      by_cases hrole : ((f t).role == r) = true
      · rw [List.filter_cons_of_pos (p := fun x : Nat × Sub => x.2.role == r) hrole, List.filter_cons_of_pos (p := fun t => (f t).role == r) hrole, List.length_cons, List.length_cons, ih]
      · rw [List.filter_cons_of_neg (p := fun x : Nat × Sub => x.2.role == r) hrole, List.filter_cons_of_neg (p := fun t => (f t).role == r) hrole, ih]

theorem formedSub_at {s : State} {bad : List Nat} {t i : Nat} (h : (s.goodSubs bad).findIdx? (· == t) = some i) :
    (s.formedSub bad t).role = (placeRole i).1 := by
  unfold formedSub
  rw [h]

theorem formedSubs_role {s : State} {bad : List Nat} {r : SubRole} {lo hi' : Nat} (hr : r ≠ .failed) (hlo : lo ≤ hi')
    (hlen : hi' ≤ (s.goodSubs bad).length) (hplace : ∀ i, (placeRole i).1 = r ↔ lo ≤ i ∧ i < hi') :
    ((s.formedSubs bad).filter fun x => x.2.role == r).length = hi' - lo := by
  have hnodup : (s.goodSubs bad).Nodup := List.nodup_range.filter _
  have hfailed {t : Nat} (ht : (s.formedSub bad t).role == r) : t ∈ s.goodSubs bad := by
    by_contra hout
    have hnone : (s.goodSubs bad).findIdx? (· == t) = none := List.findIdx?_eq_none_iff.mpr fun x hx => by
      simpa using fun h : x = t => hout (h ▸ hx)
    unfold formedSub at ht
    rw [hnone] at ht
    exact hr ((by simpa using ht : SubRole.failed = r).symm)
  have hgood {t : Nat} (hp : (s.formedSub bad t).role == r) : ((s.recs 0 t).isEmpty && !bad.contains t) = true := by
    have hmem := hfailed hp
    rw [goodSubs, List.mem_filter] at hmem
    exact hmem.2
  have hrole (i : Nat) (hi : i < (s.goodSubs bad).length) : ((s.formedSub bad (s.goodSubs bad)[i]).role == r) = true ↔ lo ≤ i ∧ i < hi' := by
    rw [formedSub_at (findIdx?_getElem hnodup hi), beq_iff_eq]
    exact hplace i
  have hcount := filter_range hlo hlen (p := fun t => (s.formedSub bad t).role == r) hrole
  rw [goodSubs, ← length_filter_filter fun _ _ hp => hgood hp] at hcount
  rw [formedSubs, length_filter_formed hr, hcount]

theorem formedSubs_split {s : State} {bad : List Nat} (h : ¬ (s.goodSubs bad).length < 1024) :
    ((s.formedSubs bad).filter fun x => x.2.role == .journal).length = 768
      ∧ ((s.formedSubs bad).filter fun x => x.2.role == .landing).length = 256 := by
  have hplace (i : Nat) : (placeRole i = (.journal, i) ∧ i < 768) ∨ (placeRole i = (.landing, i - 768) ∧ 768 ≤ i ∧ i < 1024)
      ∨ (placeRole i = (.spare, 0) ∧ 1024 ≤ i) := by
    unfold placeRole
    split_ifs <;> simp <;> omega
  refine ⟨formedSubs_role (r := .journal) (lo := 0) (hi' := 768) (by decide) (by decide) (by omega) fun i => ?_,
    formedSubs_role (r := .landing) (lo := 768) (hi' := 1024) (by decide) (by decide) (by omega) fun i => ?_⟩
  · rcases hplace i with ⟨h, hi⟩ | ⟨h, hlo, hhi⟩ | ⟨h, hi⟩ <;> rw [h] <;> simp <;> omega
  · rcases hplace i with ⟨h, hi⟩ | ⟨h, hlo, hhi⟩ | ⟨h, hi⟩ <;> rw [h] <;> simp <;> omega

/-- Whether LOAD goes on or HALT was entered, with the step of LOAD kept. -/
def loadGoes (s t : State) : Prop := t.img.step = s.img.step ∧ (t.mode = s.mode ∨ t.mode = .halt)

theorem loadGoes.trans {s t u : State} (h : s.loadGoes t) (h' : t.loadGoes u) : s.loadGoes u := by
  obtain ⟨hstep, hmode⟩ := h
  obtain ⟨hstep', hmode'⟩ := h'
  refine ⟨hstep'.trans hstep, ?_⟩
  rcases hmode' with h | h
  · exact hmode.imp h.trans h.trans
  · exact .inr h

theorem loadGoes_raise (s : State) (src unit : Nat) : s.loadGoes (s.raise src unit) := ⟨raise_step .., raise_mode ..⟩

theorem loadGoes_addRepair (s : State) (unit : Nat) (r : Repair) : s.loadGoes (s.addRepair unit r) := by
  unfold addRepair
  split
  · exact loadGoes_raise ..
  · exact ⟨rfl, .inl rfl⟩

theorem loadGoes_foldl {α : Type} {g : State → α → State} (h : ∀ (s : State) (x : α), s.loadGoes (g s x)) (xs : List α) (s : State) : s.loadGoes (xs.foldl g s) := by
  induction xs generalizing s with
  | nil => exact ⟨rfl, .inl rfl⟩
  | cons x xs ih => exact (h s x).trans (ih (g s x))

theorem loadGoes_repairSub (s : State) (t : Nat) (cells : List (Nat × Nat)) : s.loadGoes (s.repairSub t cells) := by
  unfold repairSub
  split
  · exact ⟨rfl, .inl rfl⟩
  · exact loadGoes_foldl (fun s r => loadGoes_addRepair s t r) _ s

theorem formSubs_goes (s : State) (bad : List Nat) (hm : s.mode ≠ .reset) : s.loadGoes (s.formSubs bad) ∧ ((s.formSubs bad).mode ≠ .halt →
    ((s.formSubs bad).bst.subs.filter fun x => x.2.role == .journal).length = 768
      ∧ ((s.formSubs bad).bst.subs.filter fun x => x.2.role == .landing).length = 256) := by
  have hsplit := s.formedSubs_split (bad := bad)
  rw [formSubs_eq]
  generalize s.formedSubs bad = subs at hsplit ⊢
  have hsame : s.loadGoes (s.withBst { s.bst with subs := subs }) := ⟨rfl, .inl rfl⟩
  split
  · exact ⟨hsame.trans (loadGoes_raise _ 0x1C6 0), fun h => absurd (raise_halts (s.withBst { s.bst with subs := subs }) 0 none none 0 hm (by decide)) h⟩
  · next hlen => exact ⟨hsame, fun _ => hsplit hlen⟩

theorem engineOrder_lt {e : Nat} (h : e ∈ engineOrder) : e < 104 := by
  obtain ⟨k, hk, c, hc, rfl⟩ : ∃ k < 26, ∃ c < 4, 26 * c + k = e := by simpa [engineOrder] using h
  omega

theorem raise_engs (s : State) (src unit : Nat) (inst je : Option Nat) (detail : Nat) : (s.raise src unit inst je detail).engs = s.engs :=
  (congrArg State.engs (offHalt_raise s src unit inst je detail) : (s.raise src unit inst je detail).offHalt.engs = s.offHalt.engs)

/-- The engines that LOAD forms, of the good ones (R155). -/
def formedEngs (good : List Nat) (nact : Nat) : FMap Eng :=
  (List.range 104).map fun e =>
    (e, { role := if (good.take nact).contains e then .active else if good.contains e then .spare else .retired })

theorem formEngines_eq (s : State) (nact : Nat) (bad : List Nat) : ∃ good, (∀ e ∈ good, e < 104) ∧ s.formEngines nact bad =
    if good.isEmpty then ({ s with engs := formedEngs good nact } : State).raise 0x084
    else if good.length < nact then ({ s with engs := formedEngs good nact } : State).raise 0x083
    else { s with engs := formedEngs good nact } := by
  refine ⟨engineOrder.filter fun e => !bad.contains e && (s.recs 3 e).isEmpty, fun e he => engineOrder_lt (List.mem_filter.mp he).1, ?_⟩
  unfold formEngines formedEngs
  generalize List.range 104 = es
  generalize engineOrder = order
  rfl

theorem formedEngs_works {good : List Nat} (h : good ≠ []) (hlt : ∀ e ∈ good, e < 104) (nact : Nat) :
    ∃ e ∈ formedEngs good nact, e.2.role ≠ .retired := by
  obtain ⟨e, he⟩ := List.exists_mem_of_ne_nil good h
  refine ⟨_, List.mem_map.mpr ⟨e, List.mem_range.mpr (hlt e he), rfl⟩, ?_⟩
  dsimp only
  rw [if_pos (List.contains_iff_mem.mpr he)]
  split <;> decide

theorem formEngines_goes (s : State) (nact : Nat) (bad : List Nat) (hm : s.mode ≠ .reset) :
    s.loadGoes (s.formEngines nact bad) ∧ (s.formEngines nact bad).bst = s.bst
      ∧ ((s.formEngines nact bad).mode ≠ .halt → ∃ e ∈ (s.formEngines nact bad).engs, e.2.role ≠ .retired) := by
  obtain ⟨good, hlt, heq⟩ := s.formEngines_eq nact bad
  rw [heq]
  split
  · exact ⟨loadGoes_raise { s with engs := formedEngs good nact } 0x084 0, raise_bst ..,
      fun h => absurd (raise_halts { s with engs := formedEngs good nact } 0 none none 0 hm (by decide)) h⟩
  · next hne =>
    have hworks := formedEngs_works (by simpa using hne) hlt nact
    split
    · refine ⟨loadGoes_raise { s with engs := formedEngs good nact } 0x083 0, raise_bst .., fun _ => ?_⟩
      rw [raise_engs]
      exact hworks
    · exact ⟨⟨rfl, .inl rfl⟩, rfl, fun _ => hworks⟩

theorem loadBist_goes {s : State} (r : BistResult) (hm : s.mode = .load) (hstep : s.img.step = 8) :
    ∃ t, exec (.loadBist r) s = .next t ∧ t.img.step = 9 ∧ (t.mode = .load ∨ t.mode = .halt)
          ∧ (t.mode = .load → (t.bst.subs.filter fun x => x.2.role == .journal).length = 768
              ∧ (t.bst.subs.filter fun x => x.2.role == .landing).length = 256 ∧ ∃ e ∈ t.engs, e.2.role ≠ .retired) := by
  have hgo : ¬ (s.start.mode ≠ .load ∨ s.start.img.step ≠ 8) := by
    rintro (h | h)
    · exact h hm
    · exact h hstep
  refine ⟨_, congrArg Host.Outcome.next (if_neg hgo), ?_⟩
  dsimp only
  obtain ⟨b, hb⟩ : ∃ b, s.start.modImg (fun m => { m with step := 9 }) = b := ⟨_, rfl⟩
  have hbstep : b.img.step = 9 := by rw [← hb]; rfl
  have hbmode : b.mode = .load := by rw [← hb]; exact hm
  rw [hb]
  have hrepairs := loadGoes_foldl (fun s (x : Nat × List (Nat × Nat)) => loadGoes_repairSub s x.1 x.2) r.fails b
  generalize r.fails.foldl (fun s x => s.repairSub x.1 x.2) b = c at hrepairs ⊢
  have hagain := loadGoes_foldl (g := fun s t => if (s.recs 0 t).isEmpty then s.addRepair t { kind := 0, unit := t } else s) (fun s t => by
    split
    · exact loadGoes_addRepair ..
    · exact ⟨rfl, .inl rfl⟩) (r.again.filter (· < 1056)) c
  generalize (r.again.filter (· < 1056)).foldl (fun s t => if (s.recs 0 t).isEmpty then s.addRepair t { kind := 0, unit := t } else s) c = d
    at hagain ⊢
  obtain ⟨hdstep, hdmode⟩ := hrepairs.trans hagain
  rw [hbmode] at hdmode
  have hd : d.mode ≠ .reset := by rcases hdmode with h | h <;> rw [h] <;> decide
  obtain ⟨hsubs, hlens⟩ := d.formSubs_goes r.again hd
  generalize d.formSubs r.again = e at hsubs hlens ⊢
  obtain ⟨hestep, hemode⟩ := hsubs
  have he : e.mode = .load ∨ e.mode = .halt := by
    rcases hemode with h | h
    · rw [h]
      exact hdmode
    · exact .inr h
  obtain ⟨⟨hfstep, hfmode⟩, hfbst, hengs⟩ := e.formEngines_goes ((candidate d.img.image).f Fld.engCfg_nact) r.badEngs
    (by rcases he with h | h <;> rw [h] <;> decide)
  generalize e.formEngines ((candidate d.img.image).f Fld.engCfg_nact) r.badEngs = f at hfstep hfmode hfbst hengs ⊢
  have hf : f.mode = .load → e.mode = .load := fun h => by
    rcases hfmode with h' | h'
    · rw [← h', h]
    · rw [h] at h'
      exact absurd h' (by decide)
  refine ⟨hfstep.trans (hestep.trans (hdstep.trans hbstep)), ?_, fun h => ?_⟩
  · rcases hfmode with h | h
    · rw [h]
      exact he
    · exact .inr h
  · obtain ⟨hjnl, hland⟩ := hlens (by rw [hf h]; decide)
    rw [hfbst]
    exact ⟨hjnl, hland, hengs (by rw [h]; decide)⟩

/-! ### A slot fails -/

/-- What rescue leaves of the registers and the other records that LOAD and rescue are known by. -/
def rescueMark (s : State) : Mode × Bool × Nat × Nat := (s.mode, s.pwr.rescue, s.img.step, s.f Fld.fltCntCe_count)

theorem rescueMark_congr {s t : State} (hmode : t.mode = s.mode) (hpwr : t.pwr.rescue = s.pwr.rescue) (himg : t.img.step = s.img.step)
    (hregs : t.regs = s.regs) : t.rescueMark = s.rescueMark := by rw [rescueMark, hmode, hpwr, himg, f_congr hregs, rescueMark]

theorem rescueMark_setF (s : State) {x : Fld} {i : Nat} (h : regOff .fltCntCe 0 ≠ regOff x.id i) (v : Nat) : (s.setF x v i).rescueMark = s.rescueMark := by
  rw [rescueMark, f_setF_ne (y := Fld.fltCntCe_count) s h v, rescueMark]
  rfl

theorem rescueMark_setImg (s : State) {x : Fld} {i : Nat} (h : regOff .fltCntCe 0 ≠ regOff x.id i) (v : Nat) :
    (s.setImg x v i).rescueMark = s.rescueMark := rescueMark_setF s h v

theorem foldl_keeps {α β : Type} {m : State → β} {g : State → α → State} {xs : List α} (h : ∀ x ∈ xs, ∀ s, m (g s x) = m s) (s : State) :
    m (xs.foldl g s) = m s := by
  induction xs generalizing s with
  | nil => rfl
  | cons x xs ih =>
    rw [List.foldl_cons, ih (fun y hy => h y (List.mem_cons_of_mem _ hy)), h x List.mem_cons_self]

theorem rescueMark_avsStart (s : State) (mv tries : Nat) : (s.avsStart mv tries).rescueMark = s.rescueMark := by
  unfold avsStart
  dsimp only
  split <;> exact rescueMark_congr rfl rfl rfl rfl

theorem enterRescue_enters (s : State) : s.enterRescue.rescueMark = (.service, true, 11, s.f Fld.fltCntCe_count) := by
  unfold enterRescue
  dsimp only
  rw [rescueMark_avsStart, rescueMark_setImg _ (by decide), foldl_keeps (m := rescueMark), loadMs, rescueMark_setF _ (by decide)]
  · rfl
  · intro l hl t
    rw [foldl_keeps (m := rescueMark)]
    · exact rescueMark_setF t (by revert l; decide) 2
    · intro c hc u
      have hne : ∀ id ∈ [RegId.tlkCredHdr, .tlkCredData], ∀ l ∈ [0, 1], ∀ c ∈ [0, 1, 2, 3], regOff .fltCntCe 0 ≠ regOff id (4 * l + c) := by decide
      have hc' : c.1 ∈ [0, 1, 2, 3] := by
        revert c
        decide
      rw [rescueMark_setImg _ (hne _ (by decide) l hl _ hc'), rescueMark_setImg _ (hne _ (by decide) l hl _ hc'),
        rescueMark_setImg _ (hne _ (by decide) l hl _ hc'), rescueMark_setImg _ (hne _ (by decide) l hl _ hc')]

/-- The registers that tell of the slots. -/
def slotRegs : List (RegId × Nat) := [(.imgSlotA, 0), (.imgSlotIdA, 0), (.imgSlotB, 0), (.imgSlotIdB, 0)]

theorem slotResult_tells (s : State) (slot cause sect : Nat) (byVerify : Bool) (b : List Byte) :
    ∃ u, s.slotResult slot cause sect byVerify b = u ∧ u.offRegs = s.offRegs ∧ s.onlyRegs u slotRegs := by
  unfold slotResult
  dsimp only
  split
  · exact ⟨_, rfl, by rw [offRegs_setReg, offRegs_setReg], (onlyRegs_setReg s (by decide) _).setReg (by decide) _⟩
  · exact ⟨_, rfl, by rw [offRegs_setReg, offRegs_setReg], (onlyRegs_setReg s (by decide) _).setReg (by decide) _⟩

/-- What is left where a slot has failed: the other slot is tried, or rescue follows. -/
def slotGone (s t : State) : Prop :=
  (if s.img.second then t.mode = .service ∧ t.pwr.rescue = true ∧ t.img.step = 11
    else t.mode = .load ∧ t.img.step = 4 ∧ t.img.second = true ∧ t.img.slot = 1 - s.img.slot)
  ∧ t.f Fld.fltCntCe_count = sat Fld.fltCntCe_count (s.f Fld.fltCntCe_count + 1)

theorem slotFails_goes {s : State} (hm : s.mode = .load) (hhalt : s.flt.haltNow = false) (cause sect : Nat) (b : List Byte) :
    s.slotGone (s.slotFails cause sect b) := by
  obtain ⟨u, hu, hoff, honly⟩ := s.slotResult_tells s.img.slot cause sect false b
  have hmode : u.mode = s.mode := (congrArg State.mode hoff :)
  have himg : u.img = s.img := (congrArg State.img hoff :)
  have hflt : u.flt = s.flt := (congrArg State.flt hoff :)
  obtain ⟨v, hv, hvmode, hvimg, hvflt, hvregs⟩ : ∃ v, u.modImg (fun m => { m with image := [] }) = v ∧ v.mode = .load
      ∧ v.img = { s.img with image := [] } ∧ v.flt = s.flt ∧ v.regs = u.regs :=
    ⟨_, rfl, hmode.trans hm, congrArg (fun m : Img => { m with image := [] }) himg, hflt, rfl⟩
  have hraise := offFault_raise v (src := 0x1A0) (by decide) (by rw [hvflt]; exact hhalt) s.img.slot none none 0
  have hcnt : (v.raise 0x1A0 s.img.slot).f Fld.fltCntCe_count = sat Fld.fltCntCe_count (s.f Fld.fltCntCe_count + 1) := by
    refine (v.f_raise_classCnt (src := 0x1A0) s.img.slot none none 0 (by rw [hvmode]; decide) (by decide) (k := 1) (by decide)).trans ?_
    rw [f_congr hvregs, honly.f_eq (x := classCnt 1) (by decide)]
    rfl
  have hwmode : (v.raise 0x1A0 s.img.slot).mode = .load := (congrArg State.mode hraise :).trans hvmode
  have hwimg : (v.raise 0x1A0 s.img.slot).img = { s.img with image := [] } := (congrArg State.img hraise :).trans hvimg
  unfold slotFails
  dsimp only
  rw [hu, hv, if_neg (not_not_intro hwmode), hwimg]
  generalize v.raise 0x1A0 s.img.slot = w at hcnt hwmode hwimg
  unfold slotGone
  cases hsecond : s.img.second with
  | true =>
    rw [if_pos rfl, if_pos rfl]
    obtain ⟨hmode, hrescue, hstep, hce⟩ : w.enterRescue.mode = .service ∧ w.enterRescue.pwr.rescue = true ∧ w.enterRescue.img.step = 11
        ∧ w.enterRescue.f Fld.fltCntCe_count = w.f Fld.fltCntCe_count := by simpa only [rescueMark, Prod.mk.injEq] using w.enterRescue_enters
    exact ⟨⟨hmode, hrescue, hstep⟩, hce.trans hcnt⟩
  | false =>
    rw [if_neg (by decide), if_neg (by decide)]
    refine ⟨⟨hwmode, ?_, ?_, ?_⟩, hcnt⟩ <;> (unfold bootSlot; dsimp only [modImg]; split <;> rfl)

theorem slotFetch_runs {s : State} (hm : s.mode = .load) (hstep : s.img.step = 4) (b : List Byte) :
    exec (.slotFetch b) s = .next (match earlyFail b (slotSize s.img.flashSize) with
      | some (c, x) => s.start.slotFails c x b
      | none => s.start.modImg fun m => { m with step := 5, image := b }) := by
  refine congrArg Host.Outcome.next (if_neg ?_)
  rintro (h | h)
  · exact h hm
  · exact h hstep

theorem slotFetch_goes {s : State} (hm : s.mode = .load) (hstep : s.img.step = 4) (b : List Byte) :
    ∃ t, exec (.slotFetch b) s = .next t
          ∧ (earlyFail b (State.slotSize s.img.flashSize) = none → t = { s.start with img := { s.img with step := 5, image := b } })
          ∧ (∀ c x, earlyFail b (State.slotSize s.img.flashSize) = some (c, x) → s.slotGone t) := by
  rw [slotFetch_runs hm hstep b]
  cases earlyFail b (slotSize s.img.flashSize) with
  | none => exact ⟨_, rfl, fun _ => rfl, fun c x h => (nomatch h)⟩
  | some p => exact ⟨_, rfl, fun h => (nomatch h), fun c x _ => s.start.slotFails_goes hm rfl p.1 p.2 b⟩

theorem slotChecks_runs {s : State} (hm : s.mode = .load) (hstep : s.img.step = 5) :
    exec .slotChecks s = .next (match lateFail s.img.keyHash s.img.minSvn s.img.image with
      | some (c, x) => s.start.slotFails c x s.img.image
      | none => (s.start.slotResult s.img.slot 1 0xFF false s.img.image).modImg fun m => { m with step := 7 }) := by
  refine congrArg Host.Outcome.next (if_neg ?_)
  rintro (h | h)
  · exact h hm
  · exact h hstep

theorem slotChecks_goes {s : State} (hm : s.mode = .load) (hstep : s.img.step = 5) :
    ∃ t, exec .slotChecks s = .next t
          ∧ (lateFail s.img.keyHash s.img.minSvn s.img.image = none → t.img = { s.img with step := 7 }
              ∧ s.onlyRegs t [(.imgSlotA, 0), (.imgSlotIdA, 0), (.imgSlotB, 0), (.imgSlotIdB, 0)]
              ∧ t = { s.start with img := t.img, regs := t.regs })
          ∧ (∀ c x, lateFail s.img.keyHash s.img.minSvn s.img.image = some (c, x) → s.slotGone t) := by
  rw [slotChecks_runs hm hstep]
  cases lateFail s.img.keyHash s.img.minSvn s.img.image with
  | none =>
    obtain ⟨u, hu, hoff, honly⟩ := s.start.slotResult_tells s.img.slot 1 0xFF false s.img.image
    dsimp only
    rw [hu]
    have himg : u.img = s.img := (congrArg State.img hoff :)
    have hback := congrArg (fun w : State => { w with regs := u.regs, img := { u.img with step := 7 } }) hoff
    exact ⟨_, rfl, fun _ => ⟨congrArg (fun m : Img => { m with step := 7 }) himg, honly, hback⟩, fun c x h => (nomatch h)⟩
  | some p => exact ⟨_, rfl, fun h => (nomatch h), fun c x _ => s.start.slotFails_goes hm rfl p.1 p.2 s.img.image⟩

/-! ### The first AVSBus write, and the end of LOAD -/

theorem loadEnd_runs {s : State} (hm : s.mode = .load) (hstep : s.img.step = 10) (hlinks : ∀ l < 2, (s.link l).st ≠ .train ∧ (s.link l).st ≠ .retrain)
    (hports : ∀ p ∈ s.ports, p.2.st ≠ .train) :
    ∃ t, exec .loadEnd s = .next t ∧ t.mode = .run ∧ t.img.step = 11
          ∧ s.onlyFields t [(Fld.imgBoot_load_ms, 0)]
          ∧ t = { s.start with mode := .run, img := { s.img with step := 11 }, regs := t.regs } := by
  have hquiet : ([0, 1].any (fun l => (s.link l).st == .train || (s.link l).st == .retrain) || s.ports.any fun p => p.2.st == .train) = false := by
    obtain ⟨ht0, hr0⟩ := hlinks 0 (by decide)
    obtain ⟨ht1, hr1⟩ := hlinks 1 (by decide)
    have hp : (s.ports.any fun p => p.2.st == .train) = false := List.any_eq_false.mpr fun p hp => by simpa using hports p hp
    simp [hp, ht0, hr0, ht1, hr1]
  refine ⟨_, congrArg Host.Outcome.next (if_neg ?_), rfl, rfl, onlyFields_setF s List.mem_cons_self (by decide) (by decide) _, rfl⟩
  rintro (h | h | h)
  · exact h hm
  · exact h hstep
  · exact absurd (hquiet.symm.trans h) (by decide)

theorem loadCoreVoltage_goes {s : State} (hm : s.mode = .load) (hstep : s.img.step = 7) :
    ∃ t, exec .loadCoreVoltage s = .next t ∧ t.img = { s.img with step := 8 }
          ∧ (t.fb Fld.pwrAvsCfg_en = true → t.pwr.avsBusy = true
              ∧ (if s.pwr.frozen then t.outp = [] ∧ t.pwr.avsWait = true else t.outp = [.avs t.avsRail t.setpoint]))
          ∧ s.onlyRegs t [(.pwrAvsCfg, 0), (.pwrAvsV, 0)]
          ∧ t = { s.start with img := t.img, regs := t.regs, shadow := t.shadow, pwr := t.pwr, outp := t.outp } := by
  obtain ⟨w, hw, honly, heq⟩ : ∃ w, (((s.start.setMasked .pwrAvsCfg 0 (RegId.imgMask .pwrAvsCfg) ((candidate s.img.image).reg .pwrAvsCfg)).setF
      Fld.pwrAvsV_vbin (vbinOf (contentOf s.img.image 1) ((s.start.setMasked .pwrAvsCfg 0 (RegId.imgMask .pwrAvsCfg)
        ((candidate s.img.image).reg .pwrAvsCfg)).f Fld.glbFuseBin_speed_bin))).modImg fun m => { m with step := 8 }) = w
      ∧ s.onlyRegs w [(.pwrAvsCfg, 0), (.pwrAvsV, 0)]
      ∧ w = { s.start with img := { s.img with step := 8 }, regs := w.regs, shadow := w.shadow } := by
    refine ⟨_, rfl, ?_, rfl⟩
    exact (((onlyRegs_setReg s.start (id := .pwrAvsCfg) (i := 0) (by decide) _).congr (setShadow_regs ..)).setF (x := Fld.pwrAvsV_vbin) (by decide)
      _).congr rfl
  have hrun : exec .loadCoreVoltage s = .next (if w.fb Fld.pwrAvsCfg_en then w.avsStart w.setpoint 1 else w) := by
    refine congrArg Host.Outcome.next ((if_neg ?_).trans ?_)
    · rintro (h | h)
      · exact h hm
      · exact h hstep
    · rw [← hw]
      rfl
  rw [hrun]
  have himg : w.img = { s.img with step := 8 } := (congrArg State.img heq :)
  have hpwr : w.pwr = s.pwr := (congrArg State.pwr heq :)
  have houtp : w.outp = [] := (congrArg State.outp heq :)
  cases hen : w.fb Fld.pwrAvsCfg_en with
  | false =>
    rw [if_neg (by decide)]
    refine ⟨w, rfl, himg, fun h => absurd (hen.symm.trans h) (by decide), honly, ?_⟩
    rw [himg, hpwr, houtp]
    exact heq
  | true =>
    rw [if_pos rfl]
    have hback (x : Pwr) (o : List Output) := congrArg (fun u : State => { u with pwr := x, outp := o }) heq
    cases hf : s.pwr.frozen with
    | true =>
      rw [avsStart_waits _ _ _ (by rw [hpwr]; exact hf)]
      refine ⟨_, rfl, himg, fun _ => ⟨rfl, ?_⟩, honly, ?_⟩
      · rw [if_pos rfl]
        exact ⟨houtp, rfl⟩
      · rw [show (w.withPwr (w.pwr.avsAt w.setpoint 1 true)).img = _ from himg]
        exact hback _ w.outp
    | false =>
      rw [avsStart_sends _ _ _ (by rw [hpwr]; exact hf)]
      refine ⟨_, rfl, himg, fun _ => ⟨rfl, ?_⟩, honly, ?_⟩
      · rw [if_neg (by decide)]
        change w.outp ++ _ = _
        rw [houtp]
        rfl
      · rw [show ((w.withPwr (w.pwr.avsAt w.setpoint 1 false)).emit (.avs w.avsRail w.setpoint)).img = _ from himg]
        exact hback _ (w.outp ++ [.avs w.avsRail w.setpoint])

/-! ### The commit edge -/

/-- What a setting record leaves alone of what LOAD is known by. -/
def commitMark (s : State) : Mode × Img := (s.mode, s.img)

theorem commitMark_setRecord (s : State) (r : Nat × Word) : (s.setRecord r).commitMark = s.commitMark := by
  unfold setRecord
  split
  · rfl
  · split <;> rfl

theorem commitMark_clearImgBits (s : State) : s.clearImgBits.commitMark = s.commitMark := by
  unfold clearImgBits
  rw [foldl_keeps (m := commitMark)]
  · rfl
  · intro k _ t
    split <;> rfl

/-- The settings that a commit takes from the image's BLOCKS and MICROCODE sections. -/
def imageTaken (b : List Byte) (m : Img) : Img :=
  { m with templates := (templatesOf (contentOf b 5)).foldl (fun f t => FMap.put t.1 t.2 f) [], microcode := contentOf b 3 }

theorem applyImage_eq (s : State) (b : List Byte) : ∃ g n, s.applyImage b
    = ((((allRecords b).foldl setRecord s.clearImgBits).modTbl g).modImg (imageTaken b)).setF Fld.pwrAvsV_vbin n := ⟨_, _, rfl⟩

theorem applyImage_marks (s : State) (b : List Byte) : ∃ u, s.applyImage b = u ∧ u.mode = s.mode ∧ u.img.slot = s.img.slot
    ∧ u.img.microcode = contentOf b 3 := by
  have hmark : ((allRecords b).foldl setRecord s.clearImgBits).commitMark = s.commitMark :=
    (foldl_keeps (m := commitMark) (fun r _ t => commitMark_setRecord t r) _).trans s.commitMark_clearImgBits
  obtain ⟨g, n, heq⟩ := s.applyImage_eq b
  generalize (allRecords b).foldl setRecord s.clearImgBits = v at hmark heq
  obtain ⟨hmode, himg⟩ : v.mode = s.mode ∧ v.img = s.img := by simpa only [commitMark, Prod.mk.injEq] using hmark
  have hoff := offRegs_setF ((v.modTbl g).modImg (imageTaken b)) Fld.pwrAvsV_vbin n 0
  have hu : (((v.modTbl g).modImg (imageTaken b)).setF Fld.pwrAvsV_vbin n).img = imageTaken b v.img := (congrArg State.img hoff :)
  refine ⟨_, heq, (congrArg State.mode hoff :).trans hmode, ?_, ?_⟩
  · rw [hu, himg]
    rfl
  · rw [hu]
    rfl

theorem foldl_bytes_lt (b : List Byte) (a : Nat) : b.foldl (fun a x => a * 256 + x.toNat) a < (a + 1) * 256 ^ b.length := by
  induction b generalizing a with
  | nil => simp
  | cons x b ih =>
    have hx : x.toNat < 256 := x.isLt
    calc _ < (a * 256 + x.toNat + 1) * 256 ^ b.length := ih _
      _ ≤ ((a + 1) * 256) * 256 ^ b.length := Nat.mul_le_mul_right _ (by omega)
      _ = _ := by rw [List.length_cons, Nat.pow_succ, Nat.mul_assoc, Nat.mul_comm 256]

theorem bytesNat_lt (b : List Byte) : bytesNat b < 256 ^ b.length := by simpa [bytesNat] using foldl_bytes_lt b 0

theorem imgId_lt (b : List Byte) : imgId b < 2 ^ 32 := by
  have hlen : (slice 8 4 b).length ≤ 4 := by simp [slice]
  exact Nat.lt_of_lt_of_le (bytesNat_lt _) (Nat.pow_le_pow_right (n := 256) (by decide) hlen)

/-- The registers that name the image that runs. -/
theorem imageNamed (s : State) {n : Nat} (hn : n < 2 ^ 32) (a b c d e : Nat) :
    ∃ u, ((((((s.setF Fld.glbImgId_image_id n).setF Fld.imgBoot_slot a).setF Fld.imgBoot_first b).setF Fld.imgBoot_trial c).setF
        Fld.imgBoot_fallback d).setF Fld.imgSvn_run_svn e).setF Fld.kstStat_rules 1 = u
      ∧ u.offRegs = s.offRegs ∧ u.f Fld.glbImgId_image_id = n := by
  refine ⟨_, rfl, ?_, ?_⟩
  · simp only [offRegs_setF]
  · simp (disch := decide) only [f_setF_ne, f_setF_same]
    exact Nat.mod_eq_of_lt hn

/-- What the wakes of LOAD leave alone. -/
def wakeMark (s : State) : Mode × Img × FMap Word × FMap Link × Nat × Nat := (s.mode, s.img, s.regs, s.links, s.pwr.genBucket, s.pwr.c0Bucket)

theorem wakeMark_queueWake (s : State) (p : Part) (cls : Nat) : (s.queueWake p cls).wakeMark = s.wakeMark := by
  unfold queueWake
  dsimp only
  split <;> rfl

theorem startTraining_trains (s : State) : s.startTraining.mode = s.mode ∧ s.startTraining.img = s.img ∧ s.startTraining.regs = s.regs
    ∧ s.startTraining.pwr = s.pwr ∧ (s.startTraining.link 0).st = .train ∧ (s.startTraining.link 1).st = .train := by
  have hlink (l : Nat) : s.startTraining.link l = ((s.modLink 0 fun k => { k with st := .train }).modLink 1 fun k => { k with st := .train }).link l :=
    link_congr rfl l
  refine ⟨rfl, rfl, rfl, rfl, ?_, ?_⟩
  · rw [hlink, link_modLink_ne _ (by decide), link_modLink_same]
  · rw [hlink, link_modLink_same]

theorem loadCommit_commits {s : State} (hm : s.mode = .load) (hstep : s.img.step = 9) :
    ∃ t, exec .loadCommit s = .next t ∧ t.mode = .load ∧ t.img.step = 10 ∧ t.img.running = some s.img.slot ∧ t.img.formed = true
          ∧ t.f Fld.glbImgId_image_id = imgId s.img.image ∧ t.img.microcode = contentOf s.img.image 3
          ∧ t.pwr.genBucket = 10000 ∧ t.pwr.c0Bucket = t.c0Depth ∧ (t.link 0).st = .train ∧ (t.link 1).st = .train := by
  obtain ⟨u, hu, humode, huslot, hucode⟩ := s.start.applyImage_marks s.img.image
  obtain ⟨v, hv, hoffv, hid⟩ := u.imageNamed (imgId_lt s.start.img.image) s.start.img.slot s.start.img.first (b2n s.start.img.wasTrial)
    (b2n s.start.img.second) (imgSvn s.start.img.image)
  have hvmode : v.mode = u.mode := (congrArg State.mode hoffv :)
  have hvimg : v.img = u.img := (congrArg State.img hoffv :)
  obtain ⟨x, hx, hxmode, himg, hregs, hgen, hbucket⟩ : ∃ x : State, s.start.commitImage = x.loadParts.foldl (fun s p => s.queueWake p 1) x.startTraining
      ∧ x.mode = v.mode ∧ x.img = { v.img with step := 10, running := some v.img.slot, formed := true, image := [] } ∧ x.regs = v.regs
      ∧ x.pwr.genBucket = 10000 ∧ x.pwr.c0Bucket = x.c0Depth := by
    rw [commitImage]
    dsimp only
    rw [show s.start.applyImage s.start.img.image = u from hu, hv]
    exact ⟨_, rfl, rfl, rfl, rfl, rfl, rfl⟩
  have hwakes := foldl_keeps (m := wakeMark) (xs := x.loadParts) (fun p _ s => wakeMark_queueWake s p 1) x.startTraining
  have hrun : exec .loadCommit s = .next (x.loadParts.foldl (fun s p => s.queueWake p 1) x.startTraining) := by
    refine congrArg Host.Outcome.next ((if_neg ?_).trans hx)
    rintro (h | h)
    · exact h hm
    · exact h hstep
  generalize x.loadParts.foldl (fun s p => s.queueWake p 1) x.startTraining = t at hwakes hrun
  obtain ⟨htmode, htimg, htregs, htlinks, htgen, htc0⟩ : t.mode = x.startTraining.mode ∧ t.img = x.startTraining.img
      ∧ t.regs = x.startTraining.regs ∧ t.links = x.startTraining.links ∧ t.pwr.genBucket = x.startTraining.pwr.genBucket
      ∧ t.pwr.c0Bucket = x.startTraining.pwr.c0Bucket := by simpa only [wakeMark, Prod.mk.injEq] using hwakes
  obtain ⟨hsmode, hsimg, hsregs, hspwr, h0, h1⟩ := x.startTraining_trains
  have hregs' : t.regs = x.regs := htregs.trans hsregs
  have himg' : t.img = _ := (htimg.trans hsimg).trans himg
  refine ⟨t, hrun, ?_, ?_, ?_, ?_, ?_, ?_, ?_, ?_, ?_, ?_⟩
  · rw [htmode, hsmode, hxmode, hvmode, humode]
    exact hm
  · rw [himg']
  · rw [himg', hvimg]
    exact congrArg some huslot
  · rw [himg']
  · rw [f_congr (hregs'.trans hregs), hid]
    rfl
  · rw [himg', hvimg]
    exact hucode
  · rw [htgen, hspwr, hgen]
  · rw [htc0, hspwr, hbucket, c0Depth, c0Depth, f_congr hregs']
  · rw [link_congr htlinks]
    exact h0
  · rw [link_congr htlinks]
    exact h1

end State

/-- Settles O14: LOAD's steps follow the checks of the slot; a failed slot leads to the other or to rescue, and a fault in step 9 to HALT alone. -/
theorem slotsAndLoadEnd : Obligations.SlotsAndLoadEnd := by
  unfold Obligations.SlotsAndLoadEnd
  exact ⟨⟨fun s b hm hstep => State.slotFetch_goes hm hstep b, fun s hm hstep => State.slotChecks_goes hm hstep⟩,
    fun s hm hstep => State.loadCoreVoltage_goes hm hstep, fun s r hm hstep => State.loadBist_goes r hm hstep,
    fun s hm hstep => State.loadCommit_commits hm hstep, fun s hm hstep hlinks hports => State.loadEnd_runs hm hstep hlinks hports⟩

end Sys2Proof.Machine
end

section
/-! PROOFS. Kickstand samples: sideband levels, TWAKE_N, and a rule that fires (R313 to R315, R318). -/

namespace Sys2Proof.Machine

/-- One bit more of the low bits of a number. -/
theorem mod_pow_succ_bit (x n : Nat) : x % 2 ^ (n + 1) = x % 2 ^ n + 2 ^ n * b2n (bit n x) := by
  rw [Nat.mod_pow_succ, bit, b2n]
  have hlt : x / 2 ^ n % 2 < 2 := Nat.mod_lt _ (by decide)
  split
  · next h => rw [decide_eq_true_eq.mp h]
  · next h => rw [show x / 2 ^ n % 2 = 0 by simp at h; omega]

/-- A number with one bit set anew. -/
def withBit (n : Nat) (v : Bool) (x : Nat) : Nat := if v = bit n x then x else if v then x + 2 ^ n else x - 2 ^ n

theorem withBit_mod (n : Nat) (v : Bool) (x : Nat) : withBit n v x % 2 ^ (n + 1) = x % 2 ^ n + 2 ^ n * b2n v := by
  unfold withBit
  split
  · next h => rw [mod_pow_succ_bit, ← h]
  · next h =>
    have hpos : 0 < 2 ^ n := Nat.two_pow_pos n
    have hdm := Nat.div_add_mod x (2 ^ n)
    have hsm := mod_pow_succ_bit x n
    cases v with
    | true =>
      have hb : bit n x = false := by simpa using h
      rw [hb] at hsm
      have hdiv : (x + 2 ^ n) / 2 ^ n = x / 2 ^ n + 1 := Nat.add_div_right x hpos
      have hbit : bit n (x + 2 ^ n) = true := by
        simp only [bit, decide_eq_false_iff_not, decide_eq_true_eq] at hb ⊢
        omega
      rw [if_pos rfl, mod_pow_succ_bit, hbit, Nat.add_mod_right]
    | false =>
      have hb : bit n x = true := by simpa using h
      have hge : 2 ^ n ≤ x := by
        by_contra hlt
        rw [bit, Nat.div_eq_of_lt (by omega)] at hb
        exact absurd hb (by decide)
      have hmod : (x - 2 ^ n) % 2 ^ n = x % 2 ^ n := by
        conv_rhs => rw [← Nat.sub_add_cancel hge, Nat.add_mod_right]
      have hdiv : x / 2 ^ n = (x - 2 ^ n) / 2 ^ n + 1 := by
        conv_lhs => rw [← Nat.sub_add_cancel hge, Nat.add_div_right _ hpos]
      have hbit : bit n (x - 2 ^ n) = false := by
        simp only [bit, decide_eq_false_iff_not, decide_eq_true_eq] at hb ⊢
        omega
      rw [if_neg (by decide), mod_pow_succ_bit, hbit, hmod]

namespace State

/-! ### The rules and the sideband inputs of a sample -/

theorem ruleTick_off {s : State} {r : Nat} (h : s.fb Fld.kstRuleIn_en r = false) (k : KickIn) : s.ruleTick k r = s :=
  if_pos (by rw [h]; rfl)

theorem foldl_ruleTick_off {s : State} (k : KickIn) {rs : List Nat} (h : ∀ r ∈ rs, s.fb Fld.kstRuleIn_en r = false) :
    rs.foldl (fun s r => s.ruleTick k r) s = s := by
  induction rs with
  | nil => rfl
  | cons r rs ih =>
    rw [List.foldl_cons, ruleTick_off (h r List.mem_cons_self)]
    exact ih fun q hq => h q (List.mem_cons_of_mem _ hq)

theorem sbiMap_apart (n : Nat) : regOff .gptSbiMap n ≠ regOff .kstSbi 0 := regOff_ne_of_lt (by decide) n

/-- Where the input feeds no DN, its level is taken. -/
theorem sbiStep_takes {s : State} {n : Nat} (h : s.fb Fld.gptSbiMap_en n = false) (k : KickIn) : sbiStep k s n =
    if s.sbiLevel k n = bit n (s.f Fld.kstSbi_deb) then s else s.setF Fld.kstSbi_deb (withBit n (s.sbiLevel k n) (s.f Fld.kstSbi_deb)) := by
  unfold sbiStep
  dsimp only
  split
  · rfl
  · next hne =>
    have hoff (v : Nat) : ¬ (s.setF Fld.kstSbi_deb v).fb Fld.gptSbiMap_en n = true := by
      rw [fb, f_setF_ne s (x := Fld.kstSbi_deb) (y := Fld.gptSbiMap_en) (sbiMap_apart n) v]
      exact fun hon => absurd (h.symm.trans hon) (by decide)
    rw [if_neg (hoff _), withBit, if_neg hne]

/-- The levels of sideband inputs that feed no DN are taken one by one. -/
theorem foldl_sbiStep {s : State} (hmap : ∀ n < 16, s.fb Fld.gptSbiMap_en n = false) (k : KickIn) {m : Nat} (hm : m ≤ 16) :
    ∃ u, (List.range m).foldl (sbiStep k) s = u ∧ u = { s with regs := u.regs } ∧ s.onlyFields u [(Fld.kstSbi_deb, 0)]
      ∧ u.f Fld.kstSbi_raw = s.f Fld.kstSbi_raw
      ∧ ((∀ n < 16, ∀ t : State, s.onlyFields t [(Fld.kstSbi_deb, 0)] → t.kst = s.kst → t.sbiLevel k n = bit n k.sbi.toNat) →
          u.f Fld.kstSbi_deb % 2 ^ m = k.sbi.toNat % 2 ^ m) := by
  induction m with
  | zero => exact ⟨s, rfl, rfl, .refl s _, rfl, fun _ => by simp [Nat.mod_one]⟩
  | succ m ih =>
    obtain ⟨u, hu, heq, honly, hraw, hdeb⟩ := ih (by omega)
    have hoff : u.fb Fld.gptSbiMap_en m = false := by
      rw [fb, honly.onlyRegs.f_eq fun p hp => by rw [List.mem_singleton.mp hp]; exact (sbiMap_apart m).symm]
      exact hmap m (by omega)
    rw [List.range_succ, List.foldl_append, hu, List.foldl_cons, List.foldl_nil, sbiStep_takes hoff]
    have hkst : u.kst = s.kst := (congrArg State.kst heq :)
    have hlt := u.f_lt Fld.kstSbi_deb 0
    split
    · next hlvl =>
      refine ⟨u, rfl, heq, honly, hraw, fun hlevel => ?_⟩
      rw [mod_pow_succ_bit, mod_pow_succ_bit k.sbi.toNat, hdeb hlevel, ← hlvl, hlevel m (by omega) u honly hkst]
    · have hset := honly.setF (x := Fld.kstSbi_deb) List.mem_cons_self (by decide) (by decide)
        (withBit m (u.sbiLevel k m) (u.f Fld.kstSbi_deb))
      refine ⟨_, rfl, ?_, hset, (f_setF_apart u (x := Fld.kstSbi_deb) (y := Fld.kstSbi_raw) (by decide) rfl (by decide) _ 0).trans hraw,
        fun hlevel => ?_⟩
      · have hback := (offRegs_setF u Fld.kstSbi_deb (withBit m (u.sbiLevel k m) (u.f Fld.kstSbi_deb)) 0).trans (congrArg offRegs heq)
        exact eq_of_offRegs hback
      · rw [f_setF_same u (by decide), Nat.mod_mod_of_dvd _ (Nat.pow_dvd_pow 2 (by change m + 1 ≤ 16; omega)), withBit_mod, hdeb hlevel,
          hlevel m (by omega) u honly hkst, ← mod_pow_succ_bit]

/-! ### A sample -/

theorem ruleRegs_sbi : ∀ r < 32, ∀ id ∈ [RegId.kstRuleIn, .kstRuleDeb, .kstRuleAct], regOff id r ≠ regOff .kstSbi 0 := by decide

theorem ruleIn_apart : ∀ r < 32, regOff .kstRuleIn r ≠ regOff .kstSbi 0 := by decide

theorem ruleIn_sbi {p : RegId × Nat} (h : p ∈ [(Fld.kstSbi_raw, 0), (Fld.kstSbi_deb, 0)].map fun q : Fld × Nat => (q.1.id, q.2)) :
    p = (.kstSbi, 0) := by
  rcases List.mem_cons.mp h with h | h
  · exact h
  · exact List.mem_singleton.mp h

theorem fb_eq {s t : State} {x : Fld} {i : Nat} (h : t.f x i = s.f x i) : t.fb x i = s.fb x i := by rw [fb, h, fb]

/-- The state in which the rules sample their inputs. -/
def sampled (s : State) (k : KickIn) : State := (s.start.modKst fun x => { x with now := x.now + 1 }).setF Fld.kstSbi_raw k.sbi.toNat

theorem kickstandSample_runs (s : State) (k : KickIn) : exec (.kickstandSample k) s = .next (((List.range 16).foldl (sbiStep k)
    (((List.range 32).foldl (fun s r => s.ruleTick k r) (s.sampled k)).modKst fun x => { x with trig := [] })).twakeStep k) := rfl

theorem sampled_tells (s : State) (k : KickIn) : ∃ u, s.sampled k = u ∧ u = { s.start with kst := { s.kst with now := s.kst.now + 1 }, regs := u.regs }
    ∧ u.f Fld.kstSbi_raw = k.sbi.toNat ∧ s.onlyFields u [(Fld.kstSbi_raw, 0)] := by
  have honly : s.onlyFields (s.sampled k) [(Fld.kstSbi_raw, 0)] :=
    onlyFields_setF (s.start.modKst fun x => { x with now := x.now + 1 }) List.mem_cons_self (by decide) (by decide) k.sbi.toNat
  refine ⟨_, rfl, rfl, ?_, honly⟩
  exact (f_setF_same _ (x := Fld.kstSbi_raw) (by decide) k.sbi.toNat 0).trans (Nat.mod_eq_of_lt k.sbi.isLt)

theorem twakeStep_awake {s : State} (h : s.asleep = false) (k : KickIn) : s.twakeStep k = s.modKst fun x => { x with twakeLow := 0 } :=
  if_pos (.inl (by rw [h]; rfl))

/-- What a sample does before TWAKE_N is looked at, with no rule enabled. -/
theorem sample_sides {s : State} (k : KickIn) (hrules : s.onlyRules []) :
    ∃ w, exec (.kickstandSample k) s = .next (w.twakeStep k) ∧ w.f Fld.kstSbi_raw = k.sbi.toNat ∧ w.f Fld.kstSbi_deb = k.sbi.toNat
      ∧ s.onlyFields w [(Fld.kstSbi_raw, 0), (Fld.kstSbi_deb, 0)]
      ∧ w = { s.start with kst := { s.kst with now := s.kst.now + 1, trig := [] }, regs := w.regs } := by
  obtain ⟨hoff, hmap⟩ := hrules
  obtain ⟨u, hu, heq, hraw, honly⟩ := s.sampled_tells k
  have hin {t : State} (ht : s.onlyFields t [(Fld.kstSbi_raw, 0), (Fld.kstSbi_deb, 0)]) (r : Nat) (hr : r < 32) : t.fb Fld.kstRuleIn_en r = false := by
    rw [fb, ht.onlyRegs.f_eq fun p hp => ?_]
    · exact hoff r hr (by simp)
    · rw [ruleIn_sbi hp]
      exact (ruleIn_apart r hr).symm
  have honlyu : s.onlyFields u [(Fld.kstSbi_raw, 0), (Fld.kstSbi_deb, 0)] := honly.mono (xs := [(Fld.kstSbi_raw, 0)]) (by decide) (by decide)
  have hticks : (List.range 32).foldl (fun s r => s.ruleTick k r) u = u :=
    foldl_ruleTick_off k fun r hr => hin honlyu r (List.mem_range.mp hr)
  have hmapu : ∀ n < 16, (u.modKst fun x => { x with trig := [] }).fb Fld.gptSbiMap_en n = false := fun n hn => by
    refine (fb_eq (honly.onlyRegs.f_eq (x := Fld.gptSbiMap_en) (i := n) fun p hp => ?_) : _ = s.fb Fld.gptSbiMap_en n).trans (hmap n hn)
    rw [List.mem_singleton.mp hp]
    exact (sbiMap_apart n).symm
  obtain ⟨w, hw, hweq, hwonly, hwraw, hwdeb⟩ := foldl_sbiStep hmapu k (Nat.le_refl 16)
  have honlyw : s.onlyFields w [(Fld.kstSbi_raw, 0), (Fld.kstSbi_deb, 0)] :=
    (honlyu.congr rfl).trans (hwonly.mono (xs := [(Fld.kstSbi_deb, 0)]) (by decide) (by decide))
  have hdeb : w.f Fld.kstSbi_deb = k.sbi.toNat := by
    have hlt := w.f_lt Fld.kstSbi_deb 0
    have hmod := hwdeb fun n _ t ht _ => by
      have honlyt : s.onlyFields t [(Fld.kstSbi_raw, 0), (Fld.kstSbi_deb, 0)] :=
        (honlyu.congr rfl).trans (ht.mono (xs := [(Fld.kstSbi_deb, 0)]) (by decide) (by decide))
      have hnone : ((List.range 32).find? fun r => t.fb Fld.kstRuleIn_en r && t.f Fld.kstRuleIn_src r == 1 && t.f Fld.kstRuleIn_sel r == n) = none :=
        List.find?_eq_none.mpr fun r hr => by simp [hin honlyt r (List.mem_range.mp hr)]
      unfold sbiLevel
      rw [hnone]
    rwa [Nat.mod_eq_of_lt (show w.f Fld.kstSbi_deb < 2 ^ 16 from hlt), Nat.mod_eq_of_lt k.sbi.isLt] at hmod
  have hback := congrArg (fun x : State => { x with kst := { x.kst with trig := [] }, regs := w.regs }) heq
  have hweq' : w = { s.start with kst := { s.kst with now := s.kst.now + 1, trig := [] }, regs := w.regs } := hweq.trans hback
  refine ⟨w, ?_, hwraw.trans hraw, hdeb, honlyw, hweq'⟩
  rw [kickstandSample_runs, hu, hticks, hw]

theorem asleep_of_sides {s w : State} {x : Kst} (h : w = { s.start with kst := x, regs := w.regs }) : w.asleep = s.asleep := by
  have hmode := congrArg State.mode h
  have hphase := congrArg State.phase h
  unfold asleep
  rw [hmode, hphase]
  rfl

theorem kickstand_samples {s : State} (k : KickIn) (hrules : s.onlyRules []) (hd : s.mode ≠ .doze) (hp : s.phase ≠ .entering) :
    ∃ t, exec (.kickstandSample k) s = .next t ∧ t.f Fld.kstSbi_raw = k.sbi.toNat ∧ t.f Fld.kstSbi_deb = k.sbi.toNat
      ∧ s.onlyFields t [(Fld.kstSbi_raw, 0), (Fld.kstSbi_deb, 0)]
      ∧ t = { s.start with kst := { s.kst with now := s.kst.now + 1, trig := [], twakeLow := 0 }, regs := t.regs } := by
  obtain ⟨w, hw, hraw, hdeb, honly, heq⟩ := s.sample_sides k hrules
  have hasleep : w.asleep = false := (asleep_of_sides heq).trans (by simp [asleep, hd, hp])
  refine ⟨w.modKst fun x => { x with twakeLow := 0 }, by rw [hw, twakeStep_awake hasleep], hraw, hdeb, honly.congr rfl, ?_⟩
  have hend := congrArg (fun x : State => { x with kst := { x.kst with twakeLow := 0 } }) heq
  exact hend

/-! ### TWAKE_N -/

theorem kickstand_wakes {s : State} (k : KickIn) (hrules : s.onlyRules []) (hd : s.mode = .doze) (hp : s.phase = .steady) (hk : k.twakeN = false)
    (hlow : s.kst.twakeLow = 1) :
    ∃ t, exec (.kickstandSample k) s = .next t ∧ t.mode = .doze ∧ t.phase = .exiting ∧ t.f Fld.pwrModeStat_exit_cause = 3 := by
  obtain ⟨w, hw, -, -, -, heq⟩ := s.sample_sides k hrules
  have hasleep : w.asleep = true := (asleep_of_sides heq).trans (by simp [asleep, hd])
  have hmode : w.mode = .doze := (congrArg State.mode heq :).trans hd
  have hphase : w.phase = .steady := (congrArg State.phase heq :).trans hp
  have hkst : w.kst.twakeLow ≠ 0 := by
    rw [(congrArg State.kst heq :)]
    exact hlow ▸ Nat.one_ne_zero
  have htwake : w.twakeStep k = (w.modKst fun x => { x with twakeLow := 0 }).exitSeen 3 0 := by
    unfold twakeStep
    rw [hasleep, hk, if_neg (by decide), if_neg hkst]
  obtain ⟨hcause, -, -, hend⟩ := (w.modKst fun x => { x with twakeLow := 0 }).exitSeen_doze hmode hphase (cause := 3) (rule := 0) (by decide)
    (by decide)
  have htmode := congrArg State.mode hend
  have htphase := congrArg State.phase hend
  exact ⟨_, hw.trans (congrArg _ htwake), htmode.trans hmode, htphase, hcause⟩

/-! ### A rule that fires an alert -/

/-- What the alert of a rule leaves: its bits of KST_FIRED and KST_ALERT, a record, and its state. -/
structure Alerted (s t : State) (r : Nat) : Prop where
  fired : t.reg .kstFired = s.reg .kstFired ||| BitVec.ofNat 32 (2 ^ r)
  alert : t.reg .kstAlert = s.reg .kstAlert ||| BitVec.ofNat 32 (2 ^ r)
  named : t.f Fld.kstLogA_rule (s.f Fld.kstLogHead_next) = r
  action : t.f Fld.kstLogA_action (s.f Fld.kstLogHead_next) = 2
  level : (t.rule r).lvl = true
  count : (t.rule r).cnt = 0
  mode : t.mode = s.mode
  phase : t.phase = s.phase
  only : s.onlyRegs t [(.kstFired, 0), (.kstAlert, 0), (.kstLogA, s.f Fld.kstLogHead_next), (.kstLogB, s.f Fld.kstLogHead_next), (.kstLogHead, 0)]

theorem kickLog_logs (s : State) {r act : Nat} (hr : r < 32) (hact : act < 4) :
    ∃ u, s.kickLog r act = u ∧ u.offRegs = s.offRegs ∧ u.f Fld.kstLogA_rule (s.f Fld.kstLogHead_next) = r
      ∧ u.f Fld.kstLogA_action (s.f Fld.kstLogHead_next) = act
      ∧ s.onlyRegs u [(.kstLogA, s.f Fld.kstLogHead_next), (.kstLogB, s.f Fld.kstLogHead_next), (.kstLogHead, 0)] := by
  have hi : s.f Fld.kstLogHead_next < 16 := s.f_lt Fld.kstLogHead_next 0
  unfold kickLog
  dsimp only
  generalize s.f Fld.kstLogHead_next = i at hi ⊢
  have hb : regOff .kstLogA i ≠ regOff .kstLogB i := by
    revert i
    decide
  have hh : regOff .kstLogA i ≠ regOff .kstLogHead 0 := by
    revert i
    decide
  refine ⟨_, rfl, ?_, ?_, ?_, ?_⟩
  · simp only [offRegs_setF]
  · rw [f_setF_ne _ (x := Fld.kstLogHead_next) (y := Fld.kstLogA_rule) hh, f_setF_ne _ (x := Fld.kstLogB_ts) (y := Fld.kstLogA_rule) hb,
      f_setF_apart _ (x := Fld.kstLogA_mode) (y := Fld.kstLogA_rule) (by decide) rfl (by decide), f_setF_same _ (by decide)]
    exact Nat.mod_eq_of_lt hr
  · rw [f_setF_ne _ (x := Fld.kstLogHead_next) (y := Fld.kstLogA_action) hh, f_setF_ne _ (x := Fld.kstLogB_ts) (y := Fld.kstLogA_action) hb,
      f_setF_apart _ (x := Fld.kstLogA_mode) (y := Fld.kstLogA_action) (by decide) rfl (by decide),
      f_setF_apart _ (x := Fld.kstLogA_rule) (y := Fld.kstLogA_action) (by decide) rfl (by decide), f_setF_same _ (by decide)]
    exact Nat.mod_eq_of_lt hact
  · exact (((((onlyRegs_setF s (x := Fld.kstLogA_valid) (List.mem_cons_self ..) 1).setF (x := Fld.kstLogA_action) (List.mem_cons_self ..) act).setF
      (x := Fld.kstLogA_rule) (List.mem_cons_self ..) r).setF (x := Fld.kstLogA_mode) (List.mem_cons_self ..) _).setF (x := Fld.kstLogB_ts)
      (List.mem_cons_of_mem _ (List.mem_cons_self ..)) _).setF (x := Fld.kstLogHead_next)
      (List.mem_cons_of_mem _ (List.mem_cons_of_mem _ (List.mem_cons_self ..))) _

/-- The registers of a rule lie apart from those that a fired rule writes. -/
theorem ruleRegs_apart : ∀ r < 32, ∀ id ∈ [RegId.kstRuleIn, .kstRuleDeb, .kstRuleAct], ∀ i < 16,
    ∀ p ∈ [(RegId.kstFired, 0), (.kstAlert, 0), (.kstLogA, i), (.kstLogB, i), (.kstLogHead, 0)], regOff p.1 p.2 ≠ regOff id r := by decide

theorem firedRegs_sbiMap (i : Nat) (hi : i < 16) (n : Nat) :
    ∀ p ∈ [(RegId.kstFired, 0), (.kstAlert, 0), (.kstLogA, i), (.kstLogB, i), (.kstLogHead, 0)], regOff p.1 p.2 ≠ regOff .gptSbiMap n := by
  have hlt : ∀ i < 16, ∀ p ∈ [(RegId.kstFired, 0), (.kstAlert, 0), (.kstLogA, i), (.kstLogB, i), (.kstLogHead, 0)],
      regOff p.1 p.2 < RegId.gptSbiMap.row.block.base := by decide
  exact fun p hp => (regOff_ne_of_lt (hlt i hi p hp) n).symm

theorem fireRule_alerts {s : State} {r : Nat} (hr : r < 32) (hm : s.mode = .run) (hmodes : bit 1 (s.f Fld.kstRuleAct_modes r) = true)
    (hact : s.f Fld.kstRuleAct_action r = 2) (hev : s.fb Fld.kstEv_en = false) (hlvl : (s.rule r).lvl = true) :
    s.Alerted ((s.fireRule r).modRule r fun x => { x with cnt := 0, opened := false }) r := by
  obtain ⟨v, hv, hvoff, hvonly, hvfired⟩ : ∃ v, s.setReg .kstFired 0 (s.reg .kstFired ||| BitVec.ofNat 32 (2 ^ r)) = v ∧ v.offRegs = s.offRegs
      ∧ s.onlyRegs v [(.kstFired, 0)] ∧ v.reg .kstFired = s.reg .kstFired ||| BitVec.ofNat 32 (2 ^ r) :=
    ⟨_, rfl, offRegs_setReg .., onlyRegs_setReg s List.mem_cons_self _, reg_setReg_same ..⟩
  have hrule (x : Fld) (hx : x.id ∈ [RegId.kstRuleIn, .kstRuleDeb, .kstRuleAct]) : v.f x r = s.f x r :=
    hvonly.f_eq fun p hp => by
      rw [List.mem_singleton.mp hp]
      exact ruleRegs_apart r hr x.id hx 0 (by decide) (.kstFired, 0) List.mem_cons_self
  have hhead : v.f Fld.kstLogHead_next = s.f Fld.kstLogHead_next := hvonly.f_eq (by decide)
  have hvmode : v.mode = s.mode := (congrArg State.mode hvoff :)
  obtain ⟨u, hu, huoff, hnamed, haction, huonly⟩ := v.kickLog_logs (act := 2) hr (by decide)
  rw [hhead] at hnamed haction huonly
  have hi : s.f Fld.kstLogHead_next < 16 := s.f_lt Fld.kstLogHead_next 0
  obtain ⟨w, hw, hwoff, hwonly, hwalert⟩ : ∃ w, u.setReg .kstAlert 0 (u.reg .kstAlert ||| BitVec.ofNat 32 (2 ^ r)) = w ∧ w.offRegs = u.offRegs
      ∧ u.onlyRegs w [(.kstAlert, 0)] ∧ w.reg .kstAlert = u.reg .kstAlert ||| BitVec.ofNat 32 (2 ^ r) :=
    ⟨_, rfl, offRegs_setReg .., onlyRegs_setReg u List.mem_cons_self _, reg_setReg_same ..⟩
  have honly : s.onlyRegs w [(.kstFired, 0), (.kstAlert, 0), (.kstLogA, s.f Fld.kstLogHead_next), (.kstLogB, s.f Fld.kstLogHead_next),
      (.kstLogHead, 0)] :=
    ((hvonly.mono (xs := [(.kstFired, 0)]) (by simp)).trans (huonly.mono (by simp))).trans (hwonly.mono (xs := [(.kstAlert, 0)]) (by simp))
  have hoff : w.offRegs = s.offRegs := (hwoff.trans huoff).trans hvoff
  have hkst : w.kst = s.kst := (congrArg State.kst hoff :)
  have hmode : w.mode = s.mode := (congrArg State.mode hoff :)
  have hphase : w.phase = s.phase := (congrArg State.phase hoff :)
  have hfire : s.fireRule r = w.modKst fun k => { k with alertNew := k.alertNew ||| BitVec.ofNat 32 (2 ^ r) } := by
    have hevw : w.fb Fld.kstEv_en = false := by
      refine (fb_eq (honly.f_eq (x := Fld.kstEv_en) (i := 0) ?_)).trans hev
      revert hi
      generalize s.f Fld.kstLogHead_next = i
      revert i
      decide
    have hmb : v.modeBit = some 1 := by
      unfold modeBit
      rw [hvmode, hm]
    unfold fireRule
    rw [hv]
    dsimp only
    rw [hmb]
    dsimp only
    rw [hrule Fld.kstRuleAct_modes (by decide), hrule Fld.kstRuleAct_action (by decide), hmodes, hact, if_neg (by decide)]
    rw [hu, hw]
    exact if_neg fun h => absurd (hevw.symm.trans h.1) (by decide)
  rw [hfire]
  have hlog {x : Fld} (hx : x.id = .kstLogA) : w.f x (s.f Fld.kstLogHead_next) = u.f x (s.f Fld.kstLogHead_next) :=
    hwonly.f_eq fun p hp => by
      rw [List.mem_singleton.mp hp, hx]
      revert hi
      generalize s.f Fld.kstLogHead_next = i
      revert i
      decide
  have hout {id : RegId} (hid : id ∈ [RegId.kstFired, .kstAlert]) : u.reg id = v.reg id := huonly.reg_eq fun p hp => by
    revert hi p id
    generalize s.f Fld.kstLogHead_next = i
    revert i
    decide
  have hrest (q : RuleSt → RuleSt) : ((w.modKst fun k => { k with alertNew := k.alertNew ||| BitVec.ofNat 32 (2 ^ r) }).modRule r q).rule r
      = q (s.rule r) := by
    refine (FMap.get_mod_same ..).trans (congrArg q ?_)
    rw [rule, ← hkst]
    rfl
  refine ⟨?_, ?_, (hlog rfl).trans hnamed, (hlog rfl).trans haction, ?_, ?_, hmode, hphase, honly.congr rfl⟩
  · change w.reg .kstFired = _
    rw [hwonly.reg_eq (by decide), hout (by decide), hvfired]
  · change w.reg .kstAlert = _
    rw [hwalert, hout (by decide), hvonly.reg_eq (by decide)]
  · rw [hrest]
    exact hlvl
  · rw [hrest]

/-- A state that differs in the Kickstand's rules alone. -/
def sameButRules (s t : State) : Prop := t = { s with kst := { s.kst with rules := t.kst.rules } }

theorem sameButRules_modRule {s t : State} (h : s.sameButRules t) (r : Nat) (g : RuleSt → RuleSt) : s.sameButRules (t.modRule r g) := by
  have hkeep := congrArg (fun w : State => w.modRule r g) h
  refine hkeep.trans ?_
  have hrules := congrArg (fun w : State => (w.modRule r g).kst.rules) h
  change _ = ({ s with kst := { s.kst with rules := (t.modRule r g).kst.rules } } : State)
  rw [show (t.modRule r g).kst.rules = _ from hrules]
  rfl

theorem rule_modRule_same (s : State) (r : Nat) (g : RuleSt → RuleSt) : (s.modRule r g).rule r = g (s.rule r) := FMap.get_mod_same ..

/-- A level that has risen often enough fires its rule. -/
theorem ruleTick_fires {s : State} {k : KickIn} {r : Nat} (hen : s.fb Fld.kstRuleIn_en r = true) (hsrc : s.f Fld.kstRuleIn_src r = 1)
    (hinv : s.fb Fld.kstRuleIn_inv r = false) (hbit : bit (s.f Fld.kstRuleIn_sel r) k.sbi.toNat = true) (hlvl : (s.rule r).lvl = false)
    (hdeb : max (s.f Fld.kstRuleDeb_deb r) 1 ≤ (s.rule r).run + 1) (hopen : (s.rule r).opened = true → s.kst.now < (s.rule r).wend)
    (hthresh : s.f Fld.kstRuleDeb_thresh r ≤ (s.rule r).cnt + 1) :
    ∃ v, s.ruleTick k r = (v.fireRule r).modRule r (fun x => { x with cnt := 0, opened := false }) ∧ s.sameButRules v ∧ (v.rule r).lvl = true := by
  have hraw : s.ruleSample k r = true := by
    unfold ruleSample
    dsimp only
    rw [hsrc]
    exact hbit
  obtain ⟨a, ha, hasame, harule⟩ : ∃ a, (s.modRule r fun x => if x.opened ∧ x.wend ≤ s.kst.now then { x with opened := false, cnt := 0 } else x) = a
      ∧ s.sameButRules a ∧ a.rule r = s.rule r := by
    refine ⟨_, rfl, sameButRules_modRule (rfl : s.sameButRules s) _ _, (rule_modRule_same ..).trans (if_neg ?_)⟩
    rintro ⟨ho, hle⟩
    exact absurd hle (Nat.not_le.mpr (hopen ho))
  have haregs : a.regs = s.regs := (congrArg State.regs hasame :)
  obtain ⟨b, hb, hbsame, hbrule⟩ : ∃ b, (a.modRule r fun x => { x with lvl := true, run := 0 }) = b ∧ s.sameButRules b
      ∧ b.rule r = { s.rule r with lvl := true, run := 0 } :=
    ⟨_, rfl, sameButRules_modRule hasame _ _, (rule_modRule_same ..).trans (by rw [harule])⟩
  have hbregs : b.regs = s.regs := (congrArg State.regs hbsame :)
  unfold ruleTick
  dsimp only
  rw [if_neg (by rw [hen]; decide), hraw, hsrc]
  have h8 : ¬ ((1 : Nat) = 8 ∧ true = true) := by decide
  have hrose : ¬ (true != false) = false := by decide
  have h78 : ¬ ((1 : Nat) = 7 ∨ (1 : Nat) = 8) := by decide
  have hgo : ¬ (!(true != false)) = true := by decide
  rw [if_neg h8, ha, harule, fb_eq (f_congr haregs Fld.kstRuleIn_inv r), hinv, hlvl, if_neg hrose, if_neg h78, f_congr haregs,
    if_neg (Nat.not_lt.mpr hdeb), if_neg hgo]
  rw [show (true != false) = true from rfl, hb]
  refine ⟨_, if_pos ?_, sameButRules_modRule hbsame _ _, ?_⟩
  · rw [rule_modRule_same, hbrule, f_congr (t := b.modRule r _) hbregs]
    split <;> exact hthresh
  · rw [rule_modRule_same, hbrule]
    split <;> rfl

theorem kickstand_fires {s : State} (k : KickIn) {r : Nat} (hr : r < 32) (hrules : s.onlyRules [r]) (hm : s.mode = .run) (hp : s.phase = .steady)
    (hen : s.fb Fld.kstRuleIn_en r = true) (hsrc : s.f Fld.kstRuleIn_src r = 1) (hinv : s.fb Fld.kstRuleIn_inv r = false)
    (hbit : bit (s.f Fld.kstRuleIn_sel r) k.sbi.toNat = true) (hlvl : (s.rule r).lvl = false)
    (hdeb : max (s.f Fld.kstRuleDeb_deb r) 1 ≤ (s.rule r).run + 1) (hopen : (s.rule r).opened = true → s.kst.now + 1 < (s.rule r).wend)
    (hthresh : s.f Fld.kstRuleDeb_thresh r ≤ (s.rule r).cnt + 1) (hmodes : bit 1 (s.f Fld.kstRuleAct_modes r) = true)
    (hact : s.f Fld.kstRuleAct_action r = 2) (hev : s.fb Fld.kstEv_en = false) :
    ∃ t, exec (.kickstandSample k) s = .next t ∧ t.reg .kstFired = s.reg .kstFired ||| BitVec.ofNat 32 (2 ^ r)
      ∧ t.reg .kstAlert = s.reg .kstAlert ||| BitVec.ofNat 32 (2 ^ r)
      ∧ t.f Fld.kstLogA_rule (s.f Fld.kstLogHead_next) = r ∧ t.f Fld.kstLogA_action (s.f Fld.kstLogHead_next) = 2
      ∧ (t.rule r).lvl = true ∧ (t.rule r).cnt = 0 ∧ t.mode = .run := by
  obtain ⟨hoff, hmap⟩ := hrules
  obtain ⟨u, hu, heq, -, honly⟩ := s.sampled_tells k
  have honlyu : s.onlyRegs u [(.kstSbi, 0)] := honly.onlyRegs
  have hkst : u.kst = { s.kst with now := s.kst.now + 1 } := (congrArg State.kst heq :)
  have hurule (q : Nat) : u.rule q = s.rule q := by
    rw [rule, hkst]
    rfl
  have huf (x : Fld) {q : Nat} (hq : q < 32) (hx : x.id ∈ [RegId.kstRuleIn, .kstRuleDeb, .kstRuleAct]) : u.f x q = s.f x q :=
    honlyu.f_eq fun p hp => by
      rw [List.mem_singleton.mp hp]
      exact (ruleRegs_sbi q hq x.id hx).symm
  obtain ⟨v, hv, hvsame, hvlvl⟩ := ruleTick_fires (s := u) (k := k) (r := r) (by rw [fb_eq (huf _ hr (by decide)), hen])
    (by rw [huf _ hr (by decide), hsrc]) (by rw [fb_eq (huf _ hr (by decide)), hinv]) (by rw [huf _ hr (by decide), hbit]) (by rw [hurule, hlvl])
    (by rw [huf _ hr (by decide), hurule]; exact hdeb) (by rw [hkst, hurule]; exact hopen) (by rw [huf _ hr (by decide), hurule]; exact hthresh)
  have hvregs : v.regs = u.regs := (congrArg State.regs hvsame :)
  have hvf (x : Fld) (hx : x.id ∈ [RegId.kstRuleIn, .kstRuleDeb, .kstRuleAct]) : v.f x r = s.f x r := (f_congr hvregs x r).trans (huf x hr hx)
  have hvreg {id : RegId} (hid : id ∈ [RegId.kstFired, .kstAlert, .kstLogHead, .kstEv]) : v.reg id = s.reg id :=
    (reg_congr hvregs id 0).trans (honlyu.reg_eq (by revert id; decide))
  have hvhead : v.f Fld.kstLogHead_next = s.f Fld.kstLogHead_next := by rw [f, hvreg (by decide), f]
  have hvmode : v.mode = .run := ((congrArg State.mode hvsame :).trans (congrArg State.mode heq :)).trans hm
  obtain ⟨hfired, halert, hnamed, haction, hlevel, hcount, hmode, hphase, hfonly⟩ := fireRule_alerts hr hvmode
    (by rw [hvf _ (by decide), hmodes]) (by rw [hvf _ (by decide), hact]) (by rw [fb, f, hvreg (by decide), ← f, ← fb, hev]) hvlvl
  have hi : v.f Fld.kstLogHead_next < 16 := v.f_lt Fld.kstLogHead_next 0
  obtain ⟨w, hw⟩ : ∃ w, (v.fireRule r).modRule r (fun x => { x with cnt := 0, opened := false }) = w := ⟨_, rfl⟩
  rw [hw] at hv hfired halert hnamed haction hlevel hcount hmode hphase hfonly
  obtain ⟨pre, post, hsplit, hpre, hpost⟩ := range_split hr
  have hoffu (q : Nat) (hq : q < 32) (hne : q ≠ r) : u.fb Fld.kstRuleIn_en q = false :=
    (fb_eq (huf _ hq (by decide))).trans (hoff q hq (by simpa using hne))
  have hoffw (q : Nat) (hq : q < 32) (hne : q ≠ r) : w.fb Fld.kstRuleIn_en q = false := by
    refine (fb_eq (hfonly.f_eq fun p hp => ?_)).trans ((fb_eq (f_congr hvregs _ q)).trans (hoffu q hq hne))
    exact ruleRegs_apart q hq _ (by decide) _ hi p hp
  have hin {q : Nat} (hq : q ∈ pre ++ r :: post) : q < 32 := List.mem_range.mp (hsplit ▸ hq)
  have hticks : (List.range 32).foldl (fun s r => s.ruleTick k r) u = w := by
    rw [hsplit, List.foldl_append, foldl_ruleTick_off k fun q hq => hoffu q (hin (by simp [hq])) fun h => hpre (h ▸ hq), List.foldl_cons, hv]
    exact foldl_ruleTick_off k fun q hq => hoffw q (hin (by simp [hq])) fun h => hpost (h ▸ hq)
  have hmapw : ∀ n < 16, (w.modKst fun x => { x with trig := [] }).fb Fld.gptSbiMap_en n = false := fun n hn => by
    refine (fb_eq (hfonly.f_eq (x := Fld.gptSbiMap_en) (i := n) fun p hp => (firedRegs_sbiMap _ hi n p hp)) : _ = v.fb Fld.gptSbiMap_en n).trans ?_
    refine (fb_eq (f_congr hvregs Fld.gptSbiMap_en n)).trans ((fb_eq (honlyu.f_eq (x := Fld.gptSbiMap_en) (i := n) fun p hp => ?_)).trans (hmap n hn))
    rw [List.mem_singleton.mp hp]
    exact (sbiMap_apart n).symm
  obtain ⟨x, hx, hxeq, hxonly, -, -⟩ := foldl_sbiStep hmapw k (Nat.le_refl 16)
  have hxmode : x.mode = .run := ((congrArg State.mode hxeq :).trans hmode).trans hvmode
  have hxphase : x.phase = .steady :=
    (((congrArg State.phase hxeq :).trans hphase).trans (congrArg State.phase hvsame :)).trans ((congrArg State.phase heq :).trans hp)
  have hxkst : x.kst = { w.kst with trig := [] } := (congrArg State.kst hxeq :)
  have hxregs {id : RegId} {i : Nat} (hne : regOff .kstSbi 0 ≠ regOff id i) : x.reg id i = w.reg id i :=
    hxonly.onlyRegs.reg_eq fun p hp => by
      rw [List.mem_singleton.mp hp]
      exact hne
  have hlog {y : Fld} (hy : y.id = .kstLogA) : x.f y (s.f Fld.kstLogHead_next) = w.f y (v.f Fld.kstLogHead_next) := by
    have hne : regOff .kstSbi 0 ≠ regOff y.id (v.f Fld.kstLogHead_next) := by
      rw [hy]
      revert hi
      generalize v.f Fld.kstLogHead_next = i
      revert i
      decide
    rw [← hvhead]
    exact congrArg (fun v : Word => bits y.hi y.lo v.toNat) (hxregs hne)
  refine ⟨x.modKst fun x => { x with twakeLow := 0 }, ?_, ?_, ?_, (hlog rfl).trans hnamed, (hlog rfl).trans haction, ?_, ?_, hxmode⟩
  · rw [kickstandSample_runs, hu, hticks, hx, twakeStep_awake (by simp [asleep, hxmode, hxphase])]
  · exact (hxregs (by decide)).trans (hfired.trans (by rw [hvreg (by decide)]))
  · exact (hxregs (by decide)).trans (halert.trans (by rw [hvreg (by decide)]))
  · have hrule : (x.modKst fun x => { x with twakeLow := 0 }).rule r = w.rule r := by
      rw [rule, rule]
      change FMap.get {} r x.kst.rules = _
      rw [hxkst]
    rw [hrule]
    exact hlevel
  · have hrule : (x.modKst fun x => { x with twakeLow := 0 }).rule r = w.rule r := by
      rw [rule, rule]
      change FMap.get {} r x.kst.rules = _
      rw [hxkst]
    rw [hrule]
    exact hcount

end State

/-- Settles O18: a sample takes the levels one by one; the rule's tick is the one that fires, between ticks of rules that are off. -/
theorem kickstandSamples : Obligations.KickstandSamples := by
  unfold Obligations.KickstandSamples
  exact ⟨fun s k hrules hd hp => State.kickstand_samples k hrules hd hp, fun s k hrules hd hp hk hlow => State.kickstand_wakes k hrules hd hp hk hlow,
    fun s k r hr hrules hm hp hen hsrc hinv hbit hlvl hdeb hopen hthresh hmodes hact hev =>
      State.kickstand_fires k hr hrules hm hp hen hsrc hinv hbit hlvl hdeb hopen hthresh hmodes hact hev⟩

end Sys2Proof.Machine
end

section
/-! PROOFS. The chunks that transform units run, and the failed checks of a unit (R223 to R228, R234 to R236). -/

namespace Sys2Proof.Machine

namespace State

/-! ### Transfers formed -/

/-- Of a state only the Hub has changed, by transfers that are formed. -/
def Forms (s t : State) : Prop := s.sameHubBut t ∧ t = { s with hub := t.hub }

theorem sameHubBut.refl (s : State) : s.sameHubBut s := ⟨rfl, List.prefix_rfl⟩

theorem sameHubBut.trans {s t u : State} (h : s.sameHubBut t) (h' : t.sameHubBut u) : s.sameHubBut u := by
  obtain ⟨heq, hpre⟩ := h
  obtain ⟨heq', hpre'⟩ := h'
  refine ⟨?_, hpre.trans hpre'⟩
  rw [heq] at heq'
  exact heq'

theorem Forms.trans {s t u : State} (h : s.Forms t) (h' : t.Forms u) : s.Forms u := by
  refine ⟨h.1.trans h'.1, ?_⟩
  have hlast := congrArg (fun z : State => { z with hub := u.hub }) h.2
  exact h'.2.trans hlast

theorem forms_addXfer (s : State) (inp out cls sub bytes : Nat) (own : XOwn) : s.Forms (s.addXfer inp out cls sub bytes own) :=
  ⟨⟨rfl, List.prefix_append ..⟩, rfl⟩

theorem forms_addBlock (s : State) (inp out cls sub bytes : Nat) (own : XOwn) : s.Forms (s.addBlock inp out cls sub bytes own) := by
  unfold addBlock
  generalize List.range (ceilDiv bytes 4096) = ks
  induction ks generalizing s with
  | nil => exact ⟨.refl s, rfl⟩
  | cons k ks ih => exact (s.forms_addXfer ..).trans (ih _)

/-! ### Units take chunks -/

/-- Whether the chunk of an operation may not run on a unit. -/
def unitBarred (s : State) (je u : Nat) : Prop := ∃ o x, s.op? je = some o ∧ o.x = some x ∧ s.unitMay x u = false

/-- Units of a list have taken chunks, no other has, and none has taken one that may not run on it. -/
structure Serves (us : List Nat) (s t : State) : Prop where
  hub : s.sameHubBut t
  busy : ∀ v, v ∉ us → FMap.find v t.cmp.busy = FMap.find v s.cmp.busy
  barred : ∀ je u n, s.unitBarred je u → FMap.find u s.cmp.busy ≠ some (je, n) → FMap.find u t.cmp.busy ≠ some (je, n)
  eq : t = { s with hub := t.hub, cmp := { s.cmp with busy := t.cmp.busy }, freeCount := t.freeCount, freeNext := t.freeNext }

theorem Serves.refl (us : List Nat) (s : State) : Serves us s s := ⟨.refl s, fun _ _ => rfl, fun _ _ _ _ h => h, rfl⟩

theorem unitBarred_congr {s t : State} {je u : Nat} (ho : t.ops = s.ops) (hr : t.cmp.retired = s.cmp.retired) (h : s.unitBarred je u) :
    t.unitBarred je u := by
  obtain ⟨o, x, hop, hx, hmay⟩ := h
  refine ⟨o, x, (op?_congr ho je).trans hop, hx, ?_⟩
  have hgone : t.unitGone = s.unitGone := by
    funext v
    rw [unitGone, hr, unitGone]
  rw [unitMay, hgone]
  exact hmay

theorem Serves.trans {us : List Nat} {s t u : State} (h : Serves us s t) (h' : Serves us t u) : Serves us s u := by
  refine ⟨h.hub.trans h'.hub, fun v hv => (h'.busy v hv).trans (h.busy v hv), fun je v n hb hne => ?_, ?_⟩
  · exact h'.barred je v n (unitBarred_congr (by rw [h.eq]) (by rw [h.eq]) hb) (h.barred je v n hb hne)
  · have hlast := congrArg (fun z : State => { z with
      hub := u.hub, cmp := { z.cmp with busy := u.cmp.busy }, freeCount := u.freeCount, freeNext := u.freeNext }) h.eq
    exact h'.eq.trans hlast

theorem waitsUnit_may {s : State} {je u : Nat} (h : s.waitsUnit je u = true) : ¬ s.unitBarred je u := by
  rintro ⟨o, x, ho, hx, hmay⟩
  unfold waitsUnit at h
  simp [ho, hx, hmay] at h

theorem chunkFor_waits {s : State} {u je : Nat} (h : s.chunkFor u = some je) : s.waitsUnit je u = true := by
  unfold chunkFor at h
  have hall : ∀ p ∈ s.ops.filter fun p => s.waitsUnit p.1 u, s.waitsUnit p.1 u = true := fun p hp => (List.mem_filter.mp hp).2
  generalize (s.ops.filter fun p => s.waitsUnit p.1 u) = ps at h hall
  have hinit : ∀ k, (none : Option Nat) = some k → s.waitsUnit k u = true := nofun
  generalize (none : Option Nat) = m at h hinit
  induction ps generalizing m with
  | nil => exact hinit je h
  | cons p ps ih =>
    have hp := hall p List.mem_cons_self
    rw [List.foldl_cons] at h
    refine ih (fun q hq => hall q (List.mem_cons_of_mem _ hq)) _ h fun k hk => ?_
    cases m with
    | none => exact Option.some.inj hk ▸ hp
    | some i =>
      dsimp only at hk
      split at hk
      · exact Option.some.inj hk ▸ hp
      · exact Option.some.inj hk ▸ hinit i rfl

theorem serves_sendChunk {us : List Nat} {s : State} {je u : Nat} (hu : u ∈ us) (hw : s.waitsUnit je u = true) : Serves us s (s.sendChunk je u) := by
  obtain ⟨v, hv, hvhub, hveq⟩ : ∃ v : State, { s with cmp := { s.cmp with busy := FMap.put u (je, (s.entry je).serial) s.cmp.busy } } = v
      ∧ v.hub = s.hub ∧ v = { s with cmp := { s.cmp with busy := FMap.put u (je, (s.entry je).serial) s.cmp.busy } } := ⟨_, rfl, rfl, rfl⟩
  have hrun : ∃ n, s.sendChunk je u = v.addBlock hubLanding (hubUnit u) (s.entry je).cls (s.entry je).inst n (.op je) := by
    rw [← hv]
    exact ⟨_, rfl⟩
  obtain ⟨n, hrun⟩ := hrun
  have hforms := v.forms_addBlock hubLanding (hubUnit u) (s.entry je).cls (s.entry je).inst n (.op je)
  rw [← hrun] at hforms
  generalize s.sendChunk je u = t at hforms
  obtain ⟨⟨hhub, hpre⟩, heq⟩ := hforms
  rw [hvhub] at hhub hpre
  have hbusy : t.cmp.busy = FMap.put u (je, (s.entry je).serial) s.cmp.busy := by rw [heq, hveq]
  refine ⟨⟨hhub, hpre⟩, fun w hw => ?_, fun k w n hb hne => ?_, ?_⟩
  · rw [hbusy, FMap.find_put_ne (fun h => hw (by rw [h]; exact hu))]
  · rw [hbusy]
    by_cases hwu : w = u
    · subst hwu
      rw [FMap.find_put_same]
      rintro ⟨⟩
      exact waitsUnit_may hw hb
    · rw [FMap.find_put_ne hwu]
      exact hne
  · rw [hbusy]
    rw [heq, hveq]

theorem serves_foldl {us vs : List Nat} (h : ∀ u ∈ vs, u ∈ us) (s : State) :
    Serves us s (vs.foldl (fun s u => match s.chunkFor u with | some je => s.sendChunk je u | none => s) s) := by
  induction vs generalizing s with
  | nil => exact .refl us s
  | cons v vs ih =>
    rw [List.foldl_cons]
    refine Serves.trans ?_ (ih (fun u hu => h u (List.mem_cons_of_mem _ hu)) _)
    cases hc : s.chunkFor v with
    | none => exact .refl us s
    | some je => exact serves_sendChunk (h v List.mem_cons_self) (chunkFor_waits hc)

/-- What the units' taking of chunks leaves: only units that were free have taken one. -/
theorem serve_serves (s : State) : ∃ us, (∀ u ∈ us, FMap.find u s.cmp.busy = none) ∧ Serves us s s.serve := by
  obtain ⟨us, hus, hrun⟩ : ∃ us : List Nat, (∀ u ∈ us, FMap.find u s.cmp.busy = none) ∧ s.serve = if us.any fun u => (s.chunkFor u).isSome then
      us.foldl (fun s u => match s.chunkFor u with | some je => s.sendChunk je u | none => s) s.draw else s := by
    refine ⟨((List.range 16).map fun k => (k + s.free) % 16).filter fun u => !s.unitGone u && (FMap.find u s.cmp.busy).isNone, fun u hu => ?_, rfl⟩
    have hfree := (List.mem_filter.mp hu).2
    simp only [Bool.and_eq_true, Option.isNone_iff_eq_none] at hfree
    exact hfree.2
  refine ⟨us, hus, ?_⟩
  rw [hrun]
  split
  · have hdraw : Serves us s s.draw := ⟨.refl s, fun _ _ => rfl, fun _ _ _ _ h => h, rfl⟩
    refine hdraw.trans ?_
    exact serves_foldl (fun _ h => h) s.draw
  · exact .refl us s

/-- Free units have taken chunks that may run on them; units that run a chunk run it still. -/
structure Served (s t : State) : Prop where
  hub : s.sameHubBut t
  busy : ∀ v w, FMap.find v s.cmp.busy = some w → FMap.find v t.cmp.busy = some w
  barred : ∀ je u n, s.unitBarred je u → FMap.find u s.cmp.busy ≠ some (je, n) → FMap.find u t.cmp.busy ≠ some (je, n)
  eq : t = { s with hub := t.hub, cmp := { s.cmp with busy := t.cmp.busy }, freeCount := t.freeCount, freeNext := t.freeNext }

theorem served_serve (s : State) : s.Served s.serve := by
  obtain ⟨us, hus, h⟩ := serve_serves s
  refine ⟨h.hub, fun v w hv => (h.busy v fun hmem => ?_).trans hv, h.barred, h.eq⟩
  rw [hus v hmem] at hv
  exact Option.some_ne_none w hv.symm

theorem Served.trans {s t u : State} (h : s.Served t) (h' : t.Served u) : s.Served u := by
  refine ⟨h.hub.trans h'.hub, fun v w hv => h'.busy v w (h.busy v w hv), fun je v n hb hne => ?_, ?_⟩
  · exact h'.barred je v n (unitBarred_congr (by rw [h.eq]) (by rw [h.eq]) hb) (h.barred je v n hb hne)
  · have hlast := congrArg (fun z : State => { z with
      hub := u.hub, cmp := { z.cmp with busy := u.cmp.busy }, freeCount := u.freeCount, freeNext := u.freeNext }) h.eq
    exact h'.eq.trans hlast

theorem Forms.served {s t : State} (h : s.Forms t) : s.Served t := by
  have hcmp : t.cmp = s.cmp := by rw [h.2]
  have hbusy : t.cmp.busy = s.cmp.busy := by rw [hcmp]
  refine ⟨h.1, fun v w hv => by rw [hbusy, hv], fun je v n _ hne => by rw [hbusy]; exact hne, ?_⟩
  have hkeep := congrArg (fun z : State => { z with cmp := { s.cmp with busy := t.cmp.busy }, freeCount := t.freeCount, freeNext := t.freeNext }) h.2
  have hsame : ({ t with cmp := { s.cmp with busy := t.cmp.busy } } : State) = t := by rw [hbusy, ← hcmp]
  have hfree : t.freeCount = s.freeCount ∧ t.freeNext = s.freeNext := by rw [h.2]; exact ⟨rfl, rfl⟩
  exact hsame.symm.trans hkeep

/-! ### The chunk that ends -/

theorem endChunk_idle {s : State} {je u : Nat} (h : ∀ n, FMap.find u s.cmp.busy ≠ some (je, n)) (b : Bool) : s.endChunk je u b = s := by
  unfold endChunk
  split
  · rfl
  next k n hk =>
    refine if_pos fun hkj => h n ?_
    rw [hk, hkj]

theorem endChunk_runs {s : State} {je u : Nat} {o : Op} {x : CcdX} (ho : s.op? je = some o)
    (hb : FMap.find u s.cmp.busy = some (je, (s.entry je).serial)) (hx : o.x = some x) (hd : o.done = false) (he : (s.entry je).err = 0) (b : Bool) :
    s.endChunk je u b = (if b = true ∨ s.exOn (unitGroup u) = true then (s.unitFree u).chunkFails je u x
      else (s.unitFree u).chunkPasses je u o x).serve := by
  have hop : (s.unitFree u).op? je = some o := ho
  have hlive : ¬ (((s.unitFree u).entry je).serial ≠ (s.entry je).serial ∨ o.done = true ∨ ((s.unitFree u).entry je).err ≠ 0) := by
    rw [hd]
    have hent : (s.unitFree u).entry je = s.entry je := rfl
    rw [hent, he]
    simp
  unfold endChunk
  simp only [hb]
  rw [if_neg fun h => h rfl]
  simp only [hop, hx]
  rw [if_neg hlive]
  rfl

theorem exOn_unit {s : State} (h7 : s.exOn 7 = false) (h8 : s.exOn 8 = false) (u : Nat) : s.start.exOn (unitGroup u) = false := by
  unfold unitGroup
  split
  · exact h7
  · exact h8

/-! ### A data unit is encrypted -/

theorem offRegs_addPair (s : State) (lo hi : Fld) (n : Nat) : (s.addPair lo hi n).offRegs = s.offRegs := by
  unfold addPair
  generalize (s.pair lo hi + n) % 2 ^ 64 = v
  exact offRegs_setPair ..

theorem ops_addPair (s : State) (lo hi : Fld) (n : Nat) : (s.addPair lo hi n).ops = s.ops := by
  unfold addPair
  generalize (s.pair lo hi + n) % 2 ^ 64 = v
  exact setPair_ops ..

theorem op?_modX_same {s : State} {je : Nat} {o : Op} {x : CcdX} (ho : s.op? je = some o) (hx : o.x = some x) (g : CcdX → CcdX) :
    (s.modX je g).op? je = some { o with x := some (g x) } := by
  have hsame := s.op?_modOp_same je fun o => { o with x := o.x.map g }
  rw [ho] at hsame
  refine hsame.trans (congrArg some ?_)
  dsimp only
  rw [hx]
  rfl

/-- The bytes of a WRITE with its next data unit encrypted (R227). -/
def cipherOut (s : State) (x : CcdX) : List Byte :=
  x.s2 ++ xts true (s.slot x.c.keyslot).key (x.c.lbn + x.s2.length / duBytes x.c)
    ((x.s1.drop (duBytes x.c * (x.s2.length / duBytes x.c))).take (duBytes x.c))

/-- A CCD's bytes after those bytes were encrypted. -/
def ciphered (out : List Byte) (x : CcdX) : CcdX := { x with s2 := out, keyUse := !(x.end1 && out.length == x.s1.length) }

theorem ciphered_tells (out : List Byte) (x : CcdX) : (ciphered out x).c = x.c ∧ (ciphered out x).s2 = out := ⟨rfl, rfl⟩

theorem encrypt_eq (s : State) (je : Nat) (x : CcdX) : s.encrypt je x =
    if x.s1.length < duBytes x.c * (x.s2.length / duBytes x.c + 1) then none
    else some (((s.addPair Fld.cmpCuBytesLo_bytes Fld.cmpCuBytesHi_bytes (duBytes x.c)).modX je (ciphered (s.cipherOut x))).flowWrite je) := rfl

/-- What has come of a WRITE with the stages passed on that need no chunk. -/
def passedOn (x : CcdX) : CcdX := if x.c.cmp then x else { x with s1 := x.s0, end1 := decide (dataWant x ≤ x.s0.length) }

theorem passedOn_keeps (x : CcdX) : (passedOn x).c = x.c ∧ (passedOn x).s2 = x.s2 := by
  unfold passedOn
  split <;> exact ⟨rfl, rfl⟩

theorem flowWrite_places {s : State} {je : Nat} {o : Op} {x : CcdX} (ho : s.op? je = some o) (hx : o.x = some x) (henc : x.c.enc = true)
    (hpst : x.c.pst = false) :
    ∃ t : State, s.flowWrite je = t.serve
      ∧ t.op? je = some { o with x := some (passedOn x), data := List.replicate (x.c.gaddr % 8) 0 ++ x.s2 }
      ∧ (∀ j, j ≠ je → t.op? j = s.op? j) ∧ t = { s with ops := t.ops } := by
  obtain ⟨hyc, hys⟩ := passedOn_keeps x
  obtain ⟨v, hv, hvo, hvne, hveq⟩ : ∃ v : State, (s.modX je fun x =>
        let x := if x.c.cmp then x else { x with s1 := x.s0, end1 := decide (dataWant x ≤ x.s0.length) }
        if x.c.enc then x else { x with s2 := x.s1 }) = v
      ∧ v.op? je = some { o with x := some (passedOn x) } ∧ (∀ j, j ≠ je → v.op? j = s.op? j) ∧ v = { s with ops := v.ops } := by
    refine ⟨_, rfl, ?_, fun j hj => op?_modOp_ne s hj _, rfl⟩
    have hpass : (if (passedOn x).c.enc then passedOn x else { passedOn x with s2 := (passedOn x).s1 }) = passedOn x := if_pos (by rw [hyc, henc])
    exact (op?_modX_same ho hx _).trans (congrArg (fun y => some { o with x := some y }) hpass)
  have hnot : allPlaced (passedOn x) = false := by simp [allPlaced, hyc, hpst]
  refine ⟨v.modOp je fun o => { o with data := List.replicate ((passedOn x).c.gaddr % 8) 0 ++ (passedOn x).s2 }, ?_, ?_, fun j hj => ?_, ?_⟩
  · unfold flowWrite
    dsimp only
    rw [hv]
    simp only [hvo, Option.bind_some, dataPlaced, hnot, Bool.false_and, Bool.false_eq_true, if_false]
  · rw [op?_modOp_same, hvo, hyc, hys]
    rfl
  · rw [op?_modOp_ne v hj, hvne j hj]
  · exact congrArg (fun z : State => { z with ops := (v.modOp je fun o => { o with data := List.replicate ((passedOn x).c.gaddr % 8) 0 ++ (passedOn x).s2 }).ops }) hveq

theorem encrypt_runs {s : State} {je : Nat} {o : Op} {x : CcdX} (ho : s.op? je = some o) (hx : o.x = some x) (henc : x.c.enc = true)
    (hpst : x.c.pst = false) (hlen : duBytes x.c * (x.s2.length / duBytes x.c + 1) ≤ x.s1.length) :
    ∃ (t : State) (y : CcdX), s.encrypt je x = some t.serve ∧ y.s2 = s.cipherOut x
      ∧ t.op? je = some { o with x := some y, data := List.replicate (x.c.gaddr % 8) 0 ++ s.cipherOut x } ∧ (∀ j, j ≠ je → t.op? j = s.op? j)
      ∧ t = { s.addPair Fld.cmpCuBytesLo_bytes Fld.cmpCuBytesHi_bytes (duBytes x.c) with ops := t.ops } := by
  obtain ⟨v, hv, hvo, hvne⟩ : ∃ v : State, s.addPair Fld.cmpCuBytesLo_bytes Fld.cmpCuBytesHi_bytes (duBytes x.c) = v ∧ v.op? je = some o
      ∧ ∀ j, v.op? j = s.op? j := by
    exact ⟨_, rfl, (op?_congr (ops_addPair ..) je).trans ho, op?_congr (ops_addPair ..)⟩
  obtain ⟨g, hg, hgc, hgs⟩ : ∃ g : CcdX → CcdX, s.encrypt je x = some ((v.modX je g).flowWrite je) ∧ (g x).c = x.c ∧ (g x).s2 = s.cipherOut x := by
    refine ⟨ciphered (s.cipherOut x), ?_, ciphered_tells ..⟩
    rw [← hv]
    exact (encrypt_eq s je x).trans (if_neg (Nat.not_lt.mpr hlen))
  obtain ⟨t, hrun, hto, htne, hteq⟩ := flowWrite_places (op?_modX_same hvo hx g) rfl (by rw [hgc, henc]) (by rw [hgc, hpst])
  refine ⟨t, passedOn (g x), hg.trans (congrArg some hrun), (passedOn_keeps (g x)).2.trans hgs, ?_, fun j hj => ?_, ?_⟩
  · rw [hto, hgc, hgs]
  · rw [htne j hj, ← hvne j]
    exact op?_modOp_ne v hj _
  · rw [hv]
    have hlast : v.modX je g = { v with ops := (v.modX je g).ops } := rfl
    rw [hlast] at hteq
    exact hteq

theorem bytesCount_tells (s : State) (n : Nat) :
    ∃ u, s.addPair Fld.cmpCuBytesLo_bytes Fld.cmpCuBytesHi_bytes n = u ∧ u.offRegs = s.offRegs
      ∧ u.pair Fld.cmpCuBytesLo_bytes Fld.cmpCuBytesHi_bytes = (s.pair Fld.cmpCuBytesLo_bytes Fld.cmpCuBytesHi_bytes + n) % 2 ^ 64
      ∧ s.onlyRegs u [(.cmpCuBytesLo, 0), (.cmpCuBytesHi, 0)] := by
  refine ⟨_, rfl, offRegs_addPair .., ?_, ?_⟩ <;> unfold addPair <;>
    generalize s.pair Fld.cmpCuBytesLo_bytes Fld.cmpCuBytesHi_bytes + n = m
  · rw [pair_setPair s (by decide) (by decide) (by decide), Nat.mod_mod]
  · exact (onlyRegs_setF s (by decide) _).setF (by decide) _

theorem chunkDone_encrypts {s : State} {je : Fin 4194304} {u : Fin 16} {o : Op} {x : CcdX} (hworks : s.works = true) (ho : s.op? je.val = some o)
    (hb : FMap.find u.val s.cmp.busy = some (je.val, (s.entry je.val).serial)) (hx : o.x = some x) (hd : o.done = false)
    (he : (s.entry je.val).err = 0) (h7 : s.exOn 7 = false) (h8 : s.exOn 8 = false) (hu : 8 ≤ u.val) (hbad : x.cbad = [])
    (henc : x.c.enc = true) (hop : x.c.op = 2) (hpst : x.c.pst = false)
    (hlen : duBytes x.c * (x.s2.length / duBytes x.c + 1) ≤ x.s1.length) :
    ∃ t, exec (.chunkDone je u) s = .next t
      ∧ (∃ p y, t.op? je.val = some p ∧ p.x = some y ∧ y.s2 = s.cipherOut x
        ∧ p.data = List.replicate (x.c.gaddr % 8) 0 ++ y.s2 ∧ p.cur = o.cur ∧ p.hold = o.hold)
      ∧ (∀ j, j ≠ je.val → t.op? j = s.op? j)
      ∧ t.pair Fld.cmpCuBytesLo_bytes Fld.cmpCuBytesHi_bytes
        = (s.pair Fld.cmpCuBytesLo_bytes Fld.cmpCuBytesHi_bytes + duBytes x.c) % 2 ^ 64
      ∧ (∀ v < 16, v ≠ u.val → ∀ w, FMap.find v s.cmp.busy = some w → FMap.find v t.cmp.busy = some w) ∧ s.sameHubBut t
      ∧ s.onlyRegs t [(.cmpCuBytesLo, 0), (.cmpCuBytesHi, 0)]
      ∧ t = { s.start with ops := t.ops, regs := t.regs, hub := t.hub, cmp := { s.cmp with busy := t.cmp.busy }
                           freeCount := t.freeCount, freeNext := t.freeNext } := by
  obtain ⟨r, hf, hfeq⟩ : ∃ r, s.start.unitFree u.val = r ∧ r = { s.start with cmp := { s.cmp with busy := FMap.del u.val s.cmp.busy } } :=
    ⟨_, rfl, rfl⟩
  have hfo (j : Nat) : r.op? j = s.op? j := by rw [hfeq]; rfl
  have hfpair : r.pair Fld.cmpCuBytesLo_bytes Fld.cmpCuBytesHi_bytes = s.pair Fld.cmpCuBytesLo_bytes Fld.cmpCuBytesHi_bytes := by rw [hfeq]; rfl
  have hfout : r.cipherOut x = s.cipherOut x := by rw [hfeq]; rfl
  obtain ⟨v, y, henc', hy, hvo, hvne, hveq⟩ := encrypt_runs ((hfo je.val).trans ho) hx henc hpst hlen
  obtain ⟨c, hc, hcoff, hcpair, hconly⟩ := r.bytesCount_tells (duBytes x.c)
  rw [hc] at hveq
  have hchunk : r.chunk je.val u.val o x = some v.serve := by
    unfold chunk
    rw [if_neg (Nat.not_lt.mpr hu), henc, if_neg (by decide), if_pos hop, henc']
  obtain ⟨n, hpass⟩ : ∃ n, r.chunkPasses je.val u.val o x = v.serve.addBlock (hubUnit u.val) hubLanding (r.entry je.val).cls u.val n (.op je.val) := by
    unfold chunkPasses
    have hnone : (badOf x u.val).isEmpty = true := by rw [badOf, if_neg (Nat.not_lt.mpr hu), hbad]; rfl
    simp only [hnone, if_true, hchunk]
    exact ⟨_, rfl⟩
  have hrun : exec (.chunkDone je u) s = .next (v.serve.addBlock (hubUnit u.val) hubLanding (r.entry je.val).cls u.val n (.op je.val)).serve := by
    refine (congrArg Host.Outcome.next (if_pos hworks)).trans (congrArg Host.Outcome.next ?_)
    rw [endChunk_runs (s := s.start) ho hb hx hd he, exOn_unit h7 h8, if_neg (by decide), hf, hpass]
  have hserved : v.Served (v.serve.addBlock (hubUnit u.val) hubLanding (r.entry je.val).cls u.val n (.op je.val)).serve :=
    (v.served_serve.trans (forms_addBlock ..).served).trans (served_serve _)
  generalize (v.serve.addBlock (hubUnit u.val) hubLanding (r.entry je.val).cls u.val n (.op je.val)).serve = t at hrun hserved
  have hto (j : Nat) : t.op? j = v.op? j := by rw [hserved.eq]; rfl
  have htregs : t.regs = c.regs := by rw [hserved.eq, hveq]
  have hcf : c = { r with regs := c.regs } := congrArg (fun z : State => { z with regs := c.regs }) hcoff
  have hhub : v.hub = s.hub := by rw [hveq, hcf, hfeq]; rfl
  have hbusy : v.cmp.busy = FMap.del u.val s.cmp.busy := by rw [hveq, hcf, hfeq]
  refine ⟨t, hrun, ⟨_, y, (hto je.val).trans hvo, rfl, hy.trans hfout, ?_, rfl, rfl⟩, fun j hj => ?_, ?_, fun k _ hk w hw => ?_, ?_, ?_, ?_⟩
  · rw [hy]
  · rw [hto, hvne j hj, hfo]
  · rw [pair, f, f, reg_congr htregs, reg_congr htregs, ← f, ← f, ← pair, hcpair, hfpair]
  · exact hserved.busy k w (by rw [hbusy, FMap.find_del_ne hk, hw])
  · have hsame := hserved.hub
    rw [sameHubBut, hhub] at hsame
    exact hsame
  · have honly := hconly.congr htregs
    rw [hfeq] at honly
    exact honly
  · have hkeep {a b : State} (h : a = b) := congrArg (fun z : State => { z with
      ops := t.ops, regs := t.regs, hub := t.hub, cmp := { z.cmp with busy := t.cmp.busy }, freeCount := t.freeCount, freeNext := t.freeNext }) h
    have h1 := hkeep hserved.eq
    have h2 := hkeep hveq
    have h3 := hkeep hcf
    have h4 := hkeep hfeq
    exact h1.trans (h2.trans (h3.trans h4))

/-! ### The far side of a CCD that failed ends -/

/-- Of all operations one alone has changed, with the Hub, the ports' queues and the notices that are owed. -/
structure CcdEnds (s t : State) (je : Nat) : Prop where
  err : (t.entry je).err = (s.entry je).err
  others : s.sameOpsBut t je
  eq : t = { s with jnl := t.jnl, ops := t.ops, hub := t.hub, ports := t.ports, pels := t.pels }

theorem CcdEnds.of_oneOp {s t : State} {je : Nat} (h : s.OneOp t je) (he : (t.entry je).err = (s.entry je).err) : s.CcdEnds t je :=
  ⟨he, h.others, congrArg (fun z : State => { z with pels := t.pels }) h.eq⟩

theorem CcdEnds.trans {s t u : State} {je : Nat} (h : s.CcdEnds t je) (h' : t.CcdEnds u je) : s.CcdEnds u je := by
  refine ⟨h'.err.trans h.err, fun j hj => ⟨(h'.others j hj).1.trans (h.others j hj).1, (h'.others j hj).2.trans (h.others j hj).2⟩, ?_⟩
  have hlast := congrArg (fun z : State => { z with jnl := u.jnl, ops := u.ops, hub := u.hub, ports := u.ports, pels := u.pels }) h.eq
  exact h'.eq.trans hlast

theorem setSt_keepsErr {s : State} {je : Nat} (hl : s.entry je ≠ {}) (st : JSt) : ((s.setSt je st).entry je).err = (s.entry je).err := by
  rw [entry_setSt_same hl]

theorem oweNotice_ends {s : State} {je : Nat} (hl : s.entry je ≠ {}) : s.CcdEnds (s.oweNotice je) je := by
  obtain ⟨u, hu, hone, herr⟩ : ∃ u, ((s.setSt je .error).modOp je fun o => { o with hold := {}, area := {}, done := true }).numberFail je = u
      ∧ s.OneOp u je ∧ (u.entry je).err = (s.entry je).err := by
    refine ⟨_, rfl, ((oneOp_setSt s je .error).trans (oneOp_modOp ..)).trans ⟨fun j hj => ⟨rfl, op?_modOp_ne _ hj _⟩, rfl⟩, setSt_keepsErr hl .error⟩
  have hrun : s.oweNotice je = u.modPel (s.entry je).inst fun p => { p with waiting := u.insertNotice je p.waiting } := by
    unfold oweNotice
    dsimp only
    rw [hu]
  rw [hrun]
  exact (CcdEnds.of_oneOp hone herr).trans ⟨rfl, fun _ _ => ⟨rfl, rfl⟩, rfl⟩

theorem farEnd_ccd {s : State} {je : Nat} {o : Op} (ho : s.op? je = some o) (hk : (s.entry je).kind = 4) (he : (s.entry je).err ≠ 0)
    (hs : o.silent = false) : s.CcdEnds (s.farEnd je) je := by
  have hl : s.entry je ≠ {} := fun h => absurd (hk.symm.trans (congrArg JEntry.kind h)) (by decide)
  obtain ⟨u, hu, hue, hone⟩ : ∃ u, s.dequeueOp je o.port = u ∧ u.entry je = s.entry je ∧ s.OneOp u je := ⟨_, rfl, rfl, oneOp_of_eq rfl⟩
  have hul : u.entry je ≠ {} := by rw [hue]; exact hl
  have hnot : ¬ (u.entry je).err = 0 := by rw [hue]; exact he
  have hrun : s.farEnd je = if (u.entry je).pst then u.oweNotice je
      else (u.setSt je .farDone).modOp je fun o => { o with done := true, hold := {}, area := {} } := by
    unfold farEnd
    simp only [ho, hu, hs, Bool.false_eq_true, if_false]
    rw [if_pos (by rw [hue]; exact hk)]
    cases o.x <;> simp only [if_neg hnot]
  rw [hrun]
  refine (CcdEnds.of_oneOp hone (by rw [hue])).trans ?_
  split
  · exact oweNotice_ends hul
  · exact .of_oneOp ((oneOp_setSt u je .farDone).trans (oneOp_modOp ..)) (setSt_keepsErr hul .farDone)

theorem poisonOp_ccd {s : State} {je : Nat} {o : Op} (ho : s.op? je = some o) (hk : (s.entry je).kind = 4) (he : (s.entry je).err = 0)
    (hd : o.done = false) (hs : o.silent = false) :
    ∃ t, s.poisonOp je = t ∧ (t.entry je).err = 0xB ∧ s.sameOpsBut t je
      ∧ t = { s with jnl := t.jnl, ops := t.ops, hub := t.hub, ports := t.ports, pels := t.pels } := by
  obtain ⟨u, hu, hue, huo, hone⟩ := fail_records ho he .ps 0 (s.failAt o) s.psRecord
  have hcode : failCode (s.entry je).kind .ps = 0xB := by rw [hk]; rfl
  rw [hcode] at hue
  obtain ⟨v, hv, hve, hvone, p, hvo, hps⟩ : ∃ v, (u.modOp je fun o => { o with stop := true }) = v ∧ v.entry je = u.entry je ∧ s.OneOp v je
      ∧ ∃ p, v.op? je = some p ∧ p.silent = false := by
    have hstop := u.op?_modOp_same je fun o => { o with stop := true }
    rw [huo] at hstop
    exact ⟨_, rfl, rfl, hone.trans (oneOp_modOp ..), _, hstop, hs⟩
  have hverr : (v.entry je).err = 0xB := by rw [hve, hue]
  have hvkind : (v.entry je).kind = 4 := by rw [hve, hue]; exact hk
  have hrun : s.poisonOp je = if v.pieceOpen je o then v
      else (((v.withdraw [je]).dequeueOp je o.port).modOp je fun o => { o with cur := none }).farEnd je := by
    unfold poisonOp
    simp only [ho]
    rw [hd, if_neg Bool.false_ne_true, if_neg (by omega), if_neg (by omega), hu, hv]
  obtain ⟨z, hz, hze, hzo, hzone⟩ := stopped_tells o.port hvo
  rw [hz] at hrun
  rw [hrun]
  refine ⟨_, rfl, ?_⟩
  split
  · exact ⟨hverr, hvone.others, congrArg (fun z : State => { z with pels := v.pels }) hvone.eq⟩
  · have hends := farEnd_ccd hzo (by rw [hze]; exact hvkind) (by rw [hze, hverr]; decide) hps
    refine ⟨by rw [hends.err, hze, hverr], fun j hj => ?_, ?_⟩
    · have h1 := hvone.others j hj
      have h2 := hzone.others j hj
      have h3 := hends.others j hj
      exact ⟨h3.1.trans (h2.1.trans h1.1), h3.2.trans (h2.2.trans h1.2)⟩
    · have hkeep {a b : State} (h : a = b) := congrArg (fun x : State => { x with
        jnl := (z.farEnd je).jnl, ops := (z.farEnd je).ops, hub := (z.farEnd je).hub, ports := (z.farEnd je).ports, pels := (z.farEnd je).pels }) h
      have h1 := hkeep hends.eq
      have h2 := hkeep hzone.eq
      have h3 := hkeep hvone.eq
      exact h1.trans (h2.trans h3)

/-! ### A check of a unit fails -/

/-- The failures of the last second, with one more. -/
def nowFailed (s : State) (u : Nat) : List (Nat × Nat) := (s.cmp.fails.filter fun p => s.ts < p.2 + 100000000) ++ [(u, s.ts)]

theorem unitFails_notes {s : State} {u : Nat}
    (h : ((s.cmp.fails.filter fun p => s.ts < p.2 + 100000000).filter fun p => p.1 == u).length < 2) :
    s.unitFails u = { s with cmp := { s.cmp with fails := s.nowFailed u } } := if_pos h

/-- The units on which the chunk of a CCD has failed, set by the unit's kind. -/
def withBad (u : Nat) (us : List Nat) (x : CcdX) : CcdX := if u < 8 then { x with bad := us } else { x with cbad := us }

theorem withBad_tells (u : Nat) (us : List Nat) (x : CcdX) :
    badOf (withBad u us x) u = us ∧ (withBad u us x).s0 = x.s0 ∧ (withBad u us x).s1 = x.s1 ∧ (withBad u us x).s2 = x.s2 := by
  unfold withBad badOf
  split <;> simp

theorem chunkCheckFail_runs {s : State} {je : Fin 4194304} {u : Fin 16} {o : Op} {x : CcdX} (hworks : s.works = true)
    (ho : s.op? je.val = some o) (hb : FMap.find u.val s.cmp.busy = some (je.val, (s.entry je.val).serial)) (hx : o.x = some x)
    (hd : o.done = false) (he : (s.entry je.val).err = 0) :
    exec (.chunkCheckFail je u) s = .next ((s.start.unitFree u.val).chunkFails je.val u.val x).serve := by
  refine (congrArg Host.Outcome.next (if_pos hworks)).trans (congrArg Host.Outcome.next ?_)
  rw [endChunk_runs (s := s.start) ho hb hx hd he, if_pos (.inl rfl)]

theorem unitMay_spoilt {s : State} {x : CcdX} {u : Nat} (hin : u ∈ badOf x u)
    (hother : ∃ v < 8, s.unitGone (u / 8 * 8 + v) = false ∧ u / 8 * 8 + v ∉ badOf x u) : s.unitMay x u = false := by
  obtain ⟨v, hv, hgone, hgood⟩ := hother
  have hall : ((List.range 8).all fun k => s.unitGone (u / 8 * 8 + k) || (badOf x u).contains (u / 8 * 8 + k)) = false := by
    refine Bool.eq_false_iff.mpr fun h => ?_
    have hk := List.all_eq_true.mp h v (List.mem_range.mpr hv)
    simp [hgone, hgood] at hk
  unfold unitMay
  dsimp only
  rw [hall, List.contains_iff_mem.mpr hin]
  rfl

theorem chunkCheckFail_again {s : State} {je : Fin 4194304} {u : Fin 16} {o : Op} {x : CcdX} (hworks : s.works = true)
    (ho : s.op? je.val = some o) (hb : FMap.find u.val s.cmp.busy = some (je.val, (s.entry je.val).serial)) (hx : o.x = some x)
    (hd : o.done = false) (he : (s.entry je.val).err = 0) (h7 : s.exOn 7 = false) (h8 : s.exOn 8 = false)
    (hnew : ¬ (badOf x u.val).contains u.val = true)
    (hfew : ((s.cmp.fails.filter fun p => s.ts < p.2 + 100000000).filter fun p => p.1 == u.val).length < 2)
    (hruns : (badOf x u.val).length < 2) :
    ∃ t, exec (.chunkCheckFail je u) s = .next t
      ∧ (∃ y, (t.op? je.val).bind (·.x) = some y ∧ badOf y u.val = badOf x u.val ++ [u.val] ∧ y.s0 = x.s0 ∧ y.s1 = x.s1 ∧ y.s2 = x.s2)
      ∧ (∀ j, j ≠ je.val → t.op? j = s.op? j)
      ∧ ((∃ v < 8, s.unitGone (u.val / 8 * 8 + v) = false ∧ u.val / 8 * 8 + v ∉ badOf x u.val ++ [u.val]) →
          FMap.find u.val t.cmp.busy ≠ some (je.val, (s.entry je.val).serial))
      ∧ t.cmp = { s.cmp with busy := t.cmp.busy, fails := (s.cmp.fails.filter fun p => s.ts < p.2 + 100000000) ++ [(u.val, s.ts)] }
      ∧ s.sameHubBut t
      ∧ t = { s.start with ops := t.ops, cmp := t.cmp, hub := t.hub, freeCount := t.freeCount, freeNext := t.freeNext } := by
  obtain ⟨r, hr, hreq⟩ : ∃ r, s.start.unitFree u.val = r ∧ r = { s.start with cmp := { s.cmp with busy := FMap.del u.val s.cmp.busy } } :=
    ⟨_, rfl, rfl⟩
  have hron : ¬ r.exOn (unitGroup u.val) = true := by
    have hoff : r.exOn (unitGroup u.val) = s.start.exOn (unitGroup u.val) := by rw [hreq]; rfl
    rw [hoff, exOn_unit h7 h8]
    exact Bool.false_ne_true
  have hrfails : r.cmp.fails = s.cmp.fails ∧ r.ts = s.ts := by rw [hreq]; exact ⟨rfl, rfl⟩
  obtain ⟨v, hv, hvo, hvne, hveq⟩ : ∃ v : State, r.setBad je.val u.val (badOf x u.val ++ [u.val]) = v
      ∧ v.op? je.val = some { o with x := some (withBad u.val (badOf x u.val ++ [u.val]) x) } ∧ (∀ j, j ≠ je.val → v.op? j = s.op? j)
      ∧ v = { r with ops := v.ops } := by
    have hro (j : Nat) : r.op? j = s.op? j := by rw [hreq]; rfl
    exact ⟨_, rfl, op?_modX_same ((hro je.val).trans ho) hx _, fun j hj => (op?_modOp_ne r hj _).trans (hro j), rfl⟩
  have hlen : (badOf x u.val ++ [u.val]).length < 3 := by rw [List.length_append, List.length_singleton]; omega
  have hvfails : v.cmp.fails = s.cmp.fails ∧ v.ts = s.ts := by rw [hveq]; exact hrfails
  have hfails : r.chunkFails je.val u.val x = { v with cmp := { v.cmp with fails := v.nowFailed u.val } } := by
    unfold chunkFails
    dsimp only
    rw [if_neg hnew, exUse, if_neg hron, if_pos hlen, if_pos hlen, hv, unitFails_notes (by rw [hvfails.1, hvfails.2]; exact hfew)]
  have hrun := (chunkCheckFail_runs hworks ho hb hx hd he).trans (by rw [hr, hfails])
  obtain ⟨w, hw, hwops, hwcmp, hweq⟩ : ∃ w : State, { v with cmp := { v.cmp with fails := v.nowFailed u.val } } = w ∧ w.ops = v.ops
      ∧ w.cmp = { s.cmp with busy := FMap.del u.val s.cmp.busy, fails := s.nowFailed u.val }
      ∧ w = { s.start with ops := v.ops, cmp := w.cmp } := by
    refine ⟨_, rfl, rfl, ?_, ?_⟩
    · have hnow : v.nowFailed u.val = s.nowFailed u.val := by rw [nowFailed, hvfails.1, hvfails.2, nowFailed]
      rw [hnow, hveq, hreq]
    · rw [hveq, hreq]
  rw [hw] at hrun
  have hserved := w.served_serve
  generalize w.serve = t at hrun hserved
  have hto (j : Nat) : t.op? j = v.op? j := by rw [hserved.eq]; exact op?_congr hwops j
  have hhub : w.hub = s.hub := by rw [hweq]; rfl
  obtain ⟨hbad, hs0, hs1, hs2⟩ := withBad_tells u.val (badOf x u.val ++ [u.val]) x
  refine ⟨t, hrun, ⟨_, by rw [hto, hvo]; rfl, hbad, hs0, hs1, hs2⟩, fun j hj => (hto j).trans (hvne j hj), fun hother => ?_, ?_, ?_, ?_⟩
  · refine hserved.barred je.val u.val _ ⟨_, _, (op?_congr hwops je.val).trans hvo, rfl, unitMay_spoilt ?_ ?_⟩ ?_
    · rw [hbad]
      exact List.mem_append_right _ (List.mem_singleton_self _)
    · obtain ⟨k, hk, hgone, hgood⟩ := hother
      refine ⟨k, hk, ?_, by rw [hbad]; exact hgood⟩
      rw [unitGone, hwcmp]
      exact hgone
    · rw [hwcmp, FMap.find_del_same]
      exact fun h => Option.some_ne_none _ h.symm
  · have hcmp : t.cmp = { w.cmp with busy := t.cmp.busy } := congrArg State.cmp hserved.eq
    rw [hwcmp] at hcmp
    exact hcmp
  · have hsame := hserved.hub
    rw [sameHubBut, hhub] at hsame
    exact hsame
  · have hkeep {a b : State} (h : a = b) := congrArg (fun z : State => { z with
      ops := t.ops, cmp := t.cmp, hub := t.hub, freeCount := t.freeCount, freeNext := t.freeNext }) h
    have h1 := hkeep hserved.eq
    have h2 := hkeep hweq
    exact h1.trans h2

theorem chunkCheckFail_poisons {s : State} {je : Fin 4194304} {u : Fin 16} {o : Op} {x : CcdX} (hworks : s.works = true)
    (ho : s.op? je.val = some o) (hb : FMap.find u.val s.cmp.busy = some (je.val, (s.entry je.val).serial)) (hx : o.x = some x)
    (hd : o.done = false) (he : (s.entry je.val).err = 0) (h7 : s.exOn 7 = false) (h8 : s.exOn 8 = false)
    (hnew : ¬ (badOf x u.val).contains u.val = true)
    (hfew : ((s.cmp.fails.filter fun p => s.ts < p.2 + 100000000).filter fun p => p.1 == u.val).length < 2)
    (hruns : (badOf x u.val).length = 2) (hk : (s.entry je.val).kind = 4) (hs : o.silent = false) (hmute : s.muteUc) :
    ∃ t, exec (.chunkCheckFail je u) s = .next t ∧ (t.entry je.val).err = 0xB
      ∧ t.f Fld.cmpUnitErr_failed = sat Fld.cmpUnitErr_failed (s.f Fld.cmpUnitErr_failed + 1) ∧ s.counted t 0x101
      ∧ s.sameOpsBut t je.val := by
  obtain ⟨r, hr, hreq⟩ : ∃ r, s.start.unitFree u.val = r ∧ r = { s.start with cmp := { s.cmp with busy := FMap.del u.val s.cmp.busy } } :=
    ⟨_, rfl, rfl⟩
  have hron : ¬ r.exOn (unitGroup u.val) = true := by
    have hoff : r.exOn (unitGroup u.val) = s.start.exOn (unitGroup u.val) := by rw [hreq]; rfl
    rw [hoff, exOn_unit h7 h8]
    exact Bool.false_ne_true
  obtain ⟨v, hv, hvo, hve, hvne, hveq⟩ : ∃ v : State, r.setBad je.val u.val [] = v
      ∧ v.op? je.val = some { o with x := some (withBad u.val [] x) } ∧ (∀ j, v.entry j = s.entry j) ∧ (∀ j, j ≠ je.val → v.op? j = s.op? j)
      ∧ v = { r with ops := v.ops } := by
    have hro (j : Nat) : r.op? j = s.op? j := by rw [hreq]; rfl
    exact ⟨_, rfl, op?_modX_same ((hro je.val).trans ho) hx _, fun j => by rw [hreq]; rfl, fun j hj => (op?_modOp_ne r hj _).trans (hro j), rfl⟩
  have hlen : ¬ (badOf x u.val ++ [u.val]).length < 3 := by rw [List.length_append, List.length_singleton]; omega
  obtain ⟨w, hw, hwe, hwo, hweq⟩ := poisonOp_ccd hvo (by rw [hve]; exact hk) (by rw [hve]; exact he) hd hs
  have hwregs : w.regs = s.regs := by rw [hweq, hveq, hreq]; rfl
  obtain ⟨c, hc, hcoff, hcf, hconly⟩ := w.incF_tells (x := Fld.cmpUnitErr_failed) (by decide) (by decide)
  have hcw : c = { w with regs := c.regs } := congrArg (fun z : State => { z with regs := c.regs }) hcoff
  have hcs : c = { s.start with cmp := r.cmp, ops := c.ops, jnl := c.jnl, hub := c.hub, ports := c.ports, pels := c.pels, regs := c.regs } := by
    rw [hcw, hweq, hveq, hreq]
  have hmutec : c.muteUc := by
    have hblocks := hconly.onlyBlocks (b := .cmp) (by decide)
    refine muteUc_of_onlyBlocks (s := s) hmute ?_ fun k => ?_
    · rw [hblocks.f_eq (b := .flt) (by decide) (by decide), f, f, reg_congr hwregs]
    · rw [← reg_congr hwregs, ← hc]
      exact reg_setF_ne w (x := Fld.cmpUnitErr_failed) (regOff_ne_of_lt (by decide) k) _
  have hmode : c.mode ≠ .reset := by
    rw [hcs]
    exact not_reset_of_works hworks
  obtain ⟨hraised, hcounted⟩ := raise_afterUc (s := s) (u := c) (src := 0x101) hmode (by decide) hmutec (by rw [hcs]) u.val
    (some (v.entry je.val).inst) (some je.val) 0
  have hfails : r.chunkFails je.val u.val x = (c.raise 0x101 u.val (some (v.entry je.val).inst) (some je.val)).unitFails u.val := by
    unfold chunkFails
    dsimp only
    rw [if_neg hnew, exUse, if_neg hron, if_neg hlen, if_neg hlen, hv, hw, hc]
  have hrun := (chunkCheckFail_runs hworks ho hb hx hd he).trans (by rw [hr, hfails])
  generalize c.raise 0x101 u.val (some (v.entry je.val).inst) (some je.val) = z at hrun hraised hcounted
  have hzc : z.cmp.fails = s.cmp.fails ∧ z.ts = s.ts := by rw [hraised.eq, hcs, hreq]; exact ⟨rfl, rfl⟩
  rw [unitFails_notes (by rw [hzc.1, hzc.2]; exact hfew)] at hrun
  obtain ⟨y, hy, hyeq⟩ : ∃ y : State, { z with cmp := { z.cmp with fails := z.nowFailed u.val } } = y ∧ y = { z with cmp := y.cmp } := ⟨_, rfl, rfl⟩
  rw [hy] at hrun
  have hserved := y.served_serve
  generalize y.serve = t at hrun hserved
  have ht : t = { z with hub := t.hub, cmp := t.cmp, freeCount := t.freeCount, freeNext := t.freeNext } := by
    have hkeep {a b : State} (h : a = b) := congrArg (fun z : State => { z with
      hub := t.hub, cmp := t.cmp, freeCount := t.freeCount, freeNext := t.freeNext }) h
    have h1 := hkeep hserved.eq
    have h2 := hkeep hyeq
    exact h1.trans h2
  have hjnl : t.jnl = w.jnl := by rw [ht, hraised.eq, hcw]
  have hops : t.ops = w.ops := by rw [ht, hraised.eq, hcw]
  have hregs : t.regs = z.regs := by rw [ht]
  have hflt : t.flt = z.flt := by rw [ht]
  have hent (j : Nat) : t.entry j = w.entry j := entry_congr (congrArg Jnl.entries hjnl) j
  refine ⟨t, hrun, by rw [hent, hwe], ?_, ?_, fun j hj => ⟨?_, ?_⟩⟩
  · rw [f_congr hregs, hraised.only.f_eq (b := .cmp) (by decide) (by decide), hcf, f_congr hwregs]
  · rw [counted, hflt, f_congr hregs]
    exact hcounted
  · rw [hent, (hwo j hj).1, hve]
  · rw [op?_congr hops, (hwo j hj).2, hvne j hj]

end State

open State in
/-- Settles O46: a chunk that ends by the data unit that it appends, a failed check by the units that it names, and the third by the CCD that it ends. -/
theorem chunksOfTransforms : Obligations.ChunksOfTransforms := by
  refine ⟨fun s je u b hworks hidle => ?_, fun s je u o x hworks ho hb hx hd he h7 h8 =>
    ⟨fun du k hu hbad henc hop hpst hdu hk hlen => ?_, fun hnew hfew => ⟨fun hruns => ?_, fun hruns hkind hs hmute => ?_⟩⟩⟩
  · have hend (b : Bool) := endChunk_idle (s := s.start) hidle b
    cases b
    · exact congrArg Host.Outcome.next ((if_pos hworks).trans (hend true))
    · exact congrArg Host.Outcome.next ((if_pos hworks).trans (hend false))
  · subst hdu hk
    obtain ⟨t, hrun, ⟨p, y, hp, hpx, hy, hrest⟩, hframe⟩ := chunkDone_encrypts hworks ho hb hx hd he h7 h8 hu hbad henc hop hpst hlen
    exact ⟨t, hrun, ⟨p, y, hp, hpx, hy, hrest⟩, hframe⟩
  · exact chunkCheckFail_again hworks ho hb hx hd he h7 h8 hnew hfew hruns
  · exact chunkCheckFail_poisons hworks ho hb hx hd he h7 h8 hnew hfew hruns hkind hs hmute

end Sys2Proof.Machine
end

section
/-! PROOFS. The way into DOZE and out of it (R307, R308, R310). -/

namespace Sys2Proof.Machine

namespace State

/-! ### The entry steps -/

/-- Parts that fall due to power down stay so, and the modes, the links and the parts that are up are as before. -/
structure Sinks (s t : State) : Prop where
  mode : t.mode = s.mode
  phase : t.phase = s.phase
  links : t.links = s.links
  up : t.pwr.up = s.pwr.up
  pd : s.pwr.pd ⊆ t.pwr.pd

theorem Sinks.refl (s : State) : s.Sinks s := ⟨rfl, rfl, rfl, rfl, List.Subset.refl _⟩

theorem Sinks.trans {s t u : State} (h : s.Sinks t) (h' : t.Sinks u) : s.Sinks u :=
  ⟨h'.mode.trans h.mode, h'.phase.trans h.phase, h'.links.trans h.links, h'.up.trans h.up, List.Subset.trans h.pd h'.pd⟩

theorem sinks_foldl {α : Type} {g : State → α → State} (h : ∀ (s : State) x, s.Sinks (g s x)) (xs : List α) (s : State) : s.Sinks (xs.foldl g s) := by
  induction xs generalizing s with
  | nil => exact .refl s
  | cons x xs ih => exact (h s x).trans (ih _)

theorem sinks_queueDown (s : State) (p : Part) : s.Sinks (s.queueDown p) := by
  unfold queueDown
  split
  · exact ⟨rfl, rfl, rfl, rfl, List.subset_append_left ..⟩
  · exact .refl s

theorem sinks_sleepPort (s : State) (p : Nat) : s.Sinks (s.sleepPort p) := by
  have hport : s.Sinks (s.modPort p fun q => { q with st := .sleep, sleepPend := false, laneLock := 0 }) :=
    ⟨rfl, rfl, rfl, rfl, List.Subset.refl _⟩
  unfold sleepPort
  exact hport.trans (sinks_foldl (fun s m => s.sinks_queueDown (.glane m)) _ _)

theorem sinks_dozePort (s : State) (p : Nat) : s.Sinks (s.dozePort p) := by
  unfold dozePort
  split
  · exact .refl s
  split
  · exact s.sinks_sleepPort p
  · exact s.sinks_sleepPort p
  · have hpend : s.Sinks (s.modPort p fun q => { q with sleepPend := true }) := ⟨rfl, rfl, rfl, rfl, List.Subset.refl _⟩
    refine hpend.trans ?_
    unfold settleSleep
    dsimp only
    split
    · exact sinks_sleepPort ..
    · exact .refl _
  · exact .refl s

theorem queueDown_dues (s : State) {p : Part} (h : p ∈ s.pwr.up) : p ∈ (s.queueDown p).pwr.pd := by
  by_cases hd : p ∈ s.pwr.pd
  · exact (s.sinks_queueDown p).pd hd
  · rw [s.queueDown_queues h hd]
    exact List.mem_append_right _ (List.mem_singleton_self p)

theorem foldl_queueDown_dues {part : Nat → Part} (n : Nat) (s : State) {k : Nat} (hk : k < n) (h : part k ∈ s.pwr.up) :
    part k ∈ ((List.range n).foldl (fun s k => s.queueDown (part k)) s).pwr.pd := by
  obtain ⟨pre, post, hrange⟩ := List.append_of_mem (List.mem_range.mpr hk)
  rw [hrange, List.foldl_append, List.foldl_cons]
  have hpre := sinks_foldl (fun (s : State) k => s.sinks_queueDown (part k)) pre s
  have hpost (u : State) := sinks_foldl (fun (s : State) k => s.sinks_queueDown (part k)) post u
  exact (hpost _).pd (queueDown_dues _ (by rw [hpre.up]; exact h))

/-- An UP link has been asked to go QUIET, and of the state only links and what is sent have changed. -/
theorem quietLink_asks (s : State) (l : Nat) : ((s.link l).st = .up → ((s.quietLink l).link l).quietReq = true)
    ∧ ((s.quietLink l).link l).st = (s.link l).st ∧ s.sameLinksBut (s.quietLink l) l
    ∧ s.quietLink l = { s with links := (s.quietLink l).links, outp := (s.quietLink l).outp } := by
  unfold quietLink
  split
  next hup =>
    have hask := s.link_modLink_same l fun k => { k with quietReq := true }
    have htold := (s.modLink l fun k => { k with quietReq := true }).link_modLink_same l fun k => { k with nak := false, ackDue := false }
    rw [hask] at htold
    have hlink : ((s.modLink l fun k => { k with quietReq := true }).sendCtl l 2).link l
        = { s.link l with quietReq := true, nak := false, ackDue := false } := htold
    refine ⟨fun _ => by rw [hlink], by rw [hlink], fun j hj => ?_, rfl⟩
    have h1 := link_modLink_ne (s.modLink l fun k => { k with quietReq := true }) hj fun k => { k with nak := false, ackDue := false }
    exact h1.trans (s.link_modLink_ne hj _)
  next hup => exact ⟨fun h => absurd h hup, rfl, fun _ _ => rfl, rfl⟩

theorem quiescent_enters {s : State} (hm : s.mode = .run) (hp : s.phase = .quiescing) (hq : s.quiescentNow = true) :
    ∃ t, exec .quiescent s = .next t ∧ t.mode = .run ∧ t.phase = .entering
      ∧ (∀ e < 104, .eng e ∈ s.pwr.up → .eng e ∈ t.pwr.pd) ∧ (∀ h < 24, .hub h ∈ s.pwr.up → .hub h ∈ t.pwr.pd)
      ∧ (∀ l < 2, (s.link l).st = .up → (t.link l).quietReq = true) := by
  obtain ⟨b, hb, hblinks, hbeq⟩ : ∃ b : State, { s.start with phase := .entering } = b ∧ b.links = s.links
      ∧ b = { s.start with phase := .entering } := ⟨_, rfl, rfl, rfl⟩
  obtain ⟨hask0, hst0, hsame0, heq0⟩ := b.quietLink_asks 0
  obtain ⟨hask1, hst1, hsame1, heq1⟩ := (b.quietLink 0).quietLink_asks 1
  obtain ⟨u, hu⟩ : ∃ u, (b.quietLink 0).quietLink 1 = u := ⟨_, rfl⟩
  rw [hu] at hask1 hst1 hsame1 heq1
  have huwith : u = { b with links := u.links, outp := u.outp } := by
    have hlast := congrArg (fun z : State => { z with links := u.links, outp := u.outp }) heq0
    exact heq1.trans hlast
  have huup : u.pwr.up = s.pwr.up := by rw [huwith, hbeq]; rfl
  obtain ⟨v, hv⟩ : ∃ v, (List.range 104).foldl (fun s e => s.queueDown (.eng e)) u = v := ⟨_, rfl⟩
  obtain ⟨w, hw⟩ : ∃ w, (List.range 24).foldl (fun s h => s.queueDown (.hub h)) v = w := ⟨_, rfl⟩
  have huv : u.Sinks v := hv ▸ sinks_foldl (fun s e => s.sinks_queueDown (.eng e)) _ u
  have hvw : v.Sinks w := hw ▸ sinks_foldl (fun s h => s.sinks_queueDown (.hub h)) _ v
  have hwt := sinks_foldl (fun s p => s.sinks_dozePort p) ((List.range 144).filter w.isLead) w
  have hrun : exec .quiescent s = .next (((List.range 144).filter w.isLead).foldl (fun s p => s.dozePort p) w) := by
    refine (congrArg Host.Outcome.next (if_pos ⟨hm, hp, hq⟩)).trans (congrArg Host.Outcome.next ?_)
    unfold startEntering
    dsimp only
    rw [hb, hu, hv, hw]
  generalize ((List.range 144).filter w.isLead).foldl (fun s p => s.dozePort p) w = t at hrun hwt
  have hut := huv.trans (hvw.trans hwt)
  refine ⟨t, hrun, ?_, ?_, fun e he hup => ?_, fun k hk hup => ?_, fun l hl hup => ?_⟩
  · rw [hut.mode, huwith, hbeq]
    exact hm
  · rw [hut.phase, huwith, hbeq]
  · refine (hvw.trans hwt).pd ?_
    rw [← hv]
    exact foldl_queueDown_dues (part := .eng) 104 u he (by rw [huup]; exact hup)
  · refine hwt.pd ?_
    rw [← hw]
    exact foldl_queueDown_dues (part := .hub) 24 v hk (by rw [huv.up, huup]; exact hup)
  · rw [link_congr hut.links]
    obtain rfl | rfl : l = 0 ∨ l = 1 := by omega
    · rw [hsame1 0 (by decide)]
      exact hask0 (by rw [link_congr hblinks]; exact hup)
    · exact hask1 (by rw [hsame0 1 (by decide), link_congr hblinks]; exact hup)

theorem setF_withPhase (s : State) (p : Phase) (x : Fld) (v : Nat) : (s.withPhase p).setF x v = (s.setF x v).withPhase p := rfl

theorem abandonQuiesce_eq (s : State) :
    s.abandonQuiesce = ((s.incF Fld.pwrModeCnt_abandons).setF Fld.pwrModeStat_req_rej 1).withPhase .steady := rfl

theorem quiesceTimeout_abandons {s : State} (hm : s.mode = .run) (hp : s.phase = .quiescing) :
    ∃ t, exec .quiesceTimeout s = .next t ∧ t.f Fld.pwrModeStat_req_rej = 1 ∧ t.f Fld.pwrModeStat_rej_cause = 4
      ∧ t.f Fld.pwrModeStat_rej_target = 3
      ∧ t.f Fld.pwrModeCnt_abandons = sat Fld.pwrModeCnt_abandons (s.f Fld.pwrModeCnt_abandons + 1)
      ∧ s.onlyRegs t [(.pwrModeStat, 0), (.pwrModeCnt, 0)] ∧ t = { s.start with phase := .steady, regs := t.regs } := by
  obtain ⟨u, hu, huoff, huf, huonly⟩ := s.start.incF_tells (x := Fld.pwrModeCnt_abandons) (by decide) (by decide)
  obtain ⟨v, hv, hvoff, hv1, hv2, hv3, hv4, hvonly⟩ : ∃ v : State, (((u.setF Fld.pwrModeStat_req_rej 1).setF Fld.pwrModeStat_rej_cause 4).setF
        Fld.pwrModeStat_rej_target 3) = v ∧ v.offRegs = u.offRegs ∧ v.f Fld.pwrModeStat_req_rej = 1 ∧ v.f Fld.pwrModeStat_rej_cause = 4
      ∧ v.f Fld.pwrModeStat_rej_target = 3 ∧ v.f Fld.pwrModeCnt_abandons = u.f Fld.pwrModeCnt_abandons
      ∧ u.onlyRegs v [(.pwrModeStat, 0), (.pwrModeCnt, 0)] := by
    refine ⟨_, rfl, by simp only [offRegs_setF], ?_, ?_, ?_, ?_, ?_⟩
    · simp (disch := decide) only [f_setF_apart, f_setF_same]
      rfl
    · simp (disch := decide) only [f_setF_apart, f_setF_same]
      rfl
    · simp (disch := decide) only [f_setF_same]
      rfl
    · simp (disch := decide) only [f_setF_ne]
    · exact ((onlyRegs_setF u (by decide) _).setF (by decide) _).setF (by decide) _
  have hrun : exec .quiesceTimeout s = .next (v.withPhase .steady) := by
    refine (congrArg Host.Outcome.next (if_pos ⟨hm, hp⟩)).trans (congrArg Host.Outcome.next ?_)
    rw [abandonQuiesce_eq, hu, setF_withPhase, setF_withPhase, hv]
  have hureg := huonly.onlyRegs.mono (ys := [(.pwrModeStat, 0), (.pwrModeCnt, 0)]) (by decide)
  refine ⟨_, hrun, hv1, hv2, hv3, hv4.trans huf, fun k hk => (hvonly k hk).trans (hureg k hk), ?_⟩
  have hoff := hvoff.trans huoff
  have hlast := congrArg (fun z : State => { z with phase := .steady, regs := v.regs }) hoff
  exact hlast

theorem dozeEntered_dozes {s : State} (hm : s.mode = .run) (hp : s.phase = .entering) (hup : ∀ h < 24, .hub h ∉ s.pwr.up) (he : s.hubEmpty = true) :
    ∃ t, exec .dozeEntered s = .next t
      ∧ t.f Fld.pwrModeCnt_doze_entries = sat Fld.pwrModeCnt_doze_entries (s.f Fld.pwrModeCnt_doze_entries + 1)
      ∧ s.onlyFields t [(Fld.pwrModeCnt_doze_entries, 0)]
      ∧ t = { s.start with mode := .doze, phase := .steady, regs := t.regs, pwr := { s.pwr with coreGated := true, engGated := true } } := by
  obtain ⟨u, hu, huoff, huf, huonly⟩ :=
    ({ s.start with mode := .doze, phase := .steady } : State).incF_tells (x := Fld.pwrModeCnt_doze_entries) (by decide) (by decide)
  have hpwr : u.pwr = s.pwr := by
    have h := congrArg State.pwr huoff
    exact h
  have hdown : (!s.start.hubUp) = true := by
    rw [Bool.not_eq_true', hubUp, List.any_eq_false]
    intro h hh
    simpa using hup h (List.mem_range.mp hh)
  have hrun : exec .dozeEntered s = .next { u with pwr := { s.pwr with coreGated := true, engGated := true } } := by
    refine (congrArg Host.Outcome.next (if_pos ⟨hm, hp, hdown, he⟩)).trans (congrArg Host.Outcome.next ?_)
    rw [hu, modPwr, hpwr]
  refine ⟨_, hrun, huf, huonly, ?_⟩
  have hlast := congrArg (fun z : State => { z with regs := u.regs, pwr := { s.pwr with coreGated := true, engGated := true } }) huoff
  exact hlast

/-! ### The exit -/

theorem has_queueWake (s : State) {p q : Part} (cls : Nat) (h : s.pwr.has p = true ∨ p = q) : (s.queueWake q cls).pwr.has p = true := by
  obtain ⟨u, hu, hhas⟩ : ∃ u, (s.modPwr fun w => { w with
      pd := w.pd.filter (· ≠ q), wakes := w.wakes.map fun x => if x.part = q then { x with cls := min x.cls cls } else x }) = u
      ∧ ∀ r, u.pwr.has r = s.pwr.has r := by
    refine ⟨_, rfl, fun r => ?_⟩
    have hpart (x : Wake) : (if x.part = q then { x with cls := min x.cls cls } else x).part = x.part := by split <;> rfl
    have hany : (s.pwr.wakes.map fun x => if x.part = q then { x with cls := min x.cls cls } else x).any (fun x => x.part == r)
        = s.pwr.wakes.any fun x => x.part == r := by
      rw [List.any_map]
      exact congrArg (List.any s.pwr.wakes) (funext fun x => by rw [Function.comp, hpart])
    unfold Pwr.has
    exact congrArg (fun b => b || s.pwr.granted.contains r || s.pwr.up.contains r) hany
  unfold queueWake
  dsimp only
  rw [hu]
  split
  next hq =>
    rcases h with h | rfl
    · rw [hhas, h]
    · exact hq
  next hq =>
    unfold Pwr.has
    rcases h with h | rfl
    · have hold := (hhas p).trans h
      unfold Pwr.has at hold
      simp only [modPwr, List.any_append, Bool.or_eq_true] at hold ⊢
      rcases hold with (h1 | h2) | h3
      · exact .inl (.inl (.inl h1))
      · exact .inl (.inr h2)
      · exact .inr h3
    · simp [modPwr]

theorem has_foldl_queueWake (ps : List Part) (cls : Nat) (s : State) {p : Part} (h : s.pwr.has p = true ∨ p ∈ ps) :
    (ps.foldl (fun s q => s.queueWake q cls) s).pwr.has p = true := by
  induction ps generalizing s with
  | nil => exact h.resolve_right (nomatch ·)
  | cons q ps ih =>
    rw [List.foldl_cons]
    refine ih _ ?_
    rcases h with h | h
    · exact .inl (has_queueWake s cls (.inl h))
    · rcases List.mem_cons.mp h with rfl | h
      · exact .inl (has_queueWake s cls (.inr rfl))
      · exact .inr h

theorem has_iff (w : Pwr) (p : Part) : w.has p = true ↔ p ∈ w.up ∨ p ∈ w.granted ∨ ∃ x ∈ w.wakes, x.part = p := by
  simp only [Pwr.has, Bool.or_eq_true, List.any_eq_true, beq_iff_eq, List.contains_iff_mem]
  rw [or_comm, or_comm (b := _ ∈ w.granted)]

/-- The modes, the gated clocks and the bucket of C0 wakes. -/
def exitMark (s : State) : Mode × Phase × Bool × Bool × Nat := (s.mode, s.phase, s.pwr.coreGated, s.pwr.engGated, s.pwr.c0Bucket)

theorem exitMark_queueWake (s : State) (p : Part) (cls : Nat) : (s.queueWake p cls).exitMark = s.exitMark := by
  unfold queueWake
  dsimp only
  split <;> rfl

theorem clocksUngated_wakes {s : State} (hm : s.mode = .doze) (hp : s.phase = .exiting) (hg : s.pwr.coreGated = true) :
    ∃ t, exec .clocksUngated s = .next t ∧ t.mode = .doze ∧ t.phase = .exiting ∧ t.pwr.coreGated = false ∧ t.pwr.engGated = false
      ∧ t.pwr.c0Bucket = s.c0Depth
      ∧ (∀ h < 24, .hub h ∈ t.pwr.up ∨ .hub h ∈ t.pwr.granted ∨ ∃ w ∈ t.pwr.wakes, w.part = .hub h) := by
  obtain ⟨u, hu, humark⟩ : ∃ u, (s.start.modPwr fun w => { w with coreGated := false, engGated := false, c0Bucket := s.c0Depth }) = u
      ∧ u.exitMark = (.doze, .exiting, false, false, s.c0Depth) := by
    refine ⟨_, rfl, ?_⟩
    rw [← hm, ← hp]
    rfl
  have hrun : exec .clocksUngated s = .next (u.exitParts.foldl (fun s p => s.queueWake p 1) u).hubFresh :=
    (congrArg Host.Outcome.next (if_pos ⟨hm, hp, hg⟩)).trans (by rw [← hu]; rfl)
  have hmark : (u.exitParts.foldl (fun s p => s.queueWake p 1) u).exitMark = u.exitMark :=
    foldl_keeps (fun p _ s => exitMark_queueWake s p 1) u
  have hhas (h : Nat) (hh : h < 24) := has_foldl_queueWake u.exitParts 1 u (p := .hub h) (.inr (by
    unfold exitParts
    exact List.mem_append_left _ (List.mem_append_left _ (List.mem_append_left _ (List.mem_map_of_mem (List.mem_range.mpr hh))))))
  generalize u.exitParts.foldl (fun s p => s.queueWake p 1) u = v at hrun hmark hhas
  have hv := hmark.trans humark
  simp only [exitMark, Prod.mk.injEq] at hv
  obtain ⟨h1, h2, h3, h4, h5⟩ := hv
  exact ⟨_, hrun, h1, h2, h3, h4, h5, fun h hh => (has_iff v.pwr (.hub h)).mp (hhas h hh)⟩

/-! ### RUN is reached -/

theorem wakeLink_wakes (s : State) (l : Nat) : ((s.link l).st = .quiet → ((s.wakeLink l).link l).st = .retrain) ∧ s.sameLinksBut (s.wakeLink l) l
    ∧ s.wakeLink l = { s with links := (s.wakeLink l).links, regs := (s.wakeLink l).regs } := by
  unfold wakeLink
  split
  next hq =>
    obtain ⟨u, hu, hust, husame, hueq⟩ : ∃ u : State, (s.modLink l fun k => { k with st := .retrain, fullWidth := true, quietReq := false }) = u
        ∧ (u.link l).st = .retrain ∧ s.sameLinksBut u l ∧ u = { s with links := u.links } :=
      ⟨_, rfl, by rw [link_modLink_same], sameLinksBut_modLink s l _, rfl⟩
    rw [hu]
    obtain ⟨v, hv, hoff⟩ : ∃ v, u.incF Fld.tlkLinkCnt_retrains l = v ∧ v.offRegs = u.offRegs := ⟨_, rfl, offRegs_incF ..⟩
    rw [hv]
    have hlinks : v.links = u.links := (congrArg State.links hoff :)
    refine ⟨fun _ => by rw [link_congr hlinks, hust], fun j hj => (link_congr hlinks j).trans (husame j hj), ?_⟩
    have h1 : v = { u with regs := v.regs } := congrArg (fun z : State => { z with regs := v.regs }) hoff
    have h2 := congrArg (fun z : State => { z with regs := v.regs }) hueq
    exact (h1.trans h2).trans (by rw [hlinks])
  next hq =>
    exact ⟨fun h => absurd h hq, sameLinksBut_modLink s l _, rfl⟩

theorem wakePorts_wakes (s : State) : ∀ p ∈ s.wakePorts.ports, p.2.st ≠ .sleep := by
  intro p hp
  obtain ⟨q, -, hq⟩ := List.mem_filterMap.mp hp
  obtain ⟨c, hc, hcst⟩ : ∃ c, (if q.2.st = .sleep then { q.2 with st := .train } else { q.2 with sleepPend := false } : Port) = c ∧ c.st ≠ .sleep := by
    refine ⟨_, rfl, ?_⟩
    split
    · exact nofun
    next h => exact h
  dsimp only at hq
  rw [hc] at hq
  split at hq
  · exact absurd hq (by simp)
  · rw [← Option.some.inj hq]
    exact hcst

/-- What RUN after DOZE leaves: links retrain, ports train, and no more has changed. -/
theorem reachRun_runs (s : State) : s.reachRun.mode = .run ∧ s.reachRun.phase = .steady
    ∧ (∀ l < 2, (s.link l).st = .quiet → (s.reachRun.link l).st = .retrain) ∧ (∀ p ∈ s.reachRun.ports, p.2.st ≠ .sleep)
    ∧ s.reachRun = { s with mode := .run, phase := .steady, links := s.reachRun.links, regs := s.reachRun.regs, ports := s.reachRun.ports } := by
  obtain ⟨b, hb, hblinks, hbeq⟩ : ∃ b : State, { s with mode := .run, phase := .steady } = b ∧ b.links = s.links
      ∧ b = { s with mode := .run, phase := .steady } := ⟨_, rfl, rfl, rfl⟩
  obtain ⟨hst0, hsame0, heq0⟩ := b.wakeLink_wakes 0
  obtain ⟨hst1, hsame1, heq1⟩ := (b.wakeLink 0).wakeLink_wakes 1
  have hports := ((b.wakeLink 0).wakeLink 1).wakePorts_wakes
  have hrun : s.reachRun = ((b.wakeLink 0).wakeLink 1).wakePorts := by rw [reachRun, hb]
  have hwith : ((b.wakeLink 0).wakeLink 1).wakePorts = { (b.wakeLink 0).wakeLink 1 with ports := ((b.wakeLink 0).wakeLink 1).wakePorts.ports } := rfl
  rw [← hrun] at hports hwith
  generalize (b.wakeLink 0).wakeLink 1 = u at *
  have hlinks : s.reachRun.links = u.links := by rw [hwith]
  have heq : s.reachRun = { s with mode := .run, phase := .steady, links := s.reachRun.links, regs := s.reachRun.regs, ports := s.reachRun.ports } := by
    have hkeep {x y : State} (h : x = y) := congrArg (fun z : State => { z with
      links := s.reachRun.links, regs := s.reachRun.regs, ports := s.reachRun.ports }) h
    have h1 := hkeep hwith
    have h2 := hkeep heq1
    have h3 := hkeep heq0
    have h4 := hkeep hbeq
    exact h1.trans (h2.trans (h3.trans h4))
  refine ⟨by rw [heq], by rw [heq], fun l hl hq => ?_, hports, heq⟩
  rw [link_congr hlinks]
  obtain rfl | rfl : l = 0 ∨ l = 1 := by omega
  · rw [hsame1 0 (by decide)]
    exact hst0 (by rw [link_congr hblinks]; exact hq)
  · exact hst1 (by rw [hsame0 1 (by decide), link_congr hblinks]; exact hq)

theorem dozeExit_drains {s : State} (hm : s.mode = .doze) (hp : s.phase = .exiting) (hg : s.pwr.coreGated = false)
    (hup : ∀ h < 24, .hub h ∈ s.pwr.up) : exec .dozeExitDone s = .next s.start.reachRun.drain := by
  refine congrArg Host.Outcome.next (if_pos ⟨hm, hp, ?_, ?_⟩)
  · rw [show s.start.pwr.coreGated = false from hg]
    rfl
  · rw [hubAllUp, List.all_eq_true]
    exact fun h hh => List.contains_iff_mem.mpr (hup h (List.mem_range.mp hh))

theorem dozeExit_runs {s : State} (hm : s.mode = .doze) (hp : s.phase = .exiting) (hg : s.pwr.coreGated = false)
    (hup : ∀ h < 24, .hub h ∈ s.pwr.up) (hw : s.bcsWait = []) :
    ∃ t, exec .dozeExitDone s = .next t ∧ t.mode = .run ∧ t.phase = .steady
      ∧ (∀ l < 2, (s.link l).st = .quiet → (t.link l).st = .retrain)
      ∧ (∀ p ∈ t.ports, p.2.st ≠ .sleep) ∧ t.jnl = s.jnl ∧ t.pwr = s.pwr := by
  obtain ⟨h1, h2, h3, h4, heq⟩ := s.start.reachRun_runs
  have hrun := dozeExit_drains hm hp hg hup
  have hjnl : s.start.reachRun.jnl = s.jnl := by rw [heq]; rfl
  have hpwr : s.start.reachRun.pwr = s.pwr := by rw [heq]; rfl
  have hwait : s.start.reachRun.bcsWait = [] := by rw [heq]; exact hw
  have hnone : s.start.reachRun.drain = s.start.reachRun := by
    rw [drain, hwait, drainGo, ← hwait]
  rw [hnone] at hrun
  exact ⟨_, hrun, h1, h2, h3, h4, hjnl, hpwr⟩

theorem mustWait_congr {s t : State} (hm : t.mode = s.mode) (hst : t.strobe = s.strobe) (hq : t.slowQ = s.slowQ) (before : List BcsReq) (r : BcsReq) :
    t.mustWait before r = s.mustWait before r := by
  unfold mustWait waitsBehind waitsCrossing selfHeld
  rw [hm, hst, hq]

theorem dozeExit_performs {s : State} {r : BcsReq} (hm : s.mode = .doze) (hp : s.phase = .exiting) (hg : s.pwr.coreGated = false)
    (hup : ∀ h < 24, .hub h ∈ s.pwr.up) (hw : s.bcsWait = [r]) (hgo : ({ s with mode := .run } : State).mustWait [] r = false) :
    ∃ t, exec .dozeExitDone s = .next t ∧ t.bcsWait = [] := by
  obtain ⟨h1, -, -, -, heq⟩ := s.start.reachRun_runs
  have hrun := dozeExit_drains hm hp hg hup
  have hwait : s.start.reachRun.bcsWait = [r] := by rw [heq]; exact hw
  have hturn : s.start.reachRun.mustWait [] r = false := by
    rw [← hgo]
    exact mustWait_congr h1 (by rw [heq]; rfl) (by rw [heq]; rfl) [] r
  refine ⟨_, hrun, ?_⟩
  rw [drain, hwait, drainGo, hturn, if_neg Bool.false_ne_true, drainGo]

end State

open State in
/-- Settles O17: the way in by the entry steps and their frames, the way out by the parts that are woken and by RUN with what waited performed. -/
theorem dozeEntryAndExit : Obligations.DozeEntryAndExit :=
  ⟨⟨fun _ => quiescent_enters, fun _ => quiesceTimeout_abandons, fun _ => dozeEntered_dozes⟩,
    fun _ => clocksUngated_wakes, fun _ => dozeExit_runs, fun _ _ => dozeExit_performs⟩

end Sys2Proof.Machine
end

section
/-! PROOFS. Instruction retry (R162, R163): a retirement while FOREGROUND runs lets it go on with the next engine (R292). -/

namespace Sys2Proof.Machine

namespace State

/-- In SERVICE FOREGROUND has engine 2 next, and the context on engine 0 has failed two retries; engines 1 and 2 are free spares. -/
def inForeground : State :=
  { mode := .service, ctxs := [(0, { eng := 0, je := some 0, retries := 2 })]
    engs := [(0, { role := .active }), (1, { role := .spare }), (2, { role := .spare })]
    bst := { fg := true, fgMem := 1056, fgEng := 2 } }

/-- Whether an engine is under test after a step. -/
def testingAfter (e : Nat) : Host.Outcome State Fault Refusal → Option Bool
  | .next t => some (t.eng e).testing
  | _ => none

theorem testingAfter_retry_inForeground : testingAfter 2 (exec (.instructionRetry 0 false) inForeground) = some true := by
  decide +kernel

theorem muteUc_inForeground : inForeground.muteUc := by
  have hreg (i : Nat) : inForeground.reg .evVec i = RegId.evVec.row.reset := rfl
  refine ⟨by decide +kernel, fun i => ?_⟩
  have hoff : bits Fld.evVec_en.hi Fld.evVec_en.lo RegId.evVec.row.reset.toNat = 0 := by decide
  have hfield (k : Nat) : inForeground.f Fld.evVec_en k = 0 := (congrArg (fun w : Word => bits Fld.evVec_en.hi Fld.evVec_en.lo w.toNat) (hreg k)).trans hoff
  rw [evOn, fb, hfield]
  rfl

end State

open State in
/-- Refutes O43: the third failed retry retires engine 0 and frees the slice machine for FOREGROUND, which takes engine 2 for test on the same edge, so that
engines other than the two change. -/
theorem not_retriesAndRetirement : ¬ Obligations.RetriesAndRetirement := by
  intro h
  obtain ⟨-, -, hretires⟩ := h.1 inForeground 0 0 { eng := 0, je := some 0, retries := 2 } rfl rfl rfl rfl (by decide) rfl rfl rfl
  obtain ⟨t, hexec, -, -, hkept, -⟩ := hretires 1 (by decide) rfl rfl (by decide +kernel) (by decide) muteUc_inForeground
  have hafter := testingAfter_retry_inForeground
  rw [hexec] at hafter
  have hone : (t.eng 2).testing = true := Option.some.inj hafter
  rw [hkept 2 (by decide) (by decide)] at hone
  exact absurd hone (by decide +kernel)

end Sys2Proof.Machine
end

section
/-! PROOFS. Polls, attention deliveries, and the attention registers (R97 to R101, R146, R271). -/

namespace Sys2Proof.Machine

namespace State

/-! ### What a DN's state reads -/

theorem device_congr {s t : State} (h : t.tbl = s.tbl) (n : Nat) : t.device n = s.device n := by rw [device, dvtAt, h, device, dvtAt]

theorem evOn_eq {s t : State} {i c : Nat} (h : t.f Fld.evVec_en (evVecIdx i c) = s.f Fld.evVec_en (evVecIdx i c)) : t.evOn i c = s.evOn i c := by
  rw [evOn, fb_eq h, evOn]

/-- Of a state one DN alone has changed. -/
structure OneDn (s t : State) (n : Nat) (d : Dn) : Prop where
  dn : t.dn n = d
  others : ∀ m, m ≠ n → t.dn m = s.dn m
  eq : t = { s with dns := t.dns }

theorem oneDn_modDn (s : State) (n : Nat) (g : Dn → Dn) : s.OneDn (s.modDn n g) n (g (s.dn n)) :=
  ⟨s.dn_modDn_same n g, fun _ h => s.dn_modDn_ne h g, rfl⟩

theorem unmute_clears {s : State} {n : Nat} (h : (s.dn n).attn = .muted) : s.OneDn (s.unmute n) n { s.dn n with attn := .clear } := by
  have hone := s.oneDn_modDn n fun d => if d.attn = .muted then { d with attn := .clear } else d
  have hto : (if (s.dn n).attn = .muted then { s.dn n with attn := .clear } else s.dn n) = { s.dn n with attn := .clear } := if_pos h
  rw [hto] at hone
  exact hone

/-- One exchange more is queued at one port, and the serial number has stepped. -/
structure Queues (s t : State) (p d : Nat) (x : XReq) : Prop where
  queue : (t.port p).queue = insertReq d x (s.port p).queue
  others : s.samePortsBut t p
  eq : t = { s with ports := t.ports, jnl := { s.jnl with serial := s.jnl.serial + 1 } }

theorem queues_enqueue (s : State) (p d : Nat) (x : XReq) :
    s.Queues ((s.enqueue p d x).modJnl fun j => { j with serial := j.serial + 1 }) p d x := by
  have hsame := s.port_modPort_same p fun q => { q with queue := insertReq d x q.queue }
  exact ⟨congrArg Port.queue hsame, fun q hq => s.port_modPort_ne hq fun q => { q with queue := insertReq d x q.queue }, rfl⟩

/-! ### Polls -/

theorem pollPeriod_goes {s : State} {n : Nat} (hv : (s.device n).v = true) (hp : (s.device n).poll ≠ 0)
    (hr : s.portRecv (s.device n).port = true) :
    ¬ ((!(s.device n).v) = true ∨ (s.device n).poll = 0 ∨ (!s.portRecv (s.device n).port) = true) := by
  simp [hv, hp, hr]

theorem pollPeriod_dues {s : State} {n : Fin 262144} (hv : (s.device n.val).v = true) (hp : (s.device n.val).poll ≠ 0)
    (hr : s.portRecv (s.device n.val).port = true) (hw : (s.dn n.val).poll = .wait) :
    ∃ t, exec (.pollPeriod n) s = .next t ∧ t.dn n.val = { s.dn n.val with poll := .due } ∧ (∀ m, m ≠ n.val → t.dn m = s.dn m)
      ∧ (t.port (s.device n.val).port).queue = insertReq (s.device n.val).daddr
          { kind := .poll, dn := n.val, cls := (s.device n.val).cls, age := s.ts, serial := s.jnl.serial } (s.port (s.device n.val).port).queue
      ∧ s.samePortsBut t (s.device n.val).port
      ∧ t = { s.start with dns := t.dns, ports := t.ports, jnl := { s.jnl with serial := s.jnl.serial + 1 } } := by
  obtain ⟨u, hu, hone⟩ : ∃ u, (s.start.modDn n.val fun q => { q with poll := .due }) = u ∧ s.start.OneDn u n.val { s.dn n.val with poll := .due } :=
    ⟨_, rfl, s.start.oneDn_modDn n.val fun q => { q with poll := .due }⟩
  have hpoll : (s.start.dn n.val).poll = .wait := hw
  have hrun : exec (.pollPeriod n) s = .next ((u.enqueue (s.device n.val).port (s.device n.val).daddr
      { kind := .poll, dn := n.val, cls := (s.device n.val).cls, age := s.ts, serial := s.jnl.serial }).modJnl
        fun j => { j with serial := j.serial + 1 }) := by
    refine (congrArg Host.Outcome.next (if_neg (pollPeriod_goes (s := s.start) hv hp hr))).trans (congrArg Host.Outcome.next ?_)
    rw [hpoll, ← hu] <;> rfl
  have hq := u.queues_enqueue (s.device n.val).port (s.device n.val).daddr
    { kind := .poll, dn := n.val, cls := (s.device n.val).cls, age := s.ts, serial := s.jnl.serial }
  generalize (u.enqueue (s.device n.val).port (s.device n.val).daddr
      { kind := .poll, dn := n.val, cls := (s.device n.val).cls, age := s.ts, serial := s.jnl.serial }).modJnl
        (fun j => { j with serial := j.serial + 1 }) = t at hrun hq
  have hdns : t.dns = u.dns := by rw [hq.eq]
  have hports (q : Nat) : u.port q = s.port q := by rw [hone.eq]; rfl
  have hserial : u.jnl = s.jnl := by rw [hone.eq]; rfl
  refine ⟨t, hrun, (dn_congr hdns n.val).trans hone.dn, fun m hm => (dn_congr hdns m).trans (hone.others m hm), ?_,
    fun q hne => (hq.others q hne).trans (hports q), ?_⟩
  · rw [hq.queue, hports]
  · have h1 := hq.eq
    have h2 := congrArg (fun z : State => { z with dns := t.dns, ports := t.ports, jnl := { z.jnl with serial := z.jnl.serial + 1 } }) hone.eq
    have h3 := congrArg (fun z : State => { z with dns := t.dns }) h1
    exact h3.trans h2

theorem pollPeriod_skips {s : State} {n : Fin 262144} (hv : (s.device n.val).v = true) (hp : (s.device n.val).poll ≠ 0)
    (hr : s.portRecv (s.device n.val).port = true) (hw : (s.dn n.val).poll = .due) :
    ∃ t, exec (.pollPeriod n) s = .next t
      ∧ t.f Fld.gptSlotCnt_poll_skip (s.device n.val).port = sat Fld.gptSlotCnt_poll_skip (s.f Fld.gptSlotCnt_poll_skip (s.device n.val).port + 1)
      ∧ s.onlyFields t [(Fld.gptSlotCnt_poll_skip, (s.device n.val).port)] ∧ t = { s.start with regs := t.regs } := by
  have hpoll : (s.start.dn n.val).poll = .due := hw
  have hrun : exec (.pollPeriod n) s = .next (s.start.incF Fld.gptSlotCnt_poll_skip (s.device n.val).port) := by
    refine (congrArg Host.Outcome.next (if_neg (pollPeriod_goes (s := s.start) hv hp hr))).trans (congrArg Host.Outcome.next ?_)
    rw [hpoll] <;> rfl
  exact ⟨_, hrun, f_incF_sat s.start (by decide) 1 _,
    (onlyFields.refl s _).incF (List.mem_singleton_self _) (by decide) (wordsApart_singleton _ _) 1, eq_of_offRegs_start (b := s.bst) (offRegs_incF s.start ..)⟩

/-! ### An attention sample -/

theorem digestStep_off {s : State} {n : Nat} (h : (s.device n).smapEn = false) (pay : List Byte) : s.digestStep n pay = s := by
  unfold digestStep
  dsimp only
  rw [h, if_pos]
  simp

/-- The condition under which a sample acts. -/
theorem sample_acts {s : State} {n : Nat} (hm : s.mode ≠ .doze) (hw : s.works = true) (hi : (s.inst (s.device n).owner).st ≠ .squash) :
    ¬ (s.mode = .doze ∨ (!s.works) = true ∨ (s.inst (s.device n).owner).st = .squash) := by
  simp [hm, hw, hi]

/-- A sample that a poll brings, once the DN has noted it. -/
theorem attnSample_notes {s : State} {n : Nat} (hm : s.mode ≠ .doze) (hw : s.works = true) (hi : (s.inst (s.device n).owner).st ≠ .squash) (v : Bool)
    (pay : List Byte) : ∃ c, s.OneDn c n { s.dn n with lastAttn := v }
      ∧ ((s.dn n).attn = .clear → v = true → (∀ k, s.stormLimit n = some k → s.intervalCount n < k) → s.attnSample n v none pay = c.deliver n none pay)
      ∧ (∀ k, (s.dn n).attn = .clear → v = true → s.stormLimit n = some k → k ≤ s.intervalCount n → s.attnSample n v none pay = c.storm n)
      ∧ ((s.dn n).attn = .delivered → v = false → s.attnSample n v none pay
          = (c.modDn n fun d => { d with attn := .clear }).incF Fld.gptAttnCnt_attn_clr (s.device n).port) := by
  obtain ⟨c, hc, hone⟩ : ∃ c, (s.modDn n fun d => { d with lastAttn := v }) = c ∧ s.OneDn c n { s.dn n with lastAttn := v } :=
    ⟨_, rfl, s.oneDn_modDn n fun d => { d with lastAttn := v }⟩
  have hcm : c.mode = s.mode ∧ c.works = s.works ∧ c.insts = s.insts ∧ c.tbl = s.tbl ∧ c.msNow = s.msNow := by rw [hone.eq]; exact ⟨rfl, rfl, rfl, rfl, rfl⟩
  obtain ⟨hmode, hworks, hinsts, htbl, hms⟩ := hcm
  have hact : ¬ (c.mode = .doze ∨ (!c.works) = true ∨ (c.inst (s.device n).owner).st = .squash) := by
    rw [hmode, hworks, inst_congr hinsts]
    exact sample_acts hm hw hi
  have hlimit : c.stormLimit n = s.stormLimit n := by
    have hnow : c.stormNow n = s.stormNow n := by rw [stormNow, stormNow, hone.dn, hms, device_congr htbl]
    rw [stormLimit, hnow, stormLimit]
  have hcount : c.intervalCount n = s.intervalCount n := by rw [intervalCount, intervalCount, hone.dn, hms]
  have hattn : (c.dn n).attn = (s.dn n).attn := by rw [hone.dn]
  refine ⟨c, hone, fun ha hv hlt => ?_, fun k ha hv hlim hge => ?_, fun ha hv => ?_⟩ <;> unfold attnSample <;> dsimp only <;>
    rw [if_pos Option.isNone_none, hc, if_neg hact]
  · rw [hattn, ha, hv]
    dsimp only
    rw [if_pos rfl, hlimit, hcount]
    cases hl : s.stormLimit n with
    | none => rfl
    | some k => exact if_pos (decide_eq_true (hlt k hl))
  · rw [hattn, ha, hv]
    dsimp only
    rw [if_pos rfl, hlimit, hcount, hlim]
    exact if_neg (by simpa using hge)
  · rw [hattn, ha, hv]
    rfl

theorem device_port_lt (s : State) (n : Nat) : (s.device n).port < 256 := bits_lt 23 16 _

/-- The counters of attention stand below the EVENT vectors. -/
theorem evOn_incF_attn (s : State) {x : Fld} (hx : x.id = .gptAttnCnt) {p : Nat} (hp : p < 256) (m i c : Nat) :
    (s.incF x p m).evOn i c = s.evOn i c := by
  have hlow : ∀ p < 256, regOff .gptAttnCnt p < RegId.evVec.row.block.base := by decide +kernel
  refine evOn_eq (f_incF_ne s ?_ m)
  rw [hx]
  exact regOff_ne_of_lt (hlow p hp) _

theorem deliver_delivers {s : State} {n : Nat} (pay : List Byte) (hev : s.evOn (s.device n).owner 2 = false) (hw : s.waiters n = []) :
    s.deliver n none pay = (s.modDn n fun d => { d with
      attn := .delivered, interval := s.msNow, count := s.intervalCount n + 1, lastSample := pay, ackFor := none }).incF
        Fld.gptAttnCnt_delivered (s.device n).port := by
  obtain ⟨u, hu, hone⟩ : ∃ u, (s.modDn n fun d => { d with
      attn := .delivered, interval := s.msNow, count := s.intervalCount n + 1, lastSample := pay, ackFor := none }) = u ∧ u = { s with dns := u.dns } :=
    ⟨_, rfl, rfl⟩
  obtain ⟨c, hc, hoff⟩ : ∃ c, u.incF Fld.gptAttnCnt_delivered (s.device n).port = c ∧ c.offRegs = u.offRegs := ⟨_, rfl, offRegs_incF ..⟩
  have hquiet : c.evOn (s.device n).owner 2 = false := by
    rw [← hc, evOn_incF_attn u rfl (device_port_lt s n)]
    rw [hone]
    exact hev
  have hnone : c.waiters n = [] := by
    have heq : c = { u with regs := c.regs } := congrArg (fun z : State => { z with regs := c.regs }) hoff
    rw [heq, hone]
    exact hw
  unfold deliver
  dsimp only
  rw [hu, hc, hquiet, Bool.and_false, if_neg Bool.false_ne_true, hnone]
  rfl

theorem storm_mutes {s : State} {n : Nat} (hev : s.evOn (s.device n).owner 5 = false) :
    s.storm n = (s.modDn n fun d => { d with attn := .muted }).incF Fld.gptAttnCnt_storms (s.device n).port := by
  obtain ⟨u, hu, hone⟩ : ∃ u, (s.modDn n fun d => { d with attn := .muted }) = u ∧ u = { s with dns := u.dns } := ⟨_, rfl, rfl⟩
  have hquiet : (u.incF Fld.gptAttnCnt_storms (s.device n).port).evOn (s.device n).owner 5 = false := by
    rw [evOn_incF_attn u rfl (device_port_lt s n), hone]
    exact hev
  unfold storm
  dsimp only
  rw [hu, hquiet, Bool.and_false, if_neg Bool.false_ne_true]

/-! ### The answer to a poll -/

/-- What the step of an attention counter leaves, of one DN that has changed. -/
theorem attnStep_tells {s c : State} {n : Nat} {d : Dn} (hone : s.OneDn c n d) (g : Dn → Dn) {x : Fld} (hx : x.fits) (p : Nat) :
    ∃ t, (c.modDn n g).incF x p = t ∧ t.dn n = g d ∧ (∀ m, m ≠ n → t.dn m = s.dn m) ∧ t.f x p = sat x (s.f x p + 1)
      ∧ s.onlyFields t [(x, p)] ∧ t = { s with dns := t.dns, regs := t.regs } := by
  obtain ⟨u, hu, hud, hune, hueq⟩ : ∃ u, c.modDn n g = u ∧ u.dn n = g d ∧ (∀ m, m ≠ n → u.dn m = s.dn m) ∧ u = { s with dns := u.dns } := by
    refine ⟨_, rfl, ?_, fun m hm => (c.dn_modDn_ne hm g).trans (hone.others m hm), ?_⟩
    · rw [dn_modDn_same, hone.dn]
    · have hlast := congrArg (fun z : State => { z with dns := (c.modDn n g).dns }) hone.eq
      exact hlast
  rw [hu]
  have hregs : u.regs = s.regs := by rw [hueq]
  obtain ⟨t, ht, hoff⟩ : ∃ t, u.incF x p = t ∧ t.offRegs = u.offRegs := ⟨_, rfl, offRegs_incF ..⟩
  have hdns : t.dns = u.dns := (congrArg State.dns hoff :)
  have honly : u.onlyFields t [(x, p)] := ht ▸ (onlyFields.refl u _).incF (List.mem_singleton_self _) hx (wordsApart_singleton _ _) 1
  refine ⟨t, ht, (dn_congr hdns n).trans hud, fun m hm => (dn_congr hdns m).trans (hune m hm), ?_, ?_, ?_⟩
  · rw [← ht, f_incF_sat u hx, f_congr hregs]
  · rw [hueq] at honly
    exact honly
  · have h1 : t = { u with regs := t.regs } := congrArg (fun z : State => { z with regs := t.regs }) hoff
    have h2 := congrArg (fun z : State => { z with dns := t.dns, regs := t.regs }) hueq
    have h3 := congrArg (fun z : State => { z with dns := t.dns }) h1
    exact h3.trans h2

/-- A good answer to a poll: the exchange closes, and its DN has a sample. -/
theorem pollResp_samples {s : State} {p : Fin 144} {f : Frame} {x : XOpen} (hr : s.portRecv p.val = true) (hcrc : s.crcOk f = true)
    (hst : (s.daddr p.val f.daddr.toNat).st = .cmd) (ho : (s.daddr p.val f.daddr.toNat).opened = some x)
    (hl : (s.daddr p.val f.daddr.toNat).losses < 4) (hk : x.req.kind = .poll) (hlen : f.payload.length = 16) :
    ∃ b : State, exec (.pollResp p f) s = .next ((b.attnSample x.req.dn (bit 15 (fieldAt 0 2 f.payload)) none f.payload).digestStep x.req.dn f.payload)
      ∧ b.dn x.req.dn = { s.dn x.req.dn with poll := .wait } ∧ (∀ m, m ≠ x.req.dn → b.dn m = s.dn m)
      ∧ (b.daddr p.val f.daddr.toNat).st = .idle ∧ s.sameDaddrsBut b p.val f.daddr.toNat
      ∧ b = { s.start with daddrs := b.daddrs, dns := b.dns } := by
  have hclose := s.start.daddr_modDaddr_same p.val f.daddr.toNat
    fun a => { a with st := if 4 ≤ a.losses then .reserved else .idle, opened := none, up := none, swallow := none }
  have hothers : s.sameDaddrsBut (s.start.closeDaddr p.val f.daddr.toNat) p.val f.daddr.toNat :=
    s.start.sameDaddrsBut_modDaddr p.val f.daddr.toNat _
  have hdn := (s.start.closeDaddr p.val f.daddr.toNat).oneDn_modDn x.req.dn fun q => { q with poll := .wait }
  have hrun : exec (.pollResp p f) s = .next ((((s.start.closeDaddr p.val f.daddr.toNat).modDn x.req.dn fun q => { q with poll := .wait }).attnSample
      x.req.dn (bit 15 (fieldAt 0 2 f.payload)) none f.payload).digestStep x.req.dn f.payload) := by
    refine congrArg Host.Outcome.next ?_
    have hr' : ¬ (!s.start.portRecv p.val) = true := by
      rw [show s.start.portRecv p.val = true from hr]
      decide
    have hcrc' : ¬ (!s.start.crcOk f) = true := by
      rw [show s.start.crcOk f = true from hcrc]
      decide
    have hst' : (s.start.daddr p.val f.daddr.toNat).st = .cmd := hst
    have ho' : (s.start.daddr p.val f.daddr.toNat).opened = some x := ho
    rw [if_neg hr', if_neg hcrc', hst', ho']
    exact if_pos ⟨hk, hlen⟩
  refine ⟨_, hrun, hdn.dn, hdn.others, ?_, hothers, rfl⟩
  refine (congrArg Daddr.st hclose).trans ?_
  exact if_neg (Nat.not_le.mpr hl)

section
variable {s : State} {p : Fin 144} {f : Frame} {x : XOpen}

/-- The answer to a poll that no digest follows: what its sample does is all that it does besides closing the exchange. -/
theorem pollResp_notes (hr : s.portRecv p.val = true) (hcrc : s.crcOk f = true) (hst : (s.daddr p.val f.daddr.toNat).st = .cmd)
    (ho : (s.daddr p.val f.daddr.toNat).opened = some x) (hl : (s.daddr p.val f.daddr.toNat).losses < 4) (hk : x.req.kind = .poll)
    (hlen : f.payload.length = 16) (hm : s.mode ≠ .doze) (hmap : (s.device x.req.dn).smapEn = false)
    (hi : (s.inst (s.device x.req.dn).owner).st ≠ .squash) :
    ∃ b c : State, (∀ u, b.attnSample x.req.dn (bit 15 (fieldAt 0 2 f.payload)) none f.payload = u → u.tbl = s.tbl → exec (.pollResp p f) s = .next u)
      ∧ (b.daddr p.val f.daddr.toNat).st = .idle ∧ s.sameDaddrsBut b p.val f.daddr.toNat ∧ b = { s.start with daddrs := b.daddrs, dns := b.dns }
      ∧ b.OneDn c x.req.dn { s.dn x.req.dn with poll := .wait, lastAttn := bit 15 (fieldAt 0 2 f.payload) } ∧ (∀ m, m ≠ x.req.dn → c.dn m = s.dn m)
      ∧ ((s.dn x.req.dn).attn = .clear → bit 15 (fieldAt 0 2 f.payload) = true
          → (∀ k, s.stormLimit x.req.dn = some k → s.intervalCount x.req.dn < k)
          → b.attnSample x.req.dn (bit 15 (fieldAt 0 2 f.payload)) none f.payload = c.deliver x.req.dn none f.payload)
      ∧ (∀ k, (s.dn x.req.dn).attn = .clear → bit 15 (fieldAt 0 2 f.payload) = true → s.stormLimit x.req.dn = some k
          → k ≤ s.intervalCount x.req.dn → b.attnSample x.req.dn (bit 15 (fieldAt 0 2 f.payload)) none f.payload = c.storm x.req.dn)
      ∧ ((s.dn x.req.dn).attn = .delivered → bit 15 (fieldAt 0 2 f.payload) = false
          → b.attnSample x.req.dn (bit 15 (fieldAt 0 2 f.payload)) none f.payload
            = (c.modDn x.req.dn fun d => { d with attn := .clear }).incF Fld.gptAttnCnt_attn_clr (s.device x.req.dn).port) := by
  obtain ⟨b, hrun, hbn, hbne, hidle, hsame, hbeq⟩ := pollResp_samples hr hcrc hst ho hl hk hlen
  have htbl : b.tbl = s.tbl := by rw [hbeq]; rfl
  have hms : b.msNow = s.msNow := by rw [hbeq]; rfl
  have hdev : b.device x.req.dn = s.device x.req.dn := device_congr htbl _
  have hlimit : b.stormLimit x.req.dn = s.stormLimit x.req.dn := by
    have hnow : b.stormNow x.req.dn = s.stormNow x.req.dn := by rw [stormNow, stormNow, hbn, hms, hdev]
    rw [stormLimit, hnow, stormLimit]
  have hcount : b.intervalCount x.req.dn = s.intervalCount x.req.dn := by rw [intervalCount, intervalCount, hbn, hms]
  have hattn : (b.dn x.req.dn).attn = (s.dn x.req.dn).attn := by rw [hbn]
  obtain ⟨c, hone, hdel, hstorm, hclr⟩ := attnSample_notes (s := b) (n := x.req.dn) (by rw [hbeq]; exact hm)
    (by rw [hbeq]; exact (Bool.and_eq_true_iff.mp hr).1) (by rw [hdev, hbeq]; exact hi) (bit 15 (fieldAt 0 2 f.payload)) f.payload
  rw [hbn] at hone
  rw [hattn, hlimit, hcount] at hdel
  rw [hattn, hlimit, hcount] at hstorm
  rw [hattn, hdev] at hclr
  refine ⟨b, c, fun u hu hut => ?_, hidle, hsame, hbeq, hone, fun m hm => (hone.others m hm).trans (hbne m hm), hdel, hstorm, hclr⟩
  rw [hrun, hu, digestStep_off (by rw [device_congr hut]; exact hmap)]

/-- What a state that a sample has left gives back of the one before the command. -/
theorem sample_frame {s b c t : State} {n p d : Nat} {e e' : Dn} {y : Fld} {q : Nat} (hsame : s.sameDaddrsBut b p d) (hidle : (b.daddr p d).st = .idle)
    (hbeq : b = { s.start with daddrs := b.daddrs, dns := b.dns }) (hone : b.OneDn c n e) (hne : ∀ m, m ≠ n → c.dn m = s.dn m)
    (htn : t.dn n = e') (htne : ∀ m, m ≠ n → t.dn m = b.dn m) (htf : t.f y q = sat y (b.f y q + 1)) (hto : b.onlyFields t [(y, q)])
    (hteq : t = { b with dns := t.dns, regs := t.regs }) :
    t.dn n = e' ∧ t.f y q = sat y (s.f y q + 1) ∧ (t.daddr p d).st = .idle ∧ s.sameDaddrsBut t p d ∧ (∀ m, m ≠ n → t.dn m = s.dn m)
      ∧ s.onlyFields t [(y, q)] ∧ t = { s.start with daddrs := t.daddrs, dns := t.dns, regs := t.regs } := by
  have hregs : b.regs = s.regs := by rw [hbeq]; rfl
  have hdad : t.daddrs = b.daddrs := by rw [hteq]
  refine ⟨htn, ?_, ?_, fun k hk => ?_, fun m hm => ?_, ?_, ?_⟩
  · rw [htf, f_congr hregs]
  · rw [daddr_congr hdad, hidle]
  · rw [hdad]
    exact hsame k hk
  · rw [htne m hm, ← hone.others m hm, hne m hm]
  · exact (onlyFields_of_regs hregs _).trans hto
  · have h1 := congrArg (fun z : State => { z with daddrs := t.daddrs }) hteq
    have h2 := congrArg (fun z : State => { z with daddrs := t.daddrs, dns := t.dns, regs := t.regs }) hbeq
    exact h1.trans h2

end

section
variable {s : State} {p : Fin 144} {f : Frame} {x : XOpen}

theorem pollResp_delivers (hr : s.portRecv p.val = true) (hcrc : s.crcOk f = true) (hst : (s.daddr p.val f.daddr.toNat).st = .cmd)
    (ho : (s.daddr p.val f.daddr.toNat).opened = some x) (hl : (s.daddr p.val f.daddr.toNat).losses < 4) (hk : x.req.kind = .poll)
    (hlen : f.payload.length = 16) (hm : s.mode ≠ .doze) (hmap : (s.device x.req.dn).smapEn = false)
    (hi : (s.inst (s.device x.req.dn).owner).st ≠ .squash) (hev : s.evOn (s.device x.req.dn).owner 2 = false) (hw : s.waiters x.req.dn = [])
    (hbit : bit 15 (fieldAt 0 2 f.payload) = true) (hclr : (s.dn x.req.dn).attn = .clear)
    (hlt : ∀ k, s.stormLimit x.req.dn = some k → s.intervalCount x.req.dn < k) :
    ∃ t, exec (.pollResp p f) s = .next t
      ∧ t.dn x.req.dn = { s.dn x.req.dn with
          poll := .wait, lastAttn := true, attn := .delivered, interval := s.msNow, count := s.intervalCount x.req.dn + 1, lastSample := f.payload
          ackFor := none }
      ∧ t.f Fld.gptAttnCnt_delivered (s.device x.req.dn).port
          = sat Fld.gptAttnCnt_delivered (s.f Fld.gptAttnCnt_delivered (s.device x.req.dn).port + 1)
      ∧ (t.daddr p.val f.daddr.toNat).st = .idle ∧ s.sameDaddrsBut t p.val f.daddr.toNat ∧ (∀ m, m ≠ x.req.dn → t.dn m = s.dn m)
      ∧ s.onlyFields t [(Fld.gptAttnCnt_delivered, (s.device x.req.dn).port)]
      ∧ t = { s.start with daddrs := t.daddrs, dns := t.dns, regs := t.regs } := by
  obtain ⟨b, c, hrun, hidle, hsame, hbeq, hone, hne, hdel, -, -⟩ := pollResp_notes hr hcrc hst ho hl hk hlen hm hmap hi
  have hceq : c = { s.start with daddrs := c.daddrs, dns := c.dns } := by
    have h := hone.eq
    rw [hbeq] at h
    rw [h]
  have hdev : c.device x.req.dn = s.device x.req.dn := device_congr (by rw [hceq]; rfl) _
  have hcount : c.intervalCount x.req.dn = s.intervalCount x.req.dn := by
    rw [intervalCount, intervalCount, hone.dn, hceq]
    rfl
  have hms : c.msNow = s.msNow := by rw [hceq]; rfl
  have hdeliver := deliver_delivers (s := c) (n := x.req.dn) f.payload (by rw [hdev, hceq]; exact hev) (by rw [hceq]; exact hw)
  rw [hdev, hms, hcount] at hdeliver
  obtain ⟨t, ht, htn, htne, htf, hto, hteq⟩ := attnStep_tells hone (fun d => { d with
      attn := .delivered, interval := s.msNow, count := s.intervalCount x.req.dn + 1, lastSample := f.payload, ackFor := none })
    (x := Fld.gptAttnCnt_delivered) (by decide) (s.device x.req.dn).port
  rw [hbit] at htn
  obtain ⟨h1, h2, h3, h4, h5, h6, h7⟩ := sample_frame hsame hidle hbeq hone hne htn htne htf hto hteq
  exact ⟨t, hrun t ((hdel hclr hbit hlt).trans (hdeliver.trans ht)) (by rw [h7]; rfl), h1, h2, h3, h4, h5, h6, h7⟩

theorem pollResp_mutes (hr : s.portRecv p.val = true) (hcrc : s.crcOk f = true) (hst : (s.daddr p.val f.daddr.toNat).st = .cmd)
    (ho : (s.daddr p.val f.daddr.toNat).opened = some x) (hl : (s.daddr p.val f.daddr.toNat).losses < 4) (hk : x.req.kind = .poll)
    (hlen : f.payload.length = 16) (hm : s.mode ≠ .doze) (hmap : (s.device x.req.dn).smapEn = false)
    (hi : (s.inst (s.device x.req.dn).owner).st ≠ .squash) (hev : s.evOn (s.device x.req.dn).owner 5 = false) {k : Nat}
    (hbit : bit 15 (fieldAt 0 2 f.payload) = true) (hclr : (s.dn x.req.dn).attn = .clear)
    (hlim : s.stormLimit x.req.dn = some k) (hge : k ≤ s.intervalCount x.req.dn) :
    ∃ t, exec (.pollResp p f) s = .next t ∧ t.dn x.req.dn = { s.dn x.req.dn with poll := .wait, lastAttn := true, attn := .muted }
      ∧ t.f Fld.gptAttnCnt_storms (s.device x.req.dn).port = sat Fld.gptAttnCnt_storms (s.f Fld.gptAttnCnt_storms (s.device x.req.dn).port + 1)
      ∧ s.onlyFields t [(Fld.gptAttnCnt_storms, (s.device x.req.dn).port)]
      ∧ t = { s.start with daddrs := t.daddrs, dns := t.dns, regs := t.regs } := by
  obtain ⟨b, c, hrun, hidle, hsame, hbeq, hone, hne, -, hstorm, -⟩ := pollResp_notes hr hcrc hst ho hl hk hlen hm hmap hi
  have hceq : c = { s.start with daddrs := c.daddrs, dns := c.dns } := by
    have h := hone.eq
    rw [hbeq] at h
    rw [h]
  have hdev : c.device x.req.dn = s.device x.req.dn := device_congr (by rw [hceq]; rfl) _
  have hmute := storm_mutes (s := c) (n := x.req.dn) (by rw [hdev, hceq]; exact hev)
  rw [hdev] at hmute
  obtain ⟨t, ht, htn, htne, htf, hto, hteq⟩ := attnStep_tells hone (fun d => { d with attn := .muted }) (x := Fld.gptAttnCnt_storms) (by decide)
    (s.device x.req.dn).port
  rw [hbit] at htn
  obtain ⟨h1, h2, -, -, -, h6, h7⟩ := sample_frame hsame hidle hbeq hone hne htn htne htf hto hteq
  exact ⟨t, hrun t ((hstorm k hclr hbit hlim hge).trans (hmute.trans ht)) (by rw [h7]; rfl), h1, h2, h6, h7⟩

theorem pollResp_clears (hr : s.portRecv p.val = true) (hcrc : s.crcOk f = true) (hst : (s.daddr p.val f.daddr.toNat).st = .cmd)
    (ho : (s.daddr p.val f.daddr.toNat).opened = some x) (hl : (s.daddr p.val f.daddr.toNat).losses < 4) (hk : x.req.kind = .poll)
    (hlen : f.payload.length = 16) (hm : s.mode ≠ .doze) (hmap : (s.device x.req.dn).smapEn = false)
    (hi : (s.inst (s.device x.req.dn).owner).st ≠ .squash)
    (hbit : bit 15 (fieldAt 0 2 f.payload) = false) (hdel : (s.dn x.req.dn).attn = .delivered) :
    ∃ t, exec (.pollResp p f) s = .next t ∧ t.dn x.req.dn = { s.dn x.req.dn with poll := .wait, lastAttn := false, attn := .clear }
      ∧ s.onlyFields t [(Fld.gptAttnCnt_attn_clr, (s.device x.req.dn).port)]
      ∧ t = { s.start with daddrs := t.daddrs, dns := t.dns, regs := t.regs } := by
  obtain ⟨b, c, hrun, hidle, hsame, hbeq, hone, hne, -, -, hclr⟩ := pollResp_notes hr hcrc hst ho hl hk hlen hm hmap hi
  obtain ⟨t, ht, htn, htne, htf, hto, hteq⟩ := attnStep_tells hone (fun d => { d with attn := .clear }) (x := Fld.gptAttnCnt_attn_clr) (by decide)
    (s.device x.req.dn).port
  rw [hbit] at htn
  obtain ⟨h1, -, -, -, -, h6, h7⟩ := sample_frame hsame hidle hbeq hone hne htn htne htf hto hteq
  exact ⟨t, hrun t ((hclr hdel hbit).trans ht) (by rw [h7]; rfl), h1, h6, h7⟩

end

/-! ### The interval and the time limit -/

theorem attnInterval_resets {s : State} (hm : s.mode ≠ .reset) :
    ∃ t, exec .attnInterval s = .next t ∧ (∀ x ∈ t.dns, x.2.count = 0 ∧ x.2.interval = 0 ∧ x.2.storm = none)
      ∧ (∀ x ∈ s.dns, x.2.attn ≠ .clear → (x.1, { x.2 with count := 0, interval := 0, storm := none }) ∈ t.dns) ∧ t = { s.start with dns := t.dns } := by
  refine ⟨_, congrArg Host.Outcome.next (if_neg hm), fun x hx => ?_, fun x hx ha => ?_, rfl⟩
  · obtain ⟨y, -, hy⟩ := List.mem_filterMap.mp hx
    dsimp only at hy
    split at hy
    · exact absurd hy (by simp)
    · rw [← Option.some.inj hy]
      exact ⟨rfl, rfl, rfl⟩
  · refine List.mem_filterMap.mpr ⟨x, hx, ?_⟩
    dsimp only
    exact if_neg fun h => ha (congrArg Dn.attn h)

theorem waitAttn_times {s : State} {je : Fin 4194304} {o : Op} {x : CcdX} (hw : s.works = true) (ho : s.op? je.val = some o) (hx : o.x = some x)
    (hwait : x.waiting = true) (hk : (s.entry je.val).kind = 4) (hp : (s.entry je.val).pst = false) (he : (s.entry je.val).err = 0)
    (hs : o.silent = false) :
    ∃ t, exec (.waitAttnTimeout je) s = .next t ∧ (t.entry je.val).err = 4 ∧ (t.entry je.val).st = .farDone
      ∧ (∃ u, (t.op? je.val).bind (·.x) = some u ∧ u.waiting = false ∧ u.detail = 5) ∧ s.sameOpsBut t je.val ∧ t.regs = s.regs := by
  obtain ⟨v, hv, hvo, hve, hvone⟩ : ∃ v, (s.start.modX je.val fun x => { x with waiting := false }) = v
      ∧ v.op? je.val = some { o with x := some { x with waiting := false } } ∧ v.entry je.val = s.entry je.val ∧ s.start.OneOp v je.val :=
    ⟨_, rfl, op?_modX_same (s := s.start) ho hx _, rfl, oneOp_modOp ..⟩
  obtain ⟨u, hu, hue, huo, huone⟩ := fail_records hvo (by rw [hve]; exact he) .to 5 0 []
  rw [hve, hk] at hue
  have hul : u.entry je.val ≠ {} := fun h => absurd (congrArg JEntry.kind (hue.symm.trans h)) (by dsimp only; rw [hk]; decide)
  obtain ⟨d, hd, hde, hdo, hdone⟩ : ∃ d, u.dequeueOp je.val o.port = d ∧ d.entry je.val = u.entry je.val ∧ d.op? je.val = u.op? je.val
      ∧ u.OneOp d je.val := ⟨_, rfl, rfl, rfl, oneOp_of_eq rfl⟩
  have hrun : exec (.waitAttnTimeout je) s = .next ((d.setSt je.val .farDone).modOp je.val fun o => { o with done := true, hold := {}, area := {} }) := by
    refine congrArg Host.Outcome.next ?_
    have hworks : ¬ (!s.start.works) = true := by
      rw [show s.start.works = true from hw]
      decide
    have hop : (s.start.op? je.val).bind (·.x) = some x := by
      rw [show s.start.op? je.val = some o from ho]
      exact hx
    have herr : ¬ (d.entry je.val).err = 0 := by
      rw [hde, hue]
      exact (by decide : ¬ failCode 4 .to = 0)
    rw [if_neg hworks, hop]
    dsimp only
    rw [if_pos hwait, hv, hu]
    unfold farEnd
    simp only [huo, failed]
    rw [hd, hs, if_neg Bool.false_ne_true, if_pos (by rw [hde, hue]; exact hk)]
    simp only [Option.map_some, if_neg herr]
    rw [if_neg (by rw [hde, hue]; simp [hp])]
  have hmod := (d.setSt je.val .farDone).op?_modOp_same je.val fun o => { o with done := true, hold := {}, area := {} }
  rw [show (d.setSt je.val .farDone).op? je.val = u.op? je.val from hdo, huo] at hmod
  have hall := hvone.trans (huone.trans (hdone.trans ((oneOp_setSt d je.val .farDone).trans (oneOp_modOp _ je.val fun o => { o with done := true, hold := {}, area := {} }))))
  have hent : ((d.setSt je.val .farDone).modOp je.val fun o => { o with done := true, hold := {}, area := {} }).entry je.val
      = { d.entry je.val with st := .farDone, since := d.ts } := entry_setSt_same (by rw [hde]; exact hul) .farDone
  generalize (d.setSt je.val .farDone).modOp je.val (fun o => { o with done := true, hold := {}, area := {} }) = t at hrun hmod hall hent
  refine ⟨t, hrun, ?_, ?_, ⟨{ x with waiting := false, detail := 5 }, ?_, rfl, rfl⟩, hall.others, ?_⟩
  · rw [hent, hde, hue]
    rfl
  · rw [hent]
  · rw [hmod]
    rfl
  · rw [hall.eq]
    rfl

/-! ### The attention registers -/

theorem targetAt_attn (id : RegId) (h : id = .gptAttnAck ∨ id = .gptAttnUnmute) {p : Nat} (hp : p < 144) : targetAt (regOff id p) = .reg id p := by
  have hall : ∀ id ∈ [RegId.gptAttnAck, .gptAttnUnmute], ∀ p < 144, targetAt (regOff id p) = .reg id p := by decide +kernel
  exact hall id (by simpa using h) p hp

theorem targetAt_instAttn (id : RegId) (h : id = .instAttnAck ∨ id = .instAttnUnmute) {i : Nat} (hi : i < 256) : targetAt (regOff id i) = .reg id i := by
  have hall : ∀ id ∈ [RegId.instAttnAck, .instAttnUnmute], ∀ i < 256, targetAt (regOff id i) = .reg id i := by decide +kernel
  exact hall id (by simpa using h) i hi

/-- What a register write leaves whose effect is an acknowledge. -/
theorem Writes.queues {s u t : State} {a : Acc} {id : RegId} {i : Nat} {v : Word} {p d : Nat} {x : XReq} (hw : s.Writes a id i v u t)
    (hq : s.start.Queues u p d x) : (t.port p).queue = insertReq d x (s.port p).queue ∧ s.samePortsBut t p ∧ s.wrote t a id i v
      ∧ t = { s.asideFrom t with ports := t.ports, jnl := { s.jnl with serial := s.jnl.serial + 1 } } := by
  have heq := hw.eq
  have hports : t.ports = u.ports := by rw [heq]
  refine ⟨(congrArg Port.queue (port_congr hports p)).trans hq.queue, fun k hk => (port_congr hports k).trans (hq.others k hk),
    hw.wrote (by rw [hq.eq]; rfl), ?_⟩
  have h1 := congrArg (fun z : State => { z with ports := t.ports, outp := t.outp, links := t.links, slowQ := t.slowQ }) hq.eq
  have h2 := congrArg (fun z : State => { z with ports := t.ports }) heq
  exact h2.trans h1

/-- What a register write leaves whose effect is on one DN. -/
theorem Writes.oneDn {s u t : State} {a : Acc} {id : RegId} {i : Nat} {v : Word} {n : Nat} {d : Dn} (hw : s.Writes a id i v u t)
    (hone : s.start.OneDn u n d) : t.dn n = d ∧ (∀ m, m ≠ n → t.dn m = s.dn m) ∧ t = { s.asideFrom t with dns := t.dns } := by
  have heq := hw.eq
  have hdns : t.dns = u.dns := by rw [heq]
  refine ⟨(dn_congr hdns n).trans hone.dn, fun m hm => (dn_congr hdns m).trans (hone.others m hm), ?_⟩
  have h1 := congrArg (fun z : State => { z with dns := t.dns, outp := t.outp, links := t.links, slowQ := t.slowQ }) hone.eq
  have h2 := congrArg (fun z : State => { z with dns := t.dns }) heq
  exact h2.trans h1

theorem ackWrite_queues {s : State} {p d n : Nat} (hat : s.dnAt p d = some n) (hs : s.sbiOf n = none) :
    s.Queues (s.ackWrite p d) p d { kind := .ack, dn := n, cls := (s.device n).cls, age := s.ts, serial := s.jnl.serial } := by
  have hrun : s.ackWrite p d = s.queueAck p d n := by
    unfold ackWrite
    rw [hat]
    dsimp only
    rw [hs]
    rfl
  rw [hrun]
  exact s.queues_enqueue p d _

theorem gptAttnAck_queues {s : State} {a : Acc} {p : Fin 144} {v : Word} {n : Nat} (hlead : s.isLead p.val = true)
    (hat : s.dnAt p.val (v.toNat % 2 ^ 11) = some n) (hg : s.goesWrite a .gptAttnAck p.val v = true) (hs : s.sbiOf n = none) :
    ∃ t, exec (.gptAttnAck a p v) s = .next t
      ∧ (t.port p.val).queue = insertReq (v.toNat % 2 ^ 11)
          { kind := .ack, dn := n, cls := (s.device n).cls, age := s.ts, serial := s.jnl.serial } (s.port p.val).queue
      ∧ s.samePortsBut t p.val ∧ s.ended t (wordWrite a (regOff .gptAttnAck p.val) v) (.done [])
      ∧ t = { s.asideFrom t with ports := t.ports, jnl := { s.jnl with serial := s.jnl.serial + 1 } } := by
  obtain ⟨t, hrow, hw⟩ := writeRow_writes hg (targetAt_attn .gptAttnAck (.inl rfl) p.isLt) rfl (by decide) rfl (lockBreaks_free rfl _)
  have hlead' : ¬ (!s.start.isLead p.val) = true := by
    rw [show s.start.isLead p.val = true from hlead]
    decide
  have heff : s.start.writeEffect a .gptAttnAck p.val v = s.start.ackWrite p.val (v.toNat % 2 ^ 11) := if_neg hlead'
  rw [heff] at hw
  exact ⟨t, hrow, hw.queues (ackWrite_queues (s := s.start) hat hs)⟩

theorem gptAttnUnmute_clears {s : State} {a : Acc} {p : Fin 144} {v : Word} {n : Nat} (hlead : s.isLead p.val = true)
    (hat : s.dnAt p.val (v.toNat % 2 ^ 11) = some n) (hg : s.goesWrite a .gptAttnUnmute p.val v = true) (hm : (s.dn n).attn = .muted) :
    ∃ t, exec (.gptAttnUnmute a p v) s = .next t ∧ t.dn n = { s.dn n with attn := .clear } ∧ (∀ m, m ≠ n → t.dn m = s.dn m)
      ∧ t = { s.asideFrom t with dns := t.dns } := by
  obtain ⟨t, hrow, hw⟩ := writeRow_writes hg (targetAt_attn .gptAttnUnmute (.inr rfl) p.isLt) rfl (by decide) rfl (lockBreaks_free rfl _)
  have hlead' : ¬ (!s.start.isLead p.val) = true := by
    rw [show s.start.isLead p.val = true from hlead]
    decide
  have heff : s.start.writeEffect a .gptAttnUnmute p.val v = s.start.unmute n := by
    refine (if_neg hlead').trans ?_
    have hat' : s.start.dnAt p.val (v.toNat % 2 ^ 11) = some n := hat
    show s.start.portUnmute p.val (v.toNat % 2 ^ 11) = _
    unfold portUnmute
    rw [hat']
  rw [heff] at hw
  exact ⟨t, hrow, hw.oneDn (unmute_clears (s := s.start) hm)⟩

/-- A mask of one bit unmutes the DN of one input. -/
theorem sbiUnmute_one {s : State} {k : Nat} (hk : k < 16) (hen : s.fb Fld.gptSbiMap_en k = true) :
    s.sbiUnmute (2 ^ k) = s.unmute (s.f Fld.gptSbiMap_dn k) := by
  obtain ⟨pre, post, hsplit, hpre, hpost⟩ := range_split hk
  have hbits : ∀ k < 16, ∀ j < 16, bit j (2 ^ k) = decide (j = k) := by decide
  have hskip (xs : List Nat) (hsub : ∀ j ∈ xs, j < 16) (hnot : k ∉ xs) (t : State) :
      xs.foldl (fun s j => if bit j (2 ^ k) ∧ s.fb Fld.gptSbiMap_en j then s.unmute (s.f Fld.gptSbiMap_dn j) else s) t = t := by
    induction xs generalizing t with
    | nil => rfl
    | cons j xs ih =>
      have hj : j ≠ k := fun h => hnot (h ▸ List.mem_cons_self)
      rw [List.foldl_cons, hbits k hk j (hsub j List.mem_cons_self), if_neg (by simp [hj])]
      exact ih (fun i hi => hsub i (List.mem_cons_of_mem _ hi)) (fun h => hnot (List.mem_cons_of_mem _ h)) t
  have hlt (j : Nat) (hj : j ∈ pre ++ k :: post) : j < 16 := List.mem_range.mp (hsplit ▸ hj)
  unfold sbiUnmute
  rw [hsplit, List.foldl_append, List.foldl_cons, hskip pre (fun j hj => hlt j (List.mem_append_left _ hj)) hpre,
    if_pos ⟨by rw [hbits k hk k hk]; exact decide_eq_true rfl, hen⟩,
    hskip post (fun j hj => hlt j (List.mem_append_right _ (List.mem_cons_of_mem _ hj))) hpost]

theorem gptSbiUnmute_clears {s : State} {a : Acc} {v : Word} {k : Fin 16} (hg : s.goesWrite a .gptSbiUnmute 0 v = true)
    (hv : v.toNat % 2 ^ 16 = 2 ^ k.val) (hen : s.fb Fld.gptSbiMap_en k.val = true) (hm : (s.dn (s.f Fld.gptSbiMap_dn k.val)).attn = .muted) :
    ∃ t, exec (.gptSbiUnmute a v) s = .next t ∧ t.dn (s.f Fld.gptSbiMap_dn k.val) = { s.dn (s.f Fld.gptSbiMap_dn k.val) with attn := .clear }
      ∧ (∀ m, m ≠ s.f Fld.gptSbiMap_dn k.val → t.dn m = s.dn m) ∧ t = { s.asideFrom t with dns := t.dns } := by
  obtain ⟨t, hrow, hw⟩ := writeRow_writes hg (by decide) rfl (by decide) rfl (lockBreaks_free rfl _)
  have heff : s.start.writeEffect a .gptSbiUnmute 0 v = s.start.unmute (s.f Fld.gptSbiMap_dn k.val) := by
    show s.start.sbiUnmute (v.toNat % 2 ^ 16) = _
    rw [hv]
    exact sbiUnmute_one (s := s.start) k.isLt hen
  rw [heff] at hw
  exact ⟨t, hrow, hw.oneDn (unmute_clears (s := s.start) hm)⟩

section
variable {s : State} {a : Acc} {i : Fin 256} {v : Word}

theorem instAttn_row (id : RegId) (h : id = .instAttnAck ∨ id = .instAttnUnmute) (hfree : (s.inst i.val).st ≠ .free)
    (hg : s.goesWrite a id i.val v = true) : ∃ t, writeRow a id i.val v s = .next t ∧ s.Writes a id i.val v (s.start.writeEffect a id i.val v) t := by
  have hpage : pageInst id i.val = i.val := by rcases h with rfl | rfl <;> exact Nat.div_one _
  have hblock : id.row.block = .bi := by rcases h with rfl | rfl <;> rfl
  have hplain : id.row.keyed = false ∧ id ≠ .updStrobe := by rcases h with rfl | rfl <;> decide
  have hlock : s.lockMask id i.val = 0 := by rcases h with rfl | rfl <;> rfl
  exact writeRow_writes hg (targetAt_instAttn id h i.isLt) hplain.1 hplain.2 (reaches_bi hblock (by rw [hpage]; exact hfree)) (lockBreaks_free hlock _)

theorem instAttnAck_queues (hfree : (s.inst i.val).st ≠ .free) (hsq : (s.inst i.val).st ≠ .squash)
    (hg : s.goesWrite a .instAttnAck i.val v = true) (hmay : s.instMay i.val (v.toNat % 2 ^ 18) = true)
    (hat : s.dnAt (s.device (v.toNat % 2 ^ 18)).port (s.device (v.toNat % 2 ^ 18)).daddr = some (v.toNat % 2 ^ 18))
    (hs : s.sbiOf (v.toNat % 2 ^ 18) = none) :
    ∃ t, exec (.instAttnAck a i v) s = .next t
      ∧ (t.port (s.device (v.toNat % 2 ^ 18)).port).queue = insertReq (s.device (v.toNat % 2 ^ 18)).daddr
          { kind := .ack, dn := v.toNat % 2 ^ 18, cls := (s.device (v.toNat % 2 ^ 18)).cls, age := s.ts, serial := s.jnl.serial }
          (s.port (s.device (v.toNat % 2 ^ 18)).port).queue
      ∧ t = { s.asideFrom t with ports := t.ports, jnl := { s.jnl with serial := s.jnl.serial + 1 } } := by
  obtain ⟨t, hrow, hw⟩ := instAttn_row .instAttnAck (.inl rfl) hfree hg
  have heff : s.start.writeEffect a .instAttnAck i.val v
      = s.start.ackWrite (s.device (v.toNat % 2 ^ 18)).port (s.device (v.toNat % 2 ^ 18)).daddr := by
    have hmay' : ¬ (!s.start.instMay i.val (v.toNat % 2 ^ 18)) = true := by
      rw [show s.start.instMay i.val (v.toNat % 2 ^ 18) = true from hmay]
      decide
    exact (if_neg hsq).trans ((if_neg hmay').trans (if_neg Bool.false_ne_true))
  rw [heff] at hw
  obtain ⟨hq, -, -, heq⟩ := hw.queues (ackWrite_queues (s := s.start) hat hs)
  exact ⟨t, hrow, hq, heq⟩

theorem instAttnAck_counts (hfree : (s.inst i.val).st ≠ .free) (hsq : (s.inst i.val).st ≠ .squash)
    (hg : s.goesWrite a .instAttnAck i.val v = true) (hmay : s.instMay i.val (v.toNat % 2 ^ 18) = false) :
    ∃ t, exec (.instAttnAck a i v) s = .next t ∧ t.f Fld.instCnt_bad_dn i.val = sat Fld.instCnt_bad_dn (s.f Fld.instCnt_bad_dn i.val + 1)
      ∧ s.onlyFields t [(Fld.instCnt_bad_dn, i.val)] ∧ t = { s.asideFrom t with regs := t.regs } := by
  obtain ⟨t, hrow, hw⟩ := instAttn_row .instAttnAck (.inl rfl) hfree hg
  have heff : s.start.writeEffect a .instAttnAck i.val v = s.start.incF Fld.instCnt_bad_dn i.val := by
    have hmay' : (!s.start.instMay i.val (v.toNat % 2 ^ 18)) = true := by
      rw [show s.start.instMay i.val (v.toNat % 2 ^ 18) = false from hmay]
      rfl
    exact (if_neg hsq).trans (if_pos hmay')
  rw [heff] at hw
  refine ⟨t, hrow, ?_, ?_, hw.eq_regs (offRegs_incF ..)⟩
  · rw [f_congr hw.regs]
    exact f_incF_sat s.start (by decide) 1 _
  · exact ((onlyFields.refl s _).incF (List.mem_singleton_self _) (by decide) (wordsApart_singleton _ _) 1).congr hw.regs

theorem instAttnUnmute_clears (hfree : (s.inst i.val).st ≠ .free) (hsq : (s.inst i.val).st ≠ .squash)
    (hg : s.goesWrite a .instAttnUnmute i.val v = true) (hmay : s.instMay i.val (v.toNat % 2 ^ 18) = true)
    (hm : (s.dn (v.toNat % 2 ^ 18)).attn = .muted) :
    ∃ t, exec (.instAttnUnmute a i v) s = .next t ∧ t.dn (v.toNat % 2 ^ 18) = { s.dn (v.toNat % 2 ^ 18) with attn := .clear }
      ∧ (∀ m, m ≠ v.toNat % 2 ^ 18 → t.dn m = s.dn m) ∧ t = { s.asideFrom t with dns := t.dns } := by
  obtain ⟨t, hrow, hw⟩ := instAttn_row .instAttnUnmute (.inr rfl) hfree hg
  have heff : s.start.writeEffect a .instAttnUnmute i.val v = s.start.unmute (v.toNat % 2 ^ 18) := by
    have hmay' : ¬ (!s.start.instMay i.val (v.toNat % 2 ^ 18)) = true := by
      rw [show s.start.instMay i.val (v.toNat % 2 ^ 18) = true from hmay]
      decide
    exact (if_neg hsq).trans ((if_neg hmay').trans (if_pos rfl))
  rw [heff] at hw
  exact ⟨t, hrow, hw.oneDn (unmute_clears (s := s.start) hm)⟩

end

end State

open State in
/-- Settles O37: each poll by the exchange that it queues or closes, each sample by what its DN takes, and each register by the DN or queue that it names. -/
theorem pollsAndAttention : Obligations.PollsAndAttention := by
  refine ⟨⟨fun s n hv hp hr => ⟨pollPeriod_dues hv hp hr, pollPeriod_skips hv hp hr⟩,
      fun s p f x hr hcrc hst ho hl hk hlen hm hmap hi h2 h5 hw => ⟨?_, fun k => ?_, ?_⟩, fun s => attnInterval_resets,
      fun s je o x => waitAttn_times⟩,
    fun s a p v n hlead hat => ⟨gptAttnAck_queues hlead hat, gptAttnUnmute_clears hlead hat⟩, fun s a v k => gptSbiUnmute_clears,
    fun s a i v hfree hsq => ⟨instAttnAck_queues hfree hsq, instAttnAck_counts hfree hsq, instAttnUnmute_clears hfree hsq⟩⟩
  · exact pollResp_delivers hr hcrc hst ho hl hk hlen hm hmap hi h2 hw
  · exact pollResp_mutes hr hcrc hst ho hl hk hlen hm hmap hi h5
  · exact pollResp_clears hr hcrc hst ho hl hk hlen hm hmap hi

end Sys2Proof.Machine
end

section
/-! PROOFS. What any access to host memory leaves, whether the gate of its link allows it or not (R247, R249). -/

namespace Sys2Proof.Machine

namespace State

/-! ### A fault below the fatal class sends, and takes nothing back -/

theorem outp_faultEvent (s : State) (src dest : Nat) {send : State → State} (h : ∀ t : State, t.outp ⊆ (send t).outp) :
    s.outp ⊆ (s.faultEvent src dest send).outp := by
  unfold faultEvent
  split_ifs
  · exact List.Subset.refl _
  · rw [incF_outp]
    exact List.Subset.refl _
  · exact h (s.modFlt _)

theorem outp_handTx_sub (s : State) (l : Nat) (p : Packet) (frees : List Nat) : s.outp ⊆ (s.handTx l p frees).outp :=
  fun o ho => outp_handTx s l p frees (List.mem_cons_of_mem _ ho)

theorem outp_faultDestEvent (s : State) (src syn : Nat) : s.outp ⊆ (s.faultDestEvent src syn).outp := by
  unfold faultDestEvent
  split
  · refine outp_faultEvent s src 256 fun t => ?_
    unfold sendMsg
    split
    · exact List.Subset.refl _
    · exact outp_handTx_sub ..
  · exact List.Subset.refl _

theorem outp_faultInstEvent (s : State) (src syn inst : Nat) : s.outp ⊆ (s.faultInstEvent src syn inst).outp := by
  unfold faultInstEvent
  split
  · refine outp_faultEvent s src inst fun t => ?_
    unfold sendEvent sendEventVc
    split
    · exact List.Subset.refl _
    · exact outp_handTx_sub ..
  · exact List.Subset.refl _

theorem outp_classAct (s : State) {src : Nat} (hc : srcClass src ≠ 3) (syn : Nat) (inst : Option Nat) : s.outp ⊆ (s.classAct src syn inst).outp := by
  unfold classAct
  split
  · dsimp only
    split
    · exact List.Subset.trans (by rw [incF_outp]; exact List.Subset.refl _) (outp_faultDestEvent ..)
    · rw [incF_outp]
      exact List.Subset.refl _
  · dsimp only
    have hdest : s.outp ⊆ ((s.incF Fld.fltCntUc_count).faultDestEvent src syn).outp :=
      List.Subset.trans (by rw [incF_outp]; exact List.Subset.refl _) (outp_faultDestEvent ..)
    split
    · exact List.Subset.trans hdest (outp_faultInstEvent ..)
    · exact hdest
  · contradiction
  · exact List.Subset.refl _

theorem outp_raise (s : State) {src : Nat} (hc : srcClass src ≠ 3) (hn : s.flt.haltNow = false) (unit : Nat) (inst je : Option Nat) (detail : Nat) :
    s.outp ⊆ (s.raise src unit inst je detail).outp := by
  by_cases hm : s.mode = .reset
  · rw [raise, if_pos hm]
    exact List.Subset.refl _
  · have hact := ((((s.noteFault src).capture src (syndrome unit inst je detail)).offFault_classAct hc
      (syndrome unit inst je detail) inst).trans (offFault_capture _ _ _)).trans (s.offFault_noteFault src)
    have hnow : ¬ (((s.noteFault src).capture src (syndrome unit inst je detail)).classAct src (syndrome unit inst je detail) inst).flt.haltNow
        = true := by
      rw [(flt_of_offFault hact).2, hn]
      exact Bool.false_ne_true
    have hnote : (s.noteFault src).outp = s.outp := by simp [noteFault]
    rw [raise_eq s src unit inst je detail hm, if_neg hnow]
    refine List.Subset.trans ?_ (outp_classAct _ hc _ _)
    rw [(capture_quiet (s.noteFault src) src (syndrome unit inst je detail)).2, hnote]
    exact List.Subset.refl _

/-! ### Accesses to host memory -/

/-- What accesses to host memory may change: what is sent, the Hub's transfers and tokens, and the records of gates and faults. -/
structure Hosted (s t : State) : Prop where
  outp : s.outp ⊆ t.outp
  only : s.onlyBlocks t [.flt, .gate, .hub]
  eq : t = { s with
    regs := t.regs, links := t.links, outp := t.outp, gates := t.gates, hub := t.hub, insts := t.insts
    flt := { s.flt with srcCnt := t.flt.srcCnt, firstNow := t.flt.firstNow, last := t.flt.last } }

theorem Hosted.refl (s : State) : s.Hosted s := ⟨List.Subset.refl _, onlyBlocks_of_regs rfl _, rfl⟩

theorem Hosted.trans {s t u : State} (h : s.Hosted t) (h' : t.Hosted u) : s.Hosted u := by
  refine ⟨List.Subset.trans h.outp h'.outp, h.only.trans h'.only, ?_⟩
  have hlast := congrArg (fun z : State => { z with
    regs := u.regs, links := u.links, outp := u.outp, gates := u.gates, hub := u.hub, insts := u.insts
    flt := { z.flt with srcCnt := u.flt.srcCnt, firstNow := u.flt.firstNow, last := u.flt.last } }) h.eq
  exact h'.eq.trans hlast

theorem Hosted.haltNow {s t : State} (h : s.Hosted t) : t.flt.haltNow = s.flt.haltNow := by rw [h.eq]

theorem hosted_raise {s : State} {src : Nat} (hc : srcClass src ≠ 3) (hn : s.flt.haltNow = false) (unit : Nat) (inst je : Option Nat) (detail : Nat) :
    s.Hosted (s.raise src unit inst je detail) := by
  have heq := eq_of_offFault (s.offFault_raise hc hn unit inst je detail)
  refine ⟨s.outp_raise hc hn unit inst je detail, (s.onlyBlocks_raise hc unit inst je detail).mono (by decide), ?_⟩
  generalize s.raise src unit inst je detail = t at heq
  have hlast := congrArg (fun z : State => { z with gates := t.gates, hub := t.hub, insts := t.insts }) heq
  exact hlast

theorem hosted_incF (s : State) {x : Fld} {i : Nat} {b : Block} (hb : blockAt (regOff x.id i) = some b) (hmem : b ∈ [Block.flt, .gate, .hub]) (n : Nat) :
    s.Hosted (s.incF x i n) := by
  obtain ⟨t, ht, hoff, honly⟩ : ∃ t, s.incF x i n = t ∧ t.offRegs = s.offRegs ∧ s.onlyBlocks t [.flt, .gate, .hub] :=
    ⟨_, rfl, offRegs_incF .., onlyBlocks_incF s hb hmem n⟩
  rw [ht]
  have heq : t = { s with regs := t.regs } := congrArg (fun z : State => { z with regs := t.regs }) hoff
  have hout : t.outp = s.outp := by rw [heq]
  refine ⟨by rw [hout]; exact List.Subset.refl _, honly, ?_⟩
  have hlast := congrArg (fun z : State => { z with links := t.links, outp := t.outp, gates := t.gates, hub := t.hub, insts := t.insts, flt := t.flt }) heq
  have hflt : t.flt = { s.flt with srcCnt := t.flt.srcCnt, firstNow := t.flt.firstNow, last := t.flt.last } := by rw [heq]
  rw [← hflt]
  exact hlast

theorem hosted_modGate (s : State) (g : Nat) (h : GateRec → GateRec) : s.Hosted (s.modGate g h) :=
  ⟨List.Subset.refl _, onlyBlocks_of_regs rfl _, rfl⟩

theorem hosted_gateReport {s : State} (hn : s.flt.haltNow = false) (g id addr : Nat) (res : GRes) (inst je : Option Nat) :
    s.Hosted (s.gateReport g id addr res inst je) := by
  unfold gateReport
  have hcap := s.hosted_modGate g fun r => r.capture res id addr
  refine hcap.trans ?_
  have hn' : (s.modGate g fun r => r.capture res id addr).flt.haltNow = false := hn
  generalize (s.modGate g fun r => r.capture res id addr) = u at hn'
  cases res with
  | allow => exact .refl u
  | deny => exact hosted_incF u (b := .gate) (by decide) (by decide) 1
  | refuse =>
    refine (u.hosted_modGate g fun r => { r with refused := min (r.refused + 1) 65535 }).trans ?_
    have hn' : (u.modGate g fun r => { r with refused := min (r.refused + 1) 65535 }).flt.haltNow = false := hn'
    exact hosted_raise (src := 0x122) (by decide) hn' g inst je 0
  | noMatch =>
    refine (u.hosted_modGate g fun r => { r with nom := min (r.nom + 1) 65535 }).trans ?_
    have hn' : (u.modGate g fun r => { r with nom := min (r.nom + 1) 65535 }).flt.haltNow = false := hn'
    have hc : srcClass (if bit 20 id then 0x120 else 0x121) ≠ 3 := by split <;> decide
    exact hosted_raise hc hn' g inst je 0

theorem hosted_gateCheck {s : State} (hn : s.flt.haltNow = false) (g id a z : Nat) (rd wr : Bool) (inst je : Option Nat) :
    s.Hosted (s.gateCheck g id a z rd wr inst je).2 := by
  unfold gateCheck
  cases s.judge g id a z rd wr with
  | ok => exact .refl s
  | bad res addr => exact hosted_gateReport hn g id addr res inst je
  | denied addr => exact hosted_gateReport hn g id addr .deny inst je

theorem hosted_formXfer (s : State) (inp out cls inst sub bytes : Nat) (own : XOwn) (act : HeldAct) :
    s.Hosted (s.formXfer inp out cls inst sub bytes own act).2 := by
  have hxfer (u : State) (c : Nat) : u.Hosted (u.addXfer inp out c sub bytes own) := ⟨List.Subset.refl _, onlyBlocks_of_regs rfl _, rfl⟩
  unfold formXfer
  dsimp only
  split
  · exact hxfer s _
  split
  · have htake : s.Hosted ((s.c0Take inst out (c0Cost bytes)).c0Passed inst) := ⟨List.Subset.refl _, onlyBlocks_of_regs rfl _, rfl⟩
    exact htake.trans (hxfer _ _)
  · have hinst : s.Hosted (s.modInst inst fun n => { n with c0held := min 65535 (n.c0held + 1) }) :=
      ⟨List.Subset.refl _, onlyBlocks_of_regs rfl _, rfl⟩
    have hheld (u : State) (g : Hub → Hub) : u.Hosted (u.modHub g) := ⟨List.Subset.refl _, onlyBlocks_of_regs rfl _, rfl⟩
    have hcount : s.Hosted (s.c0Held inst) := hinst.trans (hosted_incF _ (x := Fld.hubC0Cnt_held) (i := 0) (b := .hub) (by decide) (by decide) 1)
    exact hcount.trans (hheld (s.c0Held inst) fun h =>
      { h with held := h.held ++ [{ inst := inst, inp := inp, port := out, sub := sub, bytes := bytes, own := own, act := act }] })

theorem hosted_handPkt (s : State) (l : Nat) (p : TxPkt) : s.Hosted (s.handPkt l p) := by
  obtain ⟨t, ht, hoff, hout⟩ : ∃ t, s.handPkt l p = t ∧ t.offLinks = s.offLinks ∧ s.outp ⊆ t.outp :=
    ⟨_, rfl, offLinks_handPkt .., fun o ho => outp_handPkt s l p (List.mem_cons_of_mem _ ho)⟩
  rw [ht]
  have heq : t = { s with links := t.links, outp := t.outp } := congrArg (fun z : State => { z with links := t.links, outp := t.outp }) hoff
  have hregs : t.regs = s.regs := by rw [heq]
  refine ⟨hout, onlyBlocks_of_regs hregs _, ?_⟩
  have hlast := congrArg (fun z : State => { z with regs := t.regs, gates := t.gates, hub := t.hub, insts := t.insts, flt := t.flt }) heq
  have hflt : t.flt = { s.flt with srcCnt := t.flt.srcCnt, firstNow := t.flt.firstNow, last := t.flt.last } := by rw [heq]
  rw [← hflt]
  exact hlast

theorem hosted_instWrite {s : State} (hn : s.flt.haltNow = false) (x : XSrc) (vc addr : Nat) (bs : List Byte) (frees : List Nat) :
    s.Hosted (s.instWrite x vc addr bs frees).2 := by
  have hmwr : s.Hosted (s.instMwr x.inst vc addr bs).2.2 := hosted_gateCheck hn ..
  unfold instWrite
  dsimp only
  split
  · refine hmwr.trans ?_
    unfold sendFrom
    dsimp only
    have hform (u : State) := u.hosted_formXfer x.inp (hubLink (u.route (s.instLink x.inst)) x.inp) x.cls x.inst x.sub
      (packetPayload (s.instMwr x.inst vc addr bs).2.1) x.own (.send (s.instLink x.inst) { pkt := (s.instMwr x.inst vc addr bs).2.1, frees := frees, cls := x.cls, age := x.age, serial := x.serial, own := x.own })
    split
    · exact (hform _).trans (hosted_handPkt ..)
    · exact hform _
  · exact hmwr

end State

end Sys2Proof.Machine
end

section
/-! PROOFS. Guard, reservation, response and lock timers (R88, R90, R93, R97, R102, R147). -/

namespace Sys2Proof.Machine

namespace State

/-! ### One device address -/

/-- Of a state one device address alone has changed. -/
structure OneDaddr (s t : State) (p d : Nat) (a : Daddr) : Prop where
  daddr : t.daddr p d = a
  others : s.sameDaddrsBut t p d
  eq : t = { s with daddrs := t.daddrs }

theorem oneDaddr_modDaddr (s : State) (p d : Nat) (g : Daddr → Daddr) : s.OneDaddr (s.modDaddr p d g) p d (g (s.daddr p d)) :=
  ⟨s.daddr_modDaddr_same p d g, s.sameDaddrsBut_modDaddr p d g, rfl⟩

theorem guardEnd_closes {s : State} {p : Fin 144} {d : Fin 2048} (hw : s.works = true) (hst : (s.daddr p.val d.val).st = .guard)
    (hs : (s.port p.val).sleepPend = false) :
    ∃ t, exec (.guardEnd p d) s = .next t
      ∧ t.daddr p.val d.val = { s.daddr p.val d.val with
          st := if 4 ≤ (s.daddr p.val d.val).losses then .reserved else .idle, opened := none, up := none, swallow := none }
      ∧ s.sameDaddrsBut t p.val d.val ∧ t = { s.start with daddrs := t.daddrs } := by
  have hone := s.start.oneDaddr_modDaddr p.val d.val
    fun a => { a with st := if 4 ≤ a.losses then .reserved else .idle, opened := none, up := none, swallow := none }
  have hrun : exec (.guardEnd p d) s = .next (s.start.closeDaddr p.val d.val) := by
    refine (congrArg Host.Outcome.next (if_pos ⟨hw, hst⟩)).trans (congrArg Host.Outcome.next ?_)
    have hpend : ((s.start.closeDaddr p.val d.val).port p.val).sleepPend = false := hs
    unfold settleSleep
    dsimp only
    rw [hpend]
    rfl
  exact ⟨_, hrun, hone.daddr, hone.others, hone.eq⟩

theorem rsvTime_expires {s : State} {p : Fin 144} {d : Fin 2048} (hw : s.works = true) (hst : (s.daddr p.val d.val).st = .reserved) :
    ∃ t, exec (.rsvTimeExpire p d) s = .next t ∧ t.daddr p.val d.val = { s.daddr p.val d.val with st := .idle, losses := 0, lossSerial := 0 }
      ∧ t.f Fld.gptCollCnt_rsv_expired p.val = sat Fld.gptCollCnt_rsv_expired (s.f Fld.gptCollCnt_rsv_expired p.val + 1)
      ∧ s.sameDaddrsBut t p.val d.val ∧ s.onlyFields t [(Fld.gptCollCnt_rsv_expired, p.val)]
      ∧ t = { s.start with daddrs := t.daddrs, regs := t.regs } := by
  obtain ⟨u, hu, hone⟩ : ∃ u, (s.start.modDaddr p.val d.val fun a => { a with st := .idle, losses := 0, lossSerial := 0 }) = u
      ∧ s.start.OneDaddr u p.val d.val { s.daddr p.val d.val with st := .idle, losses := 0, lossSerial := 0 } :=
    ⟨_, rfl, s.start.oneDaddr_modDaddr p.val d.val fun a => { a with st := .idle, losses := 0, lossSerial := 0 }⟩
  have hrun : exec (.rsvTimeExpire p d) s = .next (u.incF Fld.gptCollCnt_rsv_expired p.val) :=
    (congrArg Host.Outcome.next (if_pos ⟨hw, hst⟩)).trans (by rw [hu])
  have hregs : u.regs = s.regs := by rw [hone.eq]; rfl
  obtain ⟨t, ht, hoff, hf, honly⟩ : ∃ t, u.incF Fld.gptCollCnt_rsv_expired p.val = t ∧ t.offRegs = u.offRegs
      ∧ t.f Fld.gptCollCnt_rsv_expired p.val = sat Fld.gptCollCnt_rsv_expired (u.f Fld.gptCollCnt_rsv_expired p.val + 1)
      ∧ u.onlyFields t [(Fld.gptCollCnt_rsv_expired, p.val)] :=
    ⟨_, rfl, offRegs_incF .., f_incF_sat u (by decide) 1 _, (onlyFields.refl u _).incF (List.mem_singleton_self _) (by decide) (wordsApart_singleton _ _) 1⟩
  rw [ht] at hrun
  have hdad : t.daddrs = u.daddrs := (congrArg State.daddrs hoff :)
  refine ⟨t, hrun, (daddr_congr hdad ..).trans hone.daddr, by rw [hf, f_congr hregs], fun k hk => ?_, (onlyFields_of_regs hregs _).trans honly, ?_⟩
  · rw [hdad]
    exact hone.others k hk
  · have h1 : t = { u with daddrs := t.daddrs, regs := t.regs } := by
      rw [hdad]
      exact congrArg (fun z : State => { z with regs := t.regs }) hoff
    have h2 := congrArg (fun z : State => { z with daddrs := t.daddrs, regs := t.regs }) hone.eq
    exact h1.trans h2

theorem lossCount_expires {s : State} {p : Fin 144} {d : Fin 2048} (hw : s.works = true) (hst : (s.daddr p.val d.val).st ≠ .reserved)
    (hl : (s.daddr p.val d.val).losses < 4) :
    ∃ t, exec (.lossCountExpire p d) s = .next t ∧ t.daddr p.val d.val = { s.daddr p.val d.val with losses := 0, lossSerial := 0 }
      ∧ s.sameDaddrsBut t p.val d.val ∧ t = { s.start with daddrs := t.daddrs } := by
  have hone := s.start.oneDaddr_modDaddr p.val d.val fun a => { a with losses := 0, lossSerial := 0 }
  exact ⟨_, congrArg Host.Outcome.next (if_pos ⟨hw, hst, hl⟩), hone.daddr, hone.others, hone.eq⟩

theorem lossCount_stays {s : State} {p : Fin 144} {d : Fin 2048}
    (h : (s.daddr p.val d.val).st = .reserved ∨ 4 ≤ (s.daddr p.val d.val).losses) : exec (.lossCountExpire p d) s = .next s.start := by
  refine congrArg Host.Outcome.next (if_neg fun hgo => ?_)
  obtain ⟨-, hst, hl⟩ := hgo
  rcases h with h | h
  · exact hst h
  · exact absurd hl (Nat.not_lt.mpr h)

/-! ### The response timer -/

/-- An exchange that is aborted: its STATUS waits at egress, and its device address holds none. -/
theorem aborts {s : State} (p d reason : Nat) :
    ∃ u : State, (s.queueStatus p { daddr := d, frame := statusFrame d (bridgeStatus false true reason 0 s.ts), guard := true }).modDaddr p d
        (fun a => { a with opened := none }) = u
      ∧ u.daddr p d = { s.daddr p d with opened := none } ∧ s.sameDaddrsBut u p d
      ∧ u.port p = { s.port p with statusQ := (s.port p).statusQ
          ++ [{ daddr := d, frame := statusFrame d (bridgeStatus false true reason 0 s.ts), guard := true }] }
      ∧ s.samePortsBut u p ∧ u = { s with daddrs := u.daddrs, ports := u.ports } := by
  have hport := s.port_modPort_same p fun q => { q with statusQ := q.statusQ
    ++ [{ daddr := d, frame := statusFrame d (bridgeStatus false true reason 0 s.ts), guard := true }] }
  have hports (q : Nat) (hq : q ≠ p) := s.port_modPort_ne hq fun q => { q with statusQ := q.statusQ
    ++ [{ daddr := d, frame := statusFrame d (bridgeStatus false true reason 0 s.ts), guard := true }] }
  exact ⟨_, rfl, daddr_modDaddr_same _ p d _, sameDaddrsBut_modDaddr _ p d _, hport, hports, rfl⟩

theorem responseTimeout_aborts {s : State} {p : Fin 144} {d : Fin 2048} {x : XOpen} (hr : s.portRecv p.val = true)
    (hst : (s.daddr p.val d.val).st = .cmd) (hl : (s.daddr p.val d.val).lock = .none) (ho : (s.daddr p.val d.val).opened = some x) :
    exec (.responseTimeout p d) s = .next (s.start.abortCmd p.val d.val 1) := by
  have hgo : ¬ ((!s.start.portRecv p.val) = true ∨ (s.start.daddr p.val d.val).lock = .held) := by
    rw [show s.start.portRecv p.val = true from hr, show (s.start.daddr p.val d.val).lock = .none from hl]
    decide
  have hlock : ¬ ((s.start.daddr p.val d.val).st = .cmd ∧ (s.start.daddr p.val d.val).lock ≠ .none) := fun h => h.2 hl
  refine congrArg Host.Outcome.next ((if_neg hgo).trans ((if_neg hlock).trans ?_))
  have hcmd : (s.start.daddr p.val d.val).st = .cmd := hst
  unfold badFrame
  dsimp only
  rw [hcmd]
  exact if_pos hl

theorem responseTimeout_poll {s : State} {p : Fin 144} {d : Fin 2048} {x : XOpen} (hr : s.portRecv p.val = true)
    (hst : (s.daddr p.val d.val).st = .cmd) (hl : (s.daddr p.val d.val).lock = .none) (ho : (s.daddr p.val d.val).opened = some x)
    (hk : x.req.kind = .poll) :
    ∃ t, exec (.responseTimeout p d) s = .next t ∧ t.daddr p.val d.val = { s.daddr p.val d.val with opened := none }
      ∧ (t.port p.val).statusQ = (s.port p.val).statusQ
          ++ [{ daddr := d.val, frame := statusFrame d.val (bridgeStatus false true 1 0 s.ts), guard := true }]
      ∧ t.dn x.req.dn = { s.dn x.req.dn with poll := .wait }
      ∧ t.f Fld.gptErrCnt_poll_to p.val = sat Fld.gptErrCnt_poll_to (s.f Fld.gptErrCnt_poll_to p.val + 1)
      ∧ s.sameDaddrsBut t p.val d.val ∧ s.samePortsBut t p.val ∧ s.onlyFields t [(Fld.gptErrCnt_poll_to, p.val)]
      ∧ t = { s.start with daddrs := t.daddrs, ports := t.ports, dns := t.dns, regs := t.regs } := by
  obtain ⟨u, hu, hud, hune, hup, hupne, hueq⟩ := aborts (s := s.start) p.val d.val 1
  have hregs : u.regs = s.regs := by rw [hueq]; rfl
  obtain ⟨v, hv, hoff, hf, honly⟩ : ∃ v, u.incF Fld.gptErrCnt_poll_to p.val = v ∧ v.offRegs = u.offRegs
      ∧ v.f Fld.gptErrCnt_poll_to p.val = sat Fld.gptErrCnt_poll_to (u.f Fld.gptErrCnt_poll_to p.val + 1)
      ∧ u.onlyFields v [(Fld.gptErrCnt_poll_to, p.val)] :=
    ⟨_, rfl, offRegs_incF .., f_incF_sat u (by decide) 1 _, (onlyFields.refl u _).incF (List.mem_singleton_self _) (by decide) (wordsApart_singleton _ _) 1⟩
  have hone := v.oneDn_modDn x.req.dn fun n => { n with poll := .wait }
  have hrun : exec (.responseTimeout p d) s = .next (v.modDn x.req.dn fun n => { n with poll := .wait }) := by
    rw [responseTimeout_aborts hr hst hl ho, abortCmd, show (s.start.daddr p.val d.val).opened = some x from ho]
    dsimp only
    rw [hk, hu, if_neg (fun h => h.2 rfl), hv]
  generalize (v.modDn x.req.dn fun n => { n with poll := .wait }) = t at hrun hone
  have hveq : v = { u with regs := v.regs } := congrArg (fun z : State => { z with regs := v.regs }) hoff
  have htv : t.daddrs = v.daddrs ∧ t.ports = v.ports ∧ t.regs = v.regs := by rw [hone.eq]; exact ⟨rfl, rfl, rfl⟩
  have hvu : v.daddrs = u.daddrs ∧ v.ports = u.ports ∧ v.dns = u.dns := by rw [hveq]; exact ⟨rfl, rfl, rfl⟩
  have hdad := htv.1.trans hvu.1
  have hports := htv.2.1.trans hvu.2.1
  have hdns : v.dn x.req.dn = s.dn x.req.dn := by
    rw [dn_congr hvu.2.2, hueq]
    rfl
  refine ⟨t, hrun, (daddr_congr hdad ..).trans hud, ?_, ?_, ?_, fun k hk => ?_, fun q hq => (port_congr hports q).trans (hupne q hq), ?_, ?_⟩
  · rw [port_congr hports, hup]
    rfl
  · rw [hone.dn, hdns]
  · rw [f_congr htv.2.2, hf, f_congr hregs]
  · rw [hdad]
    exact hune k hk
  · exact ((onlyFields_of_regs hregs _).trans honly).congr htv.2.2
  · have hkeep {a b : State} (h : a = b) := congrArg (fun z : State => { z with
      daddrs := t.daddrs, ports := t.ports, dns := t.dns, regs := t.regs }) h
    have h1 := hkeep hone.eq
    have h2 := hkeep hveq
    have h3 := hkeep hueq
    exact h1.trans (h2.trans h3)

theorem responseTimeout_reissues {s : State} {p : Fin 144} {d : Fin 2048} {x : XOpen} {je : Nat} (hr : s.portRecv p.val = true)
    (hst : (s.daddr p.val d.val).st = .cmd) (hl : (s.daddr p.val d.val).lock = .none) (ho : (s.daddr p.val d.val).opened = some x)
    (hk : x.req.kind = .rd) (hj : x.req.je = some je) (hlt : x.req.reissued < s.f Fld.gptRetryCtl_reissue p.val) :
    ∃ t, exec (.responseTimeout p d) s = .next t ∧ t.daddr p.val d.val = { s.daddr p.val d.val with opened := none }
      ∧ t.port p.val = { s.port p.val with
          statusQ := (s.port p.val).statusQ
            ++ [{ daddr := d.val, frame := statusFrame d.val (bridgeStatus false true 1 0 s.ts), guard := true }]
          queue := insertReq d.val { x.req with reissued := x.req.reissued + 1, refusals := 0, notBefore := 0 } (s.port p.val).queue }
      ∧ t.f Fld.gptErrCnt_resp_to p.val = sat Fld.gptErrCnt_resp_to (s.f Fld.gptErrCnt_resp_to p.val + 1)
      ∧ s.sameDaddrsBut t p.val d.val ∧ s.samePortsBut t p.val ∧ s.onlyFields t [(Fld.gptErrCnt_resp_to, p.val)]
      ∧ t = { s.start with daddrs := t.daddrs, ports := t.ports, regs := t.regs } := by
  obtain ⟨u, hu, hud, hune, hup, hupne, hueq⟩ := aborts (s := s.start) p.val d.val 1
  have hregs : u.regs = s.regs := by rw [hueq]; rfl
  obtain ⟨v, hv, hoff, hf, hkept, honly⟩ : ∃ v, u.incF Fld.gptErrCnt_resp_to p.val = v ∧ v.offRegs = u.offRegs
      ∧ v.f Fld.gptErrCnt_resp_to p.val = sat Fld.gptErrCnt_resp_to (u.f Fld.gptErrCnt_resp_to p.val + 1)
      ∧ v.f Fld.gptRetryCtl_reissue p.val = u.f Fld.gptRetryCtl_reissue p.val ∧ u.onlyFields v [(Fld.gptErrCnt_resp_to, p.val)] :=
    ⟨_, rfl, offRegs_incF .., f_incF_sat u (by decide) 1 _, f_incF_page u (by decide) 1 _,
      (onlyFields.refl u _).incF (List.mem_singleton_self _) (by decide) (wordsApart_singleton _ _) 1⟩
  have hagain : decide (x.req.reissued < v.f Fld.gptRetryCtl_reissue p.val) = true := by
    rw [hkept, f_congr hregs]
    exact decide_eq_true hlt
  have hrun : exec (.responseTimeout p d) s
      = .next (v.enqueue p.val d.val { x.req with reissued := x.req.reissued + 1, refusals := 0, notBefore := 0 }) := by
    rw [responseTimeout_aborts hr hst hl ho, abortCmd, show (s.start.daddr p.val d.val).opened = some x from ho]
    dsimp only
    rw [hk, hj, hu, if_pos ⟨rfl, nofun⟩, hv, hagain]
    rfl
  have hq := v.port_modPort_same p.val fun q => { q with
    queue := insertReq d.val { x.req with reissued := x.req.reissued + 1, refusals := 0, notBefore := 0 } q.queue }
  have hqne (q : Nat) (hne : q ≠ p.val) := v.port_modPort_ne hne fun q => { q with
    queue := insertReq d.val { x.req with reissued := x.req.reissued + 1, refusals := 0, notBefore := 0 } q.queue }
  have hveq : v = { u with regs := v.regs } := congrArg (fun z : State => { z with regs := v.regs }) hoff
  have hvu : v.daddrs = u.daddrs ∧ v.ports = u.ports := by rw [hveq]; exact ⟨rfl, rfl⟩
  refine ⟨_, hrun, (daddr_congr hvu.1 ..).trans hud, ?_, ?_, fun k hk => ?_, fun q hne => ?_, (onlyFields_of_regs hregs _).trans honly, ?_⟩
  · refine hq.trans ?_
    rw [port_congr hvu.2, hup]
    rfl
  · exact hf.trans (by rw [f_congr hregs])
  · exact (congrArg (FMap.get {} k) hvu.1).trans (hune k hk)
  · exact (hqne q hne).trans ((port_congr hvu.2 q).trans (hupne q hne))
  · have hkeep {a b : State} (h : a = b) := congrArg (fun z : State => { z with
      daddrs := v.daddrs, ports := (v.enqueue p.val d.val { x.req with reissued := x.req.reissued + 1, refusals := 0, notBefore := 0 }).ports
      regs := v.regs }) h
    have h2 := hkeep hveq
    have h3 := hkeep hueq
    exact h2.trans h3

/-! ### Frames of an exchange leave -/

/-- What `sendFrames` leaves: the frames are out where no STATUS waits at the port, else they wait at its egress. -/
structure Sends (s t : State) (p m : Nat) (fs : List Frame) : Prop where
  leaves : s.outp = [] → s.leaves t p m fs
  sent : (s.port p).statusQ = [] → t.outp = s.outp ++ fs.map fun f => .frame p m (sealFrame f)
  others : s.samePortsBut t p
  eq : t = { s with ports := t.ports, outp := t.outp }

theorem emitFrames_emits (s : State) (p m : Nat) (fs : List Frame) :
    s.emitFrames p m fs = { s with outp := s.outp ++ fs.map fun f => .frame p m (sealFrame f) } := by
  unfold emitFrames
  induction fs generalizing s with
  | nil => simp
  | cons f fs ih =>
    rw [List.foldl_cons, ih]
    simp [emit]

theorem mem_insertTx (x : EgressTx) (xs : List EgressTx) : x ∈ insertTx x xs := by
  induction xs with
  | nil => exact List.mem_singleton_self x
  | cons y ys ih =>
    unfold insertTx
    split
    · exact List.mem_cons_self
    · exact List.mem_cons_of_mem y ih

theorem sendFrames_sends (s : State) (p : Nat) {x : EgressTx} (hx : x.after = none) : s.Sends (s.sendFrames p x) p x.member x.frames := by
  unfold sendFrames
  by_cases hq : (s.port p).statusQ = []
  · rw [if_pos (by rw [hq]; rfl), hx]
    dsimp only
    rw [emitFrames_emits]
    refine ⟨fun h => ?_, fun _ => rfl, fun _ _ => rfl, rfl⟩
    unfold leaves
    rw [if_pos (by rw [hq]; rfl)]
    dsimp only
    rw [h, List.nil_append]
  · have hne : ¬ (s.port p).statusQ.isEmpty = true := by rwa [List.isEmpty_iff]
    rw [if_neg hne]
    refine ⟨fun h => ?_, fun h => absurd h hq, fun q hne => s.port_modPort_ne hne fun q => { q with egress := insertTx x q.egress }, rfl⟩
    unfold leaves
    rw [if_neg hne]
    have hport := s.port_modPort_same p fun q => { q with egress := insertTx x q.egress }
    refine ⟨h, x, ?_, rfl, rfl⟩
    rw [hport]
    exact mem_insertTx x _

/-! ### The end of a locked sequence -/

theorem leaves_of_eq {s u t : State} {p m : Nat} {fs : List Frame} (hp : u.ports = s.ports) (h : u.leaves t p m fs) : s.leaves t p m fs := by
  unfold leaves at h ⊢
  rwa [← port_congr hp]

/-- What ends a locked sequence: its device address releases, its operation is `o`, and its last frames are sent. -/
structure Unlocks (s t : State) (p d je : Nat) (a : Daddr) (o : Op) (fs : List Frame) : Prop where
  leaves : s.outp = [] → s.leaves t p 0 fs
  sent : (s.port p).statusQ = [] → t.outp = s.outp ++ fs.map fun f => .frame p 0 (sealFrame f)
  daddr : t.daddr p d = a
  op : t.op? je = some o
  ops : ∀ j, j ≠ je → t.op? j = s.op? j
  others : s.sameDaddrsBut t p d
  ports : s.samePortsBut t p
  eq : t = { s with daddrs := t.daddrs, ports := t.ports, ops := t.ops, outp := t.outp }

/-- A locked sequence ends with its device address, its operation and its frames. -/
theorem unlocks {s u v t : State} {p d je : Nat} {a : Daddr} {o : Op} {fs : List Frame}
    (hd : u.daddr p d = a) (hdne : s.sameDaddrsBut u p d) (hueq : u = { s with daddrs := u.daddrs, ops := u.ops })
    (ho : u.op? je = some o) (hone : ∀ j, j ≠ je → u.op? j = s.op? j) (hs : u.Sends t p 0 fs) : s.Unlocks t p d je a o fs := by
  have hports : u.ports = s.ports := by rw [hueq]
  have houtp : u.outp = s.outp := by rw [hueq]
  have ht : t.daddrs = u.daddrs ∧ t.ops = u.ops := by rw [hs.eq]; exact ⟨rfl, rfl⟩
  refine ⟨fun h => leaves_of_eq hports (hs.leaves (houtp.trans h)), fun h => ?_, (daddr_congr ht.1 ..).trans hd, (op?_congr ht.2 je).trans ho,
    fun j hj => (op?_congr ht.2 j).trans (hone j hj), fun k hk => ?_, fun q hq => (hs.others q hq).trans (port_congr hports q), ?_⟩
  · rw [hs.sent (by rw [port_congr hports]; exact h), houtp]
  · rw [ht.1]
    exact hdne k hk
  · have hkeep {a b : State} (h : a = b) := congrArg (fun z : State => { z with daddrs := t.daddrs, ports := t.ports, ops := t.ops, outp := t.outp }) h
    have h1 := hkeep hs.eq
    have h2 := hkeep hueq
    exact h1.trans h2

theorem unlockWr_writes {s : State} {p : Fin 144} {d : Fin 2048} {je v : Nat} {o : Op} {x : CcdX} {y : XOpen} {old : List Byte}
    (hr : s.portRecv p.val = true) (hl : (s.daddr p.val d.val).lock = .held) (hj : lockJe (s.daddr p.val d.val) = some je) (ho : s.op? je = some o)
    (hx : o.x = some x) (hopen : (s.daddr p.val d.val).opened = some y) (hold : x.old = some old)
    (hv : rmwNew (x.c.aux % 8) x.c.count (bytesNat old) (fieldAt 0 8 x.operands) (fieldAt 8 8 x.operands) = some v) :
    ∃ t, exec (.unlockWr p d) s = .next t
      ∧ s.start.Unlocks t p.val d.val je { s.daddr p.val d.val with lock := .releasing, relWhy := .wrote, relTries := 0 }
          { o with x := some { x with newVal := some v } }
          [s.burst 8 je o y.pieceA y.pieceE,
            burstData (s.burst 8 je o y.pieceA y.pieceE) y.pieceA y.pieceE (swapBytes o.cut.u (natBytes x.c.count v))] := by
  have hmod := s.start.oneDaddr_modDaddr p.val d.val fun q => { q with lock := .releasing, relWhy := .wrote, relTries := 0 }
  obtain ⟨u, hu, hone⟩ : ∃ u, (s.start.modDaddr p.val d.val fun q => { q with lock := .releasing, relWhy := .wrote, relTries := 0 }) = u
      ∧ s.start.OneDaddr u p.val d.val { s.daddr p.val d.val with lock := .releasing, relWhy := .wrote, relTries := 0 } := ⟨_, rfl, hmod⟩
  have huo : u.op? je = some o := by rw [hone.eq]; exact ho
  obtain ⟨w, hw, hwo, hwone, hweq⟩ : ∃ w, (u.modX je fun x => { x with newVal := some v }) = w
      ∧ w.op? je = some { o with x := some { x with newVal := some v } } ∧ (∀ j, j ≠ je → w.op? j = u.op? j) ∧ w = { u with ops := w.ops } :=
    ⟨_, rfl, op?_modX_same huo hx _, fun j hj => u.op?_modOp_ne hj _, rfl⟩
  have hburst : w.burst 8 je o y.pieceA y.pieceE = s.burst 8 je o y.pieceA y.pieceE := by
    unfold burst
    rw [show w.entry je = s.entry je by rw [hweq, hone.eq]; rfl]
  have hs := w.sendFrames_sends p.val (x := reqTx y.req [s.burst 8 je o y.pieceA y.pieceE,
    burstData (s.burst 8 je o y.pieceA y.pieceE) y.pieceA y.pieceE (swapBytes o.cut.u (natBytes x.c.count v))]) rfl
  have hrun : exec (.unlockWr p d) s = .next (w.sendFrames p.val (reqTx y.req [s.burst 8 je o y.pieceA y.pieceE,
      burstData (s.burst 8 je o y.pieceA y.pieceE) y.pieceA y.pieceE (swapBytes o.cut.u (natBytes x.c.count v))])) := by
    have hgo : ¬ ((!s.start.portRecv p.val) = true ∨ (s.start.daddr p.val d.val).lock ≠ .held) := by
      rw [show s.start.portRecv p.val = true from hr, show (s.start.daddr p.val d.val).lock = .held from hl]
      decide
    refine congrArg Host.Outcome.next ((if_neg hgo).trans ?_)
    rw [show lockJe (s.start.daddr p.val d.val) = some je from hj]
    dsimp only
    rw [show s.start.op? je = some o from ho, show (s.start.daddr p.val d.val).opened = some y from hopen]
    dsimp only
    rw [hx]
    dsimp only
    rw [hold]
    dsimp only
    rw [hv]
    dsimp only
    rw [hu, hw, hburst]
  refine ⟨_, hrun, unlocks (v := w) ?_ (fun k hk => ?_) ?_ hwo (fun j hj => (hwone j hj).trans ?_) hs⟩
  · rw [hweq]
    exact hone.daddr
  · rw [hweq]
    exact hone.others k hk
  · have h2 := congrArg (fun z : State => { z with ops := w.ops }) hone.eq
    have hdad : w.daddrs = u.daddrs := by rw [hweq]
    rw [hdad]
    exact hweq.trans h2
  · rw [hone.eq]
    rfl

theorem unlockAbort_unlocks {s : State} {p d je : Nat} {o : Op} {x : CcdX} (hj : lockJe (s.daddr p d) = some je) (ho : s.op? je = some o)
    (hx : o.x = some x) (why : RelWhy) :
    s.Unlocks (s.unlockAbort p d why) p d je { s.daddr p d with lock := .releasing, relWhy := why, st := .cmd }
      { o with x := some { x with last := [] } } [baseFrame 9 d] := by
  obtain ⟨w, hw, hwo, hwone, hweq⟩ : ∃ w, s.lockFresh (s.daddr p d) = w ∧ w.op? je = some { o with x := some { x with last := [] } }
      ∧ (∀ j, j ≠ je → w.op? j = s.op? j) ∧ w = { s with ops := w.ops } := by
    refine ⟨s.modX je fun x => { x with last := [] }, ?_, op?_modX_same ho hx _, fun j hj => s.op?_modOp_ne hj _, rfl⟩
    unfold lockFresh
    rw [hj]
  have hmod := w.oneDaddr_modDaddr p d fun a => { a with lock := .releasing, relWhy := why, st := .cmd }
  rw [show w.daddr p d = s.daddr p d by rw [hweq]; rfl] at hmod
  obtain ⟨u, hu, hone⟩ : ∃ u, (w.modDaddr p d fun a => { a with lock := .releasing, relWhy := why, st := .cmd }) = u
      ∧ w.OneDaddr u p d { s.daddr p d with lock := .releasing, relWhy := why, st := .cmd } := ⟨_, rfl, hmod⟩
  have hops : u.ops = w.ops := by rw [hone.eq]
  unfold unlockAbort
  dsimp only
  rw [hw, hu]
  refine unlocks (v := u) hone.daddr (fun k hk => (hone.others k hk).trans (by rw [hweq])) ?_ ((op?_congr hops je).trans hwo)
    (fun j hj => (op?_congr hops j).trans (hwone j hj)) (sendFrames_sends _ _ rfl)
  have h2 := congrArg (fun z : State => { z with daddrs := u.daddrs }) hweq
  rw [hops]
  exact hone.eq.trans h2

theorem unlockWr_aborts {s : State} {p : Fin 144} {d : Fin 2048} {je : Nat} {o : Op} {x : CcdX} {y : XOpen} {old : List Byte}
    (hr : s.portRecv p.val = true) (hl : (s.daddr p.val d.val).lock = .held) (hj : lockJe (s.daddr p.val d.val) = some je) (ho : s.op? je = some o)
    (hx : o.x = some x) (hopen : (s.daddr p.val d.val).opened = some y) (hold : x.old = some old)
    (hv : rmwNew (x.c.aux % 8) x.c.count (bytesNat old) (fieldAt 0 8 x.operands) (fieldAt 8 8 x.operands) = none) :
    exec (.unlockWr p d) s = .next (s.start.unlockAbort p.val d.val .cas) := by
  have hgo : ¬ ((!s.start.portRecv p.val) = true ∨ (s.start.daddr p.val d.val).lock ≠ .held) := by
    rw [show s.start.portRecv p.val = true from hr, show (s.start.daddr p.val d.val).lock = .held from hl]
    decide
  refine congrArg Host.Outcome.next ((if_neg hgo).trans ?_)
  rw [show lockJe (s.start.daddr p.val d.val) = some je from hj]
  dsimp only
  rw [show s.start.op? je = some o from ho, show (s.start.daddr p.val d.val).opened = some y from hopen]
  dsimp only
  rw [hx]
  dsimp only
  rw [hold]
  dsimp only
  rw [hv]

/-! ### A lock held too long -/

theorem farEnd_done {s : State} {je : Nat} {o : Op} (ho : s.op? je = some o) (hk : (s.entry je).kind = 4) (he : (s.entry je).err ≠ 0)
    (hp : (s.entry je).pst = false) (hs : o.silent = false) :
    (s.farEnd je).entry je = { s.entry je with st := .farDone, since := s.ts } := by
  have hl : s.entry je ≠ {} := fun h => absurd (hk.symm.trans (congrArg JEntry.kind h)) (by decide)
  obtain ⟨u, hu, hue, huts⟩ : ∃ u, s.dequeueOp je o.port = u ∧ u.entry je = s.entry je ∧ u.ts = s.ts := ⟨_, rfl, rfl, rfl⟩
  have hul : u.entry je ≠ {} := by rw [hue]; exact hl
  have hnot : ¬ (u.entry je).err = 0 := by rw [hue]; exact he
  have hrun : s.farEnd je = (u.setSt je .farDone).modOp je fun o => { o with done := true, hold := {}, area := {} } := by
    unfold farEnd
    simp only [ho, hu, hs, Bool.false_eq_true, if_false]
    rw [if_pos (by rw [hue]; exact hk)]
    cases o.x <;> simp only [if_neg hnot] <;> rw [if_neg (by rw [hue, hp]; decide)]
  rw [hrun]
  refine (entry_setSt_same hul .farDone).trans ?_
  rw [hue, huts]

/-- What writing back an old value leaves: what an access to host memory may, and its operation. -/
theorem writeOld_writes {s : State} (hn : s.flt.haltNow = false) (je : Nat) (he : (s.entry je).err ≠ 0) :
    ∃ u, s.Hosted u ∧ s.writeOld je = { u with ops := (s.writeOld je).ops } ∧ (∀ j, j ≠ je → (s.writeOld je).op? j = s.op? j)
      ∧ ((s.writeOld je).op? je).map (·.silent) = (s.op? je).map (·.silent) := by
  unfold writeOld
  split
  next o ho =>
    split
    next x hx =>
      split
      next v hv =>
        dsimp only
        have hh := hosted_instWrite hn (s.srcOp hubLanding (s.entry je).inst je) (s.entry je).vc (x.c.data + 16) (List.replicate (8 - v.length) 0 ++ v) []
        generalize s.instWrite (s.srcOp hubLanding (s.entry je).inst je) (s.entry je).vc (x.c.data + 16) (List.replicate (8 - v.length) 0 ++ v) [] = r at hh
        have hops (j : Nat) : r.2.op? j = s.op? j := by rw [hh.eq]; rfl
        split
        · exact ⟨r.2, hh, rfl, fun j _ => hops j, by rw [hops]⟩
        · have herr : r.2.hostErr je 2 2 = r.2 := by
            have : (r.2.entry je).err ≠ 0 := by rw [hh.eq]; exact he
            exact if_pos this
          rw [herr]
          refine ⟨r.2, hh, rfl, fun j hj => (r.2.op?_modOp_ne hj _).trans (hops j), ?_⟩
          rw [op?_modX_same ((hops je).trans ho) hx, ho]
          rfl
      next => exact ⟨s, .refl s, rfl, fun _ _ => rfl, rfl⟩
    next => exact ⟨s, .refl s, rfl, fun _ _ => rfl, rfl⟩
  next => exact ⟨s, .refl s, rfl, fun _ _ => rfl, rfl⟩

theorem blockAt_lockCnt {p : Nat} (hp : p < 144) : blockAt (regOff Fld.gptLockCnt_lock_to.id p) = some .gpt := by
  have hall : ∀ p < 144, blockAt (regOff Fld.gptLockCnt_lock_to.id p) = some .gpt := by decide +kernel
  exact hall p hp

theorem lockTimeout_ends {s : State} {p : Fin 144} {d : Fin 2048} {je : Nat} {o : Op} {x : CcdX} (hr : s.portRecv p.val = true)
    (hl : (s.daddr p.val d.val).lock = .held) (hj : lockJe (s.daddr p.val d.val) = some je) (ho : s.op? je = some o) (hx : o.x = some x)
    (hk : (s.entry je).kind = 4) (hp : (s.entry je).pst = false) (he : (s.entry je).err = 0) (hs : o.silent = false) :
    ∃ t, exec (.lockTimeout p d) s = .next t
      ∧ ((s.port p.val).statusQ = [] → .frame p.val 0 (sealFrame (baseFrame 9 d.val)) ∈ t.outp)
      ∧ t.daddr p.val d.val = { s.daddr p.val d.val with lock := .releasing, relWhy := .ended, st := .cmd }
      ∧ (t.entry je).err = 4 ∧ (t.entry je).st = .farDone
      ∧ t.f Fld.gptLockCnt_lock_to p.val = sat Fld.gptLockCnt_lock_to (s.f Fld.gptLockCnt_lock_to p.val + 1)
      ∧ s.sameDaddrsBut t p.val d.val ∧ ∀ j, j ≠ je → t.entry j = s.entry j := by
  obtain ⟨c, hc, hcoff, hcf⟩ : ∃ c, s.start.incF Fld.gptLockCnt_lock_to p.val = c ∧ c.offRegs = s.start.offRegs
      ∧ c.f Fld.gptLockCnt_lock_to p.val = sat Fld.gptLockCnt_lock_to (s.f Fld.gptLockCnt_lock_to p.val + 1) :=
    ⟨_, rfl, offRegs_incF .., f_incF_sat s.start (by decide) 1 _⟩
  have hceq : c = { s.start with regs := c.regs } := congrArg (fun z : State => { z with regs := c.regs }) hcoff
  have hcd : c.daddr p.val d.val = s.daddr p.val d.val := by rw [hceq]; rfl
  have hun := unlockAbort_unlocks (s := c) (p := p.val) (d := d.val) (by rw [hcd]; exact hj) (show c.op? je = some o by rw [hceq]; exact ho) hx .ended
  obtain ⟨u, hu, hun⟩ : ∃ u, c.unlockAbort p.val d.val .ended = u ∧ c.Unlocks u p.val d.val je _ _ _ := ⟨_, rfl, hun⟩
  have hueq := hun.eq
  have hue (j : Nat) : u.entry j = s.entry j := by rw [hueq, hceq]; rfl
  obtain ⟨g, hfail⟩ : ∃ g, exec (.lockTimeout p d) s = .next ((u.fail je .to 3 g (bridgeStatus true true 3 0 u.ts)).endLocked je) := by
    have hgo : ¬ ((!s.start.portRecv p.val) = true ∨ (s.start.daddr p.val d.val).lock ≠ .held) := by
      rw [show s.start.portRecv p.val = true from hr, show (s.start.daddr p.val d.val).lock = .held from hl]
      decide
    refine ⟨((s.start.daddr p.val d.val).opened.map (·.pieceA)).getD 0, congrArg Host.Outcome.next ((if_neg hgo).trans ?_)⟩
    dsimp only
    rw [hc, hu, show lockJe (s.start.daddr p.val d.val) = some je from hj]
    dsimp only
    rw [if_pos (by rw [hun.op]; rfl)]
    cases (s.start.daddr p.val d.val).opened <;> rfl
  obtain ⟨w, hw, hwe, hwo, hwone⟩ := fail_records hun.op (by rw [hue]; exact he) .to 3 g (bridgeStatus true true 3 0 u.ts)
  rw [hue, hk] at hwe
  have hweq := hwone.eq
  have herr : (w.entry je).err = 4 := by rw [hwe]; rfl
  obtain ⟨b, hb, hbeq, hbne, hbs⟩ := writeOld_writes (s := w) (by rw [hweq, hueq, hceq]; rfl) je (by rw [herr]; decide)
  obtain ⟨v, hv⟩ : ∃ v, w.writeOld je = v := ⟨_, rfl⟩
  rw [hv] at hbeq hbne hbs
  have hve (j : Nat) : v.entry j = w.entry j := by rw [hbeq, hb.eq]; rfl
  rw [hwo] at hbs
  obtain ⟨o', hvo, hvs⟩ : ∃ o', v.op? je = some o' ∧ o'.silent = false := by
    cases hop : v.op? je with
    | none => rw [hop] at hbs; exact nomatch hbs
    | some o' =>
      rw [hop] at hbs
      exact ⟨o', rfl, (Option.some.inj hbs).trans hs⟩
  have hvk : (v.entry je).kind = 4 := by
    rw [hve, hwe]
    exact hk
  have hverr : (v.entry je).err = 4 := by rw [hve, herr]
  have hvp : (v.entry je).pst = false := by
    rw [hve, hwe]
    exact hp
  have hends := farEnd_ccd hvo hvk (by rw [hverr]; decide) hvs
  have hdone := farEnd_done hvo hvk (by rw [hverr]; decide) hvp hvs
  have hrun : exec (.lockTimeout p d) s = .next (v.farEnd je) := by
    rw [hfail]
    refine congrArg Host.Outcome.next ?_
    unfold endLocked
    rw [hw, hwo]
    dsimp only
    rw [if_neg (by rw [herr]; decide), hv]
  generalize v.farEnd je = t at hrun hends hdone
  have hteq := hends.eq
  have hdad : t.daddrs = u.daddrs := by rw [hteq, hbeq, hb.eq, hweq]
  refine ⟨t, hrun, fun hq => ?_, (daddr_congr hdad ..).trans (hun.daddr.trans (by rw [hcd])), by rw [hends.err, hverr], by rw [hdone], ?_, fun k hk => ?_,
    fun j hj => ?_⟩
  · have hmem : Output.frame p.val 0 (sealFrame (baseFrame 9 d.val)) ∈ w.outp := by
      rw [show w.outp = u.outp by rw [hweq], hun.sent (by rw [hceq]; exact hq)]
      exact List.mem_append_right _ (List.mem_singleton_self _)
    have hout : t.outp = b.outp := by rw [hteq, hbeq]
    rw [hout]
    exact hb.outp hmem
  · have hto : t.regs = b.regs := by rw [hteq, hbeq]
    rw [f_congr hto, hb.only.f_eq (blockAt_lockCnt p.isLt) (by decide), f_congr (show w.regs = c.regs by rw [hweq, hueq]), hcf]
  · rw [hdad]
    refine (hun.others k hk).trans ?_
    rw [hceq]
    rfl
  · rw [(hends.others j hj).1, hve, (hwone.others j hj).1, hue]

/-- Settles O36. -/
theorem exchangeTimersAndLocks : Obligations.ExchangeTimersAndLocks := by
  refine ⟨fun s p d hw hst hs => guardEnd_closes hw hst hs,
    fun s p d hw => ⟨rsvTime_expires hw, lossCount_expires hw, lossCount_stays⟩,
    fun s p d x hr hst hl ho => ⟨responseTimeout_poll hr hst hl ho, fun je => responseTimeout_reissues hr hst hl ho⟩,
    fun s p d je o x y old hr hl hj ho hx hopen hold => ⟨fun v hv => ?_, fun hv => ?_, fun hk hp he hs => ?_⟩⟩
  · obtain ⟨t, ht, hun⟩ := unlockWr_writes hr hl hj ho hx hopen hold hv
    exact ⟨t, ht, hun.leaves rfl, hun.daddr, hun.op, hun.ops, hun.others, hun.ports, hun.eq⟩
  · have hun := unlockAbort_unlocks (s := s.start) (p := p.val) (d := d.val) hj ho hx .cas
    exact ⟨_, unlockWr_aborts hr hl hj ho hx hopen hold hv, hun.leaves rfl, hun.daddr, hun.op, hun.ops, hun.others, hun.ports, hun.eq⟩
  · exact lockTimeout_ends hr hl hj ho hx hk hp he hs

end State

end Sys2Proof.Machine
end

section
/-! PROOFS. Channel-side exchanges open, and what frames of a device do to them (R76, R83 to R88, R91, R118, R192, R203). -/

namespace Sys2Proof.Machine

namespace State

/-! ### An exchange opens -/

theorem sendFrames_out {s : State} {p : Nat} {x : EgressTx} (hx : x.after = none) (hq : (s.port p).statusQ = []) :
    s.sendFrames p x = { s with outp := s.outp ++ x.frames.map fun f => .frame p x.member (sealFrame f) } := by
  unfold sendFrames
  rw [if_pos (by rw [hq]; rfl), hx]
  exact emitFrames_emits ..

theorem opensNow_statusQ {s : State} {p d : Nat} {x : XReq} (h : s.opensNow p d x) : (s.port p).statusQ = [] := by
  obtain ⟨-, -, hout⟩ := h
  unfold firstOut at hout
  dsimp only at hout
  rw [Bool.and_eq_true] at hout
  exact List.isEmpty_iff.mp hout.1

theorem pieceMay_start {s : State} {je a e : Nat} {o : Op} (h : s.pieceMay je o a e) : s.start.pieceMay je o a e := by
  obtain ⟨htake, hcross⟩ := h
  refine ⟨?_, hcross⟩
  unfold takePiece at htake ⊢
  cases hx : o.x with
  | none => rfl
  | some x =>
    rw [hx] at htake
    dsimp only at htake ⊢
    split
    · rfl
    next hgo =>
      rw [if_neg hgo] at htake
      rw [show s.start.entry je = s.entry je from rfl, show s.start.takeHold = s.takeHold from rfl]
      cases hh : s.takeHold (s.entry je).inst (3 * (s.entry je).cls + 2) (grainsOf (e + 1 - a)) with
      | none =>
        rw [hh] at htake
        exact nomatch htake
      | some y => rfl

theorem exchangeOpen_runs {s : State} {p : Fin 144} {d : Fin 2048} {x : XReq} (h : s.opensNow p.val d.val x) :
    exec (.exchangeOpen p d) s = .next (s.start.openHead p.val d.val x) := by
  obtain ⟨hfind, hmay, hfirst⟩ := h
  refine congrArg Host.Outcome.next ?_
  dsimp only
  rw [show (s.start.port p.val).queue.find? (fun y => y.1 == d.val) = some (d.val, x) from hfind]
  dsimp only
  exact if_pos ⟨hmay, hfirst⟩

theorem exchangeOpen_waits {s : State} {p : Fin 144} {d : Fin 2048} (h : ∀ y ∈ (s.port p.val).queue, ¬ s.opensNow p.val d.val y.2) :
    exec (.exchangeOpen p d) s = .next s.start := by
  refine congrArg Host.Outcome.next ?_
  dsimp only
  cases hfind : (s.start.port p.val).queue.find? (fun y => y.1 == d.val) with
  | none => rfl
  | some y =>
    obtain ⟨k, x⟩ := y
    have hk : k = d.val := by simpa using List.find?_some hfind
    subst hk
    exact if_neg fun hgo => h _ (List.mem_of_find?_eq_some hfind) ⟨hfind, hgo.1, hgo.2⟩

/-- Of a state an exchange has opened alone. -/
structure Opens (s t : State) (p d : Nat) (x : XOpen) : Prop where
  opened : s.opened t p d x
  eq : t = { s with daddrs := t.daddrs, ports := t.ports }

theorem openAt_opens (s : State) (p d : Nat) (x : XOpen) : s.Opens (s.openAt p d x) p d x := by
  have hport := s.port_modPort_same p fun q => { q with queue := q.queue.erase (d, x.req) }
  have hports (q : Nat) (hq : q ≠ p) := s.port_modPort_ne hq fun q => { q with queue := q.queue.erase (d, x.req) }
  have hone := (s.modPort p fun q => { q with queue := q.queue.erase (d, x.req) }).oneDaddr_modDaddr p d
    fun a => { a with st := .cmd, opened := some x, openSerial := a.openSerial + 1 }
  exact ⟨⟨hone.daddr, hone.others, hport, hports⟩, rfl⟩

theorem opened_congr {s t u : State} {p d : Nat} {x : XOpen} (h : s.opened t p d x) (hd : u.daddrs = t.daddrs) (hp : u.ports = t.ports) :
    s.opened u p d x := by
  obtain ⟨hdad, hothers, hport, hports⟩ := h
  refine ⟨(daddr_congr hd ..).trans hdad, fun k hk => ?_, (port_congr hp p).trans hport, fun q hq => (port_congr hp q).trans (hports q hq)⟩
  rw [hd]
  exact hothers k hk

theorem opened_statusQ {s t : State} {p d : Nat} {x : XOpen} (h : s.opened t p d x) : (t.port p).statusQ = (s.port p).statusQ := by
  rw [h.2.2.1]

theorem openPoll_opens {s : State} {p d : Nat} {x : XReq} (hk : x.kind = .poll) (hq : (s.port p).statusQ = []) (hout : s.outp = []) :
    ∃ t, s.openHead p d x = t ∧ s.opened t p d { req := x } ∧ t.dn x.dn = { s.dn x.dn with poll := .out }
      ∧ t.outp = [.frame p 0 (sealFrame (baseFrame 5 d))] ∧ (∀ n, n ≠ x.dn → t.dn n = s.dn n)
      ∧ t = { s with daddrs := t.daddrs, ports := t.ports, dns := t.dns, outp := t.outp } := by
  obtain ⟨u, hu, ho⟩ : ∃ u, s.openAt p d { req := x } = u ∧ s.Opens u p d { req := x } := ⟨_, rfl, s.openAt_opens p d { req := x }⟩
  obtain ⟨v, hv, hone⟩ : ∃ v, (u.modDn x.dn fun n => { n with poll := .out }) = v ∧ u.OneDn v x.dn { u.dn x.dn with poll := .out } :=
    ⟨_, rfl, u.oneDn_modDn x.dn fun n => { n with poll := .out }⟩
  have hports : v.ports = u.ports := by rw [hone.eq]
  have hdns : u.dns = s.dns := by rw [ho.eq]
  have houtv : v.outp = [] := by rw [hone.eq, ho.eq]; exact hout
  have hsend := sendFrames_out (s := v) (x := reqTx x [baseFrame 5 d]) rfl (by rw [port_congr hports, opened_statusQ ho.opened, hq])
  refine ⟨v.sendFrames p (reqTx x [baseFrame 5 d]), ?_, ?_, ?_, ?_, fun n hn => ?_, ?_⟩
  · unfold openHead
    rw [hk]
    dsimp only
    rw [hu, hv]
  · rw [hsend]
    exact opened_congr ho.opened (by rw [hone.eq]) hports
  · rw [hsend]
    exact hone.dn.trans (by rw [dn_congr hdns])
  · rw [hsend, houtv]
    rfl
  · rw [hsend]
    exact (hone.others n hn).trans (dn_congr hdns n)
  · rw [hsend]
    have hkeep {a b : State} (h : a = b) := congrArg (fun z : State => { z with
      daddrs := v.daddrs, ports := v.ports, dns := v.dns, outp := v.outp ++ [Output.frame p 0 (sealFrame (baseFrame 5 d))] }) h
    have h1 := hkeep hone.eq
    have h2 := hkeep ho.eq
    exact h1.trans h2

/-! ### The first exchange of an operation -/

theorem issued_entry {s : State} {je : Nat} (h : (s.entry je).st = .admitted) :
    (s.issued je).entry je = { s.entry je with st := .issued, since := s.ts } := by
  rw [issued, if_pos h]
  exact entry_setSt_same (fun h0 => by rw [h0] at h; exact nomatch h) .issued

theorem issued_others (s : State) {je j : Nat} (h : j ≠ je) : (s.issued je).entry j = s.entry j := by
  unfold issued
  split
  · exact entry_setSt_ne s h .issued
  · rfl

theorem issued_eq (s : State) (je : Nat) : s.issued je = { s with jnl := (s.issued je).jnl, hub := (s.issued je).hub } := by
  unfold issued
  split <;> rfl

theorem issued_kept {s : State} {je j : Nat} (h : (s.entry j).st ≠ .admitted) : (s.issued je).entry j = s.entry j := by
  by_cases hj : j = je
  · subst hj
    rw [issued, if_neg h]
  · exact s.issued_others hj

/-- What issuing each of `js` leaves: those that were admitted are issued, and the others' entries stay. -/
theorem foldl_issued (js : List Nat) (s : State) :
    (∀ j ∈ js, (s.entry j).st = .admitted → ((js.foldl (fun s je => s.issued je) s).entry j).st = .issued)
      ∧ (∀ j, (s.entry j).st ≠ .admitted ∨ j ∉ js → (js.foldl (fun s je => s.issued je) s).entry j = s.entry j)
      ∧ js.foldl (fun s je => s.issued je) s = { s with
          jnl := (js.foldl (fun s je => s.issued je) s).jnl, hub := (js.foldl (fun s je => s.issued je) s).hub } := by
  induction js generalizing s with
  | nil => exact ⟨nofun, fun _ _ => rfl, rfl⟩
  | cons k js ih =>
    obtain ⟨hin, hout, heq⟩ := ih (s.issued k)
    rw [List.foldl_cons]
    refine ⟨fun j hj hst => ?_, fun j hj => ?_, ?_⟩
    · by_cases hjk : j = k
      · subst hjk
        have hent := issued_entry hst
        have hnot : ((s.issued j).entry j).st ≠ .admitted := by
          rw [hent]
          exact JSt.noConfusion
        rw [hout j (.inl hnot), hent]
      · have hmem := (List.mem_cons.mp hj).resolve_left hjk
        exact hin j hmem (by rw [s.issued_others hjk]; exact hst)
    · rcases hj with hst | hnot
      · have hkept := issued_kept (je := k) hst
        rw [hout j (.inl (by rw [hkept]; exact hst)), hkept]
      · rw [hout j (.inr fun hmem => hnot (List.mem_cons_of_mem k hmem)), s.issued_others fun h => hnot (List.mem_cons.mpr (.inl h))]
    · have h1 := congrArg (fun z : State => { z with
        jnl := (js.foldl (fun (s : State) je => s.issued je) (s.issued k)).jnl
        hub := (js.foldl (fun (s : State) je => s.issued je) (s.issued k)).hub }) (s.issued_eq k)
      exact heq.trans h1

theorem openAck_opens {s : State} {p d : Nat} {x : XReq} (hk : x.kind = .ack) (hq : (s.port p).statusQ = []) (hout : s.outp = []) :
    ∃ t, s.openHead p d x = t ∧ s.opened t p d { req := x } ∧ t.outp = [.frame p 0 (sealFrame (baseFrame 0xA d))]
      ∧ (x.je = none → t = { s with daddrs := t.daddrs, ports := t.ports, outp := t.outp })
      ∧ (x.je ≠ none → (∀ j ∈ s.ackers x.serial, (s.entry j).st = .admitted → (t.entry j).st = .issued)
          ∧ (∀ j, j ∉ s.ackers x.serial → t.entry j = s.entry j)
          ∧ t = { s with daddrs := t.daddrs, ports := t.ports, outp := t.outp, jnl := t.jnl, hub := t.hub }) := by
  obtain ⟨u, hu, ho⟩ : ∃ u, s.openAt p d { req := x } = u ∧ s.Opens u p d { req := x } := ⟨_, rfl, s.openAt_opens p d { req := x }⟩
  have hsend := sendFrames_out (s := u) (x := reqTx x [baseFrame 0xA d]) rfl (by rw [opened_statusQ ho.opened, hq])
  rw [show u.outp = [] by rw [ho.eq]; exact hout] at hsend
  obtain ⟨v, hv, hveq⟩ : ∃ v, u.sendFrames p (reqTx x [baseFrame 0xA d]) = v
      ∧ v = { s with daddrs := u.daddrs, ports := u.ports, outp := [.frame p 0 (sealFrame (baseFrame 0xA d))] } := by
    refine ⟨_, rfl, hsend.trans ?_⟩
    have h1 := congrArg (fun z : State => { z with outp := [.frame p 0 (sealFrame (baseFrame 0xA d))] }) ho.eq
    exact h1
  have hopen : s.opened v p d { req := x } := opened_congr ho.opened (by rw [hveq]) (by rw [hveq])
  have hackers : v.ackers x.serial = s.ackers x.serial := by rw [hveq]; rfl
  have hent (j : Nat) : v.entry j = s.entry j := by rw [hveq]; rfl
  have hrun : s.openHead p d x = if x.je.isSome then (s.ackers x.serial).foldl (fun s je => s.issued je) v else v := by
    unfold openHead
    rw [hk]
    dsimp only
    rw [hu, hv, hackers]
  rw [hrun]
  cases hje : x.je with
  | none => exact ⟨v, rfl, hopen, by rw [hveq], fun _ => by rw [hveq], fun h => absurd rfl h⟩
  | some je =>
    obtain ⟨hin, hothers, heq⟩ := foldl_issued (s.ackers x.serial) v
    generalize (s.ackers x.serial).foldl (fun s je => s.issued je) v = t at hin hothers heq
    refine ⟨t, rfl, opened_congr hopen (by rw [heq]) (by rw [heq]), by rw [heq, hveq], nofun, fun _ => ⟨fun j hj hst => ?_, fun j hj => ?_, ?_⟩⟩
    · exact hin j hj (by rw [hent]; exact hst)
    · rw [hothers j (.inr hj), hent]
    · have h1 := congrArg (fun z : State => { z with daddrs := t.daddrs, ports := t.ports, outp := t.outp, jnl := t.jnl, hub := t.hub }) hveq
      have h2 := congrArg (fun z : State => { z with daddrs := t.daddrs, ports := t.ports, outp := t.outp, jnl := t.jnl, hub := t.hub }) heq
      exact h2.trans h1

/-! ### A piece opens -/

/-- The work of an operation, which taking grains and crossing the Hub do not touch. -/
structure SameWork (o u : Op) : Prop where
  cur : u.cur = o.cur
  pos : u.pos = o.pos
  data : u.data = o.data
  parts : u.parts = o.parts
  wr : u.wr = o.wr

theorem SameWork.trans {o u v : Op} (h : SameWork o u) (h' : SameWork u v) : SameWork o v :=
  ⟨h'.cur.trans h.cur, h'.pos.trans h.pos, h'.data.trans h.data, h'.parts.trans h.parts, h'.wr.trans h.wr⟩

/-- Of a state one operation has gone on, with its work and its entry as they were. -/
structure Carries (s t : State) (je : Nat) (o : Op) : Prop where
  op : ∃ u, t.op? je = some u ∧ SameWork o u
  entry : ∀ j, t.entry j = s.entry j
  ops : ∀ j, j ≠ je → t.op? j = s.op? j
  eq : t = { s with ops := t.ops, hub := t.hub }

theorem Carries.refl {s : State} {je : Nat} {o : Op} (ho : s.op? je = some o) : s.Carries s je o :=
  ⟨⟨o, ho, rfl, rfl, rfl, rfl, rfl⟩, fun _ => rfl, fun _ _ => rfl, rfl⟩

theorem Carries.trans {s t u : State} {je : Nat} {o o' : Op} (h : s.Carries t je o) (ho : t.op? je = some o') (h' : t.Carries u je o') :
    s.Carries u je o := by
  obtain ⟨o1, ho1, hw1⟩ := h.op
  obtain ⟨o2, ho2, hw2⟩ := h'.op
  rw [ho1] at ho
  cases ho
  refine ⟨⟨o2, ho2, hw1.trans hw2⟩, fun j => (h'.entry j).trans (h.entry j), fun j hj => (h'.ops j hj).trans (h.ops j hj), ?_⟩
  have h1 := congrArg (fun z : State => { z with ops := u.ops, hub := u.hub }) h.eq
  exact h'.eq.trans h1

theorem carries_modOp {s : State} {je : Nat} {o : Op} (ho : s.op? je = some o) (g : Op → Op) (hg : SameWork o (g o)) :
    s.Carries (s.modOp je g) je o := by
  have hsame := s.op?_modOp_same je g
  rw [ho] at hsame
  exact ⟨⟨g o, hsame, hg⟩, fun _ => rfl, fun j hj => s.op?_modOp_ne hj g, rfl⟩

theorem takePiece_carries {s : State} {je : Nat} {o : Op} (ho : s.op? je = some o) (a e : Nat) : s.Carries (s.takePiece je o a e).2 je o := by
  unfold takePiece
  split
  · exact .refl ho
  · split
    · exact .refl ho
    · split
      · exact carries_modOp ho _ ⟨rfl, rfl, rfl, rfl, rfl⟩
      · exact .refl ho

theorem carries_addXfer {s : State} {je : Nat} {o : Op} (ho : s.op? je = some o) (inp out cls sub bytes : Nat) (own : XOwn) :
    s.Carries (s.addXfer inp out cls sub bytes own) je o :=
  ⟨⟨o, ho, rfl, rfl, rfl, rfl, rfl⟩, fun _ => rfl, fun _ _ => rfl, rfl⟩

/-- A piece crosses at once that has crossed, is not an engine's, or is not in the policed class. -/
theorem crossPiece_carries {s : State} {je : Nat} {o u : Op} (hu : s.op? je = some u) (p a e : Nat)
    (h : o.crossed = true ∨ s.byEngine je = false ∨ (s.entry je).cls ≠ 0) :
    (s.crossPiece p je o a e).1 = true ∧ s.Carries (s.crossPiece p je o a e).2 je u := by
  unfold crossPiece
  split
  · exact ⟨rfl, .refl hu⟩
  next hnot =>
    have hcls : (s.entry je).cls ≠ 0 := by
      rcases h with h | h | h
      · exact absurd (by rw [h]; rfl) hnot
      · exact absurd (by rw [h]; exact Bool.or_true _) hnot
      · exact h
    have hform (inp out cls inst sub bytes : Nat) (own : XOwn) (act : HeldAct) (hc : cls ≠ 0) :
        s.formXfer inp out cls inst sub bytes own act = (true, s.addXfer inp out (if cls = 0 then 1 else cls) sub bytes own) := if_pos (.inl hc)
    have hmod (inp out cls sub bytes : Nat) (own : XOwn) (g : Op → Op) (hg : SameWork u (g u)) :
        s.Carries ((s.addXfer inp out cls sub bytes own).modOp je g) je u :=
      (carries_addXfer hu inp out cls sub bytes own).trans hu (carries_modOp (s := s.addXfer inp out cls sub bytes own) hu g hg)
    split
    · dsimp only
      rw [hform _ _ _ _ _ _ _ _ hcls]
      exact ⟨rfl, hmod _ _ _ _ _ _ _ ⟨rfl, rfl, rfl, rfl, rfl⟩⟩
    · dsimp only
      rw [hform _ _ _ _ _ _ _ _ hcls]
      exact ⟨rfl, hmod _ _ _ _ _ _ _ ⟨rfl, rfl, rfl, rfl, rfl⟩⟩

/-- The opening frames of a piece. -/
def pieceFrames (s : State) (je : Nat) (o : Op) (a e : Nat) : List Frame :=
  if o.wr then [s.burst 1 je o a e, burstData (s.burst 1 je o a e) a e (pieceData o a e)] else [s.burst 2 je o a e]

theorem burst_congr {s t : State} {je : Nat} (h : (t.entry je).kind = (s.entry je).kind) (ftype : Nat) (o : Op) (a e : Nat) :
    t.burst ftype je o a e = s.burst ftype je o a e := by
  unfold burst
  rw [h]

theorem openPiece_opens {s : State} {p d je : Nat} {x : XReq} {o u : Op} {a e : Nat} (hu : s.op? je = some u) (hk : x.kind ≠ .lockRd)
    (hq : (s.port p).statusQ = []) (hst : (s.entry je).st = .admitted)
    (hj : s.judge p o.ident (d * 2 ^ 32 + a) (d * 2 ^ 32 + e) (!o.wr) o.wr = .ok) :
    ∃ t, s.openPiece p d je x o a e = t ∧ s.opened t p d { req := x, pieceA := a, pieceE := e }
      ∧ t.outp = s.outp ++ (s.pieceFrames je o a e).map (fun f => .frame p 0 (sealFrame f)) ∧ (t.entry je).st = .issued ∧ s.sameOpsBut t je
      ∧ (∃ v, t.op? je = some v ∧ SameWork u v)
      ∧ t = { s with daddrs := t.daddrs, ports := t.ports, jnl := t.jnl, ops := t.ops, hub := t.hub, outp := t.outp } := by
  have hlock : (x.kind == XKind.lockRd) = false := by simpa using hk
  have hgate := gateCheck_ok hj (some (s.entry je).inst) (some je)
  obtain ⟨v, hv, ho⟩ : ∃ v, s.openAt p d { req := x, pieceA := a, pieceE := e } = v ∧ s.Opens v p d { req := x, pieceA := a, pieceE := e } :=
    ⟨_, rfl, s.openAt_opens p d { req := x, pieceA := a, pieceE := e }⟩
  have hveq := ho.eq
  have hvu : v.op? je = some u := by rw [hveq]; exact hu
  have hmod : v.Carries (v.modX je fun x => { x with last := [] }) je u := carries_modOp hvu _ ⟨rfl, rfl, rfl, rfl, rfl⟩
  obtain ⟨w, hw, hwc⟩ : ∃ w, (v.modX je fun x => { x with last := [] }) = w ∧ v.Carries w je u := ⟨_, rfl, hmod⟩
  have hve (j : Nat) : v.entry j = s.entry j := by rw [hveq]; rfl
  have hwst : (w.entry je).st = .admitted := by rw [hwc.entry, hve, hst]
  have hze := issued_entry hwst
  have hzo (j : Nat) (hne : j ≠ je) := w.issued_others hne
  obtain ⟨z, hz, hze, hzo, hzeq⟩ : ∃ z, w.issued je = z ∧ z.entry je = { w.entry je with st := .issued, since := w.ts }
      ∧ (∀ j, j ≠ je → z.entry j = w.entry j) ∧ z = { w with jnl := z.jnl, hub := z.hub } := ⟨_, rfl, hze, hzo, w.issued_eq je⟩
  have hports : z.ports = v.ports := by rw [hzeq, hwc.eq]
  have hkind : (z.entry je).kind = (s.entry je).kind := by rw [hze, hwc.entry, hve]
  have hsend := sendFrames_out (s := z) (x := reqTx x (s.pieceFrames je o a e)) (p := p) rfl (by
    rw [port_congr hports, opened_statusQ ho.opened, hq])
  have hrun : s.openPiece p d je x o a e = z.sendFrames p (reqTx x (s.pieceFrames je o a e)) := by
    unfold openPiece
    dsimp only
    rw [hlock, Bool.false_or, Bool.false_or, hgate]
    simp only [Bool.not_true, Bool.false_eq_true, if_false]
    rw [hv, hw, hz]
    unfold pieceFrames
    rw [burst_congr hkind, burst_congr hkind]
    split <;> rfl
  have hops : z.ops = w.ops := by rw [hzeq]
  have hout : z.outp = s.outp := by rw [hzeq, hwc.eq, hveq]
  refine ⟨_, hrun, ?_, ?_, ?_, fun j hj => ⟨?_, ?_⟩, ?_, ?_⟩
  · rw [hsend]
    exact opened_congr ho.opened (by rw [hzeq, hwc.eq]) hports
  · rw [hsend, hout]
    rfl
  · rw [hsend]
    exact congrArg JEntry.st hze
  · rw [hsend]
    exact (hzo j hj).trans ((hwc.entry j).trans (hve j))
  · rw [hsend]
    exact (op?_congr hops j).trans ((hwc.ops j hj).trans (by rw [hveq]; rfl))
  · obtain ⟨y, hy, hyw⟩ := hwc.op
    rw [hsend]
    exact ⟨y, (op?_congr hops je).trans hy, hyw⟩
  · rw [hsend]
    have hkeep {y y' : State} (h : y = y') := congrArg (fun y : State => { y with
      daddrs := z.daddrs, ports := z.ports, jnl := z.jnl, ops := z.ops, hub := z.hub
      outp := z.outp ++ (reqTx x (s.pieceFrames je o a e)).frames.map fun f => Output.frame p (reqTx x (s.pieceFrames je o a e)).member (sealFrame f) }) h
    have h1 := hkeep hzeq
    have h2 := hkeep hwc.eq
    have h3 := hkeep hveq
    exact h1.trans (h2.trans h3)

theorem openHead_opens {s : State} {p d je a e : Nat} {x : XReq} {o : Op} (hk : x.kind = .rd ∨ x.kind = .wr) (hje : x.je = some je)
    (hq : (s.port p).statusQ = []) (ho : s.op? je = some o) (hcur : o.cur = some (a, e)) (hready : pieceReady o a e = true)
    (hst : (s.entry je).st = .admitted) (hmay : s.pieceMay je o a e)
    (hj : s.judge p o.ident (d * 2 ^ 32 + a) (d * 2 ^ 32 + e) (!o.wr) o.wr = .ok) :
    ∃ t, s.openHead p d x = t ∧ s.opened t p d { req := x, pieceA := a, pieceE := e }
      ∧ t.outp = s.outp ++ (s.pieceFrames je o a e).map (fun f => .frame p 0 (sealFrame f)) ∧ s.pieceOpens t je o
      ∧ t = { s with daddrs := t.daddrs, ports := t.ports, jnl := t.jnl, ops := t.ops, hub := t.hub, outp := t.outp } := by
  obtain ⟨htake, hcross⟩ := hmay
  have htc := takePiece_carries ho a e
  obtain ⟨u, hu, huc⟩ : ∃ u, s.takePiece je o a e = (true, u) ∧ s.Carries u je o := ⟨_, Prod.ext htake rfl, htc⟩
  obtain ⟨o1, ho1, hw1⟩ := huc.op
  have hmayu : o.crossed = true ∨ u.byEngine je = false ∨ (u.entry je).cls ≠ 0 := by
    unfold byEngine
    rw [huc.entry]
    exact hcross
  obtain ⟨hgo, hcc⟩ := crossPiece_carries ho1 p a e hmayu
  obtain ⟨v, hv, hvc⟩ : ∃ v, u.crossPiece p je o a e = (true, v) ∧ u.Carries v je o1 := ⟨_, Prod.ext hgo rfl, hcc⟩
  have hsv := huc.trans ho1 hvc
  obtain ⟨o2, ho2, hw2⟩ := hsv.op
  have hports : v.ports = s.ports := by rw [hsv.eq]
  have hjudge : v.judge p o.ident (d * 2 ^ 32 + a) (d * 2 ^ 32 + e) (!o.wr) o.wr = .ok :=
    (judge_congr (by rw [hsv.eq]) (by rw [hsv.eq]) (by rw [hsv.eq]) ..).trans hj
  obtain ⟨t, ht, hopen, hout, htst, hothers, ⟨o3, ho3, hw3⟩, heq⟩ := openPiece_opens (x := x) ho2 (by rcases hk with h | h <;> rw [h] <;> decide)
    (by rw [port_congr hports]; exact hq) (by rw [hsv.entry]; exact hst) hjudge
  have hframes : v.pieceFrames je o a e = s.pieceFrames je o a e := by
    have hburst (k : Nat) : v.burst k je o a e = s.burst k je o a e := burst_congr (congrArg JEntry.kind (hsv.entry je)) k o a e
    unfold pieceFrames
    rw [hburst, hburst]
  have hw := hw2.trans hw3
  refine ⟨t, ?_, ?_, ?_, ⟨htst, fun j hj => ⟨(hothers j hj).1.trans (hsv.entry j), (hothers j hj).2.trans (hsv.ops j hj)⟩,
    o3, ho3, hw.cur, hw.pos, hw.data, hw.parts, hw.wr⟩, ?_⟩
  · unfold openHead
    rcases hk with h | h <;> simp only [h, hje, ho, hcur, hready, hu, hv, Bool.not_true, Bool.false_eq_true, if_false, if_true, ht]
  · obtain ⟨hdad, hdothers, hport, hpothers⟩ := hopen
    have hdaddrs : v.daddrs = s.daddrs := by rw [hsv.eq]
    refine ⟨by rw [hdad, daddr_congr hdaddrs], fun k hk => ?_, by rw [hport, port_congr hports], fun q hq => (hpothers q hq).trans (port_congr hports q)⟩
    rw [hdothers k hk, hdaddrs]
  · rw [hout, hframes, show v.outp = s.outp by rw [hsv.eq]]
  · have h1 := congrArg (fun z : State => { z with
      daddrs := t.daddrs, ports := t.ports, jnl := t.jnl, ops := t.ops, hub := t.hub, outp := t.outp }) hsv.eq
    exact heq.trans h1

/-! ### Frames of a device -/

theorem data_waits {s : State} {p : Fin 144} {f : Frame} {x : XOpen} (hr : s.portRecv p.val = true) (hcrc : s.crcOk f = true)
    (hst : (s.daddr p.val f.daddr.toNat).st = .cmd) (ho : (s.daddr p.val f.daddr.toNat).opened = some x) (hk : x.req.kind = .rd)
    (hnone : x.gotData = none)
    (hok : dataOk (pieceWords x.pieceA x.pieceE) (pieceFbe x.pieceA x.pieceE) (pieceLbe x.pieceA x.pieceE) f = true) :
    ∃ t, exec (.data p f) s = .next t
      ∧ t.daddr p.val f.daddr.toNat = { s.daddr p.val f.daddr.toNat with opened := some { x with gotData := some f.payload } }
      ∧ s.sameDaddrsBut t p.val f.daddr.toNat ∧ t = { s.start with daddrs := t.daddrs } := by
  have hone := s.start.oneDaddr_modDaddr p.val f.daddr.toNat fun q => { q with opened := some { x with gotData := some f.payload } }
  have hrun : exec (.data p f) s
      = .next (s.start.modDaddr p.val f.daddr.toNat fun q => { q with opened := some { x with gotData := some f.payload } }) := by
    refine congrArg Host.Outcome.next ?_
    dsimp only
    rw [show s.start.portRecv p.val = true from hr, show s.start.crcOk f = true from hcrc,
      show (s.start.daddr p.val f.daddr.toNat).st = .cmd from hst, show (s.start.daddr p.val f.daddr.toNat).opened = some x from ho]
    simp only [Bool.not_true, Bool.false_eq_true, if_false]
    rw [if_pos ⟨.inl hk, by rw [hnone]; rfl⟩, if_pos hok]
  exact ⟨_, hrun, hone.daddr, hone.others, hone.eq⟩

theorem blockAt_crcErr {p : Nat} (hp : p < 144) : blockAt (regOff Fld.gptErrCnt_crc_err.id p) = some .gpt := by
  have hall : ∀ p < 144, blockAt (regOff Fld.gptErrCnt_crc_err.id p) = some .gpt := by decide +kernel
  exact hall p hp

/-- A frame with a bad CRC at a device address that is idle is counted, and changes nothing else. -/
theorem frameFails_counts {s : State} {p : Fin 144} {d : Nat} (hm : s.mode ≠ .reset) (hx : s.exOn 10 = false) (hmute : s.mute 0x041 = true)
    (hst : (s.daddr p.val d).st = .idle) :
    ∃ t, s.start.frameFails p.val d true = t
      ∧ t.f Fld.gptErrCnt_crc_err p.val = sat Fld.gptErrCnt_crc_err (s.f Fld.gptErrCnt_crc_err p.val + 1) ∧ s.counted t 0x041
      ∧ s.onlyBlocks t [.gpt, .flt] ∧ t = { s.start with regs := t.regs, flt := t.flt } := by
  obtain ⟨u, hu, hoff, hf, honly⟩ : ∃ u, s.start.incF Fld.gptErrCnt_crc_err p.val = u ∧ u.offRegs = s.start.offRegs
      ∧ u.f Fld.gptErrCnt_crc_err p.val = sat Fld.gptErrCnt_crc_err (s.f Fld.gptErrCnt_crc_err p.val + 1) ∧ s.onlyBlocks u [.gpt] :=
    ⟨_, rfl, offRegs_incF .., f_incF_sat s.start (by decide) 1 _, (onlyBlocks.refl s _).incF (blockAt_crcErr p.isLt) (by decide) 1⟩
  have hueq : u = { s.start with regs := u.regs } := congrArg (fun z : State => { z with regs := u.regs }) hoff
  obtain ⟨hraised, hcounted⟩ := raise_after (s := s) (u := u) (src := 0x041) (by rw [hueq]; exact hm) (by decide) hmute (by rw [hueq]) honly (by decide)
    p.val none none 0
  obtain ⟨t, ht⟩ : ∃ t, u.raise 0x041 p.val = t := ⟨_, rfl⟩
  rw [ht] at hraised hcounted
  have hteq := hraised.eq
  have hidle : (t.daddr p.val d).st = .idle := by rw [hteq, hueq]; exact hst
  refine ⟨t, ?_, (hraised.only.f_eq (blockAt_crcErr p.isLt) (by decide)).trans hf, hcounted,
    (honly.mono (by decide)).trans (hraised.only.mono (by decide)), ?_⟩
  · unfold frameFails crcBad
    rw [if_pos rfl, exUse_off hx, hu, ht]
    unfold badFrame
    dsimp only
    rw [hidle]
  · have h1 := congrArg (fun z : State => { z with regs := t.regs, flt := t.flt }) hueq
    exact hteq.trans h1

theorem badCrc_counts {s : State} {p : Fin 144} {f : Frame} (hr : s.portRecv p.val = true) (hbad : frameGood f = false) (hx : s.exOn 10 = false)
    (hmute : s.mute 0x041 = true) (hst : (s.daddr p.val f.daddr.toNat).st = .idle) :
    ∃ t, exec (.data p f) s = .next t ∧ exec (.status p f) s = .next t ∧ exec (.retry p f) s = .next t
      ∧ t.f Fld.gptErrCnt_crc_err p.val = sat Fld.gptErrCnt_crc_err (s.f Fld.gptErrCnt_crc_err p.val + 1) ∧ s.counted t 0x041
      ∧ s.onlyBlocks t [.gpt, .flt] ∧ t = { s.start with regs := t.regs, flt := t.flt } := by
  have hworks : s.works = true := by
    unfold portRecv at hr
    exact (Bool.and_eq_true _ _ ▸ hr).1
  obtain ⟨t, ht, hcount⟩ := frameFails_counts (not_reset_of_works hworks) hx hmute hst
  have hnot : ¬ (!s.start.portRecv p.val) = true := by
    rw [show s.start.portRecv p.val = true from hr]
    decide
  have hcrc : (!s.start.crcOk f) = true := by
    unfold crcOk
    rw [hbad]
    rfl
  exact ⟨t, congrArg Host.Outcome.next ((if_neg hnot).trans ((if_pos hcrc).trans ht)),
    congrArg Host.Outcome.next ((if_neg hnot).trans ((if_pos hcrc).trans ht)),
    congrArg Host.Outcome.next ((if_neg hnot).trans ((if_pos hcrc).trans ht)), hcount⟩

/-! ### The closing STATUS of a direct read -/

theorem opCpl_congr {s t : State} (h : t.regs = s.regs) (r : ReqHdr) (e : JEntry) (o : Op) : t.opCpl r e o = s.opCpl r e o := by
  have hid : t.bridgeId = s.bridgeId := by rw [bridgeId, f_congr h, bridgeId]
  unfold opCpl cplPkt cplHdr
  rw [hid]

/-- Once an exchange has closed at a device address, the direct operation whose far side ends there completes. -/
theorem closed_completes {s c z : State} {p d je : Nat} {a : Daddr} {o : Op} {h : ReqHdr} (hone : s.OneDaddr c p d a) (hz : c.OneOp z je)
    (ho : z.op? je = some o) (hh : o.hdr = some h) (hctx : o.ctx = none) (hsilent : o.silent = false) (hkind : (z.entry je).kind < 2)
    (hpst : (z.entry je).pst = false) (hcls : (z.entry je).cls ≠ 0) (hlink : (z.entry je).link = (s.entry je).link) :
    ∃ t, z.farEnd je = t ∧ .packet (s.route (s.entry je).link) (s.opCpl h (z.entry je) o) ∈ t.outp
      ∧ t.entry je = { z.entry je with st := .completed, since := z.ts } ∧ t.op? je = none ∧ t.daddr p d = a ∧ s.sameDaddrsBut t p d
      ∧ s.sameOpsBut t je ∧ t.regs = s.regs := by
  obtain ⟨t, ht, hc, heq⟩ := farEnd_completes ho hh hctx hsilent hkind hpst (fun h0 => hcls (by rw [h0])) hcls
  have hlinks : z.links = s.links := by rw [hz.eq, hone.eq]
  have hregs : z.regs = s.regs := by rw [hz.eq, hone.eq]
  have hdad : t.daddrs = c.daddrs := by rw [heq, show (z.dequeueOp je o.port).daddrs = z.daddrs from rfl, hz.eq]
  have hroute : z.route (z.entry je).link = s.route (s.entry je).link := by rw [hlink, route, link_congr hlinks, route]
  have hsent := hc.sent
  rw [hroute, opCpl_congr hregs] at hsent
  refine ⟨t, ht, hsent, hc.entry, hc.op, (daddr_congr hdad ..).trans hone.daddr, fun k hk => ?_, fun j hj => ⟨?_, ?_⟩, ?_⟩
  · rw [hdad]
    exact hone.others k hk
  · rw [(hc.others j hj).1, (hz.others j hj).1, hone.eq]
    rfl
  · rw [(hc.others j hj).2, (hz.others j hj).2, hone.eq]
    rfl
  · rw [show t.regs = z.regs by rw [heq]; rfl, hregs]

/-- What the good data of a piece makes of its operation. -/
def readOn (o : Op) (a e n : Nat) (d : List Byte) : Op :=
  { o with closed := e + 1 - o.cut.base, cur := none, crossed := false, took := false, parts := o.parts ++ [(a - o.cut.base, (d.drop (a % 4)).take n)] }

theorem pieceGood_reads {s : State} {je : Nat} {o : Op} (ho : s.op? je = some o) (hwr : o.wr = false) (hk : (s.entry je).kind < 2) (a e n : Nat)
    (d : List Byte) :
    ∃ u, s.pieceGood je a e n (some d) = u ∧ u.op? je = some (readOn o a e n d)
      ∧ u.entry je = ({ s.entry je with progress := (s.entry je).progress + n } : JEntry).stamp (s.entry je) s.ts ∧ s.OneOp u je := by
  obtain ⟨v, hv, hve, hvo, hvone⟩ : ∃ v, s.modEntry je (fun x => { x with progress := x.progress + n }) = v
      ∧ v.entry je = ({ s.entry je with progress := (s.entry je).progress + n } : JEntry).stamp (s.entry je) s.ts ∧ v.op? je = some o ∧ s.OneOp v je :=
    ⟨_, rfl, s.entry_modEntry_same je fun x => { x with progress := x.progress + n }, ho, oneOp_modEntry ..⟩
  have hmod := v.op?_modOp_same je fun o => readOn o a e n d
  rw [hvo] at hmod
  obtain ⟨u, hu, huo, hue, huone⟩ : ∃ u, v.modOp je (fun o => readOn o a e n d) = u ∧ u.op? je = some (readOn o a e n d) ∧ u.entry je = v.entry je
      ∧ v.OneOp u je := ⟨_, rfl, hmod, rfl, oneOp_modOp ..⟩
  have hukind : (u.entry je).kind < 2 := by
    rw [hue, hve]
    unfold JEntry.stamp
    split <;> exact hk
  refine ⟨u, ?_, huo, hue.trans hve, hvone.trans huone⟩
  have hcross : u.readCross je n (readOn o a e n d) = u := by
    have hne7 : ¬ (u.entry je).kind = 7 := by omega
    unfold readCross
    dsimp only
    rw [if_neg hne7, if_pos hukind]
  have hreturn : u.returnGrains je = u := by
    have hw : (!(readOn o a e n d).wr) = true := by
      rw [show (readOn o a e n d).wr = o.wr from rfl, hwr]
      rfl
    unfold returnGrains
    rw [huo]
    exact if_pos hw
  unfold pieceGood
  dsimp only
  rw [hv]
  unfold readOn at hu huo hcross
  rw [hu, huo]
  dsimp only
  rw [hcross, hreturn]

theorem goOn_ends {s : State} {je : Nat} {o : Op} (ho : s.op? je = some o) (hx : o.x = none) (hstop : o.stop = false)
    (hpiece : o.cut.piece o.maxb o.bound (s.pieceEdge o) o.pos = none) :
    s.goOn je = (s.modOp je fun o => { o with cur := none, stop := true }).farEnd je := by
  have hmod := s.op?_modOp_same je fun o => { o with cur := none, stop := true }
  rw [ho] at hmod
  unfold goOn nextPiece
  rw [ho]
  dsimp only
  rw [hstop, if_neg Bool.false_ne_true, hpiece]
  dsimp only
  rw [hmod]
  dsimp only [Option.map_some]
  rw [hx]
  rfl

theorem stamp_keeps (e old : JEntry) (t : Nat) :
    (e.stamp old t).kind = e.kind ∧ (e.stamp old t).pst = e.pst ∧ (e.stamp old t).cls = e.cls ∧ (e.stamp old t).err = e.err
      ∧ (e.stamp old t).link = e.link ∧ (e.stamp old t).progress = e.progress ∧ (e.stamp old t).retry = e.retry := by
  unfold JEntry.stamp
  split <;> exact ⟨rfl, rfl, rfl, rfl, rfl, rfl, rfl⟩

theorem oneDaddr_close {s : State} {p d : Nat} (hl : (s.daddr p d).losses < 4) :
    s.OneDaddr (s.closeDaddr p d) p d { s.daddr p d with st := .idle, opened := none, up := none, swallow := none } := by
  have hone := s.oneDaddr_modDaddr p d fun a => { a with st := if 4 ≤ a.losses then .reserved else .idle, opened := none, up := none, swallow := none }
  rw [if_neg (Nat.not_le.mpr hl)] at hone
  exact hone

theorem status_closes {s : State} {p : Fin 144} {f : Frame} {x : XOpen} {je : Nat} (hr : s.portRecv p.val = true) (hcrc : s.crcOk f = true)
    (hst : (s.daddr p.val f.daddr.toNat).st = .cmd) (ho : (s.daddr p.val f.daddr.toNat).opened = some x) (hk : x.req.kind = .rd)
    (hj : x.req.je = some je) (hlen : f.payload.length = 32) (hdata : bit 15 (fieldAt 0 2 f.payload) = true ∨ x.gotData ≠ none) :
    exec (.status p f) s
      = .next ((s.start.closeDaddr p.val f.daddr.toNat).pieceResult je x.pieceA x.pieceE f.payload x.gotData) := by
  have hwell : ¬ (x.req.kind = .poll ∨ f.payload.length ≠ 32) := by
    rw [hk, hlen]
    exact fun h => h.elim (fun h => nomatch h) fun h => h rfl
  have hgot : ¬ ((!bit 15 (fieldAt 0 2 f.payload)) = true ∧ x.gotData.isNone = true) := by
    rintro ⟨hbit, hnone⟩
    rcases hdata with h | h
    · rw [h] at hbit
      exact nomatch hbit
    · exact h (Option.isNone_iff_eq_none.mp hnone)
  refine congrArg Host.Outcome.next ?_
  dsimp only
  rw [show s.start.portRecv p.val = true from hr, show s.start.crcOk f = true from hcrc,
    show (s.start.daddr p.val f.daddr.toNat).st = .cmd from hst, show (s.start.daddr p.val f.daddr.toNat).opened = some x from ho]
  simp only [Bool.not_true, Bool.false_eq_true, if_false]
  rw [if_neg hwell]
  unfold statusCloses
  dsimp only
  rw [hk, hj]
  exact if_neg hgot

theorem status_completes {s : State} {p : Fin 144} {f : Frame} {x : XOpen} {je : Nat} {o : Op} {h : ReqHdr} {dt : List Byte}
    (hr : s.portRecv p.val = true) (hcrc : s.crcOk f = true) (hst : (s.daddr p.val f.daddr.toNat).st = .cmd)
    (hopen : (s.daddr p.val f.daddr.toNat).opened = some x) (hloss : (s.daddr p.val f.daddr.toNat).losses < 4) (hk : x.req.kind = .rd)
    (hj : x.req.je = some je) (hlen : f.payload.length = 32) (hlast : s.lastPiece je o h) (hwr : o.wr = false) (hd : x.gotData = some dt)
    (hbit : bit 15 (fieldAt 0 2 f.payload) = false) :
    ∃ t, exec (.status p f) s = .next t
      ∧ .packet (s.route (s.entry je).link) (.cpld (s.cplHdr h 0 h.len.toNat) (swapBytes o.cut.u (placeParts o.cut.n
          (o.parts ++ [(x.pieceA - o.cut.base, (dt.drop (x.pieceA % 4)).take (x.pieceE + 1 - x.pieceA))])))) ∈ t.outp
      ∧ (t.entry je).st = .completed ∧ (t.entry je).progress = (s.entry je).progress + (x.pieceE + 1 - x.pieceA) ∧ t.op? je = none
      ∧ (t.daddr p.val f.daddr.toNat).st = .idle ∧ s.sameDaddrsBut t p.val f.daddr.toNat ∧ s.sameOpsBut t je ∧ t.regs = s.regs := by
  obtain ⟨⟨ho, hh, hx, hsilent, hctx, hkind, hpst, hcls, herr⟩, hstop, hpiece⟩ := hlast
  obtain ⟨c, hc, hone⟩ : ∃ c, s.start.closeDaddr p.val f.daddr.toNat = c ∧ s.start.OneDaddr c p.val f.daddr.toNat _ :=
    ⟨_, rfl, oneDaddr_close (s := s.start) hloss⟩
  have hceq := hone.eq
  have hce : c.entry je = s.entry je := by rw [hceq]; rfl
  have hco : c.op? je = some o := by rw [hceq]; exact ho
  obtain ⟨u, hu, huo, hue, huone⟩ := pieceGood_reads hco hwr (by rw [hce]; exact hkind) x.pieceA x.pieceE (x.pieceE + 1 - x.pieceA) dt
  have hueq := huone.eq
  rw [hce] at hue
  obtain ⟨hskind, hspst, hscls, hserr, hslink, hsprog, -⟩ := stamp_keeps { s.entry je with progress := (s.entry je).progress + (x.pieceE + 1 - x.pieceA) } (s.entry je) c.ts
  rw [← hue] at hskind hspst hscls hserr hslink hsprog
  have hgates : s.sameGates u := sameGates_of_regs (by rw [hueq, hceq]; rfl) (by rw [hueq, hceq]; rfl) (by rw [hueq, hceq]; rfl)
  have hgo := goOn_ends huo hx hstop ((piece_congr (o := o) hgates ⟨rfl, rfl, rfl, rfl, rfl, rfl, rfl⟩ o.pos).trans hpiece)
  have hmod := u.op?_modOp_same je fun o => { o with cur := none, stop := true }
  rw [huo] at hmod
  obtain ⟨z, hz, hzo, hze, hzone⟩ : ∃ z, u.modOp je (fun o => { o with cur := none, stop := true }) = z
      ∧ z.op? je = some { readOn o x.pieceA x.pieceE (x.pieceE + 1 - x.pieceA) dt with cur := none, stop := true } ∧ z.entry je = u.entry je
      ∧ c.OneOp z je := ⟨_, rfl, hmod, rfl, huone.trans (oneOp_modOp ..)⟩
  obtain ⟨t, ht, hsent, hent, hop, hdad, hdothers, hothers, hregs⟩ := closed_completes (h := h) hone hzone hzo hh hctx hsilent
    (by rw [hze, hskind]; exact hkind) (by rw [hze, hspst]; exact hpst) (by rw [hze, hscls]; exact hcls) (by rw [hze, hslink]; rfl)
  have hcpl : s.start.opCpl h (z.entry je) { readOn o x.pieceA x.pieceE (x.pieceE + 1 - x.pieceA) dt with cur := none, stop := true }
      = .cpld (s.cplHdr h 0 h.len.toNat) (swapBytes o.cut.u (placeParts o.cut.n
          (o.parts ++ [(x.pieceA - o.cut.base, (dt.drop (x.pieceA % 4)).take (x.pieceE + 1 - x.pieceA))]))) := by
    have hgood : (z.entry je).err = 0 ∧ (!o.wr) = true := ⟨by rw [hze, hserr]; exact herr, by rw [hwr]; rfl⟩
    exact if_pos hgood
  rw [hcpl] at hsent
  refine ⟨t, ?_, hsent, by rw [hent], by rw [hent, hze]; exact hsprog, hop, by rw [hdad], hdothers, hothers, hregs⟩
  rw [status_closes hr hcrc hst hopen hk hj hlen (.inr (by rw [hd]; exact Option.some_ne_none dt)), hc, hd]
  refine congrArg Host.Outcome.next ?_
  unfold pieceResult
  rw [hco]
  dsimp only
  rw [hbit, if_neg Bool.false_ne_true, hx]
  dsimp only
  rw [hu, hgo, hz, ht]

theorem status_fails {s : State} {p : Fin 144} {f : Frame} {x : XOpen} {je : Nat} {o : Op} {h : ReqHdr}
    (hr : s.portRecv p.val = true) (hcrc : s.crcOk f = true) (hst : (s.daddr p.val f.daddr.toNat).st = .cmd)
    (hopen : (s.daddr p.val f.daddr.toNat).opened = some x) (hloss : (s.daddr p.val f.daddr.toNat).losses < 4) (hk : x.req.kind = .rd)
    (hj : x.req.je = some je) (hlen : f.payload.length = 32) (hlast : s.lastPiece je o h)
    (hbit : bit 15 (fieldAt 0 2 f.payload) = true) :
    ∃ t, exec (.status p f) s = .next t ∧ .packet (s.route (s.entry je).link) (.cpl (s.cplHdr h 3 4) f.payload) ∈ t.outp
      ∧ (t.entry je).st = .completed ∧ (t.entry je).err = 3 ∧ t.op? je = none
      ∧ (t.daddr p.val f.daddr.toNat).st = .idle ∧ s.sameDaddrsBut t p.val f.daddr.toNat ∧ s.sameOpsBut t je ∧ t.regs = s.regs := by
  obtain ⟨⟨ho, hh, hx, hsilent, hctx, hkind, hpst, hcls, herr⟩, -, -⟩ := hlast
  obtain ⟨c, hc, hone⟩ : ∃ c, s.start.closeDaddr p.val f.daddr.toNat = c ∧ s.start.OneDaddr c p.val f.daddr.toNat _ :=
    ⟨_, rfl, oneDaddr_close (s := s.start) hloss⟩
  have hceq := hone.eq
  have hce : c.entry je = s.entry je := by rw [hceq]; rfl
  have hco : c.op? je = some o := by rw [hceq]; exact ho
  have hmodx := c.op?_modOp_same je fun o => { o with x := o.x.map fun x => { x with last := f.payload } }
  rw [hco] at hmodx
  obtain ⟨b, hb, hbo, hbe, hbone⟩ : ∃ b, (c.modX je fun x => { x with last := f.payload }) = b
      ∧ b.op? je = some { o with x := o.x.map fun x => { x with last := f.payload } } ∧ b.entry je = c.entry je ∧ c.OneOp b je :=
    ⟨_, rfl, hmodx, rfl, oneOp_modOp ..⟩
  have hmod1 := b.op?_modOp_same je fun o => { o with failDone := x.pieceE + 1 - x.pieceA - fieldAt 2 2 f.payload }
  rw [hbo] at hmod1
  obtain ⟨v, hv, hvo, hve, hvone⟩ : ∃ v, b.modOp je (fun o => { o with failDone := x.pieceE + 1 - x.pieceA - fieldAt 2 2 f.payload }) = v
      ∧ v.op? je = some { o with x := o.x.map fun x => { x with last := f.payload }, failDone := x.pieceE + 1 - x.pieceA - fieldAt 2 2 f.payload }
      ∧ v.entry je = c.entry je ∧ c.OneOp v je := ⟨_, rfl, hmod1, hbe, hbone.trans (oneOp_modOp ..)⟩
  obtain ⟨w, hw, hwe, hwo, hwone⟩ := fail_records hvo (by rw [hve, hce]; exact herr) .de 0 x.pieceA f.payload
  rw [hve, hce, show failCode (s.entry je).kind .de = 3 from if_pos (by omega)] at hwe
  have hmod2 := w.op?_modOp_same je fun o => { o with stop := true, cur := none }
  rw [hwo] at hmod2
  obtain ⟨z, hz, hzo, hze, hzone⟩ : ∃ z, w.modOp je (fun o => { o with stop := true, cur := none }) = z ∧ z.op? je = _ ∧ z.entry je = w.entry je
      ∧ c.OneOp z je := ⟨_, rfl, hmod2, rfl, hvone.trans (hwone.trans (oneOp_modOp ..))⟩
  obtain ⟨t, ht, hsent, hent, hop, hdad, hdothers, hothers, hregs⟩ := closed_completes (h := h) hone hzone hzo hh hctx hsilent
    (by rw [hze, hwe]; exact hkind) (by rw [hze, hwe]; exact hpst) (by rw [hze, hwe]; exact hcls) (by rw [hze, hwe]; rfl)
  rw [hze, hwe] at hent hsent
  refine ⟨t, ?_, hsent, by rw [hent], by rw [hent], hop, by rw [hdad], hdothers, hothers, hregs⟩
  rw [status_closes hr hcrc hst hopen hk hj hlen (.inl hbit), hc]
  refine congrArg Host.Outcome.next ?_
  unfold pieceResult
  rw [hco]
  dsimp only
  rw [hbit, if_pos rfl, hb, hv]
  unfold endAtPiece
  rw [hw, hz, ht]

/-! ### A RETRY of the device -/

theorem retry_requeues {s : State} {p : Fin 144} {f : Frame} {x : XOpen} {je : Nat} (hr : s.portRecv p.val = true) (hcrc : s.crcOk f = true)
    (hst : (s.daddr p.val f.daddr.toNat).st = .cmd) (hopen : (s.daddr p.val f.daddr.toNat).opened = some x)
    (hlock : (s.daddr p.val f.daddr.toNat).lock = .none) (hsq : (s.daddr p.val f.daddr.toNat).squashWait = false)
    (hloss : (s.daddr p.val f.daddr.toNat).losses < 4) (hk : x.req.kind = .rd ∨ x.req.kind = .wr) (hj : x.req.je = some je)
    (hlimit : x.req.refusals + 1 < s.f Fld.gptRetryCtl_retry_limit p.val) :
    ∃ t, exec (.retry p f) s = .next t
      ∧ t.f Fld.gptRetryCnt_retry_rx p.val = sat Fld.gptRetryCnt_retry_rx (s.f Fld.gptRetryCnt_retry_rx p.val + 1)
      ∧ (t.entry je).retry = min ((s.entry je).retry + 1) 255
      ∧ t.daddr p.val f.daddr.toNat = { s.daddr p.val f.daddr.toNat with st := .idle, opened := none, up := none, swallow := none }
      ∧ (t.port p.val).queue = insertReq f.daddr.toNat
          { x.req with refusals := x.req.refusals + 1, notBefore := s.ts + hintTicks f.arg.toNat } (s.port p.val).queue
      ∧ s.sameDaddrsBut t p.val f.daddr.toNat ∧ s.samePortsBut t p.val ∧ (∀ j, j ≠ je → t.entry j = s.entry j)
      ∧ s.onlyFields t [(Fld.gptRetryCnt_retry_rx, p.val)]
      ∧ t = { s.start with daddrs := t.daddrs, ports := t.ports, jnl := t.jnl, hub := t.hub, regs := t.regs } := by
  obtain ⟨u, hu, hoff, hf, hkept, honly⟩ : ∃ u, s.start.incF Fld.gptRetryCnt_retry_rx p.val = u ∧ u.offRegs = s.start.offRegs
      ∧ u.f Fld.gptRetryCnt_retry_rx p.val = sat Fld.gptRetryCnt_retry_rx (s.f Fld.gptRetryCnt_retry_rx p.val + 1)
      ∧ u.f Fld.gptRetryCtl_retry_limit p.val = s.f Fld.gptRetryCtl_retry_limit p.val ∧ s.onlyFields u [(Fld.gptRetryCnt_retry_rx, p.val)] :=
    ⟨_, rfl, offRegs_incF .., f_incF_sat s.start (by decide) 1 _, f_incF_page s.start (by decide) 1 _,
      (onlyFields.refl s _).incF (List.mem_singleton_self _) (by decide) (wordsApart_singleton _ _) 1⟩
  have hueq : u = { s.start with regs := u.regs } := congrArg (fun z : State => { z with regs := u.regs }) hoff
  obtain ⟨e, he, hee, heothers, heeq⟩ : ∃ e, (u.modEntry je fun e => { e with retry := min (e.retry + 1) 255 }) = e
      ∧ e.entry je = ({ u.entry je with retry := min ((u.entry je).retry + 1) 255 } : JEntry).stamp (u.entry je) u.ts
      ∧ (∀ j, j ≠ je → e.entry j = u.entry j) ∧ e = { u with jnl := e.jnl, hub := e.hub } :=
    ⟨_, rfl, u.entry_modEntry_same je fun e => { e with retry := min (e.retry + 1) 255 }, fun j hj => u.entry_modEntry_ne hj _, rfl⟩
  have hed : e.daddr p.val f.daddr.toNat = s.daddr p.val f.daddr.toNat := by rw [heeq, hueq]; rfl
  obtain ⟨c, hc, hone⟩ : ∃ c, e.closeDaddr p.val f.daddr.toNat = c ∧ e.OneDaddr c p.val f.daddr.toNat _ :=
    ⟨_, rfl, oneDaddr_close (s := e) (by rw [hed]; exact hloss)⟩
  have hcdad := hone.daddr
  rw [hed] at hcdad
  obtain ⟨t, ht, hqueues⟩ : ∃ t, c.enqueue p.val f.daddr.toNat { x.req with refusals := x.req.refusals + 1, notBefore := s.ts + hintTicks f.arg.toNat } = t
      ∧ t = { c with ports := t.ports } ∧ (t.port p.val).queue
        = insertReq f.daddr.toNat { x.req with refusals := x.req.refusals + 1, notBefore := s.ts + hintTicks f.arg.toNat } (c.port p.val).queue
      ∧ c.samePortsBut t p.val := by
    have hport := c.port_modPort_same p.val fun q => { q with
      queue := insertReq f.daddr.toNat { x.req with refusals := x.req.refusals + 1, notBefore := s.ts + hintTicks f.arg.toNat } q.queue }
    have hports (q : Nat) (hq : q ≠ p.val) := c.port_modPort_ne hq fun q => { q with
      queue := insertReq f.daddr.toNat { x.req with refusals := x.req.refusals + 1, notBefore := s.ts + hintTicks f.arg.toNat } q.queue }
    exact ⟨_, rfl, rfl, congrArg Port.queue hport, hports⟩
  obtain ⟨hteq, hqueue, hpothers⟩ := hqueues
  have hrun : exec (.retry p f) s = .next t := by
    have hlim : ¬ u.f Fld.gptRetryCtl_retry_limit p.val ≤ x.req.refusals + 1 := by
      rw [hkept]
      exact Nat.not_le.mpr hlimit
    have hts : u.ts = s.ts := by rw [hueq]; rfl
    refine congrArg Host.Outcome.next ?_
    dsimp only
    rw [show s.start.portRecv p.val = true from hr, show s.start.crcOk f = true from hcrc,
      show (s.start.daddr p.val f.daddr.toNat).st = .cmd from hst, show (s.start.daddr p.val f.daddr.toNat).opened = some x from hopen]
    simp only [Bool.not_true, Bool.false_eq_true, if_false]
    rw [if_pos (.inl hlock), show (s.start.daddr p.val f.daddr.toNat).squashWait = false from hsq, if_neg Bool.false_ne_true, hu]
    rw [← ht]
    unfold refusedByDevice
    dsimp only
    rw [hj, hts]
    rcases hk with hk | hk
    · rw [hk]
      dsimp only
      rw [he, if_neg hlim, if_neg (by decide : ¬ XKind.rd = XKind.lockRd), hc]
    · rw [hk]
      dsimp only
      rw [he, if_neg hlim, if_neg (by decide : ¬ XKind.wr = XKind.lockRd), hc]
  have hjnl : t.jnl = e.jnl := by rw [hteq, hone.eq]
  have hent (j : Nat) : t.entry j = e.entry j := entry_congr (by rw [hjnl]) j
  have huent (j : Nat) : u.entry j = s.entry j := by rw [hueq]; rfl
  have hdad : t.daddrs = c.daddrs := by rw [hteq]
  have hports : c.ports = s.ports := by rw [hone.eq, heeq, hueq]; rfl
  have hregs : t.regs = u.regs := by rw [hteq, hone.eq, heeq]
  refine ⟨t, hrun, by rw [f_congr hregs, hf], ?_, (daddr_congr hdad ..).trans hcdad, by rw [hqueue, port_congr hports], fun k hk => ?_,
    fun q hq => (hpothers q hq).trans (port_congr hports q), fun j hj => by rw [hent, heothers j hj, huent], honly.congr hregs, ?_⟩
  · rw [hent, hee, huent]
    exact (stamp_keeps _ _ _).2.2.2.2.2.2
  · rw [hdad]
    refine (hone.others k hk).trans ?_
    rw [heeq, hueq]
    rfl
  · have hkeep {a b : State} (h : a = b) := congrArg (fun z : State => { z with
      daddrs := t.daddrs, ports := t.ports, jnl := t.jnl, hub := t.hub, regs := t.regs }) h
    have h1 := hkeep hteq
    have h2 := hkeep hone.eq
    have h3 := hkeep heeq
    have h4 := hkeep hueq
    exact h1.trans (h2.trans (h3.trans h4))

/-- Settles O34: the opening of each kind of exchange, and what each frame of the device does to it. -/
theorem exchangesOpenAndAnswers : Obligations.ExchangesOpenAndAnswers := by
  refine ⟨⟨fun s p d x hopen => ⟨fun hk => ?_, fun hk => ?_, fun je a e o hje ho hcur hready hst hmay => ⟨fun hk hwr hj => ?_, fun hk hwr hj => ?_⟩⟩,
    fun s p d => exchangeOpen_waits⟩, fun s p f x => data_waits, fun s p f => badCrc_counts,
    fun s p f x je o h hr hcrc hst hopen hloss hk hj hlen hlast hwr => ⟨fun dt hd hbit => ?_, fun hbit => ?_⟩, fun s p f x je => retry_requeues⟩
  · obtain ⟨t, ht, h⟩ := openPoll_opens (s := s.start) (d := d.val) hk (opensNow_statusQ hopen) rfl
    exact ⟨t, (exchangeOpen_runs hopen).trans (congrArg Host.Outcome.next ht), h⟩
  · obtain ⟨t, ht, h⟩ := openAck_opens (s := s.start) (d := d.val) hk (opensNow_statusQ hopen) rfl
    exact ⟨t, (exchangeOpen_runs hopen).trans (congrArg Host.Outcome.next ht), h⟩
  · obtain ⟨t, ht, hx, hout, h⟩ := openHead_opens (s := s.start) (d := d.val) (.inl hk) hje (opensNow_statusQ hopen) ho hcur hready hst
      (pieceMay_start hmay) (by rw [hwr]; exact (judge_congr (s := s) (t := s.start) rfl rfl rfl _ _ _ _ (!false) false).trans hj)
    rw [pieceFrames, if_neg (by rw [hwr]; decide)] at hout
    exact ⟨t, (exchangeOpen_runs hopen).trans (congrArg Host.Outcome.next ht), hx, hout, h⟩
  · obtain ⟨t, ht, hx, hout, h⟩ := openHead_opens (s := s.start) (d := d.val) (.inr hk) hje (opensNow_statusQ hopen) ho hcur hready hst
      (pieceMay_start hmay) (by rw [hwr]; exact (judge_congr (s := s) (t := s.start) rfl rfl rfl _ _ _ _ (!true) true).trans hj)
    rw [pieceFrames, if_pos hwr] at hout
    exact ⟨t, (exchangeOpen_runs hopen).trans (congrArg Host.Outcome.next ht), hx, hout, h⟩
  · exact status_completes hr hcrc hst hopen hloss hk hj hlen hlast hwr hd hbit
  · exact status_fails hr hcrc hst hopen hloss hk hj hlen hlast hbit

end State

end Sys2Proof.Machine
end

section
/-! PROOFS. Requests that are malformed or unmapped, and requests in the BCS (R29, R46, R49, R52, R60). -/

namespace Sys2Proof.Machine

namespace State

/-! ### A request that is refused -/

theorem route_takeIn (s : State) (l k : Nat) (p : Packet) : (s.takeIn l p).route k = s.route k := by
  have hmoved : ((s.takeIn l p).link k).moved = (s.link k).moved := by
    by_cases hk : k = l
    · subst hk
      rw [takeIn_link]
    · rw [takeIn, link_modLink_ne s hk]
  rw [route, hmoved, route]

theorem cplPkt_congr {s t : State} (h : t.f Fld.tlkBridgeId_id = s.f Fld.tlkBridgeId_id) (r : ReqHdr) (status : Nat) (rec : List Byte) :
    t.cplPkt r status rec = s.cplPkt r status rec := by
  unfold cplPkt cplHdr bridgeId
  rw [h]

/-- What refusing a request leaves: its completion is out unless it is posted, and nothing but the links has changed. -/
structure Refuses (s t : State) (l : Nat) (h : ReqHdr) (wr : Bool) (status : Nat) : Prop where
  sent : (wr && !h.np) = false → .packet (s.route l) (s.cplPkt h status []) ∈ t.outp
  silent : (wr && !h.np) = true → t.outp = s.outp
  off : t.offLinks = s.offLinks

theorem offLinks_giveCredits (s : State) (l : Nat) (p : Packet) : (s.giveCredits l p).offLinks = s.offLinks := rfl

theorem refuse_refuses (s : State) (l : Nat) (h : ReqHdr) (wr : Bool) (status : Nat) (p : Packet) :
    s.Refuses ((s.refuseReq l h wr status).giveCredits l p) l h wr status := by
  unfold refuseReq
  split
  next hposted => exact ⟨fun hn => absurd (hn.symm.trans hposted) Bool.false_ne_true, fun _ => rfl, rfl⟩
  next hnot =>
    exact ⟨fun _ => outp_handTx s l (s.cplPkt h status []) [] List.mem_cons_self, fun hp => absurd hp hnot,
      (offLinks_giveCredits ..).trans (offLinks_handTx s l (s.cplPkt h status []) [])⟩

/-- A malformed request is counted and refused. -/
theorem malformed_refuses {s : State} {l : Nat} (hl : l < 2) (hm : s.mode ≠ .reset) (hmute : s.mute 0x020 = true) (h : ReqHdr) (wr : Bool) (p : Packet) :
    ∃ t, (((s.start.takeIn l p).rxBad l Fld.tlkRxErr_malformed).refuseReq l h wr 1).giveCredits l p = t
      ∧ ((wr && !h.np) = false → .packet (s.route l) (s.cplPkt h 1 []) ∈ t.outp) ∧ ((wr && !h.np) = true → t.outp = []) ∧ s.linkFrame t
      ∧ t.f Fld.tlkRxErr_malformed l = sat Fld.tlkRxErr_malformed (s.f Fld.tlkRxErr_malformed l + 1) ∧ s.counted t 0x020 := by
  have hcnt := (s.start.takeIn l p).rxBad_counts hl hm hmute rfl (x := Fld.tlkRxErr_malformed) rfl (by decide)
  have hid : ((s.start.takeIn l p).rxBad l Fld.tlkRxErr_malformed).f Fld.tlkBridgeId_id = s.f Fld.tlkBridgeId_id := by
    have hraised := ((s.start.takeIn l p).incF Fld.tlkRxErr_malformed l).raise_silent (src := 0x020) hm (.inl ⟨by decide, hmute⟩) rfl l none none 0
    have hapart : ∀ l < 2, regOff Fld.tlkBridgeId_id.id 0 ≠ regOff Fld.tlkRxErr_malformed.id l := by decide
    exact (hraised.only.f_eq (x := Fld.tlkBridgeId_id) (b := .tlk) (by decide) (by decide)).trans (f_incF_ne _ (hapart l hl) 1)
  obtain ⟨u, hu⟩ : ∃ u, (s.start.takeIn l p).rxBad l Fld.tlkRxErr_malformed = u := ⟨_, rfl⟩
  rw [hu] at hcnt hid
  obtain ⟨hcount, hcounted, hoff, hlinks, hout, honly⟩ := hcnt
  have href := u.refuse_refuses l h wr 1 p
  rw [hu]
  generalize (u.refuseReq l h wr 1).giveCredits l p = t at href
  have hregs : t.regs = u.regs := (congrArg State.regs href.off :)
  have hflt : t.flt = u.flt := (congrArg State.flt href.off :)
  have hroute : u.route l = s.route l := by
    rw [route, link_congr hlinks]
    exact route_takeIn s.start l l p
  refine ⟨t, rfl, fun hn => ?_, fun hp => (href.silent hp).trans hout, linkFrame_of (honly.congr hregs) ((offFault_of_offLinks href.off).trans hoff),
    (f_congr hregs ..).trans hcount, ?_⟩
  · have hsent := href.sent hn
    rw [hroute, cplPkt_congr (s := s) hid] at hsent
    exact hsent
  · refine ⟨by rw [hflt]; exact hcounted.1, fun h1 => ?_⟩
    rw [f_congr hregs]
    exact hcounted.2 h1

theorem mrd_takes {s : State} (l : Fin 2) (hm : s.mode ≠ .reset) (hf : (s.link l.val).flows = true) :
    ¬ (s.start.mode = .reset ∨ (!(s.start.link l.val).flows) = true) := by
  rintro (h | h)
  · exact hm h
  · rw [show (s.start.link l.val).flows = true from hf] at h
    exact absurd h (by decide)

/-- A request that no window takes is refused with UR (R109). -/
theorem unmapped_refuses {s : State} {l : Nat} {h : ReqHdr} (hw : s.works = true) (ha : s.asleep = false) (hno : s.outWindow (reqFirst h) = none)
    (p : Packet) (wr : Bool) (data : List Byte) :
    ∃ t, (s.start.takeIn l p).winRequest l p h wr data = t
      ∧ ((wr && !h.np) = false → .packet (s.route l) (s.cplPkt h 1 []) ∈ t.outp) ∧ ((wr && !h.np) = true → t.outp = [])
      ∧ t = { s.start with links := t.links, outp := t.outp } := by
  obtain ⟨u, hu, hueq, hroute⟩ : ∃ u, s.start.takeIn l p = u ∧ u = { s.start with links := u.links } ∧ u.route l = s.route l :=
    ⟨_, rfl, rfl, route_takeIn s.start l l p⟩
  have hwin : u.outWindow (reqFirst h) = none := by rw [hueq]; exact hno
  have hrun : u.winRequest l p h wr data = (u.refuseReq l h wr 1).giveCredits l p := by
    have hhalt : ¬ u.mode = .halt := by rw [hueq]; exact not_halt_of_works hw
    have hasleep : ¬ u.asleep = true := by
      rw [hueq]
      exact fun hs => absurd (ha.symm.trans hs) Bool.false_ne_true
    have hlook : u.outLook h wr = .unmapped := by
      unfold outLook
      rw [hwin]
    unfold winRequest
    dsimp only
    rw [hwin]
    simp only [Option.map_none, tblCheck]
    unfold handleReq
    rw [if_neg hhalt, if_neg hasleep, hlook]
    rfl
  have href := u.refuse_refuses l h wr 1 p
  rw [hu, hrun]
  generalize (u.refuseReq l h wr 1).giveCredits l p = t at href
  refine ⟨t, rfl, fun hn => ?_, fun hp => (href.silent hp).trans (by rw [hueq]; rfl), ?_⟩
  · have hsent := href.sent hn
    rw [hroute, cplPkt_congr (s := s) (by rw [hueq]; rfl)] at hsent
    exact hsent
  · have h1 := congrArg (fun z : State => { z with links := t.links, outp := t.outp }) hueq
    exact (eq_of_offLinks href.off).trans h1

/-! ### A request in the BCS -/

theorem packetReturns_ne_nil (h : ReqHdr) (bytes : List Byte) : packetReturns (.mrd h) ≠ [] ∧ packetReturns (.mwr h bytes) ≠ [] := by
  have hkept (v : Nat) (x : Nat × Nat) : [(v, 1), x].filter (fun c => decide (0 < c.2)) ≠ [] :=
    List.ne_nil_of_mem (List.mem_filter.mpr ⟨List.mem_cons_self, decide_eq_true Nat.one_pos⟩)
  refine ⟨hkept _ _, ?_⟩
  unfold packetReturns packetCredits packetPosted packetNp
  dsimp only
  split
  · exact hkept _ _
  next hnot =>
    rw [if_pos (by simpa using hnot)]
    exact hkept _ _

/-- An access goes as before when links have changed that flow as before, whatever credits its packet returns. -/
theorem Goes.relinked {s t : State} {r : BcsReq} (h : s.Goes r) (heq : t = { s with links := t.links })
    (hflows : ∀ j, (t.link j).flows = (s.link j).flows) (c : List (Nat × Nat)) : t.Goes { r with credits := c } := by
  have hregs : t.regs = s.regs := by rw [heq]
  have hm : t.mode = s.mode := by rw [heq]
  have hp : t.pwr = s.pwr := by rw [heq]
  have hst : t.strobe = s.strobe := by rw [heq]
  have hq : t.slowQ = s.slowQ := by rw [heq]
  have hphase : t.phase = s.phase := by rw [heq]
  have hwait : t.bcsWait = s.bcsWait := by rw [heq]
  have hflt : t.flt = s.flt := by rw [heq]
  obtain ⟨hreach, halone, hform, hfree, ⟨b, hb, hmode⟩, hjudge, hprsv, hent, hex⟩ := h
  have hbcs (r : BcsReq) : t.bcsJudge r = s.bcsJudge r := judge_congr hregs hm hp ..
  refine ⟨?_, hwait.trans halone, hform, (mustWait_congr hm hst hq [] r).trans hfree, ⟨b, hb, ?_⟩, (hbcs r).trans hjudge, ?_, ?_, ?_⟩
  · have hreach' : t.canReach r.acc.src = s.canReach r.acc.src := by
      unfold canReach
      rw [hm, hflows, hflows, fb, f_congr hregs, f_congr hregs, ← fb]
    exact hreach'.trans hreach
  · have hmode' : t.modeRefuses b r = s.modeRefuses b r := by rw [modeRefuses, hm, hp, modeRefuses]
    exact hmode'.trans hmode
  · have hprsv' : t.prsvStops r = s.prsvStops r := by
      have hword (a : Acc) (off : Nat) (v : Word) : t.prsvWord a off v = s.prsvWord a off v := by
        rw [heq]
        rfl
      have hmode' (b : Block) : t.modeRefuses b r = s.modeRefuses b r := by rw [modeRefuses, hm, hp, modeRefuses]
      unfold prsvStops
      rw [hbcs, hwait, mustWait_congr hm hst hq]
      simp only [hword, hmode']
    exact hprsv'.trans hprsv
  · rw [hm, hphase]
    exact hent
  · have hex' : t.exOn 11 = s.exOn 11 := by rw [exOn, hflt, exOn]
    exact hex'.trans hex

/-- An access that goes is performed, with its packet's credits returned first (R60). -/
theorem Goes.performs {s : State} {r : BcsReq} (h : s.Goes r) : s.bcsRun r = .next ((s.leaveBuffer r).bcsPerform r) := by
  obtain ⟨u, hu, heq⟩ : ∃ u, s.leaveBuffer r = u ∧ u = { s with links := u.links } := by
    refine ⟨_, rfl, ?_⟩
    unfold leaveBuffer
    split
    · split <;> rfl
    · rfl
  obtain ⟨b, hb, hmode⟩ := h.block
  have hmode' : u.modeRefuses b r = false := by
    have hsame : u.modeRefuses b r = s.modeRefuses b r := by rw [modeRefuses, show u.mode = s.mode by rw [heq], show u.pwr = s.pwr by rw [heq], modeRefuses]
    exact hsame.trans hmode
  have hjudge : u.bcsJudge r = .ok := (judge_congr (s := s) (t := u) (by rw [heq]) (by rw [heq]) (by rw [heq]) ..).trans h.judge
  have hdoes : s.bcsDo r = u.bcsPerform r := by
    unfold bcsDo
    rw [hu]
    simp [h.form, hb, hmode', hjudge]
  have harrive : s.bcsArrive r = u.bcsPerform r := by simp [bcsArrive, h.exercise, h.wakes, h.alone, h.free, hdoes]
  rw [hu]
  simp [bcsRun, h.reach, h.prsv, harrive]

theorem srcLink_srcOf (l : Fin 2) : srcLink (srcOf l.val) = some l.val := by
  have hall : ∀ l : Fin 2, srcLink (srcOf l.val) = some l.val := by decide
  exact hall l

theorem flows_modLink (s : State) (l : Nat) {g : Link → Link} (hg : ∀ k, (g k).flows = k.flows) (j : Nat) : ((s.modLink l g).link j).flows = (s.link j).flows := by
  by_cases hj : j = l
  · subst hj
    rw [link_modLink_same, hg]
  · rw [link_modLink_ne s hj]

/-- The state in which a request in the BCS is performed: out of the receive buffer, its credits returned. -/
theorem bcsRequest_performs {s : State} (l : Fin 2) {r : BcsReq} (hg : s.goes r = true) (hsrc : r.acc.src = srcOf l.val) (p : Packet)
    (hne : packetReturns p ≠ []) :
    (s.start.takeIn l.val p).bcsRun { r with credits := packetReturns p }
      = .next (((s.start.takeIn l.val p).giveCredits l.val p).bcsPerform { r with credits := packetReturns p }) := by
  have hgoes : s.start.Goes r := (goes_iff s.start r).mp ((goes_start s r).trans hg)
  have htake := hgoes.relinked (t := s.start.takeIn l.val p) rfl (flows_modLink s.start l.val fun _ => rfl) (packetReturns p)
  refine htake.performs.trans (congrArg Host.Outcome.next (congrArg (State.bcsPerform · { r with credits := packetReturns p }) ?_))
  unfold leaveBuffer
  dsimp only
  rw [hsrc, srcLink_srcOf]
  exact if_neg hne

theorem flows_of_goes {s : State} (l : Fin 2) {r : BcsReq} (hg : s.goes r = true) (hsrc : r.acc.src = srcOf l.val) :
    s.mode ≠ .reset ∧ (s.link l.val).flows = true := by
  have hreach := ((goes_iff s r).mp hg).reach
  rw [hsrc] at hreach
  unfold canReach at hreach
  rw [Bool.and_eq_true] at hreach
  obtain ⟨hm, hflows⟩ := hreach
  refine ⟨by simpa using hm, ?_⟩
  match l with
  | 0 => exact (Bool.and_eq_true _ _ ▸ hflows).1
  | 1 => exact (Bool.and_eq_true _ _ ▸ hflows).1

/-- An answer by Thaty goes out at once where the block is not one that accesses cross to. -/
theorem answer_sends {u : State} (l : Fin 2) {r : BcsReq} (res : BcsRes) (hsrc : r.acc.src = srcOf l.val) (hvia : r.via = .thaty)
    (hp : isPosted r = false) (hslow : ∀ b, reqBlock r = some b → slowBlock b = false) :
    .packet (u.route l.val) (u.bcsCpl r res) ∈ (u.finishBcs r res).outp := by
  have hrun : u.finishBcs r res = u.respond r res := by
    unfold finishBcs
    cases hb : reqBlock r with
    | none => rfl
    | some b =>
      dsimp only
      rw [hslow b hb]
      rfl
  rw [hrun]
  unfold respond
  dsimp only
  rw [hvia, hsrc, srcLink_srcOf]
  dsimp only
  rw [hp]
  exact outp_handTx (u.emit (.bcs r res)) l.val _ [] List.mem_cons_self

theorem exec_mrd_bcs {s : State} (l : Fin 2) {h : ReqHdr} (hok : reqOk h = true) (hb : s.inBcs h = true)
    (hg : s.goes (reqAccess l.val h false []) = true) :
    exec (.mrd l h) s = .next (((s.start.takeIn l.val (.mrd h)).giveCredits l.val (.mrd h)).bcsPerform
      { reqAccess l.val h false [] with credits := packetReturns (.mrd h) }) := by
  obtain ⟨hm, hf⟩ := flows_of_goes l hg rfl
  refine (if_neg (mrd_takes l hm hf)).trans ((if_neg (by simp [hok])).trans ((if_pos hb).trans ?_))
  exact bcsRequest_performs l hg rfl (.mrd h) (packetReturns_ne_nil h []).1

theorem exec_mwr_bcs {s : State} (l : Fin 2) {h : ReqHdr} {bytes : List Byte} (hok : reqOk h = true) (hp : h.poison = false) (hb : s.inBcs h = true)
    (hg : s.goes (reqAccess l.val h true bytes) = true) :
    exec (.mwr l h bytes) s = .next (((s.start.takeIn l.val (.mwr h bytes)).giveCredits l.val (.mwr h bytes)).bcsPerform
      { reqAccess l.val h true bytes with credits := packetReturns (.mwr h bytes) }) := by
  obtain ⟨hm, hf⟩ := flows_of_goes l hg rfl
  refine (if_neg (mrd_takes l hm hf)).trans ((if_neg (by simp [hok])).trans ((if_neg (by simp [hp])).trans ((if_pos hb).trans ?_)))
  exact bcsRequest_performs l hg rfl (.mwr h bytes) (packetReturns_ne_nil h bytes).2

theorem bcsRead_answers {s : State} (l : Fin 2) {h : ReqHdr} {id : RegId} {i : Nat} (hok : reqOk h = true) (hb : s.inBcs h = true)
    (hat : targetAt (reqAccess l.val h false []).off = .reg id i) (hoff : regOff id i = (reqAccess l.val h false []).off)
    (hen : (reqAccess l.val h false []).en = List.replicate 4 true) (hhalf : id.row.half = .none) (hrc : id.row.rc = 0)
    (hslow : slowBlock id.row.block = false) (hg : s.goes (reqAccess l.val h false []) = true) :
    ∃ t, exec (.mrd l h) s = .next t
      ∧ .packet (s.route l.val) (s.bcsCpl (reqAccess l.val h false [])
          (.done (wordBytes (((s.start.takeIn l.val (.mrd h)).giveCredits l.val (.mrd h)).peek id i).1))) ∈ t.outp
      ∧ t.regs = s.regs ∧ t.shadow = s.shadow ∧ t.jnl = s.jnl ∧ t.ops = s.ops := by
  obtain ⟨u, hu, hueq, hroute⟩ : ∃ u, (s.start.takeIn l.val (.mrd h)).giveCredits l.val (.mrd h) = u ∧ u = { s.start with links := u.links }
      ∧ u.route l.val = s.route l.val := by
    refine ⟨_, rfl, rfl, ?_⟩
    rw [giveCredits, route, link_modLink_same]
    exact route_takeIn s.start l.val l.val (.mrd h)
  obtain ⟨v, hv⟩ : ∃ v, u.peek id i = v := ⟨_, rfl⟩
  have hfree : v.2.offFree = u.offFree := by rw [← hv]; exact offFree_peek u id i
  have hveq : v.2 = { u with freeCount := v.2.freeCount, freeNext := v.2.freeNext } :=
    congrArg (fun z : State => { z with freeCount := v.2.freeCount, freeNext := v.2.freeNext }) hfree
  obtain ⟨r, hr⟩ : ∃ r : BcsReq, { reqAccess l.val h false [] with credits := packetReturns (.mrd h) } = r := ⟨_, rfl⟩
  have hroff : r.off = (reqAccess l.val h false []).off := by rw [← hr]
  have halign : r.off % 4 = 0 := by
    rw [hroff]
    have hen4 : (reqAccess l.val h false []).en.length = 4 := by rw [hen]; rfl
    exact formCause_aligned hen4 ((goes_iff s _).mp hg).form
  have hread : u.readBytes r.off r.en.length true = (wordBytes v.1, v.2) := by
    have hlen : r.en.length = 4 := by
      rw [← hr]
      exact (congrArg List.length hen).trans rfl
    have hreg : u.readReg id i = v := by
      unfold readReg
      rw [hhalf]
      dsimp only
      rw [hv, clearRc, if_pos hrc]
    rw [hlen]
    simp [readBytes, readWord, show targetAt r.off = .reg id i by rw [hroff]; exact hat, halign, hreg, slice_wordBytes]
  have hperf : u.bcsPerform r = v.2.finishBcs r (.done (wordBytes v.1)) := by
    have hrd : ¬ r.wr = true := by
      rw [← hr]
      exact Bool.false_ne_true
    unfold bcsPerform
    rw [if_neg hrd, hread]
  have hans := v.2.offAnswer_finishBcs (r := r) (.inl (by rw [← hr]; rfl)) (.done (wordBytes v.1))
  have hsent := answer_sends (u := v.2) l (r := r) (.done (wordBytes v.1)) (by rw [← hr]; rfl) (by rw [← hr]; rfl) (by rw [← hr]; rfl) (by
    intro b hbk
    have hblock := (targetAt_reg (by rw [hroff]; exact hat : targetAt r.off = .reg id i) halign).1
    rw [Option.some.inj (hbk.symm.trans hblock)]
    exact hslow)
  have hvr : v.2.route l.val = s.route l.val := by
    rw [hveq]
    exact hroute
  have hcpl : v.2.bcsCpl r (.done (wordBytes v.1)) = s.bcsCpl (reqAccess l.val h false []) (.done (wordBytes v.1)) := by
    rw [hveq, hueq, ← hr]
    rfl
  rw [hvr, hcpl] at hsent
  obtain ⟨t, ht⟩ : ∃ t, v.2.finishBcs r (.done (wordBytes v.1)) = t := ⟨_, rfl⟩
  rw [ht] at hans hsent
  refine ⟨t, ?_, by rw [hu, hv]; exact hsent, ?_, ?_, ?_, ?_⟩
  · rw [exec_mrd_bcs l hok hb hg, hu, hr, hperf, ht]
  all_goals
    have heq := eq_of_offAnswer hans
    rw [heq, hveq, hueq]
    rfl

/-- The write of a register that only stores, as a request from a link performs it. -/
theorem bcsPerform_writesReg {u : State} {a : Acc} {id : RegId} {i : Nat} {v : Word} {r : BcsReq} {cs : List (Nat × Nat)} {b : Block}
    (hr : { wordWrite a (regOff id i) v with credits := cs } = r) (hat : targetAt (regOff id i) = .reg id i) (hp : plainReg id = true)
    (hblock : blockAt (regOff id i) = some b) (hn : u.noPend (regOff id i) = true) (hreach : u.reaches a id i = true) :
    u.bcsPerform r = (u.writeReg a id i v).finishBcs r (.done []) := by
  have hwrite : u.bcsWrite r = u.writeReg a id i v := by
    have hnt : notTable (targetAt (regOff id i)) := fun k => by rw [hat]; exact ⟨nofun, nofun⟩
    have hword := u.bcsWrite_wordWrite a (regOff id i) v hnt
    rw [writeWord_reg u hat (plainReg_notKeyed hp) hblock hn hreach] at hword
    rw [← hr]
    exact hword
  have hstrobe : isStrobe r = false := by
    rw [← hr]
    exact isStrobe_of_ne (a := a) (v := v) fun j hj => (plainReg_ne hp).1 (Target.reg.inj (hat.symm.trans hj)).1
  have hwr : r.wr = true := by rw [← hr]; rfl
  unfold bcsPerform
  rw [if_pos hwr]
  dsimp only
  rw [hwrite, hstrobe, if_neg (fun h => absurd h.1 Bool.false_ne_true)]

/-- A write of one register keeps the bridge's ID, which no write stores into. -/
theorem bridgeId_kept {u w : State} {id : RegId} {i : Nat} {v : Word} (hat : targetAt (regOff id i) = .reg id i)
    (hreg : w.reg id i = blend id.row.rw v (u.reg id i)) (honly : u.onlyRegs w [(id, i)]) :
    w.f Fld.tlkBridgeId_id = u.f Fld.tlkBridgeId_id := by
  by_cases hid : regOff id i = regOff .tlkBridgeId 0
  · have hsame : id = .tlkBridgeId ∧ i = 0 := by
      have hbid : targetAt (regOff .tlkBridgeId 0) = .reg .tlkBridgeId 0 := by decide
      rw [hid, hbid] at hat
      obtain ⟨h1, h2⟩ := Target.reg.inj hat
      exact ⟨h1.symm, h2.symm⟩
    obtain ⟨rfl, rfl⟩ := hsame
    have hkept : w.reg .tlkBridgeId 0 = u.reg .tlkBridgeId 0 := by
      rw [hreg, show RegId.tlkBridgeId.row.rw = 0 from rfl, blend_zero]
    exact congrArg (fun x : Word => bits Fld.tlkBridgeId_id.hi Fld.tlkBridgeId_id.lo x.toNat) hkept
  · exact honly.f_eq (x := Fld.tlkBridgeId_id) (i := 0) fun p hp => by
      rw [List.mem_singleton.mp hp]
      exact hid

theorem bcsWrite_stores {s : State} (l : Fin 2) {h : ReqHdr} {bytes : List Byte} {a : Acc} {id : RegId} {i : Nat} {v : Word}
    (hok : reqOk h = true) (hpoison : h.poison = false) (hb : s.inBcs h = true)
    (hreq : reqAccess l.val h true bytes = wordWrite a (regOff id i) v) (hat : targetAt (regOff id i) = .reg id i) (hp : plainReg id = true)
    (hu : id.row.block ≠ .upd) (hr : s.reaches a id i = true) (hl : s.lockMask id i = 0) (hg : s.goesWrite a id i v = true) :
    ∃ t, exec (.mwr l h bytes) s = .next t
      ∧ t.reg id i = blend id.row.rw v (s.reg id i) ∧ t.shadowReg id i = blend id.row.rws v (s.shadowReg id i)
      ∧ (h.np = true → slowBlock id.row.block = false → .packet (s.route l.val) (s.cplPkt (accHdr a) 0 []) ∈ t.outp)
      ∧ s.onlyRegs t [(id, i)] ∧ t = { s.asideFrom t with regs := t.regs, shadow := t.shadow } := by
  obtain ⟨u, hu', hueq, hroute⟩ : ∃ u, (s.start.takeIn l.val (.mwr h bytes)).giveCredits l.val (.mwr h bytes) = u ∧ u = { s.start with links := u.links }
      ∧ u.route l.val = s.route l.val := by
    refine ⟨_, rfl, rfl, ?_⟩
    rw [giveCredits, route, link_modLink_same]
    exact route_takeIn s.start l.val l.val (.mwr h bytes)
  obtain ⟨hgo, hn⟩ := (Bool.and_eq_true _ _ ▸ hg : s.goes (wordWrite a (regOff id i) v) = true ∧ s.noPend (regOff id i) = true)
  obtain ⟨b, hblock⟩ := goes_block hgo
  have hsrc : a.src = srcOf l.val := (congrArg (fun r : BcsReq => r.acc.src) hreq).symm
  have hposted : a.posted = !h.np := (congrArg (fun r : BcsReq => r.acc.posted) hreq).symm
  have hlt : regOff id i < 2 ^ 26 := by
    have hoff : reqFirst h % 2 ^ 26 = regOff id i := congrArg BcsReq.off hreq
    rw [← hoff]
    exact Nat.mod_lt _ (by decide)
  have hexec := exec_mwr_bcs l hok hpoison hb (by rw [hreq]; exact hgo)
  rw [hu', hreq] at hexec
  obtain ⟨r, hr'⟩ : ∃ r : BcsReq, { wordWrite a (regOff id i) v with credits := packetReturns (.mwr h bytes) } = r := ⟨_, rfl⟩
  rw [hr'] at hexec
  have hvia : r.via = .thaty := by
    rw [← hr']
    have h1 : (reqAccess l.val h true bytes).via = (wordWrite a (regOff id i) v).via := congrArg BcsReq.via hreq
    exact h1.symm
  obtain ⟨hreg, hshadow, -, hviol, hwords⟩ := u.writeReg_stores a hp hu hat hlt v
  have hlock : u.lockMask id i = 0 := by
    rw [hueq]
    exact hl
  rw [lockBreaks_free hlock, if_neg Bool.false_ne_true] at hviol
  have hmask (m : Word) : m &&& ~~~(0 : Word) = m := by rw [show ~~~(0 : Word) = BitVec.allOnes 32 from rfl, BitVec.and_allOnes]
  rw [hlock, hmask] at hreg hshadow
  have hperf := bcsPerform_writesReg (u := u) hr' hat hp hblock (by rw [hueq]; exact hn) (by rw [hueq]; exact hr)
  obtain ⟨w, hw⟩ : ∃ w, u.writeReg a id i v = w := ⟨_, rfl⟩
  rw [hw] at hreg hshadow hviol hwords hperf
  rw [hperf] at hexec
  have hans := w.offAnswer_finishBcs (r := r) (.inl hvia) (.done [])
  have hsent (hnp : h.np = true) (hslow : slowBlock id.row.block = false) : .packet (w.route l.val) (w.bcsCpl r (.done [])) ∈ (w.finishBcs r (.done [])).outp := by
    refine answer_sends l (.done []) (by rw [← hr']; exact hsrc) hvia ?_ fun b hbk => ?_
    · rw [← hr']
      exact (congrArg (fun x => true && x) hposted).trans (by rw [hnp]; rfl)
    · have hbk' : blockAt (regOff id i) = some b := by
        rw [← hr'] at hbk
        exact hbk
      have halign : regOff id i % 4 = 0 := formCause_aligned (r := wordWrite a (regOff id i) v) rfl ((goes_iff s _).mp hgo).form
      rw [Option.some.inj (hbk'.symm.trans (targetAt_reg hat halign).1)]
      exact hslow
  have hureg (x : RegId) (j : Nat) : u.reg x j = s.reg x j := by rw [hueq]; rfl
  have hbridge : w.f Fld.tlkBridgeId_id = s.f Fld.tlkBridgeId_id := by
    rw [bridgeId_kept hat hreg hviol, hueq]
    rfl
  have hlinks : w.links = u.links := (congrArg State.links hwords : w.offWords.links = u.offWords.links)
  obtain ⟨hregs, hsh⟩ := words_of_offAnswer hans
  obtain ⟨t, ht⟩ : ∃ t, w.finishBcs r (.done []) = t := ⟨_, rfl⟩
  rw [ht] at hans hsent hexec hregs hsh
  refine ⟨t, hexec, ?_, ?_, fun hnp hslow => ?_, ?_, ?_⟩
  · rw [reg_congr hregs, hreg, hureg]
  · have hus : u.shadowReg id i = s.shadowReg id i := by rw [hueq]; rfl
    rw [shadowReg, hsh]
    exact hshadow.trans (by rw [hus])
  · have hpkt := hsent hnp hslow
    have hwr : w.route l.val = s.route l.val := by
      rw [route, link_congr hlinks]
      exact hroute
    have hcpl : w.bcsCpl r (.done []) = s.cplPkt (accHdr a) 0 [] := by
      rw [← cplPkt_congr hbridge, ← hr']
      rfl
    rwa [hwr, hcpl] at hpkt
  · have hstart : s.onlyRegs u [(id, i)] := onlyRegs_of_regs (by rw [hueq]; rfl) _
    exact (hstart.trans hviol).congr hregs
  · have h0 : u.offWords = (s.start.relinked u.links).offWords := by rw [hueq]; rfl
    have h1 : t.offAnswer.offWords = s.start.offWords.offAnswer :=
      ((congrArg offWords hans).trans (congrArg offAnswer hwords)).trans ((congrArg offAnswer h0).trans rfl)
    exact congrArg (fun x : State => { x with outp := t.outp, links := t.links, slowQ := t.slowQ, regs := t.regs, shadow := t.shadow }) h1

/-- Settles O30: refusals of malformed and unmapped requests, and the accesses of requests in the BCS. -/
theorem requestsRefusedOrToTheBcs : Obligations.RequestsRefusedOrToTheBcs := by
  refine ⟨⟨fun s l h bytes hm hf hbad hmute => ⟨?_, ?_⟩, fun s l h bytes hw ha hf hok hb hno => ⟨?_, fun hp => ?_⟩⟩,
    fun s l h id i => bcsRead_answers l, fun s l h bytes a id i v => bcsWrite_stores l⟩
  · obtain ⟨t, ht, hsent, -, h⟩ := malformed_refuses l.isLt hm hmute h false (.mrd h)
    exact ⟨t, (if_neg (mrd_takes l hm hf)).trans ((if_pos (by simp [hbad])).trans (congrArg Host.Outcome.next ht)), hsent rfl, h⟩
  · obtain ⟨t, ht, hsent, hsilent, hrest⟩ := malformed_refuses l.isLt hm hmute h true (.mwr h bytes)
    exact ⟨t, (if_neg (mrd_takes l hm hf)).trans ((if_pos (by simp [hbad])).trans (congrArg Host.Outcome.next ht)),
      fun hnp => hsent (by rw [hnp]; rfl), fun hnp => hsilent (by rw [hnp]; rfl), hrest⟩
  · obtain ⟨t, ht, hsent, -, heq⟩ := unmapped_refuses hw ha hno (.mrd h) false []
    exact ⟨t, (s.exec_mrd_window l (not_reset_of_works hw) hf hok hb).trans (congrArg Host.Outcome.next ht), hsent rfl, heq⟩
  · obtain ⟨t, ht, hsent, hsilent, heq⟩ := unmapped_refuses hw ha hno (.mwr h bytes) true bytes
    exact ⟨t, (s.exec_mwr_window l bytes (not_reset_of_works hw) hf hok hb hp).trans (congrArg Host.Outcome.next ht),
      fun hnp => hsent (by rw [hnp]; rfl), fun hnp => hsilent (by rw [hnp]; rfl), heq⟩

end State

end Sys2Proof.Machine
end

section
/-! PROOFS. Device-initiated exchanges (R83, R88, R103 to R106, R119). -/

namespace Sys2Proof.Machine

namespace State

/-! ### An UP frame is admitted -/

/-- The operation that an UP frame of a window with a Thaty side makes. -/
def upOp (s : State) (p : Nat) (f : Frame) (wr : Bool) (w : Window) (hold : Hold) : Op :=
  { wr := wr, np := w.np, frame := some f, sport := p, sdaddr := f.daddr.toNat, ident := legacyIdent p f.daddr.toNat, hold := hold
    link := s.instLink w.owner, hdr := some (s.upHdr w (upSpec f (swapUnit w.swap))), cut := upSpec f (swapUnit w.swap) }

/-- What an UP frame makes of its device address. -/
def upDaddr (a : Daddr) (je : Nat) (f : Frame) : Daddr :=
  { a with st := .up, up := some { je := some je, frame := f }, losses := 0, lossSerial := 0, upRefused := false }

/-- What the admission of an UP frame leaves, before a read is issued. -/
structure UpAdmits (s t : State) (p : Nat) (f : Frame) (je : Nat) (e : JEntry) (o : Op) : Prop where
  entry : t.entry je = e
  op : t.op? je = some { o with age := s.ts }
  daddr : t.daddr p f.daddr.toNat = upDaddr (s.daddr p f.daddr.toNat) je f
  daddrs : s.sameDaddrsBut t p f.daddr.toNat
  ops : s.sameOpsBut t je
  outp : t.outp = s.outp
  links : t.links = s.links
  ports : t.ports = s.ports
  only : s.onlyBlocks t [.jnl, .hub]
  gates : s.sameGates t
  ts : t.ts = s.ts

theorem upLookup_window {s : State} {p d g n : Nat} {w : Window} (h : s.upLookup p d g = .ok n w) :
    (∃ k, s.inWindow p d g = some (k, w)) ∧ (s.inst w.owner).st ≠ .free := by
  unfold upLookup at h
  split at h
  next m k v hd hw =>
    dsimp only at h
    split at h
    · exact nomatch h
    · split at h
      · exact nomatch h
      · split at h
        · exact nomatch h
        next hnot _ hact =>
          obtain ⟨-, rfl⟩ := UpFound.ok.inj h
          exact ⟨⟨k, hw⟩, fun hfree => hnot (.inl hfree)⟩
  next => exact nomatch h

/-- A frame that comes whole at a port that receives. -/
structure UpComes (s : State) (p : Nat) (f : Frame) : Prop where
  recv : s.portRecv p = true
  crc : s.crcOk f = true
  burst : burstOk f = true

theorem upFrame_takes {s : State} {p : Nat} {f : Frame} (hc : s.UpComes p f) (hm : s.mode ≠ .doze) (hp : s.phase ≠ .entering)
    (hst : (s.daddr p f.daddr.toNat).st = .idle ∨ (s.daddr p f.daddr.toNat).st = .reserved) (hn : s.chanOpen p + s.upOpen p < 64) (wr : Bool) :
    (s.upRoom p f.daddr.toNat f wr = false → s.upFrame p f wr = s.sendRetry p f.daddr.toNat 3 wr)
    ∧ (s.upRoom p f.daddr.toNat f wr = true → s.exOn 2 = false →
        (∀ n w, s.upLookup p f.daddr.toNat (frameAddr f) = .ok n w → s.upFrame p f wr = s.admitUp p f.daddr.toNat f wr n w)
        ∧ (s.upLookup p f.daddr.toNat (frameAddr f) = .no 6 false → s.upFrame p f wr = s.refuseUp p f.daddr.toNat f wr 6)) := by
  obtain ⟨hrecv, hcrc, hburst⟩ := hc
  have hasleep : ¬ (s.mode = .doze ∨ s.phase = .entering) := fun h => h.elim hm hp
  have hslots : ¬ 64 ≤ s.chanOpen p + s.upOpen p := Nat.not_le.mpr hn
  have hrun (t : State) (h : (if (!s.upRoom p f.daddr.toNat f wr) = true then s.sendRetry p f.daddr.toNat 3 wr
      else
        let s := (s.tblCheck .dvt (s.dnAt p f.daddr.toNat)).tblCheck .wtt ((s.inWindow p f.daddr.toNat (frameAddr f)).map (·.1))
        match s.upLookup p f.daddr.toNat (frameAddr f) with
        | .no reason mm =>
          let s := if mm then (s.incF Fld.updTblCnt_mismatch).raise 0x060 else s
          s.refuseUp p f.daddr.toNat f wr reason
        | .leaving i => (s.incF Fld.instCnt_refused i).refuseUp p f.daddr.toNat f wr 4
        | .ok n w => s.admitUp p f.daddr.toNat f wr n w) = t) : s.upFrame p f wr = t := by
    unfold upFrame
    dsimp only
    rw [hrecv, hcrc, hburst]
    simp only [Bool.not_true, Bool.false_eq_true, if_false]
    rcases hst with hst | hst
    · rw [hst]
      dsimp only
      rw [if_neg hasleep, if_neg hslots]
      exact h
    · rw [hst]
      dsimp only
      rw [if_neg hasleep, if_neg hslots]
      exact h
  refine ⟨fun hroom => hrun _ (if_pos (by rw [hroom]; rfl)), fun hroom hex => ⟨fun n w hlook => hrun _ ?_, fun hlook => hrun _ ?_⟩⟩
  · rw [if_neg (by rw [hroom]; decide)]
    dsimp only
    rw [tblCheck_off hex, tblCheck_off hex, hlook]
  · rw [if_neg (by rw [hroom]; decide)]
    dsimp only
    rw [tblCheck_off hex, tblCheck_off hex, hlook]
    rfl

theorem upAdmissible_room {s : State} {p : Nat} {f : Frame} {wr : Bool} {n je : Nat} {w : Window} {hold : Hold}
    (ha : s.upAdmissible p f wr n w je hold) :
    s.upRoom p f.daddr.toNat f wr = true
      ∧ ¬ ((wr = true ∧ (!w.np) = true ∧ s.withheld w.owner = true)
          ∨ ((!w.peer) = true ∧ ((!wr) = true ∨ w.np = true) ∧ (s.pickTag (s.route (s.instLink w.owner))).isNone = true)) := by
  obtain ⟨-, -, -, -, -, -, -, -, hlook, hpeer, -, hje, htake, hrest⟩ := ha
  obtain ⟨⟨k, hw⟩, hfree⟩ := upLookup_window hlook
  have htag (hposted : (wr && !w.np) = false) : (s.pickTag (s.route (s.instLink w.owner))).isSome = true := by
    rw [if_neg (by rw [hposted]; decide)] at hrest
    obtain ⟨t, -, ht⟩ := s.pickTag_found hrest.1 hrest.2
    rw [ht]
    rfl
  have hheld (hposted : (wr && !w.np) = true) : s.withheld w.owner = false := by
    rwa [if_pos hposted] at hrest
  refine ⟨?_, ?_⟩
  · unfold upRoom
    dsimp only
    rw [hw]
    dsimp only
    rw [if_neg hfree, hje, htake, hpeer]
    cases hposted : (wr && !w.np) with
    | true => simp [hheld hposted]
    | false => simp [htag hposted]
  · rintro (⟨hwr, hnp, hwith⟩ | ⟨-, hnot, hnone⟩)
    · rw [hheld (by rw [hwr, hnp]; rfl)] at hwith
      exact Bool.false_ne_true hwith
    · have hposted : (wr && !w.np) = false := by
        rcases hnot with h | h
        · rw [Bool.not_eq_true'] at h
          rw [h]
          rfl
        · rw [h]
          exact Bool.and_false wr
      have hsome := htag hposted
      rw [Option.isNone_iff_eq_none.mp hnone] at hsome
      exact Bool.false_ne_true hsome

theorem admitOp_ports (s : State) (je : Nat) (e : JEntry) (o : Op) : (s.admitOp je e o).ports = s.ports := rfl

theorem admitUp_admits {s : State} {p : Nat} {f : Frame} {wr : Bool} {n je : Nat} {w : Window} {hold : Hold}
    (ha : s.upAdmissible p f wr n w je hold) :
    ∃ v, s.UpAdmits v p f je (s.upEntry p f wr n w) (s.upOp p f wr w hold)
      ∧ s.admitUp p f.daddr.toNat f wr n w = if wr then v else v.upRead je := by
  obtain ⟨-, hgo⟩ := upAdmissible_room ha
  obtain ⟨-, -, -, -, -, -, -, -, -, hpeer, hcls, hje, htake, -⟩ := ha
  have hdem : s.draw.demote w.cls w.owner = (w.cls, s.draw) := if_neg fun h => hcls h.1
  obtain ⟨a, hadm, hent, hothers, hop, hlinks, hgates, hoff, honly, haports⟩ : ∃ a, s.draw.admitOp je
        { kind := if wr then 5 else 6, cls := w.cls, inst := w.owner, dn := n, link := s.instLink w.owner, vc := w.cls
          ref := p * 2 ^ 56 + f.daddr.toNat * 2 ^ 32 + frameAddr f } (s.upOp p f wr w hold) = a
      ∧ a.entry je = s.upEntry p f wr n w ∧ s.sameOpsBut a je ∧ a.op? je = some { s.upOp p f wr w hold with age := s.ts } ∧ a.links = s.links
      ∧ s.sameGates a ∧ a.offStart = s.draw.offStart ∧ s.onlyBlocks a [.jnl] ∧ a.ports = s.ports := by
    obtain ⟨hoff, hent, hothers, hop, hlinks, -, honly, hgates⟩ := s.draw.admitOp_admits je
      { kind := if wr then 5 else 6, cls := w.cls, inst := w.owner, dn := n, link := s.instLink w.owner, vc := w.cls
        ref := p * 2 ^ 56 + f.daddr.toNat * 2 ^ 32 + frameAddr f } (s.upOp p f wr w hold)
    exact ⟨_, rfl, hent, hothers, hop, hlinks, sameGates.trans (t := s.draw) (sameGates_of_regs rfl rfl rfl) hgates, hoff,
      (onlyBlocks_of_regs (s := s) (t := s.draw) rfl _).trans honly, admitOp_ports ..⟩
  have hacls : (a.entry je).cls ≠ 0 := by rw [hent]; exact hcls
  obtain ⟨c, hc, hcc⟩ : ∃ c, a.upCharge je p (hubLink (a.route (s.instLink w.owner)) (hubSpoke p)) (if wr then burstBytes f else 0) = c
      ∧ ∃ x : State, x = { a with hub := x.hub } ∧ c = x.modOp je fun o => { o with c0wait := false } := by
    refine ⟨_, rfl, a.addXfer (hubSpoke p) (hubLink (a.route (s.instLink w.owner)) (hubSpoke p)) (if (a.entry je).cls = 0 then 1 else (a.entry je).cls) p
      (if wr then burstBytes f else 0) (.op je), rfl, ?_⟩
    unfold upCharge
    dsimp only
    rw [show a.formXfer (hubSpoke p) (hubLink (a.route (s.instLink w.owner)) (hubSpoke p)) (a.entry je).cls (a.entry je).inst p
      (if wr then burstBytes f else 0) (.op je) (.piece je) = (true, _) from if_pos (.inl hacls)]
    rfl
  obtain ⟨x, hx, hcx⟩ := hcc
  have hceq : c = { a with ops := c.ops, hub := c.hub } := by
    have h1 := congrArg (fun z : State => { z with ops := c.ops, hub := c.hub }) hx
    have h2 : c = { x with ops := c.ops, hub := c.hub } := by rw [hcx]; rfl
    exact h2.trans h1
  have hxop : x.op? je = some { s.upOp p f wr w hold with age := s.ts } := by rw [hx]; exact hop
  have hcop : c.op? je = some { s.upOp p f wr w hold with age := s.ts } := by
    have hmod := x.op?_modOp_same je fun o => { o with c0wait := false }
    rw [hxop] at hmod
    rw [hcx]
    exact hmod
  have hcne (j : Nat) (hj : j ≠ je) : c.op? j = s.op? j := by
    rw [hcx]
    exact (x.op?_modOp_ne hj _).trans (by rw [hx]; exact (hothers j hj).2)
  have hone := c.oneDaddr_modDaddr p f.daddr.toNat fun a => upDaddr a je f
  obtain ⟨v, hv, hone⟩ : ∃ v, (c.modDaddr p f.daddr.toNat fun a => upDaddr a je f) = v ∧ c.OneDaddr v p f.daddr.toNat _ := ⟨_, rfl, hone⟩
  have hveq := hone.eq
  have hvop : v.op? je = some { s.upOp p f wr w hold with age := s.ts } := by rw [hveq]; exact hcop
  have hdad : c.daddrs = s.daddrs := by
    rw [hceq]
    exact (congrArg State.daddrs hoff : a.offStart.daddrs = s.draw.offStart.daddrs)
  have hregs : v.regs = a.regs := by rw [hveq, hceq]
  have hmode : a.mode = s.mode := (congrArg State.mode hoff : a.offStart.mode = s.draw.offStart.mode)
  have hts : a.ts = s.ts := (congrArg State.ts hoff : a.offStart.ts = s.draw.offStart.ts)
  refine ⟨v, ⟨?_, hvop, ?_, fun k hk => ?_, fun j hj => ⟨?_, ?_⟩, ?_, ?_, ?_, ?_, ?_, by rw [hveq, hceq]; exact hts⟩, ?_⟩
  · rw [hveq, hceq]
    exact hent
  · rw [hone.daddr, daddr_congr hdad]
  · rw [hone.others k hk, hdad]
  · rw [hveq, hceq]
    exact (hothers j hj).1
  · rw [hveq]
    exact hcne j hj
  · rw [hveq, hceq]
    exact (congrArg State.outp hoff : a.offStart.outp = s.draw.offStart.outp)
  · rw [hveq, hceq]
    exact hlinks
  · rw [hveq, hceq]
    exact haports
  · exact (honly.mono (by decide)).congr hregs
  · exact hgates.trans (sameGates_of_regs hregs (by rw [hveq, hceq]) (by rw [hveq, hceq]))
  · unfold admitUp
    dsimp only
    rw [hje, htake]
    dsimp only
    rw [if_neg hgo, hdem, hpeer]
    simp only [Bool.false_eq_true, if_false]
    have hupop : ({ wr := wr, np := w.np, frame := some f, sport := p, sdaddr := f.daddr.toNat, ident := legacyIdent p f.daddr.toNat, hold := hold
                    link := s.draw.instLink w.owner, hdr := some (s.draw.upHdr w (upSpec f (swapUnit w.swap)))
                    cut := upSpec f (swapUnit w.swap) } : Op) = s.upOp p f wr w hold := rfl
    rw [hupop, show s.draw.instLink w.owner = s.instLink w.owner from rfl, hadm, hc]
    unfold upDaddr at hv
    rw [hv, hvop]
    rfl

/-! ### A read is issued for an UP-RD -/

theorem upRead_issues {s : State} {je : Nat} {o : Op} {h : ReqHdr} (ho : s.op? je = some o) (hh : o.hdr = some h) (hl : s.entry je ≠ {})
    (hmoved : (s.link (s.route o.link)).moved = false) (hout : (s.link (s.route o.link)).outst.length < 4096) (htags : s.heldTags.length < 65536)
    (hj : s.judge (gTlink o.link) o.ident (reqFirst h) (upLast h o.cut.n) true false = .ok) :
    ∃ t tag, s.upRead je = t ∧ t.entry je = { s.entry je with st := .issued, since := s.ts }
      ∧ .packet (s.route o.link) (.mrd { h with np := false, tag := tag }) ∈ t.outp
      ∧ (∃ r ∈ (t.link (s.route o.link)).outst, r.tag = tag.toNat ∧ r.purpose = .upRd je) ∧ s.sameOpsBut t je
      ∧ t.daddrs = s.daddrs ∧ t.ports = s.ports ∧ t.regs = s.regs := by
  obtain ⟨u, tag, hu, hissues⟩ := s.issue_issues (l₀ := o.link) (id := o.ident) (a := reqFirst h) (z := upLast h o.cut.n) (wr := false)
    (h := { h with np := false }) (data := []) (pur := .upRd je) (inst := some (s.entry je).inst) hmoved hout htags hj
  have hueq := hissues.eq
  have hue (j : Nat) : u.entry j = s.entry j := by rw [hueq]; rfl
  have hent := entry_setSt_same (s := u) (je := je) (by rw [hue]; exact hl) .issued
  have hothers (j : Nat) (hj : j ≠ je) := entry_setSt_ne u hj .issued
  obtain ⟨v, hv, hve, hvne, hveq⟩ : ∃ v, u.setSt je .issued = v ∧ v.entry je = { u.entry je with st := .issued, since := u.ts }
      ∧ (∀ j, j ≠ je → v.entry j = u.entry j) ∧ v = { u with jnl := v.jnl, hub := v.hub } := ⟨_, rfl, hent, hothers, rfl⟩
  have hrun : s.upRead je = v.modOp je fun o => { o with inflight := true } := by
    unfold upRead
    rw [ho]
    dsimp only
    rw [hh]
    dsimp only
    have hsame : s.issue o.link o.ident false { h with np := false } [] (h.addr.toNat + lowBit8 h.fbe.toNat)
        (h.addr.toNat + o.cut.n - 8 + highBit8 (if o.cut.n = 8 then h.fbe.toNat else h.lbe.toNat)) (.upRd je) (some (s.entry je).inst) = (.sent, u) := hu
    rw [hsame]
    dsimp only
    rw [hv]
  have hts : u.ts = s.ts := by rw [hueq]
  refine ⟨_, tag, hrun, ?_, ?_, ?_, fun j hj => ⟨?_, ?_⟩, ?_, ?_, ?_⟩
  · refine Eq.trans (b := v.entry je) rfl ?_
    rw [hve, hue, hts]
  · have hsent := hissues.sent
    refine (show v.outp = u.outp by rw [hveq]) ▸ hsent
  · have hlink : (v.link (s.route o.link)).outst = (s.link (s.route o.link)).outst ++ [reqOf tag.toNat { h with np := false } false (.upRd je)] := by
      rw [link_congr (show v.links = u.links by rw [hveq])]
      exact congrArg Link.outst hissues.link
    refine ⟨reqOf tag.toNat { h with np := false } false (.upRd je), ?_, rfl, rfl⟩
    refine Eq.mpr (congrArg (reqOf tag.toNat { h with np := false } false (.upRd je) ∈ ·) hlink) ?_
    exact List.mem_append_right _ (List.mem_singleton_self _)
  · exact (hvne j hj).trans (hue j)
  · refine (v.op?_modOp_ne hj _).trans ?_
    rw [hveq, hueq]
    rfl
  · exact show v.daddrs = s.daddrs by rw [hveq, hueq]
  · exact show v.ports = s.ports by rw [hveq, hueq]
  · exact show v.regs = s.regs by rw [hveq, hueq]

theorem upRoom_start (s : State) (p d : Nat) (f : Frame) (wr : Bool) : s.start.upRoom p d f wr = s.upRoom p d f wr := by
  have hje (i : Nat) : s.start.jeRoom i = s.jeRoom i := jeRoom_congr (s := s) (t := s.start) rfl rfl rfl i
  have hpick : s.start.pickJe = s.pickJe := by simp only [pickJe, nextFree_congr (s := s) (t := s.start) rfl]; rfl
  unfold upRoom anyRoom
  simp only [hje, hpick]
  rfl

theorem upAdmissible_start {s : State} {p : Nat} {f : Frame} {wr : Bool} {n je : Nat} {w : Window} {hold : Hold}
    (ha : s.upAdmissible p f wr n w je hold) : s.start.upAdmissible p f wr n w je hold := by
  obtain ⟨hr, hcrc, hb, hm, hp, hex, hst, hn, hlook, hpeer, hcls, hje, htake, hrest⟩ := ha
  exact ⟨hr, hcrc, hb, hm, hp, hex, hst, hn, hlook, hpeer, hcls, (jeRoom_congr (s := s) (t := s.start) rfl rfl rfl _).trans hje, htake, hrest⟩

theorem upWr_admits {s : State} {p : Fin 144} {f : Frame} {n je : Nat} {w : Window} {hold : Hold} (ha : s.upAdmissible p.val f true n w je hold) :
    ∃ t, exec (.upWr p f) s = .next t ∧ s.start.UpAdmits t p.val f je (s.upEntry p.val f true n w) (s.upOp p.val f true w hold) := by
  have hs := upAdmissible_start ha
  obtain ⟨hroom, -⟩ := upAdmissible_room hs
  obtain ⟨hr, hcrc, hb, hm, hp, hex, hst, hn, hlook, -⟩ := id hs
  obtain ⟨v, hv, hrun⟩ := admitUp_admits hs
  exact ⟨v, congrArg Host.Outcome.next (((upFrame_takes ⟨hr, hcrc, hb⟩ hm hp hst hn true).2 hroom hex).1 n w hlook |>.trans hrun), hv⟩

theorem upRd_issues {s : State} {p : Fin 144} {f : Frame} {n je : Nat} {w : Window} {hold : Hold} (ha : s.upAdmissible p.val f false n w je hold)
    (hj : s.judge (gTlink (s.instLink w.owner)) (legacyIdent p.val f.daddr.toNat) (reqFirst (s.upHdr w (upSpec f (swapUnit w.swap))))
      (upLast (s.upHdr w (upSpec f (swapUnit w.swap))) (upSpec f (swapUnit w.swap)).n) true false = .ok)
    (hmoved : (s.link (s.route (s.instLink w.owner))).moved = false) :
    ∃ t tag, exec (.upRd p f) s = .next t ∧ t.entry je = { s.upEntry p.val f false n w with st := .issued }
      ∧ .packet (s.route (s.instLink w.owner)) (.mrd { s.upHdr w (upSpec f (swapUnit w.swap)) with np := false, tag := tag }) ∈ t.outp
      ∧ (∃ r ∈ (t.link (s.route (s.instLink w.owner))).outst, r.tag = tag.toNat ∧ r.purpose = .upRd je)
      ∧ t.daddr p.val f.daddr.toNat = upDaddr (s.daddr p.val f.daddr.toNat) je f
      ∧ s.sameDaddrsBut t p.val f.daddr.toNat ∧ s.sameOpsBut t je ∧ t.ports = s.ports ∧ s.onlyBlocks t [.jnl, .hub] := by
  have hs := upAdmissible_start ha
  obtain ⟨hroom, -⟩ := upAdmissible_room hs
  obtain ⟨hr, hcrc, hb, hm, hp, hex, hst, hn, hlook, -, -, -, -, hrest⟩ := id hs
  rw [if_neg (by rw [Bool.false_and]; exact Bool.false_ne_true)] at hrest
  obtain ⟨v, hv, hrun⟩ := admitUp_admits hs
  have hroute : v.route (s.instLink w.owner) = s.route (s.instLink w.owner) := by
    rw [route, link_congr hv.links]
    rfl
  have hlinks (l : Nat) : v.link l = s.link l := link_congr hv.links l
  have hheld : v.heldTags = s.heldTags := by
    unfold heldTags
    simp only [hlinks]
  obtain ⟨t, tag, ht, hent, hsent, hreq, hops, hdad, hports, hregs⟩ := upRead_issues (h := s.upHdr w (upSpec f (swapUnit w.swap))) hv.op rfl
    (fun h => by
      have hkind : (6 : Nat) = 0 := (congrArg JEntry.kind hv.entry).symm.trans (congrArg JEntry.kind h)
      exact absurd hkind (by decide))
    (by rw [show ({ s.start.upOp p.val f false w hold with age := s.start.ts } : Op).link = s.instLink w.owner from rfl, hroute, hlinks]; exact hmoved)
    (by rw [show ({ s.start.upOp p.val f false w hold with age := s.start.ts } : Op).link = s.instLink w.owner from rfl, hroute, hlinks]; exact hrest.1)
    (by rw [hheld]; exact hrest.2) ((hv.gates.2 ..).trans (Eq.trans (judge_congr (s := s) (t := s.start) rfl rfl rfl ..) hj))
  rw [show ({ s.start.upOp p.val f false w hold with age := s.start.ts } : Op).link = s.instLink w.owner from rfl, hroute] at hsent hreq
  refine ⟨t, tag, congrArg Host.Outcome.next (((upFrame_takes ⟨hr, hcrc, hb⟩ hm hp hst hn false).2 hroom hex).1 n w hlook |>.trans (hrun.trans ht)), ?_,
    hsent, hreq, (daddr_congr hdad ..).trans hv.daddr, fun k hk => ?_, fun j hj => ⟨(hops j hj).1.trans (hv.ops j hj).1, (hops j hj).2.trans (hv.ops j hj).2⟩,
    hports.trans hv.ports, hv.only.congr hregs⟩
  · have hts : v.ts = s.ts := hv.ts
    rw [hent, hv.entry, hts]
    rfl
  · rw [hdad]
    exact hv.daddrs k hk

/-! ### An UP frame that no window takes -/

theorem refuseUp_refuses {s : State} (p d : Nat) (f : Frame) (reason : Nat) :
    (∃ t, s.refuseUp p d f false reason = t
      ∧ (t.port p).statusQ = (s.port p).statusQ
          ++ [{ daddr := d, frame := statusFrame d (bridgeStatus true false reason (burstBytes f) s.ts), closesUp := true }]
      ∧ (t.daddr p d).st = .up ∧ s.sameDaddrsBut t p d ∧ s.samePortsBut t p ∧ t = { s with daddrs := t.daddrs, ports := t.ports })
    ∧ (∃ t, s.refuseUp p d f true reason = t ∧ (t.daddr p d).st = .up ∧ (t.daddr p d).swallow = some reason
      ∧ s.sameDaddrsBut t p d ∧ t = { s with daddrs := t.daddrs }) := by
  have hone := s.oneDaddr_modDaddr p d fun a => { a with
    st := .up, up := some { je := none, frame := f }, swallow := some reason, losses := 0, lossSerial := 0, upRefused := false }
  obtain ⟨u, hu, hone⟩ : ∃ u, (s.modDaddr p d fun a => { a with
    st := .up, up := some { je := none, frame := f }, swallow := some reason, losses := 0, lossSerial := 0, upRefused := false }) = u
    ∧ s.OneDaddr u p d _ := ⟨_, rfl, hone⟩
  have hueq := hone.eq
  have hports : u.ports = s.ports := by rw [hueq]
  have hts : u.ts = s.ts := by rw [hueq]
  refine ⟨?_, u, ?_, by rw [hone.daddr], by rw [hone.daddr], hone.others, hueq⟩
  · have hport := u.port_modPort_same p fun q => { q with statusQ := q.statusQ
      ++ [{ daddr := d, frame := statusFrame d (bridgeStatus true false reason (burstBytes f) s.ts), closesUp := true }] }
    have hpne (q : Nat) (hq : q ≠ p) := u.port_modPort_ne hq fun q => { q with statusQ := q.statusQ
      ++ [{ daddr := d, frame := statusFrame d (bridgeStatus true false reason (burstBytes f) s.ts), closesUp := true }] }
    refine ⟨u.queueStatus p { daddr := d, frame := statusFrame d (bridgeStatus true false reason (burstBytes f) s.ts), closesUp := true }, ?_, ?_,
      congrArg Daddr.st hone.daddr, hone.others, fun q hq => (hpne q hq).trans (port_congr hports q), ?_⟩
    · unfold refuseUp
      dsimp only
      rw [hu, hts]
      rfl
    · refine (congrArg Port.statusQ hport).trans ?_
      rw [port_congr hports]
    · exact congrArg (fun z : State => { z with ports := (u.queueStatus p
        { daddr := d, frame := statusFrame d (bridgeStatus true false reason (burstBytes f) s.ts), closesUp := true }).ports }) hueq
  · unfold refuseUp
    dsimp only
    rw [hu]
    rfl

/-! ### A RETRY of the bridge -/

theorem sendRetryFrame_sends {s : State} (hout : s.outp = []) {p d : Nat} (hd : d < 2048) (cause : Nat) :
    ∃ u, s.sendRetryFrame p { baseFrame 0xB d with
        addr := BitVec.ofNat 22 (cause * 2 ^ 18), arg := BitVec.ofNat 8 (s.f Fld.gptCollCtl_up_hint p) } = u
      ∧ s.retrySent u p d cause ∧ u = { s with ports := u.ports, outp := u.outp } := by
  obtain ⟨g, hg, hgd, hgs⟩ : ∃ g : Frame, { baseFrame 0xB d with
        addr := BitVec.ofNat 22 (cause * 2 ^ 18), arg := BitVec.ofNat 8 (s.f Fld.gptCollCtl_up_hint p) } = g
      ∧ g.daddr.toNat = d ∧ sealFrame g = s.retryFrame p d cause :=
    ⟨_, rfl, (BitVec.toNat_ofNat d 11).trans (Nat.mod_eq_of_lt hd), rfl⟩
  rw [hg]
  unfold sendRetryFrame retrySent
  by_cases hq : (s.port p).statusQ.isEmpty = true
  · rw [if_pos hq, emitFrames_emits]
    refine ⟨_, rfl, ?_, rfl⟩
    rw [if_pos hq]
    refine ⟨?_, rfl⟩
    dsimp only
    rw [hout, List.map_singleton, hgs]
    rfl
  · rw [if_neg hq, hgd, hgs]
    refine ⟨_, rfl, ?_, rfl⟩
    rw [if_neg hq]
    refine ⟨hout, fun q hq => s.port_modPort_ne hq _, ?_⟩
    exact s.port_modPort_same p fun q => { q with statusQ := q.statusQ ++ [{
      daddr := d, frame := s.retryFrame p d cause, retry := true }] }

/-- Two counters of one port's page lie in different registers. -/
theorem apart_port {id id' : RegId} (h : (id, id') ∈ [(RegId.gptRetryCnt, RegId.gptSlotCnt), (.gptRetryCnt, .gptCollCnt)]) {p : Nat} (hp : p < 144) :
    regOff id p ≠ regOff id' p := by
  have hall : ∀ x ∈ [(RegId.gptRetryCnt, RegId.gptSlotCnt), (.gptRetryCnt, .gptCollCnt)], ∀ p < 144, regOff x.1 p ≠ regOff x.2 p := by decide +kernel
  exact hall _ h p hp

/-- What sending a RETRY leaves. -/
structure Retries (s t : State) (p d cause : Nat) (wr : Bool) : Prop where
  sent : s.retrySent t p d cause
  daddr : t.daddr p d = { s.daddr p d with upRefused := wr, lossSerial := (s.daddr p d).openSerial + 1 }
  daddrs : s.sameDaddrsBut t p d
  count : t.f Fld.gptRetryCnt_retry_tx p = sat Fld.gptRetryCnt_retry_tx (s.f Fld.gptRetryCnt_retry_tx p + 1)
  only : s.onlyRegs t (if cause = 1 then [(.gptRetryCnt, p)] else [(.gptRetryCnt, p), (.gptSlotCnt, p)])
  eq : t = { s with daddrs := t.daddrs, ports := t.ports, regs := t.regs, outp := t.outp }

theorem sendRetry_retries {s : State} (hout : s.outp = []) {p d : Nat} (hp : p < 144) (hd : d < 2048) (cause : Nat) (wr : Bool) :
    s.Retries (s.sendRetry p d cause wr) p d cause wr := by
  obtain ⟨u, hu, hsent, hueq⟩ := sendRetryFrame_sends hout (p := p) hd cause
  have huregs : u.regs = s.regs := by rw [hueq]
  obtain ⟨v, hv, hvoff, hvf, hvonly⟩ : ∃ v, u.incF Fld.gptRetryCnt_retry_tx p = v ∧ v.offRegs = u.offRegs
      ∧ v.f Fld.gptRetryCnt_retry_tx p = sat Fld.gptRetryCnt_retry_tx (s.f Fld.gptRetryCnt_retry_tx p + 1) ∧ s.onlyRegs v [(.gptRetryCnt, p)] := by
    refine ⟨_, rfl, offRegs_incF .., ?_, (onlyRegs_of_regs huregs _).trans (onlyRegs_incF u (List.mem_singleton_self _) 1)⟩
    rw [f_incF_sat u (by decide) 1 _, f_congr huregs]
  obtain ⟨w, hw, hwoff, hwf, hwonly⟩ : ∃ w, (if cause = 1 then v else v.incF Fld.gptSlotCnt_slot_full p) = w ∧ w.offRegs = v.offRegs
      ∧ w.f Fld.gptRetryCnt_retry_tx p = sat Fld.gptRetryCnt_retry_tx (s.f Fld.gptRetryCnt_retry_tx p + 1)
      ∧ s.onlyRegs w (if cause = 1 then [(.gptRetryCnt, p)] else [(.gptRetryCnt, p), (.gptSlotCnt, p)]) := by
    by_cases hc : cause = 1
    · rw [if_pos hc, if_pos hc]
      exact ⟨v, rfl, rfl, hvf, hvonly⟩
    · rw [if_neg hc, if_neg hc]
      refine ⟨_, rfl, offRegs_incF .., ?_, (hvonly.mono fun x hx => List.mem_cons.mpr (.inl (List.mem_singleton.mp hx))).trans (onlyRegs_incF v (x := Fld.gptSlotCnt_slot_full) (i := p)
        (List.mem_cons_of_mem _ (List.mem_singleton_self _)) 1)⟩
      rw [f_incF_ne v (apart_port (id := .gptRetryCnt) (id' := .gptSlotCnt) (by simp) hp) 1, hvf]
  have hone := w.oneDaddr_modDaddr p d fun a => { a with upRefused := wr, lossSerial := a.openSerial + 1 }
  have hrun : s.sendRetry p d cause wr = w.modDaddr p d fun a => { a with upRefused := wr, lossSerial := a.openSerial + 1 } := by
    unfold sendRetry
    dsimp only
    rw [hu, hv, hw]
  rw [hrun]
  generalize (w.modDaddr p d fun a => { a with upRefused := wr, lossSerial := a.openSerial + 1 }) = t at hone
  have hteq := hone.eq
  have hweq : w = { u with regs := w.regs } := congrArg (fun z : State => { z with regs := w.regs }) (hwoff.trans hvoff)
  have hports : t.ports = u.ports := by rw [hteq, hweq]
  have houtp : t.outp = u.outp := by rw [hteq, hweq]
  have hdad : w.daddrs = s.daddrs := by rw [hweq, hueq]
  have hregs : t.regs = w.regs := by rw [hteq]
  refine ⟨?_, by rw [hone.daddr, daddr_congr hdad], fun k hk => by rw [hone.others k hk, hdad], by rw [f_congr hregs, hwf], hwonly.congr hregs, ?_⟩
  · unfold retrySent at hsent ⊢
    rw [houtp, hports]
    split at hsent
    next hq =>
      rw [if_pos hq]
      exact hsent
    next hq =>
      rw [if_neg hq]
      exact ⟨hsent.1, fun q hne => (port_congr hports q).trans (hsent.2.1 q hne), (port_congr hports p).trans hsent.2.2⟩
  · have hkeep {x y : State} (h : x = y) := congrArg (fun z : State => { z with daddrs := t.daddrs, ports := t.ports, regs := t.regs, outp := t.outp }) h
    have h1 := hkeep hteq
    have h2 := hkeep hweq
    have h3 := hkeep hueq
    exact h1.trans (h2.trans h3)

theorem retrySent_congr {s t u : State} {p d cause : Nat} (h : s.retrySent t p d cause) (hp : u.ports = t.ports) (ho : u.outp = t.outp) :
    s.retrySent u p d cause := by
  unfold retrySent at h ⊢
  rw [ho, hp]
  split at h
  next hq =>
    rw [if_pos hq]
    exact h
  next hq =>
    rw [if_neg hq]
    exact ⟨h.1, fun q hne => (port_congr hp q).trans (h.2.1 q hne), (port_congr hp p).trans h.2.2⟩

/-- What a collision leaves: a RETRY, and a loss that may be counted. -/
theorem collide_retries {s : State} (hout : s.outp = []) {p d : Nat} (hp : p < 144) (hd : d < 2048) (wr : Bool) :
    ∃ t, s.collide p d wr = t ∧ s.retrySent t p d 1 ∧ (t.daddr p d).upRefused = wr
      ∧ t.f Fld.gptRetryCnt_retry_tx p = sat Fld.gptRetryCnt_retry_tx (s.f Fld.gptRetryCnt_retry_tx p + 1)
      ∧ s.sameDaddrsBut t p d ∧ s.onlyRegs t [(.gptRetryCnt, p), (.gptCollCnt, p)]
      ∧ t = { s with daddrs := t.daddrs, ports := t.ports, regs := t.regs, outp := t.outp } := by
  obtain ⟨u, hu, hret⟩ : ∃ u, s.sendRetry p d 1 wr = u ∧ s.Retries u p d 1 wr := ⟨_, rfl, sendRetry_retries hout hp hd 1 wr⟩
  have hueq := hret.eq
  have honly1 := hret.only
  rw [if_pos rfl] at honly1
  have honly : s.onlyRegs u [(.gptRetryCnt, p), (.gptCollCnt, p)] := honly1.mono fun x hx => List.mem_cons.mpr (.inl (List.mem_singleton.mp hx))
  unfold collide
  dsimp only
  rw [hu]
  split
  · have hone := u.oneDaddr_modDaddr p d fun q => { q with losses := q.losses + 1, lossBy := q.openSerial + 1 }
    obtain ⟨v, hv, hone⟩ : ∃ v, (u.modDaddr p d fun q => { q with losses := q.losses + 1, lossBy := q.openSerial + 1 }) = v ∧ u.OneDaddr v p d _ :=
      ⟨_, rfl, hone⟩
    have hveq := hone.eq
    have hvregs : v.regs = u.regs := by rw [hveq]
    obtain ⟨w, hw, hwoff, hwonly⟩ : ∃ w, (if (s.daddr p d).losses + 1 = 4 then (v.incF Fld.gptCollCnt_losses p).incF Fld.gptCollCnt_reservations p
        else v.incF Fld.gptCollCnt_losses p) = w ∧ w.offRegs = v.offRegs ∧ v.onlyRegs w [(.gptCollCnt, p)] := by
      have hloss := onlyRegs_incF v (x := Fld.gptCollCnt_losses) (i := p) (List.mem_singleton_self _) 1
      split
      · exact ⟨_, rfl, (offRegs_incF ..).trans (offRegs_incF ..), hloss.trans (onlyRegs_incF _ (List.mem_singleton_self _) 1)⟩
      · exact ⟨_, rfl, offRegs_incF .., hloss⟩
    have hweq : w = { v with regs := w.regs } := congrArg (fun z : State => { z with regs := w.regs }) hwoff
    have hdad : w.daddrs = v.daddrs := by rw [hweq]
    have hports : w.ports = u.ports := by rw [hweq, hveq]
    have houtp : w.outp = u.outp := by rw [hweq, hveq]
    rw [hv, hw]
    refine ⟨w, rfl, retrySent_congr hret.sent hports houtp, ?_, ?_, fun k hk => ?_, (honly.congr hvregs).trans (hwonly.mono (by simp)), ?_⟩
    · rw [daddr_congr hdad, hone.daddr, hret.daddr]
    · rw [hwonly.f_eq (x := Fld.gptRetryCnt_retry_tx) (i := p) fun x hx => ?_, f_congr hvregs, hret.count]
      rw [List.mem_singleton.mp hx]
      exact (apart_port (id := .gptRetryCnt) (id' := .gptCollCnt) (by simp) hp).symm
    · rw [hdad, hone.others k hk]
      exact hret.daddrs k hk
    · have hkeep {x y : State} (h : x = y) := congrArg (fun z : State => { z with daddrs := w.daddrs, ports := w.ports, regs := w.regs, outp := w.outp }) h
      have h1 := hkeep hweq
      have h2 := hkeep hveq
      have h3 := hkeep hueq
      exact h1.trans (h2.trans h3)
  · exact ⟨u, rfl, hret.sent, by rw [hret.daddr], hret.count, hret.daddrs, honly, hueq⟩

theorem upFrame_collides {s : State} {p : Nat} {f : Frame} (hc : s.UpComes p f) (hst : (s.daddr p f.daddr.toNat).st = .cmd) (wr : Bool) :
    s.upFrame p f wr = s.collide p f.daddr.toNat wr := by
  obtain ⟨hrecv, hcrc, hburst⟩ := hc
  unfold upFrame
  dsimp only
  rw [hrecv, hcrc, hburst, hst]
  rfl

/-! ### The data of an UP-WR -/

theorem flushEvents_none {s : State} (h : s.evWait = []) (n : Nat) : s.flushEvents n = s := by
  unfold flushEvents
  dsimp only
  rw [h]
  have heq : ({ s with evWait := [] } : State) = s := by rw [← h]
  exact heq

/-- The bytes of an UP frame's payload, each at its swapped place. -/
def upBytes (o : Op) (uf f : Frame) : List Byte :=
  (List.range o.cut.n).map fun k =>
    let y := swapAddr o.cut.u (o.cut.base + k)
    if burstFirst uf ≤ y ∧ y ≤ burstLast uf then f.payload.getD (y - frameAddr uf) 0 else 0

theorem upAccept_posts {s : State} {p d je : Nat} {o : Op} {h : ReqHdr} {uf f : Frame} (ho : s.op? je = some o) (hk : (s.entry je).kind = 5)
    (hh : o.hdr = some h) (hnp : o.np = false) (hsilent : o.silent = false) (hev : s.evWait = [])
    (hj : s.judge (gTlink o.link) o.ident (reqFirst h) (upLast h o.cut.n) false true = .ok) :
    ∃ t, s.upAccept p d je o uf f.payload = t ∧ .packet (s.route o.link) (.mwr h (upBytes o uf f)) ∈ t.outp
      ∧ (t.port p).statusQ = (s.port p).statusQ ++ [{
          daddr := d, frame := statusFrame d (bridgeStatus false false 0 0 s.ts), je := some je, closesUp := true }]
      ∧ (t.entry je).st = .issued ∧ t.op? je = some { o with posted := true, done := true, hold := {} }
      ∧ (∀ j, j ≠ je → t.op? j = s.op? j) ∧ t.daddrs = s.daddrs ∧ s.samePortsBut t p ∧ t.regs = s.regs := by
  have hl : s.entry je ≠ {} := fun h0 => absurd (hk.symm.trans (congrArg JEntry.kind h0)) (by decide)
  obtain ⟨u, hu, hue, hueq⟩ : ∃ u, s.setSt je .issued = u ∧ u.entry je = { s.entry je with st := .issued, since := s.ts }
      ∧ u = { s with jnl := u.jnl, hub := u.hub } := ⟨_, rfl, entry_setSt_same hl .issued, rfl⟩
  have hgate := gateCheck_ok ((judge_congr (s := s) (t := u) (by rw [hueq]) (by rw [hueq]) (by rw [hueq]) ..).trans hj)
    (some (s.entry je).inst) (some je)
  obtain ⟨good, hgood⟩ : ∃ good : StatusTx, { daddr := d, frame := statusFrame d (bridgeStatus false false 0 0 s.ts), je := some je, closesUp := true } = good :=
    ⟨_, rfl⟩
  have hport := u.port_modPort_same p fun q => { q with statusQ := q.statusQ ++ [good] }
  have hpne (q : Nat) (hq : q ≠ p) := u.port_modPort_ne hq fun q => { q with statusQ := q.statusQ ++ [good] }
  obtain ⟨v, hv, hvp, hvpne, hveq⟩ : ∃ v, u.queueStatus p good = v ∧ v.port p = { u.port p with statusQ := (u.port p).statusQ ++ [good] }
      ∧ (∀ q, q ≠ p → v.port q = u.port q) ∧ v = { u with ports := v.ports } := ⟨_, rfl, hport, hpne, rfl⟩
  obtain ⟨pk, hpk⟩ : ∃ pk : TxPkt, { pkt := .mwr h (upBytes o uf f), cls := (s.entry je).cls, age := o.age, serial := (s.entry je).serial, own := .op je } = pk :=
    ⟨_, rfl⟩
  obtain ⟨w, hw, hwsent, hweq⟩ : ∃ w, v.handPkt o.link pk = w ∧ .packet (v.route o.link) pk.pkt ∈ w.outp
      ∧ w = { v with links := w.links, outp := w.outp } :=
    ⟨_, rfl, outp_handPkt v o.link pk List.mem_cons_self, eq_of_offLinks (offLinks_handPkt v o.link pk)⟩
  have hwo : w.op? je = some o := by rw [hweq, hveq, hueq]; exact ho
  have hmod := w.op?_modOp_same je fun o => { o with posted := true, done := true, hold := {} }
  rw [hwo] at hmod
  have hwev : w.evWait = [] := by rw [hweq, hveq, hueq]; exact hev
  have hrun : s.upAccept p d je o uf f.payload = w.modOp je fun o => { o with posted := true, done := true, hold := {} } := by
    have hk7 : ¬ (s.entry je).kind = 7 := by omega
    unfold upAccept
    dsimp only
    rw [if_neg hk7, hh]
    dsimp only
    rw [hu, hnp, if_neg Bool.false_ne_true, hsilent]
    have hgate' : u.gateCheck (gTlink o.link) o.ident (h.addr.toNat + lowBit8 h.fbe.toNat)
        (h.addr.toNat + o.cut.n - 8 + highBit8 (if o.cut.n = 8 then h.fbe.toNat else h.lbe.toNat)) false true (some (s.entry je).inst) (some je)
        = (true, u) := hgate
    rw [hgate']
    simp only [Bool.not_true, Bool.false_eq_true, if_false]
    rw [hgood, hv]
    unfold upBytes at hpk
    rw [hpk, hw]
    exact flushEvents_none (s := w.modOp je fun o => { o with posted := true, done := true, hold := {} }) hwev _
  have hlinks : v.links = s.links := by rw [hveq, hueq]
  have hports : w.ports = v.ports := by rw [hweq]
  have huports : u.ports = s.ports := by rw [hueq]
  refine ⟨_, hrun, ?_, ?_, ?_, hmod, fun j hj => (w.op?_modOp_ne hj _).trans (by rw [hweq, hveq, hueq]; rfl), ?_, fun q hq => ?_, ?_⟩
  · rw [show v.route o.link = s.route o.link by rw [route, link_congr hlinks, route], ← hpk] at hwsent
    exact hwsent
  · refine (congrArg Port.statusQ (port_congr hports p)).trans ?_
    rw [hvp, port_congr huports, ← hgood]
  · refine Eq.trans (b := (w.entry je).st) rfl ?_
    rw [show w.entry je = u.entry je by rw [hweq, hveq]; rfl, hue]
  · exact show w.daddrs = s.daddrs by rw [hweq, hveq, hueq]
  · exact (port_congr hports q).trans ((hvpne q hq).trans (port_congr huports q))
  · exact show w.regs = s.regs by rw [hweq, hveq, hueq]

theorem upData_posts {s : State} {p : Fin 144} {f uf : Frame} {je : Nat} {o : Op} {h : ReqHdr} (hr : s.portRecv p.val = true)
    (hcrc : s.crcOk f = true) (hst : (s.daddr p.val f.daddr.toNat).st = .up)
    (hup : (s.daddr p.val f.daddr.toNat).up = some { je := some je, frame := uf }) (hft : uf.ftype = 0x11)
    (hwaits : s.statusWaits p.val f.daddr.toNat = false) (hok : dataOk (frameWords uf) uf.fbe.toNat uf.lbe.toNat f = true)
    (ho : s.op? je = some o) (hk : (s.entry je).kind = 5) (hh : o.hdr = some h) (hnp : o.np = false) (hsilent : o.silent = false)
    (hc0 : o.c0wait = false) (hev : s.evWait = [])
    (hj : s.judge (gTlink o.link) o.ident (reqFirst h) (upLast h o.cut.n) false true = .ok) :
    ∃ t, exec (.upData p f) s = .next t ∧ .packet (s.route o.link) (.mwr h (upBytes o uf f)) ∈ t.outp
      ∧ (t.port p.val).statusQ = (s.port p.val).statusQ ++ [{
          daddr := f.daddr.toNat, frame := statusFrame f.daddr.toNat (bridgeStatus false false 0 0 s.ts), je := some je, closesUp := true }]
      ∧ (t.entry je).st = .issued ∧ t.op? je = some { o with posted := true, done := true, hold := {} }
      ∧ (∀ j, j ≠ je → t.op? j = s.op? j) ∧ s.sameDaddrsBut t p.val f.daddr.toNat ∧ s.samePortsBut t p.val ∧ t.regs = s.regs := by
  have hmod := s.start.oneDaddr_modDaddr p.val f.daddr.toNat fun q => { q with up := some { je := some je, frame := uf, data := some f.payload } }
  obtain ⟨u, hu, hone⟩ : ∃ u, (s.start.modDaddr p.val f.daddr.toNat fun q => { q with up := some { je := some je, frame := uf, data := some f.payload } }) = u
      ∧ s.start.OneDaddr u p.val f.daddr.toNat _ := ⟨_, rfl, hmod⟩
  have hueq := hone.eq
  obtain ⟨t, ht, hsent, hq, hent, hop, hops, hdad, hports, hregs⟩ := upAccept_posts (s := u) (p := p.val) (d := f.daddr.toNat) (uf := uf) (f := f)
    (by rw [hueq]; exact ho) (by rw [hueq]; exact hk) hh hnp hsilent (by rw [hueq]; exact hev)
    ((judge_congr (s := s) (t := u) (by rw [hueq]; rfl) (by rw [hueq]; rfl) (by rw [hueq]; rfl) ..).trans hj)
  have hrun : exec (.upData p f) s = .next t := by
    refine congrArg Host.Outcome.next ?_
    dsimp only
    rw [show s.start.portRecv p.val = true from hr, show s.start.crcOk f = true from hcrc, show (s.start.daddr p.val f.daddr.toNat).st = .up from hst,
      show (s.start.daddr p.val f.daddr.toNat).up = some { je := some je, frame := uf } from hup]
    simp only [Bool.not_true, Bool.false_eq_true, if_false]
    rw [if_neg, hok]
    · simp only [Bool.not_true, Bool.false_eq_true, if_false]
      rw [show s.start.op? je = some o from ho]
      dsimp only
      rw [hu, hc0, if_neg Bool.false_ne_true]
      exact ht
    · rw [show s.start.statusWaits p.val f.daddr.toNat = false from hwaits]
      rintro (h | h | h)
      · exact h hft
      · exact absurd h (by decide)
      · exact Bool.false_ne_true h
  have huops (j : Nat) : u.op? j = s.op? j := by rw [hueq]; rfl
  have huports (q : Nat) : u.port q = s.port q := by rw [hueq]; rfl
  refine ⟨t, hrun, ?_, ?_, hent, hop, fun j hj => (hops j hj).trans (huops j), fun k hk => ?_, fun q hq => (hports q hq).trans (huports q), ?_⟩
  · rw [show u.route o.link = s.route o.link by rw [hueq]; rfl] at hsent
    exact hsent
  · rw [hq, huports, show u.ts = s.ts by rw [hueq]; rfl]
  · rw [hdad]
    exact hone.others k hk
  · rw [hregs, hueq]
    rfl

/-! ### The closing STATUS of an exchange -/

/-- Flushing a port whose next STATUS is no RETRY, or that has nothing at egress, sends nothing. -/
theorem flushPort_stays {s : State} {p : Nat} (he : (s.port p).statusQ = [] → (s.port p).egress = [])
    (hr : ∀ y ∈ (s.port p).statusQ.head?, y.retry = false) (n : Nat) : flushPort n s p = s := by
  cases n with
  | zero => rfl
  | succ n =>
    unfold flushPort
    dsimp only
    cases hq : (s.port p).statusQ with
    | nil =>
      rw [he hq]
    | cons y ys =>
      dsimp only
      rw [hr y (by rw [hq]; rfl)]
      rfl

/-- A completed entry whose last STATUS is acknowledged is FREE. -/
theorem statusAcked_frees {s : State} {je : Nat} {o : Op} (ho : s.op? je = some o) (hin : o.inflight = false) (hst : (s.entry je).st = .completed)
    (hq : ∀ y ∈ (s.port o.port).queue, y.2.je ≠ some je) (hev : s.evWait = []) :
    ∃ t, s.statusAcked je = t ∧ (t.entry je).st = .free ∧ t.op? je = none ∧ s.sameOpsBut t je ∧ (∀ q, t.port q = s.port q)
      ∧ t = { s with ports := t.ports, jnl := t.jnl, ops := t.ops, hub := t.hub } := by
  obtain ⟨u, hu, hups, hueq⟩ : ∃ u, (if (s.entry je).kind = 7 then s.dequeueOp je o.port else s) = u ∧ (∀ q, u.port q = s.port q)
      ∧ u = { s with ports := u.ports } := by
    split
    · refine ⟨_, rfl, fun q => ?_, rfl⟩
      by_cases hqp : q = o.port
      · subst hqp
        have hport := s.port_modPort_same o.port fun q => { q with queue := q.queue.filter fun y => y.2.je != some je }
        refine hport.trans ?_
        rw [List.filter_eq_self.mpr fun y hy => by simpa using hq y hy]
      · exact s.port_modPort_ne hqp _
    · exact ⟨s, rfl, fun _ => rfl, rfl⟩
  obtain ⟨t, ht, hent, hop, hents, hops, hteq⟩ : ∃ t, ({ u with jnl := { u.jnl with entries := FMap.del je u.jnl.entries }, ops := FMap.del je u.ops } : State).jwChange = t
      ∧ t.entry je = {} ∧ t.op? je = none ∧ (∀ j, j ≠ je → t.entry j = u.entry j) ∧ (∀ j, j ≠ je → t.op? j = u.op? j)
      ∧ t = { u with jnl := t.jnl, ops := t.ops, hub := t.hub } :=
    ⟨_, rfl, get_del_same .., FMap.find_del_same .., fun j hj => get_del_ne hj .., fun j hj => FMap.find_del_ne hj .., rfl⟩
  have htev : t.evWait = [] := by rw [hteq, hueq]; exact hev
  refine ⟨t, ?_, by rw [hent], hop, fun j hj => ⟨?_, ?_⟩, fun q => ?_, ?_⟩
  · unfold statusAcked
    rw [ho]
    dsimp only
    rw [if_pos hst, hin, if_neg Bool.false_ne_true]
    unfold freeJe
    dsimp only
    rw [ho]
    dsimp only
    rw [hu, ht, flushEvents_none htev, ite_self]
  · rw [hents j hj, hueq]
    rfl
  · rw [hops j hj, hueq]
    rfl
  · rw [port_congr (show t.ports = u.ports by rw [hteq]), hups]
  · have h1 := congrArg (fun z : State => { z with jnl := t.jnl, ops := t.ops, hub := t.hub }) hueq
    have hports : t.ports = u.ports := by rw [hteq]
    rw [hports]
    exact hteq.trans h1

theorem closingStatus_frees {s : State} {p : Fin 144} {x : StatusTx} {xs : List StatusTx} {je : Nat} {o : Op} (hr : s.portRecv p.val = true)
    (hq : (s.port p.val).statusQ = x :: xs) (hguard : x.guard = false) (hcloses : x.closesUp = true) (hje : x.je = some je)
    (ho : s.op? je = some o) (hin : o.inflight = false) (hst : (s.entry je).st = .completed) (hloss : (s.daddr p.val x.daddr).losses < 4)
    (hsleep : (s.port p.val).sleepPend = false) (heg : xs = [] → (s.port p.val).egress = []) (hretry : ∀ y ∈ xs.head?, y.retry = false)
    (hqueue : ∀ y ∈ (s.port o.port).queue, y.2.je ≠ some je) (hev : s.evWait = []) :
    ∃ t, exec (.closingStatusSent p) s = .next t ∧ t.outp = [.frame p.val 0 x.frame] ∧ (t.port p.val).statusQ = xs
      ∧ t.daddr p.val x.daddr = { s.daddr p.val x.daddr with st := .idle, opened := none, up := none, swallow := none }
      ∧ (t.entry je).st = .free ∧ t.op? je = none ∧ s.sameOpsBut t je ∧ s.sameDaddrsBut t p.val x.daddr ∧ s.samePortsBut t p.val
      ∧ t = { s.start with daddrs := t.daddrs, ports := t.ports, jnl := t.jnl, ops := t.ops, hub := t.hub, outp := t.outp } := by
  have hport := s.start.port_modPort_same p.val fun q => { q with statusQ := xs }
  have hpne (q : Nat) (hq : q ≠ p.val) := s.start.port_modPort_ne hq fun q => { q with statusQ := xs }
  obtain ⟨u, hu, hup, hupne, huout, hueq⟩ : ∃ u, (s.start.modPort p.val fun q => { q with statusQ := xs }).emit (.frame p.val 0 x.frame) = u
      ∧ u.port p.val = { s.port p.val with statusQ := xs } ∧ (∀ q, q ≠ p.val → u.port q = s.port q) ∧ u.outp = [.frame p.val 0 x.frame]
      ∧ u = { s.start with ports := u.ports, outp := u.outp } := ⟨_, rfl, hport, hpne, rfl, rfl⟩
  have hud : u.daddr p.val x.daddr = s.daddr p.val x.daddr := by rw [hueq]; rfl
  obtain ⟨c, hc, hone⟩ : ∃ c, u.closeDaddr p.val x.daddr = c ∧ u.OneDaddr c p.val x.daddr _ := ⟨_, rfl, oneDaddr_close (by rw [hud]; exact hloss)⟩
  have hceq := hone.eq
  have hcports : c.ports = u.ports := by rw [hceq]
  have hcport : (c.port o.port).queue = (s.port o.port).queue := by
    rw [port_congr hcports]
    by_cases hop : o.port = p.val
    · rw [hop, hup]
    · rw [hupne _ hop]
  obtain ⟨t, ht, htst, htop, htops, htports, hteq⟩ := statusAcked_frees (s := c) (je := je) (o := o) (by rw [hceq, hueq]; exact ho) hin
    (by rw [hceq, hueq]; exact hst) (by rw [hcport]; exact hqueue) (by rw [hceq, hueq]; exact hev)
  have htport : t.port p.val = { s.port p.val with statusQ := xs } := by rw [htports, port_congr hcports, hup]
  have hflush (n : Nat) : flushPort n t p.val = t := flushPort_stays (by rw [htport]; exact heg) (by rw [htport]; exact hretry) n
  have hsettle : t.settleSleep p.val = t := by
    unfold settleSleep
    dsimp only
    rw [htport]
    dsimp only
    rw [hsleep]
    rfl
  have hrun : exec (.closingStatusSent p) s = .next t := by
    refine congrArg Host.Outcome.next ?_
    dsimp only
    rw [show s.start.portRecv p.val = true from hr, show (s.start.port p.val).statusQ = x :: xs from hq]
    simp only [Bool.not_true, Bool.false_eq_true, if_false]
    rw [hu, hguard, if_neg Bool.false_ne_true, hcloses, if_pos rfl, hje, hc]
    dsimp only
    rw [ht, hflush, hsettle]
  have hdad : t.daddrs = c.daddrs := by rw [hteq]
  refine ⟨t, hrun, ?_, by rw [htport], ?_, htst, htop, fun j hj => ⟨?_, ?_⟩, fun k hk => ?_, fun q hq => ?_, ?_⟩
  · rw [show t.outp = c.outp by rw [hteq], show c.outp = u.outp by rw [hceq], huout]
  · rw [daddr_congr hdad, hone.daddr, hud]
  · rw [(htops j hj).1, hceq, hueq]
    rfl
  · rw [(htops j hj).2, hceq, hueq]
    rfl
  · rw [hdad, hone.others k hk, hueq]
    rfl
  · rw [htports, port_congr hcports, hupne q hq]
  · have hkeep {x y : State} (h : x = y) := congrArg (fun z : State => { z with
      daddrs := t.daddrs, ports := t.ports, jnl := t.jnl, ops := t.ops, hub := t.hub, outp := t.outp }) h
    have h1 := hkeep hteq
    have h2 := hkeep hceq
    have h3 := hkeep hueq
    exact h1.trans (h2.trans h3)

/-- Settles O35: an UP frame is admitted, refused, or answered with RETRY; the data and the closing STATUS of what was admitted. -/
theorem deviceInitiatedExchanges : Obligations.DeviceInitiatedExchanges := by
  refine ⟨⟨fun s p f n w je hold => ⟨fun ha => ?_, fun ha hj hmoved => upRd_issues ha hj hmoved⟩, fun s p f hr hcrc hb hm hp hex hst hn hlook => ?_,
    fun s p f hr hcrc hb hm hp hst hn => ?_, fun s p f hr hcrc hb hst => ?_⟩, fun s p f uf je o h => upData_posts, fun s p x xs je o => closingStatus_frees⟩
  · obtain ⟨t, ht, hadm⟩ := upWr_admits ha
    exact ⟨t, ht, hadm.entry, ⟨_, hadm.op, rfl, rfl, rfl⟩, hadm.daddr, hadm.daddrs, hadm.ops, hadm.outp, hadm.links, hadm.ports, hadm.only⟩
  · rw [← upRoom_start s p.val f.daddr.toNat f false, ← upRoom_start s p.val f.daddr.toNat f true]
    have htakes (wr : Bool) := upFrame_takes (s := s.start) ⟨hr, hcrc, hb⟩ hm hp (.inl hst) hn wr
    obtain ⟨⟨t, ht, h⟩, ⟨t', ht', h'⟩⟩ := refuseUp_refuses (s := s.start) p.val f.daddr.toNat f 6
    exact ⟨fun hroom => ⟨t, congrArg Host.Outcome.next ((((htakes false).2 hroom hex).2 hlook).trans ht), h⟩,
      fun hroom => ⟨t', congrArg Host.Outcome.next ((((htakes true).2 hroom hex).2 hlook).trans ht'), h'⟩⟩
  · rw [← upRoom_start s p.val f.daddr.toNat f false, ← upRoom_start s p.val f.daddr.toNat f true]
    have htakes (wr : Bool) := upFrame_takes (s := s.start) ⟨hr, hcrc, hb⟩ hm hp hst hn wr
    have hret (wr : Bool) := sendRetry_retries (s := s.start) rfl p.isLt f.daddr.isLt 3 wr
    refine ⟨fun hroom => ⟨_, congrArg Host.Outcome.next ((htakes false).1 hroom), (hret false).sent, ?_, (hret false).daddrs, (hret false).only, (hret false).eq⟩,
      fun hroom => ⟨_, congrArg Host.Outcome.next ((htakes true).1 hroom), (hret true).sent, ?_, (hret true).daddrs, (hret true).only, (hret true).eq⟩⟩
    · rw [(hret false).daddr]
      rfl
    · rw [(hret true).daddr]
  · have hrun (wr : Bool) := upFrame_collides (s := s.start) ⟨hr, hcrc, hb⟩ hst wr
    obtain ⟨t, ht, h⟩ := collide_retries (s := s.start) rfl p.isLt f.daddr.isLt false
    obtain ⟨t', ht', h'⟩ := collide_retries (s := s.start) rfl p.isLt f.daddr.isLt true
    exact ⟨⟨t, congrArg Host.Outcome.next ((hrun false).trans ht), h⟩, ⟨t', congrArg Host.Outcome.next ((hrun true).trans ht'), h'⟩⟩

end State

end Sys2Proof.Machine
end

section
/-! PROOFS. The data of a posted WRITE that has all been placed (R156, R214). -/

namespace Sys2Proof.Machine

namespace State

/-- A posted WRITE of 8 bytes whose host data asked for on engine 0. -/
def postedWrite : CcdX :=
  { c := { op := 2, pst := true, count := 8 }, addr := 0, q := 0, ptag := 0, imm := false, ctx := 0, hasked := 8, fetching := true }

/-- Its data has come at time 1; its entry was last changed at time 0. -/
def dataCame : State :=
  { mode := .run, ts := 1
    ctxs := [(0, { eng := 0, st := .run, je := some 0, got := some (0, List.replicate 8 0) })]
    ops := [(0, { wr := true, cut := { base := 0, n := 8, u := 1, fm := 0xFF, lm := 0xFF }, x := some postedWrite })]
    jnl := { entries := [(0, { st := .issued, kind := 4, eng := 0 })] } }

/-- When the entry of an operation last changed, after a step. -/
def sinceAfter (je : Nat) : Host.Outcome State Fault Refusal → Option Nat
  | .next t => some (t.entry je).since
  | _ => none

theorem sinceAfter_dataCame : sinceAfter 0 (exec (.dataFetch 0) dataCame) = some 1 := by decide +kernel

end State

open State in
/-- Refutes O40: once all the data of a posted WRITE is placed its ENGINE reads "none", and with ENGINE the entry's SINCE moves (R214), so the entry is not
the old one with another ENGINE. -/
theorem not_programsCcdsAndData : ¬ Obligations.ProgramsCcdsAndData := by
  intro h
  obtain ⟨-, -, hdata⟩ := h
  obtain ⟨-, hplaces, -⟩ := hdata dataCame 0 { eng := 0, st := .run, je := some 0, got := some (0, List.replicate 8 0) } 0
    { wr := true, cut := { base := 0, n := 8, u := 1, fm := 0xFF, lm := 0xFF }, x := some postedWrite } postedWrite rfl rfl rfl rfl rfl rfl rfl rfl rfl
  obtain ⟨t, hexec, -, -, ⟨p, y, -, -, -, -, -, -, -, -, -, hentry⟩, -⟩ := hplaces (List.replicate 8 0) rfl rfl rfl rfl rfl rfl
  have hafter := sinceAfter_dataCame
  rw [hexec] at hafter
  have hone : (t.entry 0).since = 1 := Option.some.inj hafter
  have hzero : (t.entry 0).since = 0 := by
    rw [hentry]
    split <;> rfl
  exact absurd (hzero.symm.trans hone) (by decide)

end Sys2Proof.Machine
end

section
/-! PROOFS. Indirect access to the Journal (R175), and the watchdog's tick and selection (R202 to R205). -/

namespace Sys2Proof.Machine

namespace State

/-! ### JNL_DATA -/

/-- The words of JNL_DATA. -/
abbrev jnlDataRegs : List (RegId × Nat) := [(.jnlData, 0), (.jnlData, 1), (.jnlData, 2), (.jnlData, 3), (.jnlData, 4), (.jnlData, 5)]

theorem mem_jnlDataRegs : ∀ k < 6, ((.jnlData, k) : RegId × Nat) ∈ jnlDataRegs := by decide

theorem jnlData_apart : ∀ j < 6, ∀ k < 6, j ≠ k → regOff .jnlData j ≠ regOff .jnlData k := by decide

/-- Of two states only the words of JNL_DATA differ, and these read as `g` tells. -/
structure Shows (s t : State) (g : Nat → Word) : Prop where
  data : ∀ k < 6, t.reg .jnlData k = g k
  only : s.onlyRegs t jnlDataRegs
  off : t.offRegs = s.offRegs

theorem foldl_shows (s : State) (c : Nat → Bool) (g : Nat → Word) : ∀ n ≤ 6,
    s.Shows ((List.range n).foldl (fun t k => if c k then t.setReg .jnlData k (g k) else t) s)
      (fun k => if k < n ∧ c k then g k else s.reg .jnlData k)
  | 0, _ => ⟨fun k _ => (if_neg fun h => absurd h.1 (Nat.not_lt_zero k)).symm, onlyRegs.refl s _, rfl⟩
  | n + 1, hn => by
    obtain ⟨hdata, honly, hoff⟩ := foldl_shows s c g n (by omega)
    rw [List.range_succ, List.foldl_append, List.foldl_cons, List.foldl_nil]
    generalize (List.range n).foldl (fun t k => if c k then t.setReg .jnlData k (g k) else t) s = t at hdata honly hoff
    cases hc : c n with
    | false =>
      rw [if_neg Bool.false_ne_true]
      refine ⟨fun k hk => (hdata k hk).trans (if_congr ⟨fun h => ⟨by omega, h.2⟩, fun h => ⟨?_, h.2⟩⟩ rfl rfl), honly, hoff⟩
      have hne : k ≠ n := fun he => by rw [he, hc] at h; exact absurd h.2 Bool.false_ne_true
      omega
    | true =>
      rw [if_pos rfl]
      refine ⟨fun k hk => ?_, honly.setReg (mem_jnlDataRegs n (by omega)) _, hoff⟩
      by_cases he : k = n
      · rw [he, reg_setReg_same, if_pos ⟨Nat.lt_succ_self n, hc⟩]
      · rw [reg_setReg_ne _ (jnlData_apart k hk n (by omega) he), hdata k hk]
        exact if_congr ⟨fun h => ⟨by omega, h.2⟩, fun h => ⟨by omega, h.2⟩⟩ rfl rfl

theorem setJnlData_shows (s : State) (b : List Byte) : s.Shows (s.setJnlData b) fun k => BitVec.ofNat 32 (fieldAt (4 * k) 4 b) := by
  obtain ⟨hdata, honly, hoff⟩ := s.foldl_shows (fun _ => true) (fun k => BitVec.ofNat 32 (fieldAt (4 * k) 4 b)) 6 (Nat.le_refl 6)
  exact ⟨fun k hk => (hdata k hk).trans (if_pos ⟨hk, rfl⟩), honly, hoff⟩

/-! ### READ -/

/-- An entry that is loaded, with no uncorrectable word of it and no checker exercise in progress. -/
theorem jnlLoad_eq {s : State} {je : Nat} (hu : ∀ w ∈ s.jnl.uncorr, w.1 ≠ je) (hx : s.exOn 0 = false) :
    s.jnlLoad je = (s.setF Fld.jnlStat_uncorr 0).setJnlData (s.entry je).bytes := by
  have hcheck (w : Nat) : s.jnlCheck je w = s := by
    rw [jnlCheck, hx]
    rfl
  have hany : (s.jnl.uncorr.any fun w => w.1 == je) = false := by simpa using fun a b h => hu (a, b) h
  have hraw (b : List Byte) (t : State) (ht : t.jnl = s.jnl) (w : Nat) : rawWord je b t w = (b, t) := by
    rw [rawWord, ht, if_neg]
    rw [List.contains_iff_mem]
    exact fun h => hu _ h rfl
  obtain ⟨u, hset, hjnl⟩ : ∃ u, s.setF Fld.jnlStat_uncorr 0 = u ∧ u.jnl = s.jnl := ⟨_, rfl, setF_jnl ..⟩
  have hentry : u.entry je = s.entry je := entry_congr (congrArg Jnl.entries hjnl) je
  have hno : b2n false = 0 := rfl
  have hall : [0, 1, 2].foldl (fun s w => s.jnlCheck je w) s = s := by
    rw [List.foldl_cons, hcheck, List.foldl_cons, hcheck, List.foldl_cons, hcheck, List.foldl_nil]
  have hraws (b : List Byte) : [0, 1, 2].foldl (fun (a : List Byte × State) w => rawWord je a.1 a.2 w) (b, u) = (b, u) := by
    rw [List.foldl_cons, hraw b u hjnl, List.foldl_cons, hraw b u hjnl, List.foldl_cons, hraw b u hjnl, List.foldl_nil]
  unfold jnlLoad
  dsimp only
  rw [hall, hany, hno, hset, hraws]
  exact ite_self _

theorem jnlJudge_congr {s t : State} (hregs : t.regs = s.regs) (hm : t.mode = s.mode) (hp : t.pwr = s.pwr) (hj : t.jnl.entries = s.jnl.entries)
    (id je : Nat) : t.jnlJudge id je = s.jnlJudge id je := by
  rw [jnlJudge, jnlInst, entry_congr hj, judge_congr hregs hm hp, jnlJudge, jnlInst]

/-- JNL_DATA and the UNCORR flag after bytes have been loaded. -/
theorem loaded_shows (s : State) (b : List Byte) :
    s.onlyRegs ((s.setF Fld.jnlStat_uncorr 0).setJnlData b) ((.jnlStat, 0) :: jnlDataRegs)
      ∧ ((s.setF Fld.jnlStat_uncorr 0).setJnlData b).f Fld.jnlStat_uncorr = 0
      ∧ (s.setF Fld.jnlStat_uncorr 0).Shows ((s.setF Fld.jnlStat_uncorr 0).setJnlData b) fun k => BitVec.ofNat 32 (fieldAt (4 * k) 4 b) := by
  have hshows := (s.setF Fld.jnlStat_uncorr 0).setJnlData_shows b
  refine ⟨(onlyRegs_setF s (x := Fld.jnlStat_uncorr) List.mem_cons_self 0).trans (hshows.only.mono (List.subset_cons_self ..)), ?_, hshows⟩
  rw [hshows.only.f_eq (x := Fld.jnlStat_uncorr) (by decide), f_setF_same _ (by decide)]
  rfl

theorem writeJnl_writes {s : State} {a : Acc} {w : Word} (hg : s.goesWrite a .jnlCmd 0 w = true) :
    ∃ t, writeRow a .jnlCmd 0 w s = .next t ∧ s.Writes a .jnlCmd 0 w (s.start.jnlCommand (accIdent a) w.toNat) t :=
  writeRow_writes hg (by decide) rfl (by decide) rfl (lockBreaks_free rfl _)

theorem setBits_jnlOp (op : Nat) (v : Word) : (setBits 1 0 op v).toNat % 4 = op % 4 := by
  have h := bits_setBits_same (hi := 1) (lo := 0) (by decide) (by decide) op v
  simpa [bits] using h

/-- READ while no scan is in progress. -/
theorem read_runs {s : State} {a : Acc} {v : Word} (hs : s.jnl.scan = none) (hg : s.goesWrite a .jnlCmd 0 (setBits 1 0 1 v) = true) :
    ∃ t, exec (.read a v) s = .next t ∧ s.Writes a .jnlCmd 0 (setBits 1 0 1 v) (s.start.jnlRead (accIdent a)) t := by
  obtain ⟨t, hrow, hw⟩ := writeJnl_writes hg
  have hcmd : s.start.jnlCommand (accIdent a) (setBits 1 0 1 v).toNat = s.start.jnlRead (accIdent a) := by
    have hscan : s.start.jnl.scan = none := hs
    unfold jnlCommand
    rw [setBits_jnlOp, hscan]
    rfl
  rw [hcmd] at hw
  exact ⟨t, hrow, hw⟩

theorem read_loads {s : State} {a : Acc} {v : Word} (hs : s.jnl.scan = none) (hg : s.goesWrite a .jnlCmd 0 (setBits 1 0 1 v) = true)
    (hj : s.jnlJudge (accIdent a) (s.f Fld.jnlIdx_je) = .ok) (hu : ∀ w ∈ s.jnl.uncorr, w.1 ≠ s.f Fld.jnlIdx_je) (hx : s.exOn 0 = false) :
    ∃ t, exec (.read a v) s = .next t
      ∧ (∀ k < 6, t.reg .jnlData k = BitVec.ofNat 32 (fieldAt (4 * k) 4 (s.entry (s.f Fld.jnlIdx_je)).bytes)) ∧ t.f Fld.jnlStat_uncorr = 0
      ∧ s.onlyRegs t ((.jnlStat, 0) :: jnlDataRegs) ∧ t = { s.asideFrom t with regs := t.regs } := by
  obtain ⟨t, hexec, hw⟩ := read_runs hs hg
  have hread : s.start.jnlRead (accIdent a) = (s.start.setF Fld.jnlStat_uncorr 0).setJnlData (s.entry (s.f Fld.jnlIdx_je)).bytes := by
    have hjudge : s.start.jnlJudge (accIdent a) (s.start.f Fld.jnlIdx_je) = .ok := (jnlJudge_congr (s := s) (t := s.start) rfl rfl rfl rfl ..).trans hj
    have hload : s.start.jnlLoad (s.start.f Fld.jnlIdx_je) = _ := jnlLoad_eq (s := s.start) (je := s.f Fld.jnlIdx_je) hu hx
    unfold jnlRead
    dsimp only
    rw [hjudge]
    exact hload
  rw [hread] at hw
  obtain ⟨honly, hflag, hshows⟩ := s.start.loaded_shows (s.entry (s.f Fld.jnlIdx_je)).bytes
  refine ⟨t, hexec, fun k hk => ?_, ?_, honly.congr hw.regs, hw.eq_regs (hshows.off.trans (offRegs_setF ..))⟩
  · rw [reg_congr hw.regs, hshows.data k hk]
  · rw [f_congr hw.regs, hflag]

theorem read_denied {s : State} {a : Acc} {v : Word} (hs : s.jnl.scan = none) (hg : s.goesWrite a .jnlCmd 0 (setBits 1 0 1 v) = true) {p : Nat}
    (hj : s.jnlJudge (accIdent a) (s.f Fld.jnlIdx_je) = .denied p) (hu : ∀ w ∈ s.jnl.uncorr, w.1 ≠ s.f Fld.jnlIdx_je) (hx : s.exOn 0 = false) :
    ∃ t, exec (.read a v) s = .next t ∧ ∀ k < 6, t.reg .jnlData k
      = if s.judgePart gJnl (accIdent a) (jnlAddr (s.jnlInst (s.f Fld.jnlIdx_je)) (s.f Fld.jnlIdx_je) + 4 * k) true false = .deny then 0xDEAD0BAD
        else BitVec.ofNat 32 (fieldAt (4 * k) 4 (s.entry (s.f Fld.jnlIdx_je)).bytes) := by
  obtain ⟨t, hexec, hw⟩ := read_runs hs hg
  have hread : s.start.jnlRead (accIdent a) = (s.start.jnlDenied (accIdent a) (s.f Fld.jnlIdx_je)).gateReport gJnl (accIdent a) p .deny := by
    have hjudge : s.start.jnlJudge (accIdent a) (s.start.f Fld.jnlIdx_je) = .denied p := (jnlJudge_congr (s := s) (t := s.start) rfl rfl rfl rfl ..).trans hj
    unfold jnlRead
    dsimp only
    rw [hjudge]
    rfl
  rw [hread] at hw
  refine ⟨t, hexec, fun k hk => ?_⟩
  obtain ⟨-, -, hshows⟩ := s.start.loaded_shows (s.entry (s.f Fld.jnlIdx_je)).bytes
  have hload : s.start.jnlLoad (s.f Fld.jnlIdx_je) = _ := jnlLoad_eq (s := s.start) (je := s.f Fld.jnlIdx_je) hu hx
  have hdenied := (s.start.jnlLoad (s.f Fld.jnlIdx_je)).foldl_shows
    (fun k => s.judgePart gJnl (accIdent a) (jnlAddr (s.jnlInst (s.f Fld.jnlIdx_je)) (s.f Fld.jnlIdx_je) + 4 * k) true false == .deny)
    (fun _ => 0xDEAD0BAD) 6 (Nat.le_refl 6)
  have hapart : ∀ k < 6, regOff .jnlData k ≠ regOff Fld.gateDbgStat_denied.id 0 := by decide
  have hlast : t.reg .jnlData k = (s.start.jnlDenied (accIdent a) (s.f Fld.jnlIdx_je)).reg .jnlData k := by
    rw [reg_congr hw.regs]
    exact reg_setF_ne _ (x := Fld.gateDbgStat_denied) (hapart k hk) _
  rw [hlast]
  refine (hdenied.data k hk).trans ?_
  rw [hload]
  refine (if_congr ⟨fun h => by simpa using h.2, fun h => ⟨hk, by simpa using h⟩⟩ rfl (hshows.data k hk))

theorem zero_words : ∀ k < 6, BitVec.ofNat 32 (fieldAt (4 * k) 4 (List.replicate 24 (0 : Byte))) = 0 := by decide

/-- Words of listed registers lie in the blocks of these. -/
theorem onlyRegs.onlyBlocks {s t : State} {xs : List (RegId × Nat)} {bs : List Block} (h : s.onlyRegs t xs)
    (hbs : ∀ p ∈ xs, ∃ b ∈ bs, blockAt (regOff p.1 p.2) = some b) : s.onlyBlocks t bs := fun k hk => h k fun p hp he => by
  obtain ⟨b, hb, hat⟩ := hbs p hp
  exact hk b (he ▸ hat) hb

/-- A gate refuses an access: one more is counted, and source 0x122 is raised once. -/
theorem gateReport_refuses {s u : State} {g id p : Nat} {bs : List Block} (hm : u.mode ≠ .reset) (hmute : s.mute 0x122 = true) (hflt : u.flt = s.start.flt)
    (honly : s.onlyBlocks u bs) (hbs : Block.flt ∉ bs) :
    ∃ t, u.gateReport g id p .refuse = t ∧ (FMap.get {} g t.gates).refused = min ((FMap.get {} g u.gates).refused + 1) 65535 ∧ s.counted t 0x122
      ∧ u.onlyBlocks t [.flt] ∧ t = { u with regs := t.regs, gates := t.gates, flt := t.flt } := by
  obtain ⟨v, hv, href, hveq⟩ : ∃ v, (u.modGate g fun r => r.capture .refuse id p).modGate g (fun r => { r with refused := min (r.refused + 1) 65535 }) = v
      ∧ (FMap.get {} g v.gates).refused = min ((FMap.get {} g u.gates).refused + 1) 65535 ∧ v = { u with gates := v.gates } := by
    have hcapt : (FMap.get {} g (u.modGate g fun r => r.capture .refuse id p).gates).refused = (FMap.get {} g u.gates).refused := by
      have h := FMap.get_mod_same ({} : GateRec) g (fun r => r.capture .refuse id p) u.gates
      refine (congrArg GateRec.refused h).trans ?_
      rw [GateRec.capture]
      split <;> rfl
    have h := FMap.get_mod_same ({} : GateRec) g (fun r => { r with refused := min (r.refused + 1) 65535 }) (u.modGate g fun r => r.capture .refuse id p).gates
    exact ⟨_, rfl, (congrArg GateRec.refused h).trans (congrArg (fun n => min (n + 1) 65535) hcapt), rfl⟩
  have hregs : v.regs = u.regs := by rw [hveq]
  have hmv : v.mode ≠ .reset := by rw [hveq]; exact hm
  have hfv : v.flt = s.start.flt := by rw [hveq]; exact hflt
  obtain ⟨hraised, hcounted⟩ := raise_after (src := 0x122) hmv (by decide) hmute hfv (honly.congr hregs) hbs g none none 0
  have hgates : (v.raise 0x122 g none none).gates = v.gates := by rw [hraised.eq]
  have hrun : u.gateReport g id p .refuse = v.raise 0x122 g none none := congrArg (State.raise · 0x122 g none none) hv
  refine ⟨_, hrun, by rw [hgates, href], hcounted, (onlyBlocks_of_regs hregs _).trans hraised.only, ?_⟩
  have h1 := hraised.eq
  generalize v.raise 0x122 g none none = t at h1 hgates ⊢
  have h2 := congrArg (fun z : State => { z with regs := t.regs, gates := t.gates, flt := t.flt }) hveq
  have h3 := congrArg (fun z : State => { z with gates := t.gates }) h1
  exact h3.trans h2

theorem not_reset_of_goesWrite {s : State} {a : Acc} {id : RegId} {i : Nat} {v : Word} (hg : s.goesWrite a id i v = true) : s.mode ≠ .reset := by
  intro hm
  have hreach := ((goes_iff s _).mp (Bool.and_eq_true_iff.mp hg).1).reach
  simp [canReach, hm] at hreach

theorem read_refused {s : State} {a : Acc} {v : Word} (hs : s.jnl.scan = none) (hg : s.goesWrite a .jnlCmd 0 (setBits 1 0 1 v) = true) {p : Nat}
    (hj : s.jnlJudge (accIdent a) (s.f Fld.jnlIdx_je) = .bad .refuse p) (hmute : s.mute 0x122 = true) :
    ∃ t, exec (.read a v) s = .next t ∧ (∀ k < 6, t.reg .jnlData k = 0) ∧ s.counted t 0x122
      ∧ (FMap.get {} gJnl t.gates).refused = min ((FMap.get {} gJnl s.gates).refused + 1) 65535 ∧ s.onlyBlocks t [.jnl, .flt]
      ∧ t = { s.asideFrom t with regs := t.regs, gates := t.gates, flt := t.flt } := by
  obtain ⟨t, hexec, hw⟩ := read_runs hs hg
  have hwords := s.start.loaded_shows (List.replicate 24 0)
  obtain ⟨u, hu⟩ : ∃ u, (s.start.setF Fld.jnlStat_uncorr 0).setJnlData (List.replicate 24 0) = u := ⟨_, rfl⟩
  have hread : s.start.jnlRead (accIdent a) = u.gateReport gJnl (accIdent a) p .refuse := by
    have hjudge : s.start.jnlJudge (accIdent a) (s.start.f Fld.jnlIdx_je) = .bad .refuse p :=
      (jnlJudge_congr (s := s) (t := s.start) rfl rfl rfl rfl ..).trans hj
    unfold jnlRead
    dsimp only
    rw [hjudge, ← hu]
    rfl
  rw [hu] at hwords
  obtain ⟨honly, -, hshows⟩ := hwords
  have hoff : u.offRegs = s.start.offRegs := hshows.off.trans (offRegs_setF ..)
  have hueq := eq_of_offRegs hoff
  have hmode : s.mode ≠ .reset := not_reset_of_goesWrite hg
  have hblocks : s.onlyBlocks u [.jnl] := onlyRegs.onlyBlocks honly (by decide)
  obtain ⟨z, hz, href, hcounted, hzonly, hzeq⟩ := gateReport_refuses (g := gJnl) (id := accIdent a) (p := p)
    (by rw [hueq]; exact hmode) hmute (by rw [hueq]) hblocks (by decide)
  rw [hread, hz] at hw
  have htg : t.gates = z.gates := (congrArg State.gates hw.answer : t.offAnswer.gates = z.offAnswer.gates)
  have htf : t.flt = z.flt := (congrArg State.flt hw.answer : t.offAnswer.flt = z.offAnswer.flt)
  have hug : u.gates = s.gates := by rw [hueq]; rfl
  refine ⟨t, hexec, fun k hk => ?_, ⟨by rw [htf]; exact hcounted.1, fun h => by rw [f_congr hw.regs]; exact hcounted.2 h⟩, by rw [htg, href, hug],
    ((hblocks.mono (by decide)).trans (hzonly.mono (by decide))).congr hw.regs, ?_⟩
  · have hat : ∀ k < 6, blockAt (regOff .jnlData k) = some .jnl := by decide
    rw [reg_congr hw.regs, hzonly.reg_eq (hat k hk) (by decide), hshows.data k hk, zero_words k hk]
  · have h1 := hw.eq
    rw [hw.regs.symm, htg.symm, htf.symm] at hzeq
    have h2 := congrArg (fun x : State => { x with outp := t.outp, links := t.links, slowQ := t.slowQ }) hzeq
    have h3 := congrArg (fun x : State => { x with
      outp := t.outp, links := t.links, slowQ := t.slowQ, regs := t.regs, gates := t.gates, flt := t.flt }) hueq
    exact h1.trans (h2.trans h3)

/-! ### SCAN and ABORT -/

theorem jnlSearch_congr {s t : State} (hregs : t.regs = s.regs) (hm : t.mode = s.mode) (hp : t.pwr = s.pwr) (hj : t.jnl.entries = s.jnl.entries)
    (id lim : Nat) : ∀ k je bad den, t.jnlSearch id lim k je bad den = s.jnlSearch id lim k je bad den
  | 0, _, _, _ => rfl
  | k + 1, je, bad, den => by
    have ih := jnlSearch_congr hregs hm hp hj id lim k
    have hrescued : t.rescued = s.rescued := by simp [rescued, hm, hp]
    have hregions : t.regions gJnl = s.regions gJnl := by simp [regions, hrescued, hregs]
    have hskip : t.jnlSkip je = s.jnlSkip je := by rw [jnlSkip, entry_congr hj, hregions, hj, jnlSkip]
    have hpass : t.jnlPasses je = s.jnlPasses je := by
      simp only [jnlPasses, jnlInst, entry_congr hj, f_congr hregs, fb]
    simp only [jnlSearch, jnlJudge_congr hregs hm hp hj, hskip, hpass, ih]

theorem scan_starts {s : State} {a : Acc} {v : Word} (hs : s.jnl.scan = none) (hg : s.goesWrite a .jnlCmd 0 (setBits 1 0 2 v) = true)
    (hr : (s.jnlSearch (accIdent a) (min 4194304 (s.f Fld.jnlIdx_je + 16)) s.scanFuel (s.f Fld.jnlIdx_je) none none).2 = none) :
    ∃ t, exec (.scan a v) s = .next t
      ∧ t = { s.asideFrom t with jnl := { s.jnl with scan := some (accIdent a), scanTold := false } } := by
  obtain ⟨t, hrow, hw⟩ := writeJnl_writes hg
  have hstart : s.start.scanStart (accIdent a) = s.start.modJnl fun j => { j with scan := some (accIdent a), scanTold := false } := by
    have hsearch : (s.start.jnlSearch (accIdent a) (min 4194304 (s.start.f Fld.jnlIdx_je + 16)) s.start.scanFuel (s.start.f Fld.jnlIdx_je)
        none none).2 = none := (congrArg Prod.snd (jnlSearch_congr (s := s) (t := s.start) rfl rfl rfl rfl ..)).trans hr
    unfold scanStart
    dsimp only
    rw [hsearch]
  have hcmd : s.start.jnlCommand (accIdent a) (setBits 1 0 2 v).toNat
      = s.start.modJnl fun j => { j with scan := some (accIdent a), scanTold := false } := by
    have hscan : s.start.jnl.scan = none := hs
    unfold jnlCommand
    rw [setBits_jnlOp, hscan, ← hstart]
    rfl
  rw [hcmd] at hw
  exact ⟨t, hrow, hw.eq⟩

theorem abort_stops {s : State} {a : Acc} {v : Word} (hg : s.goesWrite a .jnlCmd 0 (setBits 1 0 3 v) = true) :
    ∃ t, exec (.abort a v) s = .next t ∧ t = { s.asideFrom t with jnl := { s.jnl with scan := none } } := by
  obtain ⟨t, hrow, hw⟩ := writeJnl_writes hg
  have hcmd : s.start.jnlCommand (accIdent a) (setBits 1 0 3 v).toNat = s.start.modJnl fun j => { j with scan := none } := by
    unfold jnlCommand
    rw [setBits_jnlOp]
    rfl
  rw [hcmd] at hw
  exact ⟨t, hrow, hw.eq⟩

theorem scanDone_idle {s : State} (h : s.jnl.scan = none) : exec .scanDone s = .next s.start := by
  have hscan : s.start.jnl.scan = none := h
  have hmatch : (match s.start.jnl.scan with | some id => s.start.scanEnd id | none => s.start) = s.start := by
    rw [hscan]
  exact congrArg Host.Outcome.next hmatch

/-- A scan that ends without a report of its gate. -/
theorem scanDone_runs {s : State} {id : Nat} (hs : s.jnl.scan = some id) {hit : Option Nat}
    (hr : s.jnlSearch id 4194304 s.scanFuel (s.f Fld.jnlIdx_je) none none = (hit, none)) :
    exec .scanDone s = .next (match hit with
      | some je => ((((s.start.modJnl fun j => { j with scan := none }).setF Fld.jnlIdx_je je).setF Fld.jnlStat_hit 1).setF Fld.jnlStat_none 0).jnlLoad je
      | none => ((s.start.modJnl fun j => { j with scan := none }).setF Fld.jnlStat_hit 0).setF Fld.jnlStat_none 1) := by
  have hscan : s.start.jnl.scan = some id := hs
  have hsearch : s.start.jnlSearch id 4194304 s.start.scanFuel (s.start.f Fld.jnlIdx_je) none none = (hit, none) :=
    (jnlSearch_congr (s := s) (t := s.start) rfl rfl rfl rfl ..).trans hr
  have hmatch : (match s.start.jnl.scan with | some id => s.start.scanEnd id | none => s.start) = s.start.scanEnd id := by
    rw [hscan]
  refine congrArg Host.Outcome.next (hmatch.trans ?_)
  unfold scanEnd
  dsimp only
  rw [hsearch]
  dsimp only
  rw [ite_self none, jnlReport]
  cases hit <;> rfl

theorem scan_misses {s : State} {id : Nat} (hs : s.jnl.scan = some id)
    (hr : s.jnlSearch id 4194304 s.scanFuel (s.f Fld.jnlIdx_je) none none = (none, none)) :
    ∃ t, exec .scanDone s = .next t ∧ t.f Fld.jnlStat_hit = 0 ∧ t.f Fld.jnlStat_none = 1 ∧ t.jnl = { s.jnl with scan := none }
      ∧ s.onlyFields t [(Fld.jnlStat_hit, 0), (Fld.jnlStat_none, 0)] ∧ t = { s.start with regs := t.regs, jnl := t.jnl } := by
  obtain ⟨u, hu, hur, huj, hueq⟩ : ∃ u, (s.start.modJnl fun j => { j with scan := none }) = u ∧ u.regs = s.regs ∧ u.jnl = { s.jnl with scan := none }
      ∧ u = { s.start with jnl := u.jnl } := ⟨_, rfl, rfl, rfl, rfl⟩
  obtain ⟨t, ht, hhit, hnone, honly, hoff⟩ : ∃ t, (u.setF Fld.jnlStat_hit 0).setF Fld.jnlStat_none 1 = t ∧ t.f Fld.jnlStat_hit = 0
      ∧ t.f Fld.jnlStat_none = 1 ∧ u.onlyFields t [(Fld.jnlStat_hit, 0), (Fld.jnlStat_none, 0)] ∧ t.offRegs = u.offRegs := by
    refine ⟨_, rfl, ?_, ?_, ((onlyFields.refl u _).setF ?_ ?_ ?_ _).setF ?_ ?_ ?_ _, by rw [offRegs_setF, offRegs_setF]⟩
    · simp (disch := decide) only [f_setF_ne, f_setF_apart, f_setF_same]
      rfl
    · rw [f_setF_same _ (by decide)]
      rfl
    all_goals decide
  have hexec := scanDone_runs hs hr
  dsimp only at hexec
  rw [hu, ht] at hexec
  have htj : t.jnl = u.jnl := (congrArg State.jnl hoff :)
  refine ⟨t, hexec, hhit, hnone, htj.trans huj, (onlyFields_of_regs hur _).trans honly, ?_⟩
  have h1 := eq_of_offRegs hoff
  have h2 := congrArg (fun z : State => { z with regs := t.regs }) hueq
  rw [htj]
  exact h1.trans h2

theorem scan_hits {s : State} {id j : Nat} (hs : s.jnl.scan = some id)
    (hr : s.jnlSearch id 4194304 s.scanFuel (s.f Fld.jnlIdx_je) none none = (some j, none)) (hunc : ∀ w ∈ s.jnl.uncorr, w.1 ≠ j) (hx : s.exOn 0 = false) :
    ∃ t, exec .scanDone s = .next t ∧ t.f Fld.jnlIdx_je = j % 2 ^ 22 ∧ t.f Fld.jnlStat_hit = 1 ∧ t.f Fld.jnlStat_none = 0
      ∧ (∀ k < 6, t.reg .jnlData k = BitVec.ofNat 32 (fieldAt (4 * k) 4 (s.entry j).bytes)) ∧ t.jnl = { s.jnl with scan := none }
      ∧ s.onlyBlocks t [.jnl] ∧ t = { s.start with regs := t.regs, jnl := t.jnl } := by
  obtain ⟨u, hu, hur, huj, hueq⟩ : ∃ u, (s.start.modJnl fun j => { j with scan := none }) = u ∧ u.regs = s.regs ∧ u.jnl = { s.jnl with scan := none }
      ∧ u = { s.start with jnl := u.jnl } := ⟨_, rfl, rfl, rfl, rfl⟩
  obtain ⟨v, hv, hidx, hhit, hnone, honly, hoff⟩ : ∃ v, ((u.setF Fld.jnlIdx_je j).setF Fld.jnlStat_hit 1).setF Fld.jnlStat_none 0 = v
      ∧ v.f Fld.jnlIdx_je = j % 2 ^ 22 ∧ v.f Fld.jnlStat_hit = 1 ∧ v.f Fld.jnlStat_none = 0 ∧ u.onlyBlocks v [.jnl] ∧ v.offRegs = u.offRegs := by
    refine ⟨_, rfl, ?_, ?_, ?_, (((onlyBlocks.refl u _).setF (b := .jnl) ?_ ?_ _).setF (b := .jnl) ?_ ?_ _).setF (b := .jnl) ?_ ?_ _,
      by rw [offRegs_setF, offRegs_setF, offRegs_setF]⟩
    · simp (disch := decide) only [f_setF_ne, f_setF_apart, f_setF_same]
      rfl
    · simp (disch := decide) only [f_setF_ne, f_setF_apart, f_setF_same]
      rfl
    · rw [f_setF_same _ (by decide)]
      rfl
    all_goals decide
  have hveq := eq_of_offRegs hoff
  have hvj : v.jnl = { s.jnl with scan := none } := by rw [hveq]; exact huj
  have hvx : v.exOn 0 = false := by rw [hveq, hueq]; exact hx
  have hload := jnlLoad_eq (s := v) (je := j) (by rw [hvj]; exact hunc) hvx
  have hentry : v.entry j = s.entry j := entry_congr (by rw [hvj]) j
  rw [hentry] at hload
  obtain ⟨t, ht, htonly, htoff, hdata, hstat⟩ : ∃ t, (v.setF Fld.jnlStat_uncorr 0).setJnlData (s.entry j).bytes = t
      ∧ v.onlyRegs t ((.jnlStat, 0) :: jnlDataRegs) ∧ t.offRegs = v.offRegs
      ∧ (∀ k < 6, t.reg .jnlData k = BitVec.ofNat 32 (fieldAt (4 * k) 4 (s.entry j).bytes))
      ∧ ∀ x : Fld, x.id = .jnlStat → t.f x = (v.setF Fld.jnlStat_uncorr 0).f x := by
    obtain ⟨honly, -, hshows⟩ := v.loaded_shows (s.entry j).bytes
    refine ⟨_, rfl, honly, hshows.off.trans (offRegs_setF ..), hshows.data, fun x hx => hshows.only.f_eq ?_⟩
    rw [hx]
    decide
  have hexec := scanDone_runs hs hr
  dsimp only at hexec
  rw [hu, hv, hload, ht] at hexec
  have htj : t.jnl = v.jnl := (congrArg State.jnl htoff :)
  refine ⟨t, hexec, ?_, ?_, ?_, hdata, htj.trans hvj,
    ((onlyBlocks_of_regs hur _).trans honly).trans (onlyRegs.onlyBlocks htonly (by decide)), ?_⟩
  · rw [htonly.f_eq (x := Fld.jnlIdx_je) (by decide), hidx]
  · rw [hstat Fld.jnlStat_hit rfl, f_setF_apart v (x := Fld.jnlStat_uncorr) (y := Fld.jnlStat_hit) (by decide) rfl (by decide), hhit]
  · rw [hstat Fld.jnlStat_none rfl, f_setF_apart v (x := Fld.jnlStat_uncorr) (y := Fld.jnlStat_none) (by decide) rfl (by decide), hnone]
  · have h1 := eq_of_offRegs (htoff.trans hoff)
    have h2 := congrArg (fun z : State => { z with regs := t.regs }) hueq
    rw [htj, show v.jnl = u.jnl from hvj.trans huj.symm]
    exact h1.trans h2

/-! ### The watchdog -/

theorem shrink_congr {s t : State} (h : ∀ j, t.waitOn j = s.waitOn j) : ∀ k js, t.shrink k js = s.shrink k js
  | 0, _ => rfl
  | k + 1, js => by
    simp only [shrink, h]
    exact shrink_congr h k _

theorem blockedSet_start (s : State) : s.start.blockedSet = s.blockedSet :=
  shrink_congr (s := s) (t := s.start) (fun _ => rfl) _ _

theorem watchdogTick_finds {s : State} (hw : s.works = true) (hen : s.fb Fld.jnlWdCfg_en = true) :
    ∃ t, exec .watchdogTick s = .next t ∧ t.jnl = { s.jnl with blocked := s.blockedSet }
      ∧ (s.blockedSet ≠ [] → t.f Fld.jnlWdStat_set_size = min 65535 s.blockedSet.length) ∧ (s.blockedSet = [] → t.regs = s.regs)
      ∧ s.onlyFields t [(Fld.jnlWdStat_set_size, 0)] ∧ t = { s.start with jnl := t.jnl, regs := t.regs } := by
  have hgo : ¬ ((!s.start.works) = true ∨ (!s.start.fb Fld.jnlWdCfg_en) = true) := by
    rw [show s.start.works = true from hw, show s.start.fb Fld.jnlWdCfg_en = true from hen]
    decide
  obtain ⟨u, hu, huj, hur, hueq⟩ : ∃ u, (s.start.modJnl fun j => { j with blocked := s.blockedSet }) = u
      ∧ u.jnl = { s.jnl with blocked := s.blockedSet } ∧ u.regs = s.regs ∧ u = { s.start with jnl := u.jnl } := ⟨_, rfl, rfl, rfl, rfl⟩
  have hrun : exec .watchdogTick s = .next (if s.blockedSet.isEmpty then u else u.setF Fld.jnlWdStat_set_size (min 65535 s.blockedSet.length)) := by
    refine congrArg Host.Outcome.next ((if_neg hgo).trans ?_)
    dsimp only
    rw [blockedSet_start, hu]
  by_cases hb : s.blockedSet = []
  · rw [if_pos (List.isEmpty_iff.mpr hb)] at hrun
    refine ⟨u, hrun, huj, fun h => absurd hb h, fun _ => hur, onlyFields_of_regs hur _, ?_⟩
    rw [hur]
    exact hueq
  · rw [if_neg fun h => hb (List.isEmpty_iff.mp h)] at hrun
    obtain ⟨t, ht, hf, honly, hoff⟩ : ∃ t, u.setF Fld.jnlWdStat_set_size (min 65535 s.blockedSet.length) = t
        ∧ t.f Fld.jnlWdStat_set_size = min 65535 s.blockedSet.length ∧ u.onlyFields t [(Fld.jnlWdStat_set_size, 0)] ∧ t.offRegs = u.offRegs := by
      refine ⟨_, rfl, ?_, (onlyFields.refl u _).setF (List.mem_singleton_self _) (by decide) (wordsApart_singleton _ _) _, offRegs_setF ..⟩
      rw [f_setF_same _ (by decide)]
      exact Nat.mod_eq_of_lt (Nat.lt_succ_of_le (Nat.min_le_left ..))
    rw [ht] at hrun
    have htj : t.jnl = u.jnl := (congrArg State.jnl hoff :)
    refine ⟨t, hrun, htj.trans huj, fun _ => hf, fun h => absurd h hb, (onlyFields_of_regs hur _).trans honly, ?_⟩
    have h1 := eq_of_offRegs hoff
    have h2 := congrArg (fun z : State => { z with regs := t.regs }) hueq
    rw [htj]
    exact h1.trans h2

/-- An operation's exchange that is stopped, outside a locked sequence. -/
theorem stopExchange_stops {s : State} {je : Nat} {o : Op} (ho : s.op? je = some o) (hl : (s.daddr o.port o.daddr).lock = .none)
    (reason : Nat) (c : Fld) : ∃ t, s.stopExchange je reason c = t ∧ t = { s with ports := t.ports, daddrs := t.daddrs } := by
  unfold stopExchange
  simp only [ho]
  rw [hl, if_neg fun h => h rfl]
  split
  · exact ⟨_, rfl, rfl⟩
  · exact ⟨s, rfl, rfl⟩

theorem finishCpl_blocked {s : State} {je : Nat} {o : Op} (ho : s.op? je = some o) (hctx : o.ctx = none) :
    (s.finishCpl je).jnl.blocked = s.jnl.blocked := by
  unfold finishCpl freeOpCtx
  simp only [ho, hctx]
  split
  · rfl
  next h _ =>
    have hoff (u : State) (l : Nat) (p : TxPkt) : (u.handPkt l p).jnl.blocked = u.jnl.blocked :=
      congrArg Jnl.blocked (congrArg State.jnl (u.offLinks_handPkt l p) : (u.handPkt l p).offLinks.jnl = u.offLinks.jnl)
    exact hoff ..

theorem farEnd_blocked {s : State} {je : Nat} {o : Op} (ho : s.op? je = some o) (hctx : o.ctx = none) (hsilent : o.silent = false)
    (hkind : (s.entry je).kind < 2) (hpst : (s.entry je).pst = false) (hcls : (s.entry je).cls ≠ 0) :
    (s.farEnd je).jnl.blocked = s.jnl.blocked := by
  have hkind4 : ¬ (s.entry je).kind = 4 := by omega
  have hlt : (s.entry je).kind < 4 := by omega
  have hrun : s.farEnd je = (s.dequeueOp je o.port).oweCpl je (s.entry je) o := by
    have hent : (s.dequeueOp je o.port).entry je = s.entry je := rfl
    unfold farEnd
    simp only [ho]
    rw [hent, hsilent, hpst, if_neg Bool.false_ne_true, if_neg hkind4, if_neg Bool.false_ne_true, if_pos hlt]
  rw [hrun]
  unfold oweCpl
  dsimp only
  obtain ⟨u, hu, huo, hub⟩ : ∃ u, ((s.dequeueOp je o.port).setSt je .farDone).modOp je (fun o => { o with done := true, cur := none, stop := true }) = u
      ∧ u.op? je = some { o with done := true, cur := none, stop := true } ∧ u.jnl.blocked = s.jnl.blocked := by
    have hmod := ((s.dequeueOp je o.port).setSt je .farDone).op?_modOp_same je fun o => { o with done := true, cur := none, stop := true }
    have hops : ((s.dequeueOp je o.port).setSt je .farDone).op? je = some o := ho
    rw [hops] at hmod
    exact ⟨_, rfl, hmod, rfl⟩
  rw [hu]
  obtain ⟨v, hv, hveq⟩ : ∃ v, u.formXfer (if (s.entry je).kind < 2 then hubSpoke o.port else hubLanding)
      (hubLink ((s.dequeueOp je o.port).route (s.entry je).link) (if (s.entry je).kind < 2 then hubSpoke o.port else hubLanding)) (s.entry je).cls
      (s.entry je).inst (if (s.entry je).kind < 2 then o.port else (s.entry je).inst)
      (if (s.entry je).err = 0 ∧ !o.wr then o.cut.n else if (s.entry je).err = 3 then 32 else 0) (.op je) (.cpl je) = (true, v)
        ∧ v = { u with hub := v.hub } := ⟨_, if_pos (.inl hcls), (addXfer_formed ..).2⟩
  have hroute : u.route (s.entry je).link = (s.dequeueOp je o.port).route (s.entry je).link := by rw [← hu]; rfl
  rw [hroute, hv, if_pos rfl]
  have hvo : v.op? je = some { o with done := true, cur := none, stop := true } := by rw [hveq]; exact huo
  have hvj : v.jnl = u.jnl := by rw [hveq]
  rw [finishCpl_blocked hvo hctx, hvj, hub]

/-- A direct request whose operation has failed with TO completes at its far end with that status. -/
theorem failedEnd_completes {s z : State} {je : Nat} {o o' : Op} {h : ReqHdr} (hd : s.directOp je o h) (hze : z.entry je = { s.entry je with err := 4 })
    (hzo : z.op? je = some o') (hh : o'.hdr = some h) (hctx : o'.ctx = none) (hsilent : o'.silent = false) (hothers : s.sameOpsBut z je)
    (hlinks : z.links = s.links) (hregs : z.regs = s.regs) :
    ∃ t, z.farEnd je = t ∧ .packet (s.route (s.entry je).link) (.cpl (s.cplHdr h 4 0) []) ∈ t.outp ∧ (t.entry je).err = 4
      ∧ (t.entry je).st = .completed ∧ t.op? je = none ∧ s.sameOpsBut t je ∧ t.jnl.blocked = z.jnl.blocked
      ∧ t = { z.dequeueOp je o'.port with jnl := t.jnl, ops := t.ops, hub := t.hub, links := t.links, outp := t.outp } := by
  obtain ⟨-, -, -, -, -, hkind, hpst, hcls, -⟩ := hd
  have hzkind : (z.entry je).kind < 2 := by rw [hze]; exact hkind
  have hzpst : (z.entry je).pst = false := by rw [hze]; exact hpst
  have hzcls : (z.entry je).cls ≠ 0 := by rw [hze]; exact hcls
  obtain ⟨t, ht, hc, heq⟩ := farEnd_completes hzo hh hctx hsilent hzkind hzpst (by
      rw [hze]
      intro h
      have herr4 : 4 = 0 := congrArg JEntry.err h
      exact absurd herr4 (by decide)) hzcls
  have hroute : z.route (z.entry je).link = s.route (s.entry je).link := by rw [hze, route, link_congr hlinks, route]
  have hcpl : z.opCpl h (z.entry je) o' = .cpl (s.cplHdr h 4 0) [] := by
    have hhdr : z.cplHdr h 4 0 = s.cplHdr h 4 0 := by
      rw [cplHdr, bridgeId, f_congr hregs]
      rfl
    rw [hze]
    exact congrArg (Packet.cpl · []) hhdr
  have hsent := hc.sent
  rw [hroute, hcpl] at hsent
  have htb := farEnd_blocked hzo hctx hsilent hzkind hzpst hzcls
  rw [ht] at htb
  exact ⟨t, ht, hsent, by rw [hc.entry, hze], by rw [hc.entry], hc.op,
    fun j hj => ⟨(hc.others j hj).1.trans (hothers j hj).1, (hc.others j hj).2.trans (hothers j hj).2⟩, htb, heq⟩

/-- The state but for the work in progress. -/
def offWork (s : State) : State := { s with jnl := {}, ops := [], hub := {}, links := [], outp := [], ports := [], daddrs := [] }

theorem eq_of_offWork {s t : State} (h : t.offWork = s.offWork) :
    t = { s with jnl := t.jnl, ops := t.ops, hub := t.hub, links := t.links, outp := t.outp, ports := t.ports, daddrs := t.daddrs } :=
  congrArg (fun z : State => { z with
    jnl := t.jnl, ops := t.ops, hub := t.hub, links := t.links, outp := t.outp, ports := t.ports, daddrs := t.daddrs }) h

theorem offWork_modOp (s : State) (je : Nat) (g : Op → Op) : (s.modOp je g).offWork = s.offWork := rfl
theorem offWork_dequeueOp (s : State) (je p : Nat) : (s.dequeueOp je p).offWork = s.offWork := rfl

/-- A direct request that is cut off completes with its error's status. -/
theorem cutOff_completes {s : State} {je : Nat} {o : Op} {h : ReqHdr} (hd : s.directOp je o h) (hl : (s.daddr o.port o.daddr).lock = .none)
    (detail : Nat) :
    ∃ t, s.cutOff je .to detail = t ∧ .packet (s.route (s.entry je).link) (.cpl (s.cplHdr h 4 0) []) ∈ t.outp ∧ (t.entry je).err = 4
      ∧ (t.entry je).st = .completed ∧ t.op? je = none ∧ s.sameOpsBut t je ∧ t.jnl.blocked = s.jnl.blocked
      ∧ t = { s with jnl := t.jnl, ops := t.ops, hub := t.hub, links := t.links, outp := t.outp, ports := t.ports, daddrs := t.daddrs } := by
  obtain ⟨ho, hh, hx, hsilent, hctx, hkind, hpst, hcls, herr⟩ := hd
  obtain ⟨w, hw, hwone, hwo, hwe, hwb⟩ : ∃ w, s.withdraw [je] = w ∧ s.OneOp w je ∧ w.op? je = some o ∧ w.entry je = s.entry je
      ∧ w.jnl.blocked = s.jnl.blocked := ⟨_, rfl, ⟨fun _ _ => ⟨rfl, rfl⟩, rfl⟩, ho, rfl, rfl⟩
  have hfailb (gaddr : Nat) (rec : List Byte) : (w.fail je .to detail gaddr rec).jnl.blocked = w.jnl.blocked := by
    unfold fail
    dsimp only
    split <;> rfl
  obtain ⟨u, hu, hue, huo, hone⟩ := fail_fails hwo hx (by rw [hwe]; exact herr) .to detail (s.failAt o) (bridgeStatus true true 1 0 s.ts)
  have hub : u.jnl.blocked = s.jnl.blocked := by rw [← hu, hfailb, hwb]
  have hcode : failCode (s.entry je).kind .to = 4 := if_pos (by omega)
  rw [hwe, hcode] at hue
  have huone := hwone.trans hone
  have hud : u.daddrs = s.daddrs := by rw [huone.eq]
  obtain ⟨v, hv, hveq⟩ := stopExchange_stops huo (show (u.daddr o.port o.daddr).lock = .none by rw [daddr, hud]; exact hl) 1 Fld.gptLockCnt_lock_to
  have hvoff : v.offWork = s.offWork := by
    have h1 : v.offWork = u.offWork := by rw [hveq]; rfl
    have h2 : u.offWork = s.offWork := by rw [huone.eq]; rfl
    exact h1.trans h2
  obtain ⟨z, hz, hze, hzo, hzothers, hzb, hzoff, hzlinks⟩ : ∃ z : State,
      ((v.dequeueOp je o.port).modOp je fun o => { o with hold := {}, area := {}, stop := true, cur := none }) = z ∧ z.entry je = { s.entry je with err := 4 }
        ∧ z.op? je = some { w.failed o .to (s.failAt o) (bridgeStatus true true 1 0 s.ts) with hold := {}, area := {}, stop := true, cur := none }
        ∧ s.sameOpsBut z je ∧ z.jnl.blocked = s.jnl.blocked ∧ z.offWork = s.offWork ∧ z.links = s.links := by
    have hvj : v.jnl = u.jnl := by rw [hveq]
    have hvo : v.ops = u.ops := by rw [hveq]
    have hve (j : Nat) : v.entry j = u.entry j := entry_congr (by rw [hvj]) j
    have hvl : v.links = s.links := by rw [hveq, huone.eq]
    have hmod := (v.dequeueOp je o.port).op?_modOp_same je fun o => { o with hold := {}, area := {}, stop := true, cur := none }
    rw [show (v.dequeueOp je o.port).op? je = u.op? je from op?_congr hvo je, huo] at hmod
    refine ⟨_, rfl, (hve je).trans hue, hmod, fun j hj => ⟨(hve j).trans (huone.others j hj).1, ?_⟩, (congrArg Jnl.blocked hvj).trans hub,
      (offWork_modOp ..).trans ((offWork_dequeueOp ..).trans hvoff), hvl⟩
    exact (op?_modOp_ne _ hj _).trans ((op?_congr hvo j).trans (huone.others j hj).2)
  have hrun : s.cutOff je .to detail = z.farEnd je := by
    have hk5 : (z.entry je).kind < 5 := by rw [hze]; exact Nat.lt_trans hkind (by decide)
    unfold cutOff
    simp only [ho]
    rw [hw, hu, hv, hz, if_pos hk5]
  obtain ⟨t, ht, hsent, hte, hst, hop, hothers, hblocked, heq⟩ := failedEnd_completes ⟨ho, hh, hx, hsilent, hctx, hkind, hpst, hcls, herr⟩ hze hzo hh hctx hsilent
    hzothers hzlinks (congrArg State.regs hzoff : z.offWork.regs = s.offWork.regs)
  have htoff : t.offWork = z.offWork := by rw [heq]; rfl
  exact ⟨t, hrun.trans ht, hsent, hte, hst, hop, hothers, hblocked.trans hzb, eq_of_offWork (htoff.trans hzoff)⟩

/-- The selection of a member of the blocked set. -/
theorem watchdogSelect_runs {s : State} (hw : s.works = true) (hen : s.fb Fld.jnlWdCfg_en = true) {y : Option Nat}
    (hy : s.youngest (s.jnl.blocked.filter fun j => s.stalled j (s.entry j)) = y) :
    exec .watchdogSelect s = .next (match y with
      | none => s.start.modJnl fun j => { j with blocked := [] }
      | some je => (((((s.start.modJnl fun j => { j with
          blocked := []
          wdPast := (s.jnl.blocked.filterMap fun j => (s.waitOn j).map (·.1)).foldl (fun m r => FMap.put r s.ts m) j.wdPast }).incF
            Fld.jnlWdStat_fired).setF Fld.jnlWdLast_valid 1).setF Fld.jnlWdLast_je je).cutOff je .to 6).raise 0x0C3 0 (some (s.entry je).inst) (some je)) := by
  have hgo : ¬ ((!s.start.works) = true ∨ (!s.start.fb Fld.jnlWdCfg_en) = true) := by
    rw [show s.start.works = true from hw, show s.start.fb Fld.jnlWdCfg_en = true from hen]
    decide
  have hyoung : s.start.youngest (s.start.jnl.blocked.filter fun j => s.start.stalled j (s.start.entry j)) = y := hy
  refine congrArg Host.Outcome.next ((if_neg hgo).trans ?_)
  rw [hyoung]
  cases y <;> rfl

theorem watchdogSelect_ends {s : State} (hw : s.works = true) (hen : s.fb Fld.jnlWdCfg_en = true) {je : Nat} {o : Op} {h : ReqHdr}
    (hy : s.youngest (s.jnl.blocked.filter fun j => s.stalled j (s.entry j)) = some je) (hd : s.directOp je o h) (hmute : s.muteUc)
    (hl : (s.daddr o.port o.daddr).lock = .none) :
    ∃ t, exec .watchdogSelect s = .next t ∧ .packet (s.route (s.entry je).link) (.cpl (s.cplHdr h 4 0) []) ∈ t.outp
      ∧ (t.entry je).err = 4 ∧ (t.entry je).st = .completed ∧ t.op? je = none ∧ s.sameOpsBut t je
      ∧ t.f Fld.jnlWdStat_fired = sat Fld.jnlWdStat_fired (s.f Fld.jnlWdStat_fired + 1) ∧ t.f Fld.jnlWdLast_valid = 1
      ∧ t.f Fld.jnlWdLast_je = je % 2 ^ 22 ∧ t.jnl.blocked = [] ∧ s.counted t 0x0C3 ∧ s.onlyBlocks t [.jnl, .flt] := by
  have hrun := watchdogSelect_runs hw hen hy
  dsimp only at hrun
  obtain ⟨u, hu, hur, hue, hub, hueq⟩ : ∃ u, (s.start.modJnl fun j => { j with
      blocked := []
      wdPast := (s.jnl.blocked.filterMap fun j => (s.waitOn j).map (·.1)).foldl (fun m r => FMap.put r s.ts m) j.wdPast }) = u ∧ u.regs = s.regs
        ∧ (∀ j, u.entry j = s.entry j) ∧ u.jnl.blocked = [] ∧ u = { s.start with jnl := u.jnl } := ⟨_, rfl, rfl, fun _ => rfl, rfl, rfl⟩
  obtain ⟨v, hv, hfired, hvalid, hlast, honly, hoff⟩ : ∃ v, ((u.incF Fld.jnlWdStat_fired).setF Fld.jnlWdLast_valid 1).setF Fld.jnlWdLast_je je = v
      ∧ v.f Fld.jnlWdStat_fired = sat Fld.jnlWdStat_fired (u.f Fld.jnlWdStat_fired + 1) ∧ v.f Fld.jnlWdLast_valid = 1 ∧ v.f Fld.jnlWdLast_je = je % 2 ^ 22
      ∧ u.onlyRegs v [(.jnlWdStat, 0), (.jnlWdLast, 0)] ∧ v.offRegs = u.offRegs := by
    refine ⟨_, rfl, ?_, ?_, ?_, (((onlyRegs.refl u _).incF ?_ _).setF ?_ _).setF ?_ _,
      by rw [offRegs_setF, offRegs_setF, offRegs_incF]⟩
    · rw [f_setF_ne _ (by decide), f_setF_ne _ (by decide)]
      exact f_incF_sat u (by decide) 1 0
    · simp (disch := decide) only [f_setF_ne, f_setF_apart, f_setF_same]
      rfl
    · rw [f_setF_same _ (by decide)]
      rfl
    all_goals decide
  rw [hu, hv] at hrun
  have hveq : v = { s.start with jnl := v.jnl, regs := v.regs } := by
    have hvj : v.jnl = u.jnl := (congrArg State.jnl hoff :)
    have h1 := eq_of_offRegs hoff
    have h2 := congrArg (fun z : State => { z with regs := v.regs }) hueq
    rw [hvj]
    exact h1.trans h2
  have hvj : v.jnl = u.jnl := (congrArg State.jnl hoff :)
  have hve (j : Nat) : v.entry j = s.entry j := (entry_congr (by rw [hvj]) j).trans (hue j)
  have hvo (j : Nat) : v.op? j = s.op? j := by rw [hveq]; rfl
  have hblocks : s.onlyBlocks v [.jnl] := (onlyBlocks_of_regs hur _).trans (onlyRegs.onlyBlocks honly (by decide))
  have hvd : v.directOp je o h := by
    unfold directOp
    rw [hve, hvo]
    exact hd
  obtain ⟨z, hz, hsent, herr, hst, hop, hothers, hzb, hzeq⟩ := cutOff_completes hvd (by rw [hveq]; exact hl) 6
  rw [hz] at hrun
  have hzr : z.regs = v.regs := by rw [hzeq]
  have hmutez : z.muteUc := by
    refine muteUc_of_onlyBlocks hmute ?_ fun k => ?_
    · rw [f_congr hzr]
      exact hblocks.f_eq (x := Fld.fltEvDest_en) (b := .flt) (by decide) (by decide)
    · rw [reg_congr hzr]
      refine (honly.reg_eq fun p hp => ?_).trans (reg_congr hur ..)
      have hbase : ∀ p ∈ [(RegId.jnlWdStat, 0), (RegId.jnlWdLast, 0)], regOff p.1 p.2 < RegId.evVec.row.block.base := by decide
      exact (regOff_ne_of_lt (hbase p hp) k).symm
  obtain ⟨hraised, hcounted⟩ := raise_afterUc (s := s) (u := z) (src := 0x0C3) (by
      rw [hzeq, hveq]
      exact not_reset_of_works hw) (by decide) hmutez (by rw [hzeq, hveq]) 0 (some (s.entry je).inst) (some je) 0
  generalize z.raise 0x0C3 0 (some (s.entry je).inst) (some je) = t at hrun hraised hcounted
  have htj : t.jnl = z.jnl := by rw [hraised.eq]
  have hte (j : Nat) : t.entry j = z.entry j := by rw [hraised.eq]; rfl
  have hto (j : Nat) : t.op? j = z.op? j := by rw [hraised.eq]; rfl
  have hroute : v.route (v.entry je).link = s.route (s.entry je).link := by rw [hve, hveq]; rfl
  have hhdr : v.cplHdr h 4 0 = s.cplHdr h 4 0 := by
    have hid : v.bridgeId = s.bridgeId := by rw [bridgeId, hblocks.f_eq (b := .tlk) (by decide) (by decide), bridgeId]
    rw [cplHdr, hid, cplHdr]
  rw [hroute, hhdr] at hsent
  have htf (x : Fld) (hb : blockAt (regOff x.id 0) = some .jnl) : t.f x = v.f x := by
    rw [hraised.only.f_eq (b := .jnl) hb (by decide), f_congr hzr]
  refine ⟨t, hrun, by rw [hraised.outp]; exact hsent, by rw [hte, herr], by rw [hte, hst], by rw [hto, hop], fun j hj => ⟨?_, ?_⟩, ?_, ?_, ?_, ?_, hcounted,
    ((hblocks.congr hzr).mono (by decide)).trans (hraised.only.mono (by decide))⟩
  · rw [hte, (hothers j hj).1, hve]
  · rw [hto, (hothers j hj).2, hvo]
  · rw [htf _ (by decide), hfired, f_congr hur]
  · rw [htf _ (by decide), hvalid]
  · rw [htf _ (by decide), hlast]
  · rw [htj, hzb, hvj, hub]

end State

open State in
/-- Settles O44: JNL_CMD by what it loads, reports or starts, and the watchdog by the set that it records and the member that it ends. -/
theorem journalAccessAndWatchdog : Obligations.JournalAccessAndWatchdog := by
  refine ⟨⟨fun s a v je hje hs => ?_, fun s a v hg => abort_stops hg, fun s id hs => ⟨fun j hr hu hx => scan_hits hs hr hu hx, fun hr => scan_misses hs hr⟩,
    fun s hs => scanDone_idle hs⟩,
    fun s hw hen => watchdogTick_finds hw hen,
    fun s hw hen => ⟨fun je o h hy hd hmute hl => watchdogSelect_ends hw hen hy hd hmute hl, fun hy => ⟨_, watchdogSelect_runs hw hen hy, rfl⟩⟩⟩
  subst hje
  exact ⟨fun hg => ⟨fun hj hu hx => read_loads hs hg hj hu hx, fun p hj hu hx => read_denied hs hg hj hu hx, fun p hj hmute => read_refused hs hg hj hmute⟩,
    fun hg hr => scan_starts hs hg hr⟩

end Sys2Proof.Machine
end

section
/-! PROOFS. TAP instructions and the accesses of the access register (R365 to R367). -/

namespace Sys2Proof.Machine

namespace State

/-! ### Instructions -/

theorem loadIr_bypass {s : State} {c : Byte} (h : ({ s.start with tap := { s.tap with ir := c } } : State).tapActs = 0xFF) :
    (s.start.loadIr c).tapActs = 0xFF
      ∧ s.start.loadIr c = { s.start with tap := { s.tap with ir := c }, outp := [.tdo 1, .tdo 0] } := by
  obtain ⟨u, hu⟩ : ∃ u, (({ s.start with tap := { s.tap with ir := c } } : State).emit (.tdo 1)) = u := ⟨_, rfl⟩
  have hacts : u.tapActs = 0xFF := by rw [← hu]; exact h
  have hrun : s.start.loadIr c = u.emit (.tdo 0) := by
    refine Eq.trans (b := if u.tapActs = 0x01 then u.emit (.tdo idcodeWord)
      else if u.tapActs = 0xFF ∨ u.tapActs = 0x05 ∨ u.tapActs = 0x06 then u.emit (.tdo 0) else u) (by rw [← hu]; rfl) ?_
    rw [hacts]
    rfl
  rw [hrun]
  exact ⟨hacts, by rw [← hu]; rfl⟩

theorem bypass_loads (s : State) {code : Byte} (h : code ∉ tapCodes) :
    ∃ t, exec (.bypass code) s = .next t ∧ t.tapActs = 0xFF ∧ t = { s.start with tap := { s.tap with ir := code }, outp := [.tdo 1, .tdo 0] } := by
  have hno : tapCodes.contains code = false := by simpa using h
  have hacts : ({ s.start with tap := { s.tap with ir := code } } : State).tapActs = 0xFF := by
    refine if_pos ?_
    rw [show ({ s.start with tap := { s.tap with ir := code } } : State).tap.ir = code from rfl, hno]
    rfl
  obtain ⟨hff, heq⟩ := loadIr_bypass hacts
  exact ⟨_, congrArg Host.Outcome.next (if_neg (by rw [hno]; exact Bool.false_ne_true)), hff, heq⟩

/-- The instructions that act in RESET alone, each under its code. -/
theorem resetInstr_loads (s : State) {c : Instr} {code : Byte}
    (h : c = .extest ∧ code = 0x00 ∨ c = .extestPulse ∧ code = 0x03 ∨ c = .extestTrain ∧ code = 0x04 ∨ c = .clamp ∧ code = 0x05
      ∨ c = .highz ∧ code = 0x06) :
    ∃ t, exec c s = .next t ∧ t.tapActs = (if s.mode = .reset then code else 0xFF)
      ∧ t = { s.start with
          tap := { s.tap with ir := code }
          outp := if s.mode = .reset ∧ code ≠ 0x05 ∧ code ≠ 0x06 then [.tdo 1] else [.tdo 1, .tdo 0] } := by
  have hrun : exec c s = .next (s.start.loadIr code) ∧ code ∈ resetOnly := by
    rcases h with ⟨rfl, rfl⟩ | ⟨rfl, rfl⟩ | ⟨rfl, rfl⟩ | ⟨rfl, rfl⟩ | ⟨rfl, rfl⟩ <;> exact ⟨rfl, by decide⟩
  obtain ⟨hexec, hmem⟩ := hrun
  have hlisted : ∀ x ∈ resetOnly, tapCodes.contains x = true ∧ x ≠ 0x21 ∧ x ≠ 0x01 ∧ x ≠ 0xFF := by decide
  obtain ⟨hcode, h21, h01, hff⟩ := hlisted code hmem
  by_cases hm : s.mode = .reset
  · obtain ⟨u, hu⟩ : ∃ u, (({ s.start with tap := { s.tap with ir := code } } : State).emit (.tdo 1)) = u := ⟨_, rfl⟩
    have hacts : u.tapActs = code := by
      have hir : u.tap.ir = code := by rw [← hu]; rfl
      have hmode : u.mode = .reset := by rw [← hu]; exact hm
      unfold tapActs
      dsimp only
      rw [hir, hcode, hmode, if_neg (by decide), if_neg fun h => h.2 rfl, if_neg fun h => h21 h.1]
    have hload : s.start.loadIr code = if code = 0x05 ∨ code = 0x06 then u.emit (.tdo 0) else u := by
      refine Eq.trans (b := if u.tapActs = 0x01 then u.emit (.tdo idcodeWord)
        else if u.tapActs = 0xFF ∨ u.tapActs = 0x05 ∨ u.tapActs = 0x06 then u.emit (.tdo 0) else u) (by rw [← hu]; rfl) ?_
      rw [hacts, if_neg h01]
      exact if_congr ⟨fun h => h.resolve_left hff, .inr⟩ rfl rfl
    refine ⟨_, hexec, ?_, ?_⟩
    · rw [hload, if_pos hm]
      split <;> exact hacts
    · rw [hload, ← hu]
      by_cases h56 : code = 0x05 ∨ code = 0x06
      · rw [if_pos h56, if_neg fun h => h56.elim h.2.1 h.2.2]
        rfl
      · rw [if_neg h56, if_pos ⟨hm, fun h => h56 (.inl h), fun h => h56 (.inr h)⟩]
        rfl
  · have hacts : ({ s.start with tap := { s.tap with ir := code } } : State).tapActs = 0xFF := by
      unfold tapActs
      dsimp only
      rw [hcode, if_neg (by decide)]
      exact if_pos ⟨List.contains_iff_mem.mpr hmem, hm⟩
    obtain ⟨hact, heq⟩ := loadIr_bypass hacts
    refine ⟨_, hexec, by rw [if_neg hm]; exact hact, ?_⟩
    rw [if_neg fun h => hm h.1]
    exact heq

/-! ### The access register -/

/-- A state with another output and another TAP. -/
def retap (s : State) (o : List Output) (p : Tap) : State := { s with outp := o, tap := p }

theorem goes_retap (s : State) (o : List Output) (p : Tap) (r : BcsReq) : (s.retap o p).goes r = s.goes r := by
  have hjudge : (s.retap o p).bcsJudge r = s.bcsJudge r := judge_congr (s := s) (t := s.retap o p) rfl rfl rfl ..
  have hprsv : (s.retap o p).prsvStops r = s.prsvStops r := by
    rw [prsvStops, hjudge, prsvStops]
    rfl
  unfold goes
  rw [hjudge, hprsv]
  rfl

/-- The TAP as the update of a scan leaves it before the access. -/
def scanned (p : Tap) (c : Byte) (dr : Nat) : Tap :=
  { p with ir := c, addr := dr / 2 ^ 32 % 2 ^ 26, wr := bit 58 dr, space := bit 59 dr, status := 3 }

/-- A scan of the access register whose update acts. -/
theorem tapScan_updates {s : State} {c : Byte} (a : Acc) {dr : Nat} (hacts : ({ s.start with tap := { s.tap with ir := c } } : State).tapActs ≠ 0xFF)
    (hup : bit 60 dr = true) (hst : s.tap.status ≠ 2) :
    s.start.tapScan c a dr
      = if s.mode = .reset ∨ dr / 2 ^ 32 % 2 ^ 26 % 4 ≠ 0 then .next (s.start.retap [.tdo (tapCapture s.tap)] (scanned s.tap c dr))
        else if bit 59 dr then .next ((s.start.retap [.tdo (tapCapture s.tap)] (scanned s.tap c dr)).landAccess a (dr / 2 ^ 32 % 2 ^ 26) (bit 58 dr) (dr % 2 ^ 32))
        else (s.start.retap [.tdo (tapCapture s.tap)] { scanned s.tap c dr with status := 2 }).bcsRun (tapReq a dr) := by
  refine (if_neg hacts).trans (if_neg ?_)
  rintro (h | h)
  · rw [hup] at h
    exact Bool.false_ne_true h
  · exact hst h

theorem tapActs_svc {s : State} (h : s.tap.ir = 0x20) : s.tapActs = 0x20 := by
  unfold tapActs
  dsimp only
  rw [h, if_neg (by decide), if_neg fun h => absurd h.1 (by decide), if_neg fun h => absurd h.1 (by decide)]

theorem tapActs_dbg {s : State} (h : s.tap.ir = 0x21) (hb : bit 3 (s.f Fld.glbStraps_straps) = true) : s.tapActs = 0x21 := by
  unfold tapActs
  dsimp only
  rw [h, hb, if_neg (by decide), if_neg fun h => absurd h.1 (by decide), if_neg fun h => absurd h.2 (by decide)]

/-- SVC_ACC, and DAP_ACC under its strap, are scans of the access register. -/
theorem acc_scans {s : State} (dr : BitVec 64) {dbg : Bool} (hd : dbg = true → bit 3 (s.f Fld.glbStraps_straps) = true)
    (hup : bit 60 dr.toNat = true) (hst : s.tap.status ≠ 2) :
    ∃ c : Byte, exec (if dbg then .dapAcc dr else .svcAcc dr) s
      = if s.mode = .reset ∨ dr.toNat / 2 ^ 32 % 2 ^ 26 % 4 ≠ 0 then .next (s.start.retap [.tdo (tapCapture s.tap)] (scanned s.tap c dr.toNat))
        else if bit 59 dr.toNat then .next ((s.start.retap [.tdo (tapCapture s.tap)] (scanned s.tap c dr.toNat)).landAccess
          { src := if dbg then .dbg else .svc } (dr.toNat / 2 ^ 32 % 2 ^ 26) (bit 58 dr.toNat) (dr.toNat % 2 ^ 32))
        else (s.start.retap [.tdo (tapCapture s.tap)] { scanned s.tap c dr.toNat with status := 2 }).bcsRun
          (tapReq { src := if dbg then .dbg else .svc } dr.toNat) := by
  cases dbg with
  | false =>
    have hacts : ({ s.start with tap := { s.tap with ir := 0x20 } } : State).tapActs = 0x20 := tapActs_svc rfl
    exact ⟨0x20, tapScan_updates (c := 0x20) { src := .svc } (fun h => absurd (hacts.symm.trans h) (by decide)) hup hst⟩
  | true =>
    have hacts : ({ s.start with tap := { s.tap with ir := 0x21 } } : State).tapActs = 0x21 := tapActs_dbg rfl (hd rfl)
    exact ⟨0x21, tapScan_updates (c := 0x21) { src := .dbg } (fun h => absurd (hacts.symm.trans h) (by decide)) hup hst⟩

/-! ### Reads -/

/-- What an access of the service path keeps beside the registers: the TAP, the output, and the address that SMBus accesses. -/
def sides (s : State) : Tap × List Output × Word := (s.tap, s.outp, s.kst.smbAddr)

theorem sides_of_offFree {s t : State} (h : t.offFree = s.offFree) : t.sides = s.sides :=
  (congrArg sides h : t.offFree.sides = s.offFree.sides)

theorem sides_peek (s : State) (id : RegId) (i : Nat) : (s.peek id i).2.sides = s.sides := sides_of_offFree (offFree_peek s id i)

theorem sides_clearHeld (s : State) (id : RegId) : (s.clearHeld id).sides = s.sides := by
  unfold clearHeld
  split
  case h_1 => dsimp only; split <;> rfl
  case h_4 => dsimp only; split <;> rfl
  case h_5 => dsimp only; split <;> rfl
  all_goals rfl

theorem sides_clearRc (s : State) (id : RegId) (i : Nat) : (s.clearRc id i).sides = s.sides := by
  unfold clearRc
  dsimp only
  split
  · rfl
  · exact sides_clearHeld ..

theorem sides_readReg (s : State) (id : RegId) (i : Nat) : (s.readReg id i).2.sides = s.sides := by
  unfold readReg
  dsimp only
  split
  · exact (sides_clearRc ..).trans (sides_peek ..)
  · split
    · exact sides_peek ..
    next hi j _ => exact ((s.peek id i).2.sides_peek hi j).trans (sides_peek ..)
  · split
    · rfl
    · exact sides_peek ..

theorem sides_readAlias (s : State) (id : RegId) (i : Nat) : (s.readAlias id i).2.sides = s.sides := by
  unfold readAlias
  split
  · split
    · rfl
    · exact sides_peek ..
  · exact sides_peek ..

theorem sides_peekWord (s : State) (off : Nat) : (s.peekWord off).2.sides = s.sides := by
  unfold peekWord
  split
  · exact sides_peek ..
  · exact sides_peek ..
  · rfl

theorem sides_readWord (s : State) (off : Nat) : (s.readWord off).2.sides = s.sides := by
  unfold readWord
  split
  · exact sides_readReg ..
  · exact sides_readAlias ..
  · exact sides_peekWord ..

/-- A read of one word by the service path leaves the TAP, the output and the SMBus address alone. -/
theorem sides_readBytes (s : State) (off : Nat) : (s.readBytes off 4 true).2.sides = s.sides := by
  unfold readBytes
  split
  · rfl
  · rfl
  · exact sides_readWord ..

theorem liveWord_retap (s : State) (o : List Output) (p : Tap) (id : RegId) (i : Nat) : (s.retap o p).liveWord id i = s.liveWord id i := rfl

theorem peek_retap (s : State) (o : List Output) (p : Tap) (id : RegId) (i : Nat) : ((s.retap o p).peek id i).1 = (s.peek id i).1 := by
  unfold peek
  dsimp only
  rw [liveWord_retap, show (s.retap o p).openBits id = s.openBits id from rfl]
  split <;> rfl

theorem readReg_retap (s : State) (o : List Output) (p : Tap) (id : RegId) (i : Nat) : ((s.retap o p).readReg id i).1 = (s.readReg id i).1 := by
  have hpeek := s.peek_retap o p id i
  have hhi : (s.retap o p).hiShadow = s.hiShadow := rfl
  unfold readReg
  dsimp only
  rw [hhi]
  split
  · exact hpeek
  · split <;> exact hpeek
  · split
    · rfl
    · exact hpeek

theorem readAlias_retap (s : State) (o : List Output) (p : Tap) (id : RegId) (i : Nat) : ((s.retap o p).readAlias id i).1 = (s.readAlias id i).1 := by
  have hpeek := s.peek_retap o p id i
  have hhi : (s.retap o p).hiShadow = s.hiShadow := rfl
  unfold readAlias
  rw [hhi]
  split
  · split
    · rfl
    · exact hpeek
  · exact hpeek

theorem readWord_retap (s : State) (o : List Output) (p : Tap) (off : Nat) : ((s.retap o p).readWord off).1 = (s.readWord off).1 := by
  unfold readWord
  split
  · exact readReg_retap ..
  · exact readAlias_retap ..
  · unfold peekWord
    split
    · exact peek_retap ..
    · exact peek_retap ..
    · rfl

/-- What a read returns does not rest on the TAP or the output. -/
theorem readBytes_retap (s : State) (o : List Output) (p : Tap) (off : Nat) :
    ((s.retap o p).readBytes off 4 true).1 = (s.readBytes off 4 true).1 := by
  unfold readBytes
  split
  · rfl
  · rfl
  · exact congrArg (fun w => slice (off % 4) 4 (wordBytes w)) (readWord_retap ..)

/-- An answer that does not cross goes out at once. -/
theorem finishBcs_responds (s : State) {r : BcsReq} (h : ∀ b, reqBlock r = some b → slowBlock b = false) (res : BcsRes) :
    s.finishBcs r res = s.respond r res := by
  unfold finishBcs
  split
  next b hb => rw [h b hb, if_neg Bool.false_ne_true]
  · rfl

theorem respond_tap (s : State) {r : BcsReq} (h : r.via = .tap) (res : BcsRes) : s.respond r res = (s.emit (.bcs r res)).tapAnswer r res := by
  unfold respond
  rw [h]

theorem strap_of_goes {s : State} {dbg : Bool} {dr : Nat} (hg : s.goes (tapReq { src := if dbg then .dbg else .svc } dr) = true) (hd : dbg = true) :
    bit 3 (s.f Fld.glbStraps_straps) = true := by
  subst hd
  have hreach := ((goes_iff s _).mp hg).reach
  exact (Bool.and_eq_true _ _ ▸ hreach : _ ∧ _).2

/-- A scan whose access goes performs it. -/
theorem acc_performs {s : State} {dr : BitVec 64} {dbg : Bool} (hup : bit 60 dr.toNat = true) (hbus : bit 59 dr.toNat = false)
    (hst : s.tap.status ≠ 2) (hm : s.mode ≠ .reset) (hg : s.goes (tapReq { src := if dbg then .dbg else .svc } dr.toNat) = true) :
    ∃ c : Byte, exec (if dbg then .dapAcc dr else .svcAcc dr) s
      = .next ((s.start.retap [.tdo (tapCapture s.tap)] { scanned s.tap c dr.toNat with status := 2 }).bcsPerform
          (tapReq { src := if dbg then .dbg else .svc } dr.toNat)) := by
  obtain ⟨c, hexec⟩ := acc_scans dr (s := s) (dbg := dbg) (strap_of_goes hg) hup hst
  have hal : dr.toNat / 2 ^ 32 % 2 ^ 26 % 4 = 0 := formCause_aligned (r := tapReq _ dr.toNat) rfl ((goes_iff s _).mp hg).form
  have hnot : ¬ (s.mode = .reset ∨ dr.toNat / 2 ^ 32 % 2 ^ 26 % 4 ≠ 0) := fun h => h.elim hm fun h => h hal
  have hreg : ¬ bit 59 dr.toNat = true := by rw [hbus]; exact Bool.false_ne_true
  replace hexec := hexec.trans ((if_neg hnot).trans (if_neg hreg))
  have hgoes : (s.start.retap [.tdo (tapCapture s.tap)] { scanned s.tap c dr.toNat with status := 2 }).Goes
      (tapReq { src := if dbg then .dbg else .svc } dr.toNat) := (goes_iff _ _).mp ((goes_retap ..).trans ((goes_start ..).trans hg))
  exact ⟨c, hexec.trans (Goes.run hgoes rfl)⟩

theorem acc_reads {s : State} (dr : BitVec 64) (dbg : Bool) (hup : bit 60 dr.toNat = true) (hbus : bit 59 dr.toNat = false)
    (hrd : bit 58 dr.toNat = false) (hst : s.tap.status ≠ 2) (hm : s.mode ≠ .reset)
    (hg : s.goes (tapReq { src := if dbg then .dbg else .svc } dr.toNat) = true)
    (hslow : ∀ b, blockAt (dr.toNat / 2 ^ 32 % 2 ^ 26) = some b → slowBlock b = false) :
    ∃ t, exec (if dbg then .dapAcc dr else .svcAcc dr) s = .next t ∧ t.tap.status = 0 ∧ t.tap.addr = dr.toNat / 2 ^ 32 % 2 ^ 26
      ∧ t.tap.data = bytesNat (s.start.readBytes (dr.toNat / 2 ^ 32 % 2 ^ 26) 4 true).1 ∧ .tdo (tapCapture s.tap) ∈ t.outp := by
  obtain ⟨c, hexec⟩ := acc_performs hup hbus hst hm hg
  obtain ⟨r, hr, hwr, hvia, hoff, hlen⟩ : ∃ r, tapReq { src := if dbg then .dbg else .svc } dr.toNat = r ∧ r.wr = false ∧ r.via = .tap
      ∧ r.off = dr.toNat / 2 ^ 32 % 2 ^ 26 ∧ r.en.length = 4 := ⟨_, rfl, hrd, rfl, rfl, rfl⟩
  rw [hr] at hexec
  have hsides := (s.start.retap [.tdo (tapCapture s.tap)] { scanned s.tap c dr.toNat with status := 2 }).sides_readBytes (dr.toNat / 2 ^ 32 % 2 ^ 26)
  have hvalue := s.start.readBytes_retap [.tdo (tapCapture s.tap)] { scanned s.tap c dr.toNat with status := 2 } (dr.toNat / 2 ^ 32 % 2 ^ 26)
  obtain ⟨x, hx⟩ : ∃ x, (s.start.retap [.tdo (tapCapture s.tap)] { scanned s.tap c dr.toNat with status := 2 }).readBytes (dr.toNat / 2 ^ 32 % 2 ^ 26) 4 true
      = x := ⟨_, rfl⟩
  have hperf : (s.start.retap [.tdo (tapCapture s.tap)] { scanned s.tap c dr.toNat with status := 2 }).bcsPerform r
      = (x.2.emit (.bcs r (.done x.1))).tapAnswer r (.done x.1) := by
    unfold bcsPerform
    rw [hwr, if_neg Bool.false_ne_true, hoff, hlen, hx]
    exact (finishBcs_responds _ (by rw [reqBlock, hoff]; exact hslow) _).trans (respond_tap _ hvia _)
  rw [hperf] at hexec
  rw [hx] at hsides hvalue
  have htap : x.2.tap = { scanned s.tap c dr.toNat with status := 2 } := congrArg Prod.fst hsides
  have hout : x.2.outp = [.tdo (tapCapture s.tap)] := congrArg (fun p => p.2.1) hsides
  refine ⟨_, hexec, rfl, congrArg Tap.addr htap, ?_, ?_⟩
  · rw [← hvalue]
    unfold tapAnswer
    dsimp only
    rw [hwr, if_neg Bool.false_ne_true]
  · have hmem : Output.tdo (tapCapture s.tap) ∈ x.2.outp ++ [.bcs r (.done x.1)] := by
      rw [hout]
      exact List.mem_cons_self
    exact hmem

/-! ### Writes -/

theorem glbScratch_full : RegId.glbScratch.row.rw = BitVec.allOnes 32 := by decide

/-- A word of GLB_SCRATCH is stored as it stands. -/
theorem writeWord_scratch {s : State} (a : Acc) (v : Word) (hn : s.noPend (regOff .glbScratch 0) = true) :
    s.writeWord a (regOff .glbScratch 0) v false = s.setReg .glbScratch 0 v := by
  have hl : s.lockMask .glbScratch 0 = 0 := rfl
  rw [writeWord_reg s (id := .glbScratch) (i := 0) (b := .glb) (by decide) rfl (by decide) hn rfl, writeReg, lockBreaks_free hl]
  have hstore : s.store .glbScratch 0 v = s.setReg .glbScratch 0 v := by
    rw [store_unlocked s rfl hl, glbScratch_full]
    unfold putRw
    rw [if_neg (by decide), blend_allOnes]
  exact hstore

/-- A write of GLB_SCRATCH that is performed stores its word and is answered at once. -/
theorem scratch_performs {s : State} (a : Acc) (v : Word) (x : Via) (hn : s.noPend (regOff .glbScratch 0) = true) :
    s.bcsPerform { wordWrite a (regOff .glbScratch 0) v with via := x }
      = (s.setReg .glbScratch 0 v).respond { wordWrite a (regOff .glbScratch 0) v with via := x } (.done []) := by
  have hat : targetAt (regOff .glbScratch 0) = .reg .glbScratch 0 := by decide
  have hwrite : s.bcsWrite { wordWrite a (regOff .glbScratch 0) v with via := x } = s.setReg .glbScratch 0 v := by
    have h := s.bcsWrite_wordWrite a (regOff .glbScratch 0) v fun k => by
      rw [hat]
      exact ⟨nofun, nofun⟩
    exact h.trans (writeWord_scratch a v hn)
  have hstrobe : isStrobe (wordWrite a (regOff .glbScratch 0) v) = false := isStrobe_of_ne fun j hj => by
    rw [hat] at hj
    exact nomatch hj
  have hblock : blockAt (regOff .glbScratch 0) = some .glb := by decide
  unfold bcsPerform
  refine (if_pos rfl).trans ?_
  rw [hwrite]
  refine (if_neg fun h => Bool.false_ne_true (hstrobe.symm.trans h.1)).trans (finishBcs_responds _ (fun b hb => ?_) _)
  rw [← Option.some.inj (hblock.symm.trans hb)]
  rfl

theorem acc_writes {s : State} (dr : BitVec 64) (dbg : Bool) (hup : bit 60 dr.toNat = true) (hbus : bit 59 dr.toNat = false)
    (hwrt : bit 58 dr.toNat = true) (hst : s.tap.status ≠ 2) (hm : s.mode ≠ .reset) (hat : dr.toNat / 2 ^ 32 % 2 ^ 26 = regOff .glbScratch 0)
    (hg : s.goesWrite { src := if dbg then .dbg else .svc } .glbScratch 0 (BitVec.ofNat 32 dr.toNat) = true) :
    ∃ t, exec (if dbg then .dapAcc dr else .svcAcc dr) s = .next t ∧ t.tap.status = 0 ∧ t.reg .glbScratch = BitVec.ofNat 32 dr.toNat
      ∧ s.onlyRegs t [(.glbScratch, 0)] ∧ t = { s.start with outp := t.outp, regs := t.regs, tap := t.tap } := by
  obtain ⟨hgo, hn⟩ := (Bool.and_eq_true _ _ ▸ hg : _ ∧ _)
  have hword : tapReq { src := if dbg then .dbg else .svc } dr.toNat
      = { wordWrite { src := if dbg then .dbg else .svc } (regOff .glbScratch 0) (BitVec.ofNat 32 dr.toNat) with via := .tap } := by
    rw [tapReq, hat, hwrt, if_pos rfl, wordWrite, wordBytes, BitVec.toNat_ofNat]
  obtain ⟨c, hexec⟩ := acc_performs hup hbus hst hm (by rw [hword]; exact hgo)
  obtain ⟨u, hu, hueq⟩ : ∃ u, s.start.retap [.tdo (tapCapture s.tap)] { scanned s.tap c dr.toNat with status := 2 } = u
      ∧ u = { s.start with outp := u.outp, tap := u.tap } := ⟨_, rfl, rfl⟩
  rw [hword, hu, scratch_performs _ _ _ (by rw [hueq]; exact hn), respond_tap _ rfl] at hexec
  have hur : u.regs = s.regs := by rw [hueq]; rfl
  refine ⟨_, hexec, rfl, reg_setReg_same .., (onlyRegs_of_regs hur _).trans (onlyRegs_setReg u (List.mem_singleton_self _) _), ?_⟩
  rw [← hu]
  rfl

/-- A scan whose access cannot start. -/
theorem svcAcc_fails {s : State} (dr : BitVec 64) (hup : bit 60 dr.toNat = true) (hst : s.tap.status ≠ 2)
    (h : s.mode = .reset ∨ dr.toNat / 2 ^ 32 % 4 ≠ 0) :
    ∃ t, exec (.svcAcc dr) s = .next t ∧ t.tap.status = 3
      ∧ t = { s.start with
          tap := { s.tap with ir := 0x20, addr := t.tap.addr, wr := t.tap.wr, space := t.tap.space, status := 3 }, outp := t.outp } := by
  have hacts : ({ s.start with tap := { s.tap with ir := 0x20 } } : State).tapActs = 0x20 := tapActs_svc rfl
  have hstop : s.mode = .reset ∨ dr.toNat / 2 ^ 32 % 2 ^ 26 % 4 ≠ 0 := h.imp_right fun h => by omega
  have hscan := tapScan_updates (c := 0x20) { src := .svc } (fun h => absurd (hacts.symm.trans h) (by decide)) hup hst
  exact ⟨_, hscan.trans (if_pos hstop), rfl, rfl⟩

/-! ### The Landing memory view -/

theorem landByte_known {s : State} (h : s.landKnown = true) (x : Nat) : s.landByte 0 x = FMap.get 0 x s.land.cells := by
  unfold landByte
  rw [h, if_neg (by decide), FMap.get]
  cases FMap.find x s.land.cells with
  | some b => rfl
  | none => exact ite_self 0

theorem landPut_same (m : Land) (x : Nat) (b : Byte) : FMap.get 0 x (landPut m x b).cells = b := by
  unfold landPut
  dsimp only
  split
  · exact FMap.get_set_same ..
  · exact get_put_same ..

theorem landPut_ne (m : Land) {x y : Nat} (h : y ≠ x) (b : Byte) : FMap.get 0 y (landPut m x b).cells = FMap.get 0 y m.cells := by
  unfold landPut
  dsimp only
  split
  · exact FMap.get_set_ne h ..
  · exact get_put_ne h ..

/-- Bytes that are put in order, from an address on. -/
theorem foldl_landPut (m : Land) (x : Nat) (g : Nat → Byte) (n : Nat) :
    ((List.range n).foldl (fun m k => landPut m (x + k) (g k)) m).epoch = m.epoch
    ∧ (∀ k < n, FMap.get 0 (x + k) ((List.range n).foldl (fun m k => landPut m (x + k) (g k)) m).cells = g k)
    ∧ ∀ y, (y < x ∨ x + n ≤ y) → FMap.get 0 y ((List.range n).foldl (fun m k => landPut m (x + k) (g k)) m).cells = FMap.get 0 y m.cells := by
  induction n with
  | zero => exact ⟨rfl, fun k hk => absurd hk (Nat.not_lt_zero k), fun _ _ => rfl⟩
  | succ n ih =>
    obtain ⟨hepoch, hsame, hout⟩ := ih
    rw [List.range_succ, List.foldl_append, List.foldl_cons, List.foldl_nil]
    refine ⟨hepoch, fun k hk => ?_, fun y hy => ?_⟩
    · by_cases he : k = n
      · rw [he, landPut_same]
      · rw [landPut_ne _ (by omega), hsame k (by omega)]
    · rw [landPut_ne _ (by omega), hout y (by omega)]

theorem landView_stores {s : State} (dr : BitVec 64) (hup : bit 60 dr.toNat = true) (hbus : bit 59 dr.toNat = true) (hwrt : bit 58 dr.toNat = true)
    (hst : s.tap.status ≠ 2) (hal : dr.toNat / 2 ^ 32 % 4 = 0) (hlt : dr.toNat / 2 ^ 32 % 2 ^ 26 < 2 ^ 25) (hm : s.mode = .service)
    (hj : s.judge gBuf (accIdent { src := .svc }) (dr.toNat / 2 ^ 32 % 2 ^ 26) (dr.toNat / 2 ^ 32 % 2 ^ 26 + 3) false true = .ok)
    (hformed : s.img.formed = true) (hops : s.ops = []) (hctxs : s.ctxs = []) :
    ∃ t, exec (.svcAcc dr) s = .next t ∧ t.tap.status = 0
      ∧ (∀ k < 4, t.landByte 0 (dr.toNat / 2 ^ 32 % 2 ^ 26 + k) = BitVec.ofNat 8 (fieldAt k 1 (natBytes 4 (dr.toNat % 2 ^ 32))))
      ∧ (s.land.epoch = s.jnl.serial →
          ∀ x, (x < dr.toNat / 2 ^ 32 % 2 ^ 26 ∨ dr.toNat / 2 ^ 32 % 2 ^ 26 + 4 ≤ x) → t.landByte 0 x = s.landByte 0 x)
      ∧ t = { s.start with tap := t.tap, outp := t.outp, land := t.land } := by
  have hacts : ({ s.start with tap := { s.tap with ir := 0x20 } } : State).tapActs = 0x20 := tapActs_svc rfl
  have hal' : ¬ (s.mode = .reset ∨ dr.toNat / 2 ^ 32 % 2 ^ 26 % 4 ≠ 0) := by
    rw [hm]
    exact fun h => h.elim (fun h => nomatch h) fun h => h (by omega)
  have hscan := (tapScan_updates (c := 0x20) { src := .svc } (fun h => absurd (hacts.symm.trans h) (by decide)) hup hst).trans
    ((if_neg hal').trans (if_pos hbus))
  generalize dr.toNat / 2 ^ 32 % 2 ^ 26 = x at *
  generalize hv : dr.toNat % 2 ^ 32 = v at *
  obtain ⟨u, hu, hueq⟩ : ∃ u, s.start.retap [.tdo (tapCapture s.tap)] (scanned s.tap 0x20 dr.toNat) = u
      ∧ u = { s.start with outp := u.outp, tap := u.tap } := ⟨_, rfl, rfl⟩
  rw [hu] at hscan
  have hjudge : u.judge gBuf (accIdent { src := .svc }) x (x + 3) false true = .ok :=
    (judge_congr (s := s) (by rw [hueq]; rfl) (by rw [hueq]; rfl) (by rw [hueq]; rfl) ..).trans hj
  have hmode : u.landMode true = true := by
    rw [landMode, show u.mode = .service by rw [hueq]; exact hm]
  obtain ⟨hepoch, hbytes, hout⟩ := foldl_landPut u.landFresh x (fun k => BitVec.ofNat 8 (fieldAt k 1 (natBytes 4 v))) 4
  obtain ⟨m, hm'⟩ : ∃ m, (List.range 4).foldl (fun m k => landPut m (x + k) (BitVec.ofNat 8 (fieldAt k 1 (natBytes 4 v)))) u.landFresh = m := ⟨_, rfl⟩
  rw [hm'] at hepoch hbytes hout
  have hland : u.landAccess { src := .svc } x true v = { u with land := m, tap := { u.tap with status := 0 } } := by
    have hput : u.landWrite x (natBytes 4 v) = { u with land := m } := by
      unfold landWrite
      rw [show u.img.formed = true by rw [hueq]; exact hformed, show u.ops = [] by rw [hueq]; exact hops, show u.ctxs = [] by rw [hueq]; exact hctxs, hm']
      rfl
    unfold landAccess
    dsimp only
    rw [hmode, if_neg (by simp; omega), Bool.not_true, hjudge]
    dsimp only
    rw [if_pos rfl, hput]
  rw [hwrt, hland] at hscan
  have hfresh : u.landFresh.epoch = s.jnl.serial := by
    have hl : u.land = s.land := by rw [hueq]; rfl
    have hs : u.jnl = s.jnl := by rw [hueq]; rfl
    unfold landFresh
    rw [hl, hs]
    split
    next h => exact h
    next => rfl
  have hknown : ({ u with land := m, tap := { u.tap with status := 0 } } : State).landKnown = true := by
    have hju : u.jnl = s.jnl := by rw [hueq]; rfl
    have h : landKnown ({ u with land := m, tap := { u.tap with status := 0 } } : State)
        = (u.img.formed && u.ops.isEmpty && u.ctxs.isEmpty && m.epoch == u.jnl.serial) := rfl
    rw [h, hepoch, hfresh, hju, show u.img.formed = true by rw [hueq]; exact hformed, show u.ops = [] by rw [hueq]; exact hops,
      show u.ctxs = [] by rw [hueq]; exact hctxs]
    simp
  refine ⟨_, hscan, rfl, fun k hk => (landByte_known hknown _).trans (hbytes k hk), fun he y hy => ?_, ?_⟩
  · have hks : s.landKnown = true := by
      rw [landKnown, hformed, hops, hctxs, he]
      simp
    have hfl : u.landFresh = s.land := by
      have hl : u.land = s.land := by rw [hueq]; rfl
      have hs : u.jnl = s.jnl := by rw [hueq]; rfl
      rw [landFresh, hl, hs, if_pos he]
    rw [landByte_known hknown, landByte_known hks, ← hfl]
    exact hout y hy
  · rw [← hu]
    rfl

end State

open State in
/-- Settles O20: a TAP instruction by what it selects, and a scan of the access register by the one access that it starts. -/
theorem tapScans : Obligations.TapScans := by
  refine ⟨⟨fun s => ⟨_, rfl, rfl, rfl⟩, fun s c code h => resetInstr_loads s h, fun s => ⟨_, rfl, rfl, rfl⟩, fun s code h => bypass_loads s h,
    fun s => ⟨_, rfl, rfl⟩⟩,
    fun s dr dbg hup hbus hrd hst hm hg hslow => acc_reads dr dbg hup hbus hrd hst hm hg hslow,
    fun s dr dbg hup hbus hwrt hst hm hat hg => acc_writes dr dbg hup hbus hwrt hst hm hat hg,
    fun s dr hup hst h => svcAcc_fails dr hup hst h,
    fun s dr hup hbus hwrt hst hal hlt hm hj hformed hops hctxs => landView_stores dr hup hbus hwrt hst hal hlt hm hj hformed hops hctxs⟩

end Sys2Proof.Machine
end

section
/-! PROOFS. The SMBus target: its own commands, and its accesses to the control space (R323, R324). -/

namespace Sys2Proof.Machine

namespace State

/-! ### Commands of the target itself -/

theorem smbCmd_good {s : State} (h : s.smbHears = true) (g : State → State) : s.start.smbCmd true g = g s.start := by
  unfold smbCmd
  rw [show s.start.smbHears = true from h]
  rfl

/-- A command that is NACKed and counted. -/
theorem nack_counts (s : State) {x : Fld} (hfit : x.fits) :
    ∃ t, (s.start.emit .smbNack).incF x = t ∧ t.outp = [.smbNack] ∧ t.f x = sat x (s.f x + 1)
      ∧ s.onlyFields t [(x, 0)] ∧ t = { s.start with outp := t.outp, regs := t.regs } := by
  obtain ⟨u, hu, hur, hueq⟩ : ∃ u : State, s.start.emit .smbNack = u ∧ u.regs = s.regs ∧ u = { s.start with outp := [.smbNack] } := ⟨_, rfl, rfl, rfl⟩
  obtain ⟨t, ht, hoff, hf, honly⟩ : ∃ t, u.incF x = t ∧ t.offRegs = u.offRegs ∧ t.f x = sat x (u.f x + 1) ∧ u.onlyFields t [(x, 0)] :=
    ⟨_, rfl, offRegs_incF .., f_incF_sat u hfit 1 _, (onlyFields.refl u _).incF (List.mem_singleton_self _) hfit (wordsApart_singleton _ _) 1⟩
  have hout : t.outp = [.smbNack] := by
    have h : t.outp = u.outp := (congrArg State.outp hoff : t.offRegs.outp = u.offRegs.outp)
    rw [h, hueq]
  refine ⟨t, (congrArg (State.incF · x) hu).trans ht, hout, by rw [hf, f_congr hur], (onlyFields_of_regs hur _).trans honly, ?_⟩
  have h1 := eq_of_offRegs hoff
  have h2 := congrArg (fun z : State => { z with regs := t.regs }) hueq
  rw [hout]
  exact h1.trans h2

theorem badPec_answers {s : State} {c : Instr} (hh : s.smbHears = true)
    (hc : c = .telem false ∨ (∃ lo hi, c = .mode lo hi false) ∨ (∃ v, c = .bcsAddr v false) ∨ c = .bcsResult false ∨ (∃ b, c = .trigger b false)
      ∨ c = .alerts false) :
    exec c s = .next s.start.smbBadPec := by
  have hcmd (g : State → State) : Host.Outcome.next (s.start.smbCmd false g) = (.next s.start.smbBadPec : Host.Outcome State Fault Refusal) := by
    unfold smbCmd
    rw [show s.start.smbHears = true from hh]
    rfl
  rcases hc with rfl | ⟨lo, hi, rfl⟩ | ⟨v, rfl⟩ | rfl | ⟨b, rfl⟩ | rfl
  · exact hcmd _
  · have hgo : ¬ (!s.start.smbHears) = true := by rw [show s.start.smbHears = true from hh]; decide
    exact (if_neg hgo).trans (if_pos rfl)
  all_goals exact hcmd _

theorem unknown_nacks {s : State} {c : Byte} (hh : s.smbHears = true) (hc : c ∉ smbCodes) :
    exec (.smbusUnknownCommand c) s = .next ((s.start.emit .smbNack).incF Fld.kstSmb_nacks) := by
  refine congrArg Host.Outcome.next (if_neg ?_)
  rw [show s.start.smbHears = true from hh]
  rintro (h | h)
  · exact absurd h (by decide)
  · exact hc (List.contains_iff_mem.mp h)

theorem alerts_reads {s : State} (hh : s.smbHears = true) :
    ∃ t, exec (.alerts true) s = .next t ∧ t.outp = [.smb (wordBytes (s.reg .kstAlert))] ∧ t.reg .kstAlert = 0
      ∧ s.onlyRegs t [(.kstAlert, 0)] ∧ t = { s.start with outp := t.outp, regs := t.regs, kst := { s.kst with alertNew := 0 } } := by
  have hrun : exec (.alerts true) s
      = .next ((s.start.readReg .kstAlert 0).2.emit (.smb (wordBytes (s.start.readReg .kstAlert 0).1))) :=
    congrArg Host.Outcome.next (smbCmd_good hh _)
  have hread : s.start.readReg .kstAlert 0 = (s.reg .kstAlert, s.start.clearRc .kstAlert 0) := rfl
  rw [hread] at hrun
  obtain ⟨hreg, honly, -⟩ := s.start.clearRc_clears (id := .kstAlert) (by decide) 0
  have hzero (w : Word) : (w &&& ~~~RegId.kstAlert.row.rc) ||| (RegId.kstAlert.row.reset &&& RegId.kstAlert.row.rc) = 0 := by
    rw [show ~~~RegId.kstAlert.row.rc = 0 by decide, show RegId.kstAlert.row.reset &&& RegId.kstAlert.row.rc = 0 by decide]
    simp
  obtain ⟨u, hu, hueq⟩ : ∃ u, s.start.clearRc .kstAlert 0 = u ∧ u = { s.start with regs := u.regs, kst := { s.kst with alertNew := 0 } } := by
    refine ⟨_, rfl, ?_⟩
    unfold clearRc
    rw [if_neg (by decide)]
    rfl
  rw [hu] at hrun hreg honly
  refine ⟨_, hrun, ?_, hreg.trans (hzero _), honly, ?_⟩
  · have hout : u.outp = [] := by rw [hueq]; rfl
    have hemit : (u.emit (.smb (wordBytes (s.reg .kstAlert)))).outp = u.outp ++ [.smb (wordBytes (s.reg .kstAlert))] := rfl
    rw [hemit, hout]
    rfl
  · exact congrArg (fun z : State => { z with outp := u.outp ++ [Output.smb (wordBytes (s.reg .kstAlert))] }) hueq

theorem trigger_pulses {s : State} (b : Byte) (hh : s.smbHears = true) :
    ∃ t, exec (.trigger b true) s = .next t ∧ b.toNat % 32 ∈ t.kst.trig ∧ t = { s.start with kst := { s.kst with trig := t.kst.trig } } := by
  refine ⟨_, congrArg Host.Outcome.next (smbCmd_good hh _), ?_, rfl⟩
  have hmem : b.toNat % 32 ∈ (if s.kst.trig.contains (b.toNat % 32) then s.kst.trig else s.kst.trig ++ [b.toNat % 32]) := by
    split
    next h => exact List.contains_iff_mem.mp h
    next => exact List.mem_append_right _ (List.mem_singleton_self _)
  exact hmem

theorem result_reads {s : State} (hh : s.smbHears = true) (hm : s.mode ≠ .reset) :
    ∃ t, exec (.bcsResult true) s = .next t ∧ t = { s.start with outp := [.smb (natBytes 1 s.kst.smbRes)] } := by
  have hres : (if s.start.mode = .reset then 2 else s.start.kst.smbRes) = s.kst.smbRes := if_neg hm
  refine ⟨_, congrArg Host.Outcome.next (smbCmd_good hh _), ?_⟩
  rw [hres]
  rfl

theorem alertAddress_answers {s : State} (hh : s.smbHears = true) (hn : s.kst.alertNew ≠ 0) :
    ∃ t, exec .alertResponseAddress s = .next t ∧ (∃ b, t.outp = [.smb [b]])
      ∧ t = { s.start with outp := t.outp, kst := { s.kst with alertNew := 0 } } := by
  refine ⟨_, congrArg Host.Outcome.next (if_neg ?_), ⟨_, rfl⟩, rfl⟩
  rw [show s.start.smbHears = true from hh]
  rintro (h | h)
  · exact absurd h (by decide)
  · exact hn h

/-! ### TELEM -/

theorem modeCode_lt (m : Mode) : modeCode m < 128 := by cases m <;> decide

theorem natBytes_byte (b : Byte) : natBytes 1 b.toNat = [b] := by
  simp [natBytes]

theorem range_eight : ∀ n < 8, List.range 8 = List.range n ++ n :: List.range' (n + 1) (7 - n) := by decide

/-- Where the telemetry record tells what (Table 14.12). -/
theorem telemetry_tells (s : State) (power : Nat) :
    (s.telemetry power).length = 32
      ∧ fieldAt 0 1 (s.telemetry power) = b2n s.flt.aliveRun * 2 ^ 7 + modeCode s.mode
      ∧ fieldAt 2 2 (s.telemetry power) = s.f Fld.pwrAvsStat_vset
      ∧ (∀ n < 8, fieldAt (4 + n) 1 (s.telemetry power) = if s.fb Fld.pwrTemp_valid n then s.f Fld.pwrTemp_temp n else 0x80)
      ∧ fieldAt 14 2 (s.telemetry power) = s.f Fld.pwrDroopStat_count ∧ fieldAt 16 4 (s.telemetry power) = s.ts % 2 ^ 32
      ∧ fieldAt 20 4 (s.telemetry power) = (s.reg .kstAlert).toNat := by
  refine ⟨by simp [telemetry], ?_, ?_, fun n hn => ?_, ?_, ?_, ?_⟩
  · refine fieldAt_natBytes (pre := []) (by simp only [telemetry, List.append_assoc, List.nil_append]; rfl) rfl ?_
    have := modeCode_lt s.mode
    have : b2n s.flt.aliveRun ≤ 1 := by cases s.flt.aliveRun <;> decide
    omega
  · refine fieldAt_natBytes (pre := natBytes 1 _ ++ natBytes 1 _) (by simp only [telemetry, List.append_assoc]; rfl) rfl (f_lt ..)
  · have hbyte : (s.telemTemp n).toNat = if s.fb Fld.pwrTemp_valid n then s.f Fld.pwrTemp_temp n else 0x80 := by
      unfold telemTemp
      split
      · rw [BitVec.toNat_ofNat]
        exact Nat.mod_eq_of_lt (f_lt ..)
      · rfl
    rw [← hbyte]
    refine fieldAt_natBytes (pre := natBytes 1 _ ++ natBytes 1 _ ++ natBytes 2 _ ++ (List.range n).map s.telemTemp)
      (by simp only [telemetry, List.append_assoc, range_eight n hn, List.map_append, List.map_cons, natBytes_byte, List.cons_append, List.nil_append]; rfl)
      (by simp; omega) (s.telemTemp n).isLt
  · refine fieldAt_natBytes (pre := natBytes 1 _ ++ natBytes 1 _ ++ natBytes 2 _ ++ (List.range 8).map s.telemTemp ++ natBytes 2 power)
      (by simp only [telemetry, List.append_assoc]; rfl) (by simp) (f_lt ..)
  · refine fieldAt_natBytes (pre := natBytes 1 _ ++ natBytes 1 _ ++ natBytes 2 _ ++ (List.range 8).map s.telemTemp ++ natBytes 2 power ++ natBytes 2 _)
      (by simp only [telemetry, List.append_assoc]; rfl) (by simp) (Nat.mod_lt _ (by decide))
  · refine fieldAt_natBytes
      (pre := natBytes 1 _ ++ natBytes 1 _ ++ natBytes 2 _ ++ (List.range 8).map s.telemTemp ++ natBytes 2 power ++ natBytes 2 _ ++ natBytes 4 _)
      (by simp only [telemetry, List.append_assoc]; rfl) (by simp) (s.reg .kstAlert).isLt

/-! ### Accesses of the control space -/

theorem respond_smb (s : State) {r : BcsReq} (h : r.via = .smb) (res : BcsRes) : s.respond r res = (s.emit (.bcs r res)).smbAnswer r res := by
  unfold respond
  rw [h]

/-- An access by BCS_READ or BCS_WRITE that goes is performed. -/
theorem smbBcs_performs {s : State} {wr : Bool} {v : Word} (hh : s.smbHears = true) (hm : s.mode ≠ .reset)
    (hg : s.goes (smbReq s.kst.smbAddr.toNat wr v) = true) :
    s.start.smbBcs wr v true = .next (s.start.bcsPerform (smbReq s.kst.smbAddr.toNat wr v)) := by
  have hhear : ¬ (!s.start.smbHears) = true := by rw [show s.start.smbHears = true from hh]; decide
  have hpec : ¬ (!true) = true := by decide
  exact (if_neg hhear).trans ((if_neg hpec).trans ((if_neg hm).trans (bcsRun_of_goes hg rfl)))

/-- What the answer of an access that is performed leaves of the target: the result, and the next address. -/
theorem smbAnswer_steps (s : State) {r : BcsReq} (bs : List Byte) (hal : s.kst.smbAddr.toNat % 4 = 0) :
    (s.smbAnswer r (.done bs)).kst.smbRes = 0 ∧ (s.smbAnswer r (.done bs)).kst.smbAddr = (s.kst.smbAddr + 4 &&& 0x3FFFFFF)
      ∧ s.smbAnswer r (.done bs) = { s with kst := (s.smbAnswer r (.done bs)).kst, outp := if r.wr then s.outp else s.outp ++ [.smb bs] } := by
  have hstep : (if s.kst.smbAddr.toNat % 4 = 0 then s.kst.smbAddr + 4 &&& 0x3FFFFFF else s.kst.smbAddr) = (s.kst.smbAddr + 4 &&& 0x3FFFFFF) :=
    if_pos hal
  unfold smbAnswer
  dsimp only
  split
  · exact ⟨rfl, hstep, rfl⟩
  · exact ⟨rfl, hstep, rfl⟩

theorem bcsRead_reads {s : State} (hh : s.smbHears = true) (hm : s.mode ≠ .reset) (hg : s.goes (smbReq s.kst.smbAddr.toNat false 0) = true)
    (hslow : ∀ b, blockAt s.kst.smbAddr.toNat = some b → slowBlock b = false) :
    ∃ t, exec (.bcsRead true) s = .next t ∧ .smb (s.start.readBytes s.kst.smbAddr.toNat 4 true).1 ∈ t.outp ∧ t.kst.smbRes = 0
      ∧ t.kst.smbAddr = (s.kst.smbAddr + 4 &&& 0x3FFFFFF) := by
  have hexec : exec (.bcsRead true) s = .next (s.start.bcsPerform (smbReq s.kst.smbAddr.toNat false 0)) := smbBcs_performs hh hm hg
  have hal : s.kst.smbAddr.toNat % 4 = 0 := formCause_aligned (r := smbReq _ false 0) rfl ((goes_iff s _).mp hg).form
  have hsides := s.start.sides_readBytes s.kst.smbAddr.toNat
  obtain ⟨x, hx⟩ : ∃ x, s.start.readBytes s.kst.smbAddr.toNat 4 true = x := ⟨_, rfl⟩
  have hperf : s.start.bcsPerform (smbReq s.kst.smbAddr.toNat false 0)
      = (x.2.emit (.bcs (smbReq s.kst.smbAddr.toNat false 0) (.done x.1))).smbAnswer (smbReq s.kst.smbAddr.toNat false 0) (.done x.1) := by
    have hread : s.start.bcsPerform (smbReq s.kst.smbAddr.toNat false 0)
        = (s.start.readBytes s.kst.smbAddr.toNat 4 true).2.finishBcs (smbReq s.kst.smbAddr.toNat false 0)
            (.done (s.start.readBytes s.kst.smbAddr.toNat 4 true).1) := rfl
    rw [hread, hx]
    exact (finishBcs_responds x.2 (r := smbReq s.kst.smbAddr.toNat false 0) hslow _).trans (respond_smb _ rfl _)
  rw [hx] at hsides ⊢
  have haddr : x.2.kst.smbAddr = s.kst.smbAddr := congrArg (fun p => p.2.2) hsides
  obtain ⟨hres, hnext, heq⟩ := (x.2.emit (.bcs (smbReq s.kst.smbAddr.toNat false 0) (.done x.1))).smbAnswer_steps
    (r := smbReq s.kst.smbAddr.toNat false 0) x.1 (by
      show x.2.kst.smbAddr.toNat % 4 = 0
      rw [haddr, hal])
  rw [← hperf] at hres hnext heq
  refine ⟨_, hexec, ?_, hres, ?_⟩
  · rw [heq]
    exact List.mem_append_right _ (List.mem_singleton_self _)
  · rw [hnext]
    exact congrArg (fun w : Word => w + 4 &&& 0x3FFFFFF) haddr

theorem bcsWrite_writes {s : State} {v : Word} (hh : s.smbHears = true) (hm : s.mode ≠ .reset) (hat : s.kst.smbAddr.toNat = regOff .glbScratch 0)
    (hg : s.goesWrite { src := .svc } .glbScratch 0 v = true) :
    ∃ t, exec (.bcsWrite v true) s = .next t ∧ t.reg .glbScratch = v ∧ t.kst.smbRes = 0 ∧ t.kst.smbAddr = (s.kst.smbAddr + 4 &&& 0x3FFFFFF)
      ∧ s.onlyRegs t [(.glbScratch, 0)] ∧ t = { s.start with outp := t.outp, regs := t.regs, kst := t.kst } := by
  obtain ⟨hgo, hn⟩ := (Bool.and_eq_true _ _ ▸ hg : _ ∧ _)
  have hreq : smbReq s.kst.smbAddr.toNat true v = { wordWrite { src := .svc } (regOff .glbScratch 0) v with via := .smb } := by
    rw [smbReq, hat]
    rfl
  have hexec : exec (.bcsWrite v true) s = .next (s.start.bcsPerform (smbReq s.kst.smbAddr.toNat true v)) :=
    smbBcs_performs hh hm (by rw [hreq]; exact hgo)
  rw [hreq] at hexec
  have hperf := scratch_performs (s := s.start) { src := .svc } v .smb hn
  rw [hperf, respond_smb _ rfl] at hexec
  obtain ⟨u, hu, hreg, honly, hueq⟩ : ∃ u, (s.start.setReg .glbScratch 0 v).emit
      (.bcs { wordWrite { src := .svc } (regOff .glbScratch 0) v with via := .smb } (.done [])) = u ∧ u.reg .glbScratch = v
        ∧ s.onlyRegs u [(.glbScratch, 0)] ∧ u = { s.start with outp := u.outp, regs := u.regs } :=
    ⟨_, rfl, reg_setReg_same .., onlyRegs_setReg s.start (List.mem_singleton_self _) v, rfl⟩
  rw [hu] at hexec
  have haddr : u.kst.smbAddr = s.kst.smbAddr := by rw [hueq]; rfl
  obtain ⟨hres, hnext, heq⟩ := u.smbAnswer_steps (r := { wordWrite { src := .svc } (regOff .glbScratch 0) v with via := .smb }) [] (by
    rw [haddr, hat]
    decide)
  generalize u.smbAnswer { wordWrite { src := .svc } (regOff .glbScratch 0) v with via := .smb } (.done []) = t at hexec hres hnext heq
  have htr : t.regs = u.regs := by rw [heq]
  refine ⟨t, hexec, (reg_congr htr ..).trans hreg, hres, by rw [hnext, haddr], honly.congr htr, ?_⟩
  have h1 := congrArg (fun z : State => { z with outp := t.outp }) heq
  have h2 := congrArg (fun z : State => { z with outp := t.outp, kst := t.kst }) hueq
  rw [htr]
  exact h1.trans h2

/-! ### MODE -/

/-- MODE is a keyed write by the service path, of the low three bits of its low byte and of their complement where its bytes are complements. -/
theorem mode_runs {s : State} {lo hi : Byte} (hh : s.smbHears = true) (hm : s.mode = .run) :
    exec (.mode lo hi true) s
      = thenDo (s.start.bcsRun (wordWrite { src := .svc } (regOff .glbModeReq 0) (BitVec.ofNat 32 (lo.toNat % 8)))) fun t =>
          t.bcsRun (wordWrite { src := .svc } (regOff .glbModeReq 0 + 4)
            (if hi = ~~~lo then ~~~BitVec.ofNat 32 (lo.toNat % 8) else BitVec.ofNat 32 (lo.toNat % 8))) := by
  have hhear : ¬ (!s.start.smbHears) = true := by rw [show s.start.smbHears = true from hh]; decide
  have hreset : ¬ s.start.mode = .reset := by rw [show s.start.mode = .run from hm]; decide
  exact (if_neg hhear).trans ((if_neg (by decide)).trans (if_neg hreset))

theorem glbModeReq_keyed : targetAt (regOff .glbModeReq 0) = .reg .glbModeReq 0 ∧ targetAt (regOff .glbModeReq 0 + 4) = .comp .glbModeReq 0
    ∧ RegId.glbModeReq.row.keyed = true := by decide

/-- What a mode request in RUN makes of the mode. -/
theorem modeRequest_leads {s : State} {n : Nat} (hn : n < 8) (hm : s.mode = .run) (hp : s.phase = .steady) (hh : s.flt.haltNow = false) :
    (s.modeRequest n).mode = (if n = 4 then .service else .run) ∧ (s.modeRequest n).phase = (if n = 3 then .quiescing else .steady) := by
  obtain ⟨hrun, hdoze, hservice⟩ := s.modeRequest_works (by rw [hm]; decide) (by rw [hm]; decide)
  have hnot : ¬ (s.mode = .reset ∨ s.mode = .halt) := by rw [hm]; decide
  have hrej (k : Nat) : (s.rejectMode 1 k).mode = .run ∧ (s.rejectMode 1 k).phase = .steady := by
    obtain ⟨u, hu, h⟩ : ∃ u, s.rejectMode 1 k = u ∧ u.offRegs = s.offRegs := ⟨_, rfl, s.offRegs_rejectMode 1 k⟩
    rw [hu]
    exact ⟨(congrArg State.mode h : u.offRegs.mode = s.offRegs.mode).trans hm, (congrArg State.phase h : u.offRegs.phase = s.offRegs.phase).trans hp⟩
  match n, hn with
  | 0, _ => exact ⟨(congrArg State.mode (if_neg hnot)).trans hm, (congrArg State.phase (if_neg hnot)).trans hp⟩
  | 1, _ => exact ⟨(congrArg State.mode (if_neg hnot)).trans (hrej 1).1, (congrArg State.phase (if_neg hnot)).trans (hrej 1).2⟩
  | 2, _ =>
    rw [hrun, requestRun, hm, hp]
    exact ⟨hm, hp⟩
  | 3, _ =>
    obtain ⟨hmode, hphase, -⟩ := s.requestDoze_cuts hm hp hh
    rw [hdoze]
    exact ⟨hmode, hphase⟩
  | 4, _ =>
    rw [hservice, requestService, hm, hp]
    exact ⟨rfl, rfl⟩
  | 5, _ => exact ⟨(congrArg State.mode (if_neg hnot)).trans (hrej 5).1, (congrArg State.phase (if_neg hnot)).trans (hrej 5).2⟩
  | 6, _ => exact ⟨(congrArg State.mode (if_neg hnot)).trans (hrej 6).1, (congrArg State.phase (if_neg hnot)).trans (hrej 6).2⟩
  | 7, _ => exact ⟨(congrArg State.mode (if_neg hnot)).trans (hrej 7).1, (congrArg State.phase (if_neg hnot)).trans (hrej 7).2⟩

theorem mode_requests {s : State} {lo : Byte} (hh : s.smbHears = true) (hm : s.mode = .run) (hp : s.phase = .steady)
    (hg : s.goesKeyed { src := .svc } .glbModeReq 0 (BitVec.ofNat 32 (lo.toNat % 8)) (~~~BitVec.ofNat 32 (lo.toNat % 8)) = true) :
    ∃ t, exec (.mode lo (~~~lo) true) s = .next t ∧ t.mode = (if lo.toNat % 8 = 4 then .service else .run)
      ∧ t.phase = (if lo.toNat % 8 = 3 then .quiescing else .steady) := by
  obtain ⟨hreg, hcomp, hkeyed⟩ := glbModeReq_keyed
  obtain ⟨x, t, hrow, hput, hans, -⟩ := keyedRow_puts hg hreg hcomp hkeyed rfl (g := fun u => u.modeRequest (lo.toNat % 8)) fun u => by
    have hval : (BitVec.ofNat 32 (lo.toNat % 8)).toNat % 8 = lo.toNat % 8 := by
      rw [BitVec.toNat_ofNat]
      omega
    exact congrArg (State.modeRequest _) hval
  have hexec := mode_runs (lo := lo) (hi := ~~~lo) hh hm
  rw [if_pos rfl] at hexec
  obtain ⟨hmode, hphase⟩ := modeRequest_leads (s := x) (n := lo.toNat % 8) (Nat.mod_lt _ (by decide))
    ((hput.get State.mode fun _ => rfl).trans hm) ((hput.get State.phase fun _ => rfl).trans hp) (by rw [hput.get State.flt fun _ => rfl]; rfl)
  exact ⟨t, hexec.trans hrow, (congrArg State.mode hans : t.offAnswer.mode = State.mode (offAnswer _)).trans hmode,
    (congrArg State.phase hans : t.offAnswer.phase = State.phase (offAnswer _)).trans hphase⟩

/-- A write of the complement of a keyed register that goes. -/
theorem compWrite_runs {s : State} {a : Acc} {off i : Nat} {v : Word} {id : RegId} (h : s.Goes (wordWrite a off v)) (hc : targetAt off = .comp id i) :
    s.bcsRun (wordWrite a off v) = .next ((s.writeWord a off v false).finishBcs (wordWrite a off v) (.done [])) := by
  have hstrobe : isStrobe (wordWrite a off v) = false := isStrobe_of_ne fun j hj => nomatch hc.symm.trans hj
  have hwr : (wordWrite a off v).wr = true := rfl
  rw [h.run rfl]
  simp [bcsPerform, hwr, bcsWrite_wordWrite s a off v (fun k => by rw [hc]; exact ⟨nofun, nofun⟩), hstrobe]

theorem formCause_data (r : BcsReq) (d : List Byte) : formCause { r with data := d } = formCause r := rfl

theorem Goes.rewritten {s : State} {a : Acc} {off : Nat} {v w : Word} (h : s.Goes (wordWrite a off v))
    (hprsv : s.prsvStops (wordWrite a off w) = false) (hheld : dozeHeld (wordWrite a off w) = false) : s.Goes (wordWrite a off w) := by
  obtain ⟨hreach, halone, hform, hfree, hblock, hjudge, -, -, hex⟩ := h
  have hf : formCause (wordWrite a off w) = formCause (wordWrite a off v) := formCause_data (wordWrite a off v) (wordBytes w)
  refine ⟨hreach, halone, hf.trans hform, ?_, hblock, hjudge, hprsv, fun h => absurd (h.2.2.symm.trans hheld) (by decide), hex⟩
  have hself : s.selfHeld (wordWrite a off w) = true → s.selfHeld (wordWrite a off v) = true := by
    unfold selfHeld
    rw [hheld]
    show (match blockAt off with | none => _ | some b => _) = true → (match blockAt off with | none => _ | some b => _) = true
    cases blockAt off with
    | none => exact id
    | some b =>
      dsimp only
      rw [Bool.and_false, Bool.or_false]
      exact fun h => by rw [Bool.or_eq_true]; exact .inl h
  unfold mustWait at hfree ⊢
  rw [hf]
  rw [Bool.or_eq_false_iff] at hfree ⊢
  refine ⟨hfree.1, ?_⟩
  by_contra hne
  obtain ⟨hnone, hheld'⟩ := Bool.and_eq_true_iff.mp (Bool.not_eq_false _ ▸ hne)
  have h := hfree.2
  rw [hnone, hself hheld'] at h
  exact absurd h (by decide)

/-- A word at the complement of GLB_MODE_REQ goes whatever it holds. -/
theorem goes_modeComp {s : State} {a : Acc} {v w : Word} (h : s.Goes (wordWrite a (regOff .glbModeReq 0 + 4) v)) :
    s.Goes (wordWrite a (regOff .glbModeReq 0 + 4) w) := by
  obtain ⟨hreg, hcomp, hkeyed⟩ := glbModeReq_keyed
  have hword (x : Word) (a : Acc) : s.prsvWord a (regOff .glbModeReq 0 + 4) x = false := by
    rw [prsvWord, hcomp]
  have hheld (x : Word) : dozeHeld (wordWrite a (regOff .glbModeReq 0 + 4) x) = false := by
    have hstrobe : isStrobe (wordWrite a (regOff .glbModeReq 0 + 4) x) = false := isStrobe_of_ne fun j hj => by
      rw [hcomp] at hj
      exact nomatch hj
    have hblock : reqBlock (wordWrite a (regOff .glbModeReq 0 + 4) x) = some .glb := by
      show blockAt (regOff .glbModeReq 0 + 4) = some .glb
      decide
    rw [dozeHeld, hblock]
    dsimp only
    rw [hstrobe]
    rfl
  have hprsv : s.prsvStops (wordWrite a (regOff .glbModeReq 0 + 4) w) = false := by
    have hoff (x : Word) : s.prsvWord (wordWrite a (regOff .glbModeReq 0 + 4) w).acc (wordWrite a (regOff .glbModeReq 0 + 4) w).off x = false :=
      hword x a
    rw [prsvStops, hoff]
    simp [wordWrite]
  exact h.rewritten hprsv (hheld w)

theorem mode_fails {s : State} {lo hi : Byte} (hh : s.smbHears = true) (hm : s.mode = .run) (hne : hi ≠ ~~~lo)
    (hg : s.goesKeyed { src := .svc } .glbModeReq 0 (BitVec.ofNat 32 (lo.toNat % 8)) (~~~BitVec.ofNat 32 (lo.toNat % 8)) = true) :
    ∃ t, exec (.mode lo hi true) s = .next t ∧ t.mode = .run ∧ t.phase = s.phase ∧ t.f Fld.updKeyStatus_key_fail = 1
      ∧ t.f Fld.updKeyStatus_cause = 0 := by
  obtain ⟨hreg, hcomp, hkeyed⟩ := glbModeReq_keyed
  obtain ⟨b, y, hb, hrun, hsame, hrx, hfind, hgoes⟩ := keyedFirst_waits hg hreg hkeyed
  have hsecond : s.goes (wordWrite { src := .svc } (regOff .glbModeReq 0 + 4) (~~~BitVec.ofNat 32 (lo.toNat % 8))) = true := by
    simp only [goesKeyed, Bool.and_eq_true] at hg
    exact hg.1.1.2
  have hgo := hgoes _ (goes_modeComp (w := BitVec.ofNat 32 (lo.toNat % 8)) ((goes_iff s _).mp hsecond))
  have hcb : blockAt (regOff .glbModeReq 0 + 4) = some b := by
    have h : blockAt (regOff .glbModeReq 0) = some .glb := by decide
    rw [← hb, h]
    decide
  have hval : BitVec.ofNat 32 (lo.toNat % 8) ≠ ~~~BitVec.ofNat 32 (lo.toNat % 8) := fun h => by
    have hbit := congrArg (fun w : Word => w.getLsbD 0) h
    simp at hbit
  obtain ⟨-, u, hwrite, -, hur, huk⟩ := y.writeWord_fails (a := { src := .svc }) (v := BitVec.ofNat 32 (lo.toNat % 8)) (cause := 0) hcomp hcb hfind
    (.inr (.inr (.inr ⟨rfl, ⟨_, rfl, rfl, by simp [samePend], hval⟩, rfl⟩)))
  obtain ⟨hfail, hcause, -, -, -, hoffr⟩ := u.keyFail_records (off := regOff .glbModeReq 0) (cause := 0) (by decide) (by decide) (by decide)
  have hwrites : y.bcsRun (wordWrite { src := .svc } (regOff .glbModeReq 0 + 4) (BitVec.ofNat 32 (lo.toNat % 8)))
      = .next ((u.keyFail (regOff .glbModeReq 0) 0).finishBcs (wordWrite { src := .svc } (regOff .glbModeReq 0 + 4) (BitVec.ofNat 32 (lo.toNat % 8)))
          (.done [])) := by
    rw [compWrite_runs hgo hcomp, hwrite]
  have hans := (u.keyFail (regOff .glbModeReq 0) 0).offAnswer_wordWrite { src := .svc } (regOff .glbModeReq 0 + 4) (BitVec.ofNat 32 (lo.toNat % 8)) (.done [])
  have hexec := mode_runs (lo := lo) (hi := hi) hh hm
  rw [if_neg hne, hrun, thenDo, hwrites] at hexec
  generalize (u.keyFail (regOff .glbModeReq 0) 0).finishBcs _ (.done []) = t at hexec hans
  have htr : t.regs = (u.keyFail (regOff .glbModeReq 0) 0).regs := (congrArg State.regs hans : t.offAnswer.regs = State.regs (offAnswer _))
  have hkeys : (u.keyFail (regOff .glbModeReq 0) 0).offKeys = y.offKeys := (offKeys_of_offRegs hoffr).trans huk
  refine ⟨t, hexec, ?_, ?_, by rw [f_congr htr, hfail], by rw [f_congr htr, hcause]⟩
  · have h1 : t.mode = (u.keyFail (regOff .glbModeReq 0) 0).mode := (congrArg State.mode hans : t.offAnswer.mode = State.mode (offAnswer _))
    have h2 : (u.keyFail (regOff .glbModeReq 0) 0).mode = y.mode := (congrArg State.mode hkeys : State.mode (offKeys _) = y.offKeys.mode)
    have h3 : y.mode = s.mode := (congrArg State.mode hsame : y.offPair.mode = s.start.offPair.mode)
    exact h1.trans (h2.trans (h3.trans hm))
  · have h1 : t.phase = (u.keyFail (regOff .glbModeReq 0) 0).phase := (congrArg State.phase hans : t.offAnswer.phase = State.phase (offAnswer _))
    have h2 : (u.keyFail (regOff .glbModeReq 0) 0).phase = y.phase := (congrArg State.phase hkeys : State.phase (offKeys _) = y.offKeys.phase)
    have h3 : y.phase = s.phase := (congrArg State.phase hsame : y.offPair.phase = s.start.offPair.phase)
    exact h1.trans (h2.trans h3)

end State

open State in
/-- Settles O19: each command of the target by what it returns, and its accesses as accesses of the service path that are performed. -/
theorem smbusCommands : Obligations.SmbusCommands := by
  refine ⟨fun s hh => ?_, ⟨fun s v hh => ⟨_, congrArg Host.Outcome.next (smbCmd_good hh _), rfl⟩, fun s hh hm => result_reads hh hm,
    fun s b hh => trigger_pulses b hh, fun s hh => alerts_reads hh, fun s hh hn => alertAddress_answers hh hn, fun s c hh hc => ?_,
    fun s c hh hc => ?_⟩, fun s hh hm hg hslow => bcsRead_reads hh hm hg hslow, fun s v hh hm hat hg => bcsWrite_writes hh hm hat hg,
    fun s lo hh hm hp hg => mode_requests hh hm hp hg, fun s lo hi hh hm hne hg => mode_fails hh hm hne hg⟩
  · obtain ⟨hlen, hmode, hvset, htemp, hdroop, hts, halert⟩ := s.start.telemetry_tells (s.start.free % 2 ^ 16)
    exact ⟨_, _, congrArg Host.Outcome.next (smbCmd_good hh _), rfl, hlen, hmode, hvset, htemp, hdroop, hts, halert, rfl⟩
  · obtain ⟨t, ht, h⟩ := s.nack_counts (x := Fld.kstSmb_nacks) (by decide)
    exact ⟨t, (unknown_nacks hh hc).trans (congrArg Host.Outcome.next ht), h⟩
  · obtain ⟨t, ht, h⟩ := s.nack_counts (x := Fld.kstSmb_pec_err) (by decide)
    exact ⟨t, (badPec_answers hh hc).trans (congrArg Host.Outcome.next ht), h⟩

end Sys2Proof.Machine
end

section
/-! PROOFS. The states of a port, ALIGN frames and transmit equalisation (R102 to R105, R92, R303). -/

namespace Sys2Proof.Machine

namespace State

/-! ### A fault in HALT -/

/-- A source below the fatal class of which nothing goes out has been raised once. -/
theorem raised_of_quiet (s : State) {src : Nat} (hm : s.mode ≠ .reset) (hc0 : srcClass src ≠ 0) (hc3 : srcClass src ≠ 3) (hn : s.flt.haltNow = false)
    {unit : Nat} {inst je : Option Nat} {detail : Nat} (hlinks : (s.raise src unit inst je detail).links = s.links)
    (hout : (s.raise src unit inst je detail).outp = s.outp) : s.Raised (s.raise src unit inst je detail) src := by
  refine ⟨s.offFault_raise hc3 hn .., hlinks, hout, s.onlyBlocks_raise hc3 unit inst je detail, s.counted_raise hm hc0 .., fun k hk => ?_⟩
  obtain ⟨hcnt, -⟩ := faultWords_eq_iff.mp (s.faultWords_raise unit inst je detail hm hc0)
  rw [hcnt, incF_flt, capture_srcCnt]
  exact FMap.get_mod_ne hk 0 (fun n => min (n + 1) 65535) s.flt.srcCnt

/-- In HALT no EVENT goes out. -/
theorem classAct_halted {s : State} {src : Nat} (hm : s.mode = .halt) (hc : srcClass src = 1) (syn : Nat) (inst : Option Nat) :
    s.classAct src syn inst = s.incF Fld.fltCntCe_count := by
  have hmode : (s.incF Fld.fltCntCe_count).mode = .halt := hm
  have hdest : (s.incF Fld.fltCntCe_count).faultDestEvent src syn = s.incF Fld.fltCntCe_count := by
    simp only [faultDestEvent, faultEvent, hmode, if_true, ite_self]
  simp only [classAct, hc, hdest, ite_self]

theorem raise_halted (s : State) {src : Nat} (hm : s.mode = .halt) (hc : srcClass src = 1) (hn : s.flt.haltNow = false) (unit : Nat)
    (inst je : Option Nat) (detail : Nat) : s.Raised (s.raise src unit inst je detail) src := by
  have hr : s.mode ≠ .reset := by rw [hm]; decide
  have hquiet : (s.raise src unit inst je detail).links = s.links ∧ (s.raise src unit inst je detail).outp = s.outp := by
    have hcap := (offFault_capture (s.noteFault src) src (syndrome unit inst je detail)).trans (s.offFault_noteFault src)
    have hsame := capture_quiet (s.noteFault src) src (syndrome unit inst je detail)
    have hnote : (s.noteFault src).links = s.links ∧ (s.noteFault src).outp = s.outp := by simp [noteFault]
    rw [raise_eq s src unit inst je detail hr]
    generalize (s.noteFault src).capture src (syndrome unit inst je detail) = c at hcap hsame ⊢
    have hnow : ¬ (c.incF Fld.fltCntCe_count).flt.haltNow = true := by simp [(flt_of_offFault hcap).2, hn]
    rw [classAct_halted ((mode_of_offFault hcap).1.trans hm) hc, if_neg hnow, incF_links, incF_outp]
    exact ⟨hsame.1.trans hnote.1, hsame.2.trans hnote.2⟩
  exact s.raised_of_quiet hr (by omega) (by omega) hn hquiet.1 hquiet.2

/-! ### The members of a port -/

theorem regOff_linkCnt (k : Nat) : regOff .gptLinkCnt k = 0x100054 + 0x400 * k := by
  have h : regOff .gptLinkCnt k = 0x100000 + 0x54 + k / 1 * 0x400 + k % 1 * 4 := rfl
  omega

theorem blockAt_linkCnt {k : Nat} (h : k < 148) : blockAt (regOff .gptLinkCnt k) = some .gpt := by
  rw [blockAt_iff, regOff_linkCnt]
  have hb : Block.gpt.base = 0x100000 ∧ Block.gpt.span = 0x100000 := by decide
  omega

theorem members_le (s : State) (p : Nat) : s.members p ≤ 4 := by
  unfold members
  split
  · decide
  · split <;> decide

/-- A counter of each member of a port steps once. -/
theorem memberInc_counts (s : State) {x : Fld} (hid : x.id = .gptLinkCnt) (hfit : x.fits) {p : Nat} (hp : p < 144) :
    (∀ m < s.members p, (s.memberInc x p).f x (p + m) = sat x (s.f x (p + m) + 1)) ∧ s.onlyBlocks (s.memberInc x p) [.gpt]
      ∧ (s.memberInc x p).offRegs = s.offRegs := by
  have hall : ∀ n ≤ 4, (∀ k, ((List.range n).foldl (fun s m => s.incF x (p + m)) s).f x (p + k) = if k < n then sat x (s.f x (p + k) + 1) else s.f x (p + k))
      ∧ s.onlyBlocks ((List.range n).foldl (fun s m => s.incF x (p + m)) s) [.gpt]
      ∧ ((List.range n).foldl (fun s m => s.incF x (p + m)) s).offRegs = s.offRegs := by
    intro n hn
    induction n with
    | zero => exact ⟨fun k => rfl, onlyBlocks.refl s _, rfl⟩
    | succ n ih =>
      obtain ⟨hf, honly, hoff⟩ := ih (by omega)
      rw [List.range_succ, List.foldl_append, List.foldl_cons, List.foldl_nil]
      generalize (List.range n).foldl (fun s m => s.incF x (p + m)) s = t at hf honly hoff
      refine ⟨fun k => ?_, honly.incF (b := .gpt) (by rw [hid]; exact blockAt_linkCnt (by omega)) (by decide) 1, (offRegs_incF ..).trans hoff⟩
      by_cases hk : k = n
      · rw [hk, f_incF_sat t hfit, hf, if_neg (Nat.lt_irrefl n), if_pos (Nat.lt_succ_self n)]
      · have hne : regOff x.id (p + k) ≠ regOff x.id (p + n) := by
          rw [hid, regOff_linkCnt, regOff_linkCnt]
          omega
        rw [f_incF_ne t hne, hf]
        exact if_congr ⟨fun h => by omega, fun h => by omega⟩ rfl rfl
  obtain ⟨hf, honly, hoff⟩ := hall (s.members p) (s.members_le p)
  exact ⟨fun m hm => (hf m).trans (if_pos hm), honly, hoff⟩

/-! ### A port falls -/

/-- What a port that drops has changed: its own state by `g`, the counter `x` of each member, and the source `src`. -/
structure Drops (s t : State) (p : Nat) (g : Port → Port) (x : Fld) (src : Nat) : Prop where
  port : t.port p = g (s.port p)
  counts : ∀ m < s.members p, t.f x (p + m) = sat x (s.f x (p + m) + 1)
  counted : s.counted t src
  others : s.samePortsBut t p
  only : s.onlyBlocks t [.gpt, .flt]
  eq : t = { s with ports := t.ports, regs := t.regs, flt := t.flt }

theorem portDrops {s : State} {p : Nat} {g : Port → Port} {x : Fld} {src : Nat} (hp : p < 144) (hid : x.id = .gptLinkCnt) (hfit : x.fits)
    (hc : srcClass src = 1) (hm : s.mode ≠ .reset) (hn : s.flt.haltNow = false) (hq : s.mute src = true ∨ s.mode = .halt) :
    ∃ t, ((s.modPort p g).memberInc x p).raise src p = t ∧ s.Drops t p g x src := by
  obtain ⟨u, hu, hup, hune, hueq⟩ : ∃ u : State, s.modPort p g = u ∧ u.port p = g (s.port p) ∧ s.samePortsBut u p
      ∧ u = { s with ports := u.ports } := ⟨_, rfl, s.port_modPort_same p g, fun q hq => s.port_modPort_ne hq g, rfl⟩
  have hregs : u.regs = s.regs := by rw [hueq]
  have hmem : u.members p = s.members p := by rw [members, f_congr hregs, members]
  obtain ⟨hcnt, hgpt, hoff⟩ := u.memberInc_counts hid hfit hp
  generalize hv : u.memberInc x p = v at hcnt hgpt hoff
  have hvports : v.ports = u.ports := (congrArg State.ports hoff : v.offRegs.ports = u.offRegs.ports)
  have hveq : v = { s with ports := v.ports, regs := v.regs } := by
    have h1 := eq_of_offRegs hoff
    have h2 := congrArg (fun z : State => { z with regs := v.regs }) hueq
    rw [hvports]
    exact h1.trans h2
  have hvm : v.mode = s.mode := by rw [hveq]
  have hvf : v.flt = s.flt := by rw [hveq]
  have hraised : v.Raised (v.raise src p) src := by
    rcases hq with hq | hq
    · exact v.raise_silent (by rw [hvm]; exact hm) (.inl ⟨hc, by rw [mute, hvf]; exact hq⟩) (by rw [hvf]; exact hn) p none none 0
    · exact v.raise_halted (hvm.trans hq) hc (by rw [hvf]; exact hn) p none none 0
  rw [hu, hv]
  generalize v.raise src p = t at hraised
  have htports : t.ports = u.ports := by rw [hraised.eq]; exact hvports
  have hvonly : s.onlyBlocks v [.gpt] := (onlyBlocks_of_regs hregs _).trans hgpt
  refine ⟨t, rfl, (port_congr htports p).trans hup, fun m hm' => ?_, ?_, fun q hq => (port_congr htports q).trans (hune q hq),
    (hvonly.mono (by decide)).trans (hraised.only.mono (by decide)), ?_⟩
  · have h4 := s.members_le p
    have hb : blockAt (regOff x.id (p + m)) = some .gpt := by
      rw [hid]
      exact blockAt_linkCnt (by omega)
    rw [hraised.only.f_eq (b := .gpt) hb (by decide), hcnt m (by rw [hmem]; exact hm'), f_congr hregs]
  · obtain ⟨hsrc, hce⟩ := hraised.counted
    refine ⟨?_, fun h => ?_⟩
    · rw [hsrc, hvf]
    · rw [hce h, hvonly.f_eq (x := Fld.fltCntCe_count) (b := .flt) (by decide) (by decide)]
  · have h1 := hraised.eq
    have h2 := congrArg (fun z : State => { z with regs := t.regs, flt := t.flt }) hveq
    rw [htports, ← hvports]
    exact h1.trans h2

/-- The state of a port that has left UP. -/
def fallen (q : Port) : Port := { q with st := .down, statusQ := [], egress := [], sleepPend := false, laneLock := 0 }

/-- What a port that falls has changed. -/
abbrev Falls (s t : State) (p : Nat) : Prop := s.Drops t p fallen Fld.gptLinkCnt_downs 0x040

theorem portFalls_falls {s : State} {p : Nat} (hp : p < 144) (hm : s.mode ≠ .reset) (hn : s.flt.haltNow = false)
    (hq : s.mute 0x040 = true ∨ s.mode = .halt) : ∃ t, s.portFalls p = t ∧ s.Falls t p :=
  portDrops (g := fallen) hp rfl (by decide) (by decide) hm hn hq

/-- A port that leaves UP while the bridge works, with no exchange at its device addresses. -/
theorem leaveUp_leaves {s : State} {p : Nat} (hp : p < 144) (hw : s.works = true) (hup : (s.port p).st = .up) (hd : s.portDaddrs p = [])
    (hq : s.mute 0x040 = true) (hn : s.flt.haltNow = false) :
    ∃ t, s.leaveUp p = t ∧ t.port p = { s.port p with
            st := .down, statusQ := [], egress := [], sleepPend := false, laneLock := 0
            queue := (s.port p).queue.filter fun y => y.2.kind != .poll }
      ∧ (∀ m < s.members p, t.f Fld.gptLinkCnt_downs (p + m) = sat Fld.gptLinkCnt_downs (s.f Fld.gptLinkCnt_downs (p + m) + 1))
      ∧ s.counted t 0x040 ∧ (∀ x ∈ t.dns, (s.device x.1).port = p → x.2.attn = .clear ∧ x.2.poll = .wait)
      ∧ s.samePortsBut t p ∧ s.onlyBlocks t [.gpt, .flt] ∧ t = { s with ports := t.ports, dns := t.dns, regs := t.regs, flt := t.flt } := by
  obtain ⟨u, hu, hfalls⟩ := portFalls_falls hp (not_reset_of_works hw) hn (.inl hq)
  have huw : u.works = true := by rw [hfalls.eq]; exact hw
  have hport := u.port_modPort_same p fun q => { q with queue := q.queue.filter fun y => y.2.kind != .poll }
  have hports (q : Nat) (hq : q ≠ p) := u.port_modPort_ne hq fun q => { q with queue := q.queue.filter fun y => y.2.kind != .poll }
  rw [hfalls.port] at hport
  have hrun : s.leaveUp p = (u.modPort p fun q => { q with queue := q.queue.filter fun y => y.2.kind != .poll }).dnsLosePort p := by
    have hnone : ((u.modPort p fun q => { q with queue := q.queue.filter fun y => y.2.kind != .poll }).dnsLosePort p).portDaddrs p = [] := by
      have h : ((u.modPort p fun q => { q with queue := q.queue.filter fun y => y.2.kind != .poll }).dnsLosePort p).portDaddrs p = u.portDaddrs p := rfl
      rw [h, hfalls.eq]
      exact hd
    unfold leaveUp
    rw [if_neg fun h => h hup, hu]
    dsimp only
    rw [huw, if_neg (by decide), hnone, List.foldl_nil]
  have hdns (x : Nat × Dn) (hx : x ∈ ((u.modPort p fun q => { q with queue := q.queue.filter fun y => y.2.kind != .poll }).dnsLosePort p).dns)
      (hdev : (s.device x.1).port = p) : x.2.attn = .clear ∧ x.2.poll = .wait := by
    obtain ⟨y, -, hy⟩ := List.mem_filterMap.mp hx
    obtain ⟨-, hxy⟩ := Option.ite_none_left_eq_some.mp hy
    · replace hxy := Option.some.inj hxy
      have hidx : y.1 = x.1 := by
        rw [← hxy]
      have hdevice : ((u.modPort p fun q => { q with queue := q.queue.filter fun y => y.2.kind != .poll }).device y.1).port = p := by
        have h : (u.modPort p fun q => { q with queue := q.queue.filter fun y => y.2.kind != .poll }).device y.1 = u.device y.1 := rfl
        rw [h, hidx, hfalls.eq]
        exact hdev
      rw [if_pos hdevice] at hxy
      rw [← hxy]
      exact ⟨rfl, rfl⟩
  obtain ⟨t, ht, htp, htne, htd, htr, htf, hteq⟩ : ∃ t : State, (u.modPort p fun q => { q with
      queue := q.queue.filter fun y => y.2.kind != .poll }).dnsLosePort p = t
      ∧ t.port p = _ ∧ (∀ q, q ≠ p → t.port q = u.port q) ∧ (∀ x ∈ t.dns, (s.device x.1).port = p → x.2.attn = .clear ∧ x.2.poll = .wait)
      ∧ t.regs = u.regs ∧ t.flt = u.flt ∧ t = { u with ports := t.ports, dns := t.dns } := ⟨_, rfl, hport, hports, hdns, rfl, rfl, rfl⟩
  refine ⟨t, hrun.trans ht, htp, fun m hm => by rw [f_congr htr, hfalls.counts m hm], ⟨by rw [htf]; exact hfalls.counted.1, fun h => ?_⟩, htd,
    fun q hq => (htne q hq).trans (hfalls.others q hq), hfalls.only.congr htr, ?_⟩
  · rw [f_congr htr]
    exact hfalls.counted.2 h
  · have h1 := congrArg (fun z : State => { z with ports := t.ports, dns := t.dns }) hfalls.eq
    rw [htr, htf]
    exact hteq.trans h1

theorem portLeavesUp_leaves {s : State} {p : Fin 144} (hw : s.works = true) (hup : (s.port p.val).st = .up) (hd : s.portDaddrs p.val = [])
    (hq : s.mute 0x040 = true) :
    ∃ t, exec (.portLeavesUp p) s = .next t
      ∧ t.port p.val = { s.port p.val with
          st := .down, statusQ := [], egress := [], sleepPend := false, laneLock := 0
          queue := (s.port p.val).queue.filter fun y => y.2.kind != .poll }
      ∧ (∀ m < s.members p.val, t.f Fld.gptLinkCnt_downs (p.val + m) = sat Fld.gptLinkCnt_downs (s.f Fld.gptLinkCnt_downs (p.val + m) + 1))
      ∧ s.counted t 0x040 ∧ (∀ x ∈ t.dns, (s.device x.1).port = p.val → x.2.attn = .clear ∧ x.2.poll = .wait)
      ∧ s.samePortsBut t p.val ∧ s.onlyBlocks t [.gpt, .flt]
      ∧ t = { s.start with ports := t.ports, dns := t.dns, regs := t.regs, flt := t.flt } := by
  obtain ⟨t, ht, h⟩ := leaveUp_leaves (s := s.start) p.isLt hw hup hd hq rfl
  exact ⟨t, (congrArg Host.Outcome.next (if_pos (not_reset_of_works hw))).trans (congrArg Host.Outcome.next ht), h⟩

theorem portLeavesUp_halted {s : State} {p : Fin 144} (hm : s.mode = .halt) (hup : (s.port p.val).st = .up) :
    ∃ t, exec (.portLeavesUp p) s = .next t ∧ s.start.Falls t p.val := by
  have hr : s.mode ≠ .reset := by rw [hm]; decide
  obtain ⟨u, hu, hfalls⟩ := portFalls_falls (s := s.start) p.isLt hr rfl (.inr hm)
  have huw : u.works = false := by
    have h : u.mode = .halt := by rw [hfalls.eq]; exact hm
    rw [works, h]
    rfl
  have hrun : s.start.leaveUp p.val = u := by
    unfold leaveUp
    rw [if_neg fun h => h hup, hu]
    dsimp only
    rw [huw]
    rfl
  exact ⟨u, (congrArg Host.Outcome.next (if_pos hr)).trans (congrArg Host.Outcome.next hrun), hfalls⟩

theorem portLeavesUp_stays {s : State} {p : Fin 144} (h : (s.port p.val).st ≠ .up) : exec (.portLeavesUp p) s = .next s.start := by
  have hrun : s.start.leaveUp p.val = s.start := if_pos h
  refine congrArg Host.Outcome.next ?_
  rw [hrun, ite_self]

theorem targetAt_gptCtl {p : Nat} (hp : p < 144) : targetAt (regOff .gptCtl p) = .reg .gptCtl p := by
  have hall : ∀ p < 144, targetAt (regOff .gptCtl p) = .reg .gptCtl p := by decide +kernel
  exact hall p hp

theorem gptRetrain_leaves {s : State} {a : Acc} {p : Fin 144} (hg : s.goesWrite a .gptCtl p.val 1 = true) (hlead : s.isLead p.val = true)
    (hup : (s.port p.val).st = .up) (hd : s.portDaddrs p.val = []) (hq : s.mute 0x040 = true) :
    ∃ t, exec (.gptRetrain a p) s = .next t ∧ (t.port p.val).st = .down ∧ (t.port p.val).statusQ = [] ∧ s.counted t 0x040
      ∧ s.ended t (wordWrite a (regOff .gptCtl p.val) 1) (.done []) ∧ s.samePortsBut t p.val ∧ s.onlyBlocks t [.gpt, .flt]
      ∧ t = { s.asideFrom t with ports := t.ports, dns := t.dns, regs := t.regs, flt := t.flt } := by
  obtain ⟨t, hrow, hw⟩ := writeRow_writes hg (targetAt_gptCtl p.isLt) rfl (by decide) rfl (lockBreaks_free rfl _)
  have hblock : blockAt (regOff .gptCtl p.val) ≠ some .kst := by
    have hall : ∀ p < 144, blockAt (regOff .gptCtl p) ≠ some .kst := by decide +kernel
    exact hall p.val p.isLt
  have hworks : s.works = true := works_of_goesWrite hg (targetAt_gptCtl p.isLt) hblock rfl
  obtain ⟨u, hu, hport, -, hcounted, -, hports, honly, hueq⟩ := leaveUp_leaves (s := s.start) p.isLt hworks hup hd hq rfl
  have heff : s.start.writeEffect a .gptCtl p.val 1 = u := by
    have hlead' : ¬ (!s.start.isLead p.val) = true := by rw [show s.start.isLead p.val = true from hlead]; decide
    exact (if_neg hlead').trans hu
  rw [heff] at hw
  have htp : t.ports = u.ports := (congrArg State.ports hw.answer : t.offAnswer.ports = u.offAnswer.ports)
  have htd : t.dns = u.dns := (congrArg State.dns hw.answer : t.offAnswer.dns = u.offAnswer.dns)
  have htf : t.flt = u.flt := (congrArg State.flt hw.answer : t.offAnswer.flt = u.offAnswer.flt)
  refine ⟨t, hrow, by rw [port_congr htp, hport], by rw [port_congr htp, hport],
    ⟨by rw [htf]; exact hcounted.1, fun h => by rw [f_congr hw.regs]; exact hcounted.2 h⟩, hw.wrote (by rw [hueq]; rfl),
    fun q hq => (port_congr htp q).trans (hports q hq), honly.congr hw.regs, ?_⟩
  have h1 := hw.eq
  rw [← htp, ← htd, ← hw.regs, ← htf] at hueq
  have h2 := congrArg (fun z : State => { z with outp := t.outp, links := t.links, slowQ := t.slowQ }) hueq
  exact h1.trans h2

/-! ### Training of a port -/

theorem foldl_idle {α β : Type} {g : β → α → β} {b : β} {xs : List α} (h : ∀ x ∈ xs, g b x = b) : xs.foldl g b = b := by
  induction xs with
  | nil => rfl
  | cons x xs ih =>
    rw [List.foldl_cons, h x List.mem_cons_self]
    exact ih fun y hy => h y (List.mem_cons_of_mem x hy)

/-- A port that has trained, before its orphaned locks are released. -/
theorem portTrained_trains {s : State} {p : Fin 144} (hw : s.works = true) (ht : (s.port p.val).st = .train) :
    ∃ u : State, exec (.portTrained p) s = .next ((s.portDaddrs p.val).foldl (fun s x =>
        if x.2.lock = .orphaned then (s.modDaddr p.val x.1 fun a => { a with relTries := 0 }).unlockAbort p.val x.1 .ended else s) u)
      ∧ u.port p.val = { s.port p.val with st := .up, laneLock := 2 ^ s.members p.val - 1 } ∧ s.samePortsBut u p.val
      ∧ u = { s.start with ports := u.ports, img := { s.img with seeds := u.img.seeds }, freeCount := u.freeCount, freeNext := u.freeNext } := by
  have hgo : ¬ ((!s.start.works) = true ∨ (s.start.port p.val).st ≠ .train) := by
    rw [show s.start.works = true from hw, show (s.start.port p.val).st = .train from ht]
    decide
  obtain ⟨c, fc, fn, hseeds⟩ := s.start.captureSeeds_with (32 + p.val) (s.members p.val)
  refine ⟨(s.start.captureSeeds (32 + p.val) (s.members p.val)).modPort p.val fun q => { q with st := .up, laneLock := 2 ^ s.members p.val - 1 },
    ?_, ?_, fun q hq => ?_, ?_⟩
  · refine congrArg Host.Outcome.next ((if_neg hgo).trans ?_)
    rw [show s.start.members p.val = s.members p.val from rfl]
    rw [hseeds]
    rfl
  · rw [port_modPort_same _ p.val fun q => { q with st := .up, laneLock := 2 ^ s.members p.val - 1 }, hseeds]
    rfl
  · rw [port_modPort_ne _ hq fun q => { q with st := .up, laneLock := 2 ^ s.members p.val - 1 }, hseeds]
    rfl
  · rw [hseeds]
    rfl

theorem portTrained_rises {s : State} {p : Fin 144} (hw : s.works = true) (ht : (s.port p.val).st = .train)
    (hl : ∀ x ∈ s.portDaddrs p.val, x.2.lock ≠ .orphaned) :
    ∃ t, exec (.portTrained p) s = .next t ∧ t.port p.val = { s.port p.val with st := .up, laneLock := 2 ^ s.members p.val - 1 }
      ∧ s.samePortsBut t p.val ∧ t = { s.start with
          ports := t.ports, img := { s.img with seeds := t.img.seeds }, freeCount := t.freeCount, freeNext := t.freeNext } := by
  obtain ⟨u, hu, h⟩ := portTrained_trains hw ht
  rw [foldl_idle fun x hx => if_neg (hl x hx)] at hu
  exact ⟨u, hu, h⟩

theorem lockFresh_keeps (s : State) (a : Daddr) : ∃ m, s.lockFresh a = { s with ops := m } := by
  unfold lockFresh
  split
  · exact ⟨_, rfl⟩
  · exact ⟨s.ops, rfl⟩

theorem sendFrames_port (s : State) (p : Nat) {x : EgressTx} (hx : x.after = none) :
    (s.sendFrames p x).port p = { s.port p with egress := ((s.sendFrames p x).port p).egress } := by
  unfold sendFrames
  split
  · rw [hx]
    dsimp only
    rw [emitFrames_emits]
    rfl
  · rw [port_modPort_same s p fun q => { q with egress := insertTx x q.egress }]

/-- A release with abort, with or without an operation of its own. -/
theorem unlockAbort_releases (s : State) (p d : Nat) (why : RelWhy) :
    (s.outp = [] → s.leaves (s.unlockAbort p d why) p 0 [baseFrame 9 d]) ∧ ((s.unlockAbort p d why).daddr p d).lock = .releasing
      ∧ (s.unlockAbort p d why).port p = { s.port p with egress := ((s.unlockAbort p d why).port p).egress } := by
  obtain ⟨m, hm⟩ := s.lockFresh_keeps (s.daddr p d)
  obtain ⟨u, hu, hlock, hports, houtp⟩ : ∃ u, ((s.lockFresh (s.daddr p d)).modDaddr p d fun a =>
      { a with lock := .releasing, relWhy := why, st := .cmd }) = u ∧ (u.daddr p d).lock = .releasing ∧ u.ports = s.ports ∧ u.outp = s.outp := by
    refine ⟨_, rfl, ?_, by rw [hm]; rfl, by rw [hm]; rfl⟩
    rw [daddr_modDaddr_same]
  have hrun : s.unlockAbort p d why = u.sendFrames p (reqTx ((s.daddr p d).lockReq.getD { kind := .lockRd, dn := 0, cls := 0, age := 0, serial := 0 })
      [baseFrame 9 d]) := by
    unfold unlockAbort
    dsimp only
    rw [hu]
  have hs := u.sendFrames_sends p (x := reqTx ((s.daddr p d).lockReq.getD { kind := .lockRd, dn := 0, cls := 0, age := 0, serial := 0 }) [baseFrame 9 d]) rfl
  have hport := u.sendFrames_port p (x := reqTx ((s.daddr p d).lockReq.getD { kind := .lockRd, dn := 0, cls := 0, age := 0, serial := 0 })
    [baseFrame 9 d]) rfl
  rw [hrun]
  refine ⟨fun h => leaves_of_eq hports (hs.leaves (houtp.trans h)), ?_, ?_⟩
  · rw [daddr_congr (congrArg State.daddrs hs.eq :)]
    exact hlock
  · rw [port_congr hports] at hport
    exact hport

theorem portTrained_releases {s : State} {p : Fin 144} {d : Nat} {x : Daddr} (hw : s.works = true) (ht : (s.port p.val).st = .train)
    (hd : s.portDaddrs p.val = [(d, x)]) (hl : x.lock = .orphaned) :
    ∃ t, exec (.portTrained p) s = .next t ∧ s.leaves t p.val 0 [baseFrame 9 d] ∧ (t.daddr p.val d).lock = .releasing
      ∧ (t.port p.val).st = .up := by
  obtain ⟨u, hu, hport, -, hueq⟩ := portTrained_trains hw ht
  rw [hd, List.foldl_cons, List.foldl_nil, if_pos hl] at hu
  obtain ⟨v, hv, hports, houtp⟩ : ∃ v, (u.modDaddr p.val d fun a => { a with relTries := 0 }) = v ∧ v.ports = u.ports ∧ v.outp = [] :=
    ⟨_, rfl, rfl, (congrArg State.outp hueq :)⟩
  obtain ⟨hleaves, hlock, hst⟩ := v.unlockAbort_releases p.val d .ended
  dsimp only at hu
  rw [hv] at hu
  refine ⟨_, hu, ?_, hlock, ?_⟩
  · have h := hleaves houtp
    unfold leaves at h ⊢
    rwa [port_congr hports, hport] at h
  · rw [hst, port_congr hports, hport]

theorem portTrainTimeout_fails {s : State} {p : Fin 144} (hw : s.works = true) (ht : (s.port p.val).st = .train) (hq : s.mute 0x042 = true) :
    ∃ t, exec (.portTrainTimeout p) s = .next t ∧ t.port p.val = { s.port p.val with st := .down } ∧ s.samePortsBut t p.val ∧ s.counted t 0x042
      ∧ (∀ m < s.members p.val,
          t.f Fld.gptLinkCnt_train_fail (p.val + m) = sat Fld.gptLinkCnt_train_fail (s.f Fld.gptLinkCnt_train_fail (p.val + m) + 1))
      ∧ s.onlyBlocks t [.gpt, .flt] ∧ t = { s.start with ports := t.ports, regs := t.regs, flt := t.flt } := by
  obtain ⟨t, ht', h⟩ := portDrops (s := s.start) (g := fun q => { q with st := .down }) (x := Fld.gptLinkCnt_train_fail) (src := 0x042) p.isLt rfl (by decide)
    (by decide) (not_reset_of_works hw) rfl (.inl hq)
  exact ⟨t, (congrArg Host.Outcome.next (if_pos ⟨hw, ht⟩)).trans (congrArg Host.Outcome.next ht'), h.port, h.others, h.counted, h.counts, h.only, h.eq⟩

theorem portRetryInterval_trains {s : State} {p : Fin 144} (hl : s.linksOn = true) (hd : (s.port p.val).st = .down) (hlead : s.isLead p.val = true) :
    ∃ t, exec (.portRetryInterval p) s = .next t ∧ t.port p.val = { s.port p.val with st := .train } ∧ s.samePortsBut t p.val
      ∧ t = { s.start with ports := t.ports } := by
  have hport := s.start.port_modPort_same p.val fun q => { q with st := .train }
  exact ⟨_, congrArg Host.Outcome.next (if_pos ⟨hl, hd, hlead⟩), hport, fun q hq => s.start.port_modPort_ne hq fun q => { q with st := .train }, rfl⟩

/-! ### Work that waits at a port that stays down -/

theorem dequeueOp_empty {s : State} {p : Nat} (h : (s.port p).queue = []) (je q : Nat) : ((s.dequeueOp je q).port p).queue = [] := by
  by_cases hpq : p = q
  · have hport := s.port_modPort_same q fun x => { x with queue := x.queue.filter fun y => y.2.je != some je }
    rw [hpq] at h ⊢
    rw [dequeueOp, hport, h]
    rfl
  · rw [dequeueOp, s.port_modPort_ne hpq fun x => { x with queue := x.queue.filter fun y => y.2.je != some je }]
    exact h

theorem fail_ports (s : State) (je : Nat) (f : Fail) (detail gaddr : Nat) (rec : List Byte) : (s.fail je f detail gaddr rec).ports = s.ports := by
  unfold fail numberFail
  dsimp only
  split
  · rfl
  · rw [modX_ports, modOp_ports, modJnl_ports, modOp_ports, modEntry_ports]

/-- The end of a piece of a direct request with TO. -/
theorem endAtPiece_completes {s : State} {je : Nat} {o : Op} {h : ReqHdr} (hd : s.directOp je o h) (g detail : Nat) (rec : List Byte) :
    ∃ t, s.endAtPiece je .to detail g rec = t ∧ .packet (s.route (s.entry je).link) (.cpl (s.cplHdr h 4 0) []) ∈ t.outp ∧ (t.entry je).err = 4
      ∧ (t.entry je).st = .completed ∧ t.op? je = none ∧ s.sameOpsBut t je ∧ t.regs = s.regs
      ∧ t.ports = (s.dequeueOp je o.port).ports := by
  obtain ⟨ho, hh, hx, hsilent, hctx, hkind, hpst, hcls, herr⟩ := hd
  obtain ⟨u, hu, hue, huo, hone⟩ := fail_fails ho hx herr .to detail g rec
  rw [show failCode (s.entry je).kind .to = 4 from if_pos (by omega)] at hue
  obtain ⟨z, hz, hzo, hze, hzone, hzports⟩ : ∃ z : State, (u.modOp je fun o => { o with stop := true, cur := none }) = z
      ∧ z.op? je = some { s.failed o .to g rec with stop := true, cur := none } ∧ z.entry je = { s.entry je with err := 4 } ∧ s.OneOp z je
      ∧ z.ports = s.ports := by
    have hmod := u.op?_modOp_same je fun o => { o with stop := true, cur := none }
    rw [huo] at hmod
    refine ⟨_, rfl, hmod, hue, hone.trans (oneOp_modOp ..), ?_⟩
    rw [← hu]
    exact s.fail_ports je .to detail g rec
  obtain ⟨t, ht, hsent, hte, hst, hop, hothers, -, heq⟩ := failedEnd_completes ⟨ho, hh, hx, hsilent, hctx, hkind, hpst, hcls, herr⟩ hze hzo hh hctx hsilent
    hzone.others (by rw [hzone.eq]) (by rw [hzone.eq])
  have hrun : s.endAtPiece je .to detail g rec = z.farEnd je := by
    unfold endAtPiece
    rw [hu, hz]
  refine ⟨t, hrun.trans ht, hsent, hte, hst, hop, hothers, ?_, ?_⟩
  · rw [heq]
    exact (congrArg State.regs hzone.eq :)
  · have hmod : (z.dequeueOp je o.port).ports = (s.dequeueOp je o.port).ports :=
      congrArg (fun m => (({ s with ports := m } : State).dequeueOp je o.port).ports) hzports
    rw [heq]
    exact hmod

theorem downHold_runs {s : State} {p : Fin 144} {d : Nat} {x : XReq} (hw : s.works = true) (hst : (s.port p.val).st ≠ .up)
    (hq : (s.port p.val).queue = [(d, x)]) :
    ∃ u : State, exec (.downHoldExpire p) s = .next (match x.kind, x.je with
        | .poll, _ => u.modDn x.dn fun n => { n with poll := .wait }
        | .ack, some _ => u.ackFails x .to 4 []
        | .ack, none => u
        | _, some je =>
          let g := match u.op? je with | some o => u.failAt o | none => 0
          (u.withdraw [je]).endAtPiece je .to 4 g (bridgeStatus true true 1 0 u.ts)
        | _, none => u)
      ∧ (u.port p.val).queue = [] ∧ s.samePortsBut u p.val ∧ u = { s.start with ports := u.ports } := by
  have hgo : ¬ ((!s.start.works) = true ∨ (s.start.port p.val).st = .up) := by
    rw [show s.start.works = true from hw]
    rintro (h | h)
    · exact absurd h (by decide)
    · exact hst h
  refine ⟨s.start.modPort p.val fun x => { x with queue := [] }, ?_, ?_, fun q hq => s.start.port_modPort_ne hq fun x => { x with queue := [] }, rfl⟩
  · refine congrArg Host.Outcome.next ((if_neg hgo).trans ?_)
    rw [show (s.start.port p.val).queue = [(d, x)] from hq]
    rfl
  · rw [port_modPort_same _ p.val fun x => { x with queue := [] }]

theorem downHold_pollWaits {s : State} {p : Fin 144} {d : Nat} {x : XReq} (hw : s.works = true) (hst : (s.port p.val).st ≠ .up)
    (hq : (s.port p.val).queue = [(d, x)]) (hk : x.kind = .poll) :
    ∃ t, exec (.downHoldExpire p) s = .next t ∧ (t.port p.val).queue = [] ∧ t.dn x.dn = { s.dn x.dn with poll := .wait }
      ∧ s.samePortsBut t p.val ∧ t = { s.start with ports := t.ports, dns := t.dns } := by
  obtain ⟨u, hu, hqueue, hports, hueq⟩ := downHold_runs hw hst hq
  rw [hk] at hu
  dsimp only at hu
  obtain ⟨t, ht, htp, htd, hteq⟩ : ∃ t, (u.modDn x.dn fun n => { n with poll := .wait }) = t ∧ t.ports = u.ports
      ∧ t.dn x.dn = { u.dn x.dn with poll := .wait } ∧ t = { u with dns := t.dns } :=
    ⟨_, rfl, rfl, u.dn_modDn_same x.dn fun n => { n with poll := .wait }, rfl⟩
  rw [ht] at hu
  refine ⟨t, hu, by rw [port_congr htp, hqueue], ?_, fun q hq => (port_congr htp q).trans (hports q hq), ?_⟩
  · rw [htd, dn, congrArg State.dns hueq]
    rfl
  · have h1 := congrArg (fun z : State => { z with dns := t.dns }) hueq
    rw [htp]
    exact hteq.trans h1

theorem downHold_ends {s : State} {p : Fin 144} {d je : Nat} {x : XReq} {o : Op} {h : ReqHdr} (hw : s.works = true)
    (hst : (s.port p.val).st ≠ .up) (hq : (s.port p.val).queue = [(d, x)]) (hk : x.kind = .rd ∨ x.kind = .wr) (hje : x.je = some je)
    (hd : s.directOp je o h) :
    ∃ t, exec (.downHoldExpire p) s = .next t ∧ (t.port p.val).queue = []
      ∧ .packet (s.route (s.entry je).link) (.cpl (s.cplHdr h 4 0) []) ∈ t.outp
      ∧ (t.entry je).st = .completed ∧ (t.entry je).err = 4 ∧ t.op? je = none ∧ s.sameOpsBut t je ∧ t.regs = s.regs := by
  obtain ⟨u, hu, hqueue, -, hueq⟩ := downHold_runs hw hst hq
  obtain ⟨v, hv, hvp, hvsame⟩ : ∃ v, u.withdraw [je] = v ∧ v.ports = u.ports ∧ v = { s.start with ports := v.ports, hub := v.hub } := by
    refine ⟨_, rfl, rfl, ?_⟩
    have h1 := congrArg (fun z : State => { z with hub := (u.withdraw [je]).hub }) hueq
    exact h1
  have hve (j : Nat) : v.entry j = s.entry j := entry_congr (by rw [hvsame]; rfl) j
  have hvo (j : Nat) : v.op? j = s.op? j := op?_congr (by rw [hvsame]; rfl) j
  have hvd : v.directOp je o h := by
    unfold directOp
    rw [hve, hvo]
    exact hd
  have hlinks : v.links = s.links := by rw [hvsame]; rfl
  have hregs : v.regs = s.regs := by rw [hvsame]; rfl
  have hmatch : exec (.downHoldExpire p) s = .next (v.endAtPiece je .to 4 (match u.op? je with | some o => u.failAt o | none => 0)
      (bridgeStatus true true 1 0 u.ts)) := by
    rw [hu, hje]
    rcases hk with hk | hk <;> rw [hk, ← hv]
  obtain ⟨t, ht, hsent, hte, hstc, hop, hothers, htregs, htports⟩ := endAtPiece_completes hvd (match u.op? je with | some o => u.failAt o | none => 0) 4
    (bridgeStatus true true 1 0 u.ts)
  have hroute : v.route (v.entry je).link = s.route (s.entry je).link := by rw [hve, route, link_congr hlinks, route]
  have hhdr : v.cplHdr h 4 0 = s.cplHdr h 4 0 := by
    rw [cplHdr, bridgeId, f_congr hregs]
    rfl
  rw [hroute, hhdr] at hsent
  refine ⟨t, hmatch.trans (congrArg Host.Outcome.next ht), ?_, hsent, hstc, hte, hop,
    fun j hj => ⟨(hothers j hj).1.trans (hve j), (hothers j hj).2.trans (hvo j)⟩, htregs.trans hregs⟩
  rw [port_congr htports]
  have hvq : (v.port p.val).queue = [] := by rw [port_congr hvp, hqueue]
  exact dequeueOp_empty hvq je o.port

/-! ### LINK frames -/

theorem linkRecv_acts {s : State} {p : Nat} {f : Frame} (hr : s.portRecv p = true) (hc : s.crcOk f = true) (hl : f.payload.length = 8)
    (act : State → State) : s.linkRecv p f act = act s := by
  have hr' : ¬ (!s.portRecv p) = true := by rw [hr]; decide
  have hc' : ¬ (!s.crcOk f) = true := by rw [hc]; decide
  exact (if_neg hr').trans ((if_neg hc').trans (if_neg fun h => h hl))

theorem align_keeps {s : State} {p : Fin 144} {f : Frame} (hc : s.crcOk f = true) (hl : f.payload.length = 8) :
    exec (.align p f) s = .next s.start := by
  refine congrArg Host.Outcome.next ?_
  by_cases hr : s.start.portRecv p.val = true
  · exact linkRecv_acts hr hc hl id
  · exact if_pos (by rw [Bool.eq_false_iff.mpr hr]; rfl)

theorem foldl_emit {α : Type} (g : α → Output) (xs : List α) (s : State) :
    xs.foldl (fun s m => s.emit (g m)) s = { s with outp := s.outp ++ xs.map g } := by
  induction xs generalizing s with
  | nil => simp
  | cons x xs ih =>
    rw [List.foldl_cons, ih]
    simp [emit]

theorem alignSend_sends {s : State} {p : Fin 144} (hw : s.works = true) (hup : (s.port p.val).st = .up) (hm : 1 < s.members p.val) :
    ∃ t, exec (.alignSend p) s = .next t ∧ t.outp = (List.range (s.members p.val)).map (fun m => .frame p.val m (Machine.linkFrame 1 []))
      ∧ t = { s.start with outp := t.outp } := by
  have hrun := foldl_emit (fun m => Output.frame p.val m (Machine.linkFrame 1 [])) (List.range (s.members p.val)) s.start
  exact ⟨_, congrArg Host.Outcome.next ((if_pos ⟨not_reset_of_works hw, hup, not_halt_of_works hw, hm⟩).trans hrun), rfl, rfl⟩

/-- The calibration state of a port's member. -/
def calOf (s : State) (p m : Nat) : Cal := FMap.get {} m (s.port p).cal

theorem calOf_congr {s t : State} (h : t.ports = s.ports) (p m : Nat) : t.calOf p m = s.calOf p m := by
  rw [calOf, port_congr h, calOf]

theorem modCal_same (s : State) (p m : Nat) (g : Cal → Cal) : (s.modCal p m g).calOf p m = g (s.calOf p m) := by
  rw [calOf, modCal, port_modPort_same s p fun q => { q with cal := FMap.mod {} m g q.cal }]
  exact FMap.get_mod_same ..

theorem modCal_others (s : State) (p m : Nat) (g : Cal → Cal) : s.samePortsBut (s.modCal p m g) p :=
  fun _ hq => s.port_modPort_ne hq fun q => { q with cal := FMap.mod {} m g q.cal }

theorem calSend_keeps (s : State) (p m : Nat) (f : Frame) : (s.calSend p m f).calOf p m = s.calOf p m := by
  rw [calOf, calSend, sendFrames_port _ _ rfl]
  rfl

theorem calSend_sends (s : State) (p m : Nat) (f : Frame) : s.Sends (s.calSend p m f) p m [f] := s.sendFrames_sends p rfl

theorem leaves_of_statusQ {s u t : State} {p m : Nat} {fs : List Frame} (hp : (u.port p).statusQ = (s.port p).statusQ) (h : u.leaves t p m fs) :
    s.leaves t p m fs := by
  unfold leaves at h ⊢
  rwa [← hp]

theorem modCal_statusQ (s : State) (p m : Nat) (g : Cal → Cal) : ((s.modCal p m g).port p).statusQ = (s.port p).statusQ := by
  rw [modCal, port_modPort_same s p fun q => { q with cal := FMap.mod {} m g q.cal }]

/-- A coefficient that a COEF-REQ changes, and the code of its answer (R102). -/
def coefStepped (c : Cal) (b v code k : Nat) : Int × Nat :=
  if bit 7 b || bit 6 b then (0, 1 + v / 2 ^ k % 3) else coefStep code (c.coef.getD k 0) (v / 2 ^ k)

theorem coefStepped_presets {b : Nat} (h : bit 7 b = true) (c : Cal) (v code k : Nat) : (coefStepped c b v code k).1 = 0 := by
  rw [coefStepped, h]
  rfl

theorem coefReq_answers {s : State} {p : Fin 144} {m : Fin 4} {f : Frame} (hr : s.portRecv p.val = true) (hc : s.crcOk f = true)
    (hl : f.payload.length = 8) (hrate : s.f Fld.gptCfg_rate p.val = 0) (hm : s.mode ≠ .load) :
    ∃ t c, exec (.coefReq p m f) s = .next t ∧ s.leaves t p.val m.val [Machine.linkFrame 3 (natBytes 1 c ++ slice 1 1 f.payload)]
      ∧ (fieldAt 0 1 f.payload = 0 → c = 0 ∧ (FMap.get {} m.val (t.port p.val).cal).coef
          = (List.range 3).map fun k => (FMap.get {} m.val (s.port p.val).cal).coef.getD k 0)
      ∧ (bit 7 (fieldAt 0 1 f.payload) = true → (FMap.get {} m.val (t.port p.val).cal).coef = [0, 0, 0])
      ∧ s.samePortsBut t p.val ∧ t = { s.start with
          ports := t.ports, outp := t.outp, freeCount := t.freeCount, freeNext := t.freeNext } := by
  have hgo : ¬ (s.start.f Fld.gptCfg_rate p.val ≠ 0 ∨ s.start.mode = .load) := fun h => h.elim (fun h => h hrate) hm
  have hrun (act : State → State) := linkRecv_acts (s := s.start) hr hc hl act
  obtain ⟨b, hb⟩ : ∃ b, fieldAt 0 1 f.payload = b := ⟨_, rfl⟩
  obtain ⟨step, hstep⟩ : ∃ step, coefStepped (s.calOf p.val m.val) b s.free = step := ⟨_, rfl⟩
  obtain ⟨u, hu, hcal, hports, hsq, hueq⟩ : ∃ u, (s.start.draw.modCal p.val m.val fun c => { c with
      coef := [(step (bits 1 0 b) 0).1, (step (bits 3 2 b) 1).1, (step (bits 5 4 b) 2).1] }) = u
        ∧ (u.calOf p.val m.val).coef = [(step (bits 1 0 b) 0).1, (step (bits 3 2 b) 1).1, (step (bits 5 4 b) 2).1]
        ∧ s.samePortsBut u p.val ∧ (u.port p.val).statusQ = (s.port p.val).statusQ
        ∧ u = { s.start with ports := u.ports, freeCount := u.freeCount, freeNext := u.freeNext } := by
    refine ⟨_, rfl, ?_, modCal_others s.start.draw _ _ _, modCal_statusQ s.start.draw .., rfl⟩
    rw [modCal_same]
  obtain ⟨c, hcode⟩ : ∃ c, (step (bits 5 4 b) 2).2 * 16 + (step (bits 3 2 b) 1).2 * 4 + (step (bits 1 0 b) 0).2 = c := ⟨_, rfl⟩
  have hs := u.calSend_sends p.val m.val (Machine.linkFrame 3 (natBytes 1 c ++ slice 1 1 f.payload))
  have hkeep := u.calSend_keeps p.val m.val (Machine.linkFrame 3 (natBytes 1 c ++ slice 1 1 f.payload))
  have hnext : exec (.coefReq p m f) s = .next (u.calSend p.val m.val (Machine.linkFrame 3 (natBytes 1 c ++ slice 1 1 f.payload))) := by
    refine congrArg Host.Outcome.next ((hrun _).trans ((if_neg hgo).trans ?_))
    rw [← hu, ← hcode, ← hstep, ← hb]
    rfl
  generalize u.calSend p.val m.val (Machine.linkFrame 3 (natBytes 1 c ++ slice 1 1 f.payload)) = t at hs hkeep hnext
  refine ⟨t, c, hnext, leaves_of_statusQ hsq (hs.leaves (congrArg State.outp hueq :)), fun h0 => ?_, fun h7 => ?_,
    fun q hq => (hs.others q hq).trans (hports q hq), ?_⟩
  · rw [hb] at h0
    rw [h0] at hcal hcode hstep
    rw [← hstep] at hcal hcode
    exact ⟨hcode.symm, (congrArg Cal.coef hkeep).trans hcal⟩
  · rw [hb] at h7
    rw [← hstep, coefStepped_presets h7, coefStepped_presets h7, coefStepped_presets h7] at hcal
    exact (congrArg Cal.coef hkeep).trans hcal
  · have h2 := congrArg (fun z : State => { z with ports := t.ports, outp := t.outp }) hueq
    have hfree : t.freeCount = u.freeCount ∧ t.freeNext = u.freeNext := by rw [hs.eq]; exact ⟨rfl, rfl⟩
    rw [hfree.1, hfree.2]
    exact hs.eq.trans h2

theorem coefReq_ignored {s : State} {p : Fin 144} {f : Frame} (hr : s.portRecv p.val = true) (hc : s.crcOk f = true)
    (hl : f.payload.length = 8) (hrate : s.f Fld.gptCfg_rate p.val ≠ 0) (m : Fin 4) : exec (.coefReq p m f) s = .next s.start :=
  congrArg Host.Outcome.next ((linkRecv_acts (s := s.start) hr hc hl _).trans (if_pos (.inl hrate)))

theorem coefStat_answers {s : State} {p : Fin 144} {m : Fin 4} {f : Frame} (hr : s.portRecv p.val = true) (hc : s.crcOk f = true)
    (hl : f.payload.length = 8) (hseq : (FMap.get {} m.val (s.port p.val).cal).outSeq = some (fieldAt 1 1 f.payload)) :
    ∃ t, exec (.coefStat p m f) s = .next t
      ∧ FMap.get {} m.val (t.port p.val).cal = { FMap.get {} m.val (s.port p.val).cal with outSeq := none }
      ∧ s.samePortsBut t p.val ∧ t = { s.start with ports := t.ports } :=
  ⟨s.start.modCal p.val m.val fun c => { c with outSeq := none },
    congrArg Host.Outcome.next ((linkRecv_acts (s := s.start) hr hc hl _).trans (if_pos hseq)), s.start.modCal_same p.val m.val _,
    s.start.modCal_others p.val m.val _, rfl⟩

theorem coefStat_ignored {s : State} {p : Fin 144} {m : Fin 4} {f : Frame} (hr : s.portRecv p.val = true) (hc : s.crcOk f = true)
    (hl : f.payload.length = 8) (hseq : (FMap.get {} m.val (s.port p.val).cal).outSeq ≠ some (fieldAt 1 1 f.payload)) :
    exec (.coefStat p m f) s = .next s.start :=
  congrArg Host.Outcome.next ((linkRecv_acts (s := s.start) hr hc hl _).trans (if_neg hseq))

/-! ### The bridge's own coefficient requests -/

theorem coefNoresp_ends {s : State} {p : Fin 144} {m : Fin 4} {k : Nat} (hr : s.mode ≠ .reset)
    (hseq : (FMap.get {} m.val (s.port p.val).cal).outSeq = some k) :
    ∃ t, exec (.coefNoresp p m) s = .next t
      ∧ FMap.get {} m.val (t.port p.val).cal = { FMap.get {} m.val (s.port p.val).cal with outSeq := none, lastEye := none }
      ∧ t.f Fld.pwrCalCnt_tx_noresp = sat Fld.pwrCalCnt_tx_noresp (s.f Fld.pwrCalCnt_tx_noresp + 1)
      ∧ s.samePortsBut t p.val ∧ s.onlyFields t [(Fld.pwrCalCnt_tx_noresp, 0)] ∧ t = { s.start with ports := t.ports, regs := t.regs } := by
  obtain ⟨u, hu, hcal, hports, hregs, hueq⟩ : ∃ u, (s.start.modCal p.val m.val fun c => { c with outSeq := none, lastEye := none }) = u
      ∧ u.calOf p.val m.val = { s.calOf p.val m.val with outSeq := none, lastEye := none } ∧ s.samePortsBut u p.val ∧ u.regs = s.regs
      ∧ u = { s.start with ports := u.ports } := ⟨_, rfl, modCal_same .., modCal_others s.start _ _ _, rfl, rfl⟩
  obtain ⟨t, ht, hoff, hf, honly⟩ := u.incF_tells (x := Fld.pwrCalCnt_tx_noresp) (by decide) (by decide)
  have htp : t.ports = u.ports := (congrArg State.ports hoff : t.offRegs.ports = u.offRegs.ports)
  refine ⟨t, ?_, (calOf_congr htp ..).trans hcal, ?_, fun q hq => (port_congr htp q).trans (hports q hq), (onlyFields_of_regs hregs _).trans honly, ?_⟩
  · have hgo : s.start.mode ≠ .reset ∧ (FMap.get {} m.val (s.start.port p.val).cal).outSeq.isSome = true :=
      ⟨hr, by rw [show (FMap.get {} m.val (s.start.port p.val).cal).outSeq = some k from hseq]; rfl⟩
    exact congrArg Host.Outcome.next ((if_pos hgo).trans (by rw [hu, ht]))
  · rw [hf, f_congr hregs]
  · have h1 := eq_of_offRegs hoff
    have h2 := congrArg (fun z : State => { z with regs := t.regs }) hueq
    rw [htp]
    exact h1.trans h2

theorem drawn_eq (s : State) (b : Bool) : ∃ c n, (if b then s.draw else s) = { s with freeCount := c, freeNext := n } := by
  cases b
  · exact ⟨s.freeCount, s.freeNext, rfl⟩
  · exact ⟨_, _, rfl⟩

/-- A coefficient request goes out, with its counters and its Hub slot, once its calibration state is `g`'s. -/
theorem calRequest_sends {u : State} {p : Fin 144} {m : Fin 4} (f : Frame) (hout : u.outp = []) :
    ∃ t, ((((u.incF Fld.pwrCalCnt_tx_refresh).incF Fld.gptLinkCnt_coef_updates (p.val + m.val)).calSlot p.val).calSend p.val m.val f) = t
      ∧ u.leaves t p.val m.val [f] ∧ (∃ x, t.hub = { u.hub with xfers := u.hub.xfers ++ [x] } ∧ x.cls = 3 ∧ x.out = hubSpoke p.val)
      ∧ t.calOf p.val m.val = u.calOf p.val m.val
      ∧ t.f Fld.pwrCalCnt_tx_refresh = sat Fld.pwrCalCnt_tx_refresh (u.f Fld.pwrCalCnt_tx_refresh + 1)
      ∧ u.samePortsBut t p.val ∧ u.onlyRegs t [(.pwrCalCnt, 0), (.gptLinkCnt, p.val + m.val)]
      ∧ t = { u with ports := t.ports, regs := t.regs, hub := t.hub, outp := t.outp } := by
  obtain ⟨v, hv, hf, honly, hoff⟩ : ∃ v, (u.incF Fld.pwrCalCnt_tx_refresh).incF Fld.gptLinkCnt_coef_updates (p.val + m.val) = v
      ∧ v.f Fld.pwrCalCnt_tx_refresh = sat Fld.pwrCalCnt_tx_refresh (u.f Fld.pwrCalCnt_tx_refresh + 1)
      ∧ u.onlyRegs v [(.pwrCalCnt, 0), (.gptLinkCnt, p.val + m.val)] ∧ v.offRegs = u.offRegs := by
    refine ⟨_, rfl, ?_, ((onlyRegs.refl u _).incF List.mem_cons_self 1).incF (List.mem_cons_of_mem _ List.mem_cons_self) 1, by rw [offRegs_incF, offRegs_incF]⟩
    have hne : regOff Fld.pwrCalCnt_tx_refresh.id 0 ≠ regOff Fld.gptLinkCnt_coef_updates.id (p.val + m.val) := by
      have h1 : regOff Fld.pwrCalCnt_tx_refresh.id 0 < 0x100000 := by decide
      have h2 : regOff Fld.gptLinkCnt_coef_updates.id (p.val + m.val) = 0x100054 + 0x400 * (p.val + m.val) := regOff_linkCnt _
      omega
    rw [f_incF_ne _ hne, f_incF_sat u (by decide) 1 0]
  obtain ⟨w, hw, hwx, hweq⟩ : ∃ w, v.calSlot p.val = w ∧ (∃ x, w.hub = { v.hub with xfers := v.hub.xfers ++ [x] } ∧ x.cls = 3 ∧ x.out = hubSpoke p.val)
      ∧ w = { v with hub := w.hub } := ⟨_, rfl, ⟨_, rfl, rfl, rfl⟩, rfl⟩
  have hs := w.calSend_sends p.val m.val f
  have hkeep := w.calSend_keeps p.val m.val f
  rw [hv, hw]
  generalize w.calSend p.val m.val f = t at hs hkeep
  have hwp : w.ports = u.ports := by rw [hweq]; exact (congrArg State.ports hoff : v.offRegs.ports = u.offRegs.ports)
  have hwo : w.outp = u.outp := by rw [hweq]; exact (congrArg State.outp hoff : v.offRegs.outp = u.offRegs.outp)
  have hvh : v.hub = u.hub := (congrArg State.hub hoff : v.offRegs.hub = u.offRegs.hub)
  have htr : t.regs = v.regs := by rw [hs.eq, hweq]
  have hth : t.hub = w.hub := by rw [hs.eq]
  rw [hvh, ← hth] at hwx
  refine ⟨t, rfl, leaves_of_eq hwp (hs.leaves (hwo.trans hout)), hwx, hkeep.trans (calOf_congr hwp ..), (f_congr htr ..).trans hf,
    fun q hq => (hs.others q hq).trans (port_congr hwp q), honly.congr htr, ?_⟩
  have hkeepAll {a b : State} (h : a = b) := congrArg (fun z : State => { z with ports := t.ports, regs := t.regs, hub := t.hub, outp := t.outp }) h
  have h1 := hkeepAll hs.eq
  have h2 := hkeepAll hweq
  have h3 := hkeepAll (eq_of_offRegs hoff)
  exact h1.trans (h2.trans h3)

theorem txRefresh_requests {s : State} {p : Fin 144} {m : Fin 4} {eye : BitVec 16} (hmode : s.mode = .run ∨ s.mode = .service)
    (hen : s.fb Fld.pwrCalCfg_tx_en = true) (hup : (s.port p.val).st = .up) (hrate : s.f Fld.gptCfg_rate p.val = 0)
    (hm : m.val < s.members p.val) (hseq : (FMap.get {} m.val (s.port p.val).cal).outSeq = none) (hfroz : s.pwr.adaptFrozen = false) :
    ∃ t code, exec (.txRefresh p m eye) s = .next t
      ∧ s.leaves t p.val m.val [Machine.linkFrame 2 (natBytes 1 code ++ natBytes 1 (FMap.get {} m.val (s.port p.val).cal).nextSeq)]
      ∧ (∃ x, t.hub = { s.hub with xfers := s.hub.xfers ++ [x] } ∧ x.cls = 3 ∧ x.out = hubSpoke p.val)
      ∧ (FMap.get {} m.val (t.port p.val).cal).outSeq = some (FMap.get {} m.val (s.port p.val).cal).nextSeq
      ∧ (FMap.get {} m.val (t.port p.val).cal).lastEye = some eye.toNat
      ∧ (∀ y, (FMap.get {} m.val (s.port p.val).cal).lastEye = some y → eye.toNat ≤ y →
          (FMap.get {} m.val (t.port p.val).cal).tap = (FMap.get {} m.val (s.port p.val).cal).tap
          ∧ (FMap.get {} m.val (t.port p.val).cal).dir = !(FMap.get {} m.val (s.port p.val).cal).dir)
      ∧ t.f Fld.pwrCalCnt_tx_refresh = sat Fld.pwrCalCnt_tx_refresh (s.f Fld.pwrCalCnt_tx_refresh + 1)
      ∧ s.samePortsBut t p.val ∧ s.onlyRegs t [(.pwrCalCnt, 0), (.gptLinkCnt, p.val + m.val)]
      ∧ t = { s.start with
          ports := t.ports, regs := t.regs, hub := t.hub, outp := t.outp, freeCount := t.freeCount, freeNext := t.freeNext } := by
  obtain ⟨c, hc⟩ : ∃ c, s.calOf p.val m.val = c := ⟨_, rfl⟩
  have hgo : ¬ (!decide ((s.start.mode = .run ∨ s.start.mode = .service) ∧ s.start.fb Fld.pwrCalCfg_tx_en = true ∧ (s.start.port p.val).st = .up
      ∧ s.start.f Fld.gptCfg_rate p.val = 0 ∧ m.val < s.start.members p.val ∧ (s.start.calOf p.val m.val).outSeq = none)) = true := by
    rw [decide_eq_true ⟨hmode, hen, hup, hrate, hm, hseq⟩]
    decide
  have hfroz' : ¬ s.start.pwr.adaptFrozen = true := by
    rw [show s.start.pwr.adaptFrozen = false from hfroz]
    decide
  obtain ⟨better, hb⟩ : ∃ better, (match c.lastEye with | none => true | some y => decide (y < eye.toNat)) = better := ⟨_, rfl⟩
  obtain ⟨tap, htap⟩ : ∃ tap, (if better then s.free % 3 else c.tap) = tap := ⟨_, rfl⟩
  obtain ⟨dir, hdir⟩ : ∃ dir, (if better then decide (s.free / 3 % 2 = 1) else !c.dir) = dir := ⟨_, rfl⟩
  obtain ⟨fc, fn, hdraw⟩ := s.start.drawn_eq better
  obtain ⟨u, hu, hcal, hports, hsq, hueq⟩ : ∃ u, ((if better then s.start.draw else s.start).modCal p.val m.val fun c => { c with
      outSeq := some c.nextSeq, nextSeq := (c.nextSeq + 1) % 256, lastEye := some eye.toNat, tap := tap, dir := dir }) = u
        ∧ u.calOf p.val m.val = { c with
            outSeq := some c.nextSeq, nextSeq := (c.nextSeq + 1) % 256, lastEye := some eye.toNat, tap := tap, dir := dir }
        ∧ s.samePortsBut u p.val ∧ (u.port p.val).statusQ = (s.port p.val).statusQ
        ∧ u = { s.start with ports := u.ports, freeCount := u.freeCount, freeNext := u.freeNext } := by
    refine ⟨_, rfl, ?_, ?_, ?_, ?_⟩
    · rw [modCal_same, hdraw, ← hc]
      rfl
    · rw [hdraw]
      exact modCal_others { s.start with freeCount := fc, freeNext := fn } _ _ _
    · rw [hdraw]
      exact modCal_statusQ { s.start with freeCount := fc, freeNext := fn } ..
    · rw [hdraw]
      rfl
  obtain ⟨t, ht, hleaves, hhub, hkeep, hcnt, hothers, honly, hteq⟩ := calRequest_sends (p := p) (m := m)
    (Machine.linkFrame 2 (natBytes 1 ((if dir then 1 else 2) * 4 ^ tap) ++ natBytes 1 c.nextSeq)) (congrArg State.outp hueq : u.outp = [])
  have hnext : exec (.txRefresh p m eye) s = .next t := by
    refine congrArg Host.Outcome.next ((if_neg hgo).trans ((if_neg hfroz').trans ?_))
    rw [← ht, ← hu, ← htap, ← hdir, ← hb, ← hc]
    rfl
  have hregs : u.regs = s.regs := by rw [hueq]; rfl
  have hhub' : u.hub = s.hub := by rw [hueq]; rfl
  rw [hhub'] at hhub
  have htcal := hkeep.trans hcal
  rw [show FMap.get {} m.val (s.port p.val).cal = c from hc]
  refine ⟨t, (if dir then 1 else 2) * 4 ^ tap, hnext, leaves_of_statusQ hsq hleaves, hhub, (congrArg Cal.outSeq htcal :),
    (congrArg Cal.lastEye htcal :), fun y hy hle => ?_, by rw [hcnt, f_congr hregs],
    fun q hq => (hothers q hq).trans (hports q hq), (onlyRegs_of_regs hregs _).trans honly, ?_⟩
  · have hworse : better = false := by
      rw [← hb, hy]
      exact decide_eq_false (Nat.not_lt.mpr hle)
    rw [hworse] at htap hdir
    exact ⟨(congrArg Cal.tap htcal).trans htap.symm, (congrArg Cal.dir htcal).trans hdir.symm⟩
  · have h2 := congrArg (fun z : State => { z with ports := t.ports, regs := t.regs, hub := t.hub, outp := t.outp }) hueq
    have hfree : t.freeCount = u.freeCount ∧ t.freeNext = u.freeNext := by rw [hteq]; exact ⟨rfl, rfl⟩
    rw [hfree.1, hfree.2]
    exact hteq.trans h2

theorem txRefresh_postpones {s : State} {p : Fin 144} {m : Fin 4} (eye : BitVec 16) (hmode : s.mode = .run ∨ s.mode = .service)
    (hen : s.fb Fld.pwrCalCfg_tx_en = true) (hup : (s.port p.val).st = .up) (hrate : s.f Fld.gptCfg_rate p.val = 0)
    (hm : m.val < s.members p.val) (hseq : (FMap.get {} m.val (s.port p.val).cal).outSeq = none) (hfroz : s.pwr.adaptFrozen = true) :
    ∃ t, exec (.txRefresh p m eye) s = .next t ∧ t.f Fld.pwrCalCnt_postponed = sat Fld.pwrCalCnt_postponed (s.f Fld.pwrCalCnt_postponed + 1)
      ∧ s.onlyFields t [(Fld.pwrCalCnt_postponed, 0)] ∧ t = { s.start with regs := t.regs } := by
  have hgo : ¬ (!decide ((s.start.mode = .run ∨ s.start.mode = .service) ∧ s.start.fb Fld.pwrCalCfg_tx_en = true ∧ (s.start.port p.val).st = .up
      ∧ s.start.f Fld.gptCfg_rate p.val = 0 ∧ m.val < s.start.members p.val ∧ (s.start.calOf p.val m.val).outSeq = none)) = true := by
    rw [decide_eq_true ⟨hmode, hen, hup, hrate, hm, hseq⟩]
    decide
  obtain ⟨t, ht, hoff, hf, honly⟩ := s.start.incF_tells (x := Fld.pwrCalCnt_postponed) (by decide) (by decide)
  exact ⟨t, congrArg Host.Outcome.next ((if_neg hgo).trans ((if_pos hfroz).trans ht)), hf, honly, eq_of_offRegs hoff⟩

end State

/-- Settles O38: `leaveUp` and its callers through `portDrops`; frames on a LINK through `linkRecv_acts`, `sendFrames_sends`. -/
theorem portStatesAndLinkFrames : Obligations.PortStatesAndLinkFrames := by
  unfold Obligations.PortStatesAndLinkFrames
  refine ⟨⟨fun s p => State.portLeavesUp_leaves, fun s p hm hup => ?_, fun s p => State.portLeavesUp_stays, fun s a p => State.gptRetrain_leaves,
    fun s p hw ht => ⟨State.portTrained_rises hw ht, fun d x => State.portTrained_releases hw ht, State.portTrainTimeout_fails hw ht⟩,
    fun s p => State.portRetryInterval_trains,
    fun s p d x hw hst hq => ⟨State.downHold_pollWaits hw hst hq, fun je o h => State.downHold_ends hw hst hq⟩⟩,
    fun s p f => State.align_keeps, fun s p => State.alignSend_sends,
    fun s p m f hr hc hl => ⟨State.coefReq_answers hr hc hl, fun h => State.coefReq_ignored hr hc hl h m, State.coefStat_answers hr hc hl,
      State.coefStat_ignored hr hc hl⟩,
    fun s p m eye hmode hen hup hrate hm hseq => ⟨State.txRefresh_requests hmode hen hup hrate hm hseq,
      State.txRefresh_postpones eye hmode hen hup hrate hm hseq⟩,
    fun s p m k => State.coefNoresp_ends⟩
  obtain ⟨t, ht, h⟩ := State.portLeavesUp_halted hm hup
  have heq := h.eq
  exact ⟨t, ht, h.port, h.counts, h.counted, h.others, (congrArg State.dns heq :), (congrArg State.jnl heq :), (congrArg State.ops heq :),
    (congrArg State.daddrs heq :), h.only⟩

end Sys2Proof.Machine
end

section
/-! PROOFS. The squash of instances, and the commands and timers that lead to it (R255, R263 to R265). -/

namespace Sys2Proof.Machine

namespace State

/-! ### What a squash spares -/

/-- What the steps of a squash leave as it was: the instances, the management queue and its tail; and they hold no request anew. -/
structure Spares (s t : State) : Prop where
  insts : t.insts = s.insts
  mgt : t.mgt = s.mgt
  tail : t.f Fld.mgtDb_tail = s.f Fld.mgtDb_tail
  held : ∀ l, (t.link l).held ⊆ (s.link l).held

theorem Spares.refl (s : State) : s.Spares s := ⟨rfl, rfl, rfl, fun _ => List.Subset.refl _⟩

theorem Spares.trans {s t u : State} (h : s.Spares t) (h' : t.Spares u) : s.Spares u :=
  ⟨h'.insts.trans h.insts, h'.mgt.trans h.mgt, h'.tail.trans h.tail, fun l => List.Subset.trans (h'.held l) (h.held l)⟩

theorem spares_of_eq {s t : State} (hi : t.insts = s.insts) (hm : t.mgt = s.mgt) (hr : t.regs = s.regs) (hl : t.links = s.links) : s.Spares t :=
  ⟨hi, hm, f_congr hr .., fun l => by rw [link_congr hl]; exact List.Subset.refl _⟩

theorem spares_modLink (s : State) (l : Nat) {g : Link → Link} (h : ∀ k, (g k).held ⊆ k.held) : s.Spares (s.modLink l g) := by
  refine ⟨rfl, rfl, rfl, fun j => ?_⟩
  by_cases hj : j = l
  · rw [hj, link_modLink_same]
    exact h _
  · rw [link_modLink_ne _ hj]
    exact List.Subset.refl _

theorem spares_handTx (s : State) (l : Nat) (p : Packet) (frees : List Nat) : s.Spares (s.handTx l p frees) := by
  have hoff := s.offLinks_handTx l p frees
  refine ⟨(congrArg State.insts hoff : _), (congrArg State.mgt hoff : _), f_congr (offLinks_regs hoff) .., fun j => ?_⟩
  have hheld : ((s.handTx l p frees).link j).held = (s.link j).held :=
    (congrArg Link.held ((s.sameRx_handTx l p frees).link j) : ((s.handTx l p frees).link j).offTx.held = (s.link j).offTx.held)
  rw [hheld]
  exact List.Subset.refl _

/-- A counter that is not in the word of MGT_DB. -/
theorem spares_incF (s : State) {x : Fld} {i : Nat} (h : regOff .mgtDb 0 ≠ regOff x.id i) : s.Spares (s.incF x i) :=
  ⟨incF_insts .., incF_mgt .., f_incF_ne s (x := x) (y := Fld.mgtDb_tail) h 1, fun l => by rw [link_congr (incF_links ..)]; exact List.Subset.refl _⟩

theorem foldl_spares {α : Type} {g : State → α → State} (h : ∀ (s : State) (x : α), s.Spares (g s x)) (xs : List α) (s : State) : s.Spares (xs.foldl g s) := by
  induction xs generalizing s with
  | nil => exact Spares.refl s
  | cons x xs ih => exact (h s x).trans (ih (g s x))

/-! ### The requests that instances hold -/

theorem regOff_instCnt (i : Nat) : regOff .instCnt i = 16777768 + 0x10000 * i := by
  have h : regOff .instCnt i = 0x1000000 + 0x228 + i / 1 * 0x10000 + i % 1 * 4 := rfl
  omega

theorem spares_dropHeld (s : State) (l : Nat) (x : HeldReq) : s.Spares (s.dropHeld l x) ∧ x ∉ ((s.dropHeld l x).link l).held := by
  obtain ⟨u, hu, hsp, hx⟩ : ∃ u, (s.modLink l fun k => { k with held := k.held.filter fun y => y.stamp != x.stamp }) = u ∧ s.Spares u
      ∧ x ∉ (u.link l).held := by
    refine ⟨_, rfl, s.spares_modLink l fun k => List.filter_subset' _, ?_⟩
    rw [link_modLink_same]
    intro hmem
    exact absurd (List.of_mem_filter hmem) (by simp)
  have hgive := u.spares_modLink l (g := fun k => { k with credRet := k.credRet ++ packetReturns x.pkt }) fun k => List.Subset.refl _
  have hrun : s.dropHeld l x = u.giveCredits l x.pkt := by rw [dropHeld, hu]
  rw [hrun]
  exact ⟨hsp.trans hgive, fun hmem => hx (hgive.held l hmem)⟩

theorem spares_refuseReq (s : State) (l : Nat) (h : ReqHdr) (wr : Bool) (status : Nat) : s.Spares (s.refuseReq l h wr status) := by
  unfold refuseReq
  split
  · exact Spares.refl s
  · exact s.spares_handTx ..

/-- A held request of one of the instances is refused. -/
def refuseOne (i l : Nat) (s : State) (x : HeldReq) : State :=
  if foundInst x.found = some i then
    let s := (s.dropHeld l x).incF Fld.instCnt_refused i
    match x.pkt with
    | .mrd h => s.refuseReq l h false 1
    | .mwr h _ => s.refuseReq l h true 1
    | _ => s
  else s

theorem refuseHeld_eq (s : State) (i : Nat) :
    s.refuseHeld i = [0, 1].foldl (fun s l => (s.link l).held.foldl (refuseOne i l) s) s := rfl

theorem refuseOne_refuses (s : State) (i l : Nat) (x : HeldReq) :
    s.Spares (refuseOne i l s x) ∧ (foundInst x.found = some i → x ∉ ((refuseOne i l s x).link l).held) := by
  unfold refuseOne
  by_cases hf : foundInst x.found = some i
  · rw [if_pos hf]
    obtain ⟨hdrop, hx⟩ := s.spares_dropHeld l x
    have hinc := (s.dropHeld l x).spares_incF (x := Fld.instCnt_refused) (i := i) (by
      have h1 : regOff .mgtDb 0 = 524300 := by decide
      have h2 : regOff Fld.instCnt_refused.id i = 16777768 + 0x10000 * i := regOff_instCnt i
      omega)
    have hafter : ((s.dropHeld l x).incF Fld.instCnt_refused i).Spares (match x.pkt with
        | .mrd h => ((s.dropHeld l x).incF Fld.instCnt_refused i).refuseReq l h false 1
        | .mwr h _ => ((s.dropHeld l x).incF Fld.instCnt_refused i).refuseReq l h true 1
        | _ => (s.dropHeld l x).incF Fld.instCnt_refused i) := by
      split
      · exact spares_refuseReq ..
      · exact spares_refuseReq ..
      · exact Spares.refl _
    exact ⟨hdrop.trans (hinc.trans hafter), fun _ hmem => hx (hinc.held l (hafter.held l hmem))⟩
  · rw [if_neg hf]
    exact ⟨Spares.refl s, fun h => absurd h hf⟩

theorem refuseAll_refuses (i l : Nat) (xs : List HeldReq) (s : State) :
    s.Spares (xs.foldl (refuseOne i l) s) ∧ ∀ x ∈ xs, foundInst x.found = some i → x ∉ ((xs.foldl (refuseOne i l) s).link l).held := by
  induction xs generalizing s with
  | nil => exact ⟨Spares.refl s, fun x hx => absurd hx List.not_mem_nil⟩
  | cons y xs ih =>
    obtain ⟨hone, hy⟩ := s.refuseOne_refuses i l y
    obtain ⟨hrest, hxs⟩ := ih (refuseOne i l s y)
    refine ⟨hone.trans hrest, fun x hx hf hmem => ?_⟩
    rcases List.mem_cons.mp hx with rfl | hx
    · exact hy hf (hrest.held l hmem)
    · exact hxs x hx hf hmem

theorem refuseHeld_refuses (s : State) (i : Nat) :
    s.Spares (s.refuseHeld i) ∧ ∀ l < 2, ∀ x ∈ ((s.refuseHeld i).link l).held, foundInst x.found ≠ some i := by
  rw [refuseHeld_eq, List.foldl_cons, List.foldl_cons, List.foldl_nil]
  obtain ⟨h0, hnone0⟩ := refuseAll_refuses i 0 (s.link 0).held s
  generalize (s.link 0).held.foldl (refuseOne i 0) s = t at h0 hnone0
  obtain ⟨h1, hnone1⟩ := refuseAll_refuses i 1 (t.link 1).held t
  generalize (t.link 1).held.foldl (refuseOne i 1) t = u at h1 hnone1
  refine ⟨h0.trans h1, fun l hl x hx hf => ?_⟩
  obtain rfl | rfl : l = 0 ∨ l = 1 := by omega
  · exact hnone0 x (h0.held 0 (h1.held 0 hx)) hf (h1.held 0 hx)
  · exact hnone1 x (h1.held 1 hx) hf hx

/-- Where there is no held request of it, none is refused. -/
theorem refuseHeld_idle {s : State} {i : Nat} (h : ∀ l < 2, ∀ x ∈ (s.link l).held, foundInst x.found ≠ some i) : s.refuseHeld i = s := by
  have hlink (l : Nat) (hl : l < 2) : (s.link l).held.foldl (refuseOne i l) s = s := foldl_idle fun x hx => if_neg (h l hl x hx)
  rw [refuseHeld_eq, List.foldl_cons, List.foldl_cons, List.foldl_nil, hlink 0 (by decide), hlink 1 (by decide)]

/-! ### The entries of instances -/

theorem regOff_lockCnt_apart (p : Nat) : regOff .mgtDb 0 ≠ regOff .gptLockCnt p := by
  have h1 : regOff .mgtDb 0 = 524300 := by decide
  have h2 : regOff .gptLockCnt p = 0x100000 + 0x50 + p / 1 * 0x400 + p % 1 * 4 := rfl
  omega

theorem spares_sendFrames (s : State) (p : Nat) {x : EgressTx} (hx : x.after = none) : s.Spares (s.sendFrames p x) := by
  have h := (s.sendFrames_sends p hx).eq
  exact spares_of_eq (by rw [h]) (by rw [h]) (by rw [h]) (by rw [h])

theorem spares_unlockAbort (s : State) (p d : Nat) (why : RelWhy) : s.Spares (s.unlockAbort p d why) := by
  obtain ⟨m, hm⟩ := s.lockFresh_keeps (s.daddr p d)
  obtain ⟨u, hu, hsp⟩ : ∃ u, (s.lockFresh (s.daddr p d)).modDaddr p d (fun a => { a with lock := .releasing, relWhy := why, st := .cmd }) = u
      ∧ s.Spares u := ⟨_, rfl, by rw [hm]; exact spares_of_eq rfl rfl rfl rfl⟩
  unfold unlockAbort
  dsimp only
  rw [hu]
  exact hsp.trans (spares_sendFrames u p rfl)

theorem spares_stopExchange (s : State) (je reason : Nat) : s.Spares (s.stopExchange je reason Fld.gptLockCnt_aborts) := by
  unfold stopExchange dropLock
  split
  · exact Spares.refl s
  next o _ =>
  dsimp only
  split
  · split
    · exact Spares.refl s
    · split
      · exact spares_of_eq rfl rfl rfl rfl
      · exact (s.spares_incF (regOff_lockCnt_apart o.port)).trans (spares_unlockAbort ..)
      · exact Spares.refl s
  · split
    · exact spares_of_eq rfl rfl rfl rfl
    · exact Spares.refl s

theorem spares_squashUp (s : State) (je : Nat) (o : Op) : s.Spares (s.squashUp je o) := by
  unfold squashUp
  dsimp only
  split
  · exact Spares.refl s
  · split
    · exact Spares.refl s
    · split
      · exact spares_of_eq rfl rfl rfl rfl
      · split
        · exact spares_of_eq rfl rfl rfl rfl
        · exact spares_of_eq rfl rfl rfl rfl

theorem spares_squashEntry (s : State) (je : Nat) (e : JEntry) : s.Spares (s.squashEntry je e) := by
  unfold squashEntry
  split
  · exact Spares.refl s
  have hset : s.Spares (s.setSt je .squashed) := spares_of_eq rfl rfl rfl rfl
  dsimp only
  generalize s.setSt je .squashed = t at hset
  split
  · exact hset
  next o _ =>
  have hstop := hset.trans (t.spares_stopExchange je 4)
  generalize t.stopExchange je 4 Fld.gptLockCnt_aborts = u at hstop
  have hdis := hstop.trans (spares_of_eq (t := (u.dequeueOp je o.port).disown je o.port o.daddr) rfl rfl rfl rfl)
  generalize (u.dequeueOp je o.port).disown je o.port o.daddr = v at hdis
  have hup := hdis.trans (v.spares_squashUp je o)
  generalize v.squashUp je o = w at hup
  have hdone := hup.trans (spares_of_eq (t := w.modOp je fun o => { hold := o.hold, area := o.area, done := true, silent := true }) rfl rfl rfl rfl)
  generalize w.modOp je (fun o => { hold := o.hold, area := o.area, done := true, silent := true }) = x at hdone
  split
  · split
    · next h _ =>
      have hmod := hdone.trans (spares_of_eq (t := x.modEntry je fun e => { e with sqc := true }) rfl rfl rfl rfl)
      exact hmod.trans (spares_handTx ..)
    · exact hdone
  · exact hdone

theorem spares_squashAcks (s : State) (i : Nat) : s.Spares (s.squashAcks i) := by
  have habort (t : State) (p : Nat × Daddr) : t.Spares (t.abortExchange (p.1 / 2048) (p.1 % 2048) 4) := spares_of_eq rfl rfl rfl rfl
  unfold squashAcks
  dsimp only
  refine Spares.trans ?_ (foldl_spares habort _ _)
  exact spares_of_eq rfl rfl rfl rfl

/-- What a squash leaves: nothing of it that waits, runs or is held. -/
structure Squashed (s t : State) (i : Nat) : Prop where
  inst : ∃ n, t.inst i = { s.inst i with st := .squash, squashed := n }
  others : s.sameInstsBut t i
  ctxs : ∀ c ∈ t.ctxs, c.2.inst ≠ i
  reserved : ∀ x ∈ t.jnl.reserved, x.2 ≠ i
  held : ∀ l < 2, ∀ x ∈ (t.link l).held, foundInst x.found ≠ some i
  mgt : t.mgt = s.mgt
  tail : t.f Fld.mgtDb_tail = s.f Fld.mgtDb_tail

/-- The work of one of the instances that a squash takes out at its end. -/
def dropWork (s : State) (i : Nat) : State :=
  { s with
    jnl := { s.jnl with reserved := s.jnl.reserved.filter fun p => p.2 != i }
    ctxs := s.ctxs.filter fun c => c.2.inst != i
    evWait := s.evWait.filter fun e => e.inst != i
    pels := FMap.del i s.pels
    qps := s.qps.map fun p => (p.1, if p.1 / 4 = i then { p.2 with held := [], evPend := false, timer := false } else p.2) }

/-- The bridge's request once what asked for it is squashed. -/
def deadReq (jes ns : List Nat) (i : Nat) (r : OutReq) : OutReq :=
  match r.purpose with
  | .upRd je | .data _ je => if jes.contains je then { r with purpose := .dead } else r
  | .ccd k => if ns.contains k then { r with purpose := .dead } else r
  | .startEntry k _ => if k = i then { r with purpose := .dead } else r
  | _ => r

theorem squash_eq (s : State) (i : Nat) : ∃ (es : FMap JEntry) (jes ns : List Nat), s.squash i
    = ((es.foldl (fun s p => s.squashEntry p.1 p.2) (((((s.withdraw jes ns).squashAcks i).refuseHeld i).modLink 0 fun k => { k with
        outst := k.outst.map (deadReq jes ns i) }).modLink 1 fun k => { k with outst := k.outst.map (deadReq jes ns i) })).dropWork i).modInst i
          fun n => { n with st := .squash, squashed := n.squashed + es.length } :=
  ⟨s.jnl.entries.filter fun p => p.2.inst == i && p.2.st != .completed && p.2.st != .squashed, _, _, rfl⟩

theorem squash_squashes (s : State) (i : Nat) : ∃ t, s.squash i = t ∧ s.Squashed t i := by
  obtain ⟨es, jes, ns, hrun⟩ := s.squash_eq i
  have hwith : s.Spares (s.withdraw jes ns) := spares_of_eq rfl rfl rfl rfl
  have hacks := hwith.trans ((s.withdraw jes ns).spares_squashAcks i)
  generalize (s.withdraw jes ns).squashAcks i = a at hrun hacks
  obtain ⟨hrefuse, hnone⟩ := a.refuseHeld_refuses i
  generalize a.refuseHeld i = b at hrun hrefuse hnone
  have hlinks := (b.spares_modLink 0 (g := fun k => { k with outst := k.outst.map (deadReq jes ns i) }) fun k => List.Subset.refl _).trans
    (spares_modLink _ 1 (g := fun k => { k with outst := k.outst.map (deadReq jes ns i) }) fun k => List.Subset.refl _)
  generalize (b.modLink 0 fun k => { k with outst := k.outst.map (deadReq jes ns i) }).modLink 1 (fun k => { k with
    outst := k.outst.map (deadReq jes ns i) }) = c at hrun hlinks
  have hes := hlinks.trans (foldl_spares (g := fun s (p : Nat × JEntry) => s.squashEntry p.1 p.2) (fun s p => s.spares_squashEntry p.1 p.2) es c)
  generalize es.foldl (fun s p => s.squashEntry p.1 p.2) c = d at hrun hes
  have hall := hacks.trans (hrefuse.trans hes)
  have hinst := (d.dropWork i).inst_modInst_same i fun n => { n with st := .squash, squashed := n.squashed + es.length }
  have hsame (j : Nat) : (d.dropWork i).inst j = s.inst j := inst_congr hall.insts j
  rw [hsame] at hinst
  refine ⟨_, hrun, ⟨(s.inst i).squashed + es.length, hinst⟩, fun j hj => ((d.dropWork i).inst_modInst_ne hj _).trans (hsame j), fun x hx => ?_,
    fun x hx => ?_, fun l hl x hx => hnone l hl x (hes.held l hx), hall.mgt, hall.tail⟩
  · have hkept := (List.mem_filter (p := fun c : Nat × Ctx => c.2.inst != i)).mp hx
    exact bne_iff_ne.mp hkept.2
  · have hkept := (List.mem_filter (p := fun p : Nat × Nat => p.2 != i)).mp hx
    exact bne_iff_ne.mp hkept.2

/-! ### The result that is owed -/

/-- The command at the head is taken, and the queue is empty then. -/
theorem mgtNext_idle {s : State} (h : s.mgt.head = s.f Fld.mgtDb_tail) :
    s.mgtNext = { s with mgt := { s.mgt with cmd := none, list := [], listOut := false, listErr := 0 } } := by
  exact mgtFetch_idle (s.modMgt fun m => { m with cmd := none, list := [], listOut := false, listErr := 0 }) (.inr (.inr (.inr h)))

theorem oweResult_owes {s : State} (i : Nat) (h : s.mgt.head = s.f Fld.mgtDb_tail) :
    ∃ t, s.oweResult i = t ∧ t.inst i = { s.inst i with owed := (s.inst i).owed ++ [(s.mgt.slot, s.mgt.slotPhase)] } ∧ s.sameInstsBut t i
      ∧ t.mgt = { s.mgt with cmd := none, list := [], listOut := false, listErr := 0 } ∧ t = { s with insts := t.insts, mgt := t.mgt } := by
  have hidle : s.oweResult i = _ := mgtNext_idle (s := s.modInst i fun n => { n with owed := n.owed ++ [(s.mgt.slot, s.mgt.slotPhase)] }) h
  have hinst := s.inst_modInst_same i fun n => { n with owed := n.owed ++ [(s.mgt.slot, s.mgt.slotPhase)] }
  exact ⟨_, hidle, hinst, fun j hj => s.inst_modInst_ne hj fun n => { n with owed := n.owed ++ [(s.mgt.slot, s.mgt.slotPhase)] }, rfl, rfl⟩

/-- A squash whose result is owed. -/
theorem squash_owes {s : State} (i : Nat) (h : s.mgt.head = s.f Fld.mgtDb_tail) :
    ∃ t, (s.squash i).oweResult i = t ∧ (∃ n, t.inst i = { s.inst i with
        st := .squash, squashed := n, owed := (s.inst i).owed ++ [(s.mgt.slot, s.mgt.slotPhase)] })
      ∧ s.sameInstsBut t i ∧ (∀ c ∈ t.ctxs, c.2.inst ≠ i) ∧ (∀ x ∈ t.jnl.reserved, x.2 ≠ i)
      ∧ (∀ l < 2, ∀ x ∈ (t.link l).held, foundInst x.found ≠ some i) := by
  obtain ⟨u, hu, hsq⟩ := s.squash_squashes i
  obtain ⟨n, hn⟩ := hsq.inst
  obtain ⟨t, ht, hinst, hothers, -, heq⟩ := oweResult_owes (s := u) i (by rw [hsq.mgt, hsq.tail]; exact h)
  rw [hn, hsq.mgt] at hinst
  have hctxs : t.ctxs = u.ctxs := by rw [heq]
  have hjnl : t.jnl = u.jnl := by rw [heq]
  have hlinks : t.links = u.links := by rw [heq]
  refine ⟨t, by rw [hu, ht], ⟨n, hinst⟩, fun j hj => (hothers j hj).trans (hsq.others j hj), by rw [hctxs]; exact hsq.ctxs,
    by rw [hjnl]; exact hsq.reserved, fun l hl => ?_⟩
  rw [link_congr hlinks]
  exact hsq.held l hl

/-! ### RESET, DESTROY and the drain's time-out -/

/-- A command of the management queue that is not out of place. -/
theorem mgt_goes {s : State} {opc i : Nat} {b : List Byte} (h : s.mgtReady opc i b) :
    ¬ ((!s.start.works) = true ∨ s.start.mgt.st ≠ .run) ∧ s.start.mgtCmd opc = some (i, b) ∧ s.start.mgt.head = s.start.f Fld.mgtDb_tail := by
  obtain ⟨hw, hrun, hcmd, -, hhead, -⟩ := h
  refine ⟨?_, hcmd, hhead⟩
  rw [show s.start.works = true from hw, show s.start.mgt.st = .run from hrun]
  decide

theorem reset_drains {s : State} {i : Nat} {b : List Byte} (hr : s.mgtReady 3 i b) (hok : s.resetCheck i b = none)
    (hsq : bit 31 (fieldAt 4 4 b) = false) (hev : s.evOn i 7 = false) (hheld : ∀ l < 2, ∀ x ∈ (s.link l).held, foundInst x.found ≠ some i) :
    ∃ t, exec .reset s = .next t
      ∧ t.inst i = { s.inst i with
          st := .drain, squashed := 0, escalated := false, owed := (s.inst i).owed ++ [(s.mgt.slot, s.mgt.slotPhase)] }
      ∧ s.sameInstsBut t i ∧ t.mgt = { s.mgt with cmd := none, list := [], listOut := false, listErr := 0 }
      ∧ t = { s.start with insts := t.insts, mgt := t.mgt } := by
  obtain ⟨hgo, hcmd, hhead⟩ := mgt_goes hr
  obtain ⟨u, hu, hui, hune, huheld, huev, hueq⟩ : ∃ u, (s.start.modInst i fun n => { n with st := .drain, squashed := 0, escalated := false }) = u
      ∧ u.inst i = { s.inst i with st := .drain, squashed := 0, escalated := false } ∧ s.sameInstsBut u i
      ∧ u.refuseHeld i = u ∧ u.evOn i 7 = false ∧ u = { s.start with insts := u.insts } :=
    ⟨_, rfl, s.start.inst_modInst_same i _, fun j hj => s.start.inst_modInst_ne hj _, refuseHeld_idle hheld, hev, rfl⟩
  have hevent : u.instEvent i 4 0 0 0 = u := by
    unfold instEvent
    rw [huev]
    rfl
  obtain ⟨t, ht, hinst, hothers, hmgt, hteq⟩ := oweResult_owes (s := u) i (by rw [hueq]; exact hhead)
  have hsq' : (!bit 31 (fieldAt 4 4 b)) = true := by rw [hsq]; rfl
  refine ⟨t, ?_, ?_, fun j hj => (hothers j hj).trans (hune j hj), ?_, ?_⟩
  · refine congrArg Host.Outcome.next ((if_neg hgo).trans ?_)
    rw [hcmd]
    dsimp only
    rw [show s.start.resetCheck i b = none from hok]
    refine (if_pos hsq').trans ?_
    rw [hu, huheld, hevent, ht]
  · rw [hinst, hui, hueq]
    rfl
  · rw [hmgt, hueq]
    rfl
  · have h2 := congrArg (fun z : State => { z with insts := t.insts, mgt := t.mgt }) hueq
    exact hteq.trans h2

/-- What a squash that a command or a timer starts leaves of the fields of its `Inst`. -/
theorem squash_marks {s : State} (i : Nat) (g : Inst → Inst) (h : s.mgt.head = s.f Fld.mgtDb_tail) :
    ∃ t, ((s.modInst i g).squash i).oweResult i = t
      ∧ (∃ n, t.inst i = { g (s.inst i) with st := .squash, squashed := n, owed := (g (s.inst i)).owed ++ [(s.mgt.slot, s.mgt.slotPhase)] })
      ∧ s.sameInstsBut t i ∧ (∀ c ∈ t.ctxs, c.2.inst ≠ i) ∧ (∀ x ∈ t.jnl.reserved, x.2 ≠ i)
      ∧ (∀ l < 2, ∀ x ∈ (t.link l).held, foundInst x.found ≠ some i) := by
  obtain ⟨u, hu, hui, hune, humgt, huf⟩ : ∃ u, s.modInst i g = u ∧ u.inst i = g (s.inst i) ∧ s.sameInstsBut u i ∧ u.mgt = s.mgt
      ∧ u.f Fld.mgtDb_tail = s.f Fld.mgtDb_tail := ⟨_, rfl, s.inst_modInst_same i g, fun j hj => s.inst_modInst_ne hj g, rfl, rfl⟩
  obtain ⟨t, ht, ⟨n, hn⟩, hothers, hrest⟩ := squash_owes (s := u) i (by rw [humgt, huf]; exact h)
  rw [hui, humgt] at hn
  exact ⟨t, by rw [hu, ht], ⟨n, hn⟩, fun j hj => (hothers j hj).trans (hune j hj), hrest⟩

theorem reset_squashes {s : State} {i : Nat} {b : List Byte} (hr : s.mgtReady 3 i b) (hok : s.resetCheck i b = none)
    (hsq : bit 31 (fieldAt 4 4 b) = true) :
    ∃ t, exec .reset s = .next t ∧ (t.inst i).st = .squash ∧ (t.inst i).owed = (s.inst i).owed ++ [(s.mgt.slot, s.mgt.slotPhase)]
      ∧ ((t.inst i).escalated = true ↔ (s.inst i).st = .drain) ∧ s.sameInstsBut t i ∧ (∀ c ∈ t.ctxs, c.2.inst ≠ i)
      ∧ (∀ x ∈ t.jnl.reserved, x.2 ≠ i) ∧ (∀ l < 2, ∀ x ∈ (t.link l).held, foundInst x.found ≠ some i) := by
  obtain ⟨hgo, hcmd, hhead⟩ := mgt_goes hr
  have hsq' : ¬ (!bit 31 (fieldAt 4 4 b)) = true := by rw [hsq]; decide
  have hrun : exec .reset s = .next (if (s.start.inst i).st = .drain
      then ((s.start.modInst i fun n => { n with escalated := true }).squash i).oweResult i
      else ((s.start.modInst i fun n => { n with squashed := 0, escalated := false }).squash i).oweResult i) := by
    refine congrArg Host.Outcome.next ((if_neg hgo).trans ?_)
    rw [hcmd]
    dsimp only
    rw [show s.start.resetCheck i b = none from hok]
    exact if_neg hsq'
  by_cases hd : (s.start.inst i).st = .drain
  · obtain ⟨t, ht, ⟨n, hn⟩, hrest⟩ := squash_marks i (fun n => { n with escalated := true }) hhead
    rw [if_pos hd, ht] at hrun
    exact ⟨t, hrun, (congrArg Inst.st hn :), (congrArg Inst.owed hn :), iff_of_true (congrArg Inst.escalated hn :) hd, hrest⟩
  · obtain ⟨t, ht, ⟨n, hn⟩, hrest⟩ := squash_marks i (fun n => { n with squashed := 0, escalated := false }) hhead
    rw [if_neg hd, ht] at hrun
    have hesc : (t.inst i).escalated = false := (congrArg Inst.escalated hn :)
    exact ⟨t, hrun, (congrArg Inst.st hn :), (congrArg Inst.owed hn :), iff_of_false (by rw [hesc]; exact Bool.false_ne_true) hd, hrest⟩

theorem destroy_squashes {s : State} {i : Nat} {b : List Byte} (hr : s.mgtReady 4 i b) (hok : badCmd [(4, fieldAt 4 52 b != 0)] = none)
    (hact : (s.inst i).st = .active) :
    ∃ t, exec .destroy s = .next t ∧ (t.inst i).st = .squash ∧ (t.inst i).destroying = true
      ∧ (t.inst i).owed = (s.inst i).owed ++ [(s.mgt.slot, s.mgt.slotPhase)] ∧ s.sameInstsBut t i ∧ (∀ c ∈ t.ctxs, c.2.inst ≠ i) := by
  obtain ⟨hgo, hcmd, hhead⟩ := mgt_goes hr
  have hact' : (s.start.inst i).st = .active := hact
  have hcheck : ((badCmd [(4, fieldAt 4 52 b != 0)]).orElse fun _ => s.start.needState i ((s.start.inst i).st != .free)) = none := by
    rw [hok, hact']
    rfl
  obtain ⟨t, ht, ⟨n, hn⟩, hothers, hctxs, -⟩ := squash_marks (s := s.start) i (fun n => { n with
    destroying := true
    escalated := if InstSt.active = .drain then true else if InstSt.active = .active then false else n.escalated
    squashed := if InstSt.active = .active then 0 else n.squashed }) hhead
  refine ⟨t, ?_, (congrArg Inst.st hn :), (congrArg Inst.destroying hn :), (congrArg Inst.owed hn :), hothers, hctxs⟩
  refine congrArg Host.Outcome.next ((if_neg hgo).trans ?_)
  rw [hcmd]
  dsimp only
  rw [hcheck]
  dsimp only
  rw [hact', if_neg (by decide), ht]

theorem drainTimeout_squashes {s : State} {i : Fin 256} (hw : s.works = true) (hd : (s.inst i.val).st = .drain) :
    ∃ t, exec (.drainTimeout i) s = .next t ∧ (t.inst i.val).st = .squash ∧ (t.inst i.val).escalated = true ∧ s.sameInstsBut t i.val
      ∧ (∀ c ∈ t.ctxs, c.2.inst ≠ i.val) ∧ (∀ x ∈ t.jnl.reserved, x.2 ≠ i.val)
      ∧ (∀ l < 2, ∀ x ∈ (t.link l).held, foundInst x.found ≠ some i.val) := by
  obtain ⟨u, hu, hui, hune⟩ : ∃ u, (s.start.modInst i.val fun n => { n with escalated := true }) = u
      ∧ u.inst i.val = { s.inst i.val with escalated := true } ∧ s.sameInstsBut u i.val :=
    ⟨_, rfl, s.start.inst_modInst_same i.val _, fun j hj => s.start.inst_modInst_ne hj _⟩
  obtain ⟨t, ht, hsq⟩ := u.squash_squashes i.val
  obtain ⟨n, hn⟩ := hsq.inst
  rw [hui] at hn
  refine ⟨t, ?_, (congrArg Inst.st hn :), (congrArg Inst.escalated hn :), fun j hj => (hsq.others j hj).trans (hune j hj), hsq.ctxs, hsq.reserved, hsq.held⟩
  exact (congrArg Host.Outcome.next (if_pos ⟨hw, hd⟩)).trans (by rw [hu, ht])

theorem drainTimeout_idle {s : State} {i : Fin 256} (hd : (s.inst i.val).st ≠ .drain) : exec (.drainTimeout i) s = .next s.start :=
  congrArg Host.Outcome.next (if_neg fun h => hd h.2)

end State

end Sys2Proof.Machine
end

section
/-! PROOFS. The commands that create and change instances, and the end of a reset (R256 to R262, R265, R266). -/

namespace Sys2Proof.Machine

/-! ### Maps that are filtered by key -/

theorem find_filter_kept {α : Type} {keep : Nat × α → Bool} {k : Nat} (h : ∀ v, keep (k, v) = true) (m : FMap α) :
    FMap.find k (m.filter keep) = FMap.find k m := by
  induction m with
  | nil => rfl
  | cons p m ih =>
    obtain ⟨j, w⟩ := p
    by_cases hj : j = k
    · rw [List.filter_cons_of_pos (by rw [hj]; exact h w), FMap.find_cons, FMap.find_cons, if_pos hj, if_pos hj]
    · rw [FMap.find_cons, if_neg hj, ← ih]
      by_cases hk : keep (j, w) = true
      · rw [List.filter_cons_of_pos hk, FMap.find_cons, if_neg hj]
      · rw [List.filter_cons_of_neg hk]

theorem find_filter_dropped {α : Type} {keep : Nat × α → Bool} {k : Nat} (h : ∀ v, keep (k, v) = false) (m : FMap α) :
    FMap.find k (m.filter keep) = none := by
  refine FMap.find_eq_none.mpr fun p hp hpk => ?_
  obtain ⟨-, hkeep⟩ := List.mem_filter.mp hp
  rw [show p = (k, p.2) from Prod.ext hpk rfl, h] at hkeep
  exact absurd hkeep (by decide)

namespace State

/-! ### A result is written -/

/-- The bytes of a result: status word, then its information. -/
def resultBytes (ph : Bool) (res detail info : Nat) : List Byte :=
  natBytes 4 (b2n ph * 2 ^ 31 + res * 2 ^ 16 + detail % 65536) ++ natBytes 4 info

/-- The counter that a result steps. -/
def resultCnt (res : Nat) : Fld := if res % 256 = 1 then Fld.mgtCnt_done else Fld.mgtCnt_failed

theorem fieldAt_natBytes (v : Nat) (xs : List Byte) : fieldAt 1 1 (natBytes 4 v ++ xs) = v / 256 ^ 2 % 256 := by
  simp [fieldAt, natBytes, slice, bytesNat]

theorem fieldAt_result (ph : Bool) (res detail info : Nat) : fieldAt 1 1 (resultBytes ph res detail info) = res % 256 := by
  rw [resultBytes, fieldAt_natBytes]
  cases ph
  · have hb : b2n false = 0 := rfl
    omega
  · have hb : b2n true = 1 := rfl
    omega

theorem resultCnt_apart (res : Nat) : (resultCnt res).fits ∧ (resultCnt res).id = .mgtCnt
    ∧ (resultCnt res, 0) ∈ [(Fld.mgtCnt_done, 0), (Fld.mgtCnt_failed, 0)]
    ∧ wordsApart (resultCnt res) 0 [(Fld.mgtCnt_done, 0), (Fld.mgtCnt_failed, 0)] := by
  unfold resultCnt
  split <;> decide

/-- What a result of the management queue changes, where it is written at once. -/
structure Results (s t : State) (slot : Nat) (bs : List Byte) (res : Nat) : Prop where
  sent : .packet (s.route s.mgtLink) (.mwr (spanHdr s.mgtVc false s.bridgeId 0 (s.mgtSlot slot + 56) 8) bs) ∈ t.outp
  count : t.f (resultCnt res) = sat (resultCnt res) (s.f (resultCnt res) + 1)
  tail : t.f Fld.mgtDb_tail = s.f Fld.mgtDb_tail
  only : s.onlyFields t [(Fld.mgtCnt_done, 0), (Fld.mgtCnt_failed, 0)]
  block : s.onlyBlocks t [.mgt]
  eq : t = { s with regs := t.regs, links := t.links, outp := t.outp }

theorem mgtResult_results {s : State} {slot : Nat} (hheld : s.mgt.heldRes = [])
    (hok : s.judge (gTlink s.mgtLink) s.mgtIdent (s.mgtSlot slot + 56) (s.mgtSlot slot + 63) false true = .ok) (ph : Bool) (res detail info : Nat)
    (long : Bool) : ∃ t, s.mgtResult slot ph res detail info long = t ∧ s.Results t slot (resultBytes ph res detail info) res := by
  obtain ⟨u, hu⟩ : ∃ u, s.handTx s.mgtLink (.mwr (spanHdr s.mgtVc false s.bridgeId 0 (s.mgtSlot slot + 56) 8) (resultBytes ph res detail info)) = u :=
    ⟨_, rfl⟩
  have hrun : s.mgtResult slot ph res detail info long = u.incF (resultCnt res) := by
    have hgate := gateCheck_ok hok none none
    have hempty : ¬ (!s.mgt.heldRes.isEmpty) = true := by rw [hheld]; decide
    refine (if_neg hempty).trans ?_
    dsimp only
    rw [show s.mgtSlot slot + 56 + 7 = s.mgtSlot slot + 63 from rfl, hgate]
    refine (if_neg (show ¬ (!true) = true by decide)).trans ?_
    have hbs : natBytes 4 (b2n ph * 2 ^ 31 + res * 2 ^ 16 + detail % 65536) ++ natBytes 4 info = resultBytes ph res detail info := rfl
    rw [hbs, hu, fieldAt_result, resultCnt]
    split <;> rfl
  have hsent := s.outp_handTx s.mgtLink (.mwr (spanHdr s.mgtVc false s.bridgeId 0 (s.mgtSlot slot + 56) 8) (resultBytes ph res detail info)) []
  have hoff := s.offLinks_handTx s.mgtLink (.mwr (spanHdr s.mgtVc false s.bridgeId 0 (s.mgtSlot slot + 56) 8) (resultBytes ph res detail info)) []
  rw [hu] at hsent hoff
  have hregs : u.regs = s.regs := offLinks_regs hoff
  obtain ⟨hfit, hid, hmem, happart⟩ := resultCnt_apart res
  have hblock : blockAt (regOff (resultCnt res).id 0) = some .mgt := by rw [hid]; decide
  obtain ⟨t, ht, htout, hcount, htail, honly, hblk, htoff⟩ : ∃ t, u.incF (resultCnt res) = t ∧ t.outp = u.outp
      ∧ t.f (resultCnt res) = sat (resultCnt res) (u.f (resultCnt res) + 1) ∧ t.f Fld.mgtDb_tail = u.f Fld.mgtDb_tail
      ∧ u.onlyFields t [(Fld.mgtCnt_done, 0), (Fld.mgtCnt_failed, 0)] ∧ u.onlyBlocks t [.mgt] ∧ t.offRegs = u.offRegs :=
    ⟨_, rfl, incF_outp .., u.f_incF_sat hfit 1 0, f_incF_ne u (x := resultCnt res) (y := Fld.mgtDb_tail) (by rw [hid]; decide) 1,
      (onlyFields.refl u _).incF hmem hfit happart 1, u.onlyBlocks_incF hblock (by decide) 1, offRegs_incF ..⟩
  refine ⟨t, hrun.trans ht, ?_, by rw [hcount, f_congr hregs], htail.trans (f_congr hregs ..), (onlyFields_of_regs hregs _).trans honly,
    (onlyBlocks_of_regs hregs _).trans hblk, ?_⟩
  · rw [htout]
    exact hsent List.mem_cons_self
  · have hkeep {x y : State} (h : x = y) := congrArg (fun z : State => { z with regs := t.regs, links := t.links, outp := t.outp }) h
    have h1 := hkeep (eq_of_offRegs htoff)
    have h2 := hkeep (eq_of_offLinks hoff)
    exact h1.trans h2

/-! ### The end of a command -/

/-- The fields that the answer to a command rests on. -/
def queueFlds : List Fld :=
  [Fld.mgtQCfg_link, Fld.mgtQCfg_vc, Fld.tlkBridgeId_id, Fld.mgtQBaseLo_base_lo, Fld.mgtQBaseHi_base_hi, Fld.mgtDb_tail, Fld.mgtCnt_done,
    Fld.mgtCnt_failed]

/-- The management queue answers as it did. -/
structure SameQueue (s u : State) : Prop where
  mgt : u.mgt = s.mgt
  links : u.links = s.links
  f : ∀ x ∈ queueFlds, u.f x = s.f x
  judge : ∀ id a z rd wr, u.judge (gTlink s.mgtLink) id a z rd wr = s.judge (gTlink s.mgtLink) id a z rd wr

theorem sameQueue_of_regs {s u : State} (hmgt : u.mgt = s.mgt) (hlinks : u.links = s.links) (hregs : u.regs = s.regs) (hm : u.mode = s.mode)
    (hp : u.pwr = s.pwr) : s.SameQueue u := ⟨hmgt, hlinks, fun x _ => f_congr hregs x 0, judge_congr hregs hm hp _⟩

section
variable {s u t : State} (h : s.SameQueue u)
include h

theorem SameQueue.link : u.mgtLink = s.mgtLink := h.f _ (by decide)
theorem SameQueue.vc : u.mgtVc = s.mgtVc := h.f _ (by decide)
theorem SameQueue.bridgeId : u.bridgeId = s.bridgeId := congrArg (BitVec.ofNat 20) (h.f Fld.tlkBridgeId_id (by decide))
theorem SameQueue.ident : u.mgtIdent = s.mgtIdent := congrArg (fun x : BitVec 20 => 2 ^ 20 + x.toNat) h.bridgeId
theorem SameQueue.route (l : Nat) : u.route l = s.route l := by rw [State.route, link_congr h.links, State.route]

theorem SameQueue.slot (n : Nat) : u.mgtSlot n = s.mgtSlot n := by
  rw [mgtSlot, mgtSlot, ringBase, ringBase, h.f Fld.mgtQBaseLo_base_lo (by decide), h.f Fld.mgtQBaseHi_base_hi (by decide)]

theorem SameQueue.ok {n : Nat} (hok : s.judge (gTlink s.mgtLink) s.mgtIdent (s.mgtSlot n + 56) (s.mgtSlot n + 63) false true = .ok) :
    u.judge (gTlink u.mgtLink) u.mgtIdent (u.mgtSlot n + 56) (u.mgtSlot n + 63) false true = .ok := by
  rw [h.link, h.ident, h.slot]
  exact (h.judge ..).trans hok

theorem SameQueue.sent {n : Nat} {bs : List Byte} {res : Nat} (hr : u.Results t n bs res) :
    .packet (s.route s.mgtLink) (.mwr (spanHdr s.mgtVc false s.bridgeId 0 (s.mgtSlot n + 56) 8) bs) ∈ t.outp := by
  have hsent := hr.sent
  rw [h.link, h.route, h.vc, h.bridgeId, h.slot] at hsent
  exact hsent

/-- A command that ends with a result, on a queue that is empty then. -/
theorem SameQueue.ends {opc i : Nat} {b : List Byte} (hr : s.mgtReady opc i b) (res detail : Nat) :
    ∃ t, u.mgtEnd res detail = t ∧ s.mgtTold t res detail ∧ u.onlyFields t [(Fld.mgtCnt_done, 0), (Fld.mgtCnt_failed, 0)]
      ∧ t = { u with regs := t.regs, mgt := t.mgt, links := t.links, outp := t.outp } := by
  obtain ⟨-, -, -, hheld, hhead, hok⟩ := hr
  obtain ⟨v, hv, hres⟩ := mgtResult_results (s := u) (slot := s.mgt.slot) (by rw [h.mgt]; exact hheld) (h.ok hok) s.mgt.slotPhase res detail 0 false
  have hvm : v.mgt = s.mgt := by rw [hres.eq]; exact h.mgt
  have hidle := mgtNext_idle (s := v) (by rw [hvm, hres.tail, h.f Fld.mgtDb_tail (by decide)]; exact hhead)
  have hrun : u.mgtEnd res detail = v.mgtNext := by
    unfold mgtEnd
    rw [h.mgt, hv]
  obtain ⟨t, ht, htr, htm, hto, hteq⟩ : ∃ t, v.mgtNext = t ∧ t.regs = v.regs ∧ t.mgt = { s.mgt with cmd := none, list := [], listOut := false, listErr := 0 }
      ∧ t.outp = v.outp ∧ t = { v with mgt := t.mgt } := ⟨_, hidle, rfl, by rw [← hvm], rfl, rfl⟩
  have hcnt : t.f (resultCnt res) = sat (resultCnt res) (s.f (resultCnt res) + 1) := by
    have hmem : resultCnt res ∈ queueFlds := by
      unfold resultCnt
      split <;> decide
    rw [f_congr htr, hres.count, h.f _ hmem]
  refine ⟨t, hrun.trans ht, ⟨by rw [hto]; exact h.sent hres, htm, fun h1 => ?_, fun h1 h2 => ?_⟩, hres.only.congr htr, ?_⟩
  · rwa [show resultCnt res = Fld.mgtCnt_done from if_pos (by omega)] at hcnt
  · rwa [show resultCnt res = Fld.mgtCnt_failed from if_neg (by omega)] at hcnt
  · have hkeep {x y : State} (h : x = y) := congrArg (fun z : State => { z with regs := t.regs, mgt := t.mgt, links := t.links, outp := t.outp }) h
    have h1 := hkeep hteq
    have h2 := hkeep hres.eq
    exact h1.trans h2

end

/-! ### RESIZE -/

/-- The `Inst` with each change that is asked for. -/
def changeAll (gs : List (Bool × (Inst → Inst))) (n : Inst) : Inst := gs.foldl (fun n x => if x.1 then x.2 n else n) n

theorem changeAll_keeps {α : Type} {π : Inst → α} {gs : List (Bool × (Inst → Inst))} (h : ∀ x ∈ gs, ∀ n, π (x.2 n) = π n) (n : Inst) :
    π (changeAll gs n) = π n := by
  induction gs generalizing n with
  | nil => rfl
  | cons x gs ih =>
    have hrest := ih (fun y hy => h y (List.mem_cons_of_mem x hy)) (if x.1 then x.2 n else n)
    refine hrest.trans ?_
    split
    · exact h x List.mem_cons_self n
    · rfl

theorem changeAll_same {α : Type} {π : Inst → α} {as cs : List (Bool × (Inst → Inst))} {b : Bool} {g : Inst → Inst} {v : α}
    (has : ∀ x ∈ as, ∀ n, π (x.2 n) = π n) (hg : ∀ n, π (g n) = v) (hcs : ∀ x ∈ cs, ∀ n, π (x.2 n) = π n) (n : Inst) :
    π (changeAll (as ++ (b, g) :: cs) n) = if b then v else π n := by
  have hrun : changeAll (as ++ (b, g) :: cs) n = changeAll cs (if b then g (changeAll as n) else changeAll as n) := by
    unfold changeAll
    rw [List.foldl_append, List.foldl_cons]
  rw [hrun, changeAll_keeps hcs]
  cases b
  · exact changeAll_keeps has n
  · exact hg _

/-- The changes of RESIZE (R258). -/
def resizeChanges (mask : Nat) (q : Quota) : List (Bool × (Inst → Inst)) :=
  [(bit 0 mask, fun n => { n with jquota := q.jq }), (bit 1 mask, fun n => { n with lquota := q.lq }),
    (bit 2 mask, fun n => { n with weight := q.weight }), (bit 3 mask, fun n => { n with winallow := q.win }),
    (bit 4 mask, fun n => { n with dnallow := q.dn }), (bit 5 mask, fun n => { n with keyallow := q.key }),
    (bit 6 mask, fun n => { n with c0rate := q.rate, c0depth := keptDepth q, c0tokens := min n.c0tokens (65536 * keptDepth q) })]

/-- What RESIZE makes of the fields that its mask names. -/
structure Resizes (mask : Nat) (q : Quota) (n m : Inst) : Prop where
  jquota : m.jquota = if bit 0 mask then q.jq else n.jquota
  lquota : m.lquota = if bit 1 mask then q.lq else n.lquota
  weight : m.weight = if bit 2 mask then q.weight else n.weight
  winallow : m.winallow = if bit 3 mask then q.win else n.winallow
  dnallow : m.dnallow = if bit 4 mask then q.dn else n.dnallow
  keyallow : m.keyallow = if bit 5 mask then q.key else n.keyallow
  c0rate : m.c0rate = if bit 6 mask then q.rate else n.c0rate
  owned : m.owned = n.owned
  st : m.st = n.st

theorem changeAll_resizes (mask : Nat) (q : Quota) (n : Inst) : Resizes mask q n (changeAll (resizeChanges mask q) n) where
  jquota := changeAll_same (π := Inst.jquota) (as := []) (by simp) (fun _ => rfl) (by simp) n
  lquota := changeAll_same (π := Inst.lquota) (as := [_]) (by simp) (fun _ => rfl) (by simp) n
  weight := changeAll_same (π := Inst.weight) (as := [_, _]) (by simp) (fun _ => rfl) (by simp) n
  winallow := changeAll_same (π := Inst.winallow) (as := [_, _, _]) (by simp) (fun _ => rfl) (by simp) n
  dnallow := changeAll_same (π := Inst.dnallow) (as := [_, _, _, _]) (by simp) (fun _ => rfl) (by simp) n
  keyallow := changeAll_same (π := Inst.keyallow) (as := [_, _, _, _, _]) (by simp) (fun _ => rfl) (by simp) n
  c0rate := changeAll_same (π := Inst.c0rate) (as := [_, _, _, _, _, _]) (by simp) (fun _ => rfl) (by simp) n
  owned := changeAll_keeps (π := Inst.owned) (by simp [resizeChanges]) n
  st := changeAll_keeps (π := Inst.st) (by simp [resizeChanges]) n

/-- One whose events are off hears of nothing. -/
theorem instEvent_off {s : State} {i : Nat} (h : s.evOn i 7 = false) (cause kind first count : Nat) : s.instEvent i cause kind first count = s := by
  unfold instEvent
  rw [h]
  rfl

/-- The low bits of a mask are its bits. -/
theorem bit_mask {k n : Nat} (h : k < 7) : bit k (n % 128) = bit k n := by
  have hsplit : 128 = 2 ^ k * 2 ^ (7 - k) := by rw [← pow_add, Nat.add_sub_cancel' (Nat.le_of_lt h)]; norm_num
  have heven : 2 ∣ 2 ^ (7 - k) := dvd_pow_self 2 (by omega)
  have hdigit : n % 128 / 2 ^ k % 2 = n / 2 ^ k % 2 := by rw [hsplit, Nat.mod_mul_right_div_self, Nat.mod_mod_of_dvd _ heven]
  simp only [bit, hdigit]

theorem resizeCommit_resizes {s : State} {i : Nat} (b : List Byte) (hev : s.evOn i 7 = false) :
    ∃ u, s.resizeCommit i b = u ∧ Resizes (fieldAt 4 4 b % 128) (quotaOf (b.drop 8)) (s.inst i) (u.inst i) ∧ s.sameInstsBut u i
      ∧ u = { s with insts := u.insts } := by
  obtain ⟨u, hu, hui, hune, huev, hueq⟩ : ∃ u, s.modInst i (changeAll (resizeChanges (fieldAt 4 4 b % 128) (quotaOf (b.drop 8)))) = u
      ∧ u.inst i = changeAll (resizeChanges (fieldAt 4 4 b % 128) (quotaOf (b.drop 8))) (s.inst i) ∧ s.sameInstsBut u i ∧ u.evOn i 7 = false
      ∧ u = { s with insts := u.insts } := ⟨_, rfl, s.inst_modInst_same i _, fun j hj => s.inst_modInst_ne hj _, hev, rfl⟩
  have hrun : s.resizeCommit i b = u.instEvent i 1 0 (fieldAt 4 4 b % 128) 0 := by
    rw [← hu]
    rfl
  refine ⟨u, hrun.trans (instEvent_off huev ..), ?_, hune, hueq⟩
  rw [hui]
  exact changeAll_resizes ..

theorem bad_orElse {a : Bad} {f : Unit → Bad} (h : (a.orElse f) = none) : a = none ∧ f () = none := by
  cases a with
  | none => exact ⟨rfl, h⟩
  | some x => exact absurd h (by simp [Option.orElse])

theorem resizeCheck_active {s : State} {i : Nat} {b : List Byte} (h : s.resizeCheck i b = none) : (s.inst i).st = .active := by
  obtain ⟨-, hrest⟩ := bad_orElse h
  obtain ⟨hstate, -⟩ := bad_orElse hrest
  by_contra hne
  have hb : ((s.inst i).st == .active) = false := beq_eq_false_iff_ne.mpr hne
  rw [needState, hb] at hstate
  exact absurd hstate (by simp)

theorem resize_resizes {s : State} {i : Nat} {b : List Byte} (hr : s.mgtReady 2 i b) (hok : s.resizeCheck i b = none) (hev : s.evOn i 7 = false) :
    ∃ t, exec .resize s = .next t ∧ s.mgtTold t 1 0 ∧ s.sameInstsBut t i
      ∧ Resizes (fieldAt 4 4 b % 128) (quotaOf (b.drop 8)) (s.inst i) (t.inst i)
      ∧ t = { s.start with insts := t.insts, regs := t.regs, mgt := t.mgt, links := t.links, outp := t.outp } := by
  obtain ⟨hgo, hcmd, -⟩ := mgt_goes hr
  obtain ⟨u, hu, hres, hothers, hueq⟩ := resizeCommit_resizes (s := s.start) (i := i) b hev
  have hq : s.SameQueue u := by
    rw [hueq]
    exact sameQueue_of_regs rfl rfl rfl rfl rfl
  obtain ⟨t, ht, htold, -, hteq⟩ := hq.ends hr 1 0
  have hti : t.insts = u.insts := by rw [hteq]
  refine ⟨t, ?_, htold, fun j hj => (inst_congr hti j).trans (hothers j hj), by rw [inst_congr hti]; exact hres, ?_⟩
  · refine congrArg Host.Outcome.next ((if_neg hgo).trans ?_)
    rw [hcmd]
    dsimp only
    rw [show s.start.resizeCheck i b = none from hok]
    dsimp only
    rw [hu, ht]
  · have h2 := congrArg (fun z : State => { z with regs := t.regs, mgt := t.mgt, links := t.links, outp := t.outp }) hueq
    rw [hti]
    exact hteq.trans h2

theorem create_refuses {s : State} {i r d : Nat} {b : List Byte} (hr : s.mgtReady 1 i b) (hbad : s.createCheck i b = some (r, d)) :
    ∃ t, exec .create s = .next t ∧ s.mgtTold t r d ∧ s.onlyFields t [(Fld.mgtCnt_done, 0), (Fld.mgtCnt_failed, 0)]
      ∧ t = { s.start with regs := t.regs, mgt := t.mgt, links := t.links, outp := t.outp } := by
  obtain ⟨hgo, hcmd, -⟩ := mgt_goes hr
  have hq : s.SameQueue s.start := sameQueue_of_regs rfl rfl rfl rfl rfl
  obtain ⟨t, ht, htold, honly, hteq⟩ := hq.ends hr r d
  refine ⟨t, ?_, htold, honly, hteq⟩
  refine congrArg Host.Outcome.next ((if_neg hgo).trans ?_)
  rw [hcmd]
  dsimp only
  unfold createStep
  rw [show s.start.createCheck i b = some (r, d) from hbad]
  exact ht

/-! ### ASSIGN and RELEASE -/

theorem get_foldl_mod {α : Type} [DecidableEq α] (d : α) (g : α → α) (a n k : Nat) (m : FMap α) :
    FMap.get d k ((List.range n).foldl (fun m j => FMap.mod d (a + j) g m) m) = if a ≤ k ∧ k < a + n then g (FMap.get d k m) else FMap.get d k m := by
  induction n with
  | zero => rw [List.range_zero, List.foldl_nil, if_neg (by omega)]
  | succ n ih =>
    rw [List.range_succ, List.foldl_append, List.foldl_cons, List.foldl_nil]
    by_cases hk : k = a + n
    · rw [hk] at ih ⊢
      rw [FMap.get_mod_same, ih, if_neg (by omega), if_pos (by omega)]
    · rw [FMap.get_mod_ne hk, ih]
      exact if_congr (by omega) rfl rfl

/-- An entry of a range that is given to one of the instances names it. -/
theorem get_ownRange {w k : Nat} (len off i : Nat) {r : Range} (h : r.first ≤ k ∧ k < r.first + r.count) (m : FMap (BitVec w)) :
    FMap.get 0 k (ownRange len off (some i) r m) = ownEntry len off (some i) (FMap.get 0 k m) :=
  (get_foldl_mod 0 (ownEntry len off (some i)) r.first r.count k m).trans (if_pos h)

theorem writeRange_eq (s : State) (r : Range) (o : Option Nat) :
    s.writeRange r o = { s with
      tbl := (s.writeRange r o).tbl, dns := (s.writeRange r o).dns, ports := (s.writeRange r o).ports, cmp := (s.writeRange r o).cmp } := by
  unfold writeRange
  split
  · rfl
  · split <;> rfl

theorem writeRange_clears (s : State) {r : Range} (hk : r.kind = 2) (o : Option Nat) {k : Nat} (h : r.first ≤ k ∧ k < r.first + r.count) :
    (s.writeRange r o).slot k = {} := by
  have hrun : s.writeRange r o = { s with cmp := { s.cmp with slots := s.cmp.slots.filter fun p => !(r.first ≤ p.1 && p.1 < r.first + r.count) } } := by
    unfold writeRange
    rw [if_neg (show ¬ r.kind = 0 by omega), if_neg (show ¬ r.kind = 1 by omega)]
  rw [hrun]
  have hnone := find_filter_dropped (keep := fun p : Nat × KeySlot => !(decide (r.first ≤ p.1) && decide (p.1 < r.first + r.count)))
    (fun v => show (!(decide (r.first ≤ k) && decide (k < r.first + r.count))) = false by rw [decide_eq_true h.1, decide_eq_true h.2]; rfl)
    s.cmp.slots
  exact congrArg (fun o : Option KeySlot => o.getD {}) hnone

/-- What a range that changes hands leaves of the state. -/
structure Hands (s t : State) (i : Nat) (r : Range) (o : Option Nat) (owned : List Range) : Prop where
  inst : t.inst i = { s.inst i with owned := owned }
  others : s.sameInstsBut t i
  tbl : t.tbl = (s.writeRange r o).tbl
  cmp : t.cmp = (s.writeRange r o).cmp
  eq : t = { s with insts := t.insts, tbl := t.tbl, dns := t.dns, ports := t.ports, cmp := t.cmp }

theorem modInst_hands {s : State} {i : Nat} {r : Range} {o : Option Nat} {owned : List Range} {g : Inst → Inst}
    (hg : g (s.inst i) = { s.inst i with owned := owned }) : s.Hands ((s.writeRange r o).modInst i g) i r o owned := by
  have heq := s.writeRange_eq r o
  have hi : (s.writeRange r o).insts = s.insts := by rw [heq]
  have hsame := (s.writeRange r o).inst_modInst_same i g
  rw [inst_congr hi, hg] at hsame
  refine ⟨hsame, fun j hj => ((s.writeRange r o).inst_modInst_ne hj g).trans (inst_congr hi j), rfl, rfl, ?_⟩
  have h1 := congrArg (fun z : State => { z with insts := ((s.writeRange r o).modInst i g).insts }) heq
  exact h1

theorem giveRange_hands (s : State) (i : Nat) (r : Range) : s.Hands (s.giveRange i r) i r (some i) ((s.inst i).owned ++ [r]) := modInst_hands rfl

theorem takeRange_hands (s : State) (i : Nat) (r : Range) :
    s.Hands (s.takeRange i r) i r none ((s.inst i).owned.flatMap fun o => o.minus r) := modInst_hands rfl

/-- A command that hands a range over ends with OK. -/
theorem Hands.ends {s u : State} {opc i : Nat} {b : List Byte} {r : Range} {o : Option Nat} {owned : List Range} (h : s.start.Hands u i r o owned)
    (hr : s.mgtReady opc i b) :
    ∃ t, u.mgtEnd 1 0 = t ∧ s.mgtTold t 1 0 ∧ s.sameInstsBut t i ∧ t.inst i = { s.inst i with owned := owned }
      ∧ t.tbl = (s.start.writeRange r o).tbl ∧ t.cmp = (s.start.writeRange r o).cmp
      ∧ t = { s.start with
          insts := t.insts, regs := t.regs, mgt := t.mgt, links := t.links, outp := t.outp, tbl := t.tbl, dns := t.dns, ports := t.ports
          cmp := t.cmp } := by
  have hq : s.SameQueue u := by
    rw [h.eq]
    exact sameQueue_of_regs rfl rfl rfl rfl rfl
  obtain ⟨t, ht, htold, -, hteq⟩ := hq.ends hr 1 0
  have hti : t.insts = u.insts := by rw [hteq]
  have htt : t.tbl = u.tbl := by rw [hteq]
  have htc : t.cmp = u.cmp := by rw [hteq]
  have hother : t.dns = u.dns ∧ t.ports = u.ports := by rw [hteq]; exact ⟨rfl, rfl⟩
  refine ⟨t, ht, htold, fun j hj => (inst_congr hti j).trans (h.others j hj), (inst_congr hti i).trans h.inst, htt.trans h.tbl, htc.trans h.cmp, ?_⟩
  have h2 := congrArg (fun z : State => { z with regs := t.regs, mgt := t.mgt, links := t.links, outp := t.outp }) h.eq
  rw [hti, htt, htc, hother.1, hother.2]
  exact hteq.trans h2

theorem slot_congr {s t : State} (h : t.cmp = s.cmp) (k : Nat) : t.slot k = s.slot k := by rw [slot, h, slot]

theorem assign_gives {s : State} {i : Nat} {b : List Byte} {r : Range} (hr : s.mgtReady 5 i b) (hok : s.assignCheck i b = none)
    (hrange : r = rangeOf (slice 8 8 b)) (hev : s.evOn i 7 = false) :
    ∃ t, exec .assign s = .next t ∧ s.mgtTold t 1 0 ∧ s.sameInstsBut t i ∧ t.inst i = { s.inst i with owned := (s.inst i).owned ++ [r] }
      ∧ (r.kind = 0 → ∀ k, r.first ≤ k → k < r.first + r.count →
          FMap.get 0 k t.tbl.dvt = State.ownEntry 16 4 (some i) (FMap.get 0 k s.tbl.dvt : BitVec 128))
      ∧ (r.kind = 1 → ∀ k, r.first ≤ k → k < r.first + r.count →
          FMap.get 0 k t.tbl.wtt = State.ownEntry 32 2 (some i) (FMap.get 0 k s.tbl.wtt : BitVec 256))
      ∧ (r.kind = 2 → ∀ k, r.first ≤ k → k < r.first + r.count → t.slot k = {})
      ∧ t = { s.start with
          insts := t.insts, regs := t.regs, mgt := t.mgt, links := t.links, outp := t.outp, tbl := t.tbl, dns := t.dns, ports := t.ports
          cmp := t.cmp } := by
  obtain ⟨hgo, hcmd, -⟩ := mgt_goes hr
  have hands := s.start.giveRange_hands i r
  have hevent : (s.start.giveRange i r).instEvent i 2 r.kind r.first r.count = s.start.giveRange i r := by
    refine instEvent_off ?_ ..
    have hregs : (s.start.giveRange i r).regs = s.regs := by rw [hands.eq]; rfl
    rw [evOn, fb, f_congr hregs]
    exact hev
  obtain ⟨t, ht, htold, hothers, hinst, htbl, hcmp, heq⟩ := hands.ends hr
  refine ⟨t, ?_, htold, hothers, hinst, fun h0 k h1 h2 => ?_, fun h0 k h1 h2 => ?_, fun h0 k h1 h2 => ?_, heq⟩
  · refine congrArg Host.Outcome.next ((if_neg hgo).trans ?_)
    rw [hcmd]
    dsimp only
    rw [show s.start.assignCheck i b = none from hok]
    dsimp only
    rw [← hrange, hevent, ht]
  · have hdvt : t.tbl.dvt = ownRange 16 4 (some i) r s.tbl.dvt := by
      rw [htbl, writeRange, if_pos h0]
      rfl
    rw [hdvt]
    exact get_ownRange 16 4 i ⟨h1, h2⟩ s.tbl.dvt
  · have hwtt : t.tbl.wtt = ownRange 32 2 (some i) r s.tbl.wtt := by
      rw [htbl, writeRange, if_neg (show ¬ r.kind = 0 by omega), if_pos h0]
      rfl
    rw [hwtt]
    exact get_ownRange 32 2 i ⟨h1, h2⟩ s.tbl.wtt
  · exact (slot_congr hcmp k).trans (s.start.writeRange_clears h0 (some i) ⟨h1, h2⟩)

theorem release_takes {s : State} {i : Nat} {b : List Byte} {r : Range} (hr : s.mgtReady 6 i b) (hok : s.releaseCheck i b = none)
    (hrange : r = rangeOf (slice 8 8 b)) (hev : s.evOn i 7 = false) :
    ∃ t, exec .release s = .next t ∧ s.mgtTold t 1 0 ∧ s.sameInstsBut t i
      ∧ t.inst i = { s.inst i with owned := (s.inst i).owned.flatMap fun o => o.minus r }
      ∧ (r.kind = 2 → ∀ k, r.first ≤ k → k < r.first + r.count → t.slot k = {})
      ∧ t = { s.start with
          insts := t.insts, regs := t.regs, mgt := t.mgt, links := t.links, outp := t.outp, tbl := t.tbl, dns := t.dns, ports := t.ports
          cmp := t.cmp } := by
  obtain ⟨hgo, hcmd, -⟩ := mgt_goes hr
  have hands := s.start.takeRange_hands i r
  have hevent : (s.start.takeRange i r).instEvent i 3 r.kind r.first r.count = s.start.takeRange i r := by
    refine instEvent_off ?_ ..
    have hregs : (s.start.takeRange i r).regs = s.regs := by rw [hands.eq]; rfl
    rw [evOn, fb, f_congr hregs]
    exact hev
  obtain ⟨t, ht, htold, hothers, hinst, -, hcmp, heq⟩ := hands.ends hr
  refine ⟨t, ?_, htold, hothers, hinst, fun h0 k h1 h2 => ?_, heq⟩
  · refine congrArg Host.Outcome.next ((if_neg hgo).trans ?_)
    rw [hcmd]
    dsimp only
    rw [show s.start.releaseCheck i b = none from hok]
    dsimp only
    rw [← hrange, hevent, ht]
  · exact (slot_congr hcmp k).trans (s.start.writeRange_clears h0 none ⟨h1, h2⟩)

/-! ### A page is cleared -/

/-- The pages of the instances lie behind every other block. -/
theorem clearPage_find (s : State) (i : Nat) {k : Nat} (h : k < 0x1000000) :
    FMap.find k (s.clearPage i).regs = FMap.find k s.regs := by
  refine find_filter_kept (fun v => ?_) s.regs
  have hbase : Block.bi.base = 0x1000000 := rfl
  have hlow : decide (Block.bi.base + i * 0x10000 ≤ k) = false := decide_eq_false (by omega)
  show (!(decide (Block.bi.base + i * 0x10000 ≤ k) && decide (k < Block.bi.base + i * 0x10000 + 0x10000))) = true
  rw [hlow]
  rfl

theorem clearPage_f (s : State) (i : Nat) {x : Fld} {k : Nat} (h : regOff x.id k < 0x1000000) : (s.clearPage i).f x k = s.f x k := by
  have hreg : (s.clearPage i).reg x.id k = s.reg x.id k := congrArg (fun o : Option Word => o.getD x.id.row.reset) (s.clearPage_find i h)
  rw [f, hreg, f]

theorem clearPage_empties (s : State) {i k : Nat} (h1 : Block.bi.base + i * 0x10000 ≤ k) (h2 : k < Block.bi.base + (i + 1) * 0x10000) :
    FMap.find k (s.clearPage i).regs = none ∧ FMap.find k (s.clearPage i).shadow = none := by
  have hpage (v : Word) : (!(decide (Block.bi.base + i * 0x10000 ≤ k) && decide (k < Block.bi.base + i * 0x10000 + 0x10000))) = false := by
    rw [decide_eq_true h1, decide_eq_true (show k < Block.bi.base + i * 0x10000 + 0x10000 by omega)]
    rfl
  exact ⟨find_filter_dropped (keep := fun p : Nat × Word => !(decide (Block.bi.base + i * 0x10000 ≤ p.1)
      && decide (p.1 < Block.bi.base + i * 0x10000 + 0x10000))) hpage s.regs,
    find_filter_dropped (keep := fun p : Nat × Word => !(decide (Block.bi.base + i * 0x10000 ≤ p.1)
      && decide (p.1 < Block.bi.base + i * 0x10000 + 0x10000))) hpage s.shadow⟩

/-- The registers of the regions. -/
def regionRegs : List RegId := [.gateRgnCtl, .gateRgnBaseLo, .gateRgnBaseHi, .gateRgnLimitLo, .gateRgnLimitHi, .gateRgnIdVal, .gateRgnIdMask]

theorem regionRegs_at : ∀ id ∈ regionRegs, id.row.block = .gate ∧ id.row.off < 32 ∧ id.row.n2 = 64 ∧ id.row.s1 = 0x800 ∧ id.row.s2 = 32 := by decide

theorem regOff_region {id : RegId} (h : id ∈ regionRegs) {g r : Nat} (hg : g < 160) (hr : r < 64) : regOff id (g * 64 + r) < 0x1000000 := by
  obtain ⟨hb, hoff, hn2, hs1, hs2⟩ := regionRegs_at id h
  have hoffset : regOff id (g * 64 + r) = Block.gate.base + id.row.off + (g * 64 + r) / 64 * 0x800 + (g * 64 + r) % 64 * 32 := by
    unfold regOff
    dsimp only
    rw [hb, hn2, hs1, hs2]
  have hbase : Block.gate.base = 0x800000 := rfl
  omega

theorem regionOf_congr {w w' : RegId → Nat → Word} {g r : Nat} (h : ∀ id ∈ regionRegs, w id (g * 64 + r) = w' id (g * 64 + r)) :
    regionOf w g r = regionOf w' g r := by
  unfold regionOf
  dsimp only
  rw [h .gateRgnCtl (by decide), h .gateRgnBaseLo (by decide), h .gateRgnBaseHi (by decide), h .gateRgnLimitLo (by decide),
    h .gateRgnLimitHi (by decide), h .gateRgnIdVal (by decide), h .gateRgnIdMask (by decide)]

/-- The regions of a gate do not rest on the pages of the instances. -/
theorem clearPage_enabled (s : State) (i : Nat) {g : Nat} (hg : g < 160) : enabledRegions (s.clearPage i).regs g = enabledRegions s.regs g := by
  have hbi : Block.bi.base = 0x1000000 := rfl
  have hgate : Block.gate.base = 0x800000 := rfl
  have hkept : (s.clearPage i).regs = s.regs.filter fun p => !(decide (Block.bi.base + i * 0x10000 ≤ p.1)
      && decide (p.1 < Block.bi.base + i * 0x10000 + 0x10000)) := rfl
  unfold enabledRegions
  dsimp only
  conv_lhs => rw [hkept, List.filterMap_filter]
  refine List.filterMap_congr fun p hp => ?_
  by_cases hin : Block.gate.base + g * 0x800 ≤ p.1 ∧ p.1 < Block.gate.base + g * 0x800 + 0x800 ∧ p.1 % 32 = 0 ∧ bit 31 p.2.toNat = true
  · have hlow : decide (Block.bi.base + i * 0x10000 ≤ p.1) = false := decide_eq_false (by omega)
    rw [hlow, if_pos (by rfl), if_pos hin, if_pos hin]
    refine congrArg some (regionOf_congr fun id hid => ?_)
    have hoff := regOff_region hid hg (r := (p.1 - (Block.gate.base + g * 0x800)) / 32) (by omega)
    exact congrArg (fun o : Option Word => o.getD id.row.reset) (s.clearPage_find i hoff)
  · rw [if_neg hin, if_neg hin, ite_self]

theorem clearPage_judge (s : State) (i : Nat) {g : Nat} (hg : g < 160) (id a z : Nat) (rd wr : Bool) :
    (s.clearPage i).judge g id a z rd wr = s.judge g id a z rd wr := by
  have hregions : (s.clearPage i).regions g = s.regions g := by
    unfold regions
    rw [clearPage_enabled s i hg]
    rfl
  have hmap : (s.clearPage i).f Fld.gateDefmap_map (g / 16) = s.f Fld.gateDefmap_map (g / 16) := by
    refine s.clearPage_f i ?_
    have hall : ∀ k < 10, regOff .gateDefmap k < 0x1000000 := by decide
    exact hall _ (by omega)
  have hunlock : (s.clearPage i).f Fld.gateDbgUnlock_unlock = s.f Fld.gateDbgUnlock_unlock := s.clearPage_f i (by decide)
  have hpart (p : Nat) : (s.clearPage i).judgePart g id p rd wr = s.judgePart g id p rd wr := by
    unfold judgePart defmapGrants fb
    rw [hregions, hmap, hunlock]
    rfl
  have hparts (k : Nat) : ∀ x, (s.clearPage i).judgeParts g id rd wr z k x = s.judgeParts g id rd wr z k x := by
    induction k with
    | zero => exact fun _ => rfl
    | succ k ih => exact fun x => by simp only [judgeParts, hpart, hregions, ih]
  simp only [judge, hregions, hparts]

theorem gTlink_lt (s : State) : gTlink s.mgtLink < 160 := by
  have h : s.mgtLink < 2 := s.f_lt Fld.mgtQCfg_link 0
  have hg : gTlink s.mgtLink = 144 + s.mgtLink := rfl
  omega

/-- The queue answers as before a page was cleared. -/
theorem sameQueue_clearPage {s u : State} (i : Nat) (hmgt : u.mgt = s.mgt) (hlinks : u.links = s.links) (hregs : u.regs = (s.clearPage i).regs)
    (hm : u.mode = s.mode) (hp : u.pwr = s.pwr) : s.SameQueue u := by
  have hlow : ∀ x ∈ queueFlds, regOff x.id 0 < 0x1000000 := by decide
  exact ⟨hmgt, hlinks, fun x hx => (f_congr hregs x 0).trans (s.clearPage_f i (hlow x hx)),
    fun id a z rd wr => (judge_congr (s := s.clearPage i) hregs hm hp ..).trans (s.clearPage_judge i s.gTlink_lt id a z rd wr)⟩

/-! ### CREATE -/

theorem listExceeds_nil (q : Quota) : listExceeds q [] = none := by
  have hnone : ([1, 0, 2].find? fun k => decide (quotaAt q (kindPool k) < ((([] : List Range).filter fun r => r.kind == k).map (·.count)).sum)) = none := by
    simp
  rw [listExceeds, hnone]
  rfl

theorem create_creates {s : State} {i : Nat} {b : List Byte} {q : Quota} (hr : s.mgtReady 1 i b) (hok : s.createCheck i b = none)
    (hlist : listBytes b = 0) (hempty : s.mgt.list = []) (hout : s.mgt.listOut = false) (herr : s.mgt.listErr = 0)
    (hquota : s.createQuota b = some q) (hpool : s.poolLacks (fun _ => 0) q 127 = none) :
    ∃ t, exec .create s = .next t
      ∧ t.inst i = { st := .active, reqId := BitVec.ofNat 20 (fieldAt 4 4 b), jquota := q.jq, lquota := q.lq, weight := q.weight
                     winallow := q.win, dnallow := q.dn, keyallow := q.key, c0rate := q.rate, c0depth := State.keptDepth q
                     c0tokens := 65536 * State.keptDepth q }
      ∧ s.sameInstsBut t i ∧ s.mgtTold t 1 0 ∧ (∀ k, Block.bi.base + i * 0x10000 ≤ k → k < Block.bi.base + (i + 1) * 0x10000 →
          FMap.find k t.regs = none ∧ FMap.find k t.shadow = none)
      ∧ t = { s.start with
          insts := t.insts, regs := t.regs, shadow := t.shadow, hiShadow := t.hiShadow, qps := t.qps, pels := t.pels, mgt := t.mgt, links := t.links
          outp := t.outp } := by
  obtain ⟨hgo, hcmd, -⟩ := mgt_goes hr
  obtain ⟨u, hu, hui, hune, hur, hus, hmgt, hlinks, hmode, hpwr, hueq⟩ : ∃ u, s.start.createCommit i b q [] = u
      ∧ u.inst i = { st := .active, reqId := BitVec.ofNat 20 (fieldAt 4 4 b), jquota := q.jq, lquota := q.lq, weight := q.weight
                     winallow := q.win, dnallow := q.dn, keyallow := q.key, c0rate := q.rate, c0depth := State.keptDepth q
                     c0tokens := 65536 * State.keptDepth q }
      ∧ s.sameInstsBut u i ∧ u.regs = (s.start.clearPage i).regs ∧ u.shadow = (s.start.clearPage i).shadow ∧ u.mgt = s.mgt ∧ u.links = s.links
      ∧ u.mode = s.mode ∧ u.pwr = s.pwr
      ∧ u = { s.start with insts := u.insts, regs := u.regs, shadow := u.shadow, hiShadow := u.hiShadow, qps := u.qps, pels := u.pels } :=
    ⟨_, rfl, (s.start.clearPage i).inst_modInst_same i _, fun j hj => (s.start.clearPage i).inst_modInst_ne hj _, rfl, rfl, rfl, rfl, rfl, rfl, rfl⟩
  have hq : s.SameQueue u := sameQueue_clearPage (s := s) i hmgt hlinks hur hmode hpwr
  obtain ⟨t, ht, htold, honly, hteq⟩ := hq.ends hr 1 0
  have hti : t.insts = u.insts := by rw [hteq]
  have hts : t.shadow = u.shadow := by rw [hteq]
  have hother : t.hiShadow = u.hiShadow ∧ t.qps = u.qps ∧ t.pels = u.pels := by rw [hteq]; exact ⟨rfl, rfl, rfl⟩
  have hend : s.start.createStep i b = t := by
    have hout' : ¬ s.start.mgt.listOut = true := by rw [show s.start.mgt.listOut = false from hout]; decide
    have herr' : ¬ s.start.mgt.listErr ≠ 0 := not_not.mpr herr
    have hlen : ¬ s.start.mgt.list.length < listBytes b := by omega
    have hcommit : s.start.createEnd i b = u.mgtEnd 1 0 := by
      unfold createEnd
      rw [show s.start.createQuota b = some q from hquota]
      dsimp only
      rw [show s.start.mgt.list = [] from hempty, show s.start.poolLacks (fun _ => 0) q 127 = none from hpool]
      have hraw : listRanges [] = [] := rfl
      rw [hraw, List.map_nil, listExceeds_nil, ← hu]
      rfl
    unfold createStep
    rw [show s.start.createCheck i b = none from hok]
    exact (if_neg hout').trans ((if_neg herr').trans ((if_neg hlen).trans (hcommit.trans ht)))
  refine ⟨t, ?_, (inst_congr hti i).trans hui, fun j hj => (inst_congr hti j).trans (hune j hj), htold, fun k h1 h2 => ?_, ?_⟩
  · refine congrArg Host.Outcome.next ((if_neg hgo).trans ?_)
    rw [hcmd]
    exact hend
  · have hne : ∀ p ∈ [(Fld.mgtCnt_done, 0), (Fld.mgtCnt_failed, 0)], regOff p.1.id p.2 ≠ k := by
      have hlow : ∀ p ∈ [(Fld.mgtCnt_done, 0), (Fld.mgtCnt_failed, 0)], regOff p.1.id p.2 < Block.bi.base := by decide
      exact fun p hp heq => absurd (hlow p hp) (by omega)
    obtain ⟨hnone, hshadow⟩ := s.start.clearPage_empties h1 h2
    exact ⟨by rw [honly.1 k hne, hur, hnone], by rw [hts, hus, hshadow]⟩
  · have h2 := congrArg (fun z : State => { z with regs := t.regs, mgt := t.mgt, links := t.links, outp := t.outp }) hueq
    rw [hti, hts, hother.1, hother.2.1, hother.2.2]
    exact hteq.trans h2

/-! ### The end of a reset -/

/-- One of the instances without work, as a finished reset asks. -/
def quiet (s : State) (i : Nat) : Prop :=
  (∀ p ∈ s.jnl.entries, p.2.inst ≠ i) ∧ s.locksOf i = [] ∧ s.mbox i = none ∧ ∀ c ∈ s.ctxs, c.2.inst ≠ i

theorem freeSquashed_idle {s : State} {i : Nat} (h : ∀ p ∈ s.jnl.entries, p.2.inst ≠ i) : s.freeSquashed i = s := by
  have hnone : (s.jnl.entries.filter fun p => p.2.inst == i && squashOver p.2) = [] := by
    refine List.filter_eq_nil_iff.mpr fun p hp => ?_
    rw [beq_eq_false_iff_ne.mpr (h p hp)]
    exact Bool.false_ne_true
  rw [freeSquashed, hnone]
  rfl

theorem resetOver_of_quiet {s : State} {i : Nat} (h : s.quiet i) : s.resetOver i = true := by
  obtain ⟨hentries, hlocks, hmbox, hctxs⟩ := h
  have hnoEntry : (s.jnl.entries.any fun p => p.2.inst == i) = false :=
    List.any_eq_false.mpr fun p hp => by rw [beq_eq_false_iff_ne.mpr (hentries p hp)]; exact Bool.false_ne_true
  have hnoCtx : (s.ctxs.any fun c => c.2.inst == i) = false :=
    List.any_eq_false.mpr fun c hc => by rw [beq_eq_false_iff_ne.mpr (hctxs c hc)]; exact Bool.false_ne_true
  rw [resetOver, hnoEntry, hnoCtx, hlocks, hmbox]
  rfl

/-- What the release of one of the instances and of what it owned leaves of the state. -/
structure Releases (s t : State) (i : Nat) : Prop where
  others : s.sameInstsBut t i
  eq : t = { s with insts := t.insts, tbl := t.tbl, dns := t.dns, ports := t.ports, cmp := t.cmp }

theorem takeRanges_releases (i : Nat) (rs : List Range) (s : State) : s.Releases (rs.foldl (fun s r => s.takeRange i r) s) i := by
  induction rs generalizing s with
  | nil => exact ⟨fun _ _ => rfl, rfl⟩
  | cons r rs ih =>
    have hone := s.takeRange_hands i r
    obtain ⟨hothers, heq⟩ := ih (s.takeRange i r)
    rw [List.foldl_cons]
    generalize rs.foldl (fun s r => s.takeRange i r) (s.takeRange i r) = t at hothers heq
    refine ⟨fun j hj => (hothers j hj).trans (hone.others j hj), ?_⟩
    have h2 := congrArg (fun z : State => { z with insts := t.insts, tbl := t.tbl, dns := t.dns, ports := t.ports, cmp := t.cmp }) hone.eq
    exact heq.trans h2

theorem releaseInst_releases (s : State) (i : Nat) :
    ∃ t, s.releaseInst i = t ∧ s.Releases t i ∧ t.inst i = {} ∧ FMap.find i t.cmp.keks = none := by
  have hrel := takeRanges_releases i (s.inst i).owned s
  refine ⟨_, rfl, ?_, get_del_same .., FMap.find_del_same ..⟩
  generalize hu : (s.inst i).owned.foldl (fun s r => s.takeRange i r) s = u at hrel
  have hrun : s.releaseInst i = { u with insts := FMap.del i u.insts, cmp := { u.cmp with keks := FMap.del i u.cmp.keks } } := by
    rw [← hu]
    rfl
  rw [hrun]
  refine ⟨fun j hj => (get_del_ne hj ..).trans (hrel.others j hj), ?_⟩
  have h2 := congrArg (fun z : State => { z with insts := FMap.del i u.insts, cmp := { u.cmp with keks := FMap.del i u.cmp.keks } }) hrel.eq
  exact h2

/-- The `Inst` as its reset or its end leaves it (R265, R266). -/
def resetEnd (s : State) (i : Nat) : State :=
  if (s.inst i).destroying then ((s.clearPage i).clearAttn i).releaseInst i
  else ((s.clearPage i).clearAttn i).modInst i fun n => { n with
    st := .active, escalated := false, owed := [], squashed := 0, c0tokens := 65536 * n.c0depth }

theorem resetEnd_settles (s : State) (i : Nat) : ∃ t, s.resetEnd i = t ∧ s.sameInstsBut t i
    ∧ ((s.inst i).destroying = false → t.inst i = { s.inst i with
        st := .active, escalated := false, owed := [], squashed := 0, c0tokens := 65536 * (s.inst i).c0depth })
    ∧ ((s.inst i).destroying = true → t.inst i = {} ∧ FMap.find i t.cmp.keks = none)
    ∧ t.regs = (s.clearPage i).regs ∧ t.mgt = s.mgt ∧ t.links = s.links ∧ t.mode = s.mode ∧ t.pwr = s.pwr := by
  unfold resetEnd
  by_cases hd : (s.inst i).destroying = true
  · rw [if_pos hd]
    obtain ⟨t, ht, hrel, hinst, hkek⟩ := ((s.clearPage i).clearAttn i).releaseInst_releases i
    refine ⟨t, ht, hrel.others, fun h => absurd (hd.symm.trans h) (by decide), fun _ => ⟨hinst, hkek⟩, ?_, ?_, ?_, ?_, ?_⟩ <;> rw [hrel.eq] <;> rfl
  · rw [if_neg hd]
    exact ⟨_, rfl, fun j hj => ((s.clearPage i).clearAttn i).inst_modInst_ne hj _, fun _ => ((s.clearPage i).clearAttn i).inst_modInst_same i _,
      fun h => absurd h hd, rfl, rfl, rfl, rfl, rfl⟩

theorem clearPage_onlyBlocks (s : State) {i : Nat} (hi : i < 256) : ∀ k, blockAt k ≠ some .bi → FMap.find k (s.clearPage i).regs = FMap.find k s.regs := by
  intro k hk
  have hbase : Block.bi.base = 0x1000000 := rfl
  have hspan : Block.bi.span = 0x1000000 := by decide
  refine find_filter_kept (fun v => ?_) s.regs
  rw [Bool.not_eq_true', Bool.and_eq_false_iff, decide_eq_false_iff_not, decide_eq_false_iff_not]
  by_contra hin
  exact hk ((blockAt_iff ..).mpr (by omega))

theorem resetCompletion_completes {s : State} {i : Fin 256} {slot : Nat} {ph : Bool} (hw : s.works = true)
    (hst : (s.inst i.val).st = .drain ∨ (s.inst i.val).st = .squash) (hquiet : s.quiet i.val) (howed : (s.inst i.val).owed = [(slot, ph)])
    (hheld : s.mgt.heldRes = [])
    (hok : s.judge (gTlink s.mgtLink) s.mgtIdent (s.mgtSlot slot + 56) (s.mgtSlot slot + 63) false true = .ok) :
    ∃ t, exec (.resetCompletion i) s = .next t
      ∧ .packet (s.route s.mgtLink) (.mwr (spanHdr s.mgtVc false s.bridgeId 0 (s.mgtSlot slot + 56) 8)
          (natBytes 4 (b2n ph * 2 ^ 31 + 65536 + b2n (s.inst i.val).escalated) ++ natBytes 4 (s.inst i.val).squashed)) ∈ t.outp
      ∧ t.f Fld.mgtCnt_done = sat Fld.mgtCnt_done (s.f Fld.mgtCnt_done + 1) ∧ s.sameInstsBut t i.val
      ∧ ((s.inst i.val).destroying = false → t.inst i.val = { s.inst i.val with
          st := .active, escalated := false, owed := [], squashed := 0, c0tokens := 65536 * (s.inst i.val).c0depth })
      ∧ ((s.inst i.val).destroying = true → t.inst i.val = {} ∧ FMap.find i.val t.cmp.keks = none)
      ∧ s.onlyBlocks t [.bi, .mgt] := by
  have hgo : ¬ ((!s.start.works) = true ∨ (s.start.inst i.val).st ≠ .drain ∧ (s.start.inst i.val).st ≠ .squash) := by
    rw [show s.start.works = true from hw]
    rintro (h | ⟨h1, h2⟩)
    · exact absurd h (by decide)
    · exact hst.elim h1 h2
  have hentries : ∀ p ∈ s.start.jnl.entries, p.2.inst ≠ i.val := hquiet.1
  have hover : ¬ (!s.start.resetOver i.val) = true := by
    rw [resetOver_of_quiet (s := s.start) hquiet]
    decide
  obtain ⟨u, hu, hothers, hreset, hgone, hur, humgt, hulinks, humode, hupwr⟩ := s.start.resetEnd_settles i.val
  have hq : s.SameQueue u := sameQueue_clearPage (s := s) i.val humgt hulinks hur humode hupwr
  obtain ⟨t, ht, hres⟩ := mgtResult_results (s := u) (slot := slot) (by rw [hq.mgt]; exact hheld) (hq.ok hok) ph 1 (b2n (s.inst i.val).escalated)
    (s.inst i.val).squashed true
  have hrun : exec (.resetCompletion i) s = .next t := by
    refine congrArg Host.Outcome.next ((if_neg hgo).trans ?_)
    rw [freeSquashed_idle hentries]
    refine (if_neg hover).trans ?_
    have hpay : (s.start.resetEnd i.val).payResults (s.start.inst i.val).owed (b2n (s.inst i.val).escalated) (s.inst i.val).squashed = t := by
      rw [show (s.start.inst i.val).owed = [(slot, ph)] from howed, hu]
      exact ht
    exact hpay
  have hti : t.insts = u.insts := by rw [hres.eq]
  have htc : t.cmp = u.cmp := by rw [hres.eq]
  have hbytes : resultBytes ph 1 (b2n (s.inst i.val).escalated) (s.inst i.val).squashed
      = natBytes 4 (b2n ph * 2 ^ 31 + 65536 + b2n (s.inst i.val).escalated) ++ natBytes 4 (s.inst i.val).squashed := by
    have hesc : b2n (s.inst i.val).escalated % 65536 = b2n (s.inst i.val).escalated := by
      cases (s.inst i.val).escalated <;> rfl
    have hone : 1 * 2 ^ 16 = 65536 := by norm_num
    rw [resultBytes, hesc, hone]
  have hsent := hq.sent hres
  rw [hbytes] at hsent
  refine ⟨t, hrun, hsent, ?_, fun j hj => (inst_congr hti j).trans (hothers j hj), fun h => (inst_congr hti _).trans (hreset h),
    fun h => ⟨(inst_congr hti _).trans (hgone h).1, by rw [htc]; exact (hgone h).2⟩, fun k hk => ?_⟩
  · have hcnt := hres.count
    rw [show resultCnt 1 = Fld.mgtCnt_done from rfl, hq.f Fld.mgtCnt_done (by decide)] at hcnt
    exact hcnt
  · have hbi : blockAt k ≠ some .bi := fun h => hk .bi h (by decide)
    have hmgt : ∀ b, blockAt k = some b → b ∉ [Block.mgt] := fun b hb hmem => hk b hb (List.mem_cons_of_mem _ hmem)
    rw [hres.block k hmgt, hur]
    exact s.start.clearPage_onlyBlocks i.isLt k hbi

end State

/-- Settles O51: the commands' effects by `SameQueue.ends` on the state they leave; the resets by `squash_squashes` and `resetEnd_settles`. -/
theorem instanceCommands : Obligations.InstanceCommands := by
  unfold Obligations.InstanceCommands
  refine ⟨fun s i b => ⟨fun q => State.create_creates, fun r d => State.create_refuses, fun hr hok hev => ?_, fun r => State.assign_gives,
    fun r => State.release_takes⟩,
    fun s i b => ⟨State.reset_drains, State.reset_squashes, State.destroy_squashes⟩,
    fun s i hw => ⟨State.drainTimeout_squashes hw, State.drainTimeout_idle⟩,
    fun s i slot ph hw hst hentries hlocks hmbox hctxs howed _ => State.resetCompletion_completes hw hst ⟨hentries, hlocks, hmbox, hctxs⟩ howed⟩
  obtain ⟨t, ht, htold, hothers, hres, heq⟩ := State.resize_resizes hr hok hev
  have hactive := State.resizeCheck_active hok
  refine ⟨t, ht, htold, hothers, ?_, ?_, ?_, ?_, ?_, ?_, ?_, hres.owned, hres.st.trans hactive, heq⟩
  · rw [hres.jquota, State.bit_mask (by decide)]
  · rw [hres.lquota, State.bit_mask (by decide)]
  · rw [hres.weight, State.bit_mask (by decide)]
  · rw [hres.winallow, State.bit_mask (by decide)]
  · rw [hres.dnallow, State.bit_mask (by decide)]
  · rw [hres.keyallow, State.bit_mask (by decide)]
  · rw [hres.c0rate, State.bit_mask (by decide)]

end Sys2Proof.Machine
end
